-- ==== Sys2Proof/Word.lean ====
section
/-! DEFINITION. The word types of the part: bytes and 64-bit registers (R6, R7), and the plainest arithmetic. -/
namespace Sys2Proof

/-- A byte of a data structure (R6). -/
abbrev Byte := BitVec 8

/-- A control-plane register (R7: registers are 64 bits wide). -/
abbrev Word := BitVec 64

/-- Saturation of a counter of `w` bits. -/
def satTo (w v : Nat) : Nat := min v (2 ^ w - 1)

/-- The 16-bit two's complement of a temperature or current in the unit of its register. -/
def toTwos (w : Nat) (v : Int) : Nat := (v % (2 ^ w : Int)).toNat

/-- The signed value of a `w`-bit two's complement field. -/
def ofTwos (w v : Nat) : Int := if v < 2 ^ (w - 1) then (v : Int) else (v : Int) - (2 ^ w : Int)

end Sys2Proof
end

