-- ==== Sys2Proof/Syntax.lean ====
section
/-! DEFINITION. The commands and events of the FJ-6408, one constructor of `Instr` for each row of
spec/opcode_table.json.  The table gives the rows no operands and no bits: an operand is what the outside
(a host, a firmware core, the mechanics, the neighbour on a link) supplies to that step, as the cited rule
names it (assumption log 1). -/
namespace Sys2Proof

/-- Instance numbers (R4). -/
abbrev HstId := Fin 2
abbrev LmlId := Fin 4
abbrev HdaId := Fin 4
abbrev ActId := Fin 8
abbrev ChnId := Fin 16
abbrev HeadId := Fin 12
abbrev DomId := Fin 23

/-- Who makes a control-plane access (R7, GLB_BUS_ERR.requester). -/
inductive Requester where
  | core (c : Fin 8)
  | bar2 (h : HstId)
  | dbg
  deriving DecidableEq, Repr

/-- A control-plane access: its size in bytes and, for a write, its data (R7). -/
inductive Access where
  | rd (size : Nat)
  | wr (size : Nat) (data : BitVec 64)
  deriving DecidableEq, Repr

/-- JTAG instructions (R396, R448). -/
inductive JtagOp where
  | idcode
  | bypass
  | samplePreload
  | ctrl (addr : Nat) (acc : Access)
  | extest
  | scan (on : Bool)
  | halt (core : Fin 8)
  | resume (core : Fin 8)
  deriving DecidableEq, Repr

/-- Traffic kinds (R51, k = 0 to 9), and the two that the hardware itself places in class 7 (R20). -/
inductive Traffic where
  | hostAdmin | hostHigh | hostOther | chainTransit | chainLocal | destage | mediaRead | engine | firmware | homework
  | mapFill | fireDrill
  deriving DecidableEq, Repr

/-- A crossbar packet (R16): input, output, traffic kind, beats, the beats that carry a parity error at the output, those whose
poison bit is set already, and the command context the payload belongs to. -/
structure Packet where
  inp : Fin 8
  out : Fin 8
  kind : Traffic
  beats : Nat
  badBeats : List Nat
  poison : List Nat
  cmd : Option Nat
  deriving DecidableEq, Repr

/-- What a memory read met (R337, R340): the macro (0x3FF DRAM), the address, the syndrome's kind. -/
inductive ErrKind where
  | correctable
  | uncorrectable
  | marker
  deriving DecidableEq, Repr

structure MemErr where
  mac : Nat
  addr : Nat
  syndrome : Nat
  kind : ErrKind
  deriving DecidableEq, Repr

/-- The clocks with a lock monitor (R30). -/
inductive ClockId where
  | xtal | core | ctl | memc | memphy | sec | mgt
  | hst (h : HstId)
  | lml (p : LmlId)
  | chn (n : ChnId)
  | ssc (n : HdaId) (unitB : Bool)
  deriving DecidableEq, Repr

/-- NVMe submission queue priority classes (R76). -/
inductive Prio where
  | urgent | high | medium | low
  deriving DecidableEq, Repr

/-- Zone Management Send actions (R121). -/
inductive ZoneAction where
  | openZone | closeZone | finishZone | resetZone | offlineZone
  deriving DecidableEq, Repr

/-- How a sequencer task of the Timetable ended (R199, R229). -/
inductive TaskOutcome where
  /-- STOP with success; `poisoned` lists the LBAs read or written with the poisoned mark. -/
  | done (poisoned : List Nat)
  /-- STOP with status no data or a cut sector (R231, R241), or any other cause (R199): reposted. -/
  | cut (cause : Nat)
  /-- A second assist fault, or one at calibration (R244), on this head. -/
  | assistFault (head : HeadId)
  deriving DecidableEq, Repr

/-- What the baseline filter or the envelope of one reader shows over a run of symbols (R212): the baseline's shift of a
suspected asperity, the envelope of a suspected dropout, in the unit of the preamble amplitude.  Symbols count from the start
of the sector's slot, `stop` is the first one past the run. -/
structure Defect where
  reader : Fin 2
  asperity : Bool
  start : Nat
  stop : Nat
  level : Nat
  deriving DecidableEq, Repr

/-- What the channel shows at a primary sync mark: the timing loop's lock, and suspected defects up to it (R204, R212). -/
structure SyncObs where
  lock : Bool
  defects : List Defect
  deriving DecidableEq, Repr

/-- What the channel shows at the end of a resync search: the timing loop's lock, both readers' preamble amplitudes, and suspected
defects up to it (R204, R206, R212). -/
structure ResyncObs where
  lock : Bool
  amp0 : Nat
  amp1 : Nat
  defects : List Defect
  deriving DecidableEq, Repr

/-- The last symbols of a sector at a channel, and the defects suspected in them (R212). -/
structure SectorTail where
  chn : ChnId
  defects : List Defect
  deriving DecidableEq, Repr

/-- What detector and decoder of a channel make of one sector's samples (R207-R215).  `llr` holds one list for each detector
pass, the detector's value of every codeword bit before the scrambling bit is taken off and before the limit of 31; a positive
value speaks for a 0.  `word` is the decoder's word when it stopped, bit i that of codeword bit i, after `iters` iterations.
`samples` holds the resampled pair of readers for each codeword bit (R204, R207), as far as the adaptation uses them, and `lost` what
the read of the sample buffer met (R342), each with the first symbol whose samples it touches and the first one past them. -/
structure DecodeRes where
  iters : Nat
  llr : List (List Int)
  word : Nat
  samples : List (Int × Int)
  lost : List (MemErr × Nat × Nat) := []
  deriving DecidableEq, Repr

/-- How a step of the retry ladder ended for a sector (R229). -/
inductive LadderRes where
  | decoded (errs iters : Nat)
  | failed
  | overrun
  deriving DecidableEq, Repr

/-- What a Zone, Namespace or Copy command carries for one range. -/
structure LbaRange where
  nsid : Nat
  slba : Nat
  count : Nat
  /-- key tag (R165) of a Copy's source range, or of the command itself where its row has no other operand for it -/
  tag : Nat := 0
  deriving DecidableEq, Repr

/-- A destination or zone start of a command, and the command's key tag (R165). -/
structure KeyedLba where
  lba : Nat
  tag : Nat
  deriving DecidableEq, Repr

/-- A value that Set Features gives, and whether it is saved (R105). -/
structure FeatureValue where
  value : Nat
  save : Bool
  deriving DecidableEq, Repr

/-- What the decoder found in the worst sector of a band (R128, R217). -/
structure BandMargin where
  errs : Nat
  iters : Nat
  deriving DecidableEq, Repr

/-- Vendor fields of Namespace Management create (R110). -/
structure NsCreate where
  zoned : Bool
  nsze : Nat
  cls : Nat
  parity : Nat
  actMask : Nat
  reservedZero : Bool
  /-- the namespace uses Key Per I/O (R167) -/
  kpio : Bool
  deriving DecidableEq, Repr

/-- One servo sample of a head (R252, R253): what its servo field gives, the position the lane's estimator predicts for
it (in q), what the head's milliactuator law and model answer for the error, the lane's velocity estimate in q/ms and the SSC
cycles by which the sample is older than the reference head's (R251). -/
structure ServoSample where
  idOk : Bool
  track : Nat
  pes : Int
  wedgeOk : Bool
  ampOk : Bool
  predQ : Int
  uMa : Int
  m : Int
  vel : Int
  age : Nat
  deriving DecidableEq, Repr

/-- A Lomey frame header (R312), the outcome of its CRC and tag checks, and whether it is stomped. -/
structure Frame where
  dest : Nat
  src : Nat
  budget : Nat
  tc : Nat
  ty : Nat
  enc : Bool
  path : Bool
  turned : Bool
  poison : Bool
  attempt : Nat
  last : Bool
  length : Nat
  tag : Nat
  seq : Nat
  /-- type-specific fields (R314), in the order of the table -/
  spec : List Nat
  /-- payload: data identities, or the SQE's fields -/
  body : List Nat
  deriving DecidableEq, Repr

inductive FrameCheck where
  | good | crcBad | tagBad | stomped | malformed
  deriving DecidableEq, Repr

/-- The write class, read class and admin commands a CMD frame forwards (R325, R98). -/
inductive FwdKind where
  | readClass | writeClass | flush | identify | feature
  deriving DecidableEq, Repr

/-- TCG objects a method names (R404). -/
structure TcgArg where
  authority : Nat
  range : Nat
  lockRead : Bool
  lockWrite : Bool
  credentialOk : Bool
  /-- the LBAs a Set gives the range -/
  bounds : Option LbaRange
  deriving DecidableEq, Repr

/-- The OTP fields that the production program programs on the way from TEST to PROVISIONED (R384, R389). -/
structure ProdFields where
  deviceId : Nat
  keyHash0 : Nat
  keyHash1 : Nat
  rootSecret : Nat
  bek0 : Nat
  ceilEv : Nat
  deriving DecidableEq, Repr

/-- A Permission Slip (R392) as bytes. -/
abbrev SlipBytes := List (BitVec 8)

/-- Structure-independent facts of a cold start that the pins and the die supply (R434, R376). -/
structure BootEnv where
  gpio4 : Bool
  dieMaxC : Int
  romOk : Bool
  otpOk : Bool
  dramGib : Nat
  deriving DecidableEq, Repr

/-- What a sequencer's surroundings supply to one word (R184, R189, R192, R200): the absolute rotational position of
the head of each channel at the issue (in position units, turns counted on), how many position units 1 µs lasts there,
the CHN ticks since a WAIT word was entered, and the fields whose parity fails in the word fetched. -/
structure SeqEnv where
  posA : Nat
  posB : Nat
  leadA : Nat
  leadB : Nat
  elapsed : Nat
  parityFail : Nat
  deriving DecidableEq, Repr

/-- What a calibration finds (R380, R382, R247): whether it converged, whether a spare combination fits, the write
level needed, heater codes, photodiode efficiency, the power-on time, and for the kinds without a register of their values the
setting measured: the combination of elements kept (REDUNDANT) or the position of each tap or threshold (TAP). -/
structure CalRes where
  converged : Bool
  spareFits : Bool
  level : Nat
  readCode : Nat
  writeCode : Nat
  tdCode : Nat
  eff : Nat
  powerOnMs : Nat
  setting : List Int
  deriving DecidableEq, Repr

/-- What lane 2's law and the hold bus give at a tick (R266, R301, R307): the voltage of the hold bus in mV, the total power its
loop asks for in mW, the duty of the law (negative generates), the phase of the step in 1/65,536, and the cycles the lane used. -/
structure TickLaw where
  hold : Nat
  total : Nat
  duty : Int
  phase : Nat
  cycles : Nat
  deriving DecidableEq, Repr

/-- The commands and events, one constructor for each row of the opcode table, in its order. -/
inductive Instr where
  /-- REGISTER_WRITE (R8). -/
  | registerWrite (rq : Requester) (addr : Nat) (acc : Access)
  /-- BUS_TIMEOUT (R15). -/
  | busTimeout (rq : Requester) (addr : Nat) (isWrite : Bool)
  /-- IMPLICIT_ACCESS_WAKE (R360). -/
  | implicitAccessWake (dom : DomId)
  /-- IMPLICIT_VOTE_WITHDRAW (R360). -/
  | implicitVoteWithdraw (dom : DomId)
  /-- DBG_ACCESS (R448). -/
  | dbgAccess (op : JtagOp)
  /-- XBAR_ARBITRATE (R22). -/
  | xbarArbitrate (cycle : Nat) (arrivals : List Packet)
  /-- PACKET_TRANSFER_COMPLETE (R19). -/
  | packetTransferComplete (out : Fin 8) (cycle : Nat) (errs : List (Nat × MemErr))
  /-- CREDIT_RETURN (R17). -/
  | creditReturn (out : Fin 8) (cls : Fin 8) (beats : Nat)
  /-- CLOCK_LOCK_LOST (R30). -/
  | clockLockLost (c : ClockId)
  /-- CLOCK_DOMAIN_SWITCH (R27). -/
  | clockDomainSwitch (chn : ChnId) (toMedia : Bool)
  /-- REGION_EVENT (R35). -/
  | regionEvent (pair : Fin 8) (volt : Bool)
  /-- REGION_BIT_CLEAR (R35). -/
  | regionBitClear (pair : Fin 8) (volt : Bool)
  /-- COLD_START (R385). -/
  | coldStart (env : BootEnv)
  /-- SRAM_WIPE_DONE (R350). -/
  | sramWipeDone
  /-- DRAM_WIPE_DONE (R350). -/
  | dramWipeDone (ms : Nat)
  /-- BOOT_DONE (R438). -/
  | bootDone (ms : Nat)
  /-- PERST_DEASSERT (R440). -/
  | perstDeassert (h : HstId) (width : Nat) (gen : Nat)
  /-- STRUCTURAL_ACTIVATE_DOWNLOAD (R65). -/
  | structuralActivateDownload (h : HstId) (cid : Nat) (offsetDw : Nat) (piece : List (BitVec 8))
  /-- STRUCTURAL_ACTIVATE_VERIFY (R67). -/
  | structuralActivateVerify (h : HstId) (cid : Nat)
  /-- STRUCTURAL_ACTIVATE_ABORT (R66). -/
  | structuralActivateAbort (h : HstId) (cid : Nat)
  /-- ACTIVATE_VERIFY_DONE (R67). -/
  | activateVerifyDone
  /-- ACTIVATE_SLOT_WRITTEN (R67). -/
  | activateSlotWritten
  /-- ACTIVATE_INFLIGHT_DRAINED (R67). -/
  | activateInflightDrained
  /-- ACTIVATE_COMMIT (R67). -/
  | activateCommit
  /-- ACTIVATE_RESTRUCTURE (R67). -/
  | activateRestructure
  /-- COMMAND_FETCH (R76). -/
  | commandFetch (h : HstId)
  /-- FETCH_RESUME (R74). -/
  | fetchResume (h : HstId)
  /-- LOCK_INSERT (R78). -/
  | lockInsert (fe : Fin 7)
  /-- LOCK_ENTRIES_FREED (R79). -/
  | lockEntriesFreed (fe : Fin 7)
  /-- LOCK_GRANT (R80). -/
  | lockGrant (id : Nat)
  /-- WRITE_DATA_BUFFERED (R80). -/
  | writeDataBuffered (id : Nat) (split : List (Nat × HdaId)) (poison : List Nat)
  /-- WRITE_COVERAGE (R83). -/
  | writeCoverage (n : HdaId)
  /-- TOLERABLE_LATENCY_EXPIRY (R88). -/
  | tolerableLatencyExpiry (id : Nat)
  /-- MEDIA_TASK_END (R199). -/
  | mediaTaskEnd (tid : Nat) (o : TaskOutcome)
  /-- READ (R78). -/
  | read (h : HstId) (qid : Nat) (cid : Nat) (r : LbaRange) (fua : Bool) (keyTag : Nat)
  /-- WRITE (R83). -/
  | write (h : HstId) (qid : Nat) (cid : Nat) (r : LbaRange) (toks : List Nat) (fua : Bool) (keyTag : Nat)
  /-- WRITE_ZEROES (R78). -/
  | writeZeroes (h : HstId) (qid : Nat) (cid : Nat) (r : LbaRange) (fua : Bool)
  /-- WRITE_UNCORRECTABLE (R78). -/
  | writeUncorrectable (h : HstId) (qid : Nat) (cid : Nat) (r : LbaRange)
  /-- COMPARE (R78). -/
  | compare (h : HstId) (qid : Nat) (cid : Nat) (r : LbaRange) (toks : List Nat)
  /-- VERIFY (R78). -/
  | verify (h : HstId) (qid : Nat) (cid : Nat) (r : LbaRange)
  /-- DATASET_MANAGEMENT (R124). -/
  | datasetManagement (h : HstId) (qid : Nat) (cid : Nat) (nsid : Nat) (ad : Bool) (ranges : List LbaRange)
  /-- COPY (R330). -/
  | copy (h : HstId) (qid : Nat) (cid : Nat) (nsid : Nat) (dst : KeyedLba) (ranges : List LbaRange)
  /-- ZONE_APPEND (R78). -/
  | zoneAppend (h : HstId) (qid : Nat) (cid : Nat) (nsid : Nat) (zslba : KeyedLba) (toks : List Nat) (fua : Bool)
  /-- ZONE_OPEN (R121). -/
  | zoneOpen (h : HstId) (qid : Nat) (cid : Nat) (nsid : Nat) (zslba : Nat) (all : Bool)
  /-- ZONE_CLOSE (R121). -/
  | zoneClose (h : HstId) (qid : Nat) (cid : Nat) (nsid : Nat) (zslba : Nat) (all : Bool)
  /-- ZONE_FINISH (R121). -/
  | zoneFinish (h : HstId) (qid : Nat) (cid : Nat) (nsid : Nat) (zslba : Nat) (all : Bool)
  /-- ZONE_RESET (R129). -/
  | zoneReset (h : HstId) (qid : Nat) (cid : Nat) (nsid : Nat) (zslba : Nat) (all : Bool)
  /-- ZONE_OFFLINE (R122). -/
  | zoneOffline (h : HstId) (qid : Nat) (cid : Nat) (nsid : Nat) (zslba : Nat) (all : Bool)
  /-- ZONE_MANAGEMENT_RECEIVE (R121). -/
  | zoneManagementReceive (h : HstId) (qid : Nat) (cid : Nat) (nsid : Nat) (zslba : Nat)
  /-- FLUSH (R89). -/
  | flush (h : HstId) (qid : Nat) (cid : Nat) (nsid : Nat)
  /-- FLUSH_LOCKER_FALLBACK (R90). -/
  | flushLockerFallback (id : Nat) (eid : Nat)
  /-- FLUSH_COMPLETE (R89). -/
  | flushComplete (id : Nat)
  /-- ABORT (R109). -/
  | abort (h : HstId) (cid : Nat) (qid : Nat) (target : Nat)
  /-- NAMESPACE_MANAGEMENT_CREATE (R111). -/
  | namespaceManagementCreate (h : HstId) (cid : Nat) (c : NsCreate)
  /-- NAMESPACE_MANAGEMENT_DELETE (R112). -/
  | namespaceManagementDelete (h : HstId) (cid : Nat) (nsid : Nat)
  /-- NAMESPACE_ATTACHMENT (R69). -/
  | namespaceAttachment (h : HstId) (cid : Nat) (nsid : Nat) (attach : Bool) (ctrls : List Nat)
  /-- IDENTIFY (R70). -/
  | identify (h : HstId) (cid : Nat) (cns : Nat) (nsid : Nat)
  /-- SET_FEATURES_NUMBER_OF_QUEUES (R72). -/
  | setFeaturesNumberOfQueues (h : HstId) (cid : Nat) (nsqr : Nat) (ncqr : Nat)
  /-- CREATE_IO_QUEUE (R72). -/
  | createIoQueue (h : HstId) (cid : Nat) (submission : Bool) (qid : Nat) (entries : Nat) (contiguous : Bool) (prio : Prio)
  /-- SET_FEATURES_VOLATILE_WRITE_CACHE (R87). -/
  | setFeaturesVolatileWriteCache (h : HstId) (cid : Nat) (enable : Bool)
  /-- SET_FEATURES_POWER_STATE (R362). -/
  | setFeaturesPowerState (h : HstId) (cid : Nat) (ps : Nat) (workload : Nat)
  /-- SET_FEATURES_TEMPERATURE_THRESHOLD (R371). -/
  | setFeaturesTemperatureThreshold (h : HstId) (cid : Nat) (sensor : Nat) (under : Bool) (kelvin : Nat)
  /-- SET_FEATURES_TOLERABLE_LATENCY (R105). -/
  | setFeaturesTolerableLatency (h : HstId) (cid : Nat) (nsid : Nat) (us : FeatureValue)
  /-- GET_FEATURES_TOLERABLE_LATENCY (R105). -/
  | getFeaturesTolerableLatency (h : HstId) (cid : Nat) (nsid : Nat)
  /-- SET_FEATURES_SPINDLE_CURVE (R105). -/
  | setFeaturesSpindleCurve (h : HstId) (cid : Nat) (mask : Nat) (curve : FeatureValue)
  /-- GET_FEATURES_SPINDLE_CURVE (R105). -/
  | getFeaturesSpindleCurve (h : HstId) (cid : Nat)
  /-- GET_FEATURES_DIRTY_BOUND (R105). -/
  | getFeaturesDirtyBound (h : HstId) (cid : Nat)
  /-- SET_FEATURES_DIRTY_BOUND (R105). -/
  | setFeaturesDirtyBound (h : HstId) (cid : Nat)
  /-- GET_LOG_REPORT_CARD (R412). -/
  | getLogReportCard (h : HstId) (cid : Nat) (lsp : Nat) (lsi : Nat) (offset : Nat)
  /-- GET_LOG_CHAIN_TOPOLOGY (R333). -/
  | getLogChainTopology (h : HstId) (cid : Nat)
  /-- GET_LOG_DETENTION (R133). -/
  | getLogDetention (h : HstId) (cid : Nat) (nsid : Nat)
  /-- GET_LOG_HEAD_HEALTH (R248). -/
  | getLogHeadHealth (h : HstId) (cid : Nat)
  /-- GET_LOG_TELEMETRY (R418). -/
  | getLogTelemetry (h : HstId) (cid : Nat)
  /-- GET_LOG_SMART_HEALTH (R371). -/
  | getLogSmartHealth (h : HstId) (cid : Nat)
  /-- ASYNCHRONOUS_EVENT_REQUEST (R67). -/
  | asynchronousEventRequest (h : HstId) (cid : Nat)
  /-- CONTROLLER_RESET (R91). -/
  | controllerReset (h : HstId) (byPerst : Bool)
  /-- NVM_SUBSYSTEM_RESET (R91). -/
  | nvmSubsystemReset
  /-- CONTROLLER_ENABLE (R91). -/
  | controllerEnable (h : HstId)
  /-- CONTROLLER_READY (R91). -/
  | controllerReady (h : HstId)
  /-- SHUTDOWN_NOTIFICATION (R93). -/
  | shutdownNotification (h : HstId) (abrupt : Bool)
  /-- SHUTDOWN_COMPLETE (R93). -/
  | shutdownComplete (h : HstId)
  /-- ORDERLY_RESET (R94). -/
  | orderlyReset
  /-- ORDERLY_RESET_FLUSH_END (R94). -/
  | orderlyResetFlushEnd (uncovered : List Nat)
  /-- FIRMWARE_IMAGE_DOWNLOAD (R386). -/
  | firmwareImageDownload (h : HstId) (cid : Nat) (offsetDw : Nat) (piece : List (BitVec 8))
  /-- FIRMWARE_COMMIT (R95). -/
  | firmwareCommit (h : HstId) (cid : Nat) (slot : Fin 2) (action : Nat)
  /-- FIRMWARE_IMAGE_SWITCH (R95). -/
  | firmwareImageSwitch
  /-- FIRMWARE_ACTIVATION_TIMEOUT (R96). -/
  | firmwareActivationTimeout
  /-- COMPRESSED_ZONE_APPEND (R154). -/
  | compressedZoneAppend (h : HstId) (qid : Nat) (cid : Nat) (nsid : Nat) (zslba : Nat) (nlb : Nat) (ctx : Nat) (cont : Bool) (level : Nat) (gcm : Bool) (keyTag : Nat) (chunk : List (BitVec 8))
  /-- COMPRESSED_READ (R156). -/
  | compressedRead (h : HstId) (qid : Nat) (cid : Nat) (nsid : Nat) (slba : Nat) (stored : Nat) (bufLbas : Nat) (keyTag : Nat)
  /-- STREAM_CONTEXT_SAVE (R151). -/
  | streamContextSave (h : HstId) (qid : Nat) (cid : Nat) (nsid : Nat) (ctx : Nat)
  /-- STREAM_CONTEXT_RESTORE (R152). -/
  | streamContextRestore (h : HstId) (qid : Nat) (cid : Nat) (nsid : Nat) (ctx : Nat) (image : List (BitVec 8))
  /-- CONTEXT_GRANT (R150). -/
  | contextGrant (ctx : Nat)
  /-- CHUNK_DISPATCH (R142). -/
  | chunkDispatch (e : Fin 8)
  /-- CHUNK_COMPRESSED (R154). -/
  | chunkCompressed (e : Fin 8) (stream : List (BitVec 8)) (poison : Bool)
  /-- FRAME_PLACEMENT (R154). -/
  | framePlacement (id : Nat)
  /-- DECOMPRESSION_DONE (R156). -/
  | decompressionDone (e : Fin 8) (errs : List Nat) (histErrs : List Nat)
  /-- GCM_JOB_DONE (R160). -/
  | gcmJobDone (core : Fin 8) (errs : List Nat) (poison : Bool)
  /-- KEY_CACHE_FILL (R166). -/
  | keyCacheFill (slot : Nat) (crcOk : Bool) (kwOk : Bool)
  /-- NONCE_RESERVE_APPEND (R162). -/
  | nonceReserveAppend
  /-- NONCE_RECORD_WRITTEN (R162). -/
  | nonceRecordWritten
  /-- KEY_INJECT (R167). -/
  | keyInject (nsid : Nat) (tag : Nat) (wrappedOk : Bool) (key : Nat)
  /-- SLOT_RETIRE_COMPLETE (R168). -/
  | slotRetireComplete (slot : Nat)
  /-- LOCKING_RANGE_UNLOCK (R169). -/
  | lockingRangeUnlock (range : Nat) (credentialOk : Bool)
  /-- LOCKING_RANGE_LOCK (R169). -/
  | lockingRangeLock (range : Nat)
  /-- RANGE_KEK_ZERO (R169). -/
  | rangeKekZero (range : Nat)
  /-- CIPHER_CONTEXT_SAVE (R171). -/
  | cipherContextSave (rq : Requester) (core : Fin 8)
  /-- CIPHER_CONTEXT_RESTORE (R171). -/
  | cipherContextRestore (rq : Requester) (core : Fin 8)
  /-- COUNTERMEASURE_CONFIG (R172). -/
  | countermeasureConfig (rq : Requester) (dummyMax : Fin 4) (shuffle : Bool)
  /-- KEY_INVALIDATE (R166). -/
  | keyInvalidate (rq : Requester) (slot : Nat)
  /-- KEY_DROP_DONE (R166). -/
  | keyDropDone
  /-- DRBG_RESEED (R173). -/
  | drbgReseed
  /-- ENTROPY_HEALTH_FAIL (R173). -/
  | entropyHealthFail
  /-- SANITIZE (R176). -/
  | sanitize (h : HstId) (cid : Nat) (action : Nat) (owpass : Nat) (oipbp : Bool) (pattern : Nat)
  /-- SANITIZE_STEP_DONE (R176). -/
  | sanitizeStepDone
  /-- TCG_PROPERTIES (R404). -/
  | tcgProperties (h : HstId) (cid : Nat)
  /-- TCG_START_SESSION (R404). -/
  | tcgStartSession (h : HstId) (cid : Nat) (a : TcgArg)
  /-- TCG_END_SESSION (R404). -/
  | tcgEndSession (h : HstId) (cid : Nat)
  /-- TCG_AUTHENTICATE (R404). -/
  | tcgAuthenticate (h : HstId) (cid : Nat) (a : TcgArg)
  /-- TCG_GET (R404). -/
  | tcgGet (h : HstId) (cid : Nat) (a : TcgArg)
  /-- TCG_SET (R404). -/
  | tcgSet (h : HstId) (cid : Nat) (a : TcgArg)
  /-- TCG_GENKEY (R404). -/
  | tcgGenkey (h : HstId) (cid : Nat) (a : TcgArg)
  /-- TCG_ERASE (R404). -/
  | tcgErase (h : HstId) (cid : Nat) (a : TcgArg)
  /-- TCG_RANDOM (R404). -/
  | tcgRandom (h : HstId) (cid : Nat) (count : Nat)
  /-- CLEANING_START (R125). -/
  | cleaningStart (nsid : Nat) (act : ActId) (band : Nat)
  /-- MAP_CHECKPOINT (R127). -/
  | mapCheckpoint (nsid : Nat)
  /-- MAP_LOAD (R127). -/
  | mapLoad (nsid : Nat)
  /-- HOMEWORK_READ (R128). -/
  | homeworkRead (act : ActId) (head : HeadId) (band : Nat) (worst : BandMargin)
  /-- HOMEWORK_REWRITE (R129). -/
  | homeworkRewrite (nsid : Nat) (zone : Nat)
  /-- MAP_LOOKUP (R134). -/
  | mapLookup (page : Nat) (write : Bool) (pe : Nat) (id : Nat)
  /-- MAP_FILL_DONE (R134). -/
  | mapFillDone (page : Nat)
  /-- MAP_PREFETCH (R135). -/
  | mapPrefetch (page : Nat)
  /-- MAP_CLEAN (R137). -/
  | mapClean (rq : Requester) (page : Nat)
  /-- MAP_INVALIDATE (R137). -/
  | mapInvalidate (rq : Requester) (page : Nat)
  /-- MAP_CLEAN_INVALIDATE (R137). -/
  | mapCleanInvalidate (rq : Requester) (page : Nat)
  /-- MAP_MAINT_DONE (R137). -/
  | mapMaintDone
  /-- MAP_ENABLE (R138). -/
  | mapEnable (rq : Requester)
  /-- MAP_DISABLE (R138). -/
  | mapDisable (rq : Requester)
  /-- MAP_DISABLE_COMPLETE (R138). -/
  | mapDisableComplete
  /-- MAP_GROUP_POWER_DOWN (R139). -/
  | mapGroupPowerDown (rq : Requester) (g : Fin 8)
  /-- MAP_GROUP_SCRATCH (R139). -/
  | mapGroupScratch (rq : Requester) (mask : Fin 256)
  /-- MAP_GROUP_RESTORE (R139). -/
  | mapGroupRestore (rq : Requester) (g : Fin 8) (scratch : Bool)
  /-- MAP_GROUP_TRANSITION_DONE (R139). -/
  | mapGroupTransitionDone (g : Fin 8)
  /-- SCRATCH_ACCESS (R140). -/
  | scratchAccess (rq : Requester) (g : Fin 8) (offset : Nat) (acc : Access)
  /-- SEQUENCER_TASK_START (R183). -/
  | sequencerTaskStart (a : ActId)
  /-- MICROWORD_EXECUTE (R186). -/
  | microwordExecute (a : ActId) (env : SeqEnv)
  /-- WAIT_CONDITION_MET (R189). -/
  | waitConditionMet (a : ActId) (env : SeqEnv)
  /-- WAIT_TIMEOUT (R189). -/
  | waitTimeout (a : ActId) (env : SeqEnv)
  /-- GATE_QUEUE_SPACE (R191). -/
  | gateQueueSpace (a : ActId) (env : SeqEnv)
  /-- SCRATCH_ACCESS_DONE (R196). -/
  | scratchAccessDone (a : ActId) (poison : Bool)
  /-- GATE_EDGE (R192). -/
  | gateEdge (chn : ChnId) (time : Nat)
  /-- SEQUENCER_ABORT (R199). -/
  | sequencerAbort (a : ActId)
  /-- SQR_CUST_EN (R197). -/
  | sqrCustEn (rq : Requester) (a : ActId) (on : Bool)
  /-- CONTROL_STORE_WRITE (R198). -/
  | controlStoreWrite (rq : Requester) (a : ActId) (offset : Nat) (acc : Access)
  /-- CONTROL_STORE_REPAIR (R200). -/
  | controlStoreRepair (a : ActId) (poison : Bool)
  /-- PRIMARY_SYNC_FOUND (R222). -/
  | primarySyncFound (chn : ChnId) (pos : Nat) (dist : Nat) (seen : SyncObs)
  /-- RESYNC_SEARCH_END (R223). -/
  | resyncSearchEnd (chn : ChnId) (hit : Option (Nat × Nat × Bool)) (seen : ResyncObs)
  /-- SECTOR_LAST_PARITY (R215). -/
  | sectorLastParity (tail : SectorTail)
  /-- DECODE_DONE (R215). -/
  | decodeDone (chn : ChnId) (seq : Nat) (res : DecodeRes)
  /-- REFRAMED_DECODE_DONE (R225). -/
  | reframedDecodeDone (chn : ChnId) (seq : Nat) (res : DecodeRes)
  /-- REDECODE_ALT_SET (R228). -/
  | redecodeAltSet (chn : ChnId) (seq : Nat)
  /-- REDECODE_HALVED_THRESHOLDS (R228). -/
  | redecodeHalvedThresholds (chn : ChnId) (seq : Nat)
  /-- REDECODE_READER0 (R228). -/
  | redecodeReader0 (chn : ChnId) (seq : Nat)
  /-- REDECODE_READER1 (R228). -/
  | redecodeReader1 (chn : ChnId) (seq : Nat)
  /-- RELEASE_SAMPLES (R218). -/
  | releaseSamples (chn : ChnId) (seq : Nat)
  /-- REDECODE_DONE (R228). -/
  | redecodeDone (chn : ChnId) (res : DecodeRes)
  /-- RETRY_LADDER_STEP (R229). -/
  | retryLadderStep (act : ActId) (head : HeadId) (nsid : Nat) (lba : Nat) (step : Nat) (held : Bool) (erasures : Nat) (r : LadderRes)
  /-- WRITE_FIFO_SECTOR (R231). -/
  | writeFifoSector (chn : ChnId) (tok : Nat) (poison : Bool)
  /-- WRITE_SLOT_START (R231). -/
  | writeSlotStart (chn : ChnId) (sector : Nat)
  /-- WRITE_PLL_ARM (R232). -/
  | writePllArm (rq : Requester) (chn : ChnId) (arm : Bool)
  /-- SERVO_TIMING_REFERENCE (R232). -/
  | servoTimingReference (chn : ChnId) (wedge : Nat) (phase64 : Nat) (period : Nat)
  /-- ASSIST_LEVEL_STEP (R237). -/
  | assistLevelStep (chn : ChnId)
  /-- ASSIST_MONITOR_POLL (R238). -/
  | assistMonitorPoll (chn : ChnId) (reading : Nat)
  /-- FLY_SETTLED (R239). -/
  | flySettled (chn : ChnId)
  /-- SHOCK_INPUT (R240). -/
  | shockInput (n : HdaId)
  /-- PREAMP_FAULT (R240). -/
  | preampFault (a : ActId)
  /-- SERVO_SAMPLE (R249). -/
  | servoSample (n : HdaId) (lane : Fin 2) (sa : ServoSample) (sb : ServoSample) (uVcm : Int)
  /-- LANE_LOST (R252). -/
  | laneLost (n : HdaId) (lane : Fin 2)
  /-- LANE_REACQUIRED (R252). -/
  | laneReacquired (n : HdaId) (lane : Fin 2)
  /-- LANE_LOST_RETRACT (R252). -/
  | laneLostRetract (n : HdaId) (lane : Fin 2)
  /-- SERVO_OUTPUT_INSTANT (R250). -/
  | servoOutputInstant (n : HdaId) (lane : Fin 2) (doneA : Bool) (doneB : Bool) (diff : Nat × Nat) (cycles : Nat)
  /-- STANDBY_RESYNC (R268). -/
  | standbyResync (n : HdaId)
  /-- OVERRUN_FAULT (R271). -/
  | overrunFault (n : HdaId)
  /-- STANDBY_UNFIT (R271). -/
  | standbyUnfit (n : HdaId)
  /-- ROLE_EXCHANGE (R269). -/
  | roleExchange (n : HdaId)
  /-- EXCHANGE_DEFER_EXPIRY (R269). -/
  | exchangeDeferExpiry (n : HdaId)
  /-- PROBATION_END (R271). -/
  | probationEnd (n : HdaId)
  /-- DEGRADED_RECOVERY (R271). -/
  | degradedRecovery (n : HdaId)
  /-- PAIR_SPLIT (R257). -/
  | pairSplit (n : HdaId) (lane : Fin 2)
  /-- LANE_GO (R260). -/
  | laneGo (n : HdaId) (lane : Fin 2)
  /-- ON_TRACK (R262). -/
  | onTrack (n : HdaId) (lane : Fin 2)
  /-- TRACE_STOP (R265). -/
  | traceStop (n : HdaId) (unitB : Bool)
  /-- FIRMWARE_RETRACT (R272). -/
  | firmwareRetract (n : HdaId) (mask : Fin 4)
  /-- RETRACT_FRAME_REPEAT (R293). -/
  | retractFrameRepeat (n : HdaId)
  /-- RETRACT_RESTART (R271). -/
  | retractRestart (n : HdaId)
  /-- RETRACT_RELEASE (R272). -/
  | retractRelease (n : HdaId) (mask : Fin 4)
  /-- SPINDLE_TICK (R263). -/
  | spindleTick (n : HdaId) (speed : Nat) (vbus : Nat) (ibus : Int) (done : Bool × Bool) (law : TickLaw)
  /-- SPINDLE_START (R280). -/
  | spindleStart (n : HdaId) (turning : Bool)
  /-- SPINDLE_MODE_OFF (R277). -/
  | spindleModeOff (n : HdaId)
  /-- SPINDLE_MODE_RUN (R277). -/
  | spindleModeRun (n : HdaId)
  /-- SPINDLE_MODE_COAST (R277). -/
  | spindleModeCoast (n : HdaId)
  /-- SPINDLE_MODE_SHORT_BRAKE (R277). -/
  | spindleModeShortBrake (n : HdaId)
  /-- SPINDLE_MANUAL (R285). -/
  | spindleManual (n : HdaId) (on : Bool) (rpm : Nat)
  /-- START_NO_CROSSING (R280). -/
  | startNoCrossing (n : HdaId)
  /-- ALIGN_DONE (R280). -/
  | alignDone (n : HdaId)
  /-- OPEN_LOOP_HANDOVER (R280). -/
  | openLoopHandover (n : HdaId)
  /-- BEMF_CROSSING (R279). -/
  | bemfCrossing (n : HdaId) (err : Int)
  /-- COMMUTATION (R279). -/
  | commutation (n : HdaId) (window : Nat) (found : Bool) (disagree : Bool)
  /-- ROTOR_LOST (R281). -/
  | rotorLost (n : HdaId)
  /-- ROTOR_RELOCK (R282). -/
  | rotorRelock (n : HdaId) (speed : Nat)
  /-- CATCH_TIMEOUT (R282). -/
  | catchTimeout (n : HdaId)
  /-- DEMAND_UPDATE (R283). -/
  | demandUpdate (n : HdaId) (up : Bool)
  /-- VBUS_CHOP_ON (R286). -/
  | vbusChopOn (n : HdaId)
  /-- VBUS_CHOP_OFF (R286). -/
  | vbusChopOff (n : HdaId)
  /-- VBUS_OV1 (R286). -/
  | vbusOv1 (n : HdaId)
  /-- VBUS_OV2 (R288). -/
  | vbusOv2 (n : HdaId)
  /-- CHOPPER_FAULT (R287). -/
  | chopperFault (n : HdaId)
  /-- PSL_UPLINK_FRAME (R291). -/
  | pslUplinkFrame (n : HdaId) (f : Option (BitVec 96))
  /-- POWER_STAGE_FAULT (R433). -/
  | powerStageFault (n : HdaId)
  /-- BOUND_RECOMPUTE (R295). -/
  | boundRecompute
  /-- FIRE_DRILL_START (R300). -/
  | fireDrillStart (pwrGood : Bool) (sag : Bool)
  /-- FIRE_DRILL_FLUSH_END (R300). -/
  | fireDrillFlushEnd (n : HdaId) (written : Nat)
  /-- FIRE_DRILL_PARKED (R300). -/
  | fireDrillParked
  /-- JOURNAL_REPLAY (R306). -/
  | journalReplay (n : HdaId)
  /-- JOURNAL_REPLAY_DONE (R306). -/
  | journalReplayDone (n : HdaId) (skipped : List Nat)
  /-- TRAINING_COMPLETE (R309). -/
  | trainingComplete (p : LmlId) (lanes : Fin 256) (peerLanes : Fin 256) (peerWidth : Nat) (peerEncrypt : Bool) (delay : Nat)
  /-- TRAINING_RATE_FALLBACK (R309). -/
  | trainingRateFallback (p : LmlId)
  /-- LINK_CONTROL_FLIT (R317). -/
  | linkControlFlit (p : LmlId) (ack : Option Nat) (nak : Option Nat) (credit : List Nat) (crcOk : Bool)
  /-- LOMEY_FRAME_RECEIVED (R315). -/
  | lomeyFrameReceived (p : LmlId) (f : Frame) (chk : FrameCheck)
  /-- LINK_ACK_TIMER (R315). -/
  | linkAckTimer (p : LmlId)
  /-- LINK_CREDIT_TIMER (R316). -/
  | linkCreditTimer (p : LmlId)
  /-- LINK_REPLAY_TIMEOUT (R315). -/
  | linkReplayTimeout (p : LmlId)
  /-- BUDGET_EXPIRY (R319). -/
  | budgetExpiry (p : LmlId) (idx : Nat)
  /-- LINK_RETRAIN (R323). -/
  | linkRetrain (p : LmlId)
  /-- RETRAIN_COMPLETE (R323). -/
  | retrainComplete (p : LmlId)
  /-- RETRAIN_TIMEOUT (R324). -/
  | retrainTimeout (p : LmlId)
  /-- SECURE_WAIT_TIMEOUT (R323). -/
  | secureWaitTimeout (p : LmlId)
  /-- SECURE_SESSION_ESTABLISHED (R334). -/
  | secureSessionEstablished (p : LmlId) (chainOk : Bool) (peerHash : Nat) (peerDecom : Bool)
  /-- ROUTING_RESTORE (R323). -/
  | routingRestore (p : LmlId)
  /-- SESSION_KEY_UPDATE_DUE (R334). -/
  | sessionKeyUpdateDue (p : LmlId)
  /-- LOMEY_CMD (R327). -/
  | lomeyCmd (p : LmlId) (f : Frame)
  /-- LOMEY_ACK (R325). -/
  | lomeyAck (p : LmlId) (f : Frame)
  /-- LOMEY_XRDY (R325). -/
  | lomeyXrdy (p : LmlId) (f : Frame)
  /-- LOMEY_WDATA (R325). -/
  | lomeyWdata (p : LmlId) (f : Frame)
  /-- LOMEY_RDATA (R325). -/
  | lomeyRdata (p : LmlId) (f : Frame)
  /-- LOMEY_CPL (R325). -/
  | lomeyCpl (p : LmlId) (f : Frame)
  /-- LOMEY_PROG (R325). -/
  | lomeyProg (p : LmlId) (f : Frame)
  /-- LOMEY_CANCEL (R325). -/
  | lomeyCancel (p : LmlId) (f : Frame)
  /-- LOMEY_NAK (R320). -/
  | lomeyNak (p : LmlId) (f : Frame)
  /-- PROG_TIMER (R325). -/
  | progTimer (src : Nat) (tag : Nat)
  /-- CMD_RETRY_TIMER (R326). -/
  | cmdRetryTimer (tag : Nat)
  /-- IDLE_TIMER (R326). -/
  | idleTimer (tag : Nat)
  /-- XRDY_RETRY_TIMER (R326). -/
  | xrdyRetryTimer (src : Nat) (tag : Nat)
  /-- BUSY_RETRY_TIMER (R328). -/
  | busyRetryTimer (tag : Nat)
  /-- DEDUPE_EXPIRY (R327). -/
  | dedupeExpiry (src : Nat) (tag : Nat)
  /-- ROLL_CALL_START (R331). -/
  | rollCallStart (fromRegister : Bool)
  /-- ANNOUNCE_TIMEOUT (R331). -/
  | announceTimeout
  /-- ANNOUNCE (R332). -/
  | announce (p : LmlId) (devId : Nat) (gen : Nat)
  /-- PROBE (R332). -/
  | probe (p : LmlId) (src : Nat) (exit : Nat) (gen : Nat)
  /-- REPORT (R332). -/
  | report (p : LmlId) (dest : Nat) (devId : Nat) (addr : Nat) (ports : List Nat) (root : Bool) (arrival : Nat) (fixed : Bool) (nss : Nat)
  /-- ASSIGN (R332). -/
  | assign (p : LmlId) (addr : Nat) (gen : Nat)
  /-- DONE (R332). -/
  | done (p : LmlId) (gen : Nat)
  /-- NOTICE (R324). -/
  | notice (p : LmlId) (addr : Nat) (port : Fin 4) (up : Bool)
  /-- ROUTE (R332). -/
  | route (p : LmlId) (first : Nat) (entries : List (BitVec 64))
  /-- SPDM (R334). -/
  | spdm (p : LmlId) (msg : Nat)
  /-- GET_VERSION (R402). -/
  | getVersion (e : Fin 7)
  /-- GET_CAPABILITIES (R402). -/
  | getCapabilities (e : Fin 7)
  /-- NEGOTIATE_ALGORITHMS (R402). -/
  | negotiateAlgorithms (e : Fin 7) (supported : Bool)
  /-- GET_DIGESTS (R402). -/
  | getDigests (e : Fin 7)
  /-- GET_CERTIFICATE (R402). -/
  | getCertificate (e : Fin 7) (slot : Nat)
  /-- CHALLENGE (R402). -/
  | challenge (e : Fin 7) (slot : Nat) (nonce : Nat)
  /-- GET_MEASUREMENTS (R402). -/
  | getMeasurements (e : Fin 7) (index : Nat)
  /-- KEY_EXCHANGE (R403). -/
  | keyExchange (e : Fin 7) (session : Nat)
  /-- FINISH (R402). -/
  | finish (e : Fin 7) (macOk : Bool)
  /-- HEARTBEAT (R402). -/
  | heartbeat (e : Fin 7)
  /-- KEY_UPDATE (R402). -/
  | keyUpdate (e : Fin 7) (op : Nat)
  /-- END_SESSION (R402). -/
  | endSession (e : Fin 7)
  /-- NVME_MI_MESSAGE (R359). -/
  | nvmeMiMessage (i3c : Bool) (ok : Bool)
  /-- LOOPBACK_SELECT (R419). -/
  | loopbackSelect (rq : Requester) (site : Fin 39) (depth : Nat) (arg : Nat)
  /-- LOOPBACK_RUN (R419). -/
  | loopbackRun (site : Fin 39) (on : Bool) (locked : Bool) (errors : Nat) (checked : Nat)
  /-- ECC_INJECT (R342). -/
  | eccInject (addr : Nat) (mac : Nat) (kind : Nat)
  /-- ECC_REMAP (R347). -/
  | eccRemap (mac : Nat) (row : Nat)
  /-- REMAP_DONE (R347). -/
  | remapDone
  /-- MBIST_START (R420). -/
  | mbistStart (rq : Requester) (mac : Nat)
  /-- MBIST_DONE (R420). -/
  | mbistDone (failRows : List (Nat × Nat))
  /-- POWER_TARGET_EVALUATE (R366). -/
  | powerTargetEvaluate (deep : List HstId)
  /-- HDA_IDLE_TIMEOUT (R353). -/
  | hdaIdleTimeout (n : HdaId) (level : Fin 5)
  /-- HDA_STEP_END (R366). -/
  | hdaStepEnd (n : HdaId) (ok : Bool) (strokes : List (Fin 2 × HeadId × Nat × Bool))
  /-- VOTE_WITHDRAW_TIMER (R356). -/
  | voteWithdrawTimer (a : ActId)
  /-- DOMAIN_RETAIN_ENTRY (R357). -/
  | domainRetainEntry (dom : DomId)
  /-- DOMAIN_WAKE (R357). -/
  | domainWake (dom : DomId)
  /-- FIRMWARE_VOTE (R356). -/
  | firmwareVote (dom : Nat) (hda : List Nat)
  /-- CS1_ENTRY (R358). -/
  | cs1Entry
  /-- CS2_WAKE (R359). -/
  | cs2Wake (cause : Fin 7)
  /-- POWER_THROTTLE_CHECK (R363). -/
  | powerThrottleCheck (mw : Nat)
  /-- SPINUP_SHARE_GRANT (R439). -/
  | spinupShareGrant (n : HdaId)
  /-- THERMAL_SAMPLE (R373). -/
  | thermalSample (temps : List Int)
  /-- THROTTLE_STEP_DOWN (R375). -/
  | throttleStepDown
  /-- SENSOR_EXCLUSION (R370). -/
  | sensorExclusion (sensor : Fin 28)
  /-- HARDWARE_TRIP (R377). -/
  | hardwareTrip (sensor : Fin 28)
  /-- THERMAL_RESTART (R376). -/
  | thermalRestart (env : BootEnv)
  /-- THERMAL_PHASE_NORMAL (R372). -/
  | thermalPhaseNormal
  /-- PHASE_TIMEOUT (R372). -/
  | phaseTimeout
  /-- HEAD_TEMPERATURE_POLL (R369). -/
  | headTemperaturePoll (a : ActId) (temps : List Int)
  /-- CALIBRATION_REQUEST (R381). -/
  | calibrationRequest (kind : Fin 6) (inst : Fin 16)
  /-- CALIBRATION_START (R381). -/
  | calibrationStart (kind : Fin 6) (inst : Fin 16)
  /-- CALIBRATION_DEFER_EXPIRY (R381). -/
  | calibrationDeferExpiry (kind : Fin 6) (inst : Fin 16)
  /-- CALIBRATION_DONE (R380). -/
  | calibrationDone (kind : Fin 6) (inst : Fin 16) (head : HeadId) (r : CalRes)
  /-- PERMISSION_SLIP_SUBMIT (R394). -/
  | permissionSlipSubmit (h : Option (HstId × Nat)) (slip : SlipBytes)
  /-- D2_GRANT_DONE (R397). -/
  | d2GrantDone
  /-- LIFE_CYCLE_BURN (R390). -/
  | lifeCycleBurn
  /-- PRODUCTION_PROGRAM (R389). -/
  | productionProgram (fields : Option ProdFields)
  /-- DEBUG_SESSION_CLOSE (R398). -/
  | debugSessionClose
  /-- SECURITY_FAULT (R387). -/
  | securityFault (cause : Fin 4)
  /-- SECURITY_SEND_DUMP_KEY (R414). -/
  | securitySendDumpKey (h : HstId) (cid : Nat) (key : List (BitVec 8))
  /-- EPOCH_END (R407). -/
  | epochEnd
  /-- CHECKPOINT_TIMER (R407). -/
  | checkpointTimer
  /-- EVR_CHECKPOINT (R407). -/
  | evrCheckpoint
  /-- REPORT_CARD_FREEZE (R413). -/
  | reportCardFreeze (h : HstId) (cid : Nat)
  /-- REPORT_CARD_THAW (R413). -/
  | reportCardThaw (h : HstId) (cid : Nat)
  /-- EVR_FREEZE (R413). -/
  | evrFreeze
  /-- EVR_THAW (R413). -/
  | evrThaw
  /-- FREEZE_TIMEOUT (R413). -/
  | freezeTimeout
  /-- CURSOR_FILL (R411). -/
  | cursorFill (rq : Requester) (pr : Fin 2) (area : Fin 4) (index : Nat) (offset : Fin 16) (auto : Bool)
  /-- WINDOW_FILL_DONE (R411). -/
  | windowFillDone (pr : Fin 2)
  /-- WINDOW_ADVANCE (R411). -/
  | windowAdvance (rq : Requester) (pr : Fin 2)
  /-- POST_MORTEM_RESET (R417). -/
  | postMortemReset
  /-- WATCHDOG_KICK (R417). -/
  | watchdogKick
  /-- WATCHDOG_EXPIRY (R417). -/
  | watchdogExpiry
  /-- PSP_RAW_FRAME (R428). -/
  | pspRawFrame (a : ActId) (rd : Bool) (head : Nat) (addr : Nat) (data : BitVec 16)
  /-- PSP_FRAME_DONE (R428). -/
  | pspFrameDone (a : ActId) (data : BitVec 16)
  /-- AVS_ADJUST (R436). -/
  | avsAdjust (target : Nat) (readback : Nat) (ok : Bool)
  /-- CLOCK_LOCK_REGAINED (R30). -/
  | clockLockRegained (c : ClockId)
  /-- TRAINING_RETRY_TIMER (R323). -/
  | trainingRetryTimer (p : LmlId)
  /-- SHOCK_INPUT_RELEASE (R240). -/
  | shockInputRelease (n : HdaId) (us : Nat)
  /-- PREAMP_FAULT_RELEASE (R430). -/
  | preampFaultRelease (a : ActId)
  deriving DecidableEq, Repr

end Sys2Proof
end

