-- ==== Sys2Proof/Config.lean ====
section
/-! DEFINITION. What one implementation fixes and the free values: constants without a body, so that nothing can be
proved of a value of theirs (assumption log 2). -/
namespace Sys2Proof.Config

/-- The free values: where the spec leaves a value open, the step takes `freeValue n` with `n` the draw counter of the
state. -/
opaque freeValue : Nat → Nat

/-- SHA-384 of a byte string, as a number (R36, R63, R334); its arithmetic is the cited standard's. -/
opaque sha384 : List Byte → Nat

/-- Does an ECDSA P-384 signature verify: public key, signed bytes, signature (R36, R49, R393)? -/
opaque ecdsaVerify : List Byte → List Byte → List Byte → Bool

/-- Does a signature verify under the ECDSA P-384 key with this SHA-384: key hash, signed bytes, signature (R49: the vendor
CSTORE signature carries no key)? -/
opaque hashVerify : Nat → List Byte → List Byte → Bool

/-- SHA-384 of the Evestien production signing key that the boot ROM holds (R38). -/
opaque romKeyHash : Nat

/-- AES-256-GCM decryption of an image payload under the BEK: BEK, IV, header, ciphertext, tag (R36, R59 step 5).
`none` where the tag is invalid. -/
opaque gcmOpen : Nat → List Byte → List Byte → List Byte → List Byte → Option (List Byte)

/-- The ECDH P-384 shared secret (R393) of the device's provisioning key, by its root secret, and an ephemeral public key. -/
opaque ecdhShared : Nat → List Byte → List Byte

/-- AES key wrap (NIST SP 800-38F KW) of a key under a KEK, as a number (R164). -/
opaque keyWrap : Nat → Nat → Nat

/-- The KEK of a locking range (R169): derived from the device KEK, the range and the range's credential. -/
opaque rangeKek : Nat → Nat → Nat → Nat

/-- XTS-AES-256 of one 4,096-byte data unit (R158): the two keys, the 16-byte tweak, the data as a number; encryption and decryption. -/
opaque xtsEnc : Nat × Nat → List Byte → Nat → Nat
opaque xtsDec : Nat × Nat → List Byte → Nat → Nat

/-- AES-256-GCM (R160): byte `i` of the key stream of a key and nonce, and the tag of key, nonce, additional data and ciphertext. -/
opaque gcmStream : Nat → Nat → Nat → Byte
opaque gcmTag : Nat → Nat → List Byte → List Byte → Nat

/-- Parity sector `j` of `p` of a parity group's data sectors (R118): the field polynomial and the generator of the Reed-Solomon code are
given nowhere. -/
opaque rsParity : Nat → List Nat → Nat → Nat

/-- The 34-bit unit word of a map entry (R123): actuator, surface, band and position, encoded by firmware. -/
opaque unitCode : Nat → Nat → Nat → Nat → Nat

/-- The reader sample that stands for a target value of 1 (R207): the spec gives no scale. -/
opaque targetUnit : Nat

/-- The hard decision of an erased codeword bit (R217): the spec gives none. -/
opaque erasedDecision : Nat → Bool

/-- Sectors of the relocation tracks of an actuator (R245): how many tracks the map checkpoints and the Detention list take is given
nowhere. -/
opaque relocSectors : Nat → Nat

/-- Unwrapping; `none` where the integrity check fails. -/
opaque keyUnwrap : Nat → Nat → Option Nat

/-- SHA-384 of the boot ROM and of the ROM recovery firmware (R386, R402: measurements 1 and 2). -/
opaque romHash : Nat
opaque romFirmwareHash : Nat

/-- The slot 0 certificate chain of a device (R402), and its provisioning public key (R393), from root_secret and device ID. -/
opaque certChain : Nat → Nat → Nat
opaque provisioningKey : Nat → Nat

/-- The VCM current limit of the lanes of HDA n, in mA (R264 names it vcm_imax and gives no value). -/
opaque vcmImax : Nat → Nat

end Sys2Proof.Config
end

