-- ==== Sys2Proof/Machine/Regs.lean ====
section
/-! DEFINITION. The register tables of the control plane (R445, R446 and the register tables of every chapter):
one `Fld` for each field and one `Reg` for each register, with the Bits, Type and Reset columns of the spec.
A field whose Reset column says "bs" carries 0 here: the structure load sets it (assumption log 4). -/
namespace Sys2Proof.Machine

/-- Field types of R8.  `k2` is the PWR_VOTE and PWR_HVOTE rule: RW for entry 2, RO for every other (R356). -/
inductive FTy where
  | ro | rw | rw1c | rws | wo | k2
  deriving DecidableEq, Repr

/-- One field: a number that names it, the place of sub-field 0, its width, how many sub-fields there are and
how far apart, its type and its reset value. -/
structure Fld where
  id : Nat
  lo : Nat
  w : Nat
  nsub : Nat
  step : Nat
  ty : FTy
  reset : Nat
  deriving DecidableEq, Repr

/-- Register blocks of R445; `loop` stands for the loop-back register pairs of R419 at their 39 sites. -/
inductive Block where
  | glb | pwr | thm | cal | sec | dbg | evr | mgt | xbr | hst | lml | mem | ecc | cmp | cph | map | ttb
  | sqr | chn | ssc | psp | loop
  deriving DecidableEq, Repr

/-- One register: its block, offset, entries and their stride, whether each unit of an SSC pair has its own, and
its fields. -/
structure Reg where
  name : String
  block : Block
  off : Nat
  cnt : Nat
  stride : Nat
  perUnit : Bool
  fields : List Fld
  deriving DecidableEq, Repr

namespace F

-- XBR_ARB_CTL, spec/01_architecture.md
def xbrArbCtl_c7_share : Fld := ⟨0, 0, 8, 1, 8, .rws, 0⟩
def xbrArbCtl_hold_up : Fld := ⟨1, 8, 1, 1, 1, .ro, 0⟩
-- XBR_HALL_PASS, spec/01_architecture.md
def xbrHallPass_ptr : Fld := ⟨2, 0, 3, 8, 3, .ro, 0⟩
-- XBR_ERR_STAT, spec/01_architecture.md
def xbrErrStat_par_err : Fld := ⟨3, 0, 8, 1, 8, .rw1c, 0⟩
def xbrErrStat_c7_limited : Fld := ⟨4, 8, 8, 1, 8, .rw1c, 0⟩
-- XBR_CLS_WEIGHT, spec/01_architecture.md
def xbrClsWeight_w : Fld := ⟨5, 0, 8, 7, 8, .rws, 0⟩
-- XBR_BEATS, spec/01_architecture.md
def xbrBeats_beats : Fld := ⟨6, 0, 64, 1, 64, .ro, 0⟩
-- GLB_REGION_STAT, spec/01_architecture.md
def glbRegionStat_temp_over : Fld := ⟨7, 0, 8, 1, 8, .ro, 0⟩
def glbRegionStat_volt_over : Fld := ⟨8, 8, 8, 1, 8, .ro, 0⟩
def glbRegionStat_temp_seen : Fld := ⟨9, 16, 8, 1, 8, .rw1c, 0⟩
def glbRegionStat_volt_seen : Fld := ⟨10, 24, 8, 1, 8, .rw1c, 0⟩
-- GLB_STRUCT_STAT, spec/02_miovar_structure.md
def glbStructStat_loaded : Fld := ⟨11, 0, 2, 1, 2, .ro, 0⟩
def glbStructStat_arb_otp : Fld := ⟨12, 8, 8, 1, 8, .ro, 0⟩
def glbStructStat_fail_a : Fld := ⟨13, 16, 4, 1, 4, .ro, 0⟩
def glbStructStat_fail_b : Fld := ⟨14, 20, 4, 1, 4, .ro, 0⟩
def glbStructStat_fail_stage : Fld := ⟨15, 24, 4, 1, 4, .ro, 0⟩
def glbStructStat_activate : Fld := ⟨16, 28, 2, 1, 2, .ro, 0⟩
-- GLB_STRUCT_VER, spec/02_miovar_structure.md
def glbStructVer_build_version : Fld := ⟨17, 0, 64, 1, 64, .ro, 0⟩
-- HST_CTX_STAT, spec/03_host_interface.md
def hstCtxStat_in_use : Fld := ⟨18, 0, 20, 1, 20, .ro, 0⟩
def hstCtxStat_share : Fld := ⟨19, 20, 20, 1, 20, .rws, 0⟩
def hstCtxStat_fetch_stalled : Fld := ⟨20, 40, 1, 1, 1, .ro, 0⟩
def hstCtxStat_stall_seen : Fld := ⟨21, 41, 1, 1, 1, .rw1c, 0⟩
-- HST_RLT_STAT, spec/03_host_interface.md
def hstRltStat_in_use : Fld := ⟨22, 0, 15, 1, 15, .ro, 0⟩
def hstRltStat_blocked : Fld := ⟨23, 15, 7, 1, 7, .ro, 0⟩
def hstRltStat_blocked_seen : Fld := ⟨24, 22, 7, 1, 7, .rw1c, 0⟩
-- HST_BOUND, spec/03_host_interface.md
def hstBound_bound : Fld := ⟨25, 0, 32, 1, 32, .ro, 0⟩
def hstBound_dirty : Fld := ⟨26, 32, 32, 1, 32, .ro, 0⟩
-- MAP_CTL, spec/04_namespaces_zones_map.md
def mapCtl_enable : Fld := ⟨27, 0, 1, 1, 1, .rw, 0⟩
def mapCtl_prefetch_en : Fld := ⟨28, 1, 1, 1, 1, .rw, 1⟩
-- MAP_STAT, spec/04_namespaces_zones_map.md
def mapStat_enabled : Fld := ⟨29, 0, 1, 1, 1, .ro, 0⟩
def mapStat_disabling : Fld := ⟨30, 1, 1, 1, 1, .ro, 0⟩
def mapStat_dirty : Fld := ⟨31, 2, 7, 1, 7, .ro, 0⟩
def mapStat_side : Fld := ⟨32, 9, 3, 1, 3, .ro, 0⟩
-- MAP_GRP_CTL, spec/04_namespaces_zones_map.md
def mapGrpCtl_pwr_down : Fld := ⟨33, 0, 8, 1, 8, .rw, 0⟩
def mapGrpCtl_scratch : Fld := ⟨34, 8, 8, 1, 8, .rw, 0⟩
-- MAP_GRP_STAT, spec/04_namespaces_zones_map.md
def mapGrpStat_down : Fld := ⟨35, 0, 8, 1, 8, .ro, 0⟩
def mapGrpStat_is_scratch : Fld := ⟨36, 8, 8, 1, 8, .ro, 0⟩
def mapGrpStat_busy : Fld := ⟨37, 16, 8, 1, 8, .ro, 0⟩
-- MAP_MAINT, spec/04_namespaces_zones_map.md
def mapMaint_page : Fld := ⟨38, 12, 24, 1, 24, .rw, 0⟩
def mapMaint_op : Fld := ⟨39, 40, 2, 1, 2, .rw, 0⟩
def mapMaint_go : Fld := ⟨40, 48, 1, 1, 1, .wo, 0⟩
-- MAP_MAINT_STAT, spec/04_namespaces_zones_map.md
def mapMaintStat_busy : Fld := ⟨41, 0, 1, 1, 1, .ro, 0⟩
def mapMaintStat_hit : Fld := ⟨42, 1, 1, 1, 1, .ro, 0⟩
def mapMaintStat_waited_fill : Fld := ⟨43, 2, 1, 1, 1, .rw1c, 0⟩
-- MAP_LFSR, spec/04_namespaces_zones_map.md
def mapLfsr_state : Fld := ⟨44, 0, 16, 1, 16, .rw, 44257⟩
-- MAP_ERR, spec/04_namespaces_zones_map.md
def mapErr_data_ce : Fld := ⟨45, 0, 1, 1, 1, .rw1c, 0⟩
def mapErr_data_ue : Fld := ⟨46, 1, 1, 1, 1, .rw1c, 0⟩
def mapErr_tag_pe : Fld := ⟨47, 2, 1, 1, 1, .rw1c, 0⟩
def mapErr_tag_double : Fld := ⟨48, 3, 1, 1, 1, .rw1c, 0⟩
def mapErr_cfg_err : Fld := ⟨49, 4, 1, 1, 1, .rw1c, 0⟩
-- MAP_HITS, spec/04_namespaces_zones_map.md
def mapHits_count : Fld := ⟨50, 0, 64, 1, 64, .ro, 0⟩
-- MAP_MISSES, spec/04_namespaces_zones_map.md
def mapMisses_count : Fld := ⟨51, 0, 64, 1, 64, .ro, 0⟩
-- CMP_CFG, spec/05_compression.md
def cmpCfg_present : Fld := ⟨52, 0, 1, 1, 1, .rws, 0⟩
def cmpCfg_ctx_base : Fld := ⟨53, 12, 36, 1, 36, .rws, 0⟩
-- CMP_ENG_STAT, spec/05_compression.md
def cmpEngStat_busy : Fld := ⟨54, 0, 8, 1, 8, .ro, 0⟩
def cmpEngStat_decomp : Fld := ⟨55, 8, 8, 1, 8, .ro, 0⟩
def cmpEngStat_waiting : Fld := ⟨56, 16, 12, 1, 12, .ro, 0⟩
-- CMP_ERR, spec/05_compression.md
def cmpErr_no_space : Fld := ⟨57, 0, 1, 1, 1, .rw1c, 0⟩
def cmpErr_frame_bad : Fld := ⟨58, 1, 1, 1, 1, .rw1c, 0⟩
def cmpErr_hist_mismatch : Fld := ⟨59, 2, 1, 1, 1, .rw1c, 0⟩
def cmpErr_data_bad : Fld := ⟨60, 3, 1, 1, 1, .rw1c, 0⟩
def cmpErr_ctx_img_bad : Fld := ⟨61, 4, 1, 1, 1, .rw1c, 0⟩
def cmpErr_poison : Fld := ⟨62, 5, 1, 1, 1, .rw1c, 0⟩
-- CMP_IN_BYTES, spec/05_compression.md
def cmpInBytes_bytes : Fld := ⟨63, 0, 64, 1, 64, .ro, 0⟩
-- CMP_OUT_BYTES, spec/05_compression.md
def cmpOutBytes_bytes : Fld := ⟨64, 0, 64, 1, 64, .ro, 0⟩
-- CPH_NONCE_ID, spec/06_cipher_keys.md
def cphNonceId_nonce_id : Fld := ⟨65, 0, 32, 1, 32, .ro, 0⟩
-- CPH_CM, spec/06_cipher_keys.md
def cphCm_dummy_max : Fld := ⟨66, 0, 2, 1, 2, .rw, 3⟩
def cphCm_shuffle : Fld := ⟨67, 2, 1, 1, 1, .rw, 1⟩
def cphCm_refused : Fld := ⟨68, 3, 1, 1, 1, .rw1c, 0⟩
-- CPH_STAT, spec/06_cipher_keys.md
def cphStat_busy : Fld := ⟨69, 0, 8, 1, 8, .ro, 0⟩
def cphStat_kek_loaded : Fld := ⟨70, 8, 1, 1, 1, .ro, 0⟩
def cphStat_drbg_ok : Fld := ⟨71, 9, 1, 1, 1, .ro, 0⟩
def cphStat_nonce_wait : Fld := ⟨72, 10, 1, 1, 1, .ro, 0⟩
def cphStat_cache_used : Fld := ⟨73, 11, 10, 1, 10, .ro, 0⟩
-- CPH_ERR, spec/06_cipher_keys.md
def cphErr_gcm_fail : Fld := ⟨74, 0, 1, 1, 1, .rw1c, 0⟩
def cphErr_key_empty : Fld := ⟨75, 1, 1, 1, 1, .rw1c, 0⟩
def cphErr_slot_crc : Fld := ⟨76, 2, 1, 1, 1, .rw1c, 0⟩
def cphErr_unwrap_fail : Fld := ⟨77, 3, 1, 1, 1, .rw1c, 0⟩
def cphErr_locked : Fld := ⟨78, 4, 1, 1, 1, .rw1c, 0⟩
def cphErr_entropy_fail : Fld := ⟨79, 5, 1, 1, 1, .rw1c, 0⟩
def cphErr_ctx_bad : Fld := ⟨80, 6, 1, 1, 1, .rw1c, 0⟩
def cphErr_poison : Fld := ⟨81, 7, 1, 1, 1, .rw1c, 0⟩
-- CPH_NONCE_CTR, spec/06_cipher_keys.md
def cphNonceCtr_value : Fld := ⟨82, 0, 64, 1, 64, .ro, 0⟩
-- CPH_NONCE_LIMIT, spec/06_cipher_keys.md
def cphNonceLimit_value : Fld := ⟨83, 0, 64, 1, 64, .ro, 0⟩
-- CPH_KEY_INV, spec/06_cipher_keys.md
def cphKeyInv_slot : Fld := ⟨84, 0, 16, 1, 16, .rw, 0⟩
def cphKeyInv_go : Fld := ⟨85, 16, 1, 1, 1, .wo, 0⟩
def cphKeyInv_busy : Fld := ⟨86, 17, 1, 1, 1, .ro, 0⟩
-- CPH_CTX_CTL, spec/06_cipher_keys.md
def cphCtxCtl_core : Fld := ⟨87, 0, 3, 1, 3, .rw, 0⟩
def cphCtxCtl_op : Fld := ⟨88, 3, 2, 1, 2, .rw, 0⟩
def cphCtxCtl_go : Fld := ⟨89, 5, 1, 1, 1, .wo, 0⟩
def cphCtxCtl_busy : Fld := ⟨90, 6, 1, 1, 1, .ro, 0⟩
def cphCtxCtl_fail : Fld := ⟨91, 7, 1, 1, 1, .ro, 0⟩
-- CPH_CTX_WIN, spec/06_cipher_keys.md
def cphCtxWin_data : Fld := ⟨92, 0, 64, 1, 64, .rw, 0⟩
-- CPH_BYTES, spec/06_cipher_keys.md
def cphBytes_bytes : Fld := ⟨93, 0, 64, 1, 64, .ro, 0⟩
-- SQR_CTL, spec/07_media_format_sequencer.md
def sqrCtl_cust_en : Fld := ⟨94, 0, 1, 1, 1, .rw, 0⟩
def sqrCtl_abort : Fld := ⟨95, 1, 1, 1, 1, .wo, 0⟩
-- SQR_STAT, spec/07_media_format_sequencer.md
def sqrStat_state : Fld := ⟨96, 0, 2, 1, 2, .ro, 0⟩
def sqrStat_pc : Fld := ⟨97, 2, 13, 1, 13, .ro, 0⟩
def sqrStat_sp : Fld := ⟨98, 15, 4, 1, 4, .ro, 0⟩
def sqrStat_in_cust : Fld := ⟨99, 19, 1, 1, 1, .ro, 0⟩
def sqrStat_status : Fld := ⟨100, 20, 4, 1, 4, .ro, 0⟩
def sqrStat_cause : Fld := ⟨101, 24, 4, 1, 4, .ro, 0⟩
def sqrStat_permit : Fld := ⟨102, 28, 1, 1, 1, .ro, 0⟩
def sqrStat_q_a : Fld := ⟨103, 29, 5, 1, 5, .ro, 0⟩
def sqrStat_q_b : Fld := ⟨104, 34, 5, 1, 5, .ro, 0⟩
-- SQR_TASK, spec/07_media_format_sequencer.md
def sqrTask_entry : Fld := ⟨105, 0, 13, 1, 13, .rw, 0⟩
def sqrTask_chan : Fld := ⟨106, 13, 2, 1, 2, .rw, 0⟩
def sqrTask_head_a : Fld := ⟨107, 15, 4, 1, 4, .rw, 0⟩
def sqrTask_head_b : Fld := ⟨108, 19, 4, 1, 4, .rw, 0⟩
def sqrTask_go : Fld := ⟨109, 23, 1, 1, 1, .wo, 0⟩
-- SQR_TASK_TRK, spec/07_media_format_sequencer.md
def sqrTaskTrk_track_a : Fld := ⟨110, 0, 32, 1, 32, .rw, 0⟩
def sqrTaskTrk_track_b : Fld := ⟨111, 32, 32, 1, 32, .rw, 0⟩
-- SQR_TASK_PARAM, spec/07_media_format_sequencer.md
def sqrTaskParam_p : Fld := ⟨112, 0, 16, 4, 16, .rw, 0⟩
-- SQR_CNT, spec/07_media_format_sequencer.md
def sqrCnt_c : Fld := ⟨113, 0, 16, 4, 16, .ro, 0⟩
-- SQR_WR, spec/07_media_format_sequencer.md
def sqrWr_wr : Fld := ⟨114, 0, 10, 1, 10, .ro, 0⟩
-- SQR_FLAGS, spec/07_media_format_sequencer.md
def sqrFlags_flag : Fld := ⟨115, 0, 8, 1, 8, .rw, 0⟩
-- SQR_MC, spec/07_media_format_sequencer.md
def sqrMc_addr : Fld := ⟨116, 0, 13, 1, 13, .ro, 0⟩
def sqrMc_fields : Fld := ⟨117, 13, 8, 1, 8, .ro, 0⟩
def sqrMc_valid : Fld := ⟨118, 21, 1, 1, 1, .rw1c, 0⟩
def sqrMc_count : Fld := ⟨119, 22, 16, 1, 16, .ro, 0⟩
def sqrMc_repair : Fld := ⟨120, 38, 1, 1, 1, .wo, 0⟩
-- SQR_CLAMP, spec/07_media_format_sequencer.md
def sqrClamp_assist_clamped : Fld := ⟨121, 0, 1, 1, 1, .rw1c, 0⟩
def sqrClamp_no_permit : Fld := ⟨122, 1, 1, 1, 1, .rw1c, 0⟩
def sqrClamp_locker : Fld := ⟨123, 2, 1, 1, 1, .rw1c, 0⟩
def sqrClamp_cust_priv : Fld := ⟨124, 3, 1, 1, 1, .rw1c, 0⟩
def sqrClamp_no_lock : Fld := ⟨125, 4, 1, 1, 1, .rw1c, 0⟩
-- SQR_LOCKER, spec/07_media_format_sequencer.md
def sqrLocker_first : Fld := ⟨126, 0, 32, 1, 32, .rws, 0⟩
def sqrLocker_count : Fld := ⟨127, 32, 32, 1, 32, .rws, 0⟩
-- SQR_GEOM, spec/07_media_format_sequencer.md
def sqrGeom_wedges : Fld := ⟨128, 0, 11, 1, 11, .rws, 0⟩
def sqrGeom_rz_count : Fld := ⟨129, 16, 7, 1, 7, .rws, 0⟩
def sqrGeom_assist_max : Fld := ⟨130, 48, 16, 1, 16, .rws, 0⟩
-- SQR_ASSIST, spec/07_media_format_sequencer.md
def sqrAssist_level : Fld := ⟨131, 0, 16, 1, 16, .rw, 0⟩
-- SQR_ZONE, spec/07_media_format_sequencer.md
def sqrZone_first_track : Fld := ⟨132, 0, 32, 1, 32, .rws, 0⟩
def sqrZone_last_track : Fld := ⟨133, 32, 32, 1, 32, .rws, 0⟩
-- SQR_ZONE2, spec/07_media_format_sequencer.md
def sqrZone2_spt : Fld := ⟨134, 0, 16, 1, 16, .rws, 0⟩
def sqrZone2_kind : Fld := ⟨135, 16, 1, 1, 1, .rws, 0⟩
def sqrZone2_payload : Fld := ⟨136, 32, 32, 1, 32, .ro, 0⟩
-- CHN_CTL, spec/08_read_channel.md
def chnCtl_single : Fld := ⟨137, 0, 2, 1, 2, .rw, 0⟩
def chnCtl_adapt_en : Fld := ⟨138, 2, 1, 1, 1, .rw, 1⟩
def chnCtl_defect_en : Fld := ⟨139, 3, 1, 1, 1, .rw, 1⟩
-- CHN_STAT, spec/08_read_channel.md
def chnStat_timing_lock : Fld := ⟨140, 0, 1, 1, 1, .ro, 0⟩
def chnStat_unacked : Fld := ⟨141, 1, 3, 1, 3, .ro, 0⟩
def chnStat_held : Fld := ⟨142, 4, 3, 1, 3, .ro, 0⟩
def chnStat_dec_busy : Fld := ⟨143, 7, 2, 1, 2, .ro, 0⟩
def chnStat_buf_used : Fld := ⟨144, 9, 20, 1, 20, .ro, 0⟩
def chnStat_overrun_seen : Fld := ⟨145, 29, 1, 1, 1, .rw1c, 0⟩
-- CHN_SYNC, spec/08_read_channel.md
def chnSync_prim_thresh : Fld := ⟨146, 0, 3, 1, 3, .rw, 4⟩
def chnSync_resync_thresh : Fld := ⟨147, 3, 3, 1, 3, .rw, 1⟩
def chnSync_resync_span : Fld := ⟨148, 6, 7, 1, 7, .rw, 24⟩
def chnSync_reframe_max : Fld := ⟨149, 13, 4, 1, 4, .rw, 8⟩
-- CHN_DEFECT, spec/08_read_channel.md
def chnDefect_ta_thresh : Fld := ⟨150, 0, 8, 1, 8, .rw, 40⟩
def chnDefect_do_thresh : Fld := ⟨151, 8, 8, 1, 8, .rw, 30⟩
def chnDefect_do_min : Fld := ⟨152, 16, 8, 1, 8, .rw, 24⟩
def chnDefect_pad_pre : Fld := ⟨153, 24, 8, 1, 8, .rw, 16⟩
def chnDefect_pad_post : Fld := ⟨154, 32, 8, 1, 8, .rw, 32⟩
-- CHN_DECODE, spec/08_read_channel.md
def chnDecode_max_iter : Fld := ⟨155, 0, 6, 1, 6, .rw, 40⟩
def chnDecode_reframe_iter : Fld := ⟨156, 6, 6, 1, 6, .rw, 8⟩
def chnDecode_pass_len : Fld := ⟨157, 12, 4, 1, 4, .rw, 10⟩
-- CHN_MARGIN, spec/08_read_channel.md
def chnMargin_rw_bits : Fld := ⟨158, 0, 16, 1, 16, .rw, 1200⟩
def chnMargin_rw_iters : Fld := ⟨159, 16, 6, 1, 6, .rw, 20⟩
-- CHN_LADDER, spec/08_read_channel.md
def chnLadder_step_en : Fld := ⟨160, 0, 9, 1, 9, .rw, 511⟩
def chnLadder_detention_step : Fld := ⟨161, 9, 4, 1, 4, .rw, 4⟩
def chnLadder_parity_en : Fld := ⟨162, 13, 1, 1, 1, .rw, 1⟩
-- CHN_RESULT, spec/08_read_channel.md
def chnResult_seq : Fld := ⟨163, 0, 16, 1, 16, .ro, 0⟩
def chnResult_status : Fld := ⟨164, 16, 3, 1, 3, .ro, 0⟩
def chnResult_framing : Fld := ⟨165, 19, 2, 1, 2, .ro, 0⟩
def chnResult_k : Fld := ⟨166, 21, 5, 1, 5, .ro, 0⟩
def chnResult_iter : Fld := ⟨167, 26, 6, 1, 6, .ro, 0⟩
def chnResult_errs : Fld := ⟨168, 32, 16, 1, 16, .ro, 0⟩
def chnResult_poison : Fld := ⟨169, 48, 1, 1, 1, .ro, 0⟩
def chnResult_defect : Fld := ⟨170, 49, 1, 1, 1, .ro, 0⟩
def chnResult_reader : Fld := ⟨171, 50, 2, 1, 2, .ro, 0⟩
def chnResult_step : Fld := ⟨172, 52, 4, 1, 4, .ro, 0⟩
def chnResult_skipped : Fld := ⟨173, 56, 1, 1, 1, .ro, 0⟩
def chnResult_resync_bad : Fld := ⟨174, 57, 1, 1, 1, .ro, 0⟩
-- CHN_REDECODE, spec/08_read_channel.md
def chnRedecode_seq : Fld := ⟨175, 0, 16, 1, 16, .rw, 0⟩
def chnRedecode_variant : Fld := ⟨176, 16, 3, 1, 3, .rw, 0⟩
def chnRedecode_go : Fld := ⟨177, 19, 1, 1, 1, .wo, 0⟩
def chnRedecode_busy : Fld := ⟨178, 20, 1, 1, 1, .ro, 0⟩
def chnRedecode_done : Fld := ⟨179, 21, 1, 1, 1, .rw1c, 0⟩
def chnRedecode_refused : Fld := ⟨180, 22, 1, 1, 1, .rw1c, 0⟩
-- CHN_TLOOP, spec/08_read_channel.md
def chnTloop_kp : Fld := ⟨181, 0, 4, 1, 4, .rw, 6⟩
def chnTloop_ki : Fld := ⟨182, 4, 4, 1, 4, .rw, 12⟩
def chnTloop_acq_boost : Fld := ⟨183, 8, 2, 1, 2, .rw, 2⟩
def chnTloop_preset : Fld := ⟨184, 16, 32, 1, 32, .ro, 0⟩
-- CHN_TARGET, spec/08_read_channel.md
def chnTarget_g1 : Fld := ⟨185, 0, 8, 1, 8, .rw, 20⟩
def chnTarget_g2 : Fld := ⟨186, 8, 8, 1, 8, .rw, 4⟩
def chnTarget_alt_g1 : Fld := ⟨187, 16, 8, 1, 8, .rw, 24⟩
def chnTarget_alt_g2 : Fld := ⟨188, 24, 8, 1, 8, .rw, 8⟩
-- CHN_CNT, spec/08_read_channel.md
def chnCnt_count : Fld := ⟨189, 0, 64, 1, 64, .ro, 0⟩
-- CHN_EQ_ALT, spec/08_read_channel.md
def chnEqAlt_tap : Fld := ⟨190, 0, 8, 8, 8, .rw, 0⟩
-- CHN_EQ, spec/08_read_channel.md
def chnEq_tap : Fld := ⟨191, 0, 8, 8, 8, .rw, 0⟩
-- CHN_SKEW, spec/08_read_channel.md
def chnSkew_delay_0 : Fld := ⟨192, 0, 4, 1, 4, .rw, 0⟩
def chnSkew_delay_1 : Fld := ⟨193, 4, 4, 1, 4, .rw, 0⟩
def chnSkew_fault_0 : Fld := ⟨194, 8, 1, 1, 1, .rw, 0⟩
def chnSkew_fault_1 : Fld := ⟨195, 9, 1, 1, 1, .rw, 0⟩
-- CHN_WCTL, spec/09_write_assist.md
def chnWctl_arm : Fld := ⟨196, 0, 1, 1, 1, .rw, 0⟩
def chnWctl_precomp_en : Fld := ⟨197, 1, 1, 1, 1, .rw, 1⟩
def chnWctl_fly_mode : Fld := ⟨198, 2, 2, 1, 2, .rw, 0⟩
def chnWctl_write_inhibit : Fld := ⟨199, 4, 7, 1, 7, .rw, 12⟩
def chnWctl_settle_n : Fld := ⟨200, 11, 3, 1, 3, .rw, 3⟩
def chnWctl_fault_dev : Fld := ⟨201, 14, 6, 1, 6, .rw, 15⟩
def chnWctl_fault_polls : Fld := ⟨202, 20, 3, 1, 3, .rw, 3⟩
-- CHN_WSTAT, spec/09_write_assist.md
def chnWstat_wlock : Fld := ⟨203, 0, 1, 1, 1, .ro, 0⟩
def chnWstat_unsafe : Fld := ⟨204, 1, 1, 1, 1, .ro, 0⟩
def chnWstat_unsafe_now : Fld := ⟨205, 2, 8, 1, 8, .ro, 0⟩
def chnWstat_unsafe_seen : Fld := ⟨206, 10, 8, 1, 8, .rw1c, 0⟩
def chnWstat_assist_ok : Fld := ⟨207, 18, 1, 1, 1, .ro, 0⟩
def chnWstat_fly_ok : Fld := ⟨208, 19, 1, 1, 1, .ro, 0⟩
def chnWstat_wfifo : Fld := ⟨209, 20, 2, 1, 2, .ro, 0⟩
def chnWstat_boost_clamped : Fld := ⟨210, 22, 1, 1, 1, .rw1c, 0⟩
-- CHN_WRESULT, spec/09_write_assist.md
def chnWresult_sector : Fld := ⟨211, 0, 16, 1, 16, .ro, 0⟩
def chnWresult_status : Fld := ⟨212, 16, 2, 1, 2, .ro, 0⟩
def chnWresult_cause : Fld := ⟨213, 18, 8, 1, 8, .ro, 0⟩
-- CHN_PRECOMP, spec/09_write_assist.md
def chnPrecomp_shift : Fld := ⟨214, 0, 8, 8, 8, .rw, 0⟩
-- CHN_ASSIST, spec/09_write_assist.md
def chnAssist_bias_frac : Fld := ⟨215, 0, 8, 1, 8, .rw, 128⟩
def chnAssist_pw : Fld := ⟨216, 8, 4, 1, 4, .rw, 4⟩
def chnAssist_dly : Fld := ⟨217, 12, 8, 1, 8, .rw, 0⟩
def chnAssist_derate : Fld := ⟨218, 20, 7, 1, 7, .rw, 0⟩
def chnAssist_boost : Fld := ⟨219, 27, 7, 1, 7, .rw, 0⟩
def chnAssist_blen : Fld := ⟨220, 34, 4, 1, 4, .rw, 2⟩
-- CHN_FLY, spec/09_write_assist.md
def chnFly_read_code : Fld := ⟨221, 0, 8, 1, 8, .rw, 0⟩
def chnFly_write_code : Fld := ⟨222, 8, 8, 1, 8, .rw, 0⟩
def chnFly_td_code : Fld := ⟨223, 16, 8, 1, 8, .rw, 0⟩
def chnFly_td_margin : Fld := ⟨224, 24, 4, 1, 4, .rw, 8⟩
def chnFly_step : Fld := ⟨225, 28, 4, 1, 4, .rw, 4⟩
def chnFly_fly_settle : Fld := ⟨226, 32, 12, 1, 12, .rw, 150⟩
-- CHN_APPLIED, spec/09_write_assist.md
def chnApplied_applied : Fld := ⟨227, 0, 16, 1, 16, .ro, 0⟩
def chnApplied_target : Fld := ⟨228, 16, 16, 1, 16, .ro, 0⟩
def chnApplied_monitor : Fld := ⟨229, 32, 16, 1, 16, .ro, 0⟩
-- CHN_WCNT, spec/09_write_assist.md
def chnWcnt_count : Fld := ⟨230, 0, 64, 1, 64, .ro, 0⟩
-- SSC_ROLE, spec/10_servo.md
def sscRole_active : Fld := ⟨231, 0, 1, 1, 1, .ro, 0⟩
def sscRole_state : Fld := ⟨232, 1, 2, 1, 2, .ro, 0⟩
def sscRole_standby_fit : Fld := ⟨233, 3, 1, 1, 1, .ro, 1⟩
def sscRole_swap_en : Fld := ⟨234, 4, 1, 1, 1, .rw, 1⟩
def sscRole_retract : Fld := ⟨235, 5, 2, 1, 2, .wo, 0⟩
def sscRole_restart : Fld := ⟨236, 7, 1, 1, 1, .wo, 0⟩
def sscRole_release : Fld := ⟨237, 8, 2, 1, 2, .wo, 0⟩
-- SSC_SWAP, spec/10_servo.md
def sscSwap_to_swap : Fld := ⟨238, 0, 21, 1, 21, .ro, 1048576⟩
def sscSwap_deferred : Fld := ⟨239, 21, 1, 1, 1, .ro, 0⟩
def sscSwap_switches : Fld := ⟨240, 22, 32, 1, 32, .ro, 0⟩
def sscSwap_last_cause : Fld := ⟨241, 54, 3, 1, 3, .ro, 0⟩
-- SSC_RAMP, spec/10_servo.md
def sscRamp_ramp_rate : Fld := ⟨242, 0, 13, 1, 13, .rw, 300⟩
def sscRamp_ramp_accel : Fld := ⟨243, 13, 16, 1, 16, .rw, 600⟩
-- SSC_RETRACT, spec/10_servo.md
def sscRetract_retract_ma : Fld := ⟨244, 0, 12, 1, 12, .rw, 300⟩
def sscRetract_retract_ms : Fld := ⟨245, 12, 12, 1, 12, .rw, 80⟩
def sscRetract_retract_hold_ma : Fld := ⟨246, 24, 12, 1, 12, .rw, 60⟩
def sscRetract_cause : Fld := ⟨247, 36, 4, 1, 4, .ro, 0⟩
def sscRetract_mask : Fld := ⟨248, 40, 2, 1, 2, .ro, 0⟩
def sscRetract_seen : Fld := ⟨249, 42, 1, 1, 1, .rw1c, 0⟩
-- SSC_OVR, spec/10_servo.md
def sscOvr_lane_seen : Fld := ⟨250, 0, 3, 1, 3, .rw1c, 0⟩
def sscOvr_recent : Fld := ⟨251, 3, 7, 1, 7, .ro, 0⟩
def sscOvr_total : Fld := ⟨252, 10, 32, 1, 32, .ro, 0⟩
-- SSC_CMP_TOL, spec/10_servo.md
def sscCmpTol_vcm_tol : Fld := ⟨253, 0, 16, 1, 16, .rw, 2⟩
def sscCmpTol_ma_tol : Fld := ⟨254, 16, 16, 1, 16, .rw, 64⟩
-- SSC_CMP_STAT, spec/10_servo.md
def sscCmpStat_mismatches : Fld := ⟨255, 0, 32, 1, 32, .ro, 0⟩
def sscCmpStat_first_node : Fld := ⟨256, 32, 8, 1, 8, .ro, 0⟩
def sscCmpStat_resyncs : Fld := ⟨257, 40, 4, 1, 4, .ro, 0⟩
def sscCmpStat_seen : Fld := ⟨258, 44, 1, 1, 1, .rw1c, 0⟩
-- SSC_SAT, spec/10_servo.md
def sscSat_sat : Fld := ⟨259, 0, 64, 1, 64, .rw1c, 0⟩
-- SSC_TRACE_CTL, spec/10_servo.md
def sscTraceCtl_enable : Fld := ⟨260, 0, 1, 1, 1, .rw, 0⟩
def sscTraceCtl_mode : Fld := ⟨261, 1, 1, 1, 1, .rw, 0⟩
def sscTraceCtl_trig : Fld := ⟨262, 2, 2, 1, 2, .rw, 0⟩
def sscTraceCtl_trig_node : Fld := ⟨263, 4, 8, 1, 8, .rw, 0⟩
def sscTraceCtl_post : Fld := ⟨264, 12, 12, 1, 12, .rw, 2048⟩
def sscTraceCtl_trig_thr : Fld := ⟨265, 24, 32, 1, 32, .rw, 0⟩
-- SSC_TRACE_STAT, spec/10_servo.md
def sscTraceStat_wptr : Fld := ⟨266, 0, 12, 1, 12, .ro, 0⟩
def sscTraceStat_wrapped : Fld := ⟨267, 12, 1, 1, 1, .ro, 0⟩
def sscTraceStat_stopped : Fld := ⟨268, 13, 1, 1, 1, .rw1c, 0⟩
-- SSC_TRACE_SEL, spec/10_servo.md
def sscTraceSel_node : Fld := ⟨269, 0, 8, 8, 8, .rw, 0⟩
-- SSC_TGT, spec/10_servo.md
def sscTgt_tgt_a : Fld := ⟨270, 0, 32, 1, 32, .rw, 0⟩
def sscTgt_tgt_b : Fld := ⟨271, 32, 32, 1, 32, .rw, 0⟩
-- SSC_LANE_CTL, spec/10_servo.md
def sscLaneCtl_head_a : Fld := ⟨272, 0, 4, 1, 4, .rw, 0⟩
def sscLaneCtl_head_b : Fld := ⟨273, 4, 4, 1, 4, .rw, 0⟩
def sscLaneCtl_follow : Fld := ⟨274, 8, 2, 1, 2, .rw, 0⟩
def sscLaneCtl_go : Fld := ⟨275, 10, 1, 1, 1, .wo, 0⟩
-- SSC_LANE_STAT, spec/10_servo.md
def sscLaneStat_state : Fld := ⟨276, 0, 2, 1, 2, .ro, 0⟩
def sscLaneStat_on_track : Fld := ⟨277, 2, 1, 1, 1, .ro, 0⟩
def sscLaneStat_split : Fld := ⟨278, 3, 1, 1, 1, .ro, 0⟩
def sscLaneStat_warn : Fld := ⟨279, 4, 1, 1, 1, .rw1c, 0⟩
def sscLaneStat_splits : Fld := ⟨280, 5, 32, 1, 32, .ro, 0⟩
def sscLaneStat_losts : Fld := ⟨281, 37, 16, 1, 16, .ro, 0⟩
def sscLaneStat_band : Fld := ⟨282, 53, 3, 1, 3, .ro, 0⟩
-- SSC_SEEK_LIM, spec/10_servo.md
def sscSeekLim_v_max : Fld := ⟨283, 0, 16, 1, 16, .rw, 40000⟩
def sscSeekLim_a_max : Fld := ⟨284, 16, 16, 1, 16, .rw, 16000⟩
def sscSeekLim_j_max : Fld := ⟨285, 32, 16, 1, 16, .rw, 64000⟩
def sscSeekLim_capture_trk : Fld := ⟨286, 48, 16, 1, 16, .rw, 64⟩
-- SSC_TRACK_CFG, spec/10_servo.md
def sscTrackCfg_ontrack_pct : Fld := ⟨287, 0, 7, 1, 7, .rw, 15⟩
def sscTrackCfg_ontrack_n : Fld := ⟨288, 7, 4, 1, 4, .rw, 4⟩
def sscTrackCfg_split_n : Fld := ⟨289, 11, 5, 1, 5, .rw, 8⟩
def sscTrackCfg_stroke_warn : Fld := ⟨290, 16, 7, 1, 7, .rw, 75⟩
-- SSC_MA, spec/10_servo.md
def sscMa_stroke : Fld := ⟨291, 0, 16, 1, 16, .ro, 0⟩
def sscMa_baseline : Fld := ⟨292, 16, 16, 1, 16, .ro, 0⟩
def sscMa_missing : Fld := ⟨293, 32, 16, 1, 16, .ro, 0⟩
-- SPN_CTL, spec/11_spindle_holdup.md
def spnCtl_mode : Fld := ⟨294, 0, 2, 1, 2, .rw, 0⟩
def spnCtl_manual : Fld := ⟨295, 2, 1, 1, 1, .rw, 0⟩
def spnCtl_start : Fld := ⟨296, 3, 1, 1, 1, .wo, 0⟩
def spnCtl_rpm_manual : Fld := ⟨297, 16, 13, 1, 13, .rw, 7200⟩
-- SPN_STAT, spec/11_spindle_holdup.md
def spnStat_state : Fld := ⟨298, 0, 3, 1, 3, .ro, 0⟩
def spnStat_speed : Fld := ⟨299, 3, 13, 1, 13, .ro, 0⟩
def spnStat_command : Fld := ⟨300, 16, 13, 1, 13, .ro, 0⟩
def spnStat_floor : Fld := ⟨301, 29, 13, 1, 13, .ro, 0⟩
def spnStat_curve_on : Fld := ⟨302, 42, 1, 1, 1, .ro, 0⟩
def spnStat_chop_fault : Fld := ⟨303, 43, 1, 1, 1, .ro, 0⟩
def spnStat_ov2 : Fld := ⟨304, 44, 1, 1, 1, .ro, 0⟩
-- SPN_COMM, spec/11_spindle_holdup.md
def spnComm_advance : Fld := ⟨305, 0, 5, 1, 5, .rw, 0⟩
def spnComm_win_min : Fld := ⟨306, 5, 8, 1, 8, .rw, 8⟩
def spnComm_blank_max : Fld := ⟨307, 13, 8, 1, 8, .rw, 40⟩
def spnComm_skip_max : Fld := ⟨308, 21, 3, 1, 3, .rw, 4⟩
def spnComm_zc_tol : Fld := ⟨309, 24, 5, 1, 5, .rw, 20⟩
def spnComm_spinup_rate : Fld := ⟨310, 29, 12, 1, 12, .rw, 1000⟩
-- SPN_SLOPE, spec/11_spindle_holdup.md
def spnSlope_code : Fld := ⟨311, 0, 3, 8, 3, .rw, 2⟩
-- SPN_BUS, spec/11_spindle_holdup.md
def spnBus_chop_on : Fld := ⟨312, 0, 16, 1, 16, .rw, 14500⟩
def spnBus_chop_off : Fld := ⟨313, 16, 16, 1, 16, .rw, 14000⟩
def spnBus_ov1 : Fld := ⟨314, 32, 16, 1, 16, .rw, 15500⟩
def spnBus_ov2 : Fld := ⟨315, 48, 16, 1, 16, .ro, 17000⟩
-- SPN_EVT, spec/11_spindle_holdup.md
def spnEvt_lost : Fld := ⟨316, 0, 1, 1, 1, .rw1c, 0⟩
def spnEvt_relock : Fld := ⟨317, 1, 1, 1, 1, .rw1c, 0⟩
def spnEvt_restart : Fld := ⟨318, 2, 1, 1, 1, .rw1c, 0⟩
def spnEvt_chop_fault : Fld := ⟨319, 3, 1, 1, 1, .rw1c, 0⟩
def spnEvt_ov1 : Fld := ⟨320, 4, 1, 1, 1, .rw1c, 0⟩
def spnEvt_ov2 : Fld := ⟨321, 5, 1, 1, 1, .rw1c, 0⟩
def spnEvt_skip : Fld := ⟨322, 6, 1, 1, 1, .rw1c, 0⟩
def spnEvt_psl_fault : Fld := ⟨323, 7, 1, 1, 1, .rw1c, 0⟩
-- SPN_CNT, spec/11_spindle_holdup.md
def spnCnt_skips : Fld := ⟨324, 0, 32, 1, 32, .ro, 0⟩
def spnCnt_losts : Fld := ⟨325, 32, 16, 1, 16, .ro, 0⟩
def spnCnt_restarts : Fld := ⟨326, 48, 16, 1, 16, .ro, 0⟩
-- SPN_DEMAND, spec/11_spindle_holdup.md
def spnDemand_demand : Fld := ⟨327, 0, 32, 1, 32, .ro, 0⟩
def spnDemand_curve : Fld := ⟨328, 32, 3, 1, 3, .ro, 0⟩
-- PSL_STAT, spec/11_spindle_holdup.md
def pslStat_dl_err : Fld := ⟨329, 0, 16, 1, 16, .ro, 0⟩
def pslStat_ul_err : Fld := ⟨330, 16, 16, 1, 16, .ro, 0⟩
def pslStat_fault_seen : Fld := ⟨331, 32, 1, 1, 1, .rw1c, 0⟩
def pslStat_parked : Fld := ⟨332, 33, 2, 1, 2, .ro, 0⟩
def pslStat_psl_fault : Fld := ⟨333, 35, 1, 1, 1, .ro, 0⟩
-- PWR_HOLD_CFG, spec/11_spindle_holdup.md
def pwrHoldCfg_hold_vset : Fld := ⟨334, 0, 16, 1, 16, .rw, 12000⟩
def pwrHoldCfg_hold_sag : Fld := ⟨335, 16, 16, 1, 16, .rw, 10800⟩
def pwrHoldCfg_hold_min : Fld := ⟨336, 32, 16, 1, 16, .rw, 9000⟩
-- PWR_HOLD_STAT, spec/11_spindle_holdup.md
def pwrHoldStat_state : Fld := ⟨337, 0, 3, 1, 3, .ro, 0⟩
def pwrHoldStat_cause : Fld := ⟨338, 3, 2, 1, 2, .ro, 0⟩
def pwrHoldStat_contrib : Fld := ⟨339, 5, 4, 1, 4, .ro, 0⟩
def pwrHoldStat_flushing : Fld := ⟨340, 9, 4, 1, 4, .ro, 0⟩
def pwrHoldStat_elapsed : Fld := ⟨341, 13, 32, 1, 32, .ro, 0⟩
-- PWR_HOLD_E, spec/11_spindle_holdup.md
def pwrHoldE_e_total : Fld := ⟨342, 0, 32, 1, 32, .ro, 0⟩
def pwrHoldE_t_avail : Fld := ⟨343, 32, 16, 1, 16, .ro, 0⟩
-- PWR_HOLD_B, spec/11_spindle_holdup.md
def pwrHoldB_bound : Fld := ⟨344, 0, 32, 1, 32, .ro, 0⟩
def pwrHoldB_dirty : Fld := ⟨345, 32, 32, 1, 32, .ro, 0⟩
-- PWR_HOLD_R, spec/11_spindle_holdup.md
def pwrHoldR_rate : Fld := ⟨346, 0, 16, 1, 16, .ro, 0⟩
def pwrHoldR_energy : Fld := ⟨347, 16, 32, 1, 32, .ro, 0⟩
-- LML_CFG, spec/12_lomey_link.md
def lmlCfg_used : Fld := ⟨348, 0, 1, 1, 1, .rws, 0⟩
def lmlCfg_width : Fld := ⟨349, 1, 4, 1, 4, .rws, 0⟩
def lmlCfg_rate : Fld := ⟨350, 5, 2, 1, 2, .rws, 0⟩
def lmlCfg_encrypt : Fld := ⟨351, 7, 1, 1, 1, .rws, 0⟩
-- LML_STAT, spec/12_lomey_link.md
def lmlStat_state : Fld := ⟨352, 0, 3, 1, 3, .ro, 0⟩
def lmlStat_width : Fld := ⟨353, 3, 4, 1, 4, .ro, 0⟩
def lmlStat_rate : Fld := ⟨354, 7, 2, 1, 2, .ro, 0⟩
def lmlStat_lanes : Fld := ⟨355, 9, 8, 1, 8, .ro, 0⟩
def lmlStat_secure : Fld := ⟨356, 17, 1, 1, 1, .ro, 0⟩
def lmlStat_routed : Fld := ⟨357, 18, 1, 1, 1, .ro, 0⟩
def lmlStat_link_delay : Fld := ⟨358, 19, 12, 1, 12, .ro, 0⟩
def lmlStat_down_cause : Fld := ⟨359, 31, 3, 1, 3, .ro, 0⟩
-- LML_EVT, spec/12_lomey_link.md
def lmlEvt_up : Fld := ⟨360, 0, 1, 1, 1, .rw1c, 0⟩
def lmlEvt_retrain : Fld := ⟨361, 1, 1, 1, 1, .rw1c, 0⟩
def lmlEvt_dead : Fld := ⟨362, 2, 1, 1, 1, .rw1c, 0⟩
def lmlEvt_restored : Fld := ⟨363, 3, 1, 1, 1, .rw1c, 0⟩
def lmlEvt_stomp : Fld := ⟨364, 4, 1, 1, 1, .rw1c, 0⟩
def lmlEvt_gcm_fail : Fld := ⟨365, 5, 1, 1, 1, .rw1c, 0⟩
def lmlEvt_budget_drop : Fld := ⟨366, 6, 1, 1, 1, .rw1c, 0⟩
def lmlEvt_unreach_drop : Fld := ⟨367, 7, 1, 1, 1, .rw1c, 0⟩
def lmlEvt_busy_nak : Fld := ⟨368, 8, 1, 1, 1, .rw1c, 0⟩
def lmlEvt_stale : Fld := ⟨369, 9, 1, 1, 1, .rw1c, 0⟩
-- LML_RETRY, spec/12_lomey_link.md
def lmlRetry_next_seq : Fld := ⟨370, 0, 12, 1, 12, .ro, 0⟩
def lmlRetry_acked : Fld := ⟨371, 12, 12, 1, 12, .ro, 0⟩
def lmlRetry_buf_used : Fld := ⟨372, 24, 12, 1, 12, .ro, 0⟩
def lmlRetry_sends : Fld := ⟨373, 36, 4, 1, 4, .ro, 0⟩
-- LML_CRED, spec/12_lomey_link.md
def lmlCred_tx_avail : Fld := ⟨374, 0, 13, 1, 13, .ro, 0⟩
def lmlCred_rx_used : Fld := ⟨375, 13, 13, 1, 13, .ro, 0⟩
-- LML_CNT, spec/12_lomey_link.md
def lmlCnt_count : Fld := ⟨376, 0, 64, 1, 64, .ro, 0⟩
-- LML_NODE, spec/12_lomey_link.md
def lmlNode_addr : Fld := ⟨377, 0, 24, 1, 24, .ro, 0⟩
def lmlNode_fixed : Fld := ⟨378, 24, 1, 1, 1, .rws, 0⟩
def lmlNode_root : Fld := ⟨379, 25, 1, 1, 1, .rws, 0⟩
def lmlNode_lead : Fld := ⟨380, 26, 1, 1, 1, .ro, 0⟩
-- LML_BUDGET, spec/12_lomey_link.md
def lmlBudget_fixed_units : Fld := ⟨381, 0, 16, 1, 16, .rw, 40000⟩
def lmlBudget_hop_units : Fld := ⟨382, 16, 8, 1, 8, .rw, 16⟩
-- LML_E2E, spec/12_lomey_link.md
def lmlE2e_retry_us : Fld := ⟨383, 0, 16, 1, 16, .rw, 200⟩
def lmlE2e_idle_us : Fld := ⟨384, 16, 16, 1, 16, .rw, 3000⟩
def lmlE2e_retries : Fld := ⟨385, 32, 2, 1, 2, .rw, 3⟩
def lmlE2e_busy_us : Fld := ⟨386, 34, 14, 1, 14, .rw, 20⟩
-- LML_DEDUP, spec/12_lomey_link.md
def lmlDedup_in_use : Fld := ⟨387, 0, 17, 1, 17, .ro, 0⟩
def lmlDedup_full_naks : Fld := ⟨388, 17, 32, 1, 32, .ro, 0⟩
-- LML_RC, spec/12_lomey_link.md
def lmlRc_start : Fld := ⟨389, 0, 1, 1, 1, .wo, 0⟩
def lmlRc_phase : Fld := ⟨390, 1, 2, 1, 2, .ro, 0⟩
def lmlRc_fail : Fld := ⟨391, 3, 1, 1, 1, .rw1c, 0⟩
def lmlRc_generation : Fld := ⟨392, 4, 32, 1, 32, .ro, 0⟩
-- LML_RT, spec/12_lomey_link.md
def lmlRt_pfx : Fld := ⟨393, 0, 24, 1, 24, .rw, 0⟩
def lmlRt_len : Fld := ⟨394, 24, 5, 1, 5, .rw, 0⟩
def lmlRt_valid : Fld := ⟨395, 29, 1, 1, 1, .rw, 0⟩
def lmlRt_primary : Fld := ⟨396, 30, 2, 1, 2, .rw, 0⟩
def lmlRt_alternate : Fld := ⟨397, 32, 2, 1, 2, .rw, 0⟩
def lmlRt_alt_valid : Fld := ⟨398, 34, 1, 1, 1, .rw, 0⟩
-- MEM_CFG, spec/13_memory_ecc.md
def memCfg_size_gib : Fld := ⟨399, 0, 8, 1, 8, .rws, 0⟩
def memCfg_rate : Fld := ⟨400, 8, 14, 1, 14, .rws, 0⟩
def memCfg_trained : Fld := ⟨401, 22, 1, 1, 1, .ro, 0⟩
-- MEM_WIPE, spec/13_memory_ecc.md
def memWipe_state : Fld := ⟨402, 0, 2, 1, 2, .ro, 0⟩
def memWipe_dump_kept : Fld := ⟨403, 2, 1, 1, 1, .ro, 0⟩
def memWipe_last_ms : Fld := ⟨404, 3, 11, 1, 11, .ro, 0⟩
-- MEM_PART, spec/13_memory_ecc.md
def memPart_base_mib : Fld := ⟨405, 0, 16, 1, 16, .rws, 0⟩
def memPart_size_mib : Fld := ⟨406, 16, 16, 1, 16, .rws, 0⟩
-- ECC_CE, spec/13_memory_ecc.md
def eccCe_count : Fld := ⟨407, 0, 64, 1, 64, .ro, 0⟩
-- ECC_UE, spec/13_memory_ecc.md
def eccUe_count : Fld := ⟨408, 0, 64, 1, 64, .ro, 0⟩
-- ECC_LOG, spec/13_memory_ecc.md
def eccLog_addr : Fld := ⟨409, 0, 36, 1, 36, .ro, 0⟩
def eccLog_mac : Fld := ⟨410, 36, 10, 1, 10, .ro, 0⟩
def eccLog_syndrome : Fld := ⟨411, 46, 8, 1, 8, .ro, 0⟩
def eccLog_kind : Fld := ⟨412, 54, 2, 1, 2, .ro, 0⟩
def eccLog_valid : Fld := ⟨413, 56, 1, 1, 1, .rw1c, 0⟩
def eccLog_overflow : Fld := ⟨414, 57, 1, 1, 1, .rw1c, 0⟩
-- ECC_PCNT, spec/13_memory_ecc.md
def eccPcnt_marker_reads : Fld := ⟨415, 0, 32, 1, 32, .ro, 0⟩
def eccPcnt_marked : Fld := ⟨416, 32, 32, 1, 32, .ro, 0⟩
-- ECC_INJ, spec/13_memory_ecc.md
def eccInj_addr : Fld := ⟨417, 0, 36, 1, 36, .rw, 0⟩
def eccInj_mac : Fld := ⟨418, 36, 10, 1, 10, .rw, 0⟩
def eccInj_kind : Fld := ⟨419, 46, 2, 1, 2, .rw, 0⟩
def eccInj_go : Fld := ⟨420, 48, 1, 1, 1, .wo, 0⟩
def eccInj_armed : Fld := ⟨421, 49, 1, 1, 1, .ro, 0⟩
-- ECC_REMAP_CTL, spec/13_memory_ecc.md
def eccRemapCtl_mac : Fld := ⟨422, 0, 10, 1, 10, .rw, 0⟩
def eccRemapCtl_row : Fld := ⟨423, 10, 16, 1, 16, .rw, 0⟩
def eccRemapCtl_go : Fld := ⟨424, 26, 1, 1, 1, .wo, 0⟩
def eccRemapCtl_busy : Fld := ⟨425, 27, 1, 1, 1, .ro, 0⟩
def eccRemapCtl_fail : Fld := ⟨426, 28, 1, 1, 1, .rw1c, 0⟩
-- ECC_REMAP_STAT, spec/13_memory_ecc.md
def eccRemapStat_in_use : Fld := ⟨427, 0, 13, 1, 13, .ro, 0⟩
def eccRemapStat_full : Fld := ⟨428, 13, 9, 1, 9, .ro, 0⟩
def eccRemapStat_last_macro : Fld := ⟨429, 22, 10, 1, 10, .ro, 0⟩
-- ECC_HARD_LOG, spec/13_memory_ecc.md
def eccHardLog_mac : Fld := ⟨430, 0, 10, 1, 10, .ro, 0⟩
def eccHardLog_row : Fld := ⟨431, 10, 16, 1, 16, .ro, 0⟩
def eccHardLog_valid : Fld := ⟨432, 26, 1, 1, 1, .rw1c, 0⟩
def eccHardLog_count : Fld := ⟨433, 27, 15, 1, 15, .ro, 0⟩
-- PWR_CS, spec/14_power_states.md
def pwrCs_state : Fld := ⟨434, 0, 2, 1, 2, .ro, 0⟩
def pwrCs_target : Fld := ⟨435, 2, 2, 1, 2, .ro, 0⟩
def pwrCs_in_transition : Fld := ⟨436, 4, 1, 1, 1, .ro, 0⟩
def pwrCs_cs_allow : Fld := ⟨437, 5, 2, 1, 2, .rws, 0⟩
def pwrCs_cs1_idle : Fld := ⟨438, 7, 16, 1, 16, .rw, 50⟩
def pwrCs_cs2_block : Fld := ⟨439, 23, 23, 1, 23, .ro, 0⟩
-- PWR_HS, spec/14_power_states.md
def pwrHs_state : Fld := ⟨440, 0, 3, 1, 3, .ro, 4⟩
def pwrHs_target : Fld := ⟨441, 3, 3, 1, 3, .ro, 4⟩
def pwrHs_in_transition : Fld := ⟨442, 6, 1, 1, 1, .ro, 0⟩
def pwrHs_step : Fld := ⟨443, 7, 3, 1, 3, .ro, 0⟩
def pwrHs_permitted : Fld := ⟨444, 10, 3, 1, 3, .ro, 0⟩
def pwrHs_voted : Fld := ⟨445, 13, 3, 1, 3, .ro, 7⟩
def pwrHs_lmin : Fld := ⟨446, 16, 32, 1, 32, .ro, 60000000⟩
-- PWR_HS_CFG, spec/14_power_states.md
def pwrHsCfg_hs_allow : Fld := ⟨447, 0, 4, 1, 4, .rws, 0⟩
def pwrHsCfg_idle1_us : Fld := ⟨448, 4, 16, 1, 16, .rw, 100⟩
def pwrHsCfg_idle2_s : Fld := ⟨449, 20, 16, 1, 16, .rw, 10⟩
def pwrHsCfg_idle3_s : Fld := ⟨450, 36, 14, 1, 14, .rw, 300⟩
def pwrHsCfg_idle4_s : Fld := ⟨451, 50, 14, 1, 14, .rw, 1800⟩
-- PWR_HS_EXIT, spec/14_power_states.md
def pwrHsExit_exit_us : Fld := ⟨452, 0, 32, 1, 32, .rws, 0⟩
-- PWR_PS, spec/14_power_states.md
def pwrPs_ps : Fld := ⟨453, 0, 3, 1, 3, .ro, 0⟩
def pwrPs_streams : Fld := ⟨454, 3, 5, 1, 5, .ro, 16⟩
def pwrPs_speed_cap : Fld := ⟨455, 8, 13, 1, 13, .ro, 7200⟩
def pwrPs_host_width : Fld := ⟨456, 21, 4, 1, 4, .ro, 8⟩
def pwrPs_engines : Fld := ⟨457, 25, 4, 1, 4, .ro, 8⟩
def pwrPs_power_mw : Fld := ⟨458, 29, 16, 1, 16, .ro, 0⟩
def pwrPs_throttling : Fld := ⟨459, 45, 1, 1, 1, .ro, 0⟩
-- PWR_DOM, spec/14_power_states.md
def pwrDom_dom : Fld := ⟨460, 0, 2, 23, 2, .ro, 0⟩
-- PWR_ABS_LOG, spec/14_power_states.md
def pwrAbsLog_addr : Fld := ⟨461, 0, 32, 1, 32, .ro, 0⟩
def pwrAbsLog_valid : Fld := ⟨462, 32, 1, 1, 1, .rw1c, 0⟩
def pwrAbsLog_count : Fld := ⟨463, 33, 16, 1, 16, .ro, 0⟩
-- PWR_WAKE, spec/14_power_states.md
def pwrWake_last_dom : Fld := ⟨464, 0, 5, 1, 5, .ro, 0⟩
def pwrWake_wakes : Fld := ⟨465, 5, 32, 1, 32, .ro, 0⟩
def pwrWake_seen : Fld := ⟨466, 37, 1, 1, 1, .rw1c, 0⟩
-- PWR_VOTE, spec/14_power_states.md
def pwrVote_dom : Fld := ⟨467, 0, 23, 1, 23, .k2, 0⟩
-- PWR_HVOTE, spec/14_power_states.md
def pwrHvote_hda : Fld := ⟨468, 0, 3, 4, 3, .k2, 7⟩
-- THM_CFG, spec/15_thermal_calibration.md
def thmCfg_rise_throttle : Fld := ⟨469, 0, 8, 1, 8, .rws, 0⟩
def thmCfg_rise_shutdown : Fld := ⟨470, 8, 8, 1, 8, .rws, 0⟩
def thmCfg_fixed_shutdown : Fld := ⟨471, 16, 8, 1, 8, .rws, 0⟩
def thmCfg_cal_delta : Fld := ⟨472, 24, 4, 1, 4, .rws, 0⟩
def thmCfg_auto_restart : Fld := ⟨473, 28, 1, 1, 1, .rw, 1⟩
-- THM_STAT, spec/15_thermal_calibration.md
def thmStat_phase : Fld := ⟨474, 0, 3, 1, 3, .ro, 1⟩
def thmStat_step : Fld := ⟨475, 3, 2, 1, 2, .ro, 0⟩
def thmStat_fixed : Fld := ⟨476, 5, 1, 1, 1, .ro, 0⟩
def thmStat_die_max : Fld := ⟨477, 6, 16, 1, 16, .ro, 0⟩
def thmStat_head_max : Fld := ⟨478, 22, 8, 1, 8, .ro, 0⟩
def thmStat_excluded : Fld := ⟨479, 30, 5, 1, 5, .ro, 0⟩
def thmStat_cause : Fld := ⟨480, 35, 3, 1, 3, .ro, 0⟩
-- THM_PHASE, spec/15_thermal_calibration.md
def thmPhase_normal : Fld := ⟨481, 0, 1, 1, 1, .wo, 0⟩
-- THM_EDGES, spec/15_thermal_calibration.md
def thmEdges_edge : Fld := ⟨482, 0, 8, 7, 8, .rws, 0⟩
-- THM_EVT, spec/15_thermal_calibration.md
def thmEvt_step_up : Fld := ⟨483, 0, 1, 1, 1, .rw1c, 0⟩
def thmEvt_step_down : Fld := ⟨484, 1, 1, 1, 1, .rw1c, 0⟩
def thmEvt_exclude : Fld := ⟨485, 2, 1, 1, 1, .rw1c, 0⟩
def thmEvt_shutdown : Fld := ⟨486, 3, 1, 1, 1, .rw1c, 0⟩
-- THM_SENS, spec/15_thermal_calibration.md
def thmSens_temp : Fld := ⟨487, 0, 16, 1, 16, .ro, 0⟩
def thmSens_excluded : Fld := ⟨488, 16, 1, 1, 1, .ro, 0⟩
def thmSens_region : Fld := ⟨489, 17, 3, 1, 3, .ro, 0⟩
def thmSens_peak : Fld := ⟨490, 20, 16, 1, 16, .ro, 0⟩
-- THM_REGION, spec/15_thermal_calibration.md
def thmRegion_temp : Fld := ⟨491, 0, 16, 1, 16, .ro, 0⟩
def thmRegion_rise8 : Fld := ⟨492, 16, 16, 1, 16, .ro, 0⟩
def thmRegion_rise2 : Fld := ⟨493, 32, 16, 1, 16, .ro, 0⟩
def thmRegion_band : Fld := ⟨494, 48, 3, 1, 3, .ro, 0⟩
-- THM_HEAD, spec/15_thermal_calibration.md
def thmHead_head : Fld := ⟨495, 0, 8, 8, 8, .ro, 0⟩
-- CAL_CTL, spec/15_thermal_calibration.md
def calCtl_kind : Fld := ⟨496, 0, 3, 1, 3, .rw, 0⟩
def calCtl_inst : Fld := ⟨497, 3, 4, 1, 4, .rw, 0⟩
def calCtl_go : Fld := ⟨498, 7, 1, 1, 1, .wo, 0⟩
-- CAL_STAT, spec/15_thermal_calibration.md
def calStat_busy : Fld := ⟨499, 0, 1, 1, 1, .ro, 0⟩
def calStat_kind : Fld := ⟨500, 1, 3, 1, 3, .ro, 0⟩
def calStat_inst : Fld := ⟨501, 4, 4, 1, 4, .ro, 0⟩
def calStat_fail : Fld := ⟨502, 8, 1, 1, 1, .rw1c, 0⟩
def calStat_fallback : Fld := ⟨503, 9, 1, 1, 1, .rw1c, 0⟩
def calStat_runs : Fld := ⟨504, 10, 32, 1, 32, .ro, 0⟩
-- CAL_DEFER, spec/15_thermal_calibration.md
def calDefer_max_defer : Fld := ⟨505, 0, 16, 1, 16, .rw, 2000⟩
-- CAL_DUE, spec/15_thermal_calibration.md
def calDue_due : Fld := ⟨506, 0, 16, 1, 16, .ro, 0⟩
def calDue_method : Fld := ⟨507, 16, 16, 1, 16, .rws, 0⟩
-- CAL_DELTA, spec/15_thermal_calibration.md
def calDelta_delta : Fld := ⟨508, 0, 4, 16, 4, .rws, 0⟩
-- SEC_LC, spec/16_security_lifecycle.md
def secLc_count : Fld := ⟨509, 0, 6, 1, 6, .ro, 0⟩
def secLc_state : Fld := ⟨510, 6, 3, 1, 3, .ro, 0⟩
def secLc_rma_left : Fld := ⟨511, 9, 4, 1, 4, .ro, 0⟩
def secLc_ceiling : Fld := ⟨512, 13, 2, 1, 2, .ro, 0⟩
def secLc_bek1 : Fld := ⟨513, 15, 1, 1, 1, .ro, 0⟩
def secLc_pending : Fld := ⟨514, 16, 1, 1, 1, .ro, 0⟩
-- SEC_DBG, spec/16_security_lifecycle.md
def secDbg_level : Fld := ⟨515, 0, 2, 1, 2, .ro, 0⟩
def secDbg_cycles : Fld := ⟨516, 2, 8, 1, 8, .ro, 0⟩
def secDbg_signer : Fld := ⟨517, 10, 2, 1, 2, .ro, 0⟩
def secDbg_flags : Fld := ⟨518, 12, 2, 1, 2, .ro, 0⟩
def secDbg_withheld : Fld := ⟨519, 14, 1, 1, 1, .ro, 0⟩
def secDbg_close : Fld := ⟨520, 15, 1, 1, 1, .wo, 0⟩
-- SEC_SERIAL, spec/16_security_lifecycle.md
def secSerial_serial : Fld := ⟨521, 0, 64, 1, 64, .ro, 0⟩
-- SEC_SLIP_STAT, spec/16_security_lifecycle.md
def secSlipStat_status : Fld := ⟨522, 0, 8, 1, 8, .ro, 0⟩
def secSlipStat_kind : Fld := ⟨523, 8, 3, 1, 3, .ro, 0⟩
def secSlipStat_check : Fld := ⟨524, 11, 3, 1, 3, .ro, 0⟩
def secSlipStat_valid : Fld := ⟨525, 14, 1, 1, 1, .rw1c, 0⟩
-- SEC_FAULT, spec/16_security_lifecycle.md
def secFault_cause : Fld := ⟨526, 0, 3, 1, 3, .ro, 0⟩
def secFault_seen : Fld := ⟨527, 3, 1, 1, 1, .rw1c, 0⟩
-- DBG_STAT, spec/16_security_lifecycle.md
def dbgStat_jtag_level : Fld := ⟨528, 0, 2, 1, 2, .ro, 0⟩
def dbgStat_bar2_set : Fld := ⟨529, 2, 2, 1, 2, .ro, 0⟩
def dbgStat_halted : Fld := ⟨530, 4, 8, 1, 8, .ro, 0⟩
def dbgStat_scan : Fld := ⟨531, 12, 1, 1, 1, .ro, 0⟩
-- DBG_BAR2_LOG, spec/16_security_lifecycle.md
def dbgBar2Log_addr : Fld := ⟨532, 0, 32, 1, 32, .ro, 0⟩
def dbgBar2Log_write : Fld := ⟨533, 32, 1, 1, 1, .ro, 0⟩
def dbgBar2Log_valid : Fld := ⟨534, 33, 1, 1, 1, .rw1c, 0⟩
def dbgBar2Log_count : Fld := ⟨535, 34, 16, 1, 16, .ro, 0⟩
-- LOOP, spec/17_observability_test.md
def loop_depth : Fld := ⟨536, 0, 3, 1, 3, .rw, 0⟩
def loop_run : Fld := ⟨537, 3, 1, 1, 1, .rw, 0⟩
def loop_pattern : Fld := ⟨538, 4, 2, 1, 2, .rw, 0⟩
def loop_locked : Fld := ⟨539, 6, 1, 1, 1, .ro, 0⟩
def loop_refused : Fld := ⟨540, 7, 1, 1, 1, .rw1c, 0⟩
def loop_arg : Fld := ⟨541, 8, 24, 1, 24, .rw, 0⟩
-- LOOP_CNT, spec/17_observability_test.md
def loopCnt_errors : Fld := ⟨542, 0, 32, 1, 32, .ro, 0⟩
def loopCnt_checked : Fld := ⟨543, 32, 32, 1, 32, .ro, 0⟩
-- EVR_CTL, spec/17_observability_test.md
def evrCtl_frozen : Fld := ⟨544, 0, 1, 1, 1, .ro, 0⟩
def evrCtl_freeze : Fld := ⟨545, 1, 1, 1, 1, .wo, 0⟩
def evrCtl_thaw : Fld := ⟨546, 2, 1, 1, 1, .wo, 0⟩
def evrCtl_checkpoint : Fld := ⟨547, 3, 1, 1, 1, .wo, 0⟩
-- EVR_STAT, spec/17_observability_test.md
def evrStat_epoch : Fld := ⟨548, 0, 32, 1, 32, .ro, 0⟩
def evrStat_writing : Fld := ⟨549, 32, 1, 1, 1, .ro, 0⟩
def evrStat_nor_fail : Fld := ⟨550, 33, 16, 1, 16, .ro, 0⟩
def evrStat_auto_thawed : Fld := ⟨551, 49, 1, 1, 1, .rw1c, 0⟩
-- EVR_POS, spec/17_observability_test.md
def evrPos_seconds : Fld := ⟨552, 0, 64, 1, 64, .ro, 0⟩
-- EVR_WDOG, spec/17_observability_test.md
def evrWdog_timeout_ms : Fld := ⟨553, 0, 16, 1, 16, .rw, 0⟩
def evrWdog_kick : Fld := ⟨554, 16, 1, 1, 1, .wo, 0⟩
def evrWdog_expired : Fld := ⟨555, 17, 1, 1, 1, .rw1c, 0⟩
-- EVR_PM_CTL, spec/17_observability_test.md
def evrPmCtl_go : Fld := ⟨556, 0, 1, 1, 1, .wo, 0⟩
def evrPmCtl_dump_valid : Fld := ⟨557, 1, 1, 1, 1, .rw, 0⟩
def evrPmCtl_cause : Fld := ⟨558, 2, 32, 1, 32, .rw, 0⟩
-- EVR_PM_STAT, spec/17_observability_test.md
def evrPmStat_kept : Fld := ⟨559, 0, 1, 1, 1, .ro, 0⟩
def evrPmStat_dump_seq : Fld := ⟨560, 1, 32, 1, 32, .ro, 0⟩
def evrPmStat_resets : Fld := ⟨561, 33, 16, 1, 16, .ro, 0⟩
-- EVR_CURSOR, spec/17_observability_test.md
def evrCursor_area : Fld := ⟨562, 0, 2, 1, 2, .rw, 0⟩
def evrCursor_index : Fld := ⟨563, 2, 13, 1, 13, .rw, 0⟩
def evrCursor_offset : Fld := ⟨564, 15, 4, 1, 4, .rw, 0⟩
def evrCursor_auto : Fld := ⟨565, 19, 1, 1, 1, .rw, 0⟩
-- EVR_WIN_STAT, spec/17_observability_test.md
def evrWinStat_ready : Fld := ⟨566, 0, 1, 1, 1, .ro, 0⟩
def evrWinStat_filling : Fld := ⟨567, 1, 1, 1, 1, .ro, 0⟩
def evrWinStat_empty : Fld := ⟨568, 2, 1, 1, 1, .ro, 0⟩
-- EVR_WINDOW, spec/17_observability_test.md
def evrWindow_data : Fld := ⟨569, 0, 64, 1, 64, .ro, 0⟩
-- ECC_MBIST, spec/17_observability_test.md
def eccMbist_mac : Fld := ⟨570, 0, 10, 1, 10, .rw, 0⟩
def eccMbist_go : Fld := ⟨571, 10, 1, 1, 1, .wo, 0⟩
def eccMbist_busy : Fld := ⟨572, 11, 1, 1, 1, .ro, 0⟩
def eccMbist_fail : Fld := ⟨573, 12, 1, 1, 1, .rw1c, 0⟩
def eccMbist_fail_row : Fld := ⟨574, 13, 16, 1, 16, .ro, 0⟩
def eccMbist_fail_macro : Fld := ⟨575, 29, 10, 1, 10, .ro, 0⟩
-- GLB_START, spec/18_signals_electrical.md
def glbStart_stage : Fld := ⟨576, 0, 4, 1, 4, .ro, 0⟩
def glbStart_boot_done : Fld := ⟨577, 4, 1, 1, 1, .ro, 0⟩
def glbStart_hs0_seen : Fld := ⟨578, 5, 4, 1, 4, .ro, 0⟩
def glbStart_ready : Fld := ⟨579, 9, 4, 1, 4, .ro, 0⟩
def glbStart_boot_ms : Fld := ⟨580, 13, 32, 1, 32, .ro, 0⟩
-- GLB_PINS, spec/18_signals_electrical.md
def glbPins_pwr_good : Fld := ⟨581, 0, 1, 1, 1, .ro, 0⟩
def glbPins_sys_rst_n : Fld := ⟨582, 1, 1, 1, 1, .ro, 0⟩
def glbPins_perst_n : Fld := ⟨583, 2, 2, 1, 2, .ro, 0⟩
def glbPins_sris : Fld := ⟨584, 4, 1, 1, 1, .ro, 0⟩
def glbPins_shock : Fld := ⟨585, 5, 4, 1, 4, .ro, 0⟩
def glbPins_therm_trip_n : Fld := ⟨586, 9, 1, 1, 1, .ro, 1⟩
def glbPins_fault_n : Fld := ⟨587, 10, 1, 1, 1, .ro, 1⟩
-- GLB_GPIO, spec/18_signals_electrical.md
def glbGpio_level : Fld := ⟨588, 0, 16, 1, 16, .ro, 0⟩
def glbGpio_out : Fld := ⟨589, 16, 16, 1, 16, .rw, 0⟩
def glbGpio_oe : Fld := ⟨590, 32, 16, 1, 16, .rw, 0⟩
-- GLB_AVS, spec/18_signals_electrical.md
def glbAvs_target_mv : Fld := ⟨591, 0, 16, 1, 16, .ro, 800⟩
def glbAvs_read_mv : Fld := ⟨592, 16, 16, 1, 16, .ro, 0⟩
def glbAvs_avs_err : Fld := ⟨593, 32, 1, 1, 1, .rw1c, 0⟩
-- PSP_RAW, spec/18_signals_electrical.md
def pspRaw_data : Fld := ⟨594, 0, 16, 1, 16, .rw, 0⟩
def pspRaw_addr : Fld := ⟨595, 16, 11, 1, 11, .rw, 0⟩
def pspRaw_head : Fld := ⟨596, 27, 4, 1, 4, .rw, 0⟩
def pspRaw_rd : Fld := ⟨597, 31, 1, 1, 1, .rw, 0⟩
def pspRaw_go : Fld := ⟨598, 32, 1, 1, 1, .wo, 0⟩
def pspRaw_busy : Fld := ⟨599, 33, 1, 1, 1, .ro, 0⟩
-- PSP_STAT, spec/18_signals_electrical.md
def pspStat_flt : Fld := ⟨600, 0, 1, 1, 1, .ro, 0⟩
def pspStat_flt_seen : Fld := ⟨601, 1, 1, 1, 1, .rw1c, 0⟩
def pspStat_id : Fld := ⟨602, 2, 16, 1, 16, .ro, 0⟩
def pspStat_frames : Fld := ⟨603, 18, 32, 1, 32, .ro, 0⟩
-- GLB_ID, spec/19_register_index.md
def glbId_silicon_rev : Fld := ⟨604, 0, 16, 1, 16, .ro, 176⟩
def glbId_part : Fld := ⟨605, 16, 16, 1, 16, .ro, 25608⟩
-- GLB_BUS_ERR, spec/19_register_index.md
def glbBusErr_addr : Fld := ⟨606, 0, 32, 1, 32, .ro, 0⟩
def glbBusErr_requester : Fld := ⟨607, 32, 4, 1, 4, .ro, 0⟩
def glbBusErr_write : Fld := ⟨608, 36, 1, 1, 1, .ro, 0⟩
def glbBusErr_cause : Fld := ⟨609, 37, 3, 1, 3, .ro, 0⟩
def glbBusErr_valid : Fld := ⟨610, 40, 1, 1, 1, .rw1c, 0⟩
def glbBusErr_count : Fld := ⟨611, 41, 16, 1, 16, .ro, 0⟩
-- TTB_ACT, spec/19_register_index.md
def ttbAct_queued : Fld := ⟨612, 0, 16, 1, 16, .ro, 0⟩
def ttbAct_state : Fld := ⟨613, 16, 2, 1, 2, .ro, 3⟩
def ttbAct_twin : Fld := ⟨614, 18, 1, 1, 1, .ro, 0⟩
def ttbAct_priority : Fld := ⟨615, 19, 1, 1, 1, .ro, 0⟩
def ttbAct_homework : Fld := ⟨616, 20, 1, 1, 1, .ro, 0⟩
-- MGT_CFG, spec/19_register_index.md
def mgtCfg_smb_addr : Fld := ⟨617, 0, 7, 1, 7, .rw, 29⟩
def mgtCfg_i3c_en : Fld := ⟨618, 7, 1, 1, 1, .rw, 0⟩
def mgtCfg_uart_baud : Fld := ⟨619, 8, 2, 1, 2, .rw, 0⟩
-- MGT_STAT, spec/19_register_index.md
def mgtStat_smb_busy : Fld := ⟨620, 0, 1, 1, 1, .ro, 0⟩
def mgtStat_i3c_dyn : Fld := ⟨621, 1, 1, 1, 1, .ro, 0⟩
def mgtStat_mctp_rx : Fld := ⟨622, 2, 32, 1, 32, .ro, 0⟩
def mgtStat_mctp_err : Fld := ⟨623, 34, 16, 1, 16, .ro, 0⟩

end F

namespace Reg

def xbrArbCtl : Reg := ⟨"XBR_ARB_CTL", .xbr, 0x0, 1, 8, false,
  [F.xbrArbCtl_c7_share, F.xbrArbCtl_hold_up]⟩
def xbrHallPass : Reg := ⟨"XBR_HALL_PASS", .xbr, 0x8, 1, 8, false,
  [F.xbrHallPass_ptr]⟩
def xbrErrStat : Reg := ⟨"XBR_ERR_STAT", .xbr, 0x10, 1, 8, false,
  [F.xbrErrStat_par_err, F.xbrErrStat_c7_limited]⟩
def xbrClsWeight : Reg := ⟨"XBR_CLS_WEIGHT", .xbr, 0x100, 8, 8, false,
  [F.xbrClsWeight_w]⟩
def xbrBeats : Reg := ⟨"XBR_BEATS", .xbr, 0x200, 8, 8, false,
  [F.xbrBeats_beats]⟩
def glbRegionStat : Reg := ⟨"GLB_REGION_STAT", .glb, 0x40, 1, 8, false,
  [F.glbRegionStat_temp_over, F.glbRegionStat_volt_over, F.glbRegionStat_temp_seen, F.glbRegionStat_volt_seen]⟩
def glbStructStat : Reg := ⟨"GLB_STRUCT_STAT", .glb, 0x80, 1, 8, false,
  [F.glbStructStat_loaded, F.glbStructStat_arb_otp, F.glbStructStat_fail_a, F.glbStructStat_fail_b, F.glbStructStat_fail_stage, F.glbStructStat_activate]⟩
def glbStructVer : Reg := ⟨"GLB_STRUCT_VER", .glb, 0x88, 1, 8, false,
  [F.glbStructVer_build_version]⟩
def hstCtxStat : Reg := ⟨"HST_CTX_STAT", .hst, 0x100, 1, 8, false,
  [F.hstCtxStat_in_use, F.hstCtxStat_share, F.hstCtxStat_fetch_stalled, F.hstCtxStat_stall_seen]⟩
def hstRltStat : Reg := ⟨"HST_RLT_STAT", .hst, 0x108, 1, 8, false,
  [F.hstRltStat_in_use, F.hstRltStat_blocked, F.hstRltStat_blocked_seen]⟩
def hstBound : Reg := ⟨"HST_BOUND", .hst, 0x110, 1, 8, false,
  [F.hstBound_bound, F.hstBound_dirty]⟩
def mapCtl : Reg := ⟨"MAP_CTL", .map, 0x0, 1, 8, false,
  [F.mapCtl_enable, F.mapCtl_prefetch_en]⟩
def mapStat : Reg := ⟨"MAP_STAT", .map, 0x8, 1, 8, false,
  [F.mapStat_enabled, F.mapStat_disabling, F.mapStat_dirty, F.mapStat_side]⟩
def mapGrpCtl : Reg := ⟨"MAP_GRP_CTL", .map, 0x10, 1, 8, false,
  [F.mapGrpCtl_pwr_down, F.mapGrpCtl_scratch]⟩
def mapGrpStat : Reg := ⟨"MAP_GRP_STAT", .map, 0x18, 1, 8, false,
  [F.mapGrpStat_down, F.mapGrpStat_is_scratch, F.mapGrpStat_busy]⟩
def mapMaint : Reg := ⟨"MAP_MAINT", .map, 0x20, 1, 8, false,
  [F.mapMaint_page, F.mapMaint_op, F.mapMaint_go]⟩
def mapMaintStat : Reg := ⟨"MAP_MAINT_STAT", .map, 0x28, 1, 8, false,
  [F.mapMaintStat_busy, F.mapMaintStat_hit, F.mapMaintStat_waited_fill]⟩
def mapLfsr : Reg := ⟨"MAP_LFSR", .map, 0x30, 1, 8, false,
  [F.mapLfsr_state]⟩
def mapErr : Reg := ⟨"MAP_ERR", .map, 0x38, 1, 8, false,
  [F.mapErr_data_ce, F.mapErr_data_ue, F.mapErr_tag_pe, F.mapErr_tag_double, F.mapErr_cfg_err]⟩
def mapHits : Reg := ⟨"MAP_HITS", .map, 0x40, 1, 8, false,
  [F.mapHits_count]⟩
def mapMisses : Reg := ⟨"MAP_MISSES", .map, 0x48, 1, 8, false,
  [F.mapMisses_count]⟩
def cmpCfg : Reg := ⟨"CMP_CFG", .cmp, 0x0, 1, 8, false,
  [F.cmpCfg_present, F.cmpCfg_ctx_base]⟩
def cmpEngStat : Reg := ⟨"CMP_ENG_STAT", .cmp, 0x8, 1, 8, false,
  [F.cmpEngStat_busy, F.cmpEngStat_decomp, F.cmpEngStat_waiting]⟩
def cmpErr : Reg := ⟨"CMP_ERR", .cmp, 0x10, 1, 8, false,
  [F.cmpErr_no_space, F.cmpErr_frame_bad, F.cmpErr_hist_mismatch, F.cmpErr_data_bad, F.cmpErr_ctx_img_bad, F.cmpErr_poison]⟩
def cmpInBytes : Reg := ⟨"CMP_IN_BYTES", .cmp, 0x100, 8, 8, false,
  [F.cmpInBytes_bytes]⟩
def cmpOutBytes : Reg := ⟨"CMP_OUT_BYTES", .cmp, 0x200, 8, 8, false,
  [F.cmpOutBytes_bytes]⟩
def cphNonceId : Reg := ⟨"CPH_NONCE_ID", .cph, 0x0, 1, 8, false,
  [F.cphNonceId_nonce_id]⟩
def cphCm : Reg := ⟨"CPH_CM", .cph, 0x8, 1, 8, false,
  [F.cphCm_dummy_max, F.cphCm_shuffle, F.cphCm_refused]⟩
def cphStat : Reg := ⟨"CPH_STAT", .cph, 0x10, 1, 8, false,
  [F.cphStat_busy, F.cphStat_kek_loaded, F.cphStat_drbg_ok, F.cphStat_nonce_wait, F.cphStat_cache_used]⟩
def cphErr : Reg := ⟨"CPH_ERR", .cph, 0x18, 1, 8, false,
  [F.cphErr_gcm_fail, F.cphErr_key_empty, F.cphErr_slot_crc, F.cphErr_unwrap_fail, F.cphErr_locked, F.cphErr_entropy_fail, F.cphErr_ctx_bad, F.cphErr_poison]⟩
def cphNonceCtr : Reg := ⟨"CPH_NONCE_CTR", .cph, 0x20, 1, 8, false,
  [F.cphNonceCtr_value]⟩
def cphNonceLimit : Reg := ⟨"CPH_NONCE_LIMIT", .cph, 0x28, 1, 8, false,
  [F.cphNonceLimit_value]⟩
def cphKeyInv : Reg := ⟨"CPH_KEY_INV", .cph, 0x30, 1, 8, false,
  [F.cphKeyInv_slot, F.cphKeyInv_go, F.cphKeyInv_busy]⟩
def cphCtxCtl : Reg := ⟨"CPH_CTX_CTL", .cph, 0x40, 1, 8, false,
  [F.cphCtxCtl_core, F.cphCtxCtl_op, F.cphCtxCtl_go, F.cphCtxCtl_busy, F.cphCtxCtl_fail]⟩
def cphCtxWin : Reg := ⟨"CPH_CTX_WIN", .cph, 0x100, 10, 8, false,
  [F.cphCtxWin_data]⟩
def cphBytes : Reg := ⟨"CPH_BYTES", .cph, 0x200, 8, 8, false,
  [F.cphBytes_bytes]⟩
def sqrCtl : Reg := ⟨"SQR_CTL", .sqr, 0x0, 1, 8, false,
  [F.sqrCtl_cust_en, F.sqrCtl_abort]⟩
def sqrStat : Reg := ⟨"SQR_STAT", .sqr, 0x8, 1, 8, false,
  [F.sqrStat_state, F.sqrStat_pc, F.sqrStat_sp, F.sqrStat_in_cust, F.sqrStat_status, F.sqrStat_cause, F.sqrStat_permit, F.sqrStat_q_a, F.sqrStat_q_b]⟩
def sqrTask : Reg := ⟨"SQR_TASK", .sqr, 0x10, 1, 8, false,
  [F.sqrTask_entry, F.sqrTask_chan, F.sqrTask_head_a, F.sqrTask_head_b, F.sqrTask_go]⟩
def sqrTaskTrk : Reg := ⟨"SQR_TASK_TRK", .sqr, 0x18, 1, 8, false,
  [F.sqrTaskTrk_track_a, F.sqrTaskTrk_track_b]⟩
def sqrTaskParam : Reg := ⟨"SQR_TASK_PARAM", .sqr, 0x20, 1, 8, false,
  [F.sqrTaskParam_p]⟩
def sqrCnt : Reg := ⟨"SQR_CNT", .sqr, 0x28, 1, 8, false,
  [F.sqrCnt_c]⟩
def sqrWr : Reg := ⟨"SQR_WR", .sqr, 0x30, 1, 8, false,
  [F.sqrWr_wr]⟩
def sqrFlags : Reg := ⟨"SQR_FLAGS", .sqr, 0x38, 1, 8, false,
  [F.sqrFlags_flag]⟩
def sqrMc : Reg := ⟨"SQR_MC", .sqr, 0x40, 1, 8, false,
  [F.sqrMc_addr, F.sqrMc_fields, F.sqrMc_valid, F.sqrMc_count, F.sqrMc_repair]⟩
def sqrClamp : Reg := ⟨"SQR_CLAMP", .sqr, 0x48, 1, 8, false,
  [F.sqrClamp_assist_clamped, F.sqrClamp_no_permit, F.sqrClamp_locker, F.sqrClamp_cust_priv, F.sqrClamp_no_lock]⟩
def sqrLocker : Reg := ⟨"SQR_LOCKER", .sqr, 0x50, 1, 8, false,
  [F.sqrLocker_first, F.sqrLocker_count]⟩
def sqrGeom : Reg := ⟨"SQR_GEOM", .sqr, 0x58, 1, 8, false,
  [F.sqrGeom_wedges, F.sqrGeom_rz_count, F.sqrGeom_assist_max]⟩
def sqrAssist : Reg := ⟨"SQR_ASSIST", .sqr, 0x100, 16, 8, false,
  [F.sqrAssist_level]⟩
def sqrZone : Reg := ⟨"SQR_ZONE", .sqr, 0x200, 64, 16, false,
  [F.sqrZone_first_track, F.sqrZone_last_track]⟩
def sqrZone2 : Reg := ⟨"SQR_ZONE2", .sqr, 0x208, 64, 16, false,
  [F.sqrZone2_spt, F.sqrZone2_kind, F.sqrZone2_payload]⟩
def chnCtl : Reg := ⟨"CHN_CTL", .chn, 0x0, 1, 8, false,
  [F.chnCtl_single, F.chnCtl_adapt_en, F.chnCtl_defect_en]⟩
def chnStat : Reg := ⟨"CHN_STAT", .chn, 0x8, 1, 8, false,
  [F.chnStat_timing_lock, F.chnStat_unacked, F.chnStat_held, F.chnStat_dec_busy, F.chnStat_buf_used, F.chnStat_overrun_seen]⟩
def chnSync : Reg := ⟨"CHN_SYNC", .chn, 0x10, 1, 8, false,
  [F.chnSync_prim_thresh, F.chnSync_resync_thresh, F.chnSync_resync_span, F.chnSync_reframe_max]⟩
def chnDefect : Reg := ⟨"CHN_DEFECT", .chn, 0x18, 1, 8, false,
  [F.chnDefect_ta_thresh, F.chnDefect_do_thresh, F.chnDefect_do_min, F.chnDefect_pad_pre, F.chnDefect_pad_post]⟩
def chnDecode : Reg := ⟨"CHN_DECODE", .chn, 0x20, 1, 8, false,
  [F.chnDecode_max_iter, F.chnDecode_reframe_iter, F.chnDecode_pass_len]⟩
def chnMargin : Reg := ⟨"CHN_MARGIN", .chn, 0x28, 1, 8, false,
  [F.chnMargin_rw_bits, F.chnMargin_rw_iters]⟩
def chnLadder : Reg := ⟨"CHN_LADDER", .chn, 0x30, 1, 8, false,
  [F.chnLadder_step_en, F.chnLadder_detention_step, F.chnLadder_parity_en]⟩
def chnResult : Reg := ⟨"CHN_RESULT", .chn, 0x38, 1, 8, false,
  [F.chnResult_seq, F.chnResult_status, F.chnResult_framing, F.chnResult_k, F.chnResult_iter, F.chnResult_errs, F.chnResult_poison, F.chnResult_defect, F.chnResult_reader, F.chnResult_step, F.chnResult_skipped, F.chnResult_resync_bad]⟩
def chnRedecode : Reg := ⟨"CHN_REDECODE", .chn, 0x40, 1, 8, false,
  [F.chnRedecode_seq, F.chnRedecode_variant, F.chnRedecode_go, F.chnRedecode_busy, F.chnRedecode_done, F.chnRedecode_refused]⟩
def chnTloop : Reg := ⟨"CHN_TLOOP", .chn, 0x48, 1, 8, false,
  [F.chnTloop_kp, F.chnTloop_ki, F.chnTloop_acq_boost, F.chnTloop_preset]⟩
def chnTarget : Reg := ⟨"CHN_TARGET", .chn, 0x50, 1, 8, false,
  [F.chnTarget_g1, F.chnTarget_g2, F.chnTarget_alt_g1, F.chnTarget_alt_g2]⟩
def chnCnt : Reg := ⟨"CHN_CNT", .chn, 0x80, 7, 8, false,
  [F.chnCnt_count]⟩
def chnEqAlt : Reg := ⟨"CHN_EQ_ALT", .chn, 0x300, 6, 8, false,
  [F.chnEqAlt_tap]⟩
def chnEq : Reg := ⟨"CHN_EQ", .chn, 0x400, 72, 8, false,
  [F.chnEq_tap]⟩
def chnSkew : Reg := ⟨"CHN_SKEW", .chn, 0x680, 12, 8, false,
  [F.chnSkew_delay_0, F.chnSkew_delay_1, F.chnSkew_fault_0, F.chnSkew_fault_1]⟩
def chnWctl : Reg := ⟨"CHN_WCTL", .chn, 0x800, 1, 8, false,
  [F.chnWctl_arm, F.chnWctl_precomp_en, F.chnWctl_fly_mode, F.chnWctl_write_inhibit, F.chnWctl_settle_n, F.chnWctl_fault_dev, F.chnWctl_fault_polls]⟩
def chnWstat : Reg := ⟨"CHN_WSTAT", .chn, 0x808, 1, 8, false,
  [F.chnWstat_wlock, F.chnWstat_unsafe, F.chnWstat_unsafe_now, F.chnWstat_unsafe_seen, F.chnWstat_assist_ok, F.chnWstat_fly_ok, F.chnWstat_wfifo, F.chnWstat_boost_clamped]⟩
def chnWresult : Reg := ⟨"CHN_WRESULT", .chn, 0x810, 1, 8, false,
  [F.chnWresult_sector, F.chnWresult_status, F.chnWresult_cause]⟩
def chnPrecomp : Reg := ⟨"CHN_PRECOMP", .chn, 0x880, 12, 8, false,
  [F.chnPrecomp_shift]⟩
def chnAssist : Reg := ⟨"CHN_ASSIST", .chn, 0x900, 12, 8, false,
  [F.chnAssist_bias_frac, F.chnAssist_pw, F.chnAssist_dly, F.chnAssist_derate, F.chnAssist_boost, F.chnAssist_blen]⟩
def chnFly : Reg := ⟨"CHN_FLY", .chn, 0x980, 12, 8, false,
  [F.chnFly_read_code, F.chnFly_write_code, F.chnFly_td_code, F.chnFly_td_margin, F.chnFly_step, F.chnFly_fly_settle]⟩
def chnApplied : Reg := ⟨"CHN_APPLIED", .chn, 0xa00, 12, 8, false,
  [F.chnApplied_applied, F.chnApplied_target, F.chnApplied_monitor]⟩
def chnWcnt : Reg := ⟨"CHN_WCNT", .chn, 0xa80, 5, 8, false,
  [F.chnWcnt_count]⟩
def sscRole : Reg := ⟨"SSC_ROLE", .ssc, 0x0, 1, 8, false,
  [F.sscRole_active, F.sscRole_state, F.sscRole_standby_fit, F.sscRole_swap_en, F.sscRole_retract, F.sscRole_restart, F.sscRole_release]⟩
def sscSwap : Reg := ⟨"SSC_SWAP", .ssc, 0x8, 1, 8, false,
  [F.sscSwap_to_swap, F.sscSwap_deferred, F.sscSwap_switches, F.sscSwap_last_cause]⟩
def sscRamp : Reg := ⟨"SSC_RAMP", .ssc, 0x10, 1, 8, false,
  [F.sscRamp_ramp_rate, F.sscRamp_ramp_accel]⟩
def sscRetract : Reg := ⟨"SSC_RETRACT", .ssc, 0x18, 1, 8, false,
  [F.sscRetract_retract_ma, F.sscRetract_retract_ms, F.sscRetract_retract_hold_ma, F.sscRetract_cause, F.sscRetract_mask, F.sscRetract_seen]⟩
def sscOvr : Reg := ⟨"SSC_OVR", .ssc, 0x20, 1, 8, true,
  [F.sscOvr_lane_seen, F.sscOvr_recent, F.sscOvr_total]⟩
def sscCmpTol : Reg := ⟨"SSC_CMP_TOL", .ssc, 0x28, 1, 8, false,
  [F.sscCmpTol_vcm_tol, F.sscCmpTol_ma_tol]⟩
def sscCmpStat : Reg := ⟨"SSC_CMP_STAT", .ssc, 0x30, 1, 8, false,
  [F.sscCmpStat_mismatches, F.sscCmpStat_first_node, F.sscCmpStat_resyncs, F.sscCmpStat_seen]⟩
def sscSat : Reg := ⟨"SSC_SAT", .ssc, 0x40, 4, 8, true,
  [F.sscSat_sat]⟩
def sscTraceCtl : Reg := ⟨"SSC_TRACE_CTL", .ssc, 0x60, 1, 8, true,
  [F.sscTraceCtl_enable, F.sscTraceCtl_mode, F.sscTraceCtl_trig, F.sscTraceCtl_trig_node, F.sscTraceCtl_post, F.sscTraceCtl_trig_thr]⟩
def sscTraceStat : Reg := ⟨"SSC_TRACE_STAT", .ssc, 0x68, 1, 8, true,
  [F.sscTraceStat_wptr, F.sscTraceStat_wrapped, F.sscTraceStat_stopped]⟩
def sscTraceSel : Reg := ⟨"SSC_TRACE_SEL", .ssc, 0x70, 4, 8, true,
  [F.sscTraceSel_node]⟩
def sscTgt : Reg := ⟨"SSC_TGT", .ssc, 0x100, 2, 128, false,
  [F.sscTgt_tgt_a, F.sscTgt_tgt_b]⟩
def sscLaneCtl : Reg := ⟨"SSC_LANE_CTL", .ssc, 0x108, 2, 128, false,
  [F.sscLaneCtl_head_a, F.sscLaneCtl_head_b, F.sscLaneCtl_follow, F.sscLaneCtl_go]⟩
def sscLaneStat : Reg := ⟨"SSC_LANE_STAT", .ssc, 0x110, 2, 128, false,
  [F.sscLaneStat_state, F.sscLaneStat_on_track, F.sscLaneStat_split, F.sscLaneStat_warn, F.sscLaneStat_splits, F.sscLaneStat_losts, F.sscLaneStat_band]⟩
def sscSeekLim : Reg := ⟨"SSC_SEEK_LIM", .ssc, 0x118, 2, 128, false,
  [F.sscSeekLim_v_max, F.sscSeekLim_a_max, F.sscSeekLim_j_max, F.sscSeekLim_capture_trk]⟩
def sscTrackCfg : Reg := ⟨"SSC_TRACK_CFG", .ssc, 0x120, 2, 128, false,
  [F.sscTrackCfg_ontrack_pct, F.sscTrackCfg_ontrack_n, F.sscTrackCfg_split_n, F.sscTrackCfg_stroke_warn]⟩
def sscMa : Reg := ⟨"SSC_MA", .ssc, 0x200, 24, 8, false,
  [F.sscMa_stroke, F.sscMa_baseline, F.sscMa_missing]⟩
def spnCtl : Reg := ⟨"SPN_CTL", .ssc, 0x400, 1, 8, false,
  [F.spnCtl_mode, F.spnCtl_manual, F.spnCtl_start, F.spnCtl_rpm_manual]⟩
def spnStat : Reg := ⟨"SPN_STAT", .ssc, 0x408, 1, 8, false,
  [F.spnStat_state, F.spnStat_speed, F.spnStat_command, F.spnStat_floor, F.spnStat_curve_on, F.spnStat_chop_fault, F.spnStat_ov2]⟩
def spnComm : Reg := ⟨"SPN_COMM", .ssc, 0x410, 1, 8, false,
  [F.spnComm_advance, F.spnComm_win_min, F.spnComm_blank_max, F.spnComm_skip_max, F.spnComm_zc_tol, F.spnComm_spinup_rate]⟩
def spnSlope : Reg := ⟨"SPN_SLOPE", .ssc, 0x418, 1, 8, false,
  [F.spnSlope_code]⟩
def spnBus : Reg := ⟨"SPN_BUS", .ssc, 0x420, 1, 8, false,
  [F.spnBus_chop_on, F.spnBus_chop_off, F.spnBus_ov1, F.spnBus_ov2]⟩
def spnEvt : Reg := ⟨"SPN_EVT", .ssc, 0x428, 1, 8, false,
  [F.spnEvt_lost, F.spnEvt_relock, F.spnEvt_restart, F.spnEvt_chop_fault, F.spnEvt_ov1, F.spnEvt_ov2, F.spnEvt_skip, F.spnEvt_psl_fault]⟩
def spnCnt : Reg := ⟨"SPN_CNT", .ssc, 0x430, 1, 8, false,
  [F.spnCnt_skips, F.spnCnt_losts, F.spnCnt_restarts]⟩
def spnDemand : Reg := ⟨"SPN_DEMAND", .ssc, 0x438, 1, 8, false,
  [F.spnDemand_demand, F.spnDemand_curve]⟩
def pslStat : Reg := ⟨"PSL_STAT", .ssc, 0x480, 1, 8, false,
  [F.pslStat_dl_err, F.pslStat_ul_err, F.pslStat_fault_seen, F.pslStat_parked, F.pslStat_psl_fault]⟩
def pwrHoldCfg : Reg := ⟨"PWR_HOLD_CFG", .pwr, 0x800, 1, 8, false,
  [F.pwrHoldCfg_hold_vset, F.pwrHoldCfg_hold_sag, F.pwrHoldCfg_hold_min]⟩
def pwrHoldStat : Reg := ⟨"PWR_HOLD_STAT", .pwr, 0x808, 1, 8, false,
  [F.pwrHoldStat_state, F.pwrHoldStat_cause, F.pwrHoldStat_contrib, F.pwrHoldStat_flushing, F.pwrHoldStat_elapsed]⟩
def pwrHoldE : Reg := ⟨"PWR_HOLD_E", .pwr, 0x810, 1, 8, false,
  [F.pwrHoldE_e_total, F.pwrHoldE_t_avail]⟩
def pwrHoldB : Reg := ⟨"PWR_HOLD_B", .pwr, 0x820, 4, 8, false,
  [F.pwrHoldB_bound, F.pwrHoldB_dirty]⟩
def pwrHoldR : Reg := ⟨"PWR_HOLD_R", .pwr, 0x840, 4, 8, false,
  [F.pwrHoldR_rate, F.pwrHoldR_energy]⟩
def lmlCfg : Reg := ⟨"LML_CFG", .lml, 0x0, 1, 8, false,
  [F.lmlCfg_used, F.lmlCfg_width, F.lmlCfg_rate, F.lmlCfg_encrypt]⟩
def lmlStat : Reg := ⟨"LML_STAT", .lml, 0x8, 1, 8, false,
  [F.lmlStat_state, F.lmlStat_width, F.lmlStat_rate, F.lmlStat_lanes, F.lmlStat_secure, F.lmlStat_routed, F.lmlStat_link_delay, F.lmlStat_down_cause]⟩
def lmlEvt : Reg := ⟨"LML_EVT", .lml, 0x10, 1, 8, false,
  [F.lmlEvt_up, F.lmlEvt_retrain, F.lmlEvt_dead, F.lmlEvt_restored, F.lmlEvt_stomp, F.lmlEvt_gcm_fail, F.lmlEvt_budget_drop, F.lmlEvt_unreach_drop, F.lmlEvt_busy_nak, F.lmlEvt_stale]⟩
def lmlRetry : Reg := ⟨"LML_RETRY", .lml, 0x18, 1, 8, false,
  [F.lmlRetry_next_seq, F.lmlRetry_acked, F.lmlRetry_buf_used, F.lmlRetry_sends]⟩
def lmlCred : Reg := ⟨"LML_CRED", .lml, 0x100, 8, 8, false,
  [F.lmlCred_tx_avail, F.lmlCred_rx_used]⟩
def lmlCnt : Reg := ⟨"LML_CNT", .lml, 0x200, 8, 8, false,
  [F.lmlCnt_count]⟩
def lmlNode : Reg := ⟨"LML_NODE", .lml, 0x800, 1, 8, false,
  [F.lmlNode_addr, F.lmlNode_fixed, F.lmlNode_root, F.lmlNode_lead]⟩
def lmlBudget : Reg := ⟨"LML_BUDGET", .lml, 0x808, 1, 8, false,
  [F.lmlBudget_fixed_units, F.lmlBudget_hop_units]⟩
def lmlE2e : Reg := ⟨"LML_E2E", .lml, 0x810, 1, 8, false,
  [F.lmlE2e_retry_us, F.lmlE2e_idle_us, F.lmlE2e_retries, F.lmlE2e_busy_us]⟩
def lmlDedup : Reg := ⟨"LML_DEDUP", .lml, 0x818, 1, 8, false,
  [F.lmlDedup_in_use, F.lmlDedup_full_naks]⟩
def lmlRc : Reg := ⟨"LML_RC", .lml, 0x820, 1, 8, false,
  [F.lmlRc_start, F.lmlRc_phase, F.lmlRc_fail, F.lmlRc_generation]⟩
def lmlRt : Reg := ⟨"LML_RT", .lml, 0x1000, 64, 8, false,
  [F.lmlRt_pfx, F.lmlRt_len, F.lmlRt_valid, F.lmlRt_primary, F.lmlRt_alternate, F.lmlRt_alt_valid]⟩
def memCfg : Reg := ⟨"MEM_CFG", .mem, 0x0, 1, 8, false,
  [F.memCfg_size_gib, F.memCfg_rate, F.memCfg_trained]⟩
def memWipe : Reg := ⟨"MEM_WIPE", .mem, 0x10, 1, 8, false,
  [F.memWipe_state, F.memWipe_dump_kept, F.memWipe_last_ms]⟩
def memPart : Reg := ⟨"MEM_PART", .mem, 0x100, 8, 8, false,
  [F.memPart_base_mib, F.memPart_size_mib]⟩
def eccCe : Reg := ⟨"ECC_CE", .ecc, 0x0, 8, 8, false,
  [F.eccCe_count]⟩
def eccUe : Reg := ⟨"ECC_UE", .ecc, 0x40, 8, 8, false,
  [F.eccUe_count]⟩
def eccLog : Reg := ⟨"ECC_LOG", .ecc, 0x80, 1, 8, false,
  [F.eccLog_addr, F.eccLog_mac, F.eccLog_syndrome, F.eccLog_kind, F.eccLog_valid, F.eccLog_overflow]⟩
def eccPcnt : Reg := ⟨"ECC_PCNT", .ecc, 0x88, 1, 8, false,
  [F.eccPcnt_marker_reads, F.eccPcnt_marked]⟩
def eccInj : Reg := ⟨"ECC_INJ", .ecc, 0x90, 1, 8, false,
  [F.eccInj_addr, F.eccInj_mac, F.eccInj_kind, F.eccInj_go, F.eccInj_armed]⟩
def eccRemapCtl : Reg := ⟨"ECC_REMAP_CTL", .ecc, 0xa0, 1, 8, false,
  [F.eccRemapCtl_mac, F.eccRemapCtl_row, F.eccRemapCtl_go, F.eccRemapCtl_busy, F.eccRemapCtl_fail]⟩
def eccRemapStat : Reg := ⟨"ECC_REMAP_STAT", .ecc, 0xa8, 1, 8, false,
  [F.eccRemapStat_in_use, F.eccRemapStat_full, F.eccRemapStat_last_macro]⟩
def eccHardLog : Reg := ⟨"ECC_HARD_LOG", .ecc, 0xb0, 1, 8, false,
  [F.eccHardLog_mac, F.eccHardLog_row, F.eccHardLog_valid, F.eccHardLog_count]⟩
def pwrCs : Reg := ⟨"PWR_CS", .pwr, 0x0, 1, 8, false,
  [F.pwrCs_state, F.pwrCs_target, F.pwrCs_in_transition, F.pwrCs_cs_allow, F.pwrCs_cs1_idle, F.pwrCs_cs2_block]⟩
def pwrHs : Reg := ⟨"PWR_HS", .pwr, 0x20, 4, 8, false,
  [F.pwrHs_state, F.pwrHs_target, F.pwrHs_in_transition, F.pwrHs_step, F.pwrHs_permitted, F.pwrHs_voted, F.pwrHs_lmin]⟩
def pwrHsCfg : Reg := ⟨"PWR_HS_CFG", .pwr, 0x40, 1, 8, false,
  [F.pwrHsCfg_hs_allow, F.pwrHsCfg_idle1_us, F.pwrHsCfg_idle2_s, F.pwrHsCfg_idle3_s, F.pwrHsCfg_idle4_s]⟩
def pwrHsExit : Reg := ⟨"PWR_HS_EXIT", .pwr, 0x48, 4, 8, false,
  [F.pwrHsExit_exit_us]⟩
def pwrPs : Reg := ⟨"PWR_PS", .pwr, 0x80, 1, 8, false,
  [F.pwrPs_ps, F.pwrPs_streams, F.pwrPs_speed_cap, F.pwrPs_host_width, F.pwrPs_engines, F.pwrPs_power_mw, F.pwrPs_throttling]⟩
def pwrDom : Reg := ⟨"PWR_DOM", .pwr, 0x88, 1, 8, false,
  [F.pwrDom_dom]⟩
def pwrAbsLog : Reg := ⟨"PWR_ABS_LOG", .pwr, 0x90, 1, 8, false,
  [F.pwrAbsLog_addr, F.pwrAbsLog_valid, F.pwrAbsLog_count]⟩
def pwrWake : Reg := ⟨"PWR_WAKE", .pwr, 0x98, 1, 8, false,
  [F.pwrWake_last_dom, F.pwrWake_wakes, F.pwrWake_seen]⟩
def pwrVote : Reg := ⟨"PWR_VOTE", .pwr, 0x100, 8, 8, false,
  [F.pwrVote_dom]⟩
def pwrHvote : Reg := ⟨"PWR_HVOTE", .pwr, 0x180, 8, 8, false,
  [F.pwrHvote_hda]⟩
def thmCfg : Reg := ⟨"THM_CFG", .thm, 0x0, 1, 8, false,
  [F.thmCfg_rise_throttle, F.thmCfg_rise_shutdown, F.thmCfg_fixed_shutdown, F.thmCfg_cal_delta, F.thmCfg_auto_restart]⟩
def thmStat : Reg := ⟨"THM_STAT", .thm, 0x8, 1, 8, false,
  [F.thmStat_phase, F.thmStat_step, F.thmStat_fixed, F.thmStat_die_max, F.thmStat_head_max, F.thmStat_excluded, F.thmStat_cause]⟩
def thmPhase : Reg := ⟨"THM_PHASE", .thm, 0x10, 1, 8, false,
  [F.thmPhase_normal]⟩
def thmEdges : Reg := ⟨"THM_EDGES", .thm, 0x18, 1, 8, false,
  [F.thmEdges_edge]⟩
def thmEvt : Reg := ⟨"THM_EVT", .thm, 0x20, 1, 8, false,
  [F.thmEvt_step_up, F.thmEvt_step_down, F.thmEvt_exclude, F.thmEvt_shutdown]⟩
def thmSens : Reg := ⟨"THM_SENS", .thm, 0x100, 28, 8, false,
  [F.thmSens_temp, F.thmSens_excluded, F.thmSens_region, F.thmSens_peak]⟩
def thmRegion : Reg := ⟨"THM_REGION", .thm, 0x200, 5, 8, false,
  [F.thmRegion_temp, F.thmRegion_rise8, F.thmRegion_rise2, F.thmRegion_band]⟩
def thmHead : Reg := ⟨"THM_HEAD", .thm, 0x300, 16, 8, false,
  [F.thmHead_head]⟩
def calCtl : Reg := ⟨"CAL_CTL", .cal, 0x0, 1, 8, false,
  [F.calCtl_kind, F.calCtl_inst, F.calCtl_go]⟩
def calStat : Reg := ⟨"CAL_STAT", .cal, 0x8, 1, 8, false,
  [F.calStat_busy, F.calStat_kind, F.calStat_inst, F.calStat_fail, F.calStat_fallback, F.calStat_runs]⟩
def calDefer : Reg := ⟨"CAL_DEFER", .cal, 0x10, 1, 8, false,
  [F.calDefer_max_defer]⟩
def calDue : Reg := ⟨"CAL_DUE", .cal, 0x100, 6, 8, false,
  [F.calDue_due, F.calDue_method]⟩
def calDelta : Reg := ⟨"CAL_DELTA", .cal, 0x140, 6, 8, false,
  [F.calDelta_delta]⟩
def secLc : Reg := ⟨"SEC_LC", .sec, 0x0, 1, 8, false,
  [F.secLc_count, F.secLc_state, F.secLc_rma_left, F.secLc_ceiling, F.secLc_bek1, F.secLc_pending]⟩
def secDbg : Reg := ⟨"SEC_DBG", .sec, 0x8, 1, 8, false,
  [F.secDbg_level, F.secDbg_cycles, F.secDbg_signer, F.secDbg_flags, F.secDbg_withheld, F.secDbg_close]⟩
def secSerial : Reg := ⟨"SEC_SERIAL", .sec, 0x10, 2, 8, false,
  [F.secSerial_serial]⟩
def secSlipStat : Reg := ⟨"SEC_SLIP_STAT", .sec, 0x20, 1, 8, false,
  [F.secSlipStat_status, F.secSlipStat_kind, F.secSlipStat_check, F.secSlipStat_valid]⟩
def secFault : Reg := ⟨"SEC_FAULT", .sec, 0x28, 1, 8, false,
  [F.secFault_cause, F.secFault_seen]⟩
def dbgStat : Reg := ⟨"DBG_STAT", .dbg, 0x0, 1, 8, false,
  [F.dbgStat_jtag_level, F.dbgStat_bar2_set, F.dbgStat_halted, F.dbgStat_scan]⟩
def dbgBar2Log : Reg := ⟨"DBG_BAR2_LOG", .dbg, 0x8, 1, 8, false,
  [F.dbgBar2Log_addr, F.dbgBar2Log_write, F.dbgBar2Log_valid, F.dbgBar2Log_count]⟩
def loop : Reg := ⟨"LOOP", .loop, 0x0, 1, 8, false,
  [F.loop_depth, F.loop_run, F.loop_pattern, F.loop_locked, F.loop_refused, F.loop_arg]⟩
def loopCnt : Reg := ⟨"LOOP_CNT", .loop, 0x8, 1, 8, false,
  [F.loopCnt_errors, F.loopCnt_checked]⟩
def evrCtl : Reg := ⟨"EVR_CTL", .evr, 0x0, 1, 8, false,
  [F.evrCtl_frozen, F.evrCtl_freeze, F.evrCtl_thaw, F.evrCtl_checkpoint]⟩
def evrStat : Reg := ⟨"EVR_STAT", .evr, 0x8, 1, 8, false,
  [F.evrStat_epoch, F.evrStat_writing, F.evrStat_nor_fail, F.evrStat_auto_thawed]⟩
def evrPos : Reg := ⟨"EVR_POS", .evr, 0x10, 1, 8, false,
  [F.evrPos_seconds]⟩
def evrWdog : Reg := ⟨"EVR_WDOG", .evr, 0x20, 1, 8, false,
  [F.evrWdog_timeout_ms, F.evrWdog_kick, F.evrWdog_expired]⟩
def evrPmCtl : Reg := ⟨"EVR_PM_CTL", .evr, 0x28, 1, 8, false,
  [F.evrPmCtl_go, F.evrPmCtl_dump_valid, F.evrPmCtl_cause]⟩
def evrPmStat : Reg := ⟨"EVR_PM_STAT", .evr, 0x30, 1, 8, false,
  [F.evrPmStat_kept, F.evrPmStat_dump_seq, F.evrPmStat_resets]⟩
def evrCursor : Reg := ⟨"EVR_CURSOR", .evr, 0x1000, 2, 512, false,
  [F.evrCursor_area, F.evrCursor_index, F.evrCursor_offset, F.evrCursor_auto]⟩
def evrWinStat : Reg := ⟨"EVR_WIN_STAT", .evr, 0x1008, 2, 512, false,
  [F.evrWinStat_ready, F.evrWinStat_filling, F.evrWinStat_empty]⟩
def evrWindow : Reg := ⟨"EVR_WINDOW", .evr, 0x1100, 64, 8, false,
  [F.evrWindow_data]⟩
def eccMbist : Reg := ⟨"ECC_MBIST", .ecc, 0xc0, 1, 8, false,
  [F.eccMbist_mac, F.eccMbist_go, F.eccMbist_busy, F.eccMbist_fail, F.eccMbist_fail_row, F.eccMbist_fail_macro]⟩
def glbStart : Reg := ⟨"GLB_START", .glb, 0xc0, 1, 8, false,
  [F.glbStart_stage, F.glbStart_boot_done, F.glbStart_hs0_seen, F.glbStart_ready, F.glbStart_boot_ms]⟩
def glbPins : Reg := ⟨"GLB_PINS", .glb, 0xc8, 1, 8, false,
  [F.glbPins_pwr_good, F.glbPins_sys_rst_n, F.glbPins_perst_n, F.glbPins_sris, F.glbPins_shock, F.glbPins_therm_trip_n, F.glbPins_fault_n]⟩
def glbGpio : Reg := ⟨"GLB_GPIO", .glb, 0xd0, 1, 8, false,
  [F.glbGpio_level, F.glbGpio_out, F.glbGpio_oe]⟩
def glbAvs : Reg := ⟨"GLB_AVS", .glb, 0xd8, 1, 8, false,
  [F.glbAvs_target_mv, F.glbAvs_read_mv, F.glbAvs_avs_err]⟩
def pspRaw : Reg := ⟨"PSP_RAW", .psp, 0x0, 1, 8, false,
  [F.pspRaw_data, F.pspRaw_addr, F.pspRaw_head, F.pspRaw_rd, F.pspRaw_go, F.pspRaw_busy]⟩
def pspStat : Reg := ⟨"PSP_STAT", .psp, 0x8, 1, 8, false,
  [F.pspStat_flt, F.pspStat_flt_seen, F.pspStat_id, F.pspStat_frames]⟩
def glbId : Reg := ⟨"GLB_ID", .glb, 0x0, 1, 8, false,
  [F.glbId_silicon_rev, F.glbId_part]⟩
def glbBusErr : Reg := ⟨"GLB_BUS_ERR", .glb, 0x8, 1, 8, false,
  [F.glbBusErr_addr, F.glbBusErr_requester, F.glbBusErr_write, F.glbBusErr_cause, F.glbBusErr_valid, F.glbBusErr_count]⟩
def ttbAct : Reg := ⟨"TTB_ACT", .ttb, 0x0, 8, 8, false,
  [F.ttbAct_queued, F.ttbAct_state, F.ttbAct_twin, F.ttbAct_priority, F.ttbAct_homework]⟩
def mgtCfg : Reg := ⟨"MGT_CFG", .mgt, 0x0, 1, 8, false,
  [F.mgtCfg_smb_addr, F.mgtCfg_i3c_en, F.mgtCfg_uart_baud]⟩
def mgtStat : Reg := ⟨"MGT_STAT", .mgt, 0x8, 1, 8, false,
  [F.mgtStat_smb_busy, F.mgtStat_i3c_dyn, F.mgtStat_mctp_rx, F.mgtStat_mctp_err]⟩

/-- The registers of block `xbr`. -/
def ofXbr : List Reg :=
  [xbrArbCtl, xbrHallPass, xbrErrStat, xbrClsWeight, xbrBeats]
/-- The registers of block `glb`. -/
def ofGlb : List Reg :=
  [glbRegionStat, glbStructStat, glbStructVer, glbStart, glbPins, glbGpio, glbAvs, glbId, glbBusErr]
/-- The registers of block `hst`. -/
def ofHst : List Reg :=
  [hstCtxStat, hstRltStat, hstBound]
/-- The registers of block `map`. -/
def ofMap : List Reg :=
  [mapCtl, mapStat, mapGrpCtl, mapGrpStat, mapMaint, mapMaintStat, mapLfsr, mapErr, mapHits, mapMisses]
/-- The registers of block `cmp`. -/
def ofCmp : List Reg :=
  [cmpCfg, cmpEngStat, cmpErr, cmpInBytes, cmpOutBytes]
/-- The registers of block `cph`. -/
def ofCph : List Reg :=
  [cphNonceId, cphCm, cphStat, cphErr, cphNonceCtr, cphNonceLimit, cphKeyInv, cphCtxCtl, cphCtxWin, cphBytes]
/-- The registers of block `sqr`. -/
def ofSqr : List Reg :=
  [sqrCtl, sqrStat, sqrTask, sqrTaskTrk, sqrTaskParam, sqrCnt, sqrWr, sqrFlags, sqrMc, sqrClamp, sqrLocker, sqrGeom] ++
  [sqrAssist, sqrZone, sqrZone2]
/-- The registers of block `chn`. -/
def ofChn : List Reg :=
  [chnCtl, chnStat, chnSync, chnDefect, chnDecode, chnMargin, chnLadder, chnResult, chnRedecode, chnTloop, chnTarget, chnCnt] ++
  [chnEqAlt, chnEq, chnSkew, chnWctl, chnWstat, chnWresult, chnPrecomp, chnAssist, chnFly, chnApplied, chnWcnt]
/-- The registers of block `ssc`. -/
def ofSsc : List Reg :=
  [sscRole, sscSwap, sscRamp, sscRetract, sscOvr, sscCmpTol, sscCmpStat, sscSat, sscTraceCtl, sscTraceStat, sscTraceSel, sscTgt] ++
  [sscLaneCtl, sscLaneStat, sscSeekLim, sscTrackCfg, sscMa, spnCtl, spnStat, spnComm, spnSlope, spnBus, spnEvt, spnCnt] ++
  [spnDemand, pslStat]
/-- The registers of block `pwr`. -/
def ofPwr : List Reg :=
  [pwrHoldCfg, pwrHoldStat, pwrHoldE, pwrHoldB, pwrHoldR, pwrCs, pwrHs, pwrHsCfg, pwrHsExit, pwrPs, pwrDom, pwrAbsLog] ++
  [pwrWake, pwrVote, pwrHvote]
/-- The registers of block `lml`. -/
def ofLml : List Reg :=
  [lmlCfg, lmlStat, lmlEvt, lmlRetry, lmlCred, lmlCnt, lmlNode, lmlBudget, lmlE2e, lmlDedup, lmlRc, lmlRt]
/-- The registers of block `mem`. -/
def ofMem : List Reg :=
  [memCfg, memWipe, memPart]
/-- The registers of block `ecc`. -/
def ofEcc : List Reg :=
  [eccCe, eccUe, eccLog, eccPcnt, eccInj, eccRemapCtl, eccRemapStat, eccHardLog, eccMbist]
/-- The registers of block `thm`. -/
def ofThm : List Reg :=
  [thmCfg, thmStat, thmPhase, thmEdges, thmEvt, thmSens, thmRegion, thmHead]
/-- The registers of block `cal`. -/
def ofCal : List Reg :=
  [calCtl, calStat, calDefer, calDue, calDelta]
/-- The registers of block `sec`. -/
def ofSec : List Reg :=
  [secLc, secDbg, secSerial, secSlipStat, secFault]
/-- The registers of block `dbg`. -/
def ofDbg : List Reg :=
  [dbgStat, dbgBar2Log]
/-- The registers of block `loop`. -/
def ofLoop : List Reg :=
  [loop, loopCnt]
/-- The registers of block `evr`. -/
def ofEvr : List Reg :=
  [evrCtl, evrStat, evrPos, evrWdog, evrPmCtl, evrPmStat, evrCursor, evrWinStat, evrWindow]
/-- The registers of block `psp`. -/
def ofPsp : List Reg :=
  [pspRaw, pspStat]
/-- The registers of block `ttb`. -/
def ofTtb : List Reg :=
  [ttbAct]
/-- The registers of block `mgt`. -/
def ofMgt : List Reg :=
  [mgtCfg, mgtStat]

/-- The registers of a block (R446: an offset no entry of this list covers is a hole). -/
def ofBlock : Block → List Reg
  | .xbr => ofXbr
  | .glb => ofGlb
  | .hst => ofHst
  | .map => ofMap
  | .cmp => ofCmp
  | .cph => ofCph
  | .sqr => ofSqr
  | .chn => ofChn
  | .ssc => ofSsc
  | .pwr => ofPwr
  | .lml => ofLml
  | .mem => ofMem
  | .ecc => ofEcc
  | .thm => ofThm
  | .cal => ofCal
  | .sec => ofSec
  | .dbg => ofDbg
  | .loop => ofLoop
  | .evr => ofEvr
  | .psp => ofPsp
  | .ttb => ofTtb
  | .mgt => ofMgt

end Reg

end Sys2Proof.Machine
end

