-- ==== Sys2Proof/Machine/State.lean ====
section
/-! DEFINITION. The state of the block: every register field (R9), the state the chapters give each unit beside its
registers, the memory windows, what has been sent out, and the queue of waiting commands. -/
namespace Sys2Proof.Machine

/-- How the outputs of an HDA slot stand (R1, R425): held inactive until structure load, driven for a declared HDA, else
high-impedance with pull-downs. -/
inductive SlotDrive where
  | inactive | driven | highZ
  deriving DecidableEq, Repr

/-- One symbol on the write-data pair of a head (R230, R234) and on its assist line (R235, R427): the symbol, the shift of the
transition into it in 1/64 symbol, the assist drive outside and inside the pulse or boost, and the part of the symbol in which AT
is high, in 1/64 symbol from the symbol boundary (none where both ends are equal; a pulse may end in the next symbol). -/
structure WriteSymbol where
  bit : Bool
  shift : Int
  rest : Nat
  peak : Nat
  atFrom : Int
  atTo : Int
  deriving DecidableEq, Repr

/-- What the part sends out, newest first in `Dev.out`: completions, event notices, bus responses, gate and driver
activity, frames of its serial links, and data it delivers.  Where a quantity is a cycle, position or time the rule
that names it says which. -/
inductive Emit where
  /-- completion queue entry: port, queue, command, status (type·0x100 + code, 0 success), Dword 0 -/
  | cqe (h qid cid status dw0 : Nat)
  /-- asynchronous event completion: port, notice -/
  | aen (h notice : Nat)
  /-- response to a control-plane access: requester, whether it is not an error, data -/
  | bus (rq : Nat) (ok : Bool) (data : Nat)
  /-- a log page or data structure returned to a host -/
  | page (h cid : Nat) (data : List Nat)
  /-- data returned to a host, one identity for each logical block -/
  | hostData (h qid cid : Nat) (toks : List Nat)
  /-- crossbar delivery: packet output, class, beats, and the beats whose poison bit is set -/
  | packet (out cls beats : Nat) (poison : List Nat)
  /-- a decoded sector delivered to MED: channel, sequence number, sector, its 4,096 bytes as a number, poison on every beat -/
  | sector (chn seq sector tok : Nat) (poison : Bool)
  /-- gate edges of a channel: read gate, write gate, assist as they stand after the edge -/
  | gates (chn : Nat) (rg wg ag : Bool)
  /-- where on the track a write gate opened or closed by command acts: channel, open, place (wedge and position) (R177) -/
  | writeGate (chn : Nat) (opened : Bool) (place : Nat)
  /-- an open write gate passes a servo field: closed from position 65,280 of the wedge before to 4,352 of this one, where the
  resume field is written; AT stays low from the close to the end of the resume field (R177, R181, R235): channel, wedge -/
  | split (chn wedge : Nat)
  /-- the symbols a channel drives from the start of a sector's slot until its end or the gate's close: channel, head, track,
  sector, symbols -/
  | wave (chn head track sector : Nat) (symbols : List WriteSymbol)
  /-- a heater target sent to a head over the PSP: channel, head, code (R239) -/
  | heater (chn head code : Nat)
  /-- a sector written: channel, head, track, sector, data identity, poisoned resync pattern -/
  | written (chn head track sector tok : Nat) (poison : Bool)
  /-- a preamplifier register frame: actuator, read, head, address, data -/
  | psp (act : Nat) (rd : Bool) (head addr data : Nat)
  /-- a downlink frame of the Power Stage Link, its 96 bits (R290): HDA, frame -/
  | psl (n frame : Nat)
  /-- an anchor written to a surface's sector 0 of locker_first (R304): HDA, its 4,096 bytes -/
  | anchor (n : Nat) (bytes : List Byte)
  /-- a header sector of the locker journal written (R305): HDA, its 4,096 bytes -/
  | journal (n : Nat) (bytes : List Byte)
  /-- a frame sent on a Lomey port -/
  | lomey (port : Nat) (f : Frame)
  /-- a frame sent on a Lomey port with a stomped trailer (R313) -/
  | lomeyStomped (port : Nat) (f : Frame)
  /-- a link control flit: port, acknowledged sequence, NAK, credit by class -/
  | flit (port : Nat) (ack nak : Option Nat) (credit : List Nat)
  /-- a unit of the PCS as its bytes (R311): port, kind byte, the 64 bytes of the flit -/
  | unit (port kind : Nat) (bytes : List Byte)
  /-- an SPDM message: endpoint, code, fields -/
  | spdm (e code : Nat) (body : List Nat)
  /-- an event raised to firmware: code of the event, instance -/
  | event (code inst : Nat)
  /-- an event noted in the Report Card: code, arguments -/
  | card (code : Nat) (args : List Nat)
  /-- the outputs of an HDA slot change how they are driven -/
  | slot (n : Nat) (s : SlotDrive)
  /-- an external pin or supply driven: pin, level -/
  | pin (p level : Nat)
  /-- NVMe-MI response on the management bus -/
  | mi (msg : Nat)
  /-- the media loop-back writes and reads back a track: channel, head, track (R420) -/
  | loopTrack (chn head track : Nat)
  /-- shift register of the JTAG port -/
  | jtag (ok : Bool) (data : Nat)
  deriving DecidableEq, Repr

/-- A packet waiting at a crossbar input, with the CORE cycle it arrived in and its class (R17, R51). -/
structure XbWaiting where
  arrived : Nat
  cls : Nat
  p : Packet
  deriving DecidableEq, Repr

/-- A granted packet on its way to an output, with the cycle of its grant and its class (R19). -/
structure XbFlight where
  granted : Nat
  cls : Nat
  p : Packet
  deriving DecidableEq, Repr

/-- One grant of the c7_share window (R21): cycle, output, class and beats. -/
structure XbGrant where
  cycle : Nat
  out : Nat
  cls : Nat
  beats : Nat
  deriving DecidableEq, Repr

/-- The crossbar beside its registers (R16-R24): the 64 queues in arrival order, the engine packets that MED holds back (R11),
packets in transfer, the
deficits (may fall to -15), the credit taken at each output and class, the first cycle each output may arbitrate and
each input may request again, and the grants of the last 1,024 cycles. -/
structure XbState where
  cycle : Nat := 0
  queued : List XbWaiting := []
  medHeld : List Packet := []
  flights : List XbFlight := []
  deficit : List (Nat × Int) := []
  credit : List (Nat × Nat) := []
  outFree : List (Nat × Nat) := []
  inFree : List (Nat × Nat) := []
  window : List XbGrant := []
  deriving DecidableEq, Repr

/-- One section of the loaded structure (R40, R41): type, instance and bytes. -/
structure Section where
  ty : Nat
  inst : Nat
  data : List Byte
  deriving DecidableEq, Repr

/-- The NOR copies of the structure image (R61): the bytes of a slot and its descriptor's state byte. -/
structure ImageSlot where
  bytes : List Byte := []
  desc : Nat := 0xFF
  deriving DecidableEq, Repr

/-- Where an activation stands (R67).  `verifying` is step 1, `writing` step 3, `draining` step 5, `destaging` step 6,
`committed` step 8, `wiping` step 9. -/
inductive ActPhase where
  | idle | verifying | writing | draining | destaging | committed | wiping
  deriving DecidableEq, Repr

/-- The structure the part runs under, its NOR copies and the staging image of Structural Activate (R65-R68); the DRAM section
that was loaded before a reset (R351) and the size the DRAM reports (R62); and the slot an activation has committed and no load has
taken yet (R67, R68). -/
structure StructState where
  sections : List Section := []
  slots : List (Nat × ImageSlot) := []
  staging : List (Nat × List Byte) := []
  stagingOwner : Option Nat := none
  stagingCid : Nat := 0
  phase : ActPhase := .idle
  oldDram : List Byte := []
  dramGib : Nat := 0
  newSlot : Option Nat := none
  deriving DecidableEq, Repr

/-- What a logical block holds, by identity (assumption log 9): a data identity (0 zeroes), the mark of Write
Uncorrectable, a poisoned marker (R343, R344), or a sector that neither the retry ladder nor band parity recovers (R120, R131). -/
inductive Blk where
  | data (tok : Nat)
  | uncorrectable
  | lost
  | gone
  deriving DecidableEq, Repr

/-- A logical block on the media: where it lies (in a conventional namespace also the band pair and the offset in it, R123) and
what it holds, with the wrapped images of the two keys under which it was encrypted (R157), and whether it lies on relocation
tracks (R245).  An unlisted block reads as zeroes. -/
structure MediaBlk where
  mapped : Bool := false
  blk : Blk := .data 0
  act : Nat := 0
  band : Nat := 0
  off : Nat := 0
  keys : Option (Nat × Nat) := none
  moved : Bool := false
  deriving DecidableEq, Repr

/-- I/O commands of R78, R98 and R100-R103. -/
inductive IoKind where
  | read | write | writeZeroes | writeUncorrectable | compare | verify
  | deallocate | dsmOther | copy | append
  | zone (a : ZoneAction) (all : Bool)
  | zoneReport | flush | compAppend | compRead | ctxSave | ctxRestore
  | latGet | latSet | identify
  deriving DecidableEq, Repr

/-- An I/O command as its queue entry gives it. -/
structure IoCmd where
  kind : IoKind
  nsid : Nat
  slba : Nat := 0
  count : Nat := 0
  toks : List Nat := []
  fua : Bool := false
  keyTag : Nat := 0
  ranges : List LbaRange := []
  ctx : Nat := 0
  cont : Bool := false
  level : Nat := 0
  gcm : Bool := false
  chunk : List Byte := []
  stored : Nat := 0
  bufLbas : Nat := 0
  value : Nat := 0
  deriving DecidableEq, Repr

/-- Where a command came from: a submission queue, a chain root through a Lomey port (source, tag, attempt), internal
work, or a controller reset since it began, for which nobody waits (R91 step 4). -/
inductive Origin where
  | host (h qid cid : Nat)
  | chain (port src tag attempt : Nat)
  | internal
  | gone
  deriving DecidableEq, Repr

/-- Where a command stands: in its fetch engine; in the range-lock table; its data moving; its data in the buffer;
waiting for the destage of extents it overlaps, for media, for a stream context, for an engine or a cipher core, for its
placement; forwarded to another node; or a Flush in progress. -/
inductive Stage where
  | fetched | locked | moving | buffered | overlap | media | context | engine | cipher | placing | remote | flushing
  deriving DecidableEq, Repr

/-- A range-lock entry (R78).  `follow` holds for an append whose placement is not fixed: its start is the zone's write
pointer. -/
structure Lock where
  excl : Bool
  nsid : Nat
  lo : Nat
  hi : Nat
  follow : Bool := false
  deriving DecidableEq, Repr

/-- A stream context (R147): whether it holds history, its history oldest first, the window offset of the next byte, its counts, and
the other bytes of its window from that offset on (zeroes beyond the list). -/
structure StreamCtx where
  holds : Bool := false
  hist : List Byte := []
  head : Nat := 0
  chunks : Nat := 0
  total : Nat := 0
  rest : List Byte := []
  deriving DecidableEq, Repr

/-- A command context (R73).  `begun` says that media work has begun (R109), `waits` for which HDA the command waits to
reach HS0 (R88), `traffic` the XBAR traffic kind of internal work (R125), `zw` the start the write pointer returns to (R450), `pend` the writes a Flush or an overlapping read waits for (R81, R89) and the actuators a read still
waits for, `prev` the stream context before a placed append changed it (R148), `got` what a Copy read from other nodes, by source range
(R330). -/
structure Ctx where
  id : Nat
  fe : Nat
  org : Origin
  c : IoCmd
  stage : Stage := .fetched
  locks : List Lock := []
  begun : Bool := false
  waits : Option Nat := none
  zw : Option Nat := none
  pend : List Nat := []
  poison : List Nat := []
  prev : Option StreamCtx := none
  got : List (Nat × List Nat) := []
  traffic : Option Traffic := none
  deriving DecidableEq, Repr

/-- One copy of a block in the write buffer: the write that placed it, its place in the admission order (R84), the key slot pair
(R168), what it holds, the HDA and actuator it destages to, whether it is covered, poisoned, and on locker tracks already (R90). -/
structure BufCopy where
  wid : Nat
  seq : Nat := 0
  pair : Nat := 0
  blk : Blk
  hda : Nat
  act : Nat
  covered : Bool := false
  poison : Bool := false
  safe : Bool := false
  deriving DecidableEq, Repr

/-- One block of a buffer extent: its copy, and the copies it superseded before it was covered, latest first (R88: the previous
contents return on a discard). -/
structure BufCell where
  lba : Nat
  now : BufCopy
  under : List BufCopy := []
  deriving DecidableEq, Repr

/-- A buffer extent (R81): what remains of the blocks one write placed.  The list that holds the extents keeps them in admission
order (R84). -/
structure Extent where
  wid : Nat
  nsid : Nat
  seq : Nat := 0
  cells : List BufCell
  prio : Bool := false
  deriving DecidableEq, Repr

/-- Other buffered bytes that count in D, in 4 KiB units: running band parity (kind 0, R119), a Homework rewrite (2, R129). -/
structure HeldDirty where
  kind : Nat
  key : Nat
  hda : Nat
  units : Nat
  deriving DecidableEq, Repr

/-- Media operations of the Timetable. -/
inductive MKind where
  | read (id : Nat)
  | destage (wid : Nat)
  | locker (wid : Nat)
  | homeWrite (nsid zone : Nat) (second : Bool)
  | homeVerify (nsid zone : Nat) (second : Bool)
  | clean (nsid zone : Nat)
  deriving DecidableEq, Repr

/-- A media task (R199, R229): its actuator, whether it began, whether it has priority, the read retries that count on the
retry ladder, the heads whose first assist fault it met (R244), and the media streams it takes, 2 on a twin pair (R363). -/
structure MTask where
  tid : Nat
  kind : MKind
  act : Nat
  begun : Bool := false
  prio : Bool := false
  retries : Nat := 0
  faulted : List Nat := []
  streams : Nat := 0
  deriving DecidableEq, Repr

/-- Zone states of the Zoned Namespace command set. -/
inductive ZState where
  | empty | implicitOpen | explicitOpen | closed | full | readOnly | offline
  deriving DecidableEq, Repr

/-- A zone and its two bands (R114-R116): actuator, heads and band indices, state, write pointer as offset, a pending change
to Read Only while it drains, the marks of Homework on each band (R129), and for a conventional namespace the band generation (R123)
and the data of the parity group begun (R119). -/
structure Zone where
  act : Nat
  headA : Nat
  headB : Nat
  bandA : Nat
  bandB : Nat
  state : ZState := .empty
  wp : Nat := 0
  roPending : Bool := false
  markA : Bool := false
  markB : Bool := false
  gen : Nat := 0
  run : List Nat := []
  deriving DecidableEq, Repr

/-- A namespace (R110-R126): with its saved tolerable latency (R105) and the first index of its map entries (R123).  The bands of a conventional namespace are held in the same form as zones. -/
structure Ns where
  nsid : Nat
  zoned : Bool
  nsze : Nat
  cls : Nat
  parity : Nat
  actMask : Nat
  kpio : Bool
  ctrls : List Nat := []
  latency : Nat := 350000
  latSaved : Nat := 350000
  mapBase : Nat := 0
  zones : List Zone := []
  mapReady : Bool := true
  mapDirty : Bool := false
  hostWrites : Nat := 0
  deriving DecidableEq, Repr

/-- A Detention entry (R131-R133). -/
structure DetEntry where
  nsid : Nat
  lba : Option Nat
  reason : Nat
  state : Nat := 0
  act : Nat
  head : Nat
  track : Nat
  time : Nat
  deriving DecidableEq, Repr

/-- A submission queue with the commands that the host has placed in it (R72, R76). -/
structure Sq where
  qid : Nat
  prio : Prio
  entries : Nat
  cmds : List (Nat × IoCmd) := []
  deriving DecidableEq, Repr

/-- A controller beside its registers (R69-R77, R91-R93): CC.EN, CSTS.RDY, CSTS.SHST, its queues, outstanding
Asynchronous Event Requests and notices not yet posted, the write cache feature, the queue pairs granted, weights and
the burst in progress, thresholds, and the round-robin marks; the width and generation the link partner offers and those the link
trained to (R71, R440). -/
structure Port where
  enabled : Bool := false
  ready : Bool := false
  shst : Nat := 0
  linkUp : Bool := false
  stalled : Bool := false
  cqs : List (Nat × Nat) := []
  sqs : List Sq := []
  aers : List Nat := []
  notices : List Nat := []
  adminUsed : Nat := 0
  vwc : Bool := true
  burst : Nat := 8
  weights : List Nat := [0, 0, 0]
  left : List Nat := [1, 1, 1]
  cur : Option (Nat × Nat) := none
  last : List Nat := [0, 0, 0, 0]
  thresholds : List (Nat × Nat) := []
  offer : Nat × Nat := (8, 6)
  width : Nat := 0
  gen : Nat := 0
  deriving DecidableEq, Repr

/-- A block in the locker journal of an HDA (R302-R306): its home, content, actuator of its home and whether it was covered. -/
structure LockerBlk where
  hda : Nat
  nsid : Nat
  lba : Nat
  blk : Blk
  act : Nat
  covered : Bool
  keys : Option (Nat × Nat) := none
  deriving DecidableEq, Repr

/-- A map update (R127): the namespace and 32 KiB unit, the HDA whose D it counts in, whether it names the buffered copy, and the
eight blocks as the map gives them after it. -/
structure MapRec where
  nsid : Nat
  unit : Nat
  hda : Nat
  buffered : Bool
  blks : List MediaBlk
  deriving DecidableEq, Repr

/-- The host side: contexts in insertion order, buffer, media tasks, namespaces and media contents. -/
structure HostState where
  ports : List (Nat × Port) := []
  ctxs : List Ctx := []
  nextId : Nat := 1
  nextTid : Nat := 1
  /-- ids in order of insertion in the range-lock table -/
  order : List Nat := []
  extents : List Extent := []
  held : List HeldDirty := []
  nextSeq : Nat := 0
  /-- map journal records not yet checkpointed, in order (R127) -/
  journal : List MapRec := []
  /-- the last map checkpoint of each namespace (R127), and the journal records that a stop wrote to locker tracks (R302) -/
  mapCk : List (Nat × List (Nat × MediaBlk)) := []
  lockerMap : List MapRec := []
  /-- parity sectors written, by namespace, zone and group (R116, R119) -/
  parity : List (Nat × List Nat) := []
  tasks : List MTask := []
  nss : List Ns := []
  media : List (Nat × MediaBlk) := []
  detention : List DetEntry := []
  detGen : Nat := 0
  /-- head positions in Detention for writing -/
  headDet : List Nat := []
  /-- reasons for which fetching is stopped: 1 activation, 2 firmware, 3 D2, 4 orderly reset, 5 Fire Drill, 6 thermal -/
  stops : List Nat := []
  curves : List (Nat × Nat) := []
  curvesSaved : List (Nat × Nat) := []
  /-- HDAs voted to HS0 because work waits for them (R85, R88) -/
  wanted : List Nat := []
  /-- HDAs whose locker journal waits for replay, and those refused under R63 -/
  replaying : List Nat := []
  refusedHda : List Nat := []
  /-- tracks beside a write that left its track (R241), as actuator, head and track -/
  homeworkDue : List (Nat × Nat × Nat) := []
  /-- bytes of transfers ended by HDA, in the running 100 ms and the nine before (R283) -/
  moved : List (Nat × List Nat) := []
  /-- the step that the retry ladder of a sector has come to (R227), by namespace + 1,024 · LBA -/
  ladder : List (Nat × Nat) := []
  /-- locker journals in seq order, the sections' hash they carry, and the anchors' epochs, by HDA (R304-R306) -/
  locker : List LockerBlk := []
  lockerHash : List (Nat × Nat) := []
  anchors : List (Nat × Nat) := []
  /-- the 2 MiB loop buffer of each port, one identity for each logical block (R419) -/
  loopBuf : List (Nat × List Nat) := []
  deriving DecidableEq, Repr

/-- A frame (R145): its header fields, its DEFLATE stream as the frame holds it, and its GCM tag. -/
structure CFrame where
  level : Nat
  gcm : Bool
  history : Bool
  origLen : Nat
  compLen : Nat
  ctxId : Nat
  chunkSeq : Nat
  crcOrig : Nat
  nonce : Nat
  histCrc : Nat
  stream : List Byte
  tag : Nat := 0
  deriving DecidableEq, Repr

/-- Compression beside its registers (R142-R156): contexts, the queue of each context in joining order, commands waiting
for an engine in lock-grant order, the command each engine holds, and the frame each command has built or read. -/
structure CompState where
  ctxs : List (Nat × StreamCtx) := []
  queues : List (Nat × List Nat) := []
  waiting : List Nat := []
  engines : List (Nat × Nat) := []
  frames : List (Nat × CFrame) := []
  deriving DecidableEq, Repr

/-- A wrapped-key slot (R164): state 0 empty, 1 valid, 2 retiring; kind 1 and 2 the halves of an XTS pair, 3 GCM; `crc` is the CRC-32 that
its image holds. -/
structure KeySlot where
  state : Nat := 0
  kind : Nat := 0
  kekSel : Nat := 0
  nsid : Nat := 0
  generation : Nat := 0
  wrapped : Nat := 0
  crc : Nat := 0
  deriving DecidableEq, Repr

/-- What a retiring slot takes once the last extent of its pair is on media (R168): a new key or nothing, and who waits for it. -/
structure Retiring where
  slot : Nat
  next : Option KeySlot
  waiter : Option (Nat × Nat)
  deriving DecidableEq, Repr

/-- A locking range (R165, R169): its namespace and LBAs, its locks, whether its KEK is in the engine, and whether it only
waits for its buffered extents; `cred` is the range's credential, by identity. -/
structure KeyRange where
  idx : Nat
  nsid : Nat
  lo : Nat
  hi : Nat
  readLock : Bool := true
  writeLock : Bool := true
  kek : Option Nat := none
  draining : Bool := false
  cred : Nat := 0
  deriving DecidableEq, Repr

/-- A GCM job (R160, R170): the command it serves, direction, key slot and its generation, nonce, 16-byte blocks processed when it
was last restored, and the GHASH accumulator then. -/
structure GcmJob where
  id : Nat
  enc : Bool
  slot : Nat
  generation : Nat
  nonce : Nat
  blocks : Nat := 0
  ghash : Nat := 0
  deriving DecidableEq, Repr

/-- Sanitize (R176): the step it stands at, overwrite passes left and done, their pattern, and whether it failed. -/
structure SanState where
  step : Nat := 0
  overwrite : Bool := false
  passes : Nat := 0
  done : Nat := 0
  pattern : Nat := 0
  oipbp : Bool := false
  failed : Bool := false
  deriving DecidableEq, Repr

/-- Cipher engine and keys beside the registers (R157-R176). -/
structure CipherState where
  slots : List (Nat × KeySlot) := []
  store : List (Nat × KeySlot) := []
  /-- unwrapped copies, least recently used first -/
  cache : List Nat := []
  dropAsk : List Nat := []
  /-- slot pair of each namespace's own media key, and its GCM slot -/
  nsPair : List (Nat × Nat) := []
  nsGcm : List (Nat × Nat) := []
  /-- tag table of Key Per I/O namespaces, by nsid · 65,536 + tag: slot pair + 1 -/
  tags : List (Nat × Nat) := []
  ranges : List KeyRange := []
  /-- locks of the global range (R169) -/
  globalRead : Bool := false
  globalWrite : Bool := false
  retiring : List Retiring := []
  jobs : List (Nat × Option GcmJob) := []
  waitJobs : List Nat := []
  /-- jobs suspended by an explicit save (R171), the clear image that the last save placed in the window, and the window registers
  that still hold it -/
  parked : List GcmJob := []
  winImage : List Byte := []
  winSaved : List Nat := []
  /-- device KEK in CPH, as Ocgoern keeps it wrapped, and context-wrapping key, by identity -/
  kek : Nat := 0
  kekNor : Nat := 0
  cwk : Nat := 0
  /-- nonce log records in append order: limit, nonce_id, CRC-32 (R162) -/
  log : List (Nat × Nat × Nat) := []
  recordDue : Option Nat := none
  san : SanState := {}
  drbgRequests : Nat := 0
  withheld : Bool := false
  deriving DecidableEq, Repr

/-- A gate command queued on a channel (R191, R192): the absolute rotational position it resolved to, its wedge and
position, the five gate actions (0 keep, 1 open, 2 close), the assist level in force, whether a customer-mode word
issued it, and the sector it belongs to. -/
structure GateCmd where
  moment : Nat
  wedge : Nat
  pos : Nat
  rg : Nat
  wg : Nat
  ag : Nat
  sg : Nat
  sw : Nat
  level : Nat
  cust : Bool
  sector : Nat
  deriving DecidableEq, Repr

/-- Where a word goes on (R186): another word, the wait of a WAIT word, or the end of the task with a cause and status. -/
inductive SeqNext where
  | word (pc : Nat)
  | wait
  | stop (cause status : Nat)
  deriving DecidableEq, Repr

/-- What a sequencer waits for (R183-R196).  `cond` is a WAIT word entered, `room` a word waiting for gate-queue or
sector-entry room, `scratch` a scratch access in progress with the word to go on at. -/
inductive SeqWait where
  | none
  | cond (refs : Nat)
  | room
  | scratch (store : Bool) (sel : Nat) (group : Nat) (half : Nat) (next : SeqNext)
  deriving DecidableEq, Repr

/-- A Voxzal sequencer beside its registers (R183-R200): return addresses (top first), what it waits for, the channels
and tracks of the open write-permit window, the assist level in force, the Timetable's yield request, the words whose
store copy fails parity (word, fields) and those repaired since, the window's write latch (R198), the stop not
yet taken by the Timetable (cause, status); and the raw frame queued at the actuator's preamplifier port (R428: read, head,
address, data). -/
structure Seq where
  stack : List Nat := []
  wait : SeqWait := .none
  permit : List (Nat × Nat) := []
  level : Nat := 0
  yieldAsk : Bool := false
  bad : List (Nat × Nat) := []
  repaired : List Nat := []
  latch : Nat := 0
  ended : Option (Nat × Nat) := none
  raw : Option (Bool × Nat × Nat × Nat) := none
  deriving DecidableEq, Repr

/-- A sector entry of a channel (R188, R218-R226): what mark search and decoding have found for it.  Symbols count from the start
of the sector's slot: `opened` is the window's opening, `lo` and `hi` bound the symbols that the read gate let in (R213), `start`
is codeword bit 0 under the framing taken (R224).  `amps` are the settled preamble amplitudes of the readers (R206), `reader` the
reader mode at the window's opening (R209), `defects` what the detector saw and `spans` the symbols it marked on each reader
(R212: reader, first symbol, symbol past the last). -/
structure SectorEntry where
  seq : Nat
  sector : Nat
  samples : Nat
  opened : Nat := 96
  lo : Nat := 0
  hi : Nat := 37568
  start : Int := 224
  amps : Nat × Nat := (0, 0)
  reader : Nat := 0
  defects : List Defect := []
  spans : List (Nat × Nat × Nat) := []
  primPos : Option Nat := none
  resyncEnded : Bool := false
  framed : Bool := false
  k : Int := 0
  poison : Bool := false
  resyncBad : Bool := false
  erased : Bool := false
  lastParity : Bool := false
  reframing : Bool := false
  dec : Bool := false
  ok : Bool := false
  status : Nat := 0
  framing : Nat := 0
  released : Bool := false
  deriving DecidableEq, Repr

/-- A buffer re-decode (R228): sequence number, variant, and whether it must restart from its beginning. -/
structure Redecode where
  seq : Nat
  variant : Nat
  restart : Bool
  deriving DecidableEq, Repr

/-- The variable gain of a channel's readers (R206). -/
inductive Gain where
  | released
  | acquiring
  | frozen
  deriving DecidableEq, Repr

/-- A media channel beside its registers (R177-R246): its gate queue, sector entries (oldest first) and held sectors,
the gates, servo validity and track of its head, write FIFO (identity, poison), the sector being written (number, identity, poison) and
the next slot, write PLL and monitor counts, heads that have written since cold start, and whether its domain runs on the media
clock.  On the read side: place and moment of the read gate's opening, gain loop (R206), whether the timing loop is in acquisition
(R204), and the taps loaded at read-gate open, reader 0 first (R207). -/
structure Chn where
  queue : List GateCmd := []
  entries : List SectorEntry := []
  held : List SectorEntry := []
  nextSeq : Nat := 0
  rg : Bool := false
  wg : Bool := false
  ag : Bool := false
  sw : Bool := false
  sgSearch : Bool := false
  servoOk : Bool := false
  track : Nat := 0
  rgPlace : Nat := 0
  rgAt : Nat := 0
  gain : Gain := .released
  acq : Bool := false
  taps : List Int := []
  periods : List Nat := []
  lastWedge : Nat := 0
  fifo : List (Nat × Bool) := []
  writing : Option (Nat × Nat × Bool) := none
  nextSlot : Option Nat := none
  pllOn : Bool := false
  pllGood : Nat := 0
  wroteHeads : List Nat := []
  monGood : Nat := 0
  monBad : Nat := 0
  flyPending : Bool := false
  flySent : Bool := false
  flyTarget : Nat := 0
  weak : List (Nat × Nat) := []
  redecode : Option Redecode := none
  mediaClock : Bool := false
  deriving DecidableEq, Repr

/-- A head's line in the head health log (R247, R248). -/
structure Health where
  state : Nat := 0
  baseLevel : Nat := 0
  curLevel : Nat := 0
  levelDrift : Int := 0
  effDrift : Int := 0
  baseEff : Nat := 0
  baseTaken : Bool := false
  onTimeUs : Nat := 0
  faults : Nat := 0
  inhibits : Nat := 0
  written : Nat := 0
  calTime : Nat := 0
  deriving DecidableEq, Repr

/-- A head a lane follows (R249-R257): missing and valid samples in a row, position, samples of the last 64 at full scale
and those in a row, the last unsaturated milliactuator command, and valid samples within write_inhibit in a row (R241). -/
structure HeadTrack where
  miss : Nat := 0
  good : Nat := 0
  y : Int := 0
  sat : List Bool := []
  satRun : Nat := 0
  lastMa : Int := 0
  within : Nat := 0
  deriving DecidableEq, Repr

/-- The profile of a seek (R260, R261): position, velocity and acceleration of the mean position, in q, q/ms and q/ms², each times
2^16. -/
structure Profile where
  pos : Int := 0
  vel : Int := 0
  acc : Int := 0
  deriving DecidableEq, Repr

/-- An actuator lane of a pair beside its registers (R249-R262): its two heads, targets applied by go, samples
lost, samples within ontrack_pct, the head a split follows with the
tracks it began on, feedforward offsets by pair and recording zone, commands in force, samples counted by head, the profile of a
seek and the targets of a go that a seek takes up at its next sample. -/
structure Lane where
  a : HeadTrack := {}
  b : HeadTrack := {}
  tgtA : Int := 0
  tgtB : Int := 0
  lostFor : Nat := 0
  onCount : Nat := 0
  splitHead : Option Nat := none
  splitTracks : Nat × Nat := (0, 0)
  ff : List (Nat × Int × Int) := []
  vcm : Int := 0
  maA : Int := 0
  maB : Int := 0
  sentVcm : Int := 0
  sentA : Int := 0
  sentB : Int := 0
  samples : List (Nat × Nat) := []
  bemfLaw : Bool := false
  prof : Profile := {}
  next : Option (Int × Int) := none
  deriving DecidableEq, Repr

/-- A unit of a pair (R265-R271): overruns among the last 64 samples of each lane (newest first), its clock, an
uncorrectable error in its law store, the samples left to record after a trace trigger, the trigger node's sticky flag at
the last sample and a role switch since. -/
structure SscUnit where
  ovr0 : List Bool := []
  ovr1 : List Bool := []
  ovr2 : List Bool := []
  clkOk : Bool := true
  lawErr : Bool := false
  post : Option Nat := none
  satPrev : Bool := false
  switched : Bool := false
  deriving DecidableEq, Repr

/-- A servo-spindle pair beside its registers (R249-R273, R289-R292): lanes, units, the lanes whose next output is held,
mismatching samples in a row, whether the next comparison is left out, samples of the resynchronisation window, samples since the
last role event without an active overrun, whether the standby was unclean in them, samples of a deferred exchange,
actuators under an emergency retract, nodes, PSL frame counter and failures in a row by direction. -/
structure Servo where
  l0 : Lane := {}
  l1 : Lane := {}
  uA : SscUnit := {}
  uB : SscUnit := {}
  hold : List Nat := []
  mismatch : Nat := 0
  skipCmp : Bool := false
  window : Nat := 0
  clean : Nat := 0
  dirty : Bool := false
  deferFor : Nat := 0
  retracted : Nat := 0
  nodes : List (Nat × Int) := []
  seqNo : Nat := 0
  dlRun : Nat := 0
  ulRun : Nat := 0
  deriving DecidableEq, Repr

/-- The spindle drive of an HDA beside its registers (R277-R292): rotor lost and not caught, agreeing crossings while
catching, bad searched windows in a row, steps in a row in which the speed disagrees with the servo, last locked speed,
ramp set-point (10^-12 rpm) and rate (10^-6 rpm/s), a start that waits for crossings, spin-up in progress, curve speed,
commutation step, brake chopper asserted and its resistance measured, start pending after a stop, power share held (W), ticks
since a start. -/
structure Spin where
  lost : Bool := false
  agree : Nat := 0
  bad : Nat := 0
  off : Nat := 0
  n0 : Nat := 0
  setp : Int := 0
  rate : Int := 0
  starting : Bool := false
  spinup : Bool := false
  cN : Nat := 0
  step : Nat := 0
  chop : Bool := false
  chopMa : Nat := 0
  again : Bool := false
  share : Nat := 0
  unloading : Bool := false
  replayed : Bool := false
  upTicks : Nat := 0
  deriving DecidableEq, Repr

/-- A frame that waits to leave a port, and the port it arrived at (none: it starts here). -/
structure TxFrame where
  f : Frame
  arrival : Option Nat
  deriving DecidableEq, Repr

/-- A frame in the retry buffer: where it arrived (none: it started here), how often it was sent (R315), and whether its trailer is
stomped (R313). -/
structure Sent where
  f : Frame
  arrival : Option Nat
  sends : Nat := 1
  stomp : Bool := false
  deriving DecidableEq, Repr

/-- A Lomey port beside its registers (R308-R324, R334): frames waiting, frames sent and unacknowledged (oldest first), the
sequence numbers still to be replayed, the sequence expected, whether a NAK is outstanding, frames since the last
acknowledgement, flits freed by class since the link came up and those not yet told, the neighbour's count of the same, frames
sent under the session key and that key's generation, the neighbour's width and encryption, and whether the port must stay UP
100 ms before it returns to routing. -/
structure LPort where
  txq : List TxFrame := []
  retry : List Sent := []
  resend : List Nat := []
  expect : Nat := 0
  nakAsked : Bool := false
  unacked : Nat := 0
  freed : List (Nat × Nat) := []
  told : Nat := 0
  seen : List (Nat × Nat) := []
  keyFrames : Nat := 0
  peerWidth : Nat := 0
  peerEncrypt : Bool := false
  restoring : Bool := false
  keyGen : Nat := 0
  deriving DecidableEq, Repr

/-- A transaction at the root (R325-R328): tag, its context, node address, path of the last CMD, attempt, CMDs sent,
whether acknowledged, write class, offsets of verified read bytes, and the CPL waiting for missing bytes. -/
structure RootTx where
  tag : Nat
  id : Nat
  addr : Nat
  path : Bool
  attempt : Nat
  sent : Nat
  acked : Bool
  wclass : Bool
  cmd : Frame
  got : List (Nat × List Nat) := []
  cpl : Option Frame := none
  busy : Bool := false
  deriving DecidableEq, Repr

/-- A dedupe entry (R327): its key, port of arrival, context, last path and attempt, the budget of its answers, bytes
received by offset, XRDYs sent, bytes asked for, bytes returned, and the stored CPL once DONE. -/
structure Dedupe where
  src : Nat
  tag : Nat
  active : Bool
  port : Nat
  id : Nat
  path : Bool
  attempt : Nat
  rbudget : Nat
  wclass : Bool
  got : List (Nat × List Nat) := []
  xrdy : Nat := 0
  want : Nat := 0
  bytes : Nat := 0
  cpl : Option Frame := none
  cmd : Frame
  deriving DecidableEq, Repr

/-- A node of log page 0xC1 (R333); entry 0 is this device. -/
structure ChainNode where
  addr : Nat
  reach : Bool
  prim : Nat
  alt : Option Nat
  root : Bool
  encPath : Bool
  hops : Nat
  altHops : Nat
  nss : Nat
  devId : Nat
  deriving DecidableEq, Repr

/-- A link of the chain as the survey found it: two node addresses with the port of each, and whether it is in routing. -/
structure ChainLink where
  a : Nat
  pa : Nat
  b : Nat
  pb : Nat
  up : Bool := true
  deriving DecidableEq, Repr

/-- What a node reported of itself. -/
structure NodeReport where
  devId : Nat
  addr : Nat
  ports : List Nat
  root : Bool
  arrival : Nat
  fixed : Bool
  nss : Nat
  deriving DecidableEq, Repr

/-- The chain side beside its registers (R321-R334): ports, transactions, dedupe table, topology and Roll Call. -/
structure ChainState where
  ports : List (Nat × LPort) := []
  nextTag : Nat := 0
  root : List RootTx := []
  dedupe : List Dedupe := []
  nodes : List ChainNode := []
  topoGen : Nat := 0
  devId : Nat := 0
  gen : Nat := 0
  /-- announcements heard (device ID, generation), and what notices told of ports, by address · 4 + port: 1 down, 2 up -/
  heard : List (Nat × Nat) := []
  /-- announcements relayed since the start, each once, and the nodes new in the running survey, by device ID -/
  announced : List (Nat × Nat) := []
  fresh : List Nat := []
  told : List (Nat × Nat) := []
  /-- exits still to be probed (frontier address, port), the one first in line being on its way -/
  survey : List (Nat × Nat) := []
  /-- who asked for the probes this node relayed, by exit port -/
  relayed : List (Nat × Nat) := []
  /-- the port of the last report this node passed on -/
  lastReport : Option Nat := none
  links : List ChainLink := []
  /-- NAKs of frames that this device sent and dropped itself -/
  selfNaks : List Frame := []
  nextAddr : Nat := 2
  rcFail : Bool := false
  deriving DecidableEq, Repr

/-- The watch entry of an SRAM macro (R346). -/
structure Watch where
  byte : Nat
  written : Bool
  deriving DecidableEq, Repr

/-- On-chip and buffer memory beside its registers (R335-R351): watch entries by macro, the remap table of each macro
as (row, spare) pairs in append order, the remap area in NOR as 8-byte records, the locations that hold a poison
marker and those that hold an injected error (macro, address, kind), the running remap, the macro under test (R420), and whether SRAM and DRAM are
usable (R350). -/
structure EccState where
  watch : List (Nat × Option Watch) := []
  remap : List (Nat × List (Nat × Nat)) := []
  norRemap : List (List Byte) := []
  marks : List (Nat × Nat) := []
  planted : List (Nat × Nat × Nat) := []
  job : Option (Nat × Nat) := none
  bist : Option Nat := none
  sramUsable : Bool := false
  dramUsable : Bool := false
  deriving DecidableEq, Repr

/-- Power control beside its registers (R352-R366, R439): last operational power state, streams cut by the power check and
100 ms periods below 90 %, the deepest state whose idle time has run out by HDA, HDAs waiting for a spin-up share in order,
accesses stalled on a retained domain (requester, address, access), HDAs in their second load, and the supply target of each
region's island in mV (R34). -/
structure PowerState where
  lastPs : Nat := 0
  cut : Nat := 0
  belowFor : Nat := 0
  idle : List (Nat × Nat) := []
  shareWait : List Nat := []
  stalled : List (Requester × Nat × Access) := []
  reload : List Nat := []
  regionMv : List (Nat × Nat) := []
  deriving DecidableEq, Repr

/-- A measured setting without a register of its own (R203, R380, R382): the values in force, those the last run asks for, and
whether they are taken together (a combination of elements, REDUNDANT) or one step at a time (TAP). -/
structure Trim where
  now : List Int := []
  goal : List Int := []
  whole : Bool := false
  deriving DecidableEq, Repr

/-- The thermal sequencer and calibration beside their registers (R368-R383), in 1/16 degree and 10 ms samples: raw samples of each
sensor and the temperatures of each region (newest first), samples in a row at the limits, samples of step-up lockout left,
samples without a step-up condition, samples of deviation by sensor, samples and entries at throttle steps 1 and 3, controllers
whose threshold is crossed, whether a restart is asked for, bands of heads, heads due for calibration; and by object
(kind · 16 + instance, or 4,096 + head position) the temperature of its last run and the bands it was calibrated in, with the
values of a head by position · 8 + band and the settings of kinds 1 to 5 by object. -/
structure ThermState where
  raw : List (Nat × List Int) := []
  hist : List (Nat × List Int) := []
  hot105 : Nat := 0
  hotFix : Nat := 0
  lockout : Nat := 0
  quiet : Nat := 0
  dev : List (Nat × Nat) := []
  restarting : Bool := false
  secs1 : Nat := 0
  secs3 : Nat := 0
  entries1 : Nat := 0
  entries3 : Nat := 0
  warn : List Nat := []
  headBand : List (Nat × Nat) := []
  headsDue : List Nat := []
  calAt : List (Nat × Option Int) := []
  calBands : List (Nat × Nat) := []
  calVals : List (Nat × List Nat) := []
  trims : List (Nat × Trim) := []
  /-- settings kept for each object of kinds 1 to 5 and each band (R379), by (16 · kind + instance) · 8 + band -/
  trimVals : List (Nat × List Int) := []
  deriving DecidableEq, Repr

/-- The resets in progress (R94, R300, R376, R417): stage of an orderly reset, whether by the thermal sequencer; HDAs still
flushing and unloading in Fire Drill; data lost to be counted at the next start (covered, uncovered, in 4 KiB units); wipes
running; held for a lost clock; held until cool; a post-mortem reset by its origin (0 firmware, 1 watchdog); and the
Report Card counters of stops to be added at the next start (R407); and the clocks whose lock is lost (R30). -/
structure ResetState where
  stage : Nat := 0
  thermal : Bool := false
  flushing : List Nat := []
  lostCovered : Nat := 0
  lostUncovered : Nat := 0
  wipeSram : Bool := false
  wipeDram : Bool := false
  held : Bool := false
  waitCool : Bool := false
  pm : Option Nat := none
  stops : List Nat := []
  lost : List ClockId := []
  deriving DecidableEq, Repr

/-- A set of Report Card accumulators (R407-R410): the epoch and the power-on second its interval began at, every counter and
bin by index (CardOps), every extreme as value and second of its first occurrence, and the flags of its record. -/
structure Acc where
  epoch : Nat := 0
  start : Nat := 0
  vals : List (Nat × Nat) := []
  ext : List (Nat × Option (Int × Nat)) := []
  late : Bool := false
  lost : Bool := false
  sat : Bool := false
  deriving DecidableEq, Repr

/-- A sealed dump as its header gives it (R415): recipient, origin, sequence, cause, second, build versions, life-cycle state,
level and payload_len; and what lies from byte 0x40 on (keys, IV, ciphertext, tag, signature), by identity. -/
structure Dump where
  recipient : Nat
  origin : Nat
  seq : Nat
  cause : Nat
  second : Nat
  fwBuild : Nat
  bsBuild : Nat
  lcState : Nat
  level : Nat
  payloadLen : Nat
  sealedPart : Nat
  deriving DecidableEq, Repr

/-- The Report Card beside its registers (R405-R418): the accumulators in use, the set that takes events during a freeze, whether a
checkpoint is due, the slots by area · 4,096 + slot, the next checkpoint slot, highest readings of the minute by sensor with
the samples taken of it, the dump kept, the owner dump key, whether the notice of the dump has
been posted, dumps written, the DRAM correctable errors at the last hour, the second of the freeze, whether the epoch
ended during it, and whether the last stop wrote a checkpoint. -/
structure CardState where
  cur : Acc := {}
  frz : Acc := {}
  ckDue : Bool := false
  slots : List (Nat × List Byte) := []
  ckNext : Nat := 0
  minute : List (Nat × Int) := []
  minuteTicks : Nat := 0
  dump : Option Dump := none
  dumpKey : Option (List Byte) := none
  told : Bool := true
  seq : Nat := 0
  ceMark : Nat := 0
  frozenAt : Nat := 0
  endedFrozen : Bool := false
  stopWrote : Bool := false
  deriving DecidableEq, Repr

/-- The OTP fields (R384): bits change only from 0 to 1, so a field once programmed keeps its value; keys and hashes as
numbers, 0 for an unprogrammed field. -/
structure Otp where
  lcCount : Nat := 0
  deviceId : Nat := 0
  keyHash : List (Nat × Nat) := []
  rootSecret : Nat := 0
  bek0 : Nat := 0
  bek1 : Nat := 0
  nonceId : Nat := 0
  dumpHash : Nat := 0
  arbBs : Nat := 0
  arbFw : Nat := 0
  ceilEv : Nat := 0
  ceilOwn : Nat := 0
  kill : Bool := false
  deriving DecidableEq, Repr

/-- The slip record of a debug grant (R395). -/
structure SlipRec where
  level : Nat
  cycles : Nat
  signer : Nat
  flags : Nat
  deriving DecidableEq, Repr

/-- A life-cycle transition accepted and not yet ended (R390, R391): slip kind, the owner record of
kind 5, and whether steps 1-3 of R176 still run. -/
structure LcWork where
  kind : Nat
  owner : List Byte := []
  erasing : Bool := true
  deriving DecidableEq, Repr

/-- A D2 grant in MISSION under way (R397): who waits for its completion. -/
structure D2Work where
  waiter : Option (Nat × Nat)
  deriving DecidableEq, Repr

/-- An SPDM endpoint (R402): how far negotiation went (1 version, 2 capabilities, 3 algorithms), its session and whether
FINISH completed it. -/
structure SpdmEnd where
  stage : Nat := 0
  session : Option Nat := none
  open_ : Bool := false
  deriving DecidableEq, Repr

/-- A TCG session of a controller (R404): whether one is open, and the authorities authenticated in it. -/
structure TcgSess where
  isOpen : Bool := false
  auths : List Nat := []
  deriving DecidableEq, Repr

/-- Ocgoern beside its registers (R384-R404). -/
structure SecState where
  otp : Otp := {}
  slip : Option SlipRec := none
  work : Option LcWork := none
  d2 : Option D2Work := none
  /-- the condition of R397, kept until the next cold start (R398) -/
  d2Held : Bool := false
  fault : Bool := false
  spdm : List (Nat × SpdmEnd) := []
  tcg : List (Nat × TcgSess) := []
  /-- measurement 5, as last computed when a cust_en was set (R402) -/
  custHash : Option Nat := none
  deriving DecidableEq, Repr

/-- Firmware slots in NOR, the slot made active, the pieces downloaded, the slot that runs (2: ROM recovery firmware), its
build version, and an activation under R95: who waits for it and the slot. -/
structure FwState where
  slots : List (Nat × List Byte) := []
  active : Nat := 0
  staging : List (Nat × List Byte) := []
  run : Nat := 2
  build : Nat := 0
  sw : Option (Nat × Nat × Nat) := none
  deriving DecidableEq, Repr

/-- An entry of the map cache (R134-R139): its page, whether it is dirty or holds poison, and, while its fill is in flight, the
commands that wait for it. -/
structure MapEntry where
  page : Nat
  dirty : Bool := false
  poison : Bool := false
  filling : Option (List Nat) := none
  deriving DecidableEq, Repr

/-- The map cache beside its registers: valid and filling entries by index, side buffer (oldest first), pages of the DRAM map
that hold poison, group transitions in progress (group, to: 0 normal, 1 down, 2 scratch), and the maintenance
operation waiting for a fill. -/
structure MapState where
  entries : List (Nat × Option MapEntry) := []
  side : List Nat := []
  poisoned : List Nat := []
  moving : List (Nat × Nat) := []
  waiting : Option (Nat × Nat) := none
  deriving DecidableEq, Repr

/-- Everything but the queue and the addressed memory.  `regs` holds every register field that differs from its reset
value, by field number, block instance and entry (`Dev.rd`); the lists by instance are sparse tables (`tabGet`) whose
unlisted entries are at their reset values. -/
structure Dev where
  regs : List (Nat × Nat) := []
  out : List Emit := []
  /-- The model's own counter of free values drawn (assumption log 2). -/
  draws : Nat := 0
  xb : XbState := {}
  ecc : EccState := {}
  struct : StructState := {}
  seqs : List (Nat × Seq) := []
  chns : List (Nat × Chn) := []
  health : List (Nat × Health) := []
  healthGen : Nat := 0
  host : HostState := {}
  chain : ChainState := {}
  cipher : CipherState := {}
  comp : CompState := {}
  servos : List (Nat × Servo) := []
  spins : List (Nat × Spin) := []
  power : PowerState := {}
  therm : ThermState := {}
  reset : ResetState := {}
  card : CardState := {}
  sec : SecState := {}
  fw : FwState := {}
  map : MapState := {}
  deriving DecidableEq, Repr

/-- The machine: the device, its addressed memory windows (control stores R198, scratch windows R140, SSC trace windows
R265) as bytes by control-plane address, and the commands that wait, first in first out. -/
structure State where
  dev : Dev := {}
  mem : List Host.Cell := []
  pending : List Instr := []
  deriving DecidableEq, Repr

/-- The block's commands reach no fault: whatever the spec calls an error ends in an error response, a completion
status or a register bit.  The type is empty. -/
inductive Fault where
  deriving DecidableEq, Repr

/-- Why a command has no meaning. -/
inductive Refusal where
  /-- Raised by a dispatch arm of a command that has no meaning yet; safe: nothing is claimed of it. -/
  | notModelled (mnemonic : String)
  deriving DecidableEq, Repr

/-- The machine at the moment reset is released, before COLD_START: every register at its Reset column (a "bs" field at
0, assumption log 4), every list of waiting work empty, memory windows with nothing listed. -/
def State.reset : State := {}

end Sys2Proof.Machine
end

