-- ==== Sys2Proof/Machine/Tab.lean ====
section
/-! DEFINITION. Sparse tables: a list of (key, value) pairs in one canonical form, keys strictly rising and no entry
equal to what an unlisted key reads as.  Registers, memory, per-object records and media contents are held so. -/
namespace Sys2Proof.Machine

/-- What a table reads as at a key; an unlisted key reads as `dflt`. -/
def tabGet {α : Type} (dflt : α) : List (Nat × α) → Nat → α
  | [], _ => dflt
  | (k, v) :: t, q => if k = q then v else tabGet dflt t q

/-- The table without a key. -/
def tabErase {α : Type} : List (Nat × α) → Nat → List (Nat × α)
  | [], _ => []
  | (k, v) :: t, q => if k = q then tabErase t q else (k, v) :: tabErase t q

/-- Insertion in key order, before the first greater key. -/
def tabInsert {α : Type} : List (Nat × α) → Nat → α → List (Nat × α)
  | [], q, x => [(q, x)]
  | (k, v) :: t, q, x => if q < k then (q, x) :: (k, v) :: t else (k, v) :: tabInsert t q x

/-- A write: the key's entry is replaced, and removed where the value is what an unlisted key reads as. -/
def tabPut {α : Type} [DecidableEq α] (dflt : α) (t : List (Nat × α)) (q : Nat) (x : α) : List (Nat × α) :=
  if x = dflt then tabErase t q else tabInsert (tabErase t q) q x

/-- Every key of the table is above `b`, they rise, and no entry is redundant. -/
def tabRises {α : Type} [DecidableEq α] (dflt : Nat → α) : Option Nat → List (Nat × α) → Bool
  | _, [] => true
  | b, (k, v) :: t =>
    (match b with
      | none => true
      | some p => decide (p < k)) && decide (v ≠ dflt k) && tabRises dflt (some k) t

/-- The canonical form. -/
def tabWf {α : Type} [DecidableEq α] (dflt : Nat → α) (t : List (Nat × α)) : Bool := tabRises dflt none t

/-- Replacement of the first element that satisfies a test. -/
def listUpdate {α : Type} (p : α → Bool) (f : α → α) : List α → List α
  | [] => []
  | x :: t => if p x then f x :: t else x :: listUpdate p f t

/-- Removal of the first element that satisfies a test. -/
def listDrop {α : Type} (p : α → Bool) : List α → List α
  | [] => []
  | x :: t => if p x then t else x :: listDrop p t

/-- Replacement of every element that satisfies a test. -/
def listMapIf {α : Type} (p : α → Bool) (f : α → α) (l : List α) : List α :=
  l.map (fun x => if p x then f x else x)

/-- Repetition of a state change over a list, in order. -/
def forEach {α σ : Type} (l : List α) (s : σ) (f : σ → α → σ) : σ := l.foldl f s

end Sys2Proof.Machine
end

