-- ==== Sys2Proof/Machine/Ops.lean ====
section
/-! DEFINITION. The named operations every family uses: reading and setting register fields, drawing a free value,
sending something out, and the records by instance. -/
namespace Sys2Proof.Machine

open Host (Outcome)

/-- A command's effect on the device alone: memory windows and the queue stay as they are. -/
def lift (s : State) (g : Dev → Dev) : Outcome State Fault Refusal := .next { s with dev := g s.dev }

/-- A command's effect on the device and on the memory windows. -/
def liftMem (s : State) (g : Dev → List Host.Cell → Dev × List Host.Cell) : Outcome State Fault Refusal :=
  .next { s with dev := (g s.dev s.mem).1, mem := (g s.dev s.mem).2 }

/-- The table key of a field: its number, the block instance and the entry (register index · sub-fields + sub-field). -/
def fldKey (f : Fld) (i j : Nat) : Nat := (f.id * 64 + i % 64) * 1024 + j % 1024

/-- Reset values that depend on the entry: equaliser tap 8 is the main tap (CHN_EQ_h, CHN_EQ_ALT_j), SSC_TRACE_SEL_k
selects nodes 8k + m, and THM_SENS_i names its region (R368). [DESIGN CHOICE: assumption log 4] -/
def fldReset (f : Fld) (j : Nat) : Nat :=
  if f.id = F.chnEq_tap.id ∨ f.id = F.chnEqAlt_tap.id then (if j % 1024 % 24 = 8 then 0x40 else 0)
  else if f.id = F.sscTraceSel_node.id then j % 1024
  else if f.id = F.thmSens_region.id then (if j % 1024 < 12 then 0 else (j % 1024 - 12) / 4 + 1)
  else f.reset

/-- What a register field reads (R8, R9): its last value, or its reset value. -/
def Dev.rd (d : Dev) (f : Fld) (i : Nat := 0) (j : Nat := 0) : Nat :=
  tabGet (fldReset f j) d.regs (fldKey f i j)

/-- A field set to a value, cut to the field's width. -/
def Dev.wr (d : Dev) (f : Fld) (v : Nat) (i : Nat := 0) (j : Nat := 0) : Dev :=
  { d with regs := tabPut (fldReset f j) d.regs (fldKey f i j) (v % 2 ^ f.w) }

/-- A one-bit field as a truth value. -/
def Dev.flag (d : Dev) (f : Fld) (i : Nat := 0) (j : Nat := 0) : Bool := d.rd f i j != 0

/-- A one-bit field set from a truth value. -/
def Dev.setFlag (d : Dev) (f : Fld) (b : Bool) (i : Nat := 0) (j : Nat := 0) : Dev := d.wr f b.toNat i j

/-- A field counted up, wrapping at its width. -/
def Dev.addWrap (d : Dev) (f : Fld) (n : Nat) (i : Nat := 0) (j : Nat := 0) : Dev := d.wr f (d.rd f i j + n) i j

/-- A field counted up, saturating at its width. -/
def Dev.addSat (d : Dev) (f : Fld) (n : Nat) (i : Nat := 0) (j : Nat := 0) : Dev :=
  d.wr f (satTo f.w (d.rd f i j + n)) i j

/-- A field counted down to no less than 0. -/
def Dev.sub (d : Dev) (f : Fld) (n : Nat) (i : Nat := 0) (j : Nat := 0) : Dev := d.wr f (d.rd f i j - n) i j

/-- Bit `b` of a field. -/
def Dev.bit (d : Dev) (f : Fld) (b : Nat) (i : Nat := 0) (j : Nat := 0) : Bool := (d.rd f i j).testBit b

/-- Bit `b` of a field set or cleared. -/
def Dev.setBit (d : Dev) (f : Fld) (b : Nat) (v : Bool) (i : Nat := 0) (j : Nat := 0) : Dev :=
  d.wr f (if v then d.rd f i j ||| 2 ^ b else d.rd f i j - (if (d.rd f i j).testBit b then 2 ^ b else 0)) i j

/-- A signed field. -/
def Dev.rdInt (d : Dev) (f : Fld) (i : Nat := 0) (j : Nat := 0) : Int := ofTwos f.w (d.rd f i j)

/-- A signed field set, in two's complement. -/
def Dev.wrInt (d : Dev) (f : Fld) (v : Int) (i : Nat := 0) (j : Nat := 0) : Dev := d.wr f (toTwos f.w v) i j

/-- Something sent out. -/
def Dev.emit (d : Dev) (e : Emit) : Dev := { d with out := e :: d.out }

/-- A free value drawn (assumption log 2): the value, and the device with its counter advanced. -/
def Dev.draw (d : Dev) : Nat × Dev := (Config.freeValue d.draws, { d with draws := d.draws + 1 })

/-- A state change made only where a condition holds. -/
def Dev.when (d : Dev) (c : Bool) (g : Dev → Dev) : Dev := if c then g d else d

/-- The sequencer of an actuator. -/
def Dev.seq (d : Dev) (a : Nat) : Seq := tabGet {} d.seqs a

def Dev.updSeq (d : Dev) (a : Nat) (g : Seq → Seq) : Dev := { d with seqs := tabPut {} d.seqs a (g (d.seq a)) }

/-- A media channel. -/
def Dev.chn (d : Dev) (c : Nat) : Chn := tabGet {} d.chns c

def Dev.updChn (d : Dev) (c : Nat) (g : Chn → Chn) : Dev := { d with chns := tabPut {} d.chns c (g (d.chn c)) }

/-- The health line of head position `actuator * 12 + head` (R248). -/
def Dev.headHealth (d : Dev) (e : Nat) : Health := tabGet {} d.health e

/-- A change of a health line; the log's generation is incremented at every change (R248). -/
def Dev.updHealth (d : Dev) (e : Nat) (g : Health → Health) : Dev :=
  { d with health := tabPut {} d.health e (g (d.headHealth e)), healthGen := d.healthGen + 1 }

/-- Little-endian number of `n` bytes at offset `off` of a byte string (R6). -/
def leBytes (b : List Byte) (off n : Nat) : Nat :=
  ((b.drop off).take n).foldr (fun x acc => x.toNat + 256 * acc) 0

/-- The `n` low bytes of a number, lowest first. -/
def toBytes (v : Nat) : Nat → List Byte
  | 0 => []
  | n + 1 => BitVec.ofNat 8 v :: toBytes (v / 256) n

/-- Bytes with bits in error: bit k of a byte string is bit k mod 8 of byte k div 8. -/
def flipBits (errs : List Nat) (b : List Byte) : List Byte :=
  b.zipIdx.map fun x => errs.foldl (fun v k => if k / 8 = x.2 then v ^^^ BitVec.ofNat 8 (2 ^ (k % 8)) else v) x.1

/-- A section of the loaded structure (R40). -/
def Dev.section (d : Dev) (ty inst : Nat) : Option (List Byte) :=
  (d.struct.sections.find? (fun x => x.ty == ty && x.inst == inst)).map (·.data)

/-- A field of a section, 0 where the section is absent. -/
def Dev.secField (d : Dev) (ty inst off n : Nat) : Nat :=
  match d.section ty inst with
  | some b => leBytes b off n
  | none => 0

/-- HDA n is present (R1, R43). -/
def Dev.hdaPresent (d : Dev) (n : Nat) : Bool := d.secField 3 n 0 1 == 1

/-- How the outputs of slot n stand (R1, R425): inactive before a structure is loaded, high-impedance for an undeclared slot. -/
def Dev.slotDrive (d : Dev) (n : Nat) : SlotDrive :=
  if d.struct.sections.isEmpty then .inactive else if d.hdaPresent n then .driven else .highZ

/-- Inputs of a slot that is not declared, or not yet, are ignored (R425). -/
def Dev.onSlot (d : Dev) (n : Nat) (g : Dev → Dev) : Dev := d.when (d.slotDrive n == .driven) g

/-- An output of a slot, driven only for a declared HDA (R1). -/
def Dev.emitSlot (d : Dev) (n : Nat) (e : Emit) : Dev := d.onSlot n fun d => d.emit e

/-- Actuator a is present (R46): its HDA is, and has that actuator. -/
def Dev.actPresent (d : Dev) (a : Nat) : Bool := d.hdaPresent (a / 2) && decide (a % 2 < d.secField 3 (a / 2) 2 1)

/-- Heads per actuator of an HDA (R46). -/
def Dev.hdaHeads (d : Dev) (n : Nat) : Nat := d.secField 3 n 3 1

/-- The HDA's preamplifier supports two active heads (R46). -/
def Dev.hdaTwin (d : Dev) (n : Nat) : Bool := d.secField 3 n 4 1 == 1

/-- Assist type of an HDA: 1 laser, 2 spin-torque oscillator (R46). -/
def Dev.hdaAssist (d : Dev) (n : Nat) : Nat := d.secField 3 n 1 1

end Sys2Proof.Machine
end

