-- ==== Sys2Proof/Machine/CardOps.lean ====
section
/-! DEFINITION. What the Report Card counts as events happen (R407-R410, R413): lifetime and epoch counters, histogram bins and
extremes of the accumulators in use. -/
namespace Sys2Proof.Machine

def Dev.updCard (d : Dev) (g : CardState → CardState) : Dev := { d with card := g d.card }

/-- Index of a value in an accumulator set: lifetime counters 0-31, epoch counters from 64, then the histograms of R410. -/
def ckEpoch : Nat := 64
def ckTemp : Nat := 1024
def ckAssist : Nat := 2048
def ckSeek : Nat := 2560
def ckLoads : Nat := 2688
def ckSpin : Nat := 2752
def ckErr : Nat := 2816

/-- The width of a value: lifetime 64, temperature, loads and spin-up bins 16, others 32 bits. -/
def ckWidth (k : Nat) : Nat :=
  if k < 64 then 64
  else if (1024 ≤ k ∧ k < 2048) ∨ (2688 ≤ k ∧ k < 2816) then 16
  else 32

/-- A value counted up; it saturates, and a saturated epoch counter sets flags bit 2. -/
def Acc.add (a : Acc) (k n : Nat) : Acc :=
  let v := tabGet 0 a.vals k + n
  { a with vals := tabPut 0 a.vals k (satTo (ckWidth k) v), sat := a.sat || decide (64 ≤ k ∧ k < 128 ∧ 2 ^ 32 ≤ v) }

/-- The set that takes events now: during a freeze the third one (R413). -/
def Dev.updAcc (d : Dev) (g : Acc → Acc) : Dev :=
  d.updCard fun c => if d.flag F.evrCtl_frozen then { c with frz := g c.frz } else { c with cur := g c.cur }

/-- Lifetime counter i and epoch counter i (R409, i ≤ 25). -/
def cardCount (d : Dev) (i n : Nat) : Dev := if n = 0 then d else d.updAcc fun a => (a.add i n).add (ckEpoch + i) n

/-- An epoch counter that has no lifetime counterpart (32-45). -/
def cardEpoch (d : Dev) (i n : Nat) : Dev := d.updAcc fun a => a.add (ckEpoch + i) n

/-- A histogram bin. -/
def cardBin (d : Dev) (k n : Nat) : Dev := d.updAcc fun a => a.add k n

/-- An extreme meets a value (R410): extreme 4 keeps the lowest, the others the highest, at its first occurrence; in extremes 3
and 7 the top byte names the place and takes no part. -/
def Acc.meet (a : Acc) (i : Nat) (v : Int) (sec : Nat) : Acc :=
  let part (x : Int) : Int := if i = 3 ∨ i = 7 then x % 2 ^ 56 else x
  match tabGet none a.ext i with
  | none => { a with ext := tabPut none a.ext i (some (v, sec)) }
  | some (w, _) => if (if i = 4 then v < w else part w < part v) then { a with ext := tabPut none a.ext i (some (v, sec)) } else a

def cardExtreme (d : Dev) (i : Nat) (v : Int) : Dev := d.updAcc fun a => a.meet i v (d.rd F.evrPos_seconds)

end Sys2Proof.Machine
end

