-- ==== Sys2Proof/Machine/Geometry.lean ====
section
/-! DEFINITION. What the loaded structure fixes for namespaces and media: formats, classes, band layout, zones and their
parity groups (R46-R58, R110-R118, R449). -/
namespace Sys2Proof.Machine

/-- FORMAT of an HDA (R48). -/
def fmtWedges (d : Dev) (n : Nat) : Nat := d.secField 5 n 0 2
def fmtParity (d : Dev) (n : Nat) : Nat := d.secField 5 n 5 1
def fmtBandMib (d : Dev) (n : Nat) : Nat := d.secField 5 n 6 2
def fmtLockerFirst (d : Dev) (n : Nat) : Nat := d.secField 5 n 8 4
def fmtLockerCount (d : Dev) (n : Nat) : Nat := d.secField 5 n 12 4
def fmtZones (d : Dev) (n : Nat) : Nat := d.secField 5 n 16 2
def fmtZoneFirst (d : Dev) (n i : Nat) : Nat := d.secField 5 n (32 + 16 * i) 4
def fmtZoneLast (d : Dev) (n i : Nat) : Nat := d.secField 5 n (36 + 16 * i) 4
def fmtZoneSpt (d : Dev) (n i : Nat) : Nat := d.secField 5 n (40 + 16 * i) 2
def fmtZoneKind (d : Dev) (n i : Nat) : Nat := d.secField 5 n (42 + 16 * i) 1

/-- POWER (R56). -/
def pwHsExit (d : Dev) (s : Nat) : Nat := if s = 0 then 0 else d.secField 13 0 (4 + 4 * (s - 1)) 4
def pwSpinupW (d : Dev) : Nat := d.secField 13 0 0x16 1
def pwMargin (d : Dev) : Nat := d.secField 13 0 0x17 1
def pwCapMib (d : Dev) : Nat := d.secField 13 0 0x18 4
def pwLoadW (d : Dev) : Nat := d.secField 13 0 0x1C 2
def pwRetractMj (d : Dev) : Nat := d.secField 13 0 0x1E 2

/-- Host ports and their mode (R45). -/
def hostUsed (d : Dev) (h : Nat) : Bool := d.secField 2 0 (8 * h) 1 == 1
def usedPorts (d : Dev) : List Nat := (List.range 2).filter (hostUsed d)
/-- The namespace mode of the device (R45, R69). -/
def nsMode (d : Dev) : Nat := match usedPorts d with
  | [] => 0
  | h :: _ => d.secField 2 0 (8 * h + 3) 1
def lmlUsed (d : Dev) (p : Nat) : Bool := d.secField 2 0 (0x10 + 8 * p) 1 == 1

/-- The PIPE record of a class as (stages, level, parity) (R50); without PIPE class 0 has XTS and nothing else (R42). -/
def pipeOf (d : Dev) (cls : Nat) : Option (Nat × Nat × Nat) :=
  match d.section 6 0 with
  | none => if cls = 0 then some (2, 0, 0) else none
  | some b =>
    ((List.range (leBytes b 0 1)).find? fun i => leBytes b (8 + 8 * i) 1 == cls).map fun i =>
      (leBytes b (9 + 8 * i) 1, leBytes b (10 + 8 * i) 1, leBytes b (11 + 8 * i) 1)

def classCompress (d : Dev) (cls : Nat) : Bool := match pipeOf d cls with
  | some (st, _, _) => st.testBit 0
  | none => false
def classXts (d : Dev) (cls : Nat) : Bool := match pipeOf d cls with
  | some (st, _, _) => st.testBit 1
  | none => false
def classGcm (d : Dev) (cls : Nat) : Bool := match pipeOf d cls with
  | some (st, _, _) => st.testBit 2
  | none => false

/-- The Seating Plan pairs of an actuator (R47). -/
def seatPairs (d : Dev) (a : Nat) : List (Nat × Nat) :=
  (List.range (d.secField 4 a 0 1)).map fun i => (d.secField 4 a (4 + 8 * i) 1, d.secField 4 a (5 + 8 * i) 1)

/-- Layout of bands over one shingled recording zone of `tracks` tracks (R449): `need` sectors are still missing from the
band begun, `guard` says that a guard track is due.  Answers the bands completed in it and what is left open. -/
def bandsInZone (bandSectors spt tracks need : Nat) (guard : Bool) : Nat × Nat × Bool :=
  let g := min tracks guard.toNat
  let need := if need = 0 then bandSectors else need
  let left := tracks - g
  let first := (need + spt - 1) / max 1 spt
  if g < guard.toNat then (0, need, true)
  else if left < first then (0, need - left * spt, false)
  else
    let left := left - first
    if left = 0 then (1, bandSectors, true)
    else
      let left := left - 1
      let per := (bandSectors + spt - 1) / max 1 spt
      let full := left / (per + 1)
      let rest := left % (per + 1)
      if rest = per then (2 + full, bandSectors, true)
      else (1 + full, bandSectors - rest * spt, false)

/-- Whole bands of a surface of HDA n (R449). -/
def bandsPerSurface (d : Dev) (n : Nat) : Nat :=
  let s := fmtBandMib d n * 256
  (((List.range (fmtZones d n)).filter fun i => fmtZoneKind d n i == 0).foldl (fun (acc : Nat × Nat × Bool) i =>
    let r := bandsInZone s (fmtZoneSpt d n i) (fmtZoneLast d n i + 1 - fmtZoneFirst d n i) acc.2.1 acc.2.2
    (acc.1 + r.1, r.2)) (0, s, false)).1

/-- Walk through one shingled recording zone of `tracks` tracks from `first` (R449) in search of sector `sec` of band `b`: its track,
or the band begun, the sectors still missing from it and whether its guard track is due. -/
def bandWalk (size spt first tracks b sec : Nat) : Nat → Nat → Nat → Nat → Bool → Nat ⊕ (Nat × Nat × Bool)
  | 0, _, cur, need, guard => .inr (cur, need, guard)
  | fuel + 1, t, cur, need, guard =>
    if tracks ≤ t then .inr (cur, need, guard)
    else if guard then bandWalk size spt first tracks b sec fuel (t + 1) (cur + 1) size false
    else
      let k := (need + spt - 1) / max 1 spt
      let here := min k (tracks - t)
      let done := size - need
      if cur = b ∧ done ≤ sec ∧ sec - done < here * spt then .inl (first + t + (sec - done) / max 1 spt)
      else if k ≤ tracks - t then bandWalk size spt first tracks b sec fuel (t + k) cur need true
      else .inr (cur, need - here * spt, false)

/-- Track of sector `sec` of band `b` on a surface of HDA n (R449); 0 where the surface has no such band. -/
def bandTrack (d : Dev) (n b sec : Nat) : Nat :=
  let size := fmtBandMib d n * 256
  match ((List.range (fmtZones d n)).filter fun i => fmtZoneKind d n i == 0).foldl (fun (acc : Nat ⊕ (Nat × Nat × Bool)) i =>
      match acc with
      | .inl t => .inl t
      | .inr (cur, need, guard) =>
        let tracks := fmtZoneLast d n i + 1 - fmtZoneFirst d n i
        bandWalk size (fmtZoneSpt d n i) (fmtZoneFirst d n i) tracks b sec (2 * tracks + 2) 0 cur need guard)
      (.inr (0, size, false)) with
  | .inl t => t
  | .inr _ => 0

/-- Zone size in LBAs (R113). -/
def zoneSize (d : Dev) (ns : Ns) : Nat :=
  match (List.range 8).find? fun a => ns.actMask.testBit a with
  | some a => fmtBandMib d (a / 2) * 512
  | none => 0

/-- Zone capacity in LBAs (R113). -/
def zoneCap (d : Dev) (ns : Ns) : Nat := zoneSize d ns * (64 - ns.parity) / 64

/-- Where LBA offset `x` of a zone lies (R116): which band (0 the first or head_a's) and which sector of it. -/
def zonePlace (pair : Bool) (bandMib p x : Nat) : Nat × Nat :=
  let g := x / (64 - p)
  let s := x % (64 - p)
  if pair then (g % 2, g / 2 * 64 + s)
  else if g < bandMib * 4 then (0, g * 64 + s) else (1, (g - bandMib * 4) * 64 + s)

/-- The zones an actuator can form, in the order of R115: pair zones by SEAT record and band index, then solo zones by head
and band index. -/
def actuatorZones (d : Dev) (a : Nat) : List Zone :=
  let n := a / 2
  let k := bandsPerSurface d n
  let pairs := seatPairs d a
  let paired := pairs.flatMap fun p => [p.1, p.2]
  let solo := (List.range (d.hdaHeads n)).filter fun h => !paired.contains h
  (pairs.flatMap fun p => (List.range k).map fun i =>
    { act := a, headA := p.1, headB := p.2, bandA := i, bandB := i : Zone }) ++
  (solo.flatMap fun h => (List.range (k / 2)).map fun j =>
    { act := a, headA := h, headB := h, bandA := 2 * j, bandB := 2 * j + 1 : Zone })

/-- Two zones hold a band in common. -/
def zonesShare (x y : Zone) : Bool :=
  let bx := [(x.headA, x.bandA), (x.headB, x.bandB)]
  let b := [(y.headA, y.bandA), (y.headB, y.bandB)]
  x.act == y.act && bx.any fun e => b.contains e

/-- The zones of an actuator that no namespace holds (R112); a head in Detention for writing gets no further bands. -/
def freeZones (d : Dev) (a : Nat) : List Zone :=
  let used := d.host.nss.flatMap fun ns => ns.zones.filter fun z => z.act == a
  (actuatorZones d a).filter fun z =>
    !(used.any (zonesShare z)) && !d.host.headDet.contains (a * 12 + z.headA) && !d.host.headDet.contains (a * 12 + z.headB)

/-- Round robin over the actuators' free zones (R115): `count` zones, or fewer where they lack. -/
def takeZones : Nat → List (List Zone) → List Zone
  | 0, _ => []
  | _ + 1, [] => []
  | count + 1, [] :: rest => takeZones count rest
  | count + 1, (z :: zs) :: rest => z :: takeZones count (rest ++ [zs])

/-- Zones allocated to a namespace over the actuators of its mask (R115).  The fuel of the rotation counts the actuators
that drop out of it. -/
def allocZones (d : Dev) (mask count : Nat) : List Zone :=
  let acts := (List.range 8).filter fun a => mask.testBit a
  (takeZones (count + acts.length) (acts.map (freeZones d))).take count

/-- A zone's bands lie on two heads. -/
def Zone.isPair (z : Zone) : Bool := z.headA != z.headB

def Zone.onHead (z : Zone) (e : Nat) : Bool := z.act * 12 + z.headA == e || z.act * 12 + z.headB == e

def ZState.isOpen : ZState → Bool
  | .implicitOpen | .explicitOpen => true
  | _ => false

def ZState.isActive : ZState → Bool
  | .implicitOpen | .explicitOpen | .closed => true
  | _ => false

end Sys2Proof.Machine
end

