-- ==== Sys2Proof/Machine/CalOps.lean ====
section
/-! DEFINITION. Objects of calibration and what makes one due (R55, R380, R381). -/
namespace Sys2Proof.Machine

def Dev.updTherm (d : Dev) (g : ThermState → ThermState) : Dev := { d with therm := g d.therm }

/-- The object exists: kind 0 an actuator's heads, 1 and 2 a channel, 3 a host port, 4 a Lomey port, 5 the DRAM interface (R55). -/
def calPresent (d : Dev) (kind inst : Nat) : Bool :=
  match kind with
  | 0 => decide (inst < 8) && d.actPresent inst
  | 1 | 2 => d.actPresent (inst / 2)
  | 3 => decide (inst < 2) && hostUsed d inst
  | 4 => decide (inst < 4) && lmlUsed d inst
  | 5 => inst == 0
  | _ => false

/-- The running calibration is of this object. -/
def calRunning (d : Dev) (kind inst : Nat) : Bool :=
  d.flag F.calStat_busy && d.rd F.calStat_kind == kind && d.rd F.calStat_inst == inst

/-- An object becomes due; a second trigger while it is due or running is served by the one run (R383). -/
def makeDue (d : Dev) (kind inst : Nat) : Dev :=
  if calPresent d kind inst && !calRunning d kind inst then d.setBit F.calDue_due inst true 0 kind else d

/-- A head becomes due for write-power calibration. -/
def makeHeadDue (d : Dev) (a h : Nat) : Dev :=
  let e := a * 12 + h
  makeDue (d.updTherm fun t => { t with headsDue := if t.headsDue.contains e then t.headsDue else t.headsDue ++ [e] }) 0 a

/-- Every head of an actuator, or the one object of another kind, becomes due (CAL_CTL, first use). -/
def makeAllDue (d : Dev) (kind inst : Nat) : Dev :=
  if kind = 0 then forEach (if calPresent d 0 inst then List.range (d.hdaHeads (inst / 2)) else []) d fun d h => makeHeadDue d inst h
  else makeDue d kind inst

/-- Temperature of an object in 1/16 °C (R379): a head's own, the region of a channel, region C for the rest. -/
def calTemp (d : Dev) (kind inst head : Nat) : Int :=
  match kind with
  | 0 => d.rdInt F.thmHead_head 0 (16 * inst + head) * 16
  | 1 | 2 => d.rdInt F.thmRegion_temp 0 (1 + inst / 4)
  | _ => d.rdInt F.thmRegion_temp 0 0

/-- Band of an object. -/
def calBand (d : Dev) (kind inst head : Nat) : Nat :=
  match kind with
  | 0 => tabGet 0 d.therm.headBand (12 * inst + head)
  | 1 | 2 => d.rd F.thmRegion_band 0 (1 + inst / 4)
  | _ => d.rd F.thmRegion_band 0 0

/-- Table key of an object: heads have keys of their own. -/
def calKey (kind inst head : Nat) : Nat := if kind = 0 then 4096 + 12 * inst + head else 16 * kind + inst

/-- The delta that makes an object due, in °C. -/
def calDelta (d : Dev) (kind inst : Nat) : Nat :=
  let x := d.rd F.calDelta_delta 0 (16 * kind + inst)
  if x = 0 then d.rd F.thmCfg_cal_delta else x

/-- The temperature check of R381 on an object that has run before. -/
def calDrifted (d : Dev) (kind inst head : Nat) : Bool :=
  match tabGet none d.therm.calAt (calKey kind inst head) with
  | none => false
  | some t => decide ((calDelta d kind inst * 16 : Nat) < (calTemp d kind inst head - t).natAbs)

/-- The next band of a temperature in 1/16 °C with the 2 °C hysteresis of R379, from band b (the fuel bounds the steps). -/
def bandOf (d : Dev) (t : Int) : Nat → Nat → Nat
  | 0, b => b
  | n + 1, b =>
    let edge (k : Nat) : Int := ofTwos 8 (d.rd F.thmEdges_edge 0 k) * 16
    if b < 7 ∧ edge b ≤ t then bandOf d t n (b + 1)
    else if 0 < b ∧ t < edge (b - 1) - 32 then bandOf d t n (b - 1)
    else b

end Sys2Proof.Machine
end

