-- ==== Sys2Proof/Machine/MediaMath.lean ====
section
/-! DEFINITION. Track layout, the sector locator, symbol rates, the scrambler, the code of ldpc_code 0, band parity groups
and the check words of the part's records: the arithmetic of the media chapters, as functions of numbers. -/
namespace Sys2Proof.Machine

def pusPerWedge : Nat := 65536
def slotSymbols : Nat := 37568
def dataStart : Nat := 4352
def dataPus : Nat := 60928

/-- Ceiling of a quotient. -/
def ceilDiv (n m : Nat) : Nat := (n + m - 1) / m

/-- P of R178: payload symbols of a data region. -/
def payloadSymbols (spt wedges : Nat) : Nat := ceilDiv (spt * slotSymbols) wedges

/-- The sector locator of R180: wedge and position of symbol offset `e` of sector `n`. -/
def locate (p n e : Nat) : Nat × Nat :=
  let b := n * slotSymbols + e
  (b / p, dataStart + ((64 + b % p) * dataPus) / (64 + p))

/-- A place on the track as one number, wedge first. -/
def place (wp : Nat × Nat) : Nat := wp.1 * pusPerWedge + wp.2

/-- The greatest sector no greater than `n` whose slot starts at or before a place; with `n` the last sector of the
track, the slot an edge falls in (R191). [DEDUCED: assumption log 92] -/
def slotAtOrBefore (p : Nat) (edge : Nat) : Nat → Nat
  | 0 => 0
  | n + 1 => if place (locate p (n + 1) 0) ≤ edge then n + 1 else slotAtOrBefore p edge n

/-- The first sector, counting from `n` over `k` more, whose slot starts at or after a place (R191). [DEDUCED: assumption log 92] -/
def slotAtOrAfter (p : Nat) (edge : Nat) : Nat → Nat → Option Nat
  | _, 0 => none
  | n, k + 1 => if edge ≤ place (locate p n 0) then some n else slotAtOrAfter p edge (n + 1) k

/-- Symbol rate of R202 in symbols per minute times 60,928 (so that it is exact): (64+P)·wedges·N·65,536. -/
def rateScaled (p wedges rpm : Nat) : Nat := (64 + p) * wedges * rpm * 65536

/-- The limits of R202: at most 4.8 Gbaud at 7,200 rpm and at least 1.0 Gbaud at 3,600 rpm. -/
def rateInRange (p wedges : Nat) : Bool :=
  decide (rateScaled p wedges 7200 ≤ 4800000000 * 60 * 60928 ∧ 1000000000 * 60 * 60928 ≤ rateScaled p wedges 3600)

/-- The NCO preset of R204 in units of 2^-28 sample, from a wedge period in picoseconds. -/
def ncoPreset (periodPs p : Nat) : Nat := 6 * periodPs * 60928 * 2 ^ 28 / (1000 * 65536 * (64 + p))

/-- Samples per reader of a sector entry (R218): 37,392 symbols at the preset step. [DEDUCED: assumption log 98] -/
def entrySamples (preset : Nat) : Nat := 37392 * preset / 2 ^ 28

/-- Seed of the scrambler (R210). -/
def scramblerSeed (track sector : Nat) : Nat :=
  let s := (track % 8192) * 1024 + sector
  if s % 2 ^ 23 = 0 then 0x7FFFFF else s % 2 ^ 23

/-- One step of the scrambler's shift register (R210): shift left, feed in s[22] xor s[17]. -/
def scramblerStep (s : BitVec 23) : BitVec 23 :=
  (s <<< 1) ||| (if xor (s.getLsbD 22) (s.getLsbD 17) then 1#23 else 0#23)

/-- The first `n` output bits s[22] of the scrambler from a seed (R210). -/
def scramble : Nat → BitVec 23 → List Bool
  | 0, _ => []
  | n + 1, s => s.getLsbD 22 :: scramble n (scramblerStep s)

/-- The circulants of ldpc_code 0 in information column c: (block row, shift) for j = 0..3 (R214). -/
def ldpcColumn (c : Nat) : List (Nat × Nat) :=
  (List.range 4).map fun j =>
    ((c + j * (7 + c / 35)) % 35, (37 * c * (2 * j + 1) + 61 * j) % 128)

/-- The block columns and shifts of block row k of ldpc_code 0 (R214). -/
def ldpcRow (k : Nat) : List (Nat × Nat) :=
  ((List.range 256).flatMap fun c => ((ldpcColumn c).filter fun rs => rs.1 == k).map fun rs => (c, rs.2))
    ++ (if k = 0 then [] else [(256 + k - 1, 0)]) ++ [(256 + k, 0)]

/-- Check bit i of block row k: the parity of its codeword bits, bit 128c + ((i + s) mod 128) for each circulant (R214). -/
def ldpcCheck (word : Nat → Bool) (k i : Nat) : Bool :=
  (ldpcRow k).foldl (fun acc cs => xor acc (word (128 * cs.1 + (i + cs.2) % 128))) false

/-- A codeword satisfies every parity check (R215). -/
def ldpcAccepts (word : Nat → Bool) : Bool :=
  (List.range 35).all fun k => (List.range 128).all fun i => !(ldpcCheck word k i)

/-- The information part of check (k, i). -/
def ldpcInfo (info : Nat → Bool) (k i : Nat) : Bool :=
  ((ldpcRow k).filter fun cs => cs.1 < 256).foldl
    (fun acc cs => xor acc (info (128 * cs.1 + (i + cs.2) % 128))) false

/-- Parity bit i of block k by systematic encoding (R214): block 0 is the information part of row 0, block k that of
row k xor parity block k - 1. -/
def ldpcParity (info : Nat → Bool) : Nat → Nat → Bool
  | 0, i => ldpcInfo info 0 (i % 128)
  | k + 1, i => xor (ldpcInfo info (k + 1) (i % 128)) (ldpcParity info k i)

/-- The primary sync mark and the two resync marks (R179). -/
def primaryMark : Nat := 0xB43E2D9A
def resyncMark (poison : Bool) : Nat := if poison then 0x65CA else 0x9A35

/-- Bit `j` of a mark of `w` bits, the highest bit first (R179). -/
def markBit (w mark j : Nat) : Bool := mark.testBit (w - 1 - j)

/-- The repeating 1100 pattern of preamble and postamble (R179). -/
def fillBit (e : Nat) : Bool := decide (e % 4 < 2)

/-- Codeword bit `i` of the 4,096 bytes that a number holds, byte 0 its lowest: byte 0 first, bit 7 of each byte first (R179). -/
def infoBit (tok i : Nat) : Bool := tok.testBit (8 * (i / 8) + (7 - i % 8))

/-- Codeword bit `i` of a sector's data: the user bits, then the parity blocks of ldpc_code 0 (R179, R214). -/
def codeBit (tok i : Nat) : Bool :=
  if i < 32768 then infoBit tok i else ldpcParity (infoBit tok) ((i - 32768) / 128) ((i - 32768) % 128)

/-- The 4,096 bytes that a codeword's first 32,768 bits carry, as a number (R179, R216): bit 8b + 7 - j of it is codeword bit
8b + j. -/
def wordBytes (word : Nat) : Nat :=
  (List.range 4096).foldl (fun acc b =>
    acc + 2 ^ (8 * b) * ((List.range 8).foldl (fun v j => 2 * v + (word.testBit (8 * b + j)).toNat) 0)) 0

/-- Symbol `e` of a sector slot (R179, R210): marks, preamble and postamble as they are, codeword bits with the scrambling
sequence; nothing is written in the gap. -/
def slotBit (scr : List Bool) (tok : Nat) (poison : Bool) (e : Nat) : Option Bool :=
  let coded (i : Nat) : Bool := xor (codeBit tok i) ((scr[i]?).getD false)
  if e < 192 then some (fillBit e)
  else if e < 224 then some (markBit 32 primaryMark (e - 192))
  else if e < 16608 then some (coded (e - 224))
  else if e < 16624 then some (markBit 16 (resyncMark poison) (e - 16608))
  else if e < 37488 then some (coded (e - 240))
  else if e < 37520 then some (fillBit (e - 37488))
  else none

/-- The 37,520 symbols written in a sector slot (R179, R210, R214, R230). -/
def sectorImage (track sector tok : Nat) (poison : Bool) : List Bool :=
  let scr := scramble 37248 (BitVec.ofNat 23 (scramblerSeed track sector))
  (List.range slotSymbols).filterMap (slotBit scr tok poison)

/-- The payload symbol of a track at a place: the first one that starts there or later in its wedge (the inverse of `locate`). -/
def symbolAt (p w pos : Nat) : Nat := w * p + min p (ceilDiv ((pos - dataStart) * (64 + p)) dataPus - 64)

/-- Where a write gate opens whose edge falls at a position (R177): never before 4,352 nor at or after 65,280 of a wedge. -/
def gateOpensAt (w pos : Nat) : Nat :=
  if pos < dataStart then place (w, dataStart) else if pos < dataStart + dataPus then place (w, pos) else place (w + 1, dataStart)

/-- Where a write gate closes whose edge falls at a position (R177): at 65,280 of the wedge before where it falls in a servo
field or guard. -/
def gateClosesAt (w pos : Nat) : Nat :=
  if pos < dataStart then place (w, 0) - 256 else if pos < dataStart + dataPus then place (w, pos) else place (w, dataStart + dataPus)

/-- A detector value limited to 6 bits (R211). -/
def satLlr (x : Int) : Int := max (-31) (min 31 x)

/-- Detector passes of a decode: one more after every `passLen` iterations (R211). -/
def detectorPasses (iters passLen : Nat) : Nat := 1 + (iters - 1) / max 1 passLen

/-- CRC with a polynomial of `w` bits, most significant bit first, over bytes. -/
def crcMsb (w poly init : Nat) (bs : List Byte) : Nat :=
  bs.foldl (fun crc b =>
    (List.range 8).foldl (fun c k =>
      let top := xor (c.testBit (w - 1)) (b.toNat.testBit (7 - k))
      ((c * 2) % 2 ^ w) ^^^ (if top then poly else 0)) crc) init

/-- CRC with a reflected polynomial, least significant bit first, initial value and final complement all ones. -/
def crcLsb (w polyRev : Nat) (bs : List Byte) : Nat :=
  (2 ^ w - 1) ^^^ bs.foldl (fun crc b =>
    (List.range 8).foldl (fun c k =>
      let low := xor (c.testBit 0) (b.toNat.testBit k)
      (c / 2) ^^^ (if low then polyRev else 0)) crc) (2 ^ w - 1)

/-- CRC-16, polynomial 0x1021, initial value 0xFFFF (R348). -/
def crc16 (bs : List Byte) : Nat := crcMsb 16 0x1021 0xFFFF bs

/-- IEEE 802.3 CRC-32 (R162, R164). -/
def crc32 (bs : List Byte) : Nat := crcLsb 32 0xEDB88320 bs

/-- CRC-64 with the NVMe guard polynomial 0xAD93D23594C93659, reflected (R146). -/
def crc64 (bs : List Byte) : Nat := crcLsb 64 0x9A6C9329AC4BC9B5 bs

/-- Parity bits of a microword (R185): field i and its bit together hold an odd number of ones. -/
def fieldOnes (f : Nat) : Nat := ((List.range 16).filter fun k => f.testBit k).length

def wordParity (w : Nat) : Nat :=
  (List.range 8).foldl (fun acc i =>
    acc + (if fieldOnes (w / 2 ^ (16 * i) % 2 ^ 16) % 2 = 0 then 2 ^ i else 0)) 0

/-- The halt microword (R201): STOP with status 15. -/
def haltWord : Nat := 0x00F00000000000000000000000000006

/-- Data address to physical address of a data byte and of its check byte (R336). -/
def dramPhysical (a : Nat) : Nat × Nat :=
  (a / 4096 * 4608 + a % 4096, a / 4096 * 4608 + 4096 + a % 4096 / 8)

end Sys2Proof.Machine
end

