-- ==== Sys2Proof/Machine/ChannelOps.lean ====
section
/-! DEFINITION. What the sequencers, servo and fault inputs share of a media channel: its geometry, its results, the closing
of write gate and assist, the causes of unsafe writing, the write-permit window and the stop of a sequencer
(R194, R199, R216-R220, R231, R239-R243). -/
namespace Sys2Proof.Machine

/-- A channel's clock has lost its lock: it is unusable until the PLL relocks (R30). -/
def chnLost (d : Dev) (c : Nat) : Bool := d.reset.lost.any fun k => match k with
  | .chn m => m.val == c
  | _ => false

/-- One move of a setting toward the one measured (R382): the whole combination, or the first tap or threshold that is off, by
one step.  [DEDUCED: assumption log 195] -/
def stepTap : List Int → List Int → List Int
  | _, [] => []
  | now, g :: gs =>
    let v := now.headD 0
    if v < g then (v + 1) :: now.tail
    else if g < v then (v - 1) :: now.tail
    else v :: stepTap now.tail gs

/-- [DEDUCED: assumption log 195] -/
def Trim.advance (t : Trim) : Trim := { t with now := if t.whole then t.goal else stepTap t.now t.goal }

/-- An application opportunity of the settings of kind `kind`, instance `inst` (R203, R380). [DEDUCED: assumption log 195] -/
def trimStep (d : Dev) (kind inst : Nat) : Dev :=
  d.updTherm fun t => { t with trims := tabPut {} t.trims (kind * 16 + inst) (tabGet {} t.trims (kind * 16 + inst)).advance }

/-- Head of a channel: the task's head a or head b (SQR_TASK). -/
def chnHead (d : Dev) (c : Nat) : Nat := if c % 2 = 0 then d.rd F.sqrTask_head_a (c / 2) else d.rd F.sqrTask_head_b (c / 2)

/-- Track of a channel's task (SQR_TASK_TRK). -/
def taskTrack (d : Dev) (c : Nat) : Nat :=
  if c % 2 = 0 then d.rd F.sqrTaskTrk_track_a (c / 2) else d.rd F.sqrTaskTrk_track_b (c / 2)

def wedgesOf (d : Dev) (a : Nat) : Nat := d.rd F.sqrGeom_wedges a

/-- The recording zone that holds a track (R48, SQR_ZONE_i). -/
def zoneOfTrack (d : Dev) (a t : Nat) : Option Nat :=
  (List.range (d.rd F.sqrGeom_rz_count a)).find? fun i =>
    decide (d.rd F.sqrZone_first_track a i ≤ t ∧ t ≤ d.rd F.sqrZone_last_track a i)

/-- Zone class of a track for the error histogram (R410). -/
def zoneClass (d : Dev) (act track : Nat) : Nat := 8 * (zoneOfTrack d act track).getD 0 / max 1 (d.rd F.sqrGeom_rz_count act)

/-- P of the zone of a track, 1 where no zone holds it. -/
def payloadOf (d : Dev) (a t : Nat) : Nat :=
  match zoneOfTrack d a t with
  | some i => max 1 (d.rd F.sqrZone2_payload a i)
  | none => 1

def sptOf (d : Dev) (a t : Nat) : Nat :=
  match zoneOfTrack d a t with
  | some i => d.rd F.sqrZone2_spt a i
  | none => 0

/-- A track of the locker range (R182, SQR_LOCKER). -/
def inLocker (d : Dev) (a t : Nat) : Bool :=
  decide (d.rd F.sqrLocker_first a ≤ t ∧ t < d.rd F.sqrLocker_first a + d.rd F.sqrLocker_count a)

/-- Entries whose decode waits or runs: last parity symbol received, not decoded (R215). -/
def decodeWaiting (ch : Chn) : List SectorEntry := ch.entries.filter fun e => e.lastParity && !e.dec

/-- Samples of a channel in use per reader (R218). -/
def samplesUsed (ch : Chn) : Nat :=
  ((ch.entries.filter fun e => !e.released).map (·.samples)).sum + (ch.held.map (·.samples)).sum

/-- The read-only views of a channel's lists (CHN_STAT, CHN_WSTAT.wfifo, SQR_STAT.q_a and q_b). [DEDUCED: assumption log 99] -/
def syncChn (d : Dev) (c : Nat) : Dev :=
  let ch := d.chn c
  let busy := min 2 (decodeWaiting ch).length
  let busy := if busy = 0 && ch.redecode.any (fun r => !r.restart) then 1 else busy
  let d := d.wr F.chnStat_unacked ch.entries.length c
  let d := d.wr F.chnStat_held ch.held.length c
  let d := d.wr F.chnStat_dec_busy (2 ^ busy - 1) c
  let d := d.wr F.chnStat_buf_used (samplesUsed ch) c
  let d := d.wr F.chnWstat_wfifo ch.fifo.length c
  if c % 2 = 0 then d.wr F.sqrStat_q_a ch.queue.length (c / 2) else d.wr F.sqrStat_q_b ch.queue.length (c / 2)

/-- Reader in use on a channel: 0 joint, 1 reader 0, 2 reader 1 (R209, CHN_CTL.single); joint where both readers are declared
faulty. [DESIGN CHOICE: assumption log 100] -/
def readerMode (d : Dev) (c : Nat) : Nat :=
  let h := chnHead d c
  if d.rd F.chnCtl_single c = 1 then 1
  else if d.rd F.chnCtl_single c = 2 then 2
  else
    match d.flag F.chnSkew_fault_0 c h, d.flag F.chnSkew_fault_1 c h with
    | true, false => 2
    | false, true => 1
    | _, _ => 0

/-- A change of the sector entry with a sequence number. -/
def updEntry (d : Dev) (c seq : Nat) (g : SectorEntry → SectorEntry) : Dev :=
  d.updChn c fun ch => { ch with entries := listMapIf (fun x => x.seq == seq) g ch.entries }

/-- An entry that comes to hold erased symbols counts once in CHN_CNT_4 (R212, R213). [DEDUCED: assumption log 102] -/
def countErased (d : Dev) (c : Nat) (before after : Bool) : Dev :=
  if after && !before then d.addWrap F.chnCnt_count 1 c 4 else d

/-- The symbols that a suspected defect marks (R212), with thresholds as they stand or halved (R227 step 2): none where it stays
within its threshold. -/
def defectSpan (d : Dev) (c : Nat) (halved : Bool) (amps : Nat × Nat) (x : Defect) : Option (Nat × Nat × Nat) :=
  let amp := if x.reader.val = 0 then amps.1 else amps.2
  let scale := if halved then 200 else 100
  if x.asperity then
    if d.rd F.chnDefect_ta_thresh c * amp < x.level * scale then
      some (x.reader.val, x.start - d.rd F.chnDefect_pad_pre c, x.stop + d.rd F.chnDefect_pad_post c)
    else none
  else if x.level * scale < d.rd F.chnDefect_do_thresh c * amp ∧ d.rd F.chnDefect_do_min c ≤ x.stop - x.start then
    some (x.reader.val, x.start - d.rd F.chnDefect_pad_pre c, x.stop + d.rd F.chnDefect_pad_pre c)
  else none

/-- The spans of an entry under a variant of its decode; none while the detector is off (R212, CHN_CTL.defect_en). -/
def defectSpans (d : Dev) (c : Nat) (halved : Bool) (e : SectorEntry) : List (Nat × Nat × Nat) :=
  if d.flag F.chnCtl_defect_en c then e.defects.filterMap (defectSpan d c halved e.amps) else []

/-- What the defect detector has seen of an entry up to now: its spans follow from the readers' settled amplitudes, and the
sector counts where one is marked (R212). -/
def seeDefects (d : Dev) (c seq : Nat) (xs : List Defect) : Dev :=
  match (d.chn c).entries.find? (fun e => e.seq == seq) with
  | none => d
  | some e =>
    let e' := { e with defects := e.defects ++ xs }
    let spans := defectSpans d c false e'
    updEntry (countErased d c e.erased (e.erased || !spans.isEmpty)) c seq fun _ =>
      { e' with spans := spans, erased := e.erased || !spans.isEmpty }

/-- Symbol `s` of an entry carries no signal for the decode: it lies outside the read gate, or a span covers it on every reader
in use (R212, R213). -/
def symbolErased (e : SectorEntry) (reader : Nat) (spans : List (Nat × Nat × Nat)) (s : Int) : Bool :=
  let covered (r : Nat) : Bool := spans.any fun x => x.1 == r && decide ((x.2.1 : Int) ≤ s ∧ s < (x.2.2 : Int))
  decide (s < (e.lo : Int) ∨ (e.hi : Int) ≤ s)
    || (match reader with
        | 1 => covered 0
        | 2 => covered 1
        | _ => covered 0 && covered 1)

/-- Erased symbols of a run inside an entry: an erased symbol inside a sync mark never matches it (R212). -/
def erasedIn (e : SectorEntry) (first n : Nat) : Nat :=
  ((List.range n).filter fun j => symbolErased e e.reader e.spans ((first + j : Nat) : Int)).length

/-- The last 8 wedge periods of a channel's head vary by no more than 0.1 % (R188, R205). -/
def steadyChn (d : Dev) (c : Nat) : Bool :=
  let ps := (d.chn c).periods
  let hi := ps.foldl max 0
  let lo := ps.foldl min hi
  ps.length == 8 && decide ((hi - lo) * 1000 ≤ lo)

/-- The condition steady (R188): head a. -/
def steady (d : Dev) (a : Nat) : Bool := steadyChn d (2 * a)

/-- The timing loop's preset from the period of the preceding wedge (R204). -/
def presetLoop (d : Dev) (c : Nat) : Dev :=
  d.wr F.chnTloop_preset (ncoPreset (((d.chn c).periods.head?).getD 0) (payloadOf d (c / 2) (taskTrack d c))) c

/-- Gains of the timing loop as exponents of one half (R204): both raised by 2^acq_boost in acquisition mode. -/
def loopGains (d : Dev) (c : Nat) : Int × Int :=
  let boost : Int := if (d.chn c).acq then d.rd F.chnTloop_acq_boost c else 0
  ((d.rd F.chnTloop_kp c : Int) - boost, (d.rd F.chnTloop_ki c : Int) - boost)

/-- Class of a write transition (R234): c = 4p + 2a + b from the symbol before it, the symbol after it, and the two
symbols before those. -/
def precompClass (after before before2 before3 : Bool) : Nat :=
  4 * (!before && after).toNat + 2 * (before != before2).toNat + (before2 != before3).toNat

/-- Shift of the transition into a symbol in 1/64 symbol (R234): 0 without a transition and with precomp_en = 0. -/
def precompShift (d : Dev) (c : Nat) (after before before2 before3 : Bool) : Int :=
  if d.flag F.chnWctl_precomp_en c && after != before then
    d.rdInt F.chnPrecomp_shift c (chnHead d c * 8 + precompClass after before before2 before3)
  else 0

/-- Laser current at level L (R235): the bias L·bias_frac/256, and in a pulse the level, its amplitude above bias reduced by
derate % inside runs of 3 or more equal symbols. -/
def laserCurrent (d : Dev) (c L : Nat) (pulse longRun : Bool) : Nat :=
  let h := chnHead d c
  let bias := L * d.rd F.chnAssist_bias_frac c h / 256
  if !pulse then bias
  else if longRun then bias + (L - bias) * (100 - d.rd F.chnAssist_derate c h) / 100
  else L

/-- STO bias at level L (R235, R236): raised by boost % for blen symbols after a transition, never above assist_max. -/
def stoBias (d : Dev) (c L : Nat) (boosted : Bool) : Nat :=
  if boosted then min (L * (100 + d.rd F.chnAssist_boost c (chnHead d c)) / 100) (d.rd F.sqrGeom_assist_max (c / 2)) else L

/-- A symbol lies inside a run of 3 or more equal symbols: with the two before it, the one before and the one after, or the two
after it (R235). -/
def inLongRun (b2 b1 b : Bool) : List Bool → Bool
  | [] => b1 == b && b2 == b
  | [n1] => b1 == b && (b2 == b || n1 == b)
  | n1 :: n2 :: _ => (b1 == b && (b2 == b || n1 == b)) || (n1 == b && n2 == b)

/-- One driven symbol (R234, R235, R427): data shifted, assist by the applied level and unshifted; AT is high in the laser's
pulse, from dly/64 symbol for pw/8 symbol, or through a symbol of an STO boost. [DEDUCED: assumption log 196] -/
def writeSymbol (d : Dev) (c L since : Nat) (b3 b2 b1 b : Bool) (rest : List Bool) : WriteSymbol :=
  let h := chnHead d c
  let shift := precompShift d c b b1 b2 b3
  if d.hdaAssist (c / 4) = 1 then
    let dly := d.rdInt F.chnAssist_dly c h
    { bit := b, shift := shift, rest := laserCurrent d c L false false, peak := laserCurrent d c L true (inLongRun b2 b1 b rest),
      atFrom := dly, atTo := dly + (8 * d.rd F.chnAssist_pw c h : Nat) }
  else if d.hdaAssist (c / 4) = 2 then
    let boosted := decide (since < d.rd F.chnAssist_blen c h)
    { bit := b, shift := shift, rest := L, peak := stoBias d c L boosted, atFrom := 0, atTo := if boosted then 64 else 0 }
  else { bit := b, shift := shift, rest := 0, peak := 0, atFrom := 0, atTo := 0 }

/-- The driven symbols of a slot; `since` counts the symbols since the last transition.  The symbols before the slot's first one
are gap and count as 0. [DEDUCED: assumption log 196] -/
def driveSymbols (d : Dev) (c L : Nat) : Nat → Bool → Bool → Bool → List Bool → List WriteSymbol
  | _, _, _, _, [] => []
  | since, b3, b2, b1, b :: rest =>
    let since := if b != b1 then 0 else since
    writeSymbol d c L since b3 b2 b1 b rest :: driveSymbols d c L (since + 1) b2 b1 b rest

/-- What a channel drives in the slot of a sector (R230-R237). [DEDUCED: assumption log 196] -/
def slotWave (d : Dev) (c sector tok : Nat) (poison : Bool) : List WriteSymbol :=
  driveSymbols d c (if (d.chn c).ag then d.rd F.chnApplied_applied c (chnHead d c) else 0) 256 false false false
    (sectorImage (taskTrack d c) sector tok poison)

/-- A sector's result in CHN_RESULT (R216). -/
def reportResult (d : Dev) (c : Nat) (e : SectorEntry) (iters errs step reader : Nat) (skipped : Bool) : Dev :=
  let d := d.wr F.chnResult_seq e.seq c
  let d := d.wr F.chnResult_status e.status c
  let d := d.wr F.chnResult_framing e.framing c
  let d := d.wrInt F.chnResult_k e.k c
  let d := d.wr F.chnResult_iter iters c
  let d := d.wr F.chnResult_errs (satTo 16 errs) c
  let d := d.setFlag F.chnResult_poison e.poison c
  let d := d.setFlag F.chnResult_defect e.erased c
  let d := d.wr F.chnResult_reader reader c
  let d := d.wr F.chnResult_step step c
  let d := d.setFlag F.chnResult_skipped skipped c
  d.setFlag F.chnResult_resync_bad e.resyncBad c

/-- An entry removed by an acknowledgement or a stop (R218, R220): an unfinished decode is abandoned; a failed one that
was acknowledged stays held, at most 4, the oldest overwritten first. [DEDUCED: assumption log 98] -/
def dropEntry (d : Dev) (c : Nat) (e : SectorEntry) (acked : Bool) : Dev :=
  if !e.dec then
    reportResult d c { e with status := 4, released := true } 0 0 0 e.reader false
  else if acked && !e.ok && !e.released && e.status != 3 then
    d.updChn c fun ch =>
      { ch with held := (if ch.held.length < 4 then ch.held else ch.held.drop 1) ++ [e] }
  else d

/-- An acknowledgement removes the oldest sector entry (R188). -/
def ackSector (d : Dev) (c : Nat) : Dev :=
  match (d.chn c).entries with
  | [] => d
  | e :: rest => syncChn (dropEntry (d.updChn c fun ch => { ch with entries := rest }) c e true) c

/-- `CHN_WSTAT.unsafe` is the union of the causes (R240). -/
def unsafeRefresh (d : Dev) (c : Nat) : Dev := d.setFlag F.chnWstat_unsafe (d.rd F.chnWstat_unsafe_now c != 0) c

/-- The heater target of a head (R239): by fly_mode, limited to td_code - td_margin, a margin below 4 acting as 4.
[DEDUCED: assumption log 108] -/
def flyTargetOf (d : Dev) (c : Nat) : Nat :=
  let h := chnHead d c
  let lim := d.rd F.chnFly_td_code c h - max 4 (d.rd F.chnFly_td_margin c h)
  match d.rd F.chnWctl_fly_mode c with
  | 0 => min lim (d.rd F.chnFly_read_code c h)
  | 1 => min lim (d.rd F.chnFly_write_code c h)
  | 2 => min lim (d.rd F.chnFly_read_code c h + d.rd F.chnFly_step c h)
  | _ => 0

/-- A heater target that differs from the one in force is sent while the write gate is closed, else it waits for the next
close; fly_ok is false until fly_settle after the last send (R239). [DEDUCED: assumption log 108] -/
def flyUpdate (d : Dev) (c : Nat) : Dev :=
  let ch := d.chn c
  let t := flyTargetOf d c
  if ch.flySent && t == ch.flyTarget && !ch.flyPending then d
  else if ch.wg then d.updChn c fun ch => { ch with flyPending := true }
  else
    ((d.updChn c fun ch => { ch with flyPending := false, flySent := true, flyTarget := t }).setFlag
      F.chnWstat_fly_ok false c).emitSlot (c / 4) (.heater c (chnHead d c) t)

/-- The result of a write slot (CHN_WRESULT, CHN_WCNT_k): 0 written, 1 cut short, 2 no data. -/
def writeResult (d : Dev) (c sector status : Nat) : Dev :=
  let d := d.wr F.chnWresult_sector sector c
  let d := d.wr F.chnWresult_status status c
  let d := d.wr F.chnWresult_cause (if status = 1 then d.rd F.chnWstat_unsafe_now c else 0) c
  d.addWrap F.chnWcnt_count 1 c status

/-- The sector being written has left the channel whole (R241). -/
def finishSlot (d : Dev) (c : Nat) : Dev :=
  match (d.chn c).writing with
  | none => d
  | some (sector, tok, poison) =>
    let h := chnHead d c
    let d := (writeResult d c sector 0).updHealth (c / 2 * 12 + h) fun l => { l with written := l.written + 1 }
    (d.updChn c fun ch => { ch with writing := none }).emit (.written c h (taskTrack d c) sector tok poison)

/-- A write gate closed: a sector still being written counts as cut short (R241), the causes that need an open gate end, and a
pending heater target is sent (R239, R240). [DEDUCED: assumption log 107] -/
def endWrite (d : Dev) (c : Nat) : Dev :=
  let d := match (d.chn c).writing with
    | some w => writeResult d c w.1 1
    | none => d
  let d := d.updChn c fun ch => { ch with wg := false, writing := none, nextSlot := none, monBad := 0 }
  let d := ((d.setBit F.chnWstat_unsafe_now 4 false c).setBit F.chnWstat_unsafe_now 5 false c).setBit
    F.chnWstat_unsafe_now 6 false c
  let d := trimStep (unsafeRefresh d c) 2 c
  if (d.chn c).flyPending then flyUpdate d c else d

/-- The read gate shuts (R203, R206): gain and timing loop are free, and a waiting converter setting takes effect.
[DEDUCED: assumption log 102] -/
def shutRead (d : Dev) (c : Nat) : Dev :=
  if !(d.chn c).rg then d
  else
    let d := d.updChn c fun ch => { ch with rg := false, gain := .released, acq := false }
    trimStep (d.setFlag F.chnStat_timing_lock false c) 1 c

/-- Write gate and assist of a channel closed at once (R194, R240); assist_ok ends with the assist (R238).
[DEDUCED: assumption log 107] -/
def closeWrite (d : Dev) (c : Nat) : Dev :=
  if !(d.chn c).wg && !(d.chn c).ag then d
  else
    let d := (endWrite d c).updChn c fun ch => { ch with ag := false, monGood := 0 }
    (d.setFlag F.chnWstat_assist_ok false c).emit (.gates c (d.chn c).rg false false)

/-- Any closing event closes the whole write-permit window and every gate and assist it covers (R194). -/
def closePermit (d : Dev) (a : Nat) : Dev :=
  let d := forEach (d.seq a).permit d fun d ct => closeWrite d ct.1
  (d.updSeq a fun q => { q with permit := [] }).setFlag F.sqrStat_permit false a

/-- The permit window of an actuator closed where it covers a channel. -/
def closePermitOf (d : Dev) (c : Nat) : Dev :=
  if (d.seq (c / 2)).permit.any (fun ct => ct.1 == c) then closePermit d (c / 2) else d

/-- A cause of unsafe writing set or cleared (R240): a cause that is true closes write gate and assist and, through the
window, those of a twin (R242). [DEDUCED: assumption log 104] -/
def setCause (d : Dev) (c bit : Nat) (v : Bool) : Dev :=
  let was := d.bit F.chnWstat_unsafe_now bit c
  let d := d.setBit F.chnWstat_unsafe_now bit v c
  let d := if v then d.setBit F.chnWstat_unsafe_seen bit true c else d
  let d := unsafeRefresh d c
  if v then
    let d := if bit < 2 && !was then
        (d.addWrap F.chnWcnt_count 1 c 4).updHealth (c / 2 * 12 + chnHead d c) fun h => { h with inhibits := h.inhibits + 1 }
      else d
    closePermitOf (closeWrite d c) c
  else d

/-- Loss of write clock lock (R232): with the write gate open that is cause 4 (R240). [DEDUCED: assumption log 106] -/
def loseLock (d : Dev) (c : Nat) : Dev :=
  let d := d.setFlag F.chnWstat_wlock false c
  if (d.chn c).wg then setCause d c 4 true else d

/-- CHN_WCTL.arm written (R232): the PLL starts or stops; on an actuator of an HDA with twin 0 that of CHN2a+1 never
starts, nor does one whose clock is lost (R30). [DEDUCED: assumption log 106] -/
def pllArm (c : Nat) (arm : Bool) (d : Dev) : Dev :=
  let d := d.setFlag F.chnWctl_arm arm c
  if arm then
    if c % 2 = 1 && !d.hdaTwin (c / 4) || chnLost d c then d
    else d.updChn c fun ch => { ch with pllOn := true, pllGood := if ch.pllOn then ch.pllGood else 0 }
  else loseLock (d.updChn c fun ch => { ch with pllOn := false, pllGood := 0 }) c

/-- A media task that writes. -/
def MKind.writes (k : MKind) : Bool := match k with
  | .destage _ | .locker _ | .homeWrite _ _ _ | .clean _ _ => true
  | .read _ | .homeVerify _ _ _ => false

/-- The task-end event a stopped sequencer raises to the Timetable (R199): event 1. -/
def evTaskEnd : Nat := 1
/-- The machine-check event (R200): event 2. -/
def evMachineCheck : Nat := 2

/-- The stop of a sequencer, of any cause (R199): gates and assist close, queues and sector entries go, the window
closes, the stack empties, and the task end waits for the Timetable. -/
def seqStop (d : Dev) (a cause status : Nat) : Dev :=
  let d := closePermit d a
  let d := forEach [2 * a, 2 * a + 1] d fun d c =>
    let d := closeWrite d c
    let es := (d.chn c).entries
    let d := forEach es d fun d e => dropEntry d c e false
    let d := d.updChn c fun ch => { ch with queue := [], entries := [], sw := false, sgSearch := false }
    let d := shutRead d c
    syncChn d c
  let d := d.updSeq a fun q => { q with stack := [], wait := .none, ended := some (cause, status) }
  let d := d.wr F.sqrStat_state 0 a
  let d := d.wr F.sqrStat_sp 0 a
  let d := d.setFlag F.sqrStat_in_cust false a
  let d := d.wr F.sqrStat_cause cause a
  let d := if cause = 0 then d.wr F.sqrStat_status status a else d
  d.emit (.event evTaskEnd a)

/-- An assist fault of a head (R243): cause 7, the fault counts, assist_ok false. [DEDUCED: assumption log 103] -/
def assistFault (d : Dev) (c : Nat) : Dev :=
  let d := d.addWrap F.chnWcnt_count 1 c 3
  let d := d.updHealth (c / 2 * 12 + chnHead d c) fun h => { h with faults := h.faults + 1 }
  setCause ((makeHeadDue d (c / 2) (chnHead d c)).setFlag F.chnWstat_assist_ok false c) c 7 true

end Sys2Proof.Machine
end

