-- ==== Sys2Proof/Machine/LomeyOps.lean ====
section
/-! DEFINITION. Frames on the Lomey ports: routing, budgets, credit, the retry buffer, and the NAK of a dropped frame
(R311-R324). -/
namespace Sys2Proof.Machine

/-- A Lomey port. -/
def Dev.lport (d : Dev) (p : Nat) : LPort := tabGet {} d.chain.ports p

def Dev.updLport (d : Dev) (p : Nat) (g : LPort → LPort) : Dev :=
  { d with chain := { d.chain with ports := tabPut {} d.chain.ports p (g (d.lport p)) } }

/-- Frame types of R314. -/
def ftCmd : Nat := 1
def ftAck : Nat := 2
def ftXrdy : Nat := 3
def ftWdata : Nat := 4
def ftRdata : Nat := 5
def ftCpl : Nat := 6
def ftProg : Nat := 7
def ftCancel : Nat := 8
def ftNak : Nat := 9
def ftRc : Nat := 11
def ftRoute : Nat := 12
def ftSpdm : Nat := 13

/-- The class of a frame type (R314). -/
def classOf (ty : Nat) : Nat :=
  if ty = ftCmd then 0 else if ty = ftWdata then 1 else if ty = ftRdata then 2
  else if ty = ftRc ∨ ty = ftRoute then 5 else if ty = ftSpdm then 6 else 3

/-- Types reserved under R314. -/
def reservedType (ty : Nat) : Bool := ty == 0 || ty == 10 || decide (13 < ty)

/-- A drop of these types causes no NAK (R314). -/
def nakExempt (ty : Nat) : Bool :=
  ty == ftNak || ty == ftAck || ty == ftProg || ty == ftRc || ty == ftRoute || ty == ftSpdm

def ownAddr (d : Dev) : Nat := d.rd F.lmlNode_addr

/-- The neighbour at the other end of a link (R312). -/
def linkLocal : Nat := 0xFFFFFF

/-- UP and in routing (R321). -/
def lmlUsable (d : Dev) (p : Nat) : Bool := d.rd F.lmlStat_state p == 3 && d.flag F.lmlStat_routed p

/-- Entry `i` of LML_RT matches a destination (R321); a prefix length above 24 makes the entry invalid. -/
def routeMatches (d : Dev) (dest i : Nat) : Bool :=
  let l := d.rd F.lmlRt_len 0 i
  d.flag F.lmlRt_valid 0 i && decide (l ≤ 24) && d.rd F.lmlRt_pfx 0 i / 2 ^ (24 - l) == dest / 2 ^ (24 - l)

/-- The valid entry with the longest prefix that matches. -/
def routeEntry (d : Dev) (dest : Nat) : Option Nat :=
  ((List.range 64).filter (routeMatches d dest)).foldl (fun b i =>
    match b with
    | none => some i
    | some j => if d.rd F.lmlRt_len 0 j < d.rd F.lmlRt_len 0 i then some i else b) none

/-- What R321 does with a frame. -/
inductive RouteTo where
  | consume
  | send (p : Nat)
  | uTurn (p : Nat)
  | drop
  deriving DecidableEq, Repr

/-- Routing (R321) of a frame that arrived at `arrival`, or starts here. -/
def routeOf (d : Dev) (dest : Nat) (path turned : Bool) (arrival : Option Nat) : RouteTo :=
  if dest = linkLocal ∨ (dest = ownAddr d ∧ dest ≠ 0) then .consume
  else
    match routeEntry d dest with
    | none => .drop
    | some e =>
      let prim := some (d.rd F.lmlRt_primary 0 e)
      let alt := if d.flag F.lmlRt_alt_valid 0 e then some (d.rd F.lmlRt_alternate 0 e) else none
      let try2 := if path then [alt, prim] else [prim, alt]
      match (try2.filterMap id).find? (fun p => lmlUsable d p && arrival != some p) with
      | some p => .send p
      | none =>
        match arrival with
        | some p => if !turned && lmlUsable d p then .uTurn p else .drop
        | none => .drop

/-! ### Units on the wire (R311, R312, R317) -/

/-- The type-specific fields of a header (R314, R332), each in its width. -/
def specBytes (f : Frame) : List Byte :=
  let field (i w : Nat) : List Byte := toBytes (f.spec.getD i 0) w
  if f.ty = ftCmd then field 0 2 ++ toBytes 0 2 ++ field 1 4 ++ field 2 4 ++ field 3 1
  else if f.ty = ftXrdy then field 0 4 ++ field 1 4
  else if f.ty = ftWdata ∨ f.ty = ftRdata then field 0 4 ++ field 1 2
  else if f.ty = ftCpl then field 0 4 ++ field 1 4 ++ field 2 4 ++ toBytes 0 2 ++ toBytes (2 * f.spec.getD 3 0) 2 ++ field 4 4
  else if f.ty = ftNak then field 0 1 ++ field 1 1 ++ field 2 4 ++ field 3 3
  else if f.ty = ftRc then field 0 1
  else if f.ty = ftRoute then field 0 1 ++ field 1 1
  else []

/-- Bytes padded with zeroes to a length. -/
def padded (n : Nat) (b : List Byte) : List Byte := (b ++ List.replicate n 0).take n

/-- The header flit of a frame (R312). -/
def headerFlit (f : Frame) : List Byte :=
  toBytes f.dest 3 ++ toBytes f.src 3 ++ toBytes f.budget 2 ++ toBytes (f.tc % 8 + 8 * f.ty) 1 ++
    toBytes (f.enc.toNat + 2 * f.path.toNat + 4 * f.turned.toNat + 8 * f.poison.toNat + 16 * (f.attempt % 4) + 64 * f.last.toNat) 1 ++
    toBytes f.length 2 ++ toBytes f.tag 4 ++ padded 32 (specBytes f) ++ toBytes (f.seq % 4096) 2 ++ toBytes 0 14

/-- A link control flit (R317). -/
def controlFlit (ack nak : Option Nat) (credit : List Nat) (train : Nat) : List Byte :=
  let seq (o : Option Nat) : List Byte := match o with
    | some n => toBytes (n % 4096 + 0x8000) 2
    | none => toBytes 0 2
  let b := seq ack ++ seq nak ++ padded 16 (credit.flatMap fun c => toBytes c 2) ++ toBytes train 2 ++ toBytes 0 38
  b ++ toBytes (crc32 b) 4

/-- A link control flit: the last frame accepted, a NAK, and the flits freed so far in each class.
[DEDUCED: assumption log 130, DESIGN CHOICE: assumption log 131] -/
def sendFlit (d : Dev) (p : Nat) (nak : Option Nat) : Dev :=
  let l := d.lport p
  let ack := some ((l.expect + 4095) % 4096)
  let credit := (List.range 8).map fun c => tabGet 0 l.freed c
  ((d.updLport p fun l => { l with unacked := 0, told := 0 }).emit (.flit p ack nak credit)).emit
    (.unit p 0x33 (controlFlit ack nak credit 0))

/-- Acknowledgement and credit go out at 64 frames and at 32 freed flits at the latest (R315, R316).
[DESIGN CHOICE: assumption log 131] -/
def flitDue (d : Dev) (p : Nat) : Dev := if 64 ≤ (d.lport p).unacked ∨ 32 ≤ (d.lport p).told then sendFlit d p none else d

/-- Credit of a received frame's flits returns once they leave the receive buffer (R316). [DEDUCED: assumption log 130] -/
def freeRx (d : Dev) (arrival : Option Nat) (cls len : Nat) : Dev :=
  match arrival with
  | none => d
  | some p =>
    flitDue ((d.sub F.lmlCred_rx_used len p cls).updLport p fun l => { l with
      freed := tabPut 0 l.freed cls ((tabGet 0 l.freed cls + len) % 2 ^ 16), told := l.told + len }) p

/-- A frame can leave a port now (R315, R316): the link is up, it holds credit for its whole length, and it fits the
retry buffer of 2,048 flits. -/
def canSend (d : Dev) (p : Nat) (f : Frame) : Bool :=
  (d.rd F.lmlStat_state p == 3 || (d.rd F.lmlStat_state p == 2 && f.ty == ftSpdm)) &&
    (d.lport p).resend.isEmpty && decide (f.length ≤ d.rd F.lmlCred_tx_avail p f.tc) && decide (d.rd F.lmlRetry_buf_used p + f.length ≤ 2048)

/-- A frame leaves a port: it takes the next sequence number, its credit and its place in the retry buffer (R315, R316), and is
encrypted where a secure session is in force (R334); `stomp` says that its trailer is stomped (R313). [DEDUCED: assumption log 129] -/
def sendAs (d : Dev) (p : Nat) (f : Frame) (arrival : Option Nat) (stomp : Bool) : Dev :=
  let f := { f with seq := d.rd F.lmlRetry_next_seq p, enc := d.flag F.lmlStat_secure p }
  let d := d.addWrap F.lmlRetry_next_seq 1 p
  let d := if (d.lport p).retry.isEmpty then d.wr F.lmlRetry_sends 1 p else d
  let d := d.addWrap F.lmlRetry_buf_used f.length p
  let d := d.sub F.lmlCred_tx_avail f.length p f.tc
  let d := d.updLport p fun l => { l with
    retry := l.retry ++ [{ f := f, arrival := arrival, stomp := stomp }], keyFrames := l.keyFrames + 1 }
  (d.emit (if stomp then .lomeyStomped p f else .lomey p f)).emit (.unit p 0x55 (headerFlit f))

def sendOn (d : Dev) (p : Nat) (f : Frame) (arrival : Option Nat) : Dev := sendAs d p f arrival false

/-- A frame put on a port: sent at once, or kept in order behind the frames of its class. -/
def putOn (d : Dev) (p : Nat) (tf : TxFrame) : Dev :=
  if canSend d p tf.f && !(d.lport p).txq.any (fun x => x.f.tc == tf.f.tc) then
    freeRx (sendOn d p tf.f tf.arrival) tf.arrival tf.f.tc tf.f.length
  else d.updLport p fun l => { l with txq := l.txq ++ [tf] }

/-- The NAK for a dropped frame (R314, R318-R321): reason 1 budget, 2 unreachable, 3 busy. -/
def nakFor (d : Dev) (f : Frame) (reason : Nat) : Frame :=
  { dest := f.src, src := ownAddr d, budget := 65535, tc := 3, ty := ftNak, enc := false, path := f.path, turned := false,
    poison := false, attempt := f.attempt, last := false, length := 2, tag := f.tag, seq := 0,
    spec := [reason, f.ty, f.spec.headD 0, ownAddr d], body := [] }

/-- A frame that starts here (R321): where no port leads to its destination it is dropped, and this device has the NAK.
[DEDUCED: assumption log 139] -/
def originate (d : Dev) (f : Frame) : Dev :=
  match routeOf d f.dest f.path f.turned none with
  | .send p => putOn d p ⟨f, none⟩
  | .consume => if f.ty = ftNak then { d with chain := { d.chain with selfNaks := d.chain.selfNaks ++ [f] } } else d
  | _ =>
    let d := d.setFlag F.lmlEvt_unreach_drop true
    if nakExempt f.ty then d else { d with chain := { d.chain with selfNaks := d.chain.selfNaks ++ [nakFor d f 2] } }

/-- A frame sent link-locally on one port. -/
def sendLocal (d : Dev) (p : Nat) (f : Frame) : Dev := putOn d p ⟨{ f with dest := linkLocal }, none⟩

/-- A frame dropped at port `p`: counted, its credit freed, and a NAK to its source unless its type is exempt. -/
def dropFrame (d : Dev) (p : Nat) (tf : TxFrame) (reason : Nat) : Dev :=
  let d := freeRx d tf.arrival tf.f.tc tf.f.length
  let d := if reason = 1 then (d.setFlag F.lmlEvt_budget_drop true p).addWrap F.lmlCnt_count 1 p 4
    else if reason = 2 then d.setFlag F.lmlEvt_unreach_drop true p else d
  if nakExempt tf.f.ty then d else originate d (nakFor d tf.f reason)

/-- Departure of a transit frame (R319): ceil(residence / 64 ns) leaves the budget; how long it resided is a free value of at
least 1 unit. [DEDUCED: assumption log 129] -/
def departTransit (d : Dev) (p : Nat) (tf : TxFrame) : Dev :=
  if canSend d p tf.f && !(d.lport p).txq.any (fun x => x.f.tc == tf.f.tc) then
    match tf.arrival with
    | none => putOn d p tf
    | some _ =>
      let (r, d) := d.draw
      if tf.f.budget ≤ r + 1 then dropFrame d p tf 1
      else freeRx (sendOn d p { tf.f with budget := tf.f.budget - (r + 1) } tf.arrival) tf.arrival tf.f.tc tf.f.length
  else d.updLport p fun l => { l with txq := l.txq ++ [tf] }

/-- A transit frame routed (R321). -/
def forwardFrame (d : Dev) (f : Frame) (arrival : Nat) : Dev :=
  match routeOf d f.dest f.path f.turned (some arrival) with
  | .consume => d
  | .send p => departTransit d p ⟨f, some arrival⟩
  | .uTurn p => departTransit d p ⟨{ f with turned := true }, some arrival⟩
  | .drop => dropFrame d arrival ⟨f, some arrival⟩ 2

/-- Frames to be replayed leave in order as far as credit allows; each counts and takes credit again (R315, R316). -/
def pumpReplay (d : Dev) (p : Nat) : Dev :=
  forEach (d.lport p).resend d fun d n =>
    match (d.lport p).retry.find? fun s => s.f.seq == n with
    | none => d.updLport p fun l => { l with resend := l.resend.filter fun k => k != n }
    | some s =>
      if (d.lport p).resend.head? = some n ∧ s.f.length ≤ d.rd F.lmlCred_tx_avail p s.f.tc then
        let d := (d.sub F.lmlCred_tx_avail s.f.length p s.f.tc).addWrap F.lmlCnt_count 1 p 1
        let d := d.updLport p fun l => { l with
          resend := l.resend.drop 1, keyFrames := l.keyFrames + 1,
          retry := listMapIf (fun x => x.f.seq == n) (fun x => { x with sends := x.sends + 1 }) l.retry }
        let d := d.wr F.lmlRetry_sends (((d.lport p).retry.head?.map (·.sends)).getD 0) p
        (d.emit (if s.stomp then .lomeyStomped p s.f else .lomey p s.f)).emit (.unit p 0x55 (headerFlit s.f))
      else d

/-- The frames waiting at a port leave as far as credit and retry buffer allow. -/
def pumpPort (d : Dev) (p : Nat) : Dev :=
  let d := pumpReplay d p
  let q := (d.lport p).txq
  forEach q (d.updLport p fun l => { l with txq := [] }) fun d tf => departTransit d p tf

/-- Everything queued or unacknowledged at a port is given up (R323). -/
def flushPort (d : Dev) (p : Nat) : Dev :=
  let q := (d.lport p).txq
  let d := forEach q d fun d tf => freeRx d tf.arrival tf.f.tc tf.f.length
  let d := (d.wr F.lmlRetry_buf_used 0 p).wr F.lmlRetry_sends 0 p
  d.updLport p fun l => { l with txq := [], retry := [], resend := [], nakAsked := false }

/-- A port goes DOWN with a cause (R323). -/
def portDown (d : Dev) (p cause : Nat) : Dev :=
  let d := flushPort d p
  let d := d.wr F.lmlStat_state 0 p
  let d := (d.setFlag F.lmlStat_secure false p).setFlag F.lmlStat_routed false p
  let d := d.updLport p fun l => { l with restoring := l.restoring || cause == 6 }
  d.wr F.lmlStat_down_cause cause p

/-- The link clock of a port has lost lock (R30). -/
def lmlClockLost (d : Dev) (p : Nat) : Bool := d.reset.lost.any fun c => match c with
  | .lml q => q.val == p
  | _ => false

/-- A port starts training, with its clock in lock (R30, R309, R323). -/
def portTrain (d : Dev) (p : Nat) : Dev :=
  if lmlClockLost d p then d.wr F.lmlStat_down_cause 3 p
  else
  let d := d.wr F.lmlStat_state 1 p
  let d := (d.wr F.lmlStat_rate (d.rd F.lmlCfg_rate p) p).wr F.lmlStat_down_cause 0 p
  (d.wr F.lmlStat_lanes 0 p).wr F.lmlStat_width 0 p

/-- A frame this device originates (R318): its budget, class and the path of its transaction. -/
def mkFrame (d : Dev) (dest ty tag : Nat) (path : Bool) (attempt budget : Nat) (spec body : List Nat) (payload : Nat) : Frame :=
  { dest := dest, src := ownAddr d, budget := budget, tc := classOf ty, ty := ty, enc := false, path := path, turned := false,
    poison := false, attempt := attempt, last := true, length := 2 + payload, tag := tag, seq := 0, spec := spec, body := body }

/-- The budget of a requester (R318): min(65,535, fixed_units + hop_units · h). -/
def budgetFor (d : Dev) (h : Nat) : Nat := min 65535 (d.rd F.lmlBudget_fixed_units + d.rd F.lmlBudget_hop_units * h)

/-- h for a node (R318): the larger hop count, or the primary one where there is no alternate path. -/
def hopsTo (n : ChainNode) : Nat := match n.alt with
  | some _ => max n.hops n.altHops
  | none => n.hops

end Sys2Proof.Machine
end

