-- ==== Sys2Proof/Machine/BusOps.lean ====
section
/-! DEFINITION. Responses of the control-plane bus (R7, R15, R446) and the memory error records shared by every unit
(R341, R346). -/
namespace Sys2Proof.Machine

/-- The number GLB_BUS_ERR.requester gives a requester. -/
def reqNum : Requester → Nat
  | .core c => c.val
  | .bar2 h => 8 + h.val
  | .dbg => 10

def isBar2 : Requester → Bool
  | .bar2 _ => true
  | _ => false

def isDbg : Requester → Bool
  | .dbg => true
  | _ => false

/-- All ones, which a refused read returns. -/
def allOnes : Nat := 2 ^ 64 - 1

/-- The bus-error event (R15): event 3. -/
def evBusError : Nat := 3

/-- A failed access: error response, and the record of GLB_BUS_ERR with its cause; a later failure overwrites it. -/
def busError (d : Dev) (rq : Requester) (addr : Nat) (isWrite : Bool) (cause : Nat) : Dev :=
  let d := d.wr F.glbBusErr_addr addr
  let d := d.wr F.glbBusErr_requester (reqNum rq)
  let d := d.setFlag F.glbBusErr_write isWrite
  let d := d.wr F.glbBusErr_cause cause
  let d := d.setFlag F.glbBusErr_valid true
  let d := d.addSat F.glbBusErr_count 1
  (d.emit (.event evBusError cause)).emit (.bus (reqNum rq) false allOnes)

/-- An access that completes without error. -/
def busOk (d : Dev) (rq : Requester) (data : Nat) : Dev := d.emit (.bus (reqNum rq) true data)

/-- The hard-fault event (R346): event 4. -/
def evHardFault : Nat := 4

/-- A row becomes a hard-fault candidate (R346): logged, counted, and an event. -/
def hardFaultCandidate (d : Dev) (mac row : Nat) : Dev :=
  let d := d.wr F.eccHardLog_mac mac
  let d := d.wr F.eccHardLog_row row
  let d := d.setFlag F.eccHardLog_valid true
  let d := d.addSat F.eccHardLog_count 1
  d.emit (.event evHardFault mac)

/-- Memory class of a macro (R339): 0 for DRAM (0x3FF), 1-7 for the macro ranges. -/
def eccClass (mac : Nat) : Nat :=
  if mac = 0x3FF then 0 else if mac < 256 then 1 else if mac < 264 then 2 else if mac < 272 then 3
  else if mac < 280 then 4 else if mac < 288 then 5 else if mac < 304 then 6 else 7

/-- ECC_LOG takes an error while nothing is logged; an error met while valid is 1 sets overflow (R341). -/
def eccLog (d : Dev) (mac addr syndrome kind : Nat) : Dev :=
  if d.flag F.eccLog_valid then d.setFlag F.eccLog_overflow true
  else
    let d := d.wr F.eccLog_addr addr
    let d := d.wr F.eccLog_mac mac
    let d := d.wr F.eccLog_syndrome syndrome
    let d := d.wr F.eccLog_kind kind
    d.setFlag F.eccLog_valid true

/-- The armed injection (ECC_INJ), used by a write of `n` bytes of a macro from `lo` that meets its target (R342).
[DESIGN CHOICE: assumption log 30] -/
def useInjection (d : Dev) (mac lo n : Nat) : Option (Nat × Nat) × Dev :=
  let a := d.rd F.eccInj_addr
  if d.flag F.eccInj_armed && d.rd F.eccInj_mac == mac && decide (lo ≤ a ∧ a < lo + n) then
    (some (a, d.rd F.eccInj_kind), d.setFlag F.eccInj_armed false)
  else (none, d)

end Sys2Proof.Machine
end

