-- ==== Sys2Proof/Machine/MacOps.lean ====
section
/-! DEFINITION. Memory macros and the DRAM as their readers and writers meet them: errors, markers and injections (R337-R342, R346). -/
namespace Sys2Proof.Machine

def Dev.updEcc (d : Dev) (g : EccState → EccState) : Dev := { d with ecc := g d.ecc }

/-- Rows of a macro (R339). -/
def macRows (mac : Nat) : Nat :=
  if mac < 256 then 2048 else if mac < 264 then 512 else if mac < 280 then 2048 else if mac < 288 then 8192
  else if mac < 304 then 16384 else if mac < 308 then 6144 else 4096

/-- The row of a byte: 64 data bytes, or four 17-byte words of a control store. -/
def macRow (mac addr : Nat) : Nat := if 272 ≤ mac ∧ mac < 280 then addr / 68 else addr / 64

/-- Whether a macro number names an SRAM macro with per-byte SEC-DED. -/
def secDedMac (mac : Nat) : Bool := decide (mac < 316) && !(decide (272 ≤ mac) && decide (mac < 280))

/-- A marker written (R337, R340). -/
def putMark (d : Dev) (mac addr : Nat) : Dev :=
  let k := mac * 2 ^ 36 + addr
  (d.updEcc fun e => { e with marks := tabPut 0 e.marks k 1 }).addSat F.eccPcnt_marked 1

/-- The watch entry meets a correctable error (R346). -/
def watchError (d : Dev) (mac addr : Nat) : Dev :=
  match tabGet none d.ecc.watch mac with
  | some w =>
    if w.byte = addr && w.written then hardFaultCandidate d mac (macRow mac addr)
    else d.updEcc fun e => { e with watch := tabPut none e.watch mac (some { byte := addr, written := false }) }
  | none => d.updEcc fun e => { e with watch := tabPut none e.watch mac (some { byte := addr, written := false }) }

/-- A write of `n` bytes of a macro sets the written flag of its watched byte (R346), replaces what was there and takes an armed
injection (R342). [DESIGN CHOICE: assumption log 30] -/
def macWritten (d : Dev) (mac lo n : Nat) : Dev :=
  let here (k : Nat) : Bool := decide (mac * 2 ^ 36 + lo ≤ k ∧ k < mac * 2 ^ 36 + lo + n)
  let d := d.updEcc fun e => { e with
    marks := e.marks.filter (fun m => !here m.1),
    planted := e.planted.filter (fun p => !here (p.1 * 2 ^ 36 + p.2.1)),
    watch := match tabGet none e.watch mac with
      | some w => if decide (lo ≤ w.byte ∧ w.byte < lo + n) then tabPut none e.watch mac (some { w with written := true }) else e.watch
      | none => e.watch }
  match useInjection d mac lo n with
  | (none, d) => d
  | (some (a, kind), d) =>
    if kind = 2 then putMark d mac a else d.updEcc fun e => { e with planted := (mac, a, kind) :: e.planted }

/-- A memory read met an error (R337, R340, R341, R346): counted, logged, watched; an uncorrectable one leaves a marker.
-/
def memError (d : Dev) (e : MemErr) : Dev :=
  match e.kind with
  | .correctable =>
    let d := eccLog (d.addSat F.eccCe_count 1 0 (eccClass e.mac)) e.mac e.addr e.syndrome 0
    if secDedMac e.mac then watchError d e.mac e.addr else d
  | .uncorrectable =>
    let d := eccLog (d.addSat F.eccUe_count 1 0 (eccClass e.mac)) e.mac e.addr e.syndrome 1
    let d := putMark (cardCount d 15 1) e.mac e.addr
    if e.mac < 316 then hardFaultCandidate d e.mac (macRow e.mac e.addr) else d
  | .marker => eccLog (d.addSat F.eccPcnt_marker_reads 1) e.mac e.addr e.syndrome 2

/-- What a read delivers poisoned. -/
def errPoisons (e : MemErr) : Bool := e.kind != .correctable

/-- The errors a read of `n` bytes of a macro meets from injections and markers that lie there; their syndromes are the
code's own and free here. [DESIGN CHOICE: assumption log 30] -/
def plantedErrors (d : Dev) (mac lo n : Nat) : List MemErr × Dev :=
  let here (k : Nat) : Bool := decide (mac * 2 ^ 36 + lo ≤ k ∧ k < mac * 2 ^ 36 + lo + n)
  let ms := (d.ecc.marks.filter fun m => here m.1).map fun m => (m.1 % 2 ^ 36, ErrKind.marker)
  let ps := (d.ecc.planted.filter fun p => here (p.1 * 2 ^ 36 + p.2.1)).map fun p =>
    (p.2.1, if p.2.2 = 0 then ErrKind.correctable else .uncorrectable)
  (ms ++ ps).foldl (fun (acc : List MemErr × Dev) x =>
    let r := acc.2.draw
    (acc.1 ++ [{ mac := mac, addr := x.1, kind := x.2, syndrome := if x.2 = .marker then (if mac = 0x3FF then 0xFF else 3)
      else if mac = 0x3FF then r.1 % 256 else r.1 % 32 }], r.2)) ([], d)

/-- A read of `n` bytes of a macro: whether it is delivered poisoned, and the device with its errors counted; a word written
back with the marker no longer holds the injected error. -/
def macRead (d : Dev) (mac lo n : Nat) : Bool × Dev :=
  let es := plantedErrors d mac lo n
  let d := forEach es.1 es.2 memError
  (es.1.any errPoisons, d.updEcc fun e => { e with planted := e.planted.filter fun p =>
    !(p.1 == mac && p.2.2 != 0 && decide (lo ≤ p.2.1 ∧ p.2.1 < lo + n)) })

end Sys2Proof.Machine
end

