-- ==== Sys2Proof/Machine/HostOps.lean ====
section
/-! DEFINITION. What host commands share: contexts and range locks, completions and notices, the write buffer with its covered
and superseded data, zones and their write pointers, and reads from buffer and media (R69-R92, R116-R133, R450). -/
namespace Sys2Proof.Machine

/-! ### Statuses: type · 0x100 + code, 0x4000 for Do Not Retry (R108; NVM Express names, assumption log 6) -/
/-- [DEDUCED: assumption log 189] -/
def stInvalidOpcode : Nat := 0x001
def stInvalidField : Nat := 0x002
def stAborted : Nat := 0x007
def stInvalidNs : Nat := 0x00B
def stSequence : Nat := 0x00C
def stSanitizeFailed : Nat := 0x01C
def stSanitizing : Nat := 0x01D
def stLbaRange : Nat := 0x080
def stNsNotReady : Nat := 0x082
def stInvalidQid : Nat := 0x101
def stInvalidQsize : Nat := 0x102
def stInvalidSlot : Nat := 0x106
def stInvalidImage : Nat := 0x107
def stInvalidLog : Nat := 0x109
def stNotChangeable : Nat := 0x10E
def stMaxTime : Nat := 0x112
def stCapacity : Nat := 0x115
def stNsIdUnavail : Nat := 0x116
def stAttached : Nat := 0x118
def stNotAttached : Nat := 0x11A
def stCtrlList : Nat := 0x11C
def stUnrecovered : Nat := 0x281
def stCompare : Nat := 0x285
def stAccessDenied : Nat := 0x286
def stZoneBoundary : Nat := 0x1B8
def stZoneFull : Nat := 0x1B9
def stZoneReadOnly : Nat := 0x1BA
def stZoneOffline : Nat := 0x1BB
def stZoneInvalidWrite : Nat := 0x1BC
def stTooManyActive : Nat := 0x1BD
def stTooManyOpen : Nat := 0x1BE
def stZoneTransition : Nat := 0x1BF
def stNoSpace : Nat := 0x4780
def stCheckFail : Nat := 0x4781
def stPoison : Nat := 0x782
def stBudget : Nat := 0x783
def stUnreachable : Nat := 0x784
def stNotReady : Nat := 0x785
def stPending : Nat := 0x786
def stDetention : Nat := 0x4787
def stKeyEmpty : Nat := 0x4788
def stWriteFault : Nat := 0x4789

/-! ### Access to the host side -/
def Dev.updHost (d : Dev) (g : HostState → HostState) : Dev := { d with host := g d.host }
def Dev.updExtents (d : Dev) (g : List Extent → List Extent) : Dev := d.updHost fun x => { x with extents := g x.extents }
def Dev.updTasks (d : Dev) (g : List MTask → List MTask) : Dev := d.updHost fun x => { x with tasks := g x.tasks }
def Dev.port (d : Dev) (h : Nat) : Port := tabGet {} d.host.ports h
def Dev.updPort (d : Dev) (h : Nat) (g : Port → Port) : Dev :=
  d.updHost fun x => { x with ports := tabPut {} x.ports h (g (d.port h)) }
def Dev.ctx? (d : Dev) (id : Nat) : Option Ctx := d.host.ctxs.find? fun x => x.id == id
def Dev.updCtx (d : Dev) (id : Nat) (g : Ctx → Ctx) : Dev :=
  d.updHost fun x => { x with ctxs := listMapIf (fun c => c.id == id) g x.ctxs }
def Dev.ns? (d : Dev) (nsid : Nat) : Option Ns := d.host.nss.find? fun x => x.nsid == nsid
def Dev.updNs (d : Dev) (nsid : Nat) (g : Ns → Ns) : Dev :=
  d.updHost fun x => { x with nss := listMapIf (fun c => c.nsid == nsid) g x.nss }
def Dev.zone? (d : Dev) (nsid z : Nat) : Option Zone := (d.ns? nsid).bind fun ns => ns.zones[z]?
def Dev.updZone (d : Dev) (nsid z : Nat) (g : Zone → Zone) : Dev :=
  d.updNs nsid fun ns => { ns with zones := ns.zones.modify z g }

/-- The media table key of a logical block. -/
def blkKey (nsid lba : Nat) : Nat := lba * 1024 + nsid % 1024
def Dev.mediaBlk (d : Dev) (nsid lba : Nat) : MediaBlk := tabGet {} d.host.media (blkKey nsid lba)
def Dev.setMedia (d : Dev) (nsid lba : Nat) (b : MediaBlk) : Dev :=
  d.updHost fun x => { x with media := tabPut {} x.media (blkKey nsid lba) b }

/-- Local namespace number and node index of an NSID (R97). -/
def nsidNode (nsid : Nat) : Nat := nsid / 1024 % 2 ^ 20
def nsidLocal (nsid : Nat) : Nat := nsid % 1024

/-! ### What D counts (R83, R119, R127, R129, R293) -/

/-- The copies that an extent holds, each with its LBA: of each block its own, then those that it superseded and may yet return. -/
def Extent.copies (e : Extent) : List (Nat × BufCopy) := e.cells.flatMap fun c => (c.lba, c.now) :: c.under.map fun u => (c.lba, u)

/-- Every copy in the write buffer. -/
def copiesOf (d : Dev) : List (Nat × BufCopy) := d.host.extents.flatMap Extent.copies

/-- A copy counts in D of an HDA: covered and not on media, at home or on locker tracks. [DEDUCED: assumption log 50] -/
def BufCopy.dirty (c : BufCopy) (n : Nat) : Bool := c.covered && !c.safe && c.hda == n

/-- Data waiting for coverage on an HDA, in 4 KiB units. [DEDUCED: assumption log 51] -/
def waitingOf (d : Dev) (n : Nat) : Nat := ((copiesOf d).filter fun c => !c.2.covered && c.2.hda == n).length

/-- Map journal records of an HDA. -/
def journalOf (d : Dev) (n : Nat) : Nat := (d.host.journal.filter fun j => j.hda == n).length

/-- D_n in 4 KiB units: covered copies and the other buffered bytes that count (R83, R119, R127, R129); the journal's records take
8 bytes each. [DEDUCED: assumption log 51] -/
def dirtyOf (d : Dev) (n : Nat) : Nat :=
  ((copiesOf d).filter fun c => c.2.dirty n).length + ((d.host.held.filter fun x => x.hda == n).map (·.units)).sum +
    (journalOf d n + 511) / 512

def dirtyAll (d : Dev) : Nat := ((List.range 4).map (dirtyOf d)).sum

/-- Every copy that a write placed and that is still in the buffer is covered. -/
def whollyCovered (d : Dev) (wid : Nat) : Bool := (copiesOf d).all fun c => c.2.wid != wid || c.2.covered

/-- A copy of a write still waits for the media: it is in the buffer and not on locker tracks. -/
def inBuffer (d : Dev) (wid : Nat) : Bool := (copiesOf d).any fun c => c.2.wid == wid && !c.2.safe

/-- A map update is appended to the map journal (R127): the unit's blocks as the map now gives them. -/
def mapUpdate (d : Dev) (nsid unit hda : Nat) (buffered : Bool) : Dev :=
  let blks := (List.range 8).map fun k => d.mediaBlk nsid (8 * unit + k)
  d.updHost fun s => { s with journal := s.journal ++ [{ nsid := nsid, unit := unit, hda := hda, buffered := buffered, blks := blks }] }

/-- B_n and B as PWR_HOLD_B and HST_BOUND hold them. -/
def boundOf (d : Dev) (n : Nat) : Nat := d.rd F.pwrHoldB_bound 0 n
def boundAll (d : Dev) : Nat := d.rd F.hstBound_bound 0

/-- Contexts of a port in use (R73). -/
def ctxInUse (d : Dev) (h : Nat) : Nat :=
  (d.port h).adminUsed + (d.host.ctxs.filter fun x => match x.org with
    | .host g _ _ => g == h
    | _ => false).length

/-- Transit contexts in use (R75). -/
def transitInUse (d : Dev) : Nat :=
  (d.host.ctxs.filter fun x => match x.org with
    | .chain _ _ _ _ => true
    | _ => false).length

def locksInUse (d : Dev) : Nat := (d.host.ctxs.map fun x => x.locks.length).sum

/-- The read-only views of the host side: HSTn_CTX_STAT, HSTn_RLT_STAT, HSTn_BOUND, PWR_HOLD_Bn. -/
def syncHost (d : Dev) : Dev :=
  let d := forEach [0, 1] d fun d h =>
    let d := d.wr F.hstCtxStat_in_use (ctxInUse d h) h
    let d := d.wr F.hstRltStat_in_use (locksInUse d) h
    d.wr F.hstBound_dirty (dirtyAll d) h
  forEach [0, 1, 2, 3] d fun d n => d.wr F.pwrHoldB_dirty (dirtyOf d n) 0 n

/-! ### Notices (Asynchronous Event Requests) -/
/-- [PRESUMED: assumption log 45] -/
def ntFirmware : Nat := 0x0102
def ntTelemetry : Nat := 0x0202
def ntZone : Nat := 0xEF02
def ntTemp : Nat := 0x0101
def ntActivated : Nat := 0x0007
def ntDetentionFull : Nat := 0x0107
def ntRemap : Nat := 0x0207
def ntSpindle : Nat := 0x0307
def ntHealth : Nat := 0x0407

/-- A notice completes an outstanding Asynchronous Event Request, or waits for one. [PRESUMED: assumption log 45] -/
def postNotice (d : Dev) (h notice : Nat) : Dev :=
  match (d.port h).aers with
  | cid :: rest =>
    syncHost (((d.updPort h fun p => { p with aers := rest, adminUsed := p.adminUsed - 1 }).emit
      (.cqe h 0 cid 0 notice)).emit (.aen h notice))
  | [] => d.updPort h fun p => { p with notices := if p.notices.contains notice then p.notices else p.notices ++ [notice] }

/-- A notice to every used controller. [PRESUMED: assumption log 45] -/
def noticeAll (d : Dev) (notice : Nat) : Dev := forEach (usedPorts d) d fun d h => postNotice d h notice

/-- A notice posted only on controllers with an outstanding request (R67, R95). [PRESUMED: assumption log 45] -/
def noticeOutstanding (d : Dev) (notice : Nat) : Dev :=
  forEach [0, 1] d fun d h => if (d.port h).aers.isEmpty then d else postNotice d h notice

/-! ### Completions -/

/-- The CPL frame of a transaction (R314, R325): CQE dwords 0-3 and the data bytes sent. -/
def cplFrame (d : Dev) (e : Dedupe) (status dw0 bytes : Nat) (body : List Nat) : Frame :=
  mkFrame d e.src ftCpl e.tag e.path e.attempt e.rbudget [dw0, 0, 0, status, bytes] body (if body.isEmpty then 0 else 1)

/-- The response of a command from a chain root: CPL is sent and the dedupe entry becomes DONE (R325, R327). -/
def chainRespond (d : Dev) (src tag status dw0 : Nat) (body : List Nat) : Dev :=
  match d.chain.dedupe.find? fun e => e.src == src && e.tag == tag && e.active with
  | none => d
  | some e =>
    let f := cplFrame d e status dw0 e.bytes body
    originate { d with chain := { d.chain with
      dedupe := listMapIf (fun x => x.src == src && x.tag == tag && x.active)
        (fun x => { x with active := false, cpl := some f }) d.chain.dedupe } } f

/-- Read-class and write-class commands (R169, R98). -/
def readsData : IoKind → Bool
  | .read | .compare | .verify | .compRead => true
  | _ => false
def writesData : IoKind → Bool
  | .write | .writeZeroes | .writeUncorrectable | .append | .compAppend | .deallocate | .copy => true
  | _ => false

/-- Bytes that a command brings with it (R325). -/
def dataWanted (c : IoCmd) : Nat := match c.kind with
  | .write | .append | .compare | .compAppend => c.count * 4096
  | .ctxRestore => 33792
  | _ => 0

/-- The data of a command from a chain root has arrived whole. -/
def chainReady (d : Dev) (x : Ctx) : Bool :=
  match x.org with
  | .chain _ src tag _ => dataWanted x.c == 0 || d.chain.dedupe.any fun e =>
      e.src == src && e.tag == tag && e.active && e.want != 0 && decide (e.want ≤ e.got.length * 4096)
  | _ => true

/-- How data travels in frames of at most 4,096 bytes (R314): offset, bytes and content; a report or data structure in one.
[DEDUCED: assumption log 138] -/
def dataParts (k : IoKind) (toks : List Nat) : List (Nat × Nat × List Nat) :=
  match k with
  | .zoneReport | .identify => [(0, 4096, toks)]
  | .ctxSave | .ctxRestore => toks.zipIdx.map fun ti => (ti.2 * 4096, min 4096 (33792 - ti.2 * 4096), [ti.1])
  | _ => toks.zipIdx.map fun ti => (ti.2 * 4096, 4096, [ti.1])

/-- Data returned to the requester: to host memory, or as RDATA frames (R325); in class 4 where a Copy reads (R330). -/
def returnData (d : Dev) (x : Ctx) (toks : List Nat) : Dev :=
  match x.org with
  | .host h qid cid => d.emit (.hostData h qid cid toks)
  | .internal | .gone => d
  | .chain _ src tag _ =>
    match d.chain.dedupe.find? fun e => e.src == src && e.tag == tag && e.active with
    | none => d
    | some e =>
      let parts := dataParts x.c.kind toks
      let mine (y : Dedupe) : Bool := y.src == src && y.tag == tag && y.active
      let told (y : Dedupe) : Dedupe := { y with bytes := (parts.map (·.2.1)).sum }
      let d : Dev := { d with chain := { d.chain with dedupe := listMapIf mine told d.chain.dedupe } }
      forEach parts.zipIdx d fun d ti =>
        originate d { mkFrame d e.src ftRdata e.tag e.path e.attempt e.rbudget [ti.1.1, ti.1.2.1] ti.1.2.2 ((ti.1.2.1 + 63) / 64) with
          last := ti.2 + 1 == parts.length, tc := if x.c.kind == .read && x.c.cont then 4 else 2 }

/-- The read-only views of compression and cipher: engines and their direction, chunks that wait, cores, cached keys. -/
def syncWork (d : Dev) : Dev :=
  let bits (l : List Nat) : Nat := (List.range 8).foldl (fun b e => if l.contains e then b + 2 ^ e else b) 0
  let reads (id : Nat) : Bool := (d.ctx? id).any fun x => x.c.kind == .compRead
  let d := d.wr F.cmpEngStat_busy (bits (d.comp.engines.map (·.1)))
  let d := d.wr F.cmpEngStat_decomp (bits ((d.comp.engines.filter fun e => reads e.2).map (·.1)))
  let d := d.wr F.cmpEngStat_waiting
    (satTo 12 (d.comp.waiting.filter fun i => (d.ctx? i).any fun x => x.stage == .engine).length)
  let d := d.wr F.cphStat_busy (bits (d.cipher.jobs.map (·.1)))
  d.wr F.cphStat_cache_used d.cipher.cache.length

/-- A forwarded command that ends at the root before CPL: CANCEL is sent (R325). -/
def cancelRemote (d : Dev) (id : Nat) : Dev :=
  match d.chain.root.find? fun t => t.id == id with
  | none => d
  | some t =>
    let d : Dev := { d with chain := { d.chain with root := d.chain.root.filter fun u => u.tag != t.tag } }
    originate d (mkFrame d t.addr ftCancel t.tag t.path t.attempt t.cmd.budget [] [] 0)

/-- The frame a command has built or read (R145). -/
def frameOf (d : Dev) (id : Nat) : Option CFrame := (d.comp.frames.find? fun f => f.1 == id).map (·.2)
def putFrame (d : Dev) (id : Nat) (f : CFrame) : Dev :=
  { d with comp := { d.comp with frames := d.comp.frames.filter (fun x => x.1 != id) ++ [(id, f)] } }

/-- A command that ends leaves the context queues, the engines, the cipher cores and its transaction with another node. -/
def dropWork (d : Dev) (id : Nat) : Dev :=
  let d := cancelRemote d id
  syncWork { d with
    comp := { d.comp with
      queues := (d.comp.queues.map fun q => (q.1, q.2.filter fun i => i != id)).filter fun q => !q.2.isEmpty,
      waiting := d.comp.waiting.filter fun i => i != id,
      engines := d.comp.engines.filter fun e => e.2 != id,
      frames := d.comp.frames.filter fun f => f.1 != id },
    cipher := { d.cipher with
      waitJobs := d.cipher.waitJobs.filter fun i => i != id,
      parked := d.cipher.parked.filter fun j => j.id != id,
      jobs := d.cipher.jobs.filter fun j => match j.2 with
        | some x => x.id != id
        | none => false } }

/-- The completion record of R101: its 48 bytes as six little-endian words. -/
def completionRecord (d : Dev) (x : Ctx) : List Nat :=
  match frameOf d x.id with
  | some f => [x.zw.getD 0, f.compLen + x.c.stored * 2 ^ 32, f.crcOrig, f.nonce % 2 ^ 64, f.nonce / 2 ^ 64, 0]
  | none => []

/-- The command at the head of a fetch engine. -/
def feHead (d : Dev) (fe : Nat) : Option Ctx := d.host.ctxs.find? fun x => x.fe == fe && x.stage == .fetched

/-- A command leaves the context table.  Where it waited at the head of its fetch engine for entries, nothing waits there any more
(R79). -/
def leaveTable (d : Dev) (x : Ctx) : Dev :=
  let headed := (feHead d x.fe).any fun y => y.id == x.id
  let d := if headed then forEach [0, 1] d fun d h => d.setBit F.hstRltStat_blocked x.fe false h else d
  d.updHost fun s => { s with
    ctxs := s.ctxs.filter (fun c => c.id != x.id), order := s.order.filter (fun i => i != x.id),
    tasks := s.tasks.filter fun t => t.kind != .read x.id }

/-- The completion of a command: posted, its context and range locks released (R73, R79, R83). -/
def finish (d : Dev) (id status dw0 : Nat) : Dev :=
  match d.ctx? id with
  | none => d
  | some x =>
    let record := if x.c.kind == .compAppend && status == 0 then completionRecord d x else []
    let d := dropWork (leaveTable d x) id
    let d := match x.org with
      | .host h qid cid => d.emit (.cqe h qid cid status dw0)
      | .chain _ src tag _ => chainRespond d src tag status dw0 record
      | .internal | .gone => d
    syncHost d

/-- Discard without a completion (R91, R94, R300). -/
def discardCtx (d : Dev) (id : Nat) : Dev :=
  match d.ctx? id with
  | none => dropWork d id
  | some x => dropWork (leaveTable d x) id

/-! ### Range locks (R78-R82) -/

/-- The write pointer of a zone as a namespace LBA. -/
def zonePtr (d : Dev) (nsid slba : Nat) : Nat :=
  match d.ns? nsid with
  | none => slba
  | some ns =>
    match ns.zones[slba / max 1 (zoneSize d ns)]? with
    | some z => slba / max 1 (zoneSize d ns) * zoneSize d ns + z.wp
    | none => slba

/-- The LBAs an entry holds now: while its placement is open its start is the zone's write pointer (R78). -/
def Lock.now (d : Dev) (l : Lock) : Nat × Nat := (if l.follow then max l.lo (zonePtr d l.nsid l.lo) else l.lo, l.hi)

def locksMeet (d : Dev) (a b : Lock) : Bool :=
  a.nsid == b.nsid && decide ((a.now d).1 < (b.now d).2 ∧ (b.now d).1 < (a.now d).2)

/-- The data of an earlier command lies wholly in the write buffer (R80). [DEDUCED: assumption log 52] -/
def dataIn (x : Ctx) : Bool := match x.stage with
  | .buffered => true
  | .media | .flushing => match x.c.kind with
    | .write | .writeZeroes | .writeUncorrectable | .append | .compAppend | .copy => true
    | _ => false
  | _ => false

/-- A pair of overlapping entries lets the later command start (R80); at the root of a remote command it waits for
completion (R82). [DEDUCED: assumption log 52] -/
def mayPass (later earlier : Lock) (x : Ctx) : Bool :=
  if !later.excl && !earlier.excl then true
  else if nsidNode later.nsid != 0 then false
  else if later.excl && !earlier.excl then false
  else dataIn x

/-- The contexts inserted before one in the range-lock table, in insertion order. -/
def earlierCtxs (d : Dev) (id : Nat) : List Ctx :=
  (d.host.order.takeWhile fun i => i != id).filterMap d.ctx?

/-- A command is compatible with every earlier overlapping entry (R80); Zone Reset and Zone Offline do not wait for Homework
(R129 step 4). [DEDUCED: assumption log 52] -/
def lockFree (d : Dev) (x : Ctx) : Bool :=
  let overHomework := match x.c.kind with
    | .zone .resetZone _ | .zone .offlineZone _ => true
    | _ => false
  (earlierCtxs d x.id).all fun y => (overHomework && y.org == .internal) || x.locks.all fun l => y.locks.all fun e => !locksMeet d l e || mayPass l e y

/-! ### The write buffer (R80-R88) -/

/-- Superseding of one block (R80): it leaves the extent that holds it; the copies it held return on a later discard.
[DEDUCED: assumption log 50] -/
def takeCell (d : Dev) (nsid lba : Nat) : List BufCopy × Dev :=
  match d.host.extents.find? fun e => e.nsid == nsid && e.cells.any fun c => c.lba == lba with
  | none => ([], d)
  | some e =>
    let old := match e.cells.find? fun c => c.lba == lba with
      | some c => c.now :: c.under
      | none => []
    (old, d.updExtents fun l =>
      (listMapIf (fun x => x.wid == e.wid && x.nsid == nsid)
        (fun x => { x with cells := x.cells.filter fun c => c.lba != lba }) l).filter fun x => !x.cells.isEmpty)

/-- A write's blocks placed in the buffer, each an LBA and a copy: the new extent takes its place at the end of the admission order
(R84). [DEDUCED: assumption log 50] -/
def placeExtent (d : Dev) (wid nsid : Nat) (cells : List (Nat × BufCopy)) : Dev :=
  let seq := d.host.nextSeq
  let r := cells.foldl (fun (acc : List BufCell × Dev) c =>
    let t := takeCell acc.2 nsid c.1
    (acc.1 ++ [{ lba := c.1, now := { c.2 with wid := wid, seq := seq }, under := t.1 }], t.2)) ([], d)
  r.2.updHost fun s => { s with
    nextSeq := seq + 1, extents := s.extents ++ [{ wid := wid, nsid := nsid, seq := seq, cells := r.1 }] }

/-- An extent at its place in the admission order. -/
def insertExtent (e : Extent) (l : List Extent) : List Extent :=
  l.takeWhile (fun x => decide (x.seq < e.seq)) ++ e :: l.dropWhile fun x => decide (x.seq < e.seq)

/-- The blocks of a write that never was wholly covered are discarded and their LBAs keep their previous contents
(R88): what they superseded returns to its extent. [DEDUCED: assumption log 50] -/
def restoreCell (d : Dev) (nsid : Nat) (c : BufCell) : Dev :=
  match c.under with
  | [] => d
  | u :: rest =>
    let cell : BufCell := { lba := c.lba, now := u, under := rest }
    if d.host.extents.any fun e => e.wid == u.wid && e.nsid == nsid then
      d.updExtents (listMapIf (fun e => e.wid == u.wid && e.nsid == nsid) fun e => { e with cells := e.cells ++ [cell] })
    else d.updExtents (insertExtent { wid := u.wid, nsid := nsid, seq := u.seq, cells := [cell] })

/-- Reads that wait for extents none of which is left start again (R81). [DEDUCED: assumption log 62] -/
def rearmReads (d : Dev) : Dev :=
  let served (x : Ctx) : Bool := x.stage == .overlap && !x.pend.any fun w => d.host.extents.any fun e => e.wid == w
  d.updHost fun s => { s with ctxs := listMapIf served (fun x => { x with stage := .locked, pend := [] }) s.ctxs }

/-- The data of a write leaves the buffer, and what it superseded returns. [DEDUCED: assumption log 50] -/
def discardData (d : Dev) (wid : Nat) : Dev :=
  let es := d.host.extents.filter fun e => e.wid == wid
  let d := d.updHost fun s => { s with
    extents := (s.extents.filter fun e => e.wid != wid).map (fun e =>
      { e with cells := e.cells.map fun c => { c with under := c.under.filter fun u => u.wid != wid } }),
    tasks := s.tasks.filter fun t => t.kind != .destage wid && t.kind != .locker wid }
  rearmReads (forEach es d fun d e => forEach e.cells d fun d c => restoreCell d e.nsid c)

/-- The buffered block of an LBA, or none. -/
def Dev.bufCell (d : Dev) (nsid lba : Nat) : Option BufCell :=
  (d.host.extents.find? fun e => e.nsid == nsid && e.cells.any fun c => c.lba == lba).bind fun e =>
    e.cells.find? fun c => c.lba == lba

/-! ### Keys of the media (R157, R158, R165) -/

/-- A wrapped-key slot. [DESIGN CHOICE: assumption log 9] -/
def Dev.slot (d : Dev) (i : Nat) : KeySlot := tabGet {} d.cipher.slots i

/-- The locking range that contains a block (R165). -/
def rangeOf (d : Dev) (nsid lba : Nat) : Option KeyRange :=
  d.cipher.ranges.find? fun r => r.nsid == nsid && decide (r.lo ≤ lba ∧ lba < r.hi)

/-- XTS slot pair of a locking range: pairs 1,024 - 1,087 (assumption log 9). -/
def rangePair (r : Nat) : Nat := 1024 + r

/-- The slot pair of a data unit (R165): by key tag, by locking range, else the namespace's own; none where a tag maps to
no pair. [DESIGN CHOICE: assumption log 9, DEDUCED: assumption log 89] -/
def pairOf (d : Dev) (ns : Ns) (tag lba : Nat) : Option Nat :=
  if ns.kpio then
    let t := tabGet 0 d.cipher.tags (ns.nsid * 65536 + tag)
    if t = 0 then none else some (t - 1)
  else match rangeOf d ns.nsid lba with
    | some r => some (rangePair r.idx)
    | none => some (tabGet 0 d.cipher.nsPair ns.nsid)

/-- The keys of a slot pair, by their wrapped images; none for a class that stores its data in the clear (R157). -/
def pairKeys (d : Dev) (ns : Ns) (pair : Nat) : Option (Nat × Nat) :=
  if classXts d ns.cls then some ((d.slot (2 * pair)).wrapped, (d.slot (2 * pair + 1)).wrapped) else none

/-- The tweak of a sector (R158): its namespace-local LBA as a 128-bit little-endian number. -/
def tweakOf (lba : Nat) : List Byte := toBytes lba 16

/-- A sector read under keys other than those it was written with: its ciphertext decrypted with them (R158, R165). -/
def recrypt (written asked : Option (Nat × Nat)) (lba data : Nat) : Nat :=
  let stored := match written with
    | some k => Config.xtsEnc k (tweakOf lba) data
    | none => data
  match asked with
  | some k => Config.xtsDec k (tweakOf lba) stored
  | none => stored

/-- What a block on media reads as under keys (R157). -/
def MediaBlk.readUnder (m : MediaBlk) (keys : Option (Nat × Nat)) (lba : Nat) : Blk :=
  if !m.mapped || m.keys == keys then m.blk
  else match m.blk with
    | .data t => .data (recrypt m.keys keys lba t)
    | b => b

/-- What an LBA holds for a command with a key tag: the buffered copy, else the media (R81). -/
def Dev.readBlk (d : Dev) (nsid tag lba : Nat) : Blk :=
  match d.bufCell nsid lba, d.ns? nsid with
  | some c, _ => c.now.blk
  | none, some ns => (d.mediaBlk nsid lba).readUnder ((pairOf d ns tag lba).bind (pairKeys d ns)) lba
  | none, none => (d.mediaBlk nsid lba).blk

/-- The LBAs of a command. -/
def IoCmd.lbas (c : IoCmd) : List Nat := (List.range c.count).map fun i => c.slba + i

/-- Extents of a namespace that a range overlaps. -/
def overlapping (d : Dev) (nsid slba count : Nat) : List Extent :=
  d.host.extents.filter fun e => e.nsid == nsid && e.cells.any fun c => decide (slba ≤ c.lba ∧ c.lba < slba + count)

/-- HDA n can run media tasks: HS0, its journal replayed (R306), not refused (R63). -/
def hdaReady (d : Dev) (n : Nat) : Bool :=
  d.rd F.pwrHs_state 0 n == 0 && !d.flag F.pwrHs_in_transition 0 n && !d.host.replaying.contains n
    && !d.host.refusedHda.contains n

/-- An HDA wanted in HS0 (R85, R88). -/
def wantHda (d : Dev) (n : Nat) : Dev :=
  d.updHost fun s => { s with wanted := if s.wanted.contains n then s.wanted else s.wanted ++ [n] }

/-- A running calibration keeps other media work from an actuator: of its heads, or of a converter by TAP (R380).
[DEDUCED: assumption log 156] -/
def calHolds (d : Dev) (a : Nat) : Bool :=
  calRunning d 0 a || [2 * a, 2 * a + 1].any fun c =>
    (calRunning d 1 c && !d.bit F.calDue_method c 0 1) || (calRunning d 2 c && !d.bit F.calDue_method c 0 2)

/-- The Timetable may start a media task on an actuator: the HDA is ready, no calibration holds it (R380), the wedge period of the head is
steady (R205, R232) and the lane on track (R262). -/
def mayBegin (d : Dev) (a : Nat) : Bool :=
  hdaReady d (a / 2) && !calHolds d a && steady d a && d.flag F.sscLaneStat_on_track (a / 2) (a % 2)

/-- Streams, twin actuators, speed cap, host width and engines of a power state or throttle step. [DEDUCED: assumption log 149] -/
def limitsOf (k : Nat) : Nat × Nat × Nat × Nat × Nat :=
  match k with
  | 0 => (16, 8, 7200, 8, 8)
  | 1 => (12, 4, 6300, 8, 8)
  | 2 => (8, 0, 5400, 4, 4)
  | _ => (4, 0, 4500, 2, 2)

/-- Twin actuators allowed at once. [DEDUCED: assumption log 149] -/
def twinLimit (d : Dev) : Nat :=
  min (limitsOf (min 2 d.power.lastPs)).2.1 (limitsOf (d.rd F.thmStat_step)).2.1

/-- A task works both heads of a band pair (R294, R363): a locker task, cleaning, and host data of a pair. [DEDUCED: assumption log 149] -/
def taskPair (d : Dev) (k : MKind) (act : Nat) : Bool :=
  let paired (nsid : Nat) (lba : Option Nat) : Bool := (d.ns? nsid).any fun ns =>
    match ns.zoned, lba with
    | true, some l => (ns.zones[l / max 1 (zoneSize d ns)]?).any (·.isPair)
    | _, _ => ns.zones.any fun z => z.act == act && z.isPair
  match k with
  | .locker _ => true
  | .clean nsid zi => ((d.ns? nsid).bind fun ns => ns.zones[zi]?).any (·.isPair)
  | .read id => (d.ctx? id).any fun x => paired x.c.nsid (some x.c.slba)
  | .destage wid => (d.host.extents.find? fun e => e.wid == wid).any fun e => paired e.nsid (e.cells.head?.map (·.lba))
  | .homeWrite _ _ _ | .homeVerify _ _ _ => false

/-- The streams an actuator has in use. -/
def actStreams (d : Dev) (a : Nat) : Nat := ((d.host.tasks.filter fun t => t.act == a && t.begun).map (·.streams)).foldl max 0

/-- The streams a task of an actuator would take within the limits in force (R363, R374, R375): two on a twin pair where twin operation is
left, else one; none where no stream is left. [DEDUCED: assumption log 149] -/
def streamsFor (d : Dev) (k : MKind) (a : Nat) : Nat :=
  let others := ((List.range 8).filter (· != a)).map (actStreams d)
  let left := d.rd F.pwrPs_streams - others.sum
  if taskPair d k a && decide (2 ≤ left) && decide ((others.filter (· == 2)).length < twinLimit d) then 2 else min left 1

/-- The waiting tasks of an actuator begin where they may. [DEDUCED: assumption log 149] -/
def beginTasks (d : Dev) (a : Nat) : Dev :=
  if mayBegin d a then
    d.updTasks (listMapIf (fun t => t.act == a && !t.begun && streamsFor d t.kind a != 0) fun t =>
      { t with begun := true, streams := streamsFor d t.kind a })
  else d

/-- Tasks that waited for a stream begin. -/
def beginWaiting (d : Dev) : Dev :=
  forEach ((d.host.tasks.filter fun t => !t.begun).map (·.act)).eraseDups d beginTasks

/-- A media task given to the Timetable of an actuator; it begins at once where it may. -/
def addTask (d : Dev) (kind : MKind) (act : Nat) (prio : Bool) : Dev :=
  if d.host.tasks.any fun t => t.kind == kind && t.act == act then
    d.updTasks (listMapIf (fun t => t.kind == kind && t.act == act) fun t => { t with prio := t.prio || prio })
  else
    let n := if mayBegin d act then streamsFor d kind act else 0
    let d := if hdaReady d (act / 2) then d else wantHda d (act / 2)
    d.updHost fun s => { s with
      nextTid := s.nextTid + 1,
      tasks := s.tasks ++ [{ tid := s.nextTid, kind := kind, act := act, begun := n != 0, prio := prio, streams := n }] }

/-- A task leaves the Timetable, and one that waited for its streams may begin. -/
def dropTask (d : Dev) (tid : Nat) : Dev := beginWaiting (d.updTasks fun l => l.filter fun t => t.tid != tid)

/-- Destage of an extent: one task for each actuator its blocks go to, once its write is wholly covered, so that a discard can still
leave its LBAs their previous contents (R88). [DEDUCED: assumption log 50] -/
def destageExtent (d : Dev) (e : Extent) (prio : Bool) : Dev :=
  let acts := if whollyCovered d e.wid then (e.cells.map fun c => c.now.act).eraseDups else []
  let d := forEach acts d fun d a => addTask d (.destage e.wid) a prio
  if prio then d.updExtents (listMapIf (fun x => x.wid == e.wid) fun x => { x with prio := true })
  else d

/-- Head and track of a block on media (R116, R123, R449). -/
def mediaPlace (d : Dev) (ns : Ns) (lba : Nat) (m : MediaBlk) : Nat × Nat :=
  let zs := max 1 (zoneSize d ns)
  let at' := if ns.zoned then (lba / zs, lba % zs) else (m.band, m.off)
  match ns.zones[at'.1]? with
  | none => (0, 0)
  | some z =>
    let p := zonePlace z.isPair (fmtBandMib d (z.act / 2)) ns.parity at'.2
    if p.1 = 0 then (z.headA, bandTrack d (z.act / 2) z.bandA p.2) else (z.headB, bandTrack d (z.act / 2) z.bandB p.2)

/-- A read's status for what it found (R107, R120, R131, R344): a sector that is beyond recovery, then a poisoned marker, then the mark of
Write Uncorrectable. -/
def blkStatus (bs : List Blk) : Nat :=
  if bs.any fun b => b == .gone then stDetention
  else if bs.any fun b => b == .lost then stPoison
  else if bs.any fun b => b == .uncorrectable then stUnrecovered
  else 0

def blkTok : Blk → Nat
  | .data t => t
  | _ => 0

/-- A command joins a stream context's queue (R150). -/
def joinContext (d : Dev) (ctx id : Nat) : Dev :=
  { d with comp := { d.comp with queues := tabPut [] d.comp.queues ctx (tabGet [] d.comp.queues ctx ++ [id]) } }

/-- magic, fmt_version, the reserved fields and hdr_crc of a frame header are right (R145, R156 check 2). -/
def frameHeaderOk (h : List Byte) : Bool :=
  leBytes h 0 4 == 0x46435645 && leBytes h 4 1 == 1 && decide (leBytes h 6 1 < 4) && leBytes h 7 1 == 0 && leBytes h 0x12 2 == 0
    && leBytes h 0x2C 4 == 0 && leBytes h 0x38 8 == crc64 (h.take 0x38)

/-- Checks 1 and 2 of a Compressed Read on the blocks found (R156): the frame that their bytes spell (assumption log 9), or the
status. -/
def frameFound (c : IoCmd) (toks : List Nat) : CFrame ⊕ Nat :=
  let h := toBytes (toks.headD 0) 64
  let comp := leBytes h 0xC 4
  let gcm := (leBytes h 6 1).testBit 0
  if c.stored + 1 ≠ ceilDiv comp 4096 ∨ (c.bufLbas + 1) * 4096 < leBytes h 8 4 then .inr stInvalidField
  else if !frameHeaderOk h then .inr stCheckFail
  else
    let body := ((toks.flatMap fun t => toBytes t 4096).take comp).drop 64
    .inl { level := leBytes h 5 1, gcm := gcm, history := (leBytes h 6 1).testBit 1, origLen := leBytes h 8 4, compLen := comp,
           ctxId := leBytes h 0x10 2, chunkSeq := leBytes h 0x14 4, crcOrig := leBytes h 0x18 8, nonce := leBytes h 0x20 12,
           histCrc := leBytes h 0x30 8, stream := body.take (body.length - 16 * gcm.toNat),
           tag := leBytes body (body.length - 16) 16 }

/-- A Compressed Read whose frame passed its header checks joins the queue of the context the header names (R150), or ends. -/
def frameRead (d : Dev) (x : Ctx) (toks : List Nat) : Dev :=
  match frameFound x.c toks with
  | .inl f => joinContext ((putFrame d x.id f).updCtx x.id fun c => { c with stage := .context, c := { c.c with ctx := f.ctxId } }) f.ctxId x.id
  | .inr st => finish (if st = stCheckFail then d.setFlag F.cmpErr_frame_bad true else d) x.id st 0

/-- Blocks of host and chain-target commands whose transfer ended, each counted for the HDA of its data (R283).
[DEDUCED: assumption log 121] -/
def countMoved (d : Dev) (x : Ctx) (hdas : List Nat) : Dev :=
  let counts := match x.org with
    | .internal | .gone => false
    | _ => true
  if !counts then d
  else forEach hdas d fun d n => d.updHost fun s => { s with moved := tabPut [] s.moved n (match tabGet [] s.moved n with
    | [] => [4096]
    | b :: rest => (b + 4096) :: rest) }

/-- The HDAs that hold the blocks of a command on this device (R283). -/
def hdasRead (d : Dev) (x : Ctx) : List Nat :=
  x.c.lbas.filterMap fun l => match d.bufCell x.c.nsid l with
    | some c => some c.now.hda
    | none => if (d.mediaBlk x.c.nsid l).mapped then some ((d.mediaBlk x.c.nsid l).act / 2) else none

/-- A read-class command ends with the data found (R81, R107); a Compressed Read goes on with its frame (R156). -/
def serveRead (d : Dev) (x : Ctx) : Dev :=
  let bs := x.c.lbas.map (d.readBlk x.c.nsid x.c.keyTag)
  let poisoned := x.c.lbas.any fun l => match d.bufCell x.c.nsid l with
    | some c => c.now.poison
    | none => false
  let st := if poisoned then stPoison else blkStatus bs
  let toks := bs.map blkTok
  if st ≠ 0 then finish d x.id st 0
  else
    match x.c.kind with
    | .compare => finish (countMoved d x (hdasRead d x)) x.id (if toks == x.c.toks then 0 else stCompare) 0
    | .verify => finish d x.id 0 0
    | .compRead => frameRead d x toks
    | _ => finish (returnData (countMoved d x (hdasRead d x)) x toks) x.id 0 0

/-- A Homework rewrite holds the buffered copy of the band a block lies in (R129 step 3). [DEDUCED: assumption log 72] -/
def inRewrite (d : Dev) (nsid lba : Nat) : Bool :=
  match d.ns? nsid with
  | none => false
  | some ns =>
    let zi := lba / max 1 (zoneSize d ns)
    ns.zoned && match ns.zones[zi]? with
      | none => false
      | some z =>
        let band := (zonePlace z.isPair (fmtBandMib d (z.act / 2)) ns.parity (lba % max 1 (zoneSize d ns))).1
        d.host.held.any fun x => x.kind == 2 && x.key == (nsid * 2 ^ 20 + zi) * 2 + band

/-- Media reads of a command: one task for each actuator that holds mapped blocks of its range that no rewrite has buffered; none where
every block reads as zeroes (R121, R123, R129). -/
def mediaActs (d : Dev) (c : IoCmd) : List Nat :=
  (c.lbas.filterMap fun l => if (d.mediaBlk c.nsid l).mapped && !inRewrite d c.nsid l then some (d.mediaBlk c.nsid l).act else none).eraseDups

/-- A read that needs the media starts there, or waits for an HDA to reach HS0 (R88); `k` says what to do where no
block lies on media. [DEDUCED: assumption log 62] -/
def startMedia (d : Dev) (x : Ctx) (k : Dev → Dev) : Dev :=
  match mediaActs d x.c with
  | [] => k d
  | acts =>
    let d := forEach acts d fun d a => addTask d (.read x.id) a false
    let cold := acts.find? fun a => !hdaReady d (a / 2)
    let d := match cold with
      | some a => wantHda d (a / 2)
      | none => d
    d.updCtx x.id fun c => { c with stage := .media, waits := cold.map (· / 2), pend := acts }

/-- Whose media work a task is. -/
def MKind.serves (k : MKind) (id : Nat) : Bool := match k with
  | .read i | .destage i | .locker i => i == id
  | _ => false

/-- A command has begun media work (R109): a media task of its own has begun or ended.  One that waits for a context has not (R150).
[DEDUCED: assumption log 192] -/
def begunNow (d : Dev) (x : Ctx) : Bool :=
  x.stage != .context && (x.begun || d.host.tasks.any fun t => t.begun && t.kind.serves x.id)

/-- The actuators whose media work a command waits for: those that a read still needs, those of the extents that an overlapping read,
a Flush or a write under R87 waits for. -/
def actsWaited (d : Dev) (x : Ctx) : List Nat :=
  let acts (w : Nat) : List Nat := ((copiesOf d).filter fun c => c.2.wid == w && !c.2.safe).map fun c => c.2.act
  match x.stage with
  | .media => if readsData x.c.kind then x.pend else acts x.id
  | .overlap | .flushing => x.pend.flatMap acts
  | _ => []

/-- The HDA not ready that a command waits for (R88), or none. [DEDUCED: assumption log 54] -/
def coldHda (d : Dev) (x : Ctx) : Option Nat := ((actsWaited d x).find? fun a => !hdaReady d (a / 2)).map (· / 2)

/-! ### Zones (R113-R122, R450) -/

/-- Active zones of the device, and of a namespace (R121). -/
def activeZones (d : Dev) : Nat :=
  ((d.host.nss.filter (·.zoned)).map fun ns => (ns.zones.filter fun z => z.state.isActive).length).sum

def nsActive (ns : Ns) : Nat := (ns.zones.filter fun z => z.state.isActive).length
def nsOpen (ns : Ns) : Nat := (ns.zones.filter fun z => z.state.isOpen).length

/-- Whether a zone may be written or opened: none, or the status that ends the command (R121, R122). [DEDUCED: assumption log 53] -/
def zoneWritable (d : Dev) (ns : Ns) (z : Zone) : Option Nat :=
  match z.state with
  | .full => some stZoneFull
  | .readOnly => some stZoneReadOnly
  | .offline => some stZoneOffline
  | .implicitOpen | .explicitOpen => if z.roPending then some stZoneReadOnly else none
  | .closed => if 256 ≤ nsOpen ns then some stTooManyOpen else none
  | .empty =>
    if 1024 ≤ activeZones d || decide (256 ≤ nsActive ns) then some stTooManyActive
    else if 256 ≤ nsOpen ns then some stTooManyOpen else none

/-- The key of a parity group in the parity table. -/
def groupKey (nsid zi g : Nat) : Nat := (zi * 2 ^ 20 + g) * 1024 + nsid % 1024

/-- Band sector at which the parity of group `g` of a zone begins, and its band (R116): after the group's data sectors, or, where a Full zone
ends within it, after the last written one (R119). -/
def parityPlace (z : Zone) (bandMib p g written : Nat) : Nat × Nat :=
  let at' := zonePlace z.isPair bandMib p (g * (64 - p))
  (at'.1, at'.2 + written)

/-- The identity of the data a sector contributes to parity; missing sectors count as zeroes (R119), a marked one with what was
written (R344). -/
def parityData (d : Dev) (nsid lba : Nat) : Nat := blkTok (d.mediaBlk nsid lba).blk

/-- Parity sectors of a group of a zoned namespace, from its data sectors on media (R118, R119). -/
def writeParity (d : Dev) (ns : Ns) (zi g : Nat) : Dev :=
  let n := 64 - ns.parity
  let data := (List.range n).map fun i => parityData d ns.nsid (zi * zoneSize d ns + g * n + i)
  d.updHost fun s => { s with
    parity := tabPut [] s.parity (groupKey ns.nsid zi g) ((List.range ns.parity).map (Config.rsParity ns.parity data)) }

/-- The running parity of a group is needed no more: all its data sectors, or of a Full zone the written ones, are on media (R119). -/
def groupReady (d : Dev) (ns : Ns) (zi g : Nat) (z : Zone) : Bool :=
  let n := 64 - ns.parity
  let lo := zi * zoneSize d ns + g * n
  (decide ((g + 1) * n ≤ z.wp) || z.state == .full) &&
    !d.host.extents.any fun e => e.nsid == ns.nsid && e.cells.any fun c => decide (lo ≤ c.lba ∧ c.lba < lo + n)

/-- Band parity of a zone of a zoned namespace (R119): the groups whose data is on media take their parity sectors; the running parity of
the others counts in D. [DEDUCED: assumption log 51] -/
def refreshParity (d : Dev) (nsid zi : Nat) : Dev :=
  match d.ns? nsid, d.zone? nsid zi with
  | some ns, some z =>
    let key := nsid * 2 ^ 20 + zi
    let d := d.updHost fun s => { s with held := s.held.filter fun x => !(x.kind == 0 && x.key == key) }
    if !ns.zoned || ns.parity == 0 then d
    else
      let open' := (List.range (ceilDiv z.wp (64 - ns.parity))).filter fun g => (tabGet [] d.host.parity (groupKey nsid zi g)).isEmpty
      let ready := open'.filter fun g => groupReady d ns zi g z
      let d := forEach ready d fun d g => writeParity d ns zi g
      let left := open'.length - ready.length
      if left = 0 then d
      else d.updHost fun s => { s with held := s.held ++ [{ kind := 0, key := key, hda := z.act / 2, units := ns.parity * left }] }
  | _, _ => d

/-- Band parity of a band pair of a conventional namespace as its log grows by data (R119): a group takes its parity with its last
sector, and until then its running parity counts in D. [DEDUCED: assumption log 51] -/
def runParity (d : Dev) (ns : Ns) (i act : Nat) (data : List Nat) : Dev :=
  match ns.zones[i]? with
  | none => d
  | some z =>
    if ns.parity = 0 then d
    else
      let n := 64 - ns.parity
      let run := z.run ++ data
      let full := decide (n ≤ run.length)
      let g := (z.wp - z.run.length) / n
      let d := if full then d.updHost fun s => { s with
          parity := tabPut [] s.parity (groupKey ns.nsid i g) ((List.range ns.parity).map (Config.rsParity ns.parity (run.take n))) }
        else d
      let run := if full then run.drop n else run
      let key := ns.nsid * 2 ^ 20 + i
      (d.updZone ns.nsid i fun z => { z with run := run }).updHost fun s => { s with
        held := (s.held.filter fun x => !(x.kind == 0 && x.key == key)) ++
          (if run.isEmpty then [] else [{ kind := 0, key := key, hda := act / 2, units := ns.parity }]) }

/-- The parity sectors and running parity of a zone or band pair are gone with its data. -/
def dropParity (d : Dev) (nsid zi : Nat) : Dev :=
  d.updHost fun s => { s with
    parity := s.parity.filter (fun g => !(g.1 % 1024 == nsid % 1024 && g.1 / 1024 / 2 ^ 20 == zi)),
    held := s.held.filter fun x => !(x.kind == 0 && x.key == nsid * 2 ^ 20 + zi) }

/-- The write pointer of a zone moved to an offset: an Empty or Closed zone opens implicitly, a zone at its capacity is
Full, one back at its start stays open. [DEDUCED: assumption log 53] -/
def setPtr (d : Dev) (nsid zi wp : Nat) : Dev :=
  match d.ns? nsid with
  | none => d
  | some ns =>
    let cap := zoneCap d ns
    d.updZone nsid zi fun z =>
      { z with wp := wp, state := if cap ≤ wp then .full
                else match z.state with
                  | .empty | .closed | .full => .implicitOpen
                  | st => st }

def zoneIndex (d : Dev) (ns : Ns) (lba : Nat) : Nat := lba / max 1 (zoneSize d ns)

/-- Write-class commands of a zone. -/
def zoneWriter (c : IoCmd) : Bool := match c.kind with
  | .write | .writeZeroes | .writeUncorrectable | .append | .compAppend | .copy => true
  | _ => false

/-- Write-class commands that name their LBAs, where an append names a zone. -/
def fixedWriter (c : IoCmd) : Bool := match c.kind with
  | .write | .writeZeroes | .writeUncorrectable | .copy => true
  | _ => false

/-- Commands inserted after one that write to the same zone and are not yet covered (R450). -/
def laterWriters (d : Dev) (x : Ctx) (ns : Ns) : List Ctx :=
  (((d.host.order.dropWhile fun i => i != x.id).drop 1).filterMap d.ctx?).filter fun y =>
    y.c.nsid == x.c.nsid && zoneWriter y.c && zoneIndex d ns y.c.slba == zoneIndex d ns x.c.slba

/-- An append whose placement was fixed and is not yet covered is placed again at the pointer (R450). -/
def replaceAppend (d : Dev) (y : Ctx) (zi zs : Nat) : Dev :=
  match y.zw with
  | none => d
  | some _ =>
    match d.zone? y.c.nsid zi with
    | none => d
    | some z =>
      let start := zs + z.wp
      let len := if y.c.kind == .compAppend then y.c.stored else y.c.count
      let d := setPtr d y.c.nsid zi (z.wp + len)
      let d := d.updExtents (listMapIf (fun e => e.wid == y.id)
        fun e => { e with cells := e.cells.zipIdx.map fun ci => { ci.1 with lba := start + ci.2 } })
      d.updCtx y.id fun c => { c with
        zw := some start, c := { c.c with slba := start },
        locks := [{ excl := true, nsid := y.c.nsid, lo := start, hi := start + len }] }

/-- A zoned write that ends without all of its data covered (R450): the pointer returns to its start, later writes end with
Zone Invalid Write and later appends are placed again. -/
def restorePtr (d : Dev) (x : Ctx) : Dev :=
  match x.zw, d.ns? x.c.nsid with
  | some start, some ns =>
    if !ns.zoned then d
    else
      let zi := zoneIndex d ns start
      let zs := zi * zoneSize d ns
      let later := laterWriters d x ns
      let d := setPtr d x.c.nsid zi (start - zs)
      let d := forEach later d fun d y =>
        if fixedWriter y.c then
          finish (discardData d y.id) y.id stZoneInvalidWrite 0
        else replaceAppend d y zi zs
      refreshParity d x.c.nsid zi
  | _, _ => d

/-- A Compressed Zone Append that ends with an error leaves its context unchanged (R148). -/
def undoContext (d : Dev) (x : Ctx) : Dev :=
  match x.prev with
  | some s => { d with comp := { d.comp with ctxs := tabPut {} d.comp.ctxs x.c.ctx s } }
  | none => d

/-- A write-class command that ends with an error before all of its data is covered (R88, R109, R107): its data goes, its
LBAs keep their previous contents and no write pointer stays advanced. -/
def failWrite (d : Dev) (id status : Nat) : Dev :=
  match d.ctx? id with
  | none => d
  | some x =>
    let d := discardData d id
    let d := restorePtr (undoContext d x) x
    finish d id status 0

/-! ### Coverage (R83-R87, R450) -/

/-- An earlier-inserted write-class command of the same zone still waits for coverage (R450). -/
def zoneEarlierWaits (d : Dev) (x : Ctx) : Bool :=
  match d.ns? x.c.nsid with
  | none => false
  | some ns =>
    ns.zoned && (earlierCtxs d x.id).any fun y =>
      y.c.nsid == x.c.nsid && zoneWriter y.c && zoneIndex d ns y.c.slba == zoneIndex d ns x.c.slba &&
        !(dataIn y && whollyCovered d y.id)

/-- Copies below one of a wholly covered write in a chain of superseded copies cannot return any more. -/
def trimChain (covered : Nat → Bool) : List BufCopy → List BufCopy
  | [] => []
  | u :: rest => if covered u.wid then [u] else u :: trimChain covered rest

/-- What a wholly covered write superseded is gone (R83, R88). [DEDUCED: assumption log 50] -/
def trimUnder (d : Dev) (wid : Nat) : Dev :=
  if !whollyCovered d wid then d
  else d.updExtents fun l => l.map fun e => { e with cells := e.cells.map fun c =>
    { c with under := if c.now.wid = wid then [] else trimChain (fun w => w == wid) c.under } }

/-- The part of a write on an HDA marked covered: its copies join D_n (R83). -/
def markCovered (d : Dev) (wid n : Nat) : Dev :=
  let mark (c : BufCopy) : BufCopy := if c.wid == wid && c.hda == n then { c with covered := true } else c
  let d := d.updExtents fun l => l.map fun e => { e with cells := e.cells.map fun c => { c with now := mark c.now, under := c.under.map mark } }
  trimUnder d wid

/-- A write needs its data on media before its completion (R87). -/
def needsMedia (d : Dev) (x : Ctx) : Bool :=
  x.c.fua || (match x.org with
    | .host h _ _ => !(d.port h).vwc
    | _ => false)

/-- Dword 0 of a write's completion: the placement of an append (R100, R450). -/
def writeDw0 (x : Ctx) : Nat := match x.c.kind with
  | .append | .compAppend => x.zw.getD 0
  | _ => 0

/-- The completion of a write once every part is covered (R83), or once it is on media (R87). -/
def tryComplete (d : Dev) (id : Nat) : Dev :=
  match d.ctx? id with
  | none => d
  | some x =>
    if !dataIn x || !whollyCovered d id then d
    else if needsMedia d x && inBuffer d id then
      forEach (d.host.extents.filter fun e => e.wid == id) (d.updCtx id fun c => { c with stage := .media })
        fun d e => destageExtent d e true
    else
      let d := match x.c.kind, x.org with
        | .compAppend, .host h qid cid => d.emit (.page h (cid * 65536 + qid) (completionRecord d x))
        | _, _ => d
      let d := forEach (d.host.extents.filter fun e => e.wid == id) d fun d e => destageExtent d e e.prio
      finish d id 0 (writeDw0 x)

/-- Writes whose last waiting copies left the buffer complete (R83). [DEDUCED: assumption log 50] -/
def settleWrites (d : Dev) : Dev := forEach (d.host.ctxs.map (·.id)) d tryComplete

/-- The first write waiting for coverage on an HDA, in admission order (R84). -/
def firstWaiting (d : Dev) (n : Nat) : Option Nat :=
  ((copiesOf d).filter fun c => !c.2.covered && c.2.hda == n).foldl (fun (acc : Option (Nat × Nat)) c => match acc with
    | some (s, w) => if c.2.seq < s then some (c.2.seq, c.2.wid) else some (s, w)
    | none => some (c.2.seq, c.2.wid)) none |>.map (·.2)

/-- Map journal records of a conventional write (R127): one for each 32 KiB unit it touches on an HDA, whose current copy is then in the
buffer. [DEDUCED: assumption log 51] -/
def journalWrite (d : Dev) (wid n : Nat) : Dev :=
  forEach (d.host.extents.filter fun e => e.cells.any fun c => c.now.wid == wid || c.under.any fun u => u.wid == wid) d fun d e =>
    match d.ns? e.nsid with
    | none => d
    | some ns =>
      if ns.zoned then d
      else forEach (((e.copies.filter fun c => c.2.wid == wid && c.2.hda == n).map fun c => c.1 / 8).eraseDups) d fun d u =>
        mapUpdate d e.nsid u n true

/-- Free band pairs of a conventional namespace on an actuator (R125). -/
def bandsFree (ns : Ns) (act : Nat) : Nat := (ns.zones.filter fun z => z.act == act && z.state == .empty).length

/-- A part of a conventional write waits while no free band pair remains where it goes (R125). -/
def noBand (d : Dev) (x : Ctx) (n : Nat) : Bool :=
  match d.ns? x.c.nsid with
  | none => false
  | some ns => !ns.zoned && (d.host.extents.filter fun e => e.wid == x.id).any fun e =>
      e.cells.any fun c => c.now.hda == n && !c.now.covered && bandsFree ns c.now.act == 0

/-- One part covered on HDA n (R83, R84, R86, R296, R450): the first in admission order, where D_n and D stay within their
bounds with it; the completion follows its last part. -/
def coverNext (d : Dev) (n : Nat) : Dev :=
  match firstWaiting d n with
  | none => d
  | some wid =>
    match d.ctx? wid with
    | none => d
    | some x =>
      let d' := journalWrite (markCovered d wid n) wid n
      let d' := match d'.ns? x.c.nsid with
        | some ns => if ns.zoned then refreshParity d' x.c.nsid (zoneIndex d' ns x.c.slba) else d'
        | none => d'
      if !dataIn x || noBand d x n || zoneEarlierWaits d x || decide (boundAll d < dirtyAll d) || decide (boundOf d n < dirtyOf d n) then d
      else if dirtyOf d' n ≤ boundOf d n ∧ dirtyAll d' ≤ boundAll d then settleWrites (tryComplete (syncHost d') wid)
      else d

/-- Coverage refused: writes wait, and the device destages at priority and wants the HDA in HS0 (R85). -/
def pressDestage (d : Dev) (n : Nat) : Dev :=
  if waitingOf d n = 0 ∧ dirtyOf d n ≤ boundOf d n then d
  else
    let es := d.host.extents.filter fun e => e.cells.any fun c => c.now.dirty n
    let d := wantHda d n
    forEach es d fun d e => destageExtent d e true

/-- The hash a locker journal carries: SHA-384 of the HDA and FORMAT sections of its slot (R63, R304). -/
def sectionHash (d : Dev) (n : Nat) : Nat := Config.sha384 ((d.section 3 n).getD [] ++ (d.section 5 n).getD [])

/-! ### Detention (R131-R133) -/

/-- A change of the Detention list; it holds 65,536 sector entries, and further sectors are not listed but raise an event
and count in the Report Card (R132).  A sector listed as recovered beyond the threshold that the channel loses later takes reason 2
(R131). [DEDUCED: assumption log 73] -/
def detain (d : Dev) (e : DetEntry) : Dev :=
  let same (x : DetEntry) : Bool := x.nsid == e.nsid && x.lba == e.lba && x.act == e.act && x.head == e.head
  if d.host.detention.any same then
    if e.reason = 2 ∧ (d.host.detention.any fun x => same x && x.reason == 1) then
      d.updHost fun s => { s with detention := listMapIf same (fun x => { x with reason := 2 }) s.detention, detGen := s.detGen + 1 }
    else d
  else if e.lba.isSome && decide (65536 ≤ (d.host.detention.filter fun x => x.lba.isSome).length) then
    cardCount (noticeAll d ntDetentionFull) 23 1
  else (if e.lba.isSome then cardCount d 16 1 else d).updHost fun s => { s with detention := s.detention ++ [e], detGen := s.detGen + 1 }

/-- Sector entries of an LBA range leave the list (R132). -/
def release (d : Dev) (nsid slba count : Nat) : Dev :=
  let keep := d.host.detention.filter fun x => !(x.nsid == nsid && match x.lba with
    | some l => decide (slba ≤ l ∧ l < slba + count)
    | none => false)
  if keep.length = d.host.detention.length then d
  else d.updHost fun s => { s with detention := keep, detGen := s.detGen + 1 }

/-- A mark of relocation in progress, or its end, on the sector entries of an LBA range (R133). -/
def relocating (d : Dev) (nsid slba count on : Nat) : Dev :=
  let here (x : DetEntry) : Bool := x.nsid == nsid && x.state != on && match x.lba with
    | some l => decide (slba ≤ l ∧ l < slba + count)
    | none => false
  if !d.host.detention.any here then d
  else d.updHost fun s => { s with detention := listMapIf here (fun x => { x with state := on }) s.detention, detGen := s.detGen + 1 }

/-- Power-on milliseconds of an entry: EVR_POS counts seconds, and where within the second the moment lies is open (assumption log 2).
[DEDUCED: assumption log 75] -/
def stampMs (d : Dev) : Nat × Dev :=
  let (v, d) := d.draw
  (d.rd F.evrPos_seconds * 1000 + v % 1000, d)

/-- A zone's covered data still in the buffer. -/
def zoneDirty (d : Dev) (nsid : Nat) (ns : Ns) (zi : Nat) : Bool :=
  d.host.extents.any fun e => e.nsid == nsid && e.cells.any fun c => c.now.covered && zoneIndex d ns c.lba == zi

/-- A zone whose drain before Read Only has ended changes and posts its notice (R122). [DEDUCED: assumption log 74] -/
def settleReadOnly (d : Dev) : Dev :=
  forEach d.host.nss d fun d ns =>
    forEach ns.zones.zipIdx d fun d zi =>
      if zi.1.roPending && !zoneDirty d ns.nsid ns zi.2 then
        noticeAll (d.updZone ns.nsid zi.2 fun z => { z with roPending := false, state := .readOnly }) ntZone
      else d

/-- A head enters Detention for writing (R117, R122, R244): its entry in the list of every namespace that holds bands on it,
writes to its open zones not yet covered end with Zone Is Read Only, the latest first so that none is placed again, and its zones change. [DEDUCED: assumption log 74] -/
def detainHead (d : Dev) (a head reason : Nat) : Dev :=
  let e := a * 12 + head
  if d.host.headDet.contains e then d
  else
    let d := (cardCount d 17 1).updHost fun s => { s with headDet := s.headDet ++ [e] }
    let d := d.updHealth e fun h => { h with state := 2 }
    let (time, d) := stampMs d
    let d := forEach (d.host.nss.filter fun ns => ns.zones.any fun z => z.onHead e) d fun d ns =>
      detain d { nsid := ns.nsid, lba := none, reason := reason, act := a, head := head, track := 0, time := time }
    let d := forEach (d.host.nss.filter (·.zoned)) d fun d ns =>
      forEach ns.zones.zipIdx d fun d zi =>
        if !zi.1.onHead e then d
        else
          match zi.1.state with
          | .implicitOpen | .explicitOpen =>
            let ws := (d.host.ctxs.filter fun x => x.c.nsid == ns.nsid && zoneWriter x.c
              && zoneIndex d ns x.c.slba == zi.2 && !(dataIn x && whollyCovered d x.id)).map (·.id)
            let d := forEach ((d.host.order.filter fun i => ws.contains i).reverse) d fun d id => failWrite d id stZoneReadOnly
            d.updZone ns.nsid zi.2 fun z => { z with roPending := true }
          | .empty | .closed | .full => noticeAll (d.updZone ns.nsid zi.2 fun z => { z with state := .readOnly }) ntZone
          | _ => d
    settleReadOnly d

/-! ### Transactions that end (R320, R325, R330) -/

/-- A forwarded command ends at the root; a read that a Copy made hands its data to the Copy, whose write data is ready with the last
one. -/
def rootFinish (d : Dev) (t : RootTx) (status dw0 : Nat) (toks : List Nat) : Dev :=
  let d : Dev := { d with chain := { d.chain with root := d.chain.root.filter fun u => u.tag != t.tag } }
  match d.ctx? t.id with
  | none => d
  | some x =>
    if x.org == .internal then
      let d := discardCtx d x.id
      if status ≠ 0 then failWrite d x.c.ctx status
      else d.updCtx x.c.ctx fun c => { c with
        pend := c.pend.filter (fun i => i != x.id), got := tabPut [] c.got x.c.stored toks }
    else if writesData x.c.kind && status != 0 then failWrite d x.id status
    else finish (if toks.isEmpty || status != 0 then d else returnData d x toks) x.id status dw0

/-- The root ends a command with an error and sends CANCEL. -/
def rootEnd (d : Dev) (t : RootTx) (status : Nat) : Dev :=
  let d := rootFinish d t status 0 []
  originate d (mkFrame d t.addr ftCancel t.tag t.path t.attempt t.cmd.budget [] [] 0)

/-- A frame discarded as stale (R327). -/
def staleFrame (d : Dev) : Dev := (d.setFlag F.lmlEvt_stale true).addWrap F.lmlCnt_count 1 0 5

/-- The target ends a transaction with a status (R320, R326): its command ends, and CPL is sent. [DEDUCED: assumption log 142] -/
def targetEnd (d : Dev) (e : Dedupe) (status : Nat) : Dev :=
  match d.ctx? e.id with
  | none => chainRespond d e.src e.tag status 0 []
  | some x => if writesData x.c.kind then failWrite d e.id status else finish d e.id status 0

/-- NAK (R320, R328): budget ends the transaction with 0x83, unreachable with 0x84; after busy the root sends the CMD again. -/
def nakArrived (d : Dev) (f : Frame) : Dev :=
  let reason := f.spec.headD 0
  let ty := f.spec.getD 1 0
  let st := if reason = 1 then stBudget else stUnreachable
  if ty = ftCmd ∨ ty = ftWdata ∨ ty = ftCancel then
    match d.chain.root.find? fun t => t.tag == f.tag with
    | none => staleFrame d
    | some t =>
      if reason = 3 then
        { d with chain := { d.chain with root := listMapIf (fun u => u.tag == f.tag) (fun u => { u with busy := true }) d.chain.root } }
      else rootEnd d t st
  else
    match d.chain.dedupe.find? fun e => e.tag == f.tag && e.active with
    | none => staleFrame d
    | some e => targetEnd d e st

/-- NAKs of frames that this device dropped itself. [DEDUCED: assumption log 139] -/
def takeNaks (d : Dev) : Dev :=
  forEach d.chain.selfNaks { d with chain := { d.chain with selfNaks := [] } } nakArrived

/-- Fetching runs for a port (R74, R91-R96, R300). -/
def fetchAllowed (d : Dev) (h : Nat) : Bool :=
  d.host.stops.isEmpty && (d.port h).enabled && (d.port h).ready

/-- A reason to stop fetching, and its end. -/
def stopFetch (d : Dev) (r : Nat) : Dev :=
  d.updHost fun s => { s with stops := if s.stops.contains r then s.stops else s.stops ++ [r] }
def resumeFetch (d : Dev) (r : Nat) : Dev := d.updHost fun s => { s with stops := s.stops.filter fun x => x != r }

/-- Commands that have begun or hold data: in flight (R67, R95). -/
def inFlight (d : Dev) : Bool := !d.host.ctxs.isEmpty

end Sys2Proof.Machine
end

