-- ==== Sys2Proof/Machine/CipherOps.lean ====
section
/-! DEFINITION. Keys as commands meet them: which slot pair a block uses, whether a range is locked, the failures of a key
fetch, and the zeroing of key slots and plaintext (R157-R176). -/
namespace Sys2Proof.Machine

def Dev.updCipher (d : Dev) (g : CipherState → CipherState) : Dev := { d with cipher := g d.cipher }

/-- DRAM data address of a key slot (R53, R164, R335). -/
def slotAddr (d : Dev) (i : Nat) : Nat := d.rd F.memPart_base_mib 0 4 * 2 ^ 20 + 64 * i

/-- Bytes 0x00-0x3B of a slot (R164). -/
def slotImage (k : KeySlot) : List Byte :=
  toBytes k.state 1 ++ toBytes k.kind 1 ++ toBytes k.kekSel 1 ++ toBytes 0 1 ++ toBytes k.nsid 4 ++ toBytes k.generation 4 ++ toBytes 0 4
    ++ toBytes k.wrapped 40 ++ toBytes 0 4

/-- A slot with its CRC-32 (R164). -/
def KeySlot.sealed (k : KeySlot) : KeySlot := { k with crc := crc32 (slotImage k) }

/-- A slot rewritten (R164): its generation is incremented, and what the write replaces in DRAM, poison too, is gone (R107). -/
def Dev.setSlot (d : Dev) (i : Nat) (k : KeySlot) : Dev :=
  let k := { k with generation := ((d.slot i).generation + 1) % 2 ^ 32 }.sealed
  macWritten (d.updCipher fun c => { c with slots := tabPut {} c.slots i k }) 0x3FF (slotAddr d i) 64

/-- The result of naming a key slot (R166): none, or the status and the CPH_ERR bit; withheld keys end with 0x88 (R175), and only a destage
goes on with a retiring slot (R168). [DEDUCED: assumption log 82 and 83] -/
def slotFailure (d : Dev) (i : Nat) (destage : Bool) : Option (Nat × Fld) :=
  let k := d.slot i
  if d.cipher.withheld then some (stKeyEmpty, F.cphErr_key_empty)
  else if k.state ≠ 1 && !(destage && k.state == 2) then some (stKeyEmpty, F.cphErr_key_empty)
  else if k.crc ≠ crc32 (slotImage k) then some (stKeyEmpty, F.cphErr_slot_crc)
  else if k.kekSel ≠ 0 && (d.cipher.ranges.find? fun r => r.idx + 1 == k.kekSel).all (fun r => r.kek.isNone) then
    some (stAccessDenied, F.cphErr_locked)
  else none

/-- The locks a data unit meets (R169). -/
def lockCheck (d : Dev) (nsid lba : Nat) (reads writes : Bool) : Option (Nat × Fld) :=
  let locked := match rangeOf d nsid lba with
    | some r => (reads && r.readLock) || (writes && r.writeLock)
    | none => (reads && d.cipher.globalRead) || (writes && d.cipher.globalWrite)
  if locked then some (stAccessDenied, F.cphErr_locked) else none

/-- The slot pair a data unit needs is usable (R165, R166): both of its slots. [DEDUCED: assumption log 82] -/
def pairCheck (d : Dev) (ns : Ns) (tag lba : Nat) : Option (Nat × Fld) :=
  if !classXts d ns.cls then none
  else match pairOf d ns tag lba with
    | none => some (stKeyEmpty, F.cphErr_key_empty)
    | some e => slotFailure d (2 * e) false <|> slotFailure d (2 * e + 1) false

/-- Commands whose data passes through the cores (R157). -/
def usesKeys : IoKind → Bool
  | .read | .compare | .verify | .compRead | .write | .writeZeroes | .append | .compAppend | .copy => true
  | _ => false

/-- The local source ranges of a Copy, as namespace, LBA and key tag of each block. -/
def copySources (d : Dev) (c : IoCmd) : List (Ns × Nat × Nat) :=
  if c.kind != .copy then []
  else (c.ranges.filter fun r => nsidNode r.nsid == 0).flatMap fun r =>
    match d.ns? (if r.nsid = 0 then c.nsid else nsidLocal r.nsid) with
    | none => []
    | some ns => (List.range r.count).map fun i => (ns, r.slba + i, r.tag)

/-- The keys and locks a command meets at its fetch (R165-R169): the first failure over its blocks, and over those a Copy reads.
[DEDUCED: assumption log 89] -/
def keyCheck (d : Dev) (ns : Ns) (c : IoCmd) : Option (Nat × Fld) :=
  if !(readsData c.kind || writesData c.kind) then none
  else
    let lbas := if c.lbas.isEmpty then [c.slba] else c.lbas
    let own := lbas.findSome? fun l =>
      lockCheck d ns.nsid l (readsData c.kind) (writesData c.kind) <|> (if usesKeys c.kind then pairCheck d ns c.keyTag l else none)
    own <|> (copySources d c).findSome? fun s => lockCheck d s.1.nsid s.2.1 true false <|> pairCheck d s.1 s.2.2 s.2.1

/-- A command needs a key (R157, R175). -/
def needsKey (d : Dev) (ns : Ns) (c : IoCmd) : Bool :=
  (readsData c.kind || writesData c.kind) && (classXts d ns.cls || c.gcm)

/-- Buffered copies that still refer to a slot pair (R168). -/
def pairInUse (d : Dev) (e : Nat) : Bool := (copiesOf d).any fun c => c.2.pair == e

/-- A running job holds the unwrapped copy of a slot. -/
def heldByJob (d : Dev) (i : Nat) : Bool := d.cipher.jobs.any fun j => match j.2 with
  | some x => x.slot == i
  | none => false

/-- A key enters the cache or becomes its most recently used entry (R166): of 512, the least recently used one that no running job
holds is evicted. -/
def useKey (d : Dev) (i : Nat) : Dev :=
  let c := d.cipher.cache.filter fun k => k != i
  let c := if c.length < 512 then c else listDrop (fun k => !heldByJob d k) c
  d.updCipher fun s => { s with cache := c ++ [i] }

/-- Bytes that the cores processed together: how the data units spread over the eight cores is open (assumption log 2).
[DESIGN CHOICE: assumption log 79] -/
def spreadBytes (d : Dev) (n : Nat) : Dev :=
  let r := (List.range 7).foldl (fun (acc : Nat × Dev) c =>
    let v := acc.2.draw
    let part := v.1 % (acc.1 + 1)
    (acc.1 - part, v.2.addWrap F.cphBytes_bytes part 0 c)) (n, d)
  r.2.addWrap F.cphBytes_bytes r.1 0 7

/-- A job or data unit names a key (R166): one not in the cache is fetched from its slot, where poison counts as a wrong crc (R342), and
unwrapped. [DEDUCED: assumption log 82] -/
def fetchKey (d : Dev) (i : Nat) (destage : Bool) : Option (Nat × Fld) × Dev :=
  if d.cipher.cache.contains i then (none, useKey d i)
  else
    match macRead d 0x3FF (slotAddr d i) 64 with
    | (true, d) => (some (stKeyEmpty, F.cphErr_slot_crc), d)
    | (false, d) => match slotFailure d i destage with
      | some f => (some f, d)
      | none => (none, useKey d i)

/-- Data units of a slot pair pass through the cores (R157, R158): its two keys are used, or the failure of one of them.
[DESIGN CHOICE: assumption log 79] -/
def xtsUse (d : Dev) (ns : Ns) (pair units : Nat) (destage : Bool) : Option (Nat × Fld) × Dev :=
  if units = 0 || !classXts d ns.cls then (none, d)
  else
    match fetchKey d (2 * pair) destage with
    | (some f, d) => (some f, syncWork (d.setFlag f.2 true))
    | (none, d) => match fetchKey d (2 * pair + 1) destage with
      | (some f, d) => (some f, syncWork (d.setFlag f.2 true))
      | (none, d) => (none, syncWork (spreadBytes d (units * 4096)))

/-- The units that each slot pair of a list of pairs takes pass through the cores, pair by pair; the first failure. -/
def xtsPairs (d : Dev) (ns : Ns) (pairs : List Nat) (destage : Bool) : Option (Nat × Fld) × Dev :=
  pairs.eraseDups.foldl (fun (acc : Option (Nat × Fld) × Dev) e => match acc.1 with
    | some _ => acc
    | none => xtsUse acc.2 ns e (pairs.filter fun x => x == e).length destage) (none, d)

/-- A slot empties (R164). -/
def emptySlot (d : Dev) (i : Nat) : Dev :=
  let d := d.setSlot i {}
  syncWork (d.updCipher fun c => { c with cache := c.cache.filter fun x => x != i })

/-- The KEK that wraps a key (R164, R169). -/
def kekOf (d : Dev) (kekSel : Nat) : Nat :=
  if kekSel = 0 then d.cipher.kek
  else Config.rangeKek d.cipher.kek (kekSel - 1) (((d.cipher.ranges.find? fun r => r.idx + 1 == kekSel).map (·.cred)).getD 0)

/-- A new key (R164, R173): drawn, and wrapped under the device KEK or a range KEK. -/
def freshKey (d : Dev) (kind kekSel nsid : Nat) : KeySlot × Dev :=
  let (v, d) := d.draw
  let d := d.updCipher fun c => { c with drbgRequests := c.drbgRequests + 1 }
  ({ state := 1, kind := kind, kekSel := kekSel, nsid := nsid, wrapped := Config.keyWrap (kekOf d kekSel) v }, d)

/-- A new key in a slot. -/
def newKey (d : Dev) (i kind kekSel nsid : Nat) : Dev :=
  let r := freshKey d kind kekSel nsid
  r.2.setSlot i r.1

/-- Keys may be generated (R173, R175): the DRBG seeded by a healthy source, the device KEK in the engine.
[DESIGN CHOICE: assumption log 61] -/
def keysPossible (d : Dev) : Bool := d.flag F.cphStat_drbg_ok && d.flag F.cphStat_kek_loaded && !d.cipher.withheld

/-- Key Per I/O pairs are placed from pair 1,600 on while these last. -/
def kpioFirst : Nat := 1600

/-- A free slot pair for an injected key (R167). [DESIGN CHOICE: assumption log 87] -/
def freePair (d : Dev) : Option Nat :=
  (List.range 32768).findSome? fun k =>
    let e := (kpioFirst + k) % 32768
    if (d.slot (2 * e)).state = 0 ∧ (d.slot (2 * e + 1)).state = 0 then some e else none

/-- The number of pairs available for Key Per I/O (R167): 32,768 less those that persistent keys use. -/
def kpioAvailable (d : Dev) : Nat := 32768 - ((d.cipher.store.map fun s => s.1 / 2).eraseDups).length

/-- An injected key gives way to a persistent one: it moves to a free pair, with its tag and its buffered data.
[DESIGN CHOICE: assumption log 87] -/
def vacate (d : Dev) (e : Nat) : Dev :=
  match d.cipher.tags.any fun t => t.2 == e + 1, freePair d with
  | true, some f =>
    let d := (d.setSlot (2 * f) (d.slot (2 * e))).setSlot (2 * f + 1) (d.slot (2 * e + 1))
    let d := d.updCipher fun c => { c with tags := c.tags.map fun t => if t.2 = e + 1 then (t.1, f + 1) else t }
    let move (c : BufCopy) : BufCopy := if c.pair = e then { c with pair := f } else c
    d.updExtents fun l => l.map fun x => { x with cells := x.cells.map fun c => { c with now := move c.now, under := c.under.map move } }
  | _, _ => d

/-- A persistent key: its slot image also goes to the key store in NOR (R164). -/
def persistKey (d : Dev) (i kind kekSel nsid : Nat) : Dev :=
  let d := newKey (vacate d (i / 2)) i kind kekSel nsid
  d.updCipher fun c => { c with store := tabPut {} c.store i (tabGet {} c.slots i) }

/-- Slots of a namespace: XTS pair nsid, GCM slot 2,176 + nsid (assumption log 9). -/
def gcmSlot (nsid : Nat) : Nat := 2176 + nsid

/-- The keys of a namespace generated (R164, R165): an XTS pair unless keys come with Key Per I/O, a GCM key, as its class needs. -/
def nsKeys (d : Dev) (ns : Ns) : Dev :=
  let d := if classXts d ns.cls && !ns.kpio then
      (persistKey (persistKey d (2 * ns.nsid) 1 0 ns.nsid) (2 * ns.nsid + 1) 2 0 ns.nsid).updCipher fun c =>
        { c with nsPair := tabPut 0 c.nsPair ns.nsid ns.nsid }
    else d
  if classGcm d ns.cls then
    (persistKey d (gcmSlot ns.nsid) 3 0 ns.nsid).updCipher fun c => { c with nsGcm := tabPut 0 c.nsGcm ns.nsid (gcmSlot ns.nsid) }
  else d

/-- Plaintext areas zeroed when key slots are (R175): buffer, unwrapped keys; contexts and cache by the caller. -/
def zeroPlain (d : Dev) : Dev :=
  let d := d.updHost fun s => { s with extents := [], held := [], journal := [], tasks := s.tasks.filter fun t => match t.kind with
    | .destage _ | .locker _ => false
    | _ => true }
  syncHost (syncWork (d.updCipher fun c => { c with cache := [], jobs := [], parked := [], waitJobs := [] }))

/-- Every key slot empty (R175); with `all` the key store too. -/
def zeroKeys (d : Dev) (all : Bool) : Dev :=
  d.updCipher fun c => { c with
    slots := c.slots.map fun s => (s.1, { generation := (s.2.generation + 1) % 2 ^ 32 : KeySlot }.sealed),
    store := if all then [] else c.store, tags := [], retiring := [] }

/-! ### The nonce log (R162) -/

/-- Bytes 0-11 of a record: limit and nonce_id. -/
def nonceRecord (limit id : Nat) : List Byte := toBytes limit 8 ++ toBytes id 4

/-- A record is valid: its CRC-32 is right, and it is not all ones (R162). [DEDUCED: assumption log 88] -/
def nonceRecordValid (r : Nat × Nat × Nat) : Bool :=
  r.2.2 == crc32 (nonceRecord r.1 r.2.1) && !(r.1 == 2 ^ 64 - 1 && r.2.1 == 2 ^ 32 - 1 && r.2.2 == 2 ^ 32 - 1)

end Sys2Proof.Machine
end

