-- ==== Sys2Proof/Machine/HoldOps.lean ====
section
/-! DEFINITION. Domains of the chip, and the protected dirty bound: stored energy, flush rate, B_n and B, the spindle floor and the commanded speed
(R283-R285, R294-R298), and what waiting writes ask for (R85, R86). -/
namespace Sys2Proof.Machine

def Dev.servo (d : Dev) (n : Nat) : Servo := tabGet {} d.servos n
def Dev.updServo (d : Dev) (n : Nat) (g : Servo → Servo) : Dev := { d with servos := tabPut {} d.servos n (g (d.servo n)) }
def Dev.spin (d : Dev) (n : Nat) : Spin := tabGet {} d.spins n
def Dev.updSpin (d : Dev) (n : Nat) (g : Spin → Spin) : Dev := { d with spins := tabPut {} d.spins n (g (d.spin n)) }

def presentHdas (d : Dev) : List Nat := (List.range 4).filter d.hdaPresent

/-- The state an HDA counts as: in transition the target it heads for (R297, R367). -/
def headingOf (d : Dev) (n : Nat) : Nat :=
  if d.flag F.pwrHs_in_transition 0 n then d.rd F.pwrHs_target 0 n else d.rd F.pwrHs_state 0 n

/-- Points of a curve: (demand in MB/s, rpm); without instance 0 curve 0 is one point at 7,200 rpm (R42, R57). -/
def curvePoints (d : Dev) (id : Nat) : List (Nat × Nat) :=
  match d.section 14 id with
  | none => [(0, 7200)]
  | some b => (List.range (leBytes b 0 1)).map fun i => (leBytes b (8 + 8 * i) 4, leBytes b (12 + 8 * i) 2)

/-- c_n while the curve is off: the first point's speed (R284). -/
def curveFirst (d : Dev) (id : Nat) : Nat := ((curvePoints d id).headD (0, 7200)).2 / 50 * 50

/-- Speed commanded without the floor: min(c_n, cap), with rpm_manual for c_n in manual mode (R285). -/
def commandBase (d : Dev) (n : Nat) : Nat :=
  min (if d.flag F.spnCtl_manual n then d.rd F.spnCtl_rpm_manual n else (d.spin n).cN) (d.rd F.pwrPs_speed_cap)

/-- The commanded speed (R285): in HS0 - HS2 with the floor, 3,600 rpm in HS3, nothing in HS4. -/
def commandOf (d : Dev) (n : Nat) : Nat :=
  match headingOf d n with
  | 0 | 1 | 2 => max (d.rd F.spnStat_floor n) (commandBase d n)
  | 3 => 3600
  | _ => 0

/-- [DEDUCED: assumption log 120 and 121] -/
def setCommand (d : Dev) (n : Nat) : Dev := d.wr F.spnStat_command (commandOf d n) n

/-- E_n in mJ at a speed in rpm (R294), rounded down: η · ½J(ω² - ω_min²) less the retract reserve. [DEDUCED: assumption log 119] -/
def energyAt (d : Dev) (n rpm : Nat) : Nat :=
  let eta := if (d.secField 3 n 5 1).testBit 3 then 70 else 60
  eta * d.secField 3 n 6 2 * (rpm * rpm * 10966227112 - 175460454400000000) * 5 / 10 ^ 19 - pwRetractMj d

/-- Sectors per track of the recording zone that holds a track (R48). -/
def fmtSptAt (d : Dev) (n track : Nat) : Nat :=
  match (List.range (fmtZones d n)).find? fun i => decide (fmtZoneFirst d n i ≤ track ∧ track ≤ fmtZoneLast d n i) with
  | some i => fmtZoneSpt d n i
  | none => 0

/-- k of an actuator (R294): 2 with a Seating Plan pair whose heads may both be written. -/
def flushHeads (d : Dev) (a : Nat) : Nat :=
  if d.hdaTwin (a / 2) && (seatPairs d a).any (fun p =>
      !d.host.headDet.contains (a * 12 + p.1) && !d.host.headDet.contains (a * 12 + p.2)) then 2 else 1

/-- Three times R_n in bytes/s (R294): k · spt_L · 4,096 · (4,000 / 60) · 7/8 over the present actuators. [DEDUCED: assumption log 119] -/
def flushRate3 (d : Dev) (n : Nat) : Nat :=
  (([2 * n, 2 * n + 1].filter d.actPresent).map fun a => flushHeads d a * fmtSptAt d n (fmtLockerFirst d n) * 716800).sum

/-- Locker bytes of an HDA over all its surfaces. -/
def lockerBytes (d : Dev) (n : Nat) : Nat :=
  let lo := fmtLockerFirst d n
  let hi := lo + fmtLockerCount d n
  let per := ((List.range (fmtZones d n)).map fun i =>
    (min hi (fmtZoneLast d n i + 1) - max lo (fmtZoneFirst d n i)) * fmtZoneSpt d n i).sum
  per * 4096 * d.hdaHeads n * (([2 * n, 2 * n + 1].filter d.actPresent).length)

/-- A media loop-back holds the HDA's bound at 0 (R419). -/
def mediaLoop (d : Dev) (n : Nat) : Bool := (List.range 4).any fun j => d.rd F.loop_depth (7 + 4 * n + j) == 3

/-- E_n and three times R_n of an HDA as its conditions leave them (R294). -/
def heldEnergy (d : Dev) (n speed : Nat) : Nat × Nat :=
  if mediaLoop d n ∨ 3 ≤ headingOf d n ∨ speed ≤ 4000 ∨ (d.spin n).lost ∨ d.rd F.sscRole_state n = 3 ∨ d.flag F.spnStat_ov2 n then (0, 0)
  else (if d.flag F.spnStat_chop_fault n then 0 else energyAt d n speed, flushRate3 d n)

/-- t_start in µs (R294): 0.1 s in HS0 and HS1, 0.45 s with the heads unloaded. -/
def startUs (d : Dev) (n : Nat) : Nat :=
  if 2 ≤ d.rd F.pwrHs_state 0 n ∨ headingOf d n = 2 then 450000 else 100000

/-- t_avail in µs (R295). [DEDUCED: assumption log 119] -/
def availUs (d : Dev) (es : List Nat) : Nat :=
  min (es.sum * 1000 / max 1 (pwLoadW d) * 10 / max 1 (pwMargin d)) 3000000

/-- The bounds of R295 in 4 KiB units, for HDAs with their E_n and three times R_n. [DEDUCED: assumption log 119] -/
def boundsOf (d : Dev) (l : List (Nat × Nat × Nat)) : List (Nat × Nat) :=
  let ta := availUs d (l.map fun x => x.2.1)
  let raw := l.map fun x => (x.1, min (x.2.2 * (ta - startUs d x.1) / 3000000) (lockerBytes d x.1 - 67108864))
  let cap := pwCapMib d * 1048576
  let s := (raw.map (·.2)).sum
  raw.map fun x => (x.1, (if cap < s then x.2 * cap / s else x.2) / 4096)

/-- The bound suffices for covered and waiting data when every spinning HDA runs no slower than `f` (R297).
[DEDUCED: assumption log 120] -/
def floorHolds (d : Dev) (f : Nat) : Bool :=
  let l := ((presentHdas d).filter fun n => decide (headingOf d n < 3)).map fun n => (n, heldEnergy d n (max f (commandBase d n)))
  let bs := boundsOf d l
  (presentHdas d).all fun n => decide (dirtyOf d n + waitingOf d n ≤ ((bs.find? fun b => b.1 == n).map (·.2)).getD 0)

/-- The spindle floor (R297). [DEDUCED: assumption log 120] -/
def floorOf (d : Dev) : Nat :=
  if (presentHdas d).all (fun n => decide (dirtyOf d n = 0 ∧ waitingOf d n = 0)) then 0
  else (((List.range 64).map fun i => 4050 + 50 * i).find? (floorHolds d)).getD 7200

/-- B_n with every HDA at the lower of measured and commanded speed (R295). -/
def heldNow (d : Dev) : List (Nat × Nat × Nat) :=
  (presentHdas d).map fun n => (n, heldEnergy d n (min (d.rd F.spnStat_speed n) (d.rd F.spnStat_command n)))

/-- A stopped HDA whose spin-up would raise B (R85). -/
def spinUpRaises (d : Dev) (m : Nat) : Bool :=
  let at' := d.wr F.pwrHs_state 0 0 m
  let l := (heldNow d).map fun x => if x.1 = m then (m, heldEnergy at' m (max 4050 (commandBase d m))) else x
  decide (3 ≤ headingOf d m) && decide ((boundsOf d l).foldl (fun s b => s + b.2) 0 > boundAll d)

/-- While a write waits (R85): priority destage, and votes for HS0. -/
def pressWriters (d : Dev) (n : Nat) : Dev :=
  let d := pressDestage d n
  if waitingOf d n = 0 then d else forEach ((presentHdas d).filter (spinUpRaises d)) d wantHda

/-- Parts waiting on an HDA are covered in order as far as the bound allows; the fuel counts the extents. -/
def coverAll (n : Nat) : Nat → Dev → Dev
  | 0, d => d
  | f + 1, d => coverAll n f (coverNext d n)

/-- Every 10 ms and at each change of a condition of R294 (R295): energies, rates, the floor, B_n and B, and the coverage and
destage that follow (R83, R86). [DEDUCED: assumption log 119 and 120] -/
def recomputeBound (d : Dev) : Dev :=
  let f := floorOf d
  let d := forEach [0, 1, 2, 3] d fun d n => setCommand (d.wr F.spnStat_floor f n) n
  let l := heldNow d
  let bs := boundsOf d l
  let es := l.map fun x => x.2.1
  let d := (d.wr F.pwrHoldE_e_total es.sum).wr F.pwrHoldE_t_avail (availUs d es / 1000)
  let d := d.wr F.pwrHoldStat_contrib ((l.filter fun x => x.2.1 != 0).foldl (fun b x => b + 2 ^ x.1) 0)
  let d := forEach [0, 1, 2, 3] d fun d n =>
    let e := ((l.find? fun x => x.1 == n).map (·.2)).getD (0, 0)
    let d := (d.wr F.pwrHoldR_energy e.1 0 n).wr F.pwrHoldR_rate (e.2 / 3000000) 0 n
    d.wr F.pwrHoldB_bound (((bs.find? fun b => b.1 == n).map (·.2)).getD 0) 0 n
  let total := (bs.map (·.2)).sum
  let d := (d.wr F.hstBound_bound total 0).wr F.hstBound_bound total 1
  let d := forEach (presentHdas d) d fun d n => pressWriters (coverAll n d.host.extents.length d) n
  syncHost d

/-- Which HDA each command waits for (R88): the first not ready among those whose media work it waits for. -/
def refreshWaits (d : Dev) : Dev := d.updHost fun s => { s with ctxs := s.ctxs.map fun x => { x with waits := coldHda d x } }

/-- Tasks of an HDA that leaves HS0 wait again, and commands that wait on them take the deadline of R88. -/
def suspendHda (d : Dev) (n : Nat) : Dev :=
  let started (x : Ctx) : Bool := d.host.tasks.any fun t => t.begun && t.act / 2 == n && t.kind.serves x.id
  let d := d.updHost fun s => { s with ctxs := listMapIf started (fun x => { x with begun := true }) s.ctxs }
  let d := refreshWaits (d.updTasks fun l => l.map fun t => if t.act / 2 == n then { t with begun := false } else t)
  if d.host.tasks.any (fun t => t.act / 2 == n) then wantHda d n else d

/-- An HDA can run media tasks: those that waited for it begin (R88). -/
def hdaArrived (d : Dev) (n : Nat) : Dev :=
  if !hdaReady d n then d
  else
    let d := beginTasks (beginTasks d (2 * n)) (2 * n + 1)
    refreshWaits (d.updHost fun s => { s with wanted := s.wanted.filter fun m => m != n })

/-! ### Domains (R31, PWR_DOM) -/
def domHst (h : Nat) : Nat := 4 + h
def domLml (p : Nat) : Nat := 6 + p
def domChp (a : Nat) : Nat := 11 + a
def domSsc (n : Nat) : Nat := 19 + n
def domState (d : Dev) (k : Nat) : Nat := d.rd F.pwrDom_dom 0 k
def setDom (d : Dev) (k v : Nat) : Dev := if domState d k = 2 then d else d.wr F.pwrDom_dom v 0 k

/-- Fire Drill is under way. -/
def inDrill (d : Dev) : Bool := d.rd F.pwrHoldStat_state != 0 && d.rd F.pwrHoldStat_state != 4

/-- Domains that Fire Drill keeps in RUN (R33): PD_AON, PD_SEC, PD_CTL, PD_CORE and PD_MEM, PD_CHPa of a flushing actuator, PD_SSCn of
an HDA that contributes to hold-up. -/
def drillKeeps (d : Dev) (k : Nat) : Bool :=
  inDrill d && (decide (k ≤ 3) || k == 10 || (decide (11 ≤ k ∧ k < 19) && d.reset.flushing.contains ((k - 11) / 2)) ||
    (decide (19 ≤ k) && d.bit F.pwrHoldStat_contrib (k - 19)))

/-- A domain is brought to RETAIN, unless Fire Drill keeps it in RUN. -/
def retainDom (d : Dev) (k : Nat) : Dev := if drillKeeps d k then d else setDom d k 1

/-- Every FIFO between a domain and others is empty, and none of its crossbar packets is in progress (R29): the FIFOs of a channel
pair; those of the crossbar's ports concern PD_CORE, PD_MEM and the ports' domains. -/
def fifosEmpty (d : Dev) (k : Nat) : Bool :=
  if 11 ≤ k ∧ k < 19 then [2 * (k - 11), 2 * (k - 11) + 1].all fun c => (d.chn c).fifo.isEmpty && (d.chn c).queue.isEmpty
  else if k = 3 ∨ (4 ≤ k ∧ k ≤ 10) then d.xb.queued.isEmpty && d.xb.medHeld.isEmpty && d.xb.flights.isEmpty
  else true

/-- The chip leaves CS2 for CS1 (R359): the domains that only CS2 retains run again. [DEDUCED: assumption log 147] -/
def leaveCs2 (d : Dev) : Dev :=
  forEach [1, 2, 3, 4, 5, 6, 7, 8, 9, 10] ((d.wr F.pwrCs_state 1).wr F.pwrCs_target 1) fun d k => setDom d k 0

end Sys2Proof.Machine
end

