-- ==== Sys2Proof/Machine/HostQueue.lean ====
section
/-! DEFINITION. From submission queue to range-lock table: submission, fetch by weighted round robin, contexts, checks at fetch,
insertion, grant, write data, coverage, deadlines and the end of media tasks (R72-R90, R117-R124, R450). -/
namespace Sys2Proof.Machine

open Host (Outcome)

/-! ### Submission and fetch -/

/-- The host places a command in a submission queue that exists and has room. [DEDUCED: assumption log 7] -/
def submit (h qid cid : Nat) (c : IoCmd) (d : Dev) : Dev :=
  let room (q : Sq) : Bool := q.qid == qid && decide (q.cmds.length + 1 < q.entries)
  d.updPort h fun p => { p with sqs := listMapIf room (fun q => { q with cmds := q.cmds ++ [(cid, c)] }) p.sqs }

/-- Class of a queue: 0 urgent, 1 high, 2 medium, 3 low. -/
def prioNum : Prio → Nat
  | .urgent => 0
  | .high => 1
  | .medium => 2
  | .low => 3

/-- The next queue of a class with commands, round robin after the last one served. [DEDUCED: assumption log 46] -/
def nextQueue (p : Port) (k : Nat) : Option Sq :=
  let qs := p.sqs.filter fun q => prioNum q.prio == k && !q.cmds.isEmpty
  let after := qs.filter fun q => decide ((p.last[k]?).getD 0 < q.qid)
  match after with
  | q :: _ => some q
  | [] => qs.head?

/-- The queue the controller serves next (R76): a burst in progress goes on unless an urgent queue waits ahead of a
weighted one; urgent first; then a weighted class with credit left, whose burst its credit limits, the credits refilled (weight + 1) when none has.
[DEDUCED: assumption log 46] -/
def chooseQueue (p : Port) : Option (Sq × Port) :=
  let urgent := nextQueue p 0
  let going := match p.cur with
    | some (qid, left) =>
      if left = 0 then none
      else p.sqs.find? fun q => q.qid == qid && !q.cmds.isEmpty && (prioNum q.prio == 0 || urgent.isNone)
    | none => none
  let fresh (p : Port) (k : Nat) : Option (Sq × Port) := (nextQueue p k).map fun q =>
    (q, { p with cur := some (q.qid, if k = 0 then p.burst else min p.burst ((p.left[k - 1]?).getD 0)), last := p.last.set k q.qid })
  let weighted (p : Port) : Option (Sq × Port) :=
    ([1, 2, 3].filter fun k => decide (0 < (p.left[k - 1]?).getD 0)).findSome? (fresh p)
  match going with
  | some q => some (q, p)
  | none =>
    match fresh p 0 with
    | some r => some r
    | none =>
      match weighted p with
      | some r => some r
      | none => weighted { p with left := p.weights.map (· + 1) }

/-- One command leaves its queue: the burst and the class's credit count it. [DEDUCED: assumption log 46] -/
def takeCmd (q : Sq) (p : Port) : Port :=
  let k := prioNum q.prio
  { p with
    sqs := listMapIf (fun x => x.qid == q.qid) (fun x => { x with cmds := x.cmds.drop 1 }) p.sqs,
    cur := p.cur.map fun c => (c.1, c.2 - 1),
    left := if k = 0 then p.left else p.left.modify (k - 1) (· - 1) }

/-- I/O contexts of a port in use, and its share for I/O (R73). -/
def ioInUse (d : Dev) (h : Nat) : Nat :=
  (d.host.ctxs.filter fun x => match x.org with
    | .host g qid _ => g == h && qid != 0
    | _ => false).length
def ioShare (d : Dev) (h : Nat) : Nat := d.rd F.hstCtxStat_share h - 64

/-- Namespace of a local command, seen by a controller (R69, R98); chain commands name it directly. -/
def nsFor (d : Dev) (org : Origin) (nsid : Nat) : Option Ns :=
  (d.ns? nsid).bind fun ns => match org with
    | .host h _ _ => if ns.ctrls.contains (h + 1) then some ns else none
    | _ => some ns

/-- An HDA of a namespace admits I/O (R63, R306, R127). -/
def nsReady (d : Dev) (ns : Ns) : Bool :=
  ns.mapReady && (List.range 8).all fun a => !ns.actMask.testBit a ||
    (!d.host.refusedHda.contains (a / 2) && !d.host.replaying.contains (a / 2))

def zonedOnly : IoKind → Bool
  | .append | .zone _ _ | .zoneReport | .compAppend => true
  | _ => false

/-- The checks of a command at its fetch: a status that ends it at once, and the CPH_ERR bit where a key failed
(R67, R98, R100, R111, R156, R165-R176). [DEDUCED: assumption log 47] -/
def fetchCheck (d : Dev) (org : Origin) (fe : Nat) (c : IoCmd) : Option (Nat × Option Fld) :=
  let bad (st : Nat) : Option (Nat × Option Fld) := some (st, none)
  if d.rd F.glbStructStat_activate = 2 then bad stPending
  else if d.cipher.san.step ≠ 0 then bad stSanitizing
  else if d.cipher.san.failed then bad stSanitizeFailed
  else if d.cipher.withheld then
    (if (nsFor d org c.nsid).any fun ns => needsKey d ns c then some (stKeyEmpty, some F.cphErr_key_empty) else bad stAccessDenied)
  else if c.nsid = 0xFFFFFFFF then (if c.kind = .flush then none else bad stInvalidNs)
  else if 2 ^ 30 ≤ c.nsid then bad stInvalidNs
  else if nsidNode c.nsid ≠ 0 then
    match d.chain.nodes[nsidNode c.nsid]? with
    | none => bad stInvalidNs
    | some n =>
      if nsidLocal c.nsid = 0 && c.kind != .flush then bad stInvalidNs
      else if !n.reach then bad stUnreachable
      else none
  else if c.kind = .flush && c.nsid = 0 && decide (2 ≤ fe) then none
  else
    match nsFor d org c.nsid with
    | none => bad stInvalidNs
    | some ns =>
      if !nsReady d ns && c.kind != .flush then bad stNsNotReady
      else if c.kind = .flush || c.kind = .latGet || c.kind = .latSet || c.kind = .identify then none
      else if zonedOnly c.kind && !ns.zoned then bad (if c.kind = .compAppend then stInvalidField else stInvalidOpcode)
      else if (c.kind = .compAppend || c.kind = .ctxSave || c.kind = .ctxRestore || c.kind = .compRead)
          && (!classCompress d ns.cls || !d.flag F.cmpCfg_present) then bad stInvalidField
      else if c.kind = .compAppend && (c.gcm && !classGcm d ns.cls || decide (12 < c.level ∨ 512 < c.count ∨ 4096 ≤ c.ctx)) then
        bad stInvalidField
      else if (c.kind = .ctxSave || c.kind = .ctxRestore) && decide (4096 ≤ c.ctx) then bad stInvalidField
      else if decide ((if c.kind = .compRead then 513 else 512) < c.count) && c.kind != .writeZeroes && c.kind != .writeUncorrectable
          && c.kind != .verify then
        bad stInvalidField
      else if ns.nsze < c.slba + c.count then bad stLbaRange
      else if c.kind != .copy && c.ranges.any (fun r => decide (ns.nsze < r.slba + r.count)) then bad stLbaRange
      else match keyCheck d ns c with
        | some (st, f) => some (st, some f)
        | none => none

/-- A command takes a context and joins its fetch engine (R73, R77), or ends with a status. [DEDUCED: assumption log 47] -/
def enterCmd (d : Dev) (org : Origin) (fe : Nat) (c : IoCmd) : Dev :=
  let x : Ctx := { id := d.host.nextId, fe := fe, org := org, c := c }
  let d := d.updHost fun s => { s with nextId := s.nextId + 1, ctxs := s.ctxs ++ [x] }
  match fetchCheck d org fe c with
  | none => syncHost d
  | some (st, f) =>
    let d := match f with
      | some b => d.setFlag b true
      | none => d
    finish d x.id st 0

/-- CS1 and CS2 end at the first command (R358): out of CS2 the domains run again. -/
def wakeChip (d : Dev) : Dev :=
  if d.rd F.pwrCs_state = 0 then d
  else ((if d.rd F.pwrCs_state = 2 then leaveCs2 d else d).wr F.pwrCs_state 0).wr F.pwrCs_target 0

/-- An I/O command in a non-operational power state returns the device to the last operational one (R364). -/
def leaveIdlePs (d : Dev) : Dev :=
  if 3 ≤ d.rd F.pwrPs_ps then d.wr F.pwrPs_ps d.power.lastPs else d

/-- At loop-back depth 4 of a port writes fill the loop buffer from its start and reads return it; no media is touched (R419).
[DEDUCED: assumption log 179] -/
def loopCmd (d : Dev) (h qid cid : Nat) (c : IoCmd) : Dev :=
  let buf := tabGet [] d.host.loopBuf h
  let d := match c.kind with
    | .write => d.updHost fun s => { s with loopBuf := tabPut [] s.loopBuf h ((c.toks ++ buf.drop c.toks.length).take 512) }
    | _ => d.emit (.hostData h qid cid ((List.range c.count).map fun i => buf.getD i 0))
  d.emit (.cqe h qid cid 0 0)

/-- Depth 4 serves a command: a Read or Write of up to 2 MiB, but not while an activation is pending (R67).
[DEDUCED: assumption log 179] -/
def loopTakes (d : Dev) (h : Nat) (c : IoCmd) : Bool :=
  d.rd F.loop_depth h == 4 && decide (d.rd F.glbStructStat_activate < 2) && (c.kind == .read || c.kind == .write) && decide (c.count ≤ 512)

/-- COMMAND_FETCH (R76): without a free context fetching stops for the class (R74). -/
def commandFetch (h : Nat) (d : Dev) : Dev :=
  if !fetchAllowed d h then d
  else
    match chooseQueue (d.port h) with
    | none => d
    | some (q, p) =>
      if ioShare d h ≤ ioInUse d h then
        ((d.setFlag F.hstCtxStat_fetch_stalled true h).setFlag F.hstCtxStat_stall_seen true h).updPort h fun p =>
          { p with stalled := true }
      else
        match q.cmds with
        | [] => d
        | (cid, c) :: _ =>
          let d := leaveIdlePs (wakeChip (d.updPort h fun _ => takeCmd q p))
          if loopTakes d h c then loopCmd d h q.qid cid c else enterCmd d (.host h q.qid cid) h c

def execCommandFetch (h : HstId) (s : State) : Outcome State Fault Refusal := lift s (commandFetch h.val)

/-! ### Insertion (R77-R79, R450) -/

/-- Zones an action affects with Select All, by their states at insertion (R78). [DEDUCED: assumption log 53] -/
def actsOn (a : ZoneAction) (z : Zone) : Bool :=
  match a with
  | .openZone => z.state == .closed
  | .closeZone => z.state.isOpen
  | .finishZone => z.state.isOpen || z.state == .closed
  | .resetZone => z.state.isOpen || z.state == .closed || z.state == .full
  | .offlineZone => z.state == .readOnly

/-- The entries a command takes (R78).  A root does not know the zone size of a namespace on another node: its entry for an append or a
zone action there runs to the end of the namespace (R82). [DEDUCED: assumption log 53] -/
def locksOf (d : Dev) (c : IoCmd) : List Lock :=
  let own (excl : Bool) : List Lock := [{ excl := excl, nsid := c.nsid, lo := c.slba, hi := c.slba + c.count }]
  match c.kind with
  | .read | .compare | .verify | .compRead => own false
  | .write | .writeZeroes | .writeUncorrectable => own true
  | .deallocate => c.ranges.map fun r => { excl := true, nsid := c.nsid, lo := r.slba, hi := r.slba + r.count }
  | .copy => own true ++ c.ranges.map fun r =>
      { excl := false, nsid := if r.nsid = 0 then c.nsid else r.nsid, lo := r.slba, hi := r.slba + r.count }
  | .append | .compAppend =>
    match d.ns? c.nsid with
    | none => [{ excl := true, nsid := c.nsid, lo := c.slba, hi := 2 ^ 64 }]
    | some ns => [{ excl := true, nsid := c.nsid, lo := c.slba, hi := c.slba + zoneSize d ns, follow := true }]
  | .zone a all =>
    match d.ns? c.nsid with
    | none => if nsidNode c.nsid = 0 then [] else [{ excl := true, nsid := c.nsid, lo := if all then 0 else c.slba, hi := 2 ^ 64 }]
    | some ns =>
      let zs := zoneSize d ns
      if all then (ns.zones.zipIdx.filter fun z => actsOn a z.1).map fun z =>
        { excl := true, nsid := c.nsid, lo := z.2 * zs, hi := (z.2 + 1) * zs }
      else [{ excl := true, nsid := c.nsid, lo := c.slba, hi := c.slba + zs }]
  | _ => []

/-- The write-pointer check of a zoned write at insertion (R121, R450): none where it passes. -/
def pointerCheck (d : Dev) (c : IoCmd) : Option Nat :=
  match d.ns? c.nsid with
  | none => none
  | some ns =>
    if !ns.zoned then none
    else
      match c.kind with
      | .write | .writeZeroes | .writeUncorrectable | .copy =>
        let zi := zoneIndex d ns c.slba
        match ns.zones[zi]? with
        | none => some stLbaRange
        | some z =>
          match zoneWritable d ns z with
          | some st => some st
          | none =>
            if c.slba ≠ zi * zoneSize d ns + z.wp then some stZoneInvalidWrite
            else if zoneCap d ns < z.wp + c.count then some stZoneBoundary
            else none
      | .append | .compAppend =>
        match ns.zones[zoneIndex d ns c.slba]? with
        | none => some stLbaRange
        | some z => if c.slba % max 1 (zoneSize d ns) ≠ 0 then some stInvalidField else zoneWritable d ns z
      | _ => none

/-- A target asks for the write data of a command from a chain root (R325 phase 3). -/
def askData (d : Dev) (x : Ctx) : Dev :=
  match x.org with
  | .chain _ src tag _ =>
    match d.chain.dedupe.find? fun e => e.src == src && e.tag == tag && e.active with
    | none => d
    | some e =>
      if dataWanted x.c = 0 ∨ e.xrdy ≠ 0 then d
      else
        let mine (y : Dedupe) : Bool := y.src == src && y.tag == tag && y.active
        let asked (y : Dedupe) : Dedupe := { y with xrdy := 1, want := dataWanted x.c }
        let d : Dev := { d with chain := { d.chain with dedupe := listMapIf mine asked d.chain.dedupe } }
        originate d (mkFrame d e.src ftXrdy tag e.path e.attempt e.rbudget [0, dataWanted x.c] [] 0)
  | _ => d

/-- A command inserted: its entries taken; a zoned write's check and advance of the pointer; one that names a stream context of this
device joins its queue (R150), one that names a context of another node is forwarded there (R98, R103). -/
def insertCtx (d : Dev) (x : Ctx) : Dev :=
  let d := d.updHost fun s => { s with order := s.order ++ [x.id] }
  match pointerCheck d x.c with
  | some st => finish d x.id st 0
  | none =>
    let locks := locksOf d x.c
    let d := match x.c.kind, d.ns? x.c.nsid with
      | .write, some ns | .writeZeroes, some ns | .writeUncorrectable, some ns | .copy, some ns =>
        if ns.zoned then
          let zi := zoneIndex d ns x.c.slba
          (setPtr d x.c.nsid zi (x.c.slba % max 1 (zoneSize d ns) + x.c.count)).updCtx x.id fun c => { c with zw := some x.c.slba }
        else d
      | _, _ => d
    let local' := nsidNode x.c.nsid == 0
    let d := match x.c.kind with
      | .compAppend | .ctxSave | .ctxRestore => if local' then joinContext d x.c.ctx x.id else d
      | _ => d
    let stage := match x.c.kind with
      | .ctxSave | .ctxRestore => if local' then Stage.context else .locked
      | _ => .locked
    let d := d.updCtx x.id fun c => { c with stage := stage, locks := locks }
    syncHost (if x.c.kind == .ctxRestore && local' then askData d x else d)

/-- Insertion from a fetch engine, or its wait for free entries (R79); the table holds 16,384. -/
def insertFrom (fe : Nat) (d : Dev) : Dev :=
  match feHead d fe with
  | none => d
  | some x =>
    if 16384 < locksInUse d + (locksOf d x.c).length then
      forEach [0, 1] d fun d h => (d.setBit F.hstRltStat_blocked fe true h).setBit F.hstRltStat_blocked_seen fe true h
    else
      insertCtx (forEach [0, 1] d fun d h => d.setBit F.hstRltStat_blocked fe false h) x

/-- LOCK_INSERT (R78). -/
def execLockInsert (fe : Fin 7) (s : State) : Outcome State Fault Refusal :=
  lift s (insertFrom fe.val)

/-- LOCK_ENTRIES_FREED (R79). -/
def execLockEntriesFreed (fe : Fin 7) (s : State) : Outcome State Fault Refusal := lift s (insertFrom fe.val)

/-! ### Zone actions (R121, R122, R129) -/

/-- Blocks of an LBA range leave the locker journals: what lies at home now, or is there no more, must not return at a replay.
[DEDUCED: assumption log 194] -/
def unlocker (d : Dev) (nsid slba count : Nat) : Dev :=
  d.updHost fun s => { s with locker := s.locker.filter fun b => !(b.nsid == nsid && decide (slba ≤ b.lba ∧ b.lba < slba + count)) }

/-- Homework's entry over a zone gives way to Reset and Offline (R129 step 4). [DEDUCED: assumption log 72] -/
def dropHomework (d : Dev) (nsid zi : Nat) : Dev :=
  let ids := (d.host.ctxs.filter fun x => x.org == .internal && x.c.nsid == nsid && x.c.value == zi + 1).map (·.id)
  let d := forEach ids d discardCtx
  d.updHost fun s => { s with
    held := s.held.filter fun x => !(x.kind == 2 && x.key / 2 == nsid * 2 ^ 20 + zi),
    tasks := s.tasks.filter fun t => match t.kind with
      | .homeWrite n z _ | .homeVerify n z _ | .clean n z => !(n == nsid && z == zi)
      | _ => true }

/-- The effect of a zone action on one zone, or the status it ends with. [DEDUCED: assumption log 53] -/
def zoneAct (d : Dev) (ns : Ns) (zi : Nat) (a : ZoneAction) : Nat × Dev :=
  match ns.zones[zi]? with
  | none => (stInvalidField, d)
  | some z =>
    let put (st : ZState) : Dev := d.updZone ns.nsid zi fun z => { z with state := st }
    let slba := zi * zoneSize d ns
    match a with
    | .openZone =>
      match z.state with
      | .explicitOpen => (0, d)
      | .implicitOpen => (0, put .explicitOpen)
      | _ => match zoneWritable d ns z with
        | some st => (if z.state == .full || z.state == .readOnly || z.state == .offline then stZoneTransition else st, d)
        | none => (0, put .explicitOpen)
    | .closeZone =>
      match z.state with
      | .implicitOpen | .explicitOpen => (0, put (if z.wp = 0 then .empty else .closed))
      | .closed => (0, d)
      | _ => (stZoneTransition, d)
    | .finishZone =>
      match z.state with
      | .full => (0, d)
      | .readOnly | .offline => (stZoneTransition, d)
      | .empty => match zoneWritable d ns z with
        | some st => (st, d)
        | none => (0, refreshParity (put .full) ns.nsid zi)
      | _ => (0, refreshParity (put .full) ns.nsid zi)
    | .resetZone =>
      match z.state with
      | .readOnly | .offline => (stZoneTransition, d)
      | _ =>
        let d := (dropHomework d ns.nsid zi).updZone ns.nsid zi fun z => { z with state := .empty, wp := 0, markA := false, markB := false }
        let d := (dropParity (unlocker d ns.nsid slba (zoneSize d ns)) ns.nsid zi).updHost fun s => { s with
          media := s.media.filter fun m => !(m.1 % 1024 == ns.nsid % 1024
            && decide (slba ≤ m.1 / 1024 ∧ m.1 / 1024 < slba + zoneSize d ns)) }
        let d := d.updExtents fun l => (l.map fun e => if e.nsid == ns.nsid
          then { e with cells := e.cells.filter fun c => !decide (slba ≤ c.lba ∧ c.lba < slba + zoneSize d ns) } else e).filter
            fun e => !e.cells.isEmpty
        (0, settleWrites (rearmReads (release d ns.nsid slba (zoneSize d ns))))
    | .offlineZone =>
      match z.state with
      | .offline => (0, d)
      | .readOnly => (0, (dropHomework d ns.nsid zi).updZone ns.nsid zi fun z => { z with state := .offline })
      | _ => (stZoneTransition, d)

/-- A Zone Management Send that has its locks takes effect (R121), with Select All on the zones whose entries it holds (R78).
[DEDUCED: assumption log 53] -/
def runZone (d : Dev) (x : Ctx) (a : ZoneAction) (all : Bool) : Dev :=
  match d.ns? x.c.nsid with
  | none => finish d x.id stInvalidNs 0
  | some ns =>
    let zs := if all then x.locks.map fun l => zoneIndex d ns l.lo else [zoneIndex d ns x.c.slba]
    if !all && x.c.slba % max 1 (zoneSize d ns) != 0 then finish d x.id stInvalidField 0
    else
      let r := zs.foldl (fun (acc : Nat × Dev) zi =>
        if acc.1 ≠ 0 then acc
        else match acc.2.ns? x.c.nsid with
          | none => acc
          | some ns => zoneAct acc.2 ns zi a) (0, d)
      finish r.2 x.id r.1 0

/-! ### Grant (R80-R82, R124) -/

/-- A read starts (R81, R168): from one extent written under the key pair the read names, after the destage of the extents
it overlaps otherwise, or from the media. [DEDUCED: assumption log 62] -/
def startRead (d : Dev) (x : Ctx) : Dev :=
  let es := overlapping d x.c.nsid x.c.slba x.c.count
  let mine (l : Nat) : Bool := match d.bufCell x.c.nsid l, d.ns? x.c.nsid with
    | some c, some ns => pairOf d ns x.c.keyTag l == some c.now.pair
    | _, _ => false
  match es with
  | [] => startMedia d x fun d => serveRead d x
  | [e] =>
    if x.c.lbas.all (fun l => (e.cells.any fun c => c.lba == l) && mine l) then serveRead d x
    else destageExtent (d.updCtx x.id fun c => { c with stage := .overlap, pend := [e.wid] }) e true
  | es => forEach es (d.updCtx x.id fun c => { c with stage := .overlap, pend := es.map (·.wid) }) fun d e => destageExtent d e true

/-- The first HDA of an actuator mask. -/
def firstHda (ns : Ns) : Nat := (((List.range 8).find? fun a => ns.actMask.testBit a).getD 0) / 2

/-- Dataset Management takes effect (R124): whole units lose their mapping, the LBAs of partly covered ones are written as
zeroes; a deallocated LBA leaves Detention (R132), and each unit changed goes to the map journal (R127). [DEDUCED: assumption log 48] -/
def runDeallocate (d : Dev) (x : Ctx) : Dev :=
  let d := forEach x.c.ranges d fun d r =>
    let units := (((List.range r.count).map fun i => (r.slba + i) / 8).eraseDups).filter fun u =>
      (List.range 8).any fun k => (d.mediaBlk x.c.nsid (8 * u + k)).mapped
    let hdas := units.map fun u => ((((List.range 8).map fun k => d.mediaBlk x.c.nsid (8 * u + k)).find? (·.mapped)).map (·.act / 2)).getD 0
    let d := forEach ((List.range r.count).map fun i => r.slba + i) d fun d l =>
      let whole := decide (r.slba ≤ l / 8 * 8 ∧ l / 8 * 8 + 8 ≤ r.slba + r.count)
      let t := takeCell d x.c.nsid l
      let m := t.2.mediaBlk x.c.nsid l
      if whole then t.2.setMedia x.c.nsid l {}
      else if m.mapped then
        let pair := (t.2.ns? x.c.nsid).bind fun ns => (pairOf t.2 ns 0 l).bind (pairKeys t.2 ns)
        t.2.setMedia x.c.nsid l { m with blk := .data 0, keys := pair }
      else t.2
    let d := if (d.ns? x.c.nsid).all (·.zoned) then d else forEach (units.zip hdas) d fun d u => mapUpdate d x.c.nsid u.1 u.2 false
    release (unlocker d x.c.nsid r.slba r.count) x.c.nsid r.slba r.count
  settleWrites (rearmReads (finish (d.updNs x.c.nsid fun ns => { ns with mapDirty := true }) x.id 0 0))

/-- The number a CMD frame gives a kind of command, and a zone action. -/
def kindCode : IoKind → Nat
  | .read => 0
  | .write => 1
  | .writeZeroes => 2
  | .writeUncorrectable => 3
  | .compare => 4
  | .verify => 5
  | .deallocate => 6
  | .copy => 7
  | .append => 8
  | .zone _ _ => 9
  | .zoneReport => 10
  | .flush => 11
  | .compAppend => 12
  | .compRead => 13
  | .ctxSave => 14
  | .ctxRestore => 15
  | .latGet => 16
  | .latSet => 17
  | .identify => 18
  | .dsmOther => 19
def actCode : IoKind → Nat
  | .zone .openZone all => all.toNat
  | .zone .closeZone all => 2 + all.toNat
  | .zone .finishZone all => 4 + all.toNat
  | .zone .resetZone all => 6 + all.toNat
  | .zone .offlineZone all => 8 + all.toNat
  | _ => 0

/-- The SQE as a CMD frame carries it (R314): the fields of the command, then its ranges. -/
def sqeBody (c : IoCmd) : List Nat :=
  [kindCode c.kind, actCode c.kind, c.slba, c.count, c.fua.toNat, c.keyTag, c.value, c.ctx, c.stored, c.bufLbas, c.cont.toNat, c.level,
   c.gcm.toNat] ++ c.ranges.flatMap fun r => [r.nsid, r.slba, r.count, r.tag]

/-- The CMD frame of a forwarded command, and its transaction at the root (R318, R325); with the root's write cache disabled the target
completes a write once it is on media (R87). [DEDUCED: assumption log 192] -/
def forwardCmd (d : Dev) (x : Ctx) : Dev :=
  match d.chain.nodes[nsidNode x.c.nsid]? with
  | none => finish d x.id stUnreachable 0
  | some n =>
    let b := budgetFor d (hopsTo n)
    let code := kindCode x.c.kind
    let f := mkFrame d n.addr ftCmd d.chain.nextTag false 0 b
      [b, nsidLocal x.c.nsid, dataWanted x.c, if 16 ≤ code ∧ code ≤ 18 then 1 else 0] (sqeBody { x.c with fua := needsMedia d x }) (1 + (16 * x.c.ranges.length + 63) / 64)
    let tx : RootTx := { tag := d.chain.nextTag, id := x.id, addr := n.addr, path := false, attempt := 0, sent := 1,
                         acked := false, wclass := writesData x.c.kind || dataWanted x.c != 0, cmd := f }
    let d := { d with chain := { d.chain with nextTag := (d.chain.nextTag + 1) % 2 ^ 32, root := d.chain.root ++ [tx] } }
    originate (d.updCtx x.id fun c => { c with stage := .remote }) f

/-- A Copy reads a source range that lies on another node as requester of a transaction of its own, in the internal share (R330).
[DEDUCED: assumption log 63] -/
def readRemote (d : Dev) (x : Ctx) (k : Nat) (r : LbaRange) : Dev :=
  let id := d.host.nextId
  let y : Ctx := { id := id, fe := 6, org := .internal, stage := .remote,
                   c := { kind := .read, nsid := r.nsid, slba := r.slba, count := r.count, keyTag := r.tag, cont := true, ctx := x.id, stored := k } }
  let d := d.updHost fun s => { s with nextId := s.nextId + 1, ctxs := s.ctxs ++ [y] }
  forwardCmd (d.updCtx x.id fun c => { c with pend := c.pend ++ [id] }) y

/-- The actuators whose media a Copy reads on this device. -/
def copyActs (d : Dev) (c : IoCmd) : List Nat :=
  ((copySources d c).filterMap fun s =>
    let m := d.mediaBlk s.1.nsid s.2.1
    if m.mapped && (d.bufCell s.1.nsid s.2.1).isNone then some m.act else none).eraseDups

/-- Identify Namespace (R70): NSZE, NCAP, the one LBA format of 4,096 data bytes without metadata, and the vendor fields of R110.
[PRESUMED: assumption log 57] -/
def nsData (d : Dev) (ns : Ns) : List Nat :=
  let field (v n : Nat) : List Nat := (toBytes v n).map (·.toNat)
  let cap := if ns.zoned then ns.zones.length * zoneCap d ns else ns.nsze
  field ns.nsze 8 ++ field cap 8 ++ field 12 1 ++ field 0 2 ++ field ns.cls 1 ++ field ns.parity 1 ++ field ns.actMask 1

/-- Tolerable Latency set in a namespace, and saved where asked (R105). -/
def setLat (us : Nat) (save : Bool) (ns : Ns) : Ns := { ns with latency := us, latSaved := if save then us else ns.latSaved }

/-- A command whose lock is granted starts. -/
def startCtx (d : Dev) (x : Ctx) : Dev :=
  if nsidNode x.c.nsid ≠ 0 ∧ x.c.nsid ≠ 0xFFFFFFFF then forwardCmd d x
  else if x.c.kind == .compare && !chainReady d x then askData (d.updCtx x.id fun c => { c with stage := .moving }) x
  else
    match x.c.kind with
    | .read | .compare | .verify => startRead d x
    | .copy =>
      let cold := (copyActs d x.c).filter fun a => !hdaReady d (a / 2)
      let d := forEach cold (d.updCtx x.id fun c => { c with stage := .moving, waits := cold.head?.map (· / 2) }) fun d a => wantHda d (a / 2)
      forEach (x.c.ranges.zipIdx.filter fun r => nsidNode r.1.nsid != 0) d fun d r => readRemote d x r.2 r.1
    | .compRead => startRead { d with comp := { d.comp with waiting := d.comp.waiting ++ [x.id] } } x
    | .deallocate => runDeallocate d x
    | .dsmOther => finish d x.id 0 0
    | .zone a all => runZone d x a all
    | .zoneReport =>
      match d.ns? x.c.nsid with
      | none => finish d x.id stInvalidNs 0
      | some ns =>
        let zs := zoneSize d ns
        finish (returnData d x ((ns.zones.zipIdx.filter fun z => decide (x.c.slba ≤ z.2 * zs)).flatMap fun z =>
          [z.2 * zs, z.2 * zs + z.1.wp, zoneCap d ns, match z.1.state with
            | .empty => 1
            | .implicitOpen => 2
            | .explicitOpen => 3
            | .closed => 4
            | .readOnly => 0xD
            | .full => 0xE
            | .offline => 0xF])) x.id 0 0
    | .flush =>
      let nss := if x.c.nsid = 0xFFFFFFFF then (d.host.nss.filter fun ns => match x.org with
          | .host h _ _ => ns.ctrls.contains (h + 1)
          | _ => true).map (·.nsid)
        else if nsidLocal x.c.nsid = 0 then d.host.nss.map (·.nsid) else [x.c.nsid]
      let es := d.host.extents.filter fun e => nss.contains e.nsid
      let wids := ((es.flatMap Extent.copies).filter fun c => c.2.covered && !c.2.safe).map fun c => c.2.wid
      let d := d.updCtx x.id fun c => { c with stage := .flushing, pend := wids.eraseDups }
      forEach (es.filter fun e => wids.contains e.wid) d fun d e => destageExtent d e true
    | .append =>
      match d.ns? x.c.nsid with
      | none => finish d x.id stInvalidNs 0
      | some ns =>
        let zi := zoneIndex d ns x.c.slba
        match ns.zones[zi]? with
        | none => finish d x.id stLbaRange 0
        | some z =>
          match zoneWritable d ns z with
          | some st => finish d x.id st 0
          | none =>
            if zoneCap d ns < z.wp + x.c.count then finish d x.id stZoneBoundary 0
            else
              let start := zi * zoneSize d ns + z.wp
              (setPtr d x.c.nsid zi (z.wp + x.c.count)).updCtx x.id fun c => { c with
                stage := .moving, zw := some start, c := { c.c with slba := start },
                locks := [{ excl := true, nsid := x.c.nsid, lo := start, hi := start + x.c.count }] }
    | .latGet =>
      finish d x.id 0 (match d.ns? x.c.nsid with
        | some ns => ns.latency
        | none => 0)
    | .latSet =>
      if 60000000 < x.c.value then finish d x.id stInvalidField 0
      else finish (d.updNs x.c.nsid (setLat x.c.value x.c.cont)) x.id 0 0
    | .identify =>
      finish (returnData d x (match d.ns? x.c.nsid with
        | some ns => nsData d ns
        | none => [])) x.id 0 0
    | .compAppend =>
      { d with comp := { d.comp with waiting := d.comp.waiting ++ [x.id] } }.updCtx x.id fun c => { c with stage := .moving }
    | _ => d.updCtx x.id fun c => { c with stage := .moving }

/-- LOCK_GRANT (R80): only where the command is compatible with every earlier overlapping entry. -/
def lockGrant (id : Nat) (d : Dev) : Dev :=
  match d.ctx? id with
  | none => d
  | some x => 
    if x.stage == .locked && lockFree d x then
      let d := startCtx d x
      syncHost (match d.ctx? id with
        | some x => takeNaks (if x.stage == .moving then askData d x else d)
        | none => takeNaks d)
    else d

def execLockGrant (id : Nat) (s : State) : Outcome State Fault Refusal := lift s (lockGrant id)

/-! ### Write data and coverage -/

/-- What a write-class command stores, block by block. [DEDUCED: assumption log 63] -/
def writeBlks (d : Dev) (x : Ctx) : List Blk :=
  match x.c.kind with
  | .writeZeroes => x.c.lbas.map fun _ => .data 0
  | .writeUncorrectable => x.c.lbas.map fun _ => .uncorrectable
  | .copy => x.c.ranges.zipIdx.flatMap fun r => (List.range r.1.count).map fun i =>
      if nsidNode r.1.nsid = 0 then d.readBlk (if r.1.nsid = 0 then x.c.nsid else nsidLocal r.1.nsid) r.1.tag (r.1.slba + i)
      else .data (((tabGet [] x.got r.2)[i]?).getD 0)
  | _ => x.c.lbas.zipIdx.map fun l => .data ((x.c.toks[l.2]?).getD 0)

/-- The HDA and actuator of each block (R296): in a zoned namespace the zone's; in a conventional one the log heads
that firmware chose, given as runs of blocks, the first actuator of that HDA in the mask. [DESIGN CHOICE: assumption log 49] -/
def homeOf (d : Dev) (ns : Ns) (lba off : Nat) (split : List (Nat × HdaId)) : Nat × Nat :=
  if ns.zoned then
    match ns.zones[zoneIndex d ns lba]? with
    | some z => (z.act / 2, z.act)
    | none => (0, 0)
  else
    let r := split.foldl (fun (acc : Nat × Option Nat) s =>
      match acc.2 with
      | some _ => acc
      | none => if off < acc.1 + s.1 then (acc.1, some s.2.val) else (acc.1 + s.1, none)) (0, none)
    let act := match r.2 with
      | some n => if ns.actMask.testBit (2 * n) then 2 * n else 2 * n + 1
      | none => ((List.range 8).find? fun a => ns.actMask.testBit a).getD 0
    (act / 2, act)

/-- The blocks that a Copy reads from media pass the cores under their own keys (R159): the first failure. [DEDUCED: assumption log 63] -/
def copyKeys (d : Dev) (c : IoCmd) : Option (Nat × Fld) × Dev :=
  let read := (copySources d c).filter fun s => (d.bufCell s.1.nsid s.2.1).isNone && (d.mediaBlk s.1.nsid s.2.1).mapped
  (read.map (·.1)).eraseDups.foldl (fun (acc : Option (Nat × Fld) × Dev) ns => match acc.1 with
    | some _ => acc
    | none => xtsPairs acc.2 ns ((read.filter fun s => s.1.nsid == ns.nsid).filterMap fun s => pairOf acc.2 ns s.2.2 s.2.1) false) (none, d)

/-- The blocks of a write with its home and the slot pair of each placed in the buffer (R80, R165, R168). [DEDUCED: assumption log 89] -/
def bufferBlks (d : Dev) (x : Ctx) (ns : Ns) (blks : List Blk) (split : List (Nat × HdaId)) : Dev :=
  let cells := blks.zipIdx.map fun b =>
    let lba := x.c.slba + b.2
    let home := homeOf d ns lba b.2 split
    (lba, { wid := x.id, blk := b.1, hda := home.1, act := home.2, pair := (pairOf d ns x.c.keyTag lba).getD 0 : BufCopy })
  let d := countMoved d x (cells.map fun c => c.2.hda)
  let d := (placeExtent d x.id x.c.nsid cells).updCtx x.id fun c => { c with stage := .buffered, waits := none }
  let d := d.updNs x.c.nsid fun ns => { ns with hostWrites := ns.hostWrites + x.c.count, mapDirty := !ns.zoned }
  let d := release d x.c.nsid x.c.slba x.c.count
  let d := forEach ((cells.map fun c => c.2.hda).eraseDups) d fun d n => pressWriters (coverNext d n) n
  syncHost (tryComplete d x.id)

/-- A write's data lies wholly in the buffer (R80): poisoned data ends the command with 0x82 (R342); a Copy first reads what lies on this
device's media (R159) and ends with the status of what it finds. [DEDUCED: assumption log 63] -/
def dataBuffered (id : Nat) (split : List (Nat × HdaId)) (poison : List Nat) (d : Dev) : Dev :=
  match d.ctx? id with
  | none => d
  | some x =>
    if x.stage != .moving || x.c.kind == .compare || !chainReady d x || (x.c.kind == .copy && !x.pend.isEmpty) then d
    else if (copyActs d x.c).any (fun a => !hdaReady d (a / 2)) then d
    else if x.c.kind == .compAppend then
      syncHost (d.updCtx id fun c => { c with stage := .context, poison := poison })
    else if !poison.isEmpty then failWrite d id stPoison
    else
      match d.ns? x.c.nsid, copyKeys d x.c with
      | none, _ => d
      | some _, (some f, d) => failWrite d id f.1
      | some ns, (none, d) =>
        let blks := writeBlks d x
        let st := if x.c.kind == .copy then blkStatus blks else 0
        if st ≠ 0 then failWrite d id st else bufferBlks d x ns blks split

/-- WRITE_DATA_BUFFERED (R80): how firmware splits a conventional write over HDAs, and the blocks that arrived poisoned. -/
def execWriteDataBuffered (id : Nat) (split : List (Nat × HdaId)) (poison : List Nat) (s : State) : Outcome State Fault Refusal :=
  lift s (dataBuffered id split poison)

/-- WRITE_COVERAGE (R83). -/
def execWriteCoverage (n : HdaId) (s : State) : Outcome State Fault Refusal :=
  lift s fun d => pressWriters (coverNext d n.val) n.val

/-- A command waits for an HDA to reach HS0, or for coverage (R88). [DEDUCED: assumption log 54] -/
def waitsR88 (d : Dev) (x : Ctx) : Bool :=
  (coldHda d x).isSome || (x.stage == .moving && (copyActs d x.c).any fun a => !hdaReady d (a / 2)) ||
    (x.stage == .buffered && !whollyCovered d x.id)

/-- TOLERABLE_LATENCY_EXPIRY (R88). [DEDUCED: assumption log 54] -/
def latencyExpiry (id : Nat) (d : Dev) : Dev :=
  match d.ctx? id with
  | none => d
  | some x =>
    if !waitsR88 d x then d
    else if writesData x.c.kind then failWrite d id stNotReady
    else finish d id stNotReady 0

def execTolerableLatencyExpiry (id : Nat) (s : State) : Outcome State Fault Refusal := lift s (latencyExpiry id)

/-! ### The end of media tasks (R199, R241, R244-R246) -/

/-- Sectors relocated on an actuator fill its relocation tracks (R245). [DEDUCED: assumption log 74] -/
def relocFull (d : Dev) (act : Nat) : Bool :=
  decide (Config.relocSectors act ≤ (d.host.media.filter fun m => m.2.moved && m.2.act == act).length)

/-- A block of a zoned namespace whose home a head in Detention was to write goes to relocation tracks (R245).
[DEDUCED: assumption log 74] -/
def goesAway (d : Dev) (nsid lba act : Nat) : Bool :=
  match d.ns? nsid with
  | none => false
  | some ns => ns.zoned && d.host.headDet.contains (act * 12 + (mediaPlace d ns lba { act := act }).1)

/-- A block lies on media under keys (R157); one that goes to a relocation track is listed (R245), a poisoned marker too (R343).
[DEDUCED: assumption log 74] -/
def landBlk (d : Dev) (nsid lba act : Nat) (blk : Blk) (keys : Option (Nat × Nat)) : Dev :=
  let away := goesAway d nsid lba act
  let m : MediaBlk := { d.mediaBlk nsid lba with mapped := true, blk := blk, act := act, keys := keys, moved := away }
  let d := d.setMedia nsid lba m
  let place := match d.ns? nsid with
    | some ns => mediaPlace d ns lba m
    | none => (0, 0)
  let list (reason : Nat) (d : Dev) : Dev :=
    let (time, d) := stampMs d
    detain d { nsid := nsid, lba := some lba, reason := reason, act := act, head := place.1, track := place.2, time := time }
  if blk = .lost then list 3 d
  else if away then list (((d.host.detention.find? fun e => e.lba.isNone && e.act == act && e.head == place.1).map (·.reason)).getD 4) d
  else d

/-- A buffered copy reaches its home, encrypted under its pair (R157): its journal entry counts no more. [DEDUCED: assumption log 194] -/
def landCell (d : Dev) (nsid : Nat) (poisoned : Bool) (lba : Nat) (c : BufCopy) : Dev :=
  unlocker (landBlk d nsid lba c.act (if poisoned then .lost else c.blk) ((d.ns? nsid).bind fun ns => pairKeys d ns c.pair)) nsid lba 1

/-- A block leaves the buffer. -/
def dropCell (d : Dev) (wid nsid lba : Nat) : Dev :=
  d.updExtents fun l => (listMapIf (fun e => e.wid == wid && e.nsid == nsid)
    (fun e => { e with cells := e.cells.filter fun c => c.lba != lba }) l).filter fun e => !e.cells.isEmpty

/-- The band pair that takes the next unit of a conventional namespace on an actuator (R123, R245): one begun with room, else an
empty one, on heads not in Detention for writing. [DESIGN CHOICE: assumption log 49] -/
def logBand (d : Dev) (ns : Ns) (act : Nat) (not : Option Nat) : Option Nat :=
  let cap := fmtBandMib d (act / 2) * 512 * (64 - ns.parity) / 64
  let fit := (List.range ns.zones.length).filter fun i => not != some i && match ns.zones[i]? with
    | some z => z.act == act && decide (z.wp + 8 ≤ cap) && !d.host.headDet.contains (act * 12 + z.headA)
        && !d.host.headDet.contains (act * 12 + z.headB)
    | none => false
  match fit.find? (fun i => (ns.zones[i]?).any fun z => z.wp != 0) with
  | some i => some i
  | none => fit.head?

/-- A whole unit of 8 LBAs written at the log head, with its parity and its map record (R119, R123, R124, R127).
[DESIGN CHOICE: assumption log 49] -/
def placeUnit (d : Dev) (nsid act : Nat) (not : Option Nat) (unit : Nat) : Dev :=
  match (d.ns? nsid).bind fun ns => (logBand d ns act not).map fun i => (ns, i) with
  | none => d
  | some (ns, i) =>
    let wp := ((ns.zones[i]?).map (·.wp)).getD 0
    let cap := fmtBandMib d (act / 2) * 512 * (64 - ns.parity) / 64
    let d := runParity d ns i act ((List.range 8).map fun k => parityData d nsid (unit * 8 + k))
    let d := d.updZone nsid i fun z => { z with wp := wp + 8, state := if cap < wp + 16 then .full else .implicitOpen }
    let d := forEach (List.range 8) d fun d k =>
      let m := d.mediaBlk nsid (unit * 8 + k)
      if m.mapped then d.setMedia nsid (unit * 8 + k) { m with act := act, band := i, off := wp + k } else d
    mapUpdate d nsid unit (act / 2) false

/-- Reads that wait for extents start again once none of them is left (R81). -/
def wakeWaiters (d : Dev) : Dev :=
  forEach d.host.ctxs d fun d x =>
    match d.ctx? x.id with
    | none => d
    | some x =>
      let left := x.pend.any fun w => d.host.extents.any fun e => e.wid == w
      if x.stage == .overlap && !left then startRead (d.updCtx x.id fun c => { c with stage := .locked }) x
      else d

/-- Flushes that wait for a write some of which no relocation track can take end with 0x89 (R108, R246). [DEDUCED: assumption log 74] -/
def failFlushes (d : Dev) (wid : Nat) : Dev :=
  forEach (d.host.ctxs.filter fun x => x.stage == .flushing && x.pend.contains wid) d fun d x => finish d x.id stWriteFault 0

/-- The blocks of an extent that go to an actuator reach the media, except those for which its relocation tracks have no room: these stay
covered in the buffer (R245, R246). [DEDUCED: assumption log 74] -/
def landExtent (d : Dev) (e : Extent) (act : Nat) (poisoned : List Nat) : Dev :=
  let cells := e.cells.filter fun c => c.now.act == act
  let d := forEach cells d fun d c =>
    if goesAway d e.nsid c.lba act && relocFull d act then failFlushes d e.wid
    else cardCount (dropCell (landCell d e.nsid (c.now.poison || poisoned.contains c.lba) c.lba c.now) e.wid e.nsid c.lba) 5 1
  match d.ns? e.nsid with
  | none => d
  | some ns =>
    if ns.zoned then forEach ((cells.map fun c => zoneIndex d ns c.lba).eraseDups) d fun d zi => refreshParity d e.nsid zi
    else forEach ((cells.map fun c => c.lba / 8).eraseDups) d fun d u => placeUnit d e.nsid act none u

/-- The blocks of a wholly covered write for an actuator reach their home on the media (R83, R87-R89), once the keys they were written
under have been used (R166). -/
def destaged (d : Dev) (wid act : Nat) (poisoned : List Nat) : Dev :=
  if !whollyCovered d wid then d
  else
    let es := d.host.extents.filter fun e => e.wid == wid
    let d := d.updCtx wid fun x => { x with begun := true }
    let d := forEach es d fun d e => match d.ns? e.nsid with
      | none => d
      | some ns =>
        match xtsPairs d ns ((e.cells.filter fun c => c.now.act == act).map fun c => c.now.pair) true with
        | (some _, d) => d
        | (none, d) => landExtent d e act poisoned
    syncHost (wakeWaiters (settleWrites (settleReadOnly d)))

/-- Copies of a write for an actuator that are covered and on no track yet, by namespace and LBA. -/
def unsafeCopies (d : Dev) (wid act : Nat) : List (Nat × Nat × BufCopy) :=
  (d.host.extents.flatMap fun e => e.copies.map fun c => (e.nsid, c.1, c.2)).filter fun c =>
    c.2.2.wid == wid && c.2.2.act == act && c.2.2.covered && !c.2.2.safe

/-- The covered copies of a write for an actuator reach locker tracks of its HDA (R90, R93, R182): they leave D, and stay buffered, since
locker tracks are read only at a replay. [DEDUCED: assumption log 194] -/
def lockered (d : Dev) (wid act : Nat) (poisoned : List Nat) : Dev :=
  let d := d.updCtx wid fun x => { x with begun := true }
  let cs := unsafeCopies d wid act
  let d := forEach ((cs.map (·.1)).eraseDups) d fun d nsid => match d.ns? nsid with
    | none => d
    | some ns =>
      let mine := cs.filter fun c => c.1 == nsid
      match xtsPairs d ns (mine.map fun c => c.2.2.pair) true with
      | (some _, d) => d
      | (none, d) =>
        let mark (c : BufCopy) : BufCopy := if c.wid == wid && c.act == act && c.covered then { c with safe := true } else c
        (d.updHost fun s => { s with
          locker := s.locker ++ mine.map fun c =>
            { hda := act / 2, nsid := nsid, lba := c.2.1, blk := if c.2.2.poison || poisoned.contains c.2.1 then .lost else c.2.2.blk,
              act := act, covered := true, keys := pairKeys d ns c.2.2.pair },
          lockerHash := if mine.isEmpty then s.lockerHash else tabPut 0 s.lockerHash (act / 2) (sectionHash d (act / 2)) }).updExtents
          (listMapIf (fun y => y.nsid == nsid) fun y =>
            { y with cells := y.cells.map fun c => { c with now := mark c.now, under := c.under.map mark } })
  syncHost (settleWrites d)

/-- Locker tracks take the covered copies of a write, in place of its home destage (R90, R93); a stopped HDA is wanted in HS0. -/
def toLocker (d : Dev) (wid act : Nat) : Dev :=
  addTask (d.updTasks fun l => l.filter fun t => !(t.kind == .destage wid && t.act == act)) (.locker wid) act true

/-- A head's second assist fault (R244, R246): Detention for writing; a write under R87 that it was to write ends with 0x89,
the rest of its data goes to other heads. [DEDUCED: assumption log 103] -/
def writeFault (d : Dev) (t : MTask) (head : Nat) : Dev :=
  let d := detainHead d t.act head 4
  match t.kind with
  | .destage wid =>
    match d.ctx? wid with
    | some x => if x.stage == .media then failWrite d wid stWriteFault else d
    | none => d
  | _ => d

/-- The read task of an actuator ended: its sectors pass the cores under the keys of the blocks (R165, R166); the command ends with its last
task. -/
def readEnded (d : Dev) (id act : Nat) (poisoned : List Nat) : Dev :=
  match d.ctx? id with
  | none => d
  | some x =>
    let x' := { x with begun := true, pend := x.pend.filter fun a => a != act, poison := x.poison ++ poisoned }
    let read := x.c.lbas.filter fun l => (d.mediaBlk x.c.nsid l).mapped && (d.mediaBlk x.c.nsid l).act == act && !inRewrite d x.c.nsid l
    let d := cardCount (d.updCtx id fun _ => x') 6 read.length
    let r := match d.ns? x.c.nsid with
      | some ns => xtsPairs d ns (read.filterMap fun l => pairOf d ns x.c.keyTag l) false
      | none => (none, d)
    match r with
    | (some f, d) => finish d id f.1 0
    | (none, d) =>
      if !x'.pend.isEmpty then d
      else if !x'.poison.isEmpty then finish d id stPoison 0
      else serveRead d x'

/-- The LBAs of a zone whose sectors lie in one of its bands (R116). -/
def bandLbas (d : Dev) (ns : Ns) (zi : Nat) (z : Zone) (second : Bool) : List Nat :=
  ((List.range z.wp).filter fun x => (zonePlace z.isPair (fmtBandMib d (z.act / 2)) ns.parity x).1 == second.toNat).map fun x =>
    zi * zoneSize d ns + x

/-- A rewritten band reads back with margin (R129 step 3, R132): its mark goes and its sectors leave Detention; otherwise it stays marked.
Either way the rewrite ends. [DEDUCED: assumption log 72] -/
def rewriteVerified (d : Dev) (nsid zi : Nat) (second good : Bool) : Dev :=
  match d.ns? nsid, d.zone? nsid zi with
  | some ns, some z =>
    let lbas := bandLbas d ns zi z second
    let d := forEach lbas d fun d l => if good then release d nsid l 1 else relocating d nsid l 1 0
    let d := if good then d.updZone nsid zi fun z => if second then { z with markB := false } else { z with markA := false } else d
    dropHomework d nsid zi
  | _, _ => dropHomework d nsid zi

/-- The valid units of a band pair move to the log head, and the pair is free with its generation counted (R123, R125, R132).
[DESIGN CHOICE: assumption log 70] -/
def cleanBand (d : Dev) (nsid zi : Nat) : Dev :=
  match d.zone? nsid zi with
  | none => d
  | some z =>
    let units := ((d.host.media.filter fun m => m.1 % 1024 == nsid % 1024 && m.2.mapped && m.2.act == z.act && m.2.band == zi).map fun m =>
      m.1 / 1024 / 8).eraseDups
    let d := forEach units d fun d u => release (placeUnit d nsid z.act (some zi) u) nsid (8 * u) 8
    let d := dropParity d nsid zi
    dropHomework (d.updZone nsid zi fun z =>
      { z with state := .empty, wp := 0, markA := false, markB := false, run := [], gen := (z.gen + 1) % 4096 }) nsid zi

/-- A task that the Timetable treats as failed is reposted (R199): it begins again where it may, a read counts one retry of the ladder.
What a cut-short write had written stays buffered, and its slots are written again from their first symbols.
[DESIGN CHOICE: assumption log 96] -/
def repost (d : Dev) (t : MTask) : Dev :=
  let read := match t.kind with
    | .read _ | .homeVerify _ _ _ => true
    | _ => false
  let n := if mayBegin d t.act then streamsFor d t.kind t.act else 0
  d.updTasks (listMapIf (fun x => x.tid == t.tid) fun x =>
    { x with begun := n != 0, streams := n, retries := if read then x.retries + 1 else x.retries })

/-- MEDIA_TASK_END (R199): a task whose sequencer stopped with another cause than STOP, or that did not end in success, is reposted; so is
a write that met an assist fault for the first time, its head due for calibration (R244).  A write task's end disarms the write PLLs (R232).
For the verifying read of a rewrite `poisoned` names the sectors whose margin is still below the threshold (R129).
[DESIGN CHOICE: assumption log 96] -/
def mediaTaskEnd (tid : Nat) (o : TaskOutcome) (d : Dev) : Dev :=
  match d.host.tasks.find? fun t => t.tid == tid with
  | none => d
  | some t =>
    let failed := (d.seq t.act).ended.any fun cs => cs.1 != 0
    let d := d.updSeq t.act fun q => { q with ended := none }
    let d := if t.begun && t.kind.writes then pllArm (2 * t.act + 1) false (pllArm (2 * t.act) false d) else d
    if !t.begun then d
    else if failed then repost d t
    else
      match o with
      | .cut _ => repost d t
      | .assistFault head =>
        if t.faulted.contains head.val then syncHost (writeFault d t head.val)
        else
          let d := repost (makeHeadDue d t.act head.val) t
          d.updTasks (listMapIf (fun x => x.tid == tid) fun x => { x with faulted := head.val :: x.faulted })
      | .done poisoned =>
        let d := dropTask d tid
        match t.kind with
        | .read id => syncHost (readEnded d id t.act poisoned)
        | .destage wid => destaged d wid t.act poisoned
        | .locker wid => lockered d wid t.act poisoned
        | .homeWrite nsid zi second => syncHost (addTask d (.homeVerify nsid zi second) t.act false)
        | .homeVerify nsid zi second => syncHost (rewriteVerified d nsid zi second poisoned.isEmpty)
        | .clean nsid zi => syncHost (cleanBand d nsid zi)

def execMediaTaskEnd (tid : Nat) (o : TaskOutcome) (s : State) : Outcome State Fault Refusal := lift s (mediaTaskEnd tid o)

/-- A write a Flush waits for that was not home-destaged 100 ms after it is written to locker tracks, its HDA in HS0
(R90). -/
def flushFallback (id wid : Nat) (d : Dev) : Dev :=
  match d.ctx? id with
  | none => d
  | some x =>
    if x.stage == .flushing && x.pend.contains wid then
      forEach (((copiesOf d).filter fun c => c.2.wid == wid && c.2.covered && !c.2.safe).map fun c => c.2.act).eraseDups d fun d a =>
        if hdaReady d (a / 2) then toLocker d wid a
        else (wantHda d (a / 2)).updCtx id fun c => { c with waits := some (a / 2) }
    else d

/-- FLUSH_LOCKER_FALLBACK (R90). -/
def execFlushLockerFallback (id eid : Nat) (s : State) : Outcome State Fault Refusal := lift s (flushFallback id eid)

/-- FLUSH_COMPLETE (R89): once none of the data it covers still waits for the media. -/
def flushComplete (id : Nat) (d : Dev) : Dev :=
  match d.ctx? id with
  | none => d
  | some x =>
    if x.stage == .flushing && !(copiesOf d).any (fun c => x.pend.contains c.2.wid && c.2.covered && !c.2.safe) then
      finish d id 0 0
    else d

def execFlushComplete (id : Nat) (s : State) : Outcome State Fault Refusal := lift s (flushComplete id)

/-! ### Map entries, checkpoints and journal (R123, R127) -/

/-- The map entry of a 32 KiB unit (R123): its media unit, mapped, buffered and the generation of its band; the reserved bits are 0.
[DEDUCED: assumption log 69] -/
def mapEntry (d : Dev) (ns : Ns) (unit : Nat) : Nat :=
  let ms := (List.range 8).map fun k => d.mediaBlk ns.nsid (8 * unit + k)
  let buffered := (List.range 8).any fun k => (d.bufCell ns.nsid (8 * unit + k)).isSome
  match ms.find? (·.mapped) with
  | none => if buffered then 2 ^ 34 + 2 ^ 35 else 0
  | some m =>
    let z := ns.zones[m.band]?
    Config.unitCode m.act ((z.map (·.headA)).getD 0) m.band m.off % 2 ^ 34 + 2 ^ 34 + buffered.toNat * 2 ^ 35 +
      ((z.map (·.gen)).getD 0) % 2 ^ 12 * 2 ^ 36

/-- The index of an LBA's entry in the map: namespace base plus LBA div 8 (R123). [DEDUCED: assumption log 69] -/
def mapIndex (ns : Ns) (lba : Nat) : Nat := ns.mapBase + lba / 8

/-- The media table of a namespace. -/
def nsMedia (d : Dev) (nsid : Nat) : List (Nat × MediaBlk) := d.host.media.filter fun m => m.1 % 1024 == nsid % 1024

/-- A checkpoint of a namespace's map on the metadata reserve (R127, R245): its journal records go. [DEDUCED: assumption log 71] -/
def checkpointMap (d : Dev) (nsid : Nat) : Dev :=
  let ck := nsMedia d nsid
  (d.updNs nsid fun ns => { ns with mapDirty := false, hostWrites := 0 }).updHost fun s => { s with
    mapCk := tabPut [] s.mapCk nsid ck, journal := s.journal.filter (fun j => j.nsid != nsid),
    lockerMap := s.lockerMap.filter fun j => j.nsid != nsid }

/-- The map of a conventional namespace is built again (R127): the last checkpoint, then the records that a stop wrote to locker tracks
and those in the buffer, in order, but for those that name buffered copies.  Where it names the place where a block lies, the block is as the media has
it. [DEDUCED: assumption log 71] -/
def recoverMap (d : Dev) (nsid : Nat) : Dev :=
  let put (t : List (Nat × MediaBlk)) (lba : Nat) (m : MediaBlk) : List (Nat × MediaBlk) := tabPut {} t (blkKey nsid lba) m
  let t := ((d.host.lockerMap ++ d.host.journal).filter fun j => j.nsid == nsid && !j.buffered).foldl (fun t j =>
    j.blks.zipIdx.foldl (fun t b => put t (8 * j.unit + b.2) b.1) t) (tabGet [] d.host.mapCk nsid)
  let live (m : Nat × MediaBlk) : Nat × MediaBlk :=
    let now := tabGet {} d.host.media m.1
    if now.mapped && now.act == m.2.act && now.band == m.2.band && now.off == m.2.off then (m.1, now) else m
  let others := d.host.media.filter fun m => m.1 % 1024 != nsid % 1024
  d.updHost fun s => { s with media := (t.map live).foldl (fun l m => tabPut {} l m.1 m.2) others }

/-- Every conventional namespace's map goes to a checkpoint (R67, R127), one not loaded yet as it is to be built. -/
def checkpointAll (d : Dev) : Dev :=
  forEach (d.host.nss.filter fun ns => !ns.zoned) d fun d ns => checkpointMap (if ns.mapReady then d else recoverMap d ns.nsid) ns.nsid

end Sys2Proof.Machine
end

