-- ==== Sys2Proof/Machine/AdminOps.lean ====
section
/-! DEFINITION. Admin commands: when one is fetched, what it meets during an activation or under the recovery structure,
and the forwarding of those that name another node (R62, R67, R73, R74, R98). -/
namespace Sys2Proof.Machine

open Host (Outcome)

/-- The posted completion of an admin command that runs at once. -/
def adminEnd (d : Dev) (h cid status dw0 : Nat) : Dev := d.emit (.cqe h 0 cid status dw0)

/-- Data and a successful completion. -/
def adminPage (d : Dev) (h cid : Nat) (data : List Nat) : Dev := adminEnd (d.emit (.page h cid data)) h cid 0 0

/-- Admin contexts of a port in use (R73): held requests, and commands forwarded to other nodes. -/
def adminInUse (d : Dev) (h : Nat) : Nat :=
  (d.port h).adminUsed + (d.host.ctxs.filter fun x => match x.org with
    | .host g qid _ => g == h && qid == 0
    | _ => false).length

/-- An admin command fetched and run (R62, R67, R74).  It stays with its host while fetching is stopped or all 64 admin contexts
are in use.  `pend`: it runs while an activation is pending; `rec`: the recovery structure serves it; any other command there ends with Invalid Command Opcode. [DEDUCED: assumption log 189] -/
def adminDo (h cid : Nat) (pend rec : Bool) (g : Dev → Dev) (d : Dev) : Dev :=
  if !fetchAllowed d h then d
  else if 64 ≤ adminInUse d h then (d.setFlag F.hstCtxStat_fetch_stalled true h).setFlag F.hstCtxStat_stall_seen true h
  else
    let d := wakeChip d
    if decide (2 ≤ d.rd F.glbStructStat_activate) && !pend then adminEnd d h cid stPending 0
    else if d.rd F.glbStructStat_loaded = 3 ∧ !rec then adminEnd d h cid stInvalidOpcode 0
    else g d

/-- An admin command that stays in its context until the device ends it (R73). -/
def holdAdmin (d : Dev) (h : Nat) : Dev := syncHost (d.updPort h fun p => { p with adminUsed := p.adminUsed + 1 })

/-- The end of a held admin command; none where its controller was reset since. -/
def endAdmin (d : Dev) (w : Option (Nat × Nat)) (status dw0 : Nat) : Dev :=
  match w with
  | none => d
  | some (h, cid) =>
    if (d.port h).enabled then
      syncHost (adminEnd (d.updPort h fun p => { p with adminUsed := p.adminUsed - 1 }) h cid status dw0)
    else d

/-- The result of an NSID that names another node (R98): a status, or the command may be forwarded. -/
def remoteFailure (d : Dev) (nsid : Nat) : Option Nat :=
  match d.chain.nodes[nsidNode nsid]? with
  | none => some stInvalidNs
  | some n => if 2 ^ 30 ≤ nsid ∨ nsidLocal nsid = 0 then some stInvalidNs else if n.reach then none else some stUnreachable

/-- Identify CNS 00h and Feature 0xC0 of a namespace on another node run as one transaction with it (R98, R325). -/
def forwardAdmin (d : Dev) (h cid : Nat) (c : IoCmd) : Dev :=
  match remoteFailure d c.nsid with
  | some st => adminEnd d h cid st 0
  | none =>
    let x : Ctx := { id := d.host.nextId, fe := h, org := .host h 0 cid, c := c, stage := .remote }
    syncHost (forwardCmd (d.updHost fun s => { s with nextId := s.nextId + 1, ctxs := s.ctxs ++ [x] }) x)

/-- A local namespace that exists (R98). -/
def localNs (d : Dev) (nsid : Nat) : Option Ns := if nsidNode nsid = 0 ∧ nsid < 1024 then d.ns? nsid else none

/-- Bytes of a little-endian field, as a page holds them. -/
def pageField (v n : Nat) : List Nat := (toBytes v n).map (·.toNat)
def pageBytes (b : List Byte) : List Nat := b.map (·.toNat)

/-- FETCH_RESUME (R74): once contexts of both classes are free. -/
def execFetchResume (h : HstId) (s : State) : Outcome State Fault Refusal :=
  lift s fun d =>
    if ioInUse d h.val < ioShare d h.val then
      (d.setFlag F.hstCtxStat_fetch_stalled (decide (64 ≤ adminInUse d h.val)) h.val).updPort h.val fun p => { p with stalled := false }
    else d

end Sys2Proof.Machine
end

