-- ==== Sys2Proof/Machine/CardRec.lean ====
section
/-! DEFINITION. Records of the Report Card: their bytes, the slots they go to, and the accumulators read back from one
(R405-R408, R412, R413). -/
namespace Sys2Proof.Machine

/-- The part of a record that holds `count` values of `size` bytes from index `k`. -/
def accBytes (a : Acc) (k count size : Nat) : List Byte :=
  (List.range count).flatMap fun i => toBytes (tabGet 0 a.vals (k + i)) size

/-- Epoch counters 5 and 6 are in MiB, rounded up; they accumulate in 4 KiB units (R409). -/
def epochField (a : Acc) (i : Nat) : Nat :=
  let v := tabGet 0 a.vals (ckEpoch + i)
  if i = 5 ∨ i = 6 then (v + 255) / 256 else v

def extremeBytes (a : Acc) (i : Nat) : List Byte :=
  match tabGet none a.ext i with
  | some (v, s) => toBytes (toTwos 64 v) 8 ++ toBytes s 8
  | none => toBytes 0 16

/-- Bytes 0x004-0xFF7 of a record (R408). -/
def recordBody (d : Dev) (kind : Nat) (a : Acc) (endS : Nat) : List Byte :=
  toBytes 1 2 ++ toBytes kind 1 ++ toBytes (d.rd F.secLc_state) 1 ++ toBytes a.epoch 4 ++
  toBytes (a.late.toNat + 2 * a.lost.toNat + 4 * a.sat.toNat) 4 ++ toBytes a.start 8 ++ toBytes endS 8 ++
  toBytes (d.rd F.glbStructVer_build_version) 8 ++ toBytes (d.secField 1 0 16 16) 16 ++ toBytes d.fw.build 8 ++
  accBytes a 0 32 8 ++ ((List.range 64).flatMap fun i => toBytes (epochField a i) 4) ++
  accBytes a ckTemp 464 2 ++ accBytes a ckAssist 384 4 ++ accBytes a ckSeek 64 4 ++ accBytes a ckLoads 24 2 ++
  accBytes a ckSpin 32 2 ++ accBytes a ckErr 88 4 ++ ((List.range 8).flatMap (extremeBytes a)) ++ toBytes 0 200

/-- The mark "EVRC". -/
def cardMark : List Byte := [0x45, 0x56, 0x52, 0x43]

/-- A whole record: mark, body and CRC-64. -/
def recordBytes (d : Dev) (kind : Nat) (a : Acc) (endS : Nat) : List Byte :=
  let b := recordBody d kind a endS
  cardMark ++ b ++ toBytes (crc64 b) 8

/-- A slot is valid when its mark and its CRC-64 are right (R406). -/
def recordValid (b : List Byte) : Bool :=
  b.length == 4096 && b.take 4 == cardMark && leBytes b 0xFF8 8 == crc64 ((b.drop 4).take 0xFF4)

/-- A slot of an area, and the number of slots of each area (R405). -/
def Dev.cardSlot (d : Dev) (area slot : Nat) : List Byte := tabGet [] d.card.slots (area * 4096 + slot)
def areaSlots : Nat → Nat
  | 0 => 512
  | 1 => 4096
  | 2 => 256
  | _ => 1

def putSlot (d : Dev) (area slot : Nat) (b : List Byte) : Dev :=
  d.updCard fun c => { c with slots := tabPut [] c.slots (area * 4096 + slot) b }

/-- A record written to its slot (R406): the slot is erased, bytes 0x004-0xFFF are programmed and read back, and then the mark is
programmed; a write whose read-back fails is made once more, and after a second failure the slot stays invalid and
EVR_STAT.nor_fail counts it.  Whether a read-back fails is a free value. [DESIGN CHOICE: assumption log 177] -/
def programSlot (d : Dev) (area slot : Nat) (b : List Byte) : Dev :=
  let (v, d) := d.draw
  if v.testBit 0 && v.testBit 1 then (putSlot d area slot []).addSat F.evrStat_nor_fail 1 else putSlot d area slot b

/-- The record of an ended epoch written (R405-R407). -/
def writeEpoch (d : Dev) (a : Acc) (endS : Nat) : Dev :=
  if a.epoch < 512 then programSlot d 0 a.epoch (recordBytes d 0 a endS)
  else programSlot d 1 (a.epoch % 4096) (recordBytes d 1 a endS)

/-- A checkpoint of the current epoch in the next slot of the rotation. [DESIGN CHOICE: assumption log 177] -/
def writeCheckpoint (d : Dev) : Dev :=
  let d' := programSlot d 2 d.card.ckNext (recordBytes d 2 d.card.cur (d.rd F.evrPos_seconds))
  d'.updCard fun c => { c with ckNext := (c.ckNext + 1) % 256, ckDue := false }

/-- The accumulators of the epoch that follows one: lifetime counters go on, the rest starts at 0. -/
def nextAcc (a : Acc) (start : Nat) : Acc :=
  { epoch := a.epoch + 1, start := start, vals := a.vals.filter fun v => decide (v.1 < ckEpoch) }

/-- The current epoch ends: its record is written and the other set counts on (R407). [DESIGN CHOICE: assumption log 177] -/
def closeEpoch (d : Dev) (late : Bool) : Dev :=
  let s := d.rd F.evrPos_seconds
  let a := { d.card.cur with late := late }
  let d := writeEpoch d a s
  (d.updCard fun c => { c with cur := nextAcc a s }).wr F.evrStat_epoch (a.epoch + 1)

/-- The third set joins the current one: counters and bins are added, extremes are compared (R413). -/
def mergeAcc (a b : Acc) : Acc :=
  let a := b.vals.foldl (fun a v => a.add v.1 v.2) a
  let a := b.ext.foldl (fun a e => match e.2 with
    | some (v, s) => a.meet e.1 v s
    | none => a) a
  { a with sat := a.sat || b.sat }

/-- A thaw (R413): the merge, then the writes that were deferred. [DEDUCED: assumption log 171] -/
def thawCard (d : Dev) (auto : Bool) : Dev :=
  if !d.flag F.evrCtl_frozen then d
  else
    let d := d.setFlag F.evrCtl_frozen false
    let d := if auto then d.setFlag F.evrStat_auto_thawed true else d.setFlag F.evrStat_auto_thawed false
    let d := d.updCard fun c => { c with cur := mergeAcc c.cur c.frz, frz := {} }
    let d := if d.card.endedFrozen then (closeEpoch d true).updCard fun c => { c with endedFrozen := false } else d
    if d.card.ckDue then writeCheckpoint d else d

/-- The checkpoint of a stop (R407): it ends a freeze. -/
def stopCheckpoint (d : Dev) : Dev :=
  (writeCheckpoint (thawCard d true)).updCard fun c => { c with stopWrote := true }

/-- Power-on seconds reach `s` (R409 counter 0). [DEDUCED: assumption log 169] -/
def reachSecond (d : Dev) (s : Nat) : Dev :=
  let now := d.rd F.evrPos_seconds
  if s ≤ now then d else cardCount (d.wr F.evrPos_seconds s) 0 (s - now)

/-- The accumulators a record holds (R407). -/
def accOf (b : List Byte) : Acc :=
  let part (k count size off : Nat) : List (Nat × Nat) :=
    ((List.range count).map fun i => (k + i, leBytes b (off + size * i) size)).filter fun v => v.2 != 0
  let ep := (part ckEpoch 64 4 0x140).map fun v => (v.1, if v.1 = ckEpoch + 5 ∨ v.1 = ckEpoch + 6 then v.2 * 256 else v.2)
  let fl := leBytes b 0xC 4
  { epoch := leBytes b 8 4, start := leBytes b 0x10 8,
    vals := part 0 32 8 0x40 ++ ep ++ part ckTemp 464 2 0x240 ++ part ckAssist 384 4 0x5E0 ++ part ckSeek 64 4 0xBE0 ++
      part ckLoads 24 2 0xCE0 ++ part ckSpin 32 2 0xD10 ++ part ckErr 88 4 0xD50,
    ext := ((List.range 8).filter fun i => leBytes b (0xEB0 + 16 * i) 16 != 0).map fun i =>
      (i, some (ofTwos 64 (leBytes b (0xEB0 + 16 * i) 8), leBytes b (0xEB8 + 16 * i) 8)),
    late := fl.testBit 0, lost := fl.testBit 1, sat := fl.testBit 2 }

/-- The age of a record: the second at which its interval ended, and then the epoch that it leaves in progress. -/
def recordAge (b : List Byte) : Nat :=
  leBytes b 0x18 8 * 2 ^ 33 + leBytes b 8 4 + (if leBytes b 6 1 = 2 then 0 else 1)

/-- The newest valid record or checkpoint. -/
def newestRecord (d : Dev) : Option (List Byte) :=
  (d.card.slots.map (·.2)).foldl (fun best b =>
    if !recordValid b then best
    else match best with
      | none => some b
      | some c => if recordAge c ≤ recordAge b then some b else some c) none

/-- Restore at cold start (R407, R413): seconds, lifetime counters and the epoch in progress; a stop that wrote no checkpoint loses
the interval since. -/
def restoreCard (d : Dev) : Dev :=
  let d := thawCard d true
  let wrote := d.card.stopWrote
  let acc := match newestRecord d with
    | none => ({} : Acc)
    | some b =>
      let a := accOf b
      let a := if leBytes b 6 1 = 2 then a else nextAcc a (leBytes b 0x18 8)
      { a with lost := a.lost || !wrote }
  let secs := match newestRecord d with
    | none => 0
    | some b => leBytes b 0x18 8
  let d := d.updCard fun c => { c with cur := acc, frz := {}, ckDue := false, endedFrozen := false, stopWrote := false }
  (d.wr F.evrPos_seconds secs).wr F.evrStat_epoch acc.epoch

end Sys2Proof.Machine
end

