-- ==== Sys2Proof/Machine/Memory.lean ====
section
/-! DEFINITION. The addressed windows of the control plane (R445): control stores CS0-CS7 (R198), map-cache scratch (R140) and
SSC trace buffers (R265), as bytes by control-plane address in canonical form. -/
namespace Sys2Proof.Machine

def csBase (a : Nat) : Nat := 0x01000000 + a * 0x40000
def scratchBase (g : Nat) : Nat := 0x00520000 + g * 0x8000
def traceBase (u : Nat) : Nat := 0x02000000 + u * 0x80000

/-- What an unlisted byte reads as: in a control store the halt microword with its parity byte (R49, R201), elsewhere 0
(assumption log 5). -/
def memDefault (a : Nat) : Byte :=
  if 0x01000000 ≤ a ∧ a < 0x01200000 then
    if a % 32 < 16 then BitVec.ofNat 8 (haltWord / 256 ^ (a % 32)) else if a % 32 = 16 then 0xFF#8 else 0#8
  else 0#8

/-- One byte of the windows. [DESIGN CHOICE: assumption log 5] -/
def memByte (m : List Host.Cell) (a : Nat) : Byte := tabGet (memDefault a) m a

/-- One byte written, keeping the canonical form. -/
def memPut (m : List Host.Cell) (a : Nat) (b : Byte) : List Host.Cell := tabPut (memDefault a) m a b

/-- `n` bytes as a little-endian number (R6). -/
def memRead (m : List Host.Cell) (a : Nat) : Nat → Nat
  | 0 => 0
  | n + 1 => (memByte m a).toNat + 256 * memRead m (a + 1) n

/-- The `n` low bytes of a number written from address `a` upward. -/
def memWrite (m : List Host.Cell) (a v : Nat) : Nat → List Host.Cell
  | 0 => m
  | n + 1 => memWrite (memPut m a (BitVec.ofNat 8 v)) (a + 1) (v / 256) n

/-- `n` zero bytes from address `a` (a wiped window). -/
def memZero (m : List Host.Cell) (a n : Nat) : List Host.Cell := m.filter fun c => !(decide (a ≤ c.1) && decide (c.1 < a + n))

/-- The canonical form of memory: addresses rising, no entry equal to what its address reads as unlisted. -/
abbrev Memory.wf (m : List Host.Cell) : Prop := tabWf memDefault m = true

end Sys2Proof.Machine
end

