-- ==== Sys2Proof/Machine/ServoOps.lean ====
section
/-! DEFINITION. What the servo pairs share: lanes and units, saturating nodes, PSL frames, emergency retract, role switches and
trace capture (R249-R273, R289-R293). -/
namespace Sys2Proof.Machine

/-! ### Events raised to firmware -/
def evLaneLost : Nat := 5
def evSplit : Nat := 6
def evStandbyUnfit : Nat := 7
def evPslFault : Nat := 8
def evOv1 : Nat := 9
def evRetract : Nat := 10
def evDegraded : Nat := 11

def laneOf (s : Servo) (l : Nat) : Lane := if l = 0 then s.l0 else s.l1
def Dev.lane (d : Dev) (n l : Nat) : Lane := laneOf (d.servo n) l
def Dev.updLane (d : Dev) (n l : Nat) (g : Lane → Lane) : Dev :=
  d.updServo n fun s => if l = 0 then { s with l0 := g s.l0 } else { s with l1 := g s.l1 }

/-- Unit 0 (A) or 1 (B) of a pair. -/
def Dev.sscUnit (d : Dev) (n u : Nat) : SscUnit := if u = 0 then (d.servo n).uA else (d.servo n).uB
def Dev.updUnit (d : Dev) (n u : Nat) (g : SscUnit → SscUnit) : Dev :=
  d.updServo n fun s => if u = 0 then { s with uA := g s.uA } else { s with uB := g s.uB }

def activeUnit (d : Dev) (n : Nat) : Nat := d.rd F.sscRole_active n
def standbyUnit (d : Dev) (n : Nat) : Nat := 1 - activeUnit d n
def pairState (d : Dev) (n : Nat) : Nat := d.rd F.sscRole_state n
def laneState (d : Dev) (n l : Nat) : Nat := d.rd F.sscLaneStat_state n l
def setLaneState (d : Dev) (n l v : Nat) : Dev := d.wr F.sscLaneStat_state v n l

/-- Actuator of a lane, and the channel of its head a (slot 0) or b (slot 1). -/
def laneAct (n l : Nat) : Nat := 2 * n + l
def laneChn (n l slot : Nat) : Nat := 2 * laneAct n l + slot

/-- The head a slot follows (SSC_LANE_CTL). -/
def slotHead (d : Dev) (n l slot : Nat) : Nat :=
  if slot = 0 then d.rd F.sscLaneCtl_head_a n l else d.rd F.sscLaneCtl_head_b n l

/-- Slots a lane follows (R249, R254, R257): head a, head b, or both unless a split leaves one. -/
def followed (d : Dev) (n l : Nat) : List Nat :=
  match d.rd F.sscLaneCtl_follow n l, (d.lane n l).splitHead with
  | 0, _ => [0]
  | 1, _ => [1]
  | _, some h => [h]
  | _, none => [0, 1]

def headTrack (ln : Lane) (slot : Nat) : HeadTrack := if slot = 0 then ln.a else ln.b
def setHeadTrack (ln : Lane) (slot : Nat) (t : HeadTrack) : Lane := if slot = 0 then { ln with a := t } else { ln with b := t }

/-- The entry of the feedforward table for a lane's pair and the recording zone of its target (R258). -/
def ffKey (d : Dev) (n l : Nat) : Nat :=
  (slotHead d n l 0 * 16 + slotHead d n l 1) * 64 + (zoneOfTrack d (laneAct n l) ((d.lane n l).tgtA / 1024).toNat).getD 0

/-! ### Nodes (R264) -/

/-- A value saturated at its node's range, and whether it saturated. [DEDUCED: assumption log 109] -/
def satNode (lo hi v : Int) : Int × Bool := if v < lo then (lo, true) else if hi < v then (hi, true) else (v, false)

def lo32 : Int := -2147483648
def hi32 : Int := 2147483647

/-- The range of a node (R264): pes, milliactuator commands, VCM command, duty, else 32 bits. [DEDUCED: assumption log 110] -/
def nodeRange (n node : Nat) : Int × Int :=
  let k := node % 64
  if node < 128 then
    if k = 0 ∨ k = 1 then (-512, 511)
    else if k = 8 ∨ k = 9 then (-32767, 32767)
    else if k = 13 then (-(Config.vcmImax n : Int), Config.vcmImax n)
    else (lo32, hi32)
  else if node = 133 then (-32767, 32767)
  else (lo32, hi32)

/-- A node written (R264): saturated, its sticky flag set in both units where it saturates. -/
def setNode (d : Dev) (n node : Nat) (v : Int) : Int × Dev :=
  let r := nodeRange n node
  let s := satNode r.1 r.2 v
  let d := d.updServo n fun p => { p with nodes := tabPut 0 p.nodes node s.1 }
  (s.1, if s.2 then (d.setBit F.sscSat_sat (node % 64) true (2 * n) (node / 64)).setBit
    F.sscSat_sat (node % 64) true (2 * n + 1) (node / 64) else d)

def putNode (d : Dev) (n node : Nat) (v : Int) : Dev := (setNode d n node v).2
def node (d : Dev) (n k : Nat) : Int := tabGet 0 (d.servo n).nodes k

/-! ### Servo validity (R252, R188, R240) -/

/-- servo_a or servo_b of a channel; false is cause 1 of unsafe writing, which clears under R241 only. -/
def setServoOk (d : Dev) (c : Nat) (ok : Bool) : Dev :=
  let d := d.updChn c fun ch => { ch with servoOk := ok }
  if ok then d else setCause d c 1 true

/-- A head named anew for a slot of a lane is acquired afresh (R254): its servo is not valid until its samples are. -/
def headChange (d : Dev) (n l slot : Nat) : Dev :=
  setServoOk (d.updLane n l fun z => setHeadTrack z slot { headTrack z slot with miss := 0, good := 0, sat := [], satRun := 0, within := 0 })
    (laneChn n l slot) false

/-! ### Seek profiles (R260, R261) -/

/-- Seek limits under a power state (R363): a_max and j_max at 100, 75 or 50 %; Fire Drill ignores every limit.
[DEDUCED: assumption log 149] -/
def seekPercent (d : Dev) : Nat :=
  if inDrill d then 100 else match min 2 d.power.lastPs with
    | 0 => 100
    | 1 => 75
    | _ => 50

/-- v_max, a_max and j_max of a lane in the profile's units, each at least 1. [DEDUCED: assumption log 197] -/
def seekLimits (d : Dev) (n l : Nat) : Int × Int × Int :=
  let unit (v pct : Nat) : Int := ((max 1 (v * 1024 * 2 ^ 16 * pct / 100) : Nat) : Int)
  (unit (d.rd F.sscSeekLim_v_max n l) 100, unit (d.rd F.sscSeekLim_a_max n l) (seekPercent d),
    unit (d.rd F.sscSeekLim_j_max n l) (seekPercent d))

/-- One millisecond in the time unit of a profile. -/
def profMs : Int := 2 ^ 24

/-- A profile after a time `t` under a constant jerk `j`. -/
def Profile.move (p : Profile) (j t : Int) : Profile :=
  let a := p.acc + j * t / profMs
  { pos := p.pos + p.vel * t / profMs + (2 * p.acc + a) * t / profMs * t / (6 * profMs),
    vel := p.vel + (p.acc + a) * t / (2 * profMs), acc := a }

/-- A profile seen in the direction of its target. -/
def Profile.toward (p : Profile) (s : Int) : Profile := { pos := s * p.pos, vel := s * p.vel, acc := s * p.acc }

/-- How far a profile goes on before it can rest under limits `A` and `J`: acceleration brought down to the peak deceleration that
its velocity needs, held, and released; 0 where the velocity ends by itself or turns. [DEDUCED: assumption log 197] -/
def Profile.stopDistance (p : Profile) (A J : Int) : Int :=
  if 2 * J * p.vel + p.acc * (p.acc.natAbs : Int) ≤ 0 then 0
  else
    let peak : Int := min A ((Nat.sqrt (J * p.vel + p.acc * p.acc / 2).toNat : Nat) : Int)
    if peak ≤ 0 then 0
    else
      let q := ({ p with pos := 0 } : Profile).move (-J) (max 0 ((p.acc + peak) * profMs / J))
      let q := q.move 0 (max 0 ((q.vel - peak * peak / (2 * J)) * profMs / peak))
      (q.move J (peak * profMs / J)).pos

/-- A jerk may be taken for a time `t`: the limits hold after it and the profile can still rest no further on than `rest`.
[DEDUCED: assumption log 197] -/
def jerkAllowed (p : Profile) (V A J rest j t : Int) : Bool :=
  let q := p.move j t
  decide (q.acc.natAbs ≤ A ∧ q.vel + (if 0 < q.acc then q.acc * q.acc / (2 * J) else 0) ≤ V)
    && decide (q.pos - p.pos + q.stopDistance A J ≤ rest)

/-- One sample of a profile (R260, R261): of full jerk forward, none and full jerk back the first that keeps the limits and a rest
before the target; where none does the profile cannot rest before it, brakes fully, and comes back from beyond.  The spec gives the
plan as the one of least time; taken sample by sample it is that plan to within one sample. [DEDUCED: assumption log 197] -/
def Profile.step (p : Profile) (lim : Int × Int × Int) (target t : Int) : Profile :=
  let s : Int := if p.pos ≤ target then 1 else -1
  let f := p.toward s
  let (V, A, J) := lim
  let rest := s * (target - p.pos)
  let ahead := min J ((A - f.acc) * profMs / max 1 t)
  let back := max (-J) (-((A + f.acc) * profMs / max 1 t))
  let brake := if f.acc < 0 ∧ 2 * J * (f.vel + f.acc * t / profMs) ≤ f.acc * f.acc then ahead else back
  let j := if jerkAllowed f V A J rest ahead t then ahead
    else if jerkAllowed f V A J rest 0 t then 0
    else if jerkAllowed f V A J rest back t then back
    else brake
  (f.move j t).toward s

/-- A profile must pass its target by more than `near` before it can rest (R261). -/
def Profile.passes (p : Profile) (lim : Int × Int × Int) (target near : Int) : Bool :=
  let s : Int := if p.pos ≤ target then 1 else -1
  decide (s * (target - p.pos) + near < (p.toward s).stopDistance lim.2.1 lim.2.2)

/-- The sample period of a lane in cycles of 5 ns (R249, node 196 or 197): the last wedge period of its reference head. -/
def samplePeriod (d : Dev) (n l : Nat) : Nat :=
  (((d.chn (laneChn n l (if d.rd F.sscLaneCtl_follow n l = 1 then 1 else 0))).periods.head?).getD 0) / 5000

/-! ### The bridge (R277, R278) -/
def spinState (d : Dev) (n : Nat) : Nat := d.rd F.spnStat_state n

/-- Gate commands of a step in motoring (R277), bits UH UL VH VL WH WL. -/
def gateOf (step : Nat) : Nat := [0b100100, 0b100001, 0b001001, 0b011000, 0b010010, 0b000110].getD step 0

/-- Pins of the bridge: 16 + n SPn_GATE, 24 + n SPn_SLP. -/
def pinGate (n : Nat) : Nat := 16 + n
def pinSlope (n : Nat) : Nat := 24 + n

/-- The gates a bridge drives (R277): the step in motoring, with both switches of the high phase in generation, all inactive in off
and coast and while catching, all low sides in short brake.  Under a chopper fault a speed reduction coasts (R287). -/
def bridgeGates (d : Dev) (n : Nat) : Nat :=
  let g := gateOf (d.spin n).step
  let generation := g ||| ((g &&& 0b101010) >>> 1)
  match spinState d n with
  | 1 | 2 => g
  | 3 =>
    if d.flag F.spnStat_chop_fault n && decide (d.rd F.spnStat_command n < d.rd F.spnStat_speed n) then 0
    else if node d n 133 < 0 then generation else g
  | 5 => generation
  | 6 => 0b010101
  | _ => 0

/-- The spindle's drive changes state, and the gates with it (R277, R425). -/
def setSpin (d : Dev) (n v : Nat) : Dev :=
  if spinState d n = v then d
  else
    let d := d.wr F.spnStat_state v n
    d.emitSlot n (.pin (pinGate n) (bridgeGates d n))

/-! ### PSL frames (R289, R290) -/

/-- CRC-16 of polynomial 0x1021 and initial value 0xFFFF over bits [79:0] of a frame, bit 0 first (R290). -/
def pslCrc (frame : Nat) : Nat :=
  (List.range 80).foldl (fun c i => let t := c * 2 % 65536
    if (c / 32768 % 2 == 1) != frame.testBit i then t ^^^ 0x1021 else t) 0xFFFF

/-- The 96 bits of a downlink frame (R290): type, counter, unit, hold, and the fields from bit 16 on, 16 bits each. -/
def pslWord (ty seq unit : Nat) (hold : Bool) (fields : List Nat) : Nat :=
  let low := ty + 16 * seq + 256 * unit + 512 * hold.toNat + 2 ^ 16 * fields.foldr (fun v acc => v % 65536 + 65536 * acc) 0
  low + 2 ^ 80 * pslCrc low

/-- A downlink frame: type, hold and fields; none is sent under a PSL fault (R292), and PSLn_FS stays low while the slot is not driven (R1, R425). -/
def pslFrame (d : Dev) (n ty : Nat) (hold : Bool) (fields : List Nat) : Dev :=
  if d.flag F.pslStat_psl_fault n || d.slotDrive n != .driven then d
  else (d.updServo n fun s => { s with seqNo := (s.seqNo + 1) % 16 }).emit
    (.psl n (pslWord ty (d.servo n).seqNo (activeUnit d n) hold fields))

/-- A lane's command frame: hold, VCM current and the two milliactuator commands. -/
def commandFrame (d : Dev) (n l : Nat) (hold : Bool) : Dev :=
  let ln := d.lane n l
  pslFrame d n (l + 1) hold [toTwos 16 ln.sentVcm, toTwos 16 ln.sentA, toTwos 16 ln.sentB]

/-- The retract frame (R290 type 4). -/
def retractFrame (d : Dev) (n : Nat) : Dev :=
  pslFrame d n 4 false [(d.servo n).retracted, d.rd F.sscRetract_retract_ma n, d.rd F.sscRetract_retract_ms n,
    d.rd F.sscRetract_retract_hold_ma n]

/-! ### Emergency retract (R271, R272) -/

/-- Lanes of a mask. -/
def maskLanes (mask : Nat) : List Nat := [0, 1].filter fun l => mask.testBit l

/-- Emergency retract (R272): servo of the masked heads invalid, the retract command sent, the cause recorded; the HDA's state
follows R367. [DEDUCED: assumption log 114] -/
def emergencyRetract (d : Dev) (n mask cause : Nat) : Dev :=
  let lanes := (maskLanes mask).filter fun l => d.actPresent (laneAct n l)
  if lanes.isEmpty then d
  else
    let d := forEach lanes d fun d l =>
      let d := setServoOk (setServoOk d (laneChn n l 0) false) (laneChn n l 1) false
      (d.setFlag F.sscLaneStat_on_track false n l).updLane n l fun x => { x with onCount := 0, maA := 0, maB := 0, sentA := 0, sentB := 0 }
    let d := forEach lanes (cardCount d 8 1) fun d l => cardBin d (ckLoads + 3 * laneAct n l + 2) 1
    let d := d.updServo n fun s => { s with retracted := s.retracted ||| mask }
    let d := d.wr F.sscRetract_cause cause n
    let d := (d.wr F.sscRetract_mask mask n).setFlag F.sscRetract_seen true n
    let d := retractFrame d n
    let d := d.wr F.pwrHs_state (if pairState d n = 3 then 4 else if d.rd F.pwrHs_state 0 n < 2 then 2 else d.rd F.pwrHs_state 0 n) 0 n
    let d := (d.setFlag F.pwrHs_in_transition false 0 n).wr F.pwrHs_step 0 0 n
    (suspendHda d n).emit (.event evRetract n)

/-- The pair enters RETRACT (R271): both actuators, cause 1, or 8 where both clocks are lost; HS4 until restart (R367). -/
def enterRetract (d : Dev) (n cause : Nat) : Dev :=
  if pairState d n = 3 then d
  else
    let d := d.wr F.sscRole_state 3 n
    let d := (setSpin d n 7).updSpin n fun s => { s with starting := false, spinup := false, share := 0 }
    recomputeBound (emergencyRetract d n 3 cause)

/-! ### Substitution (R268-R271) -/

def ovrOf (u : SscUnit) (l : Nat) : List Bool := if l = 0 then u.ovr0 else if l = 1 then u.ovr1 else u.ovr2
def overCount (u : SscUnit) (l : Nat) : Nat := ((ovrOf u l).filter id).length

/-- An output instant of a lane recorded for a unit (R266, R267). -/
def recordOvr (d : Dev) (n u l : Nat) (exceeds : Bool) : Dev :=
  let push (w : List Bool) := (exceeds :: w).take 64
  let d := d.updUnit n u fun x =>
    if l = 0 then { x with ovr0 := push x.ovr0 } else if l = 1 then { x with ovr1 := push x.ovr1 } else { x with ovr2 := push x.ovr2 }
  let x := d.sscUnit n u
  let d := d.wr F.sscOvr_recent (max (overCount x 0) (max (overCount x 1) (overCount x 2))) (2 * n + u)
  if exceeds then (d.setBit F.sscOvr_lane_seen l true (2 * n + u)).addSat F.sscOvr_total 1 (2 * n + u) else d

/-- A lane of a unit overruns at 3 of 64 consecutive samples (R267). -/
def overFault (d : Dev) (n u : Nat) : Bool := [0, 1, 2].any fun l => decide (3 ≤ overCount (d.sscUnit n u) l)

/-- The lane at fault, where one is. -/
def faultLane (d : Dev) (n u : Nat) : Option Nat := [0, 1, 2].find? fun l => decide (3 ≤ overCount (d.sscUnit n u) l)

/-- Standby unfit by R268 or R30: overruns, resynchronisations, clock or law store. -/
def standbyBad (d : Dev) (n : Nat) : Bool :=
  let u := standbyUnit d n
  overFault d n u || decide (4 ≤ d.rd F.sscCmpStat_resyncs n) || !(d.sscUnit n u).clkOk || (d.sscUnit n u).lawErr

/-- A switch of roles (R270): the other unit becomes active, the exchange counter restarts, and the outputs of the lanes
named are held for their next instant. -/
def switchRoles (d : Dev) (n cause : Nat) (lanes : List Nat) : Dev :=
  let d := cardEpoch (d.wr F.sscRole_active (standbyUnit d n) n) (32 + n) 1
  let d := (d.wr F.sscSwap_to_swap 0x100000 n).setFlag F.sscSwap_deferred false n
  let d := (d.addSat F.sscSwap_switches 1 n).wr F.sscSwap_last_cause cause n
  let d := (d.updUnit n 0 fun u => { u with switched := true }).updUnit n 1 fun u => { u with switched := true }
  d.updServo n fun s => { s with hold := lanes, clean := 0, dirty := false, deferFor := 0, mismatch := 0 }

/-- An overrun fault, a lost clock or a law store error of the active unit (R271): switch to a fit standby, else RETRACT. -/
def activeFails (d : Dev) (n cause : Nat) (lane : Option Nat) : Dev :=
  let stb := standbyUnit d n
  let together := match lane with
    | some l => (ovrOf (d.sscUnit n stb) l).headD false
    | none => false
  match pairState d n with
  | 0 =>
    if d.flag F.sscRole_standby_fit n && !standbyBad d n && !together then
      let d := switchRoles d n cause ([0, 1, 2].filter fun l => some l != lane)
      (d.wr F.sscRole_state 1 n).setFlag F.sscRole_standby_fit false n
    else enterRetract d n 1
  | 3 => d
  | _ => enterRetract d n 1

/-- The standby becomes unfit (R268, R271). -/
def standbyFails (d : Dev) (n : Nat) : Dev :=
  let d := d.setFlag F.sscRole_standby_fit false n
  if pairState d n = 0 then
    ((d.wr F.sscRole_state 2 n).updServo n fun s => { s with clean := 0, dirty := true }).emit (.event evStandbyUnfit n)
  else d.updServo n fun s => { s with clean := 0, dirty := true }

/-- Loss of a unit's clock (R30, R271). -/
def unitClockLost (d : Dev) (n u : Nat) : Dev :=
  let d := d.updUnit n u fun x => { x with clkOk := false }
  if !(d.sscUnit n (1 - u)).clkOk then enterRetract d n 8
  else if activeUnit d n = u then activeFails d n 3 none
  else standbyFails d n

/-- An uncorrectable error in a unit's law store (R268, R271). -/
def lawStoreError (d : Dev) (n u : Nat) : Dev :=
  let d := d.updUnit n u fun x => { x with lawErr := true }
  if activeUnit d n = u then activeFails d n 4 none else standbyFails d n

/-! ### Trace capture (R265) -/

/-- The value a trace channel records: a node of R264 or R307, 0 where reserved, a free value for a law filter state or a cycle
count, and for the commands of a unit whose result differs from the active unit's. [DEDUCED: assumption log 109] -/
def traceValue (d : Dev) (n k : Nat) (differs : Bool) : Nat × Dev :=
  let own := k % 64 == 8 || k % 64 == 9 || k % 64 == 13
  if 198 ≤ k then (0, d)
  else if (k < 128 ∧ 20 ≤ k % 64) ∨ (144 ≤ k ∧ k < 192) ∨ 192 ≤ k ∨ (differs ∧ k < 128 ∧ own) then
    let (v, d) := d.draw
    (v % 2 ^ 32, d)
  else (toTwos 32 (node d n k), d)

/-- The trigger of a unit at this sample (R265). [DEDUCED: assumption log 117] -/
def traceTrig (d : Dev) (n u : Nat) (exceeds : Bool) : Bool :=
  let i := 2 * n + u
  let k := d.rd F.sscTraceCtl_trig_node i
  match d.rd F.sscTraceCtl_trig i with
  | 0 => d.bit F.sscSat_sat (k % 64) i (k / 64) && !(d.sscUnit n u).satPrev
  | 1 => decide (d.rd F.sscTraceCtl_trig_thr i < (node d n k).natAbs)
  | 2 => exceeds
  | _ => (d.sscUnit n u).switched

/-- One sample captured by a unit: 32 channels at the write pointer, the trigger and the samples after it.
[DEDUCED: assumption log 117] -/
def captureUnit (d : Dev) (m : List Host.Cell) (n u : Nat) (exceeds differs : Bool) : Dev × List Host.Cell :=
  let i := 2 * n + u
  let k := d.rd F.sscTraceCtl_trig_node i
  let done (d : Dev) : Dev := d.updUnit n u fun x =>
    { x with satPrev := d.bit F.sscSat_sat (k % 64) i (k / 64), switched := false }
  let x := d.sscUnit n u
  if !d.flag F.sscTraceCtl_enable i || d.flag F.sscTraceStat_stopped i || x.post == some 0 then (done d, m)
  else
    let w := d.rd F.sscTraceStat_wptr i
    let r := (List.range 32).foldl (fun (acc : Dev × List Host.Cell) c =>
      let v := traceValue acc.1 n (acc.1.rd F.sscTraceSel_node i c) differs
      (v.2, memWrite acc.2 (traceBase i + c * 0x4000 + 4 * w) v.1 4)) (d, m)
    let d := r.1.wr F.sscTraceStat_wptr ((w + 1) % 4096) i
    let d := if w = 4095 then d.setFlag F.sscTraceStat_wrapped true i else d
    let d := match x.post with
      | some p => d.updUnit n u fun y => { y with post := some (p - 1) }
      | none =>
        if d.rd F.sscTraceCtl_mode i = 1 && traceTrig d n u exceeds then
          d.updUnit n u fun y => { y with post := some (d.rd F.sscTraceCtl_post i) }
        else d
    (done d, r.2)

end Sys2Proof.Machine
end

