-- ==== Sys2Proof/Machine/Spindle.lean ====
section
/-! DEFINITION. The spindle drive: start, commutation, loss of rotor, ramps, demand curve, bus levels, brake chopper and the
uplink of the power stage (R263, R274-R293, R433, R439). -/
namespace Sys2Proof.Machine

open Host (Outcome)


/-- Both actuators reported parked. -/
def bothParked (d : Dev) (n : Nat) : Bool :=
  [0, 1].all fun l => d.bit F.pslStat_parked l n || !d.actPresent (laneAct n l)

/-- Servo of the loaded actuators is valid: their heads may unload by profile move (R260, R272). -/
def profileOk (d : Dev) (n : Nat) : Bool :=
  [0, 1].all fun l => !d.actPresent (laneAct n l) || d.bit F.pslStat_parked l n ||
    (laneState d n l != 3 && (followed d n l).all fun s => (d.chn (laneChn n l s)).servoOk)

/-- Heads unload by profile move when servo is valid, otherwise by emergency retract (R282, R288, R300, R94). -/
def unloadHeads (d : Dev) (n cause : Nat) : Dev :=
  if profileOk d n then
    forEach [0, 1] d fun d l => (setLaneState d n l (if d.bit F.pslStat_parked l n then 0 else 1)).setFlag F.sscLaneStat_on_track false n l
  else emergencyRetract d n 3 cause

/-! ### Spin-up shares (R439) -/

/-- m = max(1, floor(spinup_budget_w / 12)). -/
def shareCount (d : Dev) : Nat := max 1 (max 12 (pwSpinupW d) / 12)
def shareWatts (d : Dev) : Nat := max 12 (pwSpinupW d) / shareCount d
def sharesHeld (d : Dev) : Nat := ([0, 1, 2, 3].filter fun n => (d.spin n).share != 0).length

/-- A start from stop joins those that wait for a share, in ascending slot order. -/
def queueShare (d : Dev) (n : Nat) : Dev :=
  { d with power := { d.power with shareWait := [0, 1, 2, 3].filter fun k => k == n || d.power.shareWait.contains k } }

/-- A share granted: the lane looks for crossings before it aligns (R280). -/
def grantShare (n : Nat) (d : Dev) : Dev :=
  if sharesHeld d < shareCount d ∧ d.power.shareWait.head? = some n then
    let d := { d with power := { d.power with shareWait := d.power.shareWait.filter fun k => k != n } }
    d.updSpin n fun s => { s with share := shareWatts d, starting := true }
  else d

/-- SPINUP_SHARE_GRANT (R439). -/
def execSpinupShareGrant (n : HdaId) (s : State) : Outcome State Fault Refusal := lift s (grantShare n.val)

/-! ### Start (R280) -/

/-- SPN_CTL.start with mode 1: a turning disk is caught, a stopped one waits for its share and 20 ms without a crossing. -/
def spindleStart (n : Nat) (turning : Bool) (d : Dev) : Dev :=
  if d.rd F.spnCtl_mode n ≠ 1 ∨ !d.hdaPresent n then d
  else
    let d := d.setFlag F.spnStat_ov2 false n
    let d := (if turning then d else cardCount d 9 1).updSpin n fun s =>
      { s with spinup := true, agree := 0, again := false, unloading := false, upTicks := 0 }
    let d := if turning then setSpin d n 4
      else grantShare n (queueShare ((setSpin d n 0).setFlag F.spnStat_chop_fault false n) n)
    recomputeBound d

def execSpindleStart (n : HdaId) (turning : Bool) (s : State) : Outcome State Fault Refusal := lift s (spindleStart n.val turning)

/-- START_NO_CROSSING (R280): 20 ms without a crossing: the lane aligns the rotor. -/
def execStartNoCrossing (n : HdaId) (s : State) : Outcome State Fault Refusal :=
  lift s fun d =>
    if (d.spin n.val).starting then setSpin (d.updSpin n.val fun s => { s with starting := false, step := 0 }) n.val 1 else d

/-- ALIGN_DONE (R280): after 200 ms at step 0, open loop. -/
def execAlignDone (n : HdaId) (s : State) : Outcome State Fault Refusal :=
  lift s fun d => if spinState d n.val = 1 then setSpin d n.val 2 else d

/-- A speed in rpm as a set-point. -/
def rpmPoint (rpm : Nat) : Int := (rpm : Int) * 10 ^ 12

/-- Drive by the observer from a speed: the ramp generator starts there with zero rate (R263). [DEDUCED: assumption log 118] -/
def lockAt (d : Dev) (n rpm : Nat) : Dev :=
  (setSpin d n 3).updSpin n fun s => { s with setp := rpmPoint rpm, rate := 0, bad := 0, off := 0, lost := false, n0 := rpm }

/-- OPEN_LOOP_HANDOVER (R280): at 300 rpm the observer takes over. -/
def execOpenLoopHandover (n : HdaId) (s : State) : Outcome State Fault Refusal :=
  lift s fun d => if spinState d n.val = 2 then recomputeBound (lockAt d n.val 300) else d

/-! ### Modes (R277, R285) -/

/-- The bridge released: the spindle coasts, or is stopped already. -/
def coastSpin (d : Dev) (n : Nat) : Dev :=
  (setSpin d n (if d.rd F.spnStat_speed n = 0 then 0 else 7)).updSpin n fun s =>
    { s with starting := false, spinup := false, rate := 0, share := if d.rd F.spnStat_speed n = 0 then 0 else s.share }

/-- SPN_CTL.mode written. -/
def spindleMode (n mode : Nat) (d : Dev) : Dev :=
  let d := d.wr F.spnCtl_mode mode n
  match mode with
  | 1 => recomputeBound d
  | 3 => setSpin d n (if d.rd F.spnStat_speed n = 0 then 0 else 6)
  | _ => coastSpin d n

def execSpindleModeOff (n : HdaId) (s : State) : Outcome State Fault Refusal := lift s (spindleMode n.val 0)
def execSpindleModeRun (n : HdaId) (s : State) : Outcome State Fault Refusal := lift s (spindleMode n.val 1)
def execSpindleModeCoast (n : HdaId) (s : State) : Outcome State Fault Refusal := lift s (spindleMode n.val 2)
def execSpindleModeShortBrake (n : HdaId) (s : State) : Outcome State Fault Refusal := lift s (spindleMode n.val 3)

/-- SPINDLE_MANUAL (R285): rpm_manual replaces the curve speed; a value outside 3,600 - 7,200 is ignored. -/
def spindleManual (n : Nat) (on : Bool) (rpm : Nat) (d : Dev) : Dev :=
  let d := d.setFlag F.spnCtl_manual on n
  let d := if 3600 ≤ rpm ∧ rpm ≤ 7200 then d.wr F.spnCtl_rpm_manual rpm n else d
  setCommand d n

def execSpindleManual (n : HdaId) (on : Bool) (rpm : Nat) (s : State) : Outcome State Fault Refusal :=
  lift s (spindleManual n.val on rpm)

/-! ### The tick (R263, R266, R274) -/

/-- One 25 µs step of the ramp generator (R263): the rate changes by at most accel·25, and brings the set-point to the command
with zero rate. [DEDUCED: assumption log 118] -/
def rampStep (setp rate : Int) (target lim accel : Int) : Int × Int :=
  let da := accel * 25
  let delta := target - setp
  let stop := rate * rate / (2 * max 1 accel)
  let next :=
    if 0 ≤ delta then (if rate < 0 then rate + da else if delta ≤ stop then rate - da else min (lim * 1000000) (rate + da))
    else (if 0 < rate then rate - da else if -delta ≤ stop then rate + da else max (-(lim * 1000000)) (rate - da))
  if delta.natAbs ≤ (25 * da).natAbs ∧ rate.natAbs ≤ da.natAbs then (target, 0) else (setp + next * 25, next)

/-- The bin of a spin-up that took so many ticks of 25 µs (R410). -/
def spinBin (ticks : Nat) : Nat :=
  ([4, 6, 8, 10, 12, 15, 20].filter fun x => decide (x * 40000 ≤ ticks)).length

/-- The ramp of an HDA at a tick: spinup_rate while it accelerates from stop, no more than 50 rpm above the measured
speed on a share; with a chopper fault a reduction coasts and the set-point follows the speed (R280, R287).
[DEDUCED: assumption log 118] -/
def rampTick (d : Dev) (n speed : Nat) : Dev :=
  let sp := d.spin n
  let target := rpmPoint (d.rd F.spnStat_command n)
  if spinState d n ≠ 3 then d
  else if d.flag F.spnStat_chop_fault n ∧ target < rpmPoint speed then
    d.updSpin n fun s => { s with setp := rpmPoint speed, rate := 0 }
  else
    let lim := if sp.spinup then d.rd F.spnComm_spinup_rate n else d.rd F.sscRamp_ramp_rate n
    let r := rampStep sp.setp sp.rate target lim (d.rd F.sscRamp_ramp_accel n)
    let sp' := if sp.share ≠ 0 then min r.1 (rpmPoint (speed + 50)) else r.1
    let done := sp.spinup && decide (d.rd F.spnStat_command n ≤ speed)
    let d := if done ∧ sp.share ≠ 0 then cardBin d (ckSpin + 8 * n + spinBin (sp.upTicks + 1)) 1 else d
    d.updSpin n fun s => { s with setp := sp', rate := r.2, spinup := s.spinup && !done, share := if done then 0 else s.share }

/-- The rotor has stopped: a start that R282 asks for follows, ov2's sequence ends in stop. [DEDUCED: assumption log 126] -/
def rotorStopped (d : Dev) (n : Nat) : Dev :=
  let d := (setSpin d n 0).updSpin n fun s => { s with share := 0, setp := 0, rate := 0 }
  if (d.spin n).again then spindleStart n false d else d

/-- What the law and the hold-bus loop leave in lane 2's nodes at a tick (R266, R301, R307): the duty unless the output is held, and in
generation the share of the total power by stored energy.  A chopper fault coasts through every speed reduction (R287). -/
def lawNodes (d : Dev) (n : Nat) (held : Bool) (law : TickLaw) : Dev :=
  let e := d.rd F.pwrHoldR_energy 0 n
  let d := putNode (putNode d n 143 e) n 194 law.cycles
  let d := if held then d else putNode d n 133 law.duty
  let d := putNode d n 135 (law.phase % 65536)
  if spinState d n = 5 then
    putNode (putNode d n 141 ((law.total * e / max 1 (d.rd F.pwrHoldE_e_total) : Nat))) n 142 ((d.rd F.pwrHoldCfg_hold_vset : Int) - law.hold)
  else putNode (putNode d n 141 0) n 142 0

/-- SPINDLE_TICK (R263): lane 2 samples speed, bus voltage (mV) and bridge current (mA), polls the power stage and moves the
set-point; the tick of the lowest present HDA advances Fire Drill's clock. [DEDUCED: assumption log 122 and 123] -/
def spindleTick (n speed vbus : Nat) (ibus : Int) (doneA doneB : Bool) (law : TickLaw) (d : Dev) : Dev :=
  let d := recordOvr (recordOvr d n 0 2 (!doneA)) n 1 2 (!doneB)
  let doneAct := if activeUnit d n = 0 then doneA else doneB
  let doneStb := if activeUnit d n = 0 then doneB else doneA
  let held := (d.servo n).hold.contains 2 || !doneAct
  let d := d.updServo n fun s => { s with hold := s.hold.filter fun x => x != 2 }
  let d := d.wr F.spnStat_speed speed n
  let d := putNode (putNode (putNode d n 128 (speed * 16)) n 138 vbus) n 139 ibus
  let d := if spinState d n = 3 then d.updSpin n fun s => { s with n0 := speed } else d
  let d := if (d.spin n).spinup then d.updSpin n fun s => { s with upTicks := s.upTicks + 1 } else d
  let d := cardExtreme d 2 vbus
  let d := if held then d else rampTick d n speed
  let d := putNode (putNode d n 129 ((d.spin n).setp * 16 / 10 ^ 12)) n 130 (d.rd F.spnStat_command n * 16)
  let d := putNode (putNode d n 131 ((d.spin n).rate / 10 ^ 6)) n 132 (node d n 129 - node d n 128)
  let d := lawNodes d n held law
  let d := pslFrame d n 3 false []
  let d := if d.rd F.pwrHs_step 0 n = 5 ∧ spinState d n = 5 ∧ speed < 600 then setSpin d n 6 else d
  let d := if speed = 0 ∧ (spinState d n = 6 ∨ spinState d n = 7) then rotorStopped d n else d
  let d := if (presentHdas d).head? = some n ∧ 1 ≤ d.rd F.pwrHoldStat_state ∧ d.rd F.pwrHoldStat_state ≤ 3 then
    d.addSat F.pwrHoldStat_elapsed 25 else d
  let d := if !doneStb then d.updServo n fun s => { s with dirty := true, clean := if pairState d n = 2 then 0 else s.clean } else d
  if !doneAct && pairState d n == 1 then enterRetract d n 1 else d

def execSpindleTick (n : HdaId) (speed vbus : Nat) (ibus : Int) (done : Bool × Bool) (law : TickLaw) (s : State) :
    Outcome State Fault Refusal :=
  lift s fun d => d.onSlot n.val (spindleTick n.val speed vbus ibus done.1 done.2 law)

/-! ### Commutation and loss of rotor (R277-R282) -/

/-- BEMF_CROSSING (R279, R281, R282): the error of a found crossing in 1/65,536 step; a step is 60° electrical. -/
def bemfCrossing (n : Nat) (err : Int) (d : Dev) : Dev :=
  let d := putNode d n 136 err
  if spinState d n = 4 then
    d.updSpin n fun s => { s with agree := if err.natAbs * 6 ≤ 65536 then min 6 (s.agree + 1) else 0 }
  else if spinState d n = 3 ∨ spinState d n = 5 then
    d.updSpin n fun s => { s with bad := if d.rd F.spnComm_zc_tol n * 65536 < err.natAbs * 60 then s.bad + 1 else 0 }
  else d

def execBemfCrossing (n : HdaId) (err : Int) (s : State) : Outcome State Fault Refusal := lift s fun d => d.onSlot n.val (bemfCrossing n.val err)

/-- COMMUTATION (R277-R279): the next step, with the slope code of the speed band over its edges and 0 after them; a window below win_min is a skip, a searched one may find no crossing; `disagree`
says that the observer's speed is more than 2 % off the servo's with heads loaded. -/
def commutation (n windowNs : Nat) (found disagree : Bool) (d : Dev) : Dev :=
  let d := d.updSpin n fun s => { s with step := (s.step + 1) % 6, off := if disagree then min 64 (s.off + 1) else 0 }
  let d := putNode d n 134 (d.spin n).step
  let d := d.emit (.pin (pinSlope n) (d.rd F.spnSlope_code n (d.rd F.sscLaneStat_band n 0)))
  let d := (d.emit (.pin (pinGate n) (bridgeGates d n))).emit (.pin (pinSlope n) 0)
  let d := putNode d n 135 0
  if windowNs < d.rd F.spnComm_win_min n * 1000 then
    let d := putNode d n 137 (node d n 137 + 1)
    (d.addSat F.spnCnt_skips 1 n).setFlag F.spnEvt_skip true n
  else
    let d := putNode d n 137 0
    if found then d else d.updSpin n fun s => { s with bad := s.bad + 1 }

def execCommutation (n : HdaId) (window : Nat) (found disagree : Bool) (s : State) : Outcome State Fault Refusal :=
  lift s fun d => d.onSlot n.val (commutation n.val window found disagree)

/-- The rotor is declared lost by R281. -/
def rotorGone (d : Dev) (n : Nat) : Bool :=
  decide (3 ≤ (d.spin n).bad) || decide ((d.rd F.spnComm_skip_max n : Int) < node d n 137) || decide (64 ≤ (d.spin n).off)

/-- ROTOR_LOST (R281, R282 steps 1 and 2): the sequencers stop as by an abort, the bridge coasts and the observer catches. -/
def rotorLost (n : Nat) (d : Dev) : Dev :=
  if (spinState d n = 3 ∨ spinState d n = 5) ∧ rotorGone d n then
    let d := forEach [2 * n, 2 * n + 1] d fun d a => if d.rd F.sqrStat_state a = 0 then d else seqStop d a 1 0
    let d := (setSpin d n 4).updSpin n fun s => { s with lost := true, agree := 0, bad := 0, off := 0 }
    let d := putNode d n 137 0
    let d := cardCount ((d.setFlag F.spnEvt_lost true n).addSat F.spnCnt_losts 1 n) 19 1
    recomputeBound (suspendHda d n)
  else d

def execRotorLost (n : HdaId) (s : State) : Outcome State Fault Refusal := lift s (rotorLost n.val)

/-- ROTOR_RELOCK (R282 step 2): 6 crossings agree; drive and the Timetable resume. -/
def rotorRelock (n speed : Nat) (d : Dev) : Dev :=
  if spinState d n = 4 ∧ 6 ≤ (d.spin n).agree then
    let d := if (d.spin n).lost then d.setFlag F.spnEvt_relock true n else d
    let d := (lockAt d n speed).wr F.spnStat_speed speed n
    hdaArrived (recomputeBound d) n
  else d

def execRotorRelock (n : HdaId) (speed : Nat) (s : State) : Outcome State Fault Refusal := lift s (rotorRelock n.val speed)

/-- CATCH_TIMEOUT (R282 step 3): no lock within 8 revolutions at N0: heads unload, short brake once both are parked, then a
start; X is the exit latency of HS4 (R367). [DEDUCED: assumption log 126] -/
def catchTimeout (n : Nat) (d : Dev) : Dev :=
  if spinState d n = 4 then
    let d := (d.setFlag F.spnEvt_restart true n).addSat F.spnCnt_restarts 1 n
    let d := if (d.spin n).share ≠ 0 then cardBin d (ckSpin + 8 * n + 7) 1 else d
    let d := unloadHeads d n 4
    let d := (d.wr F.pwrHs_state 4 0 n).setFlag F.pwrHs_in_transition true 0 n
    let d := d.wr F.pwrHs_step 6 0 n
    let d := d.updSpin n fun s => { s with again := true, unloading := true }
    suspendHda (setSpin d n (if bothParked d n then 6 else 7)) n
  else d

def execCatchTimeout (n : HdaId) (s : State) : Outcome State Fault Refusal := lift s (catchTimeout n.val)

/-! ### Demand (R283, R284) -/

/-- Linear between neighbouring points, held outside them, rounded down to 50 rpm. [DEDUCED: assumption log 121] -/
def curveAt (pts : List (Nat × Nat)) (x : Nat) : Nat :=
  let below := pts.filter fun p => decide (p.1 ≤ x)
  let above := pts.filter fun p => decide (x < p.1)
  let rpm := match below.getLast?, above.head? with
    | some (x0, r0), some (x1, r1) => r0 + (r1 - r0) * (x - x0) / max 1 (x1 - x0)
    | some (_, r0), none => r0
    | none, some (_, r1) => r1
    | none, none => 7200
  rpm / 50 * 50

/-- DEMAND_UPDATE (R283, R284): every 100 ms, the bytes of transfers that ended in the last second, in whole MB/s;
`up` tells whether a part of one counts, which R283 leaves open. [DEDUCED: assumption log 121] -/
def demandUpdate (n : Nat) (up : Bool) (d : Dev) : Dev :=
  let moved := (tabGet [] d.host.moved n).take 10
  let x := (moved.sum + if up then 999999 else 0) / 1000000
  let d := d.updHost fun s => { s with moved := tabPut [] s.moved n (if moved.sum = 0 then [] else 0 :: moved.take 9) }
  let d := (d.wr F.spnDemand_demand x n).wr F.spnDemand_curve (tabGet 0 d.host.curves n) n
  let id := d.rd F.spnDemand_curve n
  let pts := curvePoints d id
  let onD := d.secField 14 id 2 2
  let hyst := d.secField 14 id 4 2
  let was := d.flag F.spnStat_curve_on n
  let on := if was then decide (onD - hyst ≤ x) else decide (onD ≤ x)
  let c := if on then curveAt pts x else curveFirst d id
  let old := (d.spin n).cN
  let d := d.setFlag F.spnStat_curve_on on n
  let d := if on ≠ was ∨ 150 ≤ max c old - min c old then d.updSpin n fun s => { s with cN := c } else d
  setCommand d n

def execDemandUpdate (n : HdaId) (up : Bool) (s : State) : Outcome State Fault Refusal := lift s (demandUpdate n.val up)

/-! ### Bus levels and chopper (R286-R288) -/

/-- Pins the model drives: 0 FAULT_N, 1 THERM_TRIP_N, 2 BOOT_DONE, 3 crystal hold, 8 + n SPn_BRK. -/
def pinBrk (n : Nat) : Nat := 8 + n

/-- SPn_BRK set: under R286, and before structure load under the AON comparator of R433; an undeclared slot's is not driven (R1). -/
def setChop (d : Dev) (n : Nat) (on : Bool) : Dev :=
  if (d.spin n).chop = on ∨ d.slotDrive n = .highZ then d else (d.updSpin n fun s => { s with chop := on }).emit (.pin (pinBrk n) on.toNat)

/-- VBUS_CHOP_ON (R286). [DEDUCED: assumption log 122] -/
def execVbusChopOn (n : HdaId) (s : State) : Outcome State Fault Refusal := lift s fun d => setChop d n.val true

/-- VBUS_CHOP_OFF (R286). -/
def execVbusChopOff (n : HdaId) (s : State) : Outcome State Fault Refusal := lift s fun d => setChop d n.val false

/-- VBUS_OV1 (R286): an event; the chopper is tested if it is not asserted. [DEDUCED: assumption log 122] -/
def execVbusOv1 (n : HdaId) (s : State) : Outcome State Fault Refusal :=
  lift s fun d => d.onSlot n.val fun d => (setChop (d.setFlag F.spnEvt_ov1 true n.val) n.val true).emit (.event evOv1 n.val)

/-- VBUS_OV2 (R288): coast, unload on the retract reserve, short brake once both actuators are parked. [DEDUCED: assumption log 122] -/
def vbusOv2 (n : Nat) (d : Dev) : Dev :=
  let d := cardCount ((d.setFlag F.spnEvt_ov2 true n).setFlag F.spnStat_ov2 true n) 21 1
  let d := (setSpin d n 7).updSpin n fun s => { s with unloading := true, again := false, starting := false, spinup := false }
  let d := unloadHeads d n 5
  let d := ((d.wr F.pwrHs_state 4 0 n).setFlag F.pwrHs_in_transition false 0 n).wr F.pwrHs_step 0 0 n
  recomputeBound (suspendHda (if bothParked d n then setSpin d n 6 else d) n)

def execVbusOv2 (n : HdaId) (s : State) : Outcome State Fault Refusal := lift s fun d => d.onSlot n.val (vbusOv2 n.val)

/-- CHOPPER_FAULT (R287): in force until the next start from stop; E_n becomes 0. [DEDUCED: assumption log 122] -/
def execChopperFault (n : HdaId) (s : State) : Outcome State Fault Refusal :=
  lift s fun d => d.onSlot n.val fun d => recomputeBound (cardCount
    ((d.setFlag F.spnStat_chop_fault true n.val).setFlag F.spnEvt_chop_fault true n.val) 20 1)

/-! ### Power stage (R291, R292, R433) -/

/-- Effects of SPn_FLT_N low (R433): coast, emergency retract of both actuators, E_n and R_n 0; stopped until firmware
restarts it. -/
def stageFault (d : Dev) (n : Nat) : Dev :=
  let d := d.setFlag F.pslStat_fault_seen true n
  let d := (setSpin d n 7).updSpin n fun s => { s with starting := false, spinup := false, share := 0, again := false }
  let d := emergencyRetract d n 3 6
  recomputeBound (d.wr F.pwrHs_state 4 0 n)

/-- POWER_STAGE_FAULT (R433). -/
def execPowerStageFault (n : HdaId) (s : State) : Outcome State Fault Refusal := lift s fun d => d.onSlot n.val fun d => stageFault d n.val

def pslGood (f : BitVec 96) : Bool :=
  pslCrc f.toNat == f.toNat / 2 ^ 80

/-- Eight failures in a row in one direction are a PSL fault (R292). [DEDUCED: assumption log 127] -/
def pslCheck (d : Dev) (n : Nat) : Dev :=
  let s := d.servo n
  if (8 ≤ s.dlRun ∨ 8 ≤ s.ulRun) ∧ !d.flag F.pslStat_psl_fault n then
    ((d.setFlag F.pslStat_psl_fault true n).setFlag F.spnEvt_psl_fault true n).emit (.event evPslFault n)
  else d

/-- What follows once both actuators are parked: the short brake of R282 and R288, and parked lanes after a profile unload.
[DEDUCED: assumption log 127] -/
def parkedEffects (d : Dev) (n : Nat) : Dev :=
  let d := forEach [0, 1] d fun d l =>
    if d.bit F.pslStat_parked l n && (d.spin n).unloading && !(d.servo n).retracted.testBit l then setLaneState d n l 0 else d
  if (d.spin n).unloading && bothParked d n && spinState d n == 7 then
    (setSpin d n (if d.rd F.spnStat_speed n = 0 then 0 else 6)).updSpin n fun s => { s with unloading := false }
  else d

/-- A field of a frame. -/
def frameField (f : BitVec 96) (lo w : Nat) : Nat := f.toNat / 2 ^ lo % 2 ^ w

/-- PSL_UPLINK_FRAME (R291, R292): none where the frame is lost. [DEDUCED: assumption log 127] -/
def pslUplink (n : Nat) (f : Option (BitVec 96)) (d : Dev) : Dev :=
  match f with
  | none => pslCheck ((d.addSat F.pslStat_ul_err 1 n).updServo n fun s => { s with ulRun := s.ulRun + 1 }) n
  | some f =>
    if !pslGood f then pslCheck ((d.addSat F.pslStat_ul_err 1 n).updServo n fun s => { s with ulRun := s.ulRun + 1 }) n
    else
      let crcErr := f.getLsbD 8
      let d := d.updServo n fun s => { s with ulRun := 0, dlRun := if crcErr then s.dlRun + 1 else 0 }
      let d := if crcErr then d.addSat F.pslStat_dl_err 1 n else d
      let d := if f.getLsbD 9 then d.setFlag F.pslStat_fault_seen true n else d
      let d := d.wr F.pslStat_parked (frameField f 10 2) n
      let ty := frameField f 0 4
      let d := if ty = 1 ∨ ty = 2 then
          putNode (putNode d n (64 * (ty - 1) + 18) (ofTwos 16 (frameField f 16 16))) n (64 * (ty - 1) + 19) (ofTwos 16 (frameField f 32 16))
        else if ty = 3 then
          let d := putNode d n 140 (frameField f 16 16)
          if (d.spin n).chop ∧ (d.spin n).chopMa = 0 then d.updSpin n fun s => { s with chopMa := frameField f 16 16 } else d
        else d
      pslCheck (parkedEffects d n) n

def execPslUplinkFrame (n : HdaId) (f : Option (BitVec 96)) (s : State) : Outcome State Fault Refusal :=
  lift s fun d => d.onSlot n.val (pslUplink n.val f)

/-- BOUND_RECOMPUTE (R295). -/
def execBoundRecompute (s : State) : Outcome State Fault Refusal := lift s recomputeBound

end Sys2Proof.Machine
end

