-- ==== Sys2Proof/Machine/ResetOps.lean ====
section
/-! DEFINITION. What Fire Drill, orderly resets, shutdowns and controller resets share: dropped commands, flushes to locker
tracks, and links that go down (R91-R94, R300-R306). -/
namespace Sys2Proof.Machine

def Dev.updReset (d : Dev) (g : ResetState → ResetState) : Dev := { d with reset := g d.reset }

/-! ### Domain votes (R356) -/
def setVote (d : Dev) (k : Nat) (bits : Nat) : Dev := d.wr F.pwrVote_dom bits 0 k
def orVote (d : Dev) (k dom : Nat) : Dev := d.setBit F.pwrVote_dom dom true 0 k
def clearVote (d : Dev) (k dom : Nat) : Dev := d.setBit F.pwrVote_dom dom false 0 k

/-! ### Commands dropped (R91, R92, R450) -/

/-- A command's data has not all been covered: its zone's pointer returns. -/
def uncoveredWriter (d : Dev) (x : Ctx) : Bool :=
  x.zw.isSome && zoneWriter x.c && !(dataIn x && whollyCovered d x.id)

/-- A command discarded without completion by a controller reset (R91 step 2): the data of a write not covered goes, and the
pointer of its zone returns (R450). [DEDUCED: assumption log 55] -/
def discardWrite (d : Dev) (id : Nat) : Dev :=
  match d.ctx? id with
  | none => d
  | some x =>
    let d := if writesData x.c.kind && !(dataIn x && whollyCovered d id) then restorePtr (undoContext (discardData d id) x) x else d
    discardCtx d id

/-- Every host and chain command dropped without completion (R94, R300): data wholly in the buffer stays there; a zoned write
whose data is not takes with it what later writes placed in its zone. [DEDUCED: assumption log 55 and 124] -/
def dropInFlight (d : Dev) : Dev :=
  let ids := d.host.ctxs.map (·.id)
  let d := forEach d.host.order d fun d id =>
    match d.ctx? id, (d.ctx? id).bind fun x => d.ns? x.c.nsid with
    | some x, some ns =>
      match x.zw with
      | some start =>
        if uncoveredWriter d x && !dataIn x then
          let later := laterWriters d x ns
          let d := forEach later (discardData d id) fun d y => discardCtx (discardData d y.id) y.id
          setPtr d x.c.nsid (zoneIndex d ns start) (start % max 1 (zoneSize d ns))
        else d
      | none => d
    | _, _ => d
  let d := forEach ids d discardCtx
  let d := { d with chain := { d.chain with root := [], dedupe := [] } }
  forEach [0, 1] (syncHost d) fun d h => d.updPort h fun p => { p with adminUsed := 0, aers := [], cur := none }

/-! ### Flush to locker tracks (R302, R305) -/

/-- A buffered copy with its namespace and LBA. -/
abbrev Copied : Type := Nat × Nat × BufCopy

/-- A copy at its place in the order of admission (R84), behind those of its write. -/
def insertCopied (c : Copied) : List Copied → List Copied
  | [] => [c]
  | x :: rest => if c.2.2.seq < x.2.2.seq then c :: x :: rest else x :: insertCopied c rest

/-- Every copy of the buffer that an HDA's flush concerns, in the order of admission. -/
def copiesInOrder (d : Dev) (n : Nat) : List Copied :=
  ((d.host.extents.flatMap fun e => e.copies.map fun c => (e.nsid, c.1, c.2)).filter fun c => c.2.2.hda == n && !c.2.2.safe).foldl
    (fun l c => insertCopied c l) []

/-- Covered data of an HDA in the order in which it was covered (R302), which on one HDA is the order of R84; a superseded covered copy
counts until its successor is wholly covered. [DEDUCED: assumption log 50] -/
def coveredBlks (d : Dev) (n : Nat) : List Copied := (copiesInOrder d n).filter fun c => c.2.2.covered

/-- Uncovered data in the order of R84. -/
def uncoveredBlks (d : Dev) (n : Nat) : List Copied := (copiesInOrder d n).filter fun c => !c.2.2.covered

/-- Band parity and rewrite units of an HDA, and the units of its map journal records. -/
def heldUnits (d : Dev) (n : Nat) : Nat := ((d.host.held.filter fun x => x.hda == n).map (·.units)).sum
def otherUnits (d : Dev) (n : Nat) : Nat := heldUnits d n + (journalOf d n + 511) / 512

/-- Zones lose what was not written: their pointers return to the first LBA lost. -/
def trimZones (d : Dev) (lost : List Copied) : Dev :=
  forEach lost d fun d b =>
    match d.ns? b.1 with
    | some ns =>
      if !ns.zoned then d
      else
        let zi := zoneIndex d ns b.2.1
        let off := b.2.1 % max 1 (zoneSize d ns)
        match ns.zones[zi]? with
        | some z => if off < z.wp then setPtr d b.1 zi off else d
        | none => d
    | none => d

/-- A data sector on locker tracks (R302, R305): encrypted under its home LBA with the keys of its pair (R157, R159), its poison in the entry's flags. -/
def lockerBlk (d : Dev) (c : Copied) : LockerBlk :=
  { hda := c.2.2.hda, nsid := c.1, lba := c.2.1, blk := if c.2.2.poison then .lost else c.2.2.blk, act := c.2.2.act, covered := c.2.2.covered,
    keys := (d.ns? c.1).bind fun ns => pairKeys d ns c.2.2.pair }

/-- The copies of a flush pass the cores (R157, R166): those whose keys fail, and the state after. -/
def sealCopies (d : Dev) (l : List Copied) : List Copied × Dev :=
  let step (acc : List Nat × Dev) (k : Nat × Nat) : List Nat × Dev :=
    match acc.2.ns? k.1 with
    | none => acc
    | some ns => match xtsUse acc.2 ns k.2 (l.filter fun c => c.1 == k.1 && c.2.2.pair == k.2).length true with
      | (some _, d) => (acc.1 ++ [k.1 * 32768 + k.2], d)
      | (none, d) => (acc.1, d)
  let r := ((l.map fun c => (c.1, c.2.2.pair)).eraseDups).foldl step ([], d)
  (l.filter fun c => r.1.contains (c.1 * 32768 + c.2.2.pair), r.2)

/-- Bytes under the journal's CRC-64 (R304, R305). -/
def withCrc (b : List Byte) : List Byte := b ++ toBytes (crc64 b) 8

/-- The anchor of every surface of an HDA (R304). -/
def anchorImage (epoch hash : Nat) : List Byte :=
  withCrc ([0x45, 0x56, 0x4C, 0x41] ++ toBytes 1 2 ++ toBytes 0 2 ++ toBytes epoch 8 ++ toBytes hash 48 ++ toBytes 0 4024)

/-- An anchor is written, its epoch incremented (R304). -/
def writeAnchor (d : Dev) (n : Nat) : Dev :=
  let epoch := tabGet 0 d.host.anchors n + 1
  (d.updHost fun s => { s with anchors := tabPut 0 s.anchors n epoch }).emit (.anchor n (anchorImage epoch (sectionHash d n)))

/-- An entry of a journal header (R305): NSID, flags, home LBA, CRC-32 of the data sector as written. -/
structure JournalEntry where
  nsid : Nat
  flags : Nat
  home : Nat
  crc : Nat
  deriving DecidableEq, Repr

def JournalEntry.bytes (e : JournalEntry) : List Byte :=
  toBytes e.nsid 4 ++ toBytes e.flags 4 ++ toBytes e.home 8 ++ toBytes e.crc 4 ++ toBytes 0 12

/-- The header sector of a group (R305). -/
def journalHeader (d : Dev) (n kind seq : Nat) (es : List JournalEntry) : List Byte :=
  withCrc ([0x45, 0x56, 0x4C, 0x4A] ++ toBytes 1 2 ++ toBytes n 1 ++ toBytes kind 1 ++ toBytes (tabGet 0 d.host.anchors n + 1) 8 ++
    toBytes seq 4 ++ toBytes es.length 2 ++ toBytes 0 2 ++ toBytes (sectionHash d n) 48 ++ toBytes 0 56 ++
    es.flatMap JournalEntry.bytes ++ toBytes 0 (32 * (63 - es.length) + 1944))

/-- The headers of an HDA's flush, up to 63 entries each and an end behind them; the spec leaves open over which surfaces a flush goes,
and one end stands for that of each. [DESIGN CHOICE: assumption log 198] -/
def emitGroups (d : Dev) (n : Nat) (es : List JournalEntry) : Dev :=
  let groups := (List.range (ceilDiv es.length 63)).map fun k => (es.drop (63 * k)).take 63
  let d := forEach groups.zipIdx d fun d g => d.emit (.journal n (journalHeader d n 0 g.2 g.1))
  d.emit (.journal n (journalHeader d n 1 groups.length []))

/-- The entry of a data sector: content 0, poison in bit 1; its CRC-32 covers the sector as written (R157, R158). -/
def sectorEntryOf (b : LockerBlk) : JournalEntry :=
  let poisoned : Bool := b.blk == .lost
  { nsid := b.nsid, flags := b.covered.toNat + 2 * poisoned.toNat, home := b.lba,
    crc := crc32 (toBytes (recrypt b.keys none b.lba (blkTok b.blk)) 4096) }

/-- The entries of an HDA's running parity, Homework rewrites and map journal; the spec gives their bytes nowhere, so their CRC-32 is a
free value. [DESIGN CHOICE: assumption log 198] -/
def otherEntries (d : Dev) (n : Nat) (records : List MapRec) : List JournalEntry × Dev :=
  let held := (d.host.held.filter fun x => x.hda == n).flatMap fun x =>
    let key := if x.kind = 2 then x.key / 2 else x.key
    let home := (d.ns? (key / 2 ^ 20)).elim 0 fun ns => key % 2 ^ 20 * zoneSize d ns
    List.replicate x.units ({ nsid := key / 2 ^ 20, flags := if x.kind = 0 then 5 else 1, home := home, crc := 0 } : JournalEntry)
  let maps := (List.range ((records.length + 511) / 512)).filterMap fun k =>
    (records[512 * k]?).map fun r => ({ nsid := r.nsid, flags := 9, home := 8 * r.unit, crc := 0 } : JournalEntry)
  (held ++ maps).foldl (fun acc e => let (v, d) := acc.2.draw
    (acc.1 ++ [{ e with crc := v % 2 ^ 32 }], d)) ([], d)

/-- A flush of HDA n ends with `written` 4 KiB units on locker tracks (R302): covered data first, then parity and journal, then
uncovered data; what is left is lost and counted. [DEDUCED: assumption log 124, DESIGN CHOICE: assumption log 198] -/
def flushLocker (d : Dev) (n written : Nat) : Dev :=
  let cov := coveredBlks d n
  let unc := uncoveredBlks d n
  let other := otherUnits d n
  let restU := written - cov.length - other
  let records := (d.host.journal.filter fun j => j.hda == n).take ((written - cov.length - heldUnits d n) * 512)
  let r := sealCopies d (cov.take written ++ unc.take restU)
  let bad := r.1
  let d := r.2
  let kept := ((cov.take written ++ unc.take restU).filter fun c => !bad.contains c).map (lockerBlk d)
  let coveredKept := kept.filter (·.covered)
  let r := otherEntries d n records
  let others := r.1.take (written - cov.length)
  let d := r.2
  let d := if kept.isEmpty && others.isEmpty then d
    else emitGroups d n (coveredKept.map sectorEntryOf ++ others ++ (kept.filter fun b => !b.covered).map sectorEntryOf)
  let lostC := cov.drop written ++ bad.filter fun c => c.2.2.covered
  let lostU := unc.drop restU ++ bad.filter fun c => !c.2.2.covered
  let d := d.updReset fun r => { r with
    lostCovered := r.lostCovered + lostC.length + (other - (written - cov.length)),
    lostUncovered := r.lostUncovered + lostU.length }
  let d := trimZones d (lostC ++ lostU)
  let d := d.updHost fun s => { s with
    locker := s.locker ++ kept,
    lockerMap := s.lockerMap ++ records,
    lockerHash := if kept.isEmpty && records.isEmpty then s.lockerHash else tabPut 0 s.lockerHash n (sectionHash d n),
    held := s.held.filter (fun x => x.hda != n),
    journal := s.journal.filter fun j => j.hda != n }
  let stays (c : BufCell) : Option BufCell := match (c.now :: c.under).filter fun u => u.hda != n with
    | [] => none
    | u :: rest => some { c with now := u, under := rest }
  syncHost (d.updExtents fun l => (l.map fun e => { e with cells := e.cells.filterMap stays }).filter fun e => !e.cells.isEmpty)

/-- Flush work of an HDA in 4 KiB units. -/
def flushWork (d : Dev) (n : Nat) : Nat := (coveredBlks d n).length + otherUnits d n + (uncoveredBlks d n).length

/-- An activation that a stop cuts short (R68): the staging image goes; a WRITTEN slot is marked at the next start. -/
def dropActivation (d : Dev) : Dev :=
  ({ d with struct := { d.struct with phase := .idle, staging := [], stagingOwner := none } }).wr F.glbStructStat_activate 0

/-! ### Links and sequencers -/

/-- Crossbar packets discarded when a port is shed (R33). -/
def shedXbar (d : Dev) (port : Nat) : Dev :=
  { d with xb := { d.xb with
    queued := d.xb.queued.filter fun w => w.p.out.val != port && w.p.inp.val != port
    medHeld := d.xb.medHeld.filter fun p => p.out.val != port && p.inp.val != port } }

/-- A host link goes down. -/
def hostLinkDown (d : Dev) (h : Nat) : Dev :=
  (if (d.port h).linkUp then cardEpoch d (44 + h) 1 else d).updPort h fun p => { p with linkUp := false, width := 0, gen := 0, ready := false, enabled := false }

/-- Every host and Lomey link goes down with a cause (R94, R67, R33). -/
def linksDown (d : Dev) (cause : Nat) : Dev :=
  let d := forEach [0, 1] d hostLinkDown
  forEach ((List.range 4).filter (lmlUsed d)) d fun d p => portDown d p cause

/-- Every running sequencer stops as by an abort (R199). -/
def abortAll (d : Dev) : Dev :=
  forEach (List.range 8) d fun d a => if d.rd F.sqrStat_state a = 0 then d else seqStop d a 1 0

/-- Media tasks other than a flush end; what a home write had not finished stays dirty (R300). -/
def dropTasks (d : Dev) : Dev := abortAll (d.updTasks fun _ => [])

/-- Pending calibrations are cancelled (R383). -/
def cancelCals (d : Dev) : Dev :=
  (forEach (List.range 6) d fun d k => d.wr F.calDue_due 0 0 k).setFlag F.calStat_busy false

/-- FAULT_N driven (R30, R376, R377). -/
def driveFault (d : Dev) (low : Bool) : Dev := (d.setFlag F.glbPins_fault_n (!low)).emit (.pin 0 (!low).toNat)
def driveTrip (d : Dev) (low : Bool) : Dev := (d.setFlag F.glbPins_therm_trip_n (!low)).emit (.pin 1 (!low).toNat)

/-- The HDA's heads are on the ramp. -/
def headsParked (d : Dev) (n : Nat) : Bool := bothParked d n || decide (2 ≤ d.rd F.pwrHs_state 0 n)

end Sys2Proof.Machine
end

