-- ==== Sys2Proof/Machine/LoopOps.lean ====
section
/-! DEFINITION. What loop-backs share: their sites, domains and guards, and their end (R372, R419). -/
namespace Sys2Proof.Machine

/-- The kind of a loop-back site and its instance: 0 HST, 1 LML, 2 MEM, 3 CHN, 4 PSP, 5 PSL of a pair, 6 gate-to-sense of a
pair. [DEDUCED: assumption log 178] -/
def siteKind (s : Nat) : Nat × Nat :=
  if s < 2 then (0, s) else if s < 6 then (1, s - 2) else if s = 6 then (2, 0) else if s < 23 then (3, s - 7)
  else if s < 31 then (4, s - 23) else if s < 35 then (5, s - 31) else (6, s - 35)

/-- The domain a selected loop votes for (kind 5). -/
def siteDom (s : Nat) : Nat :=
  match siteKind s with
  | (0, h) => domHst h
  | (1, p) => domLml p
  | (2, _) => 10
  | (3, c) => domChp (c / 2)
  | (4, a) => domChp a
  | (_, n) => domSsc n

/-- A loop is selected somewhere. -/
def anyLoop (d : Dev) : Bool := (List.range 39).any fun s => d.rd F.loop_depth s != 0

/-- Phase TEST holds while the life cycle is TEST or a loop is selected (R372); NORMAL follows it with empty rate windows. -/
def syncPhase (d : Dev) : Dev :=
  if d.rd F.secLc_state = 1 ∨ anyLoop d then d.wr F.thmStat_phase 3
  else if d.rd F.thmStat_phase = 3 then { d.wr F.thmStat_phase 0 with therm := { d.therm with hist := [] } }
  else d

/-- Every depth becomes 0 (R419). -/
def endLoops (d : Dev) : Dev :=
  syncPhase (forEach ((List.range 39).filter fun s => d.rd F.loop_depth s != 0) d fun d s =>
    clearVote ((d.wr F.loop_depth 0 s).setFlag F.loop_run false s) 5 (siteDom s))

end Sys2Proof.Machine
end

