-- ==== Sys2Proof/Machine/HoldUp.lean ====
section
/-! DEFINITION. Fire Drill and journal replay (R21, R33, R299-R306). -/
namespace Sys2Proof.Machine

open Host (Outcome)

/-- FIRE_DRILL_START (R299, R300 steps 1 - 5; R441 before step 4 of R385 ends): PWR_GOOD low, a bus sag, or both.
[DEDUCED: assumption log 124] -/
def fireDrillStart (low sag : Bool) (d : Dev) : Dev :=
  let d := if low then d.setFlag F.glbPins_pwr_good false else d
  if d.rd F.pwrHoldStat_state ≠ 0 ∨ (!low && !sag) then d
  else if d.rd F.glbStart_stage < 4 then d.wr F.glbStart_stage 0
  else
    let d := endLoops (cardCount (stopFetch d 5) 2 1)
    let d := d.setFlag F.xbrArbCtl_hold_up true
    let d := forEach (List.range 6) d shedXbar
    let d := linksDown d 2
    let d := dropInFlight d
    let d := cancelCals (dropTasks d)
    let d := d.updReset fun r => { r with stage := 0, thermal := false, pm := none }
    let d := dropActivation d
    let work := (presentHdas d).filter fun n => decide (flushWork d n ≠ 0)
    let d := forEach (presentHdas d) d fun d n =>
      if d.rd F.pwrHoldR_energy 0 n ≠ 0 ∨ d.rd F.pwrHoldR_rate 0 n ≠ 0 then setSpin d n 5
      else if spinState d n = 0 ∨ spinState d n = 6 then d else setSpin d n 7
    let able := work.filter fun n => decide (d.rd F.pwrHoldR_rate 0 n ≠ 0)
    let d := forEach (work.filter fun n => !able.contains n) d fun d n => flushLocker d n 0
    let d := d.updReset fun r => { r with flushing := able }
    let d := d.wr F.pwrHoldStat_flushing (able.foldl (fun b n => b + 2 ^ n) 0)
    let d := d.wr F.pwrHoldStat_cause (low.toNat + 2 * sag.toNat)
    let d := d.wr F.pwrHoldStat_elapsed 0
    let idle := able.isEmpty && (presentHdas d).all fun n => decide (3 ≤ d.rd F.pwrHs_state 0 n)
    let d := forEach (if idle then [] else (presentHdas d).filter fun n => !able.contains n) d fun d n =>
      if headsParked d n then coastSpin d n else coastSpin (unloadHeads d n 9) n
    let d := d.wr F.pwrHoldStat_state (if idle then 4 else if able.isEmpty then 3 else 2)
    forEach ((List.range 23).filter fun k => drillKeeps d k && domState d k == 1) d fun d k => setDom d k 0

def execFireDrillStart (pwrGood sag : Bool) (s : State) : Outcome State Fault Refusal := lift s (fireDrillStart pwrGood sag)

/-- FIRE_DRILL_FLUSH_END (R300 steps 6 and 7): HDA n has written so many 4 KiB units; its heads unload and it coasts.
[DEDUCED: assumption log 124] -/
def fireDrillFlushEnd (n written : Nat) (d : Dev) : Dev :=
  if !d.reset.flushing.contains n then d
  else
    let d := flushLocker d n written
    let d := d.updReset fun r => { r with flushing := r.flushing.filter fun m => m != n }
    let d := d.wr F.pwrHoldStat_flushing (d.reset.flushing.foldl (fun b n => b + 2 ^ n) 0)
    let d := coastSpin (unloadHeads d n 9) n
    if d.reset.flushing.isEmpty then d.wr F.pwrHoldStat_state 3 else d

def execFireDrillFlushEnd (n : HdaId) (written : Nat) (s : State) : Outcome State Fault Refusal :=
  lift s (fireDrillFlushEnd n.val written)

/-- The hold bus is at or above hold_min: the voltage some drive measured last (R407). -/
def heldBus (d : Dev) : Bool := (presentHdas d).any fun n => decide ((d.rd F.pwrHoldCfg_hold_min : Int) ≤ node d n 138)

/-- FIRE_DRILL_PARKED (R300 step 8). -/
def execFireDrillParked (s : State) : Outcome State Fault Refusal :=
  lift s fun d =>
    if d.rd F.pwrHoldStat_state = 3 ∧ (presentHdas d).all (headsParked d) then
      forEach (presentHdas d) ((if heldBus d then stopCheckpoint d else d).wr F.pwrHoldStat_state 4) fun d n => forEach [0, 1] d fun d l => setLaneState d n l 0
    else d

/-- JOURNAL_REPLAY (R306, R63): in HS0; an anchor hash that differs from the loaded sections refuses the HDA.
[DEDUCED: assumption log 125 and 190] -/
def journalReplay (n : Nat) (d : Dev) : Dev :=
  if !d.host.replaying.contains n ∨ d.rd F.pwrHs_state 0 n ≠ 0 ∨ d.rd F.pwrHs_in_transition 0 n ≠ 0 then d
  else
    let mine := d.host.locker.filter fun b => b.hda == n
    let maps := (d.host.nss.filter fun ns => !ns.zoned && !ns.mapReady && (ns.actMask.testBit (2 * n) || ns.actMask.testBit (2 * n + 1))).map (·.nsid)
    if !mine.isEmpty && tabGet 0 d.host.lockerHash n != sectionHash d n then
      (d.updHost fun s => { s with
        replaying := s.replaying.filter fun m => m != n,
        refusedHda := if s.refusedHda.contains n then s.refusedHda else s.refusedHda ++ [n] }).emit (.card 3 [n])
    else (forEach maps d recoverMap).updSpin n fun s => { s with replayed := true }

def execJournalReplay (n : HdaId) (s : State) : Outcome State Fault Refusal := lift s (journalReplay n.val)

/-- Every map of the namespaces on an HDA is loaded. -/
def hdaMapsReady (d : Dev) (n : Nat) : Bool :=
  d.host.nss.all fun ns => ns.mapReady || !(ns.actMask.testBit (2 * n) || ns.actMask.testBit (2 * n + 1))

/-- Step 6 of R440 for an HDA: ready, with a Namespace Attribute Changed notice on controllers with an outstanding request. -/
def hdaThroughStart (d : Dev) (n : Nat) : Dev :=
  if hdaMapsReady d n && !d.host.replaying.contains n && !d.bit F.glbStart_ready n && d.bit F.glbStart_hs0_seen n then
    noticeOutstanding (d.setBit F.glbStart_ready n true) 0x0002
  else d

/-- JOURNAL_REPLAY_DONE (R306): every entry is at its home, as stored (R159), a later copy over an earlier one, with band parity and map
state after it; the anchor is rewritten with its
epoch incremented, and the HDA admits I/O.  `skipped` names the places in the journal whose data sector failed its CRC-32: they are
counted, and a covered one is a loss. [DEDUCED: assumption log 125] -/
def journalReplayDone (n : Nat) (skipped : List Nat) (d : Dev) : Dev :=
  if !d.host.replaying.contains n ∨ !(d.spin n).replayed then d
  else
    let all := (d.host.locker.filter fun b => b.hda == n).zipIdx
    let bad := all.filter fun x => skipped.contains x.2
    let d := cardCount (cardCount d 25 bad.length) 3 (bad.filter fun x => x.1.covered).length
    let mine := (all.filter fun x => !skipped.contains x.2).map (·.1)
    let d := forEach mine d fun d b => landBlk d b.nsid b.lba b.act b.blk b.keys
    let d := forEach ((mine.map fun b => (b.nsid, b.act, b.lba / 8)).eraseDups) d fun d u =>
      match d.ns? u.1 with
      | none => d
      | some ns => if ns.zoned then refreshParity d u.1 (zoneIndex d ns (8 * u.2.2)) else placeUnit d u.1 u.2.1 none u.2.2
    let d := d.updHost fun s => { s with
      locker := s.locker.filter fun b => b.hda != n, lockerHash := tabErase s.lockerHash n,
      replaying := s.replaying.filter fun m => m != n }
    let d := writeAnchor d n
    hdaThroughStart (hdaArrived (d.updSpin n fun s => { s with replayed := false }) n) n

def execJournalReplayDone (n : HdaId) (skipped : List Nat) (s : State) : Outcome State Fault Refusal :=
  lift s (journalReplayDone n.val skipped)

end Sys2Proof.Machine
end

