-- ==== Sys2Proof/Machine/PowerOps.lean ====
section
/-! DEFINITION. What power control shares: votes, HDA targets and their steps, limits in force (R352-R367, R374). -/
namespace Sys2Proof.Machine

def Dev.updPower (d : Dev) (g : PowerState → PowerState) : Dev := { d with power := g d.power }

/-! ### Votes (R356) -/
def setHvote (d : Dev) (k n v : Nat) : Dev := d.wr F.pwrHvote_hda v 0 (4 * k + n)

/-- Some kind votes RUN for a domain. -/
def hasVote (d : Dev) (dom : Nat) : Bool := (List.range 8).any fun k => d.bit F.pwrVote_dom dom 0 k

/-- Media work of an actuator other than Homework (R353). -/
def actWork (d : Dev) (a : Nat) : Bool := d.host.tasks.any fun t => t.act == a && match t.kind with
  | .homeWrite _ _ _ | .homeVerify _ _ _ => false
  | _ => true

/-- Commands in flight or queued at a port. -/
def portBusy (d : Dev) (h : Nat) : Bool := ctxInUse d h != 0 || (d.port h).sqs.any fun q => !q.cmds.isEmpty

/-- Lmin_n and Lmin_dev (R354). -/
def lminOf (d : Dev) (n : Nat) : Nat :=
  ((d.host.nss.filter fun ns => ns.actMask.testBit (2 * n) || ns.actMask.testBit (2 * n + 1)).map (·.latency)).foldl min 60000000
def lminDev (d : Dev) : Nat := (d.host.nss.map (·.latency)).foldl min 60000000

/-- hs_allow names a state; HS0 is always allowed. -/
def hsAllowed (d : Dev) (s : Nat) : Bool := s == 0 || d.bit F.pwrHsCfg_hs_allow (s - 1)
def hsExit (d : Dev) (s : Nat) : Nat := if s = 0 then 0 else d.rd F.pwrHsExit_exit_us 0 (s - 1)

/-- The state tolerable latency permits (R355). -/
def permittedOf (d : Dev) (n : Nat) : Nat :=
  ((List.range 5).filter fun s => hsAllowed d s && decide (hsExit d s ≤ lminOf d n)).foldl max 0

/-- The hardware votes as the device's work sets them (R356); a kind 0 domain vote is withdrawn by its timer only.
[DEDUCED: assumption log 143 and 146] -/
def syncVotes (d : Dev) : Dev :=
  let bits (l : List Nat) : Nat := l.eraseDups.foldl (fun b x => b + 2 ^ x) 0
  let d := forEach ((List.range 8).filter fun a => d.actPresent a && (actWork d a || permittedOf d (a / 2) == 0)) d
    fun d a => orVote d 0 (domChp a)
  let d := setVote d 1 (bits ((List.range 2).flatMap fun h => if portBusy d h then [domHst h, 2, 3, 10] else []))
  let d := setVote d 3 (bits ((List.range 4).flatMap fun p => if lmlUsed d p then [domLml p, 3, 10] else []))
  let d := setVote d 4 (if dirtyAll d = 0 then 0 else 2 ^ 10)
  forEach [0, 1, 2, 3] d fun d n =>
    let d := setHvote d 0 n (if d.host.wanted.contains n || actWork d (2 * n) || actWork d (2 * n + 1) then 0 else 7)
    setHvote d 4 n (if dirtyOf d n = 0 ∧ waitingOf d n = 0 then 7 else 0)

/-- The shallowest state any vote tolerates for an HDA; 5 and 6 act as 7. -/
def votedOf (d : Dev) (n : Nat) : Nat :=
  ((List.range 8).map fun k => let v := d.rd F.pwrHvote_hda 0 (4 * k + n)
    if 4 < v then 7 else v).foldl min 7

/-! ### Targets (R353, R364) -/

/-- Nothing but Homework is to be done on an HDA, and no calibration or replay (R353). -/
def hdaIdle (d : Dev) (n : Nat) : Bool :=
  !actWork d (2 * n) && !actWork d (2 * n + 1) && !d.host.replaying.contains n && !d.bit F.pwrVote_dom (domChp (2 * n)) 0 5
    && !d.bit F.pwrVote_dom (domChp (2 * n + 1)) 0 5

/-- The target of R353 as far as idle times have run out: the deepest allowed state within latency (or the limit of PS3 and
PS4), votes and idle time, with R298 for HS3 and HS4. [DEDUCED: assumption log 144] -/
def targetOf (d : Dev) (n : Nat) : Nat :=
  let ps := d.rd F.pwrPs_ps
  let limit := if ps = 3 then 3 else if 4 ≤ ps then 4 else permittedOf d n
  let now := d.rd F.pwrHs_state 0 n
  let r298 := decide (dirtyOf d n = 0 ∧ waitingOf d n = 0)
  let clear := 3 ≤ ps && hdaIdle d n && r298
  let level := if clear then 4 else tabGet 0 d.power.idle n
  let ceil := min (min limit (votedOf d n)) 4
  let reach := (List.range 5).filter fun s => hsAllowed d s && decide (s ≤ ceil) &&
    (decide (s ≤ now) || (decide (s ≤ level) && (decide (s < 3) || r298)))
  reach.foldl max 0

/-- The step an HDA in state s takes next toward t (R365): 0 none; 1 channel retention; 2 unload; 3 load; 4 ramp; 5 stop;
6 start. [DEDUCED: assumption log 144 and 145] -/
def stepCode (s t : Nat) : Nat :=
  if s < t then (match s with
    | 0 => 1
    | 1 => 2
    | 2 => 4
    | _ => 5)
  else if t < s then (match s with
    | 4 => 6
    | 3 => if t = 2 then 4 else 3
    | 2 => 3
    | _ => 1)
  else 0

/-- A step begins: heads load once the speed is at least 3,600 rpm (R352), and loads and starts wait while an actuator is under an emergency retract (R272, R433). [DEDUCED: assumption log 145] -/
def beginStep (d : Dev) (n : Nat) : Dev :=
  let code := stepCode (d.rd F.pwrHs_state 0 n) (d.rd F.pwrHs_target 0 n)
  let code := if code = 3 ∧ d.rd F.spnStat_speed n < 3600 then 4 else code
  let blocked := (code = 3 ∨ code = 6) ∧ (d.servo n).retracted ≠ 0
  if blocked then d.wr F.pwrHs_step 0 0 n
  else
    let d := d.wr F.pwrHs_step code 0 n
    let lanes := [0, 1].filter fun l => d.actPresent (laneAct n l)
    match code with
    | 2 => suspendHda (forEach lanes d fun d l => (setLaneState d n l 1).setFlag F.sscLaneStat_on_track false n l) n
    | 3 => forEach lanes d fun d l => setLaneState d n l 1
    | 5 => if d.rd F.spnStat_speed n = 0 then setSpin d n 0 else setSpin d n 5
    | 6 => spindleStart n (decide (d.rd F.spnStat_speed n ≠ 0)) (d.wr F.spnCtl_mode 1 n)
    | _ => d

/-- A step may not be cut short (R365). -/
def atomicStep (code : Nat) : Bool := code == 1 || code == 2 || code == 3 || code == 6

/-- An HDA that has reached HS0 (R352, R440): seen once, its work begins. -/
def reachedHs0 (d : Dev) (n : Nat) : Dev :=
  hdaThroughStart (hdaArrived (d.setBit F.glbStart_hs0_seen n true) n) n

/-- Evaluation of one HDA (R353, R366). [DEDUCED: assumption log 144] -/
def evaluateHda (d : Dev) (n : Nat) : Dev :=
  let d := if hdaIdle d n then d else d.updPower fun p => { p with idle := tabErase p.idle n }
  let d := (d.wr F.pwrHs_lmin (lminOf d n) 0 n).wr F.pwrHs_permitted (permittedOf d n) 0 n
  let d := d.wr F.pwrHs_voted (votedOf d n) 0 n
  if pairState d n = 3 ∨ (d.spin n).unloading ∨ spinState d n = 6 then d
  else
    let t := targetOf d n
    let moving := d.flag F.pwrHs_in_transition 0 n
    let code := d.rd F.pwrHs_step 0 n
    let was := d.rd F.pwrHs_target 0 n
    let d := d.wr F.pwrHs_target t 0 n
    if !moving then
      if t = d.rd F.pwrHs_state 0 n then d else beginStep (d.setFlag F.pwrHs_in_transition true 0 n) n
    else if atomicStep code then d
    else if t = d.rd F.pwrHs_state 0 n then
      recomputeBound ((d.setFlag F.pwrHs_in_transition false 0 n).wr F.pwrHs_step 0 0 n)
    else if t ≠ was ∨ code = 0 then beginStep d n
    else d

/-! ### Limits in force (R363, R374) -/

/-- The stricter of power state and throttle step, column by column; streams less those the power check removed, never
below 2. [DEDUCED: assumption log 148 and 149] -/
def applyLimits (d : Dev) : Dev :=
  let a := limitsOf (min 2 d.power.lastPs)
  let b := limitsOf (d.rd F.thmStat_step)
  let table := min a.1 b.1
  let d := d.wr F.pwrPs_streams (max (min 2 table) (table - d.power.cut))
  let d := d.setFlag F.pwrPs_throttling (decide (d.rd F.pwrPs_streams < table))
  let d := d.wr F.pwrPs_speed_cap (min a.2.2.1 b.2.2.1)
  let d := d.wr F.pwrPs_host_width (min a.2.2.2.1 b.2.2.2.1)
  let d := d.wr F.pwrPs_engines (min a.2.2.2.2 b.2.2.2.2)
  forEach [0, 1, 2, 3] d setCommand

/-- A change of NVMe power state (R362): it applies to the whole device. [DEDUCED: assumption log 148] -/
def setPowerState (d : Dev) (ps : Nat) : Dev :=
  let d := d.wr F.pwrPs_ps ps
  let d := d.updPower fun p => if ps < 3 then { p with lastPs := ps, cut := 0, belowFor := 0 } else p
  applyLimits d

/-- MP of a power state in mW (R362). -/
def maxPower (d : Dev) (ps : Nat) : Nat := match ps with
  | 0 => 58000
  | 1 => d.secField 13 0 0x14 1 * 1000
  | 2 => d.secField 13 0 0x15 1 * 1000
  | 3 => 8000
  | _ => 900

/-! ### Chip states (R358) -/

/-- Domains that hold a vote of kinds 0-6 outside PD_AON. -/
def cs2Block (d : Dev) : Nat :=
  ((List.range 23).filter fun k => k != 0 && (List.range 7).any fun v => d.bit F.pwrVote_dom k 0 v).foldl (fun b k => b + 2 ^ k) 0

/-- CS1 may be entered: outside PS3 and PS4 tolerable latency must permit it. -/
def cs1Ok (d : Dev) : Bool :=
  d.bit F.pwrCs_cs_allow 0 && (decide (10 ≤ lminDev d) || decide (3 ≤ d.rd F.pwrPs_ps)) && ctxInUse d 0 == 0 && ctxInUse d 1 == 0
    && transitInUse d == 0

/-- The conditions of CS2, with the host links in L1.2 or L2; outside Fire Drill (R33), and with every FIFO and the crossbar empty
(R29). -/
def cs2Ok (d : Dev) (deep : List Nat) : Bool :=
  d.bit F.pwrCs_cs_allow 1 && decide (2000 ≤ lminDev d) &&
    ((presentHdas d).all fun n => d.rd F.pwrHs_state 0 n == 4 && !d.flag F.pwrHs_in_transition 0 n) &&
    dirtyAll d == 0 && d.rd F.pwrCs_cs2_block == 0 && (List.range 4).all (fun p => !lmlUsed d p) &&
    d.rd F.pwrPs_ps != 3 && (usedPorts d).all (fun h => deep.contains h || !(d.port h).linkUp) && !inDrill d && (List.range 23).all (fifosEmpty d)

/-- Every domain but PD_AON enters RETAIN (CS2). -/
def enterCs2 (d : Dev) : Dev :=
  forEach ((List.range 23).drop 1) ((d.wr F.pwrCs_state 2).wr F.pwrCs_target 2) fun d k => setDom d k 1

end Sys2Proof.Machine
end

