-- ==== Sys2Proof/Machine/Reset.lean ====
section
/-! DEFINITION. Controller resets, enabling and ready, shutdown, and the orderly chip reset (R71, R91-R94, R417, R438, R440). -/
namespace Sys2Proof.Machine

open Host (Outcome)

/-- The chip leaves CS2 where it sleeps (R359). [DEDUCED: assumption log 147] -/
def wakeCs2 (d : Dev) : Dev := if d.rd F.pwrCs_state = 2 then leaveCs2 d else d

/-! ### Controller reset (R91, R71) -/

/-- A host command of a controller. -/
def ofPort (h : Nat) (x : Ctx) : Bool := match x.org with
  | .host g _ _ => g == h
  | _ => false

/-- Reset of one controller: commands not begun are discarded, the latest first so that no zone pointer stays advanced; those
begun finish internally; the port stays with its link, which PERST_N takes down.  A staging image or download of the controller
is released (R65); an activation past verification goes on (R68). [DEDUCED: assumption log 55] -/
def controllerReset (h : Nat) (byPerst : Bool) (d : Dev) : Dev :=
  let d := wakeCs2 d
  let d := forEach ((d.host.ctxs.filter fun x => ofPort h x && !begunNow d x).map (·.id)).reverse d discardWrite
  let d := d.updHost fun s => { s with ctxs := listMapIf (ofPort h) (fun x => { x with org := .gone }) s.ctxs }
  let d := if byPerst && (d.port h).linkUp then cardEpoch d (44 + h) 1 else d
  let d := d.updPort h fun p =>
    { linkUp := p.linkUp && !byPerst, offer := p.offer, width := if byPerst then 0 else p.width, gen := if byPerst then 0 else p.gen }
  let d := if byPerst then d.setBit F.glbPins_perst_n h false else d
  let d := (d.setFlag F.hstCtxStat_fetch_stalled false h)
  let d := if d.struct.stagingOwner = some h then
      if d.rd F.glbStructStat_activate < 2 then dropActivation d
      else { d with struct := { d.struct with stagingOwner := none } }
    else d
  let d := { d with
    fw := { d.fw with staging := [], sw := d.fw.sw.map fun w => if w.1 = h then (9, w.2) else w },
    sec := { d.sec with tcg := tabErase d.sec.tcg h, d2 := d.sec.d2.map fun w =>
      if (w.waiter.map (·.1)) = some h then { w with waiter := none } else w },
    cipher := { d.cipher with retiring := d.cipher.retiring.map fun r =>
      if (r.waiter.map (·.1)) = some h then { r with waiter := none } else r } }
  syncHost d

/-- CONTROLLER_RESET (R91, R71): CC.EN cleared, or PERST_N of the port. -/
def execControllerReset (h : HstId) (byPerst : Bool) (s : State) : Outcome State Fault Refusal :=
  lift s (controllerReset h.val byPerst)

/-- NVM_SUBSYSTEM_RESET (R91): both controllers. -/
def execNvmSubsystemReset (s : State) : Outcome State Fault Refusal :=
  lift s fun d => forEach [0, 1] d fun d h => controllerReset h false d

/-- CONTROLLER_ENABLE (R91): CC.EN set on a used port whose link is up (R440). -/
def execControllerEnable (h : HstId) (s : State) : Outcome State Fault Refusal :=
  lift s fun d =>
    if hostUsed d h.val && (d.port h.val).linkUp then d.updPort h.val fun p => { p with enabled := true } else d

/-- CONTROLLER_READY (R91, R417): CSTS.RDY reads 1, but not before an activation ends (R68); the first one after a kept dump posts
the Telemetry notice. -/
def controllerReady (h : Nat) (d : Dev) : Dev :=
  if (d.port h).enabled && decide (d.rd F.glbStructStat_activate < 2) then
    let d := d.updPort h fun p => { p with ready := true }
    if d.card.told then d
    else noticeOutstanding (d.updCard fun c => { c with told := true }) ntTelemetry
  else d

def execControllerReady (h : HstId) (s : State) : Outcome State Fault Refusal := lift s (controllerReady h.val)

/-- A host link trains up to host_gen and host_width of PORTS and to what the partner offers (R71, R440): its port is used, PERST_N is high, BOOT_DONE is high, its clock is in lock and no loop-back holds it down. -/
def hostTrain (d : Dev) (h : Nat) : Dev :=
  let lost := d.reset.lost.any fun c => match c with
    | .hst k => k.val == h
    | _ => false
  let looped := decide (1 ≤ d.rd F.loop_depth h ∧ d.rd F.loop_depth h ≤ 3)
  if hostUsed d h && d.bit F.glbPins_perst_n h && d.flag F.glbStart_boot_done && !lost && !looped then
    d.updPort h fun p => { p with
      linkUp := true, width := min p.offer.1 (d.secField 2 0 (8 * h + 2) 1), gen := min p.offer.2 (d.secField 2 0 (8 * h + 1) 1) }
  else d

/-- PERST_DEASSERT (R438, R440): HSTn_PERST_N rises with a partner that offers a width and a generation; the link trains once BOOT_DONE
is high. -/
def perstDeassert (h width gen : Nat) (d : Dev) : Dev :=
  hostTrain ((wakeCs2 (d.setBit F.glbPins_perst_n h true)).updPort h fun p => { p with offer := (width, gen) }) h

def execPerstDeassert (h : HstId) (width gen : Nat) (s : State) : Outcome State Fault Refusal :=
  lift s (perstDeassert h.val width gen)

/-! ### Shutdown (R93, R182) -/

/-- Every dirty extent is written to media: to its home, or with an abrupt shutdown to locker tracks, which also take the covered data
that waits below an uncovered write. -/
def destageAll (d : Dev) (lockerOnly : Bool) : Dev :=
  let home (wid : Nat) : Bool := !lockerOnly && (d.host.extents.any fun e => e.wid == wid) && whollyCovered d wid
  let dirty := (copiesOf d).filter fun c => c.2.covered && !c.2.safe
  forEach ((dirty.map fun c => (c.2.wid, c.2.act)).eraseDups) d fun d wa =>
    if home wa.1 then addTask d (.destage wa.1) wa.2 true else toLocker d wa.1 wa.2

/-- No data is dirty: every covered copy has left the buffer or is on locker tracks. -/
def allClean (d : Dev) : Bool := (copiesOf d).all fun c => !c.2.covered || c.2.safe

/-- SHUTDOWN_NOTIFICATION (R93). -/
def execShutdownNotification (h : HstId) (abrupt : Bool) (s : State) : Outcome State Fault Refusal :=
  lift s fun d =>
    if (d.port h.val).enabled then destageAll (d.updPort h.val fun p => { p with shst := 1 }) abrupt else d

/-- SHUTDOWN_COMPLETE (R93): CSTS.SHST becomes 10b. -/
def execShutdownComplete (h : HstId) (s : State) : Outcome State Fault Refusal :=
  lift s fun d =>
    if (d.port h.val).shst = 1 && allClean d then d.updPort h.val fun p => { p with shst := 2 } else d

/-! ### Orderly stop: chip reset, thermal shutdown, post-mortem reset (R94, R376, R417) -/

/-- Steps 1 and 2 of R94: a checkpoint, loops and pending calibrations end, fetching stops, links go down, in-flight
commands are dropped. -/
def beginStop (d : Dev) (thermal : Bool) (pm : Option Nat) : Dev :=
  let d := endLoops (stopCheckpoint (wakeCs2 d))
  let d := stopFetch d 4
  let d := linksDown d 4
  let d := dropInFlight d
  let d := dropActivation (cancelCals (dropTasks d))
  d.updReset fun r => { r with stage := 3, thermal := thermal, pm := pm }

/-- A stop is under way: an orderly reset, a post-mortem reset, a thermal shutdown, or Fire Drill before step 8. -/
def stopping (d : Dev) : Bool :=
  d.reset.stage != 0 || (d.rd F.pwrHoldStat_state != 0 && d.rd F.pwrHoldStat_state != 4)

/-- ORDERLY_RESET (R94, R441, R376): SYS_RST_N low; during a stop it is ignored, after a thermal stop it asks for the restart,
before BOOT_DONE the boot chain restarts, and a device held for a lost clock is released (R30). [DESIGN CHOICE: assumption log 40] -/
def orderlyReset (d : Dev) : Dev :=
  let d := d.setFlag F.glbPins_sys_rst_n false
  if d.reset.waitCool then { d with therm := { d.therm with restarting := true } }
  else if d.reset.held then d.updReset fun r => { r with held := false, stage := 6 }
  else if stopping d then d
  else if d.rd F.glbStart_stage < 8 then (d.wr F.glbStart_stage 0).updReset fun r => { r with wipeSram := false, wipeDram := false }
  else beginStop d false none

def execOrderlyReset (s : State) : Outcome State Fault Refusal := lift s orderlyReset

/-- Steps 3 and 4 of R94: the flush of each HDA in HS0 - HS2 ends with so many 4 KiB units of uncovered data written; heads unload,
spindles coast.  Then the wipes of step 5 run, or every domain but PD_AON is off (R376). -/
def stopFlushed (uncovered : List Nat) (d : Dev) : Dev :=
  if d.reset.stage ≠ 3 then d
  else
    let d := forEach (presentHdas d) d fun d n =>
      let able := decide (d.rd F.pwrHs_state 0 n ≤ 2)
      flushLocker d n (if able then (coveredBlks d n).length + otherUnits d n + uncovered.getD n 0 else 0)
    let d := forEach (presentHdas d) d fun d n =>
      coastSpin (if headsParked d n then d else unloadHeads d n 9) n
    if d.reset.thermal then d.updReset fun r => { r with stage := 0, thermal := false, waitCool := true }
    else (d.wr F.memWipe_state 1).updReset fun r => { r with stage := 5, wipeSram := true, wipeDram := true }

/-- ORDERLY_RESET_FLUSH_END (R94). -/
def execOrderlyResetFlushEnd (uncovered : List Nat) (s : State) : Outcome State Fault Refusal := lift s (stopFlushed uncovered)

end Sys2Proof.Machine
end

