-- ==== Sys2Proof/Machine/Thermal.lean ====
section
/-! DEFINITION. The thermal sequencer: sensors, regions, throttle steps, shutdown and trip, phases and head temperatures
(R34, R35, R368-R379). -/
namespace Sys2Proof.Machine

open Host (Outcome)

/-- Insertion in rising order, sorting, and the median (the mean of the middle two, rounded down, for an even count). -/
def insertInt (x : Int) : List Int → List Int
  | [] => [x]
  | y :: t => if x ≤ y then x :: y :: t else y :: insertInt x t

def sortInts (l : List Int) : List Int := l.foldr insertInt []

/-- [DEDUCED: assumption log 150] -/
def median (l : List Int) : Int :=
  let s := sortInts l
  if s.length % 2 = 1 then s.getD (s.length / 2) 0
  else (s.getD (s.length / 2 - 1) 0 + s.getD (s.length / 2) 0) / 2

/-- Sensors of a region (R368): 0 C, 1 + n Qn. -/
def regionSensors (r : Nat) : List Nat := if r = 0 then List.range 12 else [4 * r + 8, 4 * r + 9, 4 * r + 10, 4 * r + 11]
def sensorRegion (i : Nat) : Nat := if i < 12 then 0 else (i - 12) / 4 + 1

def sensorExcluded (d : Dev) (i : Nat) : Bool := d.flag F.thmSens_excluded 0 i
def sensorTemp (d : Dev) (i : Nat) : Int := d.rdInt F.thmSens_temp 0 i

/-- Thermal events (R375): event 12. -/
def evThermal : Nat := 12

/-- A throttle step put in force: its event wakes the chip, its limits apply, entries are counted (R371, R374, R375).
[DEDUCED: assumption log 159] -/
def setStep (d : Dev) (step : Nat) : Dev :=
  let old := d.rd F.thmStat_step
  if step = old then d
  else
    let d := (d.wr F.thmStat_step step).setFlag (if old < step then F.thmEvt_step_up else F.thmEvt_step_down) true
    let d := d.updTherm fun t => { t with
      entries1 := if old = 0 then t.entries1 + 1 else t.entries1,
      entries3 := if step = 3 then t.entries3 + 1 else t.entries3 }
    applyLimits (wakeCs2 (d.emit (.event evThermal 0)))

/-- Causes of the fixed conservative throttle (R370, R35). -/
def fixedCause (d : Dev) : Bool :=
  decide (4 < d.rd F.thmStat_excluded) || d.rd F.glbRegionStat_temp_over != 0 || d.rd F.glbRegionStat_volt_over != 0

/-- The fixed throttle follows its causes; when the last ends, stepping down starts afresh (R375). [DEDUCED: assumption log 153] -/
def syncFixed (d : Dev) : Dev :=
  if fixedCause d then setStep (d.setFlag F.thmStat_fixed true) 3
  else if d.flag F.thmStat_fixed then (d.setFlag F.thmStat_fixed false).updTherm fun t => { t with quiet := 0 }
  else d

/-- Kelvin, rounded to the nearest integer, of 1/16 °C (R371). -/
def kelvin (t : Int) : Nat := ((t + 8) / 16 + 273).toNat

/-- A value of the SMART log: sensor 0 composite and 1 the die maximum, 2-6 the regions, 7 the head maximum. -/
def smartTemp (d : Dev) (sensor : Nat) : Nat :=
  if sensor ≤ 1 then kelvin (d.rdInt F.thmStat_die_max)
  else if sensor ≤ 6 then kelvin (d.rdInt F.thmRegion_temp 0 (sensor - 2))
  else kelvin (d.rdInt F.thmStat_head_max * 16)

/-- A controller has a threshold crossed: Critical Warning bit 1 (R371). [DEDUCED: assumption log 152] -/
def thresholdCrossed (d : Dev) (h : Nat) : Bool :=
  (d.port h).thresholds.any fun t =>
    let k := smartTemp d (t.1 / 2)
    if t.1 % 2 = 0 then decide (t.2 ≤ k) else decide (k ≤ t.2)

/-- Thresholds checked: a crossing posts its notice once. [DEDUCED: assumption log 152] -/
def checkThresholds (d : Dev) : Dev :=
  forEach [0, 1] d fun d h =>
    if thresholdCrossed d h then
      if d.therm.warn.contains h then d
      else postNotice (d.updTherm fun t => { t with warn := t.warn ++ [h] }) h ntTemp
    else d.updTherm fun t => { t with warn := t.warn.filter fun x => x != h }

/-- Adjacent region pairs (R34), in their order of reporting. -/
def regionPairs : List (Nat × Nat) := [(0, 1), (0, 2), (0, 3), (0, 4), (1, 2), (2, 4), (4, 3), (3, 1)]

/-- One reading joins the mean of the last 10 (R368). [DEDUCED: assumption log 150] -/
def readSensor (d : Dev) (i : Nat) (t : Int) : Dev :=
  let raw := (t :: tabGet [] d.therm.raw i).take 10
  let mean := raw.sum / raw.length
  let first := (tabGet [] d.therm.raw i).isEmpty
  let d := (d.updTherm fun x => { x with raw := tabPut [] x.raw i raw }).wrInt F.thmSens_temp mean 0 i
  if first || decide (d.rdInt F.thmSens_peak 0 i < mean) then d.wrInt F.thmSens_peak mean 0 i else d

/-- Region temperature (R35, R368). -/
def regionTemp (d : Dev) (r : Nat) : Option Int :=
  match (regionSensors r).filter fun i => !sensorExcluded d i with
  | [] => none
  | l => some (median (l.map (sensorTemp d)))

def maxInt (l : List Int) : Int := match l with
  | [] => 0
  | x :: t => t.foldl max x

/-- The regions, their rises and bands (R368, R373, R379), and the die maximum. [DEDUCED: assumption log 150] -/
def updateRegions (d : Dev) : Dev :=
  let most := maxInt ((List.range 5).filterMap (regionTemp d))
  let d := forEach (List.range 5) d fun d r =>
    let t := (regionTemp d r).getD most
    let h := (t :: tabGet [] d.therm.hist r).take 801
    let since (k : Nat) : Int := t - h.getD (min k (h.length - 1)) t
    let d := (d.updTherm fun x => { x with hist := tabPut [] x.hist r h }).wrInt F.thmRegion_temp t 0 r
    let d := (d.wrInt F.thmRegion_rise8 (since 800) 0 r).wrInt F.thmRegion_rise2 (since 200) 0 r
    d.wr F.thmRegion_band (bandOf d t 14 (d.rd F.thmRegion_band 0 r)) 0 r
  d.wrInt F.thmStat_die_max (maxInt (((List.range 28).filter fun i => !sensorExcluded d i).map (sensorTemp d)))

/-- A new setting of an object of kinds 1 to 5 (R380, R382): a converter's waits for the gate to be closed (R203), the others are in
force at once. [DEDUCED: assumption log 195 and 157] -/
def newSetting (d : Dev) (kind inst : Nat) (setting : List Int) : Dev :=
  let whole := d.bit F.calDue_method inst 0 kind
  let old : Trim := tabGet {} d.therm.trims (kind * 16 + inst)
  let new : Trim := { old with goal := setting, whole := whole || decide (3 ≤ kind) }
  let d := d.updTherm fun t => { t with trims := tabPut {} t.trims (kind * 16 + inst) new }
  let waits := (kind == 1 && (d.chn inst).rg) || (kind == 2 && (d.chn inst).wg)
  if waits then d else trimStep d kind inst

/-- The settings kept for the band an object is in come into force where another band's are (R379). [DEDUCED: assumption log 195] -/
def bandSettings (d : Dev) : Dev :=
  forEach [1, 2, 3, 4, 5] d fun d k => forEach (List.range 16) d fun d i =>
    let kept := tabGet [] d.therm.trimVals ((k * 16 + i) * 8 + calBand d k i 0)
    if kept.isEmpty || kept == (tabGet {} d.therm.trims (k * 16 + i)).goal then d else newSetting d k i kept

/-- The DRAM refresh interval's divisor in the band of region C (R379). -/
def refreshDivisor (d : Dev) : Nat := match d.rd F.thmRegion_band 0 0 with
  | 6 => 2
  | 7 => 4
  | _ => 1

/-- A change of region band leaves objects uncalibrated in it, or drift has passed a delta: they become due (R379, R381). -/
def regionDue (d : Dev) : Dev :=
  forEach [1, 2, 3, 4, 5] d fun d k => forEach (List.range 16) d fun d i =>
    let seen := tabGet 0 d.therm.calBands (calKey k i 0)
    if calDrifted d k i 0 || (seen != 0 && !seen.testBit (calBand d k i 0)) then makeDue d k i else d

/-- Samples in a row by which a sensor differs from the median of the others of its region by more than 12 °C (R370).
[DEDUCED: assumption log 151] -/
def countDeviation (d : Dev) (i : Nat) : Dev :=
  let others := (regionSensors (sensorRegion i)).filter fun j => j != i && !sensorExcluded d j
  let off := !sensorExcluded d i && decide (2 ≤ others.length) &&
    decide (192 < (sensorTemp d i - median (others.map (sensorTemp d))).natAbs)
  d.updTherm fun t => { t with dev := tabPut 0 t.dev i (if off then tabGet 0 t.dev i + 1 else 0) }

/-- The Report Card's minute of temperatures and its extremes (R410). -/
def cardTemps (d : Dev) : Dev :=
  let die := d.rdInt F.thmStat_die_max
  let d := cardExtreme (cardExtreme d 0 die) 4 die
  let d := forEach regionPairs.zipIdx d fun d pi =>
    cardExtreme d 7 (pi.2 * 2 ^ 56 + (d.rdInt F.thmRegion_temp 0 pi.1.1 - d.rdInt F.thmRegion_temp 0 pi.1.2).natAbs)
  let put (m : List (Nat × Int)) (i : Nat) (t : Int) : List (Nat × Int) :=
    tabPut (-32768) m i (max t (tabGet (-32768) m i))
  let d := d.updCard fun c => { c with
    minute := put ((List.range 28).foldl (fun m i => if sensorExcluded d i then m else put m i (sensorTemp d i)) c.minute)
      28 (d.rdInt F.thmStat_head_max * 16), minuteTicks := c.minuteTicks + 1 }
  if d.card.minuteTicks < 6000 then d
  else
    let bin (t : Int) : Nat := if t < 0 then 0 else min 15 (t.toNat / 16 / 8 + 1)
    let d := forEach d.card.minute d fun d m =>
      if m.1 < 28 && sensorExcluded d m.1 then d else cardBin d (ckTemp + 16 * m.1 + bin m.2) 1
    d.updCard fun c => { c with minute := [], minuteTicks := 0 }

/-- A shutdown condition (R376, R378): ignored in Fire Drill; an orderly reset goes on as the shutdown. [DEDUCED: assumption log 154] -/
def thermalShutdown (d : Dev) (cause : Nat) : Dev :=
  if d.rd F.pwrHoldStat_state != 0 && d.rd F.pwrHoldStat_state != 4 || d.reset.waitCool || d.reset.thermal then d
  else
    let d := (driveFault (d.wr F.thmStat_cause cause) true).setFlag F.thmEvt_shutdown true
    let d := (d.updReset fun r => { r with stops := r.stops ++ [10] }).emit (.event evThermal 0)
    if d.reset.stage = 0 then beginStop d true none
    else if d.reset.stage = 3 then d.updReset fun r => { r with thermal := true }
    else d.updReset fun r => { r with stage := 0, thermal := false, waitCool := true, wipeSram := false, wipeDram := false }

/-- A step-up condition of R373. -/
def stepUpCond (d : Dev) : Bool :=
  decide (100 ≤ d.therm.hot105) || (d.rd F.thmStat_phase == 0 &&
    (List.range 5).any fun r => decide (128 * (d.rd F.thmCfg_rise_throttle : Int) ≤ d.rdInt F.thmRegion_rise8 0 r * 10))

/-- The checks of R373 after a sample; the level shutdown has its limit from the first structure load on (assumption log 4).
[DEDUCED: assumption log 153] -/
def thermalChecks (d : Dev) : Dev :=
  let die := d.rdInt F.thmStat_die_max
  let d := d.updTherm fun t => { t with
    hot105 := if 1680 ≤ die then t.hot105 + 1 else 0,
    hotFix := if d.rd F.thmCfg_fixed_shutdown ≠ 0 ∧ (d.rd F.thmCfg_fixed_shutdown * 16 : Nat) ≤ die then t.hotFix + 1 else 0,
    lockout := t.lockout - 1,
    secs1 := if d.rd F.thmStat_step = 0 then t.secs1 else t.secs1 + 1,
    secs3 := if d.rd F.thmStat_step = 3 then t.secs3 + 1 else t.secs3 }
  let up := stepUpCond d
  let d := d.updTherm fun t => { t with quiet := if up || decide (1600 < die) then 0 else t.quiet + 1 }
  let d := if up && d.therm.lockout == 0 && decide (d.rd F.thmStat_step < 3) then
      setStep (d.updTherm fun t => { t with lockout := 800 }) (d.rd F.thmStat_step + 1)
    else d
  let fast := d.rd F.thmStat_phase = 0 ∧ (List.range 5).any fun r =>
    decide (32 * (d.rd F.thmCfg_rise_shutdown : Int) ≤ d.rdInt F.thmRegion_rise2 0 r * 10)
  if fast then thermalShutdown d 1 else if 10 ≤ d.therm.hotFix then thermalShutdown d 2 else d

/-- THERMAL_SAMPLE (R368, R373): one raw sample of each die sensor in 1/16 °C. -/
def thermalSample (temps : List Int) (d : Dev) : Dev :=
  if d.reset.held then d
  else
    let d := forEach (List.range 28) d fun d i => readSensor d i (temps.getD i 0)
    let d := updateRegions d
    let d := forEach (List.range 28) d countDeviation
    thermalChecks (checkThresholds (regionDue (bandSettings (cardTemps d))))

def execThermalSample (temps : List Int) (s : State) : Outcome State Fault Refusal := lift s (thermalSample temps)

/-- THROTTLE_STEP_DOWN (R375): after 30 s without a step-up condition and with the die maximum at or below 100 °C.
[DEDUCED: assumption log 153] -/
def throttleStepDown (d : Dev) : Dev :=
  if d.therm.quiet < 3000 ∨ d.rd F.thmStat_step = 0 ∨ d.flag F.thmStat_fixed then d
  else setStep (d.updTherm fun t => { t with quiet := 0 }) (d.rd F.thmStat_step - 1)

def execThrottleStepDown (s : State) : Outcome State Fault Refusal := lift s throttleStepDown

/-- SENSOR_EXCLUSION (R370): a sensor off its region's median for longer than 1 s. [DEDUCED: assumption log 151 and 159] -/
def sensorExclusion (i : Nat) (d : Dev) : Dev :=
  if tabGet 0 d.therm.dev i ≤ 100 ∨ sensorExcluded d i then d
  else
    let d := (d.setFlag F.thmSens_excluded true 0 i).addWrap F.thmStat_excluded 1
    let d := (d.setFlag F.thmEvt_exclude true).emit (.event evThermal (i + 1))
    syncFixed (wakeCs2 (cardCount d 22 1))

def execSensorExclusion (i : Fin 28) (s : State) : Outcome State Fault Refusal := lift s (sensorExclusion i.val)

/-- HARDWARE_TRIP (R377, R303): every HDA retracts and coasts, whatever else runs; what is not on media is lost.  How much a flush cut
short had written is a free value (assumption log 2).
[DEDUCED: assumption log 155] -/
def hardwareTrip (i : Nat) (d : Dev) : Dev :=
  if sensorExcluded d i || d.reset.waitCool then d
  else
    let drill := d.rd F.pwrHoldStat_state != 0 && d.rd F.pwrHoldStat_state != 4
    let d := endLoops (wakeCs2 d)
    let d := forEach (presentHdas d) d fun d n => coastSpin (emergencyRetract d n 3 7) n
    let d := driveTrip (driveFault (d.wr F.thmStat_cause 3) true) true
    let d := linksDown (stopFetch (d.setFlag F.thmEvt_shutdown true) 6) 4
    let d := dropActivation (cancelCals (dropTasks (dropInFlight d)))
    let d := forEach (presentHdas d) d fun d n =>
      if d.reset.flushing.contains n then let (v, d) := d.draw
        flushLocker d n (v % (flushWork d n + 1))
      else flushLocker d n 0
    let d := d.updReset fun r => { r with
      stage := 0, thermal := false, pm := none, flushing := [], wipeSram := false, wipeDram := false, waitCool := true,
      stops := r.stops ++ [11] }
    if drill then (d.wr F.pwrHoldStat_flushing 0).wr F.pwrHoldStat_state 3 else d

def execHardwareTrip (i : Fin 28) (s : State) : Outcome State Fault Refusal := lift s (hardwareTrip i.val)

/-- Phase NORMAL: the rate windows start empty (R372). -/
def phaseNormal (d : Dev) : Dev := (d.wr F.thmStat_phase 0).updTherm fun t => { t with hist := [] }

/-- THERMAL_PHASE_NORMAL (R372): every present HDA has reached HS0 since the cold start. -/
def thermalPhaseNormal (d : Dev) : Dev :=
  if (d.rd F.thmStat_phase = 1 ∨ d.rd F.thmStat_phase = 2) ∧ (presentHdas d).all fun n => d.bit F.glbStart_hs0_seen n then
    phaseNormal d
  else d

def execThermalPhaseNormal (s : State) : Outcome State Fault Refusal := lift s thermalPhaseNormal

/-- PHASE_TIMEOUT (R372): 600 s since the cold start. -/
def execPhaseTimeout (s : State) : Outcome State Fault Refusal :=
  lift s fun d => if d.rd F.thmStat_phase = 1 ∨ d.rd F.thmStat_phase = 2 then phaseNormal d else d

/-- The temperatures of a pair of adjacent regions differ by more than 15 °C (R35), as THM_REGION holds them. -/
def pairOver (d : Dev) (pair : Nat) : Bool :=
  let p := regionPairs.getD pair (0, 0)
  decide (240 < (d.rdInt F.thmRegion_temp 0 p.1 - d.rdInt F.thmRegion_temp 0 p.2).natAbs)

/-- REGION_EVENT (R35): a pair is over its limit for the stated time; for temperatures the region values must show it.
[DEDUCED: assumption log 159] -/
def regionEvent (pair : Nat) (volt : Bool) (d : Dev) : Dev :=
  if !volt && !pairOver d pair then d
  else
  let d := if volt then (d.setBit F.glbRegionStat_volt_over pair true).setBit F.glbRegionStat_volt_seen pair true
    else (d.setBit F.glbRegionStat_temp_over pair true).setBit F.glbRegionStat_temp_seen pair true
  syncFixed (d.emit (.event 13 pair))

def execRegionEvent (pair : Fin 8) (volt : Bool) (s : State) : Outcome State Fault Refusal := lift s (regionEvent pair.val volt)

/-- REGION_BIT_CLEAR (R35): a pair has been back within its limit for 1 s; for temperatures the region values must show it. -/
def execRegionBitClear (pair : Fin 8) (volt : Bool) (s : State) : Outcome State Fault Refusal :=
  lift s fun d => if !volt && pairOver d pair.val then d else syncFixed (d.setBit (if volt then F.glbRegionStat_volt_over else F.glbRegionStat_temp_over) pair.val false)

/-- Values a head was calibrated to in a band come into force (R379): its heater codes, the target at the next write-gate close
(R239). [DEDUCED: assumption log 157] -/
def headValues (d : Dev) (a h : Nat) (v : List Nat) : Dev :=
  forEach [2 * a, 2 * a + 1] d fun d c =>
    let d := (d.wr F.chnFly_read_code (v.getD 1 0) c h).wr F.chnFly_write_code (v.getD 2 0) c h
    flyUpdate (d.wr F.chnFly_td_code (v.getD 3 0) c h) c

/-- HEAD_TEMPERATURE_POLL (R369, R379, R381): temperatures of an actuator's heads in °C. -/
def headPoll (a : Nat) (temps : List Int) (d : Dev) : Dev :=
  if !d.actPresent a || domState d (domChp a) != 0 then d
  else
    let d := forEach (List.range (d.hdaHeads (a / 2))) d fun d h =>
      let d := d.wrInt F.thmHead_head (temps.getD h 0) 0 (16 * a + h)
      let e := a * 12 + h
      let old := tabGet 0 d.therm.headBand e
      let new := bandOf d (d.rdInt F.thmHead_head 0 (16 * a + h) * 16) 14 old
      let d := d.updTherm fun t => { t with headBand := tabPut 0 t.headBand e new }
      let v := tabGet [] d.therm.calVals (8 * e + new)
      let d := if new = old then d else if v.isEmpty then makeHeadDue d a h else headValues d a h v
      if calDrifted d 0 a h then makeHeadDue d a h else d
    let all := ((List.range 8).filter d.actPresent).flatMap fun a =>
      (List.range (d.hdaHeads (a / 2))).map fun h => d.rdInt F.thmHead_head 0 (16 * a + h)
    let d := d.wrInt F.thmStat_head_max (maxInt all)
    checkThresholds (cardExtreme d 1 (maxInt all))

def execHeadTemperaturePoll (a : ActId) (temps : List Int) (s : State) : Outcome State Fault Refusal :=
  lift s (headPoll a.val temps)

end Sys2Proof.Machine
end

