-- ==== Sys2Proof/Machine/Calib.lean ====
section
/-! DEFINITION. Calibrations: request, start, deferral and end (R244, R247, R248, R380-R383, R419). -/
namespace Sys2Proof.Machine

open Host (Outcome)

/-- The domain whose kind 5 vote a running calibration holds (R356, R381). -/
def calDom (kind inst : Nat) : Nat :=
  match kind with
  | 0 => domChp inst
  | 1 | 2 => domChp (inst / 2)
  | 3 => domHst inst
  | 4 => domLml inst
  | _ => 10

/-- A loop-back of the object is selected: its calibrations wait without limit (R419). -/
def calLooped (d : Dev) (kind inst : Nat) : Bool :=
  (List.range 39).any fun s => d.rd F.loop_depth s != 0 && siteDom s == calDom kind inst

/-- Kind 0 needs the HDA in HS0, or on its way there (R381). -/
def calPlace (d : Dev) (kind inst : Nat) : Bool :=
  kind != 0 || d.rd F.pwrHs_state 0 (inst / 2) == 0 ||
    (d.flag F.pwrHs_in_transition 0 (inst / 2) && d.rd F.pwrHs_target 0 (inst / 2) == 0)

/-- The object carries no work now: no begun media task of its actuator. [DEDUCED: assumption log 156] -/
def calIdle (d : Dev) (kind inst : Nat) : Bool :=
  let busy (a : Nat) : Bool := d.host.tasks.any fun t => t.act == a && t.begun
  match kind with
  | 0 => !busy inst
  | 1 | 2 => !busy (inst / 2)
  | _ => true

/-- CALIBRATION_REQUEST (R381): CAL_CTL.go. -/
def calRequest (kind inst : Nat) (d : Dev) : Dev :=
  makeAllDue ((d.wr F.calCtl_kind kind).wr F.calCtl_inst inst) kind inst

def execCalibrationRequest (kind : Fin 6) (inst : Fin 16) (s : State) : Outcome State Fault Refusal :=
  lift s (calRequest kind.val inst.val)

/-- A due object's run begins: one at a time; `wait` asks for its idle gap. [DEDUCED: assumption log 156] -/
def calStart (kind inst : Nat) (wait : Bool) (d : Dev) : Dev :=
  if d.flag F.calStat_busy || !d.bit F.calDue_due inst 0 kind || calLooped d kind inst || !calPlace d kind inst
      || (wait && !calIdle d kind inst) then d
  else
    let d := (d.setBit F.calDue_due inst false 0 kind).setFlag F.calStat_busy true
    orVote ((d.wr F.calStat_kind kind).wr F.calStat_inst inst) 5 (calDom kind inst)

/-- CALIBRATION_START (R381): in the next idle gap. -/
def execCalibrationStart (kind : Fin 6) (inst : Fin 16) (s : State) : Outcome State Fault Refusal :=
  lift s (calStart kind.val inst.val true)

/-- CALIBRATION_DEFER_EXPIRY (R381): max_defer ms after it became due. -/
def execCalibrationDeferExpiry (kind : Fin 6) (inst : Fin 16) (s : State) : Outcome State Fault Refusal :=
  lift s (calStart kind.val inst.val false)

/-- Drift in 0.1 % of the baseline. [DEDUCED: assumption log 158] -/
def drift (base cur : Nat) : Int := if base = 0 then 0 else ((cur : Int) - base) * 1000 / base

/-- The measures of R247 taken in band 3, and a first warning. [DEDUCED: assumption log 158] -/
def healthMeasure (d : Dev) (a h : Nat) (r : CalRes) : Dev :=
  let e := a * 12 + h
  let d := d.updHealth e fun x => { x with calTime := r.powerOnMs, curLevel := r.level }
  if tabGet 0 d.therm.headBand e ≠ 3 then d
  else
    let x := d.headHealth e
    let base := if x.baseTaken then x.baseLevel else r.level
    let eff := if x.baseTaken then x.baseEff else r.eff
    let ld := drift base r.level
    let ed := if d.hdaAssist (a / 2) = 1 then drift eff r.eff else 0
    let warn := decide (250 ≤ ld ∨ ed ≤ -200 ∨ d.rd F.sqrGeom_assist_max a * 900 ≤ r.level * 1000)
    let d := d.updHealth e fun x => { x with
      baseTaken := true, baseLevel := base, baseEff := eff, levelDrift := ld, effDrift := ed,
      state := if warn && x.state == 0 then 1 else x.state }
    if warn && x.state == 0 then noticeAll d ntHealth else d

/-- An assist fault at calibration sends the head to Detention for writing (R243, R244); on the channel that serves the head it counts and
is cause 7 (R240). -/
def calFault (d : Dev) (a h : Nat) : Dev :=
  let d := forEach ([2 * a, 2 * a + 1].filter fun c => chnHead d c == h) d fun d c =>
    setCause ((d.addWrap F.chnWcnt_count 1 c 3).setFlag F.chnWstat_assist_ok false c) c 7 true
  detainHead (d.updHealth (a * 12 + h) fun x => { x with faults := x.faults + 1 }) a h 4

/-- A head's run ended: its level and codes are in force from the next step and write-gate close, and kept for its band.
[DEDUCED: assumption log 156 and 157] -/
def headCalibrated (d : Dev) (a h : Nat) (r : CalRes) : Dev :=
  if !r.converged || decide (d.rd F.sqrGeom_assist_max a < r.level) then calFault d a h
  else
    let v := [r.level, r.readCode, r.writeCode, r.tdCode]
    let d := healthMeasure d a h r
    headValues (d.updTherm fun t => { t with
      calVals := tabPut [] t.calVals (8 * (a * 12 + h) + tabGet 0 t.headBand (a * 12 + h)) v }) a h v

/-- The setting measured for an object of kinds 1 to 5, kept for its band (R379). [DEDUCED: assumption log 157] -/
def setTrim (d : Dev) (kind inst : Nat) (setting : List Int) : Dev :=
  newSetting (d.updTherm fun t => { t with
    trimVals := tabPut [] t.trimVals ((kind * 16 + inst) * 8 + calBand d kind inst 0) setting }) kind inst setting

/-- CALIBRATION_DONE (R380, R382, R383). [DEDUCED: assumption log 156 and 157 and 191] -/
def calDone (kind inst head : Nat) (r : CalRes) (d : Dev) : Dev :=
  if !calRunning d kind inst then d
  else beginWaiting (
    let d := (d.setFlag F.calStat_busy false).addSat F.calStat_runs 1
    let d := clearVote d 5 (calDom kind inst)
    let d := if r.converged then d.updTherm fun t => { t with
        calAt := tabPut none t.calAt (calKey kind inst head) (some (calTemp d kind inst head)),
        calBands := tabPut 0 t.calBands (calKey kind inst head)
          (tabGet 0 t.calBands (calKey kind inst head) ||| 2 ^ calBand d kind inst head) }
      else d.setFlag F.calStat_fail true
    let redundant := d.bit F.calDue_method inst 0 kind
    let d := if redundant && !r.spareFits then
        (d.setFlag F.calStat_fallback true).setBit F.calDue_method inst false 0 kind
      else d
    if kind ≠ 0 then (if r.converged && (!redundant || r.spareFits) then setTrim d kind inst r.setting else d)
    else
      let d := d.updTherm fun t => { t with headsDue := t.headsDue.filter fun e => e != inst * 12 + head }
      let d := headCalibrated d inst head r
      if d.therm.headsDue.any fun e => e / 12 == inst then makeDue d 0 inst else d)

def execCalibrationDone (kind : Fin 6) (inst : Fin 16) (head : HeadId) (r : CalRes) (s : State) :
    Outcome State Fault Refusal := lift s (calDone kind.val inst.val head.val r)

end Sys2Proof.Machine
end

