-- ==== Sys2Proof/Machine/Operands.lean ====
section
/-! DEFINITION. The operand forms of a control-plane access (R7): its size, its direction, legal sizes and alignments, and the bits of
a register that it covers. -/
namespace Sys2Proof.Machine

/-- Size and alignment of R7 at an offset: 64 bits aligned to 8, or 32 bits aligned to 4. -/
def legalSize (off size : Nat) : Bool := (size == 8 && off % 8 == 0) || (size == 4 && off % 4 == 0)

def accSize : Access → Nat
  | .rd n => n
  | .wr n _ => n

def accIsWrite : Access → Bool
  | .rd _ => false
  | .wr _ _ => true

/-- Bits [lo + w - 1 : lo] of a number replaced. -/
def putBits (v lo w x : Nat) : Nat := v % 2 ^ lo + x % 2 ^ w * 2 ^ lo + v / 2 ^ (lo + w) * 2 ^ (lo + w)

/-- The bits of a field that a mask covers, and the data bits there. -/
def fieldBits (x : Nat) (f : Fld) (m : Nat) : Nat := x / 2 ^ (f.lo + f.step * m) % 2 ^ f.w

/-- A value with the masked bits taken from `v`. -/
def mergeBits (old v mask : Nat) : Nat := (old ^^^ (old &&& mask)) ||| (v &&& mask)

end Sys2Proof.Machine
end

