-- ==== Sys2Proof/Machine/Sequencer.lean ====
section
/-! DEFINITION. The Voxzal sequencer: microwords, conditions, the micro-stack, gate commands and their resolution, the
permit window, counters, scratch access, the customer region, stops and machine checks, and the control-store window
(R183-R201). -/
namespace Sys2Proof.Machine

open Host (Outcome)

/-- A microword's sub-fields (R184). -/
structure Micro where
  nop : Nat
  cond : Nat
  inv : Bool
  tscale : Nat
  timeout : Nat
  target : Nat
  rg : Nat
  wg : Nat
  ag : Nat
  sg : Nat
  sw : Nat
  toA : Bool
  toB : Bool
  edge : Nat
  wedge : Nat
  refMode : Nat
  wrOp : Nat
  sel : Nat
  cop : Nat
  imm : Nat
  profile : Nat
  status : Nat
  permitOpen : Bool
  permitClose : Bool
  scr : Nat
  ackA : Bool
  ackB : Bool
  reserved : Bool
  deriving DecidableEq, Repr

/-- Bits [lo + w - 1 : lo] of a number. -/
def bitsAt (v lo w : Nat) : Nat := v / 2 ^ lo % 2 ^ w

/-- The sub-fields of a microword's 128 data bits (R184); `reserved` says that a reserved bit is set or a reserved
encoding used. -/
def microOf (v : Nat) : Micro :=
  let f3 := bitsAt v 48 16
  { nop := bitsAt v 0 3, cond := bitsAt v 3 6, inv := v.testBit 9, tscale := bitsAt v 10 2,
    timeout := bitsAt v 16 16, target := bitsAt v 32 13,
    rg := bitsAt f3 0 2, wg := bitsAt f3 2 2, ag := bitsAt f3 4 2, sg := bitsAt f3 6 2, sw := bitsAt f3 8 2,
    toA := f3.testBit 10, toB := f3.testBit 11,
    edge := bitsAt v 64 16, wedge := bitsAt v 80 10, refMode := bitsAt v 90 2, wrOp := bitsAt v 92 2,
    sel := bitsAt v 96 2, cop := bitsAt v 98 2, imm := bitsAt v 100 12,
    profile := bitsAt v 112 4, status := bitsAt v 116 4, permitOpen := v.testBit 120, permitClose := v.testBit 121,
    scr := bitsAt v 122 2, ackA := v.testBit 124, ackB := v.testBit 125,
    reserved :=
      bitsAt v 12 4 != 0 || bitsAt v 10 2 == 3 || bitsAt v 45 3 != 0 || bitsAt f3 12 4 != 0
        || (List.range 5).any (fun k => bitsAt f3 (2 * k) 2 == 3)
        || bitsAt v 90 2 == 3 || bitsAt v 94 2 != 0 || bitsAt v 0 3 == 7 || bitsAt v 122 2 == 3 || bitsAt v 126 2 != 0 }

/-- Reserved codes of the condition select (R188). -/
def condReserved (code : Nat) : Bool := decide (40 ≤ code ∧ code < 48) || decide (56 ≤ code)

/-- The word has gate actions (R191). -/
def hasGates (m : Micro) : Bool := m.rg != 0 || m.wg != 0 || m.ag != 0 || m.sg != 0 || m.sw != 0

/-- Channels a word selects. -/
def chosen (m : Micro) (a : Nat) : List Nat := (if m.toA then [2 * a] else []) ++ (if m.toB then [2 * a + 1] else [])

/-- The 128 data bits of word `w` of control store `a` (R198). -/
def storeWord (mem : List Host.Cell) (a w : Nat) : Nat := memRead mem (csBase a + 32 * w) 16

/-- A condition of R188, before inversion. -/
def condTrue (d : Dev) (a code : Nat) : Bool :=
  let c := if code % 2 = 0 then 2 * a + 1 else 2 * a
  let c' := if code % 2 = 0 then 2 * a else 2 * a + 1
  let sector (f : SectorEntry → Bool) : Bool := ((d.chn c').entries.head?).any f
  match code with
  | 0 => true
  | 1 | 2 => (d.chn c).queue.isEmpty
  | 3 | 4 => (d.chn c).servoOk
  | 5 => d.flag F.sqrStat_permit a
  | 6 | 7 => d.flag F.chnWstat_wlock c'
  | 8 | 9 => sector fun e => e.framed || e.resyncEnded
  | 10 | 11 => sector fun e => e.framed
  | 12 | 13 => sector fun e => e.primPos.isSome
  | 14 | 15 => sector fun e => e.dec
  | 16 | 17 => sector fun e => e.ok
  | 18 | 19 => sector fun e => e.poison
  | 20 | 21 => sector fun e => e.erased
  | 22 => d.rd F.sqrCnt_c a 0 == 0
  | 23 => d.rd F.sqrCnt_c a 1 == 0
  | 24 => d.rd F.sqrCnt_c a 2 == 0
  | 25 => d.rd F.sqrCnt_c a 3 == 0
  | 26 | 27 => !(d.chn c').fifo.isEmpty
  | 28 | 29 => d.flag F.chnWstat_unsafe c'
  | 30 | 31 => d.flag F.chnWstat_assist_ok c'
  | 32 | 33 => d.flag F.chnWstat_fly_ok c'
  | 34 => d.flag F.pspStat_flt a
  | 35 => d.bit F.glbPins_shock (a / 2)
  | 36 => (d.seq a).yieldAsk
  | 37 => steady d a
  | 38 | 39 => inLocker d a (d.chn c').track
  | _ => decide (48 ≤ code ∧ code < 56) && d.bit F.sqrFlags_flag (code - 48) a

/-- The selected condition, inverted when inv is 1 (R186). -/
def condHolds (d : Dev) (a : Nat) (m : Micro) : Bool := xor (condTrue d a m.cond) m.inv

/-- The customer region (R197). -/
def inCustomer (w : Nat) : Bool := decide (6144 ≤ w)

/-- Customer mode (R197): the current word or a return address lies in the customer region. -/
def custMode (d : Dev) (a : Nat) : Bool :=
  inCustomer (d.rd F.sqrStat_pc a) || (d.seq a).stack.any inCustomer

/-- A transfer to a word: into the customer region only while cust_en is 1 (R197). -/
def goTo (d : Dev) (a fromWord target : Nat) : SeqNext :=
  if inCustomer target && !inCustomer fromWord && !d.flag F.sqrCtl_cust_en a then .stop 8 0 else .word target

/-- The word after the current one; from word 8,191 there is none (R186). -/
def goOn (d : Dev) (a : Nat) : SeqNext :=
  let pc := d.rd F.sqrStat_pc a
  if pc = 8191 then .stop 3 0 else goTo d a pc (pc + 1)

/-- The next word and the micro-stack after a word (R186, R190). -/
def nextWord (d : Dev) (a : Nat) (m : Micro) : SeqNext × List Nat :=
  let pc := d.rd F.sqrStat_pc a
  let st := (d.seq a).stack
  let c := condHolds d a m
  match m.nop with
  | 0 => (goOn d a, st)
  | 1 => (goTo d a pc m.target, st)
  | 2 =>
    if c then (if st.length = 8 then (.stop 4 0, st) else (goTo d a pc m.target, (pc + 1) :: st)) else (goOn d a, st)
  | 3 =>
    if c then (match st with
      | [] => (.stop 4 0, st)
      | r :: rest => (if r > 8191 then .stop 3 0 else goTo d a pc r, rest)) else (goOn d a, st)
  | 4 => (.wait, st)
  | 5 => (if c then goTo d a pc m.target else goOn d a, st)
  | _ => (.stop 0 m.status, st)

/-- The sequencer takes its next word, or ends its task. -/
def takeNext (d : Dev) (a : Nat) (n : SeqNext) : Dev :=
  match n with
  | .stop cause status => seqStop d a cause status
  | .wait => ((d.updSeq a fun q => { q with wait := .cond 0 }).wr F.sqrStat_state 2 a)
  | .word pc =>
    let d := (d.updSeq a fun q => { q with wait := .none }).wr F.sqrStat_pc pc a
    let d := d.wr F.sqrStat_state 1 a
    d.setFlag F.sqrStat_in_cust (custMode d a) a

/-- Where a word's gate command falls on a channel (R180, R184, R191): wedge, position and the sector it belongs to;
none where the position has no place on the track or an open lies after the last slot. [DEDUCED: assumption log 92] -/
def commandPlace (d : Dev) (a c : Nat) (m : Micro) : Option (Nat × Nat × Nat) :=
  let t := taskTrack d c
  let p := payloadOf d a t
  let spt := sptOf d a t
  let wedges := wedgesOf d a
  match zoneOfTrack d a t with
  | none => none
  | some _ =>
    if m.refMode = 2 then
      let n := if c % 2 = 0 then d.rd F.sqrCnt_c a 1 else d.rd F.sqrCnt_c a 2
      let wp := locate p n m.edge
      let b := n * slotSymbols + m.edge
      let sector := if m.wg = 1 then ceilDiv b slotSymbols else b / slotSymbols
      if wp.1 ≥ wedges then none
      else if (m.wg == 1 || m.sw == 1) && decide (spt ≤ sector) then none
      else some (wp.1, wp.2, sector)
    else
      let w := if m.refMode = 1 then (d.rd F.sqrWr_wr a + m.wedge) % max 1 wedges else m.wedge
      let edge := place (w, m.edge)
      if m.wg = 1 then (slotAtOrAfter p edge 0 spt).map fun n => (w, m.edge, n)
      else if m.sw = 1 && decide (place (locate p spt 0) ≤ edge) then none
      else some (w, m.edge, slotAtOrBefore p edge (spt - 1))

/-- The smallest position at or after `after` that agrees with `p0` modulo a revolution. -/
def nextOcc (rev p0 after : Nat) : Nat := after + (p0 % rev + rev - after % rev) % rev

/-- The moment a command resolves to (R192): with an empty queue the occurrence from a quarter revolution before the issue
to three quarters after it, else the first after the last queued command. [DEDUCED: assumption log 91] -/
def resolveMoment (rev p0 now : Nat) (last : Option Nat) : Nat :=
  match last with
  | none => nextOcc rev p0 (now + rev - rev / 4) - rev
  | some t => nextOcc rev p0 (t + 1)

/-- Room for a word's commands (R188, R191): 16 commands a channel, and fewer than 4 sectors and queued windows where it
opens one. -/
def hasRoom (d : Dev) (a : Nat) (m : Micro) : Bool :=
  !hasGates m || (chosen m a).all fun c =>
    let ch := d.chn c
    decide (ch.queue.length < 16) &&
      (m.sw != 1 || decide (ch.entries.length + (ch.queue.filter fun g => g.sw == 1).length < 4))

/-- A word is illegal (R187, R193, R194, R197); the flag says that it used a vendor-only action or target in customer mode. [DEDUCED: assumption log 93 and 94]
[DEDUCED: assumption log 181] -/
def illegalWord (d : Dev) (a : Nat) (m : Micro) : Bool × Bool :=
  let cust := custMode d a
  let usesTarget := m.nop == 1 || m.nop == 2 || m.nop == 5 || (m.nop == 4 && m.timeout != 0)
  let priv := cust && (m.permitOpen || m.permitClose || m.sg != 0
    || (usesTarget && decide (256 ≤ m.target) && !inCustomer m.target))
  let bad := m.reserved || condReserved m.cond || (m.status != 0 && m.nop != 6) || (m.cop != 0 && m.scr != 0)
    || (m.refMode == 0 && decide (wedgesOf d a ≤ m.wedge))
    || (hasGates m && (chosen m a).any fun c => (commandPlace d a c m).isNone)
  (bad || priv, priv)

/-- The commands of a word with their channels and moments (R191, R192). -/
def wordCommands (d : Dev) (a : Nat) (m : Micro) (env : SeqEnv) (level : Nat) : List (Nat × GateCmd) :=
  if !hasGates m then []
  else (chosen m a).filterMap fun c =>
    match commandPlace d a c m with
    | none => none
    | some (w, pos, sector) =>
      let now := if c % 2 = 0 then env.posA else env.posB
      let rev := wedgesOf d a * pusPerWedge
      some (c,
        { moment := resolveMoment rev (place (w, pos)) now (((d.chn c).queue.getLast?).map (·.moment)),
          wedge := w, pos := pos, rg := m.rg, wg := m.wg, ag := m.ag, sg := m.sg, sw := m.sw,
          level := level, cust := custMode d a, sector := sector })

/-- A command that resolves to less than 1 µs after the issue (R192). [DEDUCED: assumption log 91] -/
def isLate (env : SeqEnv) (cg : Nat × GateCmd) : Bool :=
  if cg.1 % 2 = 0 then decide (cg.2.moment < env.posA + env.leadA) else decide (cg.2.moment < env.posB + env.leadB)

/-- Counter operation and wr_op of a word (R195), from the values before it. -/
def counterOps (d : Dev) (a : Nat) (m : Micro) : Dev :=
  let c := d.rd F.sqrCnt_c a m.sel
  let d := match m.cop with
    | 1 => d.wr F.sqrCnt_c m.imm a m.sel
    | 2 => d.wr F.sqrCnt_c (c - 1) a m.sel
    | 3 => d.wr F.sqrCnt_c (c + m.imm) a m.sel
    | _ => d
  let wedges := max 1 (wedgesOf d a)
  match m.wrOp with
  | 1 => d.wr F.sqrWr_wr m.wedge a
  | 2 => d.wr F.sqrWr_wr ((d.rd F.sqrWr_wr a + 1) % wedges) a
  | 3 => d.wr F.sqrWr_wr (((d.chn (2 * a)).lastWedge + 1) % wedges) a
  | _ => d

/-- permit_open and permit_close (R194): a window already open is extended, channels it covers keep their tracks. -/
def permitOps (d : Dev) (a : Nat) (m : Micro) : Dev :=
  let d := if m.permitOpen then
      let new := (chosen m a).filter fun c => !(d.seq a).permit.any (fun ct => ct.1 == c)
      (d.updSeq a fun q => { q with permit := q.permit ++ new.map fun c => (c, (d.chn c).track) }).setFlag
        F.sqrStat_permit true a
    else d
  if m.permitClose then closePermit d a else d

/-- The scratch group and halfword an address names (R196): the (k + 1)-th lowest-numbered scratch group. -/
def scratchPlace (d : Dev) (addr : Nat) : Option (Nat × Nat) :=
  let gs := (List.range 8).filter fun g => d.bit F.mapGrpStat_is_scratch g && !d.bit F.mapGrpStat_busy g
  (gs[addr / 2 ^ 14]?).map fun g => (g, addr % 2 ^ 14)

/-- A word whose checks passed: its actions, then the next word (R187).  A scratch access makes the word wait.
[DEDUCED: assumption log 94] -/
def runWord (d : Dev) (a : Nat) (m : Micro) (env : SeqEnv) : Dev :=
  let lv := if m.profile = 0 then (d.seq a).level else min (d.rd F.sqrAssist_level a m.profile) (d.rd F.sqrGeom_assist_max a)
  let clamped := m.profile != 0 && decide (d.rd F.sqrGeom_assist_max a < d.rd F.sqrAssist_level a m.profile)
  let cmds := wordCommands d a m env lv
  if cmds.any (isLate env) then seqStop d a 5 0
  else
    let (next, stack) := nextWord d a m
    let scr := scratchPlace d (d.rd F.sqrCnt_c a 3)
    let d := if clamped then d.setFlag F.sqrClamp_assist_clamped true a else d
    let d := forEach cmds d fun d cg => syncChn (d.updChn cg.1 fun ch => { ch with queue := ch.queue ++ [cg.2] }) cg.1
    let d := counterOps d a m
    let d := permitOps d a m
    let d := if m.ackA then ackSector d (2 * a) else d
    let d := if m.ackB then ackSector d (2 * a + 1) else d
    let d := (d.updSeq a fun q => { q with level := lv, stack := stack }).wr F.sqrStat_sp stack.length a
    if m.scr = 0 then takeNext d a next
    else match scr with
      | none => seqStop d a 7 0
      | some (g, h) =>
        (d.updSeq a fun q => { q with wait := .scratch (m.scr == 2) m.sel g h next }).wr F.sqrStat_state 2 a

/-- A fetched word that fails parity (R200): not executed, recorded, a machine check; a word that fails again after its
repair is a hard fault (R346). -/
def machineCheck (d : Dev) (a w fields : Nat) : Dev :=
  let d := d.wr F.sqrMc_addr w a
  let d := d.wr F.sqrMc_fields fields a
  let d := d.setFlag F.sqrMc_valid true a
  let d := d.addSat F.sqrMc_count 1 a
  let again := (d.seq a).repaired.contains w
  let d := d.updSeq a fun q => { q with bad := (w, fields) :: q.bad.filter fun x => x.1 != w }
  let d := d.emit (.event evMachineCheck a)
  let d := if again then hardFaultCandidate d (272 + a) (w / 4) else d
  seqStop d a 2 0

/-- Fields of a word whose store copy fails parity. -/
def badFields (d : Dev) (a w : Nat) : Nat := (((d.seq a).bad.find? fun x => x.1 == w).map (·.2)).getD 0

/-- One word fetched and checked: machine check, illegal word, room, then its execution (R186-R200). [DEDUCED: assumption log 94] -/
def stepWord (d : Dev) (mem : List Host.Cell) (a : Nat) (env : SeqEnv) : Dev :=
  let w := d.rd F.sqrStat_pc a
  let fails := (env.parityFail % 256) ||| badFields d a w
  if fails != 0 then machineCheck d a w fails
  else
    let m := microOf (storeWord mem a w)
    let (illegal, priv) := illegalWord d a m
    if illegal then seqStop (if priv then d.setFlag F.sqrClamp_cust_priv true a else d) a 3 0
    else if !hasRoom d a m then (d.updSeq a fun q => { q with wait := .room }).wr F.sqrStat_state 2 a
    else runWord d a m env

/-- MICROWORD_EXECUTE (R186): a running sequencer executes its word. -/
def execMicrowordExecute (a : ActId) (env : SeqEnv) (s : State) : Outcome State Fault Refusal :=
  lift s fun d =>
    if d.rd F.sqrStat_state a.val = 1 && (d.seq a.val).wait == .none then stepWord d s.mem a.val env else d

/-- WAIT_CONDITION_MET (R189): the waiting word's condition holds. [DEDUCED: assumption log 95] -/
def execWaitConditionMet (a : ActId) (_env : SeqEnv) (s : State) : Outcome State Fault Refusal :=
  lift s fun d =>
    match (d.seq a.val).wait with
    | .cond _ =>
      if condHolds d a.val (microOf (storeWord s.mem a.val (d.rd F.sqrStat_pc a.val))) then takeNext d a.val (goOn d a.val) else d
    | _ => d

/-- The timeout of a WAIT word has been reached (R189): CHN ticks, units of 256 ticks, or servo wedges. [DEDUCED: assumption log 91] -/
def waitExpired (m : Micro) (elapsed refs : Nat) : Bool :=
  m.timeout != 0 &&
    (if m.tscale = 0 then decide (m.timeout ≤ elapsed) else if m.tscale = 1 then decide (256 * m.timeout ≤ elapsed)
     else decide (m.timeout ≤ refs))

/-- WAIT_TIMEOUT (R189): at the timeout execution goes to the target, or on where the condition holds in that clock.
[DEDUCED: assumption log 95] -/
def execWaitTimeout (a : ActId) (env : SeqEnv) (s : State) : Outcome State Fault Refusal :=
  lift s fun d =>
    match (d.seq a.val).wait with
    | .cond refs =>
      let m := microOf (storeWord s.mem a.val (d.rd F.sqrStat_pc a.val))
      if waitExpired m env.elapsed refs then
        takeNext d a.val (if condHolds d a.val m then goOn d a.val else goTo d a.val (d.rd F.sqrStat_pc a.val) m.target)
      else d
    | _ => d

/-- GATE_QUEUE_SPACE (R191): a word that waited for room issues its commands once they fit. -/
def execGateQueueSpace (a : ActId) (env : SeqEnv) (s : State) : Outcome State Fault Refusal :=
  lift s fun d =>
    match (d.seq a.val).wait with
    | .room =>
      let m := microOf (storeWord s.mem a.val (d.rd F.sqrStat_pc a.val))
      if hasRoom d a.val m then
        runWord ((d.updSeq a.val fun q => { q with wait := .none }).wr F.sqrStat_state 1 a.val) a.val m env
      else d
    | _ => d

/-- SCRATCH_ACCESS_DONE (R196): the load or store takes effect and the word goes on; a load that meets poison ends in a
scratch fault (R342). -/
def execScratchAccessDone (a : ActId) (poison : Bool) (s : State) : Outcome State Fault Refusal :=
  liftMem s fun d mem =>
    match (d.seq a.val).wait with
    | .scratch store sel g h next =>
      let at' := scratchBase g + 2 * h
      if store then (takeNext d a.val next, memWrite mem at' (d.rd F.sqrCnt_c a.val sel) 2)
      else if poison then (seqStop d a.val 7 0, mem)
      else (takeNext (d.wr F.sqrCnt_c (memRead mem at' 2) a.val sel) a.val next, mem)
    | _ => (d, mem)

/-- The start of a task (R183): ignored while not idle; the Timetable arms the write PLL with a write task (R232); an entry in the customer region needs cust_en (R197); a channel
without its clock stops it (R30, assumption log 13). [DESIGN CHOICE: assumption log 96] -/
def taskStart (a : Nat) (d : Dev) : Dev :=
  if d.rd F.sqrStat_state a != 0 then d
  else
    let d := forEach [0, 1, 2, 3] d fun d k => d.wr F.sqrCnt_c (d.rd F.sqrTaskParam_p a k) a k
    let d := d.wr F.sqrWr_wr 0 a
    let d := d.updSeq a fun q => { q with stack := [], wait := .none, ended := none, yieldAsk := false }
    let d := d.wr F.sqrStat_sp 0 a
    let d := flyUpdate (flyUpdate d (2 * a)) (2 * a + 1)
    let d := if d.host.tasks.any fun t => t.act == a && t.begun && t.kind.writes then
        forEach ([2 * a, 2 * a + 1].filter fun c => (d.rd F.sqrTask_chan a).testBit (c % 2)) d fun d c => pllArm c true d
      else d
    let entry := d.rd F.sqrTask_entry a
    let lost := [2 * a, 2 * a + 1].any fun c => (d.rd F.sqrTask_chan a).testBit (c % 2) && chnLost d c
    if lost then seqStop (d.wr F.sqrStat_pc entry a) a 10 0
    else if inCustomer entry && !d.flag F.sqrCtl_cust_en a then seqStop (d.wr F.sqrStat_pc entry a) a 8 0
    else takeNext d a (.word entry)

/-- SEQUENCER_TASK_START (R183): SQR_TASK.go. -/
def execSequencerTaskStart (a : ActId) (s : State) : Outcome State Fault Refusal := lift s (taskStart a.val)

/-- SQR_CTL.abort (R199): a running task ends with cause abort. [DESIGN CHOICE: assumption log 96] -/
def abortTask (a : Nat) (d : Dev) : Dev := if d.rd F.sqrStat_state a != 0 then seqStop d a 1 0 else d

/-- SEQUENCER_ABORT (R199). -/
def execSequencerAbort (a : ActId) (s : State) : Outcome State Fault Refusal := lift s (abortTask a.val)

/-- SHA-384 of the customer regions of CS0-CS7 (R402: measurement 5): words 6,144 to 8,191 of each, 16 bytes a word. -/
def customerHash (m : List Host.Cell) : Nat :=
  Config.sha384 ((List.range 8).flatMap fun a => (List.range 2048).flatMap fun k =>
    (List.range 16).map fun b => memByte m (csBase a + 32 * (6144 + k) + b))

/-- SQR_CUST_EN (R197): setting it computes measurement 5 again (R402). [DEDUCED: assumption log 140] -/
def custEnable (a : Nat) (on : Bool) (d : Dev) (m : List Host.Cell) : Dev × List Host.Cell :=
  let d := d.setFlag F.sqrCtl_cust_en on a
  (if on then { d with sec := { d.sec with custHash := some (customerHash m) } } else d, m)

def execSqrCustEn (_rq : Requester) (a : ActId) (on : Bool) (s : State) : Outcome State Fault Refusal :=
  liftMem s (custEnable a.val on)

/-- A word committed to a control store: data, the parity of R185, and the shadow (R198). -/
def commitWord (mem : List Host.Cell) (a w v : Nat) : List Host.Cell :=
  memWrite (memWrite mem (csBase a + 32 * w) v 16) (csBase a + 32 * w + 16) (wordParity v) 1

/-- An access to control-store window CSa (R198), a word lying at bytes 17w of macro 272 + a (an injected single-bit error there
fails the parity of its field): reads return the store; writes latch or commit a customer word while
cust_en and in_cust are 0, and are refused otherwise. -/
def storeAccess (rq : Requester) (a off : Nat) (acc : Access) (d : Dev) (mem : List Host.Cell) : Dev × List Host.Cell :=
  let addr := csBase a + off
  let w := off / 32
  let k := off % 32
  if !legalSize off (accSize acc) then (busError d rq addr (accIsWrite acc) 2, mem)
  else match acc with
    | .rd n => (busOk d rq (memRead mem addr n), mem)
    | .wr n data =>
      if !inCustomer w || d.flag F.sqrCtl_cust_en a || d.flag F.sqrStat_in_cust a then (busError d rq addr true 4, mem)
      else
        let l := (d.seq a).latch
        let v := data.toNat
        let ok := busOk d rq 0
        let commit (x : Nat) : Dev × List Host.Cell :=
          let inj := useInjection ok (272 + a) (17 * w) 17
          let bad : List (Nat × Nat) := match inj.1 with
            | some (p, 0) => [(w, 2 ^ (p % 17 / 2 % 8))]
            | _ => []
          (inj.2.updSeq a fun q => { q with bad := bad ++ q.bad.filter (fun y => y.1 != w),
                                            repaired := q.repaired.filter (fun y => y != w) },
            commitWord mem a w x)
        let latch (x : Nat) : Dev × List Host.Cell := (ok.updSeq a fun q => { q with latch := x }, mem)
        if k = 0 then latch (putBits l 0 (8 * n) v)
        else if k = 4 then latch (putBits l 32 32 v)
        else if k = 8 then
          if n = 8 then commit (l % 2 ^ 64 + v * 2 ^ 64) else latch (putBits l 64 32 v)
        else if k = 12 then commit (l % 2 ^ 96 + v % 2 ^ 32 * 2 ^ 96)
        else (ok, mem)

/-- CONTROL_STORE_WRITE (R198): an access at a byte offset of window CSa. -/
def execControlStoreWrite (rq : Requester) (a : ActId) (offset : Nat) (acc : Access) (s : State) : Outcome State Fault Refusal :=
  liftMem s (storeAccess rq a.val (offset % 0x40000) acc)

/-- SQR_MC.repair (R200): the recorded word is rewritten from the shadow; a poisoned shadow leaves it, a hard fault. -/
def storeRepair (a : Nat) (poison : Bool) (d : Dev) : Dev :=
  let w := d.rd F.sqrMc_addr a
  if poison then hardFaultCandidate d (272 + a) (w / 4)
  else d.updSeq a fun q =>
    { q with bad := q.bad.filter (fun x => x.1 != w),
             repaired := if q.repaired.contains w then q.repaired else w :: q.repaired }

/-- CONTROL_STORE_REPAIR (R200). -/
def execControlStoreRepair (a : ActId) (poison : Bool) (s : State) : Outcome State Fault Refusal :=
  lift s (storeRepair a.val poison)

end Sys2Proof.Machine
end

