-- ==== Sys2Proof/Machine/Ecc.lean ====
section
/-! DEFINITION. Memory errors and their watch entries, injection, remapping and BIST (R337-R348, R420). -/
namespace Sys2Proof.Machine

open Host (Outcome)

/-- ECC_INJECT (R342): kind 3 is ignored. [DESIGN CHOICE: assumption log 31] -/
def eccInject (addr mac kind : Nat) (d : Dev) : Dev :=
  let d := (d.wr F.eccInj_addr addr).wr F.eccInj_mac mac
  if 3 ≤ kind then d else (d.wr F.eccInj_kind kind).setFlag F.eccInj_armed true

def execEccInject (addr mac kind : Nat) (s : State) : Outcome State Fault Refusal := lift s (eccInject addr mac kind)

/-- Spares of a macro in use. -/
def sparesUsed (d : Dev) (mac : Nat) : Nat := (tabGet [] d.ecc.remap mac).length

/-- ECC_REMAP (R347): its fields are written, go is ignored while busy and for a row that does not exist; without a free spare it fails; the copy takes until REMAP_DONE.
[DESIGN CHOICE: assumption log 31] -/
def eccRemap (mac row : Nat) (d : Dev) : Dev :=
  let d := (d.wr F.eccRemapCtl_mac mac).wr F.eccRemapCtl_row row
  if d.flag F.eccRemapCtl_busy || decide (316 ≤ mac) || decide (macRows mac ≤ row) then d
  else
    if 16 ≤ sparesUsed d mac then cardCount (noticeAll (d.setFlag F.eccRemapCtl_fail true) ntRemap) 24 1
    else (d.setFlag F.eccRemapCtl_busy true).updEcc fun e => { e with job := some (mac, row) }

def execEccRemap (mac row : Nat) (s : State) : Outcome State Fault Refusal := lift s (eccRemap mac row)

/-- The 8-byte record of a remap in NOR (R348). -/
def remapRecord (mac row spare : Nat) : List Byte :=
  let b := toBytes mac 2 ++ toBytes row 2 ++ toBytes spare 1 ++ toBytes 0 1
  b ++ toBytes (crc16 b) 2

/-- A pair entered in a macro's remap table; ECC_REMAP_STAT follows. -/
def enterRemap (d : Dev) (mac row spare : Nat) : Dev :=
  let d := d.updEcc fun e => { e with remap := tabPut [] e.remap mac (tabGet [] e.remap mac ++ [(row, spare)]) }
  let d := d.wr F.eccRemapStat_in_use ((d.ecc.remap.map fun m => m.2.length).sum)
  let d := d.wr F.eccRemapStat_full ((d.ecc.remap.filter fun m => decide (16 ≤ m.2.length)).length)
  d.wr F.eccRemapStat_last_macro mac

/-- The remap that runs ends (R347, R348). -/
def remapDone (d : Dev) : Dev :=
  match d.ecc.job with
  | none => d
  | some (mac, row) =>
    let spare := sparesUsed d mac
    let d := enterRemap d mac row spare
    (d.updEcc fun e => { e with job := none, norRemap := e.norRemap ++ [remapRecord mac row spare] }).setFlag F.eccRemapCtl_busy false

/-- The remap area applied at cold start (R348): records with a bad CRC are skipped. -/
def applyRemaps (d : Dev) : Dev :=
  forEach d.ecc.norRemap d fun d r =>
    if r.length = 8 && leBytes r 6 2 == crc16 (r.take 6) then enterRemap d (leBytes r 0 2) (leBytes r 2 2) (leBytes r 4 1) else d

/-- Loop-backs and BIST: BLANK or TEST, or D2 in force (R419, R420). -/
def loopAuthority (d : Dev) : Bool := decide (d.rd F.secLc_state < 2) || d.rd F.secDbg_level == 2

/-- MBIST_START (R420): accepted only with the authority of loop-backs; go is ignored while busy. [DESIGN CHOICE: assumption log 31] -/
def mbistStart (mac : Nat) (d : Dev) : Dev :=
  if !loopAuthority d then d
  else
    let d := d.wr F.eccMbist_mac mac
    if d.flag F.eccMbist_busy then d
    else (d.setFlag F.eccMbist_busy true).updEcc fun e => { e with bist := some (mac % 1024) }

def execMbistStart (_rq : Requester) (mac : Nat) (s : State) : Outcome State Fault Refusal := lift s (mbistStart mac)

/-- A tested macro wiped: markers, injections and failed parity in it are gone. [DEDUCED: assumption log 33] -/
def wipeMac (d : Dev) (mac : Nat) : Dev :=
  let d := d.updEcc fun e => { e with
    marks := e.marks.filter (fun m => m.1 / 2 ^ 36 != mac), planted := e.planted.filter (fun p => p.1 != mac) }
  if 272 ≤ mac ∧ mac < 280 then d.updSeq (mac - 272) fun q => { q with bad := [], repaired := [] } else d

/-- The window of a macro, zeroed with valid check bits. [DEDUCED: assumption log 33] -/
def wipeWindow (m : List Host.Cell) (mac : Nat) : List Host.Cell :=
  if 256 ≤ mac ∧ mac < 264 then memZero m (scratchBase (mac - 256)) 0x8000
  else if 272 ≤ mac ∧ mac < 280 then (List.range 8192).foldl (fun m w => commitWord m (mac - 272) w 0) m
  else if 280 ≤ mac ∧ mac < 288 then memZero m (traceBase (mac - 280)) 0x80000
  else m

/-- MBIST_DONE (R420): failing rows are hard-fault candidates; the macro, or every macro for 0x3FF, is wiped. -/
def mbistDone (failRows : List (Nat × Nat)) (d : Dev) (m : List Host.Cell) : Dev × List Host.Cell :=
  match d.ecc.bist with
  | none => (d, m)
  | some mac =>
    let d := (d.setFlag F.eccMbist_busy false).updEcc fun e => { e with bist := none }
    let d := forEach failRows d fun d r =>
      hardFaultCandidate (((d.setFlag F.eccMbist_fail true).wr F.eccMbist_fail_macro r.1).wr F.eccMbist_fail_row r.2) r.1 r.2
    let macs := if mac = 0x3FF then List.range 316 else [mac]
    (forEach macs d wipeMac, macs.foldl wipeWindow m)

def execMbistDone (failRows : List (Nat × Nat)) (s : State) : Outcome State Fault Refusal := liftMem s (mbistDone failRows)

end Sys2Proof.Machine
end

