-- ==== Sys2Proof/Machine/Image.lean ====
section
/-! DEFINITION. Images: the Miovar bit-stream and its verification step by step, the firmware image, and the recovery structure
(R36-R62, R202, R386, R439). -/
namespace Sys2Proof.Machine

/-- silicon_rev of the die (R37). -/
def dieRev : Nat := 0x00B0

/-- The bytes from `off`, `n` of them, are zero. -/
def zeroBytes (b : List Byte) (off n : Nat) : Bool := ((b.drop off).take n).all fun x => x == 0#8

/-- The bytes at `off`, `n` of them. -/
def sliceBytes (b : List Byte) (off n : Nat) : List Byte := (b.drop off).take n

/-- A key block is accepted for a slot (R59 step 2, R38): its hash is the programmed slot's, or the ROM key's. -/
def keyAccepted (d : Dev) (slot : Nat) (key : List Byte) : Bool :=
  let h := Config.sha384 key
  let otp (i : Nat) : Nat := tabGet 0 d.sec.otp.keyHash i
  (otp slot != 0 && otp slot == h) ||
    (decide (slot < 2) && decide (d.rd F.secLc_state < 2) && otp 0 == 0 && otp 1 == 0 && h == Config.romKeyHash)

/-! ### Header (R37) -/
def imgFlags (b : List Byte) : Nat := leBytes b 0x06 2
def imgLen (b : List Byte) : Nat := leBytes b 0x08 4
def imgSections (b : List Byte) : Nat := leBytes b 0x0C 2
def imgSigner (b : List Byte) : Nat := leBytes b 0x0E 1
def imgBuild (b : List Byte) : Nat := leBytes b 0x10 8
def imgArb (b : List Byte) : Nat := leBytes b 0x18 4
def imgRev (b : List Byte) : Nat := leBytes b 0x1C 2
def imgPayload (b : List Byte) : Nat := leBytes b 0x2C 4

/-- Step 1 of R59, with the magic, the greatest length and the section rule of the image's kind. [DEDUCED: assumption log 37] -/
def headerOk (b magic : List Byte) (most : Nat) (firmware : Bool) : Bool :=
  decide (344 ≤ b.length) && sliceBytes b 0 4 == magic && leBytes b 4 2 == 1 && decide (imgFlags b ≤ 1) && zeroBytes b 0x0F 1 &&
  zeroBytes b 0x1E 2 && zeroBytes b 0x30 80 && zeroBytes b (0x80 + 97) 7 && decide (imgSigner b ≤ 3) && decide (imgArb b ≤ 63) &&
  (imgFlags b == 1 || (zeroBytes b 0x20 12 && zeroBytes b (0xE8 + imgPayload b) 16)) &&
  imgLen b == b.length && imgLen b == imgPayload b + 344 && imgPayload b % 8 == 0 && decide (b.length ≤ most) &&
  (if firmware then imgFlags b == 0 && imgSections b == 0
   else decide (1 ≤ imgSections b ∧ imgSections b ≤ 255 ∧ imgSections b * 16 ≤ imgPayload b))

def miovMagic : List Byte := [0x4D, 0x49, 0x4F, 0x56]
def evfwMagic : List Byte := [0x45, 0x56, 0x46, 0x57]

/-- Steps 2 and 3 of R59: the signer's key and the signature. -/
def signerOk (d : Dev) (b : List Byte) : Bool := keyAccepted d (imgSigner b) (sliceBytes b 0x80 97)
def signatureOk (b : List Byte) : Bool :=
  Config.ecdsaVerify (sliceBytes b 0x80 97) (b.take (b.length - 96)) (b.drop (b.length - 96))

/-- The BEK (R37, R384): bek1 once it is programmed, bek0 before that. -/
def bekOf (d : Dev) : Nat := if d.sec.otp.bek1 ≠ 0 then d.sec.otp.bek1 else d.sec.otp.bek0

/-- Step 5 of R59: the payload in the clear. -/
def openPayload (d : Dev) (b : List Byte) : Option (List Byte) :=
  let p := sliceBytes b 0xE8 (imgPayload b)
  if imgFlags b = 0 then (if d.rd F.secLc_state < 2 then some p else none)
  else if bekOf d = 0 then none
  else Config.gcmOpen (bekOf d) (sliceBytes b 0x20 12) (b.take 128) p (sliceBytes b (0xE8 + imgPayload b) 16)

/-! ### Section table (R40, R41) -/

/-- An entry of the table: type, instance, offset and length. -/
def tableEntry (p : List Byte) (i : Nat) : Nat × Nat × Nat × Nat :=
  (leBytes p (16 * i) 1, leBytes p (16 * i + 1) 1, leBytes p (16 * i + 4) 4, leBytes p (16 * i + 8) 4)

def tableOf (p : List Byte) (n : Nat) : List (Nat × Nat × Nat × Nat) := (List.range n).map (tableEntry p)

/-- Instances a type may have. -/
def instanceOk (ty inst : Nat) : Bool :=
  match ty with
  | 3 | 5 => decide (inst ≤ 3)
  | 4 | 14 => decide (inst ≤ 7)
  | 10 => decide (inst % 128 ≤ 7)
  | _ => inst == 0

/-- Consecutive entries rise by type, then by instance. -/
def tableRises : List (Nat × Nat × Nat × Nat) → Bool
  | [] => true
  | [_] => true
  | a :: b :: t => decide (a.1 * 256 + a.2.1 < b.1 * 256 + b.2.1) && tableRises (b :: t)

/-- A byte of the payload lies in the table or in a section, or is zero. -/
def gapsZero (p : List Byte) (t : List (Nat × Nat × Nat × Nat)) : Bool :=
  p.zipIdx.all fun x => x.1 == 0#8 || decide (x.2 < 16 * t.length) ||
    t.any fun e => decide (e.2.2.1 ≤ x.2 ∧ x.2 < e.2.2.1 + e.2.2.2)

/-- Step 6 (R40, R41); a section over the table itself is refused (assumption log 185).  That some HDA is present is step 8's (R60). -/
def tableOk (p : List Byte) (n : Nat) : Bool :=
  let t := tableOf p n
  let idx := t.zipIdx
  (List.range n).all (fun i => zeroBytes p (16 * i + 2) 2 && zeroBytes p (16 * i + 12) 4) && tableRises t &&
  t.all (fun e => decide (1 ≤ e.1 ∧ e.1 ≤ 15) && instanceOk e.1 e.2.1 && e.2.2.1 % 8 == 0 &&
    decide (16 * n ≤ e.2.2.1 ∧ e.2.2.1 + e.2.2.2 ≤ p.length)) &&
  idx.all (fun a => idx.all fun b => a.2 == b.2 || decide (a.1.2.2.1 + a.1.2.2.2 ≤ b.1.2.2.1 ∨ b.1.2.2.1 + b.1.2.2.2 ≤ a.1.2.2.1)) &&
  [1, 2, 7, 8, 9, 11, 13, 15].all (fun ty => t.any fun e => e.1 == ty) && gapsZero p t

/-- The sections of a payload. -/
def sectionsOf (p : List Byte) (n : Nat) : List Section :=
  (tableOf p n).map fun e => { ty := e.1, inst := e.2.1, data := sliceBytes p e.2.2.1 e.2.2.2 }

/-! ### Fields of each section (step 7, R44-R58, R202) -/
def identOk (b hdr : List Byte) : Bool :=
  b.length == 32 && leBytes b 0 8 == imgBuild hdr && leBytes b 8 4 == imgArb hdr && leBytes b 12 2 == imgRev hdr

/-- PORTS (R45): the ns_mode of an unused port is ignored. [DEDUCED: assumption log 35] -/
def portsOk (b : List Byte) : Bool :=
  let node := leBytes b 0x30 4
  b.length == 64 &&
  [0, 8].all (fun o => decide (leBytes b o 1 ≤ 1) && [4, 5, 6].contains (leBytes b (o + 1) 1) &&
    [1, 2, 4, 8].contains (leBytes b (o + 2) 1) && (leBytes b o 1 == 0 || decide (leBytes b (o + 3) 1 ≤ 1))) &&
  [0x10, 0x18, 0x20, 0x28].all (fun o => decide (leBytes b o 1 ≤ 1) && [1, 2, 4, 8].contains (leBytes b (o + 1) 1) &&
    decide (leBytes b (o + 2) 1 ≤ 2) && decide (leBytes b (o + 3) 1 ≤ 1)) &&
  (node == 0xFFFFFFFF || decide (node < 2 ^ 24)) && decide (leBytes b 0x34 1 ≤ 1)

/-- [DEDUCED: assumption log 35] -/
def hdaOk (b : List Byte) : Bool :=
  b.length == 16 &&
  if leBytes b 0 1 = 0 then zeroBytes b 1 15
  else
    leBytes b 0 1 == 1 && [1, 2].contains (leBytes b 1 1) && [1, 2].contains (leBytes b 2 1) &&
    decide (1 ≤ leBytes b 3 1 ∧ leBytes b 3 1 ≤ 12) && decide (leBytes b 4 1 ≤ 1) && decide (leBytes b 5 1 ≤ 15) &&
    decide (1 ≤ leBytes b 6 2) && decide (1 ≤ leBytes b 8 2) && decide (1 ≤ leBytes b 10 2 ∧ leBytes b 10 2 ≤ 64000)

/-- SEAT: the head indices are checked against the HDA of the actuator; a pair of one head with itself is refused.
[DEDUCED: assumption log 186] -/
def seatOk (b : List Byte) (heads : Nat) : Bool :=
  let k := leBytes b 0 1
  let hs := (List.range k).flatMap fun i => [leBytes b (4 + 8 * i) 1, leBytes b (5 + 8 * i) 1]
  decide (k ≤ 6) && b.length == 4 + 8 * k && hs.all (fun h => decide (h < heads)) && hs.eraseDups.length == hs.length &&
  (List.range k).all fun i => let a := leBytes b (8 + 8 * i) 2
    decide (1 ≤ a ∧ a ≤ 1600)

/-- Symbols of payload per wedge for so many sectors per track (R178). -/
def sptOk (wedges spt : Nat) : Bool := rateInRange (payloadSymbols spt wedges) wedges

def formatOk (b : List Byte) : Bool :=
  let m := leBytes b 0x10 2
  let w := leBytes b 0 2
  let lo := leBytes b 8 4
  let hi := lo + leBytes b 12 4
  let zone (i : Nat) : Nat × Nat × Nat × Nat :=
    (leBytes b (0x20 + 16 * i) 4, leBytes b (0x24 + 16 * i) 4, leBytes b (0x28 + 16 * i) 2, leBytes b (0x2A + 16 * i) 1)
  let zs := (List.range m).map zone
  let locker : List (Nat × Nat) := zs.map fun z => if z.2.2.2 = 1 then (min hi (z.2.1 + 1) - max lo z.1, z.2.2.1) else (0, z.2.2.1)
  decide (1 ≤ m ∧ m ≤ 64) && b.length == 32 + 16 * m && decide (256 ≤ w ∧ w ≤ 1024) && leBytes b 2 2 == 4096 &&
  leBytes b 4 1 == 0 && decide (leBytes b 5 1 ≤ 4) && [64, 128, 256, 512, 1024].contains (leBytes b 6 2) &&
  zs.all (fun z => decide (z.1 ≤ z.2.1) && decide (z.2.2.2 ≤ 1) && sptOk w z.2.2.1) &&
  (zs.zip (zs.drop 1)).all (fun p => decide (p.1.2.1 < p.2.1)) &&
  (locker.map (·.1)).sum == hi - lo && decide ((2 ^ 30 : Nat) ≤ (locker.map fun l => l.1 * l.2 * 4096).sum)

/-- Shingled capacity over all surfaces (R48), as tracks × sectors × 4,096 bytes, against capacity_gb of the slot's HDA.
[DEDUCED: assumption log 187] -/
def capacityOk (b hda : List Byte) : Bool :=
  let m := leBytes b 0x10 2
  let per := ((List.range m).map fun i =>
    if leBytes b (0x2A + 16 * i) 1 = 0 then
      (leBytes b (0x24 + 16 * i) 4 + 1 - leBytes b (0x20 + 16 * i) 4) * leBytes b (0x28 + 16 * i) 2 * 4096
    else 0).sum
  decide (leBytes hda 10 2 * 10 ^ 9 ≤ per * leBytes hda 2 1 * leBytes hda 3 1)

/-- PIPE (R50): every field of a record is in its range, one that the record's stages do not use too (R59 step 7).
[DEDUCED: assumption log 35] -/
def pipeOk (b : List Byte) : Bool :=
  let k := leBytes b 0 1
  let recs := (List.range k).map fun i =>
    (leBytes b (8 + 8 * i) 1, leBytes b (9 + 8 * i) 1, leBytes b (10 + 8 * i) 1, leBytes b (11 + 8 * i) 1)
  let cls := recs.map (·.1)
  decide (k ≤ 8) && b.length == 8 + 8 * k && cls.contains 0 && cls.eraseDups.length == k &&
  recs.all fun r => decide (r.1 ≤ 7) && decide (r.2.1 < 16) && decide (r.2.2.2 ≤ 4) &&
    decide (1 ≤ r.2.2.1 ∧ r.2.2.1 ≤ 12) && (!r.2.1.testBit 2 || r.2.1.testBit 0)

def xbarOk (b : List Byte) : Bool :=
  b.length == 88 && (List.range 10).all (fun k => decide (leBytes b (0x48 + k) 1 ≤ 6)) && zeroBytes b 0x52 6

def ctxOk (b : List Byte) : Bool :=
  b.length == 16 && leBytes b 0 4 + leBytes b 4 4 + leBytes b 8 4 + leBytes b 12 4 == 131072 && decide (4096 ≤ leBytes b 12 4)

def dramSizes (b : List Byte) : List Nat := (List.range 8).map fun i => leBytes b (8 + 4 * i) 4
def dramOk (b : List Byte) : Bool :=
  let s := dramSizes b
  b.length == 40 && [8, 16, 32, 64].contains (leBytes b 0 1) && decide (leBytes b 2 2 ≤ 8533) &&
  s.getD 2 0 % 256 == 0 && decide (s.getD 2 0 ≤ 16384) && s.getD 4 0 == 4 && s.getD 5 0 == 64 && s.getD 7 0 == 256 &&
  decide (s.sum ≤ leBytes b 0 1 * 1024 * 8 / 9)

def thermalOk (b : List Byte) : Bool :=
  let e := (List.range 7).map fun i => ofTwos 8 (leBytes b i 1)
  b.length == 16 && (e.zip (e.drop 1)).all (fun p => decide (p.1 < p.2)) && decide (1 ≤ leBytes b 7 1 ∧ leBytes b 7 1 ≤ 8) &&
  decide (5 ≤ leBytes b 8 1 ∧ leBytes b 8 1 ≤ 15) && decide (20 ≤ leBytes b 9 1 ∧ leBytes b 9 1 ≤ 60) &&
  decide (90 ≤ leBytes b 10 1 ∧ leBytes b 10 1 ≤ 110)

def calRecords (b : List Byte) : List (Nat × Nat × Nat × Nat) := (List.range (leBytes b 0 2)).map fun i =>
  (leBytes b (8 + 8 * i) 1, leBytes b (9 + 8 * i) 1, leBytes b (10 + 8 * i) 1, leBytes b (12 + 8 * i) 4)
def calOk (b : List Byte) : Bool :=
  b.length == 8 + 8 * leBytes b 0 2 && (calRecords b).all fun r => decide (r.1 ≤ 5) && decide (r.2.1 ≤ 1) && decide (r.2.2.1 ≤ 8)

def powerOk (b : List Byte) : Bool :=
  b.length == 40 && leBytes b 0 1 / 32 == 0 && leBytes b 0 1 % 2 == 0 && leBytes b 1 1 / 8 == 0 && leBytes b 1 1 % 2 == 0 &&
  decide (20 ≤ leBytes b 4 4) && decide (350000 ≤ leBytes b 8 4) && decide (4000000 ≤ leBytes b 12 4) &&
  decide (15000000 ≤ leBytes b 16 4) && decide (leBytes b 0x14 1 ≤ 45) && decide (leBytes b 0x15 1 ≤ 32) &&
  decide (leBytes b 0x15 1 < leBytes b 0x14 1) && decide (20 ≤ leBytes b 0x17 1) && decide (leBytes b 0x18 4 ≤ 8192) &&
  decide (20 ≤ leBytes b 0x1C 2)

def curveOk (b : List Byte) : Bool :=
  let k := leBytes b 0 1
  let pts := (List.range k).map fun i => (leBytes b (8 + 8 * i) 4, leBytes b (12 + 8 * i) 2)
  decide (2 ≤ k ∧ k ≤ 16) && b.length == 8 + 8 * k && pts.all (fun p => decide (3600 ≤ p.2 ∧ p.2 ≤ 7200)) &&
  (pts.zip (pts.drop 1)).all fun p => decide (p.1.1 < p.2.1 ∧ p.1.2 ≤ p.2.2)

/-- A 2-bit OTP ceiling (R384): 0b00 D2, 0b01 D1, otherwise D0. -/
def ceilOf (bits : Nat) : Nat := if bits % 4 = 0 then 2 else if bits % 4 = 1 then 1 else 0

/-- [DEDUCED: assumption log 36] -/
def debugOk (d : Dev) (b : List Byte) : Bool :=
  b.length == 8 && (List.range 4).all fun i => decide (leBytes b i 1 ≤ 2 ∧ leBytes b i 1 ≤ ceilOf (d.sec.otp.ceilEv / 4 ^ i))

def cstoreOk (b : List Byte) (inst : Nat) : Bool :=
  let first := leBytes b 0 2
  let n := leBytes b 2 2
  if inst < 128 then b.length == 8 + 16 * n + 96 && decide (first + n ≤ 6144)
  else b.length == 8 + 16 * n && decide (6144 ≤ first ∧ first + n ≤ 8192)

def findSec (ss : List Section) (ty inst : Nat) : List Byte :=
  ((ss.find? fun x => x.ty == ty && x.inst == inst).map (·.data)).getD []
def hasSec (ss : List Section) (ty inst : Nat) : Bool := ss.any fun x => x.ty == ty && x.inst == inst

/-- The DEBUG ceilings rest on the OTP, not on the section alone: step 8 checks them (R60). [DEDUCED: assumption log 35 and 36] -/
def sectionOk (ss : List Section) (hdr : List Byte) (s : Section) : Bool :=
  match s.ty with
  | 1 => identOk s.data hdr
  | 2 => portsOk s.data
  | 3 => hdaOk s.data
  | 4 => seatOk s.data (leBytes (findSec ss 3 (s.inst / 2)) 3 1)
  | 5 => formatOk s.data && capacityOk s.data (findSec ss 3 s.inst)
  | 6 => pipeOk s.data
  | 7 => xbarOk s.data
  | 8 => ctxOk s.data
  | 9 => dramOk s.data
  | 10 => cstoreOk s.data s.inst
  | 11 => thermalOk s.data
  | 12 => calOk s.data
  | 13 => powerOk s.data
  | 14 => curveOk s.data
  | _ => s.data.length == 8 && (List.range 4).all fun i => decide (leBytes s.data i 1 ≤ 2)

/-! ### Cross-section rules (step 8, R60) -/
/-- [DEDUCED: assumption log 36] -/
def crossOk (d : Dev) (ss : List Section) : Bool :=
  let ports := findSec ss 2 0
  let hostOn := [0, 1].filter fun h => leBytes ports (8 * h) 1 == 1
  let lmlOn := (List.range 4).filter fun p => leBytes ports (0x10 + 8 * p) 1 == 1
  let hdas := (List.range 4).filter fun n => leBytes (findSec ss 3 n) 0 1 == 1
  let act (a : Nat) : Bool := hdas.contains (a / 2) && decide (a % 2 < leBytes (findSec ss 3 (a / 2)) 2 1)
  let twin (a : Nat) : Bool := leBytes (findSec ss 3 (a / 2)) 4 1 == 1
  let ctx := findSec ss 8 0
  let power := findSec ss 13 0
  let dram := dramSizes (findSec ss 9 0)
  let m := max 1 (leBytes power 0x16 1 / 12)
  let compress := (List.range (leBytes (findSec ss 6 0) 0 1)).any fun i => (leBytes (findSec ss 6 0) (9 + 8 * i) 1).testBit 0
  let present (kind i : Nat) : Bool := match kind with
    | 0 => decide (i < 8) && act i
    | 1 | 2 => decide (i < 16) && act (i / 2)
    | 3 => hostOn.contains i
    | 4 => lmlOn.contains i
    | _ => i == 0
  !hostOn.isEmpty && (hostOn.map fun h => leBytes ports (8 * h + 3) 1).eraseDups.length == 1 &&
  [0, 1].all (fun h => if hostOn.contains h then decide (1024 ≤ leBytes ctx (4 * h) 4) else leBytes ctx (4 * h) 4 == 0) &&
  (!lmlOn.isEmpty || leBytes ctx 8 4 == 0) && !hdas.isEmpty &&
  (List.range 4).all (fun n => hasSec ss 5 n == hdas.contains n) &&
  (List.range 8).all (fun a => hasSec ss 4 a == (act a && twin a) && hasSec ss 10 a == act a && (!hasSec ss 10 (128 + a) || act a)) &&
  decide ((hdas.length + m - 1) / m * 15000000 ≤ leBytes power 16 4) &&
  (calRecords (findSec ss 12 0)).all (fun r => (List.range 32).all (fun i => !r.2.2.2.testBit i || present r.1 i) &&
    !(r.2.1 == 1 && (r.1 == 0 || r.1 == 5))) &&
  decide (leBytes power 0x18 4 ≤ dram.getD 0 0) && dram.getD 3 0 == (if compress then 132 else 0) &&
  (if lmlOn.isEmpty then dram.getD 6 0 == 0 else decide (64 * lmlOn.length ≤ dram.getD 6 0)) && debugOk d (findSec ss 15 0)

/-- Step 9: each vendor CSTORE signature against slots 0 and 1, or the ROM key (R38, R49).  The signer's key is the one
whose hash the slot holds; it is not in the section, so that the verification names the slot. -/
def vendorOk (d : Dev) (s : Section) : Bool :=
  let n := s.data.length - 96
  let rom := decide (d.rd F.secLc_state < 2) && tabGet 0 d.sec.otp.keyHash 0 == 0 && tabGet 0 d.sec.otp.keyHash 1 == 0
  ([0, 1].any fun i => let h := tabGet 0 d.sec.otp.keyHash i
    h != 0 && Config.hashVerify h (s.data.take n) (s.data.drop n)) ||
  (rom && Config.hashVerify Config.romKeyHash (s.data.take n) (s.data.drop n))

/-- Verification of a bit-stream (R59): 0, or the step at which it fails; with the sections it holds. -/
def verifyImage (d : Dev) (b : List Byte) : Nat × List Section :=
  if !headerOk b miovMagic (4 * 2 ^ 20) false then (1, [])
  else if !signerOk d b then (2, [])
  else if !signatureOk b then (3, [])
  else if imgRev b ≠ dieRev ∨ imgArb b < d.sec.otp.arbBs then (4, [])
  else
    match openPayload d b with
    | none => (5, [])
    | some p =>
      if !tableOk p (imgSections b) then (6, [])
      else
        let ss := sectionsOf p (imgSections b)
        if !ss.all (sectionOk ss b) then (7, [])
        else if !crossOk d ss then (8, [])
        else if !(ss.filter fun s => s.ty == 10 && decide (s.inst < 128)).all (vendorOk d) then (9, [])
        else (0, ss)

/-- Verification of a firmware image (R386). -/
def firmwareOk (d : Dev) (b : List Byte) : Bool :=
  headerOk b evfwMagic (32 * 2 ^ 20) true && decide (imgSigner b ≤ 1) && signerOk d b && signatureOk b &&
  imgRev b == dieRev && decide (d.sec.otp.arbFw ≤ imgArb b)

/-! ### The recovery structure (R62) -/
def zeros (n : Nat) : List Byte := List.replicate n 0#8

/-- Its sections; `gib` is the DRAM size the mode registers report. -/
def recoverySections (gib : Nat) : List Section :=
  let usable := gib * 1024 * 8 / 9
  [{ ty := 1, inst := 0, data := zeros 12 ++ toBytes dieRev 2 ++ zeros 18 },
   { ty := 2, inst := 0, data := [1, 6, 8, 0] ++ zeros 44 ++ toBytes 0xFFFFFFFF 4 ++ zeros 12 },
   { ty := 7, inst := 0, data := toBytes 64 8 ++ ((List.range 8).flatMap fun _ => List.replicate 7 16#8 ++ [0#8]) ++ zeros 16 },
   { ty := 8, inst := 0, data := toBytes 126976 4 ++ zeros 8 ++ toBytes 4096 4 },
   { ty := 9, inst := 0, data := toBytes gib 2 ++ toBytes 6400 2 ++ zeros 4 ++
      [0, usable - 324, 0, 0, 4, 64, 0, 256].flatMap fun s => toBytes s 4 },
   { ty := 11, inst := 0, data := [10, 25, 40, 55, 70, 85, 100, 4, 15, 60, 110] ++ zeros 5 },
   { ty := 13, inst := 0, data := zeros 4 ++ toBytes 20 4 ++ toBytes 350000 4 ++ toBytes 4000000 4 ++ toBytes 15000000 4 ++
      [45, 32, 12, 20] ++ zeros 4 ++ toBytes 20 2 ++ zeros 10 },
   { ty := 15, inst := 0, data := [2, 2, 2, 2] ++ zeros 4 }]

end Sys2Proof.Machine
end

