-- ==== Sys2Proof/Machine/SecOps.lean ====
section
/-! DEFINITION. Life cycle and debug level: decoding, ceilings, the level in force and the BAR2 set (R388, R395-R400). -/
namespace Sys2Proof.Machine

def Dev.updSec (d : Dev) (g : SecState → SecState) : Dev := { d with sec := g d.sec }
def Dev.updOtp (d : Dev) (g : Otp → Otp) : Dev := d.updSec fun s => { s with otp := g s.otp }

/-- The life-cycle state of a count of burned bits (R388): 0 BLANK to 5 DECOMMISSIONED. -/
def lcStateOf (c : Nat) : Nat :=
  if c ≤ 2 then c else if c < 20 then (if c % 2 = 1 then 3 else 4) else 5

/-- RMA entries that remain: even counts above c up to 18. -/
def rmaLeft (c : Nat) : Nat := ((List.range 19).filter fun e => decide (4 ≤ e ∧ c < e) && e % 2 == 0).length

/-- The effective ceiling of a state (R396): Evestien and owner ceilings and the DEBUG byte. -/
def effCeiling (d : Dev) (state : Nat) : Nat :=
  let ev := ceilOf (d.sec.otp.ceilEv / 4 ^ (state - 1))
  let own := if state = 3 then ceilOf d.sec.otp.ceilOwn else if state = 4 then ceilOf (d.sec.otp.ceilOwn / 4) else 2
  if state = 0 then 2 else if 5 ≤ state then 0 else min (min ev own) (d.secField 15 0 (state - 1) 1)

/-- The slip record as far as it is in force: not after a security fault (R398), nor before a D2 grant in MISSION is done (R397).
[DEDUCED: assumption log 162] -/
def Dev.grant (d : Dev) : Option SlipRec := if d.sec.fault || d.sec.d2.isSome then none else d.sec.slip

/-- The level in force (R396). [DEDUCED: assumption log 167] -/
def levelOf (d : Dev) (state : Nat) : Nat :=
  match state with
  | 0 => 2
  | 1 => effCeiling d 1
  | 2 | 3 | 4 => match d.grant with
    | some r => min r.level (effCeiling d state)
    | none => 0
  | _ => 0

/-- SEC_LC and SEC_DBG, the JTAG level and BAR2 set of DBG_STAT (R388, R396, R399). [DEDUCED: assumption log 167 and 168] -/
def syncLevel (d : Dev) : Dev :=
  let c := d.sec.otp.lcCount
  let st := lcStateOf c
  let d := (d.wr F.secLc_count c).wr F.secLc_state st
  let d := (d.wr F.secLc_rma_left (rmaLeft c)).wr F.secLc_ceiling (effCeiling d st)
  let d := (d.setFlag F.secLc_bek1 (d.sec.otp.bek1 != 0)).setFlag F.secLc_pending d.sec.work.isSome
  let level := levelOf d st
  let flags := match d.grant with
    | some r => if 2 ≤ st ∧ st ≤ 4 then r.flags else 0
    | none => 0
  let d := (d.wr F.secDbg_level level).wr F.secDbg_flags flags
  let d := (d.wr F.secDbg_cycles ((d.grant.map (·.cycles)).getD 0)).wr F.secDbg_signer ((d.grant.map (·.signer)).getD 0)
  let d := d.setFlag F.secDbg_withheld d.cipher.withheld
  let free := decide (st ≤ 1)
  let d := d.wr F.dbgStat_jtag_level (if free || flags.testBit 1 then level else 0)
  let d := if d.rd F.dbgStat_jtag_level < 2 then (d.wr F.dbgStat_halted 0).setFlag F.dbgStat_scan false else d
  d.wr F.dbgStat_bar2_set (if 5 ≤ st then 0 else if free || flags.testBit 0 then level + 1 else 1)

/-- A D2 session in MISSION (R397). -/
def d2Mission (d : Dev) : Bool := d.rd F.secLc_state == 3 && d.rd F.secDbg_level == 2

/-- The slip record at step 2 of a cold start (R395): it counts down, and ends at 0. -/
def slipStart (d : Dev) : Dev :=
  d.updSec fun s => { s with slip := match s.slip with
    | some r => if 1 < r.cycles then some { r with cycles := r.cycles - 1 } else none
    | none => none }

/-- NOR areas that every transition erases (R390 step 4), and those that only DECOMMISSIONED does. [DEDUCED: assumption log 164] -/
def eraseNor (d : Dev) (decom : Bool) : Dev :=
  let d : Dev := { d with
    cipher := { d.cipher with store := [], ranges := d.cipher.ranges.map fun r => { r with kek := none, cred := 0 }, san := {} },
    sec := { d.sec with slip := none } }
  if decom then { d with
    struct := { d.struct with slots := [] },
    card := { d.card with slots := [], ckNext := 0, dumpKey := none } } else d

/-- What the key ladder gives from root_secret: zero once kill is burned (R384). -/
def ladderSecret (d : Dev) : Nat := if d.sec.otp.kill then 0 else d.sec.otp.rootSecret

/-- bek1 of an owner record (R393), none where its tag is invalid: the key is the first 32 bytes of SHA-384 over the shared secret and
device_id, the additional data bytes 0x000-0x0FF. -/
def ownerBek (d : Dev) (p : List Byte) : Option (List Byte) :=
  let h := Config.sha384 (Config.ecdhShared (ladderSecret d) (sliceBytes p 0x98 97) ++ toBytes d.sec.otp.deviceId 16)
  Config.gcmOpen (h % 2 ^ 256) (sliceBytes p 0x100 12) (p.take 0x100) (sliceBytes p 0x10C 32) (sliceBytes p 0x12C 16)

/-- OTP burned by a transition (R389, R390 step 3): the thermometer, the owner record of kind 5, kill. [DEDUCED: assumption log 164] -/
def burnTransition (d : Dev) (w : LcWork) : Dev :=
  let p := w.owner
  let d := if w.kind = 5 then d.updOtp fun o =>
      let ev (i : Nat) : Nat := ceilOf (o.ceilEv / 4 ^ i)
      let bits (lv : Nat) : Nat := 2 - lv
      { o with
        keyHash := tabPut 0 (tabPut 0 o.keyHash 2 (leBytes p 0 48)) 3 (leBytes p 0x30 48),
        dumpHash := leBytes p 0x60 48, nonceId := leBytes p 0x90 4,
        bek1 := leBytes ((ownerBek d p).getD []) 0 32,
        ceilOwn := bits (min (ev 2) (leBytes p 0x94 1)) + 4 * bits (min (ev 3) (leBytes p 0x95 1)) }
    else d
  d.updOtp fun o => if w.kind = 4 then { o with lcCount := 32, kill := true } else { o with lcCount := o.lcCount + 1 }

/-! ### What Sanitize and transitions erase (R176 steps 2 and 3) -/

/-- Ocgoern replaces the device KEK and the context-wrapping key. -/
def newKeks (d : Dev) : Dev :=
  let (k, d) := d.draw
  let (w, d) := d.draw
  d.updCipher fun c => { c with
    kek := k, kekNor := k, cwk := w, drbgRequests := c.drbgRequests + 2,
    ranges := c.ranges.map fun r => { r with kek := r.kek.map fun _ => Config.rangeKek k r.idx r.cred } }

/-- Step 3: journals, zones and maps empty; sector entries of Detention cleared, head entries kept. [DEDUCED: assumption log 86] -/
def emptyState (d : Dev) : Dev :=
  d.updHost fun s => { s with
    locker := [], lockerHash := [], replaying := [], media := [], mapCk := [], lockerMap := [], parity := [],
    detention := s.detention.filter (fun e => e.lba.isNone), detGen := s.detGen + 1,
    nss := s.nss.map fun ns => { ns with
      mapReady := true, mapDirty := false, hostWrites := 0,
      zones := ns.zones.map fun z => match z.state with
        | .readOnly | .offline => { z with wp := 0, markA := false, markB := false, run := [] }
        | _ => { z with state := .empty, wp := 0, roPending := false, markA := false, markB := false, run := [] } } }

/-- A pending transition completed before any host I/O (R391): each step may be repeated without changing its outcome.
[DEDUCED: assumption log 165] -/
def resumeTransition (d : Dev) : Dev :=
  match d.sec.work with
  | none => d
  | some w =>
    let d := if w.erasing then emptyState (newKeks d) else d
    let d := eraseNor (burnTransition d w) (w.kind == 4)
    d.updSec fun s => { s with work := none }

end Sys2Proof.Machine
end

