-- ==== Sys2Proof/Machine/Load.lean ====
section
/-! DEFINITION. Loading a structure: every RWS field, the absent domains, the control stores, and what else a load fixes
(R31, R42, R49, R55, R61-R64, R178, R335, R381). -/
namespace Sys2Proof.Machine

/-- The same field of successive entries set from a list. -/
def wrAll (d : Dev) (f : Fld) (i : Nat) (vs : List Nat) : Dev := forEach vs.zipIdx d fun d v => d.wr f v.1 i v.2

/-- Registers of XBAR, CTX, DRAM and PIPE. -/
def loadFabric (d : Dev) : Dev :=
  let d := d.wr F.xbrArbCtl_c7_share (d.secField 7 0 0 1)
  let d := wrAll d F.xbrClsWeight_w 0 ((List.range 8).flatMap fun o => (List.range 7).map fun c => d.secField 7 0 (8 + 8 * o + c) 1)
  let d := forEach [0, 1] d fun d h => d.wr F.hstCtxStat_share (d.secField 8 0 (4 * h) 4) h
  let d := (d.wr F.memCfg_size_gib (d.secField 9 0 0 1)).wr F.memCfg_rate (d.secField 9 0 2 2)
  let sizes := dramSizes ((d.section 9 0).getD [])
  let d := wrAll d F.memPart_size_mib 0 sizes
  let d := wrAll d F.memPart_base_mib 0 ((List.range 8).map fun i => (sizes.take i).sum)
  let d := d.setFlag F.cmpCfg_present ((List.range 8).any (classCompress d))
  d.wr F.cmpCfg_ctx_base (d.rd F.memPart_base_mib 0 3 * 256)

/-- Registers of PORTS (R45). -/
def loadPorts (d : Dev) : Dev :=
  let d := forEach (List.range 4) d fun d p =>
    let f (k : Nat) : Nat := d.secField 2 0 (0x10 + 8 * p + k) 1
    let d := d.wr F.lmlStat_down_cause (if f 0 = 1 then 0 else 1) p
    ((((d.wr F.lmlCfg_used (f 0) p).wr F.lmlCfg_width (f 1) p).wr F.lmlCfg_rate (f 2) p).wr F.lmlCfg_encrypt (f 3) p)
  let node := d.secField 2 0 0x30 4
  let fixed := node != 0xFFFFFFFF
  let d := (d.setFlag F.lmlNode_fixed fixed).wr F.lmlNode_root (d.secField 2 0 0x34 1)
  let d := d.wr F.lmlNode_addr (if fixed then node else 0)
  { d with chain := { d.chain with nodes :=
    [{ addr := d.rd F.lmlNode_addr, reach := true, prim := 0, alt := none, root := d.flag F.lmlNode_root, encPath := true, hops := 0,
       altHops := 0, nss := d.host.nss.length, devId := d.sec.otp.deviceId }] } }

/-- Registers of HDA and FORMAT for an actuator (R46, R48, R178). -/
def loadFormat (d : Dev) (a : Nat) : Dev :=
  let n := a / 2
  let on := d.actPresent a
  let v (x : Nat) : Nat := if on then x else 0
  let d := (d.wr F.sqrGeom_wedges (v (fmtWedges d n)) a).wr F.sqrGeom_rz_count (v (fmtZones d n)) a
  let d := d.wr F.sqrGeom_assist_max (v (d.secField 3 n 8 2)) a
  let d := (d.wr F.sqrLocker_first (v (fmtLockerFirst d n)) a).wr F.sqrLocker_count (v (fmtLockerCount d n)) a
  let zs := (List.range 64).filter fun i => on && decide (i < fmtZones d n)
  let z (g : Nat → Nat) : List Nat := (List.range 64).map fun i => if zs.contains i then g i else 0
  let d := wrAll d F.sqrZone_first_track a (z (fmtZoneFirst d n))
  let d := wrAll d F.sqrZone_last_track a (z (fmtZoneLast d n))
  let d := wrAll d F.sqrZone2_spt a (z (fmtZoneSpt d n))
  let d := wrAll d F.sqrZone2_kind a (z (fmtZoneKind d n))
  wrAll d F.sqrZone2_payload a (z fun i => payloadSymbols (fmtZoneSpt d n i) (fmtWedges d n))

/-- Registers of THERMAL, CAL and POWER (R54-R56). -/
def loadLimits (d : Dev) : Dev :=
  let d := wrAll d F.thmEdges_edge 0 ((List.range 7).map fun b => d.secField 11 0 b 1)
  let d := (d.wr F.thmCfg_cal_delta (d.secField 11 0 7 1)).wr F.thmCfg_rise_throttle (d.secField 11 0 8 1)
  let d := (d.wr F.thmCfg_rise_shutdown (d.secField 11 0 9 1)).wr F.thmCfg_fixed_shutdown (d.secField 11 0 10 1)
  let d := forEach (List.range 6) d fun d k => forEach (List.range 16) (d.wr F.calDue_method 0 0 k) fun d i =>
    d.wr F.calDelta_delta 0 0 (16 * k + i)
  let d := forEach (calRecords ((d.section 12 0).getD [])) d fun d r =>
    forEach ((List.range 16).filter fun i => r.2.2.2.testBit i) d fun d i =>
      (d.setBit F.calDue_method i (r.2.1 == 1) 0 r.1).wr F.calDelta_delta r.2.2.1 0 (16 * r.1 + i)
  let d := d.wr F.pwrHsCfg_hs_allow (d.secField 13 0 0 1 / 2)
  let d := d.wr F.pwrCs_cs_allow (d.secField 13 0 1 1 / 2)
  wrAll d F.pwrHsExit_exit_us 0 ((List.range 4).map fun s => d.secField 13 0 (4 + 4 * s) 4)

/-- Domains absent under the loaded structure (R31); the others run. -/
def loadDomains (d : Dev) : Dev :=
  let put (d : Dev) (k : Nat) (on : Bool) : Dev := d.wr F.pwrDom_dom (if on then 0 else 2) 0 k
  let d := forEach [0, 1, 2, 3, 10] d fun d k => put d k true
  let d := forEach [0, 1] d fun d h => put d (domHst h) (hostUsed d h)
  let d := forEach (List.range 4) d fun d p => put d (domLml p) (lmlUsed d p)
  let d := forEach (List.range 8) d fun d a => put d (domChp a) (d.actPresent a)
  forEach (List.range 4) d fun d n => put d (domSsc n) (d.hdaPresent n)

/-- A structure comes into force: its sections, registers and domains, the Report Card's count; an HDA whose curve is off runs at
its first point (R284), and every present object is used for the first time after the load (R64, R381, R409).
[DEDUCED: assumption log 38] -/
def loadStructure (d : Dev) (ss : List Section) (slot build : Nat) : Dev :=
  let d : Dev := { d with struct := { d.struct with sections := ss } }
  let d := (d.wr F.glbStructStat_loaded slot).wr F.glbStructVer_build_version build
  let d := loadPorts (loadFabric d)
  let d := forEach (List.range 8) d loadFormat
  let d := forEach (List.range 4) (loadDomains (loadLimits d)) fun d n => d.emit (.slot n (d.slotDrive n))
  let d := syncLevel (cardCount d 13 1)
  let d := forEach (List.range 6) d fun d k => forEach (List.range 16) d fun d i => makeAllDue d k i
  let d := forEach ((presentHdas d).filter fun n => !d.flag F.spnStat_curve_on n) d fun d n =>
    d.updSpin n fun s => { s with cN := curveFirst d (tabGet 0 d.host.curves n) }
  d.updTherm fun t => { t with calAt := [], calBands := [], calVals := [] }

/-- Control stores as the sections give them (R49): what none loads holds the halt microword. -/
def loadStores (ss : List Section) (m : List Host.Cell) : List Host.Cell :=
  (ss.filter fun s => s.ty == 10).foldl (fun m s =>
    (List.range (leBytes s.data 2 2)).foldl (fun m i =>
      commitWord m (s.inst % 128) (leBytes s.data 0 2 + i) (leBytes s.data (8 + 16 * i) 16)) m)
    (m.filter fun c => !(decide (csBase 0 ≤ c.1) && decide (c.1 < csBase 8)))

/-- The bytes of NOR slot `i` and the state of its descriptor. -/
def Dev.imgSlot (d : Dev) (i : Nat) : ImageSlot := tabGet {} d.struct.slots i
def Dev.setImgSlot (d : Dev) (i : Nat) (x : ImageSlot) : Dev :=
  { d with struct := { d.struct with slots := tabPut {} d.struct.slots i x } }

/-- The choice of R61 between two slots that qualify, with their sections: the higher arb_counter, then build_version, then A. -/
def chooseSlot (d : Dev) : Option (Nat × List Section) :=
  let ok (i : Nat) : Option (List Section) :=
    if (d.imgSlot i).desc = 0xFC ∧ (verifyImage d (d.imgSlot i).bytes).1 = 0 then some (verifyImage d (d.imgSlot i).bytes).2 else none
  let key (i : Nat) : Nat := imgArb (d.imgSlot i).bytes * 2 ^ 64 + imgBuild (d.imgSlot i).bytes
  match ok 0, ok 1 with
  | some a, some b => if key 0 < key 1 then some (1, b) else some (0, a)
  | some a, none => some (0, a)
  | none, some b => some (1, b)
  | none, none => none

/-- The recovery structure in force (R62). [DEDUCED: assumption log 39] -/
def loadRecovery (d : Dev) : Dev := loadStructure d (recoverySections (max 1 d.struct.dramGib)) 3 0

/-- The slot whose activation was committed and not loaded since (R67 step 10, R68), where it qualifies. [DEDUCED: assumption log 184] -/
def activatedSlot (d : Dev) : Option (Nat × List Section) :=
  match d.struct.newSlot with
  | none => none
  | some i =>
    let v := verifyImage d (d.imgSlot i).bytes
    if (d.imgSlot i).desc = 0xFC ∧ v.1 = 0 then some (i, v.2) else none

/-- Step 4 of R385: both copies verified, one selected, the rollback counter burned, the structure loaded; the recovery structure
where none qualifies and in DECOMMISSIONED.  The load that ends an activation takes its slot. [DEDUCED: assumption log 184] -/
def selectStructure (d : Dev) : Dev :=
  let fail (i : Nat) : Nat := if (d.imgSlot i).desc = 0xFC then (verifyImage d (d.imgSlot i).bytes).1 else 0
  let d := (d.wr F.glbStructStat_fail_a (fail 0)).wr F.glbStructStat_fail_b (fail 1)
  let pick := if d.rd F.secLc_state = 5 then none else (activatedSlot d).or (chooseSlot d)
  let d : Dev := { d with struct := { d.struct with newSlot := none } }
  let d := match pick with
    | none => loadRecovery d
    | some (i, ss) =>
      let b := (d.imgSlot i).bytes
      loadStructure (d.updOtp fun o => { o with arbBs := max o.arbBs (imgArb b) }) ss i (imgBuild b)
  d.wr F.glbStructStat_arb_otp d.sec.otp.arbBs

end Sys2Proof.Machine
end

