-- ==== Sys2Proof/Machine/Boot.lean ====
section
/-! DEFINITION. The boot chain: cold start, wipes, firmware and keys, BOOT_DONE, the restart after a thermal stop, and a chip
held in reset (R30, R162, R376, R385-R387, R395, R400, R438, R440, R441). -/
namespace Sys2Proof.Machine

open Host (Outcome)

/-- The chip is held in reset for a lost clock or a security fault (R30, R387): emergency retract on every present HDA, FAULT_N low,
data not on media lost and counted at the next start. [DEDUCED: assumption log 42] -/
def holdReset (d : Dev) : Dev :=
  let d := endLoops d
  let d := forEach (presentHdas d) d fun d n => emergencyRetract d n 3 8
  let d := linksDown (driveFault d true) 4
  let d := dropActivation (cancelCals (dropTasks (dropInFlight d)))
  let d := forEach (presentHdas d) d fun d n => flushLocker d n 0
  d.updReset fun r => { r with
    held := true, stage := 0, thermal := false, pm := none, flushing := [], wipeSram := false, wipeDram := false }

/-- A security fault (R387): as a lost crystal; keys and the unwrapped-key cache of CPH are zeroed and a debug session ends; its
record stays in NOR (R401). [DEDUCED: assumption log 42] -/
def securityFault (d : Dev) (cause : Nat) : Dev :=
  let d := d.updCipher fun c => { c with kek := 0, ranges := c.ranges.map (fun r => { r with kek := none }), cache := [] }
  let d := syncWork (d.setFlag F.cphStat_kek_loaded false)
  let d := (d.wr F.secFault_cause cause).updSec fun s => { s with fault := true, d2 := none }
  holdReset (syncLevel d)

/-- The device after a reset's release: what NOR, OTP, retention in AON, the media and the pins keep; everything else is at its
reset value. [DEDUCED: assumption log 41 and 175] -/
def freshDev (d : Dev) : Dev :=
  let host : HostState := {
    nextId := d.host.nextId
    nextTid := d.host.nextTid
    media := d.host.media
    detention := d.host.detention
    detGen := d.host.detGen
    headDet := d.host.headDet
    curves := d.host.curvesSaved
    curvesSaved := d.host.curvesSaved
    parity := d.host.parity
    mapCk := d.host.mapCk
    lockerMap := d.host.lockerMap
    locker := d.host.locker
    homeworkDue := d.host.homeworkDue
    lockerHash := d.host.lockerHash
    anchors := d.host.anchors
    nss := d.host.nss.map fun ns => { ns with mapReady := ns.zoned, mapDirty := false, latency := ns.latSaved }
    replaying := ((d.host.locker.map (·.hda) ++ d.host.lockerMap.map (·.hda)).eraseDups) }
  let cipher : CipherState := {
    store := d.cipher.store
    globalRead := d.cipher.globalRead
    globalWrite := d.cipher.globalWrite
    nsPair := d.cipher.nsPair
    nsGcm := d.cipher.nsGcm
    kekNor := d.cipher.kekNor
    log := d.cipher.log
    san := d.cipher.san
    ranges := d.cipher.ranges.map fun r => { r with readLock := true, writeLock := true, kek := none, draining := false } }
  let n : Dev := {
    out := d.out
    draws := d.draws
    struct := { slots := d.struct.slots, oldDram := (d.section 9 0).getD [], newSlot := d.struct.newSlot }
    health := d.health
    healthGen := d.healthGen
    ecc := { norRemap := d.ecc.norRemap }
    host := host
    chain := { devId := d.chain.devId, gen := d.chain.gen, topoGen := d.chain.topoGen }
    cipher := cipher
    reset := { lostCovered := d.reset.lostCovered, lostUncovered := d.reset.lostUncovered, pm := d.reset.pm, stops := d.reset.stops }
    card := { d.card with ceMark := 0 }
    sec := { otp := d.sec.otp, slip := d.sec.slip, work := d.sec.work, fault := d.sec.fault }
    fw := { slots := d.fw.slots, active := d.fw.active } }
  let n := forEach [0, 1] n fun n h => n.updPort h fun p => { p with offer := (d.port h).offer }
  let n := forEach [0, 1] n fun n k => n.wr F.secSerial_serial (d.rd F.secSerial_serial 0 k) 0 k
  let n := (n.wr F.secFault_cause (d.rd F.secFault_cause)).setFlag F.secFault_seen (d.flag F.secFault_seen || d.sec.fault)
  let n := (n.wr F.evrPmStat_resets (d.rd F.evrPmStat_resets)).wr F.evrPmStat_dump_seq (d.rd F.evrPmStat_dump_seq)
  let n := n.setFlag F.evrWdog_expired (d.reset.pm == some 1)
  let n := (n.wr F.glbPins_perst_n (d.rd F.glbPins_perst_n)).setFlag F.evrCtl_frozen (d.flag F.evrCtl_frozen)
  (n.setFlag F.glbPins_pwr_good true).setFlag F.glbPins_sys_rst_n true

/-- The stops, losses and faults that a start counts (R407, R409). -/
def startCounts (d : Dev) (fault : Bool) : Dev :=
  let d := cardCount (cardCount d 1 1) 12 fault.toNat
  let d := cardCount (cardCount d 3 d.reset.lostCovered) 4 d.reset.lostUncovered
  let d := forEach d.reset.stops d fun d i => cardCount d i 1
  d.updReset fun r => { r with lostCovered := 0, lostUncovered := 0, stops := [] }

/-- A WRITTEN slot left by an activation that a stop cut short becomes INVALID (R68). -/
def markInvalid (d : Dev) : Dev :=
  forEach [0, 1] d fun d i => if (d.imgSlot i).desc = 0xFE then d.setImgSlot i { d.imgSlot i with desc := 0 } else d

/-- Steps 1 to 3 of R385 from reset release: life cycle and debug level, remaps, and the SRAM wipe begins.
[DESIGN CHOICE: assumption log 40 and 4] -/
def coldStart (env : BootEnv) (d0 : Dev) : Dev :=
  let thermal := d0.reset.waitCool
  let fault := d0.sec.fault
  let d := startCounts (restoreCard (freshDev d0)) fault
  let d := d.updSec fun s => { s with fault := false }
  let d := (d.wr F.thmStat_cause (if thermal then d0.rd F.thmStat_cause else 0)).setFlag F.thmEvt_shutdown thermal
  let d := d.wr F.thmStat_phase (if thermal then 2 else 1)
  let d := forEach (List.range 4) ((driveTrip (driveFault d false) false).emit (.pin 2 0)) fun d n => d.emit (.slot n .inactive)
  if !env.otpOk then securityFault d 2
  else if !env.romOk then securityFault d 3
  else
    let moved := d.sec.work.isSome
    let d := cardCount (slipStart (resumeTransition d)) 14 moved.toNat
    let d := if moved then ((d.wr F.evrPmStat_resets 0).wr F.evrPmStat_dump_seq 0).updCard fun c => { c with seq := 0 } else d
    let (cw, d) := d.draw
    let d := d.updCipher fun c => { c with cwk := cw }
    let d := applyRemaps (markInvalid (syncLevel d))
    let d := ((d.setFlag F.cphStat_drbg_ok true).wr F.glbStart_stage 3).setBit F.glbGpio_level 4 env.gpio4
    let d := d.setFlag F.glbPins_sris env.gpio4
    let d : Dev := { d with struct := { d.struct with dramGib := env.dramGib } }
    (d.wr F.memWipe_state 1).updReset fun r => { r with wipeSram := true }

/-- Reset release is due: before any start, after Fire Drill, after an orderly reset, or from a hold.
[DESIGN CHOICE: assumption log 40] -/
def startDue (d : Dev) : Bool :=
  d.reset.held || d.reset.stage == 6 || d.rd F.pwrHoldStat_state == 4 ||
    (d.reset.stage == 0 && d.rd F.glbStart_stage == 0 && !d.reset.wipeSram && !d.reset.waitCool && d.rd F.pwrHoldStat_state == 0)

/-- COLD_START (R385, R440, R441): after a thermal stop it is held until the die is below 85 °C (R377). -/
def execColdStart (env : BootEnv) (s : State) : Outcome State Fault Refusal :=
  lift s fun d => if startDue d && !(d.reset.waitCool && decide (85 ≤ env.dieMaxC)) then coldStart env d else d

/-- THERMAL_RESTART (R376 step 4): 60 s after the stop and below 85 °C; without auto_restart once SYS_RST_N asked for it.
[DEDUCED: assumption log 154] -/
def execThermalRestart (env : BootEnv) (s : State) : Outcome State Fault Refusal :=
  lift s fun d =>
    if d.reset.waitCool && decide (env.dieMaxC < 85) && (d.flag F.thmCfg_auto_restart || d.therm.restarting) then coldStart env d
    else d

/-! ### Wipes (R349 - R351) -/

/-- A post-mortem reset keeps the dump partition as far as the state's policy goes (R400, R417). -/
def dumpPolicy (d : Dev) : Bool :=
  d.reset.pm.isSome && (match d.rd F.secLc_state with
    | 3 => d.sec.otp.dumpHash != 0
    | 5 => false
    | _ => true)

/-- The dump partition survives (R351): the policy allows it, and the partition lies as before. -/
def dumpKept (d : Dev) : Bool := dumpPolicy d && d.struct.oldDram == (d.section 9 0).getD []

/-- SRAM contents gone: markers, injections and failed words; compression history is DRAM's. [DESIGN CHOICE: assumption log 44] -/
def sramWiped (d : Dev) : Dev :=
  let d := d.updEcc fun e => { e with
    marks := e.marks.filter (fun m => decide (316 * 2 ^ 36 ≤ m.1)), planted := e.planted.filter (fun p => decide (316 ≤ p.1)),
    watch := [], sramUsable := true }
  forEach (List.range 8) d fun d a => d.updSeq a fun q => { q with bad := [], repaired := [] }

/-- DRAM contents gone: contexts, key slots, buffered data, map pages, and the dump unless it is kept.
[DESIGN CHOICE: assumption log 44] -/
def dramWiped (d : Dev) (ms : Nat) (keep : Bool) : Dev :=
  let d := d.updEcc fun e => { e with
    marks := e.marks.filter (fun m => decide (m.1 < 316 * 2 ^ 36)), planted := e.planted.filter (fun p => decide (p.1 < 316)),
    dramUsable := true }
  let d := zeroPlain { d with comp := { d.comp with ctxs := [] }, map := { d.map with poisoned := [] } }
  let d := d.updCipher fun c => { c with slots := [], tags := [], retiring := [] }
  let d := d.setFlag F.memWipe_dump_kept keep
  let d := if keep then d else (d.updCard fun c => { c with dump := none }).setFlag F.evrPmStat_kept false
  ((d.wr F.memWipe_last_ms ms).wr F.memWipe_state 2).setFlag F.memCfg_trained true

/-- Step 6 of R385 (R386): the slot made active, then the other, then the ROM recovery firmware, which serves the recovery
structure; arb_fw is burned up to the loaded value. [DEDUCED: assumption log 39] -/
def loadFirmware (d : Dev) : Dev :=
  let image (i : Nat) : List Byte := tabGet [] d.fw.slots i
  let a := d.fw.active
  match [a, 1 - a].find? fun i => firmwareOk d (image i) with
  | some i =>
    let d := d.updOtp fun o => { o with arbFw := max o.arbFw (imgArb (image i)) }
    { d with fw := { d.fw with run := i, build := imgBuild (image i) } }
  | none =>
    let d : Dev := { d with fw := { d.fw with run := 2, build := 0 } }
    if d.rd F.glbStructStat_loaded = 3 then d else loadRecovery d

/-- The nonce counter at a cold start (R162): the greatest limit among valid records; a record is due before the first job. -/
def restoreNonce (d : Dev) : Dev :=
  let top := ((d.cipher.log.filter nonceRecordValid).map (·.1)).foldl max 0
  let d := ((d.wr F.cphNonceCtr_value top).wr F.cphNonceLimit_value top).setFlag F.cphStat_nonce_wait true
  d.updCipher fun c => { c with recordDue := some (top + 2 ^ 20) }

/-- Step 7 of R385: the device KEK, the key store and the nonce counter, and a new context-wrapping key (R170), but not in DECOMMISSIONED nor in a D2 session in
MISSION, in which the keys are withheld. [DEDUCED: assumption log 83] -/
def loadKeys (d : Dev) : Dev :=
  let d := d.wr F.cphNonceId_nonce_id d.sec.otp.nonceId
  let (v, d) := d.draw
  let d := d.updCipher fun c => { c with cwk := v }
  if d.rd F.secLc_state = 5 then d
  else if d2Mission d then
    syncLevel ((d.updCipher fun c => { c with withheld := true }).updSec fun s => { s with d2Held := true })
  else
    let d := (d.updCipher fun c => { c with slots := c.store, withheld := false, kek := c.kekNor }).updSec fun s => { s with d2Held := false }
    syncLevel (restoreNonce (d.setFlag F.cphStat_kek_loaded true))

/-- A dump that the start has kept becomes available (R417, R418). -/
def offerDump (d : Dev) : Dev :=
  match d.card.dump with
  | none => d
  | some x => ((d.setFlag F.evrPmStat_kept true).wr F.evrPmStat_dump_seq x.seq).updCard fun c => { c with told := false, seq := x.seq }

/-- Both wipes of an orderly stop have ended (R94 step 5); those of a restructure wait for its step 10.
[DESIGN CHOICE: assumption log 44] -/
def wipesEnded (d : Dev) (m : List Host.Cell) : Dev × List Host.Cell :=
  if d.reset.wipeSram || d.reset.wipeDram then (d, m)
  else if d.reset.stage = 5 then (d.updReset fun r => { r with stage := 6 }, m)
  else (d, m)

/-- SRAM_WIPE_DONE (R350): in the boot chain step 4 follows, and the DRAM is trained and wiped. [DESIGN CHOICE: assumption log 40] -/
def sramWipeDone (d : Dev) (_m : List Host.Cell) : Dev × List Host.Cell :=
  if !d.reset.wipeSram then (d, _m)
  else
    let d := sramWiped (d.updReset fun r => { r with wipeSram := false })
    if d.rd F.glbStart_stage = 3 then
      let d := selectStructure d
      let d := d.setFlag F.memWipe_dump_kept (dumpKept d)
      let d := (d.wr F.glbStart_stage 5).updReset fun r => { r with wipeDram := true, pm := none }
      (d, loadStores d.struct.sections [])
    else wipesEnded d []

def execSramWipeDone (s : State) : Outcome State Fault Refusal := liftMem s sramWipeDone

/-- DRAM_WIPE_DONE (R350): in the boot chain steps 6 and 7 follow. [DESIGN CHOICE: assumption log 40] -/
def dramWipeDone (ms : Nat) (d : Dev) (m : List Host.Cell) : Dev × List Host.Cell :=
  if !d.reset.wipeDram then (d, m)
  else
    let boot := decide (d.rd F.glbStart_stage = 5)
    let keep := if boot then d.flag F.memWipe_dump_kept else dumpPolicy d
    let d := dramWiped (d.updReset fun r => { r with wipeDram := false }) ms keep
    if boot then
      let d := (loadKeys (loadFirmware (if keep then offerDump d else d))).wr F.glbStart_stage 7
      (d, loadStores d.struct.sections m)
    else wipesEnded d m

def execDramWipeDone (ms : Nat) (s : State) : Outcome State Fault Refusal := liftMem s (dramWipeDone ms)

/-- BOOT_DONE (R438, R440 steps 2 and 3): Lomey ports train, firmware votes every present HDA to HS0, waiting host links train.
[DESIGN CHOICE: assumption log 40] -/
def bootDone (ms : Nat) (d : Dev) : Dev :=
  if d.rd F.glbStart_stage ≠ 7 then d
  else
    let d := ((d.wr F.glbStart_stage 8).setFlag F.glbStart_boot_done true).emit (.pin 2 1)
    let d := d.wr F.glbStart_boot_ms ms
    let d := forEach ((List.range 4).filter (lmlUsed d)) d portTrain
    let d := forEach (List.range 4) d fun d n => setHvote d 2 n (if d.hdaPresent n then 0 else 7)
    recomputeBound (applyLimits (forEach [0, 1] d hostTrain))

def execBootDone (ms : Nat) (s : State) : Outcome State Fault Refusal := lift s (bootDone ms)

/-- SECURITY_FAULT (R387): 0 the SEC clock, 1 OTP, 2 ROM self-test, 3 the key ladder. -/
def execSecurityFault (cause : Fin 4) (s : State) : Outcome State Fault Refusal :=
  lift s fun d => if d.reset.held then d else securityFault d (cause.val + 1)

end Sys2Proof.Machine
end

