-- ==== Sys2Proof/Machine/Firmware.lean ====
section
/-! DEFINITION. Firmware download, commit and activation (R95, R96, R386), and the assembly of downloaded images. -/
namespace Sys2Proof.Machine

open Host (Outcome)

/-! ### Images in pieces (R65) -/

/-- Byte `x` of an image of pieces, where a later piece overwrites an earlier one. -/
def pieceByte (ps : List (Nat × List Byte)) (x : Nat) : Option Byte :=
  ps.foldl (fun b p => if p.1 ≤ x ∧ x < p.1 + p.2.length then p.2[x - p.1]? else b) none

/-- The first `n` bytes, and whether every one was received. -/
def pieceImage (ps : List (Nat × List Byte)) (n : Nat) : List Byte := (List.range n).map fun x => (pieceByte ps x).getD 0#8
def pieceWhole (ps : List (Nat × List Byte)) (n : Nat) : Bool := (List.range n).all fun x => (pieceByte ps x).isSome

/-- image_len of the header, once it was received (R37). -/
def pieceLen (ps : List (Nat × List Byte)) : Option Nat :=
  if pieceWhole ps 12 then some (imgLen (pieceImage ps 12)) else none

/-! ### Firmware -/

/-- FIRMWARE_IMAGE_DOWNLOAD (R386). -/
def fwDownload (h cid offsetDw : Nat) (piece : List Byte) (d : Dev) : Dev :=
  if 32 * 2 ^ 20 < offsetDw * 4 + piece.length ∨ piece = [] then adminEnd d h cid stInvalidField 0
  else adminEnd { d with fw := { d.fw with staging := d.fw.staging ++ [(offsetDw * 4, piece)] } } h cid 0 0

def execFirmwareImageDownload (h : HstId) (cid offsetDw : Nat) (piece : List (BitVec 8)) (s : State) : Outcome State Fault Refusal :=
  lift s (adminDo h.val cid false true (fwDownload h.val cid offsetDw piece))

/-- The image downloaded, where it is whole. -/
def fwStaged (d : Dev) : Option (List Byte) :=
  match pieceLen d.fw.staging with
  | some n => if n ≤ 32 * 2 ^ 20 ∧ pieceWhole d.fw.staging n then some (pieceImage d.fw.staging n) else none
  | none => none

def fwPut (d : Dev) (slot : Nat) (b : List Byte) : Dev :=
  { d with fw := { d.fw with slots := tabPut [] d.fw.slots slot b, staging := [] } }

/-- Activation at once (R95 step 1): fetching stops, the notice is posted, and the commit waits for commands in flight.
[PRESUMED: assumption log 56] -/
def fwStart (d : Dev) (h cid slot : Nat) : Dev :=
  let d := holdAdmin (noticeOutstanding (stopFetch d 2) ntFirmware) h
  { d with fw := { d.fw with sw := some (h, cid, slot) } }

/-- FIRMWARE_COMMIT (R95, R386): 000b stores the image, 001b also makes it active at the next reset, 010b does so for the image of
the slot, 011b activates at once.  An image that fails its checks changes nothing. [PRESUMED: assumption log 56] -/
def fwCommit (h cid slot action : Nat) (d : Dev) : Dev :=
  let bad := adminEnd d h cid stInvalidImage 0
  let image := match action with
    | 0 | 1 => fwStaged d
    | 3 => if d.fw.staging = [] then some (tabGet [] d.fw.slots slot) else fwStaged d
    | _ => some (tabGet [] d.fw.slots slot)
  match image with
  | none => bad
  | some b =>
    if 3 < action then adminEnd d h cid stInvalidField 0
    else if !firmwareOk d b then bad
    else
      let d := if action = 2 then d else fwPut d slot b
      match action with
      | 0 => adminEnd d h cid 0 0
      | 3 => fwStart d h cid slot
      | _ => adminEnd { d with fw := { d.fw with active := slot } } h cid 0 0

def execFirmwareCommit (h : HstId) (cid : Nat) (slot : Fin 2) (action : Nat) (s : State) : Outcome State Fault Refusal :=
  lift s fun d => adminDo h.val cid false (d.fw.run == 2) (fwCommit h.val cid slot.val action) d

/-- FIRMWARE_IMAGE_SWITCH (R95 steps 3 and 4). [PRESUMED: assumption log 56] -/
def fwSwitch (d : Dev) : Dev :=
  match d.fw.sw with
  | none => d
  | some (h, cid, slot) =>
    if inFlight d then d
    else
      let d := loadFirmware { d with fw := { d.fw with active := slot, sw := none } }
      endAdmin (resumeFetch d 2) (some (h, cid)) 0 0

def execFirmwareImageSwitch (s : State) : Outcome State Fault Refusal := lift s fwSwitch

/-- FIRMWARE_ACTIVATION_TIMEOUT (R96). [PRESUMED: assumption log 56] -/
def fwTimeout (d : Dev) : Dev :=
  match d.fw.sw with
  | none => d
  | some (h, cid, slot) =>
    if !inFlight d then d
    else endAdmin (resumeFetch { d with fw := { d.fw with active := slot, sw := none } } 2) (some (h, cid)) stMaxTime 0

def execFirmwareActivationTimeout (s : State) : Outcome State Fault Refusal := lift s fwTimeout

end Sys2Proof.Machine
end

