-- ==== Sys2Proof/Machine/Activate.lean ====
section
/-! DEFINITION. Structural Activate: download, verification, the new slot, the change of structure (R64-R68, R390). -/
namespace Sys2Proof.Machine

open Host (Outcome)

/-- Command-specific statuses of R66. -/
def saIncomplete : Nat := 0x1C0
def saVerify : Nat := 0x1C1
def saRollback : Nat := 0x1C2
def saSequence : Nat := 0x1C3
def saTooLarge : Nat := 0x1C4

def Dev.updStruct (d : Dev) (g : StructState → StructState) : Dev := { d with struct := g d.struct }

/-- What every action meets first: DECOMMISSIONED (R390), an activation already pending, a staging image of the other controller. -/
def saRefusal (d : Dev) (h : Nat) : Option Nat :=
  if d.rd F.secLc_state = 5 then some stSequence
  else if 2 ≤ d.rd F.glbStructStat_activate ∨ d.struct.stagingOwner.any (fun o => o != h) then some saSequence
  else none

/-- STRUCTURAL_ACTIVATE_DOWNLOAD (R65): pieces of 4 KiB units at multiples of 4 KiB, but for the one that ends the image. -/
def saDownload (h cid offsetDw : Nat) (piece : List Byte) (d : Dev) : Dev :=
  match saRefusal d h with
  | some st => adminEnd d h cid st 0
  | none =>
    let off := offsetDw * 4
    let ps := d.struct.staging ++ [(off, piece)]
    let ends := match pieceLen ps with
      | some n => off + piece.length == n
      | none => true
    if d.struct.phase ≠ .idle then adminEnd d h cid saSequence 0
    else if off % 4096 ≠ 0 ∨ piece = [] ∨ (piece.length % 4096 ≠ 0 ∧ !ends) then adminEnd d h cid stInvalidField 0
    else if 4 * 2 ^ 20 < off + piece.length then adminEnd d h cid saTooLarge 0
    else
      let d := d.updStruct fun s => { s with staging := ps, stagingOwner := some h }
      adminEnd (d.wr F.glbStructStat_activate 1) h cid 0 0

/-- [DEDUCED: assumption log 37] -/
def execStructuralActivateDownload (h : HstId) (cid offsetDw : Nat) (piece : List (BitVec 8)) (s : State) :
    Outcome State Fault Refusal :=
  lift s (adminDo h.val cid true true (saDownload h.val cid offsetDw piece))

/-- STRUCTURAL_ACTIVATE_VERIFY (R66, R67 step 1). -/
def saStart (h cid : Nat) (d : Dev) : Dev :=
  match saRefusal d h with
  | some st => adminEnd d h cid st 0
  | none =>
    if d.struct.phase ≠ .idle then adminEnd d h cid saSequence 0
    else match pieceLen d.struct.staging with
      | none => adminEnd d h cid saIncomplete 0
      | some n =>
        if 4 * 2 ^ 20 < n then adminEnd d h cid saTooLarge 0
        else if !pieceWhole d.struct.staging n then adminEnd d h cid saIncomplete 0
        else holdAdmin (d.updStruct fun s => { s with phase := .verifying, stagingCid := cid }) h

/-- [DEDUCED: assumption log 37] -/
def execStructuralActivateVerify (h : HstId) (cid : Nat) (s : State) : Outcome State Fault Refusal :=
  lift s (adminDo h.val cid true true (saStart h.val cid))

/-- STRUCTURAL_ACTIVATE_ABORT (R66): with success while downloading, and as long as verification has not passed; the image goes.
[DEDUCED: assumption log 188] -/
def saAbort (h cid : Nat) (d : Dev) : Dev :=
  match saRefusal d h with
  | some st => adminEnd d h cid st 0
  | none =>
    let d := d.updStruct fun s => { s with staging := [], stagingOwner := if s.phase = .idle then none else s.stagingOwner }
    adminEnd (d.wr F.glbStructStat_activate 0) h cid 0 0

def execStructuralActivateAbort (h : HstId) (cid : Nat) (s : State) : Outcome State Fault Refusal :=
  lift s (adminDo h.val cid true true (saAbort h.val cid))

/-- The command that holds the activation. -/
def saWaiter (d : Dev) : Option (Nat × Nat) := d.struct.stagingOwner.map fun h => (h, d.struct.stagingCid)

/-- ACTIVATE_VERIFY_DONE (R67 step 2): on success the activation is pending; on failure nothing changes but fail_stage.  An image
aborted meanwhile is incomplete, and a rollback counter too low is named before a wrong silicon_rev. [DEDUCED: assumption log 188] -/
def saVerified (d : Dev) : Dev :=
  if d.struct.phase ≠ .verifying then d
  else
    let b := pieceImage d.struct.staging ((pieceLen d.struct.staging).getD 0)
    let idle (d : Dev) : Dev := d.updStruct fun s => { s with phase := .idle }
    if d.struct.staging = [] then
      (endAdmin (idle d) (saWaiter d) saIncomplete 0).updStruct fun s => { s with stagingOwner := none }
    else
      let step := (verifyImage d b).1
      let d := d.wr F.glbStructStat_fail_stage step
      if step = 0 then (d.wr F.glbStructStat_activate 2).updStruct fun s => { s with phase := .writing }
      else if step = 4 ∧ imgArb b < d.sec.otp.arbBs then endAdmin (idle d) (saWaiter d) saRollback 0
      else endAdmin (idle d) (saWaiter d) saVerify step

def execActivateVerifyDone (s : State) : Outcome State Fault Refusal := lift s saVerified

/-- The slot not loaded: A where neither is. -/
def otherSlot (d : Dev) : Nat := if d.rd F.glbStructStat_loaded = 0 then 1 else 0

/-- ACTIVATE_SLOT_WRITTEN (R67 steps 3 and 4). -/
def saWritten (d : Dev) : Dev :=
  if d.struct.phase ≠ .writing then d
  else
    let b := pieceImage d.struct.staging ((pieceLen d.struct.staging).getD 0)
    let w := saWaiter d
    let d := d.setImgSlot (otherSlot d) { bytes := b, desc := 0xFE }
    let d := d.updStruct fun s => { s with phase := .draining, staging := [], stagingOwner := none }
    noticeOutstanding (endAdmin d w 0 0) ntActivated

def execActivateSlotWritten (s : State) : Outcome State Fault Refusal := lift s saWritten

/-- ACTIVATE_INFLIGHT_DRAINED (R67 steps 5 and 6): every dirty extent goes to its home. -/
def saDrained (d : Dev) : Dev :=
  if d.struct.phase = .draining ∧ inFlight d = false then
    forEach d.host.extents (d.updStruct fun s => { s with phase := .destaging }) fun d e => destageExtent d e true
  else d

def execActivateInflightDrained (s : State) : Outcome State Fault Refusal := lift s saDrained

/-- Sections HDA and FORMAT of slot `n` are the same under another structure. -/
def sameHda (d : Dev) (ss : List Section) (n : Nat) : Bool :=
  [3, 5].all fun ty => findSec ss ty n == (d.section ty n).getD []

/-- An HDA leaves service (R67 step 8): unchanged ones unload to HS2, others stop (HS4), their spindles coasting. -/
def saLeave (d : Dev) (ss : List Section) (n : Nat) : Dev :=
  let keep := sameHda d ss n
  let d := if headsParked d n then d else unloadHeads d n 0
  let d := d.wr F.pwrHs_state (max (if keep then 2 else 4) (d.rd F.pwrHs_state 0 n)) 0 n
  let d := if keep then d else coastSpin d n
  (d.setFlag F.pwrHs_in_transition false 0 n).wr F.pwrHs_step 0 0 n

/-- ACTIVATE_COMMIT (R67 steps 6-9): with no extent dirty, no rewrite in progress and every locker journal empty; the map journal
is in a checkpoint. -/
def saCommit (d : Dev) : Dev :=
  if d.struct.phase = .destaging ∧ (copiesOf d).isEmpty = true ∧ d.host.locker = [] ∧ d.host.held.all (fun x => x.kind != 2) = true then
    let i := otherSlot d
    let b := (d.imgSlot i).bytes
    let ss := (verifyImage d b).2
    let d := (d.setImgSlot i { bytes := b, desc := 0xFC }).wr F.glbStructStat_activate 3
    let d := d.updStruct fun s => { s with newSlot := some i }
    let d := linksDown (stopFetch d 1) 4
    let d := forEach (presentHdas d) d fun d n => saLeave d ss n
    let offers := [(d.port 0).offer, (d.port 1).offer]
    let d := checkpointAll d
    let d := d.updHost fun s => { s with
      ports := [], nss := s.nss.map (fun ns => { ns with mapReady := ns.zoned }) }
    let d := forEach (presentHdas d) d writeAnchor
    let d := forEach [0, 1] d fun d h => d.updPort h fun p => { p with offer := offers.getD h (8, 6) }
    let d := (d.wr F.memWipe_state 1).updStruct fun s => { s with phase := .wiping, oldDram := (d.section 9 0).getD [] }
    d.updReset fun r => { r with wipeSram := true, wipeDram := true }
  else d

def execActivateCommit (s : State) : Outcome State Fault Refusal := lift s saCommit

/-- ACTIVATE_RESTRUCTURE (R67 step 10): after the wipes the new structure loads, keys are loaded again, and the links retrain; the
controllers appear with CSTS.RDY 0. -/
def saRestructure (d : Dev) (m : List Host.Cell) : Dev × List Host.Cell :=
  if d.struct.phase ≠ .wiping ∨ d.reset.wipeSram ∨ d.reset.wipeDram then (d, m)
  else
    let d := selectStructure (d.updStruct fun s => { s with phase := .idle })
    let d := (loadKeys d).wr F.glbStructStat_activate 0
    let d := forEach ((List.range 4).filter (lmlUsed d)) d portTrain
    let d := forEach (List.range 4) d fun d n => setHvote d 2 n (if d.hdaPresent n then 0 else 7)
    let d := forEach [0, 1] d hostTrain
    (recomputeBound (resumeFetch d 1), loadStores d.struct.sections m)

def execActivateRestructure (s : State) : Outcome State Fault Refusal := liftMem s saRestructure

end Sys2Proof.Machine
end

