-- ==== Sys2Proof/Machine/Admin.lean ====
section
/-! DEFINITION. Identify, I/O queues and features (R69-R72, R87, R98, R105, R167, R362, R371). -/
namespace Sys2Proof.Machine

open Host (Outcome)

/-! ### Identify (R70) -/

/-- The CAP register of a controller (R70): MQES, CQR, AMS, TO, DSTRD, NSSRS, MPSMIN and MPSMAX at their NVM Express places.
[PRESUMED: assumption log 57] -/
def capValue : Nat := 16383 + 2 ^ 16 + 2 ^ 17 + 60 * 2 ^ 24 + 0 * 2 ^ 32 + 2 ^ 36 + 0 * 2 ^ 48 + 4 * 2 ^ 52

/-- The most entries of an admin queue, the MSI-X vectors of a controller, and the data pointers served, 1 PRP and 2 SGL with dword
alignment (R70). -/
def adminEntries : Nat := 4096
def msixVectors : Nat := 2049
def dataPointers : Nat := 3

/-- Identify Controller: the values of R70, R371 and R362 in their order, with the controller identifier of R69.
[PRESUMED: assumption log 57] -/
def ctrlData (d : Dev) (h : Nat) : List Nat :=
  pageField capValue 8 ++ pageField adminEntries 2 ++ pageField msixVectors 2 ++ pageField dataPointers 1 ++
  pageField (h + 1) 2 ++ pageField 9 1 ++ pageField 9 1 ++ pageField 0x3FFFFFFF 4 ++ pageField 1023 4 ++ pageField 127 1 ++ pageField 1 1 ++
  pageField 2 1 ++ pageField 10 2 ++ pageField 5000000 4 ++ pageField 30000000 4 ++ pageField 378 2 ++
  pageField (d.secField 11 0 10 1 + 273) 2 ++ pageField 4 1 ++ pageField (kpioAvailable d) 2 ++
  ((List.range 5).flatMap fun ps => pageField (maxPower d ps / 10) 2)

/-- Identify a zoned namespace for its command set: MAR, MOR, ZSZE (R113, R121). [PRESUMED: assumption log 57] -/
def znsData (d : Dev) (ns : Ns) : List Nat :=
  if ns.zoned then pageField 255 4 ++ pageField 255 4 ++ pageField (zoneSize d ns) 8 else []

/-- The namespaces the controllers present: none under the recovery structure (R62). -/
def shownNss (d : Dev) : List Ns := if d.rd F.glbStructStat_loaded = 3 then [] else d.host.nss

/-- A list of up to 1,024 identifiers above the one named. -/
def idList (l : List Nat) (above : Nat) : List Nat := (l.filter fun n => decide (above < n)).flatMap fun n => pageField n 4

/-- IDENTIFY (R70, R98). [PRESUMED: assumption log 57] -/
def identify (h cid cns nsid : Nat) (d : Dev) : Dev :=
  let mine := ((shownNss d).filter fun ns => ns.ctrls.contains (h + 1)).map (·.nsid)
  let all := (shownNss d).map (·.nsid)
  let ofNs (g : Ns → List Nat) : Dev :=
    if nsid = 0xFFFFFFFF then adminPage d h cid []
    else match (localNs d nsid).filter fun ns => (shownNss d).contains ns with
      | some ns => adminPage d h cid (g ns)
      | none => if nsidNode nsid = 0 ∧ 0 < nsid ∧ nsid < 1024 then adminPage d h cid [] else adminEnd d h cid stInvalidNs 0
  match cns with
  | 0x00 =>
    if nsidNode nsid ≠ 0 ∧ nsid ≠ 0xFFFFFFFF then forwardAdmin d h cid { kind := .identify, nsid := nsid } else ofNs (nsData d)
  | 0x01 => adminPage d h cid (ctrlData d h)
  | 0x02 => adminPage d h cid (idList mine nsid)
  | 0x05 => ofNs (znsData d)
  | 0x06 => adminPage d h cid (pageField 9 1)
  | 0x10 => adminPage d h cid (idList all nsid)
  | 0x11 => ofNs (nsData d)
  | 0x12 => ofNs fun ns => ns.ctrls.flatMap fun c => pageField c 2
  | 0x13 => adminPage d h cid ((usedPorts d).flatMap fun p => pageField (p + 1) 2)
  | _ => adminEnd d h cid stInvalidField 0

def execIdentify (h : HstId) (cid cns nsid : Nat) (s : State) : Outcome State Fault Refusal :=
  lift s (adminDo h.val cid true true (identify h.val cid cns nsid))

/-! ### Queues (R72) -/

/-- Q: I/O queue pairs a controller grants; none under the recovery structure (R62). -/
def queuePairs (d : Dev) (h : Nat) : Nat :=
  if d.rd F.glbStructStat_loaded = 3 then 0 else min 2048 ((d.rd F.hstCtxStat_share h - 64) / 16)

/-- SET_FEATURES_NUMBER_OF_QUEUES: Dword 0 holds Q - 1 in both halves, 0 where no pair is granted. -/
def setQueues (h cid : Nat) (d : Dev) : Dev :=
  let q := queuePairs d h - 1
  adminEnd d h cid 0 (q + 65536 * q)

def execSetFeaturesNumberOfQueues (h : HstId) (cid _nsqr _ncqr : Nat) (s : State) : Outcome State Fault Refusal :=
  lift s (adminDo h.val cid false true (setQueues h.val cid))

/-- CREATE_IO_QUEUE: a completion queue, or the submission queue that posts to the completion queue of its own identifier
(assumption log 14). -/
def createQueue (h cid : Nat) (submission : Bool) (qid entries : Nat) (contiguous : Bool) (prio : Prio) (d : Dev) : Dev :=
  let p := d.port h
  let used := if submission then p.sqs.any fun q => q.qid == qid else p.cqs.any fun q => q.1 == qid
  if qid = 0 ∨ queuePairs d h < qid ∨ used then adminEnd d h cid stInvalidQid 0
  else if entries < 2 ∨ 16384 < entries then adminEnd d h cid stInvalidQsize 0
  else if !contiguous then adminEnd d h cid stInvalidField 0
  else if submission && !p.cqs.any fun q => q.1 == qid then adminEnd d h cid 0x100 0
  else adminEnd (d.updPort h fun p =>
    if submission then { p with sqs := p.sqs ++ [{ qid := qid, prio := prio, entries := entries }] }
    else { p with cqs := p.cqs ++ [(qid, entries)] }) h cid 0 0

def execCreateIoQueue (h : HstId) (cid : Nat) (submission : Bool) (qid entries : Nat) (contiguous : Bool) (prio : Prio) (s : State) :
    Outcome State Fault Refusal :=
  lift s (adminDo h.val cid false true (createQueue h.val cid submission qid entries contiguous prio))

/-! ### Features -/

/-- SET_FEATURES_VOLATILE_WRITE_CACHE (R87): writes that waited for media alone may complete once it is enabled. -/
def setCache (h cid : Nat) (enable : Bool) (d : Dev) : Dev :=
  let d := adminEnd (d.updPort h fun p => { p with vwc := enable }) h cid 0 0
  if enable then forEach (d.host.ctxs.map (·.id)) d tryComplete else d

def execSetFeaturesVolatileWriteCache (h : HstId) (cid : Nat) (enable : Bool) (s : State) : Outcome State Fault Refusal :=
  lift s (adminDo h.val cid false false (setCache h.val cid enable))

/-- SET_FEATURES_POWER_STATE (R362): the workload hint is ignored. -/
def setPs (h cid ps : Nat) (d : Dev) : Dev :=
  if 4 < ps then adminEnd d h cid stInvalidField 0 else adminEnd (setPowerState d ps) h cid 0 0

def execSetFeaturesPowerState (h : HstId) (cid ps _workload : Nat) (s : State) : Outcome State Fault Refusal :=
  lift s (adminDo h.val cid false false (setPs h.val cid ps))

/-- SET_FEATURES_TEMPERATURE_THRESHOLD (R371): sensor 0 is the Composite Temperature. -/
def setThreshold (h cid sensor : Nat) (under : Bool) (kelvin : Nat) (d : Dev) : Dev :=
  if 7 < sensor ∨ 65535 < kelvin then adminEnd d h cid stInvalidField 0
  else
    let key := 2 * sensor + under.toNat
    checkThresholds (adminEnd (d.updPort h fun p =>
      { p with thresholds := p.thresholds.filter (fun t => t.1 != key) ++ [(key, kelvin)] }) h cid 0 0)

def execSetFeaturesTemperatureThreshold (h : HstId) (cid sensor : Nat) (under : Bool) (kelvin : Nat) (s : State) :
    Outcome State Fault Refusal :=
  lift s (adminDo h.val cid false false (setThreshold h.val cid sensor under kelvin))

/-- SET_FEATURES_TOLERABLE_LATENCY (R105): with `save` the value also outlasts a start. [DEDUCED: assumption log 58] -/
def setLatency (h cid nsid us : Nat) (save : Bool) (d : Dev) : Dev :=
  if 60000000 < us then adminEnd d h cid stInvalidField 0
  else if nsid = 0xFFFFFFFF then
    adminEnd (d.updHost fun s => { s with nss := s.nss.map (setLat us save) }) h cid 0 0
  else if nsidNode nsid ≠ 0 then forwardAdmin d h cid { kind := .latSet, nsid := nsid, value := us, cont := save }
  else match localNs d nsid with
    | some _ => adminEnd (d.updNs nsid (setLat us save)) h cid 0 0
    | none => adminEnd d h cid stInvalidNs 0

def execSetFeaturesTolerableLatency (h : HstId) (cid nsid : Nat) (us : FeatureValue) (s : State) : Outcome State Fault Refusal :=
  lift s (adminDo h.val cid false false (setLatency h.val cid nsid us.value us.save))

/-- GET_FEATURES_TOLERABLE_LATENCY (R105). [DEDUCED: assumption log 58] -/
def getLatency (h cid nsid : Nat) (d : Dev) : Dev :=
  if nsid ≠ 0xFFFFFFFF ∧ nsidNode nsid ≠ 0 then forwardAdmin d h cid { kind := .latGet, nsid := nsid }
  else match localNs d nsid with
    | some ns => adminEnd d h cid 0 ns.latency
    | none => adminEnd d h cid stInvalidNs 0

def execGetFeaturesTolerableLatency (h : HstId) (cid nsid : Nat) (s : State) : Outcome State Fault Refusal :=
  lift s (adminDo h.val cid true false (getLatency h.val cid nsid))

/-- SET_FEATURES_SPINDLE_CURVE (R105): curve 0 is never absent (R42); with `save` the choice also outlasts a start. -/
def setCurve (h cid mask curve : Nat) (save : Bool) (d : Dev) : Dev :=
  let named := (List.range 4).filter fun n => mask.testBit n
  if 16 ≤ mask ∨ !named.all d.hdaPresent ∨ (curve ≠ 0 ∧ (8 ≤ curve ∨ (d.section 14 curve).isNone)) then
    adminEnd d h cid stInvalidField 0
  else
    let put (t : List (Nat × Nat)) : List (Nat × Nat) := named.foldl (fun t n => tabPut 0 t n curve) t
    adminEnd (d.updHost fun s => { s with curves := put s.curves, curvesSaved := if save then put s.curvesSaved else s.curvesSaved }) h cid 0 0

def execSetFeaturesSpindleCurve (h : HstId) (cid mask : Nat) (curve : FeatureValue) (s : State) : Outcome State Fault Refusal :=
  lift s (adminDo h.val cid false false (setCurve h.val cid mask curve.value curve.save))

/-- GET_FEATURES_SPINDLE_CURVE (R105). -/
def getCurve (h cid : Nat) (d : Dev) : Dev :=
  adminEnd d h cid 0 ((List.range 4).map fun n => tabGet 0 d.host.curves n * 8 ^ n).sum

def execGetFeaturesSpindleCurve (h : HstId) (cid : Nat) (s : State) : Outcome State Fault Refusal :=
  lift s (adminDo h.val cid true false (getCurve h.val cid))

/-- GET_FEATURES_DIRTY_BOUND (R105): B in MiB rounded down, D in MiB rounded up. -/
def getBound (h cid : Nat) (d : Dev) : Dev :=
  adminEnd d h cid 0 (boundAll d / 256 % 65536 + 65536 * ((dirtyAll d + 255) / 256 % 65536))

def execGetFeaturesDirtyBound (h : HstId) (cid : Nat) (s : State) : Outcome State Fault Refusal :=
  lift s (adminDo h.val cid true false (getBound h.val cid))

/-- SET_FEATURES_DIRTY_BOUND (R105): Feature Not Changeable. -/
def execSetFeaturesDirtyBound (h : HstId) (cid : Nat) (s : State) : Outcome State Fault Refusal :=
  lift s (adminDo h.val cid false false fun d => adminEnd d h.val cid stNotChangeable 0)

/-- ASYNCHRONOUS_EVENT_REQUEST: held until a notice is posted on it; a notice that waits is posted at once. -/
def eventRequest (h cid : Nat) (d : Dev) : Dev :=
  let d := holdAdmin (d.updPort h fun p => { p with aers := p.aers ++ [cid] }) h
  match (d.port h).notices with
  | [] => d
  | n :: rest => postNotice (d.updPort h fun p => { p with notices := rest }) h n

def execAsynchronousEventRequest (h : HstId) (cid : Nat) (s : State) : Outcome State Fault Refusal :=
  lift s (adminDo h.val cid true false (eventRequest h.val cid))

end Sys2Proof.Machine
end

