-- ==== Sys2Proof/Machine/BusMap.lean ====
section
/-! DEFINITION. The control-plane address map (R445-R447): blocks and windows, their domains (R10), registers by offset, and the
access sets of BAR2 (R399). -/
namespace Sys2Proof.Machine

/-- What a base of R445 names: a block with its instance and, in an SSC pair, its unit; a scratch window, a control-store window or
a trace window. -/
inductive Area where
  | block (b : Block) (n unitNo : Nat)
  | scratch (g : Nat)
  | store (a : Nat)
  | trace (u : Nat)
  deriving DecidableEq, Repr

/-- The block or window of an address and the offset in it (R445). -/
def areaOf (addr : Nat) : Option (Area × Nat) :=
  let p := addr / 0x10000
  let off := addr % 0x10000
  let one (b : Block) (n : Nat) : Option (Area × Nat) := some (.block b n 0, off)
  if p = 0 then one .glb 0 else if p = 1 then one .pwr 0 else if p = 2 then one .thm 0 else if p = 3 then one .cal 0
  else if p = 4 then one .sec 0 else if p = 5 then one .dbg 0 else if p = 6 then one .evr 0 else if p = 7 then one .mgt 0
  else if p = 8 then one .xbr 0
  else if p = 0x10 ∨ p = 0x11 then one .hst (p - 0x10)
  else if 0x20 ≤ p ∧ p < 0x24 then one .lml (p - 0x20)
  else if p = 0x30 then one .mem 0 else if p = 0x31 then one .ecc 0
  else if p = 0x40 then one .cmp 0 else if p = 0x41 then one .cph 0
  else if p = 0x50 then one .map 0 else if p = 0x51 then one .ttb 0
  else if 0x52 ≤ p ∧ p < 0x56 then some (.scratch ((addr - 0x520000) / 0x8000), addr % 0x8000)
  else if 0x60 ≤ p ∧ p < 0x68 then one .sqr (p - 0x60)
  else if 0x70 ≤ p ∧ p < 0x80 then one .chn (p - 0x70)
  else if 0x80 ≤ p ∧ p < 0x88 then some (.block .ssc ((p - 0x80) / 2) (p % 2), off)
  else if 0x90 ≤ p ∧ p < 0x98 then one .psp (p - 0x90)
  else if 0x100 ≤ p ∧ p < 0x120 then some (.store ((p - 0x100) / 4), addr % 0x40000)
  else if 0x200 ≤ p ∧ p < 0x240 then some (.trace ((p - 0x200) / 8), addr % 0x80000)
  else none

/-- The power domain of an area (R10, R31). -/
def areaDom : Area → Nat
  | .scratch _ => 3
  | .store a => domChp a
  | .trace u => domSsc (u / 2)
  | .block b n _ =>
    match b with
    | .glb | .pwr | .thm | .evr | .mgt | .dbg => 0
    | .sec => 1
    | .cal => 2
    | .xbr | .cmp | .cph | .map | .ttb => 3
    | .hst => domHst n
    | .lml => domLml n
    | .mem | .ecc => 10
    | .sqr | .psp => domChp n
    | .chn => domChp (n / 2)
    | .ssc => domSsc n
    | .loop => 0

/-- What lies at an offset: a register entry with its instance, reserved space (LML1-LML3, R446), the Ocgoern mailbox or an SSC
coefficient store (R447), a window, or nothing. -/
inductive Place where
  | reg (r : Reg) (i k : Nat)
  | reserved
  | mailbox
  | coef
  | scratch (g : Nat)
  | store (a : Nat)
  | trace (u : Nat)
  | hole
  deriving DecidableEq, Repr

/-- The loop-back site whose LOOP register lies at an offset of a block, or whose LOOP_CNT does (second). -/
def loopSite (b : Block) (n off : Nat) : Option (Nat × Bool) :=
  let at' (base site : Nat) : Option (Nat × Bool) :=
    if off = base then some (site, false) else if off = base + 8 then some (site, true) else none
  match b with
  | .hst => at' 0x200 n
  | .lml => at' 0x300 (2 + n)
  | .mem => at' 0x20 6
  | .chn => at' 0xC00 (7 + n)
  | .psp => at' 0x100 (23 + n)
  | .ssc => if 0x498 ≤ off then at' 0x498 (35 + n) else at' 0x488 (31 + n)
  | _ => none

/-- The register entry at an aligned offset of a block. -/
def regAt (b : Block) (off : Nat) : Option (Reg × Nat) :=
  if b = .evr ∧ 0x1100 ≤ off ∧ off < 0x1400 ∧ 0x100 ≤ off % 0x200 then
    some (Reg.evrWindow, 32 * ((off - 0x1000) / 0x200) + off % 0x100 / 8)
  else
    ((Reg.ofBlock b).find? fun r => r != Reg.evrWindow && decide (r.off ≤ off) && (off - r.off) % r.stride == 0 &&
      decide ((off - r.off) / r.stride < r.cnt)).map fun r => (r, (off - r.off) / r.stride)

/-- What lies at an offset of an area (R446). [DESIGN CHOICE: assumption log 21, DEDUCED: assumption log 22] -/
def placeOf (a : Area) (off : Nat) : Place :=
  match a with
  | .scratch g => .scratch g
  | .store a => .store a
  | .trace u => .trace u
  | .block b n u =>
    let off8 := off / 8 * 8
    if b = .lml ∧ n ≠ 0 ∧ 0x800 ≤ off then .reserved
    else if b = .sec ∧ 0x100 ≤ off ∧ off < 0x1000 then .mailbox
    else if b = .ssc ∧ 0x8000 ≤ off ∧ off < 0xC000 then .coef
    else match loopSite b n off8 with
      | some (s, false) => .reg Reg.loop s 0
      | some (s, true) => .reg Reg.loopCnt s 0
      | none => match regAt b off8 with
        | some (r, k) => .reg r (if r.perUnit then 2 * n + u else n) k
        | none => .hole

/-- SEC and the coefficient stores, which neither BAR2 nor DBG reaches (R447). -/
def closedPlace (a : Area) (off : Nat) : Bool :=
  match a with
  | .block .sec _ _ => true
  | .block .ssc _ _ => decide (0x8000 ≤ off ∧ off < 0xC000)
  | _ => false

/-- BAR2 may make an access in a set: 1 C, 2 O, 3 I (R399). -/
def bar2Allows (set : Nat) (a : Area) (off : Nat) (isWrite : Bool) : Bool :=
  let open' : Bool := match a with
    | .block .evr _ _ | .block .sqr _ _ | .store _ | .scratch _ => true
    | .block .map _ _ => decide (0x10 ≤ off ∧ off < 0x20)
    | .block .cph _ _ => decide ((0x40 ≤ off ∧ off < 0x48) ∨ (0x100 ≤ off ∧ off < 0x150))
    | _ => false
  let shown : Bool := match a with
    | .block .glb _ _ | .block .pwr _ _ | .block .thm _ _ | .block .cal _ _ => true
    | _ => false
  if set = 0 || closedPlace a off then false
  else if open' then true
  else match set with
    | 1 => shown && !isWrite
    | 2 => !isWrite
    | _ => true

end Sys2Proof.Machine
end

