-- ==== Sys2Proof/Machine/Channel.lean ====
section
/-! DEFINITION. The read channel and the gate edges: what a gate command does at its moment, mark search and framing,
decoding, re-decoding and held samples (R191-R193, R202-R228). -/
namespace Sys2Proof.Machine

open Host (Outcome)

/-- Result of R193 for a command at its edge: let through, refused with a clamp stop (and the SQR_CLAMP bits), or a gate
conflict. -/
inductive GateVerdict where
  | pass
  | clamp (bits : List Fld)
  | conflict
  deriving DecidableEq, Repr

/-- The cases of R193: the clamp cases, each with its SQR_CLAMP bit, then the gate conflicts.  A gate the same command opens counts as
open at its edge, one it closes as closed (assumption log 12). -/
def gateVerdict (d : Dev) (c : Nat) (g : GateCmd) : GateVerdict :=
  let ch := d.chn c
  let a := c / 2
  let covered := (d.seq a).permit.any (fun ct => ct.1 == c)
  let opensWrite := g.wg == 1 || g.ag == 1
  let why := (if opensWrite && !covered then [F.sqrClamp_no_permit] else [])
    ++ (if g.wg == 1 && !d.flag F.chnWstat_wlock c then [F.sqrClamp_no_lock] else [])
    ++ (if opensWrite && g.cust && inLocker d a ch.track then [F.sqrClamp_locker] else [])
  if !why.isEmpty then .clamp why
  else if (g.rg == 1 || g.sw == 1) && (g.wg == 1 || ch.wg && g.wg != 2) then .conflict
  else if g.wg == 1 && ch.rg && g.rg != 2 then .conflict
  else if g.sw == 1 && !(g.rg == 1 || ch.rg && g.rg != 2) then .conflict
  else .pass

/-- The read gate opens (R204, R206, R207): the timing loop takes its preset and starts in acquisition mode, the gains are
acquired, and the taps of the task's head are loaded. -/
def openReadGate (d : Dev) (c : Nat) (g : GateCmd) : Dev :=
  let d := (presetLoop d c).setFlag F.chnStat_timing_lock false c
  d.updChn c fun ch =>
    { ch with rg := true, rgPlace := place (g.wedge, g.pos), rgAt := g.moment, gain := .acquiring, acq := true,
              taps := (List.range 48).map fun k => d.rdInt F.chnEq_tap c (chnHead d c * 48 + k) }

/-- The read gate closes: of a sector not yet at its last parity symbol the symbols from here on are erased (R213).
[DEDUCED: assumption log 102] -/
def closeReadGate (d : Dev) (c : Nat) (g : GateCmd) : Dev :=
  let at' := symbolAt (payloadOf d (c / 2) (taskTrack d c)) g.wedge g.pos
  let d := forEach ((d.chn c).entries.filter fun e => !e.lastParity) d fun d e =>
    updEntry (countErased d c e.erased true) c e.seq fun x =>
      { x with erased := true, hi := min x.hi (at' - x.sector * slotSymbols) }
  shutRead d c

/-- Held sectors given up, oldest first, until `need` samples fit beside the undecoded ones (R218). [DEDUCED: assumption log 98] -/
def makeRoom (need : Nat) (undecoded : Nat) : List SectorEntry → List SectorEntry
  | [] => []
  | e :: t => if undecoded + ((e :: t).map (·.samples)).sum + need ≤ 524288 then e :: t else makeRoom need undecoded t

/-- A sync-search window opens a sector entry (R188, R218); where its samples would overwrite a sector whose decode has
not ended it ends with status overrun (R219). [DEDUCED: assumption log 98] -/
def openWindow (d : Dev) (c : Nat) (g : GateCmd) : Dev :=
  let ch := d.chn c
  let p := payloadOf d (c / 2) (taskTrack d c)
  let n := entrySamples (d.rd F.chnTloop_preset c)
  let undec := ((ch.entries.filter fun e => !e.dec).map (·.samples)).sum
  let slot := place (locate p g.sector 0)
  let late := decide (g.moment < ch.rgAt + (place (g.wedge, g.pos) - slot))
  let exceeds := decide (524288 < undec + n)
  let opened := symbolAt p g.wedge g.pos - g.sector * slotSymbols
  let e : SectorEntry :=
    { seq := ch.nextSeq, sector := g.sector, samples := if exceeds then 0 else n, opened := opened,
      lo := if late then symbolAt p (ch.rgPlace / pusPerWedge) (ch.rgPlace % pusPerWedge) - g.sector * slotSymbols else 0,
      start := (opened : Int) + 128, reader := readerMode d c, erased := late,
      dec := exceeds, status := if exceeds then 3 else 0, released := exceeds }
  let kept := (ch.entries.filter fun e => e.dec && !e.released).map (·.samples) |>.sum
  let d := d.updChn c fun ch =>
    { ch with sw := true, gain := .acquiring, acq := true, nextSeq := (ch.nextSeq + 1) % 65536, entries := ch.entries ++ [e],
              held := if exceeds then ch.held else makeRoom n (undec + kept) ch.held }
  let d := countErased d c false late
  if exceeds then
    reportResult ((d.setFlag F.chnStat_overrun_seen true c).addWrap F.chnCnt_count 1 c 5) c e 0 0 0 e.reader false
  else d

/-- The assist opens (R235-R237): the level in force is approached from the applied one, the first ag open of a head sets
it directly; an STO boost above assist_max is lowered. [DEDUCED: assumption log 103] -/
def openAssist (d : Dev) (c : Nat) (g : GateCmd) : Dev :=
  let h := chnHead d c
  let d := d.wr F.chnApplied_target g.level c h
  let d := if (d.chn c).wroteHeads.contains h then d
    else (d.wr F.chnApplied_applied g.level c h).updChn c fun ch => { ch with wroteHeads := h :: ch.wroteHeads }
  let exceeds := decide (d.rd F.sqrGeom_assist_max (c / 2) * 100 < d.rd F.chnApplied_applied c h * (100 + d.rd F.chnAssist_boost c h))
  let d := if d.hdaAssist (c / 4) == 2 && exceeds then d.setFlag F.chnWstat_boost_clamped true c else d
  let d := setCause d c 7 false
  (d.setFlag F.chnWstat_assist_ok false c).updChn c fun ch => { ch with ag := true, monGood := 0, monBad := 0 }

/-- The assist closes. -/
def closeAssist (d : Dev) (c : Nat) : Dev :=
  (d.setFlag F.chnWstat_assist_ok false c).updChn c fun ch => { ch with ag := false, monGood := 0, monBad := 0 }

/-- The write gate opens (R231): with no whole sector ready the slot has no data and gate and assist close; an open gate
without write clock lock, settled assist or settled heater is unsafe (R240). -/
def openWriteGate (d : Dev) (c : Nat) (g : GateCmd) : Dev :=
  if (d.chn c).fifo.isEmpty then
    closeWrite (writeResult (closeAssist d c) c g.sector 2) c
  else
    let d := (d.updChn c fun ch => { ch with wg := true, nextSlot := some g.sector }).emit
      (.writeGate c true (gateOpensAt g.wedge g.pos))
    let d := if d.flag F.chnWstat_wlock c then d else setCause d c 4 true
    let d := if (d.chn c).wg && !d.flag F.chnWstat_assist_ok c then setCause d c 5 true else d
    let d := if (d.chn c).wg && !d.flag F.chnWstat_fly_ok c then setCause d c 6 true else d
    if (d.chn c).wg && d.rd F.chnWstat_unsafe_now c != 0 then closePermitOf (closeWrite d c) c else d

/-- The write gate closes by command: the sector being written is whole where its postamble has ended (R241).
[DEDUCED: assumption log 107] -/
def closeWriteGate (d : Dev) (c : Nat) (g : GateCmd) : Dev :=
  let ch := d.chn c
  let p := payloadOf d (c / 2) (taskTrack d c)
  let d := match ch.writing with
    | some w => if place (locate p w.1 37520) ≤ place (g.wedge, g.pos) then finishSlot d c else d
    | none => d
  (endWrite d c).emit (.writeGate c false (gateClosesAt g.wedge g.pos))

/-- A command let through at its edge: its closes, then its opens, all at this edge (R192). -/
def applyGate (d : Dev) (c : Nat) (g : GateCmd) : Dev :=
  let d := if g.sw == 2 then d.updChn c fun ch =>
      { ch with sw := false, gain := if ch.rg then .frozen else ch.gain } else d
  let d := if g.wg == 2 && (d.chn c).wg then closeWriteGate d c g else d
  let d := if g.ag == 2 then closeAssist d c else d
  let d := if g.rg == 2 && (d.chn c).rg then closeReadGate d c g else d
  let d := if g.sg == 1 then d.updChn c fun ch => { ch with sgSearch := true }
    else if g.sg == 2 then d.updChn c fun ch => { ch with sgSearch := false } else d
  let d := if g.rg == 1 then openReadGate d c g else d
  let d := if g.sw == 1 then openWindow d c g else d
  let d := if g.ag == 1 then openAssist d c g else d
  let d := if g.wg == 1 then openWriteGate d c g else d
  let ch := d.chn c
  d.emit (.gates c ch.rg ch.wg ch.ag)

/-- The first command of a channel's queue takes effect once its moment has come (R192); none does while the channel's clock is
lost (R30). [DEDUCED: assumption log 12] -/
def gateEdge (c time : Nat) (d : Dev) : Dev :=
  match (d.chn c).queue with
  | [] => d
  | g :: rest =>
    if time < g.moment ∨ chnLost d c then d
    else
      let d := d.updChn c fun ch => { ch with queue := rest }
      let d := match gateVerdict d c g with
        | .pass => applyGate d c g
        | .clamp bits => seqStop (forEach bits d fun d b => d.setFlag b true (c / 2)) (c / 2) 6 0
        | .conflict => seqStop (closeReadGate (closeWrite d c) c g) (c / 2) 9 0
      syncChn d c

/-- GATE_EDGE (R192). -/
def execGateEdge (chn : ChnId) (time : Nat) (s : State) : Outcome State Fault Refusal :=
  lift s (gateEdge chn.val time)

/-- The primary mark of the sector whose window is open (R222): the first position within the distance limit, an erased symbol
of it never matching (R212); framing resolves at once (R224), the gain is frozen (R206) and acquisition has ended (R204).
[DEDUCED: assumption log 97] -/
def primarySync (c pos dist : Nat) (lock : Bool) (xs : List Defect) (d : Dev) : Dev :=
  let ch := d.chn c
  match ch.entries.getLast? with
  | none => d
  | some e =>
    if ch.sw && e.primPos.isNone && !e.resyncEnded then
      let d := seeDefects d c e.seq xs
      let e := (((d.chn c).entries.find? fun x => x.seq == e.seq).getD e)
      if decide (max dist (erasedIn e (e.opened + pos) 32) ≤ d.rd F.chnSync_prim_thresh c) then
        ((updEntry d c e.seq fun x =>
            { x with primPos := some pos, framed := true, framing := 1, start := ((x.opened + pos + 32 : Nat) : Int) }).updChn c
          fun ch => { ch with gain := .frozen, acq := false }).setFlag F.chnStat_timing_lock lock c
      else d
    else d

/-- PRIMARY_SYNC_FOUND (R222): position of the mark in symbols from the window's opening, its distance, whether the
timing loop is locked (R204), and the defects seen so far (R212). -/
def execPrimarySyncFound (chn : ChnId) (pos dist : Nat) (seen : SyncObs) (s : State) : Outcome State Fault Refusal :=
  lift s (primarySync chn.val pos dist seen.lock seen.defects)

/-- k calls for a re-framed decode (R224). -/
def reframes (d : Dev) (c : Nat) (e : SectorEntry) : Bool :=
  e.framing == 1 && decide (1 ≤ e.k.natAbs ∧ e.k.natAbs ≤ d.rd F.chnSync_reframe_max c)

/-- Iteration limit of a sector's on-the-fly decode (R224). -/
def decodeLimit (d : Dev) (c : Nat) (e : SectorEntry) : Nat :=
  if reframes d c e then d.rd F.chnDecode_reframe_iter c else d.rd F.chnDecode_max_iter c

/-- What the end of the resync search leaves in the entry (R223, R224); an erased symbol of the mark never matches (R212).
[DEDUCED: assumption log 97] -/
def resyncEntry (d : Dev) (c : Nat) (hit : Option (Nat × Nat × Bool)) (e : SectorEntry) : SectorEntry :=
  let expected : Int := match e.primPos with
    | some q => q + 16416
    | none => 16512
  let hit := match hit with
    | some (pos, dist, poisoned) =>
      if decide (max dist (erasedIn e (e.opened + pos) 16) ≤ d.rd F.chnSync_resync_thresh c)
          && decide (((pos : Int) - expected).natAbs ≤ d.rd F.chnSync_resync_span c)
      then some ((pos : Int) - expected, poisoned) else none
    | none => none
  match e.primPos, hit with
  | some _, some (k, poisoned) =>
    { e with resyncEnded := true, k := k, poison := poisoned,
             resyncBad := decide (d.rd F.chnSync_reframe_max c < k.natAbs) }
  | some _, none => { e with resyncEnded := true }
  | none, some (k, poisoned) =>
    { e with resyncEnded := true, framed := true, framing := 2, poison := poisoned,
             start := (e.opened : Int) + 16512 + k - 16384 }
  | none, none =>
    if e.status = 3 then { e with resyncEnded := true }
    else { e with resyncEnded := true, dec := true, ok := false, status := 2 }

/-- The reader amplitudes of a sector (R206, R209): 16 weak sectors in a row on one head declare the reader faulty. -/
def readerCheck (c amp0 amp1 : Nat) (d : Dev) : Dev :=
  let h := chnHead d c
  let weak := if amp0 * 4 < amp1 then 1 else if amp1 * 4 < amp0 then 2 else 0
  let prev := tabGet 0 (d.chn c).weak h
  let n := if weak = 0 then 0 else if prev / 32 = weak then prev % 32 + 1 else 1
  let d := d.updChn c fun ch => { ch with weak := tabPut 0 ch.weak h (if n = 0 then 0 else weak * 32 + min n 16) }
  if n < 16 then d
  else if weak = 1 then d.setFlag F.chnSkew_fault_0 true c h
  else d.setFlag F.chnSkew_fault_1 true c h

/-- The resync search of the oldest entry that still runs one ends (R223): the readers' settled amplitudes are recorded (R206) and
judged (R209) whatever becomes of the sector; with both marks missed it ends (R224) and counts in CHN_CNT_6.
[DEDUCED: assumption log 102] -/
def resyncEnd (c : Nat) (hit : Option (Nat × Nat × Bool)) (lock : Bool) (amp0 amp1 : Nat) (xs : List Defect) (d : Dev) : Dev :=
  match (d.chn c).entries.find? (fun e => !e.resyncEnded) with
  | none => d
  | some e =>
    let d := seeDefects (updEntry d c e.seq fun x => { x with amps := (amp0, amp1) }) c e.seq xs
    let e := (((d.chn c).entries.find? fun x => x.seq == e.seq).getD e)
    let e' := resyncEntry d c hit e
    let d := updEntry d c e.seq fun _ => e'
    let d := readerCheck c amp0 amp1 (d.updChn c fun ch => { ch with acq := false })
    let d := if e'.framing == 2 then d.setFlag F.chnStat_timing_lock lock c else d
    if e'.status = 2 && !e.dec then
      syncChn (reportResult (d.addWrap F.chnCnt_count 1 c 6) c e' 0 0 0 e'.reader false) c
    else d

/-- RESYNC_SEARCH_END (R223): the nearest match as (position in symbols from the window's opening, distance, poisoned
pattern), or none; the settled preamble amplitudes of the readers (R206) and the defects seen so far (R212). -/
def execResyncSearchEnd (chn : ChnId) (hit : Option (Nat × Nat × Bool)) (seen : ResyncObs) (s : State) :
    Outcome State Fault Refusal :=
  lift s (resyncEnd chn.val hit seen.lock seen.amp0 seen.amp1 seen.defects)

/-- A sector's last parity symbol: its decode takes its place in the order (R215); a running re-decode is abandoned and
will start again (R228). [DEDUCED: assumption log 102] -/
def lastParity (c : Nat) (xs : List Defect) (d : Dev) : Dev :=
  match (d.chn c).entries.find? (fun e => !e.lastParity) with
  | none => d
  | some e =>
    let d := seeDefects d c e.seq xs
    let d := d.updChn c fun ch =>
      { ch with entries := listMapIf (fun x => x.seq == e.seq) (fun x => { x with lastParity := true }) ch.entries,
                acq := false,
                redecode := if e.dec then ch.redecode else ch.redecode.map fun r => { r with restart := true } }
    syncChn d c

/-- SECTOR_LAST_PARITY (R215), with the defects seen in the rest of the sector (R212). -/
def execSectorLastParity (tail : SectorTail) (s : State) : Outcome State Fault Refusal :=
  lift s (lastParity tail.chn.val tail.defects)

/-- How an entry is decoded: the reader mode, the marked spans, the symbol of codeword bit 0, the target and whether the
alternate taps of step 1 equalise it (R207, R224, R225, R227). -/
structure DecodeMode where
  reader : Nat
  spans : List (Nat × Nat × Nat)
  start : Int
  alt : Bool
  deriving DecidableEq, Repr

/-- The symbol of the slot that carries codeword bit `i` (R179). -/
def bitSymbol (m : DecodeMode) (i : Nat) : Int := m.start + ((if i < 16384 then i else i + 16 : Nat) : Int)

/-- The scrambling sequence of an entry: track and sector of the location read (R210). -/
def entryScramble (d : Dev) (c : Nat) (e : SectorEntry) : List Bool :=
  scramble 37248 (BitVec.ofNat 23 (scramblerSeed (taskTrack d c) e.sector))

/-- The LLRs that a detector pass delivers (R211): limited to ±31, the sign flipped where the scrambling bit is 1, and 0 where the
symbol is erased (R212, R213). [DEDUCED: assumption log 97] -/
def deliveredLlr (e : SectorEntry) (m : DecodeMode) (scr : List Bool) (raw : List Int) : List Int :=
  (List.range 37248).map fun i =>
    if symbolErased e m.reader m.spans (bitSymbol m i) then 0
    else
      let x := satLlr ((raw[i]?).getD 0)
      if (scr[i]?).getD false then -x else x

/-- The hard decision of an LLR (R217); of an erased symbol the spec states none: a free value (assumption log 102). -/
def hardDecision (i : Nat) (x : Int) : Bool := if x = 0 then Config.erasedDecision i else decide (x < 0)

/-- errs of R217: the bits in which the descrambled hard decisions of the first pass differ from the codeword. -/
def decodeErrs (d : Dev) (c : Nat) (e : SectorEntry) (m : DecodeMode) (res : DecodeRes) : Nat :=
  let llr := deliveredLlr e m (entryScramble d c e) (res.llr.headD [])
  ((List.range 37248).filter fun i => hardDecision i ((llr[i]?).getD 0) != res.word.testBit i).length

/-- A decode is accepted: within its limit every parity check is satisfied (R214, R215). [DEDUCED: assumption log 97] -/
def decodeOk (limit : Nat) (res : DecodeRes) : Bool := decide (res.iters ≤ limit) && ldpcAccepts res.word.testBit

/-- Iterations a decode used (R215): those to its acceptance, or all of its limit. -/
def usedIters (limit : Nat) (res : DecodeRes) : Nat := if decodeOk limit res then res.iters else limit

/-- The result of a decode belongs to it: one list of detector values for each pass (R211). [DEDUCED: assumption log 97] -/
def decodeFits (d : Dev) (c limit : Nat) (res : DecodeRes) : Bool :=
  res.llr.length == detectorPasses (usedIters limit res) (d.rd F.chnDecode_pass_len c)

/-- Tap `k` of reader `r`: of the set loaded at read-gate open, or of the alternate set (R207, R227). -/
def tapOf (d : Dev) (c : Nat) (m : DecodeMode) (r k : Nat) : Int :=
  if m.alt then d.rdInt F.chnEqAlt_tap c (24 * r + k) else (((d.chn c).taps)[24 * r + k]?).getD 0

/-- Sample of reader `r` at codeword bit `n`, coarse delay taken off (R207). [DESIGN CHOICE: assumption log 100] -/
def delayedSample (d : Dev) (c r : Nat) (xs : List (Int × Int)) (n : Int) : Int :=
  let delay := if r = 0 then d.rd F.chnSkew_delay_0 c (chnHead d c) else d.rd F.chnSkew_delay_1 c (chnHead d c)
  let i := n - (delay : Int)
  if i < 0 then 0 else match xs[i.toNat]? with
    | some x => if r = 0 then x.1 else x.2
    | none => 0

/-- The joint equaliser's sample at codeword bit `n` in 1/64 of a reader sample (R207): both readers' 24-tap filters, tap 8 at
the bit itself, summed; a reader out of use, or whose span covers the symbol (R212), adds nothing. [DESIGN CHOICE: assumption log 100] -/
def equalised (d : Dev) (c : Nat) (m : DecodeMode) (xs : List (Int × Int)) (n : Nat) : Int :=
  let used (r : Nat) : Bool :=
    (m.reader == 0 || m.reader == r + 1)
      && !(m.spans.any fun x => x.1 == r && decide ((x.2.1 : Int) ≤ bitSymbol m n ∧ bitSymbol m n < (x.2.2 : Int)))
  let filter (r : Nat) : Int :=
    ((List.range 24).map fun k => tapOf d c m r k * delayedSample d c r xs ((n : Int) + 8 - (k : Int))).foldl (· + ·) 0
  (if used 0 then filter 0 else 0) + (if used 1 then filter 1 else 0)

/-- The target's sample at codeword bit `n` for the bits written, ±1 each, in 1/32 (R207): 1 + g1·D + g2·D². -/
def targetSample (d : Dev) (c : Nat) (alt : Bool) (written : Nat → Bool) (n : Nat) : Int :=
  let g1 := if alt then d.rdInt F.chnTarget_alt_g1 c else d.rdInt F.chnTarget_g1 c
  let g2 := if alt then d.rdInt F.chnTarget_alt_g2 c else d.rdInt F.chnTarget_g2 c
  let a (k : Nat) : Int := if n < k then 0 else if written (n - k) then 1 else -1
  32 * a 0 + g1 * a 1 + g2 * a 2

/-- The correlation of the equaliser's error against the decoded codeword with a tap's sample over the sector (R208): what
least mean squares moves the tap against.  `Config.targetUnit` is the reader sample of a target value 1, which the spec does not
give (assumption log 100). -/
def tapGradient (d : Dev) (c : Nat) (m : DecodeMode) (scr : List Bool) (res : DecodeRes) (r k : Nat) : Int :=
  let written (i : Nat) : Bool := xor (res.word.testBit i) ((scr[i]?).getD false)
  ((List.range res.samples.length).map fun n =>
    (equalised d c m res.samples n * 32 - (Config.targetUnit : Int) * 64 * targetSample d c m.alt written n)
      * delayedSample d c r res.samples ((n : Int) + 8 - (k : Int))).foldl (· + ·) 0

/-- One tap after a sector (R208): moved by 1 LSB against its gradient or left, which of the two is a free value, the step size
being given nowhere (assumption log 2). [DESIGN CHOICE: assumption log 100] -/
def adaptTap (c h : Nat) (m : DecodeMode) (scr : List Bool) (res : DecodeRes) (old : Dev) (d : Dev) (j : Nat) : Dev :=
  let (v, d) := d.draw
  let g := tapGradient old c m scr res (j / 24) (j % 24)
  let t := d.rdInt F.chnEq_tap c (h * 48 + j)
  let t := if v % 2 = 0 ∨ g = 0 then t else if g < 0 then t + 1 else t - 1
  d.wrInt F.chnEq_tap (max (-128) (min 127 t)) c (h * 48 + j)

/-- The 48 taps of the head in use adapt after a step 0 decode of a sector read in joint mode while adapt_en is 1 (R208).
[DESIGN CHOICE: assumption log 100] -/
def adaptTaps (c : Nat) (e : SectorEntry) (m : DecodeMode) (res : DecodeRes) (d : Dev) : Dev :=
  if d.flag F.chnCtl_adapt_en c && e.reader == 0 then
    forEach (List.range 48) d (adaptTap c (chnHead d c) m (entryScramble d c e) res d)
  else d

/-- A decode that ended: the entry's result, its counts, its delivery to MED (the 4,096 bytes, with poison on every beat where the
resync pattern was the poisoned one) and the release of its samples (R215-R218). [DEDUCED: assumption log 102] -/
def finishDecode (d : Dev) (c : Nat) (e : SectorEntry) (m : DecodeMode) (limit : Nat) (res : DecodeRes) (ok : Bool)
    (framing : Nat) : Dev :=
  let e' : SectorEntry :=
    { e with dec := true, ok := ok, reframing := false, status := if ok then 0 else 1, framing := framing, released := ok }
  let d := updEntry d c e.seq fun _ => e'
  let iters := usedIters limit res
  let errs := decodeErrs d c e m res
  let d := reportResult d c e' iters errs 0 e.reader false
  let d := d.addWrap F.chnCnt_count 1 c (if ok then 0 else 1)
  let low := decide (d.rd F.chnMargin_rw_bits c < errs) || decide (d.rd F.chnMargin_rw_iters c < iters)
  let d := if ok && low then cardBin d (ckErr + 11 * zoneClass d (c / 2) (taskTrack d c)) 1 else d
  let d := if ok && framing == 3 then d.addWrap F.chnCnt_count 1 c 2 else d
  let d := if ok && framing == 2 then d.addWrap F.chnCnt_count 1 c 3 else d
  let d := if ok then (adaptTaps c e m res d).emit (.sector c e.seq e.sector (wordBytes res.word) e.poison) else d
  syncChn d c

/-- A decode takes its turn: the entry is the first or second in the order of last symbols (R215). -/
def inDecoder (ch : Chn) (seq : Nat) : Option SectorEntry :=
  ((decodeWaiting ch).take 2).find? (fun e => e.seq == seq)

/-- The decode of an entry as its framing and reader have it (R224, R225). -/
def entryMode (e : SectorEntry) : DecodeMode :=
  { reader := e.reader, spans := e.spans, start := if e.reframing then e.start + e.k else e.start, alt := false }

/-- Symbols whose samples came poisoned, on either reader. -/
def lostSpans (res : DecodeRes) : List (Nat × Nat × Nat) :=
  (res.lost.filter fun x => errPoisons x.1).flatMap fun x => [(0, x.2), (1, x.2)]

/-- The read of an entry's samples met memory errors (R342): they count, and poisoned samples are erased on both readers (R213). -/
def loseSamples (d : Dev) (c : Nat) (e : SectorEntry) (res : DecodeRes) : SectorEntry × Dev :=
  let spans := lostSpans res
  let e' := { e with spans := e.spans ++ spans, erased := e.erased || !spans.isEmpty }
  let d := forEach res.lost d fun d x => memError d { x.1 with mac := 288 + c }
  (e', updEntry (countErased d c e.erased e'.erased) c e.seq fun _ => e')

/-- The on-the-fly decode of a sector ends: accepted, or left to a re-framed decode where k calls for one, or failed.
[DEDUCED: assumption log 97] -/
def decodeDone (c seq : Nat) (res : DecodeRes) (d : Dev) : Dev :=
  match inDecoder (d.chn c) seq with
  | none => d
  | some e =>
    let limit := decodeLimit d c e
    if e.reframing || !decodeFits d c limit res then d
    else
    let (e, d) := loseSamples d c e res
    if decodeOk limit res then finishDecode d c e (entryMode e) limit res true e.framing
    else if reframes d c e then updEntry d c e.seq fun x => { x with reframing := true }
    else finishDecode d c e (entryMode e) limit res false e.framing

/-- DECODE_DONE (R215). -/
def execDecodeDone (chn : ChnId) (seq : Nat) (res : DecodeRes) (s : State) : Outcome State Fault Refusal :=
  lift s (decodeDone chn.val seq res)

/-- A re-framed decode ends (R225): success reports framing 3, failure fails the sector. -/
def reframedDone (c seq : Nat) (res : DecodeRes) (d : Dev) : Dev :=
  match inDecoder (d.chn c) seq with
  | none => d
  | some e =>
    let limit := d.rd F.chnDecode_max_iter c
    if !e.reframing || !decodeFits d c limit res then d
    else
      let ok := decodeOk limit res
      let (e, d) := loseSamples d c e res
      finishDecode d c e (entryMode e) limit res ok (if ok then 3 else e.framing)

/-- REFRAMED_DECODE_DONE (R225). -/
def execReframedDecodeDone (chn : ChnId) (seq : Nat) (res : DecodeRes) (s : State) : Outcome State Fault Refusal :=
  lift s (reframedDone chn.val seq res)

/-- Samples of a sequence number are held: a held sector, or a failed one not yet acknowledged (R218). -/
def samplesHeld (ch : Chn) (seq : Nat) : Option SectorEntry :=
  match ch.held.find? (fun e => e.seq == seq) with
  | some e => some e
  | none => ch.entries.find? (fun e => e.seq == seq && e.dec && !e.ok && !e.released)

/-- A CHN_REDECODE request (R228): ignored while one is busy, refused where the samples are not held; variant 5 releases
the samples at once, the others wait for idle decoders; none begins while the channel's clock is lost (R30). [DEDUCED: assumption log 64 and 101] -/
def redecodeStart (c seq variant : Nat) (d : Dev) : Dev :=
  let d := (d.wr F.chnRedecode_seq seq c).wr F.chnRedecode_variant variant c
  if d.flag F.chnRedecode_busy c || chnLost d c then d
  else
    match samplesHeld (d.chn c) (seq % 65536) with
    | none => d.setFlag F.chnRedecode_refused true c
    | some e =>
      if variant = 5 then
        syncChn ((d.updChn c fun ch =>
          { ch with held := ch.held.filter fun x => x.seq != e.seq,
                    entries := listMapIf (fun x => x.seq == e.seq) (fun x => { x with released := true }) ch.entries }).setFlag
          F.chnRedecode_done true c) c
      else
        syncChn ((d.updChn c fun ch =>
          { ch with redecode := some ⟨e.seq, variant, !(decodeWaiting ch).isEmpty⟩ }).setFlag F.chnRedecode_busy true c) c

/-- REDECODE_ALT_SET (R228). -/
def execRedecodeAltSet (chn : ChnId) (seq : Nat) (s : State) : Outcome State Fault Refusal :=
  lift s (redecodeStart chn.val seq 1)

/-- REDECODE_HALVED_THRESHOLDS (R228). -/
def execRedecodeHalvedThresholds (chn : ChnId) (seq : Nat) (s : State) : Outcome State Fault Refusal :=
  lift s (redecodeStart chn.val seq 2)

/-- REDECODE_READER0 (R228). -/
def execRedecodeReader0 (chn : ChnId) (seq : Nat) (s : State) : Outcome State Fault Refusal :=
  lift s (redecodeStart chn.val seq 3)

/-- REDECODE_READER1 (R228). -/
def execRedecodeReader1 (chn : ChnId) (seq : Nat) (s : State) : Outcome State Fault Refusal :=
  lift s (redecodeStart chn.val seq 4)

/-- RELEASE_SAMPLES (R218). -/
def execReleaseSamples (chn : ChnId) (seq : Nat) (s : State) : Outcome State Fault Refusal :=
  lift s (redecodeStart chn.val seq 5)

/-- Ladder step of a re-decode variant (R227): 1, 2, and 3 for either reader. -/
def redecodeStep (variant : Nat) : Nat := if variant = 1 then 1 else if variant = 2 then 2 else 3

/-- How a re-decode variant works on held samples (R227): 1 alternate taps and target, 2 halved defect thresholds, 3 and 4 one
reader alone. -/
def redecodeMode (d : Dev) (c : Nat) (r : Redecode) (e : SectorEntry) (res : DecodeRes) : DecodeMode :=
  { reader := if r.variant = 3 then 1 else if r.variant = 4 then 2 else e.reader,
    spans := if r.variant = 2 then defectSpans d c true e ++ lostSpans res else e.spans,
    start := if e.framing = 3 then e.start + e.k else e.start, alt := r.variant == 1 }

/-- A re-decode ends (R228): only while no sector waits for a decoder; its result is reported and its samples go on
success. [DEDUCED: assumption log 101] -/
def redecodeDone (c : Nat) (res : DecodeRes) (d : Dev) : Dev :=
  match (d.chn c).redecode with
  | none => d
  | some r =>
    if !(decodeWaiting (d.chn c)).isEmpty then d
    else
      match samplesHeld (d.chn c) r.seq with
      | none => syncChn (((d.updChn c fun ch => { ch with redecode := none }).setFlag F.chnRedecode_busy false c).setFlag
          F.chnRedecode_done true c) c
      | some e =>
        let limit := d.rd F.chnDecode_max_iter c
        if !decodeFits d c limit res then d
        else
        let (e, d) := loseSamples d c e res
        let m := redecodeMode d c r e res
        let ok := decodeOk limit res
        let e' := { e with ok := ok, status := if ok then 0 else 1, erased := e.erased || !m.spans.isEmpty, released := ok }
        let d := countErased d c e.erased e'.erased
        let d := reportResult d c e' (usedIters limit res) (decodeErrs d c e m res) (redecodeStep r.variant) m.reader false
        let d := d.addWrap F.chnCnt_count 1 c (if ok then 0 else 1)
        let d := d.updChn c fun ch =>
          { ch with redecode := none,
                    held := if ok then ch.held.filter fun x => x.seq != e.seq else ch.held,
                    entries := listMapIf (fun x => x.seq == e.seq) (fun _ => e') ch.entries }
        let d := (d.setFlag F.chnRedecode_busy false c).setFlag F.chnRedecode_done true c
        let d := if ok then d.emit (.sector c e.seq e.sector (wordBytes res.word) e.poison) else d
        syncChn d c

/-- REDECODE_DONE (R228). -/
def execRedecodeDone (chn : ChnId) (res : DecodeRes) (s : State) : Outcome State Fault Refusal :=
  lift s (redecodeDone chn.val res)

end Sys2Proof.Machine
end

