-- ==== Sys2Proof/Machine/Deflate.lean ====
section
/-! DEFINITION. DEFLATE (RFC 1951) as the engines write and read it (R144, R156 check 5): decoding of a stream over a history, and what an
engine's own choice of blocks keeps to. -/
namespace Sys2Proof.Machine

/-- The bits of bytes, least significant first. -/
def bitsOf (b : List Byte) : List Bool := b.flatMap fun x => (List.range 8).map fun i => x.getLsbD i

/-- A number of `n` bits, least significant first. -/
def takeNum : Nat → List Bool → Option (Nat × List Bool)
  | 0, bs => some (0, bs)
  | _ + 1, [] => none
  | n + 1, b :: bs => (takeNum n bs).map fun r => (b.toNat + 2 * r.1, r.2)

/-! ### Huffman codes -/

/-- The first code of each length of a canonical code (RFC 1951 section 3.2.2). -/
def firstCode (lens : List Nat) : Nat → Nat
  | 0 => 0
  | n + 1 => (firstCode lens n + (if n = 0 then 0 else (lens.filter fun l => l == n).length)) * 2

/-- A canonical code as length, code and symbol. -/
def codeTable (lens : List Nat) : List (Nat × Nat × Nat) :=
  (List.range 15).flatMap fun k =>
    ((lens.zipIdx.filter fun l => l.1 == k + 1).zipIdx).map fun s => (k + 1, firstCode lens (k + 1) + s.2, s.1.2)

/-- Code lengths form a complete code, or name at most one symbol. -/
def codeComplete (lens : List Nat) : Bool :=
  (lens.map fun l => if l = 0 then 0 else 2 ^ (15 - l)).sum == 2 ^ 15 || decide ((lens.filter fun l => l != 0).length ≤ 1)

/-- The next symbol of a code: at most 15 bits, the most significant first. -/
def takeSym (t : List (Nat × Nat × Nat)) : Nat → Nat → Nat → List Bool → Option (Nat × List Bool)
  | 0, _, _, _ => none
  | _ + 1, _, _, [] => none
  | fuel + 1, len, code, b :: bs =>
    match t.find? fun e => e.1 == len + 1 && e.2.1 == 2 * code + b.toNat with
    | some e => some (e.2.2, bs)
    | none => takeSym t fuel (len + 1) (2 * code + b.toNat) bs

def fixedLit : List Nat :=
  List.replicate 144 8 ++ List.replicate 112 9 ++ List.replicate 24 7 ++ List.replicate 8 8
def fixedDist : List Nat := List.replicate 32 5

/-- Base and extra bits of the length symbols from 257 on, and of the distance symbols. -/
def lengthSym (s : Nat) : Nat × Nat :=
  if s < 265 then (s - 254, 0)
  else if s = 285 then (258, 0)
  else
    let e := (s - 261) / 4
    ((4 + (s - 261) % 4) * 2 ^ e + 3, e)
def distSym (s : Nat) : Nat × Nat :=
  if s < 4 then (s + 1, 0)
  else
    let e := (s - 2) / 2
    ((2 + s % 2) * 2 ^ e + 1, e)

/-! ### Blocks -/

/-- A match copied: `out` holds history and output, the newest byte first. -/
def copyMatch (dist : Nat) : Nat → List Byte → List Byte
  | 0, out => out
  | n + 1, out => copyMatch dist n (out.getD (dist - 1) 0 :: out)

/-- The symbols of a block up to its end: the remaining bits, the output, and the bits the fixed code would take for them. -/
def inflateSyms (lit dist : List (Nat × Nat × Nat)) : Nat → List Bool → List Byte → Nat → Option (List Bool × List Byte × Nat)
  | 0, _, _, _ => none
  | fuel + 1, bs, out, cost =>
    match takeSym lit 15 0 0 bs with
    | none => none
    | some (s, bs) =>
      let own := fixedLit.getD s 0
      if s < 256 then inflateSyms lit dist fuel bs (BitVec.ofNat 8 s :: out) (cost + own)
      else if s = 256 then some (bs, out, cost + own)
      else if 285 < s then none
      else
        let l := lengthSym s
        match takeNum l.2 bs with
        | none => none
        | some (lx, bs) =>
          match takeSym dist 15 0 0 bs with
          | none => none
          | some (ds, bs) =>
            let m := distSym ds
            match takeNum m.2 bs with
            | none => none
            | some (dx, bs) =>
              if 29 < ds ∨ out.length < m.1 + dx then none
              else inflateSyms lit dist fuel bs (copyMatch (m.1 + dx) (l.1 + lx) out) (cost + own + l.2 + 5 + m.2)

/-- The order of the code length codes (RFC 1951 section 3.2.7). -/
def lenOrder : List Nat := [16, 17, 18, 0, 8, 7, 9, 6, 10, 5, 11, 4, 12, 3, 13, 2, 14, 1, 15]

/-- `n` numbers of `w` bits. -/
def takeNums (w : Nat) : Nat → List Bool → Option (List Nat × List Bool)
  | 0, bs => some ([], bs)
  | n + 1, bs => match takeNum w bs with
    | none => none
    | some (v, bs) => (takeNums w n bs).map fun r => (v :: r.1, r.2)

/-- The code lengths of a dynamic block, newest first. -/
def takeLens (t : List (Nat × Nat × Nat)) (total : Nat) : Nat → List Bool → List Nat → Option (List Nat × List Bool)
  | 0, _, _ => none
  | fuel + 1, bs, acc =>
    if total = acc.length then some (acc, bs)
    else
      match takeSym t 15 0 0 bs with
      | none => none
      | some (s, bs) =>
        if s < 16 then takeLens t total fuel bs (s :: acc)
        else
          let w := if s = 16 then 2 else if s = 17 then 3 else 7
          let base := if s = 18 then 11 else 3
          match takeNum w bs, acc.head? with
          | none, _ => none
          | some (n, bs), prev =>
            if (s = 16 ∧ prev = none) ∨ total < acc.length + base + n then none
            else takeLens t total fuel bs (List.replicate (base + n) (if s = 16 then prev.getD 0 else 0) ++ acc)

/-- The two codes of a dynamic block. -/
def dynamicCodes (bs : List Bool) : Option (List Nat × List Nat × List Bool) :=
  match takeNum 14 bs with
  | none => none
  | some (v, bs) =>
    let hlit := v % 32 + 257
    let hdist := v / 32 % 32 + 1
    match takeNums 3 (v / 1024 + 4) bs with
    | none => none
    | some (ls, bs) =>
      let cl := (List.range 19).map fun s => ((lenOrder.zip ls).find? fun x => x.1 == s).elim 0 (·.2)
      if 286 < hlit ∨ !codeComplete cl then none
      else
        match takeLens (codeTable cl) (hlit + hdist) 320 bs [] with
        | none => none
        | some (acc, bs) =>
          let all := acc.reverse
          let lit := all.take hlit
          let dist := all.drop hlit
          if lit.getD 256 0 = 0 ∨ !codeComplete lit ∨ !codeComplete dist then none else some (lit, dist, bs)

/-- A block of a stream as decoded: 0 stored, 1 fixed, 2 dynamic; the bytes it gives, the bits it takes, those of a stored block and of a
fixed block with its symbols in its place. -/
structure BlockInfo where
  kind : Nat
  bytes : Nat
  bits : Nat
  stored : Nat
  fixed : Nat
  deriving DecidableEq, Repr

/-- A stored block after its three header bits: what remains, and the output. -/
def storedBlock (bs : List Bool) (out : List Byte) : Option (List Bool × List Byte) :=
  match takeNum 32 (bs.drop (bs.length % 8)) with
  | none => none
  | some (v, bs) =>
    let n := v % 65536
    if v / 65536 ≠ 65535 - n then none
    else match takeNums 8 n bs with
      | none => none
      | some (l, bs) => some (bs, (l.map (BitVec.ofNat 8)).reverse ++ out)

/-- One block: whether it is the last, the remaining bits, the output, and what it was; `total` is the length of the stream in bits. -/
def inflateBlock (total : Nat) (bs : List Bool) (out : List Byte) : Option (Bool × List Bool × List Byte × BlockInfo) :=
  match takeNum 3 bs with
  | none => none
  | some (h, rest) =>
    let info (kind : Nat) (bs' : List Bool) (out' : List Byte) (fixed : Nat) : BlockInfo :=
      let n := out'.length - out.length
      let pos := total - bs.length
      { kind := kind, bytes := n, bits := bs.length - bs'.length, stored := 3 + (8 - (pos + 3) % 8) % 8 + 32 + 8 * n, fixed := 3 + fixed }
    let coded (kind : Nat) (lit dist : List Nat) (rest : List Bool) :=
      (inflateSyms (codeTable lit) (codeTable dist) (rest.length + 1) rest out 0).map fun r =>
        (h % 2 == 1, r.1, r.2.1, info kind r.1 r.2.1 r.2.2)
    match h / 2 with
    | 0 => (storedBlock rest out).map fun r => (h % 2 == 1, r.1, r.2, info 0 r.1 r.2 0)
    | 1 => coded 1 fixedLit fixedDist rest
    | 2 => match dynamicCodes rest with
      | none => none
      | some (lit, dist, rest) => coded 2 lit dist rest
    | _ => none

/-- The blocks of a stream up to the one with BFINAL, after which no byte may follow. -/
def inflateBlocks (total : Nat) : Nat → List Bool → List Byte → List BlockInfo → Option (List Byte × List BlockInfo)
  | 0, _, _, _ => none
  | fuel + 1, bs, out, infos =>
    match inflateBlock total bs out with
    | none => none
    | some (last, bs, out, i) =>
      if last then (if bs.length < 8 then some (out, infos ++ [i]) else none)
      else inflateBlocks total fuel bs out (infos ++ [i])

/-- A stream decoded over a history (R156 check 5): its output and blocks; none where it is malformed, a distance reaches before the
history, or data follows its last block. [DEDUCED: assumption log 76] -/
def inflate (stream hist : List Byte) : Option (List Byte × List BlockInfo) :=
  let bs := bitsOf stream
  (inflateBlocks bs.length (bs.length + 1) bs hist.reverse []).map fun r => (r.1.reverse.drop hist.length, r.2)

/-- What an engine emits for a chunk (R144): a stream that gives the chunk back, in blocks of at most 65,535 bytes, each the shortest of
its kinds, ties going to the stored and then the fixed block.  The matches and the dynamic code are the engine's own choice.
[DEDUCED: assumption log 76] -/
def deflateOk (stream hist data : List Byte) : Bool :=
  match inflate stream hist with
  | none => false
  | some (out, infos) => out == data && infos.all fun i =>
      decide (i.bytes ≤ 65535) && match i.kind with
        | 0 => true
        | 1 => decide (i.bits < i.stored)
        | _ => decide (i.bits < i.stored ∧ i.bits < i.fixed)

end Sys2Proof.Machine
end

