-- ==== Sys2Proof/Machine/CompressOps.lean ====
section
/-! DEFINITION. Stream contexts and their images, frames, and the start of GCM jobs (R145-R153, R160-R166). -/
namespace Sys2Proof.Machine

def Dev.updComp (d : Dev) (g : CompState → CompState) : Dev := { d with comp := g d.comp }
def Dev.stream (d : Dev) (c : Nat) : StreamCtx := tabGet {} d.comp.ctxs c

/-- Bytes of a list cut or zero-filled to a length. -/
def fitTo (n : Nat) (b : List Byte) : List Byte := b.take n ++ List.replicate (n - b.length) 0#8

/-- The last `n` elements of a list. -/
def lastN {α : Type} (n : Nat) (l : List α) : List α := l.drop (l.length - n)

/-! ### Contexts (R147-R153) -/
def ctxSize : Nat := 33792
def winSize : Nat := 32768

/-- DRAM data address of a context (R147). -/
def ctxAddr (d : Dev) (c : Nat) : Nat := d.rd F.cmpCfg_ctx_base * 4096 + c * ctxSize

/-- A context read by an engine or a Save: poison empties it (R342). -/
def readStream (d : Dev) (c : Nat) : Bool × Dev :=
  let (bad, d) := macRead d 0x3FF (ctxAddr d c) ctxSize
  (bad, if bad then d.updComp fun s => { s with ctxs := tabPut {} s.ctxs c {} } else d)

/-- The context after a command passed `data` through it (R148, R149): appended to the history, or replacing it, where the window
offset and the bytes of the window that hold no history are open (assumption log 2). [DEDUCED: assumption log 77] -/
def passData (d : Dev) (c : Nat) (history : Bool) (data : List Byte) : Dev :=
  let s := d.stream c
  let (v, d) := d.draw
  let (w, d) := d.draw
  let hist := lastN winSize (if history then s.hist ++ data else data)
  let s' : StreamCtx := {
    holds := true, hist := hist, head := if history then (s.head + data.length) % winSize else v % winSize,
    chunks := (s.chunks + 1) % 2 ^ 64, total := (s.total + data.length) % 2 ^ 64,
    rest := if history then s.rest.drop data.length else toBytes w (winSize - hist.length) }
  macWritten (d.updComp fun x => { x with ctxs := tabPut {} x.ctxs c s' }) 0x3FF (ctxAddr d c) ctxSize

/-- The window of a context (R147): from `head` on its other bytes, then the history, oldest first. [DEDUCED: assumption log 77] -/
def windowOf (s : StreamCtx) : List Byte :=
  let b := fitTo (winSize - s.hist.length) s.rest ++ s.hist
  b.drop (winSize - s.head) ++ b.take (winSize - s.head)

/-- The image of R147 with its img_crc. [DEDUCED: assumption log 77] -/
def streamImage (c : Nat) (s : StreamCtx) : List Byte :=
  let head := toBytes 0x43535645 4 ++ toBytes 1 2 ++ toBytes c 2 ++ toBytes s.holds.toNat 1 ++ toBytes 0 7
    ++ toBytes s.hist.length 4 ++ toBytes s.head 4 ++ toBytes s.chunks 8 ++ toBytes s.total 8 ++ toBytes (crc64 s.hist) 8
    ++ toBytes 0 968
  let w := windowOf s
  head ++ toBytes (crc64 (head ++ w)) 8 ++ w

/-- The image a Restore accepts (R152), as a context. -/
def imageStream (b : List Byte) : Option StreamCtx :=
  let n := leBytes b 0x10 4
  let head := leBytes b 0x14 4
  let w := b.drop 0x400
  let circle := w.drop head ++ w.take head
  let hist := circle.drop (winSize - n)
  if b.length = ctxSize ∧ leBytes b 0 4 = 0x43535645 ∧ leBytes b 4 2 = 1 ∧ leBytes b 8 1 ≤ 1 ∧ n ≤ winSize ∧ head < winSize
      ∧ (leBytes b 8 1 = 0 → n = 0) ∧ leBytes b 0x28 8 = crc64 hist ∧ leBytes b 0x3F8 8 = crc64 (b.take 0x3F8 ++ w) then
    some { holds := leBytes b 8 1 == 1, hist := hist, head := head, chunks := leBytes b 0x18 8, total := leBytes b 0x20 8,
           rest := circle.take (winSize - n) }
  else none

/-! ### Frames (R145) -/

/-- The header of a frame (R145), 64 bytes. -/
def frameHeader (f : CFrame) : List Byte :=
  let b := toBytes 0x46435645 4 ++ toBytes 1 1 ++ toBytes f.level 1 ++ toBytes (f.gcm.toNat + 2 * f.history.toNat) 1 ++ toBytes 0 1
    ++ toBytes f.origLen 4 ++ toBytes f.compLen 4 ++ toBytes f.ctxId 2 ++ toBytes 0 2 ++ toBytes f.chunkSeq 4
    ++ toBytes f.crcOrig 8 ++ toBytes f.nonce 12 ++ toBytes 0 4 ++ toBytes f.histCrc 8
  b ++ toBytes (crc64 b) 8

/-- Stored LBAs of a frame (R145). -/
def storedLbas (f : CFrame) : Nat := ceilDiv f.compLen 4096

/-- Bytes of a frame's DEFLATE stream. -/
def streamLenOf (f : CFrame) : Nat := f.stream.length

/-- The bytes of a frame as its LBAs hold them: header, stream, tag, and zeroes to the end of its last LBA (R145).
[DESIGN CHOICE: assumption log 9] -/
def frameBytes (f : CFrame) : List Byte :=
  fitTo (4096 * storedLbas f) (frameHeader f ++ f.stream ++ (if f.gcm then toBytes f.tag 16 else []))

/-- The logical blocks of a chunk as data identities: each the number its 4,096 bytes spell (assumption log 9). -/
def chunkToks (b : List Byte) (n : Nat) : List Nat := (List.range n).map fun i => leBytes b (4096 * i) 4096

/-! ### GCM jobs (R160-R166) -/

/-- The 12-byte nonce of a counter value (R160). -/
def nonceOf (d : Dev) (ctr : Nat) : Nat := d.rd F.cphNonceId_nonce_id + ctr % 2 ^ 64 * 2 ^ 32

/-- GCM jobs wait while the counter has reached the persisted limit (R162). [DEDUCED: assumption log 78] -/
def nonceOut (d : Dev) : Bool := decide (d.rd F.cphNonceLimit_value ≤ d.rd F.cphNonceCtr_value)

/-- A free cipher core among those the power state allows (R362). -/
def freeCore (d : Dev) : Option Nat :=
  (List.range (min 8 (d.rd F.pwrPs_engines))).find? fun c => (tabGet none d.cipher.jobs c).isNone

/-- The GCM slot a command's job names: always the namespace's own (R165). -/
def jobSlot (d : Dev) (x : Ctx) : Nat := tabGet 0 d.cipher.nsGcm x.c.nsid

/-- A waiting job starts where a core is free, its key is in the cache and, to encrypt, a counter value is reserved; it takes the value
(R160, R162). [DEDUCED: assumption log 78] -/
def startJob (d : Dev) (id : Nat) : Dev :=
  match d.ctx? id, freeCore d with
  | some x, some core =>
    let slot := jobSlot d x
    let enc := x.c.kind == .compAppend
    if !d.cipher.cache.contains slot || (enc && nonceOut d) then d
    else
      let ctr := d.rd F.cphNonceCtr_value
      let nonce := if enc then nonceOf d ctr else ((frameOf d id).map (·.nonce)).getD 0
      let d := if enc then d.wr F.cphNonceCtr_value (ctr + 1) else d
      let job : GcmJob := { id := id, enc := enc, slot := slot, generation := (d.slot slot).generation, nonce := nonce }
      useKey (d.updCipher fun c => { c with waitJobs := c.waitJobs.filter (fun i => i != id), jobs := tabPut none c.jobs core (some job) }) slot
  | _, _ => d

/-- Waiting jobs start in order. [DEDUCED: assumption log 78] -/
def startJobs (d : Dev) : Dev :=
  let d := forEach d.cipher.waitJobs d startJob
  syncWork (d.setFlag F.cphStat_nonce_wait (nonceOut d))

/-- A command's frame goes to a cipher core. -/
def queueJob (d : Dev) (id : Nat) : Dev :=
  startJobs ((d.updCtx id fun c => { c with stage := .cipher }).updCipher fun c => { c with waitJobs := c.waitJobs ++ [id] })

/-- A command of the compression path ends with an error: nothing placed, zone and context unchanged (R148, R154). -/
def endWork (d : Dev) (x : Ctx) (st : Nat) : Dev := startJobs (finish d x.id st 0)

/-- Check 4 of R156 on a Compressed Read whose frame is authentic: with history, the context must hold it. -/
def historyCheck (d : Dev) (x : Ctx) (f : CFrame) : Dev :=
  let go (d : Dev) : Dev := syncWork (d.updCtx x.id fun c => { c with stage := .engine })
  if !f.history then go d
  else
    match readStream d f.ctxId with
    | (true, d) => endWork (d.setFlag F.cmpErr_poison true) x stPoison
    | (false, d) =>
      if (d.stream f.ctxId).holds && crc64 (d.stream f.ctxId).hist == f.histCrc then go d
      else endWork (d.setFlag F.cmpErr_hist_mismatch true) x stCheckFail

end Sys2Proof.Machine
end

