-- ==== Sys2Proof/Machine/Compress.lean ====
section
/-! DEFINITION. The compression engines: contexts granted in turn, chunks dispatched and compressed, frames placed, and chunks
decompressed and checked (R142-R156). -/
namespace Sys2Proof.Machine

open Host (Outcome)

/-- The command at the head of a context's queue holds the context (R150). -/
def ctxHead (d : Dev) (c : Nat) : Option Ctx := ((tabGet [] d.comp.queues c).head?).bind d.ctx?

/-- Stream Context Save (R151, R342). [DEDUCED: assumption log 77] -/
def saveStream (d : Dev) (x : Ctx) : Dev :=
  match readStream d x.c.ctx with
  | (true, d) => endWork (d.setFlag F.cmpErr_poison true) x stPoison
  | (false, d) => finish (returnData d x (chunkToks (streamImage x.c.ctx (d.stream x.c.ctx)) 9)) x.id 0 0

/-- Stream Context Restore (R152). -/
def restoreStream (d : Dev) (x : Ctx) : Dev :=
  match imageStream x.c.chunk with
  | none => endWork (d.setFlag F.cmpErr_ctx_img_bad true) x stInvalidField
  | some s =>
    finish (macWritten (d.updComp fun y => { y with ctxs := tabPut {} y.ctxs x.c.ctx s }) 0x3FF (ctxAddr d x.c.ctx) ctxSize) x.id 0 0

/-- CONTEXT_GRANT (R150): the head of the queue takes the context; a Compressed Zone Append waits for an engine, a Compressed Read
for the GCM check of its frame or for an engine. -/
def contextGrant (c : Nat) (d : Dev) : Dev :=
  match ctxHead d c with
  | none => d
  | some x =>
    if x.stage != .context then d
    else
      match x.c.kind with
      | .ctxSave => saveStream d x
      | .ctxRestore => if chainReady d x then restoreStream d x else d
      | .compAppend => syncWork (d.updCtx x.id fun y => { y with stage := .engine })
      | .compRead =>
        match frameOf d x.id with
        | none => endWork d x stCheckFail
        | some f => if f.gcm then queueJob d x.id else historyCheck d x f
      | _ => d

def execContextGrant (ctx : Nat) (s : State) : Outcome State Fault Refusal := lift s (contextGrant ctx)

/-- The command an engine holds. -/
def engineCtx (d : Dev) (e : Nat) : Option Ctx := ((d.comp.engines.find? fun x => x.1 == e).map (·.2)).bind d.ctx?

/-- CHUNK_DISPATCH (R142): a free engine, among those the power state allows, takes the first chunk that waits, in lock-grant
order. -/
def chunkDispatch (e : Nat) (d : Dev) : Dev :=
  let ready (i : Nat) : Bool := (d.ctx? i).any fun x => x.stage == .engine
  if d.rd F.pwrPs_engines ≤ e || d.comp.engines.any (fun x => x.1 == e) then d
  else
    match d.comp.waiting.find? ready with
    | none => d
    | some id => syncWork (d.updComp fun c => { c with
        waiting := c.waiting.filter (fun i => i != id), engines := c.engines ++ [(e, id)] })

def execChunkDispatch (e : Fin 8) (s : State) : Outcome State Fault Refusal := lift s (chunkDispatch e.val)

/-- CHUNK_COMPRESSED (R142-R148, R154 step 2): the frame of the chunk, with the DEFLATE stream that the engine has built; an engine builds
no other stream than R144 allows.  Poison in the original data or in the history ends the command (R155, R342).
[DEDUCED: assumption log 76] -/
def chunkCompressed (e : Nat) (stream : List Byte) (poison : Bool) (d : Dev) : Dev :=
  match engineCtx d e with
  | none => d
  | some x =>
    match x.c.kind, d.ns? x.c.nsid with
    | .compAppend, some ns =>
      let asked := x.c.cont && (d.stream x.c.ctx).holds
      let r := if asked then readStream d x.c.ctx else (false, d)
      let d := r.2
      if poison || !x.poison.isEmpty || r.1 then endWork (d.setFlag F.cmpErr_poison true) x stPoison
      else
        let s := d.stream x.c.ctx
        let orig := x.c.count * 4096
        let data := fitTo orig x.c.chunk
        if !deflateOk stream (if asked then s.hist else []) data then d
        else
          let f : CFrame := {
            level := if x.c.level = 0 then ((pipeOf d ns.cls).map (·.2.1)).getD 1 else x.c.level
            gcm := x.c.gcm, history := asked, origLen := orig, compLen := 64 + stream.length + 16 * x.c.gcm.toNat
            ctxId := x.c.ctx, chunkSeq := s.chunks % 2 ^ 32, crcOrig := crc64 data, nonce := 0
            histCrc := if asked then crc64 s.hist else 0, stream := stream }
          let d := putFrame (d.updCtx x.id fun y => { y with stage := .placing }) x.id f
          let d := d.updComp fun c => { c with engines := c.engines.filter (fun y => y.1 != e) }
          let d := d.addWrap F.cmpInBytes_bytes orig 0 e
          if x.c.gcm then queueJob d x.id else syncWork d
    | _, _ => d

def execChunkCompressed (e : Fin 8) (stream : List (BitVec 8)) (poison : Bool) (s : State) : Outcome State Fault Refusal :=
  lift s (chunkCompressed e.val stream poison)

/-- The bytes of a placed frame on its blocks, and its home (R145, R154 step 5): the context is updated in the same step as the pointer.
[DEDUCED: assumption log 89] -/
def placeFrame (d : Dev) (x : Ctx) (ns : Ns) (zi : Nat) (z : Zone) (f : CFrame) : Dev :=
  let n := storedLbas f
  let start := zi * zoneSize d ns + z.wp
  let cells := (chunkToks (frameBytes f) n).zipIdx.map fun t =>
    let lba := start + t.2
    (lba, { wid := x.id, blk := .data t.1, hda := z.act / 2, act := z.act, pair := (pairOf d ns x.c.keyTag lba).getD 0 : BufCopy })
  let prev := d.stream x.c.ctx
  let d := placeExtent (setPtr d x.c.nsid zi (z.wp + n)) x.id x.c.nsid cells
  let d := passData d x.c.ctx f.history (fitTo f.origLen x.c.chunk)
  let d := d.updCtx x.id fun y => { y with
    stage := .buffered, zw := some start, prev := some prev, c := { y.c with slba := start, count := n, stored := n },
    locks := [{ excl := true, nsid := x.c.nsid, lo := start, hi := start + n }] }
  let d := d.updNs x.c.nsid fun ns => { ns with hostWrites := ns.hostWrites + n }
  let d := release d x.c.nsid start n
  let d := pressWriters (coverNext d (z.act / 2)) (z.act / 2)
  syncHost (tryComplete d x.id)

/-- FRAME_PLACEMENT (R154 steps 4 and 5): beyond the zone capacity the command ends with 0x80. -/
def framePlacement (id : Nat) (d : Dev) : Dev :=
  match d.ctx? id with
  | none => d
  | some x =>
    if x.stage != .placing then d
    else
      match d.ns? x.c.nsid, frameOf d x.id with
      | some ns, some f =>
        let zi := zoneIndex d ns x.c.slba
        match ns.zones[zi]? with
        | none => endWork d x stLbaRange
        | some z =>
          match zoneWritable d ns z with
          | some st => endWork d x st
          | none =>
            if zoneCap d ns < z.wp + storedLbas f then endWork (d.setFlag F.cmpErr_no_space true) x stNoSpace
            else placeFrame d x ns zi z f
      | _, _ => d

def execFramePlacement (id : Nat) (s : State) : Outcome State Fault Refusal := lift s (framePlacement id)

/-- DECOMPRESSION_DONE (R149, R156 checks 5 and 6): the frame's stream decoded over the history it refers to; `errs` and
`histErrs` are the bits of stream and history that reach the engine in error.
[DEDUCED: assumption log 76] -/
def decompressionDone (e : Nat) (errs histErrs : List Nat) (d : Dev) : Dev :=
  match engineCtx d e with
  | none => d
  | some x =>
    match x.c.kind, frameOf d x.id with
    | .compRead, some f =>
      let r := inflate (flipBits errs f.stream) (if f.history then flipBits histErrs (d.stream f.ctxId).hist else [])
      let output := (r.map (·.1)).getD []
      if r.isNone || output.length != f.origLen || crc64 output != f.crcOrig then
        endWork (d.setFlag F.cmpErr_data_bad true) x stCheckFail
      else
        let d := passData (d.addWrap F.cmpOutBytes_bytes f.origLen 0 e) f.ctxId f.history output
        finish (returnData (countMoved d x (hdasRead d x)) x (chunkToks output (f.origLen / 4096))) x.id 0 f.origLen
    | _, _ => d

def execDecompressionDone (e : Fin 8) (errs histErrs : List Nat) (s : State) : Outcome State Fault Refusal :=
  lift s (decompressionDone e.val errs histErrs)

end Sys2Proof.Machine
end

