-- ==== Sys2Proof/Machine/Cipher.lean ====
section
/-! DEFINITION. GCM jobs, the nonce log, key slots that come, retire and go, locking ranges, cipher contexts, countermeasures and
randomness (R160-R175). -/
namespace Sys2Proof.Machine

open Host (Outcome)

/-! ### GCM jobs -/

/-- AES-256-GCM's counter mode over a frame's stream (R145, R160): the same operation encrypts and decrypts. -/
def gcmCrypt (key nonce : Nat) (b : List Byte) : List Byte := b.zipIdx.map fun x => x.1 ^^^ Config.gcmStream key nonce x.2

/-- The tag of a frame: its 64-byte header is the additional data, its encrypted stream the text (R145, R160). -/
def gcmTagOf (key : Nat) (f : CFrame) : Nat := Config.gcmTag key f.nonce (frameHeader f) f.stream % 2 ^ 128

/-- A frame encrypted under a key, with its nonce and tag (R160). -/
def sealFrame (key nonce : Nat) (f : CFrame) : CFrame :=
  let f := { f with nonce := nonce, stream := gcmCrypt key nonce f.stream }
  { f with tag := gcmTagOf key f }

/-- GCM_JOB_DONE (R160, R163, R174): an encrypted frame takes its nonce and tag and waits for its placement; of a decrypted one the tag is
verified before any output leaves the core.  `errs` are the bits of the stream that reach the core in error. [DESIGN CHOICE: assumption log 79] -/
def gcmJobDone (core : Nat) (errs : List Nat) (poison : Bool) (d : Dev) : Dev :=
  match tabGet none d.cipher.jobs core with
  | none => d
  | some j =>
    let d := d.updCipher fun c => { c with jobs := tabErase c.jobs core }
    let key := (d.slot j.slot).wrapped
    match d.ctx? j.id, frameOf d j.id with
    | some x, some f =>
      let f := { f with stream := flipBits errs f.stream }
      let d := d.addWrap F.cphBytes_bytes (streamLenOf f) 0 core
      if poison then endWork (d.setFlag F.cphErr_poison true) x stPoison
      else if j.enc then
        startJobs (putFrame (d.updCtx j.id fun c => { c with stage := .placing }) j.id (sealFrame key j.nonce f))
      else if gcmTagOf key f != f.tag then endWork ((d.setFlag F.cphErr_gcm_fail true).setFlag F.cmpErr_frame_bad true) x stCheckFail
      else
        let f := { f with stream := gcmCrypt key f.nonce f.stream }
        startJobs (historyCheck (putFrame d j.id f) x f)
    | _, _ => startJobs d

def execGcmJobDone (core : Fin 8) (errs : List Nat) (poison : Bool) (s : State) : Outcome State Fault Refusal :=
  lift s (gcmJobDone core.val errs poison)

/-- Commands that name a slot: those whose GCM job waits for it, and reads of the media whose blocks it is half of a pair of. -/
def slotWaiters (d : Dev) (slot : Nat) : List Ctx :=
  let gcm := (d.cipher.waitJobs.filterMap d.ctx?).filter fun x => jobSlot d x == slot
  gcm ++ d.host.ctxs.filter fun x => x.stage == .media && readsData x.c.kind && (d.ns? x.c.nsid).any fun ns =>
    classXts d ns.cls && x.c.lbas.any fun l => (pairOf d ns x.c.keyTag l).any fun e => e == slot / 2

/-- KEY_CACHE_FILL (R166): the slot fetched, checked and unwrapped, where `crcOk` tells whether its bytes arrived as they are held and
`kwOk` whether its KW integrity check passes; on a failure the commands that name it end. -/
def keyCacheFill (slot : Nat) (crcOk kwOk : Bool) (d : Dev) : Dev :=
  if d.cipher.cache.contains slot then d
  else
    let r := fetchKey d slot false
    let fetched := if r.1.isNone && !crcOk then some (stKeyEmpty, F.cphErr_slot_crc) else r.1
    match (if fetched.isNone && !kwOk then some (stKeyEmpty, F.cphErr_unwrap_fail) else fetched) with
    | none => startJobs r.2
    | some (st, f) =>
      let d := r.2.updCipher fun c => { c with cache := c.cache.filter fun k => k != slot }
      forEach (slotWaiters d slot) (syncWork (d.setFlag f true)) fun d x => endWork d x st

def execKeyCacheFill (slot : Nat) (crcOk kwOk : Bool) (s : State) : Outcome State Fault Refusal :=
  lift s (keyCacheFill slot crcOk kwOk)

/-! ### The nonce log (R162) -/

/-- NONCE_RESERVE_APPEND: at limit - 2^19 the next record goes out in the background. -/
def nonceReserve (d : Dev) : Dev :=
  if d.cipher.recordDue.isSome || decide (d.rd F.cphNonceCtr_value + 2 ^ 19 < d.rd F.cphNonceLimit_value) then d
  else d.updCipher fun c => { c with recordDue := some (d.rd F.cphNonceLimit_value + 2 ^ 20) }

def execNonceReserveAppend (s : State) : Outcome State Fault Refusal := lift s nonceReserve

/-- The log with a record appended: 64 sectors of 4,096 records; a full log first erases the sector of the oldest.
[DEDUCED: assumption log 88] -/
def logAppend (log : List (Nat × Nat × Nat)) (r : Nat × Nat × Nat) : List (Nat × Nat × Nat) :=
  (if 64 * 4096 ≤ log.length then log.drop 4096 else log) ++ [r]

/-- NONCE_RECORD_WRITTEN: the record is persisted, and waiting jobs go on. [DEDUCED: assumption log 88] -/
def nonceWritten (d : Dev) : Dev :=
  match d.cipher.recordDue with
  | none => d
  | some limit =>
    let d := d.updCipher fun c => { c with
      recordDue := none,
      log := logAppend c.log (limit, d.rd F.cphNonceId_nonce_id, crc32 (nonceRecord limit (d.rd F.cphNonceId_nonce_id))) }
    startJobs (d.wr F.cphNonceLimit_value limit)

def execNonceRecordWritten (s : State) : Outcome State Fault Refusal := lift s nonceWritten

/-! ### Slots cleared and replaced (R164, R168) -/

/-- Extents of a retiring pair receive priority destage. -/
def pressPair (d : Dev) (e : Nat) : Dev :=
  forEach (d.host.extents.filter fun x => x.copies.any fun c => c.2.pair == e) d fun d x => destageExtent d x true

/-- A slot pair cleared: empty at once, or retiring while buffered extents refer to it. -/
def clearPair (d : Dev) (e : Nat) (waiter : Option (Nat × Nat)) : Dev :=
  if pairInUse d e then
    pressPair (forEach [2 * e, 2 * e + 1] d fun d i => (d.setSlot i { d.slot i with state := 2 }).updCipher fun c => { c with
      retiring := c.retiring ++ [{ slot := i, next := none, waiter := waiter }] }) e
  else emptySlot (emptySlot d (2 * e)) (2 * e + 1)

/-- A slot's contents go to the key store too, or leave it. -/
def storeSlot (d : Dev) (i : Nat) : Dev := d.updCipher fun c => { c with store := tabPut {} c.store i (tabGet {} c.slots i) }

/-- A slot pair takes new keys wrapped under `kekSel` (R164): at once, or once its extents are on media. [DEDUCED: assumption log 82] -/
def replacePair (d : Dev) (e kekSel nsid : Nat) (waiter : Option (Nat × Nat)) : Dev :=
  let fresh (d : Dev) (i : Nat) : Dev := syncWork ((persistKey d i (1 + i % 2) kekSel nsid).updCipher fun c =>
    { c with cache := c.cache.filter fun k => k != i })
  if pairInUse d e then
    pressPair (forEach [2 * e, 2 * e + 1] d fun d i =>
      let r := freshKey d (1 + i % 2) kekSel nsid
      (r.2.setSlot i { r.2.slot i with state := 2 }).updCipher fun c => { c with
        retiring := c.retiring ++ [{ slot := i, next := some r.1, waiter := waiter }] }) e
  else forEach [2 * e, 2 * e + 1] d fresh

/-- SLOT_RETIRE_COMPLETE (R168): the last extent is on media; the slot empties or takes its new contents, and the operation that
cleared or replaced it completes with its last slot. [DEDUCED: assumption log 82] -/
def slotRetired (i : Nat) (d : Dev) : Dev :=
  match d.cipher.retiring.find? fun r => r.slot == i with
  | none => d
  | some r =>
    if pairInUse d (i / 2) then d
    else
      let d := emptySlot (d.updCipher fun c => { c with retiring := c.retiring.filter fun x => x.slot != i }) i
      let d := match r.next with
        | some k => storeSlot (d.setSlot i k) i
        | none => d
      if r.waiter.isSome && !(d.cipher.retiring.any fun x => x.waiter == r.waiter) then endAdmin d r.waiter 0 0 else d

def execSlotRetireComplete (slot : Nat) (s : State) : Outcome State Fault Refusal := lift s (slotRetired slot)

/-! ### Key Per I/O (R167) -/

/-- The profiles of R404 are available: PROVISIONED, MISSION and RMA; during a D2 session in MISSION keys fail (R397). -/
def tcgAvailable (d : Dev) : Bool := decide (2 ≤ d.rd F.secLc_state ∧ d.rd F.secLc_state ≤ 4)

/-- KEY_INJECT: the 512-bit XTS key, unwrapped by Ocgoern, wrapped again under the device KEK in a free pair, to which the tag then
maps; the pair it mapped to before is cleared. [DESIGN CHOICE: assumption log 87] -/
def keyInject (nsid tag : Nat) (wrappedOk : Bool) (key : Nat) (d : Dev) : Dev :=
  match localNs d nsid, freePair d with
  | some ns, some e =>
    if !ns.kpio || !wrappedOk || !tcgAvailable d || d.cipher.withheld || !d.flag F.cphStat_kek_loaded || decide (65536 ≤ tag) then d
    else
      let t := nsid * 65536 + tag
      let old := tabGet 0 d.cipher.tags t
      let put (d : Dev) (i v : Nat) : Dev := d.setSlot i {
        state := 1, kind := 1 + i % 2, kekSel := 0, nsid := nsid,
        wrapped := Config.keyWrap d.cipher.kek v }
      let d := put (put d (2 * e) (key % 2 ^ 256)) (2 * e + 1) (key / 2 ^ 256 % 2 ^ 256)
      let d := d.updCipher fun c => { c with tags := tabPut 0 c.tags t (e + 1) }
      if old = 0 then d else clearPair d (old - 1) none
  | _, _ => d

def execKeyInject (nsid tag : Nat) (wrappedOk : Bool) (key : Nat) (s : State) : Outcome State Fault Refusal :=
  lift s (keyInject nsid tag wrappedOk key)

/-! ### Locking ranges (R169) -/

def Dev.updRange (d : Dev) (r : Nat) (g : KeyRange → KeyRange) : Dev :=
  d.updCipher fun c => { c with ranges := listMapIf (fun x => x.idx == r) g c.ranges }

/-- A credential authenticated: Ocgoern derives the range KEK and loads it. [DEDUCED: assumption log 83] -/
def loadRangeKek (d : Dev) (r : Nat) : Dev :=
  if d.cipher.withheld || !d.flag F.cphStat_kek_loaded then d
  else d.updRange r fun x => { x with kek := some (Config.rangeKek d.cipher.kek r x.cred), draining := false }

/-- LOCKING_RANGE_UNLOCK. -/
def rangeUnlock (r : Nat) (credentialOk : Bool) (d : Dev) : Dev :=
  if !credentialOk || d.cipher.withheld || !d.flag F.cphStat_kek_loaded then d
  else (loadRangeKek d r).updRange r fun x => { x with readLock := false, writeLock := false }

def execLockingRangeUnlock (range : Nat) (credentialOk : Bool) (s : State) : Outcome State Fault Refusal :=
  lift s (rangeUnlock range credentialOk)

/-- LOCKING_RANGE_LOCK: at once for commands fetched afterwards; the KEK stays until the range's buffered extents are on media. -/
def rangeLock (r : Nat) (d : Dev) : Dev :=
  pressPair (d.updRange r fun x => { x with readLock := true, writeLock := true, draining := x.kek.isSome }) (rangePair r)

def execLockingRangeLock (range : Nat) (s : State) : Outcome State Fault Refusal := lift s (rangeLock range)

/-- RANGE_KEK_ZERO. -/
def rangeKekZero (r : Nat) (d : Dev) : Dev :=
  if !(d.cipher.ranges.any fun x => x.idx == r && x.draining) || pairInUse d (rangePair r) then d
  else
    let d := d.updRange r fun x => { x with kek := none, draining := false }
    syncWork (d.updCipher fun c => { c with
      cache := c.cache.filter fun k => k != 2 * rangePair r && k != 2 * rangePair r + 1 })

def execRangeKekZero (range : Nat) (s : State) : Outcome State Fault Refusal := lift s (rangeKekZero range)

/-! ### Cipher contexts (R170, R171) -/

/-- The 64-byte clear image of a job. [DEDUCED: assumption log 80] -/
def clearImage (j : GcmJob) : List Byte :=
  let count := (toBytes (2 + j.blocks) 4).reverse
  toBytes 0x58435645 4 ++ toBytes 1 1 ++ toBytes (!j.enc).toNat 1 ++ toBytes j.slot 2 ++ toBytes j.generation 4 ++ toBytes 0 4
    ++ toBytes j.nonce 12 ++ count ++ toBytes j.ghash 16 ++ toBytes 512 8 ++ toBytes (128 * j.blocks) 8

/-- The 80-byte wrapped image of a clear one. -/
def wrappedImage (d : Dev) (clear : List Byte) : List Byte :=
  toBytes 0x57435645 4 ++ toBytes 1 1 ++ toBytes 0 3 ++ toBytes (Config.keyWrap d.cipher.cwk (leBytes clear 0 64)) 72

/-- The bytes of CPH_CTX_WIN. -/
def winBytes (d : Dev) : List Byte := (List.range 10).flatMap fun k => toBytes (d.rd F.cphCtxWin_data 0 k) 8

/-- What CPH_CTX_WIN register `k` reads to a requester: one that still holds part of a saved image gives BAR2 that part of the wrapped
image. [DEDUCED: assumption log 81] -/
def winRead (d : Dev) (rq : Requester) (k : Nat) : Nat :=
  if d.cipher.winSaved.contains k && isBar2 rq then leBytes (wrappedImage d d.cipher.winImage) (8 * k) 8 else d.rd F.cphCtxWin_data 0 k

/-- CIPHER_CONTEXT_SAVE: the core's job stops at a block boundary, which one being open (assumption log 2), as is the GHASH
accumulator there; its image is in the window and the core is free. [DEDUCED: assumption log 80] -/
def contextSave (core : Nat) (d : Dev) : Dev :=
  let d := (d.wr F.cphCtxCtl_core core).wr F.cphCtxCtl_op 0
  match tabGet none d.cipher.jobs core with
  | none => d
  | some j =>
    let total := ((frameOf d j.id).map fun f => ceilDiv (streamLenOf f) 16).getD 0
    let (v, d) := d.draw
    let (w, d) := d.draw
    let j := { j with blocks := j.blocks + v % (total - j.blocks + 1), ghash := w % 2 ^ 128 }
    let img := clearImage j
    let d := d.updCipher fun c => { c with
      jobs := tabErase c.jobs core, parked := c.parked ++ [j], winImage := img, winSaved := List.range 10 }
    startJobs (forEach (List.range 10) d fun d k => d.wr F.cphCtxWin_data (leBytes img (8 * k) 8) 0 k)

def execCipherContextSave (_rq : Requester) (core : Fin 8) (s : State) : Outcome State Fault Refusal :=
  lift s (contextSave core.val)

/-- The clear image the window holds for a requester: a clear one from a control core, a wrapped one from a control core or BAR2.
[DEDUCED: assumption log 81] -/
def restoreImage (d : Dev) (rq : Requester) : Option (List Byte) :=
  let b := (List.range 10).flatMap fun k => toBytes (winRead d rq k) 8
  let isCore := !isBar2 rq && !isDbg rq
  if isBar2 rq && (List.range 10).all (fun k => d.cipher.winSaved.contains k) then some (d.cipher.winImage.take 64)
  else if leBytes b 0 4 = 0x58435645 ∧ leBytes b 4 1 = 1 then (if isCore then some (b.take 64) else none)
  else if leBytes b 0 4 = 0x57435645 ∧ leBytes b 4 1 = 1 ∧ (isCore || isBar2 rq) = true then
    (Config.keyUnwrap d.cipher.cwk (leBytes b 8 72)).map fun v => toBytes v 64
  else none

/-- CIPHER_CONTEXT_RESTORE: accepted where the slot is still valid with the same generation and the core is free; the job of a command
that has ended since runs for nobody. [DEDUCED: assumption log 80] -/
def contextRestore (rq : Requester) (core : Nat) (d : Dev) : Dev :=
  let d := (d.wr F.cphCtxCtl_core core).wr F.cphCtxCtl_op 1
  let refuse := (d.setFlag F.cphCtxCtl_fail true).setFlag F.cphErr_ctx_bad true
  match restoreImage d rq with
  | none => refuse
  | some b =>
    let slot := leBytes b 6 2
    let gen := leBytes b 8 4
    if (d.slot slot).state ≠ 1 ∨ (d.slot slot).generation ≠ gen ∨ (tabGet none d.cipher.jobs core).isSome then refuse
    else
      let nonce := leBytes b 0x10 12
      let enc := leBytes b 5 1 == 0
      let mine (j : GcmJob) : Bool := j.slot == slot && j.nonce == nonce && j.enc == enc
      let job : GcmJob := {
        id := ((d.cipher.parked.find? mine).map (·.id)).getD 0, enc := enc, slot := slot, generation := gen, nonce := nonce,
        blocks := leBytes b 0x38 8 / 128, ghash := leBytes b 0x20 16 }
      let d := d.updCipher fun c => { c with parked := listDrop mine c.parked, jobs := tabPut none c.jobs core (some job) }
      syncWork ((useKey d slot).setFlag F.cphCtxCtl_fail false)

def execCipherContextRestore (rq : Requester) (core : Fin 8) (s : State) : Outcome State Fault Refusal :=
  lift s (contextRestore rq core.val)

/-! ### Countermeasures, cached keys and randomness (R166, R172, R173) -/

/-- COUNTERMEASURE_CONFIG: in MISSION and RMA a write that would lower either setting is ignored. [DEDUCED: assumption log 90] -/
def setCountermeasures (dummyMax : Nat) (shuffle : Bool) (d : Dev) : Dev :=
  let lower := decide (dummyMax < d.rd F.cphCm_dummy_max) || (d.flag F.cphCm_shuffle && !shuffle)
  if (d.rd F.secLc_state == 3 || d.rd F.secLc_state == 4) && lower then d.setFlag F.cphCm_refused true
  else (d.wr F.cphCm_dummy_max dummyMax).setFlag F.cphCm_shuffle shuffle

def execCountermeasureConfig (_rq : Requester) (dummyMax : Fin 4) (shuffle : Bool) (s : State) : Outcome State Fault Refusal :=
  lift s (setCountermeasures dummyMax.val shuffle)

/-- KEY_INVALIDATE: CPH_KEY_INV with go. -/
def keyInvalidate (slot : Nat) (d : Dev) : Dev :=
  ((d.wr F.cphKeyInv_slot slot).setFlag F.cphKeyInv_busy true).updCipher fun c => { c with dropAsk := c.dropAsk ++ [slot % 65536] }

def execKeyInvalidate (_rq : Requester) (slot : Nat) (s : State) : Outcome State Fault Refusal := lift s (keyInvalidate slot)

/-- KEY_DROP_DONE: copies asked for that no running job holds are dropped. -/
def keyDropDone (d : Dev) : Dev :=
  let gone := d.cipher.dropAsk.filter fun i => !heldByJob d i
  let d := d.updCipher fun c => { c with
    cache := c.cache.filter fun k => !gone.contains k, dropAsk := c.dropAsk.filter fun k => !gone.contains k }
  syncWork (d.setFlag F.cphKeyInv_busy (!d.cipher.dropAsk.isEmpty))

def execKeyDropDone (s : State) : Outcome State Fault Refusal := lift s keyDropDone

/-- DRBG_RESEED: from a source that passes its health tests. -/
def execDrbgReseed (s : State) : Outcome State Fault Refusal :=
  lift s fun d => (d.setFlag F.cphStat_drbg_ok true).updCipher fun c => { c with drbgRequests := 0 }

/-- ENTROPY_HEALTH_FAIL. -/
def execEntropyHealthFail (s : State) : Outcome State Fault Refusal :=
  lift s fun d => (d.setFlag F.cphStat_drbg_ok false).setFlag F.cphErr_entropy_fail true

end Sys2Proof.Machine
end

