-- ==== Sys2Proof/Machine/Flags.lean ====
section
/-! DEFINITION. Register fields as a write of each type leaves them (R8): fields that keep, set, clear or ignore. -/
namespace Sys2Proof.Machine

/-- Values that a field's description ignores. [DESIGN CHOICE: assumption log 23, DEDUCED: assumption log 64] -/
def accepts (f : Fld) (v : Nat) : Bool :=
  if f = F.chnCtl_single ∨ f = F.sscLaneCtl_follow ∨ f = F.mgtCfg_uart_baud ∨ f = F.eccInj_kind ∨ f = F.loop_pattern then v != 3
  else if f = F.chnSync_resync_thresh then decide (v ≤ 3)
  else if f = F.chnSync_resync_span then decide (8 ≤ v ∧ v ≤ 64)
  else if f = F.chnSync_reframe_max then decide (v ≤ 8)
  else if f = F.chnDecode_max_iter ∨ f = F.chnDecode_reframe_iter then decide (1 ≤ v ∧ v ≤ 40)
  else if f = F.chnWctl_write_inhibit then decide (5 ≤ v ∧ v ≤ 25)
  else if f = F.sscRamp_ramp_rate then decide (100 ≤ v ∧ v ≤ 5000)
  else if f = F.sscRamp_ramp_accel then decide (100 ≤ v ∧ v ≤ 20000)
  else if f = F.spnCtl_rpm_manual then decide (3600 ≤ v ∧ v ≤ 7200)
  else if f = F.lmlBudget_hop_units ∨ f = F.mapLfsr_state then v != 0
  else if f = F.lmlE2e_retry_us then decide (50 ≤ v ∧ v ≤ 10000)
  else if f = F.lmlE2e_idle_us then decide (1500 ≤ v ∧ v ≤ 20000)
  else if f = F.calDefer_max_defer then decide (100 ≤ v ∧ v ≤ 60000)
  else if f = F.pwrCs_cs1_idle then decide (10 ≤ v)
  else true

/-- What is stored of an accepted value: bits that read as a constant keep it. [DESIGN CHOICE: assumption log 23] -/
def stored (f : Fld) (v : Nat) : Nat :=
  if f = F.chnLadder_step_en then v ||| 1
  else if f = F.glbGpio_out ∨ f = F.glbGpio_oe then v / 32 * 32
  else v

/-- Sub-field `m` of a field written under a mask (R8). [DESIGN CHOICE: assumption log 23] -/
def fieldWrite (d : Dev) (i k : Nat) (f : Fld) (m mask data : Nat) : Dev :=
  let j := k * f.nsub + m
  let fm := fieldBits mask f m
  let dv := fieldBits data f m
  let old := d.rd f i j
  let v := mergeBits old dv fm
  if fm = 0 then d
  else match f.ty with
    | .ro | .rws | .wo => d
    | .rw1c => d.wr f (old ^^^ (old &&& (dv &&& fm))) i j
    | .rw => if accepts f v then d.wr f (stored f v) i j else d
    | .k2 => if k = 2 then d.wr f v i j else d

/-- Every field of a register entry written under a mask. -/
def regWrite (d : Dev) (r : Reg) (i k mask data : Nat) : Dev :=
  forEach r.fields d fun d f => forEach (List.range f.nsub) d fun d m => fieldWrite d i k f m mask data

/-- Fields put back to what they were. -/
def revert (now before : Dev) (fs : List Fld) (i : Nat) (k : Nat := 0) : Dev :=
  forEach fs now fun d f => d.wr f (before.rd f i k) i k

end Sys2Proof.Machine
end

