-- ==== Sys2Proof/Machine/Loopback.lean ====
section
/-! DEFINITION. Loop-backs: their selection, what a depth does to its block, and the checker (R419). -/
namespace Sys2Proof.Machine

open Host (Outcome)

/-- The deepest depth of a site's block. -/
def loopMost (site : Nat) : Nat :=
  match (siteKind site).1 with
  | 0 => 4
  | 1 => 5
  | 2 => 2
  | 3 => 3
  | _ => 1

/-- The channel is free of tasks. -/
def channelFree (d : Dev) (c : Nat) : Bool :=
  d.rd F.sqrStat_state (c / 2) == 0 && !(d.host.tasks.any fun t => t.act == c / 2 && t.begun) && (d.chn c).queue.isEmpty &&
    (d.chn c).entries.isEmpty

/-- The guard of a depth. [DEDUCED: assumption log 178] -/
def loopGuard (d : Dev) (rq : Requester) (site depth : Nat) : Bool :=
  match siteKind site, depth with
  | (0, _), 4 => decide (d.rd F.secLc_state ≤ 1)
  | (2, _), _ => isDbg rq && d.rd F.dbgStat_halted == 0xFF
  | (3, c), 3 => d.rd F.pwrHs_state 0 (c / 4) == 0 && dirtyOf d (c / 4) == 0 && !(d.host.locker.any fun b => b.hda == c / 4)
  | (3, c), _ => channelFree d c
  | (4, a), _ => d.bit F.pslStat_parked (a % 2) (a / 2) || decide (2 ≤ d.rd F.pwrHs_state 0 (a / 2))
  | (5, n), _ => d.rd F.pwrHs_state 0 n == 4 && bothParked d n
  | (6, n), _ => d.rd F.pwrHs_state 0 n == 4 && spinState d n == 0
  | _, _ => true

/-- What LOOP.arg holds: a node address, a head, or nothing. -/
def loopArg (site arg : Nat) : Nat :=
  match (siteKind site).1 with
  | 1 => arg
  | 3 => arg % 16
  | _ => 0

/-- The effect of a change of depth on the site's link or memory. [DEDUCED: assumption log 178] -/
def loopEffect (d : Dev) (site old depth : Nat) : Dev :=
  let down (x : Nat) : Bool := decide (1 ≤ x ∧ x ≤ 3)
  match siteKind site with
  | (0, h) => if down depth then (if down old then d else hostLinkDown d h) else if down old then hostTrain d h else d
  | (1, p) => if down depth then portDown d p 6 else if down old then portTrain d p else d
  | (2, _) =>
    if old ≠ 0 ∧ depth = 0 then
      ((d.setFlag F.memCfg_trained false).wr F.memWipe_state 1).updReset fun r => { r with wipeDram := true }
    else d
  | _ => d

/-- The kind 5 vote of a domain goes with its last loop and calibration. -/
def dropLoopVote (d : Dev) (site : Nat) : Dev :=
  let held := (List.range 39).any (fun s => d.rd F.loop_depth s != 0 && siteDom s == siteDom site) || d.flag F.calStat_busy
  if held then d else clearVote d 5 (siteDom site)

/-- A write of a LOOP register's depth and argument: a depth above the block's is ignored, one without authority or guard is
refused. [DEDUCED: assumption log 178] -/
def loopSelect (rq : Requester) (site depth arg : Nat) (d : Dev) : Dev :=
  if domState d (siteDom site) = 2 then d
  else if loopMost site < depth then d.wr F.loop_arg (loopArg site arg) site
  else if depth ≠ 0 && !(loopAuthority d && loopGuard d rq site depth) then d.setFlag F.loop_refused true site
  else
    let old := d.rd F.loop_depth site
    let d := (d.wr F.loop_depth depth site).wr F.loop_arg (loopArg site arg) site
    let d := loopEffect d site old depth
    let d := if depth = 0 then dropLoopVote d site else orVote d 5 (siteDom site)
    recomputeBound (syncPhase d)

/-- LOOPBACK_SELECT (R419). -/
def execLoopbackSelect (rq : Requester) (site : Fin 39) (depth arg : Nat) (s : State) : Outcome State Fault Refusal :=
  lift s (loopSelect rq site.val depth arg)

/-- The track that a channel's media loop-back writes and reads back (R182, R420): the last locker track, on the surface of the head
selected. [DEDUCED: assumption log 179] -/
def loopTrack (d : Dev) (c : Nat) : Nat := d.rd F.sqrLocker_first (c / 2) + d.rd F.sqrLocker_count (c / 2) - 1

/-- The generator and checker: on a start the counts begin anew; they saturate.  At depth 3 of a channel they work on the media.
[DEDUCED: assumption log 179] -/
def loopRun (site : Nat) (on locked : Bool) (errors checked : Nat) (d : Dev) : Dev :=
  if !on then (d.setFlag F.loop_run false site).setFlag F.loop_locked false site
  else
    let d := if d.flag F.loop_run site then d
      else ((d.setFlag F.loop_run true site).wr F.loopCnt_errors 0 site).wr F.loopCnt_checked 0 site
    if d.rd F.loop_depth site = 0 then d
    else
      let d := match siteKind site with
        | (3, c) => if d.rd F.loop_depth site = 3 then d.emit (.loopTrack c (d.rd F.loop_arg site) (loopTrack d c)) else d
        | _ => d
      ((d.setFlag F.loop_locked locked site).addSat F.loopCnt_errors errors site).addSat F.loopCnt_checked checked site

/-- LOOPBACK_RUN (R419): what the checker has found since. [DEDUCED: assumption log 179] -/
def execLoopbackRun (site : Fin 39) (on locked : Bool) (errors checked : Nat) (s : State) : Outcome State Fault Refusal :=
  lift s (loopRun site.val on locked errors checked)

end Sys2Proof.Machine
end

