-- ==== Sys2Proof/Machine/MapCache.lean ====
section
/-! DEFINITION. The map cache: lookups, fills, prefetch, maintenance, disable, and the groups of its array (R134-R141). -/
namespace Sys2Proof.Machine

open Host (Outcome)

def Dev.updMap (d : Dev) (g : MapState → MapState) : Dev := { d with map := g d.map }
def mapSlot (d : Dev) (i : Nat) : Option MapEntry := tabGet none d.map.entries i
def setMapSlot (d : Dev) (i : Nat) (e : Option MapEntry) : Dev := d.updMap fun m => { m with entries := tabPut none m.entries i e }

/-- MAP_STAT's counts. -/
def syncMap (d : Dev) : Dev :=
  let dirty := (d.map.entries.filter fun e => e.2.any (·.dirty)).length
  (d.wr F.mapStat_dirty dirty).wr F.mapStat_side d.map.side.length

/-- A group's entries may take fills: powered, not scratch, not in transition (R134, R139). -/
def groupOpen (d : Dev) (g : Nat) : Bool :=
  !d.bit F.mapGrpStat_down g && !d.bit F.mapGrpStat_is_scratch g && !d.bit F.mapGrpStat_busy g

/-- An entry is allocatable: valid or invalid, no fill of its own in flight, its group open (R134). -/
def allocatable (d : Dev) (i : Nat) : Bool :=
  groupOpen d (i / 8) && (match mapSlot d i with
    | some e => e.filling.isNone
    | none => true)

/-- The entry a fill takes: the LFSR's index, or the next allocatable one above it, wrapping (R134). [DEDUCED: assumption log 65] -/
def victim (d : Dev) : Option Nat :=
  let v := d.rd F.mapLfsr_state % 64
  ((List.range 64).map fun k => (v + k) % 64).find? (allocatable d)

/-- One step of the replacement LFSR, x^16 + x^14 + x^13 + x^11 + 1 (R134). [DEDUCED: assumption log 65] -/
def lfsrStep (s : Nat) : Nat :=
  let fb := xor (xor (s.testBit 0) (s.testBit 2)) (xor (s.testBit 3) (s.testBit 5))
  s / 2 + (if fb then 2 ^ 15 else 0)

/-- A page written to DRAM from the cache: a poisoned copy takes its poison there (R136, R338). -/
def pageToDram (d : Dev) (page : Nat) (poison : Bool) : Dev :=
  (macWritten d 0x3FF (page * 4096) 4096).updMap fun m => { m with
    poisoned := (m.poisoned.filter fun p => p != page) ++ (if poison then [page] else []) }

/-- A dirty entry cleaned. -/
def cleanEntry (d : Dev) (i : Nat) : Dev :=
  match mapSlot d i with
  | some e => if e.dirty then setMapSlot (pageToDram d e.page e.poison) i (some { e with dirty := false }) else d
  | none => d

/-- A page read from DRAM: whether it is delivered poisoned. [DEDUCED: assumption log 68] -/
def pageFromDram (d : Dev) (page : Nat) : Bool × Dev :=
  let r := macRead d 0x3FF (page * 4096) 4096
  (r.1 || d.map.poisoned.contains page, r.2)

/-- Firmware builds a poisoned page again from the last checkpoint and the map journal (R127, R136): no copy of it is poisoned any more.
[DEDUCED: assumption log 68] -/
def rebuildPage (d : Dev) (page : Nat) : Dev :=
  macWritten (d.updMap fun m => { m with
    poisoned := m.poisoned.filter (fun p => p != page),
    entries := m.entries.map fun e => (e.1, e.2.map fun x => if x.page = page then { x with poison := false } else x) }) 0x3FF (page * 4096) 4096

/-- Commands that consume a poisoned page end with 0x82, and the page is rebuilt (R136). [DEDUCED: assumption log 68] -/
def consumePage (d : Dev) (ids : List Nat) (page : Nat) (poison : Bool) : Dev :=
  if poison then
    rebuildPage (forEach ids d fun d id => match d.ctx? id with
      | some x => if writesData x.c.kind then failWrite d id stPoison else finish d id stPoison 0
      | none => d) page
  else d

/-- A page that enters the cache: the victim cleaned and replaced, the LFSR stepped (R134); none where nothing is allocatable.
[DEDUCED: assumption log 65] -/
def placePage (d : Dev) (e : MapEntry) : Option Dev :=
  (victim d).map fun i =>
    setMapSlot ((cleanEntry d i).wr F.mapLfsr_state (lfsrStep (d.rd F.mapLfsr_state))) i (some e)

/-- The entry that holds a page or whose fill of it is in flight. -/
def pageIndex (d : Dev) (page : Nat) : Option Nat :=
  (d.map.entries.find? fun e => e.2.any fun x => x.page == page).map (·.1)

/-- A write to a page: during a disable it goes through to DRAM as well, so a clean entry stays clean (R138). -/
def writeEntry (d : Dev) (i : Nat) (e : MapEntry) : Dev :=
  if d.flag F.mapStat_disabling then pageToDram d e.page e.poison else setMapSlot d i (some { e with dirty := true })

/-- A lookup that finds its page in neither place: a fill begins, or DRAM serves it directly. -/
def missPage (d : Dev) (page : Nat) (write : Bool) (id : Nat) : Dev :=
  let d := d.addWrap F.mapMisses_count 1
  match placePage d { page := page, dirty := write && !d.flag F.mapStat_disabling, filling := some [id] } with
  | some d => d
  | none =>
    let r := pageFromDram d page
    consumePage r.2 [id] page r.1

/-- MAP_LOOKUP: `pe` tag copies of the entry found carry a parity error (R136); `id` is the command. [DEDUCED: assumption log 66] -/
def mapLookup (page : Nat) (write : Bool) (pe id : Nat) (d : Dev) : Dev :=
  if !d.flag F.mapStat_enabled then
    let r := pageFromDram d page
    consumePage r.2 [id] page r.1
  else
    match pageIndex d page with
    | some i =>
      match mapSlot d i with
      | none => d
      | some e =>
        if 2 ≤ pe ∧ e.filling.isNone then
          let d := setMapSlot (d.setFlag F.mapErr_tag_double true) i none
          let d := if e.dirty then d.updMap fun m => { m with poisoned := m.poisoned ++ [page] } else d
          syncMap (missPage d page write id)
        else
          let d := if pe = 1 then d.setFlag F.mapErr_tag_pe true else d
          let d := d.addWrap F.mapHits_count 1
          let d := if write then writeEntry d i e else d
          match e.filling, mapSlot d i with
          | some ids, some e => syncMap (setMapSlot d i (some { e with filling := some (ids ++ [id]) }))
          | _, _ => syncMap (consumePage d [id] page e.poison)
    | none =>
      if d.map.side.contains page then
        let d := d.addWrap F.mapHits_count 1
        let bad := d.map.poisoned.contains page
        let d := match placePage d { page := page, dirty := write && !d.flag F.mapStat_disabling, poison := bad } with
          | some d => d.updMap fun m => { m with side := m.side.filter fun p => p != page }
          | none => d
        syncMap (consumePage d [id] page bad)
      else syncMap (missPage d page write id)

def execMapLookup (page : Nat) (write : Bool) (pe id : Nat) (s : State) : Outcome State Fault Refusal :=
  lift s (mapLookup page write pe id)

/-- MAP_FILL_DONE: the fill reaches its entry, and the commands whose lookups wait for it receive the page (R134, R136, R137).
[DEDUCED: assumption log 68] -/
def mapFillDone (page : Nat) (d : Dev) : Dev :=
  match pageIndex d page with
  | none => d
  | some i =>
    match mapSlot d i with
    | none => d
    | some e =>
      match e.filling with
      | none => d
      | some ids =>
        let ce := d.ecc.planted.any fun p => p.1 == 0x3FF && p.2.2 == 0 && p.2.1 / 4096 == page
        let r := pageFromDram d page
        let d := if r.1 then r.2.setFlag F.mapErr_data_ue true else r.2
        let d := if ce then d.setFlag F.mapErr_data_ce true else d
        syncMap (consumePage (setMapSlot d i (some { e with filling := none, poison := r.1 })) ids page r.1)

def execMapFillDone (page : Nat) (s : State) : Outcome State Fault Refusal := lift s (mapFillDone page)

/-- MAP_PREFETCH (R135): of four side-buffer entries the oldest is dropped. [DEDUCED: assumption log 66] -/
def mapPrefetch (page : Nat) (d : Dev) : Dev :=
  if !d.flag F.mapStat_enabled || !d.flag F.mapCtl_prefetch_en || (pageIndex d page).isSome || d.map.side.contains page then d
  else
    let r := pageFromDram d page
    let d := r.2.updMap fun m => { m with
      side := (if 4 ≤ m.side.length then m.side.drop 1 else m.side) ++ [page],
      poisoned := if r.1 && !m.poisoned.contains page then m.poisoned ++ [page] else m.poisoned }
    syncMap d

def execMapPrefetch (page : Nat) (s : State) : Outcome State Fault Refusal := lift s (mapPrefetch page)

/-! ### Maintenance (R137) -/

/-- The operation takes effect on the page's copies; `hit` tells whether one was found. -/
def maintEffect (d : Dev) (page op : Nat) : Dev :=
  let at' := pageIndex d page
  let d := d.setFlag F.mapMaintStat_hit (at'.isSome || d.map.side.contains page)
  let d := match at' with
    | none => d
    | some i =>
      let d := if op = 1 then d else cleanEntry d i
      if op = 0 then d else setMapSlot d i none
  let d := if op = 0 then d else d.updMap fun m => { m with side := m.side.filter fun p => p != page }
  syncMap (d.setFlag F.mapMaintStat_busy false)

/-- A fill of the page is in flight. -/
def fillInFlight (d : Dev) (page : Nat) : Bool := d.map.entries.any fun e => e.2.any fun x => x.page == page && x.filling.isSome

/-- MAP_MAINT with go, which is ignored while busy and for op 3; it waits for a fill of its page. [DEDUCED: assumption log 64] -/
def maintStart (page op : Nat) (d : Dev) : Dev :=
  let d := (d.wr F.mapMaint_page page).wr F.mapMaint_op op
  if d.flag F.mapMaintStat_busy || decide (3 ≤ op) then d
  else
    if fillInFlight d (page % 2 ^ 24) then
      ((d.setFlag F.mapMaintStat_busy true).setFlag F.mapMaintStat_waited_fill true).updMap fun m =>
        { m with waiting := some (page % 2 ^ 24, op) }
    else maintEffect d (page % 2 ^ 24) op

/-- MAP_CLEAN. -/
def execMapClean (_rq : Requester) (page : Nat) (s : State) : Outcome State Fault Refusal := lift s (maintStart page 0)

/-- MAP_INVALIDATE. -/
def execMapInvalidate (_rq : Requester) (page : Nat) (s : State) : Outcome State Fault Refusal := lift s (maintStart page 1)

/-- MAP_CLEAN_INVALIDATE. -/
def execMapCleanInvalidate (_rq : Requester) (page : Nat) (s : State) : Outcome State Fault Refusal := lift s (maintStart page 2)

/-- MAP_MAINT_DONE: the fill it waited for has completed, and it acts on the filled entry. -/
def maintDone (d : Dev) : Dev :=
  match d.map.waiting with
  | none => d
  | some (page, op) =>
    if fillInFlight d page then d else maintEffect (d.updMap fun m => { m with waiting := none }) page op

def execMapMaintDone (s : State) : Outcome State Fault Refusal := lift s maintDone

/-! ### Enable and disable (R138) -/

/-- MAP_ENABLE: during a disable the cache is enabled again once that has ended. [DEDUCED: assumption log 67] -/
def mapEnable (d : Dev) : Dev :=
  let d := d.setFlag F.mapCtl_enable true
  if d.flag F.mapStat_disabling then d else d.setFlag F.mapStat_enabled true

def execMapEnable (_rq : Requester) (s : State) : Outcome State Fault Refusal := lift s mapEnable

/-- MAP_DISABLE. -/
def mapDisable (d : Dev) : Dev :=
  let d := d.setFlag F.mapCtl_enable false
  if d.flag F.mapStat_enabled then d.setFlag F.mapStat_disabling true else d

def execMapDisable (_rq : Requester) (s : State) : Outcome State Fault Refusal := lift s mapDisable

/-- MAP_DISABLE_COMPLETE: every dirty entry is cleaned, then everything is invalidated; a fill in flight completes first.
[DEDUCED: assumption log 66 and 67] -/
def disableComplete (d : Dev) : Dev :=
  if !d.flag F.mapStat_disabling || d.map.entries.any (fun e => e.2.any fun x => x.filling.isSome) then d
  else
    let d := forEach (List.range 64) d cleanEntry
    let d := d.updMap fun m => { m with entries := [], side := [] }
    let d := (d.setFlag F.mapStat_disabling false).setFlag F.mapStat_enabled (d.flag F.mapCtl_enable)
    syncMap d

def execMapDisableComplete (s : State) : Outcome State Fault Refusal := lift s disableComplete

/-! ### Groups (R139, R140) -/

/-- What a group's bits ask for: 0 cache, 1 powered down, 2 scratch. -/
def groupTarget (d : Dev) (g : Nat) : Nat :=
  if d.bit F.mapGrpCtl_pwr_down g then 1 else if d.bit F.mapGrpCtl_scratch g then 2 else 0

/-- What a group is. -/
def groupNow (d : Dev) (g : Nat) : Nat :=
  if d.bit F.mapGrpStat_down g then 1 else if d.bit F.mapGrpStat_is_scratch g then 2 else 0

/-- A group's bits were written: a transition starts, or turns; a group that leaves scratch is not addressable any more.
[DEDUCED: assumption log 67] -/
def retarget (d : Dev) (g : Nat) : Dev :=
  let t := groupTarget d g
  let moving (b : Bool) (d : Dev) : Dev := (d.setBit F.mapGrpStat_busy g b).updMap fun m => { m with
    moving := (m.moving.filter fun x => x.1 != g) ++ (if b then [(g, t)] else []) }
  if t = groupNow d g then (if d.bit F.mapGrpStat_busy g then moving false d else d)
  else moving true (d.setBit F.mapGrpStat_is_scratch g false)

/-- MAP_GRP_CTL written: with more than four scratch bits ignored whole. -/
def writeGroups (down scratch : Nat) (d : Dev) : Dev :=
  if 4 < ((List.range 8).filter fun g => scratch.testBit g).length then d.setFlag F.mapErr_cfg_err true
  else forEach (List.range 8) ((d.wr F.mapGrpCtl_pwr_down down).wr F.mapGrpCtl_scratch scratch) retarget

/-- MAP_GROUP_POWER_DOWN. -/
def execMapGroupPowerDown (_rq : Requester) (g : Fin 8) (s : State) : Outcome State Fault Refusal :=
  lift s fun d => writeGroups (d.rd F.mapGrpCtl_pwr_down ||| 2 ^ g.val) (d.rd F.mapGrpCtl_scratch) d

/-- MAP_GROUP_SCRATCH: the bits of `mask` set. -/
def execMapGroupScratch (_rq : Requester) (mask : Fin 256) (s : State) : Outcome State Fault Refusal :=
  lift s fun d => writeGroups (d.rd F.mapGrpCtl_pwr_down) (d.rd F.mapGrpCtl_scratch ||| mask.val) d

/-- A bit of a byte cleared. -/
def clearBit (v b : Nat) : Nat := if v.testBit b then v - 2 ^ b else v

/-- MAP_GROUP_RESTORE: the scratch bit, or the pwr_down bit, cleared. -/
def execMapGroupRestore (_rq : Requester) (g : Fin 8) (scratch : Bool) (s : State) : Outcome State Fault Refusal :=
  lift s fun d =>
    let down := d.rd F.mapGrpCtl_pwr_down
    let scr := d.rd F.mapGrpCtl_scratch
    if scratch then writeGroups down (clearBit scr g.val) d else writeGroups (clearBit down g.val) scr d

/-- MAP_GROUP_TRANSITION_DONE: a fill placed into the group and a lesson's access to it in progress (R196) complete first; dirty entries cleaned, all invalidated, and the array
zeroed with valid check bits or powered down. [DEDUCED: assumption log 66 and 67] -/
def groupDone (g : Nat) (d : Dev) (m : List Host.Cell) : Dev × List Host.Cell :=
  match d.map.moving.find? fun x => x.1 == g with
  | none => (d, m)
  | some (_, t) =>
    let own := (List.range 8).map fun k => 8 * g + k
    let lesson := (List.range 8).any fun a => match (d.seq a).wait with
      | .scratch _ _ k _ _ => k == g
      | _ => false
    if lesson || own.any fun i => (mapSlot d i).any fun e => e.filling.isSome then (d, m)
    else
      let d := forEach own d fun d i => setMapSlot (cleanEntry d i) i none
      let d := ((d.setBit F.mapGrpStat_down g (t == 1)).setBit F.mapGrpStat_is_scratch g (t == 2)).setBit F.mapGrpStat_busy g false
      let d := d.updMap fun x => { x with moving := x.moving.filter fun y => y.1 != g }
      (syncMap (wipeMac d (256 + g)), memZero m (scratchBase g) 0x8000)

def execMapGroupTransitionDone (g : Fin 8) (s : State) : Outcome State Fault Refusal := liftMem s (groupDone g.val)

/-- An access at a byte offset of the window of group g (R140, R446): the window is macro 256 + g; a poisoned word read gets an
error response (R342). [DEDUCED: assumption log 32] -/
def scratchAccess (rq : Requester) (g off : Nat) (acc : Access) (d : Dev) (m : List Host.Cell) : Dev × List Host.Cell :=
  let addr := scratchBase g + off
  if !legalSize off (accSize acc) then (busError d rq addr (accIsWrite acc) 2, m)
  else if !d.bit F.mapGrpStat_is_scratch g then (busError d rq addr (accIsWrite acc) 4, m)
  else match acc with
    | .rd n =>
      let r := macRead d (256 + g) off n
      if r.1 then (busError r.2 rq addr false 3, m) else (busOk r.2 rq (memRead m addr n), m)
    | .wr n data => (busOk (macWritten d (256 + g) off n) rq 0, memWrite m addr data.toNat n)

/-- SCRATCH_ACCESS (R140). -/
def execScratchAccess (rq : Requester) (g : Fin 8) (offset : Nat) (acc : Access) (s : State) : Outcome State Fault Refusal :=
  liftMem s (scratchAccess rq g.val (offset % 0x8000) acc)

end Sys2Proof.Machine
end

