-- ==== Sys2Proof/Machine/Psp.lean ====
section
/-! DEFINITION. Preamplifier register frames over the serial port of an actuator (R428, R429). -/
namespace Sys2Proof.Machine

open Host (Outcome)

/-- PSP_RAW written with go (R8, R428): its RW fields take the values written, and go queues the frame they name; go alone is
ignored while a frame is pending. [DEDUCED: assumption log 19] -/
def pspRaw (a : Nat) (rd : Bool) (head addr data : Nat) (d : Dev) : Dev :=
  let d := ((d.wr F.pspRaw_data data a).wr F.pspRaw_addr addr a).wr F.pspRaw_head head a
  let d := d.setFlag F.pspRaw_rd rd a
  if d.flag F.pspRaw_busy a then d
  else (d.setFlag F.pspRaw_busy true a).updSeq a fun q => { q with raw := some (rd, head % 16, addr % 2048, data % 65536) }

/-- PSP_RAW_FRAME. -/
def execPspRawFrame (a : ActId) (rd : Bool) (head addr : Nat) (data : BitVec 16) (s : State) : Outcome State Fault Refusal :=
  lift s (pspRaw a.val rd head addr data.toNat)

/-- A frame has ended.  The pending raw frame goes out and its read data becomes available; any other frame is a poll, whose
first after the start reads the ID register (assumption log 19). -/
def pspDone (a data : Nat) (d : Dev) : Dev :=
  let first := d.rd F.pspStat_frames a == 0
  let d := d.addSat F.pspStat_frames 1 a
  match (d.seq a).raw with
  | some (rd, head, addr, v) =>
    let d := (d.updSeq a fun q => { q with raw := none }).emitSlot (a / 2) (.psp a rd head addr v)
    (if rd then d.wr F.pspRaw_data data a else d).setFlag F.pspRaw_busy false a
  | none => if first then d.wr F.pspStat_id data a else d

/-- PSP_FRAME_DONE. -/
def execPspFrameDone (a : ActId) (data : BitVec 16) (s : State) : Outcome State Fault Refusal := lift s (pspDone a.val data.toNat)

end Sys2Proof.Machine
end

