-- ==== Sys2Proof/Machine/Logs.lean ====
section
/-! DEFINITION. Log pages: Report Card, chain topology, Detention, head health, Telemetry, SMART (R106, R133, R248, R333, R371,
R412, R415, R418). -/
namespace Sys2Proof.Machine

open Host (Outcome)

/-- The bytes a cursor or the log page reads (R411, R412): a record, or the live image; an invalid slot reads all ones.
[DEDUCED: assumption log 59] -/
def cardImage (d : Dev) (area index : Nat) : List Byte × Bool :=
  if area = 3 then (recordBytes d 3 d.card.cur (d.rd F.evrPos_seconds), true)
  else
    let b := d.cardSlot area index
    if index < areaSlots area && recordValid b then (b, true) else (List.replicate 4096 0xFF#8, false)

/-- The oldest valid epoch of the circulating area; all ones for none. -/
def oldestEpoch (d : Dev) : Nat :=
  ((d.card.slots.filter fun s => decide (4096 ≤ s.1 ∧ s.1 < 8192) && recordValid s.2).map fun s => leBytes s.2 8 4).foldl min 0xFFFFFFFF

/-- The directory of R412. -/
def cardDirectory (d : Dev) : List Nat :=
  pageField d.card.cur.epoch 4 ++ pageField (oldestEpoch d) 4 ++ pageField (d.rd F.evrPos_seconds) 8 ++
  pageField ((d.flag F.evrCtl_frozen).toNat + 2 * (d.flag F.evrStat_auto_thawed).toNat) 1 ++ pageField 0 47

/-- GET_LOG_REPORT_CARD (R412). [DEDUCED: assumption log 59] -/
def logCard (h cid lsp lsi offset : Nat) (d : Dev) : Dev :=
  if lsp.testBit 2 then adminPage d h cid ((cardDirectory d).drop offset)
  else if 4096 ≤ offset then adminEnd d h cid stInvalidField 0
  else adminPage d h cid (pageBytes ((cardImage d (lsp % 4) lsi).1.drop offset))

def execGetLogReportCard (h : HstId) (cid lsp lsi offset : Nat) (s : State) : Outcome State Fault Refusal :=
  lift s (adminDo h.val cid true true (logCard h.val cid lsp lsi offset))

/-- An entry of log page 0xC1 (R333). -/
def nodeEntry (i : Nat) (n : ChainNode) : List Nat :=
  pageField n.addr 4 ++ pageField (!n.reach).toNat 1 ++ pageField (if i = 0 then 0xFF else n.prim) 1 ++ pageField (n.alt.getD 0xFF) 1 ++
  pageField (n.root.toNat + 2 * n.encPath.toNat) 1 ++ pageField n.hops 2 ++ pageField n.altHops 2 ++ pageField n.nss 2 ++
  pageField 0 2 ++ pageField n.devId 16

/-- GET_LOG_CHAIN_TOPOLOGY (R333). [DEDUCED: assumption log 59] -/
def topologyPage (d : Dev) : List Nat :=
  pageField d.chain.nodes.length 4 ++ pageField d.chain.topoGen 4 ++ pageField (ownAddr d) 4 ++
  pageField ((d.flag F.lmlNode_root).toNat + 2 * (d.flag F.lmlNode_lead).toNat + 4 * d.chain.rcFail.toNat) 1 ++
  pageField (d.flag F.lmlNode_fixed).toNat 1 ++ pageField 0 50 ++ d.chain.nodes.zipIdx.flatMap fun n => nodeEntry n.2 n.1

def execGetLogChainTopology (h : HstId) (cid : Nat) (s : State) : Outcome State Fault Refusal :=
  lift s (adminDo h.val cid true true fun d => adminPage d h.val cid (topologyPage d))

/-- A Detention entry (R133). -/
def detBytes (e : DetEntry) : List Nat :=
  pageField (e.lba.getD (2 ^ 64 - 1)) 8 ++ pageField e.nsid 4 ++ pageField e.lba.isNone.toNat 1 ++ pageField e.reason 1 ++
  pageField e.state 1 ++ pageField e.act 1 ++ pageField e.head 1 ++ pageField 0 3 ++ pageField e.track 4 ++ pageField e.time 8

/-- GET_LOG_DETENTION (R133): the entries of a namespace. [DEDUCED: assumption log 59] -/
def logDetention (h cid nsid : Nat) (d : Dev) : Dev :=
  match localNs d nsid with
  | none => adminEnd d h cid stInvalidNs 0
  | some _ =>
    let es := d.host.detention.filter fun e => e.nsid == nsid
    adminPage d h cid (pageField es.length 4 ++ pageField d.host.detGen 4 ++ pageField 0 8 ++ es.flatMap detBytes)

def execGetLogDetention (h : HstId) (cid nsid : Nat) (s : State) : Outcome State Fault Refusal :=
  lift s (adminDo h.val cid true true (logDetention h.val cid nsid))

/-- A head health entry (R248): zeros for an absent head. -/
def healthEntry (d : Dev) (e : Nat) : List Nat :=
  let a := e / 12
  let head := e % 12
  if !(d.actPresent a && decide (head < d.hdaHeads (a / 2))) then pageField 0 48
  else
    let x := d.headHealth e
    let c := 2 * a
    let bad (f : Fld) : Bool := d.flag f c head || d.flag f (c + 1) head
    let faulty := (bad F.chnSkew_fault_0).toNat + 2 * (bad F.chnSkew_fault_1).toNat
    pageField a 1 ++ pageField head 1 ++ pageField (d.hdaAssist (a / 2)) 1 ++ pageField x.state 1 ++ pageField faulty 1 ++
    pageField (d.rd F.chnFly_write_code c head) 1 ++ pageField (d.rd F.chnFly_td_code c head) 1 ++ pageField 0 1 ++
    pageField x.baseLevel 2 ++ pageField x.curLevel 2 ++ pageField (toTwos 16 x.levelDrift) 2 ++ pageField (toTwos 16 x.effDrift) 2 ++
    pageField (x.onTimeUs / 1000) 8 ++ pageField x.faults 4 ++ pageField x.inhibits 4 ++ pageField x.written 8 ++ pageField x.calTime 8

/-- GET_LOG_HEAD_HEALTH (R248). -/
def execGetLogHeadHealth (h : HstId) (cid : Nat) (s : State) : Outcome State Fault Refusal :=
  lift s (adminDo h.val cid true true fun d =>
    adminPage d h.val cid (pageField 96 4 ++ pageField d.healthGen 4 ++ pageField 0 8 ++ (List.range 96).flatMap (healthEntry d)))

/-- A sealed dump (R415): bytes 0x00-0x3F of its header, and what follows them as one identity (assumption log 174). -/
def dumpHeader (d : Dev) (x : Dump) : List Nat :=
  [0x45, 0x56, 0x50, 0x4D] ++ pageField 1 2 ++ pageField x.recipient 1 ++ pageField x.origin 1 ++ pageField x.seq 4 ++ pageField x.cause 4 ++
  pageField x.second 8 ++ pageField x.fwBuild 8 ++ pageField x.bsBuild 8 ++ pageField d.sec.otp.deviceId 16 ++ pageField x.lcState 1 ++
  pageField x.level 1 ++ pageField 0 2 ++ pageField x.payloadLen 4 ++ [x.sealedPart]

/-- GET_LOG_TELEMETRY (R418): Data Available, Data Generation Number, and data area 1. [DESIGN CHOICE: assumption log 174] -/
def telemetryPage (d : Dev) : List Nat :=
  match d.card.dump with
  | some x => if d.flag F.evrPmStat_kept then [1, d.rd F.evrPmStat_dump_seq % 256] ++ dumpHeader d x else [0, 0]
  | none => [0, 0]

def execGetLogTelemetry (h : HstId) (cid : Nat) (s : State) : Outcome State Fault Refusal :=
  lift s (adminDo h.val cid true true fun d => adminPage d h.val cid (telemetryPage d))

/-- GET_LOG_SMART_HEALTH (R371): Critical Warning, the temperatures, and the thermal transition counts with their times in
seconds of 100 samples. [DEDUCED: assumption log 59] -/
def smartPage (d : Dev) (h : Nat) : List Nat :=
  pageField (if d.therm.warn.contains h then 2 else 0) 1 ++ ((List.range 8).flatMap fun k => pageField (smartTemp d k) 2) ++
  pageField d.therm.entries1 4 ++ pageField d.therm.entries3 4 ++ pageField (d.therm.secs1 / 100) 4 ++ pageField (d.therm.secs3 / 100) 4

def execGetLogSmartHealth (h : HstId) (cid : Nat) (s : State) : Outcome State Fault Refusal :=
  lift s (adminDo h.val cid true true fun d => adminPage d h.val cid (smartPage d h.val))

end Sys2Proof.Machine
end

