-- ==== Sys2Proof/Machine/ReportCard.lean ====
section
/-! DEFINITION. The Report Card's epochs, checkpoints, freezes and windows, and post-mortem resets (R405-R418). -/
namespace Sys2Proof.Machine

open Host (Outcome)

/-! ### Epochs and checkpoints (R405-R407) -/

/-- EPOCH_END: the epoch's nominal second is reached; its record is written, the chip leaving CS2 for it, or it is deferred while
frozen (R413). [DEDUCED: assumption log 169] -/
def epochEnd (d : Dev) : Dev :=
  let d := reachSecond d (86400 * (d.card.cur.epoch + 1))
  if d.flag F.evrCtl_frozen then d.updCard fun c => { c with endedFrozen := true } else closeEpoch (wakeCs2 d) false

def execEpochEnd (s : State) : Outcome State Fault Refusal := lift s epochEnd

/-- A checkpoint falls due: written, or deferred while frozen (R413). [DEDUCED: assumption log 171] -/
def checkpointDue (d : Dev) : Dev :=
  if d.flag F.evrCtl_frozen then d.updCard fun c => { c with ckDue := true } else writeCheckpoint d

/-- The DRAM correctable errors of the hour that ends (extreme 6, R410). [DEDUCED: assumption log 170] -/
def hourErrors (d : Dev) : Dev :=
  let now := d.rd F.eccCe_count 0 0
  (cardExtreme d 6 ((now - d.card.ceMark : Nat) : Int)).updCard fun c => { c with ceMark := now }

/-- CHECKPOINT_TIMER: every 3,600 power-on seconds. [DEDUCED: assumption log 169] -/
def execCheckpointTimer (s : State) : Outcome State Fault Refusal :=
  lift s fun d => checkpointDue (hourErrors (reachSecond (wakeCs2 d) (3600 * (d.rd F.evrPos_seconds / 3600 + 1))))

/-- EVR_CHECKPOINT: EVR_CTL.checkpoint. -/
def execEvrCheckpoint (s : State) : Outcome State Fault Refusal := lift s checkpointDue

/-! ### Freeze and thaw (R413) -/

/-- A freeze; none while frozen. [DEDUCED: assumption log 171] -/
def freezeCard (d : Dev) : Dev :=
  if d.flag F.evrCtl_frozen then d
  else (d.setFlag F.evrCtl_frozen true).updCard fun c => { c with frz := {}, frozenAt := d.rd F.evrPos_seconds }

/-- REPORT_CARD_FREEZE: admin 0xC4 with 1. -/
def execReportCardFreeze (h : HstId) (cid : Nat) (s : State) : Outcome State Fault Refusal :=
  lift s (adminDo h.val cid false false fun d => adminEnd (freezeCard d) h.val cid 0 0)

/-- REPORT_CARD_THAW: admin 0xC4 with 0. -/
def execReportCardThaw (h : HstId) (cid : Nat) (s : State) : Outcome State Fault Refusal :=
  lift s (adminDo h.val cid false false fun d => adminEnd (thawCard d false) h.val cid 0 0)

/-- EVR_FREEZE: EVR_CTL.freeze. -/
def execEvrFreeze (s : State) : Outcome State Fault Refusal := lift s freezeCard

/-- EVR_THAW: EVR_CTL.thaw. -/
def execEvrThaw (s : State) : Outcome State Fault Refusal := lift s fun d => thawCard d false

/-- FREEZE_TIMEOUT: 600 s after the freeze. [DEDUCED: assumption log 169] -/
def execFreezeTimeout (s : State) : Outcome State Fault Refusal :=
  lift s fun d => if d.flag F.evrCtl_frozen then thawCard (reachSecond d (d.card.frozenAt + 600)) true else d

/-! ### Cursors and windows (R411) -/

/-- A fill begins: the window is not ready until it ends. -/
def fillStart (d : Dev) (pr : Nat) : Dev :=
  ((d.setFlag F.evrWinStat_ready false 0 pr).setFlag F.evrWinStat_filling true 0 pr).setFlag F.evrWinStat_empty false 0 pr

/-- A write of EVR_CURSOR. -/
def cursorFill (pr area index offset : Nat) (auto : Bool) (d : Dev) : Dev :=
  let d := (d.wr F.evrCursor_area area 0 pr).wr F.evrCursor_index index 0 pr
  fillStart ((d.wr F.evrCursor_offset offset 0 pr).setFlag F.evrCursor_auto auto 0 pr) pr

/-- CURSOR_FILL. -/
def execCursorFill (_rq : Requester) (pr : Fin 2) (area : Fin 4) (index : Nat) (offset : Fin 16) (auto : Bool) (s : State) :
    Outcome State Fault Refusal :=
  lift s (cursorFill pr.val area.val index offset.val auto)

/-- The end of a fill: the selected 256 bytes as they are now; an invalid slot fills as all ones, with empty set. -/
def fillDone (pr : Nat) (d : Dev) : Dev :=
  if !d.flag F.evrWinStat_filling 0 pr then d
  else
    let (b, valid) := cardImage d (d.rd F.evrCursor_area 0 pr) (d.rd F.evrCursor_index 0 pr)
    let off := 256 * d.rd F.evrCursor_offset 0 pr
    let d := forEach (List.range 32) d fun d k => d.wr F.evrWindow_data (leBytes b (off + 8 * k) 8) 0 (32 * pr + k)
    ((d.setFlag F.evrWinStat_filling false 0 pr).setFlag F.evrWinStat_ready true 0 pr).setFlag F.evrWinStat_empty (!valid) 0 pr

/-- WINDOW_FILL_DONE. -/
def execWindowFillDone (pr : Fin 2) (s : State) : Outcome State Fault Refusal := lift s (fillDone pr.val)

/-- A read of the last window register: with auto-advance the offset moves by 256 bytes, then the index by one.
[DEDUCED: assumption log 176] -/
def windowAdvance (d : Dev) (pr : Nat) : Dev :=
  if !d.flag F.evrCursor_auto 0 pr then d
  else
    let off := d.rd F.evrCursor_offset 0 pr + 1
    let d := d.wr F.evrCursor_offset off 0 pr
    fillStart (if off = 16 then d.addWrap F.evrCursor_index 1 0 pr else d) pr

/-- WINDOW_ADVANCE: the read answers with the register, then the cursor moves. [DEDUCED: assumption log 176] -/
def execWindowAdvance (rq : Requester) (pr : Fin 2) (s : State) : Outcome State Fault Refusal :=
  lift s fun d => windowAdvance (busOk d rq (d.rd F.evrWindow_data 0 (32 * pr.val + 31))) pr.val

/-! ### Post-mortem resets (R414-R417) -/

/-- The recipient of a dump (R414): 1 the owner dump key, 2 the Evestien service key; none where no dump is written.
[DEDUCED: assumption log 173] -/
def dumpRecipient (d : Dev) : Option Nat :=
  match d.rd F.secLc_state with
  | 3 => if d.sec.otp.dumpHash != 0 && d.card.dumpKey.isSome then some 1 else none
  | 5 => none
  | _ => some (if d.card.dumpKey.isSome then 1 else 2)

/-- What lies in the dump partition when the reset begins: the dump firmware wrote, or where none is valid the header that the
reset writes.  The length and the identity of what firmware sealed are free values (assumption log 174). [DEDUCED: assumption log 173] -/
def dumpOf (d : Dev) (byFirmware : Bool) (len contents : Nat) : Dump :=
  { recipient := (dumpRecipient d).getD 1
    origin := if byFirmware then 0 else 1
    seq := d.card.seq + 1
    cause := d.rd F.evrPmCtl_cause
    second := d.rd F.evrPos_seconds
    fwBuild := d.fw.build
    bsBuild := d.rd F.glbStructVer_build_version
    lcState := d.rd F.secLc_state
    level := d.rd F.secDbg_level
    payloadLen := if byFirmware then len % 67108497 else 0
    sealedPart := contents }

/-- A post-mortem reset: R94's steps driven by hardware, with a checkpoint; ignored while a stop runs.
[DEDUCED: assumption log 172 and 173 and 175] -/
def postMortem (origin : Nat) (d : Dev) : Dev :=
  if stopping d ∨ d.reset.held ∨ d.reset.waitCool then d
  else
    let wrote := origin == 0 && d.flag F.evrPmCtl_dump_valid && (dumpRecipient d).isSome
    let (len, d) := d.draw
    let (contents, d) := d.draw
    let x := dumpOf d wrote len contents
    let d := beginStop (d.addSat F.evrPmStat_resets 1) false (some origin)
    d.updCard fun c => { c with dump := some x, seq := if wrote then x.seq else c.seq }

/-- POST_MORTEM_RESET: EVR_PM_CTL.go. -/
def execPostMortemReset (s : State) : Outcome State Fault Refusal := lift s (postMortem 0)

/-- WATCHDOG_KICK: the timeout starts again; the model holds no time (assumption log 18). -/
def execWatchdogKick (s : State) : Outcome State Fault Refusal := lift s fun d => d

/-- WATCHDOG_EXPIRY: a post-mortem reset with no dump, while the watchdog is on. -/
def execWatchdogExpiry (s : State) : Outcome State Fault Refusal :=
  lift s fun d => if d.rd F.evrWdog_timeout_ms = 0 then d else postMortem 1 d

end Sys2Proof.Machine
end

