-- ==== Sys2Proof/Machine/Transact.lean ====
section
/-! DEFINITION. Forwarded commands: the transaction between root and target, its frames, its timers and the dedupe table
(R325-R330). -/
namespace Sys2Proof.Machine

open Host (Outcome)

def Dev.updChain (d : Dev) (g : ChainState → ChainState) : Dev := { d with chain := g d.chain }
def Dev.rootTx (d : Dev) (tag : Nat) : Option RootTx := d.chain.root.find? fun t => t.tag == tag
def Dev.updTx (d : Dev) (tag : Nat) (g : RootTx → RootTx) : Dev :=
  d.updChain fun c => { c with root := listMapIf (fun t => t.tag == tag) g c.root }
def Dev.entry (d : Dev) (src tag : Nat) : Option Dedupe := d.chain.dedupe.find? fun e => e.src == src && e.tag == tag
def Dev.updEntry (d : Dev) (src tag : Nat) (g : Dedupe → Dedupe) : Dev :=
  d.updChain fun c => { c with dedupe := listMapIf (fun e => e.src == src && e.tag == tag) g c.dedupe }

/-- LML_DEDUP.in_use. -/
def syncDedup (d : Dev) : Dev := d.wr F.lmlDedup_in_use d.chain.dedupe.length

/-- What every step on transactions ends with: NAKs of this device's own drops, and the table's view. -/
def settleChain (d : Dev) : Dev := syncHost (syncDedup (takeNaks d))

/-- A frame of a transaction from the target, on the path of the last frame it received (R325). -/
def answer (d : Dev) (e : Dedupe) (ty : Nat) (spec : List Nat) : Dev :=
  originate d (mkFrame d e.src ty e.tag e.path e.attempt e.rbudget spec [] 0)

/-! ### The target -/

/-- The kind a CMD frame's number names. [DEDUCED: assumption log 138] -/
def codeKind (code act : Nat) : Option IoKind :=
  let all := act % 2 == 1
  match code with
  | 0 => some .read
  | 1 => some .write
  | 2 => some .writeZeroes
  | 3 => some .writeUncorrectable
  | 4 => some .compare
  | 5 => some .verify
  | 6 => some .deallocate
  | 7 => some .copy
  | 8 => some .append
  | 9 => match act / 2 with
    | 0 => some (.zone .openZone all)
    | 1 => some (.zone .closeZone all)
    | 2 => some (.zone .finishZone all)
    | 3 => some (.zone .resetZone all)
    | 4 => some (.zone .offlineZone all)
    | _ => none
  | 10 => some .zoneReport
  | 11 => some .flush
  | 12 => some .compAppend
  | 13 => some .compRead
  | 14 => some .ctxSave
  | 15 => some .ctxRestore
  | 16 => some .latGet
  | 17 => some .latSet
  | 18 => some .identify
  | 19 => some .dsmOther
  | _ => none

/-- Ranges after the SQE. [DEDUCED: assumption log 138] -/
def bodyRanges : List Nat → List LbaRange
  | n :: s :: c :: k :: t => { nsid := n, slba := s, count := c, tag := k } :: bodyRanges t
  | _ => []

/-- The command a CMD frame carries (R314). [DEDUCED: assumption log 138] -/
def cmdOf (f : Frame) : Option IoCmd :=
  let b (i : Nat) : Nat := f.body.getD i 0
  (codeKind (b 0) (b 1)).map fun k =>
    { kind := k, nsid := f.spec.getD 1 0 % 1024, slba := b 2, count := b 3, fua := b 4 == 1, keyTag := b 5, value := b 6, ctx := b 7,
      stored := b 8, bufLbas := b 9, cont := b 10 == 1, level := b 11, gcm := b 12 == 1, ranges := bodyRanges (f.body.drop 13) }

/-- The CTX transit share (R52, R75). -/
def transitShare (d : Dev) : Nat := d.secField 8 0 8 4

/-- Fetching is stopped for chain roots (R95, R397), but not by an activation, whose 0x86 the command meets here (R67).
[DEDUCED: assumption log 142] -/
def chainStopped (d : Dev) : Bool := d.host.stops.any fun r => r != 1

/-- A new transaction (R325 phases 1 and 2): a dedupe entry, ACK, and the command in FE(2 + p). -/
def acceptCmd (d : Dev) (p : Nat) (f : Frame) (c : IoCmd) : Dev :=
  let e : Dedupe := {
    src := f.src, tag := f.tag, active := true, port := p, id := d.host.nextId, path := f.path, attempt := f.attempt,
    rbudget := f.spec.headD 0, wclass := writesData c.kind || dataWanted c != 0, cmd := f }
  let d := d.updChain fun s => { s with dedupe := s.dedupe.filter (fun x => !(x.src == f.src && x.tag == f.tag)) ++ [e] }
  enterCmd (answer d e ftAck []) (.chain p f.src f.tag f.attempt) (2 + p) c

/-- The bytes of a write-class transaction that have not arrived: from the first missing offset to the end. -/
def missingFrom (e : Dedupe) : Option Nat :=
  (List.range (ceilDiv e.want 4096)).findSome? fun i => if e.got.any fun g => g.1 == 4096 * i then none else some (4096 * i)

/-- XRDY for the bytes not yet received. -/
def askMissing (d : Dev) (e : Dedupe) : Dev :=
  match missingFrom e with
  | some off => if e.xrdy = 0 then d else answer d e ftXrdy [off, e.want - off]
  | none => d

/-- LOMEY_CMD (R75, R95, R327, R328): without a transit context, or while fetching is stopped, a command not begun here is refused as busy. [DEDUCED: assumption log 128] -/
def cmdArrived (p : Nat) (f : Frame) (d : Dev) : Dev :=
  match cmdOf f with
  | none => d.addWrap F.lmlCnt_count 1 p 7
  | some c =>
    let busy (d : Dev) : Dev := originate (d.setFlag F.lmlEvt_busy_nak true p) (nakFor d f 3)
    let noRoom := decide (transitShare d ≤ transitInUse d) || chainStopped d
    match d.entry f.src f.tag with
    | some e =>
      let d := d.updEntry f.src f.tag fun e => { e with path := f.path, attempt := f.attempt }
      let e := { e with path := f.path, attempt := f.attempt }
      if e.active then
        let d := answer d e ftAck []
        if e.wclass then askMissing d e else d
      else if e.wclass then
        match e.cpl with
        | some g => originate d { g with path := f.path, attempt := f.attempt, seq := 0 }
        | none => d
      else if noRoom then busy d
      else acceptCmd d p f c
    | none =>
      if 65536 ≤ d.chain.dedupe.length then busy (d.addSat F.lmlDedup_full_naks 1)
      else if noRoom then busy d
      else acceptCmd d p f c

def execLomeyCmd (p : LmlId) (f : Frame) (s : State) : Outcome State Fault Refusal :=
  lift s fun d => settleChain (cmdArrived p.val f d)

/-- The write data of a transaction, once whole, becomes the command's: as blocks, or as the bytes of a chunk or image. -/
def dataWhole (d : Dev) (e : Dedupe) : Dev :=
  let toks := (List.range (ceilDiv e.want 4096)).map fun i => ((e.got.find? fun g => g.1 == 4096 * i).map (·.2.headD 0)).getD 0
  let bytes := (toks.flatMap fun t => toBytes t 4096).take e.want
  let d := d.updCtx e.id fun x => { x with c := match x.c.kind with
    | .compAppend | .ctxRestore => { x.c with chunk := bytes }
    | _ => { x.c with toks := toks } }
  match d.ctx? e.id with
  | some x => if x.c.kind == .compare && x.stage == .moving then startRead d x else d
  | none => d

/-- LOMEY_WDATA (R325 phase 4, R342): poisoned data ends the command with 0x82; data of a transaction not held is stale.
[DEDUCED: assumption log 138] -/
def wdataArrived (f : Frame) (d : Dev) : Dev :=
  match d.entry f.src f.tag with
  | none => staleFrame d
  | some e =>
    if !e.active then staleFrame d
    else if f.poison then targetEnd (d.updEntry f.src f.tag fun e => { e with path := f.path }) e stPoison
    else
      let off := f.spec.headD 0
      let d := d.updEntry f.src f.tag fun e => { e with path := f.path, got := (e.got.filter fun g => g.1 != off) ++ [(off, f.body)] }
      match d.entry f.src f.tag with
      | some e => if e.want != 0 && (missingFrom e).isNone then dataWhole d e else d
      | none => d

def execLomeyWdata (_p : LmlId) (f : Frame) (s : State) : Outcome State Fault Refusal :=
  lift s fun d => settleChain (wdataArrived f d)

/-- LOMEY_CANCEL (R325): data not yet covered is discarded, lock and context released, and the transaction ends.
[DEDUCED: assumption log 142] -/
def cancelArrived (f : Frame) (d : Dev) : Dev :=
  match d.entry f.src f.tag with
  | none => staleFrame d
  | some e =>
    if !e.active then staleFrame d
    else
      let d := match d.ctx? e.id with
        | some x =>
          let d := if writesData x.c.kind && !(dataIn x && whollyCovered d x.id) then restorePtr (undoContext (discardData d x.id) x) x else d
          discardCtx d x.id
        | none => d
      d.updEntry f.src f.tag fun e => { e with active := false, path := f.path }

def execLomeyCancel (_p : LmlId) (f : Frame) (s : State) : Outcome State Fault Refusal :=
  lift s fun d => settleChain (cancelArrived f d)

/-- PROG_TIMER (R325): 1 ms without a frame of a transaction this device holds. -/
def execProgTimer (src tag : Nat) (s : State) : Outcome State Fault Refusal :=
  lift s fun d => match d.entry src tag with
    | some e => if e.active then settleChain (answer d e ftProg []) else d
    | none => d

/-- XRDY_RETRY_TIMER (R326): the path bit flips; after retries + 1 the target ends with 0x84. -/
def xrdyRetry (src tag : Nat) (d : Dev) : Dev :=
  match d.entry src tag with
  | none => d
  | some e =>
    if !e.active || e.xrdy = 0 || (missingFrom e).isNone then d
    else if d.rd F.lmlE2e_retries + 1 ≤ e.xrdy then targetEnd d e stUnreachable
    else
      let e := { e with path := !e.path, xrdy := e.xrdy + 1 }
      askMissing (d.updEntry src tag fun _ => e) e

def execXrdyRetryTimer (src tag : Nat) (s : State) : Outcome State Fault Refusal :=
  lift s fun d => settleChain (xrdyRetry src tag d)

/-- DEDUPE_EXPIRY (R327): 10 ms after a transaction ended. -/
def execDedupeExpiry (src tag : Nat) (s : State) : Outcome State Fault Refusal :=
  lift s fun d => syncDedup (d.updChain fun c => { c with dedupe := c.dedupe.filter fun e => e.active || !(e.src == src && e.tag == tag) })

/-! ### The root -/

/-- The data a forwarded command sends, block by block. -/
def rootData (x : Ctx) : List Nat :=
  match x.c.kind with
  | .compAppend => chunkToks (fitTo (x.c.count * 4096) x.c.chunk) x.c.count
  | .ctxRestore => chunkToks (fitTo ctxSize x.c.chunk) 9
  | _ => x.c.toks

/-- LOMEY_ACK (R325 phase 2). -/
def ackArrived (f : Frame) (d : Dev) : Dev :=
  match d.rootTx f.tag with
  | none => staleFrame d
  | some _ => d.updTx f.tag fun t => { t with acked := true, busy := false }

def execLomeyAck (_p : LmlId) (f : Frame) (s : State) : Outcome State Fault Refusal :=
  lift s fun d => settleChain (ackArrived f d)

/-- LOMEY_XRDY (R325 phase 4): the host data of the range, on the path the XRDY came. -/
def xrdyArrived (f : Frame) (d : Dev) : Dev :=
  match d.rootTx f.tag with
  | none => staleFrame d
  | some t =>
    let d := d.updTx f.tag fun t => { t with acked := true, path := f.path }
    match d.ctx? t.id with
    | none => d
    | some x =>
      let lo := f.spec.headD 0
      let hi := lo + f.spec.getD 1 0
      let parts := (dataParts x.c.kind (rootData x)).filter fun q => decide (lo ≤ q.1 ∧ q.1 < hi)
      forEach parts.zipIdx d fun d q =>
        originate d { mkFrame d t.addr ftWdata t.tag f.path t.attempt t.cmd.budget [q.1.1, q.1.2.1] q.1.2.2 ((q.1.2.1 + 63) / 64) with
          last := q.2 + 1 == parts.length }

def execLomeyXrdy (_p : LmlId) (f : Frame) (s : State) : Outcome State Fault Refusal :=
  lift s fun d => settleChain (xrdyArrived f d)

/-- Bytes of verified read data held. -/
def bytesHeld (t : RootTx) : Nat := (t.got.map fun g => g.2.headD 0).sum
/-- The read data in order of offset. -/
def dataHeld (t : RootTx) : List Nat := (t.got.foldl (fun (l : List (Nat × List Nat)) g =>
  (l.takeWhile fun x => decide (x.1 < g.1)) ++ [g] ++ l.dropWhile fun x => decide (x.1 < g.1)) []).flatMap fun g => g.2.drop 1

/-- The root posts the completion once it holds every byte that CPL counts (R325 phase 6). -/
def tryCpl (d : Dev) (tag : Nat) : Dev :=
  match d.rootTx tag with
  | none => d
  | some t =>
    match t.cpl with
    | none => d
    | some g =>
      let status := g.spec.getD 3 0
      if bytesHeld t < g.spec.getD 4 0 then d
      else
        let d := match d.ctx? t.id with
          | some x => match x.org with
            | .host h qid cid => if g.body.isEmpty then d else d.emit (.page h (cid * 65536 + qid) g.body)
            | _ => d
          | none => d
        rootFinish d t status (g.spec.headD 0) (dataHeld t)

/-- LOMEY_RDATA (R325 phase 4, R342): only data of the current attempt counts; poison ends the command with 0x82. -/
def rdataArrived (f : Frame) (d : Dev) : Dev :=
  match d.rootTx f.tag with
  | none => staleFrame d
  | some t =>
    if f.attempt ≠ t.attempt then d
    else if f.poison then rootEnd d t stPoison
    else
      let off := f.spec.headD 0
      tryCpl (d.updTx f.tag fun t => { t with
        acked := true, got := (t.got.filter fun g => g.1 != off) ++ [(off, f.spec.getD 1 0 :: f.body)] }) f.tag

def execLomeyRdata (_p : LmlId) (f : Frame) (s : State) : Outcome State Fault Refusal :=
  lift s fun d => settleChain (rdataArrived f d)

/-- LOMEY_CPL. -/
def cplArrived (f : Frame) (d : Dev) : Dev :=
  match d.rootTx f.tag with
  | none => staleFrame d
  | some _ => tryCpl (d.updTx f.tag fun t => { t with acked := true, cpl := some f }) f.tag

def execLomeyCpl (_p : LmlId) (f : Frame) (s : State) : Outcome State Fault Refusal :=
  lift s fun d => settleChain (cplArrived f d)

/-- LOMEY_PROG: the target still holds the transaction. -/
def execLomeyProg (_p : LmlId) (f : Frame) (s : State) : Outcome State Fault Refusal :=
  lift s fun d => settleChain (ackArrived f d)

/-- LOMEY_NAK (R320, R328). -/
def execLomeyNak (_p : LmlId) (f : Frame) (s : State) : Outcome State Fault Refusal :=
  lift s fun d => settleChain (nakArrived d f)

/-- CMD sent again with the next attempt and the path flipped; after retries + 1 the command ends with 0x84 (R326). -/
def cmdRetry (d : Dev) (t : RootTx) : Dev :=
  if d.rd F.lmlE2e_retries + 1 ≤ t.sent then rootEnd d t stUnreachable
  else
    let path := !t.path
    let f := { t.cmd with path := path, attempt := t.attempt + 1, seq := 0 }
    originate (d.updTx t.tag fun t => { t with
      path := path, attempt := t.attempt + 1, sent := t.sent + 1, acked := false, got := [], cpl := if t.wclass then t.cpl else none, cmd := f }) f

/-- CMD_RETRY_TIMER: no ACK or NAK within retry_us. -/
def execCmdRetryTimer (tag : Nat) (s : State) : Outcome State Fault Refusal :=
  lift s fun d => match d.rootTx tag with
    | some t => if t.acked || t.busy then d else settleChain (cmdRetry d t)
    | none => d

/-- IDLE_TIMER: no frame of the transaction for idle_us after ACK, or bytes missing after CPL. -/
def execIdleTimer (tag : Nat) (s : State) : Outcome State Fault Refusal :=
  lift s fun d => match d.rootTx tag with
    | some t => if t.acked then settleChain (cmdRetry d t) else d
    | none => d

/-- BUSY_RETRY_TIMER (R328): the same attempt again, not counted as a retry. -/
def execBusyRetryTimer (tag : Nat) (s : State) : Outcome State Fault Refusal :=
  lift s fun d => match d.rootTx tag with
    | some t => if t.busy then settleChain (originate (d.updTx tag fun t => { t with busy := false }) t.cmd) else d
    | none => d

end Sys2Proof.Machine
end

