-- ==== Sys2Proof/Machine/RollCall.lean ====
section
/-! DEFINITION. Roll Call: announcements, probes and reports, addresses, routes and link notices (R324, R331-R333). -/
namespace Sys2Proof.Machine

open Host (Outcome)

/-- An RC frame on one port, link-local (R312, R314). -/
def rcLocal (d : Dev) (p sub : Nat) (fields : List Nat) : Dev :=
  sendLocal d p (mkFrame d linkLocal ftRc 0 false 0 65535 [sub] fields 1)

/-- An RC frame to a node. -/
def rcTo (d : Dev) (dest sub : Nat) (fields : List Nat) : Dev := originate d (mkFrame d dest ftRc 0 false 0 65535 [sub] fields 1)

/-- A flood: out of every UP port but one. [DEDUCED: assumption log 135] -/
def flood (d : Dev) (except : Option Nat) (sub : Nat) (fields : List Nat) : Dev :=
  forEach ((List.range 4).filter fun p => d.rd F.lmlStat_state p == 3 && except != some p) d fun d p => rcLocal d p sub fields

def isRoot (d : Dev) : Bool := d.flag F.lmlNode_root
def isLead (d : Dev) : Bool := d.flag F.lmlNode_lead
def rcPhase (d : Dev) : Nat := d.rd F.lmlRc_phase

/-- This device's announcement (R331 phase 1). -/
def announceSelf (d : Dev) : Dev :=
  let gen := (d.chain.gen + 1) % 2 ^ 32
  let own := (d.sec.otp.deviceId, gen)
  let d := (d.wr F.lmlRc_phase 1).updChain fun c => { c with gen := gen, heard := [own], announced := c.announced ++ [own] }
  flood d none 0 [d.sec.otp.deviceId, gen]

/-- Roll Call starts on a device whose PORTS root is 1; it is ignored while one runs. -/
def rollStart (d : Dev) : Dev := if !isRoot d || rcPhase d != 0 then d else announceSelf d

/-- ROLL_CALL_START (R331). -/
def execRollCallStart (_fromRegister : Bool) (s : State) : Outcome State Fault Refusal := lift s rollStart

/-- ANNOUNCE: relayed once out of the other UP ports; an idle root answers with its own. [DEDUCED: assumption log 135] -/
def announceHeard (p devId gen : Nat) (d : Dev) : Dev :=
  if d.chain.announced.contains (devId, gen) then d
  else
    let d := rollStart d
    let d := d.updChain fun c => { c with heard := c.heard ++ [(devId, gen)], announced := c.announced ++ [(devId, gen)] }
    flood d (some p) 0 [devId, gen]

def execAnnounce (p : LmlId) (devId gen : Nat) (s : State) : Outcome State Fault Refusal := lift s (announceHeard p.val devId gen)

/-! ### The survey (R331 phase 2) -/

/-- The probe first in line goes out: over its own port, or to the frontier node. -/
def probeNext (d : Dev) : Dev :=
  match d.chain.survey with
  | [] => d
  | (node, exit) :: _ =>
    if node = ownAddr d then rcLocal d exit 1 [0xFF, d.chain.gen] else rcTo d node 1 [exit, d.chain.gen]

/-- The survey begins at this device's own UP ports. [DEDUCED: assumption log 136] -/
def surveyStart (d : Dev) : Dev :=
  let exits := (List.range 4).filter fun p => d.rd F.lmlStat_state p == 3
  probeNext (d.updChain fun c => { c with survey := exits.map fun p => (ownAddr d, p), links := [], fresh := [], nextAddr := ownAddr d + 1 })

/-- ANNOUNCE_TIMEOUT (R331): 10 ms after; the root with the lowest device ID leads and takes 0x00_0001 unless its address is fixed. -/
def announceEnd (d : Dev) : Dev :=
  if rcPhase d ≠ 1 then d
  else
    let lead := d.chain.heard.all fun h => decide (d.sec.otp.deviceId ≤ h.1)
    let d := (d.setFlag F.lmlNode_lead lead).wr F.lmlRc_phase 2
    if !lead then d
    else
      let d := if ownAddr d = 0 then d.wr F.lmlNode_addr 1 else d
      let d := d.updChain fun c => { c with rcFail := false, nodes := c.nodes.modify 0 fun n => { n with addr := ownAddr d } }
      surveyStart d

/-! ### Routes (R321, R331 phase 3, R333) -/

/-- The neighbours of a node over links in routing: port, address. -/
def neighbours (d : Dev) (a : Nat) : List (Nat × Nat) :=
  d.chain.links.flatMap fun l => if !l.up then [] else (if l.a = a then [(l.pa, l.b)] else []) ++ (if l.b = a then [(l.pb, l.a)] else [])

/-- Hop counts from a node without passing through `avoid`, breadth first with `fuel` rounds. -/
def hopsFrom (d : Dev) (avoid : Nat) : Nat → List (Nat × Nat) → List Nat → List (Nat × Nat)
  | 0, seen, _ => seen
  | k + 1, seen, front =>
    let next := ((front.flatMap fun a => (neighbours d a).map (·.2)).eraseDups).filter fun b =>
      b != avoid && !seen.any fun s => s.1 == b
    let dist := (seen.map (·.2)).foldl max 0 + 1
    if next.isEmpty then seen else hopsFrom d avoid k (seen ++ next.map fun b => (b, dist)) next

/-- The ways from a node to another: (hops, port), fewest hops first, ties to the lower port. -/
def waysTo (d : Dev) (a b : Nat) : List (Nat × Nat) :=
  let ways := (List.range 4).filterMap fun p =>
    ((neighbours d a).find? fun n => n.1 == p).bind fun n =>
      ((hopsFrom d a d.chain.nodes.length [(n.2, 0)] [n.2]).find? fun s => s.1 == b).map fun s => (s.2 + 1, p)
  ways.foldl (fun l w => (l.takeWhile fun x => decide (x.1 ≤ w.1)) ++ [w] ++ l.dropWhile fun x => decide (x.1 ≤ w.1)) []

/-- A routing entry: prefix, length, primary port, alternate port. -/
abbrev RouteEntry := Nat × Nat × Nat × Option Nat

/-- Two aligned prefixes of one length with the same ports become one. [DEDUCED: assumption log 136] -/
def mergeLevel (len : Nat) (es : List RouteEntry) : List RouteEntry :=
  let size := 2 ^ (24 - len)
  es.filterMap fun e =>
    if e.2.1 ≠ len then some e
    else
      let low := e.1 / (2 * size) * (2 * size)
      let twin (q : Nat) : Bool := es.contains (q, e.2)
      if twin low && twin (low + size) then (if e.1 = low then some (low, len - 1, e.2.2) else none) else some e

/-- A node's table: one entry for each other reachable node, merged where the prefixes allow. [DEDUCED: assumption log 136] -/
def routesOf (d : Dev) (a : Nat) : List RouteEntry :=
  let es := (d.chain.nodes.filter fun n => n.addr != a && n.reach).filterMap fun n =>
    match waysTo d a n.addr with
    | [] => none
    | [w] => some (n.addr, 24, w.2, none)
    | w :: v :: _ => some (n.addr, 24, w.2, some v.2)
  if es.length ≤ 64 then es else (List.range 24).foldl (fun es k => mergeLevel (24 - k) es) es

/-- The bits of an LML_RT register. -/
def routeWord (e : RouteEntry) : Nat :=
  e.1 + e.2.1 * 2 ^ 24 + 2 ^ 29 + e.2.2.1 * 2 ^ 30 + (match e.2.2.2 with
    | some p => p * 2 ^ 32 + 2 ^ 34
    | none => 0)

/-- An LML_RT register written. -/
def writeRoute (d : Dev) (i w : Nat) : Dev :=
  let d := ((d.wr F.lmlRt_pfx w 0 i).wr F.lmlRt_len (w / 2 ^ 24) 0 i).wr F.lmlRt_valid (w / 2 ^ 29) 0 i
  ((d.wr F.lmlRt_primary (w / 2 ^ 30) 0 i).wr F.lmlRt_alternate (w / 2 ^ 32) 0 i).wr F.lmlRt_alt_valid (w / 2 ^ 34) 0 i

/-- A whole table, entries without a route invalid. -/
def tableWords (d : Dev) (a : Nat) : List Nat :=
  let es := (routesOf d a).map routeWord
  es.take 64 ++ List.replicate (64 - es.length) 0

/-- ROUTE frames of up to 8 entries each to a node, or this device's own table. -/
def writeTable (d : Dev) (a : Nat) : Dev :=
  let ws := tableWords d a
  if a = ownAddr d then forEach ws.zipIdx d fun d w => writeRoute d w.2 w.1
  else forEach (List.range 8) d fun d k =>
    originate d (mkFrame d a ftRoute 0 false 0 65535 [8 * k, 8] ((ws.drop (8 * k)).take 8) 1)

/-- The log page's view of each node: whether it is reachable, its ports and hops, and whether its primary path is encrypted.
[DEDUCED: assumption log 137] -/
def refreshNodes (d : Dev) : Dev :=
  let me := ownAddr d
  let (v, d) := d.draw
  let nodes := d.chain.nodes.zipIdx.map fun n =>
      if n.2 = 0 then n.1
      else match waysTo d me n.1.addr with
        | [] => { n.1 with reach := false }
        | w :: rest => { n.1 with
            reach := true, prim := w.2, hops := w.1, alt := rest.head?.map (·.2), altHops := (rest.head?.map (·.1)).getD 0,
            encPath := d.flag F.lmlStat_secure w.2 && (w.1 == 1 ||
              if n.1.reach && n.1.prim == w.2 && n.1.hops == w.1 then n.1.encPath else v.testBit n.2) }
  d.updChain fun c => { c with nodes := nodes, topoGen := if nodes = c.nodes then c.topoGen else (c.topoGen + 1) % 2 ^ 32 }

/-- New nodes whose routes fit no table of 64 entries stay unreachable (R331). [DEDUCED: assumption log 136] -/
def fitTables (d : Dev) : Dev :=
  let exceeds := d.chain.nodes.any fun n => decide (64 < (routesOf d n.addr).length)
  if exceeds then
    let new := (d.chain.nodes.filter fun n => d.chain.fresh.contains n.devId).map (·.addr)
    refreshNodes ((d.setFlag F.lmlRc_fail true).updChain fun c => { c with
      rcFail := true, links := c.links.filter fun l => !new.contains l.a && !new.contains l.b })
  else d

/-- The survey has ended: the lead root writes every table and floods DONE; another root has its log page. -/
def surveyEnd (d : Dev) : Dev :=
  let d := refreshNodes d
  if isLead d then
    let d := fitTables d
    let d := forEach (d.chain.nodes.filter (·.reach)) d fun d n => writeTable d n.addr
    let d := flood d none 5 [d.chain.gen]
    (d.wr F.lmlRc_phase 0).wr F.lmlRc_generation d.chain.gen
  else d.wr F.lmlRc_phase 0

def execAnnounceTimeout (s : State) : Outcome State Fault Refusal :=
  lift s fun d =>
    let d := announceEnd d
    if rcPhase d = 2 ∧ isLead d = true ∧ d.chain.survey = [] then surveyEnd d else d

/-- PROBE (R331, R332): from its neighbour (exit 0xFF) a node reports itself; a frontier node relays it out of the exit named and
remembers who asked. -/
def probeHeard (p src exit gen : Nat) (d : Dev) : Dev :=
  if 4 ≤ exit then
    rcLocal d p 2 [d.sec.otp.deviceId, ownAddr d, d.rd F.lmlStat_state 0, d.rd F.lmlStat_state 1, d.rd F.lmlStat_state 2,
      d.rd F.lmlStat_state 3, (isRoot d).toNat, p, (d.flag F.lmlNode_fixed).toNat, d.host.nss.length]
  else
    rcLocal (d.updChain fun c => { c with relayed := tabPut 0 c.relayed exit (src + 1) }) exit 1 [0xFF, gen]

def execProbe (p : LmlId) (src exit gen : Nat) (s : State) : Outcome State Fault Refusal := lift s (probeHeard p.val src exit gen)

/-- The next free address of an assignment, passing around those in use. [DEDUCED: assumption log 136] -/
def freeAddr (d : Dev) : Nat → Nat → Nat
  | 0, a => a
  | k + 1, a => if d.chain.nodes.any (fun n => n.addr == a) then freeAddr d k (a + 1) else a

/-- The surveying root takes a report of the probe in line: a node it knows gives a link; a new one takes an address unless it holds
one, and its own exits come next (depth first); an address in use leaves it unreachable (R331). [DEDUCED: assumption log 136] -/
def takeReport (d : Dev) (r : NodeReport) : Dev :=
  match d.chain.survey with
  | [] => d
  | (node, exit) :: rest =>
    let link (d : Dev) (addr : Nat) : Dev := d.updChain fun c => { c with
      links := (c.links.filter fun l => !(l.a == addr && l.pa == r.arrival && l.b == node && l.pb == exit)) ++
        [{ a := node, pa := exit, b := addr, pb := r.arrival }] }
    let d := d.updChain fun c => { c with survey := rest }
    let known := d.chain.nodes.find? fun n => n.devId == r.devId
    let inUse := r.addr != 0 && d.chain.nodes.any fun n => n.addr == r.addr && n.devId != r.devId
    let d :=
      if inUse then (d.setFlag F.lmlRc_fail true).updChain fun c => { c with rcFail := true }
      else
        let held := r.addr != 0
        let addr := if held then r.addr else match known with
          | some n => if n.addr = 0 then freeAddr d d.chain.nodes.length d.chain.nextAddr else n.addr
          | none => freeAddr d d.chain.nodes.length d.chain.nextAddr
        let first := !(d.chain.links.any fun l => l.a == addr || l.b == addr) && addr != ownAddr d
        let d := d.updChain fun c => { c with
          nodes := match known with
            | some _ => listMapIf (fun n => n.devId == r.devId) (fun n => { n with addr := addr, root := r.root, nss := r.nss }) c.nodes
            | none => c.nodes ++ [{ addr := addr, reach := true, prim := 0, alt := none, root := r.root, encPath := false, hops := 0,
                                    altHops := 0, nss := r.nss, devId := r.devId }],
          fresh := if known.isNone then c.fresh ++ [r.devId] else c.fresh,
          nextAddr := max c.nextAddr (if held then c.nextAddr else addr + 1) }
        let d := link d addr
        let d := if held || !isLead d then d
          else if node = ownAddr d then rcLocal d exit 3 [addr, d.chain.gen]
          else rcTo d node 3 [addr, d.chain.gen]
        if first then
          let exits := (r.ports.zipIdx.filter fun q => q.1 == 3 && q.2 != r.arrival).map fun q => (addr, q.2)
          d.updChain fun c => { c with survey := exits ++ c.survey }
        else d
    if d.chain.survey = [] then surveyEnd d else probeNext d

/-- REPORT (R331, R332): a frontier node passes it to the root that asked; a surveying root takes it. -/
def reportHeard (p dest : Nat) (r : NodeReport) (d : Dev) : Dev :=
  let asked := tabGet 0 d.chain.relayed p
  if dest = linkLocal ∧ asked ≠ 0 then
    rcTo (d.updChain fun c => { c with relayed := tabErase c.relayed p, lastReport := some p }) (asked - 1) 2
      ([r.devId, r.addr] ++ r.ports ++ [r.root.toNat, r.arrival, r.fixed.toNat, r.nss])
  else if rcPhase d = 2 ∨ rcPhase d = 3 then takeReport d r
  else d

def execReport (p : LmlId) (dest devId addr : Nat) (ports : List Nat) (root : Bool) (arrival : Nat) (fixed : Bool) (nss : Nat)
    (s : State) : Outcome State Fault Refusal :=
  lift s (reportHeard p.val dest { devId := devId, addr := addr, ports := ports, root := root, arrival := arrival, fixed := fixed, nss := nss })

/-- ASSIGN (R331): a node that holds an address keeps it, and passes the frame on to the neighbour whose report it passed on last. -/
def assignHeard (addr gen : Nat) (d : Dev) : Dev :=
  if ownAddr d ≠ 0 then
    match d.chain.lastReport with
    | some p => rcLocal (d.updChain fun c => { c with lastReport := none }) p 3 [addr, gen]
    | none => d
  else (d.wr F.lmlNode_addr addr).updChain fun c => { c with nodes := c.nodes.modify 0 fun n => { n with addr := addr % 2 ^ 24 } }

def execAssign (_p : LmlId) (addr gen : Nat) (s : State) : Outcome State Fault Refusal := lift s (assignHeard addr gen)

/-- DONE (R331 phase 3): relayed once; a root that does not lead then surveys the chain for its own log page.
[DEDUCED: assumption log 135] -/
def doneHeard (p gen : Nat) (d : Dev) : Dev :=
  if d.rd F.lmlRc_generation = gen then d
  else
    let d := flood (d.wr F.lmlRc_generation gen) (some p) 5 [gen]
    if isRoot d && !isLead d then
      let d := surveyStart (d.wr F.lmlRc_phase 3)
      if d.chain.survey = [] then surveyEnd d else d
    else d.wr F.lmlRc_phase 0

def execDone (p : LmlId) (gen : Nat) (s : State) : Outcome State Fault Refusal := lift s (doneHeard p.val gen)

/-- The state of a port as a notice tells it: the links it ends change; the lead root writes the routes again (R324). -/
def linkChanged (d : Dev) (addr port : Nat) (up : Bool) : Dev :=
  let hit (l : ChainLink) : Bool := (l.a == addr && l.pa == port) || (l.b == addr && l.pb == port)
  let d := d.updChain fun c => { c with links := listMapIf hit (fun l => { l with up := up }) c.links }
  if !isRoot d then d
  else
    let d := refreshNodes d
    if isLead d then forEach (d.chain.nodes.filter (·.reach)) d fun d n => writeTable d n.addr else d

/-- A notice of this device's own (R323, R324). -/
def sendNotice (d : Dev) (port : Nat) (up : Bool) : Dev :=
  let d := d.updChain fun c => { c with told := tabPut 0 c.told (ownAddr d * 4 + port) (1 + up.toNat) }
  let d := flood d (some port) 6 [ownAddr d, port, up.toNat]
  let d := linkChanged d (ownAddr d) port up
  if up then rollStart d else d

/-- NOTICE (R324, R331): relayed once for each change; a link that comes up starts Roll Call. [DEDUCED: assumption log 135] -/
def noticeHeard (p addr port : Nat) (up : Bool) (d : Dev) : Dev :=
  if tabGet 0 d.chain.told (addr * 4 + port) = 1 + up.toNat then d
  else
    let d := d.updChain fun c => { c with told := tabPut 0 c.told (addr * 4 + port) (1 + up.toNat) }
    let d := flood d (some p) 6 [addr, port, up.toNat]
    let d := linkChanged d addr port up
    if up then rollStart d else d

def execNotice (p : LmlId) (addr : Nat) (port : Fin 4) (up : Bool) (s : State) : Outcome State Fault Refusal :=
  lift s (noticeHeard p.val addr port.val up)

/-- ROUTE (R332): entries in the bit layout of LML_RT. -/
def routeHeard (first : Nat) (ws : List Nat) (d : Dev) : Dev :=
  forEach ws.zipIdx d fun d w => if first + w.2 < 64 then writeRoute d (first + w.2) w.1 else d

def execRoute (_p : LmlId) (first : Nat) (entries : List (BitVec 64)) (s : State) : Outcome State Fault Refusal :=
  lift s (routeHeard first (entries.map (·.toNat)))

end Sys2Proof.Machine
end

