-- ==== Sys2Proof/Machine/Sanitize.lean ====
section
/-! DEFINITION. Sanitize and the methods of the TCG profiles (R169, R175, R176, R404). -/
namespace Sys2Proof.Machine

open Host (Outcome)

/-! ### Sanitize (R176) -/

/-- Step 1: I/O ends with Sanitize In Progress, and nothing is dirty from here on. -/
def discardDirty (d : Dev) : Dev :=
  let ids := (d.host.ctxs.filter fun x => x.org != .internal).map (·.id)
  let d := forEach ids d fun d id => finish d id stSanitizing 0
  let d := dropInternal d
  syncHost (d.updHost fun s => { s with
    extents := [], held := [], journal := [],
    tasks := s.tasks.filter fun t => match t.kind with
      | .read _ => true
      | _ => false })
where
  /-- Homework's own reads end with it. -/
  dropInternal (d : Dev) : Dev := forEach ((d.host.ctxs.filter fun x => x.org == .internal).map (·.id)) d discardCtx

/-- The actions of R175 that zero plaintext and keys: buffer, read cache, contexts, unwrapped keys, slots. -/
def zeroForKeys (d : Dev) (all : Bool) : Dev :=
  let d := zeroKeys (zeroPlain d) all
  (d.updComp fun c => { c with ctxs := [] }).updCipher fun c => { c with dropAsk := [] }

/-- Step 3: media empty; stopped HDAs are voted to HS0. [DEDUCED: assumption log 86] -/
def emptyMedia (d : Dev) : Dev :=
  forEach (presentHdas d) (emptyState (forEach (presentHdas d) d fun d n => setHvote d 2 n 0)) writeAnchor

/-- Step 4: new keys for every namespace and locking range. [DEDUCED: assumption log 83] -/
def regenerate (d : Dev) : Dev :=
  let d := forEach d.host.nss d nsKeys
  forEach d.cipher.ranges d fun d r => replacePair d (rangePair r.idx) (r.idx + 1) r.nsid none

def setSan (d : Dev) (g : SanState → SanState) : Dev := d.updCipher fun c => { c with san := g c.san }

/-- SANITIZE with its action, 1 exit failure mode, 2 Block Erase, which is not supported, 3 Overwrite, 4 Crypto Erase: it completes at once;
Overwrite starts with its passes, Crypto Erase with step 2. [PRESUMED: assumption log 84] -/
def sanitize (h cid action owpass : Nat) (oipbp : Bool) (pattern : Nat) (d : Dev) : Dev :=
  let overwrite := action == 3
  if d.cipher.san.step ≠ 0 then adminEnd d h cid stSanitizing 0
  else if action = 1 then adminEnd (setSan d fun s => { s with failed := false }) h cid 0 0
  else if (action != 3 && action != 4) || (overwrite && decide (16 < owpass)) then adminEnd d h cid stInvalidField 0
  else
    let d := setSan (discardDirty d) fun _ => {
      step := if overwrite then 5 else 2, overwrite := overwrite, passes := if owpass = 0 then 16 else owpass,
      pattern := pattern, oipbp := oipbp, failed := false }
    adminEnd d h cid 0 0

def execSanitize (h : HstId) (cid action owpass : Nat) (oipbp : Bool) (pattern : Nat) (s : State) : Outcome State Fault Refusal :=
  lift s (adminDo h.val cid false false (sanitize h.val cid action owpass oipbp pattern))

/-- An overwrite pass (R176 step 5): every block of the bands holds the 32-bit pattern, inverted on every second pass with OIPBP, and
locker ranges and map checkpoints are written over. [PRESUMED: assumption log 84] -/
def overwritePass (d : Dev) : Dev :=
  let s := d.cipher.san
  let word := if s.oipbp && s.done % 2 == 1 then 2 ^ 32 - 1 - s.pattern % 2 ^ 32 else s.pattern % 2 ^ 32
  let tok := leBytes ((List.range 1024).flatMap fun _ => toBytes word 4) 0 4096
  let d := d.updHost fun x => { x with
    media := x.media.map fun m => (m.1, { m.2 with blk := .data tok, keys := none }),
    locker := [], lockerHash := [], lockerMap := [], mapCk := [], parity := [] }
  setSan d fun s => if s.passes ≤ 1 then { s with passes := 0, step := 2, done := s.done + 1 }
    else { s with passes := s.passes - 1, done := s.done + 1 }

/-- SANITIZE_STEP_DONE: a step or pass ends; the effect of the step, then the next.  Steps that need a new key fail without one
(R173).  A life-cycle transition runs steps 1 to 3 the same way (R390 step 2), and waits at 6 for its fuses.
[DEDUCED: assumption log 85] -/
def sanitizeStep (d : Dev) : Dev :=
  let fail (d : Dev) : Dev := setSan d fun s => { s with step := 0, failed := true }
  match d.cipher.san.step with
  | 5 => overwritePass d
  | 2 =>
    if !d.flag F.cphStat_drbg_ok && d.sec.work.isNone then fail d
    else setSan (newKeks (zeroForKeys d true)) fun s => { s with step := 3 }
  | 3 => match d.sec.work with
    | some w => setSan ((emptyMedia d).updSec fun s => { s with work := some { w with erasing := false } }) fun s => { s with step := 6 }
    | none => setSan (emptyMedia d) fun s => { s with step := 4 }
  | 4 => if !keysPossible d then fail d else setSan (regenerate d) fun s => { s with step := 0 }
  | _ => d

def execSanitizeStepDone (s : State) : Outcome State Fault Refusal := lift s sanitizeStep

/-! ### TCG methods (R404) -/

/-- Method statuses of the TCG core specification (assumption log 16). -/
def tcgOk : Nat := 0
/-- [PRESUMED: assumption log 16] -/
def tcgNotAuthorized : Nat := 1
/-- [PRESUMED: assumption log 16] -/
def tcgSpBusy : Nat := 3
/-- [PRESUMED: assumption log 16] -/
def tcgInvalid : Nat := 12
/-- [PRESUMED: assumption log 16] -/
def tcgFail : Nat := 0x3F

def Dev.tcg (d : Dev) (h : Nat) : TcgSess := tabGet {} d.sec.tcg h
def Dev.setTcg (d : Dev) (h : Nat) (t : TcgSess) : Dev := d.updSec fun s => { s with tcg := tabPut {} s.tcg h t }

/-- The answer of a method: its status, then its results. [PRESUMED: assumption log 16] -/
def tcgAnswer (d : Dev) (h cid status : Nat) (data : List Nat) : Dev := adminPage d h cid (status :: data)

/-- A method in a session: the profiles exist from PROVISIONED to RMA, and a session is open. -/
def inSession (h cid : Nat) (g : Dev → Dev) (d : Dev) : Dev :=
  if !tcgAvailable d then adminEnd d h cid stInvalidField 0
  else if !(d.tcg h).isOpen then tcgAnswer d h cid tcgNotAuthorized []
  else g d

def tcgRow (h cid : Nat) (g : Dev → Dev) (d : Dev) : Dev := adminDo h cid false false g d

/-- BandMaster r and EraseMaster (65). -/
def eraseMaster : Nat := 65
def mayRange (d : Dev) (h r : Nat) : Bool := (d.tcg h).auths.contains r
/-- A method that needs a key fails with the authority failure while KEKs are withheld (R397). -/
def keyed (d : Dev) : Bool := !d.cipher.withheld && d.flag F.cphStat_kek_loaded

/-- TCG_PROPERTIES: the session manager answers without a session; its property values are open (assumption log 2).
[PRESUMED: assumption log 16] -/
def execTcgProperties (h : HstId) (cid : Nat) (s : State) : Outcome State Fault Refusal :=
  lift s (tcgRow h.val cid fun d =>
    if !tcgAvailable d then adminEnd d h.val cid stInvalidField 0
    else
      let (v, d) := d.draw
      tcgAnswer d h.val cid tcgOk [v])

/-- An authority whose credential authenticates; a BandMaster's loads its range KEK (R169). -/
def authenticate (d : Dev) (h : Nat) (a : TcgArg) : Dev :=
  let t := d.tcg h
  let d := d.setTcg h { t with auths := if t.auths.contains a.authority then t.auths else t.auths ++ [a.authority] }
  if 1 ≤ a.authority ∧ a.authority ≤ 64 then loadRangeKek d (a.authority - 1) else d

/-- TCG_START_SESSION: as an authority, or as Anybody (any number above EraseMaster's). [PRESUMED: assumption log 16] -/
def execTcgStartSession (h : HstId) (cid : Nat) (a : TcgArg) (s : State) : Outcome State Fault Refusal :=
  lift s (tcgRow h.val cid fun d =>
    if !tcgAvailable d then adminEnd d h.val cid stInvalidField 0
    else if (d.tcg h.val).isOpen || (d.tcg (1 - h.val)).isOpen then tcgAnswer d h.val cid tcgSpBusy []
    else if eraseMaster < a.authority then tcgAnswer (d.setTcg h.val { isOpen := true }) h.val cid tcgOk []
    else if !a.credentialOk then tcgAnswer d h.val cid tcgNotAuthorized []
    else tcgAnswer (authenticate (d.setTcg h.val { isOpen := true }) h.val a) h.val cid tcgOk [])

/-- TCG_END_SESSION. [PRESUMED: assumption log 16] -/
def execTcgEndSession (h : HstId) (cid : Nat) (s : State) : Outcome State Fault Refusal :=
  lift s (tcgRow h.val cid (inSession h.val cid fun d => tcgAnswer (d.setTcg h.val {}) h.val cid tcgOk []))

/-- TCG_AUTHENTICATE: the result is whether the credential is the authority's. [PRESUMED: assumption log 16] -/
def execTcgAuthenticate (h : HstId) (cid : Nat) (a : TcgArg) (s : State) : Outcome State Fault Refusal :=
  lift s (tcgRow h.val cid (inSession h.val cid fun d =>
    if eraseMaster < a.authority then tcgAnswer d h.val cid tcgInvalid []
    else if !a.credentialOk then tcgAnswer d h.val cid tcgOk [0]
    else tcgAnswer (authenticate d h.val a) h.val cid tcgOk [1]))

/-- TCG_GET: the row of a range: its namespace, LBAs and locks. [PRESUMED: assumption log 16] -/
def execTcgGet (h : HstId) (cid : Nat) (a : TcgArg) (s : State) : Outcome State Fault Refusal :=
  lift s (tcgRow h.val cid (inSession h.val cid fun d =>
    if 64 < a.range then tcgAnswer d h.val cid tcgInvalid []
    else if a.range = 0 then tcgAnswer d h.val cid tcgOk [d.cipher.globalRead.toNat, d.cipher.globalWrite.toNat]
    else match d.cipher.ranges.find? fun r => r.idx + 1 == a.range with
      | none => tcgAnswer d h.val cid tcgOk [0, 0, 0, 0, 0]
      | some r => tcgAnswer d h.val cid tcgOk [r.nsid, r.lo, r.hi - r.lo, r.readLock.toNat, r.writeLock.toNat]))

/-- The LBAs a range may take: a local namespace that does not use Key Per I/O (R167), inside it, apart from the other ranges. -/
def boundsOk (d : Dev) (r : Nat) (b : LbaRange) : Bool :=
  (localNs d b.nsid).any (fun ns => !ns.kpio && decide (b.slba + b.count ≤ ns.nsze)) && decide (0 < b.count) &&
    d.cipher.ranges.all fun x => x.idx == r || x.nsid != b.nsid || decide (b.slba + b.count ≤ x.lo) || decide (x.hi ≤ b.slba)

/-- A range defined or moved: its keys are generated when it has none, wrapped under its KEK (R164, R169). -/
def defineRange (d : Dev) (r : Nat) (b : LbaRange) : Dev :=
  let x : KeyRange := ((d.cipher.ranges.find? fun y => y.idx == r).getD { idx := r, nsid := b.nsid, lo := 0, hi := 0, readLock := false, writeLock := false })
  let fresh := !(d.cipher.ranges.any fun y => y.idx == r && y.nsid == b.nsid)
  let x := { x with nsid := b.nsid, lo := b.slba, hi := b.slba + b.count }
  let d := d.updCipher fun c => { c with ranges := (c.ranges.filter fun y => y.idx != r) ++ [x] }
  let d := loadRangeKek d r
  if fresh && (d.ns? b.nsid).any (fun ns => classXts d ns.cls) then replacePair d (rangePair r) (r + 1) b.nsid none else d

/-- The locks of a range set: unlocking loads its KEK, locking both directions lets it go (R169). [PRESUMED: assumption log 16] -/
def setLocks (d : Dev) (r : Nat) (rd wr : Bool) : Dev :=
  if rd && wr then rangeLock r d
  else (loadRangeKek d r).updRange r fun x => { x with readLock := rd, writeLock := wr }

/-- TCG_SET: the LBAs and the lock settings of a range, by its BandMaster. [PRESUMED: assumption log 16] -/
def execTcgSet (h : HstId) (cid : Nat) (a : TcgArg) (s : State) : Outcome State Fault Refusal :=
  lift s (tcgRow h.val cid (inSession h.val cid fun d =>
    if 64 < a.range then tcgAnswer d h.val cid tcgInvalid []
    else if !mayRange d h.val a.range || !keyed d then tcgAnswer d h.val cid tcgNotAuthorized []
    else if a.range = 0 then
      (if a.bounds.isSome then tcgAnswer d h.val cid tcgInvalid []
       else tcgAnswer (d.updCipher fun c => { c with globalRead := a.lockRead, globalWrite := a.lockWrite }) h.val cid tcgOk [])
    else
      let r := a.range - 1
      match a.bounds with
      | some b =>
        if !boundsOk d r b then tcgAnswer d h.val cid tcgInvalid []
        else if !keysPossible d then tcgAnswer d h.val cid tcgFail []
        else tcgAnswer (setLocks (defineRange d r b) r a.lockRead a.lockWrite) h.val cid tcgOk []
      | none =>
        if d.cipher.ranges.any fun x => x.idx == r then tcgAnswer (setLocks d r a.lockRead a.lockWrite) h.val cid tcgOk []
        else tcgAnswer d h.val cid tcgInvalid []))

/-- The keys of a range replaced (R168); those of the global range are the namespaces' own.  A range whose old key still serves
buffered extents holds the command until they are on media. -/
def replaceRange (d : Dev) (h cid r : Nat) (unlock : Bool) : Dev :=
  let pairs : List (Nat × Nat × Nat) := if r = 0 then
      (d.host.nss.filter fun ns => classXts d ns.cls && !ns.kpio).map fun ns => (tabGet 0 d.cipher.nsPair ns.nsid, 0, ns.nsid)
    else (d.cipher.ranges.filter fun x => x.idx + 1 == r).map fun x => (rangePair x.idx, r, x.nsid)
  let held := pairs.any fun p => pairInUse d p.1
  let d := forEach pairs d fun d p => replacePair d p.1 p.2.1 p.2.2 (some (h, cid))
  let d := if unlock && r != 0 then setLocks d (r - 1) false false else d
  if held then holdAdmin d h else tcgAnswer d h cid tcgOk []

/-- TCG_GENKEY: by the range's BandMaster. [PRESUMED: assumption log 16] -/
def execTcgGenkey (h : HstId) (cid : Nat) (a : TcgArg) (s : State) : Outcome State Fault Refusal :=
  lift s (tcgRow h.val cid (inSession h.val cid fun d =>
    if 64 < a.range then tcgAnswer d h.val cid tcgInvalid []
    else if !mayRange d h.val a.range || !keyed d then tcgAnswer d h.val cid tcgNotAuthorized []
    else if !keysPossible d then tcgAnswer d h.val cid tcgFail []
    else replaceRange d h.val cid a.range false))

/-- TCG_ERASE: by EraseMaster; the range is unlocked afterwards (assumption log 16). -/
def execTcgErase (h : HstId) (cid : Nat) (a : TcgArg) (s : State) : Outcome State Fault Refusal :=
  lift s (tcgRow h.val cid (inSession h.val cid fun d =>
    if 64 < a.range then tcgAnswer d h.val cid tcgInvalid []
    else if !mayRange d h.val eraseMaster || !keyed d then tcgAnswer d h.val cid tcgNotAuthorized []
    else if !keysPossible d then tcgAnswer d h.val cid tcgFail []
    else replaceRange d h.val cid a.range true))

/-- TCG_RANDOM: DRBG output of at most 32 bytes (assumption log 16); its value is free. -/
def execTcgRandom (h : HstId) (cid count : Nat) (s : State) : Outcome State Fault Refusal :=
  lift s (tcgRow h.val cid (inSession h.val cid fun d =>
    if 32 < count then tcgAnswer d h.val cid tcgInvalid []
    else
      let (v, d) := d.draw
      tcgAnswer (d.updCipher fun c => { c with drbgRequests := c.drbgRequests + 1 }) h.val cid tcgOk (pageField v count)))

end Sys2Proof.Machine
end

