-- ==== Sys2Proof/Machine/Security.lean ====
section
/-! DEFINITION. Permission Slips, debug sessions, life-cycle transitions, and the owner dump key (R389-R398, R414). -/
namespace Sys2Proof.Machine

open Host (Outcome)

/-! ### Permission Slips (R392-R395) -/

def slipMagic : List Byte := [0x45, 0x56, 0x50, 0x53]
def slipKind (b : List Byte) : Nat := leBytes b 6 1
def slipSigner (b : List Byte) : Nat := leBytes b 7 1
def slipSerial (b : List Byte) : Nat := leBytes b 0x18 8
def slipState (b : List Byte) : Nat := leBytes b 0x20 1
def slipLevel (b : List Byte) : Nat := leBytes b 0x21 1
def slipCycles (b : List Byte) : Nat := leBytes b 0x22 1
def slipFlags (b : List Byte) : Nat := leBytes b 0x23 1
def slipPayloadLen (b : List Byte) : Nat := leBytes b 0x24 2
def slipKey (b : List Byte) : List Byte := sliceBytes b 0x28 97
def slipPayload (b : List Byte) : List Byte := sliceBytes b 0x90 (slipPayloadLen b)

/-- The reserved bytes and ranges of an owner record (R393). [DEDUCED: assumption log 11] -/
def ownerOk (p : List Byte) : Bool :=
  decide (leBytes p 0x94 1 ≤ 2) && decide (leBytes p 0x95 1 ≤ 2) && zeroBytes p 0x96 2 && zeroBytes p 0xF9 7

/-- Check 1: length, magic, fmt_version, reserved bytes, payload_len for the kind; the field ranges of R392 count with it.
[DEDUCED: assumption log 11] -/
def slipLayout (b : List Byte) : Bool :=
  let kind := slipKind b
  sliceBytes b 0 4 == slipMagic && leBytes b 4 2 == 1 && decide (1 ≤ kind ∧ kind ≤ 5) && decide (slipSigner b ≤ 3) &&
  decide (slipState b ≤ 5) && decide (slipFlags b < 4) && zeroBytes b 0x26 2 && zeroBytes b 0x89 7 &&
  slipPayloadLen b == (if kind = 5 then 316 else 0) && b.length == 0x90 + slipPayloadLen b + 96 &&
  (if kind = 1 then decide (1 ≤ slipLevel b ∧ slipLevel b ≤ 2 ∧ 1 ≤ slipCycles b) else slipLevel b == 0 && slipCycles b == 0) &&
  (kind != 5 || ownerOk (slipPayload b))

/-- Signer slots of a kind in the state the slip names (R393). [DEDUCED: assumption log 160] -/
def slipSlots (kind st : Nat) : List Nat :=
  match kind, st with
  | 1, 2 | 4, 2 => [0, 1]
  | 1, 3 | 4, 3 | 4, 4 => [2, 3]
  | 1, 4 => [0, 1, 2, 3]
  | 2, _ | 3, _ => [2, 3]
  | 5, _ => [2]
  | _, _ => []

/-- Check 2: the key block's hash, the slot, the signature.  Owner provisioning brings its own slot 2 key.
[DEDUCED: assumption log 160 and 161] -/
def slipSigned (d : Dev) (b : List Byte) : Bool :=
  let h := Config.sha384 (slipKey b)
  let slot := slipSigner b
  let known := if slipKind b = 5 then leBytes (slipPayload b) 0 48 else tabGet 0 d.sec.otp.keyHash slot
  known != 0 && known == h && (slipSlots (slipKind b) (slipState b)).contains slot &&
    Config.ecdsaVerify (slipKey b) (b.take (b.length - 96)) (b.drop (b.length - 96))

/-- The signer class of a slot: 0 Evestien, 1 owner. -/
def slipClass (b : List Byte) : Nat := slipSigner b / 2

/-- Check 6: the guard of R389, and the tag of an owner record. -/
def slipGuard (d : Dev) (b : List Byte) : Bool :=
  let st := d.rd F.secLc_state
  match slipKind b with
  | 1 => true
  | 2 => st == 3 && decide (d.rd F.secLc_count < 19)
  | 3 => st == 4
  | 4 => decide (2 ≤ st ∧ st ≤ 4)
  | _ => st == 2 && (ownerBek d (slipPayload b)).isSome

/-- The checks of R394 in their order: the check that fails with its status, or (0, 0). -/
def slipCheck (d : Dev) (b : List Byte) : Nat × Nat :=
  if !slipLayout b then (1, stInvalidField)
  else if !slipSigned d b then (2, 0x1C8)
  else if leBytes b 8 16 ≠ d.sec.otp.deviceId ∨ slipState b ≠ d.rd F.secLc_state then (3, 0x1C9)
  else if slipSerial b ≤ d.rd F.secSerial_serial 0 (slipClass b) then (4, 0x1CA)
  else if slipKind b = 1 ∧ effCeiling d (d.rd F.secLc_state) < slipLevel b then (5, 0x1CB)
  else if !slipGuard d b then (6, 0x1CC)
  else (0, 0)

/-- The completion of a submit that came as an admin command. -/
def slipAnswer (d : Dev) (w : Option (Nat × Nat)) (status : Nat) : Dev :=
  match w with
  | some (h, cid) => adminEnd d h cid status 0
  | none => d

/-- A D2 grant under way that a new slip or a close overtakes: its command completes, and fetching resumes.
[DEDUCED: assumption log 162] -/
def endD2Work (d : Dev) : Dev :=
  match d.sec.d2 with
  | none => d
  | some x => resumeFetch (endAdmin (d.updSec fun s => { s with d2 := none }) x.waiter 0 0) 3

/-- An accepted debug grant (R395-R397): the record is replaced; level D2 in MISSION waits for its steps. [DEDUCED: assumption log 162] -/
def acceptGrant (d : Dev) (w : Option (Nat × Nat)) (b : List Byte) : Dev :=
  let r : SlipRec := { level := slipLevel b, cycles := slipCycles b, signer := slipSigner b, flags := slipFlags b }
  let d := (endD2Work d).updSec fun s => { s with slip := some r }
  if d.rd F.secLc_state = 3 ∧ r.level = 2 then
    let d := syncLevel (d.updSec fun s => { s with d2 := some { waiter := w } })
    let d := destageAll (stopFetch d 3) false
    match w with
    | some (h, _) => holdAdmin d h
    | none => d
  else slipAnswer (syncLevel d) w 0

/-- An accepted transition (R390 steps 1 and 2): it is pending in NOR, and steps 1 to 3 of R176 begin. -/
def acceptTransition (d : Dev) (w : Option (Nat × Nat)) (b : List Byte) : Dev :=
  let d := slipAnswer ((endD2Work d).updSec fun s => { s with work := some { kind := slipKind b, owner := slipPayload b } }) w 0
  setSan (discardDirty (syncLevel d)) fun _ => { step := 2 }

/-- A slip submitted (R391, R394): none in DECOMMISSIONED or while a transition is pending. [DEDUCED: assumption log 163] -/
def slipSubmit (w : Option (Nat × Nat)) (b : List Byte) (d : Dev) : Dev :=
  if d.rd F.secLc_state = 5 ∨ d.sec.work.isSome then slipAnswer d w stSequence
  else
    let (check, status) := slipCheck d b
    let d := (d.wr F.secSlipStat_status status).wr F.secSlipStat_kind (slipKind b)
    let d := (d.wr F.secSlipStat_check check).setFlag F.secSlipStat_valid true
    if check ≠ 0 then slipAnswer d w status
    else
      let d := d.wr F.secSerial_serial (slipSerial b) 0 (slipClass b)
      if slipKind b = 1 then acceptGrant d w b else acceptTransition d w b

/-- PERMISSION_SLIP_SUBMIT (R391, R394): admin command 0xC5, or the DBG slip data register, which works at every level.
[DEDUCED: assumption log 163] -/
def execPermissionSlipSubmit (h : Option (HstId × Nat)) (slip : SlipBytes) (s : State) : Outcome State Fault Refusal :=
  lift s fun d => match h with
    | some (p, cid) => adminDo p.val cid false (d.rd F.secLc_state == 5) (slipSubmit (some (p.val, cid)) slip) d
    | none =>
      if decide (2 ≤ d.rd F.glbStructStat_activate) then d else slipSubmit none slip d

/-- D2_GRANT_DONE (R397 steps 2 and 3, R175): once nothing is in flight or dirty. [DEDUCED: assumption log 162 and 168] -/
def d2Done (d : Dev) : Dev :=
  match d.sec.d2 with
  | none => d
  | some x =>
    if inFlight d then d
    else if !(copiesOf d).isEmpty then forEach d.host.extents d fun d e => destageExtent d e true
    else
      let d := checkpointAll d
      let d := (zeroForKeys d false).setFlag F.cphStat_kek_loaded false
      let d := d.updCipher fun c => { c with withheld := true, kek := 0, ranges := c.ranges.map fun r => { r with kek := none } }
      let d := syncLevel (d.updSec fun s => { s with d2 := none, d2Held := true })
      resumeFetch (endAdmin d x.waiter 0 0) 3

def execD2GrantDone (s : State) : Outcome State Fault Refusal := lift s d2Done

/-- SEC_DBG.close (R398): the grant ends; a device whose keys are withheld stays so until the next cold start.
[DEDUCED: assumption log 168] -/
def closeSession (d : Dev) : Dev := syncLevel ((endD2Work d).updSec fun s => { s with slip := none })

/-- DEBUG_SESSION_CLOSE (R398). -/
def execDebugSessionClose (s : State) : Outcome State Fault Refusal := lift s closeSession

/-! ### Life-cycle transitions (R389, R390) -/

/-- Steps 3 to 5 of R390: fuses, NOR, and the chip reset; the Report Card's checkpoint of the reset goes before its erasure.
[DEDUCED: assumption log 164] -/
def burnAndReset (w : LcWork) (d : Dev) : Dev :=
  let d := cardCount (burnTransition d w) 14 1
  let d := ((d.wr F.evrPmStat_resets 0).wr F.evrPmStat_dump_seq 0).updCard fun c => { c with seq := 0 }
  let d := eraseNor (beginStop d false none) (w.kind == 4)
  syncLevel (d.updSec fun s => { s with work := none })

/-- LIFE_CYCLE_BURN (R390): once the steps of R176 have ended. [DEDUCED: assumption log 164] -/
def execLifeCycleBurn (s : State) : Outcome State Fault Refusal :=
  lift s fun d => match d.sec.work with
    | none => d
    | some w => if w.erasing then d else burnAndReset w d

/-- The fields that the production program burns: bits change from 0 to 1 only (R384). [DEDUCED: assumption log 166] -/
def burnFields (f : ProdFields) (o : Otp) : Otp :=
  let h (i : Nat) : Nat := tabGet 0 o.keyHash i
  { o with
    deviceId := o.deviceId ||| f.deviceId
    keyHash := tabPut 0 (tabPut 0 o.keyHash 0 (h 0 ||| f.keyHash0)) 1 (h 1 ||| f.keyHash1)
    rootSecret := o.rootSecret ||| f.rootSecret
    bek0 := o.bek0 ||| f.bek0
    ceilEv := o.ceilEv ||| f.ceilEv }

/-- The fields that R384 marks TEST to PROVISIONED are programmed; ceilings may be zero, which is D2. [DEDUCED: assumption log 166] -/
def productionReady (o : Otp) : Bool :=
  o.deviceId != 0 && tabGet 0 o.keyHash 0 != 0 && tabGet 0 o.keyHash 1 != 0 && o.rootSecret != 0 && o.bek0 != 0

/-- PRODUCTION_PROGRAM (R389, R390 steps 3 to 5): BLANK to TEST; TEST to PROVISIONED once the fields of R384 are programmed.
[DEDUCED: assumption log 166] -/
def productionProgram (fields : Option ProdFields) (d : Dev) : Dev :=
  match d.rd F.secLc_state, fields with
  | 0, _ => burnAndReset { kind := 0 } d
  | 1, some f =>
    let d := d.updOtp (burnFields f)
    if productionReady d.sec.otp then burnAndReset { kind := 0 } d else d
  | _, _ => d

def execProductionProgram (fields : Option ProdFields) (s : State) : Outcome State Fault Refusal :=
  lift s (productionProgram fields)

/-! ### The owner dump key (R414) -/

/-- SECURITY_SEND_DUMP_KEY: kept in NOR when its SHA-384 is dump_hash. -/
def dumpKeySend (h cid : Nat) (key : List Byte) (d : Dev) : Dev :=
  if key.length ≠ 97 ∨ d.sec.otp.dumpHash = 0 ∨ Config.sha384 key ≠ d.sec.otp.dumpHash then adminEnd d h cid stInvalidField 0
  else adminEnd (d.updCard fun c => { c with dumpKey := some key }) h cid 0 0

def execSecuritySendDumpKey (h : HstId) (cid : Nat) (key : List (BitVec 8)) (s : State) : Outcome State Fault Refusal :=
  lift s (adminDo h.val cid false false (dumpKeySend h.val cid key))

end Sys2Proof.Machine
end

