-- ==== Sys2Proof/Machine/Servo.lean ====
section
/-! DEFINITION. Servo samples, output instants, lost lanes, splits, seeks, substitution, trace stops and retracts
(R249-R273, R293). -/
namespace Sys2Proof.Machine

open Host (Outcome)

/-! ### Samples (R249-R257) -/

/-- A sample is valid (R252). -/
def sampleOk (x : ServoSample) : Bool :=
  x.idOk && x.wedgeOk && x.ampOk && decide (((x.track : Int) - x.predQ / 1024).natAbs ≤ 2)

/-- One sample counted in a head's window of 65,536 (R273): more than 256 missing send the head to Detention for writing with
reason 5. [DEDUCED: assumption log 112] -/
def countSample (d : Dev) (n l slot : Nat) (missing : Bool) : Dev :=
  let h := slotHead d n l slot
  let e := 12 * l + h
  let seen := tabGet 0 (d.lane n l).samples h + 1
  let d := if missing then d.addSat F.sscMa_missing 1 n e else d
  let d := if 256 < d.rd F.sscMa_missing n e then detainHead d (laneAct n l) h 5 else d
  if seen = 65536 then (d.wr F.sscMa_missing 0 n e).updLane n l fun x => { x with samples := tabPut 0 x.samples h 0 }
  else d.updLane n l fun x => { x with samples := tabPut 0 x.samples h seen }

/-- The position of a followed head (R252): its sample, or the prediction where it is missing, carried to the reference head's sample by
the velocity estimate (R251); servo_a or servo_b is
true from the second valid sample in a row.  A head under a write-permit window that reports another track closes it (R194). -/
def headSample (d : Dev) (n l slot : Nat) (x : ServoSample) : Dev :=
  let ok := sampleOk x
  let d := if x.age = 0 then putNode d n (64 * l + 17) x.vel else d
  let (pes, d) := setNode d n (64 * l + slot) x.pes
  let y := (if ok then (x.track : Int) * 1024 + pes else x.predQ) + x.vel * x.age / 200000
  let (y, d) := setNode d n (64 * l + 2 + slot) y
  let d := countSample d n l slot (!ok)
  let t := headTrack (d.lane n l) slot
  let t := { t with miss := if ok then 0 else t.miss + 1, good := if ok then min 4 (t.good + 1) else 0, y := y }
  let d := d.updLane n l fun ln => setHeadTrack ln slot t
  let c := laneChn n l slot
  let seen := if ok then x.track else ((y + 512) / 1024).toNat
  let d := d.updChn c fun ch => { ch with track := seen }
  let d := if (d.seq (c / 2)).permit.any fun ct => ct.1 == c && ok && ct.2 != seen then closePermit d (c / 2) else d
  let valid := decide (2 ≤ t.good) && !(d.servo n).retracted.testBit l && !(laneState d n l == 3)
  setServoOk d c valid

/-- Tracks beside a write that a cause 0 event met are due for a Homework read (R241). -/
def dueHomework (d : Dev) (c : Nat) : Dev :=
  let t := taskTrack d c
  let near := (if t = 0 then [] else [t - 1]) ++ [t + 1]
  let new := (near.map fun x => (c / 2, chnHead d c, x)).filter fun x => !d.host.homeworkDue.contains x
  { d with host := { d.host with homeworkDue := d.host.homeworkDue ++ new } }

/-- Causes 0 and 1 of a head at its sample: an error above write_inhibit sets cause 0; both clear only after settle_n valid samples
within it in a row (R240, R241). -/
def positionCauses (d : Dev) (n l slot : Nat) (above valid : Bool) : Dev :=
  let c := laneChn n l slot
  let t := headTrack (d.lane n l) slot
  let run := if above || !valid then 0 else min 8 (t.within + 1)
  let d := d.updLane n l fun z => setHeadTrack z slot { headTrack z slot with within := run }
  let d := if above then setCause (if (d.chn c).wg then dueHomework d c else d) c 0 true else d
  if above || run < d.rd F.chnWctl_settle_n c then d
  else
    let d := setCause d c 0 false
    if (d.chn c).servoOk then setCause d c 1 false else d

/-- The tracking error of a head and its milliactuator command (R253): saturated, with the stroke warning and the record of
full scale (R257), and cause 0 of R240. [DEDUCED: assumption log 109] -/
def headTrackLaw (d : Dev) (n l slot : Nat) (x : ServoSample) (isFollowed : Bool) : Dev :=
  let ln := d.lane n l
  let t := headTrack ln slot
  let tgt := if slot = 0 then ln.tgtA else ln.tgtB
  let d := putNode d n (64 * l + 4 + slot) tgt
  if !isFollowed then
    let d := putNode (putNode d n (64 * l + 6 + slot) 0) n (64 * l + 10 + slot) 0
    if ln.splitHead.isSome then d else
      (putNode d n (64 * l + 8 + slot) 0).updLane n l fun z => if slot = 0 then { z with maA := 0 } else { z with maB := 0 }
  else
    let (e, d) := setNode d n (64 * l + 6 + slot) (tgt - t.y)
    let seeking := laneState d n l = 1
    let off := tabGet (0, 0) ln.ff (ffKey d n l)
    let cmd := if laneState d n l = 3 then 0 else if seeking then (if slot = 0 then off.1 else off.2) else x.uMa
    let (u, d) := setNode d n (64 * l + 8 + slot) cmd
    let d := putNode d n (64 * l + 10 + slot) x.m
    let full := decide (u.natAbs = 32767)
    let t := { t with sat := (full :: t.sat).take 64, satRun := if full then t.satRun + 1 else 0, lastMa := if full then t.lastMa else u }
    let d := d.updLane n l fun z =>
      let z := setHeadTrack z slot t
      if slot = 0 then { z with maA := u } else { z with maB := u }
    let d := if d.rd F.sscTrackCfg_stroke_warn n l * 32767 < u.natAbs * 100 then d.setFlag F.sscLaneStat_warn true n l else d
    positionCauses d n l slot (decide (d.rd F.chnWctl_write_inhibit (laneChn n l slot) * 1024 < e.natAbs * 100)) (sampleOk x)

/-- The coefficient set (R255): changed once the speed has crossed a band edge by 10 rpm. -/
def bandStep (b speed : Nat) : Nat :=
  if b < 7 ∧ 3600 + 450 * (b + 1) + 10 ≤ speed then min 7 ((speed - 10 - 3600) / 450)
  else if 0 < b ∧ speed + 10 ≤ 3600 + 450 * b then (speed + 10 - 3600) / 450
  else b

/-- Exchange and window counters of a pair at a lane 0 sample (R268, R269, R271). [DEDUCED: assumption log 112] -/
def pairCount (d : Dev) (n : Nat) : Dev :=
  let d := d.updServo n fun s => { s with clean := s.clean + 1, window := if s.window + 1 = 0x100000 then 0 else s.window + 1 }
  let d := if (d.servo n).window = 0 then d.wr F.sscCmpStat_resyncs 0 n else d
  if d.flag F.sscRole_swap_en n && d.rd F.pwrHoldStat_state == 0 && decide (pairState d n < 2) then
    let d := d.sub F.sscSwap_to_swap 1 n
    if d.flag F.sscSwap_deferred n then d.updServo n fun s => { s with deferFor := s.deferFor + 1 } else d
  else d

/-- The mean target of the heads a lane follows. -/
def meanTarget (d : Dev) (n l : Nat) : Int :=
  let fs := followed d n l
  (fs.map fun s => if s = 0 then (d.lane n l).tgtA else (d.lane n l).tgtB).foldl (· + ·) 0 / (max 1 fs.length : Int)

/-- The targets of a go written during a seek are planned for at the next sample, from the profile as it stands (R261).
[DEDUCED: assumption log 116] -/
def replan (d : Dev) (n l : Nat) : Dev :=
  match (d.lane n l).next with
  | some (ta, tb) => d.updLane n l fun z => { z with tgtA := ta, tgtB := tb, next := none }
  | none => d

/-- A seeking lane's profile advances by one sample period (R260); its nodes show it. [DEDUCED: assumption log 116] -/
def profileSample (d : Dev) (n l : Nat) : Dev :=
  if laneState d n l ≠ 1 then d
  else
    let p := (d.lane n l).prof.step (seekLimits d n l) (meanTarget d n l * 2 ^ 16) ((samplePeriod d n l : Nat) * profMs / 200000)
    let d := d.updLane n l fun z => { z with prof := p }
    putNode (putNode (putNode d n (64 * l + 14) (p.pos / 2 ^ 16)) n (64 * l + 15) (p.vel / 2 ^ 16)) n (64 * l + 16) (p.acc / 2 ^ 16)

/-- SERVO_SAMPLE (R249): a sample of each followed head is validated and used. [DEDUCED: assumption log 109 and 116] -/
def servoSample (n l : Nat) (sa sb : ServoSample) (uVcm : Int) (d : Dev) : Dev :=
  let d := putNode d n (196 + l) (samplePeriod d n l)
  let d := replan d n l
  let fs := followed d n l
  let smp (slot : Nat) : ServoSample := if slot = 0 then sa else sb
  let d := forEach fs d fun d slot => headSample d n l slot (smp slot)
  let d := forEach ([0, 1].filter fun s => !fs.contains s) d fun d slot => setServoOk d (laneChn n l slot) false
  let d := forEach [0, 1] d fun d slot => headTrackLaw d n l slot (smp slot) (fs.contains slot)
  let part (d : Dev) (slot : Nat) : Int := (satNode lo32 hi32 (node d n (64 * l + 6 + slot) + node d n (64 * l + 10 + slot))).1
  let sum := (satNode lo32 hi32 (part d 0 + part d 1)).1
  let d := profileSample d n l
  let mean := (fs.map fun s => (headTrack (d.lane n l) s).y).foldl (· + ·) 0 / (max 1 fs.length : Int)
  let d := putNode d n (64 * l + 12)
    (if laneState d n l = 1 then (d.lane n l).prof.pos / 2 ^ 16 - mean else if fs.length = 2 then sum / 2 else sum)
  let (v, d) := setNode d n (64 * l + 13) uVcm
  let d := d.updLane n l fun z => { z with vcm := v, lostFor := if laneState d n l = 3 then z.lostFor + 1 else 0 }
  let d := d.wr F.sscLaneStat_band (bandStep (d.rd F.sscLaneStat_band n l) (d.rd F.spnStat_speed n)) n l
  let ln := d.lane n l
  let dist := (fs.map fun s => (if s = 0 then ln.tgtA else ln.tgtB) - (headTrack ln s).y).foldl (· + ·) 0 / (max 1 fs.length : Int)
  let near := d.rd F.sscSeekLim_capture_trk n l * 1024
  let d := if laneState d n l = 1 ∧ dist.natAbs < near ∧ !ln.prof.passes (seekLimits d n l) (meanTarget d n l * 2 ^ 16) (near * 2 ^ 16)
    then setLaneState d n l 2 else d
  let within := laneState d n l == 2 && !(d.servo n).retracted.testBit l && fs.all fun s =>
    decide ((node d n (64 * l + 6 + s)).natAbs * 100 ≤ d.rd F.sscTrackCfg_ontrack_pct n l * 1024)
  let d := d.updLane n l fun z => { z with onCount := if within then min 15 (z.onCount + 1) else 0 }
  let d := if within then d else d.setFlag F.sscLaneStat_on_track false n l
  if l = 0 then pairCount d n else d

def execServoSample (n : HdaId) (lane : Fin 2) (sa sb : ServoSample) (uVcm : Int) (s : State) : Outcome State Fault Refusal :=
  lift s (servoSample n.val lane.val sa sb uVcm)

/-! ### Lost lanes (R252) -/

/-- LANE_LOST: 8 missing samples on every followed head; the Timetable aborts the actuator's task (R199). [DEDUCED: assumption log 111] -/
def laneLost (n l : Nat) (d : Dev) : Dev :=
  let fs := followed d n l
  if laneState d n l ≠ 3 && !(d.servo n).retracted.testBit l && laneState d n l ≠ 0
      && fs.all fun s => decide (8 ≤ (headTrack (d.lane n l) s).miss) then
    let d := setLaneState d n l 3
    let d := (d.addSat F.sscLaneStat_losts 1 n l).setFlag F.sscLaneStat_on_track false n l
    let d := d.updLane n l fun z => { z with lostFor := 0, onCount := 0, maA := 0, maB := 0, bemfLaw := true }
    let d := forEach fs d fun d s => setServoOk (d.updChn (laneChn n l s) fun ch => { ch with sgSearch := false }) (laneChn n l s) false
    let d := if d.rd F.sqrStat_state (laneAct n l) = 0 then d else seqStop d (laneAct n l) 1 0
    d.emit (.event evLaneLost (laneAct n l))
  else d

def execLaneLost (n : HdaId) (lane : Fin 2) (s : State) : Outcome State Fault Refusal := lift s (laneLost n.val lane.val)

/-- LANE_REACQUIRED: an acquisition search, which only a lesson that opened sg starts, has 4 valid samples in a row.
[DEDUCED: assumption log 111] -/
def laneReacquired (n l : Nat) (d : Dev) : Dev :=
  let fs := followed d n l
  if laneState d n l = 3 && (fs.any fun s => (d.chn (laneChn n l s)).sgSearch)
      && fs.all fun s => decide (4 ≤ (headTrack (d.lane n l) s).good) then
    (setLaneState d n l 2).updLane n l fun z => { z with lostFor := 0, bemfLaw := false }
  else d

def execLaneReacquired (n : HdaId) (lane : Fin 2) (s : State) : Outcome State Fault Refusal :=
  lift s (laneReacquired n.val lane.val)

/-- LANE_LOST_RETRACT: lost for 256 samples. -/
def execLaneLostRetract (n : HdaId) (lane : Fin 2) (s : State) : Outcome State Fault Refusal :=
  lift s fun d =>
    if laneState d n.val lane.val = 3 ∧ 256 ≤ (d.lane n.val lane.val).lostFor ∧ !(d.servo n.val).retracted.testBit lane.val then
      recomputeBound (emergencyRetract d n.val (2 ^ lane.val) 2)
    else d

/-! ### Output instants (R250, R266-R270) -/

/-- Comparison of the standby's commands (R268). [DEDUCED: assumption log 113] -/
def compareStandby (d : Dev) (n l diffVcm diffMa : Nat) : Dev :=
  if (d.servo n).skipCmp then d.updServo n fun s => { s with skipCmp := false, mismatch := 0 }
  else
    let bad := decide (d.rd F.sscCmpTol_vcm_tol n < diffVcm ∨ d.rd F.sscCmpTol_ma_tol n < diffMa)
    let d := putNode d n 195 (max diffVcm diffMa)
    if bad then
      let d := d.addSat F.sscCmpStat_mismatches 1 n
      let d := if d.flag F.sscCmpStat_seen n then d
        else (d.wr F.sscCmpStat_first_node (64 * l + (if d.rd F.sscCmpTol_vcm_tol n < diffVcm then 13 else 8)) n).setFlag
          F.sscCmpStat_seen true n
      d.updServo n fun s => { s with mismatch := s.mismatch + 1 }
    else d.updServo n fun s => { s with mismatch := 0 }

/-- What an overrun does in shadow and, in PROBATION, on the active unit (R271). [DEDUCED: assumption log 113] -/
def overEffects (d : Dev) (n : Nat) (overAct overStb : Bool) : Dev :=
  let d := if overStb then d.updServo n fun s => { s with dirty := true, clean := if pairState d n = 2 then 0 else s.clean } else d
  if overAct && pairState d n == 1 then enterRetract d n 1 else d

/-- SERVO_OUTPUT_INSTANT (R250): the active unit's commands go out, or are repeated where the lane is held or unfinished; the
standby is compared and both units capture. [DEDUCED: assumption log 113 and 117] -/
def outputInstant (n l : Nat) (doneA doneB : Bool) (diffVcm diffMa cycles : Nat) (d : Dev) (m : List Host.Cell) :
    Dev × List Host.Cell :=
  let d := putNode d n (192 + l) cycles
  let act := activeUnit d n
  let doneAct := if act = 0 then doneA else doneB
  let doneStb := if act = 0 then doneB else doneA
  let d := recordOvr (recordOvr d n 0 l (!doneA)) n 1 l (!doneB)
  let held := (d.servo n).hold.contains l
  let d := if held ∨ !doneAct then commandFrame d n l true
    else commandFrame (d.updLane n l fun z => { z with sentVcm := z.vcm, sentA := z.maA, sentB := z.maB }) n l false
  let d := d.updServo n fun s => { s with hold := s.hold.filter fun x => x != l }
  let d := if doneStb && doneAct then compareStandby d n l diffVcm diffMa else d
  let d := overEffects d n (!doneAct) (!doneStb)
  if l = 0 ∨ laneState d n 0 = 0 then
    let differs := !doneStb || diffVcm != 0 || diffMa != 0
    let r := captureUnit d m n 0 (!doneA) (act == 1 && differs)
    captureUnit r.1 r.2 n 1 (!doneB) (act == 0 && differs)
  else (d, m)

def execServoOutputInstant (n : HdaId) (lane : Fin 2) (doneA doneB : Bool) (diff : Nat × Nat) (cycles : Nat) (s : State) :
    Outcome State Fault Refusal :=
  liftMem s (outputInstant n.val lane.val doneA doneB diff.1 diff.2 cycles)

/-- STANDBY_RESYNC (R268): after 16 mismatching samples every lane state is copied; the next sample is not compared. -/
def standbyResync (n : Nat) (d : Dev) : Dev :=
  if (d.servo n).mismatch < 16 then d
  else
    (cardEpoch (d.addSat F.sscCmpStat_resyncs 1 n) (36 + n) 1).updServo n fun s =>
      { s with mismatch := 0, skipCmp := true, dirty := true, clean := if pairState d n = 2 then 0 else s.clean }

def execStandbyResync (n : HdaId) (s : State) : Outcome State Fault Refusal := lift s (standbyResync n.val)

/-- OVERRUN_FAULT (R271): one lane of the active unit overran at 3 of 64 samples. -/
def overrunFault (n : Nat) (d : Dev) : Dev :=
  match faultLane d n (activeUnit d n) with
  | none => d
  | some l => activeFails d n 2 (some l)

def execOverrunFault (n : HdaId) (s : State) : Outcome State Fault Refusal := lift s (overrunFault n.val)

/-- STANDBY_UNFIT (R268, R271). -/
def execStandbyUnfit (n : HdaId) (s : State) : Outcome State Fault Refusal :=
  lift s fun d => if standbyBad d n.val && pairState d n.val != 3 then standbyFails d n.val else d

/-- An exchange must wait (R269): a lane seeks, or a write-permit window is open. -/
def exchangeBlocked (d : Dev) (n : Nat) : Bool :=
  [0, 1].any fun l => laneState d n l == 1 || !(d.seq (laneAct n l)).permit.isEmpty

/-- An exchange is due (R269, R271). -/
def exchangeDue (d : Dev) (n : Nat) : Bool :=
  pairState d n == 0 && d.rd F.sscSwap_to_swap n == 0 && d.flag F.sscRole_standby_fit n && d.flag F.sscRole_swap_en n
    && d.rd F.pwrHoldStat_state == 0

/-- ROLE_EXCHANGE (R269): switches, or defers. -/
def execRoleExchange (n : HdaId) (s : State) : Outcome State Fault Refusal :=
  lift s fun d =>
    if !exchangeDue d n.val then d
    else if exchangeBlocked d n.val then d.setFlag F.sscSwap_deferred true n.val
    else switchRoles d n.val 1 [0, 1, 2]

/-- EXCHANGE_DEFER_EXPIRY (R269): after 2^16 samples the exchange takes place whatever is running. -/
def execExchangeDeferExpiry (n : HdaId) (s : State) : Outcome State Fault Refusal :=
  lift s fun d =>
    if exchangeDue d n.val && decide (0x10000 ≤ (d.servo n.val).deferFor) then switchRoles d n.val 1 [0, 1, 2] else d

/-- PROBATION_END (R271): 2^16 samples without an active overrun. -/
def execProbationEnd (n : HdaId) (s : State) : Outcome State Fault Refusal :=
  lift s fun d =>
    if pairState d n.val = 1 ∧ 0x10000 ≤ (d.servo n.val).clean then
      if (d.servo n.val).dirty then
        ((d.wr F.sscRole_state 2 n.val).updServo n.val fun s => { s with clean := 0, dirty := false }).emit (.event evDegraded n.val)
      else (d.wr F.sscRole_state 0 n.val).setFlag F.sscRole_standby_fit true n.val
    else d

/-- DEGRADED_RECOVERY (R271): the standby clean for 2^20 samples. -/
def execDegradedRecovery (n : HdaId) (s : State) : Outcome State Fault Refusal :=
  lift s fun d =>
    let u := d.sscUnit n.val (standbyUnit d n.val)
    if pairState d n.val = 2 ∧ 0x100000 ≤ (d.servo n.val).clean ∧ u.clkOk ∧ !u.lawErr then
      ((d.wr F.sscRole_state 0 n.val).setFlag F.sscRole_standby_fit true n.val).wr F.sscSwap_to_swap 0x100000 n.val
    else d

/-! ### Splits, seeks and settling (R257-R262) -/

/-- A head at full scale for split_n samples in a row, or on 4 of 64 (R257). [DEDUCED: assumption log 115] -/
def strokeOut (d : Dev) (n l : Nat) (t : HeadTrack) : Bool :=
  decide (d.rd F.sscTrackCfg_split_n n l ≤ t.satRun ∨ 4 ≤ (t.sat.filter id).length)

/-- PAIR_SPLIT (R257): the lane follows the head that did not saturate, or head a where both did. [DEDUCED: assumption log 115] -/
def pairSplit (n l : Nat) (d : Dev) : Dev :=
  let ln := d.lane n l
  let a := strokeOut d n l ln.a
  let b := strokeOut d n l ln.b
  if d.rd F.sscLaneCtl_follow n l = 2 && ln.splitHead.isNone && (a || b) then
    let keep := if a && !b then 1 else 0
    let d := d.updLane n l fun z =>
      let z := if keep = 0 then { z with maB := z.b.lastMa } else { z with maA := z.a.lastMa }
      { z with splitHead := some keep, splitTracks := ((z.tgtA / 1024).toNat, (z.tgtB / 1024).toNat) }
    let d := (d.setFlag F.sscLaneStat_split true n l).addSat F.sscLaneStat_splits 1 n l
    cardCount (d.emit (.event evSplit (laneAct n l))) 18 1
  else d

def execPairSplit (n : HdaId) (lane : Fin 2) (s : State) : Outcome State Fault Refusal := lift s (pairSplit n.val lane.val)

/-- The bin of a seek over so many tracks (R410). -/
def seekBin (tracks : Nat) : Nat :=
  ([64, 512, 4096, 32768, 131072, 524288, 1048576].filter fun x => decide (x < tracks)).length

/-- SSC_LANE_CTL.go (R260, R261): the targets apply; a move of more than capture_trk seeks from rest where the heads are, a shorter one
is tracked directly; during a seek they wait for the next sample.  A twin go on other tracks ends a split.
[DEDUCED: assumption log 111 and 115 and 116] -/
def laneGo (n l : Nat) (d : Dev) : Dev :=
  if (d.servo n).retracted.testBit l || laneState d n l == 3 then d
  else
    let ta := ofTwos 32 (d.rd F.sscTgt_tgt_a n l)
    let tb := ofTwos 32 (d.rd F.sscTgt_tgt_b n l)
    let ln := d.lane n l
    let ends := ln.splitHead.isSome && d.rd F.sscLaneCtl_follow n l == 2
      && ((ta / 1024).toNat, (tb / 1024).toNat) != ln.splitTracks
    let clear (t : HeadTrack) : HeadTrack := { t with sat := [], satRun := 0 }
    let d := if ends then (d.updLane n l fun z => { z with splitHead := none, a := clear z.a, b := clear z.b }).setFlag
      F.sscLaneStat_split false n l else d
    let again := laneState d n l == 1
    let d := d.updLane n l fun z =>
      if again then { z with next := some (ta, tb), onCount := 0 } else { z with tgtA := ta, tgtB := tb, onCount := 0 }
    let ln := d.lane n l
    let fs := followed d n l
    let dist := (fs.map fun s => (if s = 0 then ta else tb) - (headTrack ln s).y).foldl (· + ·) 0 / (max 1 fs.length : Int)
    let seek := decide (d.rd F.sscSeekLim_capture_trk n l * 1024 < dist.natAbs)
    let mean := (fs.map fun s => (headTrack ln s).y).foldl (· + ·) 0 / (max 1 fs.length : Int)
    let d := if seek && !again then d.updLane n l fun z => { z with prof := { pos := mean * 2 ^ 16 } } else d
    let d := setLaneState d n l (if again || seek then 1 else 2)
    let d := if seek then cardBin d (ckSeek + 8 * laneAct n l + seekBin (dist.natAbs / 1024)) 1 else d
    d.setFlag F.sscLaneStat_on_track false n l

def execLaneGo (n : HdaId) (lane : Fin 2) (s : State) : Outcome State Fault Refusal := lift s (laneGo n.val lane.val)

/-- ON_TRACK (R262): the error stayed within the limit for ontrack_n samples; the offsets measured at the end of the settle
are kept for the pair and recording zone (R258), and the Timetable's waiting tasks begin. -/
def onTrack (n l : Nat) (d : Dev) : Dev :=
  if laneState d n l = 2 ∧ d.rd F.sscTrackCfg_ontrack_n n l ≤ (d.lane n l).onCount ∧ !(d.servo n).retracted.testBit l then
    let key := ffKey d n l
    beginTasks ((d.setFlag F.sscLaneStat_on_track true n l).updLane n l fun z =>
      if d.rd F.sscLaneCtl_follow n l = 2 then { z with ff := tabPut (0, 0) z.ff key (z.maA, z.maB) } else z) (laneAct n l)
  else d

def execOnTrack (n : HdaId) (lane : Fin 2) (s : State) : Outcome State Fault Refusal := lift s (onTrack n.val lane.val)

/-- TRACE_STOP (R265): the samples after the trigger are recorded. -/
def execTraceStop (n : HdaId) (unitB : Bool) (s : State) : Outcome State Fault Refusal :=
  lift s fun d =>
    if (d.sscUnit n.val unitB.toNat).post = some 0 then
      (d.setFlag F.sscTraceStat_stopped true (2 * n.val + unitB.toNat)).updUnit n.val unitB.toNat fun u => { u with post := none }
    else d

/-! ### Retracts (R271, R272, R293) -/

/-- FIRMWARE_RETRACT (R272): SSC_ROLE.retract. -/
def execFirmwareRetract (n : HdaId) (mask : Fin 4) (s : State) : Outcome State Fault Refusal :=
  lift s fun d => recomputeBound (emergencyRetract d n.val mask.val 3)

/-- Every actuator under retract is reported parked. -/
def retractParked (d : Dev) (n : Nat) : Bool :=
  (maskLanes (d.servo n).retracted).all fun l => d.bit F.pslStat_parked l n || !d.actPresent (laneAct n l)

/-- RETRACT_FRAME_REPEAT (R293): every 100 µs until every masked actuator is parked. -/
def execRetractFrameRepeat (n : HdaId) (s : State) : Outcome State Fault Refusal :=
  lift s fun d =>
    if (d.servo n.val).retracted ≠ 0 ∧ !retractParked d n.val then retractFrame d n.val else d

/-- RETRACT_RESTART (R271): both units reset with A active and standby fit; the HDA restarts from HS4. [DEDUCED: assumption log 114] -/
def retractRestart (n : Nat) (d : Dev) : Dev :=
  if pairState d n = 3 && retractParked d n && ((d.servo n).uA.clkOk || (d.servo n).uB.clkOk) then
    let d := (d.wr F.sscRole_state 0 n).wr F.sscRole_active 0 n
    let d := (d.setFlag F.sscRole_standby_fit true n).wr F.sscSwap_to_swap 0x100000 n
    let d := d.setFlag F.pslStat_psl_fault false n
    let d := d.updServo n fun s => { uA := { clkOk := s.uA.clkOk }, uB := { clkOk := s.uB.clkOk }, seqNo := s.seqNo }
    let d := (setLaneState (setLaneState d n 0 0) n 1 0).setFlag F.sscLaneStat_split false n 0
    let d := d.setFlag F.sscLaneStat_split false n 1
    let d := (d.wr F.pwrHs_state 4 0 n).setFlag F.pwrHs_in_transition false 0 n
    recomputeBound (d.wr F.pwrHs_step 0 0 n)
  else d

def execRetractRestart (n : HdaId) (s : State) : Outcome State Fault Refusal := lift s (retractRestart n.val)

/-- RETRACT_RELEASE (R272): outside RETRACT, an actuator under an emergency retract whose heads are reported parked.
[DEDUCED: assumption log 114] -/
def retractRelease (n mask : Nat) (d : Dev) : Dev :=
  if pairState d n = 3 then d
  else
    forEach (maskLanes mask) d fun d l =>
      if (d.servo n).retracted.testBit l && d.bit F.pslStat_parked l n then
        (setLaneState d n l 0).updServo n fun s => { s with retracted := s.retracted - 2 ^ l }
      else d

def execRetractRelease (n : HdaId) (mask : Fin 4) (s : State) : Outcome State Fault Refusal :=
  lift s (retractRelease n.val mask.val)

end Sys2Proof.Machine
end

