-- ==== Sys2Proof/Machine/WritePath.lean ====
section
/-! DEFINITION. The write side of a channel: write FIFO and slots, write PLL, assist level and monitor, heater, and the inputs
that make writing unsafe (R27, R230-R246, R430). -/
namespace Sys2Proof.Machine

open Host (Outcome)

/-- WRITE_FIFO_SECTOR (R231): a whole sector arrives; the FIFO holds two, and reads as not ready while its channel's domain is in
RETAIN or absent (R29). -/
def execWriteFifoSector (chn : ChnId) (tok : Nat) (poison : Bool) (s : State) : Outcome State Fault Refusal :=
  lift s fun d =>
    if (d.chn chn.val).fifo.length < 2 ∧ d.rd F.pwrDom_dom 0 (11 + chn.val / 2) = 0 then
      syncChn (d.updChn chn.val fun ch => { ch with fifo := ch.fifo ++ [(tok, poison)] }) chn.val
    else d

/-- A write slot begins (R231): the sector before it is whole; without a whole sector in the FIFO gate and assist close
with status no data; after the last slot of the track nothing is written (R180).  The channel drives the slot's symbols. -/
def slotStart (c sector : Nat) (d : Dev) : Dev :=
  if (d.chn c).wg && (d.chn c).nextSlot == some sector then
    let d := finishSlot d c
    if sptOf d (c / 2) (taskTrack d c) ≤ sector then d.updChn c fun ch => { ch with nextSlot := none }
    else
      match (d.chn c).fifo with
      | [] => closeWrite (writeResult d c sector 2) c
      | (tok, poison) :: rest =>
        syncChn ((d.updChn c fun ch =>
          { ch with fifo := rest, writing := some (sector, tok, poison), nextSlot := some (sector + 1) }).emit
            (.wave c (chnHead d c) (taskTrack d c) sector (slotWave d c sector tok poison))) c
  else d

/-- WRITE_SLOT_START (R231). -/
def execWriteSlotStart (chn : ChnId) (sector : Nat) (s : State) : Outcome State Fault Refusal :=
  lift s (slotStart chn.val sector)

/-- WRITE_PLL_ARM (R232). -/
def execWritePllArm (_rq : Requester) (chn : ChnId) (arm : Bool) (s : State) : Outcome State Fault Refusal :=
  lift s (pllArm chn.val arm)

/-- Counting of a WAIT word in servo wedges (R189): references of head a, or of head b when only CHN2a+1 is applied by the
task. -/
def countRef (d : Dev) (c : Nat) : Dev :=
  let a := c / 2
  let counts := (c % 2 == 1) == (d.rd F.sqrTask_chan a == 2)
  match (d.seq a).wait with
  | .cond refs => if counts then d.updSeq a fun q => { q with wait := .cond (refs + 1) } else d
  | _ => d

/-- The gates at a servo field (R177, R181, R204): an open read gate meets a resume field, for which the timing loop takes the
preset of the wedge before and is in acquisition mode; an open write gate is closed over the servo field and its guards, and the
resume field is written after it. -/
def servoSplit (d : Dev) (c wedge : Nat) : Dev :=
  let d := if (d.chn c).rg then (presetLoop d c).updChn c fun ch => { ch with acq := true } else d
  if (d.chn c).wg then d.emit (.split c wedge) else d

/-- A servo timing reference of a channel's head (R232): the wedge period, and the phase error of the write PLL in 1/64
symbol: 4 references below 1/32 symbol lock it, one above 1/4 symbol unlocks it; a channel without its clock sees none (R30).  A
waiting media task of the actuator begins once the period is steady (R205, R232). [DEDUCED: assumption log 106] -/
def timingReference (c wedge phase64 period : Nat) (d : Dev) : Dev :=
  if chnLost d c then d
  else
  let d := countRef d c
  let d := d.updChn c fun ch =>
    { ch with periods := (period :: ch.periods).take 8, lastWedge := wedge,
              pllGood := if ch.pllOn && decide (phase64 < 2) then min 4 (ch.pllGood + 1) else 0 }
  let d := servoSplit (beginTasks d (c / 2)) c wedge
  if (d.chn c).pllOn then
    if phase64 > 16 then loseLock d c
    else if (d.chn c).pllGood = 4 then d.setFlag F.chnWstat_wlock true c else d
  else d

/-- SERVO_TIMING_REFERENCE (R232): wedge, phase error in 1/64 symbol and wedge period in picoseconds. -/
def execServoTimingReference (chn : ChnId) (wedge phase64 period : Nat) (s : State) : Outcome State Fault Refusal :=
  lift s (timingReference chn.val wedge phase64 period)

/-- The applied level one step nearer its target (R237): by at most max(1, floor(applied / 100)). -/
def levelStep (applied target : Nat) : Nat :=
  let m := max 1 (applied / 100)
  if applied < target then min target (applied + m) else max target (applied - m)

/-- ASSIST_LEVEL_STEP (R237): wedge 0 of a revolution. -/
def execAssistLevelStep (chn : ChnId) (s : State) : Outcome State Fault Refusal :=
  lift s fun d =>
    let h := chnHead d chn.val
    d.wr F.chnApplied_applied (levelStep (d.rd F.chnApplied_applied chn.val h) (d.rd F.chnApplied_target chn.val h)) chn.val h

/-- A monitor reading is in tolerance: it differs from the commanded value by no more than fault_dev % of it (R238).
[DEDUCED: assumption log 105] -/
def inTolerance (cmd reading dev : Nat) : Bool := decide ((max cmd reading - min cmd reading) * 100 ≤ dev * cmd)

/-- The band of an applied level as a share of assist_max (R410). [DEDUCED: assumption log 105] -/
def assistBand (applied most : Nat) : Nat :=
  if applied * 100 < most * 50 then 0 else if applied * 100 < most * 70 then 1 else if applied * 100 < most * 90 then 2 else 3

/-- One poll of the assist monitor while the assist is on (R238, R243). [DEDUCED: assumption log 105] -/
def monitorPoll (c reading : Nat) (d : Dev) : Dev :=
  if !(d.chn c).ag then d
  else
    let h := chnHead d c
    let d := d.wr F.chnApplied_monitor reading c h
    let on := (d.headHealth (c / 2 * 12 + h)).onTimeUs
    let d := d.updHealth (c / 2 * 12 + h) fun l => { l with onTimeUs := l.onTimeUs + 2 }
    let d := if on / 1000 < (on + 2) / 1000 then
        cardBin d (ckAssist + 4 * (c / 2 * 12 + h) + assistBand (d.rd F.chnApplied_applied c h) (d.rd F.sqrGeom_assist_max (c / 2))) 1
      else d
    if inTolerance (d.rd F.chnApplied_applied c h) reading (d.rd F.chnWctl_fault_dev c) then
      let d := d.updChn c fun ch => { ch with monGood := min 2 (ch.monGood + 1), monBad := 0 }
      if (d.chn c).monGood = 2 then d.setFlag F.chnWstat_assist_ok true c else d
    else
      let d := d.updChn c fun ch => { ch with monGood := 0, monBad := if ch.wg then ch.monBad + 1 else 0 }
      if (d.chn c).wg then
        if d.rd F.chnWctl_fault_polls c ≤ (d.chn c).monBad then assistFault d c else d
      else d.setFlag F.chnWstat_assist_ok false c

/-- ASSIST_MONITOR_POLL (R238): the reading in the unit of assist_max. -/
def execAssistMonitorPoll (chn : ChnId) (reading : Nat) (s : State) : Outcome State Fault Refusal :=
  lift s (monitorPoll chn.val reading)

/-- FLY_SETTLED (R239). [DEDUCED: assumption log 108] -/
def execFlySettled (chn : ChnId) (s : State) : Outcome State Fault Refusal :=
  lift s fun d => d.setFlag F.chnWstat_fly_ok ((d.chn chn.val).flySent && !(d.chn chn.val).flyPending) chn.val

/-- The four channels of an HDA. -/
def hdaChannels (n : Nat) : List Nat := [4 * n, 4 * n + 1, 4 * n + 2, 4 * n + 3]

/-- An input of a slot, ignored for an undeclared HDA (R425). -/
def Dev.heedSlot (d : Dev) (n : Nat) (g : Dev → Dev) : Dev := d.when (d.slotDrive n != .highZ) g

/-- SHOCK_INPUT (R240, R430): GLB_PINS shows the pin; cause 2 on every head of the HDA. -/
def execShockInput (n : HdaId) (s : State) : Outcome State Fault Refusal :=
  lift s fun d => d.heedSlot n.val fun d =>
    forEach (hdaChannels n.val) (d.setBit F.glbPins_shock n.val true) fun d c => setCause d c 2 true

/-- SHOCK_INPUT_RELEASE (R240), after an assertion of `us` µs, which may be the longest (R410). -/
def execShockInputRelease (n : HdaId) (us : Nat) (s : State) : Outcome State Fault Refusal :=
  lift s fun d => d.heedSlot n.val fun d =>
    let d := if d.bit F.glbPins_shock n.val then cardExtreme d 3 ((n.val * 2 ^ 56 + us % 2 ^ 56 : Nat) : Int) else d
    forEach (hdaChannels n.val) (d.setBit F.glbPins_shock n.val false) fun d c => setCause d c 2 false

/-- PREAMP_FAULT (R240, R430): the line of actuator a asserts; cause 3 on both its heads. -/
def execPreampFault (a : ActId) (s : State) : Outcome State Fault Refusal :=
  lift s fun d => d.heedSlot (a.val / 2) fun d =>
    forEach [2 * a.val, 2 * a.val + 1] ((d.setFlag F.pspStat_flt true a.val).setFlag F.pspStat_flt_seen true a.val)
      fun d c => setCause d c 3 true

/-- PREAMP_FAULT_RELEASE (R430). -/
def execPreampFaultRelease (a : ActId) (s : State) : Outcome State Fault Refusal :=
  lift s fun d => d.heedSlot (a.val / 2) fun d =>
    forEach [2 * a.val, 2 * a.val + 1] (d.setFlag F.pspStat_flt false a.val) fun d c => setCause d c 3 false

/-- CLOCK_DOMAIN_SWITCH (R27, R233): a CHN domain changes clock only while its write gate is closed, to the media-locked
clock only while its write PLL runs. -/
def execClockDomainSwitch (chn : ChnId) (toMedia : Bool) (s : State) : Outcome State Fault Refusal :=
  lift s fun d =>
    if (d.chn chn.val).wg || (toMedia && !(d.chn chn.val).pllOn) then d
    else d.updChn chn.val fun ch => { ch with mediaClock := toMedia }

end Sys2Proof.Machine
end

