-- ==== Sys2Proof/Machine/Bus.lean ====
section
/-! DEFINITION. Control-plane accesses: reading and writing registers by field type (R7, R8), what a write of a command field
starts, holes, refusals and absent blocks (R361, R399, R446), stalled accesses (R360), and the DBG port (R396, R448). -/
namespace Sys2Proof.Machine

open Host (Outcome)

/-! ### Reading -/

/-- TTB_ACT of an actuator as its tasks stand. [DEDUCED: assumption log 180] -/
def ttbField (d : Dev) (a : Nat) (f : Fld) : Nat :=
  let mine := d.host.tasks.filter fun t => t.act == a
  let n := a / 2
  if f = F.ttbAct_queued then min 65535 mine.length
  else if f = F.ttbAct_state then
    if !d.actPresent a || d.bit F.pslStat_parked (a % 2) n || decide (2 ≤ d.rd F.pwrHs_state 0 n) then 3
    else if !mine.isEmpty && (d.spin n).lost then 2
    else if mine.any (·.begun) then 1 else 0
  else if f = F.ttbAct_twin then (decide (d.rd F.sqrTask_chan a = 3) && mine.any (·.begun)).toNat
  else if f = F.ttbAct_priority then (mine.any fun t => t.prio && match t.kind with
    | .destage _ => true
    | _ => false).toNat
  else (mine.any fun t => t.begun && match t.kind with
    | .read id => (d.host.ctxs.find? fun x => x.id == id).any fun x => x.org == .internal
    | _ => false).toNat

/-- What sub-field `m` of a field of a register entry reads to a requester: 0 for a WO field. -/
def fieldRead (d : Dev) (rq : Requester) (r : Reg) (i k : Nat) (f : Fld) (m : Nat) : Nat :=
  if f.ty = .wo then 0
  else if r.block = .ttb then ttbField d k f
  else if f = F.cphCtxWin_data then winRead d rq k
  else d.rd f i (k * f.nsub + m)

/-- A register entry as its 64 bits. -/
def regRead (d : Dev) (rq : Requester) (r : Reg) (i k : Nat) : Nat :=
  (r.fields.flatMap fun f => (List.range f.nsub).map fun m =>
    fieldRead d rq r i k f m % 2 ^ f.w * 2 ^ (f.lo + f.step * m)).sum

/-! ### What a write starts -/

/-- SSC_ROLE: retract, restart and release (R271, R272). [DEDUCED: assumption log 24] -/
def writeRole (n retract : Nat) (restart : Bool) (release : Nat) (d : Dev) : Dev :=
  let d := if retract = 0 then d else recomputeBound (emergencyRetract d n retract 3)
  let d := if restart then retractRestart n d else d
  if release = 0 then d else retractRelease n release d

/-- SPN_CTL: the mode where it changes, the manual speed where it is written, and a start (R277, R280, R285).
[DEDUCED: assumption log 24] -/
def writeSpinCtl (n : Nat) (start : Bool) (g d : Dev) : Dev :=
  let mode := g.rd F.spnCtl_mode n
  let e := if mode = d.rd F.spnCtl_mode n then g else spindleMode n mode g
  let e := if g.rd F.spnCtl_manual n = d.rd F.spnCtl_manual n ∧ g.rd F.spnCtl_rpm_manual n = d.rd F.spnCtl_rpm_manual n then e
    else spindleManual n (g.flag F.spnCtl_manual n) (g.rd F.spnCtl_rpm_manual n) e
  if start then spindleStart n (e.rd F.spnStat_speed n != 0) e else e

/-- A LOOP register (R419): depth and argument, then pattern and run; a refused depth ignores the whole write.
[DESIGN CHOICE: assumption log 23, DEDUCED: assumption log 178] -/
def writeLoop (rq : Requester) (site : Nat) (g d : Dev) : Dev :=
  let depth := g.rd F.loop_depth site
  let arg := g.rd F.loop_arg site
  let e := revert g d [F.loop_depth, F.loop_run, F.loop_pattern, F.loop_arg] site
  let s := if depth = d.rd F.loop_depth site then e.wr F.loop_arg (loopArg site arg) site else loopSelect rq site depth arg e
  if s.rd F.loop_depth site ≠ depth ∧ depth ≤ loopMost site then s
  else
    let s := s.wr F.loop_pattern (g.rd F.loop_pattern site) site
    if g.flag F.loop_run site = d.flag F.loop_run site then s else loopRun site (g.flag F.loop_run site) false 0 0 s

/-- GLB_GPIO: pins with their oe bit set take the level of their out bit. [PRESUMED: assumption log 25] -/
def driveGpio (g : Dev) : Dev :=
  let out := g.rd F.glbGpio_out
  let oe := g.rd F.glbGpio_oe
  forEach ((List.range 16).filter fun b => oe.testBit b) g fun d b =>
    (d.setBit F.glbGpio_level b (out.testBit b)).emit (.pin (64 + b) (out.testBit b).toNat)

/-- EVR_CTL: freeze, thaw, checkpoint, in that order. [DEDUCED: assumption log 24] -/
def writeEvrCtl (freeze thaw ck : Bool) (d : Dev) : Dev :=
  let d := if freeze then freezeCard d else d
  let d := if thaw then thawCard d false else d
  if ck then checkpointDue d else d

/-- What a register write does beyond its fields: `d` before it, `g` with the fields written by type.
[DESIGN CHOICE: assumption log 23 and 31, DEDUCED: assumption log 24 and 64] -/
def writeEffect (rq : Requester) (r : Reg) (i k mask data : Nat) (d g : Dev) (m : List Host.Cell) : Dev × List Host.Cell :=
  let hit (f : Fld) : Nat := fieldBits (data &&& mask) f 0
  let on (f : Fld) : Bool := hit f != 0
  let touched (f : Fld) : Bool := fieldBits mask f 0 != 0
  let e : Dev :=
    match r.block with
    | .map =>
      if r.off = 0 then (if touched F.mapCtl_enable then (if g.flag F.mapCtl_enable then mapEnable g else mapDisable g) else g)
      else if r.off = 0x10 then writeGroups (g.rd F.mapGrpCtl_pwr_down) (g.rd F.mapGrpCtl_scratch) d
      else if r.off = 0x20 ∧ on F.mapMaint_go then maintStart (g.rd F.mapMaint_page) (g.rd F.mapMaint_op) g
      else g
    | .cph =>
      if r.off = 8 then
        setCountermeasures (g.rd F.cphCm_dummy_max) (g.flag F.cphCm_shuffle) (revert g d [F.cphCm_dummy_max, F.cphCm_shuffle] 0)
      else if r.off = 0x30 ∧ on F.cphKeyInv_go then keyInvalidate (g.rd F.cphKeyInv_slot) g
      else if r.off = 0x40 ∧ on F.cphCtxCtl_go then
        (match g.rd F.cphCtxCtl_op with
          | 0 => contextSave (g.rd F.cphCtxCtl_core) g
          | 1 => contextRestore rq (g.rd F.cphCtxCtl_core) g
          | _ => g)
      else if r.off = 0x100 then g.updCipher fun c => { c with winSaved := c.winSaved.filter (· ≠ k) }
      else g
    | .sqr =>
      if r.off = 0 ∧ on F.sqrCtl_abort then abortTask i g
      else if r.off = 0x10 ∧ on F.sqrTask_go then taskStart i g
      else if r.off = 0x40 ∧ on F.sqrMc_repair then storeRepair i false g
      else g
    | .chn =>
      if r.off = 0x800 then
        let e := if g.flag F.chnWctl_arm i = d.flag F.chnWctl_arm i then g else pllArm i (g.flag F.chnWctl_arm i) g
        flyUpdate e i
      else if r.off = 0x980 then flyUpdate g i
      else if r.off = 0x40 ∧ on F.chnRedecode_go then redecodeStart i (g.rd F.chnRedecode_seq i) (g.rd F.chnRedecode_variant i) g
      else if r.off = 0x680 ∧ g.flag F.chnSkew_fault_0 i k ∧ g.flag F.chnSkew_fault_1 i k then
        revert g d [F.chnSkew_fault_0, F.chnSkew_fault_1] i k
      else g
    | .ssc =>
      if r.off = 0 then writeRole i (hit F.sscRole_retract) (on F.sscRole_restart) (hit F.sscRole_release) g
      else if r.off = 0x108 then
        let changed := (if g.rd F.sscLaneCtl_head_a i k = d.rd F.sscLaneCtl_head_a i k then [] else [0])
          ++ (if g.rd F.sscLaneCtl_head_b i k = d.rd F.sscLaneCtl_head_b i k then [] else [1])
        let e := forEach changed g fun e slot => headChange e i k slot
        if on F.sscLaneCtl_go then laneGo i k e else e
      else if r.off = 0x400 then writeSpinCtl i (on F.spnCtl_start) g d
      else if r.off = 0x420 ∧ g.rd F.spnBus_chop_on i ≤ g.rd F.spnBus_chop_off i then revert g d [F.spnBus_chop_on, F.spnBus_chop_off] i
      else g
    | .thm => if r.off = 0x10 ∧ on F.thmPhase_normal then thermalPhaseNormal g else g
    | .cal => if r.off = 0 ∧ on F.calCtl_go then calRequest (g.rd F.calCtl_kind) (g.rd F.calCtl_inst) g else g
    | .ecc =>
      if r.off = 0x90 ∧ on F.eccInj_go then
        eccInject (mergeBits (d.rd F.eccInj_addr) (fieldBits data F.eccInj_addr 0) (fieldBits mask F.eccInj_addr 0))
          (mergeBits (d.rd F.eccInj_mac) (fieldBits data F.eccInj_mac 0) (fieldBits mask F.eccInj_mac 0))
          (mergeBits (d.rd F.eccInj_kind) (fieldBits data F.eccInj_kind 0) (fieldBits mask F.eccInj_kind 0)) d
      else if r.off = 0xA0 ∧ on F.eccRemapCtl_go then
        eccRemap (g.rd F.eccRemapCtl_mac) (g.rd F.eccRemapCtl_row) g
      else if r.off = 0xC0 ∧ on F.eccMbist_go then mbistStart (g.rd F.eccMbist_mac) (revert g d [F.eccMbist_mac] 0)
      else g
    | .lml => if r.off = 0x820 ∧ on F.lmlRc_start then rollStart g else g
    | .evr =>
      if r.off = 0 then writeEvrCtl (on F.evrCtl_freeze) (on F.evrCtl_thaw) (on F.evrCtl_checkpoint) g
      else if r.off = 0x28 ∧ on F.evrPmCtl_go then postMortem 0 g
      else if r.off = 0x1000 then fillStart g k
      else g
    | .sec => if r.off = 8 ∧ on F.secDbg_close then closeSession g else g
    | .loop => if r.off = 0 then writeLoop rq i g d else g
    | .psp =>
      if r.off = 0 ∧ on F.pspRaw_go then
        pspRaw i (g.flag F.pspRaw_rd i) (g.rd F.pspRaw_head i) (g.rd F.pspRaw_addr i) (g.rd F.pspRaw_data i)
          g
      else g
    | .glb => if r.off = 0xD0 then driveGpio g else g
    | .pwr | .dbg | .mgt | .xbr | .hst | .mem | .cmp | .ttb => g
  if r.block = .sqr ∧ r.off = 0 ∧ touched F.sqrCtl_cust_en then custEnable i (g.flag F.sqrCtl_cust_en i) e m else (e, m)

/-! ### An access that reaches its block -/

/-- Bytes of a trace buffer, macro 280 + u, read and written (R265, R340). [DEDUCED: assumption log 32] -/
def traceAccess (rq : Requester) (u off : Nat) (acc : Access) (d : Dev) (m : List Host.Cell) : Dev × List Host.Cell :=
  let addr := traceBase u + off
  match acc with
  | .rd n =>
    let r := macRead d (280 + u) off n
    if r.1 then (busError r.2 rq addr false 3, m) else (busOk r.2 rq (memRead m addr n), m)
  | .wr n data => (busOk (macWritten d (280 + u) off n) rq 0, memWrite m addr data.toNat n)

/-- A register entry read or written; the second half of a register lies at its address + 4 (R6, R7). -/
def regAccess (rq : Requester) (r : Reg) (i k off : Nat) (acc : Access) (d : Dev) (m : List Host.Cell) : Dev × List Host.Cell :=
  let sh := 8 * (off % 8)
  match acc with
  | .rd n =>
    let d' := busOk d rq (regRead d rq r i k / 2 ^ sh % 2 ^ (8 * n))
    (if r = Reg.evrWindow ∧ k % 32 = 31 then windowAdvance d' (k / 32) else d', m)
  | .wr n data =>
    let mask := (2 ^ (8 * n) - 1) * 2 ^ sh
    let v := data.toNat * 2 ^ sh
    let e := writeEffect rq r i k mask v d (regWrite d r i k mask v) m
    (busOk e.1 rq 0, e.2)

/-- An access of a legal size performed at what its address names. [DESIGN CHOICE: assumption log 21, DEDUCED: assumption log 22] -/
def perform (rq : Requester) (addr off : Nat) (p : Place) (acc : Access) (d : Dev) (m : List Host.Cell) : Dev × List Host.Cell :=
  match p with
  | .reg r i k => regAccess rq r i k off acc d m
  | .reserved => (busOk d rq 0, m)
  | .mailbox =>
    match acc with
    | .rd n =>
      let r := d.draw
      (busOk r.2 rq (r.1 % 2 ^ (8 * n)), m)
    | .wr _ _ => (busOk d rq 0, m)
  | .coef =>
    match acc with
    | .rd n => (busOk d rq (memRead m addr n), m)
    | .wr n data => (busOk d rq 0, memWrite m addr data.toNat n)
  | .scratch g => scratchAccess rq g off acc d m
  | .store a => storeAccess rq a off acc d m
  | .trace u => traceAccess rq u off acc d m
  | .hole => (busError d rq addr (accIsWrite acc) 1, m)

/-! ### Every access -/

/-- The level in force provides a DBG access (R396, R448). -/
def dbgProvides (d : Dev) (acc : Access) : Bool := decide ((if accIsWrite acc then 2 else 1) ≤ d.rd F.dbgStat_jtag_level)

/-- A BAR2 access outside the set in force (R399). [DESIGN CHOICE: assumption log 20] -/
def bar2Refused (d : Dev) (rq : Requester) (addr : Nat) (isWrite : Bool) : Dev :=
  let d := ((d.wr F.dbgBar2Log_addr addr).setFlag F.dbgBar2Log_write isWrite).setFlag F.dbgBar2Log_valid true
  (d.addSat F.dbgBar2Log_count 1).emit (.bus (reqNum rq) false allOnes)

/-- An access to a block whose domain is absent (R361). [DESIGN CHOICE: assumption log 20] -/
def absentAccess (d : Dev) (rq : Requester) (addr : Nat) : Dev :=
  let d := ((d.wr F.pwrAbsLog_addr addr).setFlag F.pwrAbsLog_valid true).addSat F.pwrAbsLog_count 1
  d.emit (.bus (reqNum rq) false allOnes)

/-- An access stalls on a retained block (R360). [DESIGN CHOICE: assumption log 20] -/
def stallAccess (d : Dev) (rq : Requester) (addr : Nat) (acc : Access) (dom : Nat) : Dev :=
  orVote { d with power := { d.power with stalled := d.power.stalled ++ [(rq, addr, acc)] } } 7 dom

/-- Address bits a requester has: 64 MiB for BAR2, 32 bits otherwise (R399). -/
def busAddr (rq : Requester) (addr : Nat) : Nat := if isBar2 rq then addr % 2 ^ 26 else addr % 2 ^ 32

/-- The domain of an address. -/
def addrDom (addr : Nat) : Nat :=
  match areaOf addr with
  | some (a, _) => areaDom a
  | none => 0

/-- The stalled accesses of a domain, in the order of their arrival. -/
def stalledOn (d : Dev) (dom : Nat) : List (Requester × Nat × Access) := d.power.stalled.filter fun x => addrDom x.2.1 == dom

/-- One stalled access completes. -/
def releaseAccess (s : Dev × List Host.Cell) (x : Requester × Nat × Access) : Dev × List Host.Cell :=
  match areaOf x.2.1 with
  | some (a, off) => perform x.1 x.2.1 off (placeOf a off) x.2.2 s.1 s.2
  | none => s

/-- An access to a macro whose row is being remapped waits (R347). -/
def remapStalls (d : Dev) (p : Place) : Bool :=
  match d.ecc.job with
  | none => false
  | some (mac, _) => match p with
    | .scratch g => mac == 256 + g
    | .store a => mac == 272 + a
    | .trace u => mac == 280 + u
    | _ => false

/-- A stalled access may be performed: its domain runs, and no remap of its macro does. -/
def mayPerform (d : Dev) (addr : Nat) : Bool :=
  domState d (addrDom addr) == 0 && match areaOf addr with
    | some (a, off) => !remapStalls d (placeOf a off)
    | none => true

/-- Stalled accesses whose domain runs again complete, in the order of their arrival (R13). -/
def releaseReady (d : Dev) (m : List Host.Cell) : Dev × List Host.Cell :=
  let ready (x : Requester × Nat × Access) : Bool := mayPerform d x.2.1
  forEach (d.power.stalled.filter ready)
    ({ d with power := { d.power with stalled := d.power.stalled.filter fun x => !ready x } }, m) releaseAccess

/-- An access on the control-plane bus, in the order BAR2 set, hole outside every block, DBG's closed blocks, absent domain, size,
undefined offset, retained domain (R7, R360, R361, R399, R446, R448; assumption log 20); earlier accesses that stalled on a domain
that runs again are performed before it (R13). -/
def busAccess (rq : Requester) (addr : Nat) (acc : Access) (d : Dev) (m : List Host.Cell) : Dev × List Host.Cell :=
  let ready := releaseReady d m
  let d := ready.1
  let m := ready.2
  let addr := busAddr rq addr
  let w := accIsWrite acc
  if d.reset.held || d.reset.waitCool || (isDbg rq && !dbgProvides d acc) then (d, m)
  else if isBar2 rq && d.rd F.dbgStat_bar2_set == 0 then (bar2Refused d rq addr w, m)
  else match areaOf addr with
    | none => (busError d rq addr w 1, m)
    | some (a, off) =>
      let p := placeOf a off
      if isBar2 rq && !bar2Allows (d.rd F.dbgStat_bar2_set) a off w then (bar2Refused d rq addr w, m)
      else if isDbg rq && closedPlace a off then (busError d rq addr w 5, m)
      else if domState d (areaDom a) = 2 then (absentAccess d rq addr, m)
      else if !legalSize off (accSize acc) then (busError d rq addr w 2, m)
      else if p = .hole then (busError d rq addr w 1, m)
      else if domState d (areaDom a) = 1 then (stallAccess d rq addr acc (areaDom a), m)
      else if remapStalls d p then ({ d with power := { d.power with stalled := d.power.stalled ++ [(rq, addr, acc)] } }, m)
      else perform rq addr off p acc d m

/-- REGISTER_WRITE (R8): a control-plane access, which reads or writes. -/
def execRegisterWrite (rq : Requester) (addr : Nat) (acc : Access) (s : State) : Outcome State Fault Refusal :=
  liftMem s (busAccess rq addr acc)

/-! ### Waking and time-out (R15, R357, R360) -/

/-- IMPLICIT_ACCESS_WAKE: the domain runs, and its stalled accesses complete. -/
def implicitWake (dom : Nat) (d : Dev) (m : List Host.Cell) : Dev × List Host.Cell :=
  if (stalledOn d dom).isEmpty then (d, m)
  else
    releaseReady (if domState d dom = 1 then
        (((setDom d dom 0).wr F.pwrWake_last_dom dom).addSat F.pwrWake_wakes 1).setFlag F.pwrWake_seen true
      else d) m

/-- DOMAIN_WAKE (R357): a retained domain runs again, and accesses that stalled on it are performed (R13). -/
def domainWake (dom : Nat) (d : Dev) (m : List Host.Cell) : Dev × List Host.Cell :=
  if domState d dom = 1 then releaseReady (setDom d dom 0) m else (d, m)

def execDomainWake (dom : DomId) (s : State) : Outcome State Fault Refusal := liftMem s (domainWake dom.val)

/-- A block that runs has not answered an access (R15): one that stalled on it is given up.  The time a domain takes to wake does not
count, and a hole or an absent block answers by itself. -/
def busTimeout (rq : Requester) (addr : Nat) (isWrite : Bool) (d : Dev) : Dev :=
  let addr := busAddr rq addr
  match areaOf addr with
  | some (a, off) =>
    if placeOf a off ≠ .hole ∧ domState d (areaDom a) = 0 ∧ mayPerform d addr = true then
      busError { d with power := { d.power with stalled := d.power.stalled.filter fun x => !(x.1 == rq && x.2.1 == addr) } }
        rq addr isWrite 0
    else d
  | none => d

/-- REMAP_DONE (R347, R348): the accesses to the macro that waited complete normally. -/
def execRemapDone (s : State) : Outcome State Fault Refusal := liftMem s fun d m => releaseReady (remapDone d) m

/-- BUS_TIMEOUT (R15): no answer within 1 ms. -/
def execBusTimeout (rq : Requester) (addr : Nat) (isWrite : Bool) (s : State) : Outcome State Fault Refusal :=
  lift s (busTimeout rq addr isWrite)

/-- IMPLICIT_ACCESS_WAKE (R360). -/
def execImplicitAccessWake (dom : DomId) (s : State) : Outcome State Fault Refusal := liftMem s (implicitWake dom.val)

/-- IMPLICIT_VOTE_WITHDRAW (R360): 100 µs after the last access to the domain. -/
def execImplicitVoteWithdraw (dom : DomId) (s : State) : Outcome State Fault Refusal :=
  lift s fun d => if (stalledOn d dom.val).isEmpty then clearVote d 7 dom.val else d

/-! ### The DBG port (R396, R401, R448) -/

/-- A JTAG instruction at the level in force; one that the level does not provide is BYPASS.  IDCODE and boundary-scan contents are
free values (assumption log 2). [DESIGN CHOICE: assumption log 26] -/
def dbgAccess (op : JtagOp) (d : Dev) (m : List Host.Cell) : Dev × List Host.Cell :=
  let d := wakeCs2 d
  let d2 := d.rd F.dbgStat_jtag_level == 2
  let shift (d : Dev) : Dev :=
    let r := d.draw
    r.2.emit (.jtag true (r.1 % 2 ^ 32))
  let bypass (d : Dev) : Dev := d.emit (.jtag false 0)
  match op with
  | .idcode | .samplePreload => (shift d, m)
  | .bypass => (bypass d, m)
  | .ctrl addr acc => if dbgProvides d acc then busAccess .dbg addr acc d m else (bypass d, m)
  | .extest => (if d2 then shift d else bypass d, m)
  | .scan on => (if d2 then d.setFlag F.dbgStat_scan on else bypass d, m)
  | .halt c => (if d2 then d.setBit F.dbgStat_halted c.val true else bypass d, m)
  | .resume c => (if d2 then d.setBit F.dbgStat_halted c.val false else bypass d, m)

/-- DBG_ACCESS (R448). -/
def execDbgAccess (op : JtagOp) (s : State) : Outcome State Fault Refusal := liftMem s (dbgAccess op)

end Sys2Proof.Machine
end

