-- ==== Sys2Proof/Machine/Clock.lean ====
section
/-! DEFINITION. Lost and regained clocks, and the supply target of the core (R30, R436). -/
namespace Sys2Proof.Machine

open Host (Outcome)

/-- A clock joins or leaves those whose lock is lost. -/
def putLost (d : Dev) (c : ClockId) (lost : Bool) : Dev :=
  d.updReset fun r => { r with lost := if lost then c :: r.lost.filter (fun x => x != c) else r.lost.filter fun x => x != c }

/-- Loss of a CHN domain's clock (R30): the write gate closes, the write clock is out of lock, and the sequencer stops with cause 10. -/
def chnClockLost (d : Dev) (c : Nat) : Dev :=
  let d := (closeWrite d c).updChn c fun ch => { ch with pllOn := false, pllGood := 0, mediaClock := false }
  let d := d.setFlag F.chnWstat_wlock false c
  if d.rd F.sqrStat_state (c / 2) = 0 then d else seqStop d (c / 2) 10 0

/-- CLOCK_LOCK_LOST (R30). [DEDUCED: assumption log 42] -/
def clockLockLost (c : ClockId) (d : Dev) : Dev :=
  if d.reset.held then d
  else
    let d := putLost d c true
    match c with
    | .xtal | .core | .ctl | .memc | .memphy => holdReset d
    | .sec => securityFault d 1
    | .hst h => if hostUsed d h.val then hostLinkDown d h.val else d
    | .lml p => if lmlUsed d p.val then portDown d p.val 3 else d
    | .chn n => if d.actPresent (n.val / 2) then chnClockLost d n.val else d
    | .ssc n unitB => if d.hdaPresent n.val then unitClockLost d n.val unitB.toNat else d
    | .mgt => d

def execClockLockLost (c : ClockId) (s : State) : Outcome State Fault Refusal := lift s (clockLockLost c)

/-- CLOCK_LOCK_REGAINED (R30): the channel is usable again; the port may train again. -/
def clockLockRegained (c : ClockId) (d : Dev) : Dev :=
  if d.reset.held || !d.reset.lost.contains c then d
  else
    let d := putLost d c false
    match c with
    | .hst h => hostTrain d h.val
    | .lml p =>
      if lmlUsed d p.val && d.rd F.lmlStat_state p.val == 0 && d.rd F.lmlStat_down_cause p.val == 3
          && domState d (domLml p.val) == 0 then portTrain d p.val
      else d
    | .ssc n unitB => d.updUnit n.val unitB.toNat fun u => { u with clkOk := true }
    | .chn _ | .xtal | .core | .ctl | .memc | .memphy | .sec | .mgt => d

def execClockLockRegained (c : ClockId) (s : State) : Outcome State Fault Refusal := lift s (clockLockRegained c)

/-- A target no more than 10 mV below the present one, in 5 mV steps (R436). [DEDUCED: assumption log 43] -/
def avsStepOk (now target : Nat) : Bool := decide (now ≤ target + 10) && (max now target - min now target) % 5 == 0

/-- The supply target of a region's island (R34); 800 mV, the reset target of the core rail it is regulated from, until its loop
moves it. [DESIGN CHOICE: assumption log 183] -/
def regionMv (d : Dev) (r : Nat) : Nat := tabGet 800 d.power.regionMv r

/-- A target kept within 40 mV of every one of some others. [DESIGN CHOICE: assumption log 183] -/
def clampNear (v : Nat) (near : List Nat) : Nat := near.foldl (fun v x => max (x - 40) (min v (x + 40))) v

/-- The regions in an order in which each is clamped to the adjacent ones before it (R34): C, Q0, Q1, Q3, Q2.
[DESIGN CHOICE: assumption log 183] -/
def regionOrder : List (Nat × List Nat) := [(0, []), (1, [0]), (2, [0, 1]), (4, [0, 2]), (3, [0, 1, 4])]

/-- The adaptive loop of each region trims its target, a free value, within 40 mV of those of adjacent regions (R34).
[DESIGN CHOICE: assumption log 183] -/
def trimRegions (d : Dev) : Dev :=
  forEach regionOrder d fun d x =>
    let (v, d) := d.draw
    let t := clampNear v (x.2.map (regionMv d))
    { d with power := { d.power with regionMv := tabPut 800 d.power.regionMv x.1 t } }

/-- AVS_ADJUST (R436): the new target is reported and the islands regulated from the rail are trimmed (R34), or it is held where
the transaction failed. [DEDUCED: assumption log 43] -/
def avsAdjust (target readback : Nat) (ok : Bool) (d : Dev) : Dev :=
  if !avsStepOk (d.rd F.glbAvs_target_mv) target then d
  else if ok then trimRegions ((d.wr F.glbAvs_target_mv target).wr F.glbAvs_read_mv readback)
  else d.setFlag F.glbAvs_avs_err true

def execAvsAdjust (target readback : Nat) (ok : Bool) (s : State) : Outcome State Fault Refusal :=
  lift s (avsAdjust target readback ok)

end Sys2Proof.Machine
end

