-- ==== Sys2Proof/Machine/HostIO.lean ====
section
/-! DEFINITION. The I/O commands of a host: each row is the host's submission to one of its queues; fetch, insertion, grant,
data, coverage and media steps then carry it on with the range-lock entries of R78 (R76-R90, R100-R103, R121; assumption
log 7). -/
namespace Sys2Proof.Machine

open Host (Outcome)

/-- READ (R78). -/
def execRead (h : HstId) (qid cid : Nat) (r : LbaRange) (fua : Bool) (keyTag : Nat) (s : State) : Outcome State Fault Refusal :=
  lift s (submit h.val qid cid { kind := .read, nsid := r.nsid, slba := r.slba, count := r.count, fua := fua, keyTag := keyTag })

/-- WRITE (R83). -/
def execWrite (h : HstId) (qid cid : Nat) (r : LbaRange) (toks : List Nat) (fua : Bool) (keyTag : Nat) (s : State) :
    Outcome State Fault Refusal :=
  lift s (submit h.val qid cid
    { kind := .write, nsid := r.nsid, slba := r.slba, count := r.count, toks := toks, fua := fua, keyTag := keyTag })

/-- WRITE_ZEROES (R78). -/
def execWriteZeroes (h : HstId) (qid cid : Nat) (r : LbaRange) (fua : Bool) (s : State) : Outcome State Fault Refusal :=
  lift s (submit h.val qid cid { kind := .writeZeroes, nsid := r.nsid, slba := r.slba, count := r.count, fua := fua, keyTag := r.tag })

/-- WRITE_UNCORRECTABLE (R78). -/
def execWriteUncorrectable (h : HstId) (qid cid : Nat) (r : LbaRange) (s : State) : Outcome State Fault Refusal :=
  lift s (submit h.val qid cid { kind := .writeUncorrectable, nsid := r.nsid, slba := r.slba, count := r.count })

/-- COMPARE (R78). -/
def execCompare (h : HstId) (qid cid : Nat) (r : LbaRange) (toks : List Nat) (s : State) : Outcome State Fault Refusal :=
  lift s (submit h.val qid cid { kind := .compare, nsid := r.nsid, slba := r.slba, count := r.count, toks := toks, keyTag := r.tag })

/-- VERIFY (R78). -/
def execVerify (h : HstId) (qid cid : Nat) (r : LbaRange) (s : State) : Outcome State Fault Refusal :=
  lift s (submit h.val qid cid { kind := .verify, nsid := r.nsid, slba := r.slba, count := r.count, keyTag := r.tag })

/-- DATASET_MANAGEMENT (R124): with Deallocate; without it the ranges are hints. -/
def execDatasetManagement (h : HstId) (qid cid nsid : Nat) (ad : Bool) (ranges : List LbaRange) (s : State) :
    Outcome State Fault Refusal :=
  lift s (submit h.val qid cid { kind := if ad then .deallocate else .dsmOther, nsid := nsid, ranges := ranges })

/-- COPY (R330): source ranges, each with its source NSID (0: the command's own) and key tag, to a destination LBA. -/
def execCopy (h : HstId) (qid cid nsid : Nat) (dst : KeyedLba) (ranges : List LbaRange) (s : State) : Outcome State Fault Refusal :=
  lift s (submit h.val qid cid
    { kind := .copy, nsid := nsid, slba := dst.lba, count := (ranges.map (·.count)).sum, ranges := ranges, keyTag := dst.tag })

/-- ZONE_APPEND (R78). -/
def execZoneAppend (h : HstId) (qid cid nsid : Nat) (zslba : KeyedLba) (toks : List Nat) (fua : Bool) (s : State) :
    Outcome State Fault Refusal :=
  lift s (submit h.val qid cid
    { kind := .append, nsid := nsid, slba := zslba.lba, count := toks.length, toks := toks, fua := fua, keyTag := zslba.tag })

/-- ZONE_OPEN (R121). -/
def execZoneOpen (h : HstId) (qid cid nsid zslba : Nat) (all : Bool) (s : State) : Outcome State Fault Refusal :=
  lift s (submit h.val qid cid { kind := .zone .openZone all, nsid := nsid, slba := zslba })

/-- ZONE_CLOSE (R121). -/
def execZoneClose (h : HstId) (qid cid nsid zslba : Nat) (all : Bool) (s : State) : Outcome State Fault Refusal :=
  lift s (submit h.val qid cid { kind := .zone .closeZone all, nsid := nsid, slba := zslba })

/-- ZONE_FINISH (R121). -/
def execZoneFinish (h : HstId) (qid cid nsid zslba : Nat) (all : Bool) (s : State) : Outcome State Fault Refusal :=
  lift s (submit h.val qid cid { kind := .zone .finishZone all, nsid := nsid, slba := zslba })

/-- ZONE_RESET (R129): Homework on the zone gives way at once (step 4). -/
def execZoneReset (h : HstId) (qid cid nsid zslba : Nat) (all : Bool) (s : State) : Outcome State Fault Refusal :=
  lift s (submit h.val qid cid { kind := .zone .resetZone all, nsid := nsid, slba := zslba })

/-- ZONE_OFFLINE (R122). -/
def execZoneOffline (h : HstId) (qid cid nsid zslba : Nat) (all : Bool) (s : State) : Outcome State Fault Refusal :=
  lift s (submit h.val qid cid { kind := .zone .offlineZone all, nsid := nsid, slba := zslba })

/-- ZONE_MANAGEMENT_RECEIVE (R121). -/
def execZoneManagementReceive (h : HstId) (qid cid nsid zslba : Nat) (s : State) : Outcome State Fault Refusal :=
  lift s (submit h.val qid cid { kind := .zoneReport, nsid := nsid, slba := zslba })

/-- FLUSH (R89). -/
def execFlush (h : HstId) (qid cid nsid : Nat) (s : State) : Outcome State Fault Refusal :=
  lift s (submit h.val qid cid { kind := .flush, nsid := nsid })

/-- COMPRESSED_ZONE_APPEND (R154): NLB is 0-based (R100). -/
def execCompressedZoneAppend (h : HstId) (qid cid nsid zslba nlb ctx : Nat) (cont : Bool) (level : Nat) (gcm : Bool)
    (keyTag : Nat) (chunk : List (BitVec 8)) (s : State) : Outcome State Fault Refusal :=
  lift s (submit h.val qid cid
    { kind := .compAppend, nsid := nsid, slba := zslba, count := nlb + 1, ctx := ctx, cont := cont, level := level, gcm := gcm,
      keyTag := keyTag, chunk := chunk })

/-- COMPRESSED_READ (R156): stored LBAs and host buffer size are 0-based (R102). -/
def execCompressedRead (h : HstId) (qid cid nsid slba stored bufLbas keyTag : Nat) (s : State) : Outcome State Fault Refusal :=
  lift s (submit h.val qid cid
    { kind := .compRead, nsid := nsid, slba := slba, count := stored + 1, stored := stored, bufLbas := bufLbas, keyTag := keyTag })

/-- STREAM_CONTEXT_SAVE (R151). -/
def execStreamContextSave (h : HstId) (qid cid nsid ctx : Nat) (s : State) : Outcome State Fault Refusal :=
  lift s (submit h.val qid cid { kind := .ctxSave, nsid := nsid, ctx := ctx })

/-- STREAM_CONTEXT_RESTORE (R152). -/
def execStreamContextRestore (h : HstId) (qid cid nsid ctx : Nat) (image : List (BitVec 8)) (s : State) :
    Outcome State Fault Refusal :=
  lift s (submit h.val qid cid { kind := .ctxRestore, nsid := nsid, ctx := ctx, chunk := image })

/-- ABORT (R109): only a command that has not begun media work and has posted no completion; an unfetched one leaves its
queue; an Asynchronous Event Request still held ends too. [DEDUCED: assumption log 192] -/
def abort (h cid qid target : Nat) (d : Dev) : Dev :=
  let here := d.host.ctxs.find? fun x => x.org == .host h qid target
  let queued := (d.port h).sqs.any fun q => q.qid == qid && q.cmds.any fun c => c.1 == target
  match here with
  | some x =>
    if begunNow d x then d.emit (.cqe h 0 cid 0 1)
    else
      let d := if writesData x.c.kind then failWrite d x.id stAborted else finish d x.id stAborted 0
      d.emit (.cqe h 0 cid 0 0)
  | none =>
    if queued then
      let d := d.updPort h fun p => { p with sqs := p.sqs.map fun q =>
        if q.qid == qid then { q with cmds := q.cmds.filter fun c => c.1 != target } else q }
      (d.emit (.cqe h qid target stAborted 0)).emit (.cqe h 0 cid 0 0)
    else if qid = 0 ∧ (d.port h).aers.contains target then
      let d := d.updPort h fun p => { p with aers := p.aers.filter fun c => c != target, adminUsed := p.adminUsed - 1 }
      syncHost ((d.emit (.cqe h 0 target stAborted 0)).emit (.cqe h 0 cid 0 0))
    else d.emit (.cqe h 0 cid 0 1)

def execAbort (h : HstId) (cid qid target : Nat) (s : State) : Outcome State Fault Refusal :=
  lift s (adminDo h.val cid false false (abort h.val cid qid target))

end Sys2Proof.Machine
end

