-- ==== Sys2Proof/Machine/Lomey.lean ====
section
/-! DEFINITION. The Lomey link layer and the states of a port: training, frames and control flits, acknowledgement, credit and
replay, budgets, failover, and secure links (R309-R324, R334). -/
namespace Sys2Proof.Machine

open Host (Outcome)

/-! ### Port states (R323) -/

/-- The link starts afresh: sequence numbers from 0, 512 flits of credit in each class (R315, R316). [DEDUCED: assumption log 130] -/
def linkFresh (d : Dev) (p : Nat) : Dev :=
  let d := (flushPort d p).updLport p fun l => { l with expect := 0, unacked := 0, freed := [], told := 0, seen := [], keyFrames := 0 }
  let d := (d.wr F.lmlRetry_next_seq 0 p).wr F.lmlRetry_acked 0 p
  forEach (List.range 8) d fun d c => (d.wr F.lmlCred_tx_avail 512 p c).wr F.lmlCred_rx_used 0 p c

/-- The port is UP: in routing unless it is restoring. -/
def portUp (d : Dev) (p : Nat) : Dev :=
  let d := (d.wr F.lmlStat_state 3 p).setFlag F.lmlEvt_up true p
  pumpPort (d.setFlag F.lmlStat_routed (!(d.lport p).restoring) p) p

/-- The width a link takes (R309): the widest aligned group trained at both ends, no wider than either end's width, the
lowest-numbered one. -/
def linkGroup (mask maxWidth : Nat) : Option (Nat × Nat) :=
  [8, 4, 2, 1].findSome? fun w =>
    if maxWidth < w then none
    else ((List.range (8 / w)).find? fun g => (List.range w).all fun i => mask.testBit (w * g + i)).map fun g => (w, w * g)

/-- A port that trains: in TRAINING, or DEAD with its training in the background. [DEDUCED: assumption log 134] -/
def training (d : Dev) (p : Nat) : Bool := d.rd F.lmlStat_state p == 1 || d.rd F.lmlStat_state p == 5

/-- TRAINING_COMPLETE (R309, R323): the lanes trained here, told in a link control flit with the rate above them, and those trained at the
neighbour, whose width and encryption its flits told, and the measured delay. [DEDUCED: assumption log 134] -/
def trainingDone (p lanes peerLanes peerWidth : Nat) (peerEncrypt : Bool) (delay : Nat) (d : Dev) : Dev :=
  if !training d p then d
  else
    match linkGroup (lanes &&& peerLanes) (min (d.rd F.lmlCfg_width p) peerWidth) with
    | none => d
    | some (w, _) =>
      let d := ((d.wr F.lmlStat_width w p).wr F.lmlStat_lanes lanes p).wr F.lmlStat_link_delay delay p
      let d := d.emit (.unit p 0x33 (controlFlit none none [] (lanes + 256 * d.rd F.lmlStat_rate p)))
      let d := (linkFresh d p).updLport p fun l => { l with peerWidth := peerWidth, peerEncrypt := peerEncrypt }
      if d.flag F.lmlCfg_encrypt p || peerEncrypt then d.wr F.lmlStat_state 2 p else portUp d p

def execTrainingComplete (p : LmlId) (lanes peerLanes : Fin 256) (peerWidth : Nat) (peerEncrypt : Bool) (delay : Nat) (s : State) :
    Outcome State Fault Refusal :=
  lift s (trainingDone p.val lanes.val peerLanes.val peerWidth peerEncrypt delay)

/-- TRAINING_RATE_FALLBACK (R309 step 4): 500 ms without a lane; rate 2 is retried without limit. -/
def rateFallback (p : Nat) (d : Dev) : Dev :=
  if training d p then d.wr F.lmlStat_rate (min 2 (d.rd F.lmlStat_rate p + 1)) p else d

def execTrainingRateFallback (p : LmlId) (s : State) : Outcome State Fault Refusal := lift s (rateFallback p.val)

/-- TRAINING_RETRY_TIMER (R323): 1 s after a port went DOWN for a secure timeout. -/
def execTrainingRetryTimer (p : LmlId) (s : State) : Outcome State Fault Refusal :=
  lift s fun d =>
    if d.rd F.lmlStat_state p.val == 0 && d.rd F.lmlStat_down_cause p.val == 5 && d.flag F.lmlCfg_used p.val then portTrain d p.val else d

/-- A frame of a dead port routed again with the port unusable (R321, R324). [DEDUCED: assumption log 129] -/
def reroute (d : Dev) (f : Frame) (arrival : Option Nat) (held : Bool) : Dev :=
  let leave (p : Nat) (turned : Bool) : Dev :=
    let f := { f with turned := f.turned || turned }
    if held then departTransit d p ⟨f, arrival⟩
    else
      let (r, d) := d.draw
      if f.budget ≤ r + 1 then dropFrame d p ⟨f, none⟩ 1 else putOn d p ⟨{ f with budget := f.budget - (r + 1) }, none⟩
  match routeOf d f.dest f.path f.turned arrival with
  | .consume => if held then freeRx d arrival f.tc f.length else d
  | .send p => leave p false
  | .uTurn p => leave p true
  | .drop => match arrival with
    | some a => dropFrame d a ⟨f, if held then arrival else none⟩ 2
    | none => originate d f

/-- The port is DEAD (R324): out of routing, its frames routed again, and a notice flooded. [DEDUCED: assumption log 134] -/
def portDead (d : Dev) (p : Nat) : Dev :=
  let q := (d.lport p).txq
  let r := (d.lport p).retry.filter fun s => !s.stomp
  let d := ((d.wr F.lmlStat_state 5 p).setFlag F.lmlEvt_dead true p).setFlag F.lmlStat_routed false p
  let d := (d.setFlag F.lmlStat_secure false p).wr F.lmlStat_rate (d.rd F.lmlCfg_rate p) p
  let d := (d.wr F.lmlRetry_buf_used 0 p).wr F.lmlRetry_sends 0 p
  let d := d.updLport p fun l => { l with txq := [], retry := [], resend := [], nakAsked := false, restoring := true }
  let d := cardEpoch d (40 + p) 1
  let d := forEach r d fun d s => reroute d s.f s.arrival false
  let d := forEach q d fun d t => reroute d t.f t.arrival true
  sendNotice d p false

/-- LINK_RETRAIN (R323): queues and retry buffer are held. -/
def execLinkRetrain (p : LmlId) (s : State) : Outcome State Fault Refusal :=
  lift s fun d => if d.rd F.lmlStat_state p.val = 3 then (d.wr F.lmlStat_state 4 p.val).setFlag F.lmlEvt_retrain true p.val else d

/-- Replay of everything unacknowledged from a sequence number on; a ninth sending that went unacknowledged exhausts the retries
(R315). -/
def replayFrom (d : Dev) (p n : Nat) : Dev :=
  let rest := (d.lport p).retry.dropWhile fun s => s.f.seq != n
  match rest with
  | [] => d
  | s :: _ =>
    if 9 ≤ s.sends then (if d.rd F.lmlStat_state p = 3 then portDead d p else d)
    else pumpPort (d.updLport p fun l => { l with resend := rest.map fun s => s.f.seq }) p

/-- Replay from the oldest unacknowledged frame. -/
def replayOldest (d : Dev) (p : Nat) : Dev :=
  match (d.lport p).retry with
  | [] => pumpPort d p
  | s :: _ => replayFrom d p s.f.seq

/-- RETRAIN_COMPLETE (R323). -/
def execRetrainComplete (p : LmlId) (s : State) : Outcome State Fault Refusal :=
  lift s fun d =>
    if d.rd F.lmlStat_state p.val = 4 then
      settleChain (replayOldest ((d.wr F.lmlStat_state 3 p.val).setFlag F.lmlEvt_up true p.val) p.val)
    else d

/-- RETRAIN_TIMEOUT (R323, R324). -/
def execRetrainTimeout (p : LmlId) (s : State) : Outcome State Fault Refusal :=
  lift s fun d => if d.rd F.lmlStat_state p.val = 4 then settleChain (portDead d p.val) else d

/-- SECURE_WAIT_TIMEOUT (R323). -/
def execSecureWaitTimeout (p : LmlId) (s : State) : Outcome State Fault Refusal :=
  lift s fun d => if d.rd F.lmlStat_state p.val = 2 then portDown d p.val 5 else d

/-- SECURE_SESSION_ESTABLISHED (R334, R403): completed only when the peer's chain verifies, its measured owner key is this device's
own, and neither end is in DECOMMISSIONED. [PRESUMED: assumption log 17] -/
def secureUp (p : Nat) (chainOk : Bool) (peerHash : Nat) (peerDecom : Bool) (d : Dev) : Dev :=
  if d.rd F.lmlStat_state p ≠ 2 then d
  else if !chainOk || peerHash != tabGet 0 d.sec.otp.keyHash 2 || peerDecom || d.rd F.secLc_state == 5 then d
  else portUp ((d.setFlag F.lmlStat_secure true p).updLport p fun l => { l with keyFrames := 0, keyGen := 0 }) p

def execSecureSessionEstablished (p : LmlId) (chainOk : Bool) (peerHash : Nat) (peerDecom : Bool) (s : State) :
    Outcome State Fault Refusal :=
  lift s (secureUp p.val chainOk peerHash peerDecom)

/-- ROUTING_RESTORE (R323): 100 ms without leaving UP. [DEDUCED: assumption log 134] -/
def routingRestore (p : Nat) (d : Dev) : Dev :=
  if d.rd F.lmlStat_state p = 3 ∧ d.flag F.lmlStat_routed p = false then
    let d := (d.setFlag F.lmlStat_routed true p).setFlag F.lmlEvt_restored true p
    sendNotice (d.updLport p fun l => { l with restoring := false }) p true
  else d

def execRoutingRestore (p : LmlId) (s : State) : Outcome State Fault Refusal :=
  lift s fun d => settleChain (routingRestore p.val d)

/-- SESSION_KEY_UPDATE_DUE (R334): 2^32 frames under one key. -/
def execSessionKeyUpdateDue (p : LmlId) (s : State) : Outcome State Fault Refusal :=
  lift s fun d =>
    if d.flag F.lmlStat_secure p.val && decide (2 ^ 32 ≤ (d.lport p.val).keyFrames) then
      let d := d.updLport p.val fun l => { l with keyFrames := 0, keyGen := l.keyGen + 1 }
      sendLocal d p.val (mkFrame d linkLocal ftSpdm 0 false 0 65535 [] [0xE9] 1)
    else d

/-! ### Control flits (R315-R317) -/

/-- Frames acknowledged up to a sequence number leave the retry buffer. -/
def ackUpTo (d : Dev) (p n : Nat) : Dev :=
  let r := (d.lport p).retry
  if !r.any fun s => s.f.seq == n then d
  else
    let rest := (r.dropWhile fun s => s.f.seq != n).drop 1
    let d := d.updLport p fun l => { l with
      retry := rest, resend := l.resend.filter fun k => rest.any fun s => s.f.seq == k }
    let d := (d.wr F.lmlRetry_acked n p).wr F.lmlRetry_buf_used ((rest.map fun s => s.f.length).sum) p
    d.wr F.lmlRetry_sends ((rest.head?.map (·.sends)).getD 0) p

/-- Credit returned: the counts are cumulative, so what was lost with a flit comes with the next (R317). [DEDUCED: assumption log 130] -/
def takeCredit (d : Dev) (p : Nat) (credit : List Nat) : Dev :=
  forEach ((List.range 8).filter fun c => decide (c < credit.length)) d fun d c =>
    let v := credit.getD c 0 % 2 ^ 16
    let new := (v + 2 ^ 16 - tabGet 0 (d.lport p).seen c) % 2 ^ 16
    (d.wr F.lmlCred_tx_avail (min 512 (d.rd F.lmlCred_tx_avail p c + new)) p c).updLport p fun l => { l with seen := tabPut 0 l.seen c v }

/-- LINK_CONTROL_FLIT (R315-R317): one whose CRC fails is discarded. -/
def flitArrived (p : Nat) (ack nak : Option Nat) (credit : List Nat) (crcOk : Bool) (d : Dev) : Dev :=
  if !crcOk || (d.rd F.lmlStat_state p != 3 && d.rd F.lmlStat_state p != 2) then d
  else
    let d := takeCredit d p credit
    let d := match ack with
      | some n => ackUpTo d p (n % 4096)
      | none => d
    match nak with
    | some n => replayFrom (ackUpTo d p ((n + 4095) % 4096)) p (n % 4096)
    | none => pumpPort d p

def execLinkControlFlit (p : LmlId) (ack nak : Option Nat) (credit : List Nat) (crcOk : Bool) (s : State) : Outcome State Fault Refusal :=
  lift s fun d => settleChain (flitArrived p.val ack nak credit crcOk d)

/-- LINK_ACK_TIMER (R315). [DESIGN CHOICE: assumption log 131] -/
def execLinkAckTimer (p : LmlId) (s : State) : Outcome State Fault Refusal :=
  lift s fun d => if (d.lport p.val).unacked = 0 then d else sendFlit d p.val none

/-- LINK_CREDIT_TIMER (R316). [DESIGN CHOICE: assumption log 131] -/
def execLinkCreditTimer (p : LmlId) (s : State) : Outcome State Fault Refusal :=
  lift s fun d => if (d.lport p.val).told = 0 then d else sendFlit d p.val none

/-- LINK_REPLAY_TIMEOUT (R315). -/
def execLinkReplayTimeout (p : LmlId) (s : State) : Outcome State Fault Refusal :=
  lift s fun d =>
    if (d.rd F.lmlStat_state p.val = 3 ∨ d.rd F.lmlStat_state p.val = 2) ∧ (d.lport p.val).retry ≠ [] then settleChain (replayOldest d p.val)
    else d

/-- BUDGET_EXPIRY (R319): the budget of a queued frame reaches 0. -/
def execBudgetExpiry (p : LmlId) (idx : Nat) (s : State) : Outcome State Fault Refusal :=
  lift s fun d => match (d.lport p.val).txq[idx]? with
    | none => d
    | some t => settleChain (pumpPort (dropFrame (d.updLport p.val fun l => { l with txq := l.txq.eraseIdx idx }) p.val t 1) p.val)

/-! ### Frames received (R311-R321) -/

/-- A frame this node consumes (R314, R321); SPDM frames by their own command. [DEDUCED: assumption log 128] -/
def consumeFrame (d : Dev) (p : Nat) (f : Frame) : Dev :=
  let b (i : Nat) : Nat := f.body.getD i 0
  if f.ty = ftCmd then cmdArrived p f d
  else if f.ty = ftAck then ackArrived f d
  else if f.ty = ftXrdy then xrdyArrived f d
  else if f.ty = ftWdata then wdataArrived f d
  else if f.ty = ftRdata then rdataArrived f d
  else if f.ty = ftCpl then cplArrived f d
  else if f.ty = ftProg then ackArrived f d
  else if f.ty = ftCancel then cancelArrived f d
  else if f.ty = ftNak then nakArrived d f
  else if f.ty = ftRoute then routeHeard (f.spec.headD 0) f.body d
  else if f.ty = ftRc then
    match f.spec.headD 0 with
    | 0 => announceHeard p (b 0) (b 1) d
    | 1 => probeHeard p f.src (b 0) (b 1) d
    | 2 => reportHeard p f.dest { devId := b 0, addr := b 1, ports := [b 2, b 3, b 4, b 5], root := b 6 == 1, arrival := b 7,
                                  fixed := b 8 == 1, nss := b 9 } d
    | 3 => assignHeard (b 0) (b 1) d
    | 5 => doneHeard p (b 0) d
    | 6 => noticeHeard p (b 0) (b 1 % 4) (b 2 == 1) d
    | _ => d
  else d

/-- A frame that is not accepted (R315): one NAK names the expected number, and what was received is discarded. -/
def refuseFrame (d : Dev) (p : Nat) (f : Frame) : Dev :=
  let d := freeRx d (some p) f.tc f.length
  if (d.lport p).nakAsked then d
  else
    let d := d.updLport p fun l => { l with nakAsked := true }
    sendFlit d p (some (d.lport p).expect)

/-- An accepted frame: malformed ones are discarded and counted; the budget takes the link delay; then it is consumed or forwarded
(R312, R314, R319, R321). [DEDUCED: assumption log 128 and 133] -/
def acceptFrame (d : Dev) (p : Nat) (f : Frame) : Dev :=
  let free (d : Dev) : Dev := freeRx d (some p) f.tc f.length
  let hop := ceilDiv (d.rd F.lmlStat_link_delay p) 64
  if f.length < 2 || decide (66 < f.length) || reservedType f.ty || decide (8 ≤ f.tc) then free (d.addWrap F.lmlCnt_count 1 p 7)
  else if d.rd F.lmlStat_state p == 2 && f.ty != ftSpdm then free d
  else if f.budget ≤ hop then dropFrame d p ⟨f, some p⟩ 1
  else
    let f := { f with budget := f.budget - hop }
    match routeOf d f.dest f.path f.turned (some p) with
    | .consume => consumeFrame (free d) p f
    | _ => forwardFrame d f p

/-- A frame in order whose CRC or tag is found bad may have left by cut-through already: whether its head had is a free value; if so it
leaves with a stomped trailer, with a sequence number, credit and budget as any transit frame (R313, R319, R334).
[DEDUCED: assumption log 129] -/
def stompOn (d : Dev) (p : Nat) (f : Frame) : Dev :=
  let hop := ceilDiv (d.rd F.lmlStat_link_delay p) 64
  let leave (q : Nat) (f : Frame) : Dev :=
    if !canSend d q f || (d.lport q).txq.any (fun x => x.f.tc == f.tc) then d
    else
      let (cut, d) := d.draw
      let (r, d) := d.draw
      if cut % 2 = 0 ∨ f.budget ≤ hop + r + 1 then d else sendAs d q { f with budget := f.budget - hop - (r + 1) } none true
  if f.seq != (d.lport p).expect || d.rd F.lmlStat_state p != 3 || f.length < 2 || decide (66 < f.length) || reservedType f.ty
      || decide (8 ≤ f.tc) then d
  else match routeOf d f.dest f.path f.turned (some p) with
    | .send q => leave q f
    | .uTurn q => leave q { f with turned := true }
    | _ => d

/-- The FEC codewords of what arrived (R308: none at rate 2): how many were corrected, and how many could not be, are free values in
LML_CNT_2 and LML_CNT_3 (assumption log 132). -/
def fecCount (d : Dev) (p : Nat) : Dev :=
  if d.rd F.lmlStat_rate p = 2 then d
  else
    let (c, d) := d.draw
    let (u, d) := d.draw
    (d.addWrap F.lmlCnt_count c p 2).addWrap F.lmlCnt_count u p 3

/-- LOMEY_FRAME_RECEIVED (R315, R334): its CRC, tag and sequence checks, then what R321 does with it.
[DEDUCED: assumption log 128 and 133] -/
def frameReceived (p : Nat) (f : Frame) (chk : FrameCheck) (d : Dev) : Dev :=
  if d.rd F.lmlStat_state p != 3 && d.rd F.lmlStat_state p != 2 then d
  else
    let d := fecCount d p
    let d := if f.tc < 8 then d.addSat F.lmlCred_rx_used f.length p f.tc else d
    let inOrder := f.seq == (d.lport p).expect
    let next (d : Dev) : Dev := d.updLport p fun l => { l with expect := (l.expect + 1) % 4096, nakAsked := false, unacked := l.unacked + 1 }
    match chk with
    | .crcBad => refuseFrame (stompOn (d.addWrap F.lmlCnt_count 1 p 0) p f) p f
    | .tagBad => refuseFrame (stompOn ((d.setFlag F.lmlEvt_gcm_fail true p).addWrap F.lmlCnt_count 1 p 6) p f) p f
    | .malformed => refuseFrame (d.addWrap F.lmlCnt_count 1 p 7) p f
    | .stomped =>
      if inOrder then freeRx (flitDue (next (d.setFlag F.lmlEvt_stomp true p)) p) (some p) f.tc f.length else refuseFrame d p f
    | .good => if inOrder then acceptFrame (flitDue (next d) p) p f else refuseFrame d p f

def execLomeyFrameReceived (p : LmlId) (f : Frame) (chk : FrameCheck) (s : State) : Outcome State Fault Refusal :=
  lift s fun d => settleChain (frameReceived p.val f chk d)

end Sys2Proof.Machine
end

