-- ==== Sys2Proof/Machine/MediaWork.lean ====
section
/-! DEFINITION. Work of the media's own: cleaning, map checkpoints, Homework and the retry ladder (R125, R127-R132, R217, R227,
R229). -/
namespace Sys2Proof.Machine

open Host (Outcome)

/-! ### Cleaning (R125) -/

/-- The internal context share of CTX has a context left (R52, R75). [DESIGN CHOICE: assumption log 70] -/
def internalFree (d : Dev) : Bool := decide ((d.host.ctxs.filter fun x => x.org == .internal).length < d.secField 8 0 12 4)

/-- Relocation of a band pair may run: the HDA serves media work, no D2 session holds (R397), the log head has room, a context of the
internal share is left, and the pair is not being relocated. [DESIGN CHOICE: assumption log 70] -/
def cleanable (d : Dev) (ns : Ns) (act zi : Nat) : Bool :=
  !ns.zoned && hdaReady d (act / 2) && !d.sec.d2Held && (logBand d ns act (some zi)).isSome && internalFree d &&
    !(d.host.tasks.any fun t => t.kind == .clean ns.nsid zi) && (ns.zones[zi]?).any fun z => z.act == act && z.wp != 0

/-- Internal work of Homework's traffic kind takes a context (R75, R125). -/
def internalCtx (d : Dev) (nsid zi : Nat) (locks : List Lock) : Dev :=
  let x : Ctx := { id := d.host.nextId, fe := 6, org := .internal, c := { kind := .verify, nsid := nsid, value := zi + 1 },
                   stage := .media, begun := true, locks := locks, traffic := some .homework }
  d.updHost fun s => { s with nextId := s.nextId + 1, ctxs := s.ctxs ++ [x], order := s.order ++ [x.id] }

/-- Relocation of a band pair begins: its context and its media task; the sectors of the pair that are in Detention are marked (R133).
[DESIGN CHOICE: assumption log 70] -/
def cleanBegin (d : Dev) (nsid act zi : Nat) : Dev :=
  let lbas := (nsMedia d nsid).filterMap fun m => if m.2.mapped && m.2.band == zi then some (m.1 / 1024) else none
  let d := forEach lbas d fun d l => relocating d nsid l 1 1
  syncHost (addTask (internalCtx d nsid zi []) (.clean nsid zi) act false)

/-- CLEANING_START: with fewer than 4 free band pairs of the namespace on the actuator; `band` names the pair chosen.
[DESIGN CHOICE: assumption log 70] -/
def cleaningStart (nsid act band : Nat) (d : Dev) : Dev :=
  match d.ns? nsid with
  | none => d
  | some ns => if bandsFree ns act < 4 ∧ cleanable d ns act band = true then cleanBegin d nsid act band else d

def execCleaningStart (nsid : Nat) (act : ActId) (band : Nat) (s : State) : Outcome State Fault Refusal :=
  lift s (cleaningStart nsid act.val band)

/-! ### Map checkpoints (R127) -/

/-- MAP_CHECKPOINT: after 4 GiB of host writes, or every 60 s while the map changed; the journal's records go.
[DEDUCED: assumption log 71] -/
def mapCheckpoint (nsid : Nat) (d : Dev) : Dev :=
  match d.ns? nsid with
  | none => d
  | some ns =>
    if ns.zoned || !ns.mapReady || !(ns.mapDirty || decide (2 ^ 20 ≤ ns.hostWrites)) then d
    else syncHost (checkpointMap d nsid)

def execMapCheckpoint (nsid : Nat) (s : State) : Outcome State Fault Refusal := lift s (mapCheckpoint nsid)

/-- MAP_LOAD: once its HDAs are in HS0 with their locker journals replayed, the map is built from its last checkpoint and the journal; the
namespace admits I/O (R440 step 6). [DEDUCED: assumption log 71] -/
def mapLoad (nsid : Nat) (d : Dev) : Dev :=
  match d.ns? nsid with
  | none => d
  | some ns =>
    let hdas := (((List.range 8).filter fun a => ns.actMask.testBit a).map (· / 2)).eraseDups
    if ns.mapReady || !hdas.all (hdaReady d) then d
    else forEach hdas (syncHost ((checkpointMap (recoverMap d nsid) nsid).updNs nsid fun ns => { ns with mapReady := true })) hdaThroughStart

def execMapLoad (nsid : Nat) (s : State) : Outcome State Fault Refusal := lift s (mapLoad nsid)

/-! ### Homework (R128, R129) -/

/-- The zone of a namespace that holds a band on a head. -/
def bandOwner (d : Dev) (act head band : Nat) : Option (Ns × Nat) :=
  d.host.nss.findSome? fun ns => ((List.range ns.zones.length).find? fun i => (ns.zones[i]?).any fun z =>
    z.act == act && ((z.headA == head && z.bandA == band) || (z.headB == head && z.bandB == band))).map fun i => (ns, i)

/-- Sectors with data in a band of a zone with a given write pointer (R116). -/
def bandSectors (d : Dev) (ns : Ns) (z : Zone) (second : Bool) : Nat :=
  ((List.range z.wp).filter fun x => (zonePlace z.isPair (fmtBandMib d (z.act / 2)) ns.parity x).1 == second.toNat).length

/-- A band of a zone marked for rewriting (R129), the second where `second` holds. -/
def markBand (d : Dev) (nsid zi : Nat) (second : Bool) : Dev :=
  d.updZone nsid zi fun z => if second then { z with markB := true } else { z with markA := true }

/-- The channel that reads with a head of an actuator. -/
def channelOf (d : Dev) (act head : Nat) : Nat := if chnHead d (2 * act + 1) = head ∧ chnHead d (2 * act) ≠ head then 2 * act + 1 else 2 * act

/-- A sector's decode margin is below the rewrite threshold (R217): more wrong bits than rw_bits, or more iterations than rw_iters. -/
def weakMargin (d : Dev) (c errs iters : Nat) : Bool := decide (d.rd F.chnMargin_rw_bits c < errs ∨ d.rd F.chnMargin_rw_iters c < iters)

/-- HOMEWORK_READ: a written band read in idle media time of an HDA in HS0; the greatest wrong bits and iterations of its sectors, above the
threshold of the channel that reads it, mark it. [DEDUCED: assumption log 72] -/
def homeworkRead (act head band errs iters : Nat) (d : Dev) : Dev :=
  if !hdaReady d (act / 2) || actWork d act || d.sec.d2Held then d
  else match bandOwner d act head band with
    | none => d
    | some (ns, i) =>
      match ns.zones[i]? with
      | none => d
      | some z =>
        let second := !(z.headA == head && z.bandA == band)
        if bandSectors d ns z second = 0 then d
        else
          let lo := bandTrack d (act / 2) band 0
          let hi := bandTrack d (act / 2) band (fmtBandMib d (act / 2) * 256 - 1)
          let d := d.updHost fun s => { s with homeworkDue := s.homeworkDue.filter fun x =>
            !(x.1 == act && x.2.1 == head && decide (lo ≤ x.2.2 ∧ x.2.2 ≤ hi)) }
          let d := cardCount d 6 (bandSectors d ns z second)
          if weakMargin d (channelOf d act head) errs iters then markBand d ns.nsid i second else d

def execHomeworkRead (act : ActId) (head : HeadId) (band : Nat) (worst : BandMargin) (s : State) : Outcome State Fault Refusal :=
  lift s (homeworkRead act.val head.val band worst.errs worst.iters)

/-- HOMEWORK_REWRITE (R129): a marked band of a zone that is Full, once D plus the band fits B: its shared entry through FE6, the buffered
copy that counts in D, and the write at its place; a marked band of a conventional namespace is relocated by cleaning. [DEDUCED: assumption log 72] -/
def homeworkRewrite (nsid zi : Nat) (d : Dev) : Dev :=
  match d.ns? nsid, d.zone? nsid zi with
  | some ns, some z =>
    let n := z.act / 2
    let units := fmtBandMib d n * 256
    let zs := zoneSize d ns
    let lock : Lock := { excl := false, nsid := nsid, lo := zi * zs, hi := (zi + 1) * zs }
    let probe : Ctx := { id := d.host.nextId, fe := 6, org := .internal, c := { kind := .verify, nsid := nsid }, locks := [lock] }
    let second := !z.markA
    let key := (nsid * 2 ^ 20 + zi) * 2 + second.toNat
    if !(z.markA || z.markB) || !hdaReady d n || d.sec.d2Held || actWork d z.act || decide (boundAll d < dirtyAll d + units) then d
    else if !ns.zoned then if cleanable d ns z.act zi then cleanBegin d nsid z.act zi else d
    else if z.state ≠ .full || (d.host.held.any fun h => h.kind == 2 && h.key / 2 == key / 2) || !lockFree d probe || !internalFree d then d
    else
      let d := (internalCtx d nsid zi [lock]).updHost fun s => { s with held := s.held ++ [{ kind := 2, key := key, hda := n, units := units }] }
      let d := cardCount d 6 (bandSectors d ns z second)
      let d := forEach (bandLbas d ns zi z second) d fun d l => relocating d nsid l 1 1
      syncHost (addTask d (.homeWrite nsid zi second) z.act false)
  | _, _ => d

def execHomeworkRewrite (nsid zone : Nat) (s : State) : Outcome State Fault Refusal := lift s (homeworkRewrite nsid zone)

/-! ### The retry ladder (R227, R229) -/

/-- Every written sector of a Read Only zone on a head is beyond recovery: the zone goes Offline (R122). [DEDUCED: assumption log 74] -/
def offlineCheck (d : Dev) (ns : Ns) (zi head : Nat) : Dev :=
  match ns.zones[zi]? with
  | none => d
  | some z =>
    let zs := zoneSize d ns
    let onHead (x : Nat) : Bool :=
      (if (zonePlace z.isPair (fmtBandMib d (z.act / 2)) ns.parity x).1 = 0 then z.headA else z.headB) == head
    let mine := (List.range z.wp).filter onHead
    if z.state = .readOnly ∧ mine ≠ [] ∧ (mine.all fun x => (d.mediaBlk ns.nsid (zi * zs + x)).blk == .gone) then
      noticeAll (d.updZone ns.nsid zi fun z => { z with state := .offline }) ntZone
    else d

/-- Whether an offset of a zone, or of a band pair's log, lies in the second band (R116). -/
def inSecond (d : Dev) (ns : Ns) (zi off : Nat) : Bool :=
  match ns.zones[zi]? with
  | none => false
  | some z => (zonePlace z.isPair (fmtBandMib d (z.act / 2)) ns.parity off).1 == 1

/-- A sector that decoded only above step 0 marks its band for Homework; above detention_step it enters Detention (R130, R217).
[DEDUCED: assumption log 73] -/
def ladderDecoded (d : Dev) (ns : Ns) (e : DetEntry) (lba zi off step lim cls : Nat) (weak : Bool) : Dev :=
  let d := cardBin d (ckErr + 11 * cls + step) 1
  let d := if step = 0 && !weak then d else markBand d ns.nsid zi (inSecond d ns zi off)
  if lim < step then detain d { e with lba := some lba, reason := 1 } else d

/-- A data sector of a parity group counts as an erasure (R120): it is in Detention, it was written with a poisoned marker, or it is
beyond recovery. [DEDUCED: assumption log 73] -/
def erased (d : Dev) (nsid lba : Nat) : Bool :=
  (d.host.detention.any fun e => e.nsid == nsid && e.lba == some lba) ||
    match (d.mediaBlk nsid lba).blk with
    | .lost | .gone => true
    | _ => false

/-- The other erasures of a sector's parity group (R116, R120): of the zone, or of the log of the band pair it lies in.
[DEDUCED: assumption log 73] -/
def groupErasures (d : Dev) (ns : Ns) (lba zi off : Nat) : Nat :=
  let n := 64 - ns.parity
  let g := off / n
  if ns.zoned then
    ((List.range n).filter fun i => let l := zi * zoneSize d ns + g * n + i
      l != lba && erased d ns.nsid l).length
  else ((nsMedia d ns.nsid).filter fun m =>
    m.2.mapped && m.2.band == zi && m.2.off / n == g && m.1 / 1024 != lba && erased d ns.nsid (m.1 / 1024)).length

/-- The group has its parity sectors on media (R119). -/
def groupWritten (d : Dev) (ns : Ns) (zi off : Nat) : Bool := !(tabGet [] d.host.parity (groupKey ns.nsid zi (off / (64 - ns.parity)))).isEmpty

/-- A sector that no step decoded: band parity rebuilds it where its group has no more erasures than parity sectors, or it is beyond
recovery and reads report 0x87 (R120, R131, R229).  `unread` counts the group's sectors that could not be read to rebuild it.
[DEDUCED: assumption log 73] -/
def ladderFailed (d : Dev) (ns : Ns) (e : DetEntry) (lba zi off cls unread : Nat) (parityEn : Bool) : Dev :=
  if ns.parity ≠ 0 ∧ parityEn = true ∧ groupWritten d ns zi off = true ∧ 1 + max unread (groupErasures d ns lba zi off) ≤ ns.parity then
    detain (cardBin d (ckErr + 11 * cls + 9) 1) { e with lba := some lba, reason := 2 }
  else
    let d := cardBin d (ckErr + 11 * cls + 10) 1
    let d := d.setMedia ns.nsid lba { d.mediaBlk ns.nsid lba with blk := .gone }
    let d := detain d { e with lba := some lba, reason := 2 }
    if ns.zoned then offlineCheck d ns zi e.head else d

/-- The enabled step after `last` of a channel's ladder (R227). -/
def nextStep (d : Dev) (c last : Nat) : Option Nat :=
  (List.range 9).find? fun s => decide (last < s) && d.bit F.chnLadder_step_en s c

/-- The step a sector's ladder has come to; 0 where only the on-the-fly decode failed, which `none` ends. -/
def ladderAt (d : Dev) (nsid lba : Nat) : Nat := tabGet 0 d.host.ladder (nsid % 1024 + 1024 * lba)
def setLadder (d : Dev) (nsid lba step : Nat) : Dev :=
  d.updHost fun s => { s with ladder := tabPut 0 s.ladder (nsid % 1024 + 1024 * lba) step }

/-- RETRY_LADDER_STEP: the enabled steps in order (R227); steps 1-3 need the samples held, and their skip shows in the result.  An overrun
starts again from step 0 and is no failure (R229). [DEDUCED: assumption log 73] -/
def ladderStep (act head nsid lba step : Nat) (held : Bool) (erasures : Nat) (r : LadderRes) (d : Dev) : Dev :=
  let c := channelOf d act head
  match d.ns? nsid with
  | none => d
  | some ns =>
    let m := d.mediaBlk nsid lba
    if nextStep d c (ladderAt d nsid lba) ≠ some step ∨ !m.mapped ∨ m.act ≠ act then d
    else
      let zi := if ns.zoned then zoneIndex d ns lba else m.band
      let off := if ns.zoned then lba % max 1 (zoneSize d ns) else m.off
      let track := (mediaPlace d ns lba m).2
      let (time, d) := stampMs d
      let e : DetEntry := { nsid := nsid, lba := some lba, reason := 0, act := act, head := head, track := track, time := time }
      let cls := zoneClass d act track
      let last := (nextStep d c step).isNone
      let show' (d : Dev) (status iters errs : Nat) : Dev :=
        (((d.wr F.chnResult_step step c).wr F.chnResult_status status c).wr F.chnResult_iter iters c).wr F.chnResult_errs (satTo 16 errs) c
      let fails (d : Dev) : Dev :=
        let d := setLadder d nsid lba (if last then 0 else step)
        if last then ladderFailed d ns e lba zi off cls erasures (d.flag F.chnLadder_parity_en c) else d
      if step ≤ 3 && !held then fails (d.setFlag F.chnResult_skipped true c)
      else match r with
      | .overrun => show' (setLadder d nsid lba 0) 3 0 0
      | .decoded errs iters =>
        ladderDecoded (show' (setLadder d nsid lba 0) 0 iters errs) ns e lba zi off step (d.rd F.chnLadder_detention_step c) cls (weakMargin d c errs iters)
      | .failed => fails (show' d 1 0 0)

def execRetryLadderStep (act : ActId) (head : HeadId) (nsid lba step : Nat) (held : Bool) (erasures : Nat) (r : LadderRes) (s : State) :
    Outcome State Fault Refusal :=
  lift s (ladderStep act.val head.val nsid lba step held erasures r)

end Sys2Proof.Machine
end

