-- ==== Sys2Proof/Machine/NsAdmin.lean ====
section
/-! DEFINITION. Namespace Management and Namespace Attachment (R69, R110-R115, R126). -/
namespace Sys2Proof.Machine

open Host (Outcome)

/-- Internal Error, and Namespace Is Private. -/
def stInternal : Nat := 0x006
def stPrivate : Nat := 0x119

/-- The band parity a create asks for (R110). -/
def parityOf (d : Dev) (c : NsCreate) : Nat :=
  if c.parity ≠ 0xFF then c.parity
  else match pipeOf d c.cls with
    | some (st, _, p) => if st.testBit 3 then p else
        (((List.range 8).filter fun a => c.actMask.testBit a).map fun a => fmtParity d (a / 2)).foldl max 0
    | none => 0

/-- The actuators a mask names. -/
def maskActs (mask : Nat) : List Nat := (List.range 8).filter fun a => mask.testBit a

/-- A field of the create is not valid (R110, R111). -/
def createInvalid (d : Dev) (c : NsCreate) (zsize : Nat) : Bool :=
  (pipeOf d c.cls).isNone || !c.reservedZero || decide (4 < c.parity ∧ c.parity ≠ 0xFF) ||
  decide (c.actMask = 0 ∨ 256 ≤ c.actMask) || !(maskActs c.actMask).all d.actPresent ||
  (c.zoned && (maskActs c.actMask).any fun a => (maskActs c.actMask).any fun b =>
    fmtBandMib d (a / 2) != fmtBandMib d (b / 2) || fmtWedges d (a / 2) != fmtWedges d (b / 2)) ||
  (if c.zoned then zsize == 0 || c.nsze % zsize != 0 else c.nsze % 8 != 0)

/-- Zones taken until their capacity reaches `need` LBAs; none where they lack it. -/
def takeCapacity (d : Dev) (parity : Nat) : List Zone → Nat → Option (List Zone)
  | _, 0 => some []
  | [], _ + 1 => none
  | z :: zs, need + 1 =>
    (takeCapacity d parity zs (need + 1 - fmtBandMib d (z.act / 2) * 512 * (64 - parity) / 64)).map (z :: ·)

/-- The bands a new namespace takes (R112, R115, R126). -/
def bandsFor (d : Dev) (ns : Ns) : Option (List Zone) :=
  if ns.zoned then
    let n := ns.nsze / max 1 (zoneSize d ns)
    let zs := allocZones d ns.actMask n
    if zs.length = n then some zs else none
  else
    let maps := d.rd F.memPart_size_mib 0 2
    let others := ((d.host.nss.filter fun x => !x.zoned).map (·.nsze)).sum
    if maps * 2 ^ 20 < others + ns.nsze then none
    else takeCapacity d ns.parity (allocZones d ns.actMask (((maskActs ns.actMask).map fun a => (freeZones d a).length).sum))
      ((ns.nsze * 107 + 99) / 100)

/-- The first map index that leaves room for a conventional namespace's entries behind those of the others (R123).
[DESIGN CHOICE: assumption log 61] -/
def mapBaseFor (d : Dev) : Nat := ((d.host.nss.filter fun ns => !ns.zoned).map fun ns => ns.mapBase + ns.nsze / 8).foldl max 0

/-- The lowest free local namespace identifier. -/
def freeNsid (d : Dev) : Option Nat := ((List.range 1023).map (· + 1)).find? fun n => (d.ns? n).isNone

/-- NAMESPACE_MANAGEMENT_CREATE (R110-R112): Dword 0 holds the new identifier; the namespace is attached to no controller.
[DESIGN CHOICE: assumption log 61] -/
def nsCreate (h cid : Nat) (c : NsCreate) (d : Dev) : Dev :=
  let draft : Ns := { nsid := 0, zoned := c.zoned, nsze := c.nsze, cls := c.cls, parity := parityOf d c, actMask := c.actMask, kpio := c.kpio }
  if createInvalid d c (zoneSize d draft) then adminEnd d h cid stInvalidField 0
  else match freeNsid d with
    | none => adminEnd d h cid stNsIdUnavail 0
    | some n =>
      match bandsFor d draft with
      | none => adminEnd d h cid stCapacity 0
      | some zs =>
        let ns := { draft with nsid := n, zones := zs, mapBase := mapBaseFor d }
        let needs := (classXts d c.cls && !c.kpio) || classGcm d c.cls
        if needs && !keysPossible d then adminEnd d h cid stInternal 0
        else adminEnd (nsKeys (d.updHost fun s => { s with nss := s.nss ++ [ns] }) ns) h cid 0 n

def execNamespaceManagementCreate (h : HstId) (cid : Nat) (c : NsCreate) (s : State) : Outcome State Fault Refusal :=
  lift s (adminDo h.val cid false false (nsCreate h.val cid c))

/-- Heads in Detention for writing that no namespace holds a band on any more may be written again (R112): a head stays there for the life
of its namespaces (R117, R122). [DEDUCED: assumption log 193] -/
def settleHeads (d : Dev) : Dev :=
  d.updHost fun s => { s with headDet := s.headDet.filter fun e => s.nss.any fun ns => ns.zones.any fun z => z.onHead e }

/-- A namespace goes with its commands, buffered data, map, keys and list entries; its bands are free again (R112, assumption
log 15).  A write of it that has not completed ends as any failed write, its stream context as it was (R148).
[DEDUCED: assumption log 193] -/
def nsGone (d : Dev) (n : Nat) : Dev :=
  let d := forEach ((d.host.ctxs.filter fun x => x.c.nsid == n).map fun x => (x.id, x.org)).reverse d fun d x =>
    if x.2 == .internal then discardCtx d x.1
    else match d.ctx? x.1 with
      | none => d
      | some y => if writesData y.c.kind then failWrite d x.1 stInvalidNs else finish d x.1 stInvalidNs 0
  let d := d.updHost fun s => { s with
    extents := s.extents.filter (fun e => e.nsid != n),
    held := s.held.filter (fun x => x.key / (if x.kind == 2 then 2 ^ 21 else 2 ^ 20) != n),
    tasks := s.tasks.filter (fun t => match t.kind with
      | .homeWrite k _ _ | .homeVerify k _ _ | .clean k _ => k != n
      | .destage w | .locker w => !(s.extents.any fun e => e.nsid == n && e.wid == w)
      | _ => true),
    journal := s.journal.filter (fun j => j.nsid != n),
    lockerMap := s.lockerMap.filter (fun j => j.nsid != n),
    mapCk := tabErase s.mapCk n,
    parity := s.parity.filter (fun g => g.1 % 1024 != n % 1024),
    locker := s.locker.filter (fun b => b.nsid != n),
    media := s.media.filter (fun m => m.1 % 1024 != n % 1024),
    detention := s.detention.filter (fun e => e.nsid != n),
    detGen := if s.detention.any (fun e => e.nsid == n) then s.detGen + 1 else s.detGen,
    nss := s.nss.filter (fun ns => ns.nsid != n) }
  let d := settleHeads d
  let slots := [2 * n, 2 * n + 1, gcmSlot n] ++ ((d.cipher.tags.filter fun t => t.1 / 65536 == n).flatMap fun t => [2 * t.2 - 2, 2 * t.2 - 1])
  let d := forEach slots d emptySlot
  let d := d.updCipher fun c => { c with
    store := c.store.filter (fun s => s.2.nsid != n), nsPair := tabErase c.nsPair n, nsGcm := tabErase c.nsGcm n,
    tags := c.tags.filter (fun t => t.1 / 65536 != n), ranges := c.ranges.filter (fun r => r.nsid != n) }
  syncHost d

/-- NAMESPACE_MANAGEMENT_DELETE (R112). -/
def nsDelete (h cid nsid : Nat) (d : Dev) : Dev :=
  if nsid = 0xFFFFFFFF then adminEnd (forEach (d.host.nss.map (·.nsid)) d nsGone) h cid 0 0
  else match localNs d nsid with
    | none => adminEnd d h cid stInvalidNs 0
    | some _ => adminEnd (nsGone d nsid) h cid 0 0

def execNamespaceManagementDelete (h : HstId) (cid nsid : Nat) (s : State) : Outcome State Fault Refusal :=
  lift s (adminDo h.val cid false false (nsDelete h.val cid nsid))

/-- The controller list of an attachment suits the namespace mode (R69). [DEDUCED: assumption log 60] -/
def ctrlListOk (d : Dev) (ctrls : List Nat) : Bool :=
  let used := (usedPorts d).map (· + 1)
  !ctrls.isEmpty && (ctrls.all fun c => used.contains c) &&
    (if nsMode d = 0 then used.all fun c => ctrls.contains c else ctrls.eraseDups.length == 1)

/-- NAMESPACE_ATTACHMENT (R69). [DEDUCED: assumption log 60] -/
def nsAttach (h cid nsid : Nat) (attach : Bool) (ctrls : List Nat) (d : Dev) : Dev :=
  match localNs d nsid with
  | none => adminEnd d h cid stInvalidNs 0
  | some ns =>
    if !ctrlListOk d ctrls then adminEnd d h cid stCtrlList 0
    else if attach then
      if ctrls.any fun c => ns.ctrls.contains c then adminEnd d h cid stAttached 0
      else if nsMode d = 1 ∧ ns.ctrls ≠ [] then adminEnd d h cid stPrivate 0
      else adminEnd (d.updNs nsid fun ns => { ns with ctrls := ns.ctrls ++ ctrls.eraseDups }) h cid 0 0
    else if !ctrls.all fun c => ns.ctrls.contains c then adminEnd d h cid stNotAttached 0
    else adminEnd (d.updNs nsid fun ns => { ns with ctrls := ns.ctrls.filter fun c => !ctrls.contains c }) h cid 0 0

def execNamespaceAttachment (h : HstId) (cid nsid : Nat) (attach : Bool) (ctrls : List Nat) (s : State) : Outcome State Fault Refusal :=
  lift s (adminDo h.val cid false false (nsAttach h.val cid nsid attach ctrls))

end Sys2Proof.Machine
end

