-- ==== Sys2Proof/Machine/Power.lean ====
section
/-! DEFINITION. Power control: targets of HDAs and chip, steps, votes, domains and the power check (R352-R367). -/
namespace Sys2Proof.Machine

open Host (Outcome)

/-- POWER_TARGET_EVALUATE (R366): votes, HDA targets, then the chip state; `deep` names the host links in L1.2 or L2.
[DEDUCED: assumption log 143 and 147] -/
def targetEvaluate (deep : List Nat) (d : Dev) : Dev :=
  let d := syncVotes d
  let d := forEach (presentHdas d) d evaluateHda
  let d := d.wr F.pwrCs_cs2_block (cs2Block d)
  if d.rd F.pwrCs_state ≠ 2 && cs2Ok d deep then enterCs2 d
  else if d.rd F.pwrCs_state = 1 && !cs1Ok d then (d.wr F.pwrCs_state 0).wr F.pwrCs_target 0
  else d.wr F.pwrCs_target (if cs1Ok d then max 1 (d.rd F.pwrCs_state) else d.rd F.pwrCs_state)

def execPowerTargetEvaluate (deep : List HstId) (s : State) : Outcome State Fault Refusal :=
  lift s (targetEvaluate (deep.map (·.val)))

/-- HDA_IDLE_TIMEOUT (R353): the idle time of a state has run out while the HDA was idle. [DEDUCED: assumption log 143] -/
def execHdaIdleTimeout (n : HdaId) (level : Fin 5) (s : State) : Outcome State Fault Refusal :=
  lift s fun d =>
    if hdaIdle d n.val && d.hdaPresent n.val then
      evaluateHda (syncVotes (d.updPower fun p => { p with idle := tabPut 0 p.idle n.val (max (tabGet 0 p.idle n.val) level.val) })) n.val
    else d

/-- Stroke calibration of a head at spin-up (R256, R273): baseline once, and Detention below 70 % of it or below what the
pair's align_nm needs. -/
def strokeMeasured (d : Dev) (n l h stroke : Nat) (enough : Bool) : Dev :=
  let e := 12 * l + h
  let d := d.wr F.sscMa_stroke stroke n e
  let d := if d.rd F.sscMa_baseline n e = 0 then d.wr F.sscMa_baseline stroke n e else d
  if stroke * 10 < d.rd F.sscMa_baseline n e * 7 ∨ !enough then detainHead d (laneAct n l) h 5 else d

/-- Every present lane is on track (R352). -/
def hdaOnTrack (d : Dev) (n : Nat) : Bool :=
  [0, 1].all fun l => !d.actPresent (laneAct n l) || d.flag F.sscLaneStat_on_track n l

/-- What the end of a step brings (R352, R365, R366): none where the step has not really ended. [DEDUCED: assumption log 145] -/
def stepReach (d : Dev) (n : Nat) : Option (Nat × Dev) :=
  let chp := [domChp (2 * n), domChp (2 * n + 1)]
  let s := d.rd F.pwrHs_state 0 n
  match d.rd F.pwrHs_step 0 n with
  | 1 =>
    if d.rd F.pwrHs_target 0 n = 0 ∨ s = 1 ∧ d.rd F.pwrHs_target 0 n < 1 then
      if hdaOnTrack d n then some (0, forEach chp d fun d k => setDom d k 0) else none
    else some (1, forEach chp d fun d k => if hasVote d k || !fifosEmpty d k then d else retainDom d k)
  | 2 => some (2, forEach [0, 1] d fun d l => setLaneState d n l 0)
  | 3 => if hdaOnTrack d n then some (1, d) else none
  | 4 => some (if d.rd F.pwrHs_target 0 n = 2 then 2 else 3, d)
  | 5 => if spinState d n = 0 then some (4, if hasVote d (domSsc n) then d else retainDom d (domSsc n)) else none
  | 6 => if spinState d n = 3 then some (3, setDom d (domSsc n) 0) else none
  | _ => none

/-- HDA_STEP_END (R366): the step is at its end; a load that failed is repeated once (R352). [DEDUCED: assumption log 145] -/
def hdaStepEnd (n : Nat) (ok : Bool) (strokes : List (Fin 2 × HeadId × Nat × Bool)) (d : Dev) : Dev :=
  if !d.flag F.pwrHs_in_transition 0 n then d
  else if !ok then
    if d.rd F.pwrHs_step 0 n = 3 && !d.power.reload.contains n then
      beginStep (d.updPower fun p => { p with reload := p.reload ++ [n] }) n
    else d
  else
    match stepReach d n with
    | none => d
    | some (s, d) =>
      let code := d.rd F.pwrHs_step 0 n
      let acts := [2 * n, 2 * n + 1].filter d.actPresent
      let d := if code = 3 then forEach acts d fun d a => cardBin (cardCount d 7 1) (ckLoads + 3 * a) 1
        else if code = 2 then forEach acts d fun d a => cardBin d (ckLoads + 3 * a + 1) 1
        else d
      let d := d.updPower fun p => { p with reload := p.reload.filter fun m => m != n }
      let d := d.wr F.pwrHs_state s 0 n
      let d := forEach strokes d fun d x => strokeMeasured d n x.1.val x.2.1.val x.2.2.1 x.2.2.2
      let d := if d.rd F.pwrHs_target 0 n = s then (d.setFlag F.pwrHs_in_transition false 0 n).wr F.pwrHs_step 0 0 n else beginStep d n
      recomputeBound (if s = 0 ∧ d.rd F.pwrHs_target 0 n = 0 then reachedHs0 d n else d)

def execHdaStepEnd (n : HdaId) (ok : Bool) (strokes : List (Fin 2 × HeadId × Nat × Bool)) (s : State) :
    Outcome State Fault Refusal := lift s (hdaStepEnd n.val ok strokes)

/-- VOTE_WITHDRAW_TIMER (R356): idle1_us after the last media task of an actuator. [DEDUCED: assumption log 146] -/
def execVoteWithdrawTimer (a : ActId) (s : State) : Outcome State Fault Refusal :=
  lift s fun d => if actWork d a.val || permittedOf d (a.val / 2) == 0 then d else clearVote d 0 (domChp a.val)

/-- A domain may enter RETAIN outside CS2 (R357): PD_CHPa without a vote and its HDA out of HS0, PD_SSCn in HS4 with the rotor
stopped and without a vote; its FIFOs are empty (R29), and Fire Drill does not keep it in RUN (R33). -/
def mayRetain (d : Dev) (k : Nat) : Bool :=
  domState d k == 0 && !hasVote d k && fifosEmpty d k && !drillKeeps d k &&
    (if 11 ≤ k ∧ k < 19 then d.rd F.pwrHs_state 0 ((k - 11) / 2) != 0
     else if 19 ≤ k then d.rd F.pwrHs_state 0 (k - 19) == 4 && spinState d (k - 19) == 0
     else false)

/-- DOMAIN_RETAIN_ENTRY (R357, R29). -/
def execDomainRetainEntry (dom : DomId) (s : State) : Outcome State Fault Refusal :=
  lift s fun d => if mayRetain d dom.val then setDom d dom.val 1 else d

/-- FIRMWARE_VOTE (R356): PWR_VOTE_2 and PWR_HVOTE_2. -/
def firmwareVote (dom : Nat) (hda : List Nat) (d : Dev) : Dev :=
  let d := setVote d 2 dom
  forEach (hda.take 4).zipIdx d fun d v => setHvote d 2 v.2 v.1

def execFirmwareVote (dom : Nat) (hda : List Nat) (s : State) : Outcome State Fault Refusal := lift s (firmwareVote dom hda)

/-- CS1_ENTRY (R358): no host or transit context in use for cs1_idle µs. -/
def execCs1Entry (s : State) : Outcome State Fault Refusal :=
  lift s fun d => if d.rd F.pwrCs_state = 0 && cs1Ok d then (d.wr F.pwrCs_state 1).wr F.pwrCs_target 1 else d

/-- CS2_WAKE (R359): any of its seven causes. -/
def execCs2Wake (_cause : Fin 7) (s : State) : Outcome State Fault Refusal :=
  lift s fun d => if d.rd F.pwrCs_state = 2 then leaveCs2 d else d

/-- POWER_THROTTLE_CHECK (R363): every 100 ms, supply power averaged over 100 ms. [DEDUCED: assumption log 148] -/
def throttleCheck (mw : Nat) (d : Dev) : Dev :=
  let d := cardExtreme (d.wr F.pwrPs_power_mw (satTo 16 mw)) 5 mw
  let mp := maxPower d (d.rd F.pwrPs_ps)
  let table := min (limitsOf (min 2 d.power.lastPs)).1 (limitsOf (d.rd F.thmStat_step)).1
  let d :=
    if mp < mw then d.updPower fun p => { p with cut := min (table - 2) (p.cut + 2), belowFor := 0 }
    else if mw * 10 < mp * 9 then
      d.updPower fun p => if p.belowFor + 1 = 10 then { p with cut := p.cut - 2, belowFor := 0 } else { p with belowFor := p.belowFor + 1 }
    else d.updPower fun p => { p with belowFor := 0 }
  applyLimits d

def execPowerThrottleCheck (mw : Nat) (s : State) : Outcome State Fault Refusal := lift s (throttleCheck mw)

end Sys2Proof.Machine
end

