-- ==== Sys2Proof/Machine/Spdm.lean ====
section
/-! DEFINITION. Attestation and the management bus: the SPDM responder at its seven endpoints, and NVMe-MI messages
(R359, R402, R403). -/
namespace Sys2Proof.Machine

open Host (Outcome)

/-- Endpoints: 0 SMBus, 1 I3C, 2 PCIe VDM, 3-6 LML0-3. -/
def Dev.spdmEnd (d : Dev) (e : Nat) : SpdmEnd := tabGet {} d.sec.spdm e
def Dev.updSpdm (d : Dev) (e : Nat) (g : SpdmEnd → SpdmEnd) : Dev :=
  { d with sec := { d.sec with spdm := tabPut {} d.sec.spdm e (g (d.spdmEnd e)) } }

/-- The management clock has lost lock: SMBus, I3C and UART stop (R30). -/
def mgtStopped (d : Dev) : Bool := d.reset.lost.contains .mgt

/-- An endpoint hears messages: SMBus or I3C by MGT_CFG.i3c_en, PCIe VDM while a host link is up, a Lomey port in SECURE_WAIT or UP.
[DEDUCED: assumption log 140] -/
def endpointOn (d : Dev) (e : Nat) : Bool :=
  match e with
  | 0 => !mgtStopped d && !d.flag F.mgtCfg_i3c_en
  | 1 => !mgtStopped d && d.flag F.mgtCfg_i3c_en
  | 2 => (d.port 0).linkUp || (d.port 1).linkUp
  | _ => d.rd F.lmlStat_state (e - 3) == 2 || d.rd F.lmlStat_state (e - 3) == 3

/-- A response: over MCTP, or in an SPDM frame on the port. -/
def spdmSend (d : Dev) (e code : Nat) (body : List Nat) : Dev :=
  if e < 3 then d.emit (.spdm e code body)
  else sendLocal d (e - 3) (mkFrame d linkLocal ftSpdm 0 false 0 65535 [] (code :: body) 1)

/-- ERROR with its code. [PRESUMED: assumption log 17] -/
def spdmError (d : Dev) (e code : Nat) : Dev := spdmSend d e 0x7F [code]
def errInvalid : Nat := 1
def errUnexpected : Nat := 4
def errDecrypt : Nat := 6
def errSession : Nat := 0x0B

/-- A message heard: counted on the management bus, which it wakes the chip from (R359). -/
def spdmRow (e : Nat) (g : Dev → Dev) (d : Dev) : Dev :=
  if !endpointOn d e then d
  else if e < 2 then g (wakeCs2 (d.addSat F.mgtStat_mctp_rx 1)) else g d

/-- A request that needs algorithms negotiated. -/
def negotiated (e : Nat) (g : Dev → Dev) (d : Dev) : Dev :=
  if (d.spdmEnd e).stage < 3 then spdmError d e errUnexpected else g d

/-- A request within an established session. -/
def inSecure (e : Nat) (g : Dev → Dev) (d : Dev) : Dev :=
  if (d.spdmEnd e).session.isSome && (d.spdmEnd e).open_ then g d else spdmError d e errSession

/-- GET_VERSION: 1.2 only; negotiation starts again. [PRESUMED: assumption log 17] -/
def getVersion (e : Nat) (d : Dev) : Dev := spdmSend (d.updSpdm e fun _ => { stage := 1 }) e 0x04 [0x12]

/-- CERT, CHAL, MEAS with signature, ENCRYPT, MAC, MUT_AUTH, KEY_EX, HBEAT, KEY_UPD, at their bits of the SPDM specification
(assumption log 17). -/
def spdmCaps : Nat := 2 ^ 1 + 2 ^ 2 + 2 ^ 4 + 2 ^ 6 + 2 ^ 7 + 2 ^ 8 + 2 ^ 9 + 2 ^ 13 + 2 ^ 14

/-- GET_CAPABILITIES. -/
def getCapabilities (e : Nat) (d : Dev) : Dev :=
  if (d.spdmEnd e).stage ≠ 1 then spdmError d e errUnexpected
  else spdmSend (d.updSpdm e fun s => { s with stage := 2 }) e 0x61 [spdmCaps]

/-- NEGOTIATE_ALGORITHMS: whether the requester offers ECDSA P-384, SHA-384, secp384r1 and AES-256-GCM. [PRESUMED: assumption log 17] -/
def negotiate (e : Nat) (supported : Bool) (d : Dev) : Dev :=
  if (d.spdmEnd e).stage ≠ 2 then spdmError d e errUnexpected
  else if !supported then spdmError d e errInvalid
  else spdmSend (d.updSpdm e fun s => { s with stage := 3 }) e 0x63 []

/-- The slot 0 chain: Evestien root, intermediate and the device identity leaf, whose key comes from root_secret. -/
def slotChain (d : Dev) : Nat := Config.certChain (ladderSecret d) d.sec.otp.deviceId

/-- GET_DIGESTS: slot 0 only. -/
def getDigests (e : Nat) : Dev → Dev := negotiated e fun d =>
  spdmSend d e 0x01 [1, Config.sha384 (toBytes (slotChain d) 4096)]

/-- GET_CERTIFICATE: the other slots are empty. -/
def getCertificate (e slot : Nat) : Dev → Dev := negotiated e fun d =>
  if slot = 0 then spdmSend d e 0x02 [0, slotChain d] else spdmError d e errInvalid

/-- CHALLENGE: the responder's nonce and signature are free values. -/
def challenge (e slot nonce : Nat) : Dev → Dev := negotiated e fun d =>
  if slot ≠ 0 then spdmError d e errInvalid
  else
    let (r, d) := d.draw
    let (sig, d) := d.draw
    spdmSend d e 0x03 [0, nonce, r, sig]

/-- A measurement block (R402): SHA-384 digests, index 4 and 7 raw. [DEDUCED: assumption log 140] -/
def measurement (d : Dev) (m : List Host.Cell) (i : Nat) : Nat :=
  match i with
  | 1 => Config.romHash
  | 2 => if d.fw.run = 2 then Config.romFirmwareHash else Config.sha384 (tabGet [] d.fw.slots d.fw.run)
  | 3 => if d.rd F.glbStructStat_loaded = 3 then 0 else Config.sha384 ((tabGet ({} : ImageSlot) d.struct.slots (d.rd F.glbStructStat_loaded - 1)).bytes)
  | 4 => d.rd F.secLc_state + 2 ^ 8 * d.rd F.secLc_count + 2 ^ 16 * d.rd F.secDbg_level + 2 ^ 24 * d.rd F.secDbg_cycles
      + 2 ^ 32 * d.rd F.secSerial_serial 0 1
  | 5 => d.sec.custHash.getD (customerHash m)
  | 6 => Config.sha384 (toBytes (tabGet 0 d.sec.otp.keyHash 2) 48 ++ toBytes (tabGet 0 d.sec.otp.keyHash 3) 48 ++
      toBytes d.sec.otp.dumpHash 48 ++ toBytes d.sec.otp.nonceId 4)
  | _ => Config.provisioningKey (ladderSecret d)

/-- GET_MEASUREMENTS: index 0 asks for their number, 0xFF for all; the signature is a free value. -/
def getMeasurements (e index : Nat) (m : List Host.Cell) : Dev → Dev := negotiated e fun d =>
  if 7 < index ∧ index ≠ 0xFF then spdmError d e errInvalid
  else
    let is := if index = 0 then [] else if index = 0xFF then [1, 2, 3, 4, 5, 6, 7] else [index]
    let (sig, d) := d.draw
    spdmSend d e 0x60 ([if index = 0 then 7 else is.length] ++ is.flatMap (fun i => [i, measurement d m i]) ++ [sig])

/-- KEY_EXCHANGE: a session begins; on a Lomey link not in DECOMMISSIONED (R403).
[PRESUMED: assumption log 17, DEDUCED: assumption log 140] -/
def keyExchange (e session : Nat) : Dev → Dev := negotiated e fun d =>
  if (d.spdmEnd e).session.isSome then spdmError d e errUnexpected
  else if 3 ≤ e ∧ d.rd F.secLc_state = 5 then spdmError d e errUnexpected
  else
    let (x, d) := d.draw
    let (sig, d) := d.draw
    spdmSend (d.updSpdm e fun s => { s with session := some session, open_ := false }) e 0x64 [session, x, sig]

/-- FINISH: the handshake's MAC. [PRESUMED: assumption log 17] -/
def finishSession (e : Nat) (macOk : Bool) (d : Dev) : Dev :=
  if (d.spdmEnd e).session.isNone || (d.spdmEnd e).open_ then spdmError d e errUnexpected
  else if !macOk then spdmError (d.updSpdm e fun s => { s with session := none }) e errDecrypt
  else spdmSend (d.updSpdm e fun s => { s with open_ := true }) e 0x65 []

/-- HEARTBEAT. -/
def heartbeat (e : Nat) : Dev → Dev := inSecure e fun d => spdmSend d e 0x68 []

/-- KEY_UPDATE: 1 this direction's key, 2 both, 3 verify; a Lomey port's keys advance with it (R334). -/
def keyUpdate (e op : Nat) : Dev → Dev := inSecure e fun d =>
  if op = 0 ∨ 3 < op then spdmError d e errInvalid
  else
    let d := if 3 ≤ e ∧ op ≠ 3 then d.updLport (e - 3) fun l => { l with keyGen := l.keyGen + 1 } else d
    spdmSend d e 0x69 [op]

/-- END_SESSION. -/
def endSession (e : Nat) : Dev → Dev := inSecure e fun d =>
  spdmSend (d.updSpdm e fun s => { s with session := none, open_ := false }) e 0x6C []

def execGetVersion (e : Fin 7) (s : State) : Outcome State Fault Refusal := lift s (spdmRow e.val (getVersion e.val))
def execGetCapabilities (e : Fin 7) (s : State) : Outcome State Fault Refusal := lift s (spdmRow e.val (getCapabilities e.val))
def execNegotiateAlgorithms (e : Fin 7) (supported : Bool) (s : State) : Outcome State Fault Refusal :=
  lift s (spdmRow e.val (negotiate e.val supported))
def execGetDigests (e : Fin 7) (s : State) : Outcome State Fault Refusal := lift s (spdmRow e.val (getDigests e.val))
def execGetCertificate (e : Fin 7) (slot : Nat) (s : State) : Outcome State Fault Refusal :=
  lift s (spdmRow e.val (getCertificate e.val slot))
def execChallenge (e : Fin 7) (slot nonce : Nat) (s : State) : Outcome State Fault Refusal :=
  lift s (spdmRow e.val (challenge e.val slot nonce))
def execGetMeasurements (e : Fin 7) (index : Nat) (s : State) : Outcome State Fault Refusal :=
  lift s (spdmRow e.val (getMeasurements e.val index s.mem))
def execKeyExchange (e : Fin 7) (session : Nat) (s : State) : Outcome State Fault Refusal :=
  lift s (spdmRow e.val (keyExchange e.val session))
def execFinish (e : Fin 7) (macOk : Bool) (s : State) : Outcome State Fault Refusal := lift s (spdmRow e.val (finishSession e.val macOk))
def execHeartbeat (e : Fin 7) (s : State) : Outcome State Fault Refusal := lift s (spdmRow e.val (heartbeat e.val))
def execKeyUpdate (e : Fin 7) (op : Nat) (s : State) : Outcome State Fault Refusal := lift s (spdmRow e.val (keyUpdate e.val op))
def execEndSession (e : Fin 7) (s : State) : Outcome State Fault Refusal := lift s (spdmRow e.val (endSession e.val))

/-- The message a link-local SPDM frame carries: its code in the low byte, an argument above it; responses go to this end's requester,
which SECURE_SESSION_ESTABLISHED concludes. [PRESUMED: assumption log 17] -/
def spdmMessage (e msg : Nat) (m : List Host.Cell) : Dev → Dev :=
  let arg := msg / 256
  match msg % 256 with
  | 0x84 => getVersion e
  | 0xE1 => getCapabilities e
  | 0xE3 => negotiate e (arg % 2 == 1)
  | 0x81 => getDigests e
  | 0x82 => getCertificate e arg
  | 0x83 => challenge e 0 arg
  | 0xE0 => getMeasurements e arg m
  | 0xE4 => keyExchange e arg
  | 0xE5 => finishSession e (arg % 2 == 1)
  | 0xE8 => heartbeat e
  | 0xE9 => keyUpdate e arg
  | 0xEC => endSession e
  | _ => id

/-- SPDM (R314, R334): a link-local SPDM frame. -/
def execSpdm (p : LmlId) (msg : Nat) (s : State) : Outcome State Fault Refusal :=
  lift s (spdmRow (3 + p.val) (spdmMessage (3 + p.val) msg s.mem))

/-- NVME_MI_MESSAGE (R359): counted; a discarded one answers nothing; the response's content is NVMe-MI's own and free here.
[DEDUCED: assumption log 141] -/
def miMessage (i3c ok : Bool) (d : Dev) : Dev :=
  if mgtStopped d || d.flag F.mgtCfg_i3c_en != i3c then d
  else
    let d := d.addSat F.mgtStat_mctp_rx 1
    if !ok then d.addSat F.mgtStat_mctp_err 1
    else
      let (v, d) := (wakeCs2 d).draw
      d.emit (.mi v)

def execNvmeMiMessage (i3c ok : Bool) (s : State) : Outcome State Fault Refusal := lift s (miMessage i3c ok)

end Sys2Proof.Machine
end

