-- ==== Sys2Proof/Machine/Xbar.lean ====
section
/-! DEFINITION. The crossbar (R16-R24): requests, arbitration with deficits and Hall Pass, grants, transfers and credit. -/
namespace Sys2Proof.Machine

open Host (Outcome)

def Dev.updXb (d : Dev) (g : XbState → XbState) : Dev := { d with xb := g d.xb }

/-- An offer of an output: the packet and the deficits it would leave if accepted. -/
structure XbOffer where
  w : XbWaiting
  deficit : List (Nat × Int)
  deriving DecidableEq, Repr

/-- Free credit of an output in a class (R17): 16 beats less those taken. -/
def xbCredit (x : XbState) (out cls : Nat) : Nat := 16 - tabGet 0 x.credit (8 * out + cls)

/-- The head packet of each queue for an output: of those from one input in one class, the earliest (R17, R18). -/
def xbHeads (x : XbState) (out : Nat) : List XbWaiting :=
  (List.range 8).flatMap fun i => (List.range 8).filterMap fun c =>
    x.queued.find? fun w => w.p.out.val == out && w.p.inp.val == i && w.cls == c

/-- The packets that request an output in a cycle (R17). -/
def xbRequests (x : XbState) (cycle out : Nat) : List XbWaiting :=
  (xbHeads x out).filter fun w =>
    decide (tabGet 0 x.inFree w.p.inp.val ≤ cycle) && decide (w.p.beats ≤ xbCredit x out w.cls)

/-- Class 7 is served ahead at an output (R21). [DEDUCED: assumption log 28] -/
def c7Eligible (d : Dev) (cycle out : Nat) : Bool :=
  let g := d.xb.window.filter fun g => g.out == out && decide (cycle ≤ g.cycle + 1024)
  let all := (g.map (·.beats)).sum
  let c7 := ((g.filter fun g => g.cls == 7).map (·.beats)).sum
  d.flag F.xbrArbCtl_hold_up || decide (c7 * 256 ≤ d.rd F.xbrArbCtl_c7_share * all)

/-- Class 7 waits at its share limit: a candidate of another class exists. -/
def c7Held (d : Dev) (cycle out : Nat) : Bool :=
  let cs := xbRequests d.xb cycle out
  cs.any (fun w => w.cls == 7) && cs.any (fun w => w.cls != 7) && !c7Eligible d cycle out

/-- Candidates in the pool of an output and the deficits after a refill (R22). -/
def xbPool (d : Dev) (cycle out : Nat) : List XbWaiting × List (Nat × Int) :=
  let cs := xbRequests d.xb cycle out
  let low := cs.filter fun w => w.cls != 7
  let c7 := cs.filter fun w => w.cls == 7
  let weight (c : Nat) : Nat := d.rd F.xbrClsWeight_w 0 (7 * out + c)
  let key (c : Nat) : Nat := 8 * out + c
  let has (c : Nat) : Bool := low.any fun w => w.cls == c
  if !c7.isEmpty && (low.isEmpty || c7Eligible d cycle out) then (c7, d.xb.deficit)
  else
    let w := (List.range 7).filter fun c => has c && weight c != 0
    let def0 := d.xb.deficit
    let refill := !w.isEmpty && w.all fun c => decide (tabGet 0 def0 (key c) ≤ 0)
    let defs := if refill then (List.range 7).foldl (fun t c => tabPut 0 t (key c) (if has c then (weight c : Int) else 0)) def0 else def0
    let most := w.foldl (fun m c => max m (tabGet 0 defs (key c))) 0
    let best := w.filter fun c => decide (0 < most) && tabGet 0 defs (key c) == most
    let pool := low.filter fun x => best.contains x.cls
    (if pool.isEmpty then low.filter fun x => weight x.cls == 0 else pool, defs)

/-- Of two packets the one that arrived earlier, then of the lower class. -/
def earlierOf (a b : XbWaiting) : XbWaiting :=
  if b.arrived < a.arrived ∨ (b.arrived = a.arrived ∧ b.cls < a.cls) then b else a

/-- The grant an output offers (R22): the first input of the pool in Hall Pass order, its earliest packet. [DEDUCED: assumption log 27] -/
def xbOffer (d : Dev) (cycle out : Nat) : Option XbOffer :=
  if cycle < tabGet 0 d.xb.outFree out then none
  else
    let p := xbPool d cycle out
    let pass := d.rd F.xbrHallPass_ptr 0 out
    match (List.range 8).map (fun i => (pass + i) % 8) |>.find? fun i => p.1.any fun w => w.p.inp.val == i with
    | none => none
    | some i =>
      match p.1.filter fun w => w.p.inp.val == i with
      | [] => none
      | w :: ws => some { w := ws.foldl earlierOf w, deficit := p.2 }

/-- The offer an input accepts (R23): the earliest packet, then the lower output; the offers come in output order. -/
def xbAccepts (offers : List XbOffer) (o : XbOffer) : Bool :=
  offers.all fun q => q.w.p.inp != o.w.p.inp ||
    decide (o.w.arrived < q.w.arrived ∨ (o.w.arrived = q.w.arrived ∧ o.w.p.out.val ≤ q.w.p.out.val))

/-- An accepted grant (R17, R19, R24). [DEDUCED: assumption log 27] -/
def xbGrant (cycle : Nat) (d : Dev) (o : XbOffer) : Dev :=
  let p := o.w.p
  let out := p.out.val
  let key := 8 * out + o.w.cls
  let busy := cycle + 3 + p.beats
  let own (t : List (Nat × Int)) : List (Nat × Int) := t.filter fun e => e.1 / 8 == out
  let d := d.updXb fun x => { x with
    queued := listDrop (fun w => w == o.w) x.queued,
    flights := x.flights ++ [{ granted := cycle, cls := o.w.cls, p := p }],
    deficit :=
      let t := (own o.deficit).foldl (fun t e => tabPut 0 t e.1 e.2) (x.deficit.filter fun e => e.1 / 8 != out)
      if o.w.cls = 7 then t else tabPut 0 t key (tabGet 0 t key - p.beats),
    credit := tabPut 0 x.credit key (tabGet 0 x.credit key + p.beats),
    outFree := tabPut 0 x.outFree out busy,
    inFree := tabPut 0 x.inFree p.inp.val busy,
    window := { cycle := cycle, out := out, cls := o.w.cls, beats := p.beats } ::
      x.window.filter fun g => decide (cycle ≤ g.cycle + 1024) }
  d.wr F.xbrHallPass_ptr ((p.inp.val + 1) % 8) 0 out

/-- A packet the crossbar carries: 1 to 16 beats, never to its own port (R16). [DEDUCED: assumption log 29] -/
def xbLegal (p : Packet) : Bool := p.inp != p.out && decide (1 ≤ p.beats ∧ p.beats ≤ 16)

/-- The class of a traffic kind (R51, R20): the kind byte of the loaded XBAR section; map-cache fills and Fire Drill traffic are
class 7. -/
def xbClass (d : Dev) (k : Traffic) : Nat :=
  let byte (k : Nat) : Nat := d.secField 7 0 (0x48 + k) 1
  match k with
  | .hostAdmin => byte 0
  | .hostHigh => byte 1
  | .hostOther => byte 2
  | .chainTransit => byte 3
  | .chainLocal => byte 4
  | .destage => byte 5
  | .mediaRead => byte 6
  | .engine => byte 7
  | .firmware => byte 8
  | .homework => byte 9
  | .mapFill | .fireDrill => 7

/-- Media streams of the MED port (R11). [DEDUCED: assumption log 182] -/
def mediaKind : Traffic → Bool
  | .destage | .mediaRead | .homework | .fireDrill => true
  | _ => false

/-- MED holds an engine packet back while a media packet of its direction waits (R11). [DEDUCED: assumption log 182] -/
def medHolds (queued : List Packet) (p : Packet) : Bool :=
  p.kind == .engine && (p.inp == 7 && queued.any (fun q => q.inp == 7 && mediaKind q.kind)
    || p.out == 7 && queued.any (fun q => q.out == 7 && mediaKind q.kind))

/-- XBAR_ARBITRATE (R22): the packets that reach the inputs in a CORE cycle, and every free output's arbitration in it.
[DEDUCED: assumption log 27 and 29 and 182] -/
def xbarArbitrate (cycle : Nat) (arrivals : List Packet) (d : Dev) : Dev :=
  if cycle < d.xb.cycle then d
  else
    let offered := d.xb.medHeld ++ arrivals.filter xbLegal
    let waiting := d.xb.queued.map (·.p) ++ offered
    let enter := (offered.filter fun p => !medHolds waiting p).map fun p => { arrived := cycle, cls := xbClass d p.kind, p := p }
    let d := d.updXb fun x => { x with
      cycle := cycle, queued := x.queued ++ enter, medHeld := offered.filter (medHolds waiting) }
    let free := (List.range 8).filter fun o => decide (tabGet 0 d.xb.outFree o ≤ cycle)
    let held := free.filter (c7Held d cycle)
    let offers := free.filterMap (xbOffer d cycle)
    let d := forEach held d fun d o => d.setBit F.xbrErrStat_c7_limited o true
    forEach (offers.filter (xbAccepts offers)) d (xbGrant cycle)

def execXbarArbitrate (cycle : Nat) (arrivals : List Packet) (s : State) : Outcome State Fault Refusal :=
  lift s (xbarArbitrate cycle arrivals)

/-- A command that consumes poison ends with 0x82 (R342): a write's data is discarded; a compression context is emptied. -/
def poisonEnds (d : Dev) (id : Nat) : Dev :=
  match d.ctx? id with
  | none => d
  | some x =>
    if writesData x.c.kind then
      if dataIn x && whollyCovered d id then d else failWrite d id stPoison
    else finish d id stPoison 0

/-- PACKET_TRANSFER_COMPLETE (R19, R16): the last beat reaches the output; `errs` are the errors that the memory read behind the
packet met, with the beat each lies in.  A beat with a parity error, and one whose read gives poison, has its poison bit set. -/
def transferComplete (out cycle : Nat) (errs : List (Nat × MemErr)) (d : Dev) : Dev :=
  match d.xb.flights.find? fun f => f.p.out.val == out with
  | none => d
  | some f =>
    if cycle < f.granted + 2 + f.p.beats then d
    else
      let d := forEach errs (d.updXb fun x => { x with flights := listDrop (fun g => g == f) x.flights }) fun d e => memError d e.2
      let beat (b : Nat) : Bool := f.p.badBeats.contains b || f.p.poison.contains b || errs.any fun e => e.1 == b && errPoisons e.2
      let d := if f.p.badBeats.any fun b => decide (b < f.p.beats) then d.setBit F.xbrErrStat_par_err out true else d
      let poison := (List.range f.p.beats).filter beat
      let d := (d.addWrap F.xbrBeats_beats f.p.beats 0 out).emit (.packet out f.cls f.p.beats poison)
      match f.p.cmd with
      | some id => if poison.isEmpty then d else poisonEnds d id
      | none => d

def execPacketTransferComplete (out : Fin 8) (cycle : Nat) (errs : List (Nat × MemErr)) (s : State) : Outcome State Fault Refusal :=
  lift s (transferComplete out.val cycle errs)

/-- CREDIT_RETURN (R17). -/
def execCreditReturn (out : Fin 8) (cls : Fin 8) (beats : Nat) (s : State) : Outcome State Fault Refusal :=
  lift s fun d => d.updXb fun x => { x with
    credit := tabPut 0 x.credit (8 * out.val + cls.val) (tabGet 0 x.credit (8 * out.val + cls.val) - beats) }

end Sys2Proof.Machine
end

