-- ==== Sys2Proof/Machine/Dispatch.lean ====
section
/-! DEFINITION. What each command does: one arm for each constructor of `Instr`, each a direct call of its meaning. -/
namespace Sys2Proof.Machine

open Host (Outcome)

def exec (i : Instr) (s : State) : Host.Outcome State Fault Refusal :=
  match i with
  | .registerWrite rq addr acc => Sys2Proof.Machine.execRegisterWrite rq addr acc s
  | .busTimeout rq addr isWrite => Sys2Proof.Machine.execBusTimeout rq addr isWrite s
  | .implicitAccessWake dom => Sys2Proof.Machine.execImplicitAccessWake dom s
  | .implicitVoteWithdraw dom => Sys2Proof.Machine.execImplicitVoteWithdraw dom s
  | .dbgAccess op => Sys2Proof.Machine.execDbgAccess op s
  | .xbarArbitrate cycle arrivals => Sys2Proof.Machine.execXbarArbitrate cycle arrivals s
  | .packetTransferComplete out cycle errs => Sys2Proof.Machine.execPacketTransferComplete out cycle errs s
  | .creditReturn out cls beats => Sys2Proof.Machine.execCreditReturn out cls beats s
  | .clockLockLost c => Sys2Proof.Machine.execClockLockLost c s
  | .clockDomainSwitch chn toMedia => Sys2Proof.Machine.execClockDomainSwitch chn toMedia s
  | .regionEvent pair volt => Sys2Proof.Machine.execRegionEvent pair volt s
  | .regionBitClear pair volt => Sys2Proof.Machine.execRegionBitClear pair volt s
  | .coldStart env => Sys2Proof.Machine.execColdStart env s
  | .sramWipeDone => Sys2Proof.Machine.execSramWipeDone s
  | .dramWipeDone ms => Sys2Proof.Machine.execDramWipeDone ms s
  | .bootDone ms => Sys2Proof.Machine.execBootDone ms s
  | .perstDeassert h width gen => Sys2Proof.Machine.execPerstDeassert h width gen s
  | .structuralActivateDownload h cid offsetDw piece => Sys2Proof.Machine.execStructuralActivateDownload h cid offsetDw piece s
  | .structuralActivateVerify h cid => Sys2Proof.Machine.execStructuralActivateVerify h cid s
  | .structuralActivateAbort h cid => Sys2Proof.Machine.execStructuralActivateAbort h cid s
  | .activateVerifyDone => Sys2Proof.Machine.execActivateVerifyDone s
  | .activateSlotWritten => Sys2Proof.Machine.execActivateSlotWritten s
  | .activateInflightDrained => Sys2Proof.Machine.execActivateInflightDrained s
  | .activateCommit => Sys2Proof.Machine.execActivateCommit s
  | .activateRestructure => Sys2Proof.Machine.execActivateRestructure s
  | .commandFetch h => Sys2Proof.Machine.execCommandFetch h s
  | .fetchResume h => Sys2Proof.Machine.execFetchResume h s
  | .lockInsert fe => Sys2Proof.Machine.execLockInsert fe s
  | .lockEntriesFreed fe => Sys2Proof.Machine.execLockEntriesFreed fe s
  | .lockGrant id => Sys2Proof.Machine.execLockGrant id s
  | .writeDataBuffered id split poison => Sys2Proof.Machine.execWriteDataBuffered id split poison s
  | .writeCoverage n => Sys2Proof.Machine.execWriteCoverage n s
  | .tolerableLatencyExpiry id => Sys2Proof.Machine.execTolerableLatencyExpiry id s
  | .mediaTaskEnd tid o => Sys2Proof.Machine.execMediaTaskEnd tid o s
  | .read h qid cid r fua keyTag => Sys2Proof.Machine.execRead h qid cid r fua keyTag s
  | .write h qid cid r toks fua keyTag => Sys2Proof.Machine.execWrite h qid cid r toks fua keyTag s
  | .writeZeroes h qid cid r fua => Sys2Proof.Machine.execWriteZeroes h qid cid r fua s
  | .writeUncorrectable h qid cid r => Sys2Proof.Machine.execWriteUncorrectable h qid cid r s
  | .compare h qid cid r toks => Sys2Proof.Machine.execCompare h qid cid r toks s
  | .verify h qid cid r => Sys2Proof.Machine.execVerify h qid cid r s
  | .datasetManagement h qid cid nsid ad ranges => Sys2Proof.Machine.execDatasetManagement h qid cid nsid ad ranges s
  | .copy h qid cid nsid dst ranges => Sys2Proof.Machine.execCopy h qid cid nsid dst ranges s
  | .zoneAppend h qid cid nsid zslba toks fua => Sys2Proof.Machine.execZoneAppend h qid cid nsid zslba toks fua s
  | .zoneOpen h qid cid nsid zslba all => Sys2Proof.Machine.execZoneOpen h qid cid nsid zslba all s
  | .zoneClose h qid cid nsid zslba all => Sys2Proof.Machine.execZoneClose h qid cid nsid zslba all s
  | .zoneFinish h qid cid nsid zslba all => Sys2Proof.Machine.execZoneFinish h qid cid nsid zslba all s
  | .zoneReset h qid cid nsid zslba all => Sys2Proof.Machine.execZoneReset h qid cid nsid zslba all s
  | .zoneOffline h qid cid nsid zslba all => Sys2Proof.Machine.execZoneOffline h qid cid nsid zslba all s
  | .zoneManagementReceive h qid cid nsid zslba => Sys2Proof.Machine.execZoneManagementReceive h qid cid nsid zslba s
  | .flush h qid cid nsid => Sys2Proof.Machine.execFlush h qid cid nsid s
  | .flushLockerFallback id eid => Sys2Proof.Machine.execFlushLockerFallback id eid s
  | .flushComplete id => Sys2Proof.Machine.execFlushComplete id s
  | .abort h cid qid target => Sys2Proof.Machine.execAbort h cid qid target s
  | .namespaceManagementCreate h cid c => Sys2Proof.Machine.execNamespaceManagementCreate h cid c s
  | .namespaceManagementDelete h cid nsid => Sys2Proof.Machine.execNamespaceManagementDelete h cid nsid s
  | .namespaceAttachment h cid nsid attach ctrls => Sys2Proof.Machine.execNamespaceAttachment h cid nsid attach ctrls s
  | .identify h cid cns nsid => Sys2Proof.Machine.execIdentify h cid cns nsid s
  | .setFeaturesNumberOfQueues h cid nsqr ncqr => Sys2Proof.Machine.execSetFeaturesNumberOfQueues h cid nsqr ncqr s
  | .createIoQueue h cid submission qid entries contiguous prio => Sys2Proof.Machine.execCreateIoQueue h cid submission qid entries contiguous prio s
  | .setFeaturesVolatileWriteCache h cid enable => Sys2Proof.Machine.execSetFeaturesVolatileWriteCache h cid enable s
  | .setFeaturesPowerState h cid ps workload => Sys2Proof.Machine.execSetFeaturesPowerState h cid ps workload s
  | .setFeaturesTemperatureThreshold h cid sensor under kelvin => Sys2Proof.Machine.execSetFeaturesTemperatureThreshold h cid sensor under kelvin s
  | .setFeaturesTolerableLatency h cid nsid us => Sys2Proof.Machine.execSetFeaturesTolerableLatency h cid nsid us s
  | .getFeaturesTolerableLatency h cid nsid => Sys2Proof.Machine.execGetFeaturesTolerableLatency h cid nsid s
  | .setFeaturesSpindleCurve h cid mask curve => Sys2Proof.Machine.execSetFeaturesSpindleCurve h cid mask curve s
  | .getFeaturesSpindleCurve h cid => Sys2Proof.Machine.execGetFeaturesSpindleCurve h cid s
  | .getFeaturesDirtyBound h cid => Sys2Proof.Machine.execGetFeaturesDirtyBound h cid s
  | .setFeaturesDirtyBound h cid => Sys2Proof.Machine.execSetFeaturesDirtyBound h cid s
  | .getLogReportCard h cid lsp lsi offset => Sys2Proof.Machine.execGetLogReportCard h cid lsp lsi offset s
  | .getLogChainTopology h cid => Sys2Proof.Machine.execGetLogChainTopology h cid s
  | .getLogDetention h cid nsid => Sys2Proof.Machine.execGetLogDetention h cid nsid s
  | .getLogHeadHealth h cid => Sys2Proof.Machine.execGetLogHeadHealth h cid s
  | .getLogTelemetry h cid => Sys2Proof.Machine.execGetLogTelemetry h cid s
  | .getLogSmartHealth h cid => Sys2Proof.Machine.execGetLogSmartHealth h cid s
  | .asynchronousEventRequest h cid => Sys2Proof.Machine.execAsynchronousEventRequest h cid s
  | .controllerReset h byPerst => Sys2Proof.Machine.execControllerReset h byPerst s
  | .nvmSubsystemReset => Sys2Proof.Machine.execNvmSubsystemReset s
  | .controllerEnable h => Sys2Proof.Machine.execControllerEnable h s
  | .controllerReady h => Sys2Proof.Machine.execControllerReady h s
  | .shutdownNotification h abrupt => Sys2Proof.Machine.execShutdownNotification h abrupt s
  | .shutdownComplete h => Sys2Proof.Machine.execShutdownComplete h s
  | .orderlyReset => Sys2Proof.Machine.execOrderlyReset s
  | .orderlyResetFlushEnd uncovered => Sys2Proof.Machine.execOrderlyResetFlushEnd uncovered s
  | .firmwareImageDownload h cid offsetDw piece => Sys2Proof.Machine.execFirmwareImageDownload h cid offsetDw piece s
  | .firmwareCommit h cid slot action => Sys2Proof.Machine.execFirmwareCommit h cid slot action s
  | .firmwareImageSwitch => Sys2Proof.Machine.execFirmwareImageSwitch s
  | .firmwareActivationTimeout => Sys2Proof.Machine.execFirmwareActivationTimeout s
  | .compressedZoneAppend h qid cid nsid zslba nlb ctx cont level gcm keyTag chunk => Sys2Proof.Machine.execCompressedZoneAppend h qid cid nsid zslba nlb ctx cont level gcm keyTag chunk s
  | .compressedRead h qid cid nsid slba stored bufLbas keyTag => Sys2Proof.Machine.execCompressedRead h qid cid nsid slba stored bufLbas keyTag s
  | .streamContextSave h qid cid nsid ctx => Sys2Proof.Machine.execStreamContextSave h qid cid nsid ctx s
  | .streamContextRestore h qid cid nsid ctx image => Sys2Proof.Machine.execStreamContextRestore h qid cid nsid ctx image s
  | .contextGrant ctx => Sys2Proof.Machine.execContextGrant ctx s
  | .chunkDispatch e => Sys2Proof.Machine.execChunkDispatch e s
  | .chunkCompressed e stream poison => Sys2Proof.Machine.execChunkCompressed e stream poison s
  | .framePlacement id => Sys2Proof.Machine.execFramePlacement id s
  | .decompressionDone e errs histErrs => Sys2Proof.Machine.execDecompressionDone e errs histErrs s
  | .gcmJobDone core errs poison => Sys2Proof.Machine.execGcmJobDone core errs poison s
  | .keyCacheFill slot crcOk kwOk => Sys2Proof.Machine.execKeyCacheFill slot crcOk kwOk s
  | .nonceReserveAppend => Sys2Proof.Machine.execNonceReserveAppend s
  | .nonceRecordWritten => Sys2Proof.Machine.execNonceRecordWritten s
  | .keyInject nsid tag wrappedOk key => Sys2Proof.Machine.execKeyInject nsid tag wrappedOk key s
  | .slotRetireComplete slot => Sys2Proof.Machine.execSlotRetireComplete slot s
  | .lockingRangeUnlock range credentialOk => Sys2Proof.Machine.execLockingRangeUnlock range credentialOk s
  | .lockingRangeLock range => Sys2Proof.Machine.execLockingRangeLock range s
  | .rangeKekZero range => Sys2Proof.Machine.execRangeKekZero range s
  | .cipherContextSave rq core => Sys2Proof.Machine.execCipherContextSave rq core s
  | .cipherContextRestore rq core => Sys2Proof.Machine.execCipherContextRestore rq core s
  | .countermeasureConfig rq dummyMax shuffle => Sys2Proof.Machine.execCountermeasureConfig rq dummyMax shuffle s
  | .keyInvalidate rq slot => Sys2Proof.Machine.execKeyInvalidate rq slot s
  | .keyDropDone => Sys2Proof.Machine.execKeyDropDone s
  | .drbgReseed => Sys2Proof.Machine.execDrbgReseed s
  | .entropyHealthFail => Sys2Proof.Machine.execEntropyHealthFail s
  | .sanitize h cid action owpass oipbp pattern => Sys2Proof.Machine.execSanitize h cid action owpass oipbp pattern s
  | .sanitizeStepDone => Sys2Proof.Machine.execSanitizeStepDone s
  | .tcgProperties h cid => Sys2Proof.Machine.execTcgProperties h cid s
  | .tcgStartSession h cid a => Sys2Proof.Machine.execTcgStartSession h cid a s
  | .tcgEndSession h cid => Sys2Proof.Machine.execTcgEndSession h cid s
  | .tcgAuthenticate h cid a => Sys2Proof.Machine.execTcgAuthenticate h cid a s
  | .tcgGet h cid a => Sys2Proof.Machine.execTcgGet h cid a s
  | .tcgSet h cid a => Sys2Proof.Machine.execTcgSet h cid a s
  | .tcgGenkey h cid a => Sys2Proof.Machine.execTcgGenkey h cid a s
  | .tcgErase h cid a => Sys2Proof.Machine.execTcgErase h cid a s
  | .tcgRandom h cid count => Sys2Proof.Machine.execTcgRandom h cid count s
  | .cleaningStart nsid act band => Sys2Proof.Machine.execCleaningStart nsid act band s
  | .mapCheckpoint nsid => Sys2Proof.Machine.execMapCheckpoint nsid s
  | .mapLoad nsid => Sys2Proof.Machine.execMapLoad nsid s
  | .homeworkRead act head band worst => Sys2Proof.Machine.execHomeworkRead act head band worst s
  | .homeworkRewrite nsid zone => Sys2Proof.Machine.execHomeworkRewrite nsid zone s
  | .mapLookup page write pe id => Sys2Proof.Machine.execMapLookup page write pe id s
  | .mapFillDone page => Sys2Proof.Machine.execMapFillDone page s
  | .mapPrefetch page => Sys2Proof.Machine.execMapPrefetch page s
  | .mapClean rq page => Sys2Proof.Machine.execMapClean rq page s
  | .mapInvalidate rq page => Sys2Proof.Machine.execMapInvalidate rq page s
  | .mapCleanInvalidate rq page => Sys2Proof.Machine.execMapCleanInvalidate rq page s
  | .mapMaintDone => Sys2Proof.Machine.execMapMaintDone s
  | .mapEnable rq => Sys2Proof.Machine.execMapEnable rq s
  | .mapDisable rq => Sys2Proof.Machine.execMapDisable rq s
  | .mapDisableComplete => Sys2Proof.Machine.execMapDisableComplete s
  | .mapGroupPowerDown rq g => Sys2Proof.Machine.execMapGroupPowerDown rq g s
  | .mapGroupScratch rq mask => Sys2Proof.Machine.execMapGroupScratch rq mask s
  | .mapGroupRestore rq g scratch => Sys2Proof.Machine.execMapGroupRestore rq g scratch s
  | .mapGroupTransitionDone g => Sys2Proof.Machine.execMapGroupTransitionDone g s
  | .scratchAccess rq g offset acc => Sys2Proof.Machine.execScratchAccess rq g offset acc s
  | .sequencerTaskStart a => Sys2Proof.Machine.execSequencerTaskStart a s
  | .microwordExecute a env => Sys2Proof.Machine.execMicrowordExecute a env s
  | .waitConditionMet a env => Sys2Proof.Machine.execWaitConditionMet a env s
  | .waitTimeout a env => Sys2Proof.Machine.execWaitTimeout a env s
  | .gateQueueSpace a env => Sys2Proof.Machine.execGateQueueSpace a env s
  | .scratchAccessDone a poison => Sys2Proof.Machine.execScratchAccessDone a poison s
  | .gateEdge chn time => Sys2Proof.Machine.execGateEdge chn time s
  | .sequencerAbort a => Sys2Proof.Machine.execSequencerAbort a s
  | .sqrCustEn rq a on => Sys2Proof.Machine.execSqrCustEn rq a on s
  | .controlStoreWrite rq a offset acc => Sys2Proof.Machine.execControlStoreWrite rq a offset acc s
  | .controlStoreRepair a poison => Sys2Proof.Machine.execControlStoreRepair a poison s
  | .primarySyncFound chn pos dist seen => Sys2Proof.Machine.execPrimarySyncFound chn pos dist seen s
  | .resyncSearchEnd chn hit seen => Sys2Proof.Machine.execResyncSearchEnd chn hit seen s
  | .sectorLastParity tail => Sys2Proof.Machine.execSectorLastParity tail s
  | .decodeDone chn seq res => Sys2Proof.Machine.execDecodeDone chn seq res s
  | .reframedDecodeDone chn seq res => Sys2Proof.Machine.execReframedDecodeDone chn seq res s
  | .redecodeAltSet chn seq => Sys2Proof.Machine.execRedecodeAltSet chn seq s
  | .redecodeHalvedThresholds chn seq => Sys2Proof.Machine.execRedecodeHalvedThresholds chn seq s
  | .redecodeReader0 chn seq => Sys2Proof.Machine.execRedecodeReader0 chn seq s
  | .redecodeReader1 chn seq => Sys2Proof.Machine.execRedecodeReader1 chn seq s
  | .releaseSamples chn seq => Sys2Proof.Machine.execReleaseSamples chn seq s
  | .redecodeDone chn res => Sys2Proof.Machine.execRedecodeDone chn res s
  | .retryLadderStep act head nsid lba step held erasures r => Sys2Proof.Machine.execRetryLadderStep act head nsid lba step held erasures r s
  | .writeFifoSector chn tok poison => Sys2Proof.Machine.execWriteFifoSector chn tok poison s
  | .writeSlotStart chn sector => Sys2Proof.Machine.execWriteSlotStart chn sector s
  | .writePllArm rq chn arm => Sys2Proof.Machine.execWritePllArm rq chn arm s
  | .servoTimingReference chn wedge phase64 period => Sys2Proof.Machine.execServoTimingReference chn wedge phase64 period s
  | .assistLevelStep chn => Sys2Proof.Machine.execAssistLevelStep chn s
  | .assistMonitorPoll chn reading => Sys2Proof.Machine.execAssistMonitorPoll chn reading s
  | .flySettled chn => Sys2Proof.Machine.execFlySettled chn s
  | .shockInput n => Sys2Proof.Machine.execShockInput n s
  | .preampFault a => Sys2Proof.Machine.execPreampFault a s
  | .servoSample n lane sa sb uVcm => Sys2Proof.Machine.execServoSample n lane sa sb uVcm s
  | .laneLost n lane => Sys2Proof.Machine.execLaneLost n lane s
  | .laneReacquired n lane => Sys2Proof.Machine.execLaneReacquired n lane s
  | .laneLostRetract n lane => Sys2Proof.Machine.execLaneLostRetract n lane s
  | .servoOutputInstant n lane doneA doneB diff cycles => Sys2Proof.Machine.execServoOutputInstant n lane doneA doneB diff cycles s
  | .standbyResync n => Sys2Proof.Machine.execStandbyResync n s
  | .overrunFault n => Sys2Proof.Machine.execOverrunFault n s
  | .standbyUnfit n => Sys2Proof.Machine.execStandbyUnfit n s
  | .roleExchange n => Sys2Proof.Machine.execRoleExchange n s
  | .exchangeDeferExpiry n => Sys2Proof.Machine.execExchangeDeferExpiry n s
  | .probationEnd n => Sys2Proof.Machine.execProbationEnd n s
  | .degradedRecovery n => Sys2Proof.Machine.execDegradedRecovery n s
  | .pairSplit n lane => Sys2Proof.Machine.execPairSplit n lane s
  | .laneGo n lane => Sys2Proof.Machine.execLaneGo n lane s
  | .onTrack n lane => Sys2Proof.Machine.execOnTrack n lane s
  | .traceStop n unitB => Sys2Proof.Machine.execTraceStop n unitB s
  | .firmwareRetract n mask => Sys2Proof.Machine.execFirmwareRetract n mask s
  | .retractFrameRepeat n => Sys2Proof.Machine.execRetractFrameRepeat n s
  | .retractRestart n => Sys2Proof.Machine.execRetractRestart n s
  | .retractRelease n mask => Sys2Proof.Machine.execRetractRelease n mask s
  | .spindleTick n speed vbus ibus done law => Sys2Proof.Machine.execSpindleTick n speed vbus ibus done law s
  | .spindleStart n turning => Sys2Proof.Machine.execSpindleStart n turning s
  | .spindleModeOff n => Sys2Proof.Machine.execSpindleModeOff n s
  | .spindleModeRun n => Sys2Proof.Machine.execSpindleModeRun n s
  | .spindleModeCoast n => Sys2Proof.Machine.execSpindleModeCoast n s
  | .spindleModeShortBrake n => Sys2Proof.Machine.execSpindleModeShortBrake n s
  | .spindleManual n on rpm => Sys2Proof.Machine.execSpindleManual n on rpm s
  | .startNoCrossing n => Sys2Proof.Machine.execStartNoCrossing n s
  | .alignDone n => Sys2Proof.Machine.execAlignDone n s
  | .openLoopHandover n => Sys2Proof.Machine.execOpenLoopHandover n s
  | .bemfCrossing n err => Sys2Proof.Machine.execBemfCrossing n err s
  | .commutation n window found disagree => Sys2Proof.Machine.execCommutation n window found disagree s
  | .rotorLost n => Sys2Proof.Machine.execRotorLost n s
  | .rotorRelock n speed => Sys2Proof.Machine.execRotorRelock n speed s
  | .catchTimeout n => Sys2Proof.Machine.execCatchTimeout n s
  | .demandUpdate n up => Sys2Proof.Machine.execDemandUpdate n up s
  | .vbusChopOn n => Sys2Proof.Machine.execVbusChopOn n s
  | .vbusChopOff n => Sys2Proof.Machine.execVbusChopOff n s
  | .vbusOv1 n => Sys2Proof.Machine.execVbusOv1 n s
  | .vbusOv2 n => Sys2Proof.Machine.execVbusOv2 n s
  | .chopperFault n => Sys2Proof.Machine.execChopperFault n s
  | .pslUplinkFrame n f => Sys2Proof.Machine.execPslUplinkFrame n f s
  | .powerStageFault n => Sys2Proof.Machine.execPowerStageFault n s
  | .boundRecompute => Sys2Proof.Machine.execBoundRecompute s
  | .fireDrillStart pwrGood sag => Sys2Proof.Machine.execFireDrillStart pwrGood sag s
  | .fireDrillFlushEnd n written => Sys2Proof.Machine.execFireDrillFlushEnd n written s
  | .fireDrillParked => Sys2Proof.Machine.execFireDrillParked s
  | .journalReplay n => Sys2Proof.Machine.execJournalReplay n s
  | .journalReplayDone n skipped => Sys2Proof.Machine.execJournalReplayDone n skipped s
  | .trainingComplete p lanes peerLanes peerWidth peerEncrypt delay => Sys2Proof.Machine.execTrainingComplete p lanes peerLanes peerWidth peerEncrypt delay s
  | .trainingRateFallback p => Sys2Proof.Machine.execTrainingRateFallback p s
  | .linkControlFlit p ack nak credit crcOk => Sys2Proof.Machine.execLinkControlFlit p ack nak credit crcOk s
  | .lomeyFrameReceived p f chk => Sys2Proof.Machine.execLomeyFrameReceived p f chk s
  | .linkAckTimer p => Sys2Proof.Machine.execLinkAckTimer p s
  | .linkCreditTimer p => Sys2Proof.Machine.execLinkCreditTimer p s
  | .linkReplayTimeout p => Sys2Proof.Machine.execLinkReplayTimeout p s
  | .budgetExpiry p idx => Sys2Proof.Machine.execBudgetExpiry p idx s
  | .linkRetrain p => Sys2Proof.Machine.execLinkRetrain p s
  | .retrainComplete p => Sys2Proof.Machine.execRetrainComplete p s
  | .retrainTimeout p => Sys2Proof.Machine.execRetrainTimeout p s
  | .secureWaitTimeout p => Sys2Proof.Machine.execSecureWaitTimeout p s
  | .secureSessionEstablished p chainOk peerHash peerDecom => Sys2Proof.Machine.execSecureSessionEstablished p chainOk peerHash peerDecom s
  | .routingRestore p => Sys2Proof.Machine.execRoutingRestore p s
  | .sessionKeyUpdateDue p => Sys2Proof.Machine.execSessionKeyUpdateDue p s
  | .lomeyCmd p f => Sys2Proof.Machine.execLomeyCmd p f s
  | .lomeyAck p f => Sys2Proof.Machine.execLomeyAck p f s
  | .lomeyXrdy p f => Sys2Proof.Machine.execLomeyXrdy p f s
  | .lomeyWdata p f => Sys2Proof.Machine.execLomeyWdata p f s
  | .lomeyRdata p f => Sys2Proof.Machine.execLomeyRdata p f s
  | .lomeyCpl p f => Sys2Proof.Machine.execLomeyCpl p f s
  | .lomeyProg p f => Sys2Proof.Machine.execLomeyProg p f s
  | .lomeyCancel p f => Sys2Proof.Machine.execLomeyCancel p f s
  | .lomeyNak p f => Sys2Proof.Machine.execLomeyNak p f s
  | .progTimer src tag => Sys2Proof.Machine.execProgTimer src tag s
  | .cmdRetryTimer tag => Sys2Proof.Machine.execCmdRetryTimer tag s
  | .idleTimer tag => Sys2Proof.Machine.execIdleTimer tag s
  | .xrdyRetryTimer src tag => Sys2Proof.Machine.execXrdyRetryTimer src tag s
  | .busyRetryTimer tag => Sys2Proof.Machine.execBusyRetryTimer tag s
  | .dedupeExpiry src tag => Sys2Proof.Machine.execDedupeExpiry src tag s
  | .rollCallStart fromRegister => Sys2Proof.Machine.execRollCallStart fromRegister s
  | .announceTimeout => Sys2Proof.Machine.execAnnounceTimeout s
  | .announce p devId gen => Sys2Proof.Machine.execAnnounce p devId gen s
  | .probe p src exit gen => Sys2Proof.Machine.execProbe p src exit gen s
  | .report p dest devId addr ports root arrival fixed nss => Sys2Proof.Machine.execReport p dest devId addr ports root arrival fixed nss s
  | .assign p addr gen => Sys2Proof.Machine.execAssign p addr gen s
  | .done p gen => Sys2Proof.Machine.execDone p gen s
  | .notice p addr port up => Sys2Proof.Machine.execNotice p addr port up s
  | .route p first entries => Sys2Proof.Machine.execRoute p first entries s
  | .spdm p msg => Sys2Proof.Machine.execSpdm p msg s
  | .getVersion e => Sys2Proof.Machine.execGetVersion e s
  | .getCapabilities e => Sys2Proof.Machine.execGetCapabilities e s
  | .negotiateAlgorithms e supported => Sys2Proof.Machine.execNegotiateAlgorithms e supported s
  | .getDigests e => Sys2Proof.Machine.execGetDigests e s
  | .getCertificate e slot => Sys2Proof.Machine.execGetCertificate e slot s
  | .challenge e slot nonce => Sys2Proof.Machine.execChallenge e slot nonce s
  | .getMeasurements e index => Sys2Proof.Machine.execGetMeasurements e index s
  | .keyExchange e session => Sys2Proof.Machine.execKeyExchange e session s
  | .finish e macOk => Sys2Proof.Machine.execFinish e macOk s
  | .heartbeat e => Sys2Proof.Machine.execHeartbeat e s
  | .keyUpdate e op => Sys2Proof.Machine.execKeyUpdate e op s
  | .endSession e => Sys2Proof.Machine.execEndSession e s
  | .nvmeMiMessage i3c ok => Sys2Proof.Machine.execNvmeMiMessage i3c ok s
  | .loopbackSelect rq site depth arg => Sys2Proof.Machine.execLoopbackSelect rq site depth arg s
  | .loopbackRun site on locked errors checked => Sys2Proof.Machine.execLoopbackRun site on locked errors checked s
  | .eccInject addr mac kind => Sys2Proof.Machine.execEccInject addr mac kind s
  | .eccRemap mac row => Sys2Proof.Machine.execEccRemap mac row s
  | .remapDone => Sys2Proof.Machine.execRemapDone s
  | .mbistStart rq mac => Sys2Proof.Machine.execMbistStart rq mac s
  | .mbistDone failRows => Sys2Proof.Machine.execMbistDone failRows s
  | .powerTargetEvaluate deep => Sys2Proof.Machine.execPowerTargetEvaluate deep s
  | .hdaIdleTimeout n level => Sys2Proof.Machine.execHdaIdleTimeout n level s
  | .hdaStepEnd n ok strokes => Sys2Proof.Machine.execHdaStepEnd n ok strokes s
  | .voteWithdrawTimer a => Sys2Proof.Machine.execVoteWithdrawTimer a s
  | .domainRetainEntry dom => Sys2Proof.Machine.execDomainRetainEntry dom s
  | .domainWake dom => Sys2Proof.Machine.execDomainWake dom s
  | .firmwareVote dom hda => Sys2Proof.Machine.execFirmwareVote dom hda s
  | .cs1Entry => Sys2Proof.Machine.execCs1Entry s
  | .cs2Wake cause => Sys2Proof.Machine.execCs2Wake cause s
  | .powerThrottleCheck mw => Sys2Proof.Machine.execPowerThrottleCheck mw s
  | .spinupShareGrant n => Sys2Proof.Machine.execSpinupShareGrant n s
  | .thermalSample temps => Sys2Proof.Machine.execThermalSample temps s
  | .throttleStepDown => Sys2Proof.Machine.execThrottleStepDown s
  | .sensorExclusion sensor => Sys2Proof.Machine.execSensorExclusion sensor s
  | .hardwareTrip sensor => Sys2Proof.Machine.execHardwareTrip sensor s
  | .thermalRestart env => Sys2Proof.Machine.execThermalRestart env s
  | .thermalPhaseNormal => Sys2Proof.Machine.execThermalPhaseNormal s
  | .phaseTimeout => Sys2Proof.Machine.execPhaseTimeout s
  | .headTemperaturePoll a temps => Sys2Proof.Machine.execHeadTemperaturePoll a temps s
  | .calibrationRequest kind inst => Sys2Proof.Machine.execCalibrationRequest kind inst s
  | .calibrationStart kind inst => Sys2Proof.Machine.execCalibrationStart kind inst s
  | .calibrationDeferExpiry kind inst => Sys2Proof.Machine.execCalibrationDeferExpiry kind inst s
  | .calibrationDone kind inst head r => Sys2Proof.Machine.execCalibrationDone kind inst head r s
  | .permissionSlipSubmit h slip => Sys2Proof.Machine.execPermissionSlipSubmit h slip s
  | .d2GrantDone => Sys2Proof.Machine.execD2GrantDone s
  | .lifeCycleBurn => Sys2Proof.Machine.execLifeCycleBurn s
  | .productionProgram fields => Sys2Proof.Machine.execProductionProgram fields s
  | .debugSessionClose => Sys2Proof.Machine.execDebugSessionClose s
  | .securityFault cause => Sys2Proof.Machine.execSecurityFault cause s
  | .securitySendDumpKey h cid key => Sys2Proof.Machine.execSecuritySendDumpKey h cid key s
  | .epochEnd => Sys2Proof.Machine.execEpochEnd s
  | .checkpointTimer => Sys2Proof.Machine.execCheckpointTimer s
  | .evrCheckpoint => Sys2Proof.Machine.execEvrCheckpoint s
  | .reportCardFreeze h cid => Sys2Proof.Machine.execReportCardFreeze h cid s
  | .reportCardThaw h cid => Sys2Proof.Machine.execReportCardThaw h cid s
  | .evrFreeze => Sys2Proof.Machine.execEvrFreeze s
  | .evrThaw => Sys2Proof.Machine.execEvrThaw s
  | .freezeTimeout => Sys2Proof.Machine.execFreezeTimeout s
  | .cursorFill rq pr area index offset auto => Sys2Proof.Machine.execCursorFill rq pr area index offset auto s
  | .windowFillDone pr => Sys2Proof.Machine.execWindowFillDone pr s
  | .windowAdvance rq pr => Sys2Proof.Machine.execWindowAdvance rq pr s
  | .postMortemReset => Sys2Proof.Machine.execPostMortemReset s
  | .watchdogKick => Sys2Proof.Machine.execWatchdogKick s
  | .watchdogExpiry => Sys2Proof.Machine.execWatchdogExpiry s
  | .pspRawFrame a rd head addr data => Sys2Proof.Machine.execPspRawFrame a rd head addr data s
  | .pspFrameDone a data => Sys2Proof.Machine.execPspFrameDone a data s
  | .avsAdjust target readback ok => Sys2Proof.Machine.execAvsAdjust target readback ok s
  | .clockLockRegained c => Sys2Proof.Machine.execClockLockRegained c s
  | .trainingRetryTimer p => Sys2Proof.Machine.execTrainingRetryTimer p s
  | .shockInputRelease n us => Sys2Proof.Machine.execShockInputRelease n us s
  | .preampFaultRelease a => Sys2Proof.Machine.execPreampFaultRelease a s

end Sys2Proof.Machine
end

