-- ==== Sys2Proof/WellFormed.lean ====
section
/-! DEFINITION. Well-formed commands: operands within the widths and lengths that the rules give them (R7, R16, R17, R140, R179,
R198, R312, R313, R342).  A meaning does not rely on it: it cuts an operand to its width where the rule has one. -/
namespace Sys2Proof

/-- An access names at most 64 bits; R7 answers any other size with an error response. -/
def wfAccess : Access → Bool
  | .rd n => decide (n ≤ 8)
  | .wr n _ => decide (n ≤ 8)

/-- A packet has 1 to 16 beats, its bad and its poisoned beats lie within it, and its output is not its input (R16). -/
def wfPacket (p : Packet) : Bool :=
  decide (1 ≤ p.beats ∧ p.beats ≤ 16) && ((p.badBeats ++ p.poison).all fun b => decide (b < p.beats)) && p.inp != p.out

/-- The fields of a frame header within their widths (R312). -/
def wfFrame (f : Frame) : Bool :=
  decide (f.dest < 2 ^ 24 ∧ f.src < 2 ^ 24 ∧ f.budget < 2 ^ 16 ∧ f.tc < 8 ∧ f.ty < 32 ∧ f.attempt < 4) &&
    decide (f.length < 2 ^ 12 ∧ f.tag < 2 ^ 32 ∧ f.seq < 2 ^ 12)

/-- A suspected defect is a run of symbols of a sector slot (R179, R212). -/
def wfDefect (x : Defect) : Bool := decide (x.start < x.stop ∧ x.stop ≤ 37568)

/-- Well-formed commands. -/
def Instr.wf : Instr → Bool
  | .registerWrite _ addr acc => decide (addr < 2 ^ 32) && wfAccess acc
  | .busTimeout _ addr _ => decide (addr < 2 ^ 32)
  | .implicitAccessWake _ => true
  | .implicitVoteWithdraw _ => true
  | .dbgAccess op => match op with
    | .ctrl addr acc => decide (addr < 2 ^ 32) && wfAccess acc
    | _ => true
  | .xbarArbitrate _ arrivals => arrivals.all wfPacket
  | .packetTransferComplete _ _ _ => true
  | .creditReturn _ _ beats => decide (1 ≤ beats ∧ beats ≤ 16)
  | .clockLockLost _ => true
  | .clockDomainSwitch _ _ => true
  | .regionEvent _ _ => true
  | .regionBitClear _ _ => true
  | .coldStart _ => true
  | .sramWipeDone => true
  | .dramWipeDone _ => true
  | .bootDone _ => true
  | .perstDeassert _ _ _ => true
  | .structuralActivateDownload _ _ _ _ => true
  | .structuralActivateVerify _ _ => true
  | .structuralActivateAbort _ _ => true
  | .activateVerifyDone => true
  | .activateSlotWritten => true
  | .activateInflightDrained => true
  | .activateCommit => true
  | .activateRestructure => true
  | .commandFetch _ => true
  | .fetchResume _ => true
  | .lockInsert _ => true
  | .lockEntriesFreed _ => true
  | .lockGrant _ => true
  | .writeDataBuffered _ _ _ => true
  | .writeCoverage _ => true
  | .tolerableLatencyExpiry _ => true
  | .mediaTaskEnd _ _ => true
  | .read _ _ _ _ _ _ => true
  | .write _ _ _ r toks _ _ => toks.length == r.count
  | .writeZeroes _ _ _ _ _ => true
  | .writeUncorrectable _ _ _ _ => true
  | .compare _ _ _ r toks => toks.length == r.count
  | .verify _ _ _ _ => true
  | .datasetManagement _ _ _ _ _ _ => true
  | .copy _ _ _ _ _ ranges => decide (ranges.length ≤ 128)
  | .zoneAppend _ _ _ _ _ _ _ => true
  | .zoneOpen _ _ _ _ _ _ => true
  | .zoneClose _ _ _ _ _ _ => true
  | .zoneFinish _ _ _ _ _ _ => true
  | .zoneReset _ _ _ _ _ _ => true
  | .zoneOffline _ _ _ _ _ _ => true
  | .zoneManagementReceive _ _ _ _ _ => true
  | .flush _ _ _ _ => true
  | .flushLockerFallback _ _ => true
  | .flushComplete _ => true
  | .abort _ _ _ _ => true
  | .namespaceManagementCreate _ _ _ => true
  | .namespaceManagementDelete _ _ _ => true
  | .namespaceAttachment _ _ _ _ _ => true
  | .identify _ _ _ _ => true
  | .setFeaturesNumberOfQueues _ _ _ _ => true
  | .createIoQueue _ _ _ _ _ _ _ => true
  | .setFeaturesVolatileWriteCache _ _ _ => true
  | .setFeaturesPowerState _ _ _ _ => true
  | .setFeaturesTemperatureThreshold _ _ _ _ _ => true
  | .setFeaturesTolerableLatency _ _ _ _ => true
  | .getFeaturesTolerableLatency _ _ _ => true
  | .setFeaturesSpindleCurve _ _ _ _ => true
  | .getFeaturesSpindleCurve _ _ => true
  | .getFeaturesDirtyBound _ _ => true
  | .setFeaturesDirtyBound _ _ => true
  | .getLogReportCard _ _ _ _ _ => true
  | .getLogChainTopology _ _ => true
  | .getLogDetention _ _ _ => true
  | .getLogHeadHealth _ _ => true
  | .getLogTelemetry _ _ => true
  | .getLogSmartHealth _ _ => true
  | .asynchronousEventRequest _ _ => true
  | .controllerReset _ _ => true
  | .nvmSubsystemReset => true
  | .controllerEnable _ => true
  | .controllerReady _ => true
  | .shutdownNotification _ _ => true
  | .shutdownComplete _ => true
  | .orderlyReset => true
  | .orderlyResetFlushEnd _ => true
  | .firmwareImageDownload _ _ _ _ => true
  | .firmwareCommit _ _ _ _ => true
  | .firmwareImageSwitch => true
  | .firmwareActivationTimeout => true
  | .compressedZoneAppend _ _ _ _ _ _ _ _ _ _ _ _ => true
  | .compressedRead _ _ _ _ _ _ _ _ => true
  | .streamContextSave _ _ _ _ _ => true
  | .streamContextRestore _ _ _ _ _ _ => true
  | .contextGrant _ => true
  | .chunkDispatch _ => true
  | .chunkCompressed _ _ _ => true
  | .framePlacement _ => true
  | .decompressionDone _ _ _ => true
  | .gcmJobDone _ _ _ => true
  | .keyCacheFill _ _ _ => true
  | .nonceReserveAppend => true
  | .nonceRecordWritten => true
  | .keyInject _ _ _ _ => true
  | .slotRetireComplete _ => true
  | .lockingRangeUnlock _ _ => true
  | .lockingRangeLock _ => true
  | .rangeKekZero _ => true
  | .cipherContextSave _ _ => true
  | .cipherContextRestore _ _ => true
  | .countermeasureConfig _ _ _ => true
  | .keyInvalidate _ _ => true
  | .keyDropDone => true
  | .drbgReseed => true
  | .entropyHealthFail => true
  | .sanitize _ _ _ _ _ _ => true
  | .sanitizeStepDone => true
  | .tcgProperties _ _ => true
  | .tcgStartSession _ _ _ => true
  | .tcgEndSession _ _ => true
  | .tcgAuthenticate _ _ _ => true
  | .tcgGet _ _ _ => true
  | .tcgSet _ _ _ => true
  | .tcgGenkey _ _ _ => true
  | .tcgErase _ _ _ => true
  | .tcgRandom _ _ _ => true
  | .cleaningStart _ _ _ => true
  | .mapCheckpoint _ => true
  | .mapLoad _ => true
  | .homeworkRead _ _ _ _ => true
  | .homeworkRewrite _ _ => true
  | .mapLookup _ _ _ _ => true
  | .mapFillDone _ => true
  | .mapPrefetch _ => true
  | .mapClean _ _ => true
  | .mapInvalidate _ _ => true
  | .mapCleanInvalidate _ _ => true
  | .mapMaintDone => true
  | .mapEnable _ => true
  | .mapDisable _ => true
  | .mapDisableComplete => true
  | .mapGroupPowerDown _ _ => true
  | .mapGroupScratch _ _ => true
  | .mapGroupRestore _ _ _ => true
  | .mapGroupTransitionDone _ => true
  | .scratchAccess _ _ offset acc => decide (offset < 0x8000) && wfAccess acc
  | .sequencerTaskStart _ => true
  | .microwordExecute _ env => decide (env.parityFail < 256)
  | .waitConditionMet _ _ => true
  | .waitTimeout _ _ => true
  | .gateQueueSpace _ _ => true
  | .scratchAccessDone _ _ => true
  | .gateEdge _ _ => true
  | .sequencerAbort _ => true
  | .sqrCustEn _ _ _ => true
  | .controlStoreWrite _ _ offset acc => decide (offset < 0x40000) && wfAccess acc
  | .controlStoreRepair _ _ => true
  | .primarySyncFound _ _ dist seen => decide (dist ≤ 32) && seen.defects.all wfDefect
  | .resyncSearchEnd _ hit seen => (hit.all fun h => decide (h.2.1 ≤ 16)) && seen.defects.all wfDefect
  | .sectorLastParity tail => tail.defects.all wfDefect
  | .decodeDone _ _ res => decide (res.word < 2 ^ 37248)
  | .reframedDecodeDone _ _ res => decide (res.word < 2 ^ 37248)
  | .redecodeAltSet _ _ => true
  | .redecodeHalvedThresholds _ _ => true
  | .redecodeReader0 _ _ => true
  | .redecodeReader1 _ _ => true
  | .releaseSamples _ _ => true
  | .redecodeDone _ res => decide (res.word < 2 ^ 37248)
  | .retryLadderStep _ _ _ _ _ _ _ _ => true
  | .writeFifoSector _ _ _ => true
  | .writeSlotStart _ _ => true
  | .writePllArm _ _ _ => true
  | .servoTimingReference _ _ _ _ => true
  | .assistLevelStep _ => true
  | .assistMonitorPoll _ _ => true
  | .flySettled _ => true
  | .shockInput _ => true
  | .preampFault _ => true
  | .servoSample _ _ _ _ _ => true
  | .laneLost _ _ => true
  | .laneReacquired _ _ => true
  | .laneLostRetract _ _ => true
  | .servoOutputInstant _ _ _ _ _ _ => true
  | .standbyResync _ => true
  | .overrunFault _ => true
  | .standbyUnfit _ => true
  | .roleExchange _ => true
  | .exchangeDeferExpiry _ => true
  | .probationEnd _ => true
  | .degradedRecovery _ => true
  | .pairSplit _ _ => true
  | .laneGo _ _ => true
  | .onTrack _ _ => true
  | .traceStop _ _ => true
  | .firmwareRetract _ _ => true
  | .retractFrameRepeat _ => true
  | .retractRestart _ => true
  | .retractRelease _ _ => true
  | .spindleTick _ _ _ _ _ _ => true
  | .spindleStart _ _ => true
  | .spindleModeOff _ => true
  | .spindleModeRun _ => true
  | .spindleModeCoast _ => true
  | .spindleModeShortBrake _ => true
  | .spindleManual _ _ _ => true
  | .startNoCrossing _ => true
  | .alignDone _ => true
  | .openLoopHandover _ => true
  | .bemfCrossing _ _ => true
  | .commutation _ _ _ _ => true
  | .rotorLost _ => true
  | .rotorRelock _ _ => true
  | .catchTimeout _ => true
  | .demandUpdate _ _ => true
  | .vbusChopOn _ => true
  | .vbusChopOff _ => true
  | .vbusOv1 _ => true
  | .vbusOv2 _ => true
  | .chopperFault _ => true
  | .pslUplinkFrame _ _ => true
  | .powerStageFault _ => true
  | .boundRecompute => true
  | .fireDrillStart _ _ => true
  | .fireDrillFlushEnd _ _ => true
  | .fireDrillParked => true
  | .journalReplay _ => true
  | .journalReplayDone _ _ => true
  | .trainingComplete _ _ _ _ _ _ => true
  | .trainingRateFallback _ => true
  | .linkControlFlit _ ack nak credit _ => (ack.all fun x => decide (x < 4096)) && (nak.all fun x => decide (x < 4096)) && credit.length == 8
  | .lomeyFrameReceived _ f _ => wfFrame f
  | .linkAckTimer _ => true
  | .linkCreditTimer _ => true
  | .linkReplayTimeout _ => true
  | .budgetExpiry _ _ => true
  | .linkRetrain _ => true
  | .retrainComplete _ => true
  | .retrainTimeout _ => true
  | .secureWaitTimeout _ => true
  | .secureSessionEstablished _ _ _ _ => true
  | .routingRestore _ => true
  | .sessionKeyUpdateDue _ => true
  | .lomeyCmd _ _ => true
  | .lomeyAck _ _ => true
  | .lomeyXrdy _ _ => true
  | .lomeyWdata _ _ => true
  | .lomeyRdata _ _ => true
  | .lomeyCpl _ _ => true
  | .lomeyProg _ _ => true
  | .lomeyCancel _ _ => true
  | .lomeyNak _ _ => true
  | .progTimer _ _ => true
  | .cmdRetryTimer _ => true
  | .idleTimer _ => true
  | .xrdyRetryTimer _ _ => true
  | .busyRetryTimer _ => true
  | .dedupeExpiry _ _ => true
  | .rollCallStart _ => true
  | .announceTimeout => true
  | .announce _ _ _ => true
  | .probe _ _ _ _ => true
  | .report _ _ _ _ _ _ _ _ _ => true
  | .assign _ _ _ => true
  | .done _ _ => true
  | .notice _ _ _ _ => true
  | .route _ _ _ => true
  | .spdm _ _ => true
  | .getVersion _ => true
  | .getCapabilities _ => true
  | .negotiateAlgorithms _ _ => true
  | .getDigests _ => true
  | .getCertificate _ _ => true
  | .challenge _ _ _ => true
  | .getMeasurements _ _ => true
  | .keyExchange _ _ => true
  | .finish _ _ => true
  | .heartbeat _ => true
  | .keyUpdate _ _ => true
  | .endSession _ => true
  | .nvmeMiMessage _ _ => true
  | .loopbackSelect _ _ depth arg => decide (depth < 8 ∧ arg < 2 ^ 24)
  | .loopbackRun _ _ _ _ _ => true
  | .eccInject addr mac kind => decide (addr < 2 ^ 36 ∧ mac < 1024 ∧ kind < 4)
  | .eccRemap mac row => decide (mac < 1024 ∧ row < 2 ^ 16)
  | .remapDone => true
  | .mbistStart _ _ => true
  | .mbistDone _ => true
  | .powerTargetEvaluate _ => true
  | .hdaIdleTimeout _ _ => true
  | .hdaStepEnd _ _ _ => true
  | .voteWithdrawTimer _ => true
  | .domainRetainEntry _ => true
  | .domainWake _ => true
  | .firmwareVote dom hda => decide (dom < 2 ^ 23) && hda.length == 4
  | .cs1Entry => true
  | .cs2Wake _ => true
  | .powerThrottleCheck _ => true
  | .spinupShareGrant _ => true
  | .thermalSample temps => temps.length == 28
  | .throttleStepDown => true
  | .sensorExclusion _ => true
  | .hardwareTrip _ => true
  | .thermalRestart _ => true
  | .thermalPhaseNormal => true
  | .phaseTimeout => true
  | .headTemperaturePoll _ _ => true
  | .calibrationRequest _ _ => true
  | .calibrationStart _ _ => true
  | .calibrationDeferExpiry _ _ => true
  | .calibrationDone _ _ _ _ => true
  | .permissionSlipSubmit _ _ => true
  | .d2GrantDone => true
  | .lifeCycleBurn => true
  | .productionProgram _ => true
  | .debugSessionClose => true
  | .securityFault _ => true
  | .securitySendDumpKey _ _ _ => true
  | .epochEnd => true
  | .checkpointTimer => true
  | .evrCheckpoint => true
  | .reportCardFreeze _ _ => true
  | .reportCardThaw _ _ => true
  | .evrFreeze => true
  | .evrThaw => true
  | .freezeTimeout => true
  | .cursorFill _ _ _ index _ _ => decide (index < 2 ^ 13)
  | .windowFillDone _ => true
  | .windowAdvance _ _ => true
  | .postMortemReset => true
  | .watchdogKick => true
  | .watchdogExpiry => true
  | .pspRawFrame _ _ head addr _ => decide (head < 16 ∧ addr < 2048)
  | .pspFrameDone _ _ => true
  | .avsAdjust _ _ _ => true
  | .clockLockRegained _ => true
  | .trainingRetryTimer _ => true
  | .shockInputRelease _ _ => true
  | .preampFaultRelease _ => true

end Sys2Proof
end

