-- ==== Sys2Proof/Safety.lean ====
section
/-! DEFINITION. What the statements mean by a safe state and by a command that completes. -/
namespace Sys2Proof.Machine

/-- The addressed windows are in canonical form: equal contents are equal data. -/
def State.inv (s : State) : Prop := Memory.wf s.mem

/-- The command completes with the device `d`; the windows and the queue stay as they are. -/
def Gives (c : Instr) (s : State) (d : Dev) : Prop := exec c s = .next { s with dev := d }

/-- The command completes with the device `d` and the windows `m`; the queue stays as it is. -/
def GivesMem (c : Instr) (s : State) (d : Dev) (m : List Host.Cell) : Prop := exec c s = .next { s with dev := d, mem := m }

/-- The command completes with a device of which `P` holds; the windows and the queue stay as they are. -/
def Brings (c : Instr) (s : State) (P : Dev → Prop) : Prop := ∃ d, Gives c s d ∧ P d

/-- The parts of a state besides its registers and its queue. -/
inductive Part where
  | mem | out | draws | xb | ecc | struct | seqs | chns | health | host | chain | cipher | comp | servos | spins | power | therm
  | reset | card | sec | fw | map
  deriving DecidableEq, Repr

/-- A part is the same in two states; the head health log goes with its generation. -/
def Part.same (s t : State) : Part → Prop
  | .mem => t.mem = s.mem
  | .out => t.dev.out = s.dev.out
  | .draws => t.dev.draws = s.dev.draws
  | .xb => t.dev.xb = s.dev.xb
  | .ecc => t.dev.ecc = s.dev.ecc
  | .struct => t.dev.struct = s.dev.struct
  | .seqs => t.dev.seqs = s.dev.seqs
  | .chns => t.dev.chns = s.dev.chns
  | .health => t.dev.health = s.dev.health ∧ t.dev.healthGen = s.dev.healthGen
  | .host => t.dev.host = s.dev.host
  | .chain => t.dev.chain = s.dev.chain
  | .cipher => t.dev.cipher = s.dev.cipher
  | .comp => t.dev.comp = s.dev.comp
  | .servos => t.dev.servos = s.dev.servos
  | .spins => t.dev.spins = s.dev.spins
  | .power => t.dev.power = s.dev.power
  | .therm => t.dev.therm = s.dev.therm
  | .reset => t.dev.reset = s.dev.reset
  | .card => t.dev.card = s.dev.card
  | .sec => t.dev.sec = s.dev.sec
  | .fw => t.dev.fw = s.dev.fw
  | .map => t.dev.map = s.dev.map

/-- `e` reads as `d` at every register field whose number is not listed. -/
def KeepsRegs (ids : List Nat) (d e : Dev) : Prop := ∀ (f : Fld) (i j : Nat), f.id ∉ ids → e.rd f i j = d.rd f i j

/-- The frame of a command: where it completes, only the parts and the register fields named may differ. -/
def Changes (c : Instr) (ps : List Part) (fs : List Fld) : Prop :=
  ∀ s t, exec c s = .next t → (∀ p, p ∉ ps → p.same s t) ∧ KeepsRegs (fs.map (·.id)) s.dev t.dev

/-- The frame of a command where `p` holds before it. -/
def ChangesWhen (p : State → Prop) (c : Instr) (ps : List Part) (fs : List Fld) : Prop :=
  ∀ s t, p s → exec c s = .next t → (∀ q, q ∉ ps → q.same s t) ∧ KeepsRegs (fs.map (·.id)) s.dev t.dev

/-- Fields that fetching an admin command may change: stalls, and the wake of the chip. -/
def fetchFlds : List Fld := [F.hstCtxStat_fetch_stalled, F.hstCtxStat_stall_seen, F.pwrCs_state, F.pwrCs_target, F.pwrDom_dom]
/-- Fields that report what the host side holds. -/
def hostFlds : List Fld := [F.hstCtxStat_in_use, F.hstRltStat_in_use, F.hstBound_dirty, F.pwrHoldB_dirty]
/-- Fields that report the engines' work. -/
def engineFlds : List Fld := [F.cmpEngStat_busy, F.cmpEngStat_decomp, F.cmpEngStat_waiting, F.cphStat_busy, F.cphStat_cache_used]
/-- Fields of a port that sending a frame may change. -/
def sendFlds : List Fld := [F.lmlCred_rx_used, F.lmlCred_tx_avail, F.lmlRetry_buf_used, F.lmlRetry_next_seq, F.lmlRetry_sends]
/-- Fields of a sector result. -/
def resultFlds : List Fld := [F.chnResult_defect, F.chnResult_errs, F.chnResult_framing, F.chnResult_iter, F.chnResult_k,
  F.chnResult_poison, F.chnResult_reader, F.chnResult_resync_bad, F.chnResult_seq, F.chnResult_skipped, F.chnResult_status,
  F.chnResult_step]
/-- Fields that a sequencer's task may change as it runs or stops. -/
def seqFlds : List Fld := [F.chnWcnt_count, F.chnWresult_cause, F.chnWresult_sector, F.chnWresult_status, F.chnWstat_assist_ok,
  F.chnWstat_fly_ok, F.chnWstat_unsafe, F.chnWstat_unsafe_now, F.sqrCnt_c, F.sqrStat_cause, F.sqrStat_in_cust, F.sqrStat_pc,
  F.sqrStat_permit, F.sqrStat_sp, F.sqrStat_state, F.sqrStat_status, F.sqrWr_wr]
/-- Fields of a write-unsafe event. -/
def unsafeFlds : List Fld := [F.chnWcnt_count, F.chnWresult_cause, F.chnWresult_sector, F.chnWresult_status, F.chnWstat_assist_ok,
  F.chnWstat_fly_ok, F.chnWstat_unsafe, F.chnWstat_unsafe_now, F.chnWstat_unsafe_seen, F.sqrStat_permit]
/-- Fields of a read channel's buffers. -/
def bufferFlds : List Fld := [F.chnStat_buf_used, F.chnStat_dec_busy, F.chnStat_held, F.chnStat_unacked, F.chnWstat_wfifo,
  F.sqrStat_q_a, F.sqrStat_q_b]
/-- Fields that the device's operating limits set. -/
def limitFlds : List Fld := [F.pwrPs_engines, F.pwrPs_host_width, F.pwrPs_speed_cap, F.pwrPs_streams, F.pwrPs_throttling,
  F.spnStat_command]
/-- Fields of the hard-fault log. -/
def hardFlds : List Fld := [F.eccHardLog_count, F.eccHardLog_mac, F.eccHardLog_row, F.eccHardLog_valid]
/-- Fields of the bus-error log. -/
def busErrFlds : List Fld := [F.glbBusErr_addr, F.glbBusErr_cause, F.glbBusErr_count, F.glbBusErr_requester, F.glbBusErr_valid,
  F.glbBusErr_write]
/-- Fields that leaving CS2 may change. -/
def wakeFlds : List Fld := [F.pwrCs_state, F.pwrCs_target, F.pwrDom_dom]
/-- Fields that loading a structure sets. -/
def loadFlds : List Fld := [F.calDelta_delta, F.calDue_due, F.calDue_method, F.cmpCfg_ctx_base, F.cmpCfg_present,
  F.glbStructStat_loaded, F.glbStructVer_build_version, F.hstCtxStat_share, F.lmlCfg_encrypt, F.lmlCfg_rate, F.lmlCfg_used,
  F.lmlCfg_width, F.lmlNode_addr, F.lmlNode_fixed, F.lmlNode_root, F.lmlStat_down_cause, F.memCfg_rate, F.memCfg_size_gib,
  F.memPart_base_mib, F.memPart_size_mib, F.pwrCs_cs_allow, F.pwrDom_dom, F.pwrHsCfg_hs_allow, F.pwrHsExit_exit_us,
  F.sqrGeom_assist_max, F.sqrGeom_rz_count, F.sqrGeom_wedges, F.sqrLocker_count, F.sqrLocker_first, F.sqrZone2_kind,
  F.sqrZone2_payload, F.sqrZone2_spt, F.sqrZone_first_track, F.sqrZone_last_track, F.thmCfg_cal_delta, F.thmCfg_fixed_shutdown,
  F.thmCfg_rise_shutdown, F.thmCfg_rise_throttle, F.thmEdges_edge, F.xbrArbCtl_c7_share, F.xbrClsWeight_w]
/-- Fields that report the life cycle and the debug level. -/
def levelFlds : List Fld := [F.dbgStat_bar2_set, F.dbgStat_halted, F.dbgStat_jtag_level, F.dbgStat_scan, F.secDbg_cycles,
  F.secDbg_flags, F.secDbg_level, F.secDbg_signer, F.secDbg_withheld, F.secLc_bek1, F.secLc_ceiling, F.secLc_count, F.secLc_pending,
  F.secLc_rma_left, F.secLc_state]
/-- Fields that follow the hold-up bound: its energies and rates, and the spindles' commanded speed. -/
def boundFlds : List Fld := [F.hstBound_bound, F.pwrHoldB_bound, F.pwrHoldE_e_total, F.pwrHoldE_t_avail, F.pwrHoldR_energy,
  F.pwrHoldR_rate, F.pwrHoldStat_contrib, F.pwrHs_state, F.spnStat_command, F.spnStat_floor]
/-- Fields that a stop of the device may change. -/
def stopFlds : List Fld := [F.calDue_due, F.calStat_busy, F.glbStructStat_activate, F.lmlStat_down_cause, F.lmlStat_routed,
  F.lmlStat_secure, F.lmlStat_state, F.loop_depth, F.loop_run, F.pwrVote_dom, F.sqrStat_cause, F.sqrStat_in_cust, F.sqrStat_sp,
  F.sqrStat_state, F.sqrStat_status, F.thmStat_phase]
/-- Fields of an emergency retract. -/
def retractFlds : List Fld := [F.pwrHs_in_transition, F.pwrHs_step, F.sscLaneStat_on_track, F.sscRetract_cause, F.sscRetract_mask,
  F.sscRetract_seen]
/-- Fields that a memory error found in a read may change. -/
def memErrFlds : List Fld := [F.eccCe_count, F.eccLog_addr, F.eccLog_kind, F.eccLog_mac, F.eccLog_overflow, F.eccLog_syndrome,
  F.eccLog_valid, F.eccPcnt_marked, F.eccPcnt_marker_reads, F.eccUe_count]
/-- Fields of a routing table. -/
def routeFlds : List Fld := [F.lmlRt_alt_valid, F.lmlRt_alternate, F.lmlRt_len, F.lmlRt_pfx, F.lmlRt_primary, F.lmlRt_valid]

/-- An admin command of port `h` is fetched and served (R62, R67, R73, R74): fetching is allowed, an admin context is free, no
activation is pending unless the command runs meanwhile (`pend`), and the structure is not the recovery one unless that serves it
(`rec`). -/
def AdminRuns (s : State) (h : Nat) (pend rec : Bool) : Prop :=
  fetchAllowed s.dev h = true ∧ adminInUse s.dev h < 64 ∧
    (pend = true ∨ (wakeChip s.dev).rd F.glbStructStat_activate < 2) ∧
    (rec = true ∨ (wakeChip s.dev).rd F.glbStructStat_loaded ≠ 3)

/-- A host command is submitted (R76): a queue of port `h` with room holds it last, and nothing else changes. -/
def Submits (c : Instr) (s : State) (h qid cid : Nat) (x : IoCmd) : Prop :=
  ∀ q, (s.dev.port h).sqs.find? (fun q => q.qid == qid) = some q → q.cmds.length + 1 < q.entries →
    Brings c s fun d =>
      (d.port h).sqs.find? (fun q => q.qid == qid) = some { q with cmds := q.cmds ++ [(cid, x)] } ∧
      (∀ k, k ≠ qid → (d.port h).sqs.filter (fun q => q.qid == k) = (s.dev.port h).sqs.filter fun q => q.qid == k) ∧
      d = s.dev.updPort h fun p => { p with sqs := (d.port h).sqs }

/-- Data of a namespace needs no key, or both keys of each of the slot pairs lie in the unwrapped-key cache (R157, R166). -/
def keysCached (d : Dev) (ns : Ns) (pairs : List Nat) : Bool :=
  !classXts d ns.cls || (decide (d.cipher.cache.length ≤ 512) &&
    pairs.all fun p => d.cipher.cache.contains (2 * p) && d.cipher.cache.contains (2 * p + 1))

end Sys2Proof.Machine
end

