-- ==== Sys2Proof/Certificates/Slice0/Obligations.lean ====
section
/-! DEFINITION. The statements for the provers.  Each names in its docstring the rules of the spec that it rests on. -/
open Sys2Proof Sys2Proof.Machine

/-- A step takes the command at the front of the queue and runs it on everything but the queue, whose rest it leaves; on an empty
queue the block idles, which is the model's choice (assumption log 8). -/
def Obligations.StepRunsTheFrontCommand : Prop :=
  (∀ (c : Instr) (s : State), step { s with pending := c :: s.pending } = exec c s) ∧
  (∀ s : State, s.pending = [] → step s = .next s)

/-- After cold reset (R9) the registers read their Reset column, of which the entries here are named one by one; nothing waits, and
the windows are in canonical form. -/
def Obligations.ResetState : Prop :=
  State.reset.pending = [] ∧ State.reset.inv ∧
  (∀ x ∈ [(F.spnBus_chop_on, 14500), (F.spnBus_chop_off, 14000), (F.spnBus_ov1, 15500), (F.spnBus_ov2, 17000),
      (F.pwrHoldCfg_hold_vset, 12000), (F.pwrHoldCfg_hold_sag, 10800), (F.pwrHs_state, 4), (F.cphCm_dummy_max, 3),
      (F.chnDecode_max_iter, 40), (F.lmlBudget_fixed_units, 40000), (F.sscRetract_retract_ms, 80), (F.pwrPs_streams, 16),
      (F.sscRamp_ramp_rate, 300), (F.glbStart_stage, 0), (F.sqrStat_state, 0), (F.pwrHoldStat_state, 0)],
    ∀ i, State.reset.dev.rd x.1 i = x.2) ∧
  (∀ b r f i j, r ∈ Reg.ofBlock b → f ∈ r.fields → State.reset.dev.rd f i j = fldReset f j)

/-- Every command completes, whatever the state and the operands; it never touches the queue; and the windows change only under the
commands that reach them: control-plane accesses and what lets stalled ones complete, wipes, tests, restructure, a change of a map-cache group and the sequencer's and
servo's own stores. -/
def Obligations.EveryCommandCompletes : Prop :=
  ∀ (c : Instr) (s : State), ∃ (d : Dev) (m : List Host.Cell), exec c s = .next { s with dev := d, mem := m } ∧
    (m ≠ s.mem → match c with
      | .registerWrite .. | .implicitAccessWake .. | .dbgAccess .. | .scratchAccess .. | .controlStoreWrite .. => True
      | .domainWake .. | .remapDone => True
      | .sramWipeDone | .dramWipeDone .. | .mbistDone .. | .activateRestructure .. => True
      | .mapGroupTransitionDone .. | .scratchAccessDone .. | .sqrCustEn .. | .servoOutputInstant .. => True
      | _ => False)

/-- The invariant of the windows: every step from a state whose windows are in canonical form leaves them so. -/
def Obligations.StepKeepsWindowsCanonical : Prop := ∀ s t : State, s.inv → step s = .next t → t.inv

/-- Bytes of the windows (R6, R140, R445): `n` bytes written from an address upward are the number's bytes, lowest first, every
other byte reads as before, and what was written is read back; wiped bytes read as an unlisted byte.  A scratch write changes
exactly the bytes it stores to. -/
def Obligations.StoredBytes : Prop :=
  (∀ (m : List Host.Cell) (a v n x : Nat), memByte (memWrite m a v n) x =
    if a ≤ x ∧ x < a + n then BitVec.ofNat 8 (v / 256 ^ (x - a)) else memByte m x) ∧
  (∀ (m : List Host.Cell) (a v n : Nat), memRead (memWrite m a v n) a n = v % 256 ^ n) ∧
  (∀ (m : List Host.Cell) (a n x : Nat), memByte (memZero m a n) x = if a ≤ x ∧ x < a + n then memDefault x else memByte m x) ∧
  (∀ (c : Fin 8) (g : Fin 8) (off n : Nat) (data : BitVec 64) (s t : State) (x : Nat), off < 0x8000 →
    exec (.scratchAccess (.core c) g off (.wr n data)) s = .next t →
    ¬(scratchBase g.val + off ≤ x ∧ x < scratchBase g.val + off + n) → memByte t.mem x = memByte s.mem x)

/-- An access to a block whose domain is ABSENT (R361), that BAR2's set or the DBG port does not turn away first, while no stalled access may be performed: nothing wakes,
no access is stalled, a read or a write ends with an error response that carries all ones, nothing is written, and PWR_ABS_LOG
records the address. -/
def Obligations.AbsentBlockAccess : Prop :=
  ∀ (s : State) (rq : Requester) (addr off : Nat) (acc : Access) (a : Area),
    (s.dev.power.stalled.any fun x => mayPerform s.dev x.2.1) = false →
    s.dev.reset.held = false → s.dev.reset.waitCool = false → areaOf (busAddr rq addr) = some (a, off) →
    domState s.dev (areaDom a) = 2 →
    (isBar2 rq = true → s.dev.rd F.dbgStat_bar2_set ≠ 0 ∧ bar2Allows (s.dev.rd F.dbgStat_bar2_set) a off (accIsWrite acc) = true) →
    (isDbg rq = true → dbgProvides s.dev acc = true ∧ closedPlace a off = false) →
    Brings (.registerWrite rq addr acc) s fun d =>
      d = { s.dev with regs := d.regs, out := .bus (reqNum rq) false allOnes :: s.dev.out } ∧
      d.rd F.pwrAbsLog_addr = busAddr rq addr % 2 ^ F.pwrAbsLog_addr.w ∧ d.flag F.pwrAbsLog_valid = true ∧
      d.rd F.pwrAbsLog_count = satTo F.pwrAbsLog_count.w (s.dev.rd F.pwrAbsLog_count + 1) ∧
      KeepsRegs [F.pwrAbsLog_addr.id, F.pwrAbsLog_valid.id, F.pwrAbsLog_count.id] s.dev d

/-- The life-cycle state (R388): 0 BLANK, 1 TEST, 2 PROVISIONED, MISSION (3) at odd and RMA (4) at even counts from 3 to 19, and
DECOMMISSIONED (5) from 20; SEC_LC reports the decoded state; at most eight entries of RMA remain, one fewer after each; and
decommissioning burns every bit. -/
def Obligations.LifeCycleDecoding : Prop :=
  lcStateOf 0 = 0 ∧ lcStateOf 1 = 1 ∧ lcStateOf 2 = 2 ∧
  (∀ c, 3 ≤ c → c ≤ 19 → lcStateOf c = if c % 2 = 1 then 3 else 4) ∧ (∀ c, 20 ≤ c → lcStateOf c = 5) ∧
  (∀ d : Dev, d.sec.otp.lcCount ≤ 32 → (syncLevel d).rd F.secLc_state = lcStateOf d.sec.otp.lcCount ∧
    (syncLevel d).rd F.secLc_count = d.sec.otp.lcCount) ∧
  (∀ c, rmaLeft c ≤ 8 ∧ rmaLeft (c + 1) = if c + 1 ≤ 18 ∧ 4 ≤ c + 1 ∧ (c + 1) % 2 = 0 then rmaLeft c - 1 else rmaLeft c) ∧
  (∀ (s : State) (w : LcWork), s.dev.sec.work = some w → w.erasing = false → w.kind = 4 →
    Brings .lifeCycleBurn s fun d => d.sec.otp.lcCount = 32 ∧ d.rd F.secLc_state = 5)

/-- The Ocgoern mailbox (R447), while no stalled access may be performed: a control core's legal access reaches it, the data of a read being free; an access by BAR2 is
refused in every set, and one by DBG ends with an error response or, below the level that provides it, does nothing. -/
def Obligations.MailboxIsForCores : Prop :=
  ∀ (s : State) (off : Nat) (acc : Access), 0x100 ≤ off → off < 0x1000 → s.dev.reset.held = false → s.dev.reset.waitCool = false →
    (s.dev.power.stalled.any fun x => mayPerform s.dev x.2.1) = false →
    (∀ h : HstId, Gives (.registerWrite (.bar2 h) (0x40000 + off) acc) s
      (bar2Refused s.dev (.bar2 h) (0x40000 + off) (accIsWrite acc))) ∧
    (dbgProvides s.dev acc = true →
      Gives (.registerWrite .dbg (0x40000 + off) acc) s (busError s.dev .dbg (0x40000 + off) (accIsWrite acc) 5)) ∧
    (dbgProvides s.dev acc = false → Gives (.registerWrite .dbg (0x40000 + off) acc) s s.dev) ∧
    (∀ c : Fin 8, domState s.dev 1 = 0 → legalSize off (accSize acc) = true →
      Gives (.registerWrite (.core c) (0x40000 + off) acc) s (match acc with
        | .rd n => { s.dev with draws := s.dev.draws + 1, out := .bus c.val true (Config.freeValue s.dev.draws % 2 ^ (8 * n)) :: s.dev.out }
        | .wr _ _ => { s.dev with out := .bus c.val true 0 :: s.dev.out }))

/-- A bit-stream that verifies (R20, R32, R39, R52): no traffic kind lies in class 7; a host port is used; an image in the clear was
verified in BLANK or TEST; and the four context counts have their sum, the internal share is at least 4,096, a used host port has
at least 1,024 and an unused one none, and without a used Lomey port there is no transit share. -/
def Obligations.VerifiedImage : Prop :=
  ∀ (d : Dev) (b : List Byte) (ss : List Section), verifyImage d b = (0, ss) →
    let ports := findSec ss 2 0
    let ctx := findSec ss 8 0
    (∀ k, k < 10 → leBytes (findSec ss 7 0) (0x48 + k) 1 ≤ 6) ∧
    (leBytes ports 0 1 = 1 ∨ leBytes ports 8 1 = 1) ∧
    (imgFlags b = 0 → d.rd F.secLc_state < 2) ∧
    ctx.length = 16 ∧ leBytes ctx 0 4 + leBytes ctx 4 4 + leBytes ctx 8 4 + leBytes ctx 12 4 = 131072 ∧
    4096 ≤ leBytes ctx 12 4 ∧
    (∀ h, h < 2 → if leBytes ports (8 * h) 1 = 1 then 1024 ≤ leBytes ctx (4 * h) 4 else leBytes ctx (4 * h) 4 = 0) ∧
    ((∀ p, p < 4 → leBytes ports (0x10 + 8 * p) 1 ≠ 1) → leBytes ctx 8 4 = 0)

/-- Field types (R7, R8) in a write of a register entry under a mask, which for a 32-bit write covers one half: an RO, RWS or WO
field keeps its value, a WO field reads 0; an RW1C field loses the bits written as 1; an RW field takes the covered bits where its
description accepts the value; a field that the mask does not cover, and every field of another register, stays. -/
def Obligations.FieldTypes : Prop :=
  (∀ (d : Dev) (blk : Block) (r : Reg) (f : Fld) (i k m mask data : Nat), r ∈ Reg.ofBlock blk → f ∈ r.fields → m < f.nsub →
    let j := k * f.nsub + m
    let old := d.rd f i j
    let fm := fieldBits mask f m
    let dv := fieldBits data f m
    let v := mergeBits old dv fm
    let new := (regWrite d r i k mask data).rd f i j
    (f.ty = .ro ∨ f.ty = .rws ∨ f.ty = .wo → new = old) ∧ (fm = 0 → new = old) ∧
    (f.ty = .wo → ∀ rq, fieldRead d rq r i k f m = 0) ∧
    (f.ty = .rw1c → ∀ b, b < f.w → new.testBit b = (old.testBit b && !(fm.testBit b && dv.testBit b))) ∧
    (f.ty = .rw → fm ≠ 0 → new = if accepts f v then stored f v % 2 ^ f.w else old)) ∧
  (∀ (d : Dev) (r : Reg) (g : Fld) (i k mask data i' j : Nat), (∀ f ∈ r.fields, f.id ≠ g.id) →
    (regWrite d r i k mask data).rd g i' j = d.rd g i' j)

/-- Control-plane accesses (R7, R8, R15, R360, R448).  While no stalled access is ready to complete, a core's access of a legal size
to a defined register of a running domain completes: a read (of any register but the Report Card's windows) answers the addressed bytes
of the register as `regRead` gives it, a write leaves what `regWrite` and `writeEffect` make of the fields, and answers no error.  An
access to a defined place of a running block that has not answered ends with the bus error of cause 0, and is no longer stalled.  A
retained domain with stalled accesses wakes and those that may be performed complete in the order of their arrival.  The kind 7 vote of a domain on which
none is stalled is withdrawn.  At level 2 a JTAG instruction halts its core; at level 1 or above a DBG read makes its access. -/
def Obligations.ControlPlaneRowsComplete : Prop :=
  (∀ (s : State) (c : Fin 8) (addr n off i k : Nat) (a : Area) (r : Reg),
    (∀ x ∈ s.dev.power.stalled, mayPerform s.dev x.2.1 = false) →
    s.dev.reset.held = false → s.dev.reset.waitCool = false → addr < 2 ^ 32 → areaOf addr = some (a, off) →
    placeOf a off = .reg r i k → r ≠ Reg.evrWindow → legalSize off n = true → domState s.dev (areaDom a) = 0 →
    Gives (.registerWrite (.core c) addr (.rd n)) s
      (s.dev.emit (.bus c.val true (regRead s.dev (.core c) r i k / 2 ^ (8 * (off % 8)) % 2 ^ (8 * n))))) ∧
  (∀ (s : State) (c : Fin 8) (addr n off i k : Nat) (data : BitVec 64) (a : Area) (r : Reg) (mask value : Nat)
      (e : Dev × List Host.Cell),
    (∀ x ∈ s.dev.power.stalled, mayPerform s.dev x.2.1 = false) →
    s.dev.reset.held = false → s.dev.reset.waitCool = false → addr < 2 ^ 32 → areaOf addr = some (a, off) →
    placeOf a off = .reg r i k → legalSize off n = true → domState s.dev (areaDom a) = 0 →
    mask = (2 ^ (8 * n) - 1) * 2 ^ (8 * (off % 8)) → value = data.toNat * 2 ^ (8 * (off % 8)) →
    e = writeEffect (.core c) r i k mask value s.dev (regWrite s.dev r i k mask value) s.mem →
    GivesMem (.registerWrite (.core c) addr (.wr n data)) s (e.1.emit (.bus c.val true 0)) e.2) ∧
  (∀ (s : State) (c : Fin 8) (addr off : Nat) (isWrite : Bool) (a : Area), addr < 2 ^ 32 → areaOf addr = some (a, off) →
    placeOf a off ≠ .hole → mayPerform s.dev addr = true →
    Gives (.busTimeout (.core c) addr isWrite) s
      (busError { s.dev with power := { s.dev.power with
        stalled := s.dev.power.stalled.filter fun x => !(x.1 == .core c && x.2.1 == addr) } } (.core c) addr isWrite 0)) ∧
  (∀ (s : State) (dom : DomId) (d : Dev), domState s.dev dom.val = 1 → stalledOn s.dev dom.val ≠ [] →
    d = (((s.dev.wr F.pwrDom_dom 0 0 dom.val).wr F.pwrWake_last_dom dom.val).addSat F.pwrWake_wakes 1).setFlag F.pwrWake_seen true →
    GivesMem (.implicitAccessWake dom) s (releaseReady d s.mem).1 (releaseReady d s.mem).2) ∧
  (∀ (s : State) (dom : DomId), stalledOn s.dev dom.val = [] →
    Gives (.implicitVoteWithdraw dom) s (s.dev.setBit F.pwrVote_dom dom.val false 0 7)) ∧
  (∀ (s : State) (core : Fin 8), s.dev.rd F.pwrCs_state = 0 → s.dev.rd F.dbgStat_jtag_level = 2 →
    Gives (.dbgAccess (.halt core)) s (s.dev.setBit F.dbgStat_halted core.val true)) ∧
  (∀ (s : State) (addr n : Nat) (e : Dev × List Host.Cell),
    s.dev.rd F.pwrCs_state = 0 → 1 ≤ s.dev.rd F.dbgStat_jtag_level → e = busAccess .dbg addr (.rd n) s.dev s.mem →
    GivesMem (.dbgAccess (.ctrl addr (.rd n))) s e.1 e.2)

/-- The crossbar (R16, R17, R19, R22, R24).  At a crossbar where no packet waits, a legal packet of a class below 7 whose output and
input are free and whose class has credit for its beats is granted in the cycle in which it arrives: it takes credit for its beats,
the output and the input stay busy for 3 cycles and its beats, and Hall Pass moves to the input after it.  A packet of no command
whose last beat reaches the output with no memory error behind it leaves the output's beat counter advanced by its beats; exactly the
beats that failed their parity or came with their poison bit set leave with it set, and a parity error sets the output's bit of
par_err.  Returned credit is free again and no other class or output gains or loses any. -/
def Obligations.CrossbarRowsComplete : Prop :=
  (∀ (s : State) (cycle cls : Nat) (p : Packet),
    s.dev.xb.cycle ≤ cycle → s.dev.xb.queued = [] → s.dev.xb.medHeld = [] → xbLegal p = true → cls = xbClass s.dev p.kind → cls < 7 →
    tabGet 0 s.dev.xb.outFree p.out.val ≤ cycle → tabGet 0 s.dev.xb.inFree p.inp.val ≤ cycle →
    p.beats ≤ xbCredit s.dev.xb p.out.val cls →
    Brings (.xbarArbitrate cycle [p]) s fun d =>
      d.xb.queued = [] ∧ d.xb.flights = s.dev.xb.flights ++ [{ granted := cycle, cls := cls, p := p }] ∧
      d.rd F.xbrHallPass_ptr 0 p.out.val = (p.inp.val + 1) % 8 ∧
      xbCredit d.xb p.out.val cls = xbCredit s.dev.xb p.out.val cls - p.beats ∧
      tabGet 0 d.xb.outFree p.out.val = cycle + 3 + p.beats ∧ tabGet 0 d.xb.inFree p.inp.val = cycle + 3 + p.beats) ∧
  (∀ (s : State) (out : Fin 8) (cycle : Nat) (f : XbFlight) (d : Dev) (poison : List Nat),
    s.dev.xb.flights.find? (fun f => f.p.out.val == out.val) = some f → f.granted + 2 + f.p.beats ≤ cycle → f.p.cmd = none →
    poison = (List.range f.p.beats).filter (fun b => f.p.badBeats.contains b || f.p.poison.contains b) →
    d = s.dev.updXb (fun x => { x with flights := listDrop (fun g => g == f) x.flights }) →
    Gives (.packetTransferComplete out cycle []) s
      (((if f.p.badBeats.any (fun b => decide (b < f.p.beats)) then d.setBit F.xbrErrStat_par_err out.val true else d).addWrap
        F.xbrBeats_beats f.p.beats 0 out.val).emit (.packet out.val f.cls f.p.beats poison))) ∧
  (∀ (s : State) (out cls : Fin 8) (beats : Nat),
    Brings (.creditReturn out cls beats) s fun d =>
      xbCredit d.xb out.val cls.val = 16 - (tabGet 0 s.dev.xb.credit (8 * out.val + cls.val) - beats) ∧
      ∀ o c, o < 8 → c < 8 → (o ≠ out.val ∨ c ≠ cls.val) → xbCredit d.xb o c = xbCredit s.dev.xb o c)

/-- Clocks, regions and the core supply (R27, R30, R34, R35, R436).  A lost reference clock of a used host port takes its link down,
and with it regained the link is up again, while PERST_N is high, BOOT_DONE is high and no loop-back holds it down.  A channel's
domain switches to and from the media clock while its write gate is closed and its write PLL runs.  A pair of regions whose held
temperatures are over the limit sets its live and its sticky temperature bit, and the fixed throttle; when they are back within it and
no other cause is left, the live bit and the fixed throttle end.  A step of the supply target that R436 allows is reported, and leaves
the targets of adjacent regions within 40 mV of each other. -/
def Obligations.ClockAndRegionRowsComplete : Prop :=
  (∀ (s : State) (h : HstId), s.dev.reset.held = false → hostUsed s.dev h.val = true →
    Brings (.clockLockLost (.hst h)) s fun d =>
      d.reset.lost.contains (.hst h) = true ∧ (d.port h.val).linkUp = false ∧ (d.port h.val).enabled = false) ∧
  (∀ (s : State) (h : HstId), s.dev.reset.held = false → s.dev.reset.lost.contains (.hst h) = true →
    hostUsed s.dev h.val = true → s.dev.bit F.glbPins_perst_n h.val = true → s.dev.flag F.glbStart_boot_done = true →
    s.dev.rd F.loop_depth h.val = 0 →
    Brings (.clockLockRegained (.hst h)) s fun d =>
      d.reset.lost.contains (.hst h) = false ∧ (d.port h.val).linkUp = true ∧ ∀ f i j, d.rd f i j = s.dev.rd f i j) ∧
  (∀ (s : State) (chn : ChnId) (toMedia : Bool), (s.dev.chn chn.val).wg = false → (s.dev.chn chn.val).pllOn = true →
    Gives (.clockDomainSwitch chn toMedia) s (s.dev.updChn chn.val fun ch => { ch with mediaClock := toMedia })) ∧
  (∀ (s : State) (pair : Fin 8), pairOver s.dev pair.val = true →
    Brings (.regionEvent pair false) s fun d =>
      d.bit F.glbRegionStat_temp_over pair.val = true ∧ d.bit F.glbRegionStat_temp_seen pair.val = true ∧
      d.flag F.thmStat_fixed = true ∧ d.rd F.thmStat_step = 3) ∧
  (∀ (s : State) (pair : Fin 8), pairOver s.dev pair.val = false →
    s.dev.rd F.glbRegionStat_temp_over = 2 ^ pair.val → s.dev.rd F.glbRegionStat_volt_over = 0 → s.dev.rd F.thmStat_excluded ≤ 4 →
    Brings (.regionBitClear pair false) s fun d =>
      d.rd F.glbRegionStat_temp_over = 0 ∧ d.flag F.thmStat_fixed = false ∧ d.rd F.thmStat_step = s.dev.rd F.thmStat_step) ∧
  (∀ (s : State) (target readback : Nat), avsStepOk (s.dev.rd F.glbAvs_target_mv) target = true →
    Brings (.avsAdjust target readback true) s fun d =>
      d.rd F.glbAvs_target_mv = target % 2 ^ 16 ∧ d.rd F.glbAvs_read_mv = readback % 2 ^ 16 ∧
      ∀ x ∈ regionOrder, ∀ r ∈ x.2, regionMv d x.1 ≤ regionMv d r + 40 ∧ regionMv d r ≤ regionMv d x.1 + 40)

/-- Thermal commands (R368-R372, R375, R377).  On a chip not held in reset, in a phase other than NORMAL and with fewer than nine
samples in a row over the level shutdown, a sample leaves each sensor at the mean of its last ten readings.  After 3,000 samples
without a step-up condition, and not under the fixed throttle, the throttle steps down by one and its quiet time starts again.  A sensor
whose deviation has been counted in more than 100 samples is excluded and the exclusions are counted.  A trip by a sensor that is not
excluded leaves the chip waiting to be cool, with no stop, flush, host command or media task under way.  Phase 1 ends at the request
once every present HDA has reached HS0, and at its time limit.  A poll of a present actuator in RUN leaves each head's temperature. -/
def Obligations.ThermalRowsComplete : Prop :=
  (∀ (s : State) (temps : List Int) (i : Fin 28) (raw : List Int),
    s.dev.reset.held = false → s.dev.rd F.thmStat_phase ≠ 0 → s.dev.therm.hotFix < 9 →
    raw = (temps.getD i.val 0 :: tabGet [] s.dev.therm.raw i.val).take 10 →
    Brings (.thermalSample temps) s fun d =>
      tabGet [] d.therm.raw i.val = raw ∧ d.rd F.thmSens_temp 0 i.val = toTwos F.thmSens_temp.w (raw.sum / raw.length) % 2 ^ F.thmSens_temp.w) ∧
  (∀ (s : State), 3000 ≤ s.dev.therm.quiet → s.dev.rd F.thmStat_step ≠ 0 → s.dev.rd F.thmStat_step ≤ 3 →
    s.dev.flag F.thmStat_fixed = false →
    Brings .throttleStepDown s fun d =>
      d.rd F.thmStat_step = s.dev.rd F.thmStat_step - 1 ∧ d.flag F.thmEvt_step_down = true ∧ d.therm.quiet = 0) ∧
  (∀ (s : State) (sensor : Fin 28), 100 < tabGet 0 s.dev.therm.dev sensor.val → sensorExcluded s.dev sensor.val = false →
    Brings (.sensorExclusion sensor) s fun d =>
      sensorExcluded d sensor.val = true ∧ d.flag F.thmEvt_exclude = true ∧
      d.rd F.thmStat_excluded = (s.dev.rd F.thmStat_excluded + 1) % 2 ^ F.thmStat_excluded.w) ∧
  (∀ (s : State) (sensor : Fin 28), sensorExcluded s.dev sensor.val = false → s.dev.reset.waitCool = false →
    Brings (.hardwareTrip sensor) s fun d =>
      d.reset.waitCool = true ∧ d.reset.stage = 0 ∧ d.reset.flushing = [] ∧ d.host.ctxs = [] ∧ d.host.tasks = []) ∧
  (∀ (s : State), s.dev.rd F.thmStat_phase = 1 → (∀ n ∈ presentHdas s.dev, s.dev.bit F.glbStart_hs0_seen n = true) →
    Gives .thermalPhaseNormal s ((s.dev.wr F.thmStat_phase 0).updTherm fun t => { t with hist := [] })) ∧
  (∀ (s : State), s.dev.rd F.thmStat_phase = 1 →
    Gives .phaseTimeout s ((s.dev.wr F.thmStat_phase 0).updTherm fun t => { t with hist := [] })) ∧
  (∀ (s : State) (a : ActId) (temps : List Int) (h : HeadId),
    s.dev.actPresent a.val = true → domState s.dev (domChp a.val) = 0 → h.val < s.dev.hdaHeads (a.val / 2) →
    s.dev.hdaHeads (a.val / 2) ≤ 12 →
    Brings (.headTemperaturePoll a temps) s fun d =>
      d.rd F.thmHead_head 0 (16 * a.val + h.val) = toTwos F.thmHead_head.w (temps.getD h.val 0) % 2 ^ F.thmHead_head.w)

/-- Calibration commands (R380-R383).  A request for a present object of kinds 1 to 5 that is not being calibrated makes it due; one
for a present actuator's write power makes each of its heads due, and the actuator unless it is being calibrated.  While no calibration
runs, a due object whose domain has no loop-back, and for kind 0 whose HDA is in HS0 or on its way there, starts in an idle gap, or at
the end of its deferral whether idle or not, with the kind 5 vote of its domain.  The end of a run that converged (for a head at a level
within assist_max) and whose spare slice fits leaves the unit idle, the vote withdrawn, the run counted and the temperature of the
calibrated object kept. -/
def Obligations.CalibrationRowsComplete : Prop :=
  (∀ (s : State) (kind : Fin 6) (inst : Fin 16), kind.val ≠ 0 → calPresent s.dev kind.val inst.val = true →
    calRunning s.dev kind.val inst.val = false →
    Gives (.calibrationRequest kind inst) s
      (((s.dev.wr F.calCtl_kind kind.val).wr F.calCtl_inst inst.val).setBit F.calDue_due inst.val true 0 kind.val)) ∧
  (∀ (s : State) (kind : Fin 6) (inst : Fin 16), s.dev.flag F.calStat_busy = false →
    s.dev.bit F.calDue_due inst.val 0 kind.val = true → calLooped s.dev kind.val inst.val = false →
    calPlace s.dev kind.val inst.val = true → calIdle s.dev kind.val inst.val = true →
    Gives (.calibrationStart kind inst) s
      (((((s.dev.setBit F.calDue_due inst.val false 0 kind.val).setFlag F.calStat_busy true).wr F.calStat_kind kind.val).wr
        F.calStat_inst inst.val).setBit F.pwrVote_dom (calDom kind.val inst.val) true 0 5)) ∧
  (∀ (s : State) (kind : Fin 6) (inst : Fin 16), s.dev.flag F.calStat_busy = false →
    s.dev.bit F.calDue_due inst.val 0 kind.val = true → calLooped s.dev kind.val inst.val = false →
    calPlace s.dev kind.val inst.val = true →
    Gives (.calibrationDeferExpiry kind inst) s
      (((((s.dev.setBit F.calDue_due inst.val false 0 kind.val).setFlag F.calStat_busy true).wr F.calStat_kind kind.val).wr
        F.calStat_inst inst.val).setBit F.pwrVote_dom (calDom kind.val inst.val) true 0 5)) ∧
  (∀ (s : State) (inst : Fin 16), calPresent s.dev 0 inst.val = true → s.dev.hdaHeads (inst.val / 2) ≠ 0 →
    Brings (.calibrationRequest 0 inst) s fun d =>
      (∀ h, h < s.dev.hdaHeads (inst.val / 2) → d.therm.headsDue.contains (inst.val * 12 + h) = true) ∧
      (calRunning s.dev 0 inst.val = false → d.bit F.calDue_due inst.val 0 0 = true)) ∧
  (∀ (s : State) (kind : Fin 6) (inst : Fin 16) (head : HeadId) (r : CalRes),
    (kind.val = 0 → r.level ≤ s.dev.rd F.sqrGeom_assist_max inst.val) → calRunning s.dev kind.val inst.val = true → r.converged = true → r.spareFits = true →
    Brings (.calibrationDone kind inst head r) s fun d =>
      d.flag F.calStat_busy = false ∧ d.bit F.pwrVote_dom (calDom kind.val inst.val) 0 5 = false ∧
      d.rd F.calStat_runs = satTo F.calStat_runs.w (s.dev.rd F.calStat_runs + 1) ∧
      tabGet none d.therm.calAt (calKey kind.val inst.val head.val) = some (calTemp s.dev kind.val inst.val head.val))

/-- The write side of a channel (R231, R232, R237-R240, R430).  A whole sector joins a write FIFO that has room and whose domain runs;
at its slot, within the track and with the gate open and no sector being written, it leaves the FIFO as the sector being written and the
slot's symbols are driven.  The write PLL of a channel whose clock is in lock starts (of an odd one for twin heads) and, with the write gate closed, stops and
is out of lock; the fourth good reference in a row locks it.
The assist level takes one step toward its target, and with the assist on the second reading in tolerance sets assist_ok.  A heater
target that was sent and has no successor settles.  On a slot that is not absent, a shock and a preamplifier fault set their cause and
close the write gate and the assist of every channel of the HDA or the actuator, and their release clears the cause and opens none. -/
def Obligations.WritePathRowsComplete : Prop :=
  (∀ (s : State) (chn : ChnId) (tok : Nat) (poison : Bool), (s.dev.chn chn.val).fifo.length < 2 →
    s.dev.rd F.pwrDom_dom 0 (11 + chn.val / 2) = 0 →
    Brings (.writeFifoSector chn tok poison) s fun d =>
      d.chn chn.val = { s.dev.chn chn.val with fifo := (s.dev.chn chn.val).fifo ++ [(tok, poison)] } ∧
      d.rd F.chnWstat_wfifo chn.val = (s.dev.chn chn.val).fifo.length + 1) ∧
  (∀ (s : State) (chn : ChnId) (sector tok : Nat) (poison : Bool) (rest : List (Nat × Bool)),
    (s.dev.chn chn.val).wg = true → (s.dev.chn chn.val).nextSlot = some sector → (s.dev.chn chn.val).writing = none →
    (s.dev.chn chn.val).fifo = (tok, poison) :: rest → sector < sptOf s.dev (chn.val / 2) (taskTrack s.dev chn.val) →
    Brings (.writeSlotStart chn sector) s fun d =>
      d.out = .wave chn.val (chnHead s.dev chn.val) (taskTrack s.dev chn.val) sector (slotWave s.dev chn.val sector tok poison) ::
        s.dev.out ∧
      d.chn chn.val = { s.dev.chn chn.val with fifo := rest, writing := some (sector, tok, poison), nextSlot := some (sector + 1) }) ∧
  (∀ (s : State) (rq : Requester) (chn : ChnId), chn.val % 2 = 0 ∨ s.dev.hdaTwin (chn.val / 4) = true →
    chnLost s.dev chn.val = false →
    Gives (.writePllArm rq chn true) s ((s.dev.setFlag F.chnWctl_arm true chn.val).updChn chn.val fun ch =>
      { ch with pllOn := true, pllGood := if ch.pllOn then ch.pllGood else 0 })) ∧
  (∀ (s : State) (rq : Requester) (chn : ChnId), (s.dev.chn chn.val).wg = false →
    Gives (.writePllArm rq chn false) s (((s.dev.setFlag F.chnWctl_arm false chn.val).updChn chn.val fun ch =>
      { ch with pllOn := false, pllGood := 0 }).setFlag F.chnWstat_wlock false chn.val)) ∧
  (∀ (s : State) (chn : ChnId) (wedge phase64 period : Nat), (s.dev.chn chn.val).pllOn = true → (s.dev.chn chn.val).pllGood = 3 →
    phase64 < 2 → chnLost s.dev chn.val = false →
    Brings (.servoTimingReference chn wedge phase64 period) s fun d =>
      d.flag F.chnWstat_wlock chn.val = true ∧ (d.chn chn.val).lastWedge = wedge ∧
      (d.chn chn.val).periods = (period :: (s.dev.chn chn.val).periods).take 8) ∧
  (∀ (s : State) (chn : ChnId) (h : Nat), h = chnHead s.dev chn.val →
    Gives (.assistLevelStep chn) s (s.dev.wr F.chnApplied_applied
      (levelStep (s.dev.rd F.chnApplied_applied chn.val h) (s.dev.rd F.chnApplied_target chn.val h)) chn.val h)) ∧
  (∀ (s : State) (chn : ChnId) (reading : Nat), (s.dev.chn chn.val).ag = true → (s.dev.chn chn.val).monGood = 1 →
    inTolerance (s.dev.rd F.chnApplied_applied chn.val (chnHead s.dev chn.val)) reading (s.dev.rd F.chnWctl_fault_dev chn.val) = true →
    Brings (.assistMonitorPoll chn reading) s fun d =>
      d.flag F.chnWstat_assist_ok chn.val = true ∧
      d.rd F.chnApplied_monitor chn.val (chnHead s.dev chn.val) = reading % 2 ^ F.chnApplied_monitor.w ∧ d.host = s.dev.host) ∧
  (∀ (s : State) (chn : ChnId), (s.dev.chn chn.val).flySent = true → (s.dev.chn chn.val).flyPending = false →
    Gives (.flySettled chn) s (s.dev.setFlag F.chnWstat_fly_ok true chn.val)) ∧
  (∀ (s : State) (n : HdaId) (c : ChnId), s.dev.slotDrive n.val ≠ .highZ → c.val ∈ hdaChannels n.val →
    Brings (.shockInput n) s fun d =>
      d.bit F.glbPins_shock n.val = true ∧ d.bit F.chnWstat_unsafe_now 2 c.val = true ∧ d.flag F.chnWstat_unsafe c.val = true ∧
      (d.chn c.val).wg = false ∧ (d.chn c.val).ag = false) ∧
  (∀ (s : State) (n : HdaId) (us : Nat) (c : ChnId), s.dev.slotDrive n.val ≠ .highZ → c.val ∈ hdaChannels n.val →
    Brings (.shockInputRelease n us) s fun d =>
      d.bit F.glbPins_shock n.val = false ∧ d.bit F.chnWstat_unsafe_now 2 c.val = false ∧ d.chns = s.dev.chns) ∧
  (∀ (s : State) (a : ActId) (c : ChnId), s.dev.slotDrive (a.val / 2) ≠ .highZ → c.val / 2 = a.val →
    Brings (.preampFault a) s fun d =>
      d.flag F.pspStat_flt a.val = true ∧ d.flag F.pspStat_flt_seen a.val = true ∧ d.bit F.chnWstat_unsafe_now 3 c.val = true ∧
      (d.chn c.val).wg = false ∧ (d.chn c.val).ag = false) ∧
  (∀ (s : State) (a : ActId) (c : ChnId), s.dev.slotDrive (a.val / 2) ≠ .highZ → c.val / 2 = a.val →
    Brings (.preampFaultRelease a) s fun d =>
      d.flag F.pspStat_flt a.val = false ∧ d.bit F.chnWstat_unsafe_now 3 c.val = false ∧ d.chns = s.dev.chns)

/-- The read channel (R191, R192, R203-R206, R211-R218, R222-R225, R228).  On a channel whose clock is in lock, a gate command whose
moment has come and that only opens the read gate, with the write gate closed, opens it, with the gains and the timing loop acquiring.
With the defects that it brings seen, a primary mark within its distance in an open window frames the sector, a resync mark at the
expected position leaves k at 0, and the last parity symbol puts the sector in the decoders' order.  With the memory errors of the sample
buffer seen, a decode that the code accepts within its limit, or one of a re-framed sector with framing 3, reports the sector good and
delivers the data of its word; the on-the-fly one is counted.  A re-decode of held samples becomes busy with its variant, the release
gives them up, and an accepted re-decode frees them and delivers the data of its word. -/
def Obligations.ReadChannelRowsComplete : Prop :=
  (∀ (s : State) (chn : ChnId) (time : Nat) (g : GateCmd) (rest : List GateCmd),
    (s.dev.chn chn.val).queue = g :: rest → g.moment ≤ time → g.rg = 1 → g.wg = 0 → g.ag = 0 → g.sg = 0 → g.sw = 0 →
    (s.dev.chn chn.val).wg = false → chnLost s.dev chn.val = false →
    Brings (.gateEdge chn time) s fun d =>
      (d.chn chn.val).rg = true ∧ (d.chn chn.val).queue = rest ∧ (d.chn chn.val).gain = .acquiring ∧ (d.chn chn.val).acq = true ∧
      d.flag F.chnStat_timing_lock chn.val = false ∧
      d.out = .gates chn.val true false (s.dev.chn chn.val).ag :: s.dev.out) ∧
  (∀ (s : State) (chn : ChnId) (pos dist : Nat) (lock : Bool) (xs : List Defect) (e e1 : SectorEntry) (d1 : Dev),
    (s.dev.chn chn.val).entries.getLast? = some e → (s.dev.chn chn.val).sw = true → e.primPos = none → e.resyncEnded = false →
    d1 = seeDefects s.dev chn.val e.seq xs → (d1.chn chn.val).entries.find? (fun x => x.seq == e.seq) = some e1 →
    max dist (erasedIn e1 (e1.opened + pos) 32) ≤ s.dev.rd F.chnSync_prim_thresh chn.val →
    Gives (.primarySyncFound chn pos dist ⟨lock, xs⟩) s
      (((updEntry d1 chn.val e.seq fun x =>
        { x with primPos := some pos, framed := true, framing := 1, start := ((x.opened + pos + 32 : Nat) : Int) }).updChn chn.val
          fun ch => { ch with gain := .frozen, acq := false }).setFlag F.chnStat_timing_lock lock chn.val)) ∧
  (∀ (s : State) (chn : ChnId) (q dist amp0 amp1 : Nat) (poisoned lock : Bool) (xs : List Defect) (e e1 : SectorEntry) (d1 : Dev),
    (s.dev.chn chn.val).entries.find? (fun x => !x.resyncEnded) = some e →
    d1 = seeDefects (updEntry s.dev chn.val e.seq fun x => { x with amps := (amp0, amp1) }) chn.val e.seq xs →
    (d1.chn chn.val).entries.find? (fun x => x.seq == e.seq) = some e1 → e1.primPos = some q →
    max dist (erasedIn e1 (e1.opened + (q + 16416)) 16) ≤ s.dev.rd F.chnSync_resync_thresh chn.val →
    Brings (.resyncSearchEnd chn (some (q + 16416, dist, poisoned)) ⟨lock, amp0, amp1, xs⟩) s fun d =>
      (d.chn chn.val).entries = listMapIf (fun x => x.seq == e1.seq)
        (fun _ => { e1 with resyncEnded := true, k := 0, poison := poisoned, resyncBad := false }) (d1.chn chn.val).entries) ∧
  (∀ (s : State) (chn : ChnId) (xs : List Defect) (e : SectorEntry),
    (s.dev.chn chn.val).entries.find? (fun x => !x.lastParity) = some e →
    Brings (.sectorLastParity ⟨chn, xs⟩) s fun d =>
      (d.chn chn.val).entries = listMapIf (fun x => x.seq == e.seq) (fun x => { x with lastParity := true })
        ((seeDefects s.dev chn.val e.seq xs).chn chn.val).entries) ∧
  (∀ (s : State) (chn : ChnId) (seq : Nat) (res : DecodeRes) (e e1 : SectorEntry) (d1 : Dev),
    inDecoder (s.dev.chn chn.val) seq = some e → e.reframing = false →
    decodeFits s.dev chn.val (decodeLimit s.dev chn.val e) res = true → decodeOk (decodeLimit s.dev chn.val e) res = true →
    e1 = (loseSamples s.dev chn.val e res).1 → d1 = (loseSamples s.dev chn.val e res).2 →
    Brings (.decodeDone chn seq res) s fun d =>
      (d.chn chn.val).entries = listMapIf (fun x => x.seq == e1.seq)
        (fun _ => { e1 with dec := true, ok := true, reframing := false, status := 0, released := true }) (d1.chn chn.val).entries ∧
      d.rd F.chnCnt_count chn.val 0 = (s.dev.rd F.chnCnt_count chn.val 0 + 1) % 2 ^ F.chnCnt_count.w ∧
      d.out = .sector chn.val e1.seq e1.sector (wordBytes res.word) e1.poison :: d1.out) ∧
  (∀ (s : State) (chn : ChnId) (seq : Nat) (res : DecodeRes) (e e1 : SectorEntry) (d1 : Dev),
    inDecoder (s.dev.chn chn.val) seq = some e → e.reframing = true →
    decodeFits s.dev chn.val (s.dev.rd F.chnDecode_max_iter chn.val) res = true →
    decodeOk (s.dev.rd F.chnDecode_max_iter chn.val) res = true →
    e1 = (loseSamples s.dev chn.val e res).1 → d1 = (loseSamples s.dev chn.val e res).2 →
    Brings (.reframedDecodeDone chn seq res) s fun d =>
      (d.chn chn.val).entries = listMapIf (fun x => x.seq == e1.seq)
        (fun _ => { e1 with dec := true, ok := true, reframing := false, status := 0, framing := 3, released := true })
        (d1.chn chn.val).entries ∧
      d.out = .sector chn.val e1.seq e1.sector (wordBytes res.word) e1.poison :: d1.out) ∧
  (∀ (s : State) (chn : ChnId) (seq : Nat) (e : SectorEntry) (P : Nat → Dev → Prop),
    s.dev.flag F.chnRedecode_busy chn.val = false → chnLost s.dev chn.val = false →
    samplesHeld (s.dev.chn chn.val) (seq % 65536) = some e →
    P = (fun v d => d.flag F.chnRedecode_busy chn.val = true ∧ d.rd F.chnRedecode_variant chn.val = v ∧
      (d.chn chn.val).redecode = some ⟨e.seq, v, !(decodeWaiting (s.dev.chn chn.val)).isEmpty⟩) →
    (Brings (.redecodeAltSet chn seq) s (P 1)) ∧ (Brings (.redecodeHalvedThresholds chn seq) s (P 2)) ∧
    (Brings (.redecodeReader0 chn seq) s (P 3)) ∧ (Brings (.redecodeReader1 chn seq) s (P 4))) ∧
  (∀ (s : State) (chn : ChnId) (seq : Nat) (e : SectorEntry),
    s.dev.flag F.chnRedecode_busy chn.val = false → chnLost s.dev chn.val = false →
    samplesHeld (s.dev.chn chn.val) (seq % 65536) = some e →
    Brings (.releaseSamples chn seq) s fun d =>
      d.flag F.chnRedecode_done chn.val = true ∧
      (d.chn chn.val).held = (s.dev.chn chn.val).held.filter (fun x => x.seq != e.seq)) ∧
  (∀ (s : State) (chn : ChnId) (res : DecodeRes) (r : Redecode) (e e1 : SectorEntry) (d1 : Dev),
    (s.dev.chn chn.val).redecode = some r → decodeWaiting (s.dev.chn chn.val) = [] → samplesHeld (s.dev.chn chn.val) r.seq = some e →
    decodeFits s.dev chn.val (s.dev.rd F.chnDecode_max_iter chn.val) res = true →
    decodeOk (s.dev.rd F.chnDecode_max_iter chn.val) res = true →
    e1 = (loseSamples s.dev chn.val e res).1 → d1 = (loseSamples s.dev chn.val e res).2 →
    Brings (.redecodeDone chn res) s fun d =>
      d.flag F.chnRedecode_busy chn.val = false ∧ d.flag F.chnRedecode_done chn.val = true ∧ (d.chn chn.val).redecode = none ∧
      (d.chn chn.val).held = (s.dev.chn chn.val).held.filter (fun x => x.seq != e.seq) ∧
      d.out = .sector chn.val e1.seq e1.sector (wordBytes res.word) e1.poison :: d1.out)

/-- The Voxzal sequencer (R183, R186, R187, R189, R191, R196, R197, R199).  An idle sequencer whose selected channels have their clocks
starts a task at its entry with its parameters in the counters; an entry in the customer region needs cust_en.  A legal word whose fields
pass parity and whose commands have room runs; among these a jump word with no other action goes to its target, and a STOP word without
gate or scratch action ends the task with its status.  A WAIT word goes on when its condition holds, and to its target when it does not
hold at its timeout.  A word that waited for room runs once it is there.  A scratch load from memory that is not poisoned leaves the
halfword in its counter and the word goes on; a store writes the counter to the scratch window and the word goes on.  An abort ends a
running task with cause 1, the permit window and both write gates closed. -/
def Obligations.SequencerRowsComplete : Prop :=
  (∀ (s : State) (a : ActId) (k : Fin 4), s.dev.rd F.sqrStat_state a.val = 0 → s.dev.rd F.sqrTask_entry a.val < 8192 →
    s.dev.rd F.sqrTask_entry a.val < 6144 ∨ s.dev.flag F.sqrCtl_cust_en a.val = true →
    (∀ b : Fin 2, (s.dev.rd F.sqrTask_chan a.val).testBit b.val = true → chnLost s.dev (2 * a.val + b.val) = false) →
    Brings (.sequencerTaskStart a) s fun d =>
      d.rd F.sqrStat_state a.val = 1 ∧ d.rd F.sqrStat_pc a.val = s.dev.rd F.sqrTask_entry a.val ∧
      d.rd F.sqrCnt_c a.val k.val = s.dev.rd F.sqrTaskParam_p a.val k.val % 2 ^ F.sqrCnt_c.w ∧ (d.seq a.val).stack = []) ∧
  (∀ (s : State) (a : ActId) (env : SeqEnv) (m : Micro),
    s.dev.rd F.sqrStat_state a.val = 1 → (s.dev.seq a.val).wait = .none → env.parityFail % 256 = 0 →
    badFields s.dev a.val (s.dev.rd F.sqrStat_pc a.val) = 0 → m = microOf (storeWord s.mem a.val (s.dev.rd F.sqrStat_pc a.val)) →
    (illegalWord s.dev a.val m).1 = false → hasRoom s.dev a.val m = true →
    Gives (.microwordExecute a env) s (runWord s.dev a.val m env)) ∧
  (∀ (s : State) (a : ActId) (env : SeqEnv) (m : Micro),
    s.dev.rd F.sqrStat_state a.val = 1 → (s.dev.seq a.val).wait = .none → env.parityFail % 256 = 0 →
    badFields s.dev a.val (s.dev.rd F.sqrStat_pc a.val) = 0 → m = microOf (storeWord s.mem a.val (s.dev.rd F.sqrStat_pc a.val)) →
    (illegalWord s.dev a.val m).1 = false → hasGates m = false → m.profile = 0 → m.cop = 0 → m.wrOp = 0 →
    m.permitOpen = false → m.permitClose = false → m.ackA = false → m.ackB = false → m.scr = 0 → m.nop = 1 →
    m.target < 6144 ∨ 6144 ≤ s.dev.rd F.sqrStat_pc a.val ∨ s.dev.flag F.sqrCtl_cust_en a.val = true →
    Brings (.microwordExecute a env) s fun d =>
      d.rd F.sqrStat_pc a.val = m.target ∧ d.rd F.sqrStat_state a.val = 1 ∧
      (d.seq a.val).stack = (s.dev.seq a.val).stack ∧ d.chns = s.dev.chns) ∧
  (∀ (s : State) (a : ActId) (env : SeqEnv) (m : Micro),
    s.dev.rd F.sqrStat_state a.val = 1 → (s.dev.seq a.val).wait = .none → env.parityFail % 256 = 0 →
    badFields s.dev a.val (s.dev.rd F.sqrStat_pc a.val) = 0 → m = microOf (storeWord s.mem a.val (s.dev.rd F.sqrStat_pc a.val)) →
    (illegalWord s.dev a.val m).1 = false → hasGates m = false → m.scr = 0 → m.nop = 6 →
    Brings (.microwordExecute a env) s fun d =>
      d.rd F.sqrStat_state a.val = 0 ∧ d.rd F.sqrStat_cause a.val = 0 ∧ d.rd F.sqrStat_status a.val = m.status ∧
      (d.seq a.val).ended = some (0, m.status) ∧ (d.seq a.val).stack = []) ∧
  (∀ (s : State) (a : ActId) (env : SeqEnv) (refs : Nat), (s.dev.seq a.val).wait = .cond refs →
    condHolds s.dev a.val (microOf (storeWord s.mem a.val (s.dev.rd F.sqrStat_pc a.val))) = true →
    s.dev.rd F.sqrStat_pc a.val < 8191 → s.dev.rd F.sqrStat_pc a.val ≠ 6143 ∨ s.dev.flag F.sqrCtl_cust_en a.val = true →
    Brings (.waitConditionMet a env) s fun d =>
      d.rd F.sqrStat_pc a.val = s.dev.rd F.sqrStat_pc a.val + 1 ∧ d.rd F.sqrStat_state a.val = 1 ∧ (d.seq a.val).wait = .none) ∧
  (∀ (s : State) (a : ActId) (env : SeqEnv) (refs : Nat) (m : Micro), (s.dev.seq a.val).wait = .cond refs →
    m = microOf (storeWord s.mem a.val (s.dev.rd F.sqrStat_pc a.val)) → waitExpired m env.elapsed refs = true →
    condHolds s.dev a.val m = false →
    m.target < 6144 ∨ 6144 ≤ s.dev.rd F.sqrStat_pc a.val ∨ s.dev.flag F.sqrCtl_cust_en a.val = true →
    Brings (.waitTimeout a env) s fun d =>
      d.rd F.sqrStat_pc a.val = m.target ∧ d.rd F.sqrStat_state a.val = 1 ∧ (d.seq a.val).wait = .none) ∧
  (∀ (s : State) (a : ActId) (env : SeqEnv) (m : Micro), (s.dev.seq a.val).wait = .room →
    m = microOf (storeWord s.mem a.val (s.dev.rd F.sqrStat_pc a.val)) → hasRoom s.dev a.val m = true →
    Gives (.gateQueueSpace a env) s
      (runWord ((s.dev.updSeq a.val fun q => { q with wait := .none }).wr F.sqrStat_state 1 a.val) a.val m env)) ∧
  (∀ (s : State) (a : ActId) (sel : Fin 4) (g h pc : Nat), (s.dev.seq a.val).wait = .scratch false sel.val g h (.word pc) → pc < 8192 →
    Brings (.scratchAccessDone a false) s fun d =>
      d.rd F.sqrCnt_c a.val sel.val = memRead s.mem (scratchBase g + 2 * h) 2 ∧ d.rd F.sqrStat_pc a.val = pc ∧
      (d.seq a.val).wait = .none) ∧
  (∀ (s : State) (a : ActId) (sel g h : Nat) (next : SeqNext) (poison : Bool),
    (s.dev.seq a.val).wait = .scratch true sel g h next →
    GivesMem (.scratchAccessDone a poison) s (takeNext s.dev a.val next)
      (memWrite s.mem (scratchBase g + 2 * h) (s.dev.rd F.sqrCnt_c a.val sel) 2)) ∧
  (∀ (s : State) (a : ActId), s.dev.rd F.sqrStat_state a.val ≠ 0 →
    Brings (.sequencerAbort a) s fun d =>
      d.rd F.sqrStat_state a.val = 0 ∧ d.rd F.sqrStat_cause a.val = 1 ∧ (d.seq a.val).ended = some (1, 0) ∧
      (d.seq a.val).permit = [] ∧ (d.chn (2 * a.val)).wg = false ∧ (d.chn (2 * a.val + 1)).wg = false)

/-- The control stores (R197, R198, R200, R402).  The customer enable is set, with the customer regions measured anew, and cleared.  A
read of a legal size returns the store.  A customer word whose upper half is written in one access, while cust_en and in_cust are 0 and
no injection is armed, is committed with the latched lower half, answers no error and passes parity.  A repair from a shadow that is not
poisoned takes the recorded word out of those that fail parity and changes no register. -/
def Obligations.ControlStoreRowsComplete : Prop :=
  (∀ (s : State) (rq : Requester) (a : ActId),
    Brings (.sqrCustEn rq a true) s fun d =>
      d.flag F.sqrCtl_cust_en a.val = true ∧ d.sec.custHash = some (customerHash s.mem)) ∧
  (∀ (s : State) (rq : Requester) (a : ActId), Gives (.sqrCustEn rq a false) s (s.dev.setFlag F.sqrCtl_cust_en false a.val)) ∧
  (∀ (s : State) (rq : Requester) (a : ActId) (off n : Nat), off < 0x40000 → legalSize off n = true →
    Gives (.controlStoreWrite rq a off (.rd n)) s (s.dev.emit (.bus (reqNum rq) true (memRead s.mem (csBase a.val + off) n)))) ∧
  (∀ (s : State) (rq : Requester) (a : ActId) (w : Nat) (data : BitVec 64), 6144 ≤ w → w < 8192 →
    s.dev.flag F.sqrCtl_cust_en a.val = false → s.dev.flag F.sqrStat_in_cust a.val = false → s.dev.flag F.eccInj_armed = false →
    ∃ d, GivesMem (.controlStoreWrite rq a (32 * w + 8) (.wr 8 data)) s d
        (commitWord s.mem a.val w ((s.dev.seq a.val).latch % 2 ^ 64 + data.toNat * 2 ^ 64)) ∧
      (∀ f i j, d.rd f i j = s.dev.rd f i j) ∧ d.out = .bus (reqNum rq) true 0 :: s.dev.out ∧ badFields d a.val w = 0) ∧
  (∀ (s : State) (a : ActId),
    Brings (.controlStoreRepair a false) s fun d =>
      badFields d a.val (s.dev.rd F.sqrMc_addr a.val) = 0 ∧ (d.seq a.val).repaired.contains (s.dev.rd F.sqrMc_addr a.val) = true ∧
      ∀ f i j, d.rd f i j = s.dev.rd f i j)

/-- The lanes of a servo pair (R249, R252, R257, R260-R262, R265).  On a lane that follows head a, not LOST and not retracted: a
valid sample leaves the head's position (track, PES and the velocity times its age, saturated), no missing samples and, from the
second in a row, its servo valid, head b's invalid; 8 missing samples make the lane LOST, with its event; a LOST lane with sg open
tracks again after 4 valid samples; lost for 256 samples it is retracted with cause 2; go outside a seek applies the targets and
seeks where the move is longer than capture_trk, else tracks; go during a seek keeps both targets for the next sample.  A twin lane
whose head a alone is at full scale splits and follows head b, with head a's last command; a tracking lane within the limit for
ontrack_n samples is on track, a twin one with its commands kept as offsets; a trace stops after its last sample. -/
def Obligations.ServoLaneRowsComplete : Prop :=
  (∀ (s : State) (n : HdaId) (l : Fin 2) (sa sb : ServoSample) (uVcm : Int),
    s.dev.rd F.sscLaneCtl_follow n.val l.val = 0 → laneState s.dev n.val l.val ≠ 3 →
    (s.dev.servo n.val).retracted.testBit l.val = false → sampleOk sa = true →
    Brings (.servoSample n l sa sb uVcm) s fun d =>
      (d.lane n.val l.val).a.miss = 0 ∧ (d.lane n.val l.val).a.good = min 4 ((s.dev.lane n.val l.val).a.good + 1) ∧
      (d.lane n.val l.val).a.y = (satNode lo32 hi32 ((sa.track : Int) * 1024 +
        (satNode (-512) 511 sa.pes).1 + sa.vel * sa.age / 200000)).1 ∧
      ((d.chn (laneChn n.val l.val 0)).servoOk = true ↔ 1 ≤ (s.dev.lane n.val l.val).a.good) ∧
      (d.chn (laneChn n.val l.val 1)).servoOk = false) ∧
  (∀ (s : State) (n : HdaId) (l : Fin 2), s.dev.rd F.sscLaneCtl_follow n.val l.val = 0 → laneState s.dev n.val l.val ≠ 3 →
    laneState s.dev n.val l.val ≠ 0 → (s.dev.servo n.val).retracted.testBit l.val = false → 8 ≤ (s.dev.lane n.val l.val).a.miss →
    Brings (.laneLost n l) s fun d =>
      laneState d n.val l.val = 3 ∧ d.flag F.sscLaneStat_on_track n.val l.val = false ∧ (d.lane n.val l.val).lostFor = 0 ∧
      (d.chn (laneChn n.val l.val 0)).servoOk = false ∧ d.out.head? = some (.event evLaneLost (laneAct n.val l.val))) ∧
  (∀ (s : State) (n : HdaId) (l : Fin 2), s.dev.rd F.sscLaneCtl_follow n.val l.val = 0 → laneState s.dev n.val l.val = 3 →
    (s.dev.chn (laneChn n.val l.val 0)).sgSearch = true → 4 ≤ (s.dev.lane n.val l.val).a.good →
    Gives (.laneReacquired n l) s ((s.dev.wr F.sscLaneStat_state 2 n.val l.val).updLane n.val l.val fun z =>
      { z with lostFor := 0, bemfLaw := false })) ∧
  (∀ (s : State) (n : HdaId) (l : Fin 2), laneState s.dev n.val l.val = 3 → 256 ≤ (s.dev.lane n.val l.val).lostFor →
    (s.dev.servo n.val).retracted.testBit l.val = false →
    Gives (.laneLostRetract n l) s (recomputeBound (emergencyRetract s.dev n.val (2 ^ l.val) 2))) ∧
  (∀ (s : State) (n : HdaId) (l : Fin 2), s.dev.rd F.sscLaneCtl_follow n.val l.val = 2 → (s.dev.lane n.val l.val).splitHead = none →
    strokeOut s.dev n.val l.val (s.dev.lane n.val l.val).a = true → strokeOut s.dev n.val l.val (s.dev.lane n.val l.val).b = false →
    Brings (.pairSplit n l) s fun d =>
      (d.lane n.val l.val).splitHead = some 1 ∧ (d.lane n.val l.val).maA = (s.dev.lane n.val l.val).a.lastMa ∧
      d.flag F.sscLaneStat_split n.val l.val = true ∧ d.out = .event evSplit (laneAct n.val l.val) :: s.dev.out) ∧
  (∀ (s : State) (n : HdaId) (l : Fin 2) (ta : Int), s.dev.rd F.sscLaneCtl_follow n.val l.val = 0 →
    (s.dev.servo n.val).retracted.testBit l.val = false → laneState s.dev n.val l.val ≠ 3 → laneState s.dev n.val l.val ≠ 1 →
    (s.dev.lane n.val l.val).splitHead = none → ta = ofTwos 32 (s.dev.rd F.sscTgt_tgt_a n.val l.val) →
    Brings (.laneGo n l) s fun d =>
      (d.lane n.val l.val).tgtA = ta ∧ (d.lane n.val l.val).tgtB = ofTwos 32 (s.dev.rd F.sscTgt_tgt_b n.val l.val) ∧
      d.flag F.sscLaneStat_on_track n.val l.val = false ∧
      laneState d n.val l.val =
        if s.dev.rd F.sscSeekLim_capture_trk n.val l.val * 1024 < (ta - (s.dev.lane n.val l.val).a.y).natAbs then 1 else 2) ∧
  (∀ (s : State) (n : HdaId) (l : Fin 2), s.dev.rd F.sscLaneCtl_follow n.val l.val = 0 →
    (s.dev.servo n.val).retracted.testBit l.val = false → laneState s.dev n.val l.val = 1 →
    (s.dev.lane n.val l.val).splitHead = none →
    Brings (.laneGo n l) s fun d =>
      (d.lane n.val l.val).next = some (ofTwos 32 (s.dev.rd F.sscTgt_tgt_a n.val l.val), ofTwos 32 (s.dev.rd F.sscTgt_tgt_b n.val l.val)) ∧
      (d.lane n.val l.val).tgtA = (s.dev.lane n.val l.val).tgtA ∧ (d.lane n.val l.val).prof = (s.dev.lane n.val l.val).prof ∧
      laneState d n.val l.val = 1 ∧ d.flag F.sscLaneStat_on_track n.val l.val = false) ∧
  (∀ (s : State) (n : HdaId) (l : Fin 2), laneState s.dev n.val l.val = 2 →
    s.dev.rd F.sscTrackCfg_ontrack_n n.val l.val ≤ (s.dev.lane n.val l.val).onCount →
    (s.dev.servo n.val).retracted.testBit l.val = false →
    Brings (.onTrack n l) s fun d =>
      d.flag F.sscLaneStat_on_track n.val l.val = true ∧
      (s.dev.rd F.sscLaneCtl_follow n.val l.val = 2 →
        tabGet (0, 0) (d.lane n.val l.val).ff (ffKey s.dev n.val l.val) =
          ((s.dev.lane n.val l.val).maA, (s.dev.lane n.val l.val).maB))) ∧
  (∀ (s : State) (n : HdaId) (unitB : Bool), (s.dev.sscUnit n.val unitB.toNat).post = some 0 →
    Gives (.traceStop n unitB) s ((s.dev.setFlag F.sscTraceStat_stopped true (2 * n.val + unitB.toNat)).updUnit n.val unitB.toNat
      fun u => { u with post := none }))

/-- The units of a servo pair (R250, R266-R271).  With both units done and equal, no held output, no PSL fault and a driven
slot, lane 1's commands go out in a frame with its counter and CRC and the run of mismatches ends; after 16 mismatches the
standby is resynchronised and the next sample not compared; an overrun fault of a REDUNDANT pair with a fit standby that did not
overrun with it switches the roles with cause 2 into PROBATION, the other lanes held; a due exchange switches the roles with cause
1, at once where nothing blocks it and at the latest after 2^16 samples; an unfit standby degrades a REDUNDANT pair with its event;
2^16 samples of PROBATION without an overrun, and 2^20 clean samples of DEGRADED with clock and law store good, end in REDUNDANT. -/
def Obligations.ServoUnitRowsComplete : Prop :=
  (∀ (s : State) (n : HdaId) (ln : Lane) (cycles : Nat), ln = s.dev.lane n.val 1 → laneState s.dev n.val 0 ≠ 0 →
    s.dev.slotDrive n.val = .driven → s.dev.flag F.pslStat_psl_fault n.val = false → (s.dev.servo n.val).hold = [] → (s.dev.servo n.val).skipCmp = false →
    Brings (.servoOutputInstant n 1 true true (0, 0) cycles) s fun d =>
      d.out = .psl n.val (pslWord 2 (s.dev.servo n.val).seqNo (activeUnit s.dev n.val) false
        [toTwos 16 ln.vcm, toTwos 16 ln.maA, toTwos 16 ln.maB]) :: s.dev.out ∧
      (d.lane n.val 1).sentVcm = ln.vcm ∧ (d.lane n.val 1).sentA = ln.maA ∧ (d.lane n.val 1).sentB = ln.maB ∧
      (d.servo n.val).mismatch = 0 ∧ (d.servo n.val).seqNo = ((s.dev.servo n.val).seqNo + 1) % 16) ∧
  (∀ (s : State) (n : HdaId), 16 ≤ (s.dev.servo n.val).mismatch →
    Brings (.standbyResync n) s fun d =>
      (d.servo n.val).mismatch = 0 ∧ (d.servo n.val).skipCmp = true ∧ (d.servo n.val).dirty = true ∧
      d.rd F.sscCmpStat_resyncs n.val = satTo F.sscCmpStat_resyncs.w (s.dev.rd F.sscCmpStat_resyncs n.val + 1)) ∧
  (∀ (s : State) (n : HdaId) (l : Nat), faultLane s.dev n.val (activeUnit s.dev n.val) = some l → pairState s.dev n.val = 0 →
    s.dev.flag F.sscRole_standby_fit n.val = true → standbyBad s.dev n.val = false →
    (ovrOf (s.dev.sscUnit n.val (standbyUnit s.dev n.val)) l).headD false = false →
    Brings (.overrunFault n) s fun d =>
      activeUnit d n.val = standbyUnit s.dev n.val ∧ pairState d n.val = 1 ∧ d.flag F.sscRole_standby_fit n.val = false ∧
      d.rd F.sscSwap_last_cause n.val = 2 ∧ (d.servo n.val).hold = [0, 1, 2].filter (fun x => some x != some l)) ∧
  (∀ (s : State) (n : HdaId), standbyBad s.dev n.val = true → pairState s.dev n.val = 0 →
    Brings (.standbyUnfit n) s fun d =>
      pairState d n.val = 2 ∧ d.flag F.sscRole_standby_fit n.val = false ∧ (d.servo n.val).clean = 0 ∧
      d.out = .event evStandbyUnfit n.val :: s.dev.out) ∧
  (∀ (s : State) (n : HdaId), exchangeDue s.dev n.val = true → exchangeBlocked s.dev n.val = false →
    Brings (.roleExchange n) s fun d =>
      activeUnit d n.val = standbyUnit s.dev n.val ∧ pairState d n.val = 0 ∧ d.rd F.sscSwap_to_swap n.val = 0x100000 ∧
      d.flag F.sscSwap_deferred n.val = false ∧ d.rd F.sscSwap_last_cause n.val = 1 ∧ (d.servo n.val).hold = [0, 1, 2]) ∧
  (∀ (s : State) (n : HdaId), exchangeDue s.dev n.val = true → 0x10000 ≤ (s.dev.servo n.val).deferFor →
    Brings (.exchangeDeferExpiry n) s fun d =>
      activeUnit d n.val = standbyUnit s.dev n.val ∧ d.rd F.sscSwap_to_swap n.val = 0x100000 ∧
      d.flag F.sscSwap_deferred n.val = false ∧ d.rd F.sscSwap_last_cause n.val = 1) ∧
  (∀ (s : State) (n : HdaId), pairState s.dev n.val = 1 → 0x10000 ≤ (s.dev.servo n.val).clean → (s.dev.servo n.val).dirty = false →
    Gives (.probationEnd n) s ((s.dev.wr F.sscRole_state 0 n.val).setFlag F.sscRole_standby_fit true n.val)) ∧
  (∀ (s : State) (n : HdaId), pairState s.dev n.val = 2 → 0x100000 ≤ (s.dev.servo n.val).clean →
    (s.dev.sscUnit n.val (standbyUnit s.dev n.val)).clkOk = true → (s.dev.sscUnit n.val (standbyUnit s.dev n.val)).lawErr = false →
    Gives (.degradedRecovery n) s
      (((s.dev.wr F.sscRole_state 0 n.val).setFlag F.sscRole_standby_fit true n.val).wr F.sscSwap_to_swap 0x100000 n.val))

/-- Retracts (R271, R272, R293).  A firmware retract is the emergency retract of its mask with cause 3; while a retracted actuator is
not parked, without a PSL fault and in a driven slot, the retract frame repeats and no register changes; a pair in RETRACT whose
heads are parked, unit A's clock running, restarts in HS4 with unit A active and the standby fit; outside RETRACT a retracted
actuator whose heads are parked is released. -/
def Obligations.RetractRowsComplete : Prop :=
  (∀ (s : State) (n : HdaId) (mask : Fin 4),
    Gives (.firmwareRetract n mask) s (recomputeBound (emergencyRetract s.dev n.val mask.val 3))) ∧
  (∀ (s : State) (n : HdaId), (s.dev.servo n.val).retracted ≠ 0 → retractParked s.dev n.val = false →
    s.dev.flag F.pslStat_psl_fault n.val = false → s.dev.slotDrive n.val = .driven →
    Brings (.retractFrameRepeat n) s fun d =>
      d.out = .psl n.val (pslWord 4 (s.dev.servo n.val).seqNo (activeUnit s.dev n.val) false [(s.dev.servo n.val).retracted,
        s.dev.rd F.sscRetract_retract_ma n.val, s.dev.rd F.sscRetract_retract_ms n.val,
        s.dev.rd F.sscRetract_retract_hold_ma n.val]) :: s.dev.out ∧
      ∀ f i j, d.rd f i j = s.dev.rd f i j) ∧
  (∀ (s : State) (n : HdaId), pairState s.dev n.val = 3 → retractParked s.dev n.val = true → (s.dev.servo n.val).uA.clkOk = true →
    Brings (.retractRestart n) s fun d =>
      pairState d n.val = 0 ∧ activeUnit d n.val = 0 ∧ d.flag F.sscRole_standby_fit n.val = true ∧
      (d.servo n.val).retracted = 0 ∧ d.rd F.pwrHs_state 0 n.val = 4 ∧ d.flag F.pwrHs_in_transition 0 n.val = false) ∧
  (∀ (s : State) (n : HdaId) (l : Fin 2) (mask : Fin 4), mask.val = 2 ^ l.val → pairState s.dev n.val ≠ 3 →
    (s.dev.servo n.val).retracted.testBit l.val = true → s.dev.bit F.pslStat_parked l.val n.val = true →
    Gives (.retractRelease n mask) s ((s.dev.wr F.sscLaneStat_state 0 n.val l.val).updServo n.val fun x =>
      { x with retracted := x.retracted - 2 ^ l.val }))

/-- Starting and driving a spindle (R263, R277-R280, R283-R285, R295, R439).  The first HDA in line takes a share while one is free;
start in mode 1 of a present, turning HDA catches it; a start without crossing aligns at step 0, an alignment goes open loop, the
hand-over drives from 300 rpm.  Under the observer, without held output, chopper fault, spin-up or share, and with both units done,
a tick takes the speed, moves the set-point by one ramp step and polls the power stage; while catching, a crossing within 1/6 step
counts as agreeing; a searched window of at least win_min that finds its crossing takes the next step, the gates of motoring or
generation and the slope code over its edges.  Off and coast release the bridge, short brake brakes a turning disk; the manual speed
in range is set; the demand of the transfers of the last second is reported.  These last rows hold in every state. -/
def Obligations.SpindleDriveRowsComplete : Prop :=
  (∀ (s : State) (n : HdaId), sharesHeld s.dev < shareCount s.dev → s.dev.power.shareWait.head? = some n.val →
    Brings (.spinupShareGrant n) s fun d =>
      (d.spin n.val).share = shareWatts s.dev ∧ (d.spin n.val).starting = true ∧
      d.power.shareWait = s.dev.power.shareWait.filter (fun k => k != n.val) ∧ ∀ f i j, d.rd f i j = s.dev.rd f i j) ∧
  (∀ (s : State) (n : HdaId), s.dev.rd F.spnCtl_mode n.val = 1 → s.dev.hdaPresent n.val = true →
    Brings (.spindleStart n true) s fun d =>
      spinState d n.val = 4 ∧ d.flag F.spnStat_ov2 n.val = false ∧ (d.spin n.val).spinup = true ∧ (d.spin n.val).agree = 0 ∧
      (d.spin n.val).again = false ∧ (d.spin n.val).unloading = false) ∧
  (∀ (s : State) (n : HdaId), (s.dev.spin n.val).starting = true →
    spinState s.dev n.val = 0 → s.dev.slotDrive n.val = .driven →
    Gives (.startNoCrossing n) s (((s.dev.updSpin n.val fun x => { x with starting := false, step := 0 }).wr F.spnStat_state 1 n.val).emit
      (.pin (pinGate n.val) 0b100100))) ∧
  (∀ (s : State) (n : HdaId), spinState s.dev n.val = 1 → s.dev.slotDrive n.val = .driven →
    Gives (.alignDone n) s ((s.dev.wr F.spnStat_state 2 n.val).emit (.pin (pinGate n.val) (gateOf (s.dev.spin n.val).step)))) ∧
  (∀ (s : State) (n : HdaId), spinState s.dev n.val = 2 →
    Brings (.openLoopHandover n) s fun d =>
      spinState d n.val = 3 ∧ (d.spin n.val).setp = 300 * 10 ^ 12 ∧ (d.spin n.val).rate = 0 ∧ (d.spin n.val).bad = 0 ∧
      (d.spin n.val).off = 0 ∧ (d.spin n.val).lost = false ∧ (d.spin n.val).n0 = 300) ∧
  (∀ (s : State) (n : HdaId) (speed vbus : Nat) (ibus : Int) (law : TickLaw) (r : Int × Int), spinState s.dev n.val = 3 →
    (s.dev.servo n.val).hold = [] → s.dev.flag F.spnStat_chop_fault n.val = false → (s.dev.spin n.val).spinup = false →
    (s.dev.spin n.val).share = 0 → s.dev.flag F.pslStat_psl_fault n.val = false → s.dev.slotDrive n.val = .driven →
    r = rampStep (s.dev.spin n.val).setp (s.dev.spin n.val).rate ((s.dev.rd F.spnStat_command n.val : Int) * 10 ^ 12)
      (s.dev.rd F.sscRamp_ramp_rate n.val) (s.dev.rd F.sscRamp_ramp_accel n.val) →
    Brings (.spindleTick n speed vbus ibus (true, true) law) s fun d =>
      d.rd F.spnStat_speed n.val = speed % 2 ^ F.spnStat_speed.w ∧ spinState d n.val = 3 ∧ (d.spin n.val).setp = r.1 ∧
      (d.spin n.val).rate = r.2 ∧ 
      d.out = .psl n.val (pslWord 3 (s.dev.servo n.val).seqNo (activeUnit s.dev n.val) false []) :: s.dev.out) ∧
  (∀ (s : State) (n : HdaId) (err : Int), spinState s.dev n.val = 4 → s.dev.slotDrive n.val = .driven →
    Brings (.bemfCrossing n err) s fun d =>
      (d.spin n.val).agree = (if err.natAbs * 6 ≤ 65536 then min 6 ((s.dev.spin n.val).agree + 1) else 0) ∧
      spinState d n.val = 4) ∧
  (∀ (s : State) (n : HdaId) (window step code : Nat), s.dev.rd F.spnComm_win_min n.val * 1000 ≤ window →
    step = ((s.dev.spin n.val).step + 1) % 6 → s.dev.slotDrive n.val = .driven →
    code = s.dev.rd F.spnSlope_code n.val (s.dev.rd F.sscLaneStat_band n.val 0) →
    Brings (.commutation n window true false) s fun d =>
      (d.spin n.val).step = step ∧ node d n.val 137 = 0 ∧ (d.spin n.val).bad = (s.dev.spin n.val).bad ∧
      (spinState s.dev n.val = 2 → d.out = .pin (pinSlope n.val) 0 :: .pin (pinGate n.val) (gateOf step) ::
        .pin (pinSlope n.val) code :: s.dev.out) ∧
      (spinState s.dev n.val = 5 → d.out = .pin (pinSlope n.val) 0 ::
        .pin (pinGate n.val) (gateOf step ||| ((gateOf step &&& 0b101010) >>> 1)) :: .pin (pinSlope n.val) code :: s.dev.out)) ∧
  (∀ (s : State) (n : HdaId), Brings (.spindleModeOff n) s fun d =>
    d.rd F.spnCtl_mode n.val = 0 ∧ spinState d n.val = (if s.dev.rd F.spnStat_speed n.val = 0 then 0 else 7) ∧
    (d.spin n.val).starting = false ∧ (d.spin n.val).spinup = false) ∧
  (∀ (s : State) (n : HdaId), Gives (.spindleModeRun n) s (recomputeBound (s.dev.wr F.spnCtl_mode 1 n.val))) ∧
  (∀ (s : State) (n : HdaId), Brings (.spindleModeCoast n) s fun d =>
    d.rd F.spnCtl_mode n.val = 2 ∧ spinState d n.val = (if s.dev.rd F.spnStat_speed n.val = 0 then 0 else 7) ∧
    (d.spin n.val).starting = false ∧ (d.spin n.val).spinup = false) ∧
  (∀ (s : State) (n : HdaId), Brings (.spindleModeShortBrake n) s fun d =>
    d.rd F.spnCtl_mode n.val = 3 ∧ spinState d n.val = (if s.dev.rd F.spnStat_speed n.val = 0 then 0 else 6)) ∧
  (∀ (s : State) (n : HdaId) (on : Bool) (rpm : Nat), 3600 ≤ rpm → rpm ≤ 7200 →
    Gives (.spindleManual n on rpm) s
      (setCommand ((s.dev.setFlag F.spnCtl_manual on n.val).wr F.spnCtl_rpm_manual rpm n.val) n.val)) ∧
  (∀ (s : State) (n : HdaId) (up : Bool), Brings (.demandUpdate n up) s fun d =>
    d.rd F.spnDemand_demand n.val = (((tabGet [] s.dev.host.moved n.val).take 10).sum + if up then 999999 else 0) / 1000000 % 2 ^ F.spnDemand_demand.w ∧
    d.rd F.spnDemand_curve n.val = tabGet 0 s.dev.host.curves n.val % 2 ^ F.spnDemand_curve.w) ∧
  (∀ (s : State), Gives .boundRecompute s (recomputeBound s.dev))

/-- Faults of a spindle (R281, R282, R286-R288, R291, R292, R433).  A rotor under drive that R281 declares lost stops its HDA's
sequencers and is caught; six agreeing crossings lock it again at the speed found; a catch that fails counts a restart and unloads,
with short brake once parked.  For a slot that is not undeclared the chopper follows the bus; for a declared one ov1 raises its
event, ov2 coasts or brakes into HS4, a chopper fault takes its energy from the bound, a power-stage fault coasts into HS4 without a
share, a lost uplink frame counts, and a good frame without crc_err ends both error runs and reports the parked actuators. -/
def Obligations.SpindleFaultRowsComplete : Prop :=
  (∀ (s : State) (n : HdaId), spinState s.dev n.val = 3 → rotorGone s.dev n.val = true →
    Brings (.rotorLost n) s fun d =>
      spinState d n.val = 4 ∧ (d.spin n.val).lost = true ∧ (d.spin n.val).agree = 0 ∧ d.flag F.spnEvt_lost n.val = true ∧
      d.rd F.sqrStat_state (2 * n.val) = 0 ∧ d.rd F.sqrStat_state (2 * n.val + 1) = 0) ∧
  (∀ (s : State) (n : HdaId) (speed : Nat), spinState s.dev n.val = 4 → 6 ≤ (s.dev.spin n.val).agree →
    Brings (.rotorRelock n speed) s fun d =>
      spinState d n.val = 3 ∧ d.rd F.spnStat_speed n.val = speed % 2 ^ F.spnStat_speed.w ∧ (d.spin n.val).lost = false ∧
      (d.spin n.val).setp = (speed : Int) * 10 ^ 12) ∧
  (∀ (s : State) (n : HdaId), spinState s.dev n.val = 4 →
    Brings (.catchTimeout n) s fun d =>
      d.flag F.spnEvt_restart n.val = true ∧ (d.spin n.val).again = true ∧
      spinState d n.val = (if bothParked s.dev n.val then 6 else 7) ∧ d.rd F.pwrHs_state 0 n.val = 4 ∧
      d.rd F.pwrHs_step 0 n.val = 6) ∧
  (∀ (s : State) (n : HdaId), (s.dev.spin n.val).chop = false → s.dev.slotDrive n.val ≠ .highZ →
    Gives (.vbusChopOn n) s ((s.dev.updSpin n.val fun x => { x with chop := true }).emit (.pin (pinBrk n.val) 1))) ∧
  (∀ (s : State) (n : HdaId), (s.dev.spin n.val).chop = true → s.dev.slotDrive n.val ≠ .highZ →
    Gives (.vbusChopOff n) s ((s.dev.updSpin n.val fun x => { x with chop := false }).emit (.pin (pinBrk n.val) 0))) ∧
  (∀ (s : State) (n : HdaId), (s.dev.spin n.val).chop = true → s.dev.slotDrive n.val = .driven →
    Gives (.vbusOv1 n) s ((s.dev.setFlag F.spnEvt_ov1 true n.val).emit (.event evOv1 n.val))) ∧
  (∀ (s : State) (n : HdaId), s.dev.slotDrive n.val = .driven → Brings (.vbusOv2 n) s fun d =>
    d.flag F.spnStat_ov2 n.val = true ∧ d.flag F.spnEvt_ov2 n.val = true ∧ d.rd F.pwrHs_state 0 n.val = 4 ∧
    spinState d n.val = (if bothParked s.dev n.val then 6 else 7)) ∧
  (∀ (s : State) (n : HdaId), s.dev.slotDrive n.val = .driven → Brings (.chopperFault n) s fun d =>
    d.flag F.spnStat_chop_fault n.val = true ∧ d.flag F.spnEvt_chop_fault n.val = true ∧ d.rd F.pwrHoldR_energy 0 n.val = 0) ∧
  (∀ (s : State) (n : HdaId), s.dev.slotDrive n.val = .driven → Brings (.powerStageFault n) s fun d =>
    d.flag F.pslStat_fault_seen n.val = true ∧ spinState d n.val = 7 ∧ d.rd F.pwrHs_state 0 n.val = 4 ∧
    (d.spin n.val).share = 0) ∧
  (∀ (s : State) (n : HdaId), (s.dev.servo n.val).dlRun < 8 → (s.dev.servo n.val).ulRun < 7 →
    s.dev.slotDrive n.val = .driven →
    Brings (.pslUplinkFrame n none) s fun d =>
      (d.servo n.val).ulRun = (s.dev.servo n.val).ulRun + 1 ∧
      d.rd F.pslStat_ul_err n.val = satTo F.pslStat_ul_err.w (s.dev.rd F.pslStat_ul_err n.val + 1) ∧ d.out = s.dev.out) ∧
  (∀ (s : State) (n : HdaId) (f : BitVec 96), pslGood f = true → f.getLsbD 8 = false →
    s.dev.slotDrive n.val = .driven →
    Brings (.pslUplinkFrame n (some f)) s fun d =>
      d.rd F.pslStat_parked n.val = f.toNat / 2 ^ 10 % 4 ∧ (d.servo n.val).ulRun = 0 ∧ (d.servo n.val).dlRun = 0)

/-- Hold-up (R299-R306, R441).  A PWR_GOOD low or a bus sag starts Fire Drill with its cause and elapsed 0, and before step 4 of the
boot sequence only ends the start; an HDA that has flushed leaves the flushing ones and coasts, or is stopped already; flushed, with
every present HDA's heads parked, the drill ends with their lanes parked; in HS0 an HDA with the anchor's hash of its sections
replays its journal and one with another hash is refused; a replay that ended leaves the HDA's locker empty and its anchor's epoch
one higher. -/
def Obligations.HoldUpRowsComplete : Prop :=
  (∀ (s : State) (low sag : Bool), s.dev.rd F.pwrHoldStat_state = 0 → 4 ≤ s.dev.rd F.glbStart_stage → low || sag →
    Brings (.fireDrillStart low sag) s fun d =>
      2 ≤ d.rd F.pwrHoldStat_state ∧ d.rd F.pwrHoldStat_cause = low.toNat + 2 * sag.toNat ∧ d.rd F.pwrHoldStat_elapsed = 0 ∧
      d.rd F.glbPins_pwr_good = (if low then 0 else s.dev.rd F.glbPins_pwr_good)) ∧
  (∀ (s : State) (sag : Bool), s.dev.rd F.pwrHoldStat_state = 0 → s.dev.rd F.glbStart_stage < 4 →
    Gives (.fireDrillStart true sag) s ((s.dev.setFlag F.glbPins_pwr_good false).wr F.glbStart_stage 0)) ∧
  (∀ (s : State) (n : HdaId) (written : Nat), s.dev.reset.flushing.contains n.val = true →
    Brings (.fireDrillFlushEnd n written) s fun d =>
      d.reset.flushing = s.dev.reset.flushing.filter (fun m => m != n.val) ∧
      spinState d n.val = (if s.dev.rd F.spnStat_speed n.val = 0 then 0 else 7)) ∧
  (∀ (s : State), s.dev.rd F.pwrHoldStat_state = 3 → (presentHdas s.dev).all (headsParked s.dev) = true →
    Brings .fireDrillParked s fun d => d.rd F.pwrHoldStat_state = 4 ∧
      ∀ n ∈ presentHdas s.dev, laneState d n 0 = 0 ∧ laneState d n 1 = 0) ∧
  (∀ (s : State) (n : HdaId), s.dev.host.replaying.contains n.val = true → s.dev.rd F.pwrHs_state 0 n.val = 0 →
    s.dev.rd F.pwrHs_in_transition 0 n.val = 0 → tabGet 0 s.dev.host.lockerHash n.val = sectionHash s.dev n.val →
    Brings (.journalReplay n) s fun d =>
      (d.spin n.val).replayed = true ∧ d.host.locker = s.dev.host.locker ∧ d.out = s.dev.out ∧ ∀ f i j, d.rd f i j = s.dev.rd f i j) ∧
  (∀ (s : State) (n : HdaId), s.dev.host.replaying.contains n.val = true → s.dev.rd F.pwrHs_state 0 n.val = 0 →
    s.dev.rd F.pwrHs_in_transition 0 n.val = 0 → s.dev.host.locker.any (fun b => b.hda == n.val) = true →
    tabGet 0 s.dev.host.lockerHash n.val ≠ sectionHash s.dev n.val →
    Brings (.journalReplay n) s fun d =>
      d.host.replaying.contains n.val = false ∧ d.host.refusedHda.contains n.val = true ∧ d.host.locker = s.dev.host.locker) ∧
  (∀ (s : State) (n : HdaId) (skipped : List Nat), s.dev.host.replaying.contains n.val = true →
    (s.dev.spin n.val).replayed = true →
    Brings (.journalReplayDone n skipped) s fun d =>
      d.host.replaying.contains n.val = false ∧ d.host.locker = s.dev.host.locker.filter (fun b => b.hda != n.val) ∧
      tabGet 0 d.host.anchors n.val = tabGet 0 s.dev.host.anchors n.val + 1 ∧ (d.spin n.val).replayed = false)

/-- The boot chain (R349, R350, R376, R377, R385, R386, R440).  With OTP and ROM good, a due COLD_START (after a thermal stop below
85 °C) and a THERMAL_RESTART below 85 °C with auto_restart enter stage 3 with the SRAM wipe begun and no context; without a
life-cycle transition a cold start keeps the locker journals, and a restart keeps the cause in phase 2.  The end of the SRAM wipe in
stage 3 loads the control stores and begins the DRAM wipe in stage 5; the end of the DRAM wipe leaves stage 7; a stop's SRAM wipe
that ends last leaves the stop in its step 6; BOOT_DONE in stage 7 leaves stage 8 with its time, and host links that nothing holds
train to the lesser of the structure's and the partner's width and generation. -/
def Obligations.BootRowsComplete : Prop :=
  (∀ (s : State) (env : BootEnv), startDue s.dev = true → (s.dev.reset.waitCool = true → env.dieMaxC < 85) →
    env.otpOk = true → env.romOk = true →
    Brings (.coldStart env) s fun d =>
      d.rd F.glbStart_stage = 3 ∧ d.flag F.glbStart_boot_done = false ∧ d.rd F.memWipe_state = 1 ∧ d.reset.wipeSram = true ∧
      d.reset.held = false ∧ d.host.ctxs = [] ∧ (s.dev.sec.work = none → d.host.locker = s.dev.host.locker)) ∧
  (∀ (s : State) (env : BootEnv), s.dev.reset.waitCool = true → env.dieMaxC < 85 → s.dev.flag F.thmCfg_auto_restart = true →
    env.otpOk = true → env.romOk = true →
    Brings (.thermalRestart env) s fun d =>
      d.rd F.glbStart_stage = 3 ∧ d.rd F.memWipe_state = 1 ∧ d.flag F.thmEvt_shutdown = true ∧ d.rd F.thmStat_phase = 2 ∧
      d.rd F.thmStat_cause = s.dev.rd F.thmStat_cause % 2 ^ F.thmStat_cause.w ∧ d.reset.waitCool = false) ∧
  (∀ s : State, s.dev.reset.wipeSram = true → s.dev.rd F.glbStart_stage = 3 →
    ∃ d, GivesMem .sramWipeDone s d (loadStores d.struct.sections []) ∧
      d.rd F.glbStart_stage = 5 ∧ d.reset.wipeSram = false ∧ d.reset.wipeDram = true) ∧
  (∀ s : State, s.dev.reset.wipeDram = true → s.dev.rd F.glbStart_stage = 5 → ∀ ms : Nat,
    ∃ d, GivesMem (.dramWipeDone ms) s d (loadStores d.struct.sections s.mem) ∧
      d.rd F.glbStart_stage = 7 ∧ d.reset.wipeDram = false) ∧
  (∀ s : State, s.dev.reset.wipeSram = true → s.dev.reset.wipeDram = false → s.dev.reset.stage = 5 → s.dev.rd F.glbStart_stage ≠ 3 →
    ∃ d, GivesMem .sramWipeDone s d [] ∧ d.reset.stage = 6) ∧
  (∀ (s : State) (ms : Nat), s.dev.rd F.glbStart_stage = 7 →
    Brings (.bootDone ms) s fun d =>
      d.rd F.glbStart_stage = 8 ∧ d.flag F.glbStart_boot_done = true ∧ d.rd F.glbStart_boot_ms = ms % 2 ^ F.glbStart_boot_ms.w ∧
      ∀ h : HstId, hostUsed s.dev h.val = true → s.dev.bit F.glbPins_perst_n h.val = true → s.dev.reset.lost = [] →
        s.dev.rd F.loop_depth h.val = 0 → (d.port h.val).linkUp = true ∧
        (d.port h.val).width = min (s.dev.port h.val).offer.1 (s.dev.secField 2 0 (8 * h.val + 2) 1) ∧
        (d.port h.val).gen = min (s.dev.port h.val).offer.2 (s.dev.secField 2 0 (8 * h.val + 1) 1))

/-- Host-visible resets, enabling and shutdown (R71, R91-R94, R376, R417, R438, R440).  PERST_N high leaves the pin set, and after
BOOT_DONE, outside CS2, without a lost clock or loop-back, trains a used port to the lesser width and generation; a controller reset
leaves the port disabled, with its link unless PERST_N takes it down, no context, firmware download or staging image of the port; an
NVM subsystem reset disables both ports; a used port with its link is enabled; an enabled port becomes ready outside an activation,
with the dump's notice told; a shutdown notification of an enabled port destages, and completes once no data is dirty.  An orderly
reset of a running device outside a stop begins its stop with every host link down, after a thermal stop asks for the restart, and
its flush ends in the wipes or, in a thermal shutdown, in waiting to cool. -/
def Obligations.ResetRowsComplete : Prop :=
  (∀ (s : State) (h : HstId) (w g : Nat),
    Brings (.perstDeassert h w g) s fun d => d.bit F.glbPins_perst_n h.val = true ∧
      (s.dev.rd F.pwrCs_state ≠ 2 → hostUsed s.dev h.val = true → s.dev.flag F.glbStart_boot_done = true →
        s.dev.reset.lost = [] → s.dev.rd F.loop_depth h.val = 0 →
        (d.port h.val).linkUp = true ∧ (d.port h.val).width = min w (s.dev.secField 2 0 (8 * h.val + 2) 1) ∧
        (d.port h.val).gen = min g (s.dev.secField 2 0 (8 * h.val + 1) 1))) ∧
  (∀ (s : State) (h : HstId) (byPerst : Bool),
    Brings (.controllerReset h byPerst) s fun d =>
      (d.port h.val).enabled = false ∧ (d.port h.val).ready = false ∧
      (byPerst = true → (d.port h.val).linkUp = false ∧ d.bit F.glbPins_perst_n h.val = false) ∧
      (byPerst = false → (d.port h.val).linkUp = (s.dev.port h.val).linkUp) ∧
      (∀ x ∈ d.host.ctxs, ofPort h.val x = false) ∧ d.fw.staging = [] ∧ d.struct.stagingOwner ≠ some h.val) ∧
  (∀ s : State,
    Brings .nvmSubsystemReset s fun d => ∀ h : HstId, (d.port h.val).enabled = false ∧ (d.port h.val).ready = false) ∧
  (∀ (s : State) (h : HstId), hostUsed s.dev h.val = true → (s.dev.port h.val).linkUp = true →
    Gives (.controllerEnable h) s (s.dev.updPort h.val fun p => { p with enabled := true })) ∧
  (∀ (s : State) (h : HstId), (s.dev.port h.val).enabled = true → s.dev.rd F.glbStructStat_activate < 2 →
    Brings (.controllerReady h) s fun d => (d.port h.val).ready = true ∧ d.card.told = true ∧
      (s.dev.card.told = true → d = s.dev.updPort h.val fun p => { p with ready := true })) ∧
  (∀ (s : State) (h : HstId) (abrupt : Bool), (s.dev.port h.val).enabled = true →
    Gives (.shutdownNotification h abrupt) s (destageAll (s.dev.updPort h.val fun p => { p with shst := 1 }) abrupt)) ∧
  (∀ (s : State) (h : HstId), (s.dev.port h.val).shst = 1 → allClean s.dev = true →
    Gives (.shutdownComplete h) s (s.dev.updPort h.val fun p => { p with shst := 2 })) ∧
  (∀ s : State, s.dev.reset.waitCool = false → s.dev.reset.held = false → stopping s.dev = false → s.dev.rd F.glbStart_stage = 8 →
    Brings .orderlyReset s fun d => d.reset.stage = 3 ∧ d.reset.thermal = false ∧ d.flag F.glbPins_sys_rst_n = false ∧
      ∀ h : HstId, (d.port h.val).linkUp = false ∧ (d.port h.val).enabled = false) ∧
  (∀ s : State, s.dev.reset.waitCool = true →
    Brings .orderlyReset s fun d => d.therm.restarting = true ∧ d.flag F.glbPins_sys_rst_n = false ∧ d.reset = s.dev.reset) ∧
  (∀ (s : State) (u : List Nat), s.dev.reset.stage = 3 → s.dev.reset.thermal = false →
    Brings (.orderlyResetFlushEnd u) s fun d => d.reset.stage = 5 ∧ d.reset.wipeSram = true ∧ d.reset.wipeDram = true ∧
      d.rd F.memWipe_state = 1) ∧
  (∀ (s : State) (u : List Nat), s.dev.reset.stage = 3 → s.dev.reset.thermal = true →
    Brings (.orderlyResetFlushEnd u) s fun d => d.reset.stage = 0 ∧ d.reset.waitCool = true)

/-- Power (R13, R31, R352-R363, R366).  A target evaluation outside CS2 whose conditions are met enters CS2 with every present domain
but PD_AON in RETAIN, and one in CS0 without them stays there with target 1 or 0; an idle time of a present, idle HDA is counted; the
step from HS0 to HS1 retains its actuators' domains that have no vote, empty FIFOs and no Fire Drill; a failed load is repeated once;
an idle actuator's vote is withdrawn; a domain that may enters RETAIN; a retained one wakes, and the accesses stalled on it are
performed; a firmware vote sets kind 2 alone of the domain votes; CS1 is entered where permitted; CS2 is left for CS1 with domains
1 - 10 running and the rest as they were; in PS0, unthrottled, a power above the limit removes two streams. -/
def Obligations.PowerRowsComplete : Prop :=
  (∀ (s : State) (deep : List HstId) (e : Dev), e = forEach (presentHdas s.dev) (syncVotes s.dev) evaluateHda →
    e.rd F.pwrCs_state ≠ 2 → cs2Ok (e.wr F.pwrCs_cs2_block (cs2Block e)) (deep.map (·.val)) = true →
    Brings (.powerTargetEvaluate deep) s fun d =>
      d.rd F.pwrCs_state = 2 ∧ d.rd F.pwrCs_target = 2 ∧ domState d 0 = domState e 0 ∧
      ∀ k, 1 ≤ k → k < 23 → domState d k = if domState e k = 2 then 2 else 1) ∧
  (∀ (s : State) (deep : List HstId) (e : Dev), e = forEach (presentHdas s.dev) (syncVotes s.dev) evaluateHda →
    e.rd F.pwrCs_state = 0 → cs2Ok (e.wr F.pwrCs_cs2_block (cs2Block e)) (deep.map (·.val)) = false →
    Brings (.powerTargetEvaluate deep) s fun d => d.rd F.pwrCs_state = 0 ∧
      d.rd F.pwrCs_target = (if cs1Ok (e.wr F.pwrCs_cs2_block (cs2Block e)) then 1 else 0)) ∧
  (∀ (s : State) (n : HdaId) (level : Fin 5), hdaIdle s.dev n.val = true → s.dev.hdaPresent n.val = true →
    Gives (.hdaIdleTimeout n level) s (evaluateHda (syncVotes (s.dev.updPower fun p =>
      { p with idle := tabPut 0 p.idle n.val (max (tabGet 0 p.idle n.val) level.val) })) n.val)) ∧
  (∀ (s : State) (n : HdaId), s.dev.flag F.pwrHs_in_transition 0 n.val = true → s.dev.rd F.pwrHs_step 0 n.val = 1 →
    s.dev.rd F.pwrHs_state 0 n.val = 0 → s.dev.rd F.pwrHs_target 0 n.val = 1 →
    Brings (.hdaStepEnd n true []) s fun d =>
      d.rd F.pwrHs_state 0 n.val = 1 ∧ d.flag F.pwrHs_in_transition 0 n.val = false ∧ d.rd F.pwrHs_step 0 n.val = 0 ∧
      ∀ l : Fin 2, domState s.dev (domChp (2 * n.val + l.val)) = 0 → hasVote s.dev (domChp (2 * n.val + l.val)) = false →
        fifosEmpty s.dev (domChp (2 * n.val + l.val)) = true → inDrill s.dev = false →
        domState d (domChp (2 * n.val + l.val)) = 1) ∧
  (∀ (s : State) (n : HdaId), s.dev.flag F.pwrHs_in_transition 0 n.val = true → s.dev.rd F.pwrHs_step 0 n.val = 3 →
    s.dev.power.reload.contains n.val = false →
    Gives (.hdaStepEnd n false []) s (beginStep (s.dev.updPower fun p => { p with reload := p.reload ++ [n.val] }) n.val)) ∧
  (∀ (s : State) (a : ActId), actWork s.dev a.val = false → permittedOf s.dev (a.val / 2) ≠ 0 →
    Gives (.voteWithdrawTimer a) s (s.dev.setBit F.pwrVote_dom (domChp a.val) false 0 0)) ∧
  (∀ (s : State) (dom : DomId), mayRetain s.dev dom.val = true →
    Gives (.domainRetainEntry dom) s (s.dev.wr F.pwrDom_dom 1 0 dom.val)) ∧
  (∀ (s : State) (dom : DomId), domState s.dev dom.val = 1 →
    GivesMem (.domainWake dom) s (releaseReady (s.dev.wr F.pwrDom_dom 0 0 dom.val) s.mem).1
      (releaseReady (s.dev.wr F.pwrDom_dom 0 0 dom.val) s.mem).2 ∧
    (s.dev.power.stalled = [] → Gives (.domainWake dom) s (s.dev.wr F.pwrDom_dom 0 0 dom.val))) ∧
  (∀ (s : State) (dom a b c e : Nat),
    Brings (.firmwareVote dom [a, b, c, e]) s fun d =>
      d.rd F.pwrVote_dom 0 2 = dom % 2 ^ F.pwrVote_dom.w ∧ d.rd F.pwrHvote_hda 0 8 = a % 2 ^ F.pwrHvote_hda.w ∧
      d.rd F.pwrHvote_hda 0 9 = b % 2 ^ F.pwrHvote_hda.w ∧ d.rd F.pwrHvote_hda 0 10 = c % 2 ^ F.pwrHvote_hda.w ∧
      d.rd F.pwrHvote_hda 0 11 = e % 2 ^ F.pwrHvote_hda.w ∧
      ∀ k : Fin 8, k ≠ 2 → d.rd F.pwrVote_dom 0 k.val = s.dev.rd F.pwrVote_dom 0 k.val) ∧
  (∀ s : State, s.dev.rd F.pwrCs_state = 0 → cs1Ok s.dev = true →
    Gives .cs1Entry s ((s.dev.wr F.pwrCs_state 1).wr F.pwrCs_target 1)) ∧
  (∀ (s : State) (cause : Fin 7), s.dev.rd F.pwrCs_state = 2 →
    Brings (.cs2Wake cause) s fun d => d.rd F.pwrCs_state = 1 ∧ d.rd F.pwrCs_target = 1 ∧
      (∀ k, 1 ≤ k → k ≤ 10 → domState s.dev k ≠ 2 → domState d k = 0) ∧
      (∀ k, 11 ≤ k → k < 23 → domState d k = domState s.dev k)) ∧
  (∀ (s : State) (mw : Nat), maxPower s.dev (s.dev.rd F.pwrPs_ps) < mw → s.dev.power.lastPs = 0 → s.dev.rd F.thmStat_step = 0 →
    s.dev.power.cut = 0 →
    Brings (.powerThrottleCheck mw) s fun d => d.rd F.pwrPs_streams = 14 ∧ d.flag F.pwrPs_throttling = true ∧ d.power.cut = 2 ∧
      d.rd F.pwrPs_power_mw = satTo F.pwrPs_power_mw.w mw)

/-- Structural Activate (R64-R68).  From an enabled controller that R66 does not refuse: a legal piece joins the staging image and
completes; a whole image holds the command and is verified; Abort drops the image and completes.  Verification leads to pending, or
leaves the failed step and the activation's state; the written slot drops the image; once no command is in flight every dirty extent
is destaged; with nothing buffered, no locker journal and no rewrite the commit takes every host link down, stops fetching, marks the
new slot VALID and begins both wipes; after them the restructure ends and fetching goes on. -/
def Obligations.ActivateRowsComplete : Prop :=
  (∀ (s : State) (h : HstId) (cid offsetDw : Nat) (piece : List (BitVec 8)),
    AdminRuns s h.val true true → saRefusal (wakeChip s.dev) h.val = none → s.dev.struct.phase = .idle →
    offsetDw % 1024 = 0 → piece ≠ [] → offsetDw * 4 + piece.length ≤ 4 * 2 ^ 20 →
    (piece.length % 4096 = 0 ∨
      pieceLen (s.dev.struct.staging ++ [(offsetDw * 4, piece)]) = some (offsetDw * 4 + piece.length)) →
    Brings (.structuralActivateDownload h cid offsetDw piece) s fun d =>
      d.out = .cqe h.val 0 cid 0 0 :: s.dev.out ∧ d.struct.staging = s.dev.struct.staging ++ [(offsetDw * 4, piece)] ∧
      d.struct.stagingOwner = some h.val ∧ d.rd F.glbStructStat_activate = 1) ∧
  (∀ (s : State) (h : HstId) (cid n : Nat),
    AdminRuns s h.val true true → saRefusal (wakeChip s.dev) h.val = none → s.dev.struct.phase = .idle →
    pieceLen s.dev.struct.staging = some n → n ≤ 4 * 2 ^ 20 → pieceWhole s.dev.struct.staging n = true →
    Brings (.structuralActivateVerify h cid) s fun d =>
      d.struct.phase = .verifying ∧ d.struct.stagingCid = cid ∧ (d.port h.val).adminUsed = (s.dev.port h.val).adminUsed + 1 ∧
      d.out = s.dev.out) ∧
  (∀ (s : State) (h : HstId) (cid : Nat),
    AdminRuns s h.val true true → saRefusal (wakeChip s.dev) h.val = none →
    Brings (.structuralActivateAbort h cid) s fun d =>
      d.struct.staging = [] ∧ d.rd F.glbStructStat_activate = 0 ∧ d.out = .cqe h.val 0 cid 0 0 :: s.dev.out) ∧
  (∀ (s : State) (k : Nat), s.dev.struct.phase = .verifying → s.dev.struct.staging ≠ [] →
    k = (verifyImage s.dev (pieceImage s.dev.struct.staging ((pieceLen s.dev.struct.staging).getD 0))).1 → k ≤ 15 →
    Brings .activateVerifyDone s fun d => d.rd F.glbStructStat_fail_stage = k ∧
      (k = 0 → d.struct.phase = .writing ∧ d.rd F.glbStructStat_activate = 2 ∧ d.out = s.dev.out) ∧
      (k ≠ 0 → d.struct.phase = .idle ∧ d.rd F.glbStructStat_activate = s.dev.rd F.glbStructStat_activate)) ∧
  (∀ (s : State) (b : List Byte), s.dev.struct.phase = .writing →
    b = pieceImage s.dev.struct.staging ((pieceLen s.dev.struct.staging).getD 0) →
    Brings .activateSlotWritten s fun d =>
      d.struct.phase = .draining ∧ d.struct.staging = [] ∧ d.struct.stagingOwner = none ∧
      d.imgSlot (otherSlot s.dev) = { bytes := b, desc := 0xFE }) ∧
  (∀ s : State, s.dev.struct.phase = .draining → s.dev.host.ctxs = [] →
    Gives .activateInflightDrained s
      (forEach s.dev.host.extents (s.dev.updStruct fun x => { x with phase := .destaging }) fun d e => destageExtent d e true)) ∧
  (∀ s : State, s.dev.struct.phase = .destaging → (copiesOf s.dev).isEmpty = true → s.dev.host.locker = [] →
    s.dev.host.held.all (fun x => x.kind != 2) = true →
    Brings .activateCommit s fun d =>
      d.struct.phase = .wiping ∧ d.rd F.glbStructStat_activate = 3 ∧ d.host.stops.contains 1 = true ∧
      (∀ h : HstId, (d.port h.val).linkUp = false ∧ (d.port h.val).enabled = false ∧ (d.port h.val).offer = (s.dev.port h.val).offer) ∧
      d.reset.wipeSram = true ∧ d.reset.wipeDram = true ∧ d.rd F.memWipe_state = 1 ∧
      (d.imgSlot (otherSlot s.dev)).desc = 0xFC) ∧
  (∀ s : State, s.dev.struct.phase = .wiping → s.dev.reset.wipeSram = false → s.dev.reset.wipeDram = false →
    ∃ d, GivesMem .activateRestructure s d (loadStores d.struct.sections s.mem) ∧
      d.struct.phase = .idle ∧ d.rd F.glbStructStat_activate = 0 ∧ d.host.stops.contains 1 = false)

/-- Firmware (R95, R96, R386).  From an enabled controller: a piece within 32 MiB joins the download and completes; a commit of a
whole image that passes R386 stores it, completes, and with action 1 makes it active; action 3 stores it, holds the command and stops
fetching; with no command in flight the switch makes the image active and ends the command with success, and with commands left the
timeout ends it with Maximum Time Violation. -/
def Obligations.FirmwareRowsComplete : Prop :=
  (∀ (s : State) (h : HstId) (cid offsetDw : Nat) (piece : List (BitVec 8)),
    AdminRuns s h.val false true → piece ≠ [] → offsetDw * 4 + piece.length ≤ 32 * 2 ^ 20 →
    Brings (.firmwareImageDownload h cid offsetDw piece) s fun d =>
      d.out = .cqe h.val 0 cid 0 0 :: s.dev.out ∧ d.fw.staging = s.dev.fw.staging ++ [(offsetDw * 4, piece)]) ∧
  (∀ (s : State) (h : HstId) (cid : Nat) (slot : Fin 2) (action : Nat) (b : List Byte),
    AdminRuns s h.val false (s.dev.fw.run == 2) → action ≤ 1 → fwStaged s.dev = some b → firmwareOk (wakeChip s.dev) b = true →
    Brings (.firmwareCommit h cid slot action) s fun d =>
      tabGet [] d.fw.slots slot.val = b ∧ d.fw.staging = [] ∧ d.out = .cqe h.val 0 cid 0 0 :: s.dev.out ∧
      d.fw.active = (if action = 1 then slot.val else s.dev.fw.active)) ∧
  (∀ (s : State) (h : HstId) (cid : Nat) (slot : Fin 2) (b : List Byte),
    AdminRuns s h.val false (s.dev.fw.run == 2) → fwStaged s.dev = some b → s.dev.fw.staging ≠ [] →
    firmwareOk (wakeChip s.dev) b = true →
    Brings (.firmwareCommit h cid slot 3) s fun d =>
      d.fw.sw = some (h.val, cid, slot.val) ∧ d.host.stops.contains 2 = true ∧ tabGet [] d.fw.slots slot.val = b) ∧
  (∀ (s : State) (h cid slot : Nat), s.dev.fw.sw = some (h, cid, slot) → s.dev.host.ctxs = [] → (s.dev.port h).enabled = true →
    Brings .firmwareImageSwitch s fun d =>
      d.fw.active = slot ∧ d.fw.sw = none ∧ d.host.stops.contains 2 = false ∧ d.out.head? = some (.cqe h 0 cid 0 0)) ∧
  (∀ (s : State) (h cid slot : Nat), s.dev.fw.sw = some (h, cid, slot) → s.dev.host.ctxs ≠ [] → (s.dev.port h).enabled = true →
    Brings .firmwareActivationTimeout s fun d =>
      d.fw.active = slot ∧ d.fw.sw = none ∧ d.host.stops.contains 2 = false ∧ d.out = .cqe h 0 cid stMaxTime 0 :: s.dev.out)

/-- I/O submission (R76, R100-R103, R151, R152, R154, R156): every I/O row places its command in the submission queue that it names,
where that queue exists and has room, with the kind, range, data, key tag and options the row gives it, the other queues as they were; NLB and the stored length of the
compression rows are 0-based. -/
def Obligations.SubmissionRowsComplete : Prop :=
  (∀ (s : State) (h : HstId) (qid cid : Nat) (r : LbaRange) (n z : Nat) (b all : Bool) (toks : List Nat) (rs : List LbaRange)
    (key : Nat),
    Submits (.read h qid cid r b key) s h.val qid cid
      { kind := .read, nsid := r.nsid, slba := r.slba, count := r.count, fua := b, keyTag := key } ∧
    Submits (.write h qid cid r toks b key) s h.val qid cid
      { kind := .write, nsid := r.nsid, slba := r.slba, count := r.count, toks := toks, fua := b, keyTag := key } ∧
    Submits (.writeZeroes h qid cid r b) s h.val qid cid
      { kind := .writeZeroes, nsid := r.nsid, slba := r.slba, count := r.count, fua := b, keyTag := r.tag } ∧
    Submits (.writeUncorrectable h qid cid r) s h.val qid cid
      { kind := .writeUncorrectable, nsid := r.nsid, slba := r.slba, count := r.count } ∧
    Submits (.compare h qid cid r toks) s h.val qid cid
      { kind := .compare, nsid := r.nsid, slba := r.slba, count := r.count, toks := toks, keyTag := r.tag } ∧
    Submits (.verify h qid cid r) s h.val qid cid
      { kind := .verify, nsid := r.nsid, slba := r.slba, count := r.count, keyTag := r.tag } ∧
    Submits (.datasetManagement h qid cid n b rs) s h.val qid cid
      { kind := if b then .deallocate else .dsmOther, nsid := n, ranges := rs } ∧
    Submits (.copy h qid cid n ⟨z, key⟩ rs) s h.val qid cid
      { kind := .copy, nsid := n, slba := z, count := (rs.map (·.count)).sum, ranges := rs, keyTag := key } ∧
    Submits (.zoneAppend h qid cid n ⟨z, key⟩ toks b) s h.val qid cid
      { kind := .append, nsid := n, slba := z, count := toks.length, toks := toks, fua := b, keyTag := key } ∧
    Submits (.zoneOpen h qid cid n z all) s h.val qid cid { kind := .zone .openZone all, nsid := n, slba := z } ∧
    Submits (.zoneClose h qid cid n z all) s h.val qid cid { kind := .zone .closeZone all, nsid := n, slba := z } ∧
    Submits (.zoneFinish h qid cid n z all) s h.val qid cid { kind := .zone .finishZone all, nsid := n, slba := z } ∧
    Submits (.zoneReset h qid cid n z all) s h.val qid cid { kind := .zone .resetZone all, nsid := n, slba := z } ∧
    Submits (.zoneOffline h qid cid n z all) s h.val qid cid { kind := .zone .offlineZone all, nsid := n, slba := z } ∧
    Submits (.zoneManagementReceive h qid cid n z) s h.val qid cid { kind := .zoneReport, nsid := n, slba := z } ∧
    Submits (.flush h qid cid n) s h.val qid cid { kind := .flush, nsid := n }) ∧
  (∀ (s : State) (h : HstId) (qid cid nsid z nlb ctx level stored bufLbas key : Nat) (cont gcm : Bool) (chunk : List (BitVec 8)),
    Submits (.compressedZoneAppend h qid cid nsid z nlb ctx cont level gcm key chunk) s h.val qid cid
      { kind := .compAppend, nsid := nsid, slba := z, count := nlb + 1, ctx := ctx, cont := cont, level := level, gcm := gcm,
        keyTag := key, chunk := chunk } ∧
    Submits (.compressedRead h qid cid nsid z stored bufLbas key) s h.val qid cid
      { kind := .compRead, nsid := nsid, slba := z, count := stored + 1, stored := stored, bufLbas := bufLbas, keyTag := key } ∧
    Submits (.streamContextSave h qid cid nsid ctx) s h.val qid cid { kind := .ctxSave, nsid := nsid, ctx := ctx } ∧
    Submits (.streamContextRestore h qid cid nsid ctx chunk) s h.val qid cid
      { kind := .ctxRestore, nsid := nsid, ctx := ctx, chunk := chunk })

/-- The host pipeline (R73-R83, R450).  Outside loop-back depth 4, a fetched command that passes its checks takes a context; fetching
goes on once an I/O context is free; the head of a fetch engine whose entries fit and whose zone check passes, not a context save or
restore, joins the range-lock table; a granted local Write, Write Zeroes or Write Uncorrectable awaits its data; a granted local Read
all of whose blocks are good data of one extent under the keys it reads with returns them and completes; a Write's unpoisoned data lies
in the buffer; the first waiting part within the bounds, its data in, a band free and no earlier write of its zone waiting, is
covered. -/
def Obligations.PipelineRowsComplete : Prop :=
  (∀ (s : State) (h : HstId) (q : Sq) (p : Port) (cid : Nat) (c : IoCmd) (rest : List (Nat × IoCmd)),
    fetchAllowed s.dev h.val = true → chooseQueue (s.dev.port h.val) = some (q, p) → q.cmds = (cid, c) :: rest →
    ioInUse s.dev h.val < ioShare s.dev h.val → s.dev.rd F.loop_depth h.val ≠ 4 →
    fetchCheck s.dev (.host h.val q.qid cid) h.val c = none →
    Brings (.commandFetch h) s fun d =>
      d.host.ctxs = s.dev.host.ctxs ++ [{ id := s.dev.host.nextId, fe := h.val, org := .host h.val q.qid cid, c := c }] ∧
      d.host.nextId = s.dev.host.nextId + 1 ∧ d.port h.val = takeCmd q p ∧ d.out = s.dev.out ∧
      d.rd F.pwrCs_state = 0 ∧ d.rd F.hstCtxStat_in_use h.val = ctxInUse d h.val % 2 ^ F.hstCtxStat_in_use.w) ∧
  (∀ (s : State) (h : HstId), ioInUse s.dev h.val < ioShare s.dev h.val →
    Gives (.fetchResume h) s ((s.dev.setFlag F.hstCtxStat_fetch_stalled (decide (64 ≤ adminInUse s.dev h.val)) h.val).updPort h.val
      fun p => { p with stalled := false })) ∧
  (∀ (s : State) (fe : Fin 7) (x : Ctx) (P : Dev → Prop), feHead s.dev fe.val = some x →
    locksInUse s.dev + (locksOf s.dev x.c).length ≤ 16384 → pointerCheck s.dev x.c = none →
    x.c.kind ≠ .ctxSave → x.c.kind ≠ .ctxRestore →
    P = (fun d => d.host.order = s.dev.host.order ++ [x.id] ∧ d.bit F.hstRltStat_blocked fe.val 0 = false ∧
      ∃ y, d.ctx? x.id = some y ∧ y.stage = .locked ∧ y.locks = locksOf s.dev x.c) →
    Brings (.lockEntriesFreed fe) s P ∧ Brings (.lockInsert fe) s P) ∧
  (∀ (s : State) (id : Nat) (x : Ctx) (h qid cid : Nat), s.dev.ctx? id = some x → x.stage = .locked → lockFree s.dev x = true →
    x.org = .host h qid cid → nsidNode x.c.nsid = 0 → s.dev.chain.selfNaks = [] →
    (x.c.kind = .write ∨ x.c.kind = .writeZeroes ∨ x.c.kind = .writeUncorrectable) →
    Brings (.lockGrant id) s fun d => ∃ y, d.ctx? id = some y ∧ y.stage = .moving ∧ y.c = x.c ∧ y.locks = x.locks) ∧
  (∀ (s : State) (id : Nat) (x : Ctx) (e : Extent) (ns : Ns) (h qid cid : Nat),
    s.dev.ctx? id = some x → x.stage = .locked → lockFree s.dev x = true → x.org = .host h qid cid → nsidNode x.c.nsid = 0 →
    x.c.kind = .read → x.c.nsid ≠ 0xFFFFFFFF → s.dev.ns? x.c.nsid = some ns → overlapping s.dev x.c.nsid x.c.slba x.c.count = [e] →
    (x.c.lbas.all fun l => e.cells.any fun c => c.lba == l) = true →
    (∀ l ∈ x.c.lbas, ∃ c t, s.dev.bufCell x.c.nsid l = some c ∧ c.now.poison = false ∧ c.now.blk = .data t ∧
      pairOf s.dev ns x.c.keyTag l = some c.now.pair) →
    Brings (.lockGrant id) s fun d =>
      Emit.hostData h qid cid (x.c.lbas.map fun l => blkTok (s.dev.readBlk x.c.nsid x.c.keyTag l)) ∈ d.out ∧
      Emit.cqe h qid cid 0 0 ∈ d.out ∧ d.ctx? id = none) ∧
  (∀ (s : State) (id : Nat) (x : Ctx) (ns : Ns) (h qid cid : Nat) (split : List (Nat × HdaId)),
    s.dev.ctx? id = some x → x.stage = .moving → x.c.kind = .write → x.org = .host h qid cid → s.dev.ns? x.c.nsid = some ns →
    Brings (.writeDataBuffered id split []) s fun d => ∃ e ∈ d.host.extents, e.wid = id ∧ e.nsid = x.c.nsid ∧
      ∀ i, i < x.c.count → ∃ c ∈ e.cells, c.lba = x.c.slba + i ∧ c.now.blk = .data ((x.c.toks[i]?).getD 0)) ∧
  (∀ (s : State) (n : HdaId) (wid : Nat) (x : Ctx) (e g : Dev), firstWaiting s.dev n.val = some wid → s.dev.ctx? wid = some x →
    dataIn x = true → noBand s.dev x n.val = false → zoneEarlierWaits s.dev x = false →
    e = journalWrite (markCovered s.dev wid n.val) wid n.val →
    g = (match e.ns? x.c.nsid with
      | some ns => if ns.zoned then refreshParity e x.c.nsid (zoneIndex e ns x.c.slba) else e
      | none => e) →
    dirtyAll s.dev ≤ boundAll s.dev → dirtyOf s.dev n.val ≤ boundOf s.dev n.val →
    dirtyAll g ≤ boundAll s.dev → dirtyOf g n.val ≤ boundOf s.dev n.val →
    Brings (.writeCoverage n) s fun d => ∀ c ∈ copiesOf d, c.2.wid = wid → c.2.hda = n.val → c.2.covered = true)

/-- How commands end otherwise (R88-R90, R109, R199).  An expired wait ends the command with Not Ready.  Where the task began and its
sequencer did not fail: a destage of a wholly covered write in one extent, its keys at hand and no head detained, leaves none of its
blocks for that actuator in the buffer, and they are mapped; a locker task, keys at hand, leaves the write's covered copies safe and in
the journal; a read task ends in the command's data or its next step.  A task cut short is reposted, and a read counts a retry.  A Flush
falls back to locker tracks on a ready HDA, and completes with none of its data waiting; Abort answers 1 for a command that has begun,
and ends one that has not. -/
def Obligations.CommandEndRowsComplete : Prop :=
  (∀ (s : State) (id : Nat) (x : Ctx) (h qid cid : Nat), s.dev.ctx? id = some x → waitsR88 s.dev x = true →
    x.org = .host h qid cid →
    Brings (.tolerableLatencyExpiry id) s fun d => d.ctx? id = none ∧
      (s.dev.host.order.Nodup → Emit.cqe h qid cid stNotReady 0 ∈ d.out)) ∧
  (∀ (s : State) (tid wid : Nat) (t : MTask) (poisoned : List Nat) (e : Extent) (ns : Ns),
    s.dev.host.tasks.find? (fun t => t.tid == tid) = some t → t.begun = true → t.kind = .destage wid →
    (s.dev.seq t.act).ended = none → whollyCovered s.dev wid = true → s.dev.host.extents.filter (fun e => e.wid == wid) = [e] →
    s.dev.ns? e.nsid = some ns → s.dev.host.headDet = [] →
    keysCached s.dev ns ((e.cells.filter fun c => c.now.act == t.act).map fun c => c.now.pair) = true →
    Brings (.mediaTaskEnd tid (.done poisoned)) s fun d =>
      (∀ e' ∈ d.host.extents, e'.wid = wid → ∀ c ∈ e'.cells, c.now.act ≠ t.act) ∧
      ∀ c ∈ e.cells, c.now.act = t.act → (d.mediaBlk e.nsid c.lba).mapped = true) ∧
  (∀ (s : State) (tid wid : Nat) (t : MTask) (poisoned : List Nat) (ns : Ns),
    s.dev.host.tasks.find? (fun t => t.tid == tid) = some t → t.begun = true → t.kind = .locker wid →
    (s.dev.seq t.act).ended = none → (unsafeCopies s.dev wid t.act).all (fun c => c.1 == ns.nsid) = true →
    s.dev.ns? ns.nsid = some ns → keysCached s.dev ns ((unsafeCopies s.dev wid t.act).map fun c => c.2.2.pair) = true →
    Brings (.mediaTaskEnd tid (.done poisoned)) s fun d =>
      (∀ c ∈ copiesOf d, c.2.wid = wid → c.2.act = t.act → c.2.covered = true → c.2.safe = true) ∧
      ∀ c ∈ unsafeCopies s.dev wid t.act, d.host.locker.any (fun b => b.nsid == ns.nsid && b.lba == c.2.1 && b.hda == t.act / 2) = true) ∧
  (∀ (s : State) (tid id : Nat) (t : MTask) (poisoned : List Nat), s.dev.host.tasks.find? (fun t => t.tid == tid) = some t →
    t.begun = true → t.kind = .read id → (s.dev.seq t.act).ended = none →
    Gives (.mediaTaskEnd tid (.done poisoned)) s
      (syncHost (readEnded (dropTask (s.dev.updSeq t.act fun q => { q with ended := none }) tid) id t.act poisoned))) ∧
  (∀ (s : State) (tid : Nat) (t : MTask) (cause : Nat), s.dev.host.tasks.find? (fun t => t.tid == tid) = some t →
    t.begun = true →
    Brings (.mediaTaskEnd tid (.cut cause)) s fun d =>
      d.host.extents = s.dev.host.extents ∧ (d.seq t.act).ended = none ∧
      ∃ u, d.host.tasks.find? (fun t => t.tid == tid) = some u ∧ u.kind = t.kind ∧ u.act = t.act ∧
        u.retries = if t.kind.writes then t.retries else t.retries + 1) ∧
  (∀ (s : State) (id eid a : Nat) (x : Ctx), s.dev.ctx? id = some x → x.stage = .flushing → x.pend.contains eid = true →
    (((copiesOf s.dev).filter fun c => c.2.wid == eid && c.2.covered && !c.2.safe).map fun c => c.2.act).eraseDups = [a] →
    hdaReady s.dev (a / 2) = true →
    Brings (.flushLockerFallback id eid) s fun d => ∃ t ∈ d.host.tasks, t.kind = .locker eid ∧ t.act = a ∧ t.prio = true) ∧
  (∀ (s : State) (id : Nat) (x : Ctx) (h qid cid : Nat), s.dev.ctx? id = some x → x.stage = .flushing → x.org = .host h qid cid →
    (copiesOf s.dev).any (fun c => x.pend.contains c.2.wid && c.2.covered && !c.2.safe) = false →
    Brings (.flushComplete id) s fun d => Emit.cqe h qid cid 0 0 ∈ d.out ∧ d.ctx? id = none) ∧
  (∀ (s : State) (h : HstId) (cid qid target : Nat) (x : Ctx), AdminRuns s h.val false false →
    s.dev.host.ctxs.find? (fun x => x.org == .host h.val qid target) = some x → begunNow s.dev x = true →
    Gives (.abort h cid qid target) s ((wakeChip s.dev).emit (.cqe h.val 0 cid 0 1))) ∧
  (∀ (s : State) (h : HstId) (cid qid target : Nat) (x : Ctx), AdminRuns s h.val false false →
    s.dev.host.ctxs.find? (fun x => x.org == .host h.val qid target) = some x → begunNow s.dev x = false → s.dev.ctx? x.id = some x →
    Brings (.abort h cid qid target) s fun d => d.ctx? x.id = none ∧ d.out.head? = some (.cqe h.val 0 cid 0 0) ∧
      (s.dev.host.order.Nodup → Emit.cqe h.val qid target stAborted 0 ∈ d.out))

/-- Identify, queues and features (R62, R70-R72, R87, R98, R105, R362, R371).  From an enabled controller with a free admin context:
Identify returns the controller's data, its attached namespaces' list (none under the recovery structure), and outside it the data of
a local namespace; Number of Queues answers Q - 1 in both halves; a new completion or submission queue within Q and 2 - 16,384
entries joins its port; write cache, power state (0 - 4), temperature threshold, Tolerable Latency of a local namespace (saved where
asked) and spindle curves of present HDAs take the value given; latency, curves and the dirty bound are read back; the bound is not
changeable; an Asynchronous Event Request is held while no notice waits. -/
def Obligations.AdminRowsComplete : Prop :=
  (∀ (s : State) (h : HstId) (cid nsid : Nat), AdminRuns s h.val true true →
    Gives (.identify h cid 1 nsid) s (adminPage (wakeChip s.dev) h.val cid (ctrlData s.dev h.val)) ∧
    Gives (.identify h cid 2 nsid) s (adminPage (wakeChip s.dev) h.val cid
      (idList (((shownNss s.dev).filter fun ns => ns.ctrls.contains (h.val + 1)).map (·.nsid)) nsid)) ∧
    ∀ ns, nsidNode nsid = 0 → nsid < 1024 → s.dev.ns? nsid = some ns → s.dev.rd F.glbStructStat_loaded ≠ 3 →
      Gives (.identify h cid 0 nsid) s (adminPage (wakeChip s.dev) h.val cid (nsData s.dev ns))) ∧
  (∀ (s : State) (h : HstId) (cid a b q : Nat), AdminRuns s h.val false true → q = queuePairs s.dev h.val - 1 →
    Gives (.setFeaturesNumberOfQueues h cid a b) s ((wakeChip s.dev).emit (.cqe h.val 0 cid 0 (q + 65536 * q)))) ∧
  (∀ (s : State) (h : HstId) (cid qid entries : Nat) (prio : Prio), AdminRuns s h.val false true →
    1 ≤ qid → qid ≤ queuePairs s.dev h.val → 2 ≤ entries → entries ≤ 16384 →
    ((s.dev.port h.val).cqs.any fun q => q.1 == qid) = false →
    Gives (.createIoQueue h cid false qid entries true prio) s
      (((wakeChip s.dev).updPort h.val fun p => { p with cqs := p.cqs ++ [(qid, entries)] }).emit (.cqe h.val 0 cid 0 0))) ∧
  (∀ (s : State) (h : HstId) (cid qid entries : Nat) (prio : Prio), AdminRuns s h.val false true →
    1 ≤ qid → qid ≤ queuePairs s.dev h.val → 2 ≤ entries → entries ≤ 16384 →
    ((s.dev.port h.val).cqs.any fun q => q.1 == qid) = true → ((s.dev.port h.val).sqs.any fun q => q.qid == qid) = false →
    Gives (.createIoQueue h cid true qid entries true prio) s
      (((wakeChip s.dev).updPort h.val fun p =>
        { p with sqs := p.sqs ++ [{ qid := qid, prio := prio, entries := entries }] }).emit (.cqe h.val 0 cid 0 0))) ∧
  (∀ (s : State) (h : HstId) (cid : Nat) (enable : Bool), AdminRuns s h.val false false →
    Brings (.setFeaturesVolatileWriteCache h cid enable) s fun d =>
      (d.port h.val).vwc = enable ∧ Emit.cqe h.val 0 cid 0 0 ∈ d.out) ∧
  (∀ (s : State) (h : HstId) (cid ps w : Nat), AdminRuns s h.val false false → ps ≤ 4 →
    Brings (.setFeaturesPowerState h cid ps w) s fun d =>
      d.rd F.pwrPs_ps = ps ∧ d.power.lastPs = (if ps < 3 then ps else s.dev.power.lastPs) ∧
      d.out = .cqe h.val 0 cid 0 0 :: s.dev.out) ∧
  (∀ (s : State) (h : HstId) (cid sensor kelvin : Nat) (under : Bool), AdminRuns s h.val false false → sensor ≤ 7 → kelvin ≤ 65535 →
    Brings (.setFeaturesTemperatureThreshold h cid sensor under kelvin) s fun d =>
      (d.port h.val).thresholds.find? (fun t => t.1 == 2 * sensor + under.toNat) = some (2 * sensor + under.toNat, kelvin) ∧
      Emit.cqe h.val 0 cid 0 0 ∈ d.out) ∧
  (∀ (s : State) (h : HstId) (cid nsid us : Nat) (save : Bool) (ns : Ns), AdminRuns s h.val false false → us ≤ 60000000 → nsidNode nsid = 0 →
    nsid < 1024 → s.dev.ns? nsid = some ns →
    Brings (.setFeaturesTolerableLatency h cid nsid ⟨us, save⟩) s fun d =>
      d.ns? nsid = some { ns with latency := us, latSaved := if save then us else ns.latSaved } ∧ d.out = .cqe h.val 0 cid 0 0 :: s.dev.out) ∧
  (∀ (s : State) (h : HstId) (cid nsid : Nat) (ns : Ns), AdminRuns s h.val true false → nsidNode nsid = 0 → nsid < 1024 →
    s.dev.ns? nsid = some ns →
    Gives (.getFeaturesTolerableLatency h cid nsid) s ((wakeChip s.dev).emit (.cqe h.val 0 cid 0 ns.latency))) ∧
  (∀ (s : State) (h : HstId) (cid mask curve : Nat) (save : Bool), AdminRuns s h.val false false → mask < 16 →
    (((List.range 4).filter fun n => mask.testBit n).all s.dev.hdaPresent) = true →
    (curve = 0 ∨ curve < 8 ∧ (s.dev.section 14 curve).isSome = true) →
    Brings (.setFeaturesSpindleCurve h cid mask ⟨curve, save⟩) s fun d =>
      (∀ n, n < 4 → tabGet 0 d.host.curves n = (if mask.testBit n then curve else tabGet 0 s.dev.host.curves n) ∧
        tabGet 0 d.host.curvesSaved n = if save && mask.testBit n then curve else tabGet 0 s.dev.host.curvesSaved n) ∧
      d.out = .cqe h.val 0 cid 0 0 :: s.dev.out) ∧
  (∀ (s : State) (h : HstId) (cid : Nat), AdminRuns s h.val true false →
    Gives (.getFeaturesSpindleCurve h cid) s ((wakeChip s.dev).emit (.cqe h.val 0 cid 0 (tabGet 0 s.dev.host.curves 0 +
      tabGet 0 s.dev.host.curves 1 * 8 + tabGet 0 s.dev.host.curves 2 * 64 + tabGet 0 s.dev.host.curves 3 * 512))) ∧
    Gives (.getFeaturesDirtyBound h cid) s ((wakeChip s.dev).emit (.cqe h.val 0 cid 0
      (boundAll s.dev / 256 % 65536 + 65536 * ((dirtyAll s.dev + 255) / 256 % 65536))))) ∧
  (∀ (s : State) (h : HstId) (cid : Nat), AdminRuns s h.val false false →
    Gives (.setFeaturesDirtyBound h cid) s ((wakeChip s.dev).emit (.cqe h.val 0 cid stNotChangeable 0))) ∧
  (∀ (s : State) (h : HstId) (cid : Nat), AdminRuns s h.val true false → (s.dev.port h.val).notices = [] →
    Brings (.asynchronousEventRequest h cid) s fun d =>
      (d.port h.val).aers = (s.dev.port h.val).aers ++ [cid] ∧
      (d.port h.val).adminUsed = (s.dev.port h.val).adminUsed + 1 ∧ d.out = s.dev.out)

/-- Log pages and namespaces (R69, R106, R110-R112, R133, R248, R333, R371, R412, R418).  Every log page that is asked for within its
size (the Detention page of a local namespace) is returned, in every life-cycle state and under the recovery structure; outside
it, a create whose fields are legal, with an identifier, bands and keys to be had, takes its zones and answers the identifier; a
delete of a local namespace leaves none of its extents and list entries; an attachment of controllers not attached yet joins them, and
a detachment of attached ones takes them away. -/
def Obligations.LogAndNamespaceRowsComplete : Prop :=
  (∀ (s : State) (h : HstId) (cid lsp lsi offset nsid : Nat) (ns : Ns), AdminRuns s h.val true true →
    (lsp.testBit 2 = true → Gives (.getLogReportCard h cid lsp lsi offset) s
      (adminPage (wakeChip s.dev) h.val cid ((cardDirectory (wakeChip s.dev)).drop offset))) ∧
    (lsp.testBit 2 = false → offset < 4096 → Gives (.getLogReportCard h cid lsp lsi offset) s
      (adminPage (wakeChip s.dev) h.val cid (pageBytes ((cardImage (wakeChip s.dev) (lsp % 4) lsi).1.drop offset)))) ∧
    Gives (.getLogChainTopology h cid) s (adminPage (wakeChip s.dev) h.val cid (topologyPage (wakeChip s.dev))) ∧
    (nsidNode nsid = 0 → nsid < 1024 → s.dev.ns? nsid = some ns → Gives (.getLogDetention h cid nsid) s
      (adminPage (wakeChip s.dev) h.val cid
        (pageField (s.dev.host.detention.filter fun e => e.nsid == nsid).length 4 ++ pageField s.dev.host.detGen 4 ++ pageField 0 8 ++
          (s.dev.host.detention.filter fun e => e.nsid == nsid).flatMap detBytes))) ∧
    Gives (.getLogHeadHealth h cid) s (adminPage (wakeChip s.dev) h.val cid
      (pageField 96 4 ++ pageField s.dev.healthGen 4 ++ pageField 0 8 ++ (List.range 96).flatMap (healthEntry (wakeChip s.dev)))) ∧
    Gives (.getLogTelemetry h cid) s (adminPage (wakeChip s.dev) h.val cid (telemetryPage (wakeChip s.dev))) ∧
    Gives (.getLogSmartHealth h cid) s (adminPage (wakeChip s.dev) h.val cid (smartPage (wakeChip s.dev) h.val))) ∧
  (∀ (s : State) (h : HstId) (cid n : Nat) (c : NsCreate) (draft : Ns) (zs : List Zone), AdminRuns s h.val false false →
    draft = { nsid := 0, zoned := c.zoned, nsze := c.nsze, cls := c.cls, parity := parityOf s.dev c, actMask := c.actMask, kpio := c.kpio } →
    createInvalid s.dev c (zoneSize s.dev draft) = false → freeNsid s.dev = some n → bandsFor (wakeChip s.dev) draft = some zs →
    keysPossible (wakeChip s.dev) = true →
    Brings (.namespaceManagementCreate h cid c) s fun d =>
      d.host.nss = s.dev.host.nss ++ [{ draft with nsid := n, zones := zs, mapBase := mapBaseFor s.dev }] ∧ d.out.head? = some (.cqe h.val 0 cid 0 n)) ∧
  (∀ (s : State) (h : HstId) (cid nsid : Nat) (ns : Ns), AdminRuns s h.val false false → nsidNode nsid = 0 → nsid < 1024 →
    s.dev.ns? nsid = some ns →
    Brings (.namespaceManagementDelete h cid nsid) s fun d =>
      (∀ x ∈ d.host.nss, x.nsid ≠ nsid) ∧ (∀ e ∈ d.host.extents, e.nsid ≠ nsid) ∧ (∀ e ∈ d.host.detention, e.nsid ≠ nsid) ∧
      d.out.head? = some (.cqe h.val 0 cid 0 0)) ∧
  (∀ (s : State) (h : HstId) (cid nsid : Nat) (ns : Ns) (ctrls : List Nat), AdminRuns s h.val false false → nsidNode nsid = 0 →
    nsid < 1024 → s.dev.ns? nsid = some ns → ctrlListOk s.dev ctrls = true →
    ((ctrls.any fun c => ns.ctrls.contains c) = false → (nsMode s.dev = 1 → ns.ctrls = []) →
      Brings (.namespaceAttachment h cid nsid true ctrls) s fun d =>
        d.ns? nsid = some { ns with ctrls := ns.ctrls ++ ctrls.eraseDups } ∧ d.out = .cqe h.val 0 cid 0 0 :: s.dev.out) ∧
    ((ctrls.all fun c => ns.ctrls.contains c) = true →
      Brings (.namespaceAttachment h cid nsid false ctrls) s fun d =>
        d.ns? nsid = some { ns with ctrls := ns.ctrls.filter fun c => !ctrls.contains c } ∧
        d.out = .cqe h.val 0 cid 0 0 :: s.dev.out))

/-- The compression engines (R142-R156).  The head of a context's queue: a Compressed Zone Append and a Compressed Read of a plain frame
go on to an engine, an unpoisoned context is saved as its image to the host, a well-formed image of a host is restored.  A free engine
within the power state takes the first chunk that waits; a chunk without poison, history and GCM whose stream R144 allows has its
frame, with the fields of R145; a frame that fits a writable zone is placed at its write pointer, byte for byte, and moves it; a
frame whose stream decodes to its length and CRC is returned with its length, and its context's history ends with it. -/
def Obligations.CompressionRowsComplete : Prop :=
  (∀ (s : State) (ctx : Nat) (x : Ctx), ctxHead s.dev ctx = some x → x.stage = .context → x.c.kind = .compAppend →
    Gives (.contextGrant ctx) s (syncWork (s.dev.updCtx x.id fun y => { y with stage := .engine }))) ∧
  (∀ (s : State) (ctx h qid cid : Nat) (x : Ctx), ctxHead s.dev ctx = some x → x.stage = .context → x.c.kind = .ctxSave →
    x.org = .host h qid cid → (readStream s.dev x.c.ctx).1 = false →
    Brings (.contextGrant ctx) s fun d =>
      Emit.hostData h qid cid (chunkToks (streamImage x.c.ctx (s.dev.stream x.c.ctx)) 9) ∈ d.out ∧ Emit.cqe h qid cid 0 0 ∈ d.out ∧ d.ctx? x.id = none) ∧
  (∀ (s : State) (ctx h qid cid : Nat) (x : Ctx) (st : StreamCtx), ctxHead s.dev ctx = some x → x.stage = .context →
    x.c.kind = .ctxRestore → x.org = .host h qid cid → imageStream x.c.chunk = some st →
    Brings (.contextGrant ctx) s fun d => d.stream x.c.ctx = st ∧ Emit.cqe h qid cid 0 0 ∈ d.out ∧ d.ctx? x.id = none) ∧
  (∀ (s : State) (ctx : Nat) (x : Ctx) (f : CFrame), ctxHead s.dev ctx = some x → x.stage = .context → x.c.kind = .compRead →
    frameOf s.dev x.id = some f → f.gcm = false → f.history = false →
    Gives (.contextGrant ctx) s (syncWork (s.dev.updCtx x.id fun y => { y with stage := .engine }))) ∧
  (∀ (s : State) (e : Fin 8) (id : Nat), e.val < s.dev.rd F.pwrPs_engines → (s.dev.comp.engines.any fun x => x.1 == e.val) = false →
    s.dev.comp.waiting.find? (fun i => (s.dev.ctx? i).any fun x => x.stage == .engine) = some id →
    Brings (.chunkDispatch e) s fun d => d.comp.engines = s.dev.comp.engines ++ [(e.val, id)] ∧
      d.comp.waiting.contains id = false ∧ d.bit F.cmpEngStat_busy e.val = true) ∧
  (∀ (s : State) (e : Fin 8) (stream : List (BitVec 8)) (x : Ctx) (ns : Ns), engineCtx s.dev e.val = some x → x.c.kind = .compAppend →
    s.dev.ns? x.c.nsid = some ns → x.poison = [] → (x.c.cont && (s.dev.stream x.c.ctx).holds) = false → x.c.gcm = false →
    deflateOk stream [] (fitTo (x.c.count * 4096) x.c.chunk) = true →
    Brings (.chunkCompressed e stream false) s fun d =>
      frameOf d x.id = some {
        level := if x.c.level = 0 then ((pipeOf s.dev ns.cls).map (·.2.1)).getD 1 else x.c.level,
        gcm := false, history := false, origLen := x.c.count * 4096, compLen := 64 + stream.length, ctxId := x.c.ctx,
        chunkSeq := (s.dev.stream x.c.ctx).chunks % 2 ^ 32, crcOrig := crc64 (fitTo (x.c.count * 4096) x.c.chunk), nonce := 0,
        histCrc := 0,
        stream := stream } ∧
      (d.ctx? x.id).map (·.stage) = some .placing ∧ (d.comp.engines.any fun z => z.1 == e.val) = false) ∧
  (∀ (s : State) (id zi start : Nat) (x : Ctx) (ns : Ns) (f : CFrame) (z : Zone), s.dev.ctx? id = some x → x.stage = .placing →
    s.dev.ns? x.c.nsid = some ns → frameOf s.dev x.id = some f → zi = zoneIndex s.dev ns x.c.slba →
    ns.zones[zi]? = some z → zoneWritable s.dev ns z = none → z.wp + storedLbas f ≤ zoneCap s.dev ns →
    start = zi * zoneSize s.dev ns + z.wp →
    Brings (.framePlacement id) s fun d => (d.zone? x.c.nsid zi).map (·.wp) = some (z.wp + storedLbas f) ∧
      ∃ e ∈ d.host.extents, e.wid = id ∧ ∀ j, j < storedLbas f → ∃ c ∈ e.cells, c.lba = start + j ∧
        c.now.blk = .data (((chunkToks (frameBytes f) (storedLbas f))[j]?).getD 0)) ∧
  (∀ (s : State) (e : Fin 8) (h qid cid : Nat) (x : Ctx) (f : CFrame) (output : List (BitVec 8)) (errs histErrs : List Nat) (infos : List BlockInfo), engineCtx s.dev e.val = some x →
    x.c.kind = .compRead → x.org = .host h qid cid → frameOf s.dev x.id = some f →
    inflate (flipBits errs f.stream) (if f.history then flipBits histErrs (s.dev.stream f.ctxId).hist else []) = some (output, infos) →
    output.length = f.origLen → crc64 output = f.crcOrig →
    Brings (.decompressionDone e errs histErrs) s fun d => Emit.hostData h qid cid (chunkToks output (f.origLen / 4096)) ∈ d.out ∧
      Emit.cqe h qid cid 0 f.origLen ∈ d.out ∧ d.ctx? x.id = none ∧
      (d.stream f.ctxId).hist = lastN winSize (if f.history then (s.dev.stream f.ctxId).hist ++ output else output))

/-- GCM jobs, nonces and the key cache (R160-R166, R174).  An unpoisoned encryption job leaves its frame encrypted, with the job's nonce
and its tag, for placement; a decryption job whose tag is right leaves the stream decrypted for an engine where no history is needed,
and ends its command with 0x81 where the tag is wrong; a sound slot enters a cache with room; a reservation is due at limit - 2^19, and
once its record is written the limit and the log hold it. -/
def Obligations.GcmRowsComplete : Prop :=
  (∀ (s : State) (core : Fin 8) (errs : List Nat) (j : GcmJob) (x : Ctx) (f f1 : CFrame), tabGet none s.dev.cipher.jobs core.val = some j →
    s.dev.ctx? j.id = some x → frameOf s.dev j.id = some f1 →
    f = { f1 with stream := flipBits errs f1.stream } →
    (j.enc = true → Brings (.gcmJobDone core errs false) s fun d =>
      frameOf d j.id = some (sealFrame (s.dev.slot j.slot).wrapped j.nonce f) ∧ (d.ctx? j.id).map (·.stage) = some .placing) ∧
    (j.enc = false → f.history = false → gcmTagOf (s.dev.slot j.slot).wrapped f = f.tag → Brings (.gcmJobDone core errs false) s fun d =>
      frameOf d j.id = some { f with stream := gcmCrypt (s.dev.slot j.slot).wrapped f.nonce f.stream } ∧
      (d.ctx? j.id).map (·.stage) = some .engine) ∧
    (∀ (h qid cid : Nat), j.enc = false → x.org = .host h qid cid → gcmTagOf (s.dev.slot j.slot).wrapped f ≠ f.tag →
      Brings (.gcmJobDone core errs false) s fun d => Emit.cqe h qid cid stCheckFail 0 ∈ d.out ∧ d.ctx? j.id = none ∧
        d.flag F.cphErr_gcm_fail = true)) ∧
  (∀ (s : State) (slot : Nat), s.dev.cipher.cache.contains slot = false → (fetchKey s.dev slot false).1 = none →
    (s.dev.cipher.cache.length < 512 ∨ s.dev.cipher.waitJobs = []) →
    Brings (.keyCacheFill slot true true) s fun d => d.cipher.cache.contains slot = true) ∧
  (∀ s : State, s.dev.cipher.recordDue = none → s.dev.rd F.cphNonceLimit_value ≤ s.dev.rd F.cphNonceCtr_value + 2 ^ 19 →
    Gives .nonceReserveAppend s (s.dev.updCipher fun c => { c with recordDue := some (s.dev.rd F.cphNonceLimit_value + 2 ^ 20) })) ∧
  (∀ (s : State) (limit : Nat), s.dev.cipher.recordDue = some limit →
    Brings .nonceRecordWritten s fun d => d.rd F.cphNonceLimit_value = limit % 2 ^ F.cphNonceLimit_value.w ∧
      d.cipher.recordDue = none ∧
      d.cipher.log = logAppend s.dev.cipher.log (limit, s.dev.rd F.cphNonceId_nonce_id, crc32 (nonceRecord limit (s.dev.rd F.cphNonceId_nonce_id))))

/-- Key slots, locking ranges, cipher contexts, countermeasures and randomness (R164-R173).  A retired slot no extent uses empties or
takes its next contents, its generation counted; where keys may be had, a key injected for a Key Per I/O namespace fills the free pair
that its tag then names; with the KEK in the engine a range unlocks with its own; it locks, and a draining one loses its KEK once its
extents are on media; a job's context leaves its core for the window and an image for a valid slot comes back to a free core;
countermeasures are set, in MISSION and RMA upwards only; a key asked for leaves the cache once no job holds it; a reseed starts
and a failed source stops the generator. -/
def Obligations.KeyRowsComplete : Prop :=
  (∀ (s : State) (i : Nat) (r : Retiring), s.dev.cipher.retiring.find? (fun r => r.slot == i) = some r →
    pairInUse s.dev (i / 2) = false →
    Brings (.slotRetireComplete i) s fun d =>
      d.slot i = (match r.next with
        | some k => ({ k with generation := ((s.dev.slot i).generation + 2) % 2 ^ 32 } : KeySlot).sealed
        | none => ({ generation := ((s.dev.slot i).generation + 1) % 2 ^ 32 } : KeySlot).sealed) ∧
      d.cipher.retiring = s.dev.cipher.retiring.filter fun x => x.slot != i) ∧
  (∀ (s : State) (nsid tag key e t : Nat) (ns : Ns), localNs s.dev nsid = some ns → ns.kpio = true → freePair s.dev = some e →
    tcgAvailable s.dev = true → s.dev.cipher.withheld = false → s.dev.flag F.cphStat_kek_loaded = true → tag < 65536 →
    t = nsid * 65536 + tag → tabGet 0 s.dev.cipher.tags t ≠ e + 1 →
    Brings (.keyInject nsid tag true key) s fun d => tabGet 0 d.cipher.tags t = e + 1 ∧
      ∀ i : Fin 2, d.slot (2 * e + i.val) = KeySlot.sealed
        { state := 1, kind := 1 + i.val, kekSel := 0, nsid := nsid,
          generation := ((s.dev.slot (2 * e + i.val)).generation + 1) % 2 ^ 32,
          wrapped := Config.keyWrap s.dev.cipher.kek (key / 2 ^ (256 * i.val) % 2 ^ 256) }) ∧
  (∀ (s : State) (r : Nat), s.dev.cipher.withheld = false → s.dev.flag F.cphStat_kek_loaded = true →
    Brings (.lockingRangeUnlock r true) s fun d => ∀ x ∈ d.cipher.ranges, x.idx = r →
      x.readLock = false ∧ x.writeLock = false ∧ x.kek = some (Config.rangeKek s.dev.cipher.kek r x.cred)) ∧
  (∀ (s : State) (r : Nat),
    Brings (.lockingRangeLock r) s fun d => ∀ x ∈ d.cipher.ranges, x.idx = r → x.readLock = true ∧ x.writeLock = true) ∧
  (∀ (s : State) (r : Nat), (s.dev.cipher.ranges.any fun x => x.idx == r && x.draining) = true → pairInUse s.dev (rangePair r) = false →
    Brings (.rangeKekZero r) s fun d => (∀ x ∈ d.cipher.ranges, x.idx = r → x.kek = none ∧ x.draining = false) ∧
      d.cipher.cache.contains (2 * rangePair r) = false ∧ d.cipher.cache.contains (2 * rangePair r + 1) = false) ∧
  (∀ (s : State) (rq : Requester) (core : Fin 8) (j : GcmJob), tabGet none s.dev.cipher.jobs core.val = some j →
    Brings (.cipherContextSave rq core) s fun d => d.cipher.winSaved = List.range 10 ∧ d.rd F.cphCtxWin_data 0 0 % 2 ^ 32 = 0x58435645 ∧
      ∃ k ∈ d.cipher.parked, k.id = j.id ∧ k.enc = j.enc ∧ k.slot = j.slot ∧ k.generation = j.generation ∧ k.nonce = j.nonce ∧
        j.blocks ≤ k.blocks) ∧
  (∀ (s : State) (rq : Requester) (core : Fin 8) (b : List (BitVec 8)), restoreImage s.dev rq = some b →
    (s.dev.slot (leBytes b 6 2)).state = 1 → (s.dev.slot (leBytes b 6 2)).generation = leBytes b 8 4 →
    tabGet none s.dev.cipher.jobs core.val = none →
    Brings (.cipherContextRestore rq core) s fun d => d.flag F.cphCtxCtl_fail = false ∧
      ∃ j, tabGet none d.cipher.jobs core.val = some j ∧ j.slot = leBytes b 6 2 ∧ j.generation = leBytes b 8 4 ∧
        j.nonce = leBytes b 0x10 12 ∧ j.ghash = leBytes b 0x20 16 ∧ j.blocks = leBytes b 0x38 8 / 128) ∧
  (∀ (s : State) (rq : Requester) (m : Fin 4) (shuffle : Bool), s.dev.rd F.secLc_state < 3 ∨ 4 < s.dev.rd F.secLc_state ∨
      (s.dev.rd F.cphCm_dummy_max ≤ m.val ∧ (s.dev.flag F.cphCm_shuffle = true → shuffle = true)) →
    Gives (.countermeasureConfig rq m shuffle) s ((s.dev.wr F.cphCm_dummy_max m.val).setFlag F.cphCm_shuffle shuffle)) ∧
  (∀ (s : State) (rq : Requester) (slot : Nat), slot < 65536 →
    Brings (.keyInvalidate rq slot) s fun d => d.rd F.cphKeyInv_slot = slot ∧ d.flag F.cphKeyInv_busy = true ∧
      d.cipher.dropAsk = s.dev.cipher.dropAsk ++ [slot]) ∧
  (∀ s : State, Brings .keyDropDone s fun d =>
      (∀ i ∈ s.dev.cipher.dropAsk, heldByJob s.dev i = false → d.cipher.cache.contains i = false) ∧
      d.cipher.dropAsk = s.dev.cipher.dropAsk.filter (heldByJob s.dev) ∧
      (d.flag F.cphKeyInv_busy = true ↔ d.cipher.dropAsk ≠ [])) ∧
  (∀ s : State, Gives .drbgReseed s ((s.dev.setFlag F.cphStat_drbg_ok true).updCipher fun c => { c with drbgRequests := 0 })) ∧
  (∀ s : State, Gives .entropyHealthFail s ((s.dev.setFlag F.cphStat_drbg_ok false).setFlag F.cphErr_entropy_fail true))

/-- Sanitize (R176).  Where none is running, Overwrite (action 3, with at most 16 passes asked for) and Crypto Erase (4) complete at
once with nothing buffered and their first step due; a pass gives every block of the media the pattern's 32 bits, inverted on the odd
ones with OIPBP, and empties locker tracks and checkpoints; then, with a healthy DRBG, keys are zeroed and the KEKs replaced, with no
life-cycle transition in progress the media and maps are emptied, and, where keys may be had, the last step ends it. -/
def Obligations.SanitizeRowsComplete : Prop :=
  (∀ (s : State) (h : HstId) (cid action owpass pattern : Nat) (oipbp : Bool), AdminRuns s h.val false false →
    s.dev.cipher.san.step = 0 → (action = 3 ∧ owpass ≤ 16) ∨ action = 4 →
    Brings (.sanitize h cid action owpass oipbp pattern) s fun d =>
      d.cipher.san = { step := if action = 3 then 5 else 2, overwrite := action == 3, passes := if owpass = 0 then 16 else owpass,
                       done := 0, pattern := pattern, oipbp := oipbp, failed := false } ∧
      d.host.extents = [] ∧ d.host.held = [] ∧ d.host.journal = [] ∧ d.out.head? = some (.cqe h.val 0 cid 0 0)) ∧
  (∀ (s : State) (word : Nat), s.dev.cipher.san.step = 5 →
    word = (if s.dev.cipher.san.oipbp = true ∧ s.dev.cipher.san.done % 2 = 1 then 2 ^ 32 - 1 - s.dev.cipher.san.pattern % 2 ^ 32
      else s.dev.cipher.san.pattern % 2 ^ 32) →
    Brings .sanitizeStepDone s fun d =>
      d.host.media.map (·.1) = s.dev.host.media.map (·.1) ∧
      (∀ m ∈ d.host.media, m.2.blk = .data (leBytes ((List.range 1024).flatMap fun _ => toBytes word 4) 0 4096) ∧ m.2.keys = none) ∧
      d.host.locker = [] ∧ d.host.mapCk = [] ∧
      (d.cipher.san.step, d.cipher.san.passes) =
        (if s.dev.cipher.san.passes ≤ 1 then (2, 0) else (5, s.dev.cipher.san.passes - 1))) ∧
  (∀ s : State, s.dev.cipher.san.step = 2 → s.dev.flag F.cphStat_drbg_ok = true →
    Brings .sanitizeStepDone s fun d => d.cipher.san.step = 3 ∧ d.cipher.store = [] ∧ d.cipher.tags = [] ∧ d.cipher.cache = [] ∧
      d.comp.ctxs = [] ∧ (∀ i, (d.slot i).state = 0 ∧ (d.slot i).wrapped = 0) ∧
      d.cipher.kek = Config.freeValue s.dev.draws) ∧
  (∀ s : State, s.dev.cipher.san.step = 3 → s.dev.sec.work = none →
    Brings .sanitizeStepDone s fun d => d.cipher.san.step = 4 ∧ d.host.media = [] ∧ d.host.locker = [] ∧ d.host.mapCk = [] ∧
      (∀ ns ∈ d.host.nss, ∀ z ∈ ns.zones, z.wp = 0) ∧ ∀ e ∈ d.host.detention, e.lba = none) ∧
  (∀ s : State, s.dev.cipher.san.step = 4 → keysPossible s.dev = true →
    Brings .sanitizeStepDone s fun d => d.cipher.san.step = 0 ∧ d.cipher.san.failed = s.dev.cipher.san.failed)

/-- TCG methods (R168, R169, R404).  In the life-cycle states that have the profiles: Properties answers; a session opens for one host
at a time, as Anybody or with an authority's credential, authenticates and closes; in a session Get returns a range's row; with the
range's authority and the keys a method needs Set sets its locks or makes it; Genkey and, for EraseMaster, Erase replace the key of a
range no buffered extent uses; Random returns at most 32 bytes, which are a free value. -/
def Obligations.TcgRowsComplete : Prop :=
  (∀ (s : State) (h : HstId) (cid : Nat), AdminRuns s h.val false false → tcgAvailable (wakeChip s.dev) = true →
    Brings (.tcgProperties h cid) s fun d =>
      d.out = .cqe h.val 0 cid 0 0 :: .page h.val cid [tcgOk, Config.freeValue s.dev.draws] :: s.dev.out ∧
      d.draws = s.dev.draws + 1) ∧
  (∀ (s : State) (h : HstId) (cid : Nat) (a : TcgArg), AdminRuns s h.val false false → tcgAvailable (wakeChip s.dev) = true →
    (s.dev.tcg 0).isOpen = false → (s.dev.tcg 1).isOpen = false → (a.authority ≤ 65 → a.credentialOk = true) →
    Brings (.tcgStartSession h cid a) s fun d => (d.tcg h.val).isOpen = true ∧
      (d.tcg h.val).auths = (if a.authority ≤ 65 then [a.authority] else []) ∧
      d.out = .cqe h.val 0 cid 0 0 :: .page h.val cid [tcgOk] :: s.dev.out) ∧
  (∀ (s : State) (h : HstId) (cid : Nat), AdminRuns s h.val false false → tcgAvailable (wakeChip s.dev) = true →
    (s.dev.tcg h.val).isOpen = true →
    Brings (.tcgEndSession h cid) s fun d => d.tcg h.val = {} ∧
      d.out = .cqe h.val 0 cid 0 0 :: .page h.val cid [tcgOk] :: s.dev.out) ∧
  (∀ (s : State) (h : HstId) (cid : Nat) (a : TcgArg), AdminRuns s h.val false false → tcgAvailable (wakeChip s.dev) = true →
    (s.dev.tcg h.val).isOpen = true → a.authority ≤ 65 →
    Brings (.tcgAuthenticate h cid a) s fun d =>
      d.out = .cqe h.val 0 cid 0 0 :: .page h.val cid [tcgOk, a.credentialOk.toNat] :: s.dev.out ∧
      (a.credentialOk = true → (d.tcg h.val).auths.contains a.authority = true) ∧
      (a.credentialOk = false → (d.tcg h.val).auths = (s.dev.tcg h.val).auths)) ∧
  (∀ (s : State) (h : HstId) (cid : Nat) (a : TcgArg) (r : KeyRange), AdminRuns s h.val false false →
    tcgAvailable (wakeChip s.dev) = true → (s.dev.tcg h.val).isOpen = true →
    (a.range = 0 → Gives (.tcgGet h cid a) s (adminPage (wakeChip s.dev) h.val cid
      [tcgOk, s.dev.cipher.globalRead.toNat, s.dev.cipher.globalWrite.toNat])) ∧
    (1 ≤ a.range → a.range ≤ 64 → s.dev.cipher.ranges.find? (fun r => r.idx + 1 == a.range) = some r →
      Gives (.tcgGet h cid a) s (adminPage (wakeChip s.dev) h.val cid
        [tcgOk, r.nsid, r.lo, r.hi - r.lo, r.readLock.toNat, r.writeLock.toNat]))) ∧
  (∀ (s : State) (h : HstId) (cid : Nat) (a : TcgArg), AdminRuns s h.val false false → tcgAvailable (wakeChip s.dev) = true →
    (s.dev.tcg h.val).isOpen = true → a.range ≤ 64 → mayRange s.dev h.val a.range = true → keyed (wakeChip s.dev) = true →
    a.bounds = none →
    (a.range = 0 → Brings (.tcgSet h cid a) s fun d => d.cipher.globalRead = a.lockRead ∧ d.cipher.globalWrite = a.lockWrite) ∧
    (1 ≤ a.range → (s.dev.cipher.ranges.any fun x => x.idx == a.range - 1) = true → Brings (.tcgSet h cid a) s fun d =>
      (∀ x ∈ d.cipher.ranges, x.idx = a.range - 1 → x.readLock = a.lockRead ∧ x.writeLock = a.lockWrite) ∧
      d.out.head? = some (.cqe h.val 0 cid 0 0))) ∧
  (∀ (s : State) (h : HstId) (cid : Nat) (a : TcgArg) (b : LbaRange), AdminRuns s h.val false false →
    tcgAvailable (wakeChip s.dev) = true → (s.dev.tcg h.val).isOpen = true → 1 ≤ a.range → a.range ≤ 64 →
    mayRange s.dev h.val a.range = true → keysPossible (wakeChip s.dev) = true → a.bounds = some b →
    boundsOk s.dev (a.range - 1) b = true →
    Brings (.tcgSet h cid a) s fun d => ∃ x ∈ d.cipher.ranges, x.idx = a.range - 1 ∧ x.nsid = b.nsid ∧ x.lo = b.slba ∧
      x.hi = b.slba + b.count ∧ x.readLock = a.lockRead ∧ x.writeLock = a.lockWrite) ∧
  (∀ (s : State) (h : HstId) (cid : Nat) (a : TcgArg) (r : KeyRange), AdminRuns s h.val false false →
    tcgAvailable (wakeChip s.dev) = true → (s.dev.tcg h.val).isOpen = true → 1 ≤ a.range → a.range ≤ 64 →
    keysPossible (wakeChip s.dev) = true → (s.dev.cipher.ranges.filter fun x => x.idx + 1 == a.range) = [r] →
    pairInUse s.dev (rangePair r.idx) = false → (s.dev.cipher.tags.any fun t => t.2 == rangePair r.idx + 1) = false →
    (mayRange s.dev h.val a.range = true → Brings (.tcgGenkey h cid a) s fun d =>
      (d.slot (2 * rangePair r.idx)).generation = ((s.dev.slot (2 * rangePair r.idx)).generation + 1) % 2 ^ 32 ∧
      (d.slot (2 * rangePair r.idx)).state = 1 ∧ d.out = .cqe h.val 0 cid 0 0 :: .page h.val cid [tcgOk] :: s.dev.out) ∧
    (mayRange s.dev h.val 65 = true → Brings (.tcgErase h cid a) s fun d =>
      (d.slot (2 * rangePair r.idx)).generation = ((s.dev.slot (2 * rangePair r.idx)).generation + 1) % 2 ^ 32 ∧
      (d.slot (2 * rangePair r.idx)).state = 1 ∧
      (∀ x ∈ d.cipher.ranges, x.idx = r.idx → x.readLock = false ∧ x.writeLock = false) ∧
      d.out = .cqe h.val 0 cid 0 0 :: .page h.val cid [tcgOk] :: s.dev.out)) ∧
  (∀ (s : State) (h : HstId) (cid count : Nat), AdminRuns s h.val false false → tcgAvailable (wakeChip s.dev) = true →
    (s.dev.tcg h.val).isOpen = true → count ≤ 32 →
    Brings (.tcgRandom h cid count) s fun d =>
      d.out = .cqe h.val 0 cid 0 0 :: .page h.val cid (tcgOk :: pageField (Config.freeValue s.dev.draws) count) :: s.dev.out ∧
      d.draws = s.dev.draws + 1)

/-- Work of the media (R125-R132, R217, R227).  Cleaning of a band pair begins with a context and a task; a checkpoint of a conventional
namespace holds its map, and its journal records go; a map whose HDAs are ready is built from checkpoint and journal and admits I/O;
with idle media and no D2 session Homework's read marks a weak band and is no longer due there, and a marked band of a full zone,
where D plus the band fits B, takes its shared entry, counts in the dirty data and has its task; a ladder's next enabled step leaves
its result, without held samples shows the skip, and comes to the next. -/
def Obligations.MediaWorkRowsComplete : Prop :=
  (∀ (s : State) (nsid band : Nat) (act : ActId) (ns : Ns), s.dev.ns? nsid = some ns → bandsFree ns act.val < 4 →
    cleanable s.dev ns act.val band = true →
    Brings (.cleaningStart nsid act band) s fun d => (∃ x : Ctx, x.id = s.dev.host.nextId ∧ x.org = .internal ∧
        x.traffic = some .homework ∧ d.host.ctxs = s.dev.host.ctxs ++ [x]) ∧
      ∃ t ∈ d.host.tasks, t.kind = .clean nsid band ∧ t.act = act.val) ∧
  (∀ (s : State) (nsid : Nat) (ns : Ns), s.dev.ns? nsid = some ns → ns.zoned = false → ns.mapReady = true →
    (ns.mapDirty = true ∨ 2 ^ 20 ≤ ns.hostWrites) →
    Brings (.mapCheckpoint nsid) s fun d => d.ns? nsid = some { ns with mapDirty := false, hostWrites := 0 } ∧
      tabGet [] d.host.mapCk nsid = nsMedia s.dev nsid ∧ d.host.journal = s.dev.host.journal.filter fun j => j.nsid != nsid) ∧
  (∀ (s : State) (nsid : Nat) (ns : Ns), s.dev.ns? nsid = some ns → ns.mapReady = false →
    (∀ a, a < 8 → ns.actMask.testBit a = true → hdaReady s.dev (a / 2) = true) →
    Brings (.mapLoad nsid) s fun d => d.ns? nsid = some { ns with mapReady := true, mapDirty := false, hostWrites := 0 } ∧
      d.host.media = (recoverMap s.dev nsid).host.media) ∧
  (∀ (s : State) (act : ActId) (head : HeadId) (band errs iters i : Nat) (second weak : Bool) (ns : Ns) (z : Zone),
    hdaReady s.dev (act.val / 2) = true → actWork s.dev act.val = false → s.dev.sec.d2Held = false →
    bandOwner s.dev act.val head.val band = some (ns, i) → s.dev.ns? ns.nsid = some ns → ns.zones[i]? = some z →
    second = !(z.headA == head.val && z.bandA == band) → bandSectors s.dev ns z second ≠ 0 →
    weak = weakMargin s.dev (channelOf s.dev act.val head.val) errs iters →
    Brings (.homeworkRead act head band ⟨errs, iters⟩) s fun d =>
      (d.zone? ns.nsid i).map (fun z => (z.markA, z.markB)) =
        some (if second then (z.markA, z.markB || weak) else (z.markA || weak, z.markB)) ∧
      ∀ x ∈ d.host.homeworkDue, ¬ (x.1 = act.val ∧ x.2.1 = head.val ∧ bandTrack s.dev (act.val / 2) band 0 ≤ x.2.2 ∧
        x.2.2 ≤ bandTrack s.dev (act.val / 2) band (fmtBandMib s.dev (act.val / 2) * 256 - 1))) ∧
  (∀ (s : State) (nsid zi units key : Nat) (second : Bool) (ns : Ns) (z : Zone) (x : Ctx), s.dev.ns? nsid = some ns → ns.zoned = true →
    s.dev.zone? nsid zi = some z → (z.markA || z.markB) = true → z.state = .full → hdaReady s.dev (z.act / 2) = true →
    s.dev.sec.d2Held = false → actWork s.dev z.act = false → second = !z.markA → units = fmtBandMib s.dev (z.act / 2) * 256 →
    dirtyAll s.dev + units ≤ boundAll s.dev → (s.dev.host.held.any fun h => h.kind == 2 && h.key / 2 == nsid * 2 ^ 20 + zi) = false →
    key = (nsid * 2 ^ 20 + zi) * 2 + second.toNat →
    x = { id := s.dev.host.nextId, fe := 6, org := .internal, stage := .media, begun := true, traffic := some .homework,
          c := { kind := .verify, nsid := nsid, value := zi + 1 },
          locks := [{ excl := false, nsid := nsid, lo := zi * zoneSize s.dev ns, hi := (zi + 1) * zoneSize s.dev ns }] } →
    lockFree s.dev x = true → internalFree s.dev = true →
    Brings (.homeworkRewrite nsid zi) s fun d =>
      d.host.held = s.dev.host.held ++ [{ kind := 2, key := key, hda := z.act / 2, units := units }] ∧
      d.host.ctxs = s.dev.host.ctxs ++ [x] ∧ d.host.order = s.dev.host.order ++ [x.id] ∧
      ∃ t ∈ d.host.tasks, t.kind = .homeWrite nsid zi second ∧ t.act = z.act) ∧
  (∀ (s : State) (act : ActId) (head : HeadId) (nsid lba step erasures errs iters c : Nat) (held : Bool) (ns : Ns),
    s.dev.ns? nsid = some ns → c = channelOf s.dev act.val head.val → nextStep s.dev c (ladderAt s.dev nsid lba) = some step →
    (s.dev.mediaBlk nsid lba).mapped = true → (s.dev.mediaBlk nsid lba).act = act.val →
    (step ≤ 3 → held = false → ∀ r, Brings (.retryLadderStep act head nsid lba step held erasures r) s fun d =>
      d.flag F.chnResult_skipped c = true ∧ ladderAt d nsid lba = if (nextStep s.dev c step).isNone then 0 else step) ∧
    ((4 ≤ step ∨ held = true) → Brings (.retryLadderStep act head nsid lba step held erasures (.decoded errs iters)) s fun d =>
      d.rd F.chnResult_step c = step ∧ d.rd F.chnResult_status c = 0 ∧ d.rd F.chnResult_iter c = iters % 64 ∧
      d.rd F.chnResult_errs c = min errs 65535 ∧ ladderAt d nsid lba = 0) ∧
    ((4 ≤ step ∨ held = true) → Brings (.retryLadderStep act head nsid lba step held erasures .failed) s fun d =>
      d.rd F.chnResult_step c = step ∧ d.rd F.chnResult_status c = 1 ∧
      ladderAt d nsid lba = if (nextStep s.dev c step).isNone then 0 else step))

/-- Lookups, fills and maintenance of the map cache (R134-R138).  With the cache enabled and no tag error a hit counts, a write leaves
its entry dirty (unless a disable runs), and a lookup whose fill is in flight joins its waiters; a miss of cache and side buffer counts
and begins a fill in the entry that the LFSR selects; a fill of a page that is not poisoned becomes valid; with prefetch on a page
enters the side buffer; with no fill of its page in flight Clean writes a dirty entry back, Invalidate removes it, and both together
do both; a disable ends with nothing cached once no fill is in flight. -/
def Obligations.MapCacheRowsComplete : Prop :=
  (∀ (s : State) (page i id : Nat) (write : Bool) (e : MapEntry), s.dev.flag F.mapStat_enabled = true →
    pageIndex s.dev page = some i → mapSlot s.dev i = some e → e.poison = false →
    Brings (.mapLookup page write 0 id) s fun d =>
      d.rd F.mapHits_count = (s.dev.rd F.mapHits_count + 1) % 2 ^ F.mapHits_count.w ∧
      mapSlot d i = some { e with dirty := e.dirty || (write && !s.dev.flag F.mapStat_disabling), filling := e.filling.map fun ids => ids ++ [id] }) ∧
  (∀ (s : State) (page i id : Nat) (write : Bool), s.dev.flag F.mapStat_enabled = true → pageIndex s.dev page = none →
    s.dev.map.side.contains page = false → victim s.dev = some i →
    Brings (.mapLookup page write 0 id) s fun d =>
      d.rd F.mapMisses_count = (s.dev.rd F.mapMisses_count + 1) % 2 ^ F.mapMisses_count.w ∧
      mapSlot d i = some { page := page, dirty := write && !s.dev.flag F.mapStat_disabling, filling := some [id] } ∧
      d.rd F.mapLfsr_state = lfsrStep (s.dev.rd F.mapLfsr_state) % 2 ^ F.mapLfsr_state.w) ∧
  (∀ (s : State) (page i : Nat) (ids : List Nat) (e : MapEntry), pageIndex s.dev page = some i → mapSlot s.dev i = some e → e.filling = some ids →
    (pageFromDram s.dev page).1 = false →
    Brings (.mapFillDone page) s fun d => mapSlot d i = some { e with filling := none, poison := false }) ∧
  (∀ (s : State) (page : Nat), s.dev.flag F.mapStat_enabled = true → s.dev.flag F.mapCtl_prefetch_en = true →
    pageIndex s.dev page = none → s.dev.map.side.contains page = false →
    Brings (.mapPrefetch page) s fun d =>
      d.map.side = (if 4 ≤ s.dev.map.side.length then s.dev.map.side.drop 1 else s.dev.map.side) ++ [page] ∧
      d.map.entries = s.dev.map.entries) ∧
  (∀ (s : State) (rq : Requester) (page i : Nat) (e : MapEntry), s.dev.flag F.mapMaintStat_busy = false →
    fillInFlight s.dev (page % 2 ^ 24) = false → pageIndex s.dev (page % 2 ^ 24) = some i → mapSlot s.dev i = some e →
    (Brings (.mapClean rq page) s fun d => mapSlot d i = some { e with dirty := false } ∧ d.flag F.mapMaintStat_hit = true ∧
      d.flag F.mapMaintStat_busy = false ∧ (e.dirty = true → e.poison = true → d.map.poisoned.contains e.page = true)) ∧
    (Brings (.mapInvalidate rq page) s fun d => mapSlot d i = none ∧ d.flag F.mapMaintStat_hit = true ∧
      d.map.side.contains (page % 2 ^ 24) = false) ∧
    (Brings (.mapCleanInvalidate rq page) s fun d => mapSlot d i = none ∧ d.flag F.mapMaintStat_hit = true ∧
      (e.dirty = true → e.poison = true → d.map.poisoned.contains e.page = true))) ∧
  (∀ (s : State) (page op : Nat), s.dev.map.waiting = some (page, op) → fillInFlight s.dev page = false →
    Brings .mapMaintDone s fun d => d.map.waiting = none ∧ d.flag F.mapMaintStat_busy = false) ∧
  (∀ (s : State) (rq : Requester),
    Brings (.mapEnable rq) s fun d => d.flag F.mapCtl_enable = true ∧
      (s.dev.flag F.mapStat_disabling = false → d.flag F.mapStat_enabled = true)) ∧
  (∀ (s : State) (rq : Requester),
    Brings (.mapDisable rq) s fun d => d.flag F.mapCtl_enable = false ∧
      (s.dev.flag F.mapStat_enabled = true → d.flag F.mapStat_disabling = true)) ∧
  (∀ s : State, s.dev.flag F.mapStat_disabling = true →
    (s.dev.map.entries.any fun e => e.2.any fun x => x.filling.isSome) = false →
    Brings .mapDisableComplete s fun d => d.map.entries = [] ∧ d.map.side = [] ∧ d.flag F.mapStat_disabling = false ∧
      d.flag F.mapStat_enabled = s.dev.flag F.mapCtl_enable ∧ d.rd F.mapStat_dirty = 0)

/-- Groups of the map array and the scratch windows (R139, R140, R446).  With at most four scratch bits asked for: a group asked to
power down or to become scratch turns busy on its way there; its bit cleared, it is asked back; the end of the transition, with no fill
and no lesson's access in the group, leaves it as asked, empty and zeroed; a control core's aligned access within the window of a
scratch group reads, where no word is poisoned, or writes its bytes. -/
def Obligations.MapGroupRowsComplete : Prop :=
  (∀ (s : State) (rq : Requester) (g : Fin 8),
    ((List.range 8).filter fun k => (s.dev.rd F.mapGrpCtl_scratch).testBit k).length ≤ 4 → groupNow s.dev g.val ≠ 1 →
    Brings (.mapGroupPowerDown rq g) s fun d => d.bit F.mapGrpCtl_pwr_down g.val = true ∧ d.bit F.mapGrpStat_busy g.val = true ∧
      (g.val, 1) ∈ d.map.moving) ∧
  (∀ (s : State) (rq : Requester) (mask : Fin 256),
    ((List.range 8).filter fun k => (s.dev.rd F.mapGrpCtl_scratch ||| mask.val).testBit k).length ≤ 4 →
    Brings (.mapGroupScratch rq mask) s fun d =>
      d.rd F.mapGrpCtl_scratch = (s.dev.rd F.mapGrpCtl_scratch ||| mask.val) % 2 ^ F.mapGrpCtl_scratch.w ∧
      ∀ g : Fin 8, mask.val.testBit g.val = true → s.dev.bit F.mapGrpCtl_pwr_down g.val = false → groupNow s.dev g.val ≠ 2 →
        d.bit F.mapGrpStat_busy g.val = true ∧ (g.val, 2) ∈ d.map.moving) ∧
  (∀ (s : State) (rq : Requester) (g : Fin 8),
    ((List.range 8).filter fun k => (s.dev.rd F.mapGrpCtl_scratch).testBit k).length ≤ 4 →
    (Brings (.mapGroupRestore rq g true) s fun d => d.bit F.mapGrpCtl_scratch g.val = false ∧
      (s.dev.bit F.mapGrpStat_down g.val = false → d.bit F.mapGrpStat_is_scratch g.val = false)) ∧
    (Brings (.mapGroupRestore rq g false) s fun d => d.bit F.mapGrpCtl_pwr_down g.val = false)) ∧
  (∀ (s : State) (g : Fin 8) (t : Nat), s.dev.map.moving.find? (fun x => x.1 == g.val) = some (g.val, t) →
    (∀ k, k < 8 → (mapSlot s.dev (8 * g.val + k)).any (fun e => e.filling.isSome) = false) →
    (∀ a, a < 8 → ∀ (st : Bool) (sel half : Nat) (next : SeqNext), (s.dev.seq a).wait ≠ .scratch st sel g.val half next) →
    ∃ d, GivesMem (.mapGroupTransitionDone g) s d (memZero s.mem (scratchBase g.val) 0x8000) ∧
      d.bit F.mapGrpStat_down g.val = (t == 1) ∧ d.bit F.mapGrpStat_is_scratch g.val = (t == 2) ∧
      d.bit F.mapGrpStat_busy g.val = false ∧ ∀ k, k < 8 → mapSlot d (8 * g.val + k) = none) ∧
  (∀ (s : State) (c : Fin 8) (g : Fin 8) (off n : Nat), off < 0x8000 → legalSize off n = true →
    s.dev.bit F.mapGrpStat_is_scratch g.val = true →
    ((macRead s.dev (256 + g.val) off n).1 = false →
      GivesMem (.scratchAccess (.core c) g off (.rd n)) s
        ((macRead s.dev (256 + g.val) off n).2.emit (.bus c.val true (memRead s.mem (scratchBase g.val + off) n))) s.mem) ∧
    ∀ data : BitVec 64, GivesMem (.scratchAccess (.core c) g off (.wr n data)) s
      ((macWritten s.dev (256 + g.val) off n).emit (.bus c.val true 0)) (memWrite s.mem (scratchBase g.val + off) data.toNat n))

/-- The states of a Lomey port (R309, R323, R324, R334, R403).  A training port whose lanes at both ends make a group takes its width,
tells its lanes, and is UP unless either end wants a session; without a lane it falls back in rate; it starts again 1 s after a secure
timeout; an UP port retrains, and returns to UP where no frame has been sent nine times, or goes DEAD; a session that fits brings a
port up encrypted, and none takes it down; an UP port that is restored joins the routing; keys are updated after 2^32 frames. -/
def Obligations.PortRowsComplete : Prop :=
  (∀ (s : State) (p : LmlId) (lanes peer : Fin 256) (width delay w base : Nat) (enc : Bool), training s.dev p.val = true →
    linkGroup (lanes.val &&& peer.val) (min (s.dev.rd F.lmlCfg_width p.val) width) = some (w, base) →
    Brings (.trainingComplete p lanes peer width enc delay) s fun d =>
      d.rd F.lmlStat_state p.val = (if s.dev.flag F.lmlCfg_encrypt p.val || enc then 2 else 3) ∧
      d.rd F.lmlStat_width p.val = w % 2 ^ F.lmlStat_width.w ∧ d.rd F.lmlStat_lanes p.val = lanes.val ∧
      d.rd F.lmlStat_link_delay p.val = delay % 2 ^ F.lmlStat_link_delay.w ∧ (d.lport p.val).expect = 0 ∧
      Emit.unit p.val 0x33 (controlFlit none none [] (lanes.val + 256 * s.dev.rd F.lmlStat_rate p.val)) ∈ d.out ∧
      ∀ c, c < 8 → d.rd F.lmlCred_tx_avail p.val c = 512) ∧
  (∀ (s : State) (p : LmlId), training s.dev p.val = true →
    Gives (.trainingRateFallback p) s (s.dev.wr F.lmlStat_rate (min 2 (s.dev.rd F.lmlStat_rate p.val + 1)) p.val)) ∧
  (∀ (s : State) (p : LmlId), s.dev.rd F.lmlStat_state p.val = 0 → s.dev.rd F.lmlStat_down_cause p.val = 5 →
    s.dev.flag F.lmlCfg_used p.val = true → lmlClockLost s.dev p.val = false →
    Brings (.trainingRetryTimer p) s fun d => d.rd F.lmlStat_state p.val = 1 ∧ d.rd F.lmlStat_down_cause p.val = 0 ∧
      d.rd F.lmlStat_width p.val = 0) ∧
  (∀ (s : State) (p : LmlId), s.dev.rd F.lmlStat_state p.val = 3 →
    Gives (.linkRetrain p) s ((s.dev.wr F.lmlStat_state 4 p.val).setFlag F.lmlEvt_retrain true p.val)) ∧
  (∀ (s : State) (p : LmlId), s.dev.rd F.lmlStat_state p.val = 4 →
    (∀ x, (s.dev.lport p.val).retry.head? = some x → x.sends < 9) →
    Brings (.retrainComplete p) s fun d => d.rd F.lmlStat_state p.val = 3 ∧ d.flag F.lmlEvt_up p.val = true) ∧
  (∀ (s : State) (p : LmlId), s.dev.rd F.lmlStat_state p.val = 4 →
    Brings (.retrainTimeout p) s fun d => d.rd F.lmlStat_state p.val = 5 ∧ d.flag F.lmlStat_routed p.val = false ∧
      d.flag F.lmlStat_secure p.val = false ∧ d.flag F.lmlEvt_dead p.val = true) ∧
  (∀ (s : State) (p : LmlId), s.dev.rd F.lmlStat_state p.val = 2 →
    Brings (.secureWaitTimeout p) s fun d => d.rd F.lmlStat_state p.val = 0 ∧ d.rd F.lmlStat_down_cause p.val = 5 ∧
      d.flag F.lmlStat_secure p.val = false ∧ (d.lport p.val).retry = [] ∧ (d.lport p.val).txq = []) ∧
  (∀ (s : State) (p : LmlId), s.dev.rd F.lmlStat_state p.val = 2 → s.dev.rd F.secLc_state ≠ 5 →
    Brings (.secureSessionEstablished p true (tabGet 0 s.dev.sec.otp.keyHash 2) false) s fun d =>
      d.rd F.lmlStat_state p.val = 3 ∧ d.flag F.lmlStat_secure p.val = true ∧
      d.flag F.lmlStat_routed p.val = !(s.dev.lport p.val).restoring) ∧
  (∀ (s : State) (p : LmlId), s.dev.rd F.lmlStat_state p.val = 3 → s.dev.flag F.lmlStat_routed p.val = false →
    Brings (.routingRestore p) s fun d => d.flag F.lmlStat_routed p.val = true ∧ d.flag F.lmlEvt_restored p.val = true) ∧
  (∀ (s : State) (p : LmlId), s.dev.flag F.lmlStat_secure p.val = true → 2 ^ 32 ≤ (s.dev.lport p.val).keyFrames →
    Brings (.sessionKeyUpdateDue p) s fun d => (d.lport p.val).keyGen = (s.dev.lport p.val).keyGen + 1)

/-- Frames and control flits of an UP Lomey port (R315-R321).  A sound flit acknowledges frames up to a number in the retry buffer, and
one whose CRC fails changes nothing at the link; acknowledgements and freed credit that are due go out in a flit; the oldest
unacknowledged frame is sent again where credit allows it, and its ninth time exhausts the link; a queued frame whose budget ends is
dropped; a good frame in order takes the expected number, and one that fails its CRC does not, counts, and gets a NAK unless one is
outstanding. -/
def Obligations.LinkRowsComplete : Prop :=
  (∀ (s : State) (p : LmlId) (n : Nat), s.dev.rd F.lmlStat_state p.val = 3 → n < 4096 →
    ((s.dev.lport p.val).retry.any fun x => x.f.seq == n) = true →
    Brings (.linkControlFlit p (some n) none [] true) s fun d => d.rd F.lmlRetry_acked p.val = n) ∧
  (∀ (s : State) (p : LmlId) (ack nak : Option Nat) (credit : List Nat), Gives (.linkControlFlit p ack nak credit false) s (settleChain s.dev)) ∧
  (∀ (s : State) (p : LmlId) (l : LPort), l = s.dev.lport p.val →
    (l.unacked ≠ 0 → Brings (.linkAckTimer p) s fun d => (d.lport p.val).unacked = 0 ∧
      d.out = .unit p.val 0x33 (controlFlit (some ((l.expect + 4095) % 4096)) none ((List.range 8).map fun c => tabGet 0 l.freed c) 0) ::
        .flit p.val (some ((l.expect + 4095) % 4096)) none ((List.range 8).map fun c => tabGet 0 l.freed c) :: s.dev.out) ∧
    (l.told ≠ 0 → Brings (.linkCreditTimer p) s fun d => (d.lport p.val).told = 0 ∧
      d.out = .unit p.val 0x33 (controlFlit (some ((l.expect + 4095) % 4096)) none ((List.range 8).map fun c => tabGet 0 l.freed c) 0) ::
        .flit p.val (some ((l.expect + 4095) % 4096)) none ((List.range 8).map fun c => tabGet 0 l.freed c) :: s.dev.out)) ∧
  (∀ (s : State) (p : LmlId) (x : Sent) (rest : List Sent), s.dev.rd F.lmlStat_state p.val = 3 →
    (s.dev.lport p.val).retry = x :: rest →
    (9 ≤ x.sends → Brings (.linkReplayTimeout p) s fun d => d.rd F.lmlStat_state p.val = 5) ∧
    (x.sends < 9 → x.stomp = false → x.f.length ≤ s.dev.rd F.lmlCred_tx_avail p.val x.f.tc →
      Brings (.linkReplayTimeout p) s fun d => d.rd F.lmlStat_state p.val = 3 ∧ Emit.lomey p.val x.f ∈ d.out)) ∧
  (∀ (s : State) (p : LmlId) (idx : Nat) (t : TxFrame), (s.dev.lport p.val).txq[idx]? = some t →
    Brings (.budgetExpiry p idx) s fun d => d.flag F.lmlEvt_budget_drop p.val = true) ∧
  (∀ (s : State) (p : LmlId) (f : Frame), s.dev.rd F.lmlStat_state p.val = 3 → f.seq = (s.dev.lport p.val).expect →
    Brings (.lomeyFrameReceived p f .good) s fun d => (d.lport p.val).expect = ((s.dev.lport p.val).expect + 1) % 4096) ∧
  (∀ (s : State) (p : LmlId) (f : Frame), s.dev.rd F.lmlStat_state p.val = 3 → s.dev.chain.selfNaks = [] →
    (s.dev.lport p.val).nakAsked = false →
    Brings (.lomeyFrameReceived p f .crcBad) s fun d => (d.lport p.val).expect = (s.dev.lport p.val).expect ∧
      (d.lport p.val).nakAsked = true ∧ d.rd F.lmlCnt_count p.val 0 = (s.dev.rd F.lmlCnt_count p.val 0 + 1) % 2 ^ F.lmlCnt_count.w ∧
      ∃ a c, Emit.flit p.val a (some (s.dev.lport p.val).expect) c ∈ d.out)

/-- Frames of a transaction at its target (R320, R325-R328).  A command not held, with room in the table and the transit share and fetching
not stopped, takes a dedupe entry and a context number; of a transaction in progress, unpoisoned write data is kept by its offset, CANCEL
ends it and frees its context, PROG goes out when due, and a missing XRDY not asked for too often is asked again on the other path where
a port leads there; an ended entry expires. -/
def Obligations.TargetRowsComplete : Prop :=
  (∀ (s : State) (p : LmlId) (f : Frame) (c : IoCmd), cmdOf f = some c → s.dev.entry f.src f.tag = none →
    s.dev.chain.dedupe.length < 65536 → transitInUse s.dev < transitShare s.dev → chainStopped s.dev = false →
    Brings (.lomeyCmd p f) s fun d => d.host.nextId = s.dev.host.nextId + 1 ∧
      ∃ e, d.entry f.src f.tag = some e ∧ e.port = p.val ∧ e.id = s.dev.host.nextId ∧ e.cmd = f) ∧
  (∀ (s : State) (p : LmlId) (f : Frame) (e : Dedupe), s.dev.entry f.src f.tag = some e → e.active = true → f.poison = false →
    Brings (.lomeyWdata p f) s fun d => ∃ e, d.entry f.src f.tag = some e ∧ (f.spec.headD 0, f.body) ∈ e.got) ∧
  (∀ (s : State) (p : LmlId) (f : Frame) (e : Dedupe), s.dev.entry f.src f.tag = some e → e.active = true →
    Brings (.lomeyCancel p f) s fun d => d.ctx? e.id = none ∧ ∃ e, d.entry f.src f.tag = some e ∧ e.active = false) ∧
  (∀ (s : State) (src tag : Nat) (e : Dedupe), s.dev.entry src tag = some e → e.active = true →
    Gives (.progTimer src tag) s
      (settleChain (originate s.dev (mkFrame s.dev e.src ftProg e.tag e.path e.attempt e.rbudget [] [] 0)))) ∧
  (∀ (s : State) (src tag off q : Nat) (e : Dedupe), s.dev.entry src tag = some e → e.active = true → e.xrdy ≠ 0 →
    missingFrom e = some off → e.xrdy ≤ s.dev.rd F.lmlE2e_retries → s.dev.chain.selfNaks = [] →
    routeOf s.dev e.src (!e.path) false none = .send q →
    Brings (.xrdyRetryTimer src tag) s fun d => d.entry src tag = some { e with path := !e.path, xrdy := e.xrdy + 1 }) ∧
  (∀ (s : State) (src tag : Nat),
    Brings (.dedupeExpiry src tag) s fun d =>
      (∀ e ∈ d.chain.dedupe, e.src = src → e.tag = tag → e.active = true) ∧
      (∀ e ∈ s.dev.chain.dedupe, (e.src ≠ src ∨ e.tag ≠ tag) → e ∈ d.chain.dedupe) ∧
      d.rd F.lmlDedup_in_use = d.chain.dedupe.length % 2 ^ F.lmlDedup_in_use.w)

/-- Frames of a transaction at its root (R320, R325-R328).  ACK and PROG show that the target holds it; the write data that XRDY asks for
goes out; unpoisoned read data of the attempt is kept while no CPL came; a CPL of status 0 ends the command of a host once every byte is
held; a busy NAK lets the command be sent again as it was; silence has it sent again with the next attempt on the other path where a
port leads there, and after its retries ends a command that writes nothing. -/
def Obligations.RootRowsComplete : Prop :=
  (∀ (s : State) (p : LmlId) (f : Frame) (t : RootTx), s.dev.rootTx f.tag = some t → s.dev.chain.selfNaks = [] →
    (Brings (.lomeyAck p f) s fun d => d.rootTx f.tag = some { t with acked := true, busy := false }) ∧
    (Brings (.lomeyProg p f) s fun d => d.rootTx f.tag = some { t with acked := true, busy := false })) ∧
  (∀ (s : State) (p : LmlId) (f : Frame) (t : RootTx) (x : Ctx) (parts : List (Nat × Nat × List Nat)) (g : RootTx → RootTx),
    s.dev.rootTx f.tag = some t → s.dev.ctx? t.id = some x → g = (fun u => { u with acked := true, path := f.path }) →
    parts = (dataParts x.c.kind (rootData x)).filter (fun q => decide (f.spec.headD 0 ≤ q.1 ∧ q.1 < f.spec.headD 0 + f.spec.getD 1 0)) →
    Gives (.lomeyXrdy p f) s (settleChain (forEach parts.zipIdx (s.dev.updTx f.tag g) fun d q =>
      originate d { mkFrame d t.addr ftWdata t.tag f.path t.attempt t.cmd.budget [q.1.1, q.1.2.1] q.1.2.2 ((q.1.2.1 + 63) / 64) with
        last := q.2 + 1 == parts.length }))) ∧
  (∀ (s : State) (p : LmlId) (f : Frame) (t : RootTx), s.dev.rootTx f.tag = some t → s.dev.chain.selfNaks = [] →
    f.attempt = t.attempt → f.poison = false → t.cpl = none →
    Brings (.lomeyRdata p f) s fun d => d.rootTx f.tag = some { t with acked := true, got :=
      (t.got.filter fun g => g.1 != f.spec.headD 0) ++ [(f.spec.headD 0, f.spec.getD 1 0 :: f.body)] }) ∧
  (∀ (s : State) (p : LmlId) (f : Frame) (t : RootTx) (x : Ctx) (h qid cid : Nat), s.dev.rootTx f.tag = some t →
    s.dev.ctx? t.id = some x → x.org = .host h qid cid → f.spec.getD 3 0 = 0 → f.spec.getD 4 0 ≤ bytesHeld t →
    Brings (.lomeyCpl p f) s fun d => Emit.cqe h qid cid 0 (f.spec.headD 0) ∈ d.out ∧ d.ctx? t.id = none) ∧
  (∀ (s : State) (p : LmlId) (f : Frame) (t : RootTx), s.dev.rootTx f.tag = some t → s.dev.chain.selfNaks = [] →
    f.spec.headD 0 = 3 → f.spec.getD 1 0 = ftCmd →
    Brings (.lomeyNak p f) s fun d => d.rootTx f.tag = some { t with busy := true }) ∧
  (∀ (s : State) (tag q : Nat) (t : RootTx), s.dev.rootTx tag = some t → s.dev.chain.selfNaks = [] →
    t.sent ≤ s.dev.rd F.lmlE2e_retries → routeOf s.dev t.cmd.dest (!t.path) t.cmd.turned none = .send q →
    (t.acked = false → t.busy = false → Brings (.cmdRetryTimer tag) s fun d => ∃ u, d.rootTx tag = some u ∧
      u.path = !t.path ∧ u.attempt = t.attempt + 1 ∧ u.sent = t.sent + 1 ∧ u.acked = false ∧ u.got = []) ∧
    (t.acked = true → Brings (.idleTimer tag) s fun d => ∃ u, d.rootTx tag = some u ∧
      u.path = !t.path ∧ u.attempt = t.attempt + 1 ∧ u.sent = t.sent + 1 ∧ u.acked = false ∧ u.got = [])) ∧
  (∀ (s : State) (tag : Nat) (t : RootTx) (x : Ctx) (h qid cid : Nat), s.dev.rootTx tag = some t →
    s.dev.rd F.lmlE2e_retries + 1 ≤ t.sent → t.acked = false → t.busy = false → s.dev.ctx? t.id = some x →
    x.org = .host h qid cid → writesData x.c.kind = false →
    Brings (.cmdRetryTimer tag) s fun d => Emit.cqe h qid cid stUnreachable 0 ∈ d.out ∧ d.ctx? t.id = none) ∧
  (∀ (s : State) (tag q : Nat) (t : RootTx), s.dev.rootTx tag = some t → s.dev.chain.selfNaks = [] → t.busy = true →
    routeOf s.dev t.cmd.dest t.cmd.path t.cmd.turned none = .send q →
    Brings (.busyRetryTimer tag) s fun d => d.rootTx tag = some { t with busy := false })

/-- Roll Call (R324, R331-R333).  It starts on an idle root with its announcement; an announcement not heard before is kept; the root with
the lowest device ID leads, and takes address 1 unless it has one; a probe is relayed by its exit, or answered; a report is passed to
the node that asked, or taken by a surveying root when its address is free; an address is taken by a node without one; DONE of a new
generation, notices that tell a change, and routes take effect. -/
def Obligations.RollCallRowsComplete : Prop :=
  (∀ (s : State) (r : Bool), s.dev.flag F.lmlNode_root = true → s.dev.rd F.lmlRc_phase = 0 →
    Brings (.rollCallStart r) s fun d => d.rd F.lmlRc_phase = 1 ∧ d.chain.gen = (s.dev.chain.gen + 1) % 2 ^ 32 ∧
      d.chain.heard = [(s.dev.sec.otp.deviceId, (s.dev.chain.gen + 1) % 2 ^ 32)]) ∧
  (∀ (s : State) (p : LmlId) (devId gen : Nat), s.dev.chain.announced.contains (devId, gen) = false →
    Brings (.announce p devId gen) s fun d => d.chain.heard.contains (devId, gen) = true ∧
      (s.dev.flag F.lmlNode_root = true → s.dev.rd F.lmlRc_phase = 0 → d.rd F.lmlRc_phase = 1)) ∧
  (∀ s : State, s.dev.rd F.lmlRc_phase = 1 → (∃ h ∈ s.dev.chain.heard, h.1 < s.dev.sec.otp.deviceId) →
    Gives .announceTimeout s ((s.dev.setFlag F.lmlNode_lead false).wr F.lmlRc_phase 2)) ∧
  (∀ s : State, s.dev.rd F.lmlRc_phase = 1 → (∀ h ∈ s.dev.chain.heard, s.dev.sec.otp.deviceId ≤ h.1) →
    Brings .announceTimeout s fun d => d.flag F.lmlNode_lead = true ∧
      ((∃ p, p < 4 ∧ s.dev.rd F.lmlStat_state p = 3) → d.rd F.lmlRc_phase = 2) ∧
      (s.dev.rd F.lmlNode_addr = 0 → d.rd F.lmlNode_addr = 1)) ∧
  (∀ (s : State) (p : LmlId) (src exit gen : Nat), exit < 4 →
    Brings (.probe p src exit gen) s fun d => tabGet 0 d.chain.relayed exit = src + 1 ∧ ∀ f i j, f.id ≠ F.lmlRetry_next_seq.id →
      f.id ≠ F.lmlRetry_buf_used.id → f.id ≠ F.lmlRetry_sends.id → f.id ≠ F.lmlCred_tx_avail.id → d.rd f i j = s.dev.rd f i j) ∧
  (∀ (s : State) (p : LmlId) (src exit gen : Nat), 4 ≤ exit →
    Gives (.probe p src exit gen) s (rcLocal s.dev p.val 2 [s.dev.sec.otp.deviceId, s.dev.rd F.lmlNode_addr, s.dev.rd F.lmlStat_state 0,
      s.dev.rd F.lmlStat_state 1, s.dev.rd F.lmlStat_state 2, s.dev.rd F.lmlStat_state 3, (s.dev.flag F.lmlNode_root).toNat, p.val,
      (s.dev.flag F.lmlNode_fixed).toNat, s.dev.host.nss.length])) ∧
  (∀ (s : State) (p : LmlId) (devId addr arrival nss asked : Nat) (ports : List Nat) (root fixed : Bool),
    asked = tabGet 0 s.dev.chain.relayed p.val → asked ≠ 0 →
    Gives (.report p linkLocal devId addr ports root arrival fixed nss) s
      (rcTo (s.dev.updChain fun c => { c with relayed := tabErase c.relayed p.val, lastReport := some p.val }) (asked - 1) 2
        ([devId, addr] ++ ports ++ [root.toNat, arrival, fixed.toNat, nss]))) ∧
  (∀ (s : State) (p : LmlId) (devId addr arrival nss node exit : Nat) (ports : List Nat) (root fixed : Bool) (rest : List (Nat × Nat)),
    tabGet 0 s.dev.chain.relayed p.val = 0 → s.dev.rd F.lmlRc_phase = 2 → s.dev.chain.survey = (node, exit) :: rest →
    addr ≠ 0 → (s.dev.chain.nodes.any fun n => n.addr == addr && n.devId != devId) = false →
    Brings (.report p linkLocal devId addr ports root arrival fixed nss) s fun d =>
      ∃ n ∈ d.chain.nodes, n.devId = devId ∧ n.addr = addr ∧ n.root = root ∧ n.nss = nss) ∧
  (∀ (s : State) (p : LmlId) (addr gen : Nat), s.dev.rd F.lmlNode_addr = 0 →
    Brings (.assign p addr gen) s fun d => d.rd F.lmlNode_addr = addr % 2 ^ 24 ∧ d.out = s.dev.out) ∧
  (∀ (s : State) (p : LmlId) (gen : Nat), s.dev.rd F.lmlRc_generation ≠ gen → gen < 2 ^ 32 →
    (s.dev.flag F.lmlNode_root = false ∨ s.dev.flag F.lmlNode_lead = true) →
    Brings (.done p gen) s fun d => d.rd F.lmlRc_generation = gen ∧ d.rd F.lmlRc_phase = 0) ∧
  (∀ (s : State) (p : LmlId) (addr : Nat) (port : Fin 4) (up : Bool),
    tabGet 0 s.dev.chain.told (addr * 4 + port.val) ≠ 1 + up.toNat →
    Brings (.notice p addr port up) s fun d => tabGet 0 d.chain.told (addr * 4 + port.val) = 1 + up.toNat ∧
      (∀ l ∈ d.chain.links, (l.a = addr ∧ l.pa = port.val ∨ l.b = addr ∧ l.pb = port.val) → l.up = up)) ∧
  (∀ (s : State) (p : LmlId) (first : Nat) (w : BitVec 64), first < 64 →
    Brings (.route p first [w]) s fun d => d.rd F.lmlRt_pfx 0 first = w.toNat % 2 ^ 24 ∧
      d.rd F.lmlRt_len 0 first = w.toNat / 2 ^ 24 % 32 ∧ d.rd F.lmlRt_valid 0 first = w.toNat / 2 ^ 29 % 2 ∧
      d.rd F.lmlRt_primary 0 first = w.toNat / 2 ^ 30 % 4 ∧ d.rd F.lmlRt_alternate 0 first = w.toNat / 2 ^ 32 % 4 ∧
      d.rd F.lmlRt_alt_valid 0 first = w.toNat / 2 ^ 34 % 2)

/-- Attestation (R359, R402, R403).  At an endpoint that hears messages, each SPDM request of its stage is answered: the version starts
negotiation again, capabilities and supported algorithms advance it; once negotiated, digests, the certificate of slot 0, challenges of
slot 0, one measurement and a key exchange where no session is open are answered; a session with its MAC finishes, beats, updates its
keys and ends.  A message on the management bus is counted and wakes the chip; NVMe-MI is answered on the bus enabled.  GET_VERSION
comes in an SPDM frame of a Lomey port alike. -/
def Obligations.AttestationRowsComplete : Prop :=
  (∀ (s : State) (e : Fin 7) (w : Dev) (st : SpdmEnd), endpointOn s.dev e.val = true →
    w = (if e.val < 2 then wakeCs2 (s.dev.addSat F.mgtStat_mctp_rx 1) else s.dev) → st = s.dev.spdmEnd e.val →
    Gives (.getVersion e) s (spdmSend (w.updSpdm e.val fun _ => { stage := 1 }) e.val 0x04 [0x12]) ∧
    (st.stage = 1 → Gives (.getCapabilities e) s (spdmSend (w.updSpdm e.val fun x => { x with stage := 2 }) e.val 0x61 [spdmCaps])) ∧
    (st.stage = 2 → Gives (.negotiateAlgorithms e true) s (spdmSend (w.updSpdm e.val fun x => { x with stage := 3 }) e.val 0x63 [])) ∧
    (3 ≤ st.stage → Gives (.getDigests e) s (spdmSend w e.val 0x01 [1, Config.sha384 (toBytes (slotChain s.dev) 4096)])) ∧
    (3 ≤ st.stage → Gives (.getCertificate e 0) s (spdmSend w e.val 0x02 [0, slotChain s.dev])) ∧
    (3 ≤ st.stage → ∀ nonce, Gives (.challenge e 0 nonce) s (spdmSend { w with draws := w.draws + 2 } e.val 0x03
      [0, nonce, Config.freeValue w.draws, Config.freeValue (w.draws + 1)])) ∧
    (3 ≤ st.stage → ∀ i, 1 ≤ i → i ≤ 7 → Gives (.getMeasurements e i) s (spdmSend { w with draws := w.draws + 1 } e.val 0x60
      [1, i, measurement s.dev s.mem i, Config.freeValue w.draws])) ∧
    (3 ≤ st.stage → st.session = none → (e.val < 3 ∨ s.dev.rd F.secLc_state ≠ 5) → ∀ n, Gives (.keyExchange e n) s
      (spdmSend ({ w with draws := w.draws + 2 }.updSpdm e.val fun x => { x with session := some n, open_ := false }) e.val 0x64
        [n, Config.freeValue w.draws, Config.freeValue (w.draws + 1)])) ∧
    (st.session.isSome = true → st.open_ = false → Gives (.finish e true) s
      (spdmSend (w.updSpdm e.val fun x => { x with open_ := true }) e.val 0x65 [])) ∧
    (st.session.isSome = true → st.open_ = true → Gives (.heartbeat e) s (spdmSend w e.val 0x68 []) ∧
      Gives (.endSession e) s (spdmSend (w.updSpdm e.val fun x => { x with session := none, open_ := false }) e.val 0x6C []) ∧
      ∀ op, 1 ≤ op → op ≤ 3 → Gives (.keyUpdate e op) s (spdmSend
        (if 3 ≤ e.val ∧ op ≠ 3 then w.updLport (e.val - 3) (fun l => { l with keyGen := l.keyGen + 1 }) else w) e.val 0x69 [op]))) ∧
  (∀ (s : State) (p : LmlId) (msg : Nat), s.dev.rd F.lmlStat_state p.val = 2 → msg % 256 = 0x84 →
    Gives (.spdm p msg) s (sendLocal (s.dev.updSpdm (3 + p.val) fun _ => { stage := 1 }) p.val
      (mkFrame s.dev linkLocal ftSpdm 0 false 0 65535 [] [0x04, 0x12] 1))) ∧
  (∀ (s : State) (i3c : Bool), mgtStopped s.dev = false → s.dev.flag F.mgtCfg_i3c_en = i3c →
    Brings (.nvmeMiMessage i3c true) s fun d => d.out = .mi (Config.freeValue s.dev.draws) :: s.dev.out ∧ d.draws = s.dev.draws + 1 ∧
      d.rd F.mgtStat_mctp_rx = satTo F.mgtStat_mctp_rx.w (s.dev.rd F.mgtStat_mctp_rx + 1))

/-- Permission Slips, transitions and security faults (R387-R398, R414).  Outside DECOMMISSIONED, with no transition pending, a slip that
passes every check is recorded: a debug grant replaces the one in force, and a transition is pending with nothing buffered and the
erasure due; a D2 grant withholds the keys once nothing is in flight or buffered; a close ends the grant; once the erasure is over a
burn counts the life cycle up and begins the chip reset, as does production from BLANK, and from TEST with its fields programmed; the
dump key is kept where its hash is the device's; a security fault holds the chip in reset without its KEK. -/
def Obligations.SecurityRowsComplete : Prop :=
  (∀ (s : State) (b : SlipBytes) (P : Dev → Dev → Prop), s.dev.sec.work = none →
    P = (fun w d => d.rd F.secSlipStat_check = 0 ∧ d.flag F.secSlipStat_valid = true ∧
      d.rd F.secSerial_serial 0 (slipClass b) = slipSerial b % 2 ^ F.secSerial_serial.w ∧
      (slipKind b = 1 → d.sec.slip = some { level := slipLevel b, cycles := slipCycles b, signer := slipSigner b, flags := slipFlags b } ∧
        (d.sec.d2.isSome = true ↔ w.rd F.secLc_state = 3 ∧ slipLevel b = 2)) ∧
      (slipKind b ≠ 1 → d.sec.work = some { kind := slipKind b, owner := slipPayload b } ∧ d.cipher.san = { step := 2 } ∧
        d.host.extents = [])) →
    (s.dev.rd F.glbStructStat_activate < 2 → s.dev.rd F.secLc_state ≠ 5 → slipCheck s.dev b = (0, 0) →
      Brings (.permissionSlipSubmit none b) s (P s.dev)) ∧
    (∀ (h : HstId) (cid : Nat), AdminRuns s h.val false false → (wakeChip s.dev).rd F.secLc_state ≠ 5 →
      slipCheck (wakeChip s.dev) b = (0, 0) →
      Brings (.permissionSlipSubmit (some (h, cid)) b) s (P (wakeChip s.dev)))) ∧
  (∀ (s : State) (x : D2Work), s.dev.sec.d2 = some x → inFlight s.dev = false → copiesOf s.dev = [] →
    Brings .d2GrantDone s fun d => d.cipher.withheld = true ∧ d.cipher.kek = 0 ∧ d.flag F.cphStat_kek_loaded = false ∧ d.sec.d2 = none ∧
      d.sec.d2Held = true ∧ d.host.stops.contains 3 = false ∧ ∀ i, (d.slot i).state = 0) ∧
  (∀ s : State, Brings .debugSessionClose s fun d => d.sec.slip = none ∧ d.sec.d2 = none ∧
    (2 ≤ lcStateOf s.dev.sec.otp.lcCount → d.rd F.secDbg_level = 0)) ∧
  (∀ (s : State) (w : LcWork), s.dev.sec.work = some w → w.erasing = false →
    Brings .lifeCycleBurn s fun d => d.sec.otp.lcCount = (if w.kind = 4 then 32 else s.dev.sec.otp.lcCount + 1) ∧ d.sec.work = none ∧
      d.reset.stage = 3 ∧ d.sec.slip = none ∧ d.cipher.store = []) ∧
  (∀ (s : State) (f : Option ProdFields), s.dev.rd F.secLc_state = 0 →
    Brings (.productionProgram f) s fun d => d.sec.otp.lcCount = s.dev.sec.otp.lcCount + 1 ∧ d.reset.stage = 3) ∧
  (∀ (s : State) (f : ProdFields), s.dev.rd F.secLc_state = 1 → productionReady (burnFields f s.dev.sec.otp) = true →
    Brings (.productionProgram (some f)) s fun d => d.sec.otp.lcCount = s.dev.sec.otp.lcCount + 1 ∧ d.reset.stage = 3 ∧
      d.sec.otp.deviceId = s.dev.sec.otp.deviceId ||| f.deviceId ∧ d.sec.otp.rootSecret = s.dev.sec.otp.rootSecret ||| f.rootSecret) ∧
  (∀ (s : State) (h : HstId) (cid : Nat) (key : List (BitVec 8)), AdminRuns s h.val false false → key.length = 97 →
    s.dev.sec.otp.dumpHash ≠ 0 → Config.sha384 key = s.dev.sec.otp.dumpHash →
    Brings (.securitySendDumpKey h cid key) s fun d => d.card.dumpKey = some key ∧ d.out = .cqe h.val 0 cid 0 0 :: s.dev.out) ∧
  (∀ (s : State) (cause : Fin 4), s.dev.reset.held = false →
    Brings (.securityFault cause) s fun d => d.reset.held = true ∧ d.sec.fault = true ∧ d.rd F.secFault_cause = cause.val + 1 ∧
      d.cipher.kek = 0 ∧ d.flag F.cphStat_kek_loaded = false ∧ d.flag F.glbPins_fault_n = false)

/-- The Report Card (R405-R413).  An epoch that ends opens the next one, or waits while frozen; while not frozen checkpoints go round the
256 slots, of which a write whose read-back fails twice leaves its slot empty and counts; a freeze starts an empty third set and a
thaw, asked for or timed out, with no epoch end deferred, joins it to the current one; a cursor write begins a fill, whose end shows
the selected bytes as they are then; with auto-advance the last register's read answers and moves the cursor. -/
def Obligations.ReportCardRowsComplete : Prop :=
  (∀ s : State,
    (s.dev.flag F.evrCtl_frozen = false → Brings .epochEnd s fun d => d.card.cur.epoch = s.dev.card.cur.epoch + 1 ∧
      d.rd F.evrStat_epoch = (s.dev.card.cur.epoch + 1) % 2 ^ 32) ∧
    (s.dev.flag F.evrCtl_frozen = true → Brings .epochEnd s fun d => d.card.endedFrozen = true ∧
      d.card.cur.epoch = s.dev.card.cur.epoch ∧ d.card.slots = s.dev.card.slots)) ∧
  (∀ s : State, s.dev.flag F.evrCtl_frozen = false → Brings .checkpointTimer s fun d =>
    d.rd F.evrPos_seconds = 3600 * (s.dev.rd F.evrPos_seconds / 3600 + 1) % 2 ^ 64 ∧ d.card.ckNext = (s.dev.card.ckNext + 1) % 256) ∧
  (∀ s : State, s.dev.flag F.evrCtl_frozen = false → Brings .evrCheckpoint s fun d =>
    d.card.ckNext = (s.dev.card.ckNext + 1) % 256 ∧ d.draws = s.dev.draws + 1 ∧
    (((Config.freeValue s.dev.draws).testBit 0 && (Config.freeValue s.dev.draws).testBit 1) = false →
      d.cardSlot 2 s.dev.card.ckNext = recordBytes s.dev 2 s.dev.card.cur (s.dev.rd F.evrPos_seconds) ∧
      ∀ f i j, d.rd f i j = s.dev.rd f i j) ∧
    (((Config.freeValue s.dev.draws).testBit 0 && (Config.freeValue s.dev.draws).testBit 1) = true →
      d.cardSlot 2 s.dev.card.ckNext = [] ∧
      d.rd F.evrStat_nor_fail = satTo F.evrStat_nor_fail.w (s.dev.rd F.evrStat_nor_fail + 1))) ∧
  (∀ (s : State) (P : List Emit → Dev → Prop), s.dev.flag F.evrCtl_frozen = false →
    P = (fun o d => d.flag F.evrCtl_frozen = true ∧ d.card.frz = {} ∧ d.card.cur = s.dev.card.cur ∧ d.out = o ++ s.dev.out) →
    (Brings .evrFreeze s (P [])) ∧
    (∀ (h : HstId) (cid : Nat), AdminRuns s h.val false false → Brings (.reportCardFreeze h cid) s (P [.cqe h.val 0 cid 0 0]))) ∧
  (∀ (s : State) (P : List Emit → Dev → Prop), s.dev.flag F.evrCtl_frozen = true → s.dev.card.endedFrozen = false →
    s.dev.card.ckDue = false →
    P = (fun o d => d.flag F.evrCtl_frozen = false ∧ d.flag F.evrStat_auto_thawed = false ∧ d.card.frz = {} ∧
      d.card.cur = mergeAcc s.dev.card.cur s.dev.card.frz ∧ d.out = o ++ s.dev.out) →
    (Brings .evrThaw s (P [])) ∧
    (∀ (h : HstId) (cid : Nat), AdminRuns s h.val false false → Brings (.reportCardThaw h cid) s (P [.cqe h.val 0 cid 0 0]))) ∧
  (∀ s : State, s.dev.flag F.evrCtl_frozen = true → s.dev.card.endedFrozen = false → Brings .freezeTimeout s fun d =>
    d.flag F.evrCtl_frozen = false ∧ d.flag F.evrStat_auto_thawed = true ∧ d.card.frz = {}) ∧
  (∀ (s : State) (rq : Requester) (pr : Fin 2) (area : Fin 4) (index : Nat) (offset : Fin 16) (auto : Bool), index < 2 ^ 13 →
    Brings (.cursorFill rq pr area index offset auto) s fun d =>
      d.rd F.evrCursor_area 0 pr.val = area.val ∧ d.rd F.evrCursor_index 0 pr.val = index ∧
      d.rd F.evrCursor_offset 0 pr.val = offset.val ∧ d.flag F.evrCursor_auto 0 pr.val = auto ∧
      d.flag F.evrWinStat_filling 0 pr.val = true ∧ d.flag F.evrWinStat_ready 0 pr.val = false ∧
      d.flag F.evrWinStat_empty 0 pr.val = false) ∧
  (∀ (s : State) (pr : Fin 2) (b : List Byte) (v : Bool), s.dev.flag F.evrWinStat_filling 0 pr.val = true →
    cardImage s.dev (s.dev.rd F.evrCursor_area 0 pr.val) (s.dev.rd F.evrCursor_index 0 pr.val) = (b, v) →
    Brings (.windowFillDone pr) s fun d => d.flag F.evrWinStat_filling 0 pr.val = false ∧
      d.flag F.evrWinStat_ready 0 pr.val = true ∧ d.flag F.evrWinStat_empty 0 pr.val = !v ∧
      ∀ k, k < 32 → d.rd F.evrWindow_data 0 (32 * pr.val + k) = leBytes b (256 * s.dev.rd F.evrCursor_offset 0 pr.val + 8 * k) 8) ∧
  (∀ (s : State) (rq : Requester) (pr : Fin 2), s.dev.flag F.evrCursor_auto 0 pr.val = true →
    Brings (.windowAdvance rq pr) s fun d =>
      d.out = .bus (reqNum rq) true (s.dev.rd F.evrWindow_data 0 (32 * pr.val + 31)) :: s.dev.out ∧
      d.rd F.evrCursor_offset 0 pr.val = (s.dev.rd F.evrCursor_offset 0 pr.val + 1) % 16 ∧
      d.flag F.evrWinStat_filling 0 pr.val = true)

/-- Post-mortem resets, the watchdog, and raw preamplifier frames (R414-R417, R428).  Where no stop runs and the chip is not held, a
post-mortem reset asked for, or by a watchdog that is on, begins with a dump of the next number; a kick only starts the time again; with
none pending a raw frame is queued; it goes out at a present HDA's port when the frame before it ends and leaves what it read; the
first poll reads the ID. -/
def Obligations.PostMortemAndFrameRowsComplete : Prop :=
  (∀ (s : State) (P : Nat → Dev → Prop), stopping s.dev = false → s.dev.reset.held = false → s.dev.reset.waitCool = false →
    P = (fun o d => d.reset.stage = 3 ∧ d.reset.pm = some o ∧ (o = 1 → d.card.seq = s.dev.card.seq) ∧
      ∃ x : Dump, d.card.dump = some x ∧ x.seq = s.dev.card.seq + 1 ∧ x.second = s.dev.rd F.evrPos_seconds ∧
        x.cause = s.dev.rd F.evrPmCtl_cause) →
    (Brings .postMortemReset s (P 0)) ∧ (s.dev.rd F.evrWdog_timeout_ms ≠ 0 → Brings .watchdogExpiry s (P 1))) ∧
  (∀ s : State, Gives .watchdogKick s s.dev) ∧
  (∀ (s : State) (a : ActId) (r : Bool) (head addr : Nat) (data : BitVec 16), s.dev.flag F.pspRaw_busy a.val = false →
    head < 16 → addr < 2048 → Brings (.pspRawFrame a r head addr data) s fun d =>
      d.flag F.pspRaw_busy a.val = true ∧ d.flag F.pspRaw_rd a.val = r ∧ d.rd F.pspRaw_head a.val = head ∧
      d.rd F.pspRaw_addr a.val = addr ∧ d.rd F.pspRaw_data a.val = data.toNat ∧ (d.seq a.val).raw = some (r, head, addr, data.toNat) ∧ d.out = s.dev.out) ∧
  (∀ (s : State) (a : ActId) (data : BitVec 16) (r : Bool) (head addr v : Nat), (s.dev.seq a.val).raw = some (r, head, addr, v) →
    Brings (.pspFrameDone a data) s fun d => d.flag F.pspRaw_busy a.val = false ∧ (d.seq a.val).raw = none ∧
      (s.dev.hdaPresent (a.val / 2) = true → d.out = .psp a.val r head addr v :: s.dev.out) ∧
      d.rd F.pspRaw_data a.val = if r then data.toNat else s.dev.rd F.pspRaw_data a.val) ∧
  (∀ (s : State) (a : ActId) (data : BitVec 16), (s.dev.seq a.val).raw = none → s.dev.rd F.pspStat_frames a.val = 0 →
    Brings (.pspFrameDone a data) s fun d => d.rd F.pspStat_id a.val = data.toNat ∧ d.rd F.pspStat_frames a.val = 1 ∧
      d.out = s.dev.out)

/-- Loop-backs, injection, remapping and memory tests (R342, R347, R348, R419, R420).  In a domain that is not absent a depth that the block
has and whose authority and guard hold is taken, with the domain's vote and phase TEST; depth 0 ends it; a run that starts counts what
its checker finds; an injection is armed; a remap is taken for a row of a macro with a free spare and, where no access waits for it,
enters the table when it ends; a test with authority runs, and its end wipes what it tested. -/
def Obligations.TestAndEccRowsComplete : Prop :=
  (∀ (s : State) (rq : Requester) (site : Fin 39) (depth arg : Nat), domState s.dev (siteDom site.val) ≠ 2 → 0 < depth →
    depth ≤ loopMost site.val → loopAuthority s.dev = true → loopGuard s.dev rq site.val depth = true →
    Brings (.loopbackSelect rq site depth arg) s fun d => d.rd F.loop_depth site.val = depth ∧
      d.bit F.pwrVote_dom (siteDom site.val) 0 5 = true ∧ d.rd F.thmStat_phase = 3) ∧
  (∀ (s : State) (rq : Requester) (site : Fin 39) (arg : Nat), domState s.dev (siteDom site.val) ≠ 2 →
    Brings (.loopbackSelect rq site 0 arg) s fun d => d.rd F.loop_depth site.val = 0) ∧
  (∀ (s : State) (site : Fin 39) (locked : Bool) (errors checked : Nat), s.dev.rd F.loop_depth site.val ≠ 0 →
    s.dev.flag F.loop_run site.val = false →
    Brings (.loopbackRun site true locked errors checked) s fun d => d.flag F.loop_run site.val = true ∧
      d.flag F.loop_locked site.val = locked ∧ d.rd F.loopCnt_errors site.val = satTo F.loopCnt_errors.w errors ∧
      d.rd F.loopCnt_checked site.val = satTo F.loopCnt_checked.w checked) ∧
  (∀ (s : State) (addr mac kind : Nat), addr < 2 ^ 36 → mac < 1024 → kind < 3 →
    Brings (.eccInject addr mac kind) s fun d => d.flag F.eccInj_armed = true ∧ d.rd F.eccInj_addr = addr ∧
      d.rd F.eccInj_mac = mac ∧ d.rd F.eccInj_kind = kind) ∧
  (∀ (s : State) (mac row : Nat), s.dev.flag F.eccRemapCtl_busy = false → mac < 316 → row < macRows mac → sparesUsed s.dev mac < 16 →
    Brings (.eccRemap mac row) s fun d => d.flag F.eccRemapCtl_busy = true ∧ d.ecc.job = some (mac, row) ∧
      d.ecc.remap = s.dev.ecc.remap ∧ d.ecc.norRemap = s.dev.ecc.norRemap) ∧
  (∀ (s : State) (mac row : Nat), s.dev.ecc.job = some (mac, row) →
    (s.dev.power.stalled.any fun x => mayPerform (remapDone s.dev) x.2.1) = false →
    Brings .remapDone s fun d => d.flag F.eccRemapCtl_busy = false ∧ d.ecc.job = none ∧
      (∀ m, tabGet [] d.ecc.remap m = if m = mac then tabGet [] s.dev.ecc.remap mac ++ [(row, sparesUsed s.dev mac)]
        else tabGet [] s.dev.ecc.remap m) ∧
      d.ecc.norRemap = s.dev.ecc.norRemap ++ [remapRecord mac row (sparesUsed s.dev mac)]) ∧
  (∀ (s : State) (rq : Requester) (mac : Nat), s.dev.flag F.eccMbist_busy = false → loopAuthority s.dev = true → mac < 1024 →
    Brings (.mbistStart rq mac) s fun d => d.flag F.eccMbist_busy = true ∧ d.rd F.eccMbist_mac = mac ∧ d.ecc.bist = some mac) ∧
  (∀ (s : State) (rows : List (Nat × Nat)) (t : Nat), s.dev.ecc.bist = some t → ∃ d : Dev,
    GivesMem (.mbistDone rows) s d
      ((if t = 0x3FF then List.range 316 else [t]).foldl wipeWindow s.mem) ∧
    d.flag F.eccMbist_busy = false ∧ ∀ mac, mac < 316 → (t = 0x3FF ∨ t = mac) →
      ∀ x ∈ d.ecc.marks, x.1 / 2 ^ 36 ≠ mac)

/-- Clock, power, thermal, calibration, loop-back, memory-error, security, Report Card and preamplifier rows: what each may change.
Every other part of the device, every other register field and, where `mem` is not named, every byte of the windows stay as they
are. -/
def Obligations.PlatformFrames : Prop :=
  (∀ a b c, Changes (.busTimeout a b c) [.out, .power] busErrFlds) ∧
  (∀ a, Changes (.implicitVoteWithdraw a) [] [F.pwrVote_dom]) ∧
  (∀ a b, Changes (.xbarArbitrate a b) [.out, .xb] [F.xbrErrStat_c7_limited, F.xbrHallPass_ptr]) ∧
  (∀ a b c, Changes (.creditReturn a b c) [.xb] []) ∧
  (∀ a b, Changes (.clockDomainSwitch a b) [.chns] []) ∧
  (∀ a b, Changes (.regionEvent a b) [.out, .therm] (limitFlds ++ wakeFlds ++ [F.glbRegionStat_temp_over, F.glbRegionStat_temp_seen,
    F.glbRegionStat_volt_over, F.glbRegionStat_volt_seen, F.thmEvt_step_down, F.thmEvt_step_up, F.thmStat_fixed, F.thmStat_step])) ∧
  (∀ a b, Changes (.regionBitClear a b) [.out, .therm] (limitFlds ++ wakeFlds ++ [F.glbRegionStat_temp_over, F.glbRegionStat_volt_over,
    F.thmEvt_step_down, F.thmEvt_step_up, F.thmStat_fixed, F.thmStat_step])) ∧
  (∀ a b c, Changes (.perstDeassert a b c) [.host] (wakeFlds ++ [F.glbPins_perst_n])) ∧
  (∀ a, Changes (.voteWithdrawTimer a) [] [F.pwrVote_dom]) ∧
  (∀ a, Changes (.domainRetainEntry a) [] [F.pwrDom_dom]) ∧
  (∀ a b, Changes (.firmwareVote a b) [] [F.pwrHvote_hda, F.pwrVote_dom]) ∧
  (Changes .cs1Entry [] [F.pwrCs_state, F.pwrCs_target]) ∧
  (∀ a, Changes (.cs2Wake a) [] wakeFlds) ∧
  (∀ a, Changes (.powerThrottleCheck a) [.power, .card] (limitFlds ++ [F.pwrPs_power_mw])) ∧
  (∀ a, Changes (.spinupShareGrant a) [.spins, .power] []) ∧
  (Changes .throttleStepDown [.out, .therm] (limitFlds ++ wakeFlds ++ [F.thmEvt_step_down, F.thmEvt_step_up, F.thmStat_step])) ∧
  (∀ a, Changes (.sensorExclusion a) [.out, .therm, .card] (limitFlds ++ wakeFlds ++ [F.thmEvt_exclude, F.thmEvt_step_down,
    F.thmEvt_step_up, F.thmSens_excluded, F.thmStat_excluded, F.thmStat_fixed, F.thmStat_step])) ∧
  (Changes .thermalPhaseNormal [.therm] [F.thmStat_phase]) ∧
  (Changes .phaseTimeout [.therm] [F.thmStat_phase]) ∧
  (∀ a b, Changes (.headTemperaturePoll a b) [.out, .chns, .host, .therm, .card] (hostFlds ++ [F.calDue_due, F.chnFly_read_code,
    F.chnFly_td_code, F.chnFly_write_code, F.chnWstat_fly_ok, F.thmHead_head, F.thmStat_head_max])) ∧
  (∀ a b, Changes (.calibrationRequest a b) [.therm] [F.calCtl_inst, F.calCtl_kind, F.calDue_due]) ∧
  (∀ a b, Changes (.calibrationStart a b) [] [F.calDue_due, F.calStat_busy, F.calStat_inst, F.calStat_kind, F.pwrVote_dom]) ∧
  (∀ a b, Changes (.calibrationDeferExpiry a b) [] [F.calDue_due, F.calStat_busy, F.calStat_inst, F.calStat_kind, F.pwrVote_dom]) ∧
  (∀ a b c, Changes (.avsAdjust a b c) [.draws, .power] [F.glbAvs_avs_err, F.glbAvs_read_mv, F.glbAvs_target_mv]) ∧
  (∀ a, Changes (.clockLockRegained a) [.host, .servos, .reset] [F.lmlStat_down_cause, F.lmlStat_lanes, F.lmlStat_rate,
    F.lmlStat_state, F.lmlStat_width]) ∧
  (∀ a, Changes (.trainingRetryTimer a) [] [F.lmlStat_down_cause, F.lmlStat_lanes, F.lmlStat_rate, F.lmlStat_state, F.lmlStat_width]) ∧
  (∀ a b c d e, Changes (.loopbackRun a b c d e) [.out] [F.loopCnt_checked, F.loopCnt_errors, F.loop_locked, F.loop_run]) ∧
  (∀ a b c, Changes (.eccInject a b c) [] [F.eccInj_addr, F.eccInj_armed, F.eccInj_kind, F.eccInj_mac]) ∧
  (∀ a b, Changes (.eccRemap a b) [.out, .ecc, .host, .card] (hostFlds ++ [F.eccRemapCtl_busy, F.eccRemapCtl_fail, F.eccRemapCtl_mac,
    F.eccRemapCtl_row])) ∧
  (∀ a b, Changes (.mbistStart a b) [.ecc] [F.eccMbist_busy, F.eccMbist_mac]) ∧
  (∀ a, Changes (.mbistDone a) [.mem, .out, .ecc, .seqs] (hardFlds ++ [F.eccMbist_busy, F.eccMbist_fail, F.eccMbist_fail_macro,
    F.eccMbist_fail_row])) ∧
  (Changes .d2GrantDone [.out, .host, .cipher, .comp, .sec] (levelFlds ++ hostFlds ++ engineFlds ++ [F.cphStat_kek_loaded])) ∧
  (Changes .debugSessionClose [.out, .host, .sec] (levelFlds ++ hostFlds)) ∧
  (∀ a b c, Changes (.securitySendDumpKey a b c) [.out, .card] fetchFlds) ∧
  (Changes .epochEnd [.draws, .card] (wakeFlds ++ [F.evrPos_seconds, F.evrStat_epoch, F.evrStat_nor_fail])) ∧
  (Changes .checkpointTimer [.draws, .card] (wakeFlds ++ [F.evrPos_seconds, F.evrStat_nor_fail])) ∧
  (Changes .evrCheckpoint [.draws, .card] [F.evrStat_nor_fail]) ∧
  (∀ a b, Changes (.reportCardFreeze a b) [.out, .card] (fetchFlds ++ [F.evrCtl_frozen])) ∧
  (∀ a b, Changes (.reportCardThaw a b) [.out, .draws, .card] (fetchFlds ++ [F.evrCtl_frozen, F.evrStat_auto_thawed, F.evrStat_epoch,
    F.evrStat_nor_fail])) ∧
  (Changes .evrFreeze [.card] [F.evrCtl_frozen]) ∧
  (Changes .evrThaw [.draws, .card] [F.evrCtl_frozen, F.evrStat_auto_thawed, F.evrStat_epoch, F.evrStat_nor_fail]) ∧
  (Changes .freezeTimeout [.draws, .card] [F.evrCtl_frozen, F.evrPos_seconds, F.evrStat_auto_thawed, F.evrStat_epoch,
    F.evrStat_nor_fail]) ∧
  (∀ a b c d e f, Changes (.cursorFill a b c d e f) [] [F.evrCursor_area, F.evrCursor_auto, F.evrCursor_index, F.evrCursor_offset,
    F.evrWinStat_empty, F.evrWinStat_filling, F.evrWinStat_ready]) ∧
  (∀ a, Changes (.windowFillDone a) [] [F.evrWinStat_empty, F.evrWinStat_filling, F.evrWinStat_ready, F.evrWindow_data]) ∧
  (∀ a b, Changes (.windowAdvance a b) [.out] [F.evrCursor_index, F.evrCursor_offset, F.evrWinStat_empty, F.evrWinStat_filling,
    F.evrWinStat_ready]) ∧
  (Changes .watchdogKick [] []) ∧
  (∀ a b c d e, Changes (.pspRawFrame a b c d e) [.seqs] [F.pspRaw_addr, F.pspRaw_busy, F.pspRaw_data, F.pspRaw_head, F.pspRaw_rd]) ∧
  (∀ a b, Changes (.pspFrameDone a b) [.out, .seqs] [F.pspRaw_busy, F.pspRaw_data, F.pspStat_frames, F.pspStat_id])

/-- Sequencer, read-channel, write-path, servo, retract, spindle and hold-up rows: what each may change.
Every other part of the device, every other register field and, where `mem` is not named, every byte of the windows stay as they
are. -/
def Obligations.MediaFrames : Prop :=
  (∀ a, Changes (.sequencerTaskStart a) [.out, .seqs, .chns, .health, .therm] (resultFlds ++ seqFlds ++ bufferFlds ++
    [F.chnStat_timing_lock, F.chnWctl_arm, F.chnWstat_unsafe_seen, F.chnWstat_wlock])) ∧
  (∀ a b, Changes (.microwordExecute a b) [.out, .seqs, .chns, .therm] (resultFlds ++ seqFlds ++ bufferFlds ++ hardFlds ++
    [F.chnStat_timing_lock, F.sqrClamp_assist_clamped, F.sqrClamp_cust_priv, F.sqrMc_addr, F.sqrMc_count, F.sqrMc_fields,
    F.sqrMc_valid])) ∧
  (∀ a b, Changes (.waitConditionMet a b) [.out, .seqs, .chns, .therm] (resultFlds ++ bufferFlds ++ [F.chnStat_timing_lock,
    F.chnWcnt_count, F.chnWresult_cause, F.chnWresult_sector, F.chnWresult_status, F.chnWstat_assist_ok, F.chnWstat_fly_ok,
    F.chnWstat_unsafe, F.chnWstat_unsafe_now, F.sqrStat_cause, F.sqrStat_in_cust, F.sqrStat_pc, F.sqrStat_permit, F.sqrStat_sp,
    F.sqrStat_state, F.sqrStat_status])) ∧
  (∀ a b, Changes (.waitTimeout a b) [.out, .seqs, .chns, .therm] (resultFlds ++ bufferFlds ++ [F.chnStat_timing_lock, F.chnWcnt_count,
    F.chnWresult_cause, F.chnWresult_sector, F.chnWresult_status, F.chnWstat_assist_ok, F.chnWstat_fly_ok, F.chnWstat_unsafe,
    F.chnWstat_unsafe_now, F.sqrStat_cause, F.sqrStat_in_cust, F.sqrStat_pc, F.sqrStat_permit, F.sqrStat_sp, F.sqrStat_state,
    F.sqrStat_status])) ∧
  (∀ a b, Changes (.gateQueueSpace a b) [.out, .seqs, .chns, .therm] (resultFlds ++ seqFlds ++ bufferFlds ++ [F.chnStat_timing_lock,
    F.sqrClamp_assist_clamped])) ∧
  (∀ a b, Changes (.scratchAccessDone a b) [.mem, .out, .seqs, .chns, .therm] (resultFlds ++ bufferFlds ++ [F.chnStat_timing_lock,
    F.chnWcnt_count, F.chnWresult_cause, F.chnWresult_sector, F.chnWresult_status, F.chnWstat_assist_ok, F.chnWstat_fly_ok,
    F.chnWstat_unsafe, F.chnWstat_unsafe_now, F.sqrCnt_c, F.sqrStat_cause, F.sqrStat_in_cust, F.sqrStat_pc, F.sqrStat_permit,
    F.sqrStat_sp, F.sqrStat_state, F.sqrStat_status])) ∧
  (∀ a b, Changes (.gateEdge a b) [.out, .seqs, .chns, .health, .therm] (resultFlds ++ unsafeFlds ++ bufferFlds ++
    [F.chnApplied_applied, F.chnApplied_target, F.chnCnt_count, F.chnStat_overrun_seen, F.chnStat_timing_lock, F.chnTloop_preset,
    F.chnWstat_boost_clamped, F.sqrStat_cause, F.sqrStat_in_cust, F.sqrStat_sp, F.sqrStat_state, F.sqrStat_status])) ∧
  (∀ a, Changes (.sequencerAbort a) [.out, .seqs, .chns, .therm] (resultFlds ++ bufferFlds ++ [F.chnStat_timing_lock, F.chnWcnt_count,
    F.chnWresult_cause, F.chnWresult_sector, F.chnWresult_status, F.chnWstat_assist_ok, F.chnWstat_fly_ok, F.chnWstat_unsafe,
    F.chnWstat_unsafe_now, F.sqrStat_cause, F.sqrStat_in_cust, F.sqrStat_permit, F.sqrStat_sp, F.sqrStat_state, F.sqrStat_status])) ∧
  (∀ a b c, Changes (.sqrCustEn a b c) [.mem, .sec] [F.sqrCtl_cust_en]) ∧
  (∀ a b c d, Changes (.controlStoreWrite a b c d) [.mem, .out, .seqs] (busErrFlds ++ [F.eccInj_armed])) ∧
  (∀ a b, Changes (.controlStoreRepair a b) [.out, .seqs] hardFlds) ∧
  (∀ a b c d, Changes (.primarySyncFound a b c d) [.chns] [F.chnCnt_count, F.chnStat_timing_lock]) ∧
  (∀ a b c, Changes (.resyncSearchEnd a b c) [.chns] (resultFlds ++ bufferFlds ++ [F.chnCnt_count, F.chnSkew_fault_0,
    F.chnSkew_fault_1, F.chnStat_timing_lock])) ∧
  (∀ a, Changes (.sectorLastParity a) [.chns] (bufferFlds ++ [F.chnCnt_count])) ∧
  (∀ a b c, Changes (.decodeDone a b c) [.out, .draws, .ecc, .chns, .card] (memErrFlds ++ resultFlds ++ bufferFlds ++ hardFlds ++
    [F.chnCnt_count, F.chnEq_tap])) ∧
  (∀ a b c, Changes (.reframedDecodeDone a b c) [.out, .draws, .ecc, .chns, .card] (memErrFlds ++ resultFlds ++ bufferFlds ++ hardFlds
    ++ [F.chnCnt_count, F.chnEq_tap])) ∧
  (∀ a b, Changes (.redecodeAltSet a b) [.chns] (bufferFlds ++ [F.chnRedecode_busy, F.chnRedecode_done, F.chnRedecode_refused,
    F.chnRedecode_seq, F.chnRedecode_variant])) ∧
  (∀ a b, Changes (.redecodeHalvedThresholds a b) [.chns] (bufferFlds ++ [F.chnRedecode_busy, F.chnRedecode_done,
    F.chnRedecode_refused, F.chnRedecode_seq, F.chnRedecode_variant])) ∧
  (∀ a b, Changes (.redecodeReader0 a b) [.chns] (bufferFlds ++ [F.chnRedecode_busy, F.chnRedecode_done, F.chnRedecode_refused,
    F.chnRedecode_seq, F.chnRedecode_variant])) ∧
  (∀ a b, Changes (.redecodeReader1 a b) [.chns] (bufferFlds ++ [F.chnRedecode_busy, F.chnRedecode_done, F.chnRedecode_refused,
    F.chnRedecode_seq, F.chnRedecode_variant])) ∧
  (∀ a b, Changes (.releaseSamples a b) [.chns] (bufferFlds ++ [F.chnRedecode_busy, F.chnRedecode_done, F.chnRedecode_refused,
    F.chnRedecode_seq, F.chnRedecode_variant])) ∧
  (∀ a b, Changes (.redecodeDone a b) [.out, .ecc, .chns, .card] (memErrFlds ++ resultFlds ++ bufferFlds ++ hardFlds ++
    [F.chnCnt_count, F.chnRedecode_busy, F.chnRedecode_done])) ∧
  (∀ a b c d e f g h, Changes (.retryLadderStep a b c d e f g h) [.out, .draws, .host, .card] (hostFlds ++ [F.chnResult_errs,
    F.chnResult_iter, F.chnResult_skipped, F.chnResult_status, F.chnResult_step])) ∧
  (∀ a b c, Changes (.writeFifoSector a b c) [.chns] bufferFlds) ∧
  (∀ a b, Changes (.writeSlotStart a b) [.out, .chns, .health, .therm] (bufferFlds ++ [F.chnWcnt_count, F.chnWresult_cause,
    F.chnWresult_sector, F.chnWresult_status, F.chnWstat_assist_ok, F.chnWstat_fly_ok, F.chnWstat_unsafe, F.chnWstat_unsafe_now])) ∧
  (∀ a b c, Changes (.writePllArm a b c) [.out, .seqs, .chns, .health, .therm] (unsafeFlds ++ [F.chnWctl_arm, F.chnWstat_wlock])) ∧
  (∀ a b c d, Changes (.servoTimingReference a b c d) [.out, .seqs, .chns, .health, .host, .therm] (unsafeFlds ++ [F.chnTloop_preset,
    F.chnWstat_wlock])) ∧
  (∀ a, Changes (.assistLevelStep a) [] [F.chnApplied_applied]) ∧
  (∀ a b, Changes (.assistMonitorPoll a b) [.out, .seqs, .chns, .health, .therm, .card] (unsafeFlds ++ [F.calDue_due,
    F.chnApplied_monitor])) ∧
  (∀ a, Changes (.flySettled a) [] [F.chnWstat_fly_ok]) ∧
  (∀ a, Changes (.shockInput a) [.out, .seqs, .chns, .health, .therm] (unsafeFlds ++ [F.glbPins_shock])) ∧
  (∀ a, Changes (.preampFault a) [.out, .seqs, .chns, .health, .therm] (unsafeFlds ++ [F.pspStat_flt, F.pspStat_flt_seen])) ∧
  (∀ a b, Changes (.shockInputRelease a b) [.out, .seqs, .chns, .health, .therm, .card] (unsafeFlds ++ [F.glbPins_shock])) ∧
  (∀ a, Changes (.preampFaultRelease a) [.out, .seqs, .chns, .health, .therm] (unsafeFlds ++ [F.pspStat_flt])) ∧
  (∀ a b, Changes (.laneLost a b) [.out, .seqs, .chns, .health, .servos, .therm] (resultFlds ++ unsafeFlds ++ bufferFlds ++
    [F.chnStat_timing_lock, F.sqrStat_cause, F.sqrStat_in_cust, F.sqrStat_sp, F.sqrStat_state, F.sqrStat_status, F.sscLaneStat_losts,
    F.sscLaneStat_on_track, F.sscLaneStat_state])) ∧
  (∀ a b, Changes (.laneReacquired a b) [.servos] [F.sscLaneStat_state]) ∧
  (∀ a, Changes (.standbyResync a) [.servos, .card] [F.sscCmpStat_resyncs]) ∧
  (∀ a, Changes (.standbyUnfit a) [.out, .servos] [F.sscRole_standby_fit, F.sscRole_state]) ∧
  (∀ a, Changes (.roleExchange a) [.servos, .card] [F.sscRole_active, F.sscSwap_deferred, F.sscSwap_last_cause, F.sscSwap_switches,
    F.sscSwap_to_swap]) ∧
  (∀ a, Changes (.exchangeDeferExpiry a) [.servos, .card] [F.sscRole_active, F.sscSwap_deferred, F.sscSwap_last_cause,
    F.sscSwap_switches, F.sscSwap_to_swap]) ∧
  (∀ a, Changes (.probationEnd a) [.out, .servos] [F.sscRole_standby_fit, F.sscRole_state]) ∧
  (∀ a, Changes (.degradedRecovery a) [] [F.sscRole_standby_fit, F.sscRole_state, F.sscSwap_to_swap]) ∧
  (∀ a b, Changes (.pairSplit a b) [.out, .servos, .card] [F.sscLaneStat_split, F.sscLaneStat_splits]) ∧
  (∀ a b, Changes (.laneGo a b) [.servos, .card] [F.sscLaneStat_on_track, F.sscLaneStat_split, F.sscLaneStat_state]) ∧
  (∀ a b, Changes (.onTrack a b) [.host, .servos] [F.sscLaneStat_on_track]) ∧
  (∀ a b, Changes (.traceStop a b) [.servos] [F.sscTraceStat_stopped]) ∧
  (∀ a, Changes (.retractFrameRepeat a) [.out, .servos] []) ∧
  (∀ a b, Changes (.retractRelease a b) [.servos] [F.sscLaneStat_state]) ∧
  (∀ a b c, Changes (.spindleManual a b c) [] [F.spnCtl_manual, F.spnCtl_rpm_manual, F.spnStat_command]) ∧
  (∀ a, Changes (.startNoCrossing a) [.out, .spins] [F.spnStat_state]) ∧
  (∀ a, Changes (.alignDone a) [.out] [F.spnStat_state]) ∧
  (∀ a b, Changes (.bemfCrossing a b) [.servos, .spins] [F.sscSat_sat]) ∧
  (∀ a b c d, Changes (.commutation a b c d) [.out, .servos, .spins] [F.spnCnt_skips, F.spnEvt_skip, F.sscSat_sat]) ∧
  (∀ a b, Changes (.demandUpdate a b) [.host, .spins] [F.spnDemand_curve, F.spnDemand_demand, F.spnStat_command, F.spnStat_curve_on]) ∧
  (∀ a, Changes (.vbusChopOn a) [.out, .spins] []) ∧
  (∀ a, Changes (.vbusChopOff a) [.out, .spins] []) ∧
  (∀ a, Changes (.vbusOv1 a) [.out, .spins] [F.spnEvt_ov1]) ∧
  (∀ a b, Changes (.pslUplinkFrame a b) [.out, .servos, .spins] [F.pslStat_dl_err, F.pslStat_fault_seen, F.pslStat_parked,
    F.pslStat_psl_fault, F.pslStat_ul_err, F.spnEvt_psl_fault, F.spnStat_state, F.sscLaneStat_state, F.sscSat_sat]) ∧
  (Changes .fireDrillParked [.draws, .card] [F.evrCtl_frozen, F.evrStat_auto_thawed, F.evrStat_epoch, F.evrStat_nor_fail,
    F.pwrHoldStat_state, F.sscLaneStat_state]) ∧
  (∀ a, Changes (.journalReplay a) [.out, .host, .spins] []) ∧
  (∀ a b, Changes (.journalReplayDone a b) [.out, .draws, .host, .spins, .card] (hostFlds ++ [F.glbStart_ready]))

/-- Submission, admin, log, firmware and media-work rows: what each may change.
Every other part of the device, every other register field and, where `mem` is not named, every byte of the windows stay as they
are. -/
def Obligations.HostFrames : Prop :=
  (∀ a b c d, Changes (.structuralActivateDownload a b c d) [.out, .struct] (fetchFlds ++ [F.glbStructStat_activate])) ∧
  (∀ a b, Changes (.structuralActivateVerify a b) [.out, .struct, .host] (fetchFlds ++ hostFlds)) ∧
  (∀ a b, Changes (.structuralActivateAbort a b) [.out, .struct] (fetchFlds ++ [F.glbStructStat_activate])) ∧
  (Changes .activateVerifyDone [.out, .struct, .host] (hostFlds ++ [F.glbStructStat_activate, F.glbStructStat_fail_stage])) ∧
  (Changes .activateSlotWritten [.out, .struct, .host] hostFlds) ∧
  (Changes .activateInflightDrained [.struct, .host] []) ∧
  (∀ a, Changes (.fetchResume a) [.host] [F.hstCtxStat_fetch_stalled]) ∧
  (∀ a b c d e f, Changes (.read a b c d e f) [.host] []) ∧
  (∀ a b c d e f g, Changes (.write a b c d e f g) [.host] []) ∧
  (∀ a b c d e, Changes (.writeZeroes a b c d e) [.host] []) ∧
  (∀ a b c d, Changes (.writeUncorrectable a b c d) [.host] []) ∧
  (∀ a b c d e, Changes (.compare a b c d e) [.host] []) ∧
  (∀ a b c d, Changes (.verify a b c d) [.host] []) ∧
  (∀ a b c d e f, Changes (.datasetManagement a b c d e f) [.host] []) ∧
  (∀ a b c d e f, Changes (.copy a b c d e f) [.host] []) ∧
  (∀ a b c d e f g, Changes (.zoneAppend a b c d e f g) [.host] []) ∧
  (∀ a b c d e f, Changes (.zoneOpen a b c d e f) [.host] []) ∧
  (∀ a b c d e f, Changes (.zoneClose a b c d e f) [.host] []) ∧
  (∀ a b c d e f, Changes (.zoneFinish a b c d e f) [.host] []) ∧
  (∀ a b c d e f, Changes (.zoneReset a b c d e f) [.host] []) ∧
  (∀ a b c d e f, Changes (.zoneOffline a b c d e f) [.host] []) ∧
  (∀ a b c d e, Changes (.zoneManagementReceive a b c d e) [.host] []) ∧
  (∀ a b c d, Changes (.flush a b c d) [.host] []) ∧
  (∀ a b, Changes (.flushLockerFallback a b) [.host] []) ∧
  (∀ a b c, Changes (.namespaceManagementCreate a b c) [.out, .draws, .ecc, .host, .cipher] (fetchFlds ++ [F.eccInj_armed,
    F.eccPcnt_marked])) ∧
  (∀ a b c d e, Changes (.namespaceAttachment a b c d e) [.out, .host] fetchFlds) ∧
  (∀ a b c d, Changes (.setFeaturesNumberOfQueues a b c d) [.out] fetchFlds) ∧
  (∀ a b c d e f g, Changes (.createIoQueue a b c d e f g) [.out, .host] fetchFlds) ∧
  (∀ a b c d, Changes (.setFeaturesPowerState a b c d) [.out, .power] (fetchFlds ++ limitFlds ++ [F.pwrPs_ps])) ∧
  (∀ a b c d e, Changes (.setFeaturesTemperatureThreshold a b c d e) [.out, .host, .therm] (fetchFlds ++ hostFlds)) ∧
  (∀ a b c d, Changes (.setFeaturesSpindleCurve a b c d) [.out, .host] fetchFlds) ∧
  (∀ a b, Changes (.getFeaturesSpindleCurve a b) [.out] fetchFlds) ∧
  (∀ a b, Changes (.getFeaturesDirtyBound a b) [.out] fetchFlds) ∧
  (∀ a b, Changes (.setFeaturesDirtyBound a b) [.out] fetchFlds) ∧
  (∀ a b c d e, Changes (.getLogReportCard a b c d e) [.out] fetchFlds) ∧
  (∀ a b, Changes (.getLogChainTopology a b) [.out] fetchFlds) ∧
  (∀ a b c, Changes (.getLogDetention a b c) [.out] fetchFlds) ∧
  (∀ a b, Changes (.getLogHeadHealth a b) [.out] fetchFlds) ∧
  (∀ a b, Changes (.getLogTelemetry a b) [.out] fetchFlds) ∧
  (∀ a b, Changes (.getLogSmartHealth a b) [.out] fetchFlds) ∧
  (∀ a b, Changes (.asynchronousEventRequest a b) [.out, .host] (fetchFlds ++ hostFlds)) ∧
  (∀ a, Changes (.controllerEnable a) [.host] []) ∧
  (∀ a, Changes (.controllerReady a) [.out, .host, .card] hostFlds) ∧
  (∀ a b, Changes (.shutdownNotification a b) [.host] []) ∧
  (∀ a, Changes (.shutdownComplete a) [.host] []) ∧
  (∀ a b c d, Changes (.firmwareImageDownload a b c d) [.out, .fw] fetchFlds) ∧
  (∀ a b c d, Changes (.firmwareCommit a b c d) [.out, .host, .fw] (fetchFlds ++ hostFlds)) ∧
  (Changes .firmwareActivationTimeout [.out, .host, .fw] hostFlds) ∧
  (∀ a b c d e f g h j k l m, Changes (.compressedZoneAppend a b c d e f g h j k l m) [.host] []) ∧
  (∀ a b c d e f g h, Changes (.compressedRead a b c d e f g h) [.host] []) ∧
  (∀ a b c d e, Changes (.streamContextSave a b c d e) [.host] []) ∧
  (∀ a b c d e f, Changes (.streamContextRestore a b c d e f) [.host] []) ∧
  (∀ a b c, Changes (.cleaningStart a b c) [.host] hostFlds) ∧
  (∀ a, Changes (.mapCheckpoint a) [.host] hostFlds) ∧
  (∀ a, Changes (.mapLoad a) [.out, .host] (hostFlds ++ [F.glbStart_ready])) ∧
  (∀ a b c d, Changes (.homeworkRead a b c d) [.host, .card] []) ∧
  (∀ a b, Changes (.homeworkRewrite a b) [.host, .card] hostFlds)

/-- Compression, cipher, key, TCG, Sanitize and map-cache rows: what each may change.
Every other part of the device, every other register field and, where `mem` is not named, every byte of the windows stay as they
are. -/
def Obligations.KeyFrames : Prop :=
  (∀ a, Changes (.chunkDispatch a) [.comp] engineFlds) ∧
  (Changes .nonceReserveAppend [.cipher] []) ∧
  (Changes .nonceRecordWritten [.cipher] (engineFlds ++ [F.cphNonceCtr_value, F.cphNonceLimit_value, F.cphStat_nonce_wait])) ∧
  (∀ a b c d, Changes (.keyInject a b c d) [.ecc, .host, .cipher] (engineFlds ++ [F.eccInj_armed, F.eccPcnt_marked])) ∧
  (∀ a, Changes (.slotRetireComplete a) [.out, .ecc, .host, .cipher] (hostFlds ++ engineFlds ++ [F.eccInj_armed, F.eccPcnt_marked])) ∧
  (∀ a b, Changes (.lockingRangeUnlock a b) [.cipher] []) ∧
  (∀ a, Changes (.lockingRangeLock a) [.host, .cipher] []) ∧
  (∀ a, Changes (.rangeKekZero a) [.cipher] engineFlds) ∧
  (∀ a b, Changes (.cipherContextSave a b) [.draws, .cipher] (engineFlds ++ [F.cphCtxCtl_core, F.cphCtxCtl_op, F.cphCtxWin_data,
    F.cphNonceCtr_value, F.cphStat_nonce_wait])) ∧
  (∀ a b, Changes (.cipherContextRestore a b) [.cipher] (engineFlds ++ [F.cphCtxCtl_core, F.cphCtxCtl_fail, F.cphCtxCtl_op,
    F.cphErr_ctx_bad])) ∧
  (∀ a b c, Changes (.countermeasureConfig a b c) [] [F.cphCm_dummy_max, F.cphCm_refused, F.cphCm_shuffle]) ∧
  (∀ a b, Changes (.keyInvalidate a b) [.cipher] [F.cphKeyInv_busy, F.cphKeyInv_slot]) ∧
  (Changes .keyDropDone [.cipher] (engineFlds ++ [F.cphKeyInv_busy])) ∧
  (Changes .drbgReseed [.cipher] [F.cphStat_drbg_ok]) ∧
  (Changes .entropyHealthFail [] [F.cphErr_entropy_fail, F.cphStat_drbg_ok]) ∧
  (Changes .sanitizeStepDone [.out, .draws, .ecc, .host, .cipher, .comp, .sec] (hostFlds ++ engineFlds ++ [F.eccInj_armed,
    F.eccPcnt_marked, F.pwrHvote_hda])) ∧
  (∀ a b, Changes (.tcgProperties a b) [.out, .draws] fetchFlds) ∧
  (∀ a b c, Changes (.tcgStartSession a b c) [.out, .cipher, .sec] fetchFlds) ∧
  (∀ a b, Changes (.tcgEndSession a b) [.out, .sec] fetchFlds) ∧
  (∀ a b c, Changes (.tcgAuthenticate a b c) [.out, .cipher, .sec] fetchFlds) ∧
  (∀ a b c, Changes (.tcgGet a b c) [.out] fetchFlds) ∧
  (∀ a b c, Changes (.tcgSet a b c) [.out, .draws, .ecc, .host, .cipher] (fetchFlds ++ engineFlds ++ [F.eccInj_armed,
    F.eccPcnt_marked])) ∧
  (∀ a b c, Changes (.tcgGenkey a b c) [.out, .draws, .ecc, .host, .cipher] (fetchFlds ++ hostFlds ++ engineFlds ++ [F.eccInj_armed,
    F.eccPcnt_marked])) ∧
  (∀ a b c, Changes (.tcgErase a b c) [.out, .draws, .ecc, .host, .cipher] (fetchFlds ++ hostFlds ++ engineFlds ++ [F.eccInj_armed,
    F.eccPcnt_marked])) ∧
  (∀ a b c, Changes (.tcgRandom a b c) [.out, .draws, .cipher] fetchFlds) ∧
  (∀ a, Changes (.mapPrefetch a) [.out, .draws, .ecc, .card, .map] (memErrFlds ++ hardFlds ++ [F.mapStat_dirty, F.mapStat_side])) ∧
  (∀ a b, Changes (.mapClean a b) [.ecc, .map] [F.eccInj_armed, F.eccPcnt_marked, F.mapMaintStat_busy, F.mapMaintStat_hit,
    F.mapMaintStat_waited_fill, F.mapMaint_op, F.mapMaint_page, F.mapStat_dirty, F.mapStat_side]) ∧
  (∀ a b, Changes (.mapInvalidate a b) [.ecc, .map] [F.eccInj_armed, F.eccPcnt_marked, F.mapMaintStat_busy, F.mapMaintStat_hit,
    F.mapMaintStat_waited_fill, F.mapMaint_op, F.mapMaint_page, F.mapStat_dirty, F.mapStat_side]) ∧
  (∀ a b, Changes (.mapCleanInvalidate a b) [.ecc, .map] [F.eccInj_armed, F.eccPcnt_marked, F.mapMaintStat_busy, F.mapMaintStat_hit,
    F.mapMaintStat_waited_fill, F.mapMaint_op, F.mapMaint_page, F.mapStat_dirty, F.mapStat_side]) ∧
  (Changes .mapMaintDone [.ecc, .map] [F.eccInj_armed, F.eccPcnt_marked, F.mapMaintStat_busy, F.mapMaintStat_hit, F.mapStat_dirty,
    F.mapStat_side]) ∧
  (∀ a, Changes (.mapEnable a) [] [F.mapCtl_enable, F.mapStat_enabled]) ∧
  (∀ a, Changes (.mapDisable a) [] [F.mapCtl_enable, F.mapStat_disabling]) ∧
  (Changes .mapDisableComplete [.ecc, .map] [F.eccInj_armed, F.eccPcnt_marked, F.mapStat_dirty, F.mapStat_disabling, F.mapStat_enabled,
    F.mapStat_side]) ∧
  (∀ a b, Changes (.mapGroupPowerDown a b) [.map] [F.mapErr_cfg_err, F.mapGrpCtl_pwr_down, F.mapGrpCtl_scratch, F.mapGrpStat_busy,
    F.mapGrpStat_is_scratch]) ∧
  (∀ a b, Changes (.mapGroupScratch a b) [.map] [F.mapErr_cfg_err, F.mapGrpCtl_pwr_down, F.mapGrpCtl_scratch, F.mapGrpStat_busy,
    F.mapGrpStat_is_scratch]) ∧
  (∀ a b c, Changes (.mapGroupRestore a b c) [.map] [F.mapErr_cfg_err, F.mapGrpCtl_pwr_down, F.mapGrpCtl_scratch, F.mapGrpStat_busy,
    F.mapGrpStat_is_scratch]) ∧
  (∀ a, Changes (.mapGroupTransitionDone a) [.mem, .ecc, .seqs, .map] [F.eccInj_armed, F.eccPcnt_marked, F.mapGrpStat_busy,
    F.mapGrpStat_down, F.mapGrpStat_is_scratch, F.mapStat_dirty, F.mapStat_side]) ∧
  (∀ a b c d, Changes (.scratchAccess a b c d) [.mem, .out, .draws, .ecc, .card] (memErrFlds ++ hardFlds ++ busErrFlds ++
    [F.eccInj_armed]))

/-- Lomey Link, Roll Call and attestation rows: what each may change.
Every other part of the device, every other register field and, where `mem` is not named, every byte of the windows stay as they
are. -/
def Obligations.ChainFrames : Prop :=
  (∀ a b c d e f, Changes (.trainingComplete a b c d e f) [.out, .draws, .chain] (sendFlds ++ [F.lmlCnt_count, F.lmlEvt_budget_drop,
    F.lmlEvt_unreach_drop, F.lmlEvt_up, F.lmlRetry_acked, F.lmlStat_lanes, F.lmlStat_link_delay, F.lmlStat_routed, F.lmlStat_state,
    F.lmlStat_width])) ∧
  (∀ a, Changes (.trainingRateFallback a) [] [F.lmlStat_rate]) ∧
  (∀ a, Changes (.linkAckTimer a) [.out, .chain] []) ∧
  (∀ a, Changes (.linkCreditTimer a) [.out, .chain] []) ∧
  (∀ a, Changes (.linkRetrain a) [] [F.lmlEvt_retrain, F.lmlStat_state]) ∧
  (∀ a, Changes (.secureWaitTimeout a) [.out, .chain] [F.lmlCred_rx_used, F.lmlRetry_buf_used, F.lmlRetry_sends, F.lmlStat_down_cause,
    F.lmlStat_routed, F.lmlStat_secure, F.lmlStat_state]) ∧
  (∀ a b c d, Changes (.secureSessionEstablished a b c d) [.out, .draws, .chain] (sendFlds ++ [F.lmlCnt_count, F.lmlEvt_budget_drop,
    F.lmlEvt_unreach_drop, F.lmlEvt_up, F.lmlStat_routed, F.lmlStat_secure, F.lmlStat_state])) ∧
  (∀ a, Changes (.sessionKeyUpdateDue a) [.out, .chain] sendFlds) ∧
  (∀ a b, Changes (.dedupeExpiry a b) [.chain] [F.lmlDedup_in_use]) ∧
  (∀ a, Changes (.rollCallStart a) [.out, .chain] (sendFlds ++ [F.lmlRc_phase])) ∧
  (Changes .announceTimeout [.out, .draws, .chain] (routeFlds ++ sendFlds ++ [F.lmlEvt_unreach_drop, F.lmlNode_addr, F.lmlNode_lead,
    F.lmlRc_fail, F.lmlRc_generation, F.lmlRc_phase])) ∧
  (∀ a b c, Changes (.announce a b c) [.out, .chain] (sendFlds ++ [F.lmlRc_phase])) ∧
  (∀ a b c d, Changes (.probe a b c d) [.out, .chain] sendFlds) ∧
  (∀ a b c d e f g h j, Changes (.report a b c d e f g h j) [.out, .draws, .chain] (routeFlds ++ sendFlds ++ [F.lmlEvt_unreach_drop,
    F.lmlRc_fail, F.lmlRc_generation, F.lmlRc_phase])) ∧
  (∀ a b c, Changes (.assign a b c) [.out, .chain] (sendFlds ++ [F.lmlNode_addr])) ∧
  (∀ a b, Changes (.done a b) [.out, .draws, .chain] (routeFlds ++ sendFlds ++ [F.lmlEvt_unreach_drop, F.lmlRc_fail,
    F.lmlRc_generation, F.lmlRc_phase])) ∧
  (∀ a b c d, Changes (.notice a b c d) [.out, .draws, .chain] (routeFlds ++ sendFlds ++ [F.lmlEvt_unreach_drop, F.lmlRc_phase])) ∧
  (∀ a b c, Changes (.route a b c) [] routeFlds) ∧
  (∀ a b, Changes (.spdm a b) [.out, .draws, .chain, .sec] (sendFlds ++ wakeFlds ++ [F.mgtStat_mctp_rx])) ∧
  (∀ a, Changes (.getVersion a) [.out, .chain, .sec] (sendFlds ++ wakeFlds ++ [F.mgtStat_mctp_rx])) ∧
  (∀ a, Changes (.getCapabilities a) [.out, .chain, .sec] (sendFlds ++ wakeFlds ++ [F.mgtStat_mctp_rx])) ∧
  (∀ a b, Changes (.negotiateAlgorithms a b) [.out, .chain, .sec] (sendFlds ++ wakeFlds ++ [F.mgtStat_mctp_rx])) ∧
  (∀ a, Changes (.getDigests a) [.out, .chain] (sendFlds ++ wakeFlds ++ [F.mgtStat_mctp_rx])) ∧
  (∀ a b, Changes (.getCertificate a b) [.out, .chain] (sendFlds ++ wakeFlds ++ [F.mgtStat_mctp_rx])) ∧
  (∀ a b c, Changes (.challenge a b c) [.out, .draws, .chain] (sendFlds ++ wakeFlds ++ [F.mgtStat_mctp_rx])) ∧
  (∀ a b, Changes (.getMeasurements a b) [.out, .draws, .chain] (sendFlds ++ wakeFlds ++ [F.mgtStat_mctp_rx])) ∧
  (∀ a b, Changes (.keyExchange a b) [.out, .draws, .chain, .sec] (sendFlds ++ wakeFlds ++ [F.mgtStat_mctp_rx])) ∧
  (∀ a b, Changes (.finish a b) [.out, .chain, .sec] (sendFlds ++ wakeFlds ++ [F.mgtStat_mctp_rx])) ∧
  (∀ a, Changes (.heartbeat a) [.out, .chain] (sendFlds ++ wakeFlds ++ [F.mgtStat_mctp_rx])) ∧
  (∀ a b, Changes (.keyUpdate a b) [.out, .chain] (sendFlds ++ wakeFlds ++ [F.mgtStat_mctp_rx])) ∧
  (∀ a, Changes (.endSession a) [.out, .chain, .sec] (sendFlds ++ wakeFlds ++ [F.mgtStat_mctp_rx])) ∧
  (∀ a b, Changes (.nvmeMiMessage a b) [.out, .draws] (wakeFlds ++ [F.mgtStat_mctp_err, F.mgtStat_mctp_rx]))

/-- Rows that complete or move host commands and Lomey Link transactions: what each may change.
Every other part of the device, every other register field and, where `mem` is not named, every byte of the windows stay as they
are. -/
def Obligations.CommandFrames : Prop :=
  (∀ a b c, Changes (.packetTransferComplete a b c) [.out, .xb, .ecc, .host, .chain, .cipher, .comp, .card] (memErrFlds ++ hostFlds ++
    engineFlds ++ sendFlds ++ hardFlds ++ [F.hstRltStat_blocked, F.lmlEvt_unreach_drop, F.xbrBeats_beats, F.xbrErrStat_par_err])) ∧
  (∀ a, Changes (.commandFetch a) [.out, .host, .chain, .cipher, .comp] (fetchFlds ++ hostFlds ++ engineFlds ++ sendFlds ++
    [F.cphErr_key_empty, F.cphErr_locked, F.cphErr_slot_crc, F.hstRltStat_blocked, F.lmlEvt_unreach_drop, F.pwrPs_ps])) ∧
  (∀ a, Changes (.lockInsert a) [.out, .host, .chain, .cipher, .comp] (hostFlds ++ engineFlds ++ sendFlds ++ [F.hstRltStat_blocked,
    F.hstRltStat_blocked_seen, F.lmlEvt_unreach_drop])) ∧
  (∀ a, Changes (.lockEntriesFreed a) [.out, .host, .chain, .cipher, .comp] (hostFlds ++ engineFlds ++ sendFlds ++
    [F.hstRltStat_blocked, F.hstRltStat_blocked_seen, F.lmlEvt_unreach_drop])) ∧
  (∀ a, Changes (.lockGrant a) [.out, .host, .chain, .cipher, .comp] (hostFlds ++ engineFlds ++ sendFlds ++ [F.cmpErr_frame_bad,
    F.hstRltStat_blocked, F.lmlCnt_count, F.lmlEvt_stale, F.lmlEvt_unreach_drop])) ∧
  (∀ a b c, Changes (.writeDataBuffered a b c) [.out, .draws, .ecc, .host, .chain, .cipher, .comp, .card] (memErrFlds ++ hostFlds ++
    engineFlds ++ sendFlds ++ hardFlds ++ [F.cphBytes_bytes, F.cphErr_key_empty, F.cphErr_locked, F.cphErr_slot_crc,
    F.hstRltStat_blocked, F.lmlEvt_unreach_drop, F.pwrHs_state])) ∧
  (∀ a, Changes (.writeCoverage a) [.out, .host, .chain, .cipher, .comp] (hostFlds ++ engineFlds ++ sendFlds ++ [F.hstRltStat_blocked,
    F.lmlEvt_unreach_drop, F.pwrHs_state])) ∧
  (∀ a, Changes (.tolerableLatencyExpiry a) [.out, .host, .chain, .cipher, .comp] (hostFlds ++ engineFlds ++ sendFlds ++
    [F.hstRltStat_blocked, F.lmlEvt_unreach_drop])) ∧
  (∀ a b, Changes (.mediaTaskEnd a b) [.out, .draws, .ecc, .seqs, .chns, .health, .host, .chain, .cipher, .comp, .therm, .card]
    (memErrFlds ++ hostFlds ++ engineFlds ++ sendFlds ++ unsafeFlds ++ hardFlds ++ [F.calDue_due, F.chnWctl_arm, F.chnWstat_wlock,
    F.cmpErr_frame_bad, F.cphBytes_bytes, F.cphErr_key_empty, F.cphErr_locked, F.cphErr_slot_crc, F.hstRltStat_blocked,
    F.lmlEvt_unreach_drop])) ∧
  (∀ a, Changes (.flushComplete a) [.out, .host, .chain, .cipher, .comp] (hostFlds ++ engineFlds ++ sendFlds ++ [F.hstRltStat_blocked,
    F.lmlEvt_unreach_drop])) ∧
  (∀ a b c d, Changes (.abort a b c d) [.out, .host, .chain, .cipher, .comp] (fetchFlds ++ hostFlds ++ engineFlds ++ sendFlds ++
    [F.hstRltStat_blocked, F.lmlEvt_unreach_drop])) ∧
  (∀ a b c, Changes (.namespaceManagementDelete a b c) [.out, .ecc, .host, .chain, .cipher, .comp] (fetchFlds ++ hostFlds ++ engineFlds
    ++ sendFlds ++ [F.eccInj_armed, F.eccPcnt_marked, F.hstRltStat_blocked, F.lmlEvt_unreach_drop])) ∧
  (∀ a b c d, Changes (.identify a b c d) [.out, .host, .chain, .cipher, .comp] (fetchFlds ++ hostFlds ++ engineFlds ++ sendFlds ++
    [F.hstRltStat_blocked, F.lmlEvt_unreach_drop])) ∧
  (∀ a b c, Changes (.setFeaturesVolatileWriteCache a b c) [.out, .host, .chain, .cipher, .comp] (fetchFlds ++ hostFlds ++ engineFlds
    ++ sendFlds ++ [F.hstRltStat_blocked, F.lmlEvt_unreach_drop])) ∧
  (∀ a b c d, Changes (.setFeaturesTolerableLatency a b c d) [.out, .host, .chain, .cipher, .comp] (fetchFlds ++ hostFlds ++
    engineFlds ++ sendFlds ++ [F.hstRltStat_blocked, F.lmlEvt_unreach_drop])) ∧
  (∀ a b c, Changes (.getFeaturesTolerableLatency a b c) [.out, .host, .chain, .cipher, .comp] (fetchFlds ++ hostFlds ++ engineFlds ++
    sendFlds ++ [F.hstRltStat_blocked, F.lmlEvt_unreach_drop])) ∧
  (∀ a b, Changes (.controllerReset a b) [.out, .struct, .host, .chain, .cipher, .comp, .card, .sec, .fw] (hostFlds ++ engineFlds ++
    sendFlds ++ wakeFlds ++ [F.glbPins_perst_n, F.glbStructStat_activate, F.hstCtxStat_fetch_stalled, F.hstRltStat_blocked,
    F.lmlEvt_unreach_drop])) ∧
  (Changes .nvmSubsystemReset [.out, .struct, .host, .chain, .cipher, .comp, .card, .sec, .fw] (hostFlds ++ engineFlds ++ sendFlds ++
    wakeFlds ++ [F.glbPins_perst_n, F.glbStructStat_activate, F.hstCtxStat_fetch_stalled, F.hstRltStat_blocked,
    F.lmlEvt_unreach_drop])) ∧
  (∀ a, Changes (.contextGrant a) [.out, .draws, .ecc, .host, .chain, .cipher, .comp, .card] (memErrFlds ++ hostFlds ++ engineFlds ++
    sendFlds ++ hardFlds ++ [F.cmpErr_ctx_img_bad, F.cmpErr_hist_mismatch, F.cmpErr_poison, F.cphNonceCtr_value, F.cphStat_nonce_wait,
    F.eccInj_armed, F.hstRltStat_blocked, F.lmlEvt_unreach_drop])) ∧
  (∀ a b c, Changes (.chunkCompressed a b c) [.out, .draws, .ecc, .host, .chain, .cipher, .comp, .card] (memErrFlds ++ hostFlds ++
    engineFlds ++ sendFlds ++ hardFlds ++ [F.cmpErr_poison, F.cmpInBytes_bytes, F.cphNonceCtr_value, F.cphStat_nonce_wait,
    F.hstRltStat_blocked, F.lmlEvt_unreach_drop])) ∧
  (∀ a, Changes (.framePlacement a) [.out, .draws, .ecc, .host, .chain, .cipher, .comp] (hostFlds ++ engineFlds ++ sendFlds ++
    [F.cmpErr_no_space, F.cphNonceCtr_value, F.cphStat_nonce_wait, F.eccInj_armed, F.eccPcnt_marked, F.hstRltStat_blocked,
    F.lmlEvt_unreach_drop, F.pwrHs_state])) ∧
  (∀ a b c, Changes (.decompressionDone a b c) [.out, .draws, .ecc, .host, .chain, .cipher, .comp] (hostFlds ++ engineFlds ++ sendFlds ++
    [F.cmpErr_data_bad, F.cmpOutBytes_bytes, F.cphNonceCtr_value, F.cphStat_nonce_wait, F.eccInj_armed, F.eccPcnt_marked,
    F.hstRltStat_blocked, F.lmlEvt_unreach_drop])) ∧
  (∀ a b c, Changes (.gcmJobDone a b c) [.out, .draws, .ecc, .host, .chain, .cipher, .comp, .card] (memErrFlds ++ hostFlds ++ engineFlds ++
    sendFlds ++ hardFlds ++ [F.cmpErr_frame_bad, F.cmpErr_hist_mismatch, F.cmpErr_poison, F.cphBytes_bytes, F.cphErr_gcm_fail,
    F.cphErr_poison, F.cphNonceCtr_value, F.cphStat_nonce_wait, F.hstRltStat_blocked, F.lmlEvt_unreach_drop])) ∧
  (∀ a b c, Changes (.keyCacheFill a b c) [.out, .draws, .ecc, .host, .chain, .cipher, .comp, .card] (memErrFlds ++ hostFlds ++ engineFlds
    ++ sendFlds ++ hardFlds ++ [F.cphErr_key_empty, F.cphErr_locked, F.cphErr_slot_crc, F.cphErr_unwrap_fail, F.cphNonceCtr_value,
    F.cphStat_nonce_wait, F.hstRltStat_blocked, F.lmlEvt_unreach_drop])) ∧
  (∀ a b c d e f, Changes (.sanitize a b c d e f) [.out, .host, .chain, .cipher, .comp] (fetchFlds ++ hostFlds ++ engineFlds ++
    sendFlds ++ [F.hstRltStat_blocked, F.lmlEvt_unreach_drop])) ∧
  (∀ a b c d, Changes (.mapLookup a b c d) [.out, .draws, .ecc, .host, .chain, .cipher, .comp, .card, .map] (memErrFlds ++ hostFlds ++
    engineFlds ++ sendFlds ++ hardFlds ++ [F.eccInj_armed, F.hstRltStat_blocked, F.lmlEvt_unreach_drop, F.mapErr_tag_double,
    F.mapErr_tag_pe, F.mapHits_count, F.mapLfsr_state, F.mapMisses_count, F.mapStat_dirty, F.mapStat_side])) ∧
  (∀ a, Changes (.mapFillDone a) [.out, .draws, .ecc, .host, .chain, .cipher, .comp, .card, .map] (memErrFlds ++ hostFlds ++ engineFlds
    ++ sendFlds ++ hardFlds ++ [F.eccInj_armed, F.hstRltStat_blocked, F.lmlEvt_unreach_drop, F.mapErr_data_ce, F.mapErr_data_ue,
    F.mapStat_dirty, F.mapStat_side])) ∧
  (Changes .boundRecompute [.out, .host, .chain, .cipher, .comp] (boundFlds ++ hostFlds ++ engineFlds ++ sendFlds ++
    [F.hstRltStat_blocked, F.lmlEvt_unreach_drop])) ∧
  (∀ a b c d e, Changes (.linkControlFlit a b c d e) [.out, .draws, .host, .chain, .cipher, .comp, .card] (routeFlds ++ hostFlds ++
    engineFlds ++ sendFlds ++ [F.hstRltStat_blocked, F.lmlCnt_count, F.lmlDedup_in_use, F.lmlEvt_budget_drop, F.lmlEvt_dead,
    F.lmlEvt_stale, F.lmlEvt_unreach_drop, F.lmlRc_phase, F.lmlRetry_acked, F.lmlStat_rate, F.lmlStat_routed, F.lmlStat_secure,
    F.lmlStat_state])) ∧
  (∀ a b c, Changes (.lomeyFrameReceived a b c) [.out, .draws, .host, .chain, .cipher, .comp] (routeFlds ++ hostFlds ++ engineFlds ++
    sendFlds ++ [F.cmpErr_frame_bad, F.cphErr_key_empty, F.cphErr_locked, F.cphErr_slot_crc, F.hstRltStat_blocked, F.lmlCnt_count,
    F.lmlDedup_full_naks, F.lmlDedup_in_use, F.lmlEvt_budget_drop, F.lmlEvt_busy_nak, F.lmlEvt_gcm_fail, F.lmlEvt_stale,
    F.lmlEvt_stomp, F.lmlEvt_unreach_drop, F.lmlNode_addr, F.lmlRc_fail, F.lmlRc_generation, F.lmlRc_phase])) ∧
  (∀ a, Changes (.linkReplayTimeout a) [.out, .draws, .host, .chain, .cipher, .comp, .card] (routeFlds ++ hostFlds ++ engineFlds ++
    sendFlds ++ [F.hstRltStat_blocked, F.lmlCnt_count, F.lmlDedup_in_use, F.lmlEvt_budget_drop, F.lmlEvt_dead, F.lmlEvt_stale,
    F.lmlEvt_unreach_drop, F.lmlRc_phase, F.lmlStat_rate, F.lmlStat_routed, F.lmlStat_secure, F.lmlStat_state])) ∧
  (∀ a b, Changes (.budgetExpiry a b) [.out, .draws, .host, .chain, .cipher, .comp] (hostFlds ++ engineFlds ++ sendFlds ++
    [F.hstRltStat_blocked, F.lmlCnt_count, F.lmlDedup_in_use, F.lmlEvt_budget_drop, F.lmlEvt_stale, F.lmlEvt_unreach_drop])) ∧
  (∀ a, Changes (.retrainComplete a) [.out, .draws, .host, .chain, .cipher, .comp, .card] (routeFlds ++ hostFlds ++ engineFlds ++
    sendFlds ++ [F.hstRltStat_blocked, F.lmlCnt_count, F.lmlDedup_in_use, F.lmlEvt_budget_drop, F.lmlEvt_dead, F.lmlEvt_stale,
    F.lmlEvt_unreach_drop, F.lmlEvt_up, F.lmlRc_phase, F.lmlStat_rate, F.lmlStat_routed, F.lmlStat_secure, F.lmlStat_state])) ∧
  (∀ a, Changes (.retrainTimeout a) [.out, .draws, .host, .chain, .cipher, .comp, .card] (routeFlds ++ hostFlds ++ engineFlds ++
    sendFlds ++ [F.hstRltStat_blocked, F.lmlCnt_count, F.lmlDedup_in_use, F.lmlEvt_budget_drop, F.lmlEvt_dead, F.lmlEvt_stale,
    F.lmlEvt_unreach_drop, F.lmlRc_phase, F.lmlStat_rate, F.lmlStat_routed, F.lmlStat_secure, F.lmlStat_state])) ∧
  (∀ a, Changes (.routingRestore a) [.out, .draws, .host, .chain, .cipher, .comp] (routeFlds ++ hostFlds ++ engineFlds ++ sendFlds ++
    [F.hstRltStat_blocked, F.lmlCnt_count, F.lmlDedup_in_use, F.lmlEvt_restored, F.lmlEvt_stale, F.lmlEvt_unreach_drop, F.lmlRc_phase,
    F.lmlStat_routed])) ∧
  (∀ a b, Changes (.lomeyCmd a b) [.out, .host, .chain, .cipher, .comp] (hostFlds ++ engineFlds ++ sendFlds ++ [F.cphErr_key_empty,
    F.cphErr_locked, F.cphErr_slot_crc, F.hstRltStat_blocked, F.lmlCnt_count, F.lmlDedup_full_naks, F.lmlDedup_in_use,
    F.lmlEvt_busy_nak, F.lmlEvt_stale, F.lmlEvt_unreach_drop])) ∧
  (∀ a b, Changes (.lomeyAck a b) [.out, .host, .chain, .cipher, .comp] (hostFlds ++ engineFlds ++ sendFlds ++ [F.hstRltStat_blocked,
    F.lmlCnt_count, F.lmlDedup_in_use, F.lmlEvt_stale, F.lmlEvt_unreach_drop])) ∧
  (∀ a b, Changes (.lomeyXrdy a b) [.out, .host, .chain, .cipher, .comp] (hostFlds ++ engineFlds ++ sendFlds ++ [F.hstRltStat_blocked,
    F.lmlCnt_count, F.lmlDedup_in_use, F.lmlEvt_stale, F.lmlEvt_unreach_drop])) ∧
  (∀ a b, Changes (.lomeyWdata a b) [.out, .host, .chain, .cipher, .comp] (hostFlds ++ engineFlds ++ sendFlds ++ [F.cmpErr_frame_bad,
    F.hstRltStat_blocked, F.lmlCnt_count, F.lmlDedup_in_use, F.lmlEvt_stale, F.lmlEvt_unreach_drop])) ∧
  (∀ a b, Changes (.lomeyRdata a b) [.out, .host, .chain, .cipher, .comp] (hostFlds ++ engineFlds ++ sendFlds ++ [F.hstRltStat_blocked,
    F.lmlCnt_count, F.lmlDedup_in_use, F.lmlEvt_stale, F.lmlEvt_unreach_drop])) ∧
  (∀ a b, Changes (.lomeyCpl a b) [.out, .host, .chain, .cipher, .comp] (hostFlds ++ engineFlds ++ sendFlds ++ [F.hstRltStat_blocked,
    F.lmlCnt_count, F.lmlDedup_in_use, F.lmlEvt_stale, F.lmlEvt_unreach_drop])) ∧
  (∀ a b, Changes (.lomeyProg a b) [.out, .host, .chain, .cipher, .comp] (hostFlds ++ engineFlds ++ sendFlds ++ [F.hstRltStat_blocked,
    F.lmlCnt_count, F.lmlDedup_in_use, F.lmlEvt_stale, F.lmlEvt_unreach_drop])) ∧
  (∀ a b, Changes (.lomeyCancel a b) [.out, .host, .chain, .cipher, .comp] (hostFlds ++ engineFlds ++ sendFlds ++
    [F.hstRltStat_blocked, F.lmlCnt_count, F.lmlDedup_in_use, F.lmlEvt_stale, F.lmlEvt_unreach_drop])) ∧
  (∀ a b, Changes (.lomeyNak a b) [.out, .host, .chain, .cipher, .comp] (hostFlds ++ engineFlds ++ sendFlds ++ [F.hstRltStat_blocked,
    F.lmlCnt_count, F.lmlDedup_in_use, F.lmlEvt_stale, F.lmlEvt_unreach_drop])) ∧
  (∀ a b, Changes (.progTimer a b) [.out, .host, .chain, .cipher, .comp] (hostFlds ++ engineFlds ++ sendFlds ++ [F.hstRltStat_blocked,
    F.lmlCnt_count, F.lmlDedup_in_use, F.lmlEvt_stale, F.lmlEvt_unreach_drop])) ∧
  (∀ a, Changes (.cmdRetryTimer a) [.out, .host, .chain, .cipher, .comp] (hostFlds ++ engineFlds ++ sendFlds ++ [F.hstRltStat_blocked,
    F.lmlCnt_count, F.lmlDedup_in_use, F.lmlEvt_stale, F.lmlEvt_unreach_drop])) ∧
  (∀ a, Changes (.idleTimer a) [.out, .host, .chain, .cipher, .comp] (hostFlds ++ engineFlds ++ sendFlds ++ [F.hstRltStat_blocked,
    F.lmlCnt_count, F.lmlDedup_in_use, F.lmlEvt_stale, F.lmlEvt_unreach_drop])) ∧
  (∀ a b, Changes (.xrdyRetryTimer a b) [.out, .host, .chain, .cipher, .comp] (hostFlds ++ engineFlds ++ sendFlds ++
    [F.hstRltStat_blocked, F.lmlCnt_count, F.lmlDedup_in_use, F.lmlEvt_stale, F.lmlEvt_unreach_drop])) ∧
  (∀ a, Changes (.busyRetryTimer a) [.out, .host, .chain, .cipher, .comp] (hostFlds ++ engineFlds ++ sendFlds ++ [F.hstRltStat_blocked,
    F.lmlCnt_count, F.lmlDedup_in_use, F.lmlEvt_stale, F.lmlEvt_unreach_drop]))

/-- Rows that stop, start or retract (boots and resets, servo, spindle, hold-up, power, thermal, security): what each may change.
Every other part of the device, every other register field and, where `mem` is not named, every byte of the windows stay as they
are; of a domain that wakes and of a remap that ends this is said where no access is stalled. -/
def Obligations.StopFrames : Prop :=
  (∀ a, Changes (.clockLockLost a) [.out, .draws, .ecc, .struct, .seqs, .chns, .health, .host, .chain, .cipher, .comp, .servos, .spins,
    .therm, .reset, .card, .sec] (levelFlds ++ boundFlds ++ stopFlds ++ retractFlds ++ memErrFlds ++ hostFlds ++ engineFlds ++ sendFlds
    ++ resultFlds ++ unsafeFlds ++ bufferFlds ++ hardFlds ++ [F.chnStat_timing_lock, F.chnWstat_wlock, F.cphBytes_bytes,
    F.cphErr_key_empty, F.cphErr_locked, F.cphErr_slot_crc, F.cphStat_kek_loaded, F.glbPins_fault_n, F.hstRltStat_blocked,
    F.lmlEvt_unreach_drop, F.secFault_cause, F.spnStat_state, F.sscRole_active, F.sscRole_standby_fit, F.sscRole_state,
    F.sscSwap_deferred, F.sscSwap_last_cause, F.sscSwap_switches, F.sscSwap_to_swap])) ∧
  (Changes .sramWipeDone [.mem, .out, .ecc, .struct, .seqs, .chain, .spins, .therm, .reset, .card, .sec] (loadFlds ++ levelFlds ++
    [F.glbStart_stage, F.glbStructStat_arb_otp, F.glbStructStat_fail_a, F.glbStructStat_fail_b, F.memWipe_dump_kept])) ∧
  (∀ a, Changes (.dramWipeDone a) [.mem, .out, .draws, .ecc, .struct, .host, .chain, .cipher, .comp, .spins, .therm, .reset, .card,
    .sec, .fw, .map] (loadFlds ++ levelFlds ++ hostFlds ++ engineFlds ++ [F.cphNonceCtr_value, F.cphNonceId_nonce_id,
    F.cphNonceLimit_value, F.cphStat_kek_loaded, F.cphStat_nonce_wait, F.evrPmStat_dump_seq, F.evrPmStat_kept, F.glbStart_stage,
    F.memCfg_trained, F.memWipe_dump_kept, F.memWipe_last_ms, F.memWipe_state])) ∧
  (∀ a, Changes (.bootDone a) [.out, .host, .chain, .cipher, .comp] (boundFlds ++ hostFlds ++ engineFlds ++ sendFlds ++
    [F.glbStart_boot_done, F.glbStart_boot_ms, F.glbStart_stage, F.hstRltStat_blocked, F.lmlEvt_unreach_drop, F.lmlStat_down_cause,
    F.lmlStat_lanes, F.lmlStat_rate, F.lmlStat_state, F.lmlStat_width, F.pwrHvote_hda, F.pwrPs_engines, F.pwrPs_host_width,
    F.pwrPs_speed_cap, F.pwrPs_streams, F.pwrPs_throttling])) ∧
  (Changes .activateCommit [.out, .struct, .seqs, .chns, .health, .host, .chain, .servos, .spins, .therm, .reset, .card] (retractFlds
    ++ unsafeFlds ++ [F.glbStructStat_activate, F.lmlCred_rx_used, F.lmlRetry_buf_used, F.lmlRetry_sends, F.lmlStat_down_cause,
    F.lmlStat_routed, F.lmlStat_secure, F.lmlStat_state, F.memWipe_state, F.pwrHs_state, F.spnStat_state, F.sscLaneStat_state])) ∧
  (Changes .activateRestructure [.mem, .out, .draws, .struct, .host, .chain, .cipher, .comp, .spins, .therm, .card, .sec] (loadFlds ++
    levelFlds ++ boundFlds ++ hostFlds ++ engineFlds ++ sendFlds ++ [F.cphNonceCtr_value, F.cphNonceId_nonce_id, F.cphNonceLimit_value,
    F.cphStat_kek_loaded, F.cphStat_nonce_wait, F.glbStructStat_activate, F.glbStructStat_arb_otp, F.glbStructStat_fail_a,
    F.glbStructStat_fail_b, F.hstRltStat_blocked, F.lmlEvt_unreach_drop, F.lmlStat_lanes, F.lmlStat_rate, F.lmlStat_state,
    F.lmlStat_width, F.pwrHvote_hda])) ∧
  (Changes .orderlyReset [.out, .draws, .struct, .seqs, .chns, .host, .chain, .cipher, .comp, .therm, .reset, .card] (stopFlds ++
    hostFlds ++ engineFlds ++ sendFlds ++ resultFlds ++ bufferFlds ++ wakeFlds ++ [F.chnStat_timing_lock, F.chnWcnt_count,
    F.chnWresult_cause, F.chnWresult_sector, F.chnWresult_status, F.chnWstat_assist_ok, F.chnWstat_fly_ok, F.chnWstat_unsafe,
    F.chnWstat_unsafe_now, F.evrCtl_frozen, F.evrStat_auto_thawed, F.evrStat_epoch, F.evrStat_nor_fail, F.glbPins_sys_rst_n,
    F.glbStart_stage, F.hstRltStat_blocked, F.lmlEvt_unreach_drop, F.sqrStat_permit])) ∧
  (∀ a, Changes (.orderlyResetFlushEnd a) [.out, .draws, .ecc, .seqs, .chns, .health, .host, .cipher, .servos, .spins, .therm, .reset,
    .card] (retractFlds ++ memErrFlds ++ hostFlds ++ engineFlds ++ unsafeFlds ++ hardFlds ++ [F.cphBytes_bytes, F.cphErr_key_empty,
    F.cphErr_locked, F.cphErr_slot_crc, F.memWipe_state, F.pwrHs_state, F.spnStat_state, F.sscLaneStat_state])) ∧
  (Changes .firmwareImageSwitch [.out, .struct, .host, .chain, .spins, .therm, .card, .sec, .fw] (loadFlds ++ levelFlds ++ hostFlds)) ∧
  (∀ a b c d e, Changes (.servoSample a b c d e) [.out, .draws, .seqs, .chns, .health, .host, .chain, .cipher, .comp, .servos, .therm,
    .card] (hostFlds ++ engineFlds ++ sendFlds ++ unsafeFlds ++ [F.hstRltStat_blocked, F.lmlEvt_unreach_drop, F.sscCmpStat_resyncs,
    F.sscLaneStat_band, F.sscLaneStat_on_track, F.sscLaneStat_state, F.sscLaneStat_warn, F.sscMa_missing, F.sscSat_sat,
    F.sscSwap_to_swap])) ∧
  (∀ a b, Changes (.laneLostRetract a b) [.out, .seqs, .chns, .health, .host, .chain, .cipher, .comp, .servos, .therm, .card]
    (boundFlds ++ retractFlds ++ hostFlds ++ engineFlds ++ sendFlds ++ unsafeFlds ++ [F.hstRltStat_blocked, F.lmlEvt_unreach_drop])) ∧
  (∀ a b c d e f, Changes (.servoOutputInstant a b c d e f) [.mem, .out, .draws, .seqs, .chns, .health, .host, .chain, .cipher,
    .comp, .servos, .spins, .therm, .card] (boundFlds ++ retractFlds ++ hostFlds ++ engineFlds ++ sendFlds ++ unsafeFlds ++
    [F.hstRltStat_blocked, F.lmlEvt_unreach_drop, F.spnStat_state, F.sscCmpStat_first_node, F.sscCmpStat_mismatches, F.sscCmpStat_seen,
    F.sscOvr_lane_seen, F.sscOvr_recent, F.sscOvr_total, F.sscRole_state, F.sscSat_sat, F.sscTraceStat_wptr, F.sscTraceStat_wrapped])) ∧
  (∀ a, Changes (.overrunFault a) [.out, .seqs, .chns, .health, .host, .chain, .cipher, .comp, .servos, .spins, .therm, .card]
    (boundFlds ++ retractFlds ++ hostFlds ++ engineFlds ++ sendFlds ++ unsafeFlds ++ [F.hstRltStat_blocked, F.lmlEvt_unreach_drop,
    F.spnStat_state, F.sscRole_active, F.sscRole_standby_fit, F.sscRole_state, F.sscSwap_deferred, F.sscSwap_last_cause,
    F.sscSwap_switches, F.sscSwap_to_swap])) ∧
  (∀ a b, Changes (.firmwareRetract a b) [.out, .seqs, .chns, .health, .host, .chain, .cipher, .comp, .servos, .therm, .card]
    (boundFlds ++ retractFlds ++ hostFlds ++ engineFlds ++ sendFlds ++ unsafeFlds ++ [F.hstRltStat_blocked, F.lmlEvt_unreach_drop])) ∧
  (∀ a, Changes (.retractRestart a) [.out, .host, .chain, .cipher, .comp, .servos] (boundFlds ++ hostFlds ++ engineFlds ++ sendFlds ++
    [F.hstRltStat_blocked, F.lmlEvt_unreach_drop, F.pslStat_psl_fault, F.pwrHs_in_transition, F.pwrHs_step, F.sscLaneStat_split,
    F.sscLaneStat_state, F.sscRole_active, F.sscRole_standby_fit, F.sscRole_state, F.sscSwap_to_swap])) ∧
  (∀ a b c d e f, Changes (.spindleTick a b c d e f) [.out, .seqs, .chns, .health, .host, .chain, .cipher, .comp, .servos, .spins,
    .power, .therm, .card] (boundFlds ++ retractFlds ++ hostFlds ++ engineFlds ++ sendFlds ++ unsafeFlds ++ [F.hstRltStat_blocked,
    F.lmlEvt_unreach_drop, F.pwrHoldStat_elapsed, F.spnStat_chop_fault, F.spnStat_ov2, F.spnStat_speed, F.spnStat_state,
    F.sscOvr_lane_seen, F.sscOvr_recent, F.sscOvr_total, F.sscRole_state, F.sscSat_sat])) ∧
  (∀ a b, Changes (.spindleStart a b) [.out, .host, .chain, .cipher, .comp, .spins, .power, .card] (boundFlds ++ hostFlds ++ engineFlds
    ++ sendFlds ++ [F.hstRltStat_blocked, F.lmlEvt_unreach_drop, F.spnStat_chop_fault, F.spnStat_ov2, F.spnStat_state])) ∧
  (∀ a, Changes (.spindleModeOff a) [.out, .host, .chain, .cipher, .comp, .spins] (boundFlds ++ hostFlds ++ engineFlds ++ sendFlds ++
    [F.hstRltStat_blocked, F.lmlEvt_unreach_drop, F.spnCtl_mode, F.spnStat_state])) ∧
  (∀ a, Changes (.spindleModeRun a) [.out, .host, .chain, .cipher, .comp, .spins] (boundFlds ++ hostFlds ++ engineFlds ++ sendFlds ++
    [F.hstRltStat_blocked, F.lmlEvt_unreach_drop, F.spnCtl_mode, F.spnStat_state])) ∧
  (∀ a, Changes (.spindleModeCoast a) [.out, .host, .chain, .cipher, .comp, .spins] (boundFlds ++ hostFlds ++ engineFlds ++ sendFlds ++
    [F.hstRltStat_blocked, F.lmlEvt_unreach_drop, F.spnCtl_mode, F.spnStat_state])) ∧
  (∀ a, Changes (.spindleModeShortBrake a) [.out, .host, .chain, .cipher, .comp, .spins] (boundFlds ++ hostFlds ++ engineFlds ++
    sendFlds ++ [F.hstRltStat_blocked, F.lmlEvt_unreach_drop, F.spnCtl_mode, F.spnStat_state])) ∧
  (∀ a, Changes (.openLoopHandover a) [.out, .host, .chain, .cipher, .comp, .spins] (boundFlds ++ hostFlds ++ engineFlds ++ sendFlds ++
    [F.hstRltStat_blocked, F.lmlEvt_unreach_drop, F.spnStat_state])) ∧
  (∀ a, Changes (.rotorLost a) [.out, .seqs, .chns, .host, .chain, .cipher, .comp, .servos, .spins, .therm, .card] (boundFlds ++
    hostFlds ++ engineFlds ++ sendFlds ++ resultFlds ++ bufferFlds ++ [F.chnStat_timing_lock, F.chnWcnt_count, F.chnWresult_cause,
    F.chnWresult_sector, F.chnWresult_status, F.chnWstat_assist_ok, F.chnWstat_fly_ok, F.chnWstat_unsafe, F.chnWstat_unsafe_now,
    F.hstRltStat_blocked, F.lmlEvt_unreach_drop, F.spnCnt_losts, F.spnEvt_lost, F.spnStat_state, F.sqrStat_cause, F.sqrStat_in_cust,
    F.sqrStat_permit, F.sqrStat_sp, F.sqrStat_state, F.sqrStat_status, F.sscSat_sat])) ∧
  (∀ a b, Changes (.rotorRelock a b) [.out, .host, .chain, .cipher, .comp, .spins] (boundFlds ++ hostFlds ++ engineFlds ++ sendFlds ++
    [F.hstRltStat_blocked, F.lmlEvt_unreach_drop, F.spnEvt_relock, F.spnStat_speed, F.spnStat_state])) ∧
  (∀ a, Changes (.catchTimeout a) [.out, .seqs, .chns, .health, .host, .servos, .spins, .therm, .card] (retractFlds ++ unsafeFlds ++
    [F.pwrHs_state, F.spnCnt_restarts, F.spnEvt_restart, F.spnStat_state, F.sscLaneStat_state])) ∧
  (∀ a, Changes (.vbusOv2 a) [.out, .seqs, .chns, .health, .host, .chain, .cipher, .comp, .servos, .spins, .therm, .card] (boundFlds ++
    retractFlds ++ hostFlds ++ engineFlds ++ sendFlds ++ unsafeFlds ++ [F.hstRltStat_blocked, F.lmlEvt_unreach_drop, F.spnEvt_ov2,
    F.spnStat_ov2, F.spnStat_state, F.sscLaneStat_state])) ∧
  (∀ a, Changes (.chopperFault a) [.out, .host, .chain, .cipher, .comp, .card] (boundFlds ++ hostFlds ++ engineFlds ++ sendFlds ++
    [F.hstRltStat_blocked, F.lmlEvt_unreach_drop, F.spnEvt_chop_fault, F.spnStat_chop_fault])) ∧
  (∀ a, Changes (.powerStageFault a) [.out, .seqs, .chns, .health, .host, .chain, .cipher, .comp, .servos, .spins, .therm, .card]
    (boundFlds ++ retractFlds ++ hostFlds ++ engineFlds ++ sendFlds ++ unsafeFlds ++ [F.hstRltStat_blocked, F.lmlEvt_unreach_drop,
    F.pslStat_fault_seen, F.spnStat_state])) ∧
  (∀ a b, Changes (.fireDrillStart a b) [.out, .draws, .xb, .ecc, .struct, .seqs, .chns, .health, .host, .chain, .cipher, .comp,
    .servos, .spins, .therm, .reset, .card] (stopFlds ++ retractFlds ++ memErrFlds ++ hostFlds ++ engineFlds ++ sendFlds ++ resultFlds
    ++ unsafeFlds ++ bufferFlds ++ hardFlds ++ [F.chnStat_timing_lock, F.cphBytes_bytes, F.cphErr_key_empty, F.cphErr_locked,
    F.cphErr_slot_crc, F.glbPins_pwr_good, F.glbStart_stage, F.hstRltStat_blocked, F.lmlEvt_unreach_drop, F.pwrDom_dom,
    F.pwrHoldStat_cause, F.pwrHoldStat_elapsed, F.pwrHoldStat_flushing, F.pwrHoldStat_state, F.pwrHs_state, F.spnStat_state,
    F.sscLaneStat_state, F.xbrArbCtl_hold_up])) ∧
  (∀ a b, Changes (.fireDrillFlushEnd a b) [.out, .draws, .ecc, .seqs, .chns, .health, .host, .cipher, .servos, .spins, .therm, .reset,
    .card] (retractFlds ++ memErrFlds ++ hostFlds ++ engineFlds ++ unsafeFlds ++ hardFlds ++ [F.cphBytes_bytes, F.cphErr_key_empty,
    F.cphErr_locked, F.cphErr_slot_crc, F.pwrHoldStat_flushing, F.pwrHoldStat_state, F.pwrHs_state, F.spnStat_state,
    F.sscLaneStat_state])) ∧
  (∀ a b c d, Changes (.loopbackSelect a b c d) [.out, .host, .chain, .cipher, .comp, .therm, .reset, .card] (boundFlds ++ hostFlds ++
    engineFlds ++ sendFlds ++ [F.hstRltStat_blocked, F.lmlEvt_unreach_drop, F.lmlStat_down_cause, F.lmlStat_lanes, F.lmlStat_rate,
    F.lmlStat_routed, F.lmlStat_secure, F.lmlStat_state, F.lmlStat_width, F.loop_arg, F.loop_depth, F.loop_refused, F.memCfg_trained,
    F.memWipe_state, F.pwrVote_dom, F.thmStat_phase])) ∧
  (ChangesWhen (fun s => s.dev.power.stalled = []) .remapDone [.ecc] [F.eccRemapCtl_busy, F.eccRemapStat_full, F.eccRemapStat_in_use,
    F.eccRemapStat_last_macro]) ∧
  (∀ a, Changes (.powerTargetEvaluate a) [.out, .host, .chain, .cipher, .comp, .spins, .power, .card] (boundFlds ++ hostFlds ++
    engineFlds ++ sendFlds ++ wakeFlds ++ [F.hstRltStat_blocked, F.lmlEvt_unreach_drop, F.pwrCs_cs2_block, F.pwrHs_in_transition,
    F.pwrHs_lmin, F.pwrHs_permitted, F.pwrHs_step, F.pwrHs_target, F.pwrHs_voted, F.pwrHvote_hda, F.pwrVote_dom, F.spnCtl_mode,
    F.spnStat_chop_fault, F.spnStat_ov2, F.spnStat_state, F.sscLaneStat_on_track, F.sscLaneStat_state])) ∧
  (∀ a b, Changes (.hdaIdleTimeout a b) [.out, .host, .chain, .cipher, .comp, .spins, .power, .card] (boundFlds ++ hostFlds ++
    engineFlds ++ sendFlds ++ [F.hstRltStat_blocked, F.lmlEvt_unreach_drop, F.pwrHs_in_transition, F.pwrHs_lmin, F.pwrHs_permitted,
    F.pwrHs_step, F.pwrHs_target, F.pwrHs_voted, F.pwrHvote_hda, F.pwrVote_dom, F.spnCtl_mode, F.spnStat_chop_fault, F.spnStat_ov2,
    F.spnStat_state, F.sscLaneStat_on_track, F.sscLaneStat_state])) ∧
  (∀ a b c, Changes (.hdaStepEnd a b c) [.out, .draws, .health, .host, .chain, .cipher, .comp, .spins, .power, .card] (boundFlds ++
    hostFlds ++ engineFlds ++ sendFlds ++ [F.glbStart_hs0_seen, F.glbStart_ready, F.hstRltStat_blocked, F.lmlEvt_unreach_drop,
    F.pwrDom_dom, F.pwrHs_in_transition, F.pwrHs_step, F.spnCtl_mode, F.spnStat_chop_fault, F.spnStat_ov2, F.spnStat_state,
    F.sscLaneStat_on_track, F.sscLaneStat_state, F.sscMa_baseline, F.sscMa_stroke])) ∧
  (∀ a, ChangesWhen (fun s => s.dev.power.stalled = []) (.domainWake a) [] [F.pwrDom_dom]) ∧
  (∀ a, Changes (.thermalSample a) [.out, .draws, .struct, .seqs, .chns, .host, .chain, .cipher, .comp, .therm, .reset, .card]
    (stopFlds ++ hostFlds ++ engineFlds ++ sendFlds ++ resultFlds ++ bufferFlds ++ limitFlds ++ wakeFlds ++ [F.chnStat_timing_lock,
    F.chnWcnt_count, F.chnWresult_cause, F.chnWresult_sector, F.chnWresult_status, F.chnWstat_assist_ok, F.chnWstat_fly_ok,
    F.chnWstat_unsafe, F.chnWstat_unsafe_now, F.evrCtl_frozen, F.evrStat_auto_thawed, F.evrStat_epoch, F.evrStat_nor_fail,
    F.glbPins_fault_n, F.hstRltStat_blocked, F.lmlEvt_unreach_drop, F.sqrStat_permit, F.thmEvt_shutdown, F.thmEvt_step_down,
    F.thmEvt_step_up, F.thmRegion_band, F.thmRegion_rise2, F.thmRegion_rise8, F.thmRegion_temp, F.thmSens_peak, F.thmSens_temp,
    F.thmStat_cause, F.thmStat_die_max, F.thmStat_step])) ∧
  (∀ a, Changes (.hardwareTrip a) [.out, .draws, .ecc, .struct, .seqs, .chns, .health, .host, .chain, .cipher, .comp, .servos, .spins,
    .therm, .reset, .card] (stopFlds ++ retractFlds ++ memErrFlds ++ hostFlds ++ engineFlds ++ sendFlds ++ resultFlds ++ unsafeFlds ++
    bufferFlds ++ hardFlds ++ wakeFlds ++ [F.chnStat_timing_lock, F.cphBytes_bytes, F.cphErr_key_empty, F.cphErr_locked,
    F.cphErr_slot_crc, F.glbPins_fault_n, F.glbPins_therm_trip_n, F.hstRltStat_blocked, F.lmlEvt_unreach_drop, F.pwrHoldStat_flushing,
    F.pwrHoldStat_state, F.pwrHs_state, F.spnStat_state, F.thmEvt_shutdown, F.thmStat_cause])) ∧
  (∀ a b c d, Changes (.calibrationDone a b c d) [.out, .draws, .seqs, .chns, .health, .host, .chain, .cipher, .comp, .therm, .card]
    (hostFlds ++ engineFlds ++ sendFlds ++ unsafeFlds ++ [F.calDue_due, F.calDue_method, F.calStat_busy, F.calStat_fail,
    F.calStat_fallback, F.calStat_runs, F.chnFly_read_code, F.chnFly_td_code, F.chnFly_write_code, F.hstRltStat_blocked,
    F.lmlEvt_unreach_drop, F.pwrVote_dom])) ∧
  (∀ a b, Changes (.permissionSlipSubmit a b) [.out, .host, .chain, .cipher, .comp, .sec] (levelFlds ++ fetchFlds ++ hostFlds ++
    engineFlds ++ sendFlds ++ [F.hstRltStat_blocked, F.lmlEvt_unreach_drop, F.secSerial_serial, F.secSlipStat_check,
    F.secSlipStat_kind, F.secSlipStat_status, F.secSlipStat_valid])) ∧
  (Changes .lifeCycleBurn [.out, .draws, .struct, .seqs, .chns, .host, .chain, .cipher, .comp, .therm, .reset, .card, .sec] (levelFlds
    ++ stopFlds ++ hostFlds ++ engineFlds ++ sendFlds ++ resultFlds ++ bufferFlds ++ wakeFlds ++ [F.chnStat_timing_lock,
    F.chnWcnt_count, F.chnWresult_cause, F.chnWresult_sector, F.chnWresult_status, F.chnWstat_assist_ok, F.chnWstat_fly_ok,
    F.chnWstat_unsafe, F.chnWstat_unsafe_now, F.evrCtl_frozen, F.evrPmStat_dump_seq, F.evrPmStat_resets, F.evrStat_auto_thawed,
    F.evrStat_epoch, F.evrStat_nor_fail, F.hstRltStat_blocked, F.lmlEvt_unreach_drop, F.sqrStat_permit])) ∧
  (∀ a, Changes (.productionProgram a) [.out, .draws, .struct, .seqs, .chns, .host, .chain, .cipher, .comp, .therm, .reset, .card,
    .sec] (levelFlds ++ stopFlds ++ hostFlds ++ engineFlds ++ sendFlds ++ resultFlds ++ bufferFlds ++ wakeFlds ++
    [F.chnStat_timing_lock, F.chnWcnt_count, F.chnWresult_cause, F.chnWresult_sector, F.chnWresult_status, F.chnWstat_assist_ok,
    F.chnWstat_fly_ok, F.chnWstat_unsafe, F.chnWstat_unsafe_now, F.evrCtl_frozen, F.evrPmStat_dump_seq, F.evrPmStat_resets,
    F.evrStat_auto_thawed, F.evrStat_epoch, F.evrStat_nor_fail, F.hstRltStat_blocked, F.lmlEvt_unreach_drop, F.sqrStat_permit])) ∧
  (∀ a, Changes (.securityFault a) [.out, .draws, .ecc, .struct, .seqs, .chns, .health, .host, .chain, .cipher, .comp, .servos, .therm,
    .reset, .card, .sec] (levelFlds ++ stopFlds ++ retractFlds ++ memErrFlds ++ hostFlds ++ engineFlds ++ sendFlds ++ resultFlds ++
    unsafeFlds ++ bufferFlds ++ hardFlds ++ [F.chnStat_timing_lock, F.cphBytes_bytes, F.cphErr_key_empty, F.cphErr_locked,
    F.cphErr_slot_crc, F.cphStat_kek_loaded, F.glbPins_fault_n, F.hstRltStat_blocked, F.lmlEvt_unreach_drop, F.pwrHs_state,
    F.secFault_cause])) ∧
  (Changes .postMortemReset [.out, .draws, .struct, .seqs, .chns, .host, .chain, .cipher, .comp, .therm, .reset, .card] (stopFlds ++
    hostFlds ++ engineFlds ++ sendFlds ++ resultFlds ++ bufferFlds ++ wakeFlds ++ [F.chnStat_timing_lock, F.chnWcnt_count,
    F.chnWresult_cause, F.chnWresult_sector, F.chnWresult_status, F.chnWstat_assist_ok, F.chnWstat_fly_ok, F.chnWstat_unsafe,
    F.chnWstat_unsafe_now, F.evrCtl_frozen, F.evrPmStat_resets, F.evrStat_auto_thawed, F.evrStat_epoch, F.evrStat_nor_fail,
    F.hstRltStat_blocked, F.lmlEvt_unreach_drop, F.sqrStat_permit])) ∧
  (Changes .watchdogExpiry [.out, .draws, .struct, .seqs, .chns, .host, .chain, .cipher, .comp, .therm, .reset, .card] (stopFlds ++
    hostFlds ++ engineFlds ++ sendFlds ++ resultFlds ++ bufferFlds ++ wakeFlds ++ [F.chnStat_timing_lock, F.chnWcnt_count,
    F.chnWresult_cause, F.chnWresult_sector, F.chnWresult_status, F.chnWstat_assist_ok, F.chnWstat_fly_ok, F.chnWstat_unsafe,
    F.chnWstat_unsafe_now, F.evrCtl_frozen, F.evrPmStat_resets, F.evrStat_auto_thawed, F.evrStat_epoch, F.evrStat_nor_fail,
    F.hstRltStat_blocked, F.lmlEvt_unreach_drop, F.sqrStat_permit]))
end

