-- ==== Sys2Proof/Laws/Tab.lean ====
section
/-! SUPPORT. Sparse tables: what a write leaves at each key, and that every table operation keeps the canonical form. -/
namespace Sys2Proof.Machine

/-! ### Reading after a change -/

theorem tabGet_tabErase {α : Type} (dflt : α) (t : List (Nat × α)) (q r : Nat) :
    tabGet dflt (tabErase t q) r = if r = q then dflt else tabGet dflt t r := by
  induction t with
  | nil => simp [tabErase, tabGet]
  | cons c t ih =>
    obtain ⟨k, v⟩ := c
    by_cases hk : k = q <;> by_cases hr : r = q <;> simp_all [tabErase, tabGet]
    intro h; exact absurd h.symm hr

/-- An insertion answers at its own key where the table has no such key. -/
theorem tabGet_tabInsert {α : Type} (dflt : α) (t : List (Nat × α)) (q : Nat) (x : α) (r : Nat)
    (h : ∀ c ∈ t, c.1 ≠ q) : tabGet dflt (tabInsert t q x) r = if r = q then x else tabGet dflt t r := by
  induction t with
  | nil => simp [tabInsert, tabGet, eq_comm]
  | cons c t ih =>
    obtain ⟨k, v⟩ := c
    have hk : k ≠ q := h (k, v) (by simp)
    have ih := ih fun c hc => h c (by simp [hc])
    by_cases hq : q < k
    · simp [tabInsert, hq, tabGet, eq_comm]
    · by_cases hr : r = q
      · subst hr; simp [tabInsert, hq, tabGet, hk, ih]
      · simp [tabInsert, hq, tabGet, ih, hr]

theorem mem_tabErase_key {α : Type} (t : List (Nat × α)) (q : Nat) : ∀ c ∈ tabErase t q, c.1 ≠ q := by
  induction t with
  | nil => simp [tabErase]
  | cons c t ih =>
    obtain ⟨k, v⟩ := c
    by_cases hk : k = q
    · simpa [tabErase, hk] using ih
    · intro c hc
      simp only [tabErase, hk, if_false, List.mem_cons] at hc
      obtain rfl | hc := hc
      · exact hk
      · exact ih c hc

/-- A write answers at its own key, and leaves every other. -/
theorem tabGet_tabPut {α : Type} [DecidableEq α] (dflt : α) (t : List (Nat × α)) (q : Nat) (x : α) (r : Nat) :
    tabGet dflt (tabPut dflt t q x) r = if r = q then x else tabGet dflt t r := by
  unfold tabPut
  split
  · next h => rw [tabGet_tabErase, h]
  · rw [tabGet_tabInsert _ _ _ _ _ (mem_tabErase_key t q)]
    split
    · rfl
    · rw [tabGet_tabErase]; simp_all

/-- A write leaves every other key as it read, whatever an unlisted key reads as. -/
theorem tabGet_tabPut_ne {α : Type} [DecidableEq α] (dflt e : α) (t : List (Nat × α)) (q : Nat) (x : α) (r : Nat) (h : r ≠ q) :
    tabGet e (tabPut dflt t q x) r = tabGet e t r := by
  unfold tabPut
  split
  · simp [tabGet_tabErase, h]
  · rw [tabGet_tabInsert _ _ _ _ _ (mem_tabErase_key t q)]
    simp [tabGet_tabErase, h]

/-! ### Canonical form -/

theorem tabRises_weaken {α : Type} [DecidableEq α] (dflt : Nat → α) (t : List (Nat × α)) (b : Option Nat) (q : Nat)
    (h : tabRises dflt (some q) t = true) (hb : ∀ p, b = some p → p ≤ q) : tabRises dflt b t = true := by
  cases t with
  | nil => rfl
  | cons c t =>
    obtain ⟨k, v⟩ := c
    cases b with
    | none => simp_all [tabRises]
    | some p =>
      have := hb p rfl
      simp only [tabRises, Bool.and_eq_true, decide_eq_true_eq] at h ⊢
      exact ⟨⟨by omega, h.1.2⟩, h.2⟩

theorem tabRises_erase {α : Type} [DecidableEq α] (dflt : Nat → α) (t : List (Nat × α)) (b : Option Nat) (q : Nat)
    (h : tabRises dflt b t = true) : tabRises dflt b (tabErase t q) = true := by
  induction t generalizing b with
  | nil => rfl
  | cons c t ih =>
    obtain ⟨k, v⟩ := c
    have ht : tabRises dflt (some k) t = true := by
      simp only [tabRises, Bool.and_eq_true] at h; exact h.2
    by_cases hk : k = q
    · simp only [tabErase, hk, if_true]
      apply ih
      refine tabRises_weaken dflt t b k ht fun p hp => ?_
      subst hp; simp only [tabRises, Bool.and_eq_true, decide_eq_true_eq] at h; omega
    · simp only [tabErase, hk, if_false, tabRises, Bool.and_eq_true] at h ⊢
      exact ⟨h.1, ih _ h.2⟩

theorem tabRises_insert {α : Type} [DecidableEq α] (dflt : Nat → α) (t : List (Nat × α)) (b : Option Nat) (q : Nat) (x : α)
    (h : tabRises dflt b t = true) (hq : ∀ c ∈ t, c.1 ≠ q) (hb : ∀ p, b = some p → p < q) (hx : x ≠ dflt q) :
    tabRises dflt b (tabInsert t q x) = true := by
  induction t generalizing b with
  | nil =>
    cases b with
    | none => simp [tabInsert, tabRises, hx]
    | some p => simp [tabInsert, tabRises, hx, hb p rfl]
  | cons c t ih =>
    obtain ⟨k, v⟩ := c
    have hk : k ≠ q := hq (k, v) (by simp)
    by_cases hlt : q < k
    · simp only [tabInsert, hlt, if_true]
      cases b with
      | none => simp_all [tabRises]
      | some p => have := hb p rfl; simp_all [tabRises]
    · simp only [tabInsert, hlt, if_false]
      simp only [tabRises, Bool.and_eq_true] at h ⊢
      refine ⟨h.1, ih _ h.2 (fun c hc => hq c (by simp [hc])) fun p hp => ?_⟩
      cases hp; omega

/-- Erasing a key keeps the canonical form. -/
theorem tabWf_erase {α : Type} [DecidableEq α] (dflt : Nat → α) (t : List (Nat × α)) (q : Nat)
    (h : tabWf dflt t = true) : tabWf dflt (tabErase t q) = true := tabRises_erase dflt t none q h

/-- A write keeps the canonical form. -/
theorem tabWf_put {α : Type} [DecidableEq α] (dflt : Nat → α) (t : List (Nat × α)) (q : Nat) (x : α)
    (h : tabWf dflt t = true) : tabWf dflt (tabPut (dflt q) t q x) = true := by
  unfold tabPut
  split
  · exact tabWf_erase dflt t q h
  · next hx => exact tabRises_insert dflt _ none q x (tabWf_erase dflt t q h) (mem_tabErase_key t q) (by simp) hx

/-- Dropping entries keeps the canonical form. -/
theorem tabRises_filter {α : Type} [DecidableEq α] (dflt : Nat → α) (p : Nat × α → Bool) (t : List (Nat × α))
    (b : Option Nat) (h : tabRises dflt b t = true) : tabRises dflt b (t.filter p) = true := by
  induction t generalizing b with
  | nil => rfl
  | cons c t ih =>
    obtain ⟨k, v⟩ := c
    simp only [tabRises, Bool.and_eq_true] at h
    by_cases hp : p (k, v)
    · simp only [List.filter_cons, hp, if_true, tabRises, Bool.and_eq_true]
      exact ⟨h.1, ih _ h.2⟩
    · simp only [List.filter_cons, hp]
      refine ih _ (tabRises_weaken dflt t b k h.2 fun q hq => ?_)
      subst hq; have := h.1.1; simp at this; omega

theorem tabWf_filter {α : Type} [DecidableEq α] (dflt : Nat → α) (p : Nat × α → Bool) (t : List (Nat × α))
    (h : tabWf dflt t = true) : tabWf dflt (t.filter p) = true := tabRises_filter dflt p t none h

end Sys2Proof.Machine
end

