-- ==== Sys2Proof/Laws/State.lean ====
section
/-! SUPPORT. What each update of the device leaves of each part of it: one lemma per part per update, true by rfl. -/
namespace Sys2Proof.Machine

/-! ### wr -/
@[simp] theorem Dev.wr_out (d : Dev) (f : Fld) (v i j : Nat) : (d.wr f v i j).out = d.out := rfl
@[simp] theorem Dev.wr_draws (d : Dev) (f : Fld) (v i j : Nat) : (d.wr f v i j).draws = d.draws := rfl
@[simp] theorem Dev.wr_xb (d : Dev) (f : Fld) (v i j : Nat) : (d.wr f v i j).xb = d.xb := rfl
@[simp] theorem Dev.wr_ecc (d : Dev) (f : Fld) (v i j : Nat) : (d.wr f v i j).ecc = d.ecc := rfl
@[simp] theorem Dev.wr_struct (d : Dev) (f : Fld) (v i j : Nat) : (d.wr f v i j).struct = d.struct := rfl
@[simp] theorem Dev.wr_seqs (d : Dev) (f : Fld) (v i j : Nat) : (d.wr f v i j).seqs = d.seqs := rfl
@[simp] theorem Dev.wr_chns (d : Dev) (f : Fld) (v i j : Nat) : (d.wr f v i j).chns = d.chns := rfl
@[simp] theorem Dev.wr_health (d : Dev) (f : Fld) (v i j : Nat) : (d.wr f v i j).health = d.health := rfl
@[simp] theorem Dev.wr_healthGen (d : Dev) (f : Fld) (v i j : Nat) : (d.wr f v i j).healthGen = d.healthGen := rfl
@[simp] theorem Dev.wr_host (d : Dev) (f : Fld) (v i j : Nat) : (d.wr f v i j).host = d.host := rfl
@[simp] theorem Dev.wr_chain (d : Dev) (f : Fld) (v i j : Nat) : (d.wr f v i j).chain = d.chain := rfl
@[simp] theorem Dev.wr_cipher (d : Dev) (f : Fld) (v i j : Nat) : (d.wr f v i j).cipher = d.cipher := rfl
@[simp] theorem Dev.wr_comp (d : Dev) (f : Fld) (v i j : Nat) : (d.wr f v i j).comp = d.comp := rfl
@[simp] theorem Dev.wr_servos (d : Dev) (f : Fld) (v i j : Nat) : (d.wr f v i j).servos = d.servos := rfl
@[simp] theorem Dev.wr_spins (d : Dev) (f : Fld) (v i j : Nat) : (d.wr f v i j).spins = d.spins := rfl
@[simp] theorem Dev.wr_power (d : Dev) (f : Fld) (v i j : Nat) : (d.wr f v i j).power = d.power := rfl
@[simp] theorem Dev.wr_therm (d : Dev) (f : Fld) (v i j : Nat) : (d.wr f v i j).therm = d.therm := rfl
@[simp] theorem Dev.wr_reset (d : Dev) (f : Fld) (v i j : Nat) : (d.wr f v i j).reset = d.reset := rfl
@[simp] theorem Dev.wr_card (d : Dev) (f : Fld) (v i j : Nat) : (d.wr f v i j).card = d.card := rfl
@[simp] theorem Dev.wr_sec (d : Dev) (f : Fld) (v i j : Nat) : (d.wr f v i j).sec = d.sec := rfl
@[simp] theorem Dev.wr_fw (d : Dev) (f : Fld) (v i j : Nat) : (d.wr f v i j).fw = d.fw := rfl
@[simp] theorem Dev.wr_map (d : Dev) (f : Fld) (v i j : Nat) : (d.wr f v i j).map = d.map := rfl
@[simp] theorem Dev.wr_seq (d : Dev) (f : Fld) (v i j : Nat) (k : Nat) : (d.wr f v i j).seq k = d.seq k := rfl
@[simp] theorem Dev.wr_chn (d : Dev) (f : Fld) (v i j : Nat) (k : Nat) : (d.wr f v i j).chn k = d.chn k := rfl
@[simp] theorem Dev.wr_headHealth (d : Dev) (f : Fld) (v i j : Nat) (k : Nat) : (d.wr f v i j).headHealth k = d.headHealth k := rfl
@[simp] theorem Dev.wr_servo (d : Dev) (f : Fld) (v i j : Nat) (k : Nat) : (d.wr f v i j).servo k = d.servo k := rfl
@[simp] theorem Dev.wr_spin (d : Dev) (f : Fld) (v i j : Nat) (k : Nat) : (d.wr f v i j).spin k = d.spin k := rfl
@[simp] theorem Dev.wr_section (d : Dev) (f : Fld) (v i j : Nat) (k l : Nat) : (d.wr f v i j).section k l = d.section k l := rfl
@[simp] theorem Dev.wr_secField (d : Dev) (f : Fld) (v i j : Nat) (k l x y : Nat) : (d.wr f v i j).secField k l x y = d.secField k l x y := rfl
@[simp] theorem Dev.wr_hdaPresent (d : Dev) (f : Fld) (v i j : Nat) (k : Nat) : (d.wr f v i j).hdaPresent k = d.hdaPresent k := rfl
@[simp] theorem Dev.wr_actPresent (d : Dev) (f : Fld) (v i j : Nat) (k : Nat) : (d.wr f v i j).actPresent k = d.actPresent k := rfl
@[simp] theorem Dev.wr_lport (d : Dev) (f : Fld) (v i j : Nat) (k : Nat) : (d.wr f v i j).lport k = d.lport k := rfl
@[simp] theorem Dev.wr_port (d : Dev) (f : Fld) (v i j : Nat) (k : Nat) : (d.wr f v i j).port k = d.port k := rfl

/-! ### emit -/
@[simp] theorem Dev.emit_regs (d : Dev) (e : Emit) : (d.emit e).regs = d.regs := rfl
@[simp] theorem Dev.emit_draws (d : Dev) (e : Emit) : (d.emit e).draws = d.draws := rfl
@[simp] theorem Dev.emit_xb (d : Dev) (e : Emit) : (d.emit e).xb = d.xb := rfl
@[simp] theorem Dev.emit_ecc (d : Dev) (e : Emit) : (d.emit e).ecc = d.ecc := rfl
@[simp] theorem Dev.emit_struct (d : Dev) (e : Emit) : (d.emit e).struct = d.struct := rfl
@[simp] theorem Dev.emit_seqs (d : Dev) (e : Emit) : (d.emit e).seqs = d.seqs := rfl
@[simp] theorem Dev.emit_chns (d : Dev) (e : Emit) : (d.emit e).chns = d.chns := rfl
@[simp] theorem Dev.emit_health (d : Dev) (e : Emit) : (d.emit e).health = d.health := rfl
@[simp] theorem Dev.emit_healthGen (d : Dev) (e : Emit) : (d.emit e).healthGen = d.healthGen := rfl
@[simp] theorem Dev.emit_host (d : Dev) (e : Emit) : (d.emit e).host = d.host := rfl
@[simp] theorem Dev.emit_chain (d : Dev) (e : Emit) : (d.emit e).chain = d.chain := rfl
@[simp] theorem Dev.emit_cipher (d : Dev) (e : Emit) : (d.emit e).cipher = d.cipher := rfl
@[simp] theorem Dev.emit_comp (d : Dev) (e : Emit) : (d.emit e).comp = d.comp := rfl
@[simp] theorem Dev.emit_servos (d : Dev) (e : Emit) : (d.emit e).servos = d.servos := rfl
@[simp] theorem Dev.emit_spins (d : Dev) (e : Emit) : (d.emit e).spins = d.spins := rfl
@[simp] theorem Dev.emit_power (d : Dev) (e : Emit) : (d.emit e).power = d.power := rfl
@[simp] theorem Dev.emit_therm (d : Dev) (e : Emit) : (d.emit e).therm = d.therm := rfl
@[simp] theorem Dev.emit_reset (d : Dev) (e : Emit) : (d.emit e).reset = d.reset := rfl
@[simp] theorem Dev.emit_card (d : Dev) (e : Emit) : (d.emit e).card = d.card := rfl
@[simp] theorem Dev.emit_sec (d : Dev) (e : Emit) : (d.emit e).sec = d.sec := rfl
@[simp] theorem Dev.emit_fw (d : Dev) (e : Emit) : (d.emit e).fw = d.fw := rfl
@[simp] theorem Dev.emit_map (d : Dev) (e : Emit) : (d.emit e).map = d.map := rfl
@[simp] theorem Dev.emit_rd (d : Dev) (e : Emit) (f' : Fld) (k l : Nat) : (d.emit e).rd f' k l = d.rd f' k l := rfl
@[simp] theorem Dev.emit_seq (d : Dev) (e : Emit) (k : Nat) : (d.emit e).seq k = d.seq k := rfl
@[simp] theorem Dev.emit_chn (d : Dev) (e : Emit) (k : Nat) : (d.emit e).chn k = d.chn k := rfl
@[simp] theorem Dev.emit_headHealth (d : Dev) (e : Emit) (k : Nat) : (d.emit e).headHealth k = d.headHealth k := rfl
@[simp] theorem Dev.emit_servo (d : Dev) (e : Emit) (k : Nat) : (d.emit e).servo k = d.servo k := rfl
@[simp] theorem Dev.emit_spin (d : Dev) (e : Emit) (k : Nat) : (d.emit e).spin k = d.spin k := rfl
@[simp] theorem Dev.emit_section (d : Dev) (e : Emit) (k l : Nat) : (d.emit e).section k l = d.section k l := rfl
@[simp] theorem Dev.emit_secField (d : Dev) (e : Emit) (k l x y : Nat) : (d.emit e).secField k l x y = d.secField k l x y := rfl
@[simp] theorem Dev.emit_hdaPresent (d : Dev) (e : Emit) (k : Nat) : (d.emit e).hdaPresent k = d.hdaPresent k := rfl
@[simp] theorem Dev.emit_actPresent (d : Dev) (e : Emit) (k : Nat) : (d.emit e).actPresent k = d.actPresent k := rfl
@[simp] theorem Dev.emit_lport (d : Dev) (e : Emit) (k : Nat) : (d.emit e).lport k = d.lport k := rfl
@[simp] theorem Dev.emit_port (d : Dev) (e : Emit) (k : Nat) : (d.emit e).port k = d.port k := rfl

/-! ### drawn -/
@[simp] theorem Dev.drawn_regs (d : Dev) : (d.draw.2).regs = d.regs := rfl
@[simp] theorem Dev.drawn_out (d : Dev) : (d.draw.2).out = d.out := rfl
@[simp] theorem Dev.drawn_xb (d : Dev) : (d.draw.2).xb = d.xb := rfl
@[simp] theorem Dev.drawn_ecc (d : Dev) : (d.draw.2).ecc = d.ecc := rfl
@[simp] theorem Dev.drawn_struct (d : Dev) : (d.draw.2).struct = d.struct := rfl
@[simp] theorem Dev.drawn_seqs (d : Dev) : (d.draw.2).seqs = d.seqs := rfl
@[simp] theorem Dev.drawn_chns (d : Dev) : (d.draw.2).chns = d.chns := rfl
@[simp] theorem Dev.drawn_health (d : Dev) : (d.draw.2).health = d.health := rfl
@[simp] theorem Dev.drawn_healthGen (d : Dev) : (d.draw.2).healthGen = d.healthGen := rfl
@[simp] theorem Dev.drawn_host (d : Dev) : (d.draw.2).host = d.host := rfl
@[simp] theorem Dev.drawn_chain (d : Dev) : (d.draw.2).chain = d.chain := rfl
@[simp] theorem Dev.drawn_cipher (d : Dev) : (d.draw.2).cipher = d.cipher := rfl
@[simp] theorem Dev.drawn_comp (d : Dev) : (d.draw.2).comp = d.comp := rfl
@[simp] theorem Dev.drawn_servos (d : Dev) : (d.draw.2).servos = d.servos := rfl
@[simp] theorem Dev.drawn_spins (d : Dev) : (d.draw.2).spins = d.spins := rfl
@[simp] theorem Dev.drawn_power (d : Dev) : (d.draw.2).power = d.power := rfl
@[simp] theorem Dev.drawn_therm (d : Dev) : (d.draw.2).therm = d.therm := rfl
@[simp] theorem Dev.drawn_reset (d : Dev) : (d.draw.2).reset = d.reset := rfl
@[simp] theorem Dev.drawn_card (d : Dev) : (d.draw.2).card = d.card := rfl
@[simp] theorem Dev.drawn_sec (d : Dev) : (d.draw.2).sec = d.sec := rfl
@[simp] theorem Dev.drawn_fw (d : Dev) : (d.draw.2).fw = d.fw := rfl
@[simp] theorem Dev.drawn_map (d : Dev) : (d.draw.2).map = d.map := rfl
@[simp] theorem Dev.drawn_rd (d : Dev) (f' : Fld) (k l : Nat) : (d.draw.2).rd f' k l = d.rd f' k l := rfl
@[simp] theorem Dev.drawn_seq (d : Dev) (k : Nat) : (d.draw.2).seq k = d.seq k := rfl
@[simp] theorem Dev.drawn_chn (d : Dev) (k : Nat) : (d.draw.2).chn k = d.chn k := rfl
@[simp] theorem Dev.drawn_headHealth (d : Dev) (k : Nat) : (d.draw.2).headHealth k = d.headHealth k := rfl
@[simp] theorem Dev.drawn_servo (d : Dev) (k : Nat) : (d.draw.2).servo k = d.servo k := rfl
@[simp] theorem Dev.drawn_spin (d : Dev) (k : Nat) : (d.draw.2).spin k = d.spin k := rfl
@[simp] theorem Dev.drawn_section (d : Dev) (k l : Nat) : (d.draw.2).section k l = d.section k l := rfl
@[simp] theorem Dev.drawn_secField (d : Dev) (k l x y : Nat) : (d.draw.2).secField k l x y = d.secField k l x y := rfl
@[simp] theorem Dev.drawn_hdaPresent (d : Dev) (k : Nat) : (d.draw.2).hdaPresent k = d.hdaPresent k := rfl
@[simp] theorem Dev.drawn_actPresent (d : Dev) (k : Nat) : (d.draw.2).actPresent k = d.actPresent k := rfl
@[simp] theorem Dev.drawn_lport (d : Dev) (k : Nat) : (d.draw.2).lport k = d.lport k := rfl
@[simp] theorem Dev.drawn_port (d : Dev) (k : Nat) : (d.draw.2).port k = d.port k := rfl

/-! ### updSeq -/
@[simp] theorem Dev.updSeq_regs (d : Dev) (a : Nat) (g : Seq → Seq) : (d.updSeq a g).regs = d.regs := rfl
@[simp] theorem Dev.updSeq_out (d : Dev) (a : Nat) (g : Seq → Seq) : (d.updSeq a g).out = d.out := rfl
@[simp] theorem Dev.updSeq_draws (d : Dev) (a : Nat) (g : Seq → Seq) : (d.updSeq a g).draws = d.draws := rfl
@[simp] theorem Dev.updSeq_xb (d : Dev) (a : Nat) (g : Seq → Seq) : (d.updSeq a g).xb = d.xb := rfl
@[simp] theorem Dev.updSeq_ecc (d : Dev) (a : Nat) (g : Seq → Seq) : (d.updSeq a g).ecc = d.ecc := rfl
@[simp] theorem Dev.updSeq_struct (d : Dev) (a : Nat) (g : Seq → Seq) : (d.updSeq a g).struct = d.struct := rfl
@[simp] theorem Dev.updSeq_chns (d : Dev) (a : Nat) (g : Seq → Seq) : (d.updSeq a g).chns = d.chns := rfl
@[simp] theorem Dev.updSeq_health (d : Dev) (a : Nat) (g : Seq → Seq) : (d.updSeq a g).health = d.health := rfl
@[simp] theorem Dev.updSeq_healthGen (d : Dev) (a : Nat) (g : Seq → Seq) : (d.updSeq a g).healthGen = d.healthGen := rfl
@[simp] theorem Dev.updSeq_host (d : Dev) (a : Nat) (g : Seq → Seq) : (d.updSeq a g).host = d.host := rfl
@[simp] theorem Dev.updSeq_chain (d : Dev) (a : Nat) (g : Seq → Seq) : (d.updSeq a g).chain = d.chain := rfl
@[simp] theorem Dev.updSeq_cipher (d : Dev) (a : Nat) (g : Seq → Seq) : (d.updSeq a g).cipher = d.cipher := rfl
@[simp] theorem Dev.updSeq_comp (d : Dev) (a : Nat) (g : Seq → Seq) : (d.updSeq a g).comp = d.comp := rfl
@[simp] theorem Dev.updSeq_servos (d : Dev) (a : Nat) (g : Seq → Seq) : (d.updSeq a g).servos = d.servos := rfl
@[simp] theorem Dev.updSeq_spins (d : Dev) (a : Nat) (g : Seq → Seq) : (d.updSeq a g).spins = d.spins := rfl
@[simp] theorem Dev.updSeq_power (d : Dev) (a : Nat) (g : Seq → Seq) : (d.updSeq a g).power = d.power := rfl
@[simp] theorem Dev.updSeq_therm (d : Dev) (a : Nat) (g : Seq → Seq) : (d.updSeq a g).therm = d.therm := rfl
@[simp] theorem Dev.updSeq_reset (d : Dev) (a : Nat) (g : Seq → Seq) : (d.updSeq a g).reset = d.reset := rfl
@[simp] theorem Dev.updSeq_card (d : Dev) (a : Nat) (g : Seq → Seq) : (d.updSeq a g).card = d.card := rfl
@[simp] theorem Dev.updSeq_sec (d : Dev) (a : Nat) (g : Seq → Seq) : (d.updSeq a g).sec = d.sec := rfl
@[simp] theorem Dev.updSeq_fw (d : Dev) (a : Nat) (g : Seq → Seq) : (d.updSeq a g).fw = d.fw := rfl
@[simp] theorem Dev.updSeq_map (d : Dev) (a : Nat) (g : Seq → Seq) : (d.updSeq a g).map = d.map := rfl
@[simp] theorem Dev.updSeq_rd (d : Dev) (a : Nat) (g : Seq → Seq) (f' : Fld) (k l : Nat) : (d.updSeq a g).rd f' k l = d.rd f' k l := rfl
@[simp] theorem Dev.updSeq_seq (d : Dev) (a : Nat) (g : Seq → Seq) (k : Nat) :
    (d.updSeq a g).seq k = if k = a then g (d.seq a) else d.seq k := by
  unfold Dev.updSeq Dev.seq; exact tabGet_tabPut ..
@[simp] theorem Dev.updSeq_chn (d : Dev) (a : Nat) (g : Seq → Seq) (k : Nat) : (d.updSeq a g).chn k = d.chn k := rfl
@[simp] theorem Dev.updSeq_headHealth (d : Dev) (a : Nat) (g : Seq → Seq) (k : Nat) : (d.updSeq a g).headHealth k = d.headHealth k := rfl
@[simp] theorem Dev.updSeq_servo (d : Dev) (a : Nat) (g : Seq → Seq) (k : Nat) : (d.updSeq a g).servo k = d.servo k := rfl
@[simp] theorem Dev.updSeq_spin (d : Dev) (a : Nat) (g : Seq → Seq) (k : Nat) : (d.updSeq a g).spin k = d.spin k := rfl
@[simp] theorem Dev.updSeq_section (d : Dev) (a : Nat) (g : Seq → Seq) (k l : Nat) : (d.updSeq a g).section k l = d.section k l := rfl
@[simp] theorem Dev.updSeq_secField (d : Dev) (a : Nat) (g : Seq → Seq) (k l x y : Nat) : (d.updSeq a g).secField k l x y = d.secField k l x y := rfl
@[simp] theorem Dev.updSeq_hdaPresent (d : Dev) (a : Nat) (g : Seq → Seq) (k : Nat) : (d.updSeq a g).hdaPresent k = d.hdaPresent k := rfl
@[simp] theorem Dev.updSeq_actPresent (d : Dev) (a : Nat) (g : Seq → Seq) (k : Nat) : (d.updSeq a g).actPresent k = d.actPresent k := rfl
@[simp] theorem Dev.updSeq_lport (d : Dev) (a : Nat) (g : Seq → Seq) (k : Nat) : (d.updSeq a g).lport k = d.lport k := rfl
@[simp] theorem Dev.updSeq_port (d : Dev) (a : Nat) (g : Seq → Seq) (k : Nat) : (d.updSeq a g).port k = d.port k := rfl

/-! ### updChn -/
@[simp] theorem Dev.updChn_regs (d : Dev) (c : Nat) (g : Chn → Chn) : (d.updChn c g).regs = d.regs := rfl
@[simp] theorem Dev.updChn_out (d : Dev) (c : Nat) (g : Chn → Chn) : (d.updChn c g).out = d.out := rfl
@[simp] theorem Dev.updChn_draws (d : Dev) (c : Nat) (g : Chn → Chn) : (d.updChn c g).draws = d.draws := rfl
@[simp] theorem Dev.updChn_xb (d : Dev) (c : Nat) (g : Chn → Chn) : (d.updChn c g).xb = d.xb := rfl
@[simp] theorem Dev.updChn_ecc (d : Dev) (c : Nat) (g : Chn → Chn) : (d.updChn c g).ecc = d.ecc := rfl
@[simp] theorem Dev.updChn_struct (d : Dev) (c : Nat) (g : Chn → Chn) : (d.updChn c g).struct = d.struct := rfl
@[simp] theorem Dev.updChn_seqs (d : Dev) (c : Nat) (g : Chn → Chn) : (d.updChn c g).seqs = d.seqs := rfl
@[simp] theorem Dev.updChn_health (d : Dev) (c : Nat) (g : Chn → Chn) : (d.updChn c g).health = d.health := rfl
@[simp] theorem Dev.updChn_healthGen (d : Dev) (c : Nat) (g : Chn → Chn) : (d.updChn c g).healthGen = d.healthGen := rfl
@[simp] theorem Dev.updChn_host (d : Dev) (c : Nat) (g : Chn → Chn) : (d.updChn c g).host = d.host := rfl
@[simp] theorem Dev.updChn_chain (d : Dev) (c : Nat) (g : Chn → Chn) : (d.updChn c g).chain = d.chain := rfl
@[simp] theorem Dev.updChn_cipher (d : Dev) (c : Nat) (g : Chn → Chn) : (d.updChn c g).cipher = d.cipher := rfl
@[simp] theorem Dev.updChn_comp (d : Dev) (c : Nat) (g : Chn → Chn) : (d.updChn c g).comp = d.comp := rfl
@[simp] theorem Dev.updChn_servos (d : Dev) (c : Nat) (g : Chn → Chn) : (d.updChn c g).servos = d.servos := rfl
@[simp] theorem Dev.updChn_spins (d : Dev) (c : Nat) (g : Chn → Chn) : (d.updChn c g).spins = d.spins := rfl
@[simp] theorem Dev.updChn_power (d : Dev) (c : Nat) (g : Chn → Chn) : (d.updChn c g).power = d.power := rfl
@[simp] theorem Dev.updChn_therm (d : Dev) (c : Nat) (g : Chn → Chn) : (d.updChn c g).therm = d.therm := rfl
@[simp] theorem Dev.updChn_reset (d : Dev) (c : Nat) (g : Chn → Chn) : (d.updChn c g).reset = d.reset := rfl
@[simp] theorem Dev.updChn_card (d : Dev) (c : Nat) (g : Chn → Chn) : (d.updChn c g).card = d.card := rfl
@[simp] theorem Dev.updChn_sec (d : Dev) (c : Nat) (g : Chn → Chn) : (d.updChn c g).sec = d.sec := rfl
@[simp] theorem Dev.updChn_fw (d : Dev) (c : Nat) (g : Chn → Chn) : (d.updChn c g).fw = d.fw := rfl
@[simp] theorem Dev.updChn_map (d : Dev) (c : Nat) (g : Chn → Chn) : (d.updChn c g).map = d.map := rfl
@[simp] theorem Dev.updChn_rd (d : Dev) (c : Nat) (g : Chn → Chn) (f' : Fld) (k l : Nat) : (d.updChn c g).rd f' k l = d.rd f' k l := rfl
@[simp] theorem Dev.updChn_seq (d : Dev) (c : Nat) (g : Chn → Chn) (k : Nat) : (d.updChn c g).seq k = d.seq k := rfl
@[simp] theorem Dev.updChn_chn (d : Dev) (c : Nat) (g : Chn → Chn) (k : Nat) :
    (d.updChn c g).chn k = if k = c then g (d.chn c) else d.chn k := by
  unfold Dev.updChn Dev.chn; exact tabGet_tabPut ..
@[simp] theorem Dev.updChn_headHealth (d : Dev) (c : Nat) (g : Chn → Chn) (k : Nat) : (d.updChn c g).headHealth k = d.headHealth k := rfl
@[simp] theorem Dev.updChn_servo (d : Dev) (c : Nat) (g : Chn → Chn) (k : Nat) : (d.updChn c g).servo k = d.servo k := rfl
@[simp] theorem Dev.updChn_spin (d : Dev) (c : Nat) (g : Chn → Chn) (k : Nat) : (d.updChn c g).spin k = d.spin k := rfl
@[simp] theorem Dev.updChn_section (d : Dev) (c : Nat) (g : Chn → Chn) (k l : Nat) : (d.updChn c g).section k l = d.section k l := rfl
@[simp] theorem Dev.updChn_secField (d : Dev) (c : Nat) (g : Chn → Chn) (k l x y : Nat) : (d.updChn c g).secField k l x y = d.secField k l x y := rfl
@[simp] theorem Dev.updChn_hdaPresent (d : Dev) (c : Nat) (g : Chn → Chn) (k : Nat) : (d.updChn c g).hdaPresent k = d.hdaPresent k := rfl
@[simp] theorem Dev.updChn_actPresent (d : Dev) (c : Nat) (g : Chn → Chn) (k : Nat) : (d.updChn c g).actPresent k = d.actPresent k := rfl
@[simp] theorem Dev.updChn_lport (d : Dev) (c : Nat) (g : Chn → Chn) (k : Nat) : (d.updChn c g).lport k = d.lport k := rfl
@[simp] theorem Dev.updChn_port (d : Dev) (c : Nat) (g : Chn → Chn) (k : Nat) : (d.updChn c g).port k = d.port k := rfl

/-! ### updHealth -/
@[simp] theorem Dev.updHealth_regs (d : Dev) (e : Nat) (g : Health → Health) : (d.updHealth e g).regs = d.regs := rfl
@[simp] theorem Dev.updHealth_out (d : Dev) (e : Nat) (g : Health → Health) : (d.updHealth e g).out = d.out := rfl
@[simp] theorem Dev.updHealth_draws (d : Dev) (e : Nat) (g : Health → Health) : (d.updHealth e g).draws = d.draws := rfl
@[simp] theorem Dev.updHealth_xb (d : Dev) (e : Nat) (g : Health → Health) : (d.updHealth e g).xb = d.xb := rfl
@[simp] theorem Dev.updHealth_ecc (d : Dev) (e : Nat) (g : Health → Health) : (d.updHealth e g).ecc = d.ecc := rfl
@[simp] theorem Dev.updHealth_struct (d : Dev) (e : Nat) (g : Health → Health) : (d.updHealth e g).struct = d.struct := rfl
@[simp] theorem Dev.updHealth_seqs (d : Dev) (e : Nat) (g : Health → Health) : (d.updHealth e g).seqs = d.seqs := rfl
@[simp] theorem Dev.updHealth_chns (d : Dev) (e : Nat) (g : Health → Health) : (d.updHealth e g).chns = d.chns := rfl
@[simp] theorem Dev.updHealth_host (d : Dev) (e : Nat) (g : Health → Health) : (d.updHealth e g).host = d.host := rfl
@[simp] theorem Dev.updHealth_chain (d : Dev) (e : Nat) (g : Health → Health) : (d.updHealth e g).chain = d.chain := rfl
@[simp] theorem Dev.updHealth_cipher (d : Dev) (e : Nat) (g : Health → Health) : (d.updHealth e g).cipher = d.cipher := rfl
@[simp] theorem Dev.updHealth_comp (d : Dev) (e : Nat) (g : Health → Health) : (d.updHealth e g).comp = d.comp := rfl
@[simp] theorem Dev.updHealth_servos (d : Dev) (e : Nat) (g : Health → Health) : (d.updHealth e g).servos = d.servos := rfl
@[simp] theorem Dev.updHealth_spins (d : Dev) (e : Nat) (g : Health → Health) : (d.updHealth e g).spins = d.spins := rfl
@[simp] theorem Dev.updHealth_power (d : Dev) (e : Nat) (g : Health → Health) : (d.updHealth e g).power = d.power := rfl
@[simp] theorem Dev.updHealth_therm (d : Dev) (e : Nat) (g : Health → Health) : (d.updHealth e g).therm = d.therm := rfl
@[simp] theorem Dev.updHealth_reset (d : Dev) (e : Nat) (g : Health → Health) : (d.updHealth e g).reset = d.reset := rfl
@[simp] theorem Dev.updHealth_card (d : Dev) (e : Nat) (g : Health → Health) : (d.updHealth e g).card = d.card := rfl
@[simp] theorem Dev.updHealth_sec (d : Dev) (e : Nat) (g : Health → Health) : (d.updHealth e g).sec = d.sec := rfl
@[simp] theorem Dev.updHealth_fw (d : Dev) (e : Nat) (g : Health → Health) : (d.updHealth e g).fw = d.fw := rfl
@[simp] theorem Dev.updHealth_map (d : Dev) (e : Nat) (g : Health → Health) : (d.updHealth e g).map = d.map := rfl
@[simp] theorem Dev.updHealth_rd (d : Dev) (e : Nat) (g : Health → Health) (f' : Fld) (k l : Nat) : (d.updHealth e g).rd f' k l = d.rd f' k l := rfl
@[simp] theorem Dev.updHealth_seq (d : Dev) (e : Nat) (g : Health → Health) (k : Nat) : (d.updHealth e g).seq k = d.seq k := rfl
@[simp] theorem Dev.updHealth_chn (d : Dev) (e : Nat) (g : Health → Health) (k : Nat) : (d.updHealth e g).chn k = d.chn k := rfl
@[simp] theorem Dev.updHealth_headHealth (d : Dev) (e : Nat) (g : Health → Health) (k : Nat) :
    (d.updHealth e g).headHealth k = if k = e then g (d.headHealth e) else d.headHealth k := by
  unfold Dev.updHealth Dev.headHealth; exact tabGet_tabPut ..
@[simp] theorem Dev.updHealth_servo (d : Dev) (e : Nat) (g : Health → Health) (k : Nat) : (d.updHealth e g).servo k = d.servo k := rfl
@[simp] theorem Dev.updHealth_spin (d : Dev) (e : Nat) (g : Health → Health) (k : Nat) : (d.updHealth e g).spin k = d.spin k := rfl
@[simp] theorem Dev.updHealth_section (d : Dev) (e : Nat) (g : Health → Health) (k l : Nat) : (d.updHealth e g).section k l = d.section k l := rfl
@[simp] theorem Dev.updHealth_secField (d : Dev) (e : Nat) (g : Health → Health) (k l x y : Nat) : (d.updHealth e g).secField k l x y = d.secField k l x y := rfl
@[simp] theorem Dev.updHealth_hdaPresent (d : Dev) (e : Nat) (g : Health → Health) (k : Nat) : (d.updHealth e g).hdaPresent k = d.hdaPresent k := rfl
@[simp] theorem Dev.updHealth_actPresent (d : Dev) (e : Nat) (g : Health → Health) (k : Nat) : (d.updHealth e g).actPresent k = d.actPresent k := rfl
@[simp] theorem Dev.updHealth_lport (d : Dev) (e : Nat) (g : Health → Health) (k : Nat) : (d.updHealth e g).lport k = d.lport k := rfl
@[simp] theorem Dev.updHealth_port (d : Dev) (e : Nat) (g : Health → Health) (k : Nat) : (d.updHealth e g).port k = d.port k := rfl

/-! ### updHost -/
@[simp] theorem Dev.updHost_regs (d : Dev) (g : HostState → HostState) : (d.updHost g).regs = d.regs := rfl
@[simp] theorem Dev.updHost_out (d : Dev) (g : HostState → HostState) : (d.updHost g).out = d.out := rfl
@[simp] theorem Dev.updHost_draws (d : Dev) (g : HostState → HostState) : (d.updHost g).draws = d.draws := rfl
@[simp] theorem Dev.updHost_xb (d : Dev) (g : HostState → HostState) : (d.updHost g).xb = d.xb := rfl
@[simp] theorem Dev.updHost_ecc (d : Dev) (g : HostState → HostState) : (d.updHost g).ecc = d.ecc := rfl
@[simp] theorem Dev.updHost_struct (d : Dev) (g : HostState → HostState) : (d.updHost g).struct = d.struct := rfl
@[simp] theorem Dev.updHost_seqs (d : Dev) (g : HostState → HostState) : (d.updHost g).seqs = d.seqs := rfl
@[simp] theorem Dev.updHost_chns (d : Dev) (g : HostState → HostState) : (d.updHost g).chns = d.chns := rfl
@[simp] theorem Dev.updHost_health (d : Dev) (g : HostState → HostState) : (d.updHost g).health = d.health := rfl
@[simp] theorem Dev.updHost_healthGen (d : Dev) (g : HostState → HostState) : (d.updHost g).healthGen = d.healthGen := rfl
@[simp] theorem Dev.updHost_chain (d : Dev) (g : HostState → HostState) : (d.updHost g).chain = d.chain := rfl
@[simp] theorem Dev.updHost_cipher (d : Dev) (g : HostState → HostState) : (d.updHost g).cipher = d.cipher := rfl
@[simp] theorem Dev.updHost_comp (d : Dev) (g : HostState → HostState) : (d.updHost g).comp = d.comp := rfl
@[simp] theorem Dev.updHost_servos (d : Dev) (g : HostState → HostState) : (d.updHost g).servos = d.servos := rfl
@[simp] theorem Dev.updHost_spins (d : Dev) (g : HostState → HostState) : (d.updHost g).spins = d.spins := rfl
@[simp] theorem Dev.updHost_power (d : Dev) (g : HostState → HostState) : (d.updHost g).power = d.power := rfl
@[simp] theorem Dev.updHost_therm (d : Dev) (g : HostState → HostState) : (d.updHost g).therm = d.therm := rfl
@[simp] theorem Dev.updHost_reset (d : Dev) (g : HostState → HostState) : (d.updHost g).reset = d.reset := rfl
@[simp] theorem Dev.updHost_card (d : Dev) (g : HostState → HostState) : (d.updHost g).card = d.card := rfl
@[simp] theorem Dev.updHost_sec (d : Dev) (g : HostState → HostState) : (d.updHost g).sec = d.sec := rfl
@[simp] theorem Dev.updHost_fw (d : Dev) (g : HostState → HostState) : (d.updHost g).fw = d.fw := rfl
@[simp] theorem Dev.updHost_map (d : Dev) (g : HostState → HostState) : (d.updHost g).map = d.map := rfl
@[simp] theorem Dev.updHost_host (d : Dev) (g : HostState → HostState) : (d.updHost g).host = g d.host := rfl
@[simp] theorem Dev.updHost_rd (d : Dev) (g : HostState → HostState) (f' : Fld) (k l : Nat) : (d.updHost g).rd f' k l = d.rd f' k l := rfl
@[simp] theorem Dev.updHost_seq (d : Dev) (g : HostState → HostState) (k : Nat) : (d.updHost g).seq k = d.seq k := rfl
@[simp] theorem Dev.updHost_chn (d : Dev) (g : HostState → HostState) (k : Nat) : (d.updHost g).chn k = d.chn k := rfl
@[simp] theorem Dev.updHost_headHealth (d : Dev) (g : HostState → HostState) (k : Nat) : (d.updHost g).headHealth k = d.headHealth k := rfl
@[simp] theorem Dev.updHost_servo (d : Dev) (g : HostState → HostState) (k : Nat) : (d.updHost g).servo k = d.servo k := rfl
@[simp] theorem Dev.updHost_spin (d : Dev) (g : HostState → HostState) (k : Nat) : (d.updHost g).spin k = d.spin k := rfl
@[simp] theorem Dev.updHost_section (d : Dev) (g : HostState → HostState) (k l : Nat) : (d.updHost g).section k l = d.section k l := rfl
@[simp] theorem Dev.updHost_secField (d : Dev) (g : HostState → HostState) (k l x y : Nat) : (d.updHost g).secField k l x y = d.secField k l x y := rfl
@[simp] theorem Dev.updHost_hdaPresent (d : Dev) (g : HostState → HostState) (k : Nat) : (d.updHost g).hdaPresent k = d.hdaPresent k := rfl
@[simp] theorem Dev.updHost_actPresent (d : Dev) (g : HostState → HostState) (k : Nat) : (d.updHost g).actPresent k = d.actPresent k := rfl
@[simp] theorem Dev.updHost_lport (d : Dev) (g : HostState → HostState) (k : Nat) : (d.updHost g).lport k = d.lport k := rfl

/-! ### updServo -/
@[simp] theorem Dev.updServo_regs (d : Dev) (n : Nat) (g : Servo → Servo) : (d.updServo n g).regs = d.regs := rfl
@[simp] theorem Dev.updServo_out (d : Dev) (n : Nat) (g : Servo → Servo) : (d.updServo n g).out = d.out := rfl
@[simp] theorem Dev.updServo_draws (d : Dev) (n : Nat) (g : Servo → Servo) : (d.updServo n g).draws = d.draws := rfl
@[simp] theorem Dev.updServo_xb (d : Dev) (n : Nat) (g : Servo → Servo) : (d.updServo n g).xb = d.xb := rfl
@[simp] theorem Dev.updServo_ecc (d : Dev) (n : Nat) (g : Servo → Servo) : (d.updServo n g).ecc = d.ecc := rfl
@[simp] theorem Dev.updServo_struct (d : Dev) (n : Nat) (g : Servo → Servo) : (d.updServo n g).struct = d.struct := rfl
@[simp] theorem Dev.updServo_seqs (d : Dev) (n : Nat) (g : Servo → Servo) : (d.updServo n g).seqs = d.seqs := rfl
@[simp] theorem Dev.updServo_chns (d : Dev) (n : Nat) (g : Servo → Servo) : (d.updServo n g).chns = d.chns := rfl
@[simp] theorem Dev.updServo_health (d : Dev) (n : Nat) (g : Servo → Servo) : (d.updServo n g).health = d.health := rfl
@[simp] theorem Dev.updServo_healthGen (d : Dev) (n : Nat) (g : Servo → Servo) : (d.updServo n g).healthGen = d.healthGen := rfl
@[simp] theorem Dev.updServo_host (d : Dev) (n : Nat) (g : Servo → Servo) : (d.updServo n g).host = d.host := rfl
@[simp] theorem Dev.updServo_chain (d : Dev) (n : Nat) (g : Servo → Servo) : (d.updServo n g).chain = d.chain := rfl
@[simp] theorem Dev.updServo_cipher (d : Dev) (n : Nat) (g : Servo → Servo) : (d.updServo n g).cipher = d.cipher := rfl
@[simp] theorem Dev.updServo_comp (d : Dev) (n : Nat) (g : Servo → Servo) : (d.updServo n g).comp = d.comp := rfl
@[simp] theorem Dev.updServo_spins (d : Dev) (n : Nat) (g : Servo → Servo) : (d.updServo n g).spins = d.spins := rfl
@[simp] theorem Dev.updServo_power (d : Dev) (n : Nat) (g : Servo → Servo) : (d.updServo n g).power = d.power := rfl
@[simp] theorem Dev.updServo_therm (d : Dev) (n : Nat) (g : Servo → Servo) : (d.updServo n g).therm = d.therm := rfl
@[simp] theorem Dev.updServo_reset (d : Dev) (n : Nat) (g : Servo → Servo) : (d.updServo n g).reset = d.reset := rfl
@[simp] theorem Dev.updServo_card (d : Dev) (n : Nat) (g : Servo → Servo) : (d.updServo n g).card = d.card := rfl
@[simp] theorem Dev.updServo_sec (d : Dev) (n : Nat) (g : Servo → Servo) : (d.updServo n g).sec = d.sec := rfl
@[simp] theorem Dev.updServo_fw (d : Dev) (n : Nat) (g : Servo → Servo) : (d.updServo n g).fw = d.fw := rfl
@[simp] theorem Dev.updServo_map (d : Dev) (n : Nat) (g : Servo → Servo) : (d.updServo n g).map = d.map := rfl
@[simp] theorem Dev.updServo_rd (d : Dev) (n : Nat) (g : Servo → Servo) (f' : Fld) (k l : Nat) : (d.updServo n g).rd f' k l = d.rd f' k l := rfl
@[simp] theorem Dev.updServo_seq (d : Dev) (n : Nat) (g : Servo → Servo) (k : Nat) : (d.updServo n g).seq k = d.seq k := rfl
@[simp] theorem Dev.updServo_chn (d : Dev) (n : Nat) (g : Servo → Servo) (k : Nat) : (d.updServo n g).chn k = d.chn k := rfl
@[simp] theorem Dev.updServo_headHealth (d : Dev) (n : Nat) (g : Servo → Servo) (k : Nat) : (d.updServo n g).headHealth k = d.headHealth k := rfl
@[simp] theorem Dev.updServo_servo (d : Dev) (n : Nat) (g : Servo → Servo) (k : Nat) :
    (d.updServo n g).servo k = if k = n then g (d.servo n) else d.servo k := by
  unfold Dev.updServo Dev.servo; exact tabGet_tabPut ..
@[simp] theorem Dev.updServo_spin (d : Dev) (n : Nat) (g : Servo → Servo) (k : Nat) : (d.updServo n g).spin k = d.spin k := rfl
@[simp] theorem Dev.updServo_section (d : Dev) (n : Nat) (g : Servo → Servo) (k l : Nat) : (d.updServo n g).section k l = d.section k l := rfl
@[simp] theorem Dev.updServo_secField (d : Dev) (n : Nat) (g : Servo → Servo) (k l x y : Nat) : (d.updServo n g).secField k l x y = d.secField k l x y := rfl
@[simp] theorem Dev.updServo_hdaPresent (d : Dev) (n : Nat) (g : Servo → Servo) (k : Nat) : (d.updServo n g).hdaPresent k = d.hdaPresent k := rfl
@[simp] theorem Dev.updServo_actPresent (d : Dev) (n : Nat) (g : Servo → Servo) (k : Nat) : (d.updServo n g).actPresent k = d.actPresent k := rfl
@[simp] theorem Dev.updServo_lport (d : Dev) (n : Nat) (g : Servo → Servo) (k : Nat) : (d.updServo n g).lport k = d.lport k := rfl
@[simp] theorem Dev.updServo_port (d : Dev) (n : Nat) (g : Servo → Servo) (k : Nat) : (d.updServo n g).port k = d.port k := rfl

/-! ### updSpin -/
@[simp] theorem Dev.updSpin_regs (d : Dev) (n : Nat) (g : Spin → Spin) : (d.updSpin n g).regs = d.regs := rfl
@[simp] theorem Dev.updSpin_out (d : Dev) (n : Nat) (g : Spin → Spin) : (d.updSpin n g).out = d.out := rfl
@[simp] theorem Dev.updSpin_draws (d : Dev) (n : Nat) (g : Spin → Spin) : (d.updSpin n g).draws = d.draws := rfl
@[simp] theorem Dev.updSpin_xb (d : Dev) (n : Nat) (g : Spin → Spin) : (d.updSpin n g).xb = d.xb := rfl
@[simp] theorem Dev.updSpin_ecc (d : Dev) (n : Nat) (g : Spin → Spin) : (d.updSpin n g).ecc = d.ecc := rfl
@[simp] theorem Dev.updSpin_struct (d : Dev) (n : Nat) (g : Spin → Spin) : (d.updSpin n g).struct = d.struct := rfl
@[simp] theorem Dev.updSpin_seqs (d : Dev) (n : Nat) (g : Spin → Spin) : (d.updSpin n g).seqs = d.seqs := rfl
@[simp] theorem Dev.updSpin_chns (d : Dev) (n : Nat) (g : Spin → Spin) : (d.updSpin n g).chns = d.chns := rfl
@[simp] theorem Dev.updSpin_health (d : Dev) (n : Nat) (g : Spin → Spin) : (d.updSpin n g).health = d.health := rfl
@[simp] theorem Dev.updSpin_healthGen (d : Dev) (n : Nat) (g : Spin → Spin) : (d.updSpin n g).healthGen = d.healthGen := rfl
@[simp] theorem Dev.updSpin_host (d : Dev) (n : Nat) (g : Spin → Spin) : (d.updSpin n g).host = d.host := rfl
@[simp] theorem Dev.updSpin_chain (d : Dev) (n : Nat) (g : Spin → Spin) : (d.updSpin n g).chain = d.chain := rfl
@[simp] theorem Dev.updSpin_cipher (d : Dev) (n : Nat) (g : Spin → Spin) : (d.updSpin n g).cipher = d.cipher := rfl
@[simp] theorem Dev.updSpin_comp (d : Dev) (n : Nat) (g : Spin → Spin) : (d.updSpin n g).comp = d.comp := rfl
@[simp] theorem Dev.updSpin_servos (d : Dev) (n : Nat) (g : Spin → Spin) : (d.updSpin n g).servos = d.servos := rfl
@[simp] theorem Dev.updSpin_power (d : Dev) (n : Nat) (g : Spin → Spin) : (d.updSpin n g).power = d.power := rfl
@[simp] theorem Dev.updSpin_therm (d : Dev) (n : Nat) (g : Spin → Spin) : (d.updSpin n g).therm = d.therm := rfl
@[simp] theorem Dev.updSpin_reset (d : Dev) (n : Nat) (g : Spin → Spin) : (d.updSpin n g).reset = d.reset := rfl
@[simp] theorem Dev.updSpin_card (d : Dev) (n : Nat) (g : Spin → Spin) : (d.updSpin n g).card = d.card := rfl
@[simp] theorem Dev.updSpin_sec (d : Dev) (n : Nat) (g : Spin → Spin) : (d.updSpin n g).sec = d.sec := rfl
@[simp] theorem Dev.updSpin_fw (d : Dev) (n : Nat) (g : Spin → Spin) : (d.updSpin n g).fw = d.fw := rfl
@[simp] theorem Dev.updSpin_map (d : Dev) (n : Nat) (g : Spin → Spin) : (d.updSpin n g).map = d.map := rfl
@[simp] theorem Dev.updSpin_rd (d : Dev) (n : Nat) (g : Spin → Spin) (f' : Fld) (k l : Nat) : (d.updSpin n g).rd f' k l = d.rd f' k l := rfl
@[simp] theorem Dev.updSpin_seq (d : Dev) (n : Nat) (g : Spin → Spin) (k : Nat) : (d.updSpin n g).seq k = d.seq k := rfl
@[simp] theorem Dev.updSpin_chn (d : Dev) (n : Nat) (g : Spin → Spin) (k : Nat) : (d.updSpin n g).chn k = d.chn k := rfl
@[simp] theorem Dev.updSpin_headHealth (d : Dev) (n : Nat) (g : Spin → Spin) (k : Nat) : (d.updSpin n g).headHealth k = d.headHealth k := rfl
@[simp] theorem Dev.updSpin_servo (d : Dev) (n : Nat) (g : Spin → Spin) (k : Nat) : (d.updSpin n g).servo k = d.servo k := rfl
@[simp] theorem Dev.updSpin_spin (d : Dev) (n : Nat) (g : Spin → Spin) (k : Nat) :
    (d.updSpin n g).spin k = if k = n then g (d.spin n) else d.spin k := by
  unfold Dev.updSpin Dev.spin; exact tabGet_tabPut ..
@[simp] theorem Dev.updSpin_section (d : Dev) (n : Nat) (g : Spin → Spin) (k l : Nat) : (d.updSpin n g).section k l = d.section k l := rfl
@[simp] theorem Dev.updSpin_secField (d : Dev) (n : Nat) (g : Spin → Spin) (k l x y : Nat) : (d.updSpin n g).secField k l x y = d.secField k l x y := rfl
@[simp] theorem Dev.updSpin_hdaPresent (d : Dev) (n : Nat) (g : Spin → Spin) (k : Nat) : (d.updSpin n g).hdaPresent k = d.hdaPresent k := rfl
@[simp] theorem Dev.updSpin_actPresent (d : Dev) (n : Nat) (g : Spin → Spin) (k : Nat) : (d.updSpin n g).actPresent k = d.actPresent k := rfl
@[simp] theorem Dev.updSpin_lport (d : Dev) (n : Nat) (g : Spin → Spin) (k : Nat) : (d.updSpin n g).lport k = d.lport k := rfl
@[simp] theorem Dev.updSpin_port (d : Dev) (n : Nat) (g : Spin → Spin) (k : Nat) : (d.updSpin n g).port k = d.port k := rfl

/-! ### updPower -/
@[simp] theorem Dev.updPower_regs (d : Dev) (g : PowerState → PowerState) : (d.updPower g).regs = d.regs := rfl
@[simp] theorem Dev.updPower_out (d : Dev) (g : PowerState → PowerState) : (d.updPower g).out = d.out := rfl
@[simp] theorem Dev.updPower_draws (d : Dev) (g : PowerState → PowerState) : (d.updPower g).draws = d.draws := rfl
@[simp] theorem Dev.updPower_xb (d : Dev) (g : PowerState → PowerState) : (d.updPower g).xb = d.xb := rfl
@[simp] theorem Dev.updPower_ecc (d : Dev) (g : PowerState → PowerState) : (d.updPower g).ecc = d.ecc := rfl
@[simp] theorem Dev.updPower_struct (d : Dev) (g : PowerState → PowerState) : (d.updPower g).struct = d.struct := rfl
@[simp] theorem Dev.updPower_seqs (d : Dev) (g : PowerState → PowerState) : (d.updPower g).seqs = d.seqs := rfl
@[simp] theorem Dev.updPower_chns (d : Dev) (g : PowerState → PowerState) : (d.updPower g).chns = d.chns := rfl
@[simp] theorem Dev.updPower_health (d : Dev) (g : PowerState → PowerState) : (d.updPower g).health = d.health := rfl
@[simp] theorem Dev.updPower_healthGen (d : Dev) (g : PowerState → PowerState) : (d.updPower g).healthGen = d.healthGen := rfl
@[simp] theorem Dev.updPower_host (d : Dev) (g : PowerState → PowerState) : (d.updPower g).host = d.host := rfl
@[simp] theorem Dev.updPower_chain (d : Dev) (g : PowerState → PowerState) : (d.updPower g).chain = d.chain := rfl
@[simp] theorem Dev.updPower_cipher (d : Dev) (g : PowerState → PowerState) : (d.updPower g).cipher = d.cipher := rfl
@[simp] theorem Dev.updPower_comp (d : Dev) (g : PowerState → PowerState) : (d.updPower g).comp = d.comp := rfl
@[simp] theorem Dev.updPower_servos (d : Dev) (g : PowerState → PowerState) : (d.updPower g).servos = d.servos := rfl
@[simp] theorem Dev.updPower_spins (d : Dev) (g : PowerState → PowerState) : (d.updPower g).spins = d.spins := rfl
@[simp] theorem Dev.updPower_therm (d : Dev) (g : PowerState → PowerState) : (d.updPower g).therm = d.therm := rfl
@[simp] theorem Dev.updPower_reset (d : Dev) (g : PowerState → PowerState) : (d.updPower g).reset = d.reset := rfl
@[simp] theorem Dev.updPower_card (d : Dev) (g : PowerState → PowerState) : (d.updPower g).card = d.card := rfl
@[simp] theorem Dev.updPower_sec (d : Dev) (g : PowerState → PowerState) : (d.updPower g).sec = d.sec := rfl
@[simp] theorem Dev.updPower_fw (d : Dev) (g : PowerState → PowerState) : (d.updPower g).fw = d.fw := rfl
@[simp] theorem Dev.updPower_map (d : Dev) (g : PowerState → PowerState) : (d.updPower g).map = d.map := rfl
@[simp] theorem Dev.updPower_power (d : Dev) (g : PowerState → PowerState) : (d.updPower g).power = g d.power := rfl
@[simp] theorem Dev.updPower_rd (d : Dev) (g : PowerState → PowerState) (f' : Fld) (k l : Nat) : (d.updPower g).rd f' k l = d.rd f' k l := rfl
@[simp] theorem Dev.updPower_seq (d : Dev) (g : PowerState → PowerState) (k : Nat) : (d.updPower g).seq k = d.seq k := rfl
@[simp] theorem Dev.updPower_chn (d : Dev) (g : PowerState → PowerState) (k : Nat) : (d.updPower g).chn k = d.chn k := rfl
@[simp] theorem Dev.updPower_headHealth (d : Dev) (g : PowerState → PowerState) (k : Nat) : (d.updPower g).headHealth k = d.headHealth k := rfl
@[simp] theorem Dev.updPower_servo (d : Dev) (g : PowerState → PowerState) (k : Nat) : (d.updPower g).servo k = d.servo k := rfl
@[simp] theorem Dev.updPower_spin (d : Dev) (g : PowerState → PowerState) (k : Nat) : (d.updPower g).spin k = d.spin k := rfl
@[simp] theorem Dev.updPower_section (d : Dev) (g : PowerState → PowerState) (k l : Nat) : (d.updPower g).section k l = d.section k l := rfl
@[simp] theorem Dev.updPower_secField (d : Dev) (g : PowerState → PowerState) (k l x y : Nat) : (d.updPower g).secField k l x y = d.secField k l x y := rfl
@[simp] theorem Dev.updPower_hdaPresent (d : Dev) (g : PowerState → PowerState) (k : Nat) : (d.updPower g).hdaPresent k = d.hdaPresent k := rfl
@[simp] theorem Dev.updPower_actPresent (d : Dev) (g : PowerState → PowerState) (k : Nat) : (d.updPower g).actPresent k = d.actPresent k := rfl
@[simp] theorem Dev.updPower_lport (d : Dev) (g : PowerState → PowerState) (k : Nat) : (d.updPower g).lport k = d.lport k := rfl
@[simp] theorem Dev.updPower_port (d : Dev) (g : PowerState → PowerState) (k : Nat) : (d.updPower g).port k = d.port k := rfl

/-! ### updTherm -/
@[simp] theorem Dev.updTherm_regs (d : Dev) (g : ThermState → ThermState) : (d.updTherm g).regs = d.regs := rfl
@[simp] theorem Dev.updTherm_out (d : Dev) (g : ThermState → ThermState) : (d.updTherm g).out = d.out := rfl
@[simp] theorem Dev.updTherm_draws (d : Dev) (g : ThermState → ThermState) : (d.updTherm g).draws = d.draws := rfl
@[simp] theorem Dev.updTherm_xb (d : Dev) (g : ThermState → ThermState) : (d.updTherm g).xb = d.xb := rfl
@[simp] theorem Dev.updTherm_ecc (d : Dev) (g : ThermState → ThermState) : (d.updTherm g).ecc = d.ecc := rfl
@[simp] theorem Dev.updTherm_struct (d : Dev) (g : ThermState → ThermState) : (d.updTherm g).struct = d.struct := rfl
@[simp] theorem Dev.updTherm_seqs (d : Dev) (g : ThermState → ThermState) : (d.updTherm g).seqs = d.seqs := rfl
@[simp] theorem Dev.updTherm_chns (d : Dev) (g : ThermState → ThermState) : (d.updTherm g).chns = d.chns := rfl
@[simp] theorem Dev.updTherm_health (d : Dev) (g : ThermState → ThermState) : (d.updTherm g).health = d.health := rfl
@[simp] theorem Dev.updTherm_healthGen (d : Dev) (g : ThermState → ThermState) : (d.updTherm g).healthGen = d.healthGen := rfl
@[simp] theorem Dev.updTherm_host (d : Dev) (g : ThermState → ThermState) : (d.updTherm g).host = d.host := rfl
@[simp] theorem Dev.updTherm_chain (d : Dev) (g : ThermState → ThermState) : (d.updTherm g).chain = d.chain := rfl
@[simp] theorem Dev.updTherm_cipher (d : Dev) (g : ThermState → ThermState) : (d.updTherm g).cipher = d.cipher := rfl
@[simp] theorem Dev.updTherm_comp (d : Dev) (g : ThermState → ThermState) : (d.updTherm g).comp = d.comp := rfl
@[simp] theorem Dev.updTherm_servos (d : Dev) (g : ThermState → ThermState) : (d.updTherm g).servos = d.servos := rfl
@[simp] theorem Dev.updTherm_spins (d : Dev) (g : ThermState → ThermState) : (d.updTherm g).spins = d.spins := rfl
@[simp] theorem Dev.updTherm_power (d : Dev) (g : ThermState → ThermState) : (d.updTherm g).power = d.power := rfl
@[simp] theorem Dev.updTherm_reset (d : Dev) (g : ThermState → ThermState) : (d.updTherm g).reset = d.reset := rfl
@[simp] theorem Dev.updTherm_card (d : Dev) (g : ThermState → ThermState) : (d.updTherm g).card = d.card := rfl
@[simp] theorem Dev.updTherm_sec (d : Dev) (g : ThermState → ThermState) : (d.updTherm g).sec = d.sec := rfl
@[simp] theorem Dev.updTherm_fw (d : Dev) (g : ThermState → ThermState) : (d.updTherm g).fw = d.fw := rfl
@[simp] theorem Dev.updTherm_map (d : Dev) (g : ThermState → ThermState) : (d.updTherm g).map = d.map := rfl
@[simp] theorem Dev.updTherm_therm (d : Dev) (g : ThermState → ThermState) : (d.updTherm g).therm = g d.therm := rfl
@[simp] theorem Dev.updTherm_rd (d : Dev) (g : ThermState → ThermState) (f' : Fld) (k l : Nat) : (d.updTherm g).rd f' k l = d.rd f' k l := rfl
@[simp] theorem Dev.updTherm_seq (d : Dev) (g : ThermState → ThermState) (k : Nat) : (d.updTherm g).seq k = d.seq k := rfl
@[simp] theorem Dev.updTherm_chn (d : Dev) (g : ThermState → ThermState) (k : Nat) : (d.updTherm g).chn k = d.chn k := rfl
@[simp] theorem Dev.updTherm_headHealth (d : Dev) (g : ThermState → ThermState) (k : Nat) : (d.updTherm g).headHealth k = d.headHealth k := rfl
@[simp] theorem Dev.updTherm_servo (d : Dev) (g : ThermState → ThermState) (k : Nat) : (d.updTherm g).servo k = d.servo k := rfl
@[simp] theorem Dev.updTherm_spin (d : Dev) (g : ThermState → ThermState) (k : Nat) : (d.updTherm g).spin k = d.spin k := rfl
@[simp] theorem Dev.updTherm_section (d : Dev) (g : ThermState → ThermState) (k l : Nat) : (d.updTherm g).section k l = d.section k l := rfl
@[simp] theorem Dev.updTherm_secField (d : Dev) (g : ThermState → ThermState) (k l x y : Nat) : (d.updTherm g).secField k l x y = d.secField k l x y := rfl
@[simp] theorem Dev.updTherm_hdaPresent (d : Dev) (g : ThermState → ThermState) (k : Nat) : (d.updTherm g).hdaPresent k = d.hdaPresent k := rfl
@[simp] theorem Dev.updTherm_actPresent (d : Dev) (g : ThermState → ThermState) (k : Nat) : (d.updTherm g).actPresent k = d.actPresent k := rfl
@[simp] theorem Dev.updTherm_lport (d : Dev) (g : ThermState → ThermState) (k : Nat) : (d.updTherm g).lport k = d.lport k := rfl
@[simp] theorem Dev.updTherm_port (d : Dev) (g : ThermState → ThermState) (k : Nat) : (d.updTherm g).port k = d.port k := rfl

/-! ### updCard -/
@[simp] theorem Dev.updCard_regs (d : Dev) (g : CardState → CardState) : (d.updCard g).regs = d.regs := rfl
@[simp] theorem Dev.updCard_out (d : Dev) (g : CardState → CardState) : (d.updCard g).out = d.out := rfl
@[simp] theorem Dev.updCard_draws (d : Dev) (g : CardState → CardState) : (d.updCard g).draws = d.draws := rfl
@[simp] theorem Dev.updCard_xb (d : Dev) (g : CardState → CardState) : (d.updCard g).xb = d.xb := rfl
@[simp] theorem Dev.updCard_ecc (d : Dev) (g : CardState → CardState) : (d.updCard g).ecc = d.ecc := rfl
@[simp] theorem Dev.updCard_struct (d : Dev) (g : CardState → CardState) : (d.updCard g).struct = d.struct := rfl
@[simp] theorem Dev.updCard_seqs (d : Dev) (g : CardState → CardState) : (d.updCard g).seqs = d.seqs := rfl
@[simp] theorem Dev.updCard_chns (d : Dev) (g : CardState → CardState) : (d.updCard g).chns = d.chns := rfl
@[simp] theorem Dev.updCard_health (d : Dev) (g : CardState → CardState) : (d.updCard g).health = d.health := rfl
@[simp] theorem Dev.updCard_healthGen (d : Dev) (g : CardState → CardState) : (d.updCard g).healthGen = d.healthGen := rfl
@[simp] theorem Dev.updCard_host (d : Dev) (g : CardState → CardState) : (d.updCard g).host = d.host := rfl
@[simp] theorem Dev.updCard_chain (d : Dev) (g : CardState → CardState) : (d.updCard g).chain = d.chain := rfl
@[simp] theorem Dev.updCard_cipher (d : Dev) (g : CardState → CardState) : (d.updCard g).cipher = d.cipher := rfl
@[simp] theorem Dev.updCard_comp (d : Dev) (g : CardState → CardState) : (d.updCard g).comp = d.comp := rfl
@[simp] theorem Dev.updCard_servos (d : Dev) (g : CardState → CardState) : (d.updCard g).servos = d.servos := rfl
@[simp] theorem Dev.updCard_spins (d : Dev) (g : CardState → CardState) : (d.updCard g).spins = d.spins := rfl
@[simp] theorem Dev.updCard_power (d : Dev) (g : CardState → CardState) : (d.updCard g).power = d.power := rfl
@[simp] theorem Dev.updCard_therm (d : Dev) (g : CardState → CardState) : (d.updCard g).therm = d.therm := rfl
@[simp] theorem Dev.updCard_reset (d : Dev) (g : CardState → CardState) : (d.updCard g).reset = d.reset := rfl
@[simp] theorem Dev.updCard_sec (d : Dev) (g : CardState → CardState) : (d.updCard g).sec = d.sec := rfl
@[simp] theorem Dev.updCard_fw (d : Dev) (g : CardState → CardState) : (d.updCard g).fw = d.fw := rfl
@[simp] theorem Dev.updCard_map (d : Dev) (g : CardState → CardState) : (d.updCard g).map = d.map := rfl
@[simp] theorem Dev.updCard_card (d : Dev) (g : CardState → CardState) : (d.updCard g).card = g d.card := rfl
@[simp] theorem Dev.updCard_rd (d : Dev) (g : CardState → CardState) (f' : Fld) (k l : Nat) : (d.updCard g).rd f' k l = d.rd f' k l := rfl
@[simp] theorem Dev.updCard_seq (d : Dev) (g : CardState → CardState) (k : Nat) : (d.updCard g).seq k = d.seq k := rfl
@[simp] theorem Dev.updCard_chn (d : Dev) (g : CardState → CardState) (k : Nat) : (d.updCard g).chn k = d.chn k := rfl
@[simp] theorem Dev.updCard_headHealth (d : Dev) (g : CardState → CardState) (k : Nat) : (d.updCard g).headHealth k = d.headHealth k := rfl
@[simp] theorem Dev.updCard_servo (d : Dev) (g : CardState → CardState) (k : Nat) : (d.updCard g).servo k = d.servo k := rfl
@[simp] theorem Dev.updCard_spin (d : Dev) (g : CardState → CardState) (k : Nat) : (d.updCard g).spin k = d.spin k := rfl
@[simp] theorem Dev.updCard_section (d : Dev) (g : CardState → CardState) (k l : Nat) : (d.updCard g).section k l = d.section k l := rfl
@[simp] theorem Dev.updCard_secField (d : Dev) (g : CardState → CardState) (k l x y : Nat) : (d.updCard g).secField k l x y = d.secField k l x y := rfl
@[simp] theorem Dev.updCard_hdaPresent (d : Dev) (g : CardState → CardState) (k : Nat) : (d.updCard g).hdaPresent k = d.hdaPresent k := rfl
@[simp] theorem Dev.updCard_actPresent (d : Dev) (g : CardState → CardState) (k : Nat) : (d.updCard g).actPresent k = d.actPresent k := rfl
@[simp] theorem Dev.updCard_lport (d : Dev) (g : CardState → CardState) (k : Nat) : (d.updCard g).lport k = d.lport k := rfl
@[simp] theorem Dev.updCard_port (d : Dev) (g : CardState → CardState) (k : Nat) : (d.updCard g).port k = d.port k := rfl

/-! ### updCipher -/
@[simp] theorem Dev.updCipher_regs (d : Dev) (g : CipherState → CipherState) : (d.updCipher g).regs = d.regs := rfl
@[simp] theorem Dev.updCipher_out (d : Dev) (g : CipherState → CipherState) : (d.updCipher g).out = d.out := rfl
@[simp] theorem Dev.updCipher_draws (d : Dev) (g : CipherState → CipherState) : (d.updCipher g).draws = d.draws := rfl
@[simp] theorem Dev.updCipher_xb (d : Dev) (g : CipherState → CipherState) : (d.updCipher g).xb = d.xb := rfl
@[simp] theorem Dev.updCipher_ecc (d : Dev) (g : CipherState → CipherState) : (d.updCipher g).ecc = d.ecc := rfl
@[simp] theorem Dev.updCipher_struct (d : Dev) (g : CipherState → CipherState) : (d.updCipher g).struct = d.struct := rfl
@[simp] theorem Dev.updCipher_seqs (d : Dev) (g : CipherState → CipherState) : (d.updCipher g).seqs = d.seqs := rfl
@[simp] theorem Dev.updCipher_chns (d : Dev) (g : CipherState → CipherState) : (d.updCipher g).chns = d.chns := rfl
@[simp] theorem Dev.updCipher_health (d : Dev) (g : CipherState → CipherState) : (d.updCipher g).health = d.health := rfl
@[simp] theorem Dev.updCipher_healthGen (d : Dev) (g : CipherState → CipherState) : (d.updCipher g).healthGen = d.healthGen := rfl
@[simp] theorem Dev.updCipher_host (d : Dev) (g : CipherState → CipherState) : (d.updCipher g).host = d.host := rfl
@[simp] theorem Dev.updCipher_chain (d : Dev) (g : CipherState → CipherState) : (d.updCipher g).chain = d.chain := rfl
@[simp] theorem Dev.updCipher_comp (d : Dev) (g : CipherState → CipherState) : (d.updCipher g).comp = d.comp := rfl
@[simp] theorem Dev.updCipher_servos (d : Dev) (g : CipherState → CipherState) : (d.updCipher g).servos = d.servos := rfl
@[simp] theorem Dev.updCipher_spins (d : Dev) (g : CipherState → CipherState) : (d.updCipher g).spins = d.spins := rfl
@[simp] theorem Dev.updCipher_power (d : Dev) (g : CipherState → CipherState) : (d.updCipher g).power = d.power := rfl
@[simp] theorem Dev.updCipher_therm (d : Dev) (g : CipherState → CipherState) : (d.updCipher g).therm = d.therm := rfl
@[simp] theorem Dev.updCipher_reset (d : Dev) (g : CipherState → CipherState) : (d.updCipher g).reset = d.reset := rfl
@[simp] theorem Dev.updCipher_card (d : Dev) (g : CipherState → CipherState) : (d.updCipher g).card = d.card := rfl
@[simp] theorem Dev.updCipher_sec (d : Dev) (g : CipherState → CipherState) : (d.updCipher g).sec = d.sec := rfl
@[simp] theorem Dev.updCipher_fw (d : Dev) (g : CipherState → CipherState) : (d.updCipher g).fw = d.fw := rfl
@[simp] theorem Dev.updCipher_map (d : Dev) (g : CipherState → CipherState) : (d.updCipher g).map = d.map := rfl
@[simp] theorem Dev.updCipher_cipher (d : Dev) (g : CipherState → CipherState) : (d.updCipher g).cipher = g d.cipher := rfl
@[simp] theorem Dev.updCipher_rd (d : Dev) (g : CipherState → CipherState) (f' : Fld) (k l : Nat) : (d.updCipher g).rd f' k l = d.rd f' k l := rfl
@[simp] theorem Dev.updCipher_seq (d : Dev) (g : CipherState → CipherState) (k : Nat) : (d.updCipher g).seq k = d.seq k := rfl
@[simp] theorem Dev.updCipher_chn (d : Dev) (g : CipherState → CipherState) (k : Nat) : (d.updCipher g).chn k = d.chn k := rfl
@[simp] theorem Dev.updCipher_headHealth (d : Dev) (g : CipherState → CipherState) (k : Nat) : (d.updCipher g).headHealth k = d.headHealth k := rfl
@[simp] theorem Dev.updCipher_servo (d : Dev) (g : CipherState → CipherState) (k : Nat) : (d.updCipher g).servo k = d.servo k := rfl
@[simp] theorem Dev.updCipher_spin (d : Dev) (g : CipherState → CipherState) (k : Nat) : (d.updCipher g).spin k = d.spin k := rfl
@[simp] theorem Dev.updCipher_section (d : Dev) (g : CipherState → CipherState) (k l : Nat) : (d.updCipher g).section k l = d.section k l := rfl
@[simp] theorem Dev.updCipher_secField (d : Dev) (g : CipherState → CipherState) (k l x y : Nat) : (d.updCipher g).secField k l x y = d.secField k l x y := rfl
@[simp] theorem Dev.updCipher_hdaPresent (d : Dev) (g : CipherState → CipherState) (k : Nat) : (d.updCipher g).hdaPresent k = d.hdaPresent k := rfl
@[simp] theorem Dev.updCipher_actPresent (d : Dev) (g : CipherState → CipherState) (k : Nat) : (d.updCipher g).actPresent k = d.actPresent k := rfl
@[simp] theorem Dev.updCipher_lport (d : Dev) (g : CipherState → CipherState) (k : Nat) : (d.updCipher g).lport k = d.lport k := rfl
@[simp] theorem Dev.updCipher_port (d : Dev) (g : CipherState → CipherState) (k : Nat) : (d.updCipher g).port k = d.port k := rfl

/-! ### updComp -/
@[simp] theorem Dev.updComp_regs (d : Dev) (g : CompState → CompState) : (d.updComp g).regs = d.regs := rfl
@[simp] theorem Dev.updComp_out (d : Dev) (g : CompState → CompState) : (d.updComp g).out = d.out := rfl
@[simp] theorem Dev.updComp_draws (d : Dev) (g : CompState → CompState) : (d.updComp g).draws = d.draws := rfl
@[simp] theorem Dev.updComp_xb (d : Dev) (g : CompState → CompState) : (d.updComp g).xb = d.xb := rfl
@[simp] theorem Dev.updComp_ecc (d : Dev) (g : CompState → CompState) : (d.updComp g).ecc = d.ecc := rfl
@[simp] theorem Dev.updComp_struct (d : Dev) (g : CompState → CompState) : (d.updComp g).struct = d.struct := rfl
@[simp] theorem Dev.updComp_seqs (d : Dev) (g : CompState → CompState) : (d.updComp g).seqs = d.seqs := rfl
@[simp] theorem Dev.updComp_chns (d : Dev) (g : CompState → CompState) : (d.updComp g).chns = d.chns := rfl
@[simp] theorem Dev.updComp_health (d : Dev) (g : CompState → CompState) : (d.updComp g).health = d.health := rfl
@[simp] theorem Dev.updComp_healthGen (d : Dev) (g : CompState → CompState) : (d.updComp g).healthGen = d.healthGen := rfl
@[simp] theorem Dev.updComp_host (d : Dev) (g : CompState → CompState) : (d.updComp g).host = d.host := rfl
@[simp] theorem Dev.updComp_chain (d : Dev) (g : CompState → CompState) : (d.updComp g).chain = d.chain := rfl
@[simp] theorem Dev.updComp_cipher (d : Dev) (g : CompState → CompState) : (d.updComp g).cipher = d.cipher := rfl
@[simp] theorem Dev.updComp_servos (d : Dev) (g : CompState → CompState) : (d.updComp g).servos = d.servos := rfl
@[simp] theorem Dev.updComp_spins (d : Dev) (g : CompState → CompState) : (d.updComp g).spins = d.spins := rfl
@[simp] theorem Dev.updComp_power (d : Dev) (g : CompState → CompState) : (d.updComp g).power = d.power := rfl
@[simp] theorem Dev.updComp_therm (d : Dev) (g : CompState → CompState) : (d.updComp g).therm = d.therm := rfl
@[simp] theorem Dev.updComp_reset (d : Dev) (g : CompState → CompState) : (d.updComp g).reset = d.reset := rfl
@[simp] theorem Dev.updComp_card (d : Dev) (g : CompState → CompState) : (d.updComp g).card = d.card := rfl
@[simp] theorem Dev.updComp_sec (d : Dev) (g : CompState → CompState) : (d.updComp g).sec = d.sec := rfl
@[simp] theorem Dev.updComp_fw (d : Dev) (g : CompState → CompState) : (d.updComp g).fw = d.fw := rfl
@[simp] theorem Dev.updComp_map (d : Dev) (g : CompState → CompState) : (d.updComp g).map = d.map := rfl
@[simp] theorem Dev.updComp_comp (d : Dev) (g : CompState → CompState) : (d.updComp g).comp = g d.comp := rfl
@[simp] theorem Dev.updComp_rd (d : Dev) (g : CompState → CompState) (f' : Fld) (k l : Nat) : (d.updComp g).rd f' k l = d.rd f' k l := rfl
@[simp] theorem Dev.updComp_seq (d : Dev) (g : CompState → CompState) (k : Nat) : (d.updComp g).seq k = d.seq k := rfl
@[simp] theorem Dev.updComp_chn (d : Dev) (g : CompState → CompState) (k : Nat) : (d.updComp g).chn k = d.chn k := rfl
@[simp] theorem Dev.updComp_headHealth (d : Dev) (g : CompState → CompState) (k : Nat) : (d.updComp g).headHealth k = d.headHealth k := rfl
@[simp] theorem Dev.updComp_servo (d : Dev) (g : CompState → CompState) (k : Nat) : (d.updComp g).servo k = d.servo k := rfl
@[simp] theorem Dev.updComp_spin (d : Dev) (g : CompState → CompState) (k : Nat) : (d.updComp g).spin k = d.spin k := rfl
@[simp] theorem Dev.updComp_section (d : Dev) (g : CompState → CompState) (k l : Nat) : (d.updComp g).section k l = d.section k l := rfl
@[simp] theorem Dev.updComp_secField (d : Dev) (g : CompState → CompState) (k l x y : Nat) : (d.updComp g).secField k l x y = d.secField k l x y := rfl
@[simp] theorem Dev.updComp_hdaPresent (d : Dev) (g : CompState → CompState) (k : Nat) : (d.updComp g).hdaPresent k = d.hdaPresent k := rfl
@[simp] theorem Dev.updComp_actPresent (d : Dev) (g : CompState → CompState) (k : Nat) : (d.updComp g).actPresent k = d.actPresent k := rfl
@[simp] theorem Dev.updComp_lport (d : Dev) (g : CompState → CompState) (k : Nat) : (d.updComp g).lport k = d.lport k := rfl
@[simp] theorem Dev.updComp_port (d : Dev) (g : CompState → CompState) (k : Nat) : (d.updComp g).port k = d.port k := rfl

/-! ### updEcc -/
@[simp] theorem Dev.updEcc_regs (d : Dev) (g : EccState → EccState) : (d.updEcc g).regs = d.regs := rfl
@[simp] theorem Dev.updEcc_out (d : Dev) (g : EccState → EccState) : (d.updEcc g).out = d.out := rfl
@[simp] theorem Dev.updEcc_draws (d : Dev) (g : EccState → EccState) : (d.updEcc g).draws = d.draws := rfl
@[simp] theorem Dev.updEcc_xb (d : Dev) (g : EccState → EccState) : (d.updEcc g).xb = d.xb := rfl
@[simp] theorem Dev.updEcc_struct (d : Dev) (g : EccState → EccState) : (d.updEcc g).struct = d.struct := rfl
@[simp] theorem Dev.updEcc_seqs (d : Dev) (g : EccState → EccState) : (d.updEcc g).seqs = d.seqs := rfl
@[simp] theorem Dev.updEcc_chns (d : Dev) (g : EccState → EccState) : (d.updEcc g).chns = d.chns := rfl
@[simp] theorem Dev.updEcc_health (d : Dev) (g : EccState → EccState) : (d.updEcc g).health = d.health := rfl
@[simp] theorem Dev.updEcc_healthGen (d : Dev) (g : EccState → EccState) : (d.updEcc g).healthGen = d.healthGen := rfl
@[simp] theorem Dev.updEcc_host (d : Dev) (g : EccState → EccState) : (d.updEcc g).host = d.host := rfl
@[simp] theorem Dev.updEcc_chain (d : Dev) (g : EccState → EccState) : (d.updEcc g).chain = d.chain := rfl
@[simp] theorem Dev.updEcc_cipher (d : Dev) (g : EccState → EccState) : (d.updEcc g).cipher = d.cipher := rfl
@[simp] theorem Dev.updEcc_comp (d : Dev) (g : EccState → EccState) : (d.updEcc g).comp = d.comp := rfl
@[simp] theorem Dev.updEcc_servos (d : Dev) (g : EccState → EccState) : (d.updEcc g).servos = d.servos := rfl
@[simp] theorem Dev.updEcc_spins (d : Dev) (g : EccState → EccState) : (d.updEcc g).spins = d.spins := rfl
@[simp] theorem Dev.updEcc_power (d : Dev) (g : EccState → EccState) : (d.updEcc g).power = d.power := rfl
@[simp] theorem Dev.updEcc_therm (d : Dev) (g : EccState → EccState) : (d.updEcc g).therm = d.therm := rfl
@[simp] theorem Dev.updEcc_reset (d : Dev) (g : EccState → EccState) : (d.updEcc g).reset = d.reset := rfl
@[simp] theorem Dev.updEcc_card (d : Dev) (g : EccState → EccState) : (d.updEcc g).card = d.card := rfl
@[simp] theorem Dev.updEcc_sec (d : Dev) (g : EccState → EccState) : (d.updEcc g).sec = d.sec := rfl
@[simp] theorem Dev.updEcc_fw (d : Dev) (g : EccState → EccState) : (d.updEcc g).fw = d.fw := rfl
@[simp] theorem Dev.updEcc_map (d : Dev) (g : EccState → EccState) : (d.updEcc g).map = d.map := rfl
@[simp] theorem Dev.updEcc_ecc (d : Dev) (g : EccState → EccState) : (d.updEcc g).ecc = g d.ecc := rfl
@[simp] theorem Dev.updEcc_rd (d : Dev) (g : EccState → EccState) (f' : Fld) (k l : Nat) : (d.updEcc g).rd f' k l = d.rd f' k l := rfl
@[simp] theorem Dev.updEcc_seq (d : Dev) (g : EccState → EccState) (k : Nat) : (d.updEcc g).seq k = d.seq k := rfl
@[simp] theorem Dev.updEcc_chn (d : Dev) (g : EccState → EccState) (k : Nat) : (d.updEcc g).chn k = d.chn k := rfl
@[simp] theorem Dev.updEcc_headHealth (d : Dev) (g : EccState → EccState) (k : Nat) : (d.updEcc g).headHealth k = d.headHealth k := rfl
@[simp] theorem Dev.updEcc_servo (d : Dev) (g : EccState → EccState) (k : Nat) : (d.updEcc g).servo k = d.servo k := rfl
@[simp] theorem Dev.updEcc_spin (d : Dev) (g : EccState → EccState) (k : Nat) : (d.updEcc g).spin k = d.spin k := rfl
@[simp] theorem Dev.updEcc_section (d : Dev) (g : EccState → EccState) (k l : Nat) : (d.updEcc g).section k l = d.section k l := rfl
@[simp] theorem Dev.updEcc_secField (d : Dev) (g : EccState → EccState) (k l x y : Nat) : (d.updEcc g).secField k l x y = d.secField k l x y := rfl
@[simp] theorem Dev.updEcc_hdaPresent (d : Dev) (g : EccState → EccState) (k : Nat) : (d.updEcc g).hdaPresent k = d.hdaPresent k := rfl
@[simp] theorem Dev.updEcc_actPresent (d : Dev) (g : EccState → EccState) (k : Nat) : (d.updEcc g).actPresent k = d.actPresent k := rfl
@[simp] theorem Dev.updEcc_lport (d : Dev) (g : EccState → EccState) (k : Nat) : (d.updEcc g).lport k = d.lport k := rfl
@[simp] theorem Dev.updEcc_port (d : Dev) (g : EccState → EccState) (k : Nat) : (d.updEcc g).port k = d.port k := rfl

/-! ### updStruct -/
@[simp] theorem Dev.updStruct_regs (d : Dev) (g : StructState → StructState) : (d.updStruct g).regs = d.regs := rfl
@[simp] theorem Dev.updStruct_out (d : Dev) (g : StructState → StructState) : (d.updStruct g).out = d.out := rfl
@[simp] theorem Dev.updStruct_draws (d : Dev) (g : StructState → StructState) : (d.updStruct g).draws = d.draws := rfl
@[simp] theorem Dev.updStruct_xb (d : Dev) (g : StructState → StructState) : (d.updStruct g).xb = d.xb := rfl
@[simp] theorem Dev.updStruct_ecc (d : Dev) (g : StructState → StructState) : (d.updStruct g).ecc = d.ecc := rfl
@[simp] theorem Dev.updStruct_seqs (d : Dev) (g : StructState → StructState) : (d.updStruct g).seqs = d.seqs := rfl
@[simp] theorem Dev.updStruct_chns (d : Dev) (g : StructState → StructState) : (d.updStruct g).chns = d.chns := rfl
@[simp] theorem Dev.updStruct_health (d : Dev) (g : StructState → StructState) : (d.updStruct g).health = d.health := rfl
@[simp] theorem Dev.updStruct_healthGen (d : Dev) (g : StructState → StructState) : (d.updStruct g).healthGen = d.healthGen := rfl
@[simp] theorem Dev.updStruct_host (d : Dev) (g : StructState → StructState) : (d.updStruct g).host = d.host := rfl
@[simp] theorem Dev.updStruct_chain (d : Dev) (g : StructState → StructState) : (d.updStruct g).chain = d.chain := rfl
@[simp] theorem Dev.updStruct_cipher (d : Dev) (g : StructState → StructState) : (d.updStruct g).cipher = d.cipher := rfl
@[simp] theorem Dev.updStruct_comp (d : Dev) (g : StructState → StructState) : (d.updStruct g).comp = d.comp := rfl
@[simp] theorem Dev.updStruct_servos (d : Dev) (g : StructState → StructState) : (d.updStruct g).servos = d.servos := rfl
@[simp] theorem Dev.updStruct_spins (d : Dev) (g : StructState → StructState) : (d.updStruct g).spins = d.spins := rfl
@[simp] theorem Dev.updStruct_power (d : Dev) (g : StructState → StructState) : (d.updStruct g).power = d.power := rfl
@[simp] theorem Dev.updStruct_therm (d : Dev) (g : StructState → StructState) : (d.updStruct g).therm = d.therm := rfl
@[simp] theorem Dev.updStruct_reset (d : Dev) (g : StructState → StructState) : (d.updStruct g).reset = d.reset := rfl
@[simp] theorem Dev.updStruct_card (d : Dev) (g : StructState → StructState) : (d.updStruct g).card = d.card := rfl
@[simp] theorem Dev.updStruct_sec (d : Dev) (g : StructState → StructState) : (d.updStruct g).sec = d.sec := rfl
@[simp] theorem Dev.updStruct_fw (d : Dev) (g : StructState → StructState) : (d.updStruct g).fw = d.fw := rfl
@[simp] theorem Dev.updStruct_map (d : Dev) (g : StructState → StructState) : (d.updStruct g).map = d.map := rfl
@[simp] theorem Dev.updStruct_struct (d : Dev) (g : StructState → StructState) : (d.updStruct g).struct = g d.struct := rfl
@[simp] theorem Dev.updStruct_rd (d : Dev) (g : StructState → StructState) (f' : Fld) (k l : Nat) : (d.updStruct g).rd f' k l = d.rd f' k l := rfl
@[simp] theorem Dev.updStruct_seq (d : Dev) (g : StructState → StructState) (k : Nat) : (d.updStruct g).seq k = d.seq k := rfl
@[simp] theorem Dev.updStruct_chn (d : Dev) (g : StructState → StructState) (k : Nat) : (d.updStruct g).chn k = d.chn k := rfl
@[simp] theorem Dev.updStruct_headHealth (d : Dev) (g : StructState → StructState) (k : Nat) : (d.updStruct g).headHealth k = d.headHealth k := rfl
@[simp] theorem Dev.updStruct_servo (d : Dev) (g : StructState → StructState) (k : Nat) : (d.updStruct g).servo k = d.servo k := rfl
@[simp] theorem Dev.updStruct_spin (d : Dev) (g : StructState → StructState) (k : Nat) : (d.updStruct g).spin k = d.spin k := rfl
@[simp] theorem Dev.updStruct_lport (d : Dev) (g : StructState → StructState) (k : Nat) : (d.updStruct g).lport k = d.lport k := rfl
@[simp] theorem Dev.updStruct_port (d : Dev) (g : StructState → StructState) (k : Nat) : (d.updStruct g).port k = d.port k := rfl

/-! ### updMap -/
@[simp] theorem Dev.updMap_regs (d : Dev) (g : MapState → MapState) : (d.updMap g).regs = d.regs := rfl
@[simp] theorem Dev.updMap_out (d : Dev) (g : MapState → MapState) : (d.updMap g).out = d.out := rfl
@[simp] theorem Dev.updMap_draws (d : Dev) (g : MapState → MapState) : (d.updMap g).draws = d.draws := rfl
@[simp] theorem Dev.updMap_xb (d : Dev) (g : MapState → MapState) : (d.updMap g).xb = d.xb := rfl
@[simp] theorem Dev.updMap_ecc (d : Dev) (g : MapState → MapState) : (d.updMap g).ecc = d.ecc := rfl
@[simp] theorem Dev.updMap_struct (d : Dev) (g : MapState → MapState) : (d.updMap g).struct = d.struct := rfl
@[simp] theorem Dev.updMap_seqs (d : Dev) (g : MapState → MapState) : (d.updMap g).seqs = d.seqs := rfl
@[simp] theorem Dev.updMap_chns (d : Dev) (g : MapState → MapState) : (d.updMap g).chns = d.chns := rfl
@[simp] theorem Dev.updMap_health (d : Dev) (g : MapState → MapState) : (d.updMap g).health = d.health := rfl
@[simp] theorem Dev.updMap_healthGen (d : Dev) (g : MapState → MapState) : (d.updMap g).healthGen = d.healthGen := rfl
@[simp] theorem Dev.updMap_host (d : Dev) (g : MapState → MapState) : (d.updMap g).host = d.host := rfl
@[simp] theorem Dev.updMap_chain (d : Dev) (g : MapState → MapState) : (d.updMap g).chain = d.chain := rfl
@[simp] theorem Dev.updMap_cipher (d : Dev) (g : MapState → MapState) : (d.updMap g).cipher = d.cipher := rfl
@[simp] theorem Dev.updMap_comp (d : Dev) (g : MapState → MapState) : (d.updMap g).comp = d.comp := rfl
@[simp] theorem Dev.updMap_servos (d : Dev) (g : MapState → MapState) : (d.updMap g).servos = d.servos := rfl
@[simp] theorem Dev.updMap_spins (d : Dev) (g : MapState → MapState) : (d.updMap g).spins = d.spins := rfl
@[simp] theorem Dev.updMap_power (d : Dev) (g : MapState → MapState) : (d.updMap g).power = d.power := rfl
@[simp] theorem Dev.updMap_therm (d : Dev) (g : MapState → MapState) : (d.updMap g).therm = d.therm := rfl
@[simp] theorem Dev.updMap_reset (d : Dev) (g : MapState → MapState) : (d.updMap g).reset = d.reset := rfl
@[simp] theorem Dev.updMap_card (d : Dev) (g : MapState → MapState) : (d.updMap g).card = d.card := rfl
@[simp] theorem Dev.updMap_sec (d : Dev) (g : MapState → MapState) : (d.updMap g).sec = d.sec := rfl
@[simp] theorem Dev.updMap_fw (d : Dev) (g : MapState → MapState) : (d.updMap g).fw = d.fw := rfl
@[simp] theorem Dev.updMap_map (d : Dev) (g : MapState → MapState) : (d.updMap g).map = g d.map := rfl
@[simp] theorem Dev.updMap_rd (d : Dev) (g : MapState → MapState) (f' : Fld) (k l : Nat) : (d.updMap g).rd f' k l = d.rd f' k l := rfl
@[simp] theorem Dev.updMap_seq (d : Dev) (g : MapState → MapState) (k : Nat) : (d.updMap g).seq k = d.seq k := rfl
@[simp] theorem Dev.updMap_chn (d : Dev) (g : MapState → MapState) (k : Nat) : (d.updMap g).chn k = d.chn k := rfl
@[simp] theorem Dev.updMap_headHealth (d : Dev) (g : MapState → MapState) (k : Nat) : (d.updMap g).headHealth k = d.headHealth k := rfl
@[simp] theorem Dev.updMap_servo (d : Dev) (g : MapState → MapState) (k : Nat) : (d.updMap g).servo k = d.servo k := rfl
@[simp] theorem Dev.updMap_spin (d : Dev) (g : MapState → MapState) (k : Nat) : (d.updMap g).spin k = d.spin k := rfl
@[simp] theorem Dev.updMap_section (d : Dev) (g : MapState → MapState) (k l : Nat) : (d.updMap g).section k l = d.section k l := rfl
@[simp] theorem Dev.updMap_secField (d : Dev) (g : MapState → MapState) (k l x y : Nat) : (d.updMap g).secField k l x y = d.secField k l x y := rfl
@[simp] theorem Dev.updMap_hdaPresent (d : Dev) (g : MapState → MapState) (k : Nat) : (d.updMap g).hdaPresent k = d.hdaPresent k := rfl
@[simp] theorem Dev.updMap_actPresent (d : Dev) (g : MapState → MapState) (k : Nat) : (d.updMap g).actPresent k = d.actPresent k := rfl
@[simp] theorem Dev.updMap_lport (d : Dev) (g : MapState → MapState) (k : Nat) : (d.updMap g).lport k = d.lport k := rfl
@[simp] theorem Dev.updMap_port (d : Dev) (g : MapState → MapState) (k : Nat) : (d.updMap g).port k = d.port k := rfl

/-! ### updReset -/
@[simp] theorem Dev.updReset_regs (d : Dev) (g : ResetState → ResetState) : (d.updReset g).regs = d.regs := rfl
@[simp] theorem Dev.updReset_out (d : Dev) (g : ResetState → ResetState) : (d.updReset g).out = d.out := rfl
@[simp] theorem Dev.updReset_draws (d : Dev) (g : ResetState → ResetState) : (d.updReset g).draws = d.draws := rfl
@[simp] theorem Dev.updReset_xb (d : Dev) (g : ResetState → ResetState) : (d.updReset g).xb = d.xb := rfl
@[simp] theorem Dev.updReset_ecc (d : Dev) (g : ResetState → ResetState) : (d.updReset g).ecc = d.ecc := rfl
@[simp] theorem Dev.updReset_struct (d : Dev) (g : ResetState → ResetState) : (d.updReset g).struct = d.struct := rfl
@[simp] theorem Dev.updReset_seqs (d : Dev) (g : ResetState → ResetState) : (d.updReset g).seqs = d.seqs := rfl
@[simp] theorem Dev.updReset_chns (d : Dev) (g : ResetState → ResetState) : (d.updReset g).chns = d.chns := rfl
@[simp] theorem Dev.updReset_health (d : Dev) (g : ResetState → ResetState) : (d.updReset g).health = d.health := rfl
@[simp] theorem Dev.updReset_healthGen (d : Dev) (g : ResetState → ResetState) : (d.updReset g).healthGen = d.healthGen := rfl
@[simp] theorem Dev.updReset_host (d : Dev) (g : ResetState → ResetState) : (d.updReset g).host = d.host := rfl
@[simp] theorem Dev.updReset_chain (d : Dev) (g : ResetState → ResetState) : (d.updReset g).chain = d.chain := rfl
@[simp] theorem Dev.updReset_cipher (d : Dev) (g : ResetState → ResetState) : (d.updReset g).cipher = d.cipher := rfl
@[simp] theorem Dev.updReset_comp (d : Dev) (g : ResetState → ResetState) : (d.updReset g).comp = d.comp := rfl
@[simp] theorem Dev.updReset_servos (d : Dev) (g : ResetState → ResetState) : (d.updReset g).servos = d.servos := rfl
@[simp] theorem Dev.updReset_spins (d : Dev) (g : ResetState → ResetState) : (d.updReset g).spins = d.spins := rfl
@[simp] theorem Dev.updReset_power (d : Dev) (g : ResetState → ResetState) : (d.updReset g).power = d.power := rfl
@[simp] theorem Dev.updReset_therm (d : Dev) (g : ResetState → ResetState) : (d.updReset g).therm = d.therm := rfl
@[simp] theorem Dev.updReset_card (d : Dev) (g : ResetState → ResetState) : (d.updReset g).card = d.card := rfl
@[simp] theorem Dev.updReset_sec (d : Dev) (g : ResetState → ResetState) : (d.updReset g).sec = d.sec := rfl
@[simp] theorem Dev.updReset_fw (d : Dev) (g : ResetState → ResetState) : (d.updReset g).fw = d.fw := rfl
@[simp] theorem Dev.updReset_map (d : Dev) (g : ResetState → ResetState) : (d.updReset g).map = d.map := rfl
@[simp] theorem Dev.updReset_reset (d : Dev) (g : ResetState → ResetState) : (d.updReset g).reset = g d.reset := rfl
@[simp] theorem Dev.updReset_rd (d : Dev) (g : ResetState → ResetState) (f' : Fld) (k l : Nat) : (d.updReset g).rd f' k l = d.rd f' k l := rfl
@[simp] theorem Dev.updReset_seq (d : Dev) (g : ResetState → ResetState) (k : Nat) : (d.updReset g).seq k = d.seq k := rfl
@[simp] theorem Dev.updReset_chn (d : Dev) (g : ResetState → ResetState) (k : Nat) : (d.updReset g).chn k = d.chn k := rfl
@[simp] theorem Dev.updReset_headHealth (d : Dev) (g : ResetState → ResetState) (k : Nat) : (d.updReset g).headHealth k = d.headHealth k := rfl
@[simp] theorem Dev.updReset_servo (d : Dev) (g : ResetState → ResetState) (k : Nat) : (d.updReset g).servo k = d.servo k := rfl
@[simp] theorem Dev.updReset_spin (d : Dev) (g : ResetState → ResetState) (k : Nat) : (d.updReset g).spin k = d.spin k := rfl
@[simp] theorem Dev.updReset_section (d : Dev) (g : ResetState → ResetState) (k l : Nat) : (d.updReset g).section k l = d.section k l := rfl
@[simp] theorem Dev.updReset_secField (d : Dev) (g : ResetState → ResetState) (k l x y : Nat) : (d.updReset g).secField k l x y = d.secField k l x y := rfl
@[simp] theorem Dev.updReset_hdaPresent (d : Dev) (g : ResetState → ResetState) (k : Nat) : (d.updReset g).hdaPresent k = d.hdaPresent k := rfl
@[simp] theorem Dev.updReset_actPresent (d : Dev) (g : ResetState → ResetState) (k : Nat) : (d.updReset g).actPresent k = d.actPresent k := rfl
@[simp] theorem Dev.updReset_lport (d : Dev) (g : ResetState → ResetState) (k : Nat) : (d.updReset g).lport k = d.lport k := rfl
@[simp] theorem Dev.updReset_port (d : Dev) (g : ResetState → ResetState) (k : Nat) : (d.updReset g).port k = d.port k := rfl

/-! ### updSec -/
@[simp] theorem Dev.updSec_regs (d : Dev) (g : SecState → SecState) : (d.updSec g).regs = d.regs := rfl
@[simp] theorem Dev.updSec_out (d : Dev) (g : SecState → SecState) : (d.updSec g).out = d.out := rfl
@[simp] theorem Dev.updSec_draws (d : Dev) (g : SecState → SecState) : (d.updSec g).draws = d.draws := rfl
@[simp] theorem Dev.updSec_xb (d : Dev) (g : SecState → SecState) : (d.updSec g).xb = d.xb := rfl
@[simp] theorem Dev.updSec_ecc (d : Dev) (g : SecState → SecState) : (d.updSec g).ecc = d.ecc := rfl
@[simp] theorem Dev.updSec_struct (d : Dev) (g : SecState → SecState) : (d.updSec g).struct = d.struct := rfl
@[simp] theorem Dev.updSec_seqs (d : Dev) (g : SecState → SecState) : (d.updSec g).seqs = d.seqs := rfl
@[simp] theorem Dev.updSec_chns (d : Dev) (g : SecState → SecState) : (d.updSec g).chns = d.chns := rfl
@[simp] theorem Dev.updSec_health (d : Dev) (g : SecState → SecState) : (d.updSec g).health = d.health := rfl
@[simp] theorem Dev.updSec_healthGen (d : Dev) (g : SecState → SecState) : (d.updSec g).healthGen = d.healthGen := rfl
@[simp] theorem Dev.updSec_host (d : Dev) (g : SecState → SecState) : (d.updSec g).host = d.host := rfl
@[simp] theorem Dev.updSec_chain (d : Dev) (g : SecState → SecState) : (d.updSec g).chain = d.chain := rfl
@[simp] theorem Dev.updSec_cipher (d : Dev) (g : SecState → SecState) : (d.updSec g).cipher = d.cipher := rfl
@[simp] theorem Dev.updSec_comp (d : Dev) (g : SecState → SecState) : (d.updSec g).comp = d.comp := rfl
@[simp] theorem Dev.updSec_servos (d : Dev) (g : SecState → SecState) : (d.updSec g).servos = d.servos := rfl
@[simp] theorem Dev.updSec_spins (d : Dev) (g : SecState → SecState) : (d.updSec g).spins = d.spins := rfl
@[simp] theorem Dev.updSec_power (d : Dev) (g : SecState → SecState) : (d.updSec g).power = d.power := rfl
@[simp] theorem Dev.updSec_therm (d : Dev) (g : SecState → SecState) : (d.updSec g).therm = d.therm := rfl
@[simp] theorem Dev.updSec_reset (d : Dev) (g : SecState → SecState) : (d.updSec g).reset = d.reset := rfl
@[simp] theorem Dev.updSec_card (d : Dev) (g : SecState → SecState) : (d.updSec g).card = d.card := rfl
@[simp] theorem Dev.updSec_fw (d : Dev) (g : SecState → SecState) : (d.updSec g).fw = d.fw := rfl
@[simp] theorem Dev.updSec_map (d : Dev) (g : SecState → SecState) : (d.updSec g).map = d.map := rfl
@[simp] theorem Dev.updSec_sec (d : Dev) (g : SecState → SecState) : (d.updSec g).sec = g d.sec := rfl
@[simp] theorem Dev.updSec_rd (d : Dev) (g : SecState → SecState) (f' : Fld) (k l : Nat) : (d.updSec g).rd f' k l = d.rd f' k l := rfl
@[simp] theorem Dev.updSec_seq (d : Dev) (g : SecState → SecState) (k : Nat) : (d.updSec g).seq k = d.seq k := rfl
@[simp] theorem Dev.updSec_chn (d : Dev) (g : SecState → SecState) (k : Nat) : (d.updSec g).chn k = d.chn k := rfl
@[simp] theorem Dev.updSec_headHealth (d : Dev) (g : SecState → SecState) (k : Nat) : (d.updSec g).headHealth k = d.headHealth k := rfl
@[simp] theorem Dev.updSec_servo (d : Dev) (g : SecState → SecState) (k : Nat) : (d.updSec g).servo k = d.servo k := rfl
@[simp] theorem Dev.updSec_spin (d : Dev) (g : SecState → SecState) (k : Nat) : (d.updSec g).spin k = d.spin k := rfl
@[simp] theorem Dev.updSec_section (d : Dev) (g : SecState → SecState) (k l : Nat) : (d.updSec g).section k l = d.section k l := rfl
@[simp] theorem Dev.updSec_secField (d : Dev) (g : SecState → SecState) (k l x y : Nat) : (d.updSec g).secField k l x y = d.secField k l x y := rfl
@[simp] theorem Dev.updSec_hdaPresent (d : Dev) (g : SecState → SecState) (k : Nat) : (d.updSec g).hdaPresent k = d.hdaPresent k := rfl
@[simp] theorem Dev.updSec_actPresent (d : Dev) (g : SecState → SecState) (k : Nat) : (d.updSec g).actPresent k = d.actPresent k := rfl
@[simp] theorem Dev.updSec_lport (d : Dev) (g : SecState → SecState) (k : Nat) : (d.updSec g).lport k = d.lport k := rfl
@[simp] theorem Dev.updSec_port (d : Dev) (g : SecState → SecState) (k : Nat) : (d.updSec g).port k = d.port k := rfl

/-! ### updXb -/
@[simp] theorem Dev.updXb_regs (d : Dev) (g : XbState → XbState) : (d.updXb g).regs = d.regs := rfl
@[simp] theorem Dev.updXb_out (d : Dev) (g : XbState → XbState) : (d.updXb g).out = d.out := rfl
@[simp] theorem Dev.updXb_draws (d : Dev) (g : XbState → XbState) : (d.updXb g).draws = d.draws := rfl
@[simp] theorem Dev.updXb_ecc (d : Dev) (g : XbState → XbState) : (d.updXb g).ecc = d.ecc := rfl
@[simp] theorem Dev.updXb_struct (d : Dev) (g : XbState → XbState) : (d.updXb g).struct = d.struct := rfl
@[simp] theorem Dev.updXb_seqs (d : Dev) (g : XbState → XbState) : (d.updXb g).seqs = d.seqs := rfl
@[simp] theorem Dev.updXb_chns (d : Dev) (g : XbState → XbState) : (d.updXb g).chns = d.chns := rfl
@[simp] theorem Dev.updXb_health (d : Dev) (g : XbState → XbState) : (d.updXb g).health = d.health := rfl
@[simp] theorem Dev.updXb_healthGen (d : Dev) (g : XbState → XbState) : (d.updXb g).healthGen = d.healthGen := rfl
@[simp] theorem Dev.updXb_host (d : Dev) (g : XbState → XbState) : (d.updXb g).host = d.host := rfl
@[simp] theorem Dev.updXb_chain (d : Dev) (g : XbState → XbState) : (d.updXb g).chain = d.chain := rfl
@[simp] theorem Dev.updXb_cipher (d : Dev) (g : XbState → XbState) : (d.updXb g).cipher = d.cipher := rfl
@[simp] theorem Dev.updXb_comp (d : Dev) (g : XbState → XbState) : (d.updXb g).comp = d.comp := rfl
@[simp] theorem Dev.updXb_servos (d : Dev) (g : XbState → XbState) : (d.updXb g).servos = d.servos := rfl
@[simp] theorem Dev.updXb_spins (d : Dev) (g : XbState → XbState) : (d.updXb g).spins = d.spins := rfl
@[simp] theorem Dev.updXb_power (d : Dev) (g : XbState → XbState) : (d.updXb g).power = d.power := rfl
@[simp] theorem Dev.updXb_therm (d : Dev) (g : XbState → XbState) : (d.updXb g).therm = d.therm := rfl
@[simp] theorem Dev.updXb_reset (d : Dev) (g : XbState → XbState) : (d.updXb g).reset = d.reset := rfl
@[simp] theorem Dev.updXb_card (d : Dev) (g : XbState → XbState) : (d.updXb g).card = d.card := rfl
@[simp] theorem Dev.updXb_sec (d : Dev) (g : XbState → XbState) : (d.updXb g).sec = d.sec := rfl
@[simp] theorem Dev.updXb_fw (d : Dev) (g : XbState → XbState) : (d.updXb g).fw = d.fw := rfl
@[simp] theorem Dev.updXb_map (d : Dev) (g : XbState → XbState) : (d.updXb g).map = d.map := rfl
@[simp] theorem Dev.updXb_xb (d : Dev) (g : XbState → XbState) : (d.updXb g).xb = g d.xb := rfl
@[simp] theorem Dev.updXb_rd (d : Dev) (g : XbState → XbState) (f' : Fld) (k l : Nat) : (d.updXb g).rd f' k l = d.rd f' k l := rfl
@[simp] theorem Dev.updXb_seq (d : Dev) (g : XbState → XbState) (k : Nat) : (d.updXb g).seq k = d.seq k := rfl
@[simp] theorem Dev.updXb_chn (d : Dev) (g : XbState → XbState) (k : Nat) : (d.updXb g).chn k = d.chn k := rfl
@[simp] theorem Dev.updXb_headHealth (d : Dev) (g : XbState → XbState) (k : Nat) : (d.updXb g).headHealth k = d.headHealth k := rfl
@[simp] theorem Dev.updXb_servo (d : Dev) (g : XbState → XbState) (k : Nat) : (d.updXb g).servo k = d.servo k := rfl
@[simp] theorem Dev.updXb_spin (d : Dev) (g : XbState → XbState) (k : Nat) : (d.updXb g).spin k = d.spin k := rfl
@[simp] theorem Dev.updXb_section (d : Dev) (g : XbState → XbState) (k l : Nat) : (d.updXb g).section k l = d.section k l := rfl
@[simp] theorem Dev.updXb_secField (d : Dev) (g : XbState → XbState) (k l x y : Nat) : (d.updXb g).secField k l x y = d.secField k l x y := rfl
@[simp] theorem Dev.updXb_hdaPresent (d : Dev) (g : XbState → XbState) (k : Nat) : (d.updXb g).hdaPresent k = d.hdaPresent k := rfl
@[simp] theorem Dev.updXb_actPresent (d : Dev) (g : XbState → XbState) (k : Nat) : (d.updXb g).actPresent k = d.actPresent k := rfl
@[simp] theorem Dev.updXb_lport (d : Dev) (g : XbState → XbState) (k : Nat) : (d.updXb g).lport k = d.lport k := rfl
@[simp] theorem Dev.updXb_port (d : Dev) (g : XbState → XbState) (k : Nat) : (d.updXb g).port k = d.port k := rfl

/-! ### setFlag -/
@[simp] theorem Dev.setFlag_out (d : Dev) (f : Fld) (b : Bool) (i j : Nat) : (d.setFlag f b i j).out = d.out := rfl
@[simp] theorem Dev.setFlag_draws (d : Dev) (f : Fld) (b : Bool) (i j : Nat) : (d.setFlag f b i j).draws = d.draws := rfl
@[simp] theorem Dev.setFlag_xb (d : Dev) (f : Fld) (b : Bool) (i j : Nat) : (d.setFlag f b i j).xb = d.xb := rfl
@[simp] theorem Dev.setFlag_ecc (d : Dev) (f : Fld) (b : Bool) (i j : Nat) : (d.setFlag f b i j).ecc = d.ecc := rfl
@[simp] theorem Dev.setFlag_struct (d : Dev) (f : Fld) (b : Bool) (i j : Nat) : (d.setFlag f b i j).struct = d.struct := rfl
@[simp] theorem Dev.setFlag_seqs (d : Dev) (f : Fld) (b : Bool) (i j : Nat) : (d.setFlag f b i j).seqs = d.seqs := rfl
@[simp] theorem Dev.setFlag_chns (d : Dev) (f : Fld) (b : Bool) (i j : Nat) : (d.setFlag f b i j).chns = d.chns := rfl
@[simp] theorem Dev.setFlag_health (d : Dev) (f : Fld) (b : Bool) (i j : Nat) : (d.setFlag f b i j).health = d.health := rfl
@[simp] theorem Dev.setFlag_healthGen (d : Dev) (f : Fld) (b : Bool) (i j : Nat) : (d.setFlag f b i j).healthGen = d.healthGen := rfl
@[simp] theorem Dev.setFlag_host (d : Dev) (f : Fld) (b : Bool) (i j : Nat) : (d.setFlag f b i j).host = d.host := rfl
@[simp] theorem Dev.setFlag_chain (d : Dev) (f : Fld) (b : Bool) (i j : Nat) : (d.setFlag f b i j).chain = d.chain := rfl
@[simp] theorem Dev.setFlag_cipher (d : Dev) (f : Fld) (b : Bool) (i j : Nat) : (d.setFlag f b i j).cipher = d.cipher := rfl
@[simp] theorem Dev.setFlag_comp (d : Dev) (f : Fld) (b : Bool) (i j : Nat) : (d.setFlag f b i j).comp = d.comp := rfl
@[simp] theorem Dev.setFlag_servos (d : Dev) (f : Fld) (b : Bool) (i j : Nat) : (d.setFlag f b i j).servos = d.servos := rfl
@[simp] theorem Dev.setFlag_spins (d : Dev) (f : Fld) (b : Bool) (i j : Nat) : (d.setFlag f b i j).spins = d.spins := rfl
@[simp] theorem Dev.setFlag_power (d : Dev) (f : Fld) (b : Bool) (i j : Nat) : (d.setFlag f b i j).power = d.power := rfl
@[simp] theorem Dev.setFlag_therm (d : Dev) (f : Fld) (b : Bool) (i j : Nat) : (d.setFlag f b i j).therm = d.therm := rfl
@[simp] theorem Dev.setFlag_reset (d : Dev) (f : Fld) (b : Bool) (i j : Nat) : (d.setFlag f b i j).reset = d.reset := rfl
@[simp] theorem Dev.setFlag_card (d : Dev) (f : Fld) (b : Bool) (i j : Nat) : (d.setFlag f b i j).card = d.card := rfl
@[simp] theorem Dev.setFlag_sec (d : Dev) (f : Fld) (b : Bool) (i j : Nat) : (d.setFlag f b i j).sec = d.sec := rfl
@[simp] theorem Dev.setFlag_fw (d : Dev) (f : Fld) (b : Bool) (i j : Nat) : (d.setFlag f b i j).fw = d.fw := rfl
@[simp] theorem Dev.setFlag_map (d : Dev) (f : Fld) (b : Bool) (i j : Nat) : (d.setFlag f b i j).map = d.map := rfl
@[simp] theorem Dev.setFlag_seq (d : Dev) (f : Fld) (b : Bool) (i j : Nat) (k : Nat) : (d.setFlag f b i j).seq k = d.seq k := rfl
@[simp] theorem Dev.setFlag_chn (d : Dev) (f : Fld) (b : Bool) (i j : Nat) (k : Nat) : (d.setFlag f b i j).chn k = d.chn k := rfl
@[simp] theorem Dev.setFlag_headHealth (d : Dev) (f : Fld) (b : Bool) (i j : Nat) (k : Nat) : (d.setFlag f b i j).headHealth k = d.headHealth k := rfl
@[simp] theorem Dev.setFlag_servo (d : Dev) (f : Fld) (b : Bool) (i j : Nat) (k : Nat) : (d.setFlag f b i j).servo k = d.servo k := rfl
@[simp] theorem Dev.setFlag_spin (d : Dev) (f : Fld) (b : Bool) (i j : Nat) (k : Nat) : (d.setFlag f b i j).spin k = d.spin k := rfl
@[simp] theorem Dev.setFlag_section (d : Dev) (f : Fld) (b : Bool) (i j : Nat) (k l : Nat) : (d.setFlag f b i j).section k l = d.section k l := rfl
@[simp] theorem Dev.setFlag_secField (d : Dev) (f : Fld) (b : Bool) (i j : Nat) (k l x y : Nat) : (d.setFlag f b i j).secField k l x y = d.secField k l x y := rfl
@[simp] theorem Dev.setFlag_hdaPresent (d : Dev) (f : Fld) (b : Bool) (i j : Nat) (k : Nat) : (d.setFlag f b i j).hdaPresent k = d.hdaPresent k := rfl
@[simp] theorem Dev.setFlag_actPresent (d : Dev) (f : Fld) (b : Bool) (i j : Nat) (k : Nat) : (d.setFlag f b i j).actPresent k = d.actPresent k := rfl
@[simp] theorem Dev.setFlag_lport (d : Dev) (f : Fld) (b : Bool) (i j : Nat) (k : Nat) : (d.setFlag f b i j).lport k = d.lport k := rfl
@[simp] theorem Dev.setFlag_port (d : Dev) (f : Fld) (b : Bool) (i j : Nat) (k : Nat) : (d.setFlag f b i j).port k = d.port k := rfl

/-! ### setBit -/
@[simp] theorem Dev.setBit_out (d : Dev) (f : Fld) (n : Nat) (b : Bool) (i j : Nat) : (d.setBit f n b i j).out = d.out := rfl
@[simp] theorem Dev.setBit_draws (d : Dev) (f : Fld) (n : Nat) (b : Bool) (i j : Nat) : (d.setBit f n b i j).draws = d.draws := rfl
@[simp] theorem Dev.setBit_xb (d : Dev) (f : Fld) (n : Nat) (b : Bool) (i j : Nat) : (d.setBit f n b i j).xb = d.xb := rfl
@[simp] theorem Dev.setBit_ecc (d : Dev) (f : Fld) (n : Nat) (b : Bool) (i j : Nat) : (d.setBit f n b i j).ecc = d.ecc := rfl
@[simp] theorem Dev.setBit_struct (d : Dev) (f : Fld) (n : Nat) (b : Bool) (i j : Nat) : (d.setBit f n b i j).struct = d.struct := rfl
@[simp] theorem Dev.setBit_seqs (d : Dev) (f : Fld) (n : Nat) (b : Bool) (i j : Nat) : (d.setBit f n b i j).seqs = d.seqs := rfl
@[simp] theorem Dev.setBit_chns (d : Dev) (f : Fld) (n : Nat) (b : Bool) (i j : Nat) : (d.setBit f n b i j).chns = d.chns := rfl
@[simp] theorem Dev.setBit_health (d : Dev) (f : Fld) (n : Nat) (b : Bool) (i j : Nat) : (d.setBit f n b i j).health = d.health := rfl
@[simp] theorem Dev.setBit_healthGen (d : Dev) (f : Fld) (n : Nat) (b : Bool) (i j : Nat) : (d.setBit f n b i j).healthGen = d.healthGen := rfl
@[simp] theorem Dev.setBit_host (d : Dev) (f : Fld) (n : Nat) (b : Bool) (i j : Nat) : (d.setBit f n b i j).host = d.host := rfl
@[simp] theorem Dev.setBit_chain (d : Dev) (f : Fld) (n : Nat) (b : Bool) (i j : Nat) : (d.setBit f n b i j).chain = d.chain := rfl
@[simp] theorem Dev.setBit_cipher (d : Dev) (f : Fld) (n : Nat) (b : Bool) (i j : Nat) : (d.setBit f n b i j).cipher = d.cipher := rfl
@[simp] theorem Dev.setBit_comp (d : Dev) (f : Fld) (n : Nat) (b : Bool) (i j : Nat) : (d.setBit f n b i j).comp = d.comp := rfl
@[simp] theorem Dev.setBit_servos (d : Dev) (f : Fld) (n : Nat) (b : Bool) (i j : Nat) : (d.setBit f n b i j).servos = d.servos := rfl
@[simp] theorem Dev.setBit_spins (d : Dev) (f : Fld) (n : Nat) (b : Bool) (i j : Nat) : (d.setBit f n b i j).spins = d.spins := rfl
@[simp] theorem Dev.setBit_power (d : Dev) (f : Fld) (n : Nat) (b : Bool) (i j : Nat) : (d.setBit f n b i j).power = d.power := rfl
@[simp] theorem Dev.setBit_therm (d : Dev) (f : Fld) (n : Nat) (b : Bool) (i j : Nat) : (d.setBit f n b i j).therm = d.therm := rfl
@[simp] theorem Dev.setBit_reset (d : Dev) (f : Fld) (n : Nat) (b : Bool) (i j : Nat) : (d.setBit f n b i j).reset = d.reset := rfl
@[simp] theorem Dev.setBit_card (d : Dev) (f : Fld) (n : Nat) (b : Bool) (i j : Nat) : (d.setBit f n b i j).card = d.card := rfl
@[simp] theorem Dev.setBit_sec (d : Dev) (f : Fld) (n : Nat) (b : Bool) (i j : Nat) : (d.setBit f n b i j).sec = d.sec := rfl
@[simp] theorem Dev.setBit_fw (d : Dev) (f : Fld) (n : Nat) (b : Bool) (i j : Nat) : (d.setBit f n b i j).fw = d.fw := rfl
@[simp] theorem Dev.setBit_map (d : Dev) (f : Fld) (n : Nat) (b : Bool) (i j : Nat) : (d.setBit f n b i j).map = d.map := rfl
@[simp] theorem Dev.setBit_seq (d : Dev) (f : Fld) (n : Nat) (b : Bool) (i j : Nat) (k : Nat) : (d.setBit f n b i j).seq k = d.seq k := rfl
@[simp] theorem Dev.setBit_chn (d : Dev) (f : Fld) (n : Nat) (b : Bool) (i j : Nat) (k : Nat) : (d.setBit f n b i j).chn k = d.chn k := rfl
@[simp] theorem Dev.setBit_headHealth (d : Dev) (f : Fld) (n : Nat) (b : Bool) (i j : Nat) (k : Nat) : (d.setBit f n b i j).headHealth k = d.headHealth k := rfl
@[simp] theorem Dev.setBit_servo (d : Dev) (f : Fld) (n : Nat) (b : Bool) (i j : Nat) (k : Nat) : (d.setBit f n b i j).servo k = d.servo k := rfl
@[simp] theorem Dev.setBit_spin (d : Dev) (f : Fld) (n : Nat) (b : Bool) (i j : Nat) (k : Nat) : (d.setBit f n b i j).spin k = d.spin k := rfl
@[simp] theorem Dev.setBit_section (d : Dev) (f : Fld) (n : Nat) (b : Bool) (i j : Nat) (k l : Nat) : (d.setBit f n b i j).section k l = d.section k l := rfl
@[simp] theorem Dev.setBit_secField (d : Dev) (f : Fld) (n : Nat) (b : Bool) (i j : Nat) (k l x y : Nat) : (d.setBit f n b i j).secField k l x y = d.secField k l x y := rfl
@[simp] theorem Dev.setBit_hdaPresent (d : Dev) (f : Fld) (n : Nat) (b : Bool) (i j : Nat) (k : Nat) : (d.setBit f n b i j).hdaPresent k = d.hdaPresent k := rfl
@[simp] theorem Dev.setBit_actPresent (d : Dev) (f : Fld) (n : Nat) (b : Bool) (i j : Nat) (k : Nat) : (d.setBit f n b i j).actPresent k = d.actPresent k := rfl
@[simp] theorem Dev.setBit_lport (d : Dev) (f : Fld) (n : Nat) (b : Bool) (i j : Nat) (k : Nat) : (d.setBit f n b i j).lport k = d.lport k := rfl
@[simp] theorem Dev.setBit_port (d : Dev) (f : Fld) (n : Nat) (b : Bool) (i j : Nat) (k : Nat) : (d.setBit f n b i j).port k = d.port k := rfl

/-! ### addSat -/
@[simp] theorem Dev.addSat_out (d : Dev) (f : Fld) (n i j : Nat) : (d.addSat f n i j).out = d.out := rfl
@[simp] theorem Dev.addSat_draws (d : Dev) (f : Fld) (n i j : Nat) : (d.addSat f n i j).draws = d.draws := rfl
@[simp] theorem Dev.addSat_xb (d : Dev) (f : Fld) (n i j : Nat) : (d.addSat f n i j).xb = d.xb := rfl
@[simp] theorem Dev.addSat_ecc (d : Dev) (f : Fld) (n i j : Nat) : (d.addSat f n i j).ecc = d.ecc := rfl
@[simp] theorem Dev.addSat_struct (d : Dev) (f : Fld) (n i j : Nat) : (d.addSat f n i j).struct = d.struct := rfl
@[simp] theorem Dev.addSat_seqs (d : Dev) (f : Fld) (n i j : Nat) : (d.addSat f n i j).seqs = d.seqs := rfl
@[simp] theorem Dev.addSat_chns (d : Dev) (f : Fld) (n i j : Nat) : (d.addSat f n i j).chns = d.chns := rfl
@[simp] theorem Dev.addSat_health (d : Dev) (f : Fld) (n i j : Nat) : (d.addSat f n i j).health = d.health := rfl
@[simp] theorem Dev.addSat_healthGen (d : Dev) (f : Fld) (n i j : Nat) : (d.addSat f n i j).healthGen = d.healthGen := rfl
@[simp] theorem Dev.addSat_host (d : Dev) (f : Fld) (n i j : Nat) : (d.addSat f n i j).host = d.host := rfl
@[simp] theorem Dev.addSat_chain (d : Dev) (f : Fld) (n i j : Nat) : (d.addSat f n i j).chain = d.chain := rfl
@[simp] theorem Dev.addSat_cipher (d : Dev) (f : Fld) (n i j : Nat) : (d.addSat f n i j).cipher = d.cipher := rfl
@[simp] theorem Dev.addSat_comp (d : Dev) (f : Fld) (n i j : Nat) : (d.addSat f n i j).comp = d.comp := rfl
@[simp] theorem Dev.addSat_servos (d : Dev) (f : Fld) (n i j : Nat) : (d.addSat f n i j).servos = d.servos := rfl
@[simp] theorem Dev.addSat_spins (d : Dev) (f : Fld) (n i j : Nat) : (d.addSat f n i j).spins = d.spins := rfl
@[simp] theorem Dev.addSat_power (d : Dev) (f : Fld) (n i j : Nat) : (d.addSat f n i j).power = d.power := rfl
@[simp] theorem Dev.addSat_therm (d : Dev) (f : Fld) (n i j : Nat) : (d.addSat f n i j).therm = d.therm := rfl
@[simp] theorem Dev.addSat_reset (d : Dev) (f : Fld) (n i j : Nat) : (d.addSat f n i j).reset = d.reset := rfl
@[simp] theorem Dev.addSat_card (d : Dev) (f : Fld) (n i j : Nat) : (d.addSat f n i j).card = d.card := rfl
@[simp] theorem Dev.addSat_sec (d : Dev) (f : Fld) (n i j : Nat) : (d.addSat f n i j).sec = d.sec := rfl
@[simp] theorem Dev.addSat_fw (d : Dev) (f : Fld) (n i j : Nat) : (d.addSat f n i j).fw = d.fw := rfl
@[simp] theorem Dev.addSat_map (d : Dev) (f : Fld) (n i j : Nat) : (d.addSat f n i j).map = d.map := rfl
@[simp] theorem Dev.addSat_seq (d : Dev) (f : Fld) (n i j : Nat) (k : Nat) : (d.addSat f n i j).seq k = d.seq k := rfl
@[simp] theorem Dev.addSat_chn (d : Dev) (f : Fld) (n i j : Nat) (k : Nat) : (d.addSat f n i j).chn k = d.chn k := rfl
@[simp] theorem Dev.addSat_headHealth (d : Dev) (f : Fld) (n i j : Nat) (k : Nat) : (d.addSat f n i j).headHealth k = d.headHealth k := rfl
@[simp] theorem Dev.addSat_servo (d : Dev) (f : Fld) (n i j : Nat) (k : Nat) : (d.addSat f n i j).servo k = d.servo k := rfl
@[simp] theorem Dev.addSat_spin (d : Dev) (f : Fld) (n i j : Nat) (k : Nat) : (d.addSat f n i j).spin k = d.spin k := rfl
@[simp] theorem Dev.addSat_section (d : Dev) (f : Fld) (n i j : Nat) (k l : Nat) : (d.addSat f n i j).section k l = d.section k l := rfl
@[simp] theorem Dev.addSat_secField (d : Dev) (f : Fld) (n i j : Nat) (k l x y : Nat) : (d.addSat f n i j).secField k l x y = d.secField k l x y := rfl
@[simp] theorem Dev.addSat_hdaPresent (d : Dev) (f : Fld) (n i j : Nat) (k : Nat) : (d.addSat f n i j).hdaPresent k = d.hdaPresent k := rfl
@[simp] theorem Dev.addSat_actPresent (d : Dev) (f : Fld) (n i j : Nat) (k : Nat) : (d.addSat f n i j).actPresent k = d.actPresent k := rfl
@[simp] theorem Dev.addSat_lport (d : Dev) (f : Fld) (n i j : Nat) (k : Nat) : (d.addSat f n i j).lport k = d.lport k := rfl
@[simp] theorem Dev.addSat_port (d : Dev) (f : Fld) (n i j : Nat) (k : Nat) : (d.addSat f n i j).port k = d.port k := rfl

/-! ### addWrap -/
@[simp] theorem Dev.addWrap_out (d : Dev) (f : Fld) (n i j : Nat) : (d.addWrap f n i j).out = d.out := rfl
@[simp] theorem Dev.addWrap_draws (d : Dev) (f : Fld) (n i j : Nat) : (d.addWrap f n i j).draws = d.draws := rfl
@[simp] theorem Dev.addWrap_xb (d : Dev) (f : Fld) (n i j : Nat) : (d.addWrap f n i j).xb = d.xb := rfl
@[simp] theorem Dev.addWrap_ecc (d : Dev) (f : Fld) (n i j : Nat) : (d.addWrap f n i j).ecc = d.ecc := rfl
@[simp] theorem Dev.addWrap_struct (d : Dev) (f : Fld) (n i j : Nat) : (d.addWrap f n i j).struct = d.struct := rfl
@[simp] theorem Dev.addWrap_seqs (d : Dev) (f : Fld) (n i j : Nat) : (d.addWrap f n i j).seqs = d.seqs := rfl
@[simp] theorem Dev.addWrap_chns (d : Dev) (f : Fld) (n i j : Nat) : (d.addWrap f n i j).chns = d.chns := rfl
@[simp] theorem Dev.addWrap_health (d : Dev) (f : Fld) (n i j : Nat) : (d.addWrap f n i j).health = d.health := rfl
@[simp] theorem Dev.addWrap_healthGen (d : Dev) (f : Fld) (n i j : Nat) : (d.addWrap f n i j).healthGen = d.healthGen := rfl
@[simp] theorem Dev.addWrap_host (d : Dev) (f : Fld) (n i j : Nat) : (d.addWrap f n i j).host = d.host := rfl
@[simp] theorem Dev.addWrap_chain (d : Dev) (f : Fld) (n i j : Nat) : (d.addWrap f n i j).chain = d.chain := rfl
@[simp] theorem Dev.addWrap_cipher (d : Dev) (f : Fld) (n i j : Nat) : (d.addWrap f n i j).cipher = d.cipher := rfl
@[simp] theorem Dev.addWrap_comp (d : Dev) (f : Fld) (n i j : Nat) : (d.addWrap f n i j).comp = d.comp := rfl
@[simp] theorem Dev.addWrap_servos (d : Dev) (f : Fld) (n i j : Nat) : (d.addWrap f n i j).servos = d.servos := rfl
@[simp] theorem Dev.addWrap_spins (d : Dev) (f : Fld) (n i j : Nat) : (d.addWrap f n i j).spins = d.spins := rfl
@[simp] theorem Dev.addWrap_power (d : Dev) (f : Fld) (n i j : Nat) : (d.addWrap f n i j).power = d.power := rfl
@[simp] theorem Dev.addWrap_therm (d : Dev) (f : Fld) (n i j : Nat) : (d.addWrap f n i j).therm = d.therm := rfl
@[simp] theorem Dev.addWrap_reset (d : Dev) (f : Fld) (n i j : Nat) : (d.addWrap f n i j).reset = d.reset := rfl
@[simp] theorem Dev.addWrap_card (d : Dev) (f : Fld) (n i j : Nat) : (d.addWrap f n i j).card = d.card := rfl
@[simp] theorem Dev.addWrap_sec (d : Dev) (f : Fld) (n i j : Nat) : (d.addWrap f n i j).sec = d.sec := rfl
@[simp] theorem Dev.addWrap_fw (d : Dev) (f : Fld) (n i j : Nat) : (d.addWrap f n i j).fw = d.fw := rfl
@[simp] theorem Dev.addWrap_map (d : Dev) (f : Fld) (n i j : Nat) : (d.addWrap f n i j).map = d.map := rfl
@[simp] theorem Dev.addWrap_seq (d : Dev) (f : Fld) (n i j : Nat) (k : Nat) : (d.addWrap f n i j).seq k = d.seq k := rfl
@[simp] theorem Dev.addWrap_chn (d : Dev) (f : Fld) (n i j : Nat) (k : Nat) : (d.addWrap f n i j).chn k = d.chn k := rfl
@[simp] theorem Dev.addWrap_headHealth (d : Dev) (f : Fld) (n i j : Nat) (k : Nat) : (d.addWrap f n i j).headHealth k = d.headHealth k := rfl
@[simp] theorem Dev.addWrap_servo (d : Dev) (f : Fld) (n i j : Nat) (k : Nat) : (d.addWrap f n i j).servo k = d.servo k := rfl
@[simp] theorem Dev.addWrap_spin (d : Dev) (f : Fld) (n i j : Nat) (k : Nat) : (d.addWrap f n i j).spin k = d.spin k := rfl
@[simp] theorem Dev.addWrap_section (d : Dev) (f : Fld) (n i j : Nat) (k l : Nat) : (d.addWrap f n i j).section k l = d.section k l := rfl
@[simp] theorem Dev.addWrap_secField (d : Dev) (f : Fld) (n i j : Nat) (k l x y : Nat) : (d.addWrap f n i j).secField k l x y = d.secField k l x y := rfl
@[simp] theorem Dev.addWrap_hdaPresent (d : Dev) (f : Fld) (n i j : Nat) (k : Nat) : (d.addWrap f n i j).hdaPresent k = d.hdaPresent k := rfl
@[simp] theorem Dev.addWrap_actPresent (d : Dev) (f : Fld) (n i j : Nat) (k : Nat) : (d.addWrap f n i j).actPresent k = d.actPresent k := rfl
@[simp] theorem Dev.addWrap_lport (d : Dev) (f : Fld) (n i j : Nat) (k : Nat) : (d.addWrap f n i j).lport k = d.lport k := rfl
@[simp] theorem Dev.addWrap_port (d : Dev) (f : Fld) (n i j : Nat) (k : Nat) : (d.addWrap f n i j).port k = d.port k := rfl

/-! ### wrInt -/
@[simp] theorem Dev.wrInt_out (d : Dev) (f : Fld) (v : Int) (i j : Nat) : (d.wrInt f v i j).out = d.out := rfl
@[simp] theorem Dev.wrInt_draws (d : Dev) (f : Fld) (v : Int) (i j : Nat) : (d.wrInt f v i j).draws = d.draws := rfl
@[simp] theorem Dev.wrInt_xb (d : Dev) (f : Fld) (v : Int) (i j : Nat) : (d.wrInt f v i j).xb = d.xb := rfl
@[simp] theorem Dev.wrInt_ecc (d : Dev) (f : Fld) (v : Int) (i j : Nat) : (d.wrInt f v i j).ecc = d.ecc := rfl
@[simp] theorem Dev.wrInt_struct (d : Dev) (f : Fld) (v : Int) (i j : Nat) : (d.wrInt f v i j).struct = d.struct := rfl
@[simp] theorem Dev.wrInt_seqs (d : Dev) (f : Fld) (v : Int) (i j : Nat) : (d.wrInt f v i j).seqs = d.seqs := rfl
@[simp] theorem Dev.wrInt_chns (d : Dev) (f : Fld) (v : Int) (i j : Nat) : (d.wrInt f v i j).chns = d.chns := rfl
@[simp] theorem Dev.wrInt_health (d : Dev) (f : Fld) (v : Int) (i j : Nat) : (d.wrInt f v i j).health = d.health := rfl
@[simp] theorem Dev.wrInt_healthGen (d : Dev) (f : Fld) (v : Int) (i j : Nat) : (d.wrInt f v i j).healthGen = d.healthGen := rfl
@[simp] theorem Dev.wrInt_host (d : Dev) (f : Fld) (v : Int) (i j : Nat) : (d.wrInt f v i j).host = d.host := rfl
@[simp] theorem Dev.wrInt_chain (d : Dev) (f : Fld) (v : Int) (i j : Nat) : (d.wrInt f v i j).chain = d.chain := rfl
@[simp] theorem Dev.wrInt_cipher (d : Dev) (f : Fld) (v : Int) (i j : Nat) : (d.wrInt f v i j).cipher = d.cipher := rfl
@[simp] theorem Dev.wrInt_comp (d : Dev) (f : Fld) (v : Int) (i j : Nat) : (d.wrInt f v i j).comp = d.comp := rfl
@[simp] theorem Dev.wrInt_servos (d : Dev) (f : Fld) (v : Int) (i j : Nat) : (d.wrInt f v i j).servos = d.servos := rfl
@[simp] theorem Dev.wrInt_spins (d : Dev) (f : Fld) (v : Int) (i j : Nat) : (d.wrInt f v i j).spins = d.spins := rfl
@[simp] theorem Dev.wrInt_power (d : Dev) (f : Fld) (v : Int) (i j : Nat) : (d.wrInt f v i j).power = d.power := rfl
@[simp] theorem Dev.wrInt_therm (d : Dev) (f : Fld) (v : Int) (i j : Nat) : (d.wrInt f v i j).therm = d.therm := rfl
@[simp] theorem Dev.wrInt_reset (d : Dev) (f : Fld) (v : Int) (i j : Nat) : (d.wrInt f v i j).reset = d.reset := rfl
@[simp] theorem Dev.wrInt_card (d : Dev) (f : Fld) (v : Int) (i j : Nat) : (d.wrInt f v i j).card = d.card := rfl
@[simp] theorem Dev.wrInt_sec (d : Dev) (f : Fld) (v : Int) (i j : Nat) : (d.wrInt f v i j).sec = d.sec := rfl
@[simp] theorem Dev.wrInt_fw (d : Dev) (f : Fld) (v : Int) (i j : Nat) : (d.wrInt f v i j).fw = d.fw := rfl
@[simp] theorem Dev.wrInt_map (d : Dev) (f : Fld) (v : Int) (i j : Nat) : (d.wrInt f v i j).map = d.map := rfl
@[simp] theorem Dev.wrInt_seq (d : Dev) (f : Fld) (v : Int) (i j : Nat) (k : Nat) : (d.wrInt f v i j).seq k = d.seq k := rfl
@[simp] theorem Dev.wrInt_chn (d : Dev) (f : Fld) (v : Int) (i j : Nat) (k : Nat) : (d.wrInt f v i j).chn k = d.chn k := rfl
@[simp] theorem Dev.wrInt_headHealth (d : Dev) (f : Fld) (v : Int) (i j : Nat) (k : Nat) : (d.wrInt f v i j).headHealth k = d.headHealth k := rfl
@[simp] theorem Dev.wrInt_servo (d : Dev) (f : Fld) (v : Int) (i j : Nat) (k : Nat) : (d.wrInt f v i j).servo k = d.servo k := rfl
@[simp] theorem Dev.wrInt_spin (d : Dev) (f : Fld) (v : Int) (i j : Nat) (k : Nat) : (d.wrInt f v i j).spin k = d.spin k := rfl
@[simp] theorem Dev.wrInt_section (d : Dev) (f : Fld) (v : Int) (i j : Nat) (k l : Nat) : (d.wrInt f v i j).section k l = d.section k l := rfl
@[simp] theorem Dev.wrInt_secField (d : Dev) (f : Fld) (v : Int) (i j : Nat) (k l x y : Nat) : (d.wrInt f v i j).secField k l x y = d.secField k l x y := rfl
@[simp] theorem Dev.wrInt_hdaPresent (d : Dev) (f : Fld) (v : Int) (i j : Nat) (k : Nat) : (d.wrInt f v i j).hdaPresent k = d.hdaPresent k := rfl
@[simp] theorem Dev.wrInt_actPresent (d : Dev) (f : Fld) (v : Int) (i j : Nat) (k : Nat) : (d.wrInt f v i j).actPresent k = d.actPresent k := rfl
@[simp] theorem Dev.wrInt_lport (d : Dev) (f : Fld) (v : Int) (i j : Nat) (k : Nat) : (d.wrInt f v i j).lport k = d.lport k := rfl
@[simp] theorem Dev.wrInt_port (d : Dev) (f : Fld) (v : Int) (i j : Nat) (k : Nat) : (d.wrInt f v i j).port k = d.port k := rfl

/-! ### updAcc -/
@[simp] theorem Dev.updAcc_regs (d : Dev) (g : Acc → Acc) : (d.updAcc g).regs = d.regs := rfl
@[simp] theorem Dev.updAcc_out (d : Dev) (g : Acc → Acc) : (d.updAcc g).out = d.out := rfl
@[simp] theorem Dev.updAcc_draws (d : Dev) (g : Acc → Acc) : (d.updAcc g).draws = d.draws := rfl
@[simp] theorem Dev.updAcc_xb (d : Dev) (g : Acc → Acc) : (d.updAcc g).xb = d.xb := rfl
@[simp] theorem Dev.updAcc_ecc (d : Dev) (g : Acc → Acc) : (d.updAcc g).ecc = d.ecc := rfl
@[simp] theorem Dev.updAcc_struct (d : Dev) (g : Acc → Acc) : (d.updAcc g).struct = d.struct := rfl
@[simp] theorem Dev.updAcc_seqs (d : Dev) (g : Acc → Acc) : (d.updAcc g).seqs = d.seqs := rfl
@[simp] theorem Dev.updAcc_chns (d : Dev) (g : Acc → Acc) : (d.updAcc g).chns = d.chns := rfl
@[simp] theorem Dev.updAcc_health (d : Dev) (g : Acc → Acc) : (d.updAcc g).health = d.health := rfl
@[simp] theorem Dev.updAcc_healthGen (d : Dev) (g : Acc → Acc) : (d.updAcc g).healthGen = d.healthGen := rfl
@[simp] theorem Dev.updAcc_host (d : Dev) (g : Acc → Acc) : (d.updAcc g).host = d.host := rfl
@[simp] theorem Dev.updAcc_chain (d : Dev) (g : Acc → Acc) : (d.updAcc g).chain = d.chain := rfl
@[simp] theorem Dev.updAcc_cipher (d : Dev) (g : Acc → Acc) : (d.updAcc g).cipher = d.cipher := rfl
@[simp] theorem Dev.updAcc_comp (d : Dev) (g : Acc → Acc) : (d.updAcc g).comp = d.comp := rfl
@[simp] theorem Dev.updAcc_servos (d : Dev) (g : Acc → Acc) : (d.updAcc g).servos = d.servos := rfl
@[simp] theorem Dev.updAcc_spins (d : Dev) (g : Acc → Acc) : (d.updAcc g).spins = d.spins := rfl
@[simp] theorem Dev.updAcc_power (d : Dev) (g : Acc → Acc) : (d.updAcc g).power = d.power := rfl
@[simp] theorem Dev.updAcc_therm (d : Dev) (g : Acc → Acc) : (d.updAcc g).therm = d.therm := rfl
@[simp] theorem Dev.updAcc_reset (d : Dev) (g : Acc → Acc) : (d.updAcc g).reset = d.reset := rfl
@[simp] theorem Dev.updAcc_sec (d : Dev) (g : Acc → Acc) : (d.updAcc g).sec = d.sec := rfl
@[simp] theorem Dev.updAcc_fw (d : Dev) (g : Acc → Acc) : (d.updAcc g).fw = d.fw := rfl
@[simp] theorem Dev.updAcc_map (d : Dev) (g : Acc → Acc) : (d.updAcc g).map = d.map := rfl
@[simp] theorem Dev.updAcc_rd (d : Dev) (g : Acc → Acc) (f' : Fld) (k l : Nat) : (d.updAcc g).rd f' k l = d.rd f' k l := rfl
@[simp] theorem Dev.updAcc_seq (d : Dev) (g : Acc → Acc) (k : Nat) : (d.updAcc g).seq k = d.seq k := rfl
@[simp] theorem Dev.updAcc_chn (d : Dev) (g : Acc → Acc) (k : Nat) : (d.updAcc g).chn k = d.chn k := rfl
@[simp] theorem Dev.updAcc_headHealth (d : Dev) (g : Acc → Acc) (k : Nat) : (d.updAcc g).headHealth k = d.headHealth k := rfl
@[simp] theorem Dev.updAcc_servo (d : Dev) (g : Acc → Acc) (k : Nat) : (d.updAcc g).servo k = d.servo k := rfl
@[simp] theorem Dev.updAcc_spin (d : Dev) (g : Acc → Acc) (k : Nat) : (d.updAcc g).spin k = d.spin k := rfl
@[simp] theorem Dev.updAcc_section (d : Dev) (g : Acc → Acc) (k l : Nat) : (d.updAcc g).section k l = d.section k l := rfl
@[simp] theorem Dev.updAcc_secField (d : Dev) (g : Acc → Acc) (k l x y : Nat) : (d.updAcc g).secField k l x y = d.secField k l x y := rfl
@[simp] theorem Dev.updAcc_hdaPresent (d : Dev) (g : Acc → Acc) (k : Nat) : (d.updAcc g).hdaPresent k = d.hdaPresent k := rfl
@[simp] theorem Dev.updAcc_actPresent (d : Dev) (g : Acc → Acc) (k : Nat) : (d.updAcc g).actPresent k = d.actPresent k := rfl
@[simp] theorem Dev.updAcc_lport (d : Dev) (g : Acc → Acc) (k : Nat) : (d.updAcc g).lport k = d.lport k := rfl
@[simp] theorem Dev.updAcc_port (d : Dev) (g : Acc → Acc) (k : Nat) : (d.updAcc g).port k = d.port k := rfl

/-! ### updOtp -/
@[simp] theorem Dev.updOtp_regs (d : Dev) (g : Otp → Otp) : (d.updOtp g).regs = d.regs := rfl
@[simp] theorem Dev.updOtp_out (d : Dev) (g : Otp → Otp) : (d.updOtp g).out = d.out := rfl
@[simp] theorem Dev.updOtp_draws (d : Dev) (g : Otp → Otp) : (d.updOtp g).draws = d.draws := rfl
@[simp] theorem Dev.updOtp_xb (d : Dev) (g : Otp → Otp) : (d.updOtp g).xb = d.xb := rfl
@[simp] theorem Dev.updOtp_ecc (d : Dev) (g : Otp → Otp) : (d.updOtp g).ecc = d.ecc := rfl
@[simp] theorem Dev.updOtp_struct (d : Dev) (g : Otp → Otp) : (d.updOtp g).struct = d.struct := rfl
@[simp] theorem Dev.updOtp_seqs (d : Dev) (g : Otp → Otp) : (d.updOtp g).seqs = d.seqs := rfl
@[simp] theorem Dev.updOtp_chns (d : Dev) (g : Otp → Otp) : (d.updOtp g).chns = d.chns := rfl
@[simp] theorem Dev.updOtp_health (d : Dev) (g : Otp → Otp) : (d.updOtp g).health = d.health := rfl
@[simp] theorem Dev.updOtp_healthGen (d : Dev) (g : Otp → Otp) : (d.updOtp g).healthGen = d.healthGen := rfl
@[simp] theorem Dev.updOtp_host (d : Dev) (g : Otp → Otp) : (d.updOtp g).host = d.host := rfl
@[simp] theorem Dev.updOtp_chain (d : Dev) (g : Otp → Otp) : (d.updOtp g).chain = d.chain := rfl
@[simp] theorem Dev.updOtp_cipher (d : Dev) (g : Otp → Otp) : (d.updOtp g).cipher = d.cipher := rfl
@[simp] theorem Dev.updOtp_comp (d : Dev) (g : Otp → Otp) : (d.updOtp g).comp = d.comp := rfl
@[simp] theorem Dev.updOtp_servos (d : Dev) (g : Otp → Otp) : (d.updOtp g).servos = d.servos := rfl
@[simp] theorem Dev.updOtp_spins (d : Dev) (g : Otp → Otp) : (d.updOtp g).spins = d.spins := rfl
@[simp] theorem Dev.updOtp_power (d : Dev) (g : Otp → Otp) : (d.updOtp g).power = d.power := rfl
@[simp] theorem Dev.updOtp_therm (d : Dev) (g : Otp → Otp) : (d.updOtp g).therm = d.therm := rfl
@[simp] theorem Dev.updOtp_reset (d : Dev) (g : Otp → Otp) : (d.updOtp g).reset = d.reset := rfl
@[simp] theorem Dev.updOtp_card (d : Dev) (g : Otp → Otp) : (d.updOtp g).card = d.card := rfl
@[simp] theorem Dev.updOtp_fw (d : Dev) (g : Otp → Otp) : (d.updOtp g).fw = d.fw := rfl
@[simp] theorem Dev.updOtp_map (d : Dev) (g : Otp → Otp) : (d.updOtp g).map = d.map := rfl
@[simp] theorem Dev.updOtp_rd (d : Dev) (g : Otp → Otp) (f' : Fld) (k l : Nat) : (d.updOtp g).rd f' k l = d.rd f' k l := rfl
@[simp] theorem Dev.updOtp_seq (d : Dev) (g : Otp → Otp) (k : Nat) : (d.updOtp g).seq k = d.seq k := rfl
@[simp] theorem Dev.updOtp_chn (d : Dev) (g : Otp → Otp) (k : Nat) : (d.updOtp g).chn k = d.chn k := rfl
@[simp] theorem Dev.updOtp_headHealth (d : Dev) (g : Otp → Otp) (k : Nat) : (d.updOtp g).headHealth k = d.headHealth k := rfl
@[simp] theorem Dev.updOtp_servo (d : Dev) (g : Otp → Otp) (k : Nat) : (d.updOtp g).servo k = d.servo k := rfl
@[simp] theorem Dev.updOtp_spin (d : Dev) (g : Otp → Otp) (k : Nat) : (d.updOtp g).spin k = d.spin k := rfl
@[simp] theorem Dev.updOtp_section (d : Dev) (g : Otp → Otp) (k l : Nat) : (d.updOtp g).section k l = d.section k l := rfl
@[simp] theorem Dev.updOtp_secField (d : Dev) (g : Otp → Otp) (k l x y : Nat) : (d.updOtp g).secField k l x y = d.secField k l x y := rfl
@[simp] theorem Dev.updOtp_hdaPresent (d : Dev) (g : Otp → Otp) (k : Nat) : (d.updOtp g).hdaPresent k = d.hdaPresent k := rfl
@[simp] theorem Dev.updOtp_actPresent (d : Dev) (g : Otp → Otp) (k : Nat) : (d.updOtp g).actPresent k = d.actPresent k := rfl
@[simp] theorem Dev.updOtp_lport (d : Dev) (g : Otp → Otp) (k : Nat) : (d.updOtp g).lport k = d.lport k := rfl
@[simp] theorem Dev.updOtp_port (d : Dev) (g : Otp → Otp) (k : Nat) : (d.updOtp g).port k = d.port k := rfl

/-! ### updTasks -/
@[simp] theorem Dev.updTasks_regs (d : Dev) (g : List MTask → List MTask) : (d.updTasks g).regs = d.regs := rfl
@[simp] theorem Dev.updTasks_out (d : Dev) (g : List MTask → List MTask) : (d.updTasks g).out = d.out := rfl
@[simp] theorem Dev.updTasks_draws (d : Dev) (g : List MTask → List MTask) : (d.updTasks g).draws = d.draws := rfl
@[simp] theorem Dev.updTasks_xb (d : Dev) (g : List MTask → List MTask) : (d.updTasks g).xb = d.xb := rfl
@[simp] theorem Dev.updTasks_ecc (d : Dev) (g : List MTask → List MTask) : (d.updTasks g).ecc = d.ecc := rfl
@[simp] theorem Dev.updTasks_struct (d : Dev) (g : List MTask → List MTask) : (d.updTasks g).struct = d.struct := rfl
@[simp] theorem Dev.updTasks_seqs (d : Dev) (g : List MTask → List MTask) : (d.updTasks g).seqs = d.seqs := rfl
@[simp] theorem Dev.updTasks_chns (d : Dev) (g : List MTask → List MTask) : (d.updTasks g).chns = d.chns := rfl
@[simp] theorem Dev.updTasks_health (d : Dev) (g : List MTask → List MTask) : (d.updTasks g).health = d.health := rfl
@[simp] theorem Dev.updTasks_healthGen (d : Dev) (g : List MTask → List MTask) : (d.updTasks g).healthGen = d.healthGen := rfl
@[simp] theorem Dev.updTasks_chain (d : Dev) (g : List MTask → List MTask) : (d.updTasks g).chain = d.chain := rfl
@[simp] theorem Dev.updTasks_cipher (d : Dev) (g : List MTask → List MTask) : (d.updTasks g).cipher = d.cipher := rfl
@[simp] theorem Dev.updTasks_comp (d : Dev) (g : List MTask → List MTask) : (d.updTasks g).comp = d.comp := rfl
@[simp] theorem Dev.updTasks_servos (d : Dev) (g : List MTask → List MTask) : (d.updTasks g).servos = d.servos := rfl
@[simp] theorem Dev.updTasks_spins (d : Dev) (g : List MTask → List MTask) : (d.updTasks g).spins = d.spins := rfl
@[simp] theorem Dev.updTasks_power (d : Dev) (g : List MTask → List MTask) : (d.updTasks g).power = d.power := rfl
@[simp] theorem Dev.updTasks_therm (d : Dev) (g : List MTask → List MTask) : (d.updTasks g).therm = d.therm := rfl
@[simp] theorem Dev.updTasks_reset (d : Dev) (g : List MTask → List MTask) : (d.updTasks g).reset = d.reset := rfl
@[simp] theorem Dev.updTasks_card (d : Dev) (g : List MTask → List MTask) : (d.updTasks g).card = d.card := rfl
@[simp] theorem Dev.updTasks_sec (d : Dev) (g : List MTask → List MTask) : (d.updTasks g).sec = d.sec := rfl
@[simp] theorem Dev.updTasks_fw (d : Dev) (g : List MTask → List MTask) : (d.updTasks g).fw = d.fw := rfl
@[simp] theorem Dev.updTasks_map (d : Dev) (g : List MTask → List MTask) : (d.updTasks g).map = d.map := rfl
@[simp] theorem Dev.updTasks_rd (d : Dev) (g : List MTask → List MTask) (f' : Fld) (k l : Nat) : (d.updTasks g).rd f' k l = d.rd f' k l := rfl
@[simp] theorem Dev.updTasks_seq (d : Dev) (g : List MTask → List MTask) (k : Nat) : (d.updTasks g).seq k = d.seq k := rfl
@[simp] theorem Dev.updTasks_chn (d : Dev) (g : List MTask → List MTask) (k : Nat) : (d.updTasks g).chn k = d.chn k := rfl
@[simp] theorem Dev.updTasks_headHealth (d : Dev) (g : List MTask → List MTask) (k : Nat) : (d.updTasks g).headHealth k = d.headHealth k := rfl
@[simp] theorem Dev.updTasks_servo (d : Dev) (g : List MTask → List MTask) (k : Nat) : (d.updTasks g).servo k = d.servo k := rfl
@[simp] theorem Dev.updTasks_spin (d : Dev) (g : List MTask → List MTask) (k : Nat) : (d.updTasks g).spin k = d.spin k := rfl
@[simp] theorem Dev.updTasks_section (d : Dev) (g : List MTask → List MTask) (k l : Nat) : (d.updTasks g).section k l = d.section k l := rfl
@[simp] theorem Dev.updTasks_secField (d : Dev) (g : List MTask → List MTask) (k l x y : Nat) : (d.updTasks g).secField k l x y = d.secField k l x y := rfl
@[simp] theorem Dev.updTasks_hdaPresent (d : Dev) (g : List MTask → List MTask) (k : Nat) : (d.updTasks g).hdaPresent k = d.hdaPresent k := rfl
@[simp] theorem Dev.updTasks_actPresent (d : Dev) (g : List MTask → List MTask) (k : Nat) : (d.updTasks g).actPresent k = d.actPresent k := rfl
@[simp] theorem Dev.updTasks_lport (d : Dev) (g : List MTask → List MTask) (k : Nat) : (d.updTasks g).lport k = d.lport k := rfl

/-! ### updExtents -/
@[simp] theorem Dev.updExtents_regs (d : Dev) (g : List Extent → List Extent) : (d.updExtents g).regs = d.regs := rfl
@[simp] theorem Dev.updExtents_out (d : Dev) (g : List Extent → List Extent) : (d.updExtents g).out = d.out := rfl
@[simp] theorem Dev.updExtents_draws (d : Dev) (g : List Extent → List Extent) : (d.updExtents g).draws = d.draws := rfl
@[simp] theorem Dev.updExtents_xb (d : Dev) (g : List Extent → List Extent) : (d.updExtents g).xb = d.xb := rfl
@[simp] theorem Dev.updExtents_ecc (d : Dev) (g : List Extent → List Extent) : (d.updExtents g).ecc = d.ecc := rfl
@[simp] theorem Dev.updExtents_struct (d : Dev) (g : List Extent → List Extent) : (d.updExtents g).struct = d.struct := rfl
@[simp] theorem Dev.updExtents_seqs (d : Dev) (g : List Extent → List Extent) : (d.updExtents g).seqs = d.seqs := rfl
@[simp] theorem Dev.updExtents_chns (d : Dev) (g : List Extent → List Extent) : (d.updExtents g).chns = d.chns := rfl
@[simp] theorem Dev.updExtents_health (d : Dev) (g : List Extent → List Extent) : (d.updExtents g).health = d.health := rfl
@[simp] theorem Dev.updExtents_healthGen (d : Dev) (g : List Extent → List Extent) : (d.updExtents g).healthGen = d.healthGen := rfl
@[simp] theorem Dev.updExtents_chain (d : Dev) (g : List Extent → List Extent) : (d.updExtents g).chain = d.chain := rfl
@[simp] theorem Dev.updExtents_cipher (d : Dev) (g : List Extent → List Extent) : (d.updExtents g).cipher = d.cipher := rfl
@[simp] theorem Dev.updExtents_comp (d : Dev) (g : List Extent → List Extent) : (d.updExtents g).comp = d.comp := rfl
@[simp] theorem Dev.updExtents_servos (d : Dev) (g : List Extent → List Extent) : (d.updExtents g).servos = d.servos := rfl
@[simp] theorem Dev.updExtents_spins (d : Dev) (g : List Extent → List Extent) : (d.updExtents g).spins = d.spins := rfl
@[simp] theorem Dev.updExtents_power (d : Dev) (g : List Extent → List Extent) : (d.updExtents g).power = d.power := rfl
@[simp] theorem Dev.updExtents_therm (d : Dev) (g : List Extent → List Extent) : (d.updExtents g).therm = d.therm := rfl
@[simp] theorem Dev.updExtents_reset (d : Dev) (g : List Extent → List Extent) : (d.updExtents g).reset = d.reset := rfl
@[simp] theorem Dev.updExtents_card (d : Dev) (g : List Extent → List Extent) : (d.updExtents g).card = d.card := rfl
@[simp] theorem Dev.updExtents_sec (d : Dev) (g : List Extent → List Extent) : (d.updExtents g).sec = d.sec := rfl
@[simp] theorem Dev.updExtents_fw (d : Dev) (g : List Extent → List Extent) : (d.updExtents g).fw = d.fw := rfl
@[simp] theorem Dev.updExtents_map (d : Dev) (g : List Extent → List Extent) : (d.updExtents g).map = d.map := rfl
@[simp] theorem Dev.updExtents_rd (d : Dev) (g : List Extent → List Extent) (f' : Fld) (k l : Nat) : (d.updExtents g).rd f' k l = d.rd f' k l := rfl
@[simp] theorem Dev.updExtents_seq (d : Dev) (g : List Extent → List Extent) (k : Nat) : (d.updExtents g).seq k = d.seq k := rfl
@[simp] theorem Dev.updExtents_chn (d : Dev) (g : List Extent → List Extent) (k : Nat) : (d.updExtents g).chn k = d.chn k := rfl
@[simp] theorem Dev.updExtents_headHealth (d : Dev) (g : List Extent → List Extent) (k : Nat) : (d.updExtents g).headHealth k = d.headHealth k := rfl
@[simp] theorem Dev.updExtents_servo (d : Dev) (g : List Extent → List Extent) (k : Nat) : (d.updExtents g).servo k = d.servo k := rfl
@[simp] theorem Dev.updExtents_spin (d : Dev) (g : List Extent → List Extent) (k : Nat) : (d.updExtents g).spin k = d.spin k := rfl
@[simp] theorem Dev.updExtents_section (d : Dev) (g : List Extent → List Extent) (k l : Nat) : (d.updExtents g).section k l = d.section k l := rfl
@[simp] theorem Dev.updExtents_secField (d : Dev) (g : List Extent → List Extent) (k l x y : Nat) : (d.updExtents g).secField k l x y = d.secField k l x y := rfl
@[simp] theorem Dev.updExtents_hdaPresent (d : Dev) (g : List Extent → List Extent) (k : Nat) : (d.updExtents g).hdaPresent k = d.hdaPresent k := rfl
@[simp] theorem Dev.updExtents_actPresent (d : Dev) (g : List Extent → List Extent) (k : Nat) : (d.updExtents g).actPresent k = d.actPresent k := rfl
@[simp] theorem Dev.updExtents_lport (d : Dev) (g : List Extent → List Extent) (k : Nat) : (d.updExtents g).lport k = d.lport k := rfl

/-! ### updPort -/
@[simp] theorem Dev.updPort_regs (d : Dev) (h : Nat) (g : Port → Port) : (d.updPort h g).regs = d.regs := rfl
@[simp] theorem Dev.updPort_out (d : Dev) (h : Nat) (g : Port → Port) : (d.updPort h g).out = d.out := rfl
@[simp] theorem Dev.updPort_draws (d : Dev) (h : Nat) (g : Port → Port) : (d.updPort h g).draws = d.draws := rfl
@[simp] theorem Dev.updPort_xb (d : Dev) (h : Nat) (g : Port → Port) : (d.updPort h g).xb = d.xb := rfl
@[simp] theorem Dev.updPort_ecc (d : Dev) (h : Nat) (g : Port → Port) : (d.updPort h g).ecc = d.ecc := rfl
@[simp] theorem Dev.updPort_struct (d : Dev) (h : Nat) (g : Port → Port) : (d.updPort h g).struct = d.struct := rfl
@[simp] theorem Dev.updPort_seqs (d : Dev) (h : Nat) (g : Port → Port) : (d.updPort h g).seqs = d.seqs := rfl
@[simp] theorem Dev.updPort_chns (d : Dev) (h : Nat) (g : Port → Port) : (d.updPort h g).chns = d.chns := rfl
@[simp] theorem Dev.updPort_health (d : Dev) (h : Nat) (g : Port → Port) : (d.updPort h g).health = d.health := rfl
@[simp] theorem Dev.updPort_healthGen (d : Dev) (h : Nat) (g : Port → Port) : (d.updPort h g).healthGen = d.healthGen := rfl
@[simp] theorem Dev.updPort_chain (d : Dev) (h : Nat) (g : Port → Port) : (d.updPort h g).chain = d.chain := rfl
@[simp] theorem Dev.updPort_cipher (d : Dev) (h : Nat) (g : Port → Port) : (d.updPort h g).cipher = d.cipher := rfl
@[simp] theorem Dev.updPort_comp (d : Dev) (h : Nat) (g : Port → Port) : (d.updPort h g).comp = d.comp := rfl
@[simp] theorem Dev.updPort_servos (d : Dev) (h : Nat) (g : Port → Port) : (d.updPort h g).servos = d.servos := rfl
@[simp] theorem Dev.updPort_spins (d : Dev) (h : Nat) (g : Port → Port) : (d.updPort h g).spins = d.spins := rfl
@[simp] theorem Dev.updPort_power (d : Dev) (h : Nat) (g : Port → Port) : (d.updPort h g).power = d.power := rfl
@[simp] theorem Dev.updPort_therm (d : Dev) (h : Nat) (g : Port → Port) : (d.updPort h g).therm = d.therm := rfl
@[simp] theorem Dev.updPort_reset (d : Dev) (h : Nat) (g : Port → Port) : (d.updPort h g).reset = d.reset := rfl
@[simp] theorem Dev.updPort_card (d : Dev) (h : Nat) (g : Port → Port) : (d.updPort h g).card = d.card := rfl
@[simp] theorem Dev.updPort_sec (d : Dev) (h : Nat) (g : Port → Port) : (d.updPort h g).sec = d.sec := rfl
@[simp] theorem Dev.updPort_fw (d : Dev) (h : Nat) (g : Port → Port) : (d.updPort h g).fw = d.fw := rfl
@[simp] theorem Dev.updPort_map (d : Dev) (h : Nat) (g : Port → Port) : (d.updPort h g).map = d.map := rfl
@[simp] theorem Dev.updPort_rd (d : Dev) (h : Nat) (g : Port → Port) (f' : Fld) (k l : Nat) : (d.updPort h g).rd f' k l = d.rd f' k l := rfl
@[simp] theorem Dev.updPort_seq (d : Dev) (h : Nat) (g : Port → Port) (k : Nat) : (d.updPort h g).seq k = d.seq k := rfl
@[simp] theorem Dev.updPort_chn (d : Dev) (h : Nat) (g : Port → Port) (k : Nat) : (d.updPort h g).chn k = d.chn k := rfl
@[simp] theorem Dev.updPort_headHealth (d : Dev) (h : Nat) (g : Port → Port) (k : Nat) : (d.updPort h g).headHealth k = d.headHealth k := rfl
@[simp] theorem Dev.updPort_servo (d : Dev) (h : Nat) (g : Port → Port) (k : Nat) : (d.updPort h g).servo k = d.servo k := rfl
@[simp] theorem Dev.updPort_spin (d : Dev) (h : Nat) (g : Port → Port) (k : Nat) : (d.updPort h g).spin k = d.spin k := rfl
@[simp] theorem Dev.updPort_section (d : Dev) (h : Nat) (g : Port → Port) (k l : Nat) : (d.updPort h g).section k l = d.section k l := rfl
@[simp] theorem Dev.updPort_secField (d : Dev) (h : Nat) (g : Port → Port) (k l x y : Nat) : (d.updPort h g).secField k l x y = d.secField k l x y := rfl
@[simp] theorem Dev.updPort_hdaPresent (d : Dev) (h : Nat) (g : Port → Port) (k : Nat) : (d.updPort h g).hdaPresent k = d.hdaPresent k := rfl
@[simp] theorem Dev.updPort_actPresent (d : Dev) (h : Nat) (g : Port → Port) (k : Nat) : (d.updPort h g).actPresent k = d.actPresent k := rfl
@[simp] theorem Dev.updPort_lport (d : Dev) (h : Nat) (g : Port → Port) (k : Nat) : (d.updPort h g).lport k = d.lport k := rfl

/-! ### updCtx -/
@[simp] theorem Dev.updCtx_regs (d : Dev) (h : Nat) (g : Ctx → Ctx) : (d.updCtx h g).regs = d.regs := rfl
@[simp] theorem Dev.updCtx_out (d : Dev) (h : Nat) (g : Ctx → Ctx) : (d.updCtx h g).out = d.out := rfl
@[simp] theorem Dev.updCtx_draws (d : Dev) (h : Nat) (g : Ctx → Ctx) : (d.updCtx h g).draws = d.draws := rfl
@[simp] theorem Dev.updCtx_xb (d : Dev) (h : Nat) (g : Ctx → Ctx) : (d.updCtx h g).xb = d.xb := rfl
@[simp] theorem Dev.updCtx_ecc (d : Dev) (h : Nat) (g : Ctx → Ctx) : (d.updCtx h g).ecc = d.ecc := rfl
@[simp] theorem Dev.updCtx_struct (d : Dev) (h : Nat) (g : Ctx → Ctx) : (d.updCtx h g).struct = d.struct := rfl
@[simp] theorem Dev.updCtx_seqs (d : Dev) (h : Nat) (g : Ctx → Ctx) : (d.updCtx h g).seqs = d.seqs := rfl
@[simp] theorem Dev.updCtx_chns (d : Dev) (h : Nat) (g : Ctx → Ctx) : (d.updCtx h g).chns = d.chns := rfl
@[simp] theorem Dev.updCtx_health (d : Dev) (h : Nat) (g : Ctx → Ctx) : (d.updCtx h g).health = d.health := rfl
@[simp] theorem Dev.updCtx_healthGen (d : Dev) (h : Nat) (g : Ctx → Ctx) : (d.updCtx h g).healthGen = d.healthGen := rfl
@[simp] theorem Dev.updCtx_chain (d : Dev) (h : Nat) (g : Ctx → Ctx) : (d.updCtx h g).chain = d.chain := rfl
@[simp] theorem Dev.updCtx_cipher (d : Dev) (h : Nat) (g : Ctx → Ctx) : (d.updCtx h g).cipher = d.cipher := rfl
@[simp] theorem Dev.updCtx_comp (d : Dev) (h : Nat) (g : Ctx → Ctx) : (d.updCtx h g).comp = d.comp := rfl
@[simp] theorem Dev.updCtx_servos (d : Dev) (h : Nat) (g : Ctx → Ctx) : (d.updCtx h g).servos = d.servos := rfl
@[simp] theorem Dev.updCtx_spins (d : Dev) (h : Nat) (g : Ctx → Ctx) : (d.updCtx h g).spins = d.spins := rfl
@[simp] theorem Dev.updCtx_power (d : Dev) (h : Nat) (g : Ctx → Ctx) : (d.updCtx h g).power = d.power := rfl
@[simp] theorem Dev.updCtx_therm (d : Dev) (h : Nat) (g : Ctx → Ctx) : (d.updCtx h g).therm = d.therm := rfl
@[simp] theorem Dev.updCtx_reset (d : Dev) (h : Nat) (g : Ctx → Ctx) : (d.updCtx h g).reset = d.reset := rfl
@[simp] theorem Dev.updCtx_card (d : Dev) (h : Nat) (g : Ctx → Ctx) : (d.updCtx h g).card = d.card := rfl
@[simp] theorem Dev.updCtx_sec (d : Dev) (h : Nat) (g : Ctx → Ctx) : (d.updCtx h g).sec = d.sec := rfl
@[simp] theorem Dev.updCtx_fw (d : Dev) (h : Nat) (g : Ctx → Ctx) : (d.updCtx h g).fw = d.fw := rfl
@[simp] theorem Dev.updCtx_map (d : Dev) (h : Nat) (g : Ctx → Ctx) : (d.updCtx h g).map = d.map := rfl
@[simp] theorem Dev.updCtx_rd (d : Dev) (h : Nat) (g : Ctx → Ctx) (f' : Fld) (k l : Nat) : (d.updCtx h g).rd f' k l = d.rd f' k l := rfl
@[simp] theorem Dev.updCtx_seq (d : Dev) (h : Nat) (g : Ctx → Ctx) (k : Nat) : (d.updCtx h g).seq k = d.seq k := rfl
@[simp] theorem Dev.updCtx_chn (d : Dev) (h : Nat) (g : Ctx → Ctx) (k : Nat) : (d.updCtx h g).chn k = d.chn k := rfl
@[simp] theorem Dev.updCtx_headHealth (d : Dev) (h : Nat) (g : Ctx → Ctx) (k : Nat) : (d.updCtx h g).headHealth k = d.headHealth k := rfl
@[simp] theorem Dev.updCtx_servo (d : Dev) (h : Nat) (g : Ctx → Ctx) (k : Nat) : (d.updCtx h g).servo k = d.servo k := rfl
@[simp] theorem Dev.updCtx_spin (d : Dev) (h : Nat) (g : Ctx → Ctx) (k : Nat) : (d.updCtx h g).spin k = d.spin k := rfl
@[simp] theorem Dev.updCtx_section (d : Dev) (h : Nat) (g : Ctx → Ctx) (k l : Nat) : (d.updCtx h g).section k l = d.section k l := rfl
@[simp] theorem Dev.updCtx_secField (d : Dev) (h : Nat) (g : Ctx → Ctx) (k l x y : Nat) : (d.updCtx h g).secField k l x y = d.secField k l x y := rfl
@[simp] theorem Dev.updCtx_hdaPresent (d : Dev) (h : Nat) (g : Ctx → Ctx) (k : Nat) : (d.updCtx h g).hdaPresent k = d.hdaPresent k := rfl
@[simp] theorem Dev.updCtx_actPresent (d : Dev) (h : Nat) (g : Ctx → Ctx) (k : Nat) : (d.updCtx h g).actPresent k = d.actPresent k := rfl
@[simp] theorem Dev.updCtx_lport (d : Dev) (h : Nat) (g : Ctx → Ctx) (k : Nat) : (d.updCtx h g).lport k = d.lport k := rfl

/-! ### updNs -/
@[simp] theorem Dev.updNs_regs (d : Dev) (h : Nat) (g : Ns → Ns) : (d.updNs h g).regs = d.regs := rfl
@[simp] theorem Dev.updNs_out (d : Dev) (h : Nat) (g : Ns → Ns) : (d.updNs h g).out = d.out := rfl
@[simp] theorem Dev.updNs_draws (d : Dev) (h : Nat) (g : Ns → Ns) : (d.updNs h g).draws = d.draws := rfl
@[simp] theorem Dev.updNs_xb (d : Dev) (h : Nat) (g : Ns → Ns) : (d.updNs h g).xb = d.xb := rfl
@[simp] theorem Dev.updNs_ecc (d : Dev) (h : Nat) (g : Ns → Ns) : (d.updNs h g).ecc = d.ecc := rfl
@[simp] theorem Dev.updNs_struct (d : Dev) (h : Nat) (g : Ns → Ns) : (d.updNs h g).struct = d.struct := rfl
@[simp] theorem Dev.updNs_seqs (d : Dev) (h : Nat) (g : Ns → Ns) : (d.updNs h g).seqs = d.seqs := rfl
@[simp] theorem Dev.updNs_chns (d : Dev) (h : Nat) (g : Ns → Ns) : (d.updNs h g).chns = d.chns := rfl
@[simp] theorem Dev.updNs_health (d : Dev) (h : Nat) (g : Ns → Ns) : (d.updNs h g).health = d.health := rfl
@[simp] theorem Dev.updNs_healthGen (d : Dev) (h : Nat) (g : Ns → Ns) : (d.updNs h g).healthGen = d.healthGen := rfl
@[simp] theorem Dev.updNs_chain (d : Dev) (h : Nat) (g : Ns → Ns) : (d.updNs h g).chain = d.chain := rfl
@[simp] theorem Dev.updNs_cipher (d : Dev) (h : Nat) (g : Ns → Ns) : (d.updNs h g).cipher = d.cipher := rfl
@[simp] theorem Dev.updNs_comp (d : Dev) (h : Nat) (g : Ns → Ns) : (d.updNs h g).comp = d.comp := rfl
@[simp] theorem Dev.updNs_servos (d : Dev) (h : Nat) (g : Ns → Ns) : (d.updNs h g).servos = d.servos := rfl
@[simp] theorem Dev.updNs_spins (d : Dev) (h : Nat) (g : Ns → Ns) : (d.updNs h g).spins = d.spins := rfl
@[simp] theorem Dev.updNs_power (d : Dev) (h : Nat) (g : Ns → Ns) : (d.updNs h g).power = d.power := rfl
@[simp] theorem Dev.updNs_therm (d : Dev) (h : Nat) (g : Ns → Ns) : (d.updNs h g).therm = d.therm := rfl
@[simp] theorem Dev.updNs_reset (d : Dev) (h : Nat) (g : Ns → Ns) : (d.updNs h g).reset = d.reset := rfl
@[simp] theorem Dev.updNs_card (d : Dev) (h : Nat) (g : Ns → Ns) : (d.updNs h g).card = d.card := rfl
@[simp] theorem Dev.updNs_sec (d : Dev) (h : Nat) (g : Ns → Ns) : (d.updNs h g).sec = d.sec := rfl
@[simp] theorem Dev.updNs_fw (d : Dev) (h : Nat) (g : Ns → Ns) : (d.updNs h g).fw = d.fw := rfl
@[simp] theorem Dev.updNs_map (d : Dev) (h : Nat) (g : Ns → Ns) : (d.updNs h g).map = d.map := rfl
@[simp] theorem Dev.updNs_rd (d : Dev) (h : Nat) (g : Ns → Ns) (f' : Fld) (k l : Nat) : (d.updNs h g).rd f' k l = d.rd f' k l := rfl
@[simp] theorem Dev.updNs_seq (d : Dev) (h : Nat) (g : Ns → Ns) (k : Nat) : (d.updNs h g).seq k = d.seq k := rfl
@[simp] theorem Dev.updNs_chn (d : Dev) (h : Nat) (g : Ns → Ns) (k : Nat) : (d.updNs h g).chn k = d.chn k := rfl
@[simp] theorem Dev.updNs_headHealth (d : Dev) (h : Nat) (g : Ns → Ns) (k : Nat) : (d.updNs h g).headHealth k = d.headHealth k := rfl
@[simp] theorem Dev.updNs_servo (d : Dev) (h : Nat) (g : Ns → Ns) (k : Nat) : (d.updNs h g).servo k = d.servo k := rfl
@[simp] theorem Dev.updNs_spin (d : Dev) (h : Nat) (g : Ns → Ns) (k : Nat) : (d.updNs h g).spin k = d.spin k := rfl
@[simp] theorem Dev.updNs_section (d : Dev) (h : Nat) (g : Ns → Ns) (k l : Nat) : (d.updNs h g).section k l = d.section k l := rfl
@[simp] theorem Dev.updNs_secField (d : Dev) (h : Nat) (g : Ns → Ns) (k l x y : Nat) : (d.updNs h g).secField k l x y = d.secField k l x y := rfl
@[simp] theorem Dev.updNs_hdaPresent (d : Dev) (h : Nat) (g : Ns → Ns) (k : Nat) : (d.updNs h g).hdaPresent k = d.hdaPresent k := rfl
@[simp] theorem Dev.updNs_actPresent (d : Dev) (h : Nat) (g : Ns → Ns) (k : Nat) : (d.updNs h g).actPresent k = d.actPresent k := rfl
@[simp] theorem Dev.updNs_lport (d : Dev) (h : Nat) (g : Ns → Ns) (k : Nat) : (d.updNs h g).lport k = d.lport k := rfl

/-! ### updZone -/
@[simp] theorem Dev.updZone_regs (d : Dev) (h z : Nat) (g : Zone → Zone) : (d.updZone h z g).regs = d.regs := rfl
@[simp] theorem Dev.updZone_out (d : Dev) (h z : Nat) (g : Zone → Zone) : (d.updZone h z g).out = d.out := rfl
@[simp] theorem Dev.updZone_draws (d : Dev) (h z : Nat) (g : Zone → Zone) : (d.updZone h z g).draws = d.draws := rfl
@[simp] theorem Dev.updZone_xb (d : Dev) (h z : Nat) (g : Zone → Zone) : (d.updZone h z g).xb = d.xb := rfl
@[simp] theorem Dev.updZone_ecc (d : Dev) (h z : Nat) (g : Zone → Zone) : (d.updZone h z g).ecc = d.ecc := rfl
@[simp] theorem Dev.updZone_struct (d : Dev) (h z : Nat) (g : Zone → Zone) : (d.updZone h z g).struct = d.struct := rfl
@[simp] theorem Dev.updZone_seqs (d : Dev) (h z : Nat) (g : Zone → Zone) : (d.updZone h z g).seqs = d.seqs := rfl
@[simp] theorem Dev.updZone_chns (d : Dev) (h z : Nat) (g : Zone → Zone) : (d.updZone h z g).chns = d.chns := rfl
@[simp] theorem Dev.updZone_health (d : Dev) (h z : Nat) (g : Zone → Zone) : (d.updZone h z g).health = d.health := rfl
@[simp] theorem Dev.updZone_healthGen (d : Dev) (h z : Nat) (g : Zone → Zone) : (d.updZone h z g).healthGen = d.healthGen := rfl
@[simp] theorem Dev.updZone_chain (d : Dev) (h z : Nat) (g : Zone → Zone) : (d.updZone h z g).chain = d.chain := rfl
@[simp] theorem Dev.updZone_cipher (d : Dev) (h z : Nat) (g : Zone → Zone) : (d.updZone h z g).cipher = d.cipher := rfl
@[simp] theorem Dev.updZone_comp (d : Dev) (h z : Nat) (g : Zone → Zone) : (d.updZone h z g).comp = d.comp := rfl
@[simp] theorem Dev.updZone_servos (d : Dev) (h z : Nat) (g : Zone → Zone) : (d.updZone h z g).servos = d.servos := rfl
@[simp] theorem Dev.updZone_spins (d : Dev) (h z : Nat) (g : Zone → Zone) : (d.updZone h z g).spins = d.spins := rfl
@[simp] theorem Dev.updZone_power (d : Dev) (h z : Nat) (g : Zone → Zone) : (d.updZone h z g).power = d.power := rfl
@[simp] theorem Dev.updZone_therm (d : Dev) (h z : Nat) (g : Zone → Zone) : (d.updZone h z g).therm = d.therm := rfl
@[simp] theorem Dev.updZone_reset (d : Dev) (h z : Nat) (g : Zone → Zone) : (d.updZone h z g).reset = d.reset := rfl
@[simp] theorem Dev.updZone_card (d : Dev) (h z : Nat) (g : Zone → Zone) : (d.updZone h z g).card = d.card := rfl
@[simp] theorem Dev.updZone_sec (d : Dev) (h z : Nat) (g : Zone → Zone) : (d.updZone h z g).sec = d.sec := rfl
@[simp] theorem Dev.updZone_fw (d : Dev) (h z : Nat) (g : Zone → Zone) : (d.updZone h z g).fw = d.fw := rfl
@[simp] theorem Dev.updZone_map (d : Dev) (h z : Nat) (g : Zone → Zone) : (d.updZone h z g).map = d.map := rfl
@[simp] theorem Dev.updZone_rd (d : Dev) (h z : Nat) (g : Zone → Zone) (f' : Fld) (k l : Nat) : (d.updZone h z g).rd f' k l = d.rd f' k l := rfl
@[simp] theorem Dev.updZone_seq (d : Dev) (h z : Nat) (g : Zone → Zone) (k : Nat) : (d.updZone h z g).seq k = d.seq k := rfl
@[simp] theorem Dev.updZone_chn (d : Dev) (h z : Nat) (g : Zone → Zone) (k : Nat) : (d.updZone h z g).chn k = d.chn k := rfl
@[simp] theorem Dev.updZone_headHealth (d : Dev) (h z : Nat) (g : Zone → Zone) (k : Nat) : (d.updZone h z g).headHealth k = d.headHealth k := rfl
@[simp] theorem Dev.updZone_servo (d : Dev) (h z : Nat) (g : Zone → Zone) (k : Nat) : (d.updZone h z g).servo k = d.servo k := rfl
@[simp] theorem Dev.updZone_spin (d : Dev) (h z : Nat) (g : Zone → Zone) (k : Nat) : (d.updZone h z g).spin k = d.spin k := rfl
@[simp] theorem Dev.updZone_section (d : Dev) (h z : Nat) (g : Zone → Zone) (k l : Nat) : (d.updZone h z g).section k l = d.section k l := rfl
@[simp] theorem Dev.updZone_secField (d : Dev) (h z : Nat) (g : Zone → Zone) (k l x y : Nat) : (d.updZone h z g).secField k l x y = d.secField k l x y := rfl
@[simp] theorem Dev.updZone_hdaPresent (d : Dev) (h z : Nat) (g : Zone → Zone) (k : Nat) : (d.updZone h z g).hdaPresent k = d.hdaPresent k := rfl
@[simp] theorem Dev.updZone_actPresent (d : Dev) (h z : Nat) (g : Zone → Zone) (k : Nat) : (d.updZone h z g).actPresent k = d.actPresent k := rfl
@[simp] theorem Dev.updZone_lport (d : Dev) (h z : Nat) (g : Zone → Zone) (k : Nat) : (d.updZone h z g).lport k = d.lport k := rfl

/-! ### setMedia -/
@[simp] theorem Dev.setMedia_regs (d : Dev) (h z : Nat) (b : MediaBlk) : (d.setMedia h z b).regs = d.regs := rfl
@[simp] theorem Dev.setMedia_out (d : Dev) (h z : Nat) (b : MediaBlk) : (d.setMedia h z b).out = d.out := rfl
@[simp] theorem Dev.setMedia_draws (d : Dev) (h z : Nat) (b : MediaBlk) : (d.setMedia h z b).draws = d.draws := rfl
@[simp] theorem Dev.setMedia_xb (d : Dev) (h z : Nat) (b : MediaBlk) : (d.setMedia h z b).xb = d.xb := rfl
@[simp] theorem Dev.setMedia_ecc (d : Dev) (h z : Nat) (b : MediaBlk) : (d.setMedia h z b).ecc = d.ecc := rfl
@[simp] theorem Dev.setMedia_struct (d : Dev) (h z : Nat) (b : MediaBlk) : (d.setMedia h z b).struct = d.struct := rfl
@[simp] theorem Dev.setMedia_seqs (d : Dev) (h z : Nat) (b : MediaBlk) : (d.setMedia h z b).seqs = d.seqs := rfl
@[simp] theorem Dev.setMedia_chns (d : Dev) (h z : Nat) (b : MediaBlk) : (d.setMedia h z b).chns = d.chns := rfl
@[simp] theorem Dev.setMedia_health (d : Dev) (h z : Nat) (b : MediaBlk) : (d.setMedia h z b).health = d.health := rfl
@[simp] theorem Dev.setMedia_healthGen (d : Dev) (h z : Nat) (b : MediaBlk) : (d.setMedia h z b).healthGen = d.healthGen := rfl
@[simp] theorem Dev.setMedia_chain (d : Dev) (h z : Nat) (b : MediaBlk) : (d.setMedia h z b).chain = d.chain := rfl
@[simp] theorem Dev.setMedia_cipher (d : Dev) (h z : Nat) (b : MediaBlk) : (d.setMedia h z b).cipher = d.cipher := rfl
@[simp] theorem Dev.setMedia_comp (d : Dev) (h z : Nat) (b : MediaBlk) : (d.setMedia h z b).comp = d.comp := rfl
@[simp] theorem Dev.setMedia_servos (d : Dev) (h z : Nat) (b : MediaBlk) : (d.setMedia h z b).servos = d.servos := rfl
@[simp] theorem Dev.setMedia_spins (d : Dev) (h z : Nat) (b : MediaBlk) : (d.setMedia h z b).spins = d.spins := rfl
@[simp] theorem Dev.setMedia_power (d : Dev) (h z : Nat) (b : MediaBlk) : (d.setMedia h z b).power = d.power := rfl
@[simp] theorem Dev.setMedia_therm (d : Dev) (h z : Nat) (b : MediaBlk) : (d.setMedia h z b).therm = d.therm := rfl
@[simp] theorem Dev.setMedia_reset (d : Dev) (h z : Nat) (b : MediaBlk) : (d.setMedia h z b).reset = d.reset := rfl
@[simp] theorem Dev.setMedia_card (d : Dev) (h z : Nat) (b : MediaBlk) : (d.setMedia h z b).card = d.card := rfl
@[simp] theorem Dev.setMedia_sec (d : Dev) (h z : Nat) (b : MediaBlk) : (d.setMedia h z b).sec = d.sec := rfl
@[simp] theorem Dev.setMedia_fw (d : Dev) (h z : Nat) (b : MediaBlk) : (d.setMedia h z b).fw = d.fw := rfl
@[simp] theorem Dev.setMedia_map (d : Dev) (h z : Nat) (b : MediaBlk) : (d.setMedia h z b).map = d.map := rfl
@[simp] theorem Dev.setMedia_rd (d : Dev) (h z : Nat) (b : MediaBlk) (f' : Fld) (k l : Nat) : (d.setMedia h z b).rd f' k l = d.rd f' k l := rfl
@[simp] theorem Dev.setMedia_seq (d : Dev) (h z : Nat) (b : MediaBlk) (k : Nat) : (d.setMedia h z b).seq k = d.seq k := rfl
@[simp] theorem Dev.setMedia_chn (d : Dev) (h z : Nat) (b : MediaBlk) (k : Nat) : (d.setMedia h z b).chn k = d.chn k := rfl
@[simp] theorem Dev.setMedia_headHealth (d : Dev) (h z : Nat) (b : MediaBlk) (k : Nat) : (d.setMedia h z b).headHealth k = d.headHealth k := rfl
@[simp] theorem Dev.setMedia_servo (d : Dev) (h z : Nat) (b : MediaBlk) (k : Nat) : (d.setMedia h z b).servo k = d.servo k := rfl
@[simp] theorem Dev.setMedia_spin (d : Dev) (h z : Nat) (b : MediaBlk) (k : Nat) : (d.setMedia h z b).spin k = d.spin k := rfl
@[simp] theorem Dev.setMedia_section (d : Dev) (h z : Nat) (b : MediaBlk) (k l : Nat) : (d.setMedia h z b).section k l = d.section k l := rfl
@[simp] theorem Dev.setMedia_secField (d : Dev) (h z : Nat) (b : MediaBlk) (k l x y : Nat) : (d.setMedia h z b).secField k l x y = d.secField k l x y := rfl
@[simp] theorem Dev.setMedia_hdaPresent (d : Dev) (h z : Nat) (b : MediaBlk) (k : Nat) : (d.setMedia h z b).hdaPresent k = d.hdaPresent k := rfl
@[simp] theorem Dev.setMedia_actPresent (d : Dev) (h z : Nat) (b : MediaBlk) (k : Nat) : (d.setMedia h z b).actPresent k = d.actPresent k := rfl
@[simp] theorem Dev.setMedia_lport (d : Dev) (h z : Nat) (b : MediaBlk) (k : Nat) : (d.setMedia h z b).lport k = d.lport k := rfl

/-! ### updLport -/
@[simp] theorem Dev.updLport_regs (d : Dev) (p : Nat) (g : LPort → LPort) : (d.updLport p g).regs = d.regs := rfl
@[simp] theorem Dev.updLport_out (d : Dev) (p : Nat) (g : LPort → LPort) : (d.updLport p g).out = d.out := rfl
@[simp] theorem Dev.updLport_draws (d : Dev) (p : Nat) (g : LPort → LPort) : (d.updLport p g).draws = d.draws := rfl
@[simp] theorem Dev.updLport_xb (d : Dev) (p : Nat) (g : LPort → LPort) : (d.updLport p g).xb = d.xb := rfl
@[simp] theorem Dev.updLport_ecc (d : Dev) (p : Nat) (g : LPort → LPort) : (d.updLport p g).ecc = d.ecc := rfl
@[simp] theorem Dev.updLport_struct (d : Dev) (p : Nat) (g : LPort → LPort) : (d.updLport p g).struct = d.struct := rfl
@[simp] theorem Dev.updLport_seqs (d : Dev) (p : Nat) (g : LPort → LPort) : (d.updLport p g).seqs = d.seqs := rfl
@[simp] theorem Dev.updLport_chns (d : Dev) (p : Nat) (g : LPort → LPort) : (d.updLport p g).chns = d.chns := rfl
@[simp] theorem Dev.updLport_health (d : Dev) (p : Nat) (g : LPort → LPort) : (d.updLport p g).health = d.health := rfl
@[simp] theorem Dev.updLport_healthGen (d : Dev) (p : Nat) (g : LPort → LPort) : (d.updLport p g).healthGen = d.healthGen := rfl
@[simp] theorem Dev.updLport_host (d : Dev) (p : Nat) (g : LPort → LPort) : (d.updLport p g).host = d.host := rfl
@[simp] theorem Dev.updLport_cipher (d : Dev) (p : Nat) (g : LPort → LPort) : (d.updLport p g).cipher = d.cipher := rfl
@[simp] theorem Dev.updLport_comp (d : Dev) (p : Nat) (g : LPort → LPort) : (d.updLport p g).comp = d.comp := rfl
@[simp] theorem Dev.updLport_servos (d : Dev) (p : Nat) (g : LPort → LPort) : (d.updLport p g).servos = d.servos := rfl
@[simp] theorem Dev.updLport_spins (d : Dev) (p : Nat) (g : LPort → LPort) : (d.updLport p g).spins = d.spins := rfl
@[simp] theorem Dev.updLport_power (d : Dev) (p : Nat) (g : LPort → LPort) : (d.updLport p g).power = d.power := rfl
@[simp] theorem Dev.updLport_therm (d : Dev) (p : Nat) (g : LPort → LPort) : (d.updLport p g).therm = d.therm := rfl
@[simp] theorem Dev.updLport_reset (d : Dev) (p : Nat) (g : LPort → LPort) : (d.updLport p g).reset = d.reset := rfl
@[simp] theorem Dev.updLport_card (d : Dev) (p : Nat) (g : LPort → LPort) : (d.updLport p g).card = d.card := rfl
@[simp] theorem Dev.updLport_sec (d : Dev) (p : Nat) (g : LPort → LPort) : (d.updLport p g).sec = d.sec := rfl
@[simp] theorem Dev.updLport_fw (d : Dev) (p : Nat) (g : LPort → LPort) : (d.updLport p g).fw = d.fw := rfl
@[simp] theorem Dev.updLport_map (d : Dev) (p : Nat) (g : LPort → LPort) : (d.updLport p g).map = d.map := rfl
@[simp] theorem Dev.updLport_rd (d : Dev) (p : Nat) (g : LPort → LPort) (f' : Fld) (k l : Nat) : (d.updLport p g).rd f' k l = d.rd f' k l := rfl
@[simp] theorem Dev.updLport_seq (d : Dev) (p : Nat) (g : LPort → LPort) (k : Nat) : (d.updLport p g).seq k = d.seq k := rfl
@[simp] theorem Dev.updLport_chn (d : Dev) (p : Nat) (g : LPort → LPort) (k : Nat) : (d.updLport p g).chn k = d.chn k := rfl
@[simp] theorem Dev.updLport_headHealth (d : Dev) (p : Nat) (g : LPort → LPort) (k : Nat) : (d.updLport p g).headHealth k = d.headHealth k := rfl
@[simp] theorem Dev.updLport_servo (d : Dev) (p : Nat) (g : LPort → LPort) (k : Nat) : (d.updLport p g).servo k = d.servo k := rfl
@[simp] theorem Dev.updLport_spin (d : Dev) (p : Nat) (g : LPort → LPort) (k : Nat) : (d.updLport p g).spin k = d.spin k := rfl
@[simp] theorem Dev.updLport_section (d : Dev) (p : Nat) (g : LPort → LPort) (k l : Nat) : (d.updLport p g).section k l = d.section k l := rfl
@[simp] theorem Dev.updLport_secField (d : Dev) (p : Nat) (g : LPort → LPort) (k l x y : Nat) : (d.updLport p g).secField k l x y = d.secField k l x y := rfl
@[simp] theorem Dev.updLport_hdaPresent (d : Dev) (p : Nat) (g : LPort → LPort) (k : Nat) : (d.updLport p g).hdaPresent k = d.hdaPresent k := rfl
@[simp] theorem Dev.updLport_actPresent (d : Dev) (p : Nat) (g : LPort → LPort) (k : Nat) : (d.updLport p g).actPresent k = d.actPresent k := rfl
@[simp] theorem Dev.updLport_port (d : Dev) (p : Nat) (g : LPort → LPort) (k : Nat) : (d.updLport p g).port k = d.port k := rfl

/-! ### updLane -/
@[simp] theorem Dev.updLane_regs (d : Dev) (n m : Nat) (g : Lane → Lane) : (d.updLane n m g).regs = d.regs := rfl
@[simp] theorem Dev.updLane_out (d : Dev) (n m : Nat) (g : Lane → Lane) : (d.updLane n m g).out = d.out := rfl
@[simp] theorem Dev.updLane_draws (d : Dev) (n m : Nat) (g : Lane → Lane) : (d.updLane n m g).draws = d.draws := rfl
@[simp] theorem Dev.updLane_xb (d : Dev) (n m : Nat) (g : Lane → Lane) : (d.updLane n m g).xb = d.xb := rfl
@[simp] theorem Dev.updLane_ecc (d : Dev) (n m : Nat) (g : Lane → Lane) : (d.updLane n m g).ecc = d.ecc := rfl
@[simp] theorem Dev.updLane_struct (d : Dev) (n m : Nat) (g : Lane → Lane) : (d.updLane n m g).struct = d.struct := rfl
@[simp] theorem Dev.updLane_seqs (d : Dev) (n m : Nat) (g : Lane → Lane) : (d.updLane n m g).seqs = d.seqs := rfl
@[simp] theorem Dev.updLane_chns (d : Dev) (n m : Nat) (g : Lane → Lane) : (d.updLane n m g).chns = d.chns := rfl
@[simp] theorem Dev.updLane_health (d : Dev) (n m : Nat) (g : Lane → Lane) : (d.updLane n m g).health = d.health := rfl
@[simp] theorem Dev.updLane_healthGen (d : Dev) (n m : Nat) (g : Lane → Lane) : (d.updLane n m g).healthGen = d.healthGen := rfl
@[simp] theorem Dev.updLane_host (d : Dev) (n m : Nat) (g : Lane → Lane) : (d.updLane n m g).host = d.host := rfl
@[simp] theorem Dev.updLane_chain (d : Dev) (n m : Nat) (g : Lane → Lane) : (d.updLane n m g).chain = d.chain := rfl
@[simp] theorem Dev.updLane_cipher (d : Dev) (n m : Nat) (g : Lane → Lane) : (d.updLane n m g).cipher = d.cipher := rfl
@[simp] theorem Dev.updLane_comp (d : Dev) (n m : Nat) (g : Lane → Lane) : (d.updLane n m g).comp = d.comp := rfl
@[simp] theorem Dev.updLane_spins (d : Dev) (n m : Nat) (g : Lane → Lane) : (d.updLane n m g).spins = d.spins := rfl
@[simp] theorem Dev.updLane_power (d : Dev) (n m : Nat) (g : Lane → Lane) : (d.updLane n m g).power = d.power := rfl
@[simp] theorem Dev.updLane_therm (d : Dev) (n m : Nat) (g : Lane → Lane) : (d.updLane n m g).therm = d.therm := rfl
@[simp] theorem Dev.updLane_reset (d : Dev) (n m : Nat) (g : Lane → Lane) : (d.updLane n m g).reset = d.reset := rfl
@[simp] theorem Dev.updLane_card (d : Dev) (n m : Nat) (g : Lane → Lane) : (d.updLane n m g).card = d.card := rfl
@[simp] theorem Dev.updLane_sec (d : Dev) (n m : Nat) (g : Lane → Lane) : (d.updLane n m g).sec = d.sec := rfl
@[simp] theorem Dev.updLane_fw (d : Dev) (n m : Nat) (g : Lane → Lane) : (d.updLane n m g).fw = d.fw := rfl
@[simp] theorem Dev.updLane_map (d : Dev) (n m : Nat) (g : Lane → Lane) : (d.updLane n m g).map = d.map := rfl
@[simp] theorem Dev.updLane_rd (d : Dev) (n m : Nat) (g : Lane → Lane) (f' : Fld) (k l : Nat) : (d.updLane n m g).rd f' k l = d.rd f' k l := rfl
@[simp] theorem Dev.updLane_seq (d : Dev) (n m : Nat) (g : Lane → Lane) (k : Nat) : (d.updLane n m g).seq k = d.seq k := rfl
@[simp] theorem Dev.updLane_chn (d : Dev) (n m : Nat) (g : Lane → Lane) (k : Nat) : (d.updLane n m g).chn k = d.chn k := rfl
@[simp] theorem Dev.updLane_headHealth (d : Dev) (n m : Nat) (g : Lane → Lane) (k : Nat) : (d.updLane n m g).headHealth k = d.headHealth k := rfl
@[simp] theorem Dev.updLane_spin (d : Dev) (n m : Nat) (g : Lane → Lane) (k : Nat) : (d.updLane n m g).spin k = d.spin k := rfl
@[simp] theorem Dev.updLane_section (d : Dev) (n m : Nat) (g : Lane → Lane) (k l : Nat) : (d.updLane n m g).section k l = d.section k l := rfl
@[simp] theorem Dev.updLane_secField (d : Dev) (n m : Nat) (g : Lane → Lane) (k l x y : Nat) : (d.updLane n m g).secField k l x y = d.secField k l x y := rfl
@[simp] theorem Dev.updLane_hdaPresent (d : Dev) (n m : Nat) (g : Lane → Lane) (k : Nat) : (d.updLane n m g).hdaPresent k = d.hdaPresent k := rfl
@[simp] theorem Dev.updLane_actPresent (d : Dev) (n m : Nat) (g : Lane → Lane) (k : Nat) : (d.updLane n m g).actPresent k = d.actPresent k := rfl
@[simp] theorem Dev.updLane_lport (d : Dev) (n m : Nat) (g : Lane → Lane) (k : Nat) : (d.updLane n m g).lport k = d.lport k := rfl
@[simp] theorem Dev.updLane_port (d : Dev) (n m : Nat) (g : Lane → Lane) (k : Nat) : (d.updLane n m g).port k = d.port k := rfl

/-! ### updUnit -/
@[simp] theorem Dev.updUnit_regs (d : Dev) (n m : Nat) (g : SscUnit → SscUnit) : (d.updUnit n m g).regs = d.regs := rfl
@[simp] theorem Dev.updUnit_out (d : Dev) (n m : Nat) (g : SscUnit → SscUnit) : (d.updUnit n m g).out = d.out := rfl
@[simp] theorem Dev.updUnit_draws (d : Dev) (n m : Nat) (g : SscUnit → SscUnit) : (d.updUnit n m g).draws = d.draws := rfl
@[simp] theorem Dev.updUnit_xb (d : Dev) (n m : Nat) (g : SscUnit → SscUnit) : (d.updUnit n m g).xb = d.xb := rfl
@[simp] theorem Dev.updUnit_ecc (d : Dev) (n m : Nat) (g : SscUnit → SscUnit) : (d.updUnit n m g).ecc = d.ecc := rfl
@[simp] theorem Dev.updUnit_struct (d : Dev) (n m : Nat) (g : SscUnit → SscUnit) : (d.updUnit n m g).struct = d.struct := rfl
@[simp] theorem Dev.updUnit_seqs (d : Dev) (n m : Nat) (g : SscUnit → SscUnit) : (d.updUnit n m g).seqs = d.seqs := rfl
@[simp] theorem Dev.updUnit_chns (d : Dev) (n m : Nat) (g : SscUnit → SscUnit) : (d.updUnit n m g).chns = d.chns := rfl
@[simp] theorem Dev.updUnit_health (d : Dev) (n m : Nat) (g : SscUnit → SscUnit) : (d.updUnit n m g).health = d.health := rfl
@[simp] theorem Dev.updUnit_healthGen (d : Dev) (n m : Nat) (g : SscUnit → SscUnit) : (d.updUnit n m g).healthGen = d.healthGen := rfl
@[simp] theorem Dev.updUnit_host (d : Dev) (n m : Nat) (g : SscUnit → SscUnit) : (d.updUnit n m g).host = d.host := rfl
@[simp] theorem Dev.updUnit_chain (d : Dev) (n m : Nat) (g : SscUnit → SscUnit) : (d.updUnit n m g).chain = d.chain := rfl
@[simp] theorem Dev.updUnit_cipher (d : Dev) (n m : Nat) (g : SscUnit → SscUnit) : (d.updUnit n m g).cipher = d.cipher := rfl
@[simp] theorem Dev.updUnit_comp (d : Dev) (n m : Nat) (g : SscUnit → SscUnit) : (d.updUnit n m g).comp = d.comp := rfl
@[simp] theorem Dev.updUnit_spins (d : Dev) (n m : Nat) (g : SscUnit → SscUnit) : (d.updUnit n m g).spins = d.spins := rfl
@[simp] theorem Dev.updUnit_power (d : Dev) (n m : Nat) (g : SscUnit → SscUnit) : (d.updUnit n m g).power = d.power := rfl
@[simp] theorem Dev.updUnit_therm (d : Dev) (n m : Nat) (g : SscUnit → SscUnit) : (d.updUnit n m g).therm = d.therm := rfl
@[simp] theorem Dev.updUnit_reset (d : Dev) (n m : Nat) (g : SscUnit → SscUnit) : (d.updUnit n m g).reset = d.reset := rfl
@[simp] theorem Dev.updUnit_card (d : Dev) (n m : Nat) (g : SscUnit → SscUnit) : (d.updUnit n m g).card = d.card := rfl
@[simp] theorem Dev.updUnit_sec (d : Dev) (n m : Nat) (g : SscUnit → SscUnit) : (d.updUnit n m g).sec = d.sec := rfl
@[simp] theorem Dev.updUnit_fw (d : Dev) (n m : Nat) (g : SscUnit → SscUnit) : (d.updUnit n m g).fw = d.fw := rfl
@[simp] theorem Dev.updUnit_map (d : Dev) (n m : Nat) (g : SscUnit → SscUnit) : (d.updUnit n m g).map = d.map := rfl
@[simp] theorem Dev.updUnit_rd (d : Dev) (n m : Nat) (g : SscUnit → SscUnit) (f' : Fld) (k l : Nat) : (d.updUnit n m g).rd f' k l = d.rd f' k l := rfl
@[simp] theorem Dev.updUnit_seq (d : Dev) (n m : Nat) (g : SscUnit → SscUnit) (k : Nat) : (d.updUnit n m g).seq k = d.seq k := rfl
@[simp] theorem Dev.updUnit_chn (d : Dev) (n m : Nat) (g : SscUnit → SscUnit) (k : Nat) : (d.updUnit n m g).chn k = d.chn k := rfl
@[simp] theorem Dev.updUnit_headHealth (d : Dev) (n m : Nat) (g : SscUnit → SscUnit) (k : Nat) : (d.updUnit n m g).headHealth k = d.headHealth k := rfl
@[simp] theorem Dev.updUnit_spin (d : Dev) (n m : Nat) (g : SscUnit → SscUnit) (k : Nat) : (d.updUnit n m g).spin k = d.spin k := rfl
@[simp] theorem Dev.updUnit_section (d : Dev) (n m : Nat) (g : SscUnit → SscUnit) (k l : Nat) : (d.updUnit n m g).section k l = d.section k l := rfl
@[simp] theorem Dev.updUnit_secField (d : Dev) (n m : Nat) (g : SscUnit → SscUnit) (k l x y : Nat) : (d.updUnit n m g).secField k l x y = d.secField k l x y := rfl
@[simp] theorem Dev.updUnit_hdaPresent (d : Dev) (n m : Nat) (g : SscUnit → SscUnit) (k : Nat) : (d.updUnit n m g).hdaPresent k = d.hdaPresent k := rfl
@[simp] theorem Dev.updUnit_actPresent (d : Dev) (n m : Nat) (g : SscUnit → SscUnit) (k : Nat) : (d.updUnit n m g).actPresent k = d.actPresent k := rfl
@[simp] theorem Dev.updUnit_lport (d : Dev) (n m : Nat) (g : SscUnit → SscUnit) (k : Nat) : (d.updUnit n m g).lport k = d.lport k := rfl
@[simp] theorem Dev.updUnit_port (d : Dev) (n m : Nat) (g : SscUnit → SscUnit) (k : Nat) : (d.updUnit n m g).port k = d.port k := rfl

/-! ### updChain -/
@[simp] theorem Dev.updChain_regs (d : Dev) (g : ChainState → ChainState) : (d.updChain g).regs = d.regs := rfl
@[simp] theorem Dev.updChain_out (d : Dev) (g : ChainState → ChainState) : (d.updChain g).out = d.out := rfl
@[simp] theorem Dev.updChain_draws (d : Dev) (g : ChainState → ChainState) : (d.updChain g).draws = d.draws := rfl
@[simp] theorem Dev.updChain_xb (d : Dev) (g : ChainState → ChainState) : (d.updChain g).xb = d.xb := rfl
@[simp] theorem Dev.updChain_ecc (d : Dev) (g : ChainState → ChainState) : (d.updChain g).ecc = d.ecc := rfl
@[simp] theorem Dev.updChain_struct (d : Dev) (g : ChainState → ChainState) : (d.updChain g).struct = d.struct := rfl
@[simp] theorem Dev.updChain_seqs (d : Dev) (g : ChainState → ChainState) : (d.updChain g).seqs = d.seqs := rfl
@[simp] theorem Dev.updChain_chns (d : Dev) (g : ChainState → ChainState) : (d.updChain g).chns = d.chns := rfl
@[simp] theorem Dev.updChain_health (d : Dev) (g : ChainState → ChainState) : (d.updChain g).health = d.health := rfl
@[simp] theorem Dev.updChain_healthGen (d : Dev) (g : ChainState → ChainState) : (d.updChain g).healthGen = d.healthGen := rfl
@[simp] theorem Dev.updChain_host (d : Dev) (g : ChainState → ChainState) : (d.updChain g).host = d.host := rfl
@[simp] theorem Dev.updChain_cipher (d : Dev) (g : ChainState → ChainState) : (d.updChain g).cipher = d.cipher := rfl
@[simp] theorem Dev.updChain_comp (d : Dev) (g : ChainState → ChainState) : (d.updChain g).comp = d.comp := rfl
@[simp] theorem Dev.updChain_servos (d : Dev) (g : ChainState → ChainState) : (d.updChain g).servos = d.servos := rfl
@[simp] theorem Dev.updChain_spins (d : Dev) (g : ChainState → ChainState) : (d.updChain g).spins = d.spins := rfl
@[simp] theorem Dev.updChain_power (d : Dev) (g : ChainState → ChainState) : (d.updChain g).power = d.power := rfl
@[simp] theorem Dev.updChain_therm (d : Dev) (g : ChainState → ChainState) : (d.updChain g).therm = d.therm := rfl
@[simp] theorem Dev.updChain_reset (d : Dev) (g : ChainState → ChainState) : (d.updChain g).reset = d.reset := rfl
@[simp] theorem Dev.updChain_card (d : Dev) (g : ChainState → ChainState) : (d.updChain g).card = d.card := rfl
@[simp] theorem Dev.updChain_sec (d : Dev) (g : ChainState → ChainState) : (d.updChain g).sec = d.sec := rfl
@[simp] theorem Dev.updChain_fw (d : Dev) (g : ChainState → ChainState) : (d.updChain g).fw = d.fw := rfl
@[simp] theorem Dev.updChain_map (d : Dev) (g : ChainState → ChainState) : (d.updChain g).map = d.map := rfl
@[simp] theorem Dev.updChain_chain (d : Dev) (g : ChainState → ChainState) : (d.updChain g).chain = g d.chain := rfl
@[simp] theorem Dev.updChain_rd (d : Dev) (g : ChainState → ChainState) (f' : Fld) (k l : Nat) : (d.updChain g).rd f' k l = d.rd f' k l := rfl
@[simp] theorem Dev.updChain_seq (d : Dev) (g : ChainState → ChainState) (k : Nat) : (d.updChain g).seq k = d.seq k := rfl
@[simp] theorem Dev.updChain_chn (d : Dev) (g : ChainState → ChainState) (k : Nat) : (d.updChain g).chn k = d.chn k := rfl
@[simp] theorem Dev.updChain_headHealth (d : Dev) (g : ChainState → ChainState) (k : Nat) : (d.updChain g).headHealth k = d.headHealth k := rfl
@[simp] theorem Dev.updChain_servo (d : Dev) (g : ChainState → ChainState) (k : Nat) : (d.updChain g).servo k = d.servo k := rfl
@[simp] theorem Dev.updChain_spin (d : Dev) (g : ChainState → ChainState) (k : Nat) : (d.updChain g).spin k = d.spin k := rfl
@[simp] theorem Dev.updChain_section (d : Dev) (g : ChainState → ChainState) (k l : Nat) : (d.updChain g).section k l = d.section k l := rfl
@[simp] theorem Dev.updChain_secField (d : Dev) (g : ChainState → ChainState) (k l x y : Nat) : (d.updChain g).secField k l x y = d.secField k l x y := rfl
@[simp] theorem Dev.updChain_hdaPresent (d : Dev) (g : ChainState → ChainState) (k : Nat) : (d.updChain g).hdaPresent k = d.hdaPresent k := rfl
@[simp] theorem Dev.updChain_actPresent (d : Dev) (g : ChainState → ChainState) (k : Nat) : (d.updChain g).actPresent k = d.actPresent k := rfl
@[simp] theorem Dev.updChain_port (d : Dev) (g : ChainState → ChainState) (k : Nat) : (d.updChain g).port k = d.port k := rfl

@[simp] theorem Dev.emit_out (d : Dev) (e : Emit) : (d.emit e).out = e :: d.out := rfl
@[simp] theorem Dev.drawn_draws (d : Dev) : d.draw.2.draws = d.draws + 1 := rfl
theorem Dev.draw_val (d : Dev) : d.draw.1 = Config.freeValue d.draws := rfl

/-! ### Records kept by number -/
@[simp] theorem Dev.updPort_port (d : Dev) (h : Nat) (g : Port → Port) (k : Nat) :
    (d.updPort h g).port k = if k = h then g (d.port h) else d.port k := by
  unfold Dev.updPort Dev.port; exact tabGet_tabPut ..
@[simp] theorem Dev.updLport_lport (d : Dev) (p : Nat) (g : LPort → LPort) (k : Nat) :
    (d.updLport p g).lport k = if k = p then g (d.lport p) else d.lport k := by
  unfold Dev.updLport Dev.lport; exact tabGet_tabPut ..
/-! ### What a command answers -/
@[simp] theorem lift_next (s : State) (g : Dev → Dev) : lift s g = .next { s with dev := g s.dev } := rfl
@[simp] theorem liftMem_next (s : State) (g : Dev → List Host.Cell → Dev × List Host.Cell) :
    liftMem s g = .next { s with dev := (g s.dev s.mem).1, mem := (g s.dev s.mem).2 } := rfl

end Sys2Proof.Machine
end

