-- ==== Sys2Proof/Laws/Regs.lean ====
section
/-! SUPPORT. Register fields: what a write leaves at each field, and the derived reads and writes in terms of `rd` and `wr`. -/
namespace Sys2Proof.Machine

/-- Keys of different fields differ. -/
theorem fldKey_ne {f g : Fld} (h : f.id ≠ g.id) (i j k l : Nat) : fldKey f i j ≠ fldKey g k l := by
  unfold fldKey; omega

/-- Keys of one field are equal exactly where instance and entry are. -/
theorem fldKey_eq_iff (f : Fld) (i j k l : Nat) : fldKey f i j = fldKey f k l ↔ i % 64 = k % 64 ∧ j % 1024 = l % 1024 := by
  unfold fldKey; omega

theorem Dev.rd_wr_ne (d : Dev) (f g : Fld) (v i j k l : Nat) (h : f.id ≠ g.id) : (d.wr f v i j).rd g k l = d.rd g k l := by
  unfold Dev.rd Dev.wr
  have := fldKey_ne h i j k l
  exact tabGet_tabPut_ne _ _ _ _ _ _ this.symm

theorem fldReset_mod (f : Fld) (j l : Nat) (h : j % 1024 = l % 1024) : fldReset f j = fldReset f l := by
  simp [fldReset, h]

theorem Dev.rd_wr_self (d : Dev) (f : Fld) (v i j k l : Nat) :
    (d.wr f v i j).rd f k l = if k % 64 = i % 64 ∧ l % 1024 = j % 1024 then v % 2 ^ f.w else d.rd f k l := by
  by_cases h : k % 64 = i % 64 ∧ l % 1024 = j % 1024
  · have hk : fldKey f k l = fldKey f i j := (fldKey_eq_iff ..).2 h
    simp only [h, and_self, if_true, Dev.rd, Dev.wr, fldReset_mod f l j h.2, hk, tabGet_tabPut]
  · have hk : fldKey f k l ≠ fldKey f i j := fun e => h ((fldKey_eq_iff ..).1 e)
    unfold Dev.rd Dev.wr
    simp only [h, if_false]
    exact tabGet_tabPut_ne _ _ _ _ _ _ hk

@[simp] theorem Dev.rd_wr_same (d : Dev) (f : Fld) (v i j : Nat) : (d.wr f v i j).rd f i j = v % 2 ^ f.w := by
  simp [Dev.rd_wr_self]

theorem Dev.rd_wr_lt (d : Dev) (f : Fld) (v i j : Nat) (h : v < 2 ^ f.w) : (d.wr f v i j).rd f i j = v := by
  simp [Nat.mod_eq_of_lt h]

/-! ### Derived reads and writes -/

theorem Dev.setFlag_eq (d : Dev) (f : Fld) (b : Bool) (i j : Nat) : d.setFlag f b i j = d.wr f b.toNat i j := rfl
theorem Dev.addSat_eq (d : Dev) (f : Fld) (n i j : Nat) : d.addSat f n i j = d.wr f (satTo f.w (d.rd f i j + n)) i j := rfl
theorem Dev.addWrap_eq (d : Dev) (f : Fld) (n i j : Nat) : d.addWrap f n i j = d.wr f (d.rd f i j + n) i j := rfl
theorem Dev.sub_eq (d : Dev) (f : Fld) (n i j : Nat) : d.sub f n i j = d.wr f (d.rd f i j - n) i j := rfl
theorem Dev.flag_eq (d : Dev) (f : Fld) (i j : Nat) : d.flag f i j = (d.rd f i j != 0) := rfl
theorem Dev.bit_eq (d : Dev) (f : Fld) (b i j : Nat) : d.bit f b i j = (d.rd f i j).testBit b := rfl

theorem Dev.flag_setFlag (d : Dev) (f : Fld) (b : Bool) (i j : Nat) (h : f.w ≠ 0) : (d.setFlag f b i j).flag f i j = b := by
  have : 1 < 2 ^ f.w := Nat.one_lt_two_pow h
  cases b <;> simp [Dev.flag, Dev.setFlag, Nat.mod_eq_of_lt this]

theorem Dev.flag_wr_ne (d : Dev) (f g : Fld) (v i j k l : Nat) (h : f.id ≠ g.id) : (d.wr f v i j).flag g k l = d.flag g k l := by
  simp [Dev.flag, Dev.rd_wr_ne _ _ _ _ _ _ _ _ h]

theorem Dev.flag_setFlag_ne (d : Dev) (f g : Fld) (b : Bool) (i j k l : Nat) (h : f.id ≠ g.id) :
    (d.setFlag f b i j).flag g k l = d.flag g k l := Dev.flag_wr_ne _ _ _ _ _ _ _ _ h

end Sys2Proof.Machine
end

