-- ==== Sys2Proof/Laws/Frame.lean ====
section
/-! SUPPORT. Which register fields the shared operations can change. -/
namespace Sys2Proof.Machine

theorem KeepsRegs.rfl' {ids : List Nat} {d : Dev} : KeepsRegs ids d d := fun _ _ _ _ => rfl

theorem KeepsRegs.trans {ids : List Nat} {d e g : Dev} (h : KeepsRegs ids d e) (k : KeepsRegs ids e g) : KeepsRegs ids d g :=
  fun f i j hf => (k f i j hf).trans (h f i j hf)

theorem KeepsRegs.mono {ids jds : List Nat} {d e : Dev} (h : KeepsRegs ids d e) (hs : ∀ x ∈ ids, x ∈ jds) : KeepsRegs jds d e :=
  fun f i j hf => h f i j fun hi => hf (hs _ hi)

theorem KeepsRegs.of_regs {ids : List Nat} {d e : Dev} (h : e.regs = d.regs) : KeepsRegs ids d e :=
  fun f i j _ => by unfold Dev.rd; rw [h]

theorem keepsRegs_wr {ids : List Nat} (d : Dev) (f : Fld) (v i j : Nat) (h : f.id ∈ ids) : KeepsRegs ids d (d.wr f v i j) :=
  fun g k l hg => Dev.rd_wr_ne d f g v i j k l fun e => hg (e ▸ h)

theorem keepsRegs_forEach {α : Type} {ids : List Nat} (l : List α) (d : Dev) (g : Dev → α → Dev)
    (h : ∀ d x, x ∈ l → KeepsRegs ids d (g d x)) : KeepsRegs ids d (forEach l d g) := by
  unfold forEach
  induction l generalizing d with
  | nil => exact KeepsRegs.rfl'
  | cons x t ih => exact (h d x (by simp)).trans (ih (g d x) fun d y hy => h d y (by simp [hy]))

theorem keepsRegs_ite {ids : List Nat} {d e g : Dev} {p : Prop} [Decidable p] (h : KeepsRegs ids d e) (k : KeepsRegs ids d g) :
    KeepsRegs ids d (if p then e else g) := by split <;> assumption

theorem KeepsRegs.eq {ids : List Nat} {d e : Dev} (h : KeepsRegs ids d e) {f : Fld} (hf : f.id ∉ ids) (i j : Nat) :
    e.rd f i j = d.rd f i j := h f i j hf

/-! ### Shared operations -/

theorem keepsRegs_setDom (d : Dev) (k v : Nat) : KeepsRegs [F.pwrDom_dom.id] d (setDom d k v) :=
  keepsRegs_ite .rfl' (keepsRegs_wr d _ _ _ _ (by simp))

theorem keepsRegs_leaveCs2 (d : Dev) : KeepsRegs [F.pwrCs_state.id, F.pwrCs_target.id, F.pwrDom_dom.id] d (leaveCs2 d) :=
  ((keepsRegs_wr d _ _ _ _ (by simp)).trans (keepsRegs_wr _ _ _ _ _ (by simp))).trans
    (keepsRegs_forEach _ _ _ fun e k _ => (keepsRegs_setDom e k 0).mono (by simp))

theorem keepsRegs_wakeCs2 (d : Dev) : KeepsRegs [F.pwrCs_state.id, F.pwrCs_target.id, F.pwrDom_dom.id] d (wakeCs2 d) :=
  keepsRegs_ite (keepsRegs_leaveCs2 d) .rfl'

theorem keepsRegs_applyLimits (d : Dev) : KeepsRegs [F.pwrPs_streams.id, F.pwrPs_throttling.id, F.pwrPs_speed_cap.id,
    F.pwrPs_host_width.id, F.pwrPs_engines.id, F.spnStat_command.id] d (applyLimits d) := by
  unfold applyLimits
  refine ((((keepsRegs_wr d _ _ _ _ (by simp)).trans (keepsRegs_wr _ _ _ _ _ (by simp))).trans
    (keepsRegs_wr _ _ _ _ _ (by simp))).trans (keepsRegs_wr _ _ _ _ _ (by simp))).trans
    ((keepsRegs_wr _ _ _ _ _ (by simp)).trans (keepsRegs_forEach _ _ _ fun e n _ => keepsRegs_wr e _ _ _ _ (by simp)))

end Sys2Proof.Machine
end

