-- ==== Sys2Proof/Laws/Media.lean ====
section
/-! SUPPORT. What the code of ldpc_code 0 does with the word of zeros, how a decode of it ends (R214, R215), and bytes with bits in
error. -/
namespace Sys2Proof.Machine

theorem foldl_xor_false {α : Type} (l : List α) (g : α → Bool) (h : ∀ x, g x = false) :
    l.foldl (fun acc x => xor acc (g x)) false = false := by
  induction l with
  | nil => rfl
  | cons x t ih => simpa [h] using ih

theorem ldpcCheck_zero (k i : Nat) : ldpcCheck (Nat.testBit 0) k i = false :=
  foldl_xor_false _ _ fun _ => Nat.zero_testBit _

theorem ldpcAccepts_zero : ldpcAccepts (Nat.testBit 0) = true := by
  simp only [ldpcAccepts, ldpcCheck_zero, Bool.not_false, List.all_eq_true, implies_true]

theorem decodeOk_zero (limit : Nat) (res : DecodeRes) (hw : res.word = 0) (hi : res.iters ≤ limit) : decodeOk limit res = true := by
  simp [decodeOk, hw, hi, ldpcAccepts_zero]

theorem decodeFits_zero (d : Dev) (c limit : Nat) (res : DecodeRes) (hw : res.word = 0) (hi : res.iters ≤ limit)
    (hl : res.llr.length = detectorPasses res.iters (d.rd F.chnDecode_pass_len c)) : decodeFits d c limit res = true := by
  simp [decodeFits, usedIters, decodeOk_zero limit res hw hi, hl]

/-- Bytes with no bit in error are as they were. -/
theorem flipBits_nil (b : List Byte) : flipBits [] b = b := by simp [flipBits]

/-- Bits in error leave the number of bytes as it is. -/
theorem flipBits_length (errs : List Nat) (b : List Byte) : (flipBits errs b).length = b.length := by simp [flipBits]

end Sys2Proof.Machine
end

