-- ==== Sys2Proof/Laws/Memory.lean ====
section
/-! SUPPORT. The addressed windows: what one stored byte leaves, that every operation on the windows keeps their canonical form,
and little-endian fields. -/
namespace Sys2Proof.Machine

/-! ### One byte -/

theorem memByte_memPut (m : List Host.Cell) (a : Nat) (b : Byte) (x : Nat) :
    memByte (memPut m a b) x = if x = a then b else memByte m x := by
  unfold memByte memPut
  split
  · next h => subst h; rw [tabGet_tabPut]; simp
  · next h => exact tabGet_tabPut_ne _ _ _ _ _ _ h

@[simp] theorem memByte_memPut_self (m : List Host.Cell) (a : Nat) (b : Byte) : memByte (memPut m a b) a = b := by
  rw [memByte_memPut, if_pos rfl]

theorem memByte_memPut_ne (m : List Host.Cell) (a : Nat) (b : Byte) (x : Nat) (h : x ≠ a) :
    memByte (memPut m a b) x = memByte m x := by rw [memByte_memPut, if_neg h]

@[simp] theorem memByte_nil (x : Nat) : memByte [] x = memDefault x := rfl

@[simp] theorem memWrite_zero (m : List Host.Cell) (a v : Nat) : memWrite m a v 0 = m := rfl
theorem memWrite_succ (m : List Host.Cell) (a v n : Nat) :
    memWrite m a v (n + 1) = memWrite (memPut m a (BitVec.ofNat 8 v)) (a + 1) (v / 256) n := rfl
@[simp] theorem memRead_zero (m : List Host.Cell) (a : Nat) : memRead m a 0 = 0 := rfl
theorem memRead_succ (m : List Host.Cell) (a n : Nat) : memRead m a (n + 1) = (memByte m a).toNat + 256 * memRead m (a + 1) n := rfl

/-! ### The canonical form -/

theorem Memory.wf_nil : Memory.wf [] := rfl

theorem Memory.wf_put {m : List Host.Cell} (h : Memory.wf m) (a : Nat) (b : Byte) : Memory.wf (memPut m a b) :=
  tabWf_put memDefault m a b h

theorem Memory.wf_write {m : List Host.Cell} (h : Memory.wf m) (a v n : Nat) : Memory.wf (memWrite m a v n) := by
  induction n generalizing m a v with
  | zero => exact h
  | succ n ih => exact ih (Memory.wf_put h _ _) _ _

theorem Memory.wf_zero {m : List Host.Cell} (h : Memory.wf m) (a n : Nat) : Memory.wf (memZero m a n) :=
  tabWf_filter memDefault _ m h

/-- A fold over the windows keeps the form where each round does. -/
theorem Memory.wf_foldl {α : Type} {l : List α} {g : List Host.Cell → α → List Host.Cell} {m : List Host.Cell} (h : Memory.wf m)
    (hg : ∀ m x, Memory.wf m → Memory.wf (g m x)) : Memory.wf (l.foldl g m) := by
  induction l generalizing m with
  | nil => exact h
  | cons x t ih => exact ih (hg m x h)

theorem Memory.wf_commitWord {m : List Host.Cell} (h : Memory.wf m) (a w v : Nat) : Memory.wf (commitWord m a w v) :=
  Memory.wf_write (Memory.wf_write h _ _ _) _ _ _

theorem Memory.wf_loadStores {m : List Host.Cell} (h : Memory.wf m) (ss : List Section) : Memory.wf (loadStores ss m) := by
  unfold loadStores
  exact Memory.wf_foldl (tabWf_filter memDefault _ m h) fun m s hm => Memory.wf_foldl hm fun m i hm => Memory.wf_commitWord hm _ _ _

theorem Memory.wf_wipeWindow {m : List Host.Cell} (h : Memory.wf m) (mac : Nat) : Memory.wf (wipeWindow m mac) := by
  unfold wipeWindow
  split
  · exact Memory.wf_zero h _ _
  · split
    · exact Memory.wf_foldl h fun m w hm => Memory.wf_commitWord hm _ _ _
    · split
      · exact Memory.wf_zero h _ _
      · exact h

/-! ### Little-endian fields -/

@[simp] theorem length_toBytes (v n : Nat) : (toBytes v n).length = n := by
  induction n generalizing v with
  | zero => rfl
  | succ n ih => simp [toBytes, ih]

/-- A field read from the middle of three pieces of bytes is what was put there, cut to its bytes. -/
theorem leBytes_mid (a c : List Byte) (v n : Nat) : leBytes (a ++ toBytes v n ++ c) a.length n = v % 256 ^ n := by
  have h : (((a ++ toBytes v n ++ c).drop a.length).take n) = toBytes v n := by
    rw [List.append_assoc, List.drop_left, List.take_append_of_le_length (by simp), List.take_of_length_le (by simp)]
  unfold leBytes
  rw [h]
  clear h
  induction n generalizing v with
  | zero => simp [toBytes, Nat.mod_one]
  | succ n ih =>
    simp only [toBytes, List.foldr_cons, ih, BitVec.toNat_ofNat]
    rw [show (256 : Nat) ^ (n + 1) = 256 * 256 ^ n by ring, Nat.mod_mul]

/-- A field within the first piece does not see what follows. -/
theorem leBytes_left (a b : List Byte) (off n : Nat) (h : off + n ≤ a.length) : leBytes (a ++ b) off n = leBytes a off n := by
  unfold leBytes
  rw [List.drop_append_of_le_length (by omega), List.take_append_of_le_length (by simp; omega)]

end Sys2Proof.Machine
end

