-- ==== Sys2Proof/Tests/Slice0.lean ====
section
/-! SUPPORT. Tests: for every statement with hypotheses, states and operands that meet them (`test_meets_…`); ill-formed commands
refused; and the spec's worked examples. -/
section
set_option Elab.async false
open Sys2Proof Sys2Proof.Machine

/-! ### Small states the witnesses share -/
def tBytes (l : List Nat) : List Byte := l.map (BitVec.ofNat 8)
def tSections : List Sys2Proof.Machine.Section := [
  ⟨2, 0, tBytes [1, 6, 8, 0, 0, 0, 0, 0, 1, 6, 8, 0, 0, 0, 0, 0, 0, 8, 0, 0, 0, 0, 0, 0, 0, 8, 0, 0, 0, 0, 0, 0, 0, 8, 0, 0, 0, 0,
    0, 0, 0, 8, 0, 0, 0, 0, 0, 0, 255, 255, 255, 255]⟩,
  ⟨3, 0, tBytes [1, 1, 2, 10, 1, 8, 14, 13, 194, 1, 80, 195, 0, 0, 0, 0]⟩,
  ⟨5, 0, tBytes [0, 2, 0, 16, 0, 2, 0, 1, 232, 3, 0, 0, 10, 1, 0, 0, 3, 0, 0, 0, 0, 0, 0, 0, 0, 0, 0, 0, 0, 0, 0, 0, 0, 0, 0, 0,
    207, 7, 0, 0, 220, 3, 1, 0, 0, 0, 0, 0, 208, 7, 0, 0, 95, 9, 0, 0, 220, 3, 0, 0, 0, 0, 0, 0, 96, 9, 0, 0, 239, 10, 0, 0,
    132, 3, 0, 0, 0, 0, 0, 0]⟩,
  ⟨8, 0, tBytes [0, 192, 0, 0, 0, 192, 0, 0, 0, 64, 0, 0, 0, 128, 0, 0]⟩,
  ⟨9, 0, tBytes [32, 0, 85, 33, 0, 0, 0, 0, 0, 32, 0, 0, 131, 72, 0, 0, 0, 8, 0, 0, 0, 0, 0, 0, 4, 0, 0, 0, 64, 0, 0, 0, 0, 0, 0, 0,
    0, 1, 0, 0]⟩,
  ⟨13, 0, tBytes [30, 6, 0, 0, 20, 0, 0, 0, 48, 87, 5, 0, 0, 9, 61, 0, 192, 225, 228, 0, 45, 32, 24, 25, 0, 32, 0, 0, 30, 0, 88, 2]⟩,
  ⟨14, 0, tBytes [3, 0, 200, 0, 100, 0, 0, 0, 0, 0, 0, 0, 16, 14, 0, 0, 208, 7, 0, 0, 24, 21, 0, 0, 160, 15, 0, 0, 32, 28, 0, 0]⟩,
  ⟨15, 0, tBytes [2, 2, 1, 2, 0, 0, 0, 0]⟩]
/-- The reset state under a structure with one HDA of two actuators and one host port. -/
def tSt (f : Dev → Dev) : State := { dev := f { struct := { sections := tSections } } }
/-- The same, with its port enabled and ready. -/
def tHost (f : Dev → Dev) : State := tSt fun d => f (d.updPort 0 fun p => { p with linkUp := true, enabled := true, ready := true })
def tNs : Ns := { nsid := 1, zoned := false, nsze := 64, cls := 0, parity := 0, actMask := 1, kpio := false, ctrls := [1], zones := [{ act := 0, headA := 0, headB := 1, bandA := 0, bandB := 0 }] }
def tCmd (k : IoKind) : IoCmd := { kind := k, nsid := 1, slba := 8, count := 1, toks := [44] }
def tCtx (k : IoKind) (st : Stage) : Ctx := { id := 5, fe := 0, org := .host 0 2 7, c := tCmd k, stage := st }
def tExt (cov : Bool) : Extent := { wid := 5, nsid := 1, cells := [{ lba := 8, now := { wid := 5, pair := 3, blk := .data 44, hda := 0, act := 0, covered := cov } }] }
/-- One namespace, the contexts `xs` and the extents `es`. -/
def tWork (xs : List Ctx) (es : List Extent) : State :=
  tHost fun d => { (((d.wr F.hstCtxStat_share 512 0).wr F.hstBound_bound 2 0).wr F.pwrHoldB_bound 2 0 0).updHost fun x =>
    { x with nss := [tNs], ctxs := xs, extents := es, nextId := 6 } with cipher := { nsPair := [(1, 3)] } }
def tAdm (ns : Ns) : State := tHost fun d => { (((d.wr F.hstCtxStat_share 512 0).setFlag F.cphStat_drbg_ok true).setFlag F.cphStat_kek_loaded true).updHost fun x => { x with nss := [ns], nextId := 6 } with cipher := { nsPair := [(1, 3)] } }
def tZone : Zone := { act := 0, headA := 0, headB := 1, bandA := 0, bandB := 0 }
def tZns : Ns := { tNs with zoned := true, nsze := 131072, zones := [tZone] }
def tFrame : CFrame := { level := 1, gcm := false, history := false, origLen := 0, compLen := 4097, ctxId := 9, chunkSeq := 0, crcOrig := 0, nonce := 0, histCrc := 0, stream := [] }
def tComp (k : IoKind) (st : Stage) : Ctx := { tCtx k st with c := { tCmd k with ctx := 9 } }
def tFr : Frame := { dest := 0, src := 1, budget := 500, tc := 2, ty := 3, enc := false, path := false, turned := false, poison := false, attempt := 0, last := true, length := 4, tag := 9, seq := 4095, spec := [], body := [] }
def tCmdFrame : Frame := { tFr with src := 2, spec := [0, 1], body := [0, 0, 8, 1] }
/-- A target with the entry `e`, port 3 up and a default route through it. -/
def tTarget (e : List Dedupe) : State := let s := tWork [] []; { s with dev := { ((((((s.dev.setFlag F.lmlCfg_used true 3).wr F.lmlStat_state 3 3).setFlag F.lmlStat_routed true 3).setFlag F.lmlRt_valid true 0 0).wr F.lmlRt_primary 3 0 0).wr F.lmlRt_alternate 3 0 0).setFlag F.lmlRt_alt_valid true 0 0 with chain := { dedupe := e } } }

theorem test_meets_ControlPlaneRowsComplete :
    (∃ (s : State) (addr : Nat) (n : Nat) (off : Nat) (i : Nat) (k : Nat) (a : Area) (r : Reg),
      ((∀ x ∈ s.dev.power.stalled, mayPerform s.dev x.2.1 = false)) ∧ s.dev.reset.held = false ∧ s.dev.reset.waitCool = false ∧ addr < 2 ^ 32 ∧ areaOf addr = some (a, off) ∧ placeOf a off = .reg r i k ∧ r ≠ Reg.evrWindow ∧ legalSize off n = true ∧ domState s.dev (areaDom a) = 0) ∧
    (∃ (s : State) (c : Fin 8) (addr : Nat) (n : Nat) (off : Nat) (i : Nat) (k : Nat) (data : BitVec 64) (a : Area) (r : Reg) (mask : Nat) (value : Nat) (e : Dev × List Host.Cell),
      ((∀ x ∈ s.dev.power.stalled, mayPerform s.dev x.2.1 = false)) ∧ s.dev.reset.held = false ∧ s.dev.reset.waitCool = false ∧ addr < 2 ^ 32 ∧ areaOf addr = some (a, off) ∧ placeOf a off = .reg r i k ∧ legalSize off n = true ∧ domState s.dev (areaDom a) = 0 ∧ mask = (2 ^ (8 * n) - 1) * 2 ^ (8 * (off % 8)) ∧ value = data.toNat * 2 ^ (8 * (off % 8)) ∧ e = writeEffect (.core c) r i k mask value s.dev (regWrite s.dev r i k mask value) s.mem) ∧
    (∃ (s : State) (addr : Nat) (off : Nat) (a : Area),
      addr < 2 ^ 32 ∧ areaOf addr = some (a, off) ∧ placeOf a off ≠ .hole ∧ mayPerform s.dev addr = true) ∧
    (∃ (s : State) (dom : DomId) (d : Dev),
      domState s.dev dom.val = 1 ∧ stalledOn s.dev dom.val ≠ [] ∧ d = (((s.dev.wr F.pwrDom_dom 0 0 dom.val).wr F.pwrWake_last_dom dom.val).addSat F.pwrWake_wakes 1).setFlag F.pwrWake_seen true) ∧
    (∃ (s : State) (dom : DomId),
      stalledOn s.dev dom.val = []) ∧
    (∃ (s : State),
      s.dev.rd F.pwrCs_state = 0 ∧ s.dev.rd F.dbgStat_jtag_level = 2) ∧
    (∃ (s : State) (addr : Nat) (n : Nat) (e : Dev × List Host.Cell),
      s.dev.rd F.pwrCs_state = 0 ∧ 1 ≤ s.dev.rd F.dbgStat_jtag_level ∧ e = busAccess .dbg addr (.rd n) s.dev s.mem) :=
  ⟨⟨tSt id, 0x1010C, 4, 0x10C, 0, 1, .block .pwr 0 0, Reg.pwrVote, by decide +kernel⟩,
   by refine ⟨tSt id, 3, 0x1010C, 4, 0x10C, 0, 1, 5, .block .pwr 0 0, Reg.pwrVote, _, _, _, ?_, ?_, ?_, ?_, ?_, ?_, ?_, ?_, rfl, rfl, rfl⟩ <;> decide +kernel,
   ⟨tSt id, 0x1010C, 0x10C, .block .pwr 0 0, by decide +kernel⟩,
   ⟨tSt fun d => { d.wr F.pwrDom_dom 1 0 22 with power := { stalled := [(.core 1, 0x860000, .rd 8)] } }, 22, _, by decide +kernel, by decide +kernel, rfl⟩,
   ⟨tSt fun d => d.setBit F.pwrVote_dom 22 true 0 7, 22, by decide +kernel⟩,
   ⟨tSt fun d => d.wr F.dbgStat_jtag_level 2, by decide +kernel⟩,
   ⟨tSt fun d => d.wr F.dbgStat_jtag_level 1, 0x10000, 8, _, by decide +kernel, by decide +kernel, rfl⟩⟩

/-- An XBAR section that gives traffic kind k the class k mod 8 from kind 3 on. -/
def tXbar (f : Dev → Dev) : State := { dev := f { struct := { sections := ⟨7, 0, List.replicate 0x48 0 ++ tBytes [0, 1, 2, 3, 4, 5, 5, 4, 3, 6]⟩ :: tSections } } }

theorem test_meets_CrossbarRowsComplete :
    (∃ (s : State) (cycle : Nat) (cls : Nat) (p : Packet),
      s.dev.xb.cycle ≤ cycle ∧ s.dev.xb.queued = [] ∧ s.dev.xb.medHeld = [] ∧ xbLegal p = true ∧ cls = xbClass s.dev p.kind ∧ cls < 7 ∧ tabGet 0 s.dev.xb.outFree p.out.val ≤ cycle ∧ tabGet 0 s.dev.xb.inFree p.inp.val ≤ cycle ∧ p.beats ≤ xbCredit s.dev.xb p.out.val cls) ∧
    (∃ (s : State) (out : Fin 8) (cycle : Nat) (f : XbFlight) (d : Dev) (poison : List Nat),
      s.dev.xb.flights.find? (fun f => f.p.out.val == out.val) = some f ∧ f.granted + 2 + f.p.beats ≤ cycle ∧ f.p.cmd = none ∧ poison = (List.range f.p.beats).filter (fun b => f.p.badBeats.contains b || f.p.poison.contains b) ∧ d = s.dev.updXb (fun x => { x with flights := listDrop (fun g => g == f) x.flights })) :=
  ⟨⟨tXbar fun d => d.updXb fun x => { x with cycle := 7, outFree := [(3, 9)], inFree := [(2, 9)], credit := [(30, 15)] }, 9, 6, { inp := 2, out := 3, kind := .homework, beats := 1, badBeats := [], poison := [], cmd := none }, by decide +kernel⟩,
   ⟨tSt fun d => d.updXb fun x => { x with flights := [{ granted := 4, cls := 6, p := { inp := 2, out := 3, kind := .homework, beats := 16, badBeats := [15], poison := [2], cmd := none } }] }, 3, 22, { granted := 4, cls := 6, p := { inp := 2, out := 3, kind := .homework, beats := 16, badBeats := [15], poison := [2], cmd := none } }, _, _, by decide +kernel, by decide +kernel, by decide +kernel, rfl, rfl⟩⟩

theorem test_meets_ClockAndRegionRowsComplete :
    (∃ (s : State) (h : HstId),
      s.dev.reset.held = false ∧ hostUsed s.dev h.val = true) ∧
    (∃ (s : State) (h : HstId),
      s.dev.reset.held = false ∧ s.dev.reset.lost.contains (.hst h) = true ∧ hostUsed s.dev h.val = true ∧ s.dev.bit F.glbPins_perst_n h.val = true ∧ s.dev.flag F.glbStart_boot_done = true ∧ s.dev.rd F.loop_depth h.val = 0) ∧
    (∃ (s : State) (chn : ChnId),
      (s.dev.chn chn.val).wg = false ∧ (s.dev.chn chn.val).pllOn = true) ∧
    (∃ (s : State) (pair : Fin 8),
      pairOver s.dev pair.val = true) ∧
    (∃ (s : State) (pair : Fin 8),
      pairOver s.dev pair.val = false ∧ s.dev.rd F.glbRegionStat_temp_over = 2 ^ pair.val ∧ s.dev.rd F.glbRegionStat_volt_over = 0 ∧ s.dev.rd F.thmStat_excluded ≤ 4) ∧
    (∃ (s : State) (target : Nat),
      avsStepOk (s.dev.rd F.glbAvs_target_mv) target = true) :=
  ⟨⟨tSt fun d => d.updPort 0 fun p => { p with linkUp := true, enabled := true }, 0, by decide +kernel⟩,
   ⟨tSt fun d => ((d.setBit F.glbPins_perst_n 0 true).setFlag F.glbStart_boot_done true).updReset fun r => { r with lost := [.hst 0] }, 0, by decide +kernel⟩,
   ⟨tSt fun d => d.updChn 15 fun c => { c with pllOn := true }, 15, by decide +kernel⟩,
   ⟨tSt fun d => d.wr F.thmRegion_temp 241 0 3, 7, by decide +kernel⟩,
   ⟨tSt fun d => ((d.wr F.glbRegionStat_temp_over 128).wr F.thmStat_excluded 4).setFlag F.thmStat_fixed true, 7, by decide +kernel⟩,
   ⟨tSt fun d => d.wr F.glbAvs_target_mv 800, 790, by decide +kernel⟩⟩

theorem test_meets_ThermalRowsComplete :
    (∃ (s : State) (temps : List Int) (i : Fin 28) (raw : List Int),
      s.dev.reset.held = false ∧ s.dev.rd F.thmStat_phase ≠ 0 ∧ s.dev.therm.hotFix < 9 ∧ raw = (temps.getD i.val 0 :: tabGet [] s.dev.therm.raw i.val).take 10) ∧
    (∃ (s : State),
      3000 ≤ s.dev.therm.quiet ∧ s.dev.rd F.thmStat_step ≠ 0 ∧ s.dev.rd F.thmStat_step ≤ 3 ∧ s.dev.flag F.thmStat_fixed = false) ∧
    (∃ (s : State) (sensor : Fin 28),
      100 < tabGet 0 s.dev.therm.dev sensor.val ∧ sensorExcluded s.dev sensor.val = false) ∧
    (∃ (s : State) (sensor : Fin 28),
      sensorExcluded s.dev sensor.val = false ∧ s.dev.reset.waitCool = false) ∧
    (∃ (s : State),
      s.dev.rd F.thmStat_phase = 1 ∧ ((∀ n ∈ presentHdas s.dev, s.dev.bit F.glbStart_hs0_seen n = true))) ∧
    (∃ (s : State),
      s.dev.rd F.thmStat_phase = 1) ∧
    (∃ (s : State) (a : ActId) (h : HeadId),
      s.dev.actPresent a.val = true ∧ domState s.dev (domChp a.val) = 0 ∧ h.val < s.dev.hdaHeads (a.val / 2) ∧ s.dev.hdaHeads (a.val / 2) ≤ 12) :=
  ⟨⟨tSt fun d => (d.wr F.thmStat_phase 1).updTherm fun t => { t with hotFix := 8, raw := [(27, [320, 336, -16, 5, 6, 7, 8, 9, 10, 11])] }, (List.range 28).map fun n => 16 * Int.ofNat n, 27, _, by decide +kernel, by decide +kernel, by decide +kernel, rfl⟩,
   ⟨tSt fun d => (d.wr F.thmStat_step 3).updTherm fun t => { t with quiet := 3000 }, by decide +kernel⟩,
   ⟨tSt fun d => d.updTherm fun t => { t with dev := [(27, 101)] }, 27, by decide +kernel⟩,
   ⟨tSt id, 27, by decide +kernel⟩,
   ⟨tSt fun d => (d.wr F.thmStat_phase 1).setBit F.glbStart_hs0_seen 0 true, by decide +kernel⟩,
   ⟨tSt fun d => d.wr F.thmStat_phase 1, by decide +kernel⟩,
   ⟨tSt id, 1, 9, by decide +kernel⟩⟩

theorem test_meets_CalibrationRowsComplete :
    (∃ (s : State) (kind : Fin 6) (inst : Fin 16),
      kind.val ≠ 0 ∧ calPresent s.dev kind.val inst.val = true ∧ calRunning s.dev kind.val inst.val = false) ∧
    (∃ (s : State) (kind : Fin 6) (inst : Fin 16),
      s.dev.flag F.calStat_busy = false ∧ s.dev.bit F.calDue_due inst.val 0 kind.val = true ∧ calLooped s.dev kind.val inst.val = false ∧ calPlace s.dev kind.val inst.val = true ∧ calIdle s.dev kind.val inst.val = true) ∧
    (∃ (s : State) (kind : Fin 6) (inst : Fin 16),
      s.dev.flag F.calStat_busy = false ∧ s.dev.bit F.calDue_due inst.val 0 kind.val = true ∧ calLooped s.dev kind.val inst.val = false ∧ calPlace s.dev kind.val inst.val = true) ∧
    (∃ (s : State) (inst : Fin 16),
      calPresent s.dev 0 inst.val = true ∧ s.dev.hdaHeads (inst.val / 2) ≠ 0) ∧
    (∃ (s : State) (kind : Fin 6) (inst : Fin 16) (r : CalRes),
      ((kind.val = 0 → r.level ≤ s.dev.rd F.sqrGeom_assist_max inst.val)) ∧ calRunning s.dev kind.val inst.val = true ∧ r.converged = true ∧ r.spareFits = true) :=
  ⟨⟨tSt id, 1, 0, by decide +kernel⟩,
   ⟨tSt fun d => d.setBit F.calDue_due 0 true 0 1, 1, 0, by decide +kernel⟩,
   ⟨tSt fun d => d.setBit F.calDue_due 0 true 0 1, 1, 0, by decide +kernel⟩,
   ⟨tSt id, 1, by decide +kernel⟩,
   ⟨tSt fun d => ((((d.setFlag F.calStat_busy true).wr F.calStat_kind 1).wr F.calStat_inst 0).wr F.calStat_runs 0xFFFF).setBit F.pwrVote_dom (calDom 1 0) true 0 5, 1, 0, { converged := true, spareFits := true, level := 5, readCode := 6, writeCode := 7, tdCode := 8, eff := 9, powerOnMs := 10, setting := [3, -1] }, by decide +kernel⟩⟩

theorem test_meets_WritePathRowsComplete :
    (∃ (s : State) (chn : ChnId),
      (s.dev.chn chn.val).fifo.length < 2 ∧ s.dev.rd F.pwrDom_dom 0 (11 + chn.val / 2) = 0) ∧
    (∃ (s : State) (chn : ChnId) (sector : Nat) (tok : Nat) (poison : Bool) (rest : List (Nat × Bool)),
      (s.dev.chn chn.val).wg = true ∧ (s.dev.chn chn.val).nextSlot = some sector ∧ (s.dev.chn chn.val).writing = none ∧ (s.dev.chn chn.val).fifo = (tok, poison) :: rest ∧ sector < sptOf s.dev (chn.val / 2) (taskTrack s.dev chn.val)) ∧
    (∃ (s : State) (chn : ChnId),
      (chn.val % 2 = 0 ∨ s.dev.hdaTwin (chn.val / 4) = true) ∧ chnLost s.dev chn.val = false) ∧
    (∃ (s : State) (chn : ChnId),
      (s.dev.chn chn.val).wg = false) ∧
    (∃ (s : State) (chn : ChnId) (phase64 : Nat),
      (s.dev.chn chn.val).pllOn = true ∧ (s.dev.chn chn.val).pllGood = 3 ∧ phase64 < 2 ∧ chnLost s.dev chn.val = false) ∧
    (∃ (s : State) (chn : ChnId) (h : Nat),
      h = chnHead s.dev chn.val) ∧
    (∃ (s : State) (chn : ChnId) (reading : Nat),
      (s.dev.chn chn.val).ag = true ∧ (s.dev.chn chn.val).monGood = 1 ∧ inTolerance (s.dev.rd F.chnApplied_applied chn.val (chnHead s.dev chn.val)) reading (s.dev.rd F.chnWctl_fault_dev chn.val) = true) ∧
    (∃ (s : State) (chn : ChnId),
      (s.dev.chn chn.val).flySent = true ∧ (s.dev.chn chn.val).flyPending = false) ∧
    (∃ (s : State) (n : HdaId) (c : ChnId),
      s.dev.slotDrive n.val ≠ .highZ ∧ c.val ∈ hdaChannels n.val) ∧
    (∃ (s : State) (n : HdaId) (c : ChnId),
      s.dev.slotDrive n.val ≠ .highZ ∧ c.val ∈ hdaChannels n.val) ∧
    (∃ (s : State) (a : ActId) (c : ChnId),
      s.dev.slotDrive (a.val / 2) ≠ .highZ ∧ c.val / 2 = a.val) ∧
    (∃ (s : State) (a : ActId) (c : ChnId),
      s.dev.slotDrive (a.val / 2) ≠ .highZ ∧ c.val / 2 = a.val) :=
  ⟨⟨tSt fun d => d.updChn 15 fun c => { c with fifo := [(4, false)] }, 15, by decide +kernel⟩,
   ⟨tSt fun d => ((d.wr F.sqrGeom_rz_count 1 1).wr F.sqrZone2_spt 12 1).updChn 3 fun c => { c with wg := true, fifo := [(4, true), (5, false)], nextSlot := some 11 }, 3, 11, 4, true, [(5, false)], by decide +kernel⟩,
   ⟨tSt fun d => d.updChn 3 fun c => { c with pllGood := 2 }, 3, by decide +kernel⟩,
   ⟨tSt fun d => d.updChn 15 fun c => { c with pllGood := 2, pllOn := true }, 15, by decide +kernel⟩,
   ⟨tSt fun d => d.updChn 2 fun c => { c with pllOn := true, pllGood := 3, periods := [1, 2, 3, 4, 5, 6, 7, 8] }, 2, 1, by decide +kernel⟩,
   ⟨tSt fun d => (d.wr F.chnApplied_applied 1250 1 0).wr F.chnApplied_target 1200 1 0, 1, _, rfl⟩,
   ⟨tSt fun d => ((d.wr F.chnApplied_applied 1000 1 0).wr F.chnWctl_fault_dev 5 1).updChn 1 fun c => { c with ag := true, monGood := 1 }, 1, 1050, by decide +kernel⟩,
   ⟨tSt fun d => d.updChn 1 fun c => { c with flySent := true }, 1, by decide +kernel⟩,
   ⟨tSt fun d => d.updChn 3 fun c => { c with wg := true, ag := true }, 0, 3, by decide +kernel⟩,
   ⟨tSt fun d => (d.setBit F.glbPins_shock 0 true).setBit F.chnWstat_unsafe_now 2 true 3, 0, 3, by decide +kernel⟩,
   ⟨tSt fun d => d.updChn 2 fun c => { c with wg := true, ag := true }, 1, 2, by decide +kernel⟩,
   ⟨tSt fun d => (d.setFlag F.pspStat_flt true 1).setBit F.chnWstat_unsafe_now 3 true 2, 1, 2, by decide +kernel⟩⟩

def tEntry : SectorEntry := { seq := 65535, sector := 7, samples := 100 }
def tEntries (l : List SectorEntry) : State := tSt fun d => (d.setFlag F.chnCtl_adapt_en false 2).updChn 2 fun c => { c with entries := l, sw := true }
/-- The word of zeros after one iteration. -/
def tRes : DecodeRes := { iters := 1, llr := [[]], word := 0, samples := [] }
theorem tRes_ok (limit : Nat) (h : 1 ≤ limit) : decodeOk limit tRes = true := decodeOk_zero limit tRes rfl h
theorem tRes_fits (d : Dev) (c limit : Nat) (h : 1 ≤ limit) : decodeFits d c limit tRes = true :=
  decodeFits_zero d c limit tRes rfl h (by simp [tRes, detectorPasses])

theorem test_meets_ReadChannelRowsComplete :
    (∃ (s : State) (chn : ChnId) (time : Nat) (g : GateCmd) (rest : List GateCmd),
      (s.dev.chn chn.val).queue = g :: rest ∧ g.moment ≤ time ∧ g.rg = 1 ∧ g.wg = 0 ∧ g.ag = 0 ∧ g.sg = 0 ∧ g.sw = 0 ∧ (s.dev.chn chn.val).wg = false ∧ chnLost s.dev chn.val = false) ∧
    (∃ (s : State) (chn : ChnId) (pos : Nat) (dist : Nat) (xs : List Defect) (e : SectorEntry) (e1 : SectorEntry) (d1 : Dev),
      (s.dev.chn chn.val).entries.getLast? = some e ∧ (s.dev.chn chn.val).sw = true ∧ e.primPos = none ∧ e.resyncEnded = false ∧ d1 = seeDefects s.dev chn.val e.seq xs ∧ (d1.chn chn.val).entries.find? (fun x => x.seq == e.seq) = some e1 ∧ max dist (erasedIn e1 (e1.opened + pos) 32) ≤ s.dev.rd F.chnSync_prim_thresh chn.val) ∧
    (∃ (s : State) (chn : ChnId) (q : Nat) (dist : Nat) (amp0 : Nat) (amp1 : Nat) (xs : List Defect) (e : SectorEntry) (e1 : SectorEntry) (d1 : Dev),
      (s.dev.chn chn.val).entries.find? (fun x => !x.resyncEnded) = some e ∧ (d1 = seeDefects (updEntry s.dev chn.val e.seq fun x => { x with amps := (amp0, amp1) }) chn.val e.seq xs) ∧ (d1.chn chn.val).entries.find? (fun x => x.seq == e.seq) = some e1 ∧ e1.primPos = some q ∧ max dist (erasedIn e1 (e1.opened + (q + 16416)) 16) ≤ s.dev.rd F.chnSync_resync_thresh chn.val) ∧
    (∃ (s : State) (chn : ChnId) (e : SectorEntry),
      (s.dev.chn chn.val).entries.find? (fun x => !x.lastParity) = some e) ∧
    (∃ (s : State) (chn : ChnId) (seq : Nat) (res : DecodeRes) (e : SectorEntry) (e1 : SectorEntry) (d1 : Dev),
      inDecoder (s.dev.chn chn.val) seq = some e ∧ e.reframing = false ∧ decodeFits s.dev chn.val (decodeLimit s.dev chn.val e) res = true ∧ decodeOk (decodeLimit s.dev chn.val e) res = true ∧ e1 = (loseSamples s.dev chn.val e res).1 ∧ d1 = (loseSamples s.dev chn.val e res).2) ∧
    (∃ (s : State) (chn : ChnId) (seq : Nat) (res : DecodeRes) (e : SectorEntry) (e1 : SectorEntry) (d1 : Dev),
      inDecoder (s.dev.chn chn.val) seq = some e ∧ e.reframing = true ∧ decodeFits s.dev chn.val (s.dev.rd F.chnDecode_max_iter chn.val) res = true ∧ decodeOk (s.dev.rd F.chnDecode_max_iter chn.val) res = true ∧ e1 = (loseSamples s.dev chn.val e res).1 ∧ d1 = (loseSamples s.dev chn.val e res).2) ∧
    (∃ (s : State) (chn : ChnId) (seq : Nat) (e : SectorEntry) (P : Nat → Dev → Prop),
      s.dev.flag F.chnRedecode_busy chn.val = false ∧ chnLost s.dev chn.val = false ∧ samplesHeld (s.dev.chn chn.val) (seq % 65536) = some e ∧ (P = (fun v d => d.flag F.chnRedecode_busy chn.val = true ∧ d.rd F.chnRedecode_variant chn.val = v ∧ (d.chn chn.val).redecode = some ⟨e.seq, v, !(decodeWaiting (s.dev.chn chn.val)).isEmpty⟩))) ∧
    (∃ (s : State) (chn : ChnId) (seq : Nat) (e : SectorEntry) (P : Nat → Dev → Prop),
      s.dev.flag F.chnRedecode_busy chn.val = false ∧ chnLost s.dev chn.val = false ∧ samplesHeld (s.dev.chn chn.val) (seq % 65536) = some e ∧ (P = (fun v d => d.flag F.chnRedecode_busy chn.val = true ∧ d.rd F.chnRedecode_variant chn.val = v ∧ (d.chn chn.val).redecode = some ⟨e.seq, v, !(decodeWaiting (s.dev.chn chn.val)).isEmpty⟩))) ∧
    (∃ (s : State) (chn : ChnId) (seq : Nat) (e : SectorEntry) (P : Nat → Dev → Prop),
      s.dev.flag F.chnRedecode_busy chn.val = false ∧ chnLost s.dev chn.val = false ∧ samplesHeld (s.dev.chn chn.val) (seq % 65536) = some e ∧ (P = (fun v d => d.flag F.chnRedecode_busy chn.val = true ∧ d.rd F.chnRedecode_variant chn.val = v ∧ (d.chn chn.val).redecode = some ⟨e.seq, v, !(decodeWaiting (s.dev.chn chn.val)).isEmpty⟩))) ∧
    (∃ (s : State) (chn : ChnId) (seq : Nat) (e : SectorEntry) (P : Nat → Dev → Prop),
      s.dev.flag F.chnRedecode_busy chn.val = false ∧ chnLost s.dev chn.val = false ∧ samplesHeld (s.dev.chn chn.val) (seq % 65536) = some e ∧ (P = (fun v d => d.flag F.chnRedecode_busy chn.val = true ∧ d.rd F.chnRedecode_variant chn.val = v ∧ (d.chn chn.val).redecode = some ⟨e.seq, v, !(decodeWaiting (s.dev.chn chn.val)).isEmpty⟩))) ∧
    (∃ (s : State) (chn : ChnId) (seq : Nat) (e : SectorEntry),
      s.dev.flag F.chnRedecode_busy chn.val = false ∧ chnLost s.dev chn.val = false ∧ samplesHeld (s.dev.chn chn.val) (seq % 65536) = some e) ∧
    (∃ (s : State) (chn : ChnId) (res : DecodeRes) (r : Redecode) (e : SectorEntry) (e1 : SectorEntry) (d1 : Dev),
      (s.dev.chn chn.val).redecode = some r ∧ decodeWaiting (s.dev.chn chn.val) = [] ∧ samplesHeld (s.dev.chn chn.val) r.seq = some e ∧ decodeFits s.dev chn.val (s.dev.rd F.chnDecode_max_iter chn.val) res = true ∧ decodeOk (s.dev.rd F.chnDecode_max_iter chn.val) res = true ∧ e1 = (loseSamples s.dev chn.val e res).1 ∧ d1 = (loseSamples s.dev chn.val e res).2) :=
  ⟨⟨tSt fun d => d.updChn 2 fun c => { c with queue := [{ moment := 9, wedge := 1, pos := 2, rg := 1, wg := 0, ag := 0, sg := 0, sw := 0, level := 0, cust := false, sector := 0 }] }, 2, 9, { moment := 9, wedge := 1, pos := 2, rg := 1, wg := 0, ag := 0, sg := 0, sw := 0, level := 0, cust := false, sector := 0 }, [], by decide +kernel⟩,
   by refine ⟨tEntries [{ tEntry with primPos := some 3, seq := 9, resyncEnded := true }, tEntry], 2, 40, (State.reset.dev.rd F.chnSync_prim_thresh 2), [{ reader := 1, asperity := true, start := 9, stop := 12, level := 5 }], tEntry, { tEntry with defects := [{ reader := 1, asperity := true, start := 9, stop := 12, level := 5 }], spans := [(1, 0, 44)], erased := true }, _, ?_, ?_, ?_, ?_, rfl, ?_⟩ <;> decide +kernel,
   ⟨tEntries [{ tEntry with primPos := some 3, seq := 9, resyncEnded := true }, { tEntry with primPos := some 100, framed := true, framing := 1 }], 2, 100, (State.reset.dev.rd F.chnSync_resync_thresh 2), 40, 41, [], { tEntry with primPos := some 100, framed := true, framing := 1 }, { tEntry with primPos := some 100, framed := true, framing := 1, amps := (40, 41) }, _, by decide +kernel, rfl, by decide +kernel⟩,
   ⟨tEntries [{ tEntry with lastParity := true, seq := 9 }, tEntry], 2, tEntry, by decide +kernel⟩,
   ⟨tEntries [{ tEntry with lastParity := true, seq := 9 }, { tEntry with lastParity := true, k := 1, framing := 1 }], 2, 65535, tRes, { tEntry with lastParity := true, k := 1, framing := 1 }, _, _, by decide +kernel, by decide +kernel, tRes_fits _ _ _ (by decide +kernel), tRes_ok _ (by decide +kernel), rfl, rfl⟩,
   ⟨tEntries [{ tEntry with lastParity := true, reframing := true }], 2, 65535, tRes, { tEntry with lastParity := true, reframing := true }, _, _, by decide +kernel, by decide +kernel, tRes_fits _ _ _ (by decide +kernel), tRes_ok _ (by decide +kernel), rfl, rfl⟩,
   ⟨tEntries [{ tEntry with lastParity := true, dec := true }], 2, 65535, { tEntry with lastParity := true, dec := true }, _, by decide +kernel, by decide +kernel, by decide +kernel, rfl⟩,
   ⟨tEntries [{ tEntry with lastParity := true, dec := true }], 2, 65535, { tEntry with lastParity := true, dec := true }, _, by decide +kernel, by decide +kernel, by decide +kernel, rfl⟩,
   ⟨tEntries [{ tEntry with lastParity := true, dec := true }], 2, 65535, { tEntry with lastParity := true, dec := true }, _, by decide +kernel, by decide +kernel, by decide +kernel, rfl⟩,
   ⟨tEntries [{ tEntry with lastParity := true, dec := true }], 2, 65535, { tEntry with lastParity := true, dec := true }, _, by decide +kernel, by decide +kernel, by decide +kernel, rfl⟩,
   ⟨tSt fun d => d.updChn 2 fun c => { c with held := [{ tEntry with seq := 8 }, tEntry] }, 2, 65535, tEntry, by decide +kernel⟩,
   ⟨tSt fun d => (d.setFlag F.chnRedecode_busy true 2).updChn 2 fun c => { c with held := [{ tEntry with seq := 8 }, tEntry], redecode := some { seq := 65535, variant := 4, restart := false } }, 2, tRes, { seq := 65535, variant := 4, restart := false }, tEntry, _, _, by decide +kernel, by decide +kernel, by decide +kernel, tRes_fits _ _ _ (by decide +kernel), tRes_ok _ (by decide +kernel), rfl, rfl⟩⟩

/-- A sequencer of actuator 1 that runs the word `v` at control-store word 5. -/
def tSeq (v : Nat) (w : SeqWait) (st : Nat) : State :=
  let s := tSt fun d => (((d.wr F.sqrGeom_wedges 512 1).wr F.sqrStat_pc 5 1).wr F.sqrStat_state st 1).updSeq 1 fun q => { q with wait := w }
  { s with mem := memWrite [] (csBase 1 + 160) v 16 }
def tEnv : SeqEnv := { posA := 0, posB := 0, leadA := 0, leadB := 0, elapsed := 0, parityFail := 0 }
def tJump : Nat := 1 + 6143 * 2 ^ 32
def tStop : Nat := 6 + 9 * 2 ^ 116
def tWait : Nat := 4 + 1 * 2 ^ 9 + 3 * 2 ^ 16 + 6143 * 2 ^ 32

theorem test_meets_SequencerRowsComplete :
    (∃ (s : State) (a : ActId),
      s.dev.rd F.sqrStat_state a.val = 0 ∧ s.dev.rd F.sqrTask_entry a.val < 8192 ∧ (s.dev.rd F.sqrTask_entry a.val < 6144 ∨ s.dev.flag F.sqrCtl_cust_en a.val = true) ∧ ((∀ b : Fin 2, (s.dev.rd F.sqrTask_chan a.val).testBit b.val = true → chnLost s.dev (2 * a.val + b.val) = false))) ∧
    (∃ (s : State) (a : ActId) (env : SeqEnv) (m : Micro),
      s.dev.rd F.sqrStat_state a.val = 1 ∧ (s.dev.seq a.val).wait = .none ∧ env.parityFail % 256 = 0 ∧ badFields s.dev a.val (s.dev.rd F.sqrStat_pc a.val) = 0 ∧ m = microOf (storeWord s.mem a.val (s.dev.rd F.sqrStat_pc a.val)) ∧ (illegalWord s.dev a.val m).1 = false ∧ hasRoom s.dev a.val m = true) ∧
    (∃ (s : State) (a : ActId) (env : SeqEnv) (m : Micro),
      s.dev.rd F.sqrStat_state a.val = 1 ∧ (s.dev.seq a.val).wait = .none ∧ env.parityFail % 256 = 0 ∧ badFields s.dev a.val (s.dev.rd F.sqrStat_pc a.val) = 0 ∧ m = microOf (storeWord s.mem a.val (s.dev.rd F.sqrStat_pc a.val)) ∧ (illegalWord s.dev a.val m).1 = false ∧ hasGates m = false ∧ m.profile = 0 ∧ m.cop = 0 ∧ m.wrOp = 0 ∧ m.permitOpen = false ∧ m.permitClose = false ∧ m.ackA = false ∧ m.ackB = false ∧ m.scr = 0 ∧ m.nop = 1 ∧ (m.target < 6144 ∨ 6144 ≤ s.dev.rd F.sqrStat_pc a.val ∨ s.dev.flag F.sqrCtl_cust_en a.val = true)) ∧
    (∃ (s : State) (a : ActId) (env : SeqEnv) (m : Micro),
      s.dev.rd F.sqrStat_state a.val = 1 ∧ (s.dev.seq a.val).wait = .none ∧ env.parityFail % 256 = 0 ∧ badFields s.dev a.val (s.dev.rd F.sqrStat_pc a.val) = 0 ∧ m = microOf (storeWord s.mem a.val (s.dev.rd F.sqrStat_pc a.val)) ∧ (illegalWord s.dev a.val m).1 = false ∧ hasGates m = false ∧ m.scr = 0 ∧ m.nop = 6) ∧
    (∃ (s : State) (a : ActId) (refs : Nat),
      (s.dev.seq a.val).wait = .cond refs ∧ condHolds s.dev a.val (microOf (storeWord s.mem a.val (s.dev.rd F.sqrStat_pc a.val))) = true ∧ s.dev.rd F.sqrStat_pc a.val < 8191 ∧ (s.dev.rd F.sqrStat_pc a.val ≠ 6143 ∨ s.dev.flag F.sqrCtl_cust_en a.val = true)) ∧
    (∃ (s : State) (a : ActId) (env : SeqEnv) (refs : Nat) (m : Micro),
      (s.dev.seq a.val).wait = .cond refs ∧ m = microOf (storeWord s.mem a.val (s.dev.rd F.sqrStat_pc a.val)) ∧ waitExpired m env.elapsed refs = true ∧ condHolds s.dev a.val m = false ∧ (m.target < 6144 ∨ 6144 ≤ s.dev.rd F.sqrStat_pc a.val ∨ s.dev.flag F.sqrCtl_cust_en a.val = true)) ∧
    (∃ (s : State) (a : ActId) (m : Micro),
      (s.dev.seq a.val).wait = .room ∧ m = microOf (storeWord s.mem a.val (s.dev.rd F.sqrStat_pc a.val)) ∧ hasRoom s.dev a.val m = true) ∧
    (∃ (s : State) (a : ActId) (sel : Fin 4) (g : Nat) (h : Nat) (pc : Nat),
      (s.dev.seq a.val).wait = .scratch false sel.val g h (.word pc) ∧ pc < 8192) ∧
    (∃ (s : State) (a : ActId) (sel : Nat) (g : Nat) (h : Nat) (next : SeqNext),
      (s.dev.seq a.val).wait = .scratch true sel g h next) ∧
    (∃ (s : State) (a : ActId),
      s.dev.rd F.sqrStat_state a.val ≠ 0) :=
  ⟨⟨tSt fun d => (d.wr F.sqrTask_entry 6143 1).wr F.sqrTaskParam_p 0xFFFF 1 3, 1, by decide +kernel⟩,
   by refine ⟨tSeq (1 * 2 ^ 98 + 2 ^ 100 + 2 ^ 120 + 2 ^ 58) .none 1, 1, tEnv, _, ?_, ?_, ?_, ?_, rfl, ?_⟩ <;> decide +kernel,
   by refine ⟨tSeq tJump .none 1, 1, tEnv, _, ?_, ?_, ?_, ?_, rfl, ?_⟩ <;> decide +kernel,
   by refine ⟨tSeq tStop .none 1, 1, tEnv, _, ?_, ?_, ?_, ?_, rfl, ?_⟩ <;> decide +kernel,
   ⟨tSeq 4 (.cond 3) 2, 1, 3, by decide +kernel⟩,
   ⟨tSeq tWait (.cond 3) 2, 1, { tEnv with elapsed := 3 }, 3, _, by decide +kernel, rfl, by decide +kernel⟩,
   ⟨tSeq (1 * 2 ^ 48 + 2 ^ 58 + 2 ^ 90) .room 2, 1, _, by decide +kernel, rfl, by decide +kernel⟩,
   ⟨tSeq 0 (.scratch false 3 7 16383 (.word 8191)) 2, 1, 3, 7, 16383, 8191, by decide +kernel⟩,
   ⟨tSeq 0 (.scratch true 3 7 16383 (.word 6)) 2, 1, 3, 7, 16383, .word 6, by decide +kernel⟩,
   ⟨tSeq 0 (.scratch true 3 7 16383 (.word 6)) 2, 1, by decide +kernel⟩⟩

theorem test_meets_ControlStoreRowsComplete :
    (∃ (off : Nat) (n : Nat),
      off < 0x40000 ∧ legalSize off n = true) ∧
    (∃ (s : State) (a : ActId) (w : Nat),
      6144 ≤ w ∧ w < 8192 ∧ s.dev.flag F.sqrCtl_cust_en a.val = false ∧ s.dev.flag F.sqrStat_in_cust a.val = false ∧ s.dev.flag F.eccInj_armed = false) :=
  ⟨⟨0x3FFF8, 8, by decide +kernel⟩,
   ⟨tSt id, 7, 8191, by decide +kernel⟩⟩

def tSample : ServoSample := { idOk := true, track := 12, pes := -513, wedgeOk := true, ampOk := true, predQ := 14 * 1024, uMa := 3, m := 4, vel := -400000, age := 7 }
/-- HDA 0 with lane `l` at the state `st` and the values `ln`. -/
def tLane (l st : Nat) (ln : Lane) : State := tSt fun d => (d.wr F.sscLaneStat_state st 0 l).updLane 0 l fun _ => ln

theorem test_meets_ServoLaneRowsComplete :
    (∃ (s : State) (n : HdaId) (l : Fin 2) (sa : ServoSample),
      s.dev.rd F.sscLaneCtl_follow n.val l.val = 0 ∧ laneState s.dev n.val l.val ≠ 3 ∧ (s.dev.servo n.val).retracted.testBit l.val = false ∧ sampleOk sa = true) ∧
    (∃ (s : State) (n : HdaId) (l : Fin 2),
      s.dev.rd F.sscLaneCtl_follow n.val l.val = 0 ∧ laneState s.dev n.val l.val ≠ 3 ∧ laneState s.dev n.val l.val ≠ 0 ∧ (s.dev.servo n.val).retracted.testBit l.val = false ∧ 8 ≤ (s.dev.lane n.val l.val).a.miss) ∧
    (∃ (s : State) (n : HdaId) (l : Fin 2),
      s.dev.rd F.sscLaneCtl_follow n.val l.val = 0 ∧ laneState s.dev n.val l.val = 3 ∧ (s.dev.chn (laneChn n.val l.val 0)).sgSearch = true ∧ 4 ≤ (s.dev.lane n.val l.val).a.good) ∧
    (∃ (s : State) (n : HdaId) (l : Fin 2),
      laneState s.dev n.val l.val = 3 ∧ 256 ≤ (s.dev.lane n.val l.val).lostFor ∧ (s.dev.servo n.val).retracted.testBit l.val = false) ∧
    (∃ (s : State) (n : HdaId) (l : Fin 2),
      s.dev.rd F.sscLaneCtl_follow n.val l.val = 2 ∧ (s.dev.lane n.val l.val).splitHead = none ∧ strokeOut s.dev n.val l.val (s.dev.lane n.val l.val).a = true ∧ strokeOut s.dev n.val l.val (s.dev.lane n.val l.val).b = false) ∧
    (∃ (s : State) (n : HdaId) (l : Fin 2) (ta : Int),
      s.dev.rd F.sscLaneCtl_follow n.val l.val = 0 ∧ (s.dev.servo n.val).retracted.testBit l.val = false ∧ laneState s.dev n.val l.val ≠ 3 ∧ laneState s.dev n.val l.val ≠ 1 ∧ (s.dev.lane n.val l.val).splitHead = none ∧ ta = ofTwos 32 (s.dev.rd F.sscTgt_tgt_a n.val l.val)) ∧
    (∃ (s : State) (n : HdaId) (l : Fin 2),
      s.dev.rd F.sscLaneCtl_follow n.val l.val = 0 ∧ (s.dev.servo n.val).retracted.testBit l.val = false ∧ laneState s.dev n.val l.val = 1 ∧ (s.dev.lane n.val l.val).splitHead = none) ∧
    (∃ (s : State) (n : HdaId) (l : Fin 2),
      laneState s.dev n.val l.val = 2 ∧ s.dev.rd F.sscTrackCfg_ontrack_n n.val l.val ≤ (s.dev.lane n.val l.val).onCount ∧ (s.dev.servo n.val).retracted.testBit l.val = false) ∧
    (∃ (s : State) (n : HdaId) (unitB : Bool),
      (s.dev.sscUnit n.val unitB.toNat).post = some 0) :=
  ⟨⟨tLane 1 2 { a := { good := 1, miss := 7 } }, 0, 1, tSample, by decide +kernel⟩,
   ⟨tLane 1 1 { a := { miss := 8 } }, 0, 1, by decide +kernel⟩,
   ⟨let s := tLane 1 3 { a := { good := 4 }, lostFor := 9, bemfLaw := true }; { s with dev := s.dev.updChn 2 fun c => { c with sgSearch := true } }, 0, 1, by decide +kernel⟩,
   ⟨tLane 1 3 { lostFor := 256 }, 0, 1, by decide +kernel⟩,
   ⟨let s := tLane 1 2 { a := { lastMa := 99, sat := [true, false, true, true, true] }, b := { sat := [true, true, true] } }; { s with dev := (s.dev.wr F.sscLaneCtl_follow 2 0 1).wr F.sscTrackCfg_split_n 3 0 1 }, 0, 1, by decide +kernel⟩,
   by refine ⟨let s := tLane 1 0 { a := { y := -1024 } }; { s with dev := (s.dev.wr F.sscTgt_tgt_a (2 ^ 32 - 2048) 0 1).wr F.sscSeekLim_capture_trk 1 0 1 }, 0, 1, _, ?_, ?_, ?_, ?_, ?_, rfl⟩ <;> decide +kernel,
   ⟨let s := tLane 1 1 { tgtA := 9, prof := { pos := 5 } }; { s with dev := (s.dev.wr F.sscTgt_tgt_a (2 ^ 32 - 2048) 0 1).wr F.sscSeekLim_capture_trk 1 0 1 }, 0, 1, by decide +kernel⟩,
   ⟨let s := tLane 1 2 { onCount := 16, maA := -4, maB := 5 }; { s with dev := (s.dev.wr F.sscLaneCtl_follow 2 0 1).wr F.sscTrackCfg_ontrack_n 16 0 1 }, 0, 1, by decide +kernel⟩,
   ⟨tSt fun d => d.updUnit 0 1 fun u => { u with post := some 0 }, 0, true, by decide +kernel⟩⟩

theorem test_meets_ServoUnitRowsComplete :
    (∃ (s : State) (n : HdaId) (ln : Lane),
      ln = s.dev.lane n.val 1 ∧ laneState s.dev n.val 0 ≠ 0 ∧ s.dev.slotDrive n.val = .driven ∧ s.dev.flag F.pslStat_psl_fault n.val = false ∧ (s.dev.servo n.val).hold = [] ∧ (s.dev.servo n.val).skipCmp = false) ∧
    (∃ (s : State) (n : HdaId),
      16 ≤ (s.dev.servo n.val).mismatch) ∧
    (∃ (s : State) (n : HdaId) (l : Nat),
      faultLane s.dev n.val (activeUnit s.dev n.val) = some l ∧ pairState s.dev n.val = 0 ∧ s.dev.flag F.sscRole_standby_fit n.val = true ∧ standbyBad s.dev n.val = false ∧ (ovrOf (s.dev.sscUnit n.val (standbyUnit s.dev n.val)) l).headD false = false) ∧
    (∃ (s : State) (n : HdaId),
      standbyBad s.dev n.val = true ∧ pairState s.dev n.val = 0) ∧
    (∃ (s : State) (n : HdaId),
      exchangeDue s.dev n.val = true ∧ exchangeBlocked s.dev n.val = false) ∧
    (∃ (s : State) (n : HdaId),
      exchangeDue s.dev n.val = true ∧ 0x10000 ≤ (s.dev.servo n.val).deferFor) ∧
    (∃ (s : State) (n : HdaId),
      pairState s.dev n.val = 1 ∧ 0x10000 ≤ (s.dev.servo n.val).clean ∧ (s.dev.servo n.val).dirty = false) ∧
    (∃ (s : State) (n : HdaId),
      pairState s.dev n.val = 2 ∧ 0x100000 ≤ (s.dev.servo n.val).clean ∧ (s.dev.sscUnit n.val (standbyUnit s.dev n.val)).clkOk = true ∧ (s.dev.sscUnit n.val (standbyUnit s.dev n.val)).lawErr = false) :=
  ⟨⟨let s := tLane 1 2 { vcm := -5, maA := 6, maB := -7 }; { s with dev := (s.dev.wr F.sscLaneStat_state 2 0 0).updServo 0 fun x => { x with seqNo := 15, mismatch := 15 } }, 0, _, rfl, by decide +kernel⟩,
   ⟨tSt fun d => (d.wr F.sscCmpStat_resyncs 0xFF 0).updServo 0 fun x => { x with mismatch := 16 }, 0, by decide +kernel⟩,
   ⟨tSt fun d => (d.setFlag F.sscRole_standby_fit true 0).updUnit 0 0 fun u => { u with ovr1 := [true, false, true, true] }, 0, 1, by decide +kernel⟩,
   ⟨tSt fun d => d.wr F.sscCmpStat_resyncs 4 0, 0, by decide +kernel⟩,
   ⟨tSt fun d => ((d.wr F.sscSwap_to_swap 0 0).setFlag F.sscRole_standby_fit true 0).setFlag F.sscRole_swap_en true 0, 0, by decide +kernel⟩,
   ⟨tSt fun d => (((d.wr F.sscSwap_to_swap 0 0).setFlag F.sscRole_standby_fit true 0).setFlag F.sscRole_swap_en true 0).updServo 0 fun x => { x with deferFor := 0x10000 }, 0, by decide +kernel⟩,
   ⟨tSt fun d => (d.wr F.sscRole_state 1 0).updServo 0 fun x => { x with clean := 0x10000 }, 0, by decide +kernel⟩,
   ⟨tSt fun d => (d.wr F.sscRole_state 2 0).updServo 0 fun x => { x with clean := 0x100000 }, 0, by decide +kernel⟩⟩

theorem test_meets_RetractRowsComplete :
    (∃ (s : State) (n : HdaId),
      (s.dev.servo n.val).retracted ≠ 0 ∧ retractParked s.dev n.val = false ∧ s.dev.flag F.pslStat_psl_fault n.val = false ∧ s.dev.slotDrive n.val = .driven) ∧
    (∃ (s : State) (n : HdaId),
      pairState s.dev n.val = 3 ∧ retractParked s.dev n.val = true ∧ (s.dev.servo n.val).uA.clkOk = true) ∧
    (∃ (s : State) (n : HdaId) (l : Fin 2) (mask : Fin 4),
      mask.val = 2 ^ l.val ∧ pairState s.dev n.val ≠ 3 ∧ (s.dev.servo n.val).retracted.testBit l.val = true ∧ s.dev.bit F.pslStat_parked l.val n.val = true) :=
  ⟨⟨tSt fun d => d.updServo 0 fun x => { x with retracted := 3 }, 0, by decide +kernel⟩,
   ⟨tSt fun d => ((d.wr F.sscRole_state 3 0).wr F.pslStat_parked 3 0).updServo 0 fun x => { x with retracted := 3 }, 0, by decide +kernel⟩,
   ⟨tSt fun d => (d.wr F.pslStat_parked 2 0).updServo 0 fun x => { x with retracted := 3 }, 0, 1, 2, by decide +kernel⟩⟩

/-- HDA 0's spindle at the state `st` and the values `x`. -/
def tSpin (st : Nat) (x : Spin) : State := tSt fun d => (d.wr F.spnStat_state st 0).updSpin 0 fun _ => x

theorem test_meets_SpindleDriveRowsComplete :
    (∃ (s : State) (n : HdaId),
      sharesHeld s.dev < shareCount s.dev ∧ s.dev.power.shareWait.head? = some n.val) ∧
    (∃ (s : State) (n : HdaId),
      s.dev.rd F.spnCtl_mode n.val = 1 ∧ s.dev.hdaPresent n.val = true) ∧
    (∃ (s : State) (n : HdaId),
      (s.dev.spin n.val).starting = true ∧ spinState s.dev n.val = 0 ∧ s.dev.slotDrive n.val = .driven) ∧
    (∃ (s : State) (n : HdaId),
      spinState s.dev n.val = 1 ∧ s.dev.slotDrive n.val = .driven) ∧
    (∃ (s : State) (n : HdaId),
      spinState s.dev n.val = 2) ∧
    (∃ (s : State) (n : HdaId) (r : Int × Int),
      spinState s.dev n.val = 3 ∧ (s.dev.servo n.val).hold = [] ∧ s.dev.flag F.spnStat_chop_fault n.val = false ∧ (s.dev.spin n.val).spinup = false ∧ (s.dev.spin n.val).share = 0 ∧ s.dev.flag F.pslStat_psl_fault n.val = false ∧ s.dev.slotDrive n.val = .driven ∧ r = rampStep (s.dev.spin n.val).setp (s.dev.spin n.val).rate ((s.dev.rd F.spnStat_command n.val : Int) * 10 ^ 12) (s.dev.rd F.sscRamp_ramp_rate n.val) (s.dev.rd F.sscRamp_ramp_accel n.val)) ∧
    (∃ (s : State) (n : HdaId),
      spinState s.dev n.val = 4 ∧ s.dev.slotDrive n.val = .driven) ∧
    (∃ (s : State) (n : HdaId) (window : Nat) (step : Nat) (code : Nat),
      s.dev.rd F.spnComm_win_min n.val * 1000 ≤ window ∧ step = ((s.dev.spin n.val).step + 1) % 6 ∧ s.dev.slotDrive n.val = .driven ∧ code = s.dev.rd F.spnSlope_code n.val (s.dev.rd F.sscLaneStat_band n.val 0)) ∧
    (∃ (rpm : Nat),
      3600 ≤ rpm ∧ rpm ≤ 7200) :=
  ⟨⟨tSt fun d => { d with power := { d.power with shareWait := [0, 2] } }, 0, by decide +kernel⟩,
   ⟨tSt fun d => (d.wr F.spnCtl_mode 1 0).setFlag F.spnStat_ov2 true 0, 0, by decide +kernel⟩,
   ⟨tSpin 0 { starting := true, step := 3 }, 0, by decide +kernel⟩,
   ⟨tSpin 1 {}, 0, by decide +kernel⟩,
   ⟨tSpin 2 {}, 0, by decide +kernel⟩,
   by refine ⟨tSpin 3 { setp := 3600 * 10 ^ 12, rate := -5 }, 0, _, ?_, ?_, ?_, ?_, ?_, ?_, ?_, rfl⟩ <;> decide +kernel,
   ⟨tSpin 4 { agree := 5 }, 0, by decide +kernel⟩,
   ⟨tSpin 5 { step := 5, bad := 2 }, 0, (State.reset.dev.rd F.spnComm_win_min 0 * 1000), _, _, by decide +kernel, rfl, by decide +kernel, rfl⟩,
   ⟨7200, by decide +kernel⟩⟩

theorem test_meets_SpindleFaultRowsComplete :
    (∃ (s : State) (n : HdaId),
      spinState s.dev n.val = 3 ∧ rotorGone s.dev n.val = true) ∧
    (∃ (s : State) (n : HdaId),
      spinState s.dev n.val = 4 ∧ 6 ≤ (s.dev.spin n.val).agree) ∧
    (∃ (s : State) (n : HdaId),
      spinState s.dev n.val = 4) ∧
    (∃ (s : State) (n : HdaId),
      (s.dev.spin n.val).chop = false ∧ s.dev.slotDrive n.val ≠ .highZ) ∧
    (∃ (s : State) (n : HdaId),
      (s.dev.spin n.val).chop = true ∧ s.dev.slotDrive n.val ≠ .highZ) ∧
    (∃ (s : State) (n : HdaId),
      (s.dev.spin n.val).chop = true ∧ s.dev.slotDrive n.val = .driven) ∧
    (∃ (s : State) (n : HdaId),
      s.dev.slotDrive n.val = .driven) ∧
    (∃ (s : State) (n : HdaId),
      s.dev.slotDrive n.val = .driven) ∧
    (∃ (s : State) (n : HdaId),
      s.dev.slotDrive n.val = .driven) ∧
    (∃ (s : State) (n : HdaId),
      (s.dev.servo n.val).dlRun < 8 ∧ (s.dev.servo n.val).ulRun < 7 ∧ s.dev.slotDrive n.val = .driven) ∧
    (∃ (s : State) (n : HdaId) (f : BitVec 96),
      pslGood f = true ∧ f.getLsbD 8 = false ∧ s.dev.slotDrive n.val = .driven) :=
  ⟨⟨let s := tSpin 3 { bad := 3 }; { s with dev := (s.dev.wr F.sqrStat_state 2 1) }, 0, by decide +kernel⟩,
   ⟨tSpin 4 { agree := 6, lost := true }, 0, by decide +kernel⟩,
   ⟨tSpin 4 {}, 0, by decide +kernel⟩,
   ⟨tSpin 3 {}, 0, by decide +kernel⟩,
   ⟨tSpin 3 { chop := true }, 0, by decide +kernel⟩,
   ⟨tSpin 3 { chop := true }, 0, by decide +kernel⟩,
   ⟨tSpin 3 {}, 0, by decide +kernel⟩,
   ⟨tSpin 3 {}, 0, by decide +kernel⟩,
   ⟨tSpin 3 { share := 12 }, 0, by decide +kernel⟩,
   ⟨tSt fun d => (d.wr F.pslStat_ul_err 0xFFFF 0).updServo 0 fun x => { x with dlRun := 7, ulRun := 6 }, 0, by decide +kernel⟩,
   ⟨tSt fun d => d.updServo 0 fun x => { x with dlRun := 7, ulRun := 6 }, 0, 58317372612390096841329346565#96, by decide +kernel⟩⟩

theorem test_meets_HoldUpRowsComplete :
    (∃ (s : State) (low : Bool) (sag : Bool),
      s.dev.rd F.pwrHoldStat_state = 0 ∧ 4 ≤ s.dev.rd F.glbStart_stage ∧ low || sag) ∧
    (∃ (s : State),
      s.dev.rd F.pwrHoldStat_state = 0 ∧ s.dev.rd F.glbStart_stage < 4) ∧
    (∃ (s : State) (n : HdaId),
      s.dev.reset.flushing.contains n.val = true) ∧
    (∃ (s : State),
      s.dev.rd F.pwrHoldStat_state = 3 ∧ (presentHdas s.dev).all (headsParked s.dev) = true) ∧
    (∃ (s : State) (n : HdaId),
      s.dev.host.replaying.contains n.val = true ∧ s.dev.rd F.pwrHs_state 0 n.val = 0 ∧ s.dev.rd F.pwrHs_in_transition 0 n.val = 0 ∧ tabGet 0 s.dev.host.lockerHash n.val = sectionHash s.dev n.val) ∧
    (∃ (s : State) (n : HdaId),
      s.dev.host.replaying.contains n.val = true ∧ s.dev.rd F.pwrHs_state 0 n.val = 0 ∧ s.dev.rd F.pwrHs_in_transition 0 n.val = 0 ∧ s.dev.host.locker.any (fun b => b.hda == n.val) = true ∧ tabGet 0 s.dev.host.lockerHash n.val ≠ sectionHash s.dev n.val) ∧
    (∃ (s : State) (n : HdaId),
      s.dev.host.replaying.contains n.val = true ∧ (s.dev.spin n.val).replayed = true) :=
  ⟨⟨tSt fun d => (d.wr F.glbStart_stage 4).setFlag F.glbPins_pwr_good true, false, true, by decide +kernel⟩,
   ⟨tSt fun d => (d.wr F.glbStart_stage 3).setFlag F.glbPins_pwr_good true, by decide +kernel⟩,
   ⟨tSt fun d => (d.wr F.spnStat_speed 7200 0).updReset fun r => { r with flushing := [0, 2] }, 0, by decide +kernel⟩,
   ⟨tSt fun d => (((d.wr F.pwrHoldStat_state 3).wr F.pslStat_parked 3 0).wr F.pwrHoldCfg_hold_min 9000), by decide +kernel⟩,
   ⟨tSt fun d => (d.wr F.pwrHs_state 0 0 0).updHost fun h => { h with replaying := [0], lockerHash := [(0, sectionHash d 0)] }, 0, by decide +kernel, by decide +kernel, by decide +kernel, rfl⟩,
   by refine ⟨tSt fun d => (d.wr F.pwrHs_state 0 0 0).updHost fun h => { h with replaying := [0], lockerHash := [(0, sectionHash d 0 + 1)], locker := [{ hda := 0, nsid := 1, lba := 3, blk := .data 4, act := 0, covered := true }] }, 0, ?_, ?_, ?_, ?_, Nat.succ_ne_self _⟩ <;> decide +kernel,
   ⟨tSt fun d => (d.updHost fun h => { h with replaying := [0, 3], anchors := [(0, 5)], locker := [{ hda := 0, nsid := 1, lba := 3, blk := .data 4, act := 0, covered := true }] }).updSpin 0 fun x => { x with replayed := true }, 0, by decide +kernel⟩⟩

def tBoot : BootEnv := { gpio4 := false, dieMaxC := 84, romOk := true, otpOk := true, dramGib := 16 }
/-- HDA 0 at rest in HS4, its conditions for CS2 met. -/
def tRest : State := tSt fun d => (d.wr F.pwrCs_cs_allow 3).wr F.pwrHsCfg_hs_allow 15

theorem test_meets_BootRowsComplete :
    (∃ (s : State) (env : BootEnv),
      startDue s.dev = true ∧ ((s.dev.reset.waitCool = true → env.dieMaxC < 85)) ∧ env.otpOk = true ∧ env.romOk = true) ∧
    (∃ (s : State) (env : BootEnv),
      s.dev.reset.waitCool = true ∧ env.dieMaxC < 85 ∧ s.dev.flag F.thmCfg_auto_restart = true ∧ env.otpOk = true ∧ env.romOk = true) ∧
    (∃ (s : State),
      s.dev.reset.wipeSram = true ∧ s.dev.rd F.glbStart_stage = 3) ∧
    (∃ (s : State),
      s.dev.reset.wipeDram = true ∧ s.dev.rd F.glbStart_stage = 5) ∧
    (∃ (s : State),
      s.dev.reset.wipeSram = true ∧ s.dev.reset.wipeDram = false ∧ s.dev.reset.stage = 5 ∧ s.dev.rd F.glbStart_stage ≠ 3) ∧
    (∃ (s : State),
      s.dev.rd F.glbStart_stage = 7) :=
  ⟨⟨tSt fun d => d.updReset fun r => { r with stage := 6, waitCool := true }, tBoot, by decide +kernel⟩,
   ⟨tSt fun d => (d.setFlag F.thmCfg_auto_restart true).updReset fun r => { r with waitCool := true }, tBoot, by decide +kernel⟩,
   ⟨tSt fun d => (d.wr F.glbStart_stage 3).updReset fun r => { r with wipeSram := true }, by decide +kernel⟩,
   ⟨tSt fun d => (d.wr F.glbStart_stage 5).updReset fun r => { r with wipeDram := true }, by decide +kernel⟩,
   ⟨tSt fun d => (d.wr F.glbStart_stage 8).updReset fun r => { r with wipeSram := true, stage := 5 }, by decide +kernel⟩,
   ⟨tSt fun d => ((d.wr F.glbStart_stage 7).setBit F.glbPins_perst_n 0 true).updPort 0 fun p => { p with offer := (8, 5) }, by decide +kernel⟩⟩

theorem test_meets_ResetRowsComplete :
    (∃ (s : State) (h : HstId),
      hostUsed s.dev h.val = true ∧ (s.dev.port h.val).linkUp = true) ∧
    (∃ (s : State) (h : HstId),
      (s.dev.port h.val).enabled = true ∧ s.dev.rd F.glbStructStat_activate < 2) ∧
    (∃ (s : State) (h : HstId),
      (s.dev.port h.val).enabled = true) ∧
    (∃ (s : State) (h : HstId),
      (s.dev.port h.val).shst = 1 ∧ allClean s.dev = true) ∧
    (∃ (s : State),
      s.dev.reset.waitCool = false ∧ s.dev.reset.held = false ∧ stopping s.dev = false ∧ s.dev.rd F.glbStart_stage = 8) ∧
    (∃ (s : State),
      s.dev.reset.waitCool = true) ∧
    (∃ (s : State),
      s.dev.reset.stage = 3 ∧ s.dev.reset.thermal = false) ∧
    (∃ (s : State),
      s.dev.reset.stage = 3 ∧ s.dev.reset.thermal = true) :=
  ⟨⟨tSt fun d => d.updPort 0 fun p => { p with linkUp := true }, 0, by decide +kernel⟩,
   ⟨tSt fun d => (d.wr F.glbStructStat_activate 1).updPort 0 fun p => { p with enabled := true }, 0, by decide +kernel⟩,
   ⟨tHost id, 0, by decide +kernel⟩,
   ⟨tSt fun d => d.updPort 0 fun p => { p with shst := 1 }, 0, by decide +kernel⟩,
   ⟨tHost fun d => (d.wr F.glbStart_stage 8).setFlag F.glbPins_sys_rst_n true, by decide +kernel⟩,
   ⟨tSt fun d => (d.setFlag F.glbPins_sys_rst_n true).updReset fun r => { r with waitCool := true }, by decide +kernel⟩,
   ⟨tSt fun d => d.updReset fun r => { r with stage := 3 }, by decide +kernel⟩,
   ⟨tSt fun d => d.updReset fun r => { r with stage := 3, thermal := true }, by decide +kernel⟩⟩

theorem test_meets_PowerRowsComplete :
    (∃ (s : State) (deep : List HstId) (e : Dev),
      e = forEach (presentHdas s.dev) (syncVotes s.dev) evaluateHda ∧ e.rd F.pwrCs_state ≠ 2 ∧ cs2Ok (e.wr F.pwrCs_cs2_block (cs2Block e)) (deep.map (·.val)) = true) ∧
    (∃ (s : State) (deep : List HstId) (e : Dev),
      e = forEach (presentHdas s.dev) (syncVotes s.dev) evaluateHda ∧ e.rd F.pwrCs_state = 0 ∧ cs2Ok (e.wr F.pwrCs_cs2_block (cs2Block e)) (deep.map (·.val)) = false) ∧
    (∃ (s : State) (n : HdaId),
      hdaIdle s.dev n.val = true ∧ s.dev.hdaPresent n.val = true) ∧
    (∃ (s : State) (n : HdaId),
      s.dev.flag F.pwrHs_in_transition 0 n.val = true ∧ s.dev.rd F.pwrHs_step 0 n.val = 1 ∧ s.dev.rd F.pwrHs_state 0 n.val = 0 ∧ s.dev.rd F.pwrHs_target 0 n.val = 1) ∧
    (∃ (s : State) (n : HdaId),
      s.dev.flag F.pwrHs_in_transition 0 n.val = true ∧ s.dev.rd F.pwrHs_step 0 n.val = 3 ∧ s.dev.power.reload.contains n.val = false) ∧
    (∃ (s : State) (a : ActId),
      actWork s.dev a.val = false ∧ permittedOf s.dev (a.val / 2) ≠ 0) ∧
    (∃ (s : State) (dom : DomId),
      mayRetain s.dev dom.val = true) ∧
    (∃ (s : State) (dom : DomId),
      domState s.dev dom.val = 1) ∧
    (∃ (s : State) (dom : DomId),
      domState s.dev dom.val = 1 ∧ s.dev.power.stalled = []) ∧
    (∃ (s : State),
      s.dev.rd F.pwrCs_state = 0 ∧ cs1Ok s.dev = true) ∧
    (∃ (s : State),
      s.dev.rd F.pwrCs_state = 2) ∧
    (∃ (s : State) (mw : Nat),
      maxPower s.dev (s.dev.rd F.pwrPs_ps) < mw ∧ s.dev.power.lastPs = 0 ∧ s.dev.rd F.thmStat_step = 0 ∧ s.dev.power.cut = 0) :=
  ⟨⟨tRest, [], _, rfl, by decide +kernel⟩,
   ⟨tSt fun d => d.wr F.pwrCs_cs_allow 1, [], _, rfl, by decide +kernel⟩,
   ⟨tSt id, 0, by decide +kernel⟩,
   ⟨tSt fun d => (((d.wr F.pwrHs_state 0 0 0).wr F.pwrHs_target 1 0 0).wr F.pwrHs_step 1 0 0).setFlag F.pwrHs_in_transition true 0 0, 0, by decide +kernel⟩,
   ⟨tSt fun d => (d.wr F.pwrHs_step 3 0 0).setFlag F.pwrHs_in_transition true 0 0, 0, by decide +kernel⟩,
   ⟨tSt fun d => (d.wr F.pwrHsCfg_hs_allow 15).setBit F.pwrVote_dom 12 true 0 0, 1, by decide +kernel⟩,
   ⟨tSt id, 22, by decide +kernel⟩,
   ⟨tSt fun d => d.wr F.pwrDom_dom 1 0 22, 22, by decide +kernel⟩,
   ⟨tSt fun d => d.wr F.pwrDom_dom 1 0 22, 22, by decide +kernel⟩,
   ⟨tSt fun d => d.wr F.pwrCs_cs_allow 1, by decide +kernel⟩,
   ⟨tSt fun d => (((d.wr F.pwrCs_state 2).wr F.pwrDom_dom 1 0 1).wr F.pwrDom_dom 2 0 5).wr F.pwrDom_dom 1 0 22, by decide +kernel⟩,
   ⟨tSt id, 58001, by decide +kernel⟩⟩

/-- The header of an image of `n` bytes with magic `m` and payload of zeros (R37). -/
def tImage (m : List Nat) (n : Nat) : List Byte :=
  tBytes (m ++ [1, 0, 0, 0, n % 256, n / 256, 0, 0, 0, 0, 0, 0] ++ List.replicate 12 0 ++ [0xB0, 0]) ++ List.replicate (n - 30) 0#8
def tMiov : List Byte := tImage [0x4D, 0x49, 0x4F, 0x56] 344
def tEvfw : List Byte := tImage [0x45, 0x56, 0x46, 0x57] 344
def tAct (p : ActPhase) : State := tHost fun d => (d.wr F.glbStructStat_activate 1).updStruct fun x => { x with phase := p, staging := [(0, tMiov)], stagingOwner := some 0 }
def tFw (sw : Option (Nat × Nat × Nat)) : State := tHost fun d => { d with sec := { d.sec with otp := { keyHash := [(0, Config.sha384 (sliceBytes tEvfw 0x80 97))] } }, fw := { run := 0, staging := [(0, tEvfw)], sw := sw } }
/-- A staged firmware image verifies, where the hash of its key is not 0 and its signature verifies. -/
theorem test_firmware_verifies (hk : Config.sha384 (zeros 97) ≠ 0)
    (hs : Config.ecdsaVerify (zeros 97) (tEvfw.take 248) (tEvfw.drop 248) = true) :
    AdminRuns (tFw none) 0 false ((tFw none).dev.fw.run == 2) ∧ fwStaged (tFw none).dev = some tEvfw ∧
      (tFw none).dev.fw.staging ≠ [] ∧ firmwareOk (wakeChip (tFw none).dev) tEvfw = true := by
  have h1 : headerOk tEvfw evfwMagic (32 * 2 ^ 20) true = true := by decide +kernel
  have hkey : sliceBytes tEvfw 0x80 97 = zeros 97 := by decide +kernel
  have h0 : imgSigner tEvfw = 0 := by decide +kernel
  have hl : tEvfw.length = 344 := by decide +kernel
  have hw : wakeChip (tFw none).dev = (tFw none).dev := by rfl
  have ht : tabGet 0 (tFw none).dev.sec.otp.keyHash 0 = Config.sha384 (zeros 97) := by rw [← hkey]; rfl
  have h2 : signerOk (tFw none).dev tEvfw = true := by simp [signerOk, keyAccepted, hkey, h0, ht, hk]
  have h3 : signatureOk tEvfw = true := by simp [signatureOk, hkey, hl, hs]
  have h4 : imgRev tEvfw = dieRev := by decide +kernel
  refine ⟨by unfold AdminRuns; decide +kernel, by decide +kernel, by decide +kernel, ?_⟩
  have h5 : decide ((tFw none).dev.sec.otp.arbFw ≤ imgArb tEvfw) = true := by decide +kernel
  rw [hw]
  unfold firmwareOk
  rw [h1, h0, h2, h3, h4, h5]
  rfl

theorem test_meets_ActivateRowsComplete :
    (∃ (s : State) (h : HstId) (offsetDw : Nat) (piece : List (BitVec 8)),
      AdminRuns s h.val true true ∧ saRefusal (wakeChip s.dev) h.val = none ∧ s.dev.struct.phase = .idle ∧ offsetDw % 1024 = 0 ∧ piece ≠ [] ∧ offsetDw * 4 + piece.length ≤ 4 * 2 ^ 20 ∧ ((piece.length % 4096 = 0 ∨ pieceLen (s.dev.struct.staging ++ [(offsetDw * 4, piece)]) = some (offsetDw * 4 + piece.length)))) ∧
    (∃ (s : State) (h : HstId) (n : Nat),
      AdminRuns s h.val true true ∧ saRefusal (wakeChip s.dev) h.val = none ∧ s.dev.struct.phase = .idle ∧ pieceLen s.dev.struct.staging = some n ∧ n ≤ 4 * 2 ^ 20 ∧ pieceWhole s.dev.struct.staging n = true) ∧
    (∃ (s : State) (h : HstId),
      AdminRuns s h.val true true ∧ saRefusal (wakeChip s.dev) h.val = none) ∧
    (∃ (s : State) (k : Nat),
      s.dev.struct.phase = .verifying ∧ s.dev.struct.staging ≠ [] ∧ k = (verifyImage s.dev (pieceImage s.dev.struct.staging ((pieceLen s.dev.struct.staging).getD 0))).1 ∧ k ≤ 15) ∧
    (∃ (s : State) (b : List Byte),
      s.dev.struct.phase = .writing ∧ b = pieceImage s.dev.struct.staging ((pieceLen s.dev.struct.staging).getD 0)) ∧
    (∃ (s : State),
      s.dev.struct.phase = .draining ∧ s.dev.host.ctxs = []) ∧
    (∃ (s : State),
      s.dev.struct.phase = .destaging ∧ (copiesOf s.dev).isEmpty = true ∧ s.dev.host.locker = [] ∧ s.dev.host.held.all (fun x => x.kind != 2) = true) ∧
    (∃ (s : State),
      s.dev.struct.phase = .wiping ∧ s.dev.reset.wipeSram = false ∧ s.dev.reset.wipeDram = false) :=
  ⟨⟨tHost id, 0, 0, tMiov, by unfold AdminRuns; decide +kernel, by decide +kernel⟩,
   ⟨tAct .idle, 0, 344, by unfold AdminRuns; decide +kernel, by decide +kernel⟩,
   ⟨tAct .idle, 0, by unfold AdminRuns; decide +kernel, by decide +kernel⟩,
   ⟨tAct .verifying, _, by decide +kernel, by decide +kernel, rfl, by decide +kernel⟩,
   ⟨tAct .writing, _, by decide +kernel, rfl⟩,
   ⟨tAct .draining, by decide +kernel⟩,
   ⟨tAct .destaging, by decide +kernel⟩,
   ⟨tAct .wiping, by decide +kernel⟩⟩

theorem test_meets_FirmwareRowsComplete :
    (∃ (s : State) (h : HstId) (offsetDw : Nat) (piece : List (BitVec 8)),
      AdminRuns s h.val false true ∧ piece ≠ [] ∧ offsetDw * 4 + piece.length ≤ 32 * 2 ^ 20) ∧
    (∃ (s : State) (h : Nat) (cid : Nat) (slot : Nat),
      s.dev.fw.sw = some (h, cid, slot) ∧ s.dev.host.ctxs = [] ∧ (s.dev.port h).enabled = true) ∧
    (∃ (s : State) (h : Nat) (cid : Nat) (slot : Nat),
      s.dev.fw.sw = some (h, cid, slot) ∧ s.dev.host.ctxs ≠ [] ∧ (s.dev.port h).enabled = true) :=
  ⟨⟨tHost id, 0, 4, [1#8], by unfold AdminRuns; decide +kernel, by decide +kernel⟩,
   ⟨tFw (some (0, 9, 1)), 0, 9, 1, by decide +kernel⟩,
   ⟨let s := tFw (some (0, 9, 1)); { s with dev := s.dev.updHost fun x => { x with ctxs := [{ id := 1, fe := 0, org := .host 0 1 2, c := { kind := .flush, nsid := 1 } }] } }, 0, 9, 1, by decide +kernel⟩⟩

def tQueue : State := tHost fun d => d.updPort 0 fun p => { p with sqs := [{ qid := 2, prio := .low, entries := 2 }, { qid := 3, prio := .urgent, entries := 3, cmds := [(5, { kind := .flush, nsid := 1 })] }] }

theorem test_meets_SubmissionRowsComplete : ∃ q, (tQueue.dev.port 0).sqs.find? (fun q => q.qid == 3) = some q ∧
    q.cmds.length + 1 < q.entries :=
  ⟨_, rfl, by decide +kernel⟩

def tTask (k : MKind) : MTask := { tid := 4, kind := k, act := 0, begun := true }

theorem test_meets_PipelineRowsComplete :
    (∃ (s : State) (h : HstId) (q : Sq) (p : Port) (cid : Nat) (c : IoCmd) (rest : List (Nat × IoCmd)),
      fetchAllowed s.dev h.val = true ∧ chooseQueue (s.dev.port h.val) = some (q, p) ∧ q.cmds = (cid, c) :: rest ∧ ioInUse s.dev h.val < ioShare s.dev h.val ∧ s.dev.rd F.loop_depth h.val ≠ 4 ∧ fetchCheck s.dev (.host h.val q.qid cid) h.val c = none) ∧
    (∃ (s : State) (h : HstId),
      ioInUse s.dev h.val < ioShare s.dev h.val) ∧
    (∃ (s : State) (fe : Fin 7) (x : Ctx) (P : Dev → Prop),
      feHead s.dev fe.val = some x ∧ locksInUse s.dev + (locksOf s.dev x.c).length ≤ 16384 ∧ pointerCheck s.dev x.c = none ∧ x.c.kind ≠ .ctxSave ∧ x.c.kind ≠ .ctxRestore ∧ (P = (fun d => d.host.order = s.dev.host.order ++ [x.id] ∧ d.bit F.hstRltStat_blocked fe.val 0 = false ∧ ∃ y, d.ctx? x.id = some y ∧ y.stage = .locked ∧ y.locks = locksOf s.dev x.c))) ∧
    (∃ (s : State) (id : Nat) (x : Ctx) (h : Nat) (qid : Nat) (cid : Nat),
      s.dev.ctx? id = some x ∧ x.stage = .locked ∧ lockFree s.dev x = true ∧ x.org = .host h qid cid ∧ nsidNode x.c.nsid = 0 ∧ s.dev.chain.selfNaks = [] ∧ ((x.c.kind = .write ∨ x.c.kind = .writeZeroes ∨ x.c.kind = .writeUncorrectable))) ∧
    (∃ (s : State) (id : Nat) (x : Ctx) (e : Extent) (ns : Ns) (h : Nat) (qid : Nat) (cid : Nat),
      s.dev.ctx? id = some x ∧ x.stage = .locked ∧ lockFree s.dev x = true ∧ x.org = .host h qid cid ∧ nsidNode x.c.nsid = 0 ∧ x.c.kind = .read ∧ x.c.nsid ≠ 0xFFFFFFFF ∧ s.dev.ns? x.c.nsid = some ns ∧ overlapping s.dev x.c.nsid x.c.slba x.c.count = [e] ∧ ((x.c.lbas.all fun l => e.cells.any fun c => c.lba == l) = true) ∧ ((∀ l ∈ x.c.lbas, ∃ c t, s.dev.bufCell x.c.nsid l = some c ∧ c.now.poison = false ∧ c.now.blk = .data t ∧ pairOf s.dev ns x.c.keyTag l = some c.now.pair))) ∧
    (∃ (s : State) (id : Nat) (x : Ctx) (ns : Ns) (h : Nat) (qid : Nat) (cid : Nat),
      s.dev.ctx? id = some x ∧ x.stage = .moving ∧ x.c.kind = .write ∧ x.org = .host h qid cid ∧ s.dev.ns? x.c.nsid = some ns) ∧
    (∃ (s : State) (n : HdaId) (wid : Nat) (x : Ctx) (e : Dev) (g : Dev),
      firstWaiting s.dev n.val = some wid ∧ s.dev.ctx? wid = some x ∧ dataIn x = true ∧ noBand s.dev x n.val = false ∧ zoneEarlierWaits s.dev x = false ∧ e = journalWrite (markCovered s.dev wid n.val) wid n.val ∧ (g = (match e.ns? x.c.nsid with | some ns => if ns.zoned then refreshParity e x.c.nsid (zoneIndex e ns x.c.slba) else e | none => e)) ∧ dirtyAll s.dev ≤ boundAll s.dev ∧ dirtyOf s.dev n.val ≤ boundOf s.dev n.val ∧ dirtyAll g ≤ boundAll s.dev ∧ dirtyOf g n.val ≤ boundOf s.dev n.val) :=
  ⟨⟨let s := tWork [] []; { s with dev := (s.dev.wr F.pwrCs_state 1).updPort 0 fun p => { p with sqs := [{ qid := 2, prio := .low, entries := 2, cmds := [(7, tCmd .flush)] }] } }, 0, { qid := 2, prio := .low, entries := 2, cmds := [(7, tCmd .flush)] }, ((chooseQueue ((let s := tWork [] []; { s with dev := s.dev.updPort 0 fun p => { p with sqs := [{ qid := 2, prio := .low, entries := 2, cmds := [(7, tCmd .flush)] }] } } : State).dev.port 0)).map (·.2)).getD {}, 7, tCmd .flush, [], by decide +kernel⟩,
   ⟨tWork [] [], 0, by decide +kernel⟩,
   by refine ⟨tWork [{ tCtx .read .fetched with fe := 0 }] [], 0, tCtx .read .fetched, _, ?_, ?_, ?_, ?_, ?_, rfl⟩ <;> decide +kernel,
   ⟨tWork [tCtx .writeUncorrectable .locked] [], 5, tCtx .writeUncorrectable .locked, 0, 2, 7, by decide +kernel⟩,
   by refine ⟨tWork [tCtx .read .locked] [tExt true], 5, tCtx .read .locked, tExt true, tNs, 0, 2, 7, ?_, ?_, ?_, ?_, ?_, ?_, ?_, ?_, ?_, ?_, fun l hl => (show l = 8 by simpa [IoCmd.lbas, tCtx, tCmd] using hl) ▸ ⟨_, _, rfl, rfl, rfl, rfl⟩⟩ <;> decide +kernel,
   ⟨tWork [tCtx .write .moving] [], 5, tCtx .write .moving, tNs, 0, 2, 7, by decide +kernel⟩,
   by refine ⟨tWork [tCtx .write .buffered] [tExt false], 0, 5, tCtx .write .buffered, _, _, ?_, ?_, ?_, ?_, ?_, rfl, rfl, ?_⟩ <;> decide +kernel⟩

theorem test_meets_CommandEndRowsComplete :
    (∃ (s : State) (id : Nat) (x : Ctx) (h : Nat) (qid : Nat) (cid : Nat),
      s.dev.ctx? id = some x ∧ waitsR88 s.dev x = true ∧ x.org = .host h qid cid) ∧
    (∃ (s : State) (tid : Nat) (wid : Nat) (t : MTask) (e : Extent) (ns : Ns),
      s.dev.host.tasks.find? (fun t => t.tid == tid) = some t ∧ t.begun = true ∧ t.kind = .destage wid ∧ (s.dev.seq t.act).ended = none ∧ whollyCovered s.dev wid = true ∧ s.dev.host.extents.filter (fun e => e.wid == wid) = [e] ∧ s.dev.ns? e.nsid = some ns ∧ s.dev.host.headDet = [] ∧ (keysCached s.dev ns ((e.cells.filter fun c => c.now.act == t.act).map fun c => c.now.pair) = true)) ∧
    (∃ (s : State) (tid : Nat) (wid : Nat) (t : MTask) (ns : Ns),
      s.dev.host.tasks.find? (fun t => t.tid == tid) = some t ∧ t.begun = true ∧ t.kind = .locker wid ∧ (s.dev.seq t.act).ended = none ∧ (unsafeCopies s.dev wid t.act).all (fun c => c.1 == ns.nsid) = true ∧ s.dev.ns? ns.nsid = some ns ∧ (keysCached s.dev ns ((unsafeCopies s.dev wid t.act).map fun c => c.2.2.pair) = true)) ∧
    (∃ (s : State) (tid : Nat) (id : Nat) (t : MTask),
      s.dev.host.tasks.find? (fun t => t.tid == tid) = some t ∧ t.begun = true ∧ t.kind = .read id ∧ (s.dev.seq t.act).ended = none) ∧
    (∃ (s : State) (tid : Nat) (t : MTask),
      s.dev.host.tasks.find? (fun t => t.tid == tid) = some t ∧ t.begun = true) ∧
    (∃ (s : State) (id : Nat) (eid : Nat) (a : Nat) (x : Ctx),
      s.dev.ctx? id = some x ∧ x.stage = .flushing ∧ x.pend.contains eid = true ∧ ((((copiesOf s.dev).filter fun c => c.2.wid == eid && c.2.covered && !c.2.safe).map fun c => c.2.act).eraseDups = [a]) ∧ hdaReady s.dev (a / 2) = true) ∧
    (∃ (s : State) (id : Nat) (x : Ctx) (h : Nat) (qid : Nat) (cid : Nat),
      s.dev.ctx? id = some x ∧ x.stage = .flushing ∧ x.org = .host h qid cid ∧ (copiesOf s.dev).any (fun c => x.pend.contains c.2.wid && c.2.covered && !c.2.safe) = false) ∧
    (∃ (s : State) (h : HstId) (qid : Nat) (target : Nat) (x : Ctx),
      AdminRuns s h.val false false ∧ s.dev.host.ctxs.find? (fun x => x.org == .host h.val qid target) = some x ∧ begunNow s.dev x = true) ∧
    (∃ (s : State) (h : HstId) (qid : Nat) (target : Nat) (x : Ctx),
      AdminRuns s h.val false false ∧ s.dev.host.ctxs.find? (fun x => x.org == .host h.val qid target) = some x ∧ begunNow s.dev x = false ∧ s.dev.ctx? x.id = some x) :=
  ⟨⟨tWork [tCtx .write .buffered] [tExt false], 5, tCtx .write .buffered, 0, 2, 7, by decide +kernel⟩,
   ⟨let s := tWork [] [tExt true]; { s with dev := { s.dev.updHost fun x => { x with tasks := [tTask (.destage 5)] } with cipher := { s.dev.cipher with cache := [6, 7] } } }, 4, 5, tTask (.destage 5), tExt true, tNs, by decide +kernel⟩,
   ⟨let s := tWork [] [tExt true]; { s with dev := { s.dev.updHost fun x => { x with tasks := [tTask (.locker 5)] } with cipher := { s.dev.cipher with cache := [6, 7] } } }, 4, 5, tTask (.locker 5), tNs, by decide +kernel⟩,
   ⟨let s := tWork [{ tCtx .read .media with pend := [0] }] []; { s with dev := s.dev.updHost fun x => { x with tasks := [tTask (.read 5)] } }, 4, 5, tTask (.read 5), by decide +kernel⟩,
   ⟨let s := tWork [] []; { s with dev := (s.dev.updHost fun x => { x with tasks := [{ tTask (.read 5) with retries := 2 }] }).updSeq 0 fun q => { q with ended := some (1, 0) } }, 4, { tTask (.read 5) with retries := 2 }, by decide +kernel⟩,
   ⟨let s := tWork [{ tCtx .flush .flushing with id := 6, pend := [5] }] [tExt true]; { s with dev := s.dev.wr F.pwrHs_state 0 0 0 }, 6, 5, 0, { tCtx .flush .flushing with id := 6, pend := [5] }, by decide +kernel⟩,
   ⟨tWork [{ tCtx .flush .flushing with pend := [4] }] [], 5, { tCtx .flush .flushing with pend := [4] }, 0, 2, 7, by decide +kernel⟩,
   ⟨tWork [{ tCtx .read .media with begun := true }] [], 0, 2, 7, { tCtx .read .media with begun := true }, by unfold AdminRuns; decide +kernel, by decide +kernel⟩,
   ⟨tWork [tCtx .write .buffered] [tExt false], 0, 2, 7, tCtx .write .buffered, by unfold AdminRuns; decide +kernel, by decide +kernel⟩⟩

theorem test_meets_AdminRowsComplete :
    (∃ (s : State) (h : HstId),
      AdminRuns s h.val true true) ∧
    (∃ (s : State) (h : HstId),
      AdminRuns s h.val true true) ∧
    (∃ (s : State) (h : HstId) (nsid : Nat) (ns : _),
      AdminRuns s h.val true true ∧ nsidNode nsid = 0 ∧ nsid < 1024 ∧ s.dev.ns? nsid = some ns ∧ s.dev.rd F.glbStructStat_loaded ≠ 3) ∧
    (∃ (s : State) (h : HstId) (q : Nat),
      AdminRuns s h.val false true ∧ q = queuePairs s.dev h.val - 1) ∧
    (∃ (s : State) (h : HstId) (qid : Nat) (entries : Nat),
      AdminRuns s h.val false true ∧ 1 ≤ qid ∧ qid ≤ queuePairs s.dev h.val ∧ 2 ≤ entries ∧ entries ≤ 16384 ∧ (((s.dev.port h.val).cqs.any fun q => q.1 == qid) = false)) ∧
    (∃ (s : State) (h : HstId) (qid : Nat) (entries : Nat),
      AdminRuns s h.val false true ∧ 1 ≤ qid ∧ qid ≤ queuePairs s.dev h.val ∧ 2 ≤ entries ∧ entries ≤ 16384 ∧ (((s.dev.port h.val).cqs.any fun q => q.1 == qid) = true) ∧ (((s.dev.port h.val).sqs.any fun q => q.qid == qid) = false)) ∧
    (∃ (s : State) (h : HstId),
      AdminRuns s h.val false false) ∧
    (∃ (s : State) (h : HstId) (ps : Nat),
      AdminRuns s h.val false false ∧ ps ≤ 4) ∧
    (∃ (s : State) (h : HstId) (sensor : Nat) (kelvin : Nat),
      AdminRuns s h.val false false ∧ sensor ≤ 7 ∧ kelvin ≤ 65535) ∧
    (∃ (s : State) (h : HstId) (nsid : Nat) (us : Nat) (ns : Ns),
      AdminRuns s h.val false false ∧ us ≤ 60000000 ∧ nsidNode nsid = 0 ∧ nsid < 1024 ∧ s.dev.ns? nsid = some ns) ∧
    (∃ (s : State) (h : HstId) (nsid : Nat) (ns : Ns),
      AdminRuns s h.val true false ∧ nsidNode nsid = 0 ∧ nsid < 1024 ∧ s.dev.ns? nsid = some ns) ∧
    (∃ (s : State) (h : HstId) (mask : Nat) (curve : Nat),
      AdminRuns s h.val false false ∧ mask < 16 ∧ ((((List.range 4).filter fun n => mask.testBit n).all s.dev.hdaPresent) = true) ∧ ((curve = 0 ∨ curve < 8 ∧ (s.dev.section 14 curve).isSome = true))) ∧
    (∃ (s : State) (h : HstId),
      AdminRuns s h.val true false) ∧
    (∃ (s : State) (h : HstId),
      AdminRuns s h.val true false) ∧
    (∃ (s : State) (h : HstId),
      AdminRuns s h.val false false) ∧
    (∃ (s : State) (h : HstId),
      AdminRuns s h.val true false ∧ (s.dev.port h.val).notices = []) :=
  ⟨⟨tAdm tNs, 0, by unfold AdminRuns; decide +kernel⟩,
   ⟨tAdm tNs, 0, by unfold AdminRuns; decide +kernel⟩,
   ⟨tAdm tNs, 0, 1, tNs, by unfold AdminRuns; decide +kernel, by decide +kernel⟩,
   ⟨tAdm tNs, 0, _, by unfold AdminRuns; decide +kernel, rfl⟩,
   ⟨tAdm tNs, 0, 28, 16384, by unfold AdminRuns; decide +kernel, by decide +kernel⟩,
   ⟨let s := tAdm tNs; { s with dev := s.dev.updPort 0 fun p => { p with cqs := [(28, 2)] } }, 0, 28, 2, by unfold AdminRuns; decide +kernel, by decide +kernel⟩,
   ⟨tAdm tNs, 0, by unfold AdminRuns; decide +kernel⟩,
   ⟨tAdm tNs, 0, 4, by unfold AdminRuns; decide +kernel, by decide +kernel⟩,
   ⟨tAdm tNs, 0, 7, 65535, by unfold AdminRuns; decide +kernel, by decide +kernel⟩,
   ⟨tAdm tNs, 0, 1, 60000000, tNs, by unfold AdminRuns; decide +kernel, by decide +kernel⟩,
   ⟨tAdm tNs, 0, 1, tNs, by unfold AdminRuns; decide +kernel, by decide +kernel⟩,
   ⟨tAdm tNs, 0, 1, 0, by unfold AdminRuns; decide +kernel, by decide +kernel⟩,
   ⟨tAdm tNs, 0, by unfold AdminRuns; decide +kernel⟩,
   ⟨tAdm tNs, 0, by unfold AdminRuns; decide +kernel⟩,
   ⟨tAdm tNs, 0, by unfold AdminRuns; decide +kernel⟩,
   ⟨tAdm tNs, 0, by unfold AdminRuns; decide +kernel, by decide +kernel⟩⟩

theorem test_meets_LogAndNamespaceRowsComplete :
    (∃ (s : State) (h : HstId) (lsp : Nat),
      AdminRuns s h.val true true ∧ lsp.testBit 2 = true) ∧
    (∃ (s : State) (h : HstId) (lsp : Nat) (offset : Nat),
      AdminRuns s h.val true true ∧ lsp.testBit 2 = false ∧ offset < 4096) ∧
    (∃ (s : State) (h : HstId),
      AdminRuns s h.val true true) ∧
    (∃ (s : State) (h : HstId) (nsid : Nat) (ns : Ns),
      AdminRuns s h.val true true ∧ nsidNode nsid = 0 ∧ nsid < 1024 ∧ s.dev.ns? nsid = some ns) ∧
    (∃ (s : State) (h : HstId),
      AdminRuns s h.val true true) ∧
    (∃ (s : State) (h : HstId),
      AdminRuns s h.val true true) ∧
    (∃ (s : State) (h : HstId),
      AdminRuns s h.val true true) ∧
    (∃ (s : State) (h : HstId) (n : Nat) (c : NsCreate) (draft : Ns) (zs : List Zone),
      AdminRuns s h.val false false ∧ draft = { nsid := 0, zoned := c.zoned, nsze := c.nsze, cls := c.cls, parity := parityOf s.dev c, actMask := c.actMask, kpio := c.kpio } ∧ createInvalid s.dev c (zoneSize s.dev draft) = false ∧ freeNsid s.dev = some n ∧ bandsFor (wakeChip s.dev) draft = some zs ∧ keysPossible (wakeChip s.dev) = true) ∧
    (∃ (s : State) (h : HstId) (nsid : Nat) (ns : Ns),
      AdminRuns s h.val false false ∧ nsidNode nsid = 0 ∧ nsid < 1024 ∧ s.dev.ns? nsid = some ns) ∧
    (∃ (s : State) (h : HstId) (nsid : Nat) (ns : Ns) (ctrls : List Nat),
      AdminRuns s h.val false false ∧ nsidNode nsid = 0 ∧ nsid < 1024 ∧ s.dev.ns? nsid = some ns ∧ ctrlListOk s.dev ctrls = true ∧ ((ctrls.any fun c => ns.ctrls.contains c) = false) ∧ ((nsMode s.dev = 1 → ns.ctrls = []))) ∧
    (∃ (s : State) (h : HstId) (nsid : Nat) (ns : Ns) (ctrls : List Nat),
      AdminRuns s h.val false false ∧ nsidNode nsid = 0 ∧ nsid < 1024 ∧ s.dev.ns? nsid = some ns ∧ ctrlListOk s.dev ctrls = true ∧ ((ctrls.all fun c => ns.ctrls.contains c) = true)) :=
  ⟨⟨tAdm tNs, 0, 4, by unfold AdminRuns; decide +kernel, by decide +kernel⟩,
   ⟨tAdm tNs, 0, 3, 4095, by unfold AdminRuns; decide +kernel, by decide +kernel⟩,
   ⟨tAdm tNs, 0, by unfold AdminRuns; decide +kernel⟩,
   ⟨tAdm tNs, 0, 1, tNs, by unfold AdminRuns; decide +kernel, by decide +kernel⟩,
   ⟨tAdm tNs, 0, by unfold AdminRuns; decide +kernel⟩,
   ⟨tAdm tNs, 0, by unfold AdminRuns; decide +kernel⟩,
   ⟨tAdm tNs, 0, by unfold AdminRuns; decide +kernel⟩,
   ⟨tAdm tNs, 0, 2, { zoned := true, nsze := 131072, cls := 0, parity := 0xFF, actMask := 2, reservedZero := true, kpio := false }, _, (bandsFor (tAdm tNs).dev { nsid := 0, zoned := true, nsze := 131072, cls := 0, parity := 0, actMask := 2, kpio := false }).getD [], by unfold AdminRuns; decide +kernel, rfl, by decide +kernel⟩,
   ⟨tAdm tNs, 0, 1, tNs, by unfold AdminRuns; decide +kernel, by decide +kernel⟩,
   ⟨tAdm { tNs with ctrls := [] }, 0, 1, { tNs with ctrls := [] }, [1, 2], by unfold AdminRuns; decide +kernel, by decide +kernel⟩,
   ⟨tAdm { tNs with ctrls := [1, 2] }, 0, 1, { tNs with ctrls := [1, 2] }, [1, 2], by unfold AdminRuns; decide +kernel, by decide +kernel⟩⟩

def tPack (xs : List Ctx) : State := let s := tWork xs []; { s with dev := s.dev.updComp fun c => { c with queues := [(9, [5])], frames := [(5, tFrame)], engines := [(7, 5)] } }
def tZoned (z : Zone) (xs : List Ctx) : State := let s := tPack xs; { s with dev := s.dev.updHost fun x => { x with nss := [{ tZns with zones := [z] }] } }
def tImgHead : List Byte := toBytes 0x43535645 4 ++ toBytes 1 2 ++ toBytes 9 2 ++ toBytes 0 1 ++ toBytes 0 7 ++ toBytes 0 4 ++ toBytes 0 4 ++
  toBytes 0 8 ++ toBytes 0 8 ++ toBytes (crc64 []) 8 ++ toBytes 0 968
theorem test_crc64_fits (b : List Byte) : crc64 b < 2 ^ 64 := by
  have hs : ∀ (l : List Nat) (x : Byte) (c : Nat), c < 2 ^ 64 →
      l.foldl (fun c k => (c / 2) ^^^ (if xor (c.testBit 0) (x.toNat.testBit k) then 0x9A6C9329AC4BC9B5 else 0)) c < 2 ^ 64 := by
    intro l x
    induction l with
    | nil => exact fun c h => h
    | cons k t ih => exact fun c h => ih _ (Nat.xor_lt_two_pow (by omega) (by split <;> decide))
  have hb : ∀ (l : List Byte) (c : Nat), c < 2 ^ 64 →
      l.foldl (fun crc x => (List.range 8).foldl (fun c k =>
        (c / 2) ^^^ (if xor (c.testBit 0) (x.toNat.testBit k) then 0x9A6C9329AC4BC9B5 else 0)) crc) c < 2 ^ 64 := by
    intro l
    induction l with
    | nil => exact fun c h => h
    | cons x t ih => exact fun c h => ih _ (hs _ x c h)
  exact Nat.xor_lt_two_pow (by decide) (hb b _ (by decide))
theorem test_fitTo_length (n : Nat) (b : List Byte) : (fitTo n b).length = n := by
  unfold fitTo; rw [List.length_append, List.length_take, List.length_replicate]; omega
theorem test_window_length (x : StreamCtx) (h : x.hist.length ≤ winSize) : (windowOf x).length = winSize := by
  unfold windowOf
  simp only [List.length_append, List.length_drop, List.length_take, test_fitTo_length]
  omega
/-- Restore takes the image that Save makes of an empty context (R147, R152). -/
theorem test_saved_image_restores : imageStream (streamImage 9 {}) = some { rest := windowOf {} } := by
  have hw : (windowOf {}).length = winSize := test_window_length _ (by decide)
  have hl : tImgHead.length = 1016 := by decide +kernel
  obtain ⟨w, hv⟩ : ∃ w, w = windowOf {} := ⟨_, rfl⟩
  obtain ⟨c, hc⟩ : ∃ c, c = crc64 (tImgHead ++ w) := ⟨_, rfl⟩
  have hi : streamImage 9 {} = tImgHead ++ toBytes c 8 ++ w := by rw [hc, hv]; rfl
  have hf (off n : Nat) (h : off + n ≤ 1016) : leBytes (tImgHead ++ toBytes c 8 ++ w) off n = leBytes tImgHead off n := by
    rw [List.append_assoc]; exact leBytes_left _ _ _ _ (by omega)
  have ht : (tImgHead ++ toBytes c 8 ++ w).take 0x3F8 = tImgHead := by rw [List.append_assoc, ← hl, List.take_left]
  have hd : (tImgHead ++ toBytes c 8 ++ w).drop 0x400 = w := by
    have : 0x400 = (tImgHead ++ toBytes c 8).length := by simp [hl]
    rw [this, List.drop_left]
  have hk : leBytes (tImgHead ++ toBytes c 8 ++ w) 0x3F8 8 = c := by
    have h := leBytes_mid tImgHead w c 8
    rw [hl] at h
    rw [h, Nat.mod_eq_of_lt]
    exact hc ▸ test_crc64_fits _
  have hn : (tImgHead ++ toBytes c 8 ++ w).length = ctxSize := by simp [hl, hv, hw, winSize, ctxSize]
  have h0 : leBytes tImgHead 0x10 4 = 0 := by decide +kernel
  have h1 : leBytes tImgHead 0x14 4 = 0 := by decide +kernel
  have hz : w.length = winSize := by rw [hv, hw]
  have hx : (w.drop 0 ++ w.take 0).drop (winSize - 0) = [] := by simp [hz]
  have hy : (w.drop 0 ++ w.take 0).take (winSize - 0) = w := by simp [← hz]
  rw [hi, ← hv]
  unfold imageStream
  simp only [hn, ht, hd, hk, hf 0 4 (by omega), hf 4 2 (by omega), hf 8 1 (by omega), hf 0x10 4 (by omega), hf 0x14 4 (by omega),
    hf 0x18 8 (by omega), hf 0x20 8 (by omega), hf 0x28 8 (by omega), h0, h1, hx, hy]
  rw [if_pos ⟨trivial, by decide +kernel, by decide +kernel, by decide +kernel, by decide +kernel, by decide +kernel, fun _ => trivial,
    by decide +kernel, by rw [hc]⟩]
  rfl
/-- A context at its head whose Restore carries that image. -/
def tRestore : Ctx := { tComp .ctxRestore .context with c := { tCmd .ctxRestore with ctx := 9, chunk := streamImage 9 {} } }
theorem test_meets_CompressionRowsComplete_restore : ∃ (s : State) (ctx h qid cid : Nat) (x : Ctx) (st : StreamCtx),
    ctxHead s.dev ctx = some x ∧ x.stage = .context ∧ x.c.kind = .ctxRestore ∧ x.org = .host h qid cid ∧
      imageStream x.c.chunk = some st :=
  ⟨tPack [tRestore], 9, 0, 2, 7, tRestore, { rest := windowOf {} }, rfl, rfl, rfl, rfl, test_saved_image_restores⟩
def tZeros : List Byte := tBytes [237, 193, 1, 13, 0, 0, 0, 194, 160, 247, 79, 109, 15, 7, 20, 0, 0, 0, 240, 110]
/-- The shortest stream of 4,096 zeros: one dynamic block (R144). -/
theorem test_zeros_deflate : deflateOk tZeros [] (fitTo 4096 []) = true := by decide +kernel
def tJob (enc : Bool) : GcmJob := { id := 5, enc := enc, slot := 6, generation := 1, nonce := 77, blocks := 3 }
def tGcm (enc : Bool) (k : IoKind) : State := let s := tPack [tComp k .cipher]; { s with dev := s.dev.updCipher fun c => { c with jobs := [(7, some (tJob enc))], slots := [(6, ({ state := 1, kind := 3, generation := 1 } : KeySlot).sealed)] } }
def tKeys (c : CipherState) : State := tSt fun d => { ((d.setFlag F.cphStat_kek_loaded true).wr F.secLc_state 2).setFlag F.cphStat_drbg_ok true with cipher := c }

theorem test_meets_CompressionRowsComplete :
    (∃ (s : State) (ctx : Nat) (x : Ctx),
      ctxHead s.dev ctx = some x ∧ x.stage = .context ∧ x.c.kind = .compAppend) ∧
    (∃ (s : State) (ctx : Nat) (h : Nat) (qid : Nat) (cid : Nat) (x : Ctx),
      ctxHead s.dev ctx = some x ∧ x.stage = .context ∧ x.c.kind = .ctxSave ∧ x.org = .host h qid cid ∧ (readStream s.dev x.c.ctx).1 = false) ∧
    (∃ (s : State) (ctx : Nat) (x : Ctx) (f : CFrame),
      ctxHead s.dev ctx = some x ∧ x.stage = .context ∧ x.c.kind = .compRead ∧ frameOf s.dev x.id = some f ∧ f.gcm = false ∧ f.history = false) ∧
    (∃ (s : State) (e : Fin 8) (id : Nat),
      e.val < s.dev.rd F.pwrPs_engines ∧ ((s.dev.comp.engines.any fun x => x.1 == e.val) = false) ∧ (s.dev.comp.waiting.find? (fun i => (s.dev.ctx? i).any fun x => x.stage == .engine) = some id)) ∧
    (∃ (s : State) (e : Fin 8) (stream : List (BitVec 8)) (x : Ctx) (ns : Ns),
      engineCtx s.dev e.val = some x ∧ x.c.kind = .compAppend ∧ s.dev.ns? x.c.nsid = some ns ∧ x.poison = [] ∧ (x.c.cont && (s.dev.stream x.c.ctx).holds) = false ∧ x.c.gcm = false ∧ deflateOk stream [] (fitTo (x.c.count * 4096) x.c.chunk) = true) ∧
    (∃ (s : State) (id : Nat) (zi : Nat) (start : Nat) (x : Ctx) (ns : Ns) (f : CFrame) (z : Zone),
      s.dev.ctx? id = some x ∧ x.stage = .placing ∧ s.dev.ns? x.c.nsid = some ns ∧ frameOf s.dev x.id = some f ∧ zi = zoneIndex s.dev ns x.c.slba ∧ ns.zones[zi]? = some z ∧ zoneWritable s.dev ns z = none ∧ z.wp + storedLbas f ≤ zoneCap s.dev ns ∧ start = zi * zoneSize s.dev ns + z.wp) ∧
    (∃ (s : State) (e : Fin 8) (h : Nat) (qid : Nat) (cid : Nat) (x : Ctx) (f : CFrame) (output : List (BitVec 8)) (errs : List Nat) (histErrs : List Nat) (infos : List BlockInfo),
      engineCtx s.dev e.val = some x ∧ x.c.kind = .compRead ∧ x.org = .host h qid cid ∧ frameOf s.dev x.id = some f ∧ (inflate (flipBits errs f.stream) (if f.history then flipBits histErrs (s.dev.stream f.ctxId).hist else []) = some (output, infos)) ∧ output.length = f.origLen ∧ crc64 output = f.crcOrig) :=
  ⟨⟨tPack [tComp .compAppend .context], 9, tComp .compAppend .context, by decide +kernel⟩,
   ⟨tPack [tComp .ctxSave .context], 9, 0, 2, 7, tComp .ctxSave .context, by decide +kernel⟩,
   ⟨tPack [tComp .compRead .context], 9, tComp .compRead .context, tFrame, by decide +kernel⟩,
   ⟨let s := tPack [tComp .compRead .engine]; { s with dev := (s.dev.wr F.pwrPs_engines 8).updComp fun c => { c with engines := [(0, 9)], waiting := [4, 5] } }, 7, 5, by decide +kernel⟩,
   by refine ⟨tPack [tComp .compAppend .engine], 7, tZeros, tComp .compAppend .engine, tNs, ?_, ?_, ?_, ?_, ?_, ?_, test_zeros_deflate⟩ <;> decide +kernel,
   by refine ⟨tZoned { tZone with state := .implicitOpen, wp := 65534 } [{ tComp .compAppend .placing with c := { tCmd .compAppend with slba := 0 } }], 5, _, _, { tComp .compAppend .placing with c := { tCmd .compAppend with slba := 0 } }, { tZns with zones := [{ tZone with state := .implicitOpen, wp := 65534 }] }, tFrame, { tZone with state := .implicitOpen, wp := 65534 }, ?_, ?_, ?_, ?_, rfl, ?_, ?_, ?_, rfl⟩ <;> decide +kernel,
   ⟨let s := tPack [tComp .compRead .engine]; { s with dev := s.dev.updComp fun c => { c with frames := [(5, { tFrame with stream := tBytes [1, 0, 0, 255, 255] })] } }, 7, 0, 2, 7, tComp .compRead .engine, { tFrame with stream := tBytes [1, 0, 0, 255, 255] }, [], [], [], [{ kind := 0, bytes := 0, bits := 40, stored := 40, fixed := 3 }], by decide +kernel⟩⟩

theorem test_meets_GcmRowsComplete :
    (∃ (s : State) (core : Fin 8) (errs : List Nat) (j : GcmJob) (x : Ctx) (f : CFrame) (f1 : CFrame),
      tabGet none s.dev.cipher.jobs core.val = some j ∧ s.dev.ctx? j.id = some x ∧ frameOf s.dev j.id = some f1 ∧ f = { f1 with stream := flipBits errs f1.stream } ∧ j.enc = true) ∧
    (∃ (s : State) (core : Fin 8) (errs : List Nat) (j : GcmJob) (x : Ctx) (f : CFrame) (f1 : CFrame),
      tabGet none s.dev.cipher.jobs core.val = some j ∧ s.dev.ctx? j.id = some x ∧ frameOf s.dev j.id = some f1 ∧ f = { f1 with stream := flipBits errs f1.stream } ∧ j.enc = false ∧ f.history = false ∧ gcmTagOf (s.dev.slot j.slot).wrapped f = f.tag) ∧
    (∃ (s : State) (core : Fin 8) (errs : List Nat) (j : GcmJob) (x : Ctx) (f : CFrame) (f1 : CFrame) (h : Nat) (qid : Nat) (cid : Nat),
      tabGet none s.dev.cipher.jobs core.val = some j ∧ s.dev.ctx? j.id = some x ∧ frameOf s.dev j.id = some f1 ∧ f = { f1 with stream := flipBits errs f1.stream } ∧ j.enc = false ∧ x.org = .host h qid cid ∧ gcmTagOf (s.dev.slot j.slot).wrapped f ≠ f.tag) ∧
    (∃ (s : State) (slot : Nat),
      s.dev.cipher.cache.contains slot = false ∧ (fetchKey s.dev slot false).1 = none ∧ ((s.dev.cipher.cache.length < 512 ∨ s.dev.cipher.waitJobs = []))) ∧
    (∃ (s : State),
      s.dev.cipher.recordDue = none ∧ s.dev.rd F.cphNonceLimit_value ≤ s.dev.rd F.cphNonceCtr_value + 2 ^ 19) ∧
    (∃ (s : State) (limit : Nat),
      s.dev.cipher.recordDue = some limit) :=
  ⟨⟨tGcm true .compAppend, 7, [], tJob true, tComp .compAppend .cipher, tFrame, tFrame, by decide +kernel⟩,
   ⟨let s := tGcm false .compRead; { s with dev := s.dev.updComp fun c => { c with frames := [(5, { tFrame with tag := gcmTagOf 0 tFrame })] } }, 7, [], tJob false, tComp .compRead .cipher, { tFrame with tag := gcmTagOf 0 tFrame }, { tFrame with tag := gcmTagOf 0 tFrame }, by decide +kernel, by decide +kernel, rfl, rfl, by decide +kernel, by decide +kernel, rfl⟩,
   ⟨let s := tGcm false .compRead; { s with dev := s.dev.updComp fun c => { c with frames := [(5, { tFrame with tag := gcmTagOf 0 tFrame + 1 })] } }, 7, [], tJob false, tComp .compRead .cipher, { tFrame with tag := gcmTagOf 0 tFrame + 1 }, { tFrame with tag := gcmTagOf 0 tFrame + 1 }, 0, 2, 7, by decide +kernel, by decide +kernel, rfl, rfl, by decide +kernel, by decide +kernel, (Nat.succ_ne_self _).symm⟩,
   ⟨tGcm false .compRead, 6, by decide +kernel⟩,
   ⟨tSt fun d => (d.wr F.cphNonceLimit_value (2 ^ 20 + 2 ^ 19)).wr F.cphNonceCtr_value (2 ^ 20), by decide +kernel⟩,
   ⟨tSt fun d => d.updCipher fun c => { c with recordDue := some (2 ^ 21) }, 2 ^ 21, by decide +kernel⟩⟩

theorem test_meets_KeyRowsComplete :
    (∃ (s : State) (i : Nat) (r : Retiring),
      s.dev.cipher.retiring.find? (fun r => r.slot == i) = some r ∧ pairInUse s.dev (i / 2) = false) ∧
    (∃ (s : State) (nsid : Nat) (tag : Nat) (e : Nat) (t : Nat) (ns : Ns),
      localNs s.dev nsid = some ns ∧ ns.kpio = true ∧ freePair s.dev = some e ∧ tcgAvailable s.dev = true ∧ s.dev.cipher.withheld = false ∧ s.dev.flag F.cphStat_kek_loaded = true ∧ tag < 65536 ∧ t = nsid * 65536 + tag ∧ tabGet 0 s.dev.cipher.tags t ≠ e + 1) ∧
    (∃ (s : State),
      s.dev.cipher.withheld = false ∧ s.dev.flag F.cphStat_kek_loaded = true) ∧
    (∃ (s : State) (r : Nat),
      ((s.dev.cipher.ranges.any fun x => x.idx == r && x.draining) = true) ∧ pairInUse s.dev (rangePair r) = false) ∧
    (∃ (s : State) (core : Fin 8) (j : GcmJob),
      tabGet none s.dev.cipher.jobs core.val = some j) ∧
    (∃ (s : State) (rq : Requester) (core : Fin 8) (b : List (BitVec 8)),
      restoreImage s.dev rq = some b ∧ (s.dev.slot (leBytes b 6 2)).state = 1 ∧ (s.dev.slot (leBytes b 6 2)).generation = leBytes b 8 4 ∧ tabGet none s.dev.cipher.jobs core.val = none) ∧
    (∃ (s : State) (m : Fin 4) (shuffle : Bool),
      (s.dev.rd F.secLc_state < 3 ∨ 4 < s.dev.rd F.secLc_state ∨ (s.dev.rd F.cphCm_dummy_max ≤ m.val ∧ (s.dev.flag F.cphCm_shuffle = true → shuffle = true)))) ∧
    (∃ (slot : Nat),
      slot < 65536) :=
  ⟨⟨tKeys { slots := [(9, { state := 2, kind := 1, generation := 4 })], retiring := [{ slot := 9, next := none, waiter := none }] }, 9, { slot := 9, next := none, waiter := none }, by decide +kernel⟩,
   by refine ⟨let s := tKeys {}; { s with dev := s.dev.updHost fun x => { x with nss := [{ tNs with kpio := true }] } }, 1, 65535, 1600, _, { tNs with kpio := true }, ?_, ?_, ?_, ?_, ?_, ?_, ?_, rfl, ?_⟩ <;> decide +kernel,
   ⟨tKeys { ranges := [{ idx := 63, nsid := 1, lo := 0, hi := 8 }] }, by decide +kernel⟩,
   ⟨tKeys { ranges := [{ idx := 63, nsid := 1, lo := 0, hi := 8, kek := some 4, draining := true }], cache := [2174, 5, 2175] }, 63, by decide +kernel⟩,
   ⟨tGcm true .compAppend, 7, tJob true, by decide +kernel⟩,
   ⟨let s := tGcm true .compAppend; { s with dev := (((s.dev.wr F.cphCtxWin_data (0x58435645 + 2 ^ 32 + 6 * 2 ^ 48) 0 0).wr F.cphCtxWin_data 1 0 1).wr F.cphCtxWin_data 128 0 7).updCipher fun c => { c with jobs := [] } }, .core 0, 6, toBytes (0x58435645 + 2 ^ 32 + 6 * 2 ^ 48 + 2 ^ 64 + 128 * 2 ^ 448) 64, by decide +kernel⟩,
   ⟨tSt fun d => d.wr F.cphCm_dummy_max 2, 3, true, by decide +kernel⟩,
   ⟨65535, by decide +kernel⟩⟩

def tSan (n p : Nat) : State := let s := tWork [] [tExt true]; { s with dev := (((s.dev.setFlag F.cphStat_kek_loaded true).setFlag F.cphStat_drbg_ok true).updCipher fun c => { c with san := { step := n, overwrite := true, passes := p }, store := [(2, { state := 1 })], slots := [(2, { state := 1, wrapped := 4 })], cache := [2] }).updHost fun x => { x with media := [(1, { mapped := true })], detention := [{ nsid := 1, lba := some 2, reason := 1, act := 0, head := 0, track := 2, time := 0 }] } }
/-- A session of port 0 with the authorities `l`, range 63 of namespace 1 unlocked. -/
def tTcg (l : List Nat) : State := let s := tAdm tNs; { s with dev := { (s.dev.wr F.secLc_state 2) with sec := { s.dev.sec with tcg := [(0, { isOpen := true, auths := l })] } }.updCipher fun c => { c with ranges := [{ idx := 63, nsid := 1, lo := 8, hi := 16, readLock := false }] } }
def tArg (r : Nat) : TcgArg := { authority := 65, range := r, lockRead := true, lockWrite := false, credentialOk := true, bounds := none }
theorem test_meets_SanitizeRowsComplete_pass : ∃ (s : State) (word : Nat), s.dev.cipher.san.step = 5 ∧
    word = (if s.dev.cipher.san.oipbp = true ∧ s.dev.cipher.san.done % 2 = 1 then 2 ^ 32 - 1 - s.dev.cipher.san.pattern % 2 ^ 32
      else s.dev.cipher.san.pattern % 2 ^ 32) := ⟨tSan 5 2, _, by decide, rfl⟩
/-- HDA 0 in HS0 with the namespace `ns`. -/
def tMedia (ns : Ns) : State := let s := tWork [] []; { s with dev := (((s.dev.wr F.pwrHs_state 0 0 0).wr F.hstBound_bound 2000000 0).wr F.pwrHoldB_bound 2000000 0 0).updHost fun x => { x with nss := [ns] } }
def tUsed : Zone := { tZone with state := .full, wp := 200, markA := true }

theorem test_meets_SanitizeRowsComplete :
    (∃ (s : State) (h : HstId) (action : Nat) (owpass : Nat),
      AdminRuns s h.val false false ∧ s.dev.cipher.san.step = 0 ∧ ((action = 3 ∧ owpass ≤ 16) ∨ action = 4)) ∧
    (∃ (s : State),
      s.dev.cipher.san.step = 2 ∧ s.dev.flag F.cphStat_drbg_ok = true) ∧
    (∃ (s : State),
      s.dev.cipher.san.step = 3 ∧ s.dev.sec.work = none) ∧
    (∃ (s : State),
      s.dev.cipher.san.step = 4 ∧ keysPossible s.dev = true) :=
  ⟨⟨tAdm tNs, 0, 3, 16, by unfold AdminRuns; decide +kernel, by decide +kernel⟩,
   ⟨tSan 2 0, by decide +kernel⟩,
   ⟨tSan 3 0, by decide +kernel⟩,
   ⟨tSan 4 0, by decide +kernel⟩⟩

theorem test_meets_TcgRowsComplete :
    (∃ (s : State) (h : HstId),
      AdminRuns s h.val false false ∧ tcgAvailable (wakeChip s.dev) = true) ∧
    (∃ (s : State) (h : HstId) (a : TcgArg),
      AdminRuns s h.val false false ∧ tcgAvailable (wakeChip s.dev) = true ∧ (s.dev.tcg 0).isOpen = false ∧ (s.dev.tcg 1).isOpen = false ∧ ((a.authority ≤ 65 → a.credentialOk = true))) ∧
    (∃ (s : State) (h : HstId),
      AdminRuns s h.val false false ∧ tcgAvailable (wakeChip s.dev) = true ∧ (s.dev.tcg h.val).isOpen = true) ∧
    (∃ (s : State) (h : HstId) (a : TcgArg),
      AdminRuns s h.val false false ∧ tcgAvailable (wakeChip s.dev) = true ∧ (s.dev.tcg h.val).isOpen = true ∧ a.authority ≤ 65) ∧
    (∃ (s : State) (h : HstId) (a : TcgArg),
      AdminRuns s h.val false false ∧ tcgAvailable (wakeChip s.dev) = true ∧ (s.dev.tcg h.val).isOpen = true ∧ a.range = 0) ∧
    (∃ (s : State) (h : HstId) (a : TcgArg) (r : KeyRange),
      AdminRuns s h.val false false ∧ tcgAvailable (wakeChip s.dev) = true ∧ (s.dev.tcg h.val).isOpen = true ∧ 1 ≤ a.range ∧ a.range ≤ 64 ∧ s.dev.cipher.ranges.find? (fun r => r.idx + 1 == a.range) = some r) ∧
    (∃ (s : State) (h : HstId) (a : TcgArg),
      AdminRuns s h.val false false ∧ tcgAvailable (wakeChip s.dev) = true ∧ (s.dev.tcg h.val).isOpen = true ∧ a.range ≤ 64 ∧ mayRange s.dev h.val a.range = true ∧ keyed (wakeChip s.dev) = true ∧ a.bounds = none ∧ a.range = 0) ∧
    (∃ (s : State) (h : HstId) (a : TcgArg),
      AdminRuns s h.val false false ∧ tcgAvailable (wakeChip s.dev) = true ∧ (s.dev.tcg h.val).isOpen = true ∧ a.range ≤ 64 ∧ mayRange s.dev h.val a.range = true ∧ keyed (wakeChip s.dev) = true ∧ a.bounds = none ∧ 1 ≤ a.range ∧ ((s.dev.cipher.ranges.any fun x => x.idx == a.range - 1) = true)) ∧
    (∃ (s : State) (h : HstId) (a : TcgArg) (b : LbaRange),
      AdminRuns s h.val false false ∧ tcgAvailable (wakeChip s.dev) = true ∧ (s.dev.tcg h.val).isOpen = true ∧ 1 ≤ a.range ∧ a.range ≤ 64 ∧ mayRange s.dev h.val a.range = true ∧ keysPossible (wakeChip s.dev) = true ∧ a.bounds = some b ∧ boundsOk s.dev (a.range - 1) b = true) ∧
    (∃ (s : State) (h : HstId) (a : TcgArg) (r : KeyRange),
      AdminRuns s h.val false false ∧ tcgAvailable (wakeChip s.dev) = true ∧ (s.dev.tcg h.val).isOpen = true ∧ 1 ≤ a.range ∧ a.range ≤ 64 ∧ keysPossible (wakeChip s.dev) = true ∧ ((s.dev.cipher.ranges.filter fun x => x.idx + 1 == a.range) = [r]) ∧ pairInUse s.dev (rangePair r.idx) = false ∧ ((s.dev.cipher.tags.any fun t => t.2 == rangePair r.idx + 1) = false) ∧ mayRange s.dev h.val a.range = true) ∧
    (∃ (s : State) (h : HstId) (a : TcgArg) (r : KeyRange),
      AdminRuns s h.val false false ∧ tcgAvailable (wakeChip s.dev) = true ∧ (s.dev.tcg h.val).isOpen = true ∧ 1 ≤ a.range ∧ a.range ≤ 64 ∧ keysPossible (wakeChip s.dev) = true ∧ ((s.dev.cipher.ranges.filter fun x => x.idx + 1 == a.range) = [r]) ∧ pairInUse s.dev (rangePair r.idx) = false ∧ ((s.dev.cipher.tags.any fun t => t.2 == rangePair r.idx + 1) = false) ∧ mayRange s.dev h.val 65 = true) ∧
    (∃ (s : State) (h : HstId) (count : Nat),
      AdminRuns s h.val false false ∧ tcgAvailable (wakeChip s.dev) = true ∧ (s.dev.tcg h.val).isOpen = true ∧ count ≤ 32) :=
  ⟨⟨tTcg [], 0, by unfold AdminRuns; decide +kernel, by decide +kernel⟩,
   ⟨let s := tAdm tNs; { s with dev := s.dev.wr F.secLc_state 4 }, 0, tArg 0, by unfold AdminRuns; decide +kernel, by decide +kernel⟩,
   ⟨tTcg [65], 0, by unfold AdminRuns; decide +kernel, by decide +kernel⟩,
   ⟨tTcg [], 0, tArg 0, by unfold AdminRuns; decide +kernel, by decide +kernel⟩,
   ⟨tTcg [], 0, tArg 0, by unfold AdminRuns; decide +kernel, by decide +kernel⟩,
   ⟨tTcg [], 0, tArg 64, { idx := 63, nsid := 1, lo := 8, hi := 16, readLock := false }, by unfold AdminRuns; decide +kernel, by decide +kernel⟩,
   ⟨tTcg [0], 0, tArg 0, by unfold AdminRuns; decide +kernel, by decide +kernel⟩,
   ⟨tTcg [64], 0, tArg 64, by unfold AdminRuns; decide +kernel, by decide +kernel⟩,
   ⟨tTcg [1], 0, { tArg 1 with bounds := some { nsid := 1, slba := 56, count := 8 } }, { nsid := 1, slba := 56, count := 8 }, by unfold AdminRuns; decide +kernel, by decide +kernel⟩,
   ⟨tTcg [64], 0, tArg 64, { idx := 63, nsid := 1, lo := 8, hi := 16, readLock := false }, by unfold AdminRuns; decide +kernel, by decide +kernel⟩,
   ⟨tTcg [65], 0, tArg 64, { idx := 63, nsid := 1, lo := 8, hi := 16, readLock := false }, by unfold AdminRuns; decide +kernel, by decide +kernel⟩,
   ⟨tTcg [65], 0, 32, by unfold AdminRuns; decide +kernel, by decide +kernel⟩⟩

theorem test_meets_MediaWorkRowsComplete :
    (∃ (s : State) (nsid : Nat) (band : Nat) (act : ActId) (ns : Ns),
      s.dev.ns? nsid = some ns ∧ bandsFree ns act.val < 4 ∧ cleanable s.dev ns act.val band = true) ∧
    (∃ (s : State) (nsid : Nat) (ns : Ns),
      s.dev.ns? nsid = some ns ∧ ns.zoned = false ∧ ns.mapReady = true ∧ ((ns.mapDirty = true ∨ 2 ^ 20 ≤ ns.hostWrites))) ∧
    (∃ (s : State) (nsid : Nat) (ns : Ns),
      s.dev.ns? nsid = some ns ∧ ns.mapReady = false ∧ ((∀ a, a < 8 → ns.actMask.testBit a = true → hdaReady s.dev (a / 2) = true))) ∧
    (∃ (s : State) (act : ActId) (head : HeadId) (band : Nat) (errs : Nat) (iters : Nat) (i : Nat) (second : Bool) (weak : Bool) (ns : Ns) (z : Zone),
      hdaReady s.dev (act.val / 2) = true ∧ actWork s.dev act.val = false ∧ s.dev.sec.d2Held = false ∧ bandOwner s.dev act.val head.val band = some (ns, i) ∧ s.dev.ns? ns.nsid = some ns ∧ ns.zones[i]? = some z ∧ second = !(z.headA == head.val && z.bandA == band) ∧ bandSectors s.dev ns z second ≠ 0 ∧ weak = weakMargin s.dev (channelOf s.dev act.val head.val) errs iters) ∧
    (∃ (s : State) (nsid : Nat) (zi : Nat) (units : Nat) (key : Nat) (second : Bool) (ns : Ns) (z : Zone) (x : Ctx),
      s.dev.ns? nsid = some ns ∧ ns.zoned = true ∧ s.dev.zone? nsid zi = some z ∧ (z.markA || z.markB) = true ∧ z.state = .full ∧ hdaReady s.dev (z.act / 2) = true ∧ s.dev.sec.d2Held = false ∧ actWork s.dev z.act = false ∧ second = !z.markA ∧ units = fmtBandMib s.dev (z.act / 2) * 256 ∧ dirtyAll s.dev + units ≤ boundAll s.dev ∧ ((s.dev.host.held.any fun h => h.kind == 2 && h.key / 2 == nsid * 2 ^ 20 + zi) = false) ∧ key = (nsid * 2 ^ 20 + zi) * 2 + second.toNat ∧ x = { id := s.dev.host.nextId, fe := 6, org := .internal, stage := .media, begun := true, traffic := some .homework, c := { kind := .verify, nsid := nsid, value := zi + 1 }, locks := [{ excl := false, nsid := nsid, lo := zi * zoneSize s.dev ns, hi := (zi + 1) * zoneSize s.dev ns }] } ∧ lockFree s.dev x = true ∧ internalFree s.dev = true) ∧
    (∃ (s : State) (act : ActId) (head : HeadId) (nsid : Nat) (lba : Nat) (step : Nat) (c : Nat) (held : Bool) (ns : Ns),
      s.dev.ns? nsid = some ns ∧ c = channelOf s.dev act.val head.val ∧ nextStep s.dev c (ladderAt s.dev nsid lba) = some step ∧ (s.dev.mediaBlk nsid lba).mapped = true ∧ (s.dev.mediaBlk nsid lba).act = act.val ∧ step ≤ 3 ∧ held = false) ∧
    (∃ (s : State) (act : ActId) (head : HeadId) (nsid : Nat) (lba : Nat) (step : Nat) (c : Nat) (held : Bool) (ns : Ns),
      s.dev.ns? nsid = some ns ∧ c = channelOf s.dev act.val head.val ∧ nextStep s.dev c (ladderAt s.dev nsid lba) = some step ∧ (s.dev.mediaBlk nsid lba).mapped = true ∧ (s.dev.mediaBlk nsid lba).act = act.val ∧ ((4 ≤ step ∨ held = true))) ∧
    (∃ (s : State) (act : ActId) (head : HeadId) (nsid : Nat) (lba : Nat) (step : Nat) (c : Nat) (held : Bool) (ns : Ns),
      s.dev.ns? nsid = some ns ∧ c = channelOf s.dev act.val head.val ∧ nextStep s.dev c (ladderAt s.dev nsid lba) = some step ∧ (s.dev.mediaBlk nsid lba).mapped = true ∧ (s.dev.mediaBlk nsid lba).act = act.val ∧ ((4 ≤ step ∨ held = true))) :=
  ⟨⟨tMedia { tNs with zones := [tUsed, { tUsed with bandA := 1, bandB := 1 }] }, 1, 0, 0, { tNs with zones := [tUsed, { tUsed with bandA := 1, bandB := 1 }] }, by decide +kernel⟩,
   ⟨let s := tMedia { tNs with mapDirty := true }; { s with dev := s.dev.updHost fun x => { x with journal := [{ hda := 0, nsid := 1, unit := 4, blks := [], buffered := false }, { hda := 0, nsid := 2, unit := 4, blks := [], buffered := false }] } }, 1, { tNs with mapDirty := true }, by decide +kernel⟩,
   ⟨tMedia { tNs with mapReady := false }, 1, { tNs with mapReady := false }, by decide +kernel⟩,
   by refine ⟨let s := tMedia { tZns with zones := [tUsed] }; { s with dev := s.dev.updHost fun x => { x with homeworkDue := [(0, 1, 2000), (0, 1, 2399), (1, 1, 2000)] } }, 0, 1, 0, 65535, 0, 0, _, _, { tZns with zones := [tUsed] }, tUsed, ?_, ?_, ?_, ?_, ?_, ?_, rfl, ?_, rfl⟩ <;> decide +kernel,
   by refine ⟨tMedia { tZns with zones := [tUsed] }, 1, 0, _, _, _, { tZns with zones := [tUsed] }, tUsed, _, ?_, ?_, ?_, ?_, ?_, ?_, ?_, ?_, rfl, rfl, ?_, ?_, rfl, rfl, ?_⟩ <;> decide +kernel,
   ⟨let s := tMedia tNs; { s with dev := (s.dev.setBit F.chnLadder_step_en 3 true 0).updHost fun x => { x with media := [(blkKey 1 8, { mapped := true, act := 0 })], ladder := [(1 + 1024 * 8, 2)] } }, 0, 2, 1, 8, 3, _, false, tNs, by decide +kernel, rfl, by decide +kernel⟩,
   ⟨let s := tMedia tNs; { s with dev := (s.dev.setBit F.chnLadder_step_en 8 true 0).updHost fun x => { x with media := [(blkKey 1 8, { mapped := true, act := 0 })], ladder := [(1 + 1024 * 8, 7)] } }, 0, 2, 1, 8, 8, _, false, tNs, by decide +kernel, rfl, by decide +kernel⟩,
   ⟨let s := tMedia tNs; { s with dev := (s.dev.setBit F.chnLadder_step_en 2 true 0).updHost fun x => { x with media := [(blkKey 1 8, { mapped := true, act := 0 })], ladder := [(1 + 1024 * 8, 1)] } }, 0, 2, 1, 8, 2, _, true, tNs, by decide +kernel, rfl, by decide +kernel⟩⟩

def tMap (e : Option MapEntry) : State := tSt fun d => { (d.setFlag F.mapStat_enabled true).setFlag F.mapCtl_enable true with map := { entries := [(5, e)] } }

theorem test_meets_MapCacheRowsComplete :
    (∃ (s : State) (page : Nat) (i : Nat) (e : MapEntry),
      s.dev.flag F.mapStat_enabled = true ∧ pageIndex s.dev page = some i ∧ mapSlot s.dev i = some e ∧ e.poison = false) ∧
    (∃ (s : State) (page : Nat) (i : Nat),
      s.dev.flag F.mapStat_enabled = true ∧ pageIndex s.dev page = none ∧ s.dev.map.side.contains page = false ∧ victim s.dev = some i) ∧
    (∃ (s : State) (page : Nat) (i : Nat) (ids : List Nat) (e : MapEntry),
      pageIndex s.dev page = some i ∧ mapSlot s.dev i = some e ∧ e.filling = some ids ∧ (pageFromDram s.dev page).1 = false) ∧
    (∃ (s : State) (page : Nat),
      s.dev.flag F.mapStat_enabled = true ∧ s.dev.flag F.mapCtl_prefetch_en = true ∧ pageIndex s.dev page = none ∧ s.dev.map.side.contains page = false) ∧
    (∃ (s : State) (page : Nat) (i : Nat) (e : MapEntry),
      s.dev.flag F.mapMaintStat_busy = false ∧ fillInFlight s.dev (page % 2 ^ 24) = false ∧ pageIndex s.dev (page % 2 ^ 24) = some i ∧ mapSlot s.dev i = some e) ∧
    (∃ (s : State) (page : Nat) (i : Nat) (e : MapEntry),
      s.dev.flag F.mapMaintStat_busy = false ∧ fillInFlight s.dev (page % 2 ^ 24) = false ∧ pageIndex s.dev (page % 2 ^ 24) = some i ∧ mapSlot s.dev i = some e) ∧
    (∃ (s : State) (page : Nat) (i : Nat) (e : MapEntry),
      s.dev.flag F.mapMaintStat_busy = false ∧ fillInFlight s.dev (page % 2 ^ 24) = false ∧ pageIndex s.dev (page % 2 ^ 24) = some i ∧ mapSlot s.dev i = some e) ∧
    (∃ (s : State) (page : Nat) (op : Nat),
      s.dev.map.waiting = some (page, op) ∧ fillInFlight s.dev page = false) ∧
    (∃ (s : State),
      s.dev.flag F.mapStat_disabling = true ∧ ((s.dev.map.entries.any fun e => e.2.any fun x => x.filling.isSome) = false)) :=
  ⟨⟨tMap (some { page := 9 }), 9, 5, { page := 9 }, by decide +kernel⟩,
   ⟨tMap (some { page := 9 }), 10, (victim (tMap (some { page := 9 })).dev).getD 0, by decide +kernel⟩,
   ⟨tMap (some { page := 9, filling := some [4, 7], dirty := true }), 9, 5, [4, 7], { page := 9, filling := some [4, 7], dirty := true }, by decide +kernel⟩,
   ⟨let s := tMap none; { s with dev := { s.dev.setFlag F.mapCtl_prefetch_en true with map := { side := [1, 2, 3, 4] } } }, 5, by decide +kernel⟩,
   ⟨tMap (some { page := 9, dirty := true, poison := true }), 2 ^ 24 + 9, 5, { page := 9, dirty := true, poison := true }, by decide +kernel⟩,
   ⟨tMap (some { page := 9, dirty := true, poison := true }), 2 ^ 24 + 9, 5, { page := 9, dirty := true, poison := true }, by decide +kernel⟩,
   ⟨tMap (some { page := 9, dirty := true, poison := true }), 2 ^ 24 + 9, 5, { page := 9, dirty := true, poison := true }, by decide +kernel⟩,
   ⟨let s := tMap (some { page := 9, dirty := true }); { s with dev := { s.dev.setFlag F.mapMaintStat_busy true with map := { s.dev.map with waiting := some (9, 2) } } }, 9, 2, by decide +kernel⟩,
   ⟨let s := tMap (some { page := 9, dirty := true }); { s with dev := s.dev.setFlag F.mapStat_disabling true }, by decide +kernel⟩⟩

theorem test_meets_MapGroupRowsComplete :
    (∃ (s : State) (g : Fin 8),
      (((List.range 8).filter fun k => (s.dev.rd F.mapGrpCtl_scratch).testBit k).length ≤ 4) ∧ groupNow s.dev g.val ≠ 1) ∧
    (∃ (s : State) (mask : Fin 256),
      (((List.range 8).filter fun k => (s.dev.rd F.mapGrpCtl_scratch ||| mask.val).testBit k).length ≤ 4)) ∧
    (∃ (s : State),
      (((List.range 8).filter fun k => (s.dev.rd F.mapGrpCtl_scratch).testBit k).length ≤ 4)) ∧
    (∃ (s : State),
      (((List.range 8).filter fun k => (s.dev.rd F.mapGrpCtl_scratch).testBit k).length ≤ 4)) ∧
    (∃ (s : State) (g : Fin 8) (t : Nat),
      s.dev.map.moving.find? (fun x => x.1 == g.val) = some (g.val, t) ∧ ((∀ k, k < 8 → (mapSlot s.dev (8 * g.val + k)).any (fun e => e.filling.isSome) = false)) ∧ ((∀ a, a < 8 → ∀ (st : Bool) (sel half : Nat) (next : SeqNext), (s.dev.seq a).wait ≠ .scratch st sel g.val half next))) ∧
    (∃ (s : State) (g : Fin 8) (off : Nat) (n : Nat),
      off < 0x8000 ∧ legalSize off n = true ∧ s.dev.bit F.mapGrpStat_is_scratch g.val = true ∧ (macRead s.dev (256 + g.val) off n).1 = false) ∧
    (∃ (s : State) (g : Fin 8) (off : Nat) (n : Nat),
      off < 0x8000 ∧ legalSize off n = true ∧ s.dev.bit F.mapGrpStat_is_scratch g.val = true) :=
  ⟨⟨tSt fun d => d.wr F.mapGrpCtl_scratch 0x55, 7, by decide +kernel⟩,
   ⟨tSt fun d => d.wr F.mapGrpCtl_scratch 0x15, 0x80, by decide +kernel⟩,
   ⟨tSt fun d => d.wr F.mapGrpCtl_scratch 0x55, by decide +kernel⟩,
   ⟨tSt fun d => (d.wr F.mapGrpCtl_scratch 0x55).wr F.mapGrpCtl_pwr_down 0x80, by decide +kernel⟩,
   ⟨let s := tSt fun d => { d with map := { moving := [(6, 1), (7, 2)] } }; { s with mem := [(scratchBase 7 + 0x7FFF, 3#8), (scratchBase 8, 4#8)] }, 7, 2, by decide +kernel, by decide +kernel, by intro a _ st sel half next h; exact nomatch h⟩,
   ⟨let s := tSt fun d => d.wr F.mapGrpStat_is_scratch 128; { s with mem := [(scratchBase 7 + 0x7FFF, 3#8), (scratchBase 8, 4#8)] }, 7, 0x7FF8, 8, by decide +kernel⟩,
   ⟨tSt fun d => d.wr F.mapGrpStat_is_scratch 128, 7, 0x7FF8, 8, by decide +kernel⟩⟩

/-- Port 3 in the state `st`, used. -/
def tPort (st : Nat) (l : LPort) : State := tSt fun d => { (d.setFlag F.lmlCfg_used true 3).wr F.lmlStat_state st 3 with chain := { ports := [(3, l)] } }

theorem test_meets_PortRowsComplete :
    (∃ (s : State) (p : LmlId) (lanes : Fin 256) (peer : Fin 256) (width : Nat) (w : Nat) (base : Nat),
      training s.dev p.val = true ∧ linkGroup (lanes.val &&& peer.val) (min (s.dev.rd F.lmlCfg_width p.val) width) = some (w, base)) ∧
    (∃ (s : State) (p : LmlId),
      training s.dev p.val = true) ∧
    (∃ (s : State) (p : LmlId),
      s.dev.rd F.lmlStat_state p.val = 0 ∧ s.dev.rd F.lmlStat_down_cause p.val = 5 ∧ s.dev.flag F.lmlCfg_used p.val = true ∧ lmlClockLost s.dev p.val = false) ∧
    (∃ (s : State) (p : LmlId),
      s.dev.rd F.lmlStat_state p.val = 3) ∧
    (∃ (s : State) (p : LmlId),
      s.dev.rd F.lmlStat_state p.val = 4 ∧ ((∀ x, (s.dev.lport p.val).retry.head? = some x → x.sends < 9))) ∧
    (∃ (s : State) (p : LmlId),
      s.dev.rd F.lmlStat_state p.val = 4) ∧
    (∃ (s : State) (p : LmlId),
      s.dev.rd F.lmlStat_state p.val = 2) ∧
    (∃ (s : State) (p : LmlId),
      s.dev.rd F.lmlStat_state p.val = 2 ∧ s.dev.rd F.secLc_state ≠ 5) ∧
    (∃ (s : State) (p : LmlId),
      s.dev.rd F.lmlStat_state p.val = 3 ∧ s.dev.flag F.lmlStat_routed p.val = false) ∧
    (∃ (s : State) (p : LmlId),
      s.dev.flag F.lmlStat_secure p.val = true ∧ 2 ^ 32 ≤ (s.dev.lport p.val).keyFrames) :=
  ⟨⟨let s := tPort 1 {}; { s with dev := s.dev.wr F.lmlCfg_width 8 3 }, 3, 0xF7, 0xFF, 8, 4, 4, by decide +kernel⟩,
   ⟨let s := tPort 1 {}; { s with dev := s.dev.wr F.lmlStat_rate 1 3 }, 3, by decide +kernel⟩,
   ⟨let s := tPort 0 {}; { s with dev := s.dev.wr F.lmlStat_down_cause 5 3 }, 3, by decide +kernel⟩,
   ⟨tPort 3 {}, 3, by decide +kernel⟩,
   ⟨tPort 4 { retry := [{ f := tFr, arrival := none, sends := 8 }] }, 3, by decide +kernel, fun _ h => by injection h with h; subst h; decide⟩,
   ⟨tPort 4 {}, 3, by decide +kernel⟩,
   ⟨tPort 2 { retry := [{ f := tFr, arrival := none, sends := 8 }], txq := [{ f := tFr, arrival := none }] }, 3, by decide +kernel⟩,
   ⟨tPort 2 { restoring := true }, 3, by decide +kernel⟩,
   ⟨tPort 3 {}, 3, by decide +kernel⟩,
   ⟨let s := tPort 3 { keyFrames := 2 ^ 32 }; { s with dev := s.dev.setFlag F.lmlStat_secure true 3 }, 3, by decide +kernel⟩⟩

theorem test_meets_LinkRowsComplete :
    (∃ (s : State) (p : LmlId) (n : Nat),
      s.dev.rd F.lmlStat_state p.val = 3 ∧ n < 4096 ∧ (((s.dev.lport p.val).retry.any fun x => x.f.seq == n) = true)) ∧
    (∃ (s : State) (p : LmlId) (l : LPort),
      l = s.dev.lport p.val ∧ l.unacked ≠ 0) ∧
    (∃ (s : State) (p : LmlId) (l : LPort),
      l = s.dev.lport p.val ∧ l.told ≠ 0) ∧
    (∃ (s : State) (p : LmlId) (x : Sent) (rest : List Sent),
      s.dev.rd F.lmlStat_state p.val = 3 ∧ (s.dev.lport p.val).retry = x :: rest ∧ 9 ≤ x.sends) ∧
    (∃ (s : State) (p : LmlId) (x : Sent) (rest : List Sent),
      s.dev.rd F.lmlStat_state p.val = 3 ∧ (s.dev.lport p.val).retry = x :: rest ∧ x.sends < 9 ∧ x.stomp = false ∧ x.f.length ≤ s.dev.rd F.lmlCred_tx_avail p.val x.f.tc) ∧
    (∃ (s : State) (p : LmlId) (idx : Nat) (t : TxFrame),
      (s.dev.lport p.val).txq[idx]? = some t) ∧
    (∃ (s : State) (p : LmlId) (f : Frame),
      s.dev.rd F.lmlStat_state p.val = 3 ∧ f.seq = (s.dev.lport p.val).expect) ∧
    (∃ (s : State) (p : LmlId),
      s.dev.rd F.lmlStat_state p.val = 3 ∧ s.dev.chain.selfNaks = [] ∧ (s.dev.lport p.val).nakAsked = false) :=
  ⟨⟨tPort 3 { retry := [{ f := { tFr with seq := 4094 }, arrival := none }, { f := tFr, arrival := none }] }, 3, 4095, by decide +kernel⟩,
   ⟨tPort 3 { unacked := 1, expect := 0, freed := [(7, 4)] }, 3, _, rfl, by decide +kernel⟩,
   ⟨tPort 3 { told := 1, expect := 0, freed := [(7, 4)] }, 3, _, rfl, by decide +kernel⟩,
   ⟨tPort 3 { retry := [{ f := tFr, arrival := none, sends := 9 }] }, 3, { f := tFr, arrival := none, sends := 9 }, [], by decide +kernel⟩,
   ⟨let s := tPort 3 { retry := [{ f := tFr, arrival := none, sends := 8 }] }; { s with dev := s.dev.wr F.lmlCred_tx_avail 4 3 2 }, 3, { f := tFr, arrival := none, sends := 8 }, [], by decide +kernel⟩,
   ⟨tPort 3 { txq := [{ f := tFr, arrival := some 2 }] }, 3, 0, { f := tFr, arrival := some 2 }, by decide +kernel⟩,
   ⟨tPort 3 { expect := 4095 }, 3, tFr, by decide +kernel⟩,
   ⟨tPort 3 { expect := 4095 }, 3, by decide +kernel⟩⟩

def tEntry18 : Dedupe := { src := 2, tag := 9, active := true, port := 3, id := 5, path := false, attempt := 0, rbudget := 40, wclass := true, xrdy := 3, want := 8192, got := [(0, [7])], cmd := tCmdFrame }
def tTx : RootTx := { tag := 9, id := 5, addr := 2, path := false, attempt := 0, sent := 1, acked := false, wclass := false, cmd := { tFr with dest := 2 } }
def tRoot (t : RootTx) (k : IoKind) : State := let s := tTarget []; { s with dev := { s.dev.updHost fun x => { x with ctxs := [{ tCtx k .remote with c := { tCmd k with nsid := 2 ^ 20 + 1 } }] } with chain := { root := [t] } } }
/-- A root in the phase `ph` of Roll Call that has heard `l`. -/
def tRc (ph : Nat) (l : List (Nat × Nat)) : State := let s := tTarget []; { s with dev := { (s.dev.setFlag F.lmlNode_root true).wr F.lmlRc_phase ph with chain := { heard := l, gen := 2 ^ 32 - 1 }, sec := { otp := { deviceId := 77 } } } }

theorem test_meets_TargetRowsComplete :
    (∃ (s : State) (f : Frame) (c : IoCmd),
      cmdOf f = some c ∧ s.dev.entry f.src f.tag = none ∧ s.dev.chain.dedupe.length < 65536 ∧ transitInUse s.dev < transitShare s.dev ∧ chainStopped s.dev = false) ∧
    (∃ (s : State) (f : Frame) (e : Dedupe),
      s.dev.entry f.src f.tag = some e ∧ e.active = true ∧ f.poison = false) ∧
    (∃ (s : State) (f : Frame) (e : Dedupe),
      s.dev.entry f.src f.tag = some e ∧ e.active = true) ∧
    (∃ (s : State) (src : Nat) (tag : Nat) (e : Dedupe),
      s.dev.entry src tag = some e ∧ e.active = true) ∧
    (∃ (s : State) (src : Nat) (tag : Nat) (off : Nat) (q : Nat) (e : Dedupe),
      s.dev.entry src tag = some e ∧ e.active = true ∧ e.xrdy ≠ 0 ∧ missingFrom e = some off ∧ e.xrdy ≤ s.dev.rd F.lmlE2e_retries ∧ s.dev.chain.selfNaks = [] ∧ routeOf s.dev e.src (!e.path) false none = .send q) :=
  ⟨⟨tTarget [], tCmdFrame, { kind := .read, nsid := 1, slba := 8, count := 1 }, by decide +kernel⟩,
   ⟨tTarget [tEntry18], { tCmdFrame with spec := [4096, 4096], body := [55] }, tEntry18, by decide +kernel⟩,
   ⟨tTarget [tEntry18], tCmdFrame, tEntry18, by decide +kernel⟩,
   ⟨tTarget [tEntry18], 2, 9, tEntry18, by decide +kernel⟩,
   ⟨tTarget [tEntry18], 2, 9, 4096, 3, tEntry18, by decide +kernel⟩⟩

theorem test_meets_RootRowsComplete :
    (∃ (s : State) (f : Frame) (t : RootTx),
      s.dev.rootTx f.tag = some t ∧ s.dev.chain.selfNaks = []) ∧
    (∃ (s : State) (f : Frame) (t : RootTx),
      s.dev.rootTx f.tag = some t ∧ s.dev.chain.selfNaks = []) ∧
    (∃ (s : State) (f : Frame) (t : RootTx) (x : Ctx) (parts : List (Nat × Nat × List Nat)) (g : RootTx → RootTx),
      s.dev.rootTx f.tag = some t ∧ s.dev.ctx? t.id = some x ∧ g = (fun u => { u with acked := true, path := f.path }) ∧ (parts = (dataParts x.c.kind (rootData x)).filter (fun q => decide (f.spec.headD 0 ≤ q.1 ∧ q.1 < f.spec.headD 0 + f.spec.getD 1 0)))) ∧
    (∃ (s : State) (f : Frame) (t : RootTx),
      s.dev.rootTx f.tag = some t ∧ s.dev.chain.selfNaks = [] ∧ f.attempt = t.attempt ∧ f.poison = false ∧ t.cpl = none) ∧
    (∃ (s : State) (f : Frame) (t : RootTx) (x : Ctx) (h : Nat) (qid : Nat) (cid : Nat),
      s.dev.rootTx f.tag = some t ∧ s.dev.ctx? t.id = some x ∧ x.org = .host h qid cid ∧ f.spec.getD 3 0 = 0 ∧ f.spec.getD 4 0 ≤ bytesHeld t) ∧
    (∃ (s : State) (f : Frame) (t : RootTx),
      s.dev.rootTx f.tag = some t ∧ s.dev.chain.selfNaks = [] ∧ f.spec.headD 0 = 3 ∧ f.spec.getD 1 0 = ftCmd) ∧
    (∃ (s : State) (tag : Nat) (q : Nat) (t : RootTx),
      s.dev.rootTx tag = some t ∧ s.dev.chain.selfNaks = [] ∧ t.sent ≤ s.dev.rd F.lmlE2e_retries ∧ routeOf s.dev t.cmd.dest (!t.path) t.cmd.turned none = .send q ∧ t.acked = false ∧ t.busy = false) ∧
    (∃ (s : State) (tag : Nat) (q : Nat) (t : RootTx),
      s.dev.rootTx tag = some t ∧ s.dev.chain.selfNaks = [] ∧ t.sent ≤ s.dev.rd F.lmlE2e_retries ∧ routeOf s.dev t.cmd.dest (!t.path) t.cmd.turned none = .send q ∧ t.acked = true) ∧
    (∃ (s : State) (tag : Nat) (t : RootTx) (x : Ctx) (h : Nat) (qid : Nat) (cid : Nat),
      s.dev.rootTx tag = some t ∧ s.dev.rd F.lmlE2e_retries + 1 ≤ t.sent ∧ t.acked = false ∧ t.busy = false ∧ s.dev.ctx? t.id = some x ∧ x.org = .host h qid cid ∧ writesData x.c.kind = false) ∧
    (∃ (s : State) (tag : Nat) (q : Nat) (t : RootTx),
      s.dev.rootTx tag = some t ∧ s.dev.chain.selfNaks = [] ∧ t.busy = true ∧ routeOf s.dev t.cmd.dest t.cmd.path t.cmd.turned none = .send q) :=
  ⟨⟨tRoot { tTx with busy := true } .read, tFr, { tTx with busy := true }, by decide +kernel⟩,
   ⟨tRoot { tTx with busy := true } .read, tFr, { tTx with busy := true }, by decide +kernel⟩,
   ⟨tRoot { tTx with wclass := true } .write, { tFr with spec := [0, 4096] }, { tTx with wclass := true }, { tCtx .write .remote with c := { tCmd .write with nsid := 2 ^ 20 + 1 } }, _, _, by decide +kernel, by decide +kernel, rfl, rfl⟩,
   ⟨tRoot { tTx with got := [(0, [4096, 3]), (4096, [4096, 4])] } .read, { tFr with spec := [0, 4096], body := [8] }, { tTx with got := [(0, [4096, 3]), (4096, [4096, 4])] }, by decide +kernel⟩,
   ⟨tRoot { tTx with got := [(0, [4096, 3])] } .read, { tFr with spec := [77, 0, 0, 0, 4096] }, { tTx with got := [(0, [4096, 3])] }, { tCtx .read .remote with c := { tCmd .read with nsid := 2 ^ 20 + 1 } }, 0, 2, 7, by decide +kernel⟩,
   ⟨tRoot tTx .read, { tFr with spec := [3, 1] }, tTx, by decide +kernel⟩,
   ⟨tRoot { tTx with sent := State.reset.dev.rd F.lmlE2e_retries } .read, 9, 3, { tTx with sent := State.reset.dev.rd F.lmlE2e_retries }, by decide +kernel⟩,
   ⟨tRoot { tTx with acked := true, got := [(0, [4096, 3])] } .read, 9, 3, { tTx with acked := true, got := [(0, [4096, 3])] }, by decide +kernel⟩,
   ⟨tRoot { tTx with sent := State.reset.dev.rd F.lmlE2e_retries + 1 } .read, 9, { tTx with sent := State.reset.dev.rd F.lmlE2e_retries + 1 }, { tCtx .read .remote with c := { tCmd .read with nsid := 2 ^ 20 + 1 } }, 0, 2, 7, by decide +kernel⟩,
   ⟨tRoot { tTx with busy := true } .read, 9, 3, { tTx with busy := true }, by decide +kernel⟩⟩

theorem test_meets_RollCallRowsComplete :
    (∃ (s : State),
      s.dev.flag F.lmlNode_root = true ∧ s.dev.rd F.lmlRc_phase = 0) ∧
    (∃ (s : State) (devId : Nat) (gen : Nat),
      s.dev.chain.announced.contains (devId, gen) = false) ∧
    (∃ (s : State),
      s.dev.rd F.lmlRc_phase = 1 ∧ ((∃ h ∈ s.dev.chain.heard, h.1 < s.dev.sec.otp.deviceId))) ∧
    (∃ (s : State),
      s.dev.rd F.lmlRc_phase = 1 ∧ ((∀ h ∈ s.dev.chain.heard, s.dev.sec.otp.deviceId ≤ h.1))) ∧
    (∃ (exit : Nat),
      exit < 4) ∧
    (∃ (exit : Nat),
      4 ≤ exit) ∧
    (∃ (s : State) (p : LmlId) (asked : Nat),
      asked = tabGet 0 s.dev.chain.relayed p.val ∧ asked ≠ 0) ∧
    (∃ (s : State) (p : LmlId) (devId : Nat) (addr : Nat) (node : Nat) (exit : Nat) (rest : List (Nat × Nat)),
      tabGet 0 s.dev.chain.relayed p.val = 0 ∧ s.dev.rd F.lmlRc_phase = 2 ∧ s.dev.chain.survey = (node, exit) :: rest ∧ addr ≠ 0 ∧ ((s.dev.chain.nodes.any fun n => n.addr == addr && n.devId != devId) = false)) ∧
    (∃ (s : State),
      s.dev.rd F.lmlNode_addr = 0) ∧
    (∃ (s : State) (gen : Nat),
      s.dev.rd F.lmlRc_generation ≠ gen ∧ gen < 2 ^ 32 ∧ ((s.dev.flag F.lmlNode_root = false ∨ s.dev.flag F.lmlNode_lead = true))) ∧
    (∃ (s : State) (addr : Nat) (port : Fin 4) (up : Bool),
      tabGet 0 s.dev.chain.told (addr * 4 + port.val) ≠ 1 + up.toNat) ∧
    (∃ (first : Nat),
      first < 64) :=
  ⟨⟨tRc 0 [], by decide +kernel⟩,
   ⟨tRc 0 [(77, 4)], 77, 5, by decide +kernel⟩,
   ⟨tRc 1 [(77, 4), (76, 5)], by decide +kernel⟩,
   ⟨tRc 1 [(77, 4), (78, 5)], by decide +kernel⟩,
   ⟨3, by decide +kernel⟩,
   ⟨4, by decide +kernel⟩,
   ⟨let s := tRc 2 []; { s with dev := s.dev.updChain fun c => { c with relayed := [(3, 3)] } }, 3, _, rfl, by decide +kernel⟩,
   ⟨let s := tRc 2 []; { s with dev := s.dev.updChain fun c => { c with survey := [(1, 3)] } }, 3, 6, 7, 1, 3, [], by decide +kernel⟩,
   ⟨tRc 2 [], by decide +kernel⟩,
   ⟨let s := tRc 2 []; { s with dev := s.dev.setFlag F.lmlNode_lead true }, 2 ^ 32 - 1, by decide +kernel⟩,
   ⟨let s := tRc 0 []; { s with dev := s.dev.updChain fun c => { c with links := [{ a := 1, pa := 0, b := 2, pb := 3 }], told := [(11, 2)] } }, 2, 3, false, by decide +kernel⟩,
   ⟨63, by decide +kernel⟩⟩

/-- A device whose SPDM endpoint 6 (LML3) is at `e`, with that port UP. -/
def tSpdm (e : SpdmEnd) : State := let s := tTarget []; { s with dev := { s.dev with sec := { spdm := [(6, e)] } } }
/-- A debug grant of level 1 for device 5 in MANUFACTURING, by the key of signer slot 1. -/
def tSlip : List Byte := tBytes ([69, 86, 80, 83, 1, 0, 1, 1, 5] ++ List.replicate 15 0 ++ [1] ++ List.replicate 7 0 ++ [2, 1, 1] ++ List.replicate 205 0)
def tSlipKey : List Byte := tBytes (List.replicate 97 0)
/-- The device: life-cycle state 2, and in slot 1 the hash of that key. -/
def tSlipSt : State := tHost fun d => { d.wr F.secLc_state 2 with sec := { otp := { lcCount := 2, deviceId := 5, keyHash := [(1, Config.sha384 tSlipKey)] } } }
def tDumpKeySt : State := tHost fun d => { d with sec := { otp := { dumpHash := Config.sha384 tSlipKey } } }
/-- A slip passes the checks of R394, where the hash of its key is not 0 and its signature verifies. -/
theorem test_slip_passes (hk : Config.sha384 tSlipKey ≠ 0)
    (hv : Config.ecdsaVerify tSlipKey (tSlip.take 144) (tSlip.drop 144) = true) :
    wakeChip tSlipSt.dev = tSlipSt.dev ∧ slipCheck tSlipSt.dev tSlip = (0, 0) ∧ tSlipSt.dev.rd F.secLc_state ≠ 5 ∧
      tSlipSt.dev.sec.work = none ∧ tSlipSt.dev.rd F.glbStructStat_activate < 2 ∧ AdminRuns tSlipSt 0 false false := by
  have h1 : slipLayout tSlip = true := by decide +kernel
  have hkey : slipKey tSlip = tSlipKey := by decide +kernel
  have hs : slipSigner tSlip = 1 := by decide +kernel
  have hn : slipKind tSlip = 1 := by decide +kernel
  have hc : 1 ∈ slipSlots 1 (slipState tSlip) := by decide +kernel
  have hl : tSlip.length = 240 := by decide +kernel
  have ht : tabGet 0 tSlipSt.dev.sec.otp.keyHash 1 = Config.sha384 tSlipKey := rfl
  have h2 : slipSigned tSlipSt.dev tSlip = true := by simp [slipSigned, hkey, hs, hn, hl, hc, ht, hv, hk]
  have h3 : leBytes tSlip 8 16 = tSlipSt.dev.sec.otp.deviceId := by decide +kernel
  have h4 : slipState tSlip = tSlipSt.dev.rd F.secLc_state := by decide +kernel
  have h5 : ¬ slipSerial tSlip ≤ tSlipSt.dev.rd F.secSerial_serial 0 (slipClass tSlip) := by decide +kernel
  have h6 : ¬ effCeiling tSlipSt.dev (tSlipSt.dev.rd F.secLc_state) < slipLevel tSlip := by decide +kernel
  have h7 : slipGuard tSlipSt.dev tSlip = true := by decide +kernel
  refine ⟨if_pos (by decide +kernel), by simp [slipCheck, h1, h2, h3, h4, h5, h6, h7], by decide +kernel, rfl, by decide +kernel,
    by unfold AdminRuns; decide +kernel⟩
/-- The owner's dump key is taken, where its hash is not 0. -/
theorem test_dump_key_admitted (hk : Config.sha384 tSlipKey ≠ 0) :
    AdminRuns tDumpKeySt 0 false false ∧ tSlipKey.length = 97 ∧ tDumpKeySt.dev.sec.otp.dumpHash ≠ 0 ∧
      Config.sha384 tSlipKey = tDumpKeySt.dev.sec.otp.dumpHash :=
  ⟨by unfold AdminRuns; decide +kernel, by decide +kernel, hk, rfl⟩

theorem test_meets_AttestationRowsComplete :
    (∃ (s : State) (e : Fin 7) (w : Dev) (st : SpdmEnd),
      endpointOn s.dev e.val = true ∧ (w = (if e.val < 2 then wakeCs2 (s.dev.addSat F.mgtStat_mctp_rx 1) else s.dev)) ∧ st = s.dev.spdmEnd e.val) ∧
    (∃ (s : State) (e : Fin 7) (w : Dev) (st : SpdmEnd),
      endpointOn s.dev e.val = true ∧ (w = (if e.val < 2 then wakeCs2 (s.dev.addSat F.mgtStat_mctp_rx 1) else s.dev)) ∧ st = s.dev.spdmEnd e.val ∧ st.stage = 1) ∧
    (∃ (s : State) (e : Fin 7) (w : Dev) (st : SpdmEnd),
      endpointOn s.dev e.val = true ∧ (w = (if e.val < 2 then wakeCs2 (s.dev.addSat F.mgtStat_mctp_rx 1) else s.dev)) ∧ st = s.dev.spdmEnd e.val ∧ st.stage = 2) ∧
    (∃ (s : State) (e : Fin 7) (w : Dev) (st : SpdmEnd),
      endpointOn s.dev e.val = true ∧ (w = (if e.val < 2 then wakeCs2 (s.dev.addSat F.mgtStat_mctp_rx 1) else s.dev)) ∧ st = s.dev.spdmEnd e.val ∧ 3 ≤ st.stage) ∧
    (∃ (s : State) (e : Fin 7) (w : Dev) (st : SpdmEnd),
      endpointOn s.dev e.val = true ∧ (w = (if e.val < 2 then wakeCs2 (s.dev.addSat F.mgtStat_mctp_rx 1) else s.dev)) ∧ st = s.dev.spdmEnd e.val ∧ 3 ≤ st.stage) ∧
    (∃ (s : State) (e : Fin 7) (w : Dev) (st : SpdmEnd),
      endpointOn s.dev e.val = true ∧ (w = (if e.val < 2 then wakeCs2 (s.dev.addSat F.mgtStat_mctp_rx 1) else s.dev)) ∧ st = s.dev.spdmEnd e.val ∧ 3 ≤ st.stage) ∧
    (∃ (s : State) (e : Fin 7) (w : Dev) (st : SpdmEnd) (i : _),
      endpointOn s.dev e.val = true ∧ (w = (if e.val < 2 then wakeCs2 (s.dev.addSat F.mgtStat_mctp_rx 1) else s.dev)) ∧ st = s.dev.spdmEnd e.val ∧ 3 ≤ st.stage ∧ 1 ≤ i ∧ i ≤ 7) ∧
    (∃ (s : State) (e : Fin 7) (w : Dev) (st : SpdmEnd),
      endpointOn s.dev e.val = true ∧ (w = (if e.val < 2 then wakeCs2 (s.dev.addSat F.mgtStat_mctp_rx 1) else s.dev)) ∧ st = s.dev.spdmEnd e.val ∧ 3 ≤ st.stage ∧ st.session = none ∧ ((e.val < 3 ∨ s.dev.rd F.secLc_state ≠ 5))) ∧
    (∃ (s : State) (e : Fin 7) (w : Dev) (st : SpdmEnd),
      endpointOn s.dev e.val = true ∧ (w = (if e.val < 2 then wakeCs2 (s.dev.addSat F.mgtStat_mctp_rx 1) else s.dev)) ∧ st = s.dev.spdmEnd e.val ∧ st.session.isSome = true ∧ st.open_ = false) ∧
    (∃ (s : State) (e : Fin 7) (w : Dev) (st : SpdmEnd),
      endpointOn s.dev e.val = true ∧ (w = (if e.val < 2 then wakeCs2 (s.dev.addSat F.mgtStat_mctp_rx 1) else s.dev)) ∧ st = s.dev.spdmEnd e.val ∧ st.session.isSome = true ∧ st.open_ = true) ∧
    (∃ (s : State) (e : Fin 7) (w : Dev) (st : SpdmEnd),
      endpointOn s.dev e.val = true ∧ (w = (if e.val < 2 then wakeCs2 (s.dev.addSat F.mgtStat_mctp_rx 1) else s.dev)) ∧ st = s.dev.spdmEnd e.val ∧ st.session.isSome = true ∧ st.open_ = true) ∧
    (∃ (s : State) (e : Fin 7) (w : Dev) (st : SpdmEnd) (op : _),
      endpointOn s.dev e.val = true ∧ (w = (if e.val < 2 then wakeCs2 (s.dev.addSat F.mgtStat_mctp_rx 1) else s.dev)) ∧ st = s.dev.spdmEnd e.val ∧ st.session.isSome = true ∧ st.open_ = true ∧ 1 ≤ op ∧ op ≤ 3) ∧
    (∃ (s : State) (p : LmlId) (msg : Nat),
      s.dev.rd F.lmlStat_state p.val = 2 ∧ msg % 256 = 0x84) ∧
    (∃ (s : State) (i3c : Bool),
      mgtStopped s.dev = false ∧ s.dev.flag F.mgtCfg_i3c_en = i3c) :=
  ⟨⟨tSpdm {}, 0, _, _, by decide +kernel, rfl, rfl⟩,
   ⟨tSpdm { stage := 1 }, 6, _, { stage := 1 }, by decide +kernel, rfl, by decide +kernel⟩,
   ⟨tSpdm { stage := 2 }, 6, _, { stage := 2 }, by decide +kernel, rfl, by decide +kernel⟩,
   ⟨tSpdm { stage := 3 }, 6, _, { stage := 3 }, by decide +kernel, rfl, by decide +kernel⟩,
   ⟨tSpdm { stage := 3 }, 6, _, { stage := 3 }, by decide +kernel, rfl, by decide +kernel⟩,
   ⟨tSpdm { stage := 3 }, 6, _, { stage := 3 }, by decide +kernel, rfl, by decide +kernel⟩,
   ⟨tSpdm { stage := 3 }, 6, _, { stage := 3 }, 7, by decide +kernel, rfl, by decide +kernel⟩,
   ⟨tSpdm { stage := 3 }, 6, _, { stage := 3 }, by decide +kernel, rfl, by decide +kernel⟩,
   ⟨tSpdm { stage := 3, session := some 5 }, 6, _, { stage := 3, session := some 5 }, by decide +kernel, rfl, by decide +kernel⟩,
   ⟨tSpdm { stage := 3, session := some 5, open_ := true }, 6, _, _, by decide +kernel, rfl, rfl, by decide +kernel⟩,
   ⟨tSpdm { stage := 3, session := some 5, open_ := true }, 6, _, _, by decide +kernel, rfl, rfl, by decide +kernel⟩,
   ⟨tSpdm { stage := 3, session := some 5, open_ := true }, 6, _, _, 3, by decide +kernel, rfl, rfl, by decide +kernel⟩,
   ⟨let s := tTarget []; { s with dev := s.dev.wr F.lmlStat_state 2 3 }, 3, 0x84, by decide +kernel⟩,
   ⟨tSt id, false, by decide +kernel⟩⟩

theorem test_meets_SecurityRowsComplete :
    (∃ (s : State) (x : D2Work),
      s.dev.sec.d2 = some x ∧ inFlight s.dev = false ∧ copiesOf s.dev = []) ∧
    (∃ (s : State) (w : LcWork),
      s.dev.sec.work = some w ∧ w.erasing = false) ∧
    (∃ (s : State),
      s.dev.rd F.secLc_state = 0) ∧
    (∃ (s : State) (f : ProdFields),
      s.dev.rd F.secLc_state = 1 ∧ productionReady (burnFields f s.dev.sec.otp) = true) ∧
    (∃ (s : State),
      s.dev.reset.held = false) :=
  ⟨⟨tSt fun d => { d with sec := { d2 := some { waiter := none } } }, { waiter := none }, by decide +kernel⟩,
   ⟨tSt fun d => { d with sec := { work := some { kind := 4, erasing := false } } }, { kind := 4, erasing := false }, by decide +kernel⟩,
   ⟨tSt id, by decide +kernel⟩,
   ⟨tSt fun d => d.wr F.secLc_state 1, { deviceId := 5, keyHash0 := 6, keyHash1 := 7, rootSecret := 8, bek0 := 9, ceilEv := 2 }, by decide +kernel⟩,
   ⟨tSt id, by decide +kernel⟩⟩

/-- A current set with 5 seconds of power, and the frozen bit as `b`. -/
def tFrz (b : Bool) : State := tSt fun d => { (d.setFlag F.evrCtl_frozen b).wr F.evrPos_seconds 7205 with card := { cur := { epoch := 6 }, ckNext := 255 } }

theorem test_meets_ReportCardRowsComplete :
    (∃ (s : State),
      s.dev.flag F.evrCtl_frozen = false) ∧
    (∃ (s : State),
      s.dev.flag F.evrCtl_frozen = true) ∧
    (∃ (s : State),
      s.dev.flag F.evrCtl_frozen = false) ∧
    (∃ (s : State),
      s.dev.flag F.evrCtl_frozen = false) ∧
    (∃ (s : State) (P : List Emit → Dev → Prop),
      s.dev.flag F.evrCtl_frozen = false ∧ (P = (fun o d => d.flag F.evrCtl_frozen = true ∧ d.card.frz = {} ∧ d.card.cur = s.dev.card.cur ∧ d.out = o ++ s.dev.out))) ∧
    (∃ (s : State) (P : List Emit → Dev → Prop) (h : HstId),
      s.dev.flag F.evrCtl_frozen = false ∧ (P = (fun o d => d.flag F.evrCtl_frozen = true ∧ d.card.frz = {} ∧ d.card.cur = s.dev.card.cur ∧ d.out = o ++ s.dev.out)) ∧ AdminRuns s h.val false false) ∧
    (∃ (s : State) (P : List Emit → Dev → Prop),
      s.dev.flag F.evrCtl_frozen = true ∧ s.dev.card.endedFrozen = false ∧ s.dev.card.ckDue = false ∧ (P = (fun o d => d.flag F.evrCtl_frozen = false ∧ d.flag F.evrStat_auto_thawed = false ∧ d.card.frz = {} ∧ d.card.cur = mergeAcc s.dev.card.cur s.dev.card.frz ∧ d.out = o ++ s.dev.out))) ∧
    (∃ (s : State) (P : List Emit → Dev → Prop) (h : HstId),
      s.dev.flag F.evrCtl_frozen = true ∧ s.dev.card.endedFrozen = false ∧ s.dev.card.ckDue = false ∧ (P = (fun o d => d.flag F.evrCtl_frozen = false ∧ d.flag F.evrStat_auto_thawed = false ∧ d.card.frz = {} ∧ d.card.cur = mergeAcc s.dev.card.cur s.dev.card.frz ∧ d.out = o ++ s.dev.out)) ∧ AdminRuns s h.val false false) ∧
    (∃ (s : State),
      s.dev.flag F.evrCtl_frozen = true ∧ s.dev.card.endedFrozen = false) ∧
    (∃ (index : Nat),
      index < 2 ^ 13) ∧
    (∃ (s : State) (pr : Fin 2) (b : List Byte) (v : Bool),
      s.dev.flag F.evrWinStat_filling 0 pr.val = true ∧ cardImage s.dev (s.dev.rd F.evrCursor_area 0 pr.val) (s.dev.rd F.evrCursor_index 0 pr.val) = (b, v)) ∧
    (∃ (s : State) (pr : Fin 2),
      s.dev.flag F.evrCursor_auto 0 pr.val = true) :=
  ⟨⟨tFrz false, by decide +kernel⟩,
   ⟨tFrz true, by decide +kernel⟩,
   ⟨tFrz false, by decide +kernel⟩,
   ⟨tFrz false, by decide +kernel⟩,
   ⟨tFrz false, _, by decide +kernel, rfl⟩,
   ⟨tHost id, _, 0, by decide +kernel, rfl, by unfold AdminRuns; decide +kernel⟩,
   ⟨tFrz true, _, by decide +kernel, by decide +kernel, by decide +kernel, rfl⟩,
   ⟨let s := tHost id; { s with dev := s.dev.setFlag F.evrCtl_frozen true }, _, 0, by decide +kernel, by decide +kernel, by decide +kernel, rfl, by unfold AdminRuns; decide +kernel⟩,
   ⟨tFrz true, by decide +kernel⟩,
   ⟨8191, by decide +kernel⟩,
   ⟨let s := tFrz false; { s with dev := (s.dev.setFlag F.evrWinStat_filling true 0 1).wr F.evrCursor_area 1 0 1 }, 1, List.replicate 4096 0xFF#8, false, by decide +kernel, by unfold cardImage; rw [if_neg (by decide +kernel)]; exact if_neg (by decide +kernel)⟩,
   ⟨let s := tFrz false; { s with dev := (s.dev.setFlag F.evrCursor_auto true 0 1).wr F.evrCursor_offset 15 0 1 }, 1, by decide +kernel⟩⟩

theorem test_meets_PostMortemAndFrameRowsComplete :
    (∃ (s : State) (P : Nat → Dev → Prop),
      stopping s.dev = false ∧ s.dev.reset.held = false ∧ s.dev.reset.waitCool = false ∧ (P = (fun o d => d.reset.stage = 3 ∧ d.reset.pm = some o ∧ (o = 1 → d.card.seq = s.dev.card.seq) ∧ ∃ x : Dump, d.card.dump = some x ∧ x.seq = s.dev.card.seq + 1 ∧ x.second = s.dev.rd F.evrPos_seconds ∧ x.cause = s.dev.rd F.evrPmCtl_cause))) ∧
    (∃ (s : State) (P : Nat → Dev → Prop),
      stopping s.dev = false ∧ s.dev.reset.held = false ∧ s.dev.reset.waitCool = false ∧ (P = (fun o d => d.reset.stage = 3 ∧ d.reset.pm = some o ∧ (o = 1 → d.card.seq = s.dev.card.seq) ∧ ∃ x : Dump, d.card.dump = some x ∧ x.seq = s.dev.card.seq + 1 ∧ x.second = s.dev.rd F.evrPos_seconds ∧ x.cause = s.dev.rd F.evrPmCtl_cause)) ∧ s.dev.rd F.evrWdog_timeout_ms ≠ 0) ∧
    (∃ (s : State) (a : ActId) (head : Nat) (addr : Nat),
      s.dev.flag F.pspRaw_busy a.val = false ∧ head < 16 ∧ addr < 2048) ∧
    (∃ (s : State) (a : ActId) (r : Bool) (head : Nat) (addr : Nat) (v : Nat),
      (s.dev.seq a.val).raw = some (r, head, addr, v)) ∧
    (∃ (s : State) (a : ActId),
      (s.dev.seq a.val).raw = none ∧ s.dev.rd F.pspStat_frames a.val = 0) :=
  ⟨⟨tFrz false, _, by decide +kernel, by decide +kernel, by decide +kernel, rfl⟩,
   ⟨let s := tFrz false; { s with dev := s.dev.wr F.evrWdog_timeout_ms 10 }, _, by decide +kernel, by decide +kernel, by decide +kernel, rfl, by decide +kernel⟩,
   ⟨tFrz false, 3, 15, 2047, by decide +kernel⟩,
   ⟨let s := tFrz false; { s with dev := (s.dev.setFlag F.pspRaw_busy true 3).updSeq 3 fun q => { q with raw := some (true, 2, 9, 5) } }, 3, true, 2, 9, 5, by decide +kernel⟩,
   ⟨tFrz false, 3, by decide +kernel⟩⟩

theorem test_meets_TestAndEccRowsComplete :
    (∃ (s : State) (rq : Requester) (site : Fin 39) (depth : Nat),
      domState s.dev (siteDom site.val) ≠ 2 ∧ 0 < depth ∧ depth ≤ loopMost site.val ∧ loopAuthority s.dev = true ∧ loopGuard s.dev rq site.val depth = true) ∧
    (∃ (s : State) (site : Fin 39),
      domState s.dev (siteDom site.val) ≠ 2) ∧
    (∃ (s : State) (site : Fin 39),
      s.dev.rd F.loop_depth site.val ≠ 0 ∧ s.dev.flag F.loop_run site.val = false) ∧
    (∃ (addr : Nat) (mac : Nat) (kind : Nat),
      addr < 2 ^ 36 ∧ mac < 1024 ∧ kind < 3) ∧
    (∃ (s : State) (mac : Nat) (row : Nat),
      s.dev.flag F.eccRemapCtl_busy = false ∧ mac < 316 ∧ row < macRows mac ∧ sparesUsed s.dev mac < 16) ∧
    (∃ (s : State) (mac : Nat) (row : Nat),
      s.dev.ecc.job = some (mac, row) ∧ ((s.dev.power.stalled.any fun x => mayPerform (remapDone s.dev) x.2.1) = false)) ∧
    (∃ (s : State) (mac : Nat),
      s.dev.flag F.eccMbist_busy = false ∧ loopAuthority s.dev = true ∧ mac < 1024) ∧
    (∃ (s : State) (t : Nat),
      s.dev.ecc.bist = some t) :=
  ⟨⟨tSt fun d => d.wr F.secLc_state 1, .core 2, 2, 5, by decide +kernel⟩,
   ⟨tSt fun d => d.wr F.loop_depth 5 2, 2, by decide +kernel⟩,
   ⟨tSt fun d => d.wr F.loop_depth 5 2, 2, by decide +kernel⟩,
   ⟨2 ^ 36 - 1, 1023, 2, by decide +kernel⟩,
   ⟨tSt fun d => { d with ecc := { remap := [(315, [(7, 0)])] } }, 315, 4095, by decide +kernel⟩,
   ⟨tSt fun d => { d.setFlag F.eccRemapCtl_busy true with ecc := { job := some (315, 9), remap := [(315, [(7, 0)])], norRemap := [[1]] } }, 315, 9, by decide +kernel⟩,
   ⟨tSt id, 1023, by decide +kernel⟩,
   ⟨tSt fun d => { d.setFlag F.eccMbist_busy true with ecc := { marks := [(256 * 2 ^ 36 + 5, 1)], bist := some 256 } }, 256, by decide +kernel⟩⟩

/-- A bit-stream in the clear of these sections, signed by slot 0, whose key is zeros. -/
def tImagePack (ss : List Sys2Proof.Machine.Section) : List Byte :=
  let n := ss.length
  let table := ss.zipIdx.flatMap fun x => [BitVec.ofNat 8 x.1.ty, BitVec.ofNat 8 x.1.inst, 0#8, 0#8] ++
    toBytes (16 * n + ((ss.take x.2).map fun s => s.data.length).sum) 4 ++ toBytes x.1.data.length 4 ++ zeros 4
  let p := table ++ ss.flatMap (·.data)
  miovMagic ++ toBytes 1 2 ++ zeros 2 ++ toBytes (p.length + 344) 4 ++ toBytes n 2 ++ zeros 14 ++ toBytes dieRev 2 ++ zeros 14 ++
    toBytes p.length 4 ++ zeros 184 ++ p ++ zeros 112
/-- The recovery structure's sections with one HDA of one actuator, its format and an empty control store. -/
def tImgSections : List Sys2Proof.Machine.Section :=
  let r := recoverySections 16
  (r.take 1) ++ [⟨2, 0, tBytes ([1, 6, 8, 0, 0, 0, 0, 0, 0, 6, 8, 0, 0, 0, 0, 0] ++
      (List.replicate 4 [0, 8, 0, 0, 0, 0, 0, 0]).flatten ++ [255, 255, 255, 255] ++ List.replicate 12 0)⟩,
    ⟨3, 0, tBytes [1, 1, 1, 10, 0, 8, 14, 13, 194, 1, 1, 0, 0, 0, 0, 0]⟩,
    ⟨5, 0, tBytes ([0, 2, 0, 16, 0, 2, 0, 1, 232, 3, 0, 0, 10, 1, 0, 0, 2, 0] ++ List.replicate 14 0 ++
      [0, 0, 0, 0, 207, 7, 0, 0, 220, 3, 1, 0, 0, 0, 0, 0, 208, 7, 0, 0, 95, 9, 0, 0, 220, 3, 0, 0, 0, 0, 0, 0])⟩] ++
    ((r.drop 2).take 3) ++ [⟨10, 0, zeros 104⟩] ++ r.drop 5
def tStream : List Byte := tImagePack tImgSections
def tImgDev : Dev := { sec := { otp := { keyHash := [(0, Config.sha384 (zeros 97))] } } }
/-- It verifies in BLANK, where the hash of the key is not 0 and the signatures verify. -/
theorem test_image_verifies (hk : Config.sha384 (zeros 97) ≠ 0)
    (hs : Config.ecdsaVerify (zeros 97) (tStream.take 912) (tStream.drop 912) = true)
    (hc : Config.hashVerify (Config.sha384 (zeros 97)) (zeros 8) (zeros 96) = true) :
    verifyImage tImgDev tStream = (0, tImgSections) := by
  have h1 : headerOk tStream miovMagic (4 * 2 ^ 20) false = true := by decide +kernel
  have hkey : sliceBytes tStream 0x80 97 = zeros 97 := by decide +kernel
  have h0 : imgSigner tStream = 0 := by decide +kernel
  have hl : tStream.length = 1008 := by decide +kernel
  have ht : tabGet 0 tImgDev.sec.otp.keyHash 0 = Config.sha384 (zeros 97) := rfl
  have h2 : signerOk tImgDev tStream = true := by simp [signerOk, keyAccepted, hkey, h0, ht, hk]
  have h3 : signatureOk tStream = true := by simp [signatureOk, hkey, hl, hs]
  have h4 : ¬ (imgRev tStream ≠ dieRev ∨ imgArb tStream < tImgDev.sec.otp.arbBs) := by decide +kernel
  have h5 : openPayload tImgDev tStream = some (sliceBytes tStream 0xE8 664) := by decide +kernel
  have h6 : tableOk (sliceBytes tStream 0xE8 664) (imgSections tStream) = true := by decide +kernel
  have h7 : sectionsOf (sliceBytes tStream 0xE8 664) (imgSections tStream) = tImgSections := by decide +kernel
  have h8 : tImgSections.all (sectionOk tImgSections tStream) = true := by decide +kernel
  have h9 : crossOk tImgDev tImgSections = true := by decide +kernel
  have h10 : (tImgSections.filter fun s => s.ty == 10 && decide (s.inst < 128)) = [⟨10, 0, zeros 104⟩] := by decide +kernel
  have ha : (zeros 104).take 8 = zeros 8 := by decide +kernel
  have hb : (zeros 104).drop 8 = zeros 96 := by decide +kernel
  have hz : (zeros 104).length = 104 := by decide +kernel
  have h11 : vendorOk tImgDev ⟨10, 0, zeros 104⟩ = true := by simp [vendorOk, ha, hb, hz, ht, hk, hc]
  unfold verifyImage
  rw [if_neg (by rw [h1]; decide), if_neg (by rw [h2]; decide), if_neg (by rw [h3]; decide), if_neg h4, h5]
  simp only [h6, h7, h8, h9, h10, List.all_cons, List.all_nil, h11]
  decide
theorem test_meets_StepRunsTheFrontCommand : ∃ s : State, s.pending = [] := ⟨State.reset, rfl⟩
theorem test_meets_StepKeepsWindowsCanonical : ∃ s t : State, s.mem ≠ [] ∧ s.inv ∧ step s = .next t :=
  ⟨{ mem := [(scratchBase 7 + 0x7FFF, 3#8), (traceBase 7, 1#8)], pending := [.watchdogKick] }, _, by decide, by unfold State.inv; decide +kernel, rfl⟩
theorem test_meets_StoredBytes : ∃ (c g : Fin 8) (off n : Nat) (data : BitVec 64) (s t : State) (x : Nat), off < 0x8000 ∧
    exec (.scratchAccess (.core c) g off (.wr n data)) s = .next t ∧
    ¬(scratchBase g.val + off ≤ x ∧ x < scratchBase g.val + off + n) :=
  ⟨3, 7, 0x7FF8, 8, 5#64, tSt fun d => d.wr F.mapGrpStat_is_scratch 128, _, scratchBase 7, by decide, rfl, by decide⟩
/-- A device whose domain `k` is ABSENT, with BAR2's set I and the DBG port at D2. -/
def tAbsent (k : Nat) : State := tSt fun d => ((d.wr F.pwrDom_dom 2 0 k).wr F.dbgStat_bar2_set 3).wr F.dbgStat_jtag_level 2
theorem test_meets_AbsentBlockAccess : ∀ rq ∈ [Requester.core 7, .bar2 1, .dbg],
    ∃ (s : State) (addr off : Nat) (acc : Access) (a : Area),
    (s.dev.power.stalled.any fun x => mayPerform s.dev x.2.1) = false ∧ s.dev.reset.held = false ∧ s.dev.reset.waitCool = false ∧ areaOf (busAddr rq addr) = some (a, off) ∧
    domState s.dev (areaDom a) = 2 ∧
    (isBar2 rq = true → s.dev.rd F.dbgStat_bar2_set ≠ 0 ∧ bar2Allows (s.dev.rd F.dbgStat_bar2_set) a off (accIsWrite acc) = true) ∧
    (isDbg rq = true → dbgProvides s.dev acc = true ∧ closedPlace a off = false) := by
  intro rq h
  obtain ⟨b, o, hb⟩ : ∃ b o, areaOf (csBase 7) = some (b, o) := ⟨_, _, rfl⟩
  refine ⟨tAbsent (areaDom b), csBase 7, o, .wr 8 1, b, rfl, rfl, rfl, ?_⟩
  injection hb with hb; injection hb with h1 h2; subst h1; subst h2
  simp only [List.mem_cons, List.not_mem_nil, or_false] at h
  obtain rfl | rfl | rfl := h <;> decide +kernel
theorem test_meets_LifeCycleDecoding : (∃ c, 3 ≤ c ∧ c ≤ 19) ∧ (∃ c, 20 ≤ c) ∧ (∃ d : Dev, d.sec.otp.lcCount ≤ 32 ∧ 19 < d.sec.otp.lcCount) ∧
    (∃ (s : State) (w : LcWork), s.dev.sec.work = some w ∧ w.erasing = false ∧ w.kind = 4) :=
  ⟨⟨19, by decide⟩, ⟨20, by decide⟩, ⟨{ sec := { otp := { lcCount := 32 } } }, by decide⟩,
    ⟨tSt fun d => { d with sec := { work := some { kind := 4, erasing := false } } }, { kind := 4, erasing := false }, rfl, rfl, rfl⟩⟩
theorem test_meets_MailboxIsForCores :
    (∃ (s : State) (off : Nat) (acc : Access), 0x100 ≤ off ∧ off < 0x1000 ∧ s.dev.reset.held = false ∧ s.dev.reset.waitCool = false ∧
      (s.dev.power.stalled.any fun x => mayPerform s.dev x.2.1) = false ∧
      dbgProvides s.dev acc = true ∧ domState s.dev 1 = 0 ∧ legalSize off (accSize acc) = true) ∧
    (∃ (s : State) (off : Nat) (acc : Access), 0x100 ≤ off ∧ off < 0x1000 ∧ s.dev.reset.held = false ∧ s.dev.reset.waitCool = false ∧
      (s.dev.power.stalled.any fun x => mayPerform s.dev x.2.1) = false ∧
      dbgProvides s.dev acc = false ∧ domState s.dev 1 = 0 ∧ legalSize off (accSize acc) = true) :=
  ⟨⟨tAbsent 5, 0xFF8, .wr 8 1, by decide, by decide, rfl, rfl, rfl, by decide +kernel, by decide +kernel, by decide⟩,
    ⟨State.reset, 0x104, .rd 4, by decide, by decide, rfl, rfl, rfl, by decide +kernel, by decide +kernel, by decide⟩⟩
theorem test_meets_FieldTypes : (∀ ty ∈ [FTy.ro, .rws, .wo, .rw1c, .rw], ∃ (b : Block) (r : Reg) (f : Fld) (m mask : Nat),
      r ∈ Reg.ofBlock b ∧ f ∈ r.fields ∧ m < f.nsub ∧ f.ty = ty ∧ fieldBits mask f m ≠ 0) ∧
    ∃ (r : Reg) (g : Fld), ∀ f ∈ r.fields, f.id ≠ g.id := by
  refine ⟨fun ty h => ?_, Reg.cphErr, F.mapMaint_go, by decide⟩
  simp only [List.mem_cons, List.not_mem_nil, or_false] at h
  obtain rfl | rfl | rfl | rfl | rfl := h
  · exact ⟨.glb, Reg.glbBusErr, F.glbBusErr_addr, 0, 2 ^ 64 - 1, by decide, by decide, by decide, rfl, by decide⟩
  · exact ⟨.xbr, Reg.xbrClsWeight, F.xbrClsWeight_w, 6, 2 ^ 64 - 1, by decide, by decide, by decide, rfl, by decide⟩
  · exact ⟨.map, Reg.mapMaint, F.mapMaint_go, 0, 2 ^ 64 - 1, by decide, by decide, by decide, rfl, by decide⟩
  · exact ⟨.cph, Reg.cphErr, F.cphErr_key_empty, 0, 2, by decide, by decide, by decide, rfl, by decide⟩
  · exact ⟨.map, Reg.mapGrpCtl, F.mapGrpCtl_scratch, 0, 2 ^ 64 - 1, by decide, by decide, by decide, by decide, by decide⟩

/-! Each frame has a state and a command of its rows that completes there. -/
theorem test_meets_PlatformFrames : (∃ t, exec (.calibrationRequest 5 15) State.reset = .next t) ∧
    ∃ t, exec (.pspFrameDone 7 9#16) (tSt id) = .next t := ⟨⟨_, rfl⟩, ⟨_, rfl⟩⟩
theorem test_meets_MediaFrames : (∃ t, exec (.sequencerAbort 7) (tSt id) = .next t) ∧
    ∃ t, exec (.vbusOv1 3) (tSt id) = .next t := ⟨⟨_, rfl⟩, ⟨_, rfl⟩⟩
theorem test_meets_HostFrames : (∃ t, exec .activateSlotWritten State.reset = .next t) ∧
    ∃ t, exec (.homeworkRewrite 1 0) (tSt id) = .next t := ⟨⟨_, rfl⟩, ⟨_, rfl⟩⟩
theorem test_meets_KeyFrames : ∃ t, exec (.mapPrefetch 7) (tSt id) = .next t := ⟨_, rfl⟩
theorem test_meets_ChainFrames : ∃ t, exec (.getVersion 6) (tTarget []) = .next t := ⟨_, rfl⟩
theorem test_meets_CommandFrames : ∃ t, exec (.lomeyCmd 3 tCmdFrame) (tTarget []) = .next t := ⟨_, rfl⟩
theorem test_meets_StopFrames : ∃ t, exec .orderlyReset (tSt id) = .next t := ⟨_, rfl⟩

/-! ### Ill-formed commands are refused -/
def tPkt : Packet := { inp := 0, out := 1, kind := .hostOther, beats := 4, badBeats := [], poison := [], cmd := none }
/-- Accesses: an address, a size or an offset too large. -/
theorem test_wf_refuses_accesses : ∀ c ∈ [Instr.registerWrite .dbg (2 ^ 32) (.rd 8), .registerWrite .dbg 0 (.rd 9),
    .registerWrite .dbg 0 (.wr 9 0), .busTimeout .dbg (2 ^ 32) false, .dbgAccess (.ctrl (2 ^ 32) (.rd 8)), .dbgAccess (.ctrl 0 (.rd 9)),
    .scratchAccess .dbg 0 0x8000 (.rd 8), .scratchAccess .dbg 0 0 (.rd 9), .controlStoreWrite .dbg 0 0x40000 (.rd 8),
    .controlStoreWrite .dbg 0 0 (.rd 9), .cursorFill .dbg 0 0 (2 ^ 13) 0 false], c.wf = false := by decide +kernel
/-- Packets: no beat, too many, a bad or a poisoned beat beyond the last, or the output the input. -/
theorem test_wf_refuses_packets : ∀ c ∈ [Instr.xbarArbitrate 0 [{ tPkt with beats := 0 }], .xbarArbitrate 0 [{ tPkt with beats := 17 }],
    .xbarArbitrate 0 [{ tPkt with badBeats := [4] }], .xbarArbitrate 0 [{ tPkt with poison := [4] }], .xbarArbitrate 0 [{ tPkt with out := 0 }], .creditReturn 0 0 0,
    .creditReturn 0 0 17], c.wf = false := by decide +kernel
/-- Host commands: data of another length than the range, and too many ranges. -/
theorem test_wf_refuses_host : ∀ c ∈ [Instr.write 0 1 2 ⟨1, 0, 2, 0⟩ [7] false 0, .compare 0 1 2 ⟨1, 0, 2, 0⟩ [7],
    .copy 0 1 2 1 ⟨0, 0⟩ (List.replicate 129 ⟨1, 0, 1, 0⟩)], c.wf = false := by decide +kernel
/-- Frames: each field beyond its width. -/
theorem test_wf_refuses_frames : ∀ c ∈ [Instr.lomeyFrameReceived 0 { tFr with dest := 2 ^ 24 } .good,
    .lomeyFrameReceived 0 { tFr with src := 2 ^ 24 } .good, .lomeyFrameReceived 0 { tFr with budget := 2 ^ 16 } .good,
    .lomeyFrameReceived 0 { tFr with tc := 8 } .good, .lomeyFrameReceived 0 { tFr with ty := 32 } .good,
    .lomeyFrameReceived 0 { tFr with attempt := 4 } .good, .lomeyFrameReceived 0 { tFr with length := 2 ^ 12 } .good,
    .lomeyFrameReceived 0 { tFr with tag := 2 ^ 32 } .good, .lomeyFrameReceived 0 { tFr with seq := 2 ^ 12 } .good,
    .linkControlFlit 0 (some 4096) none (List.replicate 8 0) true, .linkControlFlit 0 none (some 4096) (List.replicate 8 0) true,
    .linkControlFlit 0 none none [] true], c.wf = false := by decide +kernel
/-- Sectors on a channel: a defect that is no run of the slot's symbols, a mark found too far off, a word longer than a codeword. -/
theorem test_wf_refuses_sectors :
    let x (a b : Nat) : Defect := { reader := 0, asperity := true, start := a, stop := b, level := 1 }
    let w : DecodeRes := { iters := 1, llr := [], word := 2 ^ 37248, samples := [] }
    ∀ c ∈ [Instr.primarySyncFound 0 1 33 ⟨true, []⟩, .primarySyncFound 0 1 0 ⟨true, [x 7 7]⟩, .resyncSearchEnd 0 (some (0, 17, true)) ⟨true, 0, 0, []⟩,
      .resyncSearchEnd 0 none ⟨true, 0, 0, [x 0 37569]⟩, .sectorLastParity ⟨0, [x 9 8]⟩, .decodeDone 0 0 w, .reframedDecodeDone 0 0 w,
      .redecodeDone 0 w], c.wf = false := by decide +kernel
/-- The other fields. -/
theorem test_wf_refuses_fields : ∀ c ∈ [Instr.microwordExecute 0 ⟨0, 0, 0, 0, 0, 256⟩, .loopbackSelect .dbg 0 8 0,
    .loopbackSelect .dbg 0 0 (2 ^ 24), .eccInject (2 ^ 36) 0 0, .eccInject 0 1024 0, .eccInject 0 0 4, .eccRemap 1024 0,
    .eccRemap 0 (2 ^ 16), .firmwareVote (2 ^ 23) [0, 0, 0, 0], .firmwareVote 0 [], .thermalSample [], .pspRawFrame 0 true 16 0 0,
    .pspRawFrame 0 true 0 2048 0], c.wf = false := by decide +kernel
/-- A command within its widths is well formed. -/
theorem test_wf_accepts : ∀ c ∈ [Instr.registerWrite .dbg (2 ^ 32 - 1) (.wr 8 1), .xbarArbitrate 0 [tPkt],
    .lomeyFrameReceived 3 tFr .good, .eccInject (2 ^ 36 - 1) 1023 3], c.wf = true := by decide

/-! ### The spec's worked examples -/
/-- Four HDAs of the worked configuration (02, 11): HDA, SEAT, FORMAT and POWER sections, with every HDA in HS0. -/
def tFour : Dev :=
  let hda := tBytes [1, 1, 2, 10, 1, 8, 14, 13, 194, 1, 80, 195, 0, 0, 0, 0]
  let fmt := ((tSections.find? fun s => s.ty == 5).map (·.data)).getD []
  let pow := tSections.filter fun s => s.ty == 13
  forEach [0, 1, 2, 3] { struct := { sections :=
    ((List.range 4).map fun n => ⟨3, n, hda⟩) ++ ((List.range 8).map fun a => ⟨4, a, tBytes [1, 0, 0, 0, 0, 5, 0, 0, 176, 4, 0, 0]⟩) ++
      ((List.range 4).map fun n => ⟨5, n, fmt⟩) ++ pow } } fun d n => d.wr F.pwrHs_state 0 0 n
/-- E_n, t_avail and B_n of four HDAs at 7,200 rpm (11, after R297). -/
theorem test_example_bound_of_four : heldEnergy tFour 3 7200 = (45372, 2832793600) ∧
    availUs tFour (List.replicate 4 45372) / 1000 = 2419 ∧
    (boundsOf tFour ((List.range 4).map fun n => (n, heldEnergy tFour n 7200))).map (·.2 / 256) = [2048, 2048, 2048, 2048] := by
  decide +kernel
/-- Two HDAs: 999.5 MiB each; four at 5,400 rpm: 2,767 MiB together. -/
theorem test_example_bound_of_two : (boundsOf tFour ((List.range 2).map fun n => (n, heldEnergy tFour n 7200))).map (·.2 * 2 / 512) = [999, 999] ∧
    ((boundsOf tFour ((List.range 4).map fun n => (n, heldEnergy tFour n 5400))).map (·.2)).sum / 256 = 2767 := by decide +kernel
/-- Sector 17 of the 900-sector zone (07, after R180): its place, its resync mark and its end. -/
theorem test_example_sector_17 : payloadSymbols 900 512 = 66038 ∧ locate 66038 17 0 = (9, 45256) ∧ locate 66038 17 16608 = (9, 60564) ∧
    locate 66038 17 37520 = (10, 18970) := by decide
/-- With 512 wedges a zone has 412 to 988 sectors per track (08, R202). -/
theorem test_example_symbol_rate : [411, 412, 988, 989].map (fun n => rateInRange (payloadSymbols n 512) 512) = [false, true, true, false] := by decide
/-- Data address 0x1234_5678 and its check byte (13). -/
theorem test_example_dram_word : dramPhysical 0x12345678 = (0x147AE078, 0x147AEACF) := by decide
/-- ZSZE, ZCAP and the places of offsets 1,000 and 1,060 (04). -/
theorem test_example_zone : zoneSize tFour { tZns with parity := 2 } = 131072 ∧ zoneCap tFour { tZns with parity := 2 } = 126976 ∧
    zonePlace true 256 2 1000 = (0, 520) ∧ zonePlace true 256 2 1060 = (1, 518) := by decide +kernel
/-- The worked curve at 1,000 and 150 MB/s (11). -/
theorem test_example_curve : curveAt [(0, 3600), (2000, 5400), (4000, 7200)] 3000 = 6300 ∧
    curveAt [(0, 3600), (2000, 5400), (4000, 7200)] 150 = 3700 := by decide
/-- A node five hops away the longer way (12). -/
theorem test_example_budget : budgetFor {} 5 = 40080 := by decide +kernel
/-- A frame of 412,380 bytes takes 101 LBAs (05). -/
theorem test_example_stored_lbas : storedLbas { tFrame with compLen := 412380 } = 101 := by decide
/-- The applied level goes from 380 to 400 in seven revolutions (09). -/
theorem test_example_assist_levels : (List.range 7).map (fun k => (List.range (k + 1)).foldl (fun l _ => levelStep l 400) 380) =
    [383, 386, 389, 392, 395, 398, 400] := by decide
/-- At 0x0538_0000 the record 0x0550_0000 is due (06, R162). -/
theorem test_example_nonce_record : let d (n : Nat) : Dev := (({} : Dev).wr F.cphNonceLimit_value 0x05400000).wr F.cphNonceCtr_value n
    (nonceReserve (d 0x05380000)).cipher.recordDue = some 0x05500000 ∧ (nonceReserve (d 0x0537FFFF)).cipher.recordDue = none := by
  decide +kernel
/-- The arbitration at MEM (01, after R24): Hall Pass and deficit in cycles t, t+1, t+12 and t+19. -/
theorem test_example_arbitration :
    let pk (i o : Fin 8) (n : Nat) : Packet := { inp := i, out := o, kind := .hostOther, beats := n, badBeats := [], poison := [], cmd := none }
    let d : Dev := ((({ struct := { sections := [⟨7, 0, zeros 72 ++ List.replicate 10 2#8⟩] } } : Dev).wr F.xbrClsWeight_w 20 0 44).wr F.xbrHallPass_ptr 3 0 6).updXb
      fun x => { x with deficit := [(50, 20)], queued := [{ arrived := 0, cls := 2, p := pk 4 2 16 }] }
    let a := xbarArbitrate 100 [pk 0 6 4, pk 4 6 16, pk 7 6 8] d
    let b := xbarArbitrate 101 [] a
    let c := xbarArbitrate 112 [] b
    let e := xbarArbitrate 119 [] (c.updXb fun x => { x with credit := [] })
    [a, b, c, e].map (fun d => (d.rd F.xbrHallPass_ptr 0 6, tabGet 0 d.xb.deficit 50)) = [(3, 20), (0, 12), (1, 8), (5, -8)] := by
  decide +kernel

/-- Bits 9 and 0 of a byte string in error (bit k is bit k mod 8 of byte k div 8). -/
theorem test_bits_in_error : flipBits [9, 0] [0x00, 0x80] = [0x01, 0x82] := by decide +kernel

end
end

section
/-! PROOF. A bit-stream that verifies (R59): what each step of the verification gives about its sections. -/
namespace Sys2Proof.Machine

/-! ### The steps of the verification -/

/-- A step of the verification that may fail: 0 comes out just when it passes and what follows gives 0. -/
theorem ite_step_eq_zero_iff {c : Prop} [Decidable c] (k : Nat) (rest : Nat × List Section) (ss : List Section) :
    (if c then (k + 1, []) else rest) = (0, ss) ↔ ¬ c ∧ rest = (0, ss) := by
  by_cases hc : c <;> simp [hc]

/-- A bit-stream verifies just when every step of R59 passes; the sections are those of its payload. -/
theorem verifyImage_eq_zero_iff (d : Dev) (b : List Byte) (ss : List Section) :
    verifyImage d b = (0, ss) ↔
      headerOk b miovMagic (4 * 2 ^ 20) false = true ∧ signerOk d b = true ∧ signatureOk b = true ∧
      (imgRev b = dieRev ∧ d.sec.otp.arbBs ≤ imgArb b) ∧
      ∃ p, openPayload d b = some p ∧ tableOk p (imgSections b) = true ∧ sectionsOf p (imgSections b) = ss ∧
        ss.all (sectionOk ss b) = true ∧ crossOk d ss = true ∧
        (ss.filter fun s => s.ty == 10 && decide (s.inst < 128)).all (vendorOk d) = true := by
  unfold verifyImage
  cases openPayload d b with
  | none => simp [ite_step_eq_zero_iff]
  | some p =>
    simp only [ite_step_eq_zero_iff, Prod.mk.injEq, true_and, Bool.not_eq_true', Bool.not_eq_false, not_or, not_not, Nat.not_lt,
      Option.some.injEq, exists_eq_left']
    constructor
    · rintro ⟨hhead, hkey, hsig, hrev, htab, hsec, hcross, hvendor, rfl⟩
      exact ⟨hhead, hkey, hsig, hrev, htab, rfl, hsec, hcross, hvendor⟩
    · rintro ⟨hhead, hkey, hsig, hrev, htab, rfl, hsec, hcross, hvendor⟩
      exact ⟨hhead, hkey, hsig, hrev, htab, hsec, hcross, hvendor, rfl⟩

/-- Step 5: an image in the clear opens only in BLANK or TEST. -/
theorem lcState_lt_two_of_openPayload_clear {d : Dev} {b p : List Byte} (h : openPayload d b = some p)
    (hclear : imgFlags b = 0) : d.rd F.secLc_state < 2 := by
  by_contra hlc
  simp [openPayload, hclear, hlc] at h

/-! ### The sections a valid table holds -/

/-- Step 6: a type that every bit-stream holds (R41) is there, as instance 0. -/
theorem exists_section_of_tableOk {p : List Byte} {n ty : Nat} (h : tableOk p n = true) (hty : ty ∈ [1, 2, 7, 8, 9, 11, 13, 15]) :
    ∃ s ∈ sectionsOf p n, s.ty = ty ∧ s.inst = 0 := by
  simp only [tableOk, Bool.and_eq_true, List.all_eq_true] at h
  obtain ⟨⟨⟨⟨_, hentry⟩, _⟩, hheld⟩, _⟩ := h
  obtain ⟨e, he, hety⟩ := List.any_eq_true.1 (hheld ty hty)
  have hety : e.1 = ty := by simpa using hety
  obtain ⟨⟨⟨_, hinst⟩, _⟩, _⟩ := hentry e he
  refine ⟨_, List.mem_map_of_mem he, hety, ?_⟩
  rw [hety] at hinst
  simp only [List.mem_cons, List.not_mem_nil, or_false] at hty
  obtain rfl | rfl | rfl | rfl | rfl | rfl | rfl | rfl := hty <;> exact eq_of_beq hinst

/-- `findSec` gives the bytes of a section of the list that has the type and instance, where there is one. -/
theorem exists_mem_data_eq_findSec {ss : List Section} {ty inst : Nat} (h : ∃ s ∈ ss, s.ty = ty ∧ s.inst = inst) :
    ∃ s ∈ ss, s.ty = ty ∧ s.inst = inst ∧ s.data = findSec ss ty inst := by
  cases hf : ss.find? fun x => x.ty == ty && x.inst == inst with
  | none =>
    obtain ⟨s, hs, hty, hinst⟩ := h
    exact absurd (List.find?_eq_none.1 hf s hs) (by simp [hty, hinst])
  | some s =>
    have hkey := List.find?_some hf
    simp only [Bool.and_eq_true, beq_iff_eq] at hkey
    exact ⟨s, List.mem_of_find?_eq_some hf, hkey.1, hkey.2, by simp [findSec, hf]⟩

/-- Steps 6 and 7: the bytes of a type that every bit-stream holds passed the check of a section of that type. -/
theorem exists_sectionOk_findSec {d : Dev} {b : List Byte} {ss : List Section} (h : verifyImage d b = (0, ss)) {ty : Nat}
    (hty : ty ∈ [1, 2, 7, 8, 9, 11, 13, 15]) : ∃ s, s.ty = ty ∧ s.data = findSec ss ty 0 ∧ sectionOk ss b s = true := by
  obtain ⟨_, _, _, _, p, _, htab, rfl, hsec, _, _⟩ := (verifyImage_eq_zero_iff d b ss).1 h
  obtain ⟨s, hs, hsty, _, hdata⟩ := exists_mem_data_eq_findSec (exists_section_of_tableOk htab hty)
  exact ⟨s, hsty, hdata, List.all_eq_true.1 hsec s hs⟩

theorem sectionOk_xbar (ss : List Section) (hdr : List Byte) {s : Section} (h : s.ty = 7) : sectionOk ss hdr s = xbarOk s.data := by
  simp only [sectionOk, h]

theorem sectionOk_ctx (ss : List Section) (hdr : List Byte) {s : Section} (h : s.ty = 8) : sectionOk ss hdr s = ctxOk s.data := by
  simp only [sectionOk, h]

/-- XBAR (R51): its bytes pass its check. -/
theorem xbarOk_of_verifyImage {d : Dev} {b : List Byte} {ss : List Section} (h : verifyImage d b = (0, ss)) :
    xbarOk (findSec ss 7 0) = true := by
  obtain ⟨s, hty, hdata, hok⟩ := exists_sectionOk_findSec h (ty := 7) (by decide)
  rwa [sectionOk_xbar ss b hty, hdata] at hok

/-- CTX (R52): its bytes pass its check. -/
theorem ctxOk_of_verifyImage {d : Dev} {b : List Byte} {ss : List Section} (h : verifyImage d b = (0, ss)) :
    ctxOk (findSec ss 8 0) = true := by
  obtain ⟨s, hty, hdata, hok⟩ := exists_sectionOk_findSec h (ty := 8) (by decide)
  rwa [sectionOk_ctx ss b hty, hdata] at hok

/-! ### What the checks say of the fields -/

theorem xbarOk_iff (x : List Byte) :
    xbarOk x = true ↔ x.length = 88 ∧ (∀ k, k < 10 → leBytes x (0x48 + k) 1 ≤ 6) ∧ zeroBytes x 0x52 6 = true := by
  simp [xbarOk, and_assoc]

theorem ctxOk_iff (c : List Byte) :
    ctxOk c = true ↔ c.length = 16 ∧ leBytes c 0 4 + leBytes c 4 4 + leBytes c 8 4 + leBytes c 12 4 = 131072 ∧
      4096 ≤ leBytes c 12 4 := by
  simp [ctxOk, and_assoc]

/-- Step 8 on the ports and the context counts: a used host port, the host ports' shares and the transit share. -/
theorem ports_and_shares_of_crossOk {d : Dev} {ss : List Section} (h : crossOk d ss = true) :
    (leBytes (findSec ss 2 0) 0 1 = 1 ∨ leBytes (findSec ss 2 0) 8 1 = 1) ∧
    (∀ i, i < 2 → if leBytes (findSec ss 2 0) (8 * i) 1 = 1 then 1024 ≤ leBytes (findSec ss 8 0) (4 * i) 4
      else leBytes (findSec ss 8 0) (4 * i) 4 = 0) ∧
    ((∀ p, p < 4 → leBytes (findSec ss 2 0) (0x10 + 8 * p) 1 ≠ 1) → leBytes (findSec ss 8 0) 8 4 = 0) := by
  simp only [crossOk, Bool.and_eq_true] at h
  obtain ⟨⟨⟨⟨⟨⟨⟨⟨⟨⟨⟨⟨hhost, _⟩, hshare⟩, htransit⟩, _⟩, _⟩, _⟩, _⟩, _⟩, _⟩, _⟩, _⟩, _⟩ := h
  refine ⟨?used, ?host, ?transit⟩
  case used =>
    by_contra hnone
    rw [not_or] at hnone
    simp [hnone] at hhost
  case host =>
    intro i hi
    have hi : i ∈ [0, 1] := by interval_cases i <;> decide
    simpa [List.mem_filter, hi] using List.all_eq_true.1 hshare i hi
  case transit =>
    intro hunused
    have hoff : ((List.range 4).filter fun p => leBytes (findSec ss 2 0) (0x10 + 8 * p) 1 == 1) = [] := by
      simpa [List.filter_eq_nil_iff] using hunused
    simpa [hoff] using htransit

/-- Settles O9: steps 7 and 8 of R59 give the classes, the ports and the shares, step 5 the life-cycle state of an image in the
clear. -/
theorem verifiedImage : Obligations.VerifiedImage := by
  unfold Obligations.VerifiedImage
  intro d b ss h
  obtain ⟨_, _, _, _, p, hopen, _, _, _, hcross, _⟩ := (verifyImage_eq_zero_iff d b ss).1 h
  obtain ⟨_, hclasses, _⟩ := (xbarOk_iff _).1 (xbarOk_of_verifyImage h)
  obtain ⟨hlen, hsum, hinternal⟩ := (ctxOk_iff _).1 (ctxOk_of_verifyImage h)
  obtain ⟨hport, hshares, htransit⟩ := ports_and_shares_of_crossOk hcross
  exact ⟨hclasses, hport, lcState_lt_two_of_openPayload_clear hopen, hlen, hsum, hinternal, hshares, htransit⟩

end Sys2Proof.Machine
end

section
/-! PROOF. An access to a block whose domain is ABSENT (R361): how the bus comes to it, and what its log then reads. -/
namespace Sys2Proof.Machine

/-! ### How an access comes to an absent block -/

/-- While no stalled access may be performed, the accesses that stalled go on waiting. -/
theorem releaseReady_of_none_ready {d : Dev} (m : List Host.Cell)
    (h : (d.power.stalled.any fun x => mayPerform d x.2.1) = false) : releaseReady d m = (d, m) := by
  have hnone : ∀ x ∈ d.power.stalled, mayPerform d x.2.1 = false := by simpa using h
  have hready : d.power.stalled.filter (fun x => mayPerform d x.2.1) = [] :=
    List.filter_eq_nil_iff.2 fun x hx => by simp [hnone x hx]
  have hwaiting : d.power.stalled.filter (fun x => !mayPerform d x.2.1) = d.power.stalled :=
    List.filter_eq_self.2 fun x hx => by simp [hnone x hx]
  simp only [releaseReady, hready, hwaiting]
  rfl

/-- Once the checks of BAR2's set and of the DBG port are passed, an absent domain answers before anything else (log 20). -/
theorem busAccess_of_absent {rq : Requester} {addr off : Nat} {acc : Access} {a : Area} {d : Dev} (m : List Host.Cell)
    (hstalled : (d.power.stalled.any fun x => mayPerform d x.2.1) = false)
    (hheld : d.reset.held = false) (hcool : d.reset.waitCool = false)
    (harea : areaOf (busAddr rq addr) = some (a, off)) (habsent : domState d (areaDom a) = 2)
    (hbar2 : isBar2 rq = true →
      d.rd F.dbgStat_bar2_set ≠ 0 ∧ bar2Allows (d.rd F.dbgStat_bar2_set) a off (accIsWrite acc) = true)
    (hdbg : isDbg rq = true → dbgProvides d acc = true ∧ closedPlace a off = false) :
    busAccess rq addr acc d m = (absentAccess d rq (busAddr rq addr), m) := by
  have hprovided : (isDbg rq && !dbgProvides d acc) = false := Bool.and_eq_false_imp.2 fun h => by simp [(hdbg h).1]
  have hset : (isBar2 rq && d.rd F.dbgStat_bar2_set == 0) = false := Bool.and_eq_false_imp.2 fun h => by simp [(hbar2 h).1]
  have hallowed : (isBar2 rq && !bar2Allows (d.rd F.dbgStat_bar2_set) a off (accIsWrite acc)) = false :=
    Bool.and_eq_false_imp.2 fun h => by simp [(hbar2 h).2]
  have hopen : (isDbg rq && closedPlace a off) = false := Bool.and_eq_false_imp.2 fun h => (hdbg h).2
  simp [busAccess, releaseReady_of_none_ready m hstalled, hheld, hcool, hprovided, hset, harea, hallowed, hopen, habsent]

/-! ### What PWR_ABS_LOG reads after it -/

theorem satTo_lt (w v : Nat) : satTo w v < 2 ^ w := by
  have := Nat.two_pow_pos w
  unfold satTo
  omega

/-- A saturating count reads one more step up, cut at its width. -/
theorem Dev.rd_addSat_same (d : Dev) (f : Fld) (n i j : Nat) :
    (d.addSat f n i j).rd f i j = satTo f.w (d.rd f i j + n) :=
  Dev.rd_wr_lt _ _ _ _ _ (satTo_lt ..)

/-- The answer is an error of all ones, and nothing but registers changes besides it. -/
theorem absentAccess_eq_answer (d : Dev) (rq : Requester) (addr : Nat) :
    absentAccess d rq addr =
      { d with regs := (absentAccess d rq addr).regs, out := .bus (reqNum rq) false allOnes :: d.out } := rfl

theorem absentAccess_addr (d : Dev) (rq : Requester) (addr : Nat) :
    (absentAccess d rq addr).rd F.pwrAbsLog_addr = addr % 2 ^ F.pwrAbsLog_addr.w := by
  simp only [absentAccess, Dev.emit_rd, Dev.addSat_eq, Dev.setFlag_eq]
  rw [Dev.rd_wr_ne _ _ _ _ _ _ _ _ (by decide), Dev.rd_wr_ne _ _ _ _ _ _ _ _ (by decide), Dev.rd_wr_same]

theorem absentAccess_valid (d : Dev) (rq : Requester) (addr : Nat) :
    (absentAccess d rq addr).flag F.pwrAbsLog_valid = true := by
  simp only [absentAccess, Dev.flag_eq, Dev.emit_rd, Dev.addSat_eq]
  rw [Dev.rd_wr_ne _ _ _ _ _ _ _ _ (by decide), ← Dev.flag_eq, Dev.flag_setFlag _ _ _ _ _ (by decide)]

theorem absentAccess_count (d : Dev) (rq : Requester) (addr : Nat) :
    (absentAccess d rq addr).rd F.pwrAbsLog_count =
      satTo F.pwrAbsLog_count.w (d.rd F.pwrAbsLog_count + 1) := by
  simp only [absentAccess, Dev.emit_rd, Dev.rd_addSat_same, Dev.setFlag_eq]
  rw [Dev.rd_wr_ne _ _ _ _ _ _ _ _ (by decide), Dev.rd_wr_ne _ _ _ _ _ _ _ _ (by decide)]

theorem keepsRegs_absentAccess (d : Dev) (rq : Requester) (addr : Nat) :
    KeepsRegs [F.pwrAbsLog_addr.id, F.pwrAbsLog_valid.id, F.pwrAbsLog_count.id] d (absentAccess d rq addr) :=
  (((keepsRegs_wr d _ _ _ _ (by simp)).trans (keepsRegs_wr _ _ _ _ _ (by simp))).trans
    (keepsRegs_wr _ _ _ _ _ (by simp))).trans (KeepsRegs.of_regs rfl)

/-! ### The obligation -/

theorem gives_registerWrite {rq : Requester} {addr : Nat} {acc : Access} {s : State} {d : Dev}
    (h : busAccess rq addr acc s.dev s.mem = (d, s.mem)) : Gives (.registerWrite rq addr acc) s d := by
  simp only [Gives, exec, execRegisterWrite, liftMem, h]

/-- Settles O6: the access comes to `absentAccess`, which writes the three fields of PWR_ABS_LOG and answers. -/
theorem absentBlockAccess : Obligations.AbsentBlockAccess := by
  unfold Obligations.AbsentBlockAccess
  intro s rq addr off acc a hstalled hheld hcool harea habsent hbar2 hdbg
  have hbus := busAccess_of_absent s.mem hstalled hheld hcool harea habsent hbar2 hdbg
  exact ⟨absentAccess s.dev rq (busAddr rq addr), gives_registerWrite hbus, absentAccess_eq_answer .., absentAccess_addr ..,
    absentAccess_valid .., absentAccess_count .., keepsRegs_absentAccess _ _ _⟩

end Sys2Proof.Machine
end

section
/-! PROOF. Steps 1 and 2 of an orderly stop (R94) leave the security state as it is: one lemma for each operation they are made of. -/
namespace Sys2Proof.Machine

/-! ### Derived updates -/

@[simp] theorem Dev.sub_sec (d : Dev) (f : Fld) (n i j : Nat) : (d.sub f n i j).sec = d.sec := rfl

/-- An operation that keeps the security state at each entry of a list keeps it over the list. -/
@[simp] theorem forEach_sec {α : Type} (l : List α) (d : Dev) (g : Dev → α → Dev) (h : ∀ e x, (g e x).sec = e.sec) :
    (forEach l d g).sec = d.sec := by
  unfold forEach
  induction l generalizing d with
  | nil => rfl
  | cons x t ih => exact (ih (g d x)).trans (h d x)

theorem ite_sec {p : Prop} [Decidable p] {d e g : Dev} (he : e.sec = d.sec) (hg : g.sec = d.sec) :
    (if p then e else g).sec = d.sec := by split <;> assumption

/-! ### The Report Card -/

@[simp] theorem programSlot_sec (d : Dev) (area slot : Nat) (b : List Byte) : (programSlot d area slot b).sec = d.sec :=
  ite_sec rfl rfl

@[simp] theorem writeCheckpoint_sec (d : Dev) : (writeCheckpoint d).sec = d.sec := programSlot_sec ..

@[simp] theorem writeEpoch_sec (d : Dev) (a : Acc) (endS : Nat) : (writeEpoch d a endS).sec = d.sec :=
  ite_sec (programSlot_sec ..) (programSlot_sec ..)

@[simp] theorem closeEpoch_sec (d : Dev) (late : Bool) : (closeEpoch d late).sec = d.sec := writeEpoch_sec ..

@[simp] theorem thawCard_sec (d : Dev) (auto : Bool) : (thawCard d auto).sec = d.sec := by
  simp only [thawCard]
  split
  · rfl
  · rw [ite_sec (writeCheckpoint_sec _) rfl, ite_sec (by simp) rfl]
    exact ite_sec rfl rfl

@[simp] theorem stopCheckpoint_sec (d : Dev) : (stopCheckpoint d).sec = d.sec := by
  simp [stopCheckpoint]

@[simp] theorem cardCount_sec (d : Dev) (i n : Nat) : (cardCount d i n).sec = d.sec := ite_sec rfl rfl

/-! ### Power, loopbacks and calibrations -/

@[simp] theorem setDom_sec (d : Dev) (k v : Nat) : (setDom d k v).sec = d.sec := ite_sec rfl rfl

@[simp] theorem wakeCs2_sec (d : Dev) : (wakeCs2 d).sec = d.sec :=
  ite_sec (forEach_sec _ _ _ fun _ _ => setDom_sec ..) rfl

@[simp] theorem syncPhase_sec (d : Dev) : (syncPhase d).sec = d.sec := ite_sec rfl (ite_sec rfl rfl)

@[simp] theorem endLoops_sec (d : Dev) : (endLoops d).sec = d.sec :=
  (syncPhase_sec _).trans (forEach_sec _ _ _ fun _ _ => rfl)

@[simp] theorem cancelCals_sec (d : Dev) : (cancelCals d).sec = d.sec := forEach_sec _ _ _ fun _ _ => rfl

/-! ### Links and frames -/

@[simp] theorem hostLinkDown_sec (d : Dev) (h : Nat) : (hostLinkDown d h).sec = d.sec := ite_sec rfl rfl

@[simp] theorem flitDue_sec (d : Dev) (p : Nat) : (flitDue d p).sec = d.sec := ite_sec rfl rfl

@[simp] theorem freeRx_sec (d : Dev) (arrival : Option Nat) (cls len : Nat) : (freeRx d arrival cls len).sec = d.sec := by
  cases arrival with
  | none => rfl
  | some p => exact flitDue_sec ..

@[simp] theorem portDown_sec (d : Dev) (p cause : Nat) : (portDown d p cause).sec = d.sec := by
  simp [portDown, flushPort]

@[simp] theorem linksDown_sec (d : Dev) (cause : Nat) : (linksDown d cause).sec = d.sec := by
  simp [linksDown]

@[simp] theorem sendOn_sec (d : Dev) (p : Nat) (f : Frame) (arrival : Option Nat) : (sendOn d p f arrival).sec = d.sec := by
  simp [sendOn, sendAs, apply_ite Dev.sec]

@[simp] theorem putOn_sec (d : Dev) (p : Nat) (tf : TxFrame) : (putOn d p tf).sec = d.sec :=
  ite_sec (by simp) rfl

@[simp] theorem originate_sec (d : Dev) (f : Frame) : (originate d f).sec = d.sec := by
  unfold originate
  split
  · exact putOn_sec ..
  · exact ite_sec rfl rfl
  · exact ite_sec rfl rfl

/-! ### Commands in flight -/

@[simp] theorem cancelRemote_sec (d : Dev) (id : Nat) : (cancelRemote d id).sec = d.sec := by
  unfold cancelRemote
  split
  · rfl
  · exact originate_sec ..

@[simp] theorem syncWork_sec (d : Dev) : (syncWork d).sec = d.sec := rfl

@[simp] theorem dropWork_sec (d : Dev) (id : Nat) : (dropWork d id).sec = d.sec := cancelRemote_sec ..

@[simp] theorem leaveTable_sec (d : Dev) (x : Ctx) : (leaveTable d x).sec = d.sec :=
  ite_sec (forEach_sec _ _ _ fun _ _ => rfl) rfl

@[simp] theorem discardCtx_sec (d : Dev) (id : Nat) : (discardCtx d id).sec = d.sec := by
  unfold discardCtx
  split <;> simp

@[simp] theorem restoreCell_sec (d : Dev) (nsid : Nat) (c : BufCell) : (restoreCell d nsid c).sec = d.sec := by
  unfold restoreCell
  split
  · rfl
  · exact ite_sec rfl rfl

@[simp] theorem discardData_sec (d : Dev) (wid : Nat) : (discardData d wid).sec = d.sec := by
  simp [discardData, rearmReads]

@[simp] theorem setPtr_sec (d : Dev) (nsid zi wp : Nat) : (setPtr d nsid zi wp).sec = d.sec := by
  unfold setPtr
  split <;> rfl

@[simp] theorem syncHost_sec (d : Dev) : (syncHost d).sec = d.sec := by
  unfold syncHost
  refine (forEach_sec _ _ _ ?hdas).trans (forEach_sec _ _ _ ?ports)
  case hdas => exact fun _ _ => rfl
  case ports => exact fun _ _ => rfl

@[simp] theorem dropInFlight_sec (d : Dev) : (dropInFlight d).sec = d.sec := by
  unfold dropInFlight
  refine (forEach_sec _ _ _ ?ports).trans ((syncHost_sec _).trans ((forEach_sec _ _ _ discardCtx_sec).trans
    (forEach_sec _ _ _ ?writers)))
  case ports => exact fun _ _ => rfl
  case writers =>
    intro e id
    split
    · split
      · exact ite_sec (by simp) rfl
      · rfl
    · rfl

/-! ### Sequencers and channels -/

@[simp] theorem flyUpdate_sec (d : Dev) (c : Nat) : (flyUpdate d c).sec = d.sec :=
  ite_sec rfl (ite_sec rfl (ite_sec rfl rfl))

@[simp] theorem endWrite_sec (d : Dev) (c : Nat) : (endWrite d c).sec = d.sec := by
  unfold endWrite
  split
  · exact ite_sec (flyUpdate_sec ..) rfl
  · exact ite_sec (flyUpdate_sec ..) rfl

@[simp] theorem closeWrite_sec (d : Dev) (c : Nat) : (closeWrite d c).sec = d.sec :=
  ite_sec rfl (by simp)

@[simp] theorem closePermit_sec (d : Dev) (a : Nat) : (closePermit d a).sec = d.sec := by
  simp [closePermit]

@[simp] theorem dropEntry_sec (d : Dev) (c : Nat) (e : SectorEntry) (acked : Bool) : (dropEntry d c e acked).sec = d.sec :=
  ite_sec rfl (ite_sec rfl rfl)

@[simp] theorem shutRead_sec (d : Dev) (c : Nat) : (shutRead d c).sec = d.sec := ite_sec rfl rfl

@[simp] theorem syncChn_sec (d : Dev) (c : Nat) : (syncChn d c).sec = d.sec := ite_sec rfl rfl

@[simp] theorem seqStop_sec (d : Dev) (a cause status : Nat) : (seqStop d a cause status).sec = d.sec := by
  simp [seqStop, apply_ite Dev.sec]

@[simp] theorem dropTasks_sec (d : Dev) : (dropTasks d).sec = d.sec := by
  simp [dropTasks, abortAll, apply_ite Dev.sec]

/-! ### The stop -/

@[simp] theorem dropActivation_sec (d : Dev) : (dropActivation d).sec = d.sec := rfl

/-- Beginning a stop leaves the fuses, the pending transition and the debug session as they are. -/
@[simp] theorem beginStop_sec (d : Dev) (thermal : Bool) (pm : Option Nat) : (beginStop d thermal pm).sec = d.sec := by
  simp [beginStop, stopFetch]

end Sys2Proof.Machine
end

section
/-! PROOF. The life cycle (R388, R390): the decoding of the burned bits, what SEC_LC reports, and decommissioning. -/
namespace Sys2Proof.Machine

/-! ### The decoding of R388 -/

theorem lcStateOf_of_le_two {c : Nat} (h : c ≤ 2) : lcStateOf c = c := if_pos h

theorem lcStateOf_mission_or_rma {c : Nat} (h3 : 3 ≤ c) (h19 : c ≤ 19) : lcStateOf c = if c % 2 = 1 then 3 else 4 := by
  rw [lcStateOf, if_neg (by omega), if_pos (by omega)]

theorem lcStateOf_decommissioned {c : Nat} (h : 20 ≤ c) : lcStateOf c = 5 := by
  rw [lcStateOf, if_neg (by omega), if_neg (by omega)]

theorem lcStateOf_lt_eight (c : Nat) : lcStateOf c < 8 := by
  unfold lcStateOf
  split_ifs <;> omega

/-- Eight entries of RMA remain up to the first MISSION (c = 3), and then one for each even count that is left below 19. -/
theorem rmaLeft_eq (c : Nat) : rmaLeft c = min 8 ((19 - c) / 2) := by
  by_cases hc : c < 19
  · have table : ∀ c < 19, rmaLeft c = min 8 ((19 - c) / 2) := by decide
    exact table c hc
  · have hnone : ((List.range 19).filter fun e => decide (4 ≤ e ∧ c < e) && e % 2 == 0) = [] := by
      rw [List.filter_eq_nil_iff]
      intro e he
      have : ¬ c < e := by have := List.mem_range.1 he; omega
      simp [this]
    rw [rmaLeft, hnone, List.length_nil]
    omega

theorem rmaLeft_le_eight (c : Nat) : rmaLeft c ≤ 8 := rmaLeft_eq c ▸ Nat.min_le_left ..

/-- Each count of RMA (4, 6 … 18) that is reached takes one of the entries. -/
theorem rmaLeft_succ (c : Nat) :
    rmaLeft (c + 1) = if c + 1 ≤ 18 ∧ 4 ≤ c + 1 ∧ (c + 1) % 2 = 0 then rmaLeft c - 1 else rmaLeft c := by
  rw [rmaLeft_eq, rmaLeft_eq]
  split <;> omega

/-! ### What SEC_LC reports -/

/-- Past its writes of the count and the state, `syncLevel` writes other fields. -/
theorem keepsRegs_syncLevel (d : Dev) :
    KeepsRegs [F.secLc_rma_left.id, F.secLc_ceiling.id, F.secLc_bek1.id, F.secLc_pending.id, F.secDbg_level.id, F.secDbg_flags.id,
        F.secDbg_cycles.id, F.secDbg_signer.id, F.secDbg_withheld.id, F.dbgStat_jtag_level.id, F.dbgStat_halted.id,
        F.dbgStat_scan.id, F.dbgStat_bar2_set.id]
      ((d.wr F.secLc_count d.sec.otp.lcCount).wr F.secLc_state (lcStateOf d.sec.otp.lcCount)) (syncLevel d) := by
  have jtagOff (e : Dev) : KeepsRegs [F.dbgStat_halted.id, F.dbgStat_scan.id] e
      (if e.rd F.dbgStat_jtag_level < 2 then (e.wr F.dbgStat_halted 0).setFlag F.dbgStat_scan false else e) :=
    keepsRegs_ite ((keepsRegs_wr _ _ _ _ _ (by simp)).trans (keepsRegs_wr _ _ _ _ _ (by simp))) .rfl'
  simp only [syncLevel, Dev.setFlag_eq]
  refine KeepsRegs.trans (KeepsRegs.trans ?_ ((jtagOff _).mono (by simp))) (keepsRegs_wr _ _ _ _ _ (by simp))
  iterate 10 refine KeepsRegs.trans ?_ (keepsRegs_wr _ _ _ _ _ (by simp))
  exact .rfl'

theorem syncLevel_count {d : Dev} (h : d.sec.otp.lcCount ≤ 32) : (syncLevel d).rd F.secLc_count = d.sec.otp.lcCount := by
  rw [(keepsRegs_syncLevel d).eq (by decide), Dev.rd_wr_ne _ _ _ _ _ _ _ _ (by decide), Dev.rd_wr_lt]
  exact Nat.lt_of_le_of_lt h (by decide)

theorem syncLevel_state (d : Dev) : (syncLevel d).rd F.secLc_state = lcStateOf d.sec.otp.lcCount := by
  rw [(keepsRegs_syncLevel d).eq (by decide), Dev.rd_wr_lt _ _ _ _ _ (lcStateOf_lt_eight _)]

@[simp] theorem syncLevel_sec (d : Dev) : (syncLevel d).sec = d.sec := by
  simp [syncLevel, apply_ite Dev.sec]

/-! ### Decommissioning -/

/-- Decommissioning (kind 4) burns every bit (R388). -/
theorem burnTransition_lcCount {w : LcWork} (h : w.kind = 4) (d : Dev) : (burnTransition d w).sec.otp.lcCount = 32 := by
  simp [burnTransition, h, Dev.updOtp]

@[simp] theorem eraseNor_otp (d : Dev) (decom : Bool) : (eraseNor d decom).sec.otp = d.sec.otp := by
  cases decom <;> rfl

/-- Nothing after the burn changes a fuse. -/
theorem burnAndReset_otp (w : LcWork) (d : Dev) : (burnAndReset w d).sec.otp = (burnTransition d w).sec.otp := by
  simp [burnAndReset]

theorem burnAndReset_state (w : LcWork) (d : Dev) :
    (burnAndReset w d).rd F.secLc_state = lcStateOf (burnAndReset w d).sec.otp.lcCount := by
  simp only [burnAndReset, syncLevel_state, syncLevel_sec]

theorem gives_lifeCycleBurn {s : State} {w : LcWork} (hwork : s.dev.sec.work = some w) (herased : w.erasing = false) :
    Gives .lifeCycleBurn s (burnAndReset w s.dev) := by
  simp [Gives, exec, execLifeCycleBurn, hwork, herased]

/-- Settles O7: the decoding by its cases, SEC_LC by what `syncLevel` writes last, decommissioning by the burn, which nothing after
it undoes. -/
theorem lifeCycleDecoding : Obligations.LifeCycleDecoding := by
  unfold Obligations.LifeCycleDecoding
  refine ⟨lcStateOf_of_le_two (by decide), lcStateOf_of_le_two (by decide), lcStateOf_of_le_two (by decide),
    fun c => lcStateOf_mission_or_rma, fun c => lcStateOf_decommissioned, fun d hd => ⟨syncLevel_state d, syncLevel_count hd⟩,
    fun c => ⟨rmaLeft_le_eight c, rmaLeft_succ c⟩, ?decommission⟩
  intro s w hwork herased hkind
  have hburned : (burnAndReset w s.dev).sec.otp.lcCount = 32 := by rw [burnAndReset_otp, burnTransition_lcCount hkind]
  have hstate : (burnAndReset w s.dev).rd F.secLc_state = 5 := by
    rw [burnAndReset_state, hburned, lcStateOf_decommissioned (by decide)]
  exact ⟨_, gives_lifeCycleBurn hwork herased, hburned, hstate⟩

end Sys2Proof.Machine
end

section
/-! PROOF. The Ocgoern mailbox (R447): where it lies, how a closed place refuses BAR2 and DBG, and what it answers a core. -/
namespace Sys2Proof.Machine

/-! ### Where the mailbox lies -/

theorem areaOf_sec {off : Nat} (h : off < 0x1000) : areaOf (0x40000 + off) = some (.block .sec 0 0, off) := by
  have hpage : (0x40000 + off) / 0x10000 = 4 := by omega
  have hoff : (0x40000 + off) % 0x10000 = off := by omega
  simp [areaOf, hpage, hoff]

theorem placeOf_mailbox {n u off : Nat} (hlo : 0x100 ≤ off) (hhi : off < 0x1000) : placeOf (.block .sec n u) off = .mailbox := by
  simp [placeOf, hlo, hhi]

/-- An address of the first 64 MiB is the same for every requester. -/
theorem busAddr_eq_self (rq : Requester) {addr : Nat} (h : addr < 2 ^ 26) : busAddr rq addr = addr := by
  unfold busAddr
  split
  · exact Nat.mod_eq_of_lt h
  · exact Nat.mod_eq_of_lt (h.trans (by decide))

/-- The mailbox is in no macro, so no remap holds an access to it back. -/
@[simp] theorem remapStalls_mailbox (d : Dev) : remapStalls d .mailbox = false := by
  unfold remapStalls
  split <;> rfl

/-! ### The first check that fails answers the access (log 20) -/

theorem bar2Allows_of_closed {a : Area} {off : Nat} (set : Nat) (isWrite : Bool) (h : closedPlace a off = true) :
    bar2Allows set a off isWrite = false := by
  simp [bar2Allows, h]

/-- Below the level that provides its access, DBG does nothing (R448). -/
theorem busAccess_of_not_provided {addr : Nat} {acc : Access} {d : Dev} (m : List Host.Cell)
    (hstalled : (d.power.stalled.any fun x => mayPerform d x.2.1) = false) (h : dbgProvides d acc = false) :
    busAccess .dbg addr acc d m = (d, m) := by
  simp [busAccess, releaseReady_of_none_ready m hstalled, isDbg, h]

section
variable {addr off : Nat} {acc : Access} {a : Area} {d : Dev} (m : List Host.Cell)
  (hstalled : (d.power.stalled.any fun x => mayPerform d x.2.1) = false)
  (hheld : d.reset.held = false) (hcool : d.reset.waitCool = false)
include hstalled hheld hcool

/-- No set lets BAR2 reach a closed place: set 0 refuses every address, each other set this one (R399, R447). -/
theorem busAccess_of_bar2_closed (h : HstId) (harea : areaOf (busAddr (.bar2 h) addr) = some (a, off))
    (hclosed : closedPlace a off = true) :
    busAccess (.bar2 h) addr acc d m = (bar2Refused d (.bar2 h) (busAddr (.bar2 h) addr) (accIsWrite acc), m) := by
  by_cases hset : d.rd F.dbgStat_bar2_set = 0
  · simp [busAccess, releaseReady_of_none_ready m hstalled, hheld, hcool, isDbg, isBar2, hset]
  · simp [busAccess, releaseReady_of_none_ready m hstalled, hheld, hcool, isDbg, isBar2, hset, harea,
      bar2Allows_of_closed _ _ hclosed]

/-- A closed place answers DBG with the bus error of cause 5, whatever its domain does (R447, R448). -/
theorem busAccess_of_dbg_closed (hprovides : dbgProvides d acc = true) (harea : areaOf (busAddr .dbg addr) = some (a, off))
    (hclosed : closedPlace a off = true) :
    busAccess .dbg addr acc d m = (busError d .dbg (busAddr .dbg addr) (accIsWrite acc) 5, m) := by
  simp [busAccess, releaseReady_of_none_ready m hstalled, hheld, hcool, isDbg, isBar2, hprovides, harea, hclosed]

/-- No check stops a core's access of a legal size to a place of a running domain that no remap holds. -/
theorem busAccess_of_core_running (c : Fin 8) (harea : areaOf (busAddr (.core c) addr) = some (a, off))
    (hruns : domState d (areaDom a) = 0) (hsize : legalSize off (accSize acc) = true) (hplace : placeOf a off ≠ .hole)
    (hremap : remapStalls d (placeOf a off) = false) :
    busAccess (.core c) addr acc d m = perform (.core c) (busAddr (.core c) addr) off (placeOf a off) acc d m := by
  simp [busAccess, releaseReady_of_none_ready m hstalled, hheld, hcool, isDbg, isBar2, harea, hruns, hsize, hplace, hremap]

end

/-! ### What the mailbox answers -/

/-- A read of the mailbox draws a free value, the model's choice where R447 gives the contents no layout (log 21). -/
theorem perform_mailbox_rd (c : Fin 8) (addr off n : Nat) (d : Dev) (m : List Host.Cell) :
    perform (.core c) addr off .mailbox (.rd n) d m =
      ({ d with draws := d.draws + 1, out := .bus c.val true (Config.freeValue d.draws % 2 ^ (8 * n)) :: d.out }, m) := rfl

/-- A write to the mailbox has no effect of its own (log 21). -/
theorem perform_mailbox_wr (c : Fin 8) (addr off n : Nat) (data : BitVec 64) (d : Dev) (m : List Host.Cell) :
    perform (.core c) addr off .mailbox (.wr n data) d m = ({ d with out := .bus c.val true 0 :: d.out }, m) := rfl

/-! ### The obligation -/

/-- Settles O8: the mailbox lies in SEC, a closed place, so the check of BAR2's set and that of DBG's closed blocks answer before
the domain is looked at; a core's access passes every check and is performed. -/
theorem mailboxIsForCores : Obligations.MailboxIsForCores := by
  unfold Obligations.MailboxIsForCores
  intro s off acc hlo hhi hheld hcool hstalled
  have haddr (rq : Requester) : busAddr rq (0x40000 + off) = 0x40000 + off := busAddr_eq_self rq (by omega)
  have harea (rq : Requester) : areaOf (busAddr rq (0x40000 + off)) = some (.block .sec 0 0, off) := by
    rw [haddr, areaOf_sec hhi]
  have hplace : placeOf (.block .sec 0 0) off = .mailbox := placeOf_mailbox hlo hhi
  refine ⟨fun h => ?bar2, fun hprovides => ?dbg, fun hbelow => ?dbgBelow, fun c hruns hsize => ?core⟩
  case bar2 =>
    have hbus := busAccess_of_bar2_closed (acc := acc) s.mem hstalled hheld hcool h (harea _) rfl
    rw [haddr] at hbus
    exact gives_registerWrite hbus
  case dbg =>
    have hbus := busAccess_of_dbg_closed s.mem hstalled hheld hcool hprovides (harea _) rfl
    rw [haddr] at hbus
    exact gives_registerWrite hbus
  case dbgBelow => exact gives_registerWrite (busAccess_of_not_provided s.mem hstalled hbelow)
  case core =>
    have hbus := busAccess_of_core_running s.mem hstalled hheld hcool c (harea _) hruns hsize (by simp [hplace]) (by simp [hplace])
    rw [hplace, haddr] at hbus
    cases acc with
    | rd n => exact gives_registerWrite (hbus.trans (perform_mailbox_rd ..))
    | wr n data => exact gives_registerWrite (hbus.trans (perform_mailbox_wr ..))

end Sys2Proof.Machine
end

section
/-! PROOF. The step and cold reset (R9, log 8): which command runs, and what the registers read. -/
namespace Sys2Proof.Machine

/-- Settles O1: the two cases of the queue. -/
theorem stepRunsTheFrontCommand : Obligations.StepRunsTheFrontCommand := by
  unfold Obligations.StepRunsTheFrontCommand
  exact ⟨fun c s => rfl, fun s hidle => by rw [step, hidle]⟩

/-- With no field listed as changed, every register field reads its reset value. -/
theorem rd_reset (f : Fld) (i j : Nat) : State.reset.dev.rd f i j = fldReset f j := rfl

/-- The entries of O2 that the Reset column names. -/
def namedResets : List (Fld × Nat) :=
  [(F.spnBus_chop_on, 14500), (F.spnBus_chop_off, 14000), (F.spnBus_ov1, 15500), (F.spnBus_ov2, 17000),
    (F.pwrHoldCfg_hold_vset, 12000), (F.pwrHoldCfg_hold_sag, 10800), (F.pwrHs_state, 4), (F.cphCm_dummy_max, 3),
    (F.chnDecode_max_iter, 40), (F.lmlBudget_fixed_units, 40000), (F.sscRetract_retract_ms, 80), (F.pwrPs_streams, 16),
    (F.sscRamp_ramp_rate, 300), (F.glbStart_stage, 0), (F.sqrStat_state, 0), (F.pwrHoldStat_state, 0)]

theorem fldReset_namedResets : ∀ x ∈ namedResets, fldReset x.1 0 = x.2 := by decide

/-- Settles O2: nothing is listed, so each field reads its reset value and the windows are the empty table. -/
theorem resetState : Obligations.ResetState := by
  unfold Obligations.ResetState
  refine ⟨rfl, Memory.wf_nil, fun x hx i => ?named, fun _ _ f i j _ _ => rd_reset f i j⟩
  case named => exact (rd_reset x.1 i 0).trans (fldReset_namedResets x hx)

end Sys2Proof.Machine
end

section
/-! PROOF. The addressed windows: what the control plane, the wipes, the tests, the map groups, the sequencer and the servo do with
them, and that each keeps their canonical form. -/
namespace Sys2Proof.Machine

/-! ### The sequencer, the servo and the control plane -/

section
variable {m : List Host.Cell} (h : Memory.wf m)
include h

theorem Memory.wf_custEnable (a : Nat) (on : Bool) (d : Dev) : Memory.wf (custEnable a on d m).2 := h

theorem Memory.wf_storeAccess (rq : Requester) (a off : Nat) (acc : Access) (d : Dev) :
    Memory.wf (storeAccess rq a off acc d m).2 := by
  cases acc with
  | rd n => simp only [storeAccess]; split <;> exact h
  | wr n data =>
    have hcommit (w v : Nat) := Memory.wf_commitWord h a w v
    simp only [storeAccess]
    split_ifs
    exacts [h, h, h, h, hcommit _ _, h, hcommit _ _, h]

theorem Memory.wf_scratchAccess (rq : Requester) (g off : Nat) (acc : Access) (d : Dev) :
    Memory.wf (scratchAccess rq g off acc d m).2 := by
  cases acc with
  | rd n => simp only [scratchAccess]; split_ifs <;> exact h
  | wr n data =>
    simp only [scratchAccess]
    split_ifs
    exacts [h, h, Memory.wf_write h _ _ _]

theorem Memory.wf_traceAccess (rq : Requester) (u off : Nat) (acc : Access) (d : Dev) :
    Memory.wf (traceAccess rq u off acc d m).2 := by
  cases acc with
  | rd n => simp only [traceAccess]; split <;> exact h
  | wr n data => exact Memory.wf_write h _ _ _

theorem Memory.wf_writeEffect (rq : Requester) (r : Reg) (i k mask data : Nat) (d g : Dev) :
    Memory.wf (writeEffect rq r i k mask data d g m).2 := by
  unfold writeEffect
  dsimp only
  split
  · exact h
  · exact h

theorem Memory.wf_regAccess (rq : Requester) (r : Reg) (i k off : Nat) (acc : Access) (d : Dev) :
    Memory.wf (regAccess rq r i k off acc d m).2 := by
  cases acc with
  | rd n => exact h
  | wr n data => exact Memory.wf_writeEffect h _ _ _ _ _ _ _ _

theorem Memory.wf_perform (rq : Requester) (addr off : Nat) (p : Place) (acc : Access) (d : Dev) :
    Memory.wf (perform rq addr off p acc d m).2 := by
  cases p with
  | reg r i k => exact Memory.wf_regAccess h ..
  | reserved => exact h
  | mailbox => cases acc <;> exact h
  | coef =>
    cases acc with
    | rd n => exact h
    | wr n data => exact Memory.wf_write h _ _ _
  | scratch g => exact Memory.wf_scratchAccess h ..
  | store a => exact Memory.wf_storeAccess h ..
  | trace u => exact Memory.wf_traceAccess h ..
  | hole => exact h

/-- A stalled access that is let through does what it would have done at once. -/
theorem Memory.wf_releaseAccess (x : Requester × Nat × Access) (d : Dev) : Memory.wf (releaseAccess (d, m) x).2 := by
  unfold releaseAccess
  split
  · exact Memory.wf_perform h ..
  · exact h

theorem Memory.wf_releaseReady (d : Dev) : Memory.wf (releaseReady d m).2 := by
  have hall (l : List (Requester × Nat × Access)) (e : Dev × List Host.Cell) (he : Memory.wf e.2) :
      Memory.wf (forEach l e releaseAccess).2 := by
    unfold forEach
    induction l generalizing e with
    | nil => exact he
    | cons x l ih => exact ih _ (Memory.wf_releaseAccess he x e.1)
  exact hall _ _ h

theorem Memory.wf_busAccess (rq : Requester) (addr : Nat) (acc : Access) (d : Dev) :
    Memory.wf (busAccess rq addr acc d m).2 := by
  have hready := Memory.wf_releaseReady h d
  simp only [busAccess]
  split_ifs
  · exact hready
  · exact hready
  · split
    · exact hready
    · split_ifs
      exacts [hready, hready, hready, hready, hready, hready, hready, Memory.wf_perform hready ..]

theorem Memory.wf_implicitWake (dom : Nat) (d : Dev) : Memory.wf (implicitWake dom d m).2 := by
  unfold implicitWake
  split
  · exact h
  · exact Memory.wf_releaseReady h _

theorem Memory.wf_domainWake (dom : Nat) (d : Dev) : Memory.wf (domainWake dom d m).2 := by
  unfold domainWake
  split
  · exact Memory.wf_releaseReady h _
  · exact h

theorem Memory.wf_dbgAccess (op : JtagOp) (d : Dev) : Memory.wf (dbgAccess op d m).2 := by
  cases op with
  | ctrl addr acc =>
    simp only [dbgAccess]
    split
    · exact Memory.wf_busAccess h ..
    · exact h
  | _ => exact h

/-- A trace sample of a unit writes 32 nodes, or none. -/
theorem Memory.wf_captureUnit (d : Dev) (n u : Nat) (exceeds differs : Bool) :
    Memory.wf (captureUnit d m n u exceeds differs).2 := by
  have hnodes (l : List Nat) (addr : Nat → Nat) (g : Dev → Nat → Nat × Dev) (e : Dev × List Host.Cell) (he : Memory.wf e.2) :
      Memory.wf (l.foldl (fun e c => ((g e.1 c).2, memWrite e.2 (addr c) (g e.1 c).1 4)) e).2 := by
    induction l generalizing e with
    | nil => exact he
    | cons c l ih => exact ih _ (Memory.wf_write he _ _ _)
  unfold captureUnit
  extract_lets i k done x w r
  have hr : Memory.wf r.2 :=
    hnodes (List.range 32) _ (fun e c => traceValue e n (e.rd F.sscTraceSel_node i c) differs) (d, m) h
  split
  · exact h
  · exact hr

theorem Memory.wf_outputInstant (n l : Nat) (doneA doneB : Bool) (diffVcm diffMa cycles : Nat) (d : Dev) :
    Memory.wf (outputInstant n l doneA doneB diffVcm diffMa cycles d m).2 := by
  unfold outputInstant
  extract_lets
  split
  · exact Memory.wf_captureUnit (Memory.wf_captureUnit h ..) ..
  · exact h

/-! ### Wipes, tests, map groups and the restructure -/

theorem Memory.wf_mbistDone (failRows : List (Nat × Nat)) (d : Dev) : Memory.wf (mbistDone failRows d m).2 := by
  unfold mbistDone
  split
  · exact h
  · exact Memory.wf_foldl h fun m mac hm => Memory.wf_wipeWindow hm mac

theorem Memory.wf_wipesEnded (d : Dev) : Memory.wf (wipesEnded d m).2 := by
  unfold wipesEnded
  split_ifs <;> exact h

theorem Memory.wf_sramWipeDone (d : Dev) : Memory.wf (sramWipeDone d m).2 := by
  simp only [sramWipeDone]
  split_ifs
  · exact h
  · exact Memory.wf_loadStores Memory.wf_nil _
  · exact Memory.wf_wipesEnded Memory.wf_nil _

theorem Memory.wf_dramWipeDone (ms : Nat) (d : Dev) : Memory.wf (dramWipeDone ms d m).2 := by
  unfold dramWipeDone
  extract_lets
  split_ifs
  exacts [h, Memory.wf_loadStores h _, Memory.wf_wipesEnded h _]

theorem Memory.wf_saRestructure (d : Dev) : Memory.wf (saRestructure d m).2 := by
  unfold saRestructure
  split
  · exact h
  · extract_lets
    dsimp only
    exact Memory.wf_loadStores h _

theorem Memory.wf_groupDone (g : Nat) (d : Dev) : Memory.wf (groupDone g d m).2 := by
  simp only [groupDone]
  split
  · exact h
  · split
    · exact h
    · exact Memory.wf_zero h _ _

end

/-! ### Every command -/

/-- Settles O3: each meaning is an effect on the device, or for those listed on both device and windows, whatever the state. -/
theorem everyCommandCompletes : Obligations.EveryCommandCompletes := by
  unfold Obligations.EveryCommandCompletes
  intro c s
  cases c with
  | registerWrite | implicitAccessWake | dbgAccess | scratchAccess | controlStoreWrite | domainWake | remapDone | sramWipeDone
  | dramWipeDone | mbistDone | activateRestructure | mapGroupTransitionDone | scratchAccessDone | sqrCustEn
  | servoOutputInstant => exact ⟨_, _, rfl, fun _ => trivial⟩
  | _ => exact ⟨_, s.mem, rfl, fun hm => absurd rfl hm⟩

/-- An effect on device and windows leaves the canonical form where its windows have it. -/
theorem inv_of_liftMem {s t : State} {g : Dev → List Host.Cell → Dev × List Host.Cell} (ht : liftMem s g = .next t)
    (hg : Memory.wf (g s.dev s.mem).2) : t.inv := by
  obtain rfl := Host.Outcome.next.inj ht
  exact hg

theorem inv_of_scratchAccessDone {a : ActId} {poison : Bool} {s t : State} (h : s.inv)
    (ht : execScratchAccessDone a poison s = .next t) : t.inv := by
  refine inv_of_liftMem ht ?_
  dsimp only
  split
  · split_ifs
    exacts [Memory.wf_write h _ _ _, h, h]
  · exact h

/-- Every command keeps the canonical form: those of O3's list by the lemma of their meaning, the others since they leave the
windows. -/
theorem inv_of_exec {c : Instr} {s t : State} (h : s.inv) (ht : exec c s = .next t) : t.inv := by
  obtain ⟨d, m, hnext, hreach⟩ := everyCommandCompletes c s
  obtain rfl := Host.Outcome.next.inj (hnext.symm.trans ht)
  by_cases hm : m = s.mem
  · rw [hm]; exact h
  · have hlisted := hreach hm
    cases c with
    | registerWrite => exact inv_of_liftMem ht (Memory.wf_busAccess h ..)
    | implicitAccessWake => exact inv_of_liftMem ht (Memory.wf_implicitWake h ..)
    | dbgAccess => exact inv_of_liftMem ht (Memory.wf_dbgAccess h ..)
    | scratchAccess => exact inv_of_liftMem ht (Memory.wf_scratchAccess h ..)
    | controlStoreWrite => exact inv_of_liftMem ht (Memory.wf_storeAccess h ..)
    | domainWake => exact inv_of_liftMem ht (Memory.wf_domainWake h ..)
    | remapDone => exact inv_of_liftMem (g := fun d m => releaseReady (Machine.remapDone d) m) ht (Memory.wf_releaseReady h ..)
    | sramWipeDone => exact inv_of_liftMem ht (Memory.wf_sramWipeDone h ..)
    | dramWipeDone => exact inv_of_liftMem ht (Memory.wf_dramWipeDone h ..)
    | mbistDone => exact inv_of_liftMem ht (Memory.wf_mbistDone h ..)
    | activateRestructure => exact inv_of_liftMem ht (Memory.wf_saRestructure h ..)
    | mapGroupTransitionDone => exact inv_of_liftMem ht (Memory.wf_groupDone h ..)
    | scratchAccessDone => exact inv_of_scratchAccessDone h ht
    | sqrCustEn => exact inv_of_liftMem ht (Memory.wf_custEnable h ..)
    | servoOutputInstant => exact inv_of_liftMem ht (Memory.wf_outputInstant h ..)
    | _ => exact hlisted.elim

/-- Settles O4: the front command keeps the canonical form, and an idle step changes nothing. -/
theorem stepKeepsWindowsCanonical : Obligations.StepKeepsWindowsCanonical := by
  unfold Obligations.StepKeepsWindowsCanonical
  intro s t h ht
  unfold step at ht
  split at ht
  · obtain rfl := Host.Outcome.next.inj ht
    exact h
  · next c rest _ => exact inv_of_exec (s := { s with pending := rest }) h ht

end Sys2Proof.Machine
end

section
/-! PROOF. Bytes of the windows (R6): what a store of several bytes leaves, what is read back, and what a wipe leaves. -/
namespace Sys2Proof.Machine

/-- `n` bytes written upward from `a` are those of the number, lowest first. -/
theorem memByte_memWrite (m : List Host.Cell) (a v n x : Nat) :
    memByte (memWrite m a v n) x = if a ≤ x ∧ x < a + n then BitVec.ofNat 8 (v / 256 ^ (x - a)) else memByte m x := by
  induction n generalizing m a v with
  | zero => rw [memWrite_zero, if_neg (by omega)]
  | succ n ih =>
    rw [memWrite_succ, ih]
    by_cases hin : a + 1 ≤ x ∧ x < a + 1 + n
    · have hpow : 256 * 256 ^ (x - (a + 1)) = 256 ^ (x - a) := by
        rw [← Nat.pow_succ', show (x - (a + 1)).succ = x - a by omega]
      rw [if_pos hin, if_pos (by omega), Nat.div_div_eq_div_mul, hpow]
    · rw [if_neg hin]
      by_cases hx : x = a
      · subst hx
        rw [memByte_memPut_self, if_pos (by omega), Nat.sub_self, Nat.pow_zero, Nat.div_one]
      · rw [memByte_memPut_ne _ _ _ _ hx, if_neg (by omega)]

/-- What was written is read back. -/
theorem memRead_memWrite (m : List Host.Cell) (a v n : Nat) : memRead (memWrite m a v n) a n = v % 256 ^ n := by
  induction n generalizing m a v with
  | zero => rw [memRead_zero, Nat.pow_zero, Nat.mod_one]
  | succ n ih =>
    rw [memRead_succ, memByte_memWrite, if_pos (by omega), memWrite_succ, ih, Nat.sub_self, Nat.pow_zero, Nat.div_one,
      BitVec.toNat_ofNat, Nat.pow_succ' (m := 256), Nat.mod_mul]

/-- A table without the keys of a set reads there as unlisted, and elsewhere as before. -/
theorem tabGet_filter_key {α : Type} (dflt : α) (p : Nat → Bool) (t : List (Nat × α)) (q : Nat) :
    tabGet dflt (t.filter fun c => p c.1) q = if p q then tabGet dflt t q else dflt := by
  induction t with
  | nil => simp [tabGet]
  | cons c t ih =>
    obtain ⟨k, v⟩ := c
    by_cases hk : k = q
    · subst hk
      by_cases hp : p k <;> simp [hp, tabGet, ih]
    · by_cases hp : p k <;> simp [hp, hk, tabGet, ih]

/-- Wiped bytes read as unlisted ones. -/
theorem memByte_memZero (m : List Host.Cell) (a n x : Nat) :
    memByte (memZero m a n) x = if a ≤ x ∧ x < a + n then memDefault x else memByte m x := by
  have hkeep := tabGet_filter_key (memDefault x) (fun k => !(decide (a ≤ k) && decide (k < a + n))) m x
  rw [memByte, memZero, hkeep]
  by_cases hx : a ≤ x ∧ x < a + n <;> simp [hx, memByte]

/-- A scratch write that is refused stores nothing, one that is not stores its bytes. -/
theorem scratchAccess_wr_mem (rq : Requester) (g off n : Nat) (data : BitVec 64) (d : Dev) (m : List Host.Cell) :
    (scratchAccess rq g off (.wr n data) d m).2 = m ∨
      (scratchAccess rq g off (.wr n data) d m).2 = memWrite m (scratchBase g + off) data.toNat n := by
  simp only [scratchAccess]
  split_ifs
  exacts [.inl rfl, .inl rfl, .inr rfl]

/-- Settles O5: the four clauses, the last by the two ends of a scratch write. -/
theorem storedBytes : Obligations.StoredBytes := by
  unfold Obligations.StoredBytes
  refine ⟨memByte_memWrite, memRead_memWrite, memByte_memZero, ?scratch⟩
  case scratch =>
    intro c g off n data s t x hoff ht hx
    have hmem : t.mem = (scratchAccess (.core c) g.val (off % 0x8000) (.wr n data) s.dev s.mem).2 := by
      obtain rfl := Host.Outcome.next.inj ht
      rfl
    rw [Nat.mod_eq_of_lt hoff] at hmem
    obtain hsame | hstored := scratchAccess_wr_mem (.core c) g.val off n data s.dev s.mem
    · rw [hmem, hsame]
    · rw [hmem, hstored, memByte_memWrite, if_neg hx]

end Sys2Proof.Machine
end

section
/-! PROOF. Field types (R8): what a write under a mask leaves of each field of a register and of the others. -/
namespace Sys2Proof.Machine

/-- The value that a write of a sub-field under a mask leaves (R8), of entry `k` of its register. -/
def fieldNext (f : Fld) (k old fm dv : Nat) : Nat :=
  if fm = 0 then old
  else match f.ty with
    | .ro | .rws | .wo => old
    | .rw1c => (old ^^^ (old &&& (dv &&& fm))) % 2 ^ f.w
    | .rw => if accepts f (mergeBits old dv fm) then stored f (mergeBits old dv fm) % 2 ^ f.w else old
    | .k2 => if k = 2 then mergeBits old dv fm % 2 ^ f.w else old

/-- A sub-field is written with `fieldNext` of what it was. -/
theorem rd_fieldWrite_same (d : Dev) (i k : Nat) (f : Fld) (m mask data : Nat) :
    (fieldWrite d i k f m mask data).rd f i (k * f.nsub + m) =
      fieldNext f k (d.rd f i (k * f.nsub + m)) (fieldBits mask f m) (fieldBits data f m) := by
  by_cases hm : fieldBits mask f m = 0
  · simp [fieldWrite, fieldNext, hm]
  · cases hty : f.ty <;> simp only [fieldWrite, fieldNext, hm, hty, if_false]
    case rw1c => exact Dev.rd_wr_same ..
    case rw => split <;> simp
    case k2 => split <;> simp

/-- Another field, or another entry of the same one, reads as before. -/
theorem rd_fieldWrite_ne (d : Dev) (i k : Nat) (f : Fld) (m mask data : Nat) (g : Fld) (i' j : Nat)
    (h : fldKey g i' j ≠ fldKey f i (k * f.nsub + m)) : (fieldWrite d i k f m mask data).rd g i' j = d.rd g i' j := by
  have hwr (v : Nat) : (d.wr f v i (k * f.nsub + m)).rd g i' j = d.rd g i' j := tabGet_tabPut_ne _ _ _ _ _ _ h
  by_cases hm : fieldBits mask f m = 0
  · simp [fieldWrite, hm]
  · cases hty : f.ty <;> simp only [fieldWrite, hm, hty, if_false, hwr]
    case rw => split <;> simp only [hwr]
    case k2 => split <;> simp only [hwr]

/-- A round that leaves a register field at every element of a list leaves it over the list. -/
theorem rd_forEach_of_keeps {α : Type} (l : List α) (d : Dev) (g : Dev → α → Dev) (f : Fld) (i j : Nat)
    (h : ∀ x ∈ l, ∀ e, (g e x).rd f i j = e.rd f i j) : (forEach l d g).rd f i j = d.rd f i j := by
  unfold forEach
  induction l generalizing d with
  | nil => rfl
  | cons x l ih => exact (ih _ fun y hy => h y (by simp [hy])).trans (h x (by simp) d)

/-- Where one element of a list without repetitions changes a register field, what it makes of the field stands at the end. -/
theorem rd_forEach_of_one {α : Type} (l : List α) (d : Dev) (g : Dev → α → Dev) (f : Fld) (i j : Nat) (x : α) (next : Nat → Nat)
    (hl : l.Nodup) (hx : x ∈ l) (hself : ∀ e, (g e x).rd f i j = next (e.rd f i j))
    (hothers : ∀ y ∈ l, y ≠ x → ∀ e, (g e y).rd f i j = e.rd f i j) : (forEach l d g).rd f i j = next (d.rd f i j) := by
  obtain ⟨before, after, rfl⟩ := List.append_of_mem hx
  have hbefore : ∀ y ∈ before, y ≠ x := by
    rintro y hy rfl
    exact (List.nodup_append.1 hl).2.2 y hy y (by simp) rfl
  have hafter : ∀ y ∈ after, y ≠ x := by
    rintro y hy rfl
    exact (List.nodup_cons.1 (List.nodup_append.1 hl).2.1).1 hy
  have hsplit : forEach (before ++ x :: after) d g = forEach after (g (forEach before d g) x) g := by
    simp [forEach]
  rw [hsplit, rd_forEach_of_keeps after _ g f i j fun y hy => hothers y (by simp [hy]) (hafter y hy), hself,
    rd_forEach_of_keeps before _ g f i j fun y hy => hothers y (by simp [hy]) (hbefore y hy)]

/-- The register tables name each field of a register once, and hold at most 1,024 entries of a field. -/
theorem ofBlock_fields (blk : Block) : ∀ r ∈ Reg.ofBlock blk, (r.fields.map (·.id)).Nodup ∧ ∀ f ∈ r.fields, f.nsub ≤ 1024 := by
  cases blk <;> decide

/-- A write of a register leaves each of its sub-fields at `fieldNext`. -/
theorem rd_regWrite_same {d : Dev} {blk : Block} {r : Reg} {f : Fld} {i k m mask data : Nat} (hr : r ∈ Reg.ofBlock blk)
    (hf : f ∈ r.fields) (hm : m < f.nsub) : (regWrite d r i k mask data).rd f i (k * f.nsub + m) =
      fieldNext f k (d.rd f i (k * f.nsub + m)) (fieldBits mask f m) (fieldBits data f m) := by
  obtain ⟨hids, hsubs⟩ := ofBlock_fields blk r hr
  let next := fun old => fieldNext f k old (fieldBits mask f m) (fieldBits data f m)
  refine rd_forEach_of_one r.fields d _ f i _ f next (List.Nodup.of_map _ hids) hf
    (fun e => ?sub) (fun g hg hne e => rd_forEach_of_keeps _ _ _ _ _ _ fun n _ e => ?field)
  case sub =>
    refine rd_forEach_of_one (List.range f.nsub) e _ f i _ m next List.nodup_range (List.mem_range.2 hm)
      (fun e => rd_fieldWrite_same ..) fun n hn hne e => rd_fieldWrite_ne _ _ _ _ _ _ _ _ _ _ fun hkey => hne ?_
    have := hsubs f hf
    have := List.mem_range.1 hn
    have := ((fldKey_eq_iff ..).1 hkey).2
    omega
  case field =>
    exact rd_fieldWrite_ne _ _ _ _ _ _ _ _ _ _ (fldKey_ne (fun hid => hne (List.inj_on_of_nodup_map hids hf hg hid).symm) _ _ _ _)

/-- A write of a register leaves the fields of the others. -/
theorem rd_regWrite_ne (d : Dev) (r : Reg) (g : Fld) (i k mask data i' j : Nat) (h : ∀ f ∈ r.fields, f.id ≠ g.id) :
    (regWrite d r i k mask data).rd g i' j = d.rd g i' j :=
  rd_forEach_of_keeps _ _ _ _ _ _ fun f hf _ => rd_forEach_of_keeps _ _ _ _ _ _ fun _ _ _ =>
    rd_fieldWrite_ne _ _ _ _ _ _ _ _ _ _ (fldKey_ne (h f hf).symm _ _ _ _)

theorem testBit_fieldNext_rw1c {f : Fld} (hf : f.ty = .rw1c) (k old fm dv : Nat) {b : Nat} (hb : b < f.w) :
    (fieldNext f k old fm dv).testBit b = (old.testBit b && !(fm.testBit b && dv.testBit b)) := by
  by_cases hm : fm = 0
  · simp [fieldNext, hm]
  · simp only [fieldNext, hf, hm, if_false, Nat.testBit_mod_two_pow, hb, Nat.testBit_xor, Nat.testBit_and]
    cases old.testBit b <;> cases fm.testBit b <;> cases dv.testBit b <;> rfl

/-- Settles O10: a sub-field is left at `fieldNext`, which each type of R8 reads off. -/
theorem fieldTypes : Obligations.FieldTypes := by
  unfold Obligations.FieldTypes
  refine ⟨?types, rd_regWrite_ne⟩
  case types =>
    intro d blk r f i k m mask data hr hf hm
    dsimp only
    rw [rd_regWrite_same hr hf hm]
    refine ⟨?keeps, ?uncovered, ?writeOnly, ?clears, ?takes⟩
    case keeps => rintro (h | h | h) <;> simp [fieldNext, h]
    case uncovered => intro h; rw [fieldNext, if_pos h]
    case writeOnly => intro h rq; rw [fieldRead, if_pos h]
    case clears => exact fun h b hb => testBit_fieldNext_rw1c h _ _ _ _ hb
    case takes => intro h hcovered; simp only [fieldNext, h, hcovered, if_false]

end Sys2Proof.Machine
end

section
/-! PROOF. Control-plane accesses (R7, R8, R15, R360, R448): a core's reads and writes of registers, the bus timeout, stalled accesses,
and the DBG port. -/
namespace Sys2Proof.Machine

theorem busAddr_core (c : Fin 8) {addr : Nat} (h : addr < 2 ^ 32) : busAddr (.core c) addr = addr := Nat.mod_eq_of_lt h

theorem any_eq_false_of_none_ready {d : Dev} (h : ∀ x ∈ d.power.stalled, mayPerform d x.2.1 = false) :
    (d.power.stalled.any fun x => mayPerform d x.2.1) = false := by
  simpa using h

/-- A register is no memory row, so no remap holds an access to it back. -/
@[simp] theorem remapStalls_reg (d : Dev) (r : Reg) (i k : Nat) : remapStalls d (.reg r i k) = false := by
  unfold remapStalls
  split <;> rfl

/-- A core's access to a register of a running domain is performed at once. -/
theorem busAccess_core_reg {d : Dev} (m : List Host.Cell) (c : Fin 8) {addr off i k : Nat} {a : Area} {r : Reg} {acc : Access}
    (hstalled : ∀ x ∈ d.power.stalled, mayPerform d x.2.1 = false) (hheld : d.reset.held = false) (hcool : d.reset.waitCool = false)
    (haddr : addr < 2 ^ 32) (harea : areaOf addr = some (a, off)) (hplace : placeOf a off = .reg r i k)
    (hsize : legalSize off (accSize acc) = true) (hruns : domState d (areaDom a) = 0) :
    busAccess (.core c) addr acc d m = regAccess (.core c) r i k off acc d m := by
  rw [busAccess_of_core_running m (any_eq_false_of_none_ready hstalled) hheld hcool c (by rw [busAddr_core c haddr, harea]) hruns hsize
    (by simp [hplace]) (by simp [hplace]), hplace]
  rfl

/-- A read of a register that no window of the Report Card shows answers the bytes addressed. -/
theorem regAccess_rd {r : Reg} (h : r ≠ Reg.evrWindow) (rq : Requester) (i k off n : Nat) (d : Dev) (m : List Host.Cell) :
    regAccess rq r i k off (.rd n) d m =
      (d.emit (.bus (reqNum rq) true (regRead d rq r i k / 2 ^ (8 * (off % 8)) % 2 ^ (8 * n))), m) := by
  simp [regAccess, h, busOk]

/-- The domain of an address is that of its area. -/
theorem addrDom_of_areaOf {addr off : Nat} {a : Area} (h : areaOf addr = some (a, off)) : addrDom addr = areaDom a := by
  simp [addrDom, h]

theorem domState_of_mayPerform {d : Dev} {addr off : Nat} {a : Area} (h : mayPerform d addr = true) (ha : areaOf addr = some (a, off)) :
    domState d (areaDom a) = 0 := by
  simp only [mayPerform, addrDom_of_areaOf ha, Bool.and_eq_true, beq_iff_eq] at h
  exact h.1

/-- Out of CS2 nothing is left. -/
theorem wakeCs2_of_ne {d : Dev} (h : d.rd F.pwrCs_state ≠ 2) : wakeCs2 d = d := if_neg h

theorem setDom_of_ne {d : Dev} {k : Nat} (h : domState d k ≠ 2) (v : Nat) : setDom d k v = d.wr F.pwrDom_dom v 0 k := if_neg h

/-- Settles O11: each access comes through the checks of log 20 to what performs it. -/
theorem controlPlaneRowsComplete : Obligations.ControlPlaneRowsComplete := by
  unfold Obligations.ControlPlaneRowsComplete
  refine ⟨?read, ?write, ?timeout, ?wake, ?withdraw, ?halt, ?dbgRead⟩
  case read =>
    intro s c addr n off i k a r hstalled hheld hcool haddr harea hplace hwindow hsize hruns
    exact gives_registerWrite ((busAccess_core_reg s.mem c (acc := .rd n) hstalled hheld hcool haddr harea hplace hsize hruns).trans
      (regAccess_rd hwindow ..))
  case write =>
    rintro s c addr n off i k data a r mask value e hstalled hheld hcool haddr harea hplace hsize hruns rfl rfl rfl
    have hbus := busAccess_core_reg s.mem c (acc := .wr n data) hstalled hheld hcool haddr harea hplace hsize hruns
    simp only [GivesMem, exec, execRegisterWrite, liftMem, hbus]
    rfl
  case timeout =>
    intro s c addr off isWrite a haddr harea hplace hmay
    have hruns := domState_of_mayPerform hmay harea
    simp only [Gives, exec, execBusTimeout, lift_next, busTimeout, busAddr_core c haddr, harea, hplace, hruns, hmay, ne_eq,
      not_false_eq_true, and_self, if_true]
  case wake =>
    rintro s dom d hretained hstalled rfl
    have hdom := setDom_of_ne (d := s.dev) (k := dom.val) (by rw [hretained]; decide) 0
    have hsome : (stalledOn s.dev dom.val).isEmpty = false := by simpa using hstalled
    simp only [GivesMem, exec, execImplicitAccessWake, liftMem_next, implicitWake, hsome, hretained, hdom, if_true, Bool.false_eq_true,
      if_false]
  case withdraw =>
    intro s dom hnone
    simp only [Gives, exec, execImplicitVoteWithdraw, lift_next, hnone, List.isEmpty_nil, if_true, clearVote]
  case halt =>
    intro s core hawake hlevel
    simp [Gives, exec, execDbgAccess, dbgAccess, wakeCs2_of_ne, hawake, hlevel]
  case dbgRead =>
    rintro s addr n e hawake hlevel rfl
    simp [GivesMem, exec, execDbgAccess, dbgAccess, wakeCs2_of_ne, hawake, dbgProvides, accIsWrite, hlevel]

end Sys2Proof.Machine
end

section
/-! PROOF. The crossbar (R16, R17, R19, R22, R24): a lone packet's way through the arbitration, the end of a transfer, and credit. -/
namespace Sys2Proof.Machine

/-! ### Lists of which one element answers -/

theorem filterMap_eq_singleton {α β : Type} {l : List α} {f : α → Option β} {k : α} {a : β} (hl : l.Nodup) (hk : k ∈ l)
    (hself : f k = some a) (hothers : ∀ x ∈ l, x ≠ k → f x = none) : l.filterMap f = [a] := by
  induction l with
  | nil => cases hk
  | cons x l ih =>
    obtain ⟨hx, hl⟩ := List.nodup_cons.1 hl
    by_cases hxk : x = k
    · subst hxk
      have hrest : l.filterMap f = [] := List.filterMap_eq_nil_iff.2 fun y hy =>
        hothers y (by simp [hy]) fun h => hx (h ▸ hy)
      simp [hself, hrest]
    · have hk : k ∈ l := by simpa [Ne.symm hxk] using hk
      simpa [hothers x (by simp) hxk] using ih hl hk fun y hy => hothers y (by simp [hy])

theorem filter_eq_singleton {α : Type} {l : List α} {p : α → Bool} {k : α} (hl : l.Nodup) (hk : k ∈ l) (hself : p k = true)
    (hothers : ∀ x ∈ l, x ≠ k → p x = false) : l.filter p = [k] := by
  rw [← List.filterMap_eq_filter]
  exact filterMap_eq_singleton hl hk (by simp [Option.guard, hself]) fun x hx hne => by simp [Option.guard, hothers x hx hne]

/-- Writes at distinct keys leave each its value. -/
theorem tabGet_foldl_tabPut {α : Type} [DecidableEq α] (dflt : α) (l : List Nat) (key : Nat → Nat) (v : Nat → α)
    (t : List (Nat × α)) (k : Nat) (hkey : ∀ a b, key a = key b → a = b) :
    tabGet dflt (l.foldl (fun t c => tabPut dflt t (key c) (v c)) t) (key k) = if k ∈ l then v k else tabGet dflt t (key k) := by
  induction l generalizing t with
  | nil => simp
  | cons x l ih =>
    rw [List.foldl_cons, ih, tabGet_tabPut]
    by_cases hl : k ∈ l
    · simp [hl]
    · by_cases hx : k = x
      · simp [hx]
      · have hne : key k ≠ key x := fun h => hx (hkey _ _ h)
        simp [hl, hx, hne]

theorem flatMap_eq_of_one {α β : Type} {l : List α} {f : α → List β} {k : α} (hl : l.Nodup) (hk : k ∈ l)
    (hothers : ∀ x ∈ l, x ≠ k → f x = []) : l.flatMap f = f k := by
  induction l with
  | nil => cases hk
  | cons x l ih =>
    obtain ⟨hx, hl⟩ := List.nodup_cons.1 hl
    by_cases hxk : x = k
    · subst hxk
      have hrest : l.flatMap f = [] := List.flatMap_eq_nil_iff.2 fun y hy => hothers y (by simp [hy]) fun h => hx (h ▸ hy)
      simp [hrest]
    · have hk : k ∈ l := by simpa [Ne.symm hxk] using hk
      simpa [hothers x (by simp) hxk] using ih hl hk fun y hy => hothers y (by simp [hy])

/-! ### A crossbar at which one packet waits -/

/-- Alone in the queues, a packet is the head of its own. -/
theorem xbHeads_of_one {x : XbState} {w : XbWaiting} (hq : x.queued = [w]) (hcls : w.cls < 8) : xbHeads x w.p.out.val = [w] := by
  have hfind (i c : Nat) : (x.queued.find? fun v => v.p.out.val == w.p.out.val && v.p.inp.val == i && v.cls == c) =
      if w.p.inp.val = i ∧ w.cls = c then some w else none := by
    by_cases h : w.p.inp.val = i ∧ w.cls = c <;> simp_all
  simp only [xbHeads, hfind]
  rw [flatMap_eq_of_one List.nodup_range (List.mem_range.2 w.p.inp.isLt) fun i _ hi => by simp [Ne.symm hi]]
  exact filterMap_eq_singleton List.nodup_range (List.mem_range.2 hcls) (by simp) fun c _ hc => by simp [Ne.symm hc]

theorem xbHeads_of_other {x : XbState} {w : XbWaiting} (hq : x.queued = [w]) {out : Nat} (hout : out ≠ w.p.out.val) :
    xbHeads x out = [] := by
  simp [xbHeads, hq, Ne.symm hout]

/-- Hall Pass goes round all inputs, so it meets each. -/
theorem find?_pass (pass : Nat) {i : Nat} (hi : i < 8) :
    (((List.range 8).map fun k => (pass + k) % 8).find? fun k => i == k) = some i := by
  cases h : ((List.range 8).map fun k => (pass + k) % 8).find? fun k => i == k with
  | none =>
    have hmem : (pass + (i + 8 - pass % 8) % 8) % 8 ∈ (List.range 8).map fun k => (pass + k) % 8 :=
      List.mem_map_of_mem (List.mem_range.2 (Nat.mod_lt _ (by decide)))
    have := List.find?_eq_none.1 h _ hmem
    simp only [beq_iff_eq] at this
    omega
  | some k => rw [← eq_of_beq (List.find?_some h)]

section
variable {d : Dev} {w : XbWaiting} {cycle : Nat} (hq : d.xb.queued = [w]) (hcls : w.cls < 7)
include hq hcls

theorem xbRequests_of_one (hin : tabGet 0 d.xb.inFree w.p.inp.val ≤ cycle) (hcr : w.p.beats ≤ xbCredit d.xb w.p.out.val w.cls) :
    xbRequests d.xb cycle w.p.out.val = [w] := by
  simp [xbRequests, xbHeads_of_one hq (by omega), hin, hcr]

/-- No class 7 waits. -/
theorem c7Held_of_one (out : Nat) : c7Held d cycle out = false := by
  have hlow : ∀ v ∈ xbRequests d.xb cycle out, v.cls ≠ 7 := by
    intro v hv
    obtain ⟨i, _, c, _, hfind⟩ : ∃ i, i < 8 ∧ ∃ c, c < 8 ∧ _ := by
      simpa [xbHeads] using (List.mem_filter.1 hv).1
    have := List.mem_of_find?_eq_some hfind
    rw [hq, List.mem_singleton] at this
    subst this; omega
  have hnone : (xbRequests d.xb cycle out).any (fun v => v.cls == 7) = false := by simpa using hlow
  simp [c7Held, hnone]

/-- The pool of its output is the packet alone, with or without a refill of its class (R22). -/
theorem xbPool_of_one (hin : tabGet 0 d.xb.inFree w.p.inp.val ≤ cycle) (hcr : w.p.beats ≤ xbCredit d.xb w.p.out.val w.cls) :
    (xbPool d cycle w.p.out.val).1 = [w] := by
  have hreq := xbRequests_of_one hq hcls hin hcr
  have hne : (w.cls == 7) = false := beq_false_of_ne (by omega)
  by_cases hweight : d.rd F.xbrClsWeight_w 0 (7 * w.p.out.val + w.cls) = 0
  · have hnone : ((List.range 7).filter fun c => w.cls == c && d.rd F.xbrClsWeight_w 0 (7 * w.p.out.val + c) != 0) = [] := by
      refine List.filter_eq_nil_iff.2 fun c _ => ?_
      by_cases hc : w.cls = c
      · subst hc; simp [hweight]
      · simp [hc]
    simp [xbPool, hreq, hne, bne, hweight]
  · have hone : ((List.range 7).filter fun c => w.cls == c && !(d.rd F.xbrClsWeight_w 0 (7 * w.p.out.val + c) == 0)) = [w.cls] := by
      refine filter_eq_singleton List.nodup_range (List.mem_range.2 hcls) (by simpa using hweight) fun c _ hc => by simp [Ne.symm hc]
    have hrefill := tabGet_foldl_tabPut (0 : Int) (List.range 7) (fun c => 8 * w.p.out.val + c)
      (fun c => if w.cls = c then (d.rd F.xbrClsWeight_w 0 (7 * w.p.out.val + c) : Int) else 0) d.xb.deficit w.cls
      fun a b h => by omega
    simp only [List.mem_range, hcls, if_true] at hrefill
    simp only [xbPool, hreq, List.filter_cons, List.filter_nil, hne, bne, Bool.not_false, if_true, Bool.false_eq_true, if_false,
      List.isEmpty_nil, Bool.not_true, Bool.false_and, List.any_cons, List.any_nil, Bool.or_false, hone, List.isEmpty_cons,
      List.all_cons, List.all_nil, Bool.true_and, Bool.and_true, List.foldl_cons, List.foldl_nil]
    by_cases hdef : tabGet 0 d.xb.deficit (8 * w.p.out.val + w.cls) ≤ 0
    · simp [hdef, hrefill, Nat.pos_of_ne_zero hweight]
    · have hpos : 0 < tabGet 0 d.xb.deficit (8 * w.p.out.val + w.cls) := by omega
      simp [hdef, hpos, hpos.le]

/-- The output offers the packet (R22). -/
theorem xbOffer_of_one (hout : tabGet 0 d.xb.outFree w.p.out.val ≤ cycle) (hin : tabGet 0 d.xb.inFree w.p.inp.val ≤ cycle)
    (hcr : w.p.beats ≤ xbCredit d.xb w.p.out.val w.cls) : ∃ o, xbOffer d cycle w.p.out.val = some o ∧ o.w = w := by
  have hpool := xbPool_of_one hq hcls hin hcr
  refine ⟨{ w := w, deficit := (xbPool d cycle w.p.out.val).2 }, ?_, rfl⟩
  simp only [xbOffer, Nat.not_lt.2 hout, if_false, hpool, List.any_cons, List.any_nil, Bool.or_false,
    find?_pass (d.rd F.xbrHallPass_ptr 0 w.p.out.val) w.p.inp.isLt, List.filter_cons, beq_self_eq_true, if_true, List.filter_nil,
    List.foldl_nil]

omit hcls in
theorem xbOffer_of_other {out : Nat} (hout : out ≠ w.p.out.val) : xbOffer d cycle out = none := by
  have hreq : xbRequests d.xb cycle out = [] := by simp [xbRequests, xbHeads_of_other hq hout]
  have hpass : (((List.range 8).map fun i => (d.rd F.xbrHallPass_ptr 0 out + i) % 8).find? fun _ => false) = none := by simp
  have hpool : (xbPool d cycle out).1 = [] := by simp [xbPool, hreq]
  simp only [xbOffer, hpool, List.any_nil, hpass, ite_self]

end

/-! ### The grant -/

/-- The state in which the arbitration of a cycle finds the arrivals (R22). -/
def xbEntered (cycle cls : Nat) (p : Packet) (d : Dev) : Dev :=
  d.updXb fun x => { x with cycle := cycle, queued := x.queued ++ [{ arrived := cycle, cls := cls, p := p }], medHeld := [] }

/-- A packet is not held back by itself: an engine's packet is no media packet (R11). -/
theorem medHolds_self (p : Packet) : medHolds [p] p = false := by
  cases hk : p.kind <;> simp [medHolds, hk, mediaKind]

/-- A lone legal packet is granted in the cycle in which it arrives. -/
theorem xbarArbitrate_of_one {d : Dev} {cycle cls : Nat} {p : Packet} (hcycle : d.xb.cycle ≤ cycle) (hq : d.xb.queued = [])
    (hmed : d.xb.medHeld = []) (hlegal : xbLegal p = true) (hkind : cls = xbClass d p.kind) (hcls : cls < 7)
    (hout : tabGet 0 d.xb.outFree p.out.val ≤ cycle) (hin : tabGet 0 d.xb.inFree p.inp.val ≤ cycle)
    (hcr : p.beats ≤ xbCredit d.xb p.out.val cls) :
    ∃ o, o.w = { arrived := cycle, cls := cls, p := p } ∧
      xbarArbitrate cycle [p] d = xbGrant cycle (xbEntered cycle cls p d) o := by
  have hq' : (xbEntered cycle cls p d).xb.queued = [{ arrived := cycle, cls := cls, p := p }] := by
    simp [xbEntered, Dev.updXb, hq]
  obtain ⟨o, hoffer, how⟩ := xbOffer_of_one (d := xbEntered cycle cls p d) (cycle := cycle) hq' hcls hout hin hcr
  have hoffers : ((List.range 8).filter fun o => decide (tabGet 0 (xbEntered cycle cls p d).xb.outFree o ≤ cycle)).filterMap
      (xbOffer (xbEntered cycle cls p d) cycle) = [o] := by
    refine filterMap_eq_singleton (List.nodup_range.filter _) (k := p.out.val) ?_ hoffer fun x _ hx => xbOffer_of_other hq' hx
    exact List.mem_filter.2 ⟨List.mem_range.2 p.out.isLt, decide_eq_true hout⟩
  have hheld (l : List Nat) : l.filter (c7Held (xbEntered cycle cls p d) cycle) = [] :=
    List.filter_eq_nil_iff.2 fun x _ => by simp [c7Held_of_one hq' hcls]
  have henter : xbarArbitrate cycle [p] d =
      let d := xbEntered cycle cls p d
      let free := (List.range 8).filter fun o => decide (tabGet 0 d.xb.outFree o ≤ cycle)
      let offers := free.filterMap (xbOffer d cycle)
      forEach (offers.filter (xbAccepts offers))
        (forEach (free.filter (c7Held d cycle)) d fun d o => d.setBit F.xbrErrStat_c7_limited o true) (xbGrant cycle) := by
    simp only [xbarArbitrate, Nat.not_lt.2 hcycle, if_false, hq, hmed, List.filter_cons, hlegal, if_true, List.filter_nil,
      List.map_nil, List.nil_append, medHolds_self, Bool.not_false, Bool.false_eq_true, List.map_cons, ← hkind, xbEntered]
    rfl
  refine ⟨o, how, ?_⟩
  rw [henter]
  simp only [hoffers, hheld]
  simp [forEach, xbAccepts]

/-- Settles O12: a lone packet by its way through the arbitration, a transfer and credit by what they write. -/
theorem crossbarRowsComplete : Obligations.CrossbarRowsComplete := by
  unfold Obligations.CrossbarRowsComplete
  refine ⟨?grant, ?transfer, ?credit⟩
  case grant =>
    intro s cycle cls p hcycle hq hmed hlegal hkind hcls hout hin hcr
    obtain ⟨o, how, hgrant⟩ := xbarArbitrate_of_one hcycle hq hmed hlegal hkind hcls hout hin hcr
    refine ⟨xbGrant cycle (xbEntered cycle cls p s.dev) o, ?_, ?_⟩
    · simp only [Gives, exec, execXbarArbitrate, lift_next, hgrant]
    · have hptr : (p.inp.val + 1) % 8 % 2 ^ F.xbrHallPass_ptr.w = (p.inp.val + 1) % 8 := Nat.mod_mod _ 8
      simp [xbGrant, how, xbEntered, Dev.updXb, listDrop, hq, xbCredit, tabGet_tabPut, hptr, Nat.sub_sub]
  case transfer =>
    rintro s out cycle f d poison hfind hlast hcmd rfl rfl
    simp [Gives, exec, execPacketTransferComplete, transferComplete, hfind, Nat.not_lt.2 hlast, hcmd, forEach]
  case credit =>
    intro s out cls beats
    refine ⟨_, rfl, ?_, fun o c ho hc hne => ?_⟩
    · simp [xbCredit, Dev.updXb, tabGet_tabPut]
    · have hkey : 8 * o + c ≠ 8 * out.val + cls.val := by omega
      simp [xbCredit, Dev.updXb, tabGet_tabPut, hkey]

end Sys2Proof.Machine
end

section
/-! PROOF. Bits of register fields: what setting and clearing one leaves of it and of the others. -/
namespace Sys2Proof.Machine

/-- Taking away a bit that is set leaves the others. -/
theorem testBit_sub_two_pow {x b : Nat} (h : x.testBit b = true) (c : Nat) :
    (x - 2 ^ b).testBit c = (decide (c ≠ b) && x.testBit c) := by
  obtain ⟨k, hk⟩ : ∃ k, x / 2 ^ b = 2 * k + 1 := ⟨x / 2 ^ b / 2, by
    have := h; rw [Nat.testBit_eq_decide_div_mod_eq, decide_eq_true_eq] at this; omega⟩
  have hr : x % 2 ^ b < 2 ^ b := Nat.mod_lt _ (Nat.two_pow_pos b)
  have hx : x = 2 ^ b * (2 * k + 1) + x % 2 ^ b := by rw [← hk, Nat.div_add_mod]
  have hsub : x - 2 ^ b = 2 ^ b * (2 * k) + x % 2 ^ b := by rw [Nat.mul_add] at hx; omega
  rw [hsub, Nat.testBit_two_pow_mul_add _ hr, hx, Nat.testBit_two_pow_mul_add _ (by simp [Nat.mod_lt _ (Nat.two_pow_pos b)])]
  by_cases hlt : c < b
  · simp [hlt, Nat.ne_of_lt hlt]
  · by_cases hcb : c = b
    · subst hcb; simp
    · obtain ⟨n, rfl⟩ : ∃ n, c = b + (n + 1) := ⟨c - b - 1, by omega⟩
      simp [hlt, Nat.testBit_succ, show b + (n + 1) - b = n + 1 by omega, show (2 * k + 1) / 2 = k by omega]

/-- Every bit of a field of which one bit has been set or cleared. -/
theorem Dev.bit_setBit (d : Dev) (f : Fld) (b : Nat) (v : Bool) (i j c : Nat) (hc : c < f.w) :
    (d.setBit f b v i j).bit f c i j = if c = b then v else d.bit f c i j := by
  simp only [Dev.bit, Dev.setBit, Dev.rd_wr_same, Nat.testBit_mod_two_pow, hc, decide_true, Bool.true_and]
  cases v with
  | true =>
    by_cases hb : c = b
    · simp [hb]
    · simp [Nat.testBit_or, hb, Ne.symm hb]
  | false =>
    by_cases hset : (d.rd f i j).testBit b = true
    · simp only [Bool.false_eq_true, if_false, hset, if_true, testBit_sub_two_pow hset]
      by_cases hb : c = b <;> simp [hb]
    · have hclear : (d.rd f i j).testBit b = false := by simpa using hset
      by_cases hb : c = b <;> simp [hclear, hb]

@[simp] theorem Dev.bit_setBit_same (d : Dev) (f : Fld) (b : Nat) (v : Bool) (i j : Nat) (hb : b < f.w) :
    (d.setBit f b v i j).bit f b i j = v := by
  rw [Dev.bit_setBit _ _ _ _ _ _ _ hb, if_pos rfl]

theorem Dev.setBit_eq (d : Dev) (f : Fld) (b : Nat) (v : Bool) (i j : Nat) :
    d.setBit f b v i j = d.wr f (if v then d.rd f i j ||| 2 ^ b else d.rd f i j - (if (d.rd f i j).testBit b then 2 ^ b else 0)) i j :=
  rfl

theorem Dev.rd_setBit_ne (d : Dev) (f g : Fld) (b : Nat) (v : Bool) (i j k l : Nat) (h : f.id ≠ g.id) :
    (d.setBit f b v i j).rd g k l = d.rd g k l := Dev.rd_wr_ne _ _ _ _ _ _ _ _ h

theorem Dev.bit_setBit_ne (d : Dev) (f g : Fld) (b : Nat) (v : Bool) (i j c k l : Nat) (h : f.id ≠ g.id) :
    (d.setBit f b v i j).bit g c k l = d.bit g c k l := by simp [Dev.bit, Dev.rd_setBit_ne _ _ _ _ _ _ _ _ _ h]

theorem Dev.rd_setFlag_ne (d : Dev) (f g : Fld) (b : Bool) (i j k l : Nat) (h : f.id ≠ g.id) :
    (d.setFlag f b i j).rd g k l = d.rd g k l := Dev.rd_wr_ne _ _ _ _ _ _ _ _ h

theorem Dev.bit_setFlag_ne (d : Dev) (f g : Fld) (b : Bool) (i j c k l : Nat) (h : f.id ≠ g.id) :
    (d.setFlag f b i j).bit g c k l = d.bit g c k l := by simp [Dev.bit, Dev.rd_setFlag_ne _ _ _ _ _ _ _ _ h]

theorem Dev.bit_wr_ne (d : Dev) (f g : Fld) (v i j c k l : Nat) (h : f.id ≠ g.id) :
    (d.wr f v i j).bit g c k l = d.bit g c k l := by simp [Dev.bit, Dev.rd_wr_ne _ _ _ _ _ _ _ _ h]

theorem Dev.flag_setBit_ne (d : Dev) (f g : Fld) (b : Nat) (v : Bool) (i j k l : Nat) (h : f.id ≠ g.id) :
    (d.setBit f b v i j).flag g k l = d.flag g k l := by simp [Dev.flag, Dev.rd_setBit_ne _ _ _ _ _ _ _ _ _ h]

theorem Dev.rd_addSat_ne (d : Dev) (f g : Fld) (n i j k l : Nat) (h : f.id ≠ g.id) :
    (d.addSat f n i j).rd g k l = d.rd g k l := Dev.rd_wr_ne _ _ _ _ _ _ _ _ h

theorem Dev.rd_addWrap_ne (d : Dev) (f g : Fld) (n i j k l : Nat) (h : f.id ≠ g.id) :
    (d.addWrap f n i j).rd g k l = d.rd g k l := Dev.rd_wr_ne _ _ _ _ _ _ _ _ h

/-- A field with a bit set is not 0. -/
theorem Dev.rd_ne_zero_of_bit {d : Dev} {f : Fld} {b i j : Nat} (h : d.bit f b i j = true) : d.rd f i j ≠ 0 := by
  intro h0
  simp [Dev.bit, h0] at h

end Sys2Proof.Machine
end

section
/-! PROOF. Clocks, regions and the core supply (R27, R30, R34, R35, R436). -/
namespace Sys2Proof.Machine

/-! ### Clocks -/

theorem putLost_contains (d : Dev) (c : ClockId) (lost : Bool) : (putLost d c lost).reset.lost.contains c = lost := by
  cases lost <;> simp [putLost, Dev.updReset]

@[simp] theorem hostLinkDown_reset (d : Dev) (h : Nat) : (hostLinkDown d h).reset = d.reset := by
  unfold hostLinkDown
  split <;> rfl

/-- A port whose link is taken down is disabled. -/
theorem hostLinkDown_port (d : Dev) (h : Nat) :
    ((hostLinkDown d h).port h).linkUp = false ∧ ((hostLinkDown d h).port h).enabled = false := by
  simp [hostLinkDown]

/-- A used port trains where nothing holds it down (R30, R71, R419). -/
theorem hostTrain_linkUp {d : Dev} {h : HstId} (hused : hostUsed d h.val = true) (hperst : d.bit F.glbPins_perst_n h.val = true)
    (hboot : d.flag F.glbStart_boot_done = true) (hlost : d.reset.lost.contains (.hst h) = false) (hloop : d.rd F.loop_depth h.val = 0) :
    ((hostTrain d h.val).port h.val).linkUp = true := by
  unfold hostTrain
  extract_lets lost looped
  have hclock : lost = false := by
    refine List.any_eq_false.2 fun c hc => ?_
    cases c with
    | hst k =>
      have hk : k ≠ h := by
        rintro rfl
        simp [hc] at hlost
      simpa using fun hv => hk (Fin.ext hv)
    | _ => exact Bool.false_ne_true
  have hfree : looped = false := by simp [looped, hloop]
  simp [hused, hperst, hboot, hclock, hfree]

@[simp] theorem hostTrain_rd (d : Dev) (h : Nat) (f : Fld) (i j : Nat) : (hostTrain d h).rd f i j = d.rd f i j := by
  unfold hostTrain
  dsimp only
  split <;> rfl

@[simp] theorem hostTrain_reset (d : Dev) (h : Nat) : (hostTrain d h).reset = d.reset := by
  unfold hostTrain
  dsimp only
  split <;> rfl

/-! ### Regions -/

theorem keepsRegs_setStep (d : Dev) (step : Nat) : KeepsRegs [F.thmStat_step.id, F.thmEvt_step_up.id, F.thmEvt_step_down.id,
    F.pwrCs_state.id, F.pwrCs_target.id, F.pwrDom_dom.id, F.pwrPs_streams.id, F.pwrPs_throttling.id, F.pwrPs_speed_cap.id,
    F.pwrPs_host_width.id, F.pwrPs_engines.id, F.spnStat_command.id] d (setStep d step) := by
  unfold setStep
  extract_lets old e e'
  refine keepsRegs_ite .rfl' ?_
  have he : KeepsRegs [F.thmStat_step.id, F.thmEvt_step_up.id, F.thmEvt_step_down.id] d e := by
    have hev {f : Fld} (hf : f.id = F.thmEvt_step_up.id ∨ f.id = F.thmEvt_step_down.id) :
        KeepsRegs [F.thmStat_step.id, F.thmEvt_step_up.id, F.thmEvt_step_down.id] (d.wr F.thmStat_step step)
          ((d.wr F.thmStat_step step).setFlag f true) := keepsRegs_wr _ _ _ _ _ (by simpa using .inr hf)
    refine (keepsRegs_wr d F.thmStat_step step 0 0 (by simp)).trans ?_
    simp only [e]
    split
    · exact hev (.inl rfl)
    · exact hev (.inr rfl)
  refine (he.mono (by simp)).trans (KeepsRegs.trans (e := e'.emit (.event evThermal 0)) (KeepsRegs.of_regs rfl) ?_)
  exact ((keepsRegs_wakeCs2 _).mono (by simp)).trans ((keepsRegs_applyLimits _).mono (by simp))

/-- The throttle stands at the step it is set to. -/
theorem setStep_step (d : Dev) {step : Nat} (h : step < 4) : (setStep d step).rd F.thmStat_step = step := by
  unfold setStep
  extract_lets old e e'
  split
  · next hsame => exact hsame.symm
  · rw [(keepsRegs_applyLimits _).eq (by decide), (keepsRegs_wakeCs2 _).eq (by decide)]
    have he : e.rd F.thmStat_step = step := by
      have hev (f : Fld) (hf : f.id ≠ F.thmStat_step.id) :
          ((d.wr F.thmStat_step step).setFlag f true).rd F.thmStat_step = step := by
        rw [Dev.rd_setFlag_ne _ _ _ _ _ _ _ _ hf, Dev.rd_wr_lt _ _ _ _ _ h]
      simp only [e]
      split <;> exact hev _ (by decide)
    exact he

/-- With a cause, the fixed throttle holds at step 3 (R35, R371). -/
theorem syncFixed_of_cause {d : Dev} (h : fixedCause d = true) :
    (syncFixed d).flag F.thmStat_fixed = true ∧ (syncFixed d).rd F.thmStat_step = 3 := by
  rw [syncFixed, if_pos h]
  refine ⟨?_, setStep_step _ (by decide)⟩
  rw [Dev.flag, (keepsRegs_setStep _ _).eq (by decide)]
  exact Dev.flag_setFlag _ _ _ _ _ (by decide)

/-- What the start of the fixed throttle leaves of the region bits. -/
theorem syncFixed_of_cause_rd {d : Dev} (h : fixedCause d = true) {f : Fld}
    (hf : f.id ∉ [F.thmStat_fixed.id, F.thmStat_step.id, F.thmEvt_step_up.id, F.thmEvt_step_down.id,
      F.pwrCs_state.id, F.pwrCs_target.id, F.pwrDom_dom.id, F.pwrPs_streams.id, F.pwrPs_throttling.id, F.pwrPs_speed_cap.id,
      F.pwrPs_host_width.id, F.pwrPs_engines.id, F.spnStat_command.id]) (i j : Nat := 0) :
    (syncFixed d).rd f i j = d.rd f i j := by
  obtain ⟨hfixed, hrest⟩ := List.ne_and_not_mem_of_not_mem_cons hf
  rw [syncFixed, if_pos h, (keepsRegs_setStep _ _).eq hrest, Dev.rd_setFlag_ne _ _ _ _ _ _ _ _ (Ne.symm hfixed)]

/-- Without a cause, no fixed throttle holds, and the step stays. -/
theorem syncFixed_of_none {d : Dev} (h : fixedCause d = false) :
    (syncFixed d).flag F.thmStat_fixed = false ∧ ∀ f : Fld, f.id ≠ F.thmStat_fixed.id → (syncFixed d).rd f = d.rd f := by
  by_cases hfixed : d.flag F.thmStat_fixed = true
  · simp only [syncFixed, h, hfixed, if_true, Bool.false_eq_true, if_false]
    refine ⟨?_, fun f hf => ?_⟩
    · rw [Dev.flag, Dev.updTherm_rd]
      exact Dev.flag_setFlag d _ _ _ _ (by decide)
    · rw [Dev.updTherm_rd, Dev.rd_setFlag_ne _ _ _ _ _ _ _ _ hf.symm]
  · have hoff : d.flag F.thmStat_fixed = false := by simpa using hfixed
    simp [syncFixed, h, hoff]

/-! ### The core supply -/

theorem clampNear_one (v a : Nat) : clampNear v [a] ≤ a + 40 ∧ a ≤ clampNear v [a] + 40 := by
  simp only [clampNear, List.foldl_cons, List.foldl_nil]; omega

theorem clampNear_two (v : Nat) {a b : Nat} (hab : a ≤ b + 40) (hba : b ≤ a + 40) :
    (clampNear v [a, b] ≤ a + 40 ∧ a ≤ clampNear v [a, b] + 40) ∧ clampNear v [a, b] ≤ b + 40 ∧ b ≤ clampNear v [a, b] + 40 := by
  simp only [clampNear, List.foldl_cons, List.foldl_nil]; omega

/-- Three targets of which the first is near the other two leave room for one that is near to all. -/
theorem clampNear_three (v : Nat) {a b c : Nat} (hab : a ≤ b + 40) (hba : b ≤ a + 40) (hac : a ≤ c + 40) (hca : c ≤ a + 40) :
    (clampNear v [a, b, c] ≤ a + 40 ∧ a ≤ clampNear v [a, b, c] + 40) ∧
    (clampNear v [a, b, c] ≤ b + 40 ∧ b ≤ clampNear v [a, b, c] + 40) ∧
    clampNear v [a, b, c] ≤ c + 40 ∧ c ≤ clampNear v [a, b, c] + 40 := by
  simp only [clampNear, List.foldl_cons, List.foldl_nil]; omega

/-- One region's new target. -/
def trimRegion (d : Dev) (x : Nat × List Nat) : Dev :=
  let (v, d) := d.draw
  let t := clampNear v (x.2.map (regionMv d))
  { d with power := { d.power with regionMv := tabPut 800 d.power.regionMv x.1 t } }

theorem trimRegions_eq (d : Dev) : trimRegions d = regionOrder.foldl trimRegion d := rfl

theorem regionMv_trimRegion (d : Dev) (x : Nat × List Nat) (r : Nat) : regionMv (trimRegion d x) r =
    if r = x.1 then clampNear (Config.freeValue d.draws) (x.2.map (regionMv d)) else regionMv d r :=
  tabGet_tabPut ..

/-- The targets of adjacent regions, set in the order of R436, are within 40 mV of each other. -/
theorem trimRegions_near (d : Dev) : ∀ x ∈ regionOrder, ∀ r ∈ x.2,
    regionMv (trimRegions d) x.1 ≤ regionMv (trimRegions d) r + 40 ∧ regionMv (trimRegions d) r ≤ regionMv (trimRegions d) x.1 + 40 := by
  obtain ⟨v, v1, v2, v3, v4, h0, h1, h2, h3, h4⟩ : ∃ v v1 v2 v3 v4, regionMv (trimRegions d) 0 = v ∧
      regionMv (trimRegions d) 1 = clampNear v1 [v] ∧ regionMv (trimRegions d) 2 = clampNear v2 [v, clampNear v1 [v]] ∧
      regionMv (trimRegions d) 4 = clampNear v4 [v, clampNear v2 [v, clampNear v1 [v]]] ∧
      regionMv (trimRegions d) 3 =
        clampNear v3 [v, clampNear v1 [v], clampNear v4 [v, clampNear v2 [v, clampNear v1 [v]]]] := by
    simp only [trimRegions_eq, regionOrder, List.foldl_cons, List.foldl_nil, regionMv_trimRegion, List.map_cons, List.map_nil,
      OfNat.ofNat_ne_zero, OfNat.zero_ne_ofNat, Nat.reduceEqDiff, if_true, if_false]
    exact ⟨_, _, _, _, _, rfl, rfl, rfl, rfl, rfl⟩
  have n1 := clampNear_one v1 v
  have n2 := clampNear_two v2 n1.2 n1.1
  have n4 := clampNear_two v4 n2.1.2 n2.1.1
  have n3 := clampNear_three v3 n1.2 n1.1 n4.1.2 n4.1.1
  simp [regionOrder, h0, h1, h2, h3, h4, n1, n2, n3, n4]

@[simp] theorem trimRegions_rd (d : Dev) (f : Fld) (i j : Nat) : (trimRegions d).rd f i j = d.rd f i j := rfl

/-- Settles O13: each row by what its operation leaves of the clocks, the region bits, the throttle and the targets. -/
theorem clockAndRegionRowsComplete : Obligations.ClockAndRegionRowsComplete := by
  unfold Obligations.ClockAndRegionRowsComplete
  refine ⟨?lost, ?regained, ?domain, ?sets, ?clears, ?avs⟩
  case lost =>
    intro s h hheld hused
    refine ⟨_, rfl, ?_⟩
    have hused' : hostUsed (putLost s.dev (.hst h) true) h.val = true := hused
    simp only [clockLockLost, hheld, Bool.false_eq_true, if_false, hused', if_true]
    exact ⟨by rw [hostLinkDown_reset]; exact putLost_contains .., hostLinkDown_port _ _⟩
  case regained =>
    intro s h hheld hlost hused hperst hboot hloop
    refine ⟨_, rfl, ?_⟩
    simp only [clockLockRegained, hheld, hlost, Bool.not_true, Bool.or_false, Bool.false_eq_true, if_false]
    have hgone := putLost_contains s.dev (.hst h) false
    refine ⟨?_, hostTrain_linkUp hused hperst hboot hgone hloop, fun f i j => ?_⟩
    · rw [hostTrain_reset, hgone]
    · rw [hostTrain_rd]; rfl
  case domain =>
    intro s chn toMedia hwg hpll
    simp [Gives, exec, execClockDomainSwitch, lift_next, hwg, hpll]
  case sets =>
    intro s pair hover
    refine ⟨_, rfl, ?_⟩
    simp only [regionEvent, hover, Bool.not_true, Bool.and_false, Bool.false_eq_true, if_false]
    generalize he : Dev.emit _ _ = e
    have hlive : e.bit F.glbRegionStat_temp_over pair.val = true := by
      rw [← he, Dev.bit, Dev.emit_rd, ← Dev.bit, Dev.bit_setBit_ne _ _ _ _ _ _ _ _ _ _ (by decide)]
      exact Dev.bit_setBit_same _ _ _ _ _ _ pair.isLt
    have hseen : e.bit F.glbRegionStat_temp_seen pair.val = true := by
      rw [← he, Dev.bit, Dev.emit_rd]
      exact Dev.bit_setBit_same _ _ _ _ _ _ pair.isLt
    have hcause : fixedCause e = true := by simp [fixedCause, Dev.rd_ne_zero_of_bit hlive]
    obtain ⟨hfixed, hstep⟩ := syncFixed_of_cause hcause
    refine ⟨?_, ?_, hfixed, hstep⟩
    · rw [Dev.bit, syncFixed_of_cause_rd hcause (by decide)]; exact hlive
    · rw [Dev.bit, syncFixed_of_cause_rd hcause (by decide)]; exact hseen
  case clears =>
    intro s pair hnot htemp hvolt hexcl
    refine ⟨_, rfl, ?_⟩
    simp only [hnot, Bool.and_false, Bool.false_eq_true, if_false]
    have hgone : (s.dev.setBit F.glbRegionStat_temp_over pair.val false).rd F.glbRegionStat_temp_over = 0 := by
      simp [Dev.setBit, Dev.rd_wr_same, htemp]
    have hcause : fixedCause (s.dev.setBit F.glbRegionStat_temp_over pair.val false) = false := by
      have he := Dev.rd_setBit_ne s.dev F.glbRegionStat_temp_over F.thmStat_excluded pair.val false 0 0 0 0 (by decide)
      have hv := Dev.rd_setBit_ne s.dev F.glbRegionStat_temp_over F.glbRegionStat_volt_over pair.val false 0 0 0 0 (by decide)
      simp [fixedCause, hgone, he, hv, hvolt, hexcl]
    obtain ⟨hfixed, hrest⟩ := syncFixed_of_none hcause
    refine ⟨(hrest _ (by decide)).trans hgone, hfixed, (hrest _ (by decide)).trans ?_⟩
    exact Dev.rd_setBit_ne _ _ _ _ _ _ _ _ _ (by decide)
  case avs =>
    intro s target readback hok
    refine ⟨_, rfl, ?_⟩
    simp only [avsAdjust, hok, Bool.not_true, Bool.false_eq_true, if_false, if_true]
    refine ⟨?_, ?_, trimRegions_near _⟩
    · rw [trimRegions_rd, Dev.rd_wr_ne _ _ _ _ _ _ _ _ (by decide), Dev.rd_wr_same]; rfl
    · rw [trimRegions_rd, Dev.rd_wr_same]; rfl

end Sys2Proof.Machine
end

section
/-! PROOF. Footprints: which parts of the device and which register fields an operation may change.  `keep m d` is the device `d`
with the places of the footprint `m` blanked out, so that `keep m (op d) = keep m d` says that `op` changes nothing else; a device
update can then be rewritten away from the outside in. -/
namespace Sys2Proof.Machine

/-- A footprint as one number: the bits below 32 stand for the parts of the state, the others for the register fields. -/
def footOf (ps : List Part) (fs : List Fld) : Nat :=
  ps.foldl (fun n p => n ||| 1 <<< p.ctorIdx) 0 ||| fs.foldl (fun n f => n ||| 1 <<< (32 + f.id)) 0

/-- Every place of the footprint `a` is one of `b`. -/
def inFoot (a b : Nat) : Bool := a ||| b == b

/-- A device with the places of a footprint blanked out: what an operation of that footprint keeps. -/
def keep (m : Nat) (d : Dev) : Dev where
  regs := d.regs.filter fun c => !m.testBit (32 + c.1 / 65536)
  out := if m.testBit Part.out.ctorIdx then [] else d.out
  draws := if m.testBit Part.draws.ctorIdx then 0 else d.draws
  xb := if m.testBit Part.xb.ctorIdx then {} else d.xb
  ecc := if m.testBit Part.ecc.ctorIdx then {} else d.ecc
  struct := if m.testBit Part.struct.ctorIdx then {} else d.struct
  seqs := if m.testBit Part.seqs.ctorIdx then [] else d.seqs
  chns := if m.testBit Part.chns.ctorIdx then [] else d.chns
  health := if m.testBit Part.health.ctorIdx then [] else d.health
  healthGen := if m.testBit Part.health.ctorIdx then 0 else d.healthGen
  host := if m.testBit Part.host.ctorIdx then {} else d.host
  chain := if m.testBit Part.chain.ctorIdx then {} else d.chain
  cipher := if m.testBit Part.cipher.ctorIdx then {} else d.cipher
  comp := if m.testBit Part.comp.ctorIdx then {} else d.comp
  servos := if m.testBit Part.servos.ctorIdx then [] else d.servos
  spins := if m.testBit Part.spins.ctorIdx then [] else d.spins
  power := if m.testBit Part.power.ctorIdx then {} else d.power
  therm := if m.testBit Part.therm.ctorIdx then {} else d.therm
  reset := if m.testBit Part.reset.ctorIdx then {} else d.reset
  card := if m.testBit Part.card.ctorIdx then {} else d.card
  sec := if m.testBit Part.sec.ctorIdx then {} else d.sec
  fw := if m.testBit Part.fw.ctorIdx then {} else d.fw
  map := if m.testBit Part.map.ctorIdx then {} else d.map

theorem testBit_of_inFoot {a b k : Nat} (h : inFoot a b = true) (hk : a.testBit k = true) : b.testBit k = true := by
  have hab : a ||| b = b := eq_of_beq h
  rw [← hab, Nat.testBit_or, hk, Bool.true_or]

theorem filter_tabErase {α : Type} (t : List (Nat × α)) (q : Nat) (p : Nat × α → Bool) (h : ∀ v, p (q, v) = false) :
    (tabErase t q).filter p = t.filter p := by
  induction t with
  | nil => rfl
  | cons c t ih =>
    obtain ⟨k, v⟩ := c
    by_cases hk : k = q
    · subst hk; simp [tabErase, ih, h]
    · simp [tabErase, hk, List.filter_cons, ih]

theorem filter_tabInsert {α : Type} (t : List (Nat × α)) (q : Nat) (x : α) (p : Nat × α → Bool) (h : ∀ v, p (q, v) = false) :
    (tabInsert t q x).filter p = t.filter p := by
  induction t with
  | nil => simp [tabInsert, h]
  | cons c t ih =>
    obtain ⟨k, v⟩ := c
    by_cases hk : q < k
    · simp [tabInsert, hk, List.filter_cons, h]
    · simp [tabInsert, hk, List.filter_cons, ih]

theorem filter_tabPut {α : Type} [DecidableEq α] (dflt : α) (t : List (Nat × α)) (q : Nat) (x : α) (p : Nat × α → Bool)
    (h : ∀ v, p (q, v) = false) : (tabPut dflt t q x).filter p = t.filter p := by
  unfold tabPut
  split
  · exact filter_tabErase t q p h
  · rw [filter_tabInsert _ _ _ _ h, filter_tabErase _ _ _ h]

theorem fldKey_div (f : Fld) (i j : Nat) : fldKey f i j / 65536 = f.id := by
  unfold fldKey
  omega

/-! ### Narrower and wider footprints -/

theorem inFoot_trans {a b c : Nat} (hab : inFoot a b = true) (hbc : inFoot b c = true) : inFoot a c = true := by
  have h1 : a ||| b = b := eq_of_beq hab
  have h2 : b ||| c = c := eq_of_beq hbc
  exact beq_iff_eq.2 (by rw [← h2, ← Nat.or_assoc, h1])

theorem ite_ite_of_imp {α : Type} {p q : Bool} (h : p = true → q = true) (x y : α) :
    (if q then x else if p then x else y) = if q then x else y := by
  cases p <;> cases q <;> simp_all

/-- Blanking a footprint first changes nothing of blanking a wider one. -/
theorem keep_keep {a m : Nat} (hm : inFoot a m = true) (d : Dev) : keep m (keep a d) = keep m d := by
  have hbit (k : Nat) : a.testBit k = true → m.testBit k = true := testBit_of_inFoot hm
  have hregs : (keep a d).regs.filter (fun c => !m.testBit (32 + c.1 / 65536)) =
      d.regs.filter fun c => !m.testBit (32 + c.1 / 65536) := by
    simp only [keep, List.filter_filter]
    refine List.filter_congr fun c _ => ?_
    have := hbit (32 + c.1 / 65536)
    cases ha : a.testBit (32 + c.1 / 65536) <;> simp_all
  have hpart (k : Nat) {α : Type} (x y : α) : (if m.testBit k then x else if a.testBit k then x else y) =
      if m.testBit k then x else y := ite_ite_of_imp (hbit k) x y
  rw [keep, hregs]
  simp only [keep, hpart]

/-- An operation keeps what a wider footprint leaves of it. -/
theorem keep_mono {a m : Nat} {d e : Dev} (hm : inFoot a m = true) (h : keep a e = keep a d) : keep m e = keep m d := by
  rw [← keep_keep hm e, h, keep_keep hm d]

/-! ### The updates that everything is made of -/

section
variable {m : Nat} (d : Dev)

theorem keep_wr (f : Fld) (v i j : Nat) (h : m.testBit (32 + f.id) = true) : keep m (d.wr f v i j) = keep m d := by
  have hfilter := filter_tabPut (fldReset f j) d.regs (fldKey f i j) (v % 2 ^ f.w) (fun c => !m.testBit (32 + c.1 / 65536))
    fun _ => by simp [fldKey_div, h]
  simp only [keep, Dev.wr, hfilter]

section
variable (f : Fld) (i j : Nat) (h : m.testBit (32 + f.id) = true)
include h
theorem keep_setFlag (b : Bool) : keep m (d.setFlag f b i j) = keep m d := keep_wr d f _ i j h
theorem keep_addWrap (n : Nat) : keep m (d.addWrap f n i j) = keep m d := keep_wr d f _ i j h
theorem keep_addSat (n : Nat) : keep m (d.addSat f n i j) = keep m d := keep_wr d f _ i j h
theorem keep_sub (n : Nat) : keep m (d.sub f n i j) = keep m d := keep_wr d f _ i j h
theorem keep_setBit (b : Nat) (v : Bool) : keep m (d.setBit f b v i j) = keep m d := keep_wr d f _ i j h
theorem keep_wrInt (v : Int) : keep m (d.wrInt f v i j) = keep m d := keep_wr d f _ i j h
end

theorem keep_setFlag_of_mem {f : Fld} {fs : List Fld} (hfs : ∀ g ∈ fs, m.testBit (32 + g.id) = true) (hf : f ∈ fs) (b : Bool)
    (i j : Nat := 0) : keep m (d.setFlag f b i j) = keep m d := keep_setFlag d f i j (hfs f hf) b

theorem keep_part_out (x : List Emit) (h : m.testBit Part.out.ctorIdx = true) : keep m { d with out := x } = keep m d := by
  simp only [keep, h, if_true]
theorem keep_part_draws (x : Nat) (h : m.testBit Part.draws.ctorIdx = true) : keep m { d with draws := x } = keep m d := by
  simp only [keep, h, if_true]
theorem keep_part_xb (x : XbState) (h : m.testBit Part.xb.ctorIdx = true) : keep m { d with xb := x } = keep m d := by
  simp only [keep, h, if_true]
theorem keep_part_ecc (x : EccState) (h : m.testBit Part.ecc.ctorIdx = true) : keep m { d with ecc := x } = keep m d := by
  simp only [keep, h, if_true]
theorem keep_part_struct (x : StructState) (h : m.testBit Part.struct.ctorIdx = true) : keep m { d with struct := x } = keep m d := by
  simp only [keep, h, if_true]
theorem keep_part_seqs (x : List (Nat × Seq)) (h : m.testBit Part.seqs.ctorIdx = true) : keep m { d with seqs := x } = keep m d := by
  simp only [keep, h, if_true]
theorem keep_part_chns (x : List (Nat × Chn)) (h : m.testBit Part.chns.ctorIdx = true) : keep m { d with chns := x } = keep m d := by
  simp only [keep, h, if_true]
theorem keep_part_host (x : HostState) (h : m.testBit Part.host.ctorIdx = true) : keep m { d with host := x } = keep m d := by
  simp only [keep, h, if_true]
theorem keep_part_chain (x : ChainState) (h : m.testBit Part.chain.ctorIdx = true) : keep m { d with chain := x } = keep m d := by
  simp only [keep, h, if_true]
theorem keep_part_cipher (x : CipherState) (h : m.testBit Part.cipher.ctorIdx = true) : keep m { d with cipher := x } = keep m d := by
  simp only [keep, h, if_true]
theorem keep_part_comp (x : CompState) (h : m.testBit Part.comp.ctorIdx = true) : keep m { d with comp := x } = keep m d := by
  simp only [keep, h, if_true]
theorem keep_part_servos (x : List (Nat × Servo)) (h : m.testBit Part.servos.ctorIdx = true) : keep m { d with servos := x } = keep m d := by
  simp only [keep, h, if_true]
theorem keep_part_spins (x : List (Nat × Spin)) (h : m.testBit Part.spins.ctorIdx = true) : keep m { d with spins := x } = keep m d := by
  simp only [keep, h, if_true]
theorem keep_part_power (x : PowerState) (h : m.testBit Part.power.ctorIdx = true) : keep m { d with power := x } = keep m d := by
  simp only [keep, h, if_true]
theorem keep_part_therm (x : ThermState) (h : m.testBit Part.therm.ctorIdx = true) : keep m { d with therm := x } = keep m d := by
  simp only [keep, h, if_true]
theorem keep_part_reset (x : ResetState) (h : m.testBit Part.reset.ctorIdx = true) : keep m { d with reset := x } = keep m d := by
  simp only [keep, h, if_true]
theorem keep_part_card (x : CardState) (h : m.testBit Part.card.ctorIdx = true) : keep m { d with card := x } = keep m d := by
  simp only [keep, h, if_true]
theorem keep_part_sec (x : SecState) (h : m.testBit Part.sec.ctorIdx = true) : keep m { d with sec := x } = keep m d := by
  simp only [keep, h, if_true]
theorem keep_part_fw (x : FwState) (h : m.testBit Part.fw.ctorIdx = true) : keep m { d with fw := x } = keep m d := by
  simp only [keep, h, if_true]
theorem keep_part_map (x : MapState) (h : m.testBit Part.map.ctorIdx = true) : keep m { d with map := x } = keep m d := by
  simp only [keep, h, if_true]
theorem keep_emit (e : Emit) (h : m.testBit Part.out.ctorIdx = true) : keep m (d.emit e) = keep m d := keep_part_out d _ h
theorem keep_draw (h : m.testBit Part.draws.ctorIdx = true) : keep m d.draw.2 = keep m d := keep_part_draws d _ h
theorem keep_updCard (g : CardState → CardState) (h : m.testBit Part.card.ctorIdx = true) :
    keep m (d.updCard g) = keep m d := keep_part_card d _ h
theorem keep_updTherm (g : ThermState → ThermState) (h : m.testBit Part.therm.ctorIdx = true) :
    keep m (d.updTherm g) = keep m d := keep_part_therm d _ h
theorem keep_updEcc (g : EccState → EccState) (h : m.testBit Part.ecc.ctorIdx = true) :
    keep m (d.updEcc g) = keep m d := keep_part_ecc d _ h
theorem keep_updHost (g : HostState → HostState) (h : m.testBit Part.host.ctorIdx = true) :
    keep m (d.updHost g) = keep m d := keep_part_host d _ h
theorem keep_updCipher (g : CipherState → CipherState) (h : m.testBit Part.cipher.ctorIdx = true) :
    keep m (d.updCipher g) = keep m d := keep_part_cipher d _ h
theorem keep_updReset (g : ResetState → ResetState) (h : m.testBit Part.reset.ctorIdx = true) :
    keep m (d.updReset g) = keep m d := keep_part_reset d _ h
theorem keep_updPower (g : PowerState → PowerState) (h : m.testBit Part.power.ctorIdx = true) :
    keep m (d.updPower g) = keep m d := keep_part_power d _ h
theorem keep_updSec (g : SecState → SecState) (h : m.testBit Part.sec.ctorIdx = true) :
    keep m (d.updSec g) = keep m d := keep_part_sec d _ h
theorem keep_updStruct (g : StructState → StructState) (h : m.testBit Part.struct.ctorIdx = true) :
    keep m (d.updStruct g) = keep m d := keep_part_struct d _ h
theorem keep_updComp (g : CompState → CompState) (h : m.testBit Part.comp.ctorIdx = true) :
    keep m (d.updComp g) = keep m d := keep_part_comp d _ h
theorem keep_updMap (g : MapState → MapState) (h : m.testBit Part.map.ctorIdx = true) :
    keep m (d.updMap g) = keep m d := keep_part_map d _ h
theorem keep_updChain (g : ChainState → ChainState) (h : m.testBit Part.chain.ctorIdx = true) :
    keep m (d.updChain g) = keep m d := keep_part_chain d _ h
theorem keep_updXb (g : XbState → XbState) (h : m.testBit Part.xb.ctorIdx = true) :
    keep m (d.updXb g) = keep m d := keep_part_xb d _ h
theorem keep_updHealth (e : Nat) (g : Health → Health) (h : m.testBit Part.health.ctorIdx = true) :
    keep m (d.updHealth e g) = keep m d := by
  simp only [keep, Dev.updHealth, h, if_true]

/-! ### Choices and repetitions -/

theorem keep_ite (c : Prop) [Decidable c] (e : Dev) : keep m (if c then d else e) = if c then keep m d else keep m e :=
  apply_ite (keep m) c d e

theorem keep_ite_of {c : Prop} [Decidable c] {a b x : Dev} (ha : keep m a = keep m x) (hb : keep m b = keep m x) :
    keep m (if c then a else b) = keep m x := by
  split
  · exact ha
  · exact hb

theorem keep_ite_fst {α : Type} (c : Prop) [Decidable c] (a b : Dev × α) :
    keep m (if c then a else b).1 = if c then keep m a.1 else keep m b.1 := apply_ite (fun x : Dev × α => keep m x.1) c a b

theorem keep_ite_snd {α : Type} (c : Prop) [Decidable c] (a b : α × Dev) :
    keep m (if c then a else b).2 = if c then keep m a.2 else keep m b.2 := apply_ite (fun x : α × Dev => keep m x.2) c a b

theorem keep_when (c : Bool) (g : Dev → Dev) (hg : ∀ e, keep m (g e) = keep m e) : keep m (d.when c g) = keep m d := by
  unfold Dev.when
  split
  · exact hg d
  · rfl

theorem keep_onSlot (n : Nat) (g : Dev → Dev) (hg : ∀ e, keep m (g e) = keep m e) : keep m (d.onSlot n g) = keep m d :=
  keep_when d _ g hg

theorem keep_heedSlot (n : Nat) (g : Dev → Dev) (hg : ∀ e, keep m (g e) = keep m e) : keep m (d.heedSlot n g) = keep m d :=
  keep_when d _ g hg

theorem keep_foldl {α : Type} (l : List α) (g : Dev → α → Dev) (h : ∀ e x, keep m (g e x) = keep m e) :
    keep m (l.foldl g d) = keep m d := by
  induction l generalizing d with
  | nil => rfl
  | cons x l ih => exact (ih (g d x)).trans (h d x)

theorem keep_forEach {α : Type} (l : List α) (g : Dev → α → Dev) (h : ∀ e x, keep m (g e x) = keep m e) :
    keep m (forEach l d g) = keep m d := keep_foldl d l g h

theorem keep_foldl_snd {α β : Type} (l : List α) (g : β × Dev → α → β × Dev) (h : ∀ acc x, keep m (g acc x).2 = keep m acc.2)
    (acc : β × Dev) : keep m (l.foldl g acc).2 = keep m acc.2 := by
  induction l generalizing acc with
  | nil => rfl
  | cons x l ih => exact (ih (g acc x)).trans (h acc x)

theorem keep_foldl_fst {α β : Type} (l : List α) (g : Dev × β → α → Dev × β) (h : ∀ acc x, keep m (g acc x).1 = keep m acc.1)
    (acc : Dev × β) : keep m (l.foldl g acc).1 = keep m acc.1 := by
  induction l generalizing acc with
  | nil => rfl
  | cons x l ih => exact (ih (g acc x)).trans (h acc x)

theorem keep_forEach_of_mem {α : Type} (l : List α) (g : Dev → α → Dev) (h : ∀ e, ∀ x ∈ l, keep m (g e x) = keep m e) :
    keep m (forEach l d g) = keep m d := by
  induction l generalizing d with
  | nil => rfl
  | cons x l ih => exact (ih (g d x) fun e y hy => h e y (by simp [hy])).trans (h d x (by simp))

theorem keep_wrAll (f : Fld) (i : Nat) (vs : List Nat) (h : m.testBit (32 + f.id) = true) : keep m (wrAll d f i vs) = keep m d :=
  keep_forEach d _ _ fun e v => keep_wr e f v.1 i v.2 h

end

/-! ### What a footprint says of the parts and fields outside it -/

theorem testBit_foldl_or {α : Type} (l : List α) (k : α → Nat) (n b : Nat) :
    (l.foldl (fun n x => n ||| 1 <<< k x) n).testBit b = (n.testBit b || l.any fun x => k x == b) := by
  induction l generalizing n with
  | nil => simp
  | cons x l ih =>
    rw [List.foldl_cons, ih, Nat.one_shiftLeft, Nat.testBit_or, Nat.testBit_two_pow, Bool.or_assoc, List.any_cons, beq_eq_decide]

theorem Part.ctorIdx_lt (p : Part) : p.ctorIdx < 32 := by cases p <;> decide

theorem Part.ctorIdx_inj {p q : Part} (h : p.ctorIdx = q.ctorIdx) : p = q := by
  have hall : ∀ p q : Part, p.ctorIdx = q.ctorIdx → p = q := by
    intro p
    cases p <;> intro q <;> cases q <;> decide
  exact hall p q h

theorem footOf_part {ps : List Part} {p : Part} (fs : List Fld) (h : p ∉ ps) : (footOf ps fs).testBit p.ctorIdx = false := by
  have hlt := p.ctorIdx_lt
  simp only [footOf, Nat.testBit_or, testBit_foldl_or, Nat.zero_testBit, Bool.false_or, Bool.or_eq_false_iff, List.any_eq_false,
    beq_iff_eq]
  exact ⟨fun q hq hqp => h (Part.ctorIdx_inj hqp ▸ hq), fun f _ hf => by omega⟩

theorem footOf_fld (ps : List Part) {fs : List Fld} {f : Fld} (h : f.id ∉ fs.map (·.id)) :
    (footOf ps fs).testBit (32 + f.id) = false := by
  simp only [footOf, Nat.testBit_or, testBit_foldl_or, Nat.zero_testBit, Bool.false_or, Bool.or_eq_false_iff, List.any_eq_false,
    beq_iff_eq]
  exact ⟨fun q _ hq => by have := q.ctorIdx_lt; omega, fun g hg hgf => h (List.mem_map.2 ⟨g, hg, by omega⟩)⟩

section
variable {m : Nat} {d e : Dev} (h : keep m e = keep m d)
include h

/-- A field outside the footprint reads as before. -/
theorem rd_of_keep {f : Fld} (hf : m.testBit (32 + f.id) = false) (i j : Nat) : e.rd f i j = d.rd f i j := by
  have hread (d : Dev) : d.rd f i j = tabGet (fldReset f j) (keep m d).regs (fldKey f i j) := by
    have := tabGet_filter_key (fldReset f j) (fun k => !m.testBit (32 + k / 65536)) d.regs (fldKey f i j)
    rw [fldKey_div, hf] at this
    exact this.symm
  rw [hread e, h, ← hread d]

theorem out_of_keep (hp : m.testBit Part.out.ctorIdx = false) : e.out = d.out := by
  have := congrArg Dev.out h
  simpa only [keep, hp, Bool.false_eq_true, if_false] using this
theorem draws_of_keep (hp : m.testBit Part.draws.ctorIdx = false) : e.draws = d.draws := by
  have := congrArg Dev.draws h
  simpa only [keep, hp, Bool.false_eq_true, if_false] using this
theorem xb_of_keep (hp : m.testBit Part.xb.ctorIdx = false) : e.xb = d.xb := by
  have := congrArg Dev.xb h
  simpa only [keep, hp, Bool.false_eq_true, if_false] using this
theorem ecc_of_keep (hp : m.testBit Part.ecc.ctorIdx = false) : e.ecc = d.ecc := by
  have := congrArg Dev.ecc h
  simpa only [keep, hp, Bool.false_eq_true, if_false] using this
theorem struct_of_keep (hp : m.testBit Part.struct.ctorIdx = false) : e.struct = d.struct := by
  have := congrArg Dev.struct h
  simpa only [keep, hp, Bool.false_eq_true, if_false] using this
theorem seqs_of_keep (hp : m.testBit Part.seqs.ctorIdx = false) : e.seqs = d.seqs := by
  have := congrArg Dev.seqs h
  simpa only [keep, hp, Bool.false_eq_true, if_false] using this
theorem chns_of_keep (hp : m.testBit Part.chns.ctorIdx = false) : e.chns = d.chns := by
  have := congrArg Dev.chns h
  simpa only [keep, hp, Bool.false_eq_true, if_false] using this
theorem host_of_keep (hp : m.testBit Part.host.ctorIdx = false) : e.host = d.host := by
  have := congrArg Dev.host h
  simpa only [keep, hp, Bool.false_eq_true, if_false] using this
theorem chain_of_keep (hp : m.testBit Part.chain.ctorIdx = false) : e.chain = d.chain := by
  have := congrArg Dev.chain h
  simpa only [keep, hp, Bool.false_eq_true, if_false] using this
theorem cipher_of_keep (hp : m.testBit Part.cipher.ctorIdx = false) : e.cipher = d.cipher := by
  have := congrArg Dev.cipher h
  simpa only [keep, hp, Bool.false_eq_true, if_false] using this
theorem comp_of_keep (hp : m.testBit Part.comp.ctorIdx = false) : e.comp = d.comp := by
  have := congrArg Dev.comp h
  simpa only [keep, hp, Bool.false_eq_true, if_false] using this
theorem servos_of_keep (hp : m.testBit Part.servos.ctorIdx = false) : e.servos = d.servos := by
  have := congrArg Dev.servos h
  simpa only [keep, hp, Bool.false_eq_true, if_false] using this
theorem spins_of_keep (hp : m.testBit Part.spins.ctorIdx = false) : e.spins = d.spins := by
  have := congrArg Dev.spins h
  simpa only [keep, hp, Bool.false_eq_true, if_false] using this
theorem power_of_keep (hp : m.testBit Part.power.ctorIdx = false) : e.power = d.power := by
  have := congrArg Dev.power h
  simpa only [keep, hp, Bool.false_eq_true, if_false] using this
theorem therm_of_keep (hp : m.testBit Part.therm.ctorIdx = false) : e.therm = d.therm := by
  have := congrArg Dev.therm h
  simpa only [keep, hp, Bool.false_eq_true, if_false] using this
theorem reset_of_keep (hp : m.testBit Part.reset.ctorIdx = false) : e.reset = d.reset := by
  have := congrArg Dev.reset h
  simpa only [keep, hp, Bool.false_eq_true, if_false] using this
theorem card_of_keep (hp : m.testBit Part.card.ctorIdx = false) : e.card = d.card := by
  have := congrArg Dev.card h
  simpa only [keep, hp, Bool.false_eq_true, if_false] using this
theorem sec_of_keep (hp : m.testBit Part.sec.ctorIdx = false) : e.sec = d.sec := by
  have := congrArg Dev.sec h
  simpa only [keep, hp, Bool.false_eq_true, if_false] using this
theorem fw_of_keep (hp : m.testBit Part.fw.ctorIdx = false) : e.fw = d.fw := by
  have := congrArg Dev.fw h
  simpa only [keep, hp, Bool.false_eq_true, if_false] using this
theorem map_of_keep (hp : m.testBit Part.map.ctorIdx = false) : e.map = d.map := by
  have := congrArg Dev.map h
  simpa only [keep, hp, Bool.false_eq_true, if_false] using this
theorem health_of_keep (hp : m.testBit Part.health.ctorIdx = false) : e.health = d.health ∧ e.healthGen = d.healthGen := by
  have hlog := congrArg Dev.health h
  have hgen := congrArg Dev.healthGen h
  simp only [keep, hp, Bool.false_eq_true, if_false] at hlog hgen
  exact ⟨hlog, hgen⟩
end

/-- What keeps the places outside the named parts and fields meets the frame (`Changes`) of a command. -/
theorem frame_of_keep {ps : List Part} {fs : List Fld} {s t : State} (hmem : t.mem = s.mem)
    (h : keep (footOf ps fs) t.dev = keep (footOf ps fs) s.dev) :
    (∀ p, p ∉ ps → p.same s t) ∧ KeepsRegs (fs.map (·.id)) s.dev t.dev := by
  refine ⟨fun p hp => ?_, fun f i j hf => rd_of_keep h (footOf_fld ps hf) i j⟩
  have hbit := footOf_part fs hp
  cases p with
  | mem => exact hmem
  | health => exact health_of_keep h hbit
  | out => exact out_of_keep h hbit
  | draws => exact draws_of_keep h hbit
  | xb => exact xb_of_keep h hbit
  | ecc => exact ecc_of_keep h hbit
  | struct => exact struct_of_keep h hbit
  | seqs => exact seqs_of_keep h hbit
  | chns => exact chns_of_keep h hbit
  | host => exact host_of_keep h hbit
  | chain => exact chain_of_keep h hbit
  | cipher => exact cipher_of_keep h hbit
  | comp => exact comp_of_keep h hbit
  | servos => exact servos_of_keep h hbit
  | spins => exact spins_of_keep h hbit
  | power => exact power_of_keep h hbit
  | therm => exact therm_of_keep h hbit
  | reset => exact reset_of_keep h hbit
  | card => exact card_of_keep h hbit
  | sec => exact sec_of_keep h hbit
  | fw => exact fw_of_keep h hbit
  | map => exact map_of_keep h hbit

/-- The frame of a command that is an effect on the device alone. -/
theorem changes_of_keep {c : Instr} {ps : List Part} {fs : List Fld}
    (h : ∀ s, ∃ g, exec c s = lift s g ∧ ∀ d, keep (footOf ps fs) (g d) = keep (footOf ps fs) d) : Changes c ps fs := by
  intro s t ht
  obtain ⟨g, hc, hg⟩ := h s
  rw [hc] at ht
  obtain rfl := Host.Outcome.next.inj ht
  exact frame_of_keep rfl (hg s.dev)

/-- The frame of a command that may change the windows. -/
theorem changes_of_keep_mem {c : Instr} {ps : List Part} {fs : List Fld}
    (h : ∀ s, ∃ g, exec c s = liftMem s g ∧ ∀ d m, keep (footOf ps fs) (g d m).1 = keep (footOf ps fs) d)
    (hmem : Part.mem ∈ ps) : Changes c ps fs := by
  intro s t ht
  obtain ⟨g, hc, hg⟩ := h s
  rw [hc] at ht
  obtain rfl := Host.Outcome.next.inj ht
  obtain ⟨hparts, hregs⟩ := frame_of_keep (s := s) (t := { s with dev := (g s.dev s.mem).1 }) rfl (hg s.dev s.mem)
  refine ⟨fun p hp => ?_, hregs⟩
  cases p with
  | mem => exact absurd hmem hp
  | _ => exact hparts _ hp

end Sys2Proof.Machine
end

section
/-! PROOF. Footprints (1 of 10): service operations of every area. An operation's footprint joins what it writes itself with the
footprints of the operations it calls, and its lemma says that it keeps everything else. -/
namespace Sys2Proof.Machine

def updSeqFoot : Nat := footOf [.seqs] []
theorem keep_updSeq {ft : Nat} (hft : inFoot updSeqFoot ft = true) (d : Dev) (a : Nat) (g : Seq → Seq) : keep ft (d.updSeq a g)
    = keep ft d :=
  keep_mono hft (by simp +decide only [Dev.updSeq, ↓keep_part_seqs])

def updChnFoot : Nat := footOf [.chns] []
theorem keep_updChn {ft : Nat} (hft : inFoot updChnFoot ft = true) (d : Dev) (c : Nat) (g : Chn → Chn) : keep ft (d.updChn c g)
    = keep ft d :=
  keep_mono hft (by simp +decide only [Dev.updChn, ↓keep_part_chns])

def emitSlotFoot : Nat := footOf [.out] []
theorem keep_emitSlot {ft : Nat} (hft : inFoot emitSlotFoot ft = true) (d : Dev) (n : Nat) (e : Emit) : keep ft (d.emitSlot n e)
    = keep ft d :=
  keep_mono hft (by simp +decide only [Dev.emitSlot, ↓keep_emit, ↓keep_onSlot, implies_true])

def updAccFoot : Nat := footOf [.card] []
theorem keep_updAcc {ft : Nat} (hft : inFoot updAccFoot ft = true) (d : Dev) (g : Acc → Acc) : keep ft (d.updAcc g) = keep ft d
    :=
  keep_mono hft (by simp +decide only [Dev.updAcc, ↓keep_updCard])

def cardCountFoot : Nat := footOf [.card] []
theorem keep_cardCount {ft : Nat} (hft : inFoot cardCountFoot ft = true) (d : Dev) (i n : Nat) : keep ft (cardCount d i n) =
    keep ft d :=
  keep_mono hft (by simp +decide only [cardCount, ↓keep_updAcc, ↓keep_ite, ite_self])

def cardEpochFoot : Nat := footOf [.card] []
theorem keep_cardEpoch {ft : Nat} (hft : inFoot cardEpochFoot ft = true) (d : Dev) (i n : Nat) : keep ft (cardEpoch d i n) =
    keep ft d :=
  keep_mono hft (by simp +decide only [cardEpoch, ↓keep_updAcc])

def cardBinFoot : Nat := footOf [.card] []
theorem keep_cardBin {ft : Nat} (hft : inFoot cardBinFoot ft = true) (d : Dev) (k n : Nat) : keep ft (cardBin d k n) = keep ft d
    :=
  keep_mono hft (by simp +decide only [cardBin, ↓keep_updAcc])

def cardExtremeFoot : Nat := footOf [.card] []
theorem keep_cardExtreme {ft : Nat} (hft : inFoot cardExtremeFoot ft = true) (d : Dev) (i : Nat) (v : Int) : keep ft
    (cardExtreme d i v) = keep ft d :=
  keep_mono hft (by simp +decide only [cardExtreme, ↓keep_updAcc])

def makeDueFoot : Nat := footOf [] [F.calDue_due]
theorem keep_makeDue {ft : Nat} (hft : inFoot makeDueFoot ft = true) (d : Dev) (kind inst : Nat) : keep ft (makeDue d kind inst)
    = keep ft d :=
  keep_mono hft (by simp +decide only [makeDue, ↓keep_setBit, ↓keep_ite, ite_self])

def makeHeadDueFoot : Nat := footOf [.therm] [F.calDue_due]
theorem keep_makeHeadDue {ft : Nat} (hft : inFoot makeHeadDueFoot ft = true) (d : Dev) (a h : Nat) : keep ft (makeHeadDue d a h)
    = keep ft d :=
  keep_mono hft (by simp +decide only [makeHeadDue, ↓keep_updTherm, ↓keep_makeDue])

def makeAllDueFoot : Nat := footOf [.therm] [F.calDue_due]
theorem keep_makeAllDue {ft : Nat} (hft : inFoot makeAllDueFoot ft = true) (d : Dev) (kind inst : Nat) : keep ft (makeAllDue d
    kind inst) = keep ft d :=
  keep_mono hft (by simp +decide only [makeAllDue, ↓keep_makeDue, ↓keep_makeHeadDue, ↓keep_forEach, ↓keep_ite, ite_self,
    implies_true])

def trimStepFoot : Nat := footOf [.therm] []
theorem keep_trimStep {ft : Nat} (hft : inFoot trimStepFoot ft = true) (d : Dev) (kind inst : Nat) : keep ft (trimStep d kind
    inst) = keep ft d :=
  keep_mono hft (by simp +decide only [trimStep, ↓keep_updTherm])

def syncChnFoot : Nat := footOf [] [F.sqrStat_q_a, F.sqrStat_q_b, F.chnStat_unacked, F.chnStat_held, F.chnStat_dec_busy,
  F.chnStat_buf_used, F.chnWstat_wfifo]
theorem keep_syncChn {ft : Nat} (hft : inFoot syncChnFoot ft = true) (d : Dev) (c : Nat) : keep ft (syncChn d c) = keep ft d :=
  keep_mono hft (by simp +decide only [syncChn, ↓keep_wr, ↓keep_ite, ite_self])

def updEntryFoot : Nat := footOf [.chns] []
theorem keep_updEntry {ft : Nat} (hft : inFoot updEntryFoot ft = true) (d : Dev) (c seq : Nat) (g : SectorEntry → SectorEntry) :
    keep ft (updEntry d c seq g) = keep ft d :=
  keep_mono hft (by simp +decide only [updEntry, ↓keep_updChn])

def countErasedFoot : Nat := footOf [] [F.chnCnt_count]
theorem keep_countErased {ft : Nat} (hft : inFoot countErasedFoot ft = true) (d : Dev) (c : Nat) (before after : Bool) : keep ft
    (countErased d c before after) = keep ft d :=
  keep_mono hft (by simp +decide only [countErased, ↓keep_addWrap, ↓keep_ite, ite_self])

def seeDefectsFoot : Nat := footOf [.chns] [F.chnCnt_count]
theorem keep_seeDefects {ft : Nat} (hft : inFoot seeDefectsFoot ft = true) (d : Dev) (c seq : Nat) (xs : List Defect) : keep ft
    (seeDefects d c seq xs) = keep ft d :=
  keep_mono hft (by simp +decide only [seeDefects]; split <;> simp +decide only
    [↓keep_updEntry, ↓keep_countErased])

def presetLoopFoot : Nat := footOf [] [F.chnTloop_preset]
theorem keep_presetLoop {ft : Nat} (hft : inFoot presetLoopFoot ft = true) (d : Dev) (c : Nat) : keep ft (presetLoop d c) = keep
    ft d :=
  keep_mono hft (by simp +decide only [presetLoop, ↓keep_wr])

def reportResultFoot : Nat := footOf [] [F.chnResult_seq, F.chnResult_status, F.chnResult_framing, F.chnResult_k,
  F.chnResult_iter, F.chnResult_errs, F.chnResult_poison, F.chnResult_defect, F.chnResult_reader, F.chnResult_step,
  F.chnResult_skipped, F.chnResult_resync_bad]
theorem keep_reportResult {ft : Nat} (hft : inFoot reportResultFoot ft = true) (d : Dev) (c : Nat) (e : SectorEntry) (iters errs
    step reader : Nat) (skipped : Bool) : keep ft (reportResult d c e iters errs step reader skipped) = keep ft d :=
  keep_mono hft (by simp +decide only [reportResult, ↓keep_wr, ↓keep_wrInt, ↓keep_setFlag])

def dropEntryFoot : Nat := footOf [.chns] [] ||| reportResultFoot
theorem keep_dropEntry {ft : Nat} (hft : inFoot dropEntryFoot ft = true) (d : Dev) (c : Nat) (e : SectorEntry) (acked : Bool) :
    keep ft (dropEntry d c e acked) = keep ft d :=
  keep_mono hft (by simp +decide only [dropEntry, ↓keep_updChn, ↓keep_reportResult, ↓keep_ite, ite_self])

def ackSectorFoot : Nat := dropEntryFoot ||| syncChnFoot
theorem keep_ackSector {ft : Nat} (hft : inFoot ackSectorFoot ft = true) (d : Dev) (c : Nat) : keep ft (ackSector d c) = keep ft
    d :=
  keep_mono hft (by simp +decide only [ackSector]; split <;> simp +decide only
    [↓keep_updChn, ↓keep_syncChn, ↓keep_dropEntry])

def unsafeRefreshFoot : Nat := footOf [] [F.chnWstat_unsafe]
theorem keep_unsafeRefresh {ft : Nat} (hft : inFoot unsafeRefreshFoot ft = true) (d : Dev) (c : Nat) : keep ft (unsafeRefresh d
    c) = keep ft d :=
  keep_mono hft (by simp +decide only [unsafeRefresh, ↓keep_setFlag])

def flyUpdateFoot : Nat := footOf [.out, .chns] [F.chnWstat_fly_ok]
theorem keep_flyUpdate {ft : Nat} (hft : inFoot flyUpdateFoot ft = true) (d : Dev) (c : Nat) : keep ft (flyUpdate d c) = keep ft
    d :=
  keep_mono hft (by simp +decide only [flyUpdate, ↓keep_setFlag, ↓keep_updChn, ↓keep_emitSlot, ↓keep_ite, ite_self])

def writeResultFoot : Nat := footOf [] [F.chnWresult_sector, F.chnWresult_status, F.chnWresult_cause, F.chnWcnt_count]
theorem keep_writeResult {ft : Nat} (hft : inFoot writeResultFoot ft = true) (d : Dev) (c sector status : Nat) : keep ft
    (writeResult d c sector status) = keep ft d :=
  keep_mono hft (by simp +decide only [writeResult, ↓keep_wr, ↓keep_addWrap])

def finishSlotFoot : Nat := footOf [.out, .chns, .health] [] ||| writeResultFoot
theorem keep_finishSlot {ft : Nat} (hft : inFoot finishSlotFoot ft = true) (d : Dev) (c : Nat) : keep ft (finishSlot d c) = keep
    ft d :=
  keep_mono hft (by unfold finishSlot; split <;> simp +decide only [↓keep_emit, ↓keep_updChn, ↓keep_updHealth, ↓keep_writeResult])

def endWriteFoot : Nat := footOf [.out, .chns, .therm] [F.chnWstat_unsafe, F.chnWstat_unsafe_now, F.chnWstat_fly_ok] |||
  writeResultFoot
theorem keep_endWrite {ft : Nat} (hft : inFoot endWriteFoot ft = true) (d : Dev) (c : Nat) : keep ft (endWrite d c) = keep ft d
    :=
  keep_mono hft (by simp +decide only [endWrite, ↓keep_setBit, ↓keep_updChn, ↓keep_trimStep, ↓keep_unsafeRefresh, ↓keep_flyUpdate,
    ↓keep_ite, ite_self]; split <;> simp +decide only [↓keep_writeResult])

def shutReadFoot : Nat := footOf [.chns, .therm] [F.chnStat_timing_lock]
theorem keep_shutRead {ft : Nat} (hft : inFoot shutReadFoot ft = true) (d : Dev) (c : Nat) : keep ft (shutRead d c) = keep ft d
    :=
  keep_mono hft (by simp +decide only [shutRead, ↓keep_setFlag, ↓keep_updChn, ↓keep_trimStep, ↓keep_ite, ite_self])

def closeWriteFoot : Nat := footOf [] [F.chnWstat_assist_ok] ||| endWriteFoot
theorem keep_closeWrite {ft : Nat} (hft : inFoot closeWriteFoot ft = true) (d : Dev) (c : Nat) : keep ft (closeWrite d c) = keep
    ft d :=
  keep_mono hft (by simp +decide only [closeWrite, ↓keep_setFlag, ↓keep_emit, ↓keep_updChn, ↓keep_endWrite, ↓keep_ite, ite_self])

def closePermitFoot : Nat := footOf [.seqs] [F.sqrStat_permit] ||| closeWriteFoot
theorem keep_closePermit {ft : Nat} (hft : inFoot closePermitFoot ft = true) (d : Dev) (a : Nat) : keep ft (closePermit d a) =
    keep ft d :=
  keep_mono hft (by simp +decide only [closePermit, ↓keep_setFlag, ↓keep_updSeq, ↓keep_closeWrite, ↓keep_forEach, implies_true])

theorem keep_closePermitOf {ft : Nat} (hft : inFoot closePermitFoot ft = true) (d : Dev) (c : Nat) : keep ft (closePermitOf d c)
    = keep ft d :=
  keep_mono hft (by simp +decide only [closePermitOf, ↓keep_closePermit, ↓keep_ite, ite_self])

def setCauseFoot : Nat := footOf [.health] [F.chnWstat_unsafe_seen] ||| closePermitFoot
theorem keep_setCause {ft : Nat} (hft : inFoot setCauseFoot ft = true) (d : Dev) (c bit : Nat) (v : Bool) : keep ft (setCause d
    c bit v) = keep ft d :=
  keep_mono hft (by simp +decide only [setCause, ↓keep_setBit, ↓keep_addWrap, ↓keep_updHealth, ↓keep_unsafeRefresh,
    ↓keep_closeWrite, ↓keep_closePermitOf, ↓keep_ite, ite_self])

def loseLockFoot : Nat := footOf [] [F.chnWstat_wlock] ||| setCauseFoot
theorem keep_loseLock {ft : Nat} (hft : inFoot loseLockFoot ft = true) (d : Dev) (c : Nat) : keep ft (loseLock d c) = keep ft d
    :=
  keep_mono hft (by simp +decide only [loseLock, ↓keep_setFlag, ↓keep_setCause, ↓keep_ite, ite_self])

def pllArmFoot : Nat := footOf [] [F.chnWctl_arm] ||| loseLockFoot
theorem keep_pllArm {ft : Nat} (hft : inFoot pllArmFoot ft = true) (c : Nat) (arm : Bool) (d : Dev) : keep ft (pllArm c arm d) =
    keep ft d :=
  keep_mono hft (by simp +decide only [pllArm, ↓keep_setFlag, ↓keep_updChn, ↓keep_loseLock, ↓keep_ite, ite_self])

def seqStopFoot : Nat := footOf [] [F.sqrStat_state, F.sqrStat_sp, F.sqrStat_in_cust, F.sqrStat_status, F.sqrStat_cause,
  F.chnStat_timing_lock] ||| dropEntryFoot ||| closePermitFoot ||| syncChnFoot
theorem keep_seqStop {ft : Nat} (hft : inFoot seqStopFoot ft = true) (d : Dev) (a cause status : Nat) : keep ft (seqStop d a
    cause status) = keep ft d :=
  keep_mono hft (by simp (disch := (intros; simp +decide only [↓keep_wr, ↓keep_setFlag, ↓keep_emit, ↓keep_updSeq, ↓keep_updChn,
    ↓keep_syncChn, ↓keep_dropEntry, ↓keep_shutRead, ↓keep_closeWrite, ↓keep_closePermit, ↓keep_forEach, ↓keep_ite, ite_self,
    implies_true])) only [seqStop, ↓keep_wr, ↓keep_setFlag, ↓keep_emit, ↓keep_updSeq, ↓keep_closePermit, ↓keep_forEach, ↓keep_ite, ite_self])

def assistFaultFoot : Nat := footOf [] [F.calDue_due] ||| setCauseFoot
theorem keep_assistFault {ft : Nat} (hft : inFoot assistFaultFoot ft = true) (d : Dev) (c : Nat) : keep ft (assistFault d c) =
    keep ft d :=
  keep_mono hft (by simp +decide only [assistFault, ↓keep_addWrap, ↓keep_setFlag, ↓keep_updHealth, ↓keep_makeHeadDue,
    ↓keep_setCause])

def updLportFoot : Nat := footOf [.chain] []
theorem keep_updLport {ft : Nat} (hft : inFoot updLportFoot ft = true) (d : Dev) (p : Nat) (g : LPort → LPort) : keep ft
    (d.updLport p g) = keep ft d :=
  keep_mono hft (by simp +decide only [Dev.updLport, ↓keep_part_chain])

def sendFlitFoot : Nat := footOf [.out, .chain] []
theorem keep_sendFlit {ft : Nat} (hft : inFoot sendFlitFoot ft = true) (d : Dev) (p : Nat) (nak : Option Nat) : keep ft
    (sendFlit d p nak) = keep ft d :=
  keep_mono hft (by simp +decide only [sendFlit, ↓keep_emit, ↓keep_updLport])

def flitDueFoot : Nat := footOf [.out, .chain] []
theorem keep_flitDue {ft : Nat} (hft : inFoot flitDueFoot ft = true) (d : Dev) (p : Nat) : keep ft (flitDue d p) = keep ft d :=
  keep_mono hft (by simp +decide only [flitDue, ↓keep_sendFlit, ↓keep_ite, ite_self])

def freeRxFoot : Nat := footOf [.out, .chain] [F.lmlCred_rx_used]
theorem keep_freeRx {ft : Nat} (hft : inFoot freeRxFoot ft = true) (d : Dev) (arrival : Option Nat) (cls len : Nat) : keep ft
    (freeRx d arrival cls len) = keep ft d :=
  keep_mono hft (by simp +decide only [freeRx]; split <;> simp +decide only [↓keep_sub,
    ↓keep_updLport, ↓keep_flitDue])

def sendAsFoot : Nat := footOf [.out, .chain] [F.lmlRetry_next_seq, F.lmlRetry_buf_used, F.lmlRetry_sends, F.lmlCred_tx_avail]
theorem keep_sendAs {ft : Nat} (hft : inFoot sendAsFoot ft = true) (d : Dev) (p : Nat) (f : Frame) (arrival : Option Nat) (stomp
    : Bool) : keep ft (sendAs d p f arrival stomp) = keep ft d :=
  keep_mono hft (by simp +decide only [sendAs, ↓keep_addWrap, ↓keep_wr, ↓keep_sub, ↓keep_emit, ↓keep_updLport, ↓keep_ite,
    ite_self])

theorem keep_sendOn {ft : Nat} (hft : inFoot sendAsFoot ft = true) (d : Dev) (p : Nat) (f : Frame) (arrival : Option Nat) : keep
    ft (sendOn d p f arrival) = keep ft d :=
  keep_mono hft (by simp +decide only [sendOn, ↓keep_sendAs])

def putOnFoot : Nat := footOf [] [F.lmlCred_rx_used] ||| sendAsFoot
theorem keep_putOn {ft : Nat} (hft : inFoot putOnFoot ft = true) (d : Dev) (p : Nat) (tf : TxFrame) : keep ft (putOn d p tf) =
    keep ft d :=
  keep_mono hft (by simp +decide only [putOn, ↓keep_updLport, ↓keep_freeRx, ↓keep_sendOn, ↓keep_ite, ite_self])

def originateFoot : Nat := footOf [] [F.lmlEvt_unreach_drop] ||| putOnFoot
theorem keep_originate {ft : Nat} (hft : inFoot originateFoot ft = true) (d : Dev) (f : Frame) : keep ft (originate d f) = keep
    ft d :=
  keep_mono hft (by unfold originate; split <;> simp +decide only [↓keep_setFlag, ↓keep_putOn, ↓keep_part_chain, ↓keep_ite,
    ite_self])

theorem keep_sendLocal {ft : Nat} (hft : inFoot putOnFoot ft = true) (d : Dev) (p : Nat) (f : Frame) : keep ft (sendLocal d p f)
    = keep ft d :=
  keep_mono hft (by simp +decide only [sendLocal, ↓keep_putOn])

def dropFrameFoot : Nat := footOf [] [F.lmlEvt_budget_drop, F.lmlCnt_count] ||| originateFoot
theorem keep_dropFrame {ft : Nat} (hft : inFoot dropFrameFoot ft = true) (d : Dev) (p : Nat) (tf : TxFrame) (reason : Nat) :
    keep ft (dropFrame d p tf reason) = keep ft d :=
  keep_mono hft (by simp +decide only [dropFrame, ↓keep_setFlag, ↓keep_addWrap, ↓keep_freeRx, ↓keep_originate, ↓keep_ite,
    ite_self])

def departTransitFoot : Nat := footOf [.draws] [] ||| dropFrameFoot
theorem keep_departTransit {ft : Nat} (hft : inFoot departTransitFoot ft = true) (d : Dev) (p : Nat) (tf : TxFrame) : keep ft
    (departTransit d p tf) = keep ft d := by
  refine keep_mono hft ?_
  unfold departTransit
  split
  · split
    · simp +decide only [↓keep_putOn]
    · simp only []
      split
      · simp +decide only [↓keep_draw, ↓keep_dropFrame]
      · simp +decide only [↓keep_draw, ↓keep_freeRx, ↓keep_sendOn]
  · simp +decide only [↓keep_updLport]

theorem keep_forwardFrame {ft : Nat} (hft : inFoot departTransitFoot ft = true) (d : Dev) (f : Frame) (arrival : Nat) : keep ft
    (forwardFrame d f arrival) = keep ft d :=
  keep_mono hft (by simp +decide only [forwardFrame]; split <;> simp +decide only
    [↓keep_dropFrame, ↓keep_departTransit])

def pumpReplayFoot : Nat := footOf [.out, .chain] [F.lmlRetry_sends, F.lmlCred_tx_avail, F.lmlCnt_count]
theorem keep_pumpReplay {ft : Nat} (hft : inFoot pumpReplayFoot ft = true) (d : Dev) (p : Nat) : keep ft (pumpReplay d p) = keep
    ft d := by
  refine keep_mono hft ?_
  unfold pumpReplay
  refine keep_forEach _ _ _ fun e n => ?_
  split
  · simp +decide only [↓keep_updLport]
  · split
    · simp +decide only [↓keep_sub, ↓keep_addWrap, ↓keep_wr, ↓keep_emit, ↓keep_updLport]
    · rfl

theorem keep_pumpPort {ft : Nat} (hft : inFoot departTransitFoot ft = true) (d : Dev) (p : Nat) : keep ft (pumpPort d p) = keep
    ft d :=
  keep_mono hft (by simp +decide only [pumpPort, ↓keep_updLport, ↓keep_departTransit, ↓keep_pumpReplay, ↓keep_forEach,
    implies_true])

def flushPortFoot : Nat := footOf [.out, .chain] [F.lmlRetry_buf_used, F.lmlRetry_sends, F.lmlCred_rx_used]
theorem keep_flushPort {ft : Nat} (hft : inFoot flushPortFoot ft = true) (d : Dev) (p : Nat) : keep ft (flushPort d p) = keep ft
    d :=
  keep_mono hft (by simp +decide only [flushPort, ↓keep_wr, ↓keep_updLport, ↓keep_freeRx, ↓keep_forEach, implies_true])

def portDownFoot : Nat := footOf [] [F.lmlStat_state, F.lmlStat_secure, F.lmlStat_routed, F.lmlStat_down_cause] |||
  flushPortFoot
theorem keep_portDown {ft : Nat} (hft : inFoot portDownFoot ft = true) (d : Dev) (p cause : Nat) : keep ft (portDown d p cause)
    = keep ft d :=
  keep_mono hft (by simp +decide only [portDown, ↓keep_wr, ↓keep_setFlag, ↓keep_updLport, ↓keep_flushPort])

def portTrainFoot : Nat := footOf [] [F.lmlStat_state, F.lmlStat_width, F.lmlStat_rate, F.lmlStat_lanes, F.lmlStat_down_cause]
theorem keep_portTrain {ft : Nat} (hft : inFoot portTrainFoot ft = true) (d : Dev) (p : Nat) : keep ft (portTrain d p) = keep ft
    d :=
  keep_mono hft (by simp +decide only [portTrain, ↓keep_wr, ↓keep_ite, ite_self])

def busErrorFoot : Nat := footOf [.out] [F.glbBusErr_addr, F.glbBusErr_requester, F.glbBusErr_write, F.glbBusErr_cause,
  F.glbBusErr_valid, F.glbBusErr_count]
theorem keep_busError {ft : Nat} (hft : inFoot busErrorFoot ft = true) (d : Dev) (rq : Requester) (addr : Nat) (isWrite : Bool)
    (cause : Nat) : keep ft (busError d rq addr isWrite cause) = keep ft d :=
  keep_mono hft (by simp +decide only [busError, ↓keep_wr, ↓keep_setFlag, ↓keep_addSat, ↓keep_emit])

def busOkFoot : Nat := footOf [.out] []
theorem keep_busOk {ft : Nat} (hft : inFoot busOkFoot ft = true) (d : Dev) (rq : Requester) (data : Nat) : keep ft (busOk d rq
    data) = keep ft d :=
  keep_mono hft (by simp +decide only [busOk, ↓keep_emit])

def hardFaultCandidateFoot : Nat := footOf [.out] [F.eccHardLog_mac, F.eccHardLog_row, F.eccHardLog_valid, F.eccHardLog_count]
theorem keep_hardFaultCandidate {ft : Nat} (hft : inFoot hardFaultCandidateFoot ft = true) (d : Dev) (mac row : Nat) : keep ft
    (hardFaultCandidate d mac row) = keep ft d :=
  keep_mono hft (by simp +decide only [hardFaultCandidate, ↓keep_wr, ↓keep_setFlag, ↓keep_addSat, ↓keep_emit])

def eccLogFoot : Nat := footOf [] [F.eccLog_addr, F.eccLog_mac, F.eccLog_syndrome, F.eccLog_kind, F.eccLog_valid,
  F.eccLog_overflow]
theorem keep_eccLog {ft : Nat} (hft : inFoot eccLogFoot ft = true) (d : Dev) (mac addr syndrome kind : Nat) : keep ft (eccLog d
    mac addr syndrome kind) = keep ft d :=
  keep_mono hft (by simp +decide only [eccLog, ↓keep_setFlag, ↓keep_wr, ↓keep_ite, ite_self])

def useInjectionFoot : Nat := footOf [] [F.eccInj_armed]
theorem keep_useInjection {ft : Nat} (hft : inFoot useInjectionFoot ft = true) (d : Dev) (mac lo n : Nat) : keep ft
    (useInjection d mac lo n).2 = keep ft d :=
  keep_mono hft (by simp +decide only [useInjection]; split <;> simp +decide only
    [↓keep_setFlag])

def putMarkFoot : Nat := footOf [.ecc] [F.eccPcnt_marked]
theorem keep_putMark {ft : Nat} (hft : inFoot putMarkFoot ft = true) (d : Dev) (mac addr : Nat) : keep ft (putMark d mac addr) =
    keep ft d :=
  keep_mono hft (by simp +decide only [putMark, ↓keep_addSat, ↓keep_updEcc])

def watchErrorFoot : Nat := footOf [.ecc] [] ||| hardFaultCandidateFoot
theorem keep_watchError {ft : Nat} (hft : inFoot watchErrorFoot ft = true) (d : Dev) (mac addr : Nat) : keep ft (watchError d
    mac addr) = keep ft d :=
  keep_mono hft (by unfold watchError; split <;> simp +decide only [↓keep_hardFaultCandidate, ↓keep_updEcc, ↓keep_ite, ite_self])

def macWrittenFoot : Nat := footOf [.ecc] [F.eccPcnt_marked, F.eccInj_armed]
theorem keep_macWritten {ft : Nat} (hft : inFoot macWrittenFoot ft = true) (d : Dev) (mac lo n : Nat) : keep ft (macWritten d
    mac lo n) = keep ft d := by
  refine keep_mono hft ?_
  unfold macWritten
  extract_lets here e
  have he : keep macWrittenFoot e = keep macWrittenFoot d := by simp +decide only [e, ↓keep_updEcc]
  have hx := keep_useInjection (ft := macWrittenFoot) (by decide) e mac lo n
  split
  · next hu => rw [hu, he] at hx; exact hx
  · next hu =>
    rw [hu, he] at hx
    split
    · simp +decide only [hx, ↓keep_putMark]
    · simp +decide only [hx, ↓keep_updEcc]

def memErrorFoot : Nat := footOf [.card] [F.eccCe_count, F.eccUe_count, F.eccPcnt_marker_reads, F.eccPcnt_marked] ||| eccLogFoot
  ||| watchErrorFoot
theorem keep_memError {ft : Nat} (hft : inFoot memErrorFoot ft = true) (d : Dev) (e : MemErr) : keep ft (memError d e) = keep ft
    d :=
  keep_mono hft (by simp +decide only [memError]; split <;> simp +decide only [↓keep_addSat, ↓keep_cardCount,
    ↓keep_hardFaultCandidate, ↓keep_eccLog, ↓keep_putMark, ↓keep_watchError, ↓keep_ite, ite_self])

def plantedErrorsFoot : Nat := footOf [.draws] []
theorem keep_plantedErrors {ft : Nat} (hft : inFoot plantedErrorsFoot ft = true) (d : Dev) (mac lo n : Nat) : keep ft
    (plantedErrors d mac lo n).2 = keep ft d := by
  refine keep_mono hft ?_
  unfold plantedErrors
  extract_lets here ms ps
  exact keep_foldl_snd _ _ (fun acc x => by simp +decide only [↓keep_draw]) _

def macReadFoot : Nat := footOf [.draws] [] ||| memErrorFoot
theorem keep_macRead {ft : Nat} (hft : inFoot macReadFoot ft = true) (d : Dev) (mac lo n : Nat) : keep ft (macRead d mac lo n).2
    = keep ft d :=
  keep_mono hft (by simp +decide only [macRead, ↓keep_updEcc, ↓keep_memError, ↓keep_plantedErrors, ↓keep_forEach, implies_true])

def updExtentsFoot : Nat := footOf [.host] []
theorem keep_updExtents {ft : Nat} (hft : inFoot updExtentsFoot ft = true) (d : Dev) (g : List Extent → List Extent) : keep ft
    (d.updExtents g) = keep ft d :=
  keep_mono hft (by simp +decide only [Dev.updExtents, ↓keep_updHost])

def updTasksFoot : Nat := footOf [.host] []
theorem keep_updTasks {ft : Nat} (hft : inFoot updTasksFoot ft = true) (d : Dev) (g : List MTask → List MTask) : keep ft
    (d.updTasks g) = keep ft d :=
  keep_mono hft (by simp +decide only [Dev.updTasks, ↓keep_updHost])

def updPortFoot : Nat := footOf [.host] []
theorem keep_updPort {ft : Nat} (hft : inFoot updPortFoot ft = true) (d : Dev) (h : Nat) (g : Port → Port) : keep ft (d.updPort
    h g) = keep ft d :=
  keep_mono hft (by simp +decide only [Dev.updPort, ↓keep_updHost])

def updCtxFoot : Nat := footOf [.host] []
theorem keep_updCtx {ft : Nat} (hft : inFoot updCtxFoot ft = true) (d : Dev) (id : Nat) (g : Ctx → Ctx) : keep ft (d.updCtx id
    g) = keep ft d :=
  keep_mono hft (by simp +decide only [Dev.updCtx, ↓keep_updHost])

def updNsFoot : Nat := footOf [.host] []
theorem keep_updNs {ft : Nat} (hft : inFoot updNsFoot ft = true) (d : Dev) (nsid : Nat) (g : Ns → Ns) : keep ft (d.updNs nsid g)
    = keep ft d :=
  keep_mono hft (by simp +decide only [Dev.updNs, ↓keep_updHost])

def updZoneFoot : Nat := footOf [.host] []
theorem keep_updZone {ft : Nat} (hft : inFoot updZoneFoot ft = true) (d : Dev) (nsid z : Nat) (g : Zone → Zone) : keep ft
    (d.updZone nsid z g) = keep ft d :=
  keep_mono hft (by simp +decide only [Dev.updZone, ↓keep_updNs])

def setMediaFoot : Nat := footOf [.host] []
theorem keep_setMedia {ft : Nat} (hft : inFoot setMediaFoot ft = true) (d : Dev) (nsid lba : Nat) (b : MediaBlk) : keep ft
    (d.setMedia nsid lba b) = keep ft d :=
  keep_mono hft (by simp +decide only [Dev.setMedia, ↓keep_updHost])

def mapUpdateFoot : Nat := footOf [.host] []
theorem keep_mapUpdate {ft : Nat} (hft : inFoot mapUpdateFoot ft = true) (d : Dev) (nsid unit hda : Nat) (buffered : Bool) :
    keep ft (mapUpdate d nsid unit hda buffered) = keep ft d :=
  keep_mono hft (by simp +decide only [mapUpdate, ↓keep_updHost])

end Sys2Proof.Machine
end

section
/-! PROOF. Footprints (2 of 10): contexts, buffered extents and the end of a command. An operation's footprint joins what it writes itself with the
footprints of the operations it calls, and its lemma says that it keeps everything else. -/
namespace Sys2Proof.Machine

def syncHostFoot : Nat := footOf [] [F.hstCtxStat_in_use, F.hstRltStat_in_use, F.hstBound_dirty, F.pwrHoldB_dirty]
theorem keep_syncHost {ft : Nat} (hft : inFoot syncHostFoot ft = true) (d : Dev) : keep ft (syncHost d) = keep ft d :=
  keep_mono hft (by simp +decide only [syncHost, ↓keep_wr, ↓keep_forEach, implies_true])

def postNoticeFoot : Nat := footOf [.out, .host] [] ||| syncHostFoot
theorem keep_postNotice {ft : Nat} (hft : inFoot postNoticeFoot ft = true) (d : Dev) (h notice : Nat) : keep ft (postNotice d h
    notice) = keep ft d :=
  keep_mono hft (by unfold postNotice; split <;> simp +decide only [↓keep_emit, ↓keep_updPort, ↓keep_syncHost])

theorem keep_noticeAll {ft : Nat} (hft : inFoot postNoticeFoot ft = true) (d : Dev) (notice : Nat) : keep ft (noticeAll d
    notice) = keep ft d :=
  keep_mono hft (by simp +decide only [noticeAll, ↓keep_postNotice, ↓keep_forEach, implies_true])

theorem keep_noticeOutstanding {ft : Nat} (hft : inFoot postNoticeFoot ft = true) (d : Dev) (notice : Nat) : keep ft
    (noticeOutstanding d notice) = keep ft d :=
  keep_mono hft (by simp +decide only [noticeOutstanding, ↓keep_postNotice, ↓keep_forEach, ↓keep_ite, ite_self, implies_true])

theorem keep_chainRespond {ft : Nat} (hft : inFoot originateFoot ft = true) (d : Dev) (src tag status dw0 : Nat) (body : List
    Nat) : keep ft (chainRespond d src tag status dw0 body) = keep ft d :=
  keep_mono hft (by simp +decide only [chainRespond]; split <;> simp +decide only
    [↓keep_originate, ↓keep_part_chain])

theorem keep_returnData {ft : Nat} (hft : inFoot originateFoot ft = true) (d : Dev) (x : Ctx) (toks : List Nat) : keep ft
    (returnData d x toks) = keep ft d := by
  refine keep_mono hft ?_
  unfold returnData
  split
  · simp +decide only [↓keep_emit]
  · rfl
  · rfl
  · split
    · rfl
    · simp +decide only [↓keep_originate, ↓keep_part_chain, ↓keep_forEach, implies_true]

def syncWorkFoot : Nat := footOf [] [F.cmpEngStat_busy, F.cmpEngStat_decomp, F.cmpEngStat_waiting, F.cphStat_busy,
  F.cphStat_cache_used]
theorem keep_syncWork {ft : Nat} (hft : inFoot syncWorkFoot ft = true) (d : Dev) : keep ft (syncWork d) = keep ft d :=
  keep_mono hft (by simp +decide only [syncWork, ↓keep_wr])

theorem keep_cancelRemote {ft : Nat} (hft : inFoot originateFoot ft = true) (d : Dev) (id : Nat) : keep ft (cancelRemote d id) =
    keep ft d :=
  keep_mono hft (by simp +decide only [cancelRemote]; split <;> simp +decide only
    [↓keep_originate, ↓keep_part_chain])

def putFrameFoot : Nat := footOf [.comp] []
theorem keep_putFrame {ft : Nat} (hft : inFoot putFrameFoot ft = true) (d : Dev) (id : Nat) (f : CFrame) : keep ft (putFrame d
    id f) = keep ft d :=
  keep_mono hft (by simp +decide only [putFrame, ↓keep_part_comp])

def dropWorkFoot : Nat := footOf [.cipher, .comp] [] ||| originateFoot ||| syncWorkFoot
theorem keep_dropWork {ft : Nat} (hft : inFoot dropWorkFoot ft = true) (d : Dev) (id : Nat) : keep ft (dropWork d id) = keep ft
    d := by
  refine keep_mono hft ?_
  unfold dropWork
  extract_lets e
  have he : keep dropWorkFoot e = keep dropWorkFoot d := by simp +decide only [e, ↓keep_cancelRemote]
  rw [keep_syncWork (by decide), ← he]
  exact (keep_part_cipher _ _ (by decide)).trans (keep_part_comp e _ (by decide))

def leaveTableFoot : Nat := footOf [.host] [F.hstRltStat_blocked]
theorem keep_leaveTable {ft : Nat} (hft : inFoot leaveTableFoot ft = true) (d : Dev) (x : Ctx) : keep ft (leaveTable d x) = keep
    ft d :=
  keep_mono hft (by simp +decide only [leaveTable, ↓keep_setBit, ↓keep_updHost, ↓keep_forEach, ↓keep_ite, ite_self, implies_true])

def finishFoot : Nat := footOf [.host] [F.hstRltStat_blocked] ||| dropWorkFoot ||| syncHostFoot
theorem keep_finish {ft : Nat} (hft : inFoot finishFoot ft = true) (d : Dev) (id status dw0 : Nat) : keep ft (finish d id status
    dw0) = keep ft d := by
  refine keep_mono hft ?_
  unfold finish
  split
  · rfl
  · extract_lets record e e'
    have he : keep finishFoot e = keep finishFoot d := by simp +decide only [e, ↓keep_dropWork, ↓keep_leaveTable]
    have he' : keep finishFoot e' = keep finishFoot d := by
      simp only [e']
      split
      · simp +decide only [he, ↓keep_emit]
      · simp +decide only [he, ↓keep_chainRespond]
      · exact he
      · exact he
    simp +decide only [he', ↓keep_syncHost]

def discardCtxFoot : Nat := footOf [.host] [F.hstRltStat_blocked] ||| dropWorkFoot
theorem keep_discardCtx {ft : Nat} (hft : inFoot discardCtxFoot ft = true) (d : Dev) (id : Nat) : keep ft (discardCtx d id) =
    keep ft d :=
  keep_mono hft (by simp +decide only [discardCtx]; split <;> simp +decide only [↓keep_dropWork,
    ↓keep_leaveTable])

def takeCellFoot : Nat := footOf [.host] []
theorem keep_takeCell {ft : Nat} (hft : inFoot takeCellFoot ft = true) (d : Dev) (nsid lba : Nat) : keep ft (takeCell d nsid
    lba).2 = keep ft d :=
  keep_mono hft (by simp +decide only [takeCell]; split <;> simp +decide only [↓keep_updExtents])

def placeExtentFoot : Nat := footOf [.host] []
theorem keep_placeExtent {ft : Nat} (hft : inFoot placeExtentFoot ft = true) (d : Dev) (wid nsid : Nat) (cells : List (Nat ×
    BufCopy)) : keep ft (placeExtent d wid nsid cells) = keep ft d := by
  refine keep_mono hft ?_
  unfold placeExtent
  extract_lets seq r
  have hr : keep placeExtentFoot r.2 = keep placeExtentFoot d := by
    refine keep_foldl_snd cells _ (fun acc c => ?_) _
    exact keep_takeCell (by decide) acc.2 nsid c.1
  simp +decide only [hr, ↓keep_updHost]

def restoreCellFoot : Nat := footOf [.host] []
theorem keep_restoreCell {ft : Nat} (hft : inFoot restoreCellFoot ft = true) (d : Dev) (nsid : Nat) (c : BufCell) : keep ft
    (restoreCell d nsid c) = keep ft d :=
  keep_mono hft (by simp +decide only [restoreCell]; split <;> simp +decide only
    [↓keep_updExtents, ↓keep_ite, ite_self])

def rearmReadsFoot : Nat := footOf [.host] []
theorem keep_rearmReads {ft : Nat} (hft : inFoot rearmReadsFoot ft = true) (d : Dev) : keep ft (rearmReads d) = keep ft d :=
  keep_mono hft (by simp +decide only [rearmReads, ↓keep_updHost])

def discardDataFoot : Nat := footOf [.host] []
theorem keep_discardData {ft : Nat} (hft : inFoot discardDataFoot ft = true) (d : Dev) (wid : Nat) : keep ft (discardData d wid)
    = keep ft d :=
  keep_mono hft (by simp (disch := (intros; simp +decide only [↓keep_updHost, ↓keep_restoreCell, ↓keep_rearmReads, ↓keep_forEach,
    implies_true])) only [discardData, ↓keep_updHost, ↓keep_rearmReads, ↓keep_forEach])

def wantHdaFoot : Nat := footOf [.host] []
theorem keep_wantHda {ft : Nat} (hft : inFoot wantHdaFoot ft = true) (d : Dev) (n : Nat) : keep ft (wantHda d n) = keep ft d :=
  keep_mono hft (by simp +decide only [wantHda, ↓keep_updHost])

def beginTasksFoot : Nat := footOf [.host] []
theorem keep_beginTasks {ft : Nat} (hft : inFoot beginTasksFoot ft = true) (d : Dev) (a : Nat) : keep ft (beginTasks d a) = keep
    ft d :=
  keep_mono hft (by simp +decide only [beginTasks, ↓keep_updTasks, ↓keep_ite, ite_self])

def beginWaitingFoot : Nat := footOf [.host] []
theorem keep_beginWaiting {ft : Nat} (hft : inFoot beginWaitingFoot ft = true) (d : Dev) : keep ft (beginWaiting d) = keep ft d
    :=
  keep_mono hft (by simp +decide only [beginWaiting, ↓keep_beginTasks, ↓keep_forEach, implies_true])

def addTaskFoot : Nat := footOf [.host] []
theorem keep_addTask {ft : Nat} (hft : inFoot addTaskFoot ft = true) (d : Dev) (kind : MKind) (act : Nat) (prio : Bool) : keep
    ft (addTask d kind act prio) = keep ft d :=
  keep_mono hft (by simp +decide only [addTask, ↓keep_updHost, ↓keep_updTasks, ↓keep_wantHda, ↓keep_ite, ite_self])

def dropTaskFoot : Nat := footOf [.host] []
theorem keep_dropTask {ft : Nat} (hft : inFoot dropTaskFoot ft = true) (d : Dev) (tid : Nat) : keep ft (dropTask d tid) = keep
    ft d :=
  keep_mono hft (by simp +decide only [dropTask, ↓keep_updTasks, ↓keep_beginWaiting])

def destageExtentFoot : Nat := footOf [.host] []
theorem keep_destageExtent {ft : Nat} (hft : inFoot destageExtentFoot ft = true) (d : Dev) (e : Extent) (prio : Bool) : keep ft
    (destageExtent d e prio) = keep ft d :=
  keep_mono hft (by simp +decide only [destageExtent, ↓keep_updExtents, ↓keep_addTask, ↓keep_forEach, ↓keep_ite, ite_self,
    implies_true])

def joinContextFoot : Nat := footOf [.comp] []
theorem keep_joinContext {ft : Nat} (hft : inFoot joinContextFoot ft = true) (d : Dev) (ctx id : Nat) : keep ft (joinContext d
    ctx id) = keep ft d :=
  keep_mono hft (by simp +decide only [joinContext, ↓keep_part_comp])

def frameReadFoot : Nat := footOf [] [F.cmpErr_frame_bad] ||| finishFoot
theorem keep_frameRead {ft : Nat} (hft : inFoot frameReadFoot ft = true) (d : Dev) (x : Ctx) (toks : List Nat) : keep ft
    (frameRead d x toks) = keep ft d :=
  keep_mono hft (by simp +decide only [frameRead]; split <;> simp +decide only [↓keep_setFlag, ↓keep_updCtx, ↓keep_putFrame, ↓keep_finish,
    ↓keep_joinContext, ↓keep_ite, ite_self])

def countMovedFoot : Nat := footOf [.host] []
theorem keep_countMoved {ft : Nat} (hft : inFoot countMovedFoot ft = true) (d : Dev) (x : Ctx) (hdas : List Nat) : keep ft
    (countMoved d x hdas) = keep ft d :=
  keep_mono hft (by simp +decide only [countMoved, ↓keep_updHost, ↓keep_forEach, ↓keep_ite, ite_self, implies_true])

theorem keep_serveRead {ft : Nat} (hft : inFoot frameReadFoot ft = true) (d : Dev) (x : Ctx) : keep ft (serveRead d x) = keep ft
    d :=
  keep_mono hft (by unfold serveRead; split <;> simp +decide only [↓keep_returnData, ↓keep_finish, ↓keep_frameRead,
    ↓keep_countMoved, ↓keep_ite, ite_self])

def startMediaFoot : Nat := footOf [.host] []
theorem keep_startMedia {ft : Nat} (hft : inFoot startMediaFoot ft = true) (d : Dev) (x : Ctx) (k : Dev → Dev) (hk : ∀ e, keep
    ft (k e) = keep ft e) : keep ft (startMedia d x k) = keep ft d := by
  unfold startMedia
  have ht {e : Dev} {t a b} : keep ft (addTask e t a b) = keep ft e := keep_addTask (inFoot_trans (by decide) hft) e t a b
  split
  · exact hk d
  · extract_lets e cold e'
    have he : keep ft e = keep ft d := keep_forEach _ _ _ fun _ _ => ht
    have he' : keep ft e' = keep ft d := by
      simp only [e']
      cases cold with
      | some a => exact (keep_wantHda (inFoot_trans (by decide) hft) e (a / 2)).trans he
      | none => exact he
    rw [keep_updCtx (inFoot_trans (by decide) hft), he']

def writeParityFoot : Nat := footOf [.host] []
theorem keep_writeParity {ft : Nat} (hft : inFoot writeParityFoot ft = true) (d : Dev) (ns : Ns) (zi g : Nat) : keep ft
    (writeParity d ns zi g) = keep ft d :=
  keep_mono hft (by simp +decide only [writeParity, ↓keep_updHost])

def refreshParityFoot : Nat := footOf [.host] []
theorem keep_refreshParity {ft : Nat} (hft : inFoot refreshParityFoot ft = true) (d : Dev) (nsid zi : Nat) : keep ft
    (refreshParity d nsid zi) = keep ft d :=
  keep_mono hft (by unfold refreshParity; split <;> simp +decide only [↓keep_updHost, ↓keep_writeParity, ↓keep_forEach, ↓keep_ite,
    ite_self, implies_true])

def runParityFoot : Nat := footOf [.host] []
theorem keep_runParity {ft : Nat} (hft : inFoot runParityFoot ft = true) (d : Dev) (ns : Ns) (i act : Nat) (data : List Nat) :
    keep ft (runParity d ns i act data) = keep ft d :=
  keep_mono hft (by simp +decide only [runParity]; split <;> simp +decide only
    [↓keep_updHost, ↓keep_updZone, ↓keep_ite, ite_self])

def dropParityFoot : Nat := footOf [.host] []
theorem keep_dropParity {ft : Nat} (hft : inFoot dropParityFoot ft = true) (d : Dev) (nsid zi : Nat) : keep ft (dropParity d
    nsid zi) = keep ft d :=
  keep_mono hft (by simp +decide only [dropParity, ↓keep_updHost])

def setPtrFoot : Nat := footOf [.host] []
theorem keep_setPtr {ft : Nat} (hft : inFoot setPtrFoot ft = true) (d : Dev) (nsid zi wp : Nat) : keep ft (setPtr d nsid zi wp)
    = keep ft d :=
  keep_mono hft (by simp +decide only [setPtr]; split <;> simp +decide only [↓keep_updZone])

def replaceAppendFoot : Nat := footOf [.host] []
theorem keep_replaceAppend {ft : Nat} (hft : inFoot replaceAppendFoot ft = true) (d : Dev) (y : Ctx) (zi zs : Nat) : keep ft
    (replaceAppend d y zi zs) = keep ft d := by
  refine keep_mono hft ?_
  unfold replaceAppend
  split
  · rfl
  · split
    · rfl
    · simp +decide only [↓keep_updExtents, ↓keep_updCtx, ↓keep_setPtr]

theorem keep_restorePtr {ft : Nat} (hft : inFoot finishFoot ft = true) (d : Dev) (x : Ctx) : keep ft (restorePtr d x) = keep ft
    d :=
  keep_mono hft (by simp +decide only [restorePtr]; split <;> simp +decide only [↓keep_finish,
    ↓keep_discardData, ↓keep_refreshParity, ↓keep_setPtr, ↓keep_replaceAppend, ↓keep_forEach, ↓keep_ite, ite_self,
    implies_true])

def undoContextFoot : Nat := footOf [.comp] []
theorem keep_undoContext {ft : Nat} (hft : inFoot undoContextFoot ft = true) (d : Dev) (x : Ctx) : keep ft (undoContext d x) =
    keep ft d :=
  keep_mono hft (by simp +decide only [undoContext]; split <;> simp +decide only [↓keep_part_comp])

theorem keep_failWrite {ft : Nat} (hft : inFoot finishFoot ft = true) (d : Dev) (id status : Nat) : keep ft (failWrite d id
    status) = keep ft d :=
  keep_mono hft (by unfold failWrite; split <;> simp +decide only [↓keep_finish, ↓keep_discardData, ↓keep_restorePtr,
    ↓keep_undoContext])

def trimUnderFoot : Nat := footOf [.host] []
theorem keep_trimUnder {ft : Nat} (hft : inFoot trimUnderFoot ft = true) (d : Dev) (wid : Nat) : keep ft (trimUnder d wid) =
    keep ft d :=
  keep_mono hft (by simp +decide only [trimUnder, ↓keep_updExtents, ↓keep_ite, ite_self])

def markCoveredFoot : Nat := footOf [.host] []
theorem keep_markCovered {ft : Nat} (hft : inFoot markCoveredFoot ft = true) (d : Dev) (wid n : Nat) : keep ft (markCovered d
    wid n) = keep ft d :=
  keep_mono hft (by simp +decide only [markCovered, ↓keep_updExtents, ↓keep_trimUnder])

theorem keep_tryComplete {ft : Nat} (hft : inFoot finishFoot ft = true) (d : Dev) (id : Nat) : keep ft (tryComplete d id) = keep
    ft d := by
  refine keep_mono hft ?_
  unfold tryComplete
  split
  · rfl
  · split
    · rfl
    · split
      · simp +decide only [↓keep_updCtx, ↓keep_destageExtent, ↓keep_forEach, implies_true]
      · extract_lets e e'
        have he : keep finishFoot e = keep finishFoot d := by
          simp only [e]
          split
          · simp +decide only [↓keep_emit]
          · rfl
        have he' : keep finishFoot e' = keep finishFoot d := by
          simp only [e']
          simp +decide only [he, ↓keep_destageExtent, ↓keep_forEach, implies_true]
        simp +decide only [he', ↓keep_finish]

theorem keep_settleWrites {ft : Nat} (hft : inFoot finishFoot ft = true) (d : Dev) : keep ft (settleWrites d) = keep ft d :=
  keep_mono hft (by simp +decide only [settleWrites, ↓keep_tryComplete, ↓keep_forEach, implies_true])

def journalWriteFoot : Nat := footOf [.host] []
theorem keep_journalWrite {ft : Nat} (hft : inFoot journalWriteFoot ft = true) (d : Dev) (wid n : Nat) : keep ft (journalWrite d
    wid n) = keep ft d := by
  refine keep_mono hft ?_
  unfold journalWrite
  refine keep_forEach _ _ _ fun e x => ?_
  split
  · rfl
  · split
    · rfl
    · simp +decide only [↓keep_mapUpdate, ↓keep_forEach, implies_true]

theorem keep_coverNext {ft : Nat} (hft : inFoot finishFoot ft = true) (d : Dev) (n : Nat) : keep ft (coverNext d n) = keep ft d
    := by
  refine keep_mono hft ?_
  unfold coverNext
  split
  · rfl
  · split
    · rfl
    · extract_lets e e'
      have he : keep finishFoot e = keep finishFoot d := by simp only [e]; simp +decide only [↓keep_markCovered, ↓keep_journalWrite]
      have he' : keep finishFoot e' = keep finishFoot d := by
        simp only [e']
        split
        · split
          · simp +decide only [he, ↓keep_refreshParity]
          · exact he
        · exact he
      split
      · rfl
      · split
        · simp +decide only [he', ↓keep_syncHost, ↓keep_tryComplete, ↓keep_settleWrites]
        · rfl

def pressDestageFoot : Nat := footOf [.host] []
theorem keep_pressDestage {ft : Nat} (hft : inFoot pressDestageFoot ft = true) (d : Dev) (n : Nat) : keep ft (pressDestage d n)
    = keep ft d :=
  keep_mono hft (by simp +decide only [pressDestage, ↓keep_wantHda, ↓keep_destageExtent, ↓keep_forEach, ↓keep_ite, ite_self,
    implies_true])

def detainFoot : Nat := footOf [.card] [] ||| postNoticeFoot
theorem keep_detain {ft : Nat} (hft : inFoot detainFoot ft = true) (d : Dev) (e : DetEntry) : keep ft (detain d e) = keep ft d
    :=
  keep_mono hft (by simp +decide only [detain, ↓keep_cardCount, ↓keep_updHost, ↓keep_noticeAll, ↓keep_ite, ite_self])

def releaseFoot : Nat := footOf [.host] []
theorem keep_release {ft : Nat} (hft : inFoot releaseFoot ft = true) (d : Dev) (nsid slba count : Nat) : keep ft (release d nsid
    slba count) = keep ft d :=
  keep_mono hft (by simp +decide only [release, ↓keep_updHost, ↓keep_ite, ite_self])

def relocatingFoot : Nat := footOf [.host] []
theorem keep_relocating {ft : Nat} (hft : inFoot relocatingFoot ft = true) (d : Dev) (nsid slba count on : Nat) : keep ft
    (relocating d nsid slba count on) = keep ft d :=
  keep_mono hft (by simp +decide only [relocating, ↓keep_updHost, ↓keep_ite, ite_self])

def stampMsFoot : Nat := footOf [.draws] []
theorem keep_stampMs {ft : Nat} (hft : inFoot stampMsFoot ft = true) (d : Dev) : keep ft (stampMs d).2 = keep ft d :=
  keep_mono hft (by simp +decide only [stampMs, ↓keep_draw])

theorem keep_settleReadOnly {ft : Nat} (hft : inFoot postNoticeFoot ft = true) (d : Dev) : keep ft (settleReadOnly d) = keep ft
    d :=
  keep_mono hft (by simp (disch := (intros; simp +decide only [↓keep_updZone, ↓keep_noticeAll, ↓keep_forEach, ↓keep_ite, ite_self,
    implies_true])) only [settleReadOnly, ↓keep_forEach])

def detainHeadFoot : Nat := footOf [.draws, .health] [] ||| finishFoot ||| detainFoot
theorem keep_detainHead {ft : Nat} (hft : inFoot detainHeadFoot ft = true) (d : Dev) (a head reason : Nat) : keep ft (detainHead
    d a head reason) = keep ft d := by
  refine keep_mono hft ?_
  unfold detainHead
  extract_lets e d1 d2
  split
  · rfl
  · have hd2 : keep detainHeadFoot d2 = keep detainHeadFoot d := by simp only [d2, d1]; simp +decide only [↓keep_updHealth,
      ↓keep_cardCount, ↓keep_updHost]
    have hs := keep_stampMs (ft := detainHeadFoot) (by decide) d2
    simp only []
    rw [keep_settleReadOnly (by decide)]
    refine (keep_forEach _ _ _ fun d ns => ?_).trans ?_
    · refine keep_forEach _ _ _ fun d zi => ?_
      split
      · rfl
      · split
        · simp +decide only [↓keep_updZone, ↓keep_failWrite,
            ↓keep_forEach, implies_true]
        · simp +decide only [↓keep_updZone, ↓keep_failWrite,
            ↓keep_forEach, implies_true]
        · simp +decide only [↓keep_updZone, ↓keep_noticeAll]
        · simp +decide only [↓keep_updZone, ↓keep_noticeAll]
        · simp +decide only [↓keep_updZone, ↓keep_noticeAll]
        · rfl
    · simp +decide only [hd2, ↓keep_detain, ↓keep_stampMs, ↓keep_forEach, implies_true]

theorem keep_rootFinish {ft : Nat} (hft : inFoot finishFoot ft = true) (d : Dev) (t : RootTx) (status dw0 : Nat) (toks : List
    Nat) : keep ft (rootFinish d t status dw0 toks) = keep ft d :=
  keep_mono hft (by simp +decide only [rootFinish]; split <;> simp +decide only [↓keep_updCtx, ↓keep_returnData,
    ↓keep_finish, ↓keep_discardCtx, ↓keep_failWrite, ↓keep_part_chain, ↓keep_ite, ite_self])

theorem keep_rootEnd {ft : Nat} (hft : inFoot finishFoot ft = true) (d : Dev) (t : RootTx) (status : Nat) : keep ft (rootEnd d t
    status) = keep ft d :=
  keep_mono hft (by simp +decide only [rootEnd, ↓keep_originate, ↓keep_rootFinish])

def staleFrameFoot : Nat := footOf [] [F.lmlEvt_stale, F.lmlCnt_count]
theorem keep_staleFrame {ft : Nat} (hft : inFoot staleFrameFoot ft = true) (d : Dev) : keep ft (staleFrame d) = keep ft d :=
  keep_mono hft (by simp +decide only [staleFrame, ↓keep_setFlag, ↓keep_addWrap])

theorem keep_targetEnd {ft : Nat} (hft : inFoot finishFoot ft = true) (d : Dev) (e : Dedupe) (status : Nat) : keep ft (targetEnd
    d e status) = keep ft d :=
  keep_mono hft (by unfold targetEnd; split <;> simp +decide only [↓keep_chainRespond, ↓keep_finish, ↓keep_failWrite, ↓keep_ite,
    ite_self])

def nakArrivedFoot : Nat := footOf [] [F.lmlEvt_stale, F.lmlCnt_count] ||| finishFoot
theorem keep_nakArrived {ft : Nat} (hft : inFoot nakArrivedFoot ft = true) (d : Dev) (f : Frame) : keep ft (nakArrived d f) =
    keep ft d :=
  keep_mono hft (by unfold nakArrived; split <;> split <;> simp +decide only [↓keep_rootEnd, ↓keep_staleFrame, ↓keep_targetEnd,
    ↓keep_part_chain, ↓keep_ite, ite_self])

theorem keep_takeNaks {ft : Nat} (hft : inFoot nakArrivedFoot ft = true) (d : Dev) : keep ft (takeNaks d) = keep ft d :=
  keep_mono hft (by simp +decide only [takeNaks, ↓keep_nakArrived, ↓keep_part_chain, ↓keep_forEach, implies_true])

def stopFetchFoot : Nat := footOf [.host] []
theorem keep_stopFetch {ft : Nat} (hft : inFoot stopFetchFoot ft = true) (d : Dev) (r : Nat) : keep ft (stopFetch d r) = keep ft
    d :=
  keep_mono hft (by simp +decide only [stopFetch, ↓keep_updHost])

def resumeFetchFoot : Nat := footOf [.host] []
theorem keep_resumeFetch {ft : Nat} (hft : inFoot resumeFetchFoot ft = true) (d : Dev) (r : Nat) : keep ft (resumeFetch d r) =
    keep ft d :=
  keep_mono hft (by simp +decide only [resumeFetch, ↓keep_updHost])

def setSlotFoot : Nat := footOf [.ecc, .cipher] [F.eccPcnt_marked, F.eccInj_armed]
theorem keep_setSlot {ft : Nat} (hft : inFoot setSlotFoot ft = true) (d : Dev) (i : Nat) (k : KeySlot) : keep ft (d.setSlot i k)
    = keep ft d :=
  keep_mono hft (by simp +decide only [Dev.setSlot, ↓keep_macWritten, ↓keep_updCipher])

def useKeyFoot : Nat := footOf [.cipher] []
theorem keep_useKey {ft : Nat} (hft : inFoot useKeyFoot ft = true) (d : Dev) (i : Nat) : keep ft (useKey d i) = keep ft d :=
  keep_mono hft (by simp +decide only [useKey, ↓keep_updCipher])

def spreadBytesFoot : Nat := footOf [.draws] [F.cphBytes_bytes]
theorem keep_spreadBytes {ft : Nat} (hft : inFoot spreadBytesFoot ft = true) (d : Dev) (n : Nat) : keep ft (spreadBytes d n) =
    keep ft d := by
  refine keep_mono hft ?_
  unfold spreadBytes
  extract_lets r
  have hr : keep spreadBytesFoot r.2 = keep spreadBytesFoot d := keep_foldl_snd _ _ (fun acc c => by simp +decide only
      [↓keep_addWrap, ↓keep_draw]) _
  simp +decide only [hr, ↓keep_addWrap]

def fetchKeyFoot : Nat := footOf [.cipher] [] ||| macReadFoot
theorem keep_fetchKey {ft : Nat} (hft : inFoot fetchKeyFoot ft = true) (d : Dev) (i : Nat) (destage : Bool) : keep ft (fetchKey
    d i destage).2 = keep ft d := by
  refine keep_mono hft ?_
  unfold fetchKey
  split
  · simp +decide only [↓keep_useKey]
  · have hm := keep_macRead (ft := fetchKeyFoot) (by decide) d 0x3FF (slotAddr d i) 64
    split
    · next hu => rw [hu] at hm; exact hm
    · next hu =>
      rw [hu] at hm
      split
      · simp +decide only [hm]
      · simp +decide only [hm, ↓keep_useKey]

def xtsUseFoot : Nat := footOf [] [F.cphErr_key_empty, F.cphErr_slot_crc, F.cphErr_locked, F.cphBytes_bytes] ||| fetchKeyFoot
  ||| syncWorkFoot
/-- The fields in which the failure to fetch a key shows (R164, R166). -/
def keyErrFlds : List Fld := [F.cphErr_key_empty, F.cphErr_locked, F.cphErr_slot_crc]

theorem slotFailure_field {d : Dev} {i : Nat} {destage : Bool} {f : Nat × Fld} (h : slotFailure d i destage = some f) :
    f.2 ∈ keyErrFlds := by
  unfold slotFailure at h
  dsimp only at h
  split at h
  · cases h; decide
  · split at h
    · cases h; decide
    · split at h
      · cases h; decide
      · split at h <;> cases h
        decide

theorem fetchKey_field {d : Dev} {i : Nat} {destage : Bool} {f : Nat × Fld} (h : (fetchKey d i destage).1 = some f) :
    f.2 ∈ keyErrFlds := by
  unfold fetchKey at h
  split at h
  · cases h
  · split at h
    · cases h; decide
    · split at h
      · next hs => cases h; exact slotFailure_field hs
      · cases h

theorem keep_xtsUse {ft : Nat} (hft : inFoot xtsUseFoot ft = true) (d : Dev) (ns : Ns) (pair units : Nat) (destage : Bool) :
    keep ft (xtsUse d ns pair units destage).2 = keep ft d := by
  refine keep_mono hft ?_
  unfold xtsUse
  split
  · rfl
  · have h1 := keep_fetchKey (ft := xtsUseFoot) (by decide) d (2 * pair) destage
    split
    · next f e hu =>
      have hf : f.2 ∈ keyErrFlds := fetchKey_field (by rw [hu])
      have hset := keep_setFlag_of_mem (m := xtsUseFoot) e (by decide) hf true
      rw [hu] at h1
      rw [keep_syncWork (by decide), hset]
      exact h1
    · next e hu =>
      have h2 := keep_fetchKey (ft := xtsUseFoot) (by decide) e (2 * pair + 1) destage
      rw [hu] at h1
      dsimp only at h1
      split
      · next f e' hu =>
        have hf : f.2 ∈ keyErrFlds := fetchKey_field (by rw [hu])
        have hset := keep_setFlag_of_mem (m := xtsUseFoot) e' (by decide) hf true
        rw [hu] at h2
        rw [keep_syncWork (by decide), hset, ← h1]
        exact h2
      · next hu =>
        rw [hu] at h2
        dsimp only at h2
        simp +decide only [h2, h1, ↓keep_syncWork, ↓keep_spreadBytes]

theorem keep_xtsPairs {ft : Nat} (hft : inFoot xtsUseFoot ft = true) (d : Dev) (ns : Ns) (pairs : List Nat) (destage : Bool) :
    keep ft (xtsPairs d ns pairs destage).2 = keep ft d := by
  unfold xtsPairs
  refine keep_foldl_snd _ _ (fun acc e => ?_) _
  split
  · rfl
  · exact keep_xtsUse hft ..

def emptySlotFoot : Nat := syncWorkFoot ||| setSlotFoot
theorem keep_emptySlot {ft : Nat} (hft : inFoot emptySlotFoot ft = true) (d : Dev) (i : Nat) : keep ft (emptySlot d i) = keep ft
    d :=
  keep_mono hft (by simp +decide only [emptySlot, ↓keep_syncWork, ↓keep_updCipher, ↓keep_setSlot])

def freshKeyFoot : Nat := footOf [.draws, .cipher] []
theorem keep_freshKey {ft : Nat} (hft : inFoot freshKeyFoot ft = true) (d : Dev) (kind kekSel nsid : Nat) : keep ft (freshKey d
    kind kekSel nsid).2 = keep ft d :=
  keep_mono hft (by simp +decide only [freshKey, ↓keep_draw, ↓keep_updCipher])

def newKeyFoot : Nat := footOf [.draws] [] ||| setSlotFoot
theorem keep_newKey {ft : Nat} (hft : inFoot newKeyFoot ft = true) (d : Dev) (i kind kekSel nsid : Nat) : keep ft (newKey d i
    kind kekSel nsid) = keep ft d :=
  keep_mono hft (by simp +decide only [newKey, ↓keep_setSlot, ↓keep_freshKey])

def vacateFoot : Nat := footOf [.host] [] ||| setSlotFoot
theorem keep_vacate {ft : Nat} (hft : inFoot vacateFoot ft = true) (d : Dev) (e : Nat) : keep ft (vacate d e) = keep ft d :=
  keep_mono hft (by unfold vacate; split <;> simp +decide only [↓keep_updExtents, ↓keep_updCipher, ↓keep_setSlot])

def persistKeyFoot : Nat := newKeyFoot ||| vacateFoot
theorem keep_persistKey {ft : Nat} (hft : inFoot persistKeyFoot ft = true) (d : Dev) (i kind kekSel nsid : Nat) : keep ft
    (persistKey d i kind kekSel nsid) = keep ft d :=
  keep_mono hft (by simp +decide only [persistKey, ↓keep_updCipher, ↓keep_newKey, ↓keep_vacate])

end Sys2Proof.Machine
end

section
/-! PROOF. Footprints (3 of 10): the host pipeline, copies and media tasks. An operation's footprint joins what it writes itself with the
footprints of the operations it calls, and its lemma says that it keeps everything else. -/
namespace Sys2Proof.Machine

theorem keep_nsKeys {ft : Nat} (hft : inFoot persistKeyFoot ft = true) (d : Dev) (ns : Ns) : keep ft (nsKeys d ns) = keep ft d
    :=
  keep_mono hft (by simp +decide only [nsKeys, ↓keep_updCipher, ↓keep_persistKey, ↓keep_ite, ite_self])

def zeroPlainFoot : Nat := footOf [.host, .cipher] [] ||| syncWorkFoot ||| syncHostFoot
theorem keep_zeroPlain {ft : Nat} (hft : inFoot zeroPlainFoot ft = true) (d : Dev) : keep ft (zeroPlain d) = keep ft d :=
  keep_mono hft (by simp +decide only [zeroPlain, ↓keep_updHost, ↓keep_syncHost, ↓keep_syncWork, ↓keep_updCipher])

def zeroKeysFoot : Nat := footOf [.cipher] []
theorem keep_zeroKeys {ft : Nat} (hft : inFoot zeroKeysFoot ft = true) (d : Dev) (all : Bool) : keep ft (zeroKeys d all) = keep
    ft d :=
  keep_mono hft (by simp +decide only [zeroKeys, ↓keep_updCipher])

def updServoFoot : Nat := footOf [.servos] []
theorem keep_updServo {ft : Nat} (hft : inFoot updServoFoot ft = true) (d : Dev) (n : Nat) (g : Servo → Servo) : keep ft
    (d.updServo n g) = keep ft d :=
  keep_mono hft (by simp +decide only [Dev.updServo, ↓keep_part_servos])

def updSpinFoot : Nat := footOf [.spins] []
theorem keep_updSpin {ft : Nat} (hft : inFoot updSpinFoot ft = true) (d : Dev) (n : Nat) (g : Spin → Spin) : keep ft (d.updSpin
    n g) = keep ft d :=
  keep_mono hft (by simp +decide only [Dev.updSpin, ↓keep_part_spins])

def setCommandFoot : Nat := footOf [] [F.spnStat_command]
theorem keep_setCommand {ft : Nat} (hft : inFoot setCommandFoot ft = true) (d : Dev) (n : Nat) : keep ft (setCommand d n) = keep
    ft d :=
  keep_mono hft (by simp +decide only [setCommand, ↓keep_wr])

def pressWritersFoot : Nat := footOf [.host] []
theorem keep_pressWriters {ft : Nat} (hft : inFoot pressWritersFoot ft = true) (d : Dev) (n : Nat) : keep ft (pressWriters d n)
    = keep ft d :=
  keep_mono hft (by simp +decide only [pressWriters, ↓keep_wantHda, ↓keep_pressDestage, ↓keep_forEach, ↓keep_ite, ite_self,
    implies_true])

theorem keep_coverAll {ft : Nat} (hft : inFoot finishFoot ft = true) (n : Nat) (q : Nat) (m : Dev) : keep ft (coverAll n q m) =
    keep ft m := by
  induction q generalizing m with
  | zero => rfl
  | succ f ih => rw [coverAll, ih, keep_coverNext hft]

def recomputeBoundFoot : Nat := footOf [] [F.hstBound_bound, F.spnStat_command, F.spnStat_floor, F.pwrHoldStat_contrib,
  F.pwrHoldE_e_total, F.pwrHoldE_t_avail, F.pwrHoldB_bound, F.pwrHoldR_rate, F.pwrHoldR_energy] ||| finishFoot
theorem keep_recomputeBound {ft : Nat} (hft : inFoot recomputeBoundFoot ft = true) (d : Dev) : keep ft (recomputeBound d) = keep
    ft d :=
  keep_mono hft (by simp +decide only [recomputeBound, ↓keep_wr, ↓keep_syncHost, ↓keep_setCommand, ↓keep_pressWriters,
    ↓keep_coverAll, ↓keep_forEach, implies_true])

def refreshWaitsFoot : Nat := footOf [.host] []
theorem keep_refreshWaits {ft : Nat} (hft : inFoot refreshWaitsFoot ft = true) (d : Dev) : keep ft (refreshWaits d) = keep ft d
    :=
  keep_mono hft (by simp +decide only [refreshWaits, ↓keep_updHost])

def suspendHdaFoot : Nat := footOf [.host] []
theorem keep_suspendHda {ft : Nat} (hft : inFoot suspendHdaFoot ft = true) (d : Dev) (n : Nat) : keep ft (suspendHda d n) = keep
    ft d :=
  keep_mono hft (by simp +decide only [suspendHda, ↓keep_updHost, ↓keep_updTasks, ↓keep_wantHda, ↓keep_refreshWaits, ↓keep_ite,
    ite_self])

def hdaArrivedFoot : Nat := footOf [.host] []
theorem keep_hdaArrived {ft : Nat} (hft : inFoot hdaArrivedFoot ft = true) (d : Dev) (n : Nat) : keep ft (hdaArrived d n) = keep
    ft d :=
  keep_mono hft (by simp +decide only [hdaArrived, ↓keep_updHost, ↓keep_beginTasks, ↓keep_refreshWaits, ↓keep_ite, ite_self])

def setDomFoot : Nat := footOf [] [F.pwrDom_dom]
theorem keep_setDom {ft : Nat} (hft : inFoot setDomFoot ft = true) (d : Dev) (k v : Nat) : keep ft (setDom d k v) = keep ft d :=
  keep_mono hft (by simp +decide only [setDom, ↓keep_wr, ↓keep_ite, ite_self])

def leaveCs2Foot : Nat := footOf [] [F.pwrCs_state, F.pwrCs_target, F.pwrDom_dom]
theorem keep_leaveCs2 {ft : Nat} (hft : inFoot leaveCs2Foot ft = true) (d : Dev) : keep ft (leaveCs2 d) = keep ft d :=
  keep_mono hft (by simp +decide only [leaveCs2, ↓keep_wr, ↓keep_setDom, ↓keep_forEach, implies_true])

def submitFoot : Nat := footOf [.host] []
theorem keep_submit {ft : Nat} (hft : inFoot submitFoot ft = true) (h qid cid : Nat) (c : IoCmd) (d : Dev) : keep ft (submit h
    qid cid c d) = keep ft d :=
  keep_mono hft (by simp +decide only [submit, ↓keep_updPort])

def enterCmdFoot : Nat := footOf [] [F.cphErr_key_empty, F.cphErr_slot_crc, F.cphErr_locked] ||| finishFoot
theorem lockCheck_field {d : Dev} {nsid lba : Nat} {reads writes : Bool} {f : Nat × Fld}
    (h : lockCheck d nsid lba reads writes = some f) : f.2 ∈ keyErrFlds := by
  unfold lockCheck at h
  dsimp only at h
  obtain ⟨-, h⟩ := Option.ite_none_right_eq_some.1 h
  cases h
  decide

theorem pairCheck_field {d : Dev} {ns : Ns} {tag lba : Nat} {f : Nat × Fld} (h : pairCheck d ns tag lba = some f) :
    f.2 ∈ keyErrFlds := by
  unfold pairCheck at h
  split at h
  · cases h
  · split at h
    · cases h; decide
    · rw [Option.orElse_eq_some] at h
      obtain h | ⟨-, h⟩ := h <;> exact slotFailure_field h

theorem keyCheck_field {d : Dev} {ns : Ns} {c : IoCmd} {f : Nat × Fld} (h : keyCheck d ns c = some f) : f.2 ∈ keyErrFlds := by
  unfold keyCheck at h
  split at h
  · cases h
  · extract_lets lbas own at h
    have hlbas : ∀ g, own = some g → g.2 ∈ keyErrFlds := by
      intro g hg
      obtain ⟨l, -, hl⟩ := List.exists_of_findSome?_eq_some hg
      obtain hl | ⟨-, hl⟩ := (Option.orElse_eq_some _ _ _).1 hl
      · exact lockCheck_field hl
      · split at hl
        · exact pairCheck_field hl
        · cases hl
    obtain h | ⟨-, h⟩ := (Option.orElse_eq_some _ _ _).1 h
    · exact hlbas f h
    · obtain ⟨l, -, hl⟩ := List.exists_of_findSome?_eq_some h
      obtain hl | ⟨-, hl⟩ := (Option.orElse_eq_some _ _ _).1 hl
      · exact lockCheck_field hl
      · exact pairCheck_field hl

/-- An answer to a command's check that names a field names one in which the failure to fetch a key shows. -/
def NamesKeyErr (r : Option (Nat × Option Fld)) : Prop := ∀ st f, r = some (st, some f) → f ∈ keyErrFlds

theorem NamesKeyErr.none : NamesKeyErr none := fun _ _ h => nomatch h

theorem NamesKeyErr.bad {st : Nat} : NamesKeyErr (some (st, .none)) := fun _ _ h => nomatch h

theorem NamesKeyErr.ite {c : Prop} [Decidable c] {a b : Option (Nat × Option Fld)} (ha : NamesKeyErr a) (hb : NamesKeyErr b) :
    NamesKeyErr (if c then a else b) := by
  split
  · exact ha
  · exact hb

theorem fetchCheck_field (d : Dev) (org : Origin) (fe : Nat) (c : IoCmd) : NamesKeyErr (fetchCheck d org fe c) := by
  have hempty : NamesKeyErr (some (stKeyEmpty, some F.cphErr_key_empty)) := by
    rintro _ _ ⟨⟩
    decide
  refine .ite .bad (.ite .bad (.ite .bad (.ite (.ite hempty .bad) (.ite (.ite .none .bad) (.ite .bad (.ite ?_ (.ite .none ?_)))))))
  · split
    · exact .bad
    · exact .ite .bad (.ite .bad .none)
  · split
    · exact .bad
    · refine .ite .bad (.ite .none (.ite .bad (.ite .bad (.ite .bad (.ite .bad (.ite .bad (.ite .bad (.ite .bad ?_))))))))
      split
      · next hk =>
        rintro _ _ ⟨⟩
        exact keyCheck_field hk
      · exact .none

theorem keep_enterCmd {ft : Nat} (hft : inFoot enterCmdFoot ft = true) (d : Dev) (org : Origin) (fe : Nat) (c : IoCmd) : keep ft
    (enterCmd d org fe c) = keep ft d := by
  refine keep_mono hft ?_
  unfold enterCmd
  extract_lets x e
  have he : keep enterCmdFoot e = keep enterCmdFoot d := by simp only [e]; simp +decide only [↓keep_updHost]
  split
  · simp +decide only [he, ↓keep_syncHost]
  · next st f hf =>
    extract_lets e'
    have he' : keep enterCmdFoot e' = keep enterCmdFoot d := by
      simp only [e']
      split
      · next b => rw [keep_setFlag_of_mem e (by decide) (fetchCheck_field _ _ _ _ _ _ hf), he]
      · exact he
    simp +decide only [he', ↓keep_finish]

def wakeChipFoot : Nat := footOf [] [F.pwrCs_state, F.pwrCs_target, F.pwrDom_dom]
theorem keep_wakeChip {ft : Nat} (hft : inFoot wakeChipFoot ft = true) (d : Dev) : keep ft (wakeChip d) = keep ft d :=
  keep_mono hft (by simp +decide only [wakeChip, ↓keep_wr, ↓keep_leaveCs2, ↓keep_ite, ite_self])

def leaveIdlePsFoot : Nat := footOf [] [F.pwrPs_ps]
theorem keep_leaveIdlePs {ft : Nat} (hft : inFoot leaveIdlePsFoot ft = true) (d : Dev) : keep ft (leaveIdlePs d) = keep ft d :=
  keep_mono hft (by simp +decide only [leaveIdlePs, ↓keep_wr, ↓keep_ite, ite_self])

def loopCmdFoot : Nat := footOf [.out, .host] []
theorem keep_loopCmd {ft : Nat} (hft : inFoot loopCmdFoot ft = true) (d : Dev) (h qid cid : Nat) (c : IoCmd) : keep ft (loopCmd
    d h qid cid c) = keep ft d :=
  keep_mono hft (by simp +decide only [loopCmd, ↓keep_emit]; split <;> simp +decide only [↓keep_emit,
    ↓keep_updHost])

def commandFetchFoot : Nat := footOf [] [F.hstCtxStat_fetch_stalled, F.hstCtxStat_stall_seen, F.pwrCs_state, F.pwrCs_target,
  F.pwrPs_ps, F.pwrDom_dom] ||| enterCmdFoot
theorem keep_commandFetch {ft : Nat} (hft : inFoot commandFetchFoot ft = true) (h : Nat) (d : Dev) : keep ft (commandFetch h d)
    = keep ft d := by
  refine keep_mono hft ?_
  unfold commandFetch
  split
  · rfl
  · split
    · rfl
    · split
      · simp +decide only [↓keep_setFlag, ↓keep_updPort]
      · split
        · rfl
        · simp +decide only [↓keep_updPort, ↓keep_enterCmd, ↓keep_wakeChip, ↓keep_leaveIdlePs, ↓keep_loopCmd, ↓keep_ite,
            ite_self]

theorem keep_askData {ft : Nat} (hft : inFoot originateFoot ft = true) (d : Dev) (x : Ctx) : keep ft (askData d x) = keep ft d
    := by
  refine keep_mono hft ?_
  unfold askData
  split
  · split
    · rfl
    · split
      · rfl
      · simp +decide only [↓keep_originate, ↓keep_part_chain]
  · rfl

theorem keep_insertCtx {ft : Nat} (hft : inFoot finishFoot ft = true) (d : Dev) (x : Ctx) : keep ft (insertCtx d x) = keep ft d
    := by
  refine keep_mono hft ?_
  unfold insertCtx
  extract_lets e
  have he : keep finishFoot e = keep finishFoot d := by simp only [e]; simp +decide only [↓keep_updHost]
  split
  · simp +decide only [he, ↓keep_finish]
  · rename_i locks e1 lcl e2 stage e3 _ _
    have he1 : keep finishFoot e1 = keep finishFoot d := by
      simp only [e1]
      split
      all_goals simp +decide only [he, ↓keep_updCtx, ↓keep_setPtr,
          ↓keep_ite, ite_self]
    have he2 : keep finishFoot e2 = keep finishFoot d := by
      simp only [e2]
      split
      all_goals simp +decide only [he1, ↓keep_joinContext, ↓keep_ite, ite_self]
    have he3 : keep finishFoot e3 = keep finishFoot d := by simp only [e3]; simp +decide only [he2, ↓keep_updCtx]
    simp +decide only [he3, ↓keep_syncHost, ↓keep_askData, ↓keep_ite, ite_self]

def insertFromFoot : Nat := footOf [] [F.hstRltStat_blocked_seen] ||| finishFoot
theorem keep_insertFrom {ft : Nat} (hft : inFoot insertFromFoot ft = true) (fe : Nat) (d : Dev) : keep ft (insertFrom fe d) =
    keep ft d :=
  keep_mono hft (by unfold insertFrom; split <;> simp +decide only [↓keep_setBit, ↓keep_insertCtx, ↓keep_forEach, ↓keep_ite,
    ite_self, implies_true])

def unlockerFoot : Nat := footOf [.host] []
theorem keep_unlocker {ft : Nat} (hft : inFoot unlockerFoot ft = true) (d : Dev) (nsid slba count : Nat) : keep ft (unlocker d
    nsid slba count) = keep ft d :=
  keep_mono hft (by simp +decide only [unlocker, ↓keep_updHost])

theorem keep_dropHomework {ft : Nat} (hft : inFoot discardCtxFoot ft = true) (d : Dev) (nsid zi : Nat) : keep ft (dropHomework d
    nsid zi) = keep ft d :=
  keep_mono hft (by simp +decide only [dropHomework, ↓keep_updHost, ↓keep_discardCtx, ↓keep_forEach, implies_true])

theorem keep_zoneAct {ft : Nat} (hft : inFoot finishFoot ft = true) (d : Dev) (ns : Ns) (zi : Nat) (a : ZoneAction) : keep ft
    (zoneAct d ns zi a).2 = keep ft d := by
  refine keep_mono hft ?_
  unfold zoneAct
  split
  · rfl
  · extract_lets put slba
    have hput (st : ZState) : keep finishFoot (put st) = keep finishFoot d := by simp only [put]; simp +decide only [↓keep_updZone]
    split
    · split
      · rfl
      · exact hput _
      · split
        · rfl
        · exact hput _
    · split
      · exact hput _
      · exact hput _
      · rfl
      · rfl
    · split
      · rfl
      · rfl
      · rfl
      · split
        · rfl
        · simp +decide only [hput, ↓keep_refreshParity]
      · simp +decide only [hput, ↓keep_refreshParity]
    · split
      · rfl
      · rfl
      · simp +decide +zetaDelta only [↓keep_updHost, ↓keep_updExtents, ↓keep_updZone, ↓keep_rearmReads, ↓keep_dropParity, ↓keep_settleWrites, ↓keep_release, ↓keep_unlocker, ↓keep_dropHomework]
    · split
      · rfl
      · simp +decide only [↓keep_updZone, ↓keep_dropHomework]
      · rfl

theorem keep_runZone {ft : Nat} (hft : inFoot finishFoot ft = true) (d : Dev) (x : Ctx) (a : ZoneAction) (all : Bool) : keep ft
    (runZone d x a all) = keep ft d := by
  refine keep_mono hft ?_
  unfold runZone
  split
  · simp +decide only [↓keep_finish]
  · extract_lets zs
    split
    · simp +decide only [↓keep_finish]
    · rename_i r _
      have hr : keep finishFoot r.2 = keep finishFoot d := by
        refine keep_foldl_snd zs _ (fun acc zi => ?_) _
        split
        · rfl
        · split
          · rfl
          · exact keep_zoneAct (by decide) ..
      simp +decide only [hr, ↓keep_finish]

theorem keep_startRead {ft : Nat} (hft : inFoot frameReadFoot ft = true) (d : Dev) (x : Ctx) : keep ft (startRead d x) = keep ft
    d :=
  keep_mono hft (by simp +decide only [startRead]; split <;> simp +decide only [↓keep_updCtx, ↓keep_destageExtent,
    ↓keep_serveRead, ↓keep_startMedia, ↓keep_forEach, ↓keep_ite, ite_self, implies_true])

theorem keep_runDeallocate {ft : Nat} (hft : inFoot finishFoot ft = true) (d : Dev) (x : Ctx) : keep ft (runDeallocate d x) =
    keep ft d :=
  keep_mono hft (by simp (disch := (intros; simp +decide only [↓keep_updNs, ↓keep_setMedia, ↓keep_mapUpdate, ↓keep_finish,
    ↓keep_takeCell, ↓keep_rearmReads, ↓keep_settleWrites, ↓keep_release, ↓keep_unlocker, ↓keep_forEach, ↓keep_ite, ite_self,
    implies_true])) only [runDeallocate, ↓keep_updNs, ↓keep_finish, ↓keep_rearmReads, ↓keep_settleWrites, ↓keep_forEach])

theorem keep_forwardCmd {ft : Nat} (hft : inFoot finishFoot ft = true) (d : Dev) (x : Ctx) : keep ft (forwardCmd d x) = keep ft
    d :=
  keep_mono hft (by unfold forwardCmd; split <;> simp +decide only [↓keep_originate, ↓keep_updCtx, ↓keep_finish, ↓keep_part_chain])

theorem keep_readRemote {ft : Nat} (hft : inFoot finishFoot ft = true) (d : Dev) (x : Ctx) (k : Nat) (r : LbaRange) : keep ft
    (readRemote d x k r) = keep ft d :=
  keep_mono hft (by simp +decide only [readRemote, ↓keep_updHost, ↓keep_updCtx, ↓keep_forwardCmd])

theorem keep_startCtx {ft : Nat} (hft : inFoot frameReadFoot ft = true) (d : Dev) (x : Ctx) : keep ft (startCtx d x) = keep ft d
    := by
  refine keep_mono hft ?_
  unfold startCtx
  split
  · simp +decide only [↓keep_forwardCmd]
  · split
    · simp +decide only [↓keep_updCtx, ↓keep_askData]
    · split
      · simp +decide only [↓keep_startRead]
      · simp +decide only [↓keep_startRead]
      · simp +decide only [↓keep_startRead]
      · simp +decide only [↓keep_updCtx, ↓keep_wantHda, ↓keep_readRemote,
          ↓keep_forEach, implies_true]
      · simp +decide only [↓keep_startRead, ↓keep_part_comp]
      · simp +decide only [↓keep_runDeallocate]
      · simp +decide only [↓keep_finish]
      · simp +decide only [↓keep_runZone]
      · split
        · simp +decide only [↓keep_finish]
        · simp +decide only [↓keep_returnData, ↓keep_finish]
      · simp +decide only [↓keep_updCtx, ↓keep_destageExtent,
          ↓keep_forEach, implies_true]
      · split
        · simp +decide only [↓keep_finish]
        · extract_lets zi
          split
          · simp +decide only [↓keep_finish]
          · split
            · simp +decide only [↓keep_finish]
            · simp +decide only [↓keep_updCtx, ↓keep_finish, ↓keep_setPtr, ↓keep_ite, ite_self]
      · simp +decide only [↓keep_finish]
      · simp +decide only [↓keep_updNs, ↓keep_finish, ↓keep_ite, ite_self]
      · simp +decide only [↓keep_returnData, ↓keep_finish]
      · simp +decide only [↓keep_updCtx, ↓keep_part_comp]
      · simp +decide only [↓keep_updCtx]

def lockGrantFoot : Nat := nakArrivedFoot ||| frameReadFoot
theorem keep_lockGrant {ft : Nat} (hft : inFoot lockGrantFoot ft = true) (id : Nat) (d : Dev) : keep ft (lockGrant id d) = keep
    ft d := by
  refine keep_mono hft ?_
  unfold lockGrant
  split
  · rfl
  · split
    · extract_lets e
      have he : keep lockGrantFoot e = keep lockGrantFoot d := by simp only [e]; simp +decide only [↓keep_startCtx]
      rw [keep_syncHost (by decide)]
      split
      · simp +decide only [he, ↓keep_takeNaks, ↓keep_askData, ↓keep_ite, ite_self]
      · simp +decide only [he, ↓keep_takeNaks]
    · rfl

theorem keep_copyKeys {ft : Nat} (hft : inFoot xtsUseFoot ft = true) (d : Dev) (c : IoCmd) : keep ft (copyKeys d c).2 = keep ft
    d := by
  refine keep_mono hft ?_
  unfold copyKeys
  extract_lets read
  refine keep_foldl_snd _ _ (fun acc ns => ?_) _
  split
  · rfl
  · simp +decide only [↓keep_xtsPairs]

theorem keep_bufferBlks {ft : Nat} (hft : inFoot finishFoot ft = true) (d : Dev) (x : Ctx) (ns : Ns) (blks : List Blk) (split :
    List (Nat × HdaId)) : keep ft (bufferBlks d x ns blks split) = keep ft d :=
  keep_mono hft (by simp +decide only [bufferBlks, ↓keep_updCtx, ↓keep_updNs, ↓keep_syncHost, ↓keep_placeExtent, ↓keep_countMoved,
    ↓keep_tryComplete, ↓keep_coverNext, ↓keep_release, ↓keep_pressWriters, ↓keep_forEach, implies_true])

def dataBufferedFoot : Nat := xtsUseFoot ||| finishFoot
theorem keep_dataBuffered {ft : Nat} (hft : inFoot dataBufferedFoot ft = true) (id : Nat) (split : List (Nat × HdaId)) (poison :
    List Nat) (d : Dev) : keep ft (dataBuffered id split poison d) = keep ft d := by
  refine keep_mono hft ?_
  unfold dataBuffered
  split
  · rfl
  · split
    · rfl
    · split
      · rfl
      · split
        · simp +decide only [↓keep_updCtx, ↓keep_syncHost]
        · split
          · simp +decide only [↓keep_failWrite]
          · next x _ _ _ _ _ =>
            have hc := keep_copyKeys (ft := dataBufferedFoot) (by decide) d x.c
            split
            · rfl
            · next hu => rw [hu] at hc; simp +decide only [hc, ↓keep_failWrite]
            · next hu =>
              rw [hu] at hc
              dsimp only at hc
              extract_lets blks st
              split
              · simp +decide only [hc, ↓keep_failWrite]
              · simp +decide only [hc, ↓keep_bufferBlks]

theorem keep_latencyExpiry {ft : Nat} (hft : inFoot finishFoot ft = true) (id : Nat) (d : Dev) : keep ft (latencyExpiry id d) =
    keep ft d :=
  keep_mono hft (by simp +decide only [latencyExpiry]; split <;> simp +decide
    only [↓keep_finish, ↓keep_failWrite, ↓keep_ite, ite_self])

def landBlkFoot : Nat := footOf [.draws] [] ||| detainFoot
theorem keep_landBlk {ft : Nat} (hft : inFoot landBlkFoot ft = true) (d : Dev) (nsid lba act : Nat) (blk : Blk) (keys : Option
    (Nat × Nat)) : keep ft (landBlk d nsid lba act blk keys) = keep ft d :=
  keep_mono hft (by simp +decide only [landBlk, ↓keep_setMedia, ↓keep_detain, ↓keep_stampMs, ↓keep_ite, ite_self])

theorem keep_landCell {ft : Nat} (hft : inFoot landBlkFoot ft = true) (d : Dev) (nsid : Nat) (poisoned : Bool) (lba : Nat) (c :
    BufCopy) : keep ft (landCell d nsid poisoned lba c) = keep ft d :=
  keep_mono hft (by simp +decide only [landCell, ↓keep_unlocker, ↓keep_landBlk])

def dropCellFoot : Nat := footOf [.host] []
theorem keep_dropCell {ft : Nat} (hft : inFoot dropCellFoot ft = true) (d : Dev) (wid nsid lba : Nat) : keep ft (dropCell d wid
    nsid lba) = keep ft d :=
  keep_mono hft (by simp +decide only [dropCell, ↓keep_updExtents])

def placeUnitFoot : Nat := footOf [.host] []
theorem keep_placeUnit {ft : Nat} (hft : inFoot placeUnitFoot ft = true) (d : Dev) (nsid act : Nat) (not : Option Nat) (unit :
    Nat) : keep ft (placeUnit d nsid act not unit) = keep ft d :=
  keep_mono hft (by simp +decide only [placeUnit]; split <;> simp +decide only [↓keep_updZone, ↓keep_setMedia, ↓keep_mapUpdate,
    ↓keep_runParity, ↓keep_forEach, ↓keep_ite, ite_self, implies_true])

theorem keep_wakeWaiters {ft : Nat} (hft : inFoot frameReadFoot ft = true) (d : Dev) : keep ft (wakeWaiters d) = keep ft d := by
  refine keep_mono hft ?_
  unfold wakeWaiters
  refine keep_forEach _ _ _ fun e x => ?_
  split
  · rfl
  · simp +decide only [↓keep_updCtx, ↓keep_startRead, ↓keep_ite, ite_self]

theorem keep_failFlushes {ft : Nat} (hft : inFoot finishFoot ft = true) (d : Dev) (wid : Nat) : keep ft (failFlushes d wid) =
    keep ft d :=
  keep_mono hft (by simp +decide only [failFlushes, ↓keep_finish, ↓keep_forEach, implies_true])

def landExtentFoot : Nat := finishFoot ||| landBlkFoot
theorem keep_landExtent {ft : Nat} (hft : inFoot landExtentFoot ft = true) (d : Dev) (e : Extent) (act : Nat) (poisoned : List
    Nat) : keep ft (landExtent d e act poisoned) = keep ft d :=
  keep_mono hft (by simp +decide only [landExtent]; split <;> simp +decide only
    [↓keep_cardCount, ↓keep_refreshParity, ↓keep_landCell, ↓keep_dropCell, ↓keep_placeUnit, ↓keep_failFlushes, ↓keep_forEach,
    ↓keep_ite, ite_self, implies_true])

def destagedFoot : Nat := xtsUseFoot ||| landExtentFoot ||| frameReadFoot
theorem keep_destaged {ft : Nat} (hft : inFoot destagedFoot ft = true) (d : Dev) (wid act : Nat) (poisoned : List Nat) : keep ft
    (destaged d wid act poisoned) = keep ft d := by
  refine keep_mono hft ?_
  unfold destaged
  split
  · rfl
  · extract_lets es e1 e2
    have he1 : keep destagedFoot e1 = keep destagedFoot d := by simp only [e1]; simp +decide only [↓keep_updCtx]
    have he2 : keep destagedFoot e2 = keep destagedFoot d := by
      refine (keep_forEach _ _ _ fun d e => ?_).trans he1
      split
      · rfl
      · next ns _ =>
        have hx := keep_xtsPairs (ft := destagedFoot) (by decide) d ns ((e.cells.filter fun c => c.now.act == act).map fun c =>
            c.now.pair) true
        split
        · next hu => rw [hu] at hx; exact hx
        · next hu =>
          rw [hu] at hx
          dsimp only at hx
          simp +decide only [hx, ↓keep_landExtent]
    simp +decide only [he2, ↓keep_syncHost, ↓keep_settleWrites, ↓keep_settleReadOnly, ↓keep_wakeWaiters]

def lockeredFoot : Nat := xtsUseFoot ||| finishFoot
theorem keep_lockered {ft : Nat} (hft : inFoot lockeredFoot ft = true) (d : Dev) (wid act : Nat) (poisoned : List Nat) : keep ft
    (lockered d wid act poisoned) = keep ft d := by
  refine keep_mono hft ?_
  unfold lockered
  extract_lets e1 cs mark e2
  have he1 : keep lockeredFoot e1 = keep lockeredFoot d := by simp only [e1]; simp +decide only [↓keep_updCtx]
  have he2 : keep lockeredFoot e2 = keep lockeredFoot d := by
    refine (keep_forEach _ _ _ fun d nsid => ?_).trans he1
    split
    · rfl
    · next ns _ =>
      extract_lets mine
      have hx := keep_xtsPairs (ft := lockeredFoot) (by decide) d ns (mine.map fun c => c.2.2.pair) true
      split
      · next hu => rw [hu] at hx; exact hx
      · next hu =>
        rw [hu] at hx
        dsimp only at hx
        simp +decide only [hx, ↓keep_updHost, ↓keep_updExtents]
  simp +decide only [he2, ↓keep_syncHost, ↓keep_settleWrites]

def toLockerFoot : Nat := footOf [.host] []
theorem keep_toLocker {ft : Nat} (hft : inFoot toLockerFoot ft = true) (d : Dev) (wid act : Nat) : keep ft (toLocker d wid act)
    = keep ft d :=
  keep_mono hft (by simp +decide only [toLocker, ↓keep_updTasks, ↓keep_addTask])

theorem keep_writeFault {ft : Nat} (hft : inFoot detainHeadFoot ft = true) (d : Dev) (t : MTask) (head : Nat) : keep ft
    (writeFault d t head) = keep ft d := by
  refine keep_mono hft ?_
  unfold writeFault
  extract_lets e
  have he : keep detainHeadFoot e = keep detainHeadFoot d := by simp only [e]; simp +decide only [↓keep_detainHead]
  split
  · split
    · simp +decide only [he, ↓keep_failWrite, ↓keep_ite, ite_self]
    · exact he
  · exact he

def readEndedFoot : Nat := xtsUseFoot ||| frameReadFoot
theorem keep_readEnded {ft : Nat} (hft : inFoot readEndedFoot ft = true) (d : Dev) (id act : Nat) (poisoned : List Nat) : keep
    ft (readEnded d id act poisoned) = keep ft d := by
  refine keep_mono hft ?_
  unfold readEnded
  split
  · rfl
  · extract_lets x' read e r
    have he : keep readEndedFoot e = keep readEndedFoot d := by simp only [e]; simp +decide only [↓keep_cardCount, ↓keep_updCtx]
    have hr : keep readEndedFoot r.2 = keep readEndedFoot d := by
      simp only [r]
      split
      · rw [keep_xtsPairs (by decide), he]
      · exact he
    clear_value r
    obtain ⟨f | f, e'⟩ := r
    · dsimp only at hr ⊢
      simp +decide only [hr, ↓keep_finish, ↓keep_serveRead, ↓keep_ite, ite_self]
    · dsimp only at hr ⊢
      simp +decide only [hr, ↓keep_finish]

theorem keep_rewriteVerified {ft : Nat} (hft : inFoot discardCtxFoot ft = true) (d : Dev) (nsid zi : Nat) (second good : Bool) :
    keep ft (rewriteVerified d nsid zi second good) = keep ft d :=
  keep_mono hft (by simp +decide only [rewriteVerified]; split <;> simp +decide only [↓keep_updZone, ↓keep_release,
    ↓keep_relocating, ↓keep_dropHomework, ↓keep_forEach, ↓keep_ite, ite_self, implies_true])

theorem keep_cleanBand {ft : Nat} (hft : inFoot discardCtxFoot ft = true) (d : Dev) (nsid zi : Nat) : keep ft (cleanBand d nsid
    zi) = keep ft d :=
  keep_mono hft (by simp +decide only [cleanBand]; split <;> simp +decide only [↓keep_updZone, ↓keep_dropParity, ↓keep_release,
    ↓keep_dropHomework, ↓keep_placeUnit, ↓keep_forEach, implies_true])

def repostFoot : Nat := footOf [.host] []
theorem keep_repost {ft : Nat} (hft : inFoot repostFoot ft = true) (d : Dev) (t : MTask) : keep ft (repost d t) = keep ft d :=
  keep_mono hft (by simp +decide only [repost, ↓keep_updTasks])

def mediaTaskEndFoot : Nat := footOf [] [F.calDue_due] ||| destagedFoot ||| detainHeadFoot ||| pllArmFoot
theorem keep_mediaTaskEnd {ft : Nat} (hft : inFoot mediaTaskEndFoot ft = true) (tid : Nat) (o : TaskOutcome) (d : Dev) : keep ft
    (mediaTaskEnd tid o d) = keep ft d := by
  refine keep_mono hft ?_
  unfold mediaTaskEnd
  split
  · rfl
  · extract_lets failed e1 e2
    have he1 : keep mediaTaskEndFoot e1 = keep mediaTaskEndFoot d := by simp only [e1]; simp +decide only [↓keep_updSeq]
    have he2 : keep mediaTaskEndFoot e2 = keep mediaTaskEndFoot d := by simp only [e2]; simp +decide only [he1, ↓keep_pllArm, ↓keep_ite,
        ite_self]
    split
    · exact he2
    · split
      · simp +decide only [he2, ↓keep_repost]
      · split
        · simp +decide only [he2, ↓keep_repost]
        · split
          · simp +decide only [he2, ↓keep_syncHost, ↓keep_writeFault]
          · simp +decide only [he2, ↓keep_makeHeadDue, ↓keep_updTasks, ↓keep_repost]
        · rename_i e3 _ _ _ _
          have he3 : keep mediaTaskEndFoot e3 = keep mediaTaskEndFoot d := by simp only [e3]; simp +decide only [he2, ↓keep_dropTask]
          split
          all_goals simp +decide only [he3, ↓keep_syncHost, ↓keep_addTask,
              ↓keep_destaged, ↓keep_lockered, ↓keep_readEnded, ↓keep_rewriteVerified,
              ↓keep_cleanBand]

def flushFallbackFoot : Nat := footOf [.host] []
theorem keep_flushFallback {ft : Nat} (hft : inFoot flushFallbackFoot ft = true) (id wid : Nat) (d : Dev) : keep ft
    (flushFallback id wid d) = keep ft d :=
  keep_mono hft (by simp +decide only [flushFallback]; split <;> simp +decide only [↓keep_updCtx, ↓keep_wantHda, ↓keep_toLocker, ↓keep_forEach, ↓keep_ite,
    ite_self, implies_true])

theorem keep_flushComplete {ft : Nat} (hft : inFoot finishFoot ft = true) (id : Nat) (d : Dev) : keep ft (flushComplete id d) =
    keep ft d :=
  keep_mono hft (by simp +decide only [flushComplete]; split <;> simp +decide only
    [↓keep_finish, ↓keep_ite, ite_self])

def checkpointMapFoot : Nat := footOf [.host] []
theorem keep_checkpointMap {ft : Nat} (hft : inFoot checkpointMapFoot ft = true) (d : Dev) (nsid : Nat) : keep ft (checkpointMap
    d nsid) = keep ft d :=
  keep_mono hft (by simp +decide only [checkpointMap, ↓keep_updHost, ↓keep_updNs])

def recoverMapFoot : Nat := footOf [.host] []
theorem keep_recoverMap {ft : Nat} (hft : inFoot recoverMapFoot ft = true) (d : Dev) (nsid : Nat) : keep ft (recoverMap d nsid)
    = keep ft d :=
  keep_mono hft (by simp +decide only [recoverMap, ↓keep_updHost])

def checkpointAllFoot : Nat := footOf [.host] []
theorem keep_checkpointAll {ft : Nat} (hft : inFoot checkpointAllFoot ft = true) (d : Dev) : keep ft (checkpointAll d) = keep ft
    d :=
  keep_mono hft (by simp +decide only [checkpointAll, ↓keep_checkpointMap, ↓keep_recoverMap, ↓keep_forEach, ↓keep_ite, ite_self,
    implies_true])

def adminEndFoot : Nat := footOf [.out] []
theorem keep_adminEnd {ft : Nat} (hft : inFoot adminEndFoot ft = true) (d : Dev) (h cid status dw0 : Nat) : keep ft (adminEnd d
    h cid status dw0) = keep ft d :=
  keep_mono hft (by simp +decide only [adminEnd, ↓keep_emit])

def adminPageFoot : Nat := footOf [.out] []
theorem keep_adminPage {ft : Nat} (hft : inFoot adminPageFoot ft = true) (d : Dev) (h cid : Nat) (data : List Nat) : keep ft
    (adminPage d h cid data) = keep ft d :=
  keep_mono hft (by simp +decide only [adminPage, ↓keep_emit, ↓keep_adminEnd])

def adminDoFoot : Nat := footOf [.out] [F.hstCtxStat_fetch_stalled, F.hstCtxStat_stall_seen, F.pwrCs_state, F.pwrCs_target,
  F.pwrDom_dom]
theorem keep_adminDo {ft : Nat} (hft : inFoot adminDoFoot ft = true) (h cid : Nat) (pend rec : Bool) (g : Dev → Dev) (d : Dev)
    (hg : ∀ e, keep ft (g e) = keep ft e) : keep ft (adminDo h cid pend rec g d) = keep ft d := by
  unfold adminDo
  have hwake : keep ft (wakeChip d) = keep ft d := keep_wakeChip (inFoot_trans (by decide) hft) d
  split
  · rfl
  · split
    · exact keep_mono hft (by simp +decide only [↓keep_setFlag])
    · dsimp only
      split
      · exact (keep_adminEnd (inFoot_trans (by decide) hft) ..).trans hwake
      · split
        · exact (keep_adminEnd (inFoot_trans (by decide) hft) ..).trans hwake
        · rw [hg, hwake]

def holdAdminFoot : Nat := footOf [.host] [] ||| syncHostFoot
theorem keep_holdAdmin {ft : Nat} (hft : inFoot holdAdminFoot ft = true) (d : Dev) (h : Nat) : keep ft (holdAdmin d h) = keep ft
    d :=
  keep_mono hft (by simp +decide only [holdAdmin, ↓keep_updPort, ↓keep_syncHost])

def endAdminFoot : Nat := footOf [.out, .host] [] ||| syncHostFoot
theorem keep_endAdmin {ft : Nat} (hft : inFoot endAdminFoot ft = true) (d : Dev) (w : Option (Nat × Nat)) (status dw0 : Nat) :
    keep ft (endAdmin d w status dw0) = keep ft d :=
  keep_mono hft (by unfold endAdmin; split <;> simp +decide only [↓keep_updPort, ↓keep_syncHost, ↓keep_adminEnd, ↓keep_ite,
    ite_self])

theorem keep_forwardAdmin {ft : Nat} (hft : inFoot finishFoot ft = true) (d : Dev) (h cid : Nat) (c : IoCmd) : keep ft
    (forwardAdmin d h cid c) = keep ft d :=
  keep_mono hft (by unfold forwardAdmin; split <;> simp +decide only [↓keep_updHost, ↓keep_syncHost, ↓keep_forwardCmd,
    ↓keep_adminEnd])

def putSlotFoot : Nat := footOf [.card] []
theorem keep_putSlot {ft : Nat} (hft : inFoot putSlotFoot ft = true) (d : Dev) (area slot : Nat) (b : List Byte) : keep ft
    (putSlot d area slot b) = keep ft d :=
  keep_mono hft (by simp +decide only [putSlot, ↓keep_updCard])

def programSlotFoot : Nat := footOf [.draws, .card] [F.evrStat_nor_fail]
theorem keep_programSlot {ft : Nat} (hft : inFoot programSlotFoot ft = true) (d : Dev) (area slot : Nat) (b : List Byte) : keep
    ft (programSlot d area slot b) = keep ft d :=
  keep_mono hft (by simp +decide only [programSlot, ↓keep_addSat, ↓keep_draw, ↓keep_putSlot, ↓keep_ite, ite_self])

def writeEpochFoot : Nat := footOf [.draws, .card] [F.evrStat_nor_fail]
theorem keep_writeEpoch {ft : Nat} (hft : inFoot writeEpochFoot ft = true) (d : Dev) (a : Acc) (endS : Nat) : keep ft
    (writeEpoch d a endS) = keep ft d :=
  keep_mono hft (by simp +decide only [writeEpoch, ↓keep_programSlot, ↓keep_ite, ite_self])

def writeCheckpointFoot : Nat := footOf [.draws, .card] [F.evrStat_nor_fail]
theorem keep_writeCheckpoint {ft : Nat} (hft : inFoot writeCheckpointFoot ft = true) (d : Dev) : keep ft (writeCheckpoint d) =
    keep ft d :=
  keep_mono hft (by simp +decide only [writeCheckpoint, ↓keep_updCard, ↓keep_programSlot])

def closeEpochFoot : Nat := footOf [.draws, .card] [F.evrStat_epoch, F.evrStat_nor_fail]
theorem keep_closeEpoch {ft : Nat} (hft : inFoot closeEpochFoot ft = true) (d : Dev) (late : Bool) : keep ft (closeEpoch d late)
    = keep ft d :=
  keep_mono hft (by simp +decide only [closeEpoch, ↓keep_wr, ↓keep_updCard, ↓keep_writeEpoch])

def thawCardFoot : Nat := footOf [] [F.evrCtl_frozen, F.evrStat_auto_thawed] ||| closeEpochFoot
theorem keep_thawCard {ft : Nat} (hft : inFoot thawCardFoot ft = true) (d : Dev) (auto : Bool) : keep ft (thawCard d auto) =
    keep ft d :=
  keep_mono hft (by simp +decide only [thawCard, ↓keep_setFlag, ↓keep_updCard, ↓keep_writeCheckpoint, ↓keep_closeEpoch, ↓keep_ite,
    ite_self])

end Sys2Proof.Machine
end

section
/-! PROOF. Footprints (4 of 10): servo, tracing, sealing and phases. An operation's footprint joins what it writes itself with the
footprints of the operations it calls, and its lemma says that it keeps everything else. -/
namespace Sys2Proof.Machine

theorem keep_stopCheckpoint {ft : Nat} (hft : inFoot thawCardFoot ft = true) (d : Dev) : keep ft (stopCheckpoint d) = keep ft d
    :=
  keep_mono hft (by simp +decide only [stopCheckpoint, ↓keep_updCard, ↓keep_writeCheckpoint, ↓keep_thawCard])

def reachSecondFoot : Nat := footOf [.card] [F.evrPos_seconds]
theorem keep_reachSecond {ft : Nat} (hft : inFoot reachSecondFoot ft = true) (d : Dev) (s : Nat) : keep ft (reachSecond d s) =
    keep ft d :=
  keep_mono hft (by simp +decide only [reachSecond, ↓keep_wr, ↓keep_cardCount, ↓keep_ite, ite_self])

def updLaneFoot : Nat := footOf [.servos] []
theorem keep_updLane {ft : Nat} (hft : inFoot updLaneFoot ft = true) (d : Dev) (n l : Nat) (g : Lane → Lane) : keep ft
    (d.updLane n l g) = keep ft d :=
  keep_mono hft (by simp +decide only [Dev.updLane, ↓keep_updServo])

def updUnitFoot : Nat := footOf [.servos] []
theorem keep_updUnit {ft : Nat} (hft : inFoot updUnitFoot ft = true) (d : Dev) (n u : Nat) (g : SscUnit → SscUnit) : keep ft
    (d.updUnit n u g) = keep ft d :=
  keep_mono hft (by simp +decide only [Dev.updUnit, ↓keep_updServo])

def setLaneStateFoot : Nat := footOf [] [F.sscLaneStat_state]
theorem keep_setLaneState {ft : Nat} (hft : inFoot setLaneStateFoot ft = true) (d : Dev) (n l v : Nat) : keep ft (setLaneState d
    n l v) = keep ft d :=
  keep_mono hft (by simp +decide only [setLaneState, ↓keep_wr])

def setNodeFoot : Nat := footOf [.servos] [F.sscSat_sat]
theorem keep_setNode {ft : Nat} (hft : inFoot setNodeFoot ft = true) (d : Dev) (n node : Nat) (v : Int) : keep ft (setNode d n
    node v).2 = keep ft d :=
  keep_mono hft (by simp +decide only [setNode, ↓keep_setBit, ↓keep_updServo, ↓keep_ite, ite_self])

def putNodeFoot : Nat := footOf [.servos] [F.sscSat_sat]
theorem keep_putNode {ft : Nat} (hft : inFoot putNodeFoot ft = true) (d : Dev) (n node : Nat) (v : Int) : keep ft (putNode d n
    node v) = keep ft d :=
  keep_mono hft (by simp +decide only [putNode, ↓keep_setNode])

theorem keep_setServoOk {ft : Nat} (hft : inFoot setCauseFoot ft = true) (d : Dev) (c : Nat) (ok : Bool) : keep ft (setServoOk d
    c ok) = keep ft d :=
  keep_mono hft (by simp +decide only [setServoOk, ↓keep_updChn, ↓keep_setCause, ↓keep_ite, ite_self])

def setSpinFoot : Nat := footOf [.out] [F.spnStat_state]
theorem keep_setSpin {ft : Nat} (hft : inFoot setSpinFoot ft = true) (d : Dev) (n v : Nat) : keep ft (setSpin d n v) = keep ft d
    :=
  keep_mono hft (by simp +decide only [setSpin, ↓keep_wr, ↓keep_emitSlot, ↓keep_ite, ite_self])

def pslFrameFoot : Nat := footOf [.out, .servos] []
theorem keep_pslFrame {ft : Nat} (hft : inFoot pslFrameFoot ft = true) (d : Dev) (n ty : Nat) (hold : Bool) (fields : List Nat)
    : keep ft (pslFrame d n ty hold fields) = keep ft d :=
  keep_mono hft (by simp +decide only [pslFrame, ↓keep_emit, ↓keep_updServo, ↓keep_ite, ite_self])

def commandFrameFoot : Nat := footOf [.out, .servos] []
theorem keep_commandFrame {ft : Nat} (hft : inFoot commandFrameFoot ft = true) (d : Dev) (n l : Nat) (hold : Bool) : keep ft
    (commandFrame d n l hold) = keep ft d :=
  keep_mono hft (by simp +decide only [commandFrame, ↓keep_pslFrame])

def retractFrameFoot : Nat := footOf [.out, .servos] []
theorem keep_retractFrame {ft : Nat} (hft : inFoot retractFrameFoot ft = true) (d : Dev) (n : Nat) : keep ft (retractFrame d n)
    = keep ft d :=
  keep_mono hft (by simp +decide only [retractFrame, ↓keep_pslFrame])

def emergencyRetractFoot : Nat := footOf [.host, .servos, .card] [F.sscRetract_cause, F.sscRetract_mask, F.sscRetract_seen,
  F.sscLaneStat_on_track, F.pwrHs_state, F.pwrHs_in_transition, F.pwrHs_step] ||| setCauseFoot
theorem keep_emergencyRetract {ft : Nat} (hft : inFoot emergencyRetractFoot ft = true) (d : Dev) (n mask cause : Nat) : keep ft
    (emergencyRetract d n mask cause) = keep ft d :=
  keep_mono hft (by simp +decide only [emergencyRetract, ↓keep_setFlag, ↓keep_wr, ↓keep_emit, ↓keep_cardCount, ↓keep_cardBin,
    ↓keep_updServo, ↓keep_suspendHda, ↓keep_updLane, ↓keep_setServoOk, ↓keep_retractFrame, ↓keep_forEach, ↓keep_ite, ite_self,
    implies_true])

def enterRetractFoot : Nat := footOf [.spins] [F.sscRole_state, F.spnStat_state] ||| recomputeBoundFoot ||| emergencyRetractFoot
theorem keep_enterRetract {ft : Nat} (hft : inFoot enterRetractFoot ft = true) (d : Dev) (n cause : Nat) : keep ft (enterRetract
    d n cause) = keep ft d :=
  keep_mono hft (by simp +decide only [enterRetract, ↓keep_wr, ↓keep_updSpin, ↓keep_recomputeBound, ↓keep_setSpin,
    ↓keep_emergencyRetract, ↓keep_ite, ite_self])

def recordOvrFoot : Nat := footOf [.servos] [F.sscOvr_lane_seen, F.sscOvr_recent, F.sscOvr_total]
theorem keep_recordOvr {ft : Nat} (hft : inFoot recordOvrFoot ft = true) (d : Dev) (n u l : Nat) (exceeds : Bool) : keep ft
    (recordOvr d n u l exceeds) = keep ft d :=
  keep_mono hft (by simp +decide only [recordOvr, ↓keep_wr, ↓keep_setBit, ↓keep_addSat, ↓keep_updUnit, ↓keep_ite, ite_self])

def switchRolesFoot : Nat := footOf [.servos, .card] [F.sscRole_active, F.sscSwap_to_swap, F.sscSwap_deferred,
  F.sscSwap_switches, F.sscSwap_last_cause]
theorem keep_switchRoles {ft : Nat} (hft : inFoot switchRolesFoot ft = true) (d : Dev) (n cause : Nat) (lanes : List Nat) : keep
    ft (switchRoles d n cause lanes) = keep ft d :=
  keep_mono hft (by simp +decide only [switchRoles, ↓keep_wr, ↓keep_setFlag, ↓keep_addSat, ↓keep_cardEpoch, ↓keep_updServo,
    ↓keep_updUnit])

def activeFailsFoot : Nat := footOf [] [F.sscRole_standby_fit] ||| enterRetractFoot ||| switchRolesFoot
theorem keep_activeFails {ft : Nat} (hft : inFoot activeFailsFoot ft = true) (d : Dev) (n cause : Nat) (lane : Option Nat) :
    keep ft (activeFails d n cause lane) = keep ft d :=
  keep_mono hft (by unfold activeFails; split <;> split <;> simp +decide only [↓keep_wr, ↓keep_setFlag, ↓keep_enterRetract,
    ↓keep_switchRoles, ↓keep_ite, ite_self])

def standbyFailsFoot : Nat := footOf [.out, .servos] [F.sscRole_state, F.sscRole_standby_fit]
theorem keep_standbyFails {ft : Nat} (hft : inFoot standbyFailsFoot ft = true) (d : Dev) (n : Nat) : keep ft (standbyFails d n)
    = keep ft d :=
  keep_mono hft (by simp +decide only [standbyFails, ↓keep_setFlag, ↓keep_wr, ↓keep_emit, ↓keep_updServo, ↓keep_ite, ite_self])

theorem keep_unitClockLost {ft : Nat} (hft : inFoot activeFailsFoot ft = true) (d : Dev) (n u : Nat) : keep ft (unitClockLost d
    n u) = keep ft d :=
  keep_mono hft (by simp +decide only [unitClockLost, ↓keep_updUnit, ↓keep_enterRetract, ↓keep_activeFails, ↓keep_standbyFails,
    ↓keep_ite, ite_self])

def traceValueFoot : Nat := footOf [.draws] []
theorem keep_traceValue {ft : Nat} (hft : inFoot traceValueFoot ft = true) (d : Dev) (n k : Nat) (differs : Bool) : keep ft
    (traceValue d n k differs).2 = keep ft d := by
  refine keep_mono hft ?_
  unfold traceValue
  extract_lets own
  split
  · rfl
  · split
    · simp +decide only [↓keep_draw]
    · rfl

def captureUnitFoot : Nat := footOf [.draws, .servos] [F.sscTraceStat_wptr, F.sscTraceStat_wrapped]
theorem keep_captureUnit {ft : Nat} (hft : inFoot captureUnitFoot ft = true) (d : Dev) (m : List Host.Cell) (n u : Nat) (exceeds
    differs : Bool) : keep ft (captureUnit d m n u exceeds differs).1 = keep ft d := by
  refine keep_mono hft ?_
  unfold captureUnit
  extract_lets i k done x w r e1 e2 e3
  have hdone (e : Dev) : keep captureUnitFoot (done e) = keep captureUnitFoot e := by simp only [done]; simp +decide only
      [↓keep_updUnit]
  have hr : keep captureUnitFoot r.1 = keep captureUnitFoot d := by
    refine keep_foldl_fst _ _ (fun acc c => ?_) _
    exact keep_traceValue (by decide) ..
  have he2 : keep captureUnitFoot e2 = keep captureUnitFoot d := by simp only [e2, e1]; simp +decide only [hr, ↓keep_wr,
      ↓keep_setFlag, ↓keep_ite, ite_self]
  split
  · exact hdone d
  · rw [hdone]
    simp only [e3]
    split
    · simp +decide only [he2, ↓keep_updUnit]
    · simp +decide only [he2, ↓keep_updUnit, ↓keep_ite, ite_self]

def unloadHeadsFoot : Nat := footOf [] [F.sscLaneStat_state] ||| emergencyRetractFoot
theorem keep_unloadHeads {ft : Nat} (hft : inFoot unloadHeadsFoot ft = true) (d : Dev) (n cause : Nat) : keep ft (unloadHeads d
    n cause) = keep ft d :=
  keep_mono hft (by simp +decide only [unloadHeads, ↓keep_setFlag, ↓keep_setLaneState, ↓keep_emergencyRetract, ↓keep_forEach,
    ↓keep_ite, ite_self, implies_true])

def queueShareFoot : Nat := footOf [.power] []
theorem keep_queueShare {ft : Nat} (hft : inFoot queueShareFoot ft = true) (d : Dev) (n : Nat) : keep ft (queueShare d n) = keep
    ft d :=
  keep_mono hft (by simp +decide only [queueShare, ↓keep_part_power])

def grantShareFoot : Nat := footOf [.spins, .power] []
theorem keep_grantShare {ft : Nat} (hft : inFoot grantShareFoot ft = true) (n : Nat) (d : Dev) : keep ft (grantShare n d) = keep
    ft d :=
  keep_mono hft (by simp +decide only [grantShare, ↓keep_updSpin, ↓keep_part_power, ↓keep_ite, ite_self])

def spindleStartFoot : Nat := footOf [.spins, .power, .card] [F.spnStat_state, F.spnStat_chop_fault, F.spnStat_ov2] |||
  recomputeBoundFoot
theorem keep_spindleStart {ft : Nat} (hft : inFoot spindleStartFoot ft = true) (n : Nat) (turning : Bool) (d : Dev) : keep ft
    (spindleStart n turning d) = keep ft d :=
  keep_mono hft (by simp +decide only [spindleStart, ↓keep_setFlag, ↓keep_cardCount, ↓keep_updSpin, ↓keep_recomputeBound,
    ↓keep_setSpin, ↓keep_queueShare, ↓keep_grantShare, ↓keep_ite, ite_self])

def lockAtFoot : Nat := footOf [.out, .spins] [F.spnStat_state]
theorem keep_lockAt {ft : Nat} (hft : inFoot lockAtFoot ft = true) (d : Dev) (n rpm : Nat) : keep ft (lockAt d n rpm) = keep ft
    d :=
  keep_mono hft (by simp +decide only [lockAt, ↓keep_updSpin, ↓keep_setSpin])

def coastSpinFoot : Nat := footOf [.out, .spins] [F.spnStat_state]
theorem keep_coastSpin {ft : Nat} (hft : inFoot coastSpinFoot ft = true) (d : Dev) (n : Nat) : keep ft (coastSpin d n) = keep ft
    d :=
  keep_mono hft (by simp +decide only [coastSpin, ↓keep_updSpin, ↓keep_setSpin])

def spindleModeFoot : Nat := footOf [.spins] [F.spnCtl_mode, F.spnStat_state] ||| recomputeBoundFoot
theorem keep_spindleMode {ft : Nat} (hft : inFoot spindleModeFoot ft = true) (n mode : Nat) (d : Dev) : keep ft (spindleMode n
    mode d) = keep ft d :=
  keep_mono hft (by unfold spindleMode; split <;> simp +decide only [↓keep_wr, ↓keep_recomputeBound, ↓keep_setSpin,
    ↓keep_coastSpin])

def spindleManualFoot : Nat := footOf [] [F.spnCtl_manual, F.spnCtl_rpm_manual, F.spnStat_command]
theorem keep_spindleManual {ft : Nat} (hft : inFoot spindleManualFoot ft = true) (n : Nat) (on : Bool) (rpm : Nat) (d : Dev) :
    keep ft (spindleManual n on rpm d) = keep ft d :=
  keep_mono hft (by simp +decide only [spindleManual, ↓keep_setFlag, ↓keep_wr, ↓keep_setCommand, ↓keep_ite, ite_self])

def rampTickFoot : Nat := footOf [.spins, .card] []
theorem keep_rampTick {ft : Nat} (hft : inFoot rampTickFoot ft = true) (d : Dev) (n speed : Nat) : keep ft (rampTick d n speed)
    = keep ft d :=
  keep_mono hft (by simp +decide only [rampTick, ↓keep_cardBin, ↓keep_updSpin, ↓keep_ite, ite_self])

theorem keep_rotorStopped {ft : Nat} (hft : inFoot spindleStartFoot ft = true) (d : Dev) (n : Nat) : keep ft (rotorStopped d n)
    = keep ft d :=
  keep_mono hft (by simp +decide only [rotorStopped, ↓keep_updSpin, ↓keep_setSpin, ↓keep_spindleStart, ↓keep_ite, ite_self])

def lawNodesFoot : Nat := footOf [.servos] [F.sscSat_sat]
theorem keep_lawNodes {ft : Nat} (hft : inFoot lawNodesFoot ft = true) (d : Dev) (n : Nat) (held : Bool) (law : TickLaw) : keep
    ft (lawNodes d n held law) = keep ft d :=
  keep_mono hft (by simp +decide only [lawNodes, ↓keep_putNode, ↓keep_ite, ite_self])

def spindleTickFoot : Nat := footOf [] [F.sscSat_sat, F.spnStat_speed, F.pwrHoldStat_elapsed] ||| enterRetractFoot |||
  spindleStartFoot ||| recordOvrFoot
theorem keep_spindleTick {ft : Nat} (hft : inFoot spindleTickFoot ft = true) (n speed vbus : Nat) (ibus : Int) (doneA doneB :
    Bool) (law : TickLaw) (d : Dev) : keep ft (spindleTick n speed vbus ibus doneA doneB law d) = keep ft d :=
  keep_mono hft (by simp +decide only [spindleTick, ↓keep_wr, ↓keep_addSat, ↓keep_cardExtreme, ↓keep_updServo, ↓keep_updSpin,
    ↓keep_putNode, ↓keep_setSpin, ↓keep_pslFrame, ↓keep_enterRetract, ↓keep_recordOvr, ↓keep_rampTick, ↓keep_rotorStopped,
    ↓keep_lawNodes, ↓keep_ite, ite_self])

def bemfCrossingFoot : Nat := footOf [.servos, .spins] [F.sscSat_sat]
theorem keep_bemfCrossing {ft : Nat} (hft : inFoot bemfCrossingFoot ft = true) (n : Nat) (err : Int) (d : Dev) : keep ft
    (bemfCrossing n err d) = keep ft d :=
  keep_mono hft (by simp +decide only [bemfCrossing, ↓keep_updSpin, ↓keep_putNode, ↓keep_ite, ite_self])

def commutationFoot : Nat := footOf [.out, .servos, .spins] [F.sscSat_sat, F.spnEvt_skip, F.spnCnt_skips]
theorem keep_commutation {ft : Nat} (hft : inFoot commutationFoot ft = true) (n windowNs : Nat) (found disagree : Bool) (d :
    Dev) : keep ft (commutation n windowNs found disagree d) = keep ft d :=
  keep_mono hft (by simp +decide only [commutation, ↓keep_addSat, ↓keep_setFlag, ↓keep_emit, ↓keep_updSpin, ↓keep_putNode,
    ↓keep_ite, ite_self])

def rotorLostFoot : Nat := footOf [.servos, .spins, .card] [F.sscSat_sat, F.spnStat_state, F.spnEvt_lost, F.spnCnt_losts] |||
  seqStopFoot ||| recomputeBoundFoot
theorem keep_rotorLost {ft : Nat} (hft : inFoot rotorLostFoot ft = true) (n : Nat) (d : Dev) : keep ft (rotorLost n d) = keep ft
    d :=
  keep_mono hft (by simp +decide only [rotorLost, ↓keep_setFlag, ↓keep_addSat, ↓keep_cardCount, ↓keep_seqStop, ↓keep_updSpin,
    ↓keep_recomputeBound, ↓keep_suspendHda, ↓keep_putNode, ↓keep_setSpin, ↓keep_forEach, ↓keep_ite, ite_self, implies_true])

def rotorRelockFoot : Nat := footOf [.spins] [F.spnStat_state, F.spnStat_speed, F.spnEvt_relock] ||| recomputeBoundFoot
theorem keep_rotorRelock {ft : Nat} (hft : inFoot rotorRelockFoot ft = true) (n speed : Nat) (d : Dev) : keep ft (rotorRelock n
    speed d) = keep ft d :=
  keep_mono hft (by simp +decide only [rotorRelock, ↓keep_setFlag, ↓keep_wr, ↓keep_recomputeBound, ↓keep_hdaArrived, ↓keep_lockAt,
    ↓keep_ite, ite_self])

def catchTimeoutFoot : Nat := footOf [.spins] [F.spnStat_state, F.spnEvt_restart, F.spnCnt_restarts] ||| unloadHeadsFoot
theorem keep_catchTimeout {ft : Nat} (hft : inFoot catchTimeoutFoot ft = true) (n : Nat) (d : Dev) : keep ft (catchTimeout n d)
    = keep ft d :=
  keep_mono hft (by simp +decide only [catchTimeout, ↓keep_setFlag, ↓keep_addSat, ↓keep_wr, ↓keep_cardBin, ↓keep_updSpin,
    ↓keep_suspendHda, ↓keep_setSpin, ↓keep_unloadHeads, ↓keep_ite, ite_self])

def demandUpdateFoot : Nat := footOf [.host, .spins] [F.spnStat_command, F.spnStat_curve_on, F.spnDemand_demand,
  F.spnDemand_curve]
theorem keep_demandUpdate {ft : Nat} (hft : inFoot demandUpdateFoot ft = true) (n : Nat) (up : Bool) (d : Dev) : keep ft
    (demandUpdate n up d) = keep ft d :=
  keep_mono hft (by simp +decide only [demandUpdate, ↓keep_wr, ↓keep_setFlag, ↓keep_updHost, ↓keep_updSpin, ↓keep_setCommand,
    ↓keep_ite, ite_self])

def setChopFoot : Nat := footOf [.out, .spins] []
theorem keep_setChop {ft : Nat} (hft : inFoot setChopFoot ft = true) (d : Dev) (n : Nat) (on : Bool) : keep ft (setChop d n on)
    = keep ft d :=
  keep_mono hft (by simp +decide only [setChop, ↓keep_emit, ↓keep_updSpin, ↓keep_ite, ite_self])

def vbusOv2Foot : Nat := footOf [.spins] [F.spnStat_state, F.spnStat_ov2, F.spnEvt_ov2] ||| recomputeBoundFoot |||
  unloadHeadsFoot
theorem keep_vbusOv2 {ft : Nat} (hft : inFoot vbusOv2Foot ft = true) (n : Nat) (d : Dev) : keep ft (vbusOv2 n d) = keep ft d :=
  keep_mono hft (by simp +decide only [vbusOv2, ↓keep_setFlag, ↓keep_wr, ↓keep_cardCount, ↓keep_updSpin, ↓keep_recomputeBound,
    ↓keep_suspendHda, ↓keep_setSpin, ↓keep_unloadHeads, ↓keep_ite, ite_self])

def stageFaultFoot : Nat := footOf [.spins] [F.spnStat_state, F.pslStat_fault_seen] ||| recomputeBoundFoot |||
  emergencyRetractFoot
theorem keep_stageFault {ft : Nat} (hft : inFoot stageFaultFoot ft = true) (d : Dev) (n : Nat) : keep ft (stageFault d n) = keep
    ft d :=
  keep_mono hft (by simp +decide only [stageFault, ↓keep_setFlag, ↓keep_wr, ↓keep_updSpin, ↓keep_recomputeBound, ↓keep_setSpin,
    ↓keep_emergencyRetract])

def pslCheckFoot : Nat := footOf [.out] [F.spnEvt_psl_fault, F.pslStat_psl_fault]
theorem keep_pslCheck {ft : Nat} (hft : inFoot pslCheckFoot ft = true) (d : Dev) (n : Nat) : keep ft (pslCheck d n) = keep ft d
    :=
  keep_mono hft (by simp +decide only [pslCheck, ↓keep_setFlag, ↓keep_emit, ↓keep_ite, ite_self])

def parkedEffectsFoot : Nat := footOf [.out, .spins] [F.sscLaneStat_state, F.spnStat_state]
theorem keep_parkedEffects {ft : Nat} (hft : inFoot parkedEffectsFoot ft = true) (d : Dev) (n : Nat) : keep ft (parkedEffects d
    n) = keep ft d :=
  keep_mono hft (by simp +decide only [parkedEffects, ↓keep_updSpin, ↓keep_setLaneState, ↓keep_setSpin, ↓keep_forEach, ↓keep_ite,
    ite_self, implies_true])

def pslUplinkFoot : Nat := footOf [.servos] [F.sscSat_sat, F.spnEvt_psl_fault, F.pslStat_dl_err, F.pslStat_ul_err,
  F.pslStat_fault_seen, F.pslStat_parked, F.pslStat_psl_fault] ||| parkedEffectsFoot
theorem keep_pslUplink {ft : Nat} (hft : inFoot pslUplinkFoot ft = true) (n : Nat) (f : Option (BitVec 96)) (d : Dev) : keep ft
    (pslUplink n f d) = keep ft d :=
  keep_mono hft (by simp +decide only [pslUplink]; split <;> simp +decide only [↓keep_addSat,
    ↓keep_setFlag, ↓keep_wr, ↓keep_updServo, ↓keep_updSpin, ↓keep_putNode, ↓keep_pslCheck, ↓keep_parkedEffects, ↓keep_ite,
    ite_self])

def setVoteFoot : Nat := footOf [] [F.pwrVote_dom]
theorem keep_setVote {ft : Nat} (hft : inFoot setVoteFoot ft = true) (d : Dev) (k : Nat) (bits : Nat) : keep ft (setVote d k
    bits) = keep ft d :=
  keep_mono hft (by simp +decide only [setVote, ↓keep_wr])

def orVoteFoot : Nat := footOf [] [F.pwrVote_dom]
theorem keep_orVote {ft : Nat} (hft : inFoot orVoteFoot ft = true) (d : Dev) (k dom : Nat) : keep ft (orVote d k dom) = keep ft
    d :=
  keep_mono hft (by simp +decide only [orVote, ↓keep_setBit])

def clearVoteFoot : Nat := footOf [] [F.pwrVote_dom]
theorem keep_clearVote {ft : Nat} (hft : inFoot clearVoteFoot ft = true) (d : Dev) (k dom : Nat) : keep ft (clearVote d k dom) =
    keep ft d :=
  keep_mono hft (by simp +decide only [clearVote, ↓keep_setBit])

theorem keep_discardWrite {ft : Nat} (hft : inFoot finishFoot ft = true) (d : Dev) (id : Nat) : keep ft (discardWrite d id) =
    keep ft d :=
  keep_mono hft (by simp +decide only [discardWrite]; split <;> simp +decide only [↓keep_discardCtx, ↓keep_discardData, ↓keep_restorePtr, ↓keep_undoContext,
    ↓keep_ite, ite_self])

def dropInFlightFoot : Nat := discardCtxFoot ||| syncHostFoot
theorem keep_dropInFlight {ft : Nat} (hft : inFoot dropInFlightFoot ft = true) (d : Dev) : keep ft (dropInFlight d) = keep ft d
    := by
  refine keep_mono hft ?_
  unfold dropInFlight
  extract_lets ids e1 e2 c e3
  have he1 : keep dropInFlightFoot e1 = keep dropInFlightFoot d := by
    refine keep_forEach _ _ _ fun d id => ?_
    split
    · split
      · split
        · simp +decide only [↓keep_discardCtx, ↓keep_discardData, ↓keep_setPtr, ↓keep_forEach, implies_true]
        · rfl
      · rfl
    · rfl
  have he2 : keep dropInFlightFoot e2 = keep dropInFlightFoot d := by simp only [e2]; simp +decide only [he1, ↓keep_discardCtx, ↓keep_forEach, implies_true]
  have he3 : keep dropInFlightFoot e3 = keep dropInFlightFoot d := by simp only [e3]; simp +decide only [he2, ↓keep_part_chain]
  simp +decide only [he3, ↓keep_updPort, ↓keep_syncHost, ↓keep_forEach, implies_true]

def trimZonesFoot : Nat := footOf [.host] []
theorem keep_trimZones {ft : Nat} (hft : inFoot trimZonesFoot ft = true) (d : Dev) (lost : List Copied) : keep ft (trimZones d
    lost) = keep ft d := by
  refine keep_mono hft ?_
  unfold trimZones
  refine keep_forEach _ _ _ fun e b => ?_
  split
  · split
    · rfl
    · extract_lets zi off
      split
      · simp +decide only [↓keep_setPtr, ↓keep_ite, ite_self]
      · rfl
  · rfl

theorem keep_sealCopies {ft : Nat} (hft : inFoot xtsUseFoot ft = true) (d : Dev) (l : List Copied) : keep ft (sealCopies d l).2
    = keep ft d := by
  refine keep_mono hft ?_
  unfold sealCopies
  refine keep_foldl_snd _ _ (fun acc k => ?_) _
  split
  · rfl
  · next ns _ =>
    have hx := keep_xtsUse (ft := xtsUseFoot) (by decide) acc.2 ns k.2 (l.filter fun c => c.1 == k.1 && c.2.2.pair == k.2).length
        true
    split
    · next hu => rw [hu] at hx; exact hx
    · next hu => rw [hu] at hx; exact hx

def writeAnchorFoot : Nat := footOf [.out, .host] []
theorem keep_writeAnchor {ft : Nat} (hft : inFoot writeAnchorFoot ft = true) (d : Dev) (n : Nat) : keep ft (writeAnchor d n) =
    keep ft d :=
  keep_mono hft (by simp +decide only [writeAnchor, ↓keep_emit, ↓keep_updHost])

def emitGroupsFoot : Nat := footOf [.out] []
theorem keep_emitGroups {ft : Nat} (hft : inFoot emitGroupsFoot ft = true) (d : Dev) (n : Nat) (es : List JournalEntry) : keep
    ft (emitGroups d n es) = keep ft d :=
  keep_mono hft (by simp +decide only [emitGroups, ↓keep_emit, ↓keep_forEach, implies_true])

def otherEntriesFoot : Nat := footOf [.draws] []
theorem keep_otherEntries {ft : Nat} (hft : inFoot otherEntriesFoot ft = true) (d : Dev) (n : Nat) (records : List MapRec) :
    keep ft (otherEntries d n records).2 = keep ft d := by
  refine keep_mono hft ?_
  unfold otherEntries
  extract_lets held maps
  refine keep_foldl_snd _ _ (fun acc e => ?_) _
  exact keep_draw acc.2 (by decide)

def flushLockerFoot : Nat := footOf [.host, .reset] [] ||| xtsUseFoot ||| syncHostFoot
theorem keep_flushLocker {ft : Nat} (hft : inFoot flushLockerFoot ft = true) (d : Dev) (n written : Nat) : keep ft (flushLocker
    d n written) = keep ft d :=
  keep_mono hft (by simp +decide only [flushLocker, ↓keep_updHost, ↓keep_updExtents, ↓keep_syncHost, ↓keep_updReset,
    ↓keep_trimZones, ↓keep_sealCopies, ↓keep_emitGroups, ↓keep_otherEntries, ↓keep_ite, ite_self])

def dropActivationFoot : Nat := footOf [.struct] [F.glbStructStat_activate]
theorem keep_dropActivation {ft : Nat} (hft : inFoot dropActivationFoot ft = true) (d : Dev) : keep ft (dropActivation d) = keep
    ft d :=
  keep_mono hft (by simp +decide only [dropActivation, ↓keep_wr, ↓keep_part_struct])

def shedXbarFoot : Nat := footOf [.xb] []
theorem keep_shedXbar {ft : Nat} (hft : inFoot shedXbarFoot ft = true) (d : Dev) (port : Nat) : keep ft (shedXbar d port) = keep
    ft d :=
  keep_mono hft (by simp +decide only [shedXbar, ↓keep_part_xb])

def hostLinkDownFoot : Nat := footOf [.host, .card] []
theorem keep_hostLinkDown {ft : Nat} (hft : inFoot hostLinkDownFoot ft = true) (d : Dev) (h : Nat) : keep ft (hostLinkDown d h)
    = keep ft d :=
  keep_mono hft (by simp +decide only [hostLinkDown, ↓keep_cardEpoch, ↓keep_updPort, ↓keep_ite, ite_self])

def linksDownFoot : Nat := footOf [.host, .card] [] ||| portDownFoot
theorem keep_linksDown {ft : Nat} (hft : inFoot linksDownFoot ft = true) (d : Dev) (cause : Nat) : keep ft (linksDown d cause) =
    keep ft d :=
  keep_mono hft (by simp +decide only [linksDown, ↓keep_portDown, ↓keep_hostLinkDown, ↓keep_forEach, implies_true])

theorem keep_abortAll {ft : Nat} (hft : inFoot seqStopFoot ft = true) (d : Dev) : keep ft (abortAll d) = keep ft d :=
  keep_mono hft (by simp +decide only [abortAll, ↓keep_seqStop, ↓keep_forEach, ↓keep_ite, ite_self, implies_true])

def dropTasksFoot : Nat := footOf [.host] [] ||| seqStopFoot
theorem keep_dropTasks {ft : Nat} (hft : inFoot dropTasksFoot ft = true) (d : Dev) : keep ft (dropTasks d) = keep ft d :=
  keep_mono hft (by simp +decide only [dropTasks, ↓keep_updTasks, ↓keep_abortAll])

def cancelCalsFoot : Nat := footOf [] [F.calStat_busy, F.calDue_due]
theorem keep_cancelCals {ft : Nat} (hft : inFoot cancelCalsFoot ft = true) (d : Dev) : keep ft (cancelCals d) = keep ft d :=
  keep_mono hft (by simp +decide only [cancelCals, ↓keep_wr, ↓keep_setFlag, ↓keep_forEach, implies_true])

def driveFaultFoot : Nat := footOf [.out] [F.glbPins_fault_n]
theorem keep_driveFault {ft : Nat} (hft : inFoot driveFaultFoot ft = true) (d : Dev) (low : Bool) : keep ft (driveFault d low) =
    keep ft d :=
  keep_mono hft (by simp +decide only [driveFault, ↓keep_setFlag, ↓keep_emit])

def driveTripFoot : Nat := footOf [.out] [F.glbPins_therm_trip_n]
theorem keep_driveTrip {ft : Nat} (hft : inFoot driveTripFoot ft = true) (d : Dev) (low : Bool) : keep ft (driveTrip d low) =
    keep ft d :=
  keep_mono hft (by simp +decide only [driveTrip, ↓keep_setFlag, ↓keep_emit])

def syncPhaseFoot : Nat := footOf [.therm] [F.thmStat_phase]
theorem keep_syncPhase {ft : Nat} (hft : inFoot syncPhaseFoot ft = true) (d : Dev) : keep ft (syncPhase d) = keep ft d := by
  refine keep_mono hft ?_
  unfold syncPhase
  split
  · simp +decide only [↓keep_wr]
  · split
    · exact (keep_part_therm (d.wr F.thmStat_phase 0) _ (by decide)).trans (keep_wr d _ _ _ _ (by decide))
    · rfl

def endLoopsFoot : Nat := footOf [.therm] [F.pwrVote_dom, F.thmStat_phase, F.loop_depth, F.loop_run]
theorem keep_endLoops {ft : Nat} (hft : inFoot endLoopsFoot ft = true) (d : Dev) : keep ft (endLoops d) = keep ft d :=
  keep_mono hft (by simp +decide only [endLoops, ↓keep_wr, ↓keep_setFlag, ↓keep_clearVote, ↓keep_syncPhase, ↓keep_forEach,
    implies_true])

def fireDrillStartFoot : Nat := footOf [.xb, .struct, .spins] [F.xbrArbCtl_hold_up, F.glbStructStat_activate, F.spnStat_state,
  F.pwrHoldStat_state, F.pwrHoldStat_cause, F.pwrHoldStat_flushing, F.pwrHoldStat_elapsed, F.pwrDom_dom, F.calStat_busy,
  F.calDue_due, F.glbStart_stage, F.glbPins_pwr_good] ||| dropTasksFoot ||| flushLockerFoot ||| unloadHeadsFoot |||
  dropInFlightFoot ||| linksDownFoot ||| endLoopsFoot
theorem keep_fireDrillStart {ft : Nat} (hft : inFoot fireDrillStartFoot ft = true) (low sag : Bool) (d : Dev) : keep ft
    (fireDrillStart low sag d) = keep ft d :=
  keep_mono hft (by simp +decide only [fireDrillStart, ↓keep_setFlag, ↓keep_wr, ↓keep_cardCount, ↓keep_stopFetch, ↓keep_setDom,
    ↓keep_setSpin, ↓keep_unloadHeads, ↓keep_coastSpin, ↓keep_updReset, ↓keep_dropInFlight, ↓keep_flushLocker,
    ↓keep_dropActivation, ↓keep_shedXbar, ↓keep_linksDown, ↓keep_dropTasks, ↓keep_cancelCals, ↓keep_endLoops, ↓keep_forEach,
    ↓keep_ite, ite_self, implies_true])

def fireDrillFlushEndFoot : Nat := footOf [.spins] [F.spnStat_state, F.pwrHoldStat_state, F.pwrHoldStat_flushing] |||
  flushLockerFoot ||| unloadHeadsFoot
theorem keep_fireDrillFlushEnd {ft : Nat} (hft : inFoot fireDrillFlushEndFoot ft = true) (n written : Nat) (d : Dev) : keep ft
    (fireDrillFlushEnd n written d) = keep ft d :=
  keep_mono hft (by simp +decide only [fireDrillFlushEnd, ↓keep_wr, ↓keep_unloadHeads, ↓keep_coastSpin, ↓keep_updReset,
    ↓keep_flushLocker, ↓keep_ite, ite_self])

def journalReplayFoot : Nat := footOf [.out, .host, .spins] []
theorem keep_journalReplay {ft : Nat} (hft : inFoot journalReplayFoot ft = true) (n : Nat) (d : Dev) : keep ft (journalReplay n
    d) = keep ft d :=
  keep_mono hft (by simp +decide only [journalReplay, ↓keep_emit, ↓keep_updHost, ↓keep_updSpin, ↓keep_recoverMap, ↓keep_forEach,
    ↓keep_ite, ite_self, implies_true])

end Sys2Proof.Machine
end

section
/-! PROOF. Footprints (5 of 10): channels, sequencers and control stores. An operation's footprint joins what it writes itself with the
footprints of the operations it calls, and its lemma says that it keeps everything else. -/
namespace Sys2Proof.Machine

def hdaThroughStartFoot : Nat := footOf [] [F.glbStart_ready] ||| postNoticeFoot
theorem keep_hdaThroughStart {ft : Nat} (hft : inFoot hdaThroughStartFoot ft = true) (d : Dev) (n : Nat) : keep ft
    (hdaThroughStart d n) = keep ft d :=
  keep_mono hft (by simp +decide only [hdaThroughStart, ↓keep_setBit, ↓keep_noticeOutstanding, ↓keep_ite, ite_self])

def journalReplayDoneFoot : Nat := footOf [.spins] [] ||| landBlkFoot ||| hdaThroughStartFoot
theorem keep_journalReplayDone {ft : Nat} (hft : inFoot journalReplayDoneFoot ft = true) (n : Nat) (skipped : List Nat) (d :
    Dev) : keep ft (journalReplayDone n skipped d) = keep ft d := by
  refine keep_mono hft ?_
  unfold journalReplayDone
  split
  · rfl
  · extract_lets all bad e1 mine e2 e3 e4 e5
    have he1 : keep journalReplayDoneFoot e1 = keep journalReplayDoneFoot d := by simp only [e1]; simp +decide only
        [↓keep_cardCount]
    have he2 : keep journalReplayDoneFoot e2 = keep journalReplayDoneFoot d := by simp only [e2]; simp +decide only [he1,
        ↓keep_landBlk, ↓keep_forEach, implies_true]
    have he3 : keep journalReplayDoneFoot e3 = keep journalReplayDoneFoot d := by
      refine (keep_forEach _ _ _ fun d u => ?_).trans he2
      split
      · rfl
      · simp +decide only [↓keep_refreshParity, ↓keep_placeUnit, ↓keep_ite, ite_self]
    have he4 : keep journalReplayDoneFoot e4 = keep journalReplayDoneFoot d := by simp only [e4]; simp +decide only [he3,
        ↓keep_updHost]
    have he5 : keep journalReplayDoneFoot e5 = keep journalReplayDoneFoot d := by simp only [e5]; simp +decide only [he4,
        ↓keep_writeAnchor]
    simp +decide only [he5, ↓keep_updSpin, ↓keep_hdaArrived, ↓keep_hdaThroughStart]

def setHvoteFoot : Nat := footOf [] [F.pwrHvote_hda]
theorem keep_setHvote {ft : Nat} (hft : inFoot setHvoteFoot ft = true) (d : Dev) (k n v : Nat) : keep ft (setHvote d k n v) =
    keep ft d :=
  keep_mono hft (by simp +decide only [setHvote, ↓keep_wr])

def syncVotesFoot : Nat := footOf [] [F.pwrVote_dom, F.pwrHvote_hda]
theorem keep_syncVotes {ft : Nat} (hft : inFoot syncVotesFoot ft = true) (d : Dev) : keep ft (syncVotes d) = keep ft d :=
  keep_mono hft (by simp +decide only [syncVotes, ↓keep_setVote, ↓keep_orVote, ↓keep_setHvote, ↓keep_forEach, implies_true])

def beginStepFoot : Nat := footOf [] [F.sscLaneStat_state, F.sscLaneStat_on_track, F.spnCtl_mode, F.pwrHs_step] |||
  spindleStartFoot
theorem keep_beginStep {ft : Nat} (hft : inFoot beginStepFoot ft = true) (d : Dev) (n : Nat) : keep ft (beginStep d n) = keep ft
    d := by
  refine keep_mono hft ?_
  unfold beginStep
  extract_lets code code' blocked e lanes
  have he : keep beginStepFoot e = keep beginStepFoot d := by simp only [e]; simp +decide only [↓keep_wr]
  split
  · simp +decide only [↓keep_wr]
  · clear_value code'
    split
    · simp +decide only [he, ↓keep_setFlag, ↓keep_suspendHda, ↓keep_setLaneState, ↓keep_forEach, implies_true]
    · simp +decide only [he, ↓keep_setLaneState, ↓keep_forEach, implies_true]
    · simp +decide only [he, ↓keep_setSpin, ↓keep_ite, ite_self]
    · simp +decide only [he, ↓keep_wr, ↓keep_spindleStart]
    · exact he

def reachedHs0Foot : Nat := footOf [] [F.glbStart_hs0_seen] ||| hdaThroughStartFoot
theorem keep_reachedHs0 {ft : Nat} (hft : inFoot reachedHs0Foot ft = true) (d : Dev) (n : Nat) : keep ft (reachedHs0 d n) = keep
    ft d :=
  keep_mono hft (by simp +decide only [reachedHs0, ↓keep_setBit, ↓keep_hdaArrived, ↓keep_hdaThroughStart])

def evaluateHdaFoot : Nat := footOf [] [F.pwrHs_target, F.pwrHs_in_transition, F.pwrHs_permitted, F.pwrHs_voted, F.pwrHs_lmin]
  ||| beginStepFoot
theorem keep_evaluateHda {ft : Nat} (hft : inFoot evaluateHdaFoot ft = true) (d : Dev) (n : Nat) : keep ft (evaluateHda d n) =
    keep ft d :=
  keep_mono hft (by simp +decide only [evaluateHda, ↓keep_wr, ↓keep_setFlag, ↓keep_recomputeBound, ↓keep_updPower,
    ↓keep_beginStep, ↓keep_ite, ite_self])

def applyLimitsFoot : Nat := footOf [] [F.spnStat_command, F.pwrPs_streams, F.pwrPs_speed_cap, F.pwrPs_host_width,
  F.pwrPs_engines, F.pwrPs_throttling]
theorem keep_applyLimits {ft : Nat} (hft : inFoot applyLimitsFoot ft = true) (d : Dev) : keep ft (applyLimits d) = keep ft d :=
  keep_mono hft (by simp +decide only [applyLimits, ↓keep_wr, ↓keep_setFlag, ↓keep_setCommand, ↓keep_forEach, implies_true])

def setPowerStateFoot : Nat := footOf [.power] [F.pwrPs_ps] ||| applyLimitsFoot
theorem keep_setPowerState {ft : Nat} (hft : inFoot setPowerStateFoot ft = true) (d : Dev) (ps : Nat) : keep ft (setPowerState d
    ps) = keep ft d :=
  keep_mono hft (by simp +decide only [setPowerState, ↓keep_wr, ↓keep_updPower, ↓keep_applyLimits])

def enterCs2Foot : Nat := footOf [] [F.pwrCs_state, F.pwrCs_target, F.pwrDom_dom]
theorem keep_enterCs2 {ft : Nat} (hft : inFoot enterCs2Foot ft = true) (d : Dev) : keep ft (enterCs2 d) = keep ft d :=
  keep_mono hft (by simp +decide only [enterCs2, ↓keep_wr, ↓keep_setDom, ↓keep_forEach, implies_true])

def wakeCs2Foot : Nat := footOf [] [F.pwrCs_state, F.pwrCs_target, F.pwrDom_dom]
theorem keep_wakeCs2 {ft : Nat} (hft : inFoot wakeCs2Foot ft = true) (d : Dev) : keep ft (wakeCs2 d) = keep ft d :=
  keep_mono hft (by simp +decide only [wakeCs2, ↓keep_leaveCs2, ↓keep_ite, ite_self])

def controllerResetFoot : Nat := footOf [.struct, .card, .sec, .fw] [F.glbStructStat_activate, F.hstCtxStat_fetch_stalled,
  F.pwrCs_state, F.pwrCs_target, F.pwrDom_dom, F.glbPins_perst_n] ||| finishFoot
theorem keep_controllerReset {ft : Nat} (hft : inFoot controllerResetFoot ft = true) (h : Nat) (byPerst : Bool) (d : Dev) : keep
    ft (controllerReset h byPerst d) = keep ft d := by
  refine keep_mono hft ?_
  unfold controllerReset
  extract_lets e1 e2 e3 e4 e5 e6 e7 s e8 f x c e9
  have he1 : keep controllerResetFoot e1 = keep controllerResetFoot d := by simp only [e1]; simp +decide only [↓keep_wakeCs2]
  have he2 : keep controllerResetFoot e2 = keep controllerResetFoot d := by simp only [e2]; simp +decide only [he1, ↓keep_discardWrite, ↓keep_forEach, implies_true]
  have he4 : keep controllerResetFoot e4 = keep controllerResetFoot d := by simp only [e4, e3]; simp +decide only [he2,
      ↓keep_cardEpoch, ↓keep_updHost, ↓keep_ite, ite_self]
  have he5 : keep controllerResetFoot e5 = keep controllerResetFoot d := by simp only [e5]; simp +decide only [he4, ↓keep_updPort]
  have he7 : keep controllerResetFoot e7 = keep controllerResetFoot d := by simp only [e7, e6]; simp +decide only [he5,
      ↓keep_setBit, ↓keep_setFlag, ↓keep_ite, ite_self]
  have he8 : keep controllerResetFoot e8 = keep controllerResetFoot d := by
    simp only [e8]
    split
    · split
      · simp +decide only [he7, ↓keep_dropActivation]
      · exact (keep_part_struct e7 _ (by decide)).trans he7
    · exact he7
  have he9 : keep controllerResetFoot e9 = keep controllerResetFoot d := by
    refine Eq.trans ?_ he8
    exact ((keep_part_fw _ _ (by decide)).trans (keep_part_sec _ _ (by decide))).trans (keep_part_cipher e8 _ (by decide))
  simp +decide only [he9, ↓keep_syncHost]

def controllerReadyFoot : Nat := footOf [.card] [] ||| postNoticeFoot
theorem keep_controllerReady {ft : Nat} (hft : inFoot controllerReadyFoot ft = true) (h : Nat) (d : Dev) : keep ft
    (controllerReady h d) = keep ft d :=
  keep_mono hft (by simp +decide only [controllerReady, ↓keep_updCard, ↓keep_updPort, ↓keep_noticeOutstanding, ↓keep_ite,
    ite_self])

def hostTrainFoot : Nat := footOf [.host] []
theorem keep_hostTrain {ft : Nat} (hft : inFoot hostTrainFoot ft = true) (d : Dev) (h : Nat) : keep ft (hostTrain d h) = keep ft
    d :=
  keep_mono hft (by simp +decide only [hostTrain, ↓keep_updPort, ↓keep_ite, ite_self])

def perstDeassertFoot : Nat := footOf [.host] [F.pwrCs_state, F.pwrCs_target, F.pwrDom_dom, F.glbPins_perst_n]
theorem keep_perstDeassert {ft : Nat} (hft : inFoot perstDeassertFoot ft = true) (h width gen : Nat) (d : Dev) : keep ft
    (perstDeassert h width gen d) = keep ft d :=
  keep_mono hft (by simp +decide only [perstDeassert, ↓keep_setBit, ↓keep_updPort, ↓keep_wakeCs2, ↓keep_hostTrain])

def destageAllFoot : Nat := footOf [.host] []
theorem keep_destageAll {ft : Nat} (hft : inFoot destageAllFoot ft = true) (d : Dev) (lockerOnly : Bool) : keep ft (destageAll d
    lockerOnly) = keep ft d :=
  keep_mono hft (by simp +decide only [destageAll, ↓keep_addTask, ↓keep_toLocker, ↓keep_forEach, ↓keep_ite, ite_self,
    implies_true])

def beginStopFoot : Nat := footOf [.struct, .reset] [F.glbStructStat_activate, F.pwrCs_state, F.pwrCs_target, F.pwrDom_dom,
  F.calStat_busy, F.calDue_due] ||| dropTasksFoot ||| dropInFlightFoot ||| linksDownFoot ||| thawCardFoot ||| endLoopsFoot
theorem keep_beginStop {ft : Nat} (hft : inFoot beginStopFoot ft = true) (d : Dev) (thermal : Bool) (pm : Option Nat) : keep ft
    (beginStop d thermal pm) = keep ft d :=
  keep_mono hft (by simp +decide only [beginStop, ↓keep_stopFetch, ↓keep_stopCheckpoint, ↓keep_updReset, ↓keep_dropInFlight,
    ↓keep_dropActivation, ↓keep_linksDown, ↓keep_dropTasks, ↓keep_cancelCals, ↓keep_endLoops, ↓keep_wakeCs2])

def orderlyResetFoot : Nat := footOf [] [F.glbStart_stage, F.glbPins_sys_rst_n] ||| beginStopFoot
theorem keep_orderlyReset {ft : Nat} (hft : inFoot orderlyResetFoot ft = true) (d : Dev) : keep ft (orderlyReset d) = keep ft d
    :=
  keep_mono hft (by simp +decide only [orderlyReset, ↓keep_setFlag, ↓keep_wr, ↓keep_updReset, ↓keep_beginStop, ↓keep_part_therm,
    ↓keep_ite, ite_self])

def stopFlushedFoot : Nat := footOf [.spins] [F.spnStat_state, F.memWipe_state] ||| flushLockerFoot ||| unloadHeadsFoot
theorem keep_stopFlushed {ft : Nat} (hft : inFoot stopFlushedFoot ft = true) (uncovered : List Nat) (d : Dev) : keep ft
    (stopFlushed uncovered d) = keep ft d :=
  keep_mono hft (by simp +decide only [stopFlushed, ↓keep_wr, ↓keep_unloadHeads, ↓keep_coastSpin, ↓keep_updReset,
    ↓keep_flushLocker, ↓keep_forEach, ↓keep_ite, ite_self, implies_true])

def setStepFoot : Nat := footOf [.out, .therm] [F.pwrCs_state, F.pwrCs_target, F.pwrDom_dom, F.thmStat_step, F.thmEvt_step_up,
  F.thmEvt_step_down] ||| applyLimitsFoot
theorem keep_setStep {ft : Nat} (hft : inFoot setStepFoot ft = true) (d : Dev) (step : Nat) : keep ft (setStep d step) = keep ft
    d := by
  refine keep_mono hft ?_
  unfold setStep
  extract_lets old e e'
  have he : keep setStepFoot e = keep setStepFoot d := by
    simp only [e]
    split
    · simp +decide only [↓keep_wr, ↓keep_setFlag]
    · simp +decide only [↓keep_wr, ↓keep_setFlag]
  have he' : keep setStepFoot e' = keep setStepFoot d := by simp only [e']; simp +decide only [he, ↓keep_updTherm]
  split
  · rfl
  · simp +decide only [he', ↓keep_emit, ↓keep_applyLimits, ↓keep_wakeCs2]

def syncFixedFoot : Nat := footOf [] [F.thmStat_fixed] ||| setStepFoot
theorem keep_syncFixed {ft : Nat} (hft : inFoot syncFixedFoot ft = true) (d : Dev) : keep ft (syncFixed d) = keep ft d :=
  keep_mono hft (by simp +decide only [syncFixed, ↓keep_setFlag, ↓keep_updTherm, ↓keep_setStep, ↓keep_ite, ite_self])

def checkThresholdsFoot : Nat := footOf [.therm] [] ||| postNoticeFoot
theorem keep_checkThresholds {ft : Nat} (hft : inFoot checkThresholdsFoot ft = true) (d : Dev) : keep ft (checkThresholds d) =
    keep ft d :=
  keep_mono hft (by simp +decide only [checkThresholds, ↓keep_updTherm, ↓keep_postNotice, ↓keep_forEach, ↓keep_ite, ite_self,
    implies_true])

def readSensorFoot : Nat := footOf [.therm] [F.thmSens_temp, F.thmSens_peak]
theorem keep_readSensor {ft : Nat} (hft : inFoot readSensorFoot ft = true) (d : Dev) (i : Nat) (t : Int) : keep ft (readSensor d
    i t) = keep ft d :=
  keep_mono hft (by simp +decide only [readSensor, ↓keep_wrInt, ↓keep_updTherm, ↓keep_ite, ite_self])

def updateRegionsFoot : Nat := footOf [.therm] [F.thmStat_die_max, F.thmRegion_temp, F.thmRegion_rise8, F.thmRegion_rise2,
  F.thmRegion_band]
theorem keep_updateRegions {ft : Nat} (hft : inFoot updateRegionsFoot ft = true) (d : Dev) : keep ft (updateRegions d) = keep ft
    d :=
  keep_mono hft (by simp +decide only [updateRegions, ↓keep_wrInt, ↓keep_wr, ↓keep_updTherm, ↓keep_forEach, implies_true])

def newSettingFoot : Nat := footOf [.therm] []
theorem keep_newSetting {ft : Nat} (hft : inFoot newSettingFoot ft = true) (d : Dev) (kind inst : Nat) (setting : List Int) :
    keep ft (newSetting d kind inst setting) = keep ft d :=
  keep_mono hft (by simp +decide only [newSetting, ↓keep_updTherm, ↓keep_trimStep, ↓keep_ite, ite_self])

def bandSettingsFoot : Nat := footOf [.therm] []
theorem keep_bandSettings {ft : Nat} (hft : inFoot bandSettingsFoot ft = true) (d : Dev) : keep ft (bandSettings d) = keep ft d
    :=
  keep_mono hft (by simp (disch := (intros; simp +decide only [↓keep_newSetting, ↓keep_forEach, ↓keep_ite, ite_self,
    implies_true])) only [bandSettings, ↓keep_forEach])

def regionDueFoot : Nat := footOf [] [F.calDue_due]
theorem keep_regionDue {ft : Nat} (hft : inFoot regionDueFoot ft = true) (d : Dev) : keep ft (regionDue d) = keep ft d :=
  keep_mono hft (by simp (disch := (intros; simp +decide only [↓keep_makeDue, ↓keep_forEach, ↓keep_ite, ite_self, implies_true]))
    only [regionDue, ↓keep_forEach])

def countDeviationFoot : Nat := footOf [.therm] []
theorem keep_countDeviation {ft : Nat} (hft : inFoot countDeviationFoot ft = true) (d : Dev) (i : Nat) : keep ft (countDeviation
    d i) = keep ft d :=
  keep_mono hft (by simp +decide only [countDeviation, ↓keep_updTherm])

def cardTempsFoot : Nat := footOf [.card] []
theorem keep_cardTemps {ft : Nat} (hft : inFoot cardTempsFoot ft = true) (d : Dev) : keep ft (cardTemps d) = keep ft d :=
  keep_mono hft (by simp +decide only [cardTemps, ↓keep_updCard, ↓keep_cardBin, ↓keep_cardExtreme, ↓keep_forEach, ↓keep_ite, ite_self, implies_true])

def thermalShutdownFoot : Nat := footOf [] [F.thmStat_cause, F.thmEvt_shutdown, F.glbPins_fault_n] ||| beginStopFoot
theorem keep_thermalShutdown {ft : Nat} (hft : inFoot thermalShutdownFoot ft = true) (d : Dev) (cause : Nat) : keep ft
    (thermalShutdown d cause) = keep ft d :=
  keep_mono hft (by simp +decide only [thermalShutdown, ↓keep_wr, ↓keep_setFlag, ↓keep_emit, ↓keep_updReset, ↓keep_driveFault,
    ↓keep_beginStop, ↓keep_ite, ite_self])

def thermalChecksFoot : Nat := thermalShutdownFoot ||| setStepFoot
theorem keep_thermalChecks {ft : Nat} (hft : inFoot thermalChecksFoot ft = true) (d : Dev) : keep ft (thermalChecks d) = keep ft
    d :=
  keep_mono hft (by simp +decide only [thermalChecks, ↓keep_updTherm, ↓keep_setStep, ↓keep_thermalShutdown, ↓keep_ite, ite_self])

def thermalSampleFoot : Nat := footOf [] [F.thmSens_temp, F.thmSens_peak] ||| thermalChecksFoot ||| updateRegionsFoot
theorem keep_thermalSample {ft : Nat} (hft : inFoot thermalSampleFoot ft = true) (temps : List Int) (d : Dev) : keep ft
    (thermalSample temps d) = keep ft d :=
  keep_mono hft (by unfold thermalSample; split <;> simp +decide only [↓keep_checkThresholds, ↓keep_readSensor,
    ↓keep_updateRegions, ↓keep_bandSettings, ↓keep_regionDue, ↓keep_countDeviation, ↓keep_cardTemps, ↓keep_thermalChecks,
    ↓keep_forEach, implies_true])

theorem keep_throttleStepDown {ft : Nat} (hft : inFoot setStepFoot ft = true) (d : Dev) : keep ft (throttleStepDown d) = keep ft
    d :=
  keep_mono hft (by simp +decide only [throttleStepDown, ↓keep_updTherm, ↓keep_setStep, ↓keep_ite, ite_self])

def sensorExclusionFoot : Nat := footOf [.card] [F.thmStat_excluded, F.thmEvt_exclude, F.thmSens_excluded] ||| syncFixedFoot
theorem keep_sensorExclusion {ft : Nat} (hft : inFoot sensorExclusionFoot ft = true) (i : Nat) (d : Dev) : keep ft
    (sensorExclusion i d) = keep ft d :=
  keep_mono hft (by simp +decide only [sensorExclusion, ↓keep_setFlag, ↓keep_addWrap, ↓keep_emit, ↓keep_cardCount, ↓keep_wakeCs2,
    ↓keep_syncFixed, ↓keep_ite, ite_self])

def hardwareTripFoot : Nat := footOf [.struct, .spins] [F.glbStructStat_activate, F.spnStat_state, F.pwrHoldStat_state,
  F.pwrHoldStat_flushing, F.pwrCs_state, F.pwrCs_target, F.pwrDom_dom, F.thmStat_cause, F.thmEvt_shutdown, F.calStat_busy,
  F.calDue_due, F.glbPins_therm_trip_n, F.glbPins_fault_n] ||| dropTasksFoot ||| flushLockerFoot ||| emergencyRetractFoot |||
  dropInFlightFoot ||| linksDownFoot ||| endLoopsFoot
theorem keep_hardwareTrip {ft : Nat} (hft : inFoot hardwareTripFoot ft = true) (i : Nat) (d : Dev) : keep ft (hardwareTrip i d)
    = keep ft d :=
  keep_mono hft (by simp +decide only [hardwareTrip, ↓keep_wr, ↓keep_setFlag, ↓keep_draw, ↓keep_stopFetch, ↓keep_emergencyRetract,
    ↓keep_coastSpin, ↓keep_updReset, ↓keep_dropInFlight, ↓keep_flushLocker, ↓keep_dropActivation, ↓keep_linksDown,
    ↓keep_dropTasks, ↓keep_cancelCals, ↓keep_driveFault, ↓keep_driveTrip, ↓keep_endLoops, ↓keep_wakeCs2, ↓keep_forEach,
    ↓keep_ite, ite_self, implies_true])

def phaseNormalFoot : Nat := footOf [.therm] [F.thmStat_phase]
theorem keep_phaseNormal {ft : Nat} (hft : inFoot phaseNormalFoot ft = true) (d : Dev) : keep ft (phaseNormal d) = keep ft d :=
  keep_mono hft (by simp +decide only [phaseNormal, ↓keep_wr, ↓keep_updTherm])

def thermalPhaseNormalFoot : Nat := footOf [.therm] [F.thmStat_phase]
theorem keep_thermalPhaseNormal {ft : Nat} (hft : inFoot thermalPhaseNormalFoot ft = true) (d : Dev) : keep ft
    (thermalPhaseNormal d) = keep ft d :=
  keep_mono hft (by simp +decide only [thermalPhaseNormal, ↓keep_phaseNormal, ↓keep_ite, ite_self])

def regionEventFoot : Nat := footOf [] [F.glbRegionStat_temp_over, F.glbRegionStat_volt_over, F.glbRegionStat_temp_seen,
  F.glbRegionStat_volt_seen] ||| syncFixedFoot
theorem keep_regionEvent {ft : Nat} (hft : inFoot regionEventFoot ft = true) (pair : Nat) (volt : Bool) (d : Dev) : keep ft
    (regionEvent pair volt d) = keep ft d :=
  keep_mono hft (by simp +decide only [regionEvent, ↓keep_setBit, ↓keep_emit, ↓keep_syncFixed, ↓keep_ite, ite_self])

def headValuesFoot : Nat := footOf [.out, .chns] [F.chnWstat_fly_ok, F.chnFly_read_code, F.chnFly_write_code, F.chnFly_td_code]
theorem keep_headValues {ft : Nat} (hft : inFoot headValuesFoot ft = true) (d : Dev) (a h : Nat) (v : List Nat) : keep ft
    (headValues d a h v) = keep ft d :=
  keep_mono hft (by simp +decide only [headValues, ↓keep_wr, ↓keep_flyUpdate, ↓keep_forEach, implies_true])

def headPollFoot : Nat := footOf [.card] [F.thmStat_head_max, F.thmHead_head, F.calDue_due] ||| checkThresholdsFoot |||
  headValuesFoot
theorem keep_headPoll {ft : Nat} (hft : inFoot headPollFoot ft = true) (a : Nat) (temps : List Int) (d : Dev) : keep ft
    (headPoll a temps d) = keep ft d :=
  keep_mono hft (by simp +decide only [headPoll, ↓keep_wrInt, ↓keep_cardExtreme, ↓keep_updTherm, ↓keep_makeHeadDue,
    ↓keep_checkThresholds, ↓keep_headValues, ↓keep_forEach, ↓keep_ite, ite_self, implies_true])

def calRequestFoot : Nat := footOf [.therm] [F.calCtl_kind, F.calCtl_inst, F.calDue_due]
theorem keep_calRequest {ft : Nat} (hft : inFoot calRequestFoot ft = true) (kind inst : Nat) (d : Dev) : keep ft (calRequest
    kind inst d) = keep ft d :=
  keep_mono hft (by simp +decide only [calRequest, ↓keep_wr, ↓keep_makeAllDue])

def calStartFoot : Nat := footOf [] [F.pwrVote_dom, F.calStat_busy, F.calStat_kind, F.calStat_inst, F.calDue_due]
theorem keep_calStart {ft : Nat} (hft : inFoot calStartFoot ft = true) (kind inst : Nat) (wait : Bool) (d : Dev) : keep ft
    (calStart kind inst wait d) = keep ft d :=
  keep_mono hft (by simp +decide only [calStart, ↓keep_setBit, ↓keep_setFlag, ↓keep_wr, ↓keep_orVote, ↓keep_ite, ite_self])

def healthMeasureFoot : Nat := footOf [.health] [] ||| postNoticeFoot
theorem keep_healthMeasure {ft : Nat} (hft : inFoot healthMeasureFoot ft = true) (d : Dev) (a h : Nat) (r : CalRes) : keep ft
    (healthMeasure d a h r) = keep ft d :=
  keep_mono hft (by simp +decide only [healthMeasure, ↓keep_updHealth, ↓keep_noticeAll, ↓keep_ite, ite_self])

def calFaultFoot : Nat := detainHeadFoot ||| setCauseFoot
theorem keep_calFault {ft : Nat} (hft : inFoot calFaultFoot ft = true) (d : Dev) (a h : Nat) : keep ft (calFault d a h) = keep
    ft d :=
  keep_mono hft (by simp +decide only [calFault, ↓keep_addWrap, ↓keep_setFlag, ↓keep_updHealth, ↓keep_setCause, ↓keep_detainHead,
    ↓keep_forEach, implies_true])

def headCalibratedFoot : Nat := calFaultFoot ||| headValuesFoot
theorem keep_headCalibrated {ft : Nat} (hft : inFoot headCalibratedFoot ft = true) (d : Dev) (a h : Nat) (r : CalRes) : keep ft
    (headCalibrated d a h r) = keep ft d :=
  keep_mono hft (by simp +decide only [headCalibrated, ↓keep_updTherm, ↓keep_headValues, ↓keep_healthMeasure, ↓keep_calFault,
    ↓keep_ite, ite_self])

def setTrimFoot : Nat := footOf [.therm] []
theorem keep_setTrim {ft : Nat} (hft : inFoot setTrimFoot ft = true) (d : Dev) (kind inst : Nat) (setting : List Int) : keep ft
    (setTrim d kind inst setting) = keep ft d :=
  keep_mono hft (by simp +decide only [setTrim, ↓keep_updTherm, ↓keep_newSetting])

def calDoneFoot : Nat := footOf [] [F.pwrVote_dom, F.calStat_busy, F.calStat_fail, F.calStat_fallback, F.calStat_runs,
  F.calDue_due, F.calDue_method] ||| headCalibratedFoot
theorem keep_calDone {ft : Nat} (hft : inFoot calDoneFoot ft = true) (kind inst head : Nat) (r : CalRes) (d : Dev) : keep ft
    (calDone kind inst head r d) = keep ft d :=
  keep_mono hft (by simp +decide only [calDone, ↓keep_setFlag, ↓keep_addSat, ↓keep_setBit, ↓keep_updTherm, ↓keep_makeDue,
    ↓keep_beginWaiting, ↓keep_clearVote, ↓keep_headCalibrated, ↓keep_setTrim, ↓keep_ite, ite_self])

def takeNextFoot : Nat := footOf [] [F.sqrStat_pc] ||| seqStopFoot
theorem keep_takeNext {ft : Nat} (hft : inFoot takeNextFoot ft = true) (d : Dev) (a : Nat) (n : SeqNext) : keep ft (takeNext d a
    n) = keep ft d :=
  keep_mono hft (by simp +decide only [takeNext]; split <;> simp +decide
    only [↓keep_wr, ↓keep_setFlag, ↓keep_updSeq, ↓keep_seqStop])

def counterOpsFoot : Nat := footOf [] [F.sqrCnt_c, F.sqrWr_wr]
theorem keep_counterOps {ft : Nat} (hft : inFoot counterOpsFoot ft = true) (d : Dev) (a : Nat) (m : Micro) : keep ft (counterOps
    d a m) = keep ft d :=
  keep_mono hft (by unfold counterOps; split <;> split <;> simp +decide only [↓keep_wr])

theorem keep_permitOps {ft : Nat} (hft : inFoot closePermitFoot ft = true) (d : Dev) (a : Nat) (m : Micro) : keep ft (permitOps
    d a m) = keep ft d :=
  keep_mono hft (by simp +decide only [permitOps, ↓keep_setFlag, ↓keep_updSeq, ↓keep_closePermit, ↓keep_ite, ite_self])

def runWordFoot : Nat := footOf [] [F.sqrCnt_c, F.sqrWr_wr, F.sqrClamp_assist_clamped] ||| takeNextFoot
theorem keep_runWord {ft : Nat} (hft : inFoot runWordFoot ft = true) (d : Dev) (a : Nat) (m : Micro) (env : SeqEnv) : keep ft
    (runWord d a m env) = keep ft d := by
  refine keep_mono hft ?_
  unfold runWord
  extract_lets lv clamped cmds
  split
  · simp +decide only [↓keep_seqStop]
  · cases hs : scratchPlace d (d.rd F.sqrCnt_c a 3) with
    | none => simp +decide +zetaDelta only [hs, ↓keep_setFlag, ↓keep_wr, ↓keep_updSeq, ↓keep_updChn, ↓keep_syncChn, ↓keep_ackSector,
        ↓keep_seqStop, ↓keep_takeNext, ↓keep_counterOps, ↓keep_permitOps, ↓keep_forEach, ↓keep_ite, ite_self, implies_true]
    | some gh => simp +decide +zetaDelta only [hs, ↓keep_setFlag, ↓keep_wr, ↓keep_updSeq, ↓keep_updChn, ↓keep_syncChn,
        ↓keep_ackSector, ↓keep_takeNext, ↓keep_counterOps, ↓keep_permitOps, ↓keep_forEach, ↓keep_ite, ite_self,
        implies_true]

def machineCheckFoot : Nat := footOf [] [F.sqrMc_addr, F.sqrMc_fields, F.sqrMc_valid, F.sqrMc_count] ||| seqStopFoot |||
  hardFaultCandidateFoot
theorem keep_machineCheck {ft : Nat} (hft : inFoot machineCheckFoot ft = true) (d : Dev) (a w fields : Nat) : keep ft
    (machineCheck d a w fields) = keep ft d :=
  keep_mono hft (by simp +decide only [machineCheck, ↓keep_wr, ↓keep_setFlag, ↓keep_addSat, ↓keep_emit, ↓keep_updSeq,
    ↓keep_seqStop, ↓keep_hardFaultCandidate, ↓keep_ite, ite_self])

def stepWordFoot : Nat := footOf [] [F.sqrClamp_cust_priv] ||| machineCheckFoot ||| runWordFoot
theorem keep_stepWord {ft : Nat} (hft : inFoot stepWordFoot ft = true) (d : Dev) (mem : List Host.Cell) (a : Nat) (env : SeqEnv)
    : keep ft (stepWord d mem a env) = keep ft d :=
  keep_mono hft (by simp +decide only [stepWord, ↓keep_setFlag, ↓keep_wr, ↓keep_updSeq, ↓keep_seqStop, ↓keep_runWord,
    ↓keep_machineCheck, ↓keep_ite, ite_self])

def taskStartFoot : Nat := footOf [] [F.sqrCnt_c, F.sqrWr_wr] ||| takeNextFoot ||| pllArmFoot
theorem keep_taskStart {ft : Nat} (hft : inFoot taskStartFoot ft = true) (a : Nat) (d : Dev) : keep ft (taskStart a d) = keep ft
    d :=
  keep_mono hft (by simp +decide only [taskStart, ↓keep_wr, ↓keep_updSeq, ↓keep_flyUpdate, ↓keep_pllArm, ↓keep_seqStop,
    ↓keep_takeNext, ↓keep_forEach, ↓keep_ite, ite_self, implies_true])

theorem keep_abortTask {ft : Nat} (hft : inFoot seqStopFoot ft = true) (a : Nat) (d : Dev) : keep ft (abortTask a d) = keep ft d
    :=
  keep_mono hft (by simp +decide only [abortTask, ↓keep_seqStop, ↓keep_ite, ite_self])

def custEnableFoot : Nat := footOf [.sec] [F.sqrCtl_cust_en]
theorem keep_custEnable {ft : Nat} (hft : inFoot custEnableFoot ft = true) (a : Nat) (on : Bool) (d : Dev) (m : List Host.Cell)
    : keep ft (custEnable a on d m).1 = keep ft d :=
  keep_mono hft (by simp +decide only [custEnable, ↓keep_setFlag, ↓keep_part_sec, ↓keep_ite, ite_self])

def storeAccessFoot : Nat := footOf [.seqs] [F.eccInj_armed] ||| busErrorFoot
theorem keep_storeAccess {ft : Nat} (hft : inFoot storeAccessFoot ft = true) (rq : Requester) (a off : Nat) (acc : Access) (d :
    Dev) (mem : List Host.Cell) : keep ft (storeAccess rq a off acc d mem).1 = keep ft d := by
  refine keep_mono hft ?_
  unfold storeAccess
  extract_lets addr w k
  split
  · simp +decide only [↓keep_busError]
  · split
    · simp +decide only [↓keep_busOk]
    · split
      · simp +decide only [↓keep_busError]
      · simp +decide +zetaDelta only [↓keep_ite_fst, ↓keep_updSeq, ↓keep_busOk, ↓keep_useInjection,
          ite_self]

def storeRepairFoot : Nat := footOf [.seqs] [] ||| hardFaultCandidateFoot
theorem keep_storeRepair {ft : Nat} (hft : inFoot storeRepairFoot ft = true) (a : Nat) (poison : Bool) (d : Dev) : keep ft
    (storeRepair a poison d) = keep ft d :=
  keep_mono hft (by simp +decide only [storeRepair, ↓keep_updSeq, ↓keep_hardFaultCandidate, ↓keep_ite, ite_self])

def eccInjectFoot : Nat := footOf [] [F.eccInj_addr, F.eccInj_mac, F.eccInj_kind, F.eccInj_armed]
theorem keep_eccInject {ft : Nat} (hft : inFoot eccInjectFoot ft = true) (addr mac kind : Nat) (d : Dev) : keep ft (eccInject
    addr mac kind d) = keep ft d :=
  keep_mono hft (by simp +decide only [eccInject, ↓keep_wr, ↓keep_setFlag, ↓keep_ite, ite_self])

def eccRemapFoot : Nat := footOf [.ecc, .card] [F.eccRemapCtl_mac, F.eccRemapCtl_row, F.eccRemapCtl_busy, F.eccRemapCtl_fail]
  ||| postNoticeFoot
theorem keep_eccRemap {ft : Nat} (hft : inFoot eccRemapFoot ft = true) (mac row : Nat) (d : Dev) : keep ft (eccRemap mac row d)
    = keep ft d :=
  keep_mono hft (by simp +decide only [eccRemap, ↓keep_wr, ↓keep_setFlag, ↓keep_cardCount, ↓keep_updEcc, ↓keep_noticeAll,
    ↓keep_ite, ite_self])

def enterRemapFoot : Nat := footOf [.ecc] [F.eccRemapStat_in_use, F.eccRemapStat_full, F.eccRemapStat_last_macro]
theorem keep_enterRemap {ft : Nat} (hft : inFoot enterRemapFoot ft = true) (d : Dev) (mac row spare : Nat) : keep ft (enterRemap
    d mac row spare) = keep ft d :=
  keep_mono hft (by simp +decide only [enterRemap, ↓keep_wr, ↓keep_updEcc])

def remapDoneFoot : Nat := footOf [] [F.eccRemapCtl_busy] ||| enterRemapFoot
theorem keep_remapDone {ft : Nat} (hft : inFoot remapDoneFoot ft = true) (d : Dev) : keep ft (remapDone d) = keep ft d :=
  keep_mono hft (by simp +decide only [remapDone]; split <;> simp +decide only
    [↓keep_setFlag, ↓keep_updEcc, ↓keep_enterRemap])

def mbistStartFoot : Nat := footOf [.ecc] [F.eccMbist_mac, F.eccMbist_busy]
theorem keep_mbistStart {ft : Nat} (hft : inFoot mbistStartFoot ft = true) (mac : Nat) (d : Dev) : keep ft (mbistStart mac d) =
    keep ft d :=
  keep_mono hft (by simp +decide only [mbistStart, ↓keep_wr, ↓keep_setFlag, ↓keep_updEcc, ↓keep_ite, ite_self])

def wipeMacFoot : Nat := footOf [.ecc, .seqs] []
theorem keep_wipeMac {ft : Nat} (hft : inFoot wipeMacFoot ft = true) (d : Dev) (mac : Nat) : keep ft (wipeMac d mac) = keep ft d
    :=
  keep_mono hft (by simp +decide only [wipeMac, ↓keep_updSeq, ↓keep_updEcc, ↓keep_ite, ite_self])

def mbistDoneFoot : Nat := footOf [.ecc, .seqs] [F.eccMbist_busy, F.eccMbist_fail, F.eccMbist_fail_row, F.eccMbist_fail_macro]
  ||| hardFaultCandidateFoot
theorem keep_mbistDone {ft : Nat} (hft : inFoot mbistDoneFoot ft = true) (failRows : List (Nat × Nat)) (d : Dev) (m : List
    Host.Cell) : keep ft (mbistDone failRows d m).1 = keep ft d :=
  keep_mono hft (by simp +decide only [mbistDone]; split <;> simp +decide only [↓keep_setFlag, ↓keep_wr,
    ↓keep_hardFaultCandidate, ↓keep_updEcc, ↓keep_wipeMac, ↓keep_forEach, implies_true])

def updOtpFoot : Nat := footOf [.sec] []
theorem keep_updOtp {ft : Nat} (hft : inFoot updOtpFoot ft = true) (d : Dev) (g : Otp → Otp) : keep ft (d.updOtp g) = keep ft d
    :=
  keep_mono hft (by simp +decide only [Dev.updOtp, ↓keep_updSec])

def syncLevelFoot : Nat := footOf [] [F.secLc_count, F.secLc_state, F.secLc_rma_left, F.secLc_ceiling, F.secLc_bek1,
  F.secLc_pending, F.secDbg_level, F.secDbg_cycles, F.secDbg_signer, F.secDbg_flags, F.secDbg_withheld, F.dbgStat_jtag_level,
  F.dbgStat_bar2_set, F.dbgStat_halted, F.dbgStat_scan]
theorem keep_syncLevel {ft : Nat} (hft : inFoot syncLevelFoot ft = true) (d : Dev) : keep ft (syncLevel d) = keep ft d :=
  keep_mono hft (by simp +decide only [syncLevel, ↓keep_wr, ↓keep_setFlag, ↓keep_ite, ite_self])

def eraseNorFoot : Nat := footOf [.struct, .cipher, .card, .sec] []
theorem keep_eraseNor {ft : Nat} (hft : inFoot eraseNorFoot ft = true) (d : Dev) (decom : Bool) : keep ft (eraseNor d decom) =
    keep ft d := by
  refine keep_mono hft ?_
  unfold eraseNor
  extract_lets c x e
  have he : keep eraseNorFoot e = keep eraseNorFoot d :=
    (keep_part_sec _ _ (by decide)).trans (keep_part_cipher d c (by decide))
  split
  · refine Eq.trans ?_ he
    exact (keep_part_card _ _ (by decide)).trans (keep_part_struct e _ (by decide))
  · exact he

def burnTransitionFoot : Nat := footOf [.sec] []
theorem keep_burnTransition {ft : Nat} (hft : inFoot burnTransitionFoot ft = true) (d : Dev) (w : LcWork) : keep ft
    (burnTransition d w) = keep ft d :=
  keep_mono hft (by simp +decide only [burnTransition, ↓keep_updOtp, ↓keep_ite, ite_self])

def newKeksFoot : Nat := footOf [.draws, .cipher] []
theorem keep_newKeks {ft : Nat} (hft : inFoot newKeksFoot ft = true) (d : Dev) : keep ft (newKeks d) = keep ft d :=
  keep_mono hft (by simp +decide only [newKeks, ↓keep_draw, ↓keep_updCipher])

end Sys2Proof.Machine
end

section
/-! PROOF. Footprints (6 of 10): structures, boot chain, admin commands and gates. An operation's footprint joins what it writes itself with the
footprints of the operations it calls, and its lemma says that it keeps everything else. -/
namespace Sys2Proof.Machine

def emptyStateFoot : Nat := footOf [.host] []
theorem keep_emptyState {ft : Nat} (hft : inFoot emptyStateFoot ft = true) (d : Dev) : keep ft (emptyState d) = keep ft d :=
  keep_mono hft (by simp +decide only [emptyState, ↓keep_updHost])

def loadFabricFoot : Nat := footOf [] [F.xbrArbCtl_c7_share, F.xbrClsWeight_w, F.hstCtxStat_share, F.cmpCfg_present,
  F.cmpCfg_ctx_base, F.memCfg_size_gib, F.memCfg_rate, F.memPart_base_mib, F.memPart_size_mib]
theorem keep_loadFabric {ft : Nat} (hft : inFoot loadFabricFoot ft = true) (d : Dev) : keep ft (loadFabric d) = keep ft d := by
  refine keep_mono hft ?_
  unfold loadFabric
  extract_lets e1 e2 e3 e4 sizes e5 e6 e7
  have he3 : keep loadFabricFoot e3 = keep loadFabricFoot d := by simp only [e3, e2, e1]; simp +decide only [↓keep_wr,
      ↓keep_wrAll, ↓keep_forEach, implies_true]
  have he7 : keep loadFabricFoot e7 = keep loadFabricFoot d := by simp only [e7, e6, e5, e4]; simp +decide only [he3, ↓keep_wr,
      ↓keep_setFlag, ↓keep_wrAll]
  simp +decide only [he7, ↓keep_wr]

def loadPortsFoot : Nat := footOf [.chain] [F.lmlCfg_used, F.lmlCfg_width, F.lmlCfg_rate, F.lmlCfg_encrypt,
  F.lmlStat_down_cause, F.lmlNode_addr, F.lmlNode_fixed, F.lmlNode_root]
theorem keep_loadPorts {ft : Nat} (hft : inFoot loadPortsFoot ft = true) (d : Dev) : keep ft (loadPorts d) = keep ft d :=
  keep_mono hft (by simp +decide only [loadPorts, ↓keep_wr, ↓keep_setFlag, ↓keep_part_chain, ↓keep_forEach, implies_true])

def loadFormatFoot : Nat := footOf [] [F.sqrLocker_first, F.sqrLocker_count, F.sqrGeom_wedges, F.sqrGeom_rz_count,
  F.sqrGeom_assist_max, F.sqrZone_first_track, F.sqrZone_last_track, F.sqrZone2_spt, F.sqrZone2_kind, F.sqrZone2_payload]
theorem keep_loadFormat {ft : Nat} (hft : inFoot loadFormatFoot ft = true) (d : Dev) (a : Nat) : keep ft (loadFormat d a) = keep
    ft d := by
  refine keep_mono hft ?_
  unfold loadFormat
  extract_lets n on v e1 e2 e3 zs z e4 e5 e6 e7
  have he3 : keep loadFormatFoot e3 = keep loadFormatFoot d := by simp only [e3, e2, e1]; simp +decide only [↓keep_wr]
  have he7 : keep loadFormatFoot e7 = keep loadFormatFoot d := by simp only [e7, e6, e5, e4]; simp +decide only [he3, ↓keep_wrAll]
  simp +decide only [he7, ↓keep_wrAll]

def loadLimitsFoot : Nat := footOf [] [F.pwrCs_cs_allow, F.pwrHsCfg_hs_allow, F.pwrHsExit_exit_us, F.thmCfg_rise_throttle,
  F.thmCfg_rise_shutdown, F.thmCfg_fixed_shutdown, F.thmCfg_cal_delta, F.thmEdges_edge, F.calDue_method, F.calDelta_delta]
theorem keep_loadLimits {ft : Nat} (hft : inFoot loadLimitsFoot ft = true) (d : Dev) : keep ft (loadLimits d) = keep ft d := by
  refine keep_mono hft ?_
  unfold loadLimits
  extract_lets e1 e2 e3 e4 e5 e6 e7
  have he3 : keep loadLimitsFoot e3 = keep loadLimitsFoot d := by simp only [e3, e2, e1]; simp +decide only [↓keep_wr,
      ↓keep_wrAll]
  have he4 : keep loadLimitsFoot e4 = keep loadLimitsFoot d := by
    refine (keep_forEach _ _ _ fun e k => ?_).trans he3
    simp +decide only [↓keep_wr, ↓keep_forEach, implies_true]
  have he5 : keep loadLimitsFoot e5 = keep loadLimitsFoot d := by
    refine (keep_forEach _ _ _ fun e k => ?_).trans he4
    simp +decide only [↓keep_wr, ↓keep_setBit, ↓keep_forEach, implies_true]
  have he7 : keep loadLimitsFoot e7 = keep loadLimitsFoot d := by simp only [e7, e6]; simp +decide only [he5, ↓keep_wr]
  simp +decide only [he7, ↓keep_wrAll]

def loadDomainsFoot : Nat := footOf [] [F.pwrDom_dom]
theorem keep_loadDomains {ft : Nat} (hft : inFoot loadDomainsFoot ft = true) (d : Dev) : keep ft (loadDomains d) = keep ft d :=
  keep_mono hft (by simp +decide only [loadDomains, ↓keep_wr, ↓keep_forEach, implies_true])

def loadStructureFoot : Nat := footOf [.out, .struct, .spins, .therm, .card] [F.glbStructStat_loaded,
  F.glbStructVer_build_version, F.pwrDom_dom, F.calDue_due] ||| syncLevelFoot ||| loadFormatFoot ||| loadLimitsFoot |||
  loadPortsFoot ||| loadFabricFoot
theorem keep_loadStructure {ft : Nat} (hft : inFoot loadStructureFoot ft = true) (d : Dev) (ss : List Section) (slot build :
    Nat) : keep ft (loadStructure d ss slot build) = keep ft d :=
  keep_mono hft (by simp (disch := (intros; simp +decide only [↓keep_wr, ↓keep_emit, ↓keep_cardCount, ↓keep_updTherm,
    ↓keep_makeAllDue, ↓keep_updSpin, ↓keep_syncLevel, ↓keep_loadFabric, ↓keep_loadPorts, ↓keep_loadFormat, ↓keep_loadLimits,
    ↓keep_loadDomains, ↓keep_part_struct, ↓keep_forEach, implies_true])) only [loadStructure, ↓keep_wr, ↓keep_cardCount, ↓keep_updTherm, ↓keep_syncLevel, ↓keep_loadFabric, ↓keep_loadPorts,
    ↓keep_loadLimits, ↓keep_loadDomains, ↓keep_part_struct, ↓keep_forEach])

def setImgSlotFoot : Nat := footOf [.struct] []
theorem keep_setImgSlot {ft : Nat} (hft : inFoot setImgSlotFoot ft = true) (d : Dev) (i : Nat) (x : ImageSlot) : keep ft
    (d.setImgSlot i x) = keep ft d :=
  keep_mono hft (by simp +decide only [Dev.setImgSlot, ↓keep_part_struct])

theorem keep_loadRecovery {ft : Nat} (hft : inFoot loadStructureFoot ft = true) (d : Dev) : keep ft (loadRecovery d) = keep ft d
    :=
  keep_mono hft (by simp (disch := (intros; simp +decide only [↓keep_loadStructure])) only [loadRecovery, ↓keep_loadStructure])

def selectStructureFoot : Nat := footOf [.sec] [F.glbStructStat_arb_otp, F.glbStructStat_fail_a, F.glbStructStat_fail_b] |||
  loadStructureFoot
theorem keep_selectStructure {ft : Nat} (hft : inFoot selectStructureFoot ft = true) (d : Dev) : keep ft (selectStructure d) =
    keep ft d := by
  refine keep_mono hft ?_
  unfold selectStructure
  extract_lets fail e1 pick s e2 e3
  have he1 : keep selectStructureFoot e1 = keep selectStructureFoot d := by simp only [e1]; simp +decide only [↓keep_wr]
  have he2 : keep selectStructureFoot e2 = keep selectStructureFoot d := (keep_part_struct e1 _ (by decide)).trans he1
  have he3 : keep selectStructureFoot e3 = keep selectStructureFoot d := by
    simp only [e3]
    clear_value pick
    split
    · simp +decide only [he2, ↓keep_loadRecovery]
    · simp +decide only [he2, ↓keep_updOtp, ↓keep_loadStructure]
  simp +decide only [he3, ↓keep_wr]

def holdResetFoot : Nat := footOf [.struct] [F.glbStructStat_activate, F.calStat_busy, F.calDue_due, F.glbPins_fault_n] |||
  dropTasksFoot ||| flushLockerFoot ||| emergencyRetractFoot ||| dropInFlightFoot ||| linksDownFoot ||| endLoopsFoot
theorem keep_holdReset {ft : Nat} (hft : inFoot holdResetFoot ft = true) (d : Dev) : keep ft (holdReset d) = keep ft d :=
  keep_mono hft (by simp +decide only [holdReset, ↓keep_emergencyRetract, ↓keep_updReset, ↓keep_dropInFlight, ↓keep_flushLocker,
    ↓keep_dropActivation, ↓keep_linksDown, ↓keep_dropTasks, ↓keep_cancelCals, ↓keep_driveFault, ↓keep_endLoops, ↓keep_forEach,
    implies_true])

def securityFaultFoot : Nat := footOf [.sec] [F.cphStat_kek_loaded, F.secFault_cause] ||| holdResetFoot ||| syncLevelFoot
theorem keep_securityFault {ft : Nat} (hft : inFoot securityFaultFoot ft = true) (d : Dev) (cause : Nat) : keep ft
    (securityFault d cause) = keep ft d :=
  keep_mono hft (by simp +decide only [securityFault, ↓keep_setFlag, ↓keep_wr, ↓keep_syncWork, ↓keep_updCipher, ↓keep_updSec,
    ↓keep_syncLevel, ↓keep_holdReset])

def sramWipedFoot : Nat := footOf [.ecc, .seqs] []
theorem keep_sramWiped {ft : Nat} (hft : inFoot sramWipedFoot ft = true) (d : Dev) : keep ft (sramWiped d) = keep ft d :=
  keep_mono hft (by simp +decide only [sramWiped, ↓keep_updSeq, ↓keep_updEcc, ↓keep_forEach, implies_true])

def dramWipedFoot : Nat := footOf [.ecc, .comp, .card, .map] [F.memCfg_trained, F.memWipe_state, F.memWipe_dump_kept,
  F.memWipe_last_ms, F.evrPmStat_kept] ||| zeroPlainFoot
theorem keep_dramWiped {ft : Nat} (hft : inFoot dramWipedFoot ft = true) (d : Dev) (ms : Nat) (kp : Bool) : keep ft (dramWiped d
    ms kp) = keep ft d := by
  refine keep_mono hft ?_
  unfold dramWiped
  extract_lets e1 c m e2 e3 e4 e5 e6
  have he2 : keep dramWipedFoot e2 = keep dramWipedFoot d := by
    rw [keep_zeroPlain (by decide)]
    refine Eq.trans (b := keep dramWipedFoot e1) ?_ (keep_updEcc d _ (by decide))
    exact (keep_part_map _ _ (by decide)).trans (keep_part_comp e1 _ (by decide))
  have he5 : keep dramWipedFoot e5 = keep dramWipedFoot d := by simp only [e5, e4, e3]; simp +decide only [he2, ↓keep_setFlag,
      ↓keep_updCard, ↓keep_updCipher, ↓keep_ite,
      ite_self]
  simp +decide only [he5, ↓keep_setFlag, ↓keep_wr]

def loadFirmwareFoot : Nat := footOf [.sec, .fw] [] ||| loadStructureFoot
theorem keep_loadFirmware {ft : Nat} (hft : inFoot loadFirmwareFoot ft = true) (d : Dev) : keep ft (loadFirmware d) = keep ft d
    := by
  refine keep_mono hft ?_
  unfold loadFirmware
  extract_lets image a
  split
  · simp +decide only [↓keep_updOtp, ↓keep_part_fw]
  · simp +decide +zetaDelta only [↓keep_loadRecovery, ↓keep_part_fw, ↓keep_ite, ite_self]

def restoreNonceFoot : Nat := footOf [.cipher] [F.cphStat_nonce_wait, F.cphNonceCtr_value, F.cphNonceLimit_value]
theorem keep_restoreNonce {ft : Nat} (hft : inFoot restoreNonceFoot ft = true) (d : Dev) : keep ft (restoreNonce d) = keep ft d
    :=
  keep_mono hft (by simp +decide only [restoreNonce, ↓keep_wr, ↓keep_setFlag, ↓keep_updCipher])

def loadKeysFoot : Nat := footOf [.draws, .sec] [F.cphNonceId_nonce_id, F.cphStat_kek_loaded] ||| syncLevelFoot |||
  restoreNonceFoot
theorem keep_loadKeys {ft : Nat} (hft : inFoot loadKeysFoot ft = true) (d : Dev) : keep ft (loadKeys d) = keep ft d :=
  keep_mono hft (by simp +decide only [loadKeys, ↓keep_wr, ↓keep_setFlag, ↓keep_draw, ↓keep_updCipher, ↓keep_updSec,
    ↓keep_syncLevel, ↓keep_restoreNonce, ↓keep_ite, ite_self])

def offerDumpFoot : Nat := footOf [.card] [F.evrPmStat_kept, F.evrPmStat_dump_seq]
theorem keep_offerDump {ft : Nat} (hft : inFoot offerDumpFoot ft = true) (d : Dev) : keep ft (offerDump d) = keep ft d :=
  keep_mono hft (by simp +decide only [offerDump]; split <;> simp +decide only
    [↓keep_setFlag, ↓keep_wr, ↓keep_updCard])

def wipesEndedFoot : Nat := footOf [.reset] []
theorem keep_wipesEnded {ft : Nat} (hft : inFoot wipesEndedFoot ft = true) (d : Dev) (m : List Host.Cell) : keep ft (wipesEnded
    d m).1 = keep ft d := by
  refine keep_mono hft ?_
  unfold wipesEnded
  split
  · rfl
  · split
    · simp +decide only [↓keep_updReset]
    · rfl

def sramWipeDoneFoot : Nat := footOf [.ecc, .seqs, .reset] [F.memWipe_dump_kept, F.glbStart_stage] ||| selectStructureFoot
theorem keep_sramWipeDone {ft : Nat} (hft : inFoot sramWipeDoneFoot ft = true) (d : Dev) (_m : List Host.Cell) : keep ft
    (sramWipeDone d _m).1 = keep ft d := by
  refine keep_mono hft ?_
  unfold sramWipeDone
  split
  · rfl
  · extract_lets e1 e2 e3 e4
    have he1 : keep sramWipeDoneFoot e1 = keep sramWipeDoneFoot d := by simp only [e1]; simp +decide only [↓keep_updReset, ↓keep_sramWiped]
    split
    · simp only [e4, e3, e2]; simp +decide only [he1, ↓keep_setFlag, ↓keep_wr, ↓keep_updReset, ↓keep_selectStructure]
    · simp +decide only [he1, ↓keep_wipesEnded]

def dramWipeDoneFoot : Nat := footOf [.reset] [F.evrPmStat_dump_seq, F.glbStart_stage] ||| loadFirmwareFoot ||| loadKeysFoot |||
  dramWipedFoot
theorem keep_dramWipeDone {ft : Nat} (hft : inFoot dramWipeDoneFoot ft = true) (ms : Nat) (d : Dev) (m : List Host.Cell) : keep
    ft (dramWipeDone ms d m).1 = keep ft d := by
  refine keep_mono hft ?_
  unfold dramWipeDone
  split
  · rfl
  · extract_lets boot kp e1 e2
    have he1 : keep dramWipeDoneFoot e1 = keep dramWipeDoneFoot d := by simp only [e1]; simp +decide only [↓keep_updReset,
        ↓keep_dramWiped]
    split
    · simp only [e2]; simp +decide only [he1, ↓keep_wr, ↓keep_loadFirmware, ↓keep_loadKeys,
        ↓keep_offerDump, ↓keep_ite, ite_self]
    · simp +decide only [he1, ↓keep_wipesEnded]

def bootDoneFoot : Nat := footOf [] [F.pwrHvote_hda, F.glbStart_stage, F.glbStart_boot_done, F.glbStart_boot_ms] |||
  recomputeBoundFoot ||| applyLimitsFoot ||| portTrainFoot
theorem keep_bootDone {ft : Nat} (hft : inFoot bootDoneFoot ft = true) (ms : Nat) (d : Dev) : keep ft (bootDone ms d) = keep ft
    d :=
  keep_mono hft (by simp +decide only [bootDone, ↓keep_wr, ↓keep_setFlag, ↓keep_emit, ↓keep_portTrain, ↓keep_recomputeBound,
    ↓keep_setHvote, ↓keep_applyLimits, ↓keep_hostTrain, ↓keep_forEach, ↓keep_ite, ite_self, implies_true])

def fwDownloadFoot : Nat := footOf [.out, .fw] []
theorem keep_fwDownload {ft : Nat} (hft : inFoot fwDownloadFoot ft = true) (h cid offsetDw : Nat) (piece : List Byte) (d : Dev)
    : keep ft (fwDownload h cid offsetDw piece d) = keep ft d :=
  keep_mono hft (by simp +decide only [fwDownload, ↓keep_adminEnd, ↓keep_part_fw, ↓keep_ite, ite_self])

def fwPutFoot : Nat := footOf [.fw] []
theorem keep_fwPut {ft : Nat} (hft : inFoot fwPutFoot ft = true) (d : Dev) (slot : Nat) (b : List Byte) : keep ft (fwPut d slot
    b) = keep ft d :=
  keep_mono hft (by simp +decide only [fwPut, ↓keep_part_fw])

def fwStartFoot : Nat := footOf [.fw] [] ||| postNoticeFoot
theorem keep_fwStart {ft : Nat} (hft : inFoot fwStartFoot ft = true) (d : Dev) (h cid slot : Nat) : keep ft (fwStart d h cid
    slot) = keep ft d :=
  keep_mono hft (by simp +decide only [fwStart, ↓keep_noticeOutstanding, ↓keep_stopFetch, ↓keep_holdAdmin, ↓keep_part_fw])

theorem keep_fwCommit {ft : Nat} (hft : inFoot fwStartFoot ft = true) (h cid slot action : Nat) (d : Dev) : keep ft (fwCommit h
    cid slot action d) = keep ft d := by
  refine keep_mono hft ?_
  unfold fwCommit
  extract_lets bad image
  have hbad : keep fwStartFoot bad = keep fwStartFoot d := by simp only [bad]; simp +decide only [↓keep_adminEnd]
  clear_value image
  split
  · exact hbad
  · next b =>
    extract_lets e
    have he : keep fwStartFoot e = keep fwStartFoot d := by simp only [e]; simp +decide only [↓keep_fwPut,
        ↓keep_ite, ite_self]
    split
    · simp +decide only [↓keep_adminEnd]
    · split
      · exact hbad
      · split
        · simp +decide only [he, ↓keep_adminEnd]
        · simp +decide only [he, ↓keep_fwStart]
        · simp +decide only [he, ↓keep_adminEnd, ↓keep_part_fw]

def fwSwitchFoot : Nat := loadFirmwareFoot ||| endAdminFoot
theorem keep_fwSwitch {ft : Nat} (hft : inFoot fwSwitchFoot ft = true) (d : Dev) : keep ft (fwSwitch d) = keep ft d :=
  keep_mono hft (by unfold fwSwitch; split <;> simp +decide only [↓keep_resumeFetch, ↓keep_endAdmin, ↓keep_loadFirmware,
    ↓keep_part_fw, ↓keep_ite, ite_self])

def fwTimeoutFoot : Nat := footOf [.fw] [] ||| endAdminFoot
theorem keep_fwTimeout {ft : Nat} (hft : inFoot fwTimeoutFoot ft = true) (d : Dev) : keep ft (fwTimeout d) = keep ft d :=
  keep_mono hft (by unfold fwTimeout; split <;> simp +decide only [↓keep_resumeFetch, ↓keep_endAdmin, ↓keep_part_fw, ↓keep_ite,
    ite_self])

def saDownloadFoot : Nat := footOf [.out, .struct] [F.glbStructStat_activate]
theorem keep_saDownload {ft : Nat} (hft : inFoot saDownloadFoot ft = true) (h cid offsetDw : Nat) (piece : List Byte) (d : Dev)
    : keep ft (saDownload h cid offsetDw piece d) = keep ft d :=
  keep_mono hft (by unfold saDownload; split <;> simp +decide only [↓keep_wr, ↓keep_adminEnd, ↓keep_updStruct, ↓keep_ite,
    ite_self])

def saStartFoot : Nat := footOf [.out, .struct] [] ||| holdAdminFoot
theorem keep_saStart {ft : Nat} (hft : inFoot saStartFoot ft = true) (h cid : Nat) (d : Dev) : keep ft (saStart h cid d) = keep
    ft d := by
  refine keep_mono hft ?_
  unfold saStart
  split
  · simp +decide only [↓keep_adminEnd]
  · split
    · simp +decide only [↓keep_adminEnd]
    · split
      · simp +decide only [↓keep_adminEnd]
      · simp +decide only [↓keep_adminEnd, ↓keep_holdAdmin, ↓keep_updStruct, ↓keep_ite, ite_self]

def saAbortFoot : Nat := footOf [.out, .struct] [F.glbStructStat_activate]
theorem keep_saAbort {ft : Nat} (hft : inFoot saAbortFoot ft = true) (h cid : Nat) (d : Dev) : keep ft (saAbort h cid d) = keep
    ft d :=
  keep_mono hft (by unfold saAbort; split <;> simp +decide only [↓keep_wr, ↓keep_adminEnd, ↓keep_updStruct])

def saVerifiedFoot : Nat := footOf [.struct] [F.glbStructStat_fail_stage, F.glbStructStat_activate] ||| endAdminFoot
theorem keep_saVerified {ft : Nat} (hft : inFoot saVerifiedFoot ft = true) (d : Dev) : keep ft (saVerified d) = keep ft d :=
  keep_mono hft (by simp +decide only [saVerified, ↓keep_wr, ↓keep_endAdmin, ↓keep_updStruct, ↓keep_ite, ite_self])

def saWrittenFoot : Nat := footOf [.struct] [] ||| postNoticeFoot
theorem keep_saWritten {ft : Nat} (hft : inFoot saWrittenFoot ft = true) (d : Dev) : keep ft (saWritten d) = keep ft d :=
  keep_mono hft (by simp +decide only [saWritten, ↓keep_noticeOutstanding, ↓keep_endAdmin, ↓keep_setImgSlot, ↓keep_updStruct,
    ↓keep_ite, ite_self])

def saDrainedFoot : Nat := footOf [.struct, .host] []
theorem keep_saDrained {ft : Nat} (hft : inFoot saDrainedFoot ft = true) (d : Dev) : keep ft (saDrained d) = keep ft d :=
  keep_mono hft (by simp +decide only [saDrained, ↓keep_destageExtent, ↓keep_updStruct, ↓keep_forEach, ↓keep_ite, ite_self,
    implies_true])

def saLeaveFoot : Nat := footOf [.spins] [F.spnStat_state] ||| unloadHeadsFoot
theorem keep_saLeave {ft : Nat} (hft : inFoot saLeaveFoot ft = true) (d : Dev) (ss : List Section) (n : Nat) : keep ft (saLeave
    d ss n) = keep ft d :=
  keep_mono hft (by simp +decide only [saLeave, ↓keep_wr, ↓keep_setFlag, ↓keep_unloadHeads, ↓keep_coastSpin, ↓keep_ite, ite_self])

def saCommitFoot : Nat := footOf [.struct, .reset] [F.glbStructStat_activate, F.memWipe_state] ||| saLeaveFoot ||| linksDownFoot
theorem keep_saCommit {ft : Nat} (hft : inFoot saCommitFoot ft = true) (d : Dev) : keep ft (saCommit d) = keep ft d :=
  keep_mono hft (by simp +decide only [saCommit, ↓keep_wr, ↓keep_updHost, ↓keep_updPort, ↓keep_stopFetch, ↓keep_checkpointAll,
    ↓keep_updReset, ↓keep_writeAnchor, ↓keep_linksDown, ↓keep_setImgSlot, ↓keep_updStruct, ↓keep_saLeave, ↓keep_forEach,
    ↓keep_ite, ite_self, implies_true])

def saRestructureFoot : Nat := footOf [] [F.glbStructStat_activate, F.pwrHvote_hda] ||| selectStructureFoot |||
  recomputeBoundFoot ||| loadKeysFoot ||| portTrainFoot
theorem keep_saRestructure {ft : Nat} (hft : inFoot saRestructureFoot ft = true) (d : Dev) (m : List Host.Cell) : keep ft
    (saRestructure d m).1 = keep ft d :=
  keep_mono hft (by unfold saRestructure; split <;> simp +decide only [↓keep_wr, ↓keep_portTrain, ↓keep_resumeFetch,
    ↓keep_recomputeBound, ↓keep_setHvote, ↓keep_hostTrain, ↓keep_selectStructure, ↓keep_loadKeys, ↓keep_updStruct,
    ↓keep_forEach, implies_true])

theorem keep_identify {ft : Nat} (hft : inFoot finishFoot ft = true) (h cid cns nsid : Nat) (d : Dev) : keep ft (identify h cid
    cns nsid d) = keep ft d := by
  refine keep_mono hft ?_
  unfold identify
  extract_lets mine all ofNs
  have hof (g : Ns → List Nat) : keep finishFoot (ofNs g) = keep finishFoot d := by
    simp only [ofNs]
    split
    · simp +decide only [↓keep_adminPage]
    · split
      · simp +decide only [↓keep_adminPage]
      · simp +decide only [↓keep_adminEnd, ↓keep_adminPage, ↓keep_ite, ite_self]
  split
  · simp +decide only [hof, ↓keep_forwardAdmin, ↓keep_ite, ite_self]
  · simp +decide only [↓keep_adminPage]
  · simp +decide only [↓keep_adminPage]
  · exact hof _
  · simp +decide only [↓keep_adminPage]
  · simp +decide only [↓keep_adminPage]
  · exact hof _
  · exact hof _
  · simp +decide only [↓keep_adminPage]
  · simp +decide only [↓keep_adminEnd]

def setQueuesFoot : Nat := footOf [.out] []
theorem keep_setQueues {ft : Nat} (hft : inFoot setQueuesFoot ft = true) (h cid : Nat) (d : Dev) : keep ft (setQueues h cid d) =
    keep ft d :=
  keep_mono hft (by simp +decide only [setQueues, ↓keep_adminEnd])

def createQueueFoot : Nat := footOf [.out, .host] []
theorem keep_createQueue {ft : Nat} (hft : inFoot createQueueFoot ft = true) (h cid : Nat) (submission : Bool) (qid entries :
    Nat) (contiguous : Bool) (prio : Prio) (d : Dev) : keep ft (createQueue h cid submission qid entries contiguous prio d) =
    keep ft d :=
  keep_mono hft (by simp +decide only [createQueue, ↓keep_updPort, ↓keep_adminEnd, ↓keep_ite, ite_self])

theorem keep_setCache {ft : Nat} (hft : inFoot finishFoot ft = true) (h cid : Nat) (enable : Bool) (d : Dev) : keep ft (setCache
    h cid enable d) = keep ft d :=
  keep_mono hft (by simp +decide only [setCache, ↓keep_updPort, ↓keep_tryComplete, ↓keep_adminEnd, ↓keep_forEach, ↓keep_ite,
    ite_self, implies_true])

def setPsFoot : Nat := footOf [.out] [] ||| setPowerStateFoot
theorem keep_setPs {ft : Nat} (hft : inFoot setPsFoot ft = true) (h cid ps : Nat) (d : Dev) : keep ft (setPs h cid ps d) = keep
    ft d :=
  keep_mono hft (by simp +decide only [setPs, ↓keep_adminEnd, ↓keep_setPowerState, ↓keep_ite, ite_self])

theorem keep_setThreshold {ft : Nat} (hft : inFoot checkThresholdsFoot ft = true) (h cid sensor : Nat) (under : Bool) (kelvin :
    Nat) (d : Dev) : keep ft (setThreshold h cid sensor under kelvin d) = keep ft d :=
  keep_mono hft (by simp +decide only [setThreshold, ↓keep_updPort, ↓keep_adminEnd, ↓keep_checkThresholds, ↓keep_ite, ite_self])

theorem keep_setLatency {ft : Nat} (hft : inFoot finishFoot ft = true) (h cid nsid us : Nat) (save : Bool) (d : Dev) : keep ft
    (setLatency h cid nsid us save d) = keep ft d := by
  refine keep_mono hft ?_
  unfold setLatency
  split
  · simp +decide only [↓keep_adminEnd]
  · split
    · simp +decide only [↓keep_updHost, ↓keep_adminEnd]
    · split
      · simp +decide only [↓keep_forwardAdmin]
      · split
        · simp +decide only [↓keep_updNs, ↓keep_adminEnd]
        · simp +decide only [↓keep_adminEnd]

theorem keep_getLatency {ft : Nat} (hft : inFoot finishFoot ft = true) (h cid nsid : Nat) (d : Dev) : keep ft (getLatency h cid
    nsid d) = keep ft d := by
  refine keep_mono hft ?_
  unfold getLatency
  split
  · simp +decide only [↓keep_forwardAdmin]
  · split
    · simp +decide only [↓keep_adminEnd]
    · simp +decide only [↓keep_adminEnd]

def setCurveFoot : Nat := footOf [.out, .host] []
theorem keep_setCurve {ft : Nat} (hft : inFoot setCurveFoot ft = true) (h cid mask curve : Nat) (save : Bool) (d : Dev) : keep
    ft (setCurve h cid mask curve save d) = keep ft d :=
  keep_mono hft (by simp +decide only [setCurve, ↓keep_updHost, ↓keep_adminEnd, ↓keep_ite, ite_self])

def getCurveFoot : Nat := footOf [.out] []
theorem keep_getCurve {ft : Nat} (hft : inFoot getCurveFoot ft = true) (h cid : Nat) (d : Dev) : keep ft (getCurve h cid d) =
    keep ft d :=
  keep_mono hft (by simp +decide only [getCurve, ↓keep_adminEnd])

def getBoundFoot : Nat := footOf [.out] []
theorem keep_getBound {ft : Nat} (hft : inFoot getBoundFoot ft = true) (h cid : Nat) (d : Dev) : keep ft (getBound h cid d) =
    keep ft d :=
  keep_mono hft (by simp +decide only [getBound, ↓keep_adminEnd])

theorem keep_eventRequest {ft : Nat} (hft : inFoot postNoticeFoot ft = true) (h cid : Nat) (d : Dev) : keep ft (eventRequest h
    cid d) = keep ft d :=
  keep_mono hft (by simp +decide only [eventRequest]; split <;> simp +decide
    only [↓keep_updPort, ↓keep_postNotice, ↓keep_holdAdmin])

def openReadGateFoot : Nat := footOf [.chns] [F.chnStat_timing_lock, F.chnTloop_preset]
theorem keep_openReadGate {ft : Nat} (hft : inFoot openReadGateFoot ft = true) (d : Dev) (c : Nat) (g : GateCmd) : keep ft
    (openReadGate d c g) = keep ft d :=
  keep_mono hft (by simp +decide only [openReadGate, ↓keep_setFlag, ↓keep_updChn, ↓keep_presetLoop])

def closeReadGateFoot : Nat := footOf [.chns, .therm] [F.chnStat_timing_lock, F.chnCnt_count]
theorem keep_closeReadGate {ft : Nat} (hft : inFoot closeReadGateFoot ft = true) (d : Dev) (c : Nat) (g : GateCmd) : keep ft
    (closeReadGate d c g) = keep ft d :=
  keep_mono hft (by simp +decide only [closeReadGate, ↓keep_updEntry, ↓keep_countErased, ↓keep_shutRead, ↓keep_forEach,
    implies_true])

def openWindowFoot : Nat := footOf [.chns] [F.chnStat_overrun_seen, F.chnCnt_count] ||| reportResultFoot
theorem keep_openWindow {ft : Nat} (hft : inFoot openWindowFoot ft = true) (d : Dev) (c : Nat) (g : GateCmd) : keep ft
    (openWindow d c g) = keep ft d :=
  keep_mono hft (by simp +decide only [openWindow, ↓keep_setFlag, ↓keep_addWrap, ↓keep_updChn, ↓keep_countErased,
    ↓keep_reportResult, ↓keep_ite, ite_self])

def openAssistFoot : Nat := footOf [] [F.chnWstat_boost_clamped, F.chnApplied_applied, F.chnApplied_target] ||| setCauseFoot
theorem keep_openAssist {ft : Nat} (hft : inFoot openAssistFoot ft = true) (d : Dev) (c : Nat) (g : GateCmd) : keep ft
    (openAssist d c g) = keep ft d :=
  keep_mono hft (by simp +decide only [openAssist, ↓keep_wr, ↓keep_setFlag, ↓keep_updChn, ↓keep_setCause, ↓keep_ite, ite_self])

def closeAssistFoot : Nat := footOf [.chns] [F.chnWstat_assist_ok]
theorem keep_closeAssist {ft : Nat} (hft : inFoot closeAssistFoot ft = true) (d : Dev) (c : Nat) : keep ft (closeAssist d c) =
    keep ft d :=
  keep_mono hft (by simp +decide only [closeAssist, ↓keep_setFlag, ↓keep_updChn])

theorem keep_openWriteGate {ft : Nat} (hft : inFoot setCauseFoot ft = true) (d : Dev) (c : Nat) (g : GateCmd) : keep ft
    (openWriteGate d c g) = keep ft d :=
  keep_mono hft (by simp +decide only [openWriteGate, ↓keep_emit, ↓keep_updChn, ↓keep_writeResult, ↓keep_closeWrite,
    ↓keep_closePermitOf, ↓keep_setCause, ↓keep_closeAssist, ↓keep_ite, ite_self])

def closeWriteGateFoot : Nat := endWriteFoot ||| finishSlotFoot
theorem keep_closeWriteGate {ft : Nat} (hft : inFoot closeWriteGateFoot ft = true) (d : Dev) (c : Nat) (g : GateCmd) : keep ft
    (closeWriteGate d c g) = keep ft d := by
  refine keep_mono hft ?_
  unfold closeWriteGate
  extract_lets ch p e
  have he : keep closeWriteGateFoot e = keep closeWriteGateFoot d := by
    simp only [e]
    split
    · simp +decide only [↓keep_finishSlot, ↓keep_ite, ite_self]
    · rfl
  simp +decide only [he, ↓keep_emit, ↓keep_endWrite]

def applyGateFoot : Nat := footOf [] [F.chnTloop_preset] ||| openAssistFoot ||| openWindowFoot ||| closeReadGateFoot
theorem keep_applyGate {ft : Nat} (hft : inFoot applyGateFoot ft = true) (d : Dev) (c : Nat) (g : GateCmd) : keep ft (applyGate
    d c g) = keep ft d :=
  keep_mono hft (by simp +decide only [applyGate, ↓keep_emit, ↓keep_updChn, ↓keep_openReadGate, ↓keep_closeReadGate,
    ↓keep_openWindow, ↓keep_openAssist, ↓keep_closeAssist, ↓keep_openWriteGate, ↓keep_closeWriteGate, ↓keep_ite, ite_self])

def gateEdgeFoot : Nat := footOf [] [F.sqrClamp_no_permit, F.sqrClamp_locker, F.sqrClamp_no_lock] ||| seqStopFoot |||
  applyGateFoot
/-- The bits that tell why the permit gate clamps a write (R189). -/
def clampFlds : List Fld := [F.sqrClamp_no_permit, F.sqrClamp_no_lock, F.sqrClamp_locker]

theorem gateVerdict_clamp {d : Dev} {c : Nat} {g : GateCmd} {bits : List Fld} (h : gateVerdict d c g = .clamp bits) :
    ∀ f ∈ bits, f ∈ clampFlds := by
  have hone (b : Bool) {f x : Fld} (hf : x ∈ clampFlds) (h : f ∈ if b then [x] else []) : f ∈ clampFlds := by
    cases b
    · cases h
    · exact List.mem_singleton.1 h ▸ hf
  unfold gateVerdict at h
  extract_lets ch a covered opens why at h
  split at h
  · have hwhy : why = bits := GateVerdict.clamp.inj h
    intro f hf
    simp only [← hwhy, why, List.mem_append] at hf
    obtain (hf | hf) | hf := hf
    · exact hone _ (by decide) hf
    · exact hone _ (by decide) hf
    · exact hone _ (by decide) hf
  · split_ifs at h

theorem keep_gateEdge {ft : Nat} (hft : inFoot gateEdgeFoot ft = true) (c time : Nat) (d : Dev) : keep ft (gateEdge c time d) =
    keep ft d := by
  refine keep_mono hft ?_
  unfold gateEdge
  split
  · rfl
  · next g rest _ =>
    split
    · rfl
    · extract_lets e1 e2
      have he1 : keep gateEdgeFoot e1 = keep gateEdgeFoot d := by simp only [e1]; simp +decide only [↓keep_updChn]
      have he2 : keep gateEdgeFoot e2 = keep gateEdgeFoot d := by
        simp only [e2]
        split
        · simp +decide only [he1, ↓keep_applyGate]
        · next bits hv =>
          have hbits := gateVerdict_clamp hv
          rw [keep_seqStop (by decide)]
          exact (keep_forEach_of_mem _ _ _ fun d b hb => keep_setFlag_of_mem d (by decide) (hbits b hb) true _ _).trans he1
        · simp +decide only [he1, ↓keep_closeWrite, ↓keep_seqStop, ↓keep_closeReadGate]
      simp +decide only [he2, ↓keep_syncChn]

def primarySyncFoot : Nat := footOf [.chns] [F.chnStat_timing_lock, F.chnCnt_count]
theorem keep_primarySync {ft : Nat} (hft : inFoot primarySyncFoot ft = true) (c pos dist : Nat) (lock : Bool) (xs : List Defect)
    (d : Dev) : keep ft (primarySync c pos dist lock xs d) = keep ft d := by
  refine keep_mono hft ?_
  unfold primarySync
  extract_lets ch
  split
  · rfl
  · split
    · simp +decide only [↓keep_setFlag, ↓keep_updChn, ↓keep_updEntry, ↓keep_seeDefects, ↓keep_ite, ite_self]
    · rfl

def readerCheckFoot : Nat := footOf [.chns] [F.chnSkew_fault_0, F.chnSkew_fault_1]
theorem keep_readerCheck {ft : Nat} (hft : inFoot readerCheckFoot ft = true) (c amp0 amp1 : Nat) (d : Dev) : keep ft
    (readerCheck c amp0 amp1 d) = keep ft d :=
  keep_mono hft (by simp +decide only [readerCheck, ↓keep_setFlag, ↓keep_updChn, ↓keep_ite, ite_self])

def resyncEndFoot : Nat := footOf [.chns] [F.chnStat_timing_lock, F.chnCnt_count, F.chnSkew_fault_0, F.chnSkew_fault_1] |||
  reportResultFoot ||| syncChnFoot
theorem keep_resyncEnd {ft : Nat} (hft : inFoot resyncEndFoot ft = true) (c : Nat) (hit : Option (Nat × Nat × Bool)) (lock :
    Bool) (amp0 amp1 : Nat) (xs : List Defect) (d : Dev) : keep ft (resyncEnd c hit lock amp0 amp1 xs d) = keep ft d :=
  keep_mono hft (by simp +decide only [resyncEnd]; split <;> simp +decide only [↓keep_setFlag,
    ↓keep_addWrap, ↓keep_updChn, ↓keep_syncChn, ↓keep_updEntry, ↓keep_seeDefects, ↓keep_reportResult, ↓keep_readerCheck,
    ↓keep_ite, ite_self])

def lastParityFoot : Nat := footOf [.chns] [F.chnCnt_count] ||| syncChnFoot
theorem keep_lastParity {ft : Nat} (hft : inFoot lastParityFoot ft = true) (c : Nat) (xs : List Defect) (d : Dev) : keep ft
    (lastParity c xs d) = keep ft d :=
  keep_mono hft (by unfold lastParity; split <;> simp +decide only [↓keep_updChn, ↓keep_syncChn, ↓keep_seeDefects])

def adaptTapFoot : Nat := footOf [.draws] [F.chnEq_tap]
theorem keep_adaptTap {ft : Nat} (hft : inFoot adaptTapFoot ft = true) (c h : Nat) (m : DecodeMode) (scr : List Bool) (res :
    DecodeRes) (old : Dev) (d : Dev) (j : Nat) : keep ft (adaptTap c h m scr res old d j) = keep ft d :=
  keep_mono hft (by simp +decide only [adaptTap, ↓keep_wrInt, ↓keep_draw])

def adaptTapsFoot : Nat := footOf [.draws] [F.chnEq_tap]
theorem keep_adaptTaps {ft : Nat} (hft : inFoot adaptTapsFoot ft = true) (c : Nat) (e : SectorEntry) (m : DecodeMode) (res :
    DecodeRes) (d : Dev) : keep ft (adaptTaps c e m res d) = keep ft d :=
  keep_mono hft (by simp +decide only [adaptTaps, ↓keep_adaptTap, ↓keep_forEach, ↓keep_ite, ite_self, implies_true])

def finishDecodeFoot : Nat := footOf [.out, .draws, .chns, .card] [F.chnCnt_count, F.chnEq_tap] ||| reportResultFoot |||
  syncChnFoot
theorem keep_finishDecode {ft : Nat} (hft : inFoot finishDecodeFoot ft = true) (d : Dev) (c : Nat) (e : SectorEntry) (m :
    DecodeMode) (limit : Nat) (res : DecodeRes) (ok : Bool) (framing : Nat) : keep ft (finishDecode d c e m limit res ok
    framing) = keep ft d :=
  keep_mono hft (by simp +decide only [finishDecode, ↓keep_addWrap, ↓keep_emit, ↓keep_cardBin, ↓keep_syncChn, ↓keep_updEntry,
    ↓keep_reportResult, ↓keep_adaptTaps, ↓keep_ite, ite_self])

def loseSamplesFoot : Nat := footOf [.chns] [F.chnCnt_count] ||| memErrorFoot
theorem keep_loseSamples {ft : Nat} (hft : inFoot loseSamplesFoot ft = true) (d : Dev) (c : Nat) (e : SectorEntry) (res :
    DecodeRes) : keep ft (loseSamples d c e res).2 = keep ft d :=
  keep_mono hft (by simp +decide only [loseSamples, ↓keep_updEntry, ↓keep_countErased, ↓keep_memError, ↓keep_forEach,
    implies_true])

def decodeDoneFoot : Nat := finishDecodeFoot ||| loseSamplesFoot
theorem keep_decodeDone {ft : Nat} (hft : inFoot decodeDoneFoot ft = true) (c seq : Nat) (res : DecodeRes) (d : Dev) : keep ft
    (decodeDone c seq res d) = keep ft d :=
  keep_mono hft (by unfold decodeDone; split <;> simp +decide only [↓keep_updEntry, ↓keep_finishDecode, ↓keep_loseSamples,
    ↓keep_ite, ite_self])

def reframedDoneFoot : Nat := finishDecodeFoot ||| loseSamplesFoot
theorem keep_reframedDone {ft : Nat} (hft : inFoot reframedDoneFoot ft = true) (c seq : Nat) (res : DecodeRes) (d : Dev) : keep
    ft (reframedDone c seq res d) = keep ft d :=
  keep_mono hft (by unfold reframedDone; split <;> simp +decide only [↓keep_finishDecode, ↓keep_loseSamples, ↓keep_ite, ite_self])

def redecodeStartFoot : Nat := footOf [.chns] [F.chnRedecode_seq, F.chnRedecode_variant, F.chnRedecode_busy, F.chnRedecode_done,
  F.chnRedecode_refused] ||| syncChnFoot
theorem keep_redecodeStart {ft : Nat} (hft : inFoot redecodeStartFoot ft = true) (c seq variant : Nat) (d : Dev) : keep ft
    (redecodeStart c seq variant d) = keep ft d := by
  refine keep_mono hft ?_
  unfold redecodeStart
  extract_lets e
  have he : keep redecodeStartFoot e = keep redecodeStartFoot d := by simp only [e]; simp +decide only [↓keep_wr]
  split
  · exact he
  · split
    · simp +decide only [he, ↓keep_setFlag]
    · simp +decide only [he, ↓keep_setFlag, ↓keep_updChn, ↓keep_syncChn, ↓keep_ite, ite_self]

def redecodeDoneFoot : Nat := footOf [] [F.chnRedecode_busy, F.chnRedecode_done] ||| loseSamplesFoot ||| reportResultFoot |||
  syncChnFoot
theorem keep_redecodeDone {ft : Nat} (hft : inFoot redecodeDoneFoot ft = true) (c : Nat) (res : DecodeRes) (d : Dev) : keep ft
    (redecodeDone c res d) = keep ft d := by
  refine keep_mono hft ?_
  unfold redecodeDone
  split
  · rfl
  · split
    · rfl
    · split
      · simp +decide only [↓keep_setFlag, ↓keep_updChn, ↓keep_syncChn]
      · extract_lets limit
        split
        · rfl
        · have hl (e : SectorEntry) := keep_loseSamples (ft := redecodeDoneFoot) (by decide) d c e res
          simp only []
          simp +decide only [↓keep_setFlag, ↓keep_addWrap, ↓keep_emit, ↓keep_updChn, ↓keep_syncChn, ↓keep_countErased,
              ↓keep_reportResult, ↓keep_loseSamples, ↓keep_ite, ite_self]

end Sys2Proof.Machine
end

section
/-! PROOF. Footprints (7 of 10): compression, cipher, keys, map cache and scratch windows. An operation's footprint joins what it writes itself with the
footprints of the operations it calls, and its lemma says that it keeps everything else. -/
namespace Sys2Proof.Machine

def readStreamFoot : Nat := footOf [.comp] [] ||| macReadFoot
theorem keep_readStream {ft : Nat} (hft : inFoot readStreamFoot ft = true) (d : Dev) (c : Nat) : keep ft (readStream d c).2 =
    keep ft d :=
  keep_mono hft (by simp +decide only [readStream, ↓keep_macRead, ↓keep_updComp, ↓keep_ite, ite_self])

def passDataFoot : Nat := footOf [.draws, .ecc, .comp] [F.eccPcnt_marked, F.eccInj_armed]
theorem keep_passData {ft : Nat} (hft : inFoot passDataFoot ft = true) (d : Dev) (c : Nat) (history : Bool) (data : List Byte) :
    keep ft (passData d c history data) = keep ft d :=
  keep_mono hft (by simp +decide only [passData, ↓keep_draw, ↓keep_macWritten, ↓keep_updComp])

def startJobFoot : Nat := footOf [.cipher] [F.cphNonceCtr_value]
theorem keep_startJob {ft : Nat} (hft : inFoot startJobFoot ft = true) (d : Dev) (id : Nat) : keep ft (startJob d id) = keep ft
    d :=
  keep_mono hft (by unfold startJob; split <;> simp +decide only [↓keep_wr, ↓keep_updCipher, ↓keep_useKey, ↓keep_ite, ite_self])

def startJobsFoot : Nat := footOf [.cipher] [F.cphStat_nonce_wait, F.cphNonceCtr_value] ||| syncWorkFoot
theorem keep_startJobs {ft : Nat} (hft : inFoot startJobsFoot ft = true) (d : Dev) : keep ft (startJobs d) = keep ft d :=
  keep_mono hft (by simp +decide only [startJobs, ↓keep_setFlag, ↓keep_syncWork, ↓keep_startJob, ↓keep_forEach, implies_true])

def queueJobFoot : Nat := footOf [.host] [] ||| startJobsFoot
theorem keep_queueJob {ft : Nat} (hft : inFoot queueJobFoot ft = true) (d : Dev) (id : Nat) : keep ft (queueJob d id) = keep ft
    d :=
  keep_mono hft (by simp +decide only [queueJob, ↓keep_updCtx, ↓keep_updCipher, ↓keep_startJobs])

def endWorkFoot : Nat := finishFoot ||| startJobsFoot
theorem keep_endWork {ft : Nat} (hft : inFoot endWorkFoot ft = true) (d : Dev) (x : Ctx) (st : Nat) : keep ft (endWork d x st) =
    keep ft d :=
  keep_mono hft (by simp +decide only [endWork, ↓keep_finish, ↓keep_startJobs])

def historyCheckFoot : Nat := footOf [] [F.cmpErr_hist_mismatch, F.cmpErr_poison] ||| endWorkFoot ||| readStreamFoot
theorem keep_historyCheck {ft : Nat} (hft : inFoot historyCheckFoot ft = true) (d : Dev) (x : Ctx) (f : CFrame) : keep ft
    (historyCheck d x f) = keep ft d := by
  refine keep_mono hft ?_
  unfold historyCheck
  extract_lets go
  have hgo (e : Dev) : keep historyCheckFoot (go e) = keep historyCheckFoot e := by simp only [go]; simp +decide only
      [↓keep_updCtx, ↓keep_syncWork]
  split
  · exact hgo d
  · have hr := keep_readStream (ft := historyCheckFoot) (by decide) d f.ctxId
    split
    · next hu => rw [hu] at hr; dsimp only at hr; simp +decide only [hr, ↓keep_setFlag, ↓keep_endWork]
    · next hu => rw [hu] at hr; dsimp only at hr; simp +decide only [hr, hgo, ↓keep_setFlag, ↓keep_endWork, ↓keep_ite, ite_self]

def saveStreamFoot : Nat := footOf [] [F.cmpErr_poison] ||| endWorkFoot ||| readStreamFoot
theorem keep_saveStream {ft : Nat} (hft : inFoot saveStreamFoot ft = true) (d : Dev) (x : Ctx) : keep ft (saveStream d x) = keep
    ft d := by
  refine keep_mono hft ?_
  unfold saveStream
  have hr := keep_readStream (ft := saveStreamFoot) (by decide) d x.c.ctx
  split
  · next hu => rw [hu] at hr; dsimp only at hr; simp +decide only [hr, ↓keep_setFlag, ↓keep_endWork]
  · next hu => rw [hu] at hr; dsimp only at hr; simp +decide only [hr, ↓keep_returnData, ↓keep_finish]

def restoreStreamFoot : Nat := footOf [.ecc] [F.cmpErr_ctx_img_bad, F.eccPcnt_marked, F.eccInj_armed] ||| endWorkFoot
theorem keep_restoreStream {ft : Nat} (hft : inFoot restoreStreamFoot ft = true) (d : Dev) (x : Ctx) : keep ft (restoreStream d
    x) = keep ft d :=
  keep_mono hft (by simp +decide only [restoreStream]; split <;> simp +decide only [↓keep_setFlag, ↓keep_macWritten, ↓keep_finish, ↓keep_updComp, ↓keep_endWork])

def contextGrantFoot : Nat := historyCheckFoot ||| restoreStreamFoot
theorem keep_contextGrant {ft : Nat} (hft : inFoot contextGrantFoot ft = true) (c : Nat) (d : Dev) : keep ft (contextGrant c d)
    = keep ft d := by
  refine keep_mono hft ?_
  unfold contextGrant
  split
  · rfl
  · split
    · rfl
    · split
      · simp +decide only [↓keep_saveStream]
      · simp +decide only [↓keep_restoreStream, ↓keep_ite, ite_self]
      · simp +decide only [↓keep_updCtx, ↓keep_syncWork]
      · split
        · simp +decide only [↓keep_endWork]
        · simp +decide only [↓keep_queueJob, ↓keep_historyCheck, ↓keep_ite, ite_self]
      · rfl

def chunkDispatchFoot : Nat := footOf [.comp] [] ||| syncWorkFoot
theorem keep_chunkDispatch {ft : Nat} (hft : inFoot chunkDispatchFoot ft = true) (e : Nat) (d : Dev) : keep ft (chunkDispatch e
    d) = keep ft d := by
  refine keep_mono hft ?_
  unfold chunkDispatch
  extract_lets ready
  split
  · rfl
  · split
    · rfl
    · simp +decide only [↓keep_syncWork, ↓keep_updComp]

def chunkCompressedFoot : Nat := footOf [] [F.cmpErr_poison, F.cmpInBytes_bytes] ||| endWorkFoot ||| readStreamFoot
theorem keep_chunkCompressed {ft : Nat} (hft : inFoot chunkCompressedFoot ft = true) (e : Nat) (stream : List Byte) (poison :
    Bool) (d : Dev) : keep ft (chunkCompressed e stream poison d) = keep ft d := by
  refine keep_mono hft ?_
  unfold chunkCompressed
  split
  · rfl
  · split
    · extract_lets asked r e1
      have hr : keep chunkCompressedFoot e1 = keep chunkCompressedFoot d := by
        simp only [e1, r]
        split
        · simp +decide only [↓keep_readStream]
        · rfl
      split
      · simp +decide only [hr, ↓keep_setFlag, ↓keep_endWork]
      · clear_value e1
        simp +decide +zetaDelta only [hr, ↓keep_addWrap, ↓keep_updCtx, ↓keep_syncWork, ↓keep_putFrame, ↓keep_updComp,
            ↓keep_queueJob, ↓keep_ite, ite_self]
    · rfl

def placeFrameFoot : Nat := finishFoot ||| passDataFoot
theorem keep_placeFrame {ft : Nat} (hft : inFoot placeFrameFoot ft = true) (d : Dev) (x : Ctx) (ns : Ns) (zi : Nat) (z : Zone)
    (f : CFrame) : keep ft (placeFrame d x ns zi z f) = keep ft d :=
  keep_mono hft (by simp +decide only [placeFrame, ↓keep_updCtx, ↓keep_updNs, ↓keep_syncHost, ↓keep_placeExtent, ↓keep_setPtr,
    ↓keep_tryComplete, ↓keep_coverNext, ↓keep_release, ↓keep_pressWriters, ↓keep_passData])

def framePlacementFoot : Nat := footOf [] [F.cmpErr_no_space] ||| placeFrameFoot ||| endWorkFoot
theorem keep_framePlacement {ft : Nat} (hft : inFoot framePlacementFoot ft = true) (id : Nat) (d : Dev) : keep ft
    (framePlacement id d) = keep ft d := by
  refine keep_mono hft ?_
  unfold framePlacement
  split
  · rfl
  · split
    · rfl
    · split
      · extract_lets zi
        split
        · simp +decide only [↓keep_endWork]
        · split
          · simp +decide only [↓keep_endWork]
          · simp +decide only [↓keep_setFlag, ↓keep_endWork, ↓keep_placeFrame, ↓keep_ite, ite_self]
      · rfl

def decompressionDoneFoot : Nat := footOf [] [F.cmpErr_data_bad, F.cmpOutBytes_bytes] ||| endWorkFoot ||| passDataFoot
theorem keep_decompressionDone {ft : Nat} (hft : inFoot decompressionDoneFoot ft = true) (e : Nat) (errs histErrs : List Nat) (d
    : Dev) : keep ft (decompressionDone e errs histErrs d) = keep ft d := by
  refine keep_mono hft ?_
  unfold decompressionDone
  split
  · rfl
  · split
    · simp +decide only [↓keep_setFlag, ↓keep_addWrap, ↓keep_returnData, ↓keep_finish, ↓keep_countMoved, ↓keep_passData,
        ↓keep_endWork, ↓keep_ite, ite_self]
    · rfl

def gcmJobDoneFoot : Nat := footOf [] [F.cmpErr_frame_bad, F.cphErr_gcm_fail, F.cphErr_poison, F.cphBytes_bytes] |||
  historyCheckFoot
theorem keep_gcmJobDone {ft : Nat} (hft : inFoot gcmJobDoneFoot ft = true) (core : Nat) (errs : List Nat) (poison : Bool) (d :
    Dev) : keep ft (gcmJobDone core errs poison d) = keep ft d := by
  refine keep_mono hft ?_
  unfold gcmJobDone
  split
  · rfl
  · extract_lets e1 key
    have he1 : keep gcmJobDoneFoot e1 = keep gcmJobDoneFoot d := by simp only [e1]; simp +decide only [↓keep_updCipher]
    split
    · split
      · simp +decide only [he1, ↓keep_addWrap, ↓keep_setFlag, ↓keep_endWork]
      · split
        · simp +decide only [he1, ↓keep_addWrap, ↓keep_updCtx, ↓keep_putFrame, ↓keep_startJobs]
        · simp +decide only [he1, ↓keep_addWrap, ↓keep_setFlag, ↓keep_putFrame, ↓keep_startJobs,
            ↓keep_endWork, ↓keep_historyCheck, ↓keep_ite, ite_self]
    · simp +decide only [he1, ↓keep_startJobs]

def keyCacheFillFoot : Nat := footOf [] [F.cphErr_key_empty, F.cphErr_slot_crc, F.cphErr_unwrap_fail, F.cphErr_locked] |||
  endWorkFoot ||| fetchKeyFoot
theorem keep_keyCacheFill {ft : Nat} (hft : inFoot keyCacheFillFoot ft = true) (slot : Nat) (crcOk kwOk : Bool) (d : Dev) : keep
    ft (keyCacheFill slot crcOk kwOk d) = keep ft d := by
  refine keep_mono hft ?_
  unfold keyCacheFill
  split
  · rfl
  · extract_lets r fetched e1
    have hr : keep keyCacheFillFoot r.2 = keep keyCacheFillFoot d := keep_fetchKey (by decide) ..
    split
    · simp +decide only [hr, ↓keep_startJobs]
    · next st f hf =>
      rw [keep_forEach _ _ _ fun d x => keep_endWork (by decide) .., keep_syncWork (by decide),
        keep_setFlag_of_mem _ (fs := F.cphErr_unwrap_fail :: keyErrFlds) (by decide) ?_]
      · simp only [e1]
        simp +decide only [hr, ↓keep_updCipher]
      · have hfetched : ∀ g, fetched = some g → g.2 ∈ keyErrFlds := by
          intro g hg
          simp only [fetched] at hg
          split at hg
          · cases hg; decide
          · exact fetchKey_field hg
        split at hf
        · cases hf; decide
        · exact List.mem_cons_of_mem _ (hfetched _ hf)

def nonceReserveFoot : Nat := footOf [.cipher] []
theorem keep_nonceReserve {ft : Nat} (hft : inFoot nonceReserveFoot ft = true) (d : Dev) : keep ft (nonceReserve d) = keep ft d
    :=
  keep_mono hft (by simp +decide only [nonceReserve, ↓keep_updCipher, ↓keep_ite, ite_self])

def nonceWrittenFoot : Nat := footOf [] [F.cphNonceLimit_value] ||| startJobsFoot
theorem keep_nonceWritten {ft : Nat} (hft : inFoot nonceWrittenFoot ft = true) (d : Dev) : keep ft (nonceWritten d) = keep ft d
    :=
  keep_mono hft (by simp +decide only [nonceWritten]; split <;> simp +decide only
    [↓keep_wr, ↓keep_updCipher, ↓keep_startJobs])

def pressPairFoot : Nat := footOf [.host] []
theorem keep_pressPair {ft : Nat} (hft : inFoot pressPairFoot ft = true) (d : Dev) (e : Nat) : keep ft (pressPair d e) = keep ft
    d :=
  keep_mono hft (by simp +decide only [pressPair, ↓keep_destageExtent, ↓keep_forEach, implies_true])

def clearPairFoot : Nat := footOf [.host] [] ||| emptySlotFoot
theorem keep_clearPair {ft : Nat} (hft : inFoot clearPairFoot ft = true) (d : Dev) (e : Nat) (waiter : Option (Nat × Nat)) :
    keep ft (clearPair d e waiter) = keep ft d :=
  keep_mono hft (by simp +decide only [clearPair, ↓keep_updCipher, ↓keep_setSlot, ↓keep_emptySlot, ↓keep_pressPair, ↓keep_forEach,
    ↓keep_ite, ite_self, implies_true])

def storeSlotFoot : Nat := footOf [.cipher] []
theorem keep_storeSlot {ft : Nat} (hft : inFoot storeSlotFoot ft = true) (d : Dev) (i : Nat) : keep ft (storeSlot d i) = keep ft
    d :=
  keep_mono hft (by simp +decide only [storeSlot, ↓keep_updCipher])

def replacePairFoot : Nat := persistKeyFoot ||| syncWorkFoot
theorem keep_replacePair {ft : Nat} (hft : inFoot replacePairFoot ft = true) (d : Dev) (e kekSel nsid : Nat) (waiter : Option
    (Nat × Nat)) : keep ft (replacePair d e kekSel nsid waiter) = keep ft d :=
  keep_mono hft (by simp +decide only [replacePair, ↓keep_syncWork, ↓keep_updCipher, ↓keep_setSlot, ↓keep_freshKey,
    ↓keep_persistKey, ↓keep_pressPair, ↓keep_forEach, ↓keep_ite, ite_self, implies_true])

def slotRetiredFoot : Nat := emptySlotFoot ||| endAdminFoot
theorem keep_slotRetired {ft : Nat} (hft : inFoot slotRetiredFoot ft = true) (i : Nat) (d : Dev) : keep ft (slotRetired i d) =
    keep ft d := by
  refine keep_mono hft ?_
  unfold slotRetired
  split
  · rfl
  · split
    · rfl
    · extract_lets e1 e2
      have he1 : keep slotRetiredFoot e1 = keep slotRetiredFoot d := by simp only [e1]; simp +decide only [↓keep_updCipher,
          ↓keep_emptySlot]
      have he2 : keep slotRetiredFoot e2 = keep slotRetiredFoot d := by
        simp only [e2]
        split
        · simp +decide only [he1, ↓keep_setSlot, ↓keep_storeSlot]
        · exact he1
      simp +decide only [he2, ↓keep_endAdmin, ↓keep_ite, ite_self]

theorem keep_keyInject {ft : Nat} (hft : inFoot clearPairFoot ft = true) (nsid tag : Nat) (wrappedOk : Bool) (key : Nat) (d :
    Dev) : keep ft (keyInject nsid tag wrappedOk key d) = keep ft d :=
  keep_mono hft (by unfold keyInject; split <;> simp +decide only [↓keep_updCipher, ↓keep_setSlot, ↓keep_clearPair, ↓keep_ite,
    ite_self])

def updRangeFoot : Nat := footOf [.cipher] []
theorem keep_updRange {ft : Nat} (hft : inFoot updRangeFoot ft = true) (d : Dev) (r : Nat) (g : KeyRange → KeyRange) : keep ft
    (d.updRange r g) = keep ft d :=
  keep_mono hft (by simp +decide only [Dev.updRange, ↓keep_updCipher])

def loadRangeKekFoot : Nat := footOf [.cipher] []
theorem keep_loadRangeKek {ft : Nat} (hft : inFoot loadRangeKekFoot ft = true) (d : Dev) (r : Nat) : keep ft (loadRangeKek d r)
    = keep ft d :=
  keep_mono hft (by simp +decide only [loadRangeKek, ↓keep_updRange, ↓keep_ite, ite_self])

def rangeUnlockFoot : Nat := footOf [.cipher] []
theorem keep_rangeUnlock {ft : Nat} (hft : inFoot rangeUnlockFoot ft = true) (r : Nat) (credentialOk : Bool) (d : Dev) : keep ft
    (rangeUnlock r credentialOk d) = keep ft d :=
  keep_mono hft (by simp +decide only [rangeUnlock, ↓keep_updRange, ↓keep_loadRangeKek, ↓keep_ite, ite_self])

def rangeLockFoot : Nat := footOf [.host, .cipher] []
theorem keep_rangeLock {ft : Nat} (hft : inFoot rangeLockFoot ft = true) (r : Nat) (d : Dev) : keep ft (rangeLock r d) = keep ft
    d :=
  keep_mono hft (by simp +decide only [rangeLock, ↓keep_pressPair, ↓keep_updRange])

def rangeKekZeroFoot : Nat := footOf [.cipher] [] ||| syncWorkFoot
theorem keep_rangeKekZero {ft : Nat} (hft : inFoot rangeKekZeroFoot ft = true) (r : Nat) (d : Dev) : keep ft (rangeKekZero r d)
    = keep ft d :=
  keep_mono hft (by simp +decide only [rangeKekZero, ↓keep_syncWork, ↓keep_updCipher, ↓keep_updRange, ↓keep_ite, ite_self])

def contextSaveFoot : Nat := footOf [.draws] [F.cphCtxCtl_core, F.cphCtxCtl_op, F.cphCtxWin_data] ||| startJobsFoot
theorem keep_contextSave {ft : Nat} (hft : inFoot contextSaveFoot ft = true) (core : Nat) (d : Dev) : keep ft (contextSave core
    d) = keep ft d := by
  refine keep_mono hft ?_
  unfold contextSave
  extract_lets e1
  have he1 : keep contextSaveFoot e1 = keep contextSaveFoot d := by simp only [e1]; simp +decide only [↓keep_wr]
  split
  · exact he1
  · simp +decide only [he1, ↓keep_wr, ↓keep_draw, ↓keep_updCipher, ↓keep_startJobs, ↓keep_forEach, implies_true]

def contextRestoreFoot : Nat := footOf [.cipher] [F.cphErr_ctx_bad, F.cphCtxCtl_core, F.cphCtxCtl_op, F.cphCtxCtl_fail] |||
  syncWorkFoot
theorem keep_contextRestore {ft : Nat} (hft : inFoot contextRestoreFoot ft = true) (rq : Requester) (core : Nat) (d : Dev) :
    keep ft (contextRestore rq core d) = keep ft d :=
  keep_mono hft (by simp +decide only [contextRestore]; split <;> simp +decide only [↓keep_wr, ↓keep_setFlag, ↓keep_syncWork, ↓keep_updCipher, ↓keep_useKey,
    ↓keep_ite, ite_self])

def setCountermeasuresFoot : Nat := footOf [] [F.cphCm_dummy_max, F.cphCm_shuffle, F.cphCm_refused]
theorem keep_setCountermeasures {ft : Nat} (hft : inFoot setCountermeasuresFoot ft = true) (dummyMax : Nat) (shuffle : Bool) (d
    : Dev) : keep ft (setCountermeasures dummyMax shuffle d) = keep ft d :=
  keep_mono hft (by simp +decide only [setCountermeasures, ↓keep_setFlag, ↓keep_wr, ↓keep_ite, ite_self])

def keyInvalidateFoot : Nat := footOf [.cipher] [F.cphKeyInv_slot, F.cphKeyInv_busy]
theorem keep_keyInvalidate {ft : Nat} (hft : inFoot keyInvalidateFoot ft = true) (slot : Nat) (d : Dev) : keep ft (keyInvalidate
    slot d) = keep ft d :=
  keep_mono hft (by simp +decide only [keyInvalidate, ↓keep_wr, ↓keep_setFlag, ↓keep_updCipher])

def keyDropDoneFoot : Nat := footOf [.cipher] [F.cphKeyInv_busy] ||| syncWorkFoot
theorem keep_keyDropDone {ft : Nat} (hft : inFoot keyDropDoneFoot ft = true) (d : Dev) : keep ft (keyDropDone d) = keep ft d :=
  keep_mono hft (by simp +decide only [keyDropDone, ↓keep_setFlag, ↓keep_syncWork, ↓keep_updCipher])

def loopEffectFoot : Nat := footOf [.host, .reset, .card] [F.memCfg_trained, F.memWipe_state] ||| portDownFoot ||| portTrainFoot
theorem keep_loopEffect {ft : Nat} (hft : inFoot loopEffectFoot ft = true) (d : Dev) (site old depth : Nat) : keep ft
    (loopEffect d site old depth) = keep ft d :=
  keep_mono hft (by simp +decide only [loopEffect]; split <;> simp +decide only [↓keep_setFlag, ↓keep_wr,
    ↓keep_portDown, ↓keep_portTrain, ↓keep_updReset, ↓keep_hostLinkDown, ↓keep_hostTrain, ↓keep_ite, ite_self])

def dropLoopVoteFoot : Nat := footOf [] [F.pwrVote_dom]
theorem keep_dropLoopVote {ft : Nat} (hft : inFoot dropLoopVoteFoot ft = true) (d : Dev) (site : Nat) : keep ft (dropLoopVote d
    site) = keep ft d :=
  keep_mono hft (by simp +decide only [dropLoopVote, ↓keep_clearVote, ↓keep_ite, ite_self])

def loopSelectFoot : Nat := footOf [.therm] [F.pwrVote_dom, F.thmStat_phase, F.loop_depth, F.loop_refused, F.loop_arg] |||
  recomputeBoundFoot ||| loopEffectFoot
theorem keep_loopSelect {ft : Nat} (hft : inFoot loopSelectFoot ft = true) (rq : Requester) (site depth arg : Nat) (d : Dev) :
    keep ft (loopSelect rq site depth arg d) = keep ft d :=
  keep_mono hft (by simp +decide only [loopSelect, ↓keep_wr, ↓keep_setFlag, ↓keep_recomputeBound, ↓keep_orVote, ↓keep_syncPhase,
    ↓keep_loopEffect, ↓keep_dropLoopVote, ↓keep_ite, ite_self])

def loopRunFoot : Nat := footOf [.out] [F.loop_run, F.loop_locked, F.loopCnt_errors, F.loopCnt_checked]
theorem keep_loopRun {ft : Nat} (hft : inFoot loopRunFoot ft = true) (site : Nat) (on locked : Bool) (errors checked : Nat) (d :
    Dev) : keep ft (loopRun site on locked errors checked d) = keep ft d := by
  refine keep_mono hft ?_
  unfold loopRun
  extract_lets e1 e2
  have he1 : keep loopRunFoot e1 = keep loopRunFoot d := by simp only [e1]; simp +decide only [↓keep_setFlag, ↓keep_wr,
      ↓keep_ite, ite_self]
  have he2 : keep loopRunFoot e2 = keep loopRunFoot d := by
    simp only [e2]
    split
    · simp +decide only [he1, ↓keep_emit, ↓keep_ite, ite_self]
    · exact he1
  split
  · simp +decide only [↓keep_setFlag]
  · split
    · exact he1
    · simp +decide only [he2, ↓keep_setFlag, ↓keep_addSat]

def setMapSlotFoot : Nat := footOf [.map] []
theorem keep_setMapSlot {ft : Nat} (hft : inFoot setMapSlotFoot ft = true) (d : Dev) (i : Nat) (e : Option MapEntry) : keep ft
    (setMapSlot d i e) = keep ft d :=
  keep_mono hft (by simp +decide only [setMapSlot, ↓keep_updMap])

def syncMapFoot : Nat := footOf [] [F.mapStat_dirty, F.mapStat_side]
theorem keep_syncMap {ft : Nat} (hft : inFoot syncMapFoot ft = true) (d : Dev) : keep ft (syncMap d) = keep ft d :=
  keep_mono hft (by simp +decide only [syncMap, ↓keep_wr])

def pageToDramFoot : Nat := footOf [.ecc, .map] [F.eccPcnt_marked, F.eccInj_armed]
theorem keep_pageToDram {ft : Nat} (hft : inFoot pageToDramFoot ft = true) (d : Dev) (page : Nat) (poison : Bool) : keep ft
    (pageToDram d page poison) = keep ft d :=
  keep_mono hft (by simp +decide only [pageToDram, ↓keep_macWritten, ↓keep_updMap])

theorem keep_cleanEntry {ft : Nat} (hft : inFoot pageToDramFoot ft = true) (d : Dev) (i : Nat) : keep ft (cleanEntry d i) = keep
    ft d :=
  keep_mono hft (by unfold cleanEntry; split <;> simp +decide only [↓keep_setMapSlot, ↓keep_pageToDram, ↓keep_ite, ite_self])

theorem keep_pageFromDram {ft : Nat} (hft : inFoot macReadFoot ft = true) (d : Dev) (page : Nat) : keep ft (pageFromDram d
    page).2 = keep ft d :=
  keep_mono hft (by simp +decide only [pageFromDram, ↓keep_macRead])

def rebuildPageFoot : Nat := footOf [.ecc, .map] [F.eccPcnt_marked, F.eccInj_armed]
theorem keep_rebuildPage {ft : Nat} (hft : inFoot rebuildPageFoot ft = true) (d : Dev) (page : Nat) : keep ft (rebuildPage d
    page) = keep ft d :=
  keep_mono hft (by simp +decide only [rebuildPage, ↓keep_macWritten, ↓keep_updMap])

def consumePageFoot : Nat := finishFoot ||| rebuildPageFoot
theorem keep_consumePage {ft : Nat} (hft : inFoot consumePageFoot ft = true) (d : Dev) (ids : List Nat) (page : Nat) (poison :
    Bool) : keep ft (consumePage d ids page poison) = keep ft d := by
  refine keep_mono hft ?_
  unfold consumePage
  split
  · rw [keep_rebuildPage (by decide)]
    refine keep_forEach _ _ _ fun e id => ?_
    split
    · simp +decide only [↓keep_finish, ↓keep_failWrite, ↓keep_ite, ite_self]
    · rfl
  · rfl

def placePageFoot : Nat := footOf [] [F.mapLfsr_state] ||| pageToDramFoot
theorem keep_placePage {ft : Nat} (hft : inFoot placePageFoot ft = true) {d x : Dev} {e : MapEntry} (hx : placePage d e = some x) :
    keep ft x = keep ft d := by
  obtain ⟨i, _, rfl⟩ := Option.map_eq_some_iff.1 hx
  exact keep_mono hft (by simp +decide only [↓keep_setMapSlot, ↓keep_wr, ↓keep_cleanEntry])

theorem keep_writeEntry {ft : Nat} (hft : inFoot pageToDramFoot ft = true) (d : Dev) (i : Nat) (e : MapEntry) : keep ft
    (writeEntry d i e) = keep ft d :=
  keep_mono hft (by simp +decide only [writeEntry, ↓keep_setMapSlot, ↓keep_pageToDram, ↓keep_ite, ite_self])

def missPageFoot : Nat := footOf [] [F.mapMisses_count] ||| consumePageFoot ||| macReadFoot ||| placePageFoot
theorem keep_missPage {ft : Nat} (hft : inFoot missPageFoot ft = true) (d : Dev) (page : Nat) (write : Bool) (id : Nat) :
    keep ft (missPage d page write id) = keep ft d := by
  refine keep_mono hft ?_
  unfold missPage
  extract_lets d' r
  split
  · next hx => simp +decide only [keep_placePage _ hx, d', ↓keep_addWrap]
  · simp +decide only [r, d', ↓keep_consumePage, ↓keep_pageFromDram, ↓keep_addWrap]

def mapLookupFoot : Nat := footOf [] [F.mapStat_dirty, F.mapStat_side, F.mapErr_tag_pe, F.mapErr_tag_double, F.mapHits_count]
  ||| missPageFoot
theorem keep_mapLookup {ft : Nat} (hft : inFoot mapLookupFoot ft = true) (page : Nat) (write : Bool) (pe id : Nat) (d : Dev) :
    keep ft (mapLookup page write pe id d) = keep ft d := by
  refine keep_mono hft ?_
  unfold mapLookup
  split
  · simp +decide only [↓keep_pageFromDram,
      ↓keep_consumePage]
  · split
    · split
      · rfl
      · extract_lets _ _ e1 e2 e3
        split
        · simp +decide +zetaDelta only [↓keep_setFlag, ↓keep_updMap, ↓keep_setMapSlot, ↓keep_syncMap, ↓keep_missPage, ↓keep_ite, ite_self]
        · have he1 : keep mapLookupFoot e1 = keep mapLookupFoot d := by simp only [e1]; simp +decide only [↓keep_setFlag, ↓keep_ite, ite_self]
          have he3 : keep mapLookupFoot e3 = keep mapLookupFoot d := by simp only [e3, e2]; simp +decide only [he1, ↓keep_addWrap, ↓keep_writeEntry, ↓keep_ite, ite_self]
          split
          · simp +decide only [he3, ↓keep_setMapSlot, ↓keep_syncMap]
          · simp +decide only [he3, ↓keep_syncMap, ↓keep_consumePage]
    · split
      · extract_lets e1 bad e2
        have he1 : keep mapLookupFoot e1 = keep mapLookupFoot d := by simp only [e1]; simp +decide only [↓keep_addWrap]
        have he2 : keep mapLookupFoot e2 = keep mapLookupFoot d := by
          simp only [e2]
          split
          · next hx => simp +decide only [keep_placePage _ hx, he1, ↓keep_updMap]
          · exact he1
        simp +decide only [he2, ↓keep_syncMap, ↓keep_consumePage]
      · simp +decide only [↓keep_syncMap, ↓keep_missPage]

def mapFillDoneFoot : Nat := footOf [] [F.mapStat_dirty, F.mapStat_side, F.mapErr_data_ce, F.mapErr_data_ue] ||| consumePageFoot
  ||| macReadFoot
theorem keep_mapFillDone {ft : Nat} (hft : inFoot mapFillDoneFoot ft = true) (page : Nat) (d : Dev) : keep ft (mapFillDone page
    d) = keep ft d := by
  refine keep_mono hft ?_
  unfold mapFillDone
  split
  · rfl
  · split
    · rfl
    · split
      · rfl
      · simp +decide only [↓keep_setFlag, ↓keep_setMapSlot, ↓keep_syncMap, ↓keep_pageFromDram, ↓keep_consumePage, ↓keep_ite, ite_self]

def mapPrefetchFoot : Nat := footOf [.map] [F.mapStat_dirty, F.mapStat_side] ||| macReadFoot
theorem keep_mapPrefetch {ft : Nat} (hft : inFoot mapPrefetchFoot ft = true) (page : Nat) (d : Dev) : keep ft (mapPrefetch page
    d) = keep ft d :=
  keep_mono hft (by simp +decide only [mapPrefetch, ↓keep_updMap, ↓keep_syncMap, ↓keep_pageFromDram, ↓keep_ite, ite_self])

def maintEffectFoot : Nat := footOf [] [F.mapStat_dirty, F.mapStat_side, F.mapMaintStat_busy, F.mapMaintStat_hit] |||
  pageToDramFoot
theorem keep_maintEffect {ft : Nat} (hft : inFoot maintEffectFoot ft = true) (d : Dev) (page op : Nat) : keep ft (maintEffect d
    page op) = keep ft d :=
  keep_mono hft (by simp +decide only [maintEffect, ↓keep_setFlag, ↓keep_updMap, ↓keep_syncMap,
    ↓keep_ite, ite_self]; split <;> simp +decide only [↓keep_setFlag, ↓keep_setMapSlot,
    ↓keep_cleanEntry, ↓keep_ite, ite_self])

def maintStartFoot : Nat := footOf [] [F.mapMaint_page, F.mapMaint_op, F.mapMaintStat_waited_fill] ||| maintEffectFoot
theorem keep_maintStart {ft : Nat} (hft : inFoot maintStartFoot ft = true) (page op : Nat) (d : Dev) : keep ft (maintStart page
    op d) = keep ft d :=
  keep_mono hft (by simp +decide only [maintStart, ↓keep_wr, ↓keep_setFlag, ↓keep_updMap, ↓keep_maintEffect, ↓keep_ite, ite_self])

theorem keep_maintDone {ft : Nat} (hft : inFoot maintEffectFoot ft = true) (d : Dev) : keep ft (maintDone d) = keep ft d :=
  keep_mono hft (by simp +decide only [maintDone]; split <;> simp +decide
    only [↓keep_updMap, ↓keep_maintEffect, ↓keep_ite, ite_self])

def mapEnableFoot : Nat := footOf [] [F.mapCtl_enable, F.mapStat_enabled]
theorem keep_mapEnable {ft : Nat} (hft : inFoot mapEnableFoot ft = true) (d : Dev) : keep ft (mapEnable d) = keep ft d :=
  keep_mono hft (by simp +decide only [mapEnable, ↓keep_setFlag, ↓keep_ite, ite_self])

def mapDisableFoot : Nat := footOf [] [F.mapCtl_enable, F.mapStat_disabling]
theorem keep_mapDisable {ft : Nat} (hft : inFoot mapDisableFoot ft = true) (d : Dev) : keep ft (mapDisable d) = keep ft d :=
  keep_mono hft (by simp +decide only [mapDisable, ↓keep_setFlag, ↓keep_ite, ite_self])

def disableCompleteFoot : Nat := footOf [] [F.mapStat_enabled, F.mapStat_disabling, F.mapStat_dirty, F.mapStat_side] |||
  pageToDramFoot
theorem keep_disableComplete {ft : Nat} (hft : inFoot disableCompleteFoot ft = true) (d : Dev) : keep ft (disableComplete d) =
    keep ft d :=
  keep_mono hft (by simp +decide only [disableComplete, ↓keep_setFlag, ↓keep_updMap, ↓keep_syncMap, ↓keep_cleanEntry,
    ↓keep_forEach, ↓keep_ite, ite_self, implies_true])

def retargetFoot : Nat := footOf [.map] [F.mapGrpStat_is_scratch, F.mapGrpStat_busy]
theorem keep_retarget {ft : Nat} (hft : inFoot retargetFoot ft = true) (d : Dev) (g : Nat) : keep ft (retarget d g) = keep ft d
    :=
  keep_mono hft (by simp +decide only [retarget, ↓keep_setBit, ↓keep_updMap, ↓keep_ite, ite_self])

def writeGroupsFoot : Nat := footOf [.map] [F.mapGrpCtl_pwr_down, F.mapGrpCtl_scratch, F.mapGrpStat_is_scratch,
  F.mapGrpStat_busy, F.mapErr_cfg_err]
theorem keep_writeGroups {ft : Nat} (hft : inFoot writeGroupsFoot ft = true) (down scratch : Nat) (d : Dev) : keep ft
    (writeGroups down scratch d) = keep ft d :=
  keep_mono hft (by simp +decide only [writeGroups, ↓keep_setFlag, ↓keep_wr, ↓keep_retarget, ↓keep_forEach, ↓keep_ite, ite_self,
    implies_true])

def groupDoneFoot : Nat := footOf [.seqs] [F.mapStat_dirty, F.mapStat_side, F.mapGrpStat_down, F.mapGrpStat_is_scratch,
  F.mapGrpStat_busy] ||| pageToDramFoot
theorem keep_groupDone {ft : Nat} (hft : inFoot groupDoneFoot ft = true) (g : Nat) (d : Dev) (m : List Host.Cell) : keep ft
    (groupDone g d m).1 = keep ft d := by
  refine keep_mono hft ?_
  unfold groupDone
  split
  · rfl
  · simp only []
    split
    · rfl
    · simp +decide only [↓keep_setBit, ↓keep_wipeMac, ↓keep_updMap, ↓keep_setMapSlot, ↓keep_syncMap, ↓keep_cleanEntry,
        ↓keep_forEach, implies_true]

def scratchAccessFoot : Nat := footOf [] [F.eccInj_armed] ||| macReadFoot ||| busErrorFoot
theorem keep_scratchAccess {ft : Nat} (hft : inFoot scratchAccessFoot ft = true) (rq : Requester) (g off : Nat) (acc : Access)
    (d : Dev) (m : List Host.Cell) : keep ft (scratchAccess rq g off acc d m).1 = keep ft d := by
  refine keep_mono hft ?_
  unfold scratchAccess
  extract_lets addr
  split
  · simp +decide only [↓keep_busError]
  · split
    · simp +decide only [↓keep_busError]
    · split
      · extract_lets r
        split
        · simp only [r]; simp +decide only [↓keep_busError, ↓keep_macRead]
        · simp only [r]; simp +decide only [↓keep_busOk, ↓keep_macRead]
      · simp +decide only [↓keep_busOk, ↓keep_macWritten]

def pspRawFoot : Nat := footOf [.seqs] [F.pspRaw_data, F.pspRaw_addr, F.pspRaw_head, F.pspRaw_rd, F.pspRaw_busy]
theorem keep_pspRaw {ft : Nat} (hft : inFoot pspRawFoot ft = true) (a : Nat) (rd : Bool) (head addr data : Nat) (d : Dev) : keep
    ft (pspRaw a rd head addr data d) = keep ft d :=
  keep_mono hft (by simp +decide only [pspRaw, ↓keep_wr, ↓keep_setFlag, ↓keep_updSeq, ↓keep_ite, ite_self])

def pspDoneFoot : Nat := footOf [.out, .seqs] [F.pspRaw_data, F.pspRaw_busy, F.pspStat_id, F.pspStat_frames]
theorem keep_pspDone {ft : Nat} (hft : inFoot pspDoneFoot ft = true) (a data : Nat) (d : Dev) : keep ft (pspDone a data d) =
    keep ft d := by
  refine keep_mono hft ?_
  unfold pspDone
  extract_lets first e1
  have he1 : keep pspDoneFoot e1 = keep pspDoneFoot d := by simp only [e1]; simp +decide only [↓keep_addSat]
  split
  · simp +decide only [he1, ↓keep_wr, ↓keep_setFlag, ↓keep_updSeq, ↓keep_emitSlot, ↓keep_ite, ite_self]
  · simp +decide only [he1, ↓keep_wr, ↓keep_ite, ite_self]

def logCardFoot : Nat := footOf [.out] []
theorem keep_logCard {ft : Nat} (hft : inFoot logCardFoot ft = true) (h cid lsp lsi offset : Nat) (d : Dev) : keep ft (logCard h
    cid lsp lsi offset d) = keep ft d :=
  keep_mono hft (by simp +decide only [logCard, ↓keep_adminEnd, ↓keep_adminPage, ↓keep_ite, ite_self])

def logDetentionFoot : Nat := footOf [.out] []
theorem keep_logDetention {ft : Nat} (hft : inFoot logDetentionFoot ft = true) (h cid nsid : Nat) (d : Dev) : keep ft
    (logDetention h cid nsid d) = keep ft d :=
  keep_mono hft (by simp +decide only [logDetention]; split <;> simp +decide only
    [↓keep_adminEnd, ↓keep_adminPage])

def epochEndFoot : Nat := footOf [] [F.pwrCs_state, F.pwrCs_target, F.pwrDom_dom, F.evrPos_seconds] ||| closeEpochFoot
theorem keep_epochEnd {ft : Nat} (hft : inFoot epochEndFoot ft = true) (d : Dev) : keep ft (epochEnd d) = keep ft d :=
  keep_mono hft (by simp +decide only [epochEnd, ↓keep_updCard, ↓keep_closeEpoch, ↓keep_reachSecond, ↓keep_wakeCs2, ↓keep_ite,
    ite_self])

def checkpointDueFoot : Nat := footOf [.draws, .card] [F.evrStat_nor_fail]
theorem keep_checkpointDue {ft : Nat} (hft : inFoot checkpointDueFoot ft = true) (d : Dev) : keep ft (checkpointDue d) = keep ft
    d :=
  keep_mono hft (by simp +decide only [checkpointDue, ↓keep_updCard, ↓keep_writeCheckpoint, ↓keep_ite, ite_self])

def hourErrorsFoot : Nat := footOf [.card] []
theorem keep_hourErrors {ft : Nat} (hft : inFoot hourErrorsFoot ft = true) (d : Dev) : keep ft (hourErrors d) = keep ft d :=
  keep_mono hft (by simp +decide only [hourErrors, ↓keep_updCard, ↓keep_cardExtreme])

def freezeCardFoot : Nat := footOf [.card] [F.evrCtl_frozen]
theorem keep_freezeCard {ft : Nat} (hft : inFoot freezeCardFoot ft = true) (d : Dev) : keep ft (freezeCard d) = keep ft d :=
  keep_mono hft (by simp +decide only [freezeCard, ↓keep_setFlag, ↓keep_updCard, ↓keep_ite, ite_self])

end Sys2Proof.Machine
end

section
/-! PROOF. Footprints (8 of 10): link transactions, TCG and Sanitize. An operation's footprint joins what it writes itself with the
footprints of the operations it calls, and its lemma says that it keeps everything else. -/
namespace Sys2Proof.Machine

def fillStartFoot : Nat := footOf [] [F.evrWinStat_ready, F.evrWinStat_filling, F.evrWinStat_empty]
theorem keep_fillStart {ft : Nat} (hft : inFoot fillStartFoot ft = true) (d : Dev) (pr : Nat) : keep ft (fillStart d pr) = keep
    ft d :=
  keep_mono hft (by simp +decide only [fillStart, ↓keep_setFlag])

def cursorFillFoot : Nat := footOf [] [F.evrCursor_area, F.evrCursor_index, F.evrCursor_offset, F.evrCursor_auto,
  F.evrWinStat_ready, F.evrWinStat_filling, F.evrWinStat_empty]
theorem keep_cursorFill {ft : Nat} (hft : inFoot cursorFillFoot ft = true) (pr area index offset : Nat) (auto : Bool) (d : Dev)
    : keep ft (cursorFill pr area index offset auto d) = keep ft d :=
  keep_mono hft (by simp +decide only [cursorFill, ↓keep_wr, ↓keep_setFlag, ↓keep_fillStart])

def fillDoneFoot : Nat := footOf [] [F.evrWinStat_ready, F.evrWinStat_filling, F.evrWinStat_empty, F.evrWindow_data]
theorem keep_fillDone {ft : Nat} (hft : inFoot fillDoneFoot ft = true) (pr : Nat) (d : Dev) : keep ft (fillDone pr d) = keep ft
    d :=
  keep_mono hft (by simp +decide only [fillDone, ↓keep_wr, ↓keep_setFlag, ↓keep_forEach, ↓keep_ite, ite_self, implies_true])

def windowAdvanceFoot : Nat := footOf [] [F.evrCursor_index, F.evrCursor_offset, F.evrWinStat_ready, F.evrWinStat_filling,
  F.evrWinStat_empty]
theorem keep_windowAdvance {ft : Nat} (hft : inFoot windowAdvanceFoot ft = true) (d : Dev) (pr : Nat) : keep ft (windowAdvance d
    pr) = keep ft d :=
  keep_mono hft (by simp +decide only [windowAdvance, ↓keep_wr, ↓keep_addWrap, ↓keep_fillStart, ↓keep_ite, ite_self])

def postMortemFoot : Nat := footOf [] [F.evrPmStat_resets] ||| beginStopFoot
theorem keep_postMortem {ft : Nat} (hft : inFoot postMortemFoot ft = true) (origin : Nat) (d : Dev) : keep ft (postMortem origin
    d) = keep ft d :=
  keep_mono hft (by simp +decide only [postMortem, ↓keep_addSat, ↓keep_draw, ↓keep_updCard, ↓keep_beginStop, ↓keep_ite, ite_self])

def updTxFoot : Nat := footOf [.chain] []
theorem keep_updTx {ft : Nat} (hft : inFoot updTxFoot ft = true) (d : Dev) (tag : Nat) (g : RootTx → RootTx) : keep ft (d.updTx
    tag g) = keep ft d :=
  keep_mono hft (by simp +decide only [Dev.updTx, ↓keep_updChain])

def dedupeEntryFoot : Nat := footOf [.chain] []
theorem keep_dedupeEntry {ft : Nat} (hft : inFoot dedupeEntryFoot ft = true) (d : Dev) (src tag : Nat) (g : Dedupe → Dedupe) :
    keep ft (d.updEntry src tag g) = keep ft d := by
  refine keep_mono hft ?_
  unfold Dev.updEntry
  simp +decide only [↓keep_updChain]

def syncDedupFoot : Nat := footOf [] [F.lmlDedup_in_use]
theorem keep_syncDedup {ft : Nat} (hft : inFoot syncDedupFoot ft = true) (d : Dev) : keep ft (syncDedup d) = keep ft d :=
  keep_mono hft (by simp +decide only [syncDedup, ↓keep_wr])

def settleChainFoot : Nat := footOf [] [F.lmlDedup_in_use] ||| nakArrivedFoot
theorem keep_settleChain {ft : Nat} (hft : inFoot settleChainFoot ft = true) (d : Dev) : keep ft (settleChain d) = keep ft d :=
  keep_mono hft (by simp +decide only [settleChain, ↓keep_syncHost, ↓keep_takeNaks, ↓keep_syncDedup])

theorem keep_answer {ft : Nat} (hft : inFoot originateFoot ft = true) (d : Dev) (e : Dedupe) (ty : Nat) (spec : List Nat) : keep
    ft (answer d e ty spec) = keep ft d :=
  keep_mono hft (by simp +decide only [answer, ↓keep_originate])

theorem keep_acceptCmd {ft : Nat} (hft : inFoot enterCmdFoot ft = true) (d : Dev) (p : Nat) (f : Frame) (c : IoCmd) : keep ft
    (acceptCmd d p f c) = keep ft d :=
  keep_mono hft (by simp +decide only [acceptCmd, ↓keep_enterCmd, ↓keep_updChain, ↓keep_answer])

theorem keep_askMissing {ft : Nat} (hft : inFoot originateFoot ft = true) (d : Dev) (e : Dedupe) : keep ft (askMissing d e) =
    keep ft d :=
  keep_mono hft (by simp +decide only [askMissing]; split <;> simp +decide only [↓keep_answer,
    ↓keep_ite, ite_self])

def cmdArrivedFoot : Nat := footOf [] [F.lmlEvt_busy_nak, F.lmlCnt_count, F.lmlDedup_full_naks] ||| enterCmdFoot
theorem keep_cmdArrived {ft : Nat} (hft : inFoot cmdArrivedFoot ft = true) (p : Nat) (f : Frame) (d : Dev) : keep ft (cmdArrived
    p f d) = keep ft d := by
  refine keep_mono hft ?_
  unfold cmdArrived
  split
  · simp +decide only [↓keep_addWrap]
  · extract_lets busy noRoom e1
    have hbusy (e : Dev) : keep cmdArrivedFoot (busy e) = keep cmdArrivedFoot e := by simp only [busy]; simp +decide only
        [↓keep_setFlag, ↓keep_originate]
    have he1 : keep cmdArrivedFoot e1 = keep cmdArrivedFoot d := by simp only [e1]; simp +decide only [↓keep_dedupeEntry]
    split
    · extract_lets e2 e3
      have he3 : keep cmdArrivedFoot e3 = keep cmdArrivedFoot d := by simp only [e3]; simp +decide only [he1, ↓keep_answer]
      split
      · simp +decide only [he3, ↓keep_askMissing, ↓keep_ite, ite_self]
      · split
        · split
          · simp +decide only [he1, ↓keep_originate]
          · exact he1
        · simp +decide only [he1, hbusy, ↓keep_acceptCmd, ↓keep_ite, ite_self]
    · simp +decide only [hbusy, ↓keep_addSat, ↓keep_acceptCmd, ↓keep_ite, ite_self]

theorem keep_dataWhole {ft : Nat} (hft : inFoot frameReadFoot ft = true) (d : Dev) (e : Dedupe) : keep ft (dataWhole d e) = keep
    ft d :=
  keep_mono hft (by simp +decide only [dataWhole]; split <;> simp +decide only
    [↓keep_updCtx, ↓keep_startRead, ↓keep_ite, ite_self])

def wdataArrivedFoot : Nat := footOf [] [F.lmlEvt_stale, F.lmlCnt_count] ||| frameReadFoot
theorem keep_wdataArrived {ft : Nat} (hft : inFoot wdataArrivedFoot ft = true) (f : Frame) (d : Dev) : keep ft (wdataArrived f
    d) = keep ft d := by
  refine keep_mono hft ?_
  unfold wdataArrived
  split
  · simp +decide only [↓keep_staleFrame]
  · split
    · simp +decide only [↓keep_staleFrame]
    · split
      · simp +decide only [↓keep_targetEnd, ↓keep_dedupeEntry]
      · extract_lets off e1
        have he1 : keep wdataArrivedFoot e1 = keep wdataArrivedFoot d := by simp only [e1]; simp +decide only [↓keep_dedupeEntry]
        split
        · simp +decide only [he1, ↓keep_dataWhole, ↓keep_ite, ite_self]
        · exact he1

def cancelArrivedFoot : Nat := footOf [] [F.lmlEvt_stale, F.lmlCnt_count] ||| finishFoot
theorem keep_cancelArrived {ft : Nat} (hft : inFoot cancelArrivedFoot ft = true) (f : Frame) (d : Dev) : keep ft (cancelArrived
    f d) = keep ft d := by
  refine keep_mono hft ?_
  unfold cancelArrived
  split
  · simp +decide only [↓keep_staleFrame]
  · extract_lets e1
    have he1 : keep cancelArrivedFoot e1 = keep cancelArrivedFoot d := by
      simp only [e1]
      split
      · simp +decide only [↓keep_discardCtx, ↓keep_discardData, ↓keep_restorePtr, ↓keep_undoContext, ↓keep_ite, ite_self]
      · rfl
    split
    · simp +decide only [↓keep_staleFrame]
    · simp +decide only [he1, ↓keep_dedupeEntry]

theorem keep_xrdyRetry {ft : Nat} (hft : inFoot finishFoot ft = true) (src tag : Nat) (d : Dev) : keep ft (xrdyRetry src tag d)
    = keep ft d := by
  refine keep_mono hft ?_
  unfold xrdyRetry
  split
  · rfl
  · split
    · rfl
    · split
      · simp +decide only [↓keep_targetEnd]
      · simp +decide only [↓keep_dedupeEntry, ↓keep_askMissing]

def ackArrivedFoot : Nat := footOf [.chain] [F.lmlEvt_stale, F.lmlCnt_count]
theorem keep_ackArrived {ft : Nat} (hft : inFoot ackArrivedFoot ft = true) (f : Frame) (d : Dev) : keep ft (ackArrived f d) =
    keep ft d :=
  keep_mono hft (by simp +decide only [ackArrived]; split <;> simp +decide only [↓keep_staleFrame,
    ↓keep_updTx])

def xrdyArrivedFoot : Nat := footOf [] [F.lmlEvt_stale, F.lmlCnt_count] ||| originateFoot
theorem keep_xrdyArrived {ft : Nat} (hft : inFoot xrdyArrivedFoot ft = true) (f : Frame) (d : Dev) : keep ft (xrdyArrived f d) =
    keep ft d := by
  refine keep_mono hft ?_
  unfold xrdyArrived
  split
  · simp +decide only [↓keep_staleFrame]
  · extract_lets e1
    have he1 : keep xrdyArrivedFoot e1 = keep xrdyArrivedFoot d := by simp only [e1]; simp +decide only [↓keep_updTx]
    split
    · exact he1
    · simp +decide only [he1, ↓keep_originate, ↓keep_forEach, implies_true]

theorem keep_tryCpl {ft : Nat} (hft : inFoot finishFoot ft = true) (d : Dev) (tag : Nat) : keep ft (tryCpl d tag) = keep ft d :=
    by
  refine keep_mono hft ?_
  unfold tryCpl
  split
  · rfl
  · split
    · rfl
    · extract_lets status e1
      have he1 : keep finishFoot e1 = keep finishFoot d := by
        simp only [e1]
        split
        · split
          · simp +decide only [↓keep_emit, ↓keep_ite, ite_self]
          · rfl
        · rfl
      split
      · rfl
      · simp +decide only [he1, ↓keep_rootFinish]

def rdataArrivedFoot : Nat := footOf [] [F.lmlEvt_stale, F.lmlCnt_count] ||| finishFoot
theorem keep_rdataArrived {ft : Nat} (hft : inFoot rdataArrivedFoot ft = true) (f : Frame) (d : Dev) : keep ft (rdataArrived f
    d) = keep ft d :=
  keep_mono hft (by unfold rdataArrived; split <;> simp +decide only [↓keep_rootEnd, ↓keep_staleFrame, ↓keep_updTx, ↓keep_tryCpl,
    ↓keep_ite, ite_self])

def cplArrivedFoot : Nat := footOf [] [F.lmlEvt_stale, F.lmlCnt_count] ||| finishFoot
theorem keep_cplArrived {ft : Nat} (hft : inFoot cplArrivedFoot ft = true) (f : Frame) (d : Dev) : keep ft (cplArrived f d) =
    keep ft d :=
  keep_mono hft (by simp +decide only [cplArrived]; split <;> simp +decide only
    [↓keep_staleFrame, ↓keep_updTx, ↓keep_tryCpl])

theorem keep_cmdRetry {ft : Nat} (hft : inFoot finishFoot ft = true) (d : Dev) (t : RootTx) : keep ft (cmdRetry d t) = keep ft d
    :=
  keep_mono hft (by simp +decide only [cmdRetry, ↓keep_originate, ↓keep_rootEnd, ↓keep_updTx, ↓keep_ite, ite_self])

theorem keep_rcLocal {ft : Nat} (hft : inFoot putOnFoot ft = true) (d : Dev) (p sub : Nat) (fields : List Nat) : keep ft
    (rcLocal d p sub fields) = keep ft d :=
  keep_mono hft (by simp +decide only [rcLocal, ↓keep_sendLocal])

theorem keep_rcTo {ft : Nat} (hft : inFoot originateFoot ft = true) (d : Dev) (dest sub : Nat) (fields : List Nat) : keep ft
    (rcTo d dest sub fields) = keep ft d :=
  keep_mono hft (by simp +decide only [rcTo, ↓keep_originate])

theorem keep_flood {ft : Nat} (hft : inFoot putOnFoot ft = true) (d : Dev) (except : Option Nat) (sub : Nat) (fields : List Nat)
    : keep ft (flood d except sub fields) = keep ft d :=
  keep_mono hft (by simp +decide only [flood, ↓keep_rcLocal, ↓keep_forEach, implies_true])

def announceSelfFoot : Nat := footOf [] [F.lmlRc_phase] ||| putOnFoot
theorem keep_announceSelf {ft : Nat} (hft : inFoot announceSelfFoot ft = true) (d : Dev) : keep ft (announceSelf d) = keep ft d
    :=
  keep_mono hft (by simp +decide only [announceSelf, ↓keep_wr, ↓keep_updChain, ↓keep_flood])

theorem keep_rollStart {ft : Nat} (hft : inFoot announceSelfFoot ft = true) (d : Dev) : keep ft (rollStart d) = keep ft d :=
  keep_mono hft (by simp +decide only [rollStart, ↓keep_announceSelf, ↓keep_ite, ite_self])

theorem keep_announceHeard {ft : Nat} (hft : inFoot announceSelfFoot ft = true) (p devId gen : Nat) (d : Dev) : keep ft
    (announceHeard p devId gen d) = keep ft d :=
  keep_mono hft (by simp +decide only [announceHeard, ↓keep_updChain, ↓keep_flood, ↓keep_rollStart, ↓keep_ite, ite_self])

theorem keep_probeNext {ft : Nat} (hft : inFoot originateFoot ft = true) (d : Dev) : keep ft (probeNext d) = keep ft d :=
  keep_mono hft (by simp +decide only [probeNext]; split <;> simp +decide only
    [↓keep_rcLocal, ↓keep_rcTo, ↓keep_ite, ite_self])

theorem keep_surveyStart {ft : Nat} (hft : inFoot originateFoot ft = true) (d : Dev) : keep ft (surveyStart d) = keep ft d :=
  keep_mono hft (by simp +decide only [surveyStart, ↓keep_updChain, ↓keep_probeNext])

def announceEndFoot : Nat := footOf [] [F.lmlNode_addr, F.lmlNode_lead, F.lmlRc_phase] ||| originateFoot
theorem keep_announceEnd {ft : Nat} (hft : inFoot announceEndFoot ft = true) (d : Dev) : keep ft (announceEnd d) = keep ft d :=
  keep_mono hft (by simp +decide only [announceEnd, ↓keep_setFlag, ↓keep_wr, ↓keep_updChain, ↓keep_surveyStart, ↓keep_ite,
    ite_self])

def writeRouteFoot : Nat := footOf [] [F.lmlRt_pfx, F.lmlRt_len, F.lmlRt_valid, F.lmlRt_primary, F.lmlRt_alternate,
  F.lmlRt_alt_valid]
theorem keep_writeRoute {ft : Nat} (hft : inFoot writeRouteFoot ft = true) (d : Dev) (i w : Nat) : keep ft (writeRoute d i w) =
    keep ft d :=
  keep_mono hft (by simp +decide only [writeRoute, ↓keep_wr])

def writeTableFoot : Nat := originateFoot ||| writeRouteFoot
theorem keep_writeTable {ft : Nat} (hft : inFoot writeTableFoot ft = true) (d : Dev) (a : Nat) : keep ft (writeTable d a) = keep
    ft d :=
  keep_mono hft (by simp +decide only [writeTable, ↓keep_originate, ↓keep_writeRoute, ↓keep_forEach, ↓keep_ite, ite_self,
    implies_true])

def refreshNodesFoot : Nat := footOf [.draws, .chain] []
theorem keep_refreshNodes {ft : Nat} (hft : inFoot refreshNodesFoot ft = true) (d : Dev) : keep ft (refreshNodes d) = keep ft d
    :=
  keep_mono hft (by simp +decide only [refreshNodes, ↓keep_draw, ↓keep_updChain])

def fitTablesFoot : Nat := footOf [.draws, .chain] [F.lmlRc_fail]
theorem keep_fitTables {ft : Nat} (hft : inFoot fitTablesFoot ft = true) (d : Dev) : keep ft (fitTables d) = keep ft d :=
  keep_mono hft (by simp +decide only [fitTables, ↓keep_setFlag, ↓keep_updChain, ↓keep_refreshNodes, ↓keep_ite, ite_self])

def surveyEndFoot : Nat := footOf [.draws] [F.lmlRc_phase, F.lmlRc_fail, F.lmlRc_generation] ||| writeTableFoot
theorem keep_surveyEnd {ft : Nat} (hft : inFoot surveyEndFoot ft = true) (d : Dev) : keep ft (surveyEnd d) = keep ft d :=
  keep_mono hft (by simp +decide only [surveyEnd, ↓keep_wr, ↓keep_flood, ↓keep_writeTable, ↓keep_refreshNodes, ↓keep_fitTables,
    ↓keep_forEach, ↓keep_ite, ite_self, implies_true])

theorem keep_probeHeard {ft : Nat} (hft : inFoot putOnFoot ft = true) (p src exit gen : Nat) (d : Dev) : keep ft (probeHeard p
    src exit gen d) = keep ft d :=
  keep_mono hft (by simp +decide only [probeHeard, ↓keep_updChain, ↓keep_rcLocal, ↓keep_ite, ite_self])

theorem keep_takeReport {ft : Nat} (hft : inFoot surveyEndFoot ft = true) (d : Dev) (r : NodeReport) : keep ft (takeReport d r)
    = keep ft d :=
  keep_mono hft (by simp +decide only [takeReport]; split <;> simp +decide only [↓keep_setFlag, ↓keep_updChain, ↓keep_rcLocal,
    ↓keep_rcTo, ↓keep_probeNext, ↓keep_surveyEnd, ↓keep_ite, ite_self])

theorem keep_reportHeard {ft : Nat} (hft : inFoot surveyEndFoot ft = true) (p dest : Nat) (r : NodeReport) (d : Dev) : keep ft
    (reportHeard p dest r d) = keep ft d :=
  keep_mono hft (by simp +decide only [reportHeard, ↓keep_updChain, ↓keep_rcTo, ↓keep_takeReport, ↓keep_ite, ite_self])

def assignHeardFoot : Nat := footOf [] [F.lmlNode_addr] ||| putOnFoot
theorem keep_assignHeard {ft : Nat} (hft : inFoot assignHeardFoot ft = true) (addr gen : Nat) (d : Dev) : keep ft (assignHeard
    addr gen d) = keep ft d := by
  refine keep_mono hft ?_
  unfold assignHeard
  split
  · split
    · simp +decide only [↓keep_updChain, ↓keep_rcLocal]
    · rfl
  · simp +decide only [↓keep_wr, ↓keep_updChain]

theorem keep_doneHeard {ft : Nat} (hft : inFoot surveyEndFoot ft = true) (p gen : Nat) (d : Dev) : keep ft (doneHeard p gen d) =
    keep ft d :=
  keep_mono hft (by simp +decide only [doneHeard, ↓keep_wr, ↓keep_flood, ↓keep_surveyStart, ↓keep_surveyEnd, ↓keep_ite, ite_self])

def linkChangedFoot : Nat := footOf [.draws] [] ||| writeTableFoot
theorem keep_linkChanged {ft : Nat} (hft : inFoot linkChangedFoot ft = true) (d : Dev) (addr port : Nat) (up : Bool) : keep ft
    (linkChanged d addr port up) = keep ft d :=
  keep_mono hft (by simp +decide only [linkChanged, ↓keep_updChain, ↓keep_writeTable, ↓keep_refreshNodes, ↓keep_forEach,
    ↓keep_ite, ite_self, implies_true])

def sendNoticeFoot : Nat := linkChangedFoot ||| announceSelfFoot
theorem keep_sendNotice {ft : Nat} (hft : inFoot sendNoticeFoot ft = true) (d : Dev) (port : Nat) (up : Bool) : keep ft
    (sendNotice d port up) = keep ft d :=
  keep_mono hft (by simp +decide only [sendNotice, ↓keep_updChain, ↓keep_flood, ↓keep_rollStart, ↓keep_linkChanged, ↓keep_ite,
    ite_self])

def noticeHeardFoot : Nat := linkChangedFoot ||| announceSelfFoot
theorem keep_noticeHeard {ft : Nat} (hft : inFoot noticeHeardFoot ft = true) (p addr port : Nat) (up : Bool) (d : Dev) : keep ft
    (noticeHeard p addr port up d) = keep ft d :=
  keep_mono hft (by simp +decide only [noticeHeard, ↓keep_updChain, ↓keep_flood, ↓keep_rollStart, ↓keep_linkChanged, ↓keep_ite,
    ite_self])

theorem keep_routeHeard {ft : Nat} (hft : inFoot writeRouteFoot ft = true) (first : Nat) (ws : List Nat) (d : Dev) : keep ft
    (routeHeard first ws d) = keep ft d :=
  keep_mono hft (by simp +decide only [routeHeard, ↓keep_writeRoute, ↓keep_forEach, ↓keep_ite, ite_self, implies_true])

theorem keep_discardDirty {ft : Nat} (hft : inFoot finishFoot ft = true) (d : Dev) : keep ft (discardDirty d) = keep ft d := by
  refine keep_mono hft ?_
  unfold discardDirty
  extract_lets ids e1 e2
  have he1 : keep finishFoot e1 = keep finishFoot d := by simp only [e1]; simp +decide only [↓keep_finish, ↓keep_forEach, implies_true]
  have he2 : keep finishFoot e2 = keep finishFoot d := by simp only [e2, discardDirty.dropInternal]; simp +decide only [he1,
      ↓keep_discardCtx, ↓keep_forEach, implies_true]
  simp +decide only [he2, ↓keep_updHost, ↓keep_syncHost]

def zeroForKeysFoot : Nat := footOf [.comp] [] ||| zeroPlainFoot
theorem keep_zeroForKeys {ft : Nat} (hft : inFoot zeroForKeysFoot ft = true) (d : Dev) (all : Bool) : keep ft (zeroForKeys d
    all) = keep ft d :=
  keep_mono hft (by simp +decide only [zeroForKeys, ↓keep_updCipher, ↓keep_zeroPlain, ↓keep_zeroKeys, ↓keep_updComp])

def emptyMediaFoot : Nat := footOf [.out, .host] [F.pwrHvote_hda]
theorem keep_emptyMedia {ft : Nat} (hft : inFoot emptyMediaFoot ft = true) (d : Dev) : keep ft (emptyMedia d) = keep ft d :=
  keep_mono hft (by simp +decide only [emptyMedia, ↓keep_writeAnchor, ↓keep_setHvote, ↓keep_emptyState, ↓keep_forEach,
    implies_true])

theorem keep_regenerate {ft : Nat} (hft : inFoot replacePairFoot ft = true) (d : Dev) : keep ft (regenerate d) = keep ft d :=
  keep_mono hft (by simp +decide only [regenerate, ↓keep_nsKeys, ↓keep_replacePair, ↓keep_forEach, implies_true])

def setSanFoot : Nat := footOf [.cipher] []
theorem keep_setSan {ft : Nat} (hft : inFoot setSanFoot ft = true) (d : Dev) (g : SanState → SanState) : keep ft (setSan d g) =
    keep ft d :=
  keep_mono hft (by simp +decide only [setSan, ↓keep_updCipher])

theorem keep_sanitize {ft : Nat} (hft : inFoot finishFoot ft = true) (h cid action owpass : Nat) (oipbp : Bool) (pattern : Nat)
    (d : Dev) : keep ft (sanitize h cid action owpass oipbp pattern d) = keep ft d :=
  keep_mono hft (by simp +decide only [sanitize, ↓keep_adminEnd, ↓keep_discardDirty, ↓keep_setSan, ↓keep_ite, ite_self])

def overwritePassFoot : Nat := footOf [.host, .cipher] []
theorem keep_overwritePass {ft : Nat} (hft : inFoot overwritePassFoot ft = true) (d : Dev) : keep ft (overwritePass d) = keep ft
    d :=
  keep_mono hft (by simp +decide only [overwritePass, ↓keep_updHost, ↓keep_setSan])

def sanitizeStepFoot : Nat := footOf [.out, .sec] [F.pwrHvote_hda] ||| zeroForKeysFoot ||| replacePairFoot
theorem keep_sanitizeStep {ft : Nat} (hft : inFoot sanitizeStepFoot ft = true) (d : Dev) : keep ft (sanitizeStep d) = keep ft d
    := by
  refine keep_mono hft ?_
  unfold sanitizeStep
  extract_lets fail
  split
  · simp +decide only [↓keep_overwritePass]
  · simp +decide +zetaDelta only [↓keep_newKeks, ↓keep_zeroForKeys, ↓keep_setSan, ↓keep_ite, ite_self]
  · split
    · simp +decide only [↓keep_updSec, ↓keep_emptyMedia, ↓keep_setSan]
    · simp +decide only [↓keep_emptyMedia, ↓keep_setSan]
  · simp +decide +zetaDelta only [↓keep_regenerate,
      ↓keep_setSan, ↓keep_ite, ite_self]
  · rfl

def setTcgFoot : Nat := footOf [.sec] []
theorem keep_setTcg {ft : Nat} (hft : inFoot setTcgFoot ft = true) (d : Dev) (h : Nat) (t : TcgSess) : keep ft (d.setTcg h t) =
    keep ft d :=
  keep_mono hft (by simp +decide only [Dev.setTcg, ↓keep_updSec])

def tcgAnswerFoot : Nat := footOf [.out] []
theorem keep_tcgAnswer {ft : Nat} (hft : inFoot tcgAnswerFoot ft = true) (d : Dev) (h cid status : Nat) (data : List Nat) : keep
    ft (tcgAnswer d h cid status data) = keep ft d :=
  keep_mono hft (by simp +decide only [tcgAnswer, ↓keep_adminPage])

def inSessionFoot : Nat := footOf [.out] []
theorem keep_inSession {ft : Nat} (hft : inFoot inSessionFoot ft = true) (h cid : Nat) (g : Dev → Dev) (d : Dev) (hg : ∀ e, keep
    ft (g e) = keep ft e) : keep ft (inSession h cid g d) = keep ft d := by
  unfold inSession
  split
  · exact keep_adminEnd (inFoot_trans (by decide) hft) ..
  · split
    · exact keep_tcgAnswer (inFoot_trans (by decide) hft) ..
    · exact hg d

def tcgRowFoot : Nat := footOf [.out] [F.hstCtxStat_fetch_stalled, F.hstCtxStat_stall_seen, F.pwrCs_state, F.pwrCs_target,
  F.pwrDom_dom]
theorem keep_tcgRow {ft : Nat} (hft : inFoot tcgRowFoot ft = true) (h cid : Nat) (g : Dev → Dev) (d : Dev) (hg : ∀ e, keep ft (g
    e) = keep ft e) : keep ft (tcgRow h cid g d) = keep ft d := by
  unfold tcgRow
  exact keep_adminDo hft h cid false false g d hg

def authenticateFoot : Nat := footOf [.cipher, .sec] []
theorem keep_authenticate {ft : Nat} (hft : inFoot authenticateFoot ft = true) (d : Dev) (h : Nat) (a : TcgArg) : keep ft
    (authenticate d h a) = keep ft d :=
  keep_mono hft (by simp +decide only [authenticate, ↓keep_loadRangeKek, ↓keep_setTcg, ↓keep_ite, ite_self])

theorem keep_defineRange {ft : Nat} (hft : inFoot replacePairFoot ft = true) (d : Dev) (r : Nat) (b : LbaRange) : keep ft
    (defineRange d r b) = keep ft d :=
  keep_mono hft (by simp +decide only [defineRange, ↓keep_updCipher, ↓keep_replacePair, ↓keep_loadRangeKek, ↓keep_ite, ite_self])

def setLocksFoot : Nat := footOf [.host, .cipher] []
theorem keep_setLocks {ft : Nat} (hft : inFoot setLocksFoot ft = true) (d : Dev) (r : Nat) (rd wr : Bool) : keep ft (setLocks d
    r rd wr) = keep ft d :=
  keep_mono hft (by simp +decide only [setLocks, ↓keep_updRange, ↓keep_loadRangeKek, ↓keep_rangeLock, ↓keep_ite, ite_self])

def replaceRangeFoot : Nat := footOf [.out] [] ||| replacePairFoot ||| holdAdminFoot
theorem keep_replaceRange {ft : Nat} (hft : inFoot replaceRangeFoot ft = true) (d : Dev) (h cid r : Nat) (unlock : Bool) : keep
    ft (replaceRange d h cid r unlock) = keep ft d :=
  keep_mono hft (by simp +decide only [replaceRange, ↓keep_holdAdmin, ↓keep_replacePair, ↓keep_tcgAnswer, ↓keep_setLocks,
    ↓keep_forEach, ↓keep_ite, ite_self, implies_true])

def slipAnswerFoot : Nat := footOf [.out] []
theorem keep_slipAnswer {ft : Nat} (hft : inFoot slipAnswerFoot ft = true) (d : Dev) (w : Option (Nat × Nat)) (status : Nat) :
    keep ft (slipAnswer d w status) = keep ft d :=
  keep_mono hft (by simp +decide only [slipAnswer]; split <;> simp +decide only [↓keep_adminEnd])

def endD2WorkFoot : Nat := footOf [.sec] [] ||| endAdminFoot
theorem keep_endD2Work {ft : Nat} (hft : inFoot endD2WorkFoot ft = true) (d : Dev) : keep ft (endD2Work d) = keep ft d :=
  keep_mono hft (by simp +decide only [endD2Work]; split <;> simp +decide only
    [↓keep_resumeFetch, ↓keep_endAdmin, ↓keep_updSec])

def acceptGrantFoot : Nat := syncLevelFoot ||| endD2WorkFoot
theorem keep_acceptGrant {ft : Nat} (hft : inFoot acceptGrantFoot ft = true) (d : Dev) (w : Option (Nat × Nat)) (b : List Byte)
    : keep ft (acceptGrant d w b) = keep ft d :=
  keep_mono hft (by unfold acceptGrant; split <;> simp +decide only [↓keep_stopFetch, ↓keep_holdAdmin, ↓keep_destageAll,
    ↓keep_updSec, ↓keep_syncLevel, ↓keep_slipAnswer, ↓keep_endD2Work, ↓keep_ite, ite_self])

def acceptTransitionFoot : Nat := finishFoot ||| syncLevelFoot ||| endD2WorkFoot
theorem keep_acceptTransition {ft : Nat} (hft : inFoot acceptTransitionFoot ft = true) (d : Dev) (w : Option (Nat × Nat)) (b :
    List Byte) : keep ft (acceptTransition d w b) = keep ft d :=
  keep_mono hft (by simp +decide only [acceptTransition, ↓keep_updSec, ↓keep_syncLevel, ↓keep_discardDirty, ↓keep_setSan,
    ↓keep_slipAnswer, ↓keep_endD2Work])

def slipSubmitFoot : Nat := footOf [] [F.secSerial_serial, F.secSlipStat_status, F.secSlipStat_kind, F.secSlipStat_check,
  F.secSlipStat_valid] ||| acceptTransitionFoot
theorem keep_slipSubmit {ft : Nat} (hft : inFoot slipSubmitFoot ft = true) (w : Option (Nat × Nat)) (b : List Byte) (d : Dev) :
    keep ft (slipSubmit w b d) = keep ft d :=
  keep_mono hft (by simp +decide only [slipSubmit, ↓keep_wr, ↓keep_setFlag, ↓keep_slipAnswer, ↓keep_acceptGrant,
    ↓keep_acceptTransition, ↓keep_ite, ite_self])

def d2DoneFoot : Nat := footOf [.sec] [F.cphStat_kek_loaded] ||| syncLevelFoot ||| zeroForKeysFoot ||| endAdminFoot
theorem keep_d2Done {ft : Nat} (hft : inFoot d2DoneFoot ft = true) (d : Dev) : keep ft (d2Done d) = keep ft d :=
  keep_mono hft (by unfold d2Done; split <;> simp +decide only [↓keep_setFlag, ↓keep_destageExtent, ↓keep_resumeFetch,
    ↓keep_updCipher, ↓keep_checkpointAll, ↓keep_endAdmin, ↓keep_updSec, ↓keep_syncLevel, ↓keep_zeroForKeys, ↓keep_forEach,
    ↓keep_ite, ite_self, implies_true])

def closeSessionFoot : Nat := syncLevelFoot ||| endD2WorkFoot
theorem keep_closeSession {ft : Nat} (hft : inFoot closeSessionFoot ft = true) (d : Dev) : keep ft (closeSession d) = keep ft d
    :=
  keep_mono hft (by simp +decide only [closeSession, ↓keep_updSec, ↓keep_syncLevel, ↓keep_endD2Work])

def burnAndResetFoot : Nat := footOf [] [F.evrPmStat_dump_seq, F.evrPmStat_resets] ||| beginStopFoot ||| syncLevelFoot |||
  eraseNorFoot
theorem keep_burnAndReset {ft : Nat} (hft : inFoot burnAndResetFoot ft = true) (w : LcWork) (d : Dev) : keep ft (burnAndReset w
    d) = keep ft d :=
  keep_mono hft (by simp +decide only [burnAndReset, ↓keep_wr, ↓keep_updCard, ↓keep_cardCount, ↓keep_beginStop, ↓keep_updSec,
    ↓keep_syncLevel, ↓keep_eraseNor, ↓keep_burnTransition])

end Sys2Proof.Machine
end

section
/-! PROOF. Footprints (9 of 10): rows of the crossbar, clocks, links, Homework and the ladder. An operation's footprint joins what it writes itself with the
footprints of the operations it calls, and its lemma says that it keeps everything else. -/
namespace Sys2Proof.Machine

theorem keep_productionProgram {ft : Nat} (hft : inFoot burnAndResetFoot ft = true) (fields : Option ProdFields) (d : Dev) :
    keep ft (productionProgram fields d) = keep ft d :=
  keep_mono hft (by unfold productionProgram; split <;> simp +decide only [↓keep_updOtp, ↓keep_burnAndReset, ↓keep_ite, ite_self])

def dumpKeySendFoot : Nat := footOf [.out, .card] []
theorem keep_dumpKeySend {ft : Nat} (hft : inFoot dumpKeySendFoot ft = true) (h cid : Nat) (key : List Byte) (d : Dev) : keep ft
    (dumpKeySend h cid key d) = keep ft d :=
  keep_mono hft (by simp +decide only [dumpKeySend, ↓keep_updCard, ↓keep_adminEnd, ↓keep_ite, ite_self])

def countSampleFoot : Nat := footOf [.servos] [F.sscMa_missing] ||| detainHeadFoot
theorem keep_countSample {ft : Nat} (hft : inFoot countSampleFoot ft = true) (d : Dev) (n l slot : Nat) (missing : Bool) : keep
    ft (countSample d n l slot missing) = keep ft d :=
  keep_mono hft (by simp +decide only [countSample, ↓keep_addSat, ↓keep_wr, ↓keep_detainHead, ↓keep_updLane, ↓keep_ite, ite_self])

def headSampleFoot : Nat := footOf [] [F.sscSat_sat] ||| countSampleFoot ||| setCauseFoot
theorem keep_headSample {ft : Nat} (hft : inFoot headSampleFoot ft = true) (d : Dev) (n l slot : Nat) (x : ServoSample) : keep
    ft (headSample d n l slot x) = keep ft d :=
  keep_mono hft (by simp +decide only [headSample, ↓keep_updChn, ↓keep_closePermit, ↓keep_updLane, ↓keep_setNode, ↓keep_putNode,
    ↓keep_setServoOk, ↓keep_countSample, ↓keep_ite, ite_self])

def dueHomeworkFoot : Nat := footOf [.host] []
theorem keep_dueHomework {ft : Nat} (hft : inFoot dueHomeworkFoot ft = true) (d : Dev) (c : Nat) : keep ft (dueHomework d c) =
    keep ft d :=
  keep_mono hft (by simp +decide only [dueHomework, ↓keep_part_host])

def positionCausesFoot : Nat := footOf [.host, .servos] [] ||| setCauseFoot
theorem keep_positionCauses {ft : Nat} (hft : inFoot positionCausesFoot ft = true) (d : Dev) (n l slot : Nat) (above valid :
    Bool) : keep ft (positionCauses d n l slot above valid) = keep ft d :=
  keep_mono hft (by simp +decide only [positionCauses, ↓keep_setCause, ↓keep_updLane, ↓keep_dueHomework, ↓keep_ite, ite_self])

def headTrackLawFoot : Nat := footOf [] [F.sscSat_sat, F.sscLaneStat_warn] ||| positionCausesFoot
theorem keep_headTrackLaw {ft : Nat} (hft : inFoot headTrackLawFoot ft = true) (d : Dev) (n l slot : Nat) (x : ServoSample)
    (isFollowed : Bool) : keep ft (headTrackLaw d n l slot x isFollowed) = keep ft d :=
  keep_mono hft (by simp +decide only [headTrackLaw, ↓keep_setFlag, ↓keep_updLane, ↓keep_setNode, ↓keep_putNode,
    ↓keep_positionCauses, ↓keep_ite, ite_self])

def pairCountFoot : Nat := footOf [.servos] [F.sscSwap_to_swap, F.sscCmpStat_resyncs]
theorem keep_pairCount {ft : Nat} (hft : inFoot pairCountFoot ft = true) (d : Dev) (n : Nat) : keep ft (pairCount d n) = keep ft
    d :=
  keep_mono hft (by simp +decide only [pairCount, ↓keep_wr, ↓keep_sub, ↓keep_updServo, ↓keep_ite, ite_self])

def replanFoot : Nat := footOf [.servos] []
theorem keep_replan {ft : Nat} (hft : inFoot replanFoot ft = true) (d : Dev) (n l : Nat) : keep ft (replan d n l) = keep ft d :=
  keep_mono hft (by simp +decide only [replan]; split <;> simp +decide only [↓keep_updLane])

def profileSampleFoot : Nat := footOf [.servos] [F.sscSat_sat]
theorem keep_profileSample {ft : Nat} (hft : inFoot profileSampleFoot ft = true) (d : Dev) (n l : Nat) : keep ft (profileSample
    d n l) = keep ft d :=
  keep_mono hft (by simp +decide only [profileSample, ↓keep_updLane, ↓keep_putNode, ↓keep_ite, ite_self])

def servoSampleFoot : Nat := footOf [] [F.sscSwap_to_swap, F.sscCmpStat_resyncs, F.sscLaneStat_state, F.sscLaneStat_on_track,
  F.sscLaneStat_band] ||| headSampleFoot ||| headTrackLawFoot
theorem keep_servoSample {ft : Nat} (hft : inFoot servoSampleFoot ft = true) (n l : Nat) (sa sb : ServoSample) (uVcm : Int) (d :
    Dev) : keep ft (servoSample n l sa sb uVcm d) = keep ft d :=
  keep_mono hft (by simp +decide only [servoSample, ↓keep_wr, ↓keep_setFlag, ↓keep_updLane, ↓keep_setLaneState, ↓keep_setNode,
    ↓keep_putNode, ↓keep_setServoOk, ↓keep_headSample, ↓keep_headTrackLaw, ↓keep_pairCount, ↓keep_replan, ↓keep_profileSample,
    ↓keep_forEach, ↓keep_ite, ite_self, implies_true])

def laneLostFoot : Nat := footOf [.servos] [F.sscLaneStat_state, F.sscLaneStat_on_track, F.sscLaneStat_losts] ||| seqStopFoot
  ||| setCauseFoot
theorem keep_laneLost {ft : Nat} (hft : inFoot laneLostFoot ft = true) (n l : Nat) (d : Dev) : keep ft (laneLost n l d) = keep
    ft d :=
  keep_mono hft (by simp +decide only [laneLost, ↓keep_addSat, ↓keep_setFlag, ↓keep_emit, ↓keep_updChn, ↓keep_seqStop,
    ↓keep_updLane, ↓keep_setLaneState, ↓keep_setServoOk, ↓keep_forEach, ↓keep_ite, ite_self, implies_true])

def laneReacquiredFoot : Nat := footOf [.servos] [F.sscLaneStat_state]
theorem keep_laneReacquired {ft : Nat} (hft : inFoot laneReacquiredFoot ft = true) (n l : Nat) (d : Dev) : keep ft
    (laneReacquired n l d) = keep ft d :=
  keep_mono hft (by simp +decide only [laneReacquired, ↓keep_updLane, ↓keep_setLaneState, ↓keep_ite, ite_self])

def compareStandbyFoot : Nat := footOf [.servos] [F.sscCmpStat_mismatches, F.sscCmpStat_first_node, F.sscCmpStat_seen,
  F.sscSat_sat]
theorem keep_compareStandby {ft : Nat} (hft : inFoot compareStandbyFoot ft = true) (d : Dev) (n l diffVcm diffMa : Nat) : keep
    ft (compareStandby d n l diffVcm diffMa) = keep ft d :=
  keep_mono hft (by simp +decide only [compareStandby, ↓keep_addSat, ↓keep_wr, ↓keep_setFlag, ↓keep_updServo, ↓keep_putNode,
    ↓keep_ite, ite_self])

theorem keep_overEffects {ft : Nat} (hft : inFoot enterRetractFoot ft = true) (d : Dev) (n : Nat) (overAct overStb : Bool) :
    keep ft (overEffects d n overAct overStb) = keep ft d :=
  keep_mono hft (by simp +decide only [overEffects, ↓keep_updServo, ↓keep_enterRetract, ↓keep_ite, ite_self])

def outputInstantFoot : Nat := enterRetractFoot ||| compareStandbyFoot ||| recordOvrFoot ||| captureUnitFoot
theorem keep_outputInstant {ft : Nat} (hft : inFoot outputInstantFoot ft = true) (n l : Nat) (doneA doneB : Bool) (diffVcm
    diffMa cycles : Nat) (d : Dev) (m : List Host.Cell) : keep ft (outputInstant n l doneA doneB diffVcm diffMa cycles d m).1 =
    keep ft d := by
  refine keep_mono hft ?_
  unfold outputInstant
  extract_lets e1 act doneAct doneStb e2 held e3 e4 e5 e6 differs r
  have he2 : keep outputInstantFoot e2 = keep outputInstantFoot d := by simp only [e2, e1]; simp +decide only [↓keep_putNode, ↓keep_recordOvr]
  have he4 : keep outputInstantFoot e4 = keep outputInstantFoot d := by simp only [e4, e3]; simp +decide only [he2,
      ↓keep_updServo, ↓keep_updLane, ↓keep_commandFrame, ↓keep_ite, ite_self]
  have he6 : keep outputInstantFoot e6 = keep outputInstantFoot d := by simp only [e6, e5]; simp +decide only [he4,
      ↓keep_compareStandby, ↓keep_overEffects, ↓keep_ite, ite_self]
  have hr : keep outputInstantFoot r.1 = keep outputInstantFoot d := by simp only [r]; simp +decide only [he6, ↓keep_captureUnit]
  split
  · simp +decide only [hr, ↓keep_captureUnit]
  · exact he6

def standbyResyncFoot : Nat := footOf [.servos, .card] [F.sscCmpStat_resyncs]
theorem keep_standbyResync {ft : Nat} (hft : inFoot standbyResyncFoot ft = true) (n : Nat) (d : Dev) : keep ft (standbyResync n
    d) = keep ft d :=
  keep_mono hft (by simp +decide only [standbyResync, ↓keep_addSat, ↓keep_cardEpoch, ↓keep_updServo, ↓keep_ite, ite_self])

theorem keep_overrunFault {ft : Nat} (hft : inFoot activeFailsFoot ft = true) (n : Nat) (d : Dev) : keep ft (overrunFault n d) =
    keep ft d :=
  keep_mono hft (by simp +decide only [overrunFault]; split <;> simp +decide only [↓keep_activeFails])

def pairSplitFoot : Nat := footOf [.out, .servos, .card] [F.sscLaneStat_split, F.sscLaneStat_splits]
theorem keep_pairSplit {ft : Nat} (hft : inFoot pairSplitFoot ft = true) (n l : Nat) (d : Dev) : keep ft (pairSplit n l d) =
    keep ft d :=
  keep_mono hft (by simp +decide only [pairSplit, ↓keep_setFlag, ↓keep_addSat, ↓keep_emit, ↓keep_cardCount, ↓keep_updLane,
    ↓keep_ite, ite_self])

def laneGoFoot : Nat := footOf [.servos, .card] [F.sscLaneStat_state, F.sscLaneStat_on_track, F.sscLaneStat_split]
theorem keep_laneGo {ft : Nat} (hft : inFoot laneGoFoot ft = true) (n l : Nat) (d : Dev) : keep ft (laneGo n l d) = keep ft d :=
  keep_mono hft (by simp +decide only [laneGo, ↓keep_setFlag, ↓keep_cardBin, ↓keep_updLane, ↓keep_setLaneState, ↓keep_ite, ite_self])

def onTrackFoot : Nat := footOf [.host, .servos] [F.sscLaneStat_on_track]
theorem keep_onTrack {ft : Nat} (hft : inFoot onTrackFoot ft = true) (n l : Nat) (d : Dev) : keep ft (onTrack n l d) = keep ft d
    :=
  keep_mono hft (by simp +decide only [onTrack, ↓keep_setFlag, ↓keep_beginTasks, ↓keep_updLane, ↓keep_ite, ite_self])

def retractRestartFoot : Nat := footOf [.servos] [F.sscRole_active, F.sscRole_state, F.sscRole_standby_fit, F.sscSwap_to_swap,
  F.sscLaneStat_state, F.sscLaneStat_split, F.pslStat_psl_fault, F.pwrHs_state, F.pwrHs_in_transition, F.pwrHs_step] |||
  recomputeBoundFoot
theorem keep_retractRestart {ft : Nat} (hft : inFoot retractRestartFoot ft = true) (n : Nat) (d : Dev) : keep ft (retractRestart
    n d) = keep ft d :=
  keep_mono hft (by simp +decide only [retractRestart, ↓keep_wr, ↓keep_setFlag, ↓keep_updServo, ↓keep_recomputeBound,
    ↓keep_setLaneState, ↓keep_ite, ite_self])

def retractReleaseFoot : Nat := footOf [.servos] [F.sscLaneStat_state]
theorem keep_retractRelease {ft : Nat} (hft : inFoot retractReleaseFoot ft = true) (n mask : Nat) (d : Dev) : keep ft
    (retractRelease n mask d) = keep ft d :=
  keep_mono hft (by simp +decide only [retractRelease, ↓keep_updServo, ↓keep_setLaneState, ↓keep_forEach, ↓keep_ite, ite_self,
    implies_true])

def slotStartFoot : Nat := closeWriteFoot ||| finishSlotFoot ||| syncChnFoot
theorem keep_slotStart {ft : Nat} (hft : inFoot slotStartFoot ft = true) (c sector : Nat) (d : Dev) : keep ft (slotStart c
    sector d) = keep ft d := by
  refine keep_mono hft ?_
  unfold slotStart
  split
  · extract_lets e1
    have he1 : keep slotStartFoot e1 = keep slotStartFoot d := by simp only [e1]; simp +decide only [↓keep_finishSlot]
    split
    · simp +decide only [he1, ↓keep_updChn]
    · split
      · simp +decide only [he1, ↓keep_writeResult, ↓keep_closeWrite]
      · simp +decide only [he1, ↓keep_emit, ↓keep_updChn, ↓keep_syncChn]
  · rfl

def countRefFoot : Nat := footOf [.seqs] []
theorem keep_countRef {ft : Nat} (hft : inFoot countRefFoot ft = true) (d : Dev) (c : Nat) : keep ft (countRef d c) = keep ft d
    :=
  keep_mono hft (by simp +decide only [countRef]; split <;> simp +decide only [↓keep_updSeq,
    ↓keep_ite, ite_self])

def servoSplitFoot : Nat := footOf [.out, .chns] [F.chnTloop_preset]
theorem keep_servoSplit {ft : Nat} (hft : inFoot servoSplitFoot ft = true) (d : Dev) (c wedge : Nat) : keep ft (servoSplit d c
    wedge) = keep ft d :=
  keep_mono hft (by simp +decide only [servoSplit, ↓keep_emit, ↓keep_updChn, ↓keep_presetLoop, ↓keep_ite, ite_self])

def timingReferenceFoot : Nat := footOf [.host] [F.chnTloop_preset] ||| loseLockFoot
theorem keep_timingReference {ft : Nat} (hft : inFoot timingReferenceFoot ft = true) (c wedge phase64 period : Nat) (d : Dev) :
    keep ft (timingReference c wedge phase64 period d) = keep ft d :=
  keep_mono hft (by simp +decide only [timingReference, ↓keep_setFlag, ↓keep_updChn, ↓keep_loseLock, ↓keep_beginTasks,
    ↓keep_countRef, ↓keep_servoSplit, ↓keep_ite, ite_self])

def monitorPollFoot : Nat := footOf [.card] [F.chnApplied_monitor] ||| assistFaultFoot
theorem keep_monitorPoll {ft : Nat} (hft : inFoot monitorPollFoot ft = true) (c reading : Nat) (d : Dev) : keep ft (monitorPoll
    c reading d) = keep ft d :=
  keep_mono hft (by simp +decide only [monitorPoll, ↓keep_wr, ↓keep_setFlag, ↓keep_updChn, ↓keep_updHealth, ↓keep_cardBin,
    ↓keep_assistFault, ↓keep_ite, ite_self])

def busTimeoutFoot : Nat := footOf [.power] [] ||| busErrorFoot
theorem keep_busTimeout {ft : Nat} (hft : inFoot busTimeoutFoot ft = true) (rq : Requester) (addr : Nat) (isWrite : Bool) (d :
    Dev) : keep ft (busTimeout rq addr isWrite d) = keep ft d :=
  keep_mono hft (by simp +decide only [busTimeout]; split <;> simp +decide
    only [↓keep_busError, ↓keep_part_power, ↓keep_ite, ite_self])

def putLostFoot : Nat := footOf [.reset] []
theorem keep_putLost {ft : Nat} (hft : inFoot putLostFoot ft = true) (d : Dev) (c : ClockId) (lost : Bool) : keep ft (putLost d
    c lost) = keep ft d :=
  keep_mono hft (by simp +decide only [putLost, ↓keep_updReset])

def chnClockLostFoot : Nat := footOf [] [F.chnWstat_wlock] ||| seqStopFoot
theorem keep_chnClockLost {ft : Nat} (hft : inFoot chnClockLostFoot ft = true) (d : Dev) (c : Nat) : keep ft (chnClockLost d c)
    = keep ft d :=
  keep_mono hft (by simp +decide only [chnClockLost, ↓keep_setFlag, ↓keep_updChn, ↓keep_closeWrite, ↓keep_seqStop, ↓keep_ite,
    ite_self])

def clockLockLostFoot : Nat := securityFaultFoot ||| activeFailsFoot ||| chnClockLostFoot
theorem keep_clockLockLost {ft : Nat} (hft : inFoot clockLockLostFoot ft = true) (c : ClockId) (d : Dev) : keep ft
    (clockLockLost c d) = keep ft d := by
  refine keep_mono hft ?_
  unfold clockLockLost
  extract_lets e1
  have he1 : keep clockLockLostFoot e1 = keep clockLockLostFoot d := by simp only [e1]; simp +decide only [↓keep_putLost]
  split
  · rfl
  · split
    all_goals simp +decide only [he1, ↓keep_portDown, ↓keep_unitClockLost, ↓keep_hostLinkDown, ↓keep_holdReset, ↓keep_securityFault,
        ↓keep_chnClockLost, ↓keep_ite, ite_self]

def clockLockRegainedFoot : Nat := footOf [.host, .servos, .reset] [] ||| portTrainFoot
theorem keep_clockLockRegained {ft : Nat} (hft : inFoot clockLockRegainedFoot ft = true) (c : ClockId) (d : Dev) : keep ft
    (clockLockRegained c d) = keep ft d := by
  refine keep_mono hft ?_
  unfold clockLockRegained
  extract_lets e1
  have he1 : keep clockLockRegainedFoot e1 = keep clockLockRegainedFoot d := by simp only [e1]; simp +decide only
      [↓keep_putLost]
  split
  · rfl
  · split
    all_goals simp +decide only [he1, ↓keep_portTrain, ↓keep_updUnit, ↓keep_hostTrain, ↓keep_ite, ite_self]

def trimRegionsFoot : Nat := footOf [.draws, .power] []
theorem keep_trimRegions {ft : Nat} (hft : inFoot trimRegionsFoot ft = true) (d : Dev) : keep ft (trimRegions d) = keep ft d :=
  keep_mono hft (by simp +decide only [trimRegions, ↓keep_draw, ↓keep_part_power, ↓keep_forEach, implies_true])

def avsAdjustFoot : Nat := footOf [.draws, .power] [F.glbAvs_target_mv, F.glbAvs_read_mv, F.glbAvs_avs_err]
theorem keep_avsAdjust {ft : Nat} (hft : inFoot avsAdjustFoot ft = true) (target readback : Nat) (ok : Bool) (d : Dev) : keep ft
    (avsAdjust target readback ok d) = keep ft d :=
  keep_mono hft (by simp +decide only [avsAdjust, ↓keep_wr, ↓keep_setFlag, ↓keep_trimRegions, ↓keep_ite, ite_self])

theorem keep_abort {ft : Nat} (hft : inFoot finishFoot ft = true) (h cid qid target : Nat) (d : Dev) : keep ft (abort h cid qid
    target d) = keep ft d := by
  refine keep_mono hft ?_
  unfold abort
  extract_lets here queued e2 e3
  have he2 : keep finishFoot e2 = keep finishFoot d := by simp only [e2]; simp +decide only [↓keep_updPort]
  have he3 : keep finishFoot e3 = keep finishFoot d := by simp only [e3]; simp +decide only [↓keep_updPort]
  clear_value here
  split
  · simp +decide only [↓keep_emit, ↓keep_finish, ↓keep_failWrite, ↓keep_ite, ite_self]
  · simp +decide only [he2, he3, ↓keep_emit, ↓keep_syncHost, ↓keep_ite, ite_self]

def linkFreshFoot : Nat := footOf [] [F.lmlRetry_next_seq, F.lmlRetry_acked, F.lmlCred_tx_avail] ||| flushPortFoot
theorem keep_linkFresh {ft : Nat} (hft : inFoot linkFreshFoot ft = true) (d : Dev) (p : Nat) : keep ft (linkFresh d p) = keep ft
    d :=
  keep_mono hft (by simp +decide only [linkFresh, ↓keep_wr, ↓keep_updLport, ↓keep_flushPort, ↓keep_forEach, implies_true])

def portUpFoot : Nat := footOf [] [F.lmlStat_state, F.lmlStat_routed, F.lmlEvt_up] ||| departTransitFoot
theorem keep_portUp {ft : Nat} (hft : inFoot portUpFoot ft = true) (d : Dev) (p : Nat) : keep ft (portUp d p) = keep ft d :=
  keep_mono hft (by simp +decide only [portUp, ↓keep_wr, ↓keep_setFlag, ↓keep_pumpPort])

def trainingDoneFoot : Nat := footOf [] [F.lmlStat_width, F.lmlStat_lanes, F.lmlStat_link_delay] ||| portUpFoot |||
  linkFreshFoot
theorem keep_trainingDone {ft : Nat} (hft : inFoot trainingDoneFoot ft = true) (p lanes peerLanes peerWidth : Nat) (peerEncrypt
    : Bool) (delay : Nat) (d : Dev) : keep ft (trainingDone p lanes peerLanes peerWidth peerEncrypt delay d) = keep ft d := by
  refine keep_mono hft ?_
  unfold trainingDone
  split
  · rfl
  · split
    · rfl
    · simp +decide only [↓keep_wr, ↓keep_emit, ↓keep_updLport, ↓keep_linkFresh, ↓keep_portUp, ↓keep_ite, ite_self]

def rateFallbackFoot : Nat := footOf [] [F.lmlStat_rate]
theorem keep_rateFallback {ft : Nat} (hft : inFoot rateFallbackFoot ft = true) (p : Nat) (d : Dev) : keep ft (rateFallback p d)
    = keep ft d :=
  keep_mono hft (by simp +decide only [rateFallback, ↓keep_wr, ↓keep_ite, ite_self])

theorem keep_reroute {ft : Nat} (hft : inFoot departTransitFoot ft = true) (d : Dev) (f : Frame) (arrival : Option Nat) (held :
    Bool) : keep ft (reroute d f arrival held) = keep ft d := by
  refine keep_mono hft ?_
  unfold reroute
  extract_lets leave
  have hleave (p : Nat) (turned : Bool) : keep departTransitFoot (leave p turned) = keep departTransitFoot d := by
    simp only [leave]
    split
    · simp +decide only [↓keep_departTransit]
    · simp +decide only [↓keep_draw, ↓keep_putOn, ↓keep_dropFrame, ↓keep_ite,
        ite_self]
  split
  · simp +decide only [↓keep_freeRx, ↓keep_ite,
      ite_self]
  · exact hleave _ _
  · exact hleave _ _
  · split
    · simp +decide only [↓keep_dropFrame]
    · simp +decide only [↓keep_originate]

def portDeadFoot : Nat := footOf [.card] [F.lmlStat_state, F.lmlStat_rate, F.lmlStat_secure, F.lmlStat_routed, F.lmlEvt_dead]
  ||| sendNoticeFoot ||| departTransitFoot
theorem keep_portDead {ft : Nat} (hft : inFoot portDeadFoot ft = true) (d : Dev) (p : Nat) : keep ft (portDead d p) = keep ft d
    :=
  keep_mono hft (by simp +decide only [portDead, ↓keep_wr, ↓keep_setFlag, ↓keep_cardEpoch, ↓keep_updLport, ↓keep_sendNotice,
    ↓keep_reroute, ↓keep_forEach, implies_true])

theorem keep_replayFrom {ft : Nat} (hft : inFoot portDeadFoot ft = true) (d : Dev) (p n : Nat) : keep ft (replayFrom d p n) =
    keep ft d := by
  refine keep_mono hft ?_
  unfold replayFrom
  extract_lets rest
  clear_value rest
  split
  · rfl
  · simp +decide only [↓keep_updLport, ↓keep_pumpPort, ↓keep_portDead, ↓keep_ite, ite_self]

theorem keep_replayOldest {ft : Nat} (hft : inFoot portDeadFoot ft = true) (d : Dev) (p : Nat) : keep ft (replayOldest d p) =
    keep ft d :=
  keep_mono hft (by simp +decide only [replayOldest]; split <;> simp +decide only
    [↓keep_pumpPort, ↓keep_replayFrom])

def secureUpFoot : Nat := footOf [] [F.lmlStat_secure] ||| portUpFoot
theorem keep_secureUp {ft : Nat} (hft : inFoot secureUpFoot ft = true) (p : Nat) (chainOk : Bool) (peerHash : Nat) (peerDecom :
    Bool) (d : Dev) : keep ft (secureUp p chainOk peerHash peerDecom d) = keep ft d :=
  keep_mono hft (by simp +decide only [secureUp, ↓keep_setFlag, ↓keep_updLport, ↓keep_portUp, ↓keep_ite, ite_self])

def routingRestoreFoot : Nat := footOf [] [F.lmlStat_routed, F.lmlEvt_restored] ||| sendNoticeFoot
theorem keep_routingRestore {ft : Nat} (hft : inFoot routingRestoreFoot ft = true) (p : Nat) (d : Dev) : keep ft (routingRestore
    p d) = keep ft d :=
  keep_mono hft (by simp +decide only [routingRestore, ↓keep_setFlag, ↓keep_updLport, ↓keep_sendNotice, ↓keep_ite, ite_self])

def ackUpToFoot : Nat := footOf [.chain] [F.lmlRetry_acked, F.lmlRetry_buf_used, F.lmlRetry_sends]
theorem keep_ackUpTo {ft : Nat} (hft : inFoot ackUpToFoot ft = true) (d : Dev) (p n : Nat) : keep ft (ackUpTo d p n) = keep ft d
    :=
  keep_mono hft (by simp +decide only [ackUpTo, ↓keep_wr, ↓keep_updLport, ↓keep_ite, ite_self])

def takeCreditFoot : Nat := footOf [.chain] [F.lmlCred_tx_avail]
theorem keep_takeCredit {ft : Nat} (hft : inFoot takeCreditFoot ft = true) (d : Dev) (p : Nat) (credit : List Nat) : keep ft
    (takeCredit d p credit) = keep ft d :=
  keep_mono hft (by simp +decide only [takeCredit, ↓keep_wr, ↓keep_updLport, ↓keep_forEach, implies_true])

def flitArrivedFoot : Nat := portDeadFoot ||| ackUpToFoot
theorem keep_flitArrived {ft : Nat} (hft : inFoot flitArrivedFoot ft = true) (p : Nat) (ack nak : Option Nat) (credit : List
    Nat) (crcOk : Bool) (d : Dev) : keep ft (flitArrived p ack nak credit crcOk d) = keep ft d := by
  refine keep_mono hft ?_
  unfold flitArrived
  split
  · rfl
  · extract_lets e1 e2
    have he2 : keep flitArrivedFoot e2 = keep flitArrivedFoot d := by
      simp only [e2, e1]
      split
      · simp +decide only [↓keep_ackUpTo, ↓keep_takeCredit]
      · simp +decide only [↓keep_takeCredit]
    split
    · simp +decide only [he2, ↓keep_replayFrom, ↓keep_ackUpTo]
    · simp +decide only [he2, ↓keep_pumpPort]

def consumeFrameFoot : Nat := cmdArrivedFoot ||| wdataArrivedFoot ||| surveyEndFoot ||| assignHeardFoot
theorem keep_consumeFrame {ft : Nat} (hft : inFoot consumeFrameFoot ft = true) (d : Dev) (p : Nat) (f : Frame) : keep ft
    (consumeFrame d p f) = keep ft d := by
  refine keep_mono hft ?_
  unfold consumeFrame
  extract_lets b
  refine keep_ite_of (by simp +decide only [↓keep_cmdArrived])
      (keep_ite_of (by simp +decide only [↓keep_ackArrived])
      (keep_ite_of (by simp +decide only [↓keep_xrdyArrived])
      (keep_ite_of (by simp +decide only [↓keep_wdataArrived])
      (keep_ite_of (by simp +decide only [↓keep_rdataArrived])
      (keep_ite_of (by simp +decide only [↓keep_cplArrived])
    (keep_ite_of (by simp +decide only [↓keep_ackArrived])
        (keep_ite_of (by simp +decide only [↓keep_cancelArrived])
        (keep_ite_of (by simp +decide only [↓keep_nakArrived])
        (keep_ite_of (by simp +decide only [↓keep_routeHeard])
        (keep_ite_of ?_ rfl))))))))))
  split
  all_goals simp +decide only [↓keep_announceHeard, ↓keep_probeHeard, ↓keep_reportHeard,
      ↓keep_assignHeard, ↓keep_doneHeard, ↓keep_noticeHeard]

def refuseFrameFoot : Nat := footOf [.out, .chain] [F.lmlCred_rx_used]
theorem keep_refuseFrame {ft : Nat} (hft : inFoot refuseFrameFoot ft = true) (d : Dev) (p : Nat) (f : Frame) : keep ft
    (refuseFrame d p f) = keep ft d :=
  keep_mono hft (by simp +decide only [refuseFrame, ↓keep_updLport, ↓keep_sendFlit, ↓keep_freeRx, ↓keep_ite, ite_self])

def acceptFrameFoot : Nat := consumeFrameFoot ||| departTransitFoot
theorem keep_acceptFrame {ft : Nat} (hft : inFoot acceptFrameFoot ft = true) (d : Dev) (p : Nat) (f : Frame) : keep ft
    (acceptFrame d p f) = keep ft d := by
  refine keep_mono hft ?_
  unfold acceptFrame
  extract_lets free hop
  have hfree (e : Dev) : keep acceptFrameFoot (free e) = keep acceptFrameFoot e := by simp only [free]; simp +decide only
      [↓keep_freeRx]
  split
  · simp +decide only [hfree, ↓keep_addWrap]
  · split
    · exact hfree d
    · split
      · simp +decide only [↓keep_dropFrame]
      · split
        · simp +decide only [hfree, ↓keep_consumeFrame]
        · simp +decide only [↓keep_forwardFrame]

def stompOnFoot : Nat := footOf [.draws] [] ||| sendAsFoot
theorem keep_stompOn {ft : Nat} (hft : inFoot stompOnFoot ft = true) (d : Dev) (p : Nat) (f : Frame) : keep ft (stompOn d p f) =
    keep ft d := by
  refine keep_mono hft ?_
  unfold stompOn
  extract_lets hop leave
  have hleave (q : Nat) (f : Frame) : keep stompOnFoot (leave q f) = keep stompOnFoot d := by
    simp only [leave]
    split
    · rfl
    · simp +decide only [↓keep_draw, ↓keep_sendAs, ↓keep_ite, ite_self]
  split
  · rfl
  · split
    · exact hleave _ _
    · exact hleave _ _
    · rfl

def fecCountFoot : Nat := footOf [.draws] [F.lmlCnt_count]
theorem keep_fecCount {ft : Nat} (hft : inFoot fecCountFoot ft = true) (d : Dev) (p : Nat) : keep ft (fecCount d p) = keep ft d
    :=
  keep_mono hft (by simp +decide only [fecCount, ↓keep_addWrap, ↓keep_draw, ↓keep_ite, ite_self])

def frameReceivedFoot : Nat := footOf [] [F.lmlEvt_stomp, F.lmlEvt_gcm_fail] ||| acceptFrameFoot
theorem keep_frameReceived {ft : Nat} (hft : inFoot frameReceivedFoot ft = true) (p : Nat) (f : Frame) (chk : FrameCheck) (d :
    Dev) : keep ft (frameReceived p f chk d) = keep ft d := by
  refine keep_mono hft ?_
  unfold frameReceived
  split
  · rfl
  · extract_lets e1 e2 inOrder next
    have he2 : keep frameReceivedFoot e2 = keep frameReceivedFoot d := by simp only [e2, e1]; simp +decide only [↓keep_addSat,
        ↓keep_fecCount, ↓keep_ite, ite_self]
    have hnext (e : Dev) : keep frameReceivedFoot (next e) = keep frameReceivedFoot e := by simp only [next]; simp +decide only
        [↓keep_updLport]
    split
    all_goals simp +decide only [he2, hnext, ↓keep_addWrap, ↓keep_setFlag, ↓keep_flitDue,
        ↓keep_freeRx, ↓keep_refuseFrame, ↓keep_acceptFrame, ↓keep_stompOn, ↓keep_ite, ite_self]

def internalCtxFoot : Nat := footOf [.host] []
theorem keep_internalCtx {ft : Nat} (hft : inFoot internalCtxFoot ft = true) (d : Dev) (nsid zi : Nat) (locks : List Lock) :
    keep ft (internalCtx d nsid zi locks) = keep ft d :=
  keep_mono hft (by simp +decide only [internalCtx, ↓keep_updHost])

def cleanBeginFoot : Nat := footOf [.host] [] ||| syncHostFoot
theorem keep_cleanBegin {ft : Nat} (hft : inFoot cleanBeginFoot ft = true) (d : Dev) (nsid act zi : Nat) : keep ft (cleanBegin d
    nsid act zi) = keep ft d :=
  keep_mono hft (by simp +decide only [cleanBegin, ↓keep_syncHost, ↓keep_addTask, ↓keep_relocating, ↓keep_internalCtx,
    ↓keep_forEach, implies_true])

theorem keep_cleaningStart {ft : Nat} (hft : inFoot cleanBeginFoot ft = true) (nsid act band : Nat) (d : Dev) : keep ft
    (cleaningStart nsid act band d) = keep ft d :=
  keep_mono hft (by simp +decide only [cleaningStart]; split <;> simp +decide only
    [↓keep_cleanBegin, ↓keep_ite, ite_self])

def mapCheckpointFoot : Nat := footOf [.host] [] ||| syncHostFoot
theorem keep_mapCheckpoint {ft : Nat} (hft : inFoot mapCheckpointFoot ft = true) (nsid : Nat) (d : Dev) : keep ft (mapCheckpoint
    nsid d) = keep ft d :=
  keep_mono hft (by unfold mapCheckpoint; split <;> simp +decide only [↓keep_syncHost, ↓keep_checkpointMap, ↓keep_ite, ite_self])

theorem keep_mapLoad {ft : Nat} (hft : inFoot hdaThroughStartFoot ft = true) (nsid : Nat) (d : Dev) : keep ft (mapLoad nsid d) =
    keep ft d :=
  keep_mono hft (by simp +decide only [mapLoad]; split <;> simp +decide only [↓keep_updNs,
    ↓keep_syncHost, ↓keep_checkpointMap, ↓keep_recoverMap, ↓keep_hdaThroughStart, ↓keep_forEach, ↓keep_ite, ite_self,
    implies_true])

def markBandFoot : Nat := footOf [.host] []
theorem keep_markBand {ft : Nat} (hft : inFoot markBandFoot ft = true) (d : Dev) (nsid zi : Nat) (second : Bool) : keep ft
    (markBand d nsid zi second) = keep ft d :=
  keep_mono hft (by simp +decide only [markBand, ↓keep_updZone])

def homeworkReadFoot : Nat := footOf [.host, .card] []
theorem keep_homeworkRead {ft : Nat} (hft : inFoot homeworkReadFoot ft = true) (act head band errs iters : Nat) (d : Dev) : keep
    ft (homeworkRead act head band errs iters d) = keep ft d := by
  refine keep_mono hft ?_
  unfold homeworkRead
  split
  · rfl
  · split
    · rfl
    · split
      · rfl
      · simp +decide only [↓keep_cardCount, ↓keep_updHost, ↓keep_markBand, ↓keep_ite, ite_self]

def homeworkRewriteFoot : Nat := footOf [.card] [] ||| cleanBeginFoot
theorem keep_homeworkRewrite {ft : Nat} (hft : inFoot homeworkRewriteFoot ft = true) (nsid zi : Nat) (d : Dev) : keep ft
    (homeworkRewrite nsid zi d) = keep ft d :=
  keep_mono hft (by unfold homeworkRewrite; split <;> simp +decide only [↓keep_cardCount, ↓keep_updHost, ↓keep_syncHost,
    ↓keep_addTask, ↓keep_relocating, ↓keep_internalCtx, ↓keep_cleanBegin, ↓keep_forEach, ↓keep_ite, ite_self, implies_true])

theorem keep_offlineCheck {ft : Nat} (hft : inFoot postNoticeFoot ft = true) (d : Dev) (ns : Ns) (zi head : Nat) : keep ft
    (offlineCheck d ns zi head) = keep ft d :=
  keep_mono hft (by simp +decide only [offlineCheck]; split <;> simp +decide
    only [↓keep_updZone, ↓keep_noticeAll, ↓keep_ite, ite_self])

theorem keep_ladderDecoded {ft : Nat} (hft : inFoot detainFoot ft = true) (d : Dev) (ns : Ns) (e : DetEntry) (lba zi off step
    lim cls : Nat) (weak : Bool) : keep ft (ladderDecoded d ns e lba zi off step lim cls weak) = keep ft d :=
  keep_mono hft (by simp +decide only [ladderDecoded, ↓keep_cardBin, ↓keep_detain, ↓keep_markBand, ↓keep_ite, ite_self])

theorem keep_ladderFailed {ft : Nat} (hft : inFoot detainFoot ft = true) (d : Dev) (ns : Ns) (e : DetEntry) (lba zi off cls
    unread : Nat) (parityEn : Bool) : keep ft (ladderFailed d ns e lba zi off cls unread parityEn) = keep ft d :=
  keep_mono hft (by simp +decide only [ladderFailed, ↓keep_cardBin, ↓keep_setMedia, ↓keep_detain, ↓keep_offlineCheck, ↓keep_ite,
    ite_self])

def setLadderFoot : Nat := footOf [.host] []
theorem keep_setLadder {ft : Nat} (hft : inFoot setLadderFoot ft = true) (d : Dev) (nsid lba step : Nat) : keep ft (setLadder d
    nsid lba step) = keep ft d :=
  keep_mono hft (by simp +decide only [setLadder, ↓keep_updHost])

def ladderStepFoot : Nat := footOf [.draws] [F.chnResult_status, F.chnResult_iter, F.chnResult_errs, F.chnResult_step,
  F.chnResult_skipped] ||| detainFoot
theorem keep_ladderStep {ft : Nat} (hft : inFoot ladderStepFoot ft = true) (act head nsid lba step : Nat) (held : Bool)
    (erasures : Nat) (r : LadderRes) (d : Dev) : keep ft (ladderStep act head nsid lba step held erasures r d) = keep ft d := by
  refine keep_mono hft ?_
  unfold ladderStep
  extract_lets c
  split
  · rfl
  · split
    · rfl
    · have hs := keep_stampMs (ft := ladderStepFoot) (by decide) d
      simp only []
      split
      · simp +decide only [↓keep_setFlag, ↓keep_stampMs, ↓keep_ladderFailed, ↓keep_setLadder,
          ↓keep_ite, ite_self]
      · split
        · simp +decide +zetaDelta only [↓keep_wr, ↓keep_stampMs, ↓keep_setLadder]
        · simp +decide +zetaDelta only [↓keep_wr, ↓keep_stampMs, ↓keep_ladderDecoded, ↓keep_setLadder]
        · simp +decide +zetaDelta only [↓keep_wr, ↓keep_stampMs, ↓keep_ladderFailed,
            ↓keep_setLadder, ↓keep_ite, ite_self]

def nsCreateFoot : Nat := footOf [.out] [] ||| persistKeyFoot
theorem keep_nsCreate {ft : Nat} (hft : inFoot nsCreateFoot ft = true) (h cid : Nat) (c : NsCreate) (d : Dev) : keep ft
    (nsCreate h cid c d) = keep ft d := by
  refine keep_mono hft ?_
  unfold nsCreate
  extract_lets draft
  split
  · simp +decide only [↓keep_adminEnd]
  · split
    · simp +decide only [↓keep_adminEnd]
    · split
      · simp +decide only [↓keep_adminEnd]
      · simp +decide only [↓keep_updHost, ↓keep_nsKeys, ↓keep_adminEnd, ↓keep_ite, ite_self]

def settleHeadsFoot : Nat := footOf [.host] []
theorem keep_settleHeads {ft : Nat} (hft : inFoot settleHeadsFoot ft = true) (d : Dev) : keep ft (settleHeads d) = keep ft d :=
  keep_mono hft (by simp +decide only [settleHeads, ↓keep_updHost])

end Sys2Proof.Machine
end

section
/-! PROOF. Footprints (10 of 10): namespaces, power steps, attestation and transfers. An operation's footprint joins what it writes itself with the
footprints of the operations it calls, and its lemma says that it keeps everything else. -/
namespace Sys2Proof.Machine

def nsGoneFoot : Nat := finishFoot ||| emptySlotFoot
theorem keep_nsGone {ft : Nat} (hft : inFoot nsGoneFoot ft = true) (d : Dev) (n : Nat) : keep ft (nsGone d n) = keep ft d := by
  refine keep_mono hft ?_
  unfold nsGone
  extract_lets e1 e2 e3 slots e4 e5
  have he1 : keep nsGoneFoot e1 = keep nsGoneFoot d := by
    refine keep_forEach _ _ _ fun e x => ?_
    split
    · simp +decide only [↓keep_discardCtx]
    · split
      · rfl
      · simp +decide only [↓keep_finish, ↓keep_failWrite, ↓keep_ite, ite_self]
  have he3 : keep nsGoneFoot e3 = keep nsGoneFoot d := by simp only [e3, e2]; simp +decide only [he1, ↓keep_updHost,
      ↓keep_settleHeads]
  have he5 : keep nsGoneFoot e5 = keep nsGoneFoot d := by simp only [e5, e4]; simp +decide only [he3, ↓keep_updCipher, ↓keep_emptySlot, ↓keep_forEach, implies_true]
  simp +decide only [he5, ↓keep_syncHost]

theorem keep_nsDelete {ft : Nat} (hft : inFoot nsGoneFoot ft = true) (h cid nsid : Nat) (d : Dev) : keep ft (nsDelete h cid nsid
    d) = keep ft d := by
  refine keep_mono hft ?_
  unfold nsDelete
  split
  · simp +decide only [↓keep_adminEnd, ↓keep_nsGone, ↓keep_forEach, implies_true]
  · split
    · simp +decide only [↓keep_adminEnd]
    · simp +decide only [↓keep_adminEnd, ↓keep_nsGone]

def nsAttachFoot : Nat := footOf [.out, .host] []
theorem keep_nsAttach {ft : Nat} (hft : inFoot nsAttachFoot ft = true) (h cid nsid : Nat) (attach : Bool) (ctrls : List Nat) (d
    : Dev) : keep ft (nsAttach h cid nsid attach ctrls d) = keep ft d :=
  keep_mono hft (by simp +decide only [nsAttach]; split <;> simp +decide only
    [↓keep_updNs, ↓keep_adminEnd, ↓keep_ite, ite_self])

def targetEvaluateFoot : Nat := footOf [] [F.pwrCs_state, F.pwrCs_target, F.pwrCs_cs2_block, F.pwrDom_dom, F.pwrVote_dom,
  F.pwrHvote_hda] ||| evaluateHdaFoot
theorem keep_targetEvaluate {ft : Nat} (hft : inFoot targetEvaluateFoot ft = true) (deep : List Nat) (d : Dev) : keep ft
    (targetEvaluate deep d) = keep ft d :=
  keep_mono hft (by simp +decide only [targetEvaluate, ↓keep_wr, ↓keep_syncVotes, ↓keep_evaluateHda, ↓keep_enterCs2,
    ↓keep_forEach, ↓keep_ite, ite_self, implies_true])

def strokeMeasuredFoot : Nat := footOf [] [F.sscMa_stroke, F.sscMa_baseline] ||| detainHeadFoot
theorem keep_strokeMeasured {ft : Nat} (hft : inFoot strokeMeasuredFoot ft = true) (d : Dev) (n l h stroke : Nat) (enough :
    Bool) : keep ft (strokeMeasured d n l h stroke enough) = keep ft d :=
  keep_mono hft (by simp +decide only [strokeMeasured, ↓keep_wr, ↓keep_detainHead, ↓keep_ite, ite_self])

def retainDomFoot : Nat := footOf [] [F.pwrDom_dom]
theorem keep_retainDom {ft : Nat} (hft : inFoot retainDomFoot ft = true) (d : Dev) (k : Nat) : keep ft (retainDom d k) = keep ft
    d :=
  keep_mono hft (by simp +decide only [retainDom, ↓keep_setDom, ↓keep_ite, ite_self])

def hdaStepEndFoot : Nat := footOf [] [F.pwrHs_state, F.pwrHs_in_transition, F.pwrDom_dom] ||| beginStepFoot |||
  strokeMeasuredFoot ||| reachedHs0Foot
theorem keep_stepReach {d e : Dev} {n s : Nat} (h : stepReach d n = some (s, e)) : keep hdaStepEndFoot e = keep hdaStepEndFoot d := by
  unfold stepReach at h
  extract_lets chp s at h
  split at h
  · split at h
    · split at h <;> cases h
      simp +decide only [↓keep_forEach, ↓keep_setDom, implies_true]
    · cases h
      simp +decide only [↓keep_forEach, ↓keep_retainDom, ↓keep_ite, ite_self, implies_true]
  · cases h
    simp +decide only [↓keep_forEach, ↓keep_setLaneState, implies_true]
  · split at h <;> cases h
    rfl
  · cases h
    rfl
  · split at h <;> cases h
    simp +decide only [↓keep_retainDom, ↓keep_ite, ite_self]
  · split at h <;> cases h
    simp +decide only [↓keep_setDom]
  · cases h

theorem keep_hdaStepEnd {ft : Nat} (hft : inFoot hdaStepEndFoot ft = true) (n : Nat) (ok : Bool) (strokes : List (Fin 2 × HeadId
    × Nat × Bool)) (d : Dev) : keep ft (hdaStepEnd n ok strokes d) = keep ft d := by
  refine keep_mono hft ?_
  unfold hdaStepEnd
  split
  · rfl
  · split
    · simp +decide only [↓keep_updPower, ↓keep_beginStep, ↓keep_ite, ite_self]
    · split
      · rfl
      · next hr =>
        have he := keep_stepReach hr
        extract_lets code acts e1 e2 e3 e4 e5
        have he1 : keep hdaStepEndFoot e1 = keep hdaStepEndFoot d := by
          simp only [e1]
          simp +decide only [he, ↓keep_cardCount, ↓keep_cardBin, ↓keep_forEach, ↓keep_ite, ite_self, implies_true]
        have he4 : keep hdaStepEndFoot e4 = keep hdaStepEndFoot d := by simp only [e4, e3, e2]; simp +decide only [he1, ↓keep_wr,
            ↓keep_updPower, ↓keep_strokeMeasured, ↓keep_forEach,
            implies_true]
        have he5 : keep hdaStepEndFoot e5 = keep hdaStepEndFoot d := by simp only [e5]; simp +decide only [he4, ↓keep_wr, ↓keep_setFlag,
            ↓keep_beginStep, ↓keep_ite, ite_self]
        simp +decide only [he5, ↓keep_recomputeBound, ↓keep_reachedHs0, ↓keep_ite, ite_self]

def firmwareVoteFoot : Nat := footOf [] [F.pwrVote_dom, F.pwrHvote_hda]
theorem keep_firmwareVote {ft : Nat} (hft : inFoot firmwareVoteFoot ft = true) (dom : Nat) (hda : List Nat) (d : Dev) : keep ft
    (firmwareVote dom hda d) = keep ft d :=
  keep_mono hft (by simp +decide only [firmwareVote, ↓keep_setVote, ↓keep_setHvote, ↓keep_forEach, implies_true])

def throttleCheckFoot : Nat := footOf [.power, .card] [F.pwrPs_power_mw] ||| applyLimitsFoot
theorem keep_throttleCheck {ft : Nat} (hft : inFoot throttleCheckFoot ft = true) (mw : Nat) (d : Dev) : keep ft (throttleCheck
    mw d) = keep ft d :=
  keep_mono hft (by simp +decide only [throttleCheck, ↓keep_wr, ↓keep_cardExtreme, ↓keep_updPower, ↓keep_applyLimits, ↓keep_ite,
    ite_self])

def updSpdmFoot : Nat := footOf [.sec] []
theorem keep_updSpdm {ft : Nat} (hft : inFoot updSpdmFoot ft = true) (d : Dev) (e : Nat) (g : SpdmEnd → SpdmEnd) : keep ft
    (d.updSpdm e g) = keep ft d :=
  keep_mono hft (by simp +decide only [Dev.updSpdm, ↓keep_part_sec])

theorem keep_spdmSend {ft : Nat} (hft : inFoot putOnFoot ft = true) (d : Dev) (e code : Nat) (body : List Nat) : keep ft
    (spdmSend d e code body) = keep ft d :=
  keep_mono hft (by simp +decide only [spdmSend, ↓keep_emit, ↓keep_sendLocal, ↓keep_ite, ite_self])

theorem keep_spdmError {ft : Nat} (hft : inFoot putOnFoot ft = true) (d : Dev) (e code : Nat) : keep ft (spdmError d e code) =
    keep ft d :=
  keep_mono hft (by simp +decide only [spdmError, ↓keep_spdmSend])

def spdmRowFoot : Nat := footOf [] [F.pwrCs_state, F.pwrCs_target, F.pwrDom_dom, F.mgtStat_mctp_rx]
theorem keep_spdmRow {ft : Nat} (hft : inFoot spdmRowFoot ft = true) (e : Nat) (g : Dev → Dev) (d : Dev) (hg : ∀ e, keep ft (g
    e) = keep ft e) : keep ft (spdmRow e g d) = keep ft d := by
  unfold spdmRow
  split
  · rfl
  · split
    · rw [hg]
      exact keep_mono hft (by simp +decide only [↓keep_addSat, ↓keep_wakeCs2])
    · exact hg d

theorem keep_negotiated {ft : Nat} (hft : inFoot putOnFoot ft = true) (e : Nat) (g : Dev → Dev) (d : Dev) (hg : ∀ e, keep ft (g
    e) = keep ft e) : keep ft (negotiated e g d) = keep ft d := by
  unfold negotiated
  split
  · exact keep_spdmError (inFoot_trans (by decide) hft) ..
  · exact hg d

theorem keep_inSecure {ft : Nat} (hft : inFoot putOnFoot ft = true) (e : Nat) (g : Dev → Dev) (d : Dev) (hg : ∀ e, keep ft (g e)
    = keep ft e) : keep ft (inSecure e g d) = keep ft d := by
  unfold inSecure
  split
  · exact hg d
  · exact keep_spdmError (inFoot_trans (by decide) hft) ..

def getVersionFoot : Nat := footOf [.sec] [] ||| putOnFoot
theorem keep_getVersion {ft : Nat} (hft : inFoot getVersionFoot ft = true) (e : Nat) (d : Dev) : keep ft (getVersion e d) = keep
    ft d :=
  keep_mono hft (by simp +decide only [getVersion, ↓keep_updSpdm, ↓keep_spdmSend])

def getCapabilitiesFoot : Nat := footOf [.sec] [] ||| putOnFoot
theorem keep_getCapabilities {ft : Nat} (hft : inFoot getCapabilitiesFoot ft = true) (e : Nat) (d : Dev) : keep ft
    (getCapabilities e d) = keep ft d :=
  keep_mono hft (by simp +decide only [getCapabilities, ↓keep_updSpdm, ↓keep_spdmSend, ↓keep_spdmError, ↓keep_ite, ite_self])

def negotiateFoot : Nat := footOf [.sec] [] ||| putOnFoot
theorem keep_negotiate {ft : Nat} (hft : inFoot negotiateFoot ft = true) (e : Nat) (supported : Bool) (d : Dev) : keep ft
    (negotiate e supported d) = keep ft d :=
  keep_mono hft (by simp +decide only [negotiate, ↓keep_updSpdm, ↓keep_spdmSend, ↓keep_spdmError, ↓keep_ite, ite_self])

theorem keep_getDigests {ft : Nat} (hft : inFoot putOnFoot ft = true) (e : Nat) (d : Dev) : keep ft (getDigests e d) = keep ft d
    :=
  keep_mono hft (by simp +decide only [getDigests, ↓keep_spdmSend, ↓keep_negotiated, implies_true])

theorem keep_getCertificate {ft : Nat} (hft : inFoot putOnFoot ft = true) (e slot : Nat) (d : Dev) : keep ft (getCertificate e
    slot d) = keep ft d :=
  keep_mono hft (by simp +decide only [getCertificate, ↓keep_spdmSend, ↓keep_spdmError, ↓keep_negotiated, ↓keep_ite, ite_self,
    implies_true])

def challengeFoot : Nat := footOf [.draws] [] ||| putOnFoot
theorem keep_challenge {ft : Nat} (hft : inFoot challengeFoot ft = true) (e slot nonce : Nat) (d : Dev) : keep ft (challenge e
    slot nonce d) = keep ft d :=
  keep_mono hft (by simp +decide only [challenge, ↓keep_draw, ↓keep_spdmSend, ↓keep_spdmError, ↓keep_negotiated, ↓keep_ite,
    ite_self, implies_true])

def getMeasurementsFoot : Nat := footOf [.draws] [] ||| putOnFoot
theorem keep_getMeasurements {ft : Nat} (hft : inFoot getMeasurementsFoot ft = true) (e index : Nat) (m : List Host.Cell) (d :
    Dev) : keep ft (getMeasurements e index m d) = keep ft d :=
  keep_mono hft (by simp +decide only [getMeasurements, ↓keep_draw, ↓keep_spdmSend, ↓keep_spdmError, ↓keep_negotiated, ↓keep_ite,
    ite_self, implies_true])

def keyExchangeFoot : Nat := footOf [.draws, .sec] [] ||| putOnFoot
theorem keep_keyExchange {ft : Nat} (hft : inFoot keyExchangeFoot ft = true) (e session : Nat) (d : Dev) : keep ft (keyExchange
    e session d) = keep ft d :=
  keep_mono hft (by simp +decide only [keyExchange, ↓keep_draw, ↓keep_updSpdm, ↓keep_spdmSend, ↓keep_spdmError, ↓keep_negotiated,
    ↓keep_ite, ite_self, implies_true])

def finishSessionFoot : Nat := footOf [.sec] [] ||| putOnFoot
theorem keep_finishSession {ft : Nat} (hft : inFoot finishSessionFoot ft = true) (e : Nat) (macOk : Bool) (d : Dev) : keep ft
    (finishSession e macOk d) = keep ft d :=
  keep_mono hft (by simp +decide only [finishSession, ↓keep_updSpdm, ↓keep_spdmSend, ↓keep_spdmError, ↓keep_ite, ite_self])

theorem keep_heartbeat {ft : Nat} (hft : inFoot putOnFoot ft = true) (e : Nat) (d : Dev) : keep ft (heartbeat e d) = keep ft d
    :=
  keep_mono hft (by simp +decide only [heartbeat, ↓keep_spdmSend, ↓keep_inSecure, implies_true])

theorem keep_keyUpdate {ft : Nat} (hft : inFoot putOnFoot ft = true) (e op : Nat) (d : Dev) : keep ft (keyUpdate e op d) = keep
    ft d :=
  keep_mono hft (by simp +decide only [keyUpdate, ↓keep_updLport, ↓keep_spdmSend, ↓keep_spdmError, ↓keep_inSecure, ↓keep_ite,
    ite_self, implies_true])

def endSessionFoot : Nat := footOf [.sec] [] ||| putOnFoot
theorem keep_endSession {ft : Nat} (hft : inFoot endSessionFoot ft = true) (e : Nat) (d : Dev) : keep ft (endSession e d) = keep
    ft d :=
  keep_mono hft (by simp +decide only [endSession, ↓keep_updSpdm, ↓keep_spdmSend, ↓keep_inSecure, implies_true])

theorem keep_spdmMessage {ft : Nat} (hft : inFoot keyExchangeFoot ft = true) (e msg : Nat) (m : List Host.Cell) (d : Dev) : keep
    ft (spdmMessage e msg m d) = keep ft d := by
  refine keep_mono hft ?_
  have hrow : ∀ g, g = spdmMessage e msg m → keep keyExchangeFoot (g d) = keep keyExchangeFoot d := by
    intro g hg
    unfold spdmMessage at hg
    split at hg
    all_goals
      subst hg
      simp +decide only [id_eq, ↓keep_getVersion, ↓keep_getCapabilities, ↓keep_negotiate, ↓keep_getDigests, ↓keep_getCertificate,
          ↓keep_challenge, ↓keep_getMeasurements, ↓keep_keyExchange, ↓keep_finishSession, ↓keep_heartbeat, ↓keep_keyUpdate,
          ↓keep_endSession]
  exact hrow _ rfl

def miMessageFoot : Nat := footOf [.out, .draws] [F.pwrCs_state, F.pwrCs_target, F.pwrDom_dom, F.mgtStat_mctp_rx,
  F.mgtStat_mctp_err]
theorem keep_miMessage {ft : Nat} (hft : inFoot miMessageFoot ft = true) (i3c ok : Bool) (d : Dev) : keep ft (miMessage i3c ok
    d) = keep ft d :=
  keep_mono hft (by simp +decide only [miMessage, ↓keep_addSat, ↓keep_emit, ↓keep_draw, ↓keep_wakeCs2, ↓keep_ite, ite_self])

def xbGrantFoot : Nat := footOf [.xb] [F.xbrHallPass_ptr]
theorem keep_xbGrant {ft : Nat} (hft : inFoot xbGrantFoot ft = true) (cycle : Nat) (d : Dev) (o : XbOffer) : keep ft (xbGrant
    cycle d o) = keep ft d :=
  keep_mono hft (by simp +decide only [xbGrant, ↓keep_wr, ↓keep_updXb])

def xbarArbitrateFoot : Nat := footOf [.xb] [F.xbrHallPass_ptr, F.xbrErrStat_c7_limited]
theorem keep_xbarArbitrate {ft : Nat} (hft : inFoot xbarArbitrateFoot ft = true) (cycle : Nat) (arrivals : List Packet) (d :
    Dev) : keep ft (xbarArbitrate cycle arrivals d) = keep ft d :=
  keep_mono hft (by simp +decide only [xbarArbitrate, ↓keep_setBit, ↓keep_updXb, ↓keep_xbGrant, ↓keep_forEach, ↓keep_ite,
    ite_self, implies_true])

theorem keep_poisonEnds {ft : Nat} (hft : inFoot finishFoot ft = true) (d : Dev) (id : Nat) : keep ft (poisonEnds d id) = keep
    ft d :=
  keep_mono hft (by simp +decide only [poisonEnds]; split <;> simp +decide
    only [↓keep_finish, ↓keep_failWrite, ↓keep_ite, ite_self])

def transferCompleteFoot : Nat := footOf [.xb] [F.xbrErrStat_par_err, F.xbrBeats_beats] ||| finishFoot ||| memErrorFoot
theorem keep_transferComplete {ft : Nat} (hft : inFoot transferCompleteFoot ft = true) (out cycle : Nat) (errs : List (Nat ×
    MemErr)) (d : Dev) : keep ft (transferComplete out cycle errs d) = keep ft d := by
  refine keep_mono hft ?_
  unfold transferComplete
  split
  · rfl
  · split
    · rfl
    · extract_lets e1 beat e2 poison e3
      have he2 : keep transferCompleteFoot e2 = keep transferCompleteFoot d := by simp only [e2, e1]; simp +decide only [↓keep_setBit,
          ↓keep_memError, ↓keep_updXb, ↓keep_forEach, ↓keep_ite, ite_self,
          implies_true]
      have he3 : keep transferCompleteFoot e3 = keep transferCompleteFoot d := by simp only [e3]; simp +decide only [he2,
          ↓keep_addWrap, ↓keep_emit]
      split
      · simp +decide only [he3, ↓keep_poisonEnds, ↓keep_ite, ite_self]
      · exact he3

end Sys2Proof.Machine
end

section
/-! PROOF. The frames of the clock, power, thermal, test, security, Report Card and preamplifier rows: each is the footprint of the row's effect. -/
namespace Sys2Proof.Machine

/-- Settles O54: each row by the footprint of its effect. -/
theorem platformFrames : Obligations.PlatformFrames := by
  unfold Obligations.PlatformFrames
  refine ⟨?_, ?_, ?_, ?_, ?_, ?_, ?_, ?_, ?_, ?_, ?_, ?_, ?_, ?_, ?_, ?_, ?_, ?_, ?_, ?_, ?_, ?_, ?_, ?_, ?_, ?_, ?_, ?_, ?_, ?_,
    ?_, ?_, ?_, ?_, ?_, ?_, ?_, ?_, ?_, ?_, ?_, ?_, ?_, ?_, ?_, ?_, ?_, ?_⟩
  · exact fun a b c => changes_of_keep fun s => ⟨_, rfl, fun d => keep_busTimeout (by decide) ..⟩
  · exact fun a => changes_of_keep fun s => ⟨_, execImplicitVoteWithdraw.eq_def a s, fun d => by simp +decide only
      [↓keep_clearVote, ↓keep_ite, ite_self]⟩
  · exact fun a b => changes_of_keep fun s => ⟨_, rfl, fun d => keep_xbarArbitrate (by decide) ..⟩
  · exact fun a b c => changes_of_keep fun s => ⟨_, execCreditReturn.eq_def a b c s, fun d => by simp +decide only [↓keep_updXb]⟩
  · exact fun a b => changes_of_keep fun s => ⟨_, execClockDomainSwitch.eq_def a b s, fun d => by simp +decide only [↓keep_updChn,
      ↓keep_ite, ite_self]⟩
  · exact fun a b => changes_of_keep fun s => ⟨_, rfl, fun d => keep_regionEvent (by decide) ..⟩
  · intro a b
    refine changes_of_keep fun s => ⟨_, execRegionBitClear.eq_def a b s, fun d => ?_⟩
    refine keep_ite_of rfl ?_
    cases b
    · simp +decide only [↓keep_syncFixed, ↓keep_setBit]
    · simp +decide only [↓keep_syncFixed, ↓keep_setBit]
  · exact fun a b c => changes_of_keep fun s => ⟨_, rfl, fun d => keep_perstDeassert (by decide) ..⟩
  · exact fun a => changes_of_keep fun s => ⟨_, execVoteWithdrawTimer.eq_def a s, fun d => by simp +decide only [↓keep_clearVote,
      ↓keep_ite, ite_self]⟩
  · exact fun a => changes_of_keep fun s => ⟨_, execDomainRetainEntry.eq_def a s, fun d => by simp +decide only [↓keep_setDom,
      ↓keep_ite, ite_self]⟩
  · exact fun a b => changes_of_keep fun s => ⟨_, rfl, fun d => keep_firmwareVote (by decide) ..⟩
  · exact changes_of_keep fun s => ⟨_, execCs1Entry.eq_def s, fun d => by simp +decide only [↓keep_wr, ↓keep_ite, ite_self]⟩
  · exact fun a => changes_of_keep fun s => ⟨_, execCs2Wake.eq_def a s, fun d => by simp +decide only [↓keep_leaveCs2, ↓keep_ite,
      ite_self]⟩
  · exact fun a => changes_of_keep fun s => ⟨_, rfl, fun d => keep_throttleCheck (by decide) ..⟩
  · exact fun a => changes_of_keep fun s => ⟨_, rfl, fun d => keep_grantShare (by decide) ..⟩
  · exact changes_of_keep fun s => ⟨_, rfl, fun d => keep_throttleStepDown (by decide) ..⟩
  · exact fun a => changes_of_keep fun s => ⟨_, rfl, fun d => keep_sensorExclusion (by decide) ..⟩
  · exact changes_of_keep fun s => ⟨_, rfl, fun d => keep_thermalPhaseNormal (by decide) ..⟩
  · exact changes_of_keep fun s => ⟨_, execPhaseTimeout.eq_def s, fun d => by simp +decide only [↓keep_phaseNormal, ↓keep_ite,
      ite_self]⟩
  · exact fun a b => changes_of_keep fun s => ⟨_, rfl, fun d => keep_headPoll (by decide) ..⟩
  · exact fun a b => changes_of_keep fun s => ⟨_, rfl, fun d => keep_calRequest (by decide) ..⟩
  · exact fun a b => changes_of_keep fun s => ⟨_, rfl, fun d => keep_calStart (by decide) ..⟩
  · exact fun a b => changes_of_keep fun s => ⟨_, rfl, fun d => keep_calStart (by decide) ..⟩
  · exact fun a b c => changes_of_keep fun s => ⟨_, rfl, fun d => keep_avsAdjust (by decide) ..⟩
  · exact fun a => changes_of_keep fun s => ⟨_, rfl, fun d => keep_clockLockRegained (by decide) ..⟩
  · exact fun a => changes_of_keep fun s => ⟨_, execTrainingRetryTimer.eq_def a s, fun d => by simp +decide only [↓keep_portTrain,
      ↓keep_ite, ite_self]⟩
  · exact fun a b c d e => changes_of_keep fun s => ⟨_, rfl, fun d => keep_loopRun (by decide) ..⟩
  · exact fun a b c => changes_of_keep fun s => ⟨_, rfl, fun d => keep_eccInject (by decide) ..⟩
  · exact fun a b => changes_of_keep fun s => ⟨_, rfl, fun d => keep_eccRemap (by decide) ..⟩
  · exact fun a b => changes_of_keep fun s => ⟨_, rfl, fun d => keep_mbistStart (by decide) ..⟩
  · exact fun a => changes_of_keep_mem (fun s => ⟨_, rfl, fun d _ => keep_mbistDone (by decide) ..⟩) (by decide)
  · exact changes_of_keep fun s => ⟨_, rfl, fun d => keep_d2Done (by decide) ..⟩
  · exact changes_of_keep fun s => ⟨_, rfl, fun d => keep_closeSession (by decide) ..⟩
  · exact fun a b c => changes_of_keep fun s => ⟨_, rfl, fun d => keep_adminDo (by decide) _ _ _ _ _ _ fun d => keep_dumpKeySend
      (by decide) ..⟩
  · exact changes_of_keep fun s => ⟨_, rfl, fun d => keep_epochEnd (by decide) ..⟩
  · exact changes_of_keep fun s => ⟨_, execCheckpointTimer.eq_def s, fun d => by simp +decide only [↓keep_checkpointDue,
      ↓keep_hourErrors, ↓keep_reachSecond, ↓keep_wakeCs2]⟩
  · exact changes_of_keep fun s => ⟨_, rfl, fun d => keep_checkpointDue (by decide) ..⟩
  · exact fun a b => changes_of_keep fun s => ⟨_, rfl, fun d => by simp +decide only [↓keep_adminDo, ↓keep_adminEnd,
      ↓keep_freezeCard, implies_true]⟩
  · exact fun a b => changes_of_keep fun s => ⟨_, rfl, fun d => by simp +decide only [↓keep_adminDo, ↓keep_adminEnd,
      ↓keep_thawCard, implies_true]⟩
  · exact changes_of_keep fun s => ⟨_, rfl, fun d => keep_freezeCard (by decide) ..⟩
  · exact changes_of_keep fun s => ⟨_, execEvrThaw.eq_def s, fun d => by simp +decide only [↓keep_thawCard]⟩
  · exact changes_of_keep fun s => ⟨_, execFreezeTimeout.eq_def s, fun d => by simp +decide only [↓keep_thawCard,
      ↓keep_reachSecond, ↓keep_ite, ite_self]⟩
  · exact fun a b c d e f => changes_of_keep fun s => ⟨_, rfl, fun d => keep_cursorFill (by decide) ..⟩
  · exact fun a => changes_of_keep fun s => ⟨_, rfl, fun d => keep_fillDone (by decide) ..⟩
  · exact fun a b => changes_of_keep fun s => ⟨_, execWindowAdvance.eq_def a b s, fun d => by simp +decide only
      [↓keep_windowAdvance, ↓keep_busOk]⟩
  · exact changes_of_keep fun s => ⟨_, execWatchdogKick.eq_def s, fun d => rfl⟩
  · exact fun a b c d e => changes_of_keep fun s => ⟨_, rfl, fun d => keep_pspRaw (by decide) ..⟩
  · exact fun a b => changes_of_keep fun s => ⟨_, rfl, fun d => keep_pspDone (by decide) ..⟩

end Sys2Proof.Machine
end

section
/-! PROOF. The frames of the media rows: that of GATE_EDGE leaves out the three bits of SQR_CLAMP that the clamp of R189 sets, so the
statement fails on a write gate that opens without a permit. -/
namespace Sys2Proof.Machine

/-- A channel whose next command opens the write gate, with no permit window over it and no write PLL in lock. -/
def unpermittedGate : State :=
  { dev := { chns := [(0, { queue := [⟨0, 0, 0, 0, 1, 0, 0, 0, 0, false, 0⟩] })] } }

/-- GATE_EDGE tells that the permit is missing (R189). -/
theorem gateEdge_unpermitted : unpermittedGate.dev.rd F.sqrClamp_no_permit = 0 ∧
    (gateEdge 0 0 unpermittedGate.dev).rd F.sqrClamp_no_permit = 1 := by decide

/-- Refutes O55: the frame of GATE_EDGE names no field of SQR_CLAMP, of which a clamped write gate sets the bit `no_permit`. -/
theorem not_mediaFrames : ¬ Obligations.MediaFrames := by
  unfold Obligations.MediaFrames
  rintro ⟨-, -, -, -, -, -, hgate, -⟩
  obtain ⟨-, hregs⟩ := hgate 0 0 unpermittedGate _ rfl
  have hkept := hregs F.sqrClamp_no_permit 0 0 (by decide)
  obtain ⟨hbefore, hafter⟩ := gateEdge_unpermitted
  rw [hbefore] at hkept
  exact absurd (hafter.symm.trans hkept) (by decide)

end Sys2Proof.Machine
end

section
/-! PROOF. The frames of the submission, admin, log, firmware and media-work rows: each is the footprint of the row's effect. -/
namespace Sys2Proof.Machine

/-- Settles O56: each row by the footprint of its effect. -/
theorem hostFrames : Obligations.HostFrames := by
  unfold Obligations.HostFrames
  refine ⟨?_, ?_, ?_, ?_, ?_, ?_, ?_, ?_, ?_, ?_, ?_, ?_, ?_, ?_, ?_, ?_, ?_, ?_, ?_, ?_, ?_, ?_, ?_, ?_, ?_, ?_, ?_, ?_, ?_, ?_,
    ?_, ?_, ?_, ?_, ?_, ?_, ?_, ?_, ?_, ?_, ?_, ?_, ?_, ?_, ?_, ?_, ?_, ?_, ?_, ?_, ?_, ?_, ?_, ?_, ?_, ?_, ?_⟩
  · exact fun a b c d => changes_of_keep fun s => ⟨_, rfl, fun d => keep_adminDo (by decide) _ _ _ _ _ _ fun d => keep_saDownload
      (by decide) ..⟩
  · exact fun a b => changes_of_keep fun s => ⟨_, rfl, fun d => keep_adminDo (by decide) _ _ _ _ _ _ fun d => keep_saStart (by
      decide) ..⟩
  · exact fun a b => changes_of_keep fun s => ⟨_, rfl, fun d => keep_adminDo (by decide) _ _ _ _ _ _ fun d => keep_saAbort (by
      decide) ..⟩
  · exact changes_of_keep fun s => ⟨_, rfl, fun d => keep_saVerified (by decide) ..⟩
  · exact changes_of_keep fun s => ⟨_, rfl, fun d => keep_saWritten (by decide) ..⟩
  · exact changes_of_keep fun s => ⟨_, rfl, fun d => keep_saDrained (by decide) ..⟩
  · exact fun a => changes_of_keep fun s => ⟨_, execFetchResume.eq_def a s, fun d => by simp +decide only [↓keep_setFlag,
      ↓keep_updPort, ↓keep_ite, ite_self]⟩
  · exact fun a b c d e f => changes_of_keep fun s => ⟨_, rfl, fun d => keep_submit (by decide) ..⟩
  · exact fun a b c d e f g => changes_of_keep fun s => ⟨_, rfl, fun d => keep_submit (by decide) ..⟩
  · exact fun a b c d e => changes_of_keep fun s => ⟨_, rfl, fun d => keep_submit (by decide) ..⟩
  · exact fun a b c d => changes_of_keep fun s => ⟨_, rfl, fun d => keep_submit (by decide) ..⟩
  · exact fun a b c d e => changes_of_keep fun s => ⟨_, rfl, fun d => keep_submit (by decide) ..⟩
  · exact fun a b c d => changes_of_keep fun s => ⟨_, rfl, fun d => keep_submit (by decide) ..⟩
  · exact fun a b c d e f => changes_of_keep fun s => ⟨_, rfl, fun d => keep_submit (by decide) ..⟩
  · exact fun a b c d e f => changes_of_keep fun s => ⟨_, rfl, fun d => by simp +decide only [↓keep_submit]⟩
  · exact fun a b c d e f g => changes_of_keep fun s => ⟨_, rfl, fun d => keep_submit (by decide) ..⟩
  · exact fun a b c d e f => changes_of_keep fun s => ⟨_, rfl, fun d => keep_submit (by decide) ..⟩
  · exact fun a b c d e f => changes_of_keep fun s => ⟨_, rfl, fun d => keep_submit (by decide) ..⟩
  · exact fun a b c d e f => changes_of_keep fun s => ⟨_, rfl, fun d => keep_submit (by decide) ..⟩
  · exact fun a b c d e f => changes_of_keep fun s => ⟨_, rfl, fun d => keep_submit (by decide) ..⟩
  · exact fun a b c d e f => changes_of_keep fun s => ⟨_, rfl, fun d => keep_submit (by decide) ..⟩
  · exact fun a b c d e => changes_of_keep fun s => ⟨_, rfl, fun d => keep_submit (by decide) ..⟩
  · exact fun a b c d => changes_of_keep fun s => ⟨_, rfl, fun d => keep_submit (by decide) ..⟩
  · exact fun a b => changes_of_keep fun s => ⟨_, rfl, fun d => keep_flushFallback (by decide) ..⟩
  · exact fun a b c => changes_of_keep fun s => ⟨_, rfl, fun d => keep_adminDo (by decide) _ _ _ _ _ _ fun d => keep_nsCreate (by
      decide) ..⟩
  · exact fun a b c d e => changes_of_keep fun s => ⟨_, rfl, fun d => keep_adminDo (by decide) _ _ _ _ _ _ fun d => keep_nsAttach
      (by decide) ..⟩
  · exact fun a b c d => changes_of_keep fun s => ⟨_, rfl, fun d => keep_adminDo (by decide) _ _ _ _ _ _ fun d => keep_setQueues
      (by decide) ..⟩
  · exact fun a b c d e f g => changes_of_keep fun s => ⟨_, rfl, fun d => keep_adminDo (by decide) _ _ _ _ _ _ fun d =>
      keep_createQueue (by decide) ..⟩
  · exact fun a b c d => changes_of_keep fun s => ⟨_, rfl, fun d => keep_adminDo (by decide) _ _ _ _ _ _ fun d => keep_setPs (by
      decide) ..⟩
  · exact fun a b c d e => changes_of_keep fun s => ⟨_, rfl, fun d => keep_adminDo (by decide) _ _ _ _ _ _ fun d =>
      keep_setThreshold (by decide) ..⟩
  · exact fun a b c d => changes_of_keep fun s => ⟨_, rfl, fun d => keep_adminDo (by decide) _ _ _ _ _ _ fun d => keep_setCurve
      (by decide) ..⟩
  · exact fun a b => changes_of_keep fun s => ⟨_, rfl, fun d => keep_adminDo (by decide) _ _ _ _ _ _ fun d => keep_getCurve (by
      decide) ..⟩
  · exact fun a b => changes_of_keep fun s => ⟨_, rfl, fun d => keep_adminDo (by decide) _ _ _ _ _ _ fun d => keep_getBound (by
      decide) ..⟩
  · exact fun a b => changes_of_keep fun s => ⟨_, execSetFeaturesDirtyBound.eq_def a b s, fun d => by simp +decide only
      [↓keep_adminDo, ↓keep_adminEnd, implies_true]⟩
  · exact fun a b c d e => changes_of_keep fun s => ⟨_, rfl, fun d => keep_adminDo (by decide) _ _ _ _ _ _ fun d => keep_logCard
      (by decide) ..⟩
  · exact fun a b => changes_of_keep fun s => ⟨_, execGetLogChainTopology.eq_def a b s, fun d => by simp +decide only
      [↓keep_adminDo, ↓keep_adminPage, implies_true]⟩
  · exact fun a b c => changes_of_keep fun s => ⟨_, rfl, fun d => keep_adminDo (by decide) _ _ _ _ _ _ fun d => keep_logDetention
      (by decide) ..⟩
  · exact fun a b => changes_of_keep fun s => ⟨_, rfl, fun d => by simp +decide only [↓keep_adminDo, ↓keep_adminPage,
      implies_true]⟩
  · exact fun a b => changes_of_keep fun s => ⟨_, execGetLogTelemetry.eq_def a b s, fun d => by simp +decide only [↓keep_adminDo,
      ↓keep_adminPage, implies_true]⟩
  · exact fun a b => changes_of_keep fun s => ⟨_, execGetLogSmartHealth.eq_def a b s, fun d => by simp +decide only
      [↓keep_adminDo, ↓keep_adminPage, implies_true]⟩
  · exact fun a b => changes_of_keep fun s => ⟨_, rfl, fun d => keep_adminDo (by decide) _ _ _ _ _ _ fun d => keep_eventRequest
      (by decide) ..⟩
  · exact fun a => changes_of_keep fun s => ⟨_, execControllerEnable.eq_def a s, fun d => by simp +decide only [↓keep_updPort,
      ↓keep_ite, ite_self]⟩
  · exact fun a => changes_of_keep fun s => ⟨_, rfl, fun d => keep_controllerReady (by decide) ..⟩
  · exact fun a b => changes_of_keep fun s => ⟨_, execShutdownNotification.eq_def a b s, fun d => by simp +decide only
      [↓keep_destageAll, ↓keep_updPort, ↓keep_ite, ite_self]⟩
  · exact fun a => changes_of_keep fun s => ⟨_, execShutdownComplete.eq_def a s, fun d => by simp +decide only [↓keep_updPort,
      ↓keep_ite, ite_self]⟩
  · exact fun a b c d => changes_of_keep fun s => ⟨_, rfl, fun d => keep_adminDo (by decide) _ _ _ _ _ _ fun d => keep_fwDownload
      (by decide) ..⟩
  · exact fun a b c d => changes_of_keep fun s => ⟨_, rfl, fun d => by simp +decide only [↓keep_adminDo, ↓keep_fwCommit,
      implies_true]⟩
  · exact changes_of_keep fun s => ⟨_, rfl, fun d => keep_fwTimeout (by decide) ..⟩
  · exact fun a b c d e f g h j k l m => changes_of_keep fun s => ⟨_, rfl, fun d => keep_submit (by decide) ..⟩
  · exact fun a b c d e f g h => changes_of_keep fun s => ⟨_, rfl, fun d => keep_submit (by decide) ..⟩
  · exact fun a b c d e => changes_of_keep fun s => ⟨_, rfl, fun d => keep_submit (by decide) ..⟩
  · exact fun a b c d e f => changes_of_keep fun s => ⟨_, rfl, fun d => keep_submit (by decide) ..⟩
  · exact fun a b c => changes_of_keep fun s => ⟨_, rfl, fun d => keep_cleaningStart (by decide) ..⟩
  · exact fun a => changes_of_keep fun s => ⟨_, rfl, fun d => keep_mapCheckpoint (by decide) ..⟩
  · exact fun a => changes_of_keep fun s => ⟨_, rfl, fun d => keep_mapLoad (by decide) ..⟩
  · exact fun a b c d => changes_of_keep fun s => ⟨_, rfl, fun d => keep_homeworkRead (by decide) ..⟩
  · exact fun a b => changes_of_keep fun s => ⟨_, rfl, fun d => keep_homeworkRewrite (by decide) ..⟩

end Sys2Proof.Machine
end

section
/-! PROOF. The frames of the compression, cipher, key, TCG, Sanitize and map-cache rows: each is the footprint of the row's effect. -/
namespace Sys2Proof.Machine

/-- Settles O57: each row by the footprint of its effect. -/
theorem keyFrames : Obligations.KeyFrames := by
  unfold Obligations.KeyFrames
  refine ⟨?_, ?_, ?_, ?_, ?_, ?_, ?_, ?_, ?_, ?_, ?_, ?_, ?_, ?_, ?_, ?_, ?_, ?_, ?_, ?_, ?_, ?_, ?_, ?_, ?_, ?_, ?_, ?_, ?_, ?_,
    ?_, ?_, ?_, ?_, ?_, ?_, ?_, ?_⟩
  · exact fun a => changes_of_keep fun s => ⟨_, rfl, fun d => keep_chunkDispatch (by decide) ..⟩
  · exact changes_of_keep fun s => ⟨_, rfl, fun d => keep_nonceReserve (by decide) ..⟩
  · exact changes_of_keep fun s => ⟨_, rfl, fun d => keep_nonceWritten (by decide) ..⟩
  · exact fun a b c d => changes_of_keep fun s => ⟨_, rfl, fun d => keep_keyInject (by decide) ..⟩
  · exact fun a => changes_of_keep fun s => ⟨_, rfl, fun d => keep_slotRetired (by decide) ..⟩
  · exact fun a b => changes_of_keep fun s => ⟨_, rfl, fun d => keep_rangeUnlock (by decide) ..⟩
  · exact fun a => changes_of_keep fun s => ⟨_, rfl, fun d => keep_rangeLock (by decide) ..⟩
  · exact fun a => changes_of_keep fun s => ⟨_, rfl, fun d => keep_rangeKekZero (by decide) ..⟩
  · exact fun a b => changes_of_keep fun s => ⟨_, rfl, fun d => keep_contextSave (by decide) ..⟩
  · exact fun a b => changes_of_keep fun s => ⟨_, rfl, fun d => keep_contextRestore (by decide) ..⟩
  · exact fun a b c => changes_of_keep fun s => ⟨_, rfl, fun d => keep_setCountermeasures (by decide) ..⟩
  · exact fun a b => changes_of_keep fun s => ⟨_, rfl, fun d => keep_keyInvalidate (by decide) ..⟩
  · exact changes_of_keep fun s => ⟨_, rfl, fun d => keep_keyDropDone (by decide) ..⟩
  · exact changes_of_keep fun s => ⟨_, execDrbgReseed.eq_def s, fun d => by simp +decide only [↓keep_setFlag, ↓keep_updCipher]⟩
  · exact changes_of_keep fun s => ⟨_, execEntropyHealthFail.eq_def s, fun d => by simp +decide only [↓keep_setFlag]⟩
  · exact changes_of_keep fun s => ⟨_, rfl, fun d => keep_sanitizeStep (by decide) ..⟩
  · exact fun a b => changes_of_keep fun s => ⟨_, rfl, fun d => by simp +decide only [↓keep_tcgRow, ↓keep_adminEnd,
      ↓keep_tcgAnswer, ↓keep_draw, ↓keep_ite, ite_self, implies_true]⟩
  · exact fun a b c => changes_of_keep fun s => ⟨_, rfl, fun d => by simp +decide only [↓keep_tcgRow, ↓keep_adminEnd,
      ↓keep_tcgAnswer, ↓keep_authenticate, ↓keep_setTcg, ↓keep_ite, ite_self, implies_true]⟩
  · intro a b
    refine changes_of_keep fun s => ⟨_, execTcgEndSession.eq_def a b s, fun d => ?_⟩
    refine keep_tcgRow (by decide) _ _ _ _ fun d => keep_inSession (by decide) _ _ _ _ fun d => ?_
    simp +decide only [↓keep_tcgAnswer, ↓keep_setTcg]
  · intro a b c
    refine changes_of_keep fun s => ⟨_, execTcgAuthenticate.eq_def a b c s, fun d => ?_⟩
    refine keep_tcgRow (by decide) _ _ _ _ fun d => keep_inSession (by decide) _ _ _ _ fun d => ?_
    simp +decide only [↓keep_tcgAnswer, ↓keep_authenticate, ↓keep_ite, ite_self]
  · intro a b c
    refine changes_of_keep fun s => ⟨_, execTcgGet.eq_def a b c s, fun d => ?_⟩
    refine keep_tcgRow (by decide) _ _ _ _ fun d => keep_inSession (by decide) _ _ _ _ fun d => ?_
    refine keep_ite_of (by simp +decide only [↓keep_tcgAnswer])
      (keep_ite_of (by simp +decide only [↓keep_tcgAnswer])
      ?_)
    split
    · simp +decide only [↓keep_tcgAnswer]
    · simp +decide only [↓keep_tcgAnswer]
  · intro a b c
    refine changes_of_keep fun s => ⟨_, execTcgSet.eq_def a b c s, fun d => ?_⟩
    refine keep_tcgRow (by decide) _ _ _ _ fun d => keep_inSession (by decide) _ _ _ _ fun d => ?_
    refine keep_ite_of (by simp +decide only [↓keep_tcgAnswer]) (keep_ite_of (by simp +decide only [↓keep_tcgAnswer]) (keep_ite_of (by
      simp +decide only [↓keep_tcgAnswer, ↓keep_updCipher,
      ↓keep_ite, ite_self]) ?_))
    split
    · simp +decide only [↓keep_tcgAnswer, ↓keep_setLocks, ↓keep_defineRange, ↓keep_ite, ite_self]
    · simp +decide only [↓keep_tcgAnswer, ↓keep_setLocks, ↓keep_ite, ite_self]
  · intro a b c
    refine changes_of_keep fun s => ⟨_, execTcgGenkey.eq_def a b c s, fun d => ?_⟩
    refine keep_tcgRow (by decide) _ _ _ _ fun d => keep_inSession (by decide) _ _ _ _ fun d => ?_
    simp +decide only [↓keep_tcgAnswer, ↓keep_replaceRange, ↓keep_ite, ite_self]
  · intro a b c
    refine changes_of_keep fun s => ⟨_, execTcgErase.eq_def a b c s, fun d => ?_⟩
    refine keep_tcgRow (by decide) _ _ _ _ fun d => keep_inSession (by decide) _ _ _ _ fun d => ?_
    simp +decide only [↓keep_tcgAnswer, ↓keep_replaceRange, ↓keep_ite, ite_self]
  · intro a b c
    refine changes_of_keep fun s => ⟨_, execTcgRandom.eq_def a b c s, fun d => ?_⟩
    refine keep_tcgRow (by decide) _ _ _ _ fun d => keep_inSession (by decide) _ _ _ _ fun d => ?_
    simp +decide only [↓keep_tcgAnswer, ↓keep_draw, ↓keep_updCipher, ↓keep_ite, ite_self]
  · exact fun a => changes_of_keep fun s => ⟨_, rfl, fun d => keep_mapPrefetch (by decide) ..⟩
  · exact fun a b => changes_of_keep fun s => ⟨_, rfl, fun d => keep_maintStart (by decide) ..⟩
  · exact fun a b => changes_of_keep fun s => ⟨_, rfl, fun d => keep_maintStart (by decide) ..⟩
  · exact fun a b => changes_of_keep fun s => ⟨_, rfl, fun d => keep_maintStart (by decide) ..⟩
  · exact changes_of_keep fun s => ⟨_, rfl, fun d => keep_maintDone (by decide) ..⟩
  · exact fun a => changes_of_keep fun s => ⟨_, rfl, fun d => keep_mapEnable (by decide) ..⟩
  · exact fun a => changes_of_keep fun s => ⟨_, rfl, fun d => keep_mapDisable (by decide) ..⟩
  · exact changes_of_keep fun s => ⟨_, rfl, fun d => keep_disableComplete (by decide) ..⟩
  · exact fun a b => changes_of_keep fun s => ⟨_, rfl, fun d => by simp +decide only [↓keep_writeGroups]⟩
  · exact fun a b => changes_of_keep fun s => ⟨_, rfl, fun d => by simp +decide only [↓keep_writeGroups]⟩
  · intro a b c
    refine changes_of_keep fun s => ⟨_, execMapGroupRestore.eq_def a b c s, fun d => ?_⟩
    simp +decide only [↓keep_writeGroups, ↓keep_ite, ite_self]
  · exact fun a => changes_of_keep_mem (fun s => ⟨_, rfl, fun d _ => keep_groupDone (by decide) ..⟩) (by decide)
  · exact fun a b c d => changes_of_keep_mem (fun s => ⟨_, rfl, fun d _ => by simp +decide only [↓keep_scratchAccess]⟩) (by decide)

end Sys2Proof.Machine
end

section
/-! PROOF. The frames of the Lomey Link, Roll Call and attestation rows: each is the footprint of the row's effect. -/
namespace Sys2Proof.Machine

/-- Settles O58: each row by the footprint of its effect. -/
theorem chainFrames : Obligations.ChainFrames := by
  unfold Obligations.ChainFrames
  refine ⟨?_, ?_, ?_, ?_, ?_, ?_, ?_, ?_, ?_, ?_, ?_, ?_, ?_, ?_, ?_, ?_, ?_, ?_, ?_, ?_, ?_, ?_, ?_, ?_, ?_, ?_, ?_, ?_, ?_, ?_,
    ?_, ?_⟩
  · exact fun a b c d e f => changes_of_keep fun s => ⟨_, rfl, fun d => keep_trainingDone (by decide) ..⟩
  · exact fun a => changes_of_keep fun s => ⟨_, rfl, fun d => keep_rateFallback (by decide) ..⟩
  · exact fun a => changes_of_keep fun s => ⟨_, execLinkAckTimer.eq_def a s, fun d => by simp +decide only [↓keep_sendFlit,
      ↓keep_ite, ite_self]⟩
  · exact fun a => changes_of_keep fun s => ⟨_, execLinkCreditTimer.eq_def a s, fun d => by simp +decide only [↓keep_sendFlit,
      ↓keep_ite, ite_self]⟩
  · exact fun a => changes_of_keep fun s => ⟨_, execLinkRetrain.eq_def a s, fun d => by simp +decide only [↓keep_wr,
      ↓keep_setFlag, ↓keep_ite, ite_self]⟩
  · exact fun a => changes_of_keep fun s => ⟨_, execSecureWaitTimeout.eq_def a s, fun d => by simp +decide only [↓keep_portDown,
      ↓keep_ite, ite_self]⟩
  · exact fun a b c d => changes_of_keep fun s => ⟨_, rfl, fun d => keep_secureUp (by decide) ..⟩
  · exact fun a => changes_of_keep fun s => ⟨_, execSessionKeyUpdateDue.eq_def a s, fun d => by simp +decide only
      [↓keep_sendLocal, ↓keep_updLport, ↓keep_ite, ite_self]⟩
  · exact fun a b => changes_of_keep fun s => ⟨_, execDedupeExpiry.eq_def a b s, fun d => by simp +decide only [↓keep_syncDedup,
      ↓keep_updChain]⟩
  · exact fun a => changes_of_keep fun s => ⟨_, rfl, fun d => keep_rollStart (by decide) ..⟩
  · exact changes_of_keep fun s => ⟨_, execAnnounceTimeout.eq_def s, fun d => by simp +decide only [↓keep_announceEnd,
      ↓keep_surveyEnd, ↓keep_ite, ite_self]⟩
  · exact fun a b c => changes_of_keep fun s => ⟨_, rfl, fun d => keep_announceHeard (by decide) ..⟩
  · exact fun a b c d => changes_of_keep fun s => ⟨_, rfl, fun d => keep_probeHeard (by decide) ..⟩
  · exact fun a b c d e f g h j => changes_of_keep fun s => ⟨_, rfl, fun d => keep_reportHeard (by decide) ..⟩
  · exact fun a b c => changes_of_keep fun s => ⟨_, rfl, fun d => keep_assignHeard (by decide) ..⟩
  · exact fun a b => changes_of_keep fun s => ⟨_, rfl, fun d => keep_doneHeard (by decide) ..⟩
  · exact fun a b c d => changes_of_keep fun s => ⟨_, rfl, fun d => keep_noticeHeard (by decide) ..⟩
  · exact fun a b c => changes_of_keep fun s => ⟨_, rfl, fun d => by simp +decide only [↓keep_routeHeard]⟩
  · exact fun a b => changes_of_keep fun s => ⟨_, rfl, fun d => by simp +decide only [↓keep_spdmRow, ↓keep_spdmMessage,
      implies_true]⟩
  · exact fun a => changes_of_keep fun s => ⟨_, rfl, fun d => keep_spdmRow (by decide) _ _ _ fun d => keep_getVersion (by decide)
      ..⟩
  · exact fun a => changes_of_keep fun s => ⟨_, rfl, fun d => keep_spdmRow (by decide) _ _ _ fun d => keep_getCapabilities (by
      decide) ..⟩
  · exact fun a b => changes_of_keep fun s => ⟨_, rfl, fun d => keep_spdmRow (by decide) _ _ _ fun d => keep_negotiate (by decide)
      ..⟩
  · exact fun a => changes_of_keep fun s => ⟨_, rfl, fun d => keep_spdmRow (by decide) _ _ _ fun d => keep_getDigests (by decide)
      ..⟩
  · exact fun a b => changes_of_keep fun s => ⟨_, rfl, fun d => keep_spdmRow (by decide) _ _ _ fun d => keep_getCertificate (by
      decide) ..⟩
  · exact fun a b c => changes_of_keep fun s => ⟨_, rfl, fun d => keep_spdmRow (by decide) _ _ _ fun d => keep_challenge (by
      decide) ..⟩
  · exact fun a b => changes_of_keep fun s => ⟨_, rfl, fun d => keep_spdmRow (by decide) _ _ _ fun d => keep_getMeasurements (by
      decide) ..⟩
  · exact fun a b => changes_of_keep fun s => ⟨_, rfl, fun d => keep_spdmRow (by decide) _ _ _ fun d => keep_keyExchange (by
      decide) ..⟩
  · exact fun a b => changes_of_keep fun s => ⟨_, rfl, fun d => keep_spdmRow (by decide) _ _ _ fun d => keep_finishSession (by
      decide) ..⟩
  · exact fun a => changes_of_keep fun s => ⟨_, rfl, fun d => keep_spdmRow (by decide) _ _ _ fun d => keep_heartbeat (by decide)
      ..⟩
  · exact fun a b => changes_of_keep fun s => ⟨_, rfl, fun d => keep_spdmRow (by decide) _ _ _ fun d => keep_keyUpdate (by decide)
      ..⟩
  · exact fun a => changes_of_keep fun s => ⟨_, rfl, fun d => keep_spdmRow (by decide) _ _ _ fun d => keep_endSession (by decide)
      ..⟩
  · exact fun a b => changes_of_keep fun s => ⟨_, rfl, fun d => keep_miMessage (by decide) ..⟩

end Sys2Proof.Machine
end

section
/-! PROOF. The frames of the rows that complete or move host commands and link transactions: each is the footprint of the row's effect. -/
namespace Sys2Proof.Machine

/-- Settles O59: each row by the footprint of its effect. -/
theorem commandFrames : Obligations.CommandFrames := by
  unfold Obligations.CommandFrames
  refine ⟨?_, ?_, ?_, ?_, ?_, ?_, ?_, ?_, ?_, ?_, ?_, ?_, ?_, ?_, ?_, ?_, ?_, ?_, ?_, ?_, ?_, ?_, ?_, ?_, ?_, ?_, ?_, ?_, ?_, ?_,
    ?_, ?_, ?_, ?_, ?_, ?_, ?_, ?_, ?_, ?_, ?_, ?_, ?_, ?_, ?_, ?_, ?_, ?_, ?_⟩
  · exact fun a b c => changes_of_keep fun s => ⟨_, rfl, fun d => keep_transferComplete (by decide) ..⟩
  · exact fun a => changes_of_keep fun s => ⟨_, rfl, fun d => keep_commandFetch (by decide) ..⟩
  · exact fun a => changes_of_keep fun s => ⟨_, rfl, fun d => keep_insertFrom (by decide) ..⟩
  · exact fun a => changes_of_keep fun s => ⟨_, rfl, fun d => keep_insertFrom (by decide) ..⟩
  · exact fun a => changes_of_keep fun s => ⟨_, rfl, fun d => keep_lockGrant (by decide) ..⟩
  · exact fun a b c => changes_of_keep fun s => ⟨_, rfl, fun d => keep_dataBuffered (by decide) ..⟩
  · exact fun a => changes_of_keep fun s => ⟨_, execWriteCoverage.eq_def a s, fun d => by simp +decide only [↓keep_pressWriters,
      ↓keep_coverNext]⟩
  · exact fun a => changes_of_keep fun s => ⟨_, rfl, fun d => keep_latencyExpiry (by decide) ..⟩
  · exact fun a b => changes_of_keep fun s => ⟨_, execMediaTaskEnd.eq_def a b s, fun d => keep_mediaTaskEnd (by decide) ..⟩
  · exact fun a => changes_of_keep fun s => ⟨_, rfl, fun d => keep_flushComplete (by decide) ..⟩
  · exact fun a b c d => changes_of_keep fun s => ⟨_, rfl, fun d => keep_adminDo (by decide) _ _ _ _ _ _ fun d => keep_abort (by
      decide) ..⟩
  · exact fun a b c => changes_of_keep fun s => ⟨_, rfl, fun d => keep_adminDo (by decide) _ _ _ _ _ _ fun d => keep_nsDelete (by
      decide) ..⟩
  · exact fun a b c d => changes_of_keep fun s => ⟨_, rfl, fun d => keep_adminDo (by decide) _ _ _ _ _ _ fun d => keep_identify
      (by decide) ..⟩
  · exact fun a b c => changes_of_keep fun s => ⟨_, rfl, fun d => keep_adminDo (by decide) _ _ _ _ _ _ fun d => keep_setCache (by
      decide) ..⟩
  · exact fun a b c d => changes_of_keep fun s => ⟨_, rfl, fun d => keep_adminDo (by decide) _ _ _ _ _ _ fun d => keep_setLatency
      (by decide) ..⟩
  · exact fun a b c => changes_of_keep fun s => ⟨_, rfl, fun d => keep_adminDo (by decide) _ _ _ _ _ _ fun d => keep_getLatency
      (by decide) ..⟩
  · exact fun a b => changes_of_keep fun s => ⟨_, rfl, fun d => keep_controllerReset (by decide) ..⟩
  · exact changes_of_keep fun s => ⟨_, execNvmSubsystemReset.eq_def s, fun d => by simp +decide only [↓keep_controllerReset,
      ↓keep_forEach, implies_true]⟩
  · exact fun a => changes_of_keep fun s => ⟨_, rfl, fun d => keep_contextGrant (by decide) ..⟩
  · exact fun a b c => changes_of_keep fun s => ⟨_, rfl, fun d => keep_chunkCompressed (by decide) ..⟩
  · exact fun a => changes_of_keep fun s => ⟨_, rfl, fun d => keep_framePlacement (by decide) ..⟩
  · exact fun a b c => changes_of_keep fun s => ⟨_, rfl, fun d => keep_decompressionDone (by decide) ..⟩
  · exact fun a b c => changes_of_keep fun s => ⟨_, rfl, fun d => keep_gcmJobDone (by decide) ..⟩
  · exact fun a b c => changes_of_keep fun s => ⟨_, rfl, fun d => keep_keyCacheFill (by decide) ..⟩
  · exact fun a b c d e f => changes_of_keep fun s => ⟨_, rfl, fun d => keep_adminDo (by decide) _ _ _ _ _ _ fun d =>
      keep_sanitize (by decide) ..⟩
  · exact fun a b c d => changes_of_keep fun s => ⟨_, rfl, fun d => keep_mapLookup (by decide) ..⟩
  · exact fun a => changes_of_keep fun s => ⟨_, rfl, fun d => keep_mapFillDone (by decide) ..⟩
  · exact changes_of_keep fun s => ⟨_, rfl, fun d => keep_recomputeBound (by decide) ..⟩
  · exact fun a b c d e => changes_of_keep fun s => ⟨_, execLinkControlFlit.eq_def a b c d e s, fun d => by simp +decide only
      [↓keep_settleChain, ↓keep_flitArrived]⟩
  · exact fun a b c => changes_of_keep fun s => ⟨_, execLomeyFrameReceived.eq_def a b c s, fun d => by simp +decide only
      [↓keep_settleChain, ↓keep_frameReceived]⟩
  · exact fun a => changes_of_keep fun s => ⟨_, execLinkReplayTimeout.eq_def a s, fun d => by simp +decide only
      [↓keep_settleChain, ↓keep_replayOldest, ↓keep_ite, ite_self]⟩
  · intro a b
    refine changes_of_keep fun s => ⟨_, execBudgetExpiry.eq_def a b s, fun d => ?_⟩
    split
    · rfl
    · simp +decide only [↓keep_settleChain, ↓keep_pumpPort, ↓keep_dropFrame, ↓keep_updLport]
  · exact fun a => changes_of_keep fun s => ⟨_, execRetrainComplete.eq_def a s, fun d => by simp +decide only [↓keep_wr,
      ↓keep_setFlag, ↓keep_settleChain, ↓keep_replayOldest, ↓keep_ite, ite_self]⟩
  · exact fun a => changes_of_keep fun s => ⟨_, execRetrainTimeout.eq_def a s, fun d => by simp +decide only [↓keep_settleChain,
      ↓keep_portDead, ↓keep_ite, ite_self]⟩
  · exact fun a => changes_of_keep fun s => ⟨_, execRoutingRestore.eq_def a s, fun d => by simp +decide only [↓keep_settleChain,
      ↓keep_routingRestore]⟩
  · exact fun a b => changes_of_keep fun s => ⟨_, execLomeyCmd.eq_def a b s, fun d => by simp +decide only [↓keep_settleChain,
      ↓keep_cmdArrived]⟩
  · exact fun a b => changes_of_keep fun s => ⟨_, execLomeyAck.eq_def a b s, fun d => by simp +decide only [↓keep_settleChain,
      ↓keep_ackArrived]⟩
  · exact fun a b => changes_of_keep fun s => ⟨_, execLomeyXrdy.eq_def a b s, fun d => by simp +decide only [↓keep_settleChain,
      ↓keep_xrdyArrived]⟩
  · exact fun a b => changes_of_keep fun s => ⟨_, execLomeyWdata.eq_def a b s, fun d => by simp +decide only [↓keep_settleChain,
      ↓keep_wdataArrived]⟩
  · exact fun a b => changes_of_keep fun s => ⟨_, execLomeyRdata.eq_def a b s, fun d => by simp +decide only [↓keep_settleChain,
      ↓keep_rdataArrived]⟩
  · exact fun a b => changes_of_keep fun s => ⟨_, execLomeyCpl.eq_def a b s, fun d => by simp +decide only [↓keep_settleChain,
      ↓keep_cplArrived]⟩
  · exact fun a b => changes_of_keep fun s => ⟨_, execLomeyProg.eq_def a b s, fun d => by simp +decide only [↓keep_settleChain,
      ↓keep_ackArrived]⟩
  · exact fun a b => changes_of_keep fun s => ⟨_, execLomeyCancel.eq_def a b s, fun d => by simp +decide only [↓keep_settleChain,
      ↓keep_cancelArrived]⟩
  · exact fun a b => changes_of_keep fun s => ⟨_, execLomeyNak.eq_def a b s, fun d => by simp +decide only [↓keep_settleChain,
      ↓keep_nakArrived]⟩
  · intro a b
    refine changes_of_keep fun s => ⟨_, execProgTimer.eq_def a b s, fun d => ?_⟩
    split
    · simp +decide only [↓keep_settleChain, ↓keep_answer, ↓keep_ite, ite_self]
    · rfl
  · intro a
    refine changes_of_keep fun s => ⟨_, execCmdRetryTimer.eq_def a s, fun d => ?_⟩
    split
    · simp +decide only [↓keep_settleChain, ↓keep_cmdRetry, ↓keep_ite, ite_self]
    · rfl
  · intro a
    refine changes_of_keep fun s => ⟨_, execIdleTimer.eq_def a s, fun d => ?_⟩
    split
    · simp +decide only [↓keep_settleChain, ↓keep_cmdRetry, ↓keep_ite, ite_self]
    · rfl
  · exact fun a b => changes_of_keep fun s => ⟨_, execXrdyRetryTimer.eq_def a b s, fun d => by simp +decide only
      [↓keep_settleChain, ↓keep_xrdyRetry]⟩
  · intro a
    refine changes_of_keep fun s => ⟨_, execBusyRetryTimer.eq_def a s, fun d => ?_⟩
    split
    · simp +decide only [↓keep_settleChain, ↓keep_originate, ↓keep_updTx, ↓keep_ite, ite_self]
    · rfl

end Sys2Proof.Machine
end

section
/-! PROOF. The frames of the rows that stop, start or retract: each is the footprint of the row's effect. -/
namespace Sys2Proof.Machine

set_option maxRecDepth 1024 in
/-- Settles O60: each row by the footprint of its effect. -/
theorem stopFrames : Obligations.StopFrames := by
  unfold Obligations.StopFrames
  refine ⟨?_, ?_, ?_, ?_, ?_, ?_, ?_, ?_, ?_, ?_, ?_, ?_, ?_, ?_, ?_, ?_, ?_, ?_, ?_, ?_, ?_, ?_, ?_, ?_, ?_, ?_, ?_, ?_, ?_, ?_,
    ?_, ?_, ?_, ?_, ?_, ?_, ?_, ?_, ?_, ?_, ?_, ?_, ?_, ?_, ?_⟩
  · intro a
    refine changes_of_keep fun s => ⟨_, execClockLockLost.eq_def a s, fun d => ?_⟩
    exact keep_clockLockLost (by decide) _ _
  · exact changes_of_keep_mem (fun s => ⟨_, rfl, fun d _ => keep_sramWipeDone (by decide) ..⟩) (by decide)
  · exact fun a => changes_of_keep_mem (fun s => ⟨_, rfl, fun d _ => keep_dramWipeDone (by decide) ..⟩) (by decide)
  · exact fun a => changes_of_keep fun s => ⟨_, rfl, fun d => keep_bootDone (by decide) ..⟩
  · exact changes_of_keep fun s => ⟨_, rfl, fun d => keep_saCommit (by decide) ..⟩
  · exact changes_of_keep_mem (fun s => ⟨_, rfl, fun d _ => keep_saRestructure (by decide) ..⟩) (by decide)
  · exact changes_of_keep fun s => ⟨_, rfl, fun d => keep_orderlyReset (by decide) ..⟩
  · exact fun a => changes_of_keep fun s => ⟨_, rfl, fun d => keep_stopFlushed (by decide) ..⟩
  · exact changes_of_keep fun s => ⟨_, rfl, fun d => keep_fwSwitch (by decide) ..⟩
  · exact fun a b c d e => changes_of_keep fun s => ⟨_, rfl, fun d => keep_servoSample (by decide) ..⟩
  · exact fun a b => changes_of_keep fun s => ⟨_, execLaneLostRetract.eq_def a b s, fun d => by simp +decide only
      [↓keep_recomputeBound, ↓keep_emergencyRetract, ↓keep_ite, ite_self]⟩
  · exact fun a b c d e f => changes_of_keep_mem (fun s => ⟨_, rfl, fun d _ => keep_outputInstant (by decide) ..⟩) (by decide)
  · exact fun a => changes_of_keep fun s => ⟨_, rfl, fun d => keep_overrunFault (by decide) ..⟩
  · exact fun a b => changes_of_keep fun s => ⟨_, execFirmwareRetract.eq_def a b s, fun d => by simp +decide only
      [↓keep_recomputeBound, ↓keep_emergencyRetract]⟩
  · exact fun a => changes_of_keep fun s => ⟨_, rfl, fun d => keep_retractRestart (by decide) ..⟩
  · exact fun a b c d e f => changes_of_keep fun s => ⟨_, execSpindleTick.eq_def a b c d e f s, fun d => by simp +decide only
      [↓keep_spindleTick, ↓keep_onSlot, implies_true]⟩
  · exact fun a b => changes_of_keep fun s => ⟨_, rfl, fun d => keep_spindleStart (by decide) ..⟩
  · exact fun a => changes_of_keep fun s => ⟨_, rfl, fun d => keep_spindleMode (by decide) ..⟩
  · exact fun a => changes_of_keep fun s => ⟨_, rfl, fun d => keep_spindleMode (by decide) ..⟩
  · exact fun a => changes_of_keep fun s => ⟨_, rfl, fun d => keep_spindleMode (by decide) ..⟩
  · exact fun a => changes_of_keep fun s => ⟨_, rfl, fun d => keep_spindleMode (by decide) ..⟩
  · exact fun a => changes_of_keep fun s => ⟨_, execOpenLoopHandover.eq_def a s, fun d => by simp +decide only
      [↓keep_recomputeBound, ↓keep_lockAt, ↓keep_ite, ite_self]⟩
  · exact fun a => changes_of_keep fun s => ⟨_, rfl, fun d => keep_rotorLost (by decide) ..⟩
  · exact fun a b => changes_of_keep fun s => ⟨_, rfl, fun d => keep_rotorRelock (by decide) ..⟩
  · exact fun a => changes_of_keep fun s => ⟨_, rfl, fun d => keep_catchTimeout (by decide) ..⟩
  · exact fun a => changes_of_keep fun s => ⟨_, execVbusOv2.eq_def a s, fun d => by simp +decide only [↓keep_vbusOv2,
      ↓keep_onSlot, implies_true]⟩
  · exact fun a => changes_of_keep fun s => ⟨_, execChopperFault.eq_def a s, fun d => by simp +decide only [↓keep_setFlag,
      ↓keep_recomputeBound, ↓keep_cardCount, ↓keep_onSlot, implies_true]⟩
  · exact fun a => changes_of_keep fun s => ⟨_, execPowerStageFault.eq_def a s, fun d => by simp +decide only [↓keep_stageFault,
      ↓keep_onSlot, implies_true]⟩
  · exact fun a b => changes_of_keep fun s => ⟨_, rfl, fun d => keep_fireDrillStart (by decide) ..⟩
  · exact fun a b => changes_of_keep fun s => ⟨_, rfl, fun d => keep_fireDrillFlushEnd (by decide) ..⟩
  · exact fun a b c d => changes_of_keep fun s => ⟨_, rfl, fun d => keep_loopSelect (by decide) ..⟩
  · intro s t hstalled ht
    have hnone : ((remapDone s.dev).power.stalled.any fun x => mayPerform (remapDone s.dev) x.2.1) = false := by
      rw [power_of_keep (keep_remapDone (ft := remapDoneFoot) (by decide) s.dev) (by decide), hstalled]
      rfl
    have hexec : exec .remapDone s = .next { s with dev := remapDone s.dev } := by
      simp only [exec, execRemapDone, liftMem, releaseReady_of_none_ready s.mem hnone]
    obtain rfl := Host.Outcome.next.inj (hexec.symm.trans ht)
    exact frame_of_keep rfl (keep_remapDone (by decide) _)
  · exact fun a => changes_of_keep fun s => ⟨_, rfl, fun d => by simp +decide only [↓keep_targetEvaluate]⟩
  · exact fun a b => changes_of_keep fun s => ⟨_, execHdaIdleTimeout.eq_def a b s, fun d => by simp +decide only
      [↓keep_evaluateHda, ↓keep_syncVotes, ↓keep_updPower, ↓keep_ite, ite_self]⟩
  · exact fun a b c => changes_of_keep fun s => ⟨_, rfl, fun d => keep_hdaStepEnd (by decide) ..⟩
  · intro a
    intro s t hstalled ht
    have hwake : domainWake a.val s.dev s.mem = (if domState s.dev a.val = 1 then setDom s.dev a.val 0 else s.dev, s.mem) := by
      have hnone : ((setDom s.dev a.val 0).power.stalled.any fun x => mayPerform (setDom s.dev a.val 0) x.2.1) = false := by
        rw [power_of_keep (keep_setDom (ft := setDomFoot) (by decide) s.dev a.val 0) (by decide), hstalled]
        rfl
      unfold domainWake
      split
      · exact releaseReady_of_none_ready s.mem hnone
      · rfl
    have hexec : exec (.domainWake a) s = .next { s with dev := if domState s.dev a.val = 1 then setDom s.dev a.val 0 else s.dev }
      := by
      simp only [exec, execDomainWake, liftMem, hwake]
    obtain rfl := Host.Outcome.next.inj (hexec.symm.trans ht)
    exact frame_of_keep rfl (keep_ite_of (keep_setDom (by decide) _ _ _) rfl)
  · exact fun a => changes_of_keep fun s => ⟨_, rfl, fun d => keep_thermalSample (by decide) ..⟩
  · exact fun a => changes_of_keep fun s => ⟨_, rfl, fun d => keep_hardwareTrip (by decide) ..⟩
  · exact fun a b c d => changes_of_keep fun s => ⟨_, rfl, fun d => keep_calDone (by decide) ..⟩
  · intro a b
    refine changes_of_keep fun s => ⟨_, execPermissionSlipSubmit.eq_def a b s, fun d => ?_⟩
    split
    · exact keep_adminDo (by decide) _ _ _ _ _ _ fun d => keep_slipSubmit (by decide) ..
    · simp +decide only [↓keep_slipSubmit, ↓keep_ite, ite_self]
  · refine changes_of_keep fun s => ⟨_, execLifeCycleBurn.eq_def s, fun d => ?_⟩
    split
    · rfl
    · simp +decide only [↓keep_burnAndReset, ↓keep_ite, ite_self]
  · exact fun a => changes_of_keep fun s => ⟨_, rfl, fun d => keep_productionProgram (by decide) ..⟩
  · exact fun a => changes_of_keep fun s => ⟨_, execSecurityFault.eq_def a s, fun d => by simp +decide only [↓keep_securityFault,
      ↓keep_ite, ite_self]⟩
  · exact changes_of_keep fun s => ⟨_, rfl, fun d => keep_postMortem (by decide) ..⟩
  · exact changes_of_keep fun s => ⟨_, execWatchdogExpiry.eq_def s, fun d => by simp +decide only [↓keep_postMortem, ↓keep_ite,
      ite_self]⟩

end Sys2Proof.Machine
end

section
/-! PROOF. Repetitions: what a view of the device reads after a list of steps. -/
namespace Sys2Proof.Machine

section
variable {α β : Type} {p : Dev → β} {l : List α} {g : Dev → α → Dev}

/-- What no step touches stays. -/
theorem forEach_keeps (h : ∀ e, ∀ x ∈ l, p (g e x) = p e) (d : Dev) : p (forEach l d g) = p d := by
  induction l generalizing d with
  | nil => rfl
  | cons x l ih => exact (ih (fun e y hy => h e y (by simp [hy])) (g d x)).trans (h d x (by simp))

/-- What only one step of the list touches is what that step leaves. -/
theorem forEach_touches {i : α} (hl : l.Nodup) (hi : i ∈ l) (hother : ∀ e, ∀ j ∈ l, j ≠ i → p (g e j) = p e) {v : β} {d : Dev}
    (hself : ∀ e, p e = p d → p (g e i) = v) : p (forEach l d g) = v := by
  induction l generalizing d with
  | nil => cases hi
  | cons x l ih =>
    obtain ⟨hx, hl⟩ := List.nodup_cons.1 hl
    by_cases hxi : x = i
    · subst hxi
      refine (forEach_keeps (p := p) (fun e y hy => ?_) (g d x)).trans (hself d rfl)
      exact hother e y (by simp [hy]) fun h => hx (h ▸ hy)
    · have hkept : p (g d x) = p d := hother d x (by simp) hxi
      have hmem : i ∈ l := by simpa [Ne.symm hxi] using hi
      exact ih hl hmem (fun e j hj => hother e j (by simp [hj])) fun e he => hself e (he.trans hkept)

/-- What every step keeps once it is reached, and the first step reaches, holds at the end. -/
theorem forEach_inv {P : Dev → Prop} (h : ∀ e, ∀ x ∈ l, P e → P (g e x)) {d : Dev} (hd : P d) : P (forEach l d g) := by
  induction l generalizing d with
  | nil => exact hd
  | cons x l ih => exact ih (fun e y hy => h e y (by simp [hy])) (h d x (by simp) hd)

end

/-! ### What the structure alone tells -/

section
variable {d e : Dev} (h : e.struct = d.struct)
include h

theorem section_of_struct (ty inst : Nat) : e.section ty inst = d.section ty inst := by simp only [Dev.section, h]

theorem secField_of_struct (ty inst off n : Nat) : e.secField ty inst off n = d.secField ty inst off n := by
  simp only [Dev.secField, section_of_struct h]

theorem hdaPresent_of_struct (n : Nat) : e.hdaPresent n = d.hdaPresent n := by simp only [Dev.hdaPresent, secField_of_struct h]

theorem actPresent_of_struct (a : Nat) : e.actPresent a = d.actPresent a := by
  simp only [Dev.actPresent, hdaPresent_of_struct h, secField_of_struct h]

theorem hdaHeads_of_struct (n : Nat) : e.hdaHeads n = d.hdaHeads n := by simp only [Dev.hdaHeads, secField_of_struct h]

theorem presentHdas_of_struct : presentHdas e = presentHdas d := by
  rw [presentHdas, funext (hdaPresent_of_struct h), presentHdas]

end

end Sys2Proof.Machine
end

section
/-! PROOF. Thermal rows (R368-R372, R375, R377). -/
namespace Sys2Proof.Machine

/-! ### Samples -/

/-- The readings, and the count of samples over the level shutdown. -/
def readings (d : Dev) : List (Nat × List Int) × Nat := (d.therm.raw, d.therm.hotFix)

theorem readings_of_keep {m : Nat} {d e : Dev} (h : keep m e = keep m d) (hpart : m.testBit Part.therm.ctorIdx = false) :
    readings e = readings d := by
  rw [readings, therm_of_keep h hpart, readings]

theorem readings_wrInt (d : Dev) (f : Fld) (v : Int) (i j : Nat) : readings (d.wrInt f v i j) = readings d := rfl

theorem readings_updateRegions (d : Dev) : readings (updateRegions d) = readings d := by
  unfold updateRegions
  extract_lets most e
  rw [readings_wrInt]
  refine forEach_keeps (p := readings) (fun d r _ => ?_) d
  extract_lets t h since d1 d2
  exact rfl

theorem readings_countDeviation (d : Dev) (i : Nat) : readings (countDeviation d i) = readings d := rfl

theorem readings_cardTemps (d : Dev) : readings (cardTemps d) = readings d :=
  readings_of_keep (keep_cardTemps (ft := cardTempsFoot) (by decide) d) (by decide)

theorem readings_newSetting (d : Dev) (kind inst : Nat) (setting : List Int) : readings (newSetting d kind inst setting) = readings d := by
  unfold newSetting
  extract_lets
  split <;> rfl

theorem readings_bandSettings (d : Dev) : readings (bandSettings d) = readings d := by
  refine forEach_keeps (fun e k _ => forEach_keeps (fun e i _ => ?_) e) d
  extract_lets kept
  split
  · rfl
  · exact readings_newSetting ..

theorem readings_regionDue (d : Dev) : readings (regionDue d) = readings d :=
  readings_of_keep (keep_regionDue (ft := regionDueFoot) (by decide) d) (by decide)

theorem readings_checkThresholds (d : Dev) : readings (checkThresholds d) = readings d := by
  refine forEach_keeps (fun e h _ => ?_) d
  split
  · split
    · rfl
    · exact (readings_of_keep (keep_postNotice (ft := postNoticeFoot) (by decide) _ h ntTemp) (by decide)).trans rfl
  · rfl

theorem readings_setStep (d : Dev) (step : Nat) : readings (setStep d step) = readings d := by
  unfold setStep
  extract_lets old e e'
  split
  · rfl
  · refine (readings_of_keep (keep_applyLimits (ft := applyLimitsFoot) (by decide) _) (by decide)).trans ?_
    exact (readings_of_keep (keep_wakeCs2 (ft := wakeCs2Foot) (by decide) (e'.emit _)) (by decide)).trans rfl

/-- Below the level shutdown, and outside phase NORMAL, a sample's checks step the throttle at most. -/
theorem thermalChecks_of_calm {d : Dev} (hphase : d.rd F.thmStat_phase ≠ 0) (hcount : d.therm.hotFix < 9) :
    d.therm.raw = (thermalChecks d).therm.raw ∧ ∀ i j, (thermalChecks d).rd F.thmSens_temp i j = d.rd F.thmSens_temp i j := by
  unfold thermalChecks
  extract_lets die d1 up d2 d3 fast
  have hd2 : readings d2 = (d.therm.raw, if d.rd F.thmCfg_fixed_shutdown ≠ 0 ∧ (d.rd F.thmCfg_fixed_shutdown * 16 : Nat) ≤ die
      then d.therm.hotFix + 1 else 0) := rfl
  have hd3 : readings d3 = readings d2 := by
    simp only [d3]
    split
    · exact readings_setStep ..
    · rfl
  have hphase3 : d3.rd F.thmStat_phase = d.rd F.thmStat_phase := by
    simp only [d3]
    split
    · exact rd_of_keep (keep_setStep (ft := setStepFoot) (by decide) ..) (by decide) _ _
    · rfl
  have htemp3 (i j : Nat) : d3.rd F.thmSens_temp i j = d.rd F.thmSens_temp i j := by
    simp only [d3]
    split
    · exact rd_of_keep (keep_setStep (ft := setStepFoot) (by decide) ..) (by decide) _ _
    · rfl
  have hslow : ¬fast := fun h => hphase (hphase3 ▸ h.1)
  have hcool : ¬10 ≤ d3.therm.hotFix := by
    have : d3.therm.hotFix = (readings d2).2 := congrArg Prod.snd hd3
    rw [this, hd2]
    dsimp only
    split <;> omega
  rw [if_neg hslow, if_neg hcool]
  exact ⟨(congrArg Prod.fst (hd3.trans hd2)).symm, htemp3⟩

/-- What a sample leaves of one sensor. -/
def sensorView (i : Nat) (d : Dev) : List Int × Nat := (tabGet [] d.therm.raw i, d.rd F.thmSens_temp 0 i)

/-- A reading puts the sensor's field to the mean of its last ten. -/
theorem sensorView_readSensor_self (d : Dev) {i : Nat} (t : Int) {raw : List Int} (hraw : raw = (t :: tabGet [] d.therm.raw i).take 10) :
    sensorView i (readSensor d i t) = (raw, toTwos F.thmSens_temp.w (raw.sum / raw.length) % 2 ^ F.thmSens_temp.w) := by
  subst hraw
  unfold readSensor
  extract_lets raw mean first e
  have he : sensorView i e = (raw, toTwos F.thmSens_temp.w mean % 2 ^ F.thmSens_temp.w) := by
    refine Prod.ext ?_ ?_
    · exact (tabGet_tabPut [] d.therm.raw i raw i).trans (if_pos rfl)
    · exact Dev.rd_wr_same _ _ _ _ _
  split
  · rw [← he]
    exact Prod.ext rfl (Dev.rd_wr_ne _ _ _ _ _ _ _ _ (by decide))
  · exact he

/-- A reading touches no other sensor. -/
theorem sensorView_readSensor_ne (d : Dev) {i j : Nat} (t : Int) (hj : j ≠ i) (hi : i < 28) (hj' : j < 28) :
    sensorView i (readSensor d j t) = sensorView i d := by
  unfold readSensor
  extract_lets raw mean first e
  have he : sensorView i e = sensorView i d := by
    refine Prod.ext ?_ ?_
    · exact (tabGet_tabPut [] d.therm.raw j raw i).trans (if_neg (Ne.symm hj))
    · have hidx : ¬(0 % 64 = 0 % 64 ∧ i % 1024 = j % 1024) := by omega
      exact (Dev.rd_wr_self ..).trans (if_neg hidx)
  split
  · rw [← he]
    exact Prod.ext rfl (Dev.rd_wr_ne _ _ _ _ _ _ _ _ (by decide))
  · exact he

/-- The footprint of a sample between its readings and its checks. -/
def sampleFoot : Nat := checkThresholdsFoot ||| regionDueFoot ||| bandSettingsFoot ||| cardTempsFoot ||| updateRegionsFoot

/-- The whole sample, outside phase NORMAL and below the level shutdown. -/
theorem thermalSample_sensor {d : Dev} (temps : List Int) {i : Nat} {raw : List Int} (hi : i < 28) (hheld : d.reset.held = false)
    (hphase : d.rd F.thmStat_phase ≠ 0) (hcount : d.therm.hotFix < 9)
    (hraw : raw = (temps.getD i 0 :: tabGet [] d.therm.raw i).take 10) : sensorView i (thermalSample temps d) =
      (raw, toTwos F.thmSens_temp.w (raw.sum / raw.length) % 2 ^ F.thmSens_temp.w) := by
  simp only [thermalSample, hheld, Bool.false_eq_true, if_false]
  generalize hread : forEach (List.range 28) d _ = d1
  have hview1 : sensorView i d1 = (raw, toTwos F.thmSens_temp.w (raw.sum / raw.length) % 2 ^ F.thmSens_temp.w) := by
    rw [← hread]
    refine forEach_touches List.nodup_range (List.mem_range.2 hi) (fun e j hj hne => ?_) fun e he => ?_
    · exact sensorView_readSensor_ne e _ hne hi (List.mem_range.1 hj)
    · refine sensorView_readSensor_self e _ ?_
      rw [hraw, show tabGet [] e.therm.raw i = tabGet [] d.therm.raw i from congrArg Prod.fst he]
  have hcount1 : (readings d1).2 = d.therm.hotFix := by
    rw [← hread]
    refine forEach_keeps (p := fun e => (readings e).2) (fun e j _ => ?_) d
    unfold readSensor
    extract_lets raw mean first e'
    split <;> rfl
  have hphase1 : d1.rd F.thmStat_phase = d.rd F.thmStat_phase := by
    rw [← hread]
    exact rd_of_keep (keep_forEach (m := readSensorFoot) _ _ _ fun _ _ => keep_readSensor (by decide) ..) (by decide) _ _
  generalize hlast : checkThresholds (regionDue (bandSettings (cardTemps
    (forEach (List.range 28) (updateRegions d1) countDeviation)))) = d2
  have hread2 : readings d2 = readings d1 := by
    rw [← hlast, readings_checkThresholds, readings_regionDue, readings_bandSettings, readings_cardTemps,
      forEach_keeps (p := readings) (g := countDeviation) fun _ _ _ => rfl, readings_updateRegions]
  have hkeep : keep sampleFoot d2 = keep sampleFoot d1 := by
    rw [← hlast]
    simp +decide only [↓keep_checkThresholds, ↓keep_regionDue, ↓keep_bandSettings, ↓keep_cardTemps, ↓keep_forEach,
      ↓keep_countDeviation, ↓keep_updateRegions, implies_true]
  have hphase2 : d2.rd F.thmStat_phase ≠ 0 := by
    rwa [rd_of_keep hkeep (by decide), hphase1]
  have htemp2 : d2.rd F.thmSens_temp 0 i = d1.rd F.thmSens_temp 0 i := rd_of_keep hkeep (by decide) _ _
  have hcount2 : d2.therm.hotFix < 9 := by
    rw [show d2.therm.hotFix = (readings d1).2 from congrArg Prod.snd hread2, hcount1]
    exact hcount
  obtain ⟨hraw3, htemp3⟩ := thermalChecks_of_calm hphase2 hcount2
  rw [← hview1]
  refine Prod.ext ?_ ?_
  · rw [sensorView, ← hraw3, show d2.therm.raw = (readings d1).1 from congrArg Prod.fst hread2]; rfl
  · exact (htemp3 0 i).trans htemp2

/-! ### The throttle and the sensors -/

theorem therm_quiet_setStep (d : Dev) (step : Nat) : (setStep d step).therm.quiet = d.therm.quiet := by
  unfold setStep
  extract_lets old e e'
  split
  · rfl
  · rw [therm_of_keep (keep_applyLimits (ft := applyLimitsFoot) (by decide) _) (by decide),
      therm_of_keep (keep_wakeCs2 (ft := wakeCs2Foot) (by decide) _) (by decide)]
    rfl

/-- A step down is told. -/
theorem setStep_down (d : Dev) {step : Nat} (h : step < d.rd F.thmStat_step) : (setStep d step).flag F.thmEvt_step_down = true := by
  unfold setStep
  extract_lets old e e'
  rw [if_neg (Nat.ne_of_lt h), Dev.flag, rd_of_keep (keep_applyLimits (ft := applyLimitsFoot) (by decide) _) (by decide),
    rd_of_keep (keep_wakeCs2 (ft := wakeCs2Foot) (by decide) _) (by decide)]
  have he : e = (d.wr F.thmStat_step step).setFlag F.thmEvt_step_down true := by
    have hdown : ¬old < step := Nat.not_lt_of_gt h
    simp only [e, if_neg hdown]
  rw [Dev.emit_rd, Dev.updTherm_rd, he]
  exact Dev.flag_setFlag _ _ _ _ _ (by decide)

/-- What follows an exclusion leaves the sensors' flags and the count. -/
theorem sensorExclusion_rest (d : Dev) {f : Fld} (hf : (syncFixedFoot ||| wakeCs2Foot ||| cardCountFoot).testBit (32 + f.id) = false)
    (i j : Nat) : (syncFixed (wakeCs2 (cardCount d 22 1))).rd f i j = d.rd f i j :=
  rd_of_keep (m := syncFixedFoot ||| wakeCs2Foot ||| cardCountFoot)
    (by simp +decide only [↓keep_syncFixed, ↓keep_wakeCs2, ↓keep_cardCount]) hf i j

/-! ### A trip -/

/-- The commands that hold a context, and the media tasks. -/
def hostWork (d : Dev) : List Ctx × List MTask := (d.host.ctxs, d.host.tasks)

theorem hostWork_of_keep {m : Nat} {d e : Dev} (h : keep m e = keep m d) (hpart : m.testBit Part.host.ctorIdx = false) :
    hostWork e = hostWork d := by
  rw [hostWork, host_of_keep h hpart, hostWork]

theorem hostWork_setPtr (d : Dev) (nsid zi wp : Nat) : hostWork (setPtr d nsid zi wp) = hostWork d := by
  unfold setPtr
  split <;> rfl

theorem hostWork_syncHost (d : Dev) : hostWork (syncHost d) = hostWork d :=
  hostWork_of_keep (keep_syncHost (ft := syncHostFoot) (by decide) d) (by decide)

theorem hostWork_trimZones (d : Dev) (lost : List Copied) : hostWork (trimZones d lost) = hostWork d := by
  refine forEach_keeps (fun e b _ => ?_) d
  split
  · split
    · rfl
    · extract_lets zi off
      split
      · split
        · exact hostWork_setPtr ..
        · rfl
      · rfl
  · rfl

/-- Flushing an HDA's dirty data ends no command. -/
theorem hostWork_flushLocker (d : Dev) (n written : Nat) : hostWork (flushLocker d n written) = hostWork d := by
  unfold flushLocker
  extract_lets cov unc other restU records sealed bad d1 kept coveredKept entries others d2 d3 lostC lostU d4 d5 d6 stays
  have h1 : hostWork d1 = hostWork d := hostWork_of_keep (keep_sealCopies (ft := xtsUseFoot) (by decide) ..) (by decide)
  have h2 : hostWork d2 = hostWork d1 := hostWork_of_keep (keep_otherEntries (ft := otherEntriesFoot) (by decide) ..) (by decide)
  have h3 : hostWork d3 = hostWork d2 := by
    simp only [d3]
    split
    · rfl
    · exact hostWork_of_keep (keep_emitGroups (ft := emitGroupsFoot) (by decide) ..) (by decide)
  have h5 : hostWork d5 = hostWork d3 := hostWork_trimZones d4 (lostC ++ lostU)
  rw [hostWork_syncHost]
  exact h5.trans (h3.trans (h2.trans h1))

/-- The identifiers of the commands that hold a context. -/
def ctxIds (d : Dev) : List Nat := d.host.ctxs.map (·.id)

theorem ctxIds_of_keep {m : Nat} {d e : Dev} (h : keep m e = keep m d) (hpart : m.testBit Part.host.ctorIdx = false) :
    ctxIds e = ctxIds d := by rw [ctxIds, host_of_keep h hpart, ctxIds]

theorem map_listMapIf {α β : Type} {p : α → Bool} {f : α → α} {g : α → β} (h : ∀ x, g (f x) = g x) (l : List α) :
    (listMapIf p f l).map g = l.map g := by
  simp only [listMapIf, List.map_map]
  refine List.map_congr_left fun x _ => ?_
  dsimp only [Function.comp]
  split
  · exact h x
  · rfl

theorem ctxIds_rearmReads (d : Dev) : ctxIds (rearmReads d) = ctxIds d := map_listMapIf (g := Ctx.id) (by exact fun _ => rfl) _

theorem ctxIds_restoreCell (d : Dev) (nsid : Nat) (c : BufCell) : ctxIds (restoreCell d nsid c) = ctxIds d := by
  unfold restoreCell
  split
  · rfl
  · extract_lets cell
    split <;> rfl

theorem ctxIds_discardData (d : Dev) (wid : Nat) : ctxIds (discardData d wid) = ctxIds d := by
  unfold discardData
  extract_lets es e
  rw [ctxIds_rearmReads]
  exact forEach_keeps (p := ctxIds) (fun e x _ => forEach_keeps (fun e c _ => ctxIds_restoreCell e x.nsid c) e) e

/-- A discarded command's context is gone, and no other. -/
theorem ctxIds_discardCtx (d : Dev) (id : Nat) : ctxIds (discardCtx d id) = (ctxIds d).filter fun k => k != id := by
  have hdrop (e : Dev) : ctxIds (dropWork e id) = ctxIds e := ctxIds_of_keep (keep_dropWork (ft := dropWorkFoot) (by decide) e id) (by decide)
  unfold discardCtx
  split
  · next h =>
    rw [hdrop]
    have hnone : ∀ k ∈ ctxIds d, k ≠ id := by simpa [ctxIds, Dev.ctx?] using h
    exact (List.filter_eq_self.2 fun k hk => by simpa using hnone k hk).symm
  · next x h =>
    have hid : x.id = id := by simpa using List.find?_some h
    rw [hdrop, ← hid]
    have hleave : (leaveTable d x).host.ctxs = d.host.ctxs.filter fun c => c.id != x.id := by
      unfold leaveTable
      extract_lets headed e
      have he : e.host = d.host := by
        simp only [e]
        split
        · exact host_of_keep (m := footOf [] [F.hstRltStat_blocked]) (by simp +decide only [↓keep_forEach, ↓keep_setBit, implies_true])
            (by decide)
        · rfl
      rw [← he]
      rfl
    rw [ctxIds, hleave, ctxIds, List.filter_map]
    rfl

/-- Nothing of a command remains once all in flight are dropped. -/
theorem ctxIds_dropInFlight (d : Dev) : (dropInFlight d).host.ctxs = [] := by
  have hwithin (e : Dev) (id : Nat) (h : ∀ k ∈ ctxIds e, k ∈ ctxIds d) : ∀ k ∈ ctxIds (discardCtx e id), k ∈ ctxIds d := by
    rw [ctxIds_discardCtx]
    exact fun k hk => h k (List.mem_of_mem_filter hk)
  have hnone (l : List Nat) (e : Dev) : ctxIds (forEach l e discardCtx) = (ctxIds e).filter fun k => !l.contains k := by
    induction l generalizing e with
    | nil => simp [forEach]
    | cons x l ih =>
      rw [show forEach (x :: l) e discardCtx = forEach l (discardCtx e x) discardCtx from rfl, ih, ctxIds_discardCtx, List.filter_filter]
      refine List.filter_congr fun k _ => ?_
      by_cases hk : k = x <;> simp [hk]
  suffices h : ctxIds (dropInFlight d) = [] from List.map_eq_nil_iff.1 h
  unfold dropInFlight
  extract_lets ids e1 e2 c e3
  have h1 : ∀ k ∈ ctxIds e1, k ∈ ctxIds d := by
    refine forEach_inv (P := fun e => ∀ k ∈ ctxIds e, k ∈ ctxIds d) (fun e id _ he => ?_) fun k hk => hk
    split
    · split
      · split
        · have hsetPtr (e : Dev) (nsid zi wp : Nat) : ctxIds (setPtr e nsid zi wp) = ctxIds e :=
            congrArg (fun w => w.1.map Ctx.id) (hostWork_setPtr e nsid zi wp)
          rw [hsetPtr]
          refine forEach_inv (P := fun e => ∀ k ∈ ctxIds e, k ∈ ctxIds d) (fun e y _ he => ?_) ?_
          · exact hwithin _ _ (by rwa [ctxIds_discardData])
          · rwa [ctxIds_discardData]
        · exact he
      · exact he
    · exact he
  have h2 : ctxIds e2 = [] := by
    simp only [e2, hnone, List.filter_eq_nil_iff]
    intro k hk
    have hid : k ∈ ids := h1 k hk
    simpa using hid
  have hports : ctxIds (dropInFlight d) = ctxIds (syncHost e3) := forEach_keeps (p := ctxIds) (by exact fun _ _ _ => rfl) (syncHost e3)
  refine hports.trans ?_
  exact (ctxIds_of_keep (keep_syncHost (ft := syncHostFoot) (by decide) e3) (by decide)).trans h2

/-- A trip ends every command and every task, and leaves the chip waiting to be cool (R377). -/
theorem hardwareTrip_ends {d : Dev} {i : Nat} (hin : sensorExcluded d i = false) (hhot : d.reset.waitCool = false) :
    (hardwareTrip i d).reset.waitCool = true ∧ (hardwareTrip i d).reset.stage = 0 ∧ (hardwareTrip i d).reset.flushing = [] ∧
    hostWork (hardwareTrip i d) = ([], []) := by
  have hgo : (sensorExcluded d i || d.reset.waitCool) = false := by rw [hin, hhot]; rfl
  have hdrill (b : Bool) (e : Dev) : (if b then (e.wr F.pwrHoldStat_flushing 0).wr F.pwrHoldStat_state 3 else e).reset = e.reset ∧
      hostWork (if b then (e.wr F.pwrHoldStat_flushing 0).wr F.pwrHoldStat_state 3 else e) = hostWork e := by
    cases b <;> exact ⟨rfl, rfl⟩
  unfold hardwareTrip
  rw [hgo, if_neg Bool.false_ne_true]
  extract_lets drill d1 d2 d3 d4 d5 d6 d7
  clear_value d4 drill
  have h5 : hostWork d5 = ([], []) := by
    show hostWork (dropActivation (cancelCals (dropTasks (dropInFlight d4)))) = ([], [])
    rw [hostWork_of_keep (keep_dropActivation (ft := dropActivationFoot) (by decide) _) (by decide),
      hostWork_of_keep (keep_cancelCals (ft := cancelCalsFoot) (by decide) _) (by decide), dropTasks,
      hostWork_of_keep (keep_abortAll (ft := seqStopFoot) (by decide) _) (by decide)]
    exact Prod.ext (ctxIds_dropInFlight d4) rfl
  clear_value d5
  have h6 : hostWork d6 = ([], []) := by
    refine Eq.trans (forEach_keeps (p := hostWork) (fun e n _ => ?_) d5) h5
    split
    · exact hostWork_flushLocker ..
    · exact hostWork_flushLocker ..
  clear_value d6
  obtain ⟨hreset, hwork⟩ := hdrill drill d7
  rw [hreset, hwork]
  exact ⟨rfl, rfl, rfl, h6⟩

/-! ### The heads' temperatures -/

/-- One head's polled temperature and what follows from it. -/
def pollHead (a : Nat) (temps : List Int) (d : Dev) (h : Nat) : Dev :=
  let d := d.wrInt F.thmHead_head (temps.getD h 0) 0 (16 * a + h)
  let e := a * 12 + h
  let old := tabGet 0 d.therm.headBand e
  let new := bandOf d (d.rdInt F.thmHead_head 0 (16 * a + h) * 16) 14 old
  let d := d.updTherm fun t => { t with headBand := tabPut 0 t.headBand e new }
  let v := tabGet [] d.therm.calVals (8 * e + new)
  let d := if new = old then d else if v.isEmpty then makeHeadDue d a h else headValues d a h v
  if calDrifted d 0 a h then makeHeadDue d a h else d

theorem pollHead_head (d : Dev) (a h i j : Nat) (temps : List Int) : (pollHead a temps d h).rd F.thmHead_head i j =
    (d.wr F.thmHead_head (toTwos F.thmHead_head.w (temps.getD h 0)) 0 (16 * a + h)).rd F.thmHead_head i j :=
  rd_of_keep (m := footOf [.therm] [] ||| headValuesFoot ||| makeHeadDueFoot) (by
    simp +decide only [pollHead, ↓keep_ite, ↓keep_makeHeadDue, ↓keep_headValues, ↓keep_updTherm, ite_self]
    rfl) (by decide) i j

theorem headPoll_head {d : Dev} {a h : Nat} (temps : List Int) (hpresent : d.actPresent a = true) (hrun : domState d (domChp a) = 0)
    (hh : h < d.hdaHeads (a / 2)) (hheads : d.hdaHeads (a / 2) ≤ 12) :
    (headPoll a temps d).rd F.thmHead_head 0 (16 * a + h) = toTwos F.thmHead_head.w (temps.getD h 0) % 2 ^ F.thmHead_head.w := by
  unfold headPoll
  simp only [hpresent, hrun, Bool.not_true, bne_self_eq_false, Bool.or_false, Bool.false_eq_true, if_false]
  rw [rd_of_keep (keep_checkThresholds (ft := checkThresholdsFoot) (by decide) _) (by decide),
    rd_of_keep (keep_cardExtreme (ft := cardExtremeFoot) (by decide) ..) (by decide),
    Dev.wrInt, Dev.rd_wr_ne _ _ _ _ _ _ _ _ (by decide)]
  refine forEach_touches (p := fun e => e.rd F.thmHead_head 0 (16 * a + h)) (i := h) List.nodup_range (List.mem_range.2 hh)
    (fun e j hj hne => ?_) fun e _ => ?_
  · refine (pollHead_head ..).trans ?_
    have hidx : ¬(0 % 64 = 0 % 64 ∧ (16 * a + h) % 1024 = (16 * a + j) % 1024) := by
      have := List.mem_range.1 hj
      omega
    exact (Dev.rd_wr_self ..).trans (if_neg hidx)
  · refine (pollHead_head ..).trans ?_
    exact Dev.rd_wr_same ..

/-- Settles O14: each row by what its operation leaves of the sensors, the throttle, the commands in flight and the phase. -/
theorem thermalRowsComplete : Obligations.ThermalRowsComplete := by
  unfold Obligations.ThermalRowsComplete
  refine ⟨?sample, ?down, ?exclude, ?trip, ?normal, ?timeout, ?poll⟩
  case sample =>
    intro s temps i raw hheld hphase hcount hraw
    have h := thermalSample_sensor temps i.isLt hheld hphase hcount hraw
    exact ⟨_, rfl, congrArg Prod.fst h, congrArg Prod.snd h⟩
  case down =>
    intro s hquiet hstep hlt hfixed
    refine ⟨_, rfl, ?_⟩
    have hgo : ¬(s.dev.therm.quiet < 3000 ∨ s.dev.rd F.thmStat_step = 0 ∨ s.dev.flag F.thmStat_fixed = true) := by
      simp [hquiet, hstep, hfixed]
    simp only [throttleStepDown, if_neg hgo]
    refine ⟨setStep_step _ (by omega), setStep_down _ ?_, therm_quiet_setStep ..⟩
    exact Nat.sub_one_lt hstep
  case exclude =>
    intro s sensor hdev hin
    refine ⟨_, rfl, ?_⟩
    have hgo : ¬(tabGet 0 s.dev.therm.dev sensor.val ≤ 100 ∨ sensorExcluded s.dev sensor.val = true) := by simp [hdev, hin]
    simp only [sensorExclusion, if_neg hgo]
    generalize he : Dev.emit _ _ = e
    have hexcl : e.flag F.thmSens_excluded 0 sensor.val = true := by
      rw [← he, Dev.flag, Dev.emit_rd, Dev.rd_setFlag_ne _ _ _ _ _ _ _ _ (by decide), Dev.rd_addWrap_ne _ _ _ _ _ _ _ _ (by decide)]
      exact Dev.flag_setFlag _ _ _ _ _ (by decide)
    have htold : e.flag F.thmEvt_exclude = true := by
      rw [← he, Dev.flag, Dev.emit_rd]
      exact Dev.flag_setFlag _ _ _ _ _ (by decide)
    have hcount : e.rd F.thmStat_excluded = (s.dev.rd F.thmStat_excluded + 1) % 2 ^ F.thmStat_excluded.w := by
      rw [← he, Dev.emit_rd, Dev.rd_setFlag_ne _ _ _ _ _ _ _ _ (by decide), Dev.addWrap, Dev.rd_wr_same,
        Dev.rd_setFlag_ne _ _ _ _ _ _ _ _ (by decide)]
    refine ⟨?_, ?_, ?_⟩
    · rw [sensorExcluded, Dev.flag, sensorExclusion_rest _ (by decide)]
      exact hexcl
    · rw [Dev.flag, sensorExclusion_rest _ (by decide)]
      exact htold
    · rw [sensorExclusion_rest _ (by decide)]
      exact hcount
  case trip =>
    intro s sensor hin hhot
    obtain ⟨hwait, hstage, hflush, hwork⟩ := hardwareTrip_ends hin hhot
    exact ⟨_, rfl, hwait, hstage, hflush, congrArg Prod.fst hwork, congrArg Prod.snd hwork⟩
  case normal =>
    intro s hphase hhs0
    have hall : ((presentHdas s.dev).all fun n => s.dev.bit F.glbStart_hs0_seen n) = true := List.all_eq_true.2 hhs0
    simp [Gives, exec, execThermalPhaseNormal, lift_next, thermalPhaseNormal, hphase, hall, phaseNormal]
  case timeout =>
    intro s hphase
    simp [Gives, exec, execPhaseTimeout, lift_next, hphase, phaseNormal]
  case poll =>
    intro s a temps h hpresent hrun hh hheads
    exact ⟨_, rfl, headPoll_head temps hpresent hrun hh hheads⟩

end Sys2Proof.Machine
end

section
/-! PROOF. Calibration rows (R380-R383). -/
namespace Sys2Proof.Machine

/-! ### Requests -/

theorem calDue_makeDue {d : Dev} {kind inst : Nat} (hpresent : calPresent d kind inst = true) (hfree : calRunning d kind inst = false) :
    makeDue d kind inst = d.setBit F.calDue_due inst true 0 kind := by
  simp [makeDue, hpresent, hfree]

theorem headsDue_makeHeadDue (d : Dev) (a h e : Nat) : (makeHeadDue d a h).therm.headsDue.contains e =
    (decide (e = a * 12 + h) || d.therm.headsDue.contains e) := by
  have hlist : (makeHeadDue d a h).therm.headsDue =
      if d.therm.headsDue.contains (a * 12 + h) then d.therm.headsDue else d.therm.headsDue ++ [a * 12 + h] :=
    congrArg ThermState.headsDue (therm_of_keep (keep_makeDue (ft := makeDueFoot) (by decide) _ 0 a) (by decide))
  rw [hlist]
  by_cases he : e = a * 12 + h
  · subst he
    split
    · next hin => simpa using hin
    · simp
  · split <;> simp [he]

/-- The heads of an actuator that are made due one by one are all due at the end. -/
theorem headsDue_forEach (l : List Nat) (a e : Nat) (d : Dev) : (forEach l d fun d h => makeHeadDue d a h).therm.headsDue.contains e =
    (decide (∃ h ∈ l, e = a * 12 + h) || d.therm.headsDue.contains e) := by
  induction l generalizing d with
  | nil => simp [forEach]
  | cons h l ih =>
    rw [show forEach (h :: l) d (fun d h => makeHeadDue d a h) = forEach l (makeHeadDue d a h) fun d h => makeHeadDue d a h from rfl,
      ih, headsDue_makeHeadDue]
    by_cases hh : e = a * 12 + h
    · simp [hh]
    · simp [hh]

theorem calRunning_of_keep {m : Nat} {d e : Dev} (h : keep m e = keep m d) (hbusy : m.testBit (32 + F.calStat_busy.id) = false)
    (hkind : m.testBit (32 + F.calStat_kind.id) = false) (hinst : m.testBit (32 + F.calStat_inst.id) = false) (kind inst : Nat) :
    calRunning e kind inst = calRunning d kind inst := by
  simp only [calRunning, Dev.flag, rd_of_keep h hbusy, rd_of_keep h hkind, rd_of_keep h hinst]

/-- The last head makes its actuator due, unless that is being calibrated. -/
theorem calDue_headsDue {d : Dev} {a n : Nat} (hpresent : calPresent d 0 a = true) (hfree : calRunning d 0 a = false) (ha : a < 16) :
    (forEach (List.range (n + 1)) d fun d h => makeHeadDue d a h).bit F.calDue_due a 0 0 = true := by
  have hlast : forEach (List.range (n + 1)) d (fun d h => makeHeadDue d a h) =
      makeHeadDue (forEach (List.range n) d fun d h => makeHeadDue d a h) a n := by
    simp [forEach, List.range_succ, List.foldl_append]
  have hkeep : keep makeHeadDueFoot (forEach (List.range n) d fun d h => makeHeadDue d a h) = keep makeHeadDueFoot d :=
    keep_forEach _ _ _ fun _ _ => keep_makeHeadDue (by decide) ..
  rw [hlast, makeHeadDue, calDue_makeDue]
  · exact Dev.bit_setBit_same _ _ _ _ _ _ ha
  · rw [← hpresent, calPresent, calPresent, Dev.updTherm_actPresent, actPresent_of_struct (struct_of_keep hkeep (by decide))]
  · rw [← hfree, ← calRunning_of_keep hkeep (by decide) (by decide) (by decide)]
    rfl

/-! ### The end of a run -/

theorem calTemp_of_keep {m : Nat} {d e : Dev} (h : keep m e = keep m d) (hhead : m.testBit (32 + F.thmHead_head.id) = false)
    (hregion : m.testBit (32 + F.thmRegion_temp.id) = false) (kind inst head : Nat) : calTemp e kind inst head = calTemp d kind inst head := by
  unfold calTemp
  split <;> simp only [Dev.rdInt, rd_of_keep h hhead, rd_of_keep h hregion]

theorem calAt_setTrim (d : Dev) (kind inst : Nat) (setting : List Int) : (setTrim d kind inst setting).therm.calAt = d.therm.calAt := by
  unfold setTrim newSetting
  extract_lets
  split <;> rfl

theorem calAt_headCalibrated {d : Dev} {a h : Nat} {r : CalRes} (hconv : r.converged = true)
    (hlevel : r.level ≤ d.rd F.sqrGeom_assist_max a) : (headCalibrated d a h r).therm.calAt = d.therm.calAt := by
  have hin : ¬d.rd F.sqrGeom_assist_max a < r.level := Nat.not_lt.2 hlevel
  simp only [headCalibrated, hconv, Bool.not_true, Bool.false_or, decide_eq_true_eq, if_neg hin]
  rw [therm_of_keep (keep_headValues (ft := headValuesFoot) (by decide) ..) (by decide), Dev.updTherm_therm,
    therm_of_keep (keep_healthMeasure (ft := healthMeasureFoot) (by decide) ..) (by decide)]

/-- The state when a run that converged has ended, before the values found are put in place (R380, R383). -/
def calEnded (kind inst head : Nat) (d : Dev) : Dev :=
  (clearVote ((d.setFlag F.calStat_busy false).addSat F.calStat_runs 1) 5 (calDom kind inst)).updTherm fun t => { t with
    calAt := tabPut none t.calAt (calKey kind inst head)
      (some (calTemp (clearVote ((d.setFlag F.calStat_busy false).addSat F.calStat_runs 1) 5 (calDom kind inst)) kind inst head))
    calBands := tabPut 0 t.calBands (calKey kind inst head) (tabGet 0 t.calBands (calKey kind inst head) |||
      2 ^ calBand (clearVote ((d.setFlag F.calStat_busy false).addSat F.calStat_runs 1) 5 (calDom kind inst)) kind inst head) }

/-- The state when the values that a converged run found are in place. -/
def calPlaced (kind inst head : Nat) (r : CalRes) (d : Dev) : Dev :=
  if kind ≠ 0 then setTrim (calEnded kind inst head d) kind inst r.setting
  else headCalibrated ((calEnded kind inst head d).updTherm fun t =>
    { t with headsDue := t.headsDue.filter fun e => e != inst * 12 + head }) inst head r

/-- After the values are in place, only the actuator's next head and the waiting tasks are left to see to. -/
theorem calDone_eq {d : Dev} {kind inst head : Nat} {r : CalRes} (hrun : calRunning d kind inst = true) (hconv : r.converged = true)
    (hspare : r.spareFits = true) : calDone kind inst head r d = beginWaiting
      (if kind = 0 ∧ ((calPlaced kind inst head r d).therm.headsDue.any fun e => e / 12 == inst) = true
        then makeDue (calPlaced kind inst head r d) 0 inst else calPlaced kind inst head r d) := by
  rw [calDone, hrun, Bool.not_true, if_neg Bool.false_ne_true]
  simp only [hconv, hspare, Bool.not_true, Bool.and_false, Bool.or_true, Bool.and_true, if_true, if_neg Bool.false_ne_true]
  by_cases hk : kind = 0
  · subst hk
    simp only [ne_eq, not_true, if_false, true_and]
    rfl
  · simp only [ne_eq, hk, not_false_eq_true, if_true, false_and, if_false]
    rw [calPlaced, if_pos hk]
    rfl

/-- What the placing of the values found keeps: a frame without the fields and the temperature of the run's end. -/
def calPlaceFoot : Nat := headCalibratedFoot ||| setTrimFoot ||| makeDueFoot ||| beginWaitingFoot

theorem keep_calDone_placed {d : Dev} {kind inst head : Nat} {r : CalRes} (hrun : calRunning d kind inst = true) (hconv : r.converged = true)
    (hspare : r.spareFits = true) : keep calPlaceFoot (calDone kind inst head r d) = keep calPlaceFoot (calEnded kind inst head d) := by
  rw [calDone_eq hrun hconv hspare, keep_beginWaiting (by decide)]
  simp +decide only [calPlaced, ↓keep_setTrim, ↓keep_headCalibrated, ↓keep_ite, ↓keep_makeDue, ↓keep_updTherm, ite_self]

/-- The temperature kept at a run's end stays when the values found are placed. -/
theorem calAt_calDone {d : Dev} {kind inst head : Nat} {r : CalRes} (hrun : calRunning d kind inst = true) (hconv : r.converged = true)
    (hspare : r.spareFits = true) (hlevel : kind = 0 → r.level ≤ d.rd F.sqrGeom_assist_max inst) :
    (calDone kind inst head r d).therm.calAt = (calEnded kind inst head d).therm.calAt := by
  have hplaced : (calPlaced kind inst head r d).therm.calAt = (calEnded kind inst head d).therm.calAt := by
    unfold calPlaced
    split
    · exact calAt_setTrim ..
    · next hk =>
      have hmax : ((calEnded kind inst head d).updTherm fun t => { t with headsDue := t.headsDue.filter fun e => e != inst * 12 + head }).rd
          F.sqrGeom_assist_max inst = d.rd F.sqrGeom_assist_max inst := rd_of_keep (m := footOf [.therm]
            [F.calStat_busy, F.calStat_runs, F.pwrVote_dom]) (by
              simp +decide only [calEnded, clearVote, ↓keep_updTherm, ↓keep_setFlag, ↓keep_addSat, ↓keep_setBit]) (by decide) ..
      rw [calAt_headCalibrated hconv (hmax ▸ hlevel (not_not.1 hk))]
      rfl
  rw [calDone_eq hrun hconv hspare, therm_of_keep (keep_beginWaiting (ft := beginWaitingFoot) (by decide) _) (by decide)]
  split
  · rw [therm_of_keep (keep_makeDue (ft := makeDueFoot) (by decide) ..) (by decide), hplaced]
  · exact hplaced

/-- What the start of a calibration leaves (R381). -/
theorem calStart_starts {d : Dev} {kind inst : Nat} {wait : Bool} (hbusy : d.flag F.calStat_busy = false)
    (hdue : d.bit F.calDue_due inst 0 kind = true) (hloop : calLooped d kind inst = false) (hplace : calPlace d kind inst = true)
    (hidle : wait = true → calIdle d kind inst = true) : calStart kind inst wait d =
      ((((d.setBit F.calDue_due inst false 0 kind).setFlag F.calStat_busy true).wr F.calStat_kind kind).wr
        F.calStat_inst inst).setBit F.pwrVote_dom (calDom kind inst) true 0 5 := by
  have hgo : (d.flag F.calStat_busy || !d.bit F.calDue_due inst 0 kind || calLooped d kind inst || !calPlace d kind inst
      || (wait && !calIdle d kind inst)) = false := by
    cases wait <;> simp [hbusy, hdue, hloop, hplace, hidle]
  rw [calStart, hgo, if_neg Bool.false_ne_true]
  rfl

/-- A bit that is taken away is away, also where the field has no such bit. -/
theorem Dev.bit_setBit_false (d : Dev) (f : Fld) (b i j : Nat) : (d.setBit f b false i j).bit f b i j = false := by
  by_cases hb : b < f.w
  · exact Dev.bit_setBit_same _ _ _ _ _ _ hb
  · simp [Dev.bit, Dev.setBit, Dev.rd_wr_same, Nat.testBit_mod_two_pow, hb]

/-- Settles O15: requests and starts by their effect, the end of a run by what its last steps keep. -/
theorem calibrationRowsComplete : Obligations.CalibrationRowsComplete := by
  unfold Obligations.CalibrationRowsComplete
  refine ⟨?request, ?start, ?expiry, ?heads, ?done⟩
  case request =>
    intro s kind inst hkind hpresent hfree
    have hfree' : calRunning ((s.dev.wr F.calCtl_kind kind.val).wr F.calCtl_inst inst.val) kind.val inst.val = false := by
      rw [calRunning_of_keep (m := footOf [] [F.calCtl_kind, F.calCtl_inst]) (d := s.dev)
        (by simp +decide only [↓keep_wr]) (by decide) (by decide) (by decide), hfree]
    have hreq : calRequest kind.val inst.val s.dev =
        ((s.dev.wr F.calCtl_kind kind.val).wr F.calCtl_inst inst.val).setBit F.calDue_due inst.val true 0 kind.val := by
      rw [calRequest, makeAllDue, if_neg hkind, calDue_makeDue (d := (s.dev.wr F.calCtl_kind kind.val).wr F.calCtl_inst inst.val) hpresent hfree']
    exact congrArg (fun d => Host.Outcome.next { s with dev := d }) hreq
  case start =>
    intro s kind inst hbusy hdue hloop hplace hidle
    exact congrArg (fun d => Host.Outcome.next { s with dev := d }) (calStart_starts hbusy hdue hloop hplace fun _ => hidle)
  case expiry =>
    intro s kind inst hbusy hdue hloop hplace
    exact congrArg (fun d => Host.Outcome.next { s with dev := d }) (calStart_starts hbusy hdue hloop hplace
      fun h => absurd h Bool.false_ne_true)
  case heads =>
    intro s inst hpresent hheads
    refine ⟨_, rfl, ?_⟩
    generalize hd : (s.dev.wr F.calCtl_kind 0).wr F.calCtl_inst inst.val = d
    have hpresent' : calPresent d 0 inst.val = true := by rw [← hd]; exact hpresent
    have hfree' : calRunning d 0 inst.val = calRunning s.dev 0 inst.val := by
      rw [← hd]
      exact calRunning_of_keep (m := footOf [] [F.calCtl_kind, F.calCtl_inst]) (by simp +decide only [↓keep_wr])
        (by decide) (by decide) (by decide) _ _
    have hheads' : d.hdaHeads (inst.val / 2) = s.dev.hdaHeads (inst.val / 2) := by rw [← hd]; rfl
    have hrun : calRequest 0 inst.val s.dev = forEach (List.range (s.dev.hdaHeads (inst.val / 2))) d fun d h => makeHeadDue d inst.val h := by
      rw [calRequest, hd, makeAllDue, if_pos rfl, if_pos hpresent', hheads']
    show (∀ h, h < s.dev.hdaHeads (inst.val / 2) → (calRequest 0 inst.val s.dev).therm.headsDue.contains (inst.val * 12 + h) = true) ∧
      (calRunning s.dev 0 inst.val = false → (calRequest 0 inst.val s.dev).bit F.calDue_due inst.val 0 0 = true)
    rw [hrun]
    refine ⟨fun h hh => ?_, fun hfree => ?_⟩
    · rw [headsDue_forEach, Bool.or_eq_true]
      exact .inl (decide_eq_true ⟨h, List.mem_range.2 hh, rfl⟩)
    · obtain ⟨n, hn⟩ := Nat.exists_eq_succ_of_ne_zero hheads
      rw [hn]
      exact calDue_headsDue hpresent' (hfree'.trans hfree) inst.isLt
  case done =>
    intro s kind inst head r hlevel hrun hconv hspare
    refine ⟨_, rfl, ?_⟩
    show (calDone kind.val inst.val head.val r s.dev).flag F.calStat_busy = false ∧
      (calDone kind.val inst.val head.val r s.dev).bit F.pwrVote_dom (calDom kind.val inst.val) 0 5 = false ∧ _ ∧ _
    have hkeep := keep_calDone_placed (head := head.val) hrun hconv hspare
    have hfields : ∀ f : Fld, calPlaceFoot.testBit (32 + f.id) = false → ∀ i j,
        (calDone kind.val inst.val head.val r s.dev).rd f i j = (clearVote ((s.dev.setFlag F.calStat_busy false).addSat F.calStat_runs 1) 5
          (calDom kind.val inst.val)).rd f i j := fun f hf i j => rd_of_keep hkeep hf i j
    refine ⟨?_, ?_, ?_, ?_⟩
    · rw [Dev.flag, hfields _ (by decide), clearVote, Dev.rd_setBit_ne _ _ _ _ _ _ _ _ _ (by decide),
        Dev.rd_addSat_ne _ _ _ _ _ _ _ _ (by decide)]
      exact Dev.flag_setFlag _ _ _ _ _ (by decide)
    · rw [Dev.bit, hfields _ (by decide)]
      exact Dev.bit_setBit_false ..
    · rw [hfields _ (by decide), clearVote, Dev.rd_setBit_ne _ _ _ _ _ _ _ _ _ (by decide), Dev.rd_addSat_same,
        Dev.rd_setFlag_ne _ _ _ _ _ _ _ _ (by decide)]
    · rw [calAt_calDone hrun hconv hspare hlevel]
      rw [calEnded, Dev.updTherm_therm, tabGet_tabPut, if_pos rfl]
      exact congrArg some (calTemp_of_keep (m := footOf [.therm] [F.calStat_busy, F.calStat_runs, F.pwrVote_dom])
        (by simp +decide only [clearVote, ↓keep_setFlag, ↓keep_addSat, ↓keep_setBit]) (by decide) (by decide) ..)

end Sys2Proof.Machine
end

section
/-! PROOF. Write-path rows (R231-R240, R430). -/
namespace Sys2Proof.Machine

/-! ### Fields that an update of another field or bit leaves -/

/-- A change of one bit leaves every other bit of the field, whatever its indices. -/
theorem Dev.bit_setBit_other (d : Dev) (f : Fld) {b c : Nat} (v : Bool) (i j k l : Nat) (hc : c < f.w) (hbc : c ≠ b) :
    (d.setBit f b v i j).bit f c k l = d.bit f c k l := by
  by_cases h : k % 64 = i % 64 ∧ l % 1024 = j % 1024
  · have hkey : fldKey f k l = fldKey f i j := (fldKey_eq_iff ..).2 h
    have hsame (e : Dev) : e.rd f k l = e.rd f i j := by rw [Dev.rd, Dev.rd, hkey, fldReset_mod f l j h.2]
    have := Dev.bit_setBit d f b v i j c hc
    rw [if_neg hbc] at this
    simpa only [Dev.bit, hsame] using this
  · simp only [Dev.bit, Dev.setBit, Dev.rd_wr_self, if_neg h]

/-- A bit that is set stays set where a bit is set. -/
theorem Dev.bit_setBit_true (d : Dev) (f : Fld) (b i j k l : Nat) {c : Nat} (hc : c < f.w) (h : d.bit f c k l = true) :
    (d.setBit f b true i j).bit f c k l = true := by
  by_cases hbc : c = b
  · subst hbc
    by_cases hkey : k % 64 = i % 64 ∧ l % 1024 = j % 1024
    · simp [Dev.bit, Dev.setBit, Dev.rd_wr_self, hkey, hc]
    · simpa only [Dev.bit, Dev.setBit, Dev.rd_wr_self, if_neg hkey] using h
  · rw [Dev.bit_setBit_other _ _ _ _ _ _ _ hc hbc, h]

/-! ### Closing the write gate of a channel -/

theorem flyUpdate_chn_ne (d : Dev) {c k : Nat} (h : k ≠ c) : (flyUpdate d c).chn k = d.chn k := by
  unfold flyUpdate
  extract_lets
  split
  · rfl
  · split
    · simp [h]
    · unfold Dev.emitSlot Dev.onSlot Dev.when
      split <;> simp [Dev.setFlag, h]

theorem flyUpdate_gates (d : Dev) (c : Nat) : ((flyUpdate d c).chn c).wg = (d.chn c).wg ∧ ((flyUpdate d c).chn c).ag = (d.chn c).ag := by
  unfold flyUpdate
  extract_lets
  split
  · exact ⟨rfl, rfl⟩
  · split
    · simp
    · unfold Dev.emitSlot Dev.onSlot Dev.when
      split <;> simp [Dev.setFlag]

theorem endWrite_chn_ne (d : Dev) {c k : Nat} (h : k ≠ c) : (endWrite d c).chn k = d.chn k := by
  unfold endWrite
  extract_lets e e' f g
  have he : e.chn k = d.chn k := by
    unfold e
    split <;> rfl
  have hg : g.chn k = d.chn k := by
    show e'.chn k = _
    rw [Dev.updChn_chn, if_neg h, he]
  split
  · rw [flyUpdate_chn_ne _ h, hg]
  · exact hg

theorem endWrite_wg (d : Dev) (c : Nat) : ((endWrite d c).chn c).wg = false := by
  unfold endWrite
  extract_lets e e' f g
  have hg : (g.chn c).wg = false := by
    show (e'.chn c).wg = _
    rw [Dev.updChn_chn, if_pos rfl]
  split
  · rw [(flyUpdate_gates _ _).1, hg]
  · exact hg

theorem closeWrite_chn_ne (d : Dev) {c k : Nat} (h : k ≠ c) : (closeWrite d c).chn k = d.chn k := by
  unfold closeWrite
  extract_lets e
  split
  · rfl
  · show e.chn k = _
    rw [Dev.updChn_chn, if_neg h, endWrite_chn_ne _ h]

/-- No gate of a write is open at the channel. -/
def gatesShut (c : Nat) (d : Dev) : Prop := (d.chn c).wg = false ∧ (d.chn c).ag = false

theorem gatesShut_of_chns {c : Nat} {d e : Dev} (h : e.chns = d.chns) : gatesShut c e ↔ gatesShut c d := by
  simp only [gatesShut, Dev.chn, h]

theorem gatesShut_closeWrite (d : Dev) (c : Nat) : gatesShut c (closeWrite d c) := by
  unfold closeWrite
  extract_lets e
  split
  · next h => simpa [gatesShut] using h
  · have he : (e.chn c).wg = false ∧ (e.chn c).ag = false := by
      rw [Dev.updChn_chn, if_pos rfl]
      exact ⟨endWrite_wg d c, rfl⟩
    exact he

theorem gatesShut_of_closeWrite {d : Dev} {c : Nat} (h : gatesShut c d) (k : Nat) : gatesShut c (closeWrite d k) := by
  by_cases hk : c = k
  · exact hk ▸ gatesShut_closeWrite d c
  · rwa [gatesShut, closeWrite_chn_ne d hk]

/-! ### A cause that forbids writing -/

/-- The cause is among those of the channel, which is told that writing is not safe. -/
def causeHeld (c b : Nat) (d : Dev) : Prop := d.bit F.chnWstat_unsafe_now b c = true ∧ d.flag F.chnWstat_unsafe c = true

theorem causeHeld_of_keep {m c b : Nat} {d e : Dev} (h : keep m e = keep m d) (hnow : m.testBit (32 + F.chnWstat_unsafe_now.id) = false)
    (hunsafe : m.testBit (32 + F.chnWstat_unsafe.id) = false) : causeHeld c b e ↔ causeHeld c b d := by
  simp only [causeHeld, Dev.bit, Dev.flag, rd_of_keep h hnow, rd_of_keep h hunsafe]

theorem causeHeld_setBit {c b k l : Nat} {d : Dev} (v : Bool) (hb : b < F.chnWstat_unsafe_now.w) (hl : b ≠ l) (h : causeHeld c b d) :
    causeHeld c b (d.setBit F.chnWstat_unsafe_now l v k) :=
  ⟨(Dev.bit_setBit_other _ _ _ _ _ _ _ hb hl).trans h.1, (Dev.flag_setBit_ne _ _ _ _ _ _ _ _ _ (by decide)).trans h.2⟩

theorem causeHeld_unsafeRefresh {c b : Nat} {d : Dev} (k : Nat) (h : d.bit F.chnWstat_unsafe_now b c = true)
    (hflag : k = c ∨ d.flag F.chnWstat_unsafe c = true) : causeHeld c b (unsafeRefresh d k) := by
  refine ⟨(Dev.bit_setFlag_ne _ _ _ _ _ _ _ _ _ (by decide)).trans h, ?_⟩
  have hne : d.rd F.chnWstat_unsafe_now c ≠ 0 := Dev.rd_ne_zero_of_bit h
  simp only [unsafeRefresh, Dev.flag, Dev.setFlag, Dev.rd_wr_self]
  by_cases hk : c % 64 = k % 64
  · have hsame : d.rd F.chnWstat_unsafe_now k = d.rd F.chnWstat_unsafe_now c := by
      rw [Dev.rd, Dev.rd, (fldKey_eq_iff F.chnWstat_unsafe_now k 0 c 0).2 ⟨hk.symm, rfl⟩]
    have hset : (d.rd F.chnWstat_unsafe_now c != 0) = true := bne_iff_ne.2 hne
    simp only [hk, hsame, hset, and_self, if_true]
    decide
  · simp only [hk, false_and, if_false]
    exact hflag.resolve_left fun e => hk (e ▸ rfl)

theorem causeHeld_endWrite {c b : Nat} {d : Dev} (k : Nat) (hb : b < 4) (h : causeHeld c b d) : causeHeld c b (endWrite d k) := by
  unfold endWrite
  extract_lets e e' f g
  have he : causeHeld c b e := by
    unfold e
    split
    · exact (causeHeld_of_keep (keep_writeResult (ft := writeResultFoot) (by decide) ..) (by decide) (by decide)).2 h
    · exact h
  have hw : b < F.chnWstat_unsafe_now.w := Nat.lt_trans hb (by decide)
  have hf : causeHeld c b f := causeHeld_setBit _ hw (by omega) (causeHeld_setBit _ hw (by omega) (causeHeld_setBit _ hw (by omega) he))
  have hg : causeHeld c b g := causeHeld_unsafeRefresh k hf.1 (.inr hf.2)
  split
  · exact (causeHeld_of_keep (keep_flyUpdate (ft := flyUpdateFoot) (by decide) ..) (by decide) (by decide)).2 hg
  · exact hg

theorem causeHeld_closeWrite {c b : Nat} {d : Dev} (k : Nat) (hb : b < 4) (h : causeHeld c b d) : causeHeld c b (closeWrite d k) := by
  unfold closeWrite
  extract_lets e
  split
  · exact h
  · exact (causeHeld_of_keep (m := footOf [.chns, .out] [F.chnWstat_assist_ok]) (by
      simp +decide only [e, ↓keep_emit, ↓keep_setFlag, ↓keep_updChn]) (by decide) (by decide)).2 (causeHeld_endWrite k hb h)

/-- The cause is told and no gate of a write is open at the channel. -/
def inhibited (c b : Nat) (d : Dev) : Prop := causeHeld c b d ∧ gatesShut c d

theorem inhibited_closePermitOf {c b : Nat} {d : Dev} (k : Nat) (hb : b < 4) (h : inhibited c b d) : inhibited c b (closePermitOf d k) := by
  unfold closePermitOf
  split
  · unfold closePermit
    extract_lets e
    have he : inhibited c b e := forEach_inv (P := inhibited c b) (g := fun d (ct : Nat × Nat) => closeWrite d ct.1)
      (fun _ x _ hx => ⟨causeHeld_closeWrite x.1 hb hx.1, gatesShut_of_closeWrite hx.2 x.1⟩) h
    clear_value e
    exact ⟨(causeHeld_of_keep (m := footOf [.seqs] [F.sqrStat_permit]) (by simp +decide only [↓keep_setFlag, ↓keep_updSeq])
      (by decide) (by decide)).2 he.1, (gatesShut_of_chns (by simp only [Dev.setFlag, Dev.wr_chns, Dev.updSeq_chns])).2 he.2⟩
  · exact h

theorem inhibited_setCause {c b k : Nat} {d : Dev} (hb : b < 4) (h : k = c ∨ inhibited c b d) : inhibited c b (setCause d k b true) := by
  unfold setCause
  extract_lets was d1 d2 d3 d4
  have hw : b < F.chnWstat_unsafe_now.w := Nat.lt_trans hb (by decide)
  have h1 : d1.bit F.chnWstat_unsafe_now b c = true ∧ (k = c ∨ d1.flag F.chnWstat_unsafe c = true) := by
    rcases h with rfl | h
    · exact ⟨Dev.bit_setBit_same _ _ _ _ _ _ hw, .inl rfl⟩
    · exact ⟨Dev.bit_setBit_true _ _ _ _ _ _ _ hw h.1.1, .inr ((Dev.flag_setBit_ne _ _ _ _ _ _ _ _ _ (by decide)).trans h.1.2)⟩
  have h3 : causeHeld c b d3 := causeHeld_unsafeRefresh k ((Dev.bit_setBit_ne _ _ _ _ _ _ _ _ _ _ (by decide)).trans h1.1)
    (h1.2.imp_right (Dev.flag_setBit_ne _ _ _ _ _ _ _ _ _ (by decide)).trans)
  have h4 : causeHeld c b d4 := (causeHeld_of_keep (m := footOf [.health] [F.chnWcnt_count]) (by
    simp +decide only [d4, ↓keep_updHealth, ↓keep_addWrap, ↓keep_ite, ite_self]) (by decide) (by decide)).2 h3
  have hchns : d4.chns = d.chns := by
    unfold d4
    split <;> rfl
  rw [if_pos rfl]
  refine inhibited_closePermitOf k hb ⟨causeHeld_closeWrite k hb h4, ?_⟩
  rcases h with rfl | h
  · exact gatesShut_closeWrite _ _
  · exact gatesShut_of_closeWrite ((gatesShut_of_chns hchns).2 h.2) k

theorem Dev.bit_setBit_cleared (d : Dev) (f : Fld) (b i j k l : Nat) {c : Nat} (hc : c < f.w) (h : d.bit f c k l = false) :
    (d.setBit f b false i j).bit f c k l = false := by
  by_cases hbc : c = b
  · subst hbc
    by_cases hkey : k % 64 = i % 64 ∧ l % 1024 = j % 1024
    · have hsame : fldKey f k l = fldKey f i j := (fldKey_eq_iff ..).2 hkey
      have := Dev.bit_setBit_false d f c i j
      rwa [Dev.bit, Dev.rd, ← hsame, ← fldReset_mod f l j hkey.2] at this
    · simpa only [Dev.bit, Dev.setBit, Dev.rd_wr_self, if_neg hkey] using h
  · rw [Dev.bit_setBit_other _ _ _ _ _ _ _ hc hbc, h]

/-- The end of a cause opens and closes nothing. -/
theorem setCause_release (d : Dev) (k b : Nat) : setCause d k b false = unsafeRefresh (d.setBit F.chnWstat_unsafe_now b false k) k := by
  simp [setCause]

/-- What one step of a list brings about and every step keeps holds at the end. -/
theorem forEach_reaches {α : Type} {P : Dev → Prop} {l : List α} {g : Dev → α → Dev} {i : α} (hi : i ∈ l) (hself : ∀ e, P (g e i))
    (hkeep : ∀ e, ∀ x ∈ l, P e → P (g e x)) (d : Dev) : P (forEach l d g) := by
  induction l generalizing d with
  | nil => cases hi
  | cons x l ih =>
    have hkeep' : ∀ e, ∀ y ∈ l, P e → P (g e y) := fun e y hy => hkeep e y (by simp [hy])
    rcases List.mem_cons.1 hi with rfl | hmem
    · exact forEach_inv hkeep' (hself d)
    · exact ih hmem hkeep' (g d x)

theorem releaseAll_cause {l : List Nat} {b c : Nat} (hb : b < F.chnWstat_unsafe_now.w) (hc : c ∈ l) (d : Dev) :
    (forEach l d fun d k => setCause d k b false).bit F.chnWstat_unsafe_now b c = false := by
  refine forEach_reaches (P := fun d => d.bit F.chnWstat_unsafe_now b c = false) hc (fun e => ?_) (fun e k _ he => ?_) d
  · rw [setCause_release, unsafeRefresh, Dev.bit_setFlag_ne _ _ _ _ _ _ _ _ _ (by decide)]
    exact Dev.bit_setBit_false ..
  · rw [setCause_release, unsafeRefresh, Dev.bit_setFlag_ne _ _ _ _ _ _ _ _ _ (by decide)]
    exact Dev.bit_setBit_cleared _ _ _ _ _ _ _ hb he

theorem releaseAll_chns (l : List Nat) (b : Nat) (d : Dev) : (forEach l d fun d k => setCause d k b false).chns = d.chns :=
  forEach_keeps (p := Dev.chns) (fun e k _ => by rw [setCause_release]; rfl) d

theorem inhibitAll {l : List Nat} {b c : Nat} (hb : b < 4) (hc : c ∈ l) (d : Dev) :
    inhibited c b (forEach l d fun d k => setCause d k b true) :=
  forEach_reaches (P := inhibited c b) (g := fun d k => setCause d k b true) hc (fun _ => inhibited_setCause hb (.inl rfl)) (fun _ _ _ h => inhibited_setCause hb (.inr h)) d

/-- What the causes of channels that come or go leave of the registers. -/
theorem rd_setCauses (l : List Nat) (b : Nat) (v : Bool) (d : Dev) {f : Fld} (hf : setCauseFoot.testBit (32 + f.id) = false) (i j : Nat) :
    (forEach l d fun d k => setCause d k b v).rd f i j = d.rd f i j :=
  rd_of_keep (keep_forEach _ _ _ fun _ _ => keep_setCause (by decide) ..) hf i j

theorem heedSlot_run {d : Dev} {n : Nat} (h : d.slotDrive n ≠ .highZ) (g : Dev → Dev) : d.heedSlot n g = g d := by
  simp [Dev.heedSlot, Dev.when, h]

theorem brings_of_run {c : Instr} {s : State} {g : Dev → Dev} {P : Dev → Prop} (h : exec c s = lift s g) (hP : P (g s.dev)) : Brings c s P :=
  ⟨_, h, hP⟩

theorem gives_of_run {c : Instr} {s : State} {g : Dev → Dev} {d : Dev} (h : exec c s = lift s g) (hd : g s.dev = d) : Gives c s d :=
  hd ▸ h

theorem brings_of_heed {c : Instr} {s : State} {n : Nat} {g : Dev → Dev} {P : Dev → Prop} (h : exec c s = lift s fun d => d.heedSlot n g)
    (hslot : s.dev.slotDrive n ≠ .highZ) (hP : P (g s.dev)) : Brings c s P :=
  brings_of_run h (by rwa [heedSlot_run hslot])

/-! ### The sector at the slot and the write PLL -/

theorem syncChn_rd (d : Dev) (c : Nat) {f : Fld} (hf : syncChnFoot.testBit (32 + f.id) = false) (i j : Nat) :
    (syncChn d c).rd f i j = d.rd f i j := rd_of_keep (keep_syncChn (by decide) ..) hf i j

theorem syncChn_wfifo (d : Dev) (c : Nat) : (syncChn d c).rd F.chnWstat_wfifo c = (d.chn c).fifo.length % 2 ^ F.chnWstat_wfifo.w := by
  unfold syncChn
  extract_lets ch b b' d1 d2 d3 d4 d5
  have h5 : d5.rd F.chnWstat_wfifo c = ch.fifo.length % 2 ^ F.chnWstat_wfifo.w := Dev.rd_wr_same ..
  split
  · rw [Dev.rd_wr_ne _ _ _ _ _ _ _ _ (by decide), h5]
  · rw [Dev.rd_wr_ne _ _ _ _ _ _ _ _ (by decide), h5]

theorem syncChn_chn (d : Dev) (c k : Nat) : (syncChn d c).chn k = d.chn k := by
  rw [Dev.chn, chns_of_keep (keep_syncChn (ft := syncChnFoot) (by decide) ..) (by decide), Dev.chn]

theorem finishSlot_none {d : Dev} {c : Nat} (h : (d.chn c).writing = none) : finishSlot d c = d := by simp [finishSlot, h]

theorem slotStart_starts {d : Dev} {c sector tok : Nat} {poison : Bool} {rest : List (Nat × Bool)} (hwg : (d.chn c).wg = true)
    (hnext : (d.chn c).nextSlot = some sector) (hwriting : (d.chn c).writing = none) (hfifo : (d.chn c).fifo = (tok, poison) :: rest)
    (hin : sector < sptOf d (c / 2) (taskTrack d c)) : slotStart c sector d = syncChn ((d.updChn c fun ch =>
      { ch with fifo := rest, writing := some (sector, tok, poison), nextSlot := some (sector + 1) }).emit
        (.wave c (chnHead d c) (taskTrack d c) sector (slotWave d c sector tok poison))) c := by
  have hgo : ((d.chn c).wg && (d.chn c).nextSlot == some sector) = true := by simp [hwg, hnext]
  rw [slotStart, if_pos hgo]
  simp only [finishSlot_none hwriting, if_neg (Nat.not_le.2 hin)]
  split
  · next h => rw [hfifo] at h; cases h
  · next h =>
    rw [hfifo] at h
    cases h
    rfl

/-! ### References and the assist -/

/-- What a reference leaves of a channel, with the read gate's own part left out. -/
def pllView (c : Nat) (d : Dev) : Bool × Nat × Nat × List Nat :=
  ((d.chn c).pllOn, (d.chn c).pllGood, (d.chn c).lastWedge, (d.chn c).periods)

theorem pllView_of_keep {m c : Nat} {d e : Dev} (h : keep m e = keep m d) (hp : m.testBit Part.chns.ctorIdx = false) :
    pllView c e = pllView c d := by simp only [pllView, Dev.chn, chns_of_keep h hp]

theorem pllView_servoSplit (d : Dev) (c wedge : Nat) : pllView c (servoSplit d c wedge) = pllView c d := by
  unfold servoSplit
  extract_lets e
  have he : pllView c e = pllView c d := by
    unfold e
    split
    · rw [← pllView_of_keep (keep_presetLoop (ft := presetLoopFoot) (by decide) d c) (by decide)]
      simp only [pllView, Dev.updChn_chn, if_pos]
    · rfl
  rw [← he]
  split <;> rfl

theorem timingReference_locks {d : Dev} {c wedge phase64 period : Nat} (hon : (d.chn c).pllOn = true) (hgood : (d.chn c).pllGood = 3)
    (hphase : phase64 < 2) (hlost : chnLost d c = false) : ∃ e, timingReference c wedge phase64 period d = e.setFlag F.chnWstat_wlock true c ∧
      pllView c e = (true, 4, wedge, (period :: (d.chn c).periods).take 8) := by
  unfold timingReference
  rw [hlost, if_neg Bool.false_ne_true]
  extract_lets e1 e2 e3
  have h1 : pllView c e1 = pllView c d := pllView_of_keep (keep_countRef (ft := countRefFoot) (by decide) ..) (by decide)
  have h2 : pllView c e2 = (true, 4, wedge, (period :: (d.chn c).periods).take 8) := by
    simp only [pllView, Prod.mk.injEq] at h1
    obtain ⟨hon1, hgood1, -, hper1⟩ := h1
    simp only [e2, pllView, Dev.updChn_chn, if_pos, hon1, hgood1, hper1, hon, hgood, hphase, decide_true, Bool.and_true]
    rfl
  have h3 : pllView c e3 = (true, 4, wedge, (period :: (d.chn c).periods).take 8) := by
    rw [pllView_servoSplit, pllView_of_keep (keep_beginTasks (ft := beginTasksFoot) (by decide) ..) (by decide), h2]
  clear_value e3
  refine ⟨e3, ?_, h3⟩
  simp only [pllView, Prod.mk.injEq] at h3
  obtain ⟨hon3, hgood3, -, -⟩ := h3
  rw [if_pos hon3, if_neg (by omega), if_pos hgood3]

/-- The state in which a reading of the assist is judged (R239). -/
theorem monitorPoll_settles {d : Dev} {c reading : Nat} (hag : (d.chn c).ag = true) (hgood : (d.chn c).monGood = 1)
    (htol : inTolerance (d.rd F.chnApplied_applied c (chnHead d c)) reading (d.rd F.chnWctl_fault_dev c) = true) :
    ∃ e : Dev, monitorPoll c reading d = e.setFlag F.chnWstat_assist_ok true c ∧
      e.rd F.chnApplied_monitor c (chnHead d c) = reading % 2 ^ F.chnApplied_monitor.w := by
  unfold monitorPoll
  rw [hag, Bool.not_true, if_neg Bool.false_ne_true]
  extract_lets h e1 on e2 e3 e4 e5
  have hkeep : keep (footOf [.health, .card] [F.chnApplied_monitor]) e3 = keep (footOf [.health, .card] [F.chnApplied_monitor]) d := by
    simp +decide only [e3, e2, e1, ↓keep_cardBin, ↓keep_updHealth, ↓keep_wr, ↓keep_ite, ite_self]
  have hmon : e3.rd F.chnApplied_monitor c h = reading % 2 ^ F.chnApplied_monitor.w := by
    rw [rd_of_keep (m := footOf [.health, .card] []) (d := e1)
      (by simp +decide only [e3, e2, ↓keep_cardBin, ↓keep_updHealth, ↓keep_ite, ite_self]) (by decide)]
    exact Dev.rd_wr_same ..
  have htol3 : inTolerance (e3.rd F.chnApplied_applied c h) reading (e3.rd F.chnWctl_fault_dev c) = true := by
    rw [rd_of_keep hkeep (by decide), rd_of_keep hkeep (by decide), htol]
  have hgood3 : (e3.chn c).monGood = 1 := by rw [Dev.chn, chns_of_keep hkeep (by decide)]; exact hgood
  clear_value e3
  have hgood4 : (e4.chn c).monGood = 2 := by
    simp only [e4, Dev.updChn_chn, if_pos, hgood3]
    rfl
  rw [if_pos htol3, if_pos hgood4]
  exact ⟨e4, rfl, hmon⟩

/-- Settles O16: the gates through `inhibited`, what the other rows leave by their updates. -/
theorem writePathRowsComplete : Obligations.WritePathRowsComplete := by
  unfold Obligations.WritePathRowsComplete
  refine ⟨?fifo, ?slot, ?arm, ?disarm, ?lock, ?step, ?poll, ?fly, ?shock, ?shockEnd, ?fault, ?faultEnd⟩
  case fifo =>
    intro s chn tok poison hroom hrun
    refine brings_of_run rfl ?_
    rw [if_pos ⟨hroom, hrun⟩]
    refine ⟨?_, ?_⟩
    · rw [syncChn_chn, Dev.updChn_chn, if_pos rfl]
    · have hsmall : (s.dev.chn chn.val).fifo.length + 1 < 2 ^ F.chnWstat_wfifo.w := Nat.lt_of_le_of_lt hroom (by decide)
      rw [syncChn_wfifo, Dev.updChn_chn, if_pos rfl, List.length_append, List.length_singleton, Nat.mod_eq_of_lt hsmall]
  case slot =>
    intro s chn sector tok poison rest hwg hnext hwriting hfifo hin
    refine brings_of_run (g := slotStart chn.val sector) rfl ?_
    rw [slotStart_starts hwg hnext hwriting hfifo hin]
    refine ⟨out_of_keep (keep_syncChn (ft := syncChnFoot) (by decide) ..) (by decide), ?_⟩
    rw [syncChn_chn, Dev.emit_chn, Dev.updChn_chn, if_pos rfl]
  case arm =>
    intro s rq chn htwin hlost
    have htwin' : (chn.val % 2 == 1 && !s.dev.hdaTwin (chn.val / 4)) = false := by
      rcases htwin with h | h <;> simp [h]
    refine gives_of_run (g := pllArm chn.val true) rfl ?_
    show (if (chn.val % 2 == 1 && !s.dev.hdaTwin (chn.val / 4) || chnLost s.dev chn.val) = true then _ else _) = _
    rw [htwin', hlost]
    rfl
  case disarm =>
    intro s rq chn hwg
    refine gives_of_run (g := pllArm chn.val false) rfl ?_
    simp only [pllArm, loseLock, if_neg Bool.false_ne_true, Dev.setFlag, Dev.wr_chn, Dev.updChn_chn, if_pos, hwg]
  case lock =>
    intro s chn wedge phase64 period hon hgood hphase hlost
    obtain ⟨e, he, hview⟩ := timingReference_locks (period := period) (wedge := wedge) hon hgood hphase hlost
    simp only [pllView, Prod.mk.injEq] at hview
    obtain ⟨-, -, hwedge, hperiods⟩ := hview
    refine brings_of_run (g := timingReference chn.val wedge phase64 period) rfl ?_
    rw [he]
    exact ⟨Dev.flag_setFlag _ _ _ _ _ (by decide), hwedge, hperiods⟩
  case step =>
    intro s chn h hh
    subst hh
    rfl
  case poll =>
    intro s chn reading hag hgood htol
    obtain ⟨e, he, hmon⟩ := monitorPoll_settles hag hgood htol
    refine ⟨_, gives_of_run (g := monitorPoll chn.val reading) rfl rfl, ?_, ?_, ?_⟩
    · rw [he]
      exact Dev.flag_setFlag _ _ _ _ _ (by decide)
    · rw [he, Dev.rd_setFlag_ne _ _ _ _ _ _ _ _ (by decide), hmon]
    · exact host_of_keep (keep_monitorPoll (ft := monitorPollFoot) (by decide) ..) (by decide)
  case fly =>
    intro s chn hsent hpending
    simp [Gives, exec, execFlySettled, hsent, hpending]
  case shock =>
    intro s n c hslot hc
    refine brings_of_heed (n := n.val) rfl hslot ⟨?_, ?_⟩
    · rw [Dev.bit, rd_setCauses _ _ _ _ (by decide)]
      exact Dev.bit_setBit_same _ _ _ _ _ _ (Nat.lt_of_lt_of_le n.isLt (by decide))
    · obtain ⟨hcause, hshut⟩ := inhibitAll (b := 2) (by decide) hc (s.dev.setBit F.glbPins_shock n.val true)
      exact ⟨hcause.1, hcause.2, hshut.1, hshut.2⟩
  case shockEnd =>
    intro s n us c hslot hc
    refine brings_of_heed (n := n.val) rfl hslot ⟨?_, releaseAll_cause (by decide) hc _, (releaseAll_chns _ _ _).trans ?_⟩
    · rw [Dev.bit, rd_setCauses _ _ _ _ (by decide)]
      exact Dev.bit_setBit_false ..
    · split
      · exact (Dev.wr_chns ..).trans (chns_of_keep (keep_cardExtreme (ft := cardExtremeFoot) (by decide) ..) (by decide))
      · rfl
  case fault =>
    intro s a c hslot hc
    have hmem : c.val ∈ [2 * a.val, 2 * a.val + 1] := by
      simp only [List.mem_cons, List.not_mem_nil, or_false]
      omega
    obtain ⟨hcause, hshut⟩ := inhibitAll (b := 3) (by decide) hmem ((s.dev.setFlag F.pspStat_flt true a.val).setFlag F.pspStat_flt_seen true a.val)
    refine brings_of_heed (n := a.val / 2) rfl hslot ⟨?_, ?_, hcause.1, hshut.1, hshut.2⟩
    · rw [Dev.flag, rd_setCauses _ _ _ _ (by decide), Dev.rd_setFlag_ne _ _ _ _ _ _ _ _ (by decide)]
      exact Dev.flag_setFlag _ _ _ _ _ (by decide)
    · rw [Dev.flag, rd_setCauses _ _ _ _ (by decide)]
      exact Dev.flag_setFlag _ _ _ _ _ (by decide)
  case faultEnd =>
    intro s a c hslot hc
    have hmem : c.val ∈ [2 * a.val, 2 * a.val + 1] := by
      simp only [List.mem_cons, List.not_mem_nil, or_false]
      omega
    refine brings_of_heed (n := a.val / 2) rfl hslot ⟨?_, releaseAll_cause (by decide) hmem _, releaseAll_chns _ _ _⟩
    rw [Dev.flag, rd_setCauses _ _ _ _ (by decide)]
    exact Dev.flag_setFlag _ _ _ _ _ (by decide)

end Sys2Proof.Machine
end

section
/-! PROOF. Read-channel rows (R191-R228). -/
namespace Sys2Proof.Machine

/-! ### What the parts of the rows leave of a channel -/

theorem Dev.chn_of_chns {d e : Dev} (h : e.chns = d.chns) (c : Nat) : e.chn c = d.chn c := by rw [Dev.chn, h, Dev.chn]

theorem reportResult_chns (d : Dev) (c : Nat) (e : SectorEntry) (iters errs step reader : Nat) (skipped : Bool) :
    (reportResult d c e iters errs step reader skipped).chns = d.chns := rfl

theorem countErased_chns (d : Dev) (c : Nat) (before after : Bool) : (countErased d c before after).chns = d.chns :=
  chns_of_keep (keep_countErased (ft := countErasedFoot) (by decide) ..) (by decide)

theorem countErased_out (d : Dev) (c : Nat) (before after : Bool) : (countErased d c before after).out = d.out :=
  out_of_keep (keep_countErased (ft := countErasedFoot) (by decide) ..) (by decide)

theorem syncChn_out (d : Dev) (c : Nat) : (syncChn d c).out = d.out :=
  out_of_keep (keep_syncChn (ft := syncChnFoot) (by decide) ..) (by decide)

theorem updEntry_entries (d : Dev) (c seq : Nat) (g : SectorEntry → SectorEntry) : ((updEntry d c seq g).chn c).entries =
    listMapIf (fun x => x.seq == seq) g (d.chn c).entries := by
  rw [updEntry, Dev.updChn_chn, if_pos rfl]

theorem updEntry_held (d : Dev) (c seq : Nat) (g : SectorEntry → SectorEntry) : ((updEntry d c seq g).chn c).held = (d.chn c).held := by
  rw [updEntry, Dev.updChn_chn, if_pos rfl]

theorem readerCheck_entries (c amp0 amp1 : Nat) (d : Dev) : ((readerCheck c amp0 amp1 d).chn c).entries = (d.chn c).entries := by
  unfold readerCheck
  extract_lets h weak prev n e
  have he : (e.chn c).entries = (d.chn c).entries := by
    unfold e
    rw [Dev.updChn_chn, if_pos rfl]
  rw [← he]
  split
  · rfl
  · split <;> rfl

/-- A count of another entry leaves a count. -/
theorem Dev.rd_addWrap_entry (d : Dev) (f : Fld) (n i j k l : Nat) (h : l % 1024 ≠ j % 1024) : (d.addWrap f n i j).rd f k l = d.rd f k l := by
  simp [Dev.addWrap, Dev.rd_wr_self, h]

/-! ### The read gate -/

theorem gateVerdict_read {d : Dev} {c : Nat} {g : GateCmd} (hwg : g.wg = 0) (hag : g.ag = 0) (hsw : g.sw = 0)
    (hshut : (d.chn c).wg = false) : gateVerdict d c g = .pass := by
  simp [gateVerdict, hwg, hag, hsw, hshut]

theorem applyGate_read {d : Dev} {c : Nat} {g : GateCmd} (hrg : g.rg = 1) (hwg : g.wg = 0) (hag : g.ag = 0) (hsg : g.sg = 0)
    (hsw : g.sw = 0) : applyGate d c g = (openReadGate d c g).emit (.gates c ((openReadGate d c g).chn c).rg
      ((openReadGate d c g).chn c).wg ((openReadGate d c g).chn c).ag) := by
  simp [applyGate, hrg, hwg, hag, hsg, hsw]

theorem openReadGate_chn (d : Dev) (c : Nat) (g : GateCmd) : ((openReadGate d c g).chn c).rg = true ∧
    ((openReadGate d c g).chn c).wg = (d.chn c).wg ∧ ((openReadGate d c g).chn c).ag = (d.chn c).ag ∧
    ((openReadGate d c g).chn c).queue = (d.chn c).queue ∧ ((openReadGate d c g).chn c).gain = .acquiring ∧
    ((openReadGate d c g).chn c).acq = true := by
  have hsame : ((presetLoop d c).setFlag F.chnStat_timing_lock false c).chn c = d.chn c := by
    rw [Dev.setFlag, Dev.wr_chn, presetLoop, Dev.wr_chn]
  simp only [openReadGate, Dev.updChn_chn, if_pos, hsame, and_self]

/-- What the opening of the read gate leaves, the commands behind it being `rest`. -/
structure ReadOpened (c : Nat) (rest : List GateCmd) (ag : Bool) (out : List Emit) (d : Dev) : Prop where
  rg : (d.chn c).rg = true
  queue : (d.chn c).queue = rest
  gain : (d.chn c).gain = .acquiring
  acq : (d.chn c).acq = true
  lock : d.flag F.chnStat_timing_lock c = false
  emitted : d.out = .gates c true false ag :: out

theorem applyGate_opens {d : Dev} {c : Nat} {g : GateCmd} (hrg : g.rg = 1) (hwg : g.wg = 0) (hag : g.ag = 0) (hsg : g.sg = 0)
    (hsw : g.sw = 0) (hshut : (d.chn c).wg = false) : ReadOpened c (d.chn c).queue (d.chn c).ag d.out (applyGate d c g) := by
  rw [applyGate_read hrg hwg hag hsg hsw]
  obtain ⟨hopen, hw, ha, hqueue, hgain, hacq⟩ := openReadGate_chn d c g
  refine ⟨hopen, hqueue, hgain, hacq, ?_, ?_⟩
  · exact Dev.flag_setFlag (presetLoop d c) F.chnStat_timing_lock false c 0 (by decide)
  · rw [hopen, hw, ha, hshut]
    exact congrArg _ (out_of_keep (keep_openReadGate (ft := openReadGateFoot) (by decide) ..) (by decide))

theorem ReadOpened.sync {c : Nat} {rest : List GateCmd} {ag : Bool} {out : List Emit} {d : Dev} (h : ReadOpened c rest ag out d) :
    ReadOpened c rest ag out (syncChn d c) := by
  obtain ⟨hrg, hqueue, hgain, hacq, hlock, hout⟩ := h
  refine ⟨?_, ?_, ?_, ?_, ?_, ?_⟩
  · rw [syncChn_chn, hrg]
  · rw [syncChn_chn, hqueue]
  · rw [syncChn_chn, hgain]
  · rw [syncChn_chn, hacq]
  · rwa [Dev.flag, syncChn_rd _ _ (by decide)]
  · rw [syncChn_out, hout]

theorem gateEdge_opens {d : Dev} {c time : Nat} {g : GateCmd} {rest : List GateCmd} (hqueue : (d.chn c).queue = g :: rest)
    (htime : g.moment ≤ time) (hrg : g.rg = 1) (hwg : g.wg = 0) (hag : g.ag = 0) (hsg : g.sg = 0) (hsw : g.sw = 0)
    (hshut : (d.chn c).wg = false) (hlost : chnLost d c = false) : ReadOpened c rest (d.chn c).ag d.out (gateEdge c time d) := by
  have hgo : ¬(time < g.moment ∨ chnLost d c = true) := by simp [hlost, htime]
  have hchn : (d.updChn c fun ch => { ch with queue := rest }).chn c = { d.chn c with queue := rest } := by
    rw [Dev.updChn_chn, if_pos rfl]
  have hopened := applyGate_opens (d := d.updChn c fun ch => { ch with queue := rest }) hrg hwg hag hsg hsw (by rw [hchn, hshut])
  rw [hchn] at hopened
  unfold gateEdge
  split
  · next h => rw [hqueue] at h; cases h
  · next h =>
    rw [hqueue] at h
    cases h
    rw [if_neg hgo]
    simp only [gateVerdict_read (d := d.updChn c fun ch => { ch with queue := rest }) hwg hag hsw (by rw [hchn, hshut])]
    exact hopened.sync

/-! ### Framing -/

theorem seq_of_find {l : List SectorEntry} {seq : Nat} {e : SectorEntry} (h : l.find? (fun x => x.seq == seq) = some e) : e.seq = seq := by
  simpa using List.find?_some h

theorem primarySync_frames {d : Dev} {c pos dist : Nat} {lock : Bool} {xs : List Defect} {e e1 : SectorEntry}
    (hlast : (d.chn c).entries.getLast? = some e) (hsw : (d.chn c).sw = true) (hprim : e.primPos = none) (hend : e.resyncEnded = false)
    (he1 : ((seeDefects d c e.seq xs).chn c).entries.find? (fun x => x.seq == e.seq) = some e1)
    (hthresh : max dist (erasedIn e1 (e1.opened + pos) 32) ≤ d.rd F.chnSync_prim_thresh c) : primarySync c pos dist lock xs d =
      ((updEntry (seeDefects d c e.seq xs) c e.seq fun x =>
        { x with primPos := some pos, framed := true, framing := 1, start := ((x.opened + pos + 32 : Nat) : Int) }).updChn c
          fun ch => { ch with gain := .frozen, acq := false }).setFlag F.chnStat_timing_lock lock c := by
  have hthresh' : max dist (erasedIn e1 (e1.opened + pos) 32) ≤ (seeDefects d c e.seq xs).rd F.chnSync_prim_thresh c := by
    rw [rd_of_keep (keep_seeDefects (ft := seeDefectsFoot) (by decide) ..) (by decide)]
    exact hthresh
  unfold primarySync
  simp only [hlast, hsw, hprim, hend, Option.isNone_none, Bool.not_false, Bool.and_self, if_true, he1, Option.getD_some,
    decide_eq_true hthresh', seq_of_find he1]

/-- A hit at the expected place: the slip is 0 (R205). -/
theorem resyncEntry_expected {d : Dev} {c q dist : Nat} {poisoned : Bool} {e : SectorEntry} (hprim : e.primPos = some q)
    (hthresh : max dist (erasedIn e (e.opened + (q + 16416)) 16) ≤ d.rd F.chnSync_resync_thresh c) :
    resyncEntry d c (some (q + 16416, dist, poisoned)) e = { e with resyncEnded := true, k := 0, poison := poisoned, resyncBad := false } := by
  simp [resyncEntry, hprim, hthresh]

/-- The entry of a sector whose search for the second mark has ended is what `resyncEntry` makes of it. -/
theorem resyncEnd_entries {d : Dev} {c amp0 amp1 : Nat} {hit : Option (Nat × Nat × Bool)} {lock : Bool} {xs : List Defect}
    {e e1 : SectorEntry} {d1 : Dev} (hfind : (d.chn c).entries.find? (fun x => !x.resyncEnded) = some e)
    (hd1 : d1 = seeDefects (updEntry d c e.seq fun x => { x with amps := (amp0, amp1) }) c e.seq xs)
    (he1 : (d1.chn c).entries.find? (fun x => x.seq == e.seq) = some e1) :
    ((resyncEnd c hit lock amp0 amp1 xs d).chn c).entries =
      listMapIf (fun x => x.seq == e1.seq) (fun _ => resyncEntry d1 c hit e1) (d1.chn c).entries := by
  unfold resyncEnd
  split
  · next h => rw [hfind] at h; cases h
  next e0 h =>
  rw [hfind] at h
  cases h
  extract_lets dA eA e' d2 d3 d4
  have hA : dA = d1 := hd1.symm
  have hE : eA = e1 := by rw [show eA = ((dA.chn c).entries.find? fun x => x.seq == e.seq).getD e from rfl, hA, he1, Option.getD_some]
  have h3 : (d3.chn c).entries = listMapIf (fun x => x.seq == e1.seq) (fun _ => resyncEntry d1 c hit e1) (d1.chn c).entries := by
    unfold d3 d2 e'
    rw [readerCheck_entries, Dev.updChn_chn, if_pos rfl, updEntry_entries, hE, hA]
  have h4 : (d4.chn c).entries = (d3.chn c).entries := by
    unfold d4
    split <;> rfl
  rw [← h3, ← h4]
  clear_value d4
  split
  · rw [syncChn_chn]
    rfl
  · rfl

/-! ### Decoding -/

/-- The places that the report of a decode's end changes, the count of its outcome among them. -/
def decodeEndFoot : Nat := footOf [.card] [F.chnCnt_count] ||| reportResultFoot

/-- A decode that the code accepts: the entry is good, it is counted, and the word's bytes are delivered (R211). -/
theorem finishDecode_good {d : Dev} {c : Nat} {e : SectorEntry} {m : DecodeMode} {limit : Nat} {res : DecodeRes} {framing : Nat} :
    ((finishDecode d c e m limit res true framing).chn c).entries = listMapIf (fun x => x.seq == e.seq)
      (fun _ => { e with dec := true, ok := true, reframing := false, status := 0, framing := framing, released := true }) (d.chn c).entries ∧
    (finishDecode d c e m limit res true framing).rd F.chnCnt_count c 0 = (d.rd F.chnCnt_count c 0 + 1) % 2 ^ F.chnCnt_count.w ∧
    (finishDecode d c e m limit res true framing).out = .sector c e.seq e.sector (wordBytes res.word) e.poison :: d.out := by
  unfold finishDecode
  extract_lets e' d1 iters errs d2 d3 low d4 d5 d6 d7
  have h6 : keep decodeEndFoot d6 = keep decodeEndFoot d1 := by
    simp +decide only [d6, d5, d4, d3, d2, ↓keep_addWrap, ↓keep_cardBin, ↓keep_reportResult, ↓keep_ite, ite_self]
  have h7 : keep (adaptTapsFoot ||| footOf [.out] []) d7 = keep (adaptTapsFoot ||| footOf [.out] []) d6 := by
    simp +decide only [d7, ↓keep_emit, ↓keep_adaptTaps, if_true]
  refine ⟨?_, ?_, ?_⟩
  · rw [syncChn_chn, Dev.chn_of_chns (chns_of_keep h7 (by decide)), Dev.chn_of_chns (chns_of_keep h6 (by decide)), updEntry_entries]
    rfl
  · have h3 : d3.rd F.chnCnt_count c 0 = (d.rd F.chnCnt_count c 0 + 1) % 2 ^ F.chnCnt_count.w := by
      have h2 : d2.rd F.chnCnt_count c 0 = d.rd F.chnCnt_count c 0 :=
        rd_of_keep (keep_reportResult (ft := reportResultFoot) (by decide) ..) (by decide) c 0
      rw [← h2]
      exact Dev.rd_wr_same ..
    have h4 : d4.rd F.chnCnt_count c 0 = d3.rd F.chnCnt_count c 0 := rd_of_keep (m := cardBinFoot)
      (by simp +decide only [d4, ↓keep_cardBin, ↓keep_ite, ite_self]) (by decide) c 0
    have h5 : d5.rd F.chnCnt_count c 0 = d4.rd F.chnCnt_count c 0 := by
      unfold d5
      split
      · exact Dev.rd_addWrap_entry _ _ _ _ _ _ _ (by decide)
      · rfl
    have h6 : d6.rd F.chnCnt_count c 0 = d5.rd F.chnCnt_count c 0 := by
      unfold d6
      split
      · exact Dev.rd_addWrap_entry _ _ _ _ _ _ _ (by decide)
      · rfl
    rw [syncChn_rd _ _ (by decide), rd_of_keep h7 (by decide), h6, h5, h4, h3]
  · rw [syncChn_out]
    show _ :: (adaptTaps c e m res d6).out = _
    rw [out_of_keep (keep_adaptTaps (ft := adaptTapsFoot) (by decide) ..) (by decide), out_of_keep h6 (by decide)]
    rfl

/-- The samples lost to memory errors count in no count of a decode's outcome. -/
theorem loseSamples_count (d : Dev) (c : Nat) (e : SectorEntry) (res : DecodeRes) :
    (loseSamples d c e res).2.rd F.chnCnt_count c 0 = d.rd F.chnCnt_count c 0 := by
  unfold loseSamples
  extract_lets spans e' d1
  have h1 : d1.rd F.chnCnt_count c 0 = d.rd F.chnCnt_count c 0 := rd_of_keep (m := memErrorFoot)
    (keep_forEach _ _ _ fun _ _ => keep_memError (by decide) ..) (by decide) c 0
  rw [← h1]
  show (countErased d1 c e.erased e'.erased).rd F.chnCnt_count c 0 = _
  unfold countErased
  split
  · exact Dev.rd_addWrap_entry _ _ _ _ _ _ _ (by decide)
  · rfl

theorem loseSamples_held (d : Dev) (c : Nat) (e : SectorEntry) (res : DecodeRes) :
    ((loseSamples d c e res).2.chn c).held = (d.chn c).held := by
  unfold loseSamples
  extract_lets spans e' d1
  have h1 : d1.chns = d.chns := chns_of_keep (m := memErrorFoot) (keep_forEach _ _ _ fun _ _ => keep_memError (by decide) ..) (by decide)
  rw [updEntry_held, Dev.chn_of_chns (countErased_chns ..), Dev.chn_of_chns h1]

/-! ### Decoding again -/

/-- A re-decode asked for is considered: neither one runs nor is the clock lost. -/
theorem redecode_goes {d : Dev} {c : Nat} (seq variant : Nat) (hbusy : d.flag F.chnRedecode_busy c = false) (hlost : chnLost d c = false) :
    ((((d.wr F.chnRedecode_seq seq c).wr F.chnRedecode_variant variant c).flag F.chnRedecode_busy c) ||
      chnLost ((d.wr F.chnRedecode_seq seq c).wr F.chnRedecode_variant variant c) c) = false := by
  rw [Dev.flag_wr_ne _ _ _ _ _ _ _ _ (by decide), Dev.flag_wr_ne _ _ _ _ _ _ _ _ (by decide), hbusy]
  exact hlost

theorem redecodeStart_runs {d : Dev} {c seq variant : Nat} {e : SectorEntry} (hbusy : d.flag F.chnRedecode_busy c = false)
    (hlost : chnLost d c = false) (hheld : samplesHeld (d.chn c) (seq % 65536) = some e) (hvariant : variant < 5) :
    (redecodeStart c seq variant d).flag F.chnRedecode_busy c = true ∧
    (redecodeStart c seq variant d).rd F.chnRedecode_variant c = variant ∧
    ((redecodeStart c seq variant d).chn c).redecode = some ⟨e.seq, variant, !(decodeWaiting (d.chn c)).isEmpty⟩ := by
  have hrun : redecodeStart c seq variant d = syncChn ((((d.wr F.chnRedecode_seq seq c).wr F.chnRedecode_variant variant c).updChn c fun ch =>
      { ch with redecode := some ⟨e.seq, variant, !(decodeWaiting ch).isEmpty⟩ }).setFlag F.chnRedecode_busy true c) c := by
    unfold redecodeStart
    simp only [redecode_goes seq variant hbusy hlost, if_neg Bool.false_ne_true, Dev.wr_chn, hheld, if_neg (Nat.ne_of_lt hvariant)]
  have hsmall : variant < 2 ^ F.chnRedecode_variant.w := Nat.lt_trans hvariant (by decide)
  rw [hrun]
  refine ⟨?_, ?_, ?_⟩
  · rw [Dev.flag, syncChn_rd _ _ (by decide)]
    exact Dev.flag_setFlag _ _ _ _ _ (by decide)
  · rw [syncChn_rd _ _ (by decide), Dev.rd_setFlag_ne _ _ _ _ _ _ _ _ (by decide), Dev.updChn_rd, Dev.rd_wr_lt _ _ _ _ _ hsmall]
  · simp only [syncChn_chn, Dev.setFlag, Dev.wr_chn, Dev.updChn_chn, if_pos]

theorem redecodeStart_releases {d : Dev} {c seq variant : Nat} {e : SectorEntry} (hbusy : d.flag F.chnRedecode_busy c = false)
    (hlost : chnLost d c = false) (hheld : samplesHeld (d.chn c) (seq % 65536) = some e) (hvariant : variant = 5) :
    (redecodeStart c seq variant d).flag F.chnRedecode_done c = true ∧
    ((redecodeStart c seq variant d).chn c).held = (d.chn c).held.filter (fun x => x.seq != e.seq) := by
  have hrun : redecodeStart c seq variant d = syncChn ((((d.wr F.chnRedecode_seq seq c).wr F.chnRedecode_variant variant c).updChn c fun ch =>
      { ch with held := ch.held.filter fun x => x.seq != e.seq,
                entries := listMapIf (fun x => x.seq == e.seq) (fun x => { x with released := true }) ch.entries }).setFlag
          F.chnRedecode_done true c) c := by
    unfold redecodeStart
    simp only [redecode_goes seq variant hbusy hlost, if_neg Bool.false_ne_true, Dev.wr_chn, hheld, if_pos hvariant]
  rw [hrun]
  refine ⟨?_, ?_⟩
  · rw [Dev.flag, syncChn_rd _ _ (by decide)]
    exact Dev.flag_setFlag _ _ _ _ _ (by decide)
  · simp only [syncChn_chn, Dev.setFlag, Dev.wr_chn, Dev.updChn_chn, if_pos]

/-- What an accepted re-decode leaves (R218). -/
structure Redecoded (c : Nat) (held : List SectorEntry) (out : List Emit) (d : Dev) : Prop where
  busy : d.flag F.chnRedecode_busy c = false
  done : d.flag F.chnRedecode_done c = true
  redecode : (d.chn c).redecode = none
  held : (d.chn c).held = held
  out : d.out = out

theorem Redecoded.sync {c : Nat} {held : List SectorEntry} {out : List Emit} {d : Dev} (h : Redecoded c held out d) :
    Redecoded c held out (syncChn d c) := by
  obtain ⟨hbusy, hdone, hre, hheld, hout⟩ := h
  refine ⟨?_, ?_, ?_, ?_, ?_⟩
  · rw [Dev.flag, syncChn_rd _ _ (by decide)]
    exact hbusy
  · rw [Dev.flag, syncChn_rd _ _ (by decide)]
    exact hdone
  · rw [syncChn_chn, hre]
  · rw [syncChn_chn, hheld]
  · rw [syncChn_out, hout]

theorem redecodeDone_frees {d d1 : Dev} {c : Nat} {res : DecodeRes} {r : Redecode} {e e1 : SectorEntry}
    (hrun : (d.chn c).redecode = some r) (hidle : decodeWaiting (d.chn c) = []) (hheld : samplesHeld (d.chn c) r.seq = some e)
    (hfits : decodeFits d c (d.rd F.chnDecode_max_iter c) res = true) (hok : decodeOk (d.rd F.chnDecode_max_iter c) res = true)
    (he1 : e1 = (loseSamples d c e res).1) (hd1 : d1 = (loseSamples d c e res).2) :
    Redecoded c ((d.chn c).held.filter fun x => x.seq != e.seq)
      (.sector c e1.seq e1.sector (wordBytes res.word) e1.poison :: d1.out) (redecodeDone c res d) := by
  have hpair : loseSamples d c e res = (e1, d1) := by rw [he1, hd1]
  have hseq : e1.seq = e.seq := by rw [he1]; rfl
  have hkept : (d1.chn c).held = (d.chn c).held := by rw [hd1, loseSamples_held]
  unfold redecodeDone
  split
  · next h => rw [hrun] at h; cases h
  next r' h =>
  rw [hrun] at h
  cases h
  rw [hidle, List.isEmpty_nil, Bool.not_true, if_neg Bool.false_ne_true]
  split
  · next h => rw [hheld] at h; cases h
  next e' h =>
  rw [hheld] at h
  cases h
  simp only [hfits, Bool.not_true, if_neg Bool.false_ne_true, hpair, hok, if_true]
  refine Redecoded.sync ?_
  generalize hx : Dev.addWrap _ F.chnCnt_count 1 c 0 = x
  have hxkeep : keep decodeEndFoot x = keep decodeEndFoot d1 := by
    simp +decide only [← hx, ↓keep_addWrap, ↓keep_reportResult, ↓keep_countErased]
  refine ⟨?_, Dev.flag_setFlag _ F.chnRedecode_done true c 0 (by decide), ?_, ?_, ?_⟩
  · rw [Dev.flag, Dev.emit_rd, Dev.rd_setFlag_ne _ _ _ _ _ _ _ _ (by decide)]
    exact Dev.flag_setFlag _ F.chnRedecode_busy false c 0 (by decide)
  · simp only [Dev.emit_chn, Dev.setFlag, Dev.wr_chn, Dev.updChn_chn, if_pos]
  · simp only [Dev.emit_chn, Dev.setFlag, Dev.wr_chn, Dev.updChn_chn, if_pos, hseq, Dev.chn_of_chns (chns_of_keep hxkeep (by decide)), hkept]
  · exact congrArg _ (out_of_keep hxkeep (by decide))

/-- Settles O17: one lemma for each part of a read, from the gate to the decode. -/
theorem readChannelRowsComplete : Obligations.ReadChannelRowsComplete := by
  unfold Obligations.ReadChannelRowsComplete
  refine ⟨?gate, ?primary, ?resync, ?parity, ?decode, ?reframed, ?redecode, ?release, ?redecoded⟩
  case gate =>
    intro s chn time g rest hqueue htime hrg hwg hag hsg hsw hshut hlost
    obtain ⟨hopen, hrest, hgain, hacq, hlock, hout⟩ := gateEdge_opens hqueue htime hrg hwg hag hsg hsw hshut hlost
    exact brings_of_run (g := gateEdge chn.val time) rfl ⟨hopen, hrest, hgain, hacq, hlock, hout⟩
  case primary =>
    intro s chn pos dist lock xs e e1 d1 hlast hsw hprim hend hd1 he1 hthresh
    subst hd1
    exact gives_of_run (g := primarySync chn.val pos dist lock xs) rfl (primarySync_frames hlast hsw hprim hend he1 hthresh)
  case resync =>
    intro s chn q dist amp0 amp1 poisoned lock xs e e1 d1 hfind hd1 he1 hprim hthresh
    refine brings_of_run (g := resyncEnd chn.val (some (q + 16416, dist, poisoned)) lock amp0 amp1 xs) rfl ?_
    rw [resyncEnd_entries hfind hd1 he1, resyncEntry_expected hprim]
    rw [hd1, rd_of_keep (keep_seeDefects (ft := seeDefectsFoot) (by decide) ..) (by decide)]
    exact hthresh
  case parity =>
    intro s chn xs e hfind
    refine brings_of_run (g := lastParity chn.val xs) rfl ?_
    simp only [lastParity, hfind, syncChn_chn, Dev.updChn_chn, if_pos]
  case decode =>
    intro s chn seq res e e1 d1 hin hreframing hfits hok he1 hd1
    have hrun : decodeDone chn.val seq res s.dev =
        finishDecode d1 chn.val e1 (entryMode e1) (decodeLimit s.dev chn.val e) res true e1.framing := by
      simp only [decodeDone, hin, hreframing, hfits, hok, Bool.not_true, Bool.or_false, if_neg Bool.false_ne_true, if_true, ← he1, ← hd1]
    obtain ⟨hentries, hcount, hout⟩ := finishDecode_good (d := d1) (c := chn.val) (e := e1) (m := entryMode e1)
      (limit := decodeLimit s.dev chn.val e) (res := res) (framing := e1.framing)
    refine brings_of_run (g := decodeDone chn.val seq res) rfl ?_
    rw [hrun]
    refine ⟨hentries, hcount.trans ?_, hout⟩
    rw [hd1, loseSamples_count]
  case reframed =>
    intro s chn seq res e e1 d1 hin hreframing hfits hok he1 hd1
    have hrun : reframedDone chn.val seq res s.dev =
        finishDecode d1 chn.val e1 (entryMode e1) (s.dev.rd F.chnDecode_max_iter chn.val) res true 3 := by
      simp only [reframedDone, hin, hreframing, hfits, hok, Bool.not_true, Bool.or_false, if_neg Bool.false_ne_true, if_true, ← he1, ← hd1]
    obtain ⟨hentries, -, hout⟩ := finishDecode_good (d := d1) (c := chn.val) (e := e1) (m := entryMode e1)
      (limit := s.dev.rd F.chnDecode_max_iter chn.val) (res := res) (framing := 3)
    refine brings_of_run (g := reframedDone chn.val seq res) rfl ?_
    rw [hrun]
    exact ⟨hentries, hout⟩
  case redecode =>
    intro s chn seq e P hbusy hlost hheld hP
    have hruns (v : Nat) (hv : v < 5) : P v (redecodeStart chn.val seq v s.dev) := by
      rw [hP]
      exact redecodeStart_runs hbusy hlost hheld hv
    exact ⟨brings_of_run (g := redecodeStart chn.val seq 1) rfl (hruns 1 (by decide)),
      brings_of_run (g := redecodeStart chn.val seq 2) rfl (hruns 2 (by decide)),
      brings_of_run (g := redecodeStart chn.val seq 3) rfl (hruns 3 (by decide)),
      brings_of_run (g := redecodeStart chn.val seq 4) rfl (hruns 4 (by decide))⟩
  case release =>
    intro s chn seq e hbusy hlost hheld
    exact brings_of_run (g := redecodeStart chn.val seq 5) rfl (redecodeStart_releases hbusy hlost hheld rfl)
  case redecoded =>
    intro s chn res r e e1 d1 hrun hidle hheld hfits hok he1 hd1
    obtain ⟨hbusy, hdone, hre, hfreed, hout⟩ := redecodeDone_frees hrun hidle hheld hfits hok he1 hd1
    exact brings_of_run (g := redecodeDone chn.val res) rfl
      ⟨hbusy, hdone, hre, hfreed, hout⟩

end Sys2Proof.Machine
end

section
/-! PROOF. Sequencer rows (R183-R200). -/
namespace Sys2Proof.Machine

/-! ### The end of a task -/

/-- No gate of a write is open at the channel, whatever else of it changes. -/
theorem gatesShut_of_chn {c : Nat} {d e : Dev} (hwg : (e.chn c).wg = (d.chn c).wg) (hag : (e.chn c).ag = (d.chn c).ag)
    (h : gatesShut c d) : gatesShut c e := ⟨hwg.trans h.1, hag.trans h.2⟩

theorem dropEntry_gates (d : Dev) (k : Nat) (e : SectorEntry) (acked : Bool) (c : Nat) :
    ((dropEntry d k e acked).chn c).wg = (d.chn c).wg ∧ ((dropEntry d k e acked).chn c).ag = (d.chn c).ag := by
  unfold dropEntry
  split
  · exact ⟨rfl, rfl⟩
  · split
    · by_cases h : c = k <;> simp [h]
    · exact ⟨rfl, rfl⟩

theorem shutRead_gates (d : Dev) (k c : Nat) :
    ((shutRead d k).chn c).wg = (d.chn c).wg ∧ ((shutRead d k).chn c).ag = (d.chn c).ag := by
  unfold shutRead
  split
  · exact ⟨rfl, rfl⟩
  · by_cases h : c = k <;> simp [h, trimStep, Dev.setFlag]

/-- What the end of a task does to one channel (R195). -/
def stopChn (d : Dev) (c : Nat) : Dev :=
  syncChn (shutRead ((forEach ((closeWrite d c).chn c).entries (closeWrite d c) fun d e => dropEntry d c e false).updChn c fun ch =>
    { ch with queue := [], entries := [], sw := false, sgSearch := false }) c) c

theorem gatesShut_stopChn {c k : Nat} {d : Dev} (h : k = c ∨ gatesShut c d) : gatesShut c (stopChn d k) := by
  have hclose : gatesShut c (closeWrite d k) := by
    rcases h with rfl | h
    · exact gatesShut_closeWrite d k
    · exact gatesShut_of_closeWrite h k
  have hdrop : gatesShut c (forEach ((closeWrite d k).chn k).entries (closeWrite d k) fun d e => dropEntry d k e false) :=
    forEach_inv (P := gatesShut c) (g := fun d e => dropEntry d k e false)
      (fun d e _ hd => gatesShut_of_chn (dropEntry_gates d k e false c).1 (dropEntry_gates d k e false c).2 hd) hclose
  unfold stopChn
  generalize forEach ((closeWrite d k).chn k).entries (closeWrite d k) (fun d e => dropEntry d k e false) = x at hdrop ⊢
  refine gatesShut_of_chn (d := x) ?_ ?_ hdrop
  · rw [syncChn_chn, (shutRead_gates _ _ _).1]
    by_cases hk : c = k <;> simp [hk]
  · rw [syncChn_chn, (shutRead_gates _ _ _).2]
    by_cases hk : c = k <;> simp [hk]

/-- The device once a task's window and channels are shut. -/
def stopped (d : Dev) (a : Nat) : Dev := forEach [2 * a, 2 * a + 1] (closePermit d a) stopChn

theorem seqStop_eq (d : Dev) (a cause status : Nat) : seqStop d a cause status =
    ((fun x : Dev => if cause = 0 then x.wr F.sqrStat_status status a else x) ((((((stopped d a).updSeq a fun q =>
      { q with stack := [], wait := .none, ended := some (cause, status) }).wr F.sqrStat_state 0 a).wr F.sqrStat_sp 0 a).setFlag
        F.sqrStat_in_cust false a).wr F.sqrStat_cause cause a)).emit (.event evTaskEnd a) := rfl

/-- What the end of a task leaves of its sequencer. -/
theorem seqStop_seq (d : Dev) (a cause status : Nat) : (seqStop d a cause status).seq a =
    { (stopped d a).seq a with stack := [], wait := .none, ended := some (cause, status) } := by
  by_cases h : cause = 0 <;> simp [seqStop_eq, h, Dev.setFlag]

theorem seqStop_state (d : Dev) (a cause status : Nat) : (seqStop d a cause status).rd F.sqrStat_state a = 0 := by
  by_cases h : cause = 0 <;> simp +decide [seqStop_eq, h, Dev.setFlag, Dev.rd_wr_ne]

theorem seqStop_cause (d : Dev) (a cause status : Nat) (h : cause < 16) : (seqStop d a cause status).rd F.sqrStat_cause a = cause := by
  have hw : cause < 2 ^ F.sqrStat_cause.w := h
  by_cases h0 : cause = 0
  · subst h0
    simp +decide [seqStop_eq, Dev.setFlag, Dev.rd_wr_ne]
  · simp [seqStop_eq, h0, Nat.mod_eq_of_lt hw]

theorem seqStop_status (d : Dev) (a status : Nat) (h : status < 16) : (seqStop d a 0 status).rd F.sqrStat_status a = status := by
  have hw : status < 2 ^ F.sqrStat_status.w := h
  simp [seqStop_eq, Nat.mod_eq_of_lt hw]

theorem seqStop_chns (d : Dev) (a cause status : Nat) : (seqStop d a cause status).chns = (stopped d a).chns := by
  by_cases h : cause = 0 <;> simp [seqStop_eq, h, Dev.setFlag]

theorem stopped_gates (d : Dev) {a c : Nat} (hc : c ∈ [2 * a, 2 * a + 1]) : gatesShut c (stopped d a) :=
  forEach_reaches (P := gatesShut c) (g := stopChn) hc (fun _ => gatesShut_stopChn (.inl rfl)) (fun _ _ _ h => gatesShut_stopChn (.inr h)) _

theorem stopChn_seqs (d : Dev) (c : Nat) : (stopChn d c).seqs = d.seqs :=
  seqs_of_keep (m := closeWriteFoot ||| dropEntryFoot ||| shutReadFoot ||| syncChnFoot) (by
    simp +decide only [stopChn, ↓keep_syncChn, ↓keep_shutRead, ↓keep_updChn, ↓keep_dropEntry, ↓keep_forEach, ↓keep_closeWrite, implies_true])
    (by decide)

theorem stopped_permit (d : Dev) (a : Nat) : ((stopped d a).seq a).permit = [] := by
  have hseqs : (stopped d a).seqs = (closePermit d a).seqs := forEach_keeps (p := Dev.seqs) (fun e x _ => stopChn_seqs e x) _
  rw [Dev.seq, hseqs, ← Dev.seq]
  unfold closePermit
  extract_lets e
  rw [Dev.setFlag, Dev.wr_seq, Dev.updSeq_seq, if_pos rfl]

/-! ### The next word -/

theorem takeNext_word (d : Dev) (a : Nat) {pc : Nat} (h : pc < 8192) : (takeNext d a (.word pc)).rd F.sqrStat_pc a = pc ∧
    (takeNext d a (.word pc)).rd F.sqrStat_state a = 1 ∧ ((takeNext d a (.word pc)).seq a) = { d.seq a with wait := .none } ∧
    (takeNext d a (.word pc)).chns = d.chns ∧
    ∀ f : Fld, f.id ≠ F.sqrStat_pc.id → f.id ≠ F.sqrStat_state.id → f.id ≠ F.sqrStat_in_cust.id → ∀ i j,
      (takeNext d a (.word pc)).rd f i j = d.rd f i j := by
  have hw : pc < 2 ^ F.sqrStat_pc.w := h
  refine ⟨?_, ?_, ?_, ?_, ?_⟩
  · simp +decide [takeNext, Dev.setFlag, Dev.rd_wr_ne, Nat.mod_eq_of_lt hw]
  · simp +decide [takeNext, Dev.setFlag, Dev.rd_wr_ne]
  · simp [takeNext, Dev.setFlag]
  · simp [takeNext, Dev.setFlag]
  · intro f hpc hst hcust i j
    simp [takeNext, Dev.setFlag, Dev.rd_wr_ne _ _ _ _ _ _ _ _ hpc.symm, Dev.rd_wr_ne _ _ _ _ _ _ _ _ hst.symm,
      Dev.rd_wr_ne _ _ _ _ _ _ _ _ hcust.symm]

theorem goTo_word {d : Dev} {a w target : Nat} (h : target < 6144 ∨ 6144 ≤ w ∨ d.flag F.sqrCtl_cust_en a = true) :
    goTo d a w target = .word target := by
  have hstay : (inCustomer target && !inCustomer w && !d.flag F.sqrCtl_cust_en a) = false := by
    rcases h with h | h | h
    · simp [inCustomer, h]
    · simp [inCustomer, h]
    · simp [h]
  rw [goTo, hstay, if_neg Bool.false_ne_true]

/-- A legal word whose fields pass parity and whose commands have room runs. -/
theorem stepWord_runs {d : Dev} {mem : List Host.Cell} {a : Nat} {env : SeqEnv} {m : Micro} (hparity : env.parityFail % 256 = 0)
    (hbad : badFields d a (d.rd F.sqrStat_pc a) = 0) (hm : m = microOf (storeWord mem a (d.rd F.sqrStat_pc a)))
    (hlegal : (illegalWord d a m).1 = false) (hroom : hasRoom d a m = true) : stepWord d mem a env = runWord d a m env := by
  unfold stepWord
  simp only [hparity, hbad, ← hm, hlegal, hroom]
  rfl

theorem wordCommands_nil {d : Dev} {a : Nat} {m : Micro} {env : SeqEnv} {level : Nat} (h : hasGates m = false) :
    wordCommands d a m env level = [] := by simp [wordCommands, h]

/-- A word with none but a sequencing action: only the level, the stack and the word that follows are left of it. -/
theorem runWord_sequencing {d : Dev} {a : Nat} {m : Micro} {env : SeqEnv} (hgates : hasGates m = false) (hprofile : m.profile = 0)
    (hcop : m.cop = 0) (hwr : m.wrOp = 0) (hopen : m.permitOpen = false) (hclose : m.permitClose = false) (hackA : m.ackA = false)
    (hackB : m.ackB = false) (hscr : m.scr = 0) : runWord d a m env = takeNext ((d.updSeq a fun q =>
      { q with level := (d.seq a).level, stack := (nextWord d a m).2 }).wr F.sqrStat_sp (nextWord d a m).2.length a) a
        (nextWord d a m).1 := by
  simp [runWord, wordCommands_nil hgates, hprofile, hcop, hwr, hopen, hclose, hackA, hackB, hscr, counterOps, permitOps, forEach]

/-- A STOP word without gate or scratch action ends the task with its status. -/
theorem runWord_stop {d : Dev} {a : Nat} {m : Micro} {env : SeqEnv} (hgates : hasGates m = false) (hscr : m.scr = 0) (hnop : m.nop = 6) :
    ∃ e, runWord d a m env = seqStop e a 0 m.status := by
  have hnext : nextWord d a m = (.stop 0 m.status, (d.seq a).stack) := by simp [nextWord, hnop]
  unfold runWord
  simp only [wordCommands_nil hgates, List.any_nil, if_neg Bool.false_ne_true, hnext, hscr, if_true]
  exact ⟨_, rfl⟩

/-- What may change before a task's first word. -/
def taskPrepareFoot : Nat := footOf [.seqs] [F.sqrCnt_c, F.sqrWr_wr, F.sqrStat_sp] ||| flyUpdateFoot ||| pllArmFoot

theorem keep_pllArm_true {ft : Nat} (hft : inFoot (footOf [.chns] [F.chnWctl_arm]) ft = true) (c : Nat) (d : Dev) :
    keep ft (pllArm c true d) = keep ft d := by
  refine keep_mono hft ?_
  simp +decide only [pllArm, if_true, ↓keep_ite, ↓keep_updChn, ↓keep_setFlag, ite_self]

theorem taskParams_counters (d : Dev) (a : Nat) (k : Fin 4) :
    (forEach [0, 1, 2, 3] d fun d k => d.wr F.sqrCnt_c (d.rd F.sqrTaskParam_p a k) a k).rd F.sqrCnt_c a k.val =
      d.rd F.sqrTaskParam_p a k.val % 2 ^ F.sqrCnt_c.w := by
  refine congrArg Prod.fst (forEach_touches (p := fun d => (d.rd F.sqrCnt_c a k.val, d.rd F.sqrTaskParam_p a k.val))
    (g := fun d k => d.wr F.sqrCnt_c (d.rd F.sqrTaskParam_p a k) a k) (i := k.val)
    (v := (d.rd F.sqrTaskParam_p a k.val % 2 ^ F.sqrCnt_c.w, d.rd F.sqrTaskParam_p a k.val)) (by decide) (by revert k; decide) ?_ ?_)
  · intro e j hj hne
    have hj4 : j < 4 := List.mem_range.1 hj
    have hother : ¬(a % 64 = a % 64 ∧ k.val % 1024 = j % 1024) := by omega
    rw [Dev.rd_wr_self, if_neg hother, Dev.rd_wr_ne _ _ _ _ _ _ _ _ (by decide)]
  · intro e he
    simp only [Prod.mk.injEq] at he
    simp only [Dev.rd_wr_same, Dev.rd_wr_ne _ F.sqrCnt_c F.sqrTaskParam_p _ _ _ _ _ (by decide), he.2]

/-- A task at its start with its parameters in the counters (R183). -/
theorem taskStart_starts {d : Dev} {a : Nat} (hidle : d.rd F.sqrStat_state a = 0)
    (hcust : d.rd F.sqrTask_entry a < 6144 ∨ d.flag F.sqrCtl_cust_en a = true)
    (hclock : ∀ b : Fin 2, (d.rd F.sqrTask_chan a).testBit b.val = true → chnLost d (2 * a + b.val) = false) :
    ∃ e, taskStart a d = takeNext e a (.word (d.rd F.sqrTask_entry a)) ∧ (e.seq a).stack = [] ∧
      ∀ k : Fin 4, e.rd F.sqrCnt_c a k.val = d.rd F.sqrTaskParam_p a k.val % 2 ^ F.sqrCnt_c.w := by
  unfold taskStart
  rw [hidle, bne_self_eq_false, if_neg Bool.false_ne_true]
  extract_lets d1 d2 d3 d4 d5 d6 entry lost
  have h6 : keep (footOf [.chns] [F.chnWctl_arm]) d6 = keep (footOf [.chns] [F.chnWctl_arm]) d5 := by
    simp +decide only [d6, ↓keep_ite, ↓keep_forEach, ↓keep_pllArm_true, implies_true, ite_self]
  have h5 : keep flyUpdateFoot d5 = keep flyUpdateFoot d4 := by simp +decide only [d5, ↓keep_flyUpdate]
  have h4 : keep (footOf [.seqs] [F.sqrCnt_c, F.sqrWr_wr, F.sqrStat_sp]) d4 = keep (footOf [.seqs] [F.sqrCnt_c, F.sqrWr_wr, F.sqrStat_sp]) d := by
    simp +decide only [d4, d3, d2, d1, ↓keep_wr, ↓keep_updSeq, ↓keep_forEach, implies_true]
  have hkeep : keep taskPrepareFoot d6 = keep taskPrepareFoot d :=
    (keep_mono (by decide) h6).trans ((keep_mono (by decide) h5).trans (keep_mono (by decide) h4))
  have hentry6 : entry = d.rd F.sqrTask_entry a := rd_of_keep hkeep (by decide) a 0
  have hchan6 : d6.rd F.sqrTask_chan a = d.rd F.sqrTask_chan a := rd_of_keep hkeep (by decide) a 0
  have hlost6 (c : Nat) : chnLost d6 c = chnLost d c := by rw [chnLost, reset_of_keep hkeep (by decide), chnLost]
  have hlost : lost = false := by
    have h0 : ((d.rd F.sqrTask_chan a).testBit 0 && chnLost d (2 * a)) = false := Bool.and_eq_false_imp.2 (hclock 0)
    have h1 : ((d.rd F.sqrTask_chan a).testBit 1 && chnLost d (2 * a + 1)) = false := Bool.and_eq_false_imp.2 (hclock 1)
    simp only [lost, List.any_cons, List.any_nil, hchan6, hlost6, show 2 * a % 2 = 0 by omega, show (2 * a + 1) % 2 = 1 by omega, h0, h1,
      Bool.or_self]
  have hstay : (inCustomer entry && !d6.flag F.sqrCtl_cust_en a) = false := by
    rw [hentry6, Dev.flag, rd_of_keep hkeep (by decide), ← Dev.flag]
    rcases hcust with h | h
    · simp [inCustomer, h]
    · simp [h]
  rw [hlost, if_neg Bool.false_ne_true, hstay, if_neg Bool.false_ne_true, hentry6]
  refine ⟨d6, rfl, ?_, fun k => ?_⟩
  · rw [Dev.seq, seqs_of_keep h6 (by decide), seqs_of_keep h5 (by decide), ← Dev.seq]
    simp only [d4, d3, Dev.wr_seq, Dev.updSeq_seq, if_pos]
  · rw [rd_of_keep h6 (by decide), rd_of_keep h5 (by decide)]
    rw [show d4 = d3.wr F.sqrStat_sp 0 a from rfl, Dev.rd_wr_ne _ _ _ _ _ _ _ _ (by decide), show d3 = d2.updSeq a _ from rfl, Dev.updSeq_rd,
      show d2 = d1.wr F.sqrWr_wr 0 a from rfl, Dev.rd_wr_ne _ _ _ _ _ _ _ _ (by decide)]
    exact taskParams_counters d a k

theorem micro_target_lt (v : Nat) : (microOf v).target < 8192 := Nat.mod_lt _ (by decide)

theorem micro_status_lt (v : Nat) : (microOf v).status < 16 := Nat.mod_lt _ (by decide)

theorem memRead_two_lt (m : List Host.Cell) (at' : Nat) : memRead m at' 2 < 65536 := by
  have h0 := (memByte m at').isLt
  have h1 := (memByte m (at' + 1)).isLt
  simp only [memRead]
  omega

/-- Settles O18: each word by what is left of it, the stops by what the end of a task leaves. -/
theorem sequencerRowsComplete : Obligations.SequencerRowsComplete := by
  unfold Obligations.SequencerRowsComplete
  refine ⟨?start, ?word, ?jump, ?stop, ?met, ?timeout, ?room, ?load, ?store, ?abort⟩
  case start =>
    intro s a k hidle hentry hcust hclock
    obtain ⟨e, hrun, hstack, hcnt⟩ := taskStart_starts hidle hcust hclock
    obtain ⟨hpc, hstate, hseq, -, hrest⟩ := takeNext_word e a.val hentry
    refine brings_of_run (g := taskStart a.val) rfl ?_
    rw [hrun]
    refine ⟨hstate, hpc, ?_, ?_⟩
    · rw [hrest _ (by decide) (by decide) (by decide), hcnt k]
    · rw [hseq, ← hstack]
  case word =>
    intro s a env m hstate hwait hparity hbad hm hlegal hroom
    refine gives_of_run rfl ?_
    simp only [hstate, hwait, decide_true, beq_self_eq_true, Bool.and_self, if_true, stepWord_runs hparity hbad hm hlegal hroom]
  case jump =>
    intro s a env m hstate hwait hparity hbad hm hlegal hgates hprofile hcop hwr hopen hclose hackA hackB hscr hnop htarget
    have hroom : hasRoom s.dev a.val m = true := by simp [hasRoom, hgates]
    have hnext : nextWord s.dev a.val m = (.word m.target, (s.dev.seq a.val).stack) := by simp [nextWord, hnop, goTo_word htarget]
    have hsmall : m.target < 8192 := hm ▸ micro_target_lt _
    refine brings_of_run rfl ?_
    simp only [hstate, hwait, decide_true, beq_self_eq_true, Bool.and_self, if_true, stepWord_runs hparity hbad hm hlegal hroom,
      runWord_sequencing hgates hprofile hcop hwr hopen hclose hackA hackB hscr, hnext]
    obtain ⟨hpc, hrun, hseq, hchns, -⟩ := takeNext_word ((s.dev.updSeq a.val fun q =>
      { q with level := (s.dev.seq a.val).level, stack := (s.dev.seq a.val).stack }).wr F.sqrStat_sp (s.dev.seq a.val).stack.length a.val)
        a.val hsmall
    refine ⟨hpc, hrun, ?_, hchns⟩
    rw [hseq, Dev.wr_seq, Dev.updSeq_seq, if_pos rfl]
  case stop =>
    intro s a env m hstate hwait hparity hbad hm hlegal hgates hscr hnop
    have hroom : hasRoom s.dev a.val m = true := by simp [hasRoom, hgates]
    obtain ⟨e, hrun⟩ := runWord_stop (d := s.dev) (a := a.val) (env := env) hgates hscr hnop
    refine brings_of_run rfl ?_
    simp only [hstate, hwait, decide_true, beq_self_eq_true, Bool.and_self, if_true, stepWord_runs hparity hbad hm hlegal hroom, hrun]
    exact ⟨seqStop_state .., seqStop_cause _ _ _ _ (by decide), seqStop_status _ _ _ (hm ▸ micro_status_lt _), by rw [seqStop_seq],
      by rw [seqStop_seq]⟩
  case met =>
    intro s a env refs hwait hcond hpc hcust
    have hnext : goOn s.dev a.val = .word (s.dev.rd F.sqrStat_pc a.val + 1) := by
      rw [goOn, if_neg (Nat.ne_of_lt hpc)]
      refine goTo_word (hcust.elim (fun h => ?_) fun h => .inr (.inr h))
      omega
    obtain ⟨hpc', hrun, hseq, -, -⟩ := takeNext_word s.dev a.val (pc := s.dev.rd F.sqrStat_pc a.val + 1) (by omega)
    refine brings_of_run (execWaitConditionMet.eq_def a env s) ?_
    simp only [hwait, hcond, if_true, hnext]
    exact ⟨hpc', hrun, by rw [hseq]⟩
  case timeout =>
    intro s a env refs m hwait hm hexpired hcond htarget
    have hnext : goTo s.dev a.val (s.dev.rd F.sqrStat_pc a.val) m.target = .word m.target := goTo_word htarget
    obtain ⟨hpc', hrun, hseq, -, -⟩ := takeNext_word s.dev a.val (pc := m.target) (hm ▸ micro_target_lt _)
    refine brings_of_run (execWaitTimeout.eq_def a env s) ?_
    simp only [hwait, ← hm, hexpired, hcond, if_true, if_neg Bool.false_ne_true, hnext]
    exact ⟨hpc', hrun, by rw [hseq]⟩
  case room =>
    intro s a env m hwait hm hroom
    refine gives_of_run (execGateQueueSpace.eq_def a env s) ?_
    simp only [hwait, ← hm, hroom, if_true]
  case load =>
    intro s a sel g h pc hwait hpc
    have hread : memRead s.mem (scratchBase g + 2 * h) 2 < 2 ^ F.sqrCnt_c.w := memRead_two_lt ..
    obtain ⟨hpc', -, hseq, -, hrest⟩ := takeNext_word (s.dev.wr F.sqrCnt_c (memRead s.mem (scratchBase g + 2 * h) 2) a.val sel.val) a.val hpc
    refine ⟨takeNext (s.dev.wr F.sqrCnt_c (memRead s.mem (scratchBase g + 2 * h) 2) a.val sel.val) a.val (.word pc), ?_, ?_, hpc', ?_⟩
    · simp only [Gives, exec, execScratchAccessDone, liftMem, hwait, if_neg Bool.false_ne_true]
    · rw [hrest _ (by decide) (by decide) (by decide), Dev.rd_wr_lt _ _ _ _ _ hread]
    · rw [hseq]
  case store =>
    intro s a sel g h next poison hwait
    simp only [GivesMem, exec, execScratchAccessDone, liftMem, hwait, if_true]
  case abort =>
    intro s a hstate
    have hrun : abortTask a.val s.dev = seqStop s.dev a.val 1 0 := if_pos (bne_iff_ne.2 hstate)
    refine brings_of_run (g := abortTask a.val) rfl ?_
    rw [hrun]
    refine ⟨seqStop_state .., seqStop_cause _ _ _ _ (by decide), ?_, ?_, ?_, ?_⟩
    · rw [seqStop_seq]
    · rw [seqStop_seq]
      exact stopped_permit ..
    · rw [Dev.chn_of_chns (seqStop_chns ..)]
      exact (stopped_gates s.dev (by simp)).1
    · rw [Dev.chn_of_chns (seqStop_chns ..)]
      exact (stopped_gates s.dev (by simp)).1

end Sys2Proof.Machine
end

section
/-! PROOF. Control-store rows (R198, R201). -/
namespace Sys2Proof.Machine

theorem find_filter_key (l : List (Nat × Nat)) (w : Nat) : (l.filter fun x => x.1 != w).find? (fun x => x.1 == w) = none := by
  simp

/-- A word whose entries are taken out fails no field. -/
theorem badFields_filtered {d : Dev} {a w : Nat} {l : List (Nat × Nat)} (h : (d.seq a).bad = l.filter fun x => x.1 != w) :
    badFields d a w = 0 := by
  rw [badFields, h, find_filter_key]
  rfl

theorem storeAccess_read {rq : Requester} {a off n : Nat} {d : Dev} {m : List Host.Cell} (h : legalSize off n = true) :
    storeAccess rq a off (.rd n) d m = (d.emit (.bus (reqNum rq) true (memRead m (csBase a + off) n)), m) := by
  simp [storeAccess, accSize, h, busOk]

/-- The state once a customer word is committed: nothing is left that fails parity in it. -/
def wordCommitted (rq : Requester) (a w : Nat) (d : Dev) : Dev :=
  (busOk d rq 0).updSeq a fun q => { q with bad := q.bad.filter (fun y => y.1 != w), repaired := q.repaired.filter (fun y => y != w) }

theorem useInjection_unarmed {d : Dev} (h : d.flag F.eccInj_armed = false) (mac lo n : Nat) : useInjection d mac lo n = (none, d) := by
  simp [useInjection, h]

theorem storeAccess_commits {rq : Requester} {a w : Nat} {data : BitVec 64} {d : Dev} {m : List Host.Cell} (hw : 6144 ≤ w)
    (hen : d.flag F.sqrCtl_cust_en a = false) (hin : d.flag F.sqrStat_in_cust a = false) (hinj : d.flag F.eccInj_armed = false) :
    storeAccess rq a (32 * w + 8) (.wr 8 data) d m =
      (wordCommitted rq a w d, commitWord m a w ((d.seq a).latch % 2 ^ 64 + data.toNat * 2 ^ 64)) := by
  have hword : (32 * w + 8) / 32 = w := by omega
  have hplace : (32 * w + 8) % 32 = 8 := by omega
  have hlegal : legalSize (32 * w + 8) 8 = true := by simp [legalSize]; omega
  have hinj' : (busOk d rq 0).flag F.eccInj_armed = false := hinj
  simp [storeAccess, accSize, hlegal, hword, hplace, inCustomer, hw, hen, hin, useInjection_unarmed hinj', wordCommitted]

/-- Settles O19: what each access and each repair does to the list of words that fail parity. -/
theorem controlStoreRowsComplete : Obligations.ControlStoreRowsComplete := by
  unfold Obligations.ControlStoreRowsComplete
  refine ⟨?enable, ?disable, ?read, ?write, ?repair⟩
  case enable =>
    intro s rq a
    exact ⟨_, rfl, Dev.flag_setFlag s.dev F.sqrCtl_cust_en true a.val 0 (by decide), rfl⟩
  case disable =>
    intro s rq a
    rfl
  case read =>
    intro s rq a off n hoff hlegal
    simp only [Gives, exec, execControlStoreWrite, liftMem, Nat.mod_eq_of_lt hoff, storeAccess_read hlegal]
  case write =>
    intro s rq a w data hw hw' hen hin hinj
    have hoff : 32 * w + 8 < 0x40000 := by omega
    refine ⟨wordCommitted rq a.val w s.dev, ?_, fun _ _ _ => rfl, rfl, ?_⟩
    · simp only [GivesMem, exec, execControlStoreWrite, liftMem, Nat.mod_eq_of_lt hoff, storeAccess_commits hw hen hin hinj]
    · refine badFields_filtered (l := (s.dev.seq a.val).bad) ?_
      simp [wordCommitted, busOk]
  case repair =>
    intro s a
    refine brings_of_run (g := storeRepair a.val false) rfl ?_
    refine ⟨badFields_filtered (l := (s.dev.seq a.val).bad) ?_, ?_, fun _ _ _ => rfl⟩
    · simp [storeRepair]
    · simp only [storeRepair, if_neg Bool.false_ne_true, Dev.updSeq_seq, if_pos]
      split
      · assumption
      · simp

end Sys2Proof.Machine
end

section
/-! PROOF. Rows of a servo lane (R249-R265). -/
namespace Sys2Proof.Machine

/-! ### The state of a lane -/

theorem Dev.lane_of_servos {d e : Dev} (h : e.servos = d.servos) (n l : Nat) : e.lane n l = d.lane n l := by
  simp only [Dev.lane, Dev.servo, h]

theorem Dev.servo_of_servos {d e : Dev} (h : e.servos = d.servos) (n : Nat) : e.servo n = d.servo n := by simp only [Dev.servo, h]

theorem Dev.lane_updLane (d : Dev) (n l : Nat) (g : Lane → Lane) : (d.updLane n l g).lane n l = g (d.lane n l) := by
  by_cases h : l = 0 <;> simp [Dev.lane, Dev.updLane, laneOf, h]

theorem Dev.retracted_updLane (d : Dev) (n l k : Nat) (g : Lane → Lane) : ((d.updLane n l g).servo k).retracted = (d.servo k).retracted := by
  by_cases hk : k = n
  · by_cases h : l = 0 <;> simp [Dev.updLane, h, hk]
  · simp [Dev.updLane, hk]

/-- A value put in a node changes no lane and no retract. -/
theorem lane_setNode (d : Dev) (n k : Nat) (v : Int) (m l : Nat) : (setNode d n k v).2.lane m l = d.lane m l := by
  have hlane : (d.updServo n fun p => { p with nodes := tabPut 0 p.nodes k (satNode (nodeRange n k).1 (nodeRange n k).2 v).1 }).lane m l =
      d.lane m l := by
    by_cases hm : m = n <;> simp [Dev.lane, laneOf, hm]
  rw [← hlane]
  unfold setNode
  extract_lets r s e
  show Dev.lane (if s.2 = true then _ else e) m l = _
  split <;> rfl

theorem lane_putNode (d : Dev) (n k : Nat) (v : Int) (m l : Nat) : (putNode d n k v).lane m l = d.lane m l := lane_setNode ..

theorem setNode_fst (d : Dev) (n k : Nat) (v : Int) : (setNode d n k v).1 = (satNode (nodeRange n k).1 (nodeRange n k).2 v).1 := rfl

/-! ### The servo's word about a channel -/

theorem servoOk_flyUpdate (d : Dev) (c k : Nat) : ((flyUpdate d c).chn k).servoOk = (d.chn k).servoOk := by
  by_cases h : k = c
  · subst h
    unfold flyUpdate
    extract_lets
    split
    · rfl
    · split
      · simp
      · unfold Dev.emitSlot Dev.onSlot Dev.when
        split <;> simp [Dev.setFlag]
  · rw [flyUpdate_chn_ne d h]

theorem servoOk_endWrite (d : Dev) (c k : Nat) : ((endWrite d c).chn k).servoOk = (d.chn k).servoOk := by
  unfold endWrite
  extract_lets e e' f g
  have he : (e.chn k).servoOk = (d.chn k).servoOk := by
    unfold e
    split <;> rfl
  have hg : (g.chn k).servoOk = (d.chn k).servoOk := by
    show (e'.chn k).servoOk = _
    rw [← he]
    by_cases h : k = c <;> simp [e', h]
  split
  · rw [servoOk_flyUpdate, hg]
  · exact hg

theorem servoOk_closeWrite (d : Dev) (c k : Nat) : ((closeWrite d c).chn k).servoOk = (d.chn k).servoOk := by
  unfold closeWrite
  extract_lets e
  split
  · rfl
  · show (e.chn k).servoOk = _
    rw [← servoOk_endWrite d c k]
    by_cases h : k = c <;> simp [e, h]

theorem servoOk_closePermit (d : Dev) (a k : Nat) : ((closePermit d a).chn k).servoOk = (d.chn k).servoOk := by
  unfold closePermit
  extract_lets e
  rw [Dev.setFlag, Dev.wr_chn, Dev.updSeq_chn]
  exact forEach_keeps (p := fun d => (d.chn k).servoOk) (g := fun d (ct : Nat × Nat) => closeWrite d ct.1)
    (fun e x _ => servoOk_closeWrite e x.1 k) d

theorem servoOk_setCause (d : Dev) (c b : Nat) (v : Bool) (k : Nat) : ((setCause d c b v).chn k).servoOk = (d.chn k).servoOk := by
  unfold setCause
  extract_lets was d1 d2 d3 d4
  have h3 : d3.chns = d.chns := by
    unfold d3 d2
    split <;> rfl
  have h4 : d4.chns = d.chns := by
    rw [← h3]
    unfold d4
    split <;> rfl
  split
  · unfold closePermitOf
    split
    · rw [servoOk_closePermit, servoOk_closeWrite, Dev.chn_of_chns h4]
    · rw [servoOk_closeWrite, Dev.chn_of_chns h4]
  · rw [Dev.chn_of_chns h3]

theorem servoOk_setServoOk (d : Dev) (c : Nat) (ok : Bool) (k : Nat) :
    ((setServoOk d c ok).chn k).servoOk = if k = c then ok else (d.chn k).servoOk := by
  unfold setServoOk
  extract_lets e
  have he : (e.chn k).servoOk = if k = c then ok else (d.chn k).servoOk := by
    by_cases h : k = c <;> simp [e, h]
  split
  · exact he
  · rw [servoOk_setCause, he]

theorem servoOk_stopChn (d : Dev) (c k : Nat) : ((stopChn d c).chn k).servoOk = (d.chn k).servoOk := by
  have hdrop (e : Dev) (x : SectorEntry) : ((dropEntry e c x false).chn k).servoOk = (e.chn k).servoOk := by
    unfold dropEntry
    split
    · rfl
    · split
      · by_cases h : k = c <;> simp [h]
      · rfl
  have hshut (e : Dev) : ((shutRead e c).chn k).servoOk = (e.chn k).servoOk := by
    unfold shutRead
    split
    · rfl
    · by_cases h : k = c <;> simp [h, trimStep, Dev.setFlag]
  unfold stopChn
  rw [syncChn_chn, hshut, ← servoOk_closeWrite d c k, ← forEach_keeps (p := fun d => (d.chn k).servoOk)
    (g := fun d e => dropEntry d c e false) (l := ((closeWrite d c).chn c).entries) (fun e x _ => hdrop e x) (closeWrite d c)]
  by_cases h : k = c <;> simp [h]

theorem servoOk_seqStop (d : Dev) (a cause status k : Nat) : ((seqStop d a cause status).chn k).servoOk = (d.chn k).servoOk := by
  rw [Dev.chn_of_chns (seqStop_chns ..), ← servoOk_closePermit d a k]
  exact forEach_keeps (p := fun d => (d.chn k).servoOk) (fun e x _ => servoOk_stopChn e x k) _

/-! ### A sample of a head -/

/-- What the rows say of a lane's head a: its samples missing and good in a row, its position, and the servo's word about both heads. -/
def headView (n l : Nat) (d : Dev) : Nat × Nat × Int × Bool × Bool :=
  ((d.lane n l).a.miss, (d.lane n l).a.good, (d.lane n l).a.y, (d.chn (laneChn n l 0)).servoOk, (d.chn (laneChn n l 1)).servoOk)

/-- The steps of a sample of a head (R250): the velocity's node, the PES, the position, the count of missing samples and the head's own
record. -/
def headVel (d : Dev) (n l : Nat) (x : ServoSample) : Dev := if x.age = 0 then putNode d n (64 * l + 17) x.vel else d

def headPes (d : Dev) (n l slot : Nat) (x : ServoSample) : Int × Dev := setNode (headVel d n l x) n (64 * l + slot) x.pes

def headPos (d : Dev) (n l slot : Nat) (x : ServoSample) : Int × Dev :=
  setNode (headPes d n l slot x).2 n (64 * l + 2 + slot)
    ((if sampleOk x then (x.track : Int) * 1024 + (headPes d n l slot x).1 else x.predQ) + x.vel * x.age / 200000)

def headCounted (d : Dev) (n l slot : Nat) (x : ServoSample) : Dev := countSample (headPos d n l slot x).2 n l slot (!sampleOk x)

def headRecord (d : Dev) (n l slot : Nat) (x : ServoSample) : HeadTrack :=
  { headTrack ((headCounted d n l slot x).lane n l) slot with
    miss := if sampleOk x then 0 else (headTrack ((headCounted d n l slot x).lane n l) slot).miss + 1
    good := if sampleOk x then min 4 ((headTrack ((headCounted d n l slot x).lane n l) slot).good + 1) else 0
    y := (headPos d n l slot x).1 }

def headTrackNo (d : Dev) (n l slot : Nat) (x : ServoSample) : Nat :=
  if sampleOk x then x.track else (((headPos d n l slot x).1 + 512) / 1024).toNat

def headSeen (d : Dev) (n l slot : Nat) (x : ServoSample) : Dev :=
  ((headCounted d n l slot x).updLane n l fun ln => setHeadTrack ln slot (headRecord d n l slot x)).updChn (laneChn n l slot) fun ch =>
    { ch with track := headTrackNo d n l slot x }

def headWindow (d : Dev) (n l slot : Nat) (x : ServoSample) : Dev :=
  if ((headSeen d n l slot x).seq (laneChn n l slot / 2)).permit.any fun ct => ct.1 == laneChn n l slot && sampleOk x &&
      ct.2 != headTrackNo d n l slot x
    then closePermit (headSeen d n l slot x) (laneChn n l slot / 2) else headSeen d n l slot x

theorem headSample_eq (d : Dev) (n l slot : Nat) (x : ServoSample) : headSample d n l slot x = setServoOk (headWindow d n l slot x)
    (laneChn n l slot) (decide (2 ≤ (headRecord d n l slot x).good) && !((headWindow d n l slot x).servo n).retracted.testBit l &&
      !(laneState (headWindow d n l slot x) n l == 3)) := rfl

theorem lane_countSample (d : Dev) (n l slot : Nat) (missing : Bool) : ((countSample d n l slot missing).lane n l).a = (d.lane n l).a ∧
    ((countSample d n l slot missing).servo n).retracted = (d.servo n).retracted := by
  unfold countSample
  extract_lets h e seen d1 d2
  have hservos : d2.servos = d.servos := servos_of_keep (m := footOf [] [F.sscMa_missing] ||| detainHeadFoot)
    (by simp +decide only [d2, d1, ↓keep_detainHead, ↓keep_addSat, ↓keep_ite, ite_self]) (by decide)
  have hlane : (d2.lane n l).a = (d.lane n l).a := by rw [Dev.lane_of_servos hservos]
  have hretr : (d2.servo n).retracted = (d.servo n).retracted := by rw [Dev.servo_of_servos hservos]
  split
  · rw [Dev.lane_updLane, Dev.retracted_updLane]
    exact ⟨hlane, hretr⟩
  · rw [Dev.lane_updLane, Dev.retracted_updLane]
    exact ⟨hlane, hretr⟩

theorem retracted_setNode (d : Dev) (n k : Nat) (v : Int) (m : Nat) : ((setNode d n k v).2.servo m).retracted = (d.servo m).retracted := by
  unfold setNode
  extract_lets r s e
  have he : (e.servo m).retracted = (d.servo m).retracted := by
    by_cases hm : m = n <;> simp [e, hm]
  rw [← he]
  show ((if s.2 = true then _ else e : Dev).servo m).retracted = _
  split <;> rfl

theorem headVel_lane (d : Dev) (n l : Nat) (x : ServoSample) : (headVel d n l x).lane n l = d.lane n l ∧
    ((headVel d n l x).servo n).retracted = (d.servo n).retracted := by
  unfold headVel
  split
  · exact ⟨lane_putNode .., retracted_setNode ..⟩
  · exact ⟨rfl, rfl⟩

theorem headCounted_lane (d : Dev) (n l slot : Nat) (x : ServoSample) : ((headCounted d n l slot x).lane n l).a = (d.lane n l).a ∧
    ((headCounted d n l slot x).servo n).retracted = (d.servo n).retracted := by
  rw [headCounted, (lane_countSample ..).1, (lane_countSample ..).2, headPos, lane_setNode, retracted_setNode, headPes, lane_setNode,
    retracted_setNode, (headVel_lane ..).1, (headVel_lane ..).2]
  exact ⟨rfl, rfl⟩

theorem headPos_good {d : Dev} {n l : Nat} {x : ServoSample} (hl : l < 2) (hok : sampleOk x = true) : (headPos d n l 0 x).1 =
    (satNode lo32 hi32 ((x.track : Int) * 1024 + (satNode (-512) 511 x.pes).1 + x.vel * x.age / 200000)).1 := by
  have hpes : nodeRange n (64 * l + 0) = (-512, 511) := by
    simp [nodeRange, show 64 * l < 128 by omega, show 64 * l % 64 = 0 by omega]
  have hpos : nodeRange n (64 * l + 2 + 0) = (lo32, hi32) := by
    simp [nodeRange, show 64 * l + 2 < 128 by omega, show (64 * l + 2) % 64 = 2 by omega]
  rw [headPos, setNode_fst, hpos, if_pos hok, headPes, setNode_fst, hpes]

theorem headWindow_kept (d : Dev) (n l slot : Nat) (x : ServoSample) : (headWindow d n l slot x).servos = (headSeen d n l slot x).servos ∧
    (∀ c, ((headWindow d n l slot x).chn c).servoOk = ((headSeen d n l slot x).chn c).servoOk) ∧
    laneState (headWindow d n l slot x) n l = laneState d n l := by
  have hseen : laneState (headSeen d n l slot x) n l = laneState d n l := rd_of_keep (m := headSampleFoot) (by
    simp +decide only [headSeen, headCounted, headPos, headPes, headVel, ↓keep_updChn, ↓keep_updLane, ↓keep_countSample, ↓keep_setNode,
      ↓keep_ite, ↓keep_putNode, ite_self]) (by decide) n l
  unfold headWindow
  split
  · exact ⟨servos_of_keep (keep_closePermit (ft := closePermitFoot) (by decide) ..) (by decide), fun c => servoOk_closePermit ..,
      (rd_of_keep (keep_closePermit (ft := closePermitFoot) (by decide) ..) (by decide) n l).trans hseen⟩
  · exact ⟨rfl, fun _ => rfl, hseen⟩

theorem headSample_good {d : Dev} {n l : Nat} {x : ServoSample} (hl : l < 2) (hok : sampleOk x = true) (hstate : laneState d n l ≠ 3)
    (hkept : (d.servo n).retracted.testBit l = false) : headView n l (headSample d n l 0 x) =
      (0, min 4 ((d.lane n l).a.good + 1), (satNode lo32 hi32 ((x.track : Int) * 1024 + (satNode (-512) 511 x.pes).1 +
        x.vel * x.age / 200000)).1, decide (1 ≤ (d.lane n l).a.good), (d.chn (laneChn n l 1)).servoOk) := by
  obtain ⟨hservos, hok', hst⟩ := headWindow_kept d n l 0 x
  have hrecord : headRecord d n l 0 x = { (headCounted d n l 0 x).lane n l |>.a with
      miss := 0, good := min 4 ((d.lane n l).a.good + 1), y := (headPos d n l 0 x).1 } := by
    simp only [headRecord, hok, if_true, headTrack, (headCounted_lane d n l 0 x).1]
  have hlane : ((headWindow d n l 0 x).lane n l).a = headRecord d n l 0 x := by
    rw [Dev.lane_of_servos hservos, headSeen]
    simp only [Dev.lane_of_servos (Dev.updChn_servos ..), Dev.lane_updLane, setHeadTrack, if_true]
  have hretr : ((headWindow d n l 0 x).servo n).retracted.testBit l = false := by
    rw [Dev.servo_of_servos hservos, headSeen]
    simp only [Dev.servo_of_servos (Dev.updChn_servos ..), Dev.retracted_updLane, (headCounted_lane d n l 0 x).2, hkept]
  have hchn (c : Nat) : ((headWindow d n l 0 x).chn c).servoOk = (d.chn c).servoOk := by
    have hcounted : (headCounted d n l 0 x).chns = d.chns := chns_of_keep (m := countSampleFoot ||| setNodeFoot) (by
      simp +decide only [headCounted, headPos, headPes, headVel, ↓keep_countSample, ↓keep_setNode, ↓keep_ite, ↓keep_putNode, ite_self])
      (by decide)
    rw [hok', headSeen, ← Dev.chn_of_chns hcounted c]
    by_cases h : c = laneChn n l 0 <;> simp [h]
  have hother : laneChn n l 1 ≠ laneChn n l 0 := by simp [laneChn]
  have hvalid : (decide (2 ≤ (headRecord d n l 0 x).good) && !((headWindow d n l 0 x).servo n).retracted.testBit l &&
      !(laneState (headWindow d n l 0 x) n l == 3)) = decide (1 ≤ (d.lane n l).a.good) := by
    simp only [hretr, hst, hrecord, beq_eq_false_iff_ne.2 hstate, Bool.not_false, Bool.and_true]
    exact decide_eq_decide.2 (by omega)
  have hlane' : (headSample d n l 0 x).lane n l = (headWindow d n l 0 x).lane n l :=
    Dev.lane_of_servos (servos_of_keep (m := setCauseFoot) (by rw [headSample_eq, keep_setServoOk (by decide)]) (by decide)) n l
  simp only [headView, hlane', hlane, hrecord, headPos_good hl hok]
  rw [headSample_eq, servoOk_setServoOk, servoOk_setServoOk, if_pos rfl, if_neg hother, hvalid, hchn]

theorem headView_of_keep {m n l : Nat} {d e : Dev} (h : keep m e = keep m d) (hservos : m.testBit Part.servos.ctorIdx = false)
    (hchns : m.testBit Part.chns.ctorIdx = false) : headView n l e = headView n l d := by
  simp only [headView, Dev.lane_of_servos (servos_of_keep h hservos), Dev.chn_of_chns (chns_of_keep h hchns)]

theorem headView_setNode (d : Dev) (n k : Nat) (v : Int) (l : Nat) : headView n l (setNode d n k v).2 = headView n l d := by
  simp only [headView, lane_setNode, Dev.chn_of_chns (chns_of_keep (keep_setNode (ft := setNodeFoot) (by decide) d n k v) (by decide))]

theorem headView_putNode (d : Dev) (n k : Nat) (v : Int) (l : Nat) : headView n l (putNode d n k v) = headView n l d := headView_setNode ..

theorem headView_updLane {n l : Nat} {g : Lane → Lane} (hmiss : ∀ z, (g z).a.miss = z.a.miss) (hgood : ∀ z, (g z).a.good = z.a.good)
    (hy : ∀ z, (g z).a.y = z.a.y) (d : Dev) : headView n l (d.updLane n l g) = headView n l d := by
  simp only [headView, Dev.lane_updLane, hmiss, hgood, hy, Dev.updLane_chn]

theorem headView_setCause (d : Dev) (c b : Nat) (v : Bool) (n l : Nat) : headView n l (setCause d c b v) = headView n l d := by
  simp only [headView, servoOk_setCause,
    Dev.lane_of_servos (servos_of_keep (keep_setCause (ft := setCauseFoot) (by decide) d c b v) (by decide))]

theorem headView_replan (d : Dev) (n l : Nat) : headView n l (replan d n l) = headView n l d := by
  unfold replan
  split
  · exact headView_updLane (by exact fun _ => rfl) (by exact fun _ => rfl) (by exact fun _ => rfl) d
  · rfl

theorem headView_positionCauses (d : Dev) (n l slot : Nat) (above valid : Bool) :
    headView n l (positionCauses d n l slot above valid) = headView n l d := by
  unfold positionCauses
  extract_lets c t run d1 d2 d3
  have h1 : headView n l d1 = headView n l d := by
    refine headView_updLane (fun z => ?_) (fun z => ?_) (fun z => ?_) d <;>
    · unfold setHeadTrack headTrack
      split <;> rfl
  have h2 : headView n l d2 = headView n l d := by
    rw [← h1]
    unfold d2
    split
    · rw [headView_setCause]
      split
      · exact headView_of_keep (keep_dueHomework (ft := dueHomeworkFoot) (by decide) ..) (by decide) (by decide)
      · rfl
    · rfl
  have h3 : headView n l d3 = headView n l d := by rw [headView_setCause, h2]
  split
  · exact h2
  · split
    · rw [headView_setCause, h3]
    · exact h3

theorem headView_headTrackLaw (d : Dev) (n l slot : Nat) (x : ServoSample) (isFollowed : Bool) :
    headView n l (headTrackLaw d n l slot x isFollowed) = headView n l d := by
  unfold headTrackLaw
  extract_lets ln t tgt d1 d2
  have h1 : headView n l d1 = headView n l d := headView_putNode ..
  have h2 : headView n l d2 = headView n l d := by rw [headView_putNode, headView_putNode, h1]
  split
  · split
    · exact h2
    · rw [headView_updLane, headView_putNode, h2] <;>
      · intro z
        split <;> rfl
  · split
    next e d3 he =>
    extract_lets seeking off cmd
    split
    next u d4 hu =>
    extract_lets d5 full t' d6 d7
    have h3 : headView n l d3 = headView n l d := by
      rw [show d3 = (setNode d1 n (64 * l + 6 + slot) (tgt - t.y)).2 from (congrArg Prod.snd he).symm, headView_setNode, h1]
    have h5 : headView n l d5 = headView n l d := by
      rw [headView_putNode, show d4 = (setNode d3 n (64 * l + 8 + slot) cmd).2 from (congrArg Prod.snd hu).symm, headView_setNode, h3]
    have h6 : headView n l d6 = headView n l d := by
      simp only [headView, Prod.mk.injEq] at h5 ⊢
      obtain ⟨hmiss, hgood, hy, hok0, hok1⟩ := h5
      simp only [d6, Dev.lane_updLane, Dev.updLane_chn]
      by_cases hslot : slot = 0
      · have ht : t = (d.lane n l).a := by simp [t, headTrack, hslot, ln]
        simp only [hslot, setHeadTrack, if_true]
        show t.miss = _ ∧ t.good = _ ∧ t.y = _ ∧ _ ∧ _
        rw [ht]
        exact ⟨rfl, rfl, rfl, hok0, hok1⟩
      · simp only [hslot, setHeadTrack, if_false]
        exact ⟨hmiss, hgood, hy, hok0, hok1⟩
    have h7 : headView n l d7 = headView n l d := by
      rw [← h6]
      unfold d7
      split <;> rfl
    rw [headView_positionCauses, h7]

theorem headView_profileSample (d : Dev) (n l : Nat) : headView n l (profileSample d n l) = headView n l d := by
  unfold profileSample
  split
  · rfl
  · extract_lets p e
    rw [headView_putNode, headView_putNode, headView_putNode]
    exact headView_updLane (by exact fun _ => rfl) (by exact fun _ => rfl) (by exact fun _ => rfl) d

theorem headView_pairCount (d : Dev) (n l : Nat) : headView n l (pairCount d n) = headView n l d := by
  have hservo (e : Dev) (g : Servo → Servo) (h0 : ∀ s, (g s).l0 = s.l0) (h1 : ∀ s, (g s).l1 = s.l1) :
      headView n l (e.updServo n g) = headView n l e := by
    simp only [headView, Dev.lane, Dev.updServo_servo, if_pos, laneOf, h0, h1, Dev.updServo_chn]
  unfold pairCount
  extract_lets d1 d2 d3
  have h1 : headView n l d1 = headView n l d := hservo _ _ (by exact fun _ => rfl) (by exact fun _ => rfl)
  have h2 : headView n l d2 = headView n l d := by
    rw [← h1]
    unfold d2
    split <;> rfl
  have h3 : headView n l d3 = headView n l d := h2
  split
  · split
    · rw [hservo _ _ (by exact fun _ => rfl) (by exact fun _ => rfl), h3]
    · exact h3
  · exact h2

/-- A good sample of head a of a lane that follows it (R250). -/
theorem servoSample_good {d : Dev} {n l : Nat} {sa sb : ServoSample} {uVcm : Int} (hl : l < 2) (hfollow : d.rd F.sscLaneCtl_follow n l = 0)
    (hstate : laneState d n l ≠ 3) (hkept : (d.servo n).retracted.testBit l = false) (hok : sampleOk sa = true) :
    headView n l (servoSample n l sa sb uVcm d) =
      (0, min 4 ((d.lane n l).a.good + 1), (satNode lo32 hi32 ((sa.track : Int) * 1024 + (satNode (-512) 511 sa.pes).1 +
        sa.vel * sa.age / 200000)).1, decide (1 ≤ (d.lane n l).a.good), false) := by
  unfold servoSample
  extract_lets d1 d2 fs smp d3 d4 d5 part sum d6 mean d7
  split
  next v d8 h8 =>
  extract_lets d9 d10 ln dist near d11 within d12 d13
  have hkeep2 : keep (setNodeFoot) d2 = keep setNodeFoot d := by simp +decide only [d2, d1, ↓keep_replan, ↓keep_putNode]
  have hview2 : headView n l d2 = headView n l d := by rw [headView_replan, headView_putNode]
  have hretr2 : (d2.servo n).retracted = (d.servo n).retracted := by
    rw [← retracted_setNode d n (196 + l) (samplePeriod d n l) n]
    unfold d2 replan
    split
    · exact Dev.retracted_updLane ..
    · rfl
  have hstate2 : laneState d2 n l ≠ 3 := by rwa [laneState, rd_of_keep hkeep2 (by decide)]
  have hfs : fs = [0] := by
    have : d2.rd F.sscLaneCtl_follow n l = 0 := (rd_of_keep hkeep2 (by decide) n l).trans hfollow
    simp only [fs, followed, this]
  have h3 := headSample_good (d := d2) hl hok hstate2 (by rw [hretr2, hkept])
  have hgood2 : (d2.lane n l).a.good = (d.lane n l).a.good := congrArg (fun v => v.2.1) hview2
  have hd3 : d3 = headSample d2 n l 0 sa := by simp only [d3, hfs, forEach, List.foldl_cons, List.foldl_nil, smp, if_true]
  have hd4 : d4 = setServoOk d3 (laneChn n l 1) false := by
    simp only [d4, hfs]
    rfl
  have hother : laneChn n l 0 ≠ laneChn n l 1 := by simp [laneChn]
  have h4 : headView n l d4 = (0, min 4 ((d.lane n l).a.good + 1), (satNode lo32 hi32 ((sa.track : Int) * 1024 +
      (satNode (-512) 511 sa.pes).1 + sa.vel * sa.age / 200000)).1, decide (1 ≤ (d.lane n l).a.good), false) := by
    rw [← hd3, hgood2] at h3
    simp only [headView, Prod.mk.injEq] at h3 ⊢
    obtain ⟨hmiss, hgood, hy, hservo, -⟩ := h3
    rw [hd4, servoOk_setServoOk, servoOk_setServoOk, if_neg hother, if_pos rfl,
      Dev.lane_of_servos (servos_of_keep (keep_setServoOk (ft := setCauseFoot) (by decide) ..) (by decide))]
    exact ⟨hmiss, hgood, hy, hservo, rfl⟩
  have h5 : headView n l d5 = headView n l d4 := forEach_keeps (p := headView n l)
    (g := fun d slot => headTrackLaw d n l slot (smp slot) (fs.contains slot)) (fun e x _ => headView_headTrackLaw e n l x (smp x) (fs.contains x)) d4
  have h7 : headView n l d7 = headView n l d5 := by rw [headView_putNode, headView_profileSample]
  have hd8 : headView n l d8 = headView n l d7 := by
    rw [show d8 = (setNode d7 n (64 * l + 13) uVcm).2 from (congrArg Prod.snd h8).symm, headView_setNode]
  have h9 : headView n l d9 = headView n l d8 := headView_updLane (by exact fun _ => rfl) (by exact fun _ => rfl) (by exact fun _ => rfl) d8
  have h10 : headView n l d10 = headView n l d9 := rfl
  have h11 : headView n l d11 = headView n l d10 := by
    unfold d11
    split <;> rfl
  have h12 : headView n l d12 = headView n l d11 := headView_updLane (by exact fun _ => rfl) (by exact fun _ => rfl) (by exact fun _ => rfl) d11
  have h13 : headView n l d13 = headView n l d12 := by
    unfold d13
    split <;> rfl
  rw [← h4, ← h5, ← h7, ← hd8, ← h9, ← h10, ← h11, ← h12, ← h13]
  split
  · exact headView_pairCount ..
  · rfl

/-! ### The other rows -/

theorem followed_a {d : Dev} {n l : Nat} (h : d.rd F.sscLaneCtl_follow n l = 0) : followed d n l = [0] := by
  simp only [followed, h]

theorem laneLost_lost {d : Dev} {n l : Nat} (hfollow : d.rd F.sscLaneCtl_follow n l = 0) (hstate : laneState d n l ≠ 3)
    (hactive : laneState d n l ≠ 0) (hkept : (d.servo n).retracted.testBit l = false) (hmiss : 8 ≤ (d.lane n l).a.miss) :
    laneState (laneLost n l d) n l = 3 ∧ (laneLost n l d).flag F.sscLaneStat_on_track n l = false ∧
    ((laneLost n l d).lane n l).lostFor = 0 ∧ ((laneLost n l d).chn (laneChn n l 0)).servoOk = false ∧
    (laneLost n l d).out.head? = some (.event evLaneLost (laneAct n l)) := by
  have hgo : (decide (laneState d n l ≠ 3) && !(d.servo n).retracted.testBit l && decide (laneState d n l ≠ 0) &&
      (followed d n l).all fun s => decide (8 ≤ (headTrack (d.lane n l) s).miss)) = true := by
    simp [hstate, hkept, hactive, followed_a hfollow, headTrack, hmiss]
  unfold laneLost
  extract_lets fs d1 d2 d3 d4 d5
  rw [if_pos hgo]
  have hfs : fs = [0] := followed_a hfollow
  have h5 : keep (setCauseFoot ||| seqStopFoot) d5 = keep (setCauseFoot ||| seqStopFoot) d3 := by
    simp +decide only [d5, d4, ↓keep_seqStop, ↓keep_ite, ↓keep_forEach, ↓keep_setServoOk, ↓keep_updChn, implies_true, ite_self]
  have hserv4 : (d4.chn (laneChn n l 0)).servoOk = false := by
    simp only [d4, hfs, forEach, List.foldl_cons, List.foldl_nil, servoOk_setServoOk, if_true]
  refine ⟨?_, ?_, ?_, ?_, rfl⟩
  · rw [laneState, Dev.emit_rd, rd_of_keep h5 (by decide), Dev.updLane_rd, Dev.rd_setFlag_ne _ _ _ _ _ _ _ _ (by decide),
      Dev.rd_addSat_ne _ _ _ _ _ _ _ _ (by decide)]
    exact Dev.rd_wr_lt _ _ _ _ _ (by decide)
  · rw [Dev.flag, Dev.emit_rd, rd_of_keep h5 (by decide), Dev.updLane_rd]
    exact Dev.flag_setFlag _ _ _ _ _ (by decide)
  · show (d5.lane n l).lostFor = 0
    rw [Dev.lane_of_servos (servos_of_keep h5 (by decide)), Dev.lane_updLane]
  · show (d5.chn (laneChn n l 0)).servoOk = false
    unfold d5
    split
    · exact hserv4
    · rw [servoOk_seqStop, hserv4]

theorem pairSplit_splits {d : Dev} {n l : Nat} (hfollow : d.rd F.sscLaneCtl_follow n l = 2) (hwhole : (d.lane n l).splitHead = none)
    (ha : strokeOut d n l (d.lane n l).a = true) (hb : strokeOut d n l (d.lane n l).b = false) :
    ((pairSplit n l d).lane n l).splitHead = some 1 ∧ ((pairSplit n l d).lane n l).maA = (d.lane n l).a.lastMa ∧
    (pairSplit n l d).flag F.sscLaneStat_split n l = true ∧ (pairSplit n l d).out = .event evSplit (laneAct n l) :: d.out := by
  have hgo : (decide (d.rd F.sscLaneCtl_follow n l = 2) && (d.lane n l).splitHead.isNone &&
      (strokeOut d n l (d.lane n l).a || strokeOut d n l (d.lane n l).b)) = true := by simp [hfollow, hwhole, ha]
  unfold pairSplit
  extract_lets ln a b kept d1 d2
  rw [if_pos hgo]
  have hkept : kept = 1 := by simp [kept, a, b, ln, ha, hb]
  have h := keep_cardCount (ft := cardCountFoot) (by decide) (d2.emit (.event evSplit (laneAct n l))) 18 1
  have hlane1 : (d1.lane n l).splitHead = some 1 ∧ (d1.lane n l).maA = (d.lane n l).a.lastMa := by
    simp only [d1, Dev.lane_updLane, hkept, if_neg Nat.one_ne_zero, and_self]
  refine ⟨?_, ?_, ?_, out_of_keep h (by decide)⟩
  · rw [Dev.lane_of_servos (servos_of_keep h (by decide))]
    exact hlane1.1
  · rw [Dev.lane_of_servos (servos_of_keep h (by decide))]
    exact hlane1.2
  · rw [Dev.flag, rd_of_keep h (by decide), Dev.emit_rd]
    unfold d2
    rw [Dev.rd_addSat_ne _ _ _ _ _ _ _ _ (by decide)]
    exact Dev.flag_setFlag _ _ _ _ _ (by decide)

/-- Where a lane that follows head a is sent (R255). -/
theorem laneGo_view {d : Dev} {n l : Nat} (hfollow : d.rd F.sscLaneCtl_follow n l = 0) (hkept : (d.servo n).retracted.testBit l = false)
    (hlost : laneState d n l ≠ 3) (hwhole : (d.lane n l).splitHead = none) {ta tb : Int} (hta : ta = ofTwos 32 (d.rd F.sscTgt_tgt_a n l))
    (htb : tb = ofTwos 32 (d.rd F.sscTgt_tgt_b n l)) {again seek : Bool} (hagain : again = (laneState d n l == 1))
    (hseek : seek = decide (d.rd F.sscSeekLim_capture_trk n l * 1024 < (ta - (d.lane n l).a.y).natAbs)) :
    (laneGo n l d).flag F.sscLaneStat_on_track n l = false ∧ laneState (laneGo n l d) n l = (if again || seek then 1 else 2) ∧
    (laneGo n l d).lane n l = { d.lane n l with
      tgtA := if again then (d.lane n l).tgtA else ta, tgtB := if again then (d.lane n l).tgtB else tb, onCount := 0
      next := if again then some (ta, tb) else (d.lane n l).next
      prof := if seek && !again then { pos := (d.lane n l).a.y * 2 ^ 16 } else (d.lane n l).prof } := by
  have hgo : ((d.servo n).retracted.testBit l || laneState d n l == 3) = false := by simp [hkept, hlost]
  unfold laneGo
  rw [hgo, if_neg Bool.false_ne_true]
  extract_lets ta' tb' ln ends clear d1 again' d2 ln2 fs dist seek' mean d3 d4 d5
  have hd1 : d1 = d := by simp only [d1, ends, ln, hwhole, Option.isSome_none, Bool.false_and, if_neg Bool.false_ne_true]
  have hag : again' = again := by rw [hagain, ← hd1]
  have hlane2 : d2.lane n l = if again then { d.lane n l with next := some (ta, tb), onCount := 0 }
      else { d.lane n l with tgtA := ta, tgtB := tb, onCount := 0 } := by
    rw [Dev.lane_updLane, hd1, hag, show ta' = ta from hta.symm, show tb' = tb from htb.symm]
  have ha : ln2.a = (d.lane n l).a := by
    rw [show ln2 = d2.lane n l from rfl, hlane2]
    cases again <;> rfl
  have hfs : fs = [0] := followed_a ((Dev.updLane_rd ..).trans (hd1 ▸ hfollow))
  have hdist : dist = ta - (d.lane n l).a.y := by
    simp [dist, hfs, headTrack, ha, show ta' = ta from hta.symm]
  have hmean : mean = (d.lane n l).a.y := by simp [mean, hfs, headTrack, ha]
  have hseek' : seek' = seek := by
    rw [hseek, ← hdist, ← hd1]
    rfl
  have h5 : keep cardBinFoot d5 = keep cardBinFoot d4 := by simp +decide only [d5, ↓keep_cardBin, ↓keep_ite, ite_self]
  refine ⟨Dev.flag_setFlag _ _ _ _ _ (by decide), ?_, ?_⟩
  · rw [laneState, Dev.rd_setFlag_ne _ _ _ _ _ _ _ _ (by decide), rd_of_keep h5 (by decide)]
    refine (Dev.rd_wr_lt _ _ _ _ _ ?_).trans (by rw [hag, hseek'])
    split <;> decide
  · show d5.lane n l = _
    rw [Dev.lane_of_servos (servos_of_keep h5 (by decide))]
    show d3.lane n l = _
    have hlane3 : d3.lane n l = if (seek && !again) = true then { d2.lane n l with prof := { pos := (d.lane n l).a.y * 2 ^ 16 } }
        else d2.lane n l := by
      unfold d3
      rw [hag, hseek', hmean]
      split
      · exact Dev.lane_updLane ..
      · rfl
    rw [hlane3, hlane2]
    cases again <;> cases seek <;> rfl

/-- Settles O20: a sample by what it leaves of its head and its lane, the other rows by their updates. -/
theorem servoLaneRowsComplete : Obligations.ServoLaneRowsComplete := by
  unfold Obligations.ServoLaneRowsComplete
  refine ⟨?sample, ?lost, ?reacquired, ?retract, ?split, ?go, ?goAgain, ?onTrack, ?trace⟩
  case sample =>
    intro s n l sa sb uVcm hfollow hstate hkept hok
    have hview := servoSample_good (sb := sb) (uVcm := uVcm) l.isLt hfollow hstate hkept hok
    simp only [headView, Prod.mk.injEq] at hview
    obtain ⟨hmiss, hgood, hy, hservo, hother⟩ := hview
    exact brings_of_run (g := servoSample n.val l.val sa sb uVcm) rfl ⟨hmiss, hgood, hy, by rw [hservo, decide_eq_true_eq], hother⟩
  case lost =>
    intro s n l hfollow hstate hactive hkept hmiss
    exact brings_of_run (g := laneLost n.val l.val) rfl (laneLost_lost hfollow hstate hactive hkept hmiss)
  case reacquired =>
    intro s n l hfollow hstate hsearch hgood
    refine gives_of_run (g := laneReacquired n.val l.val) rfl ?_
    have hgo : (decide (laneState s.dev n.val l.val = 3) &&
        ((followed s.dev n.val l.val).any fun i => (s.dev.chn (laneChn n.val l.val i)).sgSearch) &&
        (followed s.dev n.val l.val).all fun i => decide (4 ≤ (headTrack (s.dev.lane n.val l.val) i).good)) = true := by
      simp [hstate, followed_a hfollow, headTrack, hsearch, hgood]
    exact if_pos hgo
  case retract =>
    intro s n l hstate hfor hkept
    exact gives_of_run rfl (if_pos ⟨hstate, hfor, by simp [hkept]⟩)
  case split =>
    intro s n l hfollow hwhole ha hb
    exact brings_of_run (g := pairSplit n.val l.val) rfl (pairSplit_splits hfollow hwhole ha hb)
  case go =>
    intro s n l ta hfollow hkept hlost hstate hwhole hta
    obtain ⟨hon, hst, hlane⟩ := laneGo_view hfollow hkept hlost hwhole hta rfl (again := false) (by simp [hstate]) rfl
    refine brings_of_run (g := laneGo n.val l.val) rfl ⟨by rw [hlane]; rfl, by rw [hlane]; rfl, hon, ?_⟩
    rw [hst]
    simp only [Bool.false_or, decide_eq_true_eq]
  case goAgain =>
    intro s n l hfollow hkept hstate hwhole
    have hlost : laneState s.dev n.val l.val ≠ 3 := by omega
    obtain ⟨hon, hst, hlane⟩ := laneGo_view hfollow hkept hlost hwhole rfl rfl (again := true) (by simp [hstate]) rfl
    exact brings_of_run (g := laneGo n.val l.val) rfl ⟨by rw [hlane]; rfl, by rw [hlane]; rfl, by rw [hlane]; simp, hst, hon⟩
  case onTrack =>
    intro s n l hstate hcount hkept
    refine brings_of_run (g := onTrack n.val l.val) rfl ?_
    rw [onTrack, if_pos ⟨hstate, hcount, by simp [hkept]⟩]
    refine ⟨?_, fun hfollow => ?_⟩
    · rw [Dev.flag, rd_of_keep (keep_beginTasks (ft := beginTasksFoot) (by decide) ..) (by decide), Dev.updLane_rd]
      exact Dev.flag_setFlag _ _ _ _ _ (by decide)
    · rw [Dev.lane_of_servos (servos_of_keep (keep_beginTasks (ft := beginTasksFoot) (by decide) ..) (by decide)), Dev.lane_updLane]
      have hfollow' : (s.dev.setFlag F.sscLaneStat_on_track true n.val l.val).rd F.sscLaneCtl_follow n.val l.val = 2 :=
        (Dev.rd_setFlag_ne _ _ _ _ _ _ _ _ (by decide)).trans hfollow
      simp only [hfollow, if_true, tabGet_tabPut]
      rfl
  case trace =>
    intro s n unitB hpost
    exact gives_of_run rfl (if_pos hpost)

end Sys2Proof.Machine
end

section
/-! PROOF. Rows of the two servo units (R266-R271). -/
namespace Sys2Proof.Machine

/-! ### The exchange of roles -/

/-- What a switch of the roles leaves (R270). -/
structure Switched (n active cause : Nat) (lanes : List Nat) (d : Dev) : Prop where
  active : activeUnit d n = active
  due : d.rd F.sscSwap_to_swap n = 0x100000
  deferred : d.flag F.sscSwap_deferred n = false
  cause : d.rd F.sscSwap_last_cause n = cause
  hold : (d.servo n).hold = lanes

theorem switchRoles_switched (d : Dev) (n : Nat) {cause : Nat} (lanes : List Nat) (hcause : cause < 8) :
    Switched n (standbyUnit d n) cause lanes (switchRoles d n cause lanes) := by
  have hunit : standbyUnit d n < 2 ^ F.sscRole_active.w := Nat.lt_of_le_of_lt (Nat.sub_le 1 _) (by decide)
  have hcause' : cause < 2 ^ F.sscSwap_last_cause.w := hcause
  unfold switchRoles
  extract_lets d1 d2 d3 d4
  have hactive : d1.rd F.sscRole_active n = standbyUnit d n := by
    rw [rd_of_keep (keep_cardEpoch (ft := cardEpochFoot) (by decide) (d.wr F.sscRole_active (standbyUnit d n) n) (32 + n) 1) (by decide),
      Dev.rd_wr_lt _ _ _ _ _ hunit]
  clear_value d1
  have hrest (f : Fld) (i j : Nat) : (d4.updServo n fun s => { s with hold := lanes, clean := 0, dirty := false, deferFor := 0, mismatch := 0 }).rd
      f i j = d3.rd f i j := by
    rw [Dev.updServo_rd]
    simp only [d4, Dev.updUnit_rd]
  refine ⟨?_, ?_, ?_, ?_, ?_⟩
  · rw [activeUnit, hrest, ← hactive]
    simp +decide only [d3, d2, Dev.rd_wr_ne, Dev.rd_addSat_ne, Dev.rd_setFlag_ne, ne_eq]
  · rw [hrest]
    have hdue : (0x100000 : Nat) < 2 ^ F.sscSwap_to_swap.w := by decide
    simp +decide only [d3, d2, Dev.rd_wr_ne, Dev.rd_addSat_ne, Dev.rd_setFlag_ne, ne_eq, Dev.rd_wr_lt _ _ _ _ _ hdue]
  · rw [Dev.flag, hrest]
    simp +decide only [d3, d2, Dev.rd_wr_ne, Dev.rd_addSat_ne, ne_eq]
    exact Dev.flag_setFlag _ F.sscSwap_deferred false n 0 (by decide)
  · rw [hrest]
    exact Dev.rd_wr_lt _ _ _ _ _ hcause'
  · rw [Dev.updServo_servo, if_pos rfl]

theorem overrunFault_switches {d : Dev} {n l : Nat} (hfault : faultLane d n (activeUnit d n) = some l) (hstate : pairState d n = 0)
    (hfit : d.flag F.sscRole_standby_fit n = true) (hgood : standbyBad d n = false)
    (hapart : (ovrOf (d.sscUnit n (standbyUnit d n)) l).headD false = false) : overrunFault n d =
      ((switchRoles d n 2 ([0, 1, 2].filter fun x => some x != some l)).wr F.sscRole_state 1 n).setFlag F.sscRole_standby_fit false n := by
  simp only [overrunFault, hfault, activeFails, hstate, hfit, hgood, hapart, Bool.not_false, Bool.and_self, if_true]

/-! ### The output instant -/

/-- What an output of lane 1 turns on: the lane, the frame counter and the servo's word on the comparison. -/
def outView (n : Nat) (d : Dev) : Lane × Nat × List Nat × Bool × List Emit :=
  (d.lane n 1, (d.servo n).seqNo, (d.servo n).hold, (d.servo n).skipCmp, d.out)

theorem outView_of_servo {n : Nat} {d e : Dev} (hout : e.out = d.out) (hlane : e.lane n 1 = d.lane n 1)
    (hseq : (e.servo n).seqNo = (d.servo n).seqNo) (hhold : (e.servo n).hold = (d.servo n).hold)
    (hskip : (e.servo n).skipCmp = (d.servo n).skipCmp) : outView n e = outView n d := by
  simp only [outView, hout, hlane, hseq, hhold, hskip]

theorem lane_updServo {n l : Nat} {d : Dev} {g : Servo → Servo} (h0 : ∀ s, (g s).l0 = s.l0) (h1 : ∀ s, (g s).l1 = s.l1) :
    (d.updServo n g).lane n l = d.lane n l := by
  simp only [Dev.lane, Dev.updServo_servo, if_pos, laneOf, h0, h1]

theorem outView_updServo {n : Nat} {g : Servo → Servo} (hlane : ∀ s, (g s).l1 = s.l1) (hseq : ∀ s, (g s).seqNo = s.seqNo)
    (hhold : ∀ s, (g s).hold = s.hold) (hskip : ∀ s, (g s).skipCmp = s.skipCmp) (d : Dev) :
    outView n (d.updServo n g) = outView n d := by
  simp only [outView, Dev.lane, laneOf, Dev.updServo_servo, if_pos, if_neg Nat.one_ne_zero, hlane, hseq, hhold, hskip, Dev.updServo_out]

theorem outView_putNode (d : Dev) (n k : Nat) (v : Int) : outView n (putNode d n k v) = outView n d := by
  unfold putNode setNode
  extract_lets r s e
  rw [← outView_updServo (n := n) (g := fun p => { p with nodes := tabPut 0 p.nodes k s.1 }) (by exact fun _ => rfl) (by exact fun _ => rfl)
    (by exact fun _ => rfl) (by exact fun _ => rfl) d]
  show outView n (if s.2 = true then _ else e) = outView n e
  split <;> rfl

theorem outView_recordOvr (d : Dev) (n u l : Nat) (exceeds : Bool) : outView n (recordOvr d n u l exceeds) = outView n d := by
  unfold recordOvr
  extract_lets push e x e2
  have he : outView n e = outView n d := by
    unfold e Dev.updUnit
    refine outView_updServo ?_ ?_ ?_ ?_ d <;>
    · intro s
      split <;> rfl
  rw [← he]
  split <;> rfl

/-- An output of lane 1 with both units done and equal (R266, R268). -/
theorem outputInstant_sends {d : Dev} {n cycles : Nat} {m : List Host.Cell} {ln : Lane} (hln : ln = d.lane n 1) (hlane : laneState d n 0 ≠ 0)
    (hslot : d.slotDrive n = .driven) (hpsl : d.flag F.pslStat_psl_fault n = false) (hhold : (d.servo n).hold = [])
    (hskip : (d.servo n).skipCmp = false) : ∃ e, outputInstant n 1 true true 0 0 cycles d m = (e, m) ∧
      e.out = .psl n (pslWord 2 (d.servo n).seqNo (activeUnit d n) false [toTwos 16 ln.vcm, toTwos 16 ln.maA, toTwos 16 ln.maB]) :: d.out ∧
      (e.lane n 1).sentVcm = ln.vcm ∧ (e.lane n 1).sentA = ln.maA ∧ (e.lane n 1).sentB = ln.maB ∧
      (e.servo n).mismatch = 0 ∧ (e.servo n).seqNo = ((d.servo n).seqNo + 1) % 16 := by
  unfold outputInstant
  extract_lets d1 act done d2 held d3 d4 d5 d6
  have hdone : done = true := ite_self _
  have hkeep2 : keep (setNodeFoot ||| recordOvrFoot) d2 = keep (setNodeFoot ||| recordOvrFoot) d := by
    simp +decide only [d2, d1, ↓keep_recordOvr, ↓keep_putNode]
  have hview2 : outView n d2 = outView n d := by rw [outView_recordOvr, outView_recordOvr, outView_putNode]
  simp only [outView, Prod.mk.injEq] at hview2
  obtain ⟨hlane2, hseq2, hhold2, hskip2, hout2⟩ := hview2
  have hheld : held = false := by simp only [held, hhold2, hhold, List.contains_nil]
  have hpsl2 : d2.flag F.pslStat_psl_fault n = false := by rw [Dev.flag, rd_of_keep hkeep2 (by decide), ← Dev.flag, hpsl]
  have hslot2 : d2.slotDrive n = .driven := by
    rw [← hslot]
    simp only [Dev.slotDrive, hdaPresent_of_struct (struct_of_keep hkeep2 (by decide)), struct_of_keep hkeep2 (by decide)]
  have hactive2 : activeUnit d2 n = activeUnit d n := rd_of_keep hkeep2 (by decide) n 0
  have hlane0 : laneState d2 n 0 ≠ 0 := by rwa [laneState, rd_of_keep hkeep2 (by decide)]
  have h3 : d3 = ((d2.updLane n 1 fun z => { z with sentVcm := z.vcm, sentA := z.maA, sentB := z.maB }).updServo n fun s =>
      { s with seqNo := (s.seqNo + 1) % 16 }).emit (.psl n (pslWord 2 (d.servo n).seqNo (activeUnit d n) false
        [toTwos 16 ln.vcm, toTwos 16 ln.maA, toTwos 16 ln.maB])) := by
    have hnot : ¬(held = true ∨ (!done) = true) := by simp [hheld, hdone]
    have hsend : ((d2.updLane n 1 fun z => { z with sentVcm := z.vcm, sentA := z.maA, sentB := z.maB }).flag F.pslStat_psl_fault n ||
        d2.slotDrive n != .driven) = false := by
      rw [Dev.flag, Dev.updLane_rd, ← Dev.flag, hpsl2, hslot2]
      rfl
    have hseq : ((d2.updLane n 1 fun z => { z with sentVcm := z.vcm, sentA := z.maA, sentB := z.maB }).servo n).seqNo = (d.servo n).seqNo := by
      rw [← hseq2]
      simp [Dev.updLane]
    rw [show d3 = _ from if_neg hnot, commandFrame, pslFrame]
    rw [show ∀ x : Dev, (x.updLane n 1 fun z => { z with sentVcm := z.vcm, sentA := z.maA, sentB := z.maB }).slotDrive n = x.slotDrive n from
      fun _ => rfl, hsend, if_neg Bool.false_ne_true, hseq, Dev.lane_updLane, hlane2, ← hln, activeUnit, Dev.updLane_rd, ← activeUnit, hactive2]
  have hcmp4 : (d4.servo n).skipCmp = false ∧ (d4.servo n).seqNo = ((d.servo n).seqNo + 1) % 16 := by
    simp only [d4, h3, Dev.updServo_servo, Dev.emit_servo, Dev.updLane, if_pos, if_neg Nat.one_ne_zero, hskip2, hskip, hseq2, and_self]
  have hl4 : d4.lane n 1 = { ln with sentVcm := ln.vcm, sentA := ln.maA, sentB := ln.maB } := by
    have hemit (x : Dev) (e : Emit) : (x.emit e).lane n 1 = x.lane n 1 := rfl
    refine (lane_updServo (by exact fun _ => rfl) (by exact fun _ => rfl)).trans ?_
    rw [h3, hemit]
    refine (lane_updServo (by exact fun _ => rfl) (by exact fun _ => rfl)).trans ?_
    rw [Dev.lane_updLane, hlane2, hln]
  have hout4 : d4.out = .psl n (pslWord 2 (d.servo n).seqNo (activeUnit d n) false [toTwos 16 ln.vcm, toTwos 16 ln.maA, toTwos 16 ln.maB]) ::
      d.out := by
    have hemit (x : Dev) (e : Emit) : (x.emit e).out = e :: x.out := rfl
    refine (Dev.updServo_out ..).trans ?_
    rw [h3, hemit, Dev.updServo_out, Dev.updLane_out, hout2]
  have hlane4 : laneState d4 n 0 ≠ 0 := by
    have : d4.rd F.sscLaneStat_state n 0 = d2.rd F.sscLaneStat_state n 0 := by
      refine (Dev.updServo_rd ..).trans ?_
      rw [h3, Dev.emit_rd, Dev.updServo_rd, Dev.updLane_rd]
    rwa [laneState, this]
  clear_value d2 d4
  obtain ⟨hskip4, hseq4⟩ := hcmp4
  have hgood : ¬(d4.rd F.sscCmpTol_vcm_tol n < 0 ∨ d4.rd F.sscCmpTol_ma_tol n < 0) := by simp
  have h5 : d5 = (putNode d4 n 195 (max ((0 : Nat) : Int) ((0 : Nat) : Int))).updServo n fun s => { s with mismatch := 0 } := by
    simp only [d5, hdone, Bool.and_self, if_true, compareStandby, hskip4, if_neg Bool.false_ne_true, decide_eq_false hgood]
  have h6 : d6 = d5 := by
    simp only [d6, hdone, Bool.not_true, overEffects, if_neg Bool.false_ne_true, Bool.false_and]
  have hput := outView_putNode d4 n 195 (max ((0 : Nat) : Int) ((0 : Nat) : Int))
  simp only [outView, Prod.mk.injEq] at hput
  obtain ⟨hputLane, hputSeq, -, -, hputOut⟩ := hput
  have hlane6 : laneState d6 n 0 ≠ 0 := by
    rw [h6, h5, laneState, Dev.updServo_rd, rd_of_keep (keep_putNode (ft := setNodeFoot) (by decide) d4 n 195 _) (by decide)]
    exact hlane4
  have hend : ¬(1 = 0 ∨ laneState d6 n 0 = 0) := by simp [hlane6]
  refine ⟨d6, if_neg hend, ?_⟩
  have hlast : d6.lane n 1 = d4.lane n 1 := by
    rw [h6, h5, ← hputLane]
    simp [Dev.lane, laneOf]
  rw [hlast, hl4, h6, h5]
  refine ⟨hputOut.trans hout4, rfl, rfl, rfl, ?_, ?_⟩
  · rw [Dev.updServo_servo, if_pos rfl]
  · rw [Dev.updServo_servo, if_pos rfl]
    exact hputSeq.trans hseq4

/-- Settles O21: the exchange of roles through `Switched`, an output through its steps, the rest by their updates. -/
theorem servoUnitRowsComplete : Obligations.ServoUnitRowsComplete := by
  unfold Obligations.ServoUnitRowsComplete
  refine ⟨?output, ?resync, ?overrun, ?unfit, ?exchange, ?expiry, ?probation, ?recovery⟩
  case output =>
    intro s n ln cycles hln hlane hslot hpsl hhold hskip
    obtain ⟨e, hrun, hout, hvcm, ha, hb, hmis, hseq⟩ := outputInstant_sends (cycles := cycles) (m := s.mem) hln hlane hslot hpsl hhold hskip
    refine ⟨e, ?_, hout, hvcm, ha, hb, hmis, hseq⟩
    show Host.Outcome.next { s with
      dev := (outputInstant n.val 1 true true 0 0 cycles s.dev s.mem).1, mem := (outputInstant n.val 1 true true 0 0 cycles s.dev s.mem).2 } = _
    rw [hrun]
  case resync =>
    intro s n hmany
    refine brings_of_run (g := standbyResync n.val) rfl ?_
    rw [standbyResync, if_neg (Nat.not_lt.2 hmany)]
    simp only [Dev.updServo_servo, if_pos, true_and]
    have hkeep := keep_cardEpoch (ft := cardEpochFoot) (by decide) (s.dev.addSat F.sscCmpStat_resyncs 1 n.val) (36 + n.val) 1
    rw [Dev.updServo_rd, rd_of_keep hkeep (by decide), Dev.rd_addSat_same]
  case overrun =>
    intro s n l hfault hstate hfit hgood hapart
    obtain ⟨hactive, -, -, hcause, hhold⟩ := switchRoles_switched s.dev n.val (cause := 2) ([0, 1, 2].filter fun x => some x != some l) (by decide)
    refine brings_of_run (g := overrunFault n.val) rfl ?_
    rw [overrunFault_switches hfault hstate hfit hgood hapart]
    generalize switchRoles s.dev n.val 2 _ = e at hactive hcause hhold ⊢
    refine ⟨?_, ?_, Dev.flag_setFlag _ _ _ _ _ (by decide), ?_, hhold⟩
    · rw [activeUnit, Dev.rd_setFlag_ne _ _ _ _ _ _ _ _ (by decide), Dev.rd_wr_ne _ _ _ _ _ _ _ _ (by decide)]
      exact hactive
    · rw [pairState, Dev.rd_setFlag_ne _ _ _ _ _ _ _ _ (by decide), Dev.rd_wr_lt _ _ _ _ _ (by decide)]
    · rw [Dev.rd_setFlag_ne _ _ _ _ _ _ _ _ (by decide), Dev.rd_wr_ne _ _ _ _ _ _ _ _ (by decide), hcause]
  case unfit =>
    intro s n hbad hstate
    have hgo : (standbyBad s.dev n.val && pairState s.dev n.val != 3) = true := by simp [hbad, hstate]
    refine brings_of_run rfl ?_
    rw [if_pos hgo]
    have hstate' : pairState (s.dev.setFlag F.sscRole_standby_fit false n.val) n.val = 0 :=
      (Dev.rd_setFlag_ne _ _ _ _ _ _ _ _ (by decide)).trans hstate
    simp only [standbyFails, hstate', if_true]
    refine ⟨?_, ?_, ?_, rfl⟩
    · exact Dev.rd_wr_lt _ F.sscRole_state 2 _ _ (by decide)
    · rw [Dev.flag, Dev.emit_rd, Dev.updServo_rd, Dev.rd_wr_ne _ _ _ _ _ _ _ _ (by decide)]
      exact Dev.flag_setFlag _ _ _ _ _ (by decide)
    · simp
  case exchange =>
    intro s n hdue hfree
    obtain ⟨hactive, hdue', hdef, hcause, hhold⟩ := switchRoles_switched s.dev n.val (cause := 1) [0, 1, 2] (by decide)
    have hstate : pairState (switchRoles s.dev n.val 1 [0, 1, 2]) n.val = 0 := by
      rw [pairState, rd_of_keep (keep_switchRoles (ft := switchRolesFoot) (by decide) s.dev n.val 1 [0, 1, 2]) (by decide), ← pairState]
      simp only [exchangeDue, Bool.and_eq_true, beq_iff_eq] at hdue
      exact hdue.1.1.1.1
    refine ⟨switchRoles s.dev n.val 1 [0, 1, 2], gives_of_run (execRoleExchange.eq_def n s) ?_, hactive, hstate, hdue', hdef, hcause, hhold⟩
    rw [hdue, Bool.not_true, if_neg Bool.false_ne_true, hfree, if_neg Bool.false_ne_true]
  case expiry =>
    intro s n hdue hfor
    obtain ⟨hactive, hdue', hdef, hcause, hhold⟩ := switchRoles_switched s.dev n.val (cause := 1) [0, 1, 2] (by decide)
    refine ⟨switchRoles s.dev n.val 1 [0, 1, 2], gives_of_run rfl ?_, hactive, hdue', hdef, hcause⟩
    rw [hdue, decide_eq_true hfor, Bool.and_self, if_pos rfl]
  case probation =>
    intro s n hstate hclean hdirty
    refine gives_of_run rfl ?_
    rw [if_pos ⟨hstate, hclean⟩, hdirty, if_neg Bool.false_ne_true]
  case recovery =>
    intro s n hstate hclean hclk hlaw
    exact gives_of_run rfl (if_pos ⟨hstate, hclean, hclk, by simp [hlaw]⟩)

end Sys2Proof.Machine
end

section
/-! PROOF. Retract rows (R271, R272, R293). -/
namespace Sys2Proof.Machine

theorem retractFrame_sends {d : Dev} {n : Nat} (hpsl : d.flag F.pslStat_psl_fault n = false) (hslot : d.slotDrive n = .driven) :
    retractFrame d n = (d.updServo n fun s => { s with seqNo := (s.seqNo + 1) % 16 }).emit (.psl n (pslWord 4 (d.servo n).seqNo
      (activeUnit d n) false [(d.servo n).retracted, d.rd F.sscRetract_retract_ma n, d.rd F.sscRetract_retract_ms n,
        d.rd F.sscRetract_retract_hold_ma n])) := by
  rw [retractFrame, pslFrame, hpsl, hslot]
  rfl

/-- What a pair that restarts out of RETRACT leaves (R272). -/
theorem retractRestart_restarts {d : Dev} {n : Nat} (hstate : pairState d n = 3) (hparked : retractParked d n = true)
    (hclk : (d.servo n).uA.clkOk = true) : pairState (retractRestart n d) n = 0 ∧ activeUnit (retractRestart n d) n = 0 ∧
      (retractRestart n d).flag F.sscRole_standby_fit n = true ∧ ((retractRestart n d).servo n).retracted = 0 ∧
      (retractRestart n d).rd F.pwrHs_state 0 n = 4 ∧ (retractRestart n d).flag F.pwrHs_in_transition 0 n = false := by
  have hgo : (decide (pairState d n = 3) && retractParked d n && ((d.servo n).uA.clkOk || (d.servo n).uB.clkOk)) = true := by
    simp [hstate, hparked, hclk]
  unfold retractRestart
  rw [if_pos hgo]
  extract_lets d1 d2 d3 d4 d5 d6 d7
  have hkeep := keep_recomputeBound (ft := recomputeBoundFoot) (by decide) (d7.wr F.pwrHs_step 0 0 n)
  have hrd (f : Fld) (hf : recomputeBoundFoot.testBit (32 + f.id) = false) (i j : Nat) :
      (recomputeBound (d7.wr F.pwrHs_step 0 0 n)).rd f i j = (d7.wr F.pwrHs_step 0 0 n).rd f i j := rd_of_keep hkeep hf i j
  have hdown (f : Fld) (hf : recomputeBoundFoot.testBit (32 + f.id) = false) (h1 : F.pwrHs_step.id ≠ f.id) (h2 : F.pwrHs_in_transition.id ≠ f.id)
      (h3 : F.pwrHs_state.id ≠ f.id) (h4 : F.sscLaneStat_split.id ≠ f.id) (h5 : F.sscLaneStat_state.id ≠ f.id)
      (h6 : F.pslStat_psl_fault.id ≠ f.id) : (recomputeBound (d7.wr F.pwrHs_step 0 0 n)).rd f n = d2.rd f n := by
    rw [hrd f hf]
    simp only [d7, d6, d5, d4, d3, setLaneState, Dev.rd_wr_ne _ _ _ _ _ _ _ _ h1, Dev.rd_setFlag_ne _ _ _ _ _ _ _ _ h2,
      Dev.rd_wr_ne _ _ _ _ _ _ _ _ h3, Dev.rd_setFlag_ne _ _ _ _ _ _ _ _ h4, Dev.rd_wr_ne _ _ _ _ _ _ _ _ h5, Dev.updServo_rd,
      Dev.rd_setFlag_ne _ _ _ _ _ _ _ _ h6]
  refine ⟨?_, ?_, ?_, ?_, ?_, ?_⟩
  · rw [pairState, hdown _ (by decide) (by decide) (by decide) (by decide) (by decide) (by decide) (by decide)]
    simp +decide only [d2, d1, Dev.rd_wr_ne, Dev.rd_setFlag_ne, ne_eq]
    exact Dev.rd_wr_lt _ F.sscRole_state 0 _ _ (by decide)
  · rw [activeUnit, hdown _ (by decide) (by decide) (by decide) (by decide) (by decide) (by decide) (by decide)]
    simp +decide only [d2, d1, Dev.rd_wr_ne, Dev.rd_setFlag_ne, ne_eq]
    exact Dev.rd_wr_lt _ F.sscRole_active 0 _ _ (by decide)
  · rw [Dev.flag, hdown _ (by decide) (by decide) (by decide) (by decide) (by decide) (by decide) (by decide)]
    simp +decide only [d2, d1, Dev.rd_wr_ne, ne_eq]
    exact Dev.flag_setFlag _ F.sscRole_standby_fit true _ _ (by decide)
  · rw [Dev.servo_of_servos (servos_of_keep hkeep (by decide))]
    simp only [d7, d6, d5, d4, setLaneState, Dev.setFlag, Dev.wr_servo, Dev.updServo_servo, if_pos]
  · rw [hrd _ (by decide)]
    simp +decide only [d7, Dev.rd_wr_ne, Dev.rd_setFlag_ne, ne_eq]
    exact Dev.rd_wr_lt _ F.pwrHs_state 4 _ _ (by decide)
  · rw [Dev.flag, hrd _ (by decide)]
    simp +decide only [d7, Dev.rd_wr_ne, ne_eq]
    exact Dev.flag_setFlag _ F.pwrHs_in_transition false _ _ (by decide)

theorem retractRelease_one {d : Dev} {n l : Nat} (hl : l < 2) (hstate : pairState d n ≠ 3) (hretr : (d.servo n).retracted.testBit l = true)
    (hparked : d.bit F.pslStat_parked l n = true) : retractRelease n (2 ^ l) d =
      (d.wr F.sscLaneStat_state 0 n l).updServo n fun x => { x with retracted := x.retracted - 2 ^ l } := by
  have hlanes : maskLanes (2 ^ l) = [l] := by
    interval_cases l <;> rfl
  rw [retractRelease, if_neg hstate, hlanes]
  simp only [forEach, List.foldl_cons, List.foldl_nil, hretr, hparked, Bool.and_self, if_true, setLaneState]

/-- Settles O22: the restart field by field, the others by their one update. -/
theorem retractRowsComplete : Obligations.RetractRowsComplete := by
  unfold Obligations.RetractRowsComplete
  refine ⟨?firmware, ?frame, ?restart, ?release⟩
  case firmware =>
    intro s n mask
    rfl
  case frame =>
    intro s n hretr hparked hpsl hslot
    refine brings_of_run rfl ?_
    rw [if_pos ⟨hretr, by simp [hparked]⟩, retractFrame_sends hpsl hslot]
    exact ⟨rfl, fun _ _ _ => rfl⟩
  case restart =>
    intro s n hstate hparked hclk
    exact brings_of_run (g := retractRestart n.val) rfl (retractRestart_restarts hstate hparked hclk)
  case release =>
    intro s n l mask hmask hstate hretr hparked
    refine gives_of_run (g := retractRelease n.val mask.val) rfl ?_
    rw [hmask, retractRelease_one l.isLt hstate hretr hparked]

end Sys2Proof.Machine
end

section
/-! PROOF. Rows that start and drive a spindle (R274-R286). -/
namespace Sys2Proof.Machine

/-! ### The state of a spindle -/

theorem setSpin_spin (d : Dev) (n v k : Nat) : (setSpin d n v).spin k = d.spin k := by
  unfold Dev.spin
  rw [spins_of_keep (keep_setSpin (ft := setSpinFoot) (by decide) d n v) (by decide)]

theorem spinState_setSpin (d : Dev) (n : Nat) {v : Nat} (hv : v < 8) : spinState (setSpin d n v) n = v := by
  unfold setSpin
  split
  next h => exact h
  next h =>
    have hemit (x : Dev) (e : Emit) : spinState (x.emitSlot n e) n = spinState x n :=
      rd_of_keep (keep_emitSlot (ft := emitSlotFoot) (by decide) x n e) (by decide) n 0
    exact (hemit _ _).trans (Dev.rd_wr_lt d F.spnStat_state v n 0 hv)

/-- A driven bridge takes the gates of the state that it enters (R274, R283). -/
theorem setSpin_of_ne {d : Dev} {n v : Nat} (hne : spinState d n ≠ v) (hslot : d.slotDrive n = .driven) :
    setSpin d n v = (d.wr F.spnStat_state v n).emit (.pin (pinGate n) (bridgeGates (d.wr F.spnStat_state v n) n)) := by
  have hdrive : (d.wr F.spnStat_state v n).slotDrive n = .driven := hslot
  rw [setSpin, if_neg hne]
  show Dev.emitSlot _ _ _ = _
  rw [Dev.emitSlot, Dev.onSlot, Dev.when, hdrive]
  rfl

theorem recomputeBound_spin (d : Dev) (k : Nat) : (recomputeBound d).spin k = d.spin k := by
  unfold Dev.spin
  rw [spins_of_keep (keep_recomputeBound (ft := recomputeBoundFoot) (by decide) d) (by decide)]

theorem spinState_recomputeBound (d : Dev) (n : Nat) : spinState (recomputeBound d) n = spinState d n :=
  rd_of_keep (keep_recomputeBound (ft := recomputeBoundFoot) (by decide) d) (by decide) n 0

theorem onSlot_driven {d : Dev} {n : Nat} (hslot : d.slotDrive n = .driven) (g : Dev → Dev) : d.onSlot n g = g d := by
  rw [Dev.onSlot, Dev.when, hslot]
  rfl

/-! ### Starting -/

theorem spindleStart_catches {d : Dev} {n : Nat} (hmode : d.rd F.spnCtl_mode n = 1) (hpresent : d.hdaPresent n = true) :
    spinState (spindleStart n true d) n = 4 ∧ (spindleStart n true d).flag F.spnStat_ov2 n = false ∧
      ((spindleStart n true d).spin n).spinup = true ∧ ((spindleStart n true d).spin n).agree = 0 ∧
      ((spindleStart n true d).spin n).again = false ∧ ((spindleStart n true d).spin n).unloading = false := by
  have hgo : ¬ (d.rd F.spnCtl_mode n ≠ 1 ∨ (!d.hdaPresent n) = true) := by simp [hmode, hpresent]
  rw [spindleStart, if_neg hgo]
  extract_lets d1 d2 d3
  have hstart : d3 = setSpin (d1.updSpin n fun s => { s with spinup := true, agree := 0, again := false, unloading := false, upTicks := 0 }) n 4 :=
    rfl
  have hov2 : d1.flag F.spnStat_ov2 n = false := Dev.flag_setFlag d F.spnStat_ov2 false n 0 (by decide)
  rw [hstart, spinState_recomputeBound, recomputeBound_spin, setSpin_spin, Dev.updSpin_spin, if_pos rfl]
  refine ⟨spinState_setSpin _ n (by decide), ?_, rfl, rfl, rfl, rfl⟩
  rw [Dev.flag, rd_of_keep (keep_recomputeBound (ft := recomputeBoundFoot) (by decide) _) (by decide),
    rd_of_keep (keep_setSpin (ft := setSpinFoot) (by decide) _ n 4) (by decide)]
  exact hov2

theorem bridgeGates_of_start {d : Dev} {n v : Nat} (hv : v = 1 ∨ v = 2) (hstate : spinState d n = v) :
    bridgeGates d n = gateOf (d.spin n).step := by
  rcases hv with rfl | rfl
  all_goals simp only [bridgeGates, hstate]

/-- The gates of the step in the states that a spindle start goes through (R276, R277). -/
theorem setSpin_steps {d : Dev} {n v : Nat} (hv : v = 1 ∨ v = 2) (hne : spinState d n ≠ v) (hslot : d.slotDrive n = .driven) :
    setSpin d n v = (d.wr F.spnStat_state v n).emit (.pin (pinGate n) (gateOf (d.spin n).step)) := by
  have hlt : v < 2 ^ F.spnStat_state.w := by
    rcases hv with rfl | rfl
    all_goals decide
  rw [setSpin_of_ne hne hslot, bridgeGates_of_start hv (Dev.rd_wr_lt _ _ _ _ _ hlt)]
  rfl

theorem lockAt_locks (d : Dev) (n rpm : Nat) :
    spinState (lockAt d n rpm) n = 3 ∧ (lockAt d n rpm).spin n =
      { d.spin n with setp := rpmPoint rpm, rate := 0, bad := 0, off := 0, lost := false, n0 := rpm } := by
  refine ⟨spinState_setSpin d n (by decide), ?_⟩
  rw [lockAt, Dev.updSpin_spin, if_pos rfl, setSpin_spin]

/-! ### The tick of a spindle under the observer -/

/-- What a spindle shows: its state, its ramp and the outputs. -/
def spinView (n : Nat) (d : Dev) : Nat × Spin × List Emit := (spinState d n, d.spin n, d.out)

theorem spinView_of_keep {m n : Nat} {d e : Dev} (h : keep m e = keep m d) (hstate : m.testBit (32 + F.spnStat_state.id) = false)
    (hspins : m.testBit Part.spins.ctorIdx = false) (hout : m.testBit Part.out.ctorIdx = false) : spinView n e = spinView n d := by
  simp only [spinView, spinState, Dev.spin, rd_of_keep h hstate, spins_of_keep h hspins, out_of_keep h hout]

theorem tickHold_seqNo (d : Dev) (n : Nat) : ((d.updServo n fun s => { s with hold := s.hold.filter fun x => x != 2 }).servo n).seqNo =
    (d.servo n).seqNo := by
  rw [Dev.updServo_servo, if_pos rfl]

/-- What a frame on the uplink turns on: its number, its unit, the link, the slot and the outputs before it. -/
def frameView (n : Nat) (d : Dev) : Nat × Nat × Bool × SlotDrive × List Emit :=
  ((d.servo n).seqNo, activeUnit d n, d.flag F.pslStat_psl_fault n, d.slotDrive n, d.out)

theorem frameView_of_keep {m n : Nat} {d e : Dev} (h : keep m e = keep m d) (hactive : m.testBit (32 + F.sscRole_active.id) = false)
    (hfault : m.testBit (32 + F.pslStat_psl_fault.id) = false) (hstruct : m.testBit Part.struct.ctorIdx = false)
    (hout : m.testBit Part.out.ctorIdx = false) (hseq : (e.servo n).seqNo = (d.servo n).seqNo) : frameView n e = frameView n d := by
  simp only [frameView, activeUnit, Dev.flag, Dev.slotDrive, hseq, rd_of_keep h hactive, rd_of_keep h hfault, struct_of_keep h hstruct,
    hdaPresent_of_struct (struct_of_keep h hstruct), out_of_keep h hout]

theorem frameView_putNode (d : Dev) (n k : Nat) (v : Int) : frameView n (putNode d n k v) = frameView n d :=
  frameView_of_keep (keep_putNode (ft := putNodeFoot) (by decide) d n k v) (by decide) (by decide) (by decide) (by decide)
    (congrArg (fun x => x.2.1) (outView_putNode d n k v))

theorem frameView_recordOvr (d : Dev) (n u l : Nat) (exceeds : Bool) : frameView n (recordOvr d n u l exceeds) = frameView n d :=
  frameView_of_keep (keep_recordOvr (ft := recordOvrFoot) (by decide) d n u l exceeds) (by decide) (by decide) (by decide) (by decide)
    (congrArg (fun x => x.2.1) (outView_recordOvr d n u l exceeds))

theorem frameView_lawNodes (d : Dev) (n : Nat) (held : Bool) (law : TickLaw) : frameView n (lawNodes d n held law) = frameView n d := by
  unfold lawNodes
  extract_lets e d1 d2 d3
  have h2 : frameView n d2 = frameView n d := by
    have h1 : frameView n d1 = frameView n d := (frameView_putNode ..).trans (frameView_putNode ..)
    rw [← h1]
    by_cases h : held = true
    · rw [show d2 = d1 from if_pos h]
    · rw [show d2 = putNode d1 n 133 law.duty from if_neg h, frameView_putNode]
  have h3 : frameView n d3 = frameView n d := (frameView_putNode ..).trans h2
  split
  all_goals rw [frameView_putNode, frameView_putNode, h3]

theorem pslFrame_sends {d : Dev} {n : Nat} (hpsl : d.flag F.pslStat_psl_fault n = false) (hslot : d.slotDrive n = .driven) (ty : Nat)
    (hold : Bool) (fields : List Nat) : pslFrame d n ty hold fields = (d.updServo n fun s => { s with seqNo := (s.seqNo + 1) % 16 }).emit
      (.psl n (pslWord ty (d.servo n).seqNo (activeUnit d n) hold fields)) := by
  rw [pslFrame, hpsl, hslot]
  rfl

/-- The ramp's step of a spindle that neither spins up nor holds a share (R279). -/
theorem rampTick_steps {d : Dev} {n : Nat} (hstate : spinState d n = 3) (hchop : d.flag F.spnStat_chop_fault n = false)
    (hspinup : (d.spin n).spinup = false) (hshare : (d.spin n).share = 0) (speed : Nat) {r : Int × Int}
    (hr : r = rampStep (d.spin n).setp (d.spin n).rate ((d.rd F.spnStat_command n : Int) * 10 ^ 12)
      (d.rd F.sscRamp_ramp_rate n) (d.rd F.sscRamp_ramp_accel n)) :
    ((rampTick d n speed).spin n).setp = r.1 ∧ ((rampTick d n speed).spin n).rate = r.2 := by
  unfold rampTick
  extract_lets sp target lim r' sp' done d1
  have hnot : ¬(d.flag F.spnStat_chop_fault n = true ∧ target < rpmPoint speed) := by simp [hchop]
  have hrun : ¬ spinState d n ≠ 3 := by simp [hstate]
  have hr' : r' = r := by
    rw [hr]
    simp only [r', lim, sp, target, hspinup, if_neg Bool.false_ne_true, rpmPoint]
  rw [if_neg hrun, if_neg hnot, Dev.updSpin_spin, if_pos rfl]
  refine ⟨?_, congrArg Prod.snd hr'⟩
  have hfree : ¬ sp.share ≠ 0 := by simp [sp, hshare]
  exact (if_neg hfree).trans (congrArg Prod.fst hr')

/-! The four stages of a tick: what it measures, its ramp, its frame, what is left to do. -/

def tickMeasured (n speed vbus : Nat) (ibus : Int) (d : Dev) : Dev :=
  let d := d.updServo n fun s => { s with hold := s.hold.filter fun x => x != 2 }
  let d := d.wr F.spnStat_speed speed n
  putNode (putNode (putNode d n 128 (speed * 16)) n 138 vbus) n 139 ibus

def tickRamped (n speed vbus : Nat) (held : Bool) (d : Dev) : Dev :=
  let d := if spinState d n = 3 then d.updSpin n fun s => { s with n0 := speed } else d
  let d := if (d.spin n).spinup then d.updSpin n fun s => { s with upTicks := s.upTicks + 1 } else d
  let d := cardExtreme d 2 vbus
  if held then d else rampTick d n speed

def tickFramed (n : Nat) (held : Bool) (law : TickLaw) (d : Dev) : Dev :=
  let d := putNode (putNode d n 129 ((d.spin n).setp * 16 / 10 ^ 12)) n 130 (d.rd F.spnStat_command n * 16)
  let d := putNode (putNode d n 131 ((d.spin n).rate / 10 ^ 6)) n 132 (node d n 129 - node d n 128)
  pslFrame (lawNodes d n held law) n 3 false []

def tickEnded (n speed : Nat) (doneAct doneStb : Bool) (d : Dev) : Dev :=
  let d := if d.rd F.pwrHs_step 0 n = 5 ∧ spinState d n = 5 ∧ speed < 600 then setSpin d n 6 else d
  let d := if speed = 0 ∧ (spinState d n = 6 ∨ spinState d n = 7) then rotorStopped d n else d
  let d := if (presentHdas d).head? = some n ∧ 1 ≤ d.rd F.pwrHoldStat_state ∧ d.rd F.pwrHoldStat_state ≤ 3 then
    d.addSat F.pwrHoldStat_elapsed 25 else d
  let d := if !doneStb then d.updServo n fun s => { s with dirty := true, clean := if pairState d n = 2 then 0 else s.clean } else d
  if !doneAct && pairState d n == 1 then enterRetract d n 1 else d

theorem spindleTick_eq (n speed vbus : Nat) (ibus : Int) (law : TickLaw) (d : Dev) : spindleTick n speed vbus ibus true true law d =
    (let d := recordOvr (recordOvr d n 0 2 false) n 1 2 false
     let done := if activeUnit d n = 0 then true else true
     let held := (d.servo n).hold.contains 2 || !done
     tickEnded n speed done done (tickFramed n held law (tickRamped n speed vbus held (tickMeasured n speed vbus ibus d)))) := rfl

/-- What a tick may change before its frame. -/
def tickFoot : Nat := lawNodesFoot ||| recordOvrFoot ||| rampTickFoot ||| footOf [] [F.spnStat_speed]

theorem keep_tickMeasured (n speed vbus : Nat) (ibus : Int) (d : Dev) : keep tickFoot (tickMeasured n speed vbus ibus d) = keep tickFoot d := by
  unfold tickMeasured
  extract_lets d1 d2
  simp +decide only [d2, d1, ↓keep_putNode, ↓keep_wr, ↓keep_updServo]

section stages
variable {d : Dev} {n speed vbus : Nat} {ibus : Int} {law : TickLaw} {r : Int × Int}

theorem tickMeasured_frameView : frameView n (tickMeasured n speed vbus ibus d) = frameView n d := by
  unfold tickMeasured
  extract_lets d1 d2
  rw [frameView_putNode, frameView_putNode, frameView_putNode]
  exact frameView_of_keep (m := tickFoot) (by simp +decide only [d2, d1, ↓keep_wr, ↓keep_updServo]) (by decide) (by decide) (by decide)
    (by decide) (tickHold_seqNo d n)

theorem tickMeasured_speed : (tickMeasured n speed vbus ibus d).rd F.spnStat_speed n = speed % 2 ^ F.spnStat_speed.w ∧
    (tickMeasured n speed vbus ibus d).spin n = d.spin n := by
  have hput (x : Dev) (k : Nat) (v : Int) : (putNode x n k v).rd F.spnStat_speed n = x.rd F.spnStat_speed n ∧
      (putNode x n k v).spin n = x.spin n := by
    have hkeep := keep_putNode (ft := putNodeFoot) (by decide) x n k v
    exact ⟨rd_of_keep hkeep (by decide) n 0, by rw [Dev.spin, spins_of_keep hkeep (by decide), ← Dev.spin]⟩
  unfold tickMeasured
  extract_lets d1 d2
  rw [(hput _ _ _).1, (hput _ _ _).1, (hput _ _ _).1, (hput _ _ _).2, (hput _ _ _).2, (hput _ _ _).2]
  exact ⟨Dev.rd_wr_same .., rfl⟩

/-- The ramp of a tick, whose spindle neither spins up nor holds a share. -/
theorem tickRamped_steps (hstate : spinState d n = 3) (hchop : d.flag F.spnStat_chop_fault n = false) (hspinup : (d.spin n).spinup = false)
    (hshare : (d.spin n).share = 0) (hr : r = rampStep (d.spin n).setp (d.spin n).rate ((d.rd F.spnStat_command n : Int) * 10 ^ 12)
      (d.rd F.sscRamp_ramp_rate n) (d.rd F.sscRamp_ramp_accel n)) :
    ((tickRamped n speed vbus false d).spin n).setp = r.1 ∧ ((tickRamped n speed vbus false d).spin n).rate = r.2 ∧
      keep rampTickFoot (tickRamped n speed vbus false d) = keep rampTickFoot d := by
  unfold tickRamped
  extract_lets d1 d2 d3
  have h1 : d1 = d.updSpin n fun s => { s with n0 := speed } := if_pos hstate
  have hspin1 : d1.spin n = { d.spin n with n0 := speed } := by rw [h1, Dev.updSpin_spin, if_pos rfl]
  have h2 : d2 = d1 := by
    have hnot : ¬ (d1.spin n).spinup = true := by simp [hspin1, hspinup]
    exact if_neg hnot
  have hkeep3 := keep_cardExtreme (ft := cardExtremeFoot) (by decide) d2 2 vbus
  have hspin3 : d3.spin n = { d.spin n with n0 := speed } := by
    rw [Dev.spin, spins_of_keep hkeep3 (by decide), ← Dev.spin, h2, hspin1]
  have hrd3 (f : Fld) (hf : cardExtremeFoot.testBit (32 + f.id) = false) (i j : Nat) : d3.rd f i j = d.rd f i j := by
    rw [rd_of_keep hkeep3 hf, h2, h1, Dev.updSpin_rd]
  have hkeep : keep rampTickFoot d3 = keep rampTickFoot d := by
    simp +decide only [d3, h2, h1, ↓keep_cardExtreme, ↓keep_updSpin]
  clear_value d3
  rw [if_neg Bool.false_ne_true]
  have hramp : ((rampTick d3 n speed).spin n).setp = r.1 ∧ ((rampTick d3 n speed).spin n).rate = r.2 := by
    refine rampTick_steps ((hrd3 _ (by decide) n 0).trans hstate) ?_ (by rw [hspin3, hspinup]) (by rw [hspin3, hshare]) speed ?_
    · rw [Dev.flag, hrd3 _ (by decide), ← Dev.flag, hchop]
    · rw [hspin3, hrd3 _ (by decide), hrd3 _ (by decide), hrd3 _ (by decide), hr]
  exact ⟨hramp.1, hramp.2, (keep_rampTick (by decide) d3 n speed).trans hkeep⟩

/-- The poll of the power stage; the nodes leave the spindle as it is. -/
theorem tickFramed_sends (hpsl : d.flag F.pslStat_psl_fault n = false) (hslot : d.slotDrive n = .driven) (held : Bool) :
    (tickFramed n held law d).out = .psl n (pslWord 3 (d.servo n).seqNo (activeUnit d n) false []) :: d.out ∧
      keep (footOf [.out] [] ||| lawNodesFoot) (tickFramed n held law d) = keep (footOf [.out] [] ||| lawNodesFoot) d := by
  unfold tickFramed
  extract_lets d1 d2
  have hview : frameView n (lawNodes d2 n held law) = frameView n d := by
    rw [frameView_lawNodes]
    exact (frameView_putNode ..).trans ((frameView_putNode ..).trans ((frameView_putNode ..).trans (frameView_putNode ..)))
  have hkeep : keep (footOf [.out] [] ||| lawNodesFoot) (lawNodes d2 n held law) = keep (footOf [.out] [] ||| lawNodesFoot) d := by
    simp +decide only [d2, d1, ↓keep_lawNodes, ↓keep_putNode]
  simp only [frameView, Prod.mk.injEq] at hview
  obtain ⟨hseq, hactive, hfault, hdrive, hout⟩ := hview
  generalize lawNodes d2 n held law = e at *
  rw [pslFrame_sends (hfault.trans hpsl) (hdrive.trans hslot), hseq, hactive]
  have hemit (x : Dev) (v : Emit) : (x.emit v).out = v :: x.out := rfl
  refine ⟨by rw [hemit, Dev.updServo_out, hout], ?_⟩
  rw [← hkeep]
  simp +decide only [↓keep_emit, ↓keep_updServo]

/-- Nothing is left to do while the rotor turns under the observer and no unit is late, but to count the hold-up's time. -/
theorem tickEnded_running (hstate : spinState d n = 3) :
    keep (footOf [] [F.pwrHoldStat_elapsed]) (tickEnded n speed true true d) = keep (footOf [] [F.pwrHoldStat_elapsed]) d := by
  unfold tickEnded
  extract_lets d1 d2 d3 d4
  have h1 : d1 = d := if_neg (by simp [hstate])
  have h2 : d2 = d1 := if_neg (by simp [h1, hstate])
  have h4 : d4 = d3 := rfl
  have hlast : (!true && pairState d4 n == 1) = false := rfl
  rw [hlast, if_neg Bool.false_ne_true, h4]
  simp +decide only [d3, h2, h1, ↓keep_ite, ↓keep_addSat, ite_self]

end stages

/-- A tick of a spindle that the observer drives (R275, R279): the speed, one step of the ramp and a poll of the power stage. -/
theorem spindleTick_steps {d : Dev} {n speed vbus : Nat} {ibus : Int} {law : TickLaw} {r : Int × Int} (hstate : spinState d n = 3)
    (hhold : (d.servo n).hold = []) (hchop : d.flag F.spnStat_chop_fault n = false) (hspinup : (d.spin n).spinup = false)
    (hshare : (d.spin n).share = 0) (hpsl : d.flag F.pslStat_psl_fault n = false) (hslot : d.slotDrive n = .driven)
    (hr : r = rampStep (d.spin n).setp (d.spin n).rate ((d.rd F.spnStat_command n : Int) * 10 ^ 12)
      (d.rd F.sscRamp_ramp_rate n) (d.rd F.sscRamp_ramp_accel n)) :
    (spindleTick n speed vbus ibus true true law d).rd F.spnStat_speed n = speed % 2 ^ F.spnStat_speed.w ∧
      spinState (spindleTick n speed vbus ibus true true law d) n = 3 ∧ ((spindleTick n speed vbus ibus true true law d).spin n).setp = r.1 ∧
      ((spindleTick n speed vbus ibus true true law d).spin n).rate = r.2 ∧ (spindleTick n speed vbus ibus true true law d).out =
        .psl n (pslWord 3 (d.servo n).seqNo (activeUnit d n) false []) :: d.out := by
  rw [spindleTick_eq]
  extract_lets d1 done held
  have hview1 : outView n d1 = outView n d := (outView_recordOvr ..).trans (outView_recordOvr ..)
  have hframe1 : frameView n d1 = frameView n d := (frameView_recordOvr ..).trans (frameView_recordOvr ..)
  have hkeep1 : keep recordOvrFoot d1 = keep recordOvrFoot d := by simp +decide only [d1, ↓keep_recordOvr]
  have hdone : done = true := ite_self _
  have hheld : held = false := by
    have hhold1 : (d1.servo n).hold = [] := (congrArg (fun x => x.2.2.1) hview1).trans hhold
    simp only [held, hdone, hhold1, List.contains_nil, Bool.not_true, Bool.or_false]
  rw [hdone, hheld]
  clear_value d1 done held
  have hmeasured := tickMeasured_speed (n := n) (speed := speed) (vbus := vbus) (ibus := ibus) (d := d1)
  have hframe2 := (tickMeasured_frameView (n := n) (speed := speed) (vbus := vbus) (ibus := ibus) (d := d1)).trans hframe1
  have hkeep2 := keep_tickMeasured n speed vbus ibus d1
  generalize tickMeasured n speed vbus ibus d1 = d2 at *
  have hspin2 : d2.spin n = d.spin n := by rw [hmeasured.2, Dev.spin, spins_of_keep hkeep1 (by decide), ← Dev.spin]
  have hrd2 (f : Fld) (h1 : recordOvrFoot.testBit (32 + f.id) = false) (h2 : tickFoot.testBit (32 + f.id) = false) (i j : Nat) :
      d2.rd f i j = d.rd f i j := by rw [rd_of_keep hkeep2 h2, rd_of_keep hkeep1 h1]
  have hstate2 : spinState d2 n = 3 := (hrd2 _ (by decide) (by decide) n 0).trans hstate
  obtain ⟨hsetp, hrate, hkeep3⟩ := tickRamped_steps (d := d2) (n := n) (speed := speed) (vbus := vbus) (r := r) hstate2
    (by rw [Dev.flag, hrd2 _ (by decide) (by decide), ← Dev.flag, hchop]) (by rw [hspin2, hspinup]) (by rw [hspin2, hshare])
    (by rw [hspin2, hrd2 _ (by decide) (by decide), hrd2 _ (by decide) (by decide), hrd2 _ (by decide) (by decide), hr])
  generalize tickRamped n speed vbus false d2 = d3 at *
  have hframe3 : frameView n d3 = frameView n d := (frameView_of_keep hkeep3 (by decide) (by decide) (by decide) (by decide)
    (by rw [Dev.servo_of_servos (servos_of_keep hkeep3 (by decide))])).trans hframe2
  simp only [frameView, Prod.mk.injEq] at hframe3
  obtain ⟨hseq3, hactive3, hfault3, hdrive3, hout3⟩ := hframe3
  obtain ⟨hout4, hkeep4⟩ := tickFramed_sends (law := law) (hfault3.trans hpsl) (hdrive3.trans hslot) false
  generalize tickFramed n false law d3 = d4 at *
  have hstate4 : spinState d4 n = 3 := by rw [spinState, rd_of_keep hkeep4 (by decide), rd_of_keep hkeep3 (by decide), ← spinState, hstate2]
  have hkeep5 := tickEnded_running (speed := speed) hstate4
  generalize tickEnded n speed true true d4 = d5 at *
  refine ⟨?_, ?_, ?_, ?_, ?_⟩
  · rw [rd_of_keep hkeep5 (by decide), rd_of_keep hkeep4 (by decide), rd_of_keep hkeep3 (by decide), hmeasured.1]
  · rw [spinState, rd_of_keep hkeep5 (by decide), ← spinState, hstate4]
  · rw [Dev.spin, spins_of_keep hkeep5 (by decide), spins_of_keep hkeep4 (by decide), ← Dev.spin, hsetp]
  · rw [Dev.spin, spins_of_keep hkeep5 (by decide), spins_of_keep hkeep4 (by decide), ← Dev.spin, hrate]
  · rw [out_of_keep hkeep5 (by decide), hout4, hseq3, hactive3, hout3]

/-! ### Crossings, commutation, modes and the demand -/

theorem spinView_putNode (d : Dev) (n k : Nat) (v : Int) : spinView n (putNode d n k v) = spinView n d :=
  spinView_of_keep (keep_putNode (ft := putNodeFoot) (by decide) d n k v) (by decide) (by decide) (by decide)

theorem bemfCrossing_catching {d : Dev} {n : Nat} {err : Int} (hstate : spinState d n = 4) :
    ((bemfCrossing n err d).spin n).agree = (if err.natAbs * 6 ≤ 65536 then min 6 ((d.spin n).agree + 1) else 0) ∧
      spinState (bemfCrossing n err d) n = 4 := by
  have hview := spinView_putNode d n 136 err
  simp only [spinView, Prod.mk.injEq] at hview
  obtain ⟨hstate1, hspin1, _⟩ := hview
  unfold bemfCrossing
  generalize putNode d n 136 err = d1 at *
  rw [hstate] at hstate1
  show ((if spinState d1 n = 4 then _ else _ : Dev).spin n).agree = _ ∧ spinState (if spinState d1 n = 4 then _ else _ : Dev) n = 4
  rw [if_pos hstate1, Dev.updSpin_spin, if_pos rfl, hspin1]
  exact ⟨rfl, hstate1⟩

/-- The gates that a commutation drives, in motoring and in generation. -/
theorem bridgeGates_of_state {d : Dev} {n : Nat} : (spinState d n = 2 → bridgeGates d n = gateOf (d.spin n).step) ∧
    (spinState d n = 5 → bridgeGates d n = gateOf (d.spin n).step ||| ((gateOf (d.spin n).step &&& 0b101010) >>> 1)) := by
  refine ⟨fun h => bridgeGates_of_start (.inr rfl) h, fun h => ?_⟩
  simp only [bridgeGates, h]

theorem node_setNode (d : Dev) (n k : Nat) (v : Int) : node (putNode d n k v) n k = (setNode d n k v).1 := by
  have hservo : ((putNode d n k v).servo n).nodes = tabPut 0 (d.servo n).nodes k (setNode d n k v).1 := by
    unfold putNode setNode
    extract_lets r s e
    have he : (e.servo n).nodes = tabPut 0 (d.servo n).nodes k s.1 := by rw [show e = _ from rfl, Dev.updServo_servo, if_pos rfl]
    show ((if s.2 = true then _ else e).servo n).nodes = _
    split
    · exact he
    · exact he
  rw [node, hservo, tabGet_tabPut, if_pos rfl]

theorem commutation_steps {d : Dev} {n window step code : Nat} (hwin : d.rd F.spnComm_win_min n * 1000 ≤ window)
    (hstep : step = ((d.spin n).step + 1) % 6) (hcode : code = d.rd F.spnSlope_code n (d.rd F.sscLaneStat_band n 0)) :
    ((commutation n window true false d).spin n).step = step ∧ node (commutation n window true false d) n 137 = 0 ∧
      ((commutation n window true false d).spin n).bad = (d.spin n).bad ∧
      (spinState d n = 2 → (commutation n window true false d).out = .pin (pinSlope n) 0 :: .pin (pinGate n) (gateOf step) ::
        .pin (pinSlope n) code :: d.out) ∧
      (spinState d n = 5 → (commutation n window true false d).out = .pin (pinSlope n) 0 ::
        .pin (pinGate n) (gateOf step ||| ((gateOf step &&& 0b101010) >>> 1)) :: .pin (pinSlope n) code :: d.out) := by
  unfold commutation
  extract_lets d1 d2 d3 d4 d5 d6 d7
  have hspin1 : d1.spin n = { d.spin n with step := step, off := 0 } := by rw [hstep, show d1 = _ from rfl, Dev.updSpin_spin, if_pos rfl]; rfl
  have hkeep2 := keep_putNode (ft := putNodeFoot) (by decide) d1 n 134 (d1.spin n).step
  have hrd2 (f : Fld) (hf : putNodeFoot.testBit (32 + f.id) = false) (i j : Nat) : d2.rd f i j = d.rd f i j := rd_of_keep hkeep2 hf i j
  have hspin2 : d2.spin n = d1.spin n := congrArg (fun x => x.2.1) (spinView_putNode d1 n 134 (d1.spin n).step)
  have hout2 : d2.out = d.out := congrArg (fun x => x.2.2) (spinView_putNode d1 n 134 (d1.spin n).step)
  have hstate3 : spinState d3 n = spinState d n := hrd2 _ (by decide) n 0
  have hspin3 : d3.spin n = d1.spin n := hspin2
  have hout3 : d3.out = .pin (pinSlope n) code :: d.out := by
    rw [hcode, ← hout2, ← hrd2 F.sscLaneStat_band (by decide), ← hrd2 F.spnSlope_code (by decide)]
    rfl
  have hkeep5 : keep putNodeFoot d5 = keep putNodeFoot d4 := keep_putNode (by decide) d4 n 135 0
  have hwide : ¬ window < d5.rd F.spnComm_win_min n * 1000 := by
    rw [rd_of_keep hkeep5 (by decide), show d4.rd F.spnComm_win_min n = d2.rd F.spnComm_win_min n from rfl, hrd2 _ (by decide)]
    exact Nat.not_lt.mpr hwin
  clear_value d3
  have hview5 : spinView n d5 = spinView n d4 := spinView_putNode ..
  have hview7 : spinView n d7 = spinView n d5 := spinView_putNode ..
  have hspin7 : d7.spin n = d1.spin n := by
    have h7 : d7.spin n = d4.spin n := congrArg (fun x => x.2.1) (hview7.trans hview5)
    rw [h7, ← hspin3]
    rfl
  have hout7 : d7.out = .pin (pinSlope n) 0 :: .pin (pinGate n) (bridgeGates d3 n) :: .pin (pinSlope n) code :: d.out := by
    have h7 : d7.out = d4.out := congrArg (fun x => x.2.2) (hview7.trans hview5)
    rw [h7, ← hout3]
    rfl
  have hnode7 : node d7 n 137 = 0 := by
    rw [show d7 = putNode d5 n 137 0 from rfl, node_setNode, setNode_fst]
    rfl
  rw [if_neg hwide, if_pos rfl, hspin7, hspin1]
  refine ⟨rfl, hnode7, rfl, fun h => ?_, fun h => ?_⟩
  · rw [hout7, bridgeGates_of_state.1 (hstate3.trans h), hspin3, hspin1]
  · rw [hout7, bridgeGates_of_state.2 (hstate3.trans h), hspin3, hspin1]

theorem coastSpin_coasts (d : Dev) (n : Nat) : spinState (coastSpin d n) n = (if d.rd F.spnStat_speed n = 0 then 0 else 7) ∧
    ((coastSpin d n).spin n).starting = false ∧ ((coastSpin d n).spin n).spinup = false ∧
    keep (footOf [.spins] [] ||| setSpinFoot) (coastSpin d n) = keep (footOf [.spins] [] ||| setSpinFoot) d := by
  have hlt : (if d.rd F.spnStat_speed n = 0 then 0 else 7) < 8 := by
    split
    all_goals decide
  unfold coastSpin
  refine ⟨spinState_setSpin d n hlt, ?_, ?_, ?_⟩
  · rw [Dev.updSpin_spin, if_pos rfl]
  · rw [Dev.updSpin_spin, if_pos rfl]
  · simp +decide only [↓keep_updSpin, ↓keep_setSpin]

theorem coastSpin_of_mode (d : Dev) (n : Nat) {mode : Nat} (hmode : mode < 2 ^ F.spnCtl_mode.w) :
    (coastSpin (d.wr F.spnCtl_mode mode n) n).rd F.spnCtl_mode n = mode ∧
      spinState (coastSpin (d.wr F.spnCtl_mode mode n) n) n = (if d.rd F.spnStat_speed n = 0 then 0 else 7) ∧
      ((coastSpin (d.wr F.spnCtl_mode mode n) n).spin n).starting = false ∧
      ((coastSpin (d.wr F.spnCtl_mode mode n) n).spin n).spinup = false := by
  obtain ⟨hstate, hstart, hspinup, hkeep⟩ := coastSpin_coasts (d.wr F.spnCtl_mode mode n) n
  rw [Dev.rd_wr_ne _ _ _ _ _ _ _ _ (by decide)] at hstate
  refine ⟨?_, hstate, hstart, hspinup⟩
  rw [rd_of_keep hkeep (by decide), Dev.rd_wr_lt _ _ _ _ _ hmode]

theorem demandUpdate_reports (d : Dev) (n : Nat) (up : Bool) :
    (demandUpdate n up d).rd F.spnDemand_demand n =
        (((tabGet [] d.host.moved n).take 10).sum + if up then 999999 else 0) / 1000000 % 2 ^ F.spnDemand_demand.w ∧
      (demandUpdate n up d).rd F.spnDemand_curve n = tabGet 0 d.host.curves n % 2 ^ F.spnDemand_curve.w := by
  unfold demandUpdate
  extract_lets moved x d1 d2 id pts onD hyst was on c old d3 d4
  have hkeep : keep (footOf [.spins] [F.spnStat_curve_on] ||| setCommandFoot) (setCommand d4 n) =
      keep (footOf [.spins] [F.spnStat_curve_on] ||| setCommandFoot) d2 := by
    simp +decide only [d4, d3, ↓keep_setCommand, ↓keep_ite, ↓keep_updSpin, ↓keep_setFlag, ite_self]
  rw [rd_of_keep hkeep (by decide), rd_of_keep hkeep (by decide)]
  refine ⟨?_, Dev.rd_wr_same ..⟩
  rw [show d2 = (d1.wr F.spnDemand_demand x n).wr F.spnDemand_curve (tabGet 0 d1.host.curves n) n from rfl,
    Dev.rd_wr_ne _ _ _ _ _ _ _ _ (by decide), Dev.rd_wr_same]

/-- Settles O23: a lemma per row, the tick by its four stages. -/
theorem spindleDriveRowsComplete : Obligations.SpindleDriveRowsComplete := by
  unfold Obligations.SpindleDriveRowsComplete
  refine ⟨?share, ?start, ?align, ?openLoop, ?handover, ?tick, ?crossing, ?commutation, ?off, ?run, ?coast, ?brake, ?manual, ?demand, ?bound⟩
  case share =>
    intro s n hfree hfirst
    refine brings_of_run (g := grantShare n.val) rfl ?_
    rw [grantShare, if_pos ⟨hfree, hfirst⟩]
    refine ⟨?_, ?_, rfl, fun _ _ _ => rfl⟩
    · rw [Dev.updSpin_spin, if_pos rfl]
      rfl
    · rw [Dev.updSpin_spin, if_pos rfl]
  case start =>
    intro s n hmode hpresent
    exact brings_of_run (g := spindleStart n.val true) rfl (spindleStart_catches hmode hpresent)
  case align =>
    intro s n hstarting hstate hslot
    refine gives_of_run rfl ?_
    have hne : spinState (s.dev.updSpin n.val fun x => { x with starting := false, step := 0 }) n.val ≠ 1 := by
      rw [spinState, Dev.updSpin_rd, ← spinState, hstate]
      decide
    rw [if_pos hstarting, setSpin_steps (.inl rfl) hne hslot, Dev.updSpin_spin, if_pos rfl]
    rfl
  case openLoop =>
    intro s n hstate hslot
    refine gives_of_run rfl ?_
    rw [if_pos hstate, setSpin_steps (.inr rfl) (by rw [hstate]; decide) hslot]
  case handover =>
    intro s n hstate
    refine brings_of_run rfl ?_
    obtain ⟨hlocked, hspin⟩ := lockAt_locks s.dev n.val 300
    rw [if_pos hstate, spinState_recomputeBound, recomputeBound_spin, hspin]
    exact ⟨hlocked, rfl, rfl, rfl, rfl, rfl, rfl⟩
  case tick =>
    intro s n speed vbus ibus law r hstate hhold hchop hspinup hshare hpsl hslot hr
    refine brings_of_run (g := fun d => d.onSlot n.val (spindleTick n.val speed vbus ibus true true law)) rfl ?_
    rw [onSlot_driven hslot]
    exact spindleTick_steps hstate hhold hchop hspinup hshare hpsl hslot hr
  case crossing =>
    intro s n err hstate hslot
    refine brings_of_run (g := fun d => d.onSlot n.val (bemfCrossing n.val err)) rfl ?_
    rw [onSlot_driven hslot]
    exact bemfCrossing_catching hstate
  case commutation =>
    intro s n window step code hwin hstep hslot hcode
    refine brings_of_run (g := fun d => d.onSlot n.val (commutation n.val window true false)) rfl ?_
    rw [onSlot_driven hslot]
    exact commutation_steps hwin hstep hcode
  case off =>
    intro s n
    exact brings_of_run (g := spindleMode n.val 0) rfl (coastSpin_of_mode s.dev n.val (by decide))
  case run =>
    intro s n
    rfl
  case coast =>
    intro s n
    exact brings_of_run (g := spindleMode n.val 2) rfl (coastSpin_of_mode s.dev n.val (by decide))
  case brake =>
    intro s n
    refine brings_of_run (g := spindleMode n.val 3) rfl ?_
    have hspeed : (s.dev.wr F.spnCtl_mode 3 n.val).rd F.spnStat_speed n.val = s.dev.rd F.spnStat_speed n.val :=
      Dev.rd_wr_ne _ _ _ _ _ _ _ _ (by decide)
    show (setSpin (s.dev.wr F.spnCtl_mode 3 n.val) n.val _).rd F.spnCtl_mode n.val = 3 ∧ spinState (setSpin _ n.val _) n.val = _
    rw [hspeed]
    refine ⟨?_, spinState_setSpin _ _ ?_⟩
    · rw [rd_of_keep (keep_setSpin (ft := setSpinFoot) (by decide) _ _ _) (by decide)]
      exact Dev.rd_wr_lt s.dev F.spnCtl_mode 3 n.val 0 (by decide)
    · split
      all_goals decide
  case manual =>
    intro s n on rpm hlo hhi
    refine gives_of_run (g := spindleManual n.val on rpm) rfl ?_
    rw [spindleManual]
    exact congrArg (setCommand · n.val) (if_pos ⟨hlo, hhi⟩)
  case demand =>
    intro s n up
    exact brings_of_run (g := demandUpdate n.val up) rfl (demandUpdate_reports ..)
  case bound =>
    intro s
    rfl

end Sys2Proof.Machine
end

section
/-! PROOF. Spindle, bus and power-stage faults (R281-R293). -/
namespace Sys2Proof.Machine

/-! ### A lost rotor -/

/-- What shutting a task's channels may change. -/
def stoppedFoot : Nat := closePermitFoot ||| dropEntryFoot ||| shutReadFoot ||| syncChnFoot

theorem keep_stopChn (d : Dev) (c : Nat) : keep stoppedFoot (stopChn d c) = keep stoppedFoot d := by
  simp +decide only [stopChn, ↓keep_forEach, ↓keep_closeWrite, ↓keep_dropEntry, ↓keep_updChn, ↓keep_shutRead, ↓keep_syncChn, implies_true]

theorem keep_stopped (d : Dev) (a : Nat) : keep stoppedFoot (stopped d a) = keep stoppedFoot d :=
  (forEach_keeps (p := keep stoppedFoot) (fun e c _ => keep_stopChn e c) _).trans (keep_closePermit (by decide) d a)

/-- The end of a task starts none. -/
theorem seqStop_idle {d : Dev} {a b : Nat} (cause status : Nat) (hidle : d.rd F.sqrStat_state b = 0) :
    (seqStop d a cause status).rd F.sqrStat_state b = 0 := by
  have hkeep : (stopped d a).rd F.sqrStat_state b = 0 := (rd_of_keep (keep_stopped d a) (by decide) b 0).trans hidle
  have hwr (x : Dev) (h : x.rd F.sqrStat_state b = 0) : (x.wr F.sqrStat_state 0 a).rd F.sqrStat_state b = 0 := by
    rw [Dev.rd_wr_self]
    split
    · rfl
    · exact h
  rw [seqStop_eq]
  generalize stopped d a = e at hkeep
  by_cases h0 : cause = 0
  all_goals
    simp +decide only [h0, if_true, if_false, Dev.emit_rd, Dev.rd_wr_ne, Dev.rd_setFlag_ne, ne_eq]
    exact hwr _ hkeep

/-- What ends the task of a sequencer that runs one. -/
def stopRunning (d : Dev) (a : Nat) : Dev := if d.rd F.sqrStat_state a = 0 then d else seqStop d a 1 0

theorem stopRunning_idle (d : Dev) (a : Nat) : (stopRunning d a).rd F.sqrStat_state a = 0 := by
  unfold stopRunning
  split
  next h => exact h
  next => exact seqStop_state ..

theorem stopRunning_keeps_idle {d : Dev} {a b : Nat} (hidle : d.rd F.sqrStat_state b = 0) : (stopRunning d a).rd F.sqrStat_state b = 0 := by
  unfold stopRunning
  split
  · exact hidle
  · exact seqStop_idle 1 0 hidle

theorem rotorLost_stops {d : Dev} {n : Nat} (hstate : spinState d n = 3) (hgone : rotorGone d n = true) :
    spinState (rotorLost n d) n = 4 ∧ ((rotorLost n d).spin n).lost = true ∧ ((rotorLost n d).spin n).agree = 0 ∧
      (rotorLost n d).flag F.spnEvt_lost n = true ∧ (rotorLost n d).rd F.sqrStat_state (2 * n) = 0 ∧
      (rotorLost n d).rd F.sqrStat_state (2 * n + 1) = 0 := by
  rw [rotorLost, if_pos ⟨.inl hstate, hgone⟩]
  extract_lets d1 d2 d3 d4
  have hidle {a : Nat} (ha : a ∈ [2 * n, 2 * n + 1]) : d1.rd F.sqrStat_state a = 0 :=
    forEach_reaches (P := fun e => e.rd F.sqrStat_state a = 0) (g := stopRunning) ha (fun e => stopRunning_idle e a)
      (fun _ _ _ h => stopRunning_keeps_idle h) d
  clear_value d1
  have hspin2 : spinState d2 n = 4 := spinState_setSpin d1 n (by decide)
  have hrotor2 : d2.spin n = { d1.spin n with lost := true, agree := 0, bad := 0, off := 0 } := by
    rw [show d2 = _ from rfl, Dev.updSpin_spin, if_pos rfl, setSpin_spin]
  have hkeep2 : keep (footOf [.spins] [] ||| setSpinFoot) d2 = keep (footOf [.spins] [] ||| setSpinFoot) d1 := by
    simp +decide only [d2, ↓keep_updSpin, ↓keep_setSpin]
  clear_value d2
  have hkeep3 : keep putNodeFoot d3 = keep putNodeFoot d2 := keep_putNode (by decide) d2 n 137 0
  clear_value d3
  have hevent4 : d4.flag F.spnEvt_lost n = true := by
    rw [Dev.flag, rd_of_keep (keep_cardCount (ft := cardCountFoot) (by decide) _ _ _) (by decide), Dev.rd_addSat_ne _ _ _ _ _ _ _ _ (by decide)]
    exact Dev.flag_setFlag d3 F.spnEvt_lost true n 0 (by decide)
  have hkeep4 : keep (cardCountFoot ||| footOf [] [F.spnEvt_lost, F.spnCnt_losts]) d4 =
      keep (cardCountFoot ||| footOf [] [F.spnEvt_lost, F.spnCnt_losts]) d3 := by
    simp +decide only [d4, ↓keep_cardCount, ↓keep_addSat, ↓keep_setFlag]
  clear_value d4
  have hkeep5 : keep (recomputeBoundFoot ||| suspendHdaFoot) (recomputeBound (suspendHda d4 n)) = keep (recomputeBoundFoot ||| suspendHdaFoot) d4 := by
    simp +decide only [↓keep_recomputeBound, ↓keep_suspendHda]
  generalize recomputeBound (suspendHda d4 n) = d5 at *
  have hspins : d5.spin n = d2.spin n := by
    rw [Dev.spin, spins_of_keep hkeep5 (by decide), spins_of_keep hkeep4 (by decide), spins_of_keep hkeep3 (by decide), ← Dev.spin]
  have hseq {a : Nat} (ha : a ∈ [2 * n, 2 * n + 1]) : d5.rd F.sqrStat_state a = 0 := by
    rw [rd_of_keep hkeep5 (by decide), rd_of_keep hkeep4 (by decide), rd_of_keep hkeep3 (by decide), rd_of_keep hkeep2 (by decide), hidle ha]
  refine ⟨?_, by rw [hspins, hrotor2], by rw [hspins, hrotor2], ?_, hseq (by simp), hseq (by simp)⟩
  · rw [spinState, rd_of_keep hkeep5 (by decide), rd_of_keep hkeep4 (by decide), rd_of_keep hkeep3 (by decide), ← spinState, hspin2]
  · rw [Dev.flag, rd_of_keep hkeep5 (by decide), ← Dev.flag, hevent4]

theorem rotorRelock_locks {d : Dev} {n speed : Nat} (hstate : spinState d n = 4) (hagree : 6 ≤ (d.spin n).agree) :
    spinState (rotorRelock n speed d) n = 3 ∧ (rotorRelock n speed d).rd F.spnStat_speed n = speed % 2 ^ F.spnStat_speed.w ∧
      ((rotorRelock n speed d).spin n).lost = false ∧ ((rotorRelock n speed d).spin n).setp = (speed : Int) * 10 ^ 12 := by
  rw [rotorRelock, if_pos ⟨hstate, hagree⟩]
  extract_lets d1 d2
  have hkeep : keep (hdaArrivedFoot ||| recomputeBoundFoot) (hdaArrived (recomputeBound d2) n) = keep (hdaArrivedFoot ||| recomputeBoundFoot) d2 := by
    simp +decide only [↓keep_recomputeBound, ↓keep_hdaArrived]
  obtain ⟨hlocked, hspin⟩ := lockAt_locks d1 n speed
  rw [spinState, rd_of_keep hkeep (by decide), rd_of_keep hkeep (by decide), Dev.spin, spins_of_keep hkeep (by decide)]
  refine ⟨?_, Dev.rd_wr_same .., ?_, ?_⟩
  · rw [show d2 = _ from rfl, Dev.rd_wr_ne _ _ _ _ _ _ _ _ (by decide), ← spinState, hlocked]
  · show ((lockAt d1 n speed).spin n).lost = false
    rw [hspin]
  · show ((lockAt d1 n speed).spin n).setp = _
    rw [hspin]
    rfl

/-! ### A catch that fails, a bus over its second limit, a fault of the power stage -/

theorem bothParked_of_keep {m n : Nat} {d e : Dev} (h : keep m e = keep m d) (hparked : m.testBit (32 + F.pslStat_parked.id) = false)
    (hstruct : m.testBit Part.struct.ctorIdx = false) : bothParked e n = bothParked d n := by
  simp only [bothParked, Dev.bit, rd_of_keep h hparked, actPresent_of_struct (struct_of_keep h hstruct)]

theorem parkedState_lt (b : Bool) : (if b then 6 else 7) < 8 := by
  cases b
  all_goals decide

/-- A catch that fails (R282). -/
theorem catchTimeout_unloads {d : Dev} {n : Nat} (hstate : spinState d n = 4) :
    (catchTimeout n d).flag F.spnEvt_restart n = true ∧ ((catchTimeout n d).spin n).again = true ∧
      spinState (catchTimeout n d) n = (if bothParked d n then 6 else 7) ∧ (catchTimeout n d).rd F.pwrHs_state 0 n = 4 ∧
      (catchTimeout n d).rd F.pwrHs_step 0 n = 6 := by
  rw [catchTimeout, if_pos hstate]
  extract_lets d1 d2 d3 d4 d5 d6
  have hevent1 : d1.flag F.spnEvt_restart n = true := by
    rw [Dev.flag, show d1 = _ from rfl, Dev.rd_addSat_ne _ _ _ _ _ _ _ _ (by decide)]
    exact Dev.flag_setFlag d F.spnEvt_restart true n 0 (by decide)
  have hkeep1 : keep (footOf [] [F.spnEvt_restart, F.spnCnt_restarts]) d1 = keep (footOf [] [F.spnEvt_restart, F.spnCnt_restarts]) d := by
    simp +decide only [d1, ↓keep_addSat, ↓keep_setFlag]
  have hkeep6 : keep (footOf [.spins] [F.pwrHs_state, F.pwrHs_step, F.pwrHs_in_transition] ||| unloadHeadsFoot ||| cardBinFoot) d6 =
      keep (footOf [.spins] [F.pwrHs_state, F.pwrHs_step, F.pwrHs_in_transition] ||| unloadHeadsFoot ||| cardBinFoot) d1 := by
    simp +decide only [d6, d5, d4, d3, d2, ↓keep_updSpin, ↓keep_wr, ↓keep_setFlag, ↓keep_unloadHeads, ↓keep_ite, ↓keep_cardBin, ite_self]
  have hparked : bothParked d6 n = bothParked d n :=
    (bothParked_of_keep hkeep6 (by decide) (by decide)).trans (bothParked_of_keep hkeep1 (by decide) (by decide))
  have hagain6 : (d6.spin n).again = true := by rw [show d6 = _ from rfl, Dev.updSpin_spin, if_pos rfl]
  have hhs6 : d6.rd F.pwrHs_state 0 n = 4 ∧ d6.rd F.pwrHs_step 0 n = 6 := by
    have h4 : d4.rd F.pwrHs_state 0 n = 4 := by
      rw [show d4 = _ from rfl, Dev.rd_setFlag_ne _ _ _ _ _ _ _ _ (by decide)]
      exact Dev.rd_wr_lt d3 F.pwrHs_state 4 0 n (by decide)
    refine ⟨?_, ?_⟩
    · rw [show d6 = _ from rfl, Dev.updSpin_rd, show d5 = _ from rfl, Dev.rd_wr_ne _ _ _ _ _ _ _ _ (by decide), h4]
    · exact Dev.rd_wr_lt d4 F.pwrHs_step 6 0 n (by decide)
  have hflag6 : d6.flag F.spnEvt_restart n = true := by rw [Dev.flag, rd_of_keep hkeep6 (by decide), ← Dev.flag, hevent1]
  clear_value d6
  have hstate7 := spinState_setSpin d6 n (parkedState_lt (bothParked d n))
  rw [hparked]
  generalize (if bothParked d n = true then 6 else 7) = v at *
  have hkeep8 : keep (suspendHdaFoot ||| setSpinFoot) (suspendHda (setSpin d6 n v) n) = keep (suspendHdaFoot ||| setSpinFoot) d6 := by
    simp +decide only [↓keep_suspendHda, ↓keep_setSpin]
  have hsuspend := keep_suspendHda (ft := suspendHdaFoot) (by decide) (setSpin d6 n v) n
  refine ⟨?_, ?_, ?_, ?_, ?_⟩
  · rw [Dev.flag, rd_of_keep hkeep8 (by decide), ← Dev.flag, hflag6]
  · rw [Dev.spin, spins_of_keep hkeep8 (by decide), ← Dev.spin, hagain6]
  · rw [spinState, rd_of_keep hsuspend (by decide), ← spinState, hstate7]
  · rw [rd_of_keep hkeep8 (by decide), hhs6.1]
  · rw [rd_of_keep hkeep8 (by decide), hhs6.2]

/-- The bus over its second limit (R288). -/
theorem vbusOv2_coasts (d : Dev) (n : Nat) :
    (vbusOv2 n d).flag F.spnStat_ov2 n = true ∧ (vbusOv2 n d).flag F.spnEvt_ov2 n = true ∧ (vbusOv2 n d).rd F.pwrHs_state 0 n = 4 ∧
      spinState (vbusOv2 n d) n = (if bothParked d n then 6 else 7) := by
  unfold vbusOv2
  extract_lets d1 d2 d3 d4
  have hkeep1 : keep (footOf [] [F.spnEvt_ov2, F.spnStat_ov2] ||| cardCountFoot) d1 = keep (footOf [] [F.spnEvt_ov2, F.spnStat_ov2] ||| cardCountFoot) d := by
    simp +decide only [d1, ↓keep_cardCount, ↓keep_setFlag]
  have hov1 : d1.flag F.spnStat_ov2 n = true ∧ d1.flag F.spnEvt_ov2 n = true := by
    have hcard := keep_cardCount (ft := cardCountFoot) (by decide) ((d.setFlag F.spnEvt_ov2 true n).setFlag F.spnStat_ov2 true n) 21 1
    refine ⟨?_, ?_⟩
    · rw [Dev.flag, rd_of_keep hcard (by decide)]
      exact Dev.flag_setFlag _ F.spnStat_ov2 true n 0 (by decide)
    · rw [Dev.flag, rd_of_keep hcard (by decide), Dev.rd_setFlag_ne _ _ _ _ _ _ _ _ (by decide)]
      exact Dev.flag_setFlag d F.spnEvt_ov2 true n 0 (by decide)
  clear_value d1
  have hstate2 : spinState d2 n = 7 := spinState_setSpin d1 n (by decide)
  have hkeep2 : keep (footOf [.spins] [] ||| setSpinFoot) d2 = keep (footOf [.spins] [] ||| setSpinFoot) d1 := by
    simp +decide only [d2, ↓keep_updSpin, ↓keep_setSpin]
  clear_value d2
  have hkeep4 : keep (footOf [] [F.pwrHs_state, F.pwrHs_step, F.pwrHs_in_transition] ||| unloadHeadsFoot) d4 =
      keep (footOf [] [F.pwrHs_state, F.pwrHs_step, F.pwrHs_in_transition] ||| unloadHeadsFoot) d2 := by
    simp +decide only [d4, d3, ↓keep_wr, ↓keep_setFlag, ↓keep_unloadHeads]
  have hhs4 : d4.rd F.pwrHs_state 0 n = 4 := by
    rw [show d4 = _ from rfl, Dev.rd_wr_ne _ _ _ _ _ _ _ _ (by decide), Dev.rd_setFlag_ne _ _ _ _ _ _ _ _ (by decide)]
    exact Dev.rd_wr_lt d3 F.pwrHs_state 4 0 n (by decide)
  have hparked : bothParked d4 n = bothParked d n := (bothParked_of_keep hkeep4 (by decide) (by decide)).trans
    ((bothParked_of_keep hkeep2 (by decide) (by decide)).trans (bothParked_of_keep hkeep1 (by decide) (by decide)))
  have hstate4 : spinState d4 n = 7 := by rw [spinState, rd_of_keep hkeep4 (by decide), ← spinState, hstate2]
  have hov4 : d4.flag F.spnStat_ov2 n = true ∧ d4.flag F.spnEvt_ov2 n = true := by
    rw [Dev.flag, Dev.flag, rd_of_keep hkeep4 (by decide), rd_of_keep hkeep4 (by decide), rd_of_keep hkeep2 (by decide),
      rd_of_keep hkeep2 (by decide)]
    exact hov1
  clear_value d4
  have hstate5 : spinState (if bothParked d4 n = true then setSpin d4 n 6 else d4) n = if bothParked d n then 6 else 7 := by
    rw [hparked]
    split
    · exact spinState_setSpin d4 n (by decide)
    · exact hstate4
  have hkeep5 : keep setSpinFoot (if bothParked d4 n = true then setSpin d4 n 6 else d4) = keep setSpinFoot d4 := by
    simp +decide only [↓keep_ite, ↓keep_setSpin, ite_self]
  generalize (if bothParked d4 n = true then setSpin d4 n 6 else d4) = d5 at *
  have hkeep6 : keep (recomputeBoundFoot ||| suspendHdaFoot) (recomputeBound (suspendHda d5 n)) = keep (recomputeBoundFoot ||| suspendHdaFoot) d5 := by
    simp +decide only [↓keep_recomputeBound, ↓keep_suspendHda]
  rw [Dev.flag, Dev.flag, spinState, rd_of_keep hkeep6 (by decide), rd_of_keep hkeep6 (by decide), rd_of_keep hkeep6 (by decide),
    rd_of_keep hkeep6 (by decide), ← spinState, rd_of_keep hkeep5 (by decide), rd_of_keep hkeep5 (by decide), rd_of_keep hkeep5 (by decide)]
  exact ⟨hov4.1, hov4.2, hhs4, hstate5⟩

theorem stageFault_coasts (d : Dev) (n : Nat) :
    (stageFault d n).flag F.pslStat_fault_seen n = true ∧ spinState (stageFault d n) n = 7 ∧ (stageFault d n).rd F.pwrHs_state 0 n = 4 ∧
      ((stageFault d n).spin n).share = 0 := by
  unfold stageFault
  extract_lets d1 d2 d3
  have hstate2 : spinState d2 n = 7 := spinState_setSpin d1 n (by decide)
  have hshare2 : (d2.spin n).share = 0 := by rw [show d2 = _ from rfl, Dev.updSpin_spin, if_pos rfl]
  have hfault2 : d2.flag F.pslStat_fault_seen n = true := by
    rw [Dev.flag, show d2 = _ from rfl, Dev.updSpin_rd, rd_of_keep (keep_setSpin (ft := setSpinFoot) (by decide) d1 n 7) (by decide)]
    exact Dev.flag_setFlag d F.pslStat_fault_seen true n 0 (by decide)
  clear_value d2
  have hkeep3 : keep emergencyRetractFoot d3 = keep emergencyRetractFoot d2 := keep_emergencyRetract (by decide) d2 n 3 6
  clear_value d3
  have hkeep4 := keep_recomputeBound (ft := recomputeBoundFoot) (by decide) (d3.wr F.pwrHs_state 4 0 n)
  generalize recomputeBound (d3.wr F.pwrHs_state 4 0 n) = d4 at *
  refine ⟨?_, ?_, ?_, ?_⟩
  · rw [Dev.flag, rd_of_keep hkeep4 (by decide), Dev.rd_wr_ne _ _ _ _ _ _ _ _ (by decide), rd_of_keep hkeep3 (by decide), ← Dev.flag, hfault2]
  · rw [spinState, rd_of_keep hkeep4 (by decide), Dev.rd_wr_ne _ _ _ _ _ _ _ _ (by decide), rd_of_keep hkeep3 (by decide), ← spinState, hstate2]
  · rw [rd_of_keep hkeep4 (by decide)]
    exact Dev.rd_wr_lt d3 F.pwrHs_state 4 0 n (by decide)
  · rw [Dev.spin, spins_of_keep hkeep4 (by decide), Dev.wr_spins, spins_of_keep hkeep3 (by decide), ← Dev.spin, hshare2]

/-! ### Frames of the uplink -/

/-- The runs of bad frames on the two directions of a link. -/
def linkRuns (n : Nat) (d : Dev) : Nat × Nat := ((d.servo n).dlRun, (d.servo n).ulRun)

theorem linkRuns_putNode (d : Dev) (n k : Nat) (v : Int) : linkRuns n (putNode d n k v) = linkRuns n d := by
  unfold putNode setNode
  extract_lets r s e
  have he : linkRuns n e = linkRuns n d := by
    rw [linkRuns, show e = _ from rfl, Dev.updServo_servo, if_pos rfl]
    rfl
  rw [← he]
  show linkRuns n (if s.2 = true then _ else e) = linkRuns n e
  split <;> rfl

theorem linkRuns_of_servos {n : Nat} {d e : Dev} (h : e.servos = d.servos) : linkRuns n e = linkRuns n d := by
  simp only [linkRuns, Dev.servo_of_servos h]

theorem pslCheck_below {d : Dev} {n : Nat} (hdl : (d.servo n).dlRun < 8) (hul : (d.servo n).ulRun < 8) : pslCheck d n = d := by
  have hnot : ¬ ((8 ≤ (d.servo n).dlRun ∨ 8 ≤ (d.servo n).ulRun) ∧ (!d.flag F.pslStat_psl_fault n) = true) := by omega
  rw [pslCheck]
  exact if_neg hnot

theorem pslUplink_lost {d : Dev} {n : Nat} (hdl : (d.servo n).dlRun < 8) (hul : (d.servo n).ulRun < 7) :
    pslUplink n none d = (d.addSat F.pslStat_ul_err 1 n).updServo n fun s => { s with ulRun := s.ulRun + 1 } := by
  have hservo : (((d.addSat F.pslStat_ul_err 1 n).updServo n fun s => { s with ulRun := s.ulRun + 1 }).servo n) =
      { d.servo n with ulRun := (d.servo n).ulRun + 1 } := by
    rw [Dev.updServo_servo, if_pos rfl]
    rfl
  refine pslCheck_below ?_ ?_
  · rw [hservo]
    exact hdl
  · rw [hservo]
    exact Nat.succ_lt_succ hul

/-- A sound frame that reports no error of the downlink (R292). -/
theorem pslUplink_good {d : Dev} {n : Nat} {f : BitVec 96} (hgood : pslGood f = true) (hcrc : f.getLsbD 8 = false) :
    (pslUplink n (some f) d).rd F.pslStat_parked n = f.toNat / 2 ^ 10 % 4 ∧ linkRuns n (pslUplink n (some f) d) = (0, 0) := by
  unfold pslUplink
  have hnot : ¬ (!pslGood f) = true := by simp [hgood]
  show (if (!pslGood f) = true then _ else _ : Dev).rd F.pslStat_parked n = _ ∧ linkRuns n (if (!pslGood f) = true then _ else _ : Dev) = _
  rw [if_neg hnot]
  extract_lets crcErr d1 d2 d3 d4 ty d5 d6
  have hruns1 : linkRuns n d1 = (0, 0) := by
    rw [linkRuns, show d1 = _ from rfl, Dev.updServo_servo, if_pos rfl, show crcErr = false from hcrc]
    rfl
  have hruns4 : linkRuns n d4 = (0, 0) := by
    refine (linkRuns_of_servos (servos_of_keep (m := footOf [] [F.pslStat_dl_err, F.pslStat_fault_seen, F.pslStat_parked]) ?_ (by decide))).trans hruns1
    simp +decide only [d4, d3, d2, ↓keep_wr, ↓keep_ite, ↓keep_setFlag, ↓keep_addSat, ite_self]
  have hparked4 : d4.rd F.pslStat_parked n = f.toNat / 2 ^ 10 % 4 := Dev.rd_wr_lt d3 F.pslStat_parked (frameField f 10 2) n 0 (Nat.mod_lt _ (by decide))
  clear_value d4
  have hchop (x : Dev) (v : Nat) : linkRuns n (if (x.spin n).chop = true ∧ (x.spin n).chopMa = 0 then x.updSpin n fun s => { s with chopMa := v } else x) =
      linkRuns n x := by
    split <;> rfl
  have hruns6 : linkRuns n d6 = (0, 0) := by
    rw [← hruns4]
    simp only [d6]
    split
    · rw [linkRuns_putNode, linkRuns_putNode]
    · split
      · exact (hchop ..).trans (linkRuns_putNode ..)
      · rfl
  have hkeep6 : keep (putNodeFoot ||| footOf [.spins] []) d6 = keep (putNodeFoot ||| footOf [.spins] []) d4 := by
    simp +decide only [d6, d5, ↓keep_ite, ↓keep_putNode, ↓keep_updSpin, ite_self]
  clear_value d6
  have hkeep7 : keep (pslCheckFoot ||| parkedEffectsFoot) (pslCheck (parkedEffects d6 n) n) = keep (pslCheckFoot ||| parkedEffectsFoot) d6 := by
    simp +decide only [↓keep_pslCheck, ↓keep_parkedEffects]
  exact ⟨by rw [rd_of_keep hkeep7 (by decide), rd_of_keep hkeep6 (by decide), hparked4],
    (linkRuns_of_servos (servos_of_keep hkeep7 (by decide))).trans hruns6⟩

/-! ### The faults -/

theorem heldEnergy_of_chop {d : Dev} {n : Nat} (hchop : d.flag F.spnStat_chop_fault n = true) (speed : Nat) : (heldEnergy d n speed).1 = 0 := by
  unfold heldEnergy
  split
  all_goals rfl

theorem heldNow_energy {d : Dev} {n : Nat} (hchop : d.flag F.spnStat_chop_fault n = true) :
    ((((heldNow d).find? fun x => x.1 == n).map (·.2)).getD (0, 0)).1 = 0 := by
  cases hfind : (heldNow d).find? fun x => x.1 == n with
  | none => rfl
  | some x =>
    have hx : x.1 = n := by simpa using List.find?_some hfind
    obtain ⟨k, _, rfl⟩ := List.mem_map.1 (List.mem_of_find?_eq_some hfind)
    obtain rfl : k = n := hx
    exact heldEnergy_of_chop hchop _

/-- One slot's share of the bound, as `recomputeBound` writes it. -/
def putHeld (l : List (Nat × Nat × Nat)) (bs : List (Nat × Nat)) (d : Dev) (n : Nat) : Dev :=
  let e := ((l.find? fun x => x.1 == n).map (·.2)).getD (0, 0)
  let d := (d.wr F.pwrHoldR_energy e.1 0 n).wr F.pwrHoldR_rate (e.2 / 3000000) 0 n
  d.wr F.pwrHoldB_bound (((bs.find? fun b => b.1 == n).map (·.2)).getD 0) 0 n

theorem putHeld_energy (l : List (Nat × Nat × Nat)) (bs : List (Nat × Nat)) (d : Dev) {k n : Nat} (hk : k < 4) (hn : n < 4) :
    (putHeld l bs d k).rd F.pwrHoldR_energy 0 n =
    if k = n then (((l.find? fun x => x.1 == k).map (·.2)).getD (0, 0)).1 % 2 ^ F.pwrHoldR_energy.w else d.rd F.pwrHoldR_energy 0 n := by
  unfold putHeld
  extract_lets e d1
  rw [Dev.rd_wr_ne _ _ _ _ _ _ _ _ (by decide), show d1 = _ from rfl, Dev.rd_wr_ne _ _ _ _ _ _ _ _ (by decide), Dev.rd_wr_self]
  by_cases h : k = n
  · rw [if_pos h, if_pos (by simp [h])]
  · rw [if_neg h, if_neg (by omega)]

/-- A slot whose chopper failed holds no energy, in the bound (R290). -/
theorem recomputeBound_energy {d : Dev} {n : Nat} (hn : n < 4) (hchop : d.flag F.spnStat_chop_fault n = true) :
    (recomputeBound d).rd F.pwrHoldR_energy 0 n = 0 := by
  unfold recomputeBound
  extract_lets f d1 l bs es d2 d3 d4 total d5 d6
  have hkeep1 : keep (footOf [] [F.spnStat_floor] ||| setCommandFoot) d1 = keep (footOf [] [F.spnStat_floor] ||| setCommandFoot) d := by
    simp +decide only [d1, ↓keep_forEach, ↓keep_setCommand, ↓keep_wr, implies_true]
  have henergy : (((l.find? fun x => x.1 == n).map (·.2)).getD (0, 0)).1 = 0 :=
    heldNow_energy (by rw [Dev.flag, rd_of_keep hkeep1 (by decide), ← Dev.flag, hchop])
  have h4 : d4.rd F.pwrHoldR_energy 0 n = 0 :=
    forEach_touches (p := fun e => e.rd F.pwrHoldR_energy 0 n) (g := putHeld l bs) (l := [0, 1, 2, 3]) (i := n) (by decide)
      (by interval_cases n <;> decide) (fun e j hj hne => by rw [putHeld_energy l bs e (by simp at hj; omega) hn, if_neg hne])
      (fun e _ => by rw [putHeld_energy l bs e hn hn, if_pos rfl, henergy, Nat.zero_mod])
  have hkeep : keep (footOf [] [F.hstBound_bound] ||| finishFoot ||| pressWritersFoot ||| syncHostFoot) (syncHost d6) =
      keep (footOf [] [F.hstBound_bound] ||| finishFoot ||| pressWritersFoot ||| syncHostFoot) d4 := by
    simp +decide only [d6, d5, ↓keep_forEach, ↓keep_syncHost, ↓keep_wr, ↓keep_pressWriters, ↓keep_coverAll, implies_true]
  rw [rd_of_keep hkeep (by decide), h4]

/-- Settles O24: a lemma per row. -/
theorem spindleFaultRowsComplete : Obligations.SpindleFaultRowsComplete := by
  unfold Obligations.SpindleFaultRowsComplete
  refine ⟨?lost, ?relock, ?timeout, ?chopOn, ?chopOff, ?ov1, ?ov2, ?chopper, ?stage, ?missing, ?good⟩
  case lost =>
    intro s n hstate hgone
    exact brings_of_run (g := rotorLost n.val) rfl (rotorLost_stops hstate hgone)
  case relock =>
    intro s n speed hstate hagree
    exact brings_of_run (g := rotorRelock n.val speed) rfl (rotorRelock_locks hstate hagree)
  case timeout =>
    intro s n hstate
    exact brings_of_run (g := catchTimeout n.val) rfl (catchTimeout_unloads hstate)
  case chopOn =>
    intro s n hchop hslot
    refine gives_of_run (g := fun d => setChop d n.val true) rfl ?_
    have hnot : ¬ ((s.dev.spin n.val).chop = true ∨ s.dev.slotDrive n.val = .highZ) := by simp [hchop, hslot]
    rw [setChop, if_neg hnot]
    rfl
  case chopOff =>
    intro s n hchop hslot
    refine gives_of_run (g := fun d => setChop d n.val false) rfl ?_
    have hnot : ¬ ((s.dev.spin n.val).chop = false ∨ s.dev.slotDrive n.val = .highZ) := by simp [hchop, hslot]
    rw [setChop, if_neg hnot]
    rfl
  case ov1 =>
    intro s n hchop hslot
    refine gives_of_run (g := fun d => d.onSlot n.val fun d => (setChop (d.setFlag F.spnEvt_ov1 true n.val) n.val true).emit
      (.event evOv1 n.val)) rfl ?_
    rw [onSlot_driven hslot, setChop, if_pos (.inl hchop)]
  case ov2 =>
    intro s n hslot
    refine brings_of_run (g := fun d => d.onSlot n.val (vbusOv2 n.val)) rfl ?_
    rw [onSlot_driven hslot]
    exact vbusOv2_coasts s.dev n.val
  case chopper =>
    intro s n hslot
    refine brings_of_run (g := fun d => d.onSlot n.val fun d => recomputeBound (cardCount
      ((d.setFlag F.spnStat_chop_fault true n.val).setFlag F.spnEvt_chop_fault true n.val) 20 1)) rfl ?_
    rw [onSlot_driven hslot]
    have hcard := keep_cardCount (ft := cardCountFoot) (by decide)
      ((s.dev.setFlag F.spnStat_chop_fault true n.val).setFlag F.spnEvt_chop_fault true n.val) 20 1
    have hstat : (cardCount ((s.dev.setFlag F.spnStat_chop_fault true n.val).setFlag F.spnEvt_chop_fault true n.val) 20 1).flag
        F.spnStat_chop_fault n.val = true := by
      rw [Dev.flag, rd_of_keep hcard (by decide), Dev.rd_setFlag_ne _ _ _ _ _ _ _ _ (by decide)]
      exact Dev.flag_setFlag s.dev F.spnStat_chop_fault true n.val 0 (by decide)
    have hevt : (cardCount ((s.dev.setFlag F.spnStat_chop_fault true n.val).setFlag F.spnEvt_chop_fault true n.val) 20 1).flag
        F.spnEvt_chop_fault n.val = true := by
      rw [Dev.flag, rd_of_keep hcard (by decide)]
      exact Dev.flag_setFlag _ F.spnEvt_chop_fault true n.val 0 (by decide)
    generalize cardCount _ 20 1 = d at *
    have hkeep := keep_recomputeBound (ft := recomputeBoundFoot) (by decide) d
    refine ⟨?_, ?_, recomputeBound_energy n.isLt hstat⟩
    · rw [Dev.flag, rd_of_keep hkeep (by decide), ← Dev.flag, hstat]
    · rw [Dev.flag, rd_of_keep hkeep (by decide), ← Dev.flag, hevt]
  case stage =>
    intro s n hslot
    refine brings_of_run (g := fun d => d.onSlot n.val fun d => stageFault d n.val) rfl ?_
    rw [onSlot_driven hslot]
    exact stageFault_coasts s.dev n.val
  case missing =>
    intro s n hdl hul hslot
    refine brings_of_run (g := fun d => d.onSlot n.val (pslUplink n.val none)) rfl ?_
    rw [onSlot_driven hslot, pslUplink_lost hdl hul, Dev.updServo_servo, if_pos rfl]
    exact ⟨rfl, Dev.rd_addSat_same .., rfl⟩
  case good =>
    intro s n f hgood hcrc hslot
    refine brings_of_run (g := fun d => d.onSlot n.val (pslUplink n.val (some f))) rfl ?_
    rw [onSlot_driven hslot]
    obtain ⟨hparked, hruns⟩ := pslUplink_good (d := s.dev) (n := n.val) hgood hcrc
    simp only [linkRuns, Prod.mk.injEq] at hruns
    exact ⟨hparked, hruns.2, hruns.1⟩

end Sys2Proof.Machine
end

section
/-! PROOF. Footprints within the host's state: which fields of it an operation may change, as `keep` says it of the device. -/
namespace Sys2Proof.Machine

/-- The fields of the host's state. -/
inductive HField where
  | ports | ctxs | nextId | nextTid | order | extents | held | nextSeq
  | journal | mapCk | lockerMap | parity | tasks | nss | media | detention
  | detGen | headDet | stops | curves | curvesSaved | wanted | replaying | refusedHda
  | homeworkDue | moved | ladder | locker | lockerHash | anchors | loopBuf

/-- A footprint within the host's state. -/
def hostFoot (fs : List HField) : Nat := fs.foldl (fun n f => n ||| 1 <<< f.ctorIdx) 0

/-- The host's state with the fields of a footprint blanked out. -/
def hmask (m : Nat) (h : HostState) : HostState where
  ports := if m.testBit HField.ports.ctorIdx then [] else h.ports
  ctxs := if m.testBit HField.ctxs.ctorIdx then [] else h.ctxs
  nextId := if m.testBit HField.nextId.ctorIdx then 1 else h.nextId
  nextTid := if m.testBit HField.nextTid.ctorIdx then 1 else h.nextTid
  order := if m.testBit HField.order.ctorIdx then [] else h.order
  extents := if m.testBit HField.extents.ctorIdx then [] else h.extents
  held := if m.testBit HField.held.ctorIdx then [] else h.held
  nextSeq := if m.testBit HField.nextSeq.ctorIdx then 0 else h.nextSeq
  journal := if m.testBit HField.journal.ctorIdx then [] else h.journal
  mapCk := if m.testBit HField.mapCk.ctorIdx then [] else h.mapCk
  lockerMap := if m.testBit HField.lockerMap.ctorIdx then [] else h.lockerMap
  parity := if m.testBit HField.parity.ctorIdx then [] else h.parity
  tasks := if m.testBit HField.tasks.ctorIdx then [] else h.tasks
  nss := if m.testBit HField.nss.ctorIdx then [] else h.nss
  media := if m.testBit HField.media.ctorIdx then [] else h.media
  detention := if m.testBit HField.detention.ctorIdx then [] else h.detention
  detGen := if m.testBit HField.detGen.ctorIdx then 0 else h.detGen
  headDet := if m.testBit HField.headDet.ctorIdx then [] else h.headDet
  stops := if m.testBit HField.stops.ctorIdx then [] else h.stops
  curves := if m.testBit HField.curves.ctorIdx then [] else h.curves
  curvesSaved := if m.testBit HField.curvesSaved.ctorIdx then [] else h.curvesSaved
  wanted := if m.testBit HField.wanted.ctorIdx then [] else h.wanted
  replaying := if m.testBit HField.replaying.ctorIdx then [] else h.replaying
  refusedHda := if m.testBit HField.refusedHda.ctorIdx then [] else h.refusedHda
  homeworkDue := if m.testBit HField.homeworkDue.ctorIdx then [] else h.homeworkDue
  moved := if m.testBit HField.moved.ctorIdx then [] else h.moved
  ladder := if m.testBit HField.ladder.ctorIdx then [] else h.ladder
  locker := if m.testBit HField.locker.ctorIdx then [] else h.locker
  lockerHash := if m.testBit HField.lockerHash.ctorIdx then [] else h.lockerHash
  anchors := if m.testBit HField.anchors.ctorIdx then [] else h.anchors
  loopBuf := if m.testBit HField.loopBuf.ctorIdx then [] else h.loopBuf

def hkeep (m : Nat) (d : Dev) : HostState := hmask m d.host

theorem hmask_hmask {a m : Nat} (hm : inFoot a m = true) (h : HostState) : hmask m (hmask a h) = hmask m h := by
  have hpart (k : Nat) {α : Type} (x y : α) : (if m.testBit k then x else if a.testBit k then x else y) =
      if m.testBit k then x else y := ite_ite_of_imp (testBit_of_inFoot hm) x y
  simp only [hmask, hpart]

/-- An operation keeps what a wider footprint leaves of the host's state. -/
theorem hkeep_mono {a m : Nat} {d e : Dev} (hm : inFoot a m = true) (h : hkeep a e = hkeep a d) : hkeep m e = hkeep m d := by
  rw [hkeep, hkeep, ← hmask_hmask hm, ← hkeep, h, hkeep, hmask_hmask hm]

theorem hkeep_of_host {d e : Dev} (m : Nat) (h : e.host = d.host) : hkeep m e = hkeep m d := congrArg (hmask m) h

theorem hkeep_of_keep {a : Nat} {d e : Dev} (h : keep a e = keep a d) (hp : a.testBit Part.host.ctorIdx = false) (m : Nat) :
    hkeep m e = hkeep m d := hkeep_of_host m (host_of_keep h hp)

section
variable {m : Nat} (d : Dev)

theorem hkeep_updHost (g : HostState → HostState) (h : ∀ s, hmask m (g s) = hmask m s) : hkeep m (d.updHost g) = hkeep m d := h d.host

theorem hkeep_ite (c : Prop) [Decidable c] (e : Dev) : hkeep m (if c then d else e) = if c then hkeep m d else hkeep m e :=
  apply_ite (hkeep m) c d e

theorem hkeep_forEach {α : Type} (l : List α) (g : Dev → α → Dev) (h : ∀ e x, hkeep m (g e x) = hkeep m e) :
    hkeep m (forEach l d g) = hkeep m d := forEach_keeps (p := hkeep m) (fun e x _ => h e x) d

theorem hkeep_wr (f : Fld) (v i j : Nat) : hkeep m (d.wr f v i j) = hkeep m d := hkeep_of_host m rfl
theorem hkeep_setFlag (f : Fld) (b : Bool) (i j : Nat) : hkeep m (d.setFlag f b i j) = hkeep m d := hkeep_of_host m rfl
theorem hkeep_addSat (f : Fld) (n i j : Nat) : hkeep m (d.addSat f n i j) = hkeep m d := hkeep_of_host m rfl
theorem hkeep_addWrap (f : Fld) (n i j : Nat) : hkeep m (d.addWrap f n i j) = hkeep m d := hkeep_of_host m rfl
theorem hkeep_sub (f : Fld) (n i j : Nat) : hkeep m (d.sub f n i j) = hkeep m d := hkeep_of_host m rfl
theorem hkeep_setBit (f : Fld) (b : Nat) (v : Bool) (i j : Nat) : hkeep m (d.setBit f b v i j) = hkeep m d := hkeep_of_host m rfl
theorem hkeep_wrInt (f : Fld) (v : Int) (i j : Nat) : hkeep m (d.wrInt f v i j) = hkeep m d := hkeep_of_host m rfl
theorem hkeep_emit (e : Emit) : hkeep m (d.emit e) = hkeep m d := hkeep_of_host m rfl
theorem hkeep_draw : hkeep m d.draw.2 = hkeep m d := hkeep_of_host m rfl
theorem hkeep_updSec (g : SecState → SecState) : hkeep m (d.updSec g) = hkeep m d := hkeep_of_host m rfl
theorem hkeep_updCipher (g : CipherState → CipherState) : hkeep m (d.updCipher g) = hkeep m d := hkeep_of_host m rfl
theorem hkeep_updReset (g : ResetState → ResetState) : hkeep m (d.updReset g) = hkeep m d := hkeep_of_host m rfl
theorem hkeep_updPower (g : PowerState → PowerState) : hkeep m (d.updPower g) = hkeep m d := hkeep_of_host m rfl
theorem hkeep_updStruct (g : StructState → StructState) : hkeep m (d.updStruct g) = hkeep m d := hkeep_of_host m rfl
theorem hkeep_updComp (g : CompState → CompState) : hkeep m (d.updComp g) = hkeep m d := hkeep_of_host m rfl
theorem hkeep_updMap (g : MapState → MapState) : hkeep m (d.updMap g) = hkeep m d := hkeep_of_host m rfl
theorem hkeep_updChain (g : ChainState → ChainState) : hkeep m (d.updChain g) = hkeep m d := hkeep_of_host m rfl
theorem hkeep_updXb (g : XbState → XbState) : hkeep m (d.updXb g) = hkeep m d := hkeep_of_host m rfl
theorem hkeep_updTherm (g : ThermState → ThermState) : hkeep m (d.updTherm g) = hkeep m d := hkeep_of_host m rfl
theorem hkeep_updCard (g : CardState → CardState) : hkeep m (d.updCard g) = hkeep m d := hkeep_of_host m rfl
theorem hkeep_updEcc (g : EccState → EccState) : hkeep m (d.updEcc g) = hkeep m d := hkeep_of_host m rfl
theorem hkeep_part_struct (x : StructState) : hkeep m { d with struct := x } = hkeep m d := hkeep_of_host m rfl
theorem hkeep_part_cipher (x : CipherState) : hkeep m { d with cipher := x } = hkeep m d := hkeep_of_host m rfl
theorem hkeep_part_comp (x : CompState) : hkeep m { d with comp := x } = hkeep m d := hkeep_of_host m rfl
theorem hkeep_part_reset (x : ResetState) : hkeep m { d with reset := x } = hkeep m d := hkeep_of_host m rfl
theorem hkeep_part_sec (x : SecState) : hkeep m { d with sec := x } = hkeep m d := hkeep_of_host m rfl
theorem hkeep_part_fw (x : FwState) : hkeep m { d with fw := x } = hkeep m d := hkeep_of_host m rfl
theorem hkeep_part_chain (x : ChainState) : hkeep m { d with chain := x } = hkeep m d := hkeep_of_host m rfl
theorem hkeep_part_xb (x : XbState) : hkeep m { d with xb := x } = hkeep m d := hkeep_of_host m rfl
theorem hkeep_part_map (x : MapState) : hkeep m { d with map := x } = hkeep m d := hkeep_of_host m rfl
theorem hkeep_part_card (x : CardState) : hkeep m { d with card := x } = hkeep m d := hkeep_of_host m rfl
theorem hkeep_part_power (x : PowerState) : hkeep m { d with power := x } = hkeep m d := hkeep_of_host m rfl
theorem hkeep_part_ecc (x : EccState) : hkeep m { d with ecc := x } = hkeep m d := hkeep_of_host m rfl
theorem hkeep_updSpin (n : Nat) (g : Spin → Spin) : hkeep m (d.updSpin n g) = hkeep m d := hkeep_of_host m rfl

end

/-! ### What a footprint says of the fields outside it -/

section
variable {m : Nat} {d e : Dev} (h : hkeep m e = hkeep m d)
include h

theorem ports_of_hkeep (hf : m.testBit HField.ports.ctorIdx = false) : e.host.ports = d.host.ports := by
  simpa [hkeep, hmask, hf] using congrArg HostState.ports h
theorem ctxs_of_hkeep (hf : m.testBit HField.ctxs.ctorIdx = false) : e.host.ctxs = d.host.ctxs := by
  simpa [hkeep, hmask, hf] using congrArg HostState.ctxs h
theorem nextId_of_hkeep (hf : m.testBit HField.nextId.ctorIdx = false) : e.host.nextId = d.host.nextId := by
  simpa [hkeep, hmask, hf] using congrArg HostState.nextId h
theorem nextTid_of_hkeep (hf : m.testBit HField.nextTid.ctorIdx = false) : e.host.nextTid = d.host.nextTid := by
  simpa [hkeep, hmask, hf] using congrArg HostState.nextTid h
theorem order_of_hkeep (hf : m.testBit HField.order.ctorIdx = false) : e.host.order = d.host.order := by
  simpa [hkeep, hmask, hf] using congrArg HostState.order h
theorem extents_of_hkeep (hf : m.testBit HField.extents.ctorIdx = false) : e.host.extents = d.host.extents := by
  simpa [hkeep, hmask, hf] using congrArg HostState.extents h
theorem held_of_hkeep (hf : m.testBit HField.held.ctorIdx = false) : e.host.held = d.host.held := by
  simpa [hkeep, hmask, hf] using congrArg HostState.held h
theorem nextSeq_of_hkeep (hf : m.testBit HField.nextSeq.ctorIdx = false) : e.host.nextSeq = d.host.nextSeq := by
  simpa [hkeep, hmask, hf] using congrArg HostState.nextSeq h
theorem journal_of_hkeep (hf : m.testBit HField.journal.ctorIdx = false) : e.host.journal = d.host.journal := by
  simpa [hkeep, hmask, hf] using congrArg HostState.journal h
theorem mapCk_of_hkeep (hf : m.testBit HField.mapCk.ctorIdx = false) : e.host.mapCk = d.host.mapCk := by
  simpa [hkeep, hmask, hf] using congrArg HostState.mapCk h
theorem lockerMap_of_hkeep (hf : m.testBit HField.lockerMap.ctorIdx = false) : e.host.lockerMap = d.host.lockerMap := by
  simpa [hkeep, hmask, hf] using congrArg HostState.lockerMap h
theorem parity_of_hkeep (hf : m.testBit HField.parity.ctorIdx = false) : e.host.parity = d.host.parity := by
  simpa [hkeep, hmask, hf] using congrArg HostState.parity h
theorem tasks_of_hkeep (hf : m.testBit HField.tasks.ctorIdx = false) : e.host.tasks = d.host.tasks := by
  simpa [hkeep, hmask, hf] using congrArg HostState.tasks h
theorem nss_of_hkeep (hf : m.testBit HField.nss.ctorIdx = false) : e.host.nss = d.host.nss := by
  simpa [hkeep, hmask, hf] using congrArg HostState.nss h
theorem media_of_hkeep (hf : m.testBit HField.media.ctorIdx = false) : e.host.media = d.host.media := by
  simpa [hkeep, hmask, hf] using congrArg HostState.media h
theorem detention_of_hkeep (hf : m.testBit HField.detention.ctorIdx = false) : e.host.detention = d.host.detention := by
  simpa [hkeep, hmask, hf] using congrArg HostState.detention h
theorem detGen_of_hkeep (hf : m.testBit HField.detGen.ctorIdx = false) : e.host.detGen = d.host.detGen := by
  simpa [hkeep, hmask, hf] using congrArg HostState.detGen h
theorem headDet_of_hkeep (hf : m.testBit HField.headDet.ctorIdx = false) : e.host.headDet = d.host.headDet := by
  simpa [hkeep, hmask, hf] using congrArg HostState.headDet h
theorem stops_of_hkeep (hf : m.testBit HField.stops.ctorIdx = false) : e.host.stops = d.host.stops := by
  simpa [hkeep, hmask, hf] using congrArg HostState.stops h
theorem curves_of_hkeep (hf : m.testBit HField.curves.ctorIdx = false) : e.host.curves = d.host.curves := by
  simpa [hkeep, hmask, hf] using congrArg HostState.curves h
theorem curvesSaved_of_hkeep (hf : m.testBit HField.curvesSaved.ctorIdx = false) : e.host.curvesSaved = d.host.curvesSaved := by
  simpa [hkeep, hmask, hf] using congrArg HostState.curvesSaved h
theorem wanted_of_hkeep (hf : m.testBit HField.wanted.ctorIdx = false) : e.host.wanted = d.host.wanted := by
  simpa [hkeep, hmask, hf] using congrArg HostState.wanted h
theorem replaying_of_hkeep (hf : m.testBit HField.replaying.ctorIdx = false) : e.host.replaying = d.host.replaying := by
  simpa [hkeep, hmask, hf] using congrArg HostState.replaying h
theorem refusedHda_of_hkeep (hf : m.testBit HField.refusedHda.ctorIdx = false) : e.host.refusedHda = d.host.refusedHda := by
  simpa [hkeep, hmask, hf] using congrArg HostState.refusedHda h
theorem homeworkDue_of_hkeep (hf : m.testBit HField.homeworkDue.ctorIdx = false) : e.host.homeworkDue = d.host.homeworkDue := by
  simpa [hkeep, hmask, hf] using congrArg HostState.homeworkDue h
theorem moved_of_hkeep (hf : m.testBit HField.moved.ctorIdx = false) : e.host.moved = d.host.moved := by
  simpa [hkeep, hmask, hf] using congrArg HostState.moved h
theorem ladder_of_hkeep (hf : m.testBit HField.ladder.ctorIdx = false) : e.host.ladder = d.host.ladder := by
  simpa [hkeep, hmask, hf] using congrArg HostState.ladder h
theorem locker_of_hkeep (hf : m.testBit HField.locker.ctorIdx = false) : e.host.locker = d.host.locker := by
  simpa [hkeep, hmask, hf] using congrArg HostState.locker h
theorem lockerHash_of_hkeep (hf : m.testBit HField.lockerHash.ctorIdx = false) : e.host.lockerHash = d.host.lockerHash := by
  simpa [hkeep, hmask, hf] using congrArg HostState.lockerHash h
theorem anchors_of_hkeep (hf : m.testBit HField.anchors.ctorIdx = false) : e.host.anchors = d.host.anchors := by
  simpa [hkeep, hmask, hf] using congrArg HostState.anchors h
theorem loopBuf_of_hkeep (hf : m.testBit HField.loopBuf.ctorIdx = false) : e.host.loopBuf = d.host.loopBuf := by
  simpa [hkeep, hmask, hf] using congrArg HostState.loopBuf h

end

end Sys2Proof.Machine
end

section
/-! PROOF. What the operations on the host's state may change of it. -/
namespace Sys2Proof.Machine

def setMediaHost : Nat := hostFoot [.media]
theorem hkeep_setMedia {ft : Nat} (hft : inFoot setMediaHost ft = true) (d : Dev) (nsid lba : Nat) (b : MediaBlk) : hkeep ft
    (d.setMedia nsid lba b) = hkeep ft d :=
  hkeep_mono hft (by simp +decide only [Dev.setMedia, ↓hkeep_updHost, hmask, if_true, implies_true])

theorem hkeep_cardCount {ft : Nat} (d : Dev) (i n : Nat) : hkeep ft (cardCount d i n) = hkeep ft d :=
  hkeep_of_keep (keep_cardCount (ft := cardCountFoot) (by decide) d i n) (by decide) ft

def updPortHost : Nat := hostFoot [.ports]
theorem hkeep_updPort {ft : Nat} (hft : inFoot updPortHost ft = true) (d : Dev) (h : Nat) (g : Port → Port) : hkeep ft
    (d.updPort h g) = hkeep ft d :=
  hkeep_mono hft (by simp +decide only [Dev.updPort, ↓hkeep_updHost, hmask, if_true, implies_true])

theorem hkeep_syncHost {ft : Nat} (d : Dev) : hkeep ft (syncHost d) = hkeep ft d :=
  hkeep_of_keep (keep_syncHost (ft := syncHostFoot) (by decide) d) (by decide) ft

theorem hkeep_postNotice {ft : Nat} (hft : inFoot updPortHost ft = true) (d : Dev) (h notice : Nat) : hkeep ft (postNotice d h
    notice) = hkeep ft d :=
  hkeep_mono hft (by unfold postNotice; split <;> simp +decide only [↓hkeep_emit, ↓hkeep_updPort, ↓hkeep_syncHost])

theorem hkeep_noticeAll {ft : Nat} (hft : inFoot updPortHost ft = true) (d : Dev) (notice : Nat) : hkeep ft (noticeAll d notice)
    = hkeep ft d :=
  hkeep_mono hft (by simp +decide only [noticeAll, ↓hkeep_postNotice, ↓hkeep_forEach, implies_true])

def detainHost : Nat := hostFoot [.ports, .detention, .detGen]
theorem hkeep_detain {ft : Nat} (hft : inFoot detainHost ft = true) (d : Dev) (e : DetEntry) : hkeep ft (detain d e) = hkeep ft
    d :=
  hkeep_mono hft (by simp +decide only [detain, ↓hkeep_cardCount, ↓hkeep_updHost, hmask, if_true, implies_true, ↓hkeep_noticeAll, ↓hkeep_ite, ite_self])

theorem hkeep_stampMs {ft : Nat} (d : Dev) : hkeep ft (stampMs d).2 = hkeep ft d :=
  hkeep_of_keep (keep_stampMs (ft := stampMsFoot) (by decide) d) (by decide) ft

def landBlkHost : Nat := hostFoot [.ports, .media, .detention, .detGen]
theorem hkeep_landBlk {ft : Nat} (hft : inFoot landBlkHost ft = true) (d : Dev) (nsid lba act : Nat) (blk : Blk) (keys : Option
    (Nat × Nat)) : hkeep ft (landBlk d nsid lba act blk keys) = hkeep ft d :=
  hkeep_mono hft (by simp +decide only [landBlk, ↓hkeep_setMedia, ↓hkeep_detain, ↓hkeep_stampMs, ↓hkeep_ite, ite_self])

def writeParityHost : Nat := hostFoot [.parity]
theorem hkeep_writeParity {ft : Nat} (hft : inFoot writeParityHost ft = true) (d : Dev) (ns : Ns) (zi g : Nat) : hkeep ft
    (writeParity d ns zi g) = hkeep ft d :=
  hkeep_mono hft (by simp +decide only [writeParity, ↓hkeep_updHost, hmask, if_true, implies_true])

def refreshParityHost : Nat := hostFoot [.held, .parity]
theorem hkeep_refreshParity {ft : Nat} (hft : inFoot refreshParityHost ft = true) (d : Dev) (nsid zi : Nat) : hkeep ft
    (refreshParity d nsid zi) = hkeep ft d :=
  hkeep_mono hft (by unfold refreshParity; split <;> simp +decide only [↓hkeep_updHost, hmask, if_true, implies_true, ↓hkeep_writeParity, ↓hkeep_forEach, ↓hkeep_ite,
    ite_self, implies_true])

def updNsHost : Nat := hostFoot [.nss]
theorem hkeep_updNs {ft : Nat} (hft : inFoot updNsHost ft = true) (d : Dev) (nsid : Nat) (g : Ns → Ns) : hkeep ft (d.updNs nsid
    g) = hkeep ft d :=
  hkeep_mono hft (by simp +decide only [Dev.updNs, ↓hkeep_updHost, hmask, if_true, implies_true])

theorem hkeep_updZone {ft : Nat} (hft : inFoot updNsHost ft = true) (d : Dev) (nsid z : Nat) (g : Zone → Zone) : hkeep ft
    (d.updZone nsid z g) = hkeep ft d :=
  hkeep_mono hft (by simp +decide only [Dev.updZone, ↓hkeep_updNs])

def mapUpdateHost : Nat := hostFoot [.journal]
theorem hkeep_mapUpdate {ft : Nat} (hft : inFoot mapUpdateHost ft = true) (d : Dev) (nsid unit hda : Nat) (buffered : Bool) :
    hkeep ft (mapUpdate d nsid unit hda buffered) = hkeep ft d :=
  hkeep_mono hft (by simp +decide only [mapUpdate, ↓hkeep_updHost, hmask, if_true, implies_true])

def runParityHost : Nat := hostFoot [.held, .parity, .nss]
theorem hkeep_runParity {ft : Nat} (hft : inFoot runParityHost ft = true) (d : Dev) (ns : Ns) (i act : Nat) (data : List Nat) :
    hkeep ft (runParity d ns i act data) = hkeep ft d :=
  hkeep_mono hft (by simp +decide only [runParity]; split <;> simp +decide only
    [↓hkeep_updHost, hmask, if_true, implies_true, ↓hkeep_updZone, ↓hkeep_ite, ite_self])

def placeUnitHost : Nat := hostFoot [.held, .journal, .parity, .nss, .media]
theorem hkeep_placeUnit {ft : Nat} (hft : inFoot placeUnitHost ft = true) (d : Dev) (nsid act : Nat) (not : Option Nat) (unit :
    Nat) : hkeep ft (placeUnit d nsid act not unit) = hkeep ft d :=
  hkeep_mono hft (by simp +decide only [placeUnit]; split <;> simp +decide only [↓hkeep_updZone, ↓hkeep_setMedia, ↓hkeep_mapUpdate,
    ↓hkeep_runParity, ↓hkeep_forEach, ↓hkeep_ite, ite_self, implies_true])

def updTasksHost : Nat := hostFoot [.tasks]
theorem hkeep_updTasks {ft : Nat} (hft : inFoot updTasksHost ft = true) (d : Dev) (g : List MTask → List MTask) : hkeep ft
    (d.updTasks g) = hkeep ft d :=
  hkeep_mono hft (by simp +decide only [Dev.updTasks, ↓hkeep_updHost, hmask, if_true, implies_true])

theorem hkeep_beginTasks {ft : Nat} (hft : inFoot updTasksHost ft = true) (d : Dev) (a : Nat) : hkeep ft (beginTasks d a) =
    hkeep ft d :=
  hkeep_mono hft (by simp +decide only [beginTasks, ↓hkeep_updTasks, ↓hkeep_ite, ite_self])

def refreshWaitsHost : Nat := hostFoot [.ctxs]
theorem hkeep_refreshWaits {ft : Nat} (hft : inFoot refreshWaitsHost ft = true) (d : Dev) : hkeep ft (refreshWaits d) = hkeep ft
    d :=
  hkeep_mono hft (by simp +decide only [refreshWaits, ↓hkeep_updHost, hmask, if_true, implies_true])

def hdaArrivedHost : Nat := hostFoot [.ctxs, .tasks, .wanted]
theorem hkeep_hdaArrived {ft : Nat} (hft : inFoot hdaArrivedHost ft = true) (d : Dev) (n : Nat) : hkeep ft (hdaArrived d n) =
    hkeep ft d :=
  hkeep_mono hft (by simp +decide only [hdaArrived, ↓hkeep_updHost, hmask, if_true, implies_true, ↓hkeep_beginTasks, ↓hkeep_refreshWaits, ↓hkeep_ite, ite_self])

theorem hkeep_noticeOutstanding {ft : Nat} (hft : inFoot updPortHost ft = true) (d : Dev) (notice : Nat) : hkeep ft
    (noticeOutstanding d notice) = hkeep ft d :=
  hkeep_mono hft (by simp +decide only [noticeOutstanding, ↓hkeep_postNotice, ↓hkeep_forEach, ↓hkeep_ite, ite_self, implies_true])

theorem hkeep_hdaThroughStart {ft : Nat} (hft : inFoot updPortHost ft = true) (d : Dev) (n : Nat) : hkeep ft (hdaThroughStart d
    n) = hkeep ft d :=
  hkeep_mono hft (by simp +decide only [hdaThroughStart, ↓hkeep_setBit, ↓hkeep_noticeOutstanding, ↓hkeep_ite, ite_self])

def writeAnchorHost : Nat := hostFoot [.anchors]
theorem hkeep_writeAnchor {ft : Nat} (hft : inFoot writeAnchorHost ft = true) (d : Dev) (n : Nat) : hkeep ft (writeAnchor d n) =
    hkeep ft d :=
  hkeep_mono hft (by simp +decide only [writeAnchor, ↓hkeep_emit, ↓hkeep_updHost, hmask, if_true, implies_true])

def recoverMapHost : Nat := hostFoot [.media]
theorem hkeep_recoverMap {ft : Nat} (hft : inFoot recoverMapHost ft = true) (d : Dev) (nsid : Nat) : hkeep ft (recoverMap d
    nsid) = hkeep ft d :=
  hkeep_mono hft (by simp +decide only [recoverMap, ↓hkeep_updHost, hmask, if_true, implies_true])

def wantHdaHost : Nat := hostFoot [.wanted]
theorem hkeep_wantHda {ft : Nat} (hft : inFoot wantHdaHost ft = true) (d : Dev) (n : Nat) : hkeep ft (wantHda d n) = hkeep ft d
    :=
  hkeep_mono hft (by simp +decide only [wantHda, ↓hkeep_updHost, hmask, if_true, implies_true])

def suspendHdaHost : Nat := hostFoot [.ctxs, .tasks, .wanted]
theorem hkeep_suspendHda {ft : Nat} (hft : inFoot suspendHdaHost ft = true) (d : Dev) (n : Nat) : hkeep ft (suspendHda d n) =
    hkeep ft d :=
  hkeep_mono hft (by simp +decide only [suspendHda, ↓hkeep_updHost, hmask, if_true, implies_true, ↓hkeep_updTasks, ↓hkeep_wantHda, ↓hkeep_refreshWaits, ↓hkeep_ite,
    ite_self])

end Sys2Proof.Machine
end

section
/-! PROOF. Fire Drill and the replay of the locker journals (R299-R306). -/
namespace Sys2Proof.Machine

/-! ### Fire Drill -/

/-- What the start of a Fire Drill may change beside the pin and the registers of PWR_HOLD_STAT. -/
def drillFoot : Nat := footOf [.xb, .reset, .struct] [F.xbrArbCtl_hold_up, F.pwrDom_dom, F.glbStructStat_activate, F.calDue_due, F.calStat_busy] |||
  cardCountFoot ||| endLoopsFoot ||| linksDownFoot ||| dropInFlightFoot ||| dropTasksFoot ||| flushLockerFoot ||| coastSpinFoot ||| unloadHeadsFoot

/-- What Fire Drill leaves in its status register (R299, R300). -/
theorem fireDrillStart_begins {d : Dev} {low sag : Bool} (hstate : d.rd F.pwrHoldStat_state = 0) (hstage : 4 ≤ d.rd F.glbStart_stage)
    (hcause : (low || sag) = true) : 2 ≤ (fireDrillStart low sag d).rd F.pwrHoldStat_state ∧
      (fireDrillStart low sag d).rd F.pwrHoldStat_cause = low.toNat + 2 * sag.toNat ∧
      (fireDrillStart low sag d).rd F.pwrHoldStat_elapsed = 0 ∧
      (fireDrillStart low sag d).rd F.glbPins_pwr_good = if low then 0 else d.rd F.glbPins_pwr_good := by
  unfold fireDrillStart
  extract_lets d0 d1 d2 d3 d4 d5 d6 d7 d8 work d9 able d10 d11 d12 d13 d14 idle d15 d16
  have hrd0 (f : Fld) (hf : F.glbPins_pwr_good.id ≠ f.id) : d0.rd f = d.rd f := by
    simp only [d0]
    split
    · exact Dev.rd_setFlag_ne _ _ _ _ _ _ _ _ hf
    · rfl
  have hgo : ¬ (d0.rd F.pwrHoldStat_state ≠ 0 ∨ (!low && !sag) = true) := by
    rw [hrd0 _ (by decide), hstate]
    cases low <;> cases sag <;> simp_all
  have hlate : ¬ d0.rd F.glbStart_stage < 4 := by
    rw [hrd0 _ (by decide)]
    omega
  rw [if_neg hgo, if_neg hlate]
  have hpin0 : d0.rd F.glbPins_pwr_good = if low then 0 else d.rd F.glbPins_pwr_good := by
    simp only [d0]
    split
    · exact Dev.rd_wr_lt d F.glbPins_pwr_good 0 0 0 (by decide)
    · rfl
  have hkeep11 : keep drillFoot d11 = keep drillFoot d0 := by
    simp +decide only [d11, d10, d9, d8, d7, d6, d5, d4, d3, d2, d1, ↓keep_setFlag, ↓keep_cardCount, ↓keep_stopFetch,
      ↓keep_setSpin, ↓keep_updReset, ↓keep_dropInFlight, ↓keep_flushLocker, ↓keep_dropActivation, ↓keep_shedXbar, ↓keep_linksDown,
      ↓keep_dropTasks, ↓keep_cancelCals, ↓keep_endLoops, ↓keep_forEach, ↓keep_ite, ite_self, implies_true]
  clear_value d11
  have hpin14 : d14.rd F.glbPins_pwr_good = if low then 0 else d.rd F.glbPins_pwr_good := by
    rw [← hpin0, ← rd_of_keep hkeep11 (f := F.glbPins_pwr_good) (by decide)]
    simp +decide only [d14, d13, d12, Dev.rd_wr_ne, ne_eq]
  have hcause14 : d14.rd F.pwrHoldStat_cause = low.toNat + 2 * sag.toNat := by
    rw [show d14 = d13.wr F.pwrHoldStat_elapsed 0 from rfl, Dev.rd_wr_ne _ _ _ _ _ _ _ _ (by decide)]
    refine Dev.rd_wr_lt d12 F.pwrHoldStat_cause _ 0 0 ?_
    cases low <;> cases sag <;> decide
  have helapsed14 : d14.rd F.pwrHoldStat_elapsed = 0 := Dev.rd_wr_lt d13 F.pwrHoldStat_elapsed 0 0 0 (by decide)
  clear_value d14
  have hkeep15 : keep (coastSpinFoot ||| unloadHeadsFoot) d15 = keep (coastSpinFoot ||| unloadHeadsFoot) d14 := by
    simp +decide only [d15, ↓keep_coastSpin, ↓keep_unloadHeads, ↓keep_forEach, ↓keep_ite, ite_self, implies_true]
  clear_value d15
  have hstate16 : 2 ≤ d16.rd F.pwrHoldStat_state := by
    rw [show d16 = _ from rfl, Dev.rd_wr_same]
    repeat' split
    all_goals decide
  have hdoms := keep_forEach (m := setDomFoot) d16 ((List.range 23).filter fun k => drillKeeps d16 k && domState d16 k == 1)
    (fun d k => setDom d k 0) (fun e k => keep_setDom (by decide) e k 0)
  generalize forEach _ d16 (fun d k => setDom d k 0) = d17 at *
  refine ⟨by rwa [rd_of_keep hdoms (by decide)], ?_, ?_, ?_⟩
  all_goals rw [rd_of_keep hdoms (by decide), show d16 = _ from rfl, Dev.rd_wr_ne _ _ _ _ _ _ _ _ (by decide), rd_of_keep hkeep15 (by decide)]
  · exact hcause14
  · exact helapsed14
  · exact hpin14

theorem fireDrillStart_early {d : Dev} (sag : Bool) (hstate : d.rd F.pwrHoldStat_state = 0) (hstage : d.rd F.glbStart_stage < 4) :
    fireDrillStart true sag d = (d.setFlag F.glbPins_pwr_good false).wr F.glbStart_stage 0 := by
  have hrd (f : Fld) (hf : F.glbPins_pwr_good.id ≠ f.id) : (d.setFlag F.glbPins_pwr_good false).rd f = d.rd f :=
    Dev.rd_setFlag_ne _ _ _ _ _ _ _ _ hf
  have hgo : ¬ ((d.setFlag F.glbPins_pwr_good false).rd F.pwrHoldStat_state ≠ 0 ∨ (!true && !sag) = true) := by
    rw [hrd _ (by decide), hstate]
    simp
  have hearly : (d.setFlag F.glbPins_pwr_good false).rd F.glbStart_stage < 4 := by rwa [hrd _ (by decide)]
  unfold fireDrillStart
  rw [if_pos rfl]
  exact (if_neg hgo).trans (if_pos hearly)

/-! ### The end of a flush -/

/-- A flush counts what it lost, and leaves the rest of the reset's state. -/
theorem flushLocker_reset (d : Dev) (n written : Nat) :
    ∃ a b, (flushLocker d n written).reset = { d.reset with lostCovered := a, lostUncovered := b } := by
  unfold flushLocker
  extract_lets cov unc other restU records r bad d1 kept coveredKept r2 others d2 d3 lostC lostU d4 d5 d6 stays
  have hseal : d1.reset = d.reset := reset_of_keep (keep_sealCopies (ft := xtsUseFoot) (by decide) d _) (by decide)
  have hother : d2.reset = d1.reset := reset_of_keep (keep_otherEntries (ft := otherEntriesFoot) (by decide) d1 n records) (by decide)
  have h3 : d3.reset = d2.reset := by
    refine reset_of_keep (m := emitGroupsFoot) ?_ (by decide)
    simp +decide only [d3, ↓keep_emitGroups, ↓keep_ite, ite_self]
  have h6 : keep (trimZonesFoot ||| syncHostFoot) (syncHost (d6.updExtents fun l =>
      (l.map fun e => { e with cells := e.cells.filterMap stays }).filter fun e => !e.cells.isEmpty)) = keep (trimZonesFoot ||| syncHostFoot) d4 := by
    simp +decide only [d6, d5, ↓keep_syncHost, ↓keep_updExtents, ↓keep_updHost, ↓keep_trimZones]
  rw [reset_of_keep h6 (by decide), show d4.reset = _ from Dev.updReset_reset .., h3, hother, hseal]
  exact ⟨_, _, rfl⟩

theorem fireDrillFlushEnd_coasts {d : Dev} {n : Nat} (written : Nat) (hflushing : d.reset.flushing.contains n = true) :
    (fireDrillFlushEnd n written d).reset.flushing = d.reset.flushing.filter (fun m => m != n) ∧
      spinState (fireDrillFlushEnd n written d) n = if d.rd F.spnStat_speed n = 0 then 0 else 7 := by
  have hgo : ¬ (!d.reset.flushing.contains n) = true := by
    rw [hflushing]
    decide
  rw [fireDrillFlushEnd, if_neg hgo]
  extract_lets d1 d2 d3 d4
  have hflushing1 : d1.reset.flushing = d.reset.flushing := by
    obtain ⟨a, b, h⟩ := flushLocker_reset d n written
    rw [show d1.reset = _ from h]
  have hspeed1 : d1.rd F.spnStat_speed n = d.rd F.spnStat_speed n :=
    rd_of_keep (keep_flushLocker (ft := flushLockerFoot) (by decide) d n written) (by decide) n 0
  clear_value d1
  have hflushing3 : d3.reset.flushing = d.reset.flushing.filter fun m => m != n := by
    rw [← hflushing1]
    rfl
  have hspeed3 : d3.rd F.spnStat_speed n = d.rd F.spnStat_speed n := by
    rw [show d3 = _ from rfl, Dev.rd_wr_ne _ _ _ _ _ _ _ _ (by decide), Dev.updReset_rd, hspeed1]
  clear_value d3
  have hunload := keep_unloadHeads (ft := unloadHeadsFoot) (by decide) d3 n 9
  obtain ⟨hstate, _, _, hcoast⟩ := coastSpin_coasts (unloadHeads d3 n 9) n
  rw [rd_of_keep hunload (by decide), hspeed3] at hstate
  have hreset : d4.reset = d3.reset := (reset_of_keep hcoast (by decide)).trans (reset_of_keep hunload (by decide))
  have hlast (x : Dev) : (if x.reset.flushing.isEmpty = true then x.wr F.pwrHoldStat_state 3 else x).reset = x.reset ∧
      spinState (if x.reset.flushing.isEmpty = true then x.wr F.pwrHoldStat_state 3 else x) n = spinState x n := by
    split
    · exact ⟨rfl, Dev.rd_wr_ne _ _ _ _ _ _ _ _ (by decide)⟩
    · exact ⟨rfl, rfl⟩
  rw [(hlast d4).1, (hlast d4).2, hreset]
  exact ⟨hflushing3, hstate⟩

/-! ### Its end -/

theorem laneState_setLaneState (d : Dev) (n l k j : Nat) (h : laneState d n l = 0) : laneState (setLaneState d k j 0) n l = 0 := by
  rw [laneState, setLaneState, Dev.rd_wr_self]
  split
  · rfl
  · exact h

/-- Both lanes of an HDA parked. -/
def parkLanes (d : Dev) (n : Nat) : Dev := forEach [0, 1] d fun d l => setLaneState d n l 0

theorem parkLanes_zero {d : Dev} {n l : Nat} (hl : l ∈ [0, 1]) (k : Nat) (h : k = n ∨ laneState d n l = 0) : laneState (parkLanes d k) n l = 0 := by
  rcases h with rfl | h
  · exact forEach_reaches (P := fun e => laneState e k l = 0) (g := fun d l => setLaneState d k l 0) hl
      (fun e => Dev.rd_wr_lt e F.sscLaneStat_state 0 k l (by decide)) (fun e j _ he => laneState_setLaneState e k l k j he) d
  · exact forEach_inv (P := fun e => laneState e n l = 0) (g := fun d l => setLaneState d k l 0)
      (fun e j _ he => laneState_setLaneState e n l k j he) h

theorem parkAll_zero {ns : List Nat} {n l : Nat} (hn : n ∈ ns) (hl : l ∈ [0, 1]) (d : Dev) : laneState (forEach ns d parkLanes) n l = 0 :=
  forEach_reaches (P := fun e => laneState e n l = 0) (g := parkLanes) hn (fun _ => parkLanes_zero hl n (.inl rfl))
    (fun _ k _ he => parkLanes_zero hl k (.inr he)) d

theorem parkAll_state (ns : List Nat) (d : Dev) : (forEach ns d parkLanes).rd F.pwrHoldStat_state = d.rd F.pwrHoldStat_state :=
  forEach_keeps (p := fun e => e.rd F.pwrHoldStat_state) (g := parkLanes) (fun e k _ => forEach_keeps (p := fun e => e.rd F.pwrHoldStat_state)
    (g := fun d l => setLaneState d k l 0) (fun e l _ => Dev.rd_wr_ne e F.sscLaneStat_state F.pwrHoldStat_state 0 k l 0 0 (by decide)) e) d

/-! ### The replay of the journals -/

theorem journalReplay_runs {d : Dev} {n : Nat} (hreplaying : d.host.replaying.contains n = true) (hready : d.rd F.pwrHs_state 0 n = 0)
    (hstill : d.rd F.pwrHs_in_transition 0 n = 0) (hhash : tabGet 0 d.host.lockerHash n = sectionHash d n) :
    ((journalReplay n d).spin n).replayed = true ∧ (journalReplay n d).host.locker = d.host.locker ∧ (journalReplay n d).out = d.out ∧
      ∀ f i j, (journalReplay n d).rd f i j = d.rd f i j := by
  have hgo : ¬ ((!d.host.replaying.contains n) = true ∨ d.rd F.pwrHs_state 0 n ≠ 0 ∨ d.rd F.pwrHs_in_transition 0 n ≠ 0) := by
    rw [hreplaying, hready, hstill]
    decide
  rw [journalReplay, if_neg hgo]
  extract_lets mine maps
  have hsame : ¬ (!mine.isEmpty && tabGet 0 d.host.lockerHash n != sectionHash d n) = true := by simp [hhash]
  rw [if_neg hsame, Dev.updSpin_spin, if_pos rfl]
  have hfoot : keep recoverMapFoot (forEach maps d recoverMap) = keep recoverMapFoot d :=
    keep_forEach d maps recoverMap fun e k => keep_recoverMap (by decide) e k
  have hhost : hkeep recoverMapHost (forEach maps d recoverMap) = hkeep recoverMapHost d :=
    hkeep_forEach d maps recoverMap fun e k => hkeep_recoverMap (by decide) e k
  generalize forEach maps d recoverMap = e at *
  have hlocker : e.host.locker = d.host.locker := locker_of_hkeep hhost (by decide)
  have hout : e.out = d.out := out_of_keep hfoot (by decide)
  have hrd (f : Fld) (i j : Nat) : e.rd f i j = d.rd f i j := rd_of_keep hfoot (footOf_fld [.host] (fs := []) (by simp)) i j
  exact ⟨rfl, hlocker, hout, hrd⟩

theorem journalReplay_refuses {d : Dev} {n : Nat} (hreplaying : d.host.replaying.contains n = true) (hready : d.rd F.pwrHs_state 0 n = 0)
    (hstill : d.rd F.pwrHs_in_transition 0 n = 0) (hmine : d.host.locker.any (fun b => b.hda == n) = true)
    (hhash : tabGet 0 d.host.lockerHash n ≠ sectionHash d n) :
    (journalReplay n d).host.replaying.contains n = false ∧ (journalReplay n d).host.refusedHda.contains n = true ∧
      (journalReplay n d).host.locker = d.host.locker := by
  have hgo : ¬ ((!d.host.replaying.contains n) = true ∨ d.rd F.pwrHs_state 0 n ≠ 0 ∨ d.rd F.pwrHs_in_transition 0 n ≠ 0) := by
    rw [hreplaying, hready, hstill]
    decide
  rw [journalReplay, if_neg hgo]
  extract_lets mine maps
  have hfilled : mine.isEmpty = false := by
    obtain ⟨b, hb, hn⟩ := List.any_eq_true.1 hmine
    exact List.isEmpty_eq_false_iff_exists_mem.2 ⟨b, List.mem_filter.2 ⟨hb, hn⟩⟩
  have hother : (!mine.isEmpty && tabGet 0 d.host.lockerHash n != sectionHash d n) = true := by simp [hhash, hfilled]
  rw [if_pos hother]
  refine ⟨by simp, ?_, rfl⟩
  by_cases h : d.host.refusedHda.contains n = true
  all_goals simp at h
  all_goals simp [h]

/-- What a replay may change of the host's state before its end. -/
def replayHost : Nat := landBlkHost ||| refreshParityHost ||| placeUnitHost

/-- The end of a replay (R304, R306). -/
theorem journalReplayDone_ends {d : Dev} {n : Nat} (skipped : List Nat) (hreplaying : d.host.replaying.contains n = true)
    (hreplayed : (d.spin n).replayed = true) :
    (journalReplayDone n skipped d).host.replaying.contains n = false ∧
      (journalReplayDone n skipped d).host.locker = d.host.locker.filter (fun b => b.hda != n) ∧
      tabGet 0 (journalReplayDone n skipped d).host.anchors n = tabGet 0 d.host.anchors n + 1 ∧
      ((journalReplayDone n skipped d).spin n).replayed = false := by
  have hgo : ¬ ((!d.host.replaying.contains n) = true ∨ (!(d.spin n).replayed) = true) := by
    rw [hreplaying, hreplayed]
    decide
  rw [journalReplayDone, if_neg hgo]
  extract_lets all bad d1 mine d2 d3 d4 d5
  have hhost3 : hkeep replayHost d3 = hkeep replayHost d := by
    have hunit (e : Dev) (u : Nat × Nat × Nat) (ns : Ns) : hkeep replayHost
        (if ns.zoned = true then refreshParity e u.1 (zoneIndex e ns (8 * u.2.2)) else placeUnit e u.1 u.2.1 none u.2.2) = hkeep replayHost e := by
      simp +decide only [↓hkeep_ite, ↓hkeep_refreshParity, ↓hkeep_placeUnit, ite_self]
    have h3 : hkeep replayHost d3 = hkeep replayHost d2 := by
      refine hkeep_forEach d2 _ _ fun e u => ?_
      split
      · rfl
      · exact hunit e u _
    rw [h3]
    simp +decide only [d2, d1, ↓hkeep_forEach, ↓hkeep_landBlk, ↓hkeep_cardCount, implies_true]
  have hlocker3 : d3.host.locker = d.host.locker := locker_of_hkeep hhost3 (by decide)
  have hreplaying3 : d3.host.replaying = d.host.replaying := replaying_of_hkeep hhost3 (by decide)
  have hanchors3 : d3.host.anchors = d.host.anchors := anchors_of_hkeep hhost3 (by decide)
  clear_value d3
  have hhost5 : hkeep writeAnchorHost d5 = hkeep writeAnchorHost d4 := hkeep_writeAnchor (by decide) d4 n
  have hlocker5 : d5.host.locker = d.host.locker.filter fun b => b.hda != n := by
    rw [show d5.host.locker = d4.host.locker from locker_of_hkeep hhost5 (by decide), ← hlocker3]
    rfl
  have hreplaying5 : d5.host.replaying = d.host.replaying.filter fun m => m != n := by
    rw [show d5.host.replaying = d4.host.replaying from replaying_of_hkeep hhost5 (by decide), ← hreplaying3]
    rfl
  have hanchors5 : tabGet 0 d5.host.anchors n = tabGet 0 d.host.anchors n + 1 := by
    have hput : d5.host.anchors = tabPut 0 d4.host.anchors n (tabGet 0 d4.host.anchors n + 1) := rfl
    rw [hput, tabGet_tabPut, if_pos rfl, show d4.host.anchors = d3.host.anchors from rfl, hanchors3]
  clear_value d5
  have hlast : hkeep (updPortHost ||| hdaArrivedHost) (hdaThroughStart (hdaArrived (d5.updSpin n fun s => { s with replayed := false }) n) n) =
      hkeep (updPortHost ||| hdaArrivedHost) d5 := by
    simp +decide only [↓hkeep_hdaThroughStart, ↓hkeep_hdaArrived, ↓hkeep_updSpin]
  have hspins : keep (hdaThroughStartFoot ||| hdaArrivedFoot) (hdaThroughStart (hdaArrived (d5.updSpin n fun s => { s with replayed := false }) n) n) =
      keep (hdaThroughStartFoot ||| hdaArrivedFoot) (d5.updSpin n fun s => { s with replayed := false }) := by
    simp +decide only [↓keep_hdaThroughStart, ↓keep_hdaArrived]
  generalize hdaThroughStart _ n = d6 at *
  refine ⟨?_, ?_, ?_, ?_⟩
  · rw [show d6.host.replaying = d5.host.replaying from replaying_of_hkeep hlast (by decide), hreplaying5]
    simp
  · rw [show d6.host.locker = d5.host.locker from locker_of_hkeep hlast (by decide), hlocker5]
  · rw [show d6.host.anchors = d5.host.anchors from anchors_of_hkeep hlast (by decide), hanchors5]
  · rw [Dev.spin, spins_of_keep hspins (by decide), ← Dev.spin, Dev.updSpin_spin, if_pos rfl]

/-- Settles O25: a lemma per row. -/
theorem holdUpRowsComplete : Obligations.HoldUpRowsComplete := by
  unfold Obligations.HoldUpRowsComplete
  refine ⟨?start, ?early, ?flushEnd, ?parked, ?replay, ?refused, ?done⟩
  case start =>
    intro s low sag hstate hstage hcause
    exact brings_of_run (g := fireDrillStart low sag) rfl (fireDrillStart_begins hstate hstage (by simpa using hcause))
  case early =>
    intro s sag hstate hstage
    exact gives_of_run (g := fireDrillStart true sag) rfl (fireDrillStart_early sag hstate hstage)
  case flushEnd =>
    intro s n written hflushing
    exact brings_of_run (g := fireDrillFlushEnd n.val written) rfl (fireDrillFlushEnd_coasts written hflushing)
  case parked =>
    intro s hstate hall
    refine brings_of_run (g := fun d => if d.rd F.pwrHoldStat_state = 3 ∧ (presentHdas d).all (headsParked d) then
      forEach (presentHdas d) ((if heldBus d then stopCheckpoint d else d).wr F.pwrHoldStat_state 4) parkLanes else d) rfl ?_
    rw [if_pos ⟨hstate, hall⟩]
    refine ⟨?_, fun n hn => ⟨parkAll_zero hn (by simp) _, parkAll_zero hn (by simp) _⟩⟩
    rw [parkAll_state]
    exact Dev.rd_wr_lt _ F.pwrHoldStat_state 4 0 0 (by decide)
  case replay =>
    intro s n hreplaying hready hstill hhash
    exact brings_of_run (g := journalReplay n.val) rfl (journalReplay_runs hreplaying hready hstill hhash)
  case refused =>
    intro s n hreplaying hready hstill hmine hhash
    exact brings_of_run (g := journalReplay n.val) rfl (journalReplay_refuses hreplaying hready hstill hmine hhash)
  case done =>
    intro s n skipped hreplaying hreplayed
    exact brings_of_run (g := journalReplayDone n.val skipped) rfl (journalReplayDone_ends skipped hreplaying hreplayed)

end Sys2Proof.Machine
end

section
/-! PROOF. What the bound's recomputation and a start may change of the host's state. -/
namespace Sys2Proof.Machine

theorem hkeep_setCommand {ft : Nat} (d : Dev) (n : Nat) : hkeep ft (setCommand d n) = hkeep ft d :=
  hkeep_of_keep (keep_setCommand (ft := setCommandFoot) (by decide) d n) (by decide) ft

def updExtentsHost : Nat := hostFoot [.extents]
theorem hkeep_updExtents {ft : Nat} (hft : inFoot updExtentsHost ft = true) (d : Dev) (g : List Extent → List Extent) : hkeep ft
    (d.updExtents g) = hkeep ft d :=
  hkeep_mono hft (by simp +decide only [Dev.updExtents, ↓hkeep_updHost, hmask, if_true, implies_true])

def addTaskHost : Nat := hostFoot [.nextTid, .tasks, .wanted]
theorem hkeep_addTask {ft : Nat} (hft : inFoot addTaskHost ft = true) (d : Dev) (kind : MKind) (act : Nat) (prio : Bool) : hkeep
    ft (addTask d kind act prio) = hkeep ft d :=
  hkeep_mono hft (by simp +decide only [addTask, ↓hkeep_updHost, hmask, if_true, implies_true, ↓hkeep_updTasks, ↓hkeep_wantHda, ↓hkeep_ite, ite_self])

def destageExtentHost : Nat := hostFoot [.nextTid, .extents, .tasks, .wanted]
theorem hkeep_destageExtent {ft : Nat} (hft : inFoot destageExtentHost ft = true) (d : Dev) (e : Extent) (prio : Bool) : hkeep
    ft (destageExtent d e prio) = hkeep ft d :=
  hkeep_mono hft (by simp +decide only [destageExtent, ↓hkeep_updExtents, ↓hkeep_addTask, ↓hkeep_forEach, ↓hkeep_ite, ite_self,
    implies_true])

theorem hkeep_pressDestage {ft : Nat} (hft : inFoot destageExtentHost ft = true) (d : Dev) (n : Nat) : hkeep ft (pressDestage d
    n) = hkeep ft d :=
  hkeep_mono hft (by simp +decide only [pressDestage, ↓hkeep_wantHda, ↓hkeep_destageExtent, ↓hkeep_forEach, ↓hkeep_ite, ite_self,
    implies_true])

theorem hkeep_pressWriters {ft : Nat} (hft : inFoot destageExtentHost ft = true) (d : Dev) (n : Nat) : hkeep ft (pressWriters d
    n) = hkeep ft d :=
  hkeep_mono hft (by simp +decide only [pressWriters, ↓hkeep_wantHda, ↓hkeep_pressDestage, ↓hkeep_forEach, ↓hkeep_ite, ite_self,
    implies_true])

theorem hkeep_trimUnder {ft : Nat} (hft : inFoot updExtentsHost ft = true) (d : Dev) (wid : Nat) : hkeep ft (trimUnder d wid) =
    hkeep ft d :=
  hkeep_mono hft (by simp +decide only [trimUnder, ↓hkeep_updExtents, ↓hkeep_ite, ite_self])

theorem hkeep_markCovered {ft : Nat} (hft : inFoot updExtentsHost ft = true) (d : Dev) (wid n : Nat) : hkeep ft (markCovered d
    wid n) = hkeep ft d :=
  hkeep_mono hft (by simp +decide only [markCovered, ↓hkeep_updExtents, ↓hkeep_trimUnder])

def updCtxHost : Nat := hostFoot [.ctxs]
theorem hkeep_updCtx {ft : Nat} (hft : inFoot updCtxHost ft = true) (d : Dev) (id : Nat) (g : Ctx → Ctx) : hkeep ft (d.updCtx id
    g) = hkeep ft d :=
  hkeep_mono hft (by simp +decide only [Dev.updCtx, ↓hkeep_updHost, hmask, if_true, implies_true])

theorem hkeep_chainRespond {ft : Nat} (d : Dev) (src tag status dw0 : Nat) (body : List Nat) : hkeep ft (chainRespond d src tag
    status dw0 body) = hkeep ft d :=
  hkeep_of_keep (keep_chainRespond (ft := originateFoot) (by decide) d src tag status dw0 body) (by decide) ft

theorem hkeep_dropWork {ft : Nat} (d : Dev) (id : Nat) : hkeep ft (dropWork d id) = hkeep ft d :=
  hkeep_of_keep (keep_dropWork (ft := dropWorkFoot) (by decide) d id) (by decide) ft

def leaveTableHost : Nat := hostFoot [.ctxs, .order, .tasks]
theorem hkeep_leaveTable {ft : Nat} (hft : inFoot leaveTableHost ft = true) (d : Dev) (x : Ctx) : hkeep ft (leaveTable d x) =
    hkeep ft d :=
  hkeep_mono hft (by simp +decide only [leaveTable, ↓hkeep_setBit, ↓hkeep_updHost, hmask, if_true, implies_true, ↓hkeep_forEach, ↓hkeep_ite, ite_self, implies_true])

theorem hkeep_finish {ft : Nat} (hft : inFoot leaveTableHost ft = true) (d : Dev) (id status dw0 : Nat) : hkeep ft (finish d id
    status dw0) = hkeep ft d := by
  refine hkeep_mono hft ?_
  unfold finish
  split
  · rfl
  · extract_lets record e e'
    have he : hkeep leaveTableHost e = hkeep leaveTableHost d := by simp +decide only [e, ↓hkeep_dropWork, ↓hkeep_leaveTable]
    have he' : hkeep leaveTableHost e' = hkeep leaveTableHost d := by
      simp only [e']
      split
      · simp +decide only [he, ↓hkeep_emit]
      · simp +decide only [he, ↓hkeep_chainRespond]
      · exact he
      · exact he
    simp +decide only [he', ↓hkeep_syncHost]

def tryCompleteHost : Nat := hostFoot [.ctxs, .nextTid, .order, .extents, .tasks, .wanted]
theorem hkeep_tryComplete {ft : Nat} (hft : inFoot tryCompleteHost ft = true) (d : Dev) (id : Nat) : hkeep ft (tryComplete d id)
    = hkeep ft d := by
  refine hkeep_mono hft ?_
  unfold tryComplete
  split
  · rfl
  · split
    · rfl
    · split
      · simp +decide only [↓hkeep_updCtx, ↓hkeep_destageExtent, ↓hkeep_forEach, implies_true]
      · extract_lets e e'
        have he : hkeep tryCompleteHost e = hkeep tryCompleteHost d := by
          simp only [e]
          split
          · simp +decide only [↓hkeep_emit]
          · rfl
        have he' : hkeep tryCompleteHost e' = hkeep tryCompleteHost d := by
          simp only [e']
          simp +decide only [he, ↓hkeep_destageExtent, ↓hkeep_forEach, implies_true]
        simp +decide only [he', ↓hkeep_finish]

theorem hkeep_settleWrites {ft : Nat} (hft : inFoot tryCompleteHost ft = true) (d : Dev) : hkeep ft (settleWrites d) = hkeep ft
    d :=
  hkeep_mono hft (by simp +decide only [settleWrites, ↓hkeep_tryComplete, ↓hkeep_forEach, implies_true])

theorem hkeep_journalWrite {ft : Nat} (hft : inFoot mapUpdateHost ft = true) (d : Dev) (wid n : Nat) : hkeep ft (journalWrite d
    wid n) = hkeep ft d := by
  refine hkeep_mono hft ?_
  unfold journalWrite
  refine hkeep_forEach _ _ _ fun e x => ?_
  split
  · rfl
  · split
    · rfl
    · simp +decide only [↓hkeep_mapUpdate, ↓hkeep_forEach, implies_true]

def coverNextHost : Nat := hostFoot [.ctxs, .nextTid, .order, .extents, .held, .journal, .parity, .tasks, .wanted]
theorem hkeep_coverNext {ft : Nat} (hft : inFoot coverNextHost ft = true) (d : Dev) (n : Nat) : hkeep ft (coverNext d n) = hkeep
    ft d := by
  refine hkeep_mono hft ?_
  unfold coverNext
  split
  · rfl
  · split
    · rfl
    · extract_lets e e'
      have he : hkeep coverNextHost e = hkeep coverNextHost d := by simp only [e]; simp +decide only [↓hkeep_markCovered, ↓hkeep_journalWrite]
      have he' : hkeep coverNextHost e' = hkeep coverNextHost d := by
        simp only [e']
        split
        · split
          · simp +decide only [he, ↓hkeep_refreshParity]
          · exact he
        · exact he
      split
      · rfl
      · split
        · simp +decide only [he', ↓hkeep_syncHost, ↓hkeep_tryComplete, ↓hkeep_settleWrites]
        · rfl

theorem hkeep_coverAll {ft : Nat} (hft : inFoot coverNextHost ft = true) (n : Nat) (q : Nat) (m : Dev) : hkeep ft (coverAll n q
    m) = hkeep ft m := by
  induction q generalizing m with
  | zero => rfl
  | succ f ih => rw [coverAll, ih, hkeep_coverNext hft]

theorem hkeep_recomputeBound {ft : Nat} (hft : inFoot coverNextHost ft = true) (d : Dev) : hkeep ft (recomputeBound d) = hkeep
    ft d :=
  hkeep_mono hft (by simp +decide only [recomputeBound, ↓hkeep_wr, ↓hkeep_syncHost, ↓hkeep_setCommand, ↓hkeep_pressWriters,
    ↓hkeep_coverAll, ↓hkeep_forEach, implies_true])

def emptyStateHost : Nat := hostFoot [.mapCk, .lockerMap, .parity, .nss, .media, .detention, .detGen, .replaying, .locker,
  .lockerHash]
theorem hkeep_emptyState {ft : Nat} (hft : inFoot emptyStateHost ft = true) (d : Dev) : hkeep ft (emptyState d) = hkeep ft d :=
  hkeep_mono hft (by simp +decide only [emptyState, ↓hkeep_updHost, hmask, if_true, implies_true])

theorem hkeep_newKeks {ft : Nat} (d : Dev) : hkeep ft (newKeks d) = hkeep ft d :=
  hkeep_of_keep (keep_newKeks (ft := newKeksFoot) (by decide) d) (by decide) ft

theorem hkeep_eraseNor {ft : Nat} (d : Dev) (decom : Bool) : hkeep ft (eraseNor d decom) = hkeep ft d :=
  hkeep_of_keep (keep_eraseNor (ft := eraseNorFoot) (by decide) d decom) (by decide) ft

theorem hkeep_burnTransition {ft : Nat} (d : Dev) (w : LcWork) : hkeep ft (burnTransition d w) = hkeep ft d :=
  hkeep_of_keep (keep_burnTransition (ft := burnTransitionFoot) (by decide) d w) (by decide) ft

theorem hkeep_hostTrain {ft : Nat} (hft : inFoot updPortHost ft = true) (d : Dev) (h : Nat) : hkeep ft (hostTrain d h) = hkeep
    ft d :=
  hkeep_mono hft (by simp +decide only [hostTrain, ↓hkeep_updPort, ↓hkeep_ite, ite_self])

end Sys2Proof.Machine
end

section
/-! PROOF. The boot chain (R349, R376, R385). -/
namespace Sys2Proof.Machine

/-! ### A cold start -/

/-- The registers that a start brings over. -/
def freshFoot : Nat := footOf [.host] [F.secSerial_serial, F.secFault_cause, F.secFault_seen, F.evrPmStat_resets, F.evrPmStat_dump_seq,
  F.evrWdog_expired, F.glbPins_perst_n, F.evrCtl_frozen, F.glbPins_pwr_good, F.glbPins_sys_rst_n]

/-- What a start leaves of the device before it. -/
theorem freshDev_clean (d : Dev) : ((freshDev d).rd F.glbStart_boot_done = 0) ∧ (freshDev d).reset.held = false ∧
    (freshDev d).reset.waitCool = false ∧ (freshDev d).sec.work = d.sec.work ∧ (freshDev d).host.ctxs = [] ∧
    (freshDev d).host.locker = d.host.locker := by
  unfold freshDev
  extract_lets host cipher card n n1 n2 n3 n4 n5 n6
  have hkeep6 : keep freshFoot ((n6.setFlag F.glbPins_pwr_good true).setFlag F.glbPins_sys_rst_n true) = keep freshFoot n := by
    simp +decide only [n6, n5, n4, n3, n2, n1, ↓keep_setFlag, ↓keep_wr, ↓keep_updPort, ↓keep_forEach, implies_true]
  have hhost6 : hkeep updPortHost ((n6.setFlag F.glbPins_pwr_good true).setFlag F.glbPins_sys_rst_n true) = hkeep updPortHost n := by
    simp +decide only [n6, n5, n4, n3, n2, n1, ↓hkeep_setFlag, ↓hkeep_wr, ↓hkeep_updPort, ↓hkeep_forEach, implies_true]
  generalize (n6.setFlag F.glbPins_pwr_good true).setFlag F.glbPins_sys_rst_n true = e at *
  rw [rd_of_keep hkeep6 (by decide), reset_of_keep hkeep6 (by decide), sec_of_keep hkeep6 (by decide), ctxs_of_hkeep hhost6 (by decide),
    locker_of_hkeep hhost6 (by decide)]
  exact ⟨rfl, rfl, rfl, rfl, rfl, rfl⟩

def restoreCardFoot : Nat := footOf [] [F.evrPos_seconds] ||| thawCardFoot

theorem keep_restoreCard (d : Dev) : keep restoreCardFoot (restoreCard d) = keep restoreCardFoot d := by
  simp +decide only [restoreCard, ↓keep_wr, ↓keep_updCard, ↓keep_thawCard]

theorem startCounts_reset (d : Dev) (fault : Bool) : (startCounts d fault).reset.held = d.reset.held ∧
    (startCounts d fault).reset.waitCool = d.reset.waitCool := by
  unfold startCounts
  extract_lets d1 d2 d3
  have hkeep3 : keep cardCountFoot d3 = keep cardCountFoot d := by
    simp +decide only [d3, d2, d1, ↓keep_cardCount, ↓keep_forEach, implies_true]
  have hreset : d3.reset = d.reset := reset_of_keep hkeep3 (by decide)
  rw [← hreset]
  exact ⟨rfl, rfl⟩

theorem keep_startCounts (d : Dev) (fault : Bool) : keep (footOf [.card, .reset] []) (startCounts d fault) = keep (footOf [.card, .reset] []) d := by
  simp +decide only [startCounts, ↓keep_updReset, ↓keep_cardCount, ↓keep_forEach, implies_true]

/-- A start up to the check of OTP and ROM (R385, R376). -/
def coldHead (d0 : Dev) : Dev :=
  let thermal := d0.reset.waitCool
  let fault := d0.sec.fault
  let d := startCounts (restoreCard (freshDev d0)) fault
  let d := d.updSec fun s => { s with fault := false }
  let d := (d.wr F.thmStat_cause (if thermal then d0.rd F.thmStat_cause else 0)).setFlag F.thmEvt_shutdown thermal
  let d := d.wr F.thmStat_phase (if thermal then 2 else 1)
  forEach (List.range 4) ((driveTrip (driveFault d false) false).emit (.pin 2 0)) fun d n => d.emit (.slot n .inactive)

/-- A start from there, with OTP and ROM good. -/
def coldTail (env : BootEnv) (d : Dev) : Dev :=
  let moved := d.sec.work.isSome
  let d := cardCount (slipStart (resumeTransition d)) 14 moved.toNat
  let d := if moved then ((d.wr F.evrPmStat_resets 0).wr F.evrPmStat_dump_seq 0).updCard fun c => { c with seq := 0 } else d
  let (cw, d) := d.draw
  let d := d.updCipher fun c => { c with cwk := cw }
  let d := applyRemaps (markInvalid (syncLevel d))
  let d := ((d.setFlag F.cphStat_drbg_ok true).wr F.glbStart_stage 3).setBit F.glbGpio_level 4 env.gpio4
  let d := d.setFlag F.glbPins_sris env.gpio4
  let d : Dev := { d with struct := { d.struct with dramGib := env.dramGib } }
  (d.wr F.memWipe_state 1).updReset fun r => { r with wipeSram := true }

theorem coldStart_eq {env : BootEnv} (hotp : env.otpOk = true) (hrom : env.romOk = true) (d : Dev) :
    coldStart env d = coldTail env (coldHead d) := by
  have hgo1 : ¬ (!env.otpOk) = true := by simp [hotp]
  have hgo2 : ¬ (!env.romOk) = true := by simp [hrom]
  unfold coldStart coldTail coldHead
  extract_lets
  rw [if_neg hgo1, if_neg hgo2]

theorem coldHead_clean (d : Dev) : (coldHead d).rd F.glbStart_boot_done = 0 ∧ (coldHead d).reset.held = false ∧
    (coldHead d).reset.waitCool = false ∧ (coldHead d).sec.work = d.sec.work ∧ (coldHead d).host.ctxs = [] ∧
    (coldHead d).host.locker = d.host.locker ∧
    (coldHead d).rd F.thmStat_cause = (if d.reset.waitCool then d.rd F.thmStat_cause else 0) % 2 ^ F.thmStat_cause.w ∧
    (coldHead d).flag F.thmEvt_shutdown = d.reset.waitCool ∧ (coldHead d).rd F.thmStat_phase = if d.reset.waitCool then 2 else 1 := by
  obtain ⟨hboot, hheld, hcool, hwork, hctxs, hlocker⟩ := freshDev_clean d
  unfold coldHead
  extract_lets thermal fault d1 d2 d3 d4
  have hcard := keep_restoreCard (freshDev d)
  have hcounts : keep (footOf [.card, .reset] []) d1 = keep (footOf [.card, .reset] []) (restoreCard (freshDev d)) := keep_startCounts _ fault
  obtain ⟨hheld1, hcool1⟩ : d1.reset.held = (restoreCard (freshDev d)).reset.held ∧ d1.reset.waitCool = (restoreCard (freshDev d)).reset.waitCool :=
    startCounts_reset _ fault
  clear_value d1
  generalize freshDev d = f at *
  have hrd1 : d1.rd F.glbStart_boot_done = 0 := by rw [rd_of_keep hcounts (by decide), rd_of_keep hcard (by decide), hboot]
  have hhost1 : d1.host = f.host := by rw [host_of_keep hcounts (by decide), host_of_keep hcard (by decide)]
  have hsec1 : d1.sec = f.sec := by rw [sec_of_keep hcounts (by decide), sec_of_keep hcard (by decide)]
  rw [reset_of_keep hcard (by decide)] at hheld1 hcool1
  have hlast : keep (driveTripFoot ||| driveFaultFoot) (forEach (List.range 4) ((driveTrip (driveFault d4 false) false).emit (.pin 2 0))
      fun d n => d.emit (.slot n .inactive)) = keep (driveTripFoot ||| driveFaultFoot) d4 := by
    simp +decide only [↓keep_emit, ↓keep_driveTrip, ↓keep_driveFault, ↓keep_forEach, implies_true]
  generalize forEach (List.range 4) _ (fun d n => Dev.emit d (.slot n .inactive)) = e at *
  rw [Dev.flag, rd_of_keep hlast (by decide), rd_of_keep hlast (by decide), rd_of_keep hlast (by decide), rd_of_keep hlast (by decide),
    reset_of_keep hlast (by decide), sec_of_keep hlast (by decide), host_of_keep hlast (by decide), ← Dev.flag]
  refine ⟨?_, hheld1.trans hheld, hcool1.trans hcool, ?_, ?_, ?_, ?_, ?_, ?_⟩
  · simp +decide only [d4, d3, d2, Dev.rd_wr_ne, Dev.rd_setFlag_ne, Dev.updSec_rd, ne_eq]
    exact hrd1
  · rw [← hwork, ← hsec1]
    rfl
  · rw [← hctxs, ← hhost1]
    rfl
  · rw [← hlocker, ← hhost1]
    rfl
  · simp +decide only [d4, d3, Dev.rd_wr_ne, Dev.rd_setFlag_ne, ne_eq]
    exact Dev.rd_wr_same ..
  · rw [show d4 = _ from rfl, Dev.flag, Dev.rd_wr_ne _ _ _ _ _ _ _ _ (by decide)]
    exact Dev.flag_setFlag _ F.thmEvt_shutdown thermal 0 0 (by decide)
  · refine Dev.rd_wr_lt d3 F.thmStat_phase _ 0 0 ?_
    split
    all_goals decide

theorem keep_resumeTransition (d : Dev) : keep (emptyStateFoot ||| newKeksFoot ||| eraseNorFoot ||| burnTransitionFoot) (resumeTransition d) =
    keep (emptyStateFoot ||| newKeksFoot ||| eraseNorFoot ||| burnTransitionFoot) d := by
  unfold resumeTransition
  split
  · rfl
  · simp +decide only [↓keep_updSec, ↓keep_eraseNor, ↓keep_burnTransition, ↓keep_ite, ↓keep_emptyState, ↓keep_newKeks, ite_self]

theorem hkeep_resumeTransition (d : Dev) : hkeep emptyStateHost (resumeTransition d) = hkeep emptyStateHost d := by
  unfold resumeTransition
  split
  · rfl
  · simp +decide only [↓hkeep_updSec, ↓hkeep_eraseNor, ↓hkeep_burnTransition, ↓hkeep_ite, ↓hkeep_emptyState, ↓hkeep_newKeks, ite_self]

theorem resumeTransition_none {d : Dev} (h : d.sec.work = none) : resumeTransition d = d := by
  unfold resumeTransition
  split
  · rfl
  next w hw =>
    rw [h] at hw
    cases hw

/-- What the last part of a start may change, beside what it leaves in the end. -/
def coldTailFoot : Nat := footOf [.struct, .sec, .ecc] [F.evrPmStat_resets, F.evrPmStat_dump_seq] ||| cardCountFoot ||| emptyStateFoot |||
  newKeksFoot ||| eraseNorFoot ||| burnTransitionFoot ||| syncLevelFoot ||| enterRemapFoot

theorem coldTail_starts (env : BootEnv) (d : Dev) : (coldTail env d).rd F.glbStart_stage = 3 ∧ (coldTail env d).rd F.memWipe_state = 1 ∧
    (coldTail env d).reset = { d.reset with wipeSram := true } ∧ (coldTail env d).rd F.glbStart_boot_done = d.rd F.glbStart_boot_done ∧
    (coldTail env d).rd F.thmStat_cause = d.rd F.thmStat_cause ∧ (coldTail env d).rd F.thmEvt_shutdown = d.rd F.thmEvt_shutdown ∧
    (coldTail env d).rd F.thmStat_phase = d.rd F.thmStat_phase ∧ (coldTail env d).host.ctxs = d.host.ctxs ∧
    (d.sec.work = none → (coldTail env d).host.locker = d.host.locker) := by
  unfold coldTail
  extract_lets moved d1 d2
  split
  next cw d3 hdraw =>
  have h3 : d3 = d2.draw.2 := (congrArg Prod.snd hdraw).symm
  extract_lets d4 d5 d6 d7 st d8
  have hcount (x : Dev) (k n : Nat) : (cardCount x k n).host = x.host :=
    host_of_keep (keep_cardCount (ft := cardCountFoot) (by decide) x k n) (by decide)
  have hhost1 : d1.host = (resumeTransition d).host := hcount ..
  have hkeep1 : keep coldTailFoot d1 = keep coldTailFoot d :=
    (keep_cardCount (by decide) _ _ _).trans (Eq.trans (by simp +decide only [slipStart, ↓keep_updSec]) (keep_mono (by decide) (keep_resumeTransition d)))
  have hhost2 : d2.host = d1.host := by
    simp only [d2]
    split <;> rfl
  have hremap (x : Dev) : keep (enterRemapFoot ||| footOf [.struct] [] ||| syncLevelFoot) (applyRemaps (markInvalid (syncLevel x))) =
      keep (enterRemapFoot ||| footOf [.struct] [] ||| syncLevelFoot) x := by
    simp +decide only [applyRemaps, markInvalid, ↓keep_forEach, ↓keep_ite, ↓keep_enterRemap, ↓keep_setImgSlot, ↓keep_syncLevel, ite_self, implies_true]
  have hkeep5 : keep coldTailFoot d5 = keep coldTailFoot d := by
    rw [keep_mono (by decide) (hremap d4), ← hkeep1]
    simp +decide only [d4, h3, d2, ↓keep_updCipher, ↓keep_draw, ↓keep_ite, ↓keep_updCard, ↓keep_wr, ite_self]
  have hhost5 : d5.host = (resumeTransition d).host := by
    rw [host_of_keep (hremap d4) (by decide), ← hhost1, ← hhost2]
    simp only [d4, h3]
    rfl
  clear_value d5
  have hrd8 (f : Fld) (h1 : F.memWipe_state.id ≠ f.id) (h2 : F.glbPins_sris.id ≠ f.id) (h3 : F.glbGpio_level.id ≠ f.id)
      (h4 : F.glbStart_stage.id ≠ f.id) (h5 : F.cphStat_drbg_ok.id ≠ f.id) (h6 : coldTailFoot.testBit (32 + f.id) = false) :
      ((d8.wr F.memWipe_state 1).updReset fun r => { r with wipeSram := true }).rd f = d.rd f := by
    rw [Dev.updReset_rd, Dev.rd_wr_ne _ _ _ _ _ _ _ _ h1, show d8.rd f = d7.rd f from rfl, show d7 = _ from rfl,
      Dev.rd_setFlag_ne _ _ _ _ _ _ _ _ h2, show d6 = _ from rfl, Dev.rd_setBit_ne _ _ _ _ _ _ _ _ _ h3, Dev.rd_wr_ne _ _ _ _ _ _ _ _ h4,
      Dev.rd_setFlag_ne _ _ _ _ _ _ _ _ h5, rd_of_keep hkeep5 h6]
  have hhost8 : ((d8.wr F.memWipe_state 1).updReset fun r => { r with wipeSram := true }).host = d5.host := rfl
  have hreset8 : ((d8.wr F.memWipe_state 1).updReset fun r => { r with wipeSram := true }).reset = { d5.reset with wipeSram := true } := rfl
  refine ⟨?_, ?_, ?_, hrd8 _ (by decide) (by decide) (by decide) (by decide) (by decide) (by decide),
    hrd8 _ (by decide) (by decide) (by decide) (by decide) (by decide) (by decide),
    hrd8 _ (by decide) (by decide) (by decide) (by decide) (by decide) (by decide),
    hrd8 _ (by decide) (by decide) (by decide) (by decide) (by decide) (by decide), ?_, fun hwork => ?_⟩
  · rw [Dev.updReset_rd, Dev.rd_wr_ne _ _ _ _ _ _ _ _ (by decide), show d8.rd F.glbStart_stage = d7.rd F.glbStart_stage from rfl,
      show d7 = _ from rfl, Dev.rd_setFlag_ne _ _ _ _ _ _ _ _ (by decide), show d6 = _ from rfl, Dev.rd_setBit_ne _ _ _ _ _ _ _ _ _ (by decide)]
    exact Dev.rd_wr_lt _ F.glbStart_stage 3 0 0 (by decide)
  · rw [Dev.updReset_rd]
    exact Dev.rd_wr_lt d8 F.memWipe_state 1 0 0 (by decide)
  · rw [hreset8, reset_of_keep hkeep5 (by decide)]
  · rw [hhost8, hhost5, ctxs_of_hkeep (hkeep_resumeTransition d) (by decide)]
  · rw [hhost8, hhost5, resumeTransition_none hwork]

/-- A cold start or a restart with OTP and ROM good. -/
theorem coldStart_starts {env : BootEnv} {d : Dev} (hotp : env.otpOk = true) (hrom : env.romOk = true) :
    (coldStart env d).rd F.glbStart_stage = 3 ∧ (coldStart env d).flag F.glbStart_boot_done = false ∧
      (coldStart env d).rd F.memWipe_state = 1 ∧ (coldStart env d).reset.wipeSram = true ∧ (coldStart env d).reset.held = false ∧
      (coldStart env d).reset.waitCool = false ∧ (coldStart env d).host.ctxs = [] ∧
      (d.sec.work = none → (coldStart env d).host.locker = d.host.locker) ∧
      (coldStart env d).flag F.thmEvt_shutdown = d.reset.waitCool ∧ (coldStart env d).rd F.thmStat_phase = (if d.reset.waitCool then 2 else 1) ∧
      (coldStart env d).rd F.thmStat_cause = (if d.reset.waitCool then d.rd F.thmStat_cause else 0) % 2 ^ F.thmStat_cause.w := by
  obtain ⟨hboot, hheld, hcool, hwork, hctxs, hlocker, hcause, hshut, hphase⟩ := coldHead_clean d
  obtain ⟨tstage, twipe, treset, tboot, tcause, tshut, tphase, tctxs, tlocker⟩ := coldTail_starts env (coldHead d)
  rw [coldStart_eq hotp hrom]
  generalize coldTail env (coldHead d) = e at *
  refine ⟨tstage, ?_, twipe, by rw [treset], by rw [treset, hheld], by rw [treset, hcool], tctxs.trans hctxs, fun h => ?_, ?_,
    tphase.trans hphase, tcause.trans hcause⟩
  · rw [Dev.flag, tboot, hboot]
    rfl
  · rw [tlocker (hwork.trans h), hlocker]
  · rw [Dev.flag, tshut, ← Dev.flag, hshut]

/-! ### The wipes -/

theorem sramWipeDone_boot {d : Dev} (m : List Host.Cell) (hwipe : d.reset.wipeSram = true) (hstage : d.rd F.glbStart_stage = 3) :
    (sramWipeDone d m).2 = loadStores (sramWipeDone d m).1.struct.sections [] ∧ (sramWipeDone d m).1.rd F.glbStart_stage = 5 ∧
      (sramWipeDone d m).1.reset.wipeSram = false ∧ (sramWipeDone d m).1.reset.wipeDram = true := by
  have hgo : ¬ (!d.reset.wipeSram) = true := by simp [hwipe]
  rw [sramWipeDone, if_neg hgo]
  extract_lets d1 d2 d3 d4
  have hwiped : keep sramWipedFoot d1 = keep sramWipedFoot (d.updReset fun r => { r with wipeSram := false }) := keep_sramWiped (by decide) _
  have hstage1 : d1.rd F.glbStart_stage = 3 := (rd_of_keep hwiped (by decide) 0 0).trans hstage
  have hsram1 : d1.reset.wipeSram = false := by rw [reset_of_keep hwiped (by decide)]; rfl
  clear_value d1
  rw [if_pos hstage1]
  have hchoose : keep selectStructureFoot d2 = keep selectStructureFoot d1 := keep_selectStructure (by decide) d1
  have hsram2 : d2.reset.wipeSram = false := by rw [reset_of_keep hchoose (by decide), hsram1]
  clear_value d2
  exact ⟨rfl, Dev.rd_wr_lt d3 F.glbStart_stage 5 0 0 (by decide), hsram2, rfl⟩

theorem dramWipeDone_boot {d : Dev} (ms : Nat) (m : List Host.Cell) (hwipe : d.reset.wipeDram = true) (hstage : d.rd F.glbStart_stage = 5) :
    (dramWipeDone ms d m).2 = loadStores (dramWipeDone ms d m).1.struct.sections m ∧ (dramWipeDone ms d m).1.rd F.glbStart_stage = 7 ∧
      (dramWipeDone ms d m).1.reset.wipeDram = false := by
  have hgo : ¬ (!d.reset.wipeDram) = true := by simp [hwipe]
  have hboot : decide (d.rd F.glbStart_stage = 5) = true := by simp [hstage]
  rw [dramWipeDone, if_neg hgo]
  extract_lets boot kept d1 d2
  rw [if_pos hboot]
  have hwiped : keep dramWipedFoot d1 = keep dramWipedFoot (d.updReset fun r => { r with wipeDram := false }) := keep_dramWiped (by decide) _ ms kept
  have hdram1 : d1.reset.wipeDram = false := by rw [reset_of_keep hwiped (by decide)]; rfl
  clear_value d1
  have hload : keep (loadKeysFoot ||| loadFirmwareFoot ||| offerDumpFoot) (loadKeys (loadFirmware (if kept then offerDump d1 else d1))) =
      keep (loadKeysFoot ||| loadFirmwareFoot ||| offerDumpFoot) d1 := by
    simp +decide only [↓keep_loadKeys, ↓keep_loadFirmware, ↓keep_ite, ↓keep_offerDump, ite_self]
  refine ⟨rfl, Dev.rd_wr_lt _ F.glbStart_stage 7 0 0 (by decide), ?_⟩
  show (loadKeys _).reset.wipeDram = false
  rw [reset_of_keep hload (by decide), hdram1]

theorem sramWipeDone_stop {d : Dev} (m : List Host.Cell) (hwipe : d.reset.wipeSram = true) (hdram : d.reset.wipeDram = false)
    (hstop : d.reset.stage = 5) (hstage : d.rd F.glbStart_stage ≠ 3) : (sramWipeDone d m).2 = [] ∧ (sramWipeDone d m).1.reset.stage = 6 := by
  have hgo : ¬ (!d.reset.wipeSram) = true := by simp [hwipe]
  rw [sramWipeDone, if_neg hgo]
  extract_lets d1 d2 d3 d4
  have hwiped : keep sramWipedFoot d1 = keep sramWipedFoot (d.updReset fun r => { r with wipeSram := false }) := keep_sramWiped (by decide) _
  have hstage1 : d1.rd F.glbStart_stage ≠ 3 := by
    rw [rd_of_keep hwiped (by decide), Dev.updReset_rd]
    exact hstage
  have hreset1 : d1.reset = { d.reset with wipeSram := false } := by rw [reset_of_keep hwiped (by decide)]; rfl
  clear_value d1 d2
  have hdone : ¬ (d1.reset.wipeSram || d1.reset.wipeDram) = true := by simp [hreset1, hdram]
  have hfive : d1.reset.stage = 5 := by rw [hreset1, hstop]
  rw [if_neg hstage1, wipesEnded, if_neg hdone, if_pos hfive]
  exact ⟨rfl, rfl⟩

/-! ### BOOT_DONE -/

/-- A used port that nothing holds down trains to the lesser width and generation (R71, R385). -/
theorem hostTrain_trains {d : Dev} {h : HstId} (hused : hostUsed d h.val = true) (hperst : d.bit F.glbPins_perst_n h.val = true)
    (hboot : d.flag F.glbStart_boot_done = true) (hlost : d.reset.lost.contains (.hst h) = false) (hloop : d.rd F.loop_depth h.val = 0) :
    hostTrain d h.val = d.updPort h.val fun p => { p with
      linkUp := true, width := min p.offer.1 (d.secField 2 0 (8 * h.val + 2) 1), gen := min p.offer.2 (d.secField 2 0 (8 * h.val + 1) 1) } := by
  unfold hostTrain
  extract_lets lost looped
  have hclock : lost = false := by
    refine List.any_eq_false.2 fun c hc => ?_
    cases c with
    | hst k =>
      have hk : k ≠ h := by
        rintro rfl
        simp [hc] at hlost
      simpa using fun hv => hk (Fin.ext hv)
    | _ => exact Bool.false_ne_true
  have hfree : looped = false := by simp [looped, hloop]
  rw [hused, hperst, hboot, hclock, hfree]
  rfl

theorem hostTrain_port_ne (d : Dev) {k h : Nat} (hk : h ≠ k) : (hostTrain d k).port h = d.port h := by
  unfold hostTrain
  extract_lets lost looped
  split
  · rw [Dev.updPort_port, if_neg hk]
  · rfl

/-- A host link as a start leaves it. -/
def linkTrained (d : Dev) (h : Nat) (p : Port) : Port :=
  { p with linkUp := true, width := min p.offer.1 (d.secField 2 0 (8 * h + 2) 1), gen := min p.offer.2 (d.secField 2 0 (8 * h + 1) 1) }

theorem trainHosts {d : Dev} {h : HstId} (hused : hostUsed d h.val = true) (hperst : d.bit F.glbPins_perst_n h.val = true)
    (hboot : d.flag F.glbStart_boot_done = true) (hlost : d.reset.lost = []) (hloop : d.rd F.loop_depth h.val = 0) :
    (forEach [0, 1] d hostTrain).port h.val = linkTrained d h.val (d.port h.val) := by
  have hstruct (e : Dev) (k : Nat) : (hostTrain e k).struct = e.struct := struct_of_keep (keep_hostTrain (ft := hostTrainFoot) (by decide) e k) (by decide)
  have hown {e : Dev} (hs : e.struct = d.struct) (hrd : ∀ f i j, e.rd f i j = d.rd f i j) (hl : e.reset.lost = [])
      (hp : e.port h.val = d.port h.val) : (hostTrain e h.val).port h.val = linkTrained d h.val (d.port h.val) := by
    have hfield (k off n : Nat) : e.secField 2 k off n = d.secField 2 k off n := secField_of_struct hs 2 k off n
    rw [hostTrain_trains (by rw [hostUsed, hfield, ← hostUsed, hused]) (by rw [Dev.bit, hrd, ← Dev.bit, hperst])
      (by rw [Dev.flag, hrd, ← Dev.flag, hboot]) (by rw [hl]; rfl) (by rw [hrd, hloop]), Dev.updPort_port, if_pos rfl, hp, hfield, hfield]
    rfl
  have hcase : h.val = 0 ∨ h.val = 1 := by have := h.isLt; omega
  rcases hcase with h0 | h1
  · show (hostTrain (hostTrain d 0) 1).port h.val = _
    rw [hostTrain_port_ne _ (by omega)]
    have := hown rfl (fun _ _ _ => rfl) hlost rfl
    rwa [h0] at this ⊢
  · show (hostTrain (hostTrain d 0) 1).port h.val = _
    have := hown (e := hostTrain d 0) (hstruct d 0) (fun _ _ _ => hostTrain_rd ..) (by rw [hostTrain_reset, hlost]) (hostTrain_port_ne d (by omega))
    rwa [h1] at this ⊢

theorem bootDone_starts {d : Dev} (ms : Nat) (hstage : d.rd F.glbStart_stage = 7) :
    (bootDone ms d).rd F.glbStart_stage = 8 ∧ (bootDone ms d).flag F.glbStart_boot_done = true ∧
      (bootDone ms d).rd F.glbStart_boot_ms = ms % 2 ^ F.glbStart_boot_ms.w ∧
      ∀ h : HstId, hostUsed d h.val = true → d.bit F.glbPins_perst_n h.val = true → d.reset.lost = [] → d.rd F.loop_depth h.val = 0 →
        (bootDone ms d).port h.val = linkTrained d h.val (d.port h.val) := by
  have hgo : ¬ d.rd F.glbStart_stage ≠ 7 := by simp [hstage]
  rw [bootDone, if_neg hgo]
  extract_lets d1 d2 d3 d4
  have hkeep4 : keep (portTrainFoot ||| setHvoteFoot) d4 = keep (portTrainFoot ||| setHvoteFoot) d2 := by
    simp +decide only [d4, d3, ↓keep_setHvote, ↓keep_portTrain, ↓keep_forEach, implies_true]
  have hstage2 : d2.rd F.glbStart_stage = 8 := by
    rw [show d2 = _ from rfl, Dev.rd_wr_ne _ _ _ _ _ _ _ _ (by decide), show d1 = _ from rfl, Dev.emit_rd,
      Dev.rd_setFlag_ne _ _ _ _ _ _ _ _ (by decide)]
    exact Dev.rd_wr_lt d F.glbStart_stage 8 0 0 (by decide)
  have hboot2 : d2.flag F.glbStart_boot_done = true := by
    rw [Dev.flag, show d2 = _ from rfl, Dev.rd_wr_ne _ _ _ _ _ _ _ _ (by decide), show d1 = _ from rfl, Dev.emit_rd]
    exact Dev.flag_setFlag _ F.glbStart_boot_done true 0 0 (by decide)
  have hms2 : d2.rd F.glbStart_boot_ms = ms % 2 ^ F.glbStart_boot_ms.w := Dev.rd_wr_same ..
  have hkeep2 : keep (footOf [.out] [F.glbStart_stage, F.glbStart_boot_done, F.glbStart_boot_ms]) d2 =
      keep (footOf [.out] [F.glbStart_stage, F.glbStart_boot_done, F.glbStart_boot_ms]) d := by
    simp +decide only [d2, d1, ↓keep_wr, ↓keep_emit, ↓keep_setFlag]
  clear_value d4 d2
  have hlast : keep (recomputeBoundFoot ||| applyLimitsFoot ||| hostTrainFoot) (recomputeBound (applyLimits (forEach [0, 1] d4 hostTrain))) =
      keep (recomputeBoundFoot ||| applyLimitsFoot ||| hostTrainFoot) d4 := by
    simp +decide only [↓keep_recomputeBound, ↓keep_applyLimits, ↓keep_hostTrain, ↓keep_forEach, implies_true]
  have hports : (recomputeBound (applyLimits (forEach [0, 1] d4 hostTrain))).host.ports = (forEach [0, 1] d4 hostTrain).host.ports := by
    rw [ports_of_hkeep (hkeep_recomputeBound (ft := coverNextHost) (by decide) _) (by decide),
      host_of_keep (keep_applyLimits (ft := applyLimitsFoot) (by decide) _) (by decide)]
  generalize recomputeBound (applyLimits (forEach [0, 1] d4 hostTrain)) = d5 at *
  refine ⟨?_, ?_, ?_, fun h hused hperst hlost hloop => ?_⟩
  · rw [rd_of_keep hlast (by decide), rd_of_keep hkeep4 (by decide), hstage2]
  · rw [Dev.flag, rd_of_keep hlast (by decide), rd_of_keep hkeep4 (by decide), ← Dev.flag, hboot2]
  · rw [rd_of_keep hlast (by decide), rd_of_keep hkeep4 (by decide), hms2]
  · have hstruct : d4.struct = d.struct := (struct_of_keep hkeep4 (by decide)).trans (struct_of_keep hkeep2 (by decide))
    have hfield (k off n : Nat) : d4.secField 2 k off n = d.secField 2 k off n := secField_of_struct hstruct 2 k off n
    have hhost : d4.host = d.host := (host_of_keep hkeep4 (by decide)).trans (host_of_keep hkeep2 (by decide))
    have htrain := trainHosts (d := d4) (h := h) (by rw [hostUsed, hfield, ← hostUsed, hused])
      (by rw [Dev.bit, rd_of_keep hkeep4 (by decide), rd_of_keep hkeep2 (by decide), ← Dev.bit, hperst])
      (by rw [Dev.flag, rd_of_keep hkeep4 (by decide), ← Dev.flag, hboot2])
      (by rw [reset_of_keep hkeep4 (by decide), reset_of_keep hkeep2 (by decide), hlost])
      (by rw [rd_of_keep hkeep4 (by decide), rd_of_keep hkeep2 (by decide), hloop])
    rw [Dev.port, hports, ← Dev.port, htrain]
    simp only [linkTrained, hfield, Dev.port, hhost]

/-- Settles O26: the start by its two halves, the wipes by their ends, BOOT_DONE by its ports. -/
theorem bootRowsComplete : Obligations.BootRowsComplete := by
  unfold Obligations.BootRowsComplete
  refine ⟨?cold, ?thermal, ?sram, ?dram, ?stop, ?boot⟩
  case cold =>
    intro s env hdue hcool hotp hrom
    refine brings_of_run (g := fun d => if startDue d && !(d.reset.waitCool && decide (85 ≤ env.dieMaxC)) then coldStart env d else d) rfl ?_
    have hgo : (startDue s.dev && !(s.dev.reset.waitCool && decide (85 ≤ env.dieMaxC))) = true := by
      cases hw : s.dev.reset.waitCool with
      | false => simp [hdue]
      | true => simp [hdue, hcool hw]
    rw [if_pos hgo]
    obtain ⟨h1, h2, h3, h4, h5, _, h7, h8, _⟩ := coldStart_starts (d := s.dev) hotp hrom
    exact ⟨h1, h2, h3, h4, h5, h7, h8⟩
  case thermal =>
    intro s env hcool hdie hauto hotp hrom
    refine brings_of_run (g := fun d => if d.reset.waitCool && decide (env.dieMaxC < 85) && (d.flag F.thmCfg_auto_restart || d.therm.restarting)
      then coldStart env d else d) rfl ?_
    have hgo : (s.dev.reset.waitCool && decide (env.dieMaxC < 85) && (s.dev.flag F.thmCfg_auto_restart || s.dev.therm.restarting)) = true := by
      simp [hcool, hdie, hauto]
    rw [if_pos hgo]
    obtain ⟨h1, _, h3, _, _, h6, _, _, h9, h10, h11⟩ := coldStart_starts (d := s.dev) hotp hrom
    rw [hcool] at h9 h10 h11
    exact ⟨h1, h3, h9, h10, h11, h6⟩
  case sram =>
    intro s hwipe hstage
    obtain ⟨hmem, h1, h2, h3⟩ := sramWipeDone_boot s.mem hwipe hstage
    refine ⟨(sramWipeDone s.dev s.mem).1, ?_, h1, h2, h3⟩
    rw [← hmem]
    rfl
  case dram =>
    intro s hwipe hstage ms
    obtain ⟨hmem, h1, h2⟩ := dramWipeDone_boot ms s.mem hwipe hstage
    refine ⟨(dramWipeDone ms s.dev s.mem).1, ?_, h1, h2⟩
    rw [← hmem]
    rfl
  case stop =>
    intro s hwipe hdram hstop hstage
    obtain ⟨hmem, h1⟩ := sramWipeDone_stop s.mem hwipe hdram hstop hstage
    refine ⟨(sramWipeDone s.dev s.mem).1, ?_, h1⟩
    rw [← hmem]
    rfl
  case boot =>
    intro s ms hstage
    obtain ⟨h1, h2, h3, hports⟩ := bootDone_starts ms hstage
    refine brings_of_run (g := bootDone ms) rfl ⟨h1, h2, h3, fun h hused hperst hlost hloop => ?_⟩
    rw [hports h hused hperst hlost hloop]
    exact ⟨rfl, rfl, rfl⟩

end Sys2Proof.Machine
end

section
/-! PROOF. What discarding work may change of the host's state. -/
namespace Sys2Proof.Machine

theorem hkeep_discardCtx {ft : Nat} (hft : inFoot leaveTableHost ft = true) (d : Dev) (id : Nat) : hkeep ft (discardCtx d id) =
    hkeep ft d :=
  hkeep_mono hft (by simp +decide only [discardCtx]; split <;> simp +decide only [↓hkeep_dropWork,
    ↓hkeep_leaveTable])

theorem hkeep_restoreCell {ft : Nat} (hft : inFoot updExtentsHost ft = true) (d : Dev) (nsid : Nat) (c : BufCell) : hkeep ft
    (restoreCell d nsid c) = hkeep ft d :=
  hkeep_mono hft (by simp +decide only [restoreCell]; split <;> simp +decide only
    [↓hkeep_updExtents, ↓hkeep_ite, ite_self])

def rearmReadsHost : Nat := hostFoot [.ctxs]
theorem hkeep_rearmReads {ft : Nat} (hft : inFoot rearmReadsHost ft = true) (d : Dev) : hkeep ft (rearmReads d) = hkeep ft d :=
  hkeep_mono hft (by simp +decide only [rearmReads, ↓hkeep_updHost, hmask, if_true, implies_true])

def discardDataHost : Nat := hostFoot [.ctxs, .extents, .tasks]
theorem hkeep_discardData {ft : Nat} (hft : inFoot discardDataHost ft = true) (d : Dev) (wid : Nat) : hkeep ft (discardData d
    wid) = hkeep ft d :=
  hkeep_mono hft (by simp (disch := (intros; simp +decide only [↓hkeep_updHost, hmask, if_true, implies_true, ↓hkeep_restoreCell, ↓hkeep_rearmReads, ↓hkeep_forEach,
    implies_true])) only [discardData, ↓hkeep_updHost, ↓hkeep_rearmReads, ↓hkeep_forEach])

theorem hkeep_setPtr {ft : Nat} (hft : inFoot updNsHost ft = true) (d : Dev) (nsid zi wp : Nat) : hkeep ft (setPtr d nsid zi wp)
    = hkeep ft d :=
  hkeep_mono hft (by simp +decide only [setPtr]; split <;> simp +decide only [↓hkeep_updZone])

def replaceAppendHost : Nat := hostFoot [.ctxs, .extents, .nss]
theorem hkeep_replaceAppend {ft : Nat} (hft : inFoot replaceAppendHost ft = true) (d : Dev) (y : Ctx) (zi zs : Nat) : hkeep ft
    (replaceAppend d y zi zs) = hkeep ft d := by
  refine hkeep_mono hft ?_
  unfold replaceAppend
  split
  · rfl
  · split
    · rfl
    · simp +decide only [↓hkeep_updExtents, ↓hkeep_updCtx, ↓hkeep_setPtr]

def restorePtrHost : Nat := hostFoot [.ctxs, .order, .extents, .held, .parity, .tasks, .nss]
theorem hkeep_restorePtr {ft : Nat} (hft : inFoot restorePtrHost ft = true) (d : Dev) (x : Ctx) : hkeep ft (restorePtr d x) =
    hkeep ft d :=
  hkeep_mono hft (by simp +decide only [restorePtr]; split <;> simp +decide only [↓hkeep_finish,
    ↓hkeep_discardData, ↓hkeep_refreshParity, ↓hkeep_setPtr, ↓hkeep_replaceAppend, ↓hkeep_forEach, ↓hkeep_ite, ite_self,
    implies_true])

theorem hkeep_undoContext {ft : Nat} (d : Dev) (x : Ctx) : hkeep ft (undoContext d x) = hkeep ft d :=
  hkeep_of_keep (keep_undoContext (ft := undoContextFoot) (by decide) d x) (by decide) ft

theorem hkeep_discardWrite {ft : Nat} (hft : inFoot restorePtrHost ft = true) (d : Dev) (id : Nat) : hkeep ft (discardWrite d
    id) = hkeep ft d :=
  hkeep_mono hft (by simp +decide only [discardWrite]; split <;> simp +decide only [↓hkeep_discardCtx, ↓hkeep_discardData, ↓hkeep_restorePtr, ↓hkeep_undoContext,
    ↓hkeep_ite, ite_self])

theorem hkeep_abortAll {ft : Nat} (d : Dev) : hkeep ft (abortAll d) = hkeep ft d :=
  hkeep_of_keep (keep_abortAll (ft := seqStopFoot) (by decide) d) (by decide) ft

theorem hkeep_dropTasks {ft : Nat} (hft : inFoot updTasksHost ft = true) (d : Dev) : hkeep ft (dropTasks d) = hkeep ft d :=
  hkeep_mono hft (by simp +decide only [dropTasks, ↓hkeep_updTasks, ↓hkeep_abortAll])

def stopFetchHost : Nat := hostFoot [.stops]
theorem hkeep_stopFetch {ft : Nat} (hft : inFoot stopFetchHost ft = true) (d : Dev) (r : Nat) : hkeep ft (stopFetch d r) = hkeep
    ft d :=
  hkeep_mono hft (by simp +decide only [stopFetch, ↓hkeep_updHost, hmask, if_true, implies_true])

theorem hkeep_portDown {ft : Nat} (d : Dev) (p cause : Nat) : hkeep ft (portDown d p cause) = hkeep ft d :=
  hkeep_of_keep (keep_portDown (ft := portDownFoot) (by decide) d p cause) (by decide) ft

theorem hkeep_cardEpoch {ft : Nat} (d : Dev) (i n : Nat) : hkeep ft (cardEpoch d i n) = hkeep ft d :=
  hkeep_of_keep (keep_cardEpoch (ft := cardEpochFoot) (by decide) d i n) (by decide) ft

theorem hkeep_hostLinkDown {ft : Nat} (hft : inFoot updPortHost ft = true) (d : Dev) (h : Nat) : hkeep ft (hostLinkDown d h) =
    hkeep ft d :=
  hkeep_mono hft (by simp +decide only [hostLinkDown, ↓hkeep_cardEpoch, ↓hkeep_updPort, ↓hkeep_ite, ite_self])

theorem hkeep_linksDown {ft : Nat} (hft : inFoot updPortHost ft = true) (d : Dev) (cause : Nat) : hkeep ft (linksDown d cause) =
    hkeep ft d :=
  hkeep_mono hft (by simp +decide only [linksDown, ↓hkeep_portDown, ↓hkeep_hostLinkDown, ↓hkeep_forEach, implies_true])

end Sys2Proof.Machine
end

section
/-! PROOF. Resets, enabling and shutdown (R71, R91-R94, R376, R440). -/
namespace Sys2Proof.Machine

/-! ### The ports under work that is dropped -/

theorem port_of_ports {d e : Dev} (hp : e.host.ports = d.host.ports) (h : Nat) : e.port h = d.port h := by rw [Dev.port, hp, ← Dev.port]

/-- An update of ports that leaves a property of each leaves it of all. -/
theorem port_updPort_of {α : Type} {p : Port → α} {g : Port → Port} (hg : ∀ x, p (g x) = p x) (d : Dev) (k h : Nat) :
    p ((d.updPort k g).port h) = p (d.port h) := by
  rw [Dev.updPort_port]
  split
  next heq => rw [hg, heq]
  next => rfl

/-- Whether a port's link is up and the port enabled. -/
def linkView (p : Port) : Bool × Bool := (p.linkUp, p.enabled)

/-- What dropping the work in flight may change of the host's state before it empties the ports' admin contexts. -/
def dropHost : Nat := discardDataHost ||| restorePtrHost

theorem dropInFlight_linkView (d : Dev) (h : Nat) : linkView ((dropInFlight d).port h) = linkView (d.port h) := by
  unfold dropInFlight
  extract_lets ids e1 e2 c e3
  have he1 : hkeep dropHost e1 = hkeep dropHost d := by
    refine hkeep_forEach _ _ _ fun d id => ?_
    split
    · split
      · split
        · simp +decide only [↓hkeep_discardCtx, ↓hkeep_discardData, ↓hkeep_setPtr, ↓hkeep_forEach, implies_true]
        · rfl
      · rfl
    · rfl
  have he3 : hkeep dropHost (syncHost e3) = hkeep dropHost d := by
    rw [← he1]
    simp +decide only [e3, e2, ↓hkeep_syncHost, ↓hkeep_part_chain, ↓hkeep_discardCtx, ↓hkeep_forEach, implies_true]
  have hports := port_of_ports (ports_of_hkeep he3 (by decide)) h
  refine (forEach_keeps (p := fun e => linkView (e.port h)) (fun e k _ => ?_) (syncHost e3)).trans (congrArg linkView hports)
  exact port_updPort_of (p := linkView) (g := fun p => { p with adminUsed := 0, aers := [], cur := none }) (by exact fun _ => rfl) e k h

theorem hostLinkDown_down {d : Dev} {h : Nat} (k : Nat) (hdown : k = h ∨ linkView (d.port h) = (false, false)) :
    linkView ((hostLinkDown d k).port h) = (false, false) := by
  rcases hdown with rfl | hdown
  · rw [linkView, (hostLinkDown_port d k).1, (hostLinkDown_port d k).2]
  · by_cases hk : h = k
    · subst hk
      rw [linkView, (hostLinkDown_port d h).1, (hostLinkDown_port d h).2]
    · rw [← hdown]
      unfold hostLinkDown
      rw [Dev.updPort_port, if_neg hk]
      split <;> rfl

theorem linksDown_down (d : Dev) (cause : Nat) (h : HstId) : linkView ((linksDown d cause).port h.val) = (false, false) := by
  unfold linksDown
  extract_lets d1
  have hmem : h.val ∈ [0, 1] := by
    have : h.val = 0 ∨ h.val = 1 := by have := h.isLt; omega
    simpa using this
  have hdown : linkView (d1.port h.val) = (false, false) :=
    forEach_reaches (P := fun e => linkView (e.port h.val) = (false, false)) (g := hostLinkDown) hmem (fun _ => hostLinkDown_down _ (.inl rfl))
      (fun _ k _ he => hostLinkDown_down k (.inr he)) d
  have hlml : hkeep 0 (forEach ((List.range 4).filter (lmlUsed d1)) d1 fun d p => portDown d p cause) = hkeep 0 d1 :=
    hkeep_forEach d1 _ _ fun e p => hkeep_portDown e p cause
  rw [port_of_ports (ports_of_hkeep hlml (by decide)), hdown]

/-! ### PERST_N and the resets of a controller -/

theorem perstDeassert_trains {d : Dev} {h : HstId} (w g : Nat) : (perstDeassert h.val w g d).bit F.glbPins_perst_n h.val = true ∧
    (d.rd F.pwrCs_state ≠ 2 → hostUsed d h.val = true → d.flag F.glbStart_boot_done = true → d.reset.lost = [] → d.rd F.loop_depth h.val = 0 →
      (perstDeassert h.val w g d).port h.val = linkTrained d h.val { d.port h.val with offer := (w, g) }) := by
  unfold perstDeassert
  have hwake := keep_wakeCs2 (ft := wakeCs2Foot) (by decide) (d.setBit F.glbPins_perst_n h.val true)
  have hpin : (d.setBit F.glbPins_perst_n h.val true).bit F.glbPins_perst_n h.val = true :=
    Dev.bit_setBit_same d F.glbPins_perst_n h.val true 0 0 h.isLt
  refine ⟨?_, fun hawake hused hboot hlost hloop => ?_⟩
  · rw [Dev.bit, hostTrain_rd, Dev.updPort_rd, rd_of_keep hwake (by decide), ← Dev.bit, hpin]
  · have hrd (f : Fld) (hf : F.glbPins_perst_n.id ≠ f.id) (i j : Nat) : (d.setBit F.glbPins_perst_n h.val true).rd f i j = d.rd f i j :=
      Dev.rd_setBit_ne _ _ _ _ _ _ _ _ _ hf
    have hstays : wakeCs2 (d.setBit F.glbPins_perst_n h.val true) = d.setBit F.glbPins_perst_n h.val true := by
      have : ¬ (d.setBit F.glbPins_perst_n h.val true).rd F.pwrCs_state = 2 := by
        rw [hrd _ (by decide)]
        exact hawake
      exact if_neg this
    have htrain := hostTrain_trains (d := (d.setBit F.glbPins_perst_n h.val true).updPort h.val fun p => { p with offer := (w, g) }) (h := h)
      hused hpin (by rw [Dev.flag, Dev.updPort_rd, hrd _ (by decide), ← Dev.flag, hboot]) (by show d.reset.lost.contains (.hst h) = false; rw [hlost]; rfl)
      (by rw [Dev.updPort_rd, hrd _ (by decide), hloop])
    rw [hstays, htrain, Dev.updPort_port, if_pos rfl, Dev.updPort_port, if_pos rfl]
    rfl

/-- A controller reset up to its port's new state (R94). -/
def resetHead (h : Nat) (byPerst : Bool) (d : Dev) : Dev :=
  let d := wakeCs2 d
  let d := forEach ((d.host.ctxs.filter fun x => ofPort h x && !begunNow d x).map (·.id)).reverse d discardWrite
  let d := d.updHost fun s => { s with ctxs := listMapIf (ofPort h) (fun x => { x with org := .gone }) s.ctxs }
  if byPerst && (d.port h).linkUp then cardEpoch d (44 + h) 1 else d

theorem resetHead_keeps (h : Nat) (byPerst : Bool) (d : Dev) : (∀ x ∈ (resetHead h byPerst d).host.ctxs, ofPort h x = false) ∧
    (resetHead h byPerst d).host.ports = d.host.ports := by
  unfold resetHead
  extract_lets d1 d2 d3
  have h2 : hkeep restorePtrHost d2 = hkeep restorePtrHost d := by
    have hwake : hkeep restorePtrHost d1 = hkeep restorePtrHost d := hkeep_of_keep (keep_wakeCs2 (ft := wakeCs2Foot) (by decide) d) (by decide) _
    rw [← hwake]
    exact hkeep_forEach d1 _ _ fun e k => hkeep_discardWrite (by decide) e k
  have h3 : ∀ x ∈ d3.host.ctxs, ofPort h x = false := by
    intro x hx
    obtain ⟨y, _, rfl⟩ := List.mem_map.1 hx
    split
    · rfl
    next hy => simpa using hy
  have hports : d3.host.ports = d.host.ports := ports_of_hkeep h2 (by decide)
  clear_value d3
  split
  · rw [host_of_keep (keep_cardEpoch (ft := cardEpochFoot) (by decide) d3 (44 + h) 1) (by decide)]
    exact ⟨h3, hports⟩
  · exact ⟨h3, hports⟩

/-- What a controller reset leaves of its port. -/
def portReset (byPerst : Bool) (p : Port) : Port :=
  { linkUp := p.linkUp && !byPerst, offer := p.offer, width := if byPerst then 0 else p.width, gen := if byPerst then 0 else p.gen }

theorem controllerReset_resets (h : Nat) (byPerst : Bool) (d : Dev) :
    (∀ k, (controllerReset h byPerst d).port k = if k = h then portReset byPerst (d.port h) else d.port k) ∧
      (byPerst = true → (controllerReset h byPerst d).bit F.glbPins_perst_n h = false) ∧
      (∀ x ∈ (controllerReset h byPerst d).host.ctxs, ofPort h x = false) ∧ (controllerReset h byPerst d).fw.staging = [] ∧
      (controllerReset h byPerst d).struct.stagingOwner ≠ some h := by
  unfold controllerReset
  extract_lets d1 d2 d3 d4 d5 d6 d7 st d8 fw sec cph d9
  obtain ⟨hctxs4, hports4⟩ : (∀ x ∈ d4.host.ctxs, ofPort h x = false) ∧ d4.host.ports = d.host.ports := resetHead_keeps h byPerst d
  clear_value d4
  have hport5 (k : Nat) : d5.port k = if k = h then portReset byPerst (d.port h) else d.port k := by
    rw [show d5 = _ from rfl, Dev.updPort_port, port_of_ports hports4, port_of_ports hports4]
    rfl
  have hctxs5 : d5.host.ctxs = d4.host.ctxs := rfl
  clear_value d5
  have hhost6 : d6.host = d5.host := by
    simp only [d6]
    split <;> rfl
  have hpin6 : byPerst = true → d6.bit F.glbPins_perst_n h = false := by
    intro hb
    simp only [d6, if_pos hb]
    exact Dev.bit_setBit_false ..
  clear_value d6
  have hpin7 : d7.bit F.glbPins_perst_n h = d6.bit F.glbPins_perst_n h := by
    rw [Dev.bit, show d7 = _ from rfl, Dev.rd_setFlag_ne _ _ _ _ _ _ _ _ (by decide), ← Dev.bit]
  have hhost7 : d7.host = d6.host := rfl
  clear_value d7
  have h8 : d8.host = d7.host ∧ d8.bit F.glbPins_perst_n h = d7.bit F.glbPins_perst_n h ∧ d8.struct.stagingOwner ≠ some h := by
    simp only [d8]
    split
    next howner =>
      split
      · exact ⟨rfl, Dev.bit_wr_ne _ _ _ _ _ _ _ _ _ (by decide), by exact fun h => nomatch h⟩
      · exact ⟨rfl, rfl, by exact fun h => nomatch h⟩
    next howner => exact ⟨rfl, rfl, howner⟩
  clear_value d8
  obtain ⟨hhost8, hpin8, howner8⟩ := h8
  have hlast := keep_syncHost (ft := syncHostFoot) (by decide) d9
  have hhost : (syncHost d9).host = d5.host := by
    rw [host_of_keep hlast (by decide), show d9.host = d8.host from rfl, hhost8, hhost7, hhost6]
  refine ⟨fun k => ?_, fun hb => ?_, ?_, ?_, ?_⟩
  · rw [Dev.port, hhost, ← Dev.port, hport5]
  · rw [Dev.bit, rd_of_keep hlast (by decide), ← Dev.bit, show d9.bit F.glbPins_perst_n h = d8.bit F.glbPins_perst_n h from rfl, hpin8, hpin7, hpin6 hb]
  · rw [hhost, hctxs5]
    exact hctxs4
  · rw [fw_of_keep hlast (by decide)]
  · rw [struct_of_keep hlast (by decide)]
    exact howner8

/-- A port neither enabled nor ready. -/
def portOff (h : Nat) (d : Dev) : Prop := (d.port h).enabled = false ∧ (d.port h).ready = false

theorem controllerReset_off {d : Dev} {h : Nat} (k : Nat) (hoff : k = h ∨ portOff h d) : portOff h (controllerReset k false d) := by
  rw [portOff, (controllerReset_resets k false d).1 h]
  split
  · exact ⟨rfl, rfl⟩
  next hne => exact hoff.resolve_left fun e => hne e.symm

/-! ### Ready -/

theorem postNotice_ready (d : Dev) (k notice h : Nat) : ((postNotice d k notice).port h).ready = (d.port h).ready := by
  unfold postNotice
  split
  next cid rest _ =>
    rw [port_of_ports (congrArg HostState.ports (host_of_keep (keep_syncHost (ft := syncHostFoot) (by decide) _) (by decide)))]
    exact port_updPort_of (p := Port.ready) (g := fun p => { p with aers := rest, adminUsed := p.adminUsed - 1 }) (by exact fun _ => rfl) d k h
  next =>
    exact port_updPort_of (p := Port.ready) (g := fun p => { p with notices := if p.notices.contains notice then p.notices else p.notices ++ [notice] })
      (by exact fun _ => rfl) d k h

theorem noticeOutstanding_ready (d : Dev) (notice h : Nat) : ((noticeOutstanding d notice).port h).ready = (d.port h).ready := by
  refine forEach_keeps (p := fun e => (e.port h).ready) (fun e k _ => ?_) d
  split
  · rfl
  · exact postNotice_ready e k notice h

theorem controllerReady_readies {d : Dev} {h : Nat} (hen : (d.port h).enabled = true) (hact : d.rd F.glbStructStat_activate < 2) :
    ((controllerReady h d).port h).ready = true ∧ (controllerReady h d).card.told = true ∧
      (d.card.told = true → controllerReady h d = d.updPort h fun p => { p with ready := true }) := by
  have hgo : ((d.port h).enabled && decide (d.rd F.glbStructStat_activate < 2)) = true := by simp [hen, hact]
  have hready : ((d.updPort h fun p => { p with ready := true }).port h).ready = true := by rw [Dev.updPort_port, if_pos rfl]
  have htold' : (d.updPort h fun p => { p with ready := true }).card.told = d.card.told := rfl
  rw [controllerReady, if_pos hgo]
  extract_lets d1
  by_cases htold : d.card.told = true
  · rw [if_pos (htold'.trans htold)]
    exact ⟨hready, htold'.trans htold, fun _ => rfl⟩
  · rw [if_neg (by rw [htold']; exact htold), noticeOutstanding_ready,
      card_of_keep (keep_noticeOutstanding (ft := postNoticeFoot) (by decide) _ ntTelemetry) (by decide)]
    exact ⟨hready, rfl, fun h => absurd h htold⟩

/-! ### An orderly reset -/

theorem beginStop_begins (d : Dev) (thermal : Bool) (pm : Option Nat) (h : HstId) :
    (beginStop d thermal pm).reset.stage = 3 ∧ (beginStop d thermal pm).reset.thermal = thermal ∧
      (beginStop d thermal pm).rd F.glbPins_sys_rst_n = d.rd F.glbPins_sys_rst_n ∧
      ((beginStop d thermal pm).port h.val).linkUp = false ∧ ((beginStop d thermal pm).port h.val).enabled = false := by
  unfold beginStop
  extract_lets d1 d2 d3 d4 d5
  have hdown3 : linkView (d3.port h.val) = (false, false) := linksDown_down d2 4 h
  have hdown4 : linkView (d4.port h.val) = (false, false) := (dropInFlight_linkView d3 h.val).trans hdown3
  have hports5 : d5.host.ports = d4.host.ports := by
    rw [host_of_keep (keep_dropActivation (ft := dropActivationFoot) (by decide) _) (by decide),
      host_of_keep (keep_cancelCals (ft := cancelCalsFoot) (by decide) _) (by decide),
      ports_of_hkeep (hkeep_dropTasks (ft := updTasksHost) (by decide) d4) (by decide)]
  have hdown5 : linkView (d5.port h.val) = (false, false) := by rw [port_of_ports hports5, hdown4]
  have hkeep5 : keep (beginStopFoot ||| footOf [.reset] []) d5 = keep (beginStopFoot ||| footOf [.reset] []) d := by
    simp +decide only [d5, d4, d3, d2, d1, ↓keep_dropActivation, ↓keep_cancelCals, ↓keep_dropTasks, ↓keep_dropInFlight, ↓keep_linksDown,
      ↓keep_stopFetch, ↓keep_endLoops, ↓keep_stopCheckpoint, ↓keep_wakeCs2]
  clear_value d5
  simp only [linkView, Prod.mk.injEq] at hdown5
  exact ⟨rfl, rfl, (Dev.updReset_rd ..).trans (rd_of_keep hkeep5 (by decide) 0 0), hdown5.1, hdown5.2⟩

theorem orderlyReset_running {d : Dev} (hcool : d.reset.waitCool = false) (hheld : d.reset.held = false) (hstop : stopping d = false)
    (hstage : d.rd F.glbStart_stage = 8) : orderlyReset d = beginStop (d.setFlag F.glbPins_sys_rst_n false) false none := by
  have hrd (f : Fld) (hf : F.glbPins_sys_rst_n.id ≠ f.id) : (d.setFlag F.glbPins_sys_rst_n false).rd f = d.rd f :=
    Dev.rd_setFlag_ne _ _ _ _ _ _ _ _ hf
  have h1 : ¬ (d.setFlag F.glbPins_sys_rst_n false).reset.waitCool = true := by
    show ¬ d.reset.waitCool = true
    simp [hcool]
  have h2 : ¬ (d.setFlag F.glbPins_sys_rst_n false).reset.held = true := by
    show ¬ d.reset.held = true
    simp [hheld]
  have h3 : ¬ stopping (d.setFlag F.glbPins_sys_rst_n false) = true := by
    rw [stopping, hrd _ (by decide)]
    show ¬ stopping d = true
    simp [hstop]
  have h4 : ¬ (d.setFlag F.glbPins_sys_rst_n false).rd F.glbStart_stage < 8 := by
    rw [hrd _ (by decide), hstage]
    decide
  exact (if_neg h1).trans ((if_neg h2).trans ((if_neg h3).trans (if_neg h4)))

theorem stopFlushed_ends {d : Dev} (u : List Nat) (hstage : d.reset.stage = 3) :
    (d.reset.thermal = false → (stopFlushed u d).reset.stage = 5 ∧ (stopFlushed u d).reset.wipeSram = true ∧
      (stopFlushed u d).reset.wipeDram = true ∧ (stopFlushed u d).rd F.memWipe_state = 1) ∧
    (d.reset.thermal = true → (stopFlushed u d).reset.stage = 0 ∧ (stopFlushed u d).reset.waitCool = true) := by
  have hgo : ¬ d.reset.stage ≠ 3 := by simp [hstage]
  rw [stopFlushed, if_neg hgo]
  extract_lets d1 d2
  have hthermal1 : d1.reset.thermal = d.reset.thermal := by
    refine forEach_keeps (p := fun e => e.reset.thermal) (fun e n _ => ?_) d
    obtain ⟨a, b, h⟩ := flushLocker_reset e n
      (if decide (e.rd F.pwrHs_state 0 n ≤ 2) then (coveredBlks e n).length + otherUnits e n + u.getD n 0 else 0)
    rw [h]
  have hkeep2 : keep (coastSpinFoot ||| unloadHeadsFoot) d2 = keep (coastSpinFoot ||| unloadHeadsFoot) d1 := by
    simp +decide only [d2, ↓keep_forEach, ↓keep_coastSpin, ↓keep_ite, ↓keep_unloadHeads, ite_self, implies_true]
  have hthermal2 : d2.reset.thermal = d.reset.thermal := by rw [reset_of_keep hkeep2 (by decide), hthermal1]
  clear_value d2
  refine ⟨fun h => ?_, fun h => ?_⟩
  · rw [if_neg (by rw [hthermal2, h]; decide)]
    exact ⟨rfl, rfl, rfl, Dev.rd_wr_lt d2 F.memWipe_state 1 0 0 (by decide)⟩
  · rw [if_pos (by rw [hthermal2, h])]
    exact ⟨rfl, rfl⟩

/-- Settles O27: a lemma per row. -/
theorem resetRowsComplete : Obligations.ResetRowsComplete := by
  unfold Obligations.ResetRowsComplete
  refine ⟨?perst, ?reset, ?subsystem, ?enable, ?ready, ?notify, ?complete, ?orderly, ?restart, ?wipes, ?cool⟩
  case perst =>
    intro s h w g
    obtain ⟨hpin, htrain⟩ := perstDeassert_trains (d := s.dev) (h := h) w g
    refine brings_of_run (g := perstDeassert h.val w g) rfl ⟨hpin, fun hawake hused hboot hlost hloop => ?_⟩
    rw [htrain hawake hused hboot hlost hloop]
    exact ⟨rfl, rfl, rfl⟩
  case reset =>
    intro s h byPerst
    obtain ⟨hport, hpin, hctxs, hstaging, howner⟩ := controllerReset_resets h.val byPerst s.dev
    refine brings_of_run (g := controllerReset h.val byPerst) rfl ?_
    rw [hport, if_pos rfl]
    refine ⟨rfl, rfl, fun hb => ⟨?_, hpin hb⟩, fun hb => ?_, hctxs, hstaging, howner⟩
    · simp [portReset, hb]
    · simp [portReset, hb]
  case subsystem =>
    intro s
    refine brings_of_run (g := fun d => forEach [0, 1] d fun d h => controllerReset h false d) rfl fun h => ?_
    have hmem : h.val ∈ [0, 1] := by
      have : h.val = 0 ∨ h.val = 1 := by have := h.isLt; omega
      simpa using this
    exact forEach_reaches (P := portOff h.val) (g := fun d h => controllerReset h false d) hmem (fun _ => controllerReset_off _ (.inl rfl))
      (fun _ k _ he => controllerReset_off k (.inr he)) s.dev
  case enable =>
    intro s h hused hlink
    refine gives_of_run rfl ?_
    rw [hused, hlink]
    rfl
  case ready =>
    intro s h hen hact
    exact brings_of_run (g := controllerReady h.val) rfl (controllerReady_readies hen hact)
  case notify =>
    intro s h abrupt hen
    refine gives_of_run rfl ?_
    rw [if_pos hen]
  case complete =>
    intro s h hshst hclean
    refine gives_of_run rfl ?_
    rw [if_pos (by simp [hshst, hclean])]
  case orderly =>
    intro s hcool hheld hstop hstage
    refine brings_of_run (g := orderlyReset) rfl ?_
    rw [orderlyReset_running hcool hheld hstop hstage]
    have hbegin (h : HstId) := beginStop_begins (s.dev.setFlag F.glbPins_sys_rst_n false) false none h
    obtain ⟨h1, h2, h3, _⟩ := hbegin 0
    refine ⟨h1, h2, ?_, fun h => (hbegin h).2.2.2⟩
    rw [Dev.flag, h3]
    exact Dev.flag_setFlag s.dev F.glbPins_sys_rst_n false 0 0 (by decide)
  case restart =>
    intro s hcool
    refine brings_of_run (g := orderlyReset) rfl ?_
    have hw : (s.dev.setFlag F.glbPins_sys_rst_n false).reset.waitCool = true := hcool
    have hrun : orderlyReset s.dev = { s.dev.setFlag F.glbPins_sys_rst_n false with
        therm := { (s.dev.setFlag F.glbPins_sys_rst_n false).therm with restarting := true } } := if_pos hw
    rw [hrun]
    exact ⟨rfl, Dev.flag_setFlag s.dev F.glbPins_sys_rst_n false 0 0 (by decide), rfl⟩
  case wipes =>
    intro s u hstage hthermal
    exact brings_of_run (g := stopFlushed u) rfl ((stopFlushed_ends u hstage).1 hthermal)
  case cool =>
    intro s u hstage hthermal
    exact brings_of_run (g := stopFlushed u) rfl ((stopFlushed_ends u hstage).2 hthermal)

end Sys2Proof.Machine
end

section
/-! PROOF. Power states (R352-R366). -/
namespace Sys2Proof.Machine

/-! ### The states of the domains -/

theorem domState_setDom (d : Dev) {k j v : Nat} (hk : k < 23) (hj : j < 23) (hv : v < 4) :
    domState (setDom d k v) j = if j = k ∧ domState d k ≠ 2 then v else domState d j := by
  unfold setDom
  split
  next h => simp [h]
  next h =>
    have hj' : j % 1024 = j := Nat.mod_eq_of_lt (by omega)
    have hk' : k % 1024 = k := Nat.mod_eq_of_lt (by omega)
    rw [domState, Dev.rd_wr_self, Nat.mod_eq_of_lt (show v < 2 ^ F.pwrDom_dom.w from hv), hj', hk']
    by_cases hjk : j = k
    · rw [if_pos ⟨rfl, hjk⟩, if_pos ⟨hjk, h⟩]
    · rw [if_neg fun e => hjk e.2, if_neg fun e => hjk e.1, domState]

/-- A list of domains that is set to one state, but for those that are off. -/
theorem domState_setAll {l : List Nat} (hl : ∀ k ∈ l, k < 23) {j v : Nat} (hj : j < 23) (hv : v < 4) (d : Dev) :
    domState (forEach l d fun d k => setDom d k v) j = if j ∈ l ∧ domState d j ≠ 2 then v else domState d j := by
  induction l generalizing d with
  | nil => simp [forEach]
  | cons k l ih =>
    have hstep : domState (forEach (k :: l) d fun d k => setDom d k v) j = domState (forEach l (setDom d k v) fun d k => setDom d k v) j := rfl
    rw [hstep, ih (fun x hx => hl x (by simp [hx])), domState_setDom d (hl k (by simp)) hj hv]
    by_cases hjk : j = k
    · subst hjk
      by_cases h2 : domState d j = 2 <;> simp [h2]
    · by_cases hm : j ∈ l <;> simp [hjk, hm]

theorem enterCs2_enters (d : Dev) : (enterCs2 d).rd F.pwrCs_state = 2 ∧ (enterCs2 d).rd F.pwrCs_target = 2 ∧
    domState (enterCs2 d) 0 = domState d 0 ∧ ∀ k, 1 ≤ k → k < 23 → domState (enterCs2 d) k = if domState d k = 2 then 2 else 1 := by
  unfold enterCs2
  have hkeep := keep_forEach (m := setDomFoot) ((d.wr F.pwrCs_state 2).wr F.pwrCs_target 2) ((List.range 23).drop 1)
    (fun d k => setDom d k 1) (fun e k => keep_setDom (by decide) e k 1)
  have hdom (j : Nat) : domState ((d.wr F.pwrCs_state 2).wr F.pwrCs_target 2) j = domState d j := by
    simp +decide only [domState, Dev.rd_wr_ne, ne_eq]
  have hall (j : Nat) (hj : j < 23) := domState_setAll (l := (List.range 23).drop 1) (by decide) hj (v := 1) (by decide)
    ((d.wr F.pwrCs_state 2).wr F.pwrCs_target 2)
  generalize forEach _ _ (fun d k => setDom d k 1) = e at *
  refine ⟨?_, ?_, ?_, fun k hk1 hk => ?_⟩
  · rw [rd_of_keep hkeep (by decide), Dev.rd_wr_ne _ _ _ _ _ _ _ _ (by decide)]
    exact Dev.rd_wr_lt d F.pwrCs_state 2 0 0 (by decide)
  · rw [rd_of_keep hkeep (by decide)]
    exact Dev.rd_wr_lt _ F.pwrCs_target 2 0 0 (by decide)
  · rw [hall 0 (by decide), if_neg fun h => absurd h.1 (by decide), hdom]
  · have hmem : k ∈ (List.range 23).drop 1 := by interval_cases k <;> decide
    rw [hall k hk, hdom]
    by_cases h2 : domState d k = 2
    · rw [if_neg fun h => h.2 h2, if_pos h2, h2]
    · rw [if_pos ⟨hmem, h2⟩, if_neg h2]

theorem leaveCs2_leaves (d : Dev) : (leaveCs2 d).rd F.pwrCs_state = 1 ∧ (leaveCs2 d).rd F.pwrCs_target = 1 ∧
    (∀ k, 1 ≤ k → k ≤ 10 → domState d k ≠ 2 → domState (leaveCs2 d) k = 0) ∧
    (∀ k, 11 ≤ k → k < 23 → domState (leaveCs2 d) k = domState d k) := by
  unfold leaveCs2
  have hkeep := keep_forEach (m := setDomFoot) ((d.wr F.pwrCs_state 1).wr F.pwrCs_target 1) [1, 2, 3, 4, 5, 6, 7, 8, 9, 10]
    (fun d k => setDom d k 0) (fun e k => keep_setDom (by decide) e k 0)
  have hdom (j : Nat) : domState ((d.wr F.pwrCs_state 1).wr F.pwrCs_target 1) j = domState d j := by
    simp +decide only [domState, Dev.rd_wr_ne, ne_eq]
  have hall (j : Nat) (hj : j < 23) := domState_setAll (l := [1, 2, 3, 4, 5, 6, 7, 8, 9, 10]) (by decide) hj (v := 0) (by decide)
    ((d.wr F.pwrCs_state 1).wr F.pwrCs_target 1)
  generalize forEach _ _ (fun d k => setDom d k 0) = e at *
  refine ⟨?_, ?_, fun k h1 h10 h2 => ?_, fun k h11 h23 => ?_⟩
  · rw [rd_of_keep hkeep (by decide), Dev.rd_wr_ne _ _ _ _ _ _ _ _ (by decide)]
    exact Dev.rd_wr_lt d F.pwrCs_state 1 0 0 (by decide)
  · rw [rd_of_keep hkeep (by decide)]
    exact Dev.rd_wr_lt _ F.pwrCs_target 1 0 0 (by decide)
  · have hmem : k ∈ [1, 2, 3, 4, 5, 6, 7, 8, 9, 10] := by interval_cases k <;> decide
    rw [hall k (by omega), hdom, if_pos ⟨hmem, h2⟩]
  · have hmem : k ∉ [1, 2, 3, 4, 5, 6, 7, 8, 9, 10] := by interval_cases k <;> decide
    rw [hall k h23, hdom, if_neg fun h => hmem h.1]

/-! ### The evaluation of the target -/

theorem presentHdas_syncVotes (d : Dev) : presentHdas (syncVotes d) = presentHdas d :=
  presentHdas_of_struct (struct_of_keep (keep_syncVotes (ft := syncVotesFoot) (by decide) d) (by decide))

/-- The target as the choice that the chip makes (R358, R359). -/
theorem targetEvaluate_eq {d e b : Dev} (deep : List Nat) (he : e = forEach (presentHdas d) (syncVotes d) evaluateHda)
    (hb : b = e.wr F.pwrCs_cs2_block (cs2Block e)) :
    targetEvaluate deep d = if e.rd F.pwrCs_state ≠ 2 ∧ cs2Ok b deep = true then enterCs2 b
      else if e.rd F.pwrCs_state = 1 ∧ cs1Ok b = false then (b.wr F.pwrCs_state 0).wr F.pwrCs_target 0
      else b.wr F.pwrCs_target (if cs1Ok b then max 1 (e.rd F.pwrCs_state) else e.rd F.pwrCs_state) := by
  have hstate : b.rd F.pwrCs_state = e.rd F.pwrCs_state := by
    rw [hb]
    exact Dev.rd_wr_ne _ _ _ _ _ _ _ _ (by decide)
  unfold targetEvaluate
  extract_lets d1 d2 d3
  have h2 : d2 = e := by
    rw [he, ← presentHdas_syncVotes]
  have h3 : d3 = b := by rw [hb, show d3 = d2.wr F.pwrCs_cs2_block (cs2Block d2) from rfl, h2]
  rw [h3, hstate]
  simp

/-! ### A step from HS0 to HS1 -/

theorem hasVote_setDom (d : Dev) (k v j : Nat) : hasVote (setDom d k v) j = hasVote d j := by
  have hrd (i : Nat) : (setDom d k v).rd F.pwrVote_dom 0 i = d.rd F.pwrVote_dom 0 i :=
    rd_of_keep (keep_setDom (ft := setDomFoot) (by decide) d k v) (by decide) 0 i
  simp only [hasVote, Dev.bit, hrd]

/-- A domain of an HDA that nothing needs is retained. -/
def restDom (d : Dev) (k : Nat) : Dev := if hasVote d k || !fifosEmpty d k then d else retainDom d k

theorem keep_restDom (d : Dev) (k : Nat) : keep setDomFoot (restDom d k) = keep setDomFoot d := by
  simp +decide only [restDom, retainDom, ↓keep_ite, ↓keep_setDom, ite_self]

theorem restDom_self {d : Dev} {k : Nat} (hk : k < 23) (hstate : domState d k = 0) (hvote : hasVote d k = false) (hfifo : fifosEmpty d k = true)
    (hdrill : inDrill d = false) : domState (restDom d k) k = 1 := by
  have hgo : ¬ (hasVote d k || !fifosEmpty d k) = true := by simp [hvote, hfifo]
  have hkeeps : ¬ drillKeeps d k = true := by simp [drillKeeps, hdrill]
  rw [restDom, if_neg hgo, retainDom, if_neg hkeeps, domState_setDom d hk hk (by decide), if_pos ⟨rfl, by rw [hstate]; decide⟩]

theorem restDom_other {d : Dev} {j k : Nat} (hk : k < 23) (hj : j < 23) (hjk : j ≠ k) : domState (restDom d k) j = domState d j := by
  have hset : domState (setDom d k 1) j = domState d j := by rw [domState_setDom d hk hj (by decide), if_neg fun h => hjk h.1]
  unfold restDom retainDom
  split
  · rfl
  · split
    · rfl
    · exact hset

theorem fifosEmpty_of_keep {m : Nat} {d e : Dev} (h : keep m e = keep m d) (hchns : m.testBit Part.chns.ctorIdx = false)
    (hxb : m.testBit Part.xb.ctorIdx = false) (k : Nat) : fifosEmpty e k = fifosEmpty d k := by
  simp only [fifosEmpty, Dev.chn, chns_of_keep h hchns, xb_of_keep h hxb]

theorem restDoms_retained {d : Dev} {n : Nat} (hn : n < 4) (l : Fin 2) (hstate : domState d (domChp (2 * n + l.val)) = 0)
    (hvote : hasVote d (domChp (2 * n + l.val)) = false) (hfifo : fifosEmpty d (domChp (2 * n + l.val)) = true) (hdrill : inDrill d = false) :
    domState (forEach [domChp (2 * n), domChp (2 * n + 1)] d restDom) (domChp (2 * n + l.val)) = 1 := by
  have hlt (j : Nat) (hj : j ≤ 1) : domChp (2 * n + j) < 23 := by unfold domChp; omega
  have hkeep := keep_restDom d (domChp (2 * n))
  have hvotes (j : Nat) : hasVote (restDom d (domChp (2 * n))) j = hasVote d j := by
    simp only [hasVote, Dev.bit, rd_of_keep hkeep (f := F.pwrVote_dom) (by decide)]
  have hcase : l.val = 0 ∨ l.val = 1 := by have := l.isLt; omega
  show domState (restDom (restDom d (domChp (2 * n))) (domChp (2 * n + 1))) _ = 1
  rcases hcase with h0 | h1
  · rw [h0] at hstate hvote hfifo ⊢
    rw [restDom_other (hlt 1 (by omega)) (hlt 0 (by omega)) (by unfold domChp; omega)]
    exact restDom_self (hlt 0 (by omega)) hstate hvote hfifo hdrill
  · rw [h1] at hstate hvote hfifo ⊢
    refine restDom_self (hlt 1 (by omega)) ?_ ?_ ?_ ?_
    · rw [restDom_other (by unfold domChp; omega) (hlt 1 (by omega)) (by unfold domChp; omega), hstate]
    · rw [hvotes, hvote]
    · rw [fifosEmpty_of_keep hkeep (by decide) (by decide), hfifo]
    · rw [inDrill, rd_of_keep hkeep (by decide), ← inDrill, hdrill]

/-- The end of a step of the HS sequence that reached the state `s`. -/
def stepEnded (n : Nat) (strokes : List (Fin 2 × HeadId × Nat × Bool)) (s : Nat) (d : Dev) : Dev :=
  let code := d.rd F.pwrHs_step 0 n
  let acts := [2 * n, 2 * n + 1].filter d.actPresent
  let d := if code = 3 then forEach acts d fun d a => cardBin (cardCount d 7 1) (ckLoads + 3 * a) 1
    else if code = 2 then forEach acts d fun d a => cardBin d (ckLoads + 3 * a + 1) 1
    else d
  let d := d.updPower fun p => { p with reload := p.reload.filter fun m => m != n }
  let d := d.wr F.pwrHs_state s 0 n
  let d := forEach strokes d fun d x => strokeMeasured d n x.1.val x.2.1.val x.2.2.1 x.2.2.2
  let d := if d.rd F.pwrHs_target 0 n = s then (d.setFlag F.pwrHs_in_transition false 0 n).wr F.pwrHs_step 0 0 n else beginStep d n
  recomputeBound (if s = 0 ∧ d.rd F.pwrHs_target 0 n = 0 then reachedHs0 d n else d)

theorem hdaStepEnd_reached {d e : Dev} {n s : Nat} (strokes : List (Fin 2 × HeadId × Nat × Bool))
    (hmoving : d.flag F.pwrHs_in_transition 0 n = true) (hreach : stepReach d n = some (s, e)) :
    hdaStepEnd n true strokes d = stepEnded n strokes s e := by
  have hgo : ¬ (!d.flag F.pwrHs_in_transition 0 n) = true := by simp [hmoving]
  rw [hdaStepEnd, if_neg hgo, if_neg (by decide), hreach]
  rfl

/-- A step that reached the target, another than HS0, with no stroke measured. -/
theorem stepEnded_rests {d : Dev} {n s : Nat} (hs : s < 8) (hs0 : s ≠ 0) (htarget : d.rd F.pwrHs_target 0 n = s) :
    (stepEnded n [] s d).rd F.pwrHs_state 0 n = s ∧ (stepEnded n [] s d).flag F.pwrHs_in_transition 0 n = false ∧
      (stepEnded n [] s d).rd F.pwrHs_step 0 n = 0 ∧ ∀ k, domState (stepEnded n [] s d) k = domState d k := by
  unfold stepEnded
  extract_lets code acts d1 d2 d3 d4 d5
  have hkeep3 : keep (footOf [.power] [F.pwrHs_state] ||| cardCountFoot ||| cardBinFoot) d3 =
      keep (footOf [.power] [F.pwrHs_state] ||| cardCountFoot ||| cardBinFoot) d := by
    simp +decide only [d3, d2, d1, ↓keep_wr, ↓keep_updPower, ↓keep_ite, ↓keep_forEach, ↓keep_cardBin, ↓keep_cardCount, ite_self, implies_true]
  have hstate4 : d4.rd F.pwrHs_state 0 n = s := Dev.rd_wr_lt d2 F.pwrHs_state s 0 n hs
  have htarget4 : d4.rd F.pwrHs_target 0 n = s := (rd_of_keep hkeep3 (by decide) 0 n).trans htarget
  have hdom4 (k : Nat) : domState d4 k = domState d k := rd_of_keep hkeep3 (by decide) 0 k
  clear_value d4
  have h5 : d5 = (d4.setFlag F.pwrHs_in_transition false 0 n).wr F.pwrHs_step 0 0 n := if_pos htarget4
  have hkeep := keep_recomputeBound (ft := recomputeBoundFoot) (by decide) d5
  rw [if_neg fun h => hs0 h.1]
  generalize recomputeBound d5 = d6 at *
  refine ⟨?_, ?_, ?_, fun k => ?_⟩
  · rw [rd_of_keep hkeep (by decide), h5, Dev.rd_wr_ne _ _ _ _ _ _ _ _ (by decide), Dev.rd_setFlag_ne _ _ _ _ _ _ _ _ (by decide), hstate4]
  · rw [Dev.flag, rd_of_keep hkeep (by decide), h5, Dev.rd_wr_ne _ _ _ _ _ _ _ _ (by decide)]
    exact Dev.flag_setFlag d4 F.pwrHs_in_transition false 0 n (by decide)
  · rw [rd_of_keep hkeep (by decide), h5]
    exact Dev.rd_wr_lt _ F.pwrHs_step 0 0 n (by decide)
  · rw [domState, rd_of_keep hkeep (by decide), h5, Dev.rd_wr_ne _ _ _ _ _ _ _ _ (by decide),
      Dev.rd_setFlag_ne _ _ _ _ _ _ _ _ (by decide), ← domState, hdom4]

theorem stepReach_rest {d : Dev} {n : Nat} (hstep : d.rd F.pwrHs_step 0 n = 1) (hstate : d.rd F.pwrHs_state 0 n = 0)
    (htarget : d.rd F.pwrHs_target 0 n = 1) : stepReach d n = some (1, forEach [domChp (2 * n), domChp (2 * n + 1)] d restDom) := by
  have hnot : ¬ (d.rd F.pwrHs_target 0 n = 0 ∨ d.rd F.pwrHs_state 0 n = 1 ∧ d.rd F.pwrHs_target 0 n < 1) := by
    rw [htarget, hstate]
    decide
  unfold stepReach
  simp only [hstep]
  rw [if_neg hnot]
  rfl

/-! ### Votes and the power limit -/

theorem firmwareVote_votes (dom a b c e : Nat) (d : Dev) :
    (firmwareVote dom [a, b, c, e] d).rd F.pwrVote_dom 0 2 = dom % 2 ^ F.pwrVote_dom.w ∧
      (firmwareVote dom [a, b, c, e] d).rd F.pwrHvote_hda 0 8 = a % 2 ^ F.pwrHvote_hda.w ∧
      (firmwareVote dom [a, b, c, e] d).rd F.pwrHvote_hda 0 9 = b % 2 ^ F.pwrHvote_hda.w ∧
      (firmwareVote dom [a, b, c, e] d).rd F.pwrHvote_hda 0 10 = c % 2 ^ F.pwrHvote_hda.w ∧
      (firmwareVote dom [a, b, c, e] d).rd F.pwrHvote_hda 0 11 = e % 2 ^ F.pwrHvote_hda.w ∧
      ∀ k : Fin 8, k ≠ 2 → (firmwareVote dom [a, b, c, e] d).rd F.pwrVote_dom 0 k.val = d.rd F.pwrVote_dom 0 k.val := by
  have hrun : firmwareVote dom [a, b, c, e] d = ((((d.wr F.pwrVote_dom dom 0 2).wr F.pwrHvote_hda a 0 8).wr F.pwrHvote_hda b 0 9).wr
      F.pwrHvote_hda c 0 10).wr F.pwrHvote_hda e 0 11 := rfl
  have hvote (k : Nat) : (firmwareVote dom [a, b, c, e] d).rd F.pwrVote_dom 0 k = (d.wr F.pwrVote_dom dom 0 2).rd F.pwrVote_dom 0 k := by
    rw [hrun]
    simp +decide only [Dev.rd_wr_ne, ne_eq]
  refine ⟨?_, ?_, ?_, ?_, ?_, fun k hk => ?_⟩
  · rw [hvote, Dev.rd_wr_same]
  · rw [hrun]
    simp +decide only [Dev.rd_wr_self, if_true, if_false]
  · rw [hrun]
    simp +decide only [Dev.rd_wr_self, if_true, if_false]
  · rw [hrun]
    simp +decide only [Dev.rd_wr_self, if_true, if_false]
  · rw [hrun]
    simp +decide only [Dev.rd_wr_self, if_true, if_false]
  · have hk' : k.val ≠ 2 := fun h => hk (Fin.ext h)
    have := k.isLt
    rw [hvote, Dev.rd_wr_self, if_neg (by omega)]

/-- The limits of an unthrottled chip in PS0 that gave up two streams (R365, R366). -/
theorem applyLimits_two {d : Dev} (hps : d.power.lastPs = 0) (hstep : d.rd F.thmStat_step = 0) (hcut : d.power.cut = 2) :
    (applyLimits d).rd F.pwrPs_streams = 14 ∧ (applyLimits d).flag F.pwrPs_throttling = true := by
  unfold applyLimits
  extract_lets a b table d1 d2 d3 d4 d5
  have htable : table = 16 := by simp only [table, a, b, hps, hstep, limitsOf, Nat.min_self, Nat.min_zero]
  have hstreams1 : d1.rd F.pwrPs_streams = 14 := by
    show (d.wr F.pwrPs_streams (max (min 2 table) (table - d.power.cut))).rd F.pwrPs_streams = 14
    rw [htable, hcut]
    exact Dev.rd_wr_lt d F.pwrPs_streams 14 0 0 (by decide)
  have hthrottle2 : d2.flag F.pwrPs_throttling = true := by
    show (d1.setFlag F.pwrPs_throttling (decide (d1.rd F.pwrPs_streams < table))).flag F.pwrPs_throttling = true
    rw [hstreams1, htable]
    exact Dev.flag_setFlag d1 F.pwrPs_throttling true 0 0 (by decide)
  have hstreams2 : d2.rd F.pwrPs_streams = 14 := (Dev.rd_setFlag_ne _ _ _ _ _ _ _ _ (by decide)).trans hstreams1
  clear_value d2
  have hkeep : keep (setCommandFoot ||| footOf [] [F.pwrPs_speed_cap, F.pwrPs_host_width, F.pwrPs_engines]) (forEach [0, 1, 2, 3] d5 setCommand) =
      keep (setCommandFoot ||| footOf [] [F.pwrPs_speed_cap, F.pwrPs_host_width, F.pwrPs_engines]) d2 := by
    simp +decide only [d5, d4, d3, ↓keep_forEach, ↓keep_setCommand, ↓keep_wr, implies_true]
  exact ⟨(rd_of_keep hkeep (by decide) 0 0).trans hstreams2, by rw [Dev.flag, rd_of_keep hkeep (by decide), ← Dev.flag, hthrottle2]⟩

theorem throttleCheck_cuts {d : Dev} {mw : Nat} (hover : maxPower d (d.rd F.pwrPs_ps) < mw) (hps : d.power.lastPs = 0)
    (hstep : d.rd F.thmStat_step = 0) (hcut : d.power.cut = 0) :
    (throttleCheck mw d).rd F.pwrPs_streams = 14 ∧ (throttleCheck mw d).flag F.pwrPs_throttling = true ∧ (throttleCheck mw d).power.cut = 2 ∧
      (throttleCheck mw d).rd F.pwrPs_power_mw = satTo F.pwrPs_power_mw.w mw := by
  unfold throttleCheck
  extract_lets d1 mp table d2
  have hkeep1 : keep cardExtremeFoot d1 = keep cardExtremeFoot (d.wr F.pwrPs_power_mw (satTo 16 mw)) := keep_cardExtreme (by decide) _ 5 mw
  have hrd1 (f : Fld) (hf : F.pwrPs_power_mw.id ≠ f.id) (hc : cardExtremeFoot.testBit (32 + f.id) = false) : d1.rd f = d.rd f := by
    rw [rd_of_keep hkeep1 hc, Dev.rd_wr_ne _ _ _ _ _ _ _ _ hf]
  have hpower1 : d1.power = d.power := by rw [power_of_keep hkeep1 (by decide)]; rfl
  have hmw1 : d1.rd F.pwrPs_power_mw = satTo F.pwrPs_power_mw.w mw := by
    rw [rd_of_keep hkeep1 (by decide)]
    exact Dev.rd_wr_lt d F.pwrPs_power_mw _ 0 0 (satTo_lt 16 mw)
  have hsec1 (k i o w : Nat) : d1.secField k i o w = d.secField k i o w :=
    secField_of_struct ((struct_of_keep hkeep1 (by decide)).trans rfl) k i o w
  clear_value d1
  have hmp : mp = maxPower d (d.rd F.pwrPs_ps) := by
    simp only [mp, maxPower, hrd1 F.pwrPs_ps (by decide) (by decide), hsec1]
  have hstep1 : d1.rd F.thmStat_step = 0 := (hrd1 F.thmStat_step (by decide) (by decide)).trans hstep
  have htable : table = 16 := by
    simp only [table, hpower1, hps, hstep1, limitsOf, Nat.min_self, Nat.min_zero]
  have h2 : d2 = d1.updPower fun p => { p with cut := min (table - 2) (p.cut + 2), belowFor := 0 } := if_pos (by rw [hmp]; exact hover)
  have hcut2 : d2.power.cut = 2 := by
    rw [h2, htable]
    show min 14 (d1.power.cut + 2) = 2
    rw [hpower1, hcut]
    rfl
  have hps2 : d2.power.lastPs = 0 := by
    rw [h2]
    show d1.power.lastPs = 0
    rw [hpower1, hps]
  have hrd2 (f : Fld) (i j : Nat) : d2.rd f i j = d1.rd f i j := by rw [h2]; rfl
  clear_value d2
  have hlimits := keep_applyLimits (ft := applyLimitsFoot) (by decide) d2
  obtain ⟨hstreams, hthrottle⟩ := applyLimits_two hps2 ((hrd2 ..).trans hstep1) hcut2
  exact ⟨hstreams, hthrottle, by rw [power_of_keep hlimits (by decide), hcut2], by rw [rd_of_keep hlimits (by decide), hrd2, hmw1]⟩

/-- Settles O28: a lemma per row. -/
theorem powerRowsComplete : Obligations.PowerRowsComplete := by
  unfold Obligations.PowerRowsComplete
  refine ⟨?enter, ?stay, ?idle, ?step, ?again, ?withdraw, ?retain, ?wake, ?vote, ?cs1, ?cs2, ?throttle⟩
  case enter =>
    intro s deep e he hcs hok
    refine brings_of_run (execPowerTargetEvaluate.eq_def deep s) ?_
    have hdom (k : Nat) : domState (e.wr F.pwrCs_cs2_block (cs2Block e)) k = domState e k := Dev.rd_wr_ne _ _ _ _ _ _ _ _ (by decide)
    have hrun := targetEvaluate_eq (deep.map (·.val)) he rfl
    generalize e.wr F.pwrCs_cs2_block (cs2Block e) = b at *
    rw [hrun, if_pos (And.intro hcs hok)]
    obtain ⟨h1, h2, h3, h4⟩ := enterCs2_enters b
    exact ⟨h1, h2, h3.trans (hdom 0), fun k hk1 hk => by rw [h4 k hk1 hk, hdom]⟩
  case stay =>
    intro s deep e he hcs hok
    refine brings_of_run (execPowerTargetEvaluate.eq_def deep s) ?_
    have hrun := targetEvaluate_eq (deep.map (·.val)) he rfl
    have hstate : (e.wr F.pwrCs_cs2_block (cs2Block e)).rd F.pwrCs_state = 0 := (Dev.rd_wr_ne _ _ _ _ _ _ _ _ (by decide)).trans hcs
    generalize e.wr F.pwrCs_cs2_block (cs2Block e) = b at *
    rw [hrun, if_neg (by simp [hok]), if_neg (by simp [hcs]), hcs, Dev.rd_wr_ne _ _ _ _ _ _ _ _ (by decide)]
    refine ⟨hstate, ?_⟩
    refine Dev.rd_wr_lt _ F.pwrCs_target _ 0 0 ?_
    split
    all_goals decide
  case idle =>
    intro s n level hidle hpresent
    refine gives_of_run rfl ?_
    rw [if_pos (by simp [hidle, hpresent])]
  case step =>
    intro s n hmoving hstep hstate htarget
    have hkeep : keep setDomFoot (forEach [domChp (2 * n.val), domChp (2 * n.val + 1)] s.dev restDom) = keep setDomFoot s.dev :=
      keep_forEach s.dev _ restDom keep_restDom
    refine brings_of_run (g := hdaStepEnd n.val true []) rfl ?_
    rw [hdaStepEnd_reached [] hmoving (stepReach_rest hstep hstate htarget)]
    obtain ⟨h1, h2, h3, hdom⟩ := stepEnded_rests (d := forEach [domChp (2 * n.val), domChp (2 * n.val + 1)] s.dev restDom) (n := n.val) (s := 1)
      (by decide) (by decide) (by rw [rd_of_keep hkeep (by decide), htarget])
    refine ⟨h1, h2, h3, fun l hl hvote hfifo hdrill => ?_⟩
    rw [hdom]
    exact restDoms_retained n.isLt l hl hvote hfifo hdrill
  case again =>
    intro s n hmoving hstep hfirst
    refine gives_of_run (g := hdaStepEnd n.val false []) rfl ?_
    rw [hdaStepEnd, if_neg (by simp [hmoving]), if_pos (by decide), if_pos (by simp only [hstep, hfirst]; decide)]
  case withdraw =>
    intro s a hwork hperm
    refine gives_of_run (execVoteWithdrawTimer.eq_def a s) ?_
    rw [if_neg (by simp [hwork, hperm])]
    rfl
  case retain =>
    intro s dom hmay
    refine gives_of_run rfl ?_
    have hrun : domState s.dev dom.val = 0 := by
      simp only [mayRetain, Bool.and_eq_true, beq_iff_eq] at hmay
      exact hmay.1.1.1.1
    rw [if_pos hmay, setDom, if_neg (by rw [hrun]; decide)]
  case wake =>
    intro s dom hstate
    have hset : setDom s.dev dom.val 0 = s.dev.wr F.pwrDom_dom 0 0 dom.val := if_neg (by rw [hstate]; decide)
    have hrun : domainWake dom.val s.dev s.mem = releaseReady (s.dev.wr F.pwrDom_dom 0 0 dom.val) s.mem := by
      rw [domainWake, if_pos hstate, hset]
    refine ⟨?_, fun hstalled => ?_⟩
    · rw [← hrun]
      rfl
    · have hnone : releaseReady (s.dev.wr F.pwrDom_dom 0 0 dom.val) s.mem = (s.dev.wr F.pwrDom_dom 0 0 dom.val, s.mem) := by
        have hempty : (s.dev.wr F.pwrDom_dom 0 0 dom.val).power.stalled = [] := hstalled
        have hsame (x : Dev) (hx : x.power.stalled = []) : { x with power := { x.power with stalled := [] } } = x := by rw [← hx]
        unfold releaseReady
        simp only [hempty, List.filter_nil, forEach, List.foldl_nil, hsame _ hempty]
      show liftMem s (domainWake dom.val) = _
      rw [liftMem, hrun, hnone]
  case vote =>
    intro s dom a b c e
    exact brings_of_run (g := firmwareVote dom [a, b, c, e]) rfl (firmwareVote_votes dom a b c e s.dev)
  case cs1 =>
    intro s hcs hok
    refine gives_of_run rfl ?_
    rw [if_pos (by simp [hcs, hok])]
  case cs2 =>
    intro s cause hcs
    refine brings_of_run rfl ?_
    rw [if_pos hcs]
    exact leaveCs2_leaves s.dev
  case throttle =>
    intro s mw hover hps hstep hcut
    exact brings_of_run (g := throttleCheck mw) rfl (throttleCheck_cuts hover hps hstep hcut)

end Sys2Proof.Machine
end

section
/-! PROOF. Host state that the structure's change, the admin commands' end and the firmware's load keep. -/
namespace Sys2Proof.Machine

theorem hkeep_setLaneState {ft : Nat} (d : Dev) (n l v : Nat) : hkeep ft (setLaneState d n l v) = hkeep ft d :=
  hkeep_of_keep (keep_setLaneState (ft := setLaneStateFoot) (by decide) d n l v) (by decide) ft

theorem hkeep_cardBin {ft : Nat} (d : Dev) (k n : Nat) : hkeep ft (cardBin d k n) = hkeep ft d :=
  hkeep_of_keep (keep_cardBin (ft := cardBinFoot) (by decide) d k n) (by decide) ft

theorem hkeep_updServo {ft : Nat} (d : Dev) (n : Nat) (g : Servo → Servo) : hkeep ft (d.updServo n g) = hkeep ft d :=
    hkeep_of_host ft rfl

theorem hkeep_updLane {ft : Nat} (d : Dev) (n l : Nat) (g : Lane → Lane) : hkeep ft (d.updLane n l g) = hkeep ft d :=
    hkeep_of_host ft rfl

theorem hkeep_setServoOk {ft : Nat} (d : Dev) (c : Nat) (ok : Bool) : hkeep ft (setServoOk d c ok) = hkeep ft d :=
  hkeep_of_keep (keep_setServoOk (ft := setCauseFoot) (by decide) d c ok) (by decide) ft

theorem hkeep_retractFrame {ft : Nat} (d : Dev) (n : Nat) : hkeep ft (retractFrame d n) = hkeep ft d :=
  hkeep_of_keep (keep_retractFrame (ft := retractFrameFoot) (by decide) d n) (by decide) ft

theorem hkeep_emergencyRetract {ft : Nat} (hft : inFoot suspendHdaHost ft = true) (d : Dev) (n mask cause : Nat) : hkeep ft
    (emergencyRetract d n mask cause) = hkeep ft d :=
  hkeep_mono hft (by simp +decide only [emergencyRetract, ↓hkeep_setFlag, ↓hkeep_wr, ↓hkeep_emit, ↓hkeep_cardCount, ↓hkeep_cardBin,
    ↓hkeep_updServo, ↓hkeep_suspendHda, ↓hkeep_updLane, ↓hkeep_setServoOk, ↓hkeep_retractFrame, ↓hkeep_forEach, ↓hkeep_ite, ite_self,
    implies_true])

theorem hkeep_unloadHeads {ft : Nat} (hft : inFoot suspendHdaHost ft = true) (d : Dev) (n cause : Nat) : hkeep ft (unloadHeads d
    n cause) = hkeep ft d :=
  hkeep_mono hft (by simp +decide only [unloadHeads, ↓hkeep_setFlag, ↓hkeep_setLaneState, ↓hkeep_emergencyRetract, ↓hkeep_forEach,
    ↓hkeep_ite, ite_self, implies_true])

theorem hkeep_coastSpin {ft : Nat} (d : Dev) (n : Nat) : hkeep ft (coastSpin d n) = hkeep ft d :=
  hkeep_of_keep (keep_coastSpin (ft := coastSpinFoot) (by decide) d n) (by decide) ft

theorem hkeep_saLeave {ft : Nat} (hft : inFoot suspendHdaHost ft = true) (d : Dev) (ss : List Section) (n : Nat) : hkeep ft
    (saLeave d ss n) = hkeep ft d :=
  hkeep_mono hft (by simp +decide only [saLeave, ↓hkeep_wr, ↓hkeep_setFlag, ↓hkeep_unloadHeads, ↓hkeep_coastSpin, ↓hkeep_ite, ite_self])

def checkpointMapHost : Nat := hostFoot [.journal, .mapCk, .lockerMap, .nss]
theorem hkeep_checkpointMap {ft : Nat} (hft : inFoot checkpointMapHost ft = true) (d : Dev) (nsid : Nat) : hkeep ft
    (checkpointMap d nsid) = hkeep ft d :=
  hkeep_mono hft (by simp +decide only [checkpointMap, ↓hkeep_updHost, hmask, if_true, implies_true, ↓hkeep_updNs])

def checkpointAllHost : Nat := hostFoot [.journal, .mapCk, .lockerMap, .nss, .media]
theorem hkeep_checkpointAll {ft : Nat} (hft : inFoot checkpointAllHost ft = true) (d : Dev) : hkeep ft (checkpointAll d) = hkeep
    ft d :=
  hkeep_mono hft (by simp +decide only [checkpointAll, ↓hkeep_checkpointMap, ↓hkeep_recoverMap, ↓hkeep_forEach, ↓hkeep_ite, ite_self,
    implies_true])

theorem hkeep_adminEnd {ft : Nat} (d : Dev) (h cid status dw0 : Nat) : hkeep ft (adminEnd d h cid status dw0) = hkeep ft d :=
  hkeep_of_keep (keep_adminEnd (ft := adminEndFoot) (by decide) d h cid status dw0) (by decide) ft

theorem hkeep_endAdmin {ft : Nat} (hft : inFoot updPortHost ft = true) (d : Dev) (w : Option (Nat × Nat)) (status dw0 : Nat) :
    hkeep ft (endAdmin d w status dw0) = hkeep ft d :=
  hkeep_mono hft (by unfold endAdmin; split <;> simp +decide only [↓hkeep_updPort, ↓hkeep_syncHost, ↓hkeep_adminEnd, ↓hkeep_ite,
    ite_self])

theorem hkeep_selectStructure {ft : Nat} (d : Dev) : hkeep ft (selectStructure d) = hkeep ft d :=
  hkeep_of_keep (keep_selectStructure (ft := selectStructureFoot) (by decide) d) (by decide) ft

theorem hkeep_loadKeys {ft : Nat} (d : Dev) : hkeep ft (loadKeys d) = hkeep ft d :=
  hkeep_of_keep (keep_loadKeys (ft := loadKeysFoot) (by decide) d) (by decide) ft

theorem hkeep_loadFirmware {ft : Nat} (d : Dev) : hkeep ft (loadFirmware d) = hkeep ft d :=
  hkeep_of_keep (keep_loadFirmware (ft := loadFirmwareFoot) (by decide) d) (by decide) ft

theorem hkeep_portTrain {ft : Nat} (d : Dev) (p : Nat) : hkeep ft (portTrain d p) = hkeep ft d :=
  hkeep_of_keep (keep_portTrain (ft := portTrainFoot) (by decide) d p) (by decide) ft

theorem hkeep_holdAdmin {ft : Nat} (hft : inFoot updPortHost ft = true) (d : Dev) (h : Nat) : hkeep ft (holdAdmin d h) = hkeep
    ft d :=
  hkeep_mono hft (by simp +decide only [holdAdmin, ↓hkeep_updPort, ↓hkeep_syncHost])

def resumeFetchHost : Nat := hostFoot [.stops]
theorem hkeep_resumeFetch {ft : Nat} (hft : inFoot resumeFetchHost ft = true) (d : Dev) (r : Nat) : hkeep ft (resumeFetch d r) =
    hkeep ft d :=
  hkeep_mono hft (by simp +decide only [resumeFetch, ↓hkeep_updHost, hmask, if_true, implies_true])

end Sys2Proof.Machine
end

section
/-! PROOF. Structural Activate: its download, verification, writing, commit and restructure. -/
namespace Sys2Proof.Machine

/-! ### An admin command that runs -/

section
variable (d : Dev)

theorem keep_wakes : keep wakeChipFoot (wakeChip d) = keep wakeChipFoot d := keep_wakeChip (by decide) d
@[simp] theorem wakeChip_struct : (wakeChip d).struct = d.struct := struct_of_keep (keep_wakes d) (by decide)
@[simp] theorem wakeChip_host : (wakeChip d).host = d.host := host_of_keep (keep_wakes d) (by decide)
@[simp] theorem wakeChip_fw : (wakeChip d).fw = d.fw := fw_of_keep (keep_wakes d) (by decide)
@[simp] theorem wakeChip_out : (wakeChip d).out = d.out := out_of_keep (keep_wakes d) (by decide)
@[simp] theorem wakeChip_port (h : Nat) : (wakeChip d).port h = d.port h := port_of_ports (congrArg _ (wakeChip_host d)) h

end

theorem adminDo_runs {s : State} {h : Nat} {pend rec : Bool} (cid : Nat) (g : Dev → Dev) (hruns : AdminRuns s h pend rec) :
    adminDo h cid pend rec g s.dev = g (wakeChip s.dev) := by
  obtain ⟨hfetch, hfree, hpend, hrec⟩ := hruns
  have hlate : ¬(decide (2 ≤ (wakeChip s.dev).rd F.glbStructStat_activate) && !pend) = true := by
    rcases hpend with rfl | hpend
    · simp
    · simp [show ¬2 ≤ (wakeChip s.dev).rd F.glbStructStat_activate from Nat.not_le.2 hpend]
  have hopcode : ¬((wakeChip s.dev).rd F.glbStructStat_loaded = 3 ∧ (!rec) = true) := by
    rcases hrec with rfl | hrec
    · simp
    · exact fun hloaded => hrec hloaded.1
  rw [adminDo, if_neg (by rw [hfetch]; decide), if_neg (Nat.not_le.2 hfree)]
  exact (if_neg hlate).trans (if_neg hopcode)

/-- A held admin command counts in its port and says nothing. -/
theorem holdAdmin_holds (d : Dev) (h : HstId) :
    ((holdAdmin d h.val).port h.val).adminUsed = (d.port h.val).adminUsed + 1 ∧ (holdAdmin d h.val).out = d.out ∧
      (holdAdmin d h.val).struct = d.struct := by
  have hkeep := keep_syncHost (ft := syncHostFoot) (by decide) (d.updPort h.val fun p => { p with adminUsed := p.adminUsed + 1 })
  refine ⟨?_, (out_of_keep hkeep (by decide)).trans rfl, (struct_of_keep hkeep (by decide)).trans rfl⟩
  rw [holdAdmin, port_of_ports (congrArg _ (host_of_keep hkeep (by decide))), Dev.updPort_port, if_pos rfl]

/-! ### The download of the image -/

theorem saDownload_joins {d : Dev} {h offsetDw : Nat} {piece : List Byte} (cid : Nat) (hok : saRefusal d h = none)
    (hphase : d.struct.phase = .idle) (halign : offsetDw % 1024 = 0) (hpiece : piece ≠ []) (hsize : offsetDw * 4 + piece.length ≤ 4 * 2 ^ 20)
    (hends : piece.length % 4096 = 0 ∨ pieceLen (d.struct.staging ++ [(offsetDw * 4, piece)]) = some (offsetDw * 4 + piece.length)) :
    saDownload h cid offsetDw piece d =
      adminEnd ((d.updStruct fun s => { s with staging := d.struct.staging ++ [(offsetDw * 4, piece)], stagingOwner := some h }).wr
        F.glbStructStat_activate 1) h cid 0 0 := by
  unfold saDownload
  rw [hok]
  extract_lets off ps ends d1
  have hbad : ¬(off % 4096 ≠ 0 ∨ piece = [] ∨ (piece.length % 4096 ≠ 0 ∧ (!ends) = true)) := by
    rintro (hoff | hnil | ⟨hlen, hnot⟩)
    · exact hoff (by show offsetDw * 4 % 4096 = 0; omega)
    · exact hpiece hnil
    · rcases hends with hmul | hlast
      · exact hlen hmul
      · simp [ends, ps, off, hlast] at hnot
  rw [if_neg (by simp [hphase]), if_neg hbad, if_neg (Nat.not_lt.2 hsize)]

/-! ### Verification -/

theorem saVerified_verifies {d : Dev} {k : Nat} (hphase : d.struct.phase = .verifying) (hstaging : d.struct.staging ≠ [])
    (hk : k = (verifyImage d (pieceImage d.struct.staging ((pieceLen d.struct.staging).getD 0))).1) (hk15 : k ≤ 15) :
    (saVerified d).rd F.glbStructStat_fail_stage = k ∧
      (k = 0 → (saVerified d).struct.phase = .writing ∧ (saVerified d).rd F.glbStructStat_activate = 2 ∧ (saVerified d).out = d.out) ∧
      (k ≠ 0 → (saVerified d).struct.phase = .idle ∧ (saVerified d).rd F.glbStructStat_activate = d.rd F.glbStructStat_activate) := by
  unfold saVerified
  rw [if_neg (by simp [hphase])]
  extract_lets b idle step d1
  rw [if_neg hstaging]
  have hfail : d1.rd F.glbStructStat_fail_stage = k := by
    rw [show d1 = d.wr F.glbStructStat_fail_stage step from rfl, show step = k from hk.symm]
    exact Dev.rd_wr_lt d F.glbStructStat_fail_stage k 0 0 (by revert hk15; simp +decide only [F.glbStructStat_fail_stage]; omega)
  have hstat : d1.rd F.glbStructStat_activate = d.rd F.glbStructStat_activate := Dev.rd_wr_ne _ _ _ _ _ _ _ _ (by decide)
  have hended (w : Option (Nat × Nat)) (st dw0 : Nat) : (endAdmin (idle d1) w st dw0).rd F.glbStructStat_fail_stage = k ∧
      (endAdmin (idle d1) w st dw0).struct.phase = .idle ∧
      (endAdmin (idle d1) w st dw0).rd F.glbStructStat_activate = d.rd F.glbStructStat_activate := by
    have hkeep := keep_endAdmin (ft := endAdminFoot) (by decide) (idle d1) w st dw0
    refine ⟨?_, ?_, ?_⟩
    · rw [rd_of_keep hkeep (by decide)]
      exact hfail
    · rw [struct_of_keep hkeep (by decide)]
      rfl
    · rw [rd_of_keep hkeep (by decide)]
      exact hstat
  have hout : d1.out = d.out := rfl
  have hstep : step = k := hk.symm
  clear_value d1 step
  subst hstep
  by_cases hzero : step = 0
  · rw [if_pos hzero]
    refine ⟨?_, fun _ => ⟨rfl, ?_, ?_⟩, fun hne => absurd hzero hne⟩
    · rw [Dev.updStruct_rd, Dev.rd_wr_ne _ _ _ _ _ _ _ _ (by decide)]
      exact hfail
    · exact Dev.rd_wr_lt d1 F.glbStructStat_activate 2 0 0 (by decide)
    · exact hout
  · rw [if_neg hzero]
    split
    · exact ⟨(hended _ _ _).1, fun h0 => absurd h0 hzero, fun _ => (hended _ _ _).2⟩
    · exact ⟨(hended _ _ _).1, fun h0 => absurd h0 hzero, fun _ => (hended _ _ _).2⟩

/-! ### The written slot -/

theorem saWritten_drains {d : Dev} (hphase : d.struct.phase = .writing) :
    (saWritten d).struct.phase = .draining ∧ (saWritten d).struct.staging = [] ∧ (saWritten d).struct.stagingOwner = none ∧
      (saWritten d).imgSlot (otherSlot d) =
        { bytes := pieceImage d.struct.staging ((pieceLen d.struct.staging).getD 0), desc := 0xFE } := by
  unfold saWritten
  rw [if_neg (by simp [hphase])]
  extract_lets b w d1 d2
  have hstruct : (noticeOutstanding (endAdmin d2 w 0 0) ntActivated).struct = d2.struct :=
    (struct_of_keep (keep_noticeOutstanding (ft := postNoticeFoot) (by decide) _ _) (by decide)).trans
      (struct_of_keep (keep_endAdmin (ft := endAdminFoot) (by decide) _ _ _ _) (by decide))
  rw [Dev.imgSlot, hstruct]
  exact ⟨rfl, rfl, rfl, by rw [show d2.struct.slots = tabPut {} d.struct.slots (otherSlot d) { bytes := b, desc := 0xFE } from rfl, tabGet_tabPut, if_pos rfl]⟩

/-! ### The commit -/

theorem hostLinkDown_offer (d : Dev) (k h : Nat) : ((hostLinkDown d k).port h).offer = (d.port h).offer := by
  unfold hostLinkDown
  rw [port_updPort_of (p := Port.offer) (by exact fun _ => rfl)]
  split <;> rfl

theorem linksDown_offer (d : Dev) (cause h : Nat) : ((linksDown d cause).port h).offer = (d.port h).offer := by
  unfold linksDown
  extract_lets d1
  have hlml : hkeep 0 (forEach ((List.range 4).filter (lmlUsed d1)) d1 fun d p => portDown d p cause) = hkeep 0 d1 :=
    hkeep_forEach d1 _ _ fun e p => hkeep_portDown e p cause
  rw [port_of_ports (ports_of_hkeep hlml (by decide))]
  exact forEach_keeps (p := fun e => (e.port h).offer) (fun e k _ => hostLinkDown_offer e k h) d

/-- The host links with their ports' state gone, but for what the partners offer. -/
def offerAgain (offers : List (Nat × Nat)) (d : Dev) : Dev :=
  forEach [0, 1] d fun d h => d.updPort h fun p => { p with offer := offers.getD h (8, 6) }

theorem offerAgain_port (offers : List (Nat × Nat)) (d : Dev) (h : HstId) :
    (offerAgain offers d).port h.val = { d.port h.val with offer := offers.getD h.val (8, 6) } := by
  have hcase : h.val = 0 ∨ h.val = 1 := by have := h.isLt; omega
  simp only [offerAgain, forEach, List.foldl_cons, List.foldl_nil, Dev.updPort_port]
  rcases hcase with hh | hh
  · simp [hh]
  · simp [hh]

theorem keep_offerAgain (offers : List (Nat × Nat)) (d : Dev) : keep updPortFoot (offerAgain offers d) = keep updPortFoot d :=
  keep_forEach d _ _ fun e k => keep_updPort (by decide) e k _

def leaveFoot : Nat := linksDownFoot ||| saLeaveFoot ||| checkpointAllFoot ||| writeAnchorFoot ||| updPortFoot

theorem stopFetch_stops (d : Dev) (r : Nat) : (stopFetch d r).host.stops.contains r = true := by
  show (if d.host.stops.contains r then d.host.stops else d.host.stops ++ [r]).contains r = true
  split
  next h => exact h
  next => simp

theorem resumeFetch_stops (d : Dev) (r : Nat) : (resumeFetch d r).host.stops.contains r = false := by
  simp [resumeFetch, Dev.updHost]

theorem saCommit_commits {d : Dev} (hphase : d.struct.phase = .destaging) (hcopies : (copiesOf d).isEmpty = true) (hlocker : d.host.locker = [])
    (hheld : d.host.held.all (fun x => x.kind != 2) = true) :
    (saCommit d).struct.phase = .wiping ∧ (saCommit d).rd F.glbStructStat_activate = 3 ∧ (saCommit d).host.stops.contains 1 = true ∧
      (∀ h : HstId, ((saCommit d).port h.val).linkUp = false ∧ ((saCommit d).port h.val).enabled = false ∧
        ((saCommit d).port h.val).offer = (d.port h.val).offer) ∧
      (saCommit d).reset.wipeSram = true ∧ (saCommit d).reset.wipeDram = true ∧ (saCommit d).rd F.memWipe_state = 1 ∧
      ((saCommit d).imgSlot (otherSlot d)).desc = 0xFC := by
  unfold saCommit
  rw [if_pos ⟨hphase, hcopies, hlocker, hheld⟩]
  extract_lets i b ss d1 d2 d3 d4 offers d5 d6 d7 d8 d9
  have hfoot : keep leaveFoot d8 = keep leaveFoot d2 := by
    have h8 : keep leaveFoot d8 = keep leaveFoot d7 := keep_mono (by decide) (keep_offerAgain offers d7)
    rw [h8]
    simp +decide only [d7, d6, d5, d4, d3, ↓keep_writeAnchor, ↓keep_updHost, ↓keep_checkpointAll, ↓keep_saLeave, ↓keep_linksDown, ↓keep_stopFetch,
      ↓keep_forEach, implies_true]
  have h43 : hkeep (hostFoot [.ctxs, .tasks, .wanted]) d4 = hkeep (hostFoot [.ctxs, .tasks, .wanted]) d3 :=
    hkeep_forEach d3 _ _ fun e n => hkeep_saLeave (by decide) e ss n
  have h7 : hkeep writeAnchorHost d7 = hkeep writeAnchorHost d6 := hkeep_forEach d6 _ _ fun e n => hkeep_writeAnchor (by decide) e n
  have hstops5 : d5.host.stops.contains 1 = true := by
    rw [stops_of_hkeep (hkeep_checkpointAll (ft := checkpointAllHost) (by decide) d4) (by decide), stops_of_hkeep h43 (by decide),
      stops_of_hkeep (hkeep_linksDown (ft := updPortHost) (by decide) (stopFetch d2 1) 4) (by decide)]
    exact stopFetch_stops d2 1
  have hoffer (h : HstId) : offers.getD h.val (8, 6) = (d.port h.val).offer := by
    have h4 : offers.getD h.val (8, 6) = (d4.port h.val).offer := by
      have hcase : h.val = 0 ∨ h.val = 1 := by have := h.isLt; omega
      rcases hcase with hh | hh
      all_goals
        rw [hh]
        rfl
    rw [h4, port_of_ports (ports_of_hkeep h43 (by decide)), linksDown_offer]
    rfl
  have hact : d2.rd F.glbStructStat_activate = 3 := Dev.rd_wr_lt _ F.glbStructStat_activate 3 0 0 (by decide)
  have hslot : (tabGet {} d2.struct.slots (otherSlot d)).desc = 0xFC := by
    rw [show d2.struct.slots = tabPut {} d.struct.slots i { bytes := b, desc := 0xFC } from rfl, tabGet_tabPut, if_pos rfl]
  have hstruct : d8.struct = d2.struct := struct_of_keep hfoot (by decide)
  have hstat : d8.rd F.glbStructStat_activate = d2.rd F.glbStructStat_activate := rd_of_keep hfoot (by decide) 0 0
  clear hfoot h43
  clear_value offers d5
  have hstops : d8.host.stops.contains 1 = true := by
    have hports : hkeep (hostFoot [.ports]) d8 = hkeep (hostFoot [.ports]) d7 := hkeep_forEach d7 _ _ fun e k => hkeep_updPort (by decide) e k _
    rw [stops_of_hkeep hports (by decide), stops_of_hkeep h7 (by decide), ← hstops5]
    rfl
  have hports (h : HstId) : d8.port h.val = { offer := offers.getD h.val (8, 6) } := by
    have h7 : d7.port h.val = {} := by
      rw [port_of_ports (ports_of_hkeep h7 (by decide))]
      rfl
    rw [show d8 = offerAgain offers d7 from rfl, offerAgain_port, h7]
  clear_value d2 d8
  refine ⟨rfl, ?_, hstops, fun h => ⟨?_, ?_, ?_⟩, rfl, rfl, ?_, ?_⟩
  · rw [Dev.updReset_rd, Dev.updStruct_rd, Dev.rd_wr_ne _ _ _ _ _ _ _ _ (by decide), hstat, hact]
  · exact congrArg Port.linkUp (hports h)
  · exact congrArg Port.enabled (hports h)
  · exact (congrArg Port.offer (hports h)).trans (hoffer h)
  · rw [Dev.updReset_rd, Dev.updStruct_rd]
    exact Dev.rd_wr_lt _ F.memWipe_state 1 0 0 (by decide)
  · rw [← hslot, ← hstruct]
    rfl

/-! ### The restructure -/

def loadPartsFoot : Nat :=
  loadPortsFoot ||| loadFabricFoot ||| loadFormatFoot ||| loadDomainsFoot ||| loadLimitsFoot ||| syncLevelFoot ||| cardCountFoot |||
    makeAllDueFoot ||| footOf [.out, .spins, .therm] [F.glbStructStat_loaded, F.glbStructVer_build_version]

theorem loadStructure_struct (d : Dev) (ss : List Section) (slot build : Nat) :
    (loadStructure d ss slot build).struct = { d.struct with sections := ss } := by
  unfold loadStructure
  extract_lets st d1 d2 d3 d4 d5 d6 d7 d8
  have h7 : keep loadPartsFoot d7 = keep loadPartsFoot d6 :=
    keep_forEach d6 _ _ fun e k => keep_forEach e _ _ fun e i => keep_makeAllDue (by decide) e k i
  have hparts : keep loadPartsFoot (d8.updTherm fun t => { t with calAt := [], calBands := [], calVals := [] }) = keep loadPartsFoot d1 := by
    simp +decide only [d8, h7, d6, d5, d4, d3, d2, ↓keep_updTherm, ↓keep_updSpin, ↓keep_syncLevel, ↓keep_cardCount, ↓keep_emit,
      ↓keep_loadDomains, ↓keep_loadLimits, ↓keep_loadFormat, ↓keep_loadPorts, ↓keep_loadFabric, ↓keep_wr, ↓keep_forEach, implies_true]
  rw [struct_of_keep hparts (by decide)]

theorem selectStructure_phase (d : Dev) : (selectStructure d).struct.phase = d.struct.phase := by
  unfold selectStructure
  extract_lets fail d1 pick st d2 d3
  have hload (e : Dev) (ss : List Section) (slot build : Nat) (he : e.struct.phase = d.struct.phase) :
      (loadStructure e ss slot build).struct.phase = d.struct.phase := by
    rw [loadStructure_struct]
    exact he
  have h2 : d2.struct.phase = d.struct.phase := rfl
  rw [Dev.wr_struct]
  show d3.struct.phase = _
  clear_value d2 pick
  cases pick with
  | none => exact hload d2 _ _ _ h2
  | some p => exact hload _ p.2 p.1 _ h2

def restartLinksFoot : Nat := portTrainFoot ||| setHvoteFoot ||| hostTrainFoot ||| resumeFetchFoot ||| recomputeBoundFoot

theorem saRestructure_ends {d : Dev} (m : List Host.Cell) (hphase : d.struct.phase = .wiping) (hsram : d.reset.wipeSram = false)
    (hdram : d.reset.wipeDram = false) :
    (saRestructure d m).2 = loadStores (saRestructure d m).1.struct.sections m ∧ (saRestructure d m).1.struct.phase = .idle ∧
      (saRestructure d m).1.rd F.glbStructStat_activate = 0 ∧ (saRestructure d m).1.host.stops.contains 1 = false := by
  unfold saRestructure
  rw [if_neg (by simp [hphase, hsram, hdram])]
  extract_lets d1 d2 d3 d4 d5
  have hlinks : keep restartLinksFoot (recomputeBound (resumeFetch d5 1)) = keep restartLinksFoot d2 := by
    simp +decide only [d5, d4, d3, ↓keep_recomputeBound, ↓keep_resumeFetch, ↓keep_hostTrain, ↓keep_setHvote, ↓keep_portTrain, ↓keep_forEach,
      implies_true]
  have hstops : (recomputeBound (resumeFetch d5 1)).host.stops.contains 1 = false := by
    rw [stops_of_hkeep (hkeep_recomputeBound (ft := coverNextHost) (by decide) _) (by decide)]
    exact resumeFetch_stops d5 1
  have hphase2 : d2.struct.phase = .idle := by
    rw [Dev.wr_struct, struct_of_keep (keep_loadKeys (ft := loadKeysFoot) (by decide) d1) (by decide), selectStructure_phase]
    rfl
  have hact : d2.rd F.glbStructStat_activate = 0 := Dev.rd_wr_lt _ F.glbStructStat_activate 0 0 0 (by decide)
  have hlinks5 : keep restartLinksFoot d5 = keep restartLinksFoot d2 := by
    simp +decide only [d5, d4, d3, ↓keep_hostTrain, ↓keep_setHvote, ↓keep_portTrain, ↓keep_forEach, implies_true]
  have hstruct : (recomputeBound (resumeFetch d5 1)).struct = d5.struct := by
    rw [struct_of_keep hlinks (by decide), struct_of_keep hlinks5 (by decide)]
  exact ⟨by rw [hstruct], by rw [struct_of_keep hlinks (by decide), hphase2], (rd_of_keep hlinks (by decide) 0 0).trans hact, hstops⟩

/-- Settles O29: a lemma per row, on the woken chip where the host's command runs. -/
theorem activateRowsComplete : Obligations.ActivateRowsComplete := by
  unfold Obligations.ActivateRowsComplete
  refine ⟨?download, ?verify, ?abort, ?verified, ?written, ?drained, ?commit, ?restructure⟩
  case download =>
    intro s h cid offsetDw piece hruns hok hphase halign hpiece hsize hends
    refine brings_of_run (execStructuralActivateDownload.eq_def h cid offsetDw piece s) ?_
    rw [adminDo_runs cid _ hruns, saDownload_joins cid hok (by rw [wakeChip_struct, hphase]) halign hpiece hsize (by rw [wakeChip_struct]; exact hends),
      wakeChip_struct]
    refine ⟨?_, rfl, rfl, ?_⟩
    · rw [← wakeChip_out s.dev]
      rfl
    · exact Dev.rd_wr_lt _ F.glbStructStat_activate 1 0 0 (by decide)
  case verify =>
    intro s h cid n hruns hok hphase hlen hsize hwhole
    refine brings_of_run (execStructuralActivateVerify.eq_def h cid s) ?_
    have hstart : saStart h.val cid (wakeChip s.dev) =
        holdAdmin ((wakeChip s.dev).updStruct fun s => { s with phase := .verifying, stagingCid := cid }) h.val := by
      unfold saStart
      simp only [hok, wakeChip_struct, hlen]
      rw [if_neg (by simp [hphase]), if_neg (Nat.not_lt.2 hsize), if_neg (by simp [hwhole])]
    rw [adminDo_runs cid _ hruns, hstart]
    obtain ⟨hused, hout, hstruct⟩ := holdAdmin_holds ((wakeChip s.dev).updStruct fun s => { s with phase := .verifying, stagingCid := cid }) h
    refine ⟨by rw [hstruct]; rfl, by rw [hstruct]; rfl, ?_, ?_⟩
    · rw [hused, ← wakeChip_port s.dev]
      rfl
    · rw [hout, ← wakeChip_out s.dev]
      rfl
  case abort =>
    intro s h cid hruns hok
    refine brings_of_run (execStructuralActivateAbort.eq_def h cid s) ?_
    rw [adminDo_runs cid _ hruns, saAbort, hok]
    refine ⟨rfl, ?_, ?_⟩
    · exact Dev.rd_wr_lt _ F.glbStructStat_activate 0 0 0 (by decide)
    · rw [← wakeChip_out s.dev]
      rfl
  case verified =>
    intro s k hphase hstaging hk hk15
    exact brings_of_run (execActivateVerifyDone.eq_def s) (saVerified_verifies hphase hstaging hk hk15)
  case written =>
    intro s b hphase hb
    subst hb
    exact brings_of_run (execActivateSlotWritten.eq_def s) (saWritten_drains hphase)
  case drained =>
    intro s hphase hctxs
    refine gives_of_run (execActivateInflightDrained.eq_def s) ?_
    rw [saDrained, if_pos ⟨hphase, by simp [inFlight, hctxs]⟩]
  case commit =>
    intro s hphase hcopies hlocker hheld
    exact brings_of_run (execActivateCommit.eq_def s) (saCommit_commits hphase hcopies hlocker hheld)
  case restructure =>
    intro s hphase hsram hdram
    obtain ⟨hmem, hends⟩ := saRestructure_ends s.mem hphase hsram hdram
    exact ⟨(saRestructure s.dev s.mem).1, by rw [← hmem]; rfl, hends⟩

end Sys2Proof.Machine
end

section
/-! PROOF. Firmware: download, commit and the switch. -/
namespace Sys2Proof.Machine

theorem fwStaged_of_fw {d e : Dev} (h : e.fw = d.fw) : fwStaged e = fwStaged d := by rw [fwStaged, fwStaged, h]

/-- An admin command that waited ends on its enabled controller. -/
theorem endAdmin_ends {d : Dev} {h : Nat} (cid st dw0 : Nat) (henabled : (d.port h).enabled = true) :
    (endAdmin d (some (h, cid)) st dw0).out = .cqe h 0 cid st dw0 :: d.out := by
  have hrun : endAdmin d (some (h, cid)) st dw0 =
      syncHost (adminEnd (d.updPort h fun p => { p with adminUsed := p.adminUsed - 1 }) h cid st dw0) := if_pos henabled
  rw [hrun, out_of_keep (keep_syncHost (ft := syncHostFoot) (by decide) _) (by decide)]
  rfl

theorem loadFirmware_fw (d : Dev) : (loadFirmware d).fw.active = d.fw.active ∧ (loadFirmware d).fw.sw = d.fw.sw := by
  unfold loadFirmware
  extract_lets image a
  split
  next i _ => exact ⟨rfl, rfl⟩
  next _ =>
    split
    · exact ⟨rfl, rfl⟩
    · rw [fw_of_keep (keep_loadRecovery (ft := loadStructureFoot) (by decide) _) (by decide)]
      exact ⟨rfl, rfl⟩

theorem fwSwitch_switches {d : Dev} {h cid slot : Nat} (hsw : d.fw.sw = some (h, cid, slot)) (hidle : d.host.ctxs = [])
    (henabled : (d.port h).enabled = true) :
    (fwSwitch d).fw.active = slot ∧ (fwSwitch d).fw.sw = none ∧ (fwSwitch d).host.stops.contains 2 = false ∧
      (fwSwitch d).out.head? = some (.cqe h 0 cid 0 0) := by
  have hrun : fwSwitch d = endAdmin (resumeFetch (loadFirmware { d with fw := { d.fw with active := slot, sw := none } }) 2) (some (h, cid)) 0 0 := by
    unfold fwSwitch
    simp only [hsw]
    rw [if_neg (by simp [inFlight, hidle])]
  obtain ⟨hactive, hnone⟩ := loadFirmware_fw { d with fw := { d.fw with active := slot, sw := none } }
  have hport : ((resumeFetch (loadFirmware { d with fw := { d.fw with active := slot, sw := none } }) 2).port h).enabled = true := by
    rw [← henabled]
    refine congrArg Port.enabled (port_of_ports ?_ h)
    show (loadFirmware { d with fw := { d.fw with active := slot, sw := none } }).host.ports = d.host.ports
    rw [host_of_keep (keep_loadFirmware (ft := loadFirmwareFoot) (by decide) _) (by decide)]
  generalize loadFirmware { d with fw := { d.fw with active := slot, sw := none } } = e at *
  have hfw : (endAdmin (resumeFetch e 2) (some (h, cid)) 0 0).fw = e.fw := fw_of_keep (keep_endAdmin (ft := endAdminFoot) (by decide) _ _ _ _) (by decide)
  rw [hrun, hfw, endAdmin_ends cid 0 0 hport, stops_of_hkeep (hkeep_endAdmin (ft := updPortHost) (by decide) _ _ _ _) (by decide)]
  exact ⟨hactive, hnone, resumeFetch_stops e 2, rfl⟩

theorem fwTimeout_ends {d : Dev} {h cid slot : Nat} (hsw : d.fw.sw = some (h, cid, slot)) (hbusy : d.host.ctxs ≠ [])
    (henabled : (d.port h).enabled = true) :
    (fwTimeout d).fw.active = slot ∧ (fwTimeout d).fw.sw = none ∧ (fwTimeout d).host.stops.contains 2 = false ∧
      (fwTimeout d).out = .cqe h 0 cid stMaxTime 0 :: d.out := by
  have hrun : fwTimeout d = endAdmin (resumeFetch { d with fw := { d.fw with active := slot, sw := none } } 2) (some (h, cid)) stMaxTime 0 := by
    unfold fwTimeout
    simp only [hsw]
    rw [if_neg (by simp [inFlight, hbusy])]
  have hport : ((resumeFetch { d with fw := { d.fw with active := slot, sw := none } } 2).port h).enabled = true := henabled
  rw [hrun, endAdmin_ends cid stMaxTime 0 hport, stops_of_hkeep (hkeep_endAdmin (ft := updPortHost) (by decide) _ _ _ _) (by decide),
    fw_of_keep (keep_endAdmin (ft := endAdminFoot) (by decide) _ _ _ _) (by decide)]
  exact ⟨rfl, rfl, resumeFetch_stops _ 2, rfl⟩

/-- The commit of a staged image that passes R386, by its action. -/
theorem fwCommit_commits {d : Dev} {h cid slot action : Nat} {b : List Byte} (hstaged : fwStaged d = some b) (hok : firmwareOk d b = true)
    (haction : action ≤ 1 ∨ (action = 3 ∧ d.fw.staging ≠ [])) :
    fwCommit h cid slot action d = (if action = 0 then adminEnd (fwPut d slot b) h cid 0 0
      else if action = 3 then fwStart (fwPut d slot b) h cid slot
      else adminEnd { fwPut d slot b with fw := { (fwPut d slot b).fw with active := slot } } h cid 0 0) := by
  have hcase : action = 0 ∨ action = 1 ∨ (action = 3 ∧ d.fw.staging ≠ []) := by
    rcases haction with hle | h3
    · have : action = 0 ∨ action = 1 := by omega
      tauto
    · exact .inr (.inr h3)
  rcases hcase with rfl | rfl | ⟨rfl, hne⟩
  · simp [fwCommit, hstaged, hok]
  · simp [fwCommit, hstaged, hok]
  · simp [fwCommit, hstaged, hok, hne]

theorem fwStart_starts (d : Dev) (h cid slot : Nat) :
    (fwStart d h cid slot).fw = { d.fw with sw := some (h, cid, slot) } ∧ (fwStart d h cid slot).host.stops.contains 2 = true := by
  have hfw : (holdAdmin (noticeOutstanding (stopFetch d 2) ntFirmware) h).fw = d.fw :=
    (fw_of_keep (keep_holdAdmin (ft := holdAdminFoot) (by decide) _ _) (by decide)).trans
      (fw_of_keep (keep_noticeOutstanding (ft := postNoticeFoot) (by decide) _ _) (by decide))
  have hstops : (holdAdmin (noticeOutstanding (stopFetch d 2) ntFirmware) h).host.stops.contains 2 = true := by
    rw [stops_of_hkeep (hkeep_holdAdmin (ft := updPortHost) (by decide) _ _) (by decide),
      stops_of_hkeep (hkeep_noticeOutstanding (ft := updPortHost) (by decide) _ _) (by decide)]
    exact stopFetch_stops d 2
  unfold fwStart
  extract_lets d1
  exact ⟨congrArg (fun x : FwState => { x with sw := some (h, cid, slot) }) hfw, hstops⟩

/-- Settles O30: a lemma per row. -/
theorem firmwareRowsComplete : Obligations.FirmwareRowsComplete := by
  unfold Obligations.FirmwareRowsComplete
  refine ⟨?download, ?commit, ?activate, ?switch, ?timeout⟩
  case download =>
    intro s h cid offsetDw piece hruns hpiece hsize
    refine brings_of_run (execFirmwareImageDownload.eq_def h cid offsetDw piece s) ?_
    rw [adminDo_runs cid _ hruns, fwDownload, if_neg (by simp [hpiece]; exact hsize)]
    refine ⟨?_, ?_⟩
    · rw [← wakeChip_out s.dev]
      rfl
    · rw [← wakeChip_fw s.dev]
      rfl
  case commit =>
    intro s h cid slot action b hruns haction hstaged hok
    refine brings_of_run (execFirmwareCommit.eq_def h cid slot action s) ?_
    have hrun := fwCommit_commits (h := h.val) (cid := cid) (slot := slot.val) ((fwStaged_of_fw (wakeChip_fw s.dev)).trans hstaged) hok (.inl haction)
    rw [adminDo_runs cid _ hruns, hrun]
    have hcase : action = 0 ∨ action = 1 := by omega
    have hslot : tabGet [] (fwPut (wakeChip s.dev) slot.val b).fw.slots slot.val = b := by
      rw [fwPut, tabGet_tabPut, if_pos rfl]
    rcases hcase with rfl | rfl
    · refine ⟨hslot, rfl, by rw [← wakeChip_out s.dev]; rfl, by rw [← wakeChip_fw s.dev]; rfl⟩
    · exact ⟨hslot, rfl, by rw [← wakeChip_out s.dev]; rfl, rfl⟩
  case activate =>
    intro s h cid slot b hruns hstaged hne hok
    refine brings_of_run (execFirmwareCommit.eq_def h cid slot 3 s) ?_
    have hrun := fwCommit_commits (h := h.val) (cid := cid) (slot := slot.val) ((fwStaged_of_fw (wakeChip_fw s.dev)).trans hstaged) hok
      (.inr ⟨rfl, by rwa [wakeChip_fw]⟩)
    obtain ⟨hfw, hstops⟩ := fwStart_starts (fwPut (wakeChip s.dev) slot.val b) h.val cid slot.val
    rw [adminDo_runs cid _ hruns, hrun, if_neg (by decide), if_pos rfl, hfw]
    exact ⟨rfl, hstops, by rw [fwPut, tabGet_tabPut, if_pos rfl]⟩
  case switch =>
    intro s h cid slot hsw hidle henabled
    exact brings_of_run (execFirmwareImageSwitch.eq_def s) (fwSwitch_switches hsw hidle henabled)
  case timeout =>
    intro s h cid slot hsw hbusy henabled
    exact brings_of_run (execFirmwareActivationTimeout.eq_def s) (fwTimeout_ends hsw hbusy henabled)

end Sys2Proof.Machine
end

section
/-! PROOF. Host I/O commands join their submission queue. -/
namespace Sys2Proof.Machine

section
variable (sqs : List Sq) (qid : Nat) (x : Nat × IoCmd)

/-- The submission queues once one command has joined the queue of a number. -/
def sqsJoined : List Sq :=
  listMapIf (fun q => q.qid == qid && decide (q.cmds.length + 1 < q.entries)) (fun q => { q with cmds := q.cmds ++ [x] }) sqs

theorem sqsJoined_qid (k : Nat) : (fun q : Sq => q.qid == k) ∘ (fun q =>
    if q.qid == qid && decide (q.cmds.length + 1 < q.entries) then { q with cmds := q.cmds ++ [x] } else q) = fun q => q.qid == k := by
  funext q
  simp only [Function.comp_apply]
  split <;> rfl

theorem sqsJoined_find {q : Sq} (hfind : sqs.find? (fun q => q.qid == qid) = some q) (hroom : q.cmds.length + 1 < q.entries) :
    (sqsJoined sqs qid x).find? (fun q => q.qid == qid) = some { q with cmds := q.cmds ++ [x] } := by
  have hqid : (q.qid == qid) = true := List.find?_some (p := fun q : Sq => q.qid == qid) hfind
  rw [sqsJoined, listMapIf, List.find?_map, sqsJoined_qid, hfind, Option.map_some, if_pos (by simp only [hqid, hroom]; decide)]

theorem sqsJoined_others {k : Nat} (hk : k ≠ qid) :
    (sqsJoined sqs qid x).filter (fun q => q.qid == k) = sqs.filter fun q => q.qid == k := by
  rw [sqsJoined, listMapIf, List.filter_map, sqsJoined_qid]
  refine (List.map_congr_left fun q hq => ?_).trans (List.map_id _)
  have hqid : q.qid = k := by simpa using (List.mem_filter.1 hq).2
  rw [if_neg (by simp [hqid, hk]), id_eq]

end

theorem submits_of_run {c : Instr} {s : State} {h qid cid : Nat} {x : IoCmd} (hrun : exec c s = lift s (submit h qid cid x)) :
    Submits c s h qid cid x := by
  intro q hfind hroom
  refine brings_of_run hrun ?_
  have hport : (submit h qid cid x s.dev).port h = { s.dev.port h with sqs := sqsJoined (s.dev.port h).sqs qid (cid, x) } := by
    unfold submit
    rw [Dev.updPort_port, if_pos rfl]
    rfl
  refine ⟨by rw [hport]; exact sqsJoined_find _ _ _ hfind hroom, fun k hk => by rw [hport]; exact sqsJoined_others _ _ _ hk, ?_⟩
  rw [hport, Dev.updPort]
  rfl

/-- Settles O31: every I/O row is one submission. -/
theorem submissionRowsComplete : Obligations.SubmissionRowsComplete := by
  unfold Obligations.SubmissionRowsComplete
  refine ⟨fun s h qid cid r n z b all toks rs key => ?_, fun s h qid cid nsid z nlb ctx level stored bufLbas key cont gcm chunk => ?_⟩
  · refine ⟨?_, ?_, ?_, ?_, ?_, ?_, ?_, ?_, ?_, ?_, ?_, ?_, ?_, ?_, ?_, ?_⟩
    all_goals exact submits_of_run rfl
  · refine ⟨?_, ?_, ?_, ?_⟩
    all_goals exact submits_of_run rfl

end Sys2Proof.Machine
end

section
/-! PROOF. Host state that the steps of a write and of a media task keep. -/
namespace Sys2Proof.Machine

theorem hkeep_foldl_snd {α β : Type} {m : Nat} (l : List α) (g : β × Dev → α → β × Dev)
    (h : ∀ acc x, hkeep m (g acc x).2 = hkeep m acc.2) (acc : β × Dev) : hkeep m (l.foldl g acc).2 = hkeep m acc.2 := by
  induction l generalizing acc with
  | nil => rfl
  | cons x l ih => exact (ih (g acc x)).trans (h acc x)

def countMovedHost : Nat := hostFoot [.moved]
theorem hkeep_countMoved {ft : Nat} (hft : inFoot countMovedHost ft = true) (d : Dev) (x : Ctx) (hdas : List Nat) : hkeep ft
    (countMoved d x hdas) = hkeep ft d :=
  hkeep_mono hft (by simp +decide only [countMoved, ↓hkeep_updHost, hmask, if_true, implies_true, ↓hkeep_forEach, ↓hkeep_ite, ite_self, implies_true])

theorem hkeep_takeCell {ft : Nat} (hft : inFoot updExtentsHost ft = true) (d : Dev) (nsid lba : Nat) : hkeep ft (takeCell d nsid
    lba).2 = hkeep ft d :=
  hkeep_mono hft (by simp +decide only [takeCell]; split <;> simp +decide only [↓hkeep_updExtents])

def placeExtentHost : Nat := hostFoot [.extents, .nextSeq]
theorem hkeep_placeExtent {ft : Nat} (hft : inFoot placeExtentHost ft = true) (d : Dev) (wid nsid : Nat) (cells : List (Nat ×
    BufCopy)) : hkeep ft (placeExtent d wid nsid cells) = hkeep ft d := by
  refine hkeep_mono hft ?_
  unfold placeExtent
  extract_lets seq r
  have hr : hkeep placeExtentHost r.2 = hkeep placeExtentHost d := by
    refine hkeep_foldl_snd cells _ (fun acc c => ?_) _
    exact hkeep_takeCell (by decide) acc.2 nsid c.1
  simp +decide only [hr, ↓hkeep_updHost, hmask, if_true, implies_true]

def releaseHost : Nat := hostFoot [.detention, .detGen]
theorem hkeep_release {ft : Nat} (hft : inFoot releaseHost ft = true) (d : Dev) (nsid slba count : Nat) : hkeep ft (release d
    nsid slba count) = hkeep ft d :=
  hkeep_mono hft (by simp +decide only [release, ↓hkeep_updHost, hmask, if_true, implies_true, ↓hkeep_ite, ite_self])

def unlockerHost : Nat := hostFoot [.locker]
theorem hkeep_unlocker {ft : Nat} (hft : inFoot unlockerHost ft = true) (d : Dev) (nsid slba count : Nat) : hkeep ft (unlocker d
    nsid slba count) = hkeep ft d :=
  hkeep_mono hft (by simp +decide only [unlocker, ↓hkeep_updHost, hmask, if_true, implies_true])

theorem hkeep_beginWaiting {ft : Nat} (hft : inFoot updTasksHost ft = true) (d : Dev) : hkeep ft (beginWaiting d) = hkeep ft d
    :=
  hkeep_mono hft (by simp +decide only [beginWaiting, ↓hkeep_beginTasks, ↓hkeep_forEach, implies_true])

theorem hkeep_dropTask {ft : Nat} (hft : inFoot updTasksHost ft = true) (d : Dev) (tid : Nat) : hkeep ft (dropTask d tid) =
    hkeep ft d :=
  hkeep_mono hft (by simp +decide only [dropTask, ↓hkeep_updTasks, ↓hkeep_beginWaiting])

theorem hkeep_returnData {ft : Nat} (d : Dev) (x : Ctx) (toks : List Nat) : hkeep ft (returnData d x toks) = hkeep ft d :=
  hkeep_of_keep (keep_returnData (ft := originateFoot) (by decide) d x toks) (by decide) ft

theorem hkeep_putFrame {ft : Nat} (d : Dev) (id : Nat) (f : CFrame) : hkeep ft (putFrame d id f) = hkeep ft d :=
  hkeep_of_keep (keep_putFrame (ft := putFrameFoot) (by decide) d id f) (by decide) ft

theorem hkeep_joinContext {ft : Nat} (d : Dev) (ctx id : Nat) : hkeep ft (joinContext d ctx id) = hkeep ft d :=
  hkeep_of_keep (keep_joinContext (ft := joinContextFoot) (by decide) d ctx id) (by decide) ft

theorem hkeep_frameRead {ft : Nat} (hft : inFoot leaveTableHost ft = true) (d : Dev) (x : Ctx) (toks : List Nat) : hkeep ft
    (frameRead d x toks) = hkeep ft d :=
  hkeep_mono hft (by simp +decide only [frameRead]; split <;> simp +decide only [↓hkeep_setFlag, ↓hkeep_updCtx, ↓hkeep_putFrame, ↓hkeep_finish,
    ↓hkeep_joinContext, ↓hkeep_ite, ite_self])

def serveReadHost : Nat := hostFoot [.ctxs, .order, .tasks, .moved]
theorem hkeep_serveRead {ft : Nat} (hft : inFoot serveReadHost ft = true) (d : Dev) (x : Ctx) : hkeep ft (serveRead d x) = hkeep
    ft d :=
  hkeep_mono hft (by unfold serveRead; split <;> simp +decide only [↓hkeep_returnData, ↓hkeep_finish, ↓hkeep_frameRead,
    ↓hkeep_countMoved, ↓hkeep_ite, ite_self])

theorem hkeep_xtsPairs {ft : Nat} (d : Dev) (ns : Ns) (pairs : List Nat) (destage : Bool) : hkeep ft (xtsPairs d ns pairs
    destage).2 = hkeep ft d :=
  hkeep_of_keep (keep_xtsPairs (ft := xtsUseFoot) (by decide) d ns pairs destage) (by decide) ft

end Sys2Proof.Machine
end

section
/-! PROOF. Contexts of commands: how they are found, how a command ends, and that what was reported stays reported. -/
namespace Sys2Proof.Machine

/-! ### Contexts by their number -/

theorem Dev.ctx?_of_ctxs {d e : Dev} (h : e.host.ctxs = d.host.ctxs) (id : Nat) : e.ctx? id = d.ctx? id := by rw [Dev.ctx?, Dev.ctx?, h]

theorem Dev.ctx?_of_hkeep {d e : Dev} {m : Nat} (h : hkeep m e = hkeep m d) (hm : m.testBit HField.ctxs.ctorIdx = false) (id : Nat) :
    e.ctx? id = d.ctx? id := Dev.ctx?_of_ctxs (ctxs_of_hkeep h hm) id

theorem Dev.id_of_ctx? {d : Dev} {id : Nat} {x : Ctx} (h : d.ctx? id = some x) : x.id = id := by
  simpa using List.find?_some (p := fun x : Ctx => x.id == id) h

theorem Dev.ctx?_updCtx_same {d : Dev} {id : Nat} {x : Ctx} {g : Ctx → Ctx} (hid : ∀ y, (g y).id = y.id) (h : d.ctx? id = some x) :
    (d.updCtx id g).ctx? id = some (g x) := by
  have hcomp : (fun y : Ctx => y.id == id) ∘ (fun y => if y.id == id then g y else y) = fun y => y.id == id := by
    funext y
    simp only [Function.comp_apply]
    split
    · rw [hid]
    · rfl
  show (listMapIf (fun c => c.id == id) g d.host.ctxs).find? _ = _
  rw [listMapIf, List.find?_map, hcomp, show d.host.ctxs.find? (fun y => y.id == id) = some x from h, Option.map_some,
    if_pos (by simpa using Dev.id_of_ctx? h)]

theorem ctx?_eq_none {l : List Ctx} (id : Nat) : (l.filter fun c => c.id != id).find? (fun c => c.id == id) = none := by
  rw [List.find?_eq_none]
  intro c hc
  simpa using (List.mem_filter.1 hc).2

section
variable (d : Dev)

@[simp] theorem syncHost_host : (syncHost d).host = d.host := host_of_keep (keep_syncHost (ft := syncHostFoot) (by decide) d) (by decide)
@[simp] theorem syncHost_out : (syncHost d).out = d.out := out_of_keep (keep_syncHost (ft := syncHostFoot) (by decide) d) (by decide)
@[simp] theorem syncHost_chain : (syncHost d).chain = d.chain := chain_of_keep (keep_syncHost (ft := syncHostFoot) (by decide) d) (by decide)
@[simp] theorem syncHost_comp : (syncHost d).comp = d.comp := comp_of_keep (keep_syncHost (ft := syncHostFoot) (by decide) d) (by decide)
@[simp] theorem syncHost_cipher : (syncHost d).cipher = d.cipher := cipher_of_keep (keep_syncHost (ft := syncHostFoot) (by decide) d) (by decide)
@[simp] theorem syncHost_ctx? (id : Nat) : (syncHost d).ctx? id = d.ctx? id := Dev.ctx?_of_ctxs (by rw [syncHost_host]) id

end

/-! ### What was reported stays reported -/

/-- Whether an event is among those reported. -/
def Reported (ev : Emit) (d : Dev) : Prop := ev ∈ d.out

/-- From `b` on nothing reported is lost and no context appears. -/
structure Onward (b d : Dev) : Prop where
  out : b.out ⊆ d.out
  ids : d.host.ctxs.map (·.id) ⊆ b.host.ctxs.map (·.id)

section
variable {ev : Emit} {b d e : Dev}

theorem Onward.refl (b : Dev) : Onward b b := ⟨List.Subset.refl _, List.Subset.refl _⟩

theorem Onward.trans (h : Onward b d) (h' : Onward d e) : Onward b e := ⟨List.Subset.trans h.out h'.out, List.Subset.trans h'.ids h.ids⟩

theorem Onward.reported (h : Onward b d) (hb : Reported ev b) : Reported ev d := h.out hb

theorem ctx?_eq_none_iff {id : Nat} : d.ctx? id = none ↔ id ∉ d.host.ctxs.map (·.id) := by
  simp [Dev.ctx?, List.find?_eq_none]

theorem Onward.gone {id : Nat} (h : Onward b d) (hb : b.ctx? id = none) : d.ctx? id = none :=
  ctx?_eq_none_iff.2 fun hmem => ctx?_eq_none_iff.1 hb (h.ids hmem)

theorem Onward.of (hout : e.out = d.out) (hctxs : e.host.ctxs = d.host.ctxs) (h : Onward b d) : Onward b e :=
  ⟨by rw [hout]; exact h.out, by rw [hctxs]; exact h.ids⟩

theorem Onward.of_keep {m : Nat} (h : Onward b d) (hk : keep m e = keep m d) (ho : m.testBit Part.out.ctorIdx = false)
    (hh : m.testBit Part.host.ctorIdx = false) : Onward b e := .of (out_of_keep hk ho) (congrArg _ (host_of_keep hk hh)) h

theorem Onward.of' (h : Onward b d) (hout : e.out = d.out) (hctxs : e.host.ctxs = d.host.ctxs) : Onward b e := .of hout hctxs h

theorem Onward.emit (h : Onward b d) (x : Emit) : Onward b (d.emit x) := ⟨List.Subset.trans h.out (List.subset_cons_self _ _), h.ids⟩

theorem Onward.updCtx (h : Onward b d) (id : Nat) {g : Ctx → Ctx} (hg : ∀ x, (g x).id = x.id) : Onward b (d.updCtx id g) := by
  refine ⟨h.out, ?_⟩
  have hids : (d.updCtx id g).host.ctxs.map (·.id) = d.host.ctxs.map (·.id) := by
    show (d.host.ctxs.map _).map _ = _
    rw [List.map_map]
    refine List.map_congr_left fun x _ => ?_
    simp only [Function.comp_apply]
    split
    · exact hg x
    · rfl
  rw [hids]
  exact h.ids

theorem reported_emit (ev : Emit) (d : Dev) : Reported ev (d.emit ev) := List.mem_cons_self

theorem Onward.ite {c : Prop} [Decidable c] (h1 : c → Onward b d) (h2 : ¬c → Onward b e) : Onward b (if c then d else e) := by
  split
  next h => exact h1 h
  next h => exact h2 h

theorem Onward.forEach {α : Type} {l : List α} {g : Dev → α → Dev} (h : ∀ e x, Onward b e → Onward b (g e x)) (hd : Onward b d) :
    Onward b (forEach l d g) := forEach_inv (fun e x _ => h e x) hd

theorem Onward.sendAs (hd : Onward b d) (p : Nat) (f : Frame) (a : Option Nat) (stomp : Bool) : Onward b (sendAs d p f a stomp) := by
  unfold Machine.sendAs
  extract_lets f1 d1 d2 d3 d4 d5
  have h5 : d5.out = d.out := by
    rw [show d5.out = d2.out from rfl]
    show (if (d1.lport p).retry.isEmpty then d1.wr F.lmlRetry_sends 1 p else d1).out = _
    split <;> rfl
  have h5' : d5.host = d.host := by
    rw [show d5.host = d2.host from rfl]
    show (if (d1.lport p).retry.isEmpty then d1.wr F.lmlRetry_sends 1 p else d1).host = _
    split <;> rfl
  exact ((hd.of' h5 (by rw [h5'])).emit _).emit _

theorem Onward.flitDue (hd : Onward b d) (p : Nat) : Onward b (flitDue d p) :=
  .ite (fun _ => ((hd.of' (e := d.updLport p fun l => { l with unacked := 0, told := 0 }) rfl rfl).emit _).emit _) fun _ => hd

theorem Onward.freeRx (hd : Onward b d) (a : Option Nat) (cls len : Nat) : Onward b (freeRx d a cls len) := by
  cases a with
  | none => exact hd
  | some p => exact Onward.flitDue (.of (by rfl) (by rfl) hd) p

theorem Onward.putOn (hd : Onward b d) (p : Nat) (tf : TxFrame) : Onward b (putOn d p tf) :=
  .ite (fun _ => (hd.sendAs p tf.f tf.arrival false).freeRx _ _ _) fun _ => hd.of' rfl rfl

theorem Onward.originate (hd : Onward b d) (f : Frame) : Onward b (originate d f) := by
  unfold Machine.originate
  split
  · exact hd.putOn _ _
  · exact .ite (fun _ => hd.of' rfl rfl) fun _ => hd
  · exact .ite (fun _ => hd.of' rfl rfl) fun _ => hd.of' rfl rfl

theorem Onward.cancelRemote (hd : Onward b d) (id : Nat) : Onward b (cancelRemote d id) := by
  unfold Machine.cancelRemote
  split
  · exact hd
  · exact Onward.originate (.of (by rfl) (by rfl) hd) _

theorem Onward.syncWork (hd : Onward b d) : Onward b (syncWork d) :=
  hd.of_keep (keep_syncWork (ft := syncWorkFoot) (by decide) d) (by decide) (by decide)

theorem Onward.dropWork (hd : Onward b d) (id : Nat) : Onward b (dropWork d id) :=
  Onward.syncWork (.of (by rfl) (by rfl) (hd.cancelRemote id))

theorem leaveTable_ctxs (d : Dev) (x : Ctx) : (leaveTable d x).host.ctxs = d.host.ctxs.filter fun c => c.id != x.id := by
  unfold Machine.leaveTable
  extract_lets headed d1
  have h1 : d1.host = d.host := by
    show (if headed then Machine.forEach [0, 1] d fun d h => d.setBit F.hstRltStat_blocked x.fe false h else d).host = d.host
    split <;> rfl
  show d1.host.ctxs.filter _ = _
  rw [h1]

theorem Onward.leaveTable (hd : Onward b d) (x : Ctx) : Onward b (leaveTable d x) := by
  refine ⟨by rw [out_of_keep (keep_leaveTable (ft := leaveTableFoot) (by decide) d x) (by decide)]; exact hd.out, ?_⟩
  rw [leaveTable_ctxs]
  exact List.Subset.trans (List.map_subset _ (List.filter_subset_self _)) hd.ids

theorem Onward.chainRespond (hd : Onward b d) (src tag status dw0 : Nat) (body : List Nat) :
    Onward b (chainRespond d src tag status dw0 body) := by
  unfold Machine.chainRespond
  split
  · exact hd
  · exact Onward.originate (.of (by rfl) (by rfl) hd) _

theorem Onward.syncHost (hd : Onward b d) : Onward b (syncHost d) := hd.of' (syncHost_out d) (by rw [syncHost_host])

theorem Onward.finish (hd : Onward b d) (id status dw0 : Nat) : Onward b (finish d id status dw0) := by
  unfold Machine.finish
  split
  · exact hd
  next x _ =>
    have hdrop := (hd.leaveTable x).dropWork id
    refine Onward.syncHost ?_
    split
    · exact hdrop.emit _
    · exact hdrop.chainRespond _ _ _ _ _
    · exact hdrop
    · exact hdrop

theorem Onward.of_hkeep {m n : Nat} (h : Onward b d) (hk : keep m e = keep m d) (ho : m.testBit Part.out.ctorIdx = false)
    (hh : hkeep n e = hkeep n d) (hc : n.testBit HField.ctxs.ctorIdx = false) : Onward b e :=
  .of (out_of_keep hk ho) (ctxs_of_hkeep hh hc) h

theorem Onward.discardCtx (hd : Onward b d) (id : Nat) : Onward b (discardCtx d id) := by
  unfold Machine.discardCtx
  split
  · exact hd.dropWork _
  · exact (hd.leaveTable _).dropWork _

theorem Onward.rearmReads (hd : Onward b d) : Onward b (rearmReads d) := by
  refine ⟨hd.out, ?_⟩
  have hids : (Machine.rearmReads d).host.ctxs.map (·.id) = d.host.ctxs.map (·.id) := by
    show (d.host.ctxs.map _).map _ = _
    rw [List.map_map]
    refine List.map_congr_left fun x _ => ?_
    simp only [Function.comp_apply]
    split <;> rfl
  rw [hids]
  exact hd.ids

theorem Onward.restoreCell (hd : Onward b d) (nsid : Nat) (c : BufCell) : Onward b (restoreCell d nsid c) :=
  hd.of_hkeep (keep_restoreCell (ft := restoreCellFoot) (by decide) d nsid c) (by decide) (hkeep_restoreCell (ft := updExtentsHost) (by decide) d nsid c)
    (by decide)

theorem Onward.discardData (hd : Onward b d) (wid : Nat) : Onward b (discardData d wid) :=
  Onward.rearmReads (.forEach (fun e x he => .forEach (fun e c he => he.restoreCell x.nsid c) he) (.of (by rfl) (by rfl) hd))

theorem Onward.setPtr (hd : Onward b d) (nsid zi wp : Nat) : Onward b (setPtr d nsid zi wp) :=
  hd.of_hkeep (keep_setPtr (ft := setPtrFoot) (by decide) d nsid zi wp) (by decide) (hkeep_setPtr (ft := updNsHost) (by decide) d nsid zi wp) (by decide)

theorem Onward.refreshParity (hd : Onward b d) (nsid zi : Nat) : Onward b (refreshParity d nsid zi) :=
  hd.of_hkeep (keep_refreshParity (ft := refreshParityFoot) (by decide) d nsid zi) (by decide)
    (hkeep_refreshParity (ft := refreshParityHost) (by decide) d nsid zi) (by decide)

theorem Onward.replaceAppend (hd : Onward b d) (y : Ctx) (zi zs : Nat) : Onward b (replaceAppend d y zi zs) := by
  unfold Machine.replaceAppend
  split
  · exact hd
  · split
    · exact hd
    · exact .updCtx (.of (by rfl) (by rfl) (hd.setPtr _ _ _)) _ (by exact fun _ => rfl)

theorem Onward.undoContext (hd : Onward b d) (x : Ctx) : Onward b (undoContext d x) :=
  hd.of_keep (keep_undoContext (ft := undoContextFoot) (by decide) d x) (by decide) (by decide)

theorem Onward.restorePtr (hd : Onward b d) (x : Ctx) : Onward b (restorePtr d x) := by
  unfold Machine.restorePtr
  split
  · refine .ite (fun _ => hd) fun _ => ?_
    refine Onward.refreshParity (.forEach (fun e y he => ?_) (hd.setPtr _ _ _)) _ _
    exact .ite (fun _ => (he.discardData _).finish _ _ _) fun _ => he.replaceAppend _ _ _
  · exact hd

theorem Onward.failWrite (hd : Onward b d) (id status : Nat) : Onward b (failWrite d id status) := by
  unfold Machine.failWrite
  split
  · exact hd
  · exact (((hd.discardData _).undoContext _).restorePtr _).finish _ _ _

theorem Onward.returnData (hd : Onward b d) (x : Ctx) (toks : List Nat) : Onward b (returnData d x toks) := by
  unfold Machine.returnData
  split
  · exact hd.emit _
  · exact hd
  · exact hd
  · split
    · exact hd
    · exact .forEach (fun e t he => he.originate _) (.of (by rfl) (by rfl) hd)

theorem Onward.rootFinish (hd : Onward b d) (t : RootTx) (status dw0 : Nat) (toks : List Nat) : Onward b (rootFinish d t status dw0 toks) := by
  unfold Machine.rootFinish
  extract_lets st d1
  have h1 : Onward b d1 := .of (by rfl) (by rfl) hd
  clear_value d1
  split
  · exact h1
  next x _ =>
    refine .ite (fun _ => .ite (fun _ => (h1.discardCtx _).failWrite _ _) fun _ => (h1.discardCtx _).updCtx _ (by exact fun _ => rfl)) fun _ =>
      .ite (fun _ => h1.failWrite _ _) fun _ => ?_
    exact Onward.finish (.ite (fun _ => h1) fun _ => h1.returnData _ _) _ _ _

theorem Onward.rootEnd (hd : Onward b d) (t : RootTx) (status : Nat) : Onward b (rootEnd d t status) :=
  (hd.rootFinish t status 0 []).originate _

theorem Onward.targetEnd (hd : Onward b d) (e : Dedupe) (status : Nat) : Onward b (targetEnd d e status) := by
  unfold Machine.targetEnd
  split
  · exact hd.chainRespond _ _ _ _ _
  · exact .ite (fun _ => hd.failWrite _ _) fun _ => hd.finish _ _ _

theorem Onward.staleFrame (hd : Onward b d) : Onward b (staleFrame d) := hd.of' rfl rfl

theorem Onward.nakArrived (hd : Onward b d) (f : Frame) : Onward b (nakArrived d f) := by
  unfold Machine.nakArrived
  extract_lets reason ty st
  refine .ite (fun _ => ?_) fun _ => ?_
  · split
    · exact hd.staleFrame
    · exact .ite (fun _ => hd.of' rfl rfl) fun _ => hd.rootEnd _ _
  · split
    · exact hd.staleFrame
    · exact hd.targetEnd _ _

theorem Onward.takeNaks (hd : Onward b d) : Onward b (takeNaks d) :=
  .forEach (fun e f he => he.nakArrived f) (.of (by rfl) (by rfl) hd)

end

/-! ### The end of a command -/

theorem finish_ctxs {d : Dev} {id : Nat} {x : Ctx} (st dw0 : Nat) (h : d.ctx? id = some x) :
    (finish d id st dw0).host.ctxs = d.host.ctxs.filter fun c => c.id != id := by
  have hleave : (leaveTable d x).host.ctxs = d.host.ctxs.filter fun c => c.id != id := by
    rw [leaveTable_ctxs, Dev.id_of_ctx? h]
  unfold finish
  rw [h]
  show (syncHost _).host.ctxs = _
  rw [syncHost_host, ← hleave, ← ctxs_of_hkeep (hkeep_dropWork (ft := 0) (leaveTable d x) id) (by decide)]
  split
  · rfl
  · exact ctxs_of_hkeep (hkeep_chainRespond (ft := 0) _ _ _ _ _ _) (by decide)
  · rfl
  · rfl

theorem finish_gone (d : Dev) (id st dw0 : Nat) : (finish d id st dw0).ctx? id = none := by
  cases h : d.ctx? id with
  | none => rw [finish, h]; exact h
  | some x => rw [Dev.ctx?, finish_ctxs st dw0 h]; exact ctx?_eq_none id

theorem finish_reports {d : Dev} {id h qid cid : Nat} {x : Ctx} (st dw0 : Nat) (hx : d.ctx? id = some x) (horg : x.org = .host h qid cid) :
    Reported (.cqe h qid cid st dw0) (finish d id st dw0) := by
  unfold finish
  rw [hx]
  show Reported _ (syncHost _)
  rw [horg]
  exact ((Onward.refl _).syncHost).reported (reported_emit _ _)

end Sys2Proof.Machine
end

section
/-! PROOF. The write buffer: what destaging, completion and coverage leave of its extents. -/
namespace Sys2Proof.Machine

/-! ### The extents but for their priority -/

/-- The extents of the buffer without the mark that they are wanted. -/
def bufferView (d : Dev) : List Extent := d.host.extents.map fun e => { e with prio := false }

section
variable {d e : Dev}

theorem bufferView_of_extents (h : e.host.extents = d.host.extents) : bufferView e = bufferView d := by rw [bufferView, bufferView, h]

theorem copiesOf_eq (d : Dev) : copiesOf d = (bufferView d).flatMap Extent.copies := by
  rw [copiesOf, bufferView, List.flatMap_map]
  rfl

theorem copiesOf_of_bufferView (h : bufferView e = bufferView d) : copiesOf e = copiesOf d := by rw [copiesOf_eq, copiesOf_eq, h]

end

section
variable (d : Dev)

theorem bufferView_destageExtent (e : Extent) (prio : Bool) : bufferView (destageExtent d e prio) = bufferView d := by
  unfold destageExtent
  extract_lets acts d1
  have h1 : bufferView d1 = bufferView d :=
    forEach_keeps (p := bufferView) (fun x a _ => bufferView_of_extents
      (extents_of_hkeep (hkeep_addTask (ft := addTaskHost) (by decide) x _ a prio) (by decide))) d
  rw [← h1]
  split
  · show (listMapIf _ _ d1.host.extents).map _ = _
    rw [listMapIf, List.map_map]
    refine List.map_congr_left fun x _ => ?_
    simp only [Function.comp_apply]
    split <;> rfl
  · rfl

theorem bufferView_destageAll (l : List Extent) (prio : Bool) : bufferView (forEach l d fun d e => destageExtent d e prio) = bufferView d :=
  forEach_keeps (p := bufferView) (fun x e _ => bufferView_destageExtent x e prio) d

theorem bufferView_finish (id st dw0 : Nat) : bufferView (finish d id st dw0) = bufferView d :=
  bufferView_of_extents (extents_of_hkeep (hkeep_finish (ft := leaveTableHost) (by decide) d id st dw0) (by decide))

theorem bufferView_tryComplete (id : Nat) : bufferView (tryComplete d id) = bufferView d := by
  unfold tryComplete
  split
  · rfl
  next x _ =>
    split
    · rfl
    split
    · exact bufferView_destageAll _ _ _
    · extract_lets d1 d2
      have h1 : bufferView d1 = bufferView d := by
        unfold d1
        split <;> rfl
      have h2 : bufferView d2 = bufferView d1 := forEach_keeps (p := bufferView) (fun x e _ => bufferView_destageExtent x e e.prio) d1
      rw [bufferView_finish, h2, h1]

theorem bufferView_settleWrites : bufferView (settleWrites d) = bufferView d :=
  forEach_keeps (p := bufferView) (fun e id _ => bufferView_tryComplete e id) d

theorem bufferView_wantHda (n : Nat) : bufferView (wantHda d n) = bufferView d := rfl

theorem bufferView_pressWriters (n : Nat) : bufferView (pressWriters d n) = bufferView d := by
  have hpress : bufferView (pressDestage d n) = bufferView d := by
    unfold pressDestage
    split
    · rfl
    · exact bufferView_destageAll _ _ _
  unfold pressWriters
  extract_lets d1
  rw [← hpress]
  split
  · rfl
  · exact forEach_keeps (p := bufferView) (fun e n _ => bufferView_wantHda e n) d1

end

/-! ### The data of the extents -/

/-- The blocks that each extent holds now. -/
def bufferData (d : Dev) : List (Nat × Nat × List (Nat × Blk)) :=
  d.host.extents.map fun e => (e.wid, e.nsid, e.cells.map fun c => (c.lba, c.now.blk))

theorem bufferData_eq (d : Dev) : bufferData d = (bufferView d).map fun e => (e.wid, e.nsid, e.cells.map fun c => (c.lba, c.now.blk)) := by
  rw [bufferData, bufferView, List.map_map]
  rfl

theorem bufferData_of_bufferView {d e : Dev} (h : bufferView e = bufferView d) : bufferData e = bufferData d := by
  rw [bufferData_eq, bufferData_eq, h]

theorem bufferData_of_extents {d e : Dev} (h : e.host.extents = d.host.extents) : bufferData e = bufferData d := by
  rw [bufferData, bufferData, h]

/-- A write to the extents that leaves the block of each cell. -/
theorem bufferData_updExtents (d : Dev) (g : BufCell → BufCell) (hg : ∀ c, (g c).lba = c.lba ∧ (g c).now.blk = c.now.blk) :
    bufferData (d.updExtents fun l => l.map fun e => { e with cells := e.cells.map g }) = bufferData d := by
  show (d.host.extents.map _).map _ = _
  rw [List.map_map]
  refine List.map_congr_left fun e _ => ?_
  simp only [Function.comp_apply, List.map_map]
  refine congrArg (fun l => (e.wid, e.nsid, l)) (List.map_congr_left fun c _ => ?_)
  simp only [Function.comp_apply, (hg c).1, (hg c).2]

theorem bufferData_trimUnder (d : Dev) (wid : Nat) : bufferData (trimUnder d wid) = bufferData d := by
  unfold trimUnder
  split
  · rfl
  · exact bufferData_updExtents d _ fun c => ⟨rfl, rfl⟩

theorem bufferData_markCovered (d : Dev) (wid n : Nat) : bufferData (markCovered d wid n) = bufferData d := by
  unfold markCovered
  extract_lets mark d1
  have hmark (c : BufCopy) : (mark c).blk = c.blk := by
    unfold mark
    split <;> rfl
  rw [bufferData_trimUnder]
  exact bufferData_updExtents d _ fun c => ⟨rfl, hmark c.now⟩

theorem bufferData_journalWrite (d : Dev) (wid n : Nat) : bufferData (journalWrite d wid n) = bufferData d :=
  bufferData_of_extents (extents_of_hkeep (hkeep_journalWrite (ft := mapUpdateHost) (by decide) d wid n) (by decide))

theorem bufferData_refreshParity (d : Dev) (nsid zi : Nat) : bufferData (refreshParity d nsid zi) = bufferData d :=
  bufferData_of_extents (extents_of_hkeep (hkeep_refreshParity (ft := refreshParityHost) (by decide) d nsid zi) (by decide))

/-! ### Coverage -/

/-- The device once a write's part on an HDA is covered, before it completes. -/
def coverPart (d : Dev) (wid n : Nat) (x : Ctx) : Dev :=
  let d := journalWrite (markCovered d wid n) wid n
  match d.ns? x.c.nsid with
  | some ns => if ns.zoned then refreshParity d x.c.nsid (zoneIndex d ns x.c.slba) else d
  | none => d

theorem coverPart_extents (d : Dev) (wid n : Nat) (x : Ctx) :
    (coverPart d wid n x).host.extents = (markCovered d wid n).host.extents := by
  have hjournal : (journalWrite (markCovered d wid n) wid n).host.extents = (markCovered d wid n).host.extents :=
    extents_of_hkeep (hkeep_journalWrite (ft := mapUpdateHost) (by decide) _ wid n) (by decide)
  have hparity (e : Dev) (nsid zi : Nat) : (refreshParity e nsid zi).host.extents = e.host.extents :=
    extents_of_hkeep (hkeep_refreshParity (ft := refreshParityHost) (by decide) e nsid zi) (by decide)
  unfold coverPart
  extract_lets d1
  rw [← hjournal]
  split
  · split
    · exact hparity _ _ _
    · rfl
  · rfl

theorem bufferData_coverNext (d : Dev) (n : Nat) : bufferData (coverNext d n) = bufferData d := by
  unfold coverNext
  split
  · rfl
  next wid _ =>
    split
    · rfl
    next x _ =>
      extract_lets d1 d2
      split
      · rfl
      · split
        · rw [bufferData_of_bufferView (bufferView_settleWrites _), bufferData_of_bufferView (bufferView_tryComplete _ _),
            bufferData_of_extents (show (syncHost d2).host.extents = (markCovered d wid n).host.extents from
              (congrArg _ (syncHost_host d2)).trans (coverPart_extents d wid n x)), bufferData_markCovered]
        · rfl

end Sys2Proof.Machine
end

section
/-! PROOF. The host pipeline from fetch to coverage. -/
namespace Sys2Proof.Machine

/-! ### The checks of a fetched command depend on a part of the device only -/

section
variable {d e : Dev} (hstruct : e.struct = d.struct) (hcipher : e.cipher = d.cipher)

include hstruct in
theorem pipeOf_of_struct (cls : Nat) : pipeOf e cls = pipeOf d cls := by simp only [pipeOf, section_of_struct hstruct]

include hstruct in
theorem classXts_of_struct (cls : Nat) : classXts e cls = classXts d cls := by simp only [classXts, pipeOf_of_struct hstruct]

include hstruct in
theorem classGcm_of_struct (cls : Nat) : classGcm e cls = classGcm d cls := by simp only [classGcm, pipeOf_of_struct hstruct]

include hstruct in
theorem classCompress_of_struct (cls : Nat) : classCompress e cls = classCompress d cls := by
  simp only [classCompress, pipeOf_of_struct hstruct]

include hcipher in
theorem rangeOf_of_cipher (nsid lba : Nat) : rangeOf e nsid lba = rangeOf d nsid lba := by simp only [rangeOf, hcipher]

include hcipher in
theorem pairOf_of_cipher (ns : Ns) (tag lba : Nat) : pairOf e ns tag lba = pairOf d ns tag lba := by
  simp only [pairOf, rangeOf_of_cipher hcipher, hcipher]

include hcipher in
theorem slotFailure_of_cipher (i : Nat) (destage : Bool) : slotFailure e i destage = slotFailure d i destage := by
  unfold slotFailure Dev.slot
  rw [hcipher]

include hcipher in
theorem lockCheck_of_cipher (nsid lba : Nat) (r w : Bool) : lockCheck e nsid lba r w = lockCheck d nsid lba r w := by
  simp only [lockCheck, rangeOf_of_cipher hcipher, hcipher]

include hstruct hcipher in
theorem pairCheck_of (ns : Ns) (tag lba : Nat) : pairCheck e ns tag lba = pairCheck d ns tag lba := by
  simp only [pairCheck, classXts_of_struct hstruct, pairOf_of_cipher hcipher, slotFailure_of_cipher hcipher]

variable (hnss : e.host.nss = d.host.nss)

theorem copySources_of_nss (hnss : e.host.nss = d.host.nss) (c : IoCmd) : copySources e c = copySources d c := by
  simp only [copySources, Dev.ns?, hnss]

include hstruct hcipher hnss in
theorem keyCheck_of (ns : Ns) (c : IoCmd) : keyCheck e ns c = keyCheck d ns c := by
  simp only [keyCheck, lockCheck_of_cipher hcipher, pairCheck_of hstruct hcipher, copySources_of_nss hnss]

include hstruct hcipher hnss in
theorem fetchCheck_of (hchain : e.chain = d.chain) (hrep : e.host.replaying = d.host.replaying) (href : e.host.refusedHda = d.host.refusedHda)
    (hact : e.rd F.glbStructStat_activate = d.rd F.glbStructStat_activate) (hpresent : e.flag F.cmpCfg_present = d.flag F.cmpCfg_present)
    (org : Origin) (fe : Nat) (c : IoCmd) : fetchCheck e org fe c = fetchCheck d org fe c := by
  have hfor (nsid : Nat) : nsFor e org nsid = nsFor d org nsid := by simp only [nsFor, Dev.ns?, hnss]
  have hneeds (ns : Ns) : needsKey e ns c = needsKey d ns c := by simp only [needsKey, classXts_of_struct hstruct]
  have hready (ns : Ns) : nsReady e ns = nsReady d ns := by simp only [nsReady, hrep, href]
  simp only [fetchCheck, hact, hcipher, hfor, hneeds, hchain, hready, hpresent, classCompress_of_struct hstruct, classGcm_of_struct hstruct,
    keyCheck_of hstruct hcipher hnss]

end

/-! ### Fetching -/

theorem wakeChip_wakes (d : Dev) : (wakeChip d).rd F.pwrCs_state = 0 := by
  unfold wakeChip
  split
  next h => exact h
  next =>
    rw [Dev.rd_wr_ne _ _ _ _ _ _ _ _ (by decide)]
    exact Dev.rd_wr_lt _ F.pwrCs_state 0 0 0 (by decide)

/-- What a port's counts of use are set to. -/
def syncPort (d : Dev) (h : Nat) : Dev :=
  let d := d.wr F.hstCtxStat_in_use (ctxInUse d h) h
  let d := d.wr F.hstRltStat_in_use (locksInUse d) h
  d.wr F.hstBound_dirty (dirtyAll d) h

theorem syncPort_inUse (d : Dev) (k h : Nat) (hk : k < 64) (hh : h < 64) : (syncPort d k).rd F.hstCtxStat_in_use h =
    if h = k then ctxInUse d k % 2 ^ F.hstCtxStat_in_use.w else d.rd F.hstCtxStat_in_use h := by
  unfold syncPort
  rw [Dev.rd_wr_ne _ _ _ _ _ _ _ _ (by decide), Dev.rd_wr_ne _ _ _ _ _ _ _ _ (by decide), Dev.rd_wr_self]
  simp only [Nat.mod_eq_of_lt hk, Nat.mod_eq_of_lt hh, and_true]

theorem syncHost_inUse (d : Dev) (h : HstId) :
    (syncHost d).rd F.hstCtxStat_in_use h.val = ctxInUse (syncHost d) h.val % 2 ^ F.hstCtxStat_in_use.w := by
  have hsame (e : Dev) (he : e.host = d.host) (k : Nat) : ctxInUse e k = ctxInUse d k := by rw [ctxInUse, ctxInUse, Dev.port, he, Dev.port]
  have hsync : syncHost d = forEach [0, 1, 2, 3] (syncPort (syncPort d 0) 1) fun d n => d.wr F.pwrHoldB_dirty (dirtyOf d n) 0 n := rfl
  have hrest : keep (footOf [] [F.pwrHoldB_dirty]) (syncHost d) = keep (footOf [] [F.pwrHoldB_dirty]) (syncPort (syncPort d 0) 1) := by
    rw [hsync]
    simp +decide only [↓keep_wr, ↓keep_forEach, implies_true]
  rw [rd_of_keep hrest (by decide), hsame _ (syncHost_host d), syncPort_inUse _ _ _ (by decide) (by omega), syncPort_inUse _ _ _ (by decide) (by omega)]
  have hcase : h.val = 0 ∨ h.val = 1 := by have := h.isLt; omega
  rcases hcase with hh | hh
  · rw [hh, if_neg (by decide), if_pos rfl]
  · rw [hh, if_pos rfl, hsame (syncPort d 0) rfl 1]

/-- A command takes a context of its own. -/
def takeCtx (d : Dev) (org : Origin) (fe : Nat) (c : IoCmd) : Dev :=
  d.updHost fun s => { s with nextId := s.nextId + 1, ctxs := s.ctxs ++ [{ id := d.host.nextId, fe := fe, org := org, c := c }] }

theorem enterCmd_enters {d : Dev} {org : Origin} {fe : Nat} {c : IoCmd} (hcheck : fetchCheck (takeCtx d org fe c) org fe c = none) :
    enterCmd d org fe c = syncHost (takeCtx d org fe c) := by
  unfold takeCtx at *
  unfold enterCmd
  extract_lets x e
  rw [hcheck]

theorem commandFetch_takes {d : Dev} {h : HstId} {q : Sq} {p : Port} {cid : Nat} {c : IoCmd} {rest : List (Nat × IoCmd)}
    (hallowed : fetchAllowed d h.val = true) (hchoose : chooseQueue (d.port h.val) = some (q, p)) (hcmds : q.cmds = (cid, c) :: rest)
    (hroom : ioInUse d h.val < ioShare d h.val) (hloop : d.rd F.loop_depth h.val ≠ 4)
    (hcheck : fetchCheck d (.host h.val q.qid cid) h.val c = none) :
    (commandFetch h.val d).host.ctxs = d.host.ctxs ++ [{ id := d.host.nextId, fe := h.val, org := .host h.val q.qid cid, c := c }] ∧
      (commandFetch h.val d).host.nextId = d.host.nextId + 1 ∧ (commandFetch h.val d).port h.val = takeCmd q p ∧
      (commandFetch h.val d).out = d.out ∧ (commandFetch h.val d).rd F.pwrCs_state = 0 ∧
      (commandFetch h.val d).rd F.hstCtxStat_in_use h.val = ctxInUse (commandFetch h.val d) h.val % 2 ^ F.hstCtxStat_in_use.w := by
  have hrun : commandFetch h.val d = enterCmd (leaveIdlePs (wakeChip (d.updPort h.val fun _ => takeCmd q p))) (.host h.val q.qid cid) h.val c := by
    unfold commandFetch
    rw [if_neg (by rw [hallowed]; decide), hchoose]
    simp only [hcmds]
    rw [if_neg (Nat.not_le.2 hroom)]
    have hdepth : (leaveIdlePs (wakeChip (d.updPort h.val fun _ => takeCmd q p))).rd F.loop_depth h.val = d.rd F.loop_depth h.val := by
      rw [rd_of_keep (keep_leaveIdlePs (ft := leaveIdlePsFoot) (by decide) _) (by decide), rd_of_keep (keep_wakes _) (by decide)]
      rfl
    rw [if_neg (by simp [loopTakes, hdepth, hloop])]
  have hidle : keep leaveIdlePsFoot (leaveIdlePs (wakeChip (d.updPort h.val fun _ => takeCmd q p))) =
      keep leaveIdlePsFoot (wakeChip (d.updPort h.val fun _ => takeCmd q p)) := keep_leaveIdlePs (by decide) _
  have hboth : keep (leaveIdlePsFoot ||| wakeChipFoot) (leaveIdlePs (wakeChip (d.updPort h.val fun _ => takeCmd q p))) =
      keep (leaveIdlePsFoot ||| wakeChipFoot) (d.updPort h.val fun _ => takeCmd q p) :=
    (keep_leaveIdlePs (by decide) _).trans (keep_wakeChip (by decide) _)
  have hawake := wakeChip_wakes (d.updPort h.val fun _ => takeCmd q p)
  rw [hrun]
  generalize leaveIdlePs (wakeChip (d.updPort h.val fun _ => takeCmd q p)) = e at *
  generalize wakeChip (d.updPort h.val fun _ => takeCmd q p) = w at *
  have hhost := host_of_keep hboth (by decide)
  have hout : e.out = (d.updPort h.val fun _ => takeCmd q p).out := out_of_keep hboth (by decide)
  have hstate : e.rd F.pwrCs_state = 0 := (rd_of_keep hidle (by decide) 0 0).trans hawake
  have hchecked : fetchCheck (takeCtx e (.host h.val q.qid cid) h.val c) (.host h.val q.qid cid) h.val c = none := by
    rw [← hcheck]
    have hstruct : e.struct = d.struct := (struct_of_keep hboth (by decide)).trans rfl
    have hcipher : e.cipher = d.cipher := (cipher_of_keep hboth (by decide)).trans rfl
    have hchain : e.chain = d.chain := (chain_of_keep hboth (by decide)).trans rfl
    have hact : e.rd F.glbStructStat_activate = d.rd F.glbStructStat_activate := (rd_of_keep hboth (by decide) 0 0).trans rfl
    have hpresent : e.rd F.cmpCfg_present = d.rd F.cmpCfg_present := (rd_of_keep hboth (by decide) 0 0).trans rfl
    refine fetchCheck_of (d := d) (e := takeCtx e (.host h.val q.qid cid) h.val c) hstruct hcipher ?_ hchain ?_ ?_ hact
      (congrArg (fun v => v != 0) hpresent) _ _ _
    · exact (congrArg HostState.nss hhost).trans rfl
    · exact (congrArg HostState.replaying hhost).trans rfl
    · exact (congrArg HostState.refusedHda hhost).trans rfl
  rw [enterCmd_enters hchecked]
  refine ⟨?_, ?_, ?_, ?_, ?_, syncHost_inUse _ h⟩
  · rw [syncHost_host, takeCtx, hhost]
    show e.host.ctxs ++ _ = _
    rw [hhost]
    rfl
  · rw [syncHost_host]
    show e.host.nextId + 1 = _
    rw [hhost]
    rfl
  · rw [port_of_ports (congrArg _ (syncHost_host _))]
    show e.port h.val = _
    rw [port_of_ports (congrArg _ hhost), Dev.updPort_port, if_pos rfl]
  · rw [syncHost_out]
    exact hout
  · rw [rd_of_keep (keep_syncHost (ft := syncHostFoot) (by decide) _) (by decide)]
    exact hstate

/-! ### The range-lock table -/

theorem feHead_ctx? {d : Dev} {fe : Nat} {x : Ctx} (h : feHead d fe = some x) : ∃ y, d.ctx? x.id = some y := by
  have hmem : x ∈ d.host.ctxs := List.mem_of_find?_eq_some h
  cases hfind : d.ctx? x.id with
  | some y => exact ⟨y, rfl⟩
  | none => exact absurd (beq_self_eq_true x.id) (List.find?_eq_none.1 hfind x hmem)

/-- The zone's write pointer moves past a command that writes at it. -/
def reserveZone (d : Dev) (x : Ctx) : Dev :=
  match x.c.kind, d.ns? x.c.nsid with
  | .write, some ns | .writeZeroes, some ns | .writeUncorrectable, some ns | .copy, some ns =>
    if ns.zoned then
      let zi := zoneIndex d ns x.c.slba
      (setPtr d x.c.nsid zi (x.c.slba % max 1 (zoneSize d ns) + x.c.count)).updCtx x.id fun c => { c with zw := some x.c.slba }
    else d
  | _, _ => d

theorem reserveZone_keeps (d : Dev) (x : Ctx) {y : Ctx} (hy : d.ctx? x.id = some y) :
    (reserveZone d x).host.order = d.host.order ∧ (∃ z, (reserveZone d x).ctx? x.id = some z) ∧
      keep (footOf [.host] []) (reserveZone d x) = keep (footOf [.host] []) d := by
  have hzoned (zi wp : Nat) :
      ((setPtr d x.c.nsid zi wp).updCtx x.id fun c => { c with zw := some x.c.slba }).host.order = d.host.order ∧
        (∃ z, ((setPtr d x.c.nsid zi wp).updCtx x.id fun c => { c with zw := some x.c.slba }).ctx? x.id = some z) ∧
        keep (footOf [.host] []) ((setPtr d x.c.nsid zi wp).updCtx x.id fun c => { c with zw := some x.c.slba }) = keep (footOf [.host] []) d := by
    have hptr : hkeep updNsHost (setPtr d x.c.nsid zi wp) = hkeep updNsHost d := hkeep_setPtr (by decide) d _ _ _
    refine ⟨(show (setPtr d x.c.nsid zi wp).host.order = _ from order_of_hkeep hptr (by decide)), ⟨_, Dev.ctx?_updCtx_same (by exact fun _ => rfl) ((Dev.ctx?_of_hkeep hptr (by decide) _).trans hy)⟩, ?_⟩
    simp +decide only [↓keep_updCtx, ↓keep_setPtr]
  unfold reserveZone
  split
  case h_5 => exact ⟨rfl, ⟨y, hy⟩, rfl⟩
  all_goals
    split
    · exact hzoned _ _
    · exact ⟨rfl, ⟨y, hy⟩, rfl⟩

/-- A local Compressed Zone Append joins the queue of its context. -/
def joinsContext (d : Dev) (x : Ctx) : Dev :=
  match x.c.kind with
  | .compAppend | .ctxSave | .ctxRestore => if nsidNode x.c.nsid == 0 then joinContext d x.c.ctx x.id else d
  | _ => d

theorem joinsContext_host (d : Dev) (x : Ctx) : (joinsContext d x).host = d.host ∧ (joinsContext d x).regs = d.regs := by
  have hjoin : (if nsidNode x.c.nsid == 0 then joinContext d x.c.ctx x.id else d).host = d.host ∧
      (if nsidNode x.c.nsid == 0 then joinContext d x.c.ctx x.id else d).regs = d.regs := by
    split <;> exact ⟨rfl, rfl⟩
  unfold joinsContext
  split
  case h_4 => exact ⟨rfl, rfl⟩
  all_goals exact hjoin

theorem insertCtx_locks {d : Dev} {x : Ctx} (hptr : pointerCheck d x.c = none) (hsave : x.c.kind ≠ .ctxSave)
    (hrestore : x.c.kind ≠ .ctxRestore) : insertCtx d x =
      syncHost ((joinsContext (reserveZone (d.updHost fun s => { s with order := s.order ++ [x.id] }) x) x).updCtx x.id fun c =>
        { c with stage := .locked, locks := locksOf d x.c }) := by
  have hchecked : pointerCheck (d.updHost fun s => { s with order := s.order ++ [x.id] }) x.c = none := hptr
  unfold insertCtx
  extract_lets e locks d2 local' d3 stage d4
  rw [hchecked]
  have hstage : stage = .locked := by
    unfold stage
    split
    next h => exact absurd h hsave
    next h => exact absurd h hrestore
    next => rfl
  have hloads : (x.c.kind == .ctxRestore && local') = false := by simp [hrestore]
  rw [hloads, show d4 = d3.updCtx x.id fun c => { c with stage := stage, locks := locks } from rfl, hstage]
  rfl

theorem insertFrom_inserts {d : Dev} {fe : Fin 7} {x : Ctx} (hhead : feHead d fe.val = some x)
    (hroom : locksInUse d + (locksOf d x.c).length ≤ 16384) (hptr : pointerCheck d x.c = none) (hsave : x.c.kind ≠ .ctxSave)
    (hrestore : x.c.kind ≠ .ctxRestore) :
    (insertFrom fe.val d).host.order = d.host.order ++ [x.id] ∧ (insertFrom fe.val d).bit F.hstRltStat_blocked fe.val 0 = false ∧
      ∃ y, (insertFrom fe.val d).ctx? x.id = some y ∧ y.stage = .locked ∧ y.locks = locksOf d x.c := by
  have hrun : insertFrom fe.val d = insertCtx (forEach [0, 1] d fun d h => d.setBit F.hstRltStat_blocked fe.val false h) x := by
    rw [insertFrom, hhead]
    exact if_neg (Nat.not_lt.2 hroom)
  have hbit : (forEach [0, 1] d fun d h => d.setBit F.hstRltStat_blocked fe.val false h).bit F.hstRltStat_blocked fe.val 0 = false := by
    have hw : fe.val < F.hstRltStat_blocked.w := fe.isLt
    exact Dev.bit_setBit_cleared _ _ _ _ _ _ _ hw (Dev.bit_setBit_false _ _ _ _ _)
  have hhost : (forEach [0, 1] d fun d h => d.setBit F.hstRltStat_blocked fe.val false h).host = d.host := rfl
  have hptr' : pointerCheck (forEach [0, 1] d fun d h => d.setBit F.hstRltStat_blocked fe.val false h) x.c = none := hptr
  have hlocks : locksOf (forEach [0, 1] d fun d h => d.setBit F.hstRltStat_blocked fe.val false h) x.c = locksOf d x.c := rfl
  obtain ⟨y, hy⟩ := feHead_ctx? hhead
  rw [hrun]
  generalize forEach [0, 1] d (fun d h => d.setBit F.hstRltStat_blocked fe.val false h) = e at *
  have hye : e.ctx? x.id = some y := (Dev.ctx?_of_ctxs (by rw [hhost]) _).trans hy
  rw [insertCtx_locks hptr' hsave hrestore, hlocks]
  obtain ⟨horder, ⟨z, hz⟩, hzone⟩ := reserveZone_keeps (e.updHost fun s => { s with order := s.order ++ [x.id] }) x (y := y) hye
  generalize reserveZone (e.updHost fun s => { s with order := s.order ++ [x.id] }) x = r at *
  obtain ⟨hjoin, hjoinRegs⟩ := joinsContext_host r x
  generalize joinsContext r x = j at *
  refine ⟨?_, ?_, ?_⟩
  · rw [syncHost_host]
    show j.host.order = _
    rw [hjoin, horder, ← hhost]
    rfl
  · have hrd : (syncHost (j.updCtx x.id fun c => { c with stage := .locked, locks := locksOf d x.c })).rd F.hstRltStat_blocked 0 0 =
        e.rd F.hstRltStat_blocked 0 0 := by
      rw [rd_of_keep (keep_syncHost (ft := syncHostFoot) (by decide) _) (by decide)]
      have hj : j.rd F.hstRltStat_blocked 0 0 = r.rd F.hstRltStat_blocked 0 0 := by rw [Dev.rd, Dev.rd, hjoinRegs]
      refine Eq.trans (Dev.updHost_rd ..) (hj.trans ?_)
      exact (rd_of_keep hzone (by decide) 0 0).trans rfl
    rw [← hbit, Dev.bit, Dev.bit, hrd]
  · rw [syncHost_ctx?]
    exact ⟨_, Dev.ctx?_updCtx_same (by exact fun _ => rfl) ((Dev.ctx?_of_ctxs (by rw [hjoin]) _).trans hz), rfl, rfl⟩

/-! ### The grant of the locks -/

theorem takeNaks_none {d : Dev} (h : d.chain.selfNaks = []) : takeNaks d = d := by
  have hsame : { d.chain with selfNaks := [] } = d.chain := by rw [← h]
  rw [takeNaks, h, hsame]
  rfl

theorem askData_host {d : Dev} {x : Ctx} {h qid cid : Nat} (horg : x.org = .host h qid cid) : askData d x = d := by
  unfold askData
  rw [horg]

theorem lockGrant_writes {d : Dev} {id : Nat} {x : Ctx} {h qid cid : Nat} (hx : d.ctx? id = some x) (hstage : x.stage = .locked)
    (hfree : lockFree d x = true) (horg : x.org = .host h qid cid) (hnode : nsidNode x.c.nsid = 0) (hnaks : d.chain.selfNaks = [])
    (hkind : x.c.kind = .write ∨ x.c.kind = .writeZeroes ∨ x.c.kind = .writeUncorrectable) :
    (lockGrant id d).ctx? id = some { x with stage := .moving } := by
  have hid := Dev.id_of_ctx? hx
  have hstart : startCtx d x = d.updCtx id fun c => { c with stage := .moving } := by
    unfold startCtx
    rw [if_neg (by simp [hnode]), hid]
    rcases hkind with hkind | hkind | hkind
    all_goals
      rw [hkind]
      rfl
  have hmoving : (d.updCtx id fun c => { c with stage := .moving }).ctx? id = some { x with stage := .moving } :=
    Dev.ctx?_updCtx_same (by exact fun _ => rfl) hx
  have hask : askData (d.updCtx id fun c => { c with stage := .moving }) { x with stage := .moving } =
      d.updCtx id fun c => { c with stage := .moving } := askData_host horg
  unfold lockGrant
  simp only [hx]
  rw [if_pos (by simp [hstage, hfree]), hstart, hmoving]
  show (syncHost (takeNaks (askData _ _))).ctx? id = _
  rw [hask, takeNaks_none (by exact hnaks), syncHost_ctx?, hmoving]

/-- A read all of whose blocks are good data in the buffer, under the keys it reads with. -/
def Buffered (d : Dev) (x : Ctx) (ns : Ns) : Prop :=
  ∀ l ∈ x.c.lbas, ∃ c t, d.bufCell x.c.nsid l = some c ∧ c.now.poison = false ∧ c.now.blk = .data t ∧
    pairOf d ns x.c.keyTag l = some c.now.pair

theorem blkStatus_data {bs : List Blk} (h : ∀ b ∈ bs, ∃ t, b = .data t) : blkStatus bs = 0 := by
  have hnone (x : Blk) (hx : ∀ t, x ≠ .data t) : bs.any (fun b => b == x) = false := by
    rw [List.any_eq_false]
    intro b hb hbx
    obtain ⟨t, rfl⟩ := h b hb
    exact hx t (eq_of_beq hbx).symm
  simp [blkStatus, hnone .gone (by simp), hnone .lost (by simp), hnone .uncorrectable (by simp)]

theorem serveRead_serves {d : Dev} {x : Ctx} {ns : Ns} {h qid cid : Nat} (hx : d.ctx? x.id = some x) (horg : x.org = .host h qid cid)
    (hkind : x.c.kind = .read) (hbuf : Buffered d x ns) (hns : d.ns? x.c.nsid = some ns) :
    Reported (.hostData h qid cid (x.c.lbas.map fun l => blkTok (d.readBlk x.c.nsid x.c.keyTag l))) (serveRead d x) ∧
      Reported (.cqe h qid cid 0 0) (serveRead d x) ∧ (serveRead d x).ctx? x.id = none := by
  have hpoison : (x.c.lbas.any fun l => match d.bufCell x.c.nsid l with
      | some c => c.now.poison
      | none => false) = false := by
    rw [List.any_eq_false]
    intro l hl
    obtain ⟨c, t, hcell, hgood, _⟩ := hbuf l hl
    simp [hcell, hgood]
  have hdata : blkStatus (x.c.lbas.map (d.readBlk x.c.nsid x.c.keyTag)) = 0 := by
    refine blkStatus_data fun b hb => ?_
    obtain ⟨l, hl, rfl⟩ := List.mem_map.1 hb
    obtain ⟨c, t, hcell, _, hblk, _⟩ := hbuf l hl
    exact ⟨t, by simp [Dev.readBlk, hcell, hns, hblk]⟩
  have hrun : serveRead d x = finish (returnData (countMoved d x (hdasRead d x)) x
      ((x.c.lbas.map (d.readBlk x.c.nsid x.c.keyTag)).map blkTok)) x.id 0 0 := by
    unfold serveRead
    extract_lets bs poisoned st toks
    have hst : st = 0 := by
      rw [show st = if poisoned then stPoison else blkStatus bs from rfl, show poisoned = false from hpoison]
      exact hdata
    rw [if_neg (by simp [hst]), hkind]
  have hmoved : (countMoved d x (hdasRead d x)).ctx? x.id = some x := by
    refine (Dev.ctx?_of_hkeep (hkeep_countMoved (ft := countMovedHost) (by decide) d x _) (by decide) _).trans hx
  generalize countMoved d x (hdasRead d x) = m at *
  have hret : returnData m x ((x.c.lbas.map (d.readBlk x.c.nsid x.c.keyTag)).map blkTok) =
      m.emit (.hostData h qid cid (x.c.lbas.map fun l => blkTok (d.readBlk x.c.nsid x.c.keyTag l))) := by
    unfold returnData
    rw [horg, List.map_map]
    rfl
  rw [hrun, hret]
  exact ⟨(Onward.finish (.refl _) _ _ _).reported (reported_emit _ _), finish_reports 0 0 (by exact hmoved) horg, finish_gone _ _ _ _⟩

theorem startRead_serves {d : Dev} {x : Ctx} {ns : Ns} {e : Extent} (hes : overlapping d x.c.nsid x.c.slba x.c.count = [e])
    (hall : (x.c.lbas.all fun l => e.cells.any fun c => c.lba == l) = true) (hbuf : Buffered d x ns) (hns : d.ns? x.c.nsid = some ns) :
    startRead d x = serveRead d x := by
  unfold startRead
  extract_lets es mine
  rw [show es = [e] from hes]
  refine if_pos ?_
  rw [List.all_eq_true] at hall ⊢
  intro l hl
  obtain ⟨c, t, hcell, _, _, hpair⟩ := hbuf l hl
  have hmine : mine l = true := by simp [mine, hcell, hns, hpair]
  rw [hall l hl, hmine]
  rfl

theorem lockGrant_reads {d : Dev} {id : Nat} {x : Ctx} {ns : Ns} {e : Extent} {h qid cid : Nat} (hx : d.ctx? id = some x)
    (hstage : x.stage = .locked) (hfree : lockFree d x = true) (horg : x.org = .host h qid cid) (hnode : nsidNode x.c.nsid = 0)
    (hkind : x.c.kind = .read) (hns : d.ns? x.c.nsid = some ns) (hes : overlapping d x.c.nsid x.c.slba x.c.count = [e])
    (hall : (x.c.lbas.all fun l => e.cells.any fun c => c.lba == l) = true) (hbuf : Buffered d x ns) :
    Reported (.hostData h qid cid (x.c.lbas.map fun l => blkTok (d.readBlk x.c.nsid x.c.keyTag l))) (lockGrant id d) ∧
      Reported (.cqe h qid cid 0 0) (lockGrant id d) ∧ (lockGrant id d).ctx? id = none := by
  have hid := Dev.id_of_ctx? hx
  have hstart : startCtx d x = serveRead d x := by
    unfold startCtx
    rw [if_neg (by simp [hnode]), hkind, ← startRead_serves hes hall hbuf hns]
    rfl
  obtain ⟨hdata, hcqe, hgone⟩ := serveRead_serves (by rw [hid]; exact hx) horg hkind hbuf hns
  rw [hid] at hgone
  have hrun : lockGrant id d = syncHost (takeNaks (serveRead d x)) := by
    unfold lockGrant
    simp only [hx]
    rw [if_pos (by simp [hstage, hfree]), hstart, hgone]
  have hon : Onward (serveRead d x) (syncHost (takeNaks (serveRead d x))) := ((Onward.refl _).takeNaks).syncHost
  rw [hrun]
  exact ⟨hon.reported hdata, hon.reported hcqe, hon.gone hgone⟩

/-! ### The data of a write joins the buffer -/

theorem copySources_none {c : IoCmd} (d : Dev) (h : c.kind ≠ .copy) : copySources d c = [] := by rw [copySources, if_pos (by simpa using h)]

theorem copyKeys_none {c : IoCmd} (d : Dev) (h : c.kind ≠ .copy) : copyKeys d c = (none, d) := by
  unfold copyKeys
  rw [copySources_none d h]
  rfl

theorem copyActs_none {c : IoCmd} (d : Dev) (h : c.kind ≠ .copy) : copyActs d c = [] := by
  unfold copyActs
  rw [copySources_none d h]
  rfl

theorem dataBuffered_write {d : Dev} {id : Nat} {x : Ctx} {ns : Ns} {h qid cid : Nat} (split : List (Nat × HdaId)) (hx : d.ctx? id = some x)
    (hstage : x.stage = .moving) (hkind : x.c.kind = .write) (horg : x.org = .host h qid cid) (hns : d.ns? x.c.nsid = some ns) :
    dataBuffered id split [] d = bufferBlks d x ns (x.c.lbas.zipIdx.map fun l => .data ((x.c.toks[l.2]?).getD 0)) split := by
  have hcopy : x.c.kind ≠ .copy := by simp [hkind]
  have hready : chainReady d x = true := by
    unfold chainReady
    rw [horg]
  unfold dataBuffered
  simp only [hx]
  rw [if_neg (by simp [hstage, hkind, hready]), if_neg (by simp [copyActs_none d hcopy]), if_neg (by simp [hkind]), if_neg (by simp), hns,
    copyKeys_none d hcopy]
  simp only [hkind]
  rw [if_neg (by simp)]
  unfold writeBlks
  rw [hkind]

/-- One block of a write takes its place in the extent. -/
def placeCell (wid nsid seq : Nat) (acc : List BufCell × Dev) (c : Nat × BufCopy) : List BufCell × Dev :=
  let t := takeCell acc.2 nsid c.1
  (acc.1 ++ [{ lba := c.1, now := { c.2 with wid := wid, seq := seq }, under := t.1 }], t.2)

theorem placeCell_data (wid nsid seq : Nat) (l : List (Nat × BufCopy)) (acc : List BufCell × Dev) :
    (l.foldl (placeCell wid nsid seq) acc).1.map (fun c => (c.lba, c.now.blk)) =
      acc.1.map (fun c => (c.lba, c.now.blk)) ++ l.map fun c => (c.1, c.2.blk) := by
  induction l generalizing acc with
  | nil => simp
  | cons c l ih => simp [ih, placeCell]

theorem placeExtent_data (d : Dev) (wid nsid : Nat) (cells : List (Nat × BufCopy)) :
    (wid, nsid, cells.map fun c => (c.1, c.2.blk)) ∈ bufferData (placeExtent d wid nsid cells) := by
  unfold placeExtent
  extract_lets seq r
  have hr : r.1.map (fun c => (c.lba, c.now.blk)) = cells.map fun c => (c.1, c.2.blk) := placeCell_data wid nsid seq cells ([], d)
  rw [← hr]
  show _ ∈ (r.2.host.extents ++ [({ wid := wid, nsid := nsid, seq := seq, cells := r.1 } : Extent)]).map _
  rw [List.map_append]
  exact List.mem_append_right _ (List.mem_singleton.2 rfl)

theorem bufferBlks_data (d : Dev) (x : Ctx) (ns : Ns) (blks : List Blk) (split : List (Nat × HdaId)) :
    (x.id, x.c.nsid, blks.zipIdx.map fun b => (x.c.slba + b.2, b.1)) ∈ bufferData (bufferBlks d x ns blks split) := by
  unfold bufferBlks
  extract_lets cells d1 d2 d3 d4 d5
  have h5 : bufferData (syncHost (tryComplete d5 x.id)) = bufferData d4 := by
    rw [bufferData_of_extents (congrArg _ (syncHost_host _)), bufferData_of_bufferView (bufferView_tryComplete _ _)]
    exact forEach_keeps (p := bufferData) (fun e n _ => (bufferData_of_bufferView (bufferView_pressWriters _ n)).trans (bufferData_coverNext e n)) d4
  have h4 : bufferData d4 = bufferData d3 :=
    bufferData_of_extents (extents_of_hkeep (hkeep_release (ft := releaseHost) (by decide) d3 _ _ _) (by decide))
  have h3 : bufferData d3 = bufferData (placeExtent d1 x.id x.c.nsid cells) := rfl
  have hcells : cells.map (fun c => (c.1, c.2.blk)) = blks.zipIdx.map fun b => (x.c.slba + b.2, b.1) := by
    show (blks.zipIdx.map _).map _ = _
    rw [List.map_map]
    rfl
  rw [h5, h4, h3, ← hcells]
  exact placeExtent_data d1 x.id x.c.nsid cells

theorem extent_of_bufferData {d : Dev} {wid nsid : Nat} {l : List (Nat × Blk)} (h : (wid, nsid, l) ∈ bufferData d) :
    ∃ e ∈ d.host.extents, e.wid = wid ∧ e.nsid = nsid ∧ ∀ b ∈ l, ∃ c ∈ e.cells, c.lba = b.1 ∧ c.now.blk = b.2 := by
  obtain ⟨e, he, heq⟩ := List.mem_map.1 h
  obtain ⟨hwid, hnsid, hcells⟩ : e.wid = wid ∧ e.nsid = nsid ∧ e.cells.map (fun c => (c.lba, c.now.blk)) = l := by simpa using heq
  refine ⟨e, he, hwid, hnsid, fun b hb => ?_⟩
  rw [← hcells] at hb
  obtain ⟨c, hc, rfl⟩ := List.mem_map.1 hb
  exact ⟨c, hc, rfl, rfl⟩

theorem dataBuffered_buffers {d : Dev} {id : Nat} {x : Ctx} {ns : Ns} {h qid cid : Nat} (split : List (Nat × HdaId)) (hx : d.ctx? id = some x)
    (hstage : x.stage = .moving) (hkind : x.c.kind = .write) (horg : x.org = .host h qid cid) (hns : d.ns? x.c.nsid = some ns) :
    ∃ e ∈ (dataBuffered id split [] d).host.extents, e.wid = id ∧ e.nsid = x.c.nsid ∧
      ∀ i, i < x.c.count → ∃ c ∈ e.cells, c.lba = x.c.slba + i ∧ c.now.blk = .data ((x.c.toks[i]?).getD 0) := by
  have hdata := bufferBlks_data d x ns (x.c.lbas.zipIdx.map fun l => .data ((x.c.toks[l.2]?).getD 0)) split
  rw [Dev.id_of_ctx? hx, ← dataBuffered_write split hx hstage hkind horg hns] at hdata
  obtain ⟨e, he, hwid, hnsid, hcells⟩ := extent_of_bufferData hdata
  refine ⟨e, he, hwid, hnsid, fun i hi => hcells (x.c.slba + i, .data ((x.c.toks[i]?).getD 0)) (List.mem_map.2 ⟨(.data ((x.c.toks[i]?).getD 0), i), ?_, rfl⟩)⟩
  rw [List.mem_zipIdx_iff_getElem?]
  simp [IoCmd.lbas, hi]

/-! ### Coverage of the first waiting part -/

theorem trimChain_subset (covered : Nat → Bool) (l : List BufCopy) : trimChain covered l ⊆ l := by
  induction l with
  | nil => exact List.Subset.refl _
  | cons u l ih =>
    rw [trimChain]
    split
    · simp
    · exact List.cons_subset_cons u ih

theorem copiesOf_trimUnder (d : Dev) (wid : Nat) : copiesOf (trimUnder d wid) ⊆ copiesOf d := by
  unfold trimUnder
  split
  · exact List.Subset.refl _
  intro p hp
  obtain ⟨e', he', hp⟩ := List.mem_flatMap.1 hp
  obtain ⟨e, he, rfl⟩ := List.mem_map.1 he'
  obtain ⟨c', hc', hp⟩ := List.mem_flatMap.1 hp
  obtain ⟨c, hc, rfl⟩ := List.mem_map.1 hc'
  refine List.mem_flatMap.2 ⟨e, he, List.mem_flatMap.2 ⟨c, hc, ?_⟩⟩
  rcases List.mem_cons.1 hp with rfl | hunder
  · exact List.mem_cons_self
  · refine List.mem_cons_of_mem _ ?_
    obtain ⟨u, hu, rfl⟩ := List.mem_map.1 hunder
    have hmem : u ∈ c.under := by
      revert hu
      show u ∈ (if c.now.wid = wid then [] else trimChain (fun w => w == wid) c.under) → _
      split
      · simp
      · exact fun hu => trimChain_subset _ _ hu
    exact List.mem_map.2 ⟨u, hmem, rfl⟩

theorem markCovered_covers (d : Dev) (wid n : Nat) : ∀ c ∈ copiesOf (markCovered d wid n), c.2.wid = wid → c.2.hda = n → c.2.covered = true := by
  intro p hp
  unfold markCovered at hp
  extract_lets mark d1 at hp
  have hmarked (b : BufCopy) : (mark b).wid = wid → (mark b).hda = n → (mark b).covered = true := by
    unfold mark
    split
    next => exact fun _ _ => rfl
    next h => exact fun hwid hhda => absurd (by simp [hwid, hhda]) h
  have hp1 := copiesOf_trimUnder d1 wid hp
  obtain ⟨e', he', hp1⟩ := List.mem_flatMap.1 hp1
  obtain ⟨e, he, rfl⟩ := List.mem_map.1 he'
  obtain ⟨c', hc', hp1⟩ := List.mem_flatMap.1 hp1
  obtain ⟨c, hc, rfl⟩ := List.mem_map.1 hc'
  rcases List.mem_cons.1 hp1 with rfl | hunder
  · exact hmarked c.now
  · obtain ⟨u, hu, rfl⟩ := List.mem_map.1 hunder
    obtain ⟨b, hb, rfl⟩ := List.mem_map.1 hu
    exact hmarked b

theorem coverNext_covers {d g : Dev} {n wid : Nat} {x : Ctx} (hfirst : firstWaiting d n = some wid) (hx : d.ctx? wid = some x)
    (hdata : dataIn x = true) (hband : noBand d x n = false) (hzone : zoneEarlierWaits d x = false) (hg : g = coverPart d wid n x)
    (hall : dirtyAll d ≤ boundAll d) (hone : dirtyOf d n ≤ boundOf d n) (hall' : dirtyAll g ≤ boundAll d) (hone' : dirtyOf g n ≤ boundOf d n) :
    ∀ c ∈ copiesOf (pressWriters (coverNext d n) n), c.2.wid = wid → c.2.hda = n → c.2.covered = true := by
  have hrun : coverNext d n = settleWrites (tryComplete (syncHost g) wid) := by
    rw [hg] at hall' hone' ⊢
    unfold coverNext
    simp only [hfirst, hx]
    rw [if_neg (by simp [hdata, hband, hzone, hall, hone])]
    exact if_pos ⟨hone', hall'⟩
  rw [copiesOf_of_bufferView (bufferView_pressWriters _ n), hrun, copiesOf_of_bufferView (bufferView_settleWrites _),
    copiesOf_of_bufferView (bufferView_tryComplete _ _), copiesOf_of_bufferView (bufferView_of_extents (congrArg _ (syncHost_host _))), hg,
    copiesOf_of_bufferView (bufferView_of_extents (coverPart_extents d wid n x))]
  exact markCovered_covers d wid n

/-- Settles O32: a lemma per row. -/
theorem pipelineRowsComplete : Obligations.PipelineRowsComplete := by
  unfold Obligations.PipelineRowsComplete
  refine ⟨?fetch, ?resume, ?insert, ?write, ?read, ?buffered, ?covered⟩
  case fetch =>
    intro s h q p cid c rest hallowed hchoose hcmds hroom hloop hcheck
    exact brings_of_run (execCommandFetch.eq_def h s) (commandFetch_takes hallowed hchoose hcmds hroom hloop hcheck)
  case resume =>
    intro s h hroom
    refine gives_of_run (execFetchResume.eq_def h s) ?_
    exact if_pos hroom
  case insert =>
    intro s fe x P hhead hroom hptr hsave hrestore hP
    subst hP
    have hins := insertFrom_inserts hhead hroom hptr hsave hrestore
    exact ⟨brings_of_run (execLockEntriesFreed.eq_def fe s) hins, brings_of_run (execLockInsert.eq_def fe s) hins⟩
  case write =>
    intro s id x h qid cid hx hstage hfree horg hnode hnaks hkind
    exact brings_of_run (execLockGrant.eq_def id s) ⟨_, lockGrant_writes hx hstage hfree horg hnode hnaks hkind, rfl, rfl, rfl⟩
  case read =>
    intro s id x e ns h qid cid hx hstage hfree horg hnode hkind _ hns hes hall hbuf
    exact brings_of_run (execLockGrant.eq_def id s) (lockGrant_reads hx hstage hfree horg hnode hkind hns hes hall hbuf)
  case buffered =>
    intro s id x ns h qid cid split hx hstage hkind horg hns
    exact brings_of_run (execWriteDataBuffered.eq_def id split [] s) (dataBuffered_buffers split hx hstage hkind horg hns)
  case covered =>
    intro s n wid x e g hfirst hx hdata hband hzone he hg hall hone hall' hone'
    subst he
    exact brings_of_run (execWriteCoverage.eq_def n s) (coverNext_covers hfirst hx hdata hband hzone hg hall hone hall' hone')

end Sys2Proof.Machine
end

section
/-! PROOF. Host state that the end of a media task keeps. -/
namespace Sys2Proof.Machine

def startMediaHost : Nat := hostFoot [.ctxs, .nextTid, .tasks, .wanted]
theorem hkeep_startMedia {ft : Nat} (hft : inFoot startMediaHost ft = true) (d : Dev) (x : Ctx) (k : Dev → Dev)
    (hk : ∀ e, hkeep ft (k e) = hkeep ft e) : hkeep ft (startMedia d x k) = hkeep ft d := by
  unfold startMedia
  have ht {e : Dev} {t a b} : hkeep ft (addTask e t a b) = hkeep ft e := hkeep_addTask (inFoot_trans (by decide) hft) e t a b
  split
  · exact hk d
  · extract_lets e cold e'
    have he : hkeep ft e = hkeep ft d := hkeep_forEach _ _ _ fun _ _ => ht
    have he' : hkeep ft e' = hkeep ft d := by
      simp only [e']
      cases cold with
      | some a => exact (hkeep_wantHda (inFoot_trans (by decide) hft) e (a / 2)).trans he
      | none => exact he
    rw [hkeep_updCtx (inFoot_trans (by decide) hft), he']

def startReadHost : Nat := hostFoot [.ctxs, .nextTid, .order, .extents, .tasks, .wanted, .moved]
theorem hkeep_startRead {ft : Nat} (hft : inFoot startReadHost ft = true) (d : Dev) (x : Ctx) : hkeep ft (startRead d x) = hkeep
    ft d :=
  hkeep_mono hft (by
    unfold startRead
    extract_lets es mine
    clear_value es mine
    split
    · exact hkeep_startMedia (by decide) d x _ fun e => hkeep_serveRead (by decide) e x
    · simp +decide only [↓hkeep_updCtx, ↓hkeep_destageExtent, ↓hkeep_serveRead, ↓hkeep_ite, ite_self]
    · simp +decide only [↓hkeep_updCtx, ↓hkeep_destageExtent, ↓hkeep_forEach, implies_true])

theorem hkeep_wakeWaiters {ft : Nat} (hft : inFoot startReadHost ft = true) (d : Dev) : hkeep ft (wakeWaiters d) = hkeep ft d := by
  refine hkeep_mono hft ?_
  unfold wakeWaiters
  refine hkeep_forEach _ _ _ fun e x => ?_
  split
  · rfl
  · simp +decide only [↓hkeep_updCtx, ↓hkeep_startRead, ↓hkeep_ite, ite_self]

def settleReadOnlyHost : Nat := hostFoot [.ports, .nss]
theorem hkeep_settleReadOnly {ft : Nat} (hft : inFoot settleReadOnlyHost ft = true) (d : Dev) : hkeep ft (settleReadOnly d) =
    hkeep ft d :=
  hkeep_mono hft (by simp (disch := (intros; simp +decide only [↓hkeep_updZone, ↓hkeep_noticeAll, ↓hkeep_forEach, ↓hkeep_ite, ite_self,
    implies_true])) only [settleReadOnly, ↓hkeep_forEach])

def landCellHost : Nat := hostFoot [.ports, .media, .detention, .detGen, .locker]
theorem hkeep_landCell {ft : Nat} (hft : inFoot landCellHost ft = true) (d : Dev) (nsid : Nat) (poisoned : Bool) (lba : Nat) (c
    : BufCopy) : hkeep ft (landCell d nsid poisoned lba c) = hkeep ft d :=
  hkeep_mono hft (by simp +decide only [landCell, ↓hkeep_unlocker, ↓hkeep_landBlk])

theorem hkeep_dropCell {ft : Nat} (hft : inFoot updExtentsHost ft = true) (d : Dev) (wid nsid lba : Nat) : hkeep ft (dropCell d
    wid nsid lba) = hkeep ft d :=
  hkeep_mono hft (by simp +decide only [dropCell, ↓hkeep_updExtents])

theorem hkeep_pllArm {ft : Nat} (c : Nat) (arm : Bool) (d : Dev) : hkeep ft (pllArm c arm d) = hkeep ft d :=
  hkeep_of_keep (keep_pllArm (ft := pllArmFoot) (by decide) c arm d) (by decide) ft

theorem hkeep_repost {ft : Nat} (hft : inFoot updTasksHost ft = true) (d : Dev) (t : MTask) : hkeep ft (repost d t) = hkeep ft d
    :=
  hkeep_mono hft (by simp +decide only [repost, ↓hkeep_updTasks])

theorem hkeep_toLocker {ft : Nat} (hft : inFoot addTaskHost ft = true) (d : Dev) (wid act : Nat) : hkeep ft (toLocker d wid act)
    = hkeep ft d :=
  hkeep_mono hft (by simp +decide only [toLocker, ↓hkeep_updTasks, ↓hkeep_addTask])

theorem hkeep_failFlushes {ft : Nat} (hft : inFoot leaveTableHost ft = true) (d : Dev) (wid : Nat) : hkeep ft (failFlushes d
    wid) = hkeep ft d :=
  hkeep_mono hft (by simp +decide only [failFlushes, ↓hkeep_finish, ↓hkeep_forEach, implies_true])

end Sys2Proof.Machine
end

section
/-! PROOF. How host commands end otherwise. -/
namespace Sys2Proof.Machine

/-! ### A command that other commands' ends leave -/

/-- Where the command of a context came from. -/
def originOf (d : Dev) (id : Nat) : Option Origin := (d.ctx? id).map (·.org)

section
variable {d : Dev} {id k : Nat}

theorem originOf_of_ctxs {e : Dev} (h : e.host.ctxs = d.host.ctxs) : originOf e id = originOf d id := by rw [originOf, originOf, Dev.ctx?_of_ctxs h]

theorem ctx?_filter_ne (l : List Ctx) (hk : k ≠ id) : (l.filter fun c => c.id != k).find? (fun c => c.id == id) = l.find? fun c => c.id == id := by
  rw [List.find?_filter]
  refine congrArg (fun p => l.find? p) (funext fun c => ?_)
  by_cases h : c.id = id
  · simp [h, hk.symm]
  · simp [h]

theorem finish_ctx?_ne (st dw0 : Nat) (hk : k ≠ id) : (finish d k st dw0).ctx? id = d.ctx? id := by
  cases h : d.ctx? k with
  | none => rw [finish, h]
  | some x => rw [Dev.ctx?, finish_ctxs st dw0 h, ctx?_filter_ne _ hk, Dev.ctx?]

/-- A change of contexts that leaves their numbers and origins. -/
theorem originOf_map {e : Dev} {g : Ctx → Ctx} (h : e.host.ctxs = d.host.ctxs.map g) (hid : ∀ x, (g x).id = x.id) (horg : ∀ x, (g x).org = x.org) :
    originOf e id = originOf d id := by
  have hcomp : (fun y : Ctx => y.id == id) ∘ g = fun y => y.id == id := funext fun y => by simp only [Function.comp_apply, hid]
  rw [originOf, originOf, Dev.ctx?, Dev.ctx?, h, List.find?_map, hcomp, Option.map_map]
  exact congrArg (fun f => Option.map f _) (funext horg)

theorem originOf_updCtx (g : Ctx → Ctx) (hid : ∀ x, (g x).id = x.id) (horg : ∀ x, (g x).org = x.org) :
    originOf (d.updCtx k g) id = originOf d id := by
  refine originOf_map (g := fun x => if x.id == k then g x else x) rfl (fun x => ?_) fun x => ?_
  · split
    · exact hid x
    · rfl
  · split
    · exact horg x
    · rfl

theorem originOf_rearmReads : originOf (rearmReads d) id = originOf d id := by
  unfold rearmReads
  extract_lets served
  refine originOf_map (g := fun x => if served x then { x with stage := .locked, pend := [] } else x) rfl (fun x => ?_) fun x => ?_
  all_goals split <;> rfl

theorem discardCells_ctxs (d : Dev) (es : List Extent) :
    (forEach es d fun d e => forEach e.cells d fun d c => restoreCell d e.nsid c).host.ctxs = d.host.ctxs :=
  ctxs_of_hkeep (hkeep_forEach d es _ fun e x => hkeep_forEach e x.cells _ fun e c =>
    hkeep_restoreCell (ft := updExtentsHost) (by decide) e x.nsid c) (by decide)

theorem originOf_discardData (wid : Nat) : originOf (discardData d wid) id = originOf d id := by
  unfold discardData
  extract_lets es d1
  rw [originOf_rearmReads, originOf_of_ctxs (discardCells_ctxs d1 es)]
  rfl

theorem originOf_setPtr (nsid zi wp : Nat) : originOf (setPtr d nsid zi wp) id = originOf d id :=
  originOf_of_ctxs (ctxs_of_hkeep (hkeep_setPtr (ft := updNsHost) (by decide) d nsid zi wp) (by decide))

theorem originOf_replaceAppend (y : Ctx) (zi zs : Nat) : originOf (replaceAppend d y zi zs) id = originOf d id := by
  unfold replaceAppend
  split
  · rfl
  · split
    · rfl
    · rw [originOf_updCtx _ (by exact fun _ => rfl) (by exact fun _ => rfl)]
      exact originOf_setPtr _ _ _

theorem originOf_undoContext (x : Ctx) : originOf (undoContext d x) id = originOf d id :=
  originOf_of_ctxs (congrArg _ (host_of_keep (keep_undoContext (ft := undoContextFoot) (by decide) d x) (by decide)))

theorem originOf_finish_ne (st dw0 : Nat) (hk : k ≠ id) : originOf (finish d k st dw0) id = originOf d id := by
  rw [originOf, originOf, finish_ctx?_ne st dw0 hk]

end

/-- The commands after one in the order of arrival are others. -/
theorem laterWriters_ne {d : Dev} {x : Ctx} {ns : Ns} (horder : d.host.order.Nodup) {y : Ctx} (hy : y ∈ laterWriters d x ns) : y.id ≠ x.id := by
  obtain ⟨i, hi, hctx⟩ := List.mem_filterMap.1 (List.mem_filter.1 hy).1
  rw [Dev.id_of_ctx? hctx]
  rintro rfl
  have hnodup : (d.host.order.dropWhile fun i => i != x.id).Nodup := horder.sublist (List.dropWhile_sublist _)
  cases hdrop : d.host.order.dropWhile fun i => i != x.id with
  | nil => rw [hdrop] at hi; simp at hi
  | cons a l =>
    have ha : a = x.id := by
      have := List.head?_dropWhile_not (fun i => i != x.id) d.host.order
      rw [hdrop] at this
      simpa using this
    rw [hdrop] at hi hnodup
    rw [ha] at hnodup
    exact (List.nodup_cons.1 hnodup).1 (by simpa using hi)

theorem originOf_restorePtr {d : Dev} {x : Ctx} (horder : d.host.order.Nodup) : originOf (restorePtr d x) x.id = originOf d x.id := by
  unfold restorePtr
  split
  next start ns _ _ =>
    split
    · rfl
    · extract_lets zi zs later d1
      rw [originOf_of_ctxs (ctxs_of_hkeep (hkeep_refreshParity (ft := refreshParityHost) (by decide) _ _ _) (by decide)),
        ← originOf_setPtr (d := d) x.c.nsid zi (start - zs)]
      refine forEach_keeps (p := fun e => originOf e x.id) (fun e y hy => ?_) d1
      split
      · rw [originOf_finish_ne _ _ (laterWriters_ne horder hy), originOf_discardData]
      · exact originOf_replaceAppend _ _ _
  · rfl

theorem failWrite_reports {d : Dev} {id h qid cid : Nat} {x : Ctx} (st : Nat) (hx : d.ctx? id = some x) (horg : x.org = .host h qid cid)
    (horder : d.host.order.Nodup) : Reported (.cqe h qid cid st 0) (failWrite d id st) := by
  obtain rfl := Dev.id_of_ctx? hx
  unfold failWrite
  rw [hx]
  show Reported _ (finish (restorePtr (undoContext (discardData d x.id) x) x) x.id st 0)
  have horder' : (undoContext (discardData d x.id) x).host.order.Nodup := by
    rw [host_of_keep (keep_undoContext (ft := undoContextFoot) (by decide) _ x) (by decide),
      order_of_hkeep (hkeep_discardData (ft := discardDataHost) (by decide) d x.id) (by decide)]
    exact horder
  have horigin : originOf (restorePtr (undoContext (discardData d x.id) x) x) x.id = some (.host h qid cid) := by
    rw [originOf_restorePtr horder', originOf_undoContext, originOf_discardData, originOf, hx, Option.map_some, horg]
  obtain ⟨y, hy, hyorg⟩ := Option.map_eq_some_iff.1 horigin
  exact finish_reports st 0 hy hyorg

theorem failWrite_gone (d : Dev) (id st : Nat) : (failWrite d id st).ctx? id = none := by
  unfold failWrite
  split
  next h => exact h
  next => exact finish_gone _ _ _ _

theorem latencyExpiry_ends {d : Dev} {id h qid cid : Nat} {x : Ctx} (hx : d.ctx? id = some x) (hwaits : waitsR88 d x = true)
    (horg : x.org = .host h qid cid) : (latencyExpiry id d).ctx? id = none ∧
      (d.host.order.Nodup → Reported (.cqe h qid cid stNotReady 0) (latencyExpiry id d)) := by
  unfold latencyExpiry
  simp only [hx]
  rw [if_neg (by simp [hwaits])]
  split
  · exact ⟨failWrite_gone _ _ _, failWrite_reports _ hx horg⟩
  · exact ⟨finish_gone _ _ _ _, fun _ => finish_reports _ _ hx horg⟩

/-! ### The end of a media task -/

/-- The write side of an actuator stopped after a task. -/
def stopWrite (d : Dev) (a : Nat) : Dev := pllArm (2 * a + 1) false (pllArm (2 * a) false (d.updSeq a fun q => { q with ended := none }))

section
variable {d : Dev} {tid : Nat} {t : MTask} (poisoned : List Nat) (ht : d.host.tasks.find? (fun t => t.tid == tid) = some t)
  (hbegun : t.begun = true) (hended : (d.seq t.act).ended = none)
include ht hbegun hended

theorem mediaTaskEnd_destage {wid : Nat} (hkind : t.kind = .destage wid) :
    mediaTaskEnd tid (.done poisoned) d = destaged (dropTask (stopWrite d t.act) tid) wid t.act poisoned := by
  simp [mediaTaskEnd, ht, hbegun, hended, hkind, MKind.writes, stopWrite]

theorem mediaTaskEnd_locker {wid : Nat} (hkind : t.kind = .locker wid) :
    mediaTaskEnd tid (.done poisoned) d = lockered (dropTask (stopWrite d t.act) tid) wid t.act poisoned := by
  simp [mediaTaskEnd, ht, hbegun, hended, hkind, MKind.writes, stopWrite]

theorem mediaTaskEnd_read {id : Nat} (hkind : t.kind = .read id) :
    mediaTaskEnd tid (.done poisoned) d =
      syncHost (readEnded (dropTask (d.updSeq t.act fun q => { q with ended := none }) tid) id t.act poisoned) := by
  simp [mediaTaskEnd, ht, hbegun, hended, hkind, MKind.writes]

end

/-! ### A task that was cut short -/

theorem closePermit_ended (d : Dev) (a b : Nat) : ((closePermit d a).seq b).ended = (d.seq b).ended := by
  unfold closePermit
  extract_lets d1
  have h1 : d1.seqs = d.seqs := forEach_keeps (p := Dev.seqs)
    (fun e c _ => seqs_of_keep (keep_closeWrite (ft := closeWriteFoot) (by decide) e c.1) (by decide)) d
  have h2 : (((d1.updSeq a fun q => { q with permit := [] }).setFlag F.sqrStat_permit false a).seq b).ended = (d1.seq b).ended := by
    show (tabGet {} (tabPut {} d1.seqs a { d1.seq a with permit := [] }) b).ended = _
    rw [tabGet_tabPut]
    split
    next h => rw [h]
    next => rfl
  rw [h2, Dev.seq, h1, ← Dev.seq]

theorem setCause_ended (d : Dev) (c bit : Nat) (v : Bool) (b : Nat) : ((setCause d c bit v).seq b).ended = (d.seq b).ended := by
  unfold setCause
  extract_lets was d1 d2 d3 d4
  have h3 : d3.seqs = d.seqs := by
    rw [seqs_of_keep (keep_unsafeRefresh (ft := unsafeRefreshFoot) (by decide) d2 c) (by decide)]
    unfold d2
    split <;> rfl
  have h4 : d4.seqs = d3.seqs := by
    unfold d4
    split <;> rfl
  split
  · have hshut : (closeWrite d4 c).seqs = d3.seqs := (seqs_of_keep (keep_closeWrite (ft := closeWriteFoot) (by decide) d4 c) (by decide)).trans h4
    unfold closePermitOf
    split
    · rw [closePermit_ended, Dev.seq, hshut, h3, ← Dev.seq]
    · rw [Dev.seq, hshut, h3, ← Dev.seq]
  · rw [Dev.seq, h3, ← Dev.seq]

theorem loseLock_ended (d : Dev) (c b : Nat) : ((loseLock d c).seq b).ended = (d.seq b).ended := by
  unfold loseLock
  extract_lets d1
  split
  · rw [setCause_ended]
    rfl
  · rfl

theorem pllArm_ended (c : Nat) (arm : Bool) (d : Dev) (b : Nat) : ((pllArm c arm d).seq b).ended = (d.seq b).ended := by
  unfold pllArm
  extract_lets d1
  split
  · split <;> rfl
  · rw [loseLock_ended]
    rfl

theorem stopWrite_ended (d : Dev) (a : Nat) : ((stopWrite d a).seq a).ended = none := by
  rw [stopWrite, pllArm_ended, pllArm_ended]
  show (tabGet {} (tabPut {} d.seqs a { d.seq a with ended := none }) a).ended = none
  rw [tabGet_tabPut, if_pos rfl]

theorem repost_reposts {d : Dev} {t : MTask} {tid : Nat} (ht : d.host.tasks.find? (fun t => t.tid == tid) = some t) :
    ∃ u, (repost d t).host.tasks.find? (fun t => t.tid == tid) = some u ∧ u.kind = t.kind ∧ u.act = t.act ∧
        u.retries = if t.kind.writes then t.retries else t.retries + 1 := by
  have htid : t.tid = tid := by simpa using List.find?_some (p := fun t : MTask => t.tid == tid) ht
  unfold repost
  extract_lets read n
  have hread : read = !t.kind.writes := by
    unfold read
    cases t.kind <;> rfl
  show ∃ u, (d.host.tasks.map _).find? _ = some u ∧ _
  have hcomp : (fun x : MTask => x.tid == tid) ∘ (fun x => if x.tid == t.tid then
      { x with begun := n != 0, streams := n, retries := if read then x.retries + 1 else x.retries } else x) = fun x => x.tid == tid := by
    funext x
    simp only [Function.comp_apply]
    split <;> rfl
  rw [List.find?_map, hcomp, ht, Option.map_some, if_pos (by simp)]
  refine ⟨_, rfl, rfl, rfl, ?_⟩
  rw [hread]
  cases t.kind.writes <;> rfl

theorem mediaTaskEnd_cut {d : Dev} {tid : Nat} {t : MTask} (cause : Nat) (ht : d.host.tasks.find? (fun t => t.tid == tid) = some t)
    (hbegun : t.begun = true) : (mediaTaskEnd tid (.cut cause) d).host.extents = d.host.extents ∧
      ((mediaTaskEnd tid (.cut cause) d).seq t.act).ended = none ∧
      ∃ u, (mediaTaskEnd tid (.cut cause) d).host.tasks.find? (fun t => t.tid == tid) = some u ∧ u.kind = t.kind ∧ u.act = t.act ∧
        u.retries = if t.kind.writes then t.retries else t.retries + 1 := by
  have hrun : mediaTaskEnd tid (.cut cause) d =
      repost (if t.kind.writes then stopWrite d t.act else d.updSeq t.act fun q => { q with ended := none }) t := by
    unfold mediaTaskEnd
    simp only [ht, hbegun, Bool.true_and, Bool.not_true, Bool.false_eq_true, if_false, ite_self]
    rfl
  have hended : ((if t.kind.writes then stopWrite d t.act else d.updSeq t.act fun q => { q with ended := none }).seq t.act).ended = none := by
    split
    · exact stopWrite_ended d t.act
    · show (tabGet {} (tabPut {} d.seqs t.act { d.seq t.act with ended := none }) t.act).ended = none
      rw [tabGet_tabPut, if_pos rfl]
  have hhost : (if t.kind.writes then stopWrite d t.act else d.updSeq t.act fun q => { q with ended := none }).host = d.host := by
    split
    · exact (host_of_keep (keep_pllArm (ft := pllArmFoot) (by decide) _ _ _) (by decide)).trans
        (host_of_keep (keep_pllArm (ft := pllArmFoot) (by decide) _ _ _) (by decide))
    · rfl
  rw [hrun]
  generalize (if t.kind.writes then stopWrite d t.act else d.updSeq t.act fun q => { q with ended := none }) = e at *
  refine ⟨?_, ?_, repost_reposts (by rw [hhost]; exact ht)⟩
  · rw [extents_of_hkeep (hkeep_repost (ft := updTasksHost) (by decide) e t) (by decide), hhost]
  · exact hended

/-! ### Blocks that are on the media -/

theorem mediaBlk_setMedia (d : Dev) (nsid lba : Nat) (b : MediaBlk) (n l : Nat) :
    (d.setMedia nsid lba b).mediaBlk n l = if blkKey n l = blkKey nsid lba then b else d.mediaBlk n l := by
  show tabGet {} (tabPut {} d.host.media (blkKey nsid lba) b) (blkKey n l) = _
  rw [tabGet_tabPut]
  rfl

theorem mediaBlk_of_media {d e : Dev} (h : e.host.media = d.host.media) (n l : Nat) : e.mediaBlk n l = d.mediaBlk n l := by
  rw [Dev.mediaBlk, Dev.mediaBlk, h]

/-- A block that lies on the media. -/
def OnMedia (d : Dev) (n l : Nat) : Prop := (d.mediaBlk n l).mapped = true

theorem OnMedia.setMedia {d : Dev} {n l : Nat} (h : OnMedia d n l) (nsid lba : Nat) {b : MediaBlk} (hb : b.mapped = true) :
    OnMedia (d.setMedia nsid lba b) n l := by
  rw [OnMedia, mediaBlk_setMedia]
  split
  · exact hb
  · exact h

theorem OnMedia.of_media {d e : Dev} {n l : Nat} (h : OnMedia d n l) (hm : e.host.media = d.host.media) : OnMedia e n l := by
  rwa [OnMedia, mediaBlk_of_media hm]

theorem landBlk_media (d : Dev) (nsid lba act : Nat) (blk : Blk) (keys : Option (Nat × Nat)) :
    (landBlk d nsid lba act blk keys).host.media = (d.setMedia nsid lba { d.mediaBlk nsid lba with
      mapped := true, blk := blk, act := act, keys := keys, moved := goesAway d nsid lba act }).host.media := by
  unfold landBlk
  extract_lets away m m' d1 place list
  have hlist (reason : Nat) : (list reason d1).host.media = d1.host.media :=
    (media_of_hkeep (hkeep_detain (ft := detainHost) (by decide) (stampMs d1).2 _) (by decide)).trans
      (media_of_hkeep (hkeep_stampMs (ft := 0) d1) (by decide))
  clear_value list
  split
  · exact hlist 3
  · split
    · exact hlist _
    · rfl

theorem landCell_lands (d : Dev) (nsid : Nat) (poisoned : Bool) (lba : Nat) (c : BufCopy) : OnMedia (landCell d nsid poisoned lba c) nsid lba := by
  have hmedia : (landCell d nsid poisoned lba c).host.media = (landBlk d nsid lba c.act (if poisoned then .lost else c.blk)
      ((d.ns? nsid).bind fun ns => pairKeys d ns c.pair)).host.media := rfl
  rw [OnMedia, mediaBlk_of_media (hmedia.trans (landBlk_media ..)), mediaBlk_setMedia, if_pos rfl]

theorem OnMedia.landCell {d : Dev} {n l : Nat} (h : OnMedia d n l) (nsid : Nat) (poisoned : Bool) (lba : Nat) (c : BufCopy) :
    OnMedia (landCell d nsid poisoned lba c) n l := by
  have hmedia : (Machine.landCell d nsid poisoned lba c).host.media = (landBlk d nsid lba c.act (if poisoned then .lost else c.blk)
      ((d.ns? nsid).bind fun ns => pairKeys d ns c.pair)).host.media := rfl
  exact (h.setMedia nsid lba rfl).of_media (hmedia.trans (landBlk_media ..))

theorem OnMedia.placeUnit {d : Dev} {n l : Nat} (h : OnMedia d n l) (nsid act : Nat) (not : Option Nat) (unit : Nat) :
    OnMedia (placeUnit d nsid act not unit) n l := by
  unfold Machine.placeUnit
  split
  · exact h
  next ns i _ =>
    extract_lets wp cap d1 d2 d3
    have h1 : d1.host.media = d.host.media := media_of_hkeep (hkeep_runParity (ft := runParityHost) (by decide) d ns i act _) (by decide)
    have h2 : d2.host.media = d.host.media := h1
    have h3 : OnMedia d3 n l := by
      refine forEach_inv (P := fun e => OnMedia e n l) (fun e k _ he => ?_) (h.of_media h2)
      show OnMedia (if (e.mediaBlk nsid (unit * 8 + k)).mapped then _ else e) n l
      split
      next hm => exact he.setMedia _ _ hm
      next => exact he
    exact h3.of_media (media_of_hkeep (hkeep_mapUpdate (ft := mapUpdateHost) (by decide) d3 nsid unit (act / 2) false) (by decide))

/-! ### The landing of an extent -/

/-- A cell of an extent on its way to the media. -/
def landStep (e : Extent) (act : Nat) (poisoned : List Nat) (d : Dev) (c : BufCell) : Dev :=
  if goesAway d e.nsid c.lba act && relocFull d act then failFlushes d e.wid
  else cardCount (dropCell (landCell d e.nsid (c.now.poison || poisoned.contains c.lba) c.lba c.now) e.wid e.nsid c.lba) 5 1

/-- The block of a cell is on the media and gone from the extents of its write. -/
def Landed (wid nsid lba : Nat) (d : Dev) : Prop :=
  d.host.headDet = [] → OnMedia d nsid lba ∧ ∀ x ∈ d.host.extents, x.wid = wid → x.nsid = nsid → ∀ c ∈ x.cells, c.lba ≠ lba

/-- The extents of a write hold no more than one extent's cells. -/
def Within (e : Extent) (d : Dev) : Prop := ∀ x ∈ d.host.extents, x.wid = e.wid → x.nsid = e.nsid ∧ x.cells ⊆ e.cells

section
variable (e : Extent) (act : Nat) (poisoned : List Nat) (d : Dev) (c : BufCell)

theorem landStep_lands (h : d.host.headDet = []) : landStep e act poisoned d c =
    cardCount (dropCell (landCell d e.nsid (c.now.poison || poisoned.contains c.lba) c.lba c.now) e.wid e.nsid c.lba) 5 1 := by
  have hstays : goesAway d e.nsid c.lba act = false := by
    unfold goesAway
    split
    · rfl
    · simp [h]
  rw [landStep, hstays]
  rfl

def landStepHost : Nat := landCellHost ||| updExtentsHost ||| leaveTableHost

theorem hkeep_landStep : hkeep landStepHost (landStep e act poisoned d c) = hkeep landStepHost d := by
  simp +decide only [landStep, ↓hkeep_failFlushes, ↓hkeep_cardCount, ↓hkeep_dropCell, ↓hkeep_landCell, ↓hkeep_ite, ite_self]

theorem landStep_extents (h : d.host.headDet = []) : (landStep e act poisoned d c).host.extents = ((listMapIf (fun x => x.wid == e.wid && x.nsid == e.nsid)
    (fun x => { x with cells := x.cells.filter fun y => y.lba != c.lba }) d.host.extents).filter fun x => !x.cells.isEmpty) := by
  rw [landStep_lands e act poisoned d c h, extents_of_hkeep (hkeep_cardCount (ft := 0) _ 5 1) (by decide)]
  have hland := extents_of_hkeep (hkeep_landCell (ft := landCellHost) (by decide) d e.nsid (c.now.poison || poisoned.contains c.lba) c.lba c.now) (by decide)
  rw [← hland]
  rfl

theorem landStep_media (h : d.host.headDet = []) : (landStep e act poisoned d c).host.media =
    (landCell d e.nsid (c.now.poison || poisoned.contains c.lba) c.lba c.now).host.media := by
  rw [landStep_lands e act poisoned d c h, media_of_hkeep (hkeep_cardCount (ft := 0) _ 5 1) (by decide)]
  rfl

theorem landStep_headDet : (landStep e act poisoned d c).host.headDet = d.host.headDet :=
  headDet_of_hkeep (hkeep_landStep e act poisoned d c) (by decide)

theorem landStep_landed : Landed e.wid e.nsid c.lba (landStep e act poisoned d c) := by
  intro h
  rw [landStep_headDet] at h
  refine ⟨(landCell_lands d e.nsid _ c.lba c.now).of_media (landStep_media e act poisoned d c h), fun x hx hwid hnsid y hy => ?_⟩
  rw [landStep_extents e act poisoned d c h] at hx
  obtain ⟨z, hz, rfl⟩ := List.mem_map.1 (List.mem_filter.1 hx).1
  split at hwid
  next hz' =>
    rw [if_pos hz'] at hy
    simpa using (List.mem_filter.1 hy).2
  next hz' =>
    rw [if_neg hz'] at hnsid
    exact absurd (by simp [hwid, hnsid]) hz'

variable {e act poisoned d c}

/-- A step adds no cell to an extent. -/
theorem landStep_shrinks {x : Extent} (hx : x ∈ (landStep e act poisoned d c).host.extents) :
    ∃ z ∈ d.host.extents, z.wid = x.wid ∧ z.nsid = x.nsid ∧ x.cells ⊆ z.cells := by
  unfold landStep at hx
  split at hx
  · rw [extents_of_hkeep (hkeep_failFlushes (ft := leaveTableHost) (by decide) d e.wid) (by decide)] at hx
    exact ⟨x, hx, rfl, rfl, List.Subset.refl _⟩
  · rw [extents_of_hkeep (hkeep_cardCount (ft := 0) _ 5 1) (by decide)] at hx
    have hland := extents_of_hkeep (hkeep_landCell (ft := landCellHost) (by decide) d e.nsid (c.now.poison || poisoned.contains c.lba) c.lba c.now) (by decide)
    obtain ⟨z, hz, rfl⟩ := List.mem_map.1 (List.mem_filter.1 hx).1
    rw [hland] at hz
    refine ⟨z, hz, ?_⟩
    split
    · exact ⟨rfl, rfl, List.filter_subset_self _⟩
    · exact ⟨rfl, rfl, List.Subset.refl _⟩

theorem Landed.step {lba : Nat} (hl : Landed e.wid e.nsid lba d) : Landed e.wid e.nsid lba (landStep e act poisoned d c) := by
  intro h
  have hhead := landStep_headDet e act poisoned d c
  rw [hhead] at h
  obtain ⟨hmedia, hgone⟩ := hl h
  refine ⟨(hmedia.landCell e.nsid _ c.lba c.now).of_media (landStep_media e act poisoned d c h), fun x hx hwid hnsid y hy => ?_⟩
  obtain ⟨z, hz, hzwid, hznsid, hsub⟩ := landStep_shrinks hx
  exact hgone z hz (hzwid.trans hwid) (hznsid.trans hnsid) y (hsub hy)

theorem Within.step (hw : Within e d) : Within e (landStep e act poisoned d c) := by
  intro x hx hwid
  obtain ⟨z, hz, hzwid, hznsid, hsub⟩ := landStep_shrinks hx
  obtain ⟨hnsid, hcells⟩ := hw z hz (hzwid.trans hwid)
  exact ⟨hznsid.symm.trans hnsid, List.Subset.trans hsub hcells⟩

end

/-- What the landing of an extent on an actuator leaves: its blocks there are on the media, and the write holds none of them. -/
def Destaged (e : Extent) (act : Nat) (d : Dev) : Prop :=
  (∀ x ∈ d.host.extents, x.wid = e.wid → ∀ c ∈ x.cells, c.now.act ≠ act) ∧ ∀ c ∈ e.cells, c.now.act = act → OnMedia d e.nsid c.lba

theorem Destaged.of {e : Extent} {act : Nat} {d d' : Dev} (h : Destaged e act d)
    (hext : bufferView d' = bufferView d) (hmedia : ∀ l, OnMedia d e.nsid l → OnMedia d' e.nsid l) : Destaged e act d' := by
  refine ⟨fun x hx hwid c hc => ?_, fun c hc hact => hmedia _ (h.2 c hc hact)⟩
  have hmem : { x with prio := false } ∈ bufferView d := by
    rw [← hext]
    exact List.mem_map.2 ⟨x, hx, rfl⟩
  obtain ⟨y, hy, heq⟩ := List.mem_map.1 hmem
  have hcells : y.cells = x.cells := (congrArg Extent.cells heq :)
  have hwid' : y.wid = x.wid := (congrArg Extent.wid heq :)
  exact h.1 y hy (hwid'.trans hwid) c (by rw [hcells]; exact hc)

theorem landExtent_destages {d : Dev} {e : Extent} {act : Nat} (poisoned : List Nat) (hhead : d.host.headDet = [])
    (hwithin : Within e d) : Destaged e act (landExtent d e act poisoned) := by
  unfold landExtent
  extract_lets cells d1
  have h1 : d1 = forEach cells d (landStep e act poisoned) := rfl
  have hhead1 : d1.host.headDet = [] := by
    rw [h1, ← hhead]
    exact forEach_keeps (p := fun e => e.host.headDet) (fun x c _ => landStep_headDet e act poisoned x c) d
  have hwithin1 : Within e d1 := by
    rw [h1]
    exact forEach_inv (P := Within e) (fun x c _ hx => hx.step) hwithin
  have hlanded (c : BufCell) (hc : c ∈ cells) : Landed e.wid e.nsid c.lba d1 := by
    rw [h1]
    exact forEach_reaches (P := Landed e.wid e.nsid c.lba) hc (fun x => landStep_landed e act poisoned x c) (fun x y _ hx => hx.step) d
  have hmem (c : BufCell) (hc : c ∈ e.cells) (hact : c.now.act = act) : c ∈ cells := List.mem_filter.2 ⟨hc, by simpa using hact⟩
  have hdone : Destaged e act d1 := by
    refine ⟨fun x hx hwid c hc hact => ?_, fun c hc hact => ((hlanded c (hmem c hc hact)) hhead1).1⟩
    obtain ⟨hnsid, hsub⟩ := hwithin1 x hx hwid
    exact ((hlanded c (hmem c (hsub hc) hact)) hhead1).2 x hx hwid hnsid c hc rfl
  clear_value d1
  split
  · exact hdone
  · split
    · refine forEach_inv (P := Destaged e act) (fun x zi _ hx => hx.of ?_ fun l hl => ?_) hdone
      · exact bufferView_of_extents (extents_of_hkeep (hkeep_refreshParity (ft := refreshParityHost) (by decide) x e.nsid zi) (by decide))
      · exact hl.of_media (media_of_hkeep (hkeep_refreshParity (ft := refreshParityHost) (by decide) x e.nsid zi) (by decide))
    · refine forEach_inv (P := Destaged e act) (fun x u _ hx => hx.of ?_ fun l hl => ?_) hdone
      · exact bufferView_of_extents (extents_of_hkeep (hkeep_placeUnit (ft := placeUnitHost) (by decide) x e.nsid act none u) (by decide))
      · exact hl.placeUnit _ _ _ _

/-! ### Reads that waited for the extent -/

theorem bufferView_serveRead (d : Dev) (x : Ctx) : bufferView (serveRead d x) = bufferView d :=
  bufferView_of_extents (extents_of_hkeep (hkeep_serveRead (ft := serveReadHost) (by decide) d x) (by decide))

theorem bufferView_startRead (d : Dev) (x : Ctx) : bufferView (startRead d x) = bufferView d := by
  unfold startRead
  extract_lets es mine
  clear_value es mine
  split
  · exact bufferView_of_extents (extents_of_hkeep (hkeep_startMedia (ft := startMediaHost ||| serveReadHost) (by decide) d x _
      fun e => hkeep_serveRead (by decide) e x) (by decide))
  · split
    · exact bufferView_serveRead d x
    · exact bufferView_destageExtent _ _ _
  · exact bufferView_destageAll _ _ _

theorem bufferView_wakeWaiters (d : Dev) : bufferView (wakeWaiters d) = bufferView d := by
  refine forEach_keeps (p := bufferView) (fun e x _ => ?_) d
  split
  · rfl
  next y _ =>
    extract_lets left
    split
    · exact bufferView_startRead _ _
    · rfl

/-! ### Keys in the cache -/

/-- The keys of some slot pairs lie in the unwrapped-key cache. -/
def PairsCached (d : Dev) (pairs : List Nat) : Prop :=
  d.cipher.cache.length ≤ 512 ∧ ∀ p ∈ pairs, d.cipher.cache.contains (2 * p) = true ∧ d.cipher.cache.contains (2 * p + 1) = true

theorem fetchKey_cached {d : Dev} {i : Nat} (destage : Bool) (h : d.cipher.cache.contains i = true) : fetchKey d i destage = (none, useKey d i) := by
  rw [fetchKey, if_pos h]

theorem PairsCached.useKey {d : Dev} {pairs : List Nat} (h : PairsCached d pairs) {i : Nat} (hi : d.cipher.cache.contains i = true) :
    PairsCached (useKey d i) pairs := by
  have hlen : (d.cipher.cache.filter fun k => k != i).length < d.cipher.cache.length := by
    rw [List.length_filter_lt_length_iff_exists]
    exact ⟨i, by simpa using hi, by simp⟩
  have hcache : (Machine.useKey d i).cipher.cache = (d.cipher.cache.filter fun k => k != i) ++ [i] := by
    show (if (d.cipher.cache.filter fun k => k != i).length < 512 then _ else _) ++ [i] = _
    rw [if_pos (Nat.lt_of_lt_of_le hlen h.1)]
  have hkept (k : Nat) (hk : d.cipher.cache.contains k = true) : (Machine.useKey d i).cipher.cache.contains k = true := by
    rw [hcache]
    by_cases hki : k = i
    · simp [hki]
    · simpa [hki] using hk
  refine ⟨?_, fun p hp => ⟨hkept _ (h.2 p hp).1, hkept _ (h.2 p hp).2⟩⟩
  rw [hcache, List.length_append, List.length_singleton]
  have := h.1
  omega

theorem PairsCached.of_cipher {d e : Dev} {pairs : List Nat} (h : PairsCached d pairs) (hc : e.cipher = d.cipher) : PairsCached e pairs := by
  rwa [PairsCached, hc]

theorem xtsUse_cached {d : Dev} {pairs : List Nat} (ns : Ns) {p : Nat} (n : Nat) (destage : Bool) (h : PairsCached d pairs) (hp : p ∈ pairs) :
    (xtsUse d ns p n destage).1 = none ∧ PairsCached (xtsUse d ns p n destage).2 pairs := by
  have h1 := h.useKey (h.2 p hp).1
  have h2 := h1.useKey (h1.2 p hp).2
  have hspread (e : Dev) (k : Nat) : (syncWork (spreadBytes e k)).cipher = e.cipher :=
    (cipher_of_keep (keep_syncWork (ft := syncWorkFoot) (by decide) _) (by decide)).trans
      (cipher_of_keep (keep_spreadBytes (ft := spreadBytesFoot) (by decide) e k) (by decide))
  unfold xtsUse
  split
  · exact ⟨rfl, h⟩
  · simp only [fetchKey_cached destage (h.2 p hp).1, fetchKey_cached destage (h1.2 p hp).2]
    exact ⟨trivial, h2.of_cipher (hspread _ _)⟩

/-- The keys that some data needs are at hand. -/
def KeysReady (d : Dev) (ns : Ns) (pairs : List Nat) : Prop := classXts d ns.cls = false ∨ PairsCached d pairs

theorem keysReady_of_cached {d : Dev} {ns : Ns} {pairs : List Nat} (h : keysCached d ns pairs = true) : KeysReady d ns pairs := by
  rcases Bool.or_eq_true _ _ |>.mp h with hx | hc
  · exact .inl (by simpa using hx)
  · refine .inr ?_
    rw [Bool.and_eq_true, List.all_eq_true] at hc
    exact ⟨by simpa using hc.1, fun p hp => by simpa using hc.2 p hp⟩

theorem xtsUse_ready {d : Dev} {ns : Ns} {pairs : List Nat} {p : Nat} (n : Nat) (destage : Bool) (h : KeysReady d ns pairs) (hp : p ∈ pairs) :
    (xtsUse d ns p n destage).1 = none ∧ KeysReady (xtsUse d ns p n destage).2 ns pairs := by
  rcases h with hx | hc
  · have hrun : xtsUse d ns p n destage = (none, d) := by rw [xtsUse, if_pos (by simp [hx])]
    rw [hrun]
    exact ⟨rfl, .inl hx⟩
  · exact ⟨(xtsUse_cached ns n destage hc hp).1, .inr (xtsUse_cached ns n destage hc hp).2⟩

theorem xtsPairs_ready {d : Dev} {ns : Ns} {pairs : List Nat} (destage : Bool) (h : KeysReady d ns pairs) : (xtsPairs d ns pairs destage).1 = none := by
  have hfold (l : List Nat) (hl : l ⊆ pairs) (acc : Option (Nat × Fld) × Dev) (hnone : acc.1 = none) (hacc : KeysReady acc.2 ns pairs) :
      (l.foldl (fun (acc : Option (Nat × Fld) × Dev) e => match acc.1 with
        | some _ => acc
        | none => xtsUse acc.2 ns e (pairs.filter fun x => x == e).length destage) acc).1 = none := by
    induction l generalizing acc with
    | nil => exact hnone
    | cons p l ih =>
      rw [List.cons_subset] at hl
      rw [List.foldl_cons, hnone]
      have hstep := xtsUse_ready (pairs.filter fun x => x == p).length destage hacc hl.1
      exact ih hl.2 _ hstep.1 hstep.2
  exact hfold _ (fun _ hx => List.mem_eraseDups.1 hx) (none, d) rfl h

/-! ### The end of a destage -/

theorem stopWrite_keeps (d : Dev) (a : Nat) : keep (pllArmFoot ||| updSeqFoot) (stopWrite d a) = keep (pllArmFoot ||| updSeqFoot) d := by
  simp +decide only [stopWrite, ↓keep_pllArm, ↓keep_updSeq]

def destagedHost : Nat := startReadHost ||| tryCompleteHost ||| settleReadOnlyHost

theorem destaged_destages {d : Dev} {wid act : Nat} {e : Extent} {ns : Ns} (poisoned : List Nat) (hcovered : whollyCovered d wid = true)
    (hes : d.host.extents.filter (fun e => e.wid == wid) = [e]) (hns : d.ns? e.nsid = some ns) (hhead : d.host.headDet = [])
    (hkeys : KeysReady d ns ((e.cells.filter fun c => c.now.act == act).map fun c => c.now.pair)) :
    Destaged e act (destaged d wid act poisoned) := by
  have hwid : e.wid = wid := by
    have hmem : e ∈ d.host.extents.filter fun e => e.wid == wid := by rw [hes]; exact List.mem_singleton.2 rfl
    simpa using (List.mem_filter.1 hmem).2
  have hwithin : Within e d := by
    intro x hx hxwid
    have hmem : x ∈ d.host.extents.filter fun e => e.wid == wid := List.mem_filter.2 ⟨hx, by simpa using hxwid.trans hwid⟩
    rw [hes, List.mem_singleton] at hmem
    exact hmem ▸ ⟨rfl, List.Subset.refl _⟩
  unfold destaged
  rw [if_neg (by simp [hcovered])]
  extract_lets es d1 d2
  have hready := xtsPairs_ready (d := d1) true hkeys
  have hused := hkeep_xtsPairs (ft := 0) d1 ns ((e.cells.filter fun c => c.now.act == act).map fun c => c.now.pair) true
  have hdone : Destaged e act d2 := by
    have hland : d2 = landExtent (xtsPairs d1 ns ((e.cells.filter fun c => c.now.act == act).map fun c => c.now.pair) true).2 e act poisoned := by
      unfold d2
      rw [show es = [e] from hes]
      simp only [forEach, List.foldl_cons, List.foldl_nil, show d1.ns? e.nsid = some ns from hns]
      generalize xtsPairs d1 ns ((e.cells.filter fun c => c.now.act == act).map fun c => c.now.pair) true = r at *
      obtain ⟨f, x⟩ := r
      obtain rfl : f = none := hready
      rfl
    rw [hland]
    refine landExtent_destages poisoned ((headDet_of_hkeep hused (by decide)).trans hhead) fun x hx => hwithin x ?_
    rwa [extents_of_hkeep hused (by decide)] at hx
  have hafter : hkeep destagedHost (syncHost (wakeWaiters (settleWrites (settleReadOnly d2)))) = hkeep destagedHost d2 := by
    simp +decide only [↓hkeep_syncHost, ↓hkeep_wakeWaiters, ↓hkeep_settleWrites, ↓hkeep_settleReadOnly]
  clear_value d2
  refine hdone.of ?_ fun l hl => hl.of_media (media_of_hkeep hafter (by decide))
  rw [bufferView_of_extents (congrArg _ (syncHost_host _)), bufferView_wakeWaiters, bufferView_settleWrites]
  exact bufferView_of_extents (extents_of_hkeep (hkeep_settleReadOnly (ft := settleReadOnlyHost) (by decide) d2) (by decide))

/-! ### The end of a locker task -/

theorem eraseDups_const {l : List Nat} {n : Nat} (h : ∀ x ∈ l, x = n) : l.eraseDups = [] ∧ l = [] ∨ l.eraseDups = [n] := by
  cases l with
  | nil => exact .inl ⟨rfl, rfl⟩
  | cons a l =>
    have hrest : l.filter (fun b => !b == a) = [] := by
      rw [List.filter_eq_nil_iff]
      intro b hb
      rw [h b (by simp [hb]), h a (by simp)]
      simp
    right
    rw [List.eraseDups_cons, hrest, h a (by simp)]
    rfl

theorem mem_unsafeCopies {d : Dev} {wid act : Nat} {x : Extent} {c : Nat × BufCopy} (hx : x ∈ d.host.extents) (hc : c ∈ x.copies)
    (hwid : c.2.wid = wid) (hact : c.2.act = act) (hcovered : c.2.covered = true) (hunsafe : c.2.safe = false) :
    (x.nsid, c.1, c.2) ∈ unsafeCopies d wid act := by
  refine List.mem_filter.2 ⟨List.mem_flatMap.2 ⟨x, hx, List.mem_map.2 ⟨c, hc, rfl⟩⟩, ?_⟩
  simp [hwid, hact, hcovered, hunsafe]

/-- The mark that a copy has reached its locker track. -/
def markSafe (wid act : Nat) (c : BufCopy) : BufCopy := if c.wid == wid && c.act == act && c.covered then { c with safe := true } else c

theorem markSafe_safe {wid act : Nat} {c : BufCopy} (hwid : (markSafe wid act c).wid = wid) (hact : (markSafe wid act c).act = act)
    (hcovered : (markSafe wid act c).covered = true) : (markSafe wid act c).safe = true := by
  unfold markSafe at *
  split
  · rfl
  next h =>
    rw [if_neg h] at hwid hact hcovered
    exact absurd (by simp [hwid, hact, hcovered]) h

/-- What a locker task leaves: the covered copies of its write are safe, and those that were not are in the journal. -/
def Lockered (wid act nsid : Nat) (cs : List (Nat × Nat × BufCopy)) (d : Dev) : Prop :=
  (∀ c ∈ copiesOf d, c.2.wid = wid → c.2.act = act → c.2.covered = true → c.2.safe = true) ∧
    ∀ c ∈ cs, d.host.locker.any (fun b => b.nsid == nsid && b.lba == c.2.1 && b.hda == act / 2) = true

theorem Lockered.of {wid act nsid : Nat} {cs : List (Nat × Nat × BufCopy)} {d e : Dev} (h : Lockered wid act nsid cs d)
    (hbuf : bufferView e = bufferView d) (hlocker : e.host.locker = d.host.locker) : Lockered wid act nsid cs e := by
  rwa [Lockered, copiesOf_of_bufferView hbuf, hlocker]

/-- The extents of a namespace with the copies of one write marked. -/
def markNs (wid act nsid : Nat) (d : Dev) : Dev :=
  d.updExtents (listMapIf (fun y => y.nsid == nsid) fun y =>
    { y with cells := y.cells.map fun c => { c with now := markSafe wid act c.now, under := c.under.map (markSafe wid act) } })

theorem markNs_safe {wid act nsid : Nat} {d : Dev} (hall : ∀ c ∈ unsafeCopies d wid act, c.1 = nsid) :
    ∀ c ∈ copiesOf (markNs wid act nsid d), c.2.wid = wid → c.2.act = act → c.2.covered = true → c.2.safe = true := by
  intro c hc hwid hact hcovered
  obtain ⟨x', hx', hc⟩ := List.mem_flatMap.1 hc
  obtain ⟨x, hx, rfl⟩ := List.mem_map.1 hx'
  split at hc
  next hnsid =>
    obtain ⟨k', hk', hc⟩ := List.mem_flatMap.1 hc
    obtain ⟨k, hk, rfl⟩ := List.mem_map.1 hk'
    rcases List.mem_cons.1 hc with rfl | hunder
    · exact markSafe_safe hwid hact hcovered
    · obtain ⟨u', hu', rfl⟩ := List.mem_map.1 hunder
      obtain ⟨u, hu, rfl⟩ := List.mem_map.1 hu'
      exact markSafe_safe hwid hact hcovered
  next hnsid =>
    cases hsafe : c.2.safe with
    | true => rfl
    | false => exact absurd (by simpa using hall _ (mem_unsafeCopies hx hc hwid hact hcovered hsafe)) hnsid

/-- The entries of a journal for the copies that a locker task wrote. -/
def journalCopies (ns : Ns) (act : Nat) (poisoned : List Nat) (cs : List (Nat × Nat × BufCopy)) (d : Dev) : Dev :=
  d.updHost fun s => { s with
    locker := s.locker ++ cs.map fun c =>
      { hda := act / 2, nsid := ns.nsid, lba := c.2.1, blk := if c.2.2.poison || poisoned.contains c.2.1 then .lost else c.2.2.blk,
        act := act, covered := true, keys := pairKeys d ns c.2.2.pair },
    lockerHash := if cs.isEmpty then s.lockerHash else tabPut 0 s.lockerHash (act / 2) (sectionHash d (act / 2)) }

theorem journalCopies_extents (ns : Ns) (act : Nat) (poisoned : List Nat) (cs : List (Nat × Nat × BufCopy)) (d : Dev) :
    (journalCopies ns act poisoned cs d).host.extents = d.host.extents := rfl

theorem journalCopies_holds {ns : Ns} {act : Nat} {poisoned : List Nat} {cs : List (Nat × Nat × BufCopy)} {d : Dev} {c : Nat × Nat × BufCopy}
    (hc : c ∈ cs) :
    (journalCopies ns act poisoned cs d).host.locker.any (fun b => b.nsid == ns.nsid && b.lba == c.2.1 && b.hda == act / 2) = true := by
  rw [List.any_eq_true]
  exact ⟨_, List.mem_append_right _ (List.mem_map.2 ⟨c, hc, rfl⟩), by simp⟩

theorem lockered_lockers {d : Dev} {wid act : Nat} {ns : Ns} (poisoned : List Nat)
    (hall : (unsafeCopies d wid act).all (fun c => c.1 == ns.nsid) = true) (hns : d.ns? ns.nsid = some ns)
    (hkeys : KeysReady d ns ((unsafeCopies d wid act).map fun c => c.2.2.pair)) :
    Lockered wid act ns.nsid (unsafeCopies d wid act) (lockered d wid act poisoned) := by
  have hnsid (c : Nat × Nat × BufCopy) (hc : c ∈ unsafeCopies d wid act) : c.1 = ns.nsid := by simpa using List.all_eq_true.1 hall c hc
  unfold lockered
  extract_lets d1 cs mark d2
  have hcs : cs = unsafeCopies d wid act := rfl
  have hafter : Lockered wid act ns.nsid cs d2 → Lockered wid act ns.nsid cs (syncHost (settleWrites d2)) := fun h => by
    refine h.of ?_ ?_
    · rw [bufferView_of_extents (congrArg _ (syncHost_host _)), bufferView_settleWrites]
    · rw [syncHost_host, locker_of_hkeep (hkeep_settleWrites (ft := tryCompleteHost) (by decide) d2) (by decide)]
  rw [← hcs]
  refine hafter ?_
  have hmine : cs.filter (fun c => c.1 == ns.nsid) = cs := List.filter_eq_self.2 fun c hc => by simpa using hnsid c hc
  rcases eraseDups_const (l := cs.map (·.1)) (n := ns.nsid) (fun x hx => by
    obtain ⟨c, hc, rfl⟩ := List.mem_map.1 hx
    exact hnsid c hc) with ⟨hnil, hempty⟩ | hone
  · have hcs0 : cs = [] := List.map_eq_nil_iff.1 hempty
    have h2 : d2 = d1 := by
      unfold d2
      rw [hnil]
      rfl
    rw [h2]
    refine ⟨fun c hc hwid hact hcovered => ?_, fun c hc => by rw [hcs0] at hc; cases hc⟩
    obtain ⟨x, hx, hc⟩ := List.mem_flatMap.1 hc
    cases hsafe : c.2.safe with
    | true => rfl
    | false =>
      have hmem := mem_unsafeCopies (d := d) hx hc hwid hact hcovered hsafe
      rw [← hcs, hcs0] at hmem
      cases hmem
  · have hready := xtsPairs_ready (d := d1) true (show KeysReady d1 ns (cs.map fun c => c.2.2.pair) from hkeys)
    have hused := hkeep_xtsPairs (ft := 0) d1 ns (cs.map fun c => c.2.2.pair) true
    have h2 : d2 = markNs wid act ns.nsid (journalCopies ns act poisoned cs (xtsPairs d1 ns (cs.map fun c => c.2.2.pair) true).2) := by
      unfold d2
      rw [hone]
      simp only [forEach, List.foldl_cons, List.foldl_nil, show d1.ns? ns.nsid = some ns from hns, hmine]
      generalize xtsPairs d1 ns (cs.map fun c => c.2.2.pair) true = r at *
      obtain ⟨f, x⟩ := r
      obtain rfl : f = none := hready
      rfl
    rw [h2]
    refine ⟨markNs_safe fun c hc => hnsid c ?_, fun c hc => journalCopies_holds hc⟩
    have hext : (xtsPairs d1 ns (cs.map fun c => c.2.2.pair) true).2.host.extents = d.host.extents :=
      (extents_of_hkeep hused (by decide)).trans rfl
    rwa [unsafeCopies, journalCopies_extents, hext] at hc

/-! ### Flush and Abort -/

theorem addTask_adds (d : Dev) (kind : MKind) (act : Nat) : ∃ t ∈ (addTask d kind act true).host.tasks, t.kind = kind ∧ t.act = act ∧ t.prio = true := by
  unfold addTask
  split
  next h =>
    obtain ⟨t, ht, hmatch⟩ := List.any_eq_true.1 h
    refine ⟨{ t with prio := t.prio || true }, List.mem_map.2 ⟨t, ht, if_pos hmatch⟩, ?_⟩
    simpa using hmatch
  next =>
    extract_lets n d1
    exact ⟨_, List.mem_append_right _ (List.mem_singleton.2 rfl), rfl, rfl, rfl⟩

theorem flushFallback_falls {d : Dev} {id eid a : Nat} {x : Ctx} (hx : d.ctx? id = some x) (hstage : x.stage = .flushing)
    (hpend : x.pend.contains eid = true)
    (hacts : (((copiesOf d).filter fun c => c.2.wid == eid && c.2.covered && !c.2.safe).map fun c => c.2.act).eraseDups = [a])
    (hready : hdaReady d (a / 2) = true) : flushFallback id eid d = toLocker d eid a := by
  unfold flushFallback
  simp only [hx]
  rw [if_pos (by rw [hstage, hpend]; rfl), hacts]
  exact if_pos hready

theorem flushComplete_completes {d : Dev} {id h qid cid : Nat} {x : Ctx} (hx : d.ctx? id = some x) (hstage : x.stage = .flushing)
    (horg : x.org = .host h qid cid) (hnone : (copiesOf d).any (fun c => x.pend.contains c.2.wid && c.2.covered && !c.2.safe) = false) :
    Reported (.cqe h qid cid 0 0) (flushComplete id d) ∧ (flushComplete id d).ctx? id = none := by
  unfold flushComplete
  simp only [hx]
  rw [if_pos (by rw [hstage, hnone]; rfl)]
  exact ⟨finish_reports _ _ hx horg, finish_gone _ _ _ _⟩

theorem begunNow_of_host {d e : Dev} (h : e.host = d.host) (x : Ctx) : begunNow e x = begunNow d x := by rw [begunNow, begunNow, h]

theorem abort_ends {d : Dev} {h cid qid target : Nat} {x : Ctx} (hfind : d.host.ctxs.find? (fun x => x.org == .host h qid target) = some x)
    (hbegun : begunNow d x = false) (hx : d.ctx? x.id = some x) : (abort h cid qid target d).ctx? x.id = none ∧
      (abort h cid qid target d).out.head? = some (.cqe h 0 cid 0 0) ∧
      (d.host.order.Nodup → Reported (.cqe h qid target stAborted 0) (abort h cid qid target d)) := by
  have horg : x.org = .host h qid target := by simpa using List.find?_some (p := fun x : Ctx => x.org == .host h qid target) hfind
  have hrun : abort h cid qid target d =
      (if writesData x.c.kind then failWrite d x.id stAborted else finish d x.id stAborted 0).emit (.cqe h 0 cid 0 0) := by
    unfold abort
    simp only [hfind]
    rw [if_neg (by simp [hbegun])]
  rw [hrun]
  refine ⟨?_, rfl, fun horder => ((Onward.refl _).emit _).reported ?_⟩
  · show (if writesData x.c.kind then failWrite d x.id stAborted else finish d x.id stAborted 0).ctx? x.id = none
    split
    · exact failWrite_gone _ _ _
    · exact finish_gone _ _ _ _
  · split
    · exact failWrite_reports _ hx horg horder
    · exact finish_reports _ _ hx horg

theorem abort_begun {d : Dev} {h cid qid target : Nat} {x : Ctx} (hfind : d.host.ctxs.find? (fun x => x.org == .host h qid target) = some x)
    (hbegun : begunNow d x = true) : abort h cid qid target d = d.emit (.cqe h 0 cid 0 1) := by
  unfold abort
  simp only [hfind]
  rw [if_pos hbegun]

/-- What the drop of a task after a write leaves of the host's state. -/
theorem dropTask_stopWrite (d : Dev) (a tid : Nat) : hkeep updTasksHost (dropTask (stopWrite d a) tid) = hkeep updTasksHost d ∧
    (dropTask (stopWrite d a) tid).cipher = d.cipher ∧ (dropTask (stopWrite d a) tid).struct = d.struct := by
  have hstop := stopWrite_keeps d a
  have hdrop := keep_dropTask (ft := dropTaskFoot) (by decide) (stopWrite d a) tid
  exact ⟨(hkeep_dropTask (by decide) _ _).trans (hkeep_of_keep hstop (by decide) _),
    (cipher_of_keep hdrop (by decide)).trans (cipher_of_keep hstop (by decide)),
    (struct_of_keep hdrop (by decide)).trans (struct_of_keep hstop (by decide))⟩

theorem keysReady_of {d e : Dev} {ns : Ns} {pairs : List Nat} (hcipher : e.cipher = d.cipher) (hstruct : e.struct = d.struct)
    (h : KeysReady d ns pairs) : KeysReady e ns pairs := by
  rw [KeysReady, classXts_of_struct hstruct]
  exact h.imp_right fun hc => hc.of_cipher hcipher

/-- Settles O33: a lemma per row. -/
theorem commandEndRowsComplete : Obligations.CommandEndRowsComplete := by
  unfold Obligations.CommandEndRowsComplete
  refine ⟨?expiry, ?destage, ?locker, ?read, ?cut, ?fallback, ?flush, ?begun, ?aborts⟩
  case expiry =>
    intro s id x h qid cid hx hwaits horg
    exact brings_of_run (execTolerableLatencyExpiry.eq_def id s) (latencyExpiry_ends hx hwaits horg)
  case destage =>
    intro s tid wid t poisoned e ns ht hbegun hkind hended hcovered hes hns hhead hkeys
    refine brings_of_run (execMediaTaskEnd.eq_def tid (.done poisoned) s) ?_
    rw [mediaTaskEnd_destage poisoned ht hbegun hended hkind]
    obtain ⟨hhost, hcipher, hstruct⟩ := dropTask_stopWrite s.dev t.act tid
    generalize dropTask (stopWrite s.dev t.act) tid = d at *
    have hwid : e.wid = wid := by
      have hmem : e ∈ s.dev.host.extents.filter fun e => e.wid == wid := by rw [hes]; exact List.mem_singleton.2 rfl
      simpa using (List.mem_filter.1 hmem).2
    have hdone := destaged_destages (d := d) (wid := wid) (act := t.act) (e := e) (ns := ns) poisoned
      (by rwa [whollyCovered, copiesOf, extents_of_hkeep hhost (by decide)]) (by rwa [extents_of_hkeep hhost (by decide)])
      (by rwa [Dev.ns?, nss_of_hkeep hhost (by decide)]) (by rwa [headDet_of_hkeep hhost (by decide)])
      (keysReady_of hcipher hstruct (keysReady_of_cached hkeys))
    exact ⟨fun x hx hxwid => hdone.1 x hx (hxwid.trans hwid.symm), hdone.2⟩
  case locker =>
    intro s tid wid t poisoned ns ht hbegun hkind hended hall hns hkeys
    refine brings_of_run (execMediaTaskEnd.eq_def tid (.done poisoned) s) ?_
    rw [mediaTaskEnd_locker poisoned ht hbegun hended hkind]
    obtain ⟨hhost, hcipher, hstruct⟩ := dropTask_stopWrite s.dev t.act tid
    generalize dropTask (stopWrite s.dev t.act) tid = d at *
    have hcs : unsafeCopies d wid t.act = unsafeCopies s.dev wid t.act := by
      rw [unsafeCopies, unsafeCopies, extents_of_hkeep hhost (by decide)]
    have hdone := lockered_lockers (d := d) (wid := wid) (act := t.act) (ns := ns) poisoned
      (by rwa [hcs]) (by rwa [Dev.ns?, nss_of_hkeep hhost (by decide)]) (by rw [hcs]; exact keysReady_of hcipher hstruct (keysReady_of_cached hkeys))
    rw [hcs] at hdone
    exact hdone
  case read =>
    intro s tid id t poisoned ht hbegun hkind hended
    exact gives_of_run (execMediaTaskEnd.eq_def tid (.done poisoned) s) (mediaTaskEnd_read poisoned ht hbegun hended hkind)
  case cut =>
    intro s tid t cause ht hbegun
    exact brings_of_run (execMediaTaskEnd.eq_def tid (.cut cause) s) (mediaTaskEnd_cut cause ht hbegun)
  case fallback =>
    intro s id eid a x hx hstage hpend hacts hready
    refine brings_of_run (execFlushLockerFallback.eq_def id eid s) ?_
    rw [flushFallback_falls hx hstage hpend hacts hready]
    exact addTask_adds _ _ _
  case flush =>
    intro s id x h qid cid hx hstage horg hnone
    exact brings_of_run (execFlushComplete.eq_def id s) (flushComplete_completes hx hstage horg hnone)
  case begun =>
    intro s h cid qid target x hruns hfind hbegun
    refine gives_of_run (execAbort.eq_def h cid qid target s) ?_
    rw [adminDo_runs cid _ hruns]
    exact abort_begun (by rwa [wakeChip_host]) (by rwa [begunNow_of_host (wakeChip_host _)])
  case aborts =>
    intro s h cid qid target x hruns hfind hbegun hx
    refine brings_of_run (execAbort.eq_def h cid qid target s) ?_
    rw [adminDo_runs cid _ hruns]
    have hends := abort_ends (d := wakeChip s.dev) (cid := cid) (by rwa [wakeChip_host]) (by rwa [begunNow_of_host (wakeChip_host _)])
      ((Dev.ctx?_of_ctxs (congrArg _ (wakeChip_host s.dev)) _).trans hx)
    rwa [wakeChip_host] at hends

end Sys2Proof.Machine
end

section
/-! PROOF. Identify, queues and features. -/
namespace Sys2Proof.Machine

/-! ### What the woken chip shows -/

section
variable (d : Dev)

theorem wakeChip_rd {f : Fld} (hf : wakeChipFoot.testBit (32 + f.id) = false) (i j : Nat) : (wakeChip d).rd f i j = d.rd f i j :=
  rd_of_keep (keep_wakes d) hf i j

theorem wakeChip_cipher : (wakeChip d).cipher = d.cipher := cipher_of_keep (keep_wakes d) (by decide)

theorem wakeChip_power : (wakeChip d).power = d.power := power_of_keep (keep_wakes d) (by decide)

theorem wakeChip_ns? (nsid : Nat) : (wakeChip d).ns? nsid = d.ns? nsid := by rw [Dev.ns?, Dev.ns?, wakeChip_host]

theorem ctrlData_wakeChip (h : Nat) : ctrlData (wakeChip d) h = ctrlData d h := by
  have hsec (ty inst off n : Nat) := secField_of_struct (wakeChip_struct d) ty inst off n
  have hkpio : kpioAvailable (wakeChip d) = kpioAvailable d := by rw [kpioAvailable, kpioAvailable, wakeChip_cipher]
  have hmax : maxPower (wakeChip d) = maxPower d := by
    funext ps
    unfold maxPower
    rw [hsec, hsec]
  unfold ctrlData
  rw [hsec, hkpio, hmax]

theorem shownNss_wakeChip : shownNss (wakeChip d) = shownNss d := by rw [shownNss, shownNss, wakeChip_rd d (by decide), wakeChip_host]

theorem zoneSize_of_struct {d e : Dev} (h : e.struct = d.struct) (ns : Ns) : zoneSize e ns = zoneSize d ns := by
  simp only [zoneSize, fmtBandMib, secField_of_struct h]

theorem nsData_wakeChip (ns : Ns) : nsData (wakeChip d) ns = nsData d ns := by
  simp only [nsData, zoneCap, zoneSize_of_struct (wakeChip_struct d)]

theorem queuePairs_wakeChip (h : Nat) : queuePairs (wakeChip d) h = queuePairs d h := by
  rw [queuePairs, queuePairs, wakeChip_rd d (by decide), wakeChip_rd d (by decide)]

theorem localNs_here {nsid : Nat} {ns : Ns} (hnode : nsidNode nsid = 0) (hlt : nsid < 1024) (hns : d.ns? nsid = some ns) :
    localNs d nsid = some ns := by rw [localNs, if_pos ⟨hnode, hlt⟩, hns]

end

/-! ### Identify -/

theorem identify_ns {d : Dev} {h cid nsid : Nat} {ns : Ns} (hnode : nsidNode nsid = 0) (hlt : nsid < 1024) (hns : d.ns? nsid = some ns)
    (hloaded : d.rd F.glbStructStat_loaded ≠ 3) : identify h cid 0 nsid d = adminPage d h cid (nsData d ns) := by
  have hshown : (shownNss d).contains ns = true := by
    rw [shownNss, if_neg hloaded]
    simpa using List.mem_of_find?_eq_some hns
  have hfind : (localNs d nsid).filter (fun ns => (shownNss d).contains ns) = some ns := by
    rw [localNs_here d hnode hlt hns, Option.filter_some, if_pos hshown]
  unfold identify
  extract_lets mine all ofNs
  rw [if_neg (by simp [hnode])]
  show ofNs (nsData d) = _
  unfold ofNs
  rw [if_neg (by omega), hfind]

/-! ### Notices and completions leave the ports' other state -/

theorem Onward.tryComplete {b d : Dev} (hd : Onward b d) (id : Nat) : Onward b (tryComplete d id) := by
  have hdestage (e : Dev) (x : Extent) (p : Bool) (he : Onward b e) : Onward b (destageExtent e x p) :=
    he.of_hkeep (keep_destageExtent (ft := destageExtentFoot) (by decide) e x p) (by decide)
      (hkeep_destageExtent (ft := destageExtentHost) (by decide) e x p) (by decide)
  unfold Machine.tryComplete
  split
  · exact hd
  next x _ =>
    refine .ite (fun _ => hd) fun _ => .ite (fun _ => ?_) fun _ => ?_
    · exact .forEach (fun e x he => hdestage e x true he) (hd.updCtx id (by exact fun _ => rfl))
    · refine Onward.finish (.forEach (fun e x he => hdestage e x x.prio he) ?_) _ _ _
      split
      · exact hd.emit _
      · exact hd

theorem Onward.updPort {b d : Dev} (hd : Onward b d) (h : Nat) (g : Port → Port) : Onward b (d.updPort h g) := hd.of' rfl rfl

theorem Onward.postNotice {b d : Dev} (hd : Onward b d) (h notice : Nat) : Onward b (postNotice d h notice) := by
  unfold Machine.postNotice
  split
  · exact (((hd.updPort _ _).emit _).emit _).syncHost
  · exact hd.updPort _ _

theorem Onward.checkThresholds {b d : Dev} (hd : Onward b d) : Onward b (checkThresholds d) := by
  refine .forEach (fun e h he => ?_) hd
  split
  · split
    · exact he
    · exact Onward.postNotice (.of' he (by rfl) (by rfl)) h ntTemp
  · exact he.of' rfl rfl

theorem postNotice_thresholds (d : Dev) (k notice h : Nat) : ((postNotice d k notice).port h).thresholds = (d.port h).thresholds := by
  unfold postNotice
  split
  next cid rest _ =>
    rw [port_of_ports (congrArg _ (syncHost_host _))]
    exact port_updPort_of (p := Port.thresholds) (g := fun p => { p with aers := rest, adminUsed := p.adminUsed - 1 }) (by exact fun _ => rfl) d k h
  · exact port_updPort_of (p := Port.thresholds) (by exact fun _ => rfl) d k h

theorem checkThresholds_thresholds (d : Dev) (h : Nat) : ((checkThresholds d).port h).thresholds = (d.port h).thresholds := by
  refine forEach_keeps (p := fun e => (e.port h).thresholds) (fun e k _ => ?_) d
  show ((if thresholdCrossed e k then _ else _ : Dev).port h).thresholds = _
  split
  · split
    · rfl
    · rw [postNotice_thresholds]
      rfl
  · rfl

/-! ### Features -/

theorem setThreshold_sets {d : Dev} {h : HstId} {cid sensor kelvin : Nat} {under : Bool} (hsensor : sensor ≤ 7) (hkelvin : kelvin ≤ 65535) :
    ((setThreshold h.val cid sensor under kelvin d).port h.val).thresholds.find? (fun t => t.1 == 2 * sensor + under.toNat) =
        some (2 * sensor + under.toNat, kelvin) ∧
      Reported (.cqe h.val 0 cid 0 0) (setThreshold h.val cid sensor under kelvin d) := by
  unfold setThreshold
  rw [if_neg (by omega)]
  extract_lets key
  refine ⟨?_, ((Onward.refl _).checkThresholds).reported (reported_emit _ _)⟩
  have hgone (l : List (Nat × Nat)) : (l.filter fun t => t.1 != key).find? (fun t => t.1 == key) = none := by
    rw [List.find?_eq_none]
    intro t ht
    simpa using (List.mem_filter.1 ht).2
  rw [checkThresholds_thresholds]
  have hport : ((adminEnd (d.updPort h.val fun p => { p with thresholds := p.thresholds.filter (fun t => t.1 != key) ++ [(key, kelvin)] })
      h.val cid 0 0).port h.val).thresholds = (d.port h.val).thresholds.filter (fun t => t.1 != key) ++ [(key, kelvin)] := by
    refine Eq.trans (congrArg Port.thresholds (?_ : _ = (d.updPort h.val fun p => { p with
      thresholds := p.thresholds.filter (fun t => t.1 != key) ++ [(key, kelvin)] }).port h.val)) ?_
    · rfl
    · rw [Dev.updPort_port, if_pos rfl]
  rw [hport, List.find?_append, hgone]
  simp [key]

theorem setCache_sets (d : Dev) (h : HstId) (cid : Nat) (enable : Bool) : ((setCache h.val cid enable d).port h.val).vwc = enable ∧
    Reported (.cqe h.val 0 cid 0 0) (setCache h.val cid enable d) := by
  unfold setCache
  extract_lets d1
  have hport : (d1.port h.val).vwc = enable := by
    show ((d.updPort h.val fun p => { p with vwc := enable }).port h.val).vwc = enable
    rw [Dev.updPort_port, if_pos rfl]
  have hsaid : Reported (.cqe h.val 0 cid 0 0) d1 := reported_emit _ _
  split
  · refine ⟨?_, (Onward.forEach (fun e id he => he.tryComplete id) (.refl d1)).reported hsaid⟩
    rw [port_of_ports (ports_of_hkeep (hkeep_forEach (m := tryCompleteHost) d1 _ _ fun e id => hkeep_tryComplete (by decide) e id) (by decide)), hport]
  · exact ⟨hport, hsaid⟩

theorem setPowerState_sets (d : Dev) {ps : Nat} (hps : ps ≤ 4) : (setPowerState d ps).rd F.pwrPs_ps = ps ∧
    (setPowerState d ps).power.lastPs = (if ps < 3 then ps else d.power.lastPs) ∧ (setPowerState d ps).out = d.out := by
  unfold setPowerState
  extract_lets d1 d2
  have hlimits := keep_applyLimits (ft := applyLimitsFoot) (by decide) d2
  have hps2 : d2.rd F.pwrPs_ps = ps := Dev.rd_wr_lt d F.pwrPs_ps ps 0 0 (Nat.lt_of_le_of_lt hps (by decide))
  have hout : d2.out = d.out := rfl
  have hlast : d2.power.lastPs = if ps < 3 then ps else d.power.lastPs := by
    show (if ps < 3 then { d.power with lastPs := ps, cut := 0, belowFor := 0 } else d.power).lastPs = _
    split <;> rfl
  clear_value d2
  exact ⟨by rw [rd_of_keep hlimits (by decide), hps2], by rw [power_of_keep hlimits (by decide), hlast], by rw [out_of_keep hlimits (by decide), hout]⟩

theorem tabGet_putAll (l : List Nat) (t : List (Nat × Nat)) (v n : Nat) :
    tabGet 0 (l.foldl (fun t n => tabPut 0 t n v) t) n = if n ∈ l then v else tabGet 0 t n := by
  induction l generalizing t with
  | nil => simp
  | cons k l ih =>
    rw [List.foldl_cons, ih, tabGet_tabPut]
    by_cases hk : n = k
    · simp [hk]
    · simp [hk]

theorem setCurve_sets {d : Dev} {h cid mask curve : Nat} {save : Bool} (hmask : mask < 16)
    (hpresent : (((List.range 4).filter fun n => mask.testBit n).all d.hdaPresent) = true)
    (hcurve : curve = 0 ∨ curve < 8 ∧ (d.section 14 curve).isSome = true) :
    (∀ n, n < 4 → tabGet 0 (setCurve h cid mask curve save d).host.curves n = (if mask.testBit n then curve else tabGet 0 d.host.curves n) ∧
        tabGet 0 (setCurve h cid mask curve save d).host.curvesSaved n = if save && mask.testBit n then curve else tabGet 0 d.host.curvesSaved n) ∧
      (setCurve h cid mask curve save d).out = .cqe h 0 cid 0 0 :: d.out := by
  unfold setCurve
  extract_lets named put
  have hok : ¬(16 ≤ mask ∨ (!named.all d.hdaPresent) = true ∨ (curve ≠ 0 ∧ (8 ≤ curve ∨ (d.section 14 curve).isNone = true))) := by
    rintro (hbig | habsent | ⟨hne, hbad⟩)
    · omega
    · rw [show named.all d.hdaPresent = true from hpresent] at habsent
      simp at habsent
    · rcases hcurve with hzero | ⟨hlt, hsome⟩
      · exact hne hzero
      · rcases hbad with hbig | hnone
        · omega
        · cases hsec : d.section 14 curve <;> simp [hsec] at hsome hnone
  rw [if_neg hok]
  have hput (t : List (Nat × Nat)) (n : Nat) (hn : n < 4) : tabGet 0 (put t) n = if mask.testBit n then curve else tabGet 0 t n := by
    have hmem : n ∈ named ↔ mask.testBit n = true := by simp [named, hn]
    unfold put
    rw [tabGet_putAll]
    simp only [hmem]
  refine ⟨fun n hn => ⟨hput _ n hn, ?_⟩, rfl⟩
  show tabGet 0 (if save then put d.host.curvesSaved else d.host.curvesSaved) n = _
  cases save with
  | false => simp
  | true => simpa using hput _ n hn

theorem eventRequest_waits {d : Dev} {h : HstId} (cid : Nat) (hnone : (d.port h.val).notices = []) :
    ((eventRequest h.val cid d).port h.val).aers = (d.port h.val).aers ++ [cid] ∧
      ((eventRequest h.val cid d).port h.val).adminUsed = (d.port h.val).adminUsed + 1 ∧ (eventRequest h.val cid d).out = d.out := by
  have hport : (holdAdmin (d.updPort h.val fun p => { p with aers := p.aers ++ [cid] }) h.val).port h.val =
      { d.port h.val with aers := (d.port h.val).aers ++ [cid], adminUsed := (d.port h.val).adminUsed + 1 } := by
    rw [holdAdmin, port_of_ports (congrArg _ (syncHost_host _)), Dev.updPort_port, if_pos rfl, Dev.updPort_port, if_pos rfl]
  have hout : (holdAdmin (d.updPort h.val fun p => { p with aers := p.aers ++ [cid] }) h.val).out = d.out := syncHost_out _
  unfold eventRequest
  extract_lets d1
  rw [show d1.port h.val = _ from hport, hnone]
  exact ⟨congrArg Port.aers hport, congrArg Port.adminUsed hport, hout⟩

theorem ns?_updNs {d : Dev} {nsid : Nat} {ns : Ns} {g : Ns → Ns} (hg : ∀ x, (g x).nsid = x.nsid) (h : d.ns? nsid = some ns) :
    (d.updNs nsid g).ns? nsid = some (g ns) := by
  have hnsid : ns.nsid = nsid := by simpa using List.find?_some (p := fun x : Ns => x.nsid == nsid) h
  have hcomp : (fun y : Ns => y.nsid == nsid) ∘ (fun y => if y.nsid == nsid then g y else y) = fun y => y.nsid == nsid := by
    funext y
    simp only [Function.comp_apply]
    split
    · rw [hg]
    · rfl
  show (listMapIf (fun c => c.nsid == nsid) g d.host.nss).find? _ = _
  rw [listMapIf, List.find?_map, hcomp, show d.host.nss.find? (fun y => y.nsid == nsid) = some ns from h, Option.map_some, if_pos (by simpa using hnsid)]

theorem dirtyAll_of_host {d e : Dev} (h : e.host = d.host) : dirtyAll e = dirtyAll d := by
  unfold dirtyAll dirtyOf copiesOf journalOf
  rw [h]

/-- Settles O34: a lemma per row, on the woken chip. -/
theorem adminRowsComplete : Obligations.AdminRowsComplete := by
  unfold Obligations.AdminRowsComplete
  refine ⟨?identify, ?queues, ?cq, ?sq, ?cache, ?power, ?threshold, ?setLatency, ?getLatency, ?setCurve, ?gets, ?bound, ?event⟩
  case identify =>
    intro s h cid nsid hruns
    refine ⟨?_, ?_, fun ns hnode hlt hns hloaded => ?_⟩
    · refine gives_of_run (execIdentify.eq_def h cid 1 nsid s) ?_
      rw [adminDo_runs cid _ hruns, ← ctrlData_wakeChip]
      rfl
    · refine gives_of_run (execIdentify.eq_def h cid 2 nsid s) ?_
      rw [adminDo_runs cid _ hruns, ← shownNss_wakeChip]
      rfl
    · refine gives_of_run (execIdentify.eq_def h cid 0 nsid s) ?_
      rw [adminDo_runs cid _ hruns, identify_ns hnode hlt ((wakeChip_ns? _ _).trans hns) (by rwa [wakeChip_rd _ (by decide)]), nsData_wakeChip]
  case queues =>
    intro s h cid a b q hruns hq
    refine gives_of_run (execSetFeaturesNumberOfQueues.eq_def h cid a b s) ?_
    rw [adminDo_runs cid _ hruns, setQueues, queuePairs_wakeChip, hq]
    rfl
  case cq =>
    intro s h cid qid entries prio hruns h1 hq h2 hmost hnew
    refine gives_of_run (execCreateIoQueue.eq_def h cid false qid entries true prio s) ?_
    rw [adminDo_runs cid _ hruns]
    unfold createQueue
    simp only [queuePairs_wakeChip, wakeChip_port]
    rw [if_neg (by simp [hnew]; omega), if_neg (by omega)]
    rfl
  case sq =>
    intro s h cid qid entries prio hruns h1 hq h2 hmost hcq hnew
    refine gives_of_run (execCreateIoQueue.eq_def h cid true qid entries true prio s) ?_
    rw [adminDo_runs cid _ hruns]
    unfold createQueue
    simp only [queuePairs_wakeChip, wakeChip_port]
    rw [if_neg (by simp [hnew]; omega), if_neg (by omega), if_neg (by decide), if_neg (by rw [hcq]; decide)]
    rfl
  case cache =>
    intro s h cid enable hruns
    refine brings_of_run (execSetFeaturesVolatileWriteCache.eq_def h cid enable s) ?_
    rw [adminDo_runs cid _ hruns]
    exact setCache_sets _ h cid enable
  case power =>
    intro s h cid ps w hruns hps
    refine brings_of_run (execSetFeaturesPowerState.eq_def h cid ps w s) ?_
    rw [adminDo_runs cid _ hruns, setPs, if_neg (by omega)]
    obtain ⟨h1, h2, h3⟩ := setPowerState_sets (wakeChip s.dev) hps
    rw [wakeChip_power] at h2
    rw [wakeChip_out] at h3
    generalize setPowerState (wakeChip s.dev) ps = e at *
    exact ⟨h1, h2, congrArg (List.cons _) h3⟩
  case threshold =>
    intro s h cid sensor kelvin under hruns hsensor hkelvin
    refine brings_of_run (execSetFeaturesTemperatureThreshold.eq_def h cid sensor under kelvin s) ?_
    rw [adminDo_runs cid _ hruns]
    exact setThreshold_sets hsensor hkelvin
  case setLatency =>
    intro s h cid nsid us save ns hruns hus hnode hlt hns
    refine brings_of_run (execSetFeaturesTolerableLatency.eq_def h cid nsid ⟨us, save⟩ s) ?_
    have hns' := (wakeChip_ns? s.dev nsid).trans hns
    rw [adminDo_runs cid _ hruns, setLatency, if_neg (Nat.not_lt.2 hus), if_neg (by omega), if_neg (by simp [hnode]), localNs_here _ hnode hlt hns']
    have hout := wakeChip_out s.dev
    have hset := ns?_updNs (g := setLat us save) (by exact fun _ => rfl) hns'
    generalize wakeChip s.dev = w at *
    exact ⟨hset, congrArg (List.cons _) hout⟩
  case getLatency =>
    intro s h cid nsid ns hruns hnode hlt hns
    refine gives_of_run (execGetFeaturesTolerableLatency.eq_def h cid nsid s) ?_
    rw [adminDo_runs cid _ hruns, getLatency, if_neg (by simp [hnode]), localNs_here _ hnode hlt ((wakeChip_ns? _ _).trans hns)]
    rfl
  case setCurve =>
    intro s h cid mask curve save hruns hmask hpresent hcurve
    refine brings_of_run (execSetFeaturesSpindleCurve.eq_def h cid mask ⟨curve, save⟩ s) ?_
    rw [adminDo_runs cid _ hruns]
    have hsec := section_of_struct (wakeChip_struct s.dev) 14 curve
    have hhda : (wakeChip s.dev).hdaPresent = s.dev.hdaPresent := funext fun n => hdaPresent_of_struct (wakeChip_struct s.dev) n
    have hsets := setCurve_sets (d := wakeChip s.dev) (h := h.val) (cid := cid) (save := save) hmask (by rwa [hhda]) (by rwa [hsec])
    rw [wakeChip_host, wakeChip_out] at hsets
    exact hsets
  case gets =>
    intro s h cid hruns
    refine ⟨?_, ?_⟩
    · refine gives_of_run (execGetFeaturesSpindleCurve.eq_def h cid s) ?_
      rw [adminDo_runs cid _ hruns, getCurve, wakeChip_host]
      simp [adminEnd, List.range_succ, Nat.add_assoc]
    · refine gives_of_run (execGetFeaturesDirtyBound.eq_def h cid s) ?_
      rw [adminDo_runs cid _ hruns, getBound, dirtyAll_of_host (wakeChip_host _), boundAll, wakeChip_rd _ (by decide)]
      rfl
  case bound =>
    intro s h cid hruns
    refine gives_of_run (execSetFeaturesDirtyBound.eq_def h cid s) ?_
    rw [adminDo_runs cid _ hruns]
    rfl
  case event =>
    intro s h cid hruns hnone
    refine brings_of_run (execAsynchronousEventRequest.eq_def h cid s) ?_
    rw [adminDo_runs cid _ hruns]
    have hwaits := eventRequest_waits (d := wakeChip s.dev) cid ((congrArg Port.notices (wakeChip_port _ _)).trans hnone)
    rw [wakeChip_port, wakeChip_out] at hwaits
    exact hwaits

end Sys2Proof.Machine
end

section
/-! PROOF. Host state that key slots keep. -/
namespace Sys2Proof.Machine

theorem hkeep_newKey {ft : Nat} (d : Dev) (i kind kekSel nsid : Nat) : hkeep ft (newKey d i kind kekSel nsid) = hkeep ft d :=
  hkeep_of_keep (keep_newKey (ft := newKeyFoot) (by decide) d i kind kekSel nsid) (by decide) ft

theorem hkeep_setSlot {ft : Nat} (d : Dev) (i : Nat) (k : KeySlot) : hkeep ft (d.setSlot i k) = hkeep ft d :=
  hkeep_of_keep (keep_setSlot (ft := setSlotFoot) (by decide) d i k) (by decide) ft

theorem hkeep_vacate {ft : Nat} (hft : inFoot updExtentsHost ft = true) (d : Dev) (e : Nat) : hkeep ft (vacate d e) = hkeep ft d
    :=
  hkeep_mono hft (by unfold vacate; split <;> simp +decide only [↓hkeep_updExtents, ↓hkeep_updCipher, ↓hkeep_setSlot])

theorem hkeep_persistKey {ft : Nat} (hft : inFoot updExtentsHost ft = true) (d : Dev) (i kind kekSel nsid : Nat) : hkeep ft
    (persistKey d i kind kekSel nsid) = hkeep ft d :=
  hkeep_mono hft (by simp +decide only [persistKey, ↓hkeep_updCipher, ↓hkeep_newKey, ↓hkeep_vacate])

theorem hkeep_nsKeys {ft : Nat} (hft : inFoot updExtentsHost ft = true) (d : Dev) (ns : Ns) : hkeep ft (nsKeys d ns) = hkeep ft
    d :=
  hkeep_mono hft (by simp +decide only [nsKeys, ↓hkeep_updCipher, ↓hkeep_persistKey, ↓hkeep_ite, ite_self])

theorem hkeep_emptySlot {ft : Nat} (d : Dev) (i : Nat) : hkeep ft (emptySlot d i) = hkeep ft d :=
  hkeep_of_keep (keep_emptySlot (ft := emptySlotFoot) (by decide) d i) (by decide) ft

theorem hkeep_syncLevel {ft : Nat} (d : Dev) : hkeep ft (syncLevel d) = hkeep ft d :=
  hkeep_of_keep (keep_syncLevel (ft := syncLevelFoot) (by decide) d) (by decide) ft

end Sys2Proof.Machine
end

section
/-! PROOF. Log pages and namespaces. -/
namespace Sys2Proof.Machine

/-! ### What a create checks depends on a part of the device only -/

section
variable {d e : Dev} (hstruct : e.struct = d.struct)
include hstruct

theorem parityOf_of_struct (c : NsCreate) : parityOf e c = parityOf d c := by
  have hfmt (n : Nat) : fmtParity e n = fmtParity d n := secField_of_struct hstruct 5 n 5 1
  simp only [parityOf, pipeOf_of_struct hstruct, hfmt]

theorem createInvalid_of_struct (c : NsCreate) (z : Nat) : createInvalid e c z = createInvalid d c z := by
  have hpresent : e.actPresent = d.actPresent := funext fun a => actPresent_of_struct hstruct a
  have hband (n : Nat) : fmtBandMib e n = fmtBandMib d n := secField_of_struct hstruct 5 n 6 2
  have hwedge (n : Nat) : fmtWedges e n = fmtWedges d n := secField_of_struct hstruct 5 n 0 2
  simp only [createInvalid, pipeOf_of_struct hstruct, hpresent, hband, hwedge]

theorem usedPorts_of_struct : usedPorts e = usedPorts d := by
  have hused : hostUsed e = hostUsed d := funext fun h => by rw [hostUsed, hostUsed, secField_of_struct hstruct]
  rw [usedPorts, usedPorts, hused]

theorem nsMode_of_struct : nsMode e = nsMode d := by simp only [nsMode, usedPorts_of_struct hstruct, secField_of_struct hstruct]

theorem ctrlListOk_of_struct (l : List Nat) : ctrlListOk e l = ctrlListOk d l := by
  simp only [ctrlListOk, usedPorts_of_struct hstruct, nsMode_of_struct hstruct]

end

/-! ### Create -/

theorem nsCreate_creates {d : Dev} {h cid n : Nat} {c : NsCreate} {draft : Ns} {zs : List Zone}
    (hdraft : draft = { nsid := 0, zoned := c.zoned, nsze := c.nsze, cls := c.cls, parity := parityOf d c, actMask := c.actMask, kpio := c.kpio })
    (hvalid : createInvalid d c (zoneSize d draft) = false) (hfree : freeNsid d = some n) (hbands : bandsFor d draft = some zs)
    (hkeys : keysPossible d = true) :
    (nsCreate h cid c d).host.nss = d.host.nss ++ [{ draft with nsid := n, zones := zs, mapBase := mapBaseFor d }] ∧
      (nsCreate h cid c d).out.head? = some (.cqe h 0 cid 0 n) := by
  have hnss (ns : Ns) : (nsKeys (d.updHost fun s => { s with nss := s.nss ++ [ns] }) ns).host.nss = d.host.nss ++ [ns] :=
    (nss_of_hkeep (hkeep_nsKeys (ft := updExtentsHost) (by decide) _ ns) (by decide)).trans rfl
  subst hdraft
  unfold nsCreate
  extract_lets draft needs
  rw [if_neg (by rw [show createInvalid d c (zoneSize d draft) = false from hvalid]; decide), hfree, show bandsFor d draft = some zs from hbands]
  dsimp only
  rw [if_neg (by simp [hkeys])]
  exact ⟨hnss _, rfl⟩

/-! ### Delete -/

theorem nsGone_gone (d : Dev) (n : Nat) : (∀ x ∈ (nsGone d n).host.nss, x.nsid ≠ n) ∧ (∀ e ∈ (nsGone d n).host.extents, e.nsid ≠ n) ∧
    ∀ e ∈ (nsGone d n).host.detention, e.nsid ≠ n := by
  unfold nsGone
  extract_lets d1 d2 d3 slots d4 d5
  have h4 : hkeep 0 d4 = hkeep 0 d3 := hkeep_forEach d3 _ _ fun e i => hkeep_emptySlot e i
  have h5 : d5.host = d4.host := Dev.updCipher_host d4 _
  have hnss : d3.host.nss = d1.host.nss.filter fun x => x.nsid != n := rfl
  have hextents : d3.host.extents = d1.host.extents.filter fun e => e.nsid != n := rfl
  have hdetention : d3.host.detention = d1.host.detention.filter fun e => e.nsid != n := rfl
  rw [syncHost_host, h5, nss_of_hkeep h4 (by decide), extents_of_hkeep h4 (by decide), detention_of_hkeep h4 (by decide),
    hnss, hextents, hdetention]
  clear_value d1
  refine ⟨fun x hx => ?_, fun x hx => ?_, fun x hx => ?_⟩
  all_goals exact ne_of_beq_false (Bool.not_eq_true' _ ▸ (List.mem_filter.1 hx).2)

/-- Settles O35: a lemma per row, on the woken chip. -/
theorem logAndNamespaceRowsComplete : Obligations.LogAndNamespaceRowsComplete := by
  unfold Obligations.LogAndNamespaceRowsComplete
  refine ⟨?logs, ?create, ?delete, ?attach⟩
  case logs =>
    intro s h cid lsp lsi offset nsid ns hruns
    refine ⟨fun hdir => ?_, fun hdir hoff => ?_, ?_, fun hnode hlt hns => ?_, ?_, ?_, ?_⟩
    · refine gives_of_run (execGetLogReportCard.eq_def h cid lsp lsi offset s) ?_
      rw [adminDo_runs cid _ hruns, logCard, if_pos hdir]
    · refine gives_of_run (execGetLogReportCard.eq_def h cid lsp lsi offset s) ?_
      rw [adminDo_runs cid _ hruns, logCard, if_neg (by rw [hdir]; decide), if_neg (Nat.not_le.2 hoff)]
    · refine gives_of_run (execGetLogChainTopology.eq_def h cid s) ?_
      rw [adminDo_runs cid _ hruns]
    · refine gives_of_run (execGetLogDetention.eq_def h cid nsid s) ?_
      rw [adminDo_runs cid _ hruns, logDetention, localNs_here _ hnode hlt ((wakeChip_ns? _ _).trans hns), wakeChip_host]
    · refine gives_of_run (execGetLogHeadHealth.eq_def h cid s) ?_
      rw [adminDo_runs cid _ hruns, (health_of_keep (keep_wakes s.dev) (by decide)).2]
    · refine gives_of_run (execGetLogTelemetry.eq_def h cid s) ?_
      rw [adminDo_runs cid _ hruns]
    · refine gives_of_run (execGetLogSmartHealth.eq_def h cid s) ?_
      rw [adminDo_runs cid _ hruns]
  case create =>
    intro s h cid n c draft zs hruns hdraft hvalid hfree hbands hkeys
    refine brings_of_run (execNamespaceManagementCreate.eq_def h cid c s) ?_
    have hstruct := wakeChip_struct s.dev
    have hns? : (wakeChip s.dev).ns? = s.dev.ns? := funext (wakeChip_ns? s.dev)
    have hcreates := nsCreate_creates (d := wakeChip s.dev) (h := h.val) (cid := cid) (n := n) (c := c) (draft := draft) (zs := zs)
      (by rw [parityOf_of_struct hstruct, hdraft]) (by rw [createInvalid_of_struct hstruct, zoneSize_of_struct hstruct]; exact hvalid)
      (by rw [freeNsid, hns?, ← freeNsid, hfree]) hbands hkeys
    rw [adminDo_runs cid _ hruns]
    rw [wakeChip_host, mapBaseFor, wakeChip_host] at hcreates
    exact hcreates
  case delete =>
    intro s h cid nsid ns hruns hnode hlt hns
    refine brings_of_run (execNamespaceManagementDelete.eq_def h cid nsid s) ?_
    rw [adminDo_runs cid _ hruns, nsDelete, if_neg (by omega), localNs_here _ hnode hlt ((wakeChip_ns? _ _).trans hns)]
    obtain ⟨h1, h2, h3⟩ := nsGone_gone (wakeChip s.dev) nsid
    generalize nsGone (wakeChip s.dev) nsid = e at *
    exact ⟨h1, h2, h3, rfl⟩
  case attach =>
    intro s h cid nsid ns ctrls hruns hnode hlt hns hok
    have hns' := (wakeChip_ns? s.dev nsid).trans hns
    have hok' := (ctrlListOk_of_struct (wakeChip_struct s.dev) ctrls).trans hok
    have hmode := nsMode_of_struct (wakeChip_struct s.dev)
    have hout := wakeChip_out s.dev
    refine ⟨fun hnew hfree => ?_, fun hold => ?_⟩
    · refine brings_of_run (execNamespaceAttachment.eq_def h cid nsid true ctrls s) ?_
      rw [adminDo_runs cid _ hruns]
      have hset := ns?_updNs (g := fun ns => { ns with ctrls := ns.ctrls ++ ctrls.eraseDups }) (by exact fun _ => rfl) hns'
      have hpriv : ¬(nsMode (wakeChip s.dev) = 1 ∧ ns.ctrls ≠ []) := fun hp => hp.2 (hfree (hmode ▸ hp.1))
      generalize wakeChip s.dev = w at *
      rw [nsAttach, localNs_here _ hnode hlt hns']
      simp only [hok', hnew]
      rw [if_neg (by decide), if_pos trivial, if_neg (by decide), if_neg hpriv]
      exact ⟨hset, congrArg (List.cons _) hout⟩
    · refine brings_of_run (execNamespaceAttachment.eq_def h cid nsid false ctrls s) ?_
      rw [adminDo_runs cid _ hruns]
      have hset := ns?_updNs (g := fun ns => { ns with ctrls := ns.ctrls.filter fun c => !ctrls.contains c }) (by exact fun _ => rfl) hns'
      generalize wakeChip s.dev = w at *
      rw [nsAttach, localNs_here _ hnode hlt hns']
      simp only [hok', hold]
      rw [if_neg (by decide), if_neg (by decide), if_neg (by decide)]
      exact ⟨hset, congrArg (List.cons _) hout⟩

end Sys2Proof.Machine
end

section
/-! PROOF. Map-cache groups and scratch windows. -/
namespace Sys2Proof.Machine

/-- The one step that turns `Q` into `P`, with both kept by the other steps. -/
theorem forEach_turns {α : Type} {P Q : Dev → Prop} {l : List α} {g : Dev → α → Dev} {i : α} (hl : l.Nodup) (hi : i ∈ l)
    (hQ : ∀ e, ∀ x ∈ l, x ≠ i → Q e → Q (g e x)) (hself : ∀ e, Q e → P (g e i)) (hP : ∀ e, ∀ x ∈ l, x ≠ i → P e → P (g e x)) {d : Dev}
    (hd : Q d) : P (forEach l d g) := by
  induction l generalizing d with
  | nil => cases hi
  | cons x l ih =>
    obtain ⟨hx, hl⟩ := List.nodup_cons.1 hl
    have hPl : ∀ e, ∀ y ∈ l, y ≠ i → P e → P (g e y) := fun e y hy => hP e y (by simp [hy])
    by_cases hxi : x = i
    · subst hxi
      exact forEach_inv (fun e y hy => hPl e y hy fun h => hx (h ▸ hy)) (hself d hd)
    · exact ih hl (by simpa [Ne.symm hxi] using hi) (fun e y hy => hQ e y (by simp [hy])) hPl (hQ d x (by simp) hxi hd)

/-! ### One group's transition -/

/-- The group marked as on its way to what it is asked to be, or as arrived. -/
def markGroup (b : Bool) (g t : Nat) (d : Dev) : Dev :=
  (d.setBit F.mapGrpStat_busy g b).updMap fun m => { m with moving := (m.moving.filter fun x => x.1 != g) ++ if b then [(g, t)] else [] }

theorem retarget_eq (d : Dev) (g : Nat) : retarget d g =
    if groupTarget d g = groupNow d g then if d.bit F.mapGrpStat_busy g then markGroup false g (groupTarget d g) d else d
    else markGroup true g (groupTarget d g) (d.setBit F.mapGrpStat_is_scratch g false) := rfl

theorem markGroup_marks {g : Nat} (hg : g < 8) (t : Nat) (d : Dev) :
    (markGroup true g t d).bit F.mapGrpStat_busy g = true ∧ (g, t) ∈ (markGroup true g t d).map.moving :=
  ⟨Dev.bit_setBit_same d F.mapGrpStat_busy g true 0 0 hg, List.mem_append_right _ (List.mem_singleton_self _)⟩

theorem markGroup_scratch (b : Bool) (k t : Nat) (d : Dev) (g : Nat) :
    (markGroup b k t d).bit F.mapGrpStat_is_scratch g = d.bit F.mapGrpStat_is_scratch g :=
  Dev.bit_setBit_ne d F.mapGrpStat_busy F.mapGrpStat_is_scratch k b 0 0 g 0 0 (by decide)

/-- What the step of group `k` leaves of group `g`. -/
structure SameGroup (g : Nat) (d e : Dev) : Prop where
  busy : e.bit F.mapGrpStat_busy g = d.bit F.mapGrpStat_busy g
  scratch : e.bit F.mapGrpStat_is_scratch g = d.bit F.mapGrpStat_is_scratch g
  moving : ∀ t, (g, t) ∈ d.map.moving → (g, t) ∈ e.map.moving

theorem sameGroup_markGroup {g k : Nat} (hg : g < 8) (hk : k ≠ g) (b : Bool) (t : Nat) (d : Dev) : SameGroup g d (markGroup b k t d) where
  busy := Dev.bit_setBit_other d F.mapGrpStat_busy b 0 0 0 0 hg hk.symm
  scratch := markGroup_scratch b k t d g
  moving _ hin := List.mem_append_left _ (List.mem_filter.2 ⟨hin, by simpa using hk.symm⟩)

theorem sameGroup_retarget {g k : Nat} (hg : g < 8) (hk : k ≠ g) (d : Dev) : SameGroup g d (retarget d k) := by
  rw [retarget_eq]
  split
  · split
    · exact sameGroup_markGroup hg hk false _ d
    · exact ⟨rfl, rfl, fun _ h => h⟩
  · obtain ⟨hbusy, hscratch, hmoving⟩ := sameGroup_markGroup hg hk true (groupTarget d k) (d.setBit F.mapGrpStat_is_scratch k false)
    exact ⟨hbusy.trans (Dev.bit_setBit_ne d _ _ _ _ _ _ _ _ _ (by decide)),
      hscratch.trans (Dev.bit_setBit_other d F.mapGrpStat_is_scratch false 0 0 0 0 hg hk.symm), hmoving⟩

theorem retarget_moves {d : Dev} {g : Nat} (hg : g < 8) (h : groupTarget d g ≠ groupNow d g) :
    (retarget d g).bit F.mapGrpStat_busy g = true ∧ (g, groupTarget d g) ∈ (retarget d g).map.moving := by
  rw [retarget_eq, if_neg h]
  exact markGroup_marks hg _ _

theorem retarget_leaves_scratch {d : Dev} {g : Nat} (hg : g < 8) (htarget : groupTarget d g ≠ 2) (hdown : d.bit F.mapGrpStat_down g = false) :
    (retarget d g).bit F.mapGrpStat_is_scratch g = false := by
  rw [retarget_eq]
  split
  next hsame =>
    have hnow : d.bit F.mapGrpStat_is_scratch g = false := by
      by_contra hs
      exact htarget (by rw [hsame, groupNow, hdown, if_neg (by decide), if_pos (by simpa using hs)])
    split
    · exact (markGroup_scratch false g _ d g).trans hnow
    · exact hnow
  next => exact (markGroup_scratch true g _ _ g).trans (Dev.bit_setBit_same d F.mapGrpStat_is_scratch g false 0 0 hg)

/-! ### Writing the group controls -/

/-- The device whose groups `writeGroups` sets on their way. -/
def groupsAsked (down scratch : Nat) (d : Dev) : Dev := (d.wr F.mapGrpCtl_pwr_down down).wr F.mapGrpCtl_scratch scratch

/-- What the way of group `g` turns on: what it is asked to be, and what it is. -/
def groupView (d : Dev) (g : Nat) : Nat × Bool × Nat := (groupTarget d g, d.bit F.mapGrpStat_down g, groupNow d g)

theorem groupView_retarget {g k : Nat} (hg : g < 8) (hk : k ≠ g) (d : Dev) : groupView (retarget d k) g = groupView d g := by
  have hkeep := keep_retarget (ft := retargetFoot) (by decide) d k
  have hbit (f : Fld) (hf : retargetFoot.testBit (32 + f.id) = false) : (retarget d k).bit f g = d.bit f g := by
    rw [Dev.bit, rd_of_keep hkeep hf, Dev.bit]
  simp only [groupView, groupTarget, groupNow, hbit _ (show retargetFoot.testBit (32 + F.mapGrpCtl_pwr_down.id) = false by decide),
    hbit _ (show retargetFoot.testBit (32 + F.mapGrpCtl_scratch.id) = false by decide),
    hbit _ (show retargetFoot.testBit (32 + F.mapGrpStat_down.id) = false by decide), (sameGroup_retarget hg hk d).scratch]

theorem bit_asked {down scratch : Nat} {d : Dev} {f : Fld} (hf : F.mapGrpCtl_pwr_down.id ≠ f.id ∧ F.mapGrpCtl_scratch.id ≠ f.id) {b : Nat} :
    (groupsAsked down scratch d).bit f b = d.bit f b :=
  (Dev.bit_wr_ne _ _ _ _ _ _ _ _ _ hf.2).trans (Dev.bit_wr_ne _ _ _ _ _ _ _ _ _ hf.1)

section
variable {down scratch : Nat} {d : Dev} (hfew : ((List.range 8).filter fun k => scratch.testBit k).length ≤ 4)
include hfew

theorem writeGroups_asks : writeGroups down scratch d = forEach (List.range 8) (groupsAsked down scratch d) retarget := by
  rw [writeGroups, if_neg (Nat.not_lt.2 hfew), groupsAsked]

theorem writeGroups_down : (writeGroups down scratch d).rd F.mapGrpCtl_pwr_down = down % 2 ^ F.mapGrpCtl_pwr_down.w := by
  rw [writeGroups_asks hfew]
  refine (rd_of_keep (keep_forEach (m := retargetFoot) _ _ _ fun e k => keep_retarget (by decide) e k) (by decide) 0 0).trans ?_
  rw [groupsAsked, Dev.rd_wr_ne _ _ _ _ _ _ _ _ (by decide), Dev.rd_wr_same]

theorem writeGroups_scratch : (writeGroups down scratch d).rd F.mapGrpCtl_scratch = scratch % 2 ^ F.mapGrpCtl_scratch.w := by
  rw [writeGroups_asks hfew]
  refine (rd_of_keep (keep_forEach (m := retargetFoot) _ _ _ fun e k => keep_retarget (by decide) e k) (by decide) 0 0).trans ?_
  rw [groupsAsked, Dev.rd_wr_same]

theorem writeGroups_moves {g : Nat} (hg : g < 8) (h : groupTarget (groupsAsked down scratch d) g ≠ groupNow (groupsAsked down scratch d) g) :
    (writeGroups down scratch d).bit F.mapGrpStat_busy g = true ∧
      (g, groupTarget (groupsAsked down scratch d) g) ∈ (writeGroups down scratch d).map.moving := by
  rw [writeGroups_asks hfew]
  refine forEach_turns (i := g) (Q := fun e => groupView e g = groupView (groupsAsked down scratch d) g)
    (P := fun e => e.bit F.mapGrpStat_busy g = true ∧ (g, groupTarget (groupsAsked down scratch d) g) ∈ e.map.moving) List.nodup_range
    (List.mem_range.2 hg) (fun e k _ hk he => (groupView_retarget hg hk e).trans he) (fun e he => ?_) (fun e k _ hk he => ?_) rfl
  · obtain ⟨htarget, hrest⟩ := Prod.mk.inj he
    rw [← htarget]
    exact retarget_moves hg (by rw [htarget, (Prod.mk.inj hrest).2]; exact h)
  · have hsame := sameGroup_retarget hg hk e
    exact ⟨hsame.busy.trans he.1, hsame.moving _ he.2⟩

theorem writeGroups_leaves_scratch {g : Nat} (hg : g < 8) (htarget : groupTarget (groupsAsked down scratch d) g ≠ 2)
    (hdown : d.bit F.mapGrpStat_down g = false) : (writeGroups down scratch d).bit F.mapGrpStat_is_scratch g = false := by
  rw [writeGroups_asks hfew]
  refine forEach_turns (i := g) (Q := fun e => groupView e g = groupView (groupsAsked down scratch d) g)
    (P := fun e => e.bit F.mapGrpStat_is_scratch g = false) List.nodup_range
    (List.mem_range.2 hg) (fun e k _ hk he => (groupView_retarget hg hk e).trans he) (fun e he => ?_) (fun e k _ hk he => ?_) rfl
  · obtain ⟨htarget', hrest⟩ := Prod.mk.inj he
    exact retarget_leaves_scratch hg (htarget' ▸ htarget) ((Prod.mk.inj hrest).1.trans ((bit_asked (by decide)).trans hdown))
  · exact (sameGroup_retarget hg hk e).scratch.trans he

end

theorem groupNow_asked (down scratch : Nat) (d : Dev) (g : Nat) : groupNow (groupsAsked down scratch d) g = groupNow d g := by
  rw [groupNow, bit_asked (by decide), bit_asked (by decide), groupNow]

theorem groupTarget_asked {g : Nat} (hg : g < 8) (down scratch : Nat) (d : Dev) : groupTarget (groupsAsked down scratch d) g =
    if down.testBit g then 1 else if scratch.testBit g then 2 else 0 := by
  have hdown : (groupsAsked down scratch d).bit F.mapGrpCtl_pwr_down g = down.testBit g := by
    rw [groupsAsked, Dev.bit, Dev.rd_wr_ne _ _ _ _ _ _ _ _ (by decide), Dev.rd_wr_same, show F.mapGrpCtl_pwr_down.w = 8 from rfl]
    rw [Nat.testBit_mod_two_pow, decide_eq_true hg, Bool.true_and]
  have hscratch : (groupsAsked down scratch d).bit F.mapGrpCtl_scratch g = scratch.testBit g := by
    rw [groupsAsked, Dev.bit, Dev.rd_wr_same, show F.mapGrpCtl_scratch.w = 8 from rfl]
    rw [Nat.testBit_mod_two_pow, decide_eq_true hg, Bool.true_and]
  rw [groupTarget, hdown, hscratch]

theorem clearBit_testBit (v b c : Nat) : (clearBit v b).testBit c = (decide (c ≠ b) && v.testBit c) := by
  unfold clearBit
  split
  next h => exact testBit_sub_two_pow h c
  next h =>
    by_cases hc : c = b
    · subst hc; simpa using h
    · simp [hc]

theorem clearBit_few {v b : Nat} (h : ((List.range 8).filter fun k => v.testBit k).length ≤ 4) :
    ((List.range 8).filter fun k => (clearBit v b).testBit k).length ≤ 4 := by
  have hsub (k : Nat) (hk : (clearBit v b).testBit k = true) : v.testBit k = true := by
    rw [clearBit_testBit, Bool.and_eq_true] at hk
    exact hk.2
  exact (List.monotone_filter_right _ hsub).length_le.trans h

/-! ### The end of a transition -/

theorem mapSlot_of_entries {d e : Dev} (h : e.map.entries = d.map.entries) (k : Nat) : mapSlot e k = mapSlot d k := by
  rw [mapSlot, h, mapSlot]

theorem mapSlot_set (d : Dev) (i : Nat) (e : Option MapEntry) (k : Nat) :
    mapSlot (setMapSlot d i e) k = if k = i then e else mapSlot d k := tabGet_tabPut none d.map.entries i e k

theorem pageToDram_entries (d : Dev) (page : Nat) (poison : Bool) : (pageToDram d page poison).map.entries = d.map.entries :=
  show (macWritten d 0x3FF (page * 4096) 4096).map.entries = d.map.entries by
    rw [map_of_keep (keep_macWritten (ft := macWrittenFoot) (by decide) d 0x3FF (page * 4096) 4096) (by decide)]

/-- Emptying a slot, once its entry is clean, touches no other slot. -/
theorem mapSlot_emptied (d : Dev) (i k : Nat) : mapSlot (setMapSlot (cleanEntry d i) i none) k = if k = i then none else mapSlot d k := by
  rw [mapSlot_set]
  split
  · rfl
  next hk =>
    unfold cleanEntry
    split
    · split
      · rw [mapSlot_set, if_neg hk, mapSlot_of_entries (pageToDram_entries ..)]
      · rfl
    · rfl

/-- The group's slots emptied. -/
def groupEmptied (d : Dev) (g : Nat) : Dev :=
  forEach ((List.range 8).map fun k => 8 * g + k) d fun d i => setMapSlot (cleanEntry d i) i none

/-- The group marked as what it has come to be. -/
def groupArrived (d : Dev) (g t : Nat) : Dev :=
  (((d.setBit F.mapGrpStat_down g (t == 1)).setBit F.mapGrpStat_is_scratch g (t == 2)).setBit F.mapGrpStat_busy g false).updMap
    fun x => { x with moving := x.moving.filter fun y => y.1 != g }

theorem groupArrived_bits {g : Nat} (hg : g < 8) (d : Dev) (t : Nat) :
    (groupArrived d g t).bit F.mapGrpStat_down g = (t == 1) ∧ (groupArrived d g t).bit F.mapGrpStat_is_scratch g = (t == 2) ∧
      (groupArrived d g t).bit F.mapGrpStat_busy g = false := by
  have hne {f f' : Fld} (b : Bool) (e : Dev) (h : f.id ≠ f'.id) : (e.setBit f g b).bit f' g = e.bit f' g :=
    Dev.bit_setBit_ne e f f' g b 0 0 g 0 0 h
  exact ⟨((hne false _ (by decide)).trans (hne (t == 2) _ (by decide))).trans (Dev.bit_setBit_same d F.mapGrpStat_down g _ 0 0 hg),
    (hne false _ (by decide)).trans (Dev.bit_setBit_same _ F.mapGrpStat_is_scratch g _ 0 0 hg),
    Dev.bit_setBit_same _ F.mapGrpStat_busy g _ 0 0 hg⟩

theorem groupArrived_slot (d : Dev) (g t k : Nat) : mapSlot (groupArrived d g t) k = mapSlot d k := mapSlot_of_entries rfl k

theorem groupEmptied_slot (d : Dev) (g : Nat) {k : Nat} (hk : k < 8) : mapSlot (groupEmptied d g) (8 * g + k) = none := by
  refine forEach_reaches (P := fun e => mapSlot e (8 * g + k) = none) (List.mem_map.2 ⟨k, List.mem_range.2 hk, rfl⟩)
    (fun e => ?_) (fun e i _ he => ?_) d
  · rw [mapSlot_emptied, if_pos rfl]
  · rw [mapSlot_emptied]
    split
    exacts [rfl, he]

theorem groupDone_done {d : Dev} {g t : Nat} (m : List Host.Cell) (hmoving : d.map.moving.find? (fun x => x.1 == g) = some (g, t))
    (hfill : ∀ k, k < 8 → (mapSlot d (8 * g + k)).any (fun e => e.filling.isSome) = false)
    (hwait : ∀ a, a < 8 → ∀ (st : Bool) (sel half : Nat) (next : SeqNext), (d.seq a).wait ≠ .scratch st sel g half next) :
    groupDone g d m = (syncMap (wipeMac (groupArrived (groupEmptied d g) g t) (256 + g)), memZero m (scratchBase g) 0x8000) := by
  unfold groupDone
  rw [hmoving]
  extract_lets own lesson
  have hlesson : lesson = false := by
    refine List.any_eq_false.2 fun a ha => ?_
    split
    next st sel k half next heq =>
      intro hk
      exact hwait a (List.mem_range.1 ha) st sel half next (by rw [heq, eq_of_beq hk])
    next => decide
  have hfilling : (own.any fun i => (mapSlot d i).any fun e => e.filling.isSome) = false := by
    refine List.any_eq_false.2 fun i hi => ?_
    obtain ⟨k, hk, rfl⟩ := List.mem_map.1 hi
    simp [hfill k (List.mem_range.1 hk)]
  show (if (lesson || own.any fun i => (mapSlot d i).any fun e => e.filling.isSome) = true then _ else _) = _
  rw [hlesson, hfilling, if_neg (by decide)]
  rfl

/-- The wipe of a group's scratch window and the counts of the cache keep the groups and the slots. -/
theorem keep_groupWiped (d : Dev) (mac : Nat) : keep (footOf [.ecc, .seqs] [F.mapStat_dirty, F.mapStat_side]) (syncMap (wipeMac d mac)) =
    keep (footOf [.ecc, .seqs] [F.mapStat_dirty, F.mapStat_side]) d :=
  (keep_syncMap (by decide) _).trans (keep_wipeMac (by decide) _ _)

/-- Settles O43: the groups on their way by what each step leaves of the others, the access by its branches. -/
theorem mapGroupRowsComplete : Obligations.MapGroupRowsComplete := by
  unfold Obligations.MapGroupRowsComplete
  refine ⟨?down, ?scratch, ?restore, ?done, ?access⟩
  case down =>
    intro s rq g hfew hnow
    refine brings_of_run (execMapGroupPowerDown.eq_def rq g s) ?_
    have hset : (s.dev.rd F.mapGrpCtl_pwr_down ||| 2 ^ g.val).testBit g.val = true := by simp [Nat.testBit_or]
    have htarget := groupTarget_asked g.isLt (s.dev.rd F.mapGrpCtl_pwr_down ||| 2 ^ g.val) (s.dev.rd F.mapGrpCtl_scratch) s.dev
    rw [if_pos hset] at htarget
    have hmoves := writeGroups_moves (down := s.dev.rd F.mapGrpCtl_pwr_down ||| 2 ^ g.val) (d := s.dev) hfew g.isLt
      (by rw [htarget, groupNow_asked]; exact hnow.symm)
    refine ⟨?_, hmoves.1, htarget ▸ hmoves.2⟩
    rw [Dev.bit, writeGroups_down hfew, Nat.testBit_mod_two_pow, hset, Bool.and_true]
    exact decide_eq_true g.isLt
  case scratch =>
    intro s rq mask hfew
    refine brings_of_run (execMapGroupScratch.eq_def rq mask s) ⟨writeGroups_scratch hfew, fun g hmask hdown hnow => ?_⟩
    have hset : (s.dev.rd F.mapGrpCtl_scratch ||| mask.val).testBit g.val = true := by rw [Nat.testBit_or, hmask, Bool.or_true]
    have htarget := groupTarget_asked g.isLt (s.dev.rd F.mapGrpCtl_pwr_down) (s.dev.rd F.mapGrpCtl_scratch ||| mask.val) s.dev
    rw [if_neg (by simpa [Dev.bit] using hdown), if_pos hset] at htarget
    have hmoves := writeGroups_moves (down := s.dev.rd F.mapGrpCtl_pwr_down) (d := s.dev) hfew g.isLt
      (by rw [htarget, groupNow_asked]; exact hnow.symm)
    exact ⟨hmoves.1, htarget ▸ hmoves.2⟩
  case restore =>
    intro s rq g hfew
    refine ⟨brings_of_run (execMapGroupRestore.eq_def rq g true s) ?_, brings_of_run (execMapGroupRestore.eq_def rq g false s) ?_⟩
    · have hfew' := clearBit_few (b := g.val) hfew
      have hclear : (clearBit (s.dev.rd F.mapGrpCtl_scratch) g.val).testBit g.val = false := by simp [clearBit_testBit]
      refine ⟨?_, writeGroups_leaves_scratch hfew' g.isLt ?_⟩
      · show (writeGroups _ _ s.dev).bit _ _ = false
        rw [Dev.bit, writeGroups_scratch hfew', Nat.testBit_mod_two_pow, hclear, Bool.and_false]
      · rw [groupTarget_asked g.isLt, hclear]
        split <;> decide
    · show (writeGroups _ _ s.dev).bit _ _ = false
      rw [Dev.bit, writeGroups_down hfew, Nat.testBit_mod_two_pow, clearBit_testBit]
      simp
  case done =>
    intro s g t hmoving hfill hwait
    have hbit (f : Fld) (hf : (footOf [.ecc, .seqs] [F.mapStat_dirty, F.mapStat_side]).testBit (32 + f.id) = false) :
        (syncMap (wipeMac (groupArrived (groupEmptied s.dev g) g t) (256 + g))).bit f g = (groupArrived (groupEmptied s.dev g) g t).bit f g := by
      rw [Dev.bit, rd_of_keep (keep_groupWiped ..) hf, Dev.bit]
    obtain ⟨hdown, hscratch, hbusy⟩ := groupArrived_bits g.isLt (groupEmptied s.dev g) t
    refine ⟨_, (execMapGroupTransitionDone.eq_def g s).trans (by rw [liftMem, groupDone_done s.mem hmoving hfill hwait]),
      (hbit _ (by decide)).trans hdown, (hbit _ (by decide)).trans hscratch, (hbit _ (by decide)).trans hbusy, fun k hk => ?_⟩
    rw [mapSlot_of_entries (congrArg MapState.entries (map_of_keep (keep_groupWiped ..) (by decide)))]
    exact (groupArrived_slot ..).trans (groupEmptied_slot s.dev g hk)
  case access =>
    intro s c g off n hoff hlegal hscratch
    have haccess (acc : Access) : exec (.scratchAccess (.core c) g off acc) s = liftMem s (scratchAccess (.core c) g.val off acc) :=
      (execScratchAccess.eq_def (.core c) g off acc s).trans (by rw [Nat.mod_eq_of_lt hoff])
    refine ⟨fun hread => ?_, fun data => ?_⟩
    · refine (haccess _).trans ?_
      simp only [liftMem, scratchAccess, accSize, hlegal, hscratch, hread]
      rfl
    · refine (haccess _).trans ?_
      simp only [liftMem, scratchAccess, accSize, hlegal, hscratch]
      rfl

end Sys2Proof.Machine
end

section
/-! PROOF. The Report Card. -/
namespace Sys2Proof.Machine

/-! ### Counting leaves the order of the records -/

/-- What of the card tells which record comes next. -/
def cardOrder (d : Dev) : Nat × List (Nat × List Byte) × Nat × Bool × Bool :=
  (d.card.cur.epoch, d.card.slots, d.card.ckNext, d.card.endedFrozen, d.card.ckDue)

theorem updAcc_order {g : Acc → Acc} (hg : ∀ a, (g a).epoch = a.epoch) (d : Dev) : cardOrder (d.updAcc g) = cardOrder d := by
  unfold cardOrder
  show ((if d.flag F.evrCtl_frozen then _ else _ : CardState).cur.epoch, _) = _
  unfold Dev.updAcc Dev.updCard
  split
  · rfl
  · simp only [hg]

theorem cardCount_order (d : Dev) (i n : Nat) : cardOrder (cardCount d i n) = cardOrder d := by
  unfold cardCount
  split
  · rfl
  · exact updAcc_order (g := fun a => (a.add i n).add (ckEpoch + i) n) (fun _ => rfl) d

theorem meet_epoch (a : Acc) (i : Nat) (v : Int) (n : Nat) : (a.meet i v n).epoch = a.epoch := by
  unfold Acc.meet
  extract_lets part
  split
  · rfl
  · split
    all_goals split <;> rfl

theorem reachSecond_order (d : Dev) (n : Nat) : cardOrder (reachSecond d n) = cardOrder d := by
  unfold reachSecond
  extract_lets now
  split
  · rfl
  · exact cardCount_order _ _ _

theorem hourErrors_order (d : Dev) : cardOrder (hourErrors d) = cardOrder d :=
  updAcc_order (g := fun a => a.meet 6 (d.rd F.eccCe_count 0 0 - d.card.ceMark : Nat) (d.rd F.evrPos_seconds)) (fun a => meet_epoch a ..) d

theorem wakeCs2_card (d : Dev) : (wakeCs2 d).card = d.card := card_of_keep (keep_wakeCs2 (ft := wakeCs2Foot) (by decide) d) (by decide)

theorem wakeCs2_frozen (d : Dev) : (wakeCs2 d).flag F.evrCtl_frozen = d.flag F.evrCtl_frozen := by
  rw [Dev.flag, rd_of_keep (keep_wakeCs2 (ft := wakeCs2Foot) (by decide) d) (by decide), Dev.flag]

theorem reachSecond_frozen (d : Dev) (n : Nat) : (reachSecond d n).flag F.evrCtl_frozen = d.flag F.evrCtl_frozen := by
  rw [Dev.flag, rd_of_keep (keep_reachSecond (ft := reachSecondFoot) (by decide) d n) (by decide), Dev.flag]

theorem reachSecond_reaches {d : Dev} {n : Nat} (h : d.rd F.evrPos_seconds < n) : (reachSecond d n).rd F.evrPos_seconds = n % 2 ^ 64 := by
  unfold reachSecond
  extract_lets now
  rw [if_neg (Nat.not_le.2 h)]
  exact (rd_of_keep (keep_cardCount (ft := cardCountFoot) (by decide) _ 0 _) (by decide) 0 0).trans (Dev.rd_wr_same d F.evrPos_seconds n 0 0)

/-! ### Writing a record -/

theorem programSlot_good {d : Dev} (h : ((Config.freeValue d.draws).testBit 0 && (Config.freeValue d.draws).testBit 1) = false) (area slot : Nat)
    (b : List Byte) : programSlot d area slot b = putSlot { d with draws := d.draws + 1 } area slot b :=
  if_neg (by simp only [h]; decide)

theorem programSlot_bad {d : Dev} (h : ((Config.freeValue d.draws).testBit 0 && (Config.freeValue d.draws).testBit 1) = true) (area slot : Nat)
    (b : List Byte) : programSlot d area slot b = (putSlot { d with draws := d.draws + 1 } area slot []).addSat F.evrStat_nor_fail 1 :=
  if_pos h

theorem putSlot_cardSlot (d : Dev) (area slot : Nat) (b : List Byte) : (putSlot d area slot b).cardSlot area slot = b :=
  (tabGet_tabPut [] d.card.slots (area * 4096 + slot) b (area * 4096 + slot)).trans (if_pos rfl)

/-- A record written leaves the card but its slots. -/
theorem programSlot_leaves (d : Dev) (area slot : Nat) (b : List Byte) :
    ∃ slots, (programSlot d area slot b).card = { d.card with slots := slots } := by
  cases h : (Config.freeValue d.draws).testBit 0 && (Config.freeValue d.draws).testBit 1 with
  | false => rw [programSlot_good h]; exact ⟨_, rfl⟩
  | true => rw [programSlot_bad h]; exact ⟨_, rfl⟩

theorem writeCheckpoint_card (d : Dev) : ∃ slots,
    (writeCheckpoint d).card = { d.card with slots := slots, ckNext := (d.card.ckNext + 1) % 256, ckDue := false } := by
  obtain ⟨slots, hcard⟩ := programSlot_leaves d 2 d.card.ckNext (recordBytes d 2 d.card.cur (d.rd F.evrPos_seconds))
  unfold writeCheckpoint
  extract_lets d1
  have hcard : d1.card = _ := hcard
  exact ⟨slots, by rw [Dev.updCard_card, hcard]⟩

/-- The checkpoint that is written next. -/
def checkpointProgrammed (d : Dev) : Dev := programSlot d 2 d.card.ckNext (recordBytes d 2 d.card.cur (d.rd F.evrPos_seconds))

theorem writeCheckpoint_eq (d : Dev) : writeCheckpoint d =
    (checkpointProgrammed d).updCard fun c => { c with ckNext := (c.ckNext + 1) % 256, ckDue := false } := rfl

theorem writeCheckpoint_slot (d : Dev) (area slot : Nat) : (writeCheckpoint d).cardSlot area slot = (checkpointProgrammed d).cardSlot area slot :=
  rfl

theorem writeCheckpoint_rd (d : Dev) (f : Fld) (i j : Nat) : (writeCheckpoint d).rd f i j = (checkpointProgrammed d).rd f i j := rfl

theorem closeEpoch_next (d : Dev) (late : Bool) : (closeEpoch d late).card.cur.epoch = d.card.cur.epoch + 1 ∧
    (closeEpoch d late).rd F.evrStat_epoch = (d.card.cur.epoch + 1) % 2 ^ 32 := by
  unfold closeEpoch
  extract_lets n a d1
  exact ⟨rfl, Dev.rd_wr_same _ F.evrStat_epoch _ 0 0⟩

/-! ### Freezing and thawing -/

theorem freezeCard_freezes {d : Dev} (h : d.flag F.evrCtl_frozen = false) : (freezeCard d).flag F.evrCtl_frozen = true ∧
    (freezeCard d).card.frz = {} ∧ (freezeCard d).card.cur = d.card.cur ∧ (freezeCard d).out = d.out := by
  unfold freezeCard
  rw [if_neg (by rw [h]; decide)]
  exact ⟨Dev.flag_setFlag d F.evrCtl_frozen true 0 0 (by decide), rfl, rfl, rfl⟩

theorem thawCard_thaws {d : Dev} {auto : Bool} (h : d.flag F.evrCtl_frozen = true) (hended : d.card.endedFrozen = false) :
    (thawCard d auto).flag F.evrCtl_frozen = false ∧ (thawCard d auto).flag F.evrStat_auto_thawed = auto ∧ (thawCard d auto).card.frz = {} ∧
      (d.card.ckDue = false → (thawCard d auto).card.cur = mergeAcc d.card.cur d.card.frz ∧ (thawCard d auto).out = d.out) := by
  unfold thawCard
  rw [if_neg (by rw [h]; decide)]
  extract_lets d1 d2 d3 d4
  have hd2 : d2 = d1.setFlag F.evrStat_auto_thawed auto := by cases auto <;> rfl
  have hfrozen : d3.flag F.evrCtl_frozen = false := by
    show d2.flag F.evrCtl_frozen = false
    rw [hd2, Dev.flag_setFlag_ne _ _ _ _ _ _ _ _ (by decide)]
    exact Dev.flag_setFlag d F.evrCtl_frozen false 0 0 (by decide)
  have hthawed : d3.flag F.evrStat_auto_thawed = auto := by
    show d2.flag F.evrStat_auto_thawed = auto
    rw [hd2, Dev.flag_setFlag _ _ _ _ _ (by decide)]
  have hcard : d3.card = { d.card with cur := mergeAcc d.card.cur d.card.frz, frz := {} } := by
    show { d2.card with cur := mergeAcc d2.card.cur d2.card.frz, frz := {} } = _
    rw [hd2]
    rfl
  have hout : d3.out = d.out := by
    show d2.out = d.out
    rw [hd2]
    rfl
  have hd4 : d4 = d3 := if_neg (by rw [hcard, hended]; decide)
  rw [hd4]
  clear_value d3
  split
  next hdue =>
    have hkeep := keep_writeCheckpoint (ft := writeCheckpointFoot) (by decide) d3
    obtain ⟨slots, hwritten⟩ := writeCheckpoint_card d3
    refine ⟨?_, ?_, by rw [hwritten, hcard], fun hno => ?_⟩
    · rw [Dev.flag, rd_of_keep hkeep (by decide), ← Dev.flag, hfrozen]
    · rw [Dev.flag, rd_of_keep hkeep (by decide), ← Dev.flag, hthawed]
    · rw [hcard, hno] at hdue
      cases hdue
  next => exact ⟨hfrozen, hthawed, by rw [hcard], fun _ => ⟨by rw [hcard], hout⟩⟩

/-! ### The windows -/

theorem fillStart_fills (d : Dev) (pr : Nat) : (fillStart d pr).flag F.evrWinStat_filling 0 pr = true ∧
    (fillStart d pr).flag F.evrWinStat_ready 0 pr = false ∧ (fillStart d pr).flag F.evrWinStat_empty 0 pr = false := by
  unfold fillStart
  refine ⟨?_, ?_, Dev.flag_setFlag _ F.evrWinStat_empty false 0 pr (by decide)⟩
  · rw [Dev.flag_setFlag_ne _ _ _ _ _ _ _ _ (by decide), Dev.flag_setFlag _ _ _ _ _ (by decide)]
  · rw [Dev.flag_setFlag_ne _ _ _ _ _ _ _ _ (by decide), Dev.flag_setFlag_ne _ _ _ _ _ _ _ _ (by decide),
      Dev.flag_setFlag _ _ _ _ _ (by decide)]

theorem leBytes_lt (b : List Byte) (off n : Nat) : leBytes b off n < 256 ^ n := by
  have hfold (l : List Byte) : l.foldr (fun x acc => x.toNat + 256 * acc) 0 < 256 ^ l.length := by
    induction l with
    | nil => decide
    | cons x l ih =>
      have hx := x.isLt
      rw [List.foldr_cons, List.length_cons, Nat.pow_succ]
      omega
  exact (hfold _).trans_le (Nat.pow_le_pow_right (by decide) (by simp))

/-- The window's registers as a fill leaves them. -/
def windowLoaded (b : List Byte) (off pr : Nat) (d : Dev) : Dev :=
  forEach (List.range 32) d fun d k => d.wr F.evrWindow_data (leBytes b (off + 8 * k) 8) 0 (32 * pr + k)

theorem windowLoaded_data (b : List Byte) (off : Nat) (pr : Nat) {k : Nat} (hk : k < 32) (d : Dev) :
    (windowLoaded b off pr d).rd F.evrWindow_data 0 (32 * pr + k) = leBytes b (off + 8 * k) 8 := by
  refine forEach_touches (p := fun e => e.rd F.evrWindow_data 0 (32 * pr + k)) List.nodup_range (List.mem_range.2 hk)
    (fun e j hj hne => ?_) (fun e _ => ?_)
  · have hj := List.mem_range.1 hj
    exact (Dev.rd_wr_self ..).trans (if_neg (by omega))
  · exact (Dev.rd_wr_same e F.evrWindow_data _ 0 _).trans (Nat.mod_eq_of_lt (leBytes_lt b (off + 8 * k) 8))

theorem fillDone_eq {d : Dev} {pr : Nat} {b : List Byte} {v : Bool} (h : d.flag F.evrWinStat_filling 0 pr = true)
    (himage : cardImage d (d.rd F.evrCursor_area 0 pr) (d.rd F.evrCursor_index 0 pr) = (b, v)) :
    fillDone pr d = (((windowLoaded b (256 * d.rd F.evrCursor_offset 0 pr) pr d).setFlag F.evrWinStat_filling false 0 pr).setFlag
      F.evrWinStat_ready true 0 pr).setFlag F.evrWinStat_empty (!v) 0 pr := by
  rw [fillDone, if_neg (by rw [h]; decide), himage]
  rfl

theorem windowAdvance_eq {d : Dev} {pr : Nat} (h : d.flag F.evrCursor_auto 0 pr = true) : ∃ e, windowAdvance d pr = fillStart e pr ∧
    e.out = d.out ∧ e.rd F.evrCursor_offset 0 pr = (d.rd F.evrCursor_offset 0 pr + 1) % 16 := by
  unfold windowAdvance
  rw [if_neg (by rw [h]; decide)]
  extract_lets off d1
  have hd1 : d1.rd F.evrCursor_offset 0 pr = off % 16 := Dev.rd_wr_same d F.evrCursor_offset off 0 pr
  refine ⟨_, rfl, ?_, ?_⟩
  · split <;> rfl
  · split
    · exact (Dev.rd_addWrap_ne _ _ _ _ _ _ _ _ (by decide)).trans hd1
    · exact hd1

/-- Settles O51: a lemma per step of the card. -/
theorem reportCardRowsComplete : Obligations.ReportCardRowsComplete := by
  unfold Obligations.ReportCardRowsComplete
  refine ⟨?epoch, ?timer, ?checkpoint, ?freeze, ?thaw, ?timeout, ?cursor, ?filled, ?advance⟩
  case epoch =>
    intro s
    have horder := reachSecond_order s.dev (86400 * (s.dev.card.cur.epoch + 1))
    have hfrozen := reachSecond_frozen s.dev (86400 * (s.dev.card.cur.epoch + 1))
    refine ⟨fun h => brings_of_run (execEpochEnd.eq_def s) ?_, fun h => brings_of_run (execEpochEnd.eq_def s) ?_⟩
    all_goals
      unfold epochEnd
      extract_lets d
      obtain ⟨hepoch, hrest⟩ := Prod.mk.inj horder
    · rw [if_neg (by rw [hfrozen, h]; decide)]
      obtain ⟨hcur, hstat⟩ := closeEpoch_next (wakeCs2 d) false
      rw [wakeCs2_card, hepoch] at hcur hstat
      exact ⟨hcur, hstat⟩
    · rw [if_pos (by rw [hfrozen, h])]
      exact ⟨rfl, hepoch, (Prod.mk.inj hrest).1⟩
  case timer =>
    intro s h
    refine brings_of_run (execCheckpointTimer.eq_def s) ?_
    have hseconds : (wakeCs2 s.dev).rd F.evrPos_seconds = s.dev.rd F.evrPos_seconds :=
      rd_of_keep (keep_wakeCs2 (ft := wakeCs2Foot) (by decide) s.dev) (by decide) 0 0
    have hreach := reachSecond_reaches (d := wakeCs2 s.dev) (n := 3600 * (s.dev.rd F.evrPos_seconds / 3600 + 1)) (by rw [hseconds]; omega)
    have hfrozen := (reachSecond_frozen (wakeCs2 s.dev) (3600 * (s.dev.rd F.evrPos_seconds / 3600 + 1))).trans (wakeCs2_frozen s.dev)
    have horder := reachSecond_order (wakeCs2 s.dev) (3600 * (s.dev.rd F.evrPos_seconds / 3600 + 1))
    generalize reachSecond (wakeCs2 s.dev) (3600 * (s.dev.rd F.evrPos_seconds / 3600 + 1)) = e at *
    have hhour := keep_hourErrors (ft := hourErrorsFoot) (by decide) e
    have hnext : (hourErrors e).card.ckNext = s.dev.card.ckNext := by
      have hboth := (hourErrors_order e).trans horder
      exact ((Prod.mk.inj (Prod.mk.inj (Prod.mk.inj hboth).2).2).1).trans (by rw [wakeCs2_card])
    have hgo : checkpointDue (hourErrors e) = writeCheckpoint (hourErrors e) :=
      if_neg (by rw [Dev.flag, rd_of_keep hhour (by decide), ← Dev.flag, hfrozen, h]; decide)
    obtain ⟨slots, hcard⟩ := writeCheckpoint_card (hourErrors e)
    rw [hgo]
    refine ⟨?_, by rw [hcard, hnext]⟩
    rw [rd_of_keep (keep_writeCheckpoint (ft := writeCheckpointFoot) (by decide) _) (by decide), rd_of_keep hhour (by decide), hreach]
  case checkpoint =>
    intro s h
    refine brings_of_run (execEvrCheckpoint.eq_def s) ?_
    rw [checkpointDue, if_neg (by rw [h]; decide)]
    obtain ⟨slots, hcard⟩ := writeCheckpoint_card s.dev
    refine ⟨by rw [hcard], ?_, fun hgood => ?_, fun hbad => ?_⟩
    · rw [writeCheckpoint_eq, Dev.updCard_draws, checkpointProgrammed]
      cases hdraw : (Config.freeValue s.dev.draws).testBit 0 && (Config.freeValue s.dev.draws).testBit 1 with
      | false => rw [programSlot_good hdraw]; rfl
      | true => rw [programSlot_bad hdraw]; rfl
    · simp only [writeCheckpoint_slot, writeCheckpoint_rd, checkpointProgrammed, programSlot_good hgood]
      exact ⟨putSlot_cardSlot .., fun _ _ _ => rfl⟩
    · simp only [writeCheckpoint_slot, writeCheckpoint_rd, checkpointProgrammed, programSlot_bad hbad]
      exact ⟨putSlot_cardSlot .., (Dev.rd_wr_same _ F.evrStat_nor_fail _ 0 0).trans (Nat.mod_eq_of_lt (satTo_lt ..))⟩
  case freeze =>
    intro s P h hP
    subst hP
    refine ⟨brings_of_run (execEvrFreeze.eq_def s) (freezeCard_freezes h), fun hst cid hruns => ?_⟩
    refine brings_of_run (execReportCardFreeze.eq_def hst cid s) ?_
    have hcard := card_of_keep (keep_wakes s.dev) (by decide)
    have hout := wakeChip_out s.dev
    have hfrozen : (wakeChip s.dev).flag F.evrCtl_frozen = false := by rw [Dev.flag, wakeChip_rd _ (by decide), ← Dev.flag, h]
    rw [adminDo_runs cid _ hruns]
    generalize wakeChip s.dev = w at *
    obtain ⟨h1, h2, h3, h4⟩ := freezeCard_freezes hfrozen
    exact ⟨h1, h2, h3.trans (by rw [hcard]), congrArg (List.cons _) (h4.trans hout)⟩
  case thaw =>
    intro s P h hended hdue hP
    subst hP
    have hthaw := thawCard_thaws (auto := false) h hended
    refine ⟨brings_of_run (execEvrThaw.eq_def s) ⟨hthaw.1, hthaw.2.1, hthaw.2.2.1, hthaw.2.2.2 hdue⟩, fun hst cid hruns => ?_⟩
    refine brings_of_run (execReportCardThaw.eq_def hst cid s) ?_
    have hcard := card_of_keep (keep_wakes s.dev) (by decide)
    have hout := wakeChip_out s.dev
    have hfrozen : (wakeChip s.dev).flag F.evrCtl_frozen = true := by rw [Dev.flag, wakeChip_rd _ (by decide), ← Dev.flag, h]
    rw [adminDo_runs cid _ hruns]
    generalize wakeChip s.dev = w at *
    obtain ⟨h1, h2, h3, hrest⟩ := thawCard_thaws (auto := false) hfrozen (by rw [hcard, hended])
    obtain ⟨h4, h5⟩ := hrest (by rw [hcard, hdue])
    exact ⟨h1, h2, h3, h4.trans (by rw [hcard]), congrArg (List.cons _) (h5.trans hout)⟩
  case timeout =>
    intro s h hended
    refine brings_of_run (execFreezeTimeout.eq_def s) ?_
    rw [if_pos h]
    have hfrozen := (reachSecond_frozen s.dev (s.dev.card.frozenAt + 600)).trans h
    have horder := reachSecond_order s.dev (s.dev.card.frozenAt + 600)
    generalize reachSecond s.dev (s.dev.card.frozenAt + 600) = e at *
    obtain ⟨h1, h2, h3, -⟩ := thawCard_thaws (auto := true) hfrozen
      ((Prod.mk.inj (Prod.mk.inj (Prod.mk.inj (Prod.mk.inj horder).2).2).2).1.trans hended)
    exact ⟨h1, h2, h3⟩
  case cursor =>
    intro s rq pr area index offset auto hindex
    refine brings_of_run (execCursorFill.eq_def rq pr area index offset auto s) ?_
    unfold cursorFill
    extract_lets d1
    have hfill := fillStart_fills ((d1.wr F.evrCursor_offset offset.val 0 pr.val).setFlag F.evrCursor_auto auto 0 pr.val) pr.val
    have hkeep := keep_fillStart (ft := fillStartFoot) (by decide)
      ((d1.wr F.evrCursor_offset offset.val 0 pr.val).setFlag F.evrCursor_auto auto 0 pr.val) pr.val
    refine ⟨?_, ?_, ?_, ?_, hfill⟩
    · rw [rd_of_keep hkeep (by decide), Dev.rd_setFlag_ne _ _ _ _ _ _ _ _ (by decide), Dev.rd_wr_ne _ _ _ _ _ _ _ _ (by decide),
        Dev.rd_wr_ne _ _ _ _ _ _ _ _ (by decide), Dev.rd_wr_same]
      exact Nat.mod_eq_of_lt area.isLt
    · rw [rd_of_keep hkeep (by decide), Dev.rd_setFlag_ne _ _ _ _ _ _ _ _ (by decide), Dev.rd_wr_ne _ _ _ _ _ _ _ _ (by decide),
        Dev.rd_wr_same]
      exact Nat.mod_eq_of_lt hindex
    · rw [rd_of_keep hkeep (by decide), Dev.rd_setFlag_ne _ _ _ _ _ _ _ _ (by decide), Dev.rd_wr_same]
      exact Nat.mod_eq_of_lt offset.isLt
    · rw [Dev.flag, rd_of_keep hkeep (by decide), ← Dev.flag]
      exact Dev.flag_setFlag _ F.evrCursor_auto auto 0 pr.val (by decide)
  case filled =>
    intro s pr b v h himage
    refine brings_of_run (execWindowFillDone.eq_def pr s) ?_
    rw [fillDone_eq h himage]
    refine ⟨?_, ?_, Dev.flag_setFlag _ F.evrWinStat_empty (!v) 0 pr.val (by decide), fun k hk => ?_⟩
    · rw [Dev.flag_setFlag_ne _ _ _ _ _ _ _ _ (by decide), Dev.flag_setFlag_ne _ _ _ _ _ _ _ _ (by decide),
        Dev.flag_setFlag _ _ _ _ _ (by decide)]
    · rw [Dev.flag_setFlag_ne _ _ _ _ _ _ _ _ (by decide), Dev.flag_setFlag _ _ _ _ _ (by decide)]
    · rw [Dev.rd_setFlag_ne _ _ _ _ _ _ _ _ (by decide), Dev.rd_setFlag_ne _ _ _ _ _ _ _ _ (by decide),
        Dev.rd_setFlag_ne _ _ _ _ _ _ _ _ (by decide), windowLoaded_data _ _ _ hk]
  case advance =>
    intro s rq pr h
    refine brings_of_run (execWindowAdvance.eq_def rq pr s) ?_
    obtain ⟨e, he, hout, hoffset⟩ := windowAdvance_eq (d := busOk s.dev rq (s.dev.rd F.evrWindow_data 0 (32 * pr.val + 31))) (pr := pr.val) h
    rw [he]
    have hkeep := keep_fillStart (ft := fillStartFoot) (by decide) e pr.val
    exact ⟨(out_of_keep hkeep (by decide)).trans hout, (rd_of_keep hkeep (by decide) 0 pr.val).trans hoffset, (fillStart_fills e pr.val).1⟩

end Sys2Proof.Machine
end

section
/-! PROOF. Footprints within the cipher part: which fields of it an operation may change. -/
namespace Sys2Proof.Machine

/-- The fields of the cipher part. -/
inductive CField where
  | slots | store | cache | dropAsk | nsPair | nsGcm | tags | ranges
  | globalRead | globalWrite | retiring | jobs | waitJobs | parked | winImage | winSaved
  | kek | kekNor | cwk | log | recordDue | san | drbgRequests | withheld

/-- A footprint within the cipher part. -/
def cipherFoot (fs : List CField) : Nat := fs.foldl (fun n f => n ||| 1 <<< f.ctorIdx) 0

/-- The cipher part with the fields of a footprint blanked out. -/
def cmask (m : Nat) (h : CipherState) : CipherState where
  slots := if m.testBit CField.slots.ctorIdx then [] else h.slots
  store := if m.testBit CField.store.ctorIdx then [] else h.store
  cache := if m.testBit CField.cache.ctorIdx then [] else h.cache
  dropAsk := if m.testBit CField.dropAsk.ctorIdx then [] else h.dropAsk
  nsPair := if m.testBit CField.nsPair.ctorIdx then [] else h.nsPair
  nsGcm := if m.testBit CField.nsGcm.ctorIdx then [] else h.nsGcm
  tags := if m.testBit CField.tags.ctorIdx then [] else h.tags
  ranges := if m.testBit CField.ranges.ctorIdx then [] else h.ranges
  globalRead := if m.testBit CField.globalRead.ctorIdx then false else h.globalRead
  globalWrite := if m.testBit CField.globalWrite.ctorIdx then false else h.globalWrite
  retiring := if m.testBit CField.retiring.ctorIdx then [] else h.retiring
  jobs := if m.testBit CField.jobs.ctorIdx then [] else h.jobs
  waitJobs := if m.testBit CField.waitJobs.ctorIdx then [] else h.waitJobs
  parked := if m.testBit CField.parked.ctorIdx then [] else h.parked
  winImage := if m.testBit CField.winImage.ctorIdx then [] else h.winImage
  winSaved := if m.testBit CField.winSaved.ctorIdx then [] else h.winSaved
  kek := if m.testBit CField.kek.ctorIdx then 0 else h.kek
  kekNor := if m.testBit CField.kekNor.ctorIdx then 0 else h.kekNor
  cwk := if m.testBit CField.cwk.ctorIdx then 0 else h.cwk
  log := if m.testBit CField.log.ctorIdx then [] else h.log
  recordDue := if m.testBit CField.recordDue.ctorIdx then none else h.recordDue
  san := if m.testBit CField.san.ctorIdx then {} else h.san
  drbgRequests := if m.testBit CField.drbgRequests.ctorIdx then 0 else h.drbgRequests
  withheld := if m.testBit CField.withheld.ctorIdx then false else h.withheld

def ckeep (m : Nat) (d : Dev) : CipherState := cmask m d.cipher

theorem cmask_cmask {a m : Nat} (hm : inFoot a m = true) (h : CipherState) : cmask m (cmask a h) = cmask m h := by
  have hpart (k : Nat) {α : Type} (x y : α) : (if m.testBit k then x else if a.testBit k then x else y) =
      if m.testBit k then x else y := ite_ite_of_imp (testBit_of_inFoot hm) x y
  simp only [cmask, hpart]

/-- An operation keeps what a wider footprint leaves of the cipher part. -/
theorem ckeep_mono {a m : Nat} {d e : Dev} (hm : inFoot a m = true) (h : ckeep a e = ckeep a d) : ckeep m e = ckeep m d := by
  rw [ckeep, ckeep, ← cmask_cmask hm, ← ckeep, h, ckeep, cmask_cmask hm]

theorem ckeep_of_cipher {d e : Dev} (m : Nat) (h : e.cipher = d.cipher) : ckeep m e = ckeep m d := congrArg (cmask m) h

theorem ckeep_of_keep {a : Nat} {d e : Dev} (h : keep a e = keep a d) (hp : a.testBit Part.cipher.ctorIdx = false) (m : Nat) :
    ckeep m e = ckeep m d := ckeep_of_cipher m (cipher_of_keep h hp)

section
variable {m : Nat} (d : Dev)

theorem ckeep_updCipher (g : CipherState → CipherState) (h : ∀ s, cmask m (g s) = cmask m s) : ckeep m (d.updCipher g) = ckeep m d := h d.cipher

theorem ckeep_ite (c : Prop) [Decidable c] (e : Dev) : ckeep m (if c then d else e) = if c then ckeep m d else ckeep m e :=
  apply_ite (ckeep m) c d e

theorem ckeep_forEach {α : Type} (l : List α) (g : Dev → α → Dev) (h : ∀ e x, ckeep m (g e x) = ckeep m e) :
    ckeep m (forEach l d g) = ckeep m d := forEach_keeps (p := ckeep m) (fun e x _ => h e x) d

theorem ckeep_wr (f : Fld) (v i j : Nat) : ckeep m (d.wr f v i j) = ckeep m d := ckeep_of_cipher m rfl
theorem ckeep_setFlag (f : Fld) (b : Bool) (i j : Nat) : ckeep m (d.setFlag f b i j) = ckeep m d := ckeep_of_cipher m rfl
theorem ckeep_addSat (f : Fld) (n i j : Nat) : ckeep m (d.addSat f n i j) = ckeep m d := ckeep_of_cipher m rfl
theorem ckeep_addWrap (f : Fld) (n i j : Nat) : ckeep m (d.addWrap f n i j) = ckeep m d := ckeep_of_cipher m rfl
theorem ckeep_sub (f : Fld) (n i j : Nat) : ckeep m (d.sub f n i j) = ckeep m d := ckeep_of_cipher m rfl
theorem ckeep_setBit (f : Fld) (b : Nat) (v : Bool) (i j : Nat) : ckeep m (d.setBit f b v i j) = ckeep m d := ckeep_of_cipher m rfl
theorem ckeep_wrInt (f : Fld) (v : Int) (i j : Nat) : ckeep m (d.wrInt f v i j) = ckeep m d := ckeep_of_cipher m rfl
theorem ckeep_emit (e : Emit) : ckeep m (d.emit e) = ckeep m d := ckeep_of_cipher m rfl
theorem ckeep_draw : ckeep m d.draw.2 = ckeep m d := ckeep_of_cipher m rfl
theorem ckeep_updSec (g : SecState → SecState) : ckeep m (d.updSec g) = ckeep m d := ckeep_of_cipher m rfl
theorem ckeep_updReset (g : ResetState → ResetState) : ckeep m (d.updReset g) = ckeep m d := ckeep_of_cipher m rfl
theorem ckeep_updPower (g : PowerState → PowerState) : ckeep m (d.updPower g) = ckeep m d := ckeep_of_cipher m rfl
theorem ckeep_updStruct (g : StructState → StructState) : ckeep m (d.updStruct g) = ckeep m d := ckeep_of_cipher m rfl
theorem ckeep_updComp (g : CompState → CompState) : ckeep m (d.updComp g) = ckeep m d := ckeep_of_cipher m rfl
theorem ckeep_updMap (g : MapState → MapState) : ckeep m (d.updMap g) = ckeep m d := ckeep_of_cipher m rfl
theorem ckeep_updChain (g : ChainState → ChainState) : ckeep m (d.updChain g) = ckeep m d := ckeep_of_cipher m rfl
theorem ckeep_updXb (g : XbState → XbState) : ckeep m (d.updXb g) = ckeep m d := ckeep_of_cipher m rfl
theorem ckeep_updTherm (g : ThermState → ThermState) : ckeep m (d.updTherm g) = ckeep m d := ckeep_of_cipher m rfl
theorem ckeep_updCard (g : CardState → CardState) : ckeep m (d.updCard g) = ckeep m d := ckeep_of_cipher m rfl
theorem ckeep_updEcc (g : EccState → EccState) : ckeep m (d.updEcc g) = ckeep m d := ckeep_of_cipher m rfl
theorem ckeep_part_struct (x : StructState) : ckeep m { d with struct := x } = ckeep m d := ckeep_of_cipher m rfl
theorem ckeep_part_comp (x : CompState) : ckeep m { d with comp := x } = ckeep m d := ckeep_of_cipher m rfl
theorem ckeep_part_reset (x : ResetState) : ckeep m { d with reset := x } = ckeep m d := ckeep_of_cipher m rfl
theorem ckeep_part_sec (x : SecState) : ckeep m { d with sec := x } = ckeep m d := ckeep_of_cipher m rfl
theorem ckeep_part_fw (x : FwState) : ckeep m { d with fw := x } = ckeep m d := ckeep_of_cipher m rfl
theorem ckeep_part_chain (x : ChainState) : ckeep m { d with chain := x } = ckeep m d := ckeep_of_cipher m rfl
theorem ckeep_part_xb (x : XbState) : ckeep m { d with xb := x } = ckeep m d := ckeep_of_cipher m rfl
theorem ckeep_part_map (x : MapState) : ckeep m { d with map := x } = ckeep m d := ckeep_of_cipher m rfl
theorem ckeep_part_card (x : CardState) : ckeep m { d with card := x } = ckeep m d := ckeep_of_cipher m rfl
theorem ckeep_part_power (x : PowerState) : ckeep m { d with power := x } = ckeep m d := ckeep_of_cipher m rfl
theorem ckeep_part_ecc (x : EccState) : ckeep m { d with ecc := x } = ckeep m d := ckeep_of_cipher m rfl
theorem ckeep_updSpin (n : Nat) (g : Spin → Spin) : ckeep m (d.updSpin n g) = ckeep m d := ckeep_of_cipher m rfl

theorem ckeep_updHost (g : HostState → HostState) : ckeep m (d.updHost g) = ckeep m d := ckeep_of_cipher m rfl
theorem ckeep_part_host (x : HostState) : ckeep m { d with host := x } = ckeep m d := ckeep_of_cipher m rfl

end

/-! ### What a footprint says of the fields outside it -/

section
variable {m : Nat} {d e : Dev} (h : ckeep m e = ckeep m d)
include h

theorem slots_of_ckeep (hf : m.testBit CField.slots.ctorIdx = false) : e.cipher.slots = d.cipher.slots := by
  simpa [ckeep, cmask, hf] using congrArg CipherState.slots h
theorem store_of_ckeep (hf : m.testBit CField.store.ctorIdx = false) : e.cipher.store = d.cipher.store := by
  simpa [ckeep, cmask, hf] using congrArg CipherState.store h
theorem cache_of_ckeep (hf : m.testBit CField.cache.ctorIdx = false) : e.cipher.cache = d.cipher.cache := by
  simpa [ckeep, cmask, hf] using congrArg CipherState.cache h
theorem dropAsk_of_ckeep (hf : m.testBit CField.dropAsk.ctorIdx = false) : e.cipher.dropAsk = d.cipher.dropAsk := by
  simpa [ckeep, cmask, hf] using congrArg CipherState.dropAsk h
theorem nsPair_of_ckeep (hf : m.testBit CField.nsPair.ctorIdx = false) : e.cipher.nsPair = d.cipher.nsPair := by
  simpa [ckeep, cmask, hf] using congrArg CipherState.nsPair h
theorem nsGcm_of_ckeep (hf : m.testBit CField.nsGcm.ctorIdx = false) : e.cipher.nsGcm = d.cipher.nsGcm := by
  simpa [ckeep, cmask, hf] using congrArg CipherState.nsGcm h
theorem tags_of_ckeep (hf : m.testBit CField.tags.ctorIdx = false) : e.cipher.tags = d.cipher.tags := by
  simpa [ckeep, cmask, hf] using congrArg CipherState.tags h
theorem ranges_of_ckeep (hf : m.testBit CField.ranges.ctorIdx = false) : e.cipher.ranges = d.cipher.ranges := by
  simpa [ckeep, cmask, hf] using congrArg CipherState.ranges h
theorem globalRead_of_ckeep (hf : m.testBit CField.globalRead.ctorIdx = false) : e.cipher.globalRead = d.cipher.globalRead := by
  simpa [ckeep, cmask, hf] using congrArg CipherState.globalRead h
theorem globalWrite_of_ckeep (hf : m.testBit CField.globalWrite.ctorIdx = false) : e.cipher.globalWrite = d.cipher.globalWrite := by
  simpa [ckeep, cmask, hf] using congrArg CipherState.globalWrite h
theorem retiring_of_ckeep (hf : m.testBit CField.retiring.ctorIdx = false) : e.cipher.retiring = d.cipher.retiring := by
  simpa [ckeep, cmask, hf] using congrArg CipherState.retiring h
theorem jobs_of_ckeep (hf : m.testBit CField.jobs.ctorIdx = false) : e.cipher.jobs = d.cipher.jobs := by
  simpa [ckeep, cmask, hf] using congrArg CipherState.jobs h
theorem waitJobs_of_ckeep (hf : m.testBit CField.waitJobs.ctorIdx = false) : e.cipher.waitJobs = d.cipher.waitJobs := by
  simpa [ckeep, cmask, hf] using congrArg CipherState.waitJobs h
theorem parked_of_ckeep (hf : m.testBit CField.parked.ctorIdx = false) : e.cipher.parked = d.cipher.parked := by
  simpa [ckeep, cmask, hf] using congrArg CipherState.parked h
theorem winImage_of_ckeep (hf : m.testBit CField.winImage.ctorIdx = false) : e.cipher.winImage = d.cipher.winImage := by
  simpa [ckeep, cmask, hf] using congrArg CipherState.winImage h
theorem winSaved_of_ckeep (hf : m.testBit CField.winSaved.ctorIdx = false) : e.cipher.winSaved = d.cipher.winSaved := by
  simpa [ckeep, cmask, hf] using congrArg CipherState.winSaved h
theorem kek_of_ckeep (hf : m.testBit CField.kek.ctorIdx = false) : e.cipher.kek = d.cipher.kek := by
  simpa [ckeep, cmask, hf] using congrArg CipherState.kek h
theorem kekNor_of_ckeep (hf : m.testBit CField.kekNor.ctorIdx = false) : e.cipher.kekNor = d.cipher.kekNor := by
  simpa [ckeep, cmask, hf] using congrArg CipherState.kekNor h
theorem cwk_of_ckeep (hf : m.testBit CField.cwk.ctorIdx = false) : e.cipher.cwk = d.cipher.cwk := by
  simpa [ckeep, cmask, hf] using congrArg CipherState.cwk h
theorem log_of_ckeep (hf : m.testBit CField.log.ctorIdx = false) : e.cipher.log = d.cipher.log := by
  simpa [ckeep, cmask, hf] using congrArg CipherState.log h
theorem recordDue_of_ckeep (hf : m.testBit CField.recordDue.ctorIdx = false) : e.cipher.recordDue = d.cipher.recordDue := by
  simpa [ckeep, cmask, hf] using congrArg CipherState.recordDue h
theorem san_of_ckeep (hf : m.testBit CField.san.ctorIdx = false) : e.cipher.san = d.cipher.san := by
  simpa [ckeep, cmask, hf] using congrArg CipherState.san h
theorem drbgRequests_of_ckeep (hf : m.testBit CField.drbgRequests.ctorIdx = false) : e.cipher.drbgRequests = d.cipher.drbgRequests := by
  simpa [ckeep, cmask, hf] using congrArg CipherState.drbgRequests h
theorem withheld_of_ckeep (hf : m.testBit CField.withheld.ctorIdx = false) : e.cipher.withheld = d.cipher.withheld := by
  simpa [ckeep, cmask, hf] using congrArg CipherState.withheld h

end

end Sys2Proof.Machine
end

section
/-! PROOF. What the operations on keys leave of the cipher part. -/
namespace Sys2Proof.Machine

theorem ckeep_syncWork {ft : Nat} (d : Dev) : ckeep ft (syncWork d) = ckeep ft d :=
  ckeep_of_keep (keep_syncWork (ft := syncWorkFoot) (by decide) d) (by decide) ft

theorem ckeep_macWritten {ft : Nat} (d : Dev) (mac lo n : Nat) : ckeep ft (macWritten d mac lo n) = ckeep ft d :=
  ckeep_of_keep (keep_macWritten (ft := macWrittenFoot) (by decide) d mac lo n) (by decide) ft

def setSlotCipherF : Nat := cipherFoot [.slots]
theorem ckeep_setSlot {ft : Nat} (hft : inFoot setSlotCipherF ft = true) (d : Dev) (i : Nat) (k : KeySlot) : ckeep ft (d.setSlot
    i k) = ckeep ft d :=
  ckeep_mono hft (by simp +decide only [Dev.setSlot, ↓ckeep_macWritten, ↓ckeep_updCipher, cmask, if_true, implies_true])

def freshKeyCipherF : Nat := cipherFoot [.drbgRequests]
theorem ckeep_freshKey {ft : Nat} (hft : inFoot freshKeyCipherF ft = true) (d : Dev) (kind kekSel nsid : Nat) : ckeep ft
    (freshKey d kind kekSel nsid).2 = ckeep ft d :=
  ckeep_mono hft (by simp +decide only [freshKey, ↓ckeep_draw, ↓ckeep_updCipher, cmask, if_true, implies_true])

def newKeyCipherF : Nat := cipherFoot [.slots, .drbgRequests]
theorem ckeep_newKey {ft : Nat} (hft : inFoot newKeyCipherF ft = true) (d : Dev) (i kind kekSel nsid : Nat) : ckeep ft (newKey d
    i kind kekSel nsid) = ckeep ft d :=
  ckeep_mono hft (by simp +decide only [newKey, ↓ckeep_setSlot, ↓ckeep_freshKey])

theorem ckeep_updExtents {ft : Nat} (d : Dev) (g : List Extent → List Extent) : ckeep ft (d.updExtents g) = ckeep ft d :=
    ckeep_of_cipher ft rfl

def vacateCipherF : Nat := cipherFoot [.slots, .tags]
theorem ckeep_vacate {ft : Nat} (hft : inFoot vacateCipherF ft = true) (d : Dev) (e : Nat) : ckeep ft (vacate d e) = ckeep ft d
    :=
  ckeep_mono hft (by unfold vacate; split <;> simp +decide only [↓ckeep_updExtents, ↓ckeep_updCipher, cmask, if_true, implies_true, ↓ckeep_setSlot])

def persistKeyCipherF : Nat := cipherFoot [.slots, .store, .tags, .drbgRequests]
theorem ckeep_persistKey {ft : Nat} (hft : inFoot persistKeyCipherF ft = true) (d : Dev) (i kind kekSel nsid : Nat) : ckeep ft
    (persistKey d i kind kekSel nsid) = ckeep ft d :=
  ckeep_mono hft (by simp +decide only [persistKey, ↓ckeep_updCipher, cmask, if_true, implies_true, ↓ckeep_newKey, ↓ckeep_vacate])

theorem ckeep_pressPair {ft : Nat} (d : Dev) (e : Nat) : ckeep ft (pressPair d e) = ckeep ft d :=
  ckeep_of_keep (keep_pressPair (ft := pressPairFoot) (by decide) d e) (by decide) ft

def replacePairCipherF : Nat := cipherFoot [.slots, .store, .cache, .tags, .retiring, .drbgRequests]
theorem ckeep_replacePair {ft : Nat} (hft : inFoot replacePairCipherF ft = true) (d : Dev) (e kekSel nsid : Nat) (waiter :
    Option (Nat × Nat)) : ckeep ft (replacePair d e kekSel nsid waiter) = ckeep ft d :=
  ckeep_mono hft (by simp +decide only [replacePair, ↓ckeep_syncWork, ↓ckeep_updCipher, cmask, if_true, implies_true, ↓ckeep_setSlot, ↓ckeep_freshKey,
    ↓ckeep_persistKey, ↓ckeep_pressPair, ↓ckeep_forEach, ↓ckeep_ite, ite_self, implies_true])

def nsKeysCipherF : Nat := cipherFoot [.slots, .store, .nsPair, .nsGcm, .tags, .drbgRequests]
theorem ckeep_nsKeys {ft : Nat} (hft : inFoot nsKeysCipherF ft = true) (d : Dev) (ns : Ns) : ckeep ft (nsKeys d ns) = ckeep ft d
    :=
  ckeep_mono hft (by simp +decide only [nsKeys, ↓ckeep_updCipher, cmask, if_true, implies_true, ↓ckeep_persistKey, ↓ckeep_ite, ite_self])

theorem ckeep_syncHost {ft : Nat} (d : Dev) : ckeep ft (syncHost d) = ckeep ft d :=
  ckeep_of_keep (keep_syncHost (ft := syncHostFoot) (by decide) d) (by decide) ft

def zeroPlainCipherF : Nat := cipherFoot [.cache, .jobs, .waitJobs, .parked]
theorem ckeep_zeroPlain {ft : Nat} (hft : inFoot zeroPlainCipherF ft = true) (d : Dev) : ckeep ft (zeroPlain d) = ckeep ft d :=
  ckeep_mono hft (by simp +decide only [zeroPlain, ↓ckeep_updHost, ↓ckeep_syncHost, ↓ckeep_syncWork, ↓ckeep_updCipher, cmask, if_true, implies_true])

def zeroKeysCipherF : Nat := cipherFoot [.slots, .store, .tags, .retiring]
theorem ckeep_zeroKeys {ft : Nat} (hft : inFoot zeroKeysCipherF ft = true) (d : Dev) (all : Bool) : ckeep ft (zeroKeys d all) =
    ckeep ft d :=
  ckeep_mono hft (by simp +decide only [zeroKeys, ↓ckeep_updCipher, cmask, if_true, implies_true])

def zeroForKeysCipherF : Nat := cipherFoot [.slots, .store, .cache, .dropAsk, .tags, .retiring, .jobs, .waitJobs, .parked]
theorem ckeep_zeroForKeys {ft : Nat} (hft : inFoot zeroForKeysCipherF ft = true) (d : Dev) (all : Bool) : ckeep ft (zeroForKeys
    d all) = ckeep ft d :=
  ckeep_mono hft (by simp +decide only [zeroForKeys, ↓ckeep_updCipher, cmask, if_true, implies_true, ↓ckeep_zeroPlain, ↓ckeep_zeroKeys, ↓ckeep_updComp])

def newKeksCipherF : Nat := cipherFoot [.ranges, .kek, .kekNor, .cwk, .drbgRequests]
theorem ckeep_newKeks {ft : Nat} (hft : inFoot newKeksCipherF ft = true) (d : Dev) : ckeep ft (newKeks d) = ckeep ft d :=
  ckeep_mono hft (by simp +decide only [newKeks, ↓ckeep_draw, ↓ckeep_updCipher, cmask, if_true, implies_true])

def regenerateCipherF : Nat := cipherFoot [.slots, .store, .cache, .nsPair, .nsGcm, .tags, .retiring, .drbgRequests]
theorem ckeep_regenerate {ft : Nat} (hft : inFoot regenerateCipherF ft = true) (d : Dev) : ckeep ft (regenerate d) = ckeep ft d
    :=
  ckeep_mono hft (by simp +decide only [regenerate, ↓ckeep_nsKeys, ↓ckeep_replacePair, ↓ckeep_forEach, implies_true])

end Sys2Proof.Machine
end

section
/-! PROOF. Sanitize. -/
namespace Sys2Proof.Machine

/-! ### The request -/

theorem discardDirty_empty (d : Dev) :
    (discardDirty d).host.extents = [] ∧ (discardDirty d).host.held = [] ∧ (discardDirty d).host.journal = [] := by
  unfold discardDirty
  extract_lets ids d1 d2
  rw [syncHost_host]
  exact ⟨rfl, rfl, rfl⟩

/-- What a Sanitize that has been asked for has before it. -/
def sanAsked (action owpass pattern : Nat) (oipbp : Bool) : SanState where
  step := if action = 3 then 5 else 2
  overwrite := action == 3
  passes := if owpass = 0 then 16 else owpass
  pattern := pattern
  oipbp := oipbp

theorem sanitize_starts {d : Dev} {h cid action owpass pattern : Nat} {oipbp : Bool} (hidle : d.cipher.san.step = 0)
    (haction : (action = 3 ∧ owpass ≤ 16) ∨ action = 4) :
    sanitize h cid action owpass oipbp pattern d = adminEnd (setSan (discardDirty d) fun _ => sanAsked action owpass pattern oipbp) h cid 0 0 := by
  unfold sanitize
  extract_lets overwrite
  have hlegal : ((action != 3 && action != 4) || (overwrite && decide (16 < owpass))) = false := by
    obtain ⟨rfl, hpass⟩ | rfl := haction
    · simp [hpass, overwrite]
    · simp [overwrite]
  have hstep : (if overwrite = true then 5 else 2) = if action = 3 then 5 else 2 := by simp only [overwrite, beq_iff_eq]
  rw [if_neg (not_not.2 hidle), if_neg (by omega), hlegal, if_neg (by decide)]
  exact congrArg (fun n => adminEnd (setSan (discardDirty d) fun _ => { sanAsked action owpass pattern oipbp with step := n }) h cid 0 0) hstep

/-! ### The steps -/

theorem tabGet_of_all {α : Type} {P : α → Prop} {dflt : α} (hdflt : P dflt) {t : List (Nat × α)} (ht : ∀ x ∈ t, P x.2) (i : Nat) :
    P (tabGet dflt t i) := by
  induction t with
  | nil => exact hdflt
  | cons x t ih =>
    rw [tabGet]
    split
    · exact ht x (by simp)
    · exact ih fun y hy => ht y (by simp [hy])

theorem zeroKeys_zeroed (d : Dev) : (zeroKeys d true).cipher.store = [] ∧ (zeroKeys d true).cipher.tags = [] ∧
    ∀ i, ((zeroKeys d true).slot i).state = 0 ∧ ((zeroKeys d true).slot i).wrapped = 0 := by
  refine ⟨rfl, rfl, fun i => tabGet_of_all (P := fun k : KeySlot => k.state = 0 ∧ k.wrapped = 0) ⟨rfl, rfl⟩ (fun x hx => ?_) i⟩
  obtain ⟨y, -, rfl⟩ := List.mem_map.1 hx
  exact ⟨rfl, rfl⟩

theorem zeroPlain_cache (d : Dev) : (zeroPlain d).cipher.cache = [] := by
  unfold zeroPlain
  extract_lets d1
  rw [syncHost_cipher, cipher_of_keep (keep_syncWork (ft := syncWorkFoot) (by decide) _) (by decide)]
  rfl

theorem emptyState_empty (d : Dev) : (emptyState d).host.media = [] ∧ (emptyState d).host.locker = [] ∧ (emptyState d).host.mapCk = [] ∧
    (∀ ns ∈ (emptyState d).host.nss, ∀ z ∈ ns.zones, z.wp = 0) ∧ ∀ e ∈ (emptyState d).host.detention, e.lba = none := by
  refine ⟨rfl, rfl, rfl, fun ns hns z hz => ?_, fun e he => by simpa using (List.mem_filter.1 he).2⟩
  obtain ⟨n, -, rfl⟩ := List.mem_map.1 hns
  obtain ⟨y, -, rfl⟩ := List.mem_map.1 hz
  split <;> rfl

/-- Settles O39: the request by its branches, a lemma per step. -/
theorem sanitizeRowsComplete : Obligations.SanitizeRowsComplete := by
  unfold Obligations.SanitizeRowsComplete
  refine ⟨?request, ?pass, ?zero, ?empty, ?last⟩
  case request =>
    intro s h cid action owpass pattern oipbp hruns hidle haction
    refine brings_of_run (execSanitize.eq_def h cid action owpass oipbp pattern s) ?_
    rw [adminDo_runs cid _ hruns, sanitize_starts (by rw [wakeChip_cipher, hidle]) haction]
    obtain ⟨h1, h2, h3⟩ := discardDirty_empty (wakeChip s.dev)
    exact ⟨rfl, h1, h2, h3, rfl⟩
  case pass =>
    intro s word hstep hword
    refine brings_of_run (execSanitizeStepDone.eq_def s) ?_
    rw [sanitizeStep.eq_def]
    simp only [hstep]
    unfold overwritePass
    extract_lets san word' tok d1
    have hsame : word' = word := by simp only [hword, word', san, Bool.and_eq_true, beq_iff_eq]
    refine ⟨?_, fun m hm => ?_, rfl, rfl, ?_⟩
    · exact List.map_map.trans rfl
    · obtain ⟨x, -, rfl⟩ := List.mem_map.1 hm
      exact ⟨congrArg (fun w => Blk.data (leBytes ((List.range 1024).flatMap fun _ => toBytes w 4) 0 4096)) hsame, rfl⟩
    · have hsan : d1.cipher.san = s.dev.cipher.san := rfl
      show ((if d1.cipher.san.passes ≤ 1 then _ else _ : SanState).step, (if d1.cipher.san.passes ≤ 1 then _ else _ : SanState).passes) = _
      rw [hsan]
      split <;> simp [hstep]
  case zero =>
    intro s hstep hdrbg
    refine brings_of_run (execSanitizeStepDone.eq_def s) ?_
    rw [sanitizeStep.eq_def]
    simp only [hstep]
    rw [if_neg (by simp [hdrbg])]
    have hcache := (cache_of_ckeep (ckeep_zeroKeys (ft := zeroKeysCipherF) (by decide) (zeroPlain s.dev) true) (by decide)).trans
      (zeroPlain_cache s.dev)
    obtain ⟨hstore, htags, hslots⟩ := zeroKeys_zeroed (zeroPlain s.dev)
    have hdraws : (zeroForKeys s.dev true).draws = s.dev.draws :=
      draws_of_keep (keep_zeroForKeys (ft := zeroForKeysFoot) (by decide) s.dev true) (by decide)
    exact ⟨rfl, hstore, htags, hcache, rfl, hslots, congrArg Config.freeValue hdraws⟩
  case empty =>
    intro s hstep hwork
    refine brings_of_run (execSanitizeStepDone.eq_def s) ?_
    rw [sanitizeStep.eq_def]
    simp only [hstep, hwork]
    have hempty := emptyState_empty (forEach (presentHdas s.dev) s.dev fun d n => setHvote d 2 n 0)
    have hkeep : hkeep writeAnchorHost (emptyMedia s.dev) = hkeep writeAnchorHost (emptyState (forEach (presentHdas s.dev) s.dev fun d n => setHvote d 2 n 0)) :=
      hkeep_forEach _ _ _ fun e n => hkeep_writeAnchor (by decide) e n
    generalize emptyState (forEach (presentHdas s.dev) s.dev fun d n => setHvote d 2 n 0) = e at *
    rw [← media_of_hkeep hkeep (by decide), ← locker_of_hkeep hkeep (by decide), ← mapCk_of_hkeep hkeep (by decide),
      ← nss_of_hkeep hkeep (by decide), ← detention_of_hkeep hkeep (by decide)] at hempty
    exact ⟨rfl, hempty⟩
  case last =>
    intro s hstep hkeys
    refine brings_of_run (execSanitizeStepDone.eq_def s) ?_
    rw [sanitizeStep.eq_def]
    simp only [hstep]
    rw [if_neg (by rw [hkeys]; decide)]
    refine ⟨rfl, ?_⟩
    show (regenerate s.dev).cipher.san.failed = _
    rw [san_of_ckeep (ckeep_regenerate (ft := regenerateCipherF) (by decide) s.dev) (by decide)]

end Sys2Proof.Machine
end

section
/-! PROOF. What the jobs and the ends of commands leave of the cipher part. -/
namespace Sys2Proof.Machine

def useKeyCipherF : Nat := cipherFoot [.cache]
theorem ckeep_useKey {ft : Nat} (hft : inFoot useKeyCipherF ft = true) (d : Dev) (i : Nat) : ckeep ft (useKey d i) = ckeep ft d
    :=
  ckeep_mono hft (by simp +decide only [useKey, ↓ckeep_updCipher, cmask, if_true, implies_true])

def startJobCipherF : Nat := cipherFoot [.cache, .jobs, .waitJobs]
theorem ckeep_startJob {ft : Nat} (hft : inFoot startJobCipherF ft = true) (d : Dev) (id : Nat) : ckeep ft (startJob d id) =
    ckeep ft d :=
  ckeep_mono hft (by unfold startJob; split <;> simp +decide only [↓ckeep_wr, ↓ckeep_updCipher, cmask, if_true, implies_true, ↓ckeep_useKey, ↓ckeep_ite, ite_self])

theorem ckeep_startJobs {ft : Nat} (hft : inFoot startJobCipherF ft = true) (d : Dev) : ckeep ft (startJobs d) = ckeep ft d :=
  ckeep_mono hft (by simp +decide only [startJobs, ↓ckeep_setFlag, ↓ckeep_syncWork, ↓ckeep_startJob, ↓ckeep_forEach, implies_true])

theorem ckeep_chainRespond {ft : Nat} (d : Dev) (src tag status dw0 : Nat) (body : List Nat) : ckeep ft (chainRespond d src tag
    status dw0 body) = ckeep ft d :=
  ckeep_of_keep (keep_chainRespond (ft := originateFoot) (by decide) d src tag status dw0 body) (by decide) ft

theorem ckeep_cancelRemote {ft : Nat} (d : Dev) (id : Nat) : ckeep ft (cancelRemote d id) = ckeep ft d :=
  ckeep_of_keep (keep_cancelRemote (ft := originateFoot) (by decide) d id) (by decide) ft

def dropWorkCipherF : Nat := cipherFoot [.jobs, .waitJobs, .parked]
theorem ckeep_dropWork {ft : Nat} (hft : inFoot dropWorkCipherF ft = true) (d : Dev) (id : Nat) : ckeep ft (dropWork d id) =
    ckeep ft d := by
  refine ckeep_mono hft ?_
  unfold dropWork
  extract_lets e
  have he : ckeep dropWorkCipherF e = ckeep dropWorkCipherF d := by simp +decide only [e, ↓ckeep_cancelRemote]
  rw [ckeep_syncWork, ← he]
  simp +decide only [ckeep, cmask, if_true]
  rfl

theorem ckeep_leaveTable {ft : Nat} (d : Dev) (x : Ctx) : ckeep ft (leaveTable d x) = ckeep ft d :=
  ckeep_of_keep (keep_leaveTable (ft := leaveTableFoot) (by decide) d x) (by decide) ft

theorem ckeep_finish {ft : Nat} (hft : inFoot dropWorkCipherF ft = true) (d : Dev) (id status dw0 : Nat) : ckeep ft (finish d id
    status dw0) = ckeep ft d := by
  refine ckeep_mono hft ?_
  unfold finish
  split
  · rfl
  · extract_lets record e e'
    have he : ckeep dropWorkCipherF e = ckeep dropWorkCipherF d := by simp +decide only [e, ↓ckeep_dropWork, ↓ckeep_leaveTable]
    have he' : ckeep dropWorkCipherF e' = ckeep dropWorkCipherF d := by
      simp only [e']
      split
      · simp +decide only [he, ↓ckeep_emit]
      · simp +decide only [he, ↓ckeep_chainRespond]
      · exact he
      · exact he
    simp +decide only [he', ↓ckeep_syncHost]

def endWorkCipherF : Nat := cipherFoot [.cache, .jobs, .waitJobs, .parked]
theorem ckeep_endWork {ft : Nat} (hft : inFoot endWorkCipherF ft = true) (d : Dev) (x : Ctx) (st : Nat) : ckeep ft (endWork d x
    st) = ckeep ft d :=
  ckeep_mono hft (by simp +decide only [endWork, ↓ckeep_finish, ↓ckeep_startJobs])

theorem ckeep_macRead {ft : Nat} (d : Dev) (mac lo n : Nat) : ckeep ft (macRead d mac lo n).2 = ckeep ft d :=
  ckeep_of_keep (keep_macRead (ft := macReadFoot) (by decide) d mac lo n) (by decide) ft

theorem ckeep_fetchKey {ft : Nat} (hft : inFoot useKeyCipherF ft = true) (d : Dev) (i : Nat) (destage : Bool) : ckeep ft
    (fetchKey d i destage).2 = ckeep ft d := by
  refine ckeep_mono hft ?_
  unfold fetchKey
  split
  · simp +decide only [↓ckeep_useKey]
  · have hm := ckeep_macRead (ft := useKeyCipherF) d 0x3FF (slotAddr d i) 64
    split
    · next hu => rw [hu] at hm; exact hm
    · next hu =>
      rw [hu] at hm
      split
      · exact hm
      · simp +decide only [↓ckeep_useKey]
        exact hm

theorem ckeep_updCtx {ft : Nat} (d : Dev) (id : Nat) (g : Ctx → Ctx) : ckeep ft (d.updCtx id g) = ckeep ft d := ckeep_of_cipher
    ft rfl

theorem ckeep_queueJob {ft : Nat} (hft : inFoot startJobCipherF ft = true) (d : Dev) (id : Nat) : ckeep ft (queueJob d id) =
    ckeep ft d :=
  ckeep_mono hft (by simp +decide only [queueJob, ↓ckeep_updCtx, ↓ckeep_updCipher, cmask, if_true, implies_true, ↓ckeep_startJobs])

theorem ckeep_readStream {ft : Nat} (d : Dev) (c : Nat) : ckeep ft (readStream d c).2 = ckeep ft d :=
  ckeep_of_keep (keep_readStream (ft := readStreamFoot) (by decide) d c) (by decide) ft

theorem ckeep_historyCheck {ft : Nat} (hft : inFoot endWorkCipherF ft = true) (d : Dev) (x : Ctx) (f : CFrame) : ckeep ft
    (historyCheck d x f) = ckeep ft d := by
  refine ckeep_mono hft ?_
  unfold historyCheck
  extract_lets go
  have hgo (e : Dev) : ckeep endWorkCipherF (go e) = ckeep endWorkCipherF e := by
    simp +decide only [go, ↓ckeep_updCtx, ↓ckeep_syncWork]
  split
  · exact hgo d
  · have hr := ckeep_readStream (ft := endWorkCipherF) d f.ctxId
    split
    · next hu => rw [hu] at hr; dsimp only at hr; simp +decide only [hr, ↓ckeep_setFlag, ↓ckeep_endWork]
    · next hu => rw [hu] at hr; dsimp only at hr; simp +decide only [hr, hgo, ↓ckeep_setFlag, ↓ckeep_endWork, ↓ckeep_ite, ite_self]

end Sys2Proof.Machine
end

section
/-! PROOF. GCM jobs, nonces and the key cache. -/
namespace Sys2Proof.Machine

/-! ### What waiting jobs leave when they start -/

theorem keep_startsJobs (d : Dev) : keep startJobsFoot (startJobs d) = keep startJobsFoot d := keep_startJobs (by decide) d

theorem startJobs_comp (d : Dev) : (startJobs d).comp = d.comp := comp_of_keep (keep_startsJobs d) (by decide)
theorem startJobs_host (d : Dev) : (startJobs d).host = d.host := host_of_keep (keep_startsJobs d) (by decide)
theorem startJobs_out (d : Dev) : (startJobs d).out = d.out := out_of_keep (keep_startsJobs d) (by decide)

theorem startJobs_frameOf (d : Dev) (id : Nat) : frameOf (startJobs d) id = frameOf d id := by rw [frameOf, startJobs_comp, frameOf]

theorem startJobs_ctx? (d : Dev) (id : Nat) : (startJobs d).ctx? id = d.ctx? id := Dev.ctx?_of_ctxs (by rw [startJobs_host]) id

theorem startJobs_slot (d : Dev) (i : Nat) : (startJobs d).slot i = d.slot i := by
  rw [Dev.slot, slots_of_ckeep (ckeep_startJobs (ft := startJobCipherF) (by decide) d) (by decide), Dev.slot]

theorem frameOf_putFrame (d : Dev) (id : Nat) (f : CFrame) : frameOf (putFrame d id f) id = some f := by
  have hnone : (d.comp.frames.filter fun x => x.1 != id).find? (fun x => x.1 == id) = none := by
    refine List.find?_eq_none.2 fun x hx => ?_
    simpa using (List.mem_filter.1 hx).2
  show ((d.comp.frames.filter (fun x => x.1 != id) ++ [(id, f)]).find? fun x => x.1 == id).map (·.2) = some f
  rw [List.find?_append, hnone]
  simp

/-! ### The cache -/

theorem useKey_contains (d : Dev) (i : Nat) : (useKey d i).cipher.cache.contains i = true := by
  unfold useKey
  extract_lets c c'
  simp [Dev.updCipher_cipher]

/-- Using a cached key makes no other leave. -/
theorem useKey_cached {d : Dev} {i k : Nat} (hi : d.cipher.cache.contains i = true) (hfit : d.cipher.cache.length ≤ 512)
    (hk : d.cipher.cache.contains k = true) : (useKey d i).cipher.cache.contains k = true ∧ (useKey d i).cipher.cache.length ≤ 512 := by
  have hlt : (d.cipher.cache.filter fun k => k != i).length < d.cipher.cache.length := by
    refine List.length_filter_lt_length_iff_exists.2 ⟨i, List.contains_iff_mem.1 hi, by simp⟩
  have heq : (useKey d i).cipher.cache = (d.cipher.cache.filter fun k => k != i) ++ [i] := by
    unfold useKey
    extract_lets c c'
    have hc : c' = c := if_pos (hlt.trans_le hfit)
    rw [Dev.updCipher_cipher, hc]
  rw [heq]
  refine ⟨?_, by rw [List.length_append, List.length_singleton]; omega⟩
  rw [List.contains_iff_mem, List.mem_append, List.mem_filter]
  by_cases hki : k = i
  · exact .inr (by simp [hki])
  · exact .inl ⟨List.contains_iff_mem.1 hk, by simpa using hki⟩

theorem startJob_cached {d : Dev} {k : Nat} (id : Nat) (hk : d.cipher.cache.contains k = true) (hfit : d.cipher.cache.length ≤ 512) :
    (startJob d id).cipher.cache.contains k = true ∧ (startJob d id).cipher.cache.length ≤ 512 := by
  unfold startJob
  split
  next x core hx hcore =>
    extract_lets slot enc ctr nonce d' job
    split
    · exact ⟨hk, hfit⟩
    next hgo =>
      have hcache : d'.cipher.cache = d.cipher.cache := by
        simp only [d']
        split <;> rfl
      have hin : d.cipher.cache.contains slot = true := by
        by_contra hno
        exact hgo (by simp only [Bool.not_eq_true] at hno; rw [hno]; rfl)
      clear_value d'
      exact useKey_cached (d := d'.updCipher _) (by rw [Dev.updCipher_cipher, hcache, hin]) (by rw [Dev.updCipher_cipher, hcache]; exact hfit)
        (by rw [Dev.updCipher_cipher, hcache, hk])
  next => exact ⟨hk, hfit⟩

theorem startJobs_cached {d : Dev} {k : Nat} (hk : d.cipher.cache.contains k = true) (hfit : d.cipher.cache.length ≤ 512 ∨ d.cipher.waitJobs = []) :
    (startJobs d).cipher.cache.contains k = true := by
  unfold startJobs
  extract_lets e
  have he : e.cipher.cache.contains k = true := by
    rcases hfit with hfit | hnone
    · exact (forEach_inv (P := fun e => e.cipher.cache.contains k = true ∧ e.cipher.cache.length ≤ 512)
        (fun e id _ he => startJob_cached id he.1 he.2) ⟨hk, hfit⟩).1
    · simp only [e, hnone]
      exact hk
  rw [cipher_of_keep (keep_syncWork (ft := syncWorkFoot) (by decide) _) (by decide)]
  exact he

theorem fetchKey_fetches {d : Dev} {i : Nat} {destage : Bool} (hnew : d.cipher.cache.contains i = false) (h : (fetchKey d i destage).1 = none) :
    ∃ e, (fetchKey d i destage).2 = useKey e i ∧ e.cipher = d.cipher := by
  have hread := cipher_of_keep (keep_macRead (ft := macReadFoot) (by decide) d 0x3FF (slotAddr d i) 64) (by decide)
  unfold fetchKey at h ⊢
  rw [if_neg (by rw [hnew]; decide)] at h ⊢
  split at h
  · cases h
  next e he =>
    rw [he] at hread
    split at h
    · cases h
    next => exact ⟨e, rfl, hread⟩

/-! ### The end of a job -/

/-- What has read the job's frame: the core is free and its bytes are counted. -/
def jobRead (d : Dev) (core : Nat) (f : CFrame) : Dev :=
  (d.updCipher fun c => { c with jobs := tabErase c.jobs core }).addWrap F.cphBytes_bytes (streamLenOf f) 0 core

theorem gcmJobDone_eq {d : Dev} {core : Nat} {errs : List Nat} {j : GcmJob} {x : Ctx} {f f1 : CFrame}
    (hj : tabGet none d.cipher.jobs core = some j) (hx : d.ctx? j.id = some x) (hf1 : frameOf d j.id = some f1)
    (hf : f = { f1 with stream := flipBits errs f1.stream }) : gcmJobDone core errs false d =
      if j.enc then startJobs (putFrame ((jobRead d core f).updCtx j.id fun c => { c with stage := .placing }) j.id
        (sealFrame (d.slot j.slot).wrapped j.nonce f))
      else if gcmTagOf (d.slot j.slot).wrapped f != f.tag then
        endWork (((jobRead d core f).setFlag F.cphErr_gcm_fail true).setFlag F.cmpErr_frame_bad true) x stCheckFail
      else startJobs (historyCheck (putFrame (jobRead d core f) j.id
        { f with stream := gcmCrypt (d.slot j.slot).wrapped f.nonce f.stream }) x { f with stream := gcmCrypt (d.slot j.slot).wrapped f.nonce f.stream }) := by
  subst hf
  have hx' : (d.updCipher fun c => { c with jobs := tabErase c.jobs core }).ctx? j.id = some x := hx
  have hf1' : frameOf (d.updCipher fun c => { c with jobs := tabErase c.jobs core }) j.id = some f1 := hf1
  rw [gcmJobDone.eq_def]
  simp only [hj, hx', hf1']
  rfl

theorem historyCheck_plain {d : Dev} {x : Ctx} {f : CFrame} (h : f.history = false) :
    historyCheck d x f = syncWork (d.updCtx x.id fun c => { c with stage := .engine }) := by
  unfold historyCheck
  extract_lets go
  exact if_pos (by rw [h]; rfl)

/-- Settles O37: a job's end by what the jobs that start leave of the frame, the cache by what using a key leaves of it. -/
theorem gcmRowsComplete : Obligations.GcmRowsComplete := by
  unfold Obligations.GcmRowsComplete
  refine ⟨?job, ?fill, ?reserve, ?written⟩
  case job =>
    intro s core errs j x f f1 hj hx hf1 hf
    have heq := gcmJobDone_eq (errs := errs) hj hx hf1 hf
    have hid := Dev.id_of_ctx? hx
    have hx' : (jobRead s.dev core f).ctx? j.id = some x := hx
    refine ⟨fun henc => ?_, fun henc hplain htag => ?_, fun h qid cid henc horg htag => ?_⟩
    all_goals
      refine brings_of_run (execGcmJobDone.eq_def core errs false s) ?_
      rw [heq]
    · rw [if_pos henc]
      refine ⟨(startJobs_frameOf ..).trans (frameOf_putFrame ..), ?_⟩
      rw [startJobs_ctx?]
      exact congrArg (Option.map (·.stage)) (Dev.ctx?_updCtx_same (g := fun c => { c with stage := .placing }) (by exact fun _ => rfl) hx')
    · rw [if_neg (by rw [henc]; decide), if_neg (by simp [htag]),
        historyCheck_plain (f := { f with stream := gcmCrypt (s.dev.slot j.slot).wrapped f.nonce f.stream }) hplain]
      have hwork (e : Dev) : (syncWork e).comp = e.comp ∧ (syncWork e).host = e.host :=
        ⟨comp_of_keep (keep_syncWork (ft := syncWorkFoot) (by decide) e) (by decide),
          host_of_keep (keep_syncWork (ft := syncWorkFoot) (by decide) e) (by decide)⟩
      refine ⟨?_, ?_⟩
      · rw [startJobs_frameOf, frameOf, (hwork _).1]
        exact frameOf_putFrame ..
      · rw [startJobs_ctx?, Dev.ctx?_of_ctxs (by rw [(hwork _).2]), hid]
        exact congrArg (Option.map (·.stage)) (Dev.ctx?_updCtx_same (d := putFrame (jobRead s.dev core f) j.id _)
          (g := fun c => { c with stage := .engine }) (by exact fun _ => rfl) hx')
    · rw [if_neg (by rw [henc]; decide), if_pos (by simpa using htag), endWork, hid]
      have hx2 : (((jobRead s.dev core f).setFlag F.cphErr_gcm_fail true).setFlag F.cmpErr_frame_bad true).ctx? j.id = some x := hx'
      refine ⟨?_, ?_, ?_⟩
      · rw [startJobs_out]
        exact finish_reports stCheckFail 0 hx2 horg
      · rw [startJobs_ctx?]
        exact finish_gone ..
      · rw [Dev.flag, rd_of_keep (keep_startsJobs _) (by decide), rd_of_keep (keep_finish (ft := finishFoot) (by decide) _ _ _ _) (by decide),
          ← Dev.flag, Dev.flag_setFlag_ne _ _ _ _ _ _ _ _ (by decide)]
        exact Dev.flag_setFlag _ F.cphErr_gcm_fail true 0 0 (by decide)
  case fill =>
    intro s slot hnew hfetch hroom
    refine brings_of_run (execKeyCacheFill.eq_def slot true true s) ?_
    obtain ⟨e, hfetched, hcipher⟩ := fetchKey_fetches hnew hfetch
    have hgo : keyCacheFill slot true true s.dev = startJobs (useKey e slot) := by
      rw [keyCacheFill, if_neg (by rw [hnew]; decide)]
      simp [hfetch, hfetched]
    rw [hgo]
    refine startJobs_cached (useKey_contains e slot) (hroom.imp (fun hroom => ?_) fun hnone => ?_)
    · unfold useKey
      extract_lets c c'
      have hc : c.length ≤ s.dev.cipher.cache.length := by
        simp only [c, hcipher]
        exact List.length_filter_le ..
      have hc' : c' = c := if_pos (by omega)
      rw [Dev.updCipher_cipher, hc']
      show (c ++ [slot]).length ≤ 512
      rw [List.length_append, List.length_singleton]
      omega
    · rw [waitJobs_of_ckeep (ckeep_useKey (ft := useKeyCipherF) (by decide) e slot) (by decide), hcipher, hnone]
  case reserve =>
    intro s hdue hlimit
    refine gives_of_run (execNonceReserveAppend.eq_def s) ?_
    rw [nonceReserve, if_neg (by simp [hdue]; omega)]
  case written =>
    intro s limit hdue
    refine brings_of_run (execNonceRecordWritten.eq_def s) ?_
    rw [nonceWritten.eq_def]
    simp only [hdue]
    refine ⟨?_, ?_, ?_⟩
    · rw [rd_of_keep (keep_startsJobs _) (by decide), Dev.rd_wr_same]
    · rw [recordDue_of_ckeep (ckeep_startJobs (ft := startJobCipherF) (by decide) _) (by decide)]
      rfl
    · rw [log_of_ckeep (ckeep_startJobs (ft := startJobCipherF) (by decide) _) (by decide)]
      rfl

end Sys2Proof.Machine
end

section
/-! PROOF. What the operations on slots and ranges leave of the cipher part. -/
namespace Sys2Proof.Machine

def emptySlotCipherF : Nat := cipherFoot [.slots, .cache]
theorem ckeep_emptySlot {ft : Nat} (hft : inFoot emptySlotCipherF ft = true) (d : Dev) (i : Nat) : ckeep ft (emptySlot d i) =
    ckeep ft d :=
  ckeep_mono hft (by simp +decide only [emptySlot, ↓ckeep_syncWork, ↓ckeep_updCipher, cmask, if_true, implies_true, ↓ckeep_setSlot])

def clearPairCipherF : Nat := cipherFoot [.slots, .cache, .retiring]
theorem ckeep_clearPair {ft : Nat} (hft : inFoot clearPairCipherF ft = true) (d : Dev) (e : Nat) (waiter : Option (Nat × Nat)) :
    ckeep ft (clearPair d e waiter) = ckeep ft d :=
  ckeep_mono hft (by simp +decide only [clearPair, ↓ckeep_updCipher, cmask, if_true, implies_true, ↓ckeep_setSlot, ↓ckeep_emptySlot, ↓ckeep_pressPair, ↓ckeep_forEach,
    ↓ckeep_ite, ite_self, implies_true])

def storeSlotCipherF : Nat := cipherFoot [.store]
theorem ckeep_storeSlot {ft : Nat} (hft : inFoot storeSlotCipherF ft = true) (d : Dev) (i : Nat) : ckeep ft (storeSlot d i) =
    ckeep ft d :=
  ckeep_mono hft (by simp +decide only [storeSlot, ↓ckeep_updCipher, cmask, if_true, implies_true])

theorem ckeep_endAdmin {ft : Nat} (d : Dev) (w : Option (Nat × Nat)) (status dw0 : Nat) : ckeep ft (endAdmin d w status dw0) =
    ckeep ft d :=
  ckeep_of_keep (keep_endAdmin (ft := endAdminFoot) (by decide) d w status dw0) (by decide) ft

def updRangeCipherF : Nat := cipherFoot [.ranges]
theorem ckeep_updRange {ft : Nat} (hft : inFoot updRangeCipherF ft = true) (d : Dev) (r : Nat) (g : KeyRange → KeyRange) : ckeep
    ft (d.updRange r g) = ckeep ft d :=
  ckeep_mono hft (by simp +decide only [Dev.updRange, ↓ckeep_updCipher, cmask, if_true, implies_true])

def loadRangeKekCipherF : Nat := cipherFoot [.ranges, .kek]
theorem ckeep_loadRangeKek {ft : Nat} (hft : inFoot loadRangeKekCipherF ft = true) (d : Dev) (r : Nat) : ckeep ft (loadRangeKek
    d r) = ckeep ft d :=
  ckeep_mono hft (by simp +decide only [loadRangeKek, ↓ckeep_updRange, ↓ckeep_ite, ite_self])

theorem ckeep_rangeUnlock {ft : Nat} (hft : inFoot loadRangeKekCipherF ft = true) (r : Nat) (credentialOk : Bool) (d : Dev) :
    ckeep ft (rangeUnlock r credentialOk d) = ckeep ft d :=
  ckeep_mono hft (by simp +decide only [rangeUnlock, ↓ckeep_updRange, ↓ckeep_loadRangeKek, ↓ckeep_ite, ite_self])

theorem ckeep_rangeLock {ft : Nat} (hft : inFoot updRangeCipherF ft = true) (r : Nat) (d : Dev) : ckeep ft (rangeLock r d) =
    ckeep ft d :=
  ckeep_mono hft (by simp +decide only [rangeLock, ↓ckeep_pressPair, ↓ckeep_updRange])

end Sys2Proof.Machine
end

section
/-! PROOF. Key slots, locking ranges, cipher contexts and randomness. -/
namespace Sys2Proof.Machine

/-! ### A slot written -/

/-- The slot as a write of it leaves it: the generation counted, the checksum made. -/
def slotNext (old new : KeySlot) : KeySlot := { new with generation := (old.generation + 1) % 2 ^ 32 }.sealed

theorem slotNext_generation (old new : KeySlot) : (slotNext old new).generation = (old.generation + 1) % 2 ^ 32 := rfl

theorem setSlot_slot (d : Dev) (i : Nat) (k : KeySlot) (n : Nat) : (d.setSlot i k).slot n = if n = i then slotNext (d.slot i) k else d.slot n := by
  rw [Dev.slot, Dev.setSlot, slots_of_ckeep (ckeep_of_keep (keep_macWritten (ft := macWrittenFoot) (by decide) _ _ _ _) (by decide) 0) (by decide)]
  exact tabGet_tabPut {} d.cipher.slots i _ n

theorem slot_of_slots {d e : Dev} (h : e.cipher.slots = d.cipher.slots) (n : Nat) : e.slot n = d.slot n := by rw [Dev.slot, h, Dev.slot]

theorem syncWork_cipher (d : Dev) : (syncWork d).cipher = d.cipher := cipher_of_keep (keep_syncWork (ft := syncWorkFoot) (by decide) d) (by decide)

theorem emptySlot_slot (d : Dev) (i n : Nat) : (emptySlot d i).slot n = if n = i then slotNext (d.slot i) {} else d.slot n := by
  rw [slot_of_slots (show (emptySlot d i).cipher.slots = (d.setSlot i {}).cipher.slots by rw [emptySlot, syncWork_cipher]; rfl)]
  exact setSlot_slot d i {} n

theorem pressPair_cipher (d : Dev) (e : Nat) : (pressPair d e).cipher = d.cipher :=
  cipher_of_keep (keep_pressPair (ft := pressPairFoot) (by decide) d e) (by decide)

theorem pressPair_slot (d : Dev) (e n : Nat) : (pressPair d e).slot n = d.slot n := slot_of_slots (by rw [pressPair_cipher]) n

theorem clearPair_slot {e n : Nat} (d : Dev) (w : Option (Nat × Nat)) (hn : n / 2 ≠ e) : (clearPair d e w).slot n = d.slot n := by
  have h1 : n ≠ 2 * e := by omega
  have h2 : n ≠ 2 * e + 1 := by omega
  have hset (d : Dev) (i : Nat) (k : KeySlot) (r : Retiring) (hi : n ≠ i) :
      ((d.setSlot i k).updCipher fun c => { c with retiring := c.retiring ++ [r] }).slot n = d.slot n :=
    (setSlot_slot d i k n).trans (if_neg hi)
  unfold clearPair
  split
  · rw [pressPair_slot]
    refine forEach_keeps (p := fun e : Dev => e.slot n) (fun e i hi => hset e i _ _ ?_) d
    rcases List.mem_cons.1 hi with rfl | hi
    exacts [h1, by rwa [List.mem_singleton.1 hi]]
  · rw [emptySlot_slot, if_neg h2, emptySlot_slot, if_neg h1]

/-- The slot no longer among those that retire. -/
def retiringLess (d : Dev) (i : Nat) : Dev := d.updCipher fun c => { c with retiring := c.retiring.filter fun x => x.slot != i }

/-- The retired slot emptied, or with its next contents stored. -/
def slotFilled (d : Dev) (i : Nat) : Option KeySlot → Dev
  | none => emptySlot (retiringLess d i) i
  | some k => storeSlot ((emptySlot (retiringLess d i) i).setSlot i k) i

theorem slotFilled_retiring (d : Dev) (i : Nat) (k : Option KeySlot) :
    (slotFilled d i k).cipher.retiring = d.cipher.retiring.filter fun x => x.slot != i := by
  have hless := retiring_of_ckeep (ckeep_emptySlot (ft := emptySlotCipherF) (by decide) (retiringLess d i) i) (by decide)
  cases k with
  | none => exact hless
  | some k =>
    rw [slotFilled, retiring_of_ckeep (ckeep_storeSlot (ft := storeSlotCipherF) (by decide) _ i) (by decide),
      retiring_of_ckeep (ckeep_setSlot (ft := setSlotCipherF) (by decide) _ i k) (by decide), hless]
    rfl

theorem slotFilled_empty (d : Dev) (i : Nat) :
    (slotFilled d i none).slot i = ({ generation := ((d.slot i).generation + 1) % 2 ^ 32 } : KeySlot).sealed :=
  (emptySlot_slot (retiringLess d i) i i).trans (if_pos rfl)

theorem slotFilled_next (d : Dev) (i : Nat) (k : KeySlot) :
    (slotFilled d i (some k)).slot i = ({ k with generation := ((d.slot i).generation + 2) % 2 ^ 32 } : KeySlot).sealed := by
  have hempty : ((emptySlot (retiringLess d i) i).slot i).generation = ((d.slot i).generation + 1) % 2 ^ 32 := by
    rw [emptySlot_slot, if_pos rfl, slotNext_generation]
    rfl
  rw [slotFilled, slot_of_slots (slots_of_ckeep (ckeep_storeSlot (ft := storeSlotCipherF) (by decide) _ i) (by decide)), setSlot_slot, if_pos rfl, slotNext, hempty, Nat.mod_add_mod]

/-- The command that waited for a slot, ended when none is left that it waits for. -/
def endRetired (d : Dev) (w : Option (Nat × Nat)) : Dev :=
  if w.isSome && !(d.cipher.retiring.any fun x => x.waiter == w) then endAdmin d w 0 0 else d

theorem endRetired_cipher (d : Dev) (w : Option (Nat × Nat)) : (endRetired d w).cipher = d.cipher := by
  unfold endRetired
  split
  · exact cipher_of_keep (keep_endAdmin (ft := endAdminFoot) (by decide) d w 0 0) (by decide)
  · rfl

theorem endRetired_slot (d : Dev) (w : Option (Nat × Nat)) (n : Nat) : (endRetired d w).slot n = d.slot n :=
  slot_of_slots (by rw [endRetired_cipher]) n

theorem slotRetired_eq {d : Dev} {i : Nat} {r : Retiring} (hr : d.cipher.retiring.find? (fun r => r.slot == i) = some r)
    (hfree : pairInUse d (i / 2) = false) : slotRetired i d = endRetired (slotFilled d i r.next) r.waiter := by
  unfold slotRetired
  rw [hr]
  dsimp only
  rw [if_neg (by rw [hfree]; decide)]
  cases r.next <;> rfl

/-! ### An injected key -/

/-- A half of the key put into its slot. -/
def halfPut (d : Dev) (nsid i v : Nat) : Dev :=
  d.setSlot i { state := 1, kind := 1 + i % 2, kekSel := 0, nsid := nsid, wrapped := Config.keyWrap d.cipher.kek v }

/-- The key put into a pair, which its tag then names. -/
def pairPut (d : Dev) (nsid e t key : Nat) : Dev :=
  (halfPut (halfPut d nsid (2 * e) (key % 2 ^ 256)) nsid (2 * e + 1) (key / 2 ^ 256 % 2 ^ 256)).updCipher fun c =>
    { c with tags := tabPut 0 c.tags t (e + 1) }

theorem halfPut_slot (d : Dev) (nsid i v n : Nat) : (halfPut d nsid i v).slot n =
    if n = i then slotNext (d.slot i) { state := 1, kind := 1 + i % 2, kekSel := 0, nsid := nsid, wrapped := Config.keyWrap d.cipher.kek v }
    else d.slot n := setSlot_slot ..

theorem keep_halfPut (d : Dev) (nsid i v : Nat) : ckeep setSlotCipherF (halfPut d nsid i v) = ckeep setSlotCipherF d := ckeep_setSlot (by decide) ..

theorem pairPut_slots (d : Dev) (nsid e t key : Nat) :
    (pairPut d nsid e t key).slot (2 * e) = slotNext (d.slot (2 * e))
      { state := 1, kind := 1, kekSel := 0, nsid := nsid, wrapped := Config.keyWrap d.cipher.kek (key % 2 ^ 256) } ∧
    (pairPut d nsid e t key).slot (2 * e + 1) = slotNext (d.slot (2 * e + 1))
      { state := 1, kind := 2, kekSel := 0, nsid := nsid, wrapped := Config.keyWrap d.cipher.kek (key / 2 ^ 256 % 2 ^ 256) } := by
  have hput (n : Nat) : (pairPut d nsid e t key).slot n =
      (halfPut (halfPut d nsid (2 * e) (key % 2 ^ 256)) nsid (2 * e + 1) (key / 2 ^ 256 % 2 ^ 256)).slot n := slot_of_slots rfl n
  have hkind : (2 * e) % 2 = 0 ∧ (2 * e + 1) % 2 = 1 := by omega
  refine ⟨?_, ?_⟩
  · rw [hput, halfPut_slot, if_neg (by omega), halfPut_slot, if_pos rfl, hkind.1]
  · rw [hput, halfPut_slot, if_pos rfl, halfPut_slot, if_neg (by omega), hkind.2, kek_of_ckeep (keep_halfPut ..) (by decide)]

theorem pairPut_tags (d : Dev) (nsid e t key : Nat) : tabGet 0 (pairPut d nsid e t key).cipher.tags t = e + 1 :=
  (tabGet_tabPut 0 _ t (e + 1) t).trans (if_pos rfl)

/-- The key injected, and the pair that its tag named before given up. -/
def keyPut (d : Dev) (nsid e t key : Nat) : Dev :=
  if tabGet 0 d.cipher.tags t = 0 then pairPut d nsid e t key
  else clearPair (pairPut d nsid e t key) (tabGet 0 d.cipher.tags t - 1) none

theorem keyInject_eq {d : Dev} {nsid tag key e : Nat} {ns : Ns} {ok : Bool} (hns : localNs d nsid = some ns) (hpair : freePair d = some e)
    (hlegal : (!ns.kpio || !ok || !tcgAvailable d || d.cipher.withheld || !d.flag F.cphStat_kek_loaded || decide (65536 ≤ tag)) = false) :
    keyInject nsid tag ok key d = keyPut d nsid e (nsid * 65536 + tag) key := by
  unfold keyInject
  simp only [hns, hpair]
  rw [if_neg (by rw [hlegal]; decide)]
  rfl

theorem keyInject_puts (d : Dev) (nsid key : Nat) {e t : Nat} (hold : tabGet 0 d.cipher.tags t ≠ e + 1) :
    tabGet 0 (keyPut d nsid e t key).cipher.tags t = e + 1 ∧ ∀ i : Fin 2, (keyPut d nsid e t key).slot (2 * e + i.val) = KeySlot.sealed
      { state := 1, kind := 1 + i.val, kekSel := 0, nsid := nsid, generation := ((d.slot (2 * e + i.val)).generation + 1) % 2 ^ 32,
        wrapped := Config.keyWrap d.cipher.kek (key / 2 ^ (256 * i.val) % 2 ^ 256) } := by
  obtain ⟨hlow, hhigh⟩ := pairPut_slots d nsid e t key
  have hput (i : Fin 2) : (pairPut d nsid e t key).slot (2 * e + i.val) = KeySlot.sealed
      { state := 1, kind := 1 + i.val, kekSel := 0, nsid := nsid, generation := ((d.slot (2 * e + i.val)).generation + 1) % 2 ^ 32,
        wrapped := Config.keyWrap d.cipher.kek (key / 2 ^ (256 * i.val) % 2 ^ 256) } := by
    obtain rfl | rfl : i = 0 ∨ i = 1 := by omega
    · rw [show key / 2 ^ (256 * (0 : Fin 2).val) = key from Nat.div_one key]
      exact hlow
    · exact hhigh
  unfold keyPut
  split
  · exact ⟨pairPut_tags .., hput⟩
  next hsome =>
    refine ⟨?_, fun i => (clearPair_slot _ _ ?_).trans (hput i)⟩
    · rw [tags_of_ckeep (ckeep_clearPair (ft := clearPairCipherF) (by decide) _ _ _) (by decide), pairPut_tags]
    · omega

/-! ### A job's context -/

/-- The window's registers as they show an image. -/
def windowShown (img : List Byte) (d : Dev) : Dev := forEach (List.range 10) d fun d k => d.wr F.cphCtxWin_data (leBytes img (8 * k) 8) 0 k

theorem keep_windowShown (img : List Byte) (d : Dev) : keep (footOf [] [F.cphCtxWin_data]) (windowShown img d) = keep (footOf [] [F.cphCtxWin_data]) d :=
  keep_forEach _ _ _ fun e k => keep_wr e _ _ _ _ (by decide)

theorem windowShown_data (img : List Byte) (d : Dev) {k : Nat} (hk : k < 10) :
    (windowShown img d).rd F.cphCtxWin_data 0 k = leBytes img (8 * k) 8 % 2 ^ 64 :=
  forEach_touches (p := fun e => e.rd F.cphCtxWin_data 0 k) List.nodup_range (List.mem_range.2 hk)
    (fun e j hj hne => (Dev.rd_wr_self ..).trans (if_neg (by have := List.mem_range.1 hj; omega)))
    (fun e _ => Dev.rd_wr_same e F.cphCtxWin_data _ 0 k)

theorem leBytes_prefix (v : Nat) (rest : List Byte) : leBytes (toBytes v 4 ++ rest) (8 * 0) 8 % 2 ^ 32 = v % 2 ^ 32 := by
  simp only [toBytes, leBytes, Nat.mul_zero, List.drop_zero, List.cons_append, List.nil_append, List.take_succ_cons, List.foldr_cons,
    BitVec.toNat_ofNat]
  omega

/-- The registers that name the core and the operation. -/
def contextNamed (d : Dev) (core op : Nat) : Dev := (d.wr F.cphCtxCtl_core core).wr F.cphCtxCtl_op op

/-- The job as a save leaves it: some blocks on, with the hash of them. -/
def jobSaved (d : Dev) (j : GcmJob) : GcmJob :=
  { j with
    blocks := j.blocks + Config.freeValue d.draws % ((((frameOf d j.id).map fun f => ceilDiv (streamLenOf f) 16).getD 0) - j.blocks + 1),
    ghash := Config.freeValue (d.draws + 1) % 2 ^ 128 }

theorem contextSave_eq {d : Dev} {core : Nat} {j : GcmJob} (hj : tabGet none d.cipher.jobs core = some j) :
    contextSave core d = startJobs (windowShown (clearImage (jobSaved d j))
      ({ contextNamed d core 0 with draws := d.draws + 2 }.updCipher fun c => { c with
        jobs := tabErase c.jobs core, parked := c.parked ++ [jobSaved d j], winImage := clearImage (jobSaved d j), winSaved := List.range 10 })) := by
  have hj' : tabGet none (contextNamed d core 0).cipher.jobs core = some j := hj
  rw [contextSave, ← contextNamed]
  dsimp only
  rw [hj']
  rfl

theorem contextRestore_eq {d : Dev} {rq : Requester} {core : Nat} {b : List Byte} (himage : restoreImage d rq = some b)
    (hstate : (d.slot (leBytes b 6 2)).state = 1) (hgen : (d.slot (leBytes b 6 2)).generation = leBytes b 8 4)
    (hfree : tabGet none d.cipher.jobs core = none) : ∃ (j : GcmJob) (parked : List GcmJob), contextRestore rq core d =
      syncWork ((useKey ((contextNamed d core 1).updCipher fun c => { c with parked := parked, jobs := tabPut none c.jobs core (some j) })
        (leBytes b 6 2)).setFlag F.cphCtxCtl_fail false) ∧
      j.slot = leBytes b 6 2 ∧ j.generation = leBytes b 8 4 ∧ j.nonce = leBytes b 0x10 12 ∧ j.ghash = leBytes b 0x20 16 ∧
        j.blocks = leBytes b 0x38 8 / 128 := by
  have himage' : restoreImage (contextNamed d core 1) rq = some b := by
    have hread (k : Nat) : winRead (contextNamed d core 1) rq k = winRead d rq k := by
      have hdata : (contextNamed d core 1).rd F.cphCtxWin_data 0 k = d.rd F.cphCtxWin_data 0 k :=
        (Dev.rd_wr_ne _ _ _ _ _ _ _ _ (by decide)).trans (Dev.rd_wr_ne _ _ _ _ _ _ _ _ (by decide))
      rw [winRead, hdata]
      rfl
    rw [← himage, restoreImage, funext hread]
    rfl
  have hgo : ¬(((contextNamed d core 1).slot (leBytes b 6 2)).state ≠ 1 ∨ ((contextNamed d core 1).slot (leBytes b 6 2)).generation ≠ leBytes b 8 4 ∨
      (tabGet none (contextNamed d core 1).cipher.jobs core).isSome) := by
    rintro (h | h | h)
    · exact h hstate
    · exact h hgen
    · rw [show (contextNamed d core 1).cipher = d.cipher from rfl, hfree] at h
      cases h
  unfold contextRestore
  rw [← contextNamed]
  dsimp only
  rw [himage']
  dsimp only
  rw [if_neg hgo]
  exact ⟨_, _, rfl, rfl, rfl, rfl, rfl, rfl⟩

/-! ### Ranges -/

theorem mem_updRange {d : Dev} {r : Nat} {g : KeyRange → KeyRange} {x : KeyRange}
    (hx : x ∈ (d.updRange r g).cipher.ranges) (hr : x.idx = r) : ∃ y ∈ d.cipher.ranges, y.idx = r ∧ x = g y := by
  obtain ⟨y, hy, rfl⟩ := List.mem_map.1 hx
  by_cases h : (y.idx == r) = true
  · exact ⟨y, hy, beq_iff_eq.1 h, if_pos h⟩
  · exact absurd (by rw [if_neg h] at hr; exact beq_iff_eq.2 hr) h

/-- Settles O38: slots by what each write leaves of the others, the rest by the branches. -/
theorem keyRowsComplete : Obligations.KeyRowsComplete := by
  unfold Obligations.KeyRowsComplete
  refine ⟨?retire, ?inject, ?unlock, ?lock, ?zero, ?save, ?restore, ?counter, ?invalidate, ?drop, ?reseed, ?entropy⟩
  case retire =>
    intro s i r hr hfree
    refine brings_of_run (execSlotRetireComplete.eq_def i s) ?_
    rw [slotRetired_eq hr hfree]
    refine ⟨?_, ?_⟩
    · rw [endRetired_slot]
      cases r.next with
      | none => exact slotFilled_empty ..
      | some k => exact slotFilled_next ..
    · rw [endRetired_cipher, slotFilled_retiring]
  case inject =>
    intro s nsid tag key e t ns hns hkpio hpair htcg hheld hkek htag ht hold
    refine brings_of_run (execKeyInject.eq_def nsid tag true key s) ?_
    have hlegal : (!ns.kpio || !true || !tcgAvailable s.dev || s.dev.cipher.withheld || !s.dev.flag F.cphStat_kek_loaded ||
        decide (65536 ≤ tag)) = false := by
      simp [hkpio, htcg, hheld, hkek, htag]
    subst ht
    rw [keyInject_eq hns hpair hlegal]
    exact keyInject_puts s.dev nsid key hold
  case unlock =>
    intro s r hheld hkek
    refine brings_of_run (execLockingRangeUnlock.eq_def r true s) ?_
    have hload : loadRangeKek s.dev r = s.dev.updRange r fun x => { x with kek := some (Config.rangeKek s.dev.cipher.kek r x.cred), draining := false } := by
      rw [loadRangeKek, if_neg (by simp [hheld, hkek])]
    rw [rangeUnlock, if_neg (by simp [hheld, hkek]), hload]
    intro x hx hidx
    obtain ⟨y, hy, hyidx, rfl⟩ := mem_updRange hx hidx
    obtain ⟨z, -, -, rfl⟩ := mem_updRange hy hyidx
    exact ⟨rfl, rfl, rfl⟩
  case lock =>
    intro s r
    refine brings_of_run (execLockingRangeLock.eq_def r s) fun x hx hidx => ?_
    rw [rangeLock, pressPair_cipher] at hx
    obtain ⟨y, -, -, rfl⟩ := mem_updRange hx hidx
    exact ⟨rfl, rfl⟩
  case zero =>
    intro s r hdrain hfree
    refine brings_of_run (execRangeKekZero.eq_def r s) ?_
    rw [rangeKekZero, if_neg (by simp [hdrain, hfree])]
    dsimp only
    rw [syncWork_cipher]
    refine ⟨fun x hx hidx => ?_, ?_, ?_⟩
    · obtain ⟨y, -, -, rfl⟩ := mem_updRange hx hidx
      exact ⟨rfl, rfl⟩
    all_goals
      refine Bool.eq_false_iff.2 fun hin => ?_
      simpa using (List.mem_filter.1 (List.contains_iff_mem.1 hin)).2
  case save =>
    intro s rq core j hj
    refine brings_of_run (execCipherContextSave.eq_def rq core s) ?_
    rw [contextSave_eq hj]
    refine ⟨?_, ?_, jobSaved s.dev j, ?_, rfl, rfl, rfl, rfl, rfl, Nat.le_add_right ..⟩
    · rw [winSaved_of_ckeep (ckeep_startJobs (ft := startJobCipherF) (by decide) _) (by decide), cipher_of_keep (keep_windowShown ..) (by decide)]
      rfl
    · rw [rd_of_keep (keep_startsJobs _) (by decide), windowShown_data _ _ (by decide), Nat.mod_mod_of_dvd _ (by decide)]
      simp only [clearImage, List.append_assoc]
      exact leBytes_prefix ..
    · rw [parked_of_ckeep (ckeep_startJobs (ft := startJobCipherF) (by decide) _) (by decide), cipher_of_keep (keep_windowShown ..) (by decide)]
      exact List.mem_append_right _ (List.mem_singleton_self _)
  case restore =>
    intro s rq core b himage hstate hgen hfree
    refine brings_of_run (execCipherContextRestore.eq_def rq core s) ?_
    obtain ⟨j, parked, heq, h⟩ := contextRestore_eq himage hstate hgen hfree
    rw [heq]
    refine ⟨?_, j, ?_, h⟩
    · rw [Dev.flag, rd_of_keep (keep_syncWork (ft := syncWorkFoot) (by decide) _) (by decide), ← Dev.flag]
      exact Dev.flag_setFlag _ F.cphCtxCtl_fail false 0 0 (by decide)
    · rw [syncWork_cipher, Dev.setFlag_cipher, jobs_of_ckeep (ckeep_useKey (ft := useKeyCipherF) (by decide) _ _) (by decide)]
      exact (tabGet_tabPut none _ core.val (some j) core.val).trans (if_pos rfl)
  case counter =>
    intro s rq m shuffle hallowed
    refine gives_of_run (execCountermeasureConfig.eq_def rq m shuffle s) ?_
    unfold setCountermeasures
    extract_lets lower
    refine if_neg fun hrefused => ?_
    simp only [lower, Bool.and_eq_true, Bool.or_eq_true, beq_iff_eq, decide_eq_true_eq, Bool.not_eq_true'] at hrefused
    obtain ⟨hstate, hlower⟩ := hrefused
    rcases hallowed with h | h | ⟨hmax, hshuffle⟩
    · omega
    · omega
    · rcases hlower with h | ⟨hon, hoff⟩
      · omega
      · rw [hshuffle hon] at hoff
        cases hoff
  case invalidate =>
    intro s rq slot hslot
    refine brings_of_run (execKeyInvalidate.eq_def rq slot s) ?_
    unfold keyInvalidate
    refine ⟨?_, Dev.flag_setFlag _ F.cphKeyInv_busy true 0 0 (by decide), ?_⟩
    · exact ((Dev.rd_setFlag_ne (s.dev.wr F.cphKeyInv_slot slot) F.cphKeyInv_busy F.cphKeyInv_slot true 0 0 0 0 (by decide)).trans
        (Dev.rd_wr_same s.dev F.cphKeyInv_slot slot 0 0)).trans (Nat.mod_eq_of_lt hslot)
    · rw [Nat.mod_eq_of_lt hslot]
      rfl
  case drop =>
    intro s
    refine brings_of_run (execKeyDropDone.eq_def s) ?_
    unfold keyDropDone
    extract_lets gone d
    rw [syncWork_cipher]
    refine ⟨fun i hi hheld => ?_, ?_, ?_⟩
    · refine Bool.eq_false_iff.2 fun hin => ?_
      have hgone : i ∈ gone := List.mem_filter.2 ⟨hi, by simp [hheld]⟩
      simpa [hgone] using (List.mem_filter.1 (List.contains_iff_mem.1 hin)).2
    · refine List.filter_congr fun i hi => ?_
      simp [gone, hi]
    · rw [Dev.flag, rd_of_keep (keep_syncWork (ft := syncWorkFoot) (by decide) _) (by decide), ← Dev.flag, Dev.flag_setFlag _ _ _ _ _ (by decide)]
      simp
  case reseed => exact fun s => gives_of_run (execDrbgReseed.eq_def s) rfl
  case entropy => exact fun s => gives_of_run (execEntropyHealthFail.eq_def s) rfl

end Sys2Proof.Machine
end

section
/-! PROOF. What the TCG methods leave of the cipher part. -/
namespace Sys2Proof.Machine

theorem ckeep_setLocks {ft : Nat} (hft : inFoot loadRangeKekCipherF ft = true) (d : Dev) (r : Nat) (rd wr : Bool) : ckeep ft
    (setLocks d r rd wr) = ckeep ft d :=
  ckeep_mono hft (by simp +decide only [setLocks, ↓ckeep_updRange, ↓ckeep_loadRangeKek, ↓ckeep_rangeLock, ↓ckeep_ite, ite_self])

def defineRangeCipherF : Nat := cipherFoot [.slots, .store, .cache, .tags, .ranges, .retiring, .kek, .drbgRequests]
theorem ckeep_defineRange {ft : Nat} (hft : inFoot defineRangeCipherF ft = true) (d : Dev) (r : Nat) (b : LbaRange) : ckeep ft
    (defineRange d r b) = ckeep ft d :=
  ckeep_mono hft (by simp +decide only [defineRange, ↓ckeep_updCipher, cmask, if_true, implies_true, ↓ckeep_replacePair, ↓ckeep_loadRangeKek, ↓ckeep_ite, ite_self])

end Sys2Proof.Machine
end

section
/-! PROOF. TCG methods. -/
namespace Sys2Proof.Machine

/-! ### The session and the answer -/

theorem tcgRow_answers {s : State} {h cid : Nat} {g : Dev → Dev} (hruns : AdminRuns s h false false) (hopen : (s.dev.tcg h).isOpen = true)
    (htcg : tcgAvailable (wakeChip s.dev) = true) : tcgRow h cid (inSession h cid g) s.dev = g (wakeChip s.dev) := by
  have hsec : (wakeChip s.dev).tcg h = s.dev.tcg h := by rw [Dev.tcg, sec_of_keep (keep_wakes s.dev) (by decide), Dev.tcg]
  rw [tcgRow, adminDo_runs cid _ hruns, inSession, if_neg (by rw [htcg]; decide), if_neg (by rw [hsec, hopen]; decide)]

theorem wakeChip_tcg (d : Dev) : (wakeChip d).tcg = d.tcg := by
  funext h
  rw [Dev.tcg, sec_of_keep (keep_wakes d) (by decide), Dev.tcg]

theorem tcgAnswer_out (d : Dev) (h cid st : Nat) (l : List Nat) : (tcgAnswer d h cid st l).out = .cqe h 0 cid 0 0 :: .page h cid (st :: l) :: d.out := rfl

theorem tcg_setTcg (d : Dev) (h : Nat) (t : TcgSess) : (d.setTcg h t).tcg h = t := (tabGet_tabPut ({} : TcgSess) d.sec.tcg h t h).trans (if_pos rfl)

theorem authenticate_tcg (d : Dev) (h : Nat) (a : TcgArg) : (authenticate d h a).tcg h =
    { d.tcg h with auths := if (d.tcg h).auths.contains a.authority then (d.tcg h).auths else (d.tcg h).auths ++ [a.authority] } := by
  unfold authenticate
  extract_lets t d1
  have hd1 : d1.tcg h = _ := tcg_setTcg d h _
  split
  · rw [Dev.tcg, sec_of_keep (keep_loadRangeKek (ft := loadRangeKekFoot) (by decide) d1 _) (by decide)]
    exact hd1
  · exact hd1

theorem authenticate_out (d : Dev) (h : Nat) (a : TcgArg) : (authenticate d h a).out = d.out :=
  out_of_keep (keep_authenticate (ft := authenticateFoot) (by decide) d h a) (by decide)

/-! ### Locks -/

theorem setLocks_locks {d : Dev} {r : Nat} {rd wr : Bool} {x : KeyRange} (hx : x ∈ (setLocks d r rd wr).cipher.ranges) (hr : x.idx = r) :
    x.readLock = rd ∧ x.writeLock = wr := by
  unfold setLocks at hx
  split at hx
  next hboth =>
    obtain ⟨rfl, rfl⟩ := Bool.and_eq_true_iff.1 hboth
    rw [rangeLock, pressPair_cipher] at hx
    obtain ⟨y, -, -, rfl⟩ := mem_updRange hx hr
    exact ⟨rfl, rfl⟩
  next =>
    obtain ⟨y, -, -, rfl⟩ := mem_updRange hx hr
    exact ⟨rfl, rfl⟩

theorem setLocks_out (d : Dev) (r : Nat) (rd wr : Bool) : (setLocks d r rd wr).out = d.out :=
  out_of_keep (keep_setLocks (ft := setLocksFoot) (by decide) d r rd wr) (by decide)

/-- Where a range lies. -/
def KeyRange.place (x : KeyRange) : Nat × Nat × Nat × Nat := (x.idx, x.nsid, x.lo, x.hi)

theorem updRange_places {d : Dev} {r : Nat} {g : KeyRange → KeyRange} (hg : ∀ x, (g x).place = x.place) :
    (d.updRange r g).cipher.ranges.map KeyRange.place = d.cipher.ranges.map KeyRange.place := map_listMapIf hg _

theorem loadRangeKek_places (d : Dev) (r : Nat) : (loadRangeKek d r).cipher.ranges.map KeyRange.place = d.cipher.ranges.map KeyRange.place := by
  unfold loadRangeKek
  split
  · rfl
  · exact updRange_places (by exact fun _ => rfl)

theorem setLocks_places (d : Dev) (r : Nat) (rd wr : Bool) : (setLocks d r rd wr).cipher.ranges.map KeyRange.place = d.cipher.ranges.map KeyRange.place := by
  unfold setLocks
  split
  · rw [rangeLock, pressPair_cipher]
    exact updRange_places (by exact fun _ => rfl)
  · exact (updRange_places (by exact fun _ => rfl)).trans (loadRangeKek_places d r)

theorem defineRange_places (d : Dev) (r : Nat) (b : LbaRange) :
    (r, b.nsid, b.slba, b.slba + b.count) ∈ (defineRange d r b).cipher.ranges.map KeyRange.place := by
  unfold defineRange
  extract_lets x fresh x' d1 d2
  have hidx : x.idx = r := by
    simp only [x]
    cases hfind : d.cipher.ranges.find? fun y => y.idx == r with
    | none => rfl
    | some y => simpa using List.find?_some hfind
  have hin : (r, b.nsid, b.slba, b.slba + b.count) ∈ d2.cipher.ranges.map KeyRange.place := by
    rw [loadRangeKek_places]
    refine List.mem_map.2 ⟨x', List.mem_append_right _ (List.mem_singleton_self _), ?_⟩
    rw [← hidx]
    rfl
  split
  · rwa [ranges_of_ckeep (ckeep_replacePair (ft := replacePairCipherF) (by decide) _ _ _ _ _) (by decide)]
  · exact hin

/-! ### A range's key replaced -/

theorem vacate_stays {d : Dev} {e : Nat} (h : (d.cipher.tags.any fun t => t.2 == e + 1) = false) : vacate d e = d := by
  unfold vacate
  rw [h]

/-- The device that a fresh key is drawn from. -/
theorem freshKey_slot (d : Dev) (kind kekSel nsid n : Nat) : (freshKey d kind kekSel nsid).2.slot n = d.slot n := rfl

section
variable {d : Dev} {i : Nat} (h : (d.cipher.tags.any fun t => t.2 == i / 2 + 1) = false) (kind kekSel nsid : Nat)
include h

theorem persistKey_slot (n : Nat) :
    (persistKey d i kind kekSel nsid).slot n = if n = i then slotNext (d.slot i) (freshKey d kind kekSel nsid).1 else d.slot n := by
  rw [persistKey, vacate_stays h]
  exact (setSlot_slot (freshKey d kind kekSel nsid).2 i _ n).trans (by rw [freshKey_slot, freshKey_slot])

theorem persistKey_tags : (persistKey d i kind kekSel nsid).cipher.tags = d.cipher.tags := by
  rw [persistKey, vacate_stays h]
  show (newKey d i kind kekSel nsid).cipher.tags = d.cipher.tags
  rw [tags_of_ckeep (ckeep_newKey (ft := newKeyCipherF) (by decide) d i kind kekSel nsid) (by decide)]

end

/-- A key made in its slot, none of it left in the cache. -/
def keyReplaced (kekSel nsid : Nat) (d : Dev) (i : Nat) : Dev :=
  syncWork ((persistKey d i (1 + i % 2) kekSel nsid).updCipher fun c => { c with cache := c.cache.filter fun k => k != i })

theorem keyReplaced_slot (kekSel nsid : Nat) (d : Dev) (i n : Nat) :
    (keyReplaced kekSel nsid d i).slot n = (persistKey d i (1 + i % 2) kekSel nsid).slot n := by
  have hcipher := syncWork_cipher ((persistKey d i (1 + i % 2) kekSel nsid).updCipher fun c => { c with cache := c.cache.filter fun k => k != i })
  exact slot_of_slots (by rw [keyReplaced, hcipher]; rfl) n

theorem keyReplaced_tags (kekSel nsid : Nat) (d : Dev) (i : Nat) :
    (keyReplaced kekSel nsid d i).cipher.tags = (persistKey d i (1 + i % 2) kekSel nsid).cipher.tags := by
  rw [keyReplaced, syncWork_cipher]
  rfl

theorem replacePair_replaces {d : Dev} {e : Nat} (kekSel nsid : Nat) (w : Option (Nat × Nat)) (hfree : pairInUse d e = false)
    (htags : (d.cipher.tags.any fun t => t.2 == e + 1) = false) :
    ((replacePair d e kekSel nsid w).slot (2 * e)).generation = ((d.slot (2 * e)).generation + 1) % 2 ^ 32 ∧
      ((replacePair d e kekSel nsid w).slot (2 * e)).state = 1 := by
  have heven : 2 * e / 2 = e := by omega
  have hodd : (2 * e + 1) / 2 = e := by omega
  have hfirst := htags
  rw [← heven] at hfirst
  have hsecond : ((keyReplaced kekSel nsid d (2 * e)).cipher.tags.any fun t => t.2 == (2 * e + 1) / 2 + 1) = false := by
    rw [keyReplaced_tags, persistKey_tags hfirst, hodd, htags]
  have heq : replacePair d e kekSel nsid w = keyReplaced kekSel nsid (keyReplaced kekSel nsid d (2 * e)) (2 * e + 1) := by
    unfold replacePair
    extract_lets fresh
    rw [if_neg (by rw [hfree]; decide)]
    rfl
  rw [heq, keyReplaced_slot, persistKey_slot hsecond, if_neg (by omega), keyReplaced_slot, persistKey_slot hfirst, if_pos rfl]
  exact ⟨rfl, rfl⟩

theorem replaceRange_eq {d : Dev} {r : KeyRange} (h cid : Nat) {n : Nat} (unlock : Bool)
    (hr : (d.cipher.ranges.filter fun x => x.idx + 1 == n) = [r]) (hfree : pairInUse d (rangePair r.idx) = false) :
    replaceRange d h cid n unlock = tcgAnswer (if unlock then setLocks (replacePair d (rangePair r.idx) n r.nsid (some (h, cid))) r.idx false false
      else replacePair d (rangePair r.idx) n r.nsid (some (h, cid))) h cid tcgOk [] := by
  have hidx : r.idx + 1 = n := by
    have hmem : r ∈ d.cipher.ranges.filter fun x => x.idx + 1 == n := by rw [hr]; exact List.mem_singleton_self r
    simpa using (List.mem_filter.1 hmem).2
  subst hidx
  have hpairs : (if r.idx + 1 = 0 then (d.host.nss.filter fun ns => classXts d ns.cls && !ns.kpio).map fun ns =>
      (tabGet 0 d.cipher.nsPair ns.nsid, 0, ns.nsid)
      else (d.cipher.ranges.filter fun x => x.idx + 1 == r.idx + 1).map fun x => (rangePair x.idx, r.idx + 1, x.nsid)) =
      [(rangePair r.idx, r.idx + 1, r.nsid)] := by
    rw [if_neg (by omega), hr]
    rfl
  unfold replaceRange
  rw [hpairs]
  extract_lets pairs held d1 d2
  have hheld : held = false := by simp [held, pairs, hfree]
  rw [if_neg (by rw [hheld]; decide)]
  have hd2 : d2 = if unlock then setLocks d1 r.idx false false else d1 := by
    cases unlock <;> rfl
  rw [hd2]
  rfl

theorem replaceRange_replaces {d : Dev} {r : KeyRange} (h cid : Nat) {n : Nat} (unlock : Bool)
    (hr : (d.cipher.ranges.filter fun x => x.idx + 1 == n) = [r]) (hfree : pairInUse d (rangePair r.idx) = false)
    (htags : (d.cipher.tags.any fun t => t.2 == rangePair r.idx + 1) = false) :
    ((replaceRange d h cid n unlock).slot (2 * rangePair r.idx)).generation = ((d.slot (2 * rangePair r.idx)).generation + 1) % 2 ^ 32 ∧
    ((replaceRange d h cid n unlock).slot (2 * rangePair r.idx)).state = 1 ∧
    (unlock = true → ∀ x ∈ (replaceRange d h cid n unlock).cipher.ranges, x.idx = r.idx → x.readLock = false ∧ x.writeLock = false) ∧
    (replaceRange d h cid n unlock).out = .cqe h 0 cid 0 0 :: .page h cid [tcgOk] :: d.out := by
  obtain ⟨hgen, hstate⟩ := replacePair_replaces n r.nsid (some (h, cid)) hfree htags
  have hout := out_of_keep (keep_replacePair (ft := replacePairFoot) (by decide) d (rangePair r.idx) n r.nsid (some (h, cid))) (by decide)
  rw [replaceRange_eq h cid unlock hr hfree]
  generalize replacePair d (rangePair r.idx) n r.nsid (some (h, cid)) = e at *
  cases unlock with
  | false =>
    exact ⟨hgen, hstate, fun h => (by cases h), by rw [tcgAnswer_out]; exact congrArg (fun l => _ :: _ :: l) hout⟩
  | true =>
    have hslot : (setLocks e r.idx false false).slot (2 * rangePair r.idx) = e.slot (2 * rangePair r.idx) :=
      slot_of_slots (slots_of_ckeep (ckeep_setLocks (ft := loadRangeKekCipherF) (by decide) e _ _ _) (by decide)) _
    refine ⟨(congrArg KeySlot.generation hslot).trans hgen, (congrArg KeySlot.state hslot).trans hstate,
      fun _ x hx hidx => setLocks_locks hx hidx, ?_⟩
    rw [if_pos rfl, tcgAnswer_out]
    exact congrArg (fun l => _ :: _ :: l) ((setLocks_out e r.idx false false).trans hout)

theorem keyed_of_keysPossible {d : Dev} (h : keysPossible d = true) : keyed d = true := by
  obtain ⟨h, hheld⟩ := Bool.and_eq_true_iff.1 h
  obtain ⟨-, hkek⟩ := Bool.and_eq_true_iff.1 h
  rw [keyed, hheld, hkek]
  rfl

/-- Settles O40: the session and the checks by their branches, ranges and keys by a lemma each. -/
theorem tcgRowsComplete : Obligations.TcgRowsComplete := by
  unfold Obligations.TcgRowsComplete
  refine ⟨?properties, ?start, ?ended, ?auth, ?get, ?set, ?define, ?genkey, ?random⟩
  case properties =>
    intro s h cid hruns htcg
    refine brings_of_run (execTcgProperties.eq_def h cid s) ?_
    rw [tcgRow, adminDo_runs cid _ hruns, if_neg (by rw [htcg]; decide)]
    have hdraws : (wakeChip s.dev).draws = s.dev.draws := draws_of_keep (keep_wakes s.dev) (by decide)
    have hout := wakeChip_out s.dev
    generalize wakeChip s.dev = w at *
    rw [← hdraws, ← hout]
    exact ⟨rfl, rfl⟩
  case start =>
    intro s h cid a hruns htcg h0 h1 hcred
    refine brings_of_run (execTcgStartSession.eq_def h cid a s) ?_
    have hout := wakeChip_out s.dev
    have hclosed : ∀ k : Nat, k = 0 ∨ k = 1 → ((wakeChip s.dev).tcg k).isOpen = false := by
      rintro k (rfl | rfl)
      · rw [wakeChip_tcg, h0]
      · rw [wakeChip_tcg, h1]
    have hbusy : (((wakeChip s.dev).tcg h.val).isOpen || ((wakeChip s.dev).tcg (1 - h.val)).isOpen) = false := by
      rw [hclosed _ (by omega), hclosed _ (by omega)]
      rfl
    rw [tcgRow, adminDo_runs cid _ hruns, if_neg (by rw [htcg]; decide), hbusy, if_neg (by decide)]
    generalize wakeChip s.dev = w at *
    by_cases ha : a.authority ≤ 65
    · have hauth := authenticate_tcg (w.setTcg h.val { isOpen := true }) h.val a
      have haout := authenticate_out (w.setTcg h.val { isOpen := true }) h.val a
      rw [tcg_setTcg] at hauth
      rw [if_neg (show ¬eraseMaster < a.authority from Nat.not_lt.2 ha), if_neg (by rw [hcred ha]; decide), if_pos ha]
      exact ⟨congrArg TcgSess.isOpen hauth, congrArg TcgSess.auths hauth, congrArg (fun l => _ :: _ :: l) (haout.trans hout)⟩
    · have hset := tcg_setTcg w h.val { isOpen := true }
      rw [if_pos (show eraseMaster < a.authority from Nat.lt_of_not_le ha), if_neg ha]
      exact ⟨congrArg TcgSess.isOpen hset, congrArg TcgSess.auths hset, congrArg (fun l => _ :: _ :: l) hout⟩
  case ended =>
    intro s h cid hruns htcg hopen
    refine brings_of_run (execTcgEndSession.eq_def h cid s) ?_
    rw [tcgRow_answers hruns hopen htcg]
    exact ⟨tcg_setTcg .., congrArg (fun l => _ :: _ :: l) (wakeChip_out s.dev)⟩
  case auth =>
    intro s h cid a hruns htcg hopen ha
    refine brings_of_run (execTcgAuthenticate.eq_def h cid a s) ?_
    rw [tcgRow_answers hruns hopen htcg, if_neg (show ¬eraseMaster < a.authority from Nat.not_lt.2 ha)]
    have hout := wakeChip_out s.dev
    have htcg' := wakeChip_tcg s.dev
    generalize wakeChip s.dev = w at *
    cases hcred : a.credentialOk with
    | false =>
      rw [if_pos (by decide)]
      exact ⟨congrArg (fun l => _ :: _ :: l) hout, fun hno => absurd hno (by decide), fun _ => congrArg TcgSess.auths (congrFun htcg' h.val)⟩
    | true =>
      rw [if_neg (by decide)]
      have hauth := authenticate_tcg w h.val a
      refine ⟨congrArg (fun l => _ :: _ :: l) ((authenticate_out ..).trans hout), fun _ => ?_, fun hno => absurd hno (by decide)⟩
      refine (congrArg (fun t : TcgSess => t.auths.contains a.authority) hauth).trans ?_
      dsimp only
      split
      next hin => exact hin
      next => simp
  case get =>
    intro s h cid a r hruns htcg hopen
    have hcipher := wakeChip_cipher s.dev
    refine ⟨fun hrange => ?_, fun hlow hhigh hr => ?_⟩
    · refine gives_of_run (execTcgGet.eq_def h cid a s) ?_
      rw [tcgRow_answers hruns hopen htcg, if_neg (by omega), if_pos hrange, hcipher]
      rfl
    · refine gives_of_run (execTcgGet.eq_def h cid a s) ?_
      rw [tcgRow_answers hruns hopen htcg, if_neg (by omega), if_neg (by omega), hcipher, hr]
      rfl
  case set =>
    intro s h cid a hruns htcg hopen hhigh hmay hkeyed hbounds
    have hmay' : mayRange (wakeChip s.dev) h.val a.range = true := by rw [mayRange, wakeChip_tcg, ← mayRange, hmay]
    have hcipher := wakeChip_cipher s.dev
    refine ⟨fun hrange => ?_, fun hlow hin => ?_⟩
    · refine brings_of_run (execTcgSet.eq_def h cid a s) ?_
      rw [tcgRow_answers hruns hopen htcg, if_neg (by omega), if_neg (by rw [hmay', hkeyed]; decide), if_pos hrange,
        if_neg (by rw [hbounds]; decide)]
      exact ⟨rfl, rfl⟩
    · refine brings_of_run (execTcgSet.eq_def h cid a s) ?_
      rw [tcgRow_answers hruns hopen htcg, if_neg (by omega), if_neg (by rw [hmay', hkeyed]; decide), if_neg (by omega)]
      dsimp only
      rw [hbounds, hcipher]
      dsimp only
      rw [if_pos hin]
      exact ⟨fun x hx hidx => setLocks_locks (d := wakeChip s.dev) hx hidx, rfl⟩
  case define =>
    intro s h cid a b hruns htcg hopen hlow hhigh hmay hkeys hbounds hok
    have hmay' : mayRange (wakeChip s.dev) h.val a.range = true := by rw [mayRange, wakeChip_tcg, ← mayRange, hmay]
    have hok' : boundsOk (wakeChip s.dev) (a.range - 1) b = true := by
      rw [← hok]
      simp only [boundsOk, localNs, wakeChip_ns?, wakeChip_cipher]
    refine brings_of_run (execTcgSet.eq_def h cid a s) ?_
    rw [tcgRow_answers hruns hopen htcg, if_neg (by omega), if_neg (by rw [hmay', keyed_of_keysPossible hkeys]; decide), if_neg (by omega)]
    dsimp only
    rw [hbounds]
    dsimp only
    rw [if_neg (by rw [hok']; decide), if_neg (by rw [hkeys]; decide)]
    have hplaces := setLocks_places (defineRange (wakeChip s.dev) (a.range - 1) b) (a.range - 1) a.lockRead a.lockWrite
    obtain ⟨x, hx, hplace⟩ := List.mem_map.1 (hplaces ▸ defineRange_places (wakeChip s.dev) (a.range - 1) b)
    obtain ⟨hidx, hrest⟩ := Prod.mk.inj hplace
    obtain ⟨hnsid, hrest⟩ := Prod.mk.inj hrest
    obtain ⟨hlo, hhi⟩ := Prod.mk.inj hrest
    exact ⟨x, hx, hidx, hnsid, hlo, hhi, setLocks_locks hx hidx⟩
  case genkey =>
    intro s h cid a r hruns htcg hopen hlow hhigh hkeys hr hfree htags
    have hcipher := wakeChip_cipher s.dev
    have hmay' (n : Nat) : mayRange (wakeChip s.dev) h.val n = mayRange s.dev h.val n := by rw [mayRange, wakeChip_tcg, mayRange]
    have hslot : (wakeChip s.dev).slot = s.dev.slot := by funext n; rw [Dev.slot, hcipher, Dev.slot]
    have hout := wakeChip_out s.dev
    have hkeyed := keyed_of_keysPossible hkeys
    have hreplaces (unlock : Bool) := replaceRange_replaces (d := wakeChip s.dev) h.val cid unlock (by rw [hcipher, hr])
      (by rw [pairInUse, copiesOf, wakeChip_host]; exact hfree) (by rw [hcipher, htags])
    rw [hslot, hout] at hreplaces
    refine ⟨fun hmay => ?_, fun hmay => ?_⟩
    · refine brings_of_run (execTcgGenkey.eq_def h cid a s) ?_
      rw [tcgRow_answers hruns hopen htcg, if_neg (by omega), if_neg (by rw [hmay', hmay, hkeyed]; decide), if_neg (by rw [hkeys]; decide)]
      obtain ⟨hgen, hstate, -, hanswer⟩ := hreplaces false
      exact ⟨hgen, hstate, hanswer⟩
    · refine brings_of_run (execTcgErase.eq_def h cid a s) ?_
      rw [tcgRow_answers hruns hopen htcg, if_neg (by omega), if_neg (by rw [hmay', eraseMaster, hmay, hkeyed]; decide),
        if_neg (by rw [hkeys]; decide)]
      obtain ⟨hgen, hstate, hlocks, hanswer⟩ := hreplaces true
      exact ⟨hgen, hstate, hlocks rfl, hanswer⟩
  case random =>
    intro s h cid count hruns htcg hopen hcount
    refine brings_of_run (execTcgRandom.eq_def h cid count s) ?_
    rw [tcgRow_answers hruns hopen htcg, if_neg (by omega)]
    have hdraws : (wakeChip s.dev).draws = s.dev.draws := draws_of_keep (keep_wakes s.dev) (by decide)
    have hout := wakeChip_out s.dev
    generalize wakeChip s.dev = w at *
    rw [← hdraws, ← hout]
    exact ⟨rfl, rfl⟩

end Sys2Proof.Machine
end

section
/-! PROOF. The compression engines. -/
namespace Sys2Proof.Machine

/-! ### Contexts of the streams -/

theorem ctxHead_ctx? {d : Dev} {c : Nat} {x : Ctx} (h : ctxHead d c = some x) : d.ctx? x.id = some x := by
  obtain ⟨id, -, hx⟩ := Option.bind_eq_some_iff.1 h
  rwa [Dev.id_of_ctx? hx]

theorem engineCtx_ctx? {d : Dev} {e : Nat} {x : Ctx} (h : engineCtx d e = some x) : d.ctx? x.id = some x := by
  obtain ⟨id, -, hx⟩ := Option.bind_eq_some_iff.1 h
  rwa [Dev.id_of_ctx? hx]

theorem stream_of_ctxs {d e : Dev} (h : e.comp.ctxs = d.comp.ctxs) (c : Nat) : e.stream c = d.stream c := by rw [Dev.stream, h, Dev.stream]

theorem dropWork_streams (d : Dev) (id : Nat) : (dropWork d id).comp.ctxs = d.comp.ctxs := by
  unfold dropWork
  extract_lets e
  rw [comp_of_keep (keep_syncWork (ft := syncWorkFoot) (by decide) _) (by decide)]
  have he : e.comp = d.comp := comp_of_keep (keep_cancelRemote (ft := originateFoot) (by decide) d id) (by decide)
  show e.comp.ctxs = d.comp.ctxs
  rw [he]

theorem finish_streams (d : Dev) (id st dw0 : Nat) : (finish d id st dw0).comp.ctxs = d.comp.ctxs := by
  unfold finish
  split
  · rfl
  next x hx =>
    extract_lets record e e'
    have he : e.comp.ctxs = d.comp.ctxs := by
      rw [dropWork_streams, comp_of_keep (keep_leaveTable (ft := leaveTableFoot) (by decide) d x) (by decide)]
    rw [syncHost_comp, ← he]
    simp only [e']
    split
    · rfl
    · rw [comp_of_keep (keep_chainRespond (ft := originateFoot) (by decide) _ _ _ _ _ _) (by decide)]
    all_goals rfl

/-- A stream's context after data has passed through it. -/
def streamPassed (d : Dev) (c : Nat) (history : Bool) (data : List Byte) : StreamCtx where
  holds := true
  hist := lastN winSize (if history then (d.stream c).hist ++ data else data)
  head := if history then ((d.stream c).head + data.length) % winSize else Config.freeValue d.draws % winSize
  chunks := ((d.stream c).chunks + 1) % 2 ^ 64
  total := ((d.stream c).total + data.length) % 2 ^ 64
  rest := if history then (d.stream c).rest.drop data.length
    else toBytes (Config.freeValue (d.draws + 1)) (winSize - (lastN winSize (if history then (d.stream c).hist ++ data else data)).length)

theorem passData_eq (d : Dev) (c : Nat) (history : Bool) (data : List Byte) : passData d c history data =
    macWritten ({ d with draws := d.draws + 2 }.updComp fun x => { x with ctxs := tabPut {} x.ctxs c (streamPassed d c history data) })
      0x3FF (ctxAddr { d with draws := d.draws + 2 } c) ctxSize := rfl

theorem passData_hist (d : Dev) (c : Nat) (history : Bool) (data : List Byte) :
    ((passData d c history data).stream c).hist = lastN winSize (if history then (d.stream c).hist ++ data else data) := by
  have hhist : (streamPassed d c history data).hist = lastN winSize (if history then (d.stream c).hist ++ data else data) := by simp only [streamPassed]
  rw [passData_eq, Dev.stream, comp_of_keep (keep_macWritten (ft := macWrittenFoot) (by decide) _ _ _ _) (by decide), ← hhist]
  generalize streamPassed d c history data = t
  rw [Dev.updComp_comp, tabGet_tabPut, if_pos rfl]

/-! ### The busy engines -/

theorem ones_testBit (p : Nat → Bool) (n : Nat) : (List.range n).foldl (fun b e => if p e then b + 2 ^ e else b) 0 < 2 ^ n ∧
    ∀ k, ((List.range n).foldl (fun b e => if p e then b + 2 ^ e else b) 0).testBit k = (decide (k < n) && p k) := by
  induction n with
  | zero => exact ⟨Nat.one_pos, fun k => by simp⟩
  | succ n ih =>
    obtain ⟨hlt, hbit⟩ := ih
    rw [List.range_succ, List.foldl_append]
    generalize (List.range n).foldl (fun b e => if p e then b + 2 ^ e else b) 0 = b at *
    have hpow : 2 ^ (n + 1) = 2 ^ n + 2 ^ n := by rw [Nat.pow_succ]; omega
    show (if p n then b + 2 ^ n else b) < 2 ^ (n + 1) ∧ ∀ k, (if p n then b + 2 ^ n else b).testBit k = (decide (k < n + 1) && p k)
    split
    next hp =>
      refine ⟨by omega, fun k => ?_⟩
      rw [Nat.add_comm, show 2 ^ n + b = 2 ^ n * 1 + b by rw [Nat.mul_one], Nat.testBit_two_pow_mul_add _ hlt]
      rcases Nat.lt_trichotomy k n with hk | rfl | hk
      · rw [if_pos hk, hbit, decide_eq_true hk, decide_eq_true (Nat.lt_succ_of_lt hk)]
      · simp [hp]
      · obtain ⟨m, rfl⟩ : ∃ m, k = n + (m + 1) := ⟨k - n - 1, by omega⟩
        simp [Nat.testBit_succ, show n + (m + 1) - n = m + 1 by omega]
    next hp =>
      refine ⟨by omega, fun k => ?_⟩
      rw [hbit]
      rcases Nat.lt_trichotomy k n with hk | rfl | hk
      · rw [decide_eq_true hk, decide_eq_true (Nat.lt_succ_of_lt hk)]
      · simp [hp]
      · simp [show ¬k < n by omega, show ¬k < n + 1 by omega]

theorem syncWork_busy {d : Dev} {e : Nat} (he : e < 8) (h : (d.comp.engines.map (·.1)).contains e = true) :
    (syncWork d).bit F.cmpEngStat_busy e = true := by
  unfold syncWork
  extract_lets bits reads d1 d2 d3 d4
  have hbits (l : List Nat) : (bits l).testBit e = l.contains e := by
    rw [(ones_testBit (fun e => l.contains e) 8).2 e, decide_eq_true he, Bool.true_and]
  rw [Dev.bit, Dev.rd_wr_ne _ _ _ _ _ _ _ _ (by decide), Dev.rd_wr_ne _ _ _ _ _ _ _ _ (by decide), Dev.rd_wr_ne _ _ _ _ _ _ _ _ (by decide),
    Dev.rd_wr_ne _ _ _ _ _ _ _ _ (by decide), Dev.rd_wr_same, show F.cmpEngStat_busy.w = 8 from rfl, Nat.testBit_mod_two_pow,
    decide_eq_true he, Bool.true_and, hbits, h]

/-! ### A frame placed in its zone -/

theorem zone?_of_nss {d e : Dev} (h : e.host.nss = d.host.nss) (nsid zi : Nat) : e.zone? nsid zi = d.zone? nsid zi := by
  rw [Dev.zone?, Dev.zone?, Dev.ns?, Dev.ns?, h]

theorem zone?_setPtr {d : Dev} {nsid zi : Nat} {ns : Ns} {z : Zone} (wp : Nat) (hns : d.ns? nsid = some ns) (hz : ns.zones[zi]? = some z) :
    ((setPtr d nsid zi wp).zone? nsid zi).map (·.wp) = some wp ∧ ∃ n, (setPtr d nsid zi wp).ns? nsid = some n := by
  unfold setPtr
  rw [hns]
  dsimp only
  have hset := ns?_updNs (g := fun m => { m with zones := m.zones.modify zi fun z =>
    { z with wp := wp, state := if zoneCap d ns ≤ wp then .full else match z.state with
      | .empty | .closed | .full => .implicitOpen
      | st => st } }) (by exact fun _ => rfl) hns
  refine ⟨?_, _, hset⟩
  rw [Dev.zone?]
  refine (congrArg (fun o : Option Ns => (o.bind fun ns => ns.zones[zi]?).map (·.wp)) hset).trans ?_
  simp [hz]

theorem placeFrame_places {d : Dev} {x : Ctx} {ns : Ns} {zi : Nat} {z : Zone} (f : CFrame) (hns : d.ns? x.c.nsid = some ns)
    (hz : ns.zones[zi]? = some z) :
    ((placeFrame d x ns zi z f).zone? x.c.nsid zi).map (·.wp) = some (z.wp + storedLbas f) ∧
      (x.id, x.c.nsid, (chunkToks (frameBytes f) (storedLbas f)).zipIdx.map fun t => (zi * zoneSize d ns + z.wp + t.2, Blk.data t.1)) ∈
        bufferData (placeFrame d x ns zi z f) := by
  unfold placeFrame
  extract_lets n start cells prev d1 d2 d3 d4 d5 d6
  have h1 : hkeep placeExtentHost d1 = hkeep placeExtentHost (setPtr d x.c.nsid zi (z.wp + n)) := hkeep_placeExtent (by decide) _ _ _ _
  have h2 : d2.host = d1.host := host_of_keep (keep_passData (ft := passDataFoot) (by decide) d1 _ _ _) (by decide)
  have h5 : hkeep releaseHost d5 = hkeep releaseHost d4 := hkeep_release (by decide) _ _ _ _
  have hlate : hkeep coverNextHost (syncHost (tryComplete d6 x.id)) = hkeep coverNextHost d5 :=
    (hkeep_syncHost _).trans ((hkeep_tryComplete (by decide) _ _).trans ((hkeep_pressWriters (by decide) _ _).trans (hkeep_coverNext (by decide) _ _)))
  refine ⟨?_, ?_⟩
  · obtain ⟨hwp, m, hm⟩ := zone?_setPtr (z.wp + n) hns hz
    have hnss3 : d3.host.nss = (setPtr d x.c.nsid zi (z.wp + n)).host.nss := by
      show d2.host.nss = _
      rw [h2, nss_of_hkeep h1 (by decide)]
    have hwp3 : (d3.zone? x.c.nsid zi).map (·.wp) = some (z.wp + n) := by rw [zone?_of_nss hnss3, hwp]
    have hm3 : d3.ns? x.c.nsid = some m := by rw [Dev.ns?, hnss3]; exact hm
    rw [zone?_of_nss ((nss_of_hkeep hlate (by decide)).trans (nss_of_hkeep h5 (by decide))), ← hwp3, Dev.zone?, Dev.zone?, hm3]
    rw [show d4.ns? x.c.nsid = some { m with hostWrites := m.hostWrites + n } from ns?_updNs (by exact fun _ => rfl) hm3]
    rfl
  · have hcells : cells.map (fun c => (c.1, c.2.blk)) =
        (chunkToks (frameBytes f) n).zipIdx.map fun t => (zi * zoneSize d ns + z.wp + t.2, Blk.data t.1) := by
      rw [List.map_map]
      rfl
    rw [← hcells]
    have hdata : bufferData (syncHost (tryComplete d6 x.id)) = bufferData d1 := by
      have hsync : bufferData (syncHost (tryComplete d6 x.id)) = bufferData (tryComplete d6 x.id) := bufferData_of_extents (by rw [syncHost_host])
      have hlast : bufferData d3 = bufferData d1 := (bufferData_of_extents (d := d2) rfl).trans (bufferData_of_extents (by rw [h2]))
      rw [hsync, bufferData_of_bufferView (bufferView_tryComplete _ _), bufferData_of_bufferView (bufferView_pressWriters _ _), bufferData_coverNext,
        bufferData_of_extents (extents_of_hkeep h5 (by decide)), ← hlast]
      exact bufferData_of_extents rfl
    rw [hdata]
    exact placeExtent_data ..

/-! ### Streams saved -/

theorem readStream_clean {d : Dev} {c : Nat} (h : (readStream d c).1 = false) :
    readStream d c = (false, (macRead d 0x3FF (ctxAddr d c) ctxSize).2) := by
  rcases hm : macRead d 0x3FF (ctxAddr d c) ctxSize with ⟨bad, e⟩
  simp only [readStream, hm] at h ⊢
  subst h
  rfl

theorem saveStream_saves {d : Dev} {x : Ctx} (h : (readStream d x.c.ctx).1 = false) : ∃ e,
    saveStream d x = finish (returnData e x (chunkToks (streamImage x.c.ctx (e.stream x.c.ctx)) 9)) x.id 0 0 ∧
      e.comp.ctxs = d.comp.ctxs ∧ e.host = d.host := by
  have hkeep := keep_macRead (ft := macReadFoot) (by decide) d 0x3FF (ctxAddr d x.c.ctx) ctxSize
  unfold saveStream
  rw [readStream_clean h]
  exact ⟨_, rfl, congrArg CompState.ctxs (comp_of_keep hkeep (by decide)), host_of_keep hkeep (by decide)⟩

theorem returnData_host {d : Dev} {x : Ctx} {h qid cid : Nat} {toks : List Nat} (horg : x.org = .host h qid cid) :
    returnData d x toks = d.emit (.hostData h qid cid toks) := by
  rw [returnData.eq_def, horg]

/-- Settles O36: each grant and each end by its branch, a placed frame by what the steps after it leave of zones and buffer. -/
theorem compressionRowsComplete : Obligations.CompressionRowsComplete := by
  unfold Obligations.CompressionRowsComplete
  refine ⟨?append, ?save, ?restore, ?read, ?dispatch, ?compressed, ?place, ?done⟩
  case append =>
    intro s ctx x hx hstage hkind
    refine gives_of_run (execContextGrant.eq_def ctx s) ?_
    rw [contextGrant.eq_def]
    simp only [hx, hkind]
    rw [if_neg (by rw [hstage]; decide)]
  case save =>
    intro s ctx h qid cid x hx hstage hkind horg hread
    refine brings_of_run (execContextGrant.eq_def ctx s) ?_
    rw [contextGrant.eq_def]
    simp only [hx, hkind]
    rw [if_neg (by rw [hstage]; decide)]
    obtain ⟨e, hsave, hctxs, hhost⟩ := saveStream_saves hread
    rw [hsave, returnData_host horg, stream_of_ctxs hctxs]
    have hx' := ctxHead_ctx? hx
    have hemit : (e.emit (.hostData h qid cid (chunkToks (streamImage x.c.ctx (s.dev.stream x.c.ctx)) 9))).ctx? x.id = some x := by
      rw [← hx']
      exact Dev.ctx?_of_ctxs (by rw [← hhost]; rfl) x.id
    exact ⟨((Onward.refl _).finish ..).reported (reported_emit ..), finish_reports 0 0 hemit horg, finish_gone ..⟩
  case restore =>
    intro s ctx h qid cid x st hx hstage hkind horg himage
    refine brings_of_run (execContextGrant.eq_def ctx s) ?_
    rw [contextGrant.eq_def]
    simp only [hx, hkind]
    rw [if_neg (by rw [hstage]; decide), if_pos (by rw [chainReady, horg]), restoreStream, himage]
    dsimp only
    have hkeep := keep_macWritten (ft := macWrittenFoot) (by decide) (s.dev.updComp fun y => { y with ctxs := tabPut {} y.ctxs x.c.ctx st }) 0x3FF
      (ctxAddr s.dev x.c.ctx) ctxSize
    have hx' := ctxHead_ctx? hx
    have hctx := (Dev.ctx?_of_ctxs (by rw [host_of_keep hkeep (by decide)]; rfl) x.id).trans hx'
    have hcomp := comp_of_keep hkeep (by decide)
    refine ⟨?_, finish_reports 0 0 hctx horg, finish_gone ..⟩
    rw [Dev.stream, finish_streams, hcomp, Dev.updComp_comp, tabGet_tabPut, if_pos rfl]
  case read =>
    intro s ctx x f hx hstage hkind hf hgcm hplain
    refine gives_of_run (execContextGrant.eq_def ctx s) ?_
    rw [contextGrant.eq_def]
    simp only [hx, hkind, hf]
    rw [if_neg (by rw [hstage]; decide), if_neg (by rw [hgcm]; decide), historyCheck_plain hplain]
  case dispatch =>
    intro s e id henginess hfree hid
    refine brings_of_run (execChunkDispatch.eq_def e s) ?_
    have hgo : (decide (s.dev.rd F.pwrPs_engines ≤ e.val) || s.dev.comp.engines.any fun x => x.1 == e.val) = false := by
      rw [hfree, Bool.or_false]
      exact decide_eq_false (Nat.not_le.2 henginess)
    rw [chunkDispatch, hgo, if_neg (by decide), hid]
    have hcomp (e : Dev) : (syncWork e).comp = e.comp := comp_of_keep (keep_syncWork (ft := syncWorkFoot) (by decide) e) (by decide)
    rw [hcomp]
    refine ⟨rfl, ?_, syncWork_busy e.isLt ?_⟩
    · refine Bool.eq_false_iff.2 fun hin => ?_
      simpa using (List.mem_filter.1 (List.contains_iff_mem.1 hin)).2
    · refine List.contains_iff_mem.2 (List.mem_map.2 ⟨(e.val, id), List.mem_append_right _ (List.mem_singleton_self _), rfl⟩)
  case compressed =>
    intro s e stream x ns hx hkind hns hpoison hnohist hgcm hok
    refine brings_of_run (execChunkCompressed.eq_def e stream false s) ?_
    rw [chunkCompressed.eq_def]
    simp only [hx, hkind, hns]
    simp only [hnohist, hpoison, hgcm, List.isEmpty_nil, Bool.not_true, Bool.or_false, Bool.false_eq_true, if_false, hok]
    have hcomp (e : Dev) : (syncWork e).comp = e.comp := comp_of_keep (keep_syncWork (ft := syncWorkFoot) (by decide) e) (by decide)
    have hhost (e : Dev) : (syncWork e).host = e.host := host_of_keep (keep_syncWork (ft := syncWorkFoot) (by decide) e) (by decide)
    refine ⟨?_, ?_, ?_⟩
    · rw [frameOf, hcomp]
      exact frameOf_putFrame ..
    · rw [Dev.ctx?_of_ctxs (congrArg HostState.ctxs (hhost _))]
      exact congrArg (Option.map (·.stage)) (Dev.ctx?_updCtx_same (g := fun y => { y with stage := .placing }) (by exact fun _ => rfl) (engineCtx_ctx? hx))
    · rw [hcomp]
      refine List.any_eq_false.2 fun z hz => ?_
      simpa using (List.mem_filter.1 hz).2
  case place =>
    intro s id zi start x ns f z hx hstage hns hf hzi hz hwritable hroom hstart
    refine brings_of_run (execFramePlacement.eq_def id s) ?_
    have hid := Dev.id_of_ctx? hx
    subst hid
    subst hzi
    have hgo : framePlacement x.id s.dev = placeFrame s.dev x ns (zoneIndex s.dev ns x.c.slba) z f := by
      rw [framePlacement.eq_def]
      simp only [hx, hns, hf, hz, hwritable]
      rw [if_neg (by rw [hstage]; decide), if_neg (Nat.not_lt.2 hroom)]
    obtain ⟨hzone, hdata⟩ := placeFrame_places (d := s.dev) (x := x) f hns hz
    rw [hgo]
    refine ⟨hzone, ?_⟩
    obtain ⟨ext, hext, hplaced⟩ := List.mem_map.1 hdata
    obtain ⟨hwid, hrest⟩ := Prod.mk.inj hplaced
    obtain ⟨-, hcells⟩ := Prod.mk.inj hrest
    refine ⟨ext, hext, hwid, fun j hj => ?_⟩
    have hlen : (chunkToks (frameBytes f) (storedLbas f)).length = storedLbas f := by simp [chunkToks]
    have hin : (start + j, Blk.data ((chunkToks (frameBytes f) (storedLbas f))[j]?.getD 0)) ∈ ext.cells.map fun c => (c.lba, c.now.blk) := by
      rw [hcells, hstart]
      refine List.mem_map.2 ⟨((chunkToks (frameBytes f) (storedLbas f))[j]?.getD 0, j), ?_, rfl⟩
      rw [List.mk_mem_zipIdx_iff_getElem?, List.getElem?_eq_getElem (by omega)]
      rfl
    obtain ⟨c, hc, heq⟩ := List.mem_map.1 hin
    exact ⟨c, hc, (Prod.mk.inj heq).1, (Prod.mk.inj heq).2⟩
  case done =>
    intro s e h qid cid x f output errs histErrs infos hx hkind horg hf hinf hlen hcrc
    refine brings_of_run (execDecompressionDone.eq_def e errs histErrs s) ?_
    rw [decompressionDone.eq_def]
    simp only [hx, hkind, hf, hinf, Option.map_some, Option.getD_some]
    rw [if_neg (by simp [hlen, hcrc]), returnData_host horg]
    have hhost : (passData (s.dev.addWrap F.cmpOutBytes_bytes f.origLen 0 e.val) f.ctxId f.history output).host =
        (s.dev.addWrap F.cmpOutBytes_bytes f.origLen 0 e.val).host :=
      host_of_keep (keep_passData (ft := passDataFoot) (by decide) (s.dev.addWrap F.cmpOutBytes_bytes f.origLen 0 e.val) _ _ _) (by decide)
    have hhist := passData_hist (s.dev.addWrap F.cmpOutBytes_bytes f.origLen 0 e.val) f.ctxId f.history output
    generalize passData (s.dev.addWrap F.cmpOutBytes_bytes f.origLen 0 e.val) f.ctxId f.history output = w at *
    have hmoved := hkeep_countMoved (ft := countMovedHost) (by decide) w x (hdasRead w x)
    have hcomp := comp_of_keep (keep_countMoved (ft := countMovedFoot) (by decide) w x (hdasRead w x)) (by decide)
    generalize countMoved w x (hdasRead w x) = u at *
    have hctx : (u.emit (.hostData h qid cid (chunkToks output (f.origLen / 4096)))).ctx? x.id = some x := by
      rw [← engineCtx_ctx? hx]
      exact Dev.ctx?_of_ctxs ((ctxs_of_hkeep hmoved (by decide)).trans (by rw [hhost]; rfl)) x.id
    refine ⟨((Onward.refl _).finish ..).reported (reported_emit ..), finish_reports 0 _ hctx horg, finish_gone .., ?_⟩
    rw [Dev.stream, finish_streams, Dev.emit_comp, hcomp]
    exact hhist

end Sys2Proof.Machine
end

section
/-! PROOF. Checkpoints, Homework and the retry ladder. -/
namespace Sys2Proof.Machine

def offlineCheckHost : Nat := hostFoot [.ports, .nss]
theorem hkeep_offlineCheck {ft : Nat} (hft : inFoot offlineCheckHost ft = true) (d : Dev) (ns : Ns) (zi head : Nat) : hkeep ft
    (offlineCheck d ns zi head) = hkeep ft d :=
  hkeep_mono hft (by simp +decide only [offlineCheck]; split <;> simp +decide
    only [↓hkeep_updZone, ↓hkeep_noticeAll, ↓hkeep_ite, ite_self])

def ladderFailedHost : Nat := hostFoot [.ports, .nss, .media, .detention, .detGen]
theorem hkeep_ladderFailed {ft : Nat} (hft : inFoot ladderFailedHost ft = true) (d : Dev) (ns : Ns) (e : DetEntry) (lba zi off
    cls unread : Nat) (parityEn : Bool) : hkeep ft (ladderFailed d ns e lba zi off cls unread parityEn) = hkeep ft d :=
  hkeep_mono hft (by simp +decide only [ladderFailed, ↓hkeep_cardBin, ↓hkeep_setMedia, ↓hkeep_detain, ↓hkeep_offlineCheck, ↓hkeep_ite,
    ite_self])

theorem hkeep_markBand {ft : Nat} (hft : inFoot updNsHost ft = true) (d : Dev) (nsid zi : Nat) (second : Bool) : hkeep ft
    (markBand d nsid zi second) = hkeep ft d :=
  hkeep_mono hft (by simp +decide only [markBand, ↓hkeep_updZone])

def ladderDecodedHost : Nat := hostFoot [.ports, .nss, .detention, .detGen]
theorem hkeep_ladderDecoded {ft : Nat} (hft : inFoot ladderDecodedHost ft = true) (d : Dev) (ns : Ns) (e : DetEntry) (lba zi off
    step lim cls : Nat) (weak : Bool) : hkeep ft (ladderDecoded d ns e lba zi off step lim cls weak) = hkeep ft d :=
  hkeep_mono hft (by simp +decide only [ladderDecoded, ↓hkeep_cardBin, ↓hkeep_detain, ↓hkeep_markBand, ↓hkeep_ite, ite_self])

def relocatingHost : Nat := hostFoot [.detention, .detGen]
theorem hkeep_relocating {ft : Nat} (hft : inFoot relocatingHost ft = true) (d : Dev) (nsid slba count on : Nat) : hkeep ft
    (relocating d nsid slba count on) = hkeep ft d :=
  hkeep_mono hft (by simp +decide only [relocating, ↓hkeep_updHost, hmask, if_true, implies_true, ↓hkeep_ite, ite_self])

def setLadderHost : Nat := hostFoot [.ladder]
theorem hkeep_setLadder {ft : Nat} (hft : inFoot setLadderHost ft = true) (d : Dev) (nsid lba step : Nat) : hkeep ft (setLadder
    d nsid lba step) = hkeep ft d :=
  hkeep_mono hft (by simp +decide only [setLadder, ↓hkeep_updHost, hmask, if_true, implies_true])

def internalCtxHost : Nat := hostFoot [.ctxs, .nextId, .order]
theorem hkeep_internalCtx {ft : Nat} (hft : inFoot internalCtxHost ft = true) (d : Dev) (nsid zi : Nat) (locks : List Lock) :
    hkeep ft (internalCtx d nsid zi locks) = hkeep ft d :=
  hkeep_mono hft (by simp +decide only [internalCtx, ↓hkeep_updHost, hmask, if_true, implies_true])

end Sys2Proof.Machine
end

section
/-! PROOF. Cleaning, maps, Homework and the retry ladder. -/
namespace Sys2Proof.Machine

/-! ### Tasks and contexts of the chip's own -/

theorem addTask_joins (d : Dev) (kind : MKind) (act : Nat) (prio : Bool) :
    ∃ t ∈ (addTask d kind act prio).host.tasks, t.kind = kind ∧ t.act = act := by
  unfold addTask
  split
  next h =>
    obtain ⟨t, ht, hmatch⟩ := List.any_eq_true.1 h
    refine ⟨{ t with prio := t.prio || prio }, List.mem_map.2 ⟨t, ht, if_pos hmatch⟩, ?_⟩
    simpa using hmatch
  next =>
    extract_lets n d1
    exact ⟨_, List.mem_append_right _ (List.mem_singleton.2 rfl), rfl, rfl⟩

/-- The context of a command of the chip's own on a zone. -/
def homeworkCtx (id nsid zi : Nat) (locks : List Lock) : Ctx where
  id := id
  fe := 6
  org := .internal
  c := { kind := .verify, nsid := nsid, value := zi + 1 }
  stage := .media
  begun := true
  locks := locks
  traffic := some .homework

theorem internalCtx_eq (d : Dev) (nsid zi : Nat) (locks : List Lock) : internalCtx d nsid zi locks = d.updHost fun s => { s with
    nextId := s.nextId + 1, ctxs := s.ctxs ++ [homeworkCtx d.host.nextId nsid zi locks], order := s.order ++ [d.host.nextId] } := rfl

theorem relocateAll_keeps (d : Dev) (nsid : Nat) (l : List Nat) :
    hkeep relocatingHost (forEach l d fun d l => relocating d nsid l 1 1) = hkeep relocatingHost d :=
  hkeep_forEach _ _ _ fun e l => hkeep_relocating (by decide) e nsid l 1 1

theorem cleanBegin_begins (d : Dev) (nsid act zi : Nat) :
    (∃ x : Ctx, x.id = d.host.nextId ∧ x.org = .internal ∧ x.traffic = some .homework ∧ (cleanBegin d nsid act zi).host.ctxs = d.host.ctxs ++ [x]) ∧
      ∃ t ∈ (cleanBegin d nsid act zi).host.tasks, t.kind = .clean nsid zi ∧ t.act = act := by
  unfold cleanBegin
  extract_lets lbas d1
  have h1 := relocateAll_keeps d nsid lbas
  rw [syncHost_host]
  refine ⟨⟨homeworkCtx d.host.nextId nsid zi [], rfl, rfl, rfl, ?_⟩, addTask_joins ..⟩
  rw [ctxs_of_hkeep (hkeep_addTask (ft := addTaskHost) (by decide) _ _ _ _) (by decide), internalCtx_eq, Dev.updHost_host,
    ctxs_of_hkeep h1 (by decide), nextId_of_hkeep h1 (by decide)]

/-! ### Maps -/

theorem checkpointMap_ns? {d : Dev} {nsid : Nat} {ns : Ns} (h : d.ns? nsid = some ns) :
    (checkpointMap d nsid).ns? nsid = some { ns with mapDirty := false, hostWrites := 0 } :=
  ns?_updNs (by exact fun _ => rfl) h

theorem recoverMap_ns? {d : Dev} (nsid : Nat) {n : Nat} {ns : Ns} (h : d.ns? n = some ns) : (recoverMap d nsid).ns? n = some ns := h

theorem mapsLoaded {w : Dev} {nsid : Nat} {ns : Ns} (h : w.ns? nsid = some ns) (l : List Nat) :
    (forEach l (syncHost ((checkpointMap w nsid).updNs nsid fun ns => { ns with mapReady := true })) hdaThroughStart).ns? nsid =
        some { ns with mapReady := true, mapDirty := false, hostWrites := 0 } ∧
      (forEach l (syncHost ((checkpointMap w nsid).updNs nsid fun ns => { ns with mapReady := true })) hdaThroughStart).host.media = w.host.media := by
  have hset := ns?_updNs (g := fun ns => { ns with mapReady := true }) (by exact fun _ => rfl) (checkpointMap_ns? h)
  have hmedia : ((checkpointMap w nsid).updNs nsid fun ns => { ns with mapReady := true }).host.media = w.host.media := rfl
  generalize (checkpointMap w nsid).updNs nsid (fun ns => { ns with mapReady := true }) = u at *
  have hkeep : hkeep updPortHost (forEach l (syncHost u) hdaThroughStart) = hkeep updPortHost u :=
    (hkeep_forEach _ _ _ fun e n => hkeep_hdaThroughStart (by decide) e n).trans (hkeep_syncHost _)
  refine ⟨?_, (media_of_hkeep hkeep (by decide)).trans hmedia⟩
  rw [Dev.ns?, nss_of_hkeep hkeep (by decide), ← Dev.ns?, hset]

/-! ### Homework -/

/-- Whether Homework finds a zone to be read again. -/
def marksOf (d : Dev) (nsid zi : Nat) : Option (Bool × Bool) := (d.zone? nsid zi).map fun z => (z.markA, z.markB)

theorem markBand_marks {d : Dev} {nsid zi : Nat} {ns : Ns} {z : Zone} (hns : d.ns? nsid = some ns) (hz : ns.zones[zi]? = some z) (second : Bool) :
    marksOf (markBand d nsid zi second) nsid zi = some (if second then (z.markA, true) else (true, z.markB)) := by
  have hset := ns?_updNs (g := fun m => { m with zones := m.zones.modify zi fun z => if second then { z with markB := true } else { z with markA := true } })
    (by exact fun _ => rfl) hns
  refine (congrArg (fun o : Option Ns => (o.bind fun ns => ns.zones[zi]?).map fun z => (z.markA, z.markB)) hset).trans ?_
  cases second <;> simp [hz]

theorem marksOf_zone {d : Dev} {nsid zi : Nat} {ns : Ns} {z : Zone} (hns : d.ns? nsid = some ns) (hz : ns.zones[zi]? = some z) :
    marksOf d nsid zi = some (z.markA, z.markB) := by
  rw [marksOf, Dev.zone?, hns]
  exact congrArg _ hz

theorem cardCount_rd (d : Dev) (i n : Nat) (f : Fld) (k l : Nat) : (cardCount d i n).rd f k l = d.rd f k l := by
  unfold cardCount
  split <;> rfl

theorem cardCount_host (d : Dev) (i n : Nat) : (cardCount d i n).host = d.host := by
  unfold cardCount
  split <;> rfl

/-- A zone's rewrite begun: its context, its share of the buffer, its task. -/
def rewriteBegin (d : Dev) (nsid zi act n : Nat) (lock : Lock) (h : HeldDirty) (lbas : List Nat) (second : Bool) : Dev :=
  let d := cardCount ((internalCtx d nsid zi [lock]).updHost fun s => { s with held := s.held ++ [h] }) 6 n
  let d := forEach lbas d fun d l => relocating d nsid l 1 1
  syncHost (addTask d (.homeWrite nsid zi second) act false)

theorem rewriteBegin_begins (d : Dev) (nsid zi act n : Nat) (lock : Lock) (h : HeldDirty) (lbas : List Nat) (second : Bool) :
    (rewriteBegin d nsid zi act n lock h lbas second).host.held = d.host.held ++ [h] ∧
      (rewriteBegin d nsid zi act n lock h lbas second).host.ctxs = d.host.ctxs ++ [homeworkCtx d.host.nextId nsid zi [lock]] ∧
      (rewriteBegin d nsid zi act n lock h lbas second).host.order = d.host.order ++ [d.host.nextId] ∧
      ∃ t ∈ (rewriteBegin d nsid zi act n lock h lbas second).host.tasks, t.kind = .homeWrite nsid zi second ∧ t.act = act := by
  unfold rewriteBegin
  extract_lets d1 d2
  have h1 : d1.host = ((internalCtx d nsid zi [lock]).updHost fun s => { s with held := s.held ++ [h] }).host := cardCount_host ..
  have h2 : hkeep relocatingHost d2 = hkeep relocatingHost d1 := relocateAll_keeps d1 nsid lbas
  have h3 := hkeep_addTask (ft := addTaskHost) (by decide) d2 (.homeWrite nsid zi second) act false
  rw [syncHost_host, held_of_hkeep h3 (by decide), ctxs_of_hkeep h3 (by decide), order_of_hkeep h3 (by decide), held_of_hkeep h2 (by decide),
    ctxs_of_hkeep h2 (by decide), order_of_hkeep h2 (by decide), h1, internalCtx_eq]
  exact ⟨rfl, rfl, rfl, addTask_joins ..⟩

/-- Homework's read done: no longer due on the tracks, counted, and the band marked where its margin is weak. -/
def bandRead (d : Dev) (c n nsid zi act head lo hi : Nat) (second : Bool) (errs iters : Nat) : Dev :=
  let d := d.updHost fun s => { s with homeworkDue := s.homeworkDue.filter fun x =>
    !(x.1 == act && x.2.1 == head && decide (lo ≤ x.2.2 ∧ x.2.2 ≤ hi)) }
  let d := cardCount d c n
  if weakMargin d (channelOf d act head) errs iters then markBand d nsid zi second else d

theorem bandRead_marks {d : Dev} {c n nsid zi : Nat} {ns : Ns} {z : Zone} (hns : d.ns? nsid = some ns) (hz : ns.zones[zi]? = some z)
    (act head lo hi : Nat) (second : Bool) (errs iters : Nat) :
    marksOf (bandRead d c n nsid zi act head lo hi second errs iters) nsid zi =
        some (if second then (z.markA, z.markB || weakMargin d (channelOf d act head) errs iters)
          else (z.markA || weakMargin d (channelOf d act head) errs iters, z.markB)) ∧
      (bandRead d c n nsid zi act head lo hi second errs iters).host.homeworkDue = d.host.homeworkDue.filter fun x =>
        !(x.1 == act && x.2.1 == head && decide (lo ≤ x.2.2 ∧ x.2.2 ≤ hi)) := by
  unfold bandRead
  extract_lets d1 d2
  have hmargin : weakMargin d2 (channelOf d2 act head) errs iters = weakMargin d (channelOf d act head) errs iters := by
    simp only [weakMargin, channelOf, chnHead, d2, cardCount_rd]
    rfl
  have hhost : d2.host = d1.host := cardCount_host ..
  have hns2 : d2.ns? nsid = some ns := by
    rw [Dev.ns?, hhost]
    exact hns
  rw [hmargin]
  cases weakMargin d (channelOf d act head) errs iters with
  | true =>
    rw [if_pos rfl]
    refine ⟨(markBand_marks hns2 hz second).trans (by cases second <;> simp), ?_⟩
    rw [homeworkDue_of_hkeep (hkeep_markBand (ft := updNsHost) (by decide) d2 nsid zi second) (by decide), hhost]
    rfl
  | false =>
    rw [if_neg (by decide)]
    refine ⟨(marksOf_zone hns2 hz).trans (by cases second <;> simp), ?_⟩
    rw [hhost]
    rfl

/-! ### The ladder -/

theorem ladderAt_setLadder (d : Dev) (nsid lba step : Nat) : ladderAt (setLadder d nsid lba step) nsid lba = step :=
  (tabGet_tabPut 0 d.host.ladder (nsid % 1024 + 1024 * lba) step (nsid % 1024 + 1024 * lba)).trans (if_pos rfl)

theorem ladderAt_of_hkeep {d e : Dev} {m : Nat} (h : hkeep m e = hkeep m d) (hm : m.testBit HField.ladder.ctorIdx = false) (nsid lba : Nat) :
    ladderAt e nsid lba = ladderAt d nsid lba := by rw [ladderAt, ladder_of_hkeep h hm, ladderAt]

/-- The channel's result as a ladder step shows it. -/
def ladderShown (d : Dev) (c step status iters errs : Nat) : Dev :=
  (((d.wr F.chnResult_step step c).wr F.chnResult_status status c).wr F.chnResult_iter iters c).wr F.chnResult_errs (satTo 16 errs) c

theorem nextStep_lt {d : Dev} {c last step : Nat} (h : nextStep d c last = some step) : step < 9 := List.mem_range.1 (List.mem_of_find?_eq_some h)

theorem ladderShown_shows (d : Dev) (c : Nat) {step : Nat} (hstep : step < 9) (status iters errs : Nat) :
    (ladderShown d c step status iters errs).rd F.chnResult_step c = step ∧
      (ladderShown d c step status iters errs).rd F.chnResult_status c = status % 8 ∧
      (ladderShown d c step status iters errs).rd F.chnResult_iter c = iters % 64 ∧
      (ladderShown d c step status iters errs).rd F.chnResult_errs c = min errs 65535 := by
  unfold ladderShown
  refine ⟨?_, ?_, ?_, ?_⟩
  · rw [Dev.rd_wr_ne _ _ _ _ _ _ _ _ (by decide), Dev.rd_wr_ne _ _ _ _ _ _ _ _ (by decide), Dev.rd_wr_ne _ _ _ _ _ _ _ _ (by decide), Dev.rd_wr_same]
    exact Nat.mod_eq_of_lt (by show step < 16; omega)
  · rw [Dev.rd_wr_ne _ _ _ _ _ _ _ _ (by decide), Dev.rd_wr_ne _ _ _ _ _ _ _ _ (by decide), Dev.rd_wr_same]
    rfl
  · rw [Dev.rd_wr_ne _ _ _ _ _ _ _ _ (by decide), Dev.rd_wr_same]
    rfl
  · rw [Dev.rd_wr_same]
    exact Nat.mod_eq_of_lt (by show satTo 16 errs < 2 ^ 16; exact satTo_lt ..)

/-- What a ladder step that failed leaves: the next step's turn, or after the last one the block given up. -/
def ladderFails (d : Dev) (c nsid lba step : Nat) (last : Bool) (ns : Ns) (e : DetEntry) (zi off cls unread : Nat) : Dev :=
  let d := setLadder d nsid lba (if last then 0 else step)
  if last then ladderFailed d ns e lba zi off cls unread (d.flag F.chnLadder_parity_en c) else d

theorem ladderFails_at (d : Dev) (c nsid lba step : Nat) (last : Bool) (ns : Ns) (e : DetEntry) (zi off cls unread : Nat) :
    ladderAt (ladderFails d c nsid lba step last ns e zi off cls unread) nsid lba = if last then 0 else step := by
  unfold ladderFails
  extract_lets d1
  have h1 : ladderAt d1 nsid lba = if last then 0 else step := ladderAt_setLadder ..
  split
  · rw [ladderAt_of_hkeep (hkeep_ladderFailed (ft := ladderFailedHost) (by decide) d1 ns e lba zi off cls unread _) (by decide), h1]
    simp [*]
  · rw [h1]
    simp [*]

theorem ladderFails_rd (d : Dev) (c nsid lba step : Nat) (last : Bool) (ns : Ns) (e : DetEntry) (zi off cls unread : Nat) {f : Fld}
    (hf : detainFoot.testBit (32 + f.id) = false) (i j : Nat) :
    (ladderFails d c nsid lba step last ns e zi off cls unread).rd f i j = d.rd f i j := by
  unfold ladderFails
  extract_lets d1
  split
  · rw [rd_of_keep (keep_ladderFailed (ft := detainFoot) (by decide) d1 ns e lba zi off cls unread _) hf]
    rfl
  · rfl

section
variable {d : Dev} {act head nsid lba step : Nat} {held : Bool} (unread : Nat) {ns : Ns} (hns : d.ns? nsid = some ns)
  (hstep : nextStep d (channelOf d act head) (ladderAt d nsid lba) = some step) (hmapped : (d.mediaBlk nsid lba).mapped = true)
  (hact : (d.mediaBlk nsid lba).act = act)
include hns hstep hmapped hact

theorem ladderStep_skips (r : LadderRes) (hlow : step ≤ 3) : ∃ e zi off cls, ladderStep act head nsid lba step false unread r d =
    ladderFails ({ d with draws := d.draws + 1 }.setFlag F.chnResult_skipped true (channelOf d act head)) (channelOf d act head) nsid lba step
      (nextStep d (channelOf d act head) step).isNone ns e zi off cls unread := by
  rw [ladderStep, hns]
  dsimp only
  rw [if_neg (by simp [hstep, hmapped, hact]), if_pos (by simp [hlow])]
  exact ⟨_, _, _, _, rfl⟩

theorem ladderStep_decodes (errs iters : Nat) (hlate : 4 ≤ step ∨ held = true) : ∃ e zi off lim cls weak,
    ladderStep act head nsid lba step held unread (.decoded errs iters) d =
      ladderDecoded (ladderShown (setLadder { d with draws := d.draws + 1 } nsid lba 0) (channelOf d act head) step 0 iters errs) ns e lba zi off step lim
        cls weak := by
  have hnow : (decide (step ≤ 3) && !held) = false := by
    rcases hlate with h | h
    · rw [decide_eq_false (by omega), Bool.false_and]
    · rw [h, Bool.not_true, Bool.and_false]
  rw [ladderStep, hns]
  dsimp only
  rw [if_neg (by simp [hstep, hmapped, hact]), hnow, if_neg (by decide)]
  exact ⟨_, _, _, _, _, _, rfl⟩

theorem ladderStep_fails (hlate : 4 ≤ step ∨ held = true) : ∃ e zi off cls, ladderStep act head nsid lba step held unread .failed d =
    ladderFails (ladderShown { d with draws := d.draws + 1 } (channelOf d act head) step 1 0 0) (channelOf d act head) nsid lba step
      (nextStep d (channelOf d act head) step).isNone ns e zi off cls unread := by
  have hnow : (decide (step ≤ 3) && !held) = false := by
    rcases hlate with h | h
    · rw [decide_eq_false (by omega), Bool.false_and]
    · rw [h, Bool.not_true, Bool.and_false]
  rw [ladderStep, hns]
  dsimp only
  rw [if_neg (by simp [hstep, hmapped, hact]), hnow, if_neg (by decide)]
  exact ⟨_, _, _, _, rfl⟩

end

/-- Settles O41: each row by its branch and by what the steps after it leave. -/
theorem mediaWorkRowsComplete : Obligations.MediaWorkRowsComplete := by
  unfold Obligations.MediaWorkRowsComplete
  refine ⟨?clean, ?checkpoint, ?load, ?read, ?rewrite, ?ladder⟩
  case clean =>
    intro s nsid band act ns hns hfree hclean
    refine brings_of_run (execCleaningStart.eq_def nsid act band s) ?_
    rw [cleaningStart, hns]
    dsimp only
    rw [if_pos ⟨hfree, hclean⟩]
    exact cleanBegin_begins ..
  case checkpoint =>
    intro s nsid ns hns hzoned hready hdirty
    refine brings_of_run (execMapCheckpoint.eq_def nsid s) ?_
    have hgo : (ns.zoned || !ns.mapReady || !(ns.mapDirty || decide (2 ^ 20 ≤ ns.hostWrites))) = false := by
      have hor : (ns.mapDirty || decide (2 ^ 20 ≤ ns.hostWrites)) = true := by simpa using hdirty
      rw [hzoned, hready, hor]
      rfl
    rw [mapCheckpoint, hns]
    dsimp only
    rw [hgo, if_neg (by decide), syncHost_host, Dev.ns?, syncHost_host, ← Dev.ns?]
    exact ⟨checkpointMap_ns? hns, (tabGet_tabPut [] s.dev.host.mapCk nsid (nsMedia s.dev nsid) nsid).trans (if_pos rfl), rfl⟩
  case load =>
    intro s nsid ns hns hready hhdas
    refine brings_of_run (execMapLoad.eq_def nsid s) ?_
    have hall : ((((List.range 8).filter fun a => ns.actMask.testBit a).map (· / 2)).eraseDups).all (hdaReady s.dev) = true := by
      refine List.all_eq_true.2 fun n hn => ?_
      obtain ⟨a, ha, rfl⟩ := List.mem_map.1 (List.mem_eraseDups.1 hn)
      obtain ⟨hlt, hbit⟩ := List.mem_filter.1 ha
      exact hhdas a (List.mem_range.1 hlt) hbit
    rw [mapLoad, hns]
    dsimp only
    rw [if_neg (by rw [hready, hall]; decide)]
    obtain ⟨hloaded, hmedia⟩ := mapsLoaded (recoverMap_ns? nsid hns)
      ((((List.range 8).filter fun a => ns.actMask.testBit a).map (· / 2)).eraseDups)
    exact ⟨hloaded, hmedia⟩
  case read =>
    intro s act head band errs iters i second weak ns z hready hwork hheld howner hns hz hsecond hsectors hweak
    refine brings_of_run (execHomeworkRead.eq_def act head band ⟨errs, iters⟩ s) ?_
    have heq : homeworkRead act.val head.val band errs iters s.dev = bandRead s.dev 6 (bandSectors s.dev ns z second) ns.nsid i act.val head.val
        (bandTrack s.dev (act.val / 2) band 0) (bandTrack s.dev (act.val / 2) band (fmtBandMib s.dev (act.val / 2) * 256 - 1)) second errs iters := by
      rw [homeworkRead, if_neg (by rw [hready, hwork, hheld]; decide), howner]
      dsimp only
      rw [hz]
      dsimp only
      rw [← hsecond, if_neg hsectors]
      rfl
    rw [heq]
    obtain ⟨hmarks, hdue⟩ := bandRead_marks (c := 6) (n := bandSectors s.dev ns z second) hns hz act.val head.val
      (bandTrack s.dev (act.val / 2) band 0) (bandTrack s.dev (act.val / 2) band (fmtBandMib s.dev (act.val / 2) * 256 - 1)) second errs iters
    rw [← hweak] at hmarks
    refine ⟨hmarks, fun x hx => ?_⟩
    rw [hdue] at hx
    rintro ⟨h1, h2, h3, h4⟩
    simpa [h1, h2, h3, Nat.not_lt.2 h4] using (List.mem_filter.1 hx).2
  case rewrite =>
    intro s nsid zi units key second ns z x hns hzoned hz hmark hfull hready hheld hwork hsecond hunits hroom hnone hkey hx hlock hfree
    refine brings_of_run (execHomeworkRewrite.eq_def nsid zi s) ?_
    have hkey2 : ((nsid * 2 ^ 20 + zi) * 2 + (!z.markA).toNat) / 2 = nsid * 2 ^ 20 + zi := by
      have := Bool.toNat_le (!z.markA)
      omega
    have hprobe : lockFree s.dev { id := s.dev.host.nextId, fe := 6, org := .internal, c := { kind := .verify, nsid := nsid }, locks :=
        [{ excl := false, nsid := nsid, lo := zi * zoneSize s.dev ns, hi := (zi + 1) * zoneSize s.dev ns }] } = true := by
      rw [← hlock, hx]
      rfl
    subst hunits hsecond
    have hroom' : decide (boundAll s.dev < dirtyAll s.dev + fmtBandMib s.dev (z.act / 2) * 256) = false := decide_eq_false (Nat.not_lt.2 hroom)
    have hlate : ¬(decide (z.state ≠ .full) || (s.dev.host.held.any fun h => h.kind == 2 && h.key / 2 ==
        ((nsid * 2 ^ 20 + zi) * 2 + (!z.markA).toNat) / 2) || !lockFree s.dev { id := s.dev.host.nextId, fe := 6, org := .internal, c := { kind := .verify, nsid := nsid }, locks :=
        [{ excl := false, nsid := nsid, lo := zi * zoneSize s.dev ns, hi := (zi + 1) * zoneSize s.dev ns }] } || !internalFree s.dev) = true := by
      rw [hkey2, hnone, hprobe, hfree]
      simp [hfull]
    obtain ⟨n, lbas, heq⟩ : ∃ n lbas, homeworkRewrite nsid zi s.dev = rewriteBegin s.dev nsid zi z.act n
        { excl := false, nsid := nsid, lo := zi * zoneSize s.dev ns, hi := (zi + 1) * zoneSize s.dev ns }
        { kind := 2, key := key, hda := z.act / 2, units := fmtBandMib s.dev (z.act / 2) * 256 } lbas (!z.markA) := by
      rw [homeworkRewrite, hns, hz, hkey]
      dsimp only
      rw [hmark, hready, hheld, hwork, hroom', if_neg (by decide), hzoned, if_neg (by decide), if_neg hlate]
      exact ⟨_, _, rfl⟩
    obtain ⟨h1, h2, h3, h4⟩ := rewriteBegin_begins s.dev nsid zi z.act n
        { excl := false, nsid := nsid, lo := zi * zoneSize s.dev ns, hi := (zi + 1) * zoneSize s.dev ns }
        { kind := 2, key := key, hda := z.act / 2, units := fmtBandMib s.dev (z.act / 2) * 256 } lbas (!z.markA)
    rw [heq, hx]
    exact ⟨h1, h2, h3, h4⟩
  case ladder =>
    intro s act head nsid lba step erasures errs iters c held ns hns hc hstep hmapped hact
    subst hc
    refine ⟨fun hlow hheld r => ?_, fun hlate => ?_, fun hlate => ?_⟩
    · refine brings_of_run (execRetryLadderStep.eq_def act head nsid lba step held erasures r s) ?_
      subst hheld
      obtain ⟨e, zi, off, cls, heq⟩ := ladderStep_skips (head := head.val) erasures hns hstep hmapped hact r hlow
      rw [heq]
      refine ⟨?_, ladderFails_at ..⟩
      rw [Dev.flag, ladderFails_rd _ _ _ _ _ _ _ _ _ _ _ _ (by decide), ← Dev.flag]
      exact Dev.flag_setFlag _ F.chnResult_skipped true _ 0 (by decide)
    · refine brings_of_run (execRetryLadderStep.eq_def act head nsid lba step held erasures (.decoded errs iters) s) ?_
      obtain ⟨e, zi, off, lim, cls, weak, heq⟩ := ladderStep_decodes (head := head.val) erasures hns hstep hmapped hact errs iters hlate
      rw [heq]
      obtain ⟨h1, h2, h3, h4⟩ := ladderShown_shows (setLadder { s.dev with draws := s.dev.draws + 1 } nsid lba 0) (channelOf s.dev act head) (nextStep_lt hstep) 0 iters errs
      have hlast := keep_ladderDecoded (ft := detainFoot) (by decide) (ladderShown (setLadder { s.dev with draws := s.dev.draws + 1 } nsid lba 0)
        (channelOf s.dev act head) step 0 iters errs) ns e lba zi off step lim cls weak
      refine ⟨(rd_of_keep hlast (by decide) _ 0).trans h1, (rd_of_keep hlast (by decide) _ 0).trans h2, (rd_of_keep hlast (by decide) _ 0).trans h3,
        (rd_of_keep hlast (by decide) _ 0).trans h4, ?_⟩
      rw [ladderAt_of_hkeep (hkeep_ladderDecoded (ft := ladderDecodedHost) (by decide) _ _ _ _ _ _ _ _ _ _) (by decide)]
      exact ladderAt_setLadder ..
    · refine brings_of_run (execRetryLadderStep.eq_def act head nsid lba step held erasures .failed s) ?_
      obtain ⟨e, zi, off, cls, heq⟩ := ladderStep_fails (head := head.val) erasures hns hstep hmapped hact hlate
      rw [heq]
      obtain ⟨h1, h2, -, -⟩ := ladderShown_shows { s.dev with draws := s.dev.draws + 1 } (channelOf s.dev act head) (nextStep_lt hstep) 1 0 0
      exact ⟨(ladderFails_rd _ _ _ _ _ _ _ _ _ _ _ _ (by decide) _ 0).trans h1, (ladderFails_rd _ _ _ _ _ _ _ _ _ _ _ _ (by decide) _ 0).trans h2,
        ladderFails_at ..⟩

end Sys2Proof.Machine
end

section
/-! PROOF. Lookups, fills and maintenance of the map cache. -/
namespace Sys2Proof.Machine

/-! ### The slots under the cache's operations -/

theorem mapSlot_sync (d : Dev) (k : Nat) : mapSlot (syncMap d) k = mapSlot d k := mapSlot_of_entries rfl k

theorem syncMap_map (d : Dev) : (syncMap d).map = d.map := rfl

theorem syncMap_flag (d : Dev) (f : Fld) (hf : F.mapStat_dirty.id ≠ f.id ∧ F.mapStat_side.id ≠ f.id) : 
    (syncMap d).flag f 0 0 = d.flag f 0 0 :=
  (Dev.flag_wr_ne _ _ _ _ _ _ _ _ hf.2).trans (Dev.flag_wr_ne _ _ _ _ _ _ _ _ hf.1)

theorem pageFromDram_map (d : Dev) (page : Nat) : (pageFromDram d page).2.map = d.map :=
  map_of_keep (keep_pageFromDram (ft := macReadFoot) (by decide) d page) (by decide)

theorem pageToDram_poisoned {d : Dev} {page : Nat} : (pageToDram d page true).map.poisoned.contains page = true := by
  simp [pageToDram]

section
variable {d : Dev} {i : Nat} {e : MapEntry} (hslot : mapSlot d i = some e)
include hslot

theorem cleanEntry_slot : mapSlot (cleanEntry d i) i = some { e with dirty := false } := by
  simp only [cleanEntry, hslot]
  split
  next => rw [mapSlot_set, if_pos rfl]
  next hclean =>
    rw [hslot]
    obtain ⟨page, dirty, poison, filling⟩ := e
    cases dirty
    · rfl
    · exact absurd rfl hclean

theorem cleanEntry_poisoned (hdirty : e.dirty = true) (hpoison : e.poison = true) :
    (cleanEntry d i).map.poisoned.contains e.page = true := by
  simp only [cleanEntry, hslot, if_pos hdirty, hpoison]
  exact pageToDram_poisoned

/-- A write leaves the entry dirty unless a disable runs, which writes it through. -/
theorem writeEntry_slot : mapSlot (writeEntry d i e) i = some { e with dirty := e.dirty || !d.flag F.mapStat_disabling } := by
  rw [writeEntry]
  split
  next hdis => rw [mapSlot_of_entries (pageToDram_entries ..), hslot, hdis, Bool.not_true, Bool.or_false]
  next hdis => rw [mapSlot_set, if_pos rfl, eq_false_of_ne_true hdis, Bool.not_false, Bool.or_true]

end

/-! ### Lookups -/

/-- The device of a hit in slot `i`: counted, and its write done. -/
def hitCounted (write : Bool) (i : Nat) (e : MapEntry) (d : Dev) : Dev :=
  if write then writeEntry (d.addWrap F.mapHits_count 1) i e else d.addWrap F.mapHits_count 1

theorem hitCounted_hits (write : Bool) (i : Nat) (e : MapEntry) (d : Dev) :
    (hitCounted write i e d).rd F.mapHits_count = (d.rd F.mapHits_count + 1) % 2 ^ F.mapHits_count.w := by
  rw [hitCounted]
  split
  · exact (rd_of_keep (keep_writeEntry (ft := pageToDramFoot) (by decide) _ i e) (by decide) 0 0).trans (Dev.rd_wr_same ..)
  · exact Dev.rd_wr_same ..

section
variable {d : Dev} {page i : Nat} {e : MapEntry} (hon : d.flag F.mapStat_enabled = true) (hat : pageIndex d page = some i)
  (hslot : mapSlot d i = some e)
include hslot

theorem hitCounted_slot (write : Bool) :
    mapSlot (hitCounted write i e d) i = some { e with dirty := e.dirty || (write && !d.flag F.mapStat_disabling) } := by
  have hcounted : mapSlot (d.addWrap F.mapHits_count 1) i = some e := hslot
  cases write with
  | false => rw [hitCounted, if_neg (by decide), hcounted, Bool.false_and, Bool.or_false]
  | true =>
    rw [hitCounted, if_pos rfl, writeEntry_slot hcounted, Bool.true_and, Dev.addWrap, Dev.flag_wr_ne _ _ _ _ _ _ _ _ (by decide)]

include hon hat

theorem mapLookup_hit (hsound : e.poison = false) (write : Bool) (id : Nat) : mapLookup page write 0 id d = syncMap (match e.filling with
    | some ids => setMapSlot (hitCounted write i e d) i
        (some { e with dirty := e.dirty || (write && !d.flag F.mapStat_disabling), filling := some (ids ++ [id]) })
    | none => hitCounted write i e d) := by
  have hcounted := hitCounted_slot hslot write
  rw [mapLookup, if_neg (by rw [hon]; decide)]
  simp only [hat, hslot]
  rw [if_neg (by omega)]
  rw [if_neg (show ¬ (0 : Nat) = 1 by decide), ← hitCounted, hcounted, hsound]
  cases e.filling <;> rfl

end

theorem lookupHit_brings (s : State) (page i id : Nat) (write : Bool) (e : MapEntry) (hon : s.dev.flag F.mapStat_enabled = true)
    (hat : pageIndex s.dev page = some i) (hslot : mapSlot s.dev i = some e) (hsound : e.poison = false) :
    Brings (.mapLookup page write 0 id) s fun d =>
      d.rd F.mapHits_count = (s.dev.rd F.mapHits_count + 1) % 2 ^ F.mapHits_count.w ∧ mapSlot d i = some { e with
        dirty := e.dirty || (write && !s.dev.flag F.mapStat_disabling), filling := e.filling.map fun ids => ids ++ [id] } := by
  refine brings_of_run (execMapLookup.eq_def page write 0 id s) ?_
  rw [mapLookup_hit hon hat hslot hsound]
  have hhits := hitCounted_hits write i e s.dev
  have hcounted := hitCounted_slot hslot write
  refine ⟨(rd_of_keep (keep_syncMap (ft := syncMapFoot) (by decide) _) (by decide) 0 0).trans ?_, (mapSlot_sync _ i).trans ?_⟩
  · split
    · exact hhits
    · exact hhits
  · split
    next ids hids => rw [mapSlot_set, if_pos rfl, hids, Option.map_some]
    next hids => rw [hcounted, hids, Option.map_none, ← hids]

theorem victim_congr {d e : Dev} (hstate : e.rd F.mapLfsr_state = d.rd F.mapLfsr_state) (hopen : ∀ g, groupOpen e g = groupOpen d g)
    (hentries : e.map.entries = d.map.entries) : victim e = victim d := by
  have : allocatable e = allocatable d := by
    funext i
    simp only [allocatable, hopen, mapSlot_of_entries hentries]
  rw [victim, victim, hstate, this]

theorem lookupMiss_brings (s : State) (page i id : Nat) (write : Bool) (hon : s.dev.flag F.mapStat_enabled = true)
    (hnone : pageIndex s.dev page = none) (hside : s.dev.map.side.contains page = false) (hvictim : victim s.dev = some i) :
    Brings (.mapLookup page write 0 id) s fun d =>
      d.rd F.mapMisses_count = (s.dev.rd F.mapMisses_count + 1) % 2 ^ F.mapMisses_count.w ∧
      mapSlot d i = some { page := page, dirty := write && !s.dev.flag F.mapStat_disabling, filling := some [id] } ∧
      d.rd F.mapLfsr_state = lfsrStep (s.dev.rd F.mapLfsr_state) % 2 ^ F.mapLfsr_state.w := by
  refine brings_of_run (execMapLookup.eq_def page write 0 id s) ?_
  have hcounted (f : Fld) (hf : F.mapMisses_count.id ≠ f.id) : (s.dev.addWrap F.mapMisses_count 1).rd f = s.dev.rd f :=
    Dev.rd_addWrap_ne _ _ _ _ _ _ _ _ hf
  have hsame : victim (s.dev.addWrap F.mapMisses_count 1) = some i := by
    refine (victim_congr (hcounted _ (by decide)) (fun g => ?_) rfl).trans hvictim
    simp only [groupOpen, Dev.bit, hcounted F.mapGrpStat_down (by decide), hcounted F.mapGrpStat_is_scratch (by decide),
      hcounted F.mapGrpStat_busy (by decide)]
  have hdis : (s.dev.addWrap F.mapMisses_count 1).flag F.mapStat_disabling = s.dev.flag F.mapStat_disabling :=
    Dev.flag_wr_ne _ _ _ _ _ _ _ _ (by decide)
  have hclean (f : Fld) (hf : pageToDramFoot.testBit (32 + f.id) = false) := rd_of_keep
    (keep_cleanEntry (ft := pageToDramFoot) (by decide) (s.dev.addWrap F.mapMisses_count 1) i) hf 0 0
  rw [mapLookup, if_neg (by rw [hon]; decide)]
  simp only [hnone]
  rw [if_neg (by rw [hside]; decide), missPage]
  simp only [placePage, hsame, Option.map_some, hdis]
  refine ⟨(rd_of_keep (keep_syncMap (ft := syncMapFoot) (by decide) _) (by decide) 0 0).trans ?_, (mapSlot_sync _ i).trans ?_,
    (rd_of_keep (keep_syncMap (ft := syncMapFoot) (by decide) _) (by decide) 0 0).trans ?_⟩
  · exact (Dev.rd_wr_ne _ _ _ _ _ _ _ _ (by decide)).trans ((hclean _ (by decide)).trans (Dev.rd_wr_same ..))
  · rw [mapSlot_set, if_pos rfl]
  · refine (Dev.rd_wr_same ..).trans ?_
    rw [hcounted _ (by decide)]

/-! ### Fills and prefetch -/

theorem fillDone_brings (s : State) (page i : Nat) (ids : List Nat) (e : MapEntry) (hat : pageIndex s.dev page = some i)
    (hslot : mapSlot s.dev i = some e) (hfill : e.filling = some ids) (hsound : (pageFromDram s.dev page).1 = false) :
    Brings (.mapFillDone page) s fun d => mapSlot d i = some { e with filling := none, poison := false } := by
  refine brings_of_run (execMapFillDone.eq_def page s) ?_
  rw [mapFillDone]
  simp only [hat, hslot, hfill, hsound]
  refine (mapSlot_sync _ i).trans ?_
  rw [consumePage, if_neg (by decide), mapSlot_set, if_pos rfl]

theorem prefetch_brings (s : State) (page : Nat) (hon : s.dev.flag F.mapStat_enabled = true)
    (hpre : s.dev.flag F.mapCtl_prefetch_en = true) (hnone : pageIndex s.dev page = none) (hside : s.dev.map.side.contains page = false) :
    Brings (.mapPrefetch page) s fun d =>
      d.map.side = (if 4 ≤ s.dev.map.side.length then s.dev.map.side.drop 1 else s.dev.map.side) ++ [page] ∧
      d.map.entries = s.dev.map.entries := by
  refine brings_of_run (execMapPrefetch.eq_def page s) ?_
  rw [mapPrefetch, if_neg (by simp [hon, hpre, hnone, List.contains_eq_mem, of_decide_eq_false (List.contains_eq_mem page _ ▸ hside)])]
  rw [syncMap_map, ← pageFromDram_map s.dev page]
  exact ⟨rfl, rfl⟩

/-! ### Maintenance -/

/-- The entry of slot `i` under the maintenance `op`: written back, removed, or both. -/
def maintainedSlot (i op : Nat) (d : Dev) : Dev :=
  if op = 0 then (if op = 1 then d else cleanEntry d i) else setMapSlot (if op = 1 then d else cleanEntry d i) i none

theorem maintEffect_hit {d : Dev} {page i : Nat} (hat : pageIndex d page = some i) (op : Nat) :
    maintEffect d page op = syncMap ((if op = 0 then maintainedSlot i op (d.setFlag F.mapMaintStat_hit true) else
      (maintainedSlot i op (d.setFlag F.mapMaintStat_hit true)).updMap fun m =>
        { m with side := m.side.filter fun p => p != page }).setFlag F.mapMaintStat_busy false) := by
  rw [maintEffect, hat]
  rfl

theorem maintainedSlot_hit (i op : Nat) (d : Dev) :
    (maintainedSlot i op (d.setFlag F.mapMaintStat_hit true)).flag F.mapMaintStat_hit = true := by
  have hkeep : keep pageToDramFoot (maintainedSlot i op (d.setFlag F.mapMaintStat_hit true)) = keep pageToDramFoot (d.setFlag F.mapMaintStat_hit true) := by
    simp +decide only [maintainedSlot, ↓keep_ite, ↓keep_setMapSlot, ↓keep_cleanEntry, ite_self]
  rw [Dev.flag, rd_of_keep hkeep (by decide)]
  exact Dev.flag_setFlag _ _ _ _ _ (by decide)

theorem maintEffect_busy (d : Dev) (page op : Nat) : (maintEffect d page op).flag F.mapMaintStat_busy = false := by
  unfold maintEffect
  extract_lets _ _ e _
  generalize e = e
  exact (syncMap_flag _ _ (by decide)).trans (Dev.flag_setFlag _ _ _ _ _ (by decide))

theorem pageToDram_waiting (d : Dev) (page : Nat) (poison : Bool) : (pageToDram d page poison).map.waiting = d.map.waiting :=
  show (macWritten d 0x3FF (page * 4096) 4096).map.waiting = d.map.waiting by
    rw [map_of_keep (keep_macWritten (ft := macWrittenFoot) (by decide) d 0x3FF (page * 4096) 4096) (by decide)]

theorem cleanEntry_waiting (d : Dev) (i : Nat) : (cleanEntry d i).map.waiting = d.map.waiting := by
  unfold cleanEntry
  split
  · split
    next e _ _ => exact pageToDram_waiting d e.page e.poison
    next => rfl
  · rfl

theorem maintainedSlot_waiting (i op : Nat) (d : Dev) : (maintainedSlot i op d).map.waiting = d.map.waiting := by
  have hclean : (if op = 1 then d else cleanEntry d i).map.waiting = d.map.waiting := by
    split
    · rfl
    · exact cleanEntry_waiting d i
  unfold maintainedSlot
  split
  · exact hclean
  · exact hclean

theorem maintEffect_waiting (d : Dev) (page op : Nat) : (maintEffect d page op).map.waiting = d.map.waiting := by
  cases hat : pageIndex d page with
  | none =>
    rw [maintEffect, hat, syncMap_map]
    by_cases hop : op = 0
    · rw [if_pos hop]; rfl
    · rw [if_neg hop]; rfl
  | some i =>
    have hkept := maintainedSlot_waiting i op (d.setFlag F.mapMaintStat_hit true)
    rw [maintEffect_hit hat, syncMap_map]
    by_cases hop : op = 0
    · rw [if_pos hop]; exact hkept
    · rw [if_neg hop]; exact hkept

section
variable {d : Dev} {page i : Nat} {e : MapEntry} (hidle : d.flag F.mapMaintStat_busy = false)
  (hfill : fillInFlight d (page % 2 ^ 24) = false) (hat : pageIndex d (page % 2 ^ 24) = some i) (hslot : mapSlot d i = some e)

section
include hidle hfill

theorem maintStart_effects {op : Nat} (hop : op < 3) :
    maintStart page op d = maintEffect ((d.wr F.mapMaint_page page).wr F.mapMaint_op op) (page % 2 ^ 24) op := by
  have hquiet : ((d.wr F.mapMaint_page page).wr F.mapMaint_op op).flag F.mapMaintStat_busy = false :=
    (Dev.flag_wr_ne _ _ _ _ _ _ _ _ (by decide)).trans ((Dev.flag_wr_ne _ _ _ _ _ _ _ _ (by decide)).trans hidle)
  have hnot : ¬ 3 ≤ op := Nat.not_le.2 hop
  rw [maintStart]
  rw [if_neg (by simp [hquiet, hnot]), if_neg (by
    change ¬ fillInFlight d (page % 2 ^ 24) = true
    rw [hfill]
    decide)]

end

include hat in
theorem maintEffect_wr_hit {op : Nat} :
    (maintEffect ((d.wr F.mapMaint_page page).wr F.mapMaint_op op) (page % 2 ^ 24) op).flag F.mapMaintStat_hit = true := by
  rw [maintEffect_hit (show pageIndex ((d.wr F.mapMaint_page page).wr F.mapMaint_op op) _ = some i from hat)]
  refine (syncMap_flag _ _ (by decide)).trans ((Dev.flag_setFlag_ne _ _ _ _ _ _ _ _ (by decide)).trans ?_)
  split
  · exact maintainedSlot_hit i op _
  · exact maintainedSlot_hit i op _

end

section
variable {s : State} (rq : Requester) {page i : Nat} {e : MapEntry} (hidle : s.dev.flag F.mapMaintStat_busy = false)
  (hfill : fillInFlight s.dev (page % 2 ^ 24) = false) (hat : pageIndex s.dev (page % 2 ^ 24) = some i) (hslot : mapSlot s.dev i = some e)
include hidle hfill hat hslot

theorem clean_brings : Brings (.mapClean rq page) s fun d => mapSlot d i = some { e with dirty := false } ∧
    d.flag F.mapMaintStat_hit = true ∧ d.flag F.mapMaintStat_busy = false ∧
      (e.dirty = true → e.poison = true → d.map.poisoned.contains e.page = true) := by
  refine brings_of_run (execMapClean.eq_def rq page s) ?_
  rw [maintStart_effects hidle hfill (by decide)]
  have hslot' : mapSlot (((s.dev.wr F.mapMaint_page page).wr F.mapMaint_op 0).setFlag F.mapMaintStat_hit true) i = some e := hslot
  have hhit : (maintEffect ((s.dev.wr F.mapMaint_page page).wr F.mapMaint_op 0) (page % 2 ^ 24) 0).map = (maintainedSlot i 0
      (((s.dev.wr F.mapMaint_page page).wr F.mapMaint_op 0).setFlag F.mapMaintStat_hit true)).map := by
    rw [maintEffect_hit (show pageIndex ((s.dev.wr F.mapMaint_page page).wr F.mapMaint_op 0) _ = some i from hat), if_pos rfl]
    rfl
  refine ⟨(mapSlot_of_entries (congrArg MapState.entries hhit) i).trans (cleanEntry_slot hslot'), maintEffect_wr_hit hat,
    maintEffect_busy .., fun hdirty hpoison => ?_⟩
  rw [hhit]
  exact cleanEntry_poisoned hslot' hdirty hpoison

omit hslot in
theorem invalidate_brings : Brings (.mapInvalidate rq page) s fun d => mapSlot d i = none ∧ d.flag F.mapMaintStat_hit = true ∧
    d.map.side.contains (page % 2 ^ 24) = false := by
  refine brings_of_run (execMapInvalidate.eq_def rq page s) ?_
  rw [maintStart_effects hidle hfill (by decide)]
  refine ⟨?_, maintEffect_wr_hit hat, ?_⟩
  · rw [maintEffect_hit (show pageIndex ((s.dev.wr F.mapMaint_page page).wr F.mapMaint_op 1) _ = some i from hat), mapSlot_sync]
    exact (mapSlot_set _ i none i).trans (if_pos rfl)
  · rw [maintEffect_hit (show pageIndex ((s.dev.wr F.mapMaint_page page).wr F.mapMaint_op 1) _ = some i from hat), syncMap_map,
      if_neg (by decide)]
    simp

theorem cleanInvalidate_brings : Brings (.mapCleanInvalidate rq page) s fun d => mapSlot d i = none ∧ d.flag F.mapMaintStat_hit = true ∧
    (e.dirty = true → e.poison = true → d.map.poisoned.contains e.page = true) := by
  refine brings_of_run (execMapCleanInvalidate.eq_def rq page s) ?_
  rw [maintStart_effects hidle hfill (by decide)]
  have hslot' : mapSlot (((s.dev.wr F.mapMaint_page page).wr F.mapMaint_op 2).setFlag F.mapMaintStat_hit true) i = some e := hslot
  refine ⟨?_, maintEffect_wr_hit hat, fun hdirty hpoison => ?_⟩
  · rw [maintEffect_hit (show pageIndex ((s.dev.wr F.mapMaint_page page).wr F.mapMaint_op 2) _ = some i from hat), mapSlot_sync]
    exact (mapSlot_set _ i none i).trans (if_pos rfl)
  · rw [maintEffect_hit (show pageIndex ((s.dev.wr F.mapMaint_page page).wr F.mapMaint_op 2) _ = some i from hat), syncMap_map,
      if_neg (by decide)]
    exact cleanEntry_poisoned hslot' hdirty hpoison

end

theorem maintDone_brings (s : State) (page op : Nat) (hwait : s.dev.map.waiting = some (page, op)) (hfill : fillInFlight s.dev page = false) :
    Brings .mapMaintDone s fun d => d.map.waiting = none ∧ d.flag F.mapMaintStat_busy = false := by
  refine brings_of_run (execMapMaintDone.eq_def s) ?_
  rw [maintDone]
  simp only [hwait]
  rw [if_neg (by rw [hfill]; decide)]
  exact ⟨maintEffect_waiting .., maintEffect_busy ..⟩

/-! ### Enabling and disabling -/

theorem enable_brings (s : State) (rq : Requester) : Brings (.mapEnable rq) s fun d => d.flag F.mapCtl_enable = true ∧
    (s.dev.flag F.mapStat_disabling = false → d.flag F.mapStat_enabled = true) := by
  refine brings_of_run (execMapEnable.eq_def rq s) ?_
  have hdis : (s.dev.setFlag F.mapCtl_enable true).flag F.mapStat_disabling = s.dev.flag F.mapStat_disabling :=
    Dev.flag_setFlag_ne _ _ _ _ _ _ _ _ (by decide)
  rw [mapEnable]
  rw [hdis]
  split
  next h => exact ⟨Dev.flag_setFlag _ _ _ _ _ (by decide), fun hoff => absurd h (by rw [hoff]; decide)⟩
  next =>
    exact ⟨(Dev.flag_setFlag_ne _ _ _ _ _ _ _ _ (by decide)).trans (Dev.flag_setFlag _ _ _ _ _ (by decide)),
      fun _ => Dev.flag_setFlag _ _ _ _ _ (by decide)⟩

theorem disable_brings (s : State) (rq : Requester) : Brings (.mapDisable rq) s fun d => d.flag F.mapCtl_enable = false ∧
    (s.dev.flag F.mapStat_enabled = true → d.flag F.mapStat_disabling = true) := by
  refine brings_of_run (execMapDisable.eq_def rq s) ?_
  have hon : (s.dev.setFlag F.mapCtl_enable false).flag F.mapStat_enabled = s.dev.flag F.mapStat_enabled :=
    Dev.flag_setFlag_ne _ _ _ _ _ _ _ _ (by decide)
  rw [mapDisable]
  rw [hon]
  split
  next =>
    exact ⟨(Dev.flag_setFlag_ne _ _ _ _ _ _ _ _ (by decide)).trans (Dev.flag_setFlag _ _ _ _ _ (by decide)),
      fun _ => Dev.flag_setFlag _ _ _ _ _ (by decide)⟩
  next h => exact ⟨Dev.flag_setFlag _ _ _ _ _ (by decide), fun hyes => absurd hyes h⟩

theorem disableComplete_brings (s : State) (hdis : s.dev.flag F.mapStat_disabling = true)
    (hfill : (s.dev.map.entries.any fun e => e.2.any fun x => x.filling.isSome) = false) :
    Brings .mapDisableComplete s fun d => d.map.entries = [] ∧ d.map.side = [] ∧ d.flag F.mapStat_disabling = false ∧
      d.flag F.mapStat_enabled = s.dev.flag F.mapCtl_enable ∧ d.rd F.mapStat_dirty = 0 := by
  refine brings_of_run (execMapDisableComplete.eq_def s) ?_
  rw [disableComplete, if_neg (by rw [hdis, hfill]; decide)]
  have hclean : keep pageToDramFoot (forEach (List.range 64) s.dev cleanEntry) = keep pageToDramFoot s.dev :=
    keep_forEach _ _ _ fun e i => keep_cleanEntry (by decide) e i
  refine ⟨rfl, rfl, ?_, ?_, ?_⟩
  · refine (syncMap_flag _ _ (by decide)).trans ?_
    exact (Dev.flag_setFlag_ne _ _ _ _ _ _ _ _ (by decide)).trans (Dev.flag_setFlag _ _ _ _ _ (by decide))
  · refine (syncMap_flag _ _ (by decide)).trans ((Dev.flag_setFlag _ _ _ _ _ (by decide)).trans ?_)
    rw [Dev.flag, Dev.updMap_rd, rd_of_keep hclean (by decide), Dev.flag]
  · exact (Dev.rd_wr_ne _ _ _ _ _ _ _ _ (by decide)).trans (Dev.rd_wr_same ..)

/-- Settles O42: a hit, a miss, a fill and the maintenance of an entry each by what they leave in its slot, which the statistics and the
writes to the DRAM do not touch. -/
theorem mapCacheRowsComplete : Obligations.MapCacheRowsComplete := by
  unfold Obligations.MapCacheRowsComplete
  refine ⟨lookupHit_brings, lookupMiss_brings, fillDone_brings, prefetch_brings, fun s rq page i e hidle hfill hat hslot => ?_,
    maintDone_brings, enable_brings, disable_brings, disableComplete_brings⟩
  exact ⟨clean_brings rq hidle hfill hat hslot, invalidate_brings rq hidle hfill hat, cleanInvalidate_brings rq hidle hfill hat hslot⟩

end Sys2Proof.Machine
end

section
/-! PROOF. Footprints within the chain part: which fields of it, and of its ports, an operation may change. -/
namespace Sys2Proof.Machine

/-- The fields of the chain part. -/
inductive LField where
  | ports | nextTag | root | dedupe | nodes | topoGen | devId | gen
  | heard | announced | fresh | told | survey | relayed | lastReport | links
  | selfNaks | nextAddr | rcFail
  | expects | nakAsks | keyGens

/-- A footprint within the chain part. -/
def chainFoot (fs : List LField) : Nat := fs.foldl (fun n f => n ||| 1 <<< f.ctorIdx) 0

/-- The chain part, with what is followed of each port: the number expected next, whether a NAK is outstanding, and the keys' generation. -/
def chainView (h : ChainState) : ChainState × (Nat → Nat × Bool × Nat) :=
  (h, fun p => ((tabGet {} h.ports p).expect, (tabGet {} h.ports p).nakAsked, (tabGet {} h.ports p).keyGen))

/-- What is followed of a port, with the fields of a footprint blanked out. -/
def portMask (m : Nat) (l : Nat × Bool × Nat) : Nat × Bool × Nat :=
  (if m.testBit LField.expects.ctorIdx then 0 else l.1, if m.testBit LField.nakAsks.ctorIdx then false else l.2.1,
    if m.testBit LField.keyGens.ctorIdx then 0 else l.2.2)

/-- The view of the chain part with the fields of a footprint blanked out. -/
def lmask (m : Nat) (v : ChainState × (Nat → Nat × Bool × Nat)) : ChainState × (Nat → Nat × Bool × Nat) :=
  ({ ports := if m.testBit LField.ports.ctorIdx then [] else v.1.ports,
     nextTag := if m.testBit LField.nextTag.ctorIdx then 0 else v.1.nextTag,
     root := if m.testBit LField.root.ctorIdx then [] else v.1.root,
     dedupe := if m.testBit LField.dedupe.ctorIdx then [] else v.1.dedupe,
     nodes := if m.testBit LField.nodes.ctorIdx then [] else v.1.nodes,
     topoGen := if m.testBit LField.topoGen.ctorIdx then 0 else v.1.topoGen,
     devId := if m.testBit LField.devId.ctorIdx then 0 else v.1.devId,
     gen := if m.testBit LField.gen.ctorIdx then 0 else v.1.gen,
     heard := if m.testBit LField.heard.ctorIdx then [] else v.1.heard,
     announced := if m.testBit LField.announced.ctorIdx then [] else v.1.announced,
     fresh := if m.testBit LField.fresh.ctorIdx then [] else v.1.fresh,
     told := if m.testBit LField.told.ctorIdx then [] else v.1.told,
     survey := if m.testBit LField.survey.ctorIdx then [] else v.1.survey,
     relayed := if m.testBit LField.relayed.ctorIdx then [] else v.1.relayed,
     lastReport := if m.testBit LField.lastReport.ctorIdx then none else v.1.lastReport,
     links := if m.testBit LField.links.ctorIdx then [] else v.1.links,
     selfNaks := if m.testBit LField.selfNaks.ctorIdx then [] else v.1.selfNaks,
     nextAddr := if m.testBit LField.nextAddr.ctorIdx then 2 else v.1.nextAddr,
     rcFail := if m.testBit LField.rcFail.ctorIdx then false else v.1.rcFail },
   fun p => portMask m (v.2 p))

def lkeep (m : Nat) (d : Dev) : ChainState × (Nat → Nat × Bool × Nat) := lmask m (chainView d.chain)

theorem lmask_lmask {a m : Nat} (hm : inFoot a m = true) (v : ChainState × (Nat → Nat × Bool × Nat)) :
    lmask m (lmask a v) = lmask m v := by
  have hpart (k : Nat) {α : Type} (x y : α) : (if m.testBit k then x else if a.testBit k then x else y) =
      if m.testBit k then x else y := ite_ite_of_imp (testBit_of_inFoot hm) x y
  simp only [lmask, portMask, hpart]

/-- An operation keeps what a wider footprint leaves of the chain part. -/
theorem lkeep_mono {a m : Nat} {d e : Dev} (hm : inFoot a m = true) (h : lkeep a e = lkeep a d) : lkeep m e = lkeep m d := by
  rw [lkeep, lkeep, ← lmask_lmask hm, ← lkeep, h, lkeep, lmask_lmask hm]

theorem lkeep_of_chain {d e : Dev} (m : Nat) (h : e.chain = d.chain) : lkeep m e = lkeep m d := congrArg (fun c => lmask m (chainView c)) h

theorem lkeep_of_keep {a : Nat} {d e : Dev} (h : keep a e = keep a d) (hp : a.testBit Part.chain.ctorIdx = false) (m : Nat) :
    lkeep m e = lkeep m d := lkeep_of_chain m (chain_of_keep h hp)

section
variable {m : Nat} (d : Dev)

theorem lkeep_updChain (g : ChainState → ChainState) (h : ∀ s, lmask m (chainView (g s)) = lmask m (chainView s)) : lkeep m (d.updChain g) = lkeep m d := h d.chain

theorem lkeep_updLport (p : Nat) (g : LPort → LPort) (hp : m.testBit LField.ports.ctorIdx = true)
    (h : ∀ l : LPort, portMask m ((g l).expect, (g l).nakAsked, (g l).keyGen) = portMask m (l.expect, l.nakAsked, l.keyGen)) :
    lkeep m (d.updLport p g) = lkeep m d := by
  simp only [lkeep, lmask, chainView, hp, if_true, Dev.updLport, tabGet_tabPut]
  congr 1
  funext q
  split
  next hq => rw [h, hq]; rfl
  next => rfl

theorem lkeep_part_chain (x : ChainState) (h : lmask m (chainView x) = lmask m (chainView d.chain)) :
    lkeep m { d with chain := x } = lkeep m d := h

theorem lkeep_ite (c : Prop) [Decidable c] (e : Dev) : lkeep m (if c then d else e) = if c then lkeep m d else lkeep m e :=
  apply_ite (lkeep m) c d e

theorem lkeep_ite_of {c : Prop} [Decidable c] {a b e : Dev} (ha : lkeep m a = lkeep m e) (hb : lkeep m b = lkeep m e) :
    lkeep m (if c then a else b) = lkeep m e := by rw [lkeep_ite, ha, hb, ite_self]

theorem lkeep_forEach {α : Type} (l : List α) (g : Dev → α → Dev) (h : ∀ e x, lkeep m (g e x) = lkeep m e) :
    lkeep m (forEach l d g) = lkeep m d := forEach_keeps (p := lkeep m) (fun e x _ => h e x) d

theorem lkeep_wr (f : Fld) (v i j : Nat) : lkeep m (d.wr f v i j) = lkeep m d := lkeep_of_chain m rfl
theorem lkeep_setFlag (f : Fld) (b : Bool) (i j : Nat) : lkeep m (d.setFlag f b i j) = lkeep m d := lkeep_of_chain m rfl
theorem lkeep_addSat (f : Fld) (n i j : Nat) : lkeep m (d.addSat f n i j) = lkeep m d := lkeep_of_chain m rfl
theorem lkeep_addWrap (f : Fld) (n i j : Nat) : lkeep m (d.addWrap f n i j) = lkeep m d := lkeep_of_chain m rfl
theorem lkeep_sub (f : Fld) (n i j : Nat) : lkeep m (d.sub f n i j) = lkeep m d := lkeep_of_chain m rfl
theorem lkeep_setBit (f : Fld) (b : Nat) (v : Bool) (i j : Nat) : lkeep m (d.setBit f b v i j) = lkeep m d := lkeep_of_chain m rfl
theorem lkeep_wrInt (f : Fld) (v : Int) (i j : Nat) : lkeep m (d.wrInt f v i j) = lkeep m d := lkeep_of_chain m rfl
theorem lkeep_emit (e : Emit) : lkeep m (d.emit e) = lkeep m d := lkeep_of_chain m rfl
theorem lkeep_draw : lkeep m d.draw.2 = lkeep m d := lkeep_of_chain m rfl
theorem lkeep_updSec (g : SecState → SecState) : lkeep m (d.updSec g) = lkeep m d := lkeep_of_chain m rfl
theorem lkeep_updCipher (g : CipherState → CipherState) : lkeep m (d.updCipher g) = lkeep m d := lkeep_of_chain m rfl
theorem lkeep_updReset (g : ResetState → ResetState) : lkeep m (d.updReset g) = lkeep m d := lkeep_of_chain m rfl
theorem lkeep_updPower (g : PowerState → PowerState) : lkeep m (d.updPower g) = lkeep m d := lkeep_of_chain m rfl
theorem lkeep_updStruct (g : StructState → StructState) : lkeep m (d.updStruct g) = lkeep m d := lkeep_of_chain m rfl
theorem lkeep_updComp (g : CompState → CompState) : lkeep m (d.updComp g) = lkeep m d := lkeep_of_chain m rfl
theorem lkeep_updMap (g : MapState → MapState) : lkeep m (d.updMap g) = lkeep m d := lkeep_of_chain m rfl
theorem lkeep_updXb (g : XbState → XbState) : lkeep m (d.updXb g) = lkeep m d := lkeep_of_chain m rfl
theorem lkeep_updTherm (g : ThermState → ThermState) : lkeep m (d.updTherm g) = lkeep m d := lkeep_of_chain m rfl
theorem lkeep_updCard (g : CardState → CardState) : lkeep m (d.updCard g) = lkeep m d := lkeep_of_chain m rfl
theorem lkeep_updEcc (g : EccState → EccState) : lkeep m (d.updEcc g) = lkeep m d := lkeep_of_chain m rfl
theorem lkeep_part_struct (x : StructState) : lkeep m { d with struct := x } = lkeep m d := lkeep_of_chain m rfl
theorem lkeep_part_cipher (x : CipherState) : lkeep m { d with cipher := x } = lkeep m d := lkeep_of_chain m rfl
theorem lkeep_part_comp (x : CompState) : lkeep m { d with comp := x } = lkeep m d := lkeep_of_chain m rfl
theorem lkeep_part_reset (x : ResetState) : lkeep m { d with reset := x } = lkeep m d := lkeep_of_chain m rfl
theorem lkeep_part_sec (x : SecState) : lkeep m { d with sec := x } = lkeep m d := lkeep_of_chain m rfl
theorem lkeep_part_fw (x : FwState) : lkeep m { d with fw := x } = lkeep m d := lkeep_of_chain m rfl
theorem lkeep_part_xb (x : XbState) : lkeep m { d with xb := x } = lkeep m d := lkeep_of_chain m rfl
theorem lkeep_part_map (x : MapState) : lkeep m { d with map := x } = lkeep m d := lkeep_of_chain m rfl
theorem lkeep_part_card (x : CardState) : lkeep m { d with card := x } = lkeep m d := lkeep_of_chain m rfl
theorem lkeep_part_power (x : PowerState) : lkeep m { d with power := x } = lkeep m d := lkeep_of_chain m rfl
theorem lkeep_part_ecc (x : EccState) : lkeep m { d with ecc := x } = lkeep m d := lkeep_of_chain m rfl
theorem lkeep_updSpin (n : Nat) (g : Spin → Spin) : lkeep m (d.updSpin n g) = lkeep m d := lkeep_of_chain m rfl

theorem lkeep_updHost (g : HostState → HostState) : lkeep m (d.updHost g) = lkeep m d := lkeep_of_chain m rfl
theorem lkeep_part_host (x : HostState) : lkeep m { d with host := x } = lkeep m d := lkeep_of_chain m rfl

end

/-! ### What a footprint says of the fields outside it -/

section
variable {m : Nat} {d e : Dev} (h : lkeep m e = lkeep m d)
include h

theorem ports_of_lkeep (hf : m.testBit LField.ports.ctorIdx = false) : e.chain.ports = d.chain.ports := by
  simpa [lkeep, lmask, chainView, hf] using congrArg (fun v => v.1.ports) h
theorem nextTag_of_lkeep (hf : m.testBit LField.nextTag.ctorIdx = false) : e.chain.nextTag = d.chain.nextTag := by
  simpa [lkeep, lmask, chainView, hf] using congrArg (fun v => v.1.nextTag) h
theorem root_of_lkeep (hf : m.testBit LField.root.ctorIdx = false) : e.chain.root = d.chain.root := by
  simpa [lkeep, lmask, chainView, hf] using congrArg (fun v => v.1.root) h
theorem dedupe_of_lkeep (hf : m.testBit LField.dedupe.ctorIdx = false) : e.chain.dedupe = d.chain.dedupe := by
  simpa [lkeep, lmask, chainView, hf] using congrArg (fun v => v.1.dedupe) h
theorem nodes_of_lkeep (hf : m.testBit LField.nodes.ctorIdx = false) : e.chain.nodes = d.chain.nodes := by
  simpa [lkeep, lmask, chainView, hf] using congrArg (fun v => v.1.nodes) h
theorem topoGen_of_lkeep (hf : m.testBit LField.topoGen.ctorIdx = false) : e.chain.topoGen = d.chain.topoGen := by
  simpa [lkeep, lmask, chainView, hf] using congrArg (fun v => v.1.topoGen) h
theorem devId_of_lkeep (hf : m.testBit LField.devId.ctorIdx = false) : e.chain.devId = d.chain.devId := by
  simpa [lkeep, lmask, chainView, hf] using congrArg (fun v => v.1.devId) h
theorem gen_of_lkeep (hf : m.testBit LField.gen.ctorIdx = false) : e.chain.gen = d.chain.gen := by
  simpa [lkeep, lmask, chainView, hf] using congrArg (fun v => v.1.gen) h
theorem heard_of_lkeep (hf : m.testBit LField.heard.ctorIdx = false) : e.chain.heard = d.chain.heard := by
  simpa [lkeep, lmask, chainView, hf] using congrArg (fun v => v.1.heard) h
theorem announced_of_lkeep (hf : m.testBit LField.announced.ctorIdx = false) : e.chain.announced = d.chain.announced := by
  simpa [lkeep, lmask, chainView, hf] using congrArg (fun v => v.1.announced) h
theorem fresh_of_lkeep (hf : m.testBit LField.fresh.ctorIdx = false) : e.chain.fresh = d.chain.fresh := by
  simpa [lkeep, lmask, chainView, hf] using congrArg (fun v => v.1.fresh) h
theorem told_of_lkeep (hf : m.testBit LField.told.ctorIdx = false) : e.chain.told = d.chain.told := by
  simpa [lkeep, lmask, chainView, hf] using congrArg (fun v => v.1.told) h
theorem survey_of_lkeep (hf : m.testBit LField.survey.ctorIdx = false) : e.chain.survey = d.chain.survey := by
  simpa [lkeep, lmask, chainView, hf] using congrArg (fun v => v.1.survey) h
theorem relayed_of_lkeep (hf : m.testBit LField.relayed.ctorIdx = false) : e.chain.relayed = d.chain.relayed := by
  simpa [lkeep, lmask, chainView, hf] using congrArg (fun v => v.1.relayed) h
theorem lastReport_of_lkeep (hf : m.testBit LField.lastReport.ctorIdx = false) : e.chain.lastReport = d.chain.lastReport := by
  simpa [lkeep, lmask, chainView, hf] using congrArg (fun v => v.1.lastReport) h
theorem links_of_lkeep (hf : m.testBit LField.links.ctorIdx = false) : e.chain.links = d.chain.links := by
  simpa [lkeep, lmask, chainView, hf] using congrArg (fun v => v.1.links) h
theorem selfNaks_of_lkeep (hf : m.testBit LField.selfNaks.ctorIdx = false) : e.chain.selfNaks = d.chain.selfNaks := by
  simpa [lkeep, lmask, chainView, hf] using congrArg (fun v => v.1.selfNaks) h
theorem nextAddr_of_lkeep (hf : m.testBit LField.nextAddr.ctorIdx = false) : e.chain.nextAddr = d.chain.nextAddr := by
  simpa [lkeep, lmask, chainView, hf] using congrArg (fun v => v.1.nextAddr) h
theorem rcFail_of_lkeep (hf : m.testBit LField.rcFail.ctorIdx = false) : e.chain.rcFail = d.chain.rcFail := by
  simpa [lkeep, lmask, chainView, hf] using congrArg (fun v => v.1.rcFail) h

theorem expect_of_lkeep (hf : m.testBit LField.expects.ctorIdx = false) (p : Nat) : (e.lport p).expect = (d.lport p).expect := by
  simpa [lkeep, lmask, chainView, portMask, Dev.lport, hf] using congrArg (fun v => (v.2 p).1) h

theorem nakAsked_of_lkeep (hf : m.testBit LField.nakAsks.ctorIdx = false) (p : Nat) : (e.lport p).nakAsked = (d.lport p).nakAsked := by
  simpa [lkeep, lmask, chainView, portMask, Dev.lport, hf] using congrArg (fun v => (v.2 p).2.1) h

theorem keyGen_of_lkeep (hf : m.testBit LField.keyGens.ctorIdx = false) (p : Nat) : (e.lport p).keyGen = (d.lport p).keyGen := by
  simpa [lkeep, lmask, chainView, portMask, Dev.lport, hf] using congrArg (fun v => (v.2 p).2.2) h

end

end Sys2Proof.Machine
end

section
/-! PROOF. What the operations of a link leave of the chain part. -/
namespace Sys2Proof.Machine

def sendFlitChainF : Nat := chainFoot [.ports]
theorem lkeep_sendFlit {ft : Nat} (hft : inFoot sendFlitChainF ft = true) (d : Dev) (p : Nat) (nak : Option Nat) : lkeep ft
    (sendFlit d p nak) = lkeep ft d :=
  lkeep_mono hft (by simp +decide only [sendFlit, ↓lkeep_emit, ↓lkeep_updLport, portMask, implies_true])

theorem lkeep_flitDue {ft : Nat} (hft : inFoot sendFlitChainF ft = true) (d : Dev) (p : Nat) : lkeep ft (flitDue d p) = lkeep ft
    d :=
  lkeep_mono hft (by simp +decide only [flitDue, ↓lkeep_sendFlit, ↓lkeep_ite, ite_self])

theorem lkeep_freeRx {ft : Nat} (hft : inFoot sendFlitChainF ft = true) (d : Dev) (arrival : Option Nat) (cls len : Nat) : lkeep
    ft (freeRx d arrival cls len) = lkeep ft d :=
  lkeep_mono hft (by simp +decide only [freeRx]; split <;> simp +decide only [↓lkeep_sub,
    ↓lkeep_updLport, portMask, implies_true, ↓lkeep_flitDue])

def refuseFrameChainF : Nat := chainFoot [.ports, .nakAsks]
theorem lkeep_refuseFrame {ft : Nat} (hft : inFoot refuseFrameChainF ft = true) (d : Dev) (p : Nat) (f : Frame) : lkeep ft
    (refuseFrame d p f) = lkeep ft d :=
  lkeep_mono hft (by simp +decide only [refuseFrame, ↓lkeep_updLport, portMask, if_true, implies_true, ↓lkeep_sendFlit, ↓lkeep_freeRx, ↓lkeep_ite, ite_self])

def sendAsChainF : Nat := chainFoot [.ports]
theorem lkeep_sendAs {ft : Nat} (hft : inFoot sendAsChainF ft = true) (d : Dev) (p : Nat) (f : Frame) (arrival : Option Nat)
    (stomp : Bool) : lkeep ft (sendAs d p f arrival stomp) = lkeep ft d :=
  lkeep_mono hft (by simp +decide only [sendAs, ↓lkeep_addWrap, ↓lkeep_wr, ↓lkeep_sub, ↓lkeep_emit, ↓lkeep_updLport, portMask, implies_true, ↓lkeep_ite,
    ite_self])

theorem lkeep_sendOn {ft : Nat} (hft : inFoot sendAsChainF ft = true) (d : Dev) (p : Nat) (f : Frame) (arrival : Option Nat) :
    lkeep ft (sendOn d p f arrival) = lkeep ft d :=
  lkeep_mono hft (by simp +decide only [sendOn, ↓lkeep_sendAs])

theorem lkeep_putOn {ft : Nat} (hft : inFoot sendFlitChainF ft = true) (d : Dev) (p : Nat) (tf : TxFrame) : lkeep ft (putOn d p
    tf) = lkeep ft d :=
  lkeep_mono hft (by simp +decide only [putOn, ↓lkeep_updLport, portMask, implies_true, ↓lkeep_freeRx, ↓lkeep_sendOn, ↓lkeep_ite, ite_self])

def originateChainF : Nat := chainFoot [.ports, .selfNaks]
theorem lkeep_originate {ft : Nat} (hft : inFoot originateChainF ft = true) (d : Dev) (f : Frame) : lkeep ft (originate d f) =
    lkeep ft d :=
  lkeep_mono hft (by unfold originate; split <;> simp +decide only [↓lkeep_setFlag, ↓lkeep_putOn, ↓lkeep_part_chain, lmask, chainView, if_true, ↓lkeep_ite,
    ite_self])

theorem lkeep_dropFrame {ft : Nat} (hft : inFoot originateChainF ft = true) (d : Dev) (p : Nat) (tf : TxFrame) (reason : Nat) :
    lkeep ft (dropFrame d p tf reason) = lkeep ft d :=
  lkeep_mono hft (by simp +decide only [dropFrame, ↓lkeep_setFlag, ↓lkeep_addWrap, ↓lkeep_freeRx, ↓lkeep_originate, ↓lkeep_ite,
    ite_self])

theorem lkeep_departTransit {ft : Nat} (hft : inFoot originateChainF ft = true) (d : Dev) (p : Nat) (tf : TxFrame) : lkeep ft
    (departTransit d p tf) = lkeep ft d := by
  refine lkeep_mono hft ?_
  unfold departTransit
  split
  · split
    · simp +decide only [↓lkeep_putOn]
    · simp only []
      split
      · simp +decide only [↓lkeep_draw, ↓lkeep_dropFrame]
      · simp +decide only [↓lkeep_draw, ↓lkeep_freeRx, ↓lkeep_sendOn]
  · simp +decide only [↓lkeep_updLport, portMask, implies_true]

theorem lkeep_forwardFrame {ft : Nat} (hft : inFoot originateChainF ft = true) (d : Dev) (f : Frame) (arrival : Nat) : lkeep ft
    (forwardFrame d f arrival) = lkeep ft d :=
  lkeep_mono hft (by simp +decide only [forwardFrame]; split <;> simp +decide only
    [↓lkeep_dropFrame, ↓lkeep_departTransit])

theorem lkeep_updCtx {ft : Nat} (d : Dev) (id : Nat) (g : Ctx → Ctx) : lkeep ft (d.updCtx id g) = lkeep ft d := lkeep_of_chain
    ft rfl

def returnDataChainF : Nat := chainFoot [.ports, .dedupe, .selfNaks]
theorem lkeep_returnData {ft : Nat} (hft : inFoot returnDataChainF ft = true) (d : Dev) (x : Ctx) (toks : List Nat) : lkeep ft
    (returnData d x toks) = lkeep ft d := by
  refine lkeep_mono hft ?_
  unfold returnData
  split
  · simp +decide only [↓lkeep_emit]
  · rfl
  · rfl
  · split
    · rfl
    · simp +decide only [↓lkeep_originate, ↓lkeep_part_chain, lmask, chainView, if_true, implies_true, ↓lkeep_forEach, implies_true]

theorem lkeep_syncHost {ft : Nat} (d : Dev) : lkeep ft (syncHost d) = lkeep ft d :=
  lkeep_of_keep (keep_syncHost (ft := syncHostFoot) (by decide) d) (by decide) ft

def chainRespondChainF : Nat := chainFoot [.ports, .dedupe, .selfNaks]
theorem lkeep_chainRespond {ft : Nat} (hft : inFoot chainRespondChainF ft = true) (d : Dev) (src tag status dw0 : Nat) (body :
    List Nat) : lkeep ft (chainRespond d src tag status dw0 body) = lkeep ft d :=
  lkeep_mono hft (by simp +decide only [chainRespond]; split <;> simp +decide only
    [↓lkeep_originate, ↓lkeep_part_chain, lmask, chainView, if_true])

theorem lkeep_syncWork {ft : Nat} (d : Dev) : lkeep ft (syncWork d) = lkeep ft d :=
  lkeep_of_keep (keep_syncWork (ft := syncWorkFoot) (by decide) d) (by decide) ft

def cancelRemoteChainF : Nat := chainFoot [.ports, .root, .selfNaks]
theorem lkeep_cancelRemote {ft : Nat} (hft : inFoot cancelRemoteChainF ft = true) (d : Dev) (id : Nat) : lkeep ft (cancelRemote
    d id) = lkeep ft d :=
  lkeep_mono hft (by simp +decide only [cancelRemote]; split <;> simp +decide only
    [↓lkeep_originate, ↓lkeep_part_chain, lmask, chainView, if_true])

theorem lkeep_dropWork {ft : Nat} (hft : inFoot cancelRemoteChainF ft = true) (d : Dev) (id : Nat) : lkeep ft (dropWork d id) =
    lkeep ft d := by
  refine lkeep_mono hft ?_
  unfold dropWork
  extract_lets e
  have he : lkeep cancelRemoteChainF e = lkeep cancelRemoteChainF d := lkeep_cancelRemote (by decide) d id
  rw [lkeep_syncWork, ← he]
  exact lkeep_of_chain _ rfl

theorem lkeep_leaveTable {ft : Nat} (d : Dev) (x : Ctx) : lkeep ft (leaveTable d x) = lkeep ft d :=
  lkeep_of_keep (keep_leaveTable (ft := leaveTableFoot) (by decide) d x) (by decide) ft

def finishChainF : Nat := chainFoot [.ports, .root, .dedupe, .selfNaks]
theorem lkeep_finish {ft : Nat} (hft : inFoot finishChainF ft = true) (d : Dev) (id status dw0 : Nat) : lkeep ft (finish d id
    status dw0) = lkeep ft d := by
  refine lkeep_mono hft ?_
  unfold finish
  split
  · rfl
  · extract_lets record e e'
    have he : lkeep finishChainF e = lkeep finishChainF d := by simp +decide only [e, ↓lkeep_dropWork, ↓lkeep_leaveTable]
    have he' : lkeep finishChainF e' = lkeep finishChainF d := by
      simp only [e']
      split
      · simp +decide only [he, ↓lkeep_emit]
      · simp +decide only [he, ↓lkeep_chainRespond]
      · exact he
      · exact he
    simp +decide only [he', ↓lkeep_syncHost]

theorem lkeep_discardCtx {ft : Nat} (hft : inFoot cancelRemoteChainF ft = true) (d : Dev) (id : Nat) : lkeep ft (discardCtx d
    id) = lkeep ft d :=
  lkeep_mono hft (by simp +decide only [discardCtx]; split <;> simp +decide only [↓lkeep_dropWork,
    ↓lkeep_leaveTable])

theorem lkeep_discardData {ft : Nat} (d : Dev) (wid : Nat) : lkeep ft (discardData d wid) = lkeep ft d :=
  lkeep_of_keep (keep_discardData (ft := discardDataFoot) (by decide) d wid) (by decide) ft

theorem lkeep_refreshParity {ft : Nat} (d : Dev) (nsid zi : Nat) : lkeep ft (refreshParity d nsid zi) = lkeep ft d :=
  lkeep_of_keep (keep_refreshParity (ft := refreshParityFoot) (by decide) d nsid zi) (by decide) ft

theorem lkeep_setPtr {ft : Nat} (d : Dev) (nsid zi wp : Nat) : lkeep ft (setPtr d nsid zi wp) = lkeep ft d :=
  lkeep_of_keep (keep_setPtr (ft := setPtrFoot) (by decide) d nsid zi wp) (by decide) ft

theorem lkeep_replaceAppend {ft : Nat} (d : Dev) (y : Ctx) (zi zs : Nat) : lkeep ft (replaceAppend d y zi zs) = lkeep ft d :=
  lkeep_of_keep (keep_replaceAppend (ft := replaceAppendFoot) (by decide) d y zi zs) (by decide) ft

theorem lkeep_restorePtr {ft : Nat} (hft : inFoot finishChainF ft = true) (d : Dev) (x : Ctx) : lkeep ft (restorePtr d x) =
    lkeep ft d :=
  lkeep_mono hft (by simp +decide only [restorePtr]; split <;> simp +decide only [↓lkeep_finish,
    ↓lkeep_discardData, ↓lkeep_refreshParity, ↓lkeep_setPtr, ↓lkeep_replaceAppend, ↓lkeep_forEach, ↓lkeep_ite, ite_self,
    implies_true])

theorem lkeep_undoContext {ft : Nat} (d : Dev) (x : Ctx) : lkeep ft (undoContext d x) = lkeep ft d :=
  lkeep_of_keep (keep_undoContext (ft := undoContextFoot) (by decide) d x) (by decide) ft

theorem lkeep_failWrite {ft : Nat} (hft : inFoot finishChainF ft = true) (d : Dev) (id status : Nat) : lkeep ft (failWrite d id
    status) = lkeep ft d :=
  lkeep_mono hft (by unfold failWrite; split <;> simp +decide only [↓lkeep_finish, ↓lkeep_discardData, ↓lkeep_restorePtr,
    ↓lkeep_undoContext])

theorem lkeep_rootFinish {ft : Nat} (hft : inFoot finishChainF ft = true) (d : Dev) (t : RootTx) (status dw0 : Nat) (toks : List
    Nat) : lkeep ft (rootFinish d t status dw0 toks) = lkeep ft d :=
  lkeep_mono hft (by simp +decide only [rootFinish]; split <;> simp +decide only [↓lkeep_updCtx, ↓lkeep_returnData,
    ↓lkeep_finish, ↓lkeep_discardCtx, ↓lkeep_failWrite, ↓lkeep_part_chain, lmask, chainView, if_true, ↓lkeep_ite, ite_self])

theorem lkeep_rootEnd {ft : Nat} (hft : inFoot finishChainF ft = true) (d : Dev) (t : RootTx) (status : Nat) : lkeep ft (rootEnd
    d t status) = lkeep ft d :=
  lkeep_mono hft (by simp +decide only [rootEnd, ↓lkeep_originate, ↓lkeep_rootFinish])

theorem lkeep_staleFrame {ft : Nat} (d : Dev) : lkeep ft (staleFrame d) = lkeep ft d :=
  lkeep_of_keep (keep_staleFrame (ft := staleFrameFoot) (by decide) d) (by decide) ft

theorem lkeep_targetEnd {ft : Nat} (hft : inFoot finishChainF ft = true) (d : Dev) (e : Dedupe) (status : Nat) : lkeep ft
    (targetEnd d e status) = lkeep ft d :=
  lkeep_mono hft (by unfold targetEnd; split <;> simp +decide only [↓lkeep_chainRespond, ↓lkeep_finish, ↓lkeep_failWrite, ↓lkeep_ite,
    ite_self])

theorem lkeep_nakArrived {ft : Nat} (hft : inFoot finishChainF ft = true) (d : Dev) (f : Frame) : lkeep ft (nakArrived d f) =
    lkeep ft d :=
  lkeep_mono hft (by unfold nakArrived; split <;> split <;> simp +decide only [↓lkeep_rootEnd, ↓lkeep_staleFrame, ↓lkeep_targetEnd,
    ↓lkeep_part_chain, lmask, chainView, if_true, ↓lkeep_ite, ite_self])

def dedupeEntryChainF : Nat := chainFoot [.dedupe]
theorem lkeep_dedupeEntry {ft : Nat} (hft : inFoot dedupeEntryChainF ft = true) (d : Dev) (src tag : Nat) (g : Dedupe → Dedupe)
    : lkeep ft (d.updEntry src tag g) = lkeep ft d := by
  refine lkeep_mono hft ?_
  unfold Dev.updEntry
  simp +decide only [↓lkeep_updChain, lmask, chainView, if_true, implies_true]

theorem lkeep_answer {ft : Nat} (hft : inFoot originateChainF ft = true) (d : Dev) (e : Dedupe) (ty : Nat) (spec : List Nat) :
    lkeep ft (answer d e ty spec) = lkeep ft d :=
  lkeep_mono hft (by simp +decide only [answer, ↓lkeep_originate])

theorem lkeep_enterCmd {ft : Nat} (hft : inFoot finishChainF ft = true) (d : Dev) (org : Origin) (fe : Nat) (c : IoCmd) : lkeep
    ft (enterCmd d org fe c) = lkeep ft d := by
  refine lkeep_mono hft ?_
  unfold enterCmd
  extract_lets x e
  have he : lkeep finishChainF e = lkeep finishChainF d := lkeep_of_chain _ rfl
  split
  · simp +decide only [he, ↓lkeep_syncHost]
  · extract_lets e'
    have he' : lkeep finishChainF e' = lkeep finishChainF d := by
      simp only [e']
      split
      · rw [lkeep_setFlag, he]
      · exact he
    simp +decide only [he', ↓lkeep_finish]

theorem lkeep_acceptCmd {ft : Nat} (hft : inFoot finishChainF ft = true) (d : Dev) (p : Nat) (f : Frame) (c : IoCmd) : lkeep ft
    (acceptCmd d p f c) = lkeep ft d :=
  lkeep_mono hft (by simp +decide only [acceptCmd, ↓lkeep_enterCmd, ↓lkeep_updChain, lmask, chainView, if_true, implies_true, ↓lkeep_answer])

theorem lkeep_askMissing {ft : Nat} (hft : inFoot originateChainF ft = true) (d : Dev) (e : Dedupe) : lkeep ft (askMissing d e)
    = lkeep ft d :=
  lkeep_mono hft (by simp +decide only [askMissing]; split <;> simp +decide only [↓lkeep_answer,
    ↓lkeep_ite, ite_self])

theorem lkeep_cmdArrived {ft : Nat} (hft : inFoot finishChainF ft = true) (p : Nat) (f : Frame) (d : Dev) : lkeep ft (cmdArrived
    p f d) = lkeep ft d := by
  refine lkeep_mono hft ?_
  unfold cmdArrived
  split
  · simp +decide only [↓lkeep_addWrap]
  · extract_lets busy noRoom e1
    have hbusy (e : Dev) : lkeep finishChainF (busy e) = lkeep finishChainF e := by simp only [busy]; simp +decide only
        [↓lkeep_setFlag, ↓lkeep_originate]
    have he1 : lkeep finishChainF e1 = lkeep finishChainF d := by simp only [e1]; simp +decide only [↓lkeep_dedupeEntry]
    split
    · extract_lets e2 e3
      have he3 : lkeep finishChainF e3 = lkeep finishChainF d := by simp only [e3]; simp +decide only [he1, ↓lkeep_answer]
      split
      · simp +decide only [he3, ↓lkeep_askMissing, ↓lkeep_ite, ite_self]
      · split
        · split
          · simp +decide only [he1, ↓lkeep_originate]
          · exact he1
        · simp +decide only [he1, hbusy, ↓lkeep_acceptCmd, ↓lkeep_ite, ite_self]
    · simp +decide only [hbusy, ↓lkeep_addSat, ↓lkeep_acceptCmd, ↓lkeep_ite, ite_self]

theorem lkeep_destageExtent {ft : Nat} (d : Dev) (e : Extent) (prio : Bool) : lkeep ft (destageExtent d e prio) = lkeep ft d :=
  lkeep_of_keep (keep_destageExtent (ft := destageExtentFoot) (by decide) d e prio) (by decide) ft

theorem lkeep_putFrame {ft : Nat} (d : Dev) (id : Nat) (f : CFrame) : lkeep ft (putFrame d id f) = lkeep ft d :=
  lkeep_of_keep (keep_putFrame (ft := putFrameFoot) (by decide) d id f) (by decide) ft

theorem lkeep_joinContext {ft : Nat} (d : Dev) (ctx id : Nat) : lkeep ft (joinContext d ctx id) = lkeep ft d :=
  lkeep_of_keep (keep_joinContext (ft := joinContextFoot) (by decide) d ctx id) (by decide) ft

theorem lkeep_frameRead {ft : Nat} (hft : inFoot finishChainF ft = true) (d : Dev) (x : Ctx) (toks : List Nat) : lkeep ft
    (frameRead d x toks) = lkeep ft d :=
  lkeep_mono hft (by simp +decide only [frameRead]; split <;> simp +decide only [↓lkeep_setFlag, ↓lkeep_updCtx, ↓lkeep_putFrame, ↓lkeep_finish,
    ↓lkeep_joinContext, ↓lkeep_ite, ite_self])

theorem lkeep_countMoved {ft : Nat} (d : Dev) (x : Ctx) (hdas : List Nat) : lkeep ft (countMoved d x hdas) = lkeep ft d :=
  lkeep_of_keep (keep_countMoved (ft := countMovedFoot) (by decide) d x hdas) (by decide) ft

theorem lkeep_serveRead {ft : Nat} (hft : inFoot finishChainF ft = true) (d : Dev) (x : Ctx) : lkeep ft (serveRead d x) = lkeep
    ft d :=
  lkeep_mono hft (by unfold serveRead; split <;> simp +decide only [↓lkeep_returnData, ↓lkeep_finish, ↓lkeep_frameRead,
    ↓lkeep_countMoved, ↓lkeep_ite, ite_self])

theorem lkeep_startMedia {ft : Nat} (d : Dev) (x : Ctx) (k : Dev → Dev) (hk : ∀ e, lkeep ft (k e) = lkeep ft e) :
    lkeep ft (startMedia d x k) = lkeep ft d := by
  unfold startMedia
  have ht {e : Dev} {t a b} : lkeep ft (addTask e t a b) = lkeep ft e :=
    lkeep_of_keep (keep_addTask (ft := addTaskFoot) (by decide) e t a b) (by decide) ft
  split
  · exact hk d
  · extract_lets e cold e'
    have he : lkeep ft e = lkeep ft d := lkeep_forEach _ _ _ fun _ _ => ht
    have he' : lkeep ft e' = lkeep ft d := by
      simp only [e']
      cases cold with
      | some a => exact (lkeep_of_keep (keep_wantHda (ft := wantHdaFoot) (by decide) e (a / 2)) (by decide) ft).trans he
      | none => exact he
    exact (lkeep_of_chain ft rfl).trans he'

theorem lkeep_startRead {ft : Nat} (hft : inFoot finishChainF ft = true) (d : Dev) (x : Ctx) : lkeep ft (startRead d x) = lkeep
    ft d :=
  lkeep_mono hft (by
    simp +decide only [startRead]
    split
    · exact lkeep_startMedia d x _ fun e => lkeep_serveRead (by decide) e x
    · simp +decide only [↓lkeep_updCtx, ↓lkeep_destageExtent, ↓lkeep_serveRead, ↓lkeep_ite, ite_self]
    · simp +decide only [↓lkeep_updCtx, ↓lkeep_destageExtent, ↓lkeep_forEach, implies_true])

theorem lkeep_dataWhole {ft : Nat} (hft : inFoot finishChainF ft = true) (d : Dev) (e : Dedupe) : lkeep ft (dataWhole d e) =
    lkeep ft d :=
  lkeep_mono hft (by simp +decide only [dataWhole]; split <;> simp +decide only
    [↓lkeep_updCtx, ↓lkeep_startRead, ↓lkeep_ite, ite_self])

theorem lkeep_wdataArrived {ft : Nat} (hft : inFoot finishChainF ft = true) (f : Frame) (d : Dev) : lkeep ft (wdataArrived f d)
    = lkeep ft d := by
  refine lkeep_mono hft ?_
  unfold wdataArrived
  split
  · simp +decide only [↓lkeep_staleFrame]
  · split
    · simp +decide only [↓lkeep_staleFrame]
    · split
      · simp +decide only [↓lkeep_targetEnd, ↓lkeep_dedupeEntry]
      · extract_lets off e1
        have he1 : lkeep finishChainF e1 = lkeep finishChainF d := by simp only [e1]; simp +decide only [↓lkeep_dedupeEntry]
        split
        · simp +decide only [he1, ↓lkeep_dataWhole, ↓lkeep_ite, ite_self]
        · exact he1

theorem lkeep_cancelArrived {ft : Nat} (hft : inFoot finishChainF ft = true) (f : Frame) (d : Dev) : lkeep ft (cancelArrived f
    d) = lkeep ft d := by
  refine lkeep_mono hft ?_
  unfold cancelArrived
  split
  · simp +decide only [↓lkeep_staleFrame]
  · extract_lets e1
    have he1 : lkeep finishChainF e1 = lkeep finishChainF d := by
      simp only [e1]
      split
      · simp +decide only [↓lkeep_discardCtx, ↓lkeep_discardData, ↓lkeep_restorePtr, ↓lkeep_undoContext, ↓lkeep_ite, ite_self]
      · rfl
    split
    · simp +decide only [↓lkeep_staleFrame]
    · simp +decide only [he1, ↓lkeep_dedupeEntry]

def updTxChainF : Nat := chainFoot [.root]
theorem lkeep_updTx {ft : Nat} (hft : inFoot updTxChainF ft = true) (d : Dev) (tag : Nat) (g : RootTx → RootTx) : lkeep ft
    (d.updTx tag g) = lkeep ft d :=
  lkeep_mono hft (by simp +decide only [Dev.updTx, ↓lkeep_updChain, lmask, chainView, if_true, implies_true])

theorem lkeep_ackArrived {ft : Nat} (hft : inFoot updTxChainF ft = true) (f : Frame) (d : Dev) : lkeep ft (ackArrived f d) =
    lkeep ft d :=
  lkeep_mono hft (by simp +decide only [ackArrived]; split <;> simp +decide only [↓lkeep_staleFrame,
    ↓lkeep_updTx])

def xrdyArrivedChainF : Nat := chainFoot [.ports, .root, .selfNaks]
theorem lkeep_xrdyArrived {ft : Nat} (hft : inFoot xrdyArrivedChainF ft = true) (f : Frame) (d : Dev) : lkeep ft (xrdyArrived f
    d) = lkeep ft d := by
  refine lkeep_mono hft ?_
  unfold xrdyArrived
  split
  · simp +decide only [↓lkeep_staleFrame]
  · extract_lets e1
    have he1 : lkeep xrdyArrivedChainF e1 = lkeep xrdyArrivedChainF d := by simp only [e1]; simp +decide only [↓lkeep_updTx]
    split
    · exact he1
    · simp +decide only [he1, ↓lkeep_originate, ↓lkeep_forEach, implies_true]

theorem lkeep_tryCpl {ft : Nat} (hft : inFoot finishChainF ft = true) (d : Dev) (tag : Nat) : lkeep ft (tryCpl d tag) = lkeep ft
    d := by
  refine lkeep_mono hft ?_
  unfold tryCpl
  split
  · rfl
  · split
    · rfl
    · extract_lets status e1
      have he1 : lkeep finishChainF e1 = lkeep finishChainF d := by
        simp only [e1]
        split
        · split
          · simp +decide only [↓lkeep_emit, ↓lkeep_ite, ite_self]
          · rfl
        · rfl
      split
      · rfl
      · simp +decide only [he1, ↓lkeep_rootFinish]

theorem lkeep_rdataArrived {ft : Nat} (hft : inFoot finishChainF ft = true) (f : Frame) (d : Dev) : lkeep ft (rdataArrived f d)
    = lkeep ft d :=
  lkeep_mono hft (by unfold rdataArrived; split <;> simp +decide only [↓lkeep_rootEnd, ↓lkeep_staleFrame, ↓lkeep_updTx, ↓lkeep_tryCpl,
    ↓lkeep_ite, ite_self])

theorem lkeep_cplArrived {ft : Nat} (hft : inFoot finishChainF ft = true) (f : Frame) (d : Dev) : lkeep ft (cplArrived f d) =
    lkeep ft d :=
  lkeep_mono hft (by simp +decide only [cplArrived]; split <;> simp +decide only
    [↓lkeep_staleFrame, ↓lkeep_updTx, ↓lkeep_tryCpl])

theorem lkeep_sendLocal {ft : Nat} (hft : inFoot sendFlitChainF ft = true) (d : Dev) (p : Nat) (f : Frame) : lkeep ft (sendLocal
    d p f) = lkeep ft d :=
  lkeep_mono hft (by simp +decide only [sendLocal, ↓lkeep_putOn])

theorem lkeep_rcLocal {ft : Nat} (hft : inFoot sendFlitChainF ft = true) (d : Dev) (p sub : Nat) (fields : List Nat) : lkeep ft
    (rcLocal d p sub fields) = lkeep ft d :=
  lkeep_mono hft (by simp +decide only [rcLocal, ↓lkeep_sendLocal])

theorem lkeep_flood {ft : Nat} (hft : inFoot sendFlitChainF ft = true) (d : Dev) (except : Option Nat) (sub : Nat) (fields :
    List Nat) : lkeep ft (flood d except sub fields) = lkeep ft d :=
  lkeep_mono hft (by simp +decide only [flood, ↓lkeep_rcLocal, ↓lkeep_forEach, implies_true])

def announceSelfChainF : Nat := chainFoot [.ports, .gen, .heard, .announced]
theorem lkeep_announceSelf {ft : Nat} (hft : inFoot announceSelfChainF ft = true) (d : Dev) : lkeep ft (announceSelf d) = lkeep
    ft d :=
  lkeep_mono hft (by simp +decide only [announceSelf, ↓lkeep_wr, ↓lkeep_updChain, lmask, chainView, if_true, implies_true, ↓lkeep_flood])

theorem lkeep_rollStart {ft : Nat} (hft : inFoot announceSelfChainF ft = true) (d : Dev) : lkeep ft (rollStart d) = lkeep ft d
    :=
  lkeep_mono hft (by simp +decide only [rollStart, ↓lkeep_announceSelf, ↓lkeep_ite, ite_self])

theorem lkeep_announceHeard {ft : Nat} (hft : inFoot announceSelfChainF ft = true) (p devId gen : Nat) (d : Dev) : lkeep ft
    (announceHeard p devId gen d) = lkeep ft d :=
  lkeep_mono hft (by simp +decide only [announceHeard, ↓lkeep_updChain, lmask, chainView, if_true, implies_true, ↓lkeep_flood, ↓lkeep_rollStart, ↓lkeep_ite, ite_self])

def probeHeardChainF : Nat := chainFoot [.ports, .relayed]
theorem lkeep_probeHeard {ft : Nat} (hft : inFoot probeHeardChainF ft = true) (p src exit gen : Nat) (d : Dev) : lkeep ft
    (probeHeard p src exit gen d) = lkeep ft d :=
  lkeep_mono hft (by simp +decide only [probeHeard, ↓lkeep_updChain, lmask, chainView, if_true, implies_true, ↓lkeep_rcLocal, ↓lkeep_ite, ite_self])

theorem lkeep_rcTo {ft : Nat} (hft : inFoot originateChainF ft = true) (d : Dev) (dest sub : Nat) (fields : List Nat) : lkeep ft
    (rcTo d dest sub fields) = lkeep ft d :=
  lkeep_mono hft (by simp +decide only [rcTo, ↓lkeep_originate])

theorem lkeep_probeNext {ft : Nat} (hft : inFoot originateChainF ft = true) (d : Dev) : lkeep ft (probeNext d) = lkeep ft d :=
  lkeep_mono hft (by simp +decide only [probeNext]; split <;> simp +decide only
    [↓lkeep_rcLocal, ↓lkeep_rcTo, ↓lkeep_ite, ite_self])

theorem lkeep_writeRoute {ft : Nat} (d : Dev) (i w : Nat) : lkeep ft (writeRoute d i w) = lkeep ft d :=
  lkeep_of_keep (keep_writeRoute (ft := writeRouteFoot) (by decide) d i w) (by decide) ft

theorem lkeep_writeTable {ft : Nat} (hft : inFoot originateChainF ft = true) (d : Dev) (a : Nat) : lkeep ft (writeTable d a) =
    lkeep ft d :=
  lkeep_mono hft (by simp +decide only [writeTable, ↓lkeep_originate, ↓lkeep_writeRoute, ↓lkeep_forEach, ↓lkeep_ite, ite_self,
    implies_true])

def refreshNodesChainF : Nat := chainFoot [.nodes, .topoGen]
theorem lkeep_refreshNodes {ft : Nat} (hft : inFoot refreshNodesChainF ft = true) (d : Dev) : lkeep ft (refreshNodes d) = lkeep
    ft d :=
  lkeep_mono hft (by simp +decide only [refreshNodes, ↓lkeep_draw, ↓lkeep_updChain, lmask, chainView, if_true, implies_true])

def fitTablesChainF : Nat := chainFoot [.nodes, .topoGen, .links, .rcFail]
theorem lkeep_fitTables {ft : Nat} (hft : inFoot fitTablesChainF ft = true) (d : Dev) : lkeep ft (fitTables d) = lkeep ft d :=
  lkeep_mono hft (by simp +decide only [fitTables, ↓lkeep_setFlag, ↓lkeep_updChain, lmask, chainView, if_true, implies_true, ↓lkeep_refreshNodes, ↓lkeep_ite, ite_self])

def surveyEndChainF : Nat := chainFoot [.ports, .nodes, .topoGen, .links, .selfNaks, .rcFail]
theorem lkeep_surveyEnd {ft : Nat} (hft : inFoot surveyEndChainF ft = true) (d : Dev) : lkeep ft (surveyEnd d) = lkeep ft d :=
  lkeep_mono hft (by simp +decide only [surveyEnd, ↓lkeep_wr, ↓lkeep_flood, ↓lkeep_writeTable, ↓lkeep_refreshNodes, ↓lkeep_fitTables,
    ↓lkeep_forEach, ↓lkeep_ite, ite_self, implies_true])

def takeReportChainF : Nat := chainFoot [.ports, .root, .nodes, .topoGen, .devId, .fresh, .survey, .links, .selfNaks, .nextAddr,
  .rcFail]
theorem lkeep_takeReport {ft : Nat} (hft : inFoot takeReportChainF ft = true) (d : Dev) (r : NodeReport) : lkeep ft (takeReport
    d r) = lkeep ft d :=
  lkeep_mono hft (by simp +decide only [takeReport]; split <;> simp +decide only [↓lkeep_setFlag, ↓lkeep_updChain, lmask, chainView, if_true, implies_true, ↓lkeep_rcLocal,
    ↓lkeep_rcTo, ↓lkeep_probeNext, ↓lkeep_surveyEnd, ↓lkeep_ite, ite_self])

def reportHeardChainF : Nat := chainFoot [.ports, .root, .nodes, .topoGen, .devId, .fresh, .survey, .relayed, .lastReport,
  .links, .selfNaks, .nextAddr, .rcFail]
theorem lkeep_reportHeard {ft : Nat} (hft : inFoot reportHeardChainF ft = true) (p dest : Nat) (r : NodeReport) (d : Dev) :
    lkeep ft (reportHeard p dest r d) = lkeep ft d :=
  lkeep_mono hft (by simp +decide only [reportHeard, ↓lkeep_updChain, lmask, chainView, if_true, implies_true, ↓lkeep_rcTo, ↓lkeep_takeReport, ↓lkeep_ite, ite_self])

def assignHeardChainF : Nat := chainFoot [.ports, .nodes, .lastReport]
theorem lkeep_assignHeard {ft : Nat} (hft : inFoot assignHeardChainF ft = true) (addr gen : Nat) (d : Dev) : lkeep ft
    (assignHeard addr gen d) = lkeep ft d := by
  refine lkeep_mono hft ?_
  unfold assignHeard
  split
  · split
    · simp +decide only [↓lkeep_updChain, lmask, chainView, if_true, implies_true, ↓lkeep_rcLocal]
    · rfl
  · simp +decide only [↓lkeep_wr, ↓lkeep_updChain, lmask, chainView, if_true, implies_true]

def surveyStartChainF : Nat := chainFoot [.ports, .fresh, .survey, .links, .selfNaks, .nextAddr]
theorem lkeep_surveyStart {ft : Nat} (hft : inFoot surveyStartChainF ft = true) (d : Dev) : lkeep ft (surveyStart d) = lkeep ft
    d :=
  lkeep_mono hft (by simp +decide only [surveyStart, ↓lkeep_updChain, lmask, chainView, if_true, implies_true, ↓lkeep_probeNext])

def doneHeardChainF : Nat := chainFoot [.ports, .nodes, .topoGen, .fresh, .survey, .links, .selfNaks, .nextAddr, .rcFail]
theorem lkeep_doneHeard {ft : Nat} (hft : inFoot doneHeardChainF ft = true) (p gen : Nat) (d : Dev) : lkeep ft (doneHeard p gen
    d) = lkeep ft d :=
  lkeep_mono hft (by simp +decide only [doneHeard, ↓lkeep_wr, ↓lkeep_flood, ↓lkeep_surveyStart, ↓lkeep_surveyEnd, ↓lkeep_ite, ite_self])

def linkChangedChainF : Nat := chainFoot [.ports, .nodes, .topoGen, .links, .selfNaks]
theorem lkeep_linkChanged {ft : Nat} (hft : inFoot linkChangedChainF ft = true) (d : Dev) (addr port : Nat) (up : Bool) : lkeep
    ft (linkChanged d addr port up) = lkeep ft d :=
  lkeep_mono hft (by simp +decide only [linkChanged, ↓lkeep_updChain, lmask, chainView, if_true, implies_true, ↓lkeep_writeTable, ↓lkeep_refreshNodes, ↓lkeep_forEach,
    ↓lkeep_ite, ite_self, implies_true])

def noticeHeardChainF : Nat := chainFoot [.ports, .nodes, .topoGen, .gen, .heard, .announced, .told, .links, .selfNaks]
theorem lkeep_noticeHeard {ft : Nat} (hft : inFoot noticeHeardChainF ft = true) (p addr port : Nat) (up : Bool) (d : Dev) :
    lkeep ft (noticeHeard p addr port up d) = lkeep ft d :=
  lkeep_mono hft (by simp +decide only [noticeHeard, ↓lkeep_updChain, lmask, chainView, if_true, implies_true, ↓lkeep_flood, ↓lkeep_rollStart, ↓lkeep_linkChanged, ↓lkeep_ite,
    ite_self])

theorem lkeep_routeHeard {ft : Nat} (first : Nat) (ws : List Nat) (d : Dev) : lkeep ft (routeHeard first ws d) = lkeep ft d :=
  lkeep_of_keep (keep_routeHeard (ft := writeRouteFoot) (by decide) first ws d) (by decide) ft

def consumeFrameChainF : Nat := chainFoot [.ports, .root, .dedupe, .nodes, .topoGen, .devId, .gen, .heard, .announced, .fresh,
  .told, .survey, .relayed, .lastReport, .links, .selfNaks, .nextAddr, .rcFail]
theorem lkeep_consumeFrame {ft : Nat} (hft : inFoot consumeFrameChainF ft = true) (d : Dev) (p : Nat) (f : Frame) : lkeep ft
    (consumeFrame d p f) = lkeep ft d := by
  refine lkeep_mono hft ?_
  unfold consumeFrame
  extract_lets b
  refine lkeep_ite_of (by simp +decide only [↓lkeep_cmdArrived])
      (lkeep_ite_of (by simp +decide only [↓lkeep_ackArrived])
      (lkeep_ite_of (by simp +decide only [↓lkeep_xrdyArrived])
      (lkeep_ite_of (by simp +decide only [↓lkeep_wdataArrived])
      (lkeep_ite_of (by simp +decide only [↓lkeep_rdataArrived])
      (lkeep_ite_of (by simp +decide only [↓lkeep_cplArrived])
    (lkeep_ite_of (by simp +decide only [↓lkeep_ackArrived])
        (lkeep_ite_of (by simp +decide only [↓lkeep_cancelArrived])
        (lkeep_ite_of (by simp +decide only [↓lkeep_nakArrived])
        (lkeep_ite_of (by simp +decide only [↓lkeep_routeHeard])
        (lkeep_ite_of ?_ rfl))))))))))
  split
  all_goals simp +decide only [↓lkeep_announceHeard, ↓lkeep_probeHeard, ↓lkeep_reportHeard,
      ↓lkeep_assignHeard, ↓lkeep_doneHeard, ↓lkeep_noticeHeard]

theorem lkeep_acceptFrame {ft : Nat} (hft : inFoot consumeFrameChainF ft = true) (d : Dev) (p : Nat) (f : Frame) : lkeep ft
    (acceptFrame d p f) = lkeep ft d := by
  refine lkeep_mono hft ?_
  unfold acceptFrame
  extract_lets free hop
  have hfree (e : Dev) : lkeep consumeFrameChainF (free e) = lkeep consumeFrameChainF e := by simp only [free]; simp +decide only
      [↓lkeep_freeRx]
  split
  · simp +decide only [hfree, ↓lkeep_addWrap]
  · split
    · exact hfree d
    · split
      · simp +decide only [↓lkeep_dropFrame]
      · split
        · simp +decide only [hfree, ↓lkeep_consumeFrame]
        · simp +decide only [↓lkeep_forwardFrame]

theorem lkeep_stompOn {ft : Nat} (hft : inFoot sendAsChainF ft = true) (d : Dev) (p : Nat) (f : Frame) : lkeep ft (stompOn d p
    f) = lkeep ft d := by
  refine lkeep_mono hft ?_
  unfold stompOn
  extract_lets hop leave
  have hleave (q : Nat) (f : Frame) : lkeep sendAsChainF (leave q f) = lkeep sendAsChainF d := by
    simp only [leave]
    split
    · rfl
    · simp +decide only [↓lkeep_draw, ↓lkeep_sendAs, ↓lkeep_ite, ite_self]
  split
  · rfl
  · split
    · exact hleave _ _
    · exact hleave _ _
    · rfl

theorem lkeep_fecCount {ft : Nat} (d : Dev) (p : Nat) : lkeep ft (fecCount d p) = lkeep ft d :=
  lkeep_of_keep (keep_fecCount (ft := fecCountFoot) (by decide) d p) (by decide) ft

def frameReceivedChainF : Nat := chainFoot [.ports, .root, .dedupe, .nodes, .topoGen, .devId, .gen, .heard, .announced, .fresh,
  .told, .survey, .relayed, .lastReport, .links, .selfNaks, .nextAddr, .rcFail, .expects, .nakAsks]
theorem lkeep_frameReceived {ft : Nat} (hft : inFoot frameReceivedChainF ft = true) (p : Nat) (f : Frame) (chk : FrameCheck) (d
    : Dev) : lkeep ft (frameReceived p f chk d) = lkeep ft d := by
  refine lkeep_mono hft ?_
  unfold frameReceived
  split
  · rfl
  · extract_lets e1 e2 inOrder next
    have he2 : lkeep frameReceivedChainF e2 = lkeep frameReceivedChainF d := by simp only [e2, e1]; simp +decide only [↓lkeep_addSat,
        ↓lkeep_fecCount, ↓lkeep_ite, ite_self]
    have hnext (e : Dev) : lkeep frameReceivedChainF (next e) = lkeep frameReceivedChainF e := by simp only [next]; simp +decide only
        [↓lkeep_updLport, portMask, if_true, implies_true]
    split
    all_goals simp +decide only [he2, hnext, ↓lkeep_addWrap, ↓lkeep_setFlag, ↓lkeep_flitDue,
        ↓lkeep_freeRx, ↓lkeep_refuseFrame, ↓lkeep_acceptFrame, ↓lkeep_stompOn, ↓lkeep_ite, ite_self]

theorem lkeep_takeNaks {ft : Nat} (hft : inFoot finishChainF ft = true) (d : Dev) : lkeep ft (takeNaks d) = lkeep ft d :=
  lkeep_mono hft (by simp +decide only [takeNaks, ↓lkeep_nakArrived, ↓lkeep_part_chain, lmask, chainView, if_true, implies_true, ↓lkeep_forEach, implies_true])

theorem lkeep_syncDedup {ft : Nat} (d : Dev) : lkeep ft (syncDedup d) = lkeep ft d :=
  lkeep_of_keep (keep_syncDedup (ft := syncDedupFoot) (by decide) d) (by decide) ft

theorem lkeep_settleChain {ft : Nat} (hft : inFoot finishChainF ft = true) (d : Dev) : lkeep ft (settleChain d) = lkeep ft d :=
  lkeep_mono hft (by simp +decide only [settleChain, ↓lkeep_syncHost, ↓lkeep_takeNaks, ↓lkeep_syncDedup])

def pumpReplayChainF : Nat := chainFoot [.ports]
theorem lkeep_pumpReplay {ft : Nat} (hft : inFoot pumpReplayChainF ft = true) (d : Dev) (p : Nat) : lkeep ft (pumpReplay d p) =
    lkeep ft d := by
  refine lkeep_mono hft ?_
  unfold pumpReplay
  refine lkeep_forEach _ _ _ fun e n => ?_
  split
  · simp +decide only [↓lkeep_updLport, portMask, implies_true]
  · split
    · simp +decide only [↓lkeep_sub, ↓lkeep_addWrap, ↓lkeep_wr, ↓lkeep_emit, ↓lkeep_updLport, portMask, implies_true]
    · rfl

theorem lkeep_pumpPort {ft : Nat} (hft : inFoot originateChainF ft = true) (d : Dev) (p : Nat) : lkeep ft (pumpPort d p) = lkeep
    ft d :=
  lkeep_mono hft (by simp +decide only [pumpPort, ↓lkeep_updLport, portMask, implies_true, ↓lkeep_departTransit, ↓lkeep_pumpReplay, ↓lkeep_forEach,
    implies_true])

end Sys2Proof.Machine
end

section
/-! PROOF. State changes of a Lomey port. -/
namespace Sys2Proof.Machine

theorem flag_of_keep {m : Nat} {d e : Dev} {f : Fld} (h : keep m e = keep m d) (hf : m.testBit (32 + f.id) = false) (i j : Nat) :
    e.flag f i j = d.flag f i j := by rw [Dev.flag, rd_of_keep h hf, Dev.flag]

/-! ### A port's record -/

theorem lport_updLport (d : Dev) (p : Nat) (g : LPort → LPort) (q : Nat) :
    (d.updLport p g).lport q = if q = p then g (d.lport p) else d.lport q := by
  rw [Dev.lport]
  exact tabGet_tabPut ({} : LPort) d.chain.ports p (g (d.lport p)) q

theorem lport_updLport_same (d : Dev) (p : Nat) (g : LPort → LPort) : (d.updLport p g).lport p = g (d.lport p) := by
  rw [lport_updLport, if_pos rfl]

theorem lport_of_chain {d e : Dev} (h : e.chain = d.chain) (p : Nat) : e.lport p = d.lport p := by rw [Dev.lport, h, Dev.lport]

theorem flushPort_lport (d : Dev) (p : Nat) :
    ((flushPort d p).lport p).txq = [] ∧ ((flushPort d p).lport p).retry = [] ∧ ((flushPort d p).lport p).resend = [] := by
  rw [flushPort, lport_updLport_same]
  exact ⟨rfl, rfl, rfl⟩

/-- A port with nothing to send again and nothing queued sends nothing. -/
theorem pumpPort_idle {d : Dev} {p : Nat} (hresend : (d.lport p).resend = []) (hq : (d.lport p).txq = []) :
    pumpPort d p = d.updLport p fun l => { l with txq := [] } := by
  have hreplay : pumpReplay d p = d := by rw [pumpReplay, hresend]; rfl
  rw [pumpPort, hreplay, hq]
  rfl

theorem pumpPort_rd (d : Dev) (p : Nat) {f : Fld} (hf : departTransitFoot.testBit (32 + f.id) = false) (i j : Nat) :
    (pumpPort d p).rd f i j = d.rd f i j := rd_of_keep (keep_pumpPort (ft := departTransitFoot) (by decide) d p) hf i j

/-! ### A link that is trained -/

/-- A port's record with every number of the link at its start. -/
def LPort.restarted (l : LPort) : LPort := { l with expect := 0, unacked := 0, freed := [], told := 0, seen := [], keyFrames := 0 }

/-- The device that a fresh link starts from: nothing queued, nothing to acknowledge and every number at its start. -/
def linkCleared (d : Dev) (p : Nat) : Dev :=
  (((flushPort d p).updLport p LPort.restarted).wr F.lmlRetry_next_seq 0 p).wr F.lmlRetry_acked 0 p

theorem linkFresh_eq (d : Dev) (p : Nat) : linkFresh d p =
    forEach (List.range 8) (linkCleared d p) fun d c => (d.wr F.lmlCred_tx_avail 512 p c).wr F.lmlCred_rx_used 0 p c := rfl

theorem linkFresh_lport (d : Dev) (p : Nat) : (linkFresh d p).lport p = (linkCleared d p).lport p := by
  refine lport_of_chain (d := linkCleared d p) ?_ p
  rw [linkFresh_eq]
  exact forEach_keeps (p := Dev.chain) (fun _ _ _ => by rfl) (linkCleared d p)

theorem linkCleared_lport (d : Dev) (p : Nat) : ((linkCleared d p).lport p).expect = 0 ∧ ((linkCleared d p).lport p).txq = [] ∧
    ((linkCleared d p).lport p).resend = [] := by
  obtain ⟨hq, _, hresend⟩ := flushPort_lport d p
  have hl : (linkCleared d p).lport p = ((flushPort d p).lport p).restarted := lport_updLport_same (flushPort d p) p LPort.restarted
  rw [hl]
  exact ⟨rfl, hq, hresend⟩

theorem linkFresh_credit (d : Dev) (p : Nat) {c : Nat} (hc : c < 8) : (linkFresh d p).rd F.lmlCred_tx_avail p c = 512 := by
  rw [linkFresh_eq]
  refine forEach_reaches (P := fun e => e.rd F.lmlCred_tx_avail p c = 512) (List.mem_range.2 hc) (fun e => ?_) (fun e k _ he => ?_) _
  · rw [Dev.rd_wr_ne _ _ _ _ _ _ _ _ (by decide), Dev.rd_wr_same]
    rfl
  · rw [Dev.rd_wr_ne _ _ _ _ _ _ _ _ (by decide), Dev.rd_wr_self]
    split
    · rfl
    · exact he

theorem Onward.flushPort {b d : Dev} (hd : Onward b d) (p : Nat) : Onward b (flushPort d p) := by
  have hfreed : Onward b (Machine.forEach (d.lport p).txq d fun d tf => Machine.freeRx d tf.arrival tf.f.tc tf.f.length) :=
    Onward.forEach (fun e tf he => he.freeRx _ _ _) hd
  exact hfreed.of' rfl rfl

theorem Onward.linkFresh {b d : Dev} (hd : Onward b d) (p : Nat) : Onward b (linkFresh d p) := by
  rw [linkFresh_eq]
  exact Onward.forEach (fun e c he => he.of' rfl rfl) ((hd.flushPort p).of' rfl rfl)

/-- The device with the group found, told to the other end. -/
def lanesTold (p lanes w delay : Nat) (d : Dev) : Dev :=
  (((d.wr F.lmlStat_width w p).wr F.lmlStat_lanes lanes p).wr F.lmlStat_link_delay delay p).emit
    (.unit p 0x33 (controlFlit none none [] (lanes + 256 * d.rd F.lmlStat_rate p)))

/-- The device of a trained link before it comes up. -/
def portTrained (p lanes w peerWidth : Nat) (peerEncrypt : Bool) (delay : Nat) (d : Dev) : Dev :=
  (linkFresh (lanesTold p lanes w delay d) p).updLport p fun l =>
      { l with peerWidth := peerWidth, peerEncrypt := peerEncrypt }

theorem portTrained_rd (p lanes w peerWidth : Nat) (enc : Bool) (delay : Nat) (d : Dev) {f : Fld}
    (hf : linkFreshFoot.testBit (32 + f.id) = false) :
    (portTrained p lanes w peerWidth enc delay d).rd f p = (lanesTold p lanes w delay d).rd f p := by
  rw [portTrained, Dev.updLport_rd]
  exact rd_of_keep (keep_linkFresh (ft := linkFreshFoot) (by decide) _ p) hf p 0

theorem trainingDone_trains {d : Dev} {p lanes peer peerWidth delay w base : Nat} {enc : Bool} (htrain : training d p = true)
    (hgroup : linkGroup (lanes &&& peer) (min (d.rd F.lmlCfg_width p) peerWidth) = some (w, base)) :
    trainingDone p lanes peer peerWidth enc delay d = if d.flag F.lmlCfg_encrypt p || enc then
      (portTrained p lanes w peerWidth enc delay d).wr F.lmlStat_state 2 p else portUp (portTrained p lanes w peerWidth enc delay d) p := by
  have hrate : (((d.wr F.lmlStat_width w p).wr F.lmlStat_lanes lanes p).wr F.lmlStat_link_delay delay p).rd F.lmlStat_rate p =
      d.rd F.lmlStat_rate p := by
    rw [Dev.rd_wr_ne _ _ _ _ _ _ _ _ (by decide), Dev.rd_wr_ne _ _ _ _ _ _ _ _ (by decide), Dev.rd_wr_ne _ _ _ _ _ _ _ _ (by decide)]
  have henc : (portTrained p lanes w peerWidth enc delay d).flag F.lmlCfg_encrypt p = d.flag F.lmlCfg_encrypt p := by
    rw [Dev.flag, portTrained_rd p lanes w peerWidth enc delay d (by decide), ← Dev.flag]
    refine (Dev.flag_wr_ne _ _ _ _ _ _ _ _ (by decide)).trans ?_
    exact (Dev.flag_wr_ne _ _ _ _ _ _ _ _ (by decide)).trans (Dev.flag_wr_ne _ _ _ _ _ _ _ _ (by decide))
  rw [trainingDone, htrain, if_neg (by decide), hgroup]
  dsimp only
  rw [hrate, ← lanesTold, ← portTrained, henc]

/-- What a trained link shows, before it comes up and after. -/
structure Trained (p lanes w delay rate : Nat) (d : Dev) : Prop where
  width : d.rd F.lmlStat_width p = w % 2 ^ F.lmlStat_width.w
  shown : d.rd F.lmlStat_lanes p = lanes % 2 ^ F.lmlStat_lanes.w
  late : d.rd F.lmlStat_link_delay p = delay % 2 ^ F.lmlStat_link_delay.w
  expect : (d.lport p).expect = 0
  told : Emit.unit p 0x33 (controlFlit none none [] (lanes + 256 * rate)) ∈ d.out
  credit : ∀ c, c < 8 → d.rd F.lmlCred_tx_avail p c = 512

theorem portTrained_trained (p lanes w peerWidth : Nat) (enc : Bool) (delay : Nat) (d : Dev) :
    Trained p lanes w delay (d.rd F.lmlStat_rate p) (portTrained p lanes w peerWidth enc delay d) := by
  have hfresh {f : Fld} (hf : linkFreshFoot.testBit (32 + f.id) = false) := portTrained_rd p lanes w peerWidth enc delay d hf
  obtain ⟨hexpect, _, _⟩ := linkCleared_lport (lanesTold p lanes w delay d) p
  rw [← linkFresh_lport] at hexpect
  constructor
  · refine (hfresh (by decide)).trans ((Dev.rd_wr_ne _ _ _ _ _ _ _ _ (by decide)).trans ?_)
    exact (Dev.rd_wr_ne _ _ _ _ _ _ _ _ (by decide)).trans (Dev.rd_wr_same ..)
  · exact (hfresh (by decide)).trans ((Dev.rd_wr_ne _ _ _ _ _ _ _ _ (by decide)).trans (Dev.rd_wr_same ..))
  · exact (hfresh (by decide)).trans (Dev.rd_wr_same ..)
  · rw [portTrained, lport_updLport_same]
    exact hexpect
  · have htold : Emit.unit p 0x33 (controlFlit none none [] (lanes + 256 * d.rd F.lmlStat_rate p)) ∈ (lanesTold p lanes w delay d).out :=
      List.mem_cons_self
    rw [portTrained, Dev.updLport_out]
    exact ((Onward.refl (lanesTold p lanes w delay d)).linkFresh p).out htold
  · intro c hc
    rw [portTrained, Dev.updLport_rd]
    exact linkFresh_credit _ p hc

theorem portTrained_idle (p lanes w peerWidth : Nat) (enc : Bool) (delay : Nat) (d : Dev) :
    ((portTrained p lanes w peerWidth enc delay d).lport p).resend = [] ∧ ((portTrained p lanes w peerWidth enc delay d).lport p).txq = [] := by
  obtain ⟨_, hq, hresend⟩ := linkCleared_lport (lanesTold p lanes w delay d) p
  rw [← linkFresh_lport] at hq hresend
  rw [portTrained, lport_updLport_same]
  exact ⟨hresend, hq⟩

theorem Trained.of {p lanes w delay rate : Nat} {d e : Dev} (h : Trained p lanes w delay rate d)
    (hrd : ∀ f c, f.id ≠ F.lmlStat_state.id → f.id ≠ F.lmlEvt_up.id → f.id ≠ F.lmlStat_routed.id → e.rd f p c = d.rd f p c)
    (hexpect : (e.lport p).expect = (d.lport p).expect) (hout : e.out = d.out) : Trained p lanes w delay rate e where
  width := (hrd _ 0 (by decide) (by decide) (by decide)).trans h.width
  shown := (hrd _ 0 (by decide) (by decide) (by decide)).trans h.shown
  late := (hrd _ 0 (by decide) (by decide) (by decide)).trans h.late
  expect := hexpect.trans h.expect
  told := hout ▸ h.told
  credit c hc := (hrd _ c (by decide) (by decide) (by decide)).trans (h.credit c hc)

theorem Trained.wr_state {p lanes w delay rate : Nat} {d : Dev} (h : Trained p lanes w delay rate d) (v : Nat) :
    Trained p lanes w delay rate (d.wr F.lmlStat_state v p) :=
  h.of (fun f c hs _ _ => Dev.rd_wr_ne d F.lmlStat_state f v p 0 p c (Ne.symm hs)) rfl rfl

/-- A port marked as up, before it sends what waited. -/
def portMarked (d : Dev) (p : Nat) : Dev :=
  ((d.wr F.lmlStat_state 3 p).setFlag F.lmlEvt_up true p).setFlag F.lmlStat_routed (!(d.lport p).restoring) p

theorem portUp_eq (d : Dev) (p : Nat) : portUp d p = pumpPort (portMarked d p) p := rfl

theorem portMarked_rd (d : Dev) (p : Nat) {f : Fld} (hs : f.id ≠ F.lmlStat_state.id) (he : f.id ≠ F.lmlEvt_up.id)
    (hr : f.id ≠ F.lmlStat_routed.id) (i j : Nat) : (portMarked d p).rd f i j = d.rd f i j := by
  refine (Dev.rd_setFlag_ne _ _ _ _ _ _ _ _ (Ne.symm hr)).trans ((Dev.rd_setFlag_ne _ _ _ _ _ _ _ _ (Ne.symm he)).trans ?_)
  exact Dev.rd_wr_ne _ _ _ _ _ _ _ _ (Ne.symm hs)

theorem portUp_state (d : Dev) (p : Nat) : (portUp d p).rd F.lmlStat_state p = 3 := by
  refine (pumpPort_rd _ p (by decide) p 0).trans ((Dev.rd_setFlag_ne _ _ _ _ _ _ _ _ (by decide)).trans ?_)
  exact (Dev.rd_setFlag_ne _ _ _ _ _ _ _ _ (by decide)).trans (Dev.rd_wr_lt _ _ _ _ _ (by decide))

theorem portUp_routed (d : Dev) (p : Nat) : (portUp d p).flag F.lmlStat_routed p = !(d.lport p).restoring :=
  (flag_of_keep (keep_pumpPort (ft := departTransitFoot) (by decide) _ p) (by decide) p 0).trans (Dev.flag_setFlag _ _ _ _ _ (by decide))

theorem portUp_trained {p lanes w delay rate : Nat} {d : Dev} (h : Trained p lanes w delay rate d) (hresend : (d.lport p).resend = [])
    (hq : (d.lport p).txq = []) : Trained p lanes w delay rate (portUp d p) := by
  rw [portUp_eq, pumpPort_idle (d := portMarked d p) hresend hq]
  refine h.of (fun f c hs he hr => portMarked_rd d p hs he hr p c) ?_ rfl
  rw [lport_updLport_same]
  rfl

theorem trainingComplete_brings (s : State) (p : LmlId) (lanes peer : Fin 256) (width delay w base : Nat) (enc : Bool)
    (htrain : training s.dev p.val = true)
    (hgroup : linkGroup (lanes.val &&& peer.val) (min (s.dev.rd F.lmlCfg_width p.val) width) = some (w, base)) :
    Brings (.trainingComplete p lanes peer width enc delay) s fun d =>
      d.rd F.lmlStat_state p.val = (if s.dev.flag F.lmlCfg_encrypt p.val || enc then 2 else 3) ∧
      d.rd F.lmlStat_width p.val = w % 2 ^ F.lmlStat_width.w ∧ d.rd F.lmlStat_lanes p.val = lanes.val ∧
      d.rd F.lmlStat_link_delay p.val = delay % 2 ^ F.lmlStat_link_delay.w ∧ (d.lport p.val).expect = 0 ∧
      Emit.unit p.val 0x33 (controlFlit none none [] (lanes.val + 256 * s.dev.rd F.lmlStat_rate p.val)) ∈ d.out ∧
      ∀ c, c < 8 → d.rd F.lmlCred_tx_avail p.val c = 512 := by
  refine brings_of_run (execTrainingComplete.eq_def p lanes peer width enc delay s) ?_
  rw [trainingDone_trains htrain hgroup]
  have htrained := portTrained_trained p.val lanes.val w width enc delay s.dev
  obtain ⟨hresend, hq⟩ := portTrained_idle p.val lanes.val w width enc delay s.dev
  have hlanes : lanes.val % 2 ^ F.lmlStat_lanes.w = lanes.val := Nat.mod_eq_of_lt lanes.isLt
  split
  next =>
    obtain ⟨hwidth, hl, hdelay, hexpect, htold, hcredit⟩ := htrained.wr_state 2
    exact ⟨Dev.rd_wr_lt _ _ _ _ _ (by decide), hwidth, hl.trans hlanes, hdelay, hexpect, htold, hcredit⟩
  next =>
    obtain ⟨hwidth, hl, hdelay, hexpect, htold, hcredit⟩ := portUp_trained htrained hresend hq
    exact ⟨portUp_state _ _, hwidth, hl.trans hlanes, hdelay, hexpect, htold, hcredit⟩

theorem rateFallback_gives (s : State) (p : LmlId) (htrain : training s.dev p.val = true) :
    Gives (.trainingRateFallback p) s (s.dev.wr F.lmlStat_rate (min 2 (s.dev.rd F.lmlStat_rate p.val + 1)) p.val) :=
  gives_of_run (execTrainingRateFallback.eq_def p s) (by rw [rateFallback, htrain, if_pos rfl])

theorem retryTimer_brings (s : State) (p : LmlId) (hdown : s.dev.rd F.lmlStat_state p.val = 0)
    (hcause : s.dev.rd F.lmlStat_down_cause p.val = 5) (hused : s.dev.flag F.lmlCfg_used p.val = true)
    (hclock : lmlClockLost s.dev p.val = false) :
    Brings (.trainingRetryTimer p) s fun d => d.rd F.lmlStat_state p.val = 1 ∧ d.rd F.lmlStat_down_cause p.val = 0 ∧
      d.rd F.lmlStat_width p.val = 0 := by
  refine brings_of_run (execTrainingRetryTimer.eq_def p s) ?_
  rw [if_pos (by simp [hdown, hcause, hused]), portTrain, if_neg (by rw [hclock]; decide)]
  refine ⟨?_, ?_, Dev.rd_wr_lt _ _ _ _ _ (by decide)⟩
  · rw [Dev.rd_wr_ne _ _ _ _ _ _ _ _ (by decide), Dev.rd_wr_ne _ _ _ _ _ _ _ _ (by decide), Dev.rd_wr_ne _ _ _ _ _ _ _ _ (by decide),
      Dev.rd_wr_ne _ _ _ _ _ _ _ _ (by decide)]
    exact Dev.rd_wr_lt _ _ _ _ _ (by decide)
  · rw [Dev.rd_wr_ne _ _ _ _ _ _ _ _ (by decide), Dev.rd_wr_ne _ _ _ _ _ _ _ _ (by decide)]
    exact Dev.rd_wr_lt _ _ _ _ _ (by decide)

/-! ### Retraining -/

/-- The oldest frame that waits for its acknowledgement, if any, may be sent again: the port sends what it has. -/
theorem replayOldest_pumps {d : Dev} {p : Nat} (hsends : ∀ x, (d.lport p).retry.head? = some x → x.sends < 9) :
    ∃ e, replayOldest d p = pumpPort e p ∧ e.regs = d.regs := by
  rw [replayOldest]
  cases hretry : (d.lport p).retry with
  | nil => exact ⟨d, rfl, rfl⟩
  | cons x rest =>
    have hx : ¬ 9 ≤ x.sends := Nat.not_le.2 (hsends x (by rw [hretry]; rfl))
    dsimp only
    rw [replayFrom, hretry, List.dropWhile_cons_of_neg (by simp)]
    dsimp only
    rw [if_neg hx]
    exact ⟨_, rfl, rfl⟩

theorem settleChain_rd (d : Dev) {f : Fld} (hf : settleChainFoot.testBit (32 + f.id) = false) (i j : Nat) :
    (settleChain d).rd f i j = d.rd f i j := rd_of_keep (keep_settleChain (ft := settleChainFoot) (by decide) d) hf i j

theorem settleChain_flag (d : Dev) {f : Fld} (hf : settleChainFoot.testBit (32 + f.id) = false) (i j : Nat) :
    (settleChain d).flag f i j = d.flag f i j := flag_of_keep (keep_settleChain (ft := settleChainFoot) (by decide) d) hf i j

theorem rd_of_regs {d e : Dev} (h : e.regs = d.regs) (f : Fld) (i j : Nat) : e.rd f i j = d.rd f i j := by rw [Dev.rd, h, Dev.rd]

theorem linkRetrain_gives (s : State) (p : LmlId) (hup : s.dev.rd F.lmlStat_state p.val = 3) :
    Gives (.linkRetrain p) s ((s.dev.wr F.lmlStat_state 4 p.val).setFlag F.lmlEvt_retrain true p.val) :=
  gives_of_run (execLinkRetrain.eq_def p s) (if_pos hup)

theorem retrainComplete_brings (s : State) (p : LmlId) (hre : s.dev.rd F.lmlStat_state p.val = 4)
    (hsends : ∀ x, (s.dev.lport p.val).retry.head? = some x → x.sends < 9) :
    Brings (.retrainComplete p) s fun d => d.rd F.lmlStat_state p.val = 3 ∧ d.flag F.lmlEvt_up p.val = true := by
  refine brings_of_run (execRetrainComplete.eq_def p s) ?_
  obtain ⟨e, hpump, hregs⟩ := replayOldest_pumps (d := (s.dev.wr F.lmlStat_state 3 p.val).setFlag F.lmlEvt_up true p.val) hsends
  rw [if_pos hre, hpump]
  refine ⟨(settleChain_rd _ (by decide) _ 0).trans ((pumpPort_rd e p.val (by decide) _ 0).trans ?_),
    (settleChain_flag _ (by decide) _ 0).trans ((flag_of_keep (keep_pumpPort (ft := departTransitFoot) (by decide) e p.val) (by decide) _ 0).trans ?_)⟩
  · rw [rd_of_regs hregs, Dev.rd_setFlag_ne _ _ _ _ _ _ _ _ (by decide)]
    exact Dev.rd_wr_lt _ _ _ _ _ (by decide)
  · rw [Dev.flag, rd_of_regs hregs, ← Dev.flag]
    exact Dev.flag_setFlag _ _ _ _ _ (by decide)

/-! ### A port that dies or goes down -/

/-- The port marked as dead. -/
def deadMarked (d : Dev) (p : Nat) : Dev :=
  ((((d.wr F.lmlStat_state 5 p).setFlag F.lmlEvt_dead true p).setFlag F.lmlStat_routed false p).setFlag F.lmlStat_secure false p).wr
    F.lmlStat_rate ((((d.wr F.lmlStat_state 5 p).setFlag F.lmlEvt_dead true p).setFlag F.lmlStat_routed false p).rd F.lmlCfg_rate p) p

/-- What a dying port leaves of the registers, once its queues are cleared and what it held is sent elsewhere. -/
def buryFoot : Nat := footOf [.chain] [F.lmlRetry_buf_used, F.lmlRetry_sends] ||| cardEpochFoot ||| departTransitFoot ||| sendNoticeFoot

theorem portDead_reads (d : Dev) (p : Nat) {f : Fld} (hf : buryFoot.testBit (32 + f.id) = false) (i j : Nat) :
    (portDead d p).rd f i j = (deadMarked d p).rd f i j := by
  have hkeep : keep buryFoot (portDead d p) = keep buryFoot (deadMarked d p) := by
    simp +decide only [portDead, deadMarked, ↓keep_sendNotice, ↓keep_forEach, ↓keep_reroute, ↓keep_cardEpoch, ↓keep_updLport,
      implies_true]
    exact (keep_wr _ _ _ _ _ (by decide)).trans (keep_wr _ _ _ _ _ (by decide))
  exact rd_of_keep hkeep hf i j

theorem portDead_state (d : Dev) (p : Nat) : (portDead d p).rd F.lmlStat_state p = 5 := by
  rw [portDead_reads d p (by decide), deadMarked, Dev.rd_wr_ne _ _ _ _ _ _ _ _ (by decide), Dev.rd_setFlag_ne _ _ _ _ _ _ _ _ (by decide),
    Dev.rd_setFlag_ne _ _ _ _ _ _ _ _ (by decide), Dev.rd_setFlag_ne _ _ _ _ _ _ _ _ (by decide)]
  exact Dev.rd_wr_lt _ _ _ _ _ (by decide)

theorem portDead_flags (d : Dev) (p : Nat) : (portDead d p).flag F.lmlStat_routed p = false ∧
    (portDead d p).flag F.lmlStat_secure p = false ∧ (portDead d p).flag F.lmlEvt_dead p = true := by
  refine ⟨?_, ?_, ?_⟩ <;> rw [Dev.flag, portDead_reads d p (by decide), ← Dev.flag, deadMarked,
    Dev.flag_wr_ne _ _ _ _ _ _ _ _ (by decide)]
  · rw [Dev.flag_setFlag_ne _ _ _ _ _ _ _ _ (by decide)]
    exact Dev.flag_setFlag _ _ _ _ _ (by decide)
  · exact Dev.flag_setFlag _ _ _ _ _ (by decide)
  · rw [Dev.flag_setFlag_ne _ _ _ _ _ _ _ _ (by decide), Dev.flag_setFlag_ne _ _ _ _ _ _ _ _ (by decide)]
    exact Dev.flag_setFlag _ _ _ _ _ (by decide)

theorem retrainTimeout_brings (s : State) (p : LmlId) (hre : s.dev.rd F.lmlStat_state p.val = 4) :
    Brings (.retrainTimeout p) s fun d => d.rd F.lmlStat_state p.val = 5 ∧ d.flag F.lmlStat_routed p.val = false ∧
      d.flag F.lmlStat_secure p.val = false ∧ d.flag F.lmlEvt_dead p.val = true := by
  refine brings_of_run (execRetrainTimeout.eq_def p s) ?_
  obtain ⟨hrouted, hsecure, hdead⟩ := portDead_flags s.dev p.val
  rw [if_pos hre, settleChain_rd _ (by decide), settleChain_flag _ (by decide), settleChain_flag _ (by decide),
    settleChain_flag _ (by decide)]
  exact ⟨portDead_state _ _, hrouted, hsecure, hdead⟩

theorem secureWaitTimeout_brings (s : State) (p : LmlId) (hwait : s.dev.rd F.lmlStat_state p.val = 2) :
    Brings (.secureWaitTimeout p) s fun d => d.rd F.lmlStat_state p.val = 0 ∧ d.rd F.lmlStat_down_cause p.val = 5 ∧
      d.flag F.lmlStat_secure p.val = false ∧ (d.lport p.val).retry = [] ∧ (d.lport p.val).txq = [] := by
  refine brings_of_run (execSecureWaitTimeout.eq_def p s) ?_
  obtain ⟨hq, hretry, _⟩ := flushPort_lport s.dev p.val
  rw [if_pos hwait, portDown]
  rw [Dev.wr_lport, lport_updLport_same]
  refine ⟨?_, Dev.rd_wr_lt _ _ _ _ _ (by decide), ?_, hretry, hq⟩
  · rw [Dev.rd_wr_ne _ _ _ _ _ _ _ _ (by decide), Dev.updLport_rd, Dev.rd_setFlag_ne _ _ _ _ _ _ _ _ (by decide),
      Dev.rd_setFlag_ne _ _ _ _ _ _ _ _ (by decide)]
    exact Dev.rd_wr_lt _ _ _ _ _ (by decide)
  · rw [Dev.flag_wr_ne _ _ _ _ _ _ _ _ (by decide), Dev.flag, Dev.updLport_rd, ← Dev.flag, Dev.flag_setFlag_ne _ _ _ _ _ _ _ _ (by decide)]
    exact Dev.flag_setFlag _ _ _ _ _ (by decide)

/-! ### Sessions and routing -/

theorem sessionEstablished_brings (s : State) (p : LmlId) (hwait : s.dev.rd F.lmlStat_state p.val = 2) (hlc : s.dev.rd F.secLc_state ≠ 5) :
    Brings (.secureSessionEstablished p true (tabGet 0 s.dev.sec.otp.keyHash 2) false) s fun d =>
      d.rd F.lmlStat_state p.val = 3 ∧ d.flag F.lmlStat_secure p.val = true ∧
      d.flag F.lmlStat_routed p.val = !(s.dev.lport p.val).restoring := by
  refine brings_of_run (execSecureSessionEstablished.eq_def p true _ false s) ?_
  rw [secureUp, if_neg (not_not.2 hwait), if_neg (by simp [hlc])]
  refine ⟨portUp_state _ _, ?_, (portUp_routed _ _).trans ?_⟩
  · refine (flag_of_keep (keep_portUp (ft := portUpFoot) (by decide) _ p.val) (by decide) p.val 0).trans ?_
    rw [Dev.flag, Dev.updLport_rd, ← Dev.flag]
    exact Dev.flag_setFlag _ _ _ _ _ (by decide)
  · rw [lport_updLport_same]
    rfl

theorem routingRestore_brings (s : State) (p : LmlId) (hup : s.dev.rd F.lmlStat_state p.val = 3)
    (hout : s.dev.flag F.lmlStat_routed p.val = false) :
    Brings (.routingRestore p) s fun d => d.flag F.lmlStat_routed p.val = true ∧ d.flag F.lmlEvt_restored p.val = true := by
  refine brings_of_run (execRoutingRestore.eq_def p s) ?_
  rw [settleChain_flag _ (by decide), settleChain_flag _ (by decide), routingRestore, if_pos ⟨hup, hout⟩]
  have hnotice (e : Dev) {f : Fld} (hf : sendNoticeFoot.testBit (32 + f.id) = false) := flag_of_keep
    (keep_sendNotice (ft := sendNoticeFoot) (by decide) e p.val true) hf p.val 0
  refine ⟨(hnotice _ (by decide)).trans ?_, (hnotice _ (by decide)).trans ?_⟩ <;> rw [Dev.flag, Dev.updLport_rd, ← Dev.flag]
  swap
  · exact Dev.flag_setFlag _ _ _ _ _ (by decide)
  exact (Dev.flag_setFlag_ne _ _ _ _ _ _ _ _ (by decide)).trans (Dev.flag_setFlag _ _ _ _ _ (by decide))

theorem keyUpdate_brings (s : State) (p : LmlId) (hsecure : s.dev.flag F.lmlStat_secure p.val = true)
    (hdue : 2 ^ 32 ≤ (s.dev.lport p.val).keyFrames) :
    Brings (.sessionKeyUpdateDue p) s fun d => (d.lport p.val).keyGen = (s.dev.lport p.val).keyGen + 1 := by
  refine brings_of_run (execSessionKeyUpdateDue.eq_def p s) ?_
  rw [if_pos (by rw [hsecure, decide_eq_true hdue]; rfl)]
  refine (keyGen_of_lkeep (lkeep_sendLocal (ft := sendFlitChainF) (by decide) _ p.val _) (by decide) p.val).trans ?_
  rw [lport_updLport_same]

/-- Settles O44: of a trained link by what a fresh link starts from, of the other changes of state by the writes that make them, which
nothing the port sends afterwards undoes. -/
theorem portRowsComplete : Obligations.PortRowsComplete := by
  unfold Obligations.PortRowsComplete
  exact ⟨trainingComplete_brings, rateFallback_gives, retryTimer_brings, linkRetrain_gives, retrainComplete_brings, retrainTimeout_brings,
    secureWaitTimeout_brings, sessionEstablished_brings, routingRestore_brings, keyUpdate_brings⟩

end Sys2Proof.Machine
end

section
/-! PROOF. Frames and control flits of a Lomey port. -/
namespace Sys2Proof.Machine

/-! ### What follows a command of the chain -/

section
variable {d : Dev} (hquiet : d.chain.selfNaks = [])
include hquiet

theorem settleChain_chain : (settleChain d).chain = d.chain := by
  rw [settleChain, takeNaks_none hquiet, syncHost_chain]
  rfl

theorem settleChain_out : (settleChain d).out = d.out := by
  rw [settleChain, takeNaks_none hquiet, syncHost_out]
  rfl

theorem settleChain_quiet_rd {f : Fld} (hhost : syncHostFoot.testBit (32 + f.id) = false) (hf : F.lmlDedup_in_use.id ≠ f.id) (i j : Nat) :
    (settleChain d).rd f i j = d.rd f i j := by
  rw [settleChain, takeNaks_none hquiet, rd_of_keep (keep_syncHost (ft := syncHostFoot) (by decide) _) hhost]
  exact Dev.rd_wr_ne _ _ _ _ _ _ _ _ hf

end

theorem Onward.settleChain {b d : Dev} (hd : Onward b d) : Onward b (settleChain d) :=
  (hd.takeNaks.of' (e := syncDedup (Machine.takeNaks d)) rfl rfl).syncHost

theorem Onward.dropFrame {b d : Dev} (hd : Onward b d) (p : Nat) (tf : TxFrame) (reason : Nat) : Onward b (dropFrame d p tf reason) := by
  have hfree := hd.freeRx tf.arrival tf.f.tc tf.f.length
  rw [Machine.dropFrame]
  refine .ite (fun _ => ?_) (fun _ => ?_)
  · exact .ite (fun _ => hfree.of' rfl rfl) fun _ => .ite (fun _ => hfree.of' rfl rfl) fun _ => hfree
  · refine Onward.originate ?_ _
    exact .ite (fun _ => hfree.of' rfl rfl) fun _ => .ite (fun _ => hfree.of' rfl rfl) fun _ => hfree

theorem Onward.departTransit {b d : Dev} (hd : Onward b d) (p : Nat) (tf : TxFrame) : Onward b (departTransit d p tf) := by
  unfold Machine.departTransit
  refine .ite (fun _ => ?_) fun _ => hd.of' rfl rfl
  split
  · exact hd.putOn _ _
  · have hdraw : Onward b d.draw.2 := hd.of' rfl rfl
    exact .ite (fun _ => hdraw.dropFrame _ _ _) fun _ => (hdraw.sendAs _ _ _ _).freeRx _ _ _

/-- One frame that is to be sent again. -/
def replayOne (p : Nat) (d : Dev) (n : Nat) : Dev :=
  match (d.lport p).retry.find? fun s => s.f.seq == n with
  | none => d.updLport p fun l => { l with resend := l.resend.filter fun k => k != n }
  | some s =>
    if (d.lport p).resend.head? = some n ∧ s.f.length ≤ d.rd F.lmlCred_tx_avail p s.f.tc then
      let d := (d.sub F.lmlCred_tx_avail s.f.length p s.f.tc).addWrap F.lmlCnt_count 1 p 1
      let d := d.updLport p fun l => { l with
        resend := l.resend.drop 1, keyFrames := l.keyFrames + 1,
        retry := listMapIf (fun x => x.f.seq == n) (fun x => { x with sends := x.sends + 1 }) l.retry }
      let d := d.wr F.lmlRetry_sends (((d.lport p).retry.head?.map (·.sends)).getD 0) p
      (d.emit (if s.stomp then .lomeyStomped p s.f else .lomey p s.f)).emit (.unit p 0x55 (headerFlit s.f))
    else d

theorem pumpReplay_eq (d : Dev) (p : Nat) : pumpReplay d p = forEach (d.lport p).resend d (replayOne p) := rfl

theorem Onward.replayOne {b d : Dev} (hd : Onward b d) (p n : Nat) : Onward b (replayOne p d n) := by
  unfold Machine.replayOne
  split
  · exact hd.of' rfl rfl
  · refine .ite (fun _ => ?_) fun _ => hd
    extract_lets _ _ e
    have he : Onward b e := hd.of' rfl rfl
    exact (he.emit _).emit _

/-- The frame at the front of those to be sent again goes out where its class has credit. -/
theorem replayOne_sends {d : Dev} {p : Nat} {x : Sent} {rest : List Sent} (hretry : (d.lport p).retry = x :: rest)
    (hfirst : (d.lport p).resend.head? = some x.f.seq) (hsound : x.stomp = false) (hcredit : x.f.length ≤ d.rd F.lmlCred_tx_avail p x.f.tc) :
    Emit.lomey p x.f ∈ (replayOne p d x.f.seq).out := by
  rw [replayOne, hretry, List.find?_cons_of_pos (by simp)]
  dsimp only
  rw [if_pos ⟨hfirst, hcredit⟩, hsound]
  exact List.mem_cons_of_mem _ List.mem_cons_self

theorem Onward.pumpPort_tail {b d : Dev} (hd : Onward b d) (p : Nat) (q : List TxFrame) :
    Onward b (Machine.forEach q (d.updLport p fun l => { l with txq := [] }) fun d tf => Machine.departTransit d p tf) :=
  Onward.forEach (fun _ tf he => he.departTransit p tf) (hd.of' rfl rfl)

theorem pumpPort_resends {d : Dev} {p : Nat} {x : Sent} {rest : List Sent} {tail : List Nat} (hretry : (d.lport p).retry = x :: rest)
    (hresend : (d.lport p).resend = x.f.seq :: tail) (hsound : x.stomp = false) (hcredit : x.f.length ≤ d.rd F.lmlCred_tx_avail p x.f.tc) :
    Emit.lomey p x.f ∈ (pumpPort d p).out := by
  have hfirst := replayOne_sends hretry (by rw [hresend, List.head?_cons]) hsound hcredit
  rw [pumpPort, pumpReplay_eq, hresend]
  refine (Onward.pumpPort_tail (b := replayOne p d x.f.seq) ?_ p _).out hfirst
  change Onward _ (forEach tail (replayOne p d x.f.seq) (replayOne p))
  exact Onward.forEach (fun e n he => he.replayOne p n) (Onward.refl (replayOne p d x.f.seq))

/-! ### Control flits -/

theorem takeCredit_nil (d : Dev) (p : Nat) : takeCredit d p [] = d := by
  have hnone : ((List.range 8).filter fun c => decide (c < ([] : List Nat).length)) = [] := by decide
  rw [takeCredit, hnone]
  rfl

theorem ackUpTo_acked {d : Dev} {p n : Nat} (h : ((d.lport p).retry.any fun x => x.f.seq == n) = true) :
    (ackUpTo d p n).rd F.lmlRetry_acked p = n % 2 ^ F.lmlRetry_acked.w := by
  rw [ackUpTo, if_neg (by rw [h]; decide), Dev.rd_wr_ne _ _ _ _ _ _ _ _ (by decide), Dev.rd_wr_ne _ _ _ _ _ _ _ _ (by decide)]
  exact Dev.rd_wr_same ..

theorem ackFlit_brings (s : State) (p : LmlId) (n : Nat) (hup : s.dev.rd F.lmlStat_state p.val = 3) (hn : n < 4096)
    (hheld : ((s.dev.lport p.val).retry.any fun x => x.f.seq == n) = true) :
    Brings (.linkControlFlit p (some n) none [] true) s fun d => d.rd F.lmlRetry_acked p.val = n := by
  refine brings_of_run (execLinkControlFlit.eq_def p (some n) none [] true s) ?_
  have hflit : flitArrived p.val (some n) none [] true s.dev = pumpPort (ackUpTo s.dev p.val n) p.val := by
    rw [flitArrived, if_neg (by rw [hup]; decide), takeCredit_nil]
    dsimp only
    rw [Nat.mod_eq_of_lt hn]
  rw [hflit, settleChain_rd _ (by decide), pumpPort_rd _ _ (by decide), ackUpTo_acked hheld]
  exact Nat.mod_eq_of_lt hn

theorem badFlit_gives (s : State) (p : LmlId) (ack nak : Option Nat) (credit : List Nat) :
    Gives (.linkControlFlit p ack nak credit false) s (settleChain s.dev) :=
  gives_of_run (execLinkControlFlit.eq_def p ack nak credit false s) (by rw [flitArrived, if_pos (by rfl)])

theorem sendFlit_lport (d : Dev) (p : Nat) (nak : Option Nat) :
    ((sendFlit d p nak).lport p).unacked = 0 ∧ ((sendFlit d p nak).lport p).told = 0 := by
  have hl : (sendFlit d p nak).lport p = { d.lport p with unacked := 0, told := 0 } :=
    lport_updLport_same d p fun l => { l with unacked := 0, told := 0 }
  rw [hl]
  exact ⟨rfl, rfl⟩

theorem timers_bring (s : State) (p : LmlId) (l : LPort) (hl : l = s.dev.lport p.val) :
    (l.unacked ≠ 0 → Brings (.linkAckTimer p) s fun d => (d.lport p.val).unacked = 0 ∧
      d.out = .unit p.val 0x33 (controlFlit (some ((l.expect + 4095) % 4096)) none ((List.range 8).map fun c => tabGet 0 l.freed c) 0) ::
        .flit p.val (some ((l.expect + 4095) % 4096)) none ((List.range 8).map fun c => tabGet 0 l.freed c) :: s.dev.out) ∧
    (l.told ≠ 0 → Brings (.linkCreditTimer p) s fun d => (d.lport p.val).told = 0 ∧
      d.out = .unit p.val 0x33 (controlFlit (some ((l.expect + 4095) % 4096)) none ((List.range 8).map fun c => tabGet 0 l.freed c) 0) ::
        .flit p.val (some ((l.expect + 4095) % 4096)) none ((List.range 8).map fun c => tabGet 0 l.freed c) :: s.dev.out) := by
  subst hl
  obtain ⟨hunacked, htold⟩ := sendFlit_lport s.dev p.val none
  refine ⟨fun h => brings_of_run (execLinkAckTimer.eq_def p s) ?_, fun h => brings_of_run (execLinkCreditTimer.eq_def p s) ?_⟩
  · rw [if_neg h]
    exact ⟨hunacked, rfl⟩
  · rw [if_neg h]
    exact ⟨htold, rfl⟩

/-! ### Replay and dropped frames -/

theorem replayTimeout_brings (s : State) (p : LmlId) (x : Sent) (rest : List Sent) (hup : s.dev.rd F.lmlStat_state p.val = 3)
    (hretry : (s.dev.lport p.val).retry = x :: rest) :
    (9 ≤ x.sends → Brings (.linkReplayTimeout p) s fun d => d.rd F.lmlStat_state p.val = 5) ∧
    (x.sends < 9 → x.stomp = false → x.f.length ≤ s.dev.rd F.lmlCred_tx_avail p.val x.f.tc →
      Brings (.linkReplayTimeout p) s fun d => d.rd F.lmlStat_state p.val = 3 ∧ Emit.lomey p.val x.f ∈ d.out) := by
  have hreplay : replayOldest s.dev p.val = if 9 ≤ x.sends then portDead s.dev p.val else
      pumpPort (s.dev.updLport p.val fun l => { l with resend := (x :: rest).map fun s => s.f.seq }) p.val := by
    rw [replayOldest, hretry]
    dsimp only
    rw [replayFrom, hretry, List.dropWhile_cons_of_neg (by simp)]
    dsimp only
    rw [if_pos hup]
  refine ⟨fun hmany => ?_, fun hfew hsound hcredit => ?_⟩ <;>
    refine brings_of_run (execLinkReplayTimeout.eq_def p s) ?_ <;> rw [if_pos ⟨.inl hup, by simp [hretry]⟩, hreplay]
  · rw [if_pos hmany, settleChain_rd _ (by decide)]
    exact portDead_state _ _
  · rw [if_neg (Nat.not_le.2 hfew), settleChain_rd _ (by decide), pumpPort_rd _ _ (by decide)]
    refine ⟨hup, (Onward.refl _).settleChain.out (pumpPort_resends (rest := rest) (tail := rest.map fun s => s.f.seq) ?_ ?_ hsound hcredit)⟩
    · rw [lport_updLport_same]
      exact hretry
    · rw [lport_updLport_same]
      rfl

/-- A frame that is dropped leaves a budget drop that was counted. -/
theorem dropFrame_dropped {d : Dev} {p q : Nat} (hd : d.flag F.lmlEvt_budget_drop p = true) (tf : TxFrame) (reason : Nat) :
    (dropFrame d q tf reason).flag F.lmlEvt_budget_drop p = true := by
  have hfree : (freeRx d tf.arrival tf.f.tc tf.f.length).flag F.lmlEvt_budget_drop p = true :=
    (flag_of_keep (keep_freeRx (ft := freeRxFoot) (by decide) d tf.arrival tf.f.tc tf.f.length) (by decide) p 0).trans hd
  have horig (e : Dev) (f : Frame) : (originate e f).flag F.lmlEvt_budget_drop p = e.flag F.lmlEvt_budget_drop p :=
    flag_of_keep (keep_originate (ft := originateFoot) (by decide) e f) (by decide) p 0
  rw [dropFrame, apply_ite (fun e => Dev.flag e F.lmlEvt_budget_drop p), horig, ite_self]
  split
  · rw [Dev.addWrap, Dev.flag_wr_ne _ _ _ _ _ _ _ _ (by decide), Dev.setFlag, Dev.flag, Dev.rd_wr_self]
    split
    · decide
    · exact hfree
  · split
    · exact (Dev.flag_setFlag_ne _ _ _ _ _ _ _ _ (by decide)).trans hfree
    · exact hfree

theorem dropFrame_budget (d : Dev) (p : Nat) (tf : TxFrame) : (dropFrame d p tf 1).flag F.lmlEvt_budget_drop p = true := by
  have horig (e : Dev) (f : Frame) : (originate e f).flag F.lmlEvt_budget_drop p = e.flag F.lmlEvt_budget_drop p :=
    flag_of_keep (keep_originate (ft := originateFoot) (by decide) e f) (by decide) p 0
  rw [dropFrame, apply_ite (fun e => Dev.flag e F.lmlEvt_budget_drop p), horig, ite_self, if_pos rfl, Dev.addWrap,
    Dev.flag_wr_ne _ _ _ _ _ _ _ _ (by decide)]
  exact Dev.flag_setFlag _ _ _ _ _ (by decide)

theorem departTransit_dropped {d : Dev} {p q : Nat} (hd : d.flag F.lmlEvt_budget_drop p = true) (tf : TxFrame) :
    (departTransit d q tf).flag F.lmlEvt_budget_drop p = true := by
  unfold departTransit
  split
  · split
    · exact (flag_of_keep (keep_putOn (ft := putOnFoot) (by decide) d q tf) (by decide) p 0).trans hd
    · have hdraw : d.draw.2.flag F.lmlEvt_budget_drop p = true := hd
      dsimp only
      split
      · exact dropFrame_dropped hdraw _ _
      · refine (flag_of_keep (keep_freeRx (ft := freeRxFoot) (by decide) _ _ _ _) (by decide) p 0).trans ?_
        exact (flag_of_keep (keep_sendOn (ft := sendAsFoot) (by decide) _ _ _ _) (by decide) p 0).trans hdraw
  · exact hd

theorem pumpPort_dropped {d : Dev} {p : Nat} (hd : d.flag F.lmlEvt_budget_drop p = true) (q : Nat) :
    (pumpPort d q).flag F.lmlEvt_budget_drop p = true := by
  have hreplay : (pumpReplay d q).flag F.lmlEvt_budget_drop p = true :=
    (flag_of_keep (keep_pumpReplay (ft := pumpReplayFoot) (by decide) d q) (by decide) p 0).trans hd
  exact forEach_inv (P := fun e => e.flag F.lmlEvt_budget_drop p = true) (fun e tf _ he => departTransit_dropped he tf) hreplay

theorem budgetExpiry_brings (s : State) (p : LmlId) (idx : Nat) (t : TxFrame) (ht : (s.dev.lport p.val).txq[idx]? = some t) :
    Brings (.budgetExpiry p idx) s fun d => d.flag F.lmlEvt_budget_drop p.val = true := by
  refine brings_of_run (execBudgetExpiry.eq_def p idx s) ?_
  simp only [ht]
  exact (settleChain_flag _ (by decide) _ 0).trans (pumpPort_dropped (dropFrame_budget _ _ t) _)

/-! ### Frames received -/

/-- The device that a frame is judged on: its corrections counted and its credit taken. -/
def frameCounted (p : Nat) (f : Frame) (d : Dev) : Dev :=
  if f.tc < 8 then (fecCount d p).addSat F.lmlCred_rx_used f.length p f.tc else fecCount d p

theorem frameCounted_chain (p : Nat) (f : Frame) (d : Dev) : (frameCounted p f d).chain = d.chain := by
  have hfec : (fecCount d p).chain = d.chain := chain_of_keep (keep_fecCount (ft := fecCountFoot) (by decide) d p) (by decide)
  rw [frameCounted]
  split
  · exact hfec
  · exact hfec

theorem frameCounted_count (p : Nat) (f : Frame) (d : Dev) : (frameCounted p f d).rd F.lmlCnt_count p 0 = d.rd F.lmlCnt_count p 0 := by
  have hfec : (fecCount d p).rd F.lmlCnt_count p 0 = d.rd F.lmlCnt_count p 0 := by
    rw [fecCount]
    split
    · rfl
    · exact (Dev.rd_addWrap_entry _ _ _ _ _ _ _ (by decide)).trans (Dev.rd_addWrap_entry _ _ _ _ _ _ _ (by decide))
  rw [frameCounted]
  split
  · exact (Dev.rd_addSat_ne _ _ _ _ _ _ _ _ (by decide)).trans hfec
  · exact hfec

/-- The port with the frame that it expects taken. -/
def nextExpected (p : Nat) (d : Dev) : Dev :=
  d.updLport p fun l => { l with expect := (l.expect + 1) % 4096, nakAsked := false, unacked := l.unacked + 1 }

section
variable {s : State} {p : LmlId} {f : Frame} (hup : s.dev.rd F.lmlStat_state p.val = 3)
include hup

theorem frameReceived_good (hseq : f.seq = (s.dev.lport p.val).expect) : frameReceived p.val f .good s.dev =
    acceptFrame (flitDue (nextExpected p.val (frameCounted p.val f s.dev)) p.val) p.val f := by
  have hin : (f.seq == ((frameCounted p.val f s.dev).lport p.val).expect) = true := by
    rw [lport_of_chain (frameCounted_chain p.val f s.dev), hseq, beq_self_eq_true]
  rw [frameReceived, if_neg (by rw [hup]; decide)]
  dsimp only
  rw [← frameCounted, hin, if_pos rfl]
  rfl

theorem frameReceived_crcBad : frameReceived p.val f .crcBad s.dev =
    refuseFrame (stompOn ((frameCounted p.val f s.dev).addWrap F.lmlCnt_count 1 p.val 0) p.val f) p.val f := by
  rw [frameReceived, if_neg (by rw [hup]; decide)]
  rfl

end

theorem goodFrame_brings (s : State) (p : LmlId) (f : Frame) (hup : s.dev.rd F.lmlStat_state p.val = 3)
    (hseq : f.seq = (s.dev.lport p.val).expect) :
    Brings (.lomeyFrameReceived p f .good) s fun d => (d.lport p.val).expect = ((s.dev.lport p.val).expect + 1) % 4096 := by
  refine brings_of_run (execLomeyFrameReceived.eq_def p f .good s) ?_
  rw [frameReceived_good hup hseq]
  rw [expect_of_lkeep (lkeep_settleChain (ft := finishChainF) (by decide) _) (by decide),
    expect_of_lkeep (lkeep_acceptFrame (ft := consumeFrameChainF) (by decide) _ _ _) (by decide),
    expect_of_lkeep (lkeep_flitDue (ft := sendFlitChainF) (by decide) _ _) (by decide), nextExpected, lport_updLport_same,
    lport_of_chain (frameCounted_chain p.val f s.dev)]

theorem refuseFrame_naks {d : Dev} {p : Nat} (f : Frame) (hnak : (d.lport p).nakAsked = false) :
    ((refuseFrame d p f).lport p).nakAsked = true ∧ ∃ a c, Emit.flit p a (some (d.lport p).expect) c ∈ (refuseFrame d p f).out := by
  have hfree := lkeep_freeRx (ft := sendFlitChainF) (by decide) d (some p) f.tc f.length
  have hnak' : ((freeRx d (some p) f.tc f.length).lport p).nakAsked = false := (nakAsked_of_lkeep hfree (by decide) p).trans hnak
  have hexpect : ((freeRx d (some p) f.tc f.length).lport p).expect = (d.lport p).expect := expect_of_lkeep hfree (by decide) p
  rw [refuseFrame, if_neg (by rw [hnak']; decide)]
  refine ⟨?_, ?_⟩
  · rw [nakAsked_of_lkeep (lkeep_sendFlit (ft := sendFlitChainF) (by decide) _ p _) (by decide), lport_updLport_same]
  · dsimp only
    rw [lport_updLport_same, hexpect]
    exact ⟨_, _, List.mem_cons_of_mem _ List.mem_cons_self⟩

theorem badFrame_brings (s : State) (p : LmlId) (f : Frame) (hup : s.dev.rd F.lmlStat_state p.val = 3) (hself : s.dev.chain.selfNaks = [])
    (hnak : (s.dev.lport p.val).nakAsked = false) :
    Brings (.lomeyFrameReceived p f .crcBad) s fun d => (d.lport p.val).expect = (s.dev.lport p.val).expect ∧
      (d.lport p.val).nakAsked = true ∧ d.rd F.lmlCnt_count p.val 0 = (s.dev.rd F.lmlCnt_count p.val 0 + 1) % 2 ^ F.lmlCnt_count.w ∧
      ∃ a c, Emit.flit p.val a (some (s.dev.lport p.val).expect) c ∈ d.out := by
  refine brings_of_run (execLomeyFrameReceived.eq_def p f .crcBad s) ?_
  rw [frameReceived_crcBad hup]
  have hcounted : ((frameCounted p.val f s.dev).addWrap F.lmlCnt_count 1 p.val 0).chain = s.dev.chain := frameCounted_chain p.val f s.dev
  have hcount : ((frameCounted p.val f s.dev).addWrap F.lmlCnt_count 1 p.val 0).rd F.lmlCnt_count p.val 0 =
      (s.dev.rd F.lmlCnt_count p.val 0 + 1) % 2 ^ F.lmlCnt_count.w := by
    rw [Dev.addWrap, Dev.rd_wr_same, frameCounted_count]
  generalize (frameCounted p.val f s.dev).addWrap F.lmlCnt_count 1 p.val 0 = d at hcounted hcount
  have hstomp := lkeep_stompOn (ft := sendAsChainF) (by decide) d p.val f
  have hrefuse := lkeep_refuseFrame (ft := refuseFrameChainF) (by decide) (stompOn d p.val f) p.val f
  have hexpect : ((stompOn d p.val f).lport p.val).expect = (s.dev.lport p.val).expect := by
    rw [expect_of_lkeep hstomp (by decide), lport_of_chain hcounted]
  have hquiet : (refuseFrame (stompOn d p.val f) p.val f).chain.selfNaks = [] := by
    rw [selfNaks_of_lkeep hrefuse (by decide), selfNaks_of_lkeep hstomp (by decide), hcounted, hself]
  obtain ⟨hasked, hflit⟩ := refuseFrame_naks (d := stompOn d p.val f) f
    (by rw [nakAsked_of_lkeep hstomp (by decide), lport_of_chain hcounted, hnak])
  rw [lport_of_chain (settleChain_chain hquiet), settleChain_quiet_rd hquiet (by decide) (by decide), settleChain_out hquiet, expect_of_lkeep hrefuse (by decide)]
  refine ⟨hexpect, hasked, ?_, hexpect ▸ hflit⟩
  rw [rd_of_keep (keep_refuseFrame (ft := refuseFrameFoot) (by decide) _ _ _) (by decide),
    rd_of_keep (keep_stompOn (ft := stompOnFoot) (by decide) _ _ _) (by decide), hcount]

/-- Settles O45: of flits by what they write, of frames sent again by the first that is, and of frames received by what taking or
refusing one leaves of the port, which nothing that its handling sends afterwards changes. -/
theorem linkRowsComplete : Obligations.LinkRowsComplete := by
  unfold Obligations.LinkRowsComplete
  exact ⟨ackFlit_brings, badFlit_gives, timers_bring, replayTimeout_brings, budgetExpiry_brings, goodFrame_brings, badFrame_brings⟩

end Sys2Proof.Machine
end

section
/-! PROOF. What settling the chain leaves of the host part. -/
namespace Sys2Proof.Machine

theorem hkeep_originate {ft : Nat} (d : Dev) (f : Frame) : hkeep ft (originate d f) = hkeep ft d :=
  hkeep_of_keep (keep_originate (ft := originateFoot) (by decide) d f) (by decide) ft

theorem hkeep_failWrite {ft : Nat} (hft : inFoot restorePtrHost ft = true) (d : Dev) (id status : Nat) : hkeep ft (failWrite d
    id status) = hkeep ft d :=
  hkeep_mono hft (by unfold failWrite; split <;> simp +decide only [↓hkeep_finish, ↓hkeep_discardData, ↓hkeep_restorePtr,
    ↓hkeep_undoContext])

theorem hkeep_rootFinish {ft : Nat} (hft : inFoot restorePtrHost ft = true) (d : Dev) (t : RootTx) (status dw0 : Nat) (toks :
    List Nat) : hkeep ft (rootFinish d t status dw0 toks) = hkeep ft d :=
  hkeep_mono hft (by simp +decide only [rootFinish]; split <;> simp +decide only [↓hkeep_updCtx, ↓hkeep_returnData,
    ↓hkeep_finish, ↓hkeep_discardCtx, ↓hkeep_failWrite, ↓hkeep_part_chain, ↓hkeep_ite, ite_self])

theorem hkeep_rootEnd {ft : Nat} (hft : inFoot restorePtrHost ft = true) (d : Dev) (t : RootTx) (status : Nat) : hkeep ft
    (rootEnd d t status) = hkeep ft d :=
  hkeep_mono hft (by simp +decide only [rootEnd, ↓hkeep_originate, ↓hkeep_rootFinish])

theorem hkeep_staleFrame {ft : Nat} (d : Dev) : hkeep ft (staleFrame d) = hkeep ft d :=
  hkeep_of_keep (keep_staleFrame (ft := staleFrameFoot) (by decide) d) (by decide) ft

theorem hkeep_targetEnd {ft : Nat} (hft : inFoot restorePtrHost ft = true) (d : Dev) (e : Dedupe) (status : Nat) : hkeep ft
    (targetEnd d e status) = hkeep ft d :=
  hkeep_mono hft (by unfold targetEnd; split <;> simp +decide only [↓hkeep_chainRespond, ↓hkeep_finish, ↓hkeep_failWrite, ↓hkeep_ite,
    ite_self])

theorem hkeep_nakArrived {ft : Nat} (hft : inFoot restorePtrHost ft = true) (d : Dev) (f : Frame) : hkeep ft (nakArrived d f) =
    hkeep ft d :=
  hkeep_mono hft (by unfold nakArrived; split <;> split <;> simp +decide only [↓hkeep_rootEnd, ↓hkeep_staleFrame, ↓hkeep_targetEnd,
    ↓hkeep_part_chain, ↓hkeep_ite, ite_self])

theorem hkeep_takeNaks {ft : Nat} (hft : inFoot restorePtrHost ft = true) (d : Dev) : hkeep ft (takeNaks d) = hkeep ft d :=
  hkeep_mono hft (by simp +decide only [takeNaks, ↓hkeep_nakArrived, ↓hkeep_part_chain, ↓hkeep_forEach, implies_true])

theorem hkeep_syncDedup {ft : Nat} (d : Dev) : hkeep ft (syncDedup d) = hkeep ft d :=
  hkeep_of_keep (keep_syncDedup (ft := syncDedupFoot) (by decide) d) (by decide) ft

theorem hkeep_settleChain {ft : Nat} (hft : inFoot restorePtrHost ft = true) (d : Dev) : hkeep ft (settleChain d) = hkeep ft d
    :=
  hkeep_mono hft (by simp +decide only [settleChain, ↓hkeep_syncHost, ↓hkeep_takeNaks, ↓hkeep_syncDedup])

end Sys2Proof.Machine
end

section
/-! PROOF. Frames of a transaction at its target. -/
namespace Sys2Proof.Machine

/-! ### What stays of the dedupe table's entries -/

theorem find?_listMapIf {α : Type} {p q : α → Bool} {g : α → α} (h : ∀ x, p x = true → q (g x) = q x) (l : List α) :
    (listMapIf p g l).find? q = (l.find? q).map fun x => if p x then g x else x := by
  rw [listMapIf, List.find?_map]
  congr 2
  funext x
  dsimp only [Function.comp]
  split
  next hx => exact h x hx
  next => rfl

/-- An entry that has only gone on: its command and its data are kept, and ended it stays ended. -/
structure EntryStays (a b : Dedupe) : Prop where
  port : b.port = a.port
  id : b.id = a.id
  cmd : b.cmd = a.cmd
  got : b.got = a.got
  ended : a.active = false → b.active = false

theorem EntryStays.refl (a : Dedupe) : EntryStays a a := ⟨rfl, rfl, rfl, rfl, fun h => h⟩

theorem EntryStays.trans {a b c : Dedupe} (h : EntryStays a b) (h' : EntryStays b c) : EntryStays a c :=
  ⟨h'.port.trans h.port, h'.id.trans h.id, h'.cmd.trans h.cmd, h'.got.trans h.got, fun ha => h'.ended (h.ended ha)⟩

/-- Each entry of `b` has only gone on in `d`. -/
def Registered (b d : Dev) : Prop := ∀ src tag e, b.entry src tag = some e → ∃ e', d.entry src tag = some e' ∧ EntryStays e e'

section
variable {b d e : Dev}

theorem Registered.refl (b : Dev) : Registered b b := fun _ _ e h => ⟨e, h, .refl e⟩

theorem Registered.trans (h : Registered b d) (h' : Registered d e) : Registered b e := fun src tag x hx => by
  obtain ⟨y, hy, hxy⟩ := h src tag x hx
  obtain ⟨z, hz, hyz⟩ := h' src tag y hy
  exact ⟨z, hz, hxy.trans hyz⟩

theorem entry_of_dedupe (h : e.chain.dedupe = d.chain.dedupe) (src tag : Nat) : e.entry src tag = d.entry src tag := by
  rw [Dev.entry, h, Dev.entry]

theorem Registered.of (hd : Registered b d) (h : e.chain.dedupe = d.chain.dedupe) : Registered b e := fun src tag x hx => by
  rw [entry_of_dedupe h]
  exact hd src tag x hx

theorem Registered.of_lkeep {m : Nat} (hd : Registered b d) (h : lkeep m e = lkeep m d) (hm : m.testBit LField.dedupe.ctorIdx = false) :
    Registered b e := hd.of (dedupe_of_lkeep h hm)

theorem Registered.ite {c : Prop} [Decidable c] (h1 : c → Registered b d) (h2 : ¬c → Registered b e) :
    Registered b (if c then d else e) := by
  split
  next h => exact h1 h
  next h => exact h2 h

theorem Registered.forEach {α : Type} {l : List α} {g : Dev → α → Dev} (h : ∀ e x, Registered b e → Registered b (g e x))
    (hd : Registered b d) : Registered b (forEach l d g) := forEach_inv (fun e x _ => h e x) hd

theorem Registered.listMapIf {p : Dedupe → Bool} {g : Dedupe → Dedupe} (hd : Registered b d)
    (hkey : ∀ x : Dedupe, (g x).src = x.src ∧ (g x).tag = x.tag) (hg : ∀ x, EntryStays x (g x))
    (h : e.chain.dedupe = Machine.listMapIf p g d.chain.dedupe) : Registered b e := by
  refine hd.trans fun src tag x hx => ?_
  refine ⟨if p x then g x else x, ?_, ?_⟩
  · rw [Dev.entry, h, find?_listMapIf fun y _ => by rw [(hkey y).1, (hkey y).2], ← Dev.entry, hx, Option.map_some]
  · split
    · exact hg x
    · exact .refl x

/-! ### What follows a frame leaves each entry -/

theorem Registered.originate (hd : Registered b d) (f : Frame) : Registered b (originate d f) :=
  hd.of_lkeep (lkeep_originate (ft := originateChainF) (by decide) d f) (by decide)

theorem Registered.chainRespond (hd : Registered b d) (src tag status dw0 : Nat) (body : List Nat) :
    Registered b (chainRespond d src tag status dw0 body) := by
  unfold Machine.chainRespond
  split
  · exact hd
  · refine Registered.originate (hd.listMapIf (p := fun x => x.src == src && x.tag == tag && x.active)
      (g := fun x => { x with active := false, cpl := some _ }) ?_ ?_ rfl) _
    · exact fun x => ⟨rfl, rfl⟩
    · exact fun x => ⟨rfl, rfl, rfl, rfl, fun _ => rfl⟩

theorem Registered.returnData (hd : Registered b d) (x : Ctx) (toks : List Nat) : Registered b (returnData d x toks) := by
  unfold Machine.returnData
  split
  · exact hd
  · exact hd
  · exact hd
  · split
    · exact hd
    · extract_lets parts mine told c1 d1
      have h1 : Registered b d1 := hd.listMapIf (p := mine) (g := told) (fun _ => ⟨rfl, rfl⟩) (fun _ => ⟨rfl, rfl, rfl, rfl, fun h => h⟩) rfl
      exact .forEach (fun e t he => he.originate _) h1

theorem Registered.finish (hd : Registered b d) (id status dw0 : Nat) : Registered b (finish d id status dw0) := by
  unfold Machine.finish
  split
  · exact hd
  next x _ =>
    extract_lets record d1 d2
    have h1 : Registered b d1 := (hd.of_lkeep (m := 0) (lkeep_leaveTable d x) (by decide)).of_lkeep
      (lkeep_dropWork (ft := cancelRemoteChainF) (by decide) _ id) (by decide)
    have h2 : Registered b d2 := by
      simp only [d2]
      split
      · exact h1
      · exact h1.chainRespond _ _ _ _ _
      · exact h1
      · exact h1
    exact h2.of_lkeep (m := 0) (lkeep_syncHost d2) (by decide)

theorem Registered.restorePtr (hd : Registered b d) (x : Ctx) : Registered b (restorePtr d x) := by
  unfold Machine.restorePtr
  split
  · refine .ite (fun _ => hd) fun _ => ?_
    refine Registered.of_lkeep (m := 0) (.forEach (fun e y he => ?_) (hd.of_lkeep (m := 0) (lkeep_setPtr _ _ _ _) (by decide)))
      (lkeep_refreshParity _ _ _) (by decide)
    exact .ite (fun _ => (he.of_lkeep (m := 0) (lkeep_discardData _ _) (by decide)).finish _ _ _)
      fun _ => he.of_lkeep (m := 0) (lkeep_replaceAppend _ _ _ _) (by decide)
  · exact hd

theorem Registered.failWrite (hd : Registered b d) (id status : Nat) : Registered b (failWrite d id status) := by
  unfold Machine.failWrite
  split
  · exact hd
  · refine Registered.finish (Registered.restorePtr ?_ _) _ _ _
    exact (hd.of_lkeep (m := 0) (lkeep_discardData _ _) (by decide)).of_lkeep (m := 0) (lkeep_undoContext _ _) (by decide)

theorem Registered.discardCtx (hd : Registered b d) (id : Nat) : Registered b (discardCtx d id) :=
  hd.of_lkeep (lkeep_discardCtx (ft := cancelRemoteChainF) (by decide) d id) (by decide)

theorem Registered.rootFinish (hd : Registered b d) (t : RootTx) (status dw0 : Nat) (toks : List Nat) :
    Registered b (rootFinish d t status dw0 toks) := by
  unfold Machine.rootFinish
  extract_lets st d1
  have h1 : Registered b d1 := hd.of rfl
  clear_value d1
  split
  · exact h1
  · refine .ite (fun _ => .ite (fun _ => (h1.discardCtx _).failWrite _ _) fun _ => (h1.discardCtx _).of rfl) fun _ =>
      .ite (fun _ => h1.failWrite _ _) fun _ => ?_
    refine Registered.finish ?_ _ _ _
    exact .ite (fun _ => h1) fun _ => h1.returnData _ _

theorem Registered.targetEnd (hd : Registered b d) (x : Dedupe) (status : Nat) : Registered b (targetEnd d x status) := by
  unfold Machine.targetEnd
  split
  · exact hd.chainRespond _ _ _ _ _
  · exact .ite (fun _ => hd.failWrite _ _) fun _ => hd.finish _ _ _

theorem Registered.nakArrived (hd : Registered b d) (f : Frame) : Registered b (nakArrived d f) := by
  unfold Machine.nakArrived
  extract_lets reason ty st
  refine .ite (fun _ => ?_) fun _ => ?_
  · split
    · exact hd.of rfl
    · exact .ite (fun _ => hd.of rfl) fun _ => (hd.rootFinish _ _ _ _).originate _
  · split
    · exact hd.of rfl
    · exact hd.targetEnd _ _

theorem Registered.settleChain (hd : Registered b d) : Registered b (settleChain d) := by
  have hnaks : Registered b (takeNaks d) := Registered.forEach (fun e f he => he.nakArrived f) (hd.of rfl)
  have hsync : Registered b (syncDedup (takeNaks d)) := hnaks.of rfl
  exact hsync.of_lkeep (m := 0) (lkeep_syncHost _) (by decide)

theorem Registered.serveRead (hd : Registered b d) (x : Ctx) : Registered b (serveRead d x) := by
  have hmoved : Registered b (countMoved d x (hdasRead d x)) := hd.of_lkeep (m := 0) (lkeep_countMoved _ _ _) (by decide)
  unfold Machine.serveRead
  extract_lets bs poisoned st toks
  refine .ite (fun _ => hd.finish _ _ _) fun _ => ?_
  split
  · exact hmoved.finish _ _ _
  · exact hd.finish _ _ _
  · unfold Machine.frameRead
    split
    · refine Registered.of_lkeep (m := 0) (d := (Machine.putFrame d x.id _).updCtx x.id _) (hd.of rfl) (lkeep_joinContext _ _ _) (by decide)
    · refine Registered.finish ?_ _ _ _
      exact .ite (fun _ => hd.of rfl) fun _ => hd
  · exact (hmoved.returnData _ _).finish _ _ _

theorem startMedia_serves_or (d : Dev) (x : Ctx) (k : Dev → Dev) : startMedia d x k = k d ∨ startMedia d x k = startMedia d x id := by
  unfold startMedia
  split
  · exact .inl rfl
  · exact .inr rfl

theorem Registered.startMedia (hd : Registered b d) (x : Ctx) {k : Dev → Dev} (hk : Registered b (k d)) : Registered b (startMedia d x k) := by
  rcases startMedia_serves_or d x k with h | h
  · rw [h]
    exact hk
  · rw [h]
    exact hd.of_lkeep (m := 0) (lkeep_startMedia d x id fun _ => rfl) (by decide)

theorem Registered.startRead (hd : Registered b d) (x : Ctx) : Registered b (startRead d x) := by
  have hdestage (e : Dev) (y : Extent) (he : Registered b e) : Registered b (destageExtent e y true) :=
    he.of_lkeep (m := 0) (lkeep_destageExtent _ _ _) (by decide)
  unfold Machine.startRead
  dsimp only
  split
  · exact hd.startMedia x (hd.serveRead x)
  · exact .ite (fun _ => hd.serveRead x) fun _ => hdestage _ _ (hd.of rfl)
  · exact .forEach hdestage (hd.of rfl)

theorem Registered.dataWhole (hd : Registered b d) (x : Dedupe) : Registered b (dataWhole d x) := by
  unfold Machine.dataWhole
  extract_lets toks bytes d1
  have h1 : Registered b d1 := hd.of rfl
  split
  · exact .ite (fun _ => h1.startRead _) fun _ => h1
  · exact h1

theorem Registered.enterCmd (hd : Registered b d) (org : Origin) (fe : Nat) (c : IoCmd) : Registered b (enterCmd d org fe c) := by
  unfold Machine.enterCmd
  extract_lets x d1
  have h1 : Registered b d1 := hd.of rfl
  split
  · exact h1.of_lkeep (m := 0) (lkeep_syncHost d1) (by decide)
  · refine Registered.finish ?_ _ _ _
    split
    · exact h1.of rfl
    · exact h1

end

/-! ### A command that is taken -/

theorem enterCmd_nextId (d : Dev) (org : Origin) (fe : Nat) (c : IoCmd) : (enterCmd d org fe c).host.nextId = d.host.nextId + 1 := by
  unfold enterCmd
  extract_lets x d1
  split
  · rw [syncHost_host]
    rfl
  next st f _ =>
    extract_lets d2
    have h2 : d2.host.nextId = d.host.nextId + 1 := by
      simp only [d2]
      split
      · rfl
      · rfl
    exact (nextId_of_hkeep (hkeep_finish (ft := leaveTableHost) (by decide) d2 _ _ _) (by decide)).trans h2

/-- The entry that a command taken from a port makes. -/
def entryOf (p : Nat) (f : Frame) (c : IoCmd) (id : Nat) : Dedupe :=
  { src := f.src, tag := f.tag, active := true, port := p, id := id, path := f.path, attempt := f.attempt,
    rbudget := f.spec.headD 0, wclass := writesData c.kind || dataWanted c != 0, cmd := f }

theorem acceptCmd_eq (d : Dev) (p : Nat) (f : Frame) (c : IoCmd) : acceptCmd d p f c = enterCmd (answer (d.updChain fun s => { s with
    dedupe := s.dedupe.filter (fun x => !(x.src == f.src && x.tag == f.tag)) ++ [entryOf p f c d.host.nextId] })
      (entryOf p f c d.host.nextId) ftAck []) (.chain p f.src f.tag f.attempt) (2 + p) c := rfl

theorem entry_joined (l : List Dedupe) (e : Dedupe) :
    (l.filter (fun x => !(x.src == e.src && x.tag == e.tag)) ++ [e]).find? (fun x => x.src == e.src && x.tag == e.tag) = some e := by
  have hnone : (l.filter fun x => !(x.src == e.src && x.tag == e.tag)).find? (fun x => x.src == e.src && x.tag == e.tag) = none := by
    refine List.find?_eq_none.2 fun x hx => ?_
    have hother := (List.mem_filter.1 hx).2
    rw [Bool.not_eq_true'] at hother
    rw [hother]
    decide
  rw [List.find?_append, hnone, Option.none_or, List.find?_cons_of_pos (by simp)]

theorem cmd_brings (s : State) (p : LmlId) (f : Frame) (c : IoCmd) (hcmd : cmdOf f = some c) (hnew : s.dev.entry f.src f.tag = none)
    (hroom : s.dev.chain.dedupe.length < 65536) (hshare : transitInUse s.dev < transitShare s.dev) (hgo : chainStopped s.dev = false) :
    Brings (.lomeyCmd p f) s fun d => d.host.nextId = s.dev.host.nextId + 1 ∧
      ∃ e, d.entry f.src f.tag = some e ∧ e.port = p.val ∧ e.id = s.dev.host.nextId ∧ e.cmd = f := by
  refine brings_of_run (execLomeyCmd.eq_def p f s) ?_
  have hrun : cmdArrived p.val f s.dev = acceptCmd s.dev p.val f c := by
    rw [cmdArrived, hcmd]
    simp only [hnew]
    rw [if_neg (Nat.not_le.2 hroom), if_neg (by simp [hgo, hshare])]
  rw [hrun, acceptCmd_eq]
  generalize hd1 : (s.dev.updChain fun x => { x with dedupe := x.dedupe.filter (fun x => !(x.src == f.src && x.tag == f.tag)) ++
    [entryOf p.val f c s.dev.host.nextId] }) = d1
  have hentry : d1.entry f.src f.tag = some (entryOf p.val f c s.dev.host.nextId) := by
    rw [← hd1]
    exact entry_joined s.dev.chain.dedupe (entryOf p.val f c s.dev.host.nextId)
  have hid : d1.host.nextId = s.dev.host.nextId := by rw [← hd1]; rfl
  refine ⟨?_, ?_⟩
  · rw [nextId_of_hkeep (hkeep_settleChain (ft := restorePtrHost) (by decide) _) (by decide), enterCmd_nextId, ← hid]
    exact congrArg (fun h => h.nextId + 1) (host_of_keep (keep_originate (ft := originateFoot) (by decide) _ _) (by decide))
  · obtain ⟨e, he, hstays⟩ := (((Registered.refl d1).originate _).enterCmd _ _ _).settleChain f.src f.tag _ hentry
    exact ⟨e, he, hstays.port, hstays.id, hstays.cmd⟩

/-! ### Frames of a transaction in progress -/

theorem find?_key {l : List Dedupe} {src tag : Nat} {e : Dedupe} (h : l.find? (fun x => x.src == src && x.tag == tag) = some e) :
    e.src = src ∧ e.tag = tag := by simpa using List.find?_some h

theorem entry_updEntry {d : Dev} {src tag : Nat} {e : Dedupe} {g : Dedupe → Dedupe} (h : d.entry src tag = some e)
    (hkey : ∀ x : Dedupe, x.src = src → x.tag = tag → (g x).src = src ∧ (g x).tag = tag) : (d.updEntry src tag g).entry src tag = some (g e) := by
  obtain ⟨hsrc, htag⟩ := find?_key h
  change (listMapIf (fun e => e.src == src && e.tag == tag) g d.chain.dedupe).find? _ = _
  rw [find?_listMapIf fun x hx => by
    obtain ⟨hs, ht⟩ : x.src = src ∧ x.tag = tag := by simpa using hx
    obtain ⟨hgs, hgt⟩ := hkey x hs ht
    rw [hgs, hgt, hs, ht]]
  change (d.entry src tag).map _ = _
  rw [h, Option.map_some, hsrc, htag, beq_self_eq_true, beq_self_eq_true, Bool.and_self, if_pos rfl]

theorem wdata_brings (s : State) (p : LmlId) (f : Frame) (e : Dedupe) (hentry : s.dev.entry f.src f.tag = some e) (hlive : e.active = true)
    (hsound : f.poison = false) :
    Brings (.lomeyWdata p f) s fun d => ∃ e, d.entry f.src f.tag = some e ∧ (f.spec.headD 0, f.body) ∈ e.got := by
  refine brings_of_run (execLomeyWdata.eq_def p f s) ?_
  have hupd := entry_updEntry (g := fun e => { e with
    path := f.path, got := (e.got.filter fun g => g.1 != f.spec.headD 0) ++ [(f.spec.headD 0, f.body)] }) hentry fun x hs ht => ⟨hs, ht⟩
  rw [wdataArrived, hentry]
  dsimp only
  rw [if_neg (by rw [hlive]; decide), if_neg (by rw [hsound]; decide)]
  generalize s.dev.updEntry f.src f.tag _ = d1 at hupd ⊢
  rw [hupd]
  dsimp only
  have hreg : Registered d1 (if ({ e with path := f.path, got := (e.got.filter fun g => g.1 != f.spec.headD 0) ++
      [(f.spec.headD 0, f.body)] } : Dedupe).want != 0 && (missingFrom { e with path := f.path, got := (e.got.filter fun g =>
        g.1 != f.spec.headD 0) ++ [(f.spec.headD 0, f.body)] }).isNone then dataWhole d1 { e with path := f.path, got := (e.got.filter fun g =>
          g.1 != f.spec.headD 0) ++ [(f.spec.headD 0, f.body)] } else d1) :=
    .ite (fun _ => (Registered.refl d1).dataWhole _) fun _ => .refl d1
  obtain ⟨e', he', hstays⟩ := hreg.settleChain f.src f.tag _ hupd
  exact ⟨e', he', hstays.got ▸ List.mem_append_right _ (List.mem_singleton_self _)⟩

theorem discardCtx_gone (d : Dev) (id : Nat) : (discardCtx d id).ctx? id = none := by
  unfold discardCtx
  split
  next h =>
    rw [Dev.ctx?_of_hkeep (hkeep_dropWork (ft := 0) d id) (by decide)]
    exact h
  next x h =>
    rw [Dev.ctx?_of_hkeep (hkeep_dropWork (ft := 0) (leaveTable d x) id) (by decide), Dev.ctx?, leaveTable_ctxs, Dev.id_of_ctx? h]
    exact ctx?_eq_none id

theorem cancel_brings (s : State) (p : LmlId) (f : Frame) (e : Dedupe) (hentry : s.dev.entry f.src f.tag = some e) (hlive : e.active = true) :
    Brings (.lomeyCancel p f) s fun d => d.ctx? e.id = none ∧ ∃ e, d.entry f.src f.tag = some e ∧ e.active = false := by
  refine brings_of_run (execLomeyCancel.eq_def p f s) ?_
  obtain ⟨d1, hrun, hgone, hreg⟩ : ∃ d1, cancelArrived f s.dev = d1.updEntry f.src f.tag (fun e => { e with active := false, path := f.path }) ∧
      d1.ctx? e.id = none ∧ Registered s.dev d1 := by
    rw [cancelArrived, hentry]
    dsimp only
    rw [if_neg (by rw [hlive]; decide)]
    refine ⟨_, rfl, ?_, ?_⟩
    · split
      next x hx =>
        rw [← Dev.id_of_ctx? hx]
        exact discardCtx_gone _ _
      next hx => exact hx
    · split
      · refine Registered.discardCtx ?_ _
        refine .ite (fun _ => Registered.restorePtr ?_ _) fun _ => .refl _
        exact ((Registered.refl _).of_lkeep (m := 0) (lkeep_discardData _ _) (by decide)).of_lkeep (m := 0) (lkeep_undoContext _ _) (by decide)
      · exact .refl _
  rw [hrun]
  obtain ⟨e1, he1, _⟩ := hreg f.src f.tag e hentry
  have hended := entry_updEntry (g := fun e => { e with active := false, path := f.path }) he1 fun x hs ht => ⟨hs, ht⟩
  obtain ⟨e2, he2, hstays⟩ := (Registered.refl _).settleChain f.src f.tag _ hended
  exact ⟨(Onward.refl _).settleChain.gone hgone, e2, he2, hstays.ended rfl⟩

theorem prog_gives (s : State) (src tag : Nat) (e : Dedupe) (hentry : s.dev.entry src tag = some e) (hlive : e.active = true) :
    Gives (.progTimer src tag) s
      (settleChain (originate s.dev (mkFrame s.dev e.src ftProg e.tag e.path e.attempt e.rbudget [] [] 0))) := by
  refine gives_of_run (execProgTimer.eq_def src tag s) ?_
  simp only [hentry]
  rw [if_pos hlive, answer]

/-- A frame with a port to leave by only joins that port. -/
theorem originate_sends {d : Dev} {f : Frame} {q : Nat} (h : routeOf d f.dest f.path f.turned none = .send q) :
    originate d f = putOn d q ⟨f, none⟩ := by rw [originate, h]

theorem xrdyRetry_brings (s : State) (src tag off q : Nat) (e : Dedupe) (hentry : s.dev.entry src tag = some e) (hlive : e.active = true)
    (hasked : e.xrdy ≠ 0) (hmissing : missingFrom e = some off) (hfew : e.xrdy ≤ s.dev.rd F.lmlE2e_retries)
    (hself : s.dev.chain.selfNaks = []) (hroute : routeOf s.dev e.src (!e.path) false none = .send q) :
    Brings (.xrdyRetryTimer src tag) s fun d => d.entry src tag = some { e with path := !e.path, xrdy := e.xrdy + 1 } := by
  refine brings_of_run (execXrdyRetryTimer.eq_def src tag s) ?_
  obtain ⟨hsrc, htag⟩ := find?_key hentry
  have hrun : xrdyRetry src tag s.dev = askMissing (s.dev.updEntry src tag fun _ => { e with path := !e.path, xrdy := e.xrdy + 1 })
      { e with path := !e.path, xrdy := e.xrdy + 1 } := by
    rw [xrdyRetry, hentry]
    dsimp only
    rw [if_neg (by simp [hlive, hasked, hmissing]), if_neg (by omega)]
  have hupd : (s.dev.updEntry src tag fun _ => { e with path := !e.path, xrdy := e.xrdy + 1 }).entry src tag =
      some { e with path := !e.path, xrdy := e.xrdy + 1 } := entry_updEntry hentry fun _ _ _ => ⟨hsrc, htag⟩
  rw [hrun, askMissing, show missingFrom { e with path := !e.path, xrdy := e.xrdy + 1 } = some off from hmissing]
  dsimp only
  rw [if_neg (Nat.succ_ne_zero _), answer, originate_sends (q := q) (by exact hroute)]
  have hput := lkeep_putOn (ft := sendFlitChainF) (by decide) (s.dev.updEntry src tag fun _ => { e with path := !e.path, xrdy := e.xrdy + 1 }) q
    ⟨mkFrame (s.dev.updEntry src tag fun _ => { e with path := !e.path, xrdy := e.xrdy + 1 }) e.src ftXrdy e.tag (!e.path) e.attempt e.rbudget
      [off, e.want - off] [] 0, none⟩
  rw [entry_of_dedupe (congrArg ChainState.dedupe (settleChain_chain ((selfNaks_of_lkeep hput (by decide)).trans hself)))]
  rw [entry_of_dedupe (dedupe_of_lkeep hput (by decide))]
  exact hupd

theorem expiry_brings (s : State) (src tag : Nat) : Brings (.dedupeExpiry src tag) s fun d =>
    (∀ e ∈ d.chain.dedupe, e.src = src → e.tag = tag → e.active = true) ∧
    (∀ e ∈ s.dev.chain.dedupe, (e.src ≠ src ∨ e.tag ≠ tag) → e ∈ d.chain.dedupe) ∧
    d.rd F.lmlDedup_in_use = d.chain.dedupe.length % 2 ^ F.lmlDedup_in_use.w := by
  refine brings_of_run (execDedupeExpiry.eq_def src tag s) ⟨fun e he hsrc htag => ?_, fun e he hother => ?_, Dev.rd_wr_same ..⟩
  · simpa [hsrc, htag] using (List.mem_filter.1 he).2
  · refine List.mem_filter.2 ⟨he, ?_⟩
    rcases hother with h | h
    · simp [h]
    · simp [h]

/-- Settles O46: each entry of the dedupe table has only gone on through whatever a frame sets off, so that what the frame itself makes of
its entry is found there at the end. -/
theorem targetRowsComplete : Obligations.TargetRowsComplete := by
  unfold Obligations.TargetRowsComplete
  exact ⟨cmd_brings, wdata_brings, cancel_brings, prog_gives, xrdyRetry_brings, expiry_brings⟩

end Sys2Proof.Machine
end

section
/-! PROOF. Frames of a transaction at its root. -/
namespace Sys2Proof.Machine

/-! ### Transactions of the root -/

theorem tag_of_rootTx {d : Dev} {tag : Nat} {t : RootTx} (h : d.rootTx tag = some t) : t.tag = tag := by simpa using List.find?_some h

theorem rootTx_of_root {d e : Dev} (h : e.chain.root = d.chain.root) (tag : Nat) : e.rootTx tag = d.rootTx tag := by
  rw [Dev.rootTx, h, Dev.rootTx]

theorem rootTx_updTx {d : Dev} {tag : Nat} {t : RootTx} {g : RootTx → RootTx} (h : d.rootTx tag = some t) (hkey : ∀ x, (g x).tag = x.tag) :
    (d.updTx tag g).rootTx tag = some (g t) := by
  change (listMapIf (fun x => x.tag == tag) g d.chain.root).find? _ = _
  rw [find?_listMapIf fun x _ => by rw [hkey x]]
  change (d.rootTx tag).map _ = _
  rw [h, Option.map_some, tag_of_rootTx h, beq_self_eq_true, if_pos rfl]

/-- What settling leaves of the transactions where no NAK of the device's own waits. -/
theorem settleChain_rootTx {d : Dev} (h : d.chain.selfNaks = []) (tag : Nat) : (settleChain d).rootTx tag = d.rootTx tag :=
  rootTx_of_root (congrArg ChainState.root (settleChain_chain h)) tag

/-! ### Frames from the target -/

section
variable {s : State} {f : Frame} {t : RootTx} (htx : s.dev.rootTx f.tag = some t) (hself : s.dev.chain.selfNaks = [])
include htx hself

theorem ackArrived_shows :
    (settleChain (ackArrived f s.dev)).rootTx f.tag = some { t with acked := true, busy := false } := by
  rw [ackArrived, htx, settleChain_rootTx (by exact hself)]
  exact rootTx_updTx htx fun _ => rfl

theorem ack_brings (p : LmlId) :
    (Brings (.lomeyAck p f) s fun d => d.rootTx f.tag = some { t with acked := true, busy := false }) ∧
    (Brings (.lomeyProg p f) s fun d => d.rootTx f.tag = some { t with acked := true, busy := false }) :=
  ⟨brings_of_run (execLomeyAck.eq_def p f s) (ackArrived_shows htx hself), brings_of_run (execLomeyProg.eq_def p f s) (ackArrived_shows htx hself)⟩

theorem rdata_brings (p : LmlId) (hatt : f.attempt = t.attempt) (hsound : f.poison = false) (hcpl : t.cpl = none) :
    Brings (.lomeyRdata p f) s fun d => d.rootTx f.tag = some { t with acked := true, got :=
      (t.got.filter fun g => g.1 != f.spec.headD 0) ++ [(f.spec.headD 0, f.spec.getD 1 0 :: f.body)] } := by
  refine brings_of_run (execLomeyRdata.eq_def p f s) ?_
  have hupd := rootTx_updTx (g := fun t => { t with acked := true, got :=
    (t.got.filter fun g => g.1 != f.spec.headD 0) ++ [(f.spec.headD 0, f.spec.getD 1 0 :: f.body)] }) htx fun _ => rfl
  rw [rdataArrived, htx]
  dsimp only
  rw [if_neg (not_not.2 hatt), if_neg (by rw [hsound]; decide)]
  generalize hd1 : s.dev.updTx f.tag _ = d1 at hupd ⊢
  have hwait : tryCpl d1 f.tag = d1 := by
    rw [tryCpl, hupd]
    dsimp only
    rw [hcpl]
  have hself1 : d1.chain.selfNaks = [] := by rw [← hd1]; exact hself
  rw [hwait, settleChain_rootTx hself1]
  exact hupd

theorem nak_brings (p : LmlId) (hbusy : f.spec.headD 0 = 3) (hty : f.spec.getD 1 0 = ftCmd) :
    Brings (.lomeyNak p f) s fun d => d.rootTx f.tag = some { t with busy := true } := by
  refine brings_of_run (execLomeyNak.eq_def p f s) ?_
  have hrun : nakArrived s.dev f = s.dev.updTx f.tag fun u => { u with busy := true } := by
    rw [nakArrived]
    dsimp only
    rw [if_pos (.inl hty)]
    change (match s.dev.rootTx f.tag with | none => _ | some t => _) = _
    rw [htx]
    exact if_pos hbusy
  rw [hrun, settleChain_rootTx (by exact hself)]
  exact rootTx_updTx htx fun _ => rfl

end

theorem xrdy_gives (s : State) (p : LmlId) (f : Frame) (t : RootTx) (x : Ctx) (parts : List (Nat × Nat × List Nat)) (g : RootTx → RootTx)
    (htx : s.dev.rootTx f.tag = some t) (hx : s.dev.ctx? t.id = some x) (hg : g = (fun u => { u with acked := true, path := f.path }))
    (hparts : parts = (dataParts x.c.kind (rootData x)).filter (fun q => decide (f.spec.headD 0 ≤ q.1 ∧ q.1 < f.spec.headD 0 + f.spec.getD 1 0))) :
    Gives (.lomeyXrdy p f) s (settleChain (forEach parts.zipIdx (s.dev.updTx f.tag g) fun d q =>
      originate d { mkFrame d t.addr ftWdata t.tag f.path t.attempt t.cmd.budget [q.1.1, q.1.2.1] q.1.2.2 ((q.1.2.1 + 63) / 64) with
        last := q.2 + 1 == parts.length })) := by
  refine gives_of_run (execLomeyXrdy.eq_def p f s) ?_
  subst hg hparts
  have hctx : (s.dev.updTx f.tag fun u => { u with acked := true, path := f.path }).ctx? t.id = some x := hx
  rw [xrdyArrived, htx]
  dsimp only
  rw [hctx]

/-- A transaction whose command a host gave ends it with the status it ends with, unless that status is an error of a write. -/
theorem rootFinish_reports {d : Dev} {t : RootTx} {x : Ctx} {h qid cid : Nat} (hx : d.ctx? t.id = some x) (horg : x.org = .host h qid cid)
    (status dw0 : Nat) (toks : List Nat) (hok : (writesData x.c.kind && status != 0) = false) :
    Reported (.cqe h qid cid status dw0) (rootFinish d t status dw0 toks) ∧ (rootFinish d t status dw0 toks).ctx? t.id = none := by
  have hid : x.id = t.id := Dev.id_of_ctx? hx
  obtain ⟨e, hrun, he⟩ : ∃ e, rootFinish d t status dw0 toks = finish e t.id status dw0 ∧ e.ctx? t.id = some x := by
    refine ⟨if toks.isEmpty || status != 0 then { d with chain := { d.chain with root := d.chain.root.filter fun u => u.tag != t.tag } } else
      returnData { d with chain := { d.chain with root := d.chain.root.filter fun u => u.tag != t.tag } } x toks, ?_, ?_⟩
    · rw [rootFinish]
      change (match d.ctx? t.id with | none => _ | some x => _) = _
      rw [hx]
      dsimp only
      rw [if_neg (by simp [horg]), if_neg (by rw [hok]; decide), hid]
    · split
      · exact hx
      · exact (Dev.ctx?_of_hkeep (hkeep_returnData (ft := 0) _ x toks) (by decide) t.id).trans hx
  rw [hrun]
  exact ⟨finish_reports status dw0 he horg, finish_gone e t.id status dw0⟩

theorem cpl_brings (s : State) (p : LmlId) (f : Frame) (t : RootTx) (x : Ctx) (h qid cid : Nat) (htx : s.dev.rootTx f.tag = some t)
    (hx : s.dev.ctx? t.id = some x) (horg : x.org = .host h qid cid) (hok : f.spec.getD 3 0 = 0) (hheld : f.spec.getD 4 0 ≤ bytesHeld t) :
    Brings (.lomeyCpl p f) s fun d => Emit.cqe h qid cid 0 (f.spec.headD 0) ∈ d.out ∧ d.ctx? t.id = none := by
  refine brings_of_run (execLomeyCpl.eq_def p f s) ?_
  have hupd := rootTx_updTx (g := fun t => { t with acked := true, cpl := some f }) htx fun _ => rfl
  obtain ⟨e, hrun, he⟩ : ∃ e, cplArrived f s.dev = rootFinish e { t with acked := true, cpl := some f } 0 (f.spec.headD 0)
      (dataHeld { t with acked := true, cpl := some f }) ∧ e.ctx? t.id = some x := by
    rw [cplArrived, htx]
    dsimp only
    rw [tryCpl, hupd]
    dsimp only
    rw [if_neg (by exact Nat.not_lt.2 hheld), hok]
    refine ⟨_, rfl, ?_⟩
    split
    · split
      · split
        · exact hx
        · exact hx
      · exact hx
    · exact hx
  obtain ⟨hcqe, hgone⟩ := rootFinish_reports (t := { t with acked := true, cpl := some f }) he horg 0 (f.spec.headD 0)
    (dataHeld { t with acked := true, cpl := some f }) (by simp)
  rw [hrun]
  have honward := (Onward.refl (rootFinish e { t with acked := true, cpl := some f } 0 (f.spec.headD 0)
    (dataHeld { t with acked := true, cpl := some f }))).settleChain
  exact ⟨honward.reported hcqe, honward.gone hgone⟩

/-! ### Silence -/

theorem putOn_settles {d : Dev} (h : d.chain.selfNaks = []) (q : Nat) (tf : TxFrame) (tag : Nat) :
    (settleChain (putOn d q tf)).rootTx tag = d.rootTx tag := by
  have hput := lkeep_putOn (ft := sendFlitChainF) (by decide) d q tf
  rw [settleChain_rootTx ((selfNaks_of_lkeep hput (by decide)).trans h), rootTx_of_root (root_of_lkeep hput (by decide))]

section
variable {s : State} {tag : Nat} {t : RootTx} (htx : s.dev.rootTx tag = some t)
include htx

theorem cmdRetry_sends (hself : s.dev.chain.selfNaks = []) (hfew : t.sent ≤ s.dev.rd F.lmlE2e_retries) {q : Nat}
    (hroute : routeOf s.dev t.cmd.dest (!t.path) t.cmd.turned none = .send q) :
    ∃ u, (settleChain (cmdRetry s.dev t)).rootTx tag = some u ∧
      u.path = !t.path ∧ u.attempt = t.attempt + 1 ∧ u.sent = t.sent + 1 ∧ u.acked = false ∧ u.got = [] := by
  have htag := tag_of_rootTx htx
  have hupd := rootTx_updTx (g := fun u => { u with
    path := !t.path, attempt := u.attempt + 1, sent := u.sent + 1, acked := false, got := [], cpl := if u.wclass then u.cpl else none,
    cmd := { t.cmd with path := !t.path, attempt := t.attempt + 1, seq := 0 } }) htx fun _ => rfl
  rw [cmdRetry, if_neg (by omega)]
  dsimp only
  rw [originate_sends (q := q) (by exact hroute), putOn_settles (by exact hself), htag]
  exact ⟨_, hupd, rfl, rfl, rfl, rfl, rfl⟩

omit htx in
theorem cmdLost_reports {x : Ctx} {h qid cid : Nat} (hmany : s.dev.rd F.lmlE2e_retries + 1 ≤ t.sent) (hx : s.dev.ctx? t.id = some x)
    (horg : x.org = .host h qid cid) (hread : writesData x.c.kind = false) :
    Emit.cqe h qid cid stUnreachable 0 ∈ (settleChain (cmdRetry s.dev t)).out ∧ (settleChain (cmdRetry s.dev t)).ctx? t.id = none := by
  obtain ⟨hcqe, hgone⟩ := rootFinish_reports hx horg stUnreachable 0 [] (by rw [hread]; rfl)
  rw [cmdRetry, if_pos hmany]
  have honward := ((Onward.refl (rootFinish s.dev t stUnreachable 0 [])).originate (mkFrame (rootFinish s.dev t stUnreachable 0 []) t.addr ftCancel
    t.tag t.path t.attempt t.cmd.budget [] [] 0)).settleChain
  exact ⟨honward.reported hcqe, honward.gone hgone⟩

end

theorem retry_brings (s : State) (tag q : Nat) (t : RootTx) (htx : s.dev.rootTx tag = some t) (hself : s.dev.chain.selfNaks = [])
    (hfew : t.sent ≤ s.dev.rd F.lmlE2e_retries) (hroute : routeOf s.dev t.cmd.dest (!t.path) t.cmd.turned none = .send q) :
    (t.acked = false → t.busy = false → Brings (.cmdRetryTimer tag) s fun d => ∃ u, d.rootTx tag = some u ∧
      u.path = !t.path ∧ u.attempt = t.attempt + 1 ∧ u.sent = t.sent + 1 ∧ u.acked = false ∧ u.got = []) ∧
    (t.acked = true → Brings (.idleTimer tag) s fun d => ∃ u, d.rootTx tag = some u ∧
      u.path = !t.path ∧ u.attempt = t.attempt + 1 ∧ u.sent = t.sent + 1 ∧ u.acked = false ∧ u.got = []) := by
  refine ⟨fun hacked hbusy => brings_of_run (execCmdRetryTimer.eq_def tag s) ?_, fun hacked => brings_of_run (execIdleTimer.eq_def tag s) ?_⟩
  · simp only [htx]
    rw [if_neg (by rw [hacked, hbusy]; decide)]
    exact cmdRetry_sends htx hself hfew hroute
  · simp only [htx]
    rw [if_pos hacked]
    exact cmdRetry_sends htx hself hfew hroute

theorem lost_brings (s : State) (tag : Nat) (t : RootTx) (x : Ctx) (h qid cid : Nat) (htx : s.dev.rootTx tag = some t)
    (hmany : s.dev.rd F.lmlE2e_retries + 1 ≤ t.sent) (hacked : t.acked = false) (hbusy : t.busy = false) (hx : s.dev.ctx? t.id = some x)
    (horg : x.org = .host h qid cid) (hread : writesData x.c.kind = false) :
    Brings (.cmdRetryTimer tag) s fun d => Emit.cqe h qid cid stUnreachable 0 ∈ d.out ∧ d.ctx? t.id = none := by
  refine brings_of_run (execCmdRetryTimer.eq_def tag s) ?_
  simp only [htx]
  rw [if_neg (by rw [hacked, hbusy]; decide)]
  exact cmdLost_reports hmany hx horg hread

theorem busyRetry_brings (s : State) (tag q : Nat) (t : RootTx) (htx : s.dev.rootTx tag = some t) (hself : s.dev.chain.selfNaks = [])
    (hbusy : t.busy = true) (hroute : routeOf s.dev t.cmd.dest t.cmd.path t.cmd.turned none = .send q) :
    Brings (.busyRetryTimer tag) s fun d => d.rootTx tag = some { t with busy := false } := by
  refine brings_of_run (execBusyRetryTimer.eq_def tag s) ?_
  simp only [htx]
  rw [if_pos hbusy, originate_sends (q := q) (by exact hroute), putOn_settles (by exact hself)]
  exact rootTx_updTx htx fun _ => rfl

/-- Settles O47: of a transaction that goes on by the one record that changes, of one that ends by the end of its command, which settling
the chain leaves reported and gone. -/
theorem rootRowsComplete : Obligations.RootRowsComplete := by
  unfold Obligations.RootRowsComplete
  exact ⟨fun s p f t htx hself => ack_brings htx hself p, xrdy_gives, fun s p f t htx hself => rdata_brings htx hself p, cpl_brings,
    fun s p f t htx hself => nak_brings htx hself p, retry_brings, lost_brings, busyRetry_brings⟩

end Sys2Proof.Machine
end

section
/-! PROOF. What Roll Call leaves of the chain part. -/
namespace Sys2Proof.Machine

def announceEndChainF : Nat := chainFoot [.ports, .nodes, .fresh, .survey, .links, .selfNaks, .nextAddr, .rcFail]
theorem lkeep_announceEnd {ft : Nat} (hft : inFoot announceEndChainF ft = true) (d : Dev) : lkeep ft (announceEnd d) = lkeep ft
    d :=
  lkeep_mono hft (by simp +decide only [announceEnd, ↓lkeep_setFlag, ↓lkeep_wr, ↓lkeep_updChain, lmask, chainView, if_true, implies_true, ↓lkeep_surveyStart, ↓lkeep_ite,
    ite_self])

end Sys2Proof.Machine
end

section
/-! PROOF. Roll Call. -/
namespace Sys2Proof.Machine

/-! ### What telling the neighbours leaves -/

theorem flood_rd (d : Dev) (except : Option Nat) (sub : Nat) (fields : List Nat) {f : Fld} (hf : putOnFoot.testBit (32 + f.id) = false)
    (i j : Nat) : (flood d except sub fields).rd f i j = d.rd f i j := rd_of_keep (keep_flood (ft := putOnFoot) (by decide) d except sub fields) hf i j

theorem lkeep_flooded (d : Dev) (except : Option Nat) (sub : Nat) (fields : List Nat) :
    lkeep sendFlitChainF (flood d except sub fields) = lkeep sendFlitChainF d := lkeep_flood (by decide) d except sub fields

/-- A frame of no arrival that joins a port frees no buffer. -/
theorem putOn_local_rd (d : Dev) (p : Nat) (f : Frame) {g : Fld} (hg : sendAsFoot.testBit (32 + g.id) = false) (i j : Nat) :
    (putOn d p ⟨f, none⟩).rd g i j = d.rd g i j := by
  rw [putOn]
  split
  · exact rd_of_keep (keep_sendOn (ft := sendAsFoot) (by decide) d p f none) hg i j
  · rfl

/-! ### Announcements -/

theorem rollStart_starts {d : Dev} (hroot : d.flag F.lmlNode_root = true) (hidle : d.rd F.lmlRc_phase = 0) : rollStart d = announceSelf d := by
  rw [rollStart, if_neg (by rw [isRoot, rcPhase, hroot, hidle]; decide)]

theorem announceSelf_announces (d : Dev) : (announceSelf d).rd F.lmlRc_phase = 1 ∧
    (announceSelf d).chain.gen = (d.chain.gen + 1) % 2 ^ 32 ∧
    (announceSelf d).chain.heard = [(d.sec.otp.deviceId, (d.chain.gen + 1) % 2 ^ 32)] := by
  have hflood := lkeep_flooded (((d.wr F.lmlRc_phase 1).updChain fun c => { c with
    gen := (d.chain.gen + 1) % 2 ^ 32, heard := [(d.sec.otp.deviceId, (d.chain.gen + 1) % 2 ^ 32)],
    announced := c.announced ++ [(d.sec.otp.deviceId, (d.chain.gen + 1) % 2 ^ 32)] })) none 0 [d.sec.otp.deviceId, (d.chain.gen + 1) % 2 ^ 32]
  refine ⟨?_, gen_of_lkeep hflood (by decide), heard_of_lkeep hflood (by decide)⟩
  rw [announceSelf, flood_rd _ _ _ _ (by decide), Dev.updChain_rd]
  exact Dev.rd_wr_lt _ _ _ _ _ (by decide)

theorem start_brings (s : State) (r : Bool) (hroot : s.dev.flag F.lmlNode_root = true) (hidle : s.dev.rd F.lmlRc_phase = 0) :
    Brings (.rollCallStart r) s fun d => d.rd F.lmlRc_phase = 1 ∧ d.chain.gen = (s.dev.chain.gen + 1) % 2 ^ 32 ∧
      d.chain.heard = [(s.dev.sec.otp.deviceId, (s.dev.chain.gen + 1) % 2 ^ 32)] := by
  refine brings_of_run (execRollCallStart.eq_def r s) ?_
  rw [rollStart_starts hroot hidle]
  exact announceSelf_announces s.dev

theorem announce_brings (s : State) (p : LmlId) (devId gen : Nat) (hnew : s.dev.chain.announced.contains (devId, gen) = false) :
    Brings (.announce p devId gen) s fun d => d.chain.heard.contains (devId, gen) = true ∧
      (s.dev.flag F.lmlNode_root = true → s.dev.rd F.lmlRc_phase = 0 → d.rd F.lmlRc_phase = 1) := by
  refine brings_of_run (execAnnounce.eq_def p devId gen s) ?_
  rw [announceHeard, if_neg (by rw [hnew]; decide)]
  refine ⟨?_, fun hroot hidle => ?_⟩
  · rw [heard_of_lkeep (lkeep_flooded _ _ _ _) (by decide), Dev.updChain_chain]
    simp
  · rw [flood_rd _ _ _ _ (by decide), Dev.updChain_rd, rollStart_starts hroot hidle]
    exact (announceSelf_announces s.dev).1

theorem timeout_follows (s : State) (hwait : s.dev.rd F.lmlRc_phase = 1) (hlower : ∃ h ∈ s.dev.chain.heard, h.1 < s.dev.sec.otp.deviceId) :
    Gives .announceTimeout s ((s.dev.setFlag F.lmlNode_lead false).wr F.lmlRc_phase 2) := by
  refine gives_of_run (execAnnounceTimeout.eq_def s) ?_
  have hlead : (s.dev.chain.heard.all fun h => decide (s.dev.sec.otp.deviceId ≤ h.1)) = false := by simpa using hlower
  have hend : announceEnd s.dev = (s.dev.setFlag F.lmlNode_lead false).wr F.lmlRc_phase 2 := by
    rw [announceEnd, if_neg (by exact not_not.2 hwait)]
    dsimp only
    rw [hlead, if_pos (by decide)]
  rw [hend]
  refine if_neg fun h => ?_
  have hnot : isLead ((s.dev.setFlag F.lmlNode_lead false).wr F.lmlRc_phase 2) = false :=
    (Dev.flag_wr_ne _ _ _ _ _ _ _ _ (by decide)).trans (Dev.flag_setFlag _ _ _ _ _ (by decide))
  rw [hnot] at h
  cases h.2.1

/-! ### The lead -/

/-- The device of the root that leads, before its survey starts. -/
def leadTaken (d : Dev) : Dev :=
  let e := (d.setFlag F.lmlNode_lead true).wr F.lmlRc_phase 2
  let e := if ownAddr e = 0 then e.wr F.lmlNode_addr 1 else e
  e.updChain fun c => { c with rcFail := false, nodes := c.nodes.modify 0 fun n => { n with addr := ownAddr e } }

theorem announceEnd_leads {d : Dev} (hwait : d.rd F.lmlRc_phase = 1) (hall : ∀ h ∈ d.chain.heard, d.sec.otp.deviceId ≤ h.1) :
    announceEnd d = surveyStart (leadTaken d) := by
  have hlead : (d.chain.heard.all fun h => decide (d.sec.otp.deviceId ≤ h.1)) = true := by simpa using hall
  rw [announceEnd, if_neg (by exact not_not.2 hwait)]
  dsimp only
  rw [hlead, if_neg (by decide)]
  rfl

theorem leadTaken_rd (d : Dev) {f : Fld} (hl : F.lmlNode_lead.id ≠ f.id) (hp : F.lmlRc_phase.id ≠ f.id) (ha : F.lmlNode_addr.id ≠ f.id)
    (i j : Nat) : (leadTaken d).rd f i j = d.rd f i j := by
  have hmarked : ((d.setFlag F.lmlNode_lead true).wr F.lmlRc_phase 2).rd f i j = d.rd f i j :=
    (Dev.rd_wr_ne _ _ _ _ _ _ _ _ hp).trans (Dev.rd_setFlag_ne _ _ _ _ _ _ _ _ hl)
  rw [leadTaken, Dev.updChain_rd]
  split
  · exact (Dev.rd_wr_ne _ _ _ _ _ _ _ _ ha).trans hmarked
  · exact hmarked

theorem leadTaken_shows (d : Dev) : (leadTaken d).flag F.lmlNode_lead = true ∧ (leadTaken d).rd F.lmlRc_phase = 2 ∧
    (d.rd F.lmlNode_addr = 0 → (leadTaken d).rd F.lmlNode_addr = 1) := by
  have hown : ownAddr ((d.setFlag F.lmlNode_lead true).wr F.lmlRc_phase 2) = d.rd F.lmlNode_addr :=
    (Dev.rd_wr_ne _ _ _ _ _ _ _ _ (by decide)).trans (Dev.rd_setFlag_ne _ _ _ _ _ _ _ _ (by decide))
  have hlead : ((d.setFlag F.lmlNode_lead true).wr F.lmlRc_phase 2).flag F.lmlNode_lead = true :=
    (Dev.flag_wr_ne _ _ _ _ _ _ _ _ (by decide)).trans (Dev.flag_setFlag _ _ _ _ _ (by decide))
  have hphase : ((d.setFlag F.lmlNode_lead true).wr F.lmlRc_phase 2).rd F.lmlRc_phase = 2 := Dev.rd_wr_lt _ _ _ _ _ (by decide)
  rw [Dev.flag, leadTaken, Dev.updChain_rd, Dev.updChain_rd, Dev.updChain_rd, hown, ← Dev.flag]
  split
  next haddr =>
    exact ⟨(Dev.flag_wr_ne _ _ _ _ _ _ _ _ (by decide)).trans hlead, (Dev.rd_wr_ne _ _ _ _ _ _ _ _ (by decide)).trans hphase,
      fun _ => Dev.rd_wr_lt _ _ _ _ _ (by decide)⟩
  next haddr => exact ⟨hlead, hphase, fun h => absurd h haddr⟩

theorem surveyStart_rd (d : Dev) {f : Fld} (hf : originateFoot.testBit (32 + f.id) = false) (i j : Nat) :
    (surveyStart d).rd f i j = d.rd f i j := rd_of_keep (keep_surveyStart (ft := originateFoot) (by decide) d) hf i j

theorem surveyStart_survey (d : Dev) : (surveyStart d).chain.survey =
    ((List.range 4).filter fun p => d.rd F.lmlStat_state p == 3).map fun p => (ownAddr d, p) := by
  rw [surveyStart, survey_of_lkeep (lkeep_probeNext (ft := originateChainF) (by decide) _) (by decide), Dev.updChain_chain]

theorem timeout_leads (s : State) (hwait : s.dev.rd F.lmlRc_phase = 1) (hall : ∀ h ∈ s.dev.chain.heard, s.dev.sec.otp.deviceId ≤ h.1) :
    Brings .announceTimeout s fun d => d.flag F.lmlNode_lead = true ∧
      ((∃ p, p < 4 ∧ s.dev.rd F.lmlStat_state p = 3) → d.rd F.lmlRc_phase = 2) ∧
      (s.dev.rd F.lmlNode_addr = 0 → d.rd F.lmlNode_addr = 1) := by
  refine brings_of_run (execAnnounceTimeout.eq_def s) ?_
  obtain ⟨hlead, hphase, haddr⟩ := leadTaken_shows s.dev
  have hstate (p : Nat) : (leadTaken s.dev).rd F.lmlStat_state p = s.dev.rd F.lmlStat_state p :=
    leadTaken_rd s.dev (by decide) (by decide) (by decide) p 0
  rw [announceEnd_leads hwait hall]
  generalize leadTaken s.dev = e at hlead hphase haddr hstate
  have hlead' : (surveyStart e).flag F.lmlNode_lead = true := by rw [Dev.flag, surveyStart_rd e (by decide), ← Dev.flag, hlead]
  have haddr' : s.dev.rd F.lmlNode_addr = 0 → (surveyStart e).rd F.lmlNode_addr = 1 := by
    rw [surveyStart_rd e (by decide)]
    exact haddr
  have hphase' : (surveyStart e).rd F.lmlRc_phase = 2 := (surveyStart_rd e (by decide) 0 0).trans hphase
  dsimp only
  split
  next hempty =>
    have hend := keep_surveyEnd (ft := surveyEndFoot) (by decide) (surveyStart e)
    refine ⟨(flag_of_keep hend (by decide) 0 0).trans hlead', fun ⟨p, hp, hup⟩ => ?_, fun h => (rd_of_keep hend (by decide) 0 0).trans (haddr' h)⟩
    have hin : (ownAddr e, p) ∈ (surveyStart e).chain.survey := by
      rw [surveyStart_survey]
      exact List.mem_map.2 ⟨p, List.mem_filter.2 ⟨List.mem_range.2 hp, by rw [hstate, hup, beq_self_eq_true]⟩, rfl⟩
    rw [hempty.2.2] at hin
    cases hin
  next => exact ⟨hlead', fun _ => hphase', haddr'⟩

/-! ### Probes and reports -/

theorem probe_relays (s : State) (p : LmlId) (src exit gen : Nat) (hexit : exit < 4) :
    Brings (.probe p src exit gen) s fun d => tabGet 0 d.chain.relayed exit = src + 1 ∧ ∀ f i j, f.id ≠ F.lmlRetry_next_seq.id →
      f.id ≠ F.lmlRetry_buf_used.id → f.id ≠ F.lmlRetry_sends.id → f.id ≠ F.lmlCred_tx_avail.id → d.rd f i j = s.dev.rd f i j := by
  refine brings_of_run (execProbe.eq_def p src exit gen s) ?_
  rw [probeHeard, if_neg (Nat.not_le.2 hexit)]
  refine ⟨?_, fun f i j h1 h2 h3 h4 => ?_⟩
  · rw [relayed_of_lkeep (lkeep_rcLocal (ft := sendFlitChainF) (by decide) _ _ _ _) (by decide), Dev.updChain_chain]
    rw [tabGet_tabPut, if_pos rfl]
  · exact putOn_local_rd _ _ _ (footOf_fld _ (by simp [h1, h2, h3, h4])) i j

theorem probe_answers (s : State) (p : LmlId) (src exit gen : Nat) (hexit : 4 ≤ exit) :
    Gives (.probe p src exit gen) s (rcLocal s.dev p.val 2 [s.dev.sec.otp.deviceId, s.dev.rd F.lmlNode_addr, s.dev.rd F.lmlStat_state 0,
      s.dev.rd F.lmlStat_state 1, s.dev.rd F.lmlStat_state 2, s.dev.rd F.lmlStat_state 3, (s.dev.flag F.lmlNode_root).toNat, p.val,
      (s.dev.flag F.lmlNode_fixed).toNat, s.dev.host.nss.length]) :=
  gives_of_run (execProbe.eq_def p src exit gen s) (if_pos hexit)

theorem report_relays (s : State) (p : LmlId) (devId addr arrival nss asked : Nat) (ports : List Nat) (root fixed : Bool)
    (hasked : asked = tabGet 0 s.dev.chain.relayed p.val) (hsome : asked ≠ 0) :
    Gives (.report p linkLocal devId addr ports root arrival fixed nss) s
      (rcTo (s.dev.updChain fun c => { c with relayed := tabErase c.relayed p.val, lastReport := some p.val }) (asked - 1) 2
        ([devId, addr] ++ ports ++ [root.toNat, arrival, fixed.toNat, nss])) := by
  subst hasked
  exact gives_of_run (execReport.eq_def p linkLocal devId addr ports root arrival fixed nss s) (if_pos ⟨rfl, hsome⟩)

/-- The node that a report names is listed with what the report says of it. -/
def Listed (r : NodeReport) (d : Dev) : Prop := ∃ n ∈ d.chain.nodes, n.devId = r.devId ∧ n.addr = r.addr ∧ n.root = r.root ∧ n.nss = r.nss

/-- What a report says of the nodes. -/
def nodeFacts (d : Dev) : List (Nat × Nat × Bool × Nat) := d.chain.nodes.map fun n => (n.devId, n.addr, n.root, n.nss)

theorem listed_iff (r : NodeReport) (d : Dev) : Listed r d ↔ (r.devId, r.addr, r.root, r.nss) ∈ nodeFacts d := by
  simp [Listed, nodeFacts]

theorem nodeFacts_of_nodes {d e : Dev} (h : e.chain.nodes = d.chain.nodes) : nodeFacts e = nodeFacts d := by rw [nodeFacts, h, nodeFacts]

theorem nodeFacts_of_lkeep {m : Nat} {d e : Dev} (h : lkeep m e = lkeep m d) (hm : m.testBit LField.nodes.ctorIdx = false) :
    nodeFacts e = nodeFacts d := nodeFacts_of_nodes (nodes_of_lkeep h hm)

theorem nodeFacts_refreshNodes (d : Dev) : nodeFacts (refreshNodes d) = nodeFacts d := by
  unfold refreshNodes nodeFacts
  dsimp only [Dev.updChain_chain]
  rw [List.map_map]
  conv_rhs => rw [show d.chain.nodes = d.chain.nodes.zipIdx.map Prod.fst from List.zipIdx_map_fst 0 d.chain.nodes |>.symm, List.map_map]
  refine List.map_congr_left fun n _ => ?_
  dsimp only [Function.comp]
  split
  · rfl
  · split
    · rfl
    · rfl

theorem nodeFacts_fitTables (d : Dev) : nodeFacts (fitTables d) = nodeFacts d := by
  rw [fitTables]
  split
  · rw [nodeFacts_refreshNodes]
    exact nodeFacts_of_nodes rfl
  · rfl

theorem nodeFacts_surveyEnd (d : Dev) : nodeFacts (surveyEnd d) = nodeFacts d := by
  rw [surveyEnd]
  split
  · have hflood (e : Dev) (except : Option Nat) (sub : Nat) (fields : List Nat) : nodeFacts (flood e except sub fields) = nodeFacts e :=
      nodeFacts_of_lkeep (lkeep_flooded e except sub fields) (by decide)
    have hwrite (e : Dev) (l : List ChainNode) : nodeFacts (forEach l e fun d n => writeTable d n.addr) = nodeFacts e :=
      forEach_keeps (p := nodeFacts) (fun e n _ => nodeFacts_of_lkeep (lkeep_writeTable (ft := originateChainF) (by decide) e n.addr) (by decide)) e
    refine (nodeFacts_of_nodes rfl).trans ((hflood _ _ _ _).trans ((hwrite _ _).trans ?_))
    rw [nodeFacts_fitTables, nodeFacts_refreshNodes]
  · exact (nodeFacts_of_nodes rfl).trans (nodeFacts_refreshNodes d)

/-- The nodes with the one that a report names, at the address it reports. -/
def nodesTaken (r : NodeReport) (nodes : List ChainNode) : List ChainNode :=
  match nodes.find? fun n => n.devId == r.devId with
  | some _ => listMapIf (fun n => n.devId == r.devId) (fun n => { n with addr := r.addr, root := r.root, nss := r.nss }) nodes
  | none => nodes ++ [{ addr := r.addr, reach := true, prim := 0, alt := none, root := r.root, encPath := false, hops := 0,
                        altHops := 0, nss := r.nss, devId := r.devId }]

theorem nodesTaken_lists (r : NodeReport) (nodes : List ChainNode) :
    ∃ n ∈ nodesTaken r nodes, n.devId = r.devId ∧ n.addr = r.addr ∧ n.root = r.root ∧ n.nss = r.nss := by
  unfold nodesTaken
  split
  next n hn =>
    have hdev : (n.devId == r.devId) = true := by simpa using List.find?_some hn
    exact ⟨{ n with addr := r.addr, root := r.root, nss := r.nss }, List.mem_map.2 ⟨n, List.mem_of_find?_eq_some hn, if_pos hdev⟩,
      by simpa using hdev, rfl, rfl, rfl⟩
  next => exact ⟨_, List.mem_append_right _ (List.mem_singleton_self _), rfl, rfl, rfl, rfl⟩

section
variable {d : Dev} {r : NodeReport} {node exit : Nat} {rest : List (Nat × Nat)} (hsurvey : d.chain.survey = (node, exit) :: rest)
  (haddr : r.addr ≠ 0) (hfree : (d.chain.nodes.any fun n => n.addr == r.addr && n.devId != r.devId) = false)
include hsurvey haddr hfree

theorem takeReport_takes : ∃ e, takeReport d r = (if e.chain.survey = [] then surveyEnd e else probeNext e) ∧
    e.chain.nodes = nodesTaken r d.chain.nodes := by
  have hheld : (r.addr != 0) = true := by simpa using haddr
  rw [takeReport, hsurvey]
  dsimp only [Dev.updChain_chain]
  simp only [hheld, hfree, Bool.and_false, Bool.true_or, if_true, Bool.false_eq_true, if_false]
  refine ⟨_, rfl, ?_⟩
  split
  · rfl
  · rfl

theorem takeReport_lists : Listed r (takeReport d r) := by
  obtain ⟨e, hrun, hnodes⟩ := takeReport_takes hsurvey haddr hfree
  have hlisted : Listed r e := by
    rw [Listed, hnodes]
    exact nodesTaken_lists r d.chain.nodes
  rw [listed_iff] at hlisted ⊢
  rw [hrun]
  split
  · rw [nodeFacts_surveyEnd]
    exact hlisted
  · rw [nodeFacts_of_lkeep (lkeep_probeNext (ft := originateChainF) (by decide) e) (by decide)]
    exact hlisted

end

theorem report_lists (s : State) (p : LmlId) (devId addr arrival nss node exit : Nat) (ports : List Nat) (root fixed : Bool)
    (rest : List (Nat × Nat)) (hnone : tabGet 0 s.dev.chain.relayed p.val = 0) (hphase : s.dev.rd F.lmlRc_phase = 2)
    (hsurvey : s.dev.chain.survey = (node, exit) :: rest) (haddr : addr ≠ 0)
    (hfree : (s.dev.chain.nodes.any fun n => n.addr == addr && n.devId != devId) = false) :
    Brings (.report p linkLocal devId addr ports root arrival fixed nss) s fun d =>
      ∃ n ∈ d.chain.nodes, n.devId = devId ∧ n.addr = addr ∧ n.root = root ∧ n.nss = nss := by
  refine brings_of_run (execReport.eq_def p linkLocal devId addr ports root arrival fixed nss s) ?_
  rw [reportHeard, if_neg (fun h => h.2 hnone), if_pos (.inl hphase)]
  exact takeReport_lists (r := { devId := devId, addr := addr, ports := ports, root := root, arrival := arrival, fixed := fixed, nss := nss })
    hsurvey haddr hfree

/-! ### Addresses, generations, notices and routes -/

theorem assign_brings (s : State) (p : LmlId) (addr gen : Nat) (hfree : s.dev.rd F.lmlNode_addr = 0) :
    Brings (.assign p addr gen) s fun d => d.rd F.lmlNode_addr = addr % 2 ^ 24 ∧ d.out = s.dev.out := by
  refine brings_of_run (execAssign.eq_def p addr gen s) ?_
  rw [assignHeard, if_neg (by exact not_not.2 hfree)]
  exact ⟨Dev.rd_wr_same .., rfl⟩

theorem done_brings (s : State) (p : LmlId) (gen : Nat) (hnew : s.dev.rd F.lmlRc_generation ≠ gen) (hgen : gen < 2 ^ 32)
    (hrole : s.dev.flag F.lmlNode_root = false ∨ s.dev.flag F.lmlNode_lead = true) :
    Brings (.done p gen) s fun d => d.rd F.lmlRc_generation = gen ∧ d.rd F.lmlRc_phase = 0 := by
  refine brings_of_run (execDone.eq_def p gen s) ?_
  have hflag {f : Fld} (hf : putOnFoot.testBit (32 + f.id) = false) (hg : F.lmlRc_generation.id ≠ f.id) :
      (flood (s.dev.wr F.lmlRc_generation gen) (some p.val) 5 [gen]).flag f = s.dev.flag f := by
    rw [Dev.flag, flood_rd _ _ _ _ hf, Dev.rd_wr_ne _ _ _ _ _ _ _ _ hg, Dev.flag]
  have hlead : (isRoot (flood (s.dev.wr F.lmlRc_generation gen) (some p.val) 5 [gen]) &&
      !isLead (flood (s.dev.wr F.lmlRc_generation gen) (some p.val) 5 [gen])) = false := by
    rw [isRoot, isLead, hflag (by decide) (by decide), hflag (by decide) (by decide)]
    rcases hrole with h | h
    · rw [h]; rfl
    · rw [h, Bool.not_true, Bool.and_false]
  rw [doneHeard, if_neg hnew]
  dsimp only
  rw [hlead, if_neg (by decide)]
  refine ⟨?_, Dev.rd_wr_lt _ _ _ _ _ (by decide)⟩
  rw [Dev.rd_wr_ne _ _ _ _ _ _ _ _ (by decide), flood_rd _ _ _ _ (by decide)]
  exact Dev.rd_wr_lt _ _ _ _ _ hgen

theorem linkChanged_links (d : Dev) (addr port : Nat) (up : Bool) : ∀ l ∈ (linkChanged d addr port up).chain.links,
    (l.a = addr ∧ l.pa = port ∨ l.b = addr ∧ l.pb = port) → l.up = up := by
  have hset : ∀ l ∈ listMapIf (fun l : ChainLink => (l.a == addr && l.pa == port) || (l.b == addr && l.pb == port))
      (fun l => { l with up := up }) d.chain.links, (l.a = addr ∧ l.pa = port ∨ l.b = addr ∧ l.pb = port) → l.up = up := by
    intro l hl hhit
    obtain ⟨k, _, rfl⟩ := List.mem_map.1 hl
    split at hhit
    next hthis => rw [if_pos hthis]
    next hmiss => exact absurd (by simpa using hhit) hmiss
  have hlinks : (linkChanged d addr port up).chain.links = listMapIf (fun l : ChainLink => (l.a == addr && l.pa == port) ||
      (l.b == addr && l.pb == port)) (fun l => { l with up := up }) d.chain.links := by
    rw [linkChanged]
    split
    · rfl
    · have hrefresh (e : Dev) : (refreshNodes e).chain.links = e.chain.links :=
        links_of_lkeep (lkeep_refreshNodes (ft := refreshNodesChainF) (by decide) e) (by decide)
      dsimp only
      split
      · refine (forEach_keeps (p := fun e => e.chain.links) (fun e n _ => ?_) _).trans (hrefresh _)
        exact links_of_lkeep (lkeep_writeTable (ft := originateChainF) (by decide) e n.addr) (by decide)
      · exact hrefresh _
  rw [hlinks]
  exact hset

theorem notice_brings (s : State) (p : LmlId) (addr : Nat) (port : Fin 4) (up : Bool)
    (hnew : tabGet 0 s.dev.chain.told (addr * 4 + port.val) ≠ 1 + up.toNat) :
    Brings (.notice p addr port up) s fun d => tabGet 0 d.chain.told (addr * 4 + port.val) = 1 + up.toNat ∧
      (∀ l ∈ d.chain.links, (l.a = addr ∧ l.pa = port.val ∨ l.b = addr ∧ l.pb = port.val) → l.up = up) := by
  refine brings_of_run (execNotice.eq_def p addr port up s) ?_
  rw [noticeHeard, if_neg hnew]
  have hroll (e : Dev) : lkeep announceSelfChainF (if up = true then rollStart e else e) = lkeep announceSelfChainF e :=
    lkeep_ite_of (lkeep_rollStart (by decide) e) rfl
  refine ⟨?_, ?_⟩
  · rw [told_of_lkeep (hroll _) (by decide), told_of_lkeep (lkeep_linkChanged (ft := linkChangedChainF) (by decide) _ _ _ _) (by decide),
      told_of_lkeep (lkeep_flooded _ _ _ _) (by decide), Dev.updChain_chain, tabGet_tabPut, if_pos rfl]
  · rw [links_of_lkeep (hroll _) (by decide)]
    exact linkChanged_links _ addr port.val up

theorem route_brings (s : State) (p : LmlId) (first : Nat) (w : BitVec 64) (hfirst : first < 64) :
    Brings (.route p first [w]) s fun d => d.rd F.lmlRt_pfx 0 first = w.toNat % 2 ^ 24 ∧
      d.rd F.lmlRt_len 0 first = w.toNat / 2 ^ 24 % 32 ∧ d.rd F.lmlRt_valid 0 first = w.toNat / 2 ^ 29 % 2 ∧
      d.rd F.lmlRt_primary 0 first = w.toNat / 2 ^ 30 % 4 ∧ d.rd F.lmlRt_alternate 0 first = w.toNat / 2 ^ 32 % 4 ∧
      d.rd F.lmlRt_alt_valid 0 first = w.toNat / 2 ^ 34 % 2 := by
  refine brings_of_run (execRoute.eq_def p first [w] s) ?_
  have hrun : routeHeard first ([w].map (·.toNat)) s.dev = writeRoute s.dev first w.toNat := if_pos hfirst
  rw [hrun, writeRoute]
  refine ⟨?_, ?_, ?_, ?_, ?_, Dev.rd_wr_same ..⟩
  · rw [Dev.rd_wr_ne _ _ _ _ _ _ _ _ (by decide), Dev.rd_wr_ne _ _ _ _ _ _ _ _ (by decide), Dev.rd_wr_ne _ _ _ _ _ _ _ _ (by decide),
      Dev.rd_wr_ne _ _ _ _ _ _ _ _ (by decide), Dev.rd_wr_ne _ _ _ _ _ _ _ _ (by decide)]
    exact Dev.rd_wr_same ..
  · rw [Dev.rd_wr_ne _ _ _ _ _ _ _ _ (by decide), Dev.rd_wr_ne _ _ _ _ _ _ _ _ (by decide), Dev.rd_wr_ne _ _ _ _ _ _ _ _ (by decide),
      Dev.rd_wr_ne _ _ _ _ _ _ _ _ (by decide)]
    exact Dev.rd_wr_same ..
  · rw [Dev.rd_wr_ne _ _ _ _ _ _ _ _ (by decide), Dev.rd_wr_ne _ _ _ _ _ _ _ _ (by decide), Dev.rd_wr_ne _ _ _ _ _ _ _ _ (by decide)]
    exact Dev.rd_wr_same ..
  · rw [Dev.rd_wr_ne _ _ _ _ _ _ _ _ (by decide), Dev.rd_wr_ne _ _ _ _ _ _ _ _ (by decide)]
    exact Dev.rd_wr_same ..
  · rw [Dev.rd_wr_ne _ _ _ _ _ _ _ _ (by decide)]
    exact Dev.rd_wr_same ..

/-- Settles O48: each frame of Roll Call by the one record it changes, which the frames sent on leave as it is; what a report says of a
node outlives the new count of its ways. -/
theorem rollCallRowsComplete : Obligations.RollCallRowsComplete := by
  unfold Obligations.RollCallRowsComplete
  exact ⟨start_brings, announce_brings, timeout_follows, timeout_leads, probe_relays, probe_answers, report_relays, report_lists,
    assign_brings, done_brings, notice_brings, route_brings⟩

end Sys2Proof.Machine
end

section
/-! PROOF. SPDM and management messages. -/
namespace Sys2Proof.Machine

/-! ### The device that hears a message -/

/-- The device that an endpoint's message finds: on the management bus counted and awake. -/
def messageHeard (e : Nat) (d : Dev) : Dev := if e < 2 then wakeCs2 (d.addSat F.mgtStat_mctp_rx 1) else d

theorem spdmRow_runs {e : Nat} {d : Dev} (h : endpointOn d e = true) (g : Dev → Dev) : spdmRow e g d = g (messageHeard e d) := by
  rw [spdmRow, if_neg (by rw [h]; decide), messageHeard]
  split
  · rfl
  · rfl

/-- What hearing a message leaves of the registers. -/
def heardFoot : Nat := footOf [] [F.mgtStat_mctp_rx] ||| wakeCs2Foot

theorem keep_messageHeard (e : Nat) (d : Dev) : keep heardFoot (messageHeard e d) = keep heardFoot d := by
  simp +decide only [messageHeard, ↓keep_ite, ↓keep_wakeCs2, ↓keep_addSat, ite_self]

section
variable (e : Nat) (d : Dev)

theorem messageHeard_sec : (messageHeard e d).sec = d.sec := sec_of_keep (keep_messageHeard e d) (by decide)

theorem messageHeard_spdmEnd : (messageHeard e d).spdmEnd e = d.spdmEnd e := by rw [Dev.spdmEnd, messageHeard_sec, Dev.spdmEnd]

theorem messageHeard_rd {f : Fld} (hf : heardFoot.testBit (32 + f.id) = false) (i j : Nat) : (messageHeard e d).rd f i j = d.rd f i j :=
  rd_of_keep (keep_messageHeard e d) hf i j

theorem messageHeard_slotChain : slotChain (messageHeard e d) = slotChain d := by
  simp only [slotChain, ladderSecret, messageHeard_sec]

theorem messageHeard_measurement (m : List Host.Cell) (i : Nat) : measurement (messageHeard e d) m i = measurement d m i := by
  have hfw : (messageHeard e d).fw = d.fw := fw_of_keep (keep_messageHeard e d) (by decide)
  have hstruct : (messageHeard e d).struct = d.struct := struct_of_keep (keep_messageHeard e d) (by decide)
  unfold measurement
  split
  · rfl
  · rw [hfw]
  · rw [messageHeard_rd e d (by decide), hstruct]
  · rw [messageHeard_rd e d (by decide), messageHeard_rd e d (by decide), messageHeard_rd e d (by decide), messageHeard_rd e d (by decide),
      messageHeard_rd e d (by decide)]
  · rw [messageHeard_sec]
  · rw [messageHeard_sec]
  · rw [ladderSecret, messageHeard_sec, ladderSecret]

end

theorem measurement_draws (d : Dev) (n : Nat) (m : List Host.Cell) (i : Nat) : measurement { d with draws := n } m i = measurement d m i := rfl

/-! ### Requests of an endpoint -/

section
variable {s : State} {e : Fin 7} (hon : endpointOn s.dev e.val = true)
include hon

theorem getVersion_gives : Gives (.getVersion e) s
    (spdmSend ((messageHeard e.val s.dev).updSpdm e.val fun _ => { stage := 1 }) e.val 0x04 [0x12]) :=
  gives_of_run (execGetVersion.eq_def e s) ((spdmRow_runs hon _).trans rfl)

theorem getCapabilities_gives (hstage : (s.dev.spdmEnd e.val).stage = 1) : Gives (.getCapabilities e) s
    (spdmSend ((messageHeard e.val s.dev).updSpdm e.val fun x => { x with stage := 2 }) e.val 0x61 [spdmCaps]) := by
  refine gives_of_run (execGetCapabilities.eq_def e s) ((spdmRow_runs hon _).trans ?_)
  rw [getCapabilities, messageHeard_spdmEnd, if_neg (not_not.2 hstage)]

theorem negotiate_gives (hstage : (s.dev.spdmEnd e.val).stage = 2) : Gives (.negotiateAlgorithms e true) s
    (spdmSend ((messageHeard e.val s.dev).updSpdm e.val fun x => { x with stage := 3 }) e.val 0x63 []) := by
  refine gives_of_run (execNegotiateAlgorithms.eq_def e true s) ((spdmRow_runs hon _).trans ?_)
  rw [negotiate, messageHeard_spdmEnd, if_neg (not_not.2 hstage), if_neg (by decide)]

section
variable (hstage : 3 ≤ (s.dev.spdmEnd e.val).stage)
include hstage

omit hon in
theorem negotiated_runs (g : Dev → Dev) : negotiated e.val g (messageHeard e.val s.dev) = g (messageHeard e.val s.dev) := by
  rw [negotiated, messageHeard_spdmEnd, if_neg (Nat.not_lt.2 hstage)]

theorem getDigests_gives : Gives (.getDigests e) s
    (spdmSend (messageHeard e.val s.dev) e.val 0x01 [1, Config.sha384 (toBytes (slotChain s.dev) 4096)]) := by
  refine gives_of_run (execGetDigests.eq_def e s) ((spdmRow_runs hon _).trans ?_)
  rw [getDigests, negotiated_runs hstage, messageHeard_slotChain]

theorem getCertificate_gives : Gives (.getCertificate e 0) s (spdmSend (messageHeard e.val s.dev) e.val 0x02 [0, slotChain s.dev]) := by
  refine gives_of_run (execGetCertificate.eq_def e 0 s) ((spdmRow_runs hon _).trans ?_)
  rw [getCertificate, negotiated_runs hstage, if_pos rfl, messageHeard_slotChain]

theorem challenge_gives (nonce : Nat) : Gives (.challenge e 0 nonce) s
    (spdmSend { messageHeard e.val s.dev with draws := (messageHeard e.val s.dev).draws + 2 } e.val 0x03
      [0, nonce, Config.freeValue (messageHeard e.val s.dev).draws, Config.freeValue ((messageHeard e.val s.dev).draws + 1)]) := by
  refine gives_of_run (execChallenge.eq_def e 0 nonce s) ((spdmRow_runs hon _).trans ?_)
  rw [challenge, negotiated_runs hstage, if_neg (by decide)]
  rfl

theorem getMeasurements_gives (i : Nat) (hlo : 1 ≤ i) (hhi : i ≤ 7) : Gives (.getMeasurements e i) s
    (spdmSend { messageHeard e.val s.dev with draws := (messageHeard e.val s.dev).draws + 1 } e.val 0x60
      [1, i, measurement s.dev s.mem i, Config.freeValue (messageHeard e.val s.dev).draws]) := by
  refine gives_of_run (execGetMeasurements.eq_def e i s) ((spdmRow_runs hon _).trans ?_)
  rw [getMeasurements, negotiated_runs hstage, if_neg (by omega), if_neg (show ¬ i = 0 by omega), if_neg (show ¬ i = 255 by omega),
    ← messageHeard_measurement e.val s.dev s.mem i]
  dsimp only
  rw [if_neg (show ¬ i = 0 by omega)]
  rfl

theorem keyExchange_gives (hnone : (s.dev.spdmEnd e.val).session = none) (hrole : e.val < 3 ∨ s.dev.rd F.secLc_state ≠ 5) (n : Nat) :
    Gives (.keyExchange e n) s (spdmSend ({ messageHeard e.val s.dev with draws := (messageHeard e.val s.dev).draws + 2 }.updSpdm e.val
      fun x => { x with session := some n, open_ := false }) e.val 0x64
        [n, Config.freeValue (messageHeard e.val s.dev).draws, Config.freeValue ((messageHeard e.val s.dev).draws + 1)]) := by
  refine gives_of_run (execKeyExchange.eq_def e n s) ((spdmRow_runs hon _).trans ?_)
  rw [keyExchange, negotiated_runs hstage, messageHeard_spdmEnd, hnone, if_neg (by decide), messageHeard_rd e.val s.dev (by decide),
    if_neg (by omega)]
  rfl

end

section
variable (hsession : (s.dev.spdmEnd e.val).session.isSome = true)
include hsession

theorem finish_gives (hopen : (s.dev.spdmEnd e.val).open_ = false) : Gives (.finish e true) s
    (spdmSend ((messageHeard e.val s.dev).updSpdm e.val fun x => { x with open_ := true }) e.val 0x65 []) := by
  refine gives_of_run (execFinish.eq_def e true s) ((spdmRow_runs hon _).trans ?_)
  rw [finishSession, messageHeard_spdmEnd, if_neg (by rw [hopen, Option.isNone_eq_false_iff.2 hsession]; decide), if_neg (by decide)]

omit hon in
theorem inSecure_runs (hopen : (s.dev.spdmEnd e.val).open_ = true) (g : Dev → Dev) :
    inSecure e.val g (messageHeard e.val s.dev) = g (messageHeard e.val s.dev) := by
  rw [inSecure, messageHeard_spdmEnd, hsession, hopen, if_pos (by decide)]

theorem session_gives (hopen : (s.dev.spdmEnd e.val).open_ = true) :
    Gives (.heartbeat e) s (spdmSend (messageHeard e.val s.dev) e.val 0x68 []) ∧
    Gives (.endSession e) s (spdmSend ((messageHeard e.val s.dev).updSpdm e.val fun x => { x with session := none, open_ := false }) e.val 0x6C []) ∧
    ∀ op, 1 ≤ op → op ≤ 3 → Gives (.keyUpdate e op) s (spdmSend (if 3 ≤ e.val ∧ op ≠ 3 then
      (messageHeard e.val s.dev).updLport (e.val - 3) (fun l => { l with keyGen := l.keyGen + 1 }) else messageHeard e.val s.dev) e.val 0x69 [op]) := by
  refine ⟨gives_of_run (execHeartbeat.eq_def e s) ((spdmRow_runs hon _).trans ?_),
    gives_of_run (execEndSession.eq_def e s) ((spdmRow_runs hon _).trans ?_),
    fun op hlo hhi => gives_of_run (execKeyUpdate.eq_def e op s) ((spdmRow_runs hon _).trans ?_)⟩
  · rw [heartbeat, inSecure_runs hsession hopen]
  · rw [endSession, inSecure_runs hsession hopen]
  · rw [keyUpdate, inSecure_runs hsession hopen, if_neg (by omega)]

end

end

/-! ### The link and the management bus -/

theorem spdmFrame_gives (s : State) (p : LmlId) (msg : Nat) (hwait : s.dev.rd F.lmlStat_state p.val = 2) (hmsg : msg % 256 = 0x84) :
    Gives (.spdm p msg) s (sendLocal (s.dev.updSpdm (3 + p.val) fun _ => { stage := 1 }) p.val
      (mkFrame s.dev linkLocal ftSpdm 0 false 0 65535 [] [0x04, 0x12] 1)) := by
  refine gives_of_run (execSpdm.eq_def p msg s) ?_
  have hon : endpointOn s.dev (3 + p.val) = true := by
    rw [show 3 + p.val = p.val + 3 from Nat.add_comm _ _]
    simp [endpointOn, hwait]
  rw [spdmRow_runs hon, messageHeard, if_neg (by omega), spdmMessage, hmsg]
  change spdmSend _ _ _ _ = _
  rw [spdmSend, if_neg (by omega), Nat.add_sub_cancel_left]
  rfl

theorem mi_brings (s : State) (i3c : Bool) (hgo : mgtStopped s.dev = false) (hbus : s.dev.flag F.mgtCfg_i3c_en = i3c) :
    Brings (.nvmeMiMessage i3c true) s fun d => d.out = .mi (Config.freeValue s.dev.draws) :: s.dev.out ∧ d.draws = s.dev.draws + 1 ∧
      d.rd F.mgtStat_mctp_rx = satTo F.mgtStat_mctp_rx.w (s.dev.rd F.mgtStat_mctp_rx + 1) := by
  refine brings_of_run (execNvmeMiMessage.eq_def i3c true s) ?_
  have hkeep := keep_wakeCs2 (ft := wakeCs2Foot) (by decide) (s.dev.addSat F.mgtStat_mctp_rx 1)
  have hout : (wakeCs2 (s.dev.addSat F.mgtStat_mctp_rx 1)).out = s.dev.out := (out_of_keep hkeep (by decide)).trans rfl
  have hdraws : (wakeCs2 (s.dev.addSat F.mgtStat_mctp_rx 1)).draws = s.dev.draws := (draws_of_keep hkeep (by decide)).trans rfl
  rw [miMessage, if_neg (by simp [hgo, hbus]), if_neg (by decide)]
  refine ⟨?_, ?_, ?_⟩
  · change Emit.mi (Config.freeValue (wakeCs2 (s.dev.addSat F.mgtStat_mctp_rx 1)).draws) :: (wakeCs2 (s.dev.addSat F.mgtStat_mctp_rx 1)).out = _
    rw [hdraws, hout]
  · exact congrArg (· + 1) hdraws
  · exact (rd_of_keep hkeep (by decide) 0 0).trans (Dev.rd_addSat_same ..)

/-- Settles O49: each request by its handler on the device that hears it, which for the management bus is counted and awake and of
which attestation reads nothing that this changes. -/
theorem attestationRowsComplete : Obligations.AttestationRowsComplete := by
  unfold Obligations.AttestationRowsComplete
  refine ⟨fun s e w st hon hw hst => ?_, spdmFrame_gives, mi_brings⟩
  subst hw hst
  exact ⟨getVersion_gives hon, getCapabilities_gives hon, negotiate_gives hon, getDigests_gives hon, getCertificate_gives hon,
    challenge_gives hon, getMeasurements_gives hon, keyExchange_gives hon, finish_gives hon, session_gives hon⟩

end Sys2Proof.Machine
end

section
/-! PROOF. Footprints within the Report Card's part: which fields of it an operation may change. -/
namespace Sys2Proof.Machine

/-- The fields of the card part. -/
inductive VField where
  | cur | frz | ckDue | slots | ckNext | minute | minuteTicks | dump
  | dumpKey | told | seq | ceMark | frozenAt | endedFrozen | stopWrote

/-- A footprint within the card part. -/
def cardFoot (fs : List VField) : Nat := fs.foldl (fun n f => n ||| 1 <<< f.ctorIdx) 0

/-- The card part with the fields of a footprint blanked out. -/
def vmask (m : Nat) (h : CardState) : CardState where
  cur := if m.testBit VField.cur.ctorIdx then {} else h.cur
  frz := if m.testBit VField.frz.ctorIdx then {} else h.frz
  ckDue := if m.testBit VField.ckDue.ctorIdx then false else h.ckDue
  slots := if m.testBit VField.slots.ctorIdx then [] else h.slots
  ckNext := if m.testBit VField.ckNext.ctorIdx then 0 else h.ckNext
  minute := if m.testBit VField.minute.ctorIdx then [] else h.minute
  minuteTicks := if m.testBit VField.minuteTicks.ctorIdx then 0 else h.minuteTicks
  dump := if m.testBit VField.dump.ctorIdx then none else h.dump
  dumpKey := if m.testBit VField.dumpKey.ctorIdx then none else h.dumpKey
  told := if m.testBit VField.told.ctorIdx then true else h.told
  seq := if m.testBit VField.seq.ctorIdx then 0 else h.seq
  ceMark := if m.testBit VField.ceMark.ctorIdx then 0 else h.ceMark
  frozenAt := if m.testBit VField.frozenAt.ctorIdx then 0 else h.frozenAt
  endedFrozen := if m.testBit VField.endedFrozen.ctorIdx then false else h.endedFrozen
  stopWrote := if m.testBit VField.stopWrote.ctorIdx then false else h.stopWrote

def vkeep (m : Nat) (d : Dev) : CardState := vmask m d.card

theorem vmask_vmask {a m : Nat} (hm : inFoot a m = true) (h : CardState) : vmask m (vmask a h) = vmask m h := by
  have hpart (k : Nat) {α : Type} (x y : α) : (if m.testBit k then x else if a.testBit k then x else y) =
      if m.testBit k then x else y := ite_ite_of_imp (testBit_of_inFoot hm) x y
  simp only [vmask, hpart]

/-- An operation keeps what a wider footprint leaves of the card part. -/
theorem vkeep_mono {a m : Nat} {d e : Dev} (hm : inFoot a m = true) (h : vkeep a e = vkeep a d) : vkeep m e = vkeep m d := by
  rw [vkeep, vkeep, ← vmask_vmask hm, ← vkeep, h, vkeep, vmask_vmask hm]

theorem vkeep_of_card {d e : Dev} (m : Nat) (h : e.card = d.card) : vkeep m e = vkeep m d := congrArg (vmask m) h

theorem vkeep_of_keep {a : Nat} {d e : Dev} (h : keep a e = keep a d) (hp : a.testBit Part.card.ctorIdx = false) (m : Nat) :
    vkeep m e = vkeep m d := vkeep_of_card m (card_of_keep h hp)

section
variable {m : Nat} (d : Dev)

theorem vkeep_updCard (g : CardState → CardState) (h : ∀ s, vmask m (g s) = vmask m s) : vkeep m (d.updCard g) = vkeep m d := h d.card

theorem vkeep_ite (c : Prop) [Decidable c] (e : Dev) : vkeep m (if c then d else e) = if c then vkeep m d else vkeep m e :=
  apply_ite (vkeep m) c d e

theorem vkeep_forEach {α : Type} (l : List α) (g : Dev → α → Dev) (h : ∀ e x, vkeep m (g e x) = vkeep m e) :
    vkeep m (forEach l d g) = vkeep m d := forEach_keeps (p := vkeep m) (fun e x _ => h e x) d

theorem vkeep_wr (f : Fld) (v i j : Nat) : vkeep m (d.wr f v i j) = vkeep m d := vkeep_of_card m rfl
theorem vkeep_setFlag (f : Fld) (b : Bool) (i j : Nat) : vkeep m (d.setFlag f b i j) = vkeep m d := vkeep_of_card m rfl
theorem vkeep_addSat (f : Fld) (n i j : Nat) : vkeep m (d.addSat f n i j) = vkeep m d := vkeep_of_card m rfl
theorem vkeep_addWrap (f : Fld) (n i j : Nat) : vkeep m (d.addWrap f n i j) = vkeep m d := vkeep_of_card m rfl
theorem vkeep_sub (f : Fld) (n i j : Nat) : vkeep m (d.sub f n i j) = vkeep m d := vkeep_of_card m rfl
theorem vkeep_setBit (f : Fld) (b : Nat) (v : Bool) (i j : Nat) : vkeep m (d.setBit f b v i j) = vkeep m d := vkeep_of_card m rfl
theorem vkeep_wrInt (f : Fld) (v : Int) (i j : Nat) : vkeep m (d.wrInt f v i j) = vkeep m d := vkeep_of_card m rfl
theorem vkeep_emit (e : Emit) : vkeep m (d.emit e) = vkeep m d := vkeep_of_card m rfl
theorem vkeep_draw : vkeep m d.draw.2 = vkeep m d := vkeep_of_card m rfl
theorem vkeep_updSec (g : SecState → SecState) : vkeep m (d.updSec g) = vkeep m d := vkeep_of_card m rfl
theorem vkeep_updCipher (g : CipherState → CipherState) : vkeep m (d.updCipher g) = vkeep m d := vkeep_of_card m rfl
theorem vkeep_updReset (g : ResetState → ResetState) : vkeep m (d.updReset g) = vkeep m d := vkeep_of_card m rfl
theorem vkeep_updPower (g : PowerState → PowerState) : vkeep m (d.updPower g) = vkeep m d := vkeep_of_card m rfl
theorem vkeep_updStruct (g : StructState → StructState) : vkeep m (d.updStruct g) = vkeep m d := vkeep_of_card m rfl
theorem vkeep_updComp (g : CompState → CompState) : vkeep m (d.updComp g) = vkeep m d := vkeep_of_card m rfl
theorem vkeep_updMap (g : MapState → MapState) : vkeep m (d.updMap g) = vkeep m d := vkeep_of_card m rfl
theorem vkeep_updChain (g : ChainState → ChainState) : vkeep m (d.updChain g) = vkeep m d := vkeep_of_card m rfl
theorem vkeep_updXb (g : XbState → XbState) : vkeep m (d.updXb g) = vkeep m d := vkeep_of_card m rfl
theorem vkeep_updTherm (g : ThermState → ThermState) : vkeep m (d.updTherm g) = vkeep m d := vkeep_of_card m rfl
theorem vkeep_updEcc (g : EccState → EccState) : vkeep m (d.updEcc g) = vkeep m d := vkeep_of_card m rfl
theorem vkeep_part_struct (x : StructState) : vkeep m { d with struct := x } = vkeep m d := vkeep_of_card m rfl
theorem vkeep_part_cipher (x : CipherState) : vkeep m { d with cipher := x } = vkeep m d := vkeep_of_card m rfl
theorem vkeep_part_comp (x : CompState) : vkeep m { d with comp := x } = vkeep m d := vkeep_of_card m rfl
theorem vkeep_part_reset (x : ResetState) : vkeep m { d with reset := x } = vkeep m d := vkeep_of_card m rfl
theorem vkeep_part_sec (x : SecState) : vkeep m { d with sec := x } = vkeep m d := vkeep_of_card m rfl
theorem vkeep_part_fw (x : FwState) : vkeep m { d with fw := x } = vkeep m d := vkeep_of_card m rfl
theorem vkeep_part_chain (x : ChainState) : vkeep m { d with chain := x } = vkeep m d := vkeep_of_card m rfl
theorem vkeep_part_xb (x : XbState) : vkeep m { d with xb := x } = vkeep m d := vkeep_of_card m rfl
theorem vkeep_part_map (x : MapState) : vkeep m { d with map := x } = vkeep m d := vkeep_of_card m rfl
theorem vkeep_part_power (x : PowerState) : vkeep m { d with power := x } = vkeep m d := vkeep_of_card m rfl
theorem vkeep_part_ecc (x : EccState) : vkeep m { d with ecc := x } = vkeep m d := vkeep_of_card m rfl
theorem vkeep_updSpin (n : Nat) (g : Spin → Spin) : vkeep m (d.updSpin n g) = vkeep m d := vkeep_of_card m rfl

theorem vkeep_updHost (g : HostState → HostState) : vkeep m (d.updHost g) = vkeep m d := vkeep_of_card m rfl
theorem vkeep_part_host (x : HostState) : vkeep m { d with host := x } = vkeep m d := vkeep_of_card m rfl

end

/-! ### What a footprint says of the fields outside it -/

section
variable {m : Nat} {d e : Dev} (h : vkeep m e = vkeep m d)
include h

theorem cur_of_vkeep (hf : m.testBit VField.cur.ctorIdx = false) : e.card.cur = d.card.cur := by
  simpa [vkeep, vmask, hf] using congrArg CardState.cur h
theorem frz_of_vkeep (hf : m.testBit VField.frz.ctorIdx = false) : e.card.frz = d.card.frz := by
  simpa [vkeep, vmask, hf] using congrArg CardState.frz h
theorem ckDue_of_vkeep (hf : m.testBit VField.ckDue.ctorIdx = false) : e.card.ckDue = d.card.ckDue := by
  simpa [vkeep, vmask, hf] using congrArg CardState.ckDue h
theorem slots_of_vkeep (hf : m.testBit VField.slots.ctorIdx = false) : e.card.slots = d.card.slots := by
  simpa [vkeep, vmask, hf] using congrArg CardState.slots h
theorem ckNext_of_vkeep (hf : m.testBit VField.ckNext.ctorIdx = false) : e.card.ckNext = d.card.ckNext := by
  simpa [vkeep, vmask, hf] using congrArg CardState.ckNext h
theorem minute_of_vkeep (hf : m.testBit VField.minute.ctorIdx = false) : e.card.minute = d.card.minute := by
  simpa [vkeep, vmask, hf] using congrArg CardState.minute h
theorem minuteTicks_of_vkeep (hf : m.testBit VField.minuteTicks.ctorIdx = false) : e.card.minuteTicks = d.card.minuteTicks := by
  simpa [vkeep, vmask, hf] using congrArg CardState.minuteTicks h
theorem dump_of_vkeep (hf : m.testBit VField.dump.ctorIdx = false) : e.card.dump = d.card.dump := by
  simpa [vkeep, vmask, hf] using congrArg CardState.dump h
theorem dumpKey_of_vkeep (hf : m.testBit VField.dumpKey.ctorIdx = false) : e.card.dumpKey = d.card.dumpKey := by
  simpa [vkeep, vmask, hf] using congrArg CardState.dumpKey h
theorem told_of_vkeep (hf : m.testBit VField.told.ctorIdx = false) : e.card.told = d.card.told := by
  simpa [vkeep, vmask, hf] using congrArg CardState.told h
theorem seq_of_vkeep (hf : m.testBit VField.seq.ctorIdx = false) : e.card.seq = d.card.seq := by
  simpa [vkeep, vmask, hf] using congrArg CardState.seq h
theorem ceMark_of_vkeep (hf : m.testBit VField.ceMark.ctorIdx = false) : e.card.ceMark = d.card.ceMark := by
  simpa [vkeep, vmask, hf] using congrArg CardState.ceMark h
theorem frozenAt_of_vkeep (hf : m.testBit VField.frozenAt.ctorIdx = false) : e.card.frozenAt = d.card.frozenAt := by
  simpa [vkeep, vmask, hf] using congrArg CardState.frozenAt h
theorem endedFrozen_of_vkeep (hf : m.testBit VField.endedFrozen.ctorIdx = false) : e.card.endedFrozen = d.card.endedFrozen := by
  simpa [vkeep, vmask, hf] using congrArg CardState.endedFrozen h
theorem stopWrote_of_vkeep (hf : m.testBit VField.stopWrote.ctorIdx = false) : e.card.stopWrote = d.card.stopWrote := by
  simpa [vkeep, vmask, hf] using congrArg CardState.stopWrote h

end

end Sys2Proof.Machine
end

section
/-! PROOF. What a stop leaves of the Report Card's part. -/
namespace Sys2Proof.Machine

theorem vkeep_stopFetch {ft : Nat} (d : Dev) (r : Nat) : vkeep ft (stopFetch d r) = vkeep ft d :=
  vkeep_of_keep (keep_stopFetch (ft := stopFetchFoot) (by decide) d r) (by decide) ft

def putSlotCardF : Nat := cardFoot [.slots]
theorem vkeep_putSlot {ft : Nat} (hft : inFoot putSlotCardF ft = true) (d : Dev) (area slot : Nat) (b : List Byte) : vkeep ft
    (putSlot d area slot b) = vkeep ft d :=
  vkeep_mono hft (by simp +decide only [putSlot, ↓vkeep_updCard, vmask, if_true, implies_true])

theorem vkeep_programSlot {ft : Nat} (hft : inFoot putSlotCardF ft = true) (d : Dev) (area slot : Nat) (b : List Byte) : vkeep
    ft (programSlot d area slot b) = vkeep ft d :=
  vkeep_mono hft (by simp +decide only [programSlot, ↓vkeep_addSat, ↓vkeep_draw, ↓vkeep_putSlot, ↓vkeep_ite, ite_self])

def writeCheckpointCardF : Nat := cardFoot [.ckDue, .slots, .ckNext]
theorem vkeep_writeCheckpoint {ft : Nat} (hft : inFoot writeCheckpointCardF ft = true) (d : Dev) : vkeep ft (writeCheckpoint d)
    = vkeep ft d :=
  vkeep_mono hft (by simp +decide only [writeCheckpoint, ↓vkeep_updCard, vmask, if_true, implies_true, ↓vkeep_programSlot])

theorem vkeep_writeEpoch {ft : Nat} (hft : inFoot putSlotCardF ft = true) (d : Dev) (a : Acc) (endS : Nat) : vkeep ft
    (writeEpoch d a endS) = vkeep ft d :=
  vkeep_mono hft (by simp +decide only [writeEpoch, ↓vkeep_programSlot, ↓vkeep_ite, ite_self])

def closeEpochCardF : Nat := cardFoot [.cur, .slots]
theorem vkeep_closeEpoch {ft : Nat} (hft : inFoot closeEpochCardF ft = true) (d : Dev) (late : Bool) : vkeep ft (closeEpoch d
    late) = vkeep ft d :=
  vkeep_mono hft (by simp +decide only [closeEpoch, ↓vkeep_wr, ↓vkeep_updCard, vmask, if_true, implies_true, ↓vkeep_writeEpoch])

def thawCardCardF : Nat := cardFoot [.cur, .frz, .ckDue, .slots, .ckNext, .endedFrozen]
theorem vkeep_thawCard {ft : Nat} (hft : inFoot thawCardCardF ft = true) (d : Dev) (auto : Bool) : vkeep ft (thawCard d auto) =
    vkeep ft d :=
  vkeep_mono hft (by simp +decide only [thawCard, ↓vkeep_setFlag, ↓vkeep_updCard, vmask, if_true, implies_true, ↓vkeep_writeCheckpoint, ↓vkeep_closeEpoch, ↓vkeep_ite,
    ite_self])

def stopCheckpointCardF : Nat := cardFoot [.cur, .frz, .ckDue, .slots, .ckNext, .endedFrozen, .stopWrote]
theorem vkeep_stopCheckpoint {ft : Nat} (hft : inFoot stopCheckpointCardF ft = true) (d : Dev) : vkeep ft (stopCheckpoint d) =
    vkeep ft d :=
  vkeep_mono hft (by simp +decide only [stopCheckpoint, ↓vkeep_updCard, vmask, if_true, implies_true, ↓vkeep_writeCheckpoint, ↓vkeep_thawCard])

theorem vkeep_dropInFlight {ft : Nat} (d : Dev) : vkeep ft (dropInFlight d) = vkeep ft d :=
  vkeep_of_keep (keep_dropInFlight (ft := dropInFlightFoot) (by decide) d) (by decide) ft

theorem vkeep_dropActivation {ft : Nat} (d : Dev) : vkeep ft (dropActivation d) = vkeep ft d :=
  vkeep_of_keep (keep_dropActivation (ft := dropActivationFoot) (by decide) d) (by decide) ft

theorem vkeep_portDown {ft : Nat} (d : Dev) (p cause : Nat) : vkeep ft (portDown d p cause) = vkeep ft d :=
  vkeep_of_keep (keep_portDown (ft := portDownFoot) (by decide) d p cause) (by decide) ft

def updAccCardF : Nat := cardFoot [.cur, .frz]
theorem vkeep_updAcc {ft : Nat} (hft : inFoot updAccCardF ft = true) (d : Dev) (g : Acc → Acc) : vkeep ft (d.updAcc g) = vkeep
    ft d :=
  vkeep_mono hft (by unfold Dev.updAcc; split <;> simp +decide only [↓vkeep_updCard, vmask, if_true, implies_true])

theorem vkeep_cardEpoch {ft : Nat} (hft : inFoot updAccCardF ft = true) (d : Dev) (i n : Nat) : vkeep ft (cardEpoch d i n) =
    vkeep ft d :=
  vkeep_mono hft (by simp +decide only [cardEpoch, ↓vkeep_updAcc])

theorem vkeep_updPort {ft : Nat} (d : Dev) (h : Nat) (g : Port → Port) : vkeep ft (d.updPort h g) = vkeep ft d := vkeep_of_card
    ft rfl

theorem vkeep_hostLinkDown {ft : Nat} (hft : inFoot updAccCardF ft = true) (d : Dev) (h : Nat) : vkeep ft (hostLinkDown d h) =
    vkeep ft d :=
  vkeep_mono hft (by simp +decide only [hostLinkDown, ↓vkeep_cardEpoch, ↓vkeep_updPort, ↓vkeep_ite, ite_self])

theorem vkeep_linksDown {ft : Nat} (hft : inFoot updAccCardF ft = true) (d : Dev) (cause : Nat) : vkeep ft (linksDown d cause) =
    vkeep ft d :=
  vkeep_mono hft (by simp +decide only [linksDown, ↓vkeep_portDown, ↓vkeep_hostLinkDown, ↓vkeep_forEach, implies_true])

theorem vkeep_dropTasks {ft : Nat} (d : Dev) : vkeep ft (dropTasks d) = vkeep ft d :=
  vkeep_of_keep (keep_dropTasks (ft := dropTasksFoot) (by decide) d) (by decide) ft

theorem vkeep_cancelCals {ft : Nat} (d : Dev) : vkeep ft (cancelCals d) = vkeep ft d :=
  vkeep_of_keep (keep_cancelCals (ft := cancelCalsFoot) (by decide) d) (by decide) ft

theorem vkeep_endLoops {ft : Nat} (d : Dev) : vkeep ft (endLoops d) = vkeep ft d :=
  vkeep_of_keep (keep_endLoops (ft := endLoopsFoot) (by decide) d) (by decide) ft

theorem vkeep_wakeCs2 {ft : Nat} (d : Dev) : vkeep ft (wakeCs2 d) = vkeep ft d :=
  vkeep_of_keep (keep_wakeCs2 (ft := wakeCs2Foot) (by decide) d) (by decide) ft

theorem vkeep_beginStop {ft : Nat} (hft : inFoot stopCheckpointCardF ft = true) (d : Dev) (thermal : Bool) (pm : Option Nat) :
    vkeep ft (beginStop d thermal pm) = vkeep ft d :=
  vkeep_mono hft (by simp +decide only [beginStop, ↓vkeep_stopFetch, ↓vkeep_stopCheckpoint, ↓vkeep_updReset, ↓vkeep_dropInFlight,
    ↓vkeep_dropActivation, ↓vkeep_linksDown, ↓vkeep_dropTasks, ↓vkeep_cancelCals, ↓vkeep_endLoops, ↓vkeep_wakeCs2])

end Sys2Proof.Machine
end

section
/-! PROOF. Post-mortem resets, the watchdog and preamplifier frames. -/
namespace Sys2Proof.Machine

/-! ### Post-mortem resets -/

/-- What a post-mortem reset of an origin leaves, with the dump that it begins with. -/
def PostMortem (b : Dev) (o : Nat) (d : Dev) : Prop :=
  d.reset.stage = 3 ∧ d.reset.pm = some o ∧ (o = 1 → d.card.seq = b.card.seq) ∧
    ∃ x : Dump, d.card.dump = some x ∧ x.seq = b.card.seq + 1 ∧ x.second = b.rd F.evrPos_seconds ∧ x.cause = b.rd F.evrPmCtl_cause

/-- Whether a post-mortem reset of an origin leaves a dump that firmware writes. -/
def wroteDump (o : Nat) (d : Dev) : Bool := o == 0 && d.flag F.evrPmCtl_dump_valid && (dumpRecipient d).isSome

/-- A post-mortem reset of a device that has counted it, with the dump taken before. -/
def dumpedStop (o : Nat) (x : Dump) (wrote : Bool) (d : Dev) : Dev :=
  (beginStop d false (some o)).updCard fun c => { c with dump := some x, seq := if wrote then x.seq else c.seq }

theorem postMortem_runs {d : Dev} (hstop : stopping d = false) (hheld : d.reset.held = false) (hcool : d.reset.waitCool = false) (o : Nat) :
    postMortem o d = dumpedStop o (dumpOf d.draw.2.draw.2 (wroteDump o d) d.draw.1 d.draw.2.draw.1) (wroteDump o d)
      (d.draw.2.draw.2.addSat F.evrPmStat_resets 1) := by
  rw [postMortem, if_neg (by simp [hstop, hheld, hcool])]
  rfl

theorem dumpedStop_begins (o : Nat) (x : Dump) (wrote : Bool) (d : Dev) :
    (dumpedStop o x wrote d).reset.stage = 3 ∧ (dumpedStop o x wrote d).reset.pm = some o ∧ (dumpedStop o x wrote d).card.dump = some x ∧
      (wrote = false → (dumpedStop o x wrote d).card.seq = d.card.seq) := by
  have hpm : (beginStop d false (some o)).reset.pm = some o := by
    rw [beginStop]
    rfl
  have hseq : (beginStop d false (some o)).card.seq = d.card.seq :=
    seq_of_vkeep (vkeep_beginStop (ft := stopCheckpointCardF) (by decide) d false (some o)) (by decide)
  refine ⟨(beginStop_begins d false (some o) 0).1, hpm, rfl, fun hnot => ?_⟩
  rw [dumpedStop, hnot]
  generalize beginStop d false (some o) = e at hseq
  exact hseq

theorem postMortem_begins {d : Dev} (hstop : stopping d = false) (hheld : d.reset.held = false) (hcool : d.reset.waitCool = false) (o : Nat) :
    PostMortem d o (postMortem o d) := by
  rw [postMortem_runs hstop hheld hcool o]
  obtain ⟨hstage, hpm, hdump, hseq⟩ := dumpedStop_begins o (dumpOf d.draw.2.draw.2 (wroteDump o d) d.draw.1 d.draw.2.draw.1) (wroteDump o d)
    (d.draw.2.draw.2.addSat F.evrPmStat_resets 1)
  refine ⟨hstage, hpm, fun ho => ?_, _, hdump, rfl, rfl, rfl⟩
  subst ho
  exact hseq rfl

theorem resets_bring (s : State) (P : Nat → Dev → Prop) (hstop : stopping s.dev = false) (hheld : s.dev.reset.held = false)
    (hcool : s.dev.reset.waitCool = false) (hP : P = PostMortem s.dev) :
    (Brings .postMortemReset s (P 0)) ∧ (s.dev.rd F.evrWdog_timeout_ms ≠ 0 → Brings .watchdogExpiry s (P 1)) := by
  subst hP
  refine ⟨brings_of_run (execPostMortemReset.eq_def s) (postMortem_begins hstop hheld hcool 0),
    fun hon => brings_of_run (execWatchdogExpiry.eq_def s) ?_⟩
  rw [if_neg hon]
  exact postMortem_begins hstop hheld hcool 1

theorem kick_gives (s : State) : Gives .watchdogKick s s.dev := gives_of_run (execWatchdogKick.eq_def s) rfl

/-! ### Preamplifier frames -/

/-- The fields of a raw frame that is asked for. -/
def rawAsked (a : Nat) (rd : Bool) (head addr data : Nat) (d : Dev) : Dev :=
  (((d.wr F.pspRaw_data data a).wr F.pspRaw_addr addr a).wr F.pspRaw_head head a).setFlag F.pspRaw_rd rd a

theorem pspRaw_queues {d : Dev} {a : Nat} (hidle : d.flag F.pspRaw_busy a = false) (rd : Bool) (head addr data : Nat) :
    pspRaw a rd head addr data d = ((rawAsked a rd head addr data d).setFlag F.pspRaw_busy true a).updSeq a
      fun q => { q with raw := some (rd, head % 16, addr % 2048, data % 65536) } := by
  have hidle' : (rawAsked a rd head addr data d).flag F.pspRaw_busy a = false := by
    rw [rawAsked, Dev.flag_setFlag_ne _ _ _ _ _ _ _ _ (by decide), Dev.flag_wr_ne _ _ _ _ _ _ _ _ (by decide),
      Dev.flag_wr_ne _ _ _ _ _ _ _ _ (by decide), Dev.flag_wr_ne _ _ _ _ _ _ _ _ (by decide), hidle]
  rw [pspRaw]
  rw [← rawAsked, hidle', if_neg (by decide)]

theorem rawAsked_reads (a : Nat) (rd : Bool) {head addr data : Nat} (d : Dev) (hhead : head < 16) (haddr : addr < 2048) (hdata : data < 65536) :
    (rawAsked a rd head addr data d).flag F.pspRaw_rd a = rd ∧ (rawAsked a rd head addr data d).rd F.pspRaw_head a = head ∧
      (rawAsked a rd head addr data d).rd F.pspRaw_addr a = addr ∧ (rawAsked a rd head addr data d).rd F.pspRaw_data a = data := by
  have hrd (f : Fld) (hf : F.pspRaw_rd.id ≠ f.id) : (rawAsked a rd head addr data d).rd f a =
      (((d.wr F.pspRaw_data data a).wr F.pspRaw_addr addr a).wr F.pspRaw_head head a).rd f a := Dev.rd_setFlag_ne _ _ _ _ _ _ _ _ hf
  refine ⟨Dev.flag_setFlag _ _ _ _ _ (by decide), ?_, ?_, ?_⟩
  · rw [hrd _ (by decide), Dev.rd_wr_lt _ _ _ _ _ hhead]
  · rw [hrd _ (by decide), Dev.rd_wr_ne _ _ _ _ _ _ _ _ (by decide), Dev.rd_wr_lt _ _ _ _ _ haddr]
  · rw [hrd _ (by decide), Dev.rd_wr_ne _ _ _ _ _ _ _ _ (by decide), Dev.rd_wr_ne _ _ _ _ _ _ _ _ (by decide), Dev.rd_wr_lt _ _ _ _ _ hdata]

theorem rawFrame_brings (s : State) (a : ActId) (r : Bool) (head addr : Nat) (data : BitVec 16) (hidle : s.dev.flag F.pspRaw_busy a.val = false)
    (hhead : head < 16) (haddr : addr < 2048) : Brings (.pspRawFrame a r head addr data) s fun d =>
      d.flag F.pspRaw_busy a.val = true ∧ d.flag F.pspRaw_rd a.val = r ∧ d.rd F.pspRaw_head a.val = head ∧
      d.rd F.pspRaw_addr a.val = addr ∧ d.rd F.pspRaw_data a.val = data.toNat ∧ (d.seq a.val).raw = some (r, head, addr, data.toNat) ∧
      d.out = s.dev.out := by
  refine brings_of_run (execPspRawFrame.eq_def a r head addr data s) ?_
  have hdata : data.toNat < 65536 := data.isLt
  rw [pspRaw_queues hidle, Nat.mod_eq_of_lt hhead, Nat.mod_eq_of_lt haddr, Nat.mod_eq_of_lt hdata]
  obtain ⟨hrd, hhead', haddr', hdata'⟩ := rawAsked_reads a.val r s.dev hhead haddr hdata
  have hbusy (f : Fld) (hf : F.pspRaw_busy.id ≠ f.id) : ((rawAsked a.val r head addr data.toNat s.dev).setFlag F.pspRaw_busy true a.val).rd f a.val =
      (rawAsked a.val r head addr data.toNat s.dev).rd f a.val := Dev.rd_setFlag_ne _ _ _ _ _ _ _ _ hf
  refine ⟨?_, ?_, ?_, ?_, ?_, ?_, rfl⟩
  · rw [Dev.flag, Dev.updSeq_rd, ← Dev.flag]
    exact Dev.flag_setFlag _ _ _ _ _ (by decide)
  · rw [Dev.flag, Dev.updSeq_rd, hbusy _ (by decide), ← Dev.flag, hrd]
  · rw [Dev.updSeq_rd, hbusy _ (by decide), hhead']
  · rw [Dev.updSeq_rd, hbusy _ (by decide), haddr']
  · rw [Dev.updSeq_rd, hbusy _ (by decide), hdata']
  · rw [Dev.updSeq_seq, if_pos rfl]

/-- A slot that a structure declares present is driven. -/
theorem slotDrive_of_present {d : Dev} {n : Nat} (h : d.hdaPresent n = true) : d.slotDrive n = .driven := by
  have hsome : d.struct.sections.isEmpty = false := by
    by_contra hnone
    have hempty : d.struct.sections = [] := List.isEmpty_iff.1 (by simpa using hnone)
    have hzero : d.secField 3 n 0 1 = 0 := by
      rw [Dev.secField, Dev.section, hempty]
      rfl
    rw [Dev.hdaPresent, hzero] at h
    cases h
  rw [Dev.slotDrive, hsome, h]
  rfl

/-- The frame that goes out, on the device whose frame is taken off. -/
def rawSent (a : Nat) (e : Emit) (d : Dev) : Dev :=
  ((d.addSat F.pspStat_frames 1 a).updSeq a fun q => { q with raw := none }).emitSlot (a / 2) e

theorem rawSent_leaves (a : Nat) (e : Emit) (d : Dev) :
    ((rawSent a e d).seq a).raw = none ∧ (d.hdaPresent (a / 2) = true → (rawSent a e d).out = e :: d.out) ∧
      (rawSent a e d).rd F.pspRaw_data a = d.rd F.pspRaw_data a := by
  have hseq : (((d.addSat F.pspStat_frames 1 a).updSeq a fun q => { q with raw := none }).seq a).raw = none := by rw [Dev.updSeq_seq, if_pos rfl]
  have hrd : ((d.addSat F.pspStat_frames 1 a).updSeq a fun q => { q with raw := none }).rd F.pspRaw_data a = d.rd F.pspRaw_data a :=
    Dev.rd_addSat_ne _ _ _ _ _ _ _ _ (by decide)
  refine ⟨?_, fun hpresent => ?_, ?_⟩
  · rw [rawSent, Dev.emitSlot, Dev.onSlot, Dev.when]
    split
    · exact hseq
    · exact hseq
  · rw [rawSent, Dev.emitSlot, onSlot_driven (by exact slotDrive_of_present hpresent)]
    rfl
  · rw [rawSent, Dev.emitSlot, Dev.onSlot, Dev.when]
    split
    · exact hrd
    · exact hrd

theorem rawDone_brings (s : State) (a : ActId) (data : BitVec 16) (r : Bool) (head addr v : Nat)
    (hraw : (s.dev.seq a.val).raw = some (r, head, addr, v)) :
    Brings (.pspFrameDone a data) s fun d => d.flag F.pspRaw_busy a.val = false ∧ (d.seq a.val).raw = none ∧
      (s.dev.hdaPresent (a.val / 2) = true → d.out = .psp a.val r head addr v :: s.dev.out) ∧
      d.rd F.pspRaw_data a.val = if r then data.toNat else s.dev.rd F.pspRaw_data a.val := by
  refine brings_of_run (execPspFrameDone.eq_def a data s) ?_
  obtain ⟨hseq, hout, hdata⟩ := rawSent_leaves a.val (.psp a.val r head addr v) s.dev
  have hrun : pspDone a.val data.toNat s.dev = (if r then (rawSent a.val (.psp a.val r head addr v) s.dev).wr F.pspRaw_data data.toNat a.val
      else rawSent a.val (.psp a.val r head addr v) s.dev).setFlag F.pspRaw_busy false a.val := by
    have hraw' : ((s.dev.addSat F.pspStat_frames 1 a.val).seq a.val).raw = some (r, head, addr, v) := hraw
    rw [pspDone, hraw']
    rfl
  rw [hrun]
  refine ⟨Dev.flag_setFlag _ _ _ _ _ (by decide), ?_, fun hpresent => ?_, (Dev.rd_setFlag_ne _ _ _ _ _ _ _ _ (by decide)).trans ?_⟩
  · cases r
    · exact hseq
    · exact hseq
  · cases r
    · exact hout hpresent
    · exact hout hpresent
  · cases r
    · exact hdata
    · exact Dev.rd_wr_lt _ _ _ _ _ data.isLt

theorem firstPoll_brings (s : State) (a : ActId) (data : BitVec 16) (hnone : (s.dev.seq a.val).raw = none)
    (hfirst : s.dev.rd F.pspStat_frames a.val = 0) :
    Brings (.pspFrameDone a data) s fun d => d.rd F.pspStat_id a.val = data.toNat ∧ d.rd F.pspStat_frames a.val = 1 ∧
      d.out = s.dev.out := by
  refine brings_of_run (execPspFrameDone.eq_def a data s) ?_
  have hnone' : ((s.dev.addSat F.pspStat_frames 1 a.val).seq a.val).raw = none := hnone
  rw [pspDone, hnone', hfirst]
  refine ⟨Dev.rd_wr_lt _ _ _ _ _ data.isLt, ?_, rfl⟩
  refine (Dev.rd_wr_ne _ _ _ _ _ _ _ _ (by decide)).trans ((Dev.rd_addSat_same ..).trans ?_)
  rw [hfirst]
  rfl

/-- Settles O52: a post-mortem reset by the stop that it begins, which leaves the dump's number alone, and preamplifier frames by their
register. -/
theorem postMortemAndFrameRowsComplete : Obligations.PostMortemAndFrameRowsComplete := by
  unfold Obligations.PostMortemAndFrameRowsComplete
  exact ⟨resets_bring, kick_gives, rawFrame_brings, rawDone_brings, firstPoll_brings⟩

end Sys2Proof.Machine
end

section
/-! PROOF. Loop-backs, injection, remapping and memory tests. -/
namespace Sys2Proof.Machine

/-! ### Loop-backs -/

theorem siteDom_lt (site : Fin 39) : siteDom site.val < 23 := by
  revert site
  decide

theorem loopMost_lt (site : Nat) : loopMost site < 8 := by
  unfold loopMost
  split <;> decide

/-- The fields of a loop-back that is taken or ended. -/
def loopSet (site depth arg : Nat) (d : Dev) : Dev := (d.wr F.loop_depth depth site).wr F.loop_arg (loopArg site arg) site

/-- What a loop-back that is taken or ended does at its site. -/
def loopTaken (site depth arg : Nat) (d : Dev) : Dev := loopEffect (loopSet site depth arg d) site (d.rd F.loop_depth site) depth

theorem loopTaken_depth {site depth : Nat} (h : depth < 8) (arg : Nat) (d : Dev) : (loopTaken site depth arg d).rd F.loop_depth site = depth := by
  rw [loopTaken, rd_of_keep (keep_loopEffect (ft := loopEffectFoot) (by decide) ..) (by decide), loopSet,
    Dev.rd_wr_ne _ _ _ _ _ _ _ _ (by decide), Dev.rd_wr_lt _ _ _ _ _ h]

theorem loopSelect_takes {site depth : Nat} {d : Dev} (arg : Nat) (rq : Requester) (hdom : domState d (siteDom site) ≠ 2) (hpos : 0 < depth)
    (hmost : depth ≤ loopMost site) (hauth : loopAuthority d = true) (hguard : loopGuard d rq site depth = true) :
    loopSelect rq site depth arg d = recomputeBound (syncPhase (orVote (loopTaken site depth arg d) 5 (siteDom site))) := by
  have hne : depth ≠ 0 := by omega
  rw [loopSelect, if_neg hdom, if_neg (by omega), if_neg (by simp [hauth, hguard])]
  simp only [if_neg hne]
  rfl

theorem loopSelect_ends {site : Nat} {d : Dev} (arg : Nat) (rq : Requester) (hdom : domState d (siteDom site) ≠ 2) :
    loopSelect rq site 0 arg d = recomputeBound (syncPhase (dropLoopVote (loopTaken site 0 arg d) site)) := by
  rw [loopSelect, if_neg hdom, if_neg (by omega), if_neg (by simp)]
  rfl

/-- A loop-back in force puts the thermal control in its phase TEST. -/
theorem syncPhase_test {d : Dev} (site : Fin 39) (h : d.rd F.loop_depth site.val ≠ 0) : (syncPhase d).rd F.thmStat_phase = 3 := by
  have hany : anyLoop d = true := List.any_eq_true.2 ⟨site.val, List.mem_range.2 site.isLt, by simpa using h⟩
  rw [syncPhase, if_pos (.inr hany)]
  exact Dev.rd_wr_lt _ _ _ _ _ (by decide)

theorem loopback_taken (s : State) (rq : Requester) (site : Fin 39) (depth arg : Nat) (hdom : domState s.dev (siteDom site.val) ≠ 2)
    (hpos : 0 < depth) (hmost : depth ≤ loopMost site.val) (hauth : loopAuthority s.dev = true)
    (hguard : loopGuard s.dev rq site.val depth = true) :
    Brings (.loopbackSelect rq site depth arg) s fun d => d.rd F.loop_depth site.val = depth ∧
      d.bit F.pwrVote_dom (siteDom site.val) 0 5 = true ∧ d.rd F.thmStat_phase = 3 := by
  refine brings_of_run (execLoopbackSelect.eq_def rq site depth arg s) ?_
  rw [loopSelect_takes arg rq hdom hpos hmost hauth hguard]
  have hdepth := loopTaken_depth (site := site.val) (Nat.lt_of_le_of_lt hmost (loopMost_lt site.val)) arg s.dev
  generalize loopTaken site.val depth arg s.dev = e at hdepth
  have hvote : (orVote e 5 (siteDom site.val)).rd F.loop_depth site.val = depth :=
    (Dev.rd_setBit_ne _ _ _ _ _ _ _ _ _ (by decide)).trans hdepth
  have hbound := keep_recomputeBound (ft := recomputeBoundFoot) (by decide) (syncPhase (orVote e 5 (siteDom site.val)))
  have hphase := keep_syncPhase (ft := syncPhaseFoot) (by decide) (orVote e 5 (siteDom site.val))
  refine ⟨?_, ?_, ?_⟩
  · rw [rd_of_keep hbound (by decide), rd_of_keep hphase (by decide), hvote]
  · rw [Dev.bit, rd_of_keep hbound (by decide), rd_of_keep hphase (by decide), ← Dev.bit]
    exact Dev.bit_setBit_same _ _ _ _ _ _ (siteDom_lt site)
  · rw [rd_of_keep hbound (by decide)]
    exact syncPhase_test site (by rw [hvote]; omega)

theorem loopback_ended (s : State) (rq : Requester) (site : Fin 39) (arg : Nat) (hdom : domState s.dev (siteDom site.val) ≠ 2) :
    Brings (.loopbackSelect rq site 0 arg) s fun d => d.rd F.loop_depth site.val = 0 := by
  refine brings_of_run (execLoopbackSelect.eq_def rq site 0 arg s) ?_
  rw [loopSelect_ends arg rq hdom, rd_of_keep (keep_recomputeBound (ft := recomputeBoundFoot) (by decide) _) (by decide),
    rd_of_keep (keep_syncPhase (ft := syncPhaseFoot) (by decide) _) (by decide),
    rd_of_keep (keep_dropLoopVote (ft := dropLoopVoteFoot) (by decide) ..) (by decide), loopTaken_depth (by decide)]

/-- The fields of a loop-back's checker when a run starts. -/
def loopStart (site : Nat) (d : Dev) : Dev := ((d.setFlag F.loop_run true site).wr F.loopCnt_errors 0 site).wr F.loopCnt_checked 0 site

/-- The locker track that a running loop-back of a channel's depth 3 is told. -/
def loopShown (site : Nat) (d : Dev) : Dev :=
  match siteKind site with
  | (3, c) => if d.rd F.loop_depth site = 3 then d.emit (.loopTrack c (d.rd F.loop_arg site) (loopTrack d c)) else d
  | _ => d

theorem loopShown_rd (site : Nat) (d : Dev) (f : Fld) (i j : Nat) : (loopShown site d).rd f i j = d.rd f i j := by
  unfold loopShown
  split
  · split <;> rfl
  · rfl

theorem loopRun_starts {site : Nat} {d : Dev} (hdepth : d.rd F.loop_depth site ≠ 0) (hrun : d.flag F.loop_run site = false)
    (locked : Bool) (errors checked : Nat) :
    loopRun site true locked errors checked d = (((loopShown site (loopStart site d)).setFlag F.loop_locked locked site).addSat
      F.loopCnt_errors errors site).addSat F.loopCnt_checked checked site := by
  have hdepth' : (loopStart site d).rd F.loop_depth site ≠ 0 := by
    rw [loopStart, Dev.rd_wr_ne _ _ _ _ _ _ _ _ (by decide), Dev.rd_wr_ne _ _ _ _ _ _ _ _ (by decide),
      Dev.rd_setFlag_ne _ _ _ _ _ _ _ _ (by decide)]
    exact hdepth
  have hstart : (if d.flag F.loop_run site then d
      else ((d.setFlag F.loop_run true site).wr F.loopCnt_errors 0 site).wr F.loopCnt_checked 0 site) = loopStart site d := by
    rw [hrun]
    rfl
  rw [loopRun, if_neg (by decide), hstart]
  generalize loopStart site d = e at hdepth'
  rw [if_neg hdepth']
  rfl

theorem loopback_runs (s : State) (site : Fin 39) (locked : Bool) (errors checked : Nat) (hdepth : s.dev.rd F.loop_depth site.val ≠ 0)
    (hrun : s.dev.flag F.loop_run site.val = false) :
    Brings (.loopbackRun site true locked errors checked) s fun d => d.flag F.loop_run site.val = true ∧
      d.flag F.loop_locked site.val = locked ∧ d.rd F.loopCnt_errors site.val = satTo F.loopCnt_errors.w errors ∧
      d.rd F.loopCnt_checked site.val = satTo F.loopCnt_checked.w checked := by
  refine brings_of_run (execLoopbackRun.eq_def site true locked errors checked s) ?_
  have hcounts (f : Fld) (hf : F.loop_locked.id ≠ f.id) :
      ((loopShown site.val (loopStart site.val s.dev)).setFlag F.loop_locked locked site.val).rd f site.val = (loopStart site.val s.dev).rd f site.val :=
    (Dev.rd_setFlag_ne _ _ _ _ _ _ _ _ hf).trans (loopShown_rd ..)
  rw [loopRun_starts hdepth hrun]
  refine ⟨?_, ?_, ?_, ?_⟩
  · rw [Dev.flag, Dev.rd_addSat_ne _ _ _ _ _ _ _ _ (by decide), Dev.rd_addSat_ne _ _ _ _ _ _ _ _ (by decide), hcounts _ (by decide), loopStart,
      Dev.rd_wr_ne _ _ _ _ _ _ _ _ (by decide), Dev.rd_wr_ne _ _ _ _ _ _ _ _ (by decide), ← Dev.flag]
    exact Dev.flag_setFlag _ _ _ _ _ (by decide)
  · rw [Dev.flag, Dev.rd_addSat_ne _ _ _ _ _ _ _ _ (by decide), Dev.rd_addSat_ne _ _ _ _ _ _ _ _ (by decide), ← Dev.flag]
    exact Dev.flag_setFlag _ _ _ _ _ (by decide)
  · rw [Dev.rd_addSat_ne _ _ _ _ _ _ _ _ (by decide), Dev.rd_addSat_same, hcounts _ (by decide), loopStart,
      Dev.rd_wr_ne _ _ _ _ _ _ _ _ (by decide), Dev.rd_wr_lt _ _ _ _ _ (by decide), Nat.zero_add]
  · rw [Dev.rd_addSat_same, Dev.rd_addSat_ne _ _ _ _ _ _ _ _ (by decide), hcounts _ (by decide), loopStart,
      Dev.rd_wr_lt _ _ _ _ _ (by decide), Nat.zero_add]

/-! ### Injection, remapping and memory tests -/

theorem injection_armed (s : State) (addr mac kind : Nat) (haddr : addr < 2 ^ 36) (hmac : mac < 1024) (hkind : kind < 3) :
    Brings (.eccInject addr mac kind) s fun d => d.flag F.eccInj_armed = true ∧ d.rd F.eccInj_addr = addr ∧
      d.rd F.eccInj_mac = mac ∧ d.rd F.eccInj_kind = kind := by
  refine brings_of_run (execEccInject.eq_def addr mac kind s) ?_
  have harmed (f : Fld) (hf : F.eccInj_armed.id ≠ f.id) : (eccInject addr mac kind s.dev).rd f =
      (((s.dev.wr F.eccInj_addr addr).wr F.eccInj_mac mac).wr F.eccInj_kind kind).rd f := by
    rw [eccInject, if_neg (by omega)]
    exact Dev.rd_setFlag_ne _ _ _ _ _ _ _ _ hf
  refine ⟨?_, ?_, ?_, ?_⟩
  · rw [eccInject, if_neg (by omega)]
    exact Dev.flag_setFlag _ _ _ _ _ (by decide)
  · rw [harmed _ (by decide), Dev.rd_wr_ne _ _ _ _ _ _ _ _ (by decide), Dev.rd_wr_ne _ _ _ _ _ _ _ _ (by decide), Dev.rd_wr_lt _ _ _ _ _ haddr]
  · rw [harmed _ (by decide), Dev.rd_wr_ne _ _ _ _ _ _ _ _ (by decide), Dev.rd_wr_lt _ _ _ _ _ hmac]
  · rw [harmed _ (by decide), Dev.rd_wr_lt _ _ _ _ _ (by exact Nat.lt_of_lt_of_le hkind (by decide))]

theorem remap_taken (s : State) (mac row : Nat) (hidle : s.dev.flag F.eccRemapCtl_busy = false) (hmac : mac < 316) (hrow : row < macRows mac)
    (hspare : sparesUsed s.dev mac < 16) :
    Brings (.eccRemap mac row) s fun d => d.flag F.eccRemapCtl_busy = true ∧ d.ecc.job = some (mac, row) ∧
      d.ecc.remap = s.dev.ecc.remap ∧ d.ecc.norRemap = s.dev.ecc.norRemap := by
  refine brings_of_run (execEccRemap.eq_def mac row s) ?_
  have hidle' : ((s.dev.wr F.eccRemapCtl_mac mac).wr F.eccRemapCtl_row row).flag F.eccRemapCtl_busy = false := by
    rw [Dev.flag_wr_ne _ _ _ _ _ _ _ _ (by decide), Dev.flag_wr_ne _ _ _ _ _ _ _ _ (by decide), hidle]
  have hspare' : ¬ 16 ≤ sparesUsed ((s.dev.wr F.eccRemapCtl_mac mac).wr F.eccRemapCtl_row row) mac := Nat.not_le.2 hspare
  have hlegal : ¬ ((((s.dev.wr F.eccRemapCtl_mac mac).wr F.eccRemapCtl_row row).flag F.eccRemapCtl_busy || decide (316 ≤ mac) ||
      decide (macRows mac ≤ row)) = true) := by
    rw [hidle']
    simp only [Bool.false_or, Bool.or_eq_true, decide_eq_true_eq]
    omega
  rw [eccRemap, if_neg hlegal, if_neg hspare']
  exact ⟨Dev.flag_setFlag ((s.dev.wr F.eccRemapCtl_mac mac).wr F.eccRemapCtl_row row) _ true 0 0 (by decide), rfl, rfl, rfl⟩

theorem enterRemap_ecc (d : Dev) (mac row spare : Nat) : (enterRemap d mac row spare).ecc =
    { d.ecc with remap := tabPut [] d.ecc.remap mac (tabGet [] d.ecc.remap mac ++ [(row, spare)]) } := rfl

theorem remapDone_enters {d : Dev} {mac row : Nat} (h : d.ecc.job = some (mac, row)) :
    remapDone d = ((enterRemap d mac row (sparesUsed d mac)).updEcc fun e => { e with
      job := none, norRemap := e.norRemap ++ [remapRecord mac row (sparesUsed d mac)] }).setFlag F.eccRemapCtl_busy false := by
  rw [remapDone, h]

theorem remap_done (s : State) (mac row : Nat) (hjob : s.dev.ecc.job = some (mac, row))
    (hnone : (s.dev.power.stalled.any fun x => mayPerform (remapDone s.dev) x.2.1) = false) :
    Brings .remapDone s fun d => d.flag F.eccRemapCtl_busy = false ∧ d.ecc.job = none ∧
      (∀ m, tabGet [] d.ecc.remap m = if m = mac then tabGet [] s.dev.ecc.remap mac ++ [(row, sparesUsed s.dev mac)]
        else tabGet [] s.dev.ecc.remap m) ∧
      d.ecc.norRemap = s.dev.ecc.norRemap ++ [remapRecord mac row (sparesUsed s.dev mac)] := by
  have hquiet : ((remapDone s.dev).power.stalled.any fun x => mayPerform (remapDone s.dev) x.2.1) = false := by
    rw [power_of_keep (keep_remapDone (ft := remapDoneFoot) (by decide) s.dev) (by decide), hnone]
  have hrun : exec .remapDone s = .next { s with dev := remapDone s.dev } := by
    rw [exec, execRemapDone, liftMem, releaseReady_of_none_ready s.mem hquiet]
  refine ⟨_, hrun, ?_⟩
  rw [remapDone_enters hjob]
  exact ⟨Dev.flag_setFlag _ _ _ _ _ (by decide), rfl, fun m => tabGet_tabPut ([] : List (Nat × Nat)) s.dev.ecc.remap mac _ m, rfl⟩

theorem mbist_starts (s : State) (rq : Requester) (mac : Nat) (hidle : s.dev.flag F.eccMbist_busy = false) (hauth : loopAuthority s.dev = true)
    (hmac : mac < 1024) :
    Brings (.mbistStart rq mac) s fun d => d.flag F.eccMbist_busy = true ∧ d.rd F.eccMbist_mac = mac ∧ d.ecc.bist = some mac := by
  refine brings_of_run (execMbistStart.eq_def rq mac s) ?_
  have hidle' : (s.dev.wr F.eccMbist_mac mac).flag F.eccMbist_busy = false := by
    rw [Dev.flag_wr_ne _ _ _ _ _ _ _ _ (by decide), hidle]
  have hrun : mbistStart mac s.dev = ((s.dev.wr F.eccMbist_mac mac).setFlag F.eccMbist_busy true).updEcc fun e => { e with bist := some mac } := by
    simp only [mbistStart, hauth, hidle', Nat.mod_eq_of_lt hmac, Bool.not_true, Bool.false_eq_true, if_false]
  rw [hrun]
  have hflag : ((s.dev.wr F.eccMbist_mac mac).setFlag F.eccMbist_busy true).flag F.eccMbist_busy = true :=
    Dev.flag_setFlag _ _ _ _ _ (by decide)
  have hrd : ((s.dev.wr F.eccMbist_mac mac).setFlag F.eccMbist_busy true).rd F.eccMbist_mac = mac :=
    (Dev.rd_setFlag_ne _ _ _ _ _ _ _ _ (by decide)).trans (Dev.rd_wr_lt _ _ _ _ _ hmac)
  exact ⟨hflag, hrd, rfl⟩

theorem wipeMac_marks (d : Dev) (mac : Nat) : (wipeMac d mac).ecc.marks = d.ecc.marks.filter fun m => m.1 / 2 ^ 36 != mac := by
  unfold wipeMac
  split <;> rfl

theorem forEach_wipeMac_marks (macs : List Nat) (d : Dev) {x : Nat × Nat} (hx : x ∈ (forEach macs d wipeMac).ecc.marks) :
    x ∈ d.ecc.marks ∧ x.1 / 2 ^ 36 ∉ macs := by
  induction macs generalizing d with
  | nil => exact ⟨hx, by simp⟩
  | cons mac rest ih =>
    obtain ⟨hin, hrest⟩ := ih (wipeMac d mac) hx
    rw [wipeMac_marks, List.mem_filter] at hin
    obtain ⟨hin, hmac⟩ := hin
    have hne : x.1 / 2 ^ 36 ≠ mac := bne_iff_ne.1 hmac
    exact ⟨hin, fun hmem => (List.mem_cons.1 hmem).elim hne hrest⟩

/-- The macros that a test of a number covers. -/
def testedMacs (t : Nat) : List Nat := if t = 0x3FF then List.range 316 else [t]

/-- A test that has ended, with the rows that failed in it. -/
def bistEnded (rows : List (Nat × Nat)) (d : Dev) : Dev :=
  forEach rows ((d.setFlag F.eccMbist_busy false).updEcc fun e => { e with bist := none }) fun d r =>
    hardFaultCandidate (((d.setFlag F.eccMbist_fail true).wr F.eccMbist_fail_macro r.1).wr F.eccMbist_fail_row r.2) r.1 r.2

theorem bistEnded_idle (rows : List (Nat × Nat)) (d : Dev) : (bistEnded rows d).flag F.eccMbist_busy = false := by
  have hkeep : keep (footOf [.out] [F.eccMbist_fail, F.eccMbist_fail_macro, F.eccMbist_fail_row] ||| hardFaultCandidateFoot) (bistEnded rows d) =
      keep (footOf [.out] [F.eccMbist_fail, F.eccMbist_fail_macro, F.eccMbist_fail_row] ||| hardFaultCandidateFoot)
        ((d.setFlag F.eccMbist_busy false).updEcc fun e => { e with bist := none }) := by
    refine keep_forEach _ _ _ fun e (r : Nat × Nat) => ?_
    simp +decide only [↓keep_hardFaultCandidate, ↓keep_wr, ↓keep_setFlag]
  rw [flag_of_keep hkeep (by decide)]
  exact Dev.flag_setFlag d F.eccMbist_busy false 0 0 (by decide)

theorem mbistDone_ends {d : Dev} {t : Nat} (h : d.ecc.bist = some t) (rows : List (Nat × Nat)) (m : List Host.Cell) :
    mbistDone rows d m = (forEach (testedMacs t) (bistEnded rows d) wipeMac, (testedMacs t).foldl wipeWindow m) := by
  rw [mbistDone, h]
  rfl

theorem mbist_ends (s : State) (rows : List (Nat × Nat)) (t : Nat) (h : s.dev.ecc.bist = some t) : ∃ d : Dev,
    GivesMem (.mbistDone rows) s d ((if t = 0x3FF then List.range 316 else [t]).foldl wipeWindow s.mem) ∧
    d.flag F.eccMbist_busy = false ∧ ∀ mac, mac < 316 → (t = 0x3FF ∨ t = mac) → ∀ x ∈ d.ecc.marks, x.1 / 2 ^ 36 ≠ mac := by
  rw [← testedMacs]
  refine ⟨_, (execMbistDone.eq_def rows s).trans (by rw [liftMem, mbistDone_ends h]), ?_, ?_⟩
  · have hkeep : keep wipeMacFoot (forEach (testedMacs t) (bistEnded rows s.dev) wipeMac) = keep wipeMacFoot (bistEnded rows s.dev) :=
      keep_forEach _ _ _ fun e (k : Nat) => keep_wipeMac (by decide) e k
    rw [flag_of_keep hkeep (by decide), bistEnded_idle]
  · intro mac hmac ht x hx heq
    refine (forEach_wipeMac_marks _ _ hx).2 ?_
    rw [heq, testedMacs]
    by_cases hall : t = 0x3FF
    · rw [if_pos hall]
      exact List.mem_range.2 hmac
    · rw [if_neg hall]
      exact List.mem_singleton.2 (ht.resolve_left hall).symm

/-- Settles O53: loop-backs and remaps by their registers; a memory test by what each wipe leaves of the marks. -/
theorem testAndEccRowsComplete : Obligations.TestAndEccRowsComplete := by
  unfold Obligations.TestAndEccRowsComplete
  exact ⟨loopback_taken, loopback_ended, loopback_runs, injection_armed, remap_taken, remap_done, mbist_starts, mbist_ends⟩

end Sys2Proof.Machine
end

section
/-! PROOF. What a security fault leaves of the cipher's part. -/
namespace Sys2Proof.Machine

theorem ckeep_emergencyRetract {ft : Nat} (d : Dev) (n mask cause : Nat) : ckeep ft (emergencyRetract d n mask cause) = ckeep ft
    d :=
  ckeep_of_keep (keep_emergencyRetract (ft := emergencyRetractFoot) (by decide) d n mask cause) (by decide) ft

theorem ckeep_updPort {ft : Nat} (d : Dev) (h : Nat) (g : Port → Port) : ckeep ft (d.updPort h g) = ckeep ft d :=
    ckeep_of_cipher ft rfl

theorem ckeep_discardCtx {ft : Nat} (hft : inFoot dropWorkCipherF ft = true) (d : Dev) (id : Nat) : ckeep ft (discardCtx d id) =
    ckeep ft d :=
  ckeep_mono hft (by simp +decide only [discardCtx]; split <;> simp +decide only [↓ckeep_dropWork,
    ↓ckeep_leaveTable])

theorem ckeep_discardData {ft : Nat} (d : Dev) (wid : Nat) : ckeep ft (discardData d wid) = ckeep ft d :=
  ckeep_of_keep (keep_discardData (ft := discardDataFoot) (by decide) d wid) (by decide) ft

theorem ckeep_setPtr {ft : Nat} (d : Dev) (nsid zi wp : Nat) : ckeep ft (setPtr d nsid zi wp) = ckeep ft d :=
  ckeep_of_keep (keep_setPtr (ft := setPtrFoot) (by decide) d nsid zi wp) (by decide) ft

theorem ckeep_dropInFlight {ft : Nat} (hft : inFoot dropWorkCipherF ft = true) (d : Dev) : ckeep ft (dropInFlight d) = ckeep ft
    d := by
  refine ckeep_mono hft ?_
  unfold dropInFlight
  extract_lets ids e1 e2 c e3
  have he1 : ckeep dropWorkCipherF e1 = ckeep dropWorkCipherF d := by
    refine ckeep_forEach _ _ _ fun d id => ?_
    split
    · split
      · split
        · simp +decide only [↓ckeep_discardCtx, ↓ckeep_discardData, ↓ckeep_setPtr, ↓ckeep_forEach, implies_true]
        · rfl
      · rfl
    · rfl
  have he2 : ckeep dropWorkCipherF e2 = ckeep dropWorkCipherF d := by simp only [e2]; simp +decide only [he1, ↓ckeep_discardCtx, ↓ckeep_forEach, implies_true]
  have he3 : ckeep dropWorkCipherF e3 = ckeep dropWorkCipherF d := by simp only [e3]; simp +decide only [he2, ↓ckeep_part_chain]
  simp +decide only [he3, ↓ckeep_updPort, ↓ckeep_syncHost, ↓ckeep_forEach, implies_true]

theorem ckeep_trimZones {ft : Nat} (d : Dev) (lost : List Copied) : ckeep ft (trimZones d lost) = ckeep ft d :=
  ckeep_of_keep (keep_trimZones (ft := trimZonesFoot) (by decide) d lost) (by decide) ft

theorem ckeep_spreadBytes {ft : Nat} (d : Dev) (n : Nat) : ckeep ft (spreadBytes d n) = ckeep ft d :=
  ckeep_of_keep (keep_spreadBytes (ft := spreadBytesFoot) (by decide) d n) (by decide) ft

theorem ckeep_foldl_snd {m : Nat} {α β : Type} (l : List α) (g : β × Dev → α → β × Dev) (h : ∀ acc x, ckeep m (g acc x).2 = ckeep m acc.2)
    (acc : β × Dev) : ckeep m (l.foldl g acc).2 = ckeep m acc.2 := by
  induction l generalizing acc with
  | nil => rfl
  | cons x l ih => exact (ih (g acc x)).trans (h acc x)

theorem ckeep_xtsUse {ft : Nat} (hft : inFoot useKeyCipherF ft = true) (d : Dev) (ns : Ns) (pair units : Nat) (destage : Bool) :
    ckeep ft (xtsUse d ns pair units destage).2 = ckeep ft d := by
  unfold xtsUse
  split
  · rfl
  · have h1 := ckeep_fetchKey hft d (2 * pair) destage
    split
    · next f e hu =>
      rw [hu] at h1
      rw [ckeep_syncWork, ckeep_setFlag, ← h1]
    · next e hu =>
      have h2 := ckeep_fetchKey hft e (2 * pair + 1) destage
      rw [hu] at h1
      split
      · next f e' hu =>
        rw [hu] at h2
        rw [ckeep_syncWork, ckeep_setFlag, ← h1, ← h2]
      · next hu =>
        rw [hu] at h2
        rw [ckeep_syncWork, ckeep_spreadBytes, ← h1, ← h2]

theorem ckeep_sealCopies {ft : Nat} (hft : inFoot useKeyCipherF ft = true) (d : Dev) (l : List Copied) :
    ckeep ft (sealCopies d l).2 = ckeep ft d := by
  unfold sealCopies
  refine ckeep_foldl_snd _ _ (fun acc k => ?_) _
  split
  · rfl
  · next ns _ =>
    have hx := ckeep_xtsUse hft acc.2 ns k.2 (l.filter fun c => c.1 == k.1 && c.2.2.pair == k.2).length true
    split
    · next hu => rw [hu] at hx; exact hx
    · next hu => rw [hu] at hx; exact hx

theorem ckeep_emitGroups {ft : Nat} (d : Dev) (n : Nat) (es : List JournalEntry) : ckeep ft (emitGroups d n es) = ckeep ft d :=
  ckeep_of_keep (keep_emitGroups (ft := emitGroupsFoot) (by decide) d n es) (by decide) ft

theorem ckeep_otherEntries {ft : Nat} (d : Dev) (n : Nat) (records : List MapRec) : ckeep ft (otherEntries d n records).2 =
    ckeep ft d :=
  ckeep_of_keep (keep_otherEntries (ft := otherEntriesFoot) (by decide) d n records) (by decide) ft

theorem ckeep_flushLocker {ft : Nat} (hft : inFoot useKeyCipherF ft = true) (d : Dev) (n written : Nat) : ckeep ft (flushLocker
    d n written) = ckeep ft d :=
  ckeep_mono hft (by simp +decide only [flushLocker, ↓ckeep_updHost, ↓ckeep_updExtents, ↓ckeep_syncHost, ↓ckeep_updReset,
    ↓ckeep_trimZones, ↓ckeep_sealCopies, ↓ckeep_emitGroups, ↓ckeep_otherEntries, ↓ckeep_ite, ite_self])

theorem ckeep_dropActivation {ft : Nat} (d : Dev) : ckeep ft (dropActivation d) = ckeep ft d :=
  ckeep_of_keep (keep_dropActivation (ft := dropActivationFoot) (by decide) d) (by decide) ft

theorem ckeep_linksDown {ft : Nat} (d : Dev) (cause : Nat) : ckeep ft (linksDown d cause) = ckeep ft d :=
  ckeep_of_keep (keep_linksDown (ft := linksDownFoot) (by decide) d cause) (by decide) ft

theorem ckeep_dropTasks {ft : Nat} (d : Dev) : ckeep ft (dropTasks d) = ckeep ft d :=
  ckeep_of_keep (keep_dropTasks (ft := dropTasksFoot) (by decide) d) (by decide) ft

theorem ckeep_cancelCals {ft : Nat} (d : Dev) : ckeep ft (cancelCals d) = ckeep ft d :=
  ckeep_of_keep (keep_cancelCals (ft := cancelCalsFoot) (by decide) d) (by decide) ft

theorem ckeep_driveFault {ft : Nat} (d : Dev) (low : Bool) : ckeep ft (driveFault d low) = ckeep ft d :=
  ckeep_of_keep (keep_driveFault (ft := driveFaultFoot) (by decide) d low) (by decide) ft

theorem ckeep_endLoops {ft : Nat} (d : Dev) : ckeep ft (endLoops d) = ckeep ft d :=
  ckeep_of_keep (keep_endLoops (ft := endLoopsFoot) (by decide) d) (by decide) ft

def holdResetCipherF : Nat := cipherFoot [.cache, .jobs, .waitJobs, .parked]
theorem ckeep_holdReset {ft : Nat} (hft : inFoot holdResetCipherF ft = true) (d : Dev) : ckeep ft (holdReset d) = ckeep ft d :=
  ckeep_mono hft (by simp +decide only [holdReset, ↓ckeep_emergencyRetract, ↓ckeep_updReset, ↓ckeep_dropInFlight, ↓ckeep_flushLocker,
    ↓ckeep_dropActivation, ↓ckeep_linksDown, ↓ckeep_dropTasks, ↓ckeep_cancelCals, ↓ckeep_driveFault, ↓ckeep_endLoops, ↓ckeep_forEach,
    implies_true])

end Sys2Proof.Machine
end

section
/-! PROOF. What the sanitize step of a transition leaves of the host's part. -/
namespace Sys2Proof.Machine

def discardDirtyHost : Nat := hostFoot [.ctxs, .order, .extents, .held, .journal, .tasks]
theorem hkeep_discardDirty {ft : Nat} (hft : inFoot discardDirtyHost ft = true) (d : Dev) : hkeep ft (discardDirty d) = hkeep ft
    d := by
  refine hkeep_mono hft ?_
  unfold discardDirty
  extract_lets ids e1 e2
  have he1 : hkeep discardDirtyHost e1 = hkeep discardDirtyHost d := by simp only [e1]; simp +decide only [↓hkeep_finish, ↓hkeep_forEach, implies_true]
  have he2 : hkeep discardDirtyHost e2 = hkeep discardDirtyHost d := by simp only [e2, discardDirty.dropInternal]; simp +decide only [he1,
      ↓hkeep_discardCtx, ↓hkeep_forEach, implies_true]
  simp +decide only [he2, ↓hkeep_updHost, hmask, if_true, implies_true, ↓hkeep_syncHost]

end Sys2Proof.Machine
end

section
/-! PROOF. Permission Slips, life-cycle transitions and security faults. -/
namespace Sys2Proof.Machine

/-! ### Permission Slips -/

/-- What a slip that passes every check has recorded of it. -/
def slipRecorded (b : List Byte) (d : Dev) : Dev :=
  ((((d.wr F.secSlipStat_status 0).wr F.secSlipStat_kind (slipKind b)).wr F.secSlipStat_check 0).setFlag F.secSlipStat_valid true).wr
    F.secSerial_serial (slipSerial b) 0 (slipClass b)

/-- What a slip that passes every check then does. -/
def slipAccept (w : Option (Nat × Nat)) (b : List Byte) (d : Dev) : Dev :=
  if slipKind b = 1 then acceptGrant d w b else acceptTransition d w b

theorem slipSubmit_accepts {d : Dev} {b : List Byte} (hwork : d.sec.work = none) (hlc : d.rd F.secLc_state ≠ 5) (hcheck : slipCheck d b = (0, 0))
    (w : Option (Nat × Nat)) : slipSubmit w b d = slipAccept w b (slipRecorded b d) := by
  rw [slipSubmit, if_neg (by simp [hlc, hwork]), hcheck]
  rfl

theorem slipRecorded_reads (b : List Byte) (d : Dev) :
    (slipRecorded b d).rd F.secSlipStat_check = 0 ∧ (slipRecorded b d).flag F.secSlipStat_valid = true ∧
      (slipRecorded b d).rd F.secSerial_serial 0 (slipClass b) = slipSerial b % 2 ^ F.secSerial_serial.w ∧
      (slipRecorded b d).rd F.secLc_state = d.rd F.secLc_state := by
  have hserial (f : Fld) (hf : F.secSerial_serial.id ≠ f.id) : (slipRecorded b d).rd f =
      ((((d.wr F.secSlipStat_status 0).wr F.secSlipStat_kind (slipKind b)).wr F.secSlipStat_check 0).setFlag F.secSlipStat_valid true).rd f :=
    Dev.rd_wr_ne _ _ _ _ _ _ _ _ hf
  refine ⟨?_, ?_, Dev.rd_wr_same .., ?_⟩
  · rw [hserial _ (by decide), Dev.rd_setFlag_ne _ _ _ _ _ _ _ _ (by decide), Dev.rd_wr_lt _ _ _ _ _ (by decide)]
  · rw [Dev.flag, hserial _ (by decide), ← Dev.flag]
    exact Dev.flag_setFlag _ _ _ _ _ (by decide)
  · rw [hserial _ (by decide), Dev.rd_setFlag_ne _ _ _ _ _ _ _ _ (by decide), Dev.rd_wr_ne _ _ _ _ _ _ _ _ (by decide),
      Dev.rd_wr_ne _ _ _ _ _ _ _ _ (by decide), Dev.rd_wr_ne _ _ _ _ _ _ _ _ (by decide)]

theorem endD2Work_sec (d : Dev) : (endD2Work d).sec = { d.sec with d2 := none } := by
  unfold endD2Work
  split
  · next h => rw [← h]
  · rw [sec_of_keep (keep_resumeFetch (ft := resumeFetchFoot) (by decide) ..) (by decide),
      sec_of_keep (keep_endAdmin (ft := endAdminFoot) (by decide) ..) (by decide)]
    rfl

/-- The grant that a slip asks for. -/
def slipGrant (b : List Byte) : SlipRec := { level := slipLevel b, cycles := slipCycles b, signer := slipSigner b, flags := slipFlags b }

/-- The device on which a slip's grant is in force. -/
def granted (b : List Byte) (d : Dev) : Dev := (endD2Work d).updSec fun s => { s with slip := some (slipGrant b) }

theorem granted_lc (b : List Byte) (d : Dev) : (granted b d).rd F.secLc_state = d.rd F.secLc_state :=
  (Dev.updSec_rd ..).trans (rd_of_keep (keep_endD2Work (ft := endD2WorkFoot) (by decide) d) (by decide) 0 0)

/-- A level 2 grant in MISSION, on the device that drains its data. -/
def grantDrains (w : Option (Nat × Nat)) (b : List Byte) (d : Dev) : Dev :=
  destageAll (stopFetch (syncLevel ((granted b d).updSec fun s => { s with d2 := some { waiter := w } })) 3) false

/-- The command that brought a grant is held while the data drain. -/
def grantHeld (w : Option (Nat × Nat)) (d : Dev) : Dev :=
  match w with
  | some (h, _) => holdAdmin d h
  | none => d

theorem acceptGrant_cases (d : Dev) (w : Option (Nat × Nat)) (b : List Byte) : acceptGrant d w b =
    if (granted b d).rd F.secLc_state = 3 ∧ slipLevel b = 2 then grantHeld w (grantDrains w b d)
    else slipAnswer (syncLevel (granted b d)) w 0 := rfl

theorem grantHeld_sec (w : Option (Nat × Nat)) (d : Dev) : (grantHeld w d).sec = d.sec := by
  unfold grantHeld
  split
  · exact sec_of_keep (keep_holdAdmin (ft := holdAdminFoot) (by decide) ..) (by decide)
  · rfl

theorem acceptGrant_level2 {d : Dev} {b : List Byte} (h : d.rd F.secLc_state = 3 ∧ slipLevel b = 2) (w : Option (Nat × Nat)) :
    (acceptGrant d w b).sec = { (granted b d).sec with d2 := some { waiter := w } } := by
  rw [acceptGrant_cases, granted_lc, if_pos h, grantHeld_sec, grantDrains,
    sec_of_keep (keep_destageAll (ft := destageAllFoot) (by decide) ..) (by decide),
    sec_of_keep (keep_stopFetch (ft := stopFetchFoot) (by decide) ..) (by decide),
    sec_of_keep (keep_syncLevel (ft := syncLevelFoot) (by decide) _) (by decide), Dev.updSec_sec]

theorem acceptGrant_other {d : Dev} {b : List Byte} (h : ¬(d.rd F.secLc_state = 3 ∧ slipLevel b = 2)) (w : Option (Nat × Nat)) :
    (acceptGrant d w b).sec = (granted b d).sec := by
  rw [acceptGrant_cases, granted_lc, if_neg h, sec_of_keep (keep_slipAnswer (ft := slipAnswerFoot) (by decide) ..) (by decide),
    sec_of_keep (keep_syncLevel (ft := syncLevelFoot) (by decide) _) (by decide)]

theorem acceptGrant_grants (d : Dev) (w : Option (Nat × Nat)) (b : List Byte) :
    (acceptGrant d w b).sec.slip = some (slipGrant b) ∧ ((acceptGrant d w b).sec.d2.isSome = true ↔ d.rd F.secLc_state = 3 ∧ slipLevel b = 2) := by
  by_cases h : d.rd F.secLc_state = 3 ∧ slipLevel b = 2
  · rw [acceptGrant_level2 h]
    exact ⟨rfl, by simp [h]⟩
  · have hnone : (granted b d).sec.d2 = none := congrArg SecState.d2 (endD2Work_sec d)
    rw [acceptGrant_other h, hnone]
    exact ⟨rfl, by simp [h]⟩

theorem acceptTransition_begins (d : Dev) (w : Option (Nat × Nat)) (b : List Byte) :
    (acceptTransition d w b).sec.work = some { kind := slipKind b, owner := slipPayload b } ∧
      (acceptTransition d w b).cipher.san = { step := 2 } ∧ (acceptTransition d w b).host.extents = [] := by
  rw [acceptTransition]
  have hwork : (slipAnswer ((endD2Work d).updSec fun s => { s with work := some { kind := slipKind b, owner := slipPayload b } }) w 0).sec.work =
      some { kind := slipKind b, owner := slipPayload b } := by
    rw [sec_of_keep (keep_slipAnswer (ft := slipAnswerFoot) (by decide) ..) (by decide), Dev.updSec_sec]
  generalize slipAnswer ((endD2Work d).updSec fun s => { s with work := some { kind := slipKind b, owner := slipPayload b } }) w 0 = e at hwork
  refine ⟨?_, rfl, ?_⟩
  · rw [sec_of_keep (keep_setSan (ft := setSanFoot) (by decide) ..) (by decide),
      sec_of_keep (keep_discardDirty (ft := finishFoot) (by decide) _) (by decide),
      sec_of_keep (keep_syncLevel (ft := syncLevelFoot) (by decide) _) (by decide), hwork]
  · rw [setSan, Dev.updCipher_host]
    unfold discardDirty
    extract_lets ids e1 e2
    rw [extents_of_hkeep (hkeep_syncHost (ft := 0) _) (by decide)]
    rfl

/-- What a slip that passes every check leaves, of a device `w` on which it is examined. -/
def SlipAccepted (b : List Byte) (w d : Dev) : Prop :=
  d.rd F.secSlipStat_check = 0 ∧ d.flag F.secSlipStat_valid = true ∧
    d.rd F.secSerial_serial 0 (slipClass b) = slipSerial b % 2 ^ F.secSerial_serial.w ∧
    (slipKind b = 1 → d.sec.slip = some { level := slipLevel b, cycles := slipCycles b, signer := slipSigner b, flags := slipFlags b } ∧
      (d.sec.d2.isSome = true ↔ w.rd F.secLc_state = 3 ∧ slipLevel b = 2)) ∧
    (slipKind b ≠ 1 → d.sec.work = some { kind := slipKind b, owner := slipPayload b } ∧ d.cipher.san = { step := 2 } ∧
      d.host.extents = [])

theorem slipSubmit_accepted {d : Dev} {b : List Byte} (hwork : d.sec.work = none) (hlc : d.rd F.secLc_state ≠ 5) (hcheck : slipCheck d b = (0, 0))
    (w : Option (Nat × Nat)) : SlipAccepted b d (slipSubmit w b d) := by
  rw [slipSubmit_accepts hwork hlc hcheck, slipAccept]
  obtain ⟨hchk, hvalid, hserial, hstate⟩ := slipRecorded_reads b d
  generalize slipRecorded b d = e at *
  split
  · next hkind =>
    have hkeep := keep_acceptGrant (ft := acceptGrantFoot) (by decide) e w b
    obtain ⟨hslip, hd2⟩ := acceptGrant_grants e w b
    exact ⟨(rd_of_keep hkeep (by decide) 0 0).trans hchk, (flag_of_keep hkeep (by decide) 0 0).trans hvalid,
      (rd_of_keep hkeep (by decide) _ _).trans hserial, fun _ => ⟨hslip, by rw [hd2, hstate]⟩, fun hne => absurd hkind hne⟩
  · next hkind =>
    have hkeep := keep_acceptTransition (ft := acceptTransitionFoot) (by decide) e w b
    exact ⟨(rd_of_keep hkeep (by decide) 0 0).trans hchk, (flag_of_keep hkeep (by decide) 0 0).trans hvalid,
      (rd_of_keep hkeep (by decide) _ _).trans hserial, fun heq => absurd heq hkind, fun _ => acceptTransition_begins e w b⟩

theorem slips_bring (s : State) (b : SlipBytes) (P : Dev → Dev → Prop) (hwork : s.dev.sec.work = none) (hP : P = SlipAccepted b) :
    (s.dev.rd F.glbStructStat_activate < 2 → s.dev.rd F.secLc_state ≠ 5 → slipCheck s.dev b = (0, 0) →
      Brings (.permissionSlipSubmit none b) s (P s.dev)) ∧
    (∀ (h : HstId) (cid : Nat), AdminRuns s h.val false false → (wakeChip s.dev).rd F.secLc_state ≠ 5 →
      slipCheck (wakeChip s.dev) b = (0, 0) →
      Brings (.permissionSlipSubmit (some (h, cid)) b) s (P (wakeChip s.dev))) := by
  subst hP
  refine ⟨fun hact hlc hcheck => ?_, fun h cid hruns hlc hcheck => ?_⟩
  · refine brings_of_run (execPermissionSlipSubmit.eq_def none b s) ?_
    dsimp only
    rw [if_neg (by simpa using hact)]
    exact slipSubmit_accepted hwork hlc hcheck none
  · refine brings_of_run (execPermissionSlipSubmit.eq_def (some (h, cid)) b s) ?_
    have hkeep := keep_wakeChip (ft := wakeChipFoot) (by decide) s.dev
    have hlc' : (s.dev.rd F.secLc_state == 5) = false := by
      rw [← rd_of_keep hkeep (by decide) 0 0]
      simpa using hlc
    dsimp only
    rw [hlc', adminDo_runs cid _ hruns]
    exact slipSubmit_accepted ((congrArg SecState.work (sec_of_keep hkeep (by decide))).trans hwork) hlc hcheck _

/-! ### The end of a grant -/

/-- The keys that a level 2 grant withholds, on a device whose data have drained. -/
def keysWithheld (d : Dev) : Dev :=
  ((zeroForKeys (checkpointAll d) false).setFlag F.cphStat_kek_loaded false).updCipher fun c => { c with
    withheld := true, kek := 0, ranges := c.ranges.map fun r => { r with kek := none } }

/-- The grant in force, once the keys are withheld. -/
def d2InForce (d : Dev) : Dev := syncLevel ((keysWithheld d).updSec fun s => { s with d2 := none, d2Held := true })

theorem d2Done_ends {d : Dev} {x : D2Work} (hd2 : d.sec.d2 = some x) (hidle : inFlight d = false) (hnone : copiesOf d = []) :
    d2Done d = resumeFetch (endAdmin (d2InForce d) x.waiter 0 0) 3 := by
  rw [d2Done, hd2]
  dsimp only
  rw [hidle, hnone]
  rfl

theorem zeroForKeys_slots (d : Dev) (all : Bool) (i : Nat) : ((zeroForKeys d all).slot i).state = 0 := by
  refine tabGet_of_all (P := fun k : KeySlot => k.state = 0) rfl (fun x hx => ?_) i
  obtain ⟨y, _, rfl⟩ := List.mem_map.1 hx
  rfl

theorem keysWithheld_leaves (d : Dev) : (keysWithheld d).cipher.withheld = true ∧ (keysWithheld d).cipher.kek = 0 ∧
    (keysWithheld d).flag F.cphStat_kek_loaded = false ∧ ∀ i, ((keysWithheld d).slot i).state = 0 := by
  have hslots := zeroForKeys_slots (checkpointAll d) false
  rw [keysWithheld]
  generalize zeroForKeys (checkpointAll d) false = e at hslots
  exact ⟨rfl, rfl, Dev.flag_setFlag e F.cphStat_kek_loaded false 0 0 (by decide), hslots⟩

theorem d2_done (s : State) (x : D2Work) (hd2 : s.dev.sec.d2 = some x) (hidle : inFlight s.dev = false) (hnone : copiesOf s.dev = []) :
    Brings .d2GrantDone s fun d => d.cipher.withheld = true ∧ d.cipher.kek = 0 ∧ d.flag F.cphStat_kek_loaded = false ∧ d.sec.d2 = none ∧
      d.sec.d2Held = true ∧ d.host.stops.contains 3 = false ∧ ∀ i, (d.slot i).state = 0 := by
  refine brings_of_run (execD2GrantDone.eq_def s) ?_
  rw [d2Done_ends hd2 hidle hnone]
  obtain ⟨hheld, hkek, hloaded, hslots⟩ := keysWithheld_leaves s.dev
  have hkeep : keep (syncLevelFoot ||| endAdminFoot ||| resumeFetchFoot) (resumeFetch (endAdmin (d2InForce s.dev) x.waiter 0 0) 3) =
      keep (syncLevelFoot ||| endAdminFoot ||| resumeFetchFoot) ((keysWithheld s.dev).updSec fun s => { s with d2 := none, d2Held := true }) := by
    rw [keep_resumeFetch (by decide), keep_endAdmin (by decide), d2InForce, keep_syncLevel (by decide)]
  generalize keysWithheld s.dev = e at *
  have hcipher := cipher_of_keep hkeep (by decide)
  have hsec := sec_of_keep hkeep (by decide)
  refine ⟨?_, ?_, (flag_of_keep hkeep (by decide) 0 0).trans hloaded, ?_, ?_, resumeFetch_stops .., fun i => ?_⟩
  · rw [hcipher]
    exact hheld
  · rw [hcipher]
    exact hkek
  · rw [hsec]
    rfl
  · rw [hsec]
    rfl
  · rw [Dev.slot, hcipher]
    exact hslots i

theorem levelOf_closed {d : Dev} {state : Nat} (hgrant : d.grant = none) (hstate : 2 ≤ state) : levelOf d state = 0 := by
  unfold levelOf
  split
  · omega
  · omega
  · rw [hgrant]
  · rw [hgrant]
  · rw [hgrant]
  · rfl

/-- Without a grant, the debug level of a state past TEST is 0. -/
theorem syncLevel_closed {d : Dev} (hgrant : d.grant = none) (hstate : 2 ≤ lcStateOf d.sec.otp.lcCount) : (syncLevel d).rd F.secDbg_level = 0 := by
  unfold syncLevel
  extract_lets c st d1 d2 d3 level flags d4 d5 d6 free d7 d8
  have hlevel : level = 0 := by
    have hnone : d3.grant = none := hgrant
    exact levelOf_closed hnone hstate
  have hkeep : keep (footOf [] [F.secDbg_flags, F.secDbg_cycles, F.secDbg_signer, F.secDbg_withheld, F.dbgStat_jtag_level, F.dbgStat_halted,
      F.dbgStat_scan]) d8 = keep (footOf [] [F.secDbg_flags, F.secDbg_cycles, F.secDbg_signer, F.secDbg_withheld, F.dbgStat_jtag_level,
      F.dbgStat_halted, F.dbgStat_scan]) (d3.wr F.secDbg_level level) := by
    simp +decide only [d8, d7, d6, d5, d4, ↓keep_wr, ↓keep_setFlag, ↓keep_ite, ite_self]
  clear_value d8
  rw [Dev.rd_wr_ne _ _ _ _ _ _ _ _ (by decide), rd_of_keep hkeep (by decide), hlevel, Dev.rd_wr_lt _ _ _ _ _ (by decide)]

theorem session_closed (s : State) : Brings .debugSessionClose s fun d => d.sec.slip = none ∧ d.sec.d2 = none ∧
    (2 ≤ lcStateOf s.dev.sec.otp.lcCount → d.rd F.secDbg_level = 0) := by
  refine brings_of_run (execDebugSessionClose.eq_def s) ?_
  have hend : ((endD2Work s.dev).updSec fun s => { s with slip := none }).sec = { s.dev.sec with d2 := none, slip := none } := by
    rw [Dev.updSec_sec, endD2Work_sec]
  rw [closeSession]
  generalize (endD2Work s.dev).updSec (fun s => { s with slip := none }) = e at hend
  have hsec : (syncLevel e).sec = e.sec := sec_of_keep (keep_syncLevel (ft := syncLevelFoot) (by decide) e) (by decide)
  refine ⟨by rw [hsec, hend], by rw [hsec, hend], fun hstate => syncLevel_closed ?_ (by rw [hend]; exact hstate)⟩
  rw [Dev.grant, hend]
  exact ite_self none

/-! ### Life-cycle transitions -/

theorem burnTransition_burns (d : Dev) (w : LcWork) : (burnTransition d w).sec.otp.lcCount = if w.kind = 4 then 32 else d.sec.otp.lcCount + 1 := by
  unfold burnTransition
  extract_lets p bits d1
  have hcount : d1.sec.otp.lcCount = d.sec.otp.lcCount := by
    simp only [d1]
    split <;> rfl
  clear_value d1
  show (if w.kind = 4 then ({ d1.sec.otp with lcCount := 32, kill := true } : Otp) else { d1.sec.otp with lcCount := d1.sec.otp.lcCount + 1 }).lcCount = _
  split
  · rfl
  · rw [hcount]

/-- A burn without a slip counts the life cycle up, and burns nothing else. -/
theorem burnTransition_production (d : Dev) : burnTransition d { kind := 0 } = d.updOtp fun o => { o with lcCount := o.lcCount + 1 } := rfl

/-- A burn of the transition, counted, on the device whose dumps start afresh. -/
def burnCounted (w : LcWork) (d : Dev) : Dev :=
  (((cardCount (burnTransition d w) 14 1).wr F.evrPmStat_resets 0).wr F.evrPmStat_dump_seq 0).updCard fun c => { c with seq := 0 }

theorem burnCounted_sec (w : LcWork) (d : Dev) : (burnCounted w d).sec = (burnTransition d w).sec := by
  have hcount : (cardCount (burnTransition d w) 14 1).sec = (burnTransition d w).sec :=
    sec_of_keep (keep_cardCount (ft := cardCountFoot) (by decide) (burnTransition d w) 14 1) (by decide)
  exact hcount

theorem eraseNor_leaves (d : Dev) (decom : Bool) : (eraseNor d decom).sec = { d.sec with slip := none } ∧ (eraseNor d decom).cipher.store = [] ∧
    (eraseNor d decom).reset = d.reset := by
  cases decom
  · exact ⟨rfl, rfl, rfl⟩
  · exact ⟨rfl, rfl, rfl⟩

/-- What a burn that resets the chip leaves of the device on which it burnt. -/
theorem burnAndReset_leaves (w : LcWork) (d : Dev) : (burnAndReset w d).sec.otp = (burnTransition d w).sec.otp ∧
    (burnAndReset w d).sec.work = none ∧ (burnAndReset w d).reset.stage = 3 ∧ (burnAndReset w d).sec.slip = none ∧
    (burnAndReset w d).cipher.store = [] := by
  have hrun : burnAndReset w d = syncLevel ((eraseNor (beginStop (burnCounted w d) false none) (w.kind == 4)).updSec fun s => { s with work := none }) := rfl
  have hstage := (beginStop_begins (burnCounted w d) false none 0).1
  have hsec : (beginStop (burnCounted w d) false none).sec = (burnTransition d w).sec :=
    (sec_of_keep (keep_beginStop (ft := beginStopFoot) (by decide) _ false none) (by decide)).trans (burnCounted_sec w d)
  generalize beginStop (burnCounted w d) false none = e at *
  obtain ⟨herase, hstore, hreset⟩ := eraseNor_leaves e (w.kind == 4)
  generalize eraseNor e (w.kind == 4) = e' at *
  have hkeep := keep_syncLevel (ft := syncLevelFoot) (by decide) (e'.updSec fun s => { s with work := none })
  have hlast : (burnAndReset w d).sec = { (burnTransition d w).sec with slip := none, work := none } := by
    rw [hrun, sec_of_keep hkeep (by decide), Dev.updSec_sec, herase, hsec]
  rw [hlast]
  refine ⟨rfl, rfl, ?_, rfl, ?_⟩
  · rw [hrun, reset_of_keep hkeep (by decide), Dev.updSec_reset, hreset, hstage]
  · rw [hrun, cipher_of_keep hkeep (by decide), Dev.updSec_cipher, hstore]

theorem burn_brings (s : State) (w : LcWork) (hwork : s.dev.sec.work = some w) (herased : w.erasing = false) :
    Brings .lifeCycleBurn s fun d => d.sec.otp.lcCount = (if w.kind = 4 then 32 else s.dev.sec.otp.lcCount + 1) ∧ d.sec.work = none ∧
      d.reset.stage = 3 ∧ d.sec.slip = none ∧ d.cipher.store = [] := by
  refine brings_of_run (execLifeCycleBurn.eq_def s) ?_
  rw [hwork]
  dsimp only
  rw [if_neg (by simp [herased])]
  obtain ⟨hotp, hleft⟩ := burnAndReset_leaves w s.dev
  exact ⟨by rw [hotp, burnTransition_burns], hleft⟩

theorem blank_programmed (s : State) (f : Option ProdFields) (hblank : s.dev.rd F.secLc_state = 0) :
    Brings (.productionProgram f) s fun d => d.sec.otp.lcCount = s.dev.sec.otp.lcCount + 1 ∧ d.reset.stage = 3 := by
  refine brings_of_run (execProductionProgram.eq_def f s) ?_
  obtain ⟨hotp, _, hstage, _⟩ := burnAndReset_leaves { kind := 0 } s.dev
  have hrun : productionProgram f s.dev = burnAndReset { kind := 0 } s.dev := by
    simp only [productionProgram.eq_def, hblank]
  have hcount : (burnAndReset { kind := 0 } s.dev).sec.otp.lcCount = s.dev.sec.otp.lcCount + 1 := by
    rw [hotp, burnTransition_production]
    rfl
  rw [hrun]
  exact ⟨hcount, hstage⟩

theorem test_programmed (s : State) (f : ProdFields) (htest : s.dev.rd F.secLc_state = 1)
    (hready : productionReady (burnFields f s.dev.sec.otp) = true) :
    Brings (.productionProgram (some f)) s fun d => d.sec.otp.lcCount = s.dev.sec.otp.lcCount + 1 ∧ d.reset.stage = 3 ∧
      d.sec.otp.deviceId = s.dev.sec.otp.deviceId ||| f.deviceId ∧ d.sec.otp.rootSecret = s.dev.sec.otp.rootSecret ||| f.rootSecret := by
  refine brings_of_run (execProductionProgram.eq_def (some f) s) ?_
  obtain ⟨hotp, _, hstage, _⟩ := burnAndReset_leaves { kind := 0 } (s.dev.updOtp (burnFields f))
  have hrun : productionProgram (some f) s.dev = burnAndReset { kind := 0 } (s.dev.updOtp (burnFields f)) := by
    rw [productionProgram.eq_def, htest]
    exact if_pos hready
  rw [burnTransition_production] at hotp
  rw [hrun]
  generalize burnAndReset { kind := 0 } (s.dev.updOtp (burnFields f)) = e at *
  rw [hotp]
  exact ⟨rfl, hstage, rfl, rfl⟩

/-! ### The dump key and security faults -/

theorem dumpKey_kept (s : State) (h : HstId) (cid : Nat) (key : List (BitVec 8)) (hruns : AdminRuns s h.val false false) (hlen : key.length = 97)
    (hset : s.dev.sec.otp.dumpHash ≠ 0) (hhash : Config.sha384 key = s.dev.sec.otp.dumpHash) :
    Brings (.securitySendDumpKey h cid key) s fun d => d.card.dumpKey = some key ∧ d.out = .cqe h.val 0 cid 0 0 :: s.dev.out := by
  refine brings_of_run (execSecuritySendDumpKey.eq_def h cid key s) ?_
  have hotp : (wakeChip s.dev).sec = s.dev.sec := sec_of_keep (keep_wakeChip (ft := wakeChipFoot) (by decide) s.dev) (by decide)
  rw [adminDo_runs cid _ hruns, dumpKeySend, if_neg (by rw [hotp]; simp [hlen, hset, hhash])]
  refine ⟨rfl, ?_⟩
  rw [← wakeChip_out s.dev]
  rfl

/-- What a security fault zeroes at once. -/
def faultKeys (d : Dev) : Dev :=
  syncWork ((d.updCipher fun c => { c with kek := 0, ranges := c.ranges.map (fun r => { r with kek := none }), cache := [] }).setFlag
    F.cphStat_kek_loaded false)

/-- The cause of a security fault, recorded. -/
def faultTold (d : Dev) (cause : Nat) : Dev :=
  syncLevel (((faultKeys d).wr F.secFault_cause cause).updSec fun s => { s with fault := true, d2 := none })

theorem securityFault_holds (d : Dev) (cause : Nat) : securityFault d cause = holdReset (faultTold d cause) := rfl

theorem faultTold_leaves (d : Dev) {cause : Nat} (h : cause < 8) : (faultTold d cause).sec.fault = true ∧ (faultTold d cause).rd F.secFault_cause = cause ∧
    (faultTold d cause).cipher.kek = 0 ∧ (faultTold d cause).flag F.cphStat_kek_loaded = false := by
  have hkeep := keep_syncLevel (ft := syncLevelFoot) (by decide) (((faultKeys d).wr F.secFault_cause cause).updSec fun s => { s with
    fault := true, d2 := none })
  have hloaded : (faultKeys d).flag F.cphStat_kek_loaded = false :=
    (flag_of_keep (keep_syncWork (ft := syncWorkFoot) (by decide) _) (by decide) 0 0).trans (Dev.flag_setFlag _ _ _ _ _ (by decide))
  have hkek : (faultKeys d).cipher.kek = 0 := by
    rw [faultKeys, syncWork_cipher]
    rfl
  rw [faultTold]
  generalize faultKeys d = e at *
  refine ⟨?_, ?_, ?_, ?_⟩
  · rw [sec_of_keep hkeep (by decide)]
    rfl
  · rw [rd_of_keep hkeep (by decide), Dev.updSec_rd, Dev.rd_wr_lt _ _ _ _ _ (by exact h)]
  · rw [cipher_of_keep hkeep (by decide)]
    exact hkek
  · rw [flag_of_keep hkeep (by decide), Dev.flag, Dev.updSec_rd, ← Dev.flag, Dev.flag_wr_ne _ _ _ _ _ _ _ _ (by decide), hloaded]

theorem holdReset_fault_n (d : Dev) : (holdReset d).flag F.glbPins_fault_n = false := by
  unfold holdReset
  extract_lets d1 d2 d3 d4 d5
  have hkeep : keep (linksDownFoot ||| dropActivationFoot ||| cancelCalsFoot ||| dropTasksFoot ||| dropInFlightFoot ||| flushLockerFoot) d5 =
      keep (linksDownFoot ||| dropActivationFoot ||| cancelCalsFoot ||| dropTasksFoot ||| dropInFlightFoot ||| flushLockerFoot) (driveFault d2 true) := by
    simp +decide only [d5, d4, d3, ↓keep_linksDown, ↓keep_dropActivation, ↓keep_cancelCals, ↓keep_dropTasks, ↓keep_dropInFlight,
      ↓keep_flushLocker, ↓keep_forEach, implies_true]
  clear_value d5 d2
  rw [Dev.flag, Dev.updReset_rd, ← Dev.flag, flag_of_keep hkeep (by decide)]
  exact Dev.flag_setFlag d2 F.glbPins_fault_n false 0 0 (by decide)

theorem fault_brings (s : State) (cause : Fin 4) (hheld : s.dev.reset.held = false) :
    Brings (.securityFault cause) s fun d => d.reset.held = true ∧ d.sec.fault = true ∧ d.rd F.secFault_cause = cause.val + 1 ∧
      d.cipher.kek = 0 ∧ d.flag F.cphStat_kek_loaded = false ∧ d.flag F.glbPins_fault_n = false := by
  refine brings_of_run (execSecurityFault.eq_def cause s) ?_
  rw [if_neg (by simp [hheld]), securityFault_holds]
  have hcause : cause.val + 1 < 8 := by omega
  obtain ⟨hfault, htold, hkek, hloaded⟩ := faultTold_leaves s.dev hcause
  generalize faultTold s.dev (cause.val + 1) = e at *
  have hkeep := keep_holdReset (ft := holdResetFoot) (by decide) e
  refine ⟨rfl, ?_, (rd_of_keep hkeep (by decide) 0 0).trans htold, ?_, (flag_of_keep hkeep (by decide) 0 0).trans hloaded, holdReset_fault_n e⟩
  · rw [sec_of_keep hkeep (by decide), hfault]
  · rw [kek_of_ckeep (ckeep_holdReset (ft := holdResetCipherF) (by decide) e) (by decide), hkek]

/-- Settles O50: slips by what their acceptance records, transitions by the stop that a burn begins, faults by what the hold keeps. -/
theorem securityRowsComplete : Obligations.SecurityRowsComplete := by
  unfold Obligations.SecurityRowsComplete
  exact ⟨slips_bring, d2_done, session_closed, burn_brings, blank_programmed, test_programmed, dumpKey_kept, fault_brings⟩

end Sys2Proof.Machine
end
